-- ==== Sys2Proof/Word.lean ====
section
/-! DEFINITION. The widths of the Scabex 9204 (00_scope.md R10, R12): registers are 32-bit words, and bit 0 is the
least significant bit of any register, field or word. -/

namespace Sys2Proof

/-- A register word (R12). -/
abbrev Word := BitVec 32

/-- A byte of a frame, a descriptor or a record. -/
abbrev Byte := BitVec 8

/-- A 64-bit counter or time, TS format included (R41, R287). -/
abbrev DWord := BitVec 64

end Sys2Proof
end

