-- ==== Sys2Proof/Syntax.lean ====
section
/-! DEFINITION. The commands the block takes from outside: the operations and events of spec/opcode_table.json, one
constructor each, and the types of their operands (DESIGN CHOICE, log entry 2). Every bounded index is a Fin of the range that
00_scope.md R7 gives it. -/

namespace Sys2Proof

/-- A half of the device, 0 West and 1 East (R7). -/
abbrev Half := Fin 2
/-- A slice (R7). -/
abbrev Slice := Fin 32
/-- A serial lane (R7). -/
abbrev Lane := Fin 1024
/-- A lane macro (R7). -/
abbrev Macro := Fin 128
/-- A port slot: the index of the port's first lane (R7). -/
abbrev Port := Fin 1024
/-- A ring: the 2-bit number stamped on every packet (R7). -/
abbrev Ring := Fin 4
/-- A span position: 8 positions in each slice (R131). -/
abbrev SpanPos := Fin 256
/-- A DMA queue (R349). -/
abbrev QueueId := Fin 153

/-- The requesters of R43. -/
inductive Requester where
  | host | west | east
  deriving DecidableEq, Repr

/-- The two PLLs of a lane macro (R61). -/
inductive Pll where
  | a | b
  deriving DecidableEq, Repr

/-- The two directions of a slice's pipes (R7). -/
inductive Dir where
  | ingress | egress
  deriving DecidableEq, Repr

/-- One access to BAR0 (R41), or of the host to BAR2 (12_host_interface.md R346), whose bytes stand from bar2Base on: its byte address, its size in
bytes, the byte enables of its first dword, and for a write the value. -/
structure Access where
  req   : Requester
  addr  : Nat
  size  : Nat := 4
  be    : Nat := 15
  value : Word := 0
  deriving DecidableEq, Repr

/-- Where the addresses of BAR2 begin, after the 256 MiB of BAR0: the host places both (DESIGN CHOICE, log entry 83). -/
abbrev bar2Base : Nat := 2 ^ 28

/-- The access is the host's to BAR2, 32 KiB. -/
def Access.bar2 (a : Access) : Bool :=
  decide (a.req = .host) && decide (bar2Base ≤ a.addr ∧ a.addr < bar2Base + 2 ^ 15)

/-- What a lane's receiver measures when its coefficients converge (R75, Table 33). -/
structure LaneMeas where
  ctle : BitVec 5
  eye  : BitVec 16
  ppm  : BitVec 16
  coef : List Byte
  deriving DecidableEq, Repr

/-- What a receive FEC counts in one window of 1 ms (R82): codewords by the number of symbols corrected, and
codewords that could not be corrected. -/
structure FecWindow where
  bins   : List Nat
  uncorr : Nat
  deriving DecidableEq, Repr

/-- A frame as the receive MAC takes it: the bytes that have arrived, FCS included, its full length on the wire, and
the index in the frame of the first byte of these that the PCS or the FEC marked in error. The whole frame is there when bytes are len long;
otherwise its tail follows as a TAIL_ARRIVAL. -/
structure RxFrame where
  bytes  : List Byte
  len    : Nat
  pcsErr : Option Nat := none
  deriving DecidableEq, Repr

/-- The tail of a frame whose first part was taken before, to its last byte. -/
structure RxTail where
  bytes  : List Byte
  pcsErr : Option Nat := none
  deriving DecidableEq, Repr

/-- What arrives over Flume on a channel (R27, R265): the next frame, whether a flit of it has an uncorrectable error; or the
rest of frame i, taken before its tail had crossed, in which such a flit is found now. -/
inductive FlumeRx where
  | frame (chan : Fin 64) (flitBad : Bool)
  | rest (i : Nat)
  deriving DecidableEq, Repr

/-- The five defects of a span position (R113). -/
inductive Defect where
  | los | lof | lom | ais | rdi
  deriving DecidableEq, Repr

/-- Where an exact-match entry lies: a slot of a bucket of a bank, or a stash slot. -/
inductive EmLoc where
  | slot (half : Half) (bank : Nat) (bucket : Nat) (idx : Nat)
  | stash (half : Half) (idx : Nat)
  deriving DecidableEq, Repr

/-- What an ECC error in Deck touches: a corrected one; an uncorrectable one in a cell's data, in a cell's owner tag,
or in a link word of a list (R258). -/
inductive DeckEcc where
  | corrected
  | data (cell : Nat)
  | tag (cell : Nat)
  | link (lst : Fin 64)
  deriving DecidableEq, Repr

/-- The three message queues of Lookout (R396). -/
inductive MsgQueue where
  | common | west | east
  deriving DecidableEq, Repr

/-- TYPE of a Lookout message (Table 148). -/
inductive MsgType where
  | rise | fall | pulse
  deriving DecidableEq, Repr

/-- A Lookout message (R386, Table 148): word 0 field by field, INFO and the time. -/
structure Message where
  src   : Nat
  code  : Nat
  typ   : MsgType
  kind  : Nat
  inst  : Nat
  dlost : Bool := false
  seq   : Nat := 0
  info  : Word := 0
  time  : DWord := 0
  deriving DecidableEq, Repr

/-- The three power caps (R405). -/
inductive Cap where
  | fast | sus | long
  deriving DecidableEq, Repr

/-- The readings of the 32 die sensors and the two HBM stacks, degrees Celsius (R414). -/
structure TempSample where
  dies : List Int
  hbm0 : Int
  hbm1 : Int
  deriving DecidableEq, Repr

/-- What a cluster reads in the boot flash (R441, R454): the images of the slots FW0 and FW1, empty where the slot holds
no image marked valid, and of the recovery slot. The flash is a chip of the board. -/
structure BootFlash where
  fw0      : List Byte
  fw1      : List Byte
  recovery : List Byte
  deriving DecidableEq, Repr

/-- What the PMBus master and the rail monitors read for a SENSORS command. -/
structure RailTelemetry where
  words : List Word
  deriving DecidableEq, Repr

/-- The strap pins as a reset samples them (R450), and the supplies of banks M0 to M3 in mV as a power-on senses them
(R473). -/
structure PinSample where
  headSel : Bool
  bootSrc : Fin 4
  io      : List Nat
  deriving DecidableEq, Repr


/-- What a table command reads: its data block from host memory, and how many steps its routine takes before a block reset that is
under way stops it (06_tables.md R200). -/
structure TableRead where
  bytes : List Byte
  steps : Nat := 0
  deriving DecidableEq, Repr

/-- A page and the requester that writes to it. -/
structure PageBy where
  req  : Requester
  page : Nat
  deriving DecidableEq, Repr

/-- A command of the block: one constructor per row of spec/opcode_table.json, in its order. The operands are the
model's (DESIGN CHOICE, log entry 2): what the rule leaves to the outside. -/
inductive Instr where
  /-- REGISTER_WRITE (R57). A register write by the host or a Forester cluster to a register that has no row of its own takes effect in its page, in order for one requester and page. -/
  | registerWrite (a : Access)
  /-- COUNTER_LOW_READ (R43). A 32-bit read of the low word of a 64-bit counter copies the high word into the requester's shadow for that page. -/
  | counterLowRead (a : Access)
  /-- COUNTER_HIGH_WRITE (R43). A 32-bit write of the high word of a 64-bit counter places the value in the requester's staging word. -/
  | counterHighWrite (req : Requester) (page : Nat) (off : Nat) (value : Word)
  /-- COUNTER_LOW_WRITE (R43). A 32-bit write of the low word loads the staged high word and the written low word into the counter at once and clears the staging word. -/
  | counterLowWrite (req : Requester) (page : Nat) (off : Nat) (value : Word)
  /-- PG_EVT_CLEAR (R48). A write to PG_EVT clears the written event bits when its SEQ matches, and otherwise clears nothing. -/
  | pgEvtClear (req : Requester) (page : Nat) (value : Word)
  /-- PG_LOCK (R38). Writing 1 to PG_LOCK.LOCK locks every RWL field of the page until power-on or chip reset. -/
  | pgLock (req : Requester) (page : Nat)
  /-- BLK_RST (R452). Writing 1 to PG_CTRL.BLK_RST, or a Lookout BLK_RST reaction, starts a block reset of the page's block. -/
  | blkRst (page : PageBy)
  /-- BLOCK_RESET_DONE (R452). A block reset completes within 20 µs, its literal fields take their reset values and PG_STAT.READY returns to 1. -/
  | blockResetDone (page : Nat)
  /-- POSTED_WRITE_PERFORMED (R50). The owning block performs a posted write of a slow page and WBUSY falls on that edge. -/
  | postedWritePerformed (page : Nat)
  /-- WIN_READ (R55). A WIN_CMD write with OP read captures the window staging registers and is posted to read up to 16 words of the selected memory. -/
  | winRead (req : Requester) (page : Nat) (nwords : Fin 32)
  /-- WIN_WRITE (R55). A WIN_CMD write with OP write captures the staging registers and data words and is posted to write the selected memory atomically toward lookups. -/
  | winWrite (req : Requester) (page : Nat) (nwords : Fin 32)
  /-- WIN_BAD_OP (R56). A WIN_CMD write with OP 0b00 or 0b11 is accepted and posted, and ends with ERR = BAD_OP changing no memory. -/
  | winBadOp (req : Requester) (page : Nat) (hi : Bool) (nwords : Fin 32)
  /-- WIN_CMD_DONE (R56). A window command ends, successfully or with an error, setting WIN_STAT.DONE and dropping WBUSY on that edge. -/
  | winCmdDone (page : Nat) (eccBad : Bool)
  /-- FENCE (R58). A write to ORDER.FENCE holds every later access of the requester until its earlier writes have taken effect. -/
  | fence (req : Requester)
  /-- FENCE_DONE (R58). A fence completes once every earlier write of its requester has taken effect, releasing held accesses and counting FENCE_CNT. -/
  | fenceDone (req : Requester)
  /-- PLL_RATE_APPLY (R62). A new MC_PLL rate takes effect when the write is performed with no enabled port using the PLL, or when the last such port is disabled. -/
  | pllRateApply (m : Macro) (pll : Pll)
  /-- PLL_LOCK (R62). A PLL reaches lock at its new rate, and lanes waiting on it leave DORMANT for ACQUIRE. -/
  | pllLock (m : Macro) (pll : Pll)
  /-- PLL_UNLOCK (R62). A PLL used by an enabled port loses lock and raises the PLL_UNLOCK event. -/
  | pllUnlock (m : Macro) (pll : Pll)
  /-- PORT_ENABLE (R69). PORT_CTRL.EN rises, the device checks the port under Table 24 and, when every check passes, applies PORT_CFG and starts bring-up. -/
  | portEnable (p : Port)
  /-- PORT_DISABLE (R75). PORT_CTRL.EN falls and the port's lanes go DORMANT within 10 µs. -/
  | portDisable (p : Port)
  /-- PWR_ACTIVE (R75). PORT_CTRL.PWR set to Active returns the port's lanes from STANDBY or DORMANT toward ACTIVE. -/
  | pwrActive (p : Port)
  /-- PWR_STANDBY (R75). PORT_CTRL.PWR set to Standby puts the port's lanes in STANDBY within 1 µs. -/
  | pwrStandby (p : Port)
  /-- PWR_DORMANT (R75). PORT_CTRL.PWR set to Dormant puts the port's lanes in DORMANT within 10 µs. -/
  | pwrDormant (p : Port)
  /-- SIGNAL_AND_CDR_LOCK (R75). A lane in ACQUIRE sees signal and CDR lock and moves to ADAPT, or to ACTIVE when ADAPT is 0b10. -/
  | signalAndCdrLock (l : Lane)
  /-- LOSS_OF_SIGNAL (R73). A lane's input stays below 50 mVppd for 1 µs, it declares loss of signal and returns to ACQUIRE. -/
  | lossOfSignal (l : Lane)
  /-- CDR_UNLOCK (R75). A lane's CDR loses lock and the lane returns to ACQUIRE with its last coefficients. -/
  | cdrUnlock (l : Lane)
  /-- ADAPT_CONVERGED (R75). A lane's receiver coefficients converge and the lane enters ACTIVE. -/
  | adaptConverged (l : Lane) (meas : LaneMeas)
  /-- LINK_UP (R77). The link-up conditions have held for 10 µs and the port declares link up and sets LINK_CHG. -/
  | linkUp (p : Port)
  /-- REMOTE_FAULT (R78). The port receives remote fault, transmits idle and counts RF_CNT. -/
  | remoteFault (p : Port)
  /-- FEC_DEGR_WINDOW (R82). At the end of each 1 ms window the uncorrectable codeword count is compared with FEC_DEGR.THR, setting or clearing FEC_DEGRADED. -/
  | fecDegrWindow (p : Port) (w : FecWindow)
  /-- RECAL_LIVE (R84). Writing 1 to PORT_CTRL.RECAL_LIVE while the port is UP starts a live recalibration of its lanes. -/
  | recalLive (p : Port)
  /-- RECAL_LIVE_DONE (R84). A live recalibration completes within 200 ms, clearing RECAL_LIVE and BUSY and setting RECAL_DONE. -/
  | recalLiveDone (p : Port)
  /-- RECAL_FULL (R85). Writing 1 to PORT_CTRL.RECAL_FULL takes the link down and sends the port's lanes to ACQUIRE adopting MC_FW.NEXT. -/
  | recalFull (p : Port)
  /-- PORT_RESET (R87). Writing 1 to PORT_CTRL.RST rechecks PORT_CFG and resets the port's PCS, FEC and MAC, restarting bring-up. -/
  | portReset (p : Port)
  /-- RX_FRAME (R81). The receive MAC takes a frame, discards it with the first applicable reason or admits it to the slice ingress FIFO. -/
  | rxFrame (p : Port) (f : RxFrame)
  /-- TAIL_ARRIVAL (R135). The tail of a cut-through frame arrives, its exact length becomes known and late meter charges are taken. -/
  | tailArrival (p : Port) (f : RxTail)
  /-- SPAN_FRAME_RX (R97). A span port receives one 8,192-byte span frame and checks FAW, MFAS, SBIP, status bytes and channel slots. -/
  | spanFrameRx (q : SpanPos) (bytes : List Byte)
  /-- SPAN_FRAME_TX (R95). A span port begins transmitting a span frame, reading SSEL_TX and sending overhead, SREI and consequent actions. -/
  | spanFrameTx (q : SpanPos)
  /-- SPAN_PACKET_RX (R106). A delineated span packet is checked against Table 38 once its following header is checked and is delivered or discarded. -/
  | spanPacketRx (q : SpanPos)
  /-- DEFECT_TIMER (R113). A span defect's persistence time runs out and the defect is declared or cleared, setting the DEFECT event. -/
  | defectTimer (q : SpanPos) (d : Defect)
  /-- INJ_BIP (R97). Writing SP_CTRL.INJ_BIP inverts bit 0 of SBIP in one transmitted frame and then clears. -/
  | injBip (q : SpanPos)
  /-- PM_SECOND (R116). At each PTP second the device classifies the second for each span position and end as ES, SES, BBE or unavailable. -/
  | pmSecond
  /-- BIN15 (R118). At each multiple of 900 PTP seconds the current 15-minute bins move to previous and clear. -/
  | bin15
  /-- DAY (R118). At each day boundary less PM_DAY_OFS the day bins roll over. -/
  | day (sl : Slice)
  /-- PM_HISTORY_COPY (R119). The head Forester copies each previous bin into its history 10 s after the rollover. -/
  | pmHistoryCopy (day : Bool)
  /-- OHSP_FRAME (R122). An enabled OHSP port sends and samples one 32-timeslot TDM frame, moving channel bytes with RDY and V. -/
  | ohspFrame (n : Fin 4) (din : List (BitVec 10))
  /-- PARSE (R137). The parser takes a frame from the ingress FIFO, walks the parse graph and forms the header vector. -/
  | parse (sl : Slice)
  /-- SWAP (R140). Writing 1 to PP_CTRL.SWAP stops the parser after its current frame in order to change the running bank. -/
  | swap (sl : Slice)
  /-- SWAPPED (R140). The last vector leaves the parser, PP_STAT.BANK inverts, SWAP clears and SWAPPED is set. -/
  | swapped (sl : Slice)
  /-- MICROWORD_EXEC (R144). A Kerf stage executes one microword on a vector: key, lookup, ALUs, writes, meter, counter, disposition and next address. -/
  | microwordExec (sl : Slice) (dir : Dir) (stage : Fin 8)
  /-- DEPARSE (R162). The deparser builds the transmitted frame from the vector with template, tag operation, Raft tag, padding and new FCS. -/
  | deparse (sl : Slice)
  /-- BOOST_ON (R172). Woodlot backlog above ON for 1 µs with boost enabled and permitted raises the Woodlot clock to 1.7 GHz. -/
  | boostOn (h : Half) (backlog : Nat)
  /-- BOOST_OFF (R172). Backlog below OFF for 10 µs, or withdrawn permission, returns the Woodlot clock to 1.6 GHz. -/
  | boostOff (h : Half) (backlog : Nat)
  /-- LEARN_REQUEST (R192). The learning master takes a request from its FIFO and inserts, moves, damps or refuses the entry in the West copy. -/
  | learnRequest (h : Half)
  /-- EAST_COPY_APPLY (R192). The East copy takes the change the master made to the West copy within 2 µs. -/
  | eastCopyApply
  /-- AGING_VISIT (R196). The aging scanner visits a dynamic entry, clearing its HIT or deleting it with an AGED notice. -/
  | agingVisit (loc : EmLoc)
  /-- HIT_NOTICE (R197). A hit notice from the East half sets the West copy's HIT on arrival, or is discarded if the entry was deleted. -/
  | hitNotice
  /-- EM_INSERT (R178). The table command EM_INSERT places an exact-match entry in a bucket, by relocation or in the stash, or ends with EXISTS or NO_SPACE. -/
  | emInsert (q : Fin 16) (blk : TableRead)
  /-- EM_UPDATE (R182). The table command EM_UPDATE changes an existing exact-match entry immediately or staged. -/
  | emUpdate (q : Fin 16) (blk : TableRead)
  /-- EM_UPSERT (R182). The table command EM_UPSERT inserts or updates an exact-match entry. -/
  | emUpsert (q : Fin 16) (blk : TableRead)
  /-- EM_DELETE (R182). The table command EM_DELETE clears an entry or sets its DEATH to the staging ring. -/
  | emDelete (q : Fin 16) (blk : TableRead)
  /-- EM_READ (R182). The table command EM_READ writes back the version of an entry visible to the current ring. -/
  | emRead (q : Fin 16) (blk : TableRead)
  /-- LPM_INSERT (R185). The table command LPM_INSERT adds a prefix to an LPM table within the half's prefix limit. -/
  | lpmInsert (q : Fin 16) (blk : TableRead)
  /-- LPM_DELETE (R186). The table command LPM_DELETE removes a prefix, each lookup seeing the result before or after. -/
  | lpmDelete (q : Fin 16) (blk : TableRead)
  /-- LPM_READ (R182). The table command LPM_READ writes back an exact prefix visible to the current ring. -/
  | lpmRead (q : Fin 16) (blk : TableRead)
  /-- TCAM_WRITE (R206). The table command TCAM_WRITE writes a TCAM entry in the selected slices, staged only into a free or retired index. -/
  | tcamWrite (q : Fin 16) (blk : TableRead)
  /-- TCAM_DELETE (R206). The table command TCAM_DELETE removes the TCAM entry at INDEX in the selected slices. -/
  | tcamDelete (q : Fin 16) (blk : TableRead)
  /-- BULK_MOVE (R208). The table command BULK_MOVE changes the DEST of every matching untagged entry of the table at an increasing cursor. -/
  | bulkMove (q : Fin 16) (blk : TableRead)
  /-- BULK_FLUSH (R208). The table command BULK_FLUSH deletes every matching untagged entry of the table at an increasing cursor. -/
  | bulkFlush (q : Fin 16) (blk : TableRead)
  /-- TABLE_NOP (R205). The table command NOP completes with OK and changes nothing. -/
  | tableNop (q : Fin 16)
  /-- STASH_DRAIN (R181). The background context moves a stash entry into one of its buckets and frees the stash slot. -/
  | stashDrain (h : Half) (slot : Fin 8)
  /-- RECLAIM (R222). Reclaim clears the tags naming a ring in SWEEP from each logged location, and the ring becomes FREE when both halves finish. -/
  | reclaim (h : Half)
  /-- LPM_COMPACTION (R198). The background context runs one step of LPM compaction without changing what any ring sees. -/
  | lpmCompaction (h : Half)
  /-- WL_MIGRATE (R202). A write of WL_MIGRATE.GO starts migration of a bank to the lowest unused spare, or sets SPARE_OUT. -/
  | wlMigrate (h : Half) (bank : BitVec 8)
  /-- BANK_MIGRATION (R203). Migration copies one bucket or node into the spare and moves the redirect past it. -/
  | bankMigration (h : Half)
  /-- RESUME (R200). Writing MT_CTRL.RESUME continues every held sequencer context from its journal. -/
  | resume (h : Half)
  /-- ABANDON (R201). Writing MT_CTRL.ABANDON ends every held routine at its nearest consistent state with ABANDONED. -/
  | abandon (h : Half)
  /-- WOODLOT_ECC_ERROR (R204). A Woodlot memory error is corrected in place or, if uncorrectable, clears the slot or rebuilds the node and latches WL_ECC_LOC. -/
  | woodlotEccError (h : Half) (loc : EmLoc) (uncorr : Bool)
  /-- TCAM_PARITY_SCAN (R189). The TCAM parity check of an entry finds a fault, setting PERR and counting TC_PERR. -/
  | tcamParityScan (sl : Slice) (idx : Fin 4096)
  /-- COMMIT (R223). Writing RING_CTRL.COMMIT requests an immediate or scheduled commit, acts as a fence and sets WAITING. -/
  | commit (req : Requester) (atTime : Bool)
  /-- CANCEL (R229). Writing RING_CTRL.CANCEL while a commit waits before T_eff withdraws it. -/
  | cancel (req : Requester)
  /-- COMMIT_READY (R224). An accepted commit becomes ready once its fence, the running STAGED commands and a FREE staging ring allow. -/
  | commitReady
  /-- COMMIT_TAKE_EFFECT (R227). At T_eff the bank check passes, the staging ring becomes CURRENT, KS_MAP is set and the previous ring retires. -/
  | commitTakeEffect
  /-- INFLIGHT_SAMPLE (R231). At each whole microsecond the RING block samples in-flight counts and moves eligible RETIRING rings to SWEEP. -/
  | inflightSample
  /-- RING_EXPIRE (R233). A ring RETIRING for RING_MAXAGE sets EXPIRED and starts the expiry scan. -/
  | ringExpire (r : Ring)
  /-- EXPIRY_SCAN (R233). Each half's Deck scans its queues and punt path, dropping holders of an expired ring with RING_EXPIRED. -/
  | expiryScan (h : Half)
  /-- RING_MAXAGE (R233). A write of RING_MAXAGE applies at once to every RETIRING ring, expiring those already older. -/
  | ringMaxage (req : Requester) (value : Word)
  /-- ADMISSION (R250). Deck decides admission of a frame on the edge its first cell is requested, dropping it with the first failing check. -/
  | admission (h : Half)
  /-- CELL_ALLOC (R245). A Deck requester takes cells from the free-list caches or receives EMPTY and holds. -/
  | cellAlloc (h : Half) (rq : Fin 24)
  /-- CELL_FREE (R243). A free request with the matching owner tag returns a cell to its cache or list. -/
  | cellFree (h : Half) (rq : Fin 24) (cell : Nat) (tag : BitVec 16)
  /-- REFILL (R240). A prefetch cache below 8 pointers reads link words through its bank's link port and moves head cells into the cache. -/
  | refill (h : Half) (lst : Fin 64)
  /-- BUFFER_STALL (R246). A frame held under EMPTY for DK_STALL_MAX is ended with BUFFER_STALL and its cells freed. -/
  | bufferStall (h : Half) (rq : Fin 24)
  /-- POOL_ALLOC (R248). A write of DK_POOL_ALLOC allocates the lowest free cell of the pool into the requester's DK_POOL_RES. -/
  | poolAlloc (req : Requester) (h : Half) (n : Fin 8)
  /-- POOL_FREE (R248). A write of DK_POOL_FREE frees a pool cell under the owner-tag rule and clears its bitmap bit. -/
  | poolFree (req : Requester) (h : Half) (n : Fin 8) (cell : BitVec 20)
  /-- DECK_ECC_ERROR (R258). A Deck ECC error in cell data, owner tag or link word is corrected, drops the frame, withdraws the cell or breaks the list. -/
  | deckEccError (h : Half) (e : DeckEcc)
  /-- LIST_REBUILD (R258). A broken free list is rebuilt from the owner tags of its bank within 20 µs. -/
  | listRebuild (h : Half) (lst : Fin 64)
  /-- DECK_INIT_DONE (R259). Deck initialisation completes within 20 µs and PG_STAT.READY returns to 1. -/
  | deckInitDone (h : Half)
  /-- PFC_FRAME_TX (R256). The MAC sends a PFC frame at the next frame boundary for priorities entering or leaving XOFF. -/
  | pfcFrameTx (p : Port)
  /-- PFC_REFRESH (R256). REFRESH quanta elapse while XOFF lasts and the PFC frame is sent again. -/
  | pfcRefresh (p : Port)
  /-- PAUSE_EXPIRE (R257). A received PFC pause timer runs out and the paused classes may start frames again. -/
  | pauseExpire (p : Port) (r : Fin 8)
  /-- FLUME_RECEIVE (R265). The receiving Flume endpoint takes a frame, checks its per-source sequence number and passes it to step 4. -/
  | flumeReceive (h : Half) (x : FlumeRx)
  /-- REPLICATE (R267). The replication engine takes a multicast frame from its queue and makes one copy per valid copy entry. -/
  | replicate (h : Half)
  /-- DRAIN (R270). Writing REP_CTRL.DRAIN marks every frame in the replication queue for a drain. -/
  | drain (h : Half)
  /-- SCHEDULE (R272). A port that may start a frame has its scheduler select one eligible queue by strict priority and DWRR. -/
  | schedule (p : Port)
  /-- MAC_START (R271). The MAC begins sending the next frame of its start FIFO once the previous one's last byte has left. -/
  | macStart (p : Port) (late : Bool)
  /-- TX_LAST_BYTE (R273). The last byte of a frame leaves, charging deficit and shapers, freeing its cells and ending its ring holder. -/
  | txLastByte (p : Port)
  /-- LINK_HOLD_EXPIRE (R279). The hold timer of a port in HOLD reaches LINK_HOLD and the port enters DOWN and flushes. -/
  | linkHoldExpire (p : Port)
  /-- LINK_FLUSH_DONE (R280). The drop engine finishes dropping the marked frames of a DOWN port with LINK_DOWN_FLUSH and FLUSHING clears. -/
  | linkFlushDone (p : Port)
  /-- SET (R289). Writing TM_CMD.SET loads TM_SET and TM_SET_HI into PTP time and sets STEPPED. -/
  | set
  /-- STEP (R289). Writing TM_CMD.STEP adds TM_STEP nanoseconds to PTP time and sets STEPPED. -/
  | step
  /-- PPS_OUT (R290). At each whole PTP second PPS_OUT rises for WIDTH µs while OUT_EN is 1. -/
  | ppsOut (level : Bool)
  /-- PPS_IN (R290). A selected PPS_IN edge captures PTP time into TM_PPS_CAP and sets PPS_IN. -/
  | ppsIn (rising : Bool)
  /-- REF_LOSS (R288). Loss of the selected REF10M_IN makes the TIME block continue on the crystal and set REF_LOSS. -/
  | refLoss
  /-- CLR_MX (R301). Writing MX_CTRL.CLR_MX sweeps every matrix pair and both totals of the half to zero. -/
  | clrMx (h : Half)
  /-- CLR_HIST (R302). Writing MX_CTRL.CLR_HIST sweeps every latency histogram of the half to zero. -/
  | clrHist (h : Half)
  /-- CLR_DROP (R303). Writing MX_CTRL.CLR_DROP sweeps the half's drop-reason pairs to zero. -/
  | clrDrop (h : Half)
  /-- CLR_DONE (R301). A matrix, histogram or drop sweep completes within 50 µs and its MX_CTRL bit clears. -/
  | clrDone (h : Half)
  /-- TALLY_EVICTION (R311). The Tally controller takes a line from an eviction queue and merges its deltas into an HBM record or the overflow record. -/
  | tallyEviction (h : Half)
  /-- CACHE_WRITEBACK (R310). A line that has held nonzero deltas for TY_CACHE_MAX ms is written back through the eviction queue. -/
  | cacheWriteback (sl : Slice) (line : Fin 65536)
  /-- SCAN_VISIT (R314). The Tally scanner visits a bucket and exports records that have met their idle or active timeout. -/
  | scanVisit (h : Half)
  /-- OVERFLOW_EXPORT (R315). At each TY_ACTIVE interval the scanner exports each slice's overflow record with cause overflow. -/
  | overflowExport (h : Half)
  /-- FLUSH (R316). Writing TY_CTRL.FLUSH writes back every cache line of the half's slices. -/
  | flush (h : Half)
  /-- EXPORT_ALL (R316). Writing TY_CTRL.EXPORT_ALL runs one sweep exporting and clearing every valid record. -/
  | exportAll (h : Half)
  /-- CLEAR (R316). Writing TY_CTRL.CLEAR invalidates every line and record of the half and zeroes the Tally counters. -/
  | clear (h : Half)
  /-- CLEAR_DONE (R316). The Tally CLEAR completes within 2 ms and sets CLEAR_DONE. -/
  | clearDone (h : Half)
  /-- IPFIX_MESSAGE (R319). An IPFIX message is sent when its next record would exceed MAXLEN or 1 s after its first record. -/
  | ipfixMessage (h : Half)
  /-- RETRAIN (R322). HB_CTRL.RETRAIN, or corrected errors reaching HB_THR with AUTO, starts a retrain of the HBM stack and holds Tally. -/
  | retrain (h : Half)
  /-- RETRAIN_DONE (R322). The retrain ends with STATE READY, or FAILED, and Tally resumes or goes to overflow. -/
  | retrainDone (h : Half) (failed : Bool)
  /-- HBM_LOST (R313). An uncorrectable HBM error in a Tally bucket clears its four records and counts TY_HBM_LOST. -/
  | hbmLost (h : Half) (bucket : Fin 4194304) (countsOk : BitVec 4)
  /-- RAFT_ENABLE (R327). RF_CTRL.EN rises, pending DEVID, HOP_INIT and SYSID take effect and Raft mode starts. -/
  | raftEnable (req : Requester) (value : Word)
  /-- RAFT_CFG_SYNC (R328). The East Raft block takes changed West Raft settings over the Flume management channel within 2 µs. -/
  | raftCfgSync
  /-- HELLO_TX (R341). Every RF_HELLO.INTERVAL µs a hello is sent on each Raft port whose link is up. -/
  | helloTx (p : Port)
  /-- EXTRA_HELLO (R341). Within 10 µs of a change of CUR, CAP or CAPPED, and at most once per 100 µs, an extra hello is sent. -/
  | extraHello (p : Port)
  /-- HELLO_RX (R342). A received hello updates the port's neighbour record and state, or is discarded as bad. -/
  | helloRx (p : Port) (bytes : List Byte)
  /-- NEIGHBOUR_DEAD (R342). No hello for DEAD × INTERVAL µs takes the neighbour DOWN with NBR_DOWN. -/
  | neighbourDead (p : Port)
  /-- EW_RECOMPUTE (R333). Within 1 µs of a neighbour, link or member change the Raft block recomputes member effective weights. -/
  | ewRecompute (h : Half)
  /-- PEER_HOLD_LAPSE (R344). When no hello reporting a RETIRING ring active remains within RF_GRACE, PEER_HOLD of that ring clears. -/
  | peerHoldLapse (r : Ring)
  /-- DOORBELL (R352). A write of DB(i) sets TAIL, or the event queue's HEAD, and checks it for overrun. -/
  | doorbell (q : QueueId) (value : Word)
  /-- QUEUE_ENABLE (R351). HQ_CTRL.EN rises on a DISABLED queue, which takes its configuration and becomes ACTIVE. -/
  | queueEnable (q : QueueId)
  /-- QUEUE_DISABLE (R351). HQ_CTRL.EN falls and the queue enters DRAINING, starting no new descriptor. -/
  | queueDisable (q : QueueId)
  /-- QUEUE_DRAINED (R351). The last started descriptor of a draining queue completes and the queue becomes DISABLED. -/
  | queueDrained (q : QueueId)
  /-- DESCRIPTOR_FETCH (R353). The device's read of a posted descriptor completes, or fails and halts the queue with DESC_FETCH. -/
  | descriptorFetch (q : QueueId) (words : Option (List Word))
  /-- DESCRIPTOR_COMPLETE (R354). The device writes back a descriptor's words and then word 7 with DONE, advancing HEAD. -/
  | descriptorComplete (q : QueueId)
  /-- DMA_READ_ERROR (R367). A data read for a transmit or table-command descriptor fails and the descriptor completes with DMA_ERROR. -/
  | dmaReadError (q : QueueId)
  /-- PUNT_DELIVER (R358). A held punted frame is written into the buffer of the next receive descriptor and its cells are freed. -/
  | puntDeliver (q : Fin 64)
  /-- PIPE (R360). A transmit descriptor in PIPE mode injects its frame into the parser of the slot's slice. -/
  | pipe (q : Fin 64) (data : List Byte)
  /-- DIRECT (R360). A transmit descriptor in DIRECT mode injects its frame at step 4 for the named queue. -/
  | direct (q : Fin 64) (data : List Byte)
  /-- POOL_WRITE (R362). A transmit descriptor in POOL_WRITE mode copies its bytes into the named pool cells after checking their tags. -/
  | poolWrite (q : Fin 64) (data : List Byte)
  /-- EXPORT_BUFFER_TIMEOUT (R364). An export buffer completes 1 ms after its first record with the records it holds. -/
  | exportBufferTimeout (n : Fin 8)
  /-- IRQ_HOLDOFF (R366). The HOLDOFF time of a pending queue ends and it signals its MSI-X vector. -/
  | irqHoldoff (q : QueueId)
  /-- FLR (R348). Function Level Reset disables every DMA queue with ERR = LINK and drops held punts. -/
  | flr
  /-- HOT_RESET (R348). A hot reset received on the link disables every DMA queue with ERR = LINK. -/
  | hotReset
  /-- PCIE_LINK_DOWN (R348). The PCIe link goes down and every DMA queue becomes DISABLED with ERR = LINK. -/
  | pcieLinkDown
  /-- PERST_N (R348). PERST_N low resets the PCIe core and the HOSTDMA queues, and its rise starts link training. -/
  | perstN (level : Bool)
  /-- BUS_MASTER_ENABLE (R348). A change of Bus Master Enable or of D3hot forbids or permits device DMA. -/
  | busMasterEnable (bme : Bool) (d3hot : Bool)
  /-- POISONED_WRITE (R367). A poisoned write to BAR0 is dropped with an AER non-fatal error and counted in HD_POISON. -/
  | poisonedWrite
  /-- SNAP (R373). Writing CR_CTRL.SNAP arms a snapshot at CR_SNAP_T, or is rejected as BUSY or TOO_SOON. -/
  | snap (req : Requester)
  /-- STOP (R377). Writing CR_CTRL.STOP cancels an armed capture and ends periodic snapshots. -/
  | stop (req : Requester)
  /-- SNAPSHOT_CAPTURE (R374). At T each island captures its counters on its first edge at or after T and the next periodic capture is armed or skipped. -/
  | snapshotCapture
  /-- SNAPSHOT_PART_DONE (R378). A snapshot part is complete in its HBM slot. -/
  | snapshotPartDone (h : Half)
  /-- SNAPSHOT_TRANSFER_DONE (R381). The snapshot copy to host memory ends, the KIND 0x70 notice is written and STATE returns to IDLE. -/
  | snapshotTransferDone
  /-- BW_WINDOW_END (R384). At the end of each bandwidth window LAST_RX and LAST_TX are set and peaks updated. -/
  | bwWindowEnd
  /-- PK_CLR (R384). Writing CR_BW_CTRL.PK_CLR zeroes every bandwidth peak and its time. -/
  | pkClr (req : Requester)
  /-- WIN_LENGTH_WRITE (R384). A write of CR_BW_CTRL.WIN zeroes the peaks and restarts counting at the next boundary of the new window. -/
  | winLengthWrite (req : Requester) (k : Fin 8)
  /-- LOOKOUT_MESSAGE (R389). Lookout takes a coded message, updates ACTIVE, latches the source, logs it and takes the enabled reactions. -/
  | lookoutMessage (fab : MsgQueue) (report : Option Message)
  /-- LEVEL_RISE_WITHOUT_MESSAGE (R396). A source's level line shows a rise with no message and Lookout latches it with DLOST. -/
  | levelRiseWithoutMessage (n : Fin 512)
  /-- LO_CLR (R390). A write of LO_CLR clears LATCHED of an inactive source, or counts a clear miss. -/
  | loClr (value : Word)
  /-- LO_PIN_REL (R395). A write of LO_PIN_REL releases FAULT_N, or holds the release until the pulse ends. -/
  | loPinRel
  /-- FAULT_PULSE_END (R395). The FAULT_N pulse of LO_PIN.PULSE µs ends and a held release raises the pin. -/
  | faultPulseEnd
  /-- TRAP_DELIVER (R394). Lookout delivers the oldest waiting trap to the head Forester. -/
  | trapDeliver
  /-- FATAL_WR (R399). The always-on island finishes writing a fatal summary to MRAM and sets FATAL_WR and LO_FATAL. -/
  | fatalWr (ok : Bool)
  /-- POWER_SAMPLE (R403). Every 2 µs Firebreak forms the power estimate, updates its averages and re-evaluates boost permission. -/
  | powerSample
  /-- CAP_EVALUATE (R408). At a cap's evaluation point its controller raises or lowers its depth against the cap. -/
  | capEvaluate (c : Cap)
  /-- FB_CAL_UPDATE (R404). Every 10 ms the head reads regulator power over PMBus and writes FB_CAL. -/
  | fbCalUpdate (cl : Half) (epoch : Word) (value : Word)
  /-- CAL_STALE (R404). FB_CAL unwritten for 100 ms sets CAL_STALE once. -/
  | calStale
  /-- DEFERRAL_LIMIT (R409). Deferral reaching 1 s in 2 s lets the deferred work run for 1 s whatever the depth. -/
  | deferralLimit
  /-- FIXED (R412). A write of FB_CTRL.FIXED enters or leaves fixed-frequency mode, resetting every requester's depth to 0. -/
  | fixed (req : Requester) (on : Bool)
  /-- DROOP_ONSET (R413). A droop detector's input falls below the setpoint less THR and the half's clocks are stretched. -/
  | droopOnset (h : Half) (ns : Nat)
  /-- TEMP_SAMPLE (R414). Every 10 µs the die sensors are read and the warning and throttle thresholds checked. -/
  | tempSample (t : TempSample)
  /-- THERMAL_STEP (R414). The thermal controller raises its depth every 1 ms above FB_TEMP_THR and lowers it every 10 ms when cooled. -/
  | thermalStep
  /-- THERMAL_TRIP (R416). A sensor at 125 °C for 1 µs drives THERMTRIP_N low, writes the fatal summary and stops every clock. -/
  | thermalTrip (h : Half)
  /-- SUPPLY_WARNING (R417). A rail crosses its warning level and source 21 reports a RISE, and VDD_CORE starts the undervoltage throttle. -/
  | supplyWarning (rail : Fin 11) (high : Bool)
  /-- SUPPLY_RECOVERY (R417). A rail back inside its warning level for 10 µs clears its warning with a FALL. -/
  | supplyRecovery (rail : Fin 11)
  /-- UV_RELEASE (R418). 100 µs after VDD_CORE recovers, the undervoltage throttle's depth returns to 0. -/
  | uvRelease
  /-- RESET_DIP (R419). A VDD_CORE or VDD_SRAM dip to its reset level writes the fatal summary and starts a chip reset. -/
  | resetDip (sram : Bool)
  /-- HINT (R420). A write of FB_HINT, or a HEAVY table command, raises the VDD_CORE setpoint for a hint. -/
  | hint (duration : BitVec 16)
  /-- HINT_ACK (R420). The regulator acknowledges the raised setpoint and the hint window opens with depth 1. -/
  | hintAck
  /-- HINT_WINDOW_END (R420). The hint window's time runs out, its depth returns to 0 and the base setpoint is written back. -/
  | hintWindowEnd
  /-- PMBUS_ERR (R421). PMBus fails to acknowledge within 200 µs and the window opens without the voltage change. -/
  | pmbusErr
  /-- ALERT_N (R482). ALERT_N low or high for 1 µs sends a RISE or FALL with CODE 8 to source 26. -/
  | alertN (level : Bool)
  /-- HEAD_CLAIM (R426). A STANDBY cluster claims the head register by compare-and-swap and becomes HEAD on success. -/
  | headClaim (cl : Half) (expected : Word)
  /-- LEASE_RENEW (R427). The head renews its lease in the always-on island every 1 ms. -/
  | leaseRenew (cl : Half)
  /-- LEASE_EXPIRE (R427). 20 ms without renewal sets HOLDER to none and advances EPOCH. -/
  | leaseExpire
  /-- LOCKSTEP_MISMATCH (R429). A lockstep mismatch stops the cluster, releases headship and restarts it once or leaves it FAILED. -/
  | lockstepMismatch (cl : Half)
  /-- CLUSTER_BOOT_DONE (R441). A cluster finishes verifying and loading its firmware and enters STANDBY. -/
  | clusterBootDone (cl : Half) (flash : BootFlash)
  /-- INFO (R433). The mailbox command INFO returns life-cycle, head, cluster and firmware state. -/
  | info
  /-- SENSORS (R433). The mailbox command SENSORS returns temperatures and rail telemetry. -/
  | sensors (rails : RailTelemetry)
  /-- LOG_READ (R435). The mailbox command LOG_READ returns long-log entries. -/
  | logRead
  /-- FATAL_READ (R400). The mailbox command FATAL_READ returns the slot of a fatal summary. -/
  | fatalRead
  /-- TRAP_READ (R433). The mailbox command TRAP_READ returns and removes the waiting trap records. -/
  | trapRead
  /-- PM_READ (R436). The mailbox command PM_READ returns span performance history bins. -/
  | pmRead
  /-- CH_READ (R124). The mailbox command CH_READ returns bytes waiting from a channel routed to Forester. -/
  | chRead
  /-- CH_WRITE (R124). The mailbox command CH_WRITE places bytes in a Forester channel's transmit buffer. -/
  | chWrite
  /-- IMG_STAGE (R440). The mailbox command IMG_STAGE verifies an image and stages it in flash or Forester memory. -/
  | imgStage (img : List Byte)
  /-- IMG_APPLY (R440). The mailbox command IMG_APPLY applies a staged lane-firmware image or data-path load. -/
  | imgApply
  /-- RESTART (R441). The mailbox command RESTART restarts a cluster that is not HEAD on its preferred image. -/
  | restart
  /-- HANDOVER (R430). The mailbox command HANDOVER copies state to the standby cluster and swaps headship to it. -/
  | handover
  /-- CFG_SAVE (R461). The mailbox command CFG_SAVE writes the retained configuration image into the older MRAM copy. -/
  | cfgSave
  /-- ATTEST (R443). The mailbox command ATTEST writes a signed attestation report to the host buffer. -/
  | attest
  /-- IDENT (R433). The mailbox command IDENT returns the identity public key. -/
  | ident
  /-- MEAS_EXTEND (R442). The mailbox command MEAS_EXTEND extends M7 with the request bytes. -/
  | measExtend
  /-- LC_ADVANCE (R445). The mailbox command LC_ADVANCE verifies a token and schedules the life-cycle change. -/
  | lcAdvance (img : List Byte)
  /-- SVN_ADVANCE (R433). The mailbox command SVN_ADVANCE raises the fused SVN floor of a TYPE. -/
  | svnAdvance
  /-- KEY_PROGRAM (R433). The mailbox command KEY_PROGRAM fuses a key digest into an unprogrammed slot 2 or 3. -/
  | keyProgram
  /-- MAILBOX_COMPLETE (R431). The head completes a mailbox command, writing the response and MB_STAT with DONE and STATUS. -/
  | mailboxComplete
  /-- NO_HEAD (R432). No cluster holds headship for 100 ms from MB_GO and the command ends with NO_HEAD. -/
  | noHead
  /-- MC_CLEAR_LOCK (R446). Writing 1 to LC_CTRL.MC_CLEAR_LOCK refuses all later host control-store, parser and template window writes. -/
  | mcClearLock (req : Requester)
  /-- DEBUG_LOCK (R446). Writing 1 to LC_CTRL.DEBUG_LOCK closes private JTAG instructions and core debug. -/
  | debugLock (req : Requester)
  /-- LC_FUSE_WRITE (R445). 10 ms after LC_ADVANCE completes the new life-cycle state is written into the fuses and the wipe starts. -/
  | lcFuseWrite
  /-- WIPE_DONE (R445). The life-cycle wipe of every memory ends, WIPE_DONE is blown and a chip reset is performed. -/
  | wipeDone
  /-- PORST_N (R450). PORST_N low for 1 µs takes a power-on reset, and its rise starts the start-up sequence. -/
  | porstN (level : Bool) (pins : PinSample)
  /-- CHIPRST_N (R450). CHIPRST_N low for 10 µs takes a chip reset. -/
  | chiprstN (level : Bool) (pins : PinSample)
  /-- RST_CHIP (R451). A write of RST_CHIP with the KEY starts a chip reset. -/
  | rstChip (value : Word)
  /-- RST_HALF (R456). A write of RST_HALF with the KEY resets one half, dropping its frames and clearing its tables. -/
  | rstHalf (value : Word)
  /-- HALF_DONE (R456). The half's logic is ready and refilled from the other half, HALF_BUSY clears and its ports restart bring-up. -/
  | halfDone (h : Half)
  /-- RST_SLICE (R457). A write of RST_SLICE with the KEY takes the slice's ports down and drains its pipes before resetting it. -/
  | rstSlice (value : Word)
  /-- SLICE_DONE (R457). A slice reset completes, RST_SLICES bit s clears and its enabled ports restart bring-up. -/
  | sliceDone (sl : Slice)
  /-- START_UP_WIPE_DONE (R453). Start-up memory zeroing ends with both HBM stacks READY and the clusters begin loading firmware. -/
  | startUpWipeDone
  /-- RESTORE (R463). The new head checks both configuration copies and starts restoring the valid one with the higher SEQ. -/
  | restore (lane : List Byte)
  /-- RESTORED (R453). Restore completes, RESTORING clears, PHASE becomes RUN and RESTORED or DEFAULTS is set. -/
  | restored
  /-- RECOVERY_IMAGE (R454). A recovery image is received on the UART console and the waiting cluster boots it. -/
  | recoveryImage (cl : Half) (img : List Byte)
  /-- FLUME_CHANNEL_DOWN (R20). The Flume management channel goes down and the East half loses access to the common blocks. -/
  | flumeChannelDown
  /-- FLUME_CHANNEL_UP (R396). The Flume management channel recovers and the East half resends held messages and source levels. -/
  | flumeChannelUp
  /-- LOCAL_FAULT (R77). A port whose lanes stay signalled and CDR-locked loses alignment-marker lock, deskew or FEC codeword synchronisation, declares local fault, counts LF_CNT, transmits remote fault and takes its link down within 1 µs. -/
  | localFault (p : Port)
  /-- PCIE_LINK_UP (R346). PCIe link training completes at the widest and fastest common width and speed, HD_STAT shows link up and the device may again issue DMA. -/
  | pcieLinkUp (width : Fin 4) (speed : Fin 5)
  /-- VDD_AON_RESET (R449). VDD_AON falls below its reset level and the device takes a power-on reset of the whole device, always-on island included. -/
  | vddAonReset (pins : PinSample)
  deriving DecidableEq, Repr

end Sys2Proof
end

