-- ==== Sys2Proof/Config.lean ====
section
/-! DEFINITION. What the spec leaves to each part or to chance, and the named standards that it takes as they stand:
constants with no body, so that every statement holds for every value of them. -/

namespace Sys2Proof

/-- The n-th draw of the on-chip random source (05_parser_kerf.md R146 bytes 24 to 31; the salts of 06_tables.md R175
and 10_telemetry.md R306). A free value (DESIGN CHOICE, log entry 6). -/
opaque Config.random : Nat → DWord

/-- The n-th raw power estimate of the device, in units of 0.25 W, before calibration (15_firebreak_power.md R403): the
fused leakage and energy coefficients are not in the spec. A free value (DESIGN CHOICE, log entry 7). -/
opaque Config.rawPower : Nat → Nat

/-- The n-th value that a lane's receiver finds by adaptation (03_lanes_ports.md R72, R84): CTLE code, eye opening, taps. A free
value (DESIGN CHOICE, log entry 7). -/
opaque Config.adapted : Nat → Nat

/-- How many of the n-th lot of bits that a pattern checker compares are in error (03_lanes_ports.md R89). A free value (DESIGN
CHOICE, log entry 70). -/
opaque Config.prbsErrors : Nat → Nat

/-- Which ingress pipes of a half, a bit each, a Woodlot conflict backlog stalls at the n-th nanosecond that vectors are in them
(06_tables.md R171): it depends only on chance (01_architecture.md R31). A free value (DESIGN CHOICE, log entry 70). -/
opaque Config.woodBacklog : Nat → Nat

/-- Whether the deparser or a transmitter stalls an egress pipe at the n-th nanosecond that vectors are in it or in front of the
deparser (13_cruiser_counters.md R383). A free value (DESIGN CHOICE, log entry 70). -/
opaque Config.egressStall : Nat → Bool

/-- How many corrected errors the HBM stack of a half meets in the n-th nanosecond that it works (10_telemetry.md R322, R326). A free
value (DESIGN CHOICE, log entry 70). -/
opaque Config.hbmErrors : Nat → Nat

/-- Which of a Tally bucket's four 64-byte units the n-th uncorrectable error lies in, when it spoils no record's counts
(10_telemetry.md R313, R326). A free value (DESIGN CHOICE, log entry 70). -/
opaque Config.hbmUnit : Nat → Nat

/-- Whether, at the n-th look, alignment that a port lost has returned, or a remote fault that it receives has ended
(03_lanes_ports.md R77, R78). A free value (DESIGN CHOICE, log entry 75). -/
opaque Config.faultEnds : Nat → Bool

/-- How many 8-byte words of a configuration image the head writes in the n-th nanosecond of a save (17_reset_retained.md R461). A free
value (DESIGN CHOICE, log entry 86). -/
opaque Config.saveWords : Nat → Nat

/-- Whether, at the n-th staging of a firmware image, the flash slot reads back as it was written (16_forester_security.md R440). A free
value (DESIGN CHOICE, log entry 87). -/
opaque Config.flashHolds : Nat → Bool

/-- The n-th VDD_CORE setpoint, in mV above 700, that the head takes from fused voltage tables (15_firebreak_power.md, R420).
A free value (DESIGN CHOICE, log entry 7). -/
opaque Config.setpoint : Nat → Nat

/-- Word k of what LOG_READ returns after the 0 of word 0 for an entry that the long log does not hold
(16_forester_security.md R435): the spec gives no value. A free value (DESIGN CHOICE, log entry 7). -/
opaque Config.staleEntry : (draw entry k : Nat) → Word

/-- Revision ID of the PCIe function, the revision of the die pair (12_host_interface.md Table 131): the spec gives no value. A free
value (DESIGN CHOICE, log entry 83). -/
opaque Config.revision : Unit → Byte

/-- The fused image key, 32 bytes (16_forester_security.md R438 step 7): fuses of the part (PRESUMED, log entry 8). -/
opaque Config.imageKey : Unit → List Byte

/-- The fused digests of the signing keys of slots 0 and 1 (R438 step 3), none where the slot is not programmed, and the
revocations: fuses of the part (PRESUMED, log entry 8). -/
opaque Config.fusedKey : (slot : Nat) → Option (List Byte)
opaque Config.revoked : (slot : Nat) → Bool

/-- LC_SERIAL (R448): fixed by fuses (PRESUMED, log entry 8). -/
opaque Config.serial : Unit → DWord

/-- The record that extends M0 (R442): the ROM identity, which the part fixes, and the fuse words that govern security; how they are laid out in
the record is not in the spec (PRESUMED, log entry 8). -/
opaque Config.romRecord : (life : Nat) → (wipeDone : Bool) → (keys : List (List Byte)) → (floors : List Nat) → List Byte

/-- The check bits of a free-list link word over its bits [19:0] and [31] (08_deck_admission.md, R239: a SECDED code the spec does not
give). A free value (DESIGN CHOICE, log entry 78). -/
opaque Config.linkEcc : Nat → Nat

/-- Byte i of a cell when the n-th draw's initialisation makes it a pool cell: what frames have left there (08_deck_admission.md,
R247: the spec gives no contents). A free value (DESIGN CHOICE, log entry 78). -/
opaque Config.cellByte : (draw cell i : Nat) → Byte

/-- The word a window read of a trie level memory returns for the prefixes the half holds (06_tables.md R186, R210: the layout
of the level memories is not in the spec). A free value (DESIGN CHOICE, log entry 9). -/
opaque Config.trieWord : (half : Nat) → (sel : Nat) → (addr : Nat) → (prefixes : List (List Nat)) → Word

/-- Which of a trie level's nodes, below level 0, a lookup reads for the first bits of its address: how a level's memory is laid out is
not in the spec (06_tables.md R184, R186, R204). A free value (DESIGN CHOICE, log entry 9). -/
opaque Config.lpmNode : (level table path : Nat) → Nat

end Sys2Proof
end

