-- ==== Sys2Proof/Machine/Regs.lean ====
section
/-! DEFINITION. The register tables of the spec as data: one RegSpec per row of the tables of 02_registers.md to
17_reset_retained.md, in the tables' order, and one named offset per row. -/

namespace Sys2Proof.Machine

/-- One row of a register table (02_registers.md R39): where it lies, how often it repeats, and what a write may
change. off + i * s1 + j * s2 + k * s3 are its offsets. wide: two words, a 64-bit register (R41). w: the bits a write
loads (RW, RWL, RH). lk: those of them that PG_LOCK locks (RWL). w1s: bits a written 1 sets. wo: a write-only
register, whose write is all effect. ret: the bits restored from retained state. init: the value after a wipe.
ctr: a counter (13_cruiser_counters.md R370). -/
structure RegSpec where
  off : Nat
  s1 : Nat := 1
  n1 : Nat := 1
  s2 : Nat := 1
  n2 : Nat := 1
  s3 : Nat := 1
  n3 : Nat := 1
  wide : Bool := false
  w : Nat := 0
  lk : Nat := 0
  w1s : Nat := 0
  wo : Bool := false
  ret : Nat := 0
  init : Nat := 0
  ctr : Bool := false
  deriving DecidableEq, Repr

/-- Registers: header. -/
def specsHeader : List RegSpec := [
  { off := 0x0 },  -- PG_ID
  { off := 0x4 },  -- PG_VER
  { off := 0x8, w := 0x3, lk := 0x2, ret := 0x2, init := 0x2 },  -- PG_CTRL
  { off := 0xc },  -- PG_STAT
  { off := 0x10, w := 0xffffff },  -- PG_EVT
  { off := 0x14, w := 0x7fffff, ret := 0x7fffff, init := 0xffffff },  -- PG_EVT_EN
  { off := 0x18, w1s := 0x1 },  -- PG_LOCK
  { off := 0x1c }  -- PG_SRC
  ]

/-- Registers: WINDOW. -/
def specsWindow : List RegSpec := [
  { off := 0x8000, w := 0xff },  -- WIN_SEL
  { off := 0x8004, w := 0xffffffff },  -- WIN_ADDR
  { off := 0x8008, wo := true },  -- WIN_CMD
  { off := 0x800c },  -- WIN_STAT
  { off := 0x8040, s1 := 0x4, n1 := 16, w := 0xffffffff }  -- WIN_DATA0–15
  ]

/-- Registers: ORDER. -/
def specsOrder : List RegSpec := [
  { off := 0x40, w := 0x1 },  -- CTRL
  { off := 0x44, wo := true },  -- FENCE
  { off := 0x48, w := 0xffffffff, ctr := true },  -- FENCE_CNT
  { off := 0x4c, w := 0xffffffff }  -- FENCE_MAX
  ]

/-- Registers: CHIP. -/
def specsChip : List RegSpec := [
  { off := 0x40 },  -- BERR_ADDR
  { off := 0x44 },  -- BERR_INFO
  { off := 0x48, w := 0xffffffff, ctr := true },  -- BERR_CNT
  { off := 0x50 },  -- JTAG_ID
  { off := 0x60, s1 := 0x4, n1 := 4 },  -- IO_SENSE(n)
  { off := 0x70 }  -- STRAPS
  ]

/-- Registers: MACPCS. -/
def specsMacpcs : List RegSpec := [
  { off := 0x40 },  -- LINK_UP
  { off := 0x44 },  -- PORT_ACTIVE
  { off := 0x1000, s1 := 0x100, n1 := 32, w := 0x7ff, lk := 0x7ff, ret := 0x7ff },  -- PORT_CFG
  { off := 0x1004, s1 := 0x100, n1 := 32, w := 0x7f, ret := 0x7 },  -- PORT_CTRL
  { off := 0x1008, s1 := 0x100, n1 := 32 },  -- PORT_STAT
  { off := 0x100c, s1 := 0x100, n1 := 32, w := 0x3fff, ret := 0x3fff, init := 0x2800 },  -- MAX_FRAME
  { off := 0x1010, s1 := 0x100, n1 := 32, w := 0x1ffff, ret := 0x1ffff },  -- FEC_DEGR
  { off := 0x1014, s1 := 0x100, n1 := 32, w := 0xffffffff, ctr := true },  -- LINK_DOWN_CNT
  { off := 0x1018, s1 := 0x100, n1 := 32, w := 0xffffffff, ctr := true },  -- LF_CNT
  { off := 0x101c, s1 := 0x100, n1 := 32, w := 0xffffffff, ctr := true },  -- RF_CNT
  { off := 0x1020, s1 := 0x100, n1 := 32, wide := true, w := 0xffffffff, ctr := true },  -- RX_FRAMES_OK
  { off := 0x1028, s1 := 0x100, n1 := 32, wide := true, w := 0xffffffff, ctr := true },  -- RX_BYTES_OK
  { off := 0x1030, s1 := 0x100, n1 := 32, wide := true, w := 0xffffffff, ctr := true },  -- RX_FCS_ERR
  { off := 0x1038, s1 := 0x100, n1 := 32, wide := true, w := 0xffffffff, ctr := true },  -- RX_RUNT
  { off := 0x1040, s1 := 0x100, n1 := 32, wide := true, w := 0xffffffff, ctr := true },  -- RX_OVERSIZE
  { off := 0x1048, s1 := 0x100, n1 := 32, wide := true, w := 0xffffffff, ctr := true },  -- RX_PCS_ERR
  { off := 0x1050, s1 := 0x100, n1 := 32, wide := true, w := 0xffffffff, ctr := true },  -- TX_FRAMES
  { off := 0x1058, s1 := 0x100, n1 := 32, wide := true, w := 0xffffffff, ctr := true },  -- TX_BYTES
  { off := 0x1060, s1 := 0x100, n1 := 32, wide := true, w := 0xffffffff, ctr := true },  -- TX_STOMPED
  { off := 0x1068, s1 := 0x100, n1 := 32, wide := true, w := 0xffffffff, ctr := true },  -- FEC_CW
  { off := 0x1070, s1 := 0x100, n1 := 32, wide := true, w := 0xffffffff, ctr := true },  -- FEC_CORR_CW
  { off := 0x1078, s1 := 0x100, n1 := 32, wide := true, w := 0xffffffff, ctr := true },  -- FEC_UNCORR_CW
  { off := 0x1080, s1 := 0x100, n1 := 32, wide := true, w := 0xffffffff, ctr := true },  -- FEC_CORR_SYM
  { off := 0x1088, s1 := 0x100, n1 := 32, s2 := 0x4, n2 := 16, w := 0xffffffff, ctr := true }  -- FEC_BINi
  ]

/-- Registers: LANES0. -/
def specsLanes0 : List RegSpec := [
  { off := 0x1000, s1 := 0x100, n1 := 32, w := 0xf1f, ret := 0xf1f, init := 0xa02 },  -- LN_TXEQ
  { off := 0x1004, s1 := 0x100, n1 := 32, w := 0xffffffff, ret := 0xffffffff, init := 0x40000000 },  -- LN_TAPS0
  { off := 0x1008, s1 := 0x100, n1 := 32, w := 0xffff, ret := 0xffff },  -- LN_TAPS1
  { off := 0x100c, s1 := 0x100, n1 := 32, w := 0x1ff, ret := 0x1ff },  -- LN_RXCFG
  { off := 0x1010, s1 := 0x100, n1 := 32 },  -- LN_STAT
  { off := 0x1014, s1 := 0x100, n1 := 32 },  -- LN_PPM
  { off := 0x1018, s1 := 0x100, n1 := 32, w := 0xff },  -- LN_PRBS
  { off := 0x101c, s1 := 0x100, n1 := 32 },  -- LN_FWBANK
  { off := 0x1020, s1 := 0x100, n1 := 32, wide := true, w := 0xffffffff, ctr := true },  -- LN_PRBS_ERR
  { off := 0x1028, s1 := 0x100, n1 := 32, wide := true, w := 0xffffffff, ctr := true },  -- LN_PRBS_BITS
  { off := 0x1030, s1 := 0x100, n1 := 32, w := 0xffffffff, ctr := true }  -- LN_LOS_CNT
  ]

/-- Registers: LANES1. -/
def specsLanes1 : List RegSpec := [
  { off := 0x1000, s1 := 0x400, n1 := 4, w := 0x7, lk := 0x7, ret := 0x7 },  -- MC_PLL_A
  { off := 0x1004, s1 := 0x400, n1 := 4, w := 0x7, lk := 0x7, ret := 0x7 },  -- MC_PLL_B
  { off := 0x1008, s1 := 0x400, n1 := 4 },  -- MC_PLL_STAT
  { off := 0x100c, s1 := 0x400, n1 := 4, w := 0x1, ret := 0x1 },  -- MC_FW
  { off := 0x1010, s1 := 0x400, n1 := 4 }  -- MC_FW_VER
  ]

/-- Registers: SPAN. -/
def specsSpan : List RegSpec := [
  { off := 0x40 },  -- SPAN_EN
  { off := 0x44 },  -- SPAN_DEF
  { off := 0x48, w := 0x1ffff, ret := 0x1ffff },  -- PM_DAY_OFS
  { off := 0x1000, s1 := 0x200, n1 := 8, w := 0xff, lk := 0xff, ret := 0xff },  -- SP_CFG
  { off := 0x1004, s1 := 0x200, n1 := 8, w := 0x7fffffff, ret := 0x7fffffff },  -- SP_SALT0
  { off := 0x1008, s1 := 0x200, n1 := 8, w := 0x7fffffff, ret := 0x7fffffff },  -- SP_SALT1
  { off := 0x100c, s1 := 0x200, n1 := 8, w := 0x3ffff, ret := 0x3ffff },  -- SP_CH
  { off := 0x1010, s1 := 0x200, n1 := 8, w := 0xf, ret := 0x1 },  -- SP_CTRL
  { off := 0x1014, s1 := 0x200, n1 := 8 },  -- SP_STAT
  { off := 0x1018, s1 := 0x200, n1 := 8, w := 0xffffffff, ret := 0xffffffff },  -- SP_TCA
  { off := 0x1040, s1 := 0x200, n1 := 8, wide := true, w := 0xffffffff, ctr := true },  -- RX_FRAMES
  { off := 0x1048, s1 := 0x200, n1 := 8, wide := true, w := 0xffffffff, ctr := true },  -- RX_ERR_FRAMES
  { off := 0x1050, s1 := 0x200, n1 := 8, wide := true, w := 0xffffffff, ctr := true },  -- BIP_ERR_BITS
  { off := 0x1058, s1 := 0x200, n1 := 8, wide := true, w := 0xffffffff, ctr := true },  -- REI_BITS
  { off := 0x1060, s1 := 0x200, n1 := 8, wide := true, w := 0xffffffff, ctr := true },  -- RX_PKTS
  { off := 0x1068, s1 := 0x200, n1 := 8, wide := true, w := 0xffffffff, ctr := true },  -- TX_PKTS
  { off := 0x1070, s1 := 0x200, n1 := 8, wide := true, w := 0xffffffff, ctr := true },  -- TX_FILL_BYTES
  { off := 0x1078, s1 := 0x200, n1 := 8, wide := true, w := 0xffffffff, ctr := true },  -- HEC_CORR
  { off := 0x1080, s1 := 0x200, n1 := 8, wide := true, w := 0xffffffff, ctr := true },  -- HEC_UNCORR
  { off := 0x1088, s1 := 0x200, n1 := 8, wide := true, w := 0xffffffff, ctr := true },  -- RX_STOMPED
  { off := 0x1090, s1 := 0x200, n1 := 8, w := 0xffffffff, ctr := true },  -- OOF_CNT
  { off := 0x1094, s1 := 0x200, n1 := 8, w := 0xffffffff, ctr := true },  -- FHP_ERR
  { off := 0x1098, s1 := 0x200, n1 := 8, w := 0xffffffff, ctr := true },  -- TRK_FULL
  { off := 0x109c, s1 := 0x200, n1 := 8, w := 0xffffffff, ctr := true },  -- SHADOW_CNT
  { off := 0x10a0, s1 := 0x200, n1 := 8, w := 0xffffffff, ctr := true },  -- CH_OVF
  { off := 0x1100, s1 := 0x200, n1 := 8, s2 := 0x20, n2 := 8, w := 0xffffffff, ctr := true },  -- ES
  { off := 0x1104, s1 := 0x200, n1 := 8, s2 := 0x20, n2 := 8, w := 0xffffffff, ctr := true },  -- SES
  { off := 0x1108, s1 := 0x200, n1 := 8, s2 := 0x20, n2 := 8, w := 0xffffffff, ctr := true },  -- UAS
  { off := 0x110c, s1 := 0x200, n1 := 8, s2 := 0x20, n2 := 8 },  -- FLAGS
  { off := 0x1110, s1 := 0x200, n1 := 8, s2 := 0x20, n2 := 8, wide := true, w := 0xffffffff, ctr := true }  -- BBE
  ]

/-- Registers: OHSP. -/
def specsOhsp : List RegSpec := [
  { off := 0x40, s1 := 0x10, n1 := 4, w := 0x1, ret := 0x1 },  -- OH_CTRL
  { off := 0x44, s1 := 0x10, n1 := 4 },  -- OH_STAT
  { off := 0x48, s1 := 0x10, n1 := 4, w := 0xffffffff, ctr := true },  -- OH_OVF
  { off := 0x4c, s1 := 0x10, n1 := 4, w := 0xffffffff, ctr := true }  -- OH_FRAMES
  ]

/-- Registers: PARSER. -/
def specsParser : List RegSpec := [
  { off := 0x40, w := 0x1 },  -- PP_CTRL
  { off := 0x44 },  -- PP_STAT
  { off := 0x48, wide := true, w := 0xffffffff, ctr := true },  -- PP_FRAMES
  { off := 0x50, wide := true, w := 0xffffffff, ctr := true },  -- PP_PERR
  { off := 0x58, wide := true, w := 0xffffffff, ctr := true },  -- PP_TRANSIT
  { off := 0x100, s1 := 0x4, n1 := 32, w := 0x1, ret := 0x1 }  -- PP_PORT(j)
  ]

/-- Registers: KERF. -/
def specsKerf : List RegSpec := [
  { off := 0x40, w := 0x1, ret := 0x1 },  -- KS_CTRL
  { off := 0x44 },  -- KS_MAP
  { off := 0x48 },  -- KS_STAT
  { off := 0x4c },  -- KS_ECC_ADDR
  { off := 0x50, w := 0xffffffff, ret := 0xffffffff },  -- KS_HASH_SEED
  { off := 0x54, w := 0xffffffff, ctr := true },  -- KS_ECC_CORR
  { off := 0x58, w := 0xffffffff, ctr := true },  -- KS_ECC_UNCORR
  { off := 0x5c, w := 0xffffffff, ctr := true },  -- KS_WR_SUPP
  { off := 0x60, s1 := 0x20, n1 := 2, s2 := 0x4, n2 := 8, w := 0xffffffff, ret := 0xffffffff },  -- KS_LT_VIEW(b, v)
  { off := 0xa0, s1 := 0x4, n1 := 15, w := 0xffffffff, ret := 0xffffffff, init := 0xffffffff },  -- KS_KPROF(p)
  { off := 0xe0, wide := true, w := 0xffffffff, ctr := true },  -- KS_VECTORS
  { off := 0xe8, wide := true, w := 0xffffffff, ctr := true },  -- KS_DROPS
  { off := 0xf0, wide := true, w := 0xffffffff, ctr := true }  -- KS_PUNTS
  ]

/-- Registers: DEPARSER. -/
def specsDeparser : List RegSpec := [
  { off := 0x40, wide := true, w := 0xffffffff, ctr := true },  -- DP_FRAMES
  { off := 0x48, wide := true, w := 0xffffffff, ctr := true },  -- DP_ENCAP
  { off := 0x50, wide := true, w := 0xffffffff, ctr := true },  -- DP_DECAP
  { off := 0x58, wide := true, w := 0xffffffff, ctr := true },  -- DP_OVERSIZE
  { off := 0x60, wide := true, w := 0xffffffff, ctr := true },  -- DP_ENCAP_BAD
  { off := 0x68, w := 0xffffffff, ctr := true }  -- DP_POP_MISS
  ]

/-- Registers: WLEM. -/
def specsWlem : List RegSpec := [
  { off := 0x40, w := 0x1, ret := 0x1, init := 0x1 },  -- WL_CTRL
  { off := 0x44 },  -- WL_STAT
  { off := 0x48, w := 0xffffffff, ret := 0xffffffff, init := 0x400100 },  -- WL_BOOST_CFG
  { off := 0x4c, w := 0xffff, ret := 0xffff, init := 0x64 },  -- WL_SPARE_THR
  { off := 0x50, w := 0x800000ff },  -- WL_MIGRATE
  { off := 0x54 },  -- WL_SPARE
  { off := 0x58, w := 0xffffffff, ctr := true },  -- WL_ECC_CORR
  { off := 0x5c, w := 0xffffffff, ctr := true },  -- WL_ECC_UNCORR
  { off := 0x60 },  -- WL_ECC_LOC
  { off := 0x68, wide := true, w := 0xffffffff, ctr := true },  -- WL_LOOKUPS
  { off := 0x70, wide := true, w := 0xffffffff, ctr := true },  -- WL_CONFLICT
  { off := 0x100, s1 := 0x4, n1 := 63, w := 0x1ff, lk := 0x1ff, ret := 0x1ff },  -- WL_LT(t)
  { off := 0x200, s1 := 0x4, n1 := 224 }  -- WL_BANKMAP(b)
  ]

/-- Registers: WLLPM. -/
def specsWllpm : List RegSpec := [
  { off := 0x40 },  -- LPM_UNITS
  { off := 0x44 },  -- LPM_V4
  { off := 0x48 },  -- LPM_V6
  { off := 0x50, wide := true, w := 0xffffffff, ctr := true },  -- LPM_LOOKUPS
  { off := 0x100, s1 := 0x4, n1 := 32, w := 0x3, lk := 0x3, ret := 0x3 }  -- LPM_LT(n)
  ]

/-- Registers: LEARN. -/
def specsLearn : List RegSpec := [
  { off := 0x40, w := 0x3f, ret := 0x3f, init := 0x1 },  -- LR_CTRL
  { off := 0x44, w := 0xffff, ret := 0xffff, init := 0x12c },  -- LR_AGE
  { off := 0x48, w := 0x7, ret := 0x7, init := 0x4 },  -- LR_MOVE
  { off := 0x4c, w := 0xffff, ret := 0xffff, init := 0x3e8 },  -- LR_MOVE_WIN
  { off := 0x50, w := 0xffff, ret := 0xffff, init := 0x2710 },  -- LR_MOVE_HOLD
  { off := 0x54, w := 0x1f, ret := 0x1f, init := 0x10 },  -- LR_BURST
  { off := 0x58 },  -- LR_FIFO
  { off := 0x60, wide := true, w := 0xffffffff, ctr := true },  -- LR_LEARNED
  { off := 0x68, wide := true, w := 0xffffffff, ctr := true },  -- LR_MOVED
  { off := 0x70, wide := true, w := 0xffffffff, ctr := true },  -- LR_AGED
  { off := 0x78, w := 0xffffffff, ctr := true },  -- LR_DAMPED
  { off := 0x7c, w := 0xffffffff, ctr := true },  -- LR_LOCK_VIOL
  { off := 0x80, w := 0xffffffff, ctr := true },  -- LR_OVF
  { off := 0x84, w := 0xffffffff, ctr := true },  -- LR_LOST
  { off := 0x88, w := 0xffffffff, ctr := true },  -- LR_NOTE_LOST
  { off := 0x1000, s1 := 0x4, n1 := 1024, w := 0xfff, ret := 0xfff }  -- LR_PMAP(p)
  ]

/-- Registers: MAINT. -/
def specsMaint : List RegSpec := [
  { off := 0x40, w := 0xf, ret := 0x9, init := 0x9 },  -- MT_CTRL
  { off := 0x44 },  -- MT_STAT
  { off := 0x48, wide := true, w := 0xffffffff, ctr := true },  -- MT_CMDS
  { off := 0x50, w := 0xffffffff, ctr := true },  -- MT_PREEMPT
  { off := 0x80, s1 := 0x20, n1 := 2 },  -- JRN_ROUTINE
  { off := 0x84, s1 := 0x20, n1 := 2 },  -- JRN_STEP
  { off := 0x88, s1 := 0x20, n1 := 2 },  -- JRN_CURSOR
  { off := 0x8c, s1 := 0x20, n1 := 2, s2 := 0x4, n2 := 4 },  -- JRN_ARG0–3
  { off := 0x9c, s1 := 0x20, n1 := 2 }  -- JRN_EXIT
  ]

/-- Registers: TCAM. -/
def specsTcam : List RegSpec := [
  { off := 0x40 },  -- TC_VALID
  { off := 0x44, w := 0xffffffff, ctr := true },  -- TC_PERR
  { off := 0x48, wide := true, w := 0xffffffff, ctr := true },  -- TC_LOOKUPS
  { off := 0x50, wide := true, w := 0xffffffff, ctr := true }  -- TC_HITS
  ]

/-- Registers: RING. -/
def specsRing : List RegSpec := [
  { off := 0x40, w := 0x7 },  -- RING_CTRL
  { off := 0x44 },  -- RING_STAT
  { off := 0x48, w := 0xfffff, ret := 0xfffff, init := 0x2710 },  -- RING_MAXAGE
  { off := 0x50, wide := true, w := 0xffffffff },  -- RING_TIME
  { off := 0x58, wide := true },  -- RING_GEN
  { off := 0x60, wide := true, w := 0xffffffff, ctr := true },  -- RING_COMMITS
  { off := 0x68, wide := true, w := 0xffffffff, ctr := true },  -- RING_EXP_DROPS
  { off := 0x70, w := 0xffffffff, ctr := true },  -- RING_REFUSED
  { off := 0x74, w := 0xffffffff, ctr := true },  -- RING_LATE
  { off := 0x78 },  -- RING_REJ_PAGE
  { off := 0x100, s1 := 0x40, n1 := 4 },  -- RS_STATE
  { off := 0x104, s1 := 0x40, n1 := 4 },  -- RS_INFLIGHT
  { off := 0x108, s1 := 0x40, n1 := 4, wide := true },  -- RS_GEN
  { off := 0x110, s1 := 0x40, n1 := 4, wide := true },  -- RS_T_CUR
  { off := 0x118, s1 := 0x40, n1 := 4, wide := true },  -- RS_T_RET
  { off := 0x120, s1 := 0x40, n1 := 4 },  -- RS_LOG_W
  { off := 0x124, s1 := 0x40, n1 := 4 },  -- RS_LOG_E
  { off := 0x128, s1 := 0x40, n1 := 4, wide := true, w := 0xffffffff, ctr := true }  -- RS_STAMPED
  ]

/-- Registers: DECK. -/
def specsDeck : List RegSpec := [
  { off := 0x40, w := 0x3, ret := 0x3, init := 0x3 },  -- DK_CTRL
  { off := 0x44 },  -- DK_FREE
  { off := 0x48 },  -- DK_LEVEL
  { off := 0x4c, w := 0xfffff, ret := 0xfffff, init := 0x13333 },  -- DK_W1
  { off := 0x50, w := 0xfffff, ret := 0xfffff, init := 0x5c28 },  -- DK_W2
  { off := 0x54, w := 0xfffff, ret := 0xfffff },  -- DK_ZERO
  { off := 0x58, w := 0xffff, ret := 0xffff, init := 0x400 },  -- DK_HYST
  { off := 0x5c, w := 0xff, ret := 0xff, init := 0xa },  -- DK_STALL_MAX
  { off := 0x60, w := 0xfffff, init := 0xc0000 },  -- DK_MIN_FREE
  { off := 0x64, w := 0xffffffff, ctr := true },  -- DK_BAD_FREE
  { off := 0x68 },  -- DK_BF_INFO
  { off := 0x6c },  -- DK_BF_TAG
  { off := 0x70, wide := true, w := 0xffffffff, ctr := true },  -- DK_STALLS
  { off := 0x78, wide := true, w := 0xffffffff, ctr := true },  -- DK_STALL_DROPS
  { off := 0x80, w := 0xffffffff, ctr := true },  -- DK_ECC_CORR
  { off := 0x84, w := 0xffffffff, ctr := true },  -- DK_ECC_UNCORR
  { off := 0x88, w := 0xffffffff, ctr := true },  -- DK_REBUILDS
  { off := 0x8c },  -- DK_WITHDRAWN
  { off := 0x90, w := 0xffffffff, ctr := true },  -- DK_W1_ENTRIES
  { off := 0x94, w := 0xffffffff, ctr := true },  -- DK_W2_ENTRIES
  { off := 0x98, w := 0xffffffff, ctr := true },  -- DK_ZERO_ENTRIES
  { off := 0x9c },  -- DK_POOL_RES
  { off := 0xa0, wide := true, w := 0xffffffff, ctr := true },  -- DK_CACHE_STALLS
  { off := 0x100, s1 := 0x4, n1 := 64 },  -- DK_LIST(i)
  { off := 0x200, s1 := 0x20, n1 := 8, w := 0x800fffff, ret := 0x800fffff },  -- DK_POOL_BASE(n)
  { off := 0x204, s1 := 0x20, n1 := 8, w := 0x3ffff, ret := 0x3ffff },  -- DK_POOL_SIZE(n)
  { off := 0x208, s1 := 0x20, n1 := 8, wo := true },  -- DK_POOL_ALLOC(n)
  { off := 0x20c, s1 := 0x20, n1 := 8, wo := true },  -- DK_POOL_FREE(n)
  { off := 0x210, s1 := 0x20, n1 := 8 },  -- DK_POOL_STAT(n)
  { off := 0x214, s1 := 0x20, n1 := 8, w := 0xfff },  -- DK_POOL_BSEL(n)
  { off := 0x218, s1 := 0x20, n1 := 8 }  -- DK_POOL_BMAP(n)
  ]

/-- Registers: SCHED. -/
def specsSched : List RegSpec := [
  { off := 0x40, w := 0x1f, ret := 0x1f, init := 0x14 },  -- SC_CTRL
  { off := 0x44 },  -- SC_HOLDING
  { off := 0x48 },  -- SC_DOWN
  { off := 0x1000, s1 := 0x40, n1 := 32, w := 0x3fffff, ret := 0x3fffff, init := 0x100000 },  -- SC_PORT
  { off := 0x1004, s1 := 0x40, n1 := 32, w := 0x1fffff, ret := 0x1fffff },  -- SC_PRATE
  { off := 0x1008, s1 := 0x40, n1 := 32, w := 0xffff, ret := 0xffff, init := 0x40 },  -- SC_PBURST
  { off := 0x100c, s1 := 0x40, n1 := 32 },  -- SC_PSTAT
  { off := 0x1010, s1 := 0x40, n1 := 32, w := 0xffffffff, ctr := true },  -- SC_HOLD_CNT
  { off := 0x1014, s1 := 0x40, n1 := 32, w := 0xffffffff, ctr := true },  -- SC_RESUME_CNT
  { off := 0x1018, s1 := 0x40, n1 := 32, wide := true, w := 0xffffffff, ctr := true },  -- SC_FLUSHED
  { off := 0x1020, s1 := 0x40, n1 := 32, wide := true, w := 0xffffffff, ctr := true },  -- SC_CUT
  { off := 0x1028, s1 := 0x40, n1 := 32, w := 0xffffffff, ctr := true },  -- SC_UNDERRUN
  { off := 0x2000, s1 := 0x10, n1 := 1024, w := 0x1ff07, ret := 0x1ff07, init := 0x100 },  -- SC_Q
  { off := 0x2004, s1 := 0x10, n1 := 1024, w := 0x1fffff, ret := 0x1fffff },  -- SC_QRATE
  { off := 0x2008, s1 := 0x10, n1 := 1024, w := 0xffff, ret := 0xffff, init := 0x40 },  -- SC_QBURST
  { off := 0x200c, s1 := 0x10, n1 := 1024 }  -- SC_QDEF
  ]

/-- Registers: ADMIT. -/
def specsAdmit : List RegSpec := [
  { off := 0x40, w := 0x3fff },  -- AD_QSEL
  { off := 0x44, w := 0xfffff, ret := 0xfffff, init := 0x4000 },  -- AD_Q
  { off := 0x48, w := 0xfffff, ret := 0xfffff, init := 0x3000 },  -- AD_QY
  { off := 0x4c, w := 0xfffff, ret := 0xfffff },  -- AD_QECN
  { off := 0x50 },  -- AD_QOCC
  { off := 0x54, w := 0xffff7f7f, ret := 0xffff7f7f, init := 0xffff2030 },  -- AD_PFC_GLB
  { off := 0x58, w := 0xffff, ret := 0xffff, init := 0x8000 },  -- AD_PFC_REF
  { off := 0x60, w := 0xffffffff, ret := 0xffffffff },  -- AD_PFC_SA_LO
  { off := 0x64, w := 0xffff, ret := 0xffff },  -- AD_PFC_SA_HI
  { off := 0x70, w := 0x1 },  -- REP_CTRL
  { off := 0x74 },  -- REP_STAT
  { off := 0x78, w := 0xffff },  -- REP_GSEL
  { off := 0x7c, w := 0x5fffffff, ret := 0x5fffffff },  -- REP_GRP
  { off := 0x80, w := 0x3ffff },  -- REP_CSEL
  { off := 0x84, w := 0x80ffffff, ret := 0x80ffffff },  -- REP_COPY
  { off := 0x88, wide := true, w := 0xffffffff, ctr := true },  -- REP_FULL_DROPS
  { off := 0x90, wide := true, w := 0xffffffff, ctr := true },  -- REP_COPIES
  { off := 0x98, w := 0xffffffff, ctr := true },  -- REP_BAD
  { off := 0x100, s1 := 0x4, n1 := 32, w := 0xffffff, ret := 0xffffff, init := 0x8c0000 },  -- AD_C(c)
  { off := 0x180, s1 := 0x4, n1 := 32 },  -- AD_COCC(c)
  { off := 0x200, s1 := 0x8, n1 := 32, wide := true, w := 0xffffffff, ctr := true },  -- AD_ECN_MARKS(c)
  { off := 0x1000, s1 := 0x8, n1 := 512, w := 0xfffff, ret := 0xfffff, init := 0x10000 },  -- AD_P(p)
  { off := 0x1004, s1 := 0x8, n1 := 512 },  -- AD_POCC(p)
  { off := 0x2000, s1 := 0x8, n1 := 1024, w := 0xff, ret := 0xff },  -- AD_PFC(p)
  { off := 0x2004, s1 := 0x8, n1 := 1024, w := 0xffffffff, ret := 0xffffffff, init := 0x6000800 },  -- AD_PFC_TH(p)
  { off := 0x4000, s1 := 0x8, n1 := 1024, w := 0xffffffff, ctr := true },  -- AD_PFC_TX(p)
  { off := 0x4004, s1 := 0x8, n1 := 1024, w := 0xffffffff, ctr := true }  -- AD_PFC_RX(p)
  ]

/-- Registers: TIME. -/
def specsTime : List RegSpec := [
  { off := 0x40, w := 0x1, ret := 0x1 },  -- TM_CTRL
  { off := 0x44, w := 0x3 },  -- TM_CMD
  { off := 0x48, wide := true },  -- TM_NOW
  { off := 0x50 },  -- TM_NOW_HI
  { off := 0x58, wide := true, w := 0xffffffff },  -- TM_SET
  { off := 0x60, w := 0xffff },  -- TM_SET_HI
  { off := 0x68, wide := true, w := 0xffffffff },  -- TM_STEP
  { off := 0x70, w := 0xffffffff, ret := 0xffffffff },  -- TM_ADJ
  { off := 0x74, w := 0xffff, ret := 0xffff, init := 0x25 },  -- TM_UTC_OFS
  { off := 0x78, w := 0xfffff007, ret := 0xfffff007, init := 0x64000 },  -- TM_PPS
  { off := 0x80, wide := true },  -- TM_PPS_CAP
  { off := 0x88 },  -- TM_PPS_CAP_HI
  { off := 0x8c, w := 0xffffffff, ctr := true },  -- TM_TS_LOST
  { off := 0x90, w := 0xffffffff, ctr := true },  -- TM_PTP_SKIP
  { off := 0x1000, s1 := 0x4, n1 := 1024, w := 0xffffffff, ret := 0xffffffff }  -- TM_PADJ(p)
  ]

/-- Registers: MATRIX. -/
def specsMatrix : List RegSpec := [
  { off := 0x40, w := 0x7 },  -- MX_CTRL
  { off := 0x44 },  -- MX_STAT
  { off := 0x48, wide := true, w := 0xffffffff, ctr := true },  -- MX_TOTAL_PKTS
  { off := 0x50, wide := true, w := 0xffffffff, ctr := true }  -- MX_TOTAL_BYTES
  ]

/-- Registers: TALLY. -/
def specsTally : List RegSpec := [
  { off := 0x40, w := 0xf, ret := 0x1, init := 0x1 },  -- TY_CTRL
  { off := 0x44 },  -- TY_STAT
  { off := 0x48 },  -- TY_RECORDS
  { off := 0x4c, w := 0xffff, ret := 0xffff, init := 0x64 },  -- TY_CACHE_MAX
  { off := 0x50, w := 0xffff, ret := 0xffff, init := 0xf },  -- TY_IDLE
  { off := 0x54, w := 0xffff, ret := 0xffff, init := 0x3c },  -- TY_ACTIVE
  { off := 0x58, w := 0xff, ret := 0xff, init := 0x1 },  -- TY_SCAN
  { off := 0x5c, w := 0x1f, ret := 0x1f, init := 0x2 },  -- TY_XCTL
  { off := 0x60, w := 0x7fff, ret := 0x7fff },  -- TY_IPFIX_Q
  { off := 0x64, w := 0xffffffff, ret := 0xffffffff, init := 0x3c0578 },  -- TY_IPFIX_CFG
  { off := 0x68, w := 0xffffffff, ret := 0xffffffff },  -- TY_IPFIX_ODID
  { off := 0x6c, w := 0xffffffff, ret := 0xffffffff },  -- TY_IPFIX_PEN
  { off := 0x70, w := 0x7fffff, ret := 0x7fffff },  -- TY_IPFIX_HDR
  { off := 0x74 },  -- TY_IPFIX_SEQ
  { off := 0x78, w := 0xffffffff, ctr := true },  -- TY_XLOST_MSGS
  { off := 0x7c, w := 0xffffffff, ctr := true },  -- TY_HBM_LOST
  { off := 0x80, wide := true, w := 0xffffffff, ctr := true },  -- TY_EXP_PKTS
  { off := 0x88, wide := true, w := 0xffffffff, ctr := true },  -- TY_EXP_BYTES
  { off := 0x90, wide := true, w := 0xffffffff, ctr := true },  -- TY_EXP_DROPS
  { off := 0x98, wide := true, w := 0xffffffff, ctr := true },  -- TY_HBM_LOST_PKTS
  { off := 0xa0, wide := true, w := 0xffffffff, ctr := true },  -- TY_HBM_LOST_BYTES
  { off := 0xa8, wide := true, w := 0xffffffff, ctr := true },  -- TY_UPDATES
  { off := 0x800, s1 := 0x80, n1 := 8, s2 := 0x4, n2 := 32, w := 0xff0fff, ret := 0xff0fff },  -- TY_KSEL(k, i)
  { off := 0x1000, s1 := 0x4, n1 := 1024, w := 0xf, ret := 0xf },  -- TY_PSEL(p)
  { off := 0x100, s1 := 0x40, n1 := 16, wide := true, w := 0xffffffff, ctr := true },  -- TY_OVF_PKTS
  { off := 0x108, s1 := 0x40, n1 := 16, wide := true, w := 0xffffffff, ctr := true },  -- TY_OVF_BYTES
  { off := 0x110, s1 := 0x40, n1 := 16, wide := true, w := 0xffffffff, ctr := true },  -- TY_OVF_DROPS
  { off := 0x118, s1 := 0x40, n1 := 16, wide := true, w := 0xffffffff, ctr := true },  -- TY_ALOSS
  { off := 0x120, s1 := 0x40, n1 := 16, wide := true, w := 0xffffffff, ctr := true },  -- TY_NOKEY
  { off := 0x128, s1 := 0x40, n1 := 16 },  -- TY_LINES
  { off := 0x130, s1 := 0x40, n1 := 16, wide := true, w := 0xffffffff, ctr := true },  -- TY_HITS
  { off := 0x138, s1 := 0x40, n1 := 16, wide := true, w := 0xffffffff, ctr := true }  -- TY_MISSES
  ]

/-- Registers: HBM. -/
def specsHbm : List RegSpec := [
  { off := 0x40, w := 0x3, ret := 0x2, init := 0x2 },  -- HB_CTRL
  { off := 0x44 },  -- HB_STAT
  { off := 0x48, w := 0xffff, ret := 0xffff, init := 0x3e8 },  -- HB_THR
  { off := 0x4c, w := 0xffffffff, ctr := true },  -- HB_ECC_CORR
  { off := 0x50, w := 0xffffffff, ctr := true },  -- HB_ECC_UNCORR
  { off := 0x54 },  -- HB_ECC_LOC
  { off := 0x58, w := 0xffffffff, ctr := true },  -- HB_RETRAINS
  { off := 0x5c },  -- HB_LAST
  { off := 0x60 }  -- HB_TEMP
  ]

/-- Registers: HALF. -/
def specsHalf : List RegSpec := [
  { off := 0x1000, w := 0xffff0fff, lk := 0xffff0fff, ret := 0xffff0fff, init := 0x20 },  -- RF_CTRL
  { off := 0x1004, w := 0xffffffff, lk := 0xffffffff, ret := 0xffffffff },  -- RF_SYSID
  { off := 0x1008, w := 0xfffff, ret := 0xfffff, init := 0x303e8 },  -- RF_HELLO
  { off := 0x100c, w := 0xfffff, ret := 0xfffff, init := 0x7d0 },  -- RF_GRACE
  { off := 0x1010, w := 0xffffffff, ret := 0xffffffff, init := 0x5af70001 },  -- RF_HELLO_DA_LO
  { off := 0x1014, w := 0xffff, ret := 0xffff, init := 0x300 },  -- RF_HELLO_DA_HI
  { off := 0x1018, w := 0xffffffff, ret := 0xffffffff },  -- RF_HELLO_SA_LO
  { off := 0x101c, w := 0xffff, ret := 0xffff },  -- RF_HELLO_SA_HI
  { off := 0x1020 },  -- RF_STAT
  { off := 0x1024, w := 0xffff },  -- RF_DSEL
  { off := 0x1028, w := 0x800000ff, ret := 0x800000ff },  -- RF_REACH
  { off := 0x102c, w := 0x3fff },  -- RF_GSEL
  { off := 0x1030, w := 0x8003ffff, ret := 0x8003ffff },  -- RF_MEMBER
  { off := 0x1034 },  -- RF_EW
  { off := 0x1038, w := 0xfff },  -- RF_TSEL
  { off := 0x103c, w := 0x8000ffff, ret := 0x8000ffff },  -- RF_TREE
  { off := 0x1040, w := 0xffffffff, ctr := true },  -- RF_HELLO_TX
  { off := 0x1044, w := 0xffffffff, ctr := true },  -- RF_HELLO_RX
  { off := 0x1048, w := 0xffffffff, ctr := true },  -- RF_HELLO_BAD
  { off := 0x104c, w := 0xffffffff, ctr := true },  -- RF_SELF
  { off := 0x1050, w := 0xffffffff, ctr := true },  -- RF_REWEIGHTS
  { off := 0x1054, w := 0xffffffff, ctr := true },  -- RF_NOTE_LOST
  { off := 0x1058, wide := true, w := 0xffffffff, ctr := true },  -- RF_PUSHED
  { off := 0x1060, wide := true, w := 0xffffffff, ctr := true },  -- RF_RELAYED
  { off := 0x1800, s1 := 0x4, n1 := 512, w := 0x1ff, ret := 0x1ff },  -- RF_PORT(p)
  { off := 0x2000, s1 := 0x10, n1 := 512 },  -- RF_NB0
  { off := 0x2004, s1 := 0x10, n1 := 512 },  -- RF_NB1
  { off := 0x2008, s1 := 0x10, n1 := 512 },  -- RF_NB_SEQ
  { off := 0x200c, s1 := 0x10, n1 := 512, w := 0xffffffff, ctr := true }  -- RF_NB_LOST
  ]

/-- Registers: HOSTDMA0. -/
def specsHostdma0 : List RegSpec := [
  { off := 0x40 },  -- HD_STAT
  { off := 0x44, w := 0xffffffff, ctr := true },  -- HD_ERR_CNT
  { off := 0x48, w := 0xffffffff, ctr := true },  -- HD_POISON
  { off := 0x50, wide := true, w := 0xffffffff, ctr := true },  -- HD_INJ_DROPS
  { off := 0x58, wide := true, w := 0xffffffff, ctr := true }  -- HD_PUNTS
  ]

/-- Registers: HOSTQ. -/
def specsHostq : List RegSpec := [
  { off := 0x1000, s1 := 0x80, n1 := 32, w := 0xfffff000 },  -- HQ_BASE_LO
  { off := 0x1004, s1 := 0x80, n1 := 32, w := 0xffffffff },  -- HQ_BASE_HI
  { off := 0x1008, s1 := 0x80, n1 := 32, w := 0x3f, init := 0x6 },  -- HQ_CFG
  { off := 0x100c, s1 := 0x80, n1 := 32, w := 0x1 },  -- HQ_CTRL
  { off := 0x1010, s1 := 0x80, n1 := 32 },  -- HQ_STAT
  { off := 0x1014, s1 := 0x80, n1 := 32, w := 0xffff },  -- HQ_HEAD
  { off := 0x1018, s1 := 0x80, n1 := 32 },  -- HQ_TAIL
  { off := 0x101c, s1 := 0x80, n1 := 32, w := 0xffff07ff, init := 0x200 },  -- HQ_IRQ
  { off := 0x1020, s1 := 0x80, n1 := 32, w := 0xfffff, init := 0x100 },  -- HQ_LIM
  { off := 0x1024, s1 := 0x80, n1 := 32 },  -- HQ_HELD
  { off := 0x1028, s1 := 0x80, n1 := 32, wide := true, w := 0xffffffff, ctr := true },  -- HQ_DONE
  { off := 0x1030, s1 := 0x80, n1 := 32, wide := true, w := 0xffffffff, ctr := true },  -- HQ_BYTES
  { off := 0x1038, s1 := 0x80, n1 := 32, w := 0xffffffff, ctr := true },  -- HQ_DROPS
  { off := 0x103c, s1 := 0x80, n1 := 32, w := 0xffffffff, ctr := true }  -- HQ_ERRS
  ]

/-- Registers: CRUISER. -/
def specsCruiser : List RegSpec := [
  { off := 0x40, w := 0x7, ret := 0x4 },  -- CR_CTRL
  { off := 0x44 },  -- CR_STAT
  { off := 0x48, w := 0xf, ret := 0xf },  -- CR_FAM
  { off := 0x4c, w := 0xffffffff, ret := 0xffffffff },  -- CR_PERIOD
  { off := 0x50, wide := true, w := 0xffffffff },  -- CR_SNAP_T
  { off := 0x58, wide := true, w := 0xffffffff, ret := 0xffffffff },  -- CR_HOST_ADDR
  { off := 0x60, w := 0xffffffff, ret := 0xffffffff },  -- CR_HOST_LEN
  { off := 0x64, w := 0xf, ret := 0xf, init := 0x1 },  -- CR_HOST_CFG
  { off := 0x68 },  -- CR_SEQ
  { off := 0x6c, w := 0xffffffff, ctr := true },  -- CR_SNAPS
  { off := 0x70, w := 0xffffffff, ctr := true },  -- CR_SKIPPED
  { off := 0x74, w := 0xffffffff, ctr := true },  -- CR_REJECTS
  { off := 0x80, w := 0x1ff },  -- CR_TD_SEL
  { off := 0x88, wide := true, w := 0xffffffff },  -- CR_TD_CYC
  { off := 0x90, wide := true, w := 0xffffffff },  -- CR_TD_RET
  { off := 0x98, wide := true, w := 0xffffffff },  -- CR_TD_WASTE
  { off := 0xa0, wide := true, w := 0xffffffff },  -- CR_TD_FSTARVE
  { off := 0xa8, wide := true, w := 0xffffffff },  -- CR_TD_BSTARVE_WL
  { off := 0xb0, wide := true, w := 0xffffffff },  -- CR_TD_BSTARVE_DN
  { off := 0xc0, w := 0x107, ret := 0x7, init := 0x3 },  -- CR_BW_CTRL
  { off := 0xc4, w := 0x3ff },  -- CR_BW_SEL
  { off := 0xc8, wide := true },  -- CR_BW_LAST_RX
  { off := 0xd0, wide := true },  -- CR_BW_LAST_TX
  { off := 0xd8, wide := true },  -- CR_BW_PEAK_RX
  { off := 0xe0, wide := true },  -- CR_BW_PEAK_TX
  { off := 0xe8, wide := true },  -- CR_BW_PEAK_RX_T
  { off := 0xf0, wide := true }  -- CR_BW_PEAK_TX_T
  ]

/-- Registers: LOOKOUT. -/
def specsLookout : List RegSpec := [
  { off := 0x40 },  -- LO_STAT
  { off := 0x44, w := 0x3fff, lk := 0x3fff, ret := 0x3fff, init := 0xa },  -- LO_PIN
  { off := 0x48, wo := true },  -- LO_PIN_REL
  { off := 0x4c, wo := true },  -- LO_CLR
  { off := 0x50 },  -- LO_LOG_WR
  { off := 0x54, w := 0xffffffff, ctr := true },  -- LO_MSG_LOST
  { off := 0x58, w := 0xffffffff, ctr := true },  -- LO_CLR_MISS
  { off := 0x5c, w := 0xffffffff, ctr := true },  -- LO_TRAPS
  { off := 0x60, w := 0xffffffff, ctr := true },  -- LO_TRAP_LOST
  { off := 0x64 },  -- LO_FATAL
  { off := 0x68, w := 0xffffffff, ctr := true },  -- LO_PINS
  { off := 0x80, s1 := 0x4, n1 := 16 },  -- LO_LATCH(k)
  { off := 0xc0, s1 := 0x4, n1 := 16 },  -- LO_ACTIVE(k)
  { off := 0x100, s1 := 0x4, n1 := 16 },  -- LO_GONE(k)
  { off := 0x1000, s1 := 0x4, n1 := 512, w := 0xff, lk := 0xff, ret := 0xff },  -- LO_SRC(n)
  { off := 0x2000, s1 := 0x10, n1 := 512, s2 := 4, n2 := 2 },  -- LO_REC(n)
  { off := 0x2008, s1 := 0x10, n1 := 512, wide := true },  -- LO_REC(n), time
  { off := 0x4000, s1 := 0x4, n1 := 512, w := 0xffffffff, ctr := true },  -- LO_CNT(n)
  { off := 0x8000, s1 := 0x20, n1 := 1024, s2 := 4, n2 := 8 }  -- LOG(i)
  ]

/-- Registers: FIREBREAK. -/
def specsFirebreak : List RegSpec := [
  { off := 0x40, w := 0x7, lk := 0x7, ret := 0x7, init := 0x4 },  -- FB_CTRL
  { off := 0x44 },  -- FB_STAT
  { off := 0x48 },  -- FB_P_NOW
  { off := 0x4c },  -- FB_P_FAST
  { off := 0x50 },  -- FB_P_SHORT
  { off := 0x54 },  -- FB_P_SUS
  { off := 0x58 },  -- FB_P_LONG
  { off := 0x5c, w := 0xfff, lk := 0xfff, ret := 0xfff, init := 0x60e },  -- FB_CAP_FAST
  { off := 0x60, w := 0xfff, lk := 0xfff, ret := 0xfff, init := 0x578 },  -- FB_CAP_SUS
  { off := 0x64, w := 0xfff, lk := 0xfff, ret := 0xfff, init := 0x546 },  -- FB_CAP_LONG
  { off := 0x68, w := 0xf, ret := 0xf, init := 0x2 },  -- FB_HYST
  { off := 0x6c, w := 0xfff, ret := 0xfff, init := 0x514 },  -- FB_BOOST_CEIL
  { off := 0x70, w := 0xffffffff, ret := 0xffffffff, init := 0x8000 },  -- FB_CAL
  { off := 0x74, w := 0xf, ret := 0xf, init := 0x8 },  -- FB_PACE
  { off := 0x78, w := 0x1f, ret := 0x1f, init := 0xc },  -- FB_UV
  { off := 0x7c, w := 0x3f, lk := 0x3f, ret := 0x3f, init := 0x19 },  -- FB_DROOP
  { off := 0x80, w := 0xff, lk := 0xff, ret := 0xff, init := 0x64 },  -- FB_TEMP_WARN
  { off := 0x84, w := 0xff, lk := 0xff, ret := 0xff, init := 0x69 },  -- FB_TEMP_THR
  { off := 0x88, w := 0xff, lk := 0xff, ret := 0xff, init := 0x5f },  -- FB_HBM_THR
  { off := 0x8c, w := 0xff },  -- FB_TEMP_MAX
  { off := 0x90 },  -- FB_VCORE
  { off := 0x94, wo := true },  -- FB_HINT
  { off := 0x98, w := 0xffffff, ret := 0xffffff, init := 0x1f40a },  -- FB_HINT_CFG
  { off := 0x9c, w := 0xffffffff, ctr := true },  -- FB_CAP_EVTS
  { off := 0xa0, w := 0xffffffff, ctr := true },  -- FB_SOFT
  { off := 0xa4, w := 0xffffffff, ctr := true },  -- FB_UV_CNT
  { off := 0xa8, w := 0xffffffff, ctr := true },  -- FB_HINTS
  { off := 0xb0, wide := true, w := 0xffffffff, ctr := true },  -- FB_DEFER_US
  { off := 0xb8, wide := true, w := 0xffffffff, ctr := true },  -- FB_PACE_US
  { off := 0xc0, wide := true, w := 0xffffffff, ctr := true },  -- FB_STEP_CHG
  { off := 0xc8, s1 := 0x10, n1 := 2, wide := true, w := 0xffffffff, ctr := true },  -- FB_DROOP_CNT(h)
  { off := 0xd0, s1 := 0x10, n1 := 2, wide := true, w := 0xffffffff, ctr := true },  -- FB_DROOP_NS(h)
  { off := 0x100, s1 := 0x4, n1 := 32, w := 0x1f, ret := 0x1f, init := 0x8 },  -- FB_SLICE(s)
  { off := 0x200, s1 := 0x4, n1 := 32 }  -- FB_TEMP(i)
  ]

/-- Registers: FORESTER. -/
def specsForester : List RegSpec := [
  { off := 0x40, w := 0xffff00ff },  -- MB_OP
  { off := 0x44, w := 0x1fff },  -- MB_LEN
  { off := 0x48, w := 0xffffffc0 },  -- MB_ADDR_LO
  { off := 0x4c, w := 0xffffffff },  -- MB_ADDR_HI
  { off := 0x50, w := 0xffffffff },  -- MB_ALEN
  { off := 0x54, wo := true },  -- MB_GO
  { off := 0x58 },  -- MB_STAT
  { off := 0x5c },  -- MB_RLEN
  { off := 0x60 },  -- MB_XLEN
  { off := 0x64, w := 0xffffffff, ctr := true },  -- MB_DROPPED
  { off := 0x68 },  -- FR_STATE
  { off := 0x6c },  -- FR_VER_W
  { off := 0x70 },  -- FR_VER_E
  { off := 0x74 },  -- FR_TRAPS
  { off := 0x1000, s1 := 0x4, n1 := 1024, w := 0xffffffff },  -- MB_REQ
  { off := 0x2000, s1 := 0x4, n1 := 1024 }  -- MB_RSP
  ]

/-- Registers: LIFECYCLE. -/
def specsLifecycle : List RegSpec := [
  { off := 0x40 },  -- LC_STATE
  { off := 0x44, w1s := 0x3, ret := 0x3 },  -- LC_CTRL
  { off := 0x48 },  -- HD_HOLDER
  { off := 0x4c },  -- HD_EPOCH
  { off := 0x50, wide := true },  -- LC_SERIAL
  { off := 0x58 },  -- LC_KEYS
  { off := 0x60, s1 := 0x4, n1 := 6 },  -- LC_SVN(t)
  { off := 0x1000, s1 := 0x40, n1 := 8, s2 := 0x4, n2 := 16 }  -- LC_M(i)
  ]

/-- Registers: RESET. -/
def specsReset : List RegSpec := [
  { off := 0x40 },  -- RST_CAUSE
  { off := 0x44 },  -- RST_STAT
  { off := 0x48, wo := true },  -- RST_CHIP
  { off := 0x4c, wo := true },  -- RST_HALF
  { off := 0x50, wo := true },  -- RST_SLICE
  { off := 0x54 },  -- RST_SLICES
  { off := 0x58, w := 0xf, ret := 0xf, init := 0xf },  -- RT_SCOPE
  { off := 0x60, wide := true },  -- RT_SEQ_A
  { off := 0x68, wide := true },  -- RT_SEQ_B
  { off := 0x70, wide := true },  -- RT_SEQ_USED
  { off := 0x78 },  -- RT_LEN
  { off := 0x7c, w := 0xffffffff, ctr := true },  -- RST_COUNT
  { off := 0x80, w := 0xffffffff, ctr := true }  -- RT_SAVES
  ]

abbrev Reg.pgId : Nat := 0x0
abbrev Reg.pgVer : Nat := 0x4
abbrev Reg.pgCtrl : Nat := 0x8
abbrev Reg.pgStat : Nat := 0xc
abbrev Reg.pgEvt : Nat := 0x10
abbrev Reg.pgEvtEn : Nat := 0x14
abbrev Reg.pgLock : Nat := 0x18
abbrev Reg.pgSrc : Nat := 0x1c
abbrev Reg.winSel : Nat := 0x8000
abbrev Reg.winAddr : Nat := 0x8004
abbrev Reg.winCmd : Nat := 0x8008
abbrev Reg.winStat : Nat := 0x800c
abbrev Reg.winData (i : Nat) : Nat := 0x8040 + 0x4 * i
abbrev Reg.orderCtrl : Nat := 0x40
abbrev Reg.orderFence : Nat := 0x44
abbrev Reg.fenceCnt : Nat := 0x48
abbrev Reg.fenceMax : Nat := 0x4c
abbrev Reg.berrAddr : Nat := 0x40
abbrev Reg.berrInfo : Nat := 0x44
abbrev Reg.berrCnt : Nat := 0x48
abbrev Reg.macLinkUp : Nat := 0x40
abbrev Reg.portActive : Nat := 0x44
abbrev Reg.portCfg (j : Nat) : Nat := 0x1000 + 0x100 * j
abbrev Reg.portCtrl (j : Nat) : Nat := 0x1004 + 0x100 * j
abbrev Reg.portStat (j : Nat) : Nat := 0x1008 + 0x100 * j
abbrev Reg.maxFrame (j : Nat) : Nat := 0x100c + 0x100 * j
abbrev Reg.fecDegr (j : Nat) : Nat := 0x1010 + 0x100 * j
abbrev Reg.linkDownCnt (j : Nat) : Nat := 0x1014 + 0x100 * j
abbrev Reg.lfCnt (j : Nat) : Nat := 0x1018 + 0x100 * j
abbrev Reg.rfCnt (j : Nat) : Nat := 0x101c + 0x100 * j
abbrev Reg.rxFramesOk (j : Nat) : Nat := 0x1020 + 0x100 * j
abbrev Reg.rxBytesOk (j : Nat) : Nat := 0x1028 + 0x100 * j
abbrev Reg.rxFcsErr (j : Nat) : Nat := 0x1030 + 0x100 * j
abbrev Reg.rxRunt (j : Nat) : Nat := 0x1038 + 0x100 * j
abbrev Reg.rxOversize (j : Nat) : Nat := 0x1040 + 0x100 * j
abbrev Reg.rxPcsErr (j : Nat) : Nat := 0x1048 + 0x100 * j
abbrev Reg.txFrames (j : Nat) : Nat := 0x1050 + 0x100 * j
abbrev Reg.txBytes (j : Nat) : Nat := 0x1058 + 0x100 * j
abbrev Reg.txStomped (j : Nat) : Nat := 0x1060 + 0x100 * j
abbrev Reg.fecCw (j : Nat) : Nat := 0x1068 + 0x100 * j
abbrev Reg.fecCorrCw (j : Nat) : Nat := 0x1070 + 0x100 * j
abbrev Reg.fecUncorrCw (j : Nat) : Nat := 0x1078 + 0x100 * j
abbrev Reg.fecCorrSym (j : Nat) : Nat := 0x1080 + 0x100 * j
abbrev Reg.fecBin (j i : Nat) : Nat := 0x1088 + 0x100 * j + 0x4 * i
abbrev Reg.lnTxeq (i : Nat) : Nat := 0x1000 + 0x100 * i
abbrev Reg.lnTaps0 (i : Nat) : Nat := 0x1004 + 0x100 * i
abbrev Reg.lnTaps1 (i : Nat) : Nat := 0x1008 + 0x100 * i
abbrev Reg.lnRxcfg (i : Nat) : Nat := 0x100c + 0x100 * i
abbrev Reg.lnStat (i : Nat) : Nat := 0x1010 + 0x100 * i
abbrev Reg.lnPpm (i : Nat) : Nat := 0x1014 + 0x100 * i
abbrev Reg.lnPrbs (i : Nat) : Nat := 0x1018 + 0x100 * i
abbrev Reg.lnFwbank (i : Nat) : Nat := 0x101c + 0x100 * i
abbrev Reg.lnPrbsErr (i : Nat) : Nat := 0x1020 + 0x100 * i
abbrev Reg.lnPrbsBits (i : Nat) : Nat := 0x1028 + 0x100 * i
abbrev Reg.lnLosCnt (i : Nat) : Nat := 0x1030 + 0x100 * i
abbrev Reg.mcPllA (n : Nat) : Nat := 0x1000 + 0x400 * n
abbrev Reg.mcPllB (n : Nat) : Nat := 0x1004 + 0x400 * n
abbrev Reg.mcPllStat (n : Nat) : Nat := 0x1008 + 0x400 * n
abbrev Reg.mcFw (n : Nat) : Nat := 0x100c + 0x400 * n
abbrev Reg.mcFwVer (n : Nat) : Nat := 0x1010 + 0x400 * n
abbrev Reg.spanEn : Nat := 0x40
abbrev Reg.spanDef : Nat := 0x44
abbrev Reg.pmDayOfs : Nat := 0x48
abbrev Reg.spCfg (j : Nat) : Nat := 0x1000 + 0x200 * j
abbrev Reg.spSalt0 (j : Nat) : Nat := 0x1004 + 0x200 * j
abbrev Reg.spSalt1 (j : Nat) : Nat := 0x1008 + 0x200 * j
abbrev Reg.spCh (j : Nat) : Nat := 0x100c + 0x200 * j
abbrev Reg.spCtrl (j : Nat) : Nat := 0x1010 + 0x200 * j
abbrev Reg.spStat (j : Nat) : Nat := 0x1014 + 0x200 * j
abbrev Reg.spTca (j : Nat) : Nat := 0x1018 + 0x200 * j
abbrev Reg.spRxFrames (j : Nat) : Nat := 0x1040 + 0x200 * j
abbrev Reg.rxErrFrames (j : Nat) : Nat := 0x1048 + 0x200 * j
abbrev Reg.bipErrBits (j : Nat) : Nat := 0x1050 + 0x200 * j
abbrev Reg.reiBits (j : Nat) : Nat := 0x1058 + 0x200 * j
abbrev Reg.rxPkts (j : Nat) : Nat := 0x1060 + 0x200 * j
abbrev Reg.txPkts (j : Nat) : Nat := 0x1068 + 0x200 * j
abbrev Reg.txFillBytes (j : Nat) : Nat := 0x1070 + 0x200 * j
abbrev Reg.hecCorr (j : Nat) : Nat := 0x1078 + 0x200 * j
abbrev Reg.hecUncorr (j : Nat) : Nat := 0x1080 + 0x200 * j
abbrev Reg.rxStomped (j : Nat) : Nat := 0x1088 + 0x200 * j
abbrev Reg.oofCnt (j : Nat) : Nat := 0x1090 + 0x200 * j
abbrev Reg.fhpErr (j : Nat) : Nat := 0x1094 + 0x200 * j
abbrev Reg.trkFull (j : Nat) : Nat := 0x1098 + 0x200 * j
abbrev Reg.shadowCnt (j : Nat) : Nat := 0x109c + 0x200 * j
abbrev Reg.chOvf (j : Nat) : Nat := 0x10a0 + 0x200 * j
abbrev Reg.pmEs (j b : Nat) : Nat := 0x1100 + 0x200 * j + 0x20 * b
abbrev Reg.pmSes (j b : Nat) : Nat := 0x1104 + 0x200 * j + 0x20 * b
abbrev Reg.pmUas (j b : Nat) : Nat := 0x1108 + 0x200 * j + 0x20 * b
abbrev Reg.pmFlags (j b : Nat) : Nat := 0x110c + 0x200 * j + 0x20 * b
abbrev Reg.pmBbe (j b : Nat) : Nat := 0x1110 + 0x200 * j + 0x20 * b
abbrev Reg.ohCtrl (n : Nat) : Nat := 0x40 + 0x10 * n
abbrev Reg.ohStat (n : Nat) : Nat := 0x44 + 0x10 * n
abbrev Reg.ohOvf (n : Nat) : Nat := 0x48 + 0x10 * n
abbrev Reg.ohFrames (n : Nat) : Nat := 0x4c + 0x10 * n
abbrev Reg.ppCtrl : Nat := 0x40
abbrev Reg.ppStat : Nat := 0x44
abbrev Reg.ppFrames : Nat := 0x48
abbrev Reg.ppPerr : Nat := 0x50
abbrev Reg.ppTransit : Nat := 0x58
abbrev Reg.ppPort (j : Nat) : Nat := 0x100 + 0x4 * j
abbrev Reg.ksCtrl : Nat := 0x40
abbrev Reg.ksMap : Nat := 0x44
abbrev Reg.ksStat : Nat := 0x48
abbrev Reg.ksEccAddr : Nat := 0x4c
abbrev Reg.ksHashSeed : Nat := 0x50
abbrev Reg.ksEccCorr : Nat := 0x54
abbrev Reg.ksEccUncorr : Nat := 0x58
abbrev Reg.ksWrSupp : Nat := 0x5c
abbrev Reg.ksLtView (b v : Nat) : Nat := 0x60 + 0x20 * b + 0x4 * v
abbrev Reg.ksKprof (p : Nat) : Nat := 0xa0 + 0x4 * (p - 1)
abbrev Reg.ksVectors : Nat := 0xe0
abbrev Reg.ksDrops : Nat := 0xe8
abbrev Reg.ksPunts : Nat := 0xf0
abbrev Reg.dpFrames : Nat := 0x40
abbrev Reg.dpEncap : Nat := 0x48
abbrev Reg.dpDecap : Nat := 0x50
abbrev Reg.dpOversize : Nat := 0x58
abbrev Reg.dpEncapBad : Nat := 0x60
abbrev Reg.dpPopMiss : Nat := 0x68
abbrev Reg.wlCtrl : Nat := 0x40
abbrev Reg.wlStat : Nat := 0x44
abbrev Reg.wlBoostCfg : Nat := 0x48
abbrev Reg.wlSpareThr : Nat := 0x4c
abbrev Reg.wlMigrate : Nat := 0x50
abbrev Reg.wlSpare : Nat := 0x54
abbrev Reg.wlEccCorr : Nat := 0x58
abbrev Reg.wlEccUncorr : Nat := 0x5c
abbrev Reg.wlEccLoc : Nat := 0x60
abbrev Reg.wlLookups : Nat := 0x68
abbrev Reg.wlConflict : Nat := 0x70
abbrev Reg.wlLt (t : Nat) : Nat := 0x100 + 0x4 * (t - 1)
abbrev Reg.wlBankmap (b : Nat) : Nat := 0x200 + 0x4 * b
abbrev Reg.lpmUnits : Nat := 0x40
abbrev Reg.lpmV4 : Nat := 0x44
abbrev Reg.lpmV6 : Nat := 0x48
abbrev Reg.lpmLookups : Nat := 0x50
abbrev Reg.lpmLt (n : Nat) : Nat := 0x100 + 0x4 * n
abbrev Reg.lrCtrl : Nat := 0x40
abbrev Reg.lrAge : Nat := 0x44
abbrev Reg.lrMove : Nat := 0x48
abbrev Reg.lrMoveWin : Nat := 0x4c
abbrev Reg.lrMoveHold : Nat := 0x50
abbrev Reg.lrBurst : Nat := 0x54
abbrev Reg.lrFifo : Nat := 0x58
abbrev Reg.lrLearned : Nat := 0x60
abbrev Reg.lrMoved : Nat := 0x68
abbrev Reg.lrAged : Nat := 0x70
abbrev Reg.lrDamped : Nat := 0x78
abbrev Reg.lrLockViol : Nat := 0x7c
abbrev Reg.lrOvf : Nat := 0x80
abbrev Reg.lrLost : Nat := 0x84
abbrev Reg.lrNoteLost : Nat := 0x88
abbrev Reg.lrPmap (p : Nat) : Nat := 0x1000 + 0x4 * p
abbrev Reg.mtCtrl : Nat := 0x40
abbrev Reg.mtStat : Nat := 0x44
abbrev Reg.mtCmds : Nat := 0x48
abbrev Reg.mtPreempt : Nat := 0x50
abbrev Reg.jrnRoutine (c : Nat) : Nat := 0x80 + 0x20 * c
abbrev Reg.jrnStep (c : Nat) : Nat := 0x84 + 0x20 * c
abbrev Reg.jrnCursor (c : Nat) : Nat := 0x88 + 0x20 * c
abbrev Reg.jrnArg (c i : Nat) : Nat := 0x8c + 0x20 * c + 0x4 * i
abbrev Reg.jrnExit (c : Nat) : Nat := 0x9c + 0x20 * c
abbrev Reg.tcValid : Nat := 0x40
abbrev Reg.tcPerr : Nat := 0x44
abbrev Reg.tcLookups : Nat := 0x48
abbrev Reg.tcHits : Nat := 0x50
abbrev Reg.ringCtrl : Nat := 0x40
abbrev Reg.ringStat : Nat := 0x44
abbrev Reg.ringMaxage : Nat := 0x48
abbrev Reg.ringTime : Nat := 0x50
abbrev Reg.ringGen : Nat := 0x58
abbrev Reg.ringCommits : Nat := 0x60
abbrev Reg.ringExpDrops : Nat := 0x68
abbrev Reg.ringRefused : Nat := 0x70
abbrev Reg.ringLate : Nat := 0x74
abbrev Reg.ringRejPage : Nat := 0x78
abbrev Reg.rsState (r : Nat) : Nat := 0x100 + 0x40 * r
abbrev Reg.rsInflight (r : Nat) : Nat := 0x104 + 0x40 * r
abbrev Reg.rsGen (r : Nat) : Nat := 0x108 + 0x40 * r
abbrev Reg.rsTCur (r : Nat) : Nat := 0x110 + 0x40 * r
abbrev Reg.rsTRet (r : Nat) : Nat := 0x118 + 0x40 * r
abbrev Reg.rsLogW (r : Nat) : Nat := 0x120 + 0x40 * r
abbrev Reg.rsLogE (r : Nat) : Nat := 0x124 + 0x40 * r
abbrev Reg.rsStamped (r : Nat) : Nat := 0x128 + 0x40 * r
abbrev Reg.dkCtrl : Nat := 0x40
abbrev Reg.dkFree : Nat := 0x44
abbrev Reg.dkLevel : Nat := 0x48
abbrev Reg.dkW1 : Nat := 0x4c
abbrev Reg.dkW2 : Nat := 0x50
abbrev Reg.dkZero : Nat := 0x54
abbrev Reg.dkHyst : Nat := 0x58
abbrev Reg.dkStallMax : Nat := 0x5c
abbrev Reg.dkMinFree : Nat := 0x60
abbrev Reg.dkBadFree : Nat := 0x64
abbrev Reg.dkBfInfo : Nat := 0x68
abbrev Reg.dkBfTag : Nat := 0x6c
abbrev Reg.dkStalls : Nat := 0x70
abbrev Reg.dkStallDrops : Nat := 0x78
abbrev Reg.dkEccCorr : Nat := 0x80
abbrev Reg.dkEccUncorr : Nat := 0x84
abbrev Reg.dkRebuilds : Nat := 0x88
abbrev Reg.dkWithdrawn : Nat := 0x8c
abbrev Reg.dkW1Entries : Nat := 0x90
abbrev Reg.dkW2Entries : Nat := 0x94
abbrev Reg.dkZeroEntries : Nat := 0x98
abbrev Reg.dkPoolRes : Nat := 0x9c
abbrev Reg.dkCacheStalls : Nat := 0xa0
abbrev Reg.dkList (i : Nat) : Nat := 0x100 + 0x4 * i
abbrev Reg.dkPoolBase (n : Nat) : Nat := 0x200 + 0x20 * n
abbrev Reg.dkPoolSize (n : Nat) : Nat := 0x204 + 0x20 * n
abbrev Reg.dkPoolAlloc (n : Nat) : Nat := 0x208 + 0x20 * n
abbrev Reg.dkPoolFree (n : Nat) : Nat := 0x20c + 0x20 * n
abbrev Reg.dkPoolStat (n : Nat) : Nat := 0x210 + 0x20 * n
abbrev Reg.dkPoolBsel (n : Nat) : Nat := 0x214 + 0x20 * n
abbrev Reg.dkPoolBmap (n : Nat) : Nat := 0x218 + 0x20 * n
abbrev Reg.scCtrl : Nat := 0x40
abbrev Reg.scHolding : Nat := 0x44
abbrev Reg.scDown : Nat := 0x48
abbrev Reg.scPort (j : Nat) : Nat := 0x1000 + 0x40 * j
abbrev Reg.scPrate (j : Nat) : Nat := 0x1004 + 0x40 * j
abbrev Reg.scPburst (j : Nat) : Nat := 0x1008 + 0x40 * j
abbrev Reg.scPstat (j : Nat) : Nat := 0x100c + 0x40 * j
abbrev Reg.scHoldCnt (j : Nat) : Nat := 0x1010 + 0x40 * j
abbrev Reg.scResumeCnt (j : Nat) : Nat := 0x1014 + 0x40 * j
abbrev Reg.scFlushed (j : Nat) : Nat := 0x1018 + 0x40 * j
abbrev Reg.scCut (j : Nat) : Nat := 0x1020 + 0x40 * j
abbrev Reg.scUnderrun (j : Nat) : Nat := 0x1028 + 0x40 * j
abbrev Reg.scQ (k : Nat) : Nat := 0x2000 + 0x10 * k
abbrev Reg.scQrate (k : Nat) : Nat := 0x2004 + 0x10 * k
abbrev Reg.scQburst (k : Nat) : Nat := 0x2008 + 0x10 * k
abbrev Reg.scQdef (k : Nat) : Nat := 0x200c + 0x10 * k
abbrev Reg.adQsel : Nat := 0x40
abbrev Reg.adQ : Nat := 0x44
abbrev Reg.adQy : Nat := 0x48
abbrev Reg.adQecn : Nat := 0x4c
abbrev Reg.adQocc : Nat := 0x50
abbrev Reg.adPfcGlb : Nat := 0x54
abbrev Reg.adPfcRef : Nat := 0x58
abbrev Reg.adPfcSaLo : Nat := 0x60
abbrev Reg.adPfcSaHi : Nat := 0x64
abbrev Reg.repCtrl : Nat := 0x70
abbrev Reg.repStat : Nat := 0x74
abbrev Reg.repGsel : Nat := 0x78
abbrev Reg.repGrp : Nat := 0x7c
abbrev Reg.repCsel : Nat := 0x80
abbrev Reg.repCopy : Nat := 0x84
abbrev Reg.repFullDrops : Nat := 0x88
abbrev Reg.repCopies : Nat := 0x90
abbrev Reg.repBad : Nat := 0x98
abbrev Reg.adC (c : Nat) : Nat := 0x100 + 0x4 * c
abbrev Reg.adCocc (c : Nat) : Nat := 0x180 + 0x4 * c
abbrev Reg.adEcnMarks (c : Nat) : Nat := 0x200 + 0x8 * c
abbrev Reg.adP (p : Nat) : Nat := 0x1000 + 0x8 * (p % 512)
abbrev Reg.adPocc (p : Nat) : Nat := 0x1004 + 0x8 * (p % 512)
abbrev Reg.adPfc (p : Nat) : Nat := 0x2000 + 0x8 * p
abbrev Reg.adPfcTh (p : Nat) : Nat := 0x2004 + 0x8 * p
abbrev Reg.adPfcTx (p : Nat) : Nat := 0x4000 + 0x8 * p
abbrev Reg.adPfcRx (p : Nat) : Nat := 0x4004 + 0x8 * p
abbrev Reg.tmCtrl : Nat := 0x40
abbrev Reg.tmCmd : Nat := 0x44
abbrev Reg.tmNow : Nat := 0x48
abbrev Reg.tmNowHi : Nat := 0x50
abbrev Reg.tmSet : Nat := 0x58
abbrev Reg.tmSetHi : Nat := 0x60
abbrev Reg.tmStep : Nat := 0x68
abbrev Reg.tmAdj : Nat := 0x70
abbrev Reg.tmUtcOfs : Nat := 0x74
abbrev Reg.tmPps : Nat := 0x78
abbrev Reg.tmPpsCap : Nat := 0x80
abbrev Reg.tmPpsCapHi : Nat := 0x88
abbrev Reg.tmTsLost : Nat := 0x8c
abbrev Reg.tmPtpSkip : Nat := 0x90
abbrev Reg.tmPadj (p : Nat) : Nat := 0x1000 + 0x4 * p
abbrev Reg.mxCtrl : Nat := 0x40
abbrev Reg.mxStat : Nat := 0x44
abbrev Reg.mxTotalPkts : Nat := 0x48
abbrev Reg.mxTotalBytes : Nat := 0x50
abbrev Reg.tyCtrl : Nat := 0x40
abbrev Reg.tyStat : Nat := 0x44
abbrev Reg.tyRecords : Nat := 0x48
abbrev Reg.tyCacheMax : Nat := 0x4c
abbrev Reg.tyIdle : Nat := 0x50
abbrev Reg.tyActive : Nat := 0x54
abbrev Reg.tyScan : Nat := 0x58
abbrev Reg.tyXctl : Nat := 0x5c
abbrev Reg.tyIpfixQ : Nat := 0x60
abbrev Reg.tyIpfixCfg : Nat := 0x64
abbrev Reg.tyIpfixOdid : Nat := 0x68
abbrev Reg.tyIpfixPen : Nat := 0x6c
abbrev Reg.tyIpfixHdr : Nat := 0x70
abbrev Reg.tyIpfixSeq : Nat := 0x74
abbrev Reg.tyXlostMsgs : Nat := 0x78
abbrev Reg.tyHbmLost : Nat := 0x7c
abbrev Reg.tyExpPkts : Nat := 0x80
abbrev Reg.tyExpBytes : Nat := 0x88
abbrev Reg.tyExpDrops : Nat := 0x90
abbrev Reg.tyHbmLostPkts : Nat := 0x98
abbrev Reg.tyHbmLostBytes : Nat := 0xa0
abbrev Reg.tyUpdates : Nat := 0xa8
abbrev Reg.tyKsel (k i : Nat) : Nat := 0x800 + 0x80 * k + 0x4 * i
abbrev Reg.tyPsel (p : Nat) : Nat := 0x1000 + 0x4 * p
abbrev Reg.tyOvfPkts (i : Nat) : Nat := 0x100 + 0x40 * i
abbrev Reg.tyOvfBytes (i : Nat) : Nat := 0x108 + 0x40 * i
abbrev Reg.tyOvfDrops (i : Nat) : Nat := 0x110 + 0x40 * i
abbrev Reg.tyAloss (i : Nat) : Nat := 0x118 + 0x40 * i
abbrev Reg.tyNokey (i : Nat) : Nat := 0x120 + 0x40 * i
abbrev Reg.tyLines (i : Nat) : Nat := 0x128 + 0x40 * i
abbrev Reg.tyHits (i : Nat) : Nat := 0x130 + 0x40 * i
abbrev Reg.tyMisses (i : Nat) : Nat := 0x138 + 0x40 * i
abbrev Reg.hbCtrl : Nat := 0x40
abbrev Reg.hbStat : Nat := 0x44
abbrev Reg.hbThr : Nat := 0x48
abbrev Reg.hbEccCorr : Nat := 0x4c
abbrev Reg.hbEccUncorr : Nat := 0x50
abbrev Reg.hbEccLoc : Nat := 0x54
abbrev Reg.hbRetrains : Nat := 0x58
abbrev Reg.hbLast : Nat := 0x5c
abbrev Reg.hbTemp : Nat := 0x60
abbrev Reg.rfCtrl : Nat := 0x1000
abbrev Reg.rfSysid : Nat := 0x1004
abbrev Reg.rfHello : Nat := 0x1008
abbrev Reg.rfGrace : Nat := 0x100c
abbrev Reg.rfHelloDaLo : Nat := 0x1010
abbrev Reg.rfHelloDaHi : Nat := 0x1014
abbrev Reg.rfHelloSaLo : Nat := 0x1018
abbrev Reg.rfHelloSaHi : Nat := 0x101c
abbrev Reg.rfStat : Nat := 0x1020
abbrev Reg.rfDsel : Nat := 0x1024
abbrev Reg.rfReach : Nat := 0x1028
abbrev Reg.rfGsel : Nat := 0x102c
abbrev Reg.rfMember : Nat := 0x1030
abbrev Reg.rfEw : Nat := 0x1034
abbrev Reg.rfTsel : Nat := 0x1038
abbrev Reg.rfTree : Nat := 0x103c
abbrev Reg.rfHelloTx : Nat := 0x1040
abbrev Reg.rfHelloRx : Nat := 0x1044
abbrev Reg.rfHelloBad : Nat := 0x1048
abbrev Reg.rfSelf : Nat := 0x104c
abbrev Reg.rfReweights : Nat := 0x1050
abbrev Reg.rfNoteLost : Nat := 0x1054
abbrev Reg.rfPushed : Nat := 0x1058
abbrev Reg.rfRelayed : Nat := 0x1060
abbrev Reg.rfPort (p : Nat) : Nat := 0x1800 + 0x4 * (p % 512)
abbrev Reg.rfNb0 (p : Nat) : Nat := 0x2000 + 0x10 * (p % 512)
abbrev Reg.rfNb1 (p : Nat) : Nat := 0x2004 + 0x10 * (p % 512)
abbrev Reg.rfNbSeq (p : Nat) : Nat := 0x2008 + 0x10 * (p % 512)
abbrev Reg.rfNbLost (p : Nat) : Nat := 0x200c + 0x10 * (p % 512)
abbrev Reg.hdStat : Nat := 0x40
abbrev Reg.hdErrCnt : Nat := 0x44
abbrev Reg.hdPoison : Nat := 0x48
abbrev Reg.hdInjDrops : Nat := 0x50
abbrev Reg.hdPunts : Nat := 0x58
abbrev Reg.hqBaseLo (i : Nat) : Nat := 0x1000 + 0x80 * i
abbrev Reg.hqBaseHi (i : Nat) : Nat := 0x1004 + 0x80 * i
abbrev Reg.hqCfg (i : Nat) : Nat := 0x1008 + 0x80 * i
abbrev Reg.hqCtrl (i : Nat) : Nat := 0x100c + 0x80 * i
abbrev Reg.hqStat (i : Nat) : Nat := 0x1010 + 0x80 * i
abbrev Reg.hqHead (i : Nat) : Nat := 0x1014 + 0x80 * i
abbrev Reg.hqTail (i : Nat) : Nat := 0x1018 + 0x80 * i
abbrev Reg.hqIrq (i : Nat) : Nat := 0x101c + 0x80 * i
abbrev Reg.hqLim (i : Nat) : Nat := 0x1020 + 0x80 * i
abbrev Reg.hqHeld (i : Nat) : Nat := 0x1024 + 0x80 * i
abbrev Reg.hqDone (i : Nat) : Nat := 0x1028 + 0x80 * i
abbrev Reg.hqBytes (i : Nat) : Nat := 0x1030 + 0x80 * i
abbrev Reg.hqDrops (i : Nat) : Nat := 0x1038 + 0x80 * i
abbrev Reg.hqErrs (i : Nat) : Nat := 0x103c + 0x80 * i
abbrev Reg.crCtrl : Nat := 0x40
abbrev Reg.crStat : Nat := 0x44
abbrev Reg.crFam : Nat := 0x48
abbrev Reg.crPeriod : Nat := 0x4c
abbrev Reg.crSnapT : Nat := 0x50
abbrev Reg.crHostAddr : Nat := 0x58
abbrev Reg.crHostLen : Nat := 0x60
abbrev Reg.crHostCfg : Nat := 0x64
abbrev Reg.crSeq : Nat := 0x68
abbrev Reg.crSnaps : Nat := 0x6c
abbrev Reg.crSkipped : Nat := 0x70
abbrev Reg.crRejects : Nat := 0x74
abbrev Reg.crTdSel : Nat := 0x80
abbrev Reg.crTdCyc : Nat := 0x88
abbrev Reg.crTdRet : Nat := 0x90
abbrev Reg.crTdWaste : Nat := 0x98
abbrev Reg.crTdFstarve : Nat := 0xa0
abbrev Reg.crTdBstarveWl : Nat := 0xa8
abbrev Reg.crTdBstarveDn : Nat := 0xb0
abbrev Reg.crBwCtrl : Nat := 0xc0
abbrev Reg.crBwSel : Nat := 0xc4
abbrev Reg.crBwLastRx : Nat := 0xc8
abbrev Reg.crBwLastTx : Nat := 0xd0
abbrev Reg.crBwPeakRx : Nat := 0xd8
abbrev Reg.crBwPeakTx : Nat := 0xe0
abbrev Reg.crBwPeakRxT : Nat := 0xe8
abbrev Reg.crBwPeakTxT : Nat := 0xf0
abbrev Reg.loStat : Nat := 0x40
abbrev Reg.loPin : Nat := 0x44
abbrev Reg.loPinRel : Nat := 0x48
abbrev Reg.loClr : Nat := 0x4c
abbrev Reg.loLogWr : Nat := 0x50
abbrev Reg.loMsgLost : Nat := 0x54
abbrev Reg.loClrMiss : Nat := 0x58
abbrev Reg.loTraps : Nat := 0x5c
abbrev Reg.loTrapLost : Nat := 0x60
abbrev Reg.loFatal : Nat := 0x64
abbrev Reg.loPins : Nat := 0x68
abbrev Reg.loLatch (k : Nat) : Nat := 0x80 + 0x4 * k
abbrev Reg.loActive (k : Nat) : Nat := 0xc0 + 0x4 * k
abbrev Reg.loGone (k : Nat) : Nat := 0x100 + 0x4 * k
abbrev Reg.loSrc (n : Nat) : Nat := 0x1000 + 0x4 * n
abbrev Reg.loRec (n : Nat) : Nat := 0x2000 + 0x10 * n
abbrev Reg.loCnt (n : Nat) : Nat := 0x4000 + 0x4 * n
abbrev Reg.log (i : Nat) : Nat := 0x8000 + 0x20 * i
abbrev Reg.fbCtrl : Nat := 0x40
abbrev Reg.fbStat : Nat := 0x44
abbrev Reg.fbPNow : Nat := 0x48
abbrev Reg.fbPFast : Nat := 0x4c
abbrev Reg.fbPShort : Nat := 0x50
abbrev Reg.fbPSus : Nat := 0x54
abbrev Reg.fbPLong : Nat := 0x58
abbrev Reg.fbCapFast : Nat := 0x5c
abbrev Reg.fbCapSus : Nat := 0x60
abbrev Reg.fbCapLong : Nat := 0x64
abbrev Reg.fbHyst : Nat := 0x68
abbrev Reg.fbBoostCeil : Nat := 0x6c
abbrev Reg.fbCal : Nat := 0x70
abbrev Reg.fbPace : Nat := 0x74
abbrev Reg.fbUv : Nat := 0x78
abbrev Reg.fbDroop : Nat := 0x7c
abbrev Reg.fbTempWarn : Nat := 0x80
abbrev Reg.fbTempThr : Nat := 0x84
abbrev Reg.fbHbmThr : Nat := 0x88
abbrev Reg.fbTempMax : Nat := 0x8c
abbrev Reg.fbVcore : Nat := 0x90
abbrev Reg.fbHint : Nat := 0x94
abbrev Reg.fbHintCfg : Nat := 0x98
abbrev Reg.fbCapEvts : Nat := 0x9c
abbrev Reg.fbSoft : Nat := 0xa0
abbrev Reg.fbUvCnt : Nat := 0xa4
abbrev Reg.fbHints : Nat := 0xa8
abbrev Reg.fbDeferUs : Nat := 0xb0
abbrev Reg.fbPaceUs : Nat := 0xb8
abbrev Reg.fbStepChg : Nat := 0xc0
abbrev Reg.fbDroopCnt (h : Nat) : Nat := 0xc8 + 0x10 * h
abbrev Reg.fbDroopNs (h : Nat) : Nat := 0xd0 + 0x10 * h
abbrev Reg.fbSlice (s : Nat) : Nat := 0x100 + 0x4 * s
abbrev Reg.fbTemp (i : Nat) : Nat := 0x200 + 0x4 * i
abbrev Reg.mbOp : Nat := 0x40
abbrev Reg.mbLen : Nat := 0x44
abbrev Reg.mbAddrLo : Nat := 0x48
abbrev Reg.mbAddrHi : Nat := 0x4c
abbrev Reg.mbAlen : Nat := 0x50
abbrev Reg.mbGo : Nat := 0x54
abbrev Reg.mbStat : Nat := 0x58
abbrev Reg.mbRlen : Nat := 0x5c
abbrev Reg.mbXlen : Nat := 0x60
abbrev Reg.mbDropped : Nat := 0x64
abbrev Reg.frState : Nat := 0x68
abbrev Reg.frVerW : Nat := 0x6c
abbrev Reg.frVerE : Nat := 0x70
abbrev Reg.frTraps : Nat := 0x74
abbrev Reg.mbReq (i : Nat) : Nat := 0x1000 + 0x4 * i
abbrev Reg.mbRsp (i : Nat) : Nat := 0x2000 + 0x4 * i
abbrev Reg.lcState : Nat := 0x40
abbrev Reg.lcCtrl : Nat := 0x44
abbrev Reg.hdHolder : Nat := 0x48
abbrev Reg.hdEpoch : Nat := 0x4c
abbrev Reg.lcSerial : Nat := 0x50
abbrev Reg.lcKeys : Nat := 0x58
abbrev Reg.lcSvn (t : Nat) : Nat := 0x60 + 0x4 * (t - 1)
abbrev Reg.lcM (i w : Nat) : Nat := 0x1000 + 0x40 * i + 0x4 * w
abbrev Reg.rstCause : Nat := 0x40
abbrev Reg.rstStat : Nat := 0x44
abbrev Reg.rstChip : Nat := 0x48
abbrev Reg.rstHalf : Nat := 0x4c
abbrev Reg.rstSlice : Nat := 0x50
abbrev Reg.rstSlices : Nat := 0x54
abbrev Reg.rtScope : Nat := 0x58
abbrev Reg.rtSeqA : Nat := 0x60
abbrev Reg.rtSeqB : Nat := 0x68
abbrev Reg.rtSeqUsed : Nat := 0x70
abbrev Reg.rtLen : Nat := 0x78
abbrev Reg.rstCount : Nat := 0x7c
abbrev Reg.rtSaves : Nat := 0x80
abbrev Reg.jtagId : Nat := 0x50
abbrev Reg.ioSense (n : Nat) : Nat := 0x60 + 0x4 * n
abbrev Reg.straps : Nat := 0x70

end Sys2Proof.Machine
end

