-- ==== Sys2Proof/Machine/Pages.lean ====
section
/-! DEFINITION. The register pages (02_registers.md R34, R35, Tables 10 to 12), the common header (R36) and the value
every register holds after a wipe (R13). -/

namespace Sys2Proof.Machine

/-- The kinds of block a page can hold (Tables 10 to 12). -/
inductive Blk where
  | chip | order | ring | cruiser | lookout | firebreak | forester | reset | hostdma | time | ohsp | lifecycle
  | half | flume | deck | admission | wlem | wllpm | learn | maint | tally | matrix | hbm
  | slice | parser | kerfIn | kerfOut | sched | macpcs | span | lanes0 | lanes1 | tcam | deparser
  deriving DecidableEq, Repr

/-- The half pages in the order of Table 11. -/
def halfBlks : List Blk :=
  [.half, .flume, .deck, .admission, .wlem, .wllpm, .learn, .maint, .tally, .matrix, .hbm]

/-- The block of a slice page at an offset of Table 12. -/
def sliceBlk (k : Nat) : Option Blk :=
  if k = 0 then some .slice else if k = 1 then some .parser
  else if k < 0x0A then some .kerfIn else if k < 0x12 then some .kerfOut
  else if k = 0x12 then some .sched else if k = 0x13 then some .macpcs else if k = 0x14 then some .span
  else if k = 0x15 then some .lanes0 else if k = 0x16 then some .lanes1 else if k = 0x17 then some .tcam
  else if k = 0x18 then some .deparser else none

/-- The global pages in the order of Table 10. -/
def globalBlk (p : Nat) : Option Blk :=
  if p = 0 then some .chip else if p = 1 then some .order else if p = 2 then some .ring
  else if p = 3 then some .cruiser else if p = 4 then some .lookout else if p = 5 then some .firebreak
  else if p = 6 then some .forester else if p = 7 then some .reset else if p < 0x10 then some .hostdma
  else if p = 0x10 then some .time else if p = 0x11 then some .ohsp else if p = 0x12 then some .lifecycle else none

/-- The block a page holds; none where no page exists (R35). -/
def pageBlk (p : Nat) : Option Blk :=
  if p < 0x13 then globalBlk p
  else if p < 0x100 then none
  else if p < 0x10B then halfBlks[p - 0x100]?
  else if p < 0x500 then none
  else if p < 0x50B then halfBlks[p - 0x500]?
  else if p < 0x1000 then none
  else if p < 0x1400 then sliceBlk (p % 0x20)
  else none

/-- The page of a BAR0 frame (R34). -/
def framePage (f : Nat) : Nat := if f < 0x800 then f else f + 0x800

/-- The BAR0 frame of a page (R34). -/
def pageFrame (p : Nat) : Nat := if p < 0x800 then p else p - 0x800

/-- A page of half h at an offset of Table 11. -/
abbrev halfPage (h k : Nat) : Nat := 0x100 + 0x400 * h + k
/-- A page of slice s at an offset of Table 12. -/
abbrev slicePage (s k : Nat) : Nat := 0x1000 + 0x20 * s + k

abbrev pgChip : Nat := 0
abbrev pgOrder : Nat := 1
abbrev pgRing : Nat := 2
abbrev pgCruiser : Nat := 3
abbrev pgLookout : Nat := 4
abbrev pgFirebreak : Nat := 5
abbrev pgForester : Nat := 6
abbrev pgReset : Nat := 7
abbrev pgHostdma : Nat := 8
abbrev pgDoorbell : Nat := 0x0E
abbrev pgPuntMap : Nat := 0x0F
abbrev pgTime : Nat := 0x10
abbrev pgOhsp : Nat := 0x11
abbrev pgLifecycle : Nat := 0x12
abbrev pgHalf (h : Nat) : Nat := halfPage h 0
abbrev pgFlume (h : Nat) : Nat := halfPage h 1
abbrev pgDeck (h : Nat) : Nat := halfPage h 2
abbrev pgAdmit (h : Nat) : Nat := halfPage h 3
abbrev pgWlem (h : Nat) : Nat := halfPage h 4
abbrev pgWllpm (h : Nat) : Nat := halfPage h 5
abbrev pgLearn (h : Nat) : Nat := halfPage h 6
abbrev pgMaint (h : Nat) : Nat := halfPage h 7
abbrev pgTally (h : Nat) : Nat := halfPage h 8
abbrev pgMatrix (h : Nat) : Nat := halfPage h 9
abbrev pgHbm (h : Nat) : Nat := halfPage h 0x0A
abbrev pgSlice (s : Nat) : Nat := slicePage s 0
abbrev pgParser (s : Nat) : Nat := slicePage s 1
/-- Kerf stage k of slice s, ingress (0x02 to 0x09) or egress (0x0A to 0x11). -/
abbrev pgKerf (s : Nat) (d : Dir) (k : Nat) : Nat :=
  slicePage s ((match d with | .ingress => 2 | .egress => 0x0A) + k)
abbrev pgSched (s : Nat) : Nat := slicePage s 0x12
abbrev pgMacpcs (s : Nat) : Nat := slicePage s 0x13
abbrev pgSpan (s : Nat) : Nat := slicePage s 0x14
abbrev pgLanes0 (s : Nat) : Nat := slicePage s 0x15
abbrev pgLanes1 (s : Nat) : Nat := slicePage s 0x16
abbrev pgTcam (s : Nat) : Nat := slicePage s 0x17
abbrev pgDeparser (s : Nat) : Nat := slicePage s 0x18
/-- The HOSTDMA page that holds queue i's block (R349). -/
abbrev pgQueue (i : Nat) : Nat := 9 + i / 32

/-- The half a page belongs to, when it is a half or slice page. -/
def pageHalf (p : Nat) : Option Half :=
  if p < 0x100 then none else if p < 0x500 then some 0 else if p < 0x1000 then some 1
  else if p < 0x1200 then some 0 else some 1

/-- The slice a page belongs to, when it is a slice page. -/
def pageSlice (p : Nat) : Option Nat := if p < 0x1000 then none else some ((p - 0x1000) / 0x20)

/-- PG_ID.TYPE (Tables 10 to 12). -/
def blkType : Blk → Nat
  | .chip => 1 | .order => 2 | .ring => 3 | .cruiser => 4 | .lookout => 5 | .firebreak => 6 | .forester => 7
  | .reset => 8 | .hostdma => 9 | .time => 0x0A | .ohsp => 0x0B | .lifecycle => 0x0C
  | .half => 0x20 | .flume => 0x21 | .deck => 0x22 | .admission => 0x23 | .wlem => 0x24 | .wllpm => 0x25
  | .learn => 0x26 | .maint => 0x27 | .tally => 0x28 | .matrix => 0x29 | .hbm => 0x2A
  | .slice => 0x40 | .parser => 0x41 | .kerfIn => 0x42 | .kerfOut => 0x43 | .sched => 0x44 | .macpcs => 0x45
  | .span => 0x46 | .lanes0 => 0x47 | .lanes1 => 0x47 | .tcam => 0x48 | .deparser => 0x49

/-- The Slow column of Tables 10 to 12. -/
def blkSlow : Blk → Bool
  | .lifecycle | .wlem | .wllpm | .tally | .matrix | .hbm | .parser | .kerfIn | .kerfOut | .macpcs | .span
  | .lanes0 | .lanes1 | .tcam => true
  | .chip | .order | .ring | .cruiser | .lookout | .firebreak | .forester | .reset | .hostdma | .time | .ohsp
  | .half | .flume | .deck | .admission | .learn | .maint | .slice | .sched | .deparser => false

/-- Whether a page is slow; false where no page exists. -/
def pageSlow (p : Nat) : Bool := match pageBlk p with | some b => blkSlow b | none => false

/-- PG_ID.INST (Tables 10 to 12). -/
def pageInst (p : Nat) : Nat :=
  match pageBlk p with
  | some .hostdma => p - 8
  | some .kerfIn => p % 0x20 - 2
  | some .kerfOut => p % 0x20 - 0x0A
  | some .lanes1 => 1
  | some b => if 0x20 ≤ blkType b ∧ blkType b < 0x40 then (if p < 0x500 then 0 else 1) else 0
  | none => 0

/-- PG_SRC: the Lookout source a page reports to (14_lookout_faults.md R388, Table 150). -/
def pageSrc (p : Nat) : Nat :=
  if p < 0x100 then p
  else if p < 0x500 then 32 + (p - 0x100)
  else if p < 0x1000 then 64 + (p - 0x500)
  else
    let s := (p - 0x1000) / 0x20
    let j := 96 + 12 * s
    match sliceBlk (p % 0x20) with
    | some .parser => j | some .kerfIn => j + 1 | some .kerfOut => j + 2 | some .deparser => j + 3
    | some .tcam => j + 4 | some .sched => j + 5 | some .slice => j + 6 | some .macpcs => j + 8
    | some .span => j + 9 | some .lanes0 => 480 + s | some .lanes1 => 480 + s | _ => j + 6

/-- The INST a page's messages carry (Tables 148 and 150): the stage for Kerf stages, 0 or 1 for the LANES pages, the
half for half pages, 0 otherwise. -/
def msgInst (p : Nat) : Nat := if p < 0x100 then 0 else pageInst p

/-- The register rows of a page beyond the header: its block's table, and the window registers where it fronts
memories (R54). -/
def blkSpecs (b : Blk) (p : Nat) : List RegSpec :=
  match b with
  | .chip => specsChip | .order => specsOrder | .ring => specsRing | .cruiser => specsCruiser
  | .lookout => specsLookout | .firebreak => specsFirebreak | .forester => specsForester | .reset => specsReset
  | .hostdma =>
    if p = 8 then specsHostdma0
    else if p = pgDoorbell then [{ off := 0x1000, s1 := 4, n1 := 153, w := 0xFFFF }]
    else if p = pgPuntMap then [{ off := 0x1000, s1 := 4, n1 := 256, w := 0x800003FF, ret := 0x800003FF }]
    else if p = 0x0D then specsHostq.map (fun r => { r with n1 := 25 })
    else specsHostq
  | .time => specsTime | .ohsp => specsOhsp | .lifecycle => specsLifecycle
  | .half => specsHalf | .flume => [] | .deck => specsDeck | .admission => specsAdmit
  | .wlem => specsWlem ++ specsWindow | .wllpm => specsWllpm ++ specsWindow
  | .learn => specsLearn | .maint => specsMaint
  | .tally => specsTally ++ specsWindow | .matrix => specsMatrix ++ specsWindow | .hbm => specsHbm ++ specsWindow
  | .slice => [] | .parser => specsParser ++ specsWindow
  | .kerfIn => specsKerf ++ specsWindow | .kerfOut => specsKerf ++ specsWindow
  | .sched => specsSched | .macpcs => specsMacpcs | .span => specsSpan ++ specsWindow
  | .lanes0 => specsLanes0 | .lanes1 => specsLanes1 ++ specsWindow | .tcam => specsTcam ++ specsWindow
  | .deparser => specsDeparser

/-- Whether an offset is one of a row's registers; a wide row holds two words. -/
def RegSpec.covers (r : RegSpec) (o : Nat) : Bool :=
  if o < r.off then false
  else
    let d := o - r.off
    if r.n1 = 1 ∧ r.n2 = 1 ∧ r.n3 = 1 then d = 0 ∨ (r.wide ∧ d = 4)
    else
      let i := if r.n1 = 1 then 0 else d / r.s1
      let d1 := d - i * r.s1
      let j := if r.n2 = 1 then 0 else d1 / r.s2
      let d2 := d1 - j * r.s2
      let k := if r.n3 = 1 then 0 else d2 / r.s3
      let d3 := d2 - k * r.s3
      i < r.n1 ∧ j < r.n2 ∧ k < r.n3 ∧ (d3 = 0 ∨ (r.wide ∧ d3 = 4))

/-- The row of a list that covers an offset. -/
def findSpec : List RegSpec → Nat → Option RegSpec
  | [], _ => none
  | r :: rs, o => if r.covers o then some r else findSpec rs o

/-- An ADMIT register of a port slot of the other half, which is reserved (09_queues_forwarding.md R286). -/
def otherHalfSlot (b : Blk) (p o : Nat) : Bool :=
  decide (b = .admission ∧ 0x2000 ≤ o ∧ o < 0x6000 ∧ o % 0x2000 / 0x1000 ≠ p / 0x400 % 2)

/-- The register row at an offset of a page: the header's below 0x20, the block's from 0x40; none where the tables
define nothing (kind RESERVED, Table 16). -/
def regSpec (p o : Nat) : Option RegSpec :=
  match pageBlk p with
  | none => none
  | some b =>
    if o < 0x20 then findSpec specsHeader o
    else if o < 0x40 ∨ otherHalfSlot b p o then none
    else findSpec (blkSpecs b p) o

/-- LO_SRC(n) after a wipe (14_lookout_faults.md Table 157). -/
def loSrcInit (n : Nat) : Nat :=
  if n < 32 then
    if n = 1 ∨ n = 2 ∨ n = 3 ∨ (8 ≤ n ∧ n ≤ 17) then 0x81
    else if n = 21 ∨ n = 22 ∨ n = 24 then 0xA3
    else if n = 20 ∨ n = 23 then 0xD3
    else if n ≤ 26 then 0xC1 else 0
  else if n < 96 then
    let k := n % 32
    if k = 3 ∨ k = 6 ∨ k = 7 ∨ k = 8 ∨ k = 9 then 0x81
    else if k = 11 then 0xF3
    else if k ≤ 14 then 0xC1 else 0
  else if n < 480 then
    let j := (n - 96) % 12
    if j = 0 ∨ j = 5 ∨ j = 6 ∨ j = 8 ∨ j = 9 ∨ j = 10 then 0x81
    else if j = 11 then 0 else 0xC1
  else 0x81

/-- The value a register's word holds after a wipe (R13, R36): the row's value, with the rows whose value depends on the
instance, JTAG_ID, and IO_SENSE as four banks sensed at 3,300 mV (DESIGN CHOICE, log entry 5). -/
def regInit (p o : Nat) : Nat :=
  if o = 0x08 then 2
  else if o = 0x14 then 0xFFFFFF
  else if o < 0x40 then 0
  else match pageBlk p with
    | none => 0
    | some .chip => if o = 0x50 then 0x1920456F else if 0x60 ≤ o ∧ o < 0x70 then 0x80000CE4 else 0
    | some .lookout => if 0x1000 ≤ o ∧ o < 0x1800 then loSrcInit ((o - 0x1000) / 4) else
        match findSpec specsLookout o with | some r => r.init | none => 0
    | some .hostdma =>
        if 9 ≤ p ∧ p ≤ 0x0D ∧ 0x1000 ≤ o ∧ o < 0x2000 ∧ o % 0x80 = 0x1C then
          0x200 + 32 * (p - 9) + (o - 0x1000) / 0x80
        else match findSpec (blkSpecs .hostdma p) o with | some r => r.init | none => 0
    | some b => match findSpec (blkSpecs b p) o with
        | some r => if r.wide ∧ (o / 4) % 2 = 1 then 0 else r.init
        | none => 0

/-- The key of a register in the register file. -/
def regKey (p o : Nat) : Nat := p * 0x10000 + o

/-- The value after a wipe of the register at a key. -/
def regDefault (k : Nat) : Word := BitVec.ofNat 32 (regInit (k / 0x10000) (k % 0x10000))

end Sys2Proof.Machine
end

