-- ==== Sys2Proof/Machine/AMap.lean ====
section
/-! DEFINITION. Sparse data in one canonical form: a list of (key, value) pairs, keys strictly rising, no value equal
to what an unlisted key reads as. Register files, window memories and tables are such maps, so equal contents are
equal data. -/

namespace Sys2Proof.Machine

/-- A sparse map from keys to values. -/
abbrev AMap (β : Type) := List (Nat × β)

/-- Read: the listed value, or the default. -/
def AMap.get {β : Type} (d : β) : AMap β → Nat → β
  | [], _ => d
  | e :: m, k => if e.1 = k then e.2 else AMap.get d m k

/-- Remove every entry of a key. -/
def AMap.erase {β : Type} : AMap β → Nat → AMap β
  | [], _ => []
  | e :: m, k => if e.1 = k then AMap.erase m k else e :: AMap.erase m k

/-- Insert an entry before the first larger key. -/
def AMap.insert {β : Type} : AMap β → Nat → β → AMap β
  | [], k, v => [(k, v)]
  | e :: m, k, v => if k < e.1 then (k, v) :: e :: m else e :: AMap.insert m k v

/-- Write: the entry is removed when the value is the default, so the form stays canonical. -/
def AMap.set {β : Type} [DecidableEq β] (d : β) (m : AMap β) (k : Nat) (v : β) : AMap β :=
  if v = d then AMap.erase m k else AMap.insert (AMap.erase m k) k v

/-- Every key is at least lo, keys rise strictly, and no value is the default of its key. -/
def AMap.wfFrom {β : Type} [DecidableEq β] (d : Nat → β) : Nat → AMap β → Bool
  | _, [] => true
  | lo, e :: m => decide (lo ≤ e.1) && decide (e.2 ≠ d e.1) && AMap.wfFrom d (e.1 + 1) m

/-- The canonical form. The default may depend on the key (a register's value after a wipe does). -/
def AMap.wf {β : Type} [DecidableEq β] (d : Nat → β) (m : AMap β) : Bool := AMap.wfFrom d 0 m

/-- The entries whose key satisfies p. -/
def AMap.keep {β : Type} (p : Nat → Bool) : AMap β → AMap β
  | [] => []
  | e :: m => if p e.1 then e :: AMap.keep p m else AMap.keep p m

end Sys2Proof.Machine
end

