-- ==== Sys2Proof/Machine/Types.lean ====
section
/-! DEFINITION. The plain data that State is made of, chapter by chapter: time, the register bus, lanes and ports,
frames and pipes, rings, Deck, queues, Tally, the DMA queues, Lookout, reset. Every field names the rule that gives
it. Defaults are the values after a power-on (17_reset_retained.md Table 176). -/

namespace Sys2Proof.Machine

/-- One thing for each half, West and East. -/
structure Pair (α : Type) where
  west : α
  east : α
  deriving DecidableEq, Repr

/-- Time (10_telemetry.md R287, R288): nanoseconds on the always-on island, which no reset moves back, PTP time in nanoseconds,
and the fraction of a nanosecond, in 2^-32, that TM_ADJ has gathered. -/
structure Clock where
  up   : Nat := 0
  ptp  : Nat := 0
  frac : Nat := 0
  deriving DecidableEq, Repr

/-! ### The register bus (02_registers.md) -/

/-- What the posting buffer of a slow page holds (R50): a register write, or a window command with what it captured
(R55). op is WIN_CMD.OP. -/
inductive PostKind where
  | write (off : Nat) (value : Word)
  | window (op : Nat) (words : Nat) (sel : Nat) (addr : Nat) (data : List Word)
  deriving DecidableEq, Repr

/-- A posted write: who issued it, what it does, how many writes had been posted before it, and the EPOCH that a cluster's write
carries (R428). -/
structure Posted where
  req  : Requester
  kind : PostKind
  ord  : Nat := 0
  epoch : Nat := 0
  deriving DecidableEq, Repr

/-- An access that waits: a write or a read; fenced says that a fence of its requester holds it (R58), otherwise it is a read
that waits for the posting buffer of its page (R53); the EPOCH it was issued with (R428). -/
structure Held where
  write  : Bool
  acc    : Access
  fenced : Bool
  epoch  : Nat := 0
  deriving DecidableEq, Repr

/-- The requesters' own state: shadows and staging words of 64-bit counters by requester and page (R43), select
registers held per requester (R248, R286), posting buffers by page (R50), the start time of each requester's fence
(R58), the accesses that wait, oldest first, and how many writes have been posted. -/
structure Bus where
  shadow  : AMap Word := []
  staging : AMap Word := []
  sel     : AMap Word := []
  posted  : AMap (Option Posted) := []
  fence   : AMap (Option Nat) := []
  held    : List Held := []
  posts   : Nat := 0
  deriving DecidableEq, Repr

/-! ### Lanes and ports (03_lanes_ports.md) -/

/-- The lane states of Table 26. -/
inductive LaneSt where
  | dormant | acquire | adapt | active | standby
  deriving DecidableEq, Repr

/-- A serial lane (R72 to R76, R88, Table 33). ctle is the CTLE code in use, coef the FFE and DFE taps in its calibration memory, which
are those in use; calCtle is word 35 of that memory (R92), a cell of its own: adaptation writes the code that it finds into both, and with
ADAPT 0b10, where the code in use is LN_RXCFG.CTLE, neither follows the other (DESIGN CHOICE, log entry 84). standbyAt is the time it entered STANDBY, wasActive whether it was
ACTIVE then; saved holds ctle, calCtle and coef at the start of a live recalibration that has not been
reverted (R84); frac the part of a bit, in 1/32, that a pattern checker has received (R89). -/
structure LaneS where
  st        : LaneSt := .dormant
  signal    : Bool := false
  cdr       : Bool := false
  ctle      : Nat := 0
  calCtle   : Nat := 0
  eye       : Nat := 0
  ppm       : Nat := 0
  coef      : List Byte := []
  saved     : Option (Nat × Nat × List Byte) := none
  fwBank    : Nat := 0
  standbyAt : Nat := 0
  wasActive : Bool := false
  frac      : Nat := 0
  deriving DecidableEq, Repr

/-- One PLL of a lane macro (R61, R62): the rate it runs at, and whether it is locked. -/
structure PllS where
  rate : Nat := 0
  lock : Bool := false
  deriving DecidableEq, Repr

/-- A lane macro: PLL A and B, the versions of its firmware banks (Table 34; 65,536 more
for a bank that an image has been written into) and the SVN of their images, the bank Forester is
writing (R88). -/
structure MacroS where
  a       : PllS := {}
  b       : PllS := {}
  ver0    : Nat := 0
  ver1    : Nat := 0
  svn0    : Nat := 0
  svn1    : Nat := 0
  writing : Option Nat := none
  deriving DecidableEq, Repr

/-- A port slot (R68, R69, R77 to R87, Table 32): the configuration it runs, its status bits, when ALIGNED last changed and when a
link-up condition last failed (R77), the count of windows below the threshold (R82), a running recalibration, and the frame its
MAC is receiving: the root of the frames made of it when it has been admitted, its bytes so far, the index of the first that
holds an error (R80, R81); rxWait says that it waits for its first 14 bytes (08_deck_admission.md R257), rxTs is its ingress timestamp
(10_telemetry.md R291). -/
structure PortS where
  cfg       : Word := 0
  linkUp    : Bool := false
  local_    : Bool := false
  remote    : Bool := false
  aligned   : Bool := false
  alignAt   : Nat := 0
  condAt    : Nat := 0
  fecDegr   : Bool := false
  calm      : Nat := 0
  cfgPend   : Bool := false
  rej       : Nat := 0
  recalLive : Bool := false
  recalFull : Bool := false
  rxOn      : Bool := false
  rxCur     : Option Nat := none
  rxBytes   : List Byte := []
  rxBad     : Option Nat := none
  rxWait    : Bool := false
  rxTs      : Nat := 0
  deriving DecidableEq, Repr

/-! ### Frames, pipes (05_parser_kerf.md, 09_queues_forwarding.md) -/

/-- Where a frame came from (R230, R298). -/
inductive FrameKind where
  | received
  | pipe (txq : Nat)
  | direct (txq : Nat)
  | ipfix
  | copy
  deriving DecidableEq, Repr

/-- What waits for the tail of the frames of a root (R151, R152): the bytes of a counter pair, or the late charge of a
meter, of the buckets its colour decision charged. -/
structure LateItem where
  root  : Nat
  page  : Nat
  idx   : Nat
  meter : Bool
  c     : Bool := false
  p     : Bool := false
  deriving DecidableEq, Repr

/-- The buckets of a meter (R152): tokens in parts of a byte or packet, and the PTP time they stand for. Both start at
0, which is full for a meter whose CBS and PBS a power-on has zeroed. -/
structure MeterS where
  c    : Int := 0
  p    : Int := 0
  time : Nat := 0
  deriving DecidableEq, Repr

/-- What the deparser reads beside the frame, at its execution edge (05_parser_kerf.md R156, R163; 11_raft.md R336): whether the port is
a Raft port, the template, and the Raft tag it inserts, empty when it inserts none. -/
structure DepEnv where
  rp   : Bool := false
  tmpl : List Byte := []
  tag  : List Byte := []
  deriving DecidableEq, Repr

/-- A frame in the device. len is L of R238; tail says that the last byte is here. vec is its header vector, vecIn
the vector as it left the ingress stages (R305), addr the Kerf address it carries (R142), fin that a FINAL
disposition stands (R149). cells and need are the cells it holds and still asks for, by requester rq (R245); freed are cells of it that another free request has taken (R243); need of a copy is what it charges its
queue (R269). ecn is
the mark of R254, bad the reason of a fault found (Table 99), ets its egress timestamp, out the rebuilt frame
(R162), fromQ the queue that a punted frame had been enqueued to (R302), head what was rebuilt of a frame whose tail was to come, ann
the length it is announced with (R104), dep what its deparser read (R156), late that its bytes will come too late (R277). master names the frame whose cells a multicast copy shares (R253, R269), refs counts such copies, copied says that
replication has made the last, root numbers the frame that all its copies and instances come from, mark that a drain waits for it, fidx is
the flow index it carries from its crossing of Flume on (10_telemetry.md R306). -/
structure Frame where
  kind    : FrameKind := .received
  unit    : Bool := true
  src     : Nat := 0
  data    : List Byte := []
  len     : Nat := 0
  tail    : Bool := true
  ring    : Nat := 0
  ts      : Nat := 0
  vec     : List Byte := []
  vecIn   : List Byte := []
  addr    : Nat := 0
  addrIn  : Nat := 0
  fin     : Bool := false
  half    : Nat := 0
  q       : Nat := 0
  tag     : Nat := 0
  rq      : Nat := 0
  cells   : List Nat := []
  freed   : List Nat := []
  need    : Nat := 0
  ecn     : Bool := false
  enq     : Bool := false
  started : Bool := false
  punted  : Bool := false
  fromQ   : Option Nat := none
  bad     : Nat := 0
  ets     : Nat := 0
  built   : Bool := false
  out     : List Byte := []
  head    : List Byte := []
  ann     : Nat := 0
  late    : Bool := false
  dep     : Option DepEnv := none
  master  : Option Nat := none
  refs    : Nat := 0
  copied  : Bool := false
  root    : Nat := 0
  mark    : Bool := false
  fidx    : Option Nat := none
  deriving DecidableEq, Repr

/-- What accounting needs of a unit: its vector as it left the ingress stages, source slot, length, drop reason (0
none), ingress time in ns, latency of a transmitted unit, FLAGS[4:0], the entry of a queue's histogram that it counts in (R302), and the
flow index that it carried across Flume (R306). -/
structure UnitInfo where
  vec    : List Byte := []
  src    : Nat := 0
  len    : Nat := 0
  reason : Nat := 0
  ts     : Nat := 0
  lat    : Option Nat := none
  flags  : Nat := 0
  hist   : Option (Nat × Nat) := none
  fidx   : Option Nat := none
  deriving DecidableEq, Repr

/-- The row of Table 111 that gives a unit its place: the null row of a half, an egress port, before the header vector, or a
FLUME_ERROR on the way to a queue. -/
inductive UnitRow where
  | null (h : Nat)
  | egress (port : Nat)
  | early
  | flume (q : Nat)
  deriving DecidableEq, Repr

/-- A unit whose outcome is fixed and whose length is not known yet (10_telemetry.md R297), by the root of its frame. -/
structure Unsettled where
  root : Nat
  row  : UnitRow
  info : UnitInfo
  deriving DecidableEq, Repr

/-- A slice's own queues of frames, by frame number: the ingress FIFO (R30), frames injected in PIPE mode (R361), the
vectors waiting at each of the 16 stages (key k ingress, 8 + k egress), vectors in front of the deparser; the parser
bank and a swap in progress (R140); parser slots since the last injected frame; the TCAM entry whose words the window
has staged, and those words by word (06_tables.md R188). -/
structure SliceS where
  fifo   : List Nat := []
  inj    : List Nat := []
  stages : AMap (List Nat) := []
  depq   : List Nat := []
  bank   : Nat := 0
  swap   : Bool := false
  slots  : Nat := 16
  tcIdx  : Option Nat := none
  tcWords : AMap (Option Word) := []
  deriving DecidableEq, Repr

/-! ### Span ports (04_span_framing.md) -/

/-- The frame states of Table 39. -/
inductive FrameSt where
  | off | hunt | inFrame
  deriving DecidableEq, Repr

/-- The delineation states of R105; first is DHUNT while the header that FHP points at is being gathered. -/
inductive DelinSt where
  | hunt | first | sync
  deriving DecidableEq, Repr

/-- A tracker of R108: blocks until its next check, the last multiframe count, checks passed. -/
structure Tracker where
  wait   : Nat
  m      : Nat
  passes : Nat := 0
  deriving DecidableEq, Repr

/-- A span packet being received or waiting for its checks (R106): TYPE, LEN, its body so far, the time its body began,
and what Table 38 asks of it: begun while the link was down or cut by a loss of frame, followed by a bad header,
followed by EPREV = 1; cur is set when its delivery has begun before its tail: the root of the frame in the FIFO, none when the
FIFO had no room for it. -/
structure SpanPkt where
  typ   : Nat
  len   : Nat
  body  : List Byte := []
  ts    : Nat := 0
  cut   : Bool := false
  hec   : Bool := false
  eprev : Bool := false
  cur   : Option (Option Nat) := none
  deriving DecidableEq, Repr

/-- One second of an end as it was classified (R116, R117), and whether the 15-minute and the day bin have rolled since. -/
structure PmSec where
  es    : Bool
  ses   : Bool
  bbe   : Nat
  old15 : Bool := false
  oldDay : Bool := false
  deriving DecidableEq, Repr

/-- The performance monitor of one end (R116 to R118): frames counted and errored in this second, whether it is a defect
second, unavailability, how many seconds in a row were SES (or, while unavailable, were not), and those seconds, newest
first. -/
structure PmEnd where
  frames  : Nat := 0
  errs    : Nat := 0
  defect  : Bool := false
  unavail : Bool := false
  run     : Nat := 0
  last    : List PmSec := []
  deriving DecidableEq, Repr

/-- A span position (R93 to R132). Receive: SP_CFG as it runs, frame state, bytes of the stream not yet taken, whether
the frame at their front is the one that declared IF, trackers, multiframe state and its counts, the parity of the last
frame, the shadow tracker with its block, delineation (header bytes gathered, body bytes to come, the packet, FHP
disagreements), packets that wait for Table 38, defects, when IF and IM last changed, runs of status bits, the last
status bits, SREI to send; the path relayed (R127), the trace cycle; channel FIFOs toward the board or Forester (Rx) and
toward the span (Tx). Transmit: multiframe count, parity of the last frame sent, bytes of the packet or filler under way,
filler owed by rule 1 of R103, EPREV owed, filler begun in this area, packets to send, channel slots sent. Performance:
both ends, whether the current bins began at a boundary, the PTP seconds of the last rolls, TCA raised. -/
structure SpanS where
  cfg      : Word := 0
  fst      : FrameSt := .off
  buf      : List Byte := []
  fresh    : Bool := false
  trk      : List Tracker := []
  mlock    : Bool := false
  exp      : Nat := 0
  miss     : Nat := 0
  mGood    : Nat := 0
  mBad     : Nat := 0
  par      : Option Nat := none
  shadow   : Option (Nat × Tracker) := none
  shadowOn : Bool := false
  dst      : DelinSt := .hunt
  dHdr     : List Byte := []
  dBody    : Nat := 0
  dPkt     : Option SpanPkt := none
  fhpBad   : Nat := 0
  rxq      : List SpanPkt := []
  los      : Bool := false
  lof      : Bool := false
  lom      : Bool := false
  ais      : Bool := false
  rdi      : Bool := false
  ifT      : Nat := 0
  mT       : Nat := 0
  aisRun   : Nat := 0
  aisOff   : Nat := 0
  srdiRun  : Nat := 0
  prdiRun  : Nat := 0
  rdiOff   : Nat := 0
  sselRx   : Bool := false
  paisRx   : Bool := false
  srdiRx   : Bool := false
  prdiRx   : Bool := false
  srei     : Nat := 0
  pstat    : Byte := 0
  pathRes  : List Byte := []
  trace    : List Byte := []
  traceOld : List Byte := []
  traceRun : Nat := 0
  relay    : List Byte := []
  secRx    : List Byte := []
  secTx    : List Byte := []
  pathRx   : List Byte := []
  pathTx   : List Byte := []
  txMfas   : Nat := 0
  txPar    : Nat := 0
  txRest   : List Byte := []
  txPad    : Nat := 0
  txEprev  : Bool := false
  txq      : List (List Byte × Bool) := []
  slots    : Nat := 0
  near     : PmEnd := {}
  far      : PmEnd := {}
  whole15  : Bool := false
  wholeDay : Bool := false
  roll15   : Option Nat := none
  rollDay  : Option Nat := none
  tca      : Bool := false
  deriving DecidableEq, Repr

/-- A performance bin as Forester's history keeps it (R119): ES, SES, UAS, FLAGS, BBE. -/
structure PmBin where
  es    : Nat := 0
  ses   : Nat := 0
  uas   : Nat := 0
  flags : Nat := 0
  bbe   : Nat := 0
  deriving DecidableEq, Repr

/-! ### Rings (07_rings.md) -/

/-- The ring states of Table 84. -/
inductive RingSt where
  | free | current | retiring | sweep
  deriving DecidableEq, Repr

/-- One ring (R214, Table 90). nz counts its nonzero samples (R344); doneW and doneE say that a half's reclaim has
finished (R222). -/
structure RingS where
  st       : RingSt := .free
  expired  : Bool := false
  peerHold : Bool := false
  gen      : Nat := 0
  tCur     : Nat := 0
  tRet     : Nat := 0
  sample   : Nat := 0
  nz       : Nat := 0
  doneW    : Bool := false
  doneE    : Bool := false
  deriving DecidableEq, Repr

/-- An accepted commit (R223 to R225): its requester, the PTP time captured when AT was 1, the time it became ready,
whether the fence of its write still runs. -/
structure Commit where
  req   : Requester
  atT   : Option Nat := none
  ready : Option Nat := none
  fence : Bool := true
  deriving DecidableEq, Repr

/-- The RING block (R214 to R236): the four rings, the current one, the generation counter, the waiting commit, and
the reason of the last refusal. -/
structure RingSys where
  recs    : AMap RingS := []
  cur     : Ring := 0
  gen     : Nat := 0
  waiting : Option Commit := none
  rej     : Nat := 0
  deriving DecidableEq, Repr

/-! ### Deck (08_deck_admission.md) -/

/-- One free list (R239, R240): its cache, the next row of the run that initialisation threaded, the cells freed to
its tail since, and whether a link word broke it (R258). -/
structure FList where
  cache  : List Nat := []
  row    : Nat := 0
  ret    : List Nat := []
  broken : Bool := false
  deriving DecidableEq, Repr

/-- An active host pool (R247): its first cell and its size. -/
structure Pool where
  base : Nat := 0
  size : Nat := 0
  deriving DecidableEq, Repr

/-- The Deck of a half: free lists, owner tags (R242), free count (R241), level (R249), pools, each requester's
waiting frames, frame number and since when it holds EMPTY (R245), the same of one that asks again after a pointer came and has not been
granted yet (R246), occupancies (R251), PFC counts by 8p + r (R255), withdrawn cells, whether
initialisation runs (R259), pool cell contents (R362), and the fraction of a Deck cycle, in tenths, that stalls have
gathered. -/
structure DeckS where
  lists     : AMap FList := []
  tags      : AMap Nat := []
  free      : Nat := 786432
  level     : Nat := 0
  pools     : AMap Pool := []
  poolPend  : AMap Bool := []
  poolBad   : AMap Bool := []
  poolRes   : AMap Word := []
  poolData  : AMap (List Byte) := []
  waiting   : AMap (List Nat) := []
  turn      : AMap Nat := []
  hold      : AMap (Option Nat) := []
  since     : AMap (Option Nat) := []
  qocc      : AMap Nat := []
  pocc      : AMap Nat := []
  cocc      : AMap Nat := []
  pfc       : AMap Nat := []
  withdrawn : Nat := 0
  initing   : Bool := false
  frac      : Nat := 0
  deriving DecidableEq, Repr

/-- A frame on its way across Flume (R265): its sequence number, its source slot, which names the channel. -/
structure Transit where
  frame : Nat
  src   : Nat
  seq   : Nat
  deriving DecidableEq, Repr

/-- A half's way from the ingress stages to its queues: frames at step 4 of Table 6, frames crossing Flume to this
half, the next number it sends and the next it expects per source slot (R265), its replication queue (R267). -/
structure PathS where
  arrivals : List Nat := []
  transit  : List Transit := []
  seqNext  : AMap Nat := []
  seqExp   : AMap Nat := []
  repl     : List Nat := []
  draining : Bool := false
  deriving DecidableEq, Repr

/-- The link states of Table 100. -/
inductive LinkSt where
  | up | hold | down
  deriving DecidableEq, Repr

/-- A token bucket (R274): tokens in bytes times 8,000, and the PTP time they stand for. -/
structure Bucket where
  tok  : Int := 0
  time : Nat := 0
  deriving DecidableEq, Repr

/-- A port's scheduler and transmitter (R271 to R281): link state, flush, start of the hold, start FIFO, frame in
transmission, round pointers by priority level, pause ends by PFC priority (R257), the port shaper. -/
structure SchedS where
  ls       : LinkSt := .down
  flushing : Bool := false
  flushed  : List Nat := []
  holdAt   : Nat := 0
  fifo     : List Nat := []
  tx       : Option Nat := none
  ptr      : AMap Nat := []
  pause    : AMap Nat := []
  bucket   : Bucket := {}
  deriving DecidableEq, Repr

/-- A port's PFC transmitter (R255, R256): XOFF per priority, frames due, and when the last was sent. -/
structure PfcS where
  xoff : AMap Bool := []
  due  : AMap Bool := []
  sent : AMap Nat := []
  deriving DecidableEq, Repr

/-! ### Accounting (10_telemetry.md) -/

/-- A counter pair or triple: packets and bytes. -/
structure CPair where
  pkts  : Nat := 0
  bytes : Nat := 0
  deriving DecidableEq, Repr

/-- A flow record (R307, Table 113). -/
structure FlowRec where
  key   : List Byte := []
  pkts  : Nat := 0
  bytes : Nat := 0
  drops : Nat := 0
  first : Nat := 0
  last  : Nat := 0
  minL  : Nat := 0xFFFF
  maxL  : Nat := 0
  flags : Nat := 0
  deriving DecidableEq, Repr

/-- A cache line (R308, R310): its deltas, when it was last used, and since when its deltas are nonzero. -/
structure Line where
  rec_  : FlowRec
  used  : Nat := 0
  dirty : Option Nat := none
  deriving DecidableEq, Repr

/-- An entry of an export buffer or IPFIX message: a record, its cause, the half and slice of an overflow record, and the command
of TY_CTRL that wrote it: 1 FLUSH, 2 EXPORT_ALL, 0 none (12_host_interface.md R364). -/
structure Export where
  rec_  : FlowRec
  cause : Nat
  half  : Nat
  slice : Nat := 0
  cmd   : Nat := 0
  deriving DecidableEq, Repr

/-- What a slice's overflow record last exported (R315). -/
structure OvfMark where
  pkts  : Nat := 0
  bytes : Nat := 0
  drops : Nat := 0
  time  : Nat := 0
  deriving DecidableEq, Repr

/-- The Tally of a half (R304 to R321): cache lines by (slice mod 16) * 65536 + 16 * set + way, eviction queues by
slice mod 16 (an entry says whether a FLUSH made it), the queue served next, HBM records by 4 * bucket + slot, how many
are valid, salts, the scanner's cursor; a FLUSH and the lines it has still to write back; an EXPORT_ALL and the buckets
it has still to visit; a CLEAR; what overflow records last exported, when, the next slice and whether an EXPORT_ALL asks
for them; S_LOST_DROPS (13_cruiser_counters.md R375); the IPFIX message being built, its start, its sequence number and the last template; a clock of line
updates; the sixteenths of an update that pacing lets pass (15_firebreak_power.md R410). -/
structure TallyS where
  lines    : AMap (Option Line) := []
  evq      : AMap (List (FlowRec × Bool)) := []
  turn     : Nat := 0
  recs     : AMap (Option FlowRec) := []
  nrec     : Nat := 0
  salt0    : Word := 0
  salt1    : Word := 0
  cursor   : Nat := 0
  flush    : Bool := false
  flushq   : List Nat := []
  exportAll : Bool := false
  lostDrops : Nat := 0
  expLeft  : Nat := 0
  clearing : Bool := false
  ovf      : AMap OvfMark := []
  ovfAt    : Nat := 0
  ovfIdx   : Nat := 0
  ovfPend  : Bool := false
  msg      : List Export := []
  msgAt    : Nat := 0
  seq      : Nat := 0
  tmplAt   : Option Nat := none
  usedClk  : Nat := 0
  paceTok  : Nat := 0
  deriving DecidableEq, Repr

/-- HB_STAT.STATE (Table 120). -/
inductive HbmSt where
  | init | ready | retrain | failed
  deriving DecidableEq, Repr

/-- The HBM stack of a half (R322, R326): its state, the start of the retrain, when corrected errors came within the last second, and how many. Its temperature stands in HB_TEMP,
words written outside the Tally store in the window memory of its page. -/
structure HbmS where
  st    : HbmSt := .init
  since : Nat := 0
  corr  : List (Nat × Nat) := []
  deriving DecidableEq, Repr

/-- The matrix, histograms and drop pairs of a half (R300 to R303) by entry index, and the sweeps that run. -/
structure MatrixS where
  cells : AMap CPair := []
  hist  : AMap Nat := []
  drops : AMap CPair := []
  swMx   : Bool := false
  swHist : Bool := false
  swDrop : Bool := false
  deriving DecidableEq, Repr

/-! ### Host interface (12_host_interface.md) -/

/-- The queue states of Table 133. -/
inductive HqSt where
  | disabled | active | draining | halted
  deriving DecidableEq, Repr

/-- A descriptor that has been started and waits to be written back (R354): its index, its words 2 to 7, the data
bytes it moved, whether it asks for the interrupt; of a table command whether it is STAGED, and how many halves it
still runs in (06_tables.md R206); whether it carries FENCE (R356); the data bytes read for it. -/
structure Done where
  idx   : Nat
  words : List Word
  data  : List Byte := []
  addr  : Nat := 0
  irq   : Bool := false
  staged : Bool := false
  left  : Nat := 0
  fence : Bool := false
  moved : Nat := 0
  deriving DecidableEq, Repr

/-- A DMA queue (R349 to R366): state, error, the configuration it runs, descriptors fetched and not started, those
started, frames held (R357), interrupt state, the export buffer being filled; of each doorbell whose descriptors are not all
completed, TAIL and how many writes had been posted by then (R356). -/
structure HostQ where
  st      : HqSt := .disabled
  err     : Nat := 0
  cfgPend : Bool := false
  baseRun : Nat := 0
  log2    : Nat := 6
  strict  : Bool := false
  fetched : List (Nat × List Word) := []
  done    : List Done := []
  held    : List Nat := []
  heldN   : Nat := 0
  since   : Nat := 0
  firstAt : Nat := 0
  lastSig : Option Nat := none
  pending : Bool := false
  fill    : List Export := []
  fillAt  : Nat := 0
  covers  : List (Nat × Nat) := []
  deriving DecidableEq, Repr

/-- The MSI-X structure of BAR2 (R346): words 0 to 2 of the table's entries (message address, upper address, data), by number 4 n
+ word; the vectors whose Vector Control does not mask them; the pending bits. -/
structure MsixS where
  table : AMap Word := []
  clear : AMap Bool := []
  pend  : AMap Bool := []
  deriving DecidableEq, Repr

/-- Configuration space of the function as far as the device acts on it (R346, R367): MSI-X Enable and Function Mask, Max Payload
Size and Max Read Request Size in bytes, the completion timeout in nanoseconds, none while it is disabled, whether non-fatal errors are
reported, and AER's Uncorrectable Error Status. No command writes it; it holds its values of reset (DESIGN CHOICE, log entry 83). -/
structure PcieCfg where
  msixOn   : Bool := true
  msixMask : Bool := false
  mps      : Nat := 128
  mrrs     : Nat := 512
  timeout  : Option Nat := some 50000000
  nonFatal : Bool := true
  aerUnc   : Word := 0
  deriving DecidableEq, Repr

/-- The PCIe function and its queues (R346 to R369). -/
structure HostS where
  linkUp : Bool := false
  width  : Nat := 0
  speed  : Nat := 0
  bme    : Bool := false
  d3hot  : Bool := false
  perst  : Bool := false
  cfg    : PcieCfg := {}
  msix   : MsixS := {}
  queues : AMap HostQ := []
  deriving DecidableEq, Repr

/-! ### Woodlot (06_tables.md) -/

/-- A version of an LPM prefix (R183, R185, R219): its table, the address bits within its length as a 128-bit number,
its length, its result, BIRTH and DEATH. -/
structure LpmPfx where
  tbl    : Nat
  addr   : Nat
  len    : Nat
  result : Nat
  birth  : Option Nat := none
  death  : Option Nat := none
  deriving DecidableEq, Repr

/-- A learning request (R191): table, key, source DEST. -/
structure LearnReq where
  tbl : Nat
  key : List Byte
  src : Nat
  deriving DecidableEq, Repr

/-- A change that the master has made in the West copy and the East copy has still to take (R192, R196): insert or move
to a DEST with the damping fields the West entry took, clear HIT, or delete. -/
inductive EastOp where
  | put (dest : Nat) (frozen : Bool) (mvCnt : Nat) (mvT : Nat)
  | clearHit
  | delete
  deriving DecidableEq, Repr

structure EastChange where
  tbl : Nat
  key : List Byte
  op  : EastOp
  birth : Option Nat := none
  death : Option Nat := none
  deriving DecidableEq, Repr

/-- A bank migration that runs (R203): the bank, the spare, the cursor. -/
structure Mig where
  bank   : Nat
  spare  : Nat
  cursor : Nat
  deriving DecidableEq, Repr

/-- A foreground routine of a table command, and its journal (R198 to R201): the table-command queue, the descriptor's index
and words, its data block; the relocation path it recorded, from the free slot at its tail to the slot at its head, the
steps done; a bulk routine's cursor and the entries it has changed. -/
structure FgRun where
  q      : Nat
  idx    : Nat
  words  : List Word
  blk    : List Byte
  path   : List Nat := []
  step   : Nat := 0
  cursor : Nat := 0
  count  : Nat := 0
  deriving DecidableEq, Repr

/-- The Woodlot of a half (R169 to R212): salts, LPM prefixes, physical banks that serve others, banks taken out of
use, a running migration and the banks whose migration waits, when the corrected errors of a bank came within the last
second, LPM nodes lost and not yet rebuilt, boost, the learning FIFO and the requests served since the last foreground
command; a stopped foreground routine and the commands that wait behind it, and which contexts are stopped or held; the background
routines in progress by code, with step and cursor; the tenths of a Woodlot cycle that stalls have gathered. -/
structure WoodS where
  salt0   : Word := 0
  salt1   : Word := 0
  lpm     : List LpmPfx := []
  bankmap : AMap (Option Nat) := []
  retired : AMap Bool := []
  mig     : Option Mig := none
  migWant : List Nat := []
  errs    : AMap (List Nat) := []
  lpmBad  : List Nat := []
  boost   : Bool := false
  fifo    : List LearnReq := []
  burst   : Nat := 0
  fg      : Option FgRun := none
  fgNext  : List FgRun := []
  fgHeld  : Bool := false
  bgStop  : Bool := false
  bgHeld  : Bool := false
  bgOpen  : AMap (Option (Nat × Nat)) := []
  cfrac   : Nat := 0
  deriving DecidableEq, Repr

/-! ### Firebreak (15_firebreak_power.md) -/

/-- Firebreak (R402 to R421): the samples of the estimate, newest first; the depths of the requesters and when each cap
last released; the breaches already told of by FLOOR and SOFT; sensors in warning, stacks too hot, the thermal
controller's last change; rails in warning, when VDD_CORE recovered; the setpoint base, the setpoint, and the offset of the hint in force, in mV; a hint
that waits for its acknowledgement (duration in us, since when), the end of an open window; when FB_CAL was last
written; boost permission; the K last applied; the deferral that runs, those that ended (start, end) and until when
deferred work runs whatever the depth; nanoseconds of deferral and pacing not yet counted; the last droop pulses. -/
structure FireS where
  samples   : List Nat := []
  dFast     : Nat := 0
  dSus      : Nat := 0
  dLong     : Nat := 0
  dTherm    : Nat := 0
  dUv       : Nat := 0
  dHint     : Nat := 0
  relAt     : AMap (Option Nat) := []
  floorTold : AMap Bool := []
  softTold  : AMap Bool := []
  tempWarn  : AMap Bool := []
  hbmHot    : AMap Bool := []
  thermAt   : Option Nat := none
  rails     : AMap Bool := []
  uvRec     : Option Nat := none
  base      : Nat := 0
  volt      : Nat := 0
  offset    : Nat := 0
  hintPend  : Option (Nat × Nat) := none
  hintEnd   : Option Nat := none
  calAt     : Nat := 0
  calTold   : Bool := false
  boost     : Bool := false
  kLast     : Nat := 16
  deferFrom : Option Nat := none
  deferDone : List (Nat × Nat) := []
  deferFree : Nat := 0
  deferNs   : Nat := 0
  paceNs    : Nat := 0
  droopAt   : AMap (Option Nat) := []
  deriving DecidableEq, Repr

/-! ### Raft (11_raft.md) -/

/-- The neighbour states of Table 127. -/
inductive NbrSt where
  | down | up | foreign | dup
  deriving DecidableEq, Repr

/-- The record of a Raft port (R341, R342, R344): the neighbour, what its last hello said and when it came, the time
after which it is dead, when each ring was last reported active; and the port's own hellos: their sequence number, the
last one sent, what it said, the last extra one, and the counts of nonzero samples per ring at that hello. -/
structure NbrS where
  st       : NbrSt := .down
  dev      : Nat := 0
  port     : Nat := 0
  cur      : Nat := 0
  active   : Nat := 0
  oldest   : Nat := 0
  cap      : Nat := 0
  capped   : Bool := false
  behind   : Bool := false
  seq      : Nat := 0
  heardAt  : Nat := 0
  deadNs   : Nat := 0
  actAt    : AMap (Option Nat) := []
  txSeq    : Nat := 0
  txAt     : Option Nat := none
  txSaid   : Option (Nat × Nat × Bool) := none
  extraAt  : Option Nat := none
  txNz     : AMap Nat := []
  deriving DecidableEq, Repr

/-- The Raft settings a half's block runs under (R328). -/
structure RaftCfg where
  en       : Bool := false
  devid    : Nat := 0
  hop      : Nat := 0
  notify   : Nat := 0
  sysid    : Word := 0
  interval : Nat := 0
  dead     : Nat := 0
  grace    : Nat := 0
  da       : Nat := 0
  sa       : Nat := 0
  deriving DecidableEq, Repr

/-- Raft (R327 to R345): the settings taken at the rise of EN, pend that a write waits for it, downAt when the channel went down, whether a written one waits, the settings the East block
last received, the neighbour records, each half's view of the other half's records while the management channel is
down, and the effective weights of the members by half, group and member. -/
structure RaftS where
  devid   : Nat := 0
  hop     : Nat := 0
  sysid   : Word := 0
  east    : RaftCfg := {}
  nbr     : AMap NbrS := []
  far     : AMap NbrS := []
  pend    : Bool := false
  downAt  : Nat := 0
  ew      : AMap Nat := []
  deriving DecidableEq, Repr

/-! ### Cruiser (13_cruiser_counters.md) -/

/-- CR_STAT.STATE (Table 147). -/
inductive SnapSt where
  | idle | armed | capturing | transfer
  deriving DecidableEq, Repr

/-- A half's part of a snapshot (R378 to R380): its words after the header by word address, ascending, its length in bytes,
the offsets of the optional families, the flags ABSENT and RETRAIN_WAIT, and the PTP time it was complete in HBM. -/
structure SnapPart where
  words  : List (Nat × Word) := []
  len    : Nat := 64
  ofs    : List Nat := []
  absent : Bool := false
  wait   : Bool := false
  doneAt : Option Nat := none
  deriving DecidableEq, Repr

/-- Bandwidth of a port slot (R384): the bytes of this window, of the last one, the peaks and the starts of their
windows. -/
structure BwS where
  rx      : Nat := 0
  tx      : Nat := 0
  lastRx  : Nat := 0
  lastTx  : Nat := 0
  peakRx  : Nat := 0
  peakTx  : Nat := 0
  peakRxT : Nat := 0
  peakTxT : Nat := 0
  deriving DecidableEq, Repr

/-- Cruiser (R373 to R384): the state of snapshots, the last refusal, the captured CR_FAM and CR_PERIOD, the next capture
time armed, whether PTP time has stepped since it was armed, STOP, whether the next capture is a periodic one; the snapshot under way: T, sequence number, families,
STEPPED, both parts; top-down: by 8 * engine + class the vectors that went on (1) or were removed (2) and the cycle after the last of them (0); what was
loaded beside (R371); the Kerf time of each slice, in twentieths of a cycle, that no stall took, that Woodlot stalled its ingress
pipe, that admission stalled it; the same of its egress pipe; bandwidth by port slot, and the window: its start, and whether counting is on. -/
structure CruiserS where
  st      : SnapSt := .idle
  rej     : Nat := 0
  fam     : Nat := 0
  period  : Nat := 0
  next    : Option Nat := none
  stepped : Bool := false
  stop    : Bool := false
  auto    : Bool := false
  t       : Nat := 0
  n       : Nat := 0
  famRun  : Nat := 0
  wasStepped : Bool := false
  west    : SnapPart := {}
  east    : SnapPart := {}
  td      : AMap Nat := []
  idle    : AMap Nat := []
  stalled : AMap Nat := []
  wl      : AMap Nat := []
  egIdle  : AMap Nat := []
  egStalled : AMap Nat := []
  tdOff   : AMap Nat := []
  bw      : AMap BwS := []
  bwAt    : Nat := 0
  bwOn    : Bool := true
  deriving DecidableEq, Repr

/-! ### Lookout (14_lookout_faults.md) -/

/-- A record of a source, or a log entry's message (R389, Table 153). -/
structure LogEntry where
  num   : Nat := 0
  msg   : Message := { src := 0, code := 0, typ := .rise, kind := 0, inst := 0 }
  sev   : Nat := 0
  gone  : Bool := false
  first : Bool := false
  react : Nat := 0
  deriving DecidableEq, Repr

/-- A fatal summary (R400, Table 154) as the always-on island holds it for the write: its cause, the cause record, and the island's own
copies of the bitmaps and of the latest log entries. -/
structure Summary where
  cause  : Nat := 0
  record : Message := { src := 0, code := 0, typ := .rise, kind := 0, inst := 0 }
  latched : AMap Bool := []
  active : AMap Bool := []
  log    : List LogEntry := []
  deriving DecidableEq, Repr

/-- Lookout (R386 to R401): level lines of sources that are not pages by 32 * source + code, sources whose level line rose without
a message (R396), ACTIVE and LATCHED by source, records, the number of the log entry that latched a source (0 none), the log,
the three message queues (R396), the messages the East half holds while the management channel is down, traps (R394),
FAULT_N with its pulse and held release (R395), the fatal summary asked for (R399) with the time of the last CHIP_RST latch that gave its record, the summaries that a chip reset has
overtaken, the last one for a FATAL source, the chip reset that follows the summary, as the RST_CAUSE bits it records (R393, R419), and
the time of the last reset dip. -/
structure LookoutS where
  level   : AMap Bool := []
  missed  : AMap Bool := []
  active  : AMap Bool := []
  latched : AMap Bool := []
  recs    : AMap Message := []
  entry   : AMap Nat := []
  log     : AMap LogEntry := []
  logN    : Nat := 0
  qCommon : List Message := []
  qWest   : List Message := []
  qEast   : List Message := []
  held    : List Message := []
  traps   : List Message := []
  faultLow : Bool := false
  pulseEnd : Option Nat := none
  relPend : Bool := false
  fatal   : Option (Nat × Message) := none
  chipAt  : Option Nat := none
  owed    : List Summary := []
  fatalAt : Option Nat := none
  chipRst : Nat := 0
  dipAt   : Option Nat := none
  nextNum : Nat := 1
  deriving DecidableEq, Repr

/-! ### Forester (16_forester_security.md) -/

/-- The states of a cluster (Table 163). -/
inductive ClusterSt where
  | off | boot | standby | head | fenced | failed
  deriving DecidableEq, Repr

/-- A Forester cluster (R424 to R429, R441): its state, the VERSION and SVN it runs, where it booted from (0 FW0, 1 FW1, 2 the
recovery slot, 3 the UART console), the TYPE of the image it runs, the EPOCH at which it last became head, when it reached
STANDBY, its last lockstep mismatch, whether the flash sources have failed it, so that it waits for the UART console
(17_reset_retained.md R454), and whether its failure waits to be told to the common blocks (01_architecture.md R20). -/
structure ClusterS where
  st      : ClusterSt := .off
  ver     : Nat := 0
  svn     : Nat := 0
  slot    : Nat := 0
  typ     : Nat := 0
  epoch   : Nat := 0
  readyAt : Nat := 0
  missAt  : Option Nat := none
  uart    : Bool := false
  untold  : Bool := false
  deriving DecidableEq, Repr

/-- What a mailbox command has come to before it is completed (R431): its status, response and host-buffer bytes. -/
structure MbResult where
  status : Nat
  resp   : List Byte := []
  data   : List Byte := []
  deriving DecidableEq, Repr

/-- The mailbox (R431, R432): MB_STAT, and of the running command what MB_GO captured, when, whether a cluster has held headship
since, and its result once the head has it. -/
structure MbS where
  busy   : Bool := false
  done   : Bool := false
  status : Nat := 0
  tag    : Nat := 0
  op     : Nat := 0
  req    : List Byte := []
  addr   : Nat := 0
  alen   : Nat := 0
  goAt   : Nat := 0
  goTag  : Nat := 0
  headed : Bool := false
  result : Option MbResult := none
  deriving DecidableEq, Repr

/-- A verified image in Forester memory (R437, R440): its header, VERSION, SVN and plaintext payload. -/
structure Image where
  hdr     : List Byte
  ver     : Nat
  svn     : Nat
  payload : List Byte
  deriving DecidableEq, Repr

/-- A record of a load section (05_parser_kerf.md Table 58a): window data, or a register write. -/
inductive LoadRec where
  | window (page : Nat) (every : Bool) (sel : Nat) (addr : Nat) (data : List Word)
  | write (page : Nat) (every : Bool) (off : Nat) (value : Word)
  deriving DecidableEq, Repr

/-- A section of a configuration image (17_reset_retained.md R459): load records, or table records of descriptor words 0
and 5 and a data block. -/
inductive CfgSection where
  | load (recs : List LoadRec)
  | table (recs : List (Word × Word × List Byte))
  deriving DecidableEq, Repr

/-- What a valid copy of the configuration image says (R459 to R461): SEQ, SCOPE, SAVE_T, FW_VER, body. -/
structure CfgCopy where
  seq   : Nat := 0
  scope : Nat := 0
  saveT : Nat := 0
  fwVer : Nat := 0
  body  : List CfgSection := []
  deriving DecidableEq, Repr

/-- A save under way (R461): the copy it writes, its SEQ and DIGEST, the 8-byte words still to write, the first of them at word next, and the first
word of the copy, which is written last. -/
structure SaveRun where
  copy   : Nat
  seq    : Nat
  digest : List Byte
  next   : Nat
  left   : List DWord
  first  : DWord
  deriving DecidableEq, Repr

/-- A slot of the performance history (R436): its span position, when that ceased to be an enabled span port, and for each end
the fifteen-minute and the day bins with the starts of their intervals, newest first. -/
structure HistSlot where
  pos     : Nat
  lastOn  : Nat
  near15  : List (Nat × PmBin) := []
  far15   : List (Nat × PmBin) := []
  nearDay : List (Nat × PmBin) := []
  farDay  : List (Nat × PmBin) := []
  deriving DecidableEq, Repr

/-- The MRAM (R458, Table 174): the words of copies A and B, 8 bytes each, by byte offset in the copy / 8; the performance history, whose
layout within its bytes the spec does not give (log entry 85); the bytes of the fatal summaries by slot. -/
structure MramS where
  copyA : AMap DWord := []
  copyB : AMap DWord := []
  hist  : List HistSlot := []
  sums  : AMap (List Byte) := []
  deriving DecidableEq, Repr

/-- Fuses that change in service (R443 to R445, R433): the life-cycle state and its WIPE_DONE, the key digests programmed into
slots 2 and 3, the SVN floors by TYPE, the seed of the identity key pair (empty with none). -/
structure FuseS where
  life     : Nat := 0
  wipeDone : Bool := true
  keys     : AMap (List Byte) := []
  svn      : AMap Nat := []
  seed     : List Byte := []
  deriving DecidableEq, Repr

/-- What the boot flash holds of its own about firmware slots (R440, R441), which outlasts every reset: the slot preferred, slots whose
last staging has passed no check, and the clusters that have run what a slot holds, by 2 * slot + cluster. -/
structure FlashS where
  preferred : Nat := 0
  bad       : AMap Bool := []
  ran       : AMap Bool := []
  deriving DecidableEq, Repr

/-- Forester (R424 to R448): the head register and its lease; the clusters; the mailbox; the long log, its last number, and
the number of the last Lookout entry copied; waiting trap records; staged images by TYPE; the SVNs of the data-path loads
applied; the marks of the flash slots; M0 to M7; the configuration save under way and whether a commit has broken it; the life-cycle change that waits
(target, due); of the last claim that succeeded, its time and the EPOCH which that cluster carried before (R426). -/
structure ForesterS where
  holder    : Nat := 0
  epoch     : Nat := 0
  leaseAt   : Nat := 0
  west      : ClusterS := {}
  east      : ClusterS := {}
  mb        : MbS := {}
  longLog   : AMap LogEntry := []
  longN     : Nat := 0
  copied    : Nat := 0
  traps     : List Message := []
  staged    : AMap (Option Image) := []
  dpSvn     : List Nat := []
  flash     : FlashS := {}
  meas      : AMap (List Byte) := []
  saving    : Option SaveRun := none
  saveBad   : Bool := false
  lcNext    : Option (Nat × Nat) := none
  claimed   : Option (Nat × Nat) := none
  deriving DecidableEq, Repr

end Sys2Proof.Machine
end

