-- ==== Sys2Proof/Machine/State.lean ====
section
/-! DEFINITION. The whole state of the device as plain data, and the state right after power-on. -/

namespace Sys2Proof.Machine

/-- What can stop the machine. The spec gives every step an effect, so no command raises a fault; the type has the
one constructor that a step would need on data that is no state of the device, and no meaning answers it. -/
inductive Fault where
  /-- Raised by no meaning. Safe: a fault nothing raises hides no behaviour. -/
  | outsideDevice
  deriving DecidableEq, Repr

/-- A command this model gives no meaning. -/
inductive Refusal where
  /-- Raised by an arm of exec whose command has no meaning yet. Safe: nothing is claimed of what it would do. -/
  | notModelled (mnemonic : String)
  deriving DecidableEq, Repr

/-- The dedicated output pins (18_pins_electrical.md Table 182). -/
inductive PinName where
  | faultN | thermtripN
  deriving DecidableEq, Repr

/-- What the device has sent: frames and span frames on its lanes, PFC frames and hellos, writes into host memory with or without the
Relaxed Ordering attribute, PCIe messages of a non-fatal error,
MSI-X messages, answers to register reads, OHSP bits, images written to the boot flash, the wipe of its data areas, moves of the dedicated output
pins. Newest last. -/
inductive Output where
  | frame (port : Nat) (bytes : List Byte) (stomped : Bool)
  | pfc (port : Nat) (bytes : List Byte)
  | hello (port : Nat) (bytes : List Byte)
  | span (pos : Nat) (bytes : List Byte)
  | ohsp (port : Nat) (dout : List (BitVec 10))
  | hostWrite (addr : Nat) (bytes : List Byte) (relaxed : Bool)
  | errNonFatal
  | msix (vector : Nat)
  | readData (req : Requester) (words : List Word)
  | readAbort (req : Requester)
  | flash (slot : Nat) (bytes : List Byte)
  | flashWipe
  | pin (name : PinName) (level : Bool)
  deriving DecidableEq, Repr

/-- The phases of start-up (17_reset_retained.md R453, Table 173). -/
inductive Phase where
  | fuses | wipe | boot | restore | run
  deriving DecidableEq, Repr

/-- Reset and start-up (R449 to R465): the phase, RESTORING, the copy restored, the last refusal, RECOVERY, the cause,
the retained copies' numbers as last read, halves in reset and the ring generation when the last one began, slices and
pages in reset, the times the reset pins fell, the
straps as sampled and the levels of their pins, the time start-up began (t0 of Table 173), and the thermal trip. -/
structure RstS where
  phase     : Phase := .fuses
  restoring : Bool := false
  rsrc      : Nat := 0
  rej       : Nat := 0
  recovery  : Bool := false
  cause     : Nat := 1
  seqA      : Nat := 0
  seqB      : Nat := 0
  seqUsed   : Nat := 0
  len       : Nat := 0
  half0     : Bool := false
  half1     : Bool := false
  halfGen   : Nat := 0
  slices    : AMap Bool := []
  blocks    : AMap Bool := []
  porstAt   : Option Nat := none
  chipAt    : Option Nat := none
  headSel   : Bool := false
  bootSrc   : Nat := 0
  pinHead   : Bool := false
  pinSrc    : Nat := 0
  t0        : Nat := 0
  tripped   : Bool := false
  deriving DecidableEq, Repr

/-- The state of the device. pending is the queue of commands that wait (the block's form). freeCtr numbers the free
values drawn (the model's own). Maps: lanes by lane, macros by macro, spans by span position, ports and sched and pfcTx by port slot, frames
by frame number, slices by slice, mcast (instances of a multicast frame still to
replicate, copies made, reason of an instance dropped) by root, inflight by 4 * half + ring, queues and deficit and qbucket by queue ID, regs by
page * 65536 + offset, mem by page, select code and word address, meters by page * 2048 + meter; eastq (changes the East exact-match copy has still to
take) and hitq (hit notices on their way to the West copy) oldest first. unsettled holds the units dropped before their tail
arrived, which are accounted when their length is known (10_telemetry.md R297). ppsHigh is the time PPS_OUT rose while it is high. -/
structure State where
  pending   : List Instr := []
  clk       : Clock := {}
  freeCtr   : Nat := 0
  out       : List Output := []
  regs      : AMap Word := []
  selRegs   : AMap Word := []
  mem       : AMap Word := []
  bus       : Bus := {}
  flumeUp   : Bool := true
  lanes     : AMap LaneS := []
  macros    : AMap MacroS := []
  ports     : AMap PortS := []
  spans     : AMap SpanS := []
  frames    : AMap (Option Frame) := []
  nextFrame : Nat := 0
  slices    : AMap SliceS := []
  mcast     : AMap (Nat × Nat × Nat) := []
  rings     : RingSys := {}
  inflight  : AMap Nat := []
  deck      : Pair DeckS := ⟨{}, {}⟩
  path      : Pair PathS := ⟨{}, {}⟩
  queues    : AMap (List Nat) := []
  deficit   : AMap Int := []
  qbucket   : AMap Bucket := []
  sched     : AMap SchedS := []
  pfcTx     : AMap PfcS := []
  meters    : AMap MeterS := []
  late      : List LateItem := []
  unsettled : List Unsettled := []
  wood      : Pair WoodS := ⟨{}, {}⟩
  eastq     : List EastChange := []
  hitq      : List (Nat × List Byte) := []
  matrix    : Pair MatrixS := ⟨{}, {}⟩
  tally     : Pair TallyS := ⟨{}, {}⟩
  hbm       : Pair HbmS := ⟨{}, {}⟩
  host      : HostS := {}
  cruiser   : CruiserS := {}
  fire      : FireS := {}
  raft      : RaftS := {}
  lookout   : LookoutS := {}
  forester  : ForesterS := {}
  mram      : MramS := {}
  fuses     : FuseS := {}
  ppsHigh   : Option Nat := none
  rst       : RstS := {}
  deriving DecidableEq, Repr

/-- Ring 0 as start-up leaves it: CURRENT with generation 0 (17_reset_retained.md Table 176). -/
def ringZero : AMap RingS := [(0, { st := .current })]

/-- The machine right after power-on, at t0 of Table 173: PHASE FUSES, cause power-on, every register at its reset
value, every memory zeroed, ring 0 CURRENT, and both Decks initialising with no free cell yet (08_deck_admission.md R259). -/
def State.reset : State :=
  { rings := { recs := ringZero }
    deck := ⟨{ free := 0, initing := true }, { free := 0, initing := true }⟩ }

end Sys2Proof.Machine
end

