-- ==== Sys2Proof/Machine/Ops.lean ====
section
/-! DEFINITION. The named operations every meaning is written over: bit fields, the register file, halves, frames,
time, events and Lookout messages, outputs, random draws. -/

namespace Sys2Proof.Machine

/-- The outcome of a command of this block. -/
abbrev Out := Host.Outcome State Fault Refusal

/-! ### Fields of words -/

/-- Field of n bits at bit lo of a word (00_scope.md R10). -/
def fld (w : Word) (lo n : Nat) : Nat := w.toNat / 2 ^ lo % 2 ^ n

/-- One bit of a word. -/
def bit (w : Word) (i : Nat) : Bool := w.toNat / 2 ^ i % 2 = 1

/-- A word with the field of n bits at bit lo replaced by x. -/
def put (w : Word) (lo n x : Nat) : Word :=
  BitVec.ofNat 32 (w.toNat - fld w lo n * 2 ^ lo + x % 2 ^ n * 2 ^ lo)

/-- Number of a Bool, for a status bit. -/
def b2n (b : Bool) : Nat := if b then 1 else 0

/-- Signed value of an n-bit field. -/
def signed (n x : Nat) : Int := if x % 2 ^ n < 2 ^ (n - 1) then (x % 2 ^ n : Nat) else (x % 2 ^ n : Nat) - (2 ^ n : Nat)

/-- x when it is not 0, else d: "0 acts as d". -/
def orElse0 (x d : Nat) : Nat := if x = 0 then d else x

/-! ### Halves -/

/-- The part of a half. -/
def Pair.at {α : Type} (p : Pair α) (h : Nat) : α := if h = 0 then p.west else p.east

/-- A pair with the part of one half replaced. -/
def Pair.upd {α : Type} (p : Pair α) (h : Nat) (x : α) : Pair α :=
  if h = 0 then { p with west := x } else { p with east := x }

/-- The half of a slice (R7). -/
def sliceHalf (sl : Nat) : Nat := sl / 16
/-- The slice of a port slot or lane (R7). -/
def portSlice (p : Nat) : Nat := p / 32
/-- The half of a port slot or lane (R7). -/
def portHalf (p : Nat) : Nat := p / 512
/-- The span position of a port slot (R131). -/
def spanPos (p : Nat) : Nat := 8 * (p / 32) + p % 32 / 4
/-- The port slot of a span position (R131). -/
def spanSlot (q : Nat) : Nat := 32 * (q / 8) + 4 * (q % 8)
/-- The half of a queue (R7). -/
def queueHalf (q : Nat) : Nat := q / 16384

/-! ### The register file -/

/-- The word a register holds. -/
def State.reg (s : State) (p o : Nat) : Word := AMap.get (regDefault (regKey p o)) s.regs (regKey p o)

/-- Load a register's word. -/
def State.setReg (s : State) (p o : Nat) (v : Word) : State :=
  { s with regs := AMap.set (regDefault (regKey p o)) s.regs (regKey p o) v }

/-- A field of a register. -/
def State.rf (s : State) (p o lo n : Nat) : Nat := fld (s.reg p o) lo n

/-- One bit of a register. -/
def State.rbit (s : State) (p o i : Nat) : Bool := bit (s.reg p o) i

/-- Load a field of a register. -/
def State.setRf (s : State) (p o lo n x : Nat) : State := s.setReg p o (put (s.reg p o) lo n x)

/-- A 64-bit register: the low word at o, the high word at o + 4 (R42). -/
def State.reg64 (s : State) (p o : Nat) : Nat := (s.reg p o).toNat + 2 ^ 32 * (s.reg p (o + 4)).toNat

/-- Load a 64-bit register. -/
def State.setReg64 (s : State) (p o x : Nat) : State :=
  (s.setReg p o (BitVec.ofNat 32 x)).setReg p (o + 4) (BitVec.ofNat 32 (x / 2 ^ 32))

/-- Add n to a 32-bit counter, which wraps. -/
def State.count (s : State) (p o n : Nat) : State :=
  s.setReg p o (BitVec.ofNat 32 ((s.reg p o).toNat + n))

/-- Add n to a 64-bit counter, which wraps. -/
def State.count64 (s : State) (p o n : Nat) : State := s.setReg64 p o (s.reg64 p o + n)

/-- An entry behind a select register (R286, R345), with its value after a wipe. -/
def State.sreg (s : State) (d : Word) (k : Nat) : Word := AMap.get d s.selRegs k

/-- Load an entry behind a select register. -/
def State.setSreg (s : State) (d : Word) (k : Nat) (v : Word) : State :=
  { s with selRegs := AMap.set d s.selRegs k v }

/-- Key of a window memory's word: page, select code, word address (R54). -/
def memKey (p sel a : Nat) : Nat := (p * 0x100 + sel) * 2 ^ 32 + a

/-- A word of a window memory; every memory is zeroed at start-up (R453). -/
def State.memW (s : State) (p sel a : Nat) : Word := AMap.get 0 s.mem (memKey p sel a)

/-- Write a word of a window memory. -/
def State.setMemW (s : State) (p sel a : Nat) (v : Word) : State :=
  { s with mem := AMap.set 0 s.mem (memKey p sel a) v }

/-- Write consecutive words of a window memory. -/
def State.setMemWs (s : State) (p sel : Nat) : Nat → List Word → State
  | _, [] => s
  | a, w :: ws => (s.setMemW p sel a w).setMemWs p sel (a + 1) ws

/-- Read n consecutive words of a window memory. -/
def State.memWs (s : State) (p sel : Nat) : Nat → Nat → List Word
  | _, 0 => []
  | a, n + 1 => s.memW p sel a :: s.memWs p sel (a + 1) n

/-! ### Parts of the state -/

def State.lane (s : State) (l : Nat) : LaneS := AMap.get {} s.lanes l
def State.setLane (s : State) (l : Nat) (x : LaneS) : State := { s with lanes := AMap.set {} s.lanes l x }
def State.macro_ (s : State) (m : Nat) : MacroS := AMap.get {} s.macros m
def State.setMacro (s : State) (m : Nat) (x : MacroS) : State := { s with macros := AMap.set {} s.macros m x }
def State.port (s : State) (p : Nat) : PortS := AMap.get {} s.ports p
def State.setPort (s : State) (p : Nat) (x : PortS) : State := { s with ports := AMap.set {} s.ports p x }
def State.span (s : State) (q : Nat) : SpanS := AMap.get {} s.spans q
def State.setSpan (s : State) (q : Nat) (x : SpanS) : State := { s with spans := AMap.set {} s.spans q x }
def State.slice (s : State) (k : Nat) : SliceS := AMap.get {} s.slices k
def State.setSlice (s : State) (k : Nat) (x : SliceS) : State := { s with slices := AMap.set {} s.slices k x }
def State.schedOf (s : State) (p : Nat) : SchedS := AMap.get {} s.sched p
def State.setSched (s : State) (p : Nat) (x : SchedS) : State := { s with sched := AMap.set {} s.sched p x }
def State.queue (s : State) (q : Nat) : List Nat := AMap.get [] s.queues q
def State.setQueue (s : State) (q : Nat) (x : List Nat) : State := { s with queues := AMap.set [] s.queues q x }
def State.deckOf (s : State) (h : Nat) : DeckS := s.deck.at h
def State.setDeck (s : State) (h : Nat) (x : DeckS) : State := { s with deck := s.deck.upd h x }
def State.pathOf (s : State) (h : Nat) : PathS := s.path.at h
def State.setPath (s : State) (h : Nat) (x : PathS) : State := { s with path := s.path.upd h x }
def State.tallyOf (s : State) (h : Nat) : TallyS := s.tally.at h
def State.setTally (s : State) (h : Nat) (x : TallyS) : State := { s with tally := s.tally.upd h x }
def State.matrixOf (s : State) (h : Nat) : MatrixS := s.matrix.at h
def State.setMatrix (s : State) (h : Nat) (x : MatrixS) : State := { s with matrix := s.matrix.upd h x }
def State.woodOf (s : State) (h : Nat) : WoodS := s.wood.at h
def State.setWood (s : State) (h : Nat) (x : WoodS) : State := { s with wood := s.wood.upd h x }
def State.hbmOf (s : State) (h : Nat) : HbmS := s.hbm.at h
def State.setHbm (s : State) (h : Nat) (x : HbmS) : State := { s with hbm := s.hbm.upd h x }
def State.hq (s : State) (i : Nat) : HostQ := AMap.get {} s.host.queues i
def State.setHq (s : State) (i : Nat) (x : HostQ) : State :=
  { s with host := { s.host with queues := AMap.set {} s.host.queues i x } }
def State.ringRec (s : State) (r : Nat) : RingS := AMap.get {} s.rings.recs r
def State.setRing (s : State) (r : Nat) (x : RingS) : State :=
  { s with rings := { s.rings with recs := AMap.set {} s.rings.recs r x } }

/-- A frame by its number; a frame that is gone reads as an empty one. -/
def State.frame (s : State) (i : Nat) : Frame := (AMap.get none s.frames i).getD {}
/-- Store a frame. -/
def State.setFrame (s : State) (i : Nat) (f : Frame) : State :=
  { s with frames := AMap.set none s.frames i (some f) }
/-- Forget a frame whose outcome is fixed and accounted. -/
def State.endFrame (s : State) (i : Nat) : State := { s with frames := AMap.set none s.frames i none }
/-- Store a copy or instance of a frame under the next number. -/
def State.newCopy (s : State) (f : Frame) : State :=
  { s with frames := AMap.set none s.frames s.nextFrame (some f), nextFrame := s.nextFrame + 1 }
/-- Store a new frame under the next number, which is also the number of its root. -/
def State.newFrame (s : State) (f : Frame) : State := s.newCopy { f with root := s.nextFrame }
/-- Change every frame in the device that p holds of. -/
def State.mapFrames (s : State) (p : Frame → Bool) (g : Frame → Frame) : State :=
  { s with frames := s.frames.map (fun e => (e.1, e.2.map (fun f => if p f then g f else f))) }

/-- Append to what the device has sent. -/
def State.emit (s : State) (o : Output) : State := { s with out := s.out ++ [o] }

/-- The next free value's number is used up. -/
def State.drawn (s : State) : State := { s with freeCtr := s.freeCtr + 1 }

/-! ### Time -/

/-- A time in TS format: the low 32 bits of the seconds, then the nanoseconds (R287). -/
def tsOf (ns : Nat) : Nat := ns / 1000000000 % 2 ^ 32 * 2 ^ 32 + ns % 1000000000

/-- The time in nanoseconds that a TS value means; an excess of nanoseconds carries into the seconds (R287). -/
def nsOfTs (ts : Nat) : Nat := ts / 2 ^ 32 * 1000000000 + ts % 2 ^ 32

/-- PTP time now, in nanoseconds. -/
def State.now (s : State) : Nat := s.clk.ptp

/-! ### Bytes and words -/

/-- The four bytes of a word, most significant first (R11). -/
def beBytes : Nat → Nat → List Byte
  | 0, _ => []
  | n + 1, x => BitVec.ofNat 8 (x / 2 ^ (8 * n)) :: beBytes n x

/-- n bytes of a number, least significant first (R12). -/
def leBytes : Nat → Nat → List Byte
  | 0, _ => []
  | n + 1, x => BitVec.ofNat 8 x :: leBytes n (x / 256)

/-- The number that bytes spell, most significant first. -/
def beNat (bs : List Byte) : Nat := bs.foldl (fun a b => a * 256 + b.toNat) 0

/-- The number that bytes spell, least significant first. -/
def leNat : List Byte → Nat
  | [] => 0
  | b :: bs => b.toNat + 256 * leNat bs

/-- Byte i of a list, 0x00 beyond its end. -/
def byteAt (bs : List Byte) (i : Nat) : Byte := bs.getD i 0

/-- n bytes from byte i, 0x00 beyond the end. -/
def bytesAt (bs : List Byte) (i : Nat) : Nat → List Byte
  | 0 => []
  | n + 1 => byteAt bs i :: bytesAt bs (i + 1) n

/-- The big-endian number in n bytes from byte i. -/
def beAt (bs : List Byte) (i n : Nat) : Nat := beNat (bytesAt bs i n)

/-- The little-endian number in n bytes from byte i. -/
def leAt (bs : List Byte) (i n : Nat) : Nat := leNat (bytesAt bs i n)

/-- A list with bytes written from index i; bytes beyond its end are not written. -/
def putBytes (bs : List Byte) (i : Nat) : List Byte → List Byte
  | [] => bs
  | x :: xs => putBytes (bs.set i x) (i + 1) xs

/-- Words as little-endian bytes (R12). -/
def wordsLe (ws : List Word) : List Byte := ws.flatMap (fun w => leBytes 4 w.toNat)

/-- Little-endian bytes as n words. -/
def leWords (bs : List Byte) : Nat → List Word
  | 0 => []
  | n + 1 => BitVec.ofNat 32 (leAt bs 0 4) :: leWords (bs.drop 4) n

/-- Word i of a list, 0 beyond its end. -/
def wordAt (ws : List Word) (i : Nat) : Word := ws.getD i 0

/-- n bytes of zero. -/
def zeros (n : Nat) : List Byte := List.replicate n 0

/-! ### Events and Lookout messages (02_registers.md R47 to R49, 14_lookout_faults.md R386, R387) -/

/-- KIND of an event (Table 149): 1 CORRECTED, 2 UNCORRECTED, 3 ACCESS, 4 LINK, 5 ENVIRONMENT, 6 INTEGRITY, 0 EVENT
for the rest. Bits 22 and 23 are ACK_MISS and WLOST of every page. -/
def evtKind (b : Blk) (i : Nat) : Nat :=
  if i = 22 ∨ i = 23 then 3
  else match b with
    | .chip => 3
    | .kerfIn | .kerfOut => if i = 0 then 1 else if i = 1 then 2 else if i ≤ 3 then 3 else 0
    | .deck => if i = 4 then 3 else if i = 6 then 1 else if i = 7 ∨ i = 8 then 2 else 0
    | .wlem => if i = 1 then 1 else if i = 2 ∨ i = 4 then 2 else 0
    | .wllpm => if i = 1 then 1 else if i = 2 then 2 else if i = 3 then 3 else 0
    | .tcam => if i = 0 then 2 else 0
    | .admission => if i = 2 then 3 else 0
    | .tally => if i = 4 then 2 else 0
    | .hbm => if i = 2 ∨ i = 3 then 2 else 0
    | .macpcs => if i = 2 then 3 else if i = 0 ∨ i = 1 ∨ i = 3 ∨ i = 4 then 4 else 0
    | .span => if i = 0 then 4 else 0
    | .lanes0 => if i ≤ 1 then 4 else 0
    | .lanes1 => if i = 0 then 4 else 0
    | .half => if i = 9 ∨ i = 11 ∨ i = 12 then 4 else 0
    | .hostdma => if i = 1 then 4 else 0
    | .time => if i = 2 then 5 else 0
    | .firebreak => if 4 ≤ i ∧ i ≤ 7 then 5 else 0
    | .forester => if i = 3 then 3 else 0
    | .lifecycle => 6
    | _ => 0

/-- The half of a Lookout source, none for a global one (Table 150). -/
def sourceHalf (n : Nat) : Option Nat :=
  if n < 32 then none else if n < 64 then some 0 else if n < 96 then some 1
  else if n < 480 then some ((n - 96) / 12 / 16) else some ((n - 480) / 16)

/-- The message queue a source's messages go to (R396). -/
def sourceQueue (n : Nat) : MsgQueue :=
  match sourceHalf n with | none => .common | some 0 => .west | some _ => .east

/-- A page of Lookout named by a source and an INST, none for a source that is no page (R391, Table 150). -/
def sourcePage (n inst : Nat) : Option Nat :=
  if n ≤ 18 then some n
  else if n < 32 then none
  else if n < 96 then (if n % 32 ≤ 10 then some (halfPage (if n < 64 then 0 else 1) (n % 32)) else none)
  else if n < 480 then
    let sl := (n - 96) / 12
    let j := (n - 96) % 12
    if j = 0 then some (pgParser sl) else if j = 1 then some (pgKerf sl .ingress inst)
    else if j = 2 then some (pgKerf sl .egress inst) else if j = 3 then some (pgDeparser sl)
    else if j = 4 then some (pgTcam sl) else if j = 5 then some (pgSched sl) else if j = 6 then some (pgSlice sl)
    else if j = 8 then some (pgMacpcs sl) else if j = 9 then some (pgSpan sl) else none
  else if inst = 0 then some (pgLanes0 (n - 480)) else some (pgLanes1 (n - 480))

/-- The queue of messages of one of the three fabrics. -/
def LookoutS.q (lo : LookoutS) : MsgQueue → List Message
  | .common => lo.qCommon | .west => lo.qWest | .east => lo.qEast

def LookoutS.setQ (lo : LookoutS) : MsgQueue → List Message → LookoutS
  | .common, l => { lo with qCommon := l }
  | .west, l => { lo with qWest := l }
  | .east, l => { lo with qEast := l }

/-- Put a message into its queue, or say that it does not fit: 256 entries each, and 64 in the East half while the
management channel is down (R396). -/
def State.enqueueMsg (s : State) (m : Message) : Option State :=
  let k := sourceQueue m.src
  if k = .east ∧ s.flumeUp = false then
    if s.lookout.held.length < 64 then
      some { s with lookout := { s.lookout with held := s.lookout.held ++ [m] } }
    else none
  else if (s.lookout.q k).length < 256 then
    some { s with lookout := s.lookout.setQ k (s.lookout.q k ++ [m]) }
  else none

/-- The event bits of a page. -/
def State.evt (s : State) (p : Nat) : Word := s.reg p 0x10

/-- PG_EVT with bits risen and SEQ one further when at least one rises (R47). -/
def evtRise (old : Word) (mask : Nat) : Word :=
  let rising := (old ||| BitVec.ofNat 32 (mask % 2 ^ 24)) &&& 0xFFFFFF
  if rising = old &&& 0xFFFFFF then old
  else put rising 24 8 (fld old 24 8 + 1)

/-- The RISE message of event i of a page, sent now (R386, R387). -/
def State.riseMsg (s : State) (p i : Nat) (info : Word) : Message :=
  { src := pageSrc p, code := i, typ := .rise
    kind := match pageBlk p with | some b => evtKind b i | none => 0
    inst := msgInst p, seq := fld (s.evt p) 24 8, info := info, time := BitVec.ofNat 64 (tsOf s.now) }

/-- The pages that report to a source. -/
def sourcePages (n : Nat) : List Nat := (List.range 16).filterMap (fun i =>
  match sourcePage n i with
  | some p => if pageSrc p = n ∧ (pageBlk p).isSome ∧ msgInst p = i then some p else none
  | none => none)

/-- The enabled events of a page among those of a word. -/
def State.enabledEvts (s : State) (p : Nat) (evt : Word) : Word := evt &&& s.reg p 0x14 &&& 0xFFFFFF

/-- A page other than p that reports to the same source has an enabled event set. -/
def State.othersHigh (s : State) (p : Nat) : Bool :=
  (sourcePages (pageSrc p)).any (fun q => decide (q ≠ p) && decide (s.enabledEvts q (s.evt q) ≠ 0))

/-- The level line of a source has risen and no message tells it (R396). -/
def State.missRise (s : State) (n : Nat) : State :=
  { s with lookout := { s.lookout with missed := AMap.set false s.lookout.missed n true } }

/-- A message is discarded: LO_MSG_LOST, and MSG_LOST of the LOOKOUT page, whose own message follows when it fits (R396). -/
def State.msgLost (s : State) : State :=
  let s := s.count pgLookout Reg.loMsgLost 1
  if s.rbit pgLookout 0x10 0 then s
  else
    let old := s.enabledEvts pgLookout (s.evt pgLookout)
    let s := s.setReg pgLookout 0x10 (evtRise (s.evt pgLookout) 1)
    if s.rbit pgLookout 0x14 0 then
      match s.enqueueMsg (s.riseMsg pgLookout 0 0) with
      | some t => t
      | none => (if old = 0 then s.missRise pgLookout else s).count pgLookout Reg.loMsgLost 1
    else s

/-- Send a message to Lookout; rose says that the level line of its source has risen with it (R396). -/
def State.sendOn (s : State) (m : Message) (rose : Bool) : State :=
  match s.enqueueMsg m with
  | some t => t
  | none => (if rose then s.missRise m.src else s).msgLost

/-- Send a message that goes with no rise of a level line. -/
def State.send (s : State) (m : Message) : State := s.sendOn m false

/-- Send the RISE messages of the listed events that have risen. -/
def State.sendRises (s : State) (p : Nat) (old : Word) (info : Word) : List Nat → State
  | [] => s
  | i :: is =>
    let s := if bit old i = false ∧ s.rbit p 0x14 i then
        s.sendOn (s.riseMsg p i info) (decide (s.enabledEvts p old = 0) && !s.othersHigh p)
      else s
    s.sendRises p old info is

/-- Set event bits of a page on one edge: SEQ advances once when any rises, and each risen bit that is enabled reports
to Lookout (R47, R49). -/
def State.raiseAll (s : State) (p : Nat) (bits : List Nat) (info : Word) : State :=
  let old := s.evt p
  let s := s.setReg p 0x10 (evtRise old (bits.foldl (fun m i => m ||| 2 ^ i) 0))
  s.sendRises p old info bits

/-- Set one event bit of a page. -/
def State.raise (s : State) (p i : Nat) : State := s.raiseAll p [i] 0

/-- Set one event bit when a condition holds. -/
def State.raiseIf (s : State) (b : Bool) (p i : Nat) : State := if b then s.raise p i else s

/-- The lowest set bit among bits 0 to n - 1 of a number. -/
def lowestBit (x : Nat) : Nat → Nat → Nat
  | i, 0 => i
  | i, n + 1 => if x / 2 ^ i % 2 = 1 then i else lowestBit x (i + 1) n

/-- Load PG_EVT or PG_EVT_EN of a page and send FALL when no enabled bit remains set on that edge: the FALL carries
the KIND of the lowest enabled bit that went (R387). A bit that is enabled while it stands raises the level line, and no RISE tells it
(R396). -/
def State.setEvtRegs (s : State) (p : Nat) (evt en : Word) : State :=
  let before := s.evt p &&& s.reg p 0x14 &&& 0xFFFFFF
  let after := evt &&& en &&& 0xFFFFFF
  let s := (s.setReg p 0x10 evt).setReg p 0x14 en
  if before ≠ 0 ∧ after = 0 then
    s.send { src := pageSrc p, code := 0, typ := .fall
             kind := match pageBlk p with | some b => evtKind b (lowestBit before.toNat 0 24) | none => 0
             inst := msgInst p, info := 0, time := BitVec.ofNat 64 (tsOf s.now) }
  else if before = 0 ∧ after ≠ 0 ∧ s.othersHigh p = false then s.missRise (pageSrc p)
  else s

/-- The level line of a source that is no page: high while any of its codes stands (R387, R396). -/
def State.lineHigh (s : State) (n : Nat) : Bool :=
  (List.range 32).any (fun c => AMap.get false s.lookout.level (32 * n + c))

/-- A message of a source that is no page: RISE and FALL move its level line, PULSE does not (R387, R396). -/
def State.sourceMsg (s : State) (n code : Nat) (typ : MsgType) (kind : Nat) (info : Word) : State :=
  let rose := decide (typ = .rise) && !s.lineHigh n
  let s := match typ with
    | .rise => { s with lookout := { s.lookout with level := AMap.set false s.lookout.level (32 * n + code) true } }
    | .fall => { s with lookout := { s.lookout with level := AMap.set false s.lookout.level (32 * n + code) false } }
    | .pulse => s
  s.sendOn { src := n, code := code, typ := typ, kind := kind, inst := 0, info := info
             time := BitVec.ofNat 64 (tsOf s.now) } rose

/-- The latch of a first bad thing in a register, with a valid bit in bit 31: kept while the event bit that guards it
is set. -/
def State.latchFirst (s : State) (p evtBit o : Nat) (v : Word) : State :=
  if s.rbit p 0x10 evtBit then s else s.setReg p o v

/-- The number of a requester: host, West cluster, East cluster (02_registers.md R43). -/
def reqIdx : Requester → Nat
  | .host => 0 | .west => 1 | .east => 2

/-! ### Guards -/

/-- Do f when b holds; an event whose cause does not hold changes nothing (DEDUCED, log entry 1). -/
def State.onlyIf (s : State) (b : Bool) (f : State → State) : State := if b then f s else s

/-- The device runs: no thermal trip (15_firebreak_power.md R416), no reset pin held low (R450), no life-cycle wipe under way
(16_forester_security.md R445). -/
def State.live (s : State) : Bool :=
  !s.rst.tripped && s.rst.porstAt.isNone && s.rst.chipAt.isNone && s.fuses.wipeDone

/-- A half is out of reset (R456). -/
def State.halfUp (s : State) (h : Nat) : Bool := if h = 0 then !s.rst.half0 else !s.rst.half1

/-- A slice is out of reset, and its half too. -/
def State.sliceUp (s : State) (sl : Nat) : Bool :=
  !(AMap.get false s.rst.slices sl) && s.halfUp (sliceHalf sl)

/-- A page's block is out of a block reset. -/
def State.blockUp (s : State) (p : Nat) : Bool := !(AMap.get false s.rst.blocks p)

/-- Management I/O bank n senses its supply (18_pins_electrical.md R473): a bank that is off acts as absent. -/
def State.ioBank (s : State) (n : Nat) : Bool := s.rbit pgChip (Reg.ioSense n) 31

/-- A page's block operates: PG_CTRL.ENABLE is 1 (Table 14) and no reset of it runs. -/
def State.enabled (s : State) (p : Nat) : Bool := s.rbit p 0x08 1 && s.blockUp p

/-- A meaning of the always-on island: it acts in every state, and leaves the queue of commands that wait as it is. -/
def State.runAlways (s : State) (f : State → State) : Out := .next { f s with pending := s.pending }

/-- A meaning from a function of the state: it acts while the device runs (DEDUCED, log entry 1), and leaves the queue of
commands that wait as it is. -/
def State.run (s : State) (f : State → State) : Out :=
  .next { (if s.live then f s else s) with pending := s.pending }

end Sys2Proof.Machine
end

