-- ==== Sys2Proof/Machine/RegOps.lean ====
section
/-! DEFINITION. What a write loads into a register (02_registers.md R38, R39, Table 16): its writable bits, less those that
PG_LOCK locks. -/

namespace Sys2Proof.Machine

/-- PG_LOCK.LOCK of a page. -/
def State.locked (s : State) (p : Nat) : Bool := s.rbit p 0x18 0

/-- The word a register holds after a write of v: writable bits load, RWL bits of a locked page keep, bits that a written 1
sets are set, the rest keeps. -/
def State.masked (s : State) (p o : Nat) (v : Word) : Word :=
  match regSpec p o with
  | none => s.reg p o
  | some r =>
    let w := BitVec.ofNat 32 (if s.locked p then Nat.land r.w (2 ^ 32 - 1 - r.lk) else r.w)
    (s.reg p o &&& ~~~w) ||| (v &&& (w ||| BitVec.ofNat 32 r.w1s))

/-- Load a register with a written word under its masks. -/
def State.store (s : State) (p o : Nat) (v : Word) : State := s.setReg p o (s.masked p o v)

end Sys2Proof.Machine
end

