-- ==== Sys2Proof/Machine/BusOps.lean ====
section
/-! DEFINITION. The bus-error log (02_registers.md R42, R60, R491) and the fencing of cluster writes (16_forester_security.md
R428). -/

namespace Sys2Proof.Machine

/-- The kinds of Table 16. -/
abbrev beNarrow : Nat := 1
abbrev beWide : Nat := 2
abbrev beUnaligned : Nat := 3
abbrev beReserved : Nat := 4
abbrev beUnmapped : Nat := 5
abbrev beUnreachable : Nat := 6
abbrev beReadOnly : Nat := 7
abbrev beLocked : Nat := 8
abbrev beNotReady : Nat := 9
abbrev beWlost : Nat := 10
abbrev beFenced : Nat := 11

/-- Log a bus error (R60): the first since BERR was last clear fills BERR_ADDR and BERR_INFO; each counts. -/
def State.busError (s : State) (a : Access) (write : Bool) (kind : Nat) : State :=
  let s := if s.rbit pgChip 0x10 0 then s
    else
      (s.setReg pgChip Reg.berrAddr (BitVec.ofNat 32 (a.addr % 2 ^ 28))).setReg pgChip Reg.berrInfo
        (BitVec.ofNat 32 (kind + b2n write * 16 + reqIdx a.req * 32 + a.be % 16 * 256))
  (s.count pgChip Reg.berrCnt 1).raise pgChip 0

/-- The page and the offset that an access reaches. -/
def accPage (a : Access) : Nat := framePage (a.addr % 2 ^ 28 / 0x10000)
def accOff (a : Access) : Nat := a.addr % 0x10000

/-- The access of a requester to an offset of a page; a page that does not exist lies in a frame that holds none. -/
def accessTo (r : Requester) (p o : Nat) (v : Word) : Access :=
  { req := r, addr := (if (pageBlk p).isSome then pageFrame p else 0x7FF) * 0x10000 + o % 0x10000, value := v }

/-- A cluster. -/
def State.cluster (s : State) (c : Nat) : ClusterS := if c = 0 then s.forester.west else s.forester.east
def State.setCluster (s : State) (c : Nat) (x : ClusterS) : State :=
  { s with forester := if c = 0 then { s.forester with west := x } else { s.forester with east := x } }

/-- The cluster a requester is. -/
def reqCluster : Requester → Option Nat
  | .host => none | .west => some 0 | .east => some 1

/-- A cluster reaches the common blocks and the always-on island: West always, East over the Flume management channel
(01_architecture.md R20, R426). -/
def State.reachesAon (s : State) (c : Nat) : Bool := decide (c = 0) || s.flumeUp

/-- A cluster holds headship, runs and reaches the common blocks, so that it can act on them. -/
def State.headReaches (s : State) : Bool :=
  decide (s.forester.holder ≠ 0) && decide ((s.cluster (s.forester.holder - 1)).st = .head)
  && s.reachesAon (s.forester.holder - 1)

/-- A requester runs, so that it can access registers: the host does, and a cluster in BOOT, STANDBY or HEAD; one that is held in
reset, FENCED or FAILED runs nothing (R424, Table 163). -/
def State.runsOn (s : State) (r : Requester) : Bool :=
  match reqCluster r with
  | none => true
  | some c => decide ((s.cluster c).st = .boot ∨ (s.cluster c).st = .standby ∨ (s.cluster c).st = .head)

/-- Shared state of a cluster's writes (R428): every page but those of its own half. -/
def sharedPage (c p : Nat) : Bool := match pageHalf p with | some h => decide (h.val ≠ c) | none => true

/-- A write of a cluster that carries an EPOCH may change shared state: it is the holder, and the EPOCH is the present one. -/
def State.headNow (s : State) (c epoch : Nat) : Bool :=
  decide (s.forester.holder = c + 1 ∧ s.forester.epoch = epoch)

/-- The EPOCH that a requester's write carries: that at which a cluster last became head (R428). -/
def State.carried (s : State) (r : Requester) : Nat :=
  match reqCluster r with | some c => (s.cluster c).epoch | none => 0

/-- A cluster's write that carries an EPOCH may not change the page (R428). -/
def State.writeFenced (s : State) (r : Requester) (p epoch : Nat) : Bool :=
  match reqCluster r with
  | some c => sharedPage c p && !s.headNow c epoch
  | none => false

/-- A rejected write of a cluster to shared state (R428): logged as FENCED, PULSE with CODE 1 of source 20; a cluster that meets
it while HEAD enters FENCED. -/
def State.fenced (s : State) (c : Nat) (a : Access) : State :=
  let s := (s.busError a true beFenced).sourceMsg 20 1 .pulse 3 0
  if (s.cluster c).st = .head then (s.setCluster c { s.cluster c with st := .fenced }).raise pgForester 3 else s

/-- Answer reads, in order. -/
def State.answerAll (s : State) (f : State → Access → State) : List Held → State
  | [] => s
  | x :: xs => (f s x.acc).answerAll f xs

/-- A reset takes the posting buffers of the pages that sel holds of: the reads that waited for them end as f answers them. -/
def State.endReads (s : State) (sel : Nat → Bool) (f : State → Access → State) : State :=
  let hit := fun (x : Held) => !x.fenced && sel (accPage x.acc)
  let mine := s.bus.held.filter hit
  ({ s with bus := { s.bus with held := s.bus.held.filter (fun x => !hit x) } } : State).answerAll f mine

/-- What a read that waited for the posting buffer of a block in reset returns (R37, R53, R56): WIN_DATA belongs to the front
end and reads as it stands, a block that is not ready reads 0. -/
def State.readInReset (s : State) (a : Access) : State :=
  let w := if 0x8040 ≤ accOff a then s.reg (accPage a) (accOff a) else 0
  s.emit (.readData a.req (if a.size = 8 then [w, 0] else [w]))

/-- A read that waited for a page of a half that is reset finds it unreachable (R42). -/
def State.readLost (s : State) (a : Access) : State := (s.busError a false beUnreachable).emit (.readAbort a.req)

end Sys2Proof.Machine
end

