-- ==== Sys2Proof/Machine/FireOps.lean ====
section
/-! DEFINITION. What Firebreak has in force: effective depth, levers, Kerf steps, boost, deferral, pacing
(15_firebreak_power.md R406 to R412). -/

namespace Sys2Proof.Machine

/-! ### Averages of the estimate (R405) -/

/-- An average as it stands: a sum of samples and how many they are. -/
structure Avg where
  sum : Nat
  n   : Nat
  deriving DecidableEq, Repr

/-- The average of the latest n samples, or of those that exist (R405). -/
def avgOf (l : List Nat) (n : Nat) : Avg := let m := l.take n; { sum := m.sum, n := max 1 m.length }

/-- An average as a register of whole units shows it. -/
def Avg.floor (a : Avg) : Nat := a.sum / a.n
/-- The average is above x. -/
def Avg.above (a : Avg) (x : Nat) : Bool := decide (x * a.n < a.sum)
/-- The average is below x / k. -/
def Avg.below (a : Avg) (x k : Nat) : Bool := decide (a.sum * k < x * a.n)

/-! ### Events of the FIREBREAK page -/
abbrev evCapOn : Nat := 0
abbrev evCapOff : Nat := 1
abbrev evFloor : Nat := 2
abbrev evSoft : Nat := 3
abbrev evTempWarn : Nat := 4
abbrev evTempThr : Nat := 5
abbrev evHbmHot : Nat := 6
abbrev evUv : Nat := 7
abbrev evCalStale : Nat := 8
abbrev evPmbusErr : Nat := 9

/-! ### Caps (R408, Table 159) -/

/-- A cap in 0.25 W; 0 acts as 1,500 W (R408). -/
def State.capOf (s : State) (c : Cap) : Nat :=
  4 * orElse0 (s.rf pgFirebreak (match c with | .fast => Reg.fbCapFast | .sus => Reg.fbCapSus | .long => Reg.fbCapLong) 0 12) 1500

/-- Window average and check average of a cap (Table 159). -/
def State.capWindow (s : State) : Cap → Avg
  | .fast => avgOf s.fire.samples 10 | .sus => avgOf s.fire.samples 5000 | .long => avgOf s.fire.samples 500000

def State.capCheck (s : State) : Cap → Avg
  | .fast => avgOf s.fire.samples 1 | .sus => avgOf s.fire.samples 50 | .long => avgOf s.fire.samples 50

/-- The cap is breached (R408): its window average exceeds it. -/
def State.breached (s : State) (c : Cap) : Bool := (s.capWindow c).above (s.capOf c)

/-! ### Depth and levers -/

/-- Fixed-frequency mode (R412). -/
def State.fixedMode (s : State) : Bool := s.rbit pgFirebreak Reg.fbCtrl 0

/-- The effective depth: the greatest of the requesters' (R406); 0 in fixed-frequency mode (R412). -/
def State.effDepth (s : State) : Nat :=
  let f := s.fire
  if s.fixedMode then 0 else max f.dFast (max f.dSus (max f.dLong (max f.dTherm (max f.dUv f.dHint))))

/-- The Kerf step target of a depth (Table 158, R411). -/
def depthStep (depth : Nat) (boost : Bool) : Nat :=
  if depth = 0 then (if boost then 17 else 16) else if depth ≤ 2 then 16 else 16 - (depth - 2)

/-- The Kerf step target K. -/
def State.kTarget (s : State) : Nat :=
  depthStep s.effDepth (s.fire.boost && s.rbit pgFirebreak Reg.fbCtrl 1 && !s.fixedMode)

/-- MIN_STEP of a slice as it acts (R407). -/
def State.minStep (s : State) (sl : Nat) : Nat := max 8 (min 16 (s.rf pgFirebreak (Reg.fbSlice sl) 0 5))

/-- The step a slice runs at (R407, R412). -/
def State.kerfStep (s : State) (sl : Nat) : Nat := if s.fixedMode then 16 else max s.kTarget (s.minStep sl)

/-- The lowest Kerf step among the 32 slices (R422). -/
def State.lowStep (s : State) : Nat := (List.range 32).foldl (fun m sl => min m (s.kerfStep sl)) 17

/-- FB_STAT.CAPPED (R422): a cap, thermal or undervoltage controller holds a depth of 3 or more. -/
def State.capped (s : State) : Bool :=
  let f := s.fire
  !s.fixedMode && decide (3 ≤ max f.dFast (max f.dSus (max f.dLong (max f.dTherm f.dUv))))

/-- Background deferral is in force (R409, R412): depth 1 or more, unless its limit has been reached. -/
def State.deferred (s : State) : Bool := decide (1 ≤ s.effDepth) && decide (s.fire.deferFree ≤ s.clk.up)

/-- Tally pacing is in force in a half (R410, R412, R415). -/
def State.paced (s : State) (h : Nat) : Bool :=
  !s.fixedMode && (decide (2 ≤ s.effDepth) || AMap.get false s.fire.hbmHot h)

/-- Woodlot boost is permitted (R411). -/
def State.boostPermitted (s : State) : Bool := s.fire.boost && decide (s.effDepth = 0) && !s.fixedMode

/-- WOODLOT-EM event BOOST. -/
abbrev evBoost : Nat := 5

/-- The Woodlot clock of a half returns to 1.6 GHz at once when Firebreak withdraws its permission or BOOST_EN falls
(06_tables.md R172). -/
def State.boostSettle (s : State) (h : Nat) : State :=
  if (s.woodOf h).boost ∧ ¬(s.boostPermitted ∧ s.rbit (pgWlem h) Reg.wlCtrl 0) then
    (s.setWood h { s.woodOf h with boost := false }).raise (pgWlem h) evBoost
  else s

/-- A deferral that begins stops the background routine that the journal shows, but a reclaim, at a step boundary (R409). -/
def State.deferStop (s : State) (h : Nat) : State :=
  let pg := pgMaint h
  let w := s.woodOf h
  if [0x30, 0x31, 0x33, 0x34].contains (s.rf pg (Reg.jrnRoutine 1) 0 8) ∧ w.bgStop = false ∧ w.bgHeld = false then
    s.setReg pg (Reg.jrnExit 1) 1
  else s

/-- After a change of depths: boost, a change of K counted, the interval of deferral opened or closed. -/
def State.fireSettle (s : State) : State :=
  let s := (s.boostSettle 0).boostSettle 1
  let k := s.kTarget
  let s := if k = s.fire.kLast then s
    else ({ s with fire := { s.fire with kLast := k } } : State).count64 pgFirebreak Reg.fbStepChg 1
  match s.fire.deferFrom, s.deferred with
  | none, true => (({ s with fire := { s.fire with deferFrom := some s.clk.up } } : State).deferStop 0).deferStop 1
  | some t, false =>
    { s with fire := { s.fire with deferFrom := none, deferDone := s.fire.deferDone ++ [(t, s.clk.up)] } }
  | _, _ => s

/-- Nanoseconds of deferral since an always-on time. -/
def State.deferSince (s : State) (t : Nat) : Nat :=
  (s.fire.deferDone.map (fun x => x.2 - max x.1 t)).sum
  + (match s.fire.deferFrom with | some u => s.clk.up - max u t | none => 0)

/-- Nanoseconds of deferral in the last two seconds (R409). -/
def State.deferRecent (s : State) : Nat := s.deferSince (s.clk.up - 2000000000)

/-- A hint begins (R420, R421): while one waits or a window is open it lasts to the later end and raises nothing. The setpoint moves over
PMBus, which is absent while bank M1 is off (18_pins_electrical.md R473). -/
def State.hintStart (s : State) (us : Nat) : State :=
  if s.rbit pgFirebreak Reg.fbCtrl 2 then
    let s := s.count pgFirebreak Reg.fbHints 1
    let f := s.fire
    match f.hintEnd, f.hintPend with
    | some e, _ => { s with fire := { f with hintEnd := some (max e (s.clk.up + us * 1000)) } }
    | none, some x => { s with fire := { f with hintPend := some (max x.1 us, x.2) } }
    | none, none =>
      let dv := if s.ioBank 1 then s.rf pgFirebreak Reg.fbHintCfg 0 8 else 0
      { s with fire := { f with
          hintPend := some (us, s.clk.up), offset := dv, volt := if s.ioBank 1 then min 800 (f.base + dv) else f.volt } }
  else s

/-- HEAVY_US of FB_HINT_CFG. -/
def State.heavyUs (s : State) : Nat := s.rf pgFirebreak Reg.fbHintCfg 8 16

/-- The VDD_CORE base setpoint that the head takes (R420, R421), over PMBus: a hint in force keeps its offset. -/
def State.headSetpoint (s : State) : State :=
  let b := 700 + Config.setpoint s.freeCtr % 101
  ({ s with fire := { s.fire with base := b, volt := min 800 (b + s.fire.offset) } } : State).drawn

end Sys2Proof.Machine
end

