-- ==== Sys2Proof/Machine/Flags.lean ====
section
/-! DEFINITION. Checks and flags: cyclic redundancy checks (IEEE 802.3 FCS, CRC-32C, the 8-bit header check), ones'
complement sums, the control-store ECC of 05_parser_kerf.md R153, and the ALU flags of R146. -/

namespace Sys2Proof.Machine

/-- n steps of a reflected CRC: shift right, xor the polynomial when a 1 falls out. -/
def crcBits (poly : Nat) : Nat → Nat → Nat
  | c, 0 => c
  | c, n + 1 => crcBits poly (if c % 2 = 1 then Nat.xor (c / 2) poly else c / 2) n

/-- A reflected CRC register after a list of bytes. -/
def crcFeed (poly : Nat) : Nat → List Byte → Nat
  | c, [] => c
  | c, b :: bs => crcFeed poly (crcBits poly (Nat.xor c b.toNat) 8) bs

/-- CRC-32C of bytes from an initial value of the register (10_telemetry.md R306, 06_tables.md R175). -/
def crc32c (init : Nat) (bs : List Byte) : Nat := Nat.xor (crcFeed 0x82F63B78 init bs) 0xFFFFFFFF

/-- CRC-32C as the polynomial's own standard starts it. -/
def crc32cStd (bs : List Byte) : Nat := crc32c 0xFFFFFFFF bs

/-- The IEEE 802.3 frame check sequence as the four bytes sent (00_scope.md R11). -/
def fcs (bs : List Byte) : List Byte := leBytes 4 (Nat.xor (crcFeed 0xEDB88320 0xFFFFFFFF bs) 0xFFFFFFFF)

/-- Whether a frame's last four bytes are its FCS (R81 order 4). -/
def fcsGood (bs : List Byte) : Bool := decide (bs.drop (bs.length - 4) = fcs (bs.take (bs.length - 4)))

/-- The ones' complement of bytes: an inverted FCS (09_queues_forwarding.md R278). -/
def invert (bs : List Byte) : List Byte := bs.map (fun b => ~~~b)

/-- Ones' complement addition of 16-bit numbers. -/
def onesAdd (a b : Nat) : Nat := let x := a + b; if x < 65536 then x else x - 65535

/-- The ones' complement sum of big-endian 16-bit words of bytes; a last odd byte is the high one. -/
def onesSum : List Byte → Nat
  | [] => 0
  | [b] => b.toNat * 256
  | a :: b :: bs => onesAdd (a.toNat * 256 + b.toNat) (onesSum bs)

/-- Whether a number is a power of two. -/
def isPow2 : Nat → Nat → Bool
  | _, 0 => false
  | x, n + 1 => x = 2 ^ n || isPow2 x n

/-- The integers from x up that are not powers of two, n of them, looking at most fuel integers ahead. -/
def eccCols : Nat → Nat → Nat → List Nat
  | _, _, 0 => []
  | _, 0, _ => []
  | x, n + 1, fuel + 1 => if isPow2 x 10 then eccCols (x + 1) (n + 1) fuel else x :: eccCols (x + 1) n fuel

/-- The columns C(i) of R153, i = 0 to 309. -/
def eccColumns : List Nat := eccCols 3 310 330

/-- The xor of the columns of the data bits that are 1, bit i of the data with column i. -/
def eccXor (data : Nat) : Nat → List Nat → Nat
  | _, [] => 0
  | i, c :: cs => Nat.xor (if data / 2 ^ i % 2 = 1 then c else 0) (eccXor data (i + 1) cs)

/-- The parity of the low n bits of a number. -/
def parity : Nat → Nat → Nat
  | _, 0 => 0
  | x, n + 1 => (x % 2 + parity (x / 2) n) % 2

/-- ECC[9:0] of a microword's 310 data bits (R153). -/
def microEcc (data : Nat) : Nat :=
  let lo := eccXor data 0 eccColumns
  lo + 512 * ((parity data 310 + parity lo 9) % 2)

/-- The outcome of checking a stored microword: clean, one data bit to flip, a check bit wrong, or uncorrectable. -/
inductive EccCheck where
  | clean
  | flip (i : Nat)
  | check
  | bad
  deriving DecidableEq, Repr

/-- The position of a column in the list of columns. -/
def findCol (c : Nat) : Nat → List Nat → Option Nat
  | _, [] => none
  | i, x :: xs => if x = c then some i else findCol c (i + 1) xs

/-- Check a stored microword word (320 bits: data above bit 10, check bits below, R153). -/
def eccCheck (w : Nat) : EccCheck :=
  let data := w / 1024 % 2 ^ 310
  let e := w % 1024
  let syn := Nat.xor (e % 512) (eccXor data 0 eccColumns)
  let odd := (parity data 310 + parity e 10) % 2
  if syn = 0 ∧ odd = 0 then .clean
  else if odd = 1 then
    (if syn = 0 ∨ isPow2 syn 9 then .check
     else match findCol syn 0 eccColumns with | some i => .flip i | none => .bad)
  else .bad

/-- The flag of an ALU operation whose written result is the value r: 1 when it is zero (R146). -/
def flagZero (r : Nat) : Bool := decide (r = 0)

/-- The flag of DECTTL: the value before was 0 or 1 (Table 55). -/
def flagTtl (before : Nat) : Bool := decide (before ≤ 1)

/-- The flag of CSADD and CSADDR: the result is a ones' complement zero (Table 55). -/
def flagCs (r : Nat) : Bool := decide (r = 0 ∨ r = 0xFFFF)

end Sys2Proof.Machine
end

