-- ==== Sys2Proof/Machine/Operands.lean ====
section
/-! DEFINITION. The header vector and its fields (05_parser_kerf.md R134, R135, Table 49), and the operand forms of
the Kerf stages: key selectors (R145), ALU operands (R146), TCAM keys (R147). -/

namespace Sys2Proof.Machine

/-- The vector of a frame that no parser formed: every byte 0x00, the three offsets absent. -/
def plainVec : List Byte := List.replicate 268 0 ++ [0xFF, 0xFF, 0xFF] ++ List.replicate 49 0

/-- The vector of a frame that no parser formed: its first 256 bytes, every other byte as plainVec has it. -/
def dataVec (data : List Byte) : List Byte := bytesAt (data.take 256) 0 256 ++ plainVec.drop 256

/-- Byte i of a vector; a byte beyond 319 reads 0x00. -/
def vb (v : List Byte) (i : Nat) : Nat := if i < 320 then (byteAt v i).toNat else 0

/-- A big-endian field of n bytes of a vector. -/
def vBe (v : List Byte) (i n : Nat) : Nat := beNat (bytesAt v i n)

/-- Write n bytes of a vector, big-endian. -/
def vPut (v : List Byte) (i n x : Nat) : List Byte := putBytes v i (beBytes n x)

def vInPort (v : List Byte) : Nat := vBe v 264 2 % 1024
def vRing (v : List Byte) : Nat := vBe v 264 2 / 1024 % 4
/-- The vector with RING of SRC replaced (Table 49). -/
def vSetRing (v : List Byte) (r : Nat) : List Byte :=
  let b := (byteAt v 264).toNat
  vPut v 264 1 (b - b / 4 % 4 * 4 + r % 4 * 4)
def vTransit (v : List Byte) : Bool := vBe v 264 2 / 2 ^ 13 % 2 = 1
def vRaft (v : List Byte) : Bool := vBe v 264 2 / 2 ^ 14 % 2 = 1
def vInject (v : List Byte) : Bool := vBe v 264 2 / 2 ^ 15 % 2 = 1
def vFlen (v : List Byte) : Nat := vBe v 266 2 % 2 ^ 14
def vL3 (v : List Byte) : Nat := vb v 268
def vL4 (v : List Byte) : Nat := vb v 269
def vInner (v : List Byte) : Nat := vb v 270
def vPclass (v : List Byte) : Nat := vb v 271
def vPflags (v : List Byte) : Nat := vBe v 272 2
def vPerr (v : List Byte) : Nat := vb v 274
def vDtype (v : List Byte) : Nat := vb v 276 / 64
def vDest (v : List Byte) : Nat := vBe v 276 4 % 2 ^ 30
def vRaftDst (v : List Byte) : Nat := vBe v 280 4
def vDreason (v : List Byte) : Nat := vb v 284
def vPunt (v : List Byte) : Nat := vb v 285
def vTc (v : List Byte) : Nat := vb v 286 % 16
/-- COLOR; 3 acts as red. -/
def vColor (v : List Byte) : Nat := let c := vb v 286 / 16 % 4; if c = 3 then 2 else c
def vNocut (v : List Byte) : Bool := vb v 286 / 64 % 2 = 1
def vTagop (v : List Byte) : Nat := vb v 287 % 4
def vTag (v : List Byte) : Nat := vBe v 288 2
def vEncap (v : List Byte) : Bool := vBe v 290 2 / 1024 % 2 = 1
def vTemplate (v : List Byte) : Nat := vBe v 290 2 % 1024
def vVni (v : List Byte) : Nat := vBe v 292 3
def vCut (v : List Byte) : Nat := vb v 295
def vFlowHash (v : List Byte) : Nat := vBe v 296 4
/-- The PTP operation word, bytes 318 and 319 (10_telemetry.md R293). -/
def vPtp (v : List Byte) : Nat := vBe v 318 2

/-- The base offset a selector or operand address names: byte 0, L3_OFS, L4_OFS or INNER_OFS; none when the offset is
0xFF (R145). -/
def vBase (v : List Byte) (b : Nat) : Option Nat :=
  if b = 0 then some 0
  else let o := if b = 1 then vL3 v else if b = 2 then vL4 v else vInner v
       if o = 0xFF then none else some o

/-- The eight bytes of one key selector (R145). -/
def keyGroup (v : List Byte) (sel : Nat) : List Byte :=
  match vBase v (sel / 64 % 4) with
  | none => zeros 8
  | some b => (List.range 8).map (fun i => BitVec.ofNat 8 (vb v (b + 8 * (sel % 64) + i)))

/-- Bytes kept where a mask bit is 1, from bit i up (R145). -/
def maskBytes (m : Nat) : Nat → List Byte → List Byte
  | _, [] => []
  | i, b :: bs => (if m / 2 ^ i % 2 = 1 then b else 0) :: maskBytes m (i + 1) bs

/-- The 32-byte key of KEYSEL under a byte-mask profile (R145). -/
def formKey (v : List Byte) (keysel mask : Nat) : List Byte :=
  maskBytes mask 0 (keyGroup v (keysel % 256) ++ keyGroup v (keysel / 256 % 256)
    ++ keyGroup v (keysel / 65536 % 256) ++ keyGroup v (keysel / 2 ^ 24 % 256))

/-- The 40-byte TCAM key (R147). -/
def tcamKey (v : List Byte) (key : List Byte) : List Byte :=
  key ++ beBytes 8 (vInPort v * 2 ^ 54 + vPclass v * 2 ^ 46 + vPflags v * 2 ^ 30 + vTc v * 2 ^ 26
    + (vb v 286 / 16 % 4) * 2 ^ 24)

/-- Where an ALU operand lies (R146): vector bytes from an index, register bytes from an index, or nowhere, because
its base offset is 0xFF. -/
inductive OperandAt where
  | vec (i : Nat)
  | rbyte (i : Nat)
  | absent
  deriving DecidableEq, Repr

/-- Decode a 12-bit operand address: base [11:10], space [9], offset [8:0] (R146). -/
def operandAt (v : List Byte) (a : Nat) : OperandAt :=
  if a / 512 % 2 = 1 then .rbyte (a % 512)
  else match vBase v (a / 1024 % 4) with
    | none => .absent
    | some b => .vec (b + a % 512)

/-- Read an operand of n bytes; regs are the 32 register bytes. -/
def readOperand (v regs : List Byte) (n : Nat) : OperandAt → Nat
  | .vec i => beNat ((List.range n).map (fun k => BitVec.ofNat 8 (vb v (i + k))))
  | .rbyte i => beNat ((List.range n).map (fun k => if i + k < 32 then byteAt regs (i + k) else 0))
  | .absent => 0

/-- IMM to w bits: zero-extended, or sign-extended from its 9 bits (R146). -/
def immValue (zeroExt : Bool) (w imm : Nat) : Nat :=
  if zeroExt ∨ imm < 256 then imm % 2 ^ w else (imm + (2 ^ w - 512 % 2 ^ w)) % 2 ^ w

/-- Whether a vector byte can be written by an ALU: enabled by HVWR, and not in bytes 256 to 275 (R135, R148). -/
def writable (hvwr i : Nat) : Bool := decide (i < 320) && (hvwr / 2 ^ (i / 10) % 2 = 1) && !(256 ≤ i && i < 276)

/-- Write bytes from index i where they may be written; says also whether any write was suppressed (R148). A byte
beyond 319 is not written. -/
def writeVec (hvwr : Nat) (v : List Byte) (i : Nat) : List Byte → List Byte × Bool
  | [] => (v, false)
  | b :: bs =>
    let r := writeVec hvwr (if writable hvwr i then v.set i b else v) (i + 1) bs
    (r.1, r.2 || (decide (i < 320) && !writable hvwr i))

end Sys2Proof.Machine
end

