-- ==== Sys2Proof/Machine/Account.lean ====
section
/-! DEFINITION. Accounting of units (10_telemetry.md R297 to R312): the port-pair matrix, the histograms, the drop
pairs, and the update of a Tally flow cache. -/

namespace Sys2Proof.Machine

/-! ### Drop reasons (Table 112; Raft reasons of 11_raft.md, host reasons of Table 135) -/

abbrev rRunt : Nat := 0x01
abbrev rOversize : Nat := 0x02
abbrev rFcs : Nat := 0x03
abbrev rPcs : Nat := 0x04
abbrev rMacControl : Nat := 0x05
abbrev rOverrun : Nat := 0x06
abbrev rSpanType : Nat := 0x08
abbrev rSpanDefect : Nat := 0x09
abbrev rSpanUnpaired : Nat := 0x0A
abbrev rSpanHec : Nat := 0x0B
abbrev rSpanStomped : Nat := 0x0C
abbrev rNoDest : Nat := 0x10
abbrev rKerfEcc : Nat := 0x11
abbrev rMeterRed : Nat := 0x12
abbrev rRingUnknown : Nat := 0x13
abbrev rMcEmpty : Nat := 0x14
abbrev rReplFull : Nat := 0x15
abbrev rFlume : Nat := 0x18
abbrev rRingExpired : Nat := 0x20
abbrev rPortDown : Nat := 0x21
abbrev rBufferFull : Nat := 0x22
abbrev rAdmitW2 : Nat := 0x23
abbrev rAdmitYield : Nat := 0x24
abbrev rAdmitClass : Nat := 0x25
abbrev rAdmitPort : Nat := 0x26
abbrev rAdmitQueue : Nat := 0x27
abbrev rStall : Nat := 0x28
abbrev rDeckEcc : Nat := 0x29
abbrev rDeckReset : Nat := 0x2A
abbrev rLinkFlush : Nat := 0x30
abbrev rUnderrun : Nat := 0x31
abbrev rEncapBad : Nat := 0x32
abbrev rEgressOversize : Nat := 0x33
abbrev rHostNoQueue : Nat := 0x50
abbrev rHostRxqFull : Nat := 0x51
abbrev rHostQueueReset : Nat := 0x52
abbrev rHostLinkDown : Nat := 0x53

/-- A counter pair with one packet and n bytes more: 48-bit packets, 64-bit bytes (R300, R303). -/
def CPair.add (c : CPair) (n : Nat) : CPair :=
  { pkts := (c.pkts + 1) % 2 ^ 48, bytes := (c.bytes + n) % 2 ^ 64 }

/-- One unit of n bytes in a matrix cell, and in the totals (R300). -/
def State.matrixAdd (s : State) (h row col n : Nat) : State :=
  let m := s.matrixOf h
  let k := 1024 * row + col
  let s := s.setMatrix h { m with cells := AMap.set {} m.cells k ((AMap.get {} m.cells k).add n) }
  (s.count64 (pgMatrix h) Reg.mxTotalPkts 1).count64 (pgMatrix h) Reg.mxTotalBytes n

/-- One unit of n bytes in the drop pair of its reason and ingress slot (R303). -/
def State.dropPairAdd (s : State) (h reason src n : Nat) : State :=
  let m := s.matrixOf h
  let k := 1024 * reason + src
  s.setMatrix h { m with drops := AMap.set {} m.drops k ((AMap.get {} m.drops k).add n) }

/-- One count in a histogram entry of a queue of the half: bins 0 to 31, DROPPED as entry 32 (R302). -/
def State.histAdd (s : State) (h q entry : Nat) : State :=
  let m := s.matrixOf h
  let k := 64 * (q % 16384) + entry
  s.setMatrix h { m with hist := AMap.set 0 m.hist k ((AMap.get 0 m.hist k + 1) % 2 ^ 48) }

/-- The bin of a latency in nanoseconds (R302). -/
def latencyBin (t : Nat) : Nat := if t < 64 then 0 else min 31 (Nat.log2 (t / 64) + 1)

/-! ### Tally (R304 to R310) -/

/-- One byte of a Tally key (R304). -/
def tallyKeyByte (s : State) (h k : Nat) (v : List Byte) (i : Nat) : Byte :=
  let w := s.reg (pgTally h) (Reg.tyKsel k i)
  if bit w 11 = false then 0
  else match vBase v (fld w 9 2) with
    | none => 0
    | some b =>
      let a := b + fld w 0 9
      if a > 275 then 0
      else
        let x := (byteAt v a).toNat
        let x := if a = 264 then x - x / 4 % 4 * 4 else x
        BitVec.ofNat 8 (Nat.land x (fld w 16 8))

/-- The 32-byte key of a unit under a key profile (R304, R305). -/
def tallyKey (s : State) (h k : Nat) (v : List Byte) : List Byte :=
  (List.range 32).map (tallyKeyByte s h k v)

/-- A time in ms modulo 2^32, as FIRST and LAST hold it (Table 113). -/
def msOf (ns : Nat) : Nat := ns / 1000000 % 2 ^ 32

/-- Whether ms time a is at or after b, modulo 2^32. -/
def msAfter (a b : Nat) : Bool := decide ((a + 2 ^ 32 - b) % 2 ^ 32 < 2 ^ 31)

/-- A latency in units of 16 ns, saturating (Table 113). -/
def lat16 (t : Nat) : Nat := min (t / 16) 0xFFFF

/-- A record with one unit more (R307, R308); a record with no unit takes the unit's time as FIRST and LAST. -/
def FlowRec.addUnit (r : FlowRec) (u : UnitInfo) : FlowRec :=
  let ms := msOf u.ts
  { key := r.key
    pkts := r.pkts + 1
    bytes := r.bytes + u.len
    drops := r.drops + (if u.reason = 0 then 0 else 1)
    first := if r.pkts = 0 then ms else if msAfter ms r.first then r.first else ms
    last := if r.pkts = 0 then ms else if msAfter ms r.last then ms else r.last
    minL := match u.lat with | some t => min r.minL (lat16 t) | none => r.minL
    maxL := match u.lat with | some t => max r.maxL (lat16 t) | none => r.maxL
    flags := (Nat.lor (r.flags % 32) u.flags) + 256 * (if u.reason = 0 then r.flags / 256 else u.reason) }

/-- A unit of a slice's overflow record (R309); the counter at offset o counts it too: TY_ALOSS or TY_NOKEY. -/
def State.overflowAdd (s : State) (h i : Nat) (u : UnitInfo) (o : Nat) : State :=
  let pg := pgTally h
  let s := (s.count64 pg (Reg.tyOvfPkts i) 1).count64 pg (Reg.tyOvfBytes i) u.len
  let s := if u.reason = 0 then s else s.count64 pg (Reg.tyOvfDrops i) 1
  s.count64 pg o 1

/-- The line of slice i, set, way. -/
def lineKey (i set way : Nat) : Nat := i * 65536 + 16 * set + way

/-- The way of a set whose line has a key. -/
def findWay (t : TallyS) (i set : Nat) (key : List Byte) : Nat → Option Nat
  | 0 => none
  | n + 1 =>
    match findWay t i set key n with
    | some w => some w
    | none => match AMap.get none t.lines (lineKey i set n) with
      | some l => if l.rec_.key = key then some n else none
      | none => none

/-- The lowest way of a set that holds no line. -/
def freeWay (t : TallyS) (i set : Nat) : Nat → Option Nat
  | 0 => none
  | n + 1 =>
    match freeWay t i set n with
    | some w => some w
    | none => if (AMap.get none t.lines (lineKey i set n)).isNone then some n else none

/-- The least recently updated way of a full set. -/
def lruWay (t : TallyS) (i set : Nat) : Nat → Nat × Nat
  | 0 => (0, 2 ^ 64)
  | n + 1 =>
    let b := lruWay t i set n
    match AMap.get none t.lines (lineKey i set n) with
    | some l => if l.used < b.2 then (n, l.used) else b
    | none => b

/-- Put a line at a way. -/
def TallyS.setLine (t : TallyS) (i set way : Nat) (l : Option Line) : TallyS :=
  { t with lines := AMap.set none t.lines (lineKey i set way) l }

/-- H0[24:0] of a frame of a source slot, as the half where it came in forms it from the vector that left the ingress stages: the flow
index that a transfer carries (R306). -/
def State.flowHash (s : State) (src : Nat) (vec : List Byte) : Nat :=
  let g := portHalf src
  crc32c (s.tallyOf g).salt0.toNat (tallyKey s g (fld (s.reg (pgTally g) (Reg.tyPsel src)) 0 3) vec) % 2 ^ 25

/-- The flow index of a unit: the one it carried across Flume, or H0 in its own half (R306). -/
def State.flowIndex (s : State) (u : UnitInfo) : Nat :=
  match u.fidx with | some x => x | none => s.flowHash u.src u.vec

/-- A unit accounted in the cache of slice i of half h (R308, R309), in the set that its flow index selects (R306). -/
def State.cacheAdd (s : State) (h i : Nat) (u : UnitInfo) : State :=
  let pg := pgTally h
  if s.rbit pg Reg.tyCtrl 0 = false ∨ bit (s.reg pg (Reg.tyPsel u.src)) 3 then
    s.overflowAdd h i u (Reg.tyNokey i)
  else
    let t := s.tallyOf h
    let key := tallyKey s h (fld (s.reg pg (Reg.tyPsel u.src)) 0 3) u.vec
    let set := s.flowIndex u % 4096
    let t := { t with usedClk := t.usedClk + 1 }
    let fresh : Line :=
      { rec_ := FlowRec.addUnit { key := key } u, used := t.usedClk, dirty := some s.clk.up }
    match findWay t i set key 16 with
    | some w =>
      match AMap.get none t.lines (lineKey i set w) with
      | some l =>
        let l := { rec_ := l.rec_.addUnit u, used := t.usedClk
                   dirty := match l.dirty with | some d => some d | none => some s.clk.up }
        (s.setTally h (t.setLine i set w (some l))).count64 pg (Reg.tyHits i) 1
      | none => s
    | none =>
      let s := s.count64 pg (Reg.tyMisses i) 1
      match freeWay t i set 16 with
      | some w => s.setTally h (t.setLine i set w (some fresh))
      | none =>
        let w := (lruWay t i set 16).1
        match AMap.get none t.lines (lineKey i set w) with
        | none => s
        | some v =>
          if v.rec_.pkts = 0 then s.setTally h (t.setLine i set w (some fresh))
          else
            let q := AMap.get [] t.evq i
            if q.length < 32 then
              s.setTally h ((({ t with evq := AMap.set [] t.evq i (q ++ [(v.rec_, false)]) } : TallyS).setLine i set w
                (some fresh)))
            else s.overflowAdd h i u (Reg.tyAloss i)

/-! ### The unit's outcome (R297, Table 111) -/

/-- Account a unit in a matrix cell and, when dropped, in its drop pair. -/
def State.unitCounts (s : State) (h row : Nat) (u : UnitInfo) : State :=
  let s := s.matrixAdd h row u.src u.len
  if u.reason = 0 then s else s.dropPairAdd h u.reason u.src u.len

/-- A unit whose outcome is fixed at an egress port: transmitted, stomped, or dropped with a known queue (rows 1 and 2
of Table 111). -/
def State.accountEgress (s : State) (port : Nat) (u : UnitInfo) : State :=
  let h := portHalf port
  (s.unitCounts h (port % 512) u).cacheAdd h (portSlice port % 16) u

/-- A unit punted, or dropped at an ingress stage or in replication, in half h (row 3 of Table 111). -/
def State.accountNull (s : State) (h : Nat) (u : UnitInfo) : State :=
  let i := if portHalf u.src = h then portSlice u.src % 16 else 0
  (s.unitCounts h 512 u).cacheAdd h i u

/-- A unit dropped before its header vector exists (row 4 of Table 111). -/
def State.accountEarly (s : State) (u : UnitInfo) : State :=
  let h := portHalf u.src
  let i := portSlice u.src % 16
  (s.unitCounts h 512 u).overflowAdd h i u (Reg.tyNokey i)

/-- A FLUME_ERROR drop with an intact transfer header, for queue q (row 5 of Table 111). -/
def State.accountFlume (s : State) (q : Nat) (u : UnitInfo) : State :=
  let p := q / 32
  let h := portHalf p
  let i := portSlice p % 16
  (s.unitCounts h (p % 512) u).overflowAdd h i u (Reg.tyNokey i)

/-- A FLUME_ERROR accounted for a skipped sequence number (row 6 of Table 111). -/
def State.accountSkip (s : State) (h src : Nat) : State :=
  let u : UnitInfo := { src := src, reason := rFlume }
  (s.unitCounts h 512 u).overflowAdd h 0 u (Reg.tyNokey 0)

/-- Account a unit in its row of Table 111 and in its queue's histogram, on one edge (13_cruiser_counters.md R375). -/
def State.accountRow (s : State) (u : UnitInfo) (row : UnitRow) : State :=
  let s := match u.hist with | some (q, e) => s.histAdd (queueHalf q) q e | none => s
  match row with
  | .null h => s.accountNull h u
  | .egress port => s.accountEgress port u
  | .early => s.accountEarly u
  | .flume q => s.accountFlume q u

/-- Account the unit that frame f is, when its length is known: now, or when its tail is here (R297). -/
def State.accountUnit (s : State) (f : Frame) (row : UnitRow) (u : UnitInfo) : State :=
  if f.tail then s.accountRow u row
  else { s with unsettled := s.unsettled ++ [{ root := f.root, row := row, info := u }] }

/-- Account units that waited for their length. -/
def State.settleUnits (s : State) (len : Nat) : List Unsettled → State
  | [] => s
  | x :: xs => (s.accountRow { x.info with len := len } x.row).settleUnits len xs

/-- The length of a root's frames is known: the units of them that are accounted by now (R297). -/
def State.settleRoot (s : State) (root len : Nat) : State :=
  let due := s.unsettled.filter (fun x => decide (x.root = root))
  ({ s with unsettled := s.unsettled.filter (fun x => decide (x.root ≠ root)) } : State).settleUnits len due

/-- Where the frame's IP header is marked: at L3_OFS when it is present and not below CUT, with its version (08_deck_admission.md R254). -/
def ipAt (v : List Byte) (cut : Nat) (data : List Byte) : Option (Nat × Nat) :=
  let o := vL3 v
  let ver := (byteAt data o).toNat / 16
  if o ≠ 0xFF ∧ cut ≤ o ∧ (ver = 4 ∨ ver = 6) then some (o, ver) else none

/-- The ECN field of an IP header of a version at offset o. -/
def ecnField (data : List Byte) (o ver : Nat) : Nat :=
  let b := (byteAt data (o + 1)).toNat
  if ver = 4 then b % 4 else b / 16 % 4

/-- A frame's data as the stages leave it, without its FCS (05_parser_kerf.md R162). -/
def Frame.dataOut (f : Frame) : List Byte :=
  (f.vec.take (min 256 f.data.length) ++ f.data.drop 256).take (f.len - 4)

/-- The frame is ECN-marked: it was marked at admission, and is ECN-capable (R254). -/
def Frame.marked (f : Frame) : Bool :=
  f.ecn && (match ipAt f.vec (vCut f.vec) f.dataOut with | some x => decide (ecnField f.dataOut x.1 x.2 ≠ 0) | none => false)

/-- What accounting needs of a frame, with its outcome. -/
def Frame.unitInfo (f : Frame) (reason : Nat) (lat : Option Nat) : UnitInfo :=
  { vec := f.vecIn, src := f.src, len := f.len, reason := reason, ts := f.ts, lat := lat, fidx := f.fidx
    flags := b2n f.marked + 2 * b2n (decide (reason ≠ 0 ∧ f.started)) + 4 * b2n f.punted
      + 8 * b2n (decide (f.kind = .copy)) + 16 * b2n (vTransit f.vecIn) }

/-- A holder of a ring ends in half h (07_rings.md R230). -/
def State.endHolder (s : State) (h ring : Nat) : State :=
  let k := 4 * h + ring
  { s with inflight := AMap.set 0 s.inflight k (AMap.get 0 s.inflight k - 1) }

/-- A holder of a ring begins in half h, counted in RS_STAMPED (R230, Table 90). -/
def State.beginHolder (s : State) (h ring : Nat) : State :=
  let k := 4 * h + ring
  ({ s with inflight := AMap.set 0 s.inflight k (AMap.get 0 s.inflight k + 1) } : State).count64 pgRing
    (Reg.rsStamped ring) 1

/-- A holder crosses from one half to the other (R230). -/
def State.moveHolder (s : State) (a b ring : Nat) : State :=
  if a = b then s
  else
    let s := s.endHolder a ring
    let k := 4 * b + ring
    { s with inflight := AMap.set 0 s.inflight k (AMap.get 0 s.inflight k + 1) }

end Sys2Proof.Machine
end

