-- ==== Sys2Proof/Machine/DeckOps.lean ====
section
/-! DEFINITION. The shared operations of Deck (08_deck_admission.md): free lists and caches (R239, R240), owner tags
and frees (R242, R243), the free count and levels (R241, R249), occupancies (R251, R269), PFC state (R255). -/

namespace Sys2Proof.Machine

/-- Cells of a half (R237). -/
abbrev cellCount : Nat := 786432
/-- Rows of a bank (R237). -/
abbrev rowCount : Nat := 12288

/-- The tag of a frame held for a queue of the half (Table 92). -/
def queueTag (q : Nat) : Nat := 0x4000 + q % 16384

/-! ### Free levels (R249) -/

/-- The level after DK_FREE has become free, from the level before: thresholds nest, W1 and W2 are left above their
threshold plus DK_HYST, ZERO above DK_ZERO plus 40. -/
def nextLevel (w1 w2 w3 hyst level free : Nat) : Nat :=
  let w2' := min w2 w1
  let z' := min w3 w2'
  let l := if level = 3 ∧ free > z' + 40 then 2 else level
  let l := if l = 2 ∧ free > w2' + hyst then 1 else l
  let l := if l = 1 ∧ free > w1 + hyst then 0 else l
  if free ≤ z' then 3 else if free ≤ w2' then max l 2 else if free ≤ w1 then max l 1 else l

/-! ### PFC state (R255) -/

/-- The key of a PFC count: port and priority (R255). -/
def pfcKey (p r : Nat) : Nat := 8 * p + r

/-- The PFC priority of a frame: TC[2:0] as the ingress stages left it (R255). -/
def Frame.prio (f : Frame) : Nat := vTc f.vecIn % 8

/-- The rate of a port mode in Gb/s (03_lanes_ports.md Table 23). -/
def modeGbps (m : Nat) : Nat :=
  if m = 1 then 10 else if m = 2 then 25 else if m = 3 then 50 else if m = 4 then 100 else if m = 5 then 200
  else if m = 6 then 400 else if m = 7 then 800 else if m = 8 then 1600 else 0

/-- The rate of the configuration a port runs. -/
def State.portGbps (s : State) (p : Nat) : Nat := modeGbps (fld (s.port p).cfg 2 4)

/-- Bytes in a slice's ingress FIFO (R30). -/
def State.fifoFill (s : State) (sl : Nat) : Nat := ((s.slice sl).fifo.map (fun i => (s.frame i).len)).sum

/-- Cells of (p, r) in a half. -/
def State.pfcCount (s : State) (h p r : Nat) : Nat := AMap.get 0 (s.deckOf h).pfc (pfcKey p r)

/-- A condition of R255 to enter XOFF. -/
def State.xoffEnter (s : State) (p r : Nat) : Bool :=
  let pg := pgAdmit (portHalf p)
  let xoff := s.rf pg (Reg.adPfcTh p) 0 16
  decide (xoff ≤ s.pfcCount 0 p r) || decide (xoff ≤ s.pfcCount 1 p r)
  || decide (s.rf pg Reg.adPfcGlb 0 7 * 1024 ≤ s.fifoFill (portSlice p))
  || (decide (s.pfcCount 0 p r ≠ 0 ∧ 1 ≤ (s.deckOf 0).level) && s.rbit (pgDeck 0) Reg.dkCtrl 1)
  || (decide (s.pfcCount 1 p r ≠ 0 ∧ 1 ≤ (s.deckOf 1).level) && s.rbit (pgDeck 1) Reg.dkCtrl 1)

/-- The conditions of R255 to leave XOFF; an XON threshold at or above its XOFF threshold acts as XOFF - 1, so that with an XOFF of 0 none
is low enough. A half with DK_CTRL.PFC_W1 = 0 keeps none in XOFF, also when the bit has been cleared meanwhile (DESIGN CHOICE, log entry
93). -/
def State.xoffLeave (s : State) (p r : Nat) : Bool :=
  let pg := pgAdmit (portHalf p)
  let xoff := s.rf pg (Reg.adPfcTh p) 0 16
  let below := let x := s.rf pg (Reg.adPfcTh p) 16 16; if xoff ≤ x then xoff else x + 1
  let foff := s.rf pg Reg.adPfcGlb 0 7
  let fon := let x := s.rf pg Reg.adPfcGlb 8 7; if foff ≤ x then foff - 1 else x
  decide (s.pfcCount 0 p r < below) && decide (s.pfcCount 1 p r < below)
  && decide (s.fifoFill (portSlice p) < fon * 1024)
  && (decide (s.pfcCount 0 p r = 0 ∨ (s.deckOf 0).level = 0) || !s.rbit (pgDeck 0) Reg.dkCtrl 1)
  && (decide (s.pfcCount 1 p r = 0 ∨ (s.deckOf 1).level = 0) || !s.rbit (pgDeck 1) Reg.dkCtrl 1)

/-- Port p is a port PFC acts on, with priority r enabled: Ethernet and EN bit r (R255). -/
def State.pfcOn (s : State) (p r : Nat) : Bool :=
  s.rbit (pgAdmit (portHalf p)) (Reg.adPfc p) r && decide (fld (s.port p).cfg 6 2 = 0)

/-- Evaluate XOFF of one priority of a port: a change makes a PFC frame due, and entering sets XOFF_ON (R255, R256). -/
def State.pfcEval (s : State) (p r : Nat) : State :=
  let x := AMap.get {} s.pfcTx p
  let cur := AMap.get false x.xoff r
  let on := s.pfcOn p r
  let nxt := on && (if cur then !s.xoffLeave p r else s.xoffEnter p r)
  if nxt = cur then s
  else
    let x := { x with xoff := AMap.set false x.xoff r nxt, due := AMap.set false x.due r true }
    let s := { s with pfcTx := AMap.set {} s.pfcTx p x }
    s.raiseIf nxt (pgAdmit (portHalf p)) 0

/-- Evaluate XOFF of a list of priorities of a port. -/
def State.pfcEvalAll (s : State) (p : Nat) : List Nat → State
  | [] => s
  | r :: rs => (s.pfcEval p r).pfcEvalAll p rs

/-- The ports that PFC may act on: those with a count in a half, or with a transmitter in XOFF or due. -/
def State.pfcPorts (s : State) : List Nat :=
  (s.deckOf 0).pfc.map (fun e => e.1 / 8) ++ (s.deckOf 1).pfc.map (fun e => e.1 / 8) ++ s.pfcTx.map (fun e => e.1)

/-- Evaluate XOFF of every priority of a list of ports. -/
def State.pfcEvals (s : State) : List Nat → State
  | [] => s
  | p :: ps => (s.pfcEvalAll p (List.range 8)).pfcEvals ps

/-- Evaluate a half's level from DK_FREE, with the events and counts of the levels entered (R249); XOFF follows W1 (R255). -/
def State.relevel (s : State) (h : Nat) : State :=
  let pg := pgDeck h
  let d := s.deckOf h
  let l := nextLevel (s.rf pg Reg.dkW1 0 20) (s.rf pg Reg.dkW2 0 20) (s.rf pg Reg.dkZero 0 20)
    (s.rf pg Reg.dkHyst 0 16) d.level d.free
  let s := if d.free < s.rf pg Reg.dkMinFree 0 20 then s.setRf pg Reg.dkMinFree 0 20 d.free else s
  if l = d.level then s
  else
    let s := s.setDeck h { d with level := l }
    let ent := fun k => decide (d.level < k ∧ k ≤ l)
    let s := if ent 1 then s.count pg Reg.dkW1Entries 1 else s
    let s := if ent 2 then s.count pg Reg.dkW2Entries 1 else s
    let s := if ent 3 then s.count pg Reg.dkZeroEntries 1 else s
    let s := s.raiseAll pg (([1, 2, 3].filter ent).map (· - 1) ++ (if l = 0 then [3] else [])) 0
    if d.level = 0 ∨ l = 0 then s.pfcEvals s.pfcPorts else s

/-! ### Free lists (R239, R240) -/

/-- Whether a row of every bank lies in an active pool (R247: pools start and end on row boundaries). -/
def rowInPool (pools : AMap Pool) (row : Nat) : Bool :=
  pools.any (fun e => decide (e.2.base ≤ 64 * row ∧ 64 * row < e.2.base + e.2.size))

/-- The end of the pool that holds a row, as a row. -/
def poolEnd (pools : AMap Pool) (row : Nat) : Nat :=
  match pools.find? (fun e => decide (e.2.base ≤ 64 * row ∧ 64 * row < e.2.base + e.2.size)) with
  | some e => (e.2.base + e.2.size) / 64
  | none => row

/-- The first row from row on that lies in no active pool; at most eight pools are skipped (R247, R259). -/
def skipPools (pools : AMap Pool) : Nat → Nat → Nat
  | row, 0 => row
  | row, n + 1 => if rowInPool pools row then skipPools pools (poolEnd pools row) n else row

/-- Take the head cell of list i: the next cell of the run that initialisation threaded, then the cells freed since. -/
def FList.pop (l : FList) (pools : AMap Pool) (i : Nat) : Option (Nat × FList) :=
  let row := skipPools pools l.row 8
  if row < rowCount then some (64 * row + i, { l with row := row + 1 })
  else match l.ret with
    | [] => none
    | c :: cs => some (c, { l with row := row, ret := cs })

/-- Whether list i has a cell outside its cache. -/
def FList.hasMore (l : FList) (pools : AMap Pool) : Bool :=
  decide (skipPools pools l.row 8 < rowCount) || !l.ret.isEmpty

/-- Rows from row on that lie in no active pool. -/
def freshRows (pools : AMap Pool) (row : Nat) : Nat :=
  rowCount - row - (pools.map (fun e => (e.2.base + e.2.size) / 64 - max row (min (e.2.base / 64)
    ((e.2.base + e.2.size) / 64)))).sum

/-- Cells on a list and in its cache (DK_LIST [13:0]). -/
def FList.cells (l : FList) (pools : AMap Pool) : Nat :=
  freshRows pools (skipPools pools l.row 8) + l.ret.length + l.cache.length

/-- Refill a cache: one head cell while it holds fewer than 8 pointers (R240); twice in one Deck cycle. -/
def FList.refill1 (l : FList) (pools : AMap Pool) (i : Nat) : FList :=
  if l.cache.length < 8 ∧ l.broken = false then
    match l.pop pools i with
    | some (c, l') => { l' with cache := l'.cache ++ [c] }
    | none => l
  else l

def DeckS.list (d : DeckS) (i : Nat) : FList := AMap.get {} d.lists i
def DeckS.setList (d : DeckS) (i : Nat) (l : FList) : DeckS := { d with lists := AMap.set {} d.lists i l }
def DeckS.tag (d : DeckS) (c : Nat) : Nat := AMap.get 0 d.tags c
def DeckS.setTag (d : DeckS) (c t : Nat) : DeckS := { d with tags := AMap.set 0 d.tags c t }

/-- A pointer placed in the cache of list i, when allocation may take it: every requester that holds EMPTY asks again (R245, R246). One that
is not granted then has held its frame all the while. -/
def DeckS.supplied (d : DeckS) (i : Nat) : DeckS :=
  if (d.list i).cache.isEmpty ∨ (d.list i).broken then d
  else { d with hold := [], since := d.hold.foldl (fun m e => if e.2.isSome then AMap.set none m e.1 e.2 else m) d.since }

/-- A freed cell returns to its bank's cache, or to the tail of its list (R240). -/
def DeckS.giveBack (d : DeckS) (c : Nat) : DeckS :=
  let l := d.list (c % 64)
  (d.setList (c % 64) (if l.cache.length < 16 then { l with cache := l.cache ++ [c] }
    else { l with ret := l.ret ++ [c] })).supplied (c % 64)

/-- The first list from list i on, of n lists, whose cache holds a pointer and which is not BROKEN (R245). -/
def DeckS.nextList (d : DeckS) : Nat → Nat → Option Nat
  | _, 0 => none
  | i, n + 1 =>
    let l := d.list (i % 64)
    if l.cache.isEmpty ∨ l.broken then d.nextList (i + 1) n else some (i % 64)

/-- Take the pointer of a list's cache and write the owner tag (R240, R242). -/
def DeckS.takeFrom (d : DeckS) (i tag : Nat) : Option (Nat × DeckS) :=
  let l := d.list i
  match l.cache with
  | [] => none
  | c :: cs =>
    some (c, { (d.setList i { l with cache := cs }).setTag c tag with free := d.free - 1 })

/-! ### Frees (R243) -/

/-- A rejected free: counted, latched when the first since BAD_FREE was clear, and reported (R243). -/
def State.badFree (s : State) (h rq cell tag stored : Nat) : State :=
  let pg := pgDeck h
  let s := s.count pg Reg.dkBadFree 1
  let s := s.latchFirst pg 4 Reg.dkBfInfo
    (BitVec.ofNat 32 (cell % 2 ^ 20 + rq % 32 * 2 ^ 20 + b2n (decide (stored = 0)) * 2 ^ 25 + 2 ^ 31))
  let s := s.latchFirst pg 4 Reg.dkBfTag (BitVec.ofNat 32 (tag % 65536 + stored % 65536 * 65536))
  s.raise pg 4

/-- A free request of requester rq for a cell, with the tag it presents (R243). A pool cell's free clears its bitmap
bit, which is its tag, and does not enter a list (R248). -/
def State.freeCell (s : State) (h rq cell tag : Nat) : State :=
  let d := s.deckOf h
  let stored := d.tag cell
  if stored = tag ∧ stored ≠ 0 ∧ stored ≠ 0xFFFF then
    if 0x8000 ≤ tag ∧ tag < 0x8008 then s.setDeck h (d.setTag cell 0)
    else
      (s.setDeck h { (d.setTag cell 0).giveBack cell with free := d.free + 1 }).relevel h
  else s.badFree h rq cell tag stored

/-! ### Occupancies (R251, R269) -/

/-- Charge n cells to a queue's counts. -/
def DeckS.chargeQueue (d : DeckS) (q n : Nat) : DeckS :=
  let k := q % 16384
  { d with qocc := AMap.set 0 d.qocc k (AMap.get 0 d.qocc k + n)
           pocc := AMap.set 0 d.pocc (k / 32) (AMap.get 0 d.pocc (k / 32) + n)
           cocc := AMap.set 0 d.cocc (k % 32) (AMap.get 0 d.cocc (k % 32) + n) }

/-- Take back n cells from a queue's counts. -/
def DeckS.unchargeQueue (d : DeckS) (q n : Nat) : DeckS :=
  let k := q % 16384
  { d with qocc := AMap.set 0 d.qocc k (AMap.get 0 d.qocc k - n)
           pocc := AMap.set 0 d.pocc (k / 32) (AMap.get 0 d.pocc (k / 32) - n)
           cocc := AMap.set 0 d.cocc (k % 32) (AMap.get 0 d.cocc (k % 32) - n) }

/-- Charge n cells to a class alone (R269, frames that wait for replication). -/
def DeckS.chargeClass (d : DeckS) (c n : Nat) : DeckS :=
  { d with cocc := AMap.set 0 d.cocc c (AMap.get 0 d.cocc c + n) }

def DeckS.unchargeClass (d : DeckS) (c n : Nat) : DeckS :=
  { d with cocc := AMap.set 0 d.cocc c (AMap.get 0 d.cocc c - n) }

/-- Add n cells to the PFC count of a received frame in a half, and evaluate its priority. -/
def State.pfcAdd (s : State) (h : Nat) (f : Frame) (n : Nat) : State :=
  if f.kind = .received then
    let d := s.deckOf h
    let k := pfcKey f.src f.prio
    (s.setDeck h { d with pfc := AMap.set 0 d.pfc k (AMap.get 0 d.pfc k + n) }).pfcEval f.src f.prio
  else s

/-- Take n cells from the PFC count of a received frame. -/
def State.pfcSub (s : State) (h : Nat) (f : Frame) (n : Nat) : State :=
  if f.kind = .received then
    let d := s.deckOf h
    let k := pfcKey f.src f.prio
    (s.setDeck h { d with pfc := AMap.set 0 d.pfc k (AMap.get 0 d.pfc k - n) }).pfcEval f.src f.prio
  else s

/-! ### Cells of a frame -/

/-- Cells a frame of n bytes occupies (R238). -/
def cellsOf (n : Nat) : Nat := (n + 255) / 256

/-- Free a list of cells with one presented tag. -/
def State.freeCells (s : State) (h rq tag : Nat) : List Nat → State
  | [] => s
  | c :: cs => (s.freeCell h rq c tag).freeCells h rq tag cs

/-- The frame of a half that holds a cell. -/
def State.holderOf (s : State) (h cell : Nat) : Option Nat :=
  (s.frames.find? (fun e => match e.2 with
    | some f => decide (f.half = h) && f.cells.contains cell
    | none => false)).map (·.1)

/-- Frame i loses a cell that it holds: the charges of that cell end (R251, R255, R269; HQ_HELD of a punt). -/
def State.loseCell (s : State) (i cell : Nat) : State :=
  let f := s.frame i
  let h := f.half
  let s := s.setFrame i { f with cells := f.cells.filter (fun c => decide (c ≠ cell)) }
  let s := if 0x4000 ≤ f.tag ∧ f.tag < 0x8000 then s.setDeck h ((s.deckOf h).unchargeQueue f.q 1)
    else if f.tag = 0xC001 then s.setHq f.q { s.hq f.q with heldN := (s.hq f.q).heldN - 1 }
    else if f.enq then s.setDeck h ((s.deckOf h).unchargeClass (16 + vTc f.vecIn) 1) else s
  s.pfcSub h f 1

/-- A free request from outside the frame's own path (R243): when it is performed on a cell that a frame holds, the frame loses
the cell; its own later free of it presents the tag all the same. -/
def State.freeStray (s : State) (h rq cell tag : Nat) : State :=
  let stored := (s.deckOf h).tag cell
  let who := if stored = tag ∧ stored ≠ 0 ∧ stored ≠ 0xFFFF then s.holderOf h cell else none
  let s := match who with
    | some i =>
      let s := s.loseCell i cell
      s.setFrame i { s.frame i with freed := (s.frame i).freed ++ [cell] }
    | none => s
  s.freeCell h rq cell tag

/-- Present cells that were freed before by another request (R243). -/
def State.freeStrays (s : State) (h rq tag : Nat) : List Nat → State
  | [] => s
  | c :: cs => (s.freeStray h rq c tag).freeStrays h rq tag cs

/-- Free every cell a frame holds, with its charges: the queue's counts for a queue tag, the punt path's HQ_HELD by
the caller, the PFC count of its port and priority. -/
def State.releaseCells (s : State) (f : Frame) (rq : Nat) : State :=
  let n := f.cells.length
  let s := s.freeCells f.half rq f.tag f.cells
  let s := if 0x4000 ≤ f.tag ∧ f.tag < 0x8000 then
      s.setDeck f.half ((s.deckOf f.half).unchargeQueue f.q n) else s
  let s := if n = 0 then s else s.pfcSub f.half f n
  s.freeStrays f.half rq f.tag f.freed

/-- Frames that wait at a requester, without one of them. -/
def DeckS.stopWaiting (d : DeckS) (rq i : Nat) : DeckS :=
  let w := (AMap.get [] d.waiting rq).filter (fun j => decide (j ≠ i))
  { d with waiting := AMap.set [] d.waiting rq w
           hold := if (AMap.get [] d.waiting rq).head? = some i then AMap.set none d.hold rq none else d.hold
           since := if (AMap.get [] d.waiting rq).head? = some i then AMap.set none d.since rq none else d.since }

end Sys2Proof.Machine
end

