-- ==== Sys2Proof/Machine/HostOps.lean ====
section
/-! DEFINITION. Shared operations of the DMA queues (12_host_interface.md): interrupts (R366), completions (R354),
notices (R365), errors and resets (R348, R367). -/

namespace Sys2Proof.Machine

/-- Whether the device may issue DMA requests (R348). -/
def State.dmaOk (s : State) : Bool := s.host.linkUp && s.host.bme && !s.host.d3hot

/-- A word of queue i's register block. -/
def State.hqReg (s : State) (i : Nat) (o : Nat → Nat) : Word := s.reg (pgQueue i) (o (i % 32))

def State.setHqReg (s : State) (i : Nat) (o : Nat → Nat) (v : Nat) : State :=
  s.setReg (pgQueue i) (o (i % 32)) (BitVec.ofNat 32 v)

def State.hqHead (s : State) (i : Nat) : Nat := fld (s.hqReg i Reg.hqHead) 0 16
def State.hqTail (s : State) (i : Nat) : Nat := fld (s.hqReg i Reg.hqTail) 0 16

/-- Entries of a queue's ring (R350). -/
def HostQ.size (q : HostQ) : Nat := 2 ^ q.log2

/-- LOG2SIZE as it acts: 6 to 15 (R350). -/
def log2Acts (x : Nat) : Nat := if x < 6 then 6 else if 15 < x then 15 else x

/-- Descriptors between HEAD and TAIL, modulo 65,536 (R352). -/
def State.hqSpan (s : State) (i : Nat) : Nat := (s.hqTail i + 65536 - s.hqHead i) % 65536

/-- Address of entry k of a queue's ring (R350). -/
def HostQ.entry (q : HostQ) (k : Nat) : Nat := q.baseRun + 32 * (k % q.size)

/-- HOLDOFF in nanoseconds. -/
def State.holdoff (s : State) (i : Nat) : Nat := fld (s.hqReg i Reg.hqIrq) 24 8 * 1000

/-! ### MSI-X (R346, R347) -/

/-- A vector's message: sent, or held as its pending bit while its entry or the function masks it (R347, R366). A function whose MSI-X
is disabled sends none (R346). -/
def State.msix (s : State) (v : Nat) : State :=
  let m := s.host.msix
  if s.host.cfg.msixOn = false then s
  else if AMap.get false m.clear v && !s.host.cfg.msixMask then s.emit (.msix v)
  else { s with host := { s.host with msix := { m with pend := AMap.set false m.pend v true } } }

/-- Vector Control of an entry written: a vector that is no longer masked sends the message that its pending bit holds. -/
def State.msixMask (s : State) (v : Nat) (masked : Bool) : State :=
  let m := s.host.msix
  let due := !masked && AMap.get false m.pend v && s.host.cfg.msixOn && !s.host.cfg.msixMask
  let s : State := { s with host := { s.host with msix := { m with
    clear := AMap.set false m.clear v (!masked), pend := if due then AMap.set false m.pend v false else m.pend } } }
  if due then s.emit (.msix v) else s

/-- Sum of 2^i over the i below n that p holds of: a bit map. -/
def bitMap (n : Nat) (p : Nat → Bool) : Nat := ((List.range n).map (fun i => b2n (p i) * 2 ^ i)).sum

/-- Word k of BAR2: table entry k / 4 below 0x4000, the pending bits from there on, 0 beyond (Table 131). -/
def MsixS.word (m : MsixS) (k : Nat) : Word :=
  if k < 4096 then (if k % 4 = 3 then BitVec.ofNat 32 (b2n (!AMap.get false m.clear (k / 4))) else AMap.get 0 m.table k)
  else if k < 4128 then BitVec.ofNat 32 (bitMap 32 (fun i => AMap.get false m.pend (32 * (k - 4096) + i)))
  else 0

/-- The bytes of a word that four byte enables name. -/
def beMask (be : Nat) : Word :=
  BitVec.ofNat 32 (be % 2 * 0xFF + be / 2 % 2 * 0xFF00 + be / 4 % 2 * 0xFF0000 + be / 8 % 2 * 0xFF000000)

/-- A write of word k of BAR2: the pending bits and what lies beyond them are read-only. -/
def State.bar2Write (s : State) (k be : Nat) (v : Word) : State :=
  let m := s.host.msix
  let x := (m.word k &&& ~~~beMask be) ||| (v &&& beMask be)
  if 4096 ≤ k then s
  else if k % 4 = 3 then s.msixMask (k / 4) (bit x 0)
  else { s with host := { s.host with msix := { m with table := AMap.set 0 m.table k x } } }

/-- A read of BAR2: one word, or two. -/
def State.bar2Read (s : State) (k size : Nat) : State :=
  let m := s.host.msix
  s.emit (.readData .host (if size = 8 then [m.word k, m.word (k + 1)] else [m.word k]))

/-- The MSI-X vector of a queue: VECTOR below 512 acts as 512 + VECTOR (R347). -/
def State.hqVector (s : State) (i : Nat) : Nat :=
  let v := fld (s.hqReg i Reg.hqIrq) 0 10
  if v < 512 then 512 + v else v

/-- Signal a queue's vector (R366). -/
def State.hqSignal (s : State) (i : Nat) : State :=
  let q := s.hq i
  (s.setHq i { q with since := 0, pending := false, lastSig := some s.clk.up }).msix (s.hqVector i)

/-- HOLDOFF has passed since the queue's last signal (R366). -/
def State.hqQuiet (s : State) (i : Nat) : Bool :=
  match (s.hq i).lastSig with | none => true | some t => decide (t + s.holdoff i ≤ s.clk.up)

/-- A completion or notice of a queue (R366): it makes the queue pending when it has IRQ set or COUNT have gathered,
and a pending queue signals at once when HOLDOFF has passed since its last signal. -/
def State.hqCompleted (s : State) (i : Nat) (irq : Bool) : State :=
  let q := s.hq i
  let q := { q with since := q.since + 1, firstAt := if q.since = 0 then s.clk.up else q.firstAt }
  let w := s.hqReg i Reg.hqIrq
  let pend := q.pending || irq || decide (orElse0 (fld w 16 8) 1 ≤ q.since)
  let s := s.setHq i { q with pending := pend }
  if bit w 10 ∧ pend ∧ s.hqQuiet i then s.hqSignal i else s

/-- Write a notice of eight words into the event queue, words 1 to 7 in the order of its STRICT, then word 0 without Relaxed Ordering; a notice that the queue cannot take is discarded, none, and
counts in HQ_DROPS of queue 152 by the caller (R365). -/
def State.putNotice (s : State) (ws : List Word) : Option State :=
  let q := s.hq 152
  if q.st = .active ∧ s.hqSpan 152 ≠ q.size ∧ s.dmaOk then
    let a := q.entry (s.hqTail 152)
    let s := s.emit (.hostWrite (a + 4) (wordsLe (ws.drop 1)) (!q.strict))
    let s := s.emit (.hostWrite a (wordsLe (ws.take 1)) false)
    let s := s.setHqReg 152 Reg.hqTail ((s.hqTail 152 + 1) % 65536)
    let s := s.count64 (pgQueue 152) (Reg.hqDone (152 % 32)) 1
    some (s.hqCompleted 152 false)
  else none

/-- A notice discarded by the event queue (R365). -/
def State.noticeLost (s : State) : State := s.count (pgQueue 152) (Reg.hqDrops (152 % 32)) 1

/-- Write a notice, or discard it and count it in the counter its chapter names too. -/
def State.notice (s : State) (ws : List Word) (lostPage lostOff : Nat) : State :=
  match s.putNotice ws with
  | some t => t
  | none => s.noticeLost.count lostPage lostOff 1

/-- TAIL t lies past the descriptor of index idx: at most half the range of the indices ahead of it (R350). -/
def tailPast (t idx : Nat) : Bool :=
  let n := (t + 65536 - idx % 65536) % 65536
  decide (0 < n ∧ n ≤ 32768)

/-- A register write that the host issued before the doorbell that covers descriptor idx of queue i has not taken effect, so that
FENCE holds the descriptor (R356). -/
def State.fenceHolds (s : State) (i idx : Nat) : Bool :=
  let n := match (s.hq i).covers.find? (fun c => tailPast c.1 idx) with | some c => c.2 | none => s.bus.posts
  s.bus.posted.any (fun e => match e.2 with | some p => decide (p.req = .host ∧ p.ord < n) | none => false)

/-- A doorbell of a host-produced queue covers the descriptors up to TAIL t (R356). -/
def State.coverTo (s : State) (i t : Nat) : State :=
  let q := s.hq i
  s.setHq i { q with covers := q.covers.filter (fun c => tailPast c.1 (s.hqHead i)) ++ [(t, s.bus.posts)] }

/-- Complete a descriptor: its data, words 2 to 6 (a table command: word 6, R205), then word 7; HEAD advances (R354). Relaxed Ordering
goes with the data and words 2 to 6 of a queue that is not STRICT (R355; for words 2 to 6 DESIGN CHOICE, log entry 98), never with word 7. -/
def State.hqWriteBack (s : State) (i : Nat) (d : Done) : State :=
  let q := s.hq i
  let a := q.entry d.idx
  let s := if d.data.isEmpty then s else s.emit (.hostWrite d.addr d.data (!q.strict))
  let s := if 128 ≤ i ∧ i < 144 then s.emit (.hostWrite (a + 24) (wordsLe ((d.words.drop 4).take 1)) (!q.strict))
    else s.emit (.hostWrite (a + 8) (wordsLe (d.words.take 5)) (!q.strict))
  let s := s.emit (.hostWrite (a + 28) (wordsLe (d.words.drop 5)) false)
  let s := s.setHqReg i Reg.hqHead ((d.idx + 1) % 65536)
  let s := s.count64 (pgQueue i) (Reg.hqDone (i % 32)) 1
  let s := s.count64 (pgQueue i) (Reg.hqBytes (i % 32)) (d.data.length + d.moved)
  let s := if fld (wordAt d.words 5) 0 8 = 0 then s else s.count (pgQueue i) (Reg.hqErrs (i % 32)) 1
  s.hqCompleted i d.irq

/-- Words 2 to 7 of a completion with words 2 to 5 kept, a word 6 and a status (R354, Table 77). -/
def doneWords (ws : List Word) (w6 : Word) (status : Nat) : List Word :=
  [wordAt ws 2, wordAt ws 3, wordAt ws 4, wordAt ws 5, w6, BitVec.ofNat 32 (status + 2 ^ 31)]

end Sys2Proof.Machine
end

