-- ==== Sys2Proof/Machine/Ptp.lean ====
section
/-! DEFINITION. The PTP operations of the transmitting MAC (10_telemetry.md R292 to R296). -/

namespace Sys2Proof.Machine

/-- EN, OP, UDP and PTP_OFS of a PTP operation word (Table 109). -/
def ptpEn (w : Nat) : Bool := w / 2 ^ 15 % 2 = 1
def ptpOp (w : Nat) : Nat := w / 2 ^ 13 % 4
def ptpUdp (w : Nat) : Bool := w / 2 ^ 12 % 2 = 1
def ptpOfs (w : Nat) : Nat := w % 256

/-- An egress timestamp of a frame whose first bit leaves at t: plus TXADJ, in units of 0.25 ns, rounded to the
nanosecond (R291, R292). -/
def State.egressTs (s : State) (p t : Nat) : Nat :=
  (((4 * t : Nat) + signed 16 (s.rf pgTime (Reg.tmPadj p) 16 16) + 2) / 4).toNat

/-- A ones' complement sum after 16-bit words changed from the first list of bytes to the second. -/
def csumWords : Nat → List Byte → List Byte → Nat
  | c, a :: b :: as, x :: y :: xs =>
    csumWords (onesAdd (onesAdd c (65535 - (a.toNat * 256 + b.toNat))) (x.toNat * 256 + y.toNat)) as xs
  | c, _, _ => c

/-- A frame with bytes written at index i, and the UDP checksum at index k, when it is asked for and is not 0, updated
for them; a result of 0 is sent as 0xFFFF (R294). -/
def ptpWrite (bs : List Byte) (i : Nat) (new : List Byte) (udp : Option Nat) : List Byte :=
  let out := putBytes bs i new
  match udp with
  | none => out
  | some k =>
    let c := beAt bs k 2
    if c = 0 then out
    else putBytes out k (beBytes 2 (orElse0 (65535 - csumWords (65535 - c) (bytesAt bs i new.length)
      (bytesAt out i new.length)) 65535))

/-- A whole number modulo 2^64 as the eight bytes of a signed field. -/
def be64 (x : Int) : List Byte := beBytes 8 (x % (2 ^ 64 : Int)).toNat

/-- What the MAC writes into a frame's body for a PTP word (R294). -/
def ptpBody (bs : List Byte) (w ts ets : Nat) : List Byte :=
  let o := ptpOfs w
  let udp := if ptpUdp w ∧ 2 ≤ o then some (o - 2) else none
  if ptpOp w = 0 ∨ ptpOp w = 2 then
    ptpWrite bs (o + 8) (be64 ((beAt bs (o + 8) 8 : Int) + ((ets : Int) - (ts : Int)) * 2 ^ 16)) udp
  else if ptpOp w = 1 then
    ptpWrite bs (o + 34) (beBytes 6 (ets / 1000000000) ++ beBytes 4 (ets % 1000000000)) udp
  else bs

/-- The length of a frame as transmitted, or as announced while it is not rebuilt. -/
def Frame.outLen (f : Frame) : Nat := if f.out.isEmpty then f.len else f.out.length

/-- The PTP word acts on the frame: EN, and a frame long enough (R296). -/
def Frame.ptpActs (f : Frame) : Bool := ptpEn (vPtp f.vec) && decide (ptpOfs (vPtp f.vec) + 44 ≤ f.outLen)

/-- The rebuilt frame with the PTP fields written and its FCS computed over them (R293). -/
def Frame.ptpOut (f : Frame) : List Byte :=
  if f.ptpActs ∧ ptpOp (vPtp f.vec) ≠ 3 ∧ f.out.isEmpty = false then
    let body := ptpBody (f.out.take (f.out.length - 4)) (vPtp f.vec) f.ts f.ets
    body ++ fcs body
  else f.out

/-- The bytes the notice reads: the frame as transmitted, or its window while it is not rebuilt. -/
def Frame.ptpBytes (f : Frame) : List Byte := if f.out.isEmpty then f.vec.take 256 else f.out

/-- The transmit timestamp notice of a frame on port p (Table 110). -/
def Frame.ptpNotice (f : Frame) (p : Nat) (stomped : Bool) : List Word :=
  let o := ptpOfs (vPtp f.vec)
  let b := f.ptpBytes
  let w := fun (x : Nat) => BitVec.ofNat 32 x
  [w (0x50 + p % 1024 * 2 ^ 8 + b2n stomped * 2 ^ 18 + (byteAt b o).toNat % 16 * 2 ^ 20
      + (byteAt b (o + 4)).toNat * 2 ^ 24),
   w (beAt b (o + 30) 2 + f.ets / 1000000000 / 2 ^ 32 % 65536 * 65536),
   w (tsOf f.ets), w (tsOf f.ets / 2 ^ 32), w (tsOf f.ts), w (tsOf f.ts / 2 ^ 32), 0, 0]

/-- The PTP accounts of a frame whose last byte leaves port p: TM_PTP_SKIP, or the notice of OP 0b10 and 0b11 (R295,
R296). -/
def State.ptpEnd (s : State) (p : Nat) (f : Frame) (stomped : Bool) : State :=
  if ptpEn (vPtp f.vec) = false then s
  else if f.ptpActs = false then s.count pgTime Reg.tmPtpSkip 1
  else if 2 ≤ ptpOp (vPtp f.vec) then s.notice (f.ptpNotice p stomped) pgTime Reg.tmTsLost
  else s

end Sys2Proof.Machine
end

