-- ==== Sys2Proof/Machine/PortOps.lean ====
section
/-! DEFINITION. Ports, their lanes, and what a lane transmits (03_lanes_ports.md R61, R70, R71, R74, R76, R78, R83, R89). -/

namespace Sys2Proof.Machine

/-! ### Ports and their lanes -/

/-- The MACPCS page of a port. -/
abbrev pgPort (p : Nat) : Nat := pgMacpcs (portSlice p)
/-- The LANES0 page of a lane. -/
abbrev pgLane (l : Nat) : Nat := pgLanes0 (portSlice l)
/-- The LANES1 page of a macro. -/
abbrev pgMacro (m : Nat) : Nat := pgLanes1 (m / 4)

/-- PORT_CFG fields (Table 32). -/
def cfgWidth (c : Word) : Nat := 2 ^ fld c 0 2
def cfgMode (c : Word) : Nat := fld c 2 4
def cfgKind (c : Word) : Nat := fld c 6 2
def cfgPll (c : Word) : Nat := fld c 8 1
/-- LPBK; 3 acts as 0 (R83). -/
def cfgLpbk (c : Word) : Nat := let x := fld c 9 2; if x = 3 then 0 else x

def State.portCtrl (s : State) (p : Nat) : Word := s.reg (pgPort p) (Reg.portCtrl (p % 32))
/-- PORT_CTRL.EN. -/
def State.portEn (s : State) (p : Nat) : Bool := bit (s.portCtrl p) 0
/-- PORT_CTRL.PWR: 0 Active, 1 Standby, 2 Dormant; 3 acts as 2 (Table 27). -/
def State.portPwr (s : State) (p : Nat) : Nat := min 2 (fld (s.portCtrl p) 1 2)
/-- The port is enabled with PWR Active. -/
def State.portAct (s : State) (p : Nat) : Bool := s.portEn p && decide (s.portPwr p = 0)

/-- The lanes of a configuration at a slot. -/
def cfgLanes (p : Nat) (c : Word) : List Nat := (List.range (cfgWidth c)).map (p + ·)

/-- The lanes of a port that is enabled. -/
def State.portLanes (s : State) (p : Nat) : List Nat := cfgLanes p (s.port p).cfg

/-- Port p runs as a span port (R65). -/
def State.isSpan (s : State) (p : Nat) : Bool := decide (fld (s.port p).cfg 6 2 = 1)

/-- MAX_FRAME.LIMIT of a port as it acts (R81). -/
def State.maxFrame (s : State) (p : Nat) : Nat :=
  max 64 (min 10240 (s.rf (pgMacpcs (portSlice p)) (Reg.maxFrame (p % 32)) 0 14))

/-! ### The transmitter (R61, R70, R71, R76) -/

def MacroS.pll (x : MacroS) (k : Nat) : PllS := if k = 0 then x.a else x.b

/-- The PLL of a port is locked. -/
def State.pllLocked (s : State) (p : Nat) : Bool := ((s.macro_ (p / 8)).pll (cfgPll (s.port p).cfg)).lock

/-- LN_PRBS.TX selects a pattern; 11 to 15 are treated as 0 (Table 29). -/
def prbsOn (w : Word) : Bool := decide (fld w 0 4 ≠ 0 ∧ fld w 0 4 ≤ 10)

/-- Explicit taps are invalid (R71): c(0) outside 32 to 64, or magnitudes summing beyond 64. -/
def tapsBad (txeq t0 t1 : Word) : Bool :=
  let c := fun (w : Word) lo => signed 8 (fld w lo 8)
  let sum := ([c t0 0, c t0 8, c t0 16, c t0 24, c t1 0, c t1 8].map Int.natAbs).sum
  bit txeq 4 && (decide (c t0 24 < 32) || decide (64 < c t0 24) || decide (64 < sum))

def State.laneTapsBad (s : State) (l : Nat) : Bool :=
  let r := fun (o : Nat → Nat) => s.reg (pgLane l) (o (l % 32))
  tapsBad (r Reg.lnTxeq) (r Reg.lnTaps0) (r Reg.lnTaps1)

/-- The transmit presets of Table 25: the taps from c(-3) to c(+2), in 1/64 of full swing. -/
def presetTaps : List (List Int) :=
  [[0, 0, 0, 64, 0, 0], [0, 0, -4, 60, 0, 0], [0, 0, -8, 56, 0, 0], [0, 0, -12, 52, 0, 0],
   [0, 2, -10, 52, 0, 0], [0, 4, -14, 46, 0, 0], [-2, 4, -16, 42, 0, 0], [0, 0, -6, 54, -4, 0],
   [0, 0, -10, 50, -4, 0], [0, 2, -12, 46, -4, 0], [-2, 4, -18, 40, 0, 0], [0, 0, 0, 58, -6, 0],
   [0, 0, -4, 52, -8, 0], [0, 2, -8, 48, -6, 0], [-2, 6, -20, 36, 0, 0], [0, 0, -8, 50, -4, -2]]

/-- The taps that LN_TXEQ, LN_TAPS0 and LN_TAPS1 give a transmitter (R70): the preset, or the explicit taps, in whose place an
invalid setting has preset 0 (R71). -/
def txTaps (txeq t0 t1 : Word) : List Int :=
  let c := fun (w : Word) lo => signed 8 (fld w lo 8)
  if bit txeq 4 = false then presetTaps.getD (fld txeq 0 4) []
  else if tapsBad txeq t0 t1 then presetTaps.getD 0 []
  else [c t0 0, c t0 8, c t0 16, c t0 24, c t1 0, c t1 8]

/-- The taps a lane transmits with. -/
def State.laneTaps (s : State) (l : Nat) : List Int :=
  let r := fun (o : Nat → Nat) => s.reg (pgLane l) (o (l % 32))
  txTaps (r Reg.lnTxeq) (r Reg.lnTaps0) (r Reg.lnTaps1)

/-- The output amplitude of a lane, in mVppd at c(0) = 64 (R70). -/
def State.laneAmp (s : State) (l : Nat) : Nat := 600 + 40 * s.rf (pgLane l) (Reg.lnTxeq (l % 32)) 8 4

/-- What a lane's transmitter sends: nothing, electrical idle, a pattern of Table 29, the stream it recovers (R83), the span
stream, or the port's data stream, which is remote fault, idle, or frames (R76, R78). -/
inductive TxStream where
  | off | electricalIdle | pattern (code : Nat) | recovered | span | remoteFault | idle | frames
  deriving DecidableEq, Repr

/-- What lane l of port p sends (R76, R78, R83, R89, Table 26): electrical idle in STANDBY, while the PLL is
unlocked and after the thermal trip (15_firebreak_power.md R416); remote
fault on local fault and under SEND_RF; idle on remote fault. -/
def State.laneSends (s : State) (p l : Nat) : TxStream :=
  let x := s.port p
  let t := s.reg (pgLane l) (Reg.lnPrbs (l % 32))
  if (s.lane l).st = .dormant then .off
  else if s.rst.tripped ∨ (s.lane l).st = .standby ∨ s.pllLocked p = false then .electricalIdle
  else if prbsOn t then .pattern (fld t 0 4)
  else if cfgLpbk x.cfg = 2 then .recovered
  else if s.isSpan p then .span
  else if x.local_ ∨ bit (s.portCtrl p) 6 then .remoteFault
  else if x.remote ∨ x.linkUp = false then .idle
  else .frames

/-- A lane carries the data of its port. -/
def TxStream.carries : TxStream → Bool
  | .off | .electricalIdle | .pattern _ => false
  | _ => true

/-- What port p sends reaches the line when every lane carries its data (R76, R89). -/
def State.portSends (s : State) (p : Nat) : Bool := (s.portLanes p).all (fun l => (s.laneSends p l).carries)

/-- Port p sends data on its lanes; in electrical idle, or under a pattern, the line does not carry it. -/
def State.transmit (s : State) (p : Nat) (o : Output) : State := s.onlyIf (s.portSends p) (·.emit o)

end Sys2Proof.Machine
end

