-- ==== Sys2Proof/Machine/PathOps.lean ====
section
/-! DEFINITION. Shared operations on frames in the packet path: how a frame's outcome is fixed and accounted at each
place (01_architecture.md R22, 10_telemetry.md R297, 07_rings.md R230), and what a port's queues do when its link
falls or rises (09_queues_forwarding.md R279 to R281). -/

namespace Sys2Proof.Machine

/-- Count a dropped frame that is not a unit in HD_INJ_DROPS (R233, R361). -/
def State.countInjDrop (s : State) (f : Frame) : State :=
  if f.unit then s else s.count64 pgHostdma Reg.hdInjDrops 1

/-- The store of frame i with its outcome fixed: the ring's holder ends in a half and the frame is forgotten. -/
def State.finish (s : State) (i h : Nat) (f : Frame) : State := (s.endHolder h f.ring).endFrame i

/-- Drop a frame before it has a header vector: no ring, the null row of its ingress half (Table 111). -/
def State.dropEarly (s : State) (i reason : Nat) : State :=
  let f := s.frame i
  let s := if f.unit then s.accountUnit f .early { src := f.src, len := f.len, reason := reason, ts := f.ts }
           else s.countInjDrop f
  s.endFrame i

/-- Drop a frame at an ingress stage, in replication or in the host path, in half h: the null row (Table 111). A unit punted at an
egress stage had been enqueued, and adds to DROPPED of its queue (R302). -/
def State.dropNull (s : State) (i h reason : Nat) : State :=
  let f := s.frame i
  let u := { f.unitInfo reason none with hist := f.fromQ.map (fun q => (q, 32)) }
  let s := if f.unit then s.accountUnit f (.null h) u else s.countInjDrop f
  s.finish i h f

/-- A master frame whose last copy has ended and which has made its last copy frees its cells (R269). -/
def State.settleMaster (s : State) (m : Nat) : State :=
  let f := s.frame m
  if f.copied ∧ f.refs = 0 then (s.releaseCells f 19).endFrame m else s

/-- Give back what a frame or copy holds: its cells and charges, or a copy's charges and its share of the master; and
its place at an allocating requester and in its port's start FIFO. -/
def State.giveUp (s : State) (i : Nat) (f : Frame) (rq : Nat) : State :=
  let s := s.setDeck f.half ((s.deckOf f.half).stopWaiting f.rq i)
  let x := s.schedOf (f.q / 32)
  let s := if x.fifo.contains i then s.setSched (f.q / 32) { x with fifo := x.fifo.filter (fun j => decide (j ≠ i)) }
           else s
  match f.master with
  | none => s.releaseCells f rq
  | some m =>
    let g := s.frame m
    let s := if f.enq then s.setDeck f.half ((s.deckOf f.half).unchargeQueue f.q f.need) else s
    (s.setFrame m { g with refs := g.refs - 1 }).settleMaster m

/-- Queue q holds no frame, those in its port's start FIFO included, and the one in transmission until its last byte has left (R271,
R273; DEDUCED, log entry 94). -/
def State.queueEmpty (s : State) (q : Nat) : Bool :=
  let x := s.schedOf (q / 32)
  (s.queue q).isEmpty && !(x.fifo ++ x.tx.toList).any (fun i => decide ((s.frame i).q = q))

/-- An empty queue has deficit 0 (R273). -/
def State.settleDeficit (s : State) (q : Nat) : State :=
  if s.queueEmpty q then { s with deficit := AMap.set 0 s.deficit q 0 } else s

/-- The requester that frees the cells of a frame dropped with a reason (08_deck_admission.md Table 93). -/
def dropRq (reason : Nat) : Nat := if reason = rFlume then 16 else 22

/-- Drop a frame or copy whose queue is known, at or after admission (rows 2 of Table 111): cells freed by the drop engine or Flume's
endpoint, DROPPED counted of a unit that was enqueued (R298, R302). An IPFIX message that is not admitted counts in TY_XLOST_MSGS
(R321), and for an expired ring in HD_INJ_DROPS too (R233). -/
def State.dropQueued (s : State) (i reason : Nat) : State :=
  let f := s.frame i
  let s := s.giveUp i f (dropRq reason)
  let s := if f.enq then s.settleDeficit f.q else s
  let u := { f.unitInfo reason none with hist := if f.enq then some (f.q, 32) else none }
  let s := if f.unit then s.accountUnit f (.egress (f.q / 32)) u
           else if f.kind = .ipfix ∧ f.enq = false then
             let s := (s.count (pgTally (portHalf f.src)) Reg.tyXlostMsgs 1).raise (pgTally (portHalf f.src)) 5
             if reason = rRingExpired then s.countInjDrop f else s
           else s.countInjDrop f
  s.finish i f.half f

/-- Drop a list of frames whose queues are known. -/
def State.dropQueuedAll (s : State) (reason : Nat) : List Nat → State
  | [] => s
  | i :: is => (s.dropQueued i reason).dropQueuedAll reason is

/-- Drop a punted frame held for a receive queue (R359); its cells carry tag 0xC001, and the host path frees them but for a stall, an expiry
or a reset, and for Flume's own errors (08_deck_admission.md Table 93). -/
def State.dropPunt (s : State) (i q reason : Nat) : State :=
  let f := s.frame i
  let s := s.setDeck 0 ((s.deckOf 0).stopWaiting 23 i)
  let s := s.releaseCells f (if reason = rStall ∨ reason = rRingExpired ∨ reason = rDeckReset ∨ reason = rFlume then dropRq reason else 23)
  let hq := s.hq q
  let s := s.setHq q { hq with held := hq.held.filter (fun j => decide (j ≠ i)), heldN := hq.heldN - f.cells.length }
  let s := if 0x50 ≤ reason then s.count (pgQueue q) (Reg.hqDrops (q % 32)) 1 else s
  s.dropNull i 0 reason

def State.dropPunts (s : State) (q reason : Nat) : List Nat → State
  | [] => s
  | i :: is => (s.dropPunt i q reason).dropPunts q reason is

/-- One instance of a multicast frame has finished replication with n copies made, or was dropped with a reason and none: when no
instance remains and no copy was made, the frame is one unit dropped with the reason of the instance dropped first, else with
MC_EMPTY, in the half where this is fixed (R266, R297; DESIGN CHOICE, log entry 80). One that is no unit counts in HD_INJ_DROPS, unless an
expired instance of it has counted (R233). -/
def State.mcastDone (s : State) (f : Frame) (n reason h : Nat) : State :=
  let c := AMap.get (0, 0, 0) s.mcast f.root
  let left := c.1 - 1
  let made := c.2.1 + n
  let why := orElse0 c.2.2 reason
  if left = 0 then
    let s := { s with mcast := AMap.set (0, 0, 0) s.mcast f.root (0, 0, 0) }
    if made = 0 then
      (if f.unit then s.accountUnit f (.null h) (f.unitInfo (orElse0 why rMcEmpty) none)
       else if c.2.2 = rRingExpired ∨ reason = rRingExpired then s else s.countInjDrop f)
    else s
  else { s with mcast := AMap.set (0, 0, 0) s.mcast f.root (left, made, why) }

/-- A drain ends when no marked frame waits in the replication queue: DRAIN_DONE (R270). -/
def State.drainSettle (s : State) (h : Nat) : State :=
  let x := s.pathOf h
  if x.draining ∧ x.repl.any (fun i => (s.frame i).mark) = false then
    (s.setPath h { x with draining := false }).raise (pgAdmit h) 3
  else s

/-- Drop a copy in replication: the null row of the half (Table 111; 11_raft.md R337). -/
def State.dropInRepl (s : State) (i h reason : Nat) : State :=
  let f := s.frame i
  let s := s.giveUp i f 22
  let s := if f.unit then s.accountUnit f (.null h) (f.unitInfo reason none) else s.countInjDrop f
  s.finish i f.half f

/-- Drop an instance of a multicast frame that waits for replication or for admission to it. An instance that is no unit is a holder, which
HD_INJ_DROPS counts when its ring has expired (R233). -/
def State.dropMcast (s : State) (i reason : Nat) : State :=
  let f := s.frame i
  let s := s.setDeck f.half ((s.deckOf f.half).stopWaiting f.rq i)
  let s := if f.enq then
      s.setDeck f.half ((s.deckOf f.half).unchargeClass (16 + vTc f.vecIn) (f.cells.length + f.need)) else s
  let s := s.releaseCells f (dropRq reason)
  let s := if f.unit = false ∧ reason = rRingExpired then s.countInjDrop f else s
  let s := s.mcastDone f 0 reason f.half
  (s.finish i f.half f).drainSettle f.half

/-- A fault found in a frame: its reason, unless one was found before (Table 99). -/
def Frame.markBad (f : Frame) (reason : Nat) : Frame := if f.bad = 0 then { f with bad := reason } else f

/-- Mark everything that comes from one received frame with the reason of a fault found in it (R278). -/
def State.markRoot (s : State) (root reason : Nat) : State :=
  s.mapFrames (fun f => decide (f.root = root)) (·.markBad reason)

/-- Mark frame i, and the copies that share its cells, with the reason of a fault found in it (R278). -/
def State.markFrame (s : State) (i reason : Nat) : State :=
  let s := match AMap.get none s.frames i with
    | some f => s.setFrame i (f.markBad reason)
    | none => s
  s.mapFrames (fun f => decide (f.master = some i)) (·.markBad reason)

/-! ### Entries behind select registers (R286) -/

/-- Key of entry i of a kind in a half: 0 AD_Q, 1 AD_QY, 2 AD_QECN, 3 REP_GRP, 4 REP_COPY. -/
def selKey (kind h i : Nat) : Nat := (2 * kind + h) * 2 ^ 18 + i

def State.adQ (s : State) (q : Nat) : Nat := fld (s.sreg 16384 (selKey 0 (queueHalf q) (q % 16384))) 0 20
def State.adQy (s : State) (q : Nat) : Nat := fld (s.sreg 12288 (selKey 1 (queueHalf q) (q % 16384))) 0 20
def State.adQecn (s : State) (q : Nat) : Nat := fld (s.sreg 0 (selKey 2 (queueHalf q) (q % 16384))) 0 20
def State.repGrp (s : State) (h g : Nat) : Word := s.sreg 0 (selKey 3 h g)
def State.repCopy (s : State) (h i : Nat) : Word := s.sreg 0 (selKey 4 h i)

/-! ### Admission (08_deck_admission.md R250 to R254) -/

/-- Checks 3 to 6 of Table 95 against class slot c of a half: the reason of the first that holds. -/
def State.classCheck (s : State) (h c : Nat) : Option Nat :=
  let d := s.deckOf h
  let w := s.reg (pgAdmit h) (Reg.adC c)
  let lossless := bit w 22
  if d.level = 3 then some rBufferFull
  else if d.level = 2 ∧ bit w 21 = false ∧ lossless = false then some rAdmitW2
  else if 1 ≤ d.level ∧ bit w 20 ∧ lossless = false then some rAdmitYield
  else if lossless = false ∧ fld w 0 20 ≤ AMap.get 0 d.cocc c then some rAdmitClass
  else none

/-- Checks 7 and 8 of Table 95 for queue q and a frame of a colour: port and queue occupancy. -/
def State.queueCheck (s : State) (q color : Nat) : Option Nat :=
  let h := queueHalf q
  let d := s.deckOf h
  let occ := AMap.get 0 d.qocc (q % 16384)
  if s.rbit (pgAdmit h) (Reg.adC (q % 32)) 22 then none
  else if s.rf (pgAdmit h) (Reg.adP (q / 32 % 512)) 0 20 ≤ AMap.get 0 d.pocc (q / 32 % 512) then some rAdmitPort
  else if s.adQ q ≤ occ ∨ (color ≠ 0 ∧ s.adQy q ≤ occ) then some rAdmitQueue
  else none

/-- Check 1 of Table 95: the ring has expired. -/
def State.expiredCheck (s : State) (ring : Nat) : Option Nat :=
  if (s.ringRec ring).expired then some rRingExpired else none

/-- Check 2 of Table 95: the egress port is down and its queue is not holding. -/
def State.portCheck (s : State) (q : Nat) : Option Nat :=
  if (s.schedOf (q / 32)).ls = .down then some rPortDown else none

/-- The first reason of a list of checks. -/
def firstReason : List (Option Nat) → Option Nat
  | [] => none
  | some r :: _ => some r
  | none :: cs => firstReason cs

/-- Whether an admitted frame for queue q is marked for congestion (R254). -/
def State.ecnMark (s : State) (q : Nat) : Bool :=
  let h := queueHalf q
  let d := s.deckOf h
  (decide (s.adQecn q ≠ 0 ∧ s.adQecn q ≤ AMap.get 0 d.qocc (q % 16384)))
  || (decide (1 ≤ d.level) && s.rbit (pgDeck h) Reg.dkCtrl 0 && s.rbit (pgAdmit h) (Reg.adC (q % 32)) 23)

/-- RING_EXP_DROPS counts each drop with RING_EXPIRED (07_rings.md R233). -/
def State.countExp (s : State) (reason : Nat) : State :=
  if reason = rRingExpired then s.count64 pgRing Reg.ringExpDrops 1 else s

/-! ### The way to step 4 (01_architecture.md Table 6, 09_queues_forwarding.md R265) -/

/-- What stands in for the source slot of a frame on Flume: the ingress slot, or the transmit queue or the Tally block
that made it (R264, R265). -/
def Frame.srcKey (f : Frame) : Nat :=
  match f.kind with
  | .received => f.src
  | .copy => f.src
  | .pipe t => 1024 + t
  | .direct t => 1024 + t
  | .ipfix => 1280

/-- The Deck requester that takes the cells of a frame entering step 4 in its own half (Table 93). -/
def Frame.localRq (f : Frame) : Nat :=
  match f.kind with
  | .received => portSlice f.src % 16
  | .copy => portSlice f.src % 16
  | .pipe _ => 17
  | .direct _ => 17
  | .ipfix => 18

/-- The requester that takes the cells of a frame that crossed Flume: 16 (Table 93), and 17 of a DIRECT frame, which enters in the half of
its queue (12_host_interface.md R361; DESIGN CHOICE, log entry 98). -/
def Frame.crossRq (f : Frame) : Nat := match f.kind with | .direct _ => 17 | _ => 16

/-- Hand frame i from half h to step 4 of half d: at once in its own half, else over Flume with the next sequence number
of its source (R265) and, of a unit, the flow index (10_telemetry.md R306). -/
def State.toStep4 (s : State) (i h d : Nat) : State :=
  let f := s.frame i
  if h = d then
    let s := s.setFrame i { f with half := d, rq := f.localRq }
    let x := s.pathOf d
    s.setPath d { x with arrivals := x.arrivals ++ [i] }
  else
    let fidx := match f.fidx with | some x => some x | none => if f.unit then some (s.flowHash f.src f.vecIn) else none
    let s := s.setFrame i { f with half := d, rq := f.crossRq, fidx := fidx }
    let x := s.pathOf h
    let n := AMap.get 0 x.seqNext f.srcKey
    let s := s.setPath h { x with seqNext := AMap.set 0 x.seqNext f.srcKey ((n + 1) % 2 ^ 24) }
    let y := s.pathOf d
    s.setPath d { y with transit := y.transit ++ [{ frame := i, src := f.srcKey, seq := n }] }

/-- A frame that enters the path at Deck takes the current ring there (01_architecture.md R26) and goes to step 4 of its
queue's half. -/
def State.enterDeck (s : State) (f : Frame) (h : Nat) : State :=
  let r := s.rings.cur.val
  let i := s.nextFrame
  let s := s.newFrame { f with unit := false, ring := r, vec := vSetRing f.vec r, vecIn := vSetRing f.vecIn r
                               tag := queueTag f.q }
  (s.beginHolder h r).toStep4 i h (queueHalf f.q)

/-- The punt map entry of a code (12_host_interface.md R368). -/
def State.puntMap (s : State) (k : Nat) : Word := s.reg pgPuntMap (0x1000 + 4 * k)

/-! ### Transmission -/

/-- Depth of a bucket: BURST times 256 bytes, in units of 1/8,000 byte (R274). -/
def bucketDepth (burst : Nat) : Int := burst * 256 * 8000

/-- A bucket brought to PTP time now: RATE Mb/s is RATE units of 1/8,000 byte per nanosecond (R274). Over a SET or STEP of PTP time it fills
by the difference of the times, and by nothing until PTP time has passed the old one (DESIGN CHOICE, log entry 93). -/
def Bucket.to (b : Bucket) (now rate burst : Nat) : Bucket :=
  { tok := min (bucketDepth burst) (b.tok + ((now - b.time) * rate : Nat)), time := now }

/-- A bucket charged n bytes, not below the floor of R274. -/
def Bucket.charge (b : Bucket) (n ovh : Nat) : Bucket :=
  { b with tok := max (-((10240 + ovh : Nat) * 8000 : Int)) (b.tok - ((n + ovh : Nat) * 8000 : Int)) }

/-- Index of queue c of slot j in the SCHED page: 32j + c (R285). -/
def schedIdx (q : Nat) : Nat := q / 32 % 32 * 32 + q % 32

/-- The queue's shaper at time now. -/
def State.queueBucket (s : State) (q : Nat) : Bucket :=
  let pg := pgSched (portSlice (q / 32))
  (AMap.get {} s.qbucket q).to s.now (s.rf pg (Reg.scQrate (schedIdx q)) 0 21) (s.rf pg (Reg.scQburst (schedIdx q)) 0 16)

/-- The port's shaper at time now. -/
def State.portBucket (s : State) (p : Nat) : Bucket :=
  let pg := pgSched (portSlice p)
  (s.schedOf p).bucket.to s.now (s.rf pg (Reg.scPrate (p % 32)) 0 21) (s.rf pg (Reg.scPburst (p % 32)) 0 16)

/-- Charge the deficit and the shapers when a frame's last byte leaves: L bytes, or the bytes sent of a stomped frame
for the deficit (R273, R274). A queue that is empty has deficit 0. -/
def State.chargeSent (s : State) (q len sent : Nat) : State :=
  let p := q / 32
  let ovh := s.rf (pgSched (portSlice p)) Reg.scCtrl 0 5
  let s := { s with deficit := AMap.set 0 s.deficit q (AMap.get 0 s.deficit q - (sent : Int)) }
  let s := s.settleDeficit q
  let qb := (s.queueBucket q).charge len ovh
  let s := { s with qbucket := AMap.set {} s.qbucket q qb }
  s.setSched p { s.schedOf p with bucket := (s.portBucket p).charge len ovh }

/-- Bytes of a frame that the MAC of port p passes, in the bandwidth window (13_cruiser_counters.md R384). -/
def State.bwAdd (s : State) (p n : Nat) (rx : Bool) : State :=
  let x := AMap.get {} s.cruiser.bw p
  let x := if rx then { x with rx := x.rx + n } else { x with tx := x.tx + n }
  if s.cruiser.bwOn then { s with cruiser := { s.cruiser with bw := AMap.set {} s.cruiser.bw p x } } else s

/-- The last byte of the frame in transmission on port p leaves (R273): charges, cells, counters, accounting with its latency bin (R302), the end
of its holder. reason is 0 for a frame sent whole, else the stomp's reason (R278). -/
def State.finishTx (s : State) (p i reason sent : Nat) : State :=
  let f := s.frame i
  let s := s.setSched p { s.schedOf p with tx := none }
  let s := s.chargeSent f.q f.len (if reason = 0 then f.len else sent)
  let s := s.giveUp i f 21
  let pg := pgMacpcs (portSlice p)
  let s := if reason = 0 then
      (s.count64 pg (Reg.txFrames (p % 32)) 1).count64 pg (Reg.txBytes (p % 32)) f.out.length
    else s.count64 pg (Reg.txStomped (p % 32)) 1
  let s := s.bwAdd p sent false
  let u := { f.unitInfo reason (some (f.ets - f.ts)) with hist := some (f.q, latencyBin (f.ets - f.ts)) }
  let s := if f.unit then s.accountUnit f (.egress p) u
           else if reason = 0 then s else s.countInjDrop f
  s.finish i f.half f

/-! ### Link state of a port's queues (R279 to R281) -/

/-- Return a frame of the start FIFO to what it was when it was enqueued; FLEN of its vector is its length once its tail is here (R135). -/
def Frame.rewind (f : Frame) : Frame :=
  { f with vec := if f.tail then vPut f.vecIn 266 2 f.len else f.vecIn, addr := f.addrIn, fin := false, built := false, out := [], head := [], ann := 0, dep := none }

/-- Return frames of the start FIFO to the heads of their queues, the last first (R271). -/
def State.unstart (s : State) : List Nat → State
  | [] => s
  | i :: is =>
    let s := s.unstart is
    let f := s.frame i
    (s.setFrame i f.rewind).setQueue f.q (i :: s.queue f.q)

/-- Remove frames from the egress stages and the deparser's queue of a slice. -/
def SliceS.without (x : SliceS) (ids : List Nat) : SliceS :=
  { x with stages := x.stages.map (fun e => (e.1, if 8 ≤ e.1 then e.2.filter (fun i => !ids.contains i) else e.2))
           depq := x.depq.filter (fun i => !ids.contains i) }

/-- Keep the stage map canonical: drop empty queues. -/
def SliceS.tidy (x : SliceS) : SliceS := { x with stages := x.stages.filter (fun e => !e.2.isEmpty) }

/-- The queues 32p to 32p + 31 of a port, from class slot c up. -/
def State.portFrames (s : State) (p : Nat) : Nat → List Nat
  | 0 => []
  | n + 1 => s.portFrames p n ++ s.queue (32 * p + n)

/-- Empty the queues of a port. -/
def State.clearQueues (s : State) (p : Nat) : Nat → State
  | 0 => s
  | n + 1 =>
    let s := s.setQueue (32 * p + n) []
    ({ s with deficit := AMap.set 0 s.deficit (32 * p + n) 0 } : State).clearQueues p n

/-- A port enters DOWN: every frame in its queues is marked for the drop engine (R280). -/
def State.portDown (s : State) (p : Nat) : State :=
  let ids := s.portFrames p 32
  let s := s.clearQueues p 32
  let x := s.schedOf p
  s.setSched p { x with ls := .down, flushing := true, flushed := x.flushed ++ ids }

/-- LINK_HOLD of a port in nanoseconds; above 1,000,000 us acts as 1,000,000 (Table 107). -/
def State.linkHold (s : State) (p : Nat) : Nat :=
  min (s.rf (pgSched (portSlice p)) (Reg.scPort (p % 32)) 0 20) 1000000 * 1000

/-- A frame leaves port p: on its lanes, or as a span packet of the position's stream (04_span_framing.md R100). A stomped
one carries an inverted FCS, or has EPREV set in the header after it (R278, R104). -/
def State.sendFrame (s : State) (p : Nat) (out : List Byte) (stomped : Bool) : State :=
  if s.isSpan p then
    let x := s.span (spanPos p)
    s.setSpan (spanPos p) { x with txq := x.txq ++ [(out, stomped)] }
  else
    let body := out.take (out.length - 4)
    s.transmit p (.frame p (if stomped then body ++ invert (fcs body) else out) stomped)

/-- The length of a frame's rebuilt bytes: as rebuilt, or as announced while they are not whole. -/
def Frame.txLen (f : Frame) : Nat := if f.out.isEmpty then f.ann else f.out.length

/-- The bytes of a frame, its last four the place of the FCS, when only n of its rebuilt bytes are there to be sent: an Ethernet port ends
the frame after them, a span port completes the body that the header announced with 0x00 (04_span_framing.md R104). -/
def Frame.sentPart (f : Frame) (span : Bool) (n : Nat) : List Byte :=
  let bs := if f.out.isEmpty then f.head else f.out
  let body := bs.take (min n (bs.length - 4))
  if span then body ++ zeros (f.txLen - body.length) else body ++ zeros 4

/-- Stomp the frame in transmission on port p, of whose rebuilt bytes n are there, its PTP fields written (10_telemetry.md R294). -/
def State.stompAt (s : State) (p i n reason : Nat) : State :=
  let f := s.frame i
  let f := { f with out := f.sentPart (s.isSpan p) n }
  let out := f.ptpOut
  ((s.sendFrame p out true).ptpEnd p f true).finishTx p i reason out.length

/-- The frame in transmission is stomped with a reason (R80, R281): one rebuilt whole with its bytes as they are, another with what its
deparser had (DESIGN CHOICE, log entry 94: where in its bytes the stomp falls). -/
def State.stompTx (s : State) (p reason : Nat) : State :=
  match (s.schedOf p).tx with
  | none => s
  | some i => s.stompAt p i (s.frame i).txLen reason

/-- What LINK_UP falling does to a port's queues (R279, R281, Table 101): enabled says that EN is still 1. -/
def State.queuesFall (s : State) (p : Nat) (enabled : Bool) : State :=
  let s := s.stompTx p rLinkFlush
  let x := s.schedOf p
  let ids := x.fifo
  let s := s.setSched p { x with fifo := [], pause := [] }
  let s := s.setSlice (portSlice p) ((s.slice (portSlice p)).without ids).tidy
  let s := s.unstart ids
  if enabled ∧ s.linkHold p ≠ 0 then
    let s := s.setSched p { s.schedOf p with ls := .hold, holdAt := s.now }
    (s.count (pgSched (portSlice p)) (Reg.scHoldCnt (p % 32)) 1).raise (pgSched (portSlice p)) 0
  else s.portDown p

/-- What LINK_UP rising does to a port's queues (Table 101). -/
def State.queuesRise (s : State) (p : Nat) : State :=
  let x := s.schedOf p
  let s := s.setSched p { x with ls := .up }
  if x.ls = .hold then s.count (pgSched (portSlice p)) (Reg.scResumeCnt (p % 32)) 1 else s

/-- EN falls: a port in UP or HOLD enters DOWN (Table 101). -/
def State.queuesOff (s : State) (p : Nat) : State :=
  match (s.schedOf p).ls with
  | .up => s.queuesFall p false
  | .hold => s.portDown p
  | .down => s

end Sys2Proof.Machine
end

