-- ==== Sys2Proof/Machine/RaftOps.lean ====
section
/-! DEFINITION. Raft mode (11_raft.md): the settings a half runs under, headers, neighbours, weights, resolution after
ingress stage 7, ring holds. -/

namespace Sys2Proof.Machine

/-! ### Settings (R327, R328) -/

/-- The settings the West block runs under: EN, NOTIFY, the hello fields and RF_GRACE as written, the rest as taken at
the rise of EN (R328). -/
def State.raftWest (s : State) : RaftCfg :=
  let pg := pgHalf 0
  { en := s.rbit pg Reg.rfCtrl 0, devid := s.raft.devid, hop := s.raft.hop, notify := s.rf pg Reg.rfCtrl 7 5
    sysid := s.raft.sysid, interval := s.rf pg Reg.rfHello 0 16, dead := s.rf pg Reg.rfHello 16 4
    grace := s.rf pg Reg.rfGrace 0 20
    da := (s.reg pg Reg.rfHelloDaLo).toNat + 2 ^ 32 * s.rf pg Reg.rfHelloDaHi 0 16
    sa := (s.reg pg Reg.rfHelloSaLo).toNat + 2 ^ 32 * s.rf pg Reg.rfHelloSaHi 0 16 }

/-- The settings of the Raft block of a half. -/
def State.raftCfg (s : State) (h : Nat) : RaftCfg := if h = 0 then s.raftWest else s.raft.east

/-- RF_HELLO.INTERVAL as it acts, in microseconds (Table 129). -/
def intervalActs (x : Nat) : Nat := max 100 x
/-- RF_HELLO.DEAD as it acts (Table 129). -/
def deadActs (x : Nat) : Nat := orElse0 x 1

/-- The device's Raft ID as a half knows it: DEVID in Raft mode, else 0 (R190, R327). -/
def State.ownId (s : State) (h : Nat) : Nat := if (s.raftCfg h).en then (s.raftCfg h).devid else 0

/-- Port slot p is a Raft port (R327). -/
def State.isRaftPort (s : State) (p : Nat) : Bool := s.rbit (pgParser (portSlice p)) (Reg.ppPort (p % 32)) 0

/-! ### The Raft tag (R329 to R331) -/

/-- Word k of the Raft header of a frame (R329). -/
def raftWord (bs : List Byte) (k : Nat) : Nat := beAt bs (14 + 4 * k) 4

def raftType (bs : List Byte) : Nat := raftWord bs 0 / 2 ^ 24 % 16
def raftRing (bs : List Byte) : Nat := raftWord bs 0 / 2 ^ 22 % 4
def raftHops (bs : List Byte) : Nat := raftWord bs 0 / 2 ^ 12 % 64
def raftNoLearn (bs : List Byte) : Bool := raftWord bs 0 / 2 ^ 7 % 2 = 1

/-- Bytes 12 and 13 hold the Raft EtherType (R331). -/
def hasRaftTag (bs : List Byte) : Bool := decide (30 ≤ bs.length ∧ beAt bs 12 2 = 0x88B5)

/-- The tag is valid: VER 1, TYPE 0 to 2, reserved bits 0 (R331). -/
def raftTagValid (bs : List Byte) : Bool :=
  let w := raftWord bs 0
  decide (w / 2 ^ 28 = 1 ∧ raftType bs ≤ 2 ∧ w % 128 = 0)

/-- RAFT_DST fields (Table 124). -/
def dstPush (v : List Byte) : Bool := vRaftDst v / 2 ^ 31 % 2 = 1
def dstFlood (v : List Byte) : Bool := vRaftDst v / 2 ^ 30 % 2 = 1
def dstDlag (v : List Byte) : Nat := vRaftDst v / 2 ^ 26 % 2
def dstDev (v : List Byte) : Nat := vRaftDst v / 1024 % 65536
def dstPort (v : List Byte) : Nat := vRaftDst v % 1024

/-- The learning source of a frame received without a Raft tag: PORT and ISLAG (06_tables.md R190). -/
def State.learnPort (s : State) (h inPort : Nat) : Nat × Nat :=
  let w := s.reg (pgLearn h) (Reg.lrPmap inPort)
  if bit w 10 then (fld w 0 10, 1) else (inPort, 0)

/-! ### Neighbours (R342, R343) -/

def State.nbr (s : State) (p : Nat) : NbrS := AMap.get {} s.raft.nbr p
def State.setNbr (s : State) (p : Nat) (x : NbrS) : State :=
  { s with raft := { s.raft with nbr := AMap.set {} s.raft.nbr p x } }

/-- The record of port p as half h knows it: the other half's records stand still while the management channel is down
(R342, R344). -/
def State.nbrSeen (s : State) (h p : Nat) : NbrS :=
  if portHalf p = h ∨ s.flumeUp then s.nbr p else AMap.get {} s.raft.far p

/-- The neighbour registers of a half take their reset values (Table 130). -/
def State.nbrsClear (s : State) (h : Nat) : State :=
  { s with raft := { s.raft with nbr := AMap.keep (fun p => decide (portHalf p ≠ h)) s.raft.nbr } }

/-- A neighbour is BEHIND when (own CUR - its CUR) mod 4 is 1 or 2 (R342). -/
def State.nbrBehind (s : State) (x : NbrS) : Bool :=
  let d := (s.rings.cur.val + 4 - x.cur % 4) % 4
  decide (d = 1 ∨ d = 2)

/-- FACTOR of a Raft port as a half knows it (R343). -/
def State.factor (s : State) (h p : Nat) : Nat :=
  let x := s.nbrSeen h p
  if x.st = .up ∧ s.nbrBehind x = false then min x.cap 16 else 0

/-! ### Events of the HALF page -/
abbrev evNbrUp : Nat := 8
abbrev evNbrDown : Nat := 9
abbrev evNbrChg : Nat := 10
abbrev evForeign : Nat := 11
abbrev evDupId : Nat := 12

/-- The notice of Table 128, of kind 0x60 + k, when NOTIFY enables it (R343). said is hello bytes 34 and 35. -/
def State.raftNotice (s : State) (p k dev port said : Nat) (sysid : Word) : State :=
  let h := portHalf p
  if (s.raftCfg h).notify / 2 ^ k % 2 = 1 then
    let ts := tsOf s.now
    s.notice [BitVec.ofNat 32 (0x60 + k + p * 256), BitVec.ofNat 32 (dev + port * 65536), BitVec.ofNat 32 said, sysid,
      BitVec.ofNat 32 ts, BitVec.ofNat 32 (ts / 2 ^ 32), 0, 0] (pgHalf h) Reg.rfNoteLost
  else s

/-- Hello bytes 34 and 35 as a record holds them (Table 126). -/
def NbrS.said (x : NbrS) : Nat :=
  x.cur * 64 + x.active * 4 + x.oldest + (x.cap + b2n x.capped * 32) * 256

/-- A neighbour goes DOWN (R342). -/
def State.nbrDown (s : State) (p : Nat) : State :=
  let x := s.nbr p
  if x.st = .up then
    let s := s.setNbr p { x with st := .down, actAt := [] }
    (s.raise (pgHalf (portHalf p)) evNbrDown).raftNotice p 1 x.dev x.port x.said s.raft.sysid
  else s

/-- What a port's hellos said is forgotten with its link. -/
def State.helloForget (s : State) (p : Nat) : State := s.setNbr p { s.nbr p with txSaid := none }

/-! ### Weights and member choice (R333) -/

/-- Key of the effective weight of a member. -/
def ewKey (h g m : Nat) : Nat := (h * 256 + g) * 64 + m

def State.rfReach (s : State) (h d : Nat) : Word := s.sreg 0 (selKey 5 h d)
def State.rfMember (s : State) (h g m : Nat) : Word := s.sreg 0 (selKey 6 h (64 * g + m))
def State.rfTree (s : State) (h t : Nat) : Word := s.sreg 0 (selKey 7 h t)

/-- EW of a member entry (R333). -/
def State.memberEw (s : State) (h : Nat) (w : Word) : Nat :=
  let base := fld w 10 8
  let f := s.factor h (fld w 0 10)
  if bit w 31 = false ∨ base = 0 ∨ s.isRaftPort (fld w 0 10) = false ∨ f = 0 then 0 else max 1 (base * f / 16)

/-- A relay leaves on a Raft port (R345: RF_RELAYED counts the relays sent; in the half of the sending port, DESIGN CHOICE, log entry
95). -/
def State.relaySent (s : State) (f : Frame) (p : Nat) : State :=
  if vRaft f.vecIn && decide (raftType f.data = 0) && dstPush f.vecIn && s.isRaftPort p then
    s.count64 (pgHalf (portHalf p)) Reg.rfRelayed 1
  else s

/-- Store the weights of the member entries of a half that are written. -/
def State.ewStore (s : State) (h : Nat) : AMap Word → State
  | [] => s
  | e :: es =>
    let s := if e.1 / 2 ^ 18 = 12 + h then
        let k := h * 16384 + e.1 % 2 ^ 18
        { s with raft := { s.raft with ew := AMap.set 0 s.raft.ew k (s.memberEw h e.2) } } else s
    s.ewStore h es

/-- Recompute the weights of a half (R333); a change of any counts in RF_REWEIGHTS. -/
def State.ewAll (s : State) (h : Nat) : State :=
  let old := s.raft.ew
  let s := { s with raft := { s.raft with ew := AMap.keep (fun k => decide (k / 16384 ≠ h)) s.raft.ew } }
  let s := s.ewStore h s.selRegs
  if s.raft.ew = old then s else s.count (pgHalf h) Reg.rfReweights 1

/-- The members of a group with their weights in force. -/
def State.groupEw (s : State) (h g : Nat) : List Nat :=
  (List.range 64).map (fun m => AMap.get 0 s.raft.ew (ewKey h g m))

/-- The weights that stand in when every effective weight is 0: BASE_W of each valid member whose neighbour is up. -/
def State.groupBase (s : State) (h g : Nat) : List Nat :=
  (List.range 64).map (fun m =>
    let w := s.rfMember h g m
    if bit w 31 ∧ (s.nbrSeen h (fld w 0 10)).st = .up then fld w 10 8 else 0)

/-- The lowest member whose running sum of weights exceeds r, from member i on. -/
def pickMember (r : Nat) : Nat → Nat → List Nat → Nat
  | i, _, [] => i
  | i, acc, w :: ws => if r < acc + w then i else pickMember r (i + 1) (acc + w) ws

/-- The member port chosen for a hash, none when no member has weight (R333). -/
def State.chooseMember (s : State) (h g hash : Nat) : Option Nat :=
  let ew := s.groupEw h g
  let ew := if ew.sum = 0 then s.groupBase h g else ew
  if ew.sum = 0 then none
  else
    let r := hash / 256 % 65536 * ew.sum / 65536
    some (fld (s.rfMember h g (pickMember r 0 0 ew)) 0 10)

/-! ### Resolution after ingress stage 7 (R332, R334, R335) -/

/-- Drop reasons of Table 123. -/
abbrev rRaftUnreach : Nat := 0x40
abbrev rRaftBadHdr : Nat := 0x41
abbrev rRaftHops : Nat := 0x42
abbrev rRaftSplit : Nat := 0x43
abbrev rRaftLoop : Nat := 0x44
abbrev rRaftNoLink : Nat := 0x45
abbrev rRaftNoTree : Nat := 0x46

/-- RF_PORT of a port slot. -/
def State.rfPort (s : State) (p : Nat) : Word := s.reg (pgHalf (portHalf p)) (Reg.rfPort (p % 512))

/-- Two ports are equal or share a link group (R334, R335). -/
def State.sameGroup (s : State) (a b : Nat) : Bool :=
  decide (a = b) || (bit (s.rfPort a) 8 && bit (s.rfPort b) 8 && decide (fld (s.rfPort a) 0 8 = fld (s.rfPort b) 0 8))

/-- What resolution decides: a drop, or the vector the frame follows. -/
inductive Resolved where
  | drop (reason : Nat)
  | go (vec : List Byte)
  deriving DecidableEq, Repr

/-- A vector with DEST naming a queue (Table 122). -/
def destQueue (v : List Byte) (q : Nat) : List Byte := vPut v 276 4 (2 ^ 30 + q)

/-- A push to another device: reachability, member, relay checks (R332 to R334). -/
def State.raftPush (s : State) (h : Nat) (f : Frame) (v : List Byte) : State × Resolved :=
  let w := s.rfReach h (dstDev v)
  let relay := vRaft v && decide (raftType f.data = 0)
  if bit w 31 = false then (s, .drop rRaftUnreach)
  else match s.chooseMember h (fld w 0 8) (if vRaft v then raftWord f.data 3 else vFlowHash v) with
    | none => (s, .drop rRaftNoLink)
    | some p =>
      if relay ∧ s.sameGroup p f.src then (s, .drop rRaftLoop)
      else if relay ∧ raftHops f.data = 0 then (s, .drop rRaftHops)
      else
        (s.count64 (pgHalf h) Reg.rfPushed 1, .go (destQueue v (32 * p + vTc v)))

/-- Table 122, first applicable row, for a frame of ingress half h with vector v; a transit packet follows its forced queue
(04_span_framing.md R126; DEDUCED, log entry 77). -/
def State.raftResolve (s : State) (h : Nat) (f : Frame) (v : List Byte) : State × Resolved :=
  if (s.raftCfg h).en = false ∨ vTransit v then (s, .go v)
  else if vRaft v ∧ raftType f.data = 1 then
    let w := s.rfTree h (raftWord f.data 2 % 4096)
    if bit w 31 then (s, .go (vPut (vPut v 276 4 (2 ^ 31 + fld w 0 16)) 280 4 0)) else (s, .drop rRaftNoTree)
  else if dstPush v ∧ dstFlood v = false then
    if dstDev v = s.ownId h then (s.count (pgHalf h) Reg.rfSelf 1, .go (vPut v 280 4 (vRaftDst v - 2 ^ 31)))
    else s.raftPush h f v
  else (s, .go v)

/-- The reason a flood copy of a received Raft frame toward port q is dropped, none when it is made (R335). -/
def State.floodDrop (s : State) (f : Frame) (q : Nat) : Option Nat :=
  if vRaft f.vecIn ∧ raftType f.data = 1 ∧ s.isRaftPort q then
    if s.sameGroup q f.src then some rRaftSplit else if raftHops f.data = 0 then some rRaftHops else none
  else none

/-! ### Ring holds (R344) -/

/-- The time against which the reports of port p's neighbour age: while the management channel is down those of East neighbours
count as they last stood. -/
def State.reportNow (s : State) (p : Nat) : Nat :=
  if portHalf p = 1 ∧ s.flumeUp = false then s.raft.downAt else s.clk.up

/-- A port's neighbour holds ring r: it is UP and reported r active within RF_GRACE. -/
def State.nbrHolds (s : State) (p r : Nat) : Bool :=
  let x := s.nbrSeen 0 p
  decide (x.st = .up) && (match AMap.get none x.actAt r with
    | some t => decide (s.reportNow p ≤ t + (s.raftCfg 0).grace * 1000)
    | none => false)

/-- Some Raft port's neighbour holds ring r (R344). -/
def State.ringHeld (s : State) (r : Nat) : Bool :=
  s.raft.nbr.any (fun e => s.isRaftPort e.1 && s.nbrHolds e.1 r)
  || s.raft.far.any (fun e => s.isRaftPort e.1 && s.nbrHolds e.1 r)

/-- Set PEER_HOLD of a RETIRING ring that a neighbour holds and that has not expired (R344). -/
def State.peerHold (s : State) (r : Nat) : State :=
  let x := s.ringRec r
  if x.st = .retiring ∧ x.expired = false ∧ s.ringHeld r then s.setRing r { x with peerHold := true } else s

/-- Evaluate PEER_HOLD of every ring. -/
def State.peerHolds (s : State) : State := (((s.peerHold 0).peerHold 1).peerHold 2).peerHold 3

end Sys2Proof.Machine
end

