-- ==== Sys2Proof/Machine/Rings.lean ====
section
/-! DEFINITION. Rings: commits, in-flight samples, retirement, expiry (07_rings.md). -/

namespace Sys2Proof.Machine

/-! ### Events of the RING page -/
abbrev evCommitted : Nat := 0
abbrev evRetired : Nat := 1
abbrev evRefused : Nat := 2
abbrev evExpired : Nat := 3
abbrev evLate : Nat := 4
abbrev evWaitRing : Nat := 5

/-- The staging ring (R215). -/
def RingSys.staging (x : RingSys) : Ring := x.cur + 1

/-- A ring is live in every state other than FREE (R214). -/
def State.ringLive (s : State) (r : Nat) : Bool := decide ((s.ringRec r).st ≠ .free)

/-- Ring a is older than ring b (R216). -/
def State.ringOlder (s : State) (a b : Nat) : Bool :=
  let x := s.ringRec a
  let y := s.ringRec b
  match x.st, y.st with
  | .free, _ => false
  | _, .free => false
  | .sweep, .sweep => decide (x.gen < y.gen)
  | .sweep, _ => true
  | _, .sweep => false
  | _, _ => decide (x.gen < y.gen)

/-- Whether an entry with BIRTH b and DEATH d is visible to a packet of ring p (R219, Table 85). -/
def State.visible (s : State) (birth death : Option Nat) (p : Nat) : Bool :=
  (match birth with | none => true | some b => decide (b = p) || s.ringOlder b p)
  && (match death with | none => true | some d => decide (d ≠ p) && !s.ringOlder d p)

/-- The bank of a Kerf stage page that a ring uses (R155, R218). -/
def State.ringBank (s : State) (pg r : Nat) : Nat := s.rf pg Reg.ksMap r 1

/-- A bank is referenced while any ring not FREE maps to it (R155, R232). -/
def State.bankRef (s : State) (pg b : Nat) : Bool :=
  [0, 1, 2, 3].any (fun r => s.ringLive r && decide (s.ringBank pg r = b))

/-- RING_MAXAGE in nanoseconds: below 100 acts as 100 us, above 1,000,000 as 1,000,000 us (Table 88). -/
def maxAgeNs (v : Word) : Nat := max 100 (min (fld v 0 20) 1000000) * 1000

/-- A ring that has been RETIRING for the maximum age expires (R233). -/
def State.expireRing (s : State) (r : Nat) : State :=
  let x := s.ringRec r
  if x.st = .retiring ∧ x.expired = false ∧ x.tRet + maxAgeNs (s.reg pgRing Reg.ringMaxage) ≤ s.now then
    (s.setRing r { x with expired := true, peerHold := false }).raise pgRing evExpired
  else s

/-! ### Commits (R223 to R229) -/

/-- Start a fence of a requester, or keep the one that runs (02_registers.md R58): a FENCE or COMMIT write under STRICT is one
fence and counts once in FENCE_CNT, where R59 can be read as two (DESIGN CHOICE, log entry 71). -/
def State.startFence (s : State) (r : Requester) : State :=
  match AMap.get none s.bus.fence (reqIdx r) with
  | some _ => s
  | none => { s with bus := { s.bus with fence := AMap.set none s.bus.fence (reqIdx r) (some s.clk.up) } }

/-- A posted write of a requester waits in some page (R58). -/
def State.writesWait (s : State) (r : Requester) : Bool :=
  s.bus.posted.any (fun e => match e.2 with | some p => decide (p.req = r) | none => false)

/-- The PTP time a waiting commit takes effect, once it is ready (R225). -/
def Commit.tEff (c : Commit) : Option Nat :=
  match c.ready with
  | none => none
  | some t => match c.atT with | none => some (t + 1000) | some a => some (max a (t + 1000))

/-- A STAGED table command has started and is not complete in every half (R224). -/
def State.stagedRuns (s : State) : Bool :=
  s.host.queues.any (fun e => e.2.done.any (fun d => d.staged))

/-- COMMIT written as 1 (R223, R224, Table 86): the request is accepted, or dropped while another waits; WAIT_RING is set once
when the staging ring is not FREE. -/
def State.commitReq (s : State) (r : Requester) (atTime : Bool) : State :=
  match s.rings.waiting with
  | some _ =>
    let s := { s with rings := { s.rings with rej := 1 } }
    (s.count pgRing Reg.ringRefused 1).raise pgRing evRefused
  | none =>
    let s := s.setRf pgRing Reg.ringCtrl 1 1 (b2n atTime)
    let c : Commit := { req := r, atT := if atTime then some (nsOfTs (s.reg64 pgRing Reg.ringTime)) else none }
    let s := ({ s with rings := { s.rings with waiting := some c } } : State).startFence r
    s.raiseIf (s.ringLive s.rings.staging.val) pgRing evWaitRing

/-- CANCEL written as 1 (Table 86). -/
def State.cancelReq (s : State) : State :=
  match s.rings.waiting with
  | none => s
  | some c =>
    match c.tEff with
    | some t => if t ≤ s.now then s else { s with rings := { s.rings with waiting := none, rej := 3 } }
    | none => { s with rings := { s.rings with waiting := none, rej := 3 } }

/-- A write of RING_CTRL (Table 89): CANCEL before COMMIT, and AT stored otherwise. -/
def State.ringCtrlWrite (s : State) (r : Requester) (v : Word) : State :=
  if bit v 2 then (s.setRf pgRing Reg.ringCtrl 1 1 (fld v 1 1)).cancelReq
  else if bit v 0 then s.commitReq r (bit v 1)
  else s.setRf pgRing Reg.ringCtrl 1 1 (fld v 1 1)

/-- The fence of the waiting commit is complete, or nothing is left for it to wait for (R224). -/
def State.commitFenced (s : State) (c : Commit) : Bool := c.fence && s.writesWait c.req

/-- The accepted commit becomes ready when its requester's earlier writes have taken effect, the STAGED commands that ran have
completed and the staging ring is FREE (R224). -/
def State.commitReady (s : State) : State :=
  match s.rings.waiting with
  | none => s
  | some c =>
    if c.ready.isSome ∨ s.commitFenced c ∨ s.stagedRuns ∨ s.ringLive s.rings.staging.val then s
    else { s with rings := { s.rings with waiting := some { c with ready := some s.now } } }

/-- The Kerf stage pages of a slice, ascending (Table 12). -/
def slicePages (sl : Nat) : List Nat := (List.range 16).map (fun k => slicePage sl (2 + k))

/-- Every Kerf stage page of the halves that are out of reset, ascending. -/
def State.kerfPages (s : State) : List Nat :=
  (List.range 32).flatMap (fun sl => if s.halfUp (sliceHalf sl) then slicePages sl else [])

/-- The bank check of one stage (R226): it fails when NEXT differs from the current ring's bank and is referenced. -/
def State.bankBusy (s : State) (pg : Nat) : Bool :=
  let n := s.rf pg Reg.ksCtrl 0 1
  decide (n ≠ s.ringBank pg s.rings.cur.val) && s.bankRef pg n

/-- A commit refused at T_eff (R226, Table 86): nothing else changes. -/
def State.refuse (s : State) (why page : Nat) : State :=
  let s := { s with rings := { s.rings with waiting := none, rej := why } }
  let s := if why = 2 then s.setReg pgRing Reg.ringRejPage (BitVec.ofNat 32 page) else s
  (s.count pgRing Reg.ringRefused 1).raise pgRing evRefused

/-- KS_MAP bit r := NEXT in a list of stages (R155, R227). -/
def State.mapRing (s : State) (r : Nat) : List Nat → State
  | [] => s
  | pg :: pgs => (s.setRf pg Reg.ksMap r 1 (s.rf pg Reg.ksCtrl 0 1)).mapRing r pgs

/-- The background context of a half that runs a routine, neither stopped nor held by a block reset, stops at a step boundary
with JRN_EXIT = 3 (R199, R228). -/
def State.commitYield (s : State) (h : Nat) : State :=
  if s.rf (pgMaint h) (Reg.jrnRoutine 1) 0 8 = 0 ∨ (s.woodOf h).bgStop ∨ (s.woodOf h).bgHeld then s else s.setReg (pgMaint h) (Reg.jrnExit 1) 3

/-- The commit takes effect at t (R227). -/
def State.commitNow (s : State) (c : Commit) (t : Nat) : State :=
  let n := s.rings.staging
  let o := s.rings.cur
  let s := s.mapRing n.val s.kerfPages
  let s := s.setRing o.val { s.ringRec o.val with st := .retiring, tRet := t }
  let x := s.ringRec n.val
  let s := s.setRing n.val { st := .current, gen := s.rings.gen + 1, tCur := t, tRet := x.tRet, nz := x.nz }
  let s := { s with rings := { s.rings with cur := n, gen := s.rings.gen + 1, waiting := none } }
  let s := s.peerHold o.val
  let s := (s.commitYield 0).commitYield 1
  let late := match c.atT with | some a => decide (a < t) | none => false
  let s := s.count64 pgRing Reg.ringCommits 1
  let s := if late then s.count pgRing Reg.ringLate 1 else s
  let s := { s with forester := { s.forester with saveBad := s.forester.saveBad || s.forester.saving.isSome } }
  s.raiseAll pgRing (if late then [evCommitted, evLate] else [evCommitted]) 0

/-- What T_eff brings (R226, R227, Table 86). -/
def State.commitEdge (s : State) : State :=
  match s.rings.waiting with
  | none => s
  | some c =>
    match c.tEff with
    | none => s
    | some t =>
      if s.now < t then s
      else if s.halfUp 1 ∧ s.flumeUp = false then s.refuse 4 0
      else match s.kerfPages.find? s.bankBusy with
        | some pg => s.refuse 2 pg
        | none => s.commitNow c t

/-! ### Retirement (R231, R222) -/

/-- In-flight holders of a ring in both halves (R230). -/
def State.holders (s : State) (r : Nat) : Nat := AMap.get 0 s.inflight r + AMap.get 0 s.inflight (4 + r)

/-- Take the sample of one ring (R231). -/
def State.sampleRing (s : State) (r : Nat) : State :=
  let n := s.holders r
  s.setRing r { s.ringRec r with sample := n, nz := (s.ringRec r).nz + b2n (decide (n ≠ 0)) }

/-- Examine RETIRING rings, oldest first; blocked says that an older ring is still RETIRING (R217, R231). -/
def State.retireRings (s : State) : Bool → List Nat → State
  | _, [] => s
  | blocked, r :: rs =>
    let x := s.ringRec r
    if x.st = .retiring then
      if blocked = false ∧ x.sample = 0 ∧ x.peerHold = false then
        (s.setRing r { x with st := .sweep, doneW := false, doneE := false }).retireRings false rs
      else s.retireRings true rs
    else s.retireRings blocked rs

/-- The rings other than the current one, oldest first: they became current in the order of their numbers (R215). -/
def RingSys.byAge (x : RingSys) : List Nat := [(x.cur + 1).val, (x.cur + 2).val, (x.cur + 3).val]

def State.sample (s : State) : State :=
  let s := (((s.sampleRing 0).sampleRing 1).sampleRing 2).sampleRing 3
  s.retireRings false s.rings.byAge

/-- A half's reclaim of the ring in SWEEP has finished; when both have, the ring becomes FREE and RETIRED is set
(R222, R231, R234). A half in reset has no log to clear. -/
def State.sweepDone (s : State) (h r : Nat) : State :=
  let x := s.ringRec r
  if x.st = .sweep then
    let x := if h = 0 then { x with doneW := true } else { x with doneE := true }
    if x.doneW ∧ x.doneE then
      (s.setRing r { x with st := .free, expired := false }).raise pgRing evRetired
    else s.setRing r x
  else s

/-! ### The expiry scan (R233) -/

/-- The frame carries an expired ring. -/
def State.frameExpired (s : State) (i : Nat) : Bool := (s.ringRec (s.frame i).ring).expired

/-- Drop one expired holder from its queue. -/
def State.dropExpired (s : State) (i : Nat) : State :=
  (s.dropQueued i rRingExpired).count64 pgRing Reg.ringExpDrops 1

def State.dropExpireds (s : State) : List Nat → State
  | [] => s
  | i :: is => (s.dropExpired i).dropExpireds is

/-- Scan one queue. -/
def State.scanQueue (s : State) (q : Nat) : State :=
  let l := s.queue q
  let dead := l.filter s.frameExpired
  (s.setQueue q (l.filter (fun i => !s.frameExpired i))).dropExpireds dead

/-- Scan a list of queues. -/
def State.scanQueues (s : State) : List Nat → State
  | [] => s
  | q :: qs => (s.scanQueue q).scanQueues qs

def State.dropMcasts (s : State) : List Nat → State
  | [] => s
  | i :: is => ((s.dropMcast i rRingExpired).count64 pgRing Reg.ringExpDrops 1).dropMcasts is

/-- Scan the held punts of receive queues 0 to n - 1. -/
def State.scanPunts (s : State) : Nat → State
  | 0 => s
  | n + 1 =>
    let s := s.scanPunts n
    let dead := (s.hq n).held.filter s.frameExpired
    let s := s.dropPunts n rRingExpired dead
    s.count64 pgRing Reg.ringExpDrops dead.length

/-- The expiry scan of a half: its queues, its replication queue and, in the West half, the host punt path (R233). -/
def State.expiryScan (s : State) (h : Nat) : State :=
  let qs := (s.queues.map (·.1)).filter (fun q => decide (queueHalf q = h))
  let s := s.scanQueues qs
  let x := s.pathOf h
  let dead := x.repl.filter s.frameExpired
  let s := (s.setPath h { x with repl := x.repl.filter (fun i => !s.frameExpired i) }).dropMcasts dead
  if h = 0 then s.scanPunts 64 else s

/-! ### The commands -/

/-- COMMIT_READY (R224). -/
def execCommitReady (s : State) : Out := s.run (·.commitReady)

/-- COMMIT_TAKE_EFFECT (R225 to R229). -/
def execCommitTakeEffect (s : State) : Out := s.run (·.commitEdge)

/-- INFLIGHT_SAMPLE (R231). -/
def execInflightSample (s : State) : Out := s.run (·.sample)

/-- RING_EXPIRE (R233). -/
def execRingExpire (r : Ring) (s : State) : Out := s.run (·.expireRing r.val)

/-- EXPIRY_SCAN (R233). -/
def execExpiryScan (h : Half) (s : State) : Out := s.run (fun s => s.onlyIf (s.halfUp h.val) (·.expiryScan h.val))

/-- A write of RING_MAXAGE (R233): the register, then every RETIRING ring that is already older expires. -/
def State.maxAgeWrite (s : State) (v : Word) : State :=
  let s := s.setReg pgRing Reg.ringMaxage (v &&& 0xFFFFF)
  (((s.expireRing 0).expireRing 1).expireRing 2).expireRing 3

end Sys2Proof.Machine
end

