-- ==== Sys2Proof/Machine/WoodOps.lean ====
section
/-! DEFINITION. Shared operations of Woodlot (06_tables.md): exact-match slots and their locations, hashing, lookup,
placement and relocation (R173 to R182), LPM prefixes (R183 to R186), TCAM entries (R187 to R189), the learning FIFO
(R191) and the sequencer's journals (R198). -/

namespace Sys2Proof.Machine

/-! ### Events -/
abbrev evStashHigh : Nat := 0
abbrev evWlCorr : Nat := 1
abbrev evWlUncorr : Nat := 2
abbrev evMigrateDone : Nat := 3
abbrev evSpareOut : Nat := 4
abbrev evLpmFull : Nat := 0
abbrev evLtBusy : Nat := 3
abbrev evLockViol : Nat := 0
abbrev evDamped : Nat := 1
abbrev evLrOvf : Nat := 2
abbrev evLrLost : Nat := 3
abbrev evHeld : Nat := 0
abbrev evAbandoned : Nat := 1
abbrev evCmdErr : Nat := 2

/-! ### Locations: slot k of bucket u of bank b is 16384 b + 4 u + k, stash slot k is stashBase + k -/

/-- The location of stash slot 0. -/
abbrev stashBase : Nat := 224 * 16384

/-- The location of slot 0 of a bucket. -/
def bucketBase (bank bucket : Nat) : Nat := bank * 16384 + bucket * 4

/-- A location as Table 76 spells it in INFO. -/
def locInfo (loc : Nat) : Nat :=
  if stashBase ≤ loc then 2 ^ 22 + (loc - stashBase) * 256
  else loc / 16384 + loc / 4 % 4096 * 256 + loc % 4 * 2 ^ 20

/-- The location of an operand; a bank from 128 names an LPM bank, and its bucket a node. -/
def locCode : EmLoc → Nat
  | .slot _ bank bucket idx => bucketBase (bank % 224) (bucket % 4096) + idx % 4
  | .stash _ idx => stashBase + idx % 8

/-- The half of an operand location. -/
def locHalf : EmLoc → Nat
  | .slot h _ _ _ => h.val
  | .stash h _ => h.val

/-- The physical bank that serves bucket or node u of bank b (R203): the spare below the cursor of a migration that
runs, else the bank of WL_BANKMAP. -/
def WoodS.physBank (w : WoodS) (b u : Nat) : Nat :=
  let p := (AMap.get none w.bankmap b).getD b
  match w.mig with
  | some m => if m.bank = b ∧ u < m.cursor then m.spare else p
  | none => p

/-- The select code of the window memory that holds a location: the physical bank's number (R209). -/
def State.locSel (s : State) (h loc : Nat) : Nat :=
  if stashBase ≤ loc then 0xF0 else (s.woodOf h).physBank (loc / 16384) (loc / 4 % 4096)

/-- The word address of a location's word 0 in its bank or stash (R209). -/
def locAddr (loc : Nat) : Nat :=
  if stashBase ≤ loc then 10 * (loc - stashBase) else 40 * (loc / 4 % 4096) + 10 * (loc % 4)

/-- Word i of the slot at a location. -/
def State.emW (s : State) (h loc i : Nat) : Word := s.memW (pgWlem h) (s.locSel h loc) (locAddr loc + i)

def State.setEmW (s : State) (h loc i : Nat) (v : Word) : State :=
  s.setMemW (pgWlem h) (s.locSel h loc) (locAddr loc + i) v

/-- The ten words of a slot. -/
def State.emSlot (s : State) (h loc : Nat) : List Word := s.memWs (pgWlem h) (s.locSel h loc) (locAddr loc) 10

def State.setEmSlot (s : State) (h loc : Nat) (ws : List Word) : State :=
  s.setMemWs (pgWlem h) (s.locSel h loc) (locAddr loc) ws

/-! ### Slots and entries (Table 68) -/

def cwValid (w : Word) : Bool := bit w 8
def cwWide (w : Word) : Bool := bit w 9
def cwExt (w : Word) : Bool := bit w 10
def cwStatic (w : Word) : Bool := bit w 11
def cwLearned (w : Word) : Bool := bit w 12
def cwHit (w : Word) : Bool := bit w 13
def cwFrozen (w : Word) : Bool := bit w 14
/-- A 3-bit ring tag. -/
def tagRing (x : Nat) : Option Nat := if 4 ≤ x then some (x % 4) else none
def ringTag : Option Nat → Nat
  | some r => 4 + r % 4
  | none => 0
def cwBirth (w : Word) : Option Nat := tagRing (fld w 15 3)
def cwDeath (w : Word) : Option Nat := tagRing (fld w 18 3)

/-- Slot loc holds a single-width entry. -/
def State.isSingle (s : State) (h loc : Nat) : Bool :=
  let w := s.emW h loc 8
  cwValid w && !cwWide w && !cwExt w

/-- Slot loc is the first slot of a double-width entry. -/
def State.isDouble (s : State) (h loc : Nat) : Bool :=
  let w := s.emW h loc 8
  let x := s.emW h (loc + 1) 8
  decide (loc % 2 = 0) && cwValid w && cwWide w && !cwExt w && cwValid x && cwExt x && !cwWide x

/-- Slot loc is the second slot of a double-width entry. -/
def State.isSecond (s : State) (h loc : Nat) : Bool := decide (loc % 2 = 1) && s.isDouble h (loc - 1)

/-- Slot loc holds the first slot of an entry. -/
def State.isEntry (s : State) (h loc : Nat) : Bool := s.isSingle h loc || s.isDouble h loc

/-- Slot loc is free (R174, R178): a slot that holds no entry however it is set counts as free. -/
def State.isFree (s : State) (h loc : Nat) : Bool := !s.isEntry h loc && !s.isSecond h loc

/-- The aligned pair at loc is free. -/
def State.pairFree (s : State) (h loc : Nat) : Bool := s.isFree h loc && s.isFree h (loc + 1)

/-- The key bytes of the entry at loc: 16, or 32 of a double-width one. -/
def State.entryKey (s : State) (h loc : Nat) : List Byte :=
  let ks := fun l => (s.memWs (pgWlem h) (s.locSel h l) (locAddr l) 4).flatMap (fun w => beBytes 4 w.toNat)
  if s.isDouble h loc then ks loc ++ ks (loc + 1) else ks loc

/-- The 128-bit result of the entry at loc. -/
def State.entryResult (s : State) (h loc : Nat) : Nat :=
  beNat ((s.memWs (pgWlem h) (s.locSel h loc) (locAddr loc + 4) 4).flatMap (fun w => beBytes 4 w.toNat))

/-- A 128-bit number as four words, the most significant first. -/
def resWords (r : Nat) : List Word :=
  [BitVec.ofNat 32 (r / 2 ^ 96), BitVec.ofNat 32 (r / 2 ^ 64), BitVec.ofNat 32 (r / 2 ^ 32), BitVec.ofNat 32 r]

/-- 16 key bytes as four words. -/
def keyWords (k : List Byte) : List Word := (List.range 4).map (fun i => BitVec.ofNat 32 (beAt k (4 * i) 4))

/-- Store a result. -/
def State.setResult (s : State) (h loc r : Nat) : State :=
  s.setMemWs (pgWlem h) (s.locSel h loc) (locAddr loc + 4) (resWords r)

/-- Clear VALID of an entry's slot or slots (R182). -/
def State.clearEntry (s : State) (h loc : Nat) : State :=
  let dbl := s.isDouble h loc
  let s := s.setEmW h loc 8 (put (s.emW h loc 8) 8 1 0)
  if dbl then s.setEmW h (loc + 1) 8 (put (s.emW h (loc + 1) 8) 8 1 0) else s

/-! ### Logical tables and hashing (R173, R175) -/

def State.wlLt (s : State) (h t : Nat) : Word := s.reg (pgWlem h) (Reg.wlLt t)
def State.emKlen (s : State) (h t : Nat) : Nat := fld (s.wlLt h t) 1 5 + 1
/-- A learning table (R190). -/
def State.isLearnTbl (s : State) (h t : Nat) : Bool := bit (s.wlLt h t) 6 && decide (s.emKlen h t ≤ 16)
/-- Entries of a table are double-width. -/
def State.isWideTbl (s : State) (h t : Nat) : Bool := decide (16 < s.emKlen h t)

/-- A key as an entry stores it: KLEN bytes, zero beyond, 16 or 32 in all. -/
def State.storedKey (s : State) (h t : Nat) (key : List Byte) : List Byte :=
  let n := s.emKlen h t
  bytesAt (key.take n) 0 (if 16 < n then 32 else 16)

/-- The bucket of side j of a key (R175). -/
def State.emBucket (s : State) (h t j : Nat) (key : List Byte) : Nat :=
  let w := s.woodOf h
  let salt := if j = 0 then w.salt0 else w.salt1
  let x := crc32c salt.toNat (BitVec.ofNat 8 t :: bytesAt key 0 (s.emKlen h t))
  bucketBase (64 * j + x % 64) (x / 64 % 4096)

/-- The slots of a bucket at base b. -/
def slotsOf (b : Nat) : List Nat := [b, b + 1, b + 2, b + 3]
/-- The stash slots. -/
def stashSlots : List Nat := (List.range 8).map (stashBase + ·)

/-- The locations of a key's entries: its two buckets, then the stash (R176, R177). -/
def State.emFind (s : State) (h t : Nat) (key : List Byte) : List Nat :=
  let k := s.storedKey h t key
  (slotsOf (s.emBucket h t 0 key) ++ slotsOf (s.emBucket h t 1 key) ++ stashSlots).filter (fun l =>
    s.isEntry h l && decide (fld (s.emW h l 8) 0 8 = t) && decide (s.entryKey h l = k))

/-- Visible to a packet of ring r (R219). -/
def State.emVisible (s : State) (h loc r : Nat) : Bool :=
  s.visible (cwBirth (s.emW h loc 8)) (cwDeath (s.emW h loc 8)) r

/-! ### Placement (R178 to R180) -/

/-- The lowest room of a list of slots: a free slot, or a free aligned pair. -/
def State.room (s : State) (h : Nat) (dbl : Bool) (slots : List Nat) : Option Nat :=
  slots.find? (fun l => if dbl then decide (l % 2 = 0) && s.pairFree h l else s.isFree h l)

/-- The base of the other bucket of the entry at a bucket location (R178). -/
def State.otherBucket (s : State) (h loc : Nat) : Nat :=
  s.emBucket h (fld (s.emW h loc 8) 0 8) (if loc / 16384 < 64 then 1 else 0) (s.entryKey h loc)

/-- Moving the entry at loc makes room for an entry of a width in its bucket (R179). -/
def State.makesRoom (s : State) (h : Nat) (dbl : Bool) (loc : Nat) : Bool :=
  if dbl then s.isDouble h loc || (s.isSingle h loc && s.isFree h (if loc % 2 = 0 then loc + 1 else loc - 1))
  else s.isEntry h loc

/-- The entries of a bucket that a search looks at next, not on the path already. A search for a single-width entry
moves none of double width (R179). -/
def State.candidates (s : State) (h : Nat) (newDbl need : Bool) (base : Nat) (path : List Nat) : List (List Nat) :=
  ((slotsOf base).filter (fun l => s.isEntry h l && s.makesRoom h need l && (newDbl || s.isSingle h l)
    && !path.contains l)).map (fun l => l :: path)

/-- The destination of the last entry of a path, when its other bucket has room: a free partner of a slot of the path is
room that the path itself makes (R179). -/
def State.pathRoom (s : State) (h : Nat) : List Nat → Option Nat
  | [] => none
  | l :: ls => s.room h (s.isDouble h l) ((slotsOf (s.otherBucket h l)).filter (fun x =>
      !(l :: ls).any (fun y => decide (y / 2 = x / 2))))

/-- The first path of a depth that ends at room. -/
def State.firstPath (s : State) (h : Nat) : List (List Nat) → Option (List Nat × Nat)
  | [] => none
  | p :: ps => match s.pathRoom h p with
    | some d => some (p, d)
    | none => s.firstPath h ps

/-- The paths one level deeper. -/
def State.deeper (s : State) (h : Nat) (newDbl : Bool) (ps : List (List Nat)) : List (List Nat) :=
  ps.flatMap (fun p => match p with
    | [] => []
    | l :: _ => s.candidates h newDbl (s.isDouble h l) (s.otherBucket h l) p)

/-- Breadth-first search, n levels more (R179). -/
def State.search (s : State) (h : Nat) (newDbl : Bool) : Nat → List (List Nat) → Option (List Nat × Nat)
  | 0, _ => none
  | n + 1, ps => match s.firstPath h ps with
    | some x => some x
    | none => s.search h newDbl n (s.deeper h newDbl ps)

/-- The relocation path for an entry of buckets b0 and b1: the entries to move, last first, and where the last goes. -/
def State.relocPath (s : State) (h : Nat) (dbl : Bool) (b0 b1 : Nat) : Option (List Nat × Nat) :=
  s.search h dbl 3 (s.candidates h dbl dbl b0 [] ++ s.candidates h dbl dbl b1 [])

/-- Where the entry at src goes that is to move to d: an aligned pair for a double-width entry. -/
def State.moveTo (s : State) (h src d : Nat) : Nat := if s.isDouble h src then d - d % 2 else d

/-- Write a copy of the entry at src into d (R180). -/
def State.copyEntry (s : State) (h src d : Nat) : State :=
  let s1 := s.setEmSlot h d (s.emSlot h src)
  if s.isDouble h src then s1.setEmSlot h (d + 1) (s.emSlot h (src + 1)) else s1

/-- Give up the entry at src, whose copy stands at d: its HIT is ORed into the copy (R180). -/
def State.leaveSlot (s : State) (h src d : Nat) : State :=
  let s := if cwHit (s.emW h src 8) then s.setEmW h d 8 (put (s.emW h d 8) 13 1 1) else s
  s.clearEntry h src

/-- Move the entry at a location to free slots. -/
def State.moveEntry (s : State) (h src d : Nat) : State := (s.copyEntry h src d).leaveSlot h src d

/-- Slot j of a recorded path. -/
def slotAt (path : List Nat) (j : Nat) : Nat := (path[j]?).getD 0

/-- The entry that step j of a path copied gives up its source (R180). -/
def State.pathLeave (s : State) (h : Nat) (path : List Nat) (j : Nat) : State :=
  if j = 0 then s
  else s.leaveSlot h (slotAt path j) (s.moveTo h (slotAt path j) (slotAt path (j - 1)))

/-- Step j of a path, 1 to its moves: on the edge on which the source of the step before is overwritten, the next copy is
written (R180). -/
def State.pathStep (s : State) (h : Nat) (path : List Nat) (j : Nat) : State :=
  let s := s.pathLeave h path (j - 1)
  s.copyEntry h (slotAt path j) (s.moveTo h (slotAt path j) (slotAt path (j - 1)))

/-- n steps of a path, from step j on. -/
def State.pathRun (s : State) (h : Nat) (path : List Nat) : Nat → Nat → State
  | _, 0 => s
  | j, n + 1 => (s.pathStep h path j).pathRun h path (j + 1) n

/-- The rest of a path after step j: its last source is given up for the entry to come. -/
def State.pathEnd (s : State) (h : Nat) (path : List Nat) (j : Nat) : State :=
  (s.pathRun h path (j + 1) (path.length - 1 - j)).pathLeave h path (path.length - 1)

/-- Room for a new entry of a key, as the slots of a path from the free one to its head: a bucket, a relocation, the stash, or
none (R178 steps 2 to 5). -/
def State.roomPath (s : State) (h t : Nat) (key : List Byte) (stash : Bool) : Option (List Nat) :=
  let dbl := s.isWideTbl h t
  let b0 := s.emBucket h t 0 key
  let b1 := s.emBucket h t 1 key
  match s.room h dbl (slotsOf b0 ++ slotsOf b1) with
  | some l => some [l]
  | none => match s.relocPath h dbl b0 b1 with
    | some (p, d) => some (d :: p)
    | none => if stash then (s.room h dbl stashSlots).map (fun l => [l]) else none

/-- Make room for a new entry of a key, and say where. -/
def State.makeRoom (s : State) (h t : Nat) (key : List Byte) (stash : Bool) : Option (State × Nat) :=
  (s.roomPath h t key stash).map (fun p =>
    let l := slotAt p (p.length - 1)
    (s.pathEnd h p 0, if s.isWideTbl h t then l - l % 2 else l))

/-- Stash slots in use. -/
def State.stashUsed (s : State) (h : Nat) : Nat := (stashSlots.filter (fun l => !s.isFree h l)).length

/-- What the control word of a new entry holds. -/
def ctrlWord (t : Nat) (wide static learned hit : Bool) (birth death : Option Nat) : Word :=
  BitVec.ofNat 32 (t + 256 + b2n wide * 512 + b2n static * 2048 + b2n learned * 4096 + b2n hit * 8192
    + ringTag birth * 2 ^ 15 + ringTag death * 2 ^ 18)

/-- Write an entry into its slot or slots. Word 8 of a second slot holds TBLID beside EXT and VALID (DESIGN CHOICE, log entry
82). -/
def State.writeEntry (s : State) (h loc t : Nat) (key : List Byte) (res : Nat) (ctrl : Word) : State :=
  let k := s.storedKey h t key
  let s1 := s.setEmSlot h loc (keyWords k ++ resWords res ++ [ctrl, 0])
  if s.isWideTbl h t then
    s1.setEmSlot h (loc + 1) (keyWords (k.drop 16) ++ [0, 0, 0, 0, BitVec.ofNat 32 (t + 256 + 1024), 0])
  else s1

/-- Place a new entry (R178): its location, or none for NO_SPACE. The sixth stash slot in use sets STASH_HIGH (R181). -/
def State.placeEntry (s : State) (h t : Nat) (key : List Byte) (res : Nat) (ctrl : Word) : Option (State × Nat) :=
  match s.makeRoom h t key true with
  | none => none
  | some (s1, loc) =>
    let s2 := s1.writeEntry h loc t key res ctrl
    some (s2.raiseIf (decide (s.stashUsed h < 6 ∧ 6 ≤ s2.stashUsed h)) (pgWlem h) evStashHigh, loc)

/-- A result as a table stores it: bits 127 and 126 are never stored in a learning table (R190). -/
def State.resStored (s : State) (h t r : Nat) : Nat := if s.isLearnTbl h t then r % 2 ^ 126 else r % 2 ^ 128

/-! ### Every entry of a half -/

/-- The location of the slot that a word of an exact-match bank, spare or stash belongs to; none for a spare that serves no
exact-match bank. -/
def State.physLoc (s : State) (h sel a : Nat) : Option Nat :=
  if sel = 0xF0 then (if a < 80 then some (stashBase + a / 10) else none)
  else
    let u := a / 40
    match ((List.range 128).find? (fun b => decide ((s.woodOf h).physBank b u = sel))) with
    | some b => some (bucketBase b u + a / 10 % 4)
    | none => none

/-- The locations of every entry of a half, buckets by ascending bank, then the stash. -/
def State.emAll (s : State) (h : Nat) : List Nat :=
  let page := pgWlem h
  let locs := s.mem.filterMap (fun e =>
    let sel := e.1 / 2 ^ 32 % 0x100
    let a := e.1 % 2 ^ 32
    if e.1 / 2 ^ 32 / 0x100 = page ∧ a % 10 = 8 then s.physLoc h sel a else none)
  locs.filter (s.isEntry h)

/-! ### Lookup (R173, R177, R190, R191, R197) -/

/-- DEST of a learning-table result (Table 71). -/
def destOf (r : Nat) : Nat := r % 2 ^ 27

/-- Submit a learning request to a half's FIFO (R191, R211). -/
def State.learnSubmit (s : State) (h t : Nat) (key : List Byte) (src : Nat) : State :=
  if s.rbit (pgLearn h) Reg.lrCtrl 0 = false then s
  else
    let w := s.woodOf h
    let same := fun (x : LearnReq) => decide (x.tbl = t ∧ x.key = key)
    if w.fifo.any same then
      s.setWood h { w with fifo := w.fifo.map (fun x => if same x then { x with src := src } else x) }
    else if 4096 ≤ w.fifo.length then (s.count (pgLearn h) Reg.lrOvf 1).raise (pgLearn h) evLrOvf
    else s.setWood h { w with fifo := w.fifo ++ [{ tbl := t, key := key, src := src }] }

/-- An exact-match lookup by a packet of ring r: the state, HIT and the 128-bit result. src is the frame's source DEST
(R190); learn says that the lookup submits what it finds to learn. -/
def State.emLookup (s : State) (h t : Nat) (key : List Byte) (r : Nat) (hitset : Bool) (src : Nat) (learn : Bool) :
    State × Bool × Nat :=
  let s := s.count64 (pgWlem h) Reg.wlLookups 1
  if s.enabled (pgWlem h) = false ∨ bit (s.wlLt h t) 0 = false then (s, false, 0)
  else
    let learning := s.isLearnTbl h t
    let k := s.storedKey h t key
    match (s.emFind h t key).find? (fun l => s.emVisible h l r) with
    | none => (if learning ∧ learn then s.learnSubmit h t k src else s, false, 0)
    | some l =>
      let c := s.emW h l 8
      let res := s.entryResult h l
      let s := if hitset ∧ cwHit c = false then
          let s := s.setEmW h l 8 (put c 13 1 1)
          if h = 1 then { s with hitq := s.hitq ++ [(t, k)] } else s
        else s
      let differs := learning && decide (destOf res ≠ src)
      let viol := differs && cwStatic c
      let s := if differs ∧ learn then s.learnSubmit h t k src else s
      (s, true, if learning then res % 2 ^ 126 + b2n viol * 2 ^ 126 + b2n (viol && bit (s.wlLt h t) 8) * 2 ^ 127 else res)

/-! ### LPM (R183 to R186) -/

def State.lpmLt (s : State) (h n : Nat) : Word := s.reg (pgWllpm h) (Reg.lpmLt n)

/-- Address bits of table n: 32 or 128. -/
def State.lpmBits (s : State) (h n : Nat) : Nat := if bit (s.lpmLt h n) 1 then 128 else 32

/-- The address bits within a prefix of a length. -/
def maskAddr (bits len addr : Nat) : Nat := addr / 2 ^ (bits - len) * 2 ^ (bits - len)

/-- Versions of a prefix. -/
def WoodS.lpmFind (w : WoodS) (n addr len : Nat) : List LpmPfx :=
  w.lpm.filter (fun x => decide (x.tbl = n ∧ x.addr = addr ∧ x.len = len))

/-- Units a prefix counts: one for IPv4, two for IPv6 (R185). -/
def State.lpmCost (s : State) (h : Nat) (x : LpmPfx) : Nat := if bit (s.lpmLt h x.tbl) 1 then 2 else 1

/-- LPM_UNITS. -/
def State.lpmUnits (s : State) (h : Nat) : Nat := ((s.woodOf h).lpm.map (s.lpmCost h)).sum

/-- The longer of two matches. -/
def longer (best : Option LpmPfx) (x : LpmPfx) : Option LpmPfx :=
  match best with
  | some b => if b.len < x.len then some x else some b
  | none => some x

/-- Where the address bits of each trie level end (Table 69). -/
def lpmEnds (bits : Nat) : List Nat :=
  if bits = 32 then [16, 20, 24, 28, 32] else [16, 32, 40, 48, 56, 64, 72, 80, 88, 96, 112, 128]

/-- The trie level that holds the results of prefixes of a length. -/
def lpmLevel (bits len : Nat) : Nat := (lpmEnds bits).findIdx (fun e => decide (len ≤ e))

/-- The node of a level, bank times 4,096 plus number, that a lookup of an address of table n reads (R184): level k fills banks
128 + 8k to 128 + 8k + 7, level 0 is indexed directly. How a level's nodes lie in its banks is a DESIGN CHOICE, log entry 9. -/
def lpmNodeOf (n bits level addr : Nat) : Nat :=
  let path := addr / 2 ^ (bits - (lpmEnds bits).getD level 0)
  let node := if level = 0 then (n * 65536 + path) / 64 else Config.lpmNode level n path % 32768
  (128 + 8 * level + node % 8) * 4096 + node / 8 % 4096

/-- The node through which a lookup of an address finds a prefix has been lost and is not yet rebuilt (R204). -/
def WoodS.nodeLost (w : WoodS) (bits addr : Nat) (x : LpmPfx) : Bool :=
  w.lpmBad.contains (lpmNodeOf x.tbl bits (lpmLevel bits x.len) addr)

/-- The longest matching prefix that a packet of ring r sees; a shorter one while its node is lost (R204). -/
def State.lpmBest (s : State) (h n addr r : Nat) : Option LpmPfx :=
  let bits := s.lpmBits h n
  ((s.woodOf h).lpm.filter (fun x => decide (x.tbl = n ∧ x.addr = maskAddr bits x.len addr)
    && s.visible x.birth x.death r && !(s.woodOf h).nodeLost bits addr x)).foldl longer none

/-- An LPM lookup (R183): counted by both lookup counters. -/
def State.lpmLookup (s : State) (h n : Nat) (key : List Byte) (r : Nat) : State × Bool × Nat :=
  let s := (s.count64 (pgWlem h) Reg.wlLookups 1).count64 (pgWllpm h) Reg.lpmLookups 1
  if s.enabled (pgWllpm h) = false ∨ bit (s.lpmLt h n) 0 = false then (s, false, 0)
  else match s.lpmBest h n (beAt key 0 (s.lpmBits h n / 8)) r with
    | some x => (s, true, x.result)
    | none => (s, false, 0)

/-! ### TCAM (R187 to R189) -/

/-- Word i of entry e of slice sl (Table 70). -/
def State.tcW (s : State) (sl e i : Nat) : Word := s.memW (pgTcam sl) 0 (32 * e + i)
def tcValid (w : Word) : Bool := bit w 0
def tcBirth (w : Word) : Option Nat := tagRing (fld w 1 3)
def tcDeath (w : Word) : Option Nat := tagRing (fld w 4 3)

/-- n words of an entry as bytes. -/
def State.tcBytes (s : State) (sl e i n : Nat) : List Byte :=
  (s.memWs (pgTcam sl) 0 (32 * e + i) n).flatMap (fun w => beBytes 4 w.toNat)

/-- Entry e matches a 40-byte key for a packet of ring r. -/
def State.tcMatch (s : State) (sl : Nat) (key : List Byte) (r e : Nat) : Bool :=
  let w := s.tcW sl e 24
  let m := beNat (s.tcBytes sl e 10 10)
  tcValid w && !bit w 7 && s.visible (tcBirth w) (tcDeath w) r
  && decide (Nat.land (beNat key) m = Nat.land (beNat (s.tcBytes sl e 0 10)) m)

/-- The entries of a slice with VALID set, ascending. -/
def State.tcEntries (s : State) (sl : Nat) : List Nat :=
  s.mem.filterMap (fun e =>
    let a := e.1 % 2 ^ 32
    if e.1 / 2 ^ 32 = pgTcam sl * 0x100 ∧ a % 32 = 24 ∧ tcValid e.2 then some (a / 32) else none)

/-- A TCAM lookup (R187): the lowest entry that matches. -/
def State.tcLookup (s : State) (sl : Nat) (key : List Byte) (r : Nat) : State × Bool × Nat :=
  let s := s.count64 (pgTcam sl) Reg.tcLookups 1
  match (if s.blockUp (pgTcam sl) then (s.tcEntries sl).find? (s.tcMatch sl key r) else none) with
  | some e => (s.count64 (pgTcam sl) Reg.tcHits 1, true, beNat (s.tcBytes sl e 20 4))
  | none => (s, false, 0)

/-! ### Staged-change logs (07_rings.md R221): what a ring's tags name in a half -/

/-- A tag names ring r. -/
def names (t : Option Nat) (r : Nat) : Bool := decide (t = some r)

/-- Exact-match entries of a half that ring r's tags name. -/
def State.emLogged (s : State) (h r : Nat) : List Nat :=
  (s.emAll h).filter (fun l => names (cwBirth (s.emW h l 8)) r || names (cwDeath (s.emW h l 8)) r)

/-- TCAM entries of a slice that ring r's tags name. -/
def State.tcLogged (s : State) (r sl : Nat) : List (Nat × Nat) :=
  ((s.tcEntries sl).filter (fun e => names (tcBirth (s.tcW sl e 24)) r || names (tcDeath (s.tcW sl e 24)) r)).map
    (fun e => (sl, e))

/-- The slices of a half. -/
def halfSlices (h : Nat) : List Nat := (List.range 16).map (16 * h + ·)

/-- Locations that the log of ring r holds in a half (RS_LOG_W, RS_LOG_E). -/
def State.logSize (s : State) (h r : Nat) : Nat :=
  (s.emLogged h r).length + ((s.woodOf h).lpm.filter (fun x => names x.birth r || names x.death r)).length
  + ((halfSlices h).flatMap (s.tcLogged r)).length

/-! ### The sequencer (R198 to R200, Table 82) -/

/-- Neither MAINT, WOODLOT-EM nor WOODLOT-LPM of the half is in a block reset. -/
def State.seqUp (s : State) (h : Nat) : Bool :=
  s.halfUp h && s.blockUp (pgMaint h) && s.blockUp (pgWlem h) && s.blockUp (pgWllpm h)

/-- The foreground context takes work: no routine of it is stopped or held (R200). -/
def State.fgFree (s : State) (h : Nat) : Bool := s.seqUp h && (s.woodOf h).fg.isNone

end Sys2Proof.Machine
end

