-- ==== Sys2Proof/Machine/KerfOps.lean ====
section
/-! DEFINITION. What a Kerf stage does for a vector (05_parser_kerf.md R143 to R157): the microword and its fields, the
lookup, the ALUs, meters and counters, the next address; and how a vector goes on, is dropped or is punted. -/

namespace Sys2Proof.Machine

abbrev evKsCorr : Nat := 0
abbrev evKsUncorr : Nat := 1
abbrev evBadWord : Nat := 2

/-! ### The microword (Table 52) -/

/-- Field of n bits at bit lo of a 320-bit microword. -/
def mw (w lo n : Nat) : Nat := w / 2 ^ lo % 2 ^ n

def mKeysel (w : Nat) : Nat := mw w 288 32
def mTblid (w : Nat) : Nat := mw w 280 8
def mKprof (w : Nat) : Nat := mw w 264 4
def mHitset (w : Nat) : Bool := mw w 268 1 = 1
def mLearn (w : Nat) : Bool := mw w 269 1 = 1
/-- ALU operation i, 40 bits. -/
def mAlu (w i : Nat) : Nat := mw w (104 + 40 * i) 40
def mHvwr (w : Nat) : Nat := mw w 72 32
def mMode (w : Nat) : Nat := mw w 56 4
def mFsel (w : Nat) : Nat := mw w 60 2
def mArg (w : Nat) : Nat := mw w 64 8
def mNext (w : Nat) : Nat := mw w 46 10
def mAct (w : Nat) : Nat := mw w 44 2
def mCode (w : Nat) : Nat := mw w 38 6
def mCntEn (w : Nat) : Bool := mw w 37 1 = 1
def mCntSrc (w : Nat) : Nat := mw w 35 2
def mCntBase (w : Nat) : Nat := mw w 22 13
def mMeterEn (w : Nat) : Bool := mw w 21 1 = 1
def mMeter (w : Nat) : Nat := mw w 10 11

/-- The number that ten window words hold, word i in bits [32i + 31:32i] (R143). -/
def wordsNat : List Word → Nat
  | [] => 0
  | w :: ws => w.toNat + 2 ^ 32 * wordsNat ws

/-- n words of a number, the least significant first. -/
def natWords : Nat → Nat → List Word
  | 0, _ => []
  | n + 1, x => BitVec.ofNat 32 x :: natWords n (x / 2 ^ 32)

/-- The stored microword at an address of a bank. -/
def State.microAt (s : State) (pg b a : Nat) : Nat := wordsNat (s.memWs pg b (10 * (a % 1024)) 10)

def State.setMicro (s : State) (pg b a w : Nat) : State := s.setMemWs pg b (10 * (a % 1024)) (natWords 10 w)

/-- A microword with its ECC as the device computes it (R153). -/
def withEcc (w : Nat) : Nat := w / 1024 * 1024 + microEcc (w / 1024 % 2 ^ 310)

/-! ### Meters (R152, Table 64) -/

/-- A meter's settings: CIR and PIR, CBS and PBS, AWARE, DROP_RED, PKTS. -/
structure MeterCfg where
  cir     : Nat
  pir     : Nat
  cbs     : Nat
  pbs     : Nat
  aware   : Bool
  dropRed : Bool
  pkts    : Bool
  deriving DecidableEq, Repr

def State.meterCfg (s : State) (pg m : Nat) : MeterCfg :=
  let w := fun i => s.memW pg 3 (4 * m + i)
  { cir := fld (w 0) 0 24, pir := fld (w 1) 0 24, cbs := fld (w 2) 0 16, pbs := fld (w 2) 16 16
    aware := bit (w 3) 0, dropRed := bit (w 3) 1, pkts := bit (w 3) 2 }

/-- Parts of a byte or of a packet that a bucket counts: a rate of 1 (64 kb/s, or 64 packets/s) is one part per ns. -/
def MeterCfg.unit (c : MeterCfg) : Nat := if c.pkts then 15625000 else 125000
/-- Depth of a bucket in those parts: units of 64 bytes, or of one packet. -/
def MeterCfg.depth (c : MeterCfg) (b : Nat) : Int := (b * (if c.pkts then 1 else 64) * c.unit : Nat)

def State.meter (s : State) (pg m : Nat) : MeterS := AMap.get {} s.meters (pg * 2048 + m)
def State.setMeter (s : State) (pg m : Nat) (x : MeterS) : State :=
  { s with meters := AMap.set {} s.meters (pg * 2048 + m) x }

/-- A meter's buckets at time now. -/
def MeterS.to (x : MeterS) (c : MeterCfg) (now : Nat) : MeterS :=
  { c := min (c.depth c.cbs) (x.c + (c.cir * (now - x.time) : Nat))
    p := min (c.depth c.pbs) (x.p + (c.pir * (now - x.time) : Nat)), time := now }

/-- Both buckets full (FILL). -/
def MeterS.full (c : MeterCfg) (now : Nat) : MeterS := { c := c.depth c.cbs, p := c.depth c.pbs, time := now }

/-- trTCM of RFC 2698: the colour, and the buckets after it; pre is the pre-colour of an aware meter. -/
def MeterS.colour (x : MeterS) (c : MeterCfg) (pre n : Nat) : Nat × MeterS :=
  let b : Int := (n * c.unit : Nat)
  let pre := if c.aware then pre else 0
  if pre = 2 ∨ x.p < b then (2, x)
  else if pre = 1 ∨ x.c < b then (1, { x with p := x.p - b })
  else (0, { x with p := x.p - b, c := x.c - b })

/-- A late charge of n bytes, not below -10,240 bytes. -/
def lateFloor (t : Int) (n : Nat) : Int := max (-(10240 * 125000 : Int)) (t - (n * 125000 : Nat))

/-- Take a meter's late charge for a frame of len bytes (R152). -/
def State.lateCharge (s : State) (len : Nat) (l : LateItem) : State :=
  let c := s.meterCfg l.page l.idx
  let x := (s.meter l.page l.idx).to c s.now
  let n := len - 256
  s.setMeter l.page l.idx { x with
    c := if l.c then lateFloor x.c n else x.c, p := if l.p then lateFloor x.p n else x.p }

/-! ### Counters (R151) -/

/-- A counter pair as numbers. -/
def State.pairPkts (s : State) (pg k : Nat) : Nat := wordsNat (s.memWs pg 4 (4 * k) 2)
def State.pairBytes (s : State) (pg k : Nat) : Nat := wordsNat (s.memWs pg 4 (4 * k + 2) 2)

/-- Add packets and bytes to a pair: 48 and 64 bits. -/
def State.pairAdd (s : State) (pg k n b : Nat) : State :=
  (s.setMemWs pg 4 (4 * k) (natWords 2 ((s.pairPkts pg k + n) % 2 ^ 48))).setMemWs pg 4 (4 * k + 2)
    (natWords 2 ((s.pairBytes pg k + b) % 2 ^ 64))

/-- Take late items for a frame of len bytes. -/
def State.lateItems (s : State) (len : Nat) : List LateItem → State
  | [] => s
  | l :: ls =>
    (if l.meter then s.lateCharge len l else s.pairAdd l.page l.idx 0 len).lateItems len ls

/-- The tail of a root's frames has arrived: what waits for its length is taken (R135). -/
def State.lateDue (s : State) (root len : Nat) : State :=
  let due := s.late.filter (fun l => decide (l.root = root))
  ({ s with late := s.late.filter (fun l => decide (l.root ≠ root)) } : State).lateItems len due

/-- A late item waits for the tail, or is taken at once when the tail is here. -/
def State.addLate (s : State) (f : Frame) (l : LateItem) : State :=
  if f.tail then s.lateItems f.len [l] else { s with late := s.late ++ [l] }

/-! ### Lookup (Table 53, R147) -/

/-- What a lookup answers: HIT, a 128-bit result, whether the identifier is a bad one. -/
structure Found where
  hit : Bool := false
  res : Nat := 0
  bad : Bool := false
  deriving DecidableEq, Repr

/-- A local view (R147). -/
def State.viewLookup (s : State) (pg b v : Nat) (key : List Byte) : Found :=
  let w := s.reg pg (Reg.ksLtView b v)
  let width := let x := fld w 14 2; if x = 0 then 1 else if x = 1 then 2 else 4
  let n := beAt key 0 2
  let a := fld w 0 14 + n * width
  if bit w 31 = false ∨ fld w 16 15 ≤ n ∨ 16384 < a + width then {}
  else { hit := true, res := beNat (bytesAt ((s.memWs pg 2 a width).flatMap (fun x => beBytes 4 x.toNat)) 0 16) }

/-- The frame's source DEST (R190; 11_raft.md R340). -/
def State.sourceDest (s : State) (h : Nat) (f : Frame) : Nat :=
  if vRaft f.vec then
    let w0 := raftWord f.data 0
    raftWord f.data 2 / 4096 % 1024 + w0 / 512 % 2 * 1024 + raftWord f.data 1 / 65536 * 2048
  else
    let l := s.learnPort h (vInPort f.vec)
    l.1 + l.2 * 1024 + s.ownId h * 2048

/-- Nothing forbids the frame's learning request: NOLEARN of its slot, or of its Raft tag (R191; 11_raft.md R340). -/
def State.mayLearn (s : State) (h : Nat) (f : Frame) : Bool :=
  !bit (s.reg (pgLearn h) (Reg.lrPmap (vInPort f.vec))) 11 && !(vRaft f.vec && raftNoLearn f.data)

/-- The lookup of a microword on frame f (R144 step 2). -/
def State.microLookup (s : State) (sl : Nat) (dir : Dir) (pg b w : Nat) (f : Frame) (key : List Byte) :
    State × Found :=
  let t := mTblid w
  let h := sliceHalf sl
  if t = 0 then (s, {})
  else if 0x70 ≤ t ∧ t ≤ 0x77 then (s, s.viewLookup pg b (t - 0x70) key)
  else if dir = .egress then (s, { bad := true })
  else if t < 0x40 then
    let r := s.emLookup h t key f.ring (mHitset w) (s.sourceDest h f) (mLearn w && s.mayLearn h f)
    (r.1, { hit := r.2.1, res := r.2.2 })
  else if t < 0x60 then
    let r := s.lpmLookup h (t - 0x40) key f.ring
    (r.1, { hit := r.2.1, res := r.2.2 })
  else if t = 0x60 then
    let r := s.tcLookup sl (tcamKey f.vec key) f.ring
    (r.1, { hit := r.2.1, res := r.2.2 })
  else (s, { bad := true })

/-! ### The ALUs (R146, Table 55) -/

/-- What an ALU does: bytes to write and where, its flag, whether the word is bad. -/
structure Alu where
  at_  : OperandAt := .absent
  data : List Byte := []
  flag : Bool := false
  bad  : Bool := false
  deriving DecidableEq, Repr

/-- The value an operation writes, none for one that writes nothing, and its flag; w is the width in bits, d and x the
operands, i the immediate. -/
def aluOp (op w d x i hash : Nat) : Option Nat × Bool :=
  let m := 2 ^ w
  let wr := fun (r : Nat) => (some (r % m), flagZero (r % m))
  let k := i % 32
  if op = 0x01 then wr x
  else if op = 0x02 then wr i
  else if op = 0x03 then wr (d + x)
  else if op = 0x04 then wr (d + i)
  else if op = 0x05 then wr (d + m - x)
  else if op = 0x06 then wr (Nat.land d x)
  else if op = 0x07 then wr (Nat.land d i)
  else if op = 0x08 then wr (Nat.lor d x)
  else if op = 0x09 then wr (Nat.lor d i)
  else if op = 0x0A then wr (Nat.xor d x)
  else if op = 0x0B then wr (Nat.xor d i)
  else if op = 0x0C then wr (d * 2 ^ k)
  else if op = 0x0D then wr (d / 2 ^ k)
  else if op = 0x0E then (none, decide (d = x))
  else if op = 0x0F then (none, decide (d = i))
  else if op = 0x10 then (none, decide (d < x))
  else if op = 0x11 then wr (min d x)
  else if op = 0x12 then wr (max d x)
  else if op = 0x13 then (if d = 0 then none else some (d - 1), flagTtl d)
  else if op = 0x14 then (some (onesAdd d i), flagCs (onesAdd d i))
  else if op = 0x15 then (some (onesAdd d x), flagCs (onesAdd d x))
  else if op = 0x16 then (some (Nat.lor d (2 ^ k) % m), false)
  else if op = 0x17 then (some (d - d / 2 ^ k % 2 * 2 ^ k), false)
  else if op = 0x18 then wr hash
  else if op = 0x19 then (none, decide (d / 2 ^ k % 2 = 1))
  else (none, false)

/-- SRC is used (R146). -/
def aluUsesSrc (op : Nat) : Bool :=
  [0x01, 0x03, 0x05, 0x06, 0x08, 0x0A, 0x0E, 0x10, 0x11, 0x12, 0x15].contains op

/-- IMM is zero-extended (R146). -/
def aluZeroExt (op : Nat) : Bool := [0x07, 0x09, 0x0B, 0x0C, 0x0D, 0x16, 0x17, 0x19, 0x14].contains op

/-- The operation and width are not ones that Table 55 defines. -/
def aluBad (op wf : Nat) : Bool :=
  decide (wf = 3 ∨ 0x1A ≤ op) || decide ((op = 0x14 ∨ op = 0x15) ∧ wf ≠ 1) || decide (op = 0x18 ∧ wf ≠ 2)

/-- One ALU on the vector as the microword found it. -/
def aluRun (a : Nat) (v regs : List Byte) (hash : Nat) : Alu :=
  let op := a / 2 ^ 35 % 32
  let wf := a / 2 ^ 33 % 4
  if aluBad op wf then { bad := true }
  else if op = 0 then {}
  else
    let n := 2 ^ wf
    let dst := operandAt v (a / 2 ^ 21 % 4096)
    let src := operandAt v (a / 2 ^ 9 % 4096)
    if dst = .absent ∨ (aluUsesSrc op ∧ src = .absent) then {}
    else
      let r := aluOp op (8 * n) (readOperand v regs n dst) (readOperand v regs n src)
        (immValue (aluZeroExt op) (8 * n) (a % 512)) hash
      { at_ := dst, data := match r.1 with | some y => beBytes n y | none => [], flag := r.2 }

/-- Apply an ALU's write: vector bytes under HVWR; a write to the register space is dropped (R146, R148). -/
def aluWrite (hvwr : Nat) (x : Alu) (v : List Byte × Bool) : List Byte × Bool :=
  match x.at_ with
  | .vec i => let r := writeVec hvwr v.1 i x.data; (r.1, v.2 || r.2)
  | _ => v

/-! ### The next address (Table 56) -/

/-- The address step 8 computes, from the vector the microword found. -/
def nextAddr (w : Nat) (v : List Byte) (flags : List Bool) (r : Found) : Nat :=
  let n := mNext w
  let m := mMode w
  (if m = 1 then (if flags.getD (mFsel w) false then n else n + 1)
   else if m = 2 then n + r.res / 2 ^ (8 * (15 - mArg w % 16)) % 256
   else if m = 3 then n + vPclass v
   else if m = 4 then (if r.hit then n else n + 1)
   else if m = 5 then n + vb v (mArg w)
   else n) % 1024

/-! ### A vector's way (R149) -/

/-- Key of a stage queue: ingress stage k, or egress stage 8 + k. -/
def stageKey (dir : Dir) (k : Nat) : Nat := match dir with | .ingress => k | .egress => 8 + k

def SliceS.stage (x : SliceS) (key : Nat) : List Nat := AMap.get [] x.stages key
def SliceS.setStage (x : SliceS) (key : Nat) (l : List Nat) : SliceS := { x with stages := AMap.set [] x.stages key l }

/-- The whole Kerf cycles of an engine that no stall took. -/
def State.freeCycles (s : State) (e : Nat) : Nat :=
  AMap.get 0 (if e % 16 < 8 then s.cruiser.idle else s.cruiser.egIdle) (e / 16) / 20

/-- The cycles of an engine that no stall took, as far as they are counted: a vector that runs takes the next one, which time reaches later
(DESIGN CHOICE, log entry 70). -/
def State.tdPos (s : State) (e : Nat) : Nat := max (s.freeCycles e) (AMap.get 0 s.cruiser.td (8 * e))

/-- One cycle of engine e with a vector in one of its four lanes and none in the others (13_cruiser_counters.md R383): the vector goes on,
or is removed here or before. -/
def State.tdCycle (s : State) (e : Nat) (gone : Bool) : State :=
  let k := 8 * e + (if gone then 2 else 1)
  let td := AMap.set 0 s.cruiser.td (8 * e) (s.tdPos e + 1)
  { s with cruiser := { s.cruiser with td := AMap.set 0 td k (AMap.get 0 td k + 1) } }

/-- The engine of a stage (00_scope.md R7). -/
def engineOf (sl : Nat) (dir : Dir) (k : Nat) : Nat := 16 * sl + stageKey dir k

/-- The engines from a stage of a pipe to its last, n of them, see a removed vector pass. -/
def State.tdGone (s : State) (e : Nat) : Nat → State
  | 0 => s
  | n + 1 => (s.tdCycle e true).tdGone (e + 1) n

/-- An ingress transfer of a slice holds under EMPTY (08_deck_admission.md R245). -/
def State.pipeHeld (s : State) (sl : Nat) : Bool := (AMap.get none (s.deckOf (sliceHalf sl)).hold (sl % 16)).isSome

/-- The stages of a pipe move in lockstep: none of them is in a block reset, and behind ingress stage 7 no transfer holds
(R141, R157). -/
def State.pipeRuns (s : State) (sl : Nat) (dir : Dir) : Bool :=
  (List.range 8).all (fun k => s.blockUp (pgKerf sl dir k)) && !(decide (dir = .ingress) && s.pipeHeld sl)

/-- Put a vector in front of a stage. -/
def State.toStage (s : State) (sl key i : Nat) : State :=
  let x := s.slice sl
  s.setSlice sl (x.setStage key (x.stage key ++ [i]))

/-- A punted packet or copy leaves its stage for the host punt path (12_host_interface.md R357, R359): HOST_NO_QUEUE
when its code has no ACTIVE queue, else step 4 of the West half. -/
def State.puntFrame (s : State) (i h : Nat) : State :=
  let f := s.frame i
  let w := s.puntMap (vPunt f.vecIn)
  if s.dmaOk ∧ (bit w 31 = false ∨ (s.hq (fld w 0 6)).st ≠ .active) then
    (s.count (pgQueue (fld w 0 6)) (Reg.hqDrops (fld w 0 6 % 32)) 1).dropNull i h rHostNoQueue
  else s.toStep4 i h 0

/-- A vector of an ingress stage is dropped (R149, R150). -/
def State.dropIngress (s : State) (i sl reason : Nat) : State :=
  let f := s.frame i
  let s := s.setFrame i { f with vec := vPut f.vec 284 1 reason, vecIn := vPut f.vec 284 1 reason }
  s.dropNull i (sliceHalf sl) reason

/-- A vector of a stage is dropped: the packet at ingress, this copy at egress. -/
def State.dropStage (s : State) (i sl : Nat) (dir : Dir) (reason : Nat) : State :=
  match dir with
  | .ingress => s.dropIngress i sl reason
  | .egress => s.dropQueued i reason

/-- A vector of a stage is punted with a code. At egress the copy gives back its queue's cells first; it counts in no latency bin
of that queue, and in its DROPPED when the host path drops it (00_scope.md R17, 10_telemetry.md R302; DESIGN CHOICE, log
entry 79). -/
def State.puntStage (s : State) (i sl : Nat) (dir : Dir) (code : Nat) : State :=
  let f := s.frame i
  let v := vPut f.vec 285 1 code
  match dir with
  | .ingress => (s.setFrame i { f with vec := v, vecIn := v, punted := true }).puntFrame i (sliceHalf sl)
  | .egress =>
    let s := s.giveUp i f 22
    let q := f.q
    let f := { f with vec := v, vecIn := vPut f.vecIn 285 1 code, punted := true, cells := [], need := 0
                      master := none, enq := false, tag := 0xC001
                      fromQ := if f.enq then some q else none }
    ((s.setFrame i f).settleDeficit q).puntFrame i (sliceHalf sl)

end Sys2Proof.Machine
end

