-- ==== Sys2Proof/Machine/TimeCmds.lean ====
section
/-! DEFINITION. The commands of the TIME block (10_telemetry.md R287 to R290). -/

namespace Sys2Proof.Machine

/-! ### Events of the TIME page -/
abbrev evPpsIn : Nat := 0
abbrev evStepped : Nat := 1
abbrev evRefLoss : Nat := 2

/-- PTP time wraps at 48 bits of seconds (R287). -/
abbrev ptpModulus : Nat := 2 ^ 48 * 1000000000

/-- SUSPECT of the current bins of a span position (04_span_framing.md R118). -/
def State.markSuspect (s : State) (q : Nat) : State :=
  let pg := pgSpan (q / 8)
  let set := fun (s : State) b => s.setRf pg (Reg.pmFlags (q % 8) b) 0 1 1
  set (set (set (set s 0) 2) 4) 6

def State.markSuspects (s : State) : List Nat → State
  | [] => s
  | q :: qs => (s.markSuspect q).markSuspects qs

/-- PTP time loaded or moved: the time modulo 2^48 seconds, and STEPPED (R289); the current performance bins of span
positions become SUSPECT (04_span_framing.md R118), and an armed snapshot is marked (13_cruiser_counters.md R376). -/
def State.setPtp (s : State) (t : Nat) (frac : Nat) : State :=
  let s := s.markSuspects (s.spans.map (·.1))
  let s : State := { s with cruiser := { s.cruiser with stepped := s.cruiser.stepped || s.cruiser.next.isSome } }
  ({ s with clk := { s.clk with ptp := t % ptpModulus, frac := frac } } : State).raise pgTime evStepped

/-- TM_CMD.SET (R287, R289): TM_SET_HI and TM_SET, an excess of nanoseconds carried. -/
def State.timeSet (s : State) : State :=
  s.setPtp (s.rf pgTime Reg.tmSetHi 0 16 * 2 ^ 32 * 1000000000 + nsOfTs (s.reg64 pgTime Reg.tmSet)) 0

/-- TM_CMD.STEP (R289): the signed nanosecond count of TM_STEP is added. -/
def State.timeStep (s : State) : State :=
  let d := signed 64 (s.reg64 pgTime Reg.tmStep)
  s.setPtp (((s.clk.ptp : Int) + d) % (ptpModulus : Int)).toNat s.clk.frac

/-- A whole PTP second lies within 2 ns (R290). -/
def State.atSecond (s : State) : Bool := decide ((s.now + 2) % 1000000000 ≤ 4)

/-- The width of the PPS_OUT pulse in nanoseconds; WIDTH 0 acts as 1 us (R290, Table 115). -/
def State.ppsWidth (s : State) : Nat := orElse0 (s.rf pgTime Reg.tmPps 12 20) 1 * 1000

/-- PPS_OUT (R290): the pin rises at a whole PTP second while OUT_EN is 1 and bank M2 is on, and falls WIDTH us later. -/
def execPpsOut (level : Bool) (s : State) : Out :=
  s.run (fun s =>
    if level then
      s.onlyIf (s.rbit pgTime Reg.tmPps 0 && s.ioBank 2 && s.atSecond && s.ppsHigh.isNone) (fun s => { s with ppsHigh := some s.clk.up })
    else match s.ppsHigh with
      | some t => s.onlyIf (decide (t + s.ppsWidth ≤ s.clk.up)) (fun s => { s with ppsHigh := none })
      | none => s)

/-- Capture PTP time into TM_PPS_CAP and TM_PPS_CAP_HI (R290). -/
def State.ppsCapture (s : State) : State :=
  let s := s.setReg64 pgTime Reg.tmPpsCap (tsOf s.now)
  let s := s.setReg pgTime Reg.tmPpsCapHi (BitVec.ofNat 32 (s.now / 1000000000 / 2 ^ 32 % 65536))
  s.raise pgTime evPpsIn

/-- PPS_IN (R290): an edge of PPS_IN, taken while IN_EN is 1 and IN_EDGE selects it. -/
def execPpsIn (rising : Bool) (s : State) : Out :=
  s.run (fun s => s.onlyIf (s.rbit pgTime Reg.tmPps 1 && s.ioBank 2 && (s.rbit pgTime Reg.tmPps 2 != rising)) (·.ppsCapture))

/-- REF_LOSS (R288): REF10M_IN is lost while it is selected. -/
def execRefLoss (s : State) : Out := s.run (fun s => s.onlyIf (s.rbit pgTime Reg.tmCtrl 0) (·.raise pgTime evRefLoss))

end Sys2Proof.Machine
end

