-- ==== Sys2Proof/Machine/SpanOps.lean ====
section
/-! DEFINITION. Span framing (04_span_framing.md): scrambling, headers, the receive and transmit sides of a span position,
its defects, channels and performance monitors. -/

namespace Sys2Proof.Machine

/-! ### Events of the SPAN page -/
abbrev evDefect : Nat := 0
abbrev evBin15 : Nat := 1
abbrev evDay : Nat := 2
abbrev evTca : Nat := 3
abbrev evTraceChg : Nat := 4
abbrev evShadow : Nat := 5
abbrev evUnpaired : Nat := 6
abbrev evChOvf : Nat := 7
abbrev evChConflict : Nat := 8

/-- The SPAN page of a position. -/
abbrev pgSp (q : Nat) : Nat := pgSpan (q / 8)

/-- A register of a position. -/
def State.spReg (s : State) (q : Nat) (o : Nat → Nat) : Word := s.reg (pgSp q) (o (q % 8))

/-- Positions of a slice. -/
def slicePositions (sl : Nat) : List Nat := (List.range 8).map (8 * sl + ·)

/-- A position whose port is an enabled span port. -/
def State.spanOn (s : State) (q : Nat) : Bool :=
  s.rbit (pgMacpcs (q / 8)) (Reg.portCtrl (spanSlot q % 32)) 0 && s.isSpan (spanSlot q)

/-! ### Transit pairs (R125, R129) -/

def SpanS.transit (x : SpanS) : Bool := bit x.cfg 0
def SpanS.peer (x : SpanS) : Nat := fld x.cfg 1 3
def SpanS.tclass (x : SpanS) : Nat := fld x.cfg 4 4

/-- The transit partner of a position. -/
def State.partner (s : State) (q : Nat) : Option Nat :=
  let x := s.span q
  let r := 8 * (q / 8) + x.peer
  let y := s.span r
  if s.spanOn q && s.spanOn r && x.transit && y.transit && decide (y.peer = q % 8 ∧ r ≠ q)
      && decide (fld (s.port (spanSlot q)).cfg 0 2 = fld (s.port (spanSlot r)).cfg 0 2) then some r else none

/-- SP_STAT.UNPAIRED. -/
def State.unpaired (s : State) (q : Nat) : Bool := s.spanOn q && (s.span q).transit && (s.partner q).isNone

/-- A position that ends its path here: not transit. -/
def SpanS.terminal (x : SpanS) : Bool := !x.transit

/-! ### Channel routes (R121) -/

/-- OHSP port n runs (R122): EN is 1, and the supply of its bank stands: a port without it also stops inside, and counts no OHSP frame,
which 18_pins_electrical.md R473 leaves open (DESIGN CHOICE, log entry 76). OH_STAT counts the timeslots routed to a port also while it
does not run (log entry 76). -/
def State.ohRuns (s : State) (n : Nat) : Bool := s.rbit pgOhsp (Reg.ohCtrl n) 0 && s.rbit pgChip (Reg.ioSense 3) 31

/-- Where a channel goes: nowhere, Forester, or a timeslot of an OHSP port. -/
inductive ChRoute where
  | none
  | forester
  | ohsp (port ts : Nat)
  deriving DecidableEq, Repr

/-- The route that a destination field asks for at bit lo of SP_CH. -/
def chField (w : Word) (lo : Nat) : ChRoute :=
  match fld w lo 2 with
  | 1 => .forester
  | 2 => .ohsp (fld w (lo + 2) 2) (fld w (lo + 4) 5)
  | _ => .none

/-- The route SP_CH asks for of a channel (path true for the path channel) of an enabled span port. SP_CH of a position that is no enabled
span port asks for none, so that OH_STAT does not count it (DESIGN CHOICE, log entry 76). -/
def State.chAsked (s : State) (q : Nat) (path : Bool) : ChRoute :=
  if s.spanOn q = false then .none
  else if path then (if (s.span q).transit then .none else chField (s.spReg q Reg.spCh) 9)
  else chField (s.spReg q Reg.spCh) 0

/-- The channels of the device in the order in which they keep a timeslot: lower slice, lower position, section first. -/
def allChannels : List (Nat × Bool) := (List.range 256).flatMap (fun q => [(q, false), (q, true)])

/-- The channel that holds an OHSP port's timeslot (R121). -/
def State.chHolder (s : State) (n ts : Nat) : Option (Nat × Bool) :=
  allChannels.find? (fun c => decide (s.chAsked c.1 c.2 = .ohsp n ts))

/-- A channel that loses its timeslot to another (R121). -/
def State.chLost (s : State) (q : Nat) (path : Bool) : Bool :=
  match s.chAsked q path with
  | .ohsp n ts => decide (s.chHolder n ts ≠ some (q, path))
  | _ => false

/-- SP_STAT.CH_CONFLICT. -/
def State.chConflict (s : State) (q : Nat) : Bool := s.chLost q false || s.chLost q true

/-- The route of a channel as it acts: a losing one, and one to a port that does not run, act as routed to none
(R121, R122). -/
def State.chRoute (s : State) (q : Nat) (path : Bool) : ChRoute :=
  match s.chAsked q path with
  | .ohsp n ts => if s.chLost q path ∨ s.rbit pgOhsp (Reg.ohCtrl n) 0 = false then .none else .ohsp n ts
  | r => r

def SpanS.chRx (x : SpanS) (path : Bool) : List Byte := if path then x.pathRx else x.secRx
def SpanS.chTx (x : SpanS) (path : Bool) : List Byte := if path then x.pathTx else x.secTx
def SpanS.setChRx (x : SpanS) (path : Bool) (l : List Byte) : SpanS :=
  if path then { x with pathRx := l } else { x with secRx := l }
def SpanS.setChTx (x : SpanS) (path : Bool) (l : List Byte) : SpanS :=
  if path then { x with pathTx := l } else { x with secTx := l }

/-- A channel byte is lost (R124, R127). -/
def State.chLose (s : State) (q : Nat) : State := (s.count (pgSp q) (Reg.chOvf (q % 8)) 1).raise (pgSp q) evChOvf

/-- A channel byte received from the span (R123, R124). -/
def State.chTake (s : State) (q : Nat) (path : Bool) (b : Byte) : State :=
  let x := s.span q
  let l := x.chRx path
  match s.chRoute q path with
  | .none => s
  | .forester => if l.length < 4096 then s.setSpan q (x.setChRx path (l ++ [b])) else s.chLose q
  | .ohsp _ _ => if l.length < 8 then s.setSpan q (x.setChRx path (l ++ [b])) else s

/-! ### Scrambling (R98) -/

/-- One bit of the generator: its state after, and the bit. -/
def scrStep (g : Nat) : Nat × Nat :=
  let k := (g / 2 ^ 30 + g / 2 ^ 27) % 2
  ((g * 2 + k) % 2 ^ 31, k)

/-- n bits of the generator as a number, the first the most significant. -/
def scrBits : Nat → Nat → Nat → Nat × Nat
  | g, acc, 0 => (g, acc)
  | g, acc, n + 1 => let r := scrStep g; scrBits r.1 (acc * 2 + r.2) n

/-- Bytes combined with the generator from a state on. -/
def scramble : Nat → List Byte → List Byte
  | _, [] => []
  | g, b :: bs => let r := scrBits g 0 8; (b ^^^ BitVec.ofNat 8 r.2) :: scramble r.1 bs

/-- The seed of a frame from its multiframe count and a salt. -/
def scrSeed (salt m : Nat) : Nat :=
  let x := Nat.xor (Nat.xor (Nat.xor (Nat.xor (salt % 2 ^ 31) (m % 128 * 2 ^ 24)) (m * 65536)) (m * 256)) m
  if x = 0 then 0x7FFFFFFF else x

/-- The salt that an SSEL bit names (R99). -/
def State.salt (s : State) (q : Nat) (sel : Bool) : Nat :=
  fld (s.spReg q (if sel then Reg.spSalt1 else Reg.spSalt0)) 0 31

/-! ### Span packet headers (R100, R101) -/

/-- CRC-8 with generator x^8 + x^2 + x + 1 of the low n bits of a number, most significant first. -/
def crc8 (x : Nat) : Nat → Nat → Nat
  | c, 0 => c
  | c, n + 1 =>
    let f := (c / 128 + x / 2 ^ n) % 2
    crc8 x (Nat.xor (c * 2 % 256) (if f = 1 then 7 else 0)) n

/-- HEC of a header's bits [31:8]. -/
def hec (h : Nat) : Nat := Nat.xor (crc8 (h / 256) 0 24) 0x55

/-- A header with its HEC. -/
def spanHeader (len typ : Nat) (eprev : Bool) : Nat :=
  let h := len % 16384 * 2 ^ 18 + typ * 2 ^ 15 + b2n eprev * 2 ^ 14
  h + hec h

def hecOk (h : Nat) : Bool := decide (hec h = h % 256)

/-- A received header: as it is, with its one bit in error corrected, or none. -/
def hecCheck (h : Nat) : Option (Nat × Bool) :=
  if hecOk h then some (h, false)
  else match (List.range 32).find? (fun i => hecOk (Nat.xor h (2 ^ i))) with
    | some i => some (Nat.xor h (2 ^ i), true)
    | none => none

/-! ### FHP (R102) -/

/-- FHP of a pointer: P makes the parity of the 16 bits even. -/
def fhpWord (ptr : Nat) : Nat := ptr + parity ptr 14 * 2 ^ 15

/-- The pointer of a valid FHP. -/
def fhpPtr (w : Nat) : Option Nat :=
  let p := w % 16384
  if parity w 16 = 0 ∧ (p < 8160 ∨ p = 0x3FFF) then some p else none

/-! ### Defects (R113) -/

/-- The receive side has its input failed (R114). -/
def SpanS.inputFailed (x : SpanS) : Bool := x.los || decide (x.fst ≠ .inFrame) || !x.mlock

/-- The near-end defect condition of a second (Table 43). -/
def SpanS.nearBad (x : SpanS) : Bool := x.los || x.lof || x.lom || x.ais || decide (x.fst ≠ .inFrame)

/-- Note in both ends that this second holds a defect. -/
def SpanS.note (x : SpanS) : SpanS :=
  { x with near := { x.near with defect := x.near.defect || x.nearBad }
           far := { x.far with defect := x.far.defect || x.rdi } }

/-- Store a position's state; a defect in it marks the second. -/
def State.putSpan (s : State) (q : Nat) (x : SpanS) : State := s.setSpan q x.note

/-- AIS and RDI are masked: they read 0, and their runs start again. -/
def SpanS.maskRuns (x : SpanS) : SpanS :=
  { x with ais := false, rdi := false, aisRun := 0, aisOff := 0, srdiRun := 0, prdiRun := 0, rdiOff := 0 }

/-- The packet being delineated is cut (R106). -/
def SpanS.cutPkt (x : SpanS) : SpanS :=
  match x.dPkt with
  | some p => { x with dPkt := none, rxq := if p.typ = 0 then x.rxq else x.rxq ++ [{ p with cut := true }] }
  | none => x

/-- Delineation returns to DHUNT. -/
def SpanS.toDhunt (x : SpanS) : SpanS := { x with dst := .hunt, dHdr := [], dBody := 0, dPkt := none, fhpBad := 0 }

/-- Frame alignment is lost: HUNT, with the packet cut (R105, R109). -/
def SpanS.loseFrame (x : SpanS) (now : Nat) : SpanS :=
  { x.cutPkt.toDhunt with
    fst := if x.fst = .off then .off else .hunt, trk := [], mlock := false, miss := 0, mGood := 0, mBad := 0
    par := none, shadow := none, shadowOn := false, fresh := false
    ifT := if x.fst = .inFrame then now else x.ifT, mT := now }

/-- LOS is declared: the other defects are masked (R109, R113). OOF_CNT counts the missing FAW of Table 39 alone (log entry 76). -/
def State.spanLos (s : State) (q : Nat) : State :=
  let x := s.span q
  if x.los then s
  else
    let x := { (x.loseFrame s.clk.up).maskRuns with los := true, lof := false, lom := false, buf := [] }
    (s.putSpan q x).raise (pgSp q) evDefect

/-- LOS is cleared: the search begins, and the masked timers start again. -/
def State.spanLosClear (s : State) (q : Nat) : State :=
  let x := s.span q
  if x.los then
    let x := { x with los := false, fst := if x.fst = .off then .hunt else x.fst, ifT := s.clk.up, mT := s.clk.up }
    (s.putSpan q x).raise (pgSp q) evDefect
  else s

/-- 3 ms in nanoseconds. -/
abbrev ms3 : Nat := 3000000

/-- The persistence time of LOF has run out (Table 41). -/
def State.spanLof (s : State) (q : Nat) : State :=
  let x := s.span q
  if x.los ∨ x.lof = decide (x.fst ≠ .inFrame) ∨ s.clk.up < x.ifT + ms3 then s
  else if x.lof then (s.putSpan q { x with lof := false, mT := s.clk.up }).raise (pgSp q) evDefect
  else (s.putSpan q { x.maskRuns with lof := true, lom := false }).raise (pgSp q) evDefect

/-- The persistence time of LOM has run out. -/
def State.spanLom (s : State) (q : Nat) : State :=
  let x := s.span q
  if x.los ∨ x.lof ∨ x.fst ≠ .inFrame ∨ x.lom = !x.mlock ∨ s.clk.up < x.mT + ms3 then s
  else if x.lom then (s.putSpan q { x with lom := false }).raise (pgSp q) evDefect
  else (s.putSpan q { x.maskRuns with lom := true }).raise (pgSp q) evDefect

/-- A run of equal observations: one longer, or none. -/
def runOf (b : Bool) (n : Nat) : Nat := if b then n + 1 else 0

/-- The status bits of a frame received in IF count towards AIS and RDI (Table 41). -/
def State.spanStatus (s : State) (q : Nat) (pais srdi prdi : Bool) : State :=
  let x := s.span q
  if x.los ∨ x.lof ∨ x.lom then s
  else
    let t := x.terminal
    let a := runOf pais x.aisRun
    let o := runOf (!pais) x.aisOff
    let r := runOf srdi x.srdiRun
    let p := runOf (t && prdi) x.prdiRun
    let c := runOf (!srdi && !(t && prdi)) x.rdiOff
    let ais := t && (decide (3 ≤ a) || (x.ais && decide (o < 3)))
    let rdi := decide (3 ≤ r) || decide (3 ≤ p) || (x.rdi && decide (c < 3))
    let s := s.putSpan q { x with ais := ais, rdi := rdi, aisRun := a, aisOff := o, srdiRun := r, prdiRun := p, rdiOff := c }
    s.raiseIf (ais != x.ais || rdi != x.rdi) (pgSp q) evDefect

/-! ### Delineation (R105) -/

/-- Delineation under way: the position's state and the counts a payload area gives HEC_CORR, HEC_UNCORR, RX_PKTS. -/
structure Delin where
  x    : SpanS
  corr : Nat := 0
  unc  : Nat := 0
  pkts : Nat := 0
  deriving DecidableEq, Repr

/-- The packet that ends before a header waits for its checks. -/
def SpanS.endPkt (x : SpanS) (hecBad eprev : Bool) : SpanS :=
  match x.dPkt with
  | some p =>
    { x with dPkt := none
             rxq := if p.typ = 0 then x.rxq else x.rxq ++ [{ p with hec := hecBad, eprev := eprev }] }
  | none => x

/-- A whole header has been gathered. -/
def Delin.header (d : Delin) (now : Nat) (up : Bool) (h : Nat) : Delin :=
  match hecCheck h with
  | none => { d with x := (d.x.endPkt true false).toDhunt, unc := d.unc + 1 }
  | some (h, fixed) =>
    let len := h / 2 ^ 18 % 16384
    let typ := h / 2 ^ 15 % 8
    let x := d.x.endPkt false (h / 2 ^ 14 % 2 = 1)
    { x := { x with dst := .sync, dHdr := [], dBody := len
                    dPkt := some { typ := typ, len := len, ts := now, cut := !up } }
      corr := d.corr + b2n fixed, unc := d.unc, pkts := d.pkts + b2n (decide (typ = 1)) }

/-- One byte of the payload stream. -/
def Delin.byte (d : Delin) (now : Nat) (up : Bool) (b : Byte) : Delin :=
  let x := d.x
  if x.dst = .hunt then d
  else if 0 < x.dBody then
    { d with x := { x with dBody := x.dBody - 1
                           dPkt := x.dPkt.map (fun p => if p.typ = 1 then { p with body := p.body ++ [b] } else p) } }
  else if x.dHdr.length < 3 then { d with x := { x with dHdr := x.dHdr ++ [b] } }
  else d.header now up (beNat (x.dHdr ++ [b]))

def Delin.bytes (d : Delin) (now : Nat) (up : Bool) : List Byte → Delin
  | [] => d
  | b :: bs => (d.byte now up b).bytes now up bs

/-- The offset of the first header that begins in an area, by the chain (R102); 0x3FFF when none does. -/
def SpanS.chainPtr (x : SpanS) (area : List Byte) : Nat :=
  let o := if x.dHdr = [] then x.dBody
    else match hecCheck (beNat ((x.dHdr ++ area).take 4)) with
      | some (h, _) => 4 - x.dHdr.length + h / 2 ^ 18 % 16384
      | none => 0
  if o < 8160 then o else 0x3FFF

/-- Delineate the payload area of a frame received in IF and IM with its FHP (R102, R105). -/
def State.spanPayload (s : State) (q : Nat) (area : List Byte) (w : Nat) : State :=
  let pg := pgSp q
  let j := q % 8
  let x := s.span q
  let ptr := fhpPtr w
  let s := if ptr.isNone then s.count pg (Reg.fhpErr j) 1 else s
  let off : Bool := match ptr with | some p => decide (x.dst = .sync) && decide (p ≠ x.chainPtr area) | none => false
  let bad := if off = true then x.fhpBad + 1 else 0
  let x := if 2 ≤ bad then (x.endPkt true false).toDhunt else { x with fhpBad := bad }
  let up := (s.port (spanSlot q)).linkUp
  let d : Delin :=
    if x.dst = .hunt then
      match ptr with
      | some p => if p = 0x3FFF then { x := x } else
          ({ x := { x with dst := .first } } : Delin).bytes s.now up (area.drop p)
      | none => { x := x }
    else ({ x := x } : Delin).bytes s.now up area
  let s := s.putSpan q d.x
  ((s.count64 pg (Reg.hecCorr j) d.corr).count64 pg (Reg.hecUncorr j) d.unc).count64 pg (Reg.rxPkts j) d.pkts

/-! ### Frame alignment (R108 to R112) -/

/-- The frame alignment word (Table 35). -/
def faw : List Byte := beBytes 6 0xB1E74C2D9A0F

/-- A block start matches the FAW. -/
def isFaw (blk : List Byte) : Bool := decide (blk.take 6 = faw)

/-- A block of the stream in HUNT (R108): the position, and how many FAW matches found every tracker busy. -/
def SpanS.huntBlock (x : SpanS) (now : Nat) (blk : List Byte) : SpanS × Nat :=
  let m := (byteAt blk 6).toNat
  let trk := x.trk.map (fun t => { t with wait := t.wait - 1 })
  let rest := trk.filter (fun t => decide (t.wait ≠ 0))
  match trk.find? (fun t => decide (t.wait = 0)) with
  | some t =>
    if isFaw blk ∧ m = (t.m + 1) % 256 then
      if t.passes = 1 then
        ({ x with fst := .inFrame, trk := [], mlock := false, exp := m, miss := 0, mGood := 0, mBad := 0, par := none
                  shadow := none, shadowOn := false, fresh := true, ifT := now, mT := now }, 0)
      else ({ x with trk := rest ++ [{ wait := 256, m := m, passes := t.passes + 1 }] }, 0)
    else if isFaw blk then ({ x with trk := rest ++ [{ wait := 256, m := m }] }, 0)
    else ({ x with trk := rest }, 0)
  | none =>
    if isFaw blk then
      if rest.length < 8 then ({ x with trk := rest ++ [{ wait := 256, m := m }] }, 0) else ({ x with trk := rest }, 1)
    else ({ x with trk := rest }, 0)

/-- Blocks of a frame as the shadow tracker sees them, from block k on (R112): the position, and whether a candidate was
confirmed. -/
def SpanS.shadowBlocks (x : SpanS) : Nat → Nat → List Byte → SpanS × Bool
  | _, 0, _ => (x, false)
  | k, n + 1, bs =>
    let blk := bs.take 32
    let m := (byteAt blk 6).toNat
    let r : SpanS × Bool := match x.shadow with
      | none => if isFaw blk then ({ x with shadow := some (k, { wait := 1, m := m }) }, false) else (x, false)
      | some (o, t) =>
        if o ≠ k ∨ t.wait = 1 then (x, false)
        else if isFaw blk ∧ m = (t.m + 1) % 256 then
          ({ x with shadow := some (o, { wait := 1, m := m, passes := t.passes + 1 })
                    shadowOn := x.shadowOn || decide (1 ≤ t.passes) }, decide (t.passes = 1))
        else if isFaw blk then ({ x with shadow := some (k, { wait := 1, m := m }), shadowOn := false }, false)
        else ({ x with shadow := none, shadowOn := false }, false)
    let q := r.1.shadowBlocks (k + 1) n (bs.drop 32)
    (q.1, r.2 || q.2)

/-- The shadow tracker over a frame: a candidate is checked once in each frame after the one that gave it. -/
def SpanS.shadowFrame (x : SpanS) (frame : List Byte) : SpanS × Bool :=
  let x := { x with shadow := x.shadow.map (fun (y : Nat × Tracker) => (y.1, { y.2 with wait := 0 })) }
  x.shadowBlocks 1 255 (frame.drop 32)

/-- The multiframe state after a frame whose MFAS byte is m (R110). -/
def SpanS.mfas (x : SpanS) (now m : Nat) : SpanS :=
  let e := (x.exp + 1) % 256
  if x.mlock then
    if m = e then { x with exp := e, mBad := 0 }
    else if x.mBad = 4 then { x.cutPkt.toDhunt with exp := m, mlock := false, mBad := 0, mGood := 0, mT := now }
    else { x with exp := e, mBad := x.mBad + 1 }
  else if m = e then
    (if x.mGood = 1 then { x with exp := e, mlock := true, mGood := 0, mBad := 0, mT := now }
     else { x with exp := e, mGood := 1 })
  else { x with exp := e, mGood := 0 }

/-- The parity of a frame, bit by bit (R97). -/
def bip8 (frame : List Byte) : Nat := frame.foldl (fun a b => Nat.xor a b.toNat) 0

/-- The number of bits that differ. -/
def bitCount (x : Nat) : Nat → Nat
  | 0 => 0
  | n + 1 => x / 2 ^ n % 2 + bitCount x n

/-- Every how many frames a channel frame comes (R120). -/
def State.chEvery (s : State) (q : Nat) : Nat := if fld (s.port (spanSlot q)).cfg 2 4 = 8 then 32 else 16

/-- The received trace (R95, R127, R132): byte i of the message in the window memory, and TRACE_CHG when a cycle differs
from one that came three times. -/
def State.spanTrace (s : State) (q : Nat) (i : Nat) (b : Byte) : State :=
  let x := s.span q
  let a := i / 4
  let s := s.setMemW (pgSp q) (8 + q % 8) a (put (s.memW (pgSp q) (8 + q % 8) a) (24 - 8 * (i % 4)) 8 b.toNat)
  let t := (if i = 0 then [] else x.trace) ++ [b]
  if i = 63 ∧ t.length = 64 then
    let same := decide (t = x.traceOld)
    let s := s.setSpan q { x with trace := [], traceOld := t, traceRun := if same then x.traceRun + 1 else 1 }
    s.raiseIf (!same && decide (3 ≤ x.traceRun)) (pgSp q) evTraceChg
  else s.setSpan q { x with trace := t }

/-- The channel slots of a channel frame (R120, R121, R127). -/
def State.spanChannels (s : State) (q : Nat) (f : List Byte) : State :=
  let st := (byteAt f 8).toNat
  let s := if st / 4 % 2 = 1 then s.chTake q false (byteAt f 9) else s
  if st / 2 % 2 = 1 then
    if (s.span q).transit then
      let x := s.span q
      if x.relay.length < 16 then s.setSpan q { x with relay := x.relay ++ [byteAt f 23] } else s.chLose q
    else s.chTake q true (byteAt f 23)
  else s

/-- Counts of a frame received in IF and IM (Table 45, R116). -/
def State.spanCounts (s : State) (q : Nat) (errs rei : Nat) : State :=
  let pg := pgSp q
  let j := q % 8
  let x := s.span q
  let e := b2n (decide (errs ≠ 0))
  let s := s.setSpan q { x with
    near := { x.near with frames := x.near.frames + 1, errs := x.near.errs + e }
    far := { x.far with frames := x.far.frames + 1, errs := x.far.errs + b2n (decide (rei ≠ 0)) } }
  let s := (s.count64 pg (Reg.spRxFrames j) 1).count64 pg (Reg.rxErrFrames j) e
  (s.count64 pg (Reg.bipErrBits j) errs).count64 pg (Reg.reiBits j) rei

/-- The shadow tracker searches a frame (R112). -/
def State.spanShadow (s : State) (q : Nat) (x : SpanS) (f : List Byte) : State :=
  let sh := x.shadowFrame f
  let s := s.putSpan q sh.1
  if sh.2 then (s.count (pgSp q) (Reg.shadowCnt (q % 8)) 1).raise (pgSp q) evShadow else s

/-- A frame in its place in IF (R95 to R99, R105, R110 to R112). -/
def State.spanFrame (s : State) (q : Nat) (f : List Byte) : State :=
  let x := s.span q
  let par := bip8 f
  let st := (byteAt f 8).toNat
  let ps := (byteAt f 22).toNat
  let rei := if 9 ≤ st / 16 then 0 else st / 16
  let x := { x with sselRx := st % 2 = 1, paisRx := 128 ≤ ps, srdiRx := st / 8 % 2 = 1, prdiRx := ps / 64 % 2 = 1 }
  let status := fun (s : State) => s.spanStatus q (128 ≤ ps) (st / 8 % 2 = 1) (ps / 64 % 2 = 1)
  if x.fresh then status (s.spanShadow q { x with fresh := false, par := some par } f)
  else
    let x := { x with miss := if isFaw f then 0 else x.miss + 1 }
    if x.miss = 5 then
      let s := s.putSpan q { x.loseFrame s.clk.up with buf := f.drop 32 ++ x.buf }
      s.count (pgSp q) (Reg.oofCnt (q % 8)) 1
    else
      let x := x.mfas s.clk.up (byteAt f 6).toNat
      let errs := match x.par with | some p => bitCount (Nat.xor p (byteAt f 7).toNat) 8 | none => 0
      let x := { x with par := some par, srei := if x.par.isSome then errs else x.srei }
      let s := status (s.spanShadow q x f)
      let x := s.span q
      if x.mlock then
        let s := s.spanCounts q errs rei
        let s := s.setSpan q { s.span q with pstat := byteAt f 22, pathRes := bytesAt f 25 7 }
        let s := s.spanTrace q (x.exp % 64) (byteAt f 24)
        let s := if x.exp % s.chEvery q = 0 then s.spanChannels q f else s
        s.spanPayload q (scramble (scrSeed (s.salt q (st % 2 = 1)) x.exp) (f.drop 32)) (beAt f 10 2)
      else s

/-- Take the received stream of a position as far as it goes: blocks in HUNT, whole frames in IF; n bounds the turns. -/
def State.spanTake (s : State) (q : Nat) : Nat → State
  | 0 => s
  | n + 1 =>
    let x := s.span q
    match x.fst with
    | .off => s
    | .hunt =>
      if x.buf.length < 32 then s
      else
        let r := x.huntBlock s.clk.up (x.buf.take 32)
        let s := s.count (pgSp q) (Reg.trkFull (q % 8)) r.2
        let s := s.putSpan q (if r.1.fst = .inFrame then r.1 else { r.1 with buf := x.buf.drop 32 })
        s.spanTake q n
    | .inFrame =>
      if x.buf.length < 8192 then s
      else ((s.setSpan q { x with buf := x.buf.drop 8192 }).spanFrame q (x.buf.take 8192)).spanTake q n

/-- Bytes of the span stream reach a position (R93): while LOS is present they are not searched (R109). -/
def State.spanReceive (s : State) (q : Nat) (bs : List Byte) : State :=
  let x := s.span q
  if x.los ∨ x.fst = .off then s
  else
    let s := s.setSpan q { x with buf := x.buf ++ bs }
    s.spanTake q ((x.buf.length + bs.length) / 16 + 4)

/-! ### Transmission (R95, R97, R103, R114, R120, R127, R128) -/

/-- The payload area being made: bytes so far, the first header's offset, the position, counts of packets and filler. -/
structure Area where
  out  : List Byte := []
  ptr  : Nat := 0x3FFF
  x    : SpanS
  pkts : Nat := 0
  fillBytes : Nat := 0
  deriving DecidableEq, Repr

/-- Begin a span packet of a type with a body. -/
def Area.begin (a : Area) (typ : Nat) (body : List Byte) : Area :=
  { a with ptr := if a.ptr = 0x3FFF then a.out.length else a.ptr
           x := { a.x with txRest := beBytes 4 (spanHeader body.length typ a.x.txEprev) ++ body, txEprev := false } }

/-- Begin filler of n bytes, header included; n below 4 gives a bare header. -/
def Area.filler (a : Area) (n : Nat) : Area :=
  let b := a.begin 0 (zeros (min (n - 4) 16383))
  { b with x := { b.x with txPad := 0 }, fillBytes := a.fillBytes + b.x.txRest.length }

/-- The next span packet of an area (R103): filler owed by rule 1, a terminal's filler until 16 bytes of it have begun in the area
(rule 2), a packet that is ready, else filler to the end of the area. only says that nothing but filler may be sent. -/
def Area.next (a : Area) (only : Bool) : Area :=
  let x := a.x
  if x.txPad ≠ 0 then a.filler x.txPad
  else if x.terminal ∧ a.fillBytes < 16 then a.filler 16
  else match x.txq with
    | [] => a.filler (8160 - a.out.length)
    | p :: ps =>
      if only then a.filler (8160 - a.out.length)
      else
        let b := a.begin 1 p.1
        { b with x := { b.x with txq := ps, txEprev := p.2, txPad := 80 - p.1.length }, pkts := a.pkts + 1 }

/-- Fill the area in at most n turns. -/
def Area.run (a : Area) (only : Bool) : Nat → Area
  | 0 => a
  | n + 1 =>
    if a.out.length = 8160 then a
    else
      let a := if a.x.txRest.isEmpty then a.next only else a
      let room := 8160 - a.out.length
      ({ a with out := a.out ++ a.x.txRest.take room, x := { a.x with txRest := a.x.txRest.drop room } } : Area).run only n

/-- What a position sends of the section's and path's state (Table 42, R127, R128): SRDI, PSTAT, reserved path bytes,
trace byte of an index. -/
structure PathOut where
  srdi  : Bool
  pstat : Byte
  res   : List Byte
  trc   : Byte
  deriving DecidableEq, Repr

/-- Byte i of a trace memory: word i / 4, first byte in bits [31:24] (R132). -/
def State.traceByte (s : State) (q sel i : Nat) : Byte :=
  BitVec.ofNat 8 (fld (s.memW (pgSp q) (sel + q % 8) (i / 4)) (24 - 8 * (i % 4)) 8)

def State.pathOut (s : State) (q i : Nat) : PathOut :=
  let x := s.span q
  let c := s.spReg q Reg.spCtrl
  let srdi := x.inputFailed || bit c 2 || s.rbit (pgMacpcs (q / 8)) (Reg.portCtrl (spanSlot q % 32)) 6
  let fais := b2n (bit c 1) * 128
  if x.terminal then
    { srdi := srdi, pstat := BitVec.ofNat 8 (fais + b2n (srdi || x.ais) * 64), res := zeros 7, trc := s.traceByte q 0 i }
  else match s.partner q with
    | none => { srdi := srdi, pstat := 0x80, res := zeros 7, trc := 0 }
    | some r =>
      let y := s.span r
      if y.inputFailed then { srdi := srdi, pstat := 0x80, res := zeros 7, trc := 0 }
      else { srdi := srdi, pstat := y.pstat ||| BitVec.ofNat 8 fais, res := bytesAt y.pathRes 0 7, trc := s.traceByte r 8 i }

/-- Take the next byte of a channel toward the span; none is an empty slot. A terminal leaves every 256th slot empty
(R120), and a transit port relays the path of its partner (R127). -/
def State.chSend (s : State) (q : Nat) (path : Bool) : Option Byte × State :=
  let x := s.span q
  if x.terminal ∧ x.slots % 256 = 255 then (none, s)
  else if path ∧ x.transit then
    match s.partner q with
    | none => (none, s)
    | some r =>
      let y := s.span r
      if y.inputFailed then (none, s)
      else match y.relay with
        | [] => (none, s)
        | b :: bs => (some b, s.setSpan r { y with relay := bs })
  else if s.chRoute q path = .none then (none, s)
  else match x.chTx path with
    | [] => (none, s)
    | b :: bs => (some b, s.setSpan q (x.setChTx path bs))

/-- Send one span frame on a position (R95); while the link is down nothing new is ready, so that it carries only filler (R115)
after the packets whose last byte had left the MAC (DESIGN CHOICE, log entry 94). -/
def State.spanSend (s : State) (q : Nat) : State :=
  let pg := pgSp q
  let j := q % 8
  let x := s.span q
  let m := x.txMfas
  let c := s.spReg q Reg.spCtrl
  let po := s.pathOut q (m % 64)
  let ch := decide (m % s.chEvery q = 0)
  let r1 : Option Byte × State := if ch then s.chSend q false else (none, s)
  let r2 : Option Byte × State := if ch then r1.2.chSend q true else (none, s)
  let s := r2.2
  let x := s.span q
  let a := ({ x := x } : Area).run (bit c 1 || s.unpaired q) 4096
  let sstat := x.srei * 16 + b2n po.srdi * 8 + b2n r1.1.isSome * 4 + b2n r2.1.isSome * 2 + b2n (bit c 0)
  let sbip := Nat.xor x.txPar (if bit c 3 then 1 else 0)
  let ovh := faw ++ [BitVec.ofNat 8 m, BitVec.ofNat 8 sbip, BitVec.ofNat 8 sstat, r1.1.getD 0]
    ++ beBytes 2 (fhpWord a.ptr) ++ zeros 10 ++ [po.pstat, r2.1.getD 0, po.trc] ++ po.res
  let f := ovh ++ scramble (scrSeed (s.salt q (bit c 0)) m) a.out
  let s := s.setSpan q { a.x with
    txMfas := (m + 1) % 256, txPar := bip8 f, srei := 0, slots := if ch then (x.slots + 1) % 256 else x.slots }
  let s := (s.setRf pg (Reg.spCtrl j) 3 1 0).transmit (spanSlot q) (.span q f)
  (s.count64 pg (Reg.txPkts j) a.pkts).count64 pg (Reg.txFillBytes j) a.fillBytes

/-! ### A position's start and end (R109, R118, R130) -/

/-- Positions of a list that are unpaired now and were not in a former state. -/
def State.pairRaise (s old : State) : List Nat → State
  | [] => s
  | q :: qs => (s.raiseIf (s.unpaired q && !old.unpaired q) (pgSp q) evUnpaired).pairRaise old qs

/-- Positions of a list in conflict now that were not in a former state. -/
def State.conflictRaise (s old : State) : List Nat → State
  | [] => s
  | q :: qs => (s.raiseIf (s.chConflict q && !old.chConflict q) (pgSp q) evChConflict).conflictRaise old qs

/-- Events of pairs and channels after the span ports of a slice, or SP_CH, have changed. -/
def State.spanEvents (s old : State) (sl : Nat) : State :=
  (s.pairRaise old (slicePositions sl)).conflictRaise old (List.range 256)

/-- What a position keeps while it is no enabled span port: its performance monitors (R131). -/
def SpanS.kept (x : SpanS) : SpanS :=
  { near := x.near, far := x.far, tca := x.tca }

end Sys2Proof.Machine
end

