-- ==== Sys2Proof/Machine/LaneOps.lean ====
section
/-! DEFINITION. Lane macros, lanes and ports (03_lanes_ports.md): PLL rates (R62), enable checks (R69), lane states (R75),
link state (R77, R78), recalibration (R84 to R86), port reset (R87). -/

namespace Sys2Proof.Machine

/-! ### Events of the MACPCS and LANES pages -/
abbrev evLinkChg : Nat := 0
abbrev evFecDegr : Nat := 1
abbrev evCfgRej : Nat := 2
abbrev evLfOn : Nat := 3
abbrev evRfOn : Nat := 4
abbrev evRecalDone : Nat := 5
abbrev evRecalRevert : Nat := 6
abbrev evLos : Nat := 0
abbrev evCdrUnlock : Nat := 1
abbrev evTapsBad : Nat := 2
abbrev evPllUnlock : Nat := 0
abbrev evFwSwitch : Nat := 1

/-- The slots of a slice. -/
def sliceSlots (sl : Nat) : List Nat := (List.range 32).map (32 * sl + ·)

/-- The enabled port that a lane belongs to. -/
def State.laneOwner (s : State) (l : Nat) : Option Nat :=
  (sliceSlots (portSlice l)).find? (fun p => s.portEn p && (s.portLanes p).contains l)

/-- Every lane of a port is ACTIVE. -/
def State.lanesActive (s : State) (p : Nat) : Bool := (s.portLanes p).all (fun l => decide ((s.lane l).st = .active))

/-- LN_PRBS.TX selects a pattern on a lane of the port (R89). -/
def State.prbsTx (s : State) (p : Nat) : Bool :=
  (s.portLanes p).any (fun l => prbsOn (s.reg (pgLane l) (Reg.lnPrbs (l % 32))))

/-! ### PLLs (R61, R62) -/

def pllIdx : Pll → Nat
  | .a => 0 | .b => 1

def MacroS.setPll (x : MacroS) (k : Nat) (y : PllS) : MacroS := if k = 0 then { x with a := y } else { x with b := y }

/-- The rate MC_PLL asks for; 6 and 7 leave the PLL off (Table 22). -/
def State.pllAsked (s : State) (m k : Nat) : Nat :=
  let r := s.rf (pgMacro m) ((if k = 0 then Reg.mcPllA else Reg.mcPllB) (m % 4)) 0 3
  if 5 < r then 0 else r

/-- An enabled port takes its lane clocks from a PLL. -/
def State.pllUsed (s : State) (m k : Nat) : Bool :=
  ((List.range 8).map (8 * m + ·)).any (fun p => s.portEn p && decide (cfgPll (s.port p).cfg = k))

/-- A new MC_PLL value takes effect while no enabled port uses the PLL: the lock falls (R62). -/
def State.pllApply (s : State) (m k : Nat) : State :=
  let x := s.macro_ m
  if s.pllUsed m k ∨ (x.pll k).rate = s.pllAsked m k then s
  else s.setMacro m (x.setPll k { rate := s.pllAsked m k, lock := false })

/-! ### Enable checks (Table 24) -/

/-- The signalling rate a mode needs at a number of lanes (Table 23); 0 where the combination is not valid. -/
def modeRate (mode width : Nat) : Nat :=
  match mode, width with
  | 1, 1 => 1 | 2, 1 => 2 | 3, 1 => 3
  | 4, 1 => 4 | 4, 2 => 3
  | 5, 1 => 5 | 5, 2 => 4 | 5, 4 => 3
  | 6, 2 => 5 | 6, 4 => 4 | 6, 8 => 3
  | 7, 4 => 5 | 7, 8 => 4
  | 8, 8 => 5
  | _, _ => 0

/-- MODE, WIDTH and KIND form a valid combination (R64, R65). -/
def cfgValid (c : Word) : Bool :=
  decide (modeRate (cfgMode c) (cfgWidth c) ≠ 0)
  && (decide (cfgKind c = 0)
    || (decide (cfgKind c = 1) && (decide (cfgMode c = 7 ∧ cfgWidth c = 4) || decide (cfgMode c = 8 ∧ cfgWidth c = 8))))

/-- The other enabled ports of a port's slice. -/
def State.otherPorts (s : State) (p : Nat) : List Nat :=
  (sliceSlots (portSlice p)).filter (fun q => s.portEn q && decide (q ≠ p))

/-- The code of the first check of Table 24 that fails for a configuration at a slot, 0 when every check passes. -/
def State.cfgCheck (s : State) (p : Nat) (c : Word) : Nat :=
  let others := s.otherPorts p
  if p % cfgWidth c ≠ 0 then 1
  else if cfgValid c = false then 2
  else if others.any (fun q => (cfgLanes p c).any (fun l => (s.portLanes q).contains l)) then 3
  else if ((s.macro_ (p / 8)).pll (cfgPll c)).rate ≠ modeRate (cfgMode c) (cfgWidth c) then 4
  else if cfgKind c = 1 ∧ 2 ≤ (others.filter (fun q => decide (cfgKind (s.port q).cfg = 1))).length then 5
  else 0

/-! ### Frames being received (R80, R135) -/

/-- The vectors in the stages of every pipe whose queue key p holds of. -/
def State.inStages (s : State) (p : Nat → Bool) : List Nat :=
  s.slices.flatMap (fun e => (e.2.stages.filter (fun x => p x.1)).flatMap (·.2))

/-- A frame whose tail is here: its data and exact length, FLEN of a vector outside the stages (R135). The vector that left the ingress
stages stays as it was (10_telemetry.md R305). -/
def Frame.complete (f : Frame) (data : List Byte) (reason : Nat) (stage : Bool) : Frame :=
  { (if reason = 0 then f else f.markBad reason) with
    data := data, len := data.length, tail := true, vec := if stage then f.vec else vPut f.vec 266 2 data.length }

/-- Evaluate XOFF of the ports of a slice with PFC enabled, after its FIFO's fill has changed (08_deck_admission.md R255). -/
def State.pfcSlice (s : State) : List Nat → State
  | [] => s
  | p :: ps =>
    let s := if s.rf (pgAdmit (portHalf p)) (Reg.adPfc p) 0 8 = 0 then s else s.pfcEvalAll p (List.range 8)
    s.pfcSlice ps

/-- Every byte of the frames of a root is here: they are complete, a fault found marks them, and what waited for the
tail is taken and accounted (R135, R81, 10_telemetry.md R297). Its length in the ingress FIFO may have changed (08_deck_admission.md R255). -/
def State.completeRoot (s : State) (root : Nat) (data : List Byte) (reason : Nat) : State :=
  let any := s.inStages (fun _ => true)
  let s : State := { s with frames := s.frames.map (fun e => (e.1, e.2.map (fun f =>
    if f.root = root then f.complete data reason (any.contains e.1) else f))) }
  let s := match AMap.get none s.frames root with
    | some f => s.pfcSlice (sliceSlots (portSlice f.src))
    | none => s
  (s.lateDue root data.length).settleRoot root data.length

/-- The frame being received when the link goes down is discarded with PCS_ERROR (R80). -/
def State.rxAbort (s : State) (p : Nat) : State :=
  let x := s.port p
  if x.rxOn then
    let s := s.setPort p { x with rxOn := false, rxCur := none, rxBytes := [], rxBad := none, rxWait := false }
    let s := s.count64 (pgPort p) (Reg.rxPcsErr (p % 32)) 1
    match x.rxCur with
    | some root => s.completeRoot root x.rxBytes rPcs
    | none => s.accountEarly { src := p, len := x.rxBytes.length, reason := rPcs, ts := s.now }
  else s

/-! ### Frames received (R81, R106) -/

/-- An ingress timestamp of a frame that began at t: less RXADJ, in units of 0.25 ns, rounded to the nanosecond (R291,
R292). -/
def State.ingressTsAt (s : State) (p t : Nat) : Nat :=
  (((4 * t : Nat) - signed 16 (s.rf pgTime (Reg.tmPadj p) 0 16) + 2) / 4).toNat

/-- The MACPCS counter of a frame: by its reason, or the good ones (R81, Table 31). -/
def State.rxCount (s : State) (p reason len : Nat) : State :=
  let pg := pgPort p
  let j := p % 32
  if reason = 0 then (s.count64 pg (Reg.rxFramesOk j) 1).count64 pg (Reg.rxBytesOk j) len
  else if reason = rOversize then s.count64 pg (Reg.rxOversize j) 1
  else if reason = rRunt then s.count64 pg (Reg.rxRunt j) 1
  else if reason = rFcs then s.count64 pg (Reg.rxFcsErr j) 1
  else s.count64 pg (Reg.rxPcsErr j) 1

/-- The reason of the rows of Table 38 that a packet's header and the link decide, 0 where none applies. up says that the link is
up, unpaired that the position is a transit port without partner. -/
def spanHead (limit : Nat) (up unpaired : Bool) (k : SpanPkt) : Nat :=
  if k.typ ≠ 1 then rSpanType
  else if k.len < 64 then rRunt
  else if limit < k.len then rOversize
  else if k.cut ∨ up = false then rSpanDefect
  else if unpaired then rSpanUnpaired
  else 0

/-- The reason of the first row of Table 38 that applies, 0 for a packet to deliver. -/
def spanReason (limit : Nat) (up unpaired : Bool) (k : SpanPkt) : Nat :=
  let r := spanHead limit up unpaired k
  if r ≠ 0 then r
  else if k.hec then rSpanHec
  else if k.eprev then rSpanStomped
  else if fcsGood k.body = false then rFcs else 0

/-- The counters of a span packet (Table 38, R107). -/
def State.spanRxCount (s : State) (q reason len : Nat) : State :=
  let p := spanSlot q
  if reason = rSpanStomped then
    (s.count64 (pgSp q) (Reg.rxStomped (q % 8)) 1).count64 (pgPort p) (Reg.rxFcsErr (p % 32)) 1
  else s.rxCount p reason len

/-- A span packet is discarded (R106): one whose delivery has begun is stomped downstream. -/
def State.spanDiscard (s : State) (q : Nat) (k : SpanPkt) (reason : Nat) : State :=
  let p := spanSlot q
  let ts := s.ingressTsAt p k.ts
  let s := s.spanRxCount q reason k.body.length
  let s := if k.typ = 1 then s.bwAdd p k.body.length true else s
  match k.cur with
  | some (some root) => s.completeRoot root k.body reason
  | _ => s.accountEarly { src := p, len := k.body.length, reason := reason, ts := ts }

/-- Packets of a position whose port stops: its link is down (R106). -/
def State.spanFlush (s : State) (q : Nat) : List SpanPkt → State
  | [] => s
  | k :: ks => (s.spanDiscard q k (spanReason (s.maxFrame (spanSlot q)) false false k)).spanFlush q ks

/-- A position ceases to be an enabled span port: its slot of the history, if it has one, notes when (16_forester_security.md R436). -/
def State.histOff (s old : State) (p : Nat) : State :=
  if old.portEn p && old.isSpan p && !(s.portEn p && s.isSpan p) then
    { s with mram := { s.mram with hist := s.mram.hist.map (fun x => if x.pos = spanPos p then { x with lastOn := s.clk.up } else x) } }
  else s

/-- The port of slot p takes a configuration, or stops (R109, R130): the packets its span position was receiving are discarded, and it
starts in OFF with LOS declared, or ends. Its current bins do not cover their interval (R118). -/
def State.spanStart (s old : State) (p : Nat) (on : Bool) : State :=
  if p % 4 ≠ 0 then s
  else
    let q := spanPos p
    let x := s.span q
    let s := if old.isSpan p then (s.spanFlush q x.cutPkt.rxq).markSuspect q else s
    let s := if on ∧ s.isSpan p then
        ((s.putSpan q { x.kept with cfg := s.spReg q Reg.spCfg, los := true }).markSuspect q).raiseIf (!x.los) (pgSp q) evDefect
      else if old.isSpan p then s.setSpan q x.kept else s
    (s.histOff old p).spanEvents old (p / 32)

/-! ### Link state (R77, R78) -/

/-- The port's link goes down: LINK_CHG, LINK_DOWN_CNT, the frame being received, the queues (R279), the neighbour (R342).
en says that EN is still 1. -/
def State.linkFall (s : State) (p : Nat) (en : Bool) : State :=
  if (s.port p).linkUp then
    let s := s.setPort p { s.port p with linkUp := false, condAt := s.clk.up }
    let s := (s.count (pgPort p) (Reg.linkDownCnt (p % 32)) 1).raise (pgPort p) evLinkChg
    let s := s.rxAbort p
    ((s.queuesFall p en).nbrDown p).helloForget p
  else if en then s else s.queuesOff p

/-- The onset of local fault (R78). -/
def State.localOnset (s : State) (p : Nat) : State :=
  if (s.port p).local_ then s
  else
    let s := s.setPort p { s.port p with local_ := true, condAt := s.clk.up }
    (s.count (pgPort p) (Reg.lfCnt (p % 32)) 1).raise (pgPort p) evLfOn

/-- The port loses alignment while it is enabled and Active: local fault, on a span port LOS, link down (R77, R78,
R113). -/
def State.loseAlign (s : State) (p : Nat) : State :=
  let s := s.setPort p { s.port p with aligned := false, remote := false, alignAt := s.clk.up }
  let s := if s.isSpan p then s.spanLos (spanPos p) else s
  (s.localOnset p).linkFall p true

/-- A degraded FEC holds the link of a port down as a local fault (R82). -/
def State.fecHolds (s : State) (p : Nat) : Bool := (s.port p).fecDegr && s.rbit (pgPort p) (Reg.fecDegr (p % 32)) 16

/-- The PCS of a port aligns and deskews and its FEC finds codewords, which lanes that are all ACTIVE allow (R77): local fault
clears, but for a degraded FEC; a span port's follows its framer (R115). That the stream aligns at once when the last lane is
ACTIVE is the model's choice (log entry 75). -/
def State.realign (s : State) (p : Nat) : State :=
  let x := s.port p
  if s.portAct p ∧ s.lanesActive p ∧ x.aligned = false then
    s.setPort p { x with aligned := true, local_ := x.local_ && (s.isSpan p || s.fecHolds p)
                         alignAt := s.clk.up, condAt := s.clk.up }
  else s

/-- The faults and the link of an enabled span port follow its states and defects (R115). -/
def State.settleSpan (s : State) (q : Nat) : State :=
  let p := spanSlot q
  if s.portAct p && s.isSpan p then
    let x := s.span q
    let bad := x.inputFailed || x.ais || decide (x.dst ≠ .sync)
    let s := if bad ∨ x.rdi ∨ (s.port p).local_ ∨ (s.port p).remote then s.setPort p { s.port p with condAt := s.clk.up } else s
    let s := if bad then s.localOnset p else s.setPort p { s.port p with local_ := s.fecHolds p }
    let rose := x.rdi && !(s.port p).remote
    let s := s.setPort p { s.port p with remote := x.rdi }
    let s := if rose then (s.count (pgPort p) (Reg.rfCnt (p % 32)) 1).raise (pgPort p) evRfOn else s
    if bad ∨ x.rdi then s.linkFall p true else s
  else s

/-! ### Recalibration (R84 to R86) -/

/-- ADAPT of a lane: 3 acts as 0 (R72). -/
def State.laneAdapt (s : State) (l : Nat) : Nat := s.rf (pgLane l) (Reg.lnRxcfg (l % 32)) 0 2 % 3

/-- 35 taps of 16 bits that an adaptation finds. -/
def tapsFound (n : Nat) : List Byte := leBytes 70 (Config.adapted n)

/-- FFE and DFE of an ACTIVE lane with ADAPT 0 adapt continuously (R72): what they have come to is a free value, drawn whenever
something looks at it. -/
def State.laneDrift (s : State) (l : Nat) : State :=
  let x := s.lane l
  if x.st = .active ∧ s.laneAdapt l = 0 then (s.setLane l { x with coef := tapsFound s.freeCtr }).drawn else s

def State.lanesDrift (s : State) : List Nat → State
  | [] => s
  | l :: ls => (s.laneDrift l).lanesDrift ls

/-- What a lane's receiver has found by the end of a live recalibration: its eye, and unless ADAPT is 0b10 its CTLE code and its
coefficients; values the spec leaves to the lane (R72, R84). -/
def State.laneRetrained (s : State) (l : Nat) : State :=
  let x := s.lane l
  match x.saved with
  | none => s
  | some _ =>
    let y := { x with eye := Config.adapted s.freeCtr % 65536, saved := none }
    let n := s.freeCtr + 1
    let s := s.setLane l (if s.laneAdapt l = 2 then y else 
      { y with ctle := Config.adapted n % 32, calCtle := Config.adapted n % 32, coef := tapsFound (n + 1) })
    s.drawn.drawn.drawn

def State.lanesRetrained (s : State) : List Nat → State
  | [] => s
  | l :: ls => (s.laneRetrained l).lanesRetrained ls

/-- A live recalibration ends; coefficients already applied stay (R86). -/
def State.liveEnd (s : State) (p : Nat) : State :=
  (s.setPort p { s.port p with recalLive := false }).lanesRetrained (s.portLanes p)

/-- A running recalibration ends with a port reset, which sets no RECAL_DONE (R86). -/
def State.recalDrop (s : State) (p : Nat) : State :=
  let s := if (s.port p).recalLive then s.liveEnd p else s
  s.setPort p { s.port p with recalFull := false }

/-- A running recalibration of either kind is cut short with RECAL_DONE (R86). -/
def State.recalCut (s : State) (p : Nat) : State :=
  let x := s.port p
  if x.recalLive ∨ x.recalFull then
    let s := if x.recalLive then s.liveEnd p else s
    (s.setPort p { s.port p with recalFull := false }).raise (pgPort p) evRecalDone
  else s

/-- A full recalibration is done when every lane is ACTIVE again (R85). -/
def State.recalFullCheck (s : State) (p : Nat) : State :=
  if (s.port p).recalFull ∧ s.lanesActive p then
    (s.setPort p { s.port p with recalFull := false }).raise (pgPort p) evRecalDone
  else s

/-! ### Lane transitions (Table 27) -/

/-- A lane adopts the firmware bank in MC_FW.NEXT (R88). -/
def State.adopt (s : State) (l : Nat) : State :=
  let m := l / 8
  let b := s.rf (pgMacro m) (Reg.mcFw (m % 4)) 0 1
  let x := s.lane l
  if x.fwBank = b then s else (s.setLane l { x with fwBank := b }).raise (pgMacro m) evFwSwitch

/-- With ADAPT = 0b10 a lane uses the CTLE code in LN_RXCFG (R72). -/
def State.laneCtle (s : State) (l : Nat) : State :=
  if s.laneAdapt l = 2 ∧ (s.lane l).st ≠ .dormant then
    s.setLane l { s.lane l with ctle := s.rf (pgLane l) (Reg.lnRxcfg (l % 32)) 4 5 }
  else s

/-- A lane goes DORMANT. With EN = 0, and when a port reset gives it up, it keeps its coefficients: Table 176 clears them for Dormant
and for resets alone (laneZero; DESIGN CHOICE, log entry 84). -/
def State.laneOff (s : State) (l : Nat) : State :=
  let s := s.laneDrift l
  let x := s.lane l
  s.setLane l { fwBank := x.fwBank, ctle := x.ctle, calCtle := x.calCtle, coef := x.coef }

def State.lanesOff (s : State) : List Nat → State
  | [] => s
  | l :: ls => (s.laneOff l).lanesOff ls

/-- Adapted coefficients are cleared (17_reset_retained.md Table 176, Half, Slice and Dormant). With ADAPT = 0b10 the calibration memory
holds what software wrote, which no adaptation found, and keeps it (DESIGN CHOICE, log entry 84). -/
def State.laneZero (s : State) (l : Nat) : State :=
  if s.laneAdapt l = 2 then s else s.setLane l { s.lane l with ctle := 0, calCtle := 0, coef := [], saved := none }

def State.lanesZero (s : State) : List Nat → State
  | [] => s
  | l :: ls => (s.laneZero l).lanesZero ls

/-- A DORMANT lane of an enabled port with PWR Active leaves for ACQUIRE when its PLL is locked and its firmware bank is
not being written (Table 27, R88). -/
def State.laneWake (s : State) (l : Nat) : State :=
  match s.laneOwner l with
  | none => s
  | some p =>
    let b := s.rf (pgMacro (l / 8)) (Reg.mcFw (l / 8 % 4)) 0 1
    if (s.lane l).st = .dormant ∧ s.portPwr p = 0 ∧ s.pllLocked p ∧ (s.macro_ (l / 8)).writing ≠ some b then
      let s := s.adopt l
      (s.setLane l { s.lane l with st := .acquire }).laneCtle l
    else s

def State.lanesWake (s : State) : List Nat → State
  | [] => s
  | l :: ls => (s.laneWake l).lanesWake ls

/-- A lane goes to ACQUIRE with its last coefficients, on RECAL_FULL or a port reset adopting the firmware bank. -/
def State.laneRestart (s : State) (l : Nat) : State :=
  if (s.lane l).st = .dormant then s.laneWake l
  else
    let s := (s.laneDrift l).adopt l
    (s.setLane l { s.lane l with st := .acquire, cdr := false }).laneCtle l

def State.lanesRestart (s : State) : List Nat → State
  | [] => s
  | l :: ls => (s.laneRestart l).lanesRestart ls

/-- A lane goes to STANDBY. -/
def State.lanesStandby (s : State) : List Nat → State
  | [] => s
  | l :: ls =>
    let s := s.laneDrift l
    let x := s.lane l
    let s := if x.st = .dormant then s
      else s.setLane l { x with st := .standby, standbyAt := s.clk.up, wasActive := decide (x.st = .active) }
    s.lanesStandby ls

/-- A lane leaves STANDBY: ACTIVE again after at most 1 s with signal, else ACQUIRE. -/
def State.lanesResume (s : State) : List Nat → State
  | [] => s
  | l :: ls =>
    let x := s.lane l
    let s := if x.st = .standby then
        s.setLane l (if x.signal ∧ x.wasActive ∧ s.clk.up ≤ x.standbyAt + 1000000000 then { x with st := .active, cdr := true }
          else { x with st := .acquire, cdr := false })
      else s
    (s.laneWake l).lanesResume ls

/-! ### Enable, disable, power, reset -/

/-- PORT_STAT.REJ and CFG_REJ of a check that fails (R69). -/
def State.rejectCfg (s : State) (p code : Nat) : State :=
  (s.setPort p { s.port p with rej := code }).raise (pgPort p) evCfgRej

/-- EN rises: the checks, and bring-up (R68, R69). -/
def State.enablePort (s : State) (p : Nat) : State :=
  let c := s.reg (pgPort p) (Reg.portCfg (p % 32))
  let code := s.cfgCheck p c
  if code = 0 then
    let s := s.setPort p { cfg := c }
    let s := if s.portPwr p = 0 ∨ s.isSpan p then s.localOnset p else s
    if s.portPwr p = 0 then s.lanesWake (cfgLanes p c) else s
  else (s.setRf (pgPort p) (Reg.portCtrl (p % 32)) 0 1 0).rejectCfg p code

/-- What EN falling ends: link, recalibration, lanes; a waiting PLL rate is taken (R62, R75). EN reads 0. -/
def State.stopPort (s : State) (p : Nat) : State :=
  let lanes := s.portLanes p
  let s := s.recalCut p
  let s := s.rxAbort p
  let s := (s.linkFall p false).lanesOff lanes
  let s := s.setPort p { rej := (s.port p).rej }
  (s.pllApply (p / 8) 0).pllApply (p / 8) 1

/-- PWR changes on an enabled port (R75, R86). -/
def State.powerPort (s : State) (p pwr : Nat) : State :=
  let s := s.recalCut p
  if pwr = 0 then ((s.localOnset p).lanesResume (s.portLanes p)).realign p
  else
    let s := s.setPort p { s.port p with
      aligned := false, local_ := s.isSpan p && (s.port p).local_, remote := false, alignAt := s.clk.up }
    let s := if s.isSpan p then (s.spanLos (spanPos p)).localOnset p else s
    let s := (s.rxAbort p).linkFall p true
    if pwr = 1 then s.lanesStandby (s.portLanes p) else (s.lanesOff (s.portLanes p)).lanesZero (s.portLanes p)

/-- RST written as 1 while EN is 1 (R87). In Standby and Dormant no lane moves to ACQUIRE and none adopts a bank, as Table 27 has
it (log entry 73). -/
def State.resetPort (s : State) (p : Nat) : State :=
  let c := s.reg (pgPort p) (Reg.portCfg (p % 32))
  let code := s.cfgCheck p c
  let s := s.recalDrop p
  if code = 0 then
    let old := s.portLanes p
    let new := cfgLanes p c
    let s := (s.rxAbort p).linkFall p true
    let s := s.setPort p { cfg := c }
    let s := s.lanesOff (old.filter (fun l => !new.contains l))
    let s := if s.portPwr p = 0 ∨ s.isSpan p then s.localOnset p else s
    let s := if s.portPwr p = 0 then s.lanesRestart new else s
    (s.pllApply (p / 8) 0).pllApply (p / 8) 1
  else
    let s := s.setRf (pgPort p) (Reg.portCtrl (p % 32)) 0 1 0
    (s.stopPort p).rejectCfg p code

/-- RECAL_FULL written as 1 (R85): with EN 1 and PWR Active. -/
def State.recalFull (s : State) (p : Nat) : State :=
  if s.portAct p then
    let s := if (s.port p).recalLive then s.liveEnd p else s
    let s := (s.loseAlign p).lanesRestart (s.portLanes p)
    s.setPort p { s.port p with recalFull := true }
  else s

/-- The lanes of a port keep what they hold at the start of a live recalibration. -/
def State.lanesSave (s : State) : List Nat → State
  | [] => s
  | l :: ls =>
    let s := s.laneDrift l
    (s.setLane l { s.lane l with saved := some ((s.lane l).ctle, (s.lane l).calCtle, (s.lane l).coef) }).lanesSave ls

/-- The lanes of a port take back what they held (R84). -/
def State.lanesRevert (s : State) : List Nat → State
  | [] => s
  | l :: ls =>
    let x := s.lane l
    let s := match x.saved with
      | some v => s.setLane l { x with ctle := v.1, calCtle := v.2.1, coef := v.2.2, saved := none }
      | none => s
    s.lanesRevert ls

/-- RECAL_LIVE written as 1 (R84): while the port is UP and no recalibration runs. -/
def State.recalLive (s : State) (p : Nat) : State :=
  if (s.port p).linkUp ∧ (s.port p).recalFull = false ∧ (s.port p).recalLive = false then
    (s.setPort p { s.port p with recalLive := true }).lanesSave (s.portLanes p)
  else s

/-- A write of PORT_CTRL (Table 32, R69, R75, R84 to R87): EN, PWR and SEND_RF are stored, then the one command that acts. -/
def State.portCtrlWrite (s : State) (p : Nat) (v : Word) : State :=
  let was := s
  let old := s.portCtrl p
  let s := s.setReg (pgPort p) (Reg.portCtrl (p % 32)) (v &&& 0x47)
  let pwr := min 2 (fld v 1 2)
  let s := if bit old 0 = false ∧ bit v 0 then s.enablePort p
    else if bit old 0 ∧ bit v 0 = false then s.stopPort p
    else if bit v 0 ∧ min 2 (fld old 1 2) ≠ pwr then s.powerPort p pwr else s
  let s := if s.portEn p ∧ bit v 6 then s.linkFall p true else s
  let s := if bit old 6 ∧ bit v 6 = false then s.setPort p { s.port p with condAt := s.clk.up } else s
  let s := if s.portEn p = false then s
    else if bit v 5 then s.resetPort p
    else if bit v 4 then s.recalFull p
    else if bit v 3 then s.recalLive p
    else s
  if was.portEn p ≠ s.portEn p ∨ bit v 5 then s.spanStart was p (s.portEn p) else s

/-- The lanes and blocks of a port work: its slice is out of reset. -/
def State.portReady (s : State) (p : Nat) : Bool := s.sliceUp (portSlice p) && s.blockUp (pgPort p)

/-- Loss of signal or CDR unlock on a lane that works (R75, R77, R86): a recalibration of its port ends, ADAPT and ACTIVE are
left for ACQUIRE, and the port loses alignment. -/
def State.laneLost (s : State) (l : Nat) : State :=
  match s.laneOwner l with
  | none => s
  | some p =>
    let x := s.lane l
    let s := if x.st = .acquire ∨ x.st = .adapt ∨ x.st = .active then s.recalCut p else s
    if x.st = .adapt ∨ x.st = .active then
      let s := s.laneDrift l
      (s.setLane l { s.lane l with st := .acquire, cdr := false }).loseAlign p
    else s

/-- A lane has become ACTIVE: a full recalibration may be done (R85), and its port aligns when it was the last (R77). -/
def State.laneUp (s : State) (l : Nat) : State :=
  match s.laneOwner l with
  | some p => (s.recalFullCheck p).realign p
  | none => s

end Sys2Proof.Machine
end

