-- ==== Sys2Proof/Machine/CruiserOps.lean ====
section
/-! DEFINITION. What a snapshot holds (13_cruiser_counters.md R370 to R380), and the reading of top-down counters and
port bandwidth (R383, R384). -/

namespace Sys2Proof.Machine

/-! ### Top-down (R383) -/

/-- Top-down counter c of engine e as it stands without loads (R383): 0 CYCLES, 1 RETIRED, 2 WASTED, 3 FSTARVE, 4 BSTARVE_WL,
5 BSTARVE_DN. A stalled cycle counts its four lanes in the class of the stall, a free one those without a vector in FSTARVE. -/
def State.tdBase (s : State) (e c : Nat) : Nat :=
  let sl := e / 16
  let ing := decide (e % 16 < 8)
  let n := s.tdPos e
  let w := if ing then AMap.get 0 s.cruiser.wl sl / 20 else 0
  let d := AMap.get 0 (if ing then s.cruiser.stalled else s.cruiser.egStalled) sl / 20
  let ran := AMap.get 0 s.cruiser.td (8 * e + 1)
  let gone := AMap.get 0 s.cruiser.td (8 * e + 2)
  if c = 0 then n + w + d else if c = 1 then ran else if c = 2 then gone else if c = 3 then 4 * n - (ran + gone)
  else if c = 4 then 4 * w else 4 * d

/-- Top-down counter c of engine e. -/
def State.tdRead (s : State) (e c : Nat) : Nat := (AMap.get 0 s.cruiser.tdOff (8 * e + c) + s.tdBase e c) % 2 ^ 64

/-- Load a top-down counter (R371). -/
def State.tdLoad (s : State) (e c v : Nat) : State :=
  { s with cruiser := { s.cruiser with
      tdOff := AMap.set 0 s.cruiser.tdOff (8 * e + c) ((v + 2 ^ 64 - s.tdBase e c % 2 ^ 64) % 2 ^ 64) } }

/-! ### Bandwidth (R384) -/

/-- The bandwidth of a slot as software sees it: zero for a slot that is not the first lane of an enabled port. -/
def State.bwRead (s : State) (p : Nat) : BwS := if s.portEn p then AMap.get {} s.cruiser.bw p else {}

/-- A time in TS format, zero standing for none. -/
def BwS.fields (x : BwS) : List Nat := [x.lastRx, x.lastTx, x.peakRx, x.peakTx, x.peakRxT, x.peakTxT]

/-- The window length in nanoseconds: 10^WIN us, WIN above 6 acting as 6. -/
def State.bwWindow (s : State) : Nat := 10 ^ min 6 (s.rf pgCruiser Reg.crBwCtrl 0 3) * 1000

/-! ### Register counters (R370) -/

/-- A counter register's low word lies at an offset of a page: its width in words; none elsewhere. The PFC counts of
ADMIT exist for the half's own slots (R286). -/
def counterAt (p o : Nat) : Option Bool :=
  match regSpec p o with
  | some r =>
    if r.ctr && ({ r with wide := false } : RegSpec).covers o
        && !(decide (pageBlk p = some .admission) && decide (0x4000 ≤ o)
          && decide ((o - 0x4000) / 8 / 512 ≠ (if p < 0x500 then 0 else 1))) then some r.wide else none
  | none => none

/-- The counters of a page: offsets ascending, and values (R379). -/
def State.pageCounters (s : State) (p : Nat) : List (Nat × Nat) :=
  (List.range 8192).filterMap (fun i => match counterAt p (4 * i) with
    | some true => some (4 * i, s.reg64 p (4 * i))
    | some false => some (4 * i, (s.reg p (4 * i)).toNat)
    | none => none)

/-- The pages of a half's part, ascending: the West part holds the global pages too (R378). -/
def partPages (h : Nat) : List Nat :=
  (List.range 0x1400).filter (fun p => (pageBlk p).isSome && (match pageHalf p with
    | none => decide (h = 0) | some x => decide (x.val = h)))

/-! ### Words of a part (R379) -/

/-- Two words of a 64-bit value at a word address. -/
def words64 (a v : Nat) : List (Nat × Word) := [(a, BitVec.ofNat 32 v), (a + 1, BitVec.ofNat 32 (v / 2 ^ 32))]

/-- 64-bit values one after another from a word address. -/
def words64s : Nat → List Nat → List (Nat × Word)
  | _, [] => []
  | a, v :: vs => words64 a v ++ words64s (a + 2) vs

/-- The page blocks from byte offset o on: each page with its counters. -/
def blockWords : Nat → List (List (Nat × Nat)) → List (Nat × Word)
  | _, [] => []
  | o, cs :: ps =>
    (cs.zipIdx.flatMap (fun e => (o / 4 + 4 * e.2, BitVec.ofNat 32 e.1.1) :: words64 (o / 4 + 4 * e.2 + 2) e.1.2))
    ++ blockWords (o + 16 * cs.length) ps

/-- The directory entries: page, counter count, offset of its block. -/
def dirWords : Nat → Nat → List (Nat × List (Nat × Nat)) → List (Nat × Word)
  | _, _, [] => []
  | i, o, e :: es =>
    (0x400 + 2 * i, BitVec.ofNat 32 (e.1 % 2 ^ 13 + e.2.length * 65536)) :: (0x400 + 2 * i + 1, BitVec.ofNat 32 o)
    :: dirWords (i + 1) (o + 16 * e.2.length) es

/-- Unused directory entries are all ones. -/
def dirRest (n : Nat) : List (Nat × Word) :=
  (List.range (2 * (2048 - n))).map (fun k => (0x400 + 2 * n + k, BitVec.allOnes 32))

/-- The PKTS, BYTES and DROPS of records, summed. -/
def sumRecs (rs : List FlowRec) : List Nat := [(rs.map (·.pkts)).sum, (rs.map (·.bytes)).sum, (rs.map (·.drops)).sum]

/-- S_LINE of slice i of a half: its cache lines and its eviction queue (R375). -/
def TallyS.lineSums (t : TallyS) (i : Nat) : List Nat :=
  sumRecs (t.lines.filterMap (fun e => if e.1 / 65536 = i then e.2.map (·.rec_) else none)
    ++ (AMap.get [] t.evq i).map (·.1))

/-- The base section without its header (Table 142). -/
def State.baseWords (s : State) (h : Nat) : List (Nat × Word) :=
  let ps := (partPages h).filterMap (fun p => let cs := s.pageCounters p; if cs.isEmpty then none else some (p, cs))
  let t := s.tallyOf h
  dirWords 0 0x5000 ps ++ dirRest ps.length ++ blockWords 0x5000 (ps.map (·.2))
  ++ (List.range 256).flatMap (fun e =>
      words64s (0x40000 + 16 * e) ((List.range 6).map (fun c => s.tdRead (256 * h + e) c)))
  ++ (List.range 512).flatMap (fun p => words64s (0x41000 + 16 * p) (s.bwRead (512 * h + p)).fields)
  ++ (List.range 16).flatMap (fun i => words64s (0x43000 + 8 * i) (t.lineSums i))
  ++ words64s 0x43080 (sumRecs (t.recs.filterMap (·.2)) ++ [t.lostDrops])

/-- The words of counter pairs, four words each, at a word address. -/
def pairWords (a : Nat) (m : AMap CPair) : List (Nat × Word) :=
  m.flatMap (fun e => words64s (a + 4 * e.1) [e.2.pkts, e.2.bytes])

/-- The histograms' words (R324). -/
def histWords (a : Nat) (m : AMap Nat) : List (Nat × Word) :=
  m.flatMap (fun e => words64 (a + 128 * (e.1 / 64) + 2 * (e.1 % 64)) e.2)

/-- The counter pairs of a half's Kerf stages, in ascending page order (R379). -/
def State.kerfWords (s : State) (h a : Nat) : List (Nat × Word) :=
  s.mem.filterMap (fun e =>
    let pg := e.1 / 2 ^ 40
    let k := pg % 0x20 - 2
    if pageHalf pg = some (if h = 0 then 0 else 1) ∧ 0x1000 ≤ pg ∧ 2 ≤ pg % 0x20 ∧ k < 16 ∧ e.1 / 2 ^ 32 % 256 = 4 then
      some (a + ((pg - 0x1000) / 0x20 % 16 * 16 + k) * 32768 + e.1 % 2 ^ 32, e.2)
    else none)

/-- Bytes of the optional families in their order (Table 142). -/
def famLens : List Nat := [8388608, 8404992, 4194304, 33554432]

/-- Part offsets of the families of a mask, 0 when absent, and the part's length. -/
def famOfs (fam : Nat) : Nat → Nat → List Nat → List Nat × Nat
  | _, o, [] => ([], o)
  | i, o, l :: ls =>
    let on := decide (fam / 2 ^ i % 2 = 1)
    let r := famOfs fam (i + 1) (if on then o + l else o) ls
    ((if on then o else 0) :: r.1, r.2)

/-- The words of one family at a byte offset. -/
def State.famWords (s : State) (h i o : Nat) : List (Nat × Word) :=
  let m := s.matrixOf h
  if o = 0 then []
  else if i = 0 then histWords (o / 4) m.hist
  else if i = 1 then pairWords (o / 4) m.cells
  else if i = 2 then pairWords (o / 4) m.drops
  else s.kerfWords h (o / 4)

/-- The part of a half as it is captured now (R374, R379, R382); its write waits from now on when the stack retrains. -/
def State.capturePart (s : State) (h fam : Nat) : SnapPart :=
  let wait := decide ((s.hbmOf h).st = .retrain)
  if s.halfUp h = false ∨ (h = 1 ∧ s.flumeUp = false) then { absent := true, ofs := [0, 0, 0, 0], wait := wait }
  else
    let r := famOfs fam 0 0x200000 famLens
    { words := s.baseWords h ++ (List.range 4).flatMap (fun i => s.famWords h i (r.1.getD i 0)), len := r.2, ofs := r.1, wait := wait }

/-- Words from word address a on, n of them, of an ascending sparse list. -/
def denseWords : List (Nat × Word) → Nat → Nat → List Word
  | _, _, 0 => []
  | [], _, n + 1 => 0 :: denseWords [] 0 n
  | e :: es, a, n + 1 => if e.1 = a then e.2 :: denseWords es (a + 1) n else 0 :: denseWords (e :: es) (a + 1) n

/-- A part's bytes after the header. -/
def SnapPart.body (x : SnapPart) : List Byte := wordsLe (denseWords x.words 16 (x.len / 4 - 16))

/-- The flags of header word 7 (Table 143). -/
def CruiserS.flags (c : CruiserS) (x : SnapPart) : Nat := b2n c.wasStepped + 2 * b2n x.absent + 4 * b2n x.wait

/-- The header of a half's part (Table 143). -/
def CruiserS.header (c : CruiserS) (x : SnapPart) (h : Nat) : List Word :=
  let w := fun (v : Nat) => BitVec.ofNat 32 v
  let ts := tsOf c.t
  let d := tsOf (x.doneAt.getD 0)
  [w (1 + h * 65536), w c.n, w ts, w (ts / 2 ^ 32), w d, w (d / 2 ^ 32), w c.famRun, w (c.flags x), w x.len]
  ++ x.ofs.map w ++ [w (crc32cStd x.body), 0, 0]

/-- All bytes of a part. -/
def CruiserS.bytes (c : CruiserS) (x : SnapPart) (h : Nat) : List Byte := wordsLe (c.header x h) ++ x.body

end Sys2Proof.Machine
end

