-- ==== Sys2Proof/Machine/Cruiser.lean ====
section
/-! DEFINITION. The commands of Cruiser: snapshots and bandwidth windows (13_cruiser_counters.md R373 to R384). -/

namespace Sys2Proof.Machine

/-! ### Events of the CRUISER page -/
abbrev evSnapDone : Nat := 0
abbrev evSkipped : Nat := 1
abbrev evReject : Nat := 2
abbrev evHostErr : Nat := 3

/-- REJ codes of CR_STAT (Table 147). -/
abbrev snapBusy : Nat := 1
abbrev snapTooSoon : Nat := 2
abbrev snapHostShort : Nat := 3

def State.setCruiser (s : State) (c : CruiserS) : State := { s with cruiser := c }

/-- CR_PERIOD in nanoseconds, 0 for one snapshot; below 1,000 us acts as 1,000 (R377). -/
def periodNs (us : Nat) : Nat := if us = 0 then 0 else max 1000 us * 1000

/-- A refused request (R373). -/
def State.snapReject (s : State) (why : Nat) : State :=
  ((s.setCruiser { s.cruiser with rej := why }).count pgCruiser Reg.crRejects 1).raise pgCruiser evReject

/-- CR_CTRL.SNAP written as 1 (R373). -/
def State.snapReq (s : State) : State :=
  let c := s.cruiser
  let t := nsOfTs (s.reg64 pgCruiser Reg.crSnapT)
  if c.st ≠ .idle then s.snapReject snapBusy
  else if t < s.now + 2000 then s.snapReject snapTooSoon
  else s.setCruiser { c with st := .armed, next := some t, stepped := false, auto := false, fam := s.rf pgCruiser Reg.crFam 0 4
                             period := periodNs (s.reg pgCruiser Reg.crPeriod).toNat }

/-- CR_CTRL.STOP written as 1 (R377): the armed capture is cancelled; STOP clears when STATE is IDLE. -/
def State.snapStop (s : State) : State :=
  let c := { s.cruiser with next := none, period := 0 }
  if c.st = .idle ∨ c.st = .armed then s.setCruiser { c with st := .idle, stop := false }
  else s.setCruiser { c with stop := true }

/-- A write of CR_CTRL (Table 147). -/
def State.crCtrlWrite (s : State) (v : Word) : State :=
  let s := s.setRf pgCruiser Reg.crCtrl 2 1 (fld v 2 1)
  let s := if bit v 1 then s.snapStop else s
  if bit v 0 then s.snapReq else s

/-- The capture time that follows T under a period (R377). -/
def nextCapture (t period : Nat) : Option Nat := if period = 0 then none else some (t + period)

/-- The capture at T (R374, R377, R382). A periodic capture is skipped while background work is deferred
(15_firebreak_power.md R409). -/
def State.capture (s : State) : State :=
  let c := s.cruiser
  match c.next with
  | none => s
  | some t =>
    if s.now < t then s
    else if c.st = .armed ∧ (c.auto && s.deferred) = false then
      s.setCruiser { c with st := .capturing, next := nextCapture t c.period, t := t, famRun := c.fam
                            n := ((s.reg pgCruiser Reg.crSeq).toNat + 1) % 2 ^ 32, wasStepped := c.stepped, stepped := false, auto := true
                            west := s.capturePart 0 c.fam, east := s.capturePart 1 c.fam }
    else
      ((s.setCruiser { c with next := nextCapture t c.period }).count pgCruiser Reg.crSkipped 1).raise pgCruiser evSkipped

/-- SNAPSHOT_CAPTURE (R374). -/
def execSnapshotCapture (s : State) : Out := s.run (·.capture)

/-- The snapshot is complete: CR_SEQ, CR_SNAPS, DONE; STATE is IDLE, or ARMED for the next periodic one (R377, R381). -/
def State.snapEnd (s : State) : State :=
  let c := s.cruiser
  let s := s.setReg pgCruiser Reg.crSeq (BitVec.ofNat 32 c.n)
  let st := if c.next.isSome then SnapSt.armed else SnapSt.idle
  let s := s.setCruiser { c with st := st, stop := false, west := {}, east := {} }
  (s.count pgCruiser Reg.crSnaps 1).raise pgCruiser evSnapDone

/-- Write words into the stack of a half from a word address. -/
def State.hbmWords (s : State) (h a : Nat) (ws : List Word) : State := s.setMemWs (pgHbm h) 0 a ws

/-- The part of half h is complete in its slot (R378, R322), written from the captured values whatever has been reset since (R382):
while the stack retrains, or starts again after a reset of the half, the write waits, and it is deferred while
the stack is too hot (15_firebreak_power.md R415); to a stack that has failed nothing can be written. -/
def State.partDone (s : State) (h : Nat) : State :=
  let c := s.cruiser
  let x := if h = 0 then c.west else c.east
  if c.st ≠ .capturing ∨ x.doneAt.isSome ∨ (AMap.get false s.fire.hbmHot h && !s.fixedMode) then s
  else if (s.hbmOf h).st = .retrain ∨ ((s.hbmOf h).st = .init ∧ x.absent = false) then s
  else
    let x := { x with doneAt := some s.now }
    let c := if h = 0 then { c with west := x } else { c with east := x }
    let s := if (s.hbmOf h).st ≠ .failed then
        s.hbmWords h (2 ^ 28 + 2 ^ 25 * (c.n % 8)) (c.header x h ++ denseWords x.words 16 (x.len / 4 - 16))
      else s
    let s := s.setCruiser c
    if c.west.doneAt.isSome ∧ c.east.doneAt.isSome then
      if s.rbit pgCruiser Reg.crCtrl 2 then s.setCruiser { c with st := .transfer } else s.snapEnd
    else s

/-- SNAPSHOT_PART_DONE (R378). -/
def execSnapshotPartDone (h : Half) (s : State) : Out := s.run (·.partDone h.val)

/-- The notice of a snapshot (Table 144). -/
def CruiserS.notice (c : CruiserS) (short : Bool) (k : Nat) : List Word :=
  let w := fun (v : Nat) => BitVec.ofNat 32 v
  [w (0x70 + c.flags c.west * 2 ^ 8 + b2n c.east.absent * 2 ^ 11 + b2n short * 2 ^ 12 + k % 16 * 2 ^ 16), w c.n,
   w (tsOf c.t), w (tsOf c.t / 2 ^ 32), w c.west.len, w c.east.len, 0, 0]

/-- Issue a snapshot's notice. -/
def State.snapNotice (s : State) (ws : List Word) : State :=
  match s.putNotice ws with | some t => t | none => s.noticeLost

/-- The copy of a snapshot to host memory, with Relaxed Ordering, ends (R381, R382). -/
def State.transferDone (s : State) : State :=
  let c := s.cruiser
  if c.st ≠ .transfer then s
  else if s.dmaOk = false then (s.raise pgCruiser evHostErr).snapEnd
  else
    let k := c.n % orElse0 (s.rf pgCruiser Reg.crHostCfg 0 4) 1
    let len := (s.reg pgCruiser Reg.crHostLen).toNat
    let wl := (c.west.len + 4095) / 4096 * 4096
    if len < wl + c.east.len then
      let s := (s.setCruiser { c with rej := snapHostShort }).raise pgCruiser evHostErr
      (s.snapNotice (c.notice true k)).snapEnd
    else
      let a := s.reg64 pgCruiser Reg.crHostAddr + k * len
      let s := (s.emit (.hostWrite a (c.bytes c.west 0) true)).emit (.hostWrite (a + wl) (c.bytes c.east 1) true)
      (s.snapNotice (c.notice false k)).snapEnd

/-- SNAPSHOT_TRANSFER_DONE (R381). -/
def execSnapshotTransferDone (s : State) : Out := s.run (·.transferDone)

/-! ### Bandwidth windows (R384) -/

/-- A port's window that began at PTP time t ends. -/
def BwS.roll (x : BwS) (t : Nat) : BwS :=
  let x := if x.peakRx < x.rx then { x with peakRx := x.rx, peakRxT := tsOf t } else x
  let x := if x.peakTx < x.tx then { x with peakTx := x.tx, peakTxT := tsOf t } else x
  { x with lastRx := x.rx, lastTx := x.tx, rx := 0, tx := 0 }

/-- A map of ports with a function applied to each, entries of value {} left out. -/
def bwMap (f : BwS → BwS) (m : AMap BwS) : AMap BwS :=
  m.filterMap (fun e => if f e.2 = {} then none else some (e.1, f e.2))

/-- The window's end, when PTP time has left it; or the boundary at which counting starts (R384). -/
def State.bwEnd (s : State) : State :=
  let c := s.cruiser
  let start := s.now / s.bwWindow * s.bwWindow
  if c.bwOn then
    if start = c.bwAt then s else s.setCruiser { c with bw := bwMap (·.roll c.bwAt) c.bw, bwAt := start }
  else if c.bwAt ≤ s.now then s.setCruiser { c with bwOn := true, bwAt := start }
  else s

/-- BW_WINDOW_END (R384). -/
def execBwWindowEnd (s : State) : Out := s.run (·.bwEnd)

/-- Peaks and their times become zero. -/
def BwS.noPeaks (x : BwS) : BwS := { x with peakRx := 0, peakTx := 0, peakRxT := 0, peakTxT := 0 }

/-- PK_CLR written as 1. -/
def State.pkClr (s : State) : State := s.setCruiser { s.cruiser with bw := bwMap (·.noPeaks) s.cruiser.bw }

/-- WIN is written: peaks become zero, and counting restarts at the next boundary of the new window. -/
def State.winWrite (s : State) (k : Nat) : State :=
  let s := s.setRf pgCruiser Reg.crBwCtrl 0 3 k
  let w := s.bwWindow
  s.setCruiser { s.cruiser with bw := bwMap (fun x => { x.noPeaks with rx := 0, tx := 0 }) s.cruiser.bw, bwOn := false
                                bwAt := (s.now / w + 1) * w }

/-- A write of CR_BW_CTRL (Table 147). One that writes PK_CLR and leaves WIN as it stands is no write of WIN, so that counting
goes on (DEDUCED, log entry 72). -/
def State.crBwWrite (s : State) (v : Word) : State :=
  if bit v 8 ∧ fld v 0 3 = s.rf pgCruiser Reg.crBwCtrl 0 3 then s.pkClr else s.winWrite (fld v 0 3)

end Sys2Proof.Machine
end

