-- ==== Sys2Proof/Machine/Deparse.lean ====
section
/-! DEFINITION. The deparser (05_parser_kerf.md R162 to R164, 08_deck_admission.md R254, 11_raft.md R336): how a
transmitted frame is built from a vector and the received bytes. -/

namespace Sys2Proof.Machine

/-- Overwrite n bytes from index i with a big-endian number. -/
def setBe (bs : List Byte) (i n x : Nat) : List Byte := putBytes bs i (beBytes n x)

/-! ### ECN (R254) -/

/-- An IP header with its ECN field set to x. -/
def setEcn (data : List Byte) (o ver x : Nat) : List Byte :=
  let b := (byteAt data (o + 1)).toNat
  setBe data (o + 1) 1 (if ver = 4 then b - b % 4 + x else b - b / 16 % 4 * 16 + x * 16)

/-- A ones' complement checksum at index i after the 16-bit word at index j changed from a to b. -/
def csumFix (data : List Byte) (i a b : Nat) : List Byte :=
  let c := 65535 - beAt data i 2
  setBe data i 2 (65535 - onesAdd (onesAdd c (65535 - a)) b)

/-- The frame's data with the congestion mark applied, and whether it counts in AD_ECN_MARKS (R254). -/
def markEcn (v : List Byte) (cut : Nat) (data : List Byte) : List Byte × Bool :=
  match ipAt v cut data with
  | none => (data, false)
  | some (o, ver) =>
    let e := ecnField data o ver
    if e = 0 then (data, false)
    else if e = 3 then (data, true)
    else
      let d := setEcn data o ver 3
      (if ver = 4 then csumFix d (o + 10) (beAt data o 2) (beAt d o 2) else d, true)

/-! ### Tags (Table 58) and the Raft tag (11_raft.md R330, R336) -/

/-- TAGOP at byte i: the bytes, and whether a pop found no tag. With fewer bytes in front a tag goes to the end of the data (DESIGN
CHOICE, log entry 77). -/
def tagOp (op tag i : Nat) (bs : List Byte) : List Byte × Bool :=
  let has := decide (i + 4 ≤ bs.length ∧ beAt bs i 2 = 0x8100)
  if op = 1 ∨ (op = 3 ∧ has = false) then (bs.take i ++ beBytes 2 0x8100 ++ beBytes 2 tag ++ bs.drop i, false)
  else if op = 2 then (if has then (bs.take i ++ bs.drop (i + 4), false) else (bs, true))
  else if op = 3 then (setBe bs (i + 2) 2 tag, false)
  else (bs, false)

/-- The 18 bytes of a new Raft tag (R330). -/
def State.newRaftTag (s : State) (h : Nat) (v : List Byte) : List Byte :=
  let c := s.raftCfg h
  let src := if vInject v then (0, 0) else s.learnPort (portHalf (vInPort v)) (vInPort v)
  let fl := dstFlood v
  let w0 := 2 ^ 28 + b2n fl * 2 ^ 24 + vRing v * 2 ^ 22 + vTc v * 2 ^ 18 + c.hop * 2 ^ 12 + vColor v * 2 ^ 10
    + src.2 * 2 ^ 9 + (if fl then 0 else dstDlag v) * 2 ^ 8 + b2n (vInject v) * 2 ^ 7
  let w1 := c.devid * 65536 + (if fl then 0 else dstDev v)
  let w2 := (if fl then 0 else dstPort v) * 2 ^ 22 + src.1 * 4096 + (if fl then vRaftDst v % 4096 else 0)
  beBytes 2 0x88B5 ++ beBytes 4 w0 ++ beBytes 4 w1 ++ beBytes 4 w2 ++ beBytes 4 (vFlowHash v)

/-- A relayed tag at byte 12 (R336): HOPS one lower, the destination from RAFT_DST when PUSH is 1. -/
def relayTag (f : Frame) (v bs : List Byte) : List Byte :=
  let w0 := beAt bs 14 4
  let hops := (raftHops f.data + 63) % 64
  let w0 := w0 - w0 / 4096 % 64 * 4096 + hops * 4096
  if dstPush v then
    let w0 := w0 - w0 / 256 % 2 * 256 + dstDlag v * 256
    let w1 := beAt bs 18 4 / 65536 * 65536 + dstDev v
    let w2 := dstPort v * 2 ^ 22 + beAt bs 22 4 % 2 ^ 22
    setBe (setBe (setBe bs 14 4 w0) 18 4 w1) 22 4 w2
  else setBe bs 14 4 w0

/-! ### Templates (R163) -/

/-- The 128 bytes of template t of a slice: byte 4i of the template in word i bits [31:24] (Table 64). -/
def State.template (s : State) (sl t : Nat) : List Byte :=
  (s.memWs (pgKerf sl .egress 7) 5 (32 * t) 32).flatMap (fun w => beBytes 4 w.toNat)

/-- A header prepared with the fixups of KIND 1 or 2 around a body of n bytes: lengths, the outer ECN field, the IPv4
header checksum, UDP of length udp. port is the UDP source port, vni none when there is no VNI to write. -/
def fixups (kind l3 l4 : Nat) (hdr : List Byte) (n udp : Nat) (ecn port vni : Option Nat) : List Byte :=
  let hdr := setBe hdr (l4 + 4) 2 udp
  let hdr := setBe hdr (l4 + 6) 2 0
  let hdr := match port with | some x => setBe hdr l4 2 x | none => hdr
  let hdr := match vni with | some x => setBe hdr (l4 + 12) 3 x | none => hdr
  if kind = 1 then
    let hdr := setBe hdr (l3 + 2) 2 (hdr.length - l3 + n)
    let hdr := match ecn with | some e => setEcn hdr l3 4 e | none => hdr
    let hdr := setBe hdr (l3 + 10) 2 0
    let ihl := (byteAt hdr l3).toNat % 16 * 4
    setBe hdr (l3 + 10) 2 (65535 - onesSum (bytesAt hdr l3 ihl))
  else
    let hdr := setBe hdr (l3 + 4) 2 (hdr.length - l3 - 40 + n)
    match ecn with | some e => setEcn hdr l3 6 e | none => hdr

/-- A template is usable (R163): LEN, KIND, and every fixed field within LEN. -/
def templateOk (t : List Byte) : Bool :=
  let len := (byteAt t 0).toNat
  let kind := (byteAt t 1).toNat
  let l3 := (byteAt t 2).toNat
  let l4 := (byteAt t 3).toNat
  decide (len ≤ 112 ∧ kind ≤ 2
    ∧ (kind = 0 ∨ (l3 + (if kind = 1 then 12 else 6) ≤ len ∧ l4 + 15 ≤ len)))

/-- The header a template emits in front of an inner frame (R163). -/
def templateHeader (t v : List Byte) (inner : List Byte) (ecn : Option Nat) : List Byte :=
  let kind := (byteAt t 1).toNat
  let hdr := bytesAt (t.drop 16) 0 (byteAt t 0).toNat
  if kind = 0 then hdr
  else fixups kind (byteAt t 2).toNat (byteAt t 3).toNat hdr inner.length (inner.length + 16) ecn
    (some (Nat.lor 0xC000 (vFlowHash v % 2 ^ 14))) (some (vVni v))

/-- A template of KIND 1 or 2 applies to a frame leaving slice sl (R164). -/
def State.encapHeavy (s : State) (sl : Nat) (v : List Byte) : Bool :=
  vEncap v && decide ((byteAt (s.template sl (vTemplate v)) 1).toNat ≠ 0)

/-- What the deparser of port p reads for a frame beside its bytes (R163; 11_raft.md R336). -/
def State.depEnv (s : State) (f : Frame) (p : Nat) : DepEnv :=
  let v := f.vec
  let rp := s.isRaftPort p
  { rp := rp, tmpl := s.template (portSlice p) (vTemplate v)
    tag := if vRaft v = false ∧ rp ∧ (s.raftCfg (portHalf p)).en ∧ (dstPush v ∨ dstFlood v) then s.newRaftTag (portHalf p) v else [] }

/-- A frame that has been at the deparser keeps what was read there (R156). -/
def State.depOf (s : State) (f : Frame) (p : Nat) : DepEnv :=
  match f.dep with | some e => e | none => s.depEnv f p

/-! ### The rebuilt frame -/

/-- A rebuilt frame: its bytes without FCS, whether an ECN mark counts, whether a pop found no tag. -/
structure Built where
  body    : List Byte
  marked  : Bool := false
  popMiss : Bool := false
  deriving DecidableEq, Repr

/-- Build a frame with what the deparser reads for it; none for ENCAP_BAD (R162, R163, R254, R336). A transit packet keeps its Raft tag
as it is (04_span_framing.md R126; DEDUCED, log entry 77). -/
def Frame.buildWith (f : Frame) (e : DepEnv) : Option Built :=
  let v := f.vec
  let cut := vCut v
  if f.len - 4 ≤ cut ∨ (vEncap v ∧ templateOk e.tmpl = false) then none
  else
    let m := if f.ecn then markEcn v cut f.dataOut else (f.dataOut, false)
    let inner := m.1.drop cut
    let tagged := vRaft v && !vTransit v
    let relay := tagged && e.rp
    let inner := if relay then relayTag f v inner
      else if tagged then inner.take 12 ++ inner.drop 30 else inner
    let g := tagOp (vTagop v) (vTag v) (if relay then 30 else 12) inner
    let ecn := (ipAt v cut m.1).map (fun x => ecnField m.1 x.1 x.2)
    let out := if vEncap v then templateHeader e.tmpl v g.1 ecn ++ g.1 else g.1
    let out := out.take 12 ++ e.tag ++ out.drop 12
    some { body := out ++ zeros (60 - out.length), marked := m.2, popMiss := g.2 }

/-- Build frame f for port p. -/
def State.build (s : State) (f : Frame) (p : Nat) : Option Built := f.buildWith (s.depOf f p)

/-- The rebuilt length of a frame whose tail is to come, from what is rebuilt of it: the length its span packet is announced with. -/
def Frame.announce (f : Frame) (b : Built) : Nat := b.body.length + 4 + (f.len - f.data.length)


def withFcs (body : List Byte) : List Byte := body ++ fcs body

/-! ### The command -/

/-- Counters of a rebuilt frame: DP_FRAMES, DP_ENCAP, DP_DECAP, DP_POP_MISS (Table 66), and AD_ECN_MARKS (R254). -/
def State.builtCounts (s : State) (f : Frame) (p : Nat) (b : Built) : State :=
  let pg := pgDeparser (portSlice p)
  let s := s.count64 pg Reg.dpFrames 1
  let s := if vEncap f.vec then s.count64 pg Reg.dpEncap 1 else s
  let s := if vCut f.vec ≠ 0 then s.count64 pg Reg.dpDecap 1 else s
  let s := if b.popMiss then s.count pg Reg.dpPopMiss 1 else s
  if b.marked then s.count64 (pgAdmit (portHalf p)) (Reg.adEcnMarks (f.q % 32)) 1 else s

/-- ENCAP_BAD (R163) or EGRESS_OVERSIZE (R164): counted and reported by the DEPARSER page. -/
def State.deparseBad (s : State) (p reason : Nat) : State :=
  let pg := pgDeparser (portSlice p)
  if reason = rEncapBad then (s.count64 pg Reg.dpEncapBad 1).raise pg 1
  else (s.count64 pg Reg.dpOversize 1).raise pg 0

/-- A frame that the deparser drops leaves its port's start FIFO. -/
def State.deparseDrop (s : State) (i p reason : Nat) : State := (s.dropQueued i reason).deparseBad p reason

/-- Rebuild frame i for its port. With its tail here, or on a span port, whose packet header announces it, the length is known: beyond
the limit it is dropped (R164). -/
def State.deparse (s : State) (i : Nat) : State :=
  let f := s.frame i
  let p := f.q / 32
  match s.build f p with
  | none => s.deparseDrop i p rEncapBad
  | some b =>
    if f.tail then
      if s.maxFrame p < b.body.length + 4 then s.deparseDrop i p rEgressOversize
      else (s.setFrame i { f with out := withFcs b.body, built := true }).builtCounts f p b
    else if s.isSpan p ∧ s.maxFrame p < f.announce b then s.deparseDrop i p rEgressOversize
    else
      (s.setFrame i { f with
        out := [], head := withFcs b.body, ann := f.announce b, dep := some (s.depOf f p), built := true }).builtCounts f p b

/-- The deparser of a slice takes the next vector that the egress stages have left. -/
def State.deparseNext (s : State) (sl : Nat) : State :=
  let x := s.slice sl
  match x.depq with
  | [] => s
  | i :: is =>
    let s := s.setSlice sl { x with depq := is }
    let f := s.frame i
    if f.bad ≠ 0 then s.dropQueued i f.bad else s.deparse i

/-- DEPARSE (R162). -/
def execDeparse (sl : Slice) (s : State) : Out :=
  s.run (fun s => s.onlyIf (s.sliceUp sl.val && s.blockUp (pgDeparser sl.val)) (·.deparseNext sl.val))

end Sys2Proof.Machine
end

