-- ==== Sys2Proof/Machine/Raft.lean ====
section
/-! DEFINITION. The commands of Raft mode: settings, hellos, neighbours, weights, ring holds (11_raft.md). -/

namespace Sys2Proof.Machine

/-! ### Settings (R327, R328) -/

/-- A write of a setting that EN = 1 holds back (R328): it waits for the next rise of EN. -/
def State.raftPend (s : State) (was : Bool) : State :=
  if was then { s with raft := { s.raft with pend := true } } else s

/-- A write of the West RF_CTRL: when EN rises, DEVID, HOP_INIT and RF_SYSID take effect (R328). -/
def State.raftCtrlWrite (s : State) (v : Word) : State :=
  let pg := pgHalf 0
  let was := s.rbit pg Reg.rfCtrl 0
  let s := (s.store pg Reg.rfCtrl v).raftPend was
  if was = false ∧ s.rbit pg Reg.rfCtrl 0 then
    { s with raft := { s.raft with
        pend := false, devid := s.rf pg Reg.rfCtrl 16 16, hop := s.rf pg Reg.rfCtrl 1 6, sysid := s.reg pg Reg.rfSysid } }
  else s

/-- RAFT_CFG_SYNC (R328): the East block takes the West settings while the management channel is up. -/
def execRaftCfgSync (s : State) : Out :=
  s.run (fun s => s.onlyIf (s.flumeUp && s.halfUp 1) (fun s => { s with raft := { s.raft with east := s.raftWest } }))

/-! ### Hellos sent (R341, R344) -/

/-- RING_STAT.OLDEST: the oldest ring that is not FREE (07_rings.md R216). -/
def State.ringOldest (s : State) : Nat :=
  match s.rings.byAge.find? s.ringLive with | some r => r | none => s.rings.cur.val

/-- Ring r is reported in ACTIVE on port p: current, or RETIRING with a nonzero sample since the port's last hello. -/
def State.ringReported (s : State) (p r : Nat) : Bool :=
  let x := s.ringRec r
  decide (r = s.rings.cur.val) || (decide (x.st = .retiring) && decide (AMap.get 0 (s.nbr p).txNz r < x.nz))

/-- What a hello says of the device: CUR, CAP, CAPPED. -/
def State.helloSays (s : State) : Nat × Nat × Bool := (s.rings.cur.val, s.lowStep, s.capped)

/-- The bytes of a hello of port p with a sequence number (R341, Table 126). -/
def State.helloBytes (s : State) (p seq : Nat) : List Byte :=
  let c := s.raftCfg (portHalf p)
  let act := ((List.range 4).map (fun r => b2n (s.ringReported p r) * 2 ^ r)).sum
  let body := beBytes 6 c.da ++ beBytes 6 c.sa ++ beBytes 2 0x88B5
    ++ beBytes 4 (2 ^ 28 + 2 * 2 ^ 24 + s.rings.cur.val * 2 ^ 22) ++ beBytes 4 (c.devid * 65536) ++ beBytes 4 (p * 4096)
    ++ beBytes 4 seq ++ beBytes 4 c.sysid.toNat
    ++ beBytes 1 (s.rings.cur.val * 64 + act * 4 + s.ringOldest) ++ beBytes 1 (s.lowStep + b2n s.capped * 32)
    ++ beBytes 2 c.interval ++ beBytes 1 c.dead ++ beBytes 2 (fld (s.rfPort p) 0 9) ++ beBytes 8 (tsOf s.now) ++ zeros 11
  body ++ fcs body

/-- The bytes of a hello leave port p: on its lanes, or as a span packet of the position's stream (04_span_framing.md R100). -/
def State.helloOut (s : State) (p : Nat) (bs : List Byte) : State :=
  if s.isSpan p then
    let x := s.span (spanPos p)
    s.setSpan (spanPos p) { x with txq := x.txq ++ [(bs, false)] }
  else s.transmit p (.hello p bs)

/-- Send a hello on port p; extra says that it is one (R341). -/
def State.sendHello (s : State) (p : Nat) (extra : Bool) : State :=
  let x := s.nbr p
  let seq := (x.txSeq + 1) % 2 ^ 32
  let s := s.helloOut p (s.helloBytes p seq)
  let nz := (List.range 4).foldl (fun m r => AMap.set 0 m r (s.ringRec r).nz) x.txNz
  let s := s.setNbr p { x with
    txSeq := seq, txNz := nz, txSaid := if extra || x.txSaid.isNone then some s.helloSays else x.txSaid, txAt := if extra then x.txAt else some s.clk.up
    extraAt := if extra then some s.clk.up else x.extraAt }
  s.count (pgHalf (portHalf p)) Reg.rfHelloTx 1

/-- Port p sends hellos: Raft mode, a Raft port, its link up. -/
def State.hellos (s : State) (p : Nat) : Bool :=
  (s.raftCfg (portHalf p)).en && s.isRaftPort p && (s.port p).linkUp && s.sliceUp (portSlice p)

/-! ### Hellos received (R342) -/

/-- A hello is bad: shorter than 64 bytes, or a reserved field is not 0. -/
def helloBad (bs : List Byte) : Bool :=
  decide (bs.length < 64) || decide (64 ≤ (byteAt bs 35).toNat) || decide (beAt bs 49 11 ≠ 0)

/-- A record filled from a hello: the sending side of the port's own hellos stays. -/
def NbrS.fill (x : NbrS) (bs : List Byte) (st : NbrSt) (now : Nat) : NbrS :=
  let b34 := (byteAt bs 34).toNat
  let b35 := (byteAt bs 35).toNat
  let act := if st = .up then (List.range 4).foldl
      (fun m r => if b34 / 4 / 2 ^ r % 2 = 1 then AMap.set none m r (some now) else m) x.actAt else []
  { x with
    st := st, dev := raftWord bs 1 / 65536, port := raftWord bs 2 / 4096 % 1024, cur := b34 / 64, active := b34 / 4 % 16
    oldest := b34 % 4, cap := b35 % 32, capped := b35 / 32 % 2 = 1, seq := raftWord bs 3, heardAt := now
    deadNs := deadActs ((byteAt bs 38).toNat % 16) * intervalActs (beAt bs 36 2) * 1000, actAt := act }

/-- An event of Table 127 with its notice, from a record. -/
def State.nbrEvent (s : State) (p k : Nat) (x : NbrS) (sysid : Word) : State :=
  (s.raise (pgHalf (portHalf p)) (evNbrUp + k)).raftNotice p k x.dev x.port x.said sysid

/-- A good hello changes the port's record (Table 127). -/
def State.helloTake (s : State) (p : Nat) (bs : List Byte) : State :=
  let c := s.raftCfg (portHalf p)
  let x := s.nbr p
  let sysid := BitVec.ofNat 32 (beAt bs 30 4)
  let dev := raftWord bs 1 / 65536
  if sysid ≠ c.sysid then
    let y := x.fill bs .foreign s.clk.up
    (s.setNbr p y).nbrEvent p 3 y sysid
  else if dev = c.devid then
    let y := x.fill bs .dup s.clk.up
    (s.setNbr p y).nbrEvent p 4 y sysid
  else
    let y := { x.fill bs .up s.clk.up with behind := s.nbrBehind (x.fill bs .up s.clk.up) }
    if x.st ≠ .up then (s.setNbr p y).nbrEvent p 0 y sysid
    else if x.dev = y.dev ∧ x.port = y.port then
      let miss := (y.seq + 2 ^ 33 - x.seq - 1) % 2 ^ 32
      let s := s.setNbr p y
      let s := if miss < 2 ^ 31 then s.count (pgHalf (portHalf p)) (Reg.rfNbLost (p % 512)) miss else s
      if x.cur = y.cur ∧ x.cap = y.cap ∧ x.capped = y.capped ∧ x.behind = y.behind then s
      else s.nbrEvent p 2 y sysid
    else
      let s := s.nbrEvent p 1 x sysid
      let y := { y with actAt := ({ y with actAt := [] } : NbrS).fill bs .up s.clk.up |>.actAt }
      (s.setNbr p y).nbrEvent p 0 y sysid

/-- A frame with a valid hello tag on a Raft port (R331, R342). -/
def State.helloRx (s : State) (p : Nat) (bs : List Byte) : State :=
  let pg := pgHalf (portHalf p)
  if helloBad bs then s.count pg Reg.rfHelloBad 1
  else (((s.count pg Reg.rfHelloRx 1).helloTake p bs)).peerHolds

/-- HELLO_RX (R342): bytes that the parser of a Raft port hands to the Raft block. -/
def execHelloRx (p : Port) (bytes : List Byte) (s : State) : Out :=
  s.run (fun s => s.onlyIf ((s.raftCfg (portHalf p.val)).en && s.isRaftPort p.val && s.halfUp (portHalf p.val))
    (·.helloRx p.val bytes))

/-- NEIGHBOUR_DEAD (R342). -/
def execNeighbourDead (p : Port) (s : State) : Out :=
  s.run (fun s => s.onlyIf (decide ((s.nbr p.val).st = .up)
    && decide ((s.nbr p.val).heardAt + (s.nbr p.val).deadNs ≤ s.clk.up)) (·.nbrDown p.val))

/-- EW_RECOMPUTE (R333). -/
def execEwRecompute (h : Half) (s : State) : Out := s.run (fun s => s.onlyIf (s.halfUp h.val) (·.ewAll h.val))

/-- PEER_HOLD_LAPSE (R344). -/
def execPeerHoldLapse (r : Ring) (s : State) : Out :=
  s.run (fun s =>
    let x := s.ringRec r.val
    s.onlyIf (x.peerHold && !s.ringHeld r.val) (·.setRing r.val { x with peerHold := false }))

end Sys2Proof.Machine
end

