-- ==== Sys2Proof/Machine/Ingress.lean ====
section
/-! DEFINITION. The receive MAC, the ingress FIFO and the parser (03_lanes_ports.md R80, R81, 01_architecture.md R30,
05_parser_kerf.md R134 to R140, 10_telemetry.md R291). -/

namespace Sys2Proof.Machine

/-! ### The receive MAC -/

/-- The ingress timestamp of a frame that begins now. -/
def State.ingressTs (s : State) (p : Nat) : Nat := s.ingressTsAt p s.now

/-- An error at an index of a frame of n bytes lies within the bytes received up to its end, or up to its cut at the limit
(R81). -/
def errWithin (limit n : Nat) (err : Option Nat) : Bool := err.any (fun i => decide (n ≤ limit ∨ i < limit))

/-- The first reason of R81 that applies to a frame received whole, 0 for a good one. -/
def rxReason (limit : Nat) (bs : List Byte) (err : Option Nat) : Nat :=
  if errWithin limit bs.length err then rPcs else if limit < bs.length then rOversize else if bs.length < 64 then rRunt
  else if fcsGood bs = false then rFcs else 0

/-- EtherType 0x8808 (R257). -/
def isMacControl (bs : List Byte) : Bool := decide (14 ≤ bs.length ∧ beAt bs 12 2 = 0x8808)

/-- The pause of one priority that a PFC frame asks for (R257). -/
def State.pausePrio (s : State) (p : Nat) (bs : List Byte) (r : Nat) : State :=
  if beAt bs 16 2 / 2 ^ r % 2 = 1 ∧ s.rbit (pgAdmit (portHalf p)) (Reg.adPfc p) r then
    let t := beAt bs (18 + 2 * r) 2
    let x := s.schedOf p
    s.setSched p { x with pause := AMap.set 0 x.pause r (if t = 0 then 0 else s.clk.up + t * 512 / s.portGbps p) }
  else s

def State.pausePrios (s : State) (p : Nat) (bs : List Byte) : List Nat → State
  | [] => s
  | r :: rs => (s.pausePrio p bs r).pausePrios p bs rs

/-- A good MAC control frame has its effect: a PFC frame on an Ethernet port with EN not 0 pauses (R257). -/
def State.macControl (s : State) (p : Nat) (bs : List Byte) : State :=
  let pg := pgAdmit (portHalf p)
  if beAt bs 14 2 = 0x0101 ∧ s.rf pg (Reg.adPfc p) 0 8 ≠ 0 ∧ s.isSpan p = false then
    (s.pausePrios p bs (List.range 8)).count pg (Reg.adPfcRx p) 1
  else s

/-- A frame whose full length fits enters the slice's ingress FIFO of 98,304 bytes; else it is none (R30). -/
def State.toFifo (s : State) (p : Nat) (bs : List Byte) (len ts : Nat) (tail : Bool) : Option State :=
  let sl := portSlice p
  if s.fifoFill sl + len ≤ 98304 then
    let i := s.nextFrame
    let s := s.newFrame { src := p, half := portHalf p, data := bs, len := len, tail := tail, ts := ts }
    let x := s.slice sl
    some ((s.setSlice sl { x with fifo := x.fifo ++ [i] }).pfcSlice (sliceSlots sl))
  else none

/-- A good frame received whole: MAC control ends here, the rest goes to the FIFO or is dropped with INGRESS_OVERRUN. -/
def State.rxGood (s : State) (p : Nat) (bs : List Byte) (ts : Nat) : State :=
  if isMacControl bs then
    (s.accountEarly { src := p, len := bs.length, reason := rMacControl, ts := ts }).macControl p bs
  else match s.toFifo p bs bs.length ts true with
    | some t => t
    | none => s.accountEarly { src := p, len := bs.length, reason := rOverrun, ts := ts }

/-- A frame the MAC passes counts in the bandwidth window, but for PFC frames and hellos (13_cruiser_counters.md
R384). -/
def State.bwFrame (s : State) (p : Nat) (bs : List Byte) : State :=
  let pfc := isMacControl bs && decide (beAt bs 14 2 = 0x0101)
  let hello := (s.raftCfg (portHalf p)).en && s.isRaftPort p && hasRaftTag bs && decide (raftType bs = 2)
  if pfc || hello then s else s.bwAdd p bs.length true

/-- A frame received whole (R81). -/
def State.rxWhole (s : State) (p : Nat) (bs : List Byte) (err : Option Nat) : State :=
  let lim := s.maxFrame p
  let reason := rxReason lim bs err
  let bs := bs.take lim
  let s := (s.rxCount p reason bs.length).bwFrame p bs
  if reason = 0 then s.rxGood p bs (s.ingressTs p)
  else s.accountEarly { src := p, len := bs.length, reason := reason, ts := s.ingressTs p }

/-- The first part of a frame whose tail is still to come: it is admitted to the FIFO at its first byte (R30, R134), unless
it is a MAC control frame, which the MAC keeps, or does not fit. With fewer than 14 bytes here the MAC cannot tell yet, and keeps
the frame to its tail (08_deck_admission.md R257). -/
def State.rxBegin (s : State) (p : Nat) (f : RxFrame) : State :=
  let lim := s.maxFrame p
  let x := s.port p
  let x := { x with rxOn := true, rxBytes := f.bytes, rxBad := f.pcsErr, rxTs := s.ingressTs p }
  let root := s.nextFrame
  let wait := decide (f.bytes.length < 14)
  let r := if wait || isMacControl f.bytes then none else s.toFifo p (f.bytes.take lim) (min f.len lim) (s.ingressTs p) false
  match r with
  | some t => t.setPort p { x with rxCur := some root }
  | none => s.setPort p { x with rxCur := none, rxWait := wait }

/-- A frame reaches the MAC of port p (R80, R81). -/
def State.rxFrame (s : State) (p : Nat) (f : RxFrame) : State :=
  let x := s.port p
  if x.linkUp then
    if f.len ≤ f.bytes.length then s.rxWhole p f.bytes f.pcsErr else s.rxBegin p f
  else if x.aligned then
    (s.rxCount p rPcs 0).accountEarly { src := p, len := min f.len (s.maxFrame p), reason := rPcs, ts := s.ingressTs p }
  else s

/-- The receiver of an Ethernet port works: enabled, no frame under way (R65). -/
def State.rxTakes (s : State) (p : Nat) : Bool :=
  s.portReady p && s.portEn p && !s.isSpan p && !(s.port p).rxOn

/-- Far-end loopback (R83): the lanes of port p send what they recover. -/
def State.echo (s : State) (p : Nat) (bs : List Byte) : State :=
  s.onlyIf (s.portReady p && s.portEn p && s.lanesActive p) (·.transmit p (.frame p bs false))

/-- RX_FRAME (R81): from the line in normal operation; sent back in far-end loopback, where the link is down and the MAC counts the
frame (R80, R83); not received in near-end loopback,
where the receiver has the port's own stream (R83). -/
def execRxFrame (p : Port) (f : RxFrame) (s : State) : Out :=
  s.run (fun s =>
    if cfgLpbk (s.port p.val).cfg = 0 then s.onlyIf (s.rxTakes p.val) (·.rxFrame p.val f)
    else if cfgLpbk (s.port p.val).cfg = 2 ∧ s.isSpan p.val = false then
      (s.echo p.val f.bytes).onlyIf (s.rxTakes p.val) (·.rxFrame p.val f)
    else s)

/-- Outputs that port p's own receiver takes. -/
def State.loopOuts (s : State) (p : Nat) : List Output → State
  | [] => s
  | .frame q bs _ :: os =>
    (s.onlyIf (decide (q = p) && s.rxTakes p) (·.rxFrame p { bytes := bs, len := bs.length })).loopOuts p os
  | .pfc q bs :: os =>
    (s.onlyIf (decide (q = p) && s.rxTakes p) (·.rxFrame p { bytes := bs, len := bs.length })).loopOuts p os
  | .hello q bs :: os =>
    (s.onlyIf (decide (q = p) && s.rxTakes p) (·.rxFrame p { bytes := bs, len := bs.length })).loopOuts p os
  | _ :: os => s.loopOuts p os

/-- Near-end loopback (R83): what port p has sent since a former state reaches its own receiver. -/
def State.loopBack (s old : State) (p : Nat) : State :=
  if cfgLpbk (s.port p).cfg = 1 then s.loopOuts p (s.out.drop old.out.length) else s

/-! ### Hellos sent (11_raft.md R341); in near-end loopback they reach the port's own receiver -/

/-- HELLO_TX (R341): every INTERVAL, at the next frame boundary. -/
def execHelloTx (p : Port) (s : State) : Out :=
  s.run (fun s => s.onlyIf (s.hellos p.val && (s.schedOf p.val).tx.isNone && (match (s.nbr p.val).txAt with
      | none => true
      | some t => decide (t + intervalActs (s.raftCfg (portHalf p.val)).interval * 1000 ≤ s.clk.up)))
    (fun s => (s.sendHello p.val false).loopBack s p.val))

/-- CUR, CAP or CAPPED has changed since the port's last extra hello, or since its first hello on this link (R341). -/
def State.helloChanged (s : State) (p : Nat) : Bool :=
  match (s.nbr p).txSaid with | some v => decide (s.helloSays ≠ v) | none => false

/-- EXTRA_HELLO (R341): a change is told at the next frame boundary, also when a hello of the interval has told it before; at most one
in 100 us. -/
def execExtraHello (p : Port) (s : State) : Out :=
  s.run (fun s => s.onlyIf (s.hellos p.val && (s.schedOf p.val).tx.isNone && s.helloChanged p.val
      && (match (s.nbr p.val).extraAt with | none => true | some t => decide (t + 100000 ≤ s.clk.up)))
    (fun s => (s.sendHello p.val true).loopBack s p.val))

/-- The tail of the frame under way on port p (R81, R135); its timestamp is that of its first bit (R291). -/
def State.rxTail (s : State) (p : Nat) (t : RxTail) : State :=
  let x := s.port p
  let bs := x.rxBytes ++ t.bytes
  let lim := s.maxFrame p
  let reason := rxReason lim bs (x.rxBad <|> t.pcsErr)
  let bs := bs.take lim
  let s := s.setPort p { x with rxOn := false, rxCur := none, rxBytes := [], rxBad := none, rxWait := false }
  let s := (s.rxCount p reason bs.length).bwFrame p bs
  match x.rxCur with
  | some root => s.completeRoot root bs reason
  | none =>
    if reason = 0 ∧ x.rxWait then s.rxGood p bs x.rxTs
    else if reason = 0 ∧ isMacControl bs then
      (s.accountEarly { src := p, len := bs.length, reason := rMacControl, ts := x.rxTs }).macControl p bs
    else s.accountEarly { src := p, len := bs.length, reason := if reason = 0 then rOverrun else reason, ts := x.rxTs }

/-- TAIL_ARRIVAL (R135). -/
def execTailArrival (p : Port) (f : RxTail) (s : State) : Out :=
  s.run (fun s =>
    if cfgLpbk (s.port p.val).cfg = 2 ∧ s.isSpan p.val = false then s.echo p.val f.bytes
    else s.onlyIf (s.portReady p.val && (s.port p.val).rxOn) (·.rxTail p.val f))

/-! ### The parse program (R136, R137) -/

/-- A word of a bank's state or start table: memory b, words 0 to 255 and 256 to 287 (Table 65). -/
def State.ppWord (s : State) (sl b a : Nat) : Word := s.memW (pgParser sl) b a

/-- A transition entry, five words of memory 0x10 + b (Table 65). -/
def State.ppEntry (s : State) (sl b e : Nat) : List Word := s.memWs (pgParser sl) (0x10 + b) (5 * e) 5

/-- An entry matches a state and key. -/
def entryMatches (w : List Word) (state key : Nat) : Bool :=
  let m := (wordAt w 1).toNat
  bit (wordAt w 2) 31 && decide (fld (wordAt w 2) 0 8 = state)
  && decide (Nat.land key m = Nat.land (wordAt w 0).toNat m)

/-- The lowest entry from e on, of n entries, that matches. -/
def State.findEntry (s : State) (sl b state key : Nat) : Nat → Nat → Option (List Word)
  | _, 0 => none
  | e, n + 1 =>
    let w := s.ppEntry sl b e
    if entryMatches w state key then some w else s.findEntry sl b state key (e + 1) n

/-- What a parse has found: offsets, class, flags, error. -/
structure Parsed where
  l3    : Nat := 0xFF
  l4    : Nat := 0xFF
  inner : Nat := 0xFF
  cls   : Nat := 0
  flags : Nat := 0
  perr  : Nat := 0
  deriving DecidableEq, Repr

/-- The advance of an entry at a cursor (R137). -/
def entryAdvance (w : List Word) (win : List Byte) (cursor : Nat) : Nat :=
  let w2 := wordAt w 2
  let w3 := wordAt w 3
  if bit w2 24 then
    Nat.land ((byteAt win (cursor + fld w3 8 6)).toNat / 2 ^ fld w3 14 3) (fld w3 17 8) * 2 ^ fld w3 25 2 + fld w2 16 8
  else fld w2 16 8

/-- Apply an entry's layer, flags and class at the cursor after its advance. -/
def Parsed.apply (x : Parsed) (w : List Word) (cursor : Nat) : Parsed :=
  let w2 := wordAt w 2
  let o := if 255 < cursor then 0xFF else cursor
  let l := fld w2 25 3
  { x with l3 := if l = 1 then o else x.l3, l4 := if l = 2 then o else x.l4, inner := if l = 3 then o else x.inner
           flags := Nat.lor x.flags (fld (wordAt w 4) 0 16)
           cls := if bit w2 29 then fld (wordAt w 3) 0 8 else x.cls }

/-- The parse procedure (R137): n transitions may still be taken; len is the frame's length when it is known. Bytes past the
window's 256 read 0x00 as those past the frame's end do (DESIGN CHOICE, log entry 77). -/
def State.parseLoop (s : State) (sl b : Nat) (win : List Byte) (len : Option Nat) : Nat → Nat → Nat → Parsed → Parsed
  | 0, _, _, x => { x with perr := 0x01 }
  | n + 1, state, cursor, x =>
    if 255 < cursor then { x with perr := 0x02 }
    else
      let d := s.ppWord sl b state
      let key := beAt win (cursor + fld d 0 6) (fld d 6 2 + 1)
      match s.findEntry sl b state key 0 512 with
      | none => { x with perr := fld d 8 8 }
      | some w =>
        let cursor := cursor + entryAdvance w win cursor
        let x := x.apply w cursor
        if bit (wordAt w 2) 30 then { x with perr := fld (wordAt w 3) 0 8 }
        else if (match len with | some l => decide (l < cursor) | none => false) then { x with perr := 0x03 }
        else if bit (wordAt w 2) 28 then x
        else s.parseLoop sl b win len n (fld (wordAt w 2) 8 8) cursor x

/-- Run the bank's program on a frame of a slot. -/
def State.parse (s : State) (sl b slot : Nat) (win : List Byte) (len : Option Nat) : Parsed :=
  s.parseLoop sl b win len 24 (fld (s.ppWord sl b (256 + slot % 32)) 0 8) 0 {}

/-! ### Header vectors (R134, R135, R139) -/

/-- What the parser sets in a vector beside the parse: bank, ring, transit, Raft, injected. -/
structure VecBits where
  bank    : Nat
  ring    : Nat
  transit : Bool := false
  raft    : Bool := false
  inject  : Bool := false
  deriving DecidableEq, Repr

/-- A header vector (Table 49). -/
def formVec (f : Frame) (x : Parsed) (g : VecBits) : List Byte :=
  bytesAt (f.data.take 256) 0 256 ++ beBytes 8 (tsOf f.ts)
  ++ beBytes 2 (f.src % 1024 + g.ring * 1024 + g.bank * 2 ^ 12 + b2n g.transit * 2 ^ 13 + b2n g.raft * 2 ^ 14
    + b2n g.inject * 2 ^ 15)
  ++ beBytes 2 (if f.tail then f.len else 0x3FFF)
  ++ [BitVec.ofNat 8 x.l3, BitVec.ofNat 8 x.l4, BitVec.ofNat 8 x.inner, BitVec.ofNat 8 x.cls]
  ++ beBytes 2 x.flags ++ [BitVec.ofNat 8 x.perr] ++ zeros 45

/-! ### The parser (R139, R140, R361) -/

abbrev evSwapped : Nat := 0
abbrev evDepth : Nat := 1

/-- A vector enters ingress stage 0 with its ring held in flight (R26, R230). -/
def State.enterPipe (s : State) (sl i ring : Nat) (f : Frame) (v : List Byte) : State :=
  let s := s.setFrame i { f with vec := v, vecIn := v, ring := ring, half := sliceHalf sl }
  (s.beginHolder (sliceHalf sl) ring).toStage sl 0 i

/-- The counts of a parsed vector (Table 65). -/
def State.ppCounts (s : State) (sl : Nat) (perr : Nat) : State :=
  let pg := pgParser sl
  let s := s.count64 pg Reg.ppFrames 1
  let s := if perr = 0 then s else s.count64 pg Reg.ppPerr 1
  s.raiseIf (decide (perr = 1)) pg evDepth

/-- The parser takes frame i and forms its vector (R137, R139, R331, R126); a transit port consumes no hello (DEDUCED, log entry
77). -/
def State.parseFrame (s : State) (sl i : Nat) : State :=
  let f := s.frame i
  let p := f.src
  let b := (s.slice sl).bank
  let en := (s.raftCfg (sliceHalf sl)).en && s.isRaftPort p && decide (f.kind = .received)
  let tagOk := en && hasRaftTag f.data && raftTagValid f.data
  let rx := decide (f.kind = .received)
  if f.bad ≠ 0 then s.dropEarly i f.bad
  else if rx ∧ (s.span (spanPos p)).transit ∧ s.isSpan p then
    let raft := tagOk && decide (raftType f.data ≤ 1)
    let ring := if raft then raftRing f.data else s.rings.cur.val
    let v := formVec f {} { bank := b, ring := ring, transit := true, raft := raft }
    let v := match s.partner (spanPos p) with
      | some r => destQueue v (32 * spanSlot r + (s.span r).tclass)
      | none => v
    ((s.count64 (pgParser sl) Reg.ppFrames 1).count64 (pgParser sl) Reg.ppTransit 1).enterPipe sl i ring f v
  else if tagOk ∧ raftType f.data = 2 then (s.helloRx p f.data).endFrame i
  else
    let ring := if tagOk then raftRing f.data else s.rings.cur.val
    let win := f.data.take 256
    let x := s.parse sl b (p % 32) win (if f.tail then some f.len else none)
    let v := formVec f x { bank := b, ring := ring, raft := tagOk, inject := !rx }
    let v := if rx then v else vPut v 300 4 (vBe f.vec 300 4)
    (s.ppCounts sl x.perr).enterPipe sl i ring f v

/-- A frame is ready for the parser: its header window is here. -/
def Frame.windowHere (f : Frame) : Bool := f.tail || decide (256 ≤ f.data.length)

/-- The parser's next frame: an injected one when the FIFO is empty or 16 slots have passed, else the FIFO's (R361). -/
def State.parseNext (s : State) (sl : Nat) : State :=
  let x := s.slice sl
  match x.inj, x.fifo with
  | j :: js, [] => (s.setSlice sl { x with inj := js, slots := 0 }).parseFrame sl j
  | j :: js, i :: is =>
    if 15 ≤ x.slots then (s.setSlice sl { x with inj := js, slots := 0 }).parseFrame sl j
    else if (s.frame i).windowHere then
      ((s.setSlice sl { x with fifo := is, slots := x.slots + 1 }).parseFrame sl i).pfcSlice (sliceSlots sl)
    else s
  | [], i :: is =>
    if (s.frame i).windowHere then
      ((s.setSlice sl { x with fifo := is, slots := min 16 (x.slots + 1) }).parseFrame sl i).pfcSlice (sliceSlots sl)
    else s
  | [], [] => s

/-- PARSE (R137): the parser of a slice takes a frame, unless a swap, a reset or the ingress pipe holds it (R140, R141, R157). -/
def execParse (sl : Slice) (s : State) : Out :=
  s.run (fun s => s.onlyIf (s.sliceUp sl.val && s.blockUp (pgParser sl.val) && !(s.slice sl.val).swap && s.pipeRuns sl.val .ingress)
    (·.parseNext sl.val))

/-- A swap completes: the other bank runs, SWAPPED. -/
def State.swapDone (s : State) (sl : Nat) : State :=
  let x := s.slice sl
  (s.setSlice sl { x with swap := false, bank := 1 - x.bank }).raise (pgParser sl) evSwapped

/-- SWAPPED (R140). -/
def execSwapped (sl : Slice) (s : State) : Out :=
  s.run (fun s => s.onlyIf (s.slice sl.val).swap (·.swapDone sl.val))

end Sys2Proof.Machine
end

