-- ==== Sys2Proof/Machine/Deck.lean ====
section
/-! DEFINITION. The commands of Deck: admission, allocation and free of cells, host pools, memory errors,
initialisation and PFC (08_deck_admission.md). -/

namespace Sys2Proof.Machine

/-! ### Events of the DECK and ADMIT pages -/
abbrev evStallDrop : Nat := 5
abbrev evDkCorr : Nat := 6
abbrev evDkUncorr : Nat := 7
abbrev evListRebuild : Nat := 8
abbrev evPoolEmpty : Nat := 9
abbrev evRepFull : Nat := 1

/-! ### Admission (R250 to R254) -/

/-- A frame that was admitted waits at its requester for cells (R245). -/
def State.awaitCells (s : State) (i : Nat) (f : Frame) : State :=
  let d := s.deckOf f.half
  let s := s.setDeck f.half { d with waiting := AMap.set [] d.waiting f.rq (AMap.get [] d.waiting f.rq ++ [i]) }
  s.setFrame i { f with need := cellsOf f.len }

/-- Drop a unicast frame at admission with a reason. -/
def State.dropUnicast (s : State) (i reason : Nat) : State := (s.dropQueued i reason).countExp reason

/-- Admission of a unicast frame to its queue: checks 1 to 8 of Table 95, then the tail of the queue (R263). -/
def State.admitUnicast (s : State) (i : Nat) (f : Frame) : State :=
  match firstReason [s.expiredCheck f.ring, s.portCheck f.q, s.classCheck f.half (f.q % 32),
      s.queueCheck f.q (vColor f.vecIn)] with
  | some r => s.dropUnicast i r
  | none =>
    let s := s.awaitCells i { f with ecn := s.ecnMark f.q, enq := true, tag := queueTag f.q }
    s.setQueue f.q (s.queue f.q ++ [i])

/-- Admission of a multicast frame to its half's replication queue (R253, R267, R269). -/
def State.admitMcast (s : State) (i : Nat) (f : Frame) : State :=
  let c := 16 + vTc f.vecIn
  let x := s.pathOf f.half
  if 8192 ≤ x.repl.length then
    ((s.dropMcast i rReplFull).count64 (pgAdmit f.half) Reg.repFullDrops 1).raise (pgAdmit f.half) evRepFull
  else match firstReason [s.expiredCheck f.ring, s.classCheck f.half c] with
    | some r => (s.dropMcast i r).countExp r
    | none =>
      let s := s.awaitCells i { f with enq := true, tag := 0xC000 }
      let s := s.setDeck f.half ((s.deckOf f.half).chargeClass c (cellsOf f.len))
      s.setPath f.half { s.pathOf f.half with repl := (s.pathOf f.half).repl ++ [i] }

/-- Drop a punted frame that is not yet held for a queue (12_host_interface.md R357, R359, Table 140). -/
def State.dropPuntNew (s : State) (i h q reason : Nat) : State :=
  let s := if 0x50 ≤ reason then s.count (pgQueue q) (Reg.hqDrops (q % 32)) 1 else s
  (s.dropNull i h reason).countExp reason

/-- Admission of a punted frame to the host punt path (12_host_interface.md R357, R359). -/
def State.admitPunt (s : State) (i : Nat) (f : Frame) : State :=
  let w := s.puntMap (vPunt f.vecIn)
  let rx := fld w 0 6
  let act := bit w 31 && decide ((s.hq rx).st = .active)
  let lim := fld (s.hqReg rx Reg.hqLim) 0 20
  match firstReason [if s.dmaOk then none else some rHostLinkDown, if act then none else some rHostNoQueue,
      s.expiredCheck f.ring, s.classCheck 0 (fld w 6 4),
      if lim ≤ (s.hq rx).heldN then some rHostRxqFull else none] with
  | some r => s.dropPuntNew i 0 rx r
  | none =>
    let s := s.awaitCells i { f with enq := true, tag := 0xC001, rq := 23, q := rx }
    s.setHq rx { s.hq rx with held := (s.hq rx).held ++ [i] }

/-- Drop a frame at step 4 with a reason, whatever its way on would have been. -/
def State.dropArrival (s : State) (i : Nat) (f : Frame) (reason : Nat) : State :=
  if f.punted then s.dropPuntNew i f.half (fld (s.puntMap (vPunt f.vecIn)) 0 6) reason
  else if f.tag = 0xC000 then s.dropMcast i reason
  else s.dropUnicast i reason

/-- The half's Deck works: out of reset, initialised. -/
def State.deckUp (s : State) (h : Nat) : Bool := s.halfUp h && !(s.deckOf h).initing

/-- The decision on the frame at the head of step 4 of a half: a fault found before, Deck not ready (R260), then the
admission of its kind. -/
def State.admitHead (s : State) (h : Nat) : State :=
  let x := s.pathOf h
  match x.arrivals with
  | [] => s
  | i :: is =>
    let s := s.setPath h { x with arrivals := is }
    let f := s.frame i
    if f.bad ≠ 0 then s.dropArrival i f f.bad
    else if s.deckUp h = false then s.dropArrival i f rDeckReset
    else if f.punted then s.admitPunt i f
    else if f.tag = 0xC000 then s.admitMcast i f
    else s.admitUnicast i f

/-- ADMISSION (R250): Deck decides on the frame whose first cell is requested; a Deck in reset drops it (01_architecture.md R32). -/
def execAdmission (h : Half) (s : State) : Out := s.run (·.admitHead h.val)

/-! ### Allocation (R240, R245, R246) -/

/-- The list a requester asks first: (4 * index + k) mod 64 for the first cell of its k-th frame, then one list on for
each cell (R245). -/
def DeckS.firstList (d : DeckS) (rq : Nat) (f : Frame) : Nat :=
  match f.cells.getLast? with
  | none => (4 * rq + AMap.get 0 d.turn rq) % 64
  | some c => (c + 1) % 64

/-- Charges of one cell that a frame has taken: the queue's counts or HQ_HELD, and the PFC count (R251, R255, R369). -/
def State.chargeCell (s : State) (h : Nat) (f : Frame) : State :=
  let s := if 0x4000 ≤ f.tag ∧ f.tag < 0x8000 then s.setDeck h ((s.deckOf h).chargeQueue f.q 1)
    else if f.tag = 0xC001 then s.setHq f.q { s.hq f.q with heldN := (s.hq f.q).heldN + 1 } else s
  s.pfcAdd h f 1

/-- Take one cell for frame i at requester rq, or say that none could be had. -/
def State.allocOne (s : State) (h rq i : Nat) : Option State :=
  let d := s.deckOf h
  let f := s.frame i
  match d.nextList (d.firstList rq f) 64 with
  | none => none
  | some l =>
    match d.takeFrom l f.tag with
    | none => none
    | some (c, d') =>
      let d' := if f.cells.isEmpty then { d' with turn := AMap.set 0 d'.turn rq ((AMap.get 0 d'.turn rq + 1) % 64) }
                else d'
      let s := s.setDeck h d'
      let s := s.setFrame i { f with cells := f.cells ++ [c], need := f.need - 1 }
      some ((s.chargeCell h f).relevel h)

/-- A requester receives EMPTY, for want of free cells or of cached ones (R245), and has held since it first did (R246). -/
def State.holdEmpty (s : State) (h rq : Nat) : State :=
  let d := s.deckOf h
  s.setDeck h { d with hold := AMap.set none d.hold rq (AMap.get none d.hold rq <|> AMap.get none d.since rq <|> some s.clk.up) }

/-- Take cells for frame i until it has all it needs or EMPTY is received. -/
def State.allocCells (s : State) (h rq i : Nat) : Nat → State
  | 0 => s.setDeck h ((s.deckOf h).stopWaiting rq i)
  | n + 1 =>
    match s.allocOne h rq i with
    | none => s.holdEmpty h rq
    | some t =>
      let d := t.deckOf h
      let t := t.setDeck h { d with hold := AMap.set none d.hold rq none, since := AMap.set none d.since rq none }
      t.allocCells h rq i n

/-- Requester rq of a half takes the cells of its front frame (R245). -/
def State.alloc (s : State) (h rq : Nat) : State :=
  match AMap.get [] (s.deckOf h).waiting rq with
  | [] => s
  | i :: _ => s.allocCells h rq i (s.frame i).need

/-- CELL_ALLOC (R245). -/
def execCellAlloc (h : Half) (rq : Fin 24) (s : State) : Out :=
  s.run (fun s => s.onlyIf (s.deckUp h.val) (·.alloc h.val rq.val))

/-- CELL_FREE (R243): a free request of a requester. -/
def execCellFree (h : Half) (rq : Fin 24) (cell : Nat) (tag : BitVec 16) (s : State) : Out :=
  s.run (fun s => s.onlyIf (s.deckUp h.val) (·.freeStray h.val rq.val cell tag.toNat))

/-- Take head cells of a list past withdrawn ones, looking at n of them (R258). -/
def DeckS.refill1 (d : DeckS) (i : Nat) : Nat → DeckS
  | 0 => d
  | n + 1 =>
    let l := d.list i
    if l.cache.length < 8 ∧ l.broken = false then
      match l.pop d.pools i with
      | none => d
      | some (c, l') =>
        if d.tag c = 0xFFFF then (d.setList i l').refill1 i n
        else d.setList i { l' with cache := l'.cache ++ [c] }
    else d

/-- REFILL (R240): up to two link words of one list. -/
def execRefill (h : Half) (lst : Fin 64) (s : State) : Out :=
  s.run (fun s => s.onlyIf (s.deckUp h.val) (fun s =>
    let d := s.deckOf h.val
    s.setDeck h.val (((d.refill1 lst.val (d.withdrawn + 1)).refill1 lst.val (d.withdrawn + 1)).supplied lst.val)))

/-! ### Frames that end in Deck (R246, R258) -/

/-- Frames of a list without frame i. -/
def without (l : List Nat) (i : Nat) : List Nat := l.filter (fun j => decide (j ≠ i))

/-- Take an admitted frame whose first byte has not left from its queue, its replication queue or the egress stages,
and drop it with a reason. -/
def State.dropHeld (s : State) (i reason : Nat) : State :=
  let f := s.frame i
  if f.tag = 0xC001 then s.dropPunt i f.q reason
  else if f.tag = 0xC000 ∧ f.master = none then
    let x := s.pathOf f.half
    (s.setPath f.half { x with repl := without x.repl i }).dropMcast i reason
  else
    let s := s.setQueue f.q (without (s.queue f.q) i)
    let sl := portSlice (f.q / 32)
    let s := s.setSlice sl ((s.slice sl).without [i]).tidy
    s.dropQueued i reason

/-- Free the cells of a frame that has been ended while its copies or its transmission go on. -/
def State.endCells (s : State) (i : Nat) : State :=
  let f := s.frame i
  let s := s.setDeck f.half ((s.deckOf f.half).stopWaiting f.rq i)
  let s := s.releaseCells f 22
  s.setFrame i { f with cells := [], need := 0 }

/-- A frame held under EMPTY for DK_STALL_MAX is ended (R246): dropped, or stomped at its tail when its first byte, or
that of a copy, has left. -/
def State.stallEnd (s : State) (h i : Nat) : State :=
  let f := s.frame i
  let s := if f.started ∨ f.copied then (s.markFrame i rStall).endCells i else s.dropHeld i rStall
  (s.count64 (pgDeck h) Reg.dkStallDrops 1).raise (pgDeck h) evStallDrop

/-- DK_STALL_MAX in nanoseconds; 0 acts as 1 us (Table 97). -/
def State.stallMax (s : State) (h : Nat) : Nat := orElse0 (s.rf (pgDeck h) Reg.dkStallMax 0 8) 1 * 1000

def State.stall (s : State) (h rq : Nat) : State :=
  let d := s.deckOf h
  match AMap.get none d.hold rq, (AMap.get [] d.waiting rq).head? with
  | some since, some i => if since + s.stallMax h ≤ s.clk.up then s.stallEnd h i else s
  | _, _ => s

/-- BUFFER_STALL (R246): requester rq has held its frame under EMPTY for DK_STALL_MAX. -/
def execBufferStall (h : Half) (rq : Fin 24) (s : State) : Out :=
  s.run (fun s => s.onlyIf (s.deckUp h.val) (·.stall h.val rq.val))

/-! ### Host pools (R247, R248) -/

/-- The pool of an index, when it is active. -/
def DeckS.pool (d : DeckS) (n : Nat) : Pool := AMap.get {} d.pools n

/-- The lowest-numbered free cell from c on, of n cells: its tag is 0 (R248). -/
def DeckS.freePoolCell (d : DeckS) (c : Nat) : Nat → Option Nat
  | 0 => none
  | n + 1 => if d.tag c = 0 then some c else d.freePoolCell (c + 1) n

/-- A write of DK_POOL_ALLOC(n) (R248). -/
def State.poolAlloc (s : State) (r : Requester) (h n : Nat) : State :=
  let d := s.deckOf h
  match d.freePoolCell (d.pool n).base (d.pool n).size with
  | some c =>
    s.setDeck h { d.setTag c (0x8000 + n) with
      poolRes := AMap.set 0 d.poolRes (reqIdx r) (BitVec.ofNat 32 (c + 2 ^ 31)) }
  | none =>
    (s.setDeck h { d with poolRes := AMap.set 0 d.poolRes (reqIdx r) (BitVec.ofNat 32 (2 ^ 30)) }).raise (pgDeck h)
      evPoolEmpty

/-! ### Memory errors (R258) -/

/-- A cell leaves its cache or list (R258). -/
def FList.drop (l : FList) (c : Nat) : FList := { l with cache := without l.cache c, ret := without l.ret c }

/-- An uncorrectable owner tag withdraws its cell (R258). -/
def State.withdraw (s : State) (h cell : Nat) : State :=
  let d := s.deckOf h
  if cell ≥ cellCount ∨ d.tag cell = 0xFFFF then s
  else
    let inPool := rowInPool d.pools (cell / 64)
    let idle := decide (d.tag cell = 0) && !inPool
    let d := d.setList (cell % 64) ((d.list (cell % 64)).drop cell)
    let d := { d.setTag cell 0xFFFF with withdrawn := d.withdrawn + 1, free := d.free - (if idle then 1 else 0) }
    let s := (s.setDeck h d).relevel h
    match s.holderOf h cell with
    | none => s
    | some i => (s.markFrame i rDeckEcc).loseCell i cell

/-- What an ECC error does (R258). -/
def State.deckEcc (s : State) (h : Nat) : DeckEcc → State
  | .corrected => (s.count (pgDeck h) Reg.dkEccCorr 1).raise (pgDeck h) evDkCorr
  | .data cell =>
    let s := match s.holderOf h cell with | some i => s.markFrame i rDeckEcc | none => s
    (s.count (pgDeck h) Reg.dkEccUncorr 1).raise (pgDeck h) evDkUncorr
  | .tag cell => ((s.withdraw h cell).count (pgDeck h) Reg.dkEccUncorr 1).raise (pgDeck h) evDkUncorr
  | .link lst =>
    let d := s.deckOf h
    let s := s.setDeck h (d.setList lst.val { d.list lst.val with broken := true })
    (s.count (pgDeck h) Reg.dkEccUncorr 1).raise (pgDeck h) evDkUncorr

/-- DECK_ECC_ERROR (R258). -/
def execDeckEccError (h : Half) (e : DeckEcc) (s : State) : Out :=
  s.run (fun s => s.onlyIf (s.deckUp h.val) (·.deckEcc h.val e))

/-- The list that a rebuild threads: every cell of the bank with tag 0x0000 that is not in the cache and lies in no
pool, in ascending order (R258). -/
def DeckS.rebuilt (d : DeckS) (i : Nat) : FList :=
  let l := d.list i
  let rows := (List.range rowCount).filter (fun r =>
    decide (d.tag (64 * r + i) = 0) && !l.cache.contains (64 * r + i) && !rowInPool d.pools r)
  { l with row := rowCount, ret := rows.map (fun r => 64 * r + i), broken := false }

/-- LIST_REBUILD (R258). -/
def execListRebuild (h : Half) (lst : Fin 64) (s : State) : Out :=
  s.run (fun s => s.onlyIf (s.deckUp h.val && ((s.deckOf h.val).list lst.val).broken) (fun s =>
    let d := s.deckOf h.val
    let s := s.setDeck h.val ((d.setList lst.val (d.rebuilt lst.val)).supplied lst.val)
    (s.count (pgDeck h.val) Reg.dkRebuilds 1).raise (pgDeck h.val) evListRebuild))

/-! ### Initialisation (R247, R259) -/

/-- Pool n as its registers ask for it, when enabled. -/
def State.poolAsked (s : State) (h n : Nat) : Option Pool :=
  let b := s.reg (pgDeck h) (Reg.dkPoolBase n)
  if bit b 31 then some { base := fld b 0 20, size := s.rf (pgDeck h) (Reg.dkPoolSize n) 0 18 } else none

/-- Two pools have a cell in common. -/
def Pool.overlaps (a b : Pool) : Bool :=
  decide (a.size ≠ 0 ∧ b.size ≠ 0 ∧ a.base < b.base + b.size ∧ b.base < a.base + a.size)

/-- Pool n is valid beside the enabled pools of its half (R247). -/
def State.poolValid (s : State) (h n : Nat) (x : Pool) : Bool :=
  let others := ((List.range 8).filter (fun k => decide (k ≠ n))).filterMap (s.poolAsked h)
  decide (x.base % 64 = 0 ∧ x.size % 64 = 0 ∧ x.size ≠ 0 ∧ x.base + x.size ≤ cellCount
    ∧ x.size + (others.map (·.size)).sum ≤ 131072) && !others.any x.overlaps

/-- The active pools, and those that are enabled and BAD, for pools 0 to n - 1. -/
def State.initPools (s : State) (h : Nat) : Nat → AMap Pool × AMap Bool
  | 0 => ([], [])
  | n + 1 =>
    let r := s.initPools h n
    match s.poolAsked h n with
    | none => r
    | some x => if s.poolValid h n x then (AMap.set {} r.1 n x, r.2) else (r.1, AMap.set false r.2 n true)

/-- The cell that follows cell c on its list, outside the cache: none where c is not on it, none within where c is the last. -/
def FList.follows (l : FList) (pools : AMap Pool) (c : Nat) : Option (Option Nat) :=
  let row := skipPools pools l.row 8
  if row ≤ c / 64 ∧ rowInPool pools (c / 64) = false then some (((({ l with row := c / 64 + 1 } : FList).pop pools (c % 64))).map (·.1))
  else match l.ret.dropWhile (fun x => decide (x ≠ c)) with
    | [] => none
    | _ :: xs => some xs.head?

/-- The link word of a cell that is on a list (R239, Table 91); the check bits are a free value. -/
def DeckS.linkWord (d : DeckS) (c : Nat) : Option Nat :=
  ((d.list (c % 64)).follows d.pools c).map (fun n =>
    let x := n.getD 0 % 2 ^ 20 + b2n n.isNone * 2 ^ 31
    x + Config.linkEcc x % 128 * 2 ^ 20)

/-- The bytes that a cell is left with when it becomes a pool cell: its link word when it was on a list, and what frames have
left there, free values (R239; DESIGN CHOICE, log entry 78). -/
def DeckS.cellLeft (d : DeckS) (draw c : Nat) : List Byte :=
  let old := (List.range 256).map (Config.cellByte draw c)
  match d.linkWord c with
  | some x => leBytes 4 x ++ old.drop 4
  | none => old

/-- The contents of the cells of new pools: a cell that was a pool cell before keeps its bytes. -/
def DeckS.poolsLeft (d : DeckS) (draw : Nat) (pools : AMap Pool) : AMap (List Byte) :=
  pools.foldl (fun (m : AMap (List Byte)) (e : Nat × Pool) =>
    (List.range e.2.size).foldl (fun (m : AMap (List Byte)) (k : Nat) =>
      let c := e.2.base + k
      if rowInPool d.pools (c / 64) then m else AMap.set [] m c (d.cellLeft draw c)) m)
    (d.poolData.filter (fun e => rowInPool pools (e.1 / 64)))

/-- The Deck of a half as initialisation leaves it (R259); XOFF follows the counts (R255). -/
def State.initDeck (s : State) (h : Nat) : State :=
  let r := s.initPools h 8
  let d : DeckS := { pools := r.1, poolBad := r.2, free := cellCount - (r.1.map (·.2.size)).sum
                     poolData := (s.deckOf h).poolsLeft s.freeCtr r.1 }
  let ps := s.pfcPorts
  (((s.setDeck h d).drawn).relevel h).pfcEvals ps

/-- DECK_INIT_DONE (R259); a block reset that has started it may complete later. -/
def execDeckInitDone (h : Half) (s : State) : Out :=
  s.run (fun s => s.onlyIf (s.deckOf h.val).initing (·.initDeck h.val))

/-! ### Priority-based flow control (R256, R257) -/

/-- A PFC frame under IEEE 802.1Qbb (R256): the priorities due, and the timer of each. -/
def pfcFrame (sa : Nat) (due timer : Nat → Nat) : List Byte :=
  let body := beBytes 6 0x0180C2000001 ++ beBytes 6 sa ++ beBytes 2 0x8808 ++ beBytes 2 0x0101
    ++ beBytes 2 ((List.range 8).map (fun r => due r * 2 ^ r)).sum
    ++ (List.range 8).flatMap (fun r => beBytes 2 (timer r)) ++ zeros 26
  body ++ fcs body

/-- The due PFC frame of port p leaves (R256): QUANTA for each due priority in XOFF, 0 for one that has left it. -/
def State.pfcSend (s : State) (p : Nat) : State :=
  let pg := pgAdmit (portHalf p)
  let x := AMap.get {} s.pfcTx p
  let due := fun r => b2n (AMap.get false x.due r)
  let timer := fun r => if AMap.get false x.due r && AMap.get false x.xoff r then s.rf pg Reg.adPfcGlb 16 16 else 0
  let sa := s.reg pg Reg.adPfcSaLo |>.toNat
  let sa := sa + 2 ^ 32 * s.rf pg Reg.adPfcSaHi 0 16
  let sent := (List.range 8).foldl (fun m r => if AMap.get false x.due r then AMap.set 0 m r s.clk.up else m) x.sent
  let bs := pfcFrame sa due timer
  let s := s.transmit p (.pfc p bs)
  let s := (s.count64 (pgPort p) (Reg.txFrames (p % 32)) 1).count64 (pgPort p) (Reg.txBytes (p % 32)) bs.length
  let s := { s with pfcTx := AMap.set {} s.pfcTx p { x with due := [], sent := sent } }
  s.count pg (Reg.adPfcTx p) 1

/-- PFC_FRAME_TX (R256): at a frame boundary of a port whose link is up, while a priority is due. -/
def execPfcFrameTx (p : Port) (s : State) : Out :=
  s.run (fun s => s.onlyIf ((s.port p.val).linkUp && (s.schedOf p.val).tx.isNone
    && !(AMap.get {} s.pfcTx p.val).due.isEmpty) (fun s => (s.pfcSend p.val).loopBack s p.val))

/-- REFRESH quanta of 512 bit times at the port's rate, in nanoseconds (R256, R257). -/
def State.refreshNs (s : State) (p : Nat) : Nat :=
  orElse0 (s.rf (pgAdmit (portHalf p)) Reg.adPfcRef 0 16) 1 * 512 / s.portGbps p

/-- A priority of port p is due again. -/
def PfcS.refresh (x : PfcS) (now wait : Nat) : List Nat → PfcS
  | [] => x
  | r :: rs =>
    let y := if AMap.get false x.xoff r && decide (AMap.get 0 x.sent r + wait ≤ now) then
        { x with due := AMap.set false x.due r true } else x
    y.refresh now wait rs

/-- PFC_REFRESH (R256). -/
def execPfcRefresh (p : Port) (s : State) : Out :=
  s.run (fun s =>
    let x := AMap.get {} s.pfcTx p.val
    { s with pfcTx := AMap.set {} s.pfcTx p.val (x.refresh s.clk.up (s.refreshNs p.val) (List.range 8)) })

/-- PAUSE_EXPIRE (R257): a pause whose time has run out ends. -/
def execPauseExpire (p : Port) (r : Fin 8) (s : State) : Out :=
  s.run (fun s =>
    let x := s.schedOf p.val
    if AMap.get 0 x.pause r.val ≤ s.clk.up then s.setSched p.val { x with pause := AMap.set 0 x.pause r.val 0 } else s)

end Sys2Proof.Machine
end

