-- ==== Sys2Proof/Machine/LearnOps.lean ====
section
/-! DEFINITION. The learning engine (06_tables.md R190 to R196): notices, move damping, what the master does with a request in
the West copy, and what the East copy takes. -/

namespace Sys2Proof.Machine

/-! ### Learning (R192 to R195) -/

/-- The notice of Table 73 of kind 0x40 + k, when NOTIFY enables it. -/
def State.learnNotice (s : State) (k t : Nat) (key : List Byte) (new old : Nat) : State :=
  if s.rbit (pgLearn 0) Reg.lrCtrl (1 + k) then
    s.notice ([BitVec.ofNat 32 (0x40 + k + t * 256)] ++ leWords (bytesAt key 0 16) 4
      ++ [BitVec.ofNat 32 new, BitVec.ofNat 32 old, BitVec.ofNat 32 (s.now / 1000)]) (pgLearn 0) Reg.lrNoteLost
  else s

/-- The learning tick: milliseconds modulo 65,536 (R194). -/
def State.tick16 (s : State) : Nat := s.clk.up / 1000000 % 65536

/-- The damping fields of an entry: FROZEN, MV_CNT, MV_T. -/
structure Damp where
  frozen : Bool
  cnt    : Nat
  t      : Nat
  deriving DecidableEq, Repr

/-- R194: whether a move at tick now is permitted, and the fields after it. -/
def Damp.move (d : Damp) (now max win hold : Nat) : Bool × Damp :=
  let dt := (now + 65536 - d.t) % 65536
  if max = 0 then (true, d)
  else if d.frozen then
    if dt < hold then (false, d) else (true, { frozen := false, cnt := 1, t := now })
  else if win ≤ dt then (true, { d with cnt := 1, t := now })
  else if max < d.cnt + 1 then (false, { frozen := true, cnt := (d.cnt + 1) % 8, t := now })
  else (true, { d with cnt := d.cnt + 1 })

/-- The damping fields of the entry at a location. -/
def State.dampOf (s : State) (h loc : Nat) : Damp :=
  let w := s.emW h loc 8
  { frozen := cwFrozen w, cnt := fld w 21 3, t := fld (s.emW h loc 9) 0 16 }

def State.setDamp (s : State) (h loc : Nat) (d : Damp) : State :=
  let w := s.emW h loc 8
  (s.setEmW h loc 8 (put (put w 14 1 (b2n d.frozen)) 21 3 d.cnt)).setEmW h loc 9 (BitVec.ofNat 32 d.t)

/-- DEST of an entry := d, HIT := 1. -/
def State.moveDest (s : State) (h loc d : Nat) : State :=
  let r := s.entryResult h loc
  let s := s.setResult h loc (r - destOf r + d)
  s.setEmW h loc 8 (put (s.emW h loc 8) 13 1 1)

/-- A change made to an entry of the West copy whose control word is w, for the East copy to take. -/
def State.tellEast (s : State) (t : Nat) (key : List Byte) (op : EastOp) (w : Word) : State :=
  { s with eastq := s.eastq ++ [{ tbl := t, key := key, op := op, birth := cwBirth w, death := cwDeath w }] }

/-- The entry of a key in a half's copy that the current ring sees. -/
def State.copyOf (s : State) (h t : Nat) (key : List Byte) : Option Nat :=
  (s.emFind h t key).find? (fun l => s.emVisible h l s.rings.cur.val)

/-- A request for a key with no visible entry (Table 72). -/
def State.learnNew (s : State) (t : Nat) (key : List Byte) (src : Nat) : State :=
  match s.placeEntry 0 t key src (ctrlWord t (s.isWideTbl 0 t) false true true none none) with
  | none => (s.count (pgLearn 0) Reg.lrOvf 1).raise (pgLearn 0) evLrOvf
  | some (s, _) =>
    let s := s.count64 (pgLearn 0) Reg.lrLearned 1
    (s.tellEast t key (.put src false 0 0) 0).learnNotice 0 t key src 0

/-- A request whose source differs from a dynamic entry's DEST (Table 72, R194). -/
def State.learnMove (s : State) (t : Nat) (key : List Byte) (src loc old : Nat) : State :=
  let d := s.dampOf 0 loc
  let m := d.move s.tick16 (s.rf (pgLearn 0) Reg.lrMove 0 3) (s.rf (pgLearn 0) Reg.lrMoveWin 0 16)
    (s.rf (pgLearn 0) Reg.lrMoveHold 0 16)
  let s := s.setDamp 0 loc m.2
  if m.1 then
    let s := (s.moveDest 0 loc src).count64 (pgLearn 0) Reg.lrMoved 1
    (s.tellEast t key (.put src m.2.frozen m.2.cnt m.2.t) (s.emW 0 loc 8)).learnNotice 1 t key src old
  else
    let s := (s.count (pgLearn 0) Reg.lrDamped 1).raise (pgLearn 0) evDamped
    if d.frozen then s else s.learnNotice 3 t key src old

/-- The master processes one request against the West copy (Table 72). -/
def State.learnProcess (s : State) (x : LearnReq) : State :=
  match s.copyOf 0 x.tbl x.key with
  | none => s.learnNew x.tbl x.key x.src
  | some l =>
    let old := destOf (s.entryResult 0 l)
    if old = x.src then s
    else if cwStatic (s.emW 0 l 8) then
      let s := (s.count (pgLearn 0) Reg.lrLockViol 1).raise (pgLearn 0) evLockViol
      s.learnNotice 4 x.tbl x.key x.src old
    else s.learnMove x.tbl x.key x.src l old

/-- The master cannot have the requests of the East engine (R192). -/
def State.eastLost (s : State) (h : Nat) : Bool := decide (h = 1) && (!s.halfUp 0 || !s.flumeUp)

/-- The first request of a half's FIFO is processed, or lost on its way to the master (R192). -/
def State.learnTake (s : State) (h : Nat) : State :=
  let w := s.woodOf h
  match w.fifo with
  | [] => s
  | x :: xs =>
    let s := s.setWood h { w with fifo := xs }
    if s.eastLost h then (s.count (pgLearn 1) Reg.lrLost 1).raise (pgLearn 1) evLrLost else s.learnProcess x

/-- LR_BURST.N of the master: 0 acts as 1 (R193, R211). -/
def State.learnBurst (s : State) : Nat := max 1 (s.rf (pgLearn 0) Reg.lrBurst 0 5)

/-- The version in the East copy of the entry that a change was made to: the one with the same tags (R182). -/
def State.eastVersion (s : State) (c : EastChange) : Option Nat :=
  (s.emFind 1 c.tbl c.key).find? (fun l => decide (cwBirth (s.emW 1 l 8) = c.birth ∧ cwDeath (s.emW 1 l 8) = c.death))

/-- The East copy takes a change (R192, R196): it acts on the version with the tags of the West entry, and never on a static one. A
DEST goes to the visible version where that one is absent, and where none is visible into a new entry, also when the master decided a
move (DESIGN CHOICE, log entry 93). -/
def State.eastTake (s : State) (c : EastChange) : State :=
  match c.op, s.eastVersion c with
  | .put dest fr cnt t, v =>
    (match v <|> s.copyOf 1 c.tbl c.key with
    | some l =>
      if cwStatic (s.emW 1 l 8) then s
      else (s.moveDest 1 l dest).setDamp 1 l { frozen := fr, cnt := cnt, t := t }
    | none =>
      match s.placeEntry 1 c.tbl c.key dest (ctrlWord c.tbl (s.isWideTbl 1 c.tbl) false true true none none) with
      | some (s, _) => s
      | none => s)
  | .clearHit, some l => if cwStatic (s.emW 1 l 8) then s else s.setEmW 1 l 8 (put (s.emW 1 l 8) 13 1 0)
  | .delete, some l => if cwStatic (s.emW 1 l 8) then s else s.clearEntry 1 l
  | _, none => s

/-- The next change that waits for the East copy is made. -/
def State.eastApply (s : State) : State :=
  match s.eastq with
  | [] => s
  | c :: cs => ({ s with eastq := cs } : State).eastTake c

/-- Learning work of a half's sequencer, n requests at most: West those of both FIFOs, West's own first, East the changes of its
copy (R192, R193; the order of the FIFOs is a DESIGN CHOICE, log entry 82). -/
def State.learnServe (s : State) (h : Nat) : Nat → State
  | 0 => s
  | n + 1 =>
    (if h = 1 then (if s.flumeUp then s.eastApply else s)
     else if (s.woodOf 0).fifo.isEmpty then s.learnTake 1 else s.learnTake 0).learnServe h n

end Sys2Proof.Machine
end

