-- ==== Sys2Proof/Machine/BankOps.lean ====
section
/-! DEFINITION. Spare banks and memory errors of Woodlot (06_tables.md R202 to R204), and the parity faults of TCAM entries
(R189). -/

namespace Sys2Proof.Machine

/-! ### Migration (R202, R203) -/

/-- Spare 224 + i serves a bank, has been taken out of use, or is being filled. -/
def WoodS.spareUsed (w : WoodS) (i : Nat) : Bool :=
  w.bankmap.any (fun e => decide (e.2 = some (224 + i))) || AMap.get false w.retired (224 + i)
  || (match w.mig with | some m => decide (m.spare = 224 + i) | none => false)

/-- Start the migration of a bank to the lowest unused spare, or set SPARE_OUT; while one runs, or for a number that is
no bank, nothing starts (R202, R203, Table 79). -/
def State.migStart (s : State) (h bank : Nat) : State :=
  let w := s.woodOf h
  if 223 < bank ∨ w.mig.isSome then s
  else match (List.range 8).find? (fun i => !w.spareUsed i) with
    | none => s.raise (pgWlem h) evSpareOut
    | some i => s.setWood h { w with mig := some { bank := bank, spare := 224 + i, cursor := 0 } }

/-- WL_MIGRATE.GO acts, and falls (Table 79). -/
def State.migGo (s : State) (h bank : Nat) : State := (s.setRf (pgWlem h) Reg.wlMigrate 31 1 0).migStart h bank

/-- A memory error asks for the migration of a bank (R202, R204): it starts at once, or waits while BG_EN is 0 or another
runs. -/
def State.migAsk (s : State) (h bank : Nat) : State :=
  let w := s.woodOf h
  if s.rbit (pgMaint h) Reg.mtCtrl 3 ∧ w.mig.isNone then s.migStart h bank
  else if 223 < bank ∨ w.migWant.contains bank ∨ w.mig.any (fun m => decide (m.bank = bank)) then s
  else s.setWood h { w with migWant := w.migWant ++ [bank] }

/-- Where a physical bank holds bucket or node u: the page, the select code, the first word, how many words. -/
def bankPos (h phys u : Nat) : Nat × Nat × Nat × Nat :=
  if 128 ≤ phys ∧ phys < 224 then (pgWllpm h, phys - 128, u, 1) else (pgWlem h, phys, 40 * u, 40)

/-- Copy bucket or node u of a physical bank into another. -/
def State.copyPos (s : State) (h from_ dst u : Nat) : State :=
  let x := bankPos h from_ u
  let y := bankPos h dst u
  s.setMemWs y.1 y.2.1 y.2.2.1 ((s.memWs x.1 x.2.1 x.2.2.1 x.2.2.2).take y.2.2.2)

/-- The migration of a half has passed the end of the bank (R203). -/
def State.migEnd (s : State) (h : Nat) (m : Mig) : State :=
  let w := s.woodOf h
  let old := (AMap.get none w.bankmap m.bank).getD m.bank
  let s := s.setWood h { w with mig := none, bankmap := AMap.set none w.bankmap m.bank (some m.spare)
                                retired := AMap.set false w.retired old true }
  s.raise (pgWlem h) evMigrateDone

/-- The first n buckets or nodes are copied back. -/
def State.copyBack (s : State) (h from_ dst : Nat) : Nat → State
  | 0 => s
  | n + 1 => (s.copyPos h from_ dst n).copyBack h from_ dst n

/-- An abandoned migration ends with the bank as the lookups see it, in the original (R201; DEDUCED, log entry 82). -/
def State.migDrop (s : State) (h : Nat) : State :=
  let w := s.woodOf h
  match w.mig with
  | none => s
  | some m =>
    (s.copyBack h m.spare ((AMap.get none w.bankmap m.bank).getD m.bank) m.cursor).setWood h { w with mig := none }

/-! ### Memory errors (R202, R204) -/

/-- The bank of a location as an error record names it: 0xF0 for the stash. -/
def locBank (l : Nat) : Nat := if stashBase ≤ l then 0xF0 else l / 16384

/-- A location as WL_ECC_LOC spells it; a stash slot lies in bits [10:8] as in Table 76. -/
def eccLoc (l : Nat) : Nat :=
  if stashBase ≤ l then 0xF0 + (l - stashBase) * 256 else l / 16384 + l / 4 % 4096 * 256 + l % 4 * 2 ^ 20

/-- The location lies in an LPM bank. -/
def locLpm (l : Nat) : Bool := decide (128 ≤ locBank l ∧ locBank l < 224)

/-- The page that reports an error at a location. -/
def locPage (h l : Nat) : Nat := if locLpm l then pgWllpm h else pgWlem h

/-- Corrected errors of a bank within one second: when they reach THR the bank is migrated (R202). -/
def State.corrected (s : State) (h bank : Nat) : State :=
  let w := s.woodOf h
  let e := (AMap.get [] w.errs bank).filter (fun t => decide (s.clk.up < t + 1000000000)) ++ [s.clk.up]
  let thr := s.rf (pgWlem h) Reg.wlSpareThr 0 16
  if thr ≠ 0 ∧ thr ≤ e.length then (s.setWood h { w with errs := AMap.set [] w.errs bank [] }).migAsk h bank
  else s.setWood h { w with errs := AMap.set [] w.errs bank e }

/-- WL_ECC_LOC holds the location of an error whose ECC_UNCORR event has not been cleared since. -/
def State.eccHeld (s : State) (h : Nat) : Bool :=
  let v := s.reg (pgWlem h) Reg.wlEccLoc
  bit v 31 && s.rbit (if 128 ≤ fld v 0 8 ∧ fld v 0 8 < 224 then pgWllpm h else pgWlem h) 0x10 evWlUncorr

/-- An uncorrectable error at a location (R204): an exact-match slot is cleared; an LPM node is lost until the sequencer has
rebuilt it; the bank is migrated. -/
def State.uncorrected (s : State) (h l : Nat) : State :=
  let w := s.woodOf h
  let s := if locLpm l then
      (if w.lpmBad.contains (l / 4) then s else s.setWood h { w with lpmBad := w.lpmBad ++ [l / 4] })
    else s.setEmSlot h l (List.replicate 10 0)
  let s := s.count (pgWlem h) Reg.wlEccUncorr 1
  let s := if s.eccHeld h then s else s.setReg (pgWlem h) Reg.wlEccLoc (BitVec.ofNat 32 (eccLoc l + 2 ^ 31))
  (s.raise (locPage h l) evWlUncorr).migAsk h (locBank l)

/-- A memory error at a location (R202, R204). -/
def State.woodEcc (s : State) (h l : Nat) (uncorr : Bool) : State :=
  if uncorr then s.uncorrected h l
  else ((s.count (pgWlem h) Reg.wlEccCorr 1).raise (locPage h l) evWlCorr).corrected h (locBank l)

/-- The location of a word of a window memory of Woodlot, none for a spare that serves no bank (R209, R210). -/
def State.winLoc (s : State) (h : Nat) (lpm : Bool) (sel a : Nat) : Option Nat :=
  if lpm then some (bucketBase (128 + sel) a) else s.physLoc h sel a

/-- A parity fault in a TCAM entry (R189). -/
def State.tcFault (s : State) (sl e : Nat) : State :=
  ((s.setMemW (pgTcam sl) 0 (32 * e + 24) (put (s.tcW sl e 24) 7 1 1)).count (pgTcam sl) Reg.tcPerr 1).raise (pgTcam sl) 0

end Sys2Proof.Machine
end

