-- ==== Sys2Proof/Machine/TableOps.lean ====
section
/-! DEFINITION. Table commands (06_tables.md R182, R205 to R208, Tables 75 to 78): the descriptor, the checks before the
halves, what each operation does in one half, and the completion. -/

namespace Sys2Proof.Machine

/-! ### Status codes (Table 77) -/
abbrev stOk : Nat := 0x00
abbrev stExists : Nat := 0x01
abbrev stNotFound : Nat := 0x02
abbrev stNoSpace : Nat := 0x03
abbrev stBadOp : Nat := 0x04
abbrev stBadTable : Nat := 0x05
abbrev stBadArg : Nat := 0x06
abbrev stLpmFull : Nat := 0x07
abbrev stRingPending : Nat := 0x08
abbrev stDmaError : Nat := 0x09
abbrev stAbandoned : Nat := 0x0A
abbrev stUnreachable : Nat := 0x0B
abbrev stRefused : Nat := 0x0C

/-! ### The descriptor (Table 75) -/
def dOp (ws : List Word) : Nat := fld (wordAt ws 0) 0 8
def dTbl (ws : List Word) : Nat := fld (wordAt ws 0) 8 8
def dFence (ws : List Word) : Bool := bit (wordAt ws 0) 16
def dHeavy (ws : List Word) : Bool := bit (wordAt ws 0) 17
def dHalves (ws : List Word) : List Nat :=
  let x := fld (wordAt ws 0) 18 2
  if x = 1 then [0] else if x = 2 then [1] else [0, 1]
def dRmode (ws : List Word) : Nat := fld (wordAt ws 0) 20 2
def dStaged (ws : List Word) : Bool := decide (dRmode ws = 1)
def dIrq (ws : List Word) : Bool := bit (wordAt ws 0) 22
def dTag (ws : List Word) : Nat := fld (wordAt ws 1) 0 16
def dLen (ws : List Word) : Nat := fld (wordAt ws 4) 0 16
def dSlices (ws : List Word) : Word := wordAt ws 5

/-- The operations of Table 76. -/
def opKnown (op : Nat) : Bool :=
  [0x01, 0x02, 0x03, 0x04, 0x05, 0x10, 0x11, 0x12, 0x20, 0x21, 0x30, 0x31, 0x3F].contains op

def opEm (op : Nat) : Bool := decide (1 ≤ op ∧ op ≤ 5) || decide (op = 0x30 ∨ op = 0x31)
def opLpm (op : Nat) : Bool := decide (0x10 ≤ op ∧ op ≤ 0x12)
def opTcam (op : Nat) : Bool := decide (op = 0x20 ∨ op = 0x21)

/-- Bytes of an operation's block (Table 78). -/
def blockLen (op : Nat) : Nat :=
  if op = 0x3F then 0 else if op = 0x30 ∨ op = 0x31 then 9 else if opLpm op then 48 else if opTcam op then 98 else 64

/-- The table is enabled in a half and of the operation's kind. -/
def State.tableOk (s : State) (op t h : Nat) : Bool :=
  if op = 0x3F then true
  else if opTcam op then decide (t = 0x60)
  else if opLpm op then decide (0x40 ≤ t ∧ t ≤ 0x5F) && bit (s.lpmLt h (t - 0x40)) 0
  else decide (1 ≤ t ∧ t ≤ 0x3F) && bit (s.wlLt h t) 0

/-- Faults 1 to 3 of R207, before the block is read. -/
def State.earlyFault (s : State) (ws : List Word) : Option Nat :=
  let op := dOp ws
  if opKnown op = false then some stBadOp
  else if 2 ≤ dRmode ws ∨ (dStaged ws ∧ (op = 0x30 ∨ op = 0x31)) then some stBadArg
  else if (dHalves ws).all (s.tableOk op (dTbl ws)) = false then some stBadTable
  else none

/-- Fault 5 of R207: a short block, or a prefix length beyond the family's address. -/
def State.blockFault (s : State) (ws : List Word) (blk : List Byte) : Option Nat :=
  let op := dOp ws
  let b := blk.take (dLen ws)
  if b.length < blockLen op then some stBadArg
  else if opLpm op ∧ (dHalves ws).any (fun h => decide (s.lpmBits h (dTbl ws - 0x40) < (byteAt b 16).toNat)) then
    some stBadArg
  else none

/-- The routine code of an operation (Table 74); 0 for EM_READ, LPM_READ and NOP, for which the table lists none (DESIGN CHOICE, log entry
93). -/
def opRoutine (op : Nat) : Nat :=
  if op = 4 then 2 else if op ≤ 3 then 1 else if op = 0x10 then 3 else if op = 0x11 then 4
  else if op = 0x20 ∨ op = 0x21 then 5 else if op = 0x30 then 0x10 else if op = 0x31 then 0x11 else 0

/-- What an operation answers in a half: the status, INFO, and the block a read writes back. -/
structure Answer where
  status : Nat := 0
  info   : Nat := 0
  back   : List Byte := []
  deriving DecidableEq, Repr

def fail (st : Nat) : Answer := { status := st }

/-! ### Versions of a key (R182) -/

/-- A version: where it is, its tags. -/
structure Ver where
  id    : Nat
  birth : Option Nat
  death : Option Nat
  deriving DecidableEq, Repr

/-- The versions of a key as a staged change sees them: the one that a change staged for the next commit places, the
one it kills, and the one that stands without a DEATH. -/
structure Vers where
  placed : Option Ver
  dying  : Option Ver
  live   : Option Ver
  deriving DecidableEq, Repr

/-- The ring whose tags are pending staged changes: the staging ring, once it is FREE. While it is still live from its older
use, its tags are of that use (R182, R206). -/
def State.pendRing (s : State) : Option Nat := if s.ringLive s.rings.staging.val then none else some s.rings.staging.val

/-- A tag is of a change staged for the next commit. -/
def staged (stg t : Option Nat) : Bool := t.isSome && decide (t = stg)

/-- Sort versions by the changes staged for the next commit. -/
def versOf (stg : Option Nat) (vs : List Ver) : Vers :=
  { placed := vs.find? (fun v => staged stg v.birth)
    dying := vs.find? (fun v => !staged stg v.birth && staged stg v.death)
    live := vs.find? (fun v => !staged stg v.birth && v.death.isNone) }

def Vers.pending (v : Vers) : Bool := v.placed.isSome || v.dying.isSome

/-- What a command does to the versions of its key. -/
inductive Change where
  | stop (status : Nat)
  | nothing
  | rewrite (id : Nat)
  | place (staged : Bool) (kill : Option Nat)
  | kill (id : Nat)
  | remove (id : Nat)
  deriving DecidableEq, Repr

/-- INSERT (R178, R182). -/
def changeInsert (staged : Bool) (v : Vers) : Change :=
  if staged then
    match v.live, v.placed with
    | some _, _ => .stop stExists
    | none, some p => .rewrite p.id
    | none, none => .place true none
  else if v.pending then .stop stRingPending
  else if v.live.isSome then .stop stExists else .place false none

/-- UPDATE (R182). -/
def changeUpdate (staged : Bool) (v : Vers) : Change :=
  if staged then
    match v.placed, v.live, v.dying with
    | some p, _, _ => .rewrite p.id
    | none, some l, _ => .place true (some l.id)
    | none, none, some _ => .place true none
    | none, none, none => .stop stNotFound
  else if v.pending then .stop stRingPending
  else match v.live with
    | some l => .rewrite l.id
    | none => .stop stNotFound

/-- UPSERT (R182): an update where the key has a version to update, else an insert. -/
def changeUpsert (staged : Bool) (v : Vers) : Change :=
  match changeUpdate staged v with
  | .stop st => if st = stNotFound then changeInsert staged v else .stop st
  | c => c

/-- DELETE (R182). -/
def changeDelete (staged : Bool) (v : Vers) : Change :=
  if staged then
    match v.placed, v.live, v.dying with
    | some p, _, _ => .remove p.id
    | none, some l, _ => .kill l.id
    | none, none, some _ => .nothing
    | none, none, none => .stop stNotFound
  else if v.pending then .stop stRingPending
  else match v.live with
    | some l => .remove l.id
    | none => .stop stNotFound

/-- Locations that a change adds to the staging ring's log. -/
def Change.logs : Change → Nat
  | .place true (some _) => 2
  | .place true none => 1
  | .kill _ => 1
  | _ => 0

/-- The log has room for a change (07_rings.md R221). -/
def State.logRoom (s : State) (h : Nat) (c : Change) : Bool :=
  decide (c.logs = 0 ∨ s.logSize h s.rings.staging.val + c.logs ≤ 262144)

/-! ### Exact match -/

/-- The versions of a key in a half. -/
def State.emVers (s : State) (h t : Nat) (key : List Byte) : List Ver :=
  (s.emFind h t key).map (fun l => { id := l, birth := cwBirth (s.emW h l 8), death := cwDeath (s.emW h l 8) })

/-- A table's change of an entry's versions: the entry's result and STATIC, R178's placement, tags. A rewrite keeps LEARNED, HIT
and the damping fields (DESIGN CHOICE, log entry 82). -/
def State.emChange (s : State) (h t : Nat) (key : List Byte) (res : Nat) (static : Bool) : Change → State × Answer
  | .stop st => (s, fail st)
  | .nothing => (s, {})
  | .rewrite l =>
    let s1 := s.setResult h l res
    (s1.setEmW h l 8 (put (s1.emW h l 8) 11 1 (b2n static)), { info := locInfo l })
  | .place staged kill =>
    let birth := if staged then some s.rings.staging.val else none
    let c := ctrlWord t (s.isWideTbl h t) static false false birth none
    let s0 := match kill with
      | some l => s.setEmW h l 8 (put (s.emW h l 8) 18 3 (ringTag (some s.rings.staging.val)))
      | none => s
    (match s0.placeEntry h t key res c with
    | some (s1, l) => (s1, { info := locInfo l })
    | none => (s, fail stNoSpace))
  | .kill l => (s.setEmW h l 8 (put (s.emW h l 8) 18 3 (ringTag (some s.rings.staging.val))), {})
  | .remove l => (s.clearEntry h l, {})

/-- The change an exact-match operation makes. -/
def emDecide (op : Nat) (staged : Bool) (v : Vers) : Change :=
  if op = 1 then changeInsert staged v else if op = 2 then changeUpdate staged v
  else if op = 3 then changeUpsert staged v else changeDelete staged v

/-- The change that an exact-match operation makes in a half. -/
def State.emChoice (s : State) (h op t : Nat) (staged : Bool) (key : List Byte) : Change :=
  emDecide op staged (versOf s.pendRing (s.emVers h t key))

/-- The relocation path that an exact-match operation records in a half, if it needs one (R180). -/
def State.emPath (s : State) (h op t : Nat) (staged : Bool) (blk : List Byte) : List Nat :=
  let key := bytesAt blk 0 32
  let c := s.emChoice h op t staged key
  match c with
  | .place _ _ => if s.logRoom h c then (match s.roomPath h t key true with | some (d :: x :: p) => d :: x :: p | _ => []) else []
  | _ => []

/-- EM_INSERT, EM_UPDATE, EM_UPSERT and EM_DELETE in a half. -/
def State.emWrite (s : State) (h op t : Nat) (staged : Bool) (blk : List Byte) : State × Answer :=
  let key := bytesAt blk 0 32
  let c := s.emChoice h op t staged key
  if s.logRoom h c then s.emChange h t key (s.resStored h t (beAt blk 32 16)) (leAt blk 48 4 % 2 = 1) c
  else (s, fail stNoSpace)

/-- ATTR of an entry as a read returns it (Table 78). -/
def attrOf (w : Word) : Nat :=
  b2n (cwStatic w) + 2 * b2n (cwLearned w) + 4 * b2n (cwHit w) + 8 * b2n (cwFrozen w) + fld w 15 3 * 16
    + fld w 18 3 * 128

/-- EM_READ in a half: the version visible to the current ring. -/
def State.emRead (s : State) (h t : Nat) (blk : List Byte) : State × Answer :=
  match (s.emFind h t (bytesAt blk 0 32)).find? (fun l => s.emVisible h l s.rings.cur.val) with
  | none => (s, fail stNotFound)
  | some l =>
    (s, { info := locInfo l
          back := bytesAt blk 0 32 ++ beBytes 16 (s.entryResult h l) ++ leBytes 4 (attrOf (s.emW h l 8)) ++ zeros 12 })

/-! ### LPM -/

/-- The address number of a block for a table: 32 or 128 bits (Table 78). -/
def State.lpmAddr (s : State) (h n : Nat) (blk : List Byte) : Nat :=
  maskAddr (s.lpmBits h n) (byteAt blk 16).toNat (beAt blk 0 (s.lpmBits h n / 8))

/-- Versions of a prefix with their index in the half's list. -/
def lpmVers (n addr len : Nat) : Nat → List LpmPfx → List Ver
  | _, [] => []
  | i, x :: xs =>
    if x.tbl = n ∧ x.addr = addr ∧ x.len = len then
      { id := i, birth := x.birth, death := x.death } :: lpmVers n addr len (i + 1) xs
    else lpmVers n addr len (i + 1) xs

/-- Store the prefix list of a half; FULL is set on the edge on which LPM_UNITS reaches its limit (Table 80). -/
def State.setLpm (s : State) (h : Nat) (l : List LpmPfx) : State :=
  let before := s.lpmUnits h
  let s := s.setWood h { s.woodOf h with lpm := l }
  s.raiseIf (decide (before < 2097152 ∧ 2097152 ≤ s.lpmUnits h)) (pgWllpm h) evLpmFull

/-- A change of a prefix's versions. -/
def State.lpmChange (s : State) (h : Nat) (x : LpmPfx) : Change → State × Answer
  | .stop st => (s, fail st)
  | .nothing => (s, {})
  | .rewrite i => (s.setLpm h ((s.woodOf h).lpm.modify i (fun y => { y with result := x.result })), {})
  | .place staged _ =>
    if 2097152 < s.lpmUnits h + s.lpmCost h x then (s.raise (pgWllpm h) evLpmFull, fail stLpmFull)
    else (s.setLpm h ((s.woodOf h).lpm ++ [{ x with birth := if staged then some s.rings.staging.val else none }]), {})
  | .kill i => (s.setLpm h ((s.woodOf h).lpm.modify i (fun y => { y with death := some s.rings.staging.val })), {})
  | .remove i => (s.setLpm h ((s.woodOf h).lpm.eraseIdx i), {})

/-- LPM_INSERT and LPM_DELETE in a half. -/
def State.lpmWrite (s : State) (h op n : Nat) (staged : Bool) (blk : List Byte) : State × Answer :=
  let len := (byteAt blk 16).toNat
  let a := s.lpmAddr h n blk
  let v := versOf s.pendRing (lpmVers n a len 0 (s.woodOf h).lpm)
  let c := if op = 0x10 then changeInsert staged v else changeDelete staged v
  if s.logRoom h c then s.lpmChange h { tbl := n, addr := a, len := len, result := beAt blk 32 16 } c
  else (s, fail stNoSpace)

/-- LPM_READ in a half: the exact prefix, as the current ring sees it, with its tags in an ATTR that stands where an EM block has it (R182;
DESIGN CHOICE, log entry 97: Table 78 gives the LPM block no ATTR). -/
def State.lpmRead (s : State) (h n : Nat) (blk : List Byte) : State × Answer :=
  match ((s.woodOf h).lpmFind n (s.lpmAddr h n blk) (byteAt blk 16).toNat).find?
      (fun x => s.visible x.birth x.death s.rings.cur.val) with
  | none => (s, fail stNotFound)
  | some x =>
    (s, { back := bytesAt blk 0 32 ++ beBytes 16 x.result ++ leBytes 4 (ringTag x.birth * 16 + ringTag x.death * 128) })

/-! ### TCAM -/

/-- Write a TCAM entry on one edge; a write clears PERR (R189). -/
def State.tcPut (s : State) (sl e : Nat) (blk : List Byte) (birth : Option Nat) : State :=
  s.setMemWs (pgTcam sl) 0 (32 * e) ((List.range 24).map (fun i => BitVec.ofNat 32 (beAt blk (4 * i) 4))
    ++ [BitVec.ofNat 32 (1 + ringTag birth * 2)])

/-- Write an entry's control word; the write clears PERR (R189). -/
def State.setTcCtrl (s : State) (sl e : Nat) (w : Word) : State := s.setMemW (pgTcam sl) 0 (32 * e + 24) (put w 7 1 0)

/-- An index is retired while its entry's DEATH ring is in SWEEP or FREE (Table 76); a delete staged for the next
commit names a FREE ring and leaves its entry live until then (07_rings.md R219). -/
def State.tcRetired (s : State) (w : Word) : Bool :=
  match tcDeath w with
  | none => false
  | some d => decide (d ≠ s.rings.staging.val ∨ s.ringLive d) &&
      decide ((s.ringRec d).st = .sweep ∨ (s.ringRec d).st = .free)

/-- The change a TCAM operation makes at an index, from the entry's control word. -/
def State.tcDecide (s : State) (op : Nat) (staged : Bool) (e : Nat) (w : Word) : Change :=
  let placed := tcValid w && Machine.staged s.pendRing (tcBirth w)
  let dying := tcValid w && !placed && Machine.staged s.pendRing (tcDeath w)
  if staged = false then
    if placed ∨ dying then .stop stRingPending
    else if op = 0x20 then .rewrite e
    else if tcValid w ∧ tcDeath w = none then .remove e else .stop stNotFound
  else if op = 0x20 then
    if placed then .rewrite e
    else if tcValid w = false ∨ s.tcRetired w then .place true none else .stop stExists
  else if placed then .remove e
  else if dying then .nothing
  else if tcValid w ∧ tcDeath w = none then .kill e else .stop stNotFound

/-- A TCAM command in one slice (R206). -/
def State.tcOne (s : State) (op sl : Nat) (staged : Bool) (blk : List Byte) : State × Nat :=
  let e := leAt blk 96 2 % 4096
  let w := s.tcW sl e 24
  if s.enabled (pgTcam sl) = false then (s, stRefused)
  else
    let birth := if staged then some s.rings.staging.val else none
    match s.tcDecide op staged e w with
    | .stop st => (s, st)
    | .nothing => (s, stOk)
    | .rewrite _ => (s.tcPut sl e blk birth, stOk)
    | .place _ _ => (s.tcPut sl e blk birth, stOk)
    | .kill _ => (s.setTcCtrl sl e (put w 4 3 (ringTag (some s.rings.staging.val))), stOk)
    | .remove _ => (s.setTcCtrl sl e (put w 0 1 0), stOk)

/-- A TCAM command over slices, in ascending order; the status is the first that is not OK. -/
def State.tcSlices (s : State) (op : Nat) (staged : Bool) (blk : List Byte) : List Nat → State × Answer
  | [] => (s, {})
  | sl :: sls =>
    let r := s.tcOne op sl staged blk
    let r2 := r.1.tcSlices op staged blk sls
    (r2.1, if r.2 = stOk then r2.2 else fail r.2)

/-- Locations that a TCAM command adds to the staging ring's log in slices of a half. -/
def State.tcLogs (s : State) (op : Nat) (staged : Bool) (blk : List Byte) (sls : List Nat) : Nat :=
  let e := leAt blk 96 2 % 4096
  (sls.map (fun sl => if s.enabled (pgTcam sl) then (s.tcDecide op staged e (s.tcW sl e 24)).logs else 0)).sum

/-- A TCAM command in a half: one that would take the staging ring's log beyond its capacity tags nothing there (07_rings.md
R221). -/
def State.tcHalf (s : State) (h op : Nat) (staged : Bool) (blk : List Byte) (sls : List Nat) : State × Answer :=
  let n := s.tcLogs op staged blk sls
  if n ≠ 0 ∧ 262144 < s.logSize h s.rings.staging.val + n then (s, fail stNoSpace) else s.tcSlices op staged blk sls

/-! ### Bulk (R208) -/

/-- A bulk routine acts on the entry at a location. -/
def State.bulkHits (s : State) (h t : Nat) (blk : List Byte) (l : Nat) : Bool :=
  let w := s.emW h l 8
  decide (fld w 0 8 = t) && (cwBirth w).isNone && (cwDeath w).isNone
  && (!cwStatic w || bit (BitVec.ofNat 32 (byteAt blk 8).toNat) 1)
  && (decide ((byteAt blk 8).toNat % 2 = 1) || decide (destOf (s.entryResult h l) = destOf (leAt blk 0 4)))

/-- Insert a number into an ascending list. -/
def insertUp (x : Nat) : List Nat → List Nat
  | [] => [x]
  | y :: ys => if x ≤ y then x :: y :: ys else y :: insertUp x ys

/-- The locations of a half's entries in ascending order. -/
def State.emSorted (s : State) (h : Nat) : List Nat := (s.emAll h).foldr insertUp []

/-- Act on the entry at a location. -/
def State.bulkOne (s : State) (h op target l : Nat) : State :=
  let r := s.entryResult h l
  if op = 0x30 then s.setResult h l (r - destOf r + target) else s.clearEntry h l

/-- Act on the entries of a list that the routine is for: the state and how many it changed. -/
def State.bulkEach (s : State) (h op t : Nat) (blk : List Byte) : List Nat → State × Nat
  | [] => (s, 0)
  | l :: ls =>
    if s.bulkHits h t blk l then
      let x := (s.bulkOne h op (destOf (leAt blk 4 4)) l).bulkEach h op t blk ls
      (x.1, x.2 + 1)
    else s.bulkEach h op t blk ls

/-- One step of a bulk routine: the 64 entries from the cursor on, then up to LR_BURST.N learning requests (R193, R208). The
answer is the state, the routine's journal, and whether it has reached the end. -/
def State.bulkStep (s : State) (h : Nat) (r : FgRun) : State × FgRun × Bool :=
  let op := dOp r.words
  let t := dTbl r.words
  let ls := ((s.emSorted h).filter (fun l => decide (r.cursor ≤ l))).take 64
  let x := s.bulkEach h op t r.blk ls
  let r := { r with step := r.step + 1, count := r.count + x.2, cursor := match ls.getLast? with | some l => l + 1 | none => r.cursor }
  if ls.length < 64 then (x.1, r, true) else (x.1.learnServe h x.1.learnBurst, r, false)

/-- Steps of a bulk routine, n at most. -/
def State.bulkRun (s : State) (h : Nat) : FgRun → Nat → State × FgRun
  | r, 0 => (s, r)
  | r, n + 1 =>
    let x := s.bulkStep h r
    if x.2.2 then (x.1, x.2.1) else x.1.bulkRun h x.2.1 n

/-! ### One half -/

/-- The pages whose ENABLE an operation needs in a half (Table 77 REFUSED). -/
def State.opEnabled (s : State) (h op : Nat) : Bool :=
  s.rbit (pgMaint h) 0x08 1
  && (if opEm op then s.rbit (pgWlem h) 0x08 1 else if opLpm op then s.rbit (pgWllpm h) 0x08 1 else true)

/-- Steps of a bulk routine that reach the end: each takes 64 entries and serves at most 31 requests. -/
def State.bulkSteps (s : State) (h : Nat) : Nat := (s.emAll h).length + 1

/-- What is left of a command's routine in a half, with its journal at the end (R182, R185, R206, R208). -/
def State.routine (s : State) (h : Nat) (r : FgRun) : State × FgRun × Answer :=
  let ws := r.words
  let op := dOp ws
  let t := dTbl ws
  let one := fun (x : State × Answer) => (x.1, { r with step := r.path.length.max 1 }, x.2)
  if s.opEnabled h op = false then (s, r, fail stRefused)
  else if op = 0x3F then (s, r, {})
  else if op = 0x05 then one (s.emRead h t r.blk)
  else if op = 0x12 then one (s.lpmRead h (t - 0x40) r.blk)
  else if opLpm op then one (s.lpmWrite h op (t - 0x40) (dStaged ws) r.blk)
  else if opTcam op then
    one (s.tcHalf h op (dStaged ws) r.blk ((halfSlices h).filter (fun sl => bit (dSlices ws) sl)))
  else if op = 0x30 ∨ op = 0x31 then
    let x := s.bulkRun h r (s.bulkSteps h)
    (x.1, x.2, { info := x.2.count })
  else one ((s.pathEnd h r.path r.step).emWrite h op t (dStaged ws) r.blk)

/-- The journal of a context: routine word, step, cursor, path, exit (R198, Table 82). A path stands from its free slot to its
head (DESIGN CHOICE, log entry 82). -/
def State.journal (s : State) (h : Nat) (routine : Nat) (r : FgRun) (exit : Nat) : State :=
  let pg := pgMaint h
  let s := s.setReg pg (Reg.jrnRoutine 0) (BitVec.ofNat 32 routine)
  let s := s.setReg pg (Reg.jrnStep 0) (BitVec.ofNat 32 (r.step % 65536))
  let s := s.setReg pg (Reg.jrnCursor 0) (BitVec.ofNat 32 r.cursor)
  let arg := fun (s : State) (i : Nat) =>
    s.setReg pg (Reg.jrnArg 0 i) (BitVec.ofNat 32 (match r.path[i]? with | some l => locInfo l | none => 0))
  let s := arg (arg (arg (arg s 0) 1) 2) 3
  s.setReg pg (Reg.jrnExit 0) (BitVec.ofNat 32 exit)

/-- The foreground journal of a command (R198, Table 82). -/
def State.fgJournal (s : State) (h : Nat) (r : FgRun) (exit : Nat) : State :=
  s.journal h (opRoutine (dOp r.words) + dTag r.words * 256 + r.q * 2 ^ 24) r exit

/-! ### The background context (R198) -/

/-- The journal of the background context shows a routine. -/
def State.bgShows (s : State) (h code : Nat) : Bool := decide (s.rf (pgMaint h) (Reg.jrnRoutine 1) 0 8 = code)

/-- The journal of the background context: routine, step, cursor, relocation path, exit (R198, Table 82). -/
def State.bgJournal (s : State) (h code step cursor : Nat) (path : List Nat) (exit : Nat) : State :=
  let pg := pgMaint h
  let s := s.setReg pg (Reg.jrnRoutine 1) (BitVec.ofNat 32 code)
  let s := s.setReg pg (Reg.jrnStep 1) (BitVec.ofNat 32 (step % 65536))
  let s := s.setReg pg (Reg.jrnCursor 1) (BitVec.ofNat 32 cursor)
  let arg := fun (s : State) (i : Nat) =>
    s.setReg pg (Reg.jrnArg 1 i) (BitVec.ofNat 32 (match path[i]? with | some l => locInfo l | none => 0))
  let s := arg (arg (arg (arg s 0) 1) 2) 3
  s.setReg pg (Reg.jrnExit 1) (BitVec.ofNat 32 exit)

/-- The cursor of a background routine in progress, 0 for one that begins. -/
def State.bgCursor (s : State) (h code : Nat) : Nat :=
  match AMap.get none (s.woodOf h).bgOpen code with | some x => x.2 | none => 0

/-- A background step of a routine has ended at a cursor, having recorded a relocation path; done says that the routine has finished: the
journal then shows another one in progress, if there is one (R198, Table 82; DEDUCED, log entry 82). -/
def State.bgStep (s : State) (h code cursor : Nat) (path : List Nat) (done : Bool) : State :=
  let w := s.woodOf h
  let step := (match AMap.get none w.bgOpen code with | some x => x.1 | none => 0) + 1
  let left := AMap.set none w.bgOpen code (if done then none else some (step, cursor))
  let s := s.setWood h { w with bgOpen := left }
  match done, left with
  | true, (c, some x) :: _ => s.bgJournal h c x.1 x.2 [] 0
  | true, _ => s.bgJournal h 0 step cursor path 0
  | false, _ => s.bgJournal h code step cursor path 0

/-- The background context yields to foreground work (R198): once until its next step. -/
def State.bgYield (s : State) (h : Nat) : State :=
  let pg := pgMaint h
  let w := s.woodOf h
  if s.bgShows h 0 ∨ w.bgStop ∨ w.bgHeld ∨ s.rf pg (Reg.jrnExit 1) 0 3 = 1 then s
  else (s.setReg pg (Reg.jrnExit 1) 1).count pg Reg.mtPreempt 1

/-- A command's answer in a half: counted, with CMD_ERR for a status other than OK. -/
def State.halfDone (s : State) (h : Nat) (a : Answer) : State :=
  (s.count64 (pgMaint h) Reg.mtCmds 1).raiseIf (decide (a.status ≠ 0)) (pgMaint h) evCmdErr

/-- A half that a command cannot reach: in reset, or the East half while the management channel is down (Table 77). -/
def State.unreachable (s : State) (h : Nat) : Bool := !s.halfUp h || (decide (h = 1) && !s.flumeUp)

/-! ### The completion (R206) -/

/-- Answers joined in the order West, then East: the first status that is not OK, the INFO of the first, the block of the first
that has one (of a read that West does not find, East's: DESIGN CHOICE, log entry 82). -/
def Answer.join (a b : Answer) : Answer :=
  { status := if a.status = 0 then b.status else a.status, info := a.info, back := if a.back.isEmpty then b.back else a.back }

/-- The entry that waits for write-back after an answer. -/
def doneOf (idx : Nat) (ws : List Word) (a : Answer) (left : Nat) : Done :=
  { idx := idx, words := doneWords ws (BitVec.ofNat 32 a.info) a.status, data := a.back
    addr := (wordAt ws 2).toNat + 2 ^ 32 * (wordAt ws 3).toNat, irq := dIrq ws
    staged := dStaged ws && decide (left ≠ 0), left := left, fence := dFence ws }

/-- What a started command has answered so far. -/
def Done.answer (d : Done) : Answer :=
  { status := fld (wordAt d.words 5) 0 8, info := (wordAt d.words 4).toNat, back := d.data }

/-- A half that ran later answers: East's answer follows West's. -/
def Done.later (d : Done) (h : Nat) (ws : List Word) (a : Answer) : Done :=
  let j := if h = 0 then a.join d.answer else if (dHalves ws).contains 0 then d.answer.join a else a
  { doneOf d.idx ws j (d.left - 1) with moved := d.moved }

/-- A routine with its journal at its first step; the path of an exact-match routine that relocates is recorded (R180). -/
def State.fgPlan (s : State) (h : Nat) (r : FgRun) : FgRun :=
  let op := dOp r.words
  if s.opEnabled h op ∧ 1 ≤ op ∧ op ≤ 3 then { r with path := s.emPath h op (dTbl r.words) (dStaged r.words) r.blk } else r

/-- A routine takes at most n of its steps and is stopped before its last (R200): moves of a path, or 64 entries each of a bulk
routine. -/
def State.fgSteps (s : State) (h : Nat) (r : FgRun) (n : Nat) : State × FgRun :=
  let op := dOp r.words
  if s.opEnabled h op = false then (s, r)
  else if op = 0x30 ∨ op = 0x31 then s.bulkRun h r (min n ((s.emAll h).length / 64))
  else
    let k := min n (r.path.length - 1)
    (s.pathRun h r.path 1 k, { r with step := k })

/-- A routine runs to its end: the background context yields to it (R198), the journal, the counts, the answer. A foreground command lets
learning have its turn again (R193). The journal keeps the routine's code and TAG after its end, with JRN_EXIT 0 (DESIGN CHOICE, log entry
93). -/
def State.fgRun (s : State) (h : Nat) (r : FgRun) : State × Answer :=
  let x := (s.bgYield h).routine h r
  let s := x.1.fgJournal h x.2.1 0
  ((s.setWood h { s.woodOf h with burst := 0 }).halfDone h x.2.2, x.2.2)

/-- Run a command in one half. It waits behind a routine that is stopped or held (R200); in a block reset its routine stops after
n steps and the context keeps it. -/
def State.runHalf (s : State) (r : FgRun) (n : Nat) (h : Nat) : State × Option Answer :=
  let w := s.woodOf h
  if s.unreachable h then (s.raise (pgMaint h) evCmdErr, some (fail stUnreachable))
  else if w.fg.isSome then (s.setWood h { w with fgNext := w.fgNext ++ [r] }, none)
  else if s.seqUp h = false then
    let x := s.fgSteps h (s.fgPlan h r) n
    let s := x.1.fgJournal h x.2 2
    (s.setWood h { s.woodOf h with fg := some x.2 }, none)
  else
    let x := s.fgRun h (s.fgPlan h r)
    (x.1, some x.2)

/-- Run a command in the halves it names, West first: what has been answered, and how many halves have still to answer. -/
def State.runHalves (s : State) (r : FgRun) (n : Nat) : List Nat → Option Answer → Nat → State × Answer × Nat
  | [], a, k => (s, a.getD {}, k)
  | h :: hs, a, k =>
    let x := s.runHalf r n h
    match a, x.2 with
    | none, some y => x.1.runHalves r n hs (some y) k
    | some z, some y => x.1.runHalves r n hs (some (z.join y)) k
    | _, none => x.1.runHalves r n hs a (k + 1)

/-- CMD_ERR in every half that a command names (R207 faults 1 to 5). -/
def State.errAll (s : State) : List Nat → State
  | [] => s
  | h :: hs => (s.raise (pgMaint h) evCmdErr).errAll hs

/-- Put a started descriptor among those that wait for write-back. -/
def State.started (s : State) (i : Nat) (d : Done) : State :=
  let q := s.hq i
  s.setHq i { q with fetched := q.fetched.drop 1, done := q.done ++ [d] }

/-- The next descriptor of a table-command queue, when it may start (R206, R355, R356; 07_rings.md R223): the queue is
ACTIVE and may use DMA, at most 8 run at once, or one when STRICT, a FENCE waits for all before it and for the host's
register writes and lets none start beside it, a STAGED command waits for the commit and for the staging ring, and in some half that it names the
foreground context takes work. -/
def State.nextCmd (s : State) (q : Nat) : Option (Nat × List Word) :=
  let x := s.hq (128 + q)
  match x.fetched with
  | [] => none
  | (idx, ws) :: _ =>
    let alone := x.strict || dFence ws
    if x.st = .active ∧ s.dmaOk ∧ x.done.length < 8 ∧ (alone = false ∨ x.done.isEmpty) ∧ x.done.any (·.fence) = false
        ∧ (dFence ws = false ∨ s.fenceHolds (128 + q) idx = false)
        ∧ (dStaged ws = false ∨ (s.rings.waiting.isNone ∧ s.ringLive s.rings.staging.val = false))
        ∧ (dHalves ws).any (fun h => (s.woodOf h).fg.isNone) then some (idx, ws)
    else none

/-- Run the next table command of a queue with the block that was read, when its OP is one that p accepts; n is how many steps
its routine takes before a block reset that is under way stops it. MT_CMDS does not count a command that ends before it
reaches a half (DESIGN CHOICE, log entry 82). -/
def State.tableCmd (s : State) (q : Nat) (p : Nat → Bool) (blk : List Byte) (n : Nat) : State :=
  match s.nextCmd q with
  | none => s
  | some (idx, ws) =>
    if p (dOp ws) = false then s
    else
      let s := if dHeavy ws then s.hintStart s.heavyUs else s
      match firstReason [s.earlyFault ws, s.blockFault ws blk] with
      | some st => (s.started (128 + q) (doneOf idx ws (fail st) 0)).errAll (dHalves ws)
      | none =>
        let r := s.runHalves { q := q, idx := idx, words := ws, blk := blk.take (dLen ws) } n (dHalves ws) none 0
        r.1.started (128 + q) { doneOf idx ws r.2.1 r.2.2 with moved := dLen ws }

/-- The read of the next command's block fails (R207 step 4): DMA_ERROR, unless an earlier fault stands first. The descriptor has begun, with
its power hint (15_firebreak_power.md R420). -/
def State.tableDmaError (s : State) (q : Nat) : State :=
  match s.nextCmd q with
  | none => s
  | some (idx, ws) =>
    if dOp ws = 0x3F then s
    else
      let st := (s.earlyFault ws).getD stDmaError
      let s := if dHeavy ws then s.hintStart s.heavyUs else s
      let s := if st = stDmaError then s.count pgHostdma Reg.hdErrCnt 1 else s
      (s.started (128 + q) (doneOf idx ws (fail st) 0)).errAll (dHalves ws)

/-! ### Learning between commands (R192, R193) -/

/-- A table command that a half's foreground context could take has been fetched. -/
def State.cmdWaits (s : State) (h : Nat) : Bool :=
  (List.range 16).any (fun q => match s.nextCmd q with | some x => (dHalves x.2).contains h | none => false)

/-- The journal of a learning request: one step (Table 74). -/
def State.learnJournal (s : State) (h : Nat) : State :=
  s.journal h 0x20 { q := 0, idx := 0, words := [], blk := [], step := 1 } 0

/-- The next request of a half's FIFO: lost while the master cannot have it, else processed when the West foreground context
takes it, up to LR_BURST.N after each command (R192, R193). -/
def State.learnNext (s : State) (h : Nat) : State :=
  let w := s.woodOf 0
  if (s.woodOf h).fifo.isEmpty then s
  else if s.eastLost h then s.learnTake h
  else if s.fgFree 0 ∧ s.rbit (pgWlem 0) 0x08 1 ∧ (w.burst < s.learnBurst ∨ s.cmdWaits 0 = false) then
    (((s.setWood 0 { w with burst := w.burst + 1 }).bgYield 0).learnJournal 0).learnTake h
  else s

/-- The next change of the East copy (R192): the East foreground context makes it, while WOODLOT-EM ENABLE is 1 (R209); a half in
reset drops it. -/
def State.eastNext (s : State) : State :=
  match s.eastq with
  | [] => s
  | _ :: cs =>
    if s.halfUp 1 = false then { s with eastq := cs }
    else if s.flumeUp ∧ s.fgFree 1 ∧ s.rbit (pgWlem 1) 0x08 1 then ((s.bgYield 1).learnJournal 1).eastApply else s

/-! ### Steps of the background context (R198) -/

/-- A stash drain, a reclaim or a migration that is in progress goes on while BG_EN is 0, which bars a start alone (Table 82); each visit
of the aging scan and each compaction is a start (DESIGN CHOICE, log entry 97). -/
def State.bgGoes (s : State) (h code : Nat) : Bool :=
  let w := s.woodOf h
  s.rbit (pgMaint h) Reg.mtCtrl 3 || (decide (code = 0x31 ∨ code = 0x32) && (AMap.get none w.bgOpen code).isSome)
  || (decide (code = 0x34) && w.mig.isSome)

/-- The background context may take a step of a routine: BG_EN lets it, nothing of it is stopped or held, no foreground routine is in
progress (R198, R200, Table 82; the last DEDUCED, log entry 82). -/
def State.bgFree (s : State) (h code : Nat) : Bool :=
  let w := s.woodOf h
  s.seqUp h && s.bgGoes h code && !w.bgStop && !w.bgHeld && w.fg.isNone

/-- Foreground work waits for a half's sequencer: a table command, a learning request, a change of the East copy. -/
def State.fgWaits (s : State) (h : Nat) : Bool :=
  s.cmdWaits h || (if h = 1 then s.flumeUp && !s.eastq.isEmpty
    else !(s.woodOf 0).fifo.isEmpty || (!s.eastLost 1 && !(s.woodOf 1).fifo.isEmpty))

/-- A step of the background context, or its yield while foreground work waits. -/
def State.bgRun (s : State) (h : Nat) (f : State → State) : State := if s.fgWaits h then s.bgYield h else f s

/-! ### A stopped foreground routine (R200, R201) -/

/-- The half's part of a command answers late: its queue's entry takes the answer. -/
def State.lateAnswer (s : State) (h : Nat) (r : FgRun) (a : Answer) : State :=
  let x := s.hq (128 + r.q)
  s.setHq (128 + r.q) { x with done := x.done.map (fun d => if d.idx = r.idx then d.later h r.words a else d) }

/-- Commands that waited behind a stopped routine run, in the order they came. -/
def State.fgAll (s : State) (h : Nat) : List FgRun → State
  | [] => s
  | r :: rs =>
    let x := s.fgRun h (s.fgPlan h r)
    (x.1.lateAnswer h r x.2).fgAll h rs

/-- The foreground context is free again: the commands that waited run. -/
def State.fgClear (s : State) (h : Nat) : State :=
  let w := s.woodOf h
  (s.setWood h { w with fg := none, fgHeld := false, fgNext := [] }).fgAll h w.fgNext

/-- Resume a stopped foreground routine from its journal (R200). The sequencer holds it while the ENABLE that it needs is 0 (R209). -/
def State.fgResume (s : State) (h : Nat) : State :=
  match (s.woodOf h).fg with
  | none => s
  | some r =>
    if s.opEnabled h (dOp r.words) = false then s.setWood h { s.woodOf h with fgHeld := false }
    else
      let x := s.fgRun h r
      (x.1.lateAnswer h r x.2).fgClear h

/-- An ENABLE of a half may have risen: a routine that waited for it goes on (R209). -/
def State.fgEnable (s : State) (h : Nat) : State :=
  if s.seqUp h && !(s.woodOf h).fgHeld then s.fgResume h else s

/-- End a stopped foreground routine with ABANDONED (R201): the move in progress is completed, the entries before a bulk
routine's cursor stay changed and are counted in INFO. -/
def State.fgAbandon (s : State) (h : Nat) : State :=
  match (s.woodOf h).fg with
  | none => s
  | some r =>
    let a : Answer := { status := stAbandoned, info := r.count }
    let s := (s.pathLeave h r.path r.step).fgJournal h r 4
    (((s.halfDone h a).lateAnswer h r a).raise (pgMaint h) evAbandoned).fgClear h

/-- Every command that waits in a half's sequencer ends with UNREACHABLE: the half is reset. -/
def State.fgLost (s : State) (h : Nat) : List FgRun → State
  | [] => s
  | r :: rs => ((s.halfDone h (fail stUnreachable)).lateAnswer h r (fail stUnreachable)).fgLost h rs

/-- Stop both contexts at their next step boundary for a block reset (R200). -/
def State.seqStop (s : State) (h : Nat) : State :=
  let pg := pgMaint h
  if s.rf pg (Reg.jrnRoutine 1) 0 8 = 0 then s
  else (s.setReg pg (Reg.jrnExit 1) 2).setWood h { s.woodOf h with bgStop := true }

/-- The block is ready again: each stopped context resumes, or holds (R200). -/
def State.seqReady (s : State) (h : Nat) : State :=
  if s.seqUp h = false then s
  else
    let w := s.woodOf h
    if w.fg.isNone ∧ w.bgStop = false then s
    else if s.rbit (pgMaint h) Reg.mtCtrl 0 then (s.setWood h { w with bgStop := false }).fgResume h
    else
      (s.setWood h { w with bgStop := false, bgHeld := w.bgHeld || w.bgStop, fgHeld := w.fg.isSome }).raise
        (pgMaint h) evHeld

/-- RESUME (R200, Table 82): every held context goes on. -/
def State.seqResume (s : State) (h : Nat) : State :=
  let w := s.woodOf h
  let s := s.setWood h { w with bgHeld := false }
  if w.fgHeld then s.fgResume h else s

/-- The held background routine ends; a migration is dropped (R201). -/
def State.bgAbandon (s : State) (h : Nat) : State :=
  let pg := pgMaint h
  let s := s.migDrop h
  let s := s.setWood h { s.woodOf h with bgOpen := [] }
  (s.setReg pg (Reg.jrnRoutine 1) 0).setReg pg (Reg.jrnExit 1) 4

/-- ABANDON (R201): every held routine ends. -/
def State.seqAbandon (s : State) (h : Nat) : State :=
  let w := s.woodOf h
  let s := s.setWood h { w with bgHeld := false }
  let s := if w.bgHeld then s.bgAbandon h else s
  if w.fgHeld then s.fgAbandon h else s

end Sys2Proof.Machine
end

