-- ==== Sys2Proof/Machine/Tally.lean ====
section
/-! DEFINITION. Tally (10_telemetry.md R308 to R322): evictions and write-backs, the HBM store, the scanner, exports,
IPFIX messages, the retrain of a stack. -/

namespace Sys2Proof.Machine

/-! ### Events of the TALLY and HBM pages -/
abbrev evAloss : Nat := 0
abbrev evFlushDone : Nat := 1
abbrev evExportDone : Nat := 2
abbrev evClearDone : Nat := 3
abbrev evHbmLost : Nat := 4
abbrev evTyFull : Nat := 6
abbrev evRetrainStart : Nat := 0
abbrev evRetrainDone : Nat := 1
abbrev evHbmUncorr : Nat := 2
abbrev evHbmFailed : Nat := 3

/-! ### Export (R314, R318 to R321) -/

/-- The 64 bytes of a record (Table 113), with the SPARE field of an export (R318). -/
def FlowRec.wire (r : FlowRec) (spare : Nat) : List Byte :=
  r.key ++ leBytes 5 r.pkts ++ leBytes 7 r.bytes ++ leBytes 4 r.drops ++ leBytes 4 r.first ++ leBytes 4 r.last
  ++ leBytes 2 r.minL ++ leBytes 2 r.maxL ++ leBytes 2 r.flags ++ leBytes 2 spare

/-- An exported record's bytes: CAUSE, HALF, slice of an overflow record (R318). -/
def Export.wire (e : Export) : List Byte :=
  e.rec_.wire (e.cause + e.half * 4 + (if e.cause = 3 then e.slice % 16 * 8 else 0))

/-- Records an export buffer takes: BUF_LEN / 64, 0 when BUF_LEN is invalid (12_host_interface.md R364). -/
def bufRecords (ws : List Word) : Nat :=
  let n := fld (wordAt ws 2) 0 16
  if n % 64 = 0 then n / 64 else 0

/-- An export queue may start its front descriptor: not while a fence or STRICT order waits for earlier completions, nor while FENCE
waits for register writes, which hold says of an index (12_host_interface.md R355, R356). -/
def HostQ.mayStart (q : HostQ) (hold : Nat → Bool) (b : Nat × List Word) : Bool :=
  let fence := bit (wordAt b.2 2) 22
  (q.done.isEmpty || !(q.strict || fence)) && !q.done.any (·.fence) && !(fence && hold b.1)

/-- Buffers at the front of an export queue whose BUF_LEN is invalid start, and complete with BAD_ARG (12_host_interface.md R364,
Table 77). -/
def HostQ.skipBad (hold : Nat → Bool) (q : HostQ) : List (Nat × List Word) → HostQ
  | [] => { q with fetched := [] }
  | e :: es =>
    if bufRecords e.2 = 0 ∧ q.mayStart hold e then
      HostQ.skipBad hold
        { q with done := q.done ++ [{ idx := e.1, words := doneWords e.2 0 6, fence := bit (wordAt e.2 2) 22 }] } es
    else { q with fetched := e :: es }

/-- Export queue i with the invalid buffers at its front started. -/
def State.exportSkip (s : State) (i : Nat) : HostQ :=
  let q := s.hq i
  if 144 ≤ i ∧ i < 152 ∧ q.st = .active ∧ q.fill.isEmpty then q.skipBad (s.fenceHolds i) q.fetched else q

/-- The queue may write into its front buffer: it is being filled, or may start. -/
def HostQ.mayFill (q : HostQ) (hold : Nat → Bool) (b : Nat × List Word) : Bool :=
  !q.fill.isEmpty || (decide (bufRecords b.2 ≠ 0) && q.mayStart hold b)

/-- Complete the buffer that an export queue is filling (12_host_interface.md R364). -/
def HostQ.closeBuf (q : HostQ) : HostQ :=
  match q.fetched with
  | [] => q
  | e :: es =>
    let d : Done := { idx := e.1, words := doneWords e.2 (BitVec.ofNat 32 q.fill.length) 0, addr := leNat (wordsLe (e.2.take 2))
                      data := q.fill.flatMap Export.wire, fence := bit (wordAt e.2 2) 22 }
    { q with fetched := es, done := q.done ++ [d], fill := [] }

/-- Complete the buffer of export queue i, and start the invalid ones behind it. -/
def State.closeFill (s : State) (i : Nat) : State :=
  let s := s.setHq i (s.hq i).closeBuf
  s.setHq i (s.exportSkip i)

/-- Write a record into the buffer of export queue n, none when the queue has no posted buffer (R316). -/
def State.exportQueue (s : State) (n : Nat) (e : Export) : Option State :=
  let i := 144 + n
  let q := s.exportSkip i
  match q.fetched with
  | [] => none
  | b :: _ =>
    if q.st ≠ .active ∨ q.mayFill (s.fenceHolds i) b = false then none
    else
      let s := s.setHq i { q with fillAt := if q.fill.isEmpty then s.clk.up else q.fillAt, fill := q.fill ++ [e] }
      some (if bufRecords b.2 ≤ q.fill.length + 1 then s.closeFill i else s)

/-- The latest PTP time, in ms, at or before now whose count has the low 32 bits x, less the UTC offset (R319). -/
def State.rebuildMs (s : State) (x : Nat) : Nat :=
  let n := s.now / 1000000
  n - (n + 2 ^ 32 - x % 2 ^ 32) % 2 ^ 32 - 1000 * s.rf pgTime Reg.tmUtcOfs 0 16

/-- One data record of template 256 (Table 114). -/
def State.ipfixRecord (s : State) (h : Nat) (e : Export) : List Byte :=
  let ent := s.reg (pgTally h) Reg.tyIpfixPen ≠ 0
  let r := e.rec_
  let reason := if e.cause = 0 then 1 else if e.cause = 1 then 2 else if e.cause = 2 then 4 else 5
  (if ent then r.key else []) ++ beBytes 8 r.pkts ++ beBytes 8 r.bytes ++ beBytes 8 r.drops
  ++ beBytes 8 (s.rebuildMs r.first) ++ beBytes 8 (s.rebuildMs r.last) ++ beBytes 1 reason
  ++ (if ent then beBytes 4 (if r.minL = 0xFFFF then 0xFFFFFFFF else r.minL * 16) ++ beBytes 4 (r.maxL * 16)
        ++ beBytes 2 r.flags ++ beBytes 1 (e.half * 128 + e.slice % 16) else [])

/-- The fields of template 256 in order: enterprise, element, length (Table 114). -/
def ipfixFields : List (Bool × Nat × Nat) :=
  [(true, 1, 32), (false, 2, 8), (false, 1, 8), (false, 133, 8), (false, 152, 8), (false, 153, 8), (false, 136, 1),
   (true, 2, 4), (true, 3, 4), (true, 4, 2), (true, 5, 1)]

/-- The template set (RFC 7011, set ID 2). -/
def State.templateSet (s : State) (h : Nat) : List Byte :=
  let pen := (s.reg (pgTally h) Reg.tyIpfixPen).toNat
  let fs := ipfixFields.filter (fun x => pen ≠ 0 || !x.1)
  let body := beBytes 2 256 ++ beBytes 2 fs.length ++ fs.flatMap (fun x =>
    beBytes 2 (x.2.1 + (if x.1 then 32768 else 0)) ++ beBytes 2 x.2.2 ++ (if x.1 then beBytes 4 pen else []))
  beBytes 2 2 ++ beBytes 2 (body.length + 4) ++ body

/-- The next message carries a template set: the first after MODE becomes 1, and every TINT seconds (R319). -/
def State.tmplDue (s : State) (h : Nat) : Bool :=
  match (s.tallyOf h).tmplAt with
  | none => true
  | some t => decide (t + s.rf (pgTally h) Reg.tyIpfixCfg 16 16 * 1000000000 ≤ s.clk.up)

/-- The message that the records make (R319). -/
def State.ipfixMsg (s : State) (h : Nat) (rs : List Export) : List Byte :=
  let pg := pgTally h
  let tset := if s.tmplDue h then s.templateSet h else []
  let recs := rs.flatMap (s.ipfixRecord h)
  let dset := beBytes 2 256 ++ beBytes 2 (recs.length + 4) ++ recs
  beBytes 2 10 ++ beBytes 2 (16 + tset.length + dset.length)
  ++ beBytes 4 (s.now / 1000000000 - s.rf pgTime Reg.tmUtcOfs 0 16) ++ beBytes 4 (s.tallyOf h).seq
  ++ beBytes 4 (s.reg pg Reg.tyIpfixOdid).toNat ++ tset ++ dset

/-- The UDP checksum of a message under IPv6 (R321). -/
def udp6Sum (l3 l4 : Nat) (pkt : List Byte) : Nat :=
  let udp := pkt.drop l4
  let sum := onesAdd (onesSum (bytesAt pkt (l3 + 8) 32)) (onesAdd (onesAdd (udp.length / 65536) (udp.length % 65536))
    (onesAdd 17 (onesSum udp)))
  if sum = 65535 then 65535 else 65535 - sum

/-- The frame's bytes in front of its FCS: the TALLY header with its fixups, then the message (R321). FLOW_HASH and VNI of the frame are 0
(R163); a VNI is written where the header has room for it (DEDUCED, log entry 49). -/
def State.ipfixPacket (s : State) (h : Nat) (msg : List Byte) : List Byte :=
  let w := s.reg (pgTally h) Reg.tyIpfixHdr
  let l3 := fld w 9 7
  let l4 := fld w 16 7
  let hdr := ((s.memWs (pgTally h) 0x20 0 32).flatMap (fun x => beBytes 4 x.toNat)).take (min 112 (fld w 0 7))
  let vni := if l4 + 15 ≤ hdr.length then some 0 else none
  if fld w 7 2 = 1 then fixups 1 l3 l4 hdr msg.length (hdr.length - l4 + msg.length) none (some 0xC000) vni ++ msg
  else if fld w 7 2 = 2 then
    let pkt := fixups 2 l3 l4 hdr msg.length (hdr.length - l4 + msg.length) none (some 0xC000) vni ++ msg
    setBe pkt (l4 + 6) 2 (udp6Sum l3 l4 pkt)
  else hdr ++ msg

/-- Send the message that has gathered (R319, R321). -/
def State.sendIpfix (s : State) (h : Nat) : State :=
  let t := s.tallyOf h
  if t.msg.isEmpty then s
  else
    let pkt := s.ipfixPacket h (s.ipfixMsg h t.msg)
    let tmpl := if s.tmplDue h then some s.clk.up else t.tmplAt
    let s := s.setTally h { t with msg := [], seq := (t.seq + t.msg.length) % 2 ^ 32, tmplAt := tmpl }
    let q := s.rf (pgTally h) Reg.tyIpfixQ 0 15
    let data := pkt ++ zeros 4
    s.enterDeck { kind := .ipfix, src := 512 * h, data := data, len := data.length, q := q, vec := dataVec data
                  vecIn := dataVec data, fin := true, ts := s.now } h

/-- A message with one record more would exceed MAXLEN (R319). -/
def State.ipfixFull (s : State) (h : Nat) (e : Export) : Bool :=
  let t := s.tallyOf h
  !t.msg.isEmpty && decide (s.rf (pgTally h) Reg.tyIpfixCfg 0 16 < (s.ipfixMsg h (t.msg ++ [e])).length)

/-- A record joins the message being built, which is sent first when it is full. -/
def State.exportIpfix (s : State) (h : Nat) (e : Export) : State :=
  let s := if s.ipfixFull h e then s.sendIpfix h else s
  let t := s.tallyOf h
  s.setTally h { t with msg := t.msg ++ [e], msgAt := if t.msg.isEmpty then s.clk.up else t.msgAt }

/-- Send a record on the path of TY_XCTL.MODE; none when the destination cannot take it (R316, R318). -/
def State.sendRec (s : State) (h : Nat) (e : Export) : Option State :=
  let pg := pgTally h
  let m := s.rf pg Reg.tyXctl 0 2
  if m = 0 then s.exportQueue (s.rf pg Reg.tyXctl 2 3) e
  else if m = 1 then some (s.exportIpfix h e)
  else some s

/-- Export a record of the store for a command of TY_CTRL, 0 for none: TY_EXP_* count it (R314). It belongs to no one slice: originSlice carries slice 0 (R320; DESIGN CHOICE, log
entry 93). -/
def State.exportRec (s : State) (h : Nat) (r : FlowRec) (cause cmd : Nat) : Option State :=
  let pg := pgTally h
  (s.sendRec h { rec_ := r, cause := cause, half := h, cmd := cmd }).map (fun s =>
    ((s.count64 pg Reg.tyExpPkts r.pkts).count64 pg Reg.tyExpBytes r.bytes).count64 pg Reg.tyExpDrops r.drops)

/-! ### The store (R310 to R313) -/

/-- Put a record at slot j of bucket u; FULL is set when TY_RECORDS reaches 15,728,640. -/
def State.setRec (s : State) (h k : Nat) (r : Option FlowRec) : State :=
  let t := s.tallyOf h
  let had := (AMap.get none t.recs k).isSome
  let n := t.nrec + b2n (r.isSome && !had) - b2n (r.isNone && had)
  let s := s.setTally h { t with recs := AMap.set none t.recs k r, nrec := n }
  s.raiseIf (decide (t.nrec < 15728640 ∧ n = 15728640)) (pgTally h) evTyFull

/-- Merge a line's deltas into a record (R310). -/
def FlowRec.merge (r d : FlowRec) : FlowRec :=
  { key := r.key, pkts := r.pkts + d.pkts, bytes := (r.bytes + d.bytes) % 2 ^ 56, drops := r.drops + d.drops
    first := r.first, last := d.last, minL := min r.minL d.minL, maxL := max r.maxL d.maxL
    flags := Nat.lor (r.flags % 32) (d.flags % 32) + 256 * (if d.flags / 256 = 0 then r.flags / 256 else d.flags / 256) }

/-- A record after an active export (R314). -/
def FlowRec.rearm (r : FlowRec) (now : Nat) : FlowRec := { key := r.key, first := now, last := r.last }

/-- The slots of a bucket. -/
def bucketSlots (u : Nat) : List Nat := [4 * u, 4 * u + 1, 4 * u + 2, 4 * u + 3]

/-- The slot among a list that holds a key. -/
def TallyS.findKey (t : TallyS) (key : List Byte) (ks : List Nat) : Option Nat :=
  ks.find? (fun k => match AMap.get none t.recs k with | some r => decide (r.key = key) | none => false)

/-- The first free slot among a list. -/
def TallyS.findFree (t : TallyS) (ks : List Nat) : Option Nat := ks.find? (fun k => (AMap.get none t.recs k).isNone)

/-- The slots a key can use: bucket H0[21:0], then H1[21:0] (R311). -/
def TallyS.slotsOf (t : TallyS) (key : List Byte) : List Nat :=
  bucketSlots (crc32c t.salt0.toNat key % 2 ^ 22) ++ bucketSlots (crc32c t.salt1.toNat key % 2 ^ 22)

/-- Deltas that find no place: the overflow record of their slice, TY_ALOSS, ALOSS (R311, R322). -/
def State.lineLost (s : State) (h i : Nat) (d : FlowRec) : State :=
  let pg := pgTally h
  let s := (s.count64 pg (Reg.tyOvfPkts i) d.pkts).count64 pg (Reg.tyOvfBytes i) d.bytes
  let s := (s.count64 pg (Reg.tyOvfDrops i) d.drops).count64 pg (Reg.tyAloss i) d.pkts
  s.raise pg evAloss

/-- Apply the deltas of a line of slice i to the store, for a FLUSH (cmd 1) or not; none when an export must come first and cannot be made (R311,
R312). -/
def State.applyLine (s : State) (h i : Nat) (d : FlowRec) (cmd : Nat) : Option State :=
  let t := s.tallyOf h
  let pg := pgTally h
  if (s.hbmOf h).st = .failed then some (s.lineLost h i d)
  else
    let ks := t.slotsOf d.key
    match t.findKey d.key ks with
    | some k =>
      let r := (AMap.get none t.recs k).getD {}
      if 2 ^ 40 ≤ r.pkts + d.pkts ∨ 2 ^ 32 ≤ r.drops + d.drops then
        (s.exportRec h r 1 cmd).map (fun s =>
          (s.setRec h k (some ((r.rearm (msOf s.now)).merge d))).count64 pg Reg.tyUpdates 1)
      else some ((s.setRec h k (some (r.merge d))).count64 pg Reg.tyUpdates 1)
    | none =>
      match t.findFree ks with
      | some k => some ((s.setRec h k (some d)).count64 pg Reg.tyUpdates 1)
      | none => some (s.lineLost h i d)

/-- Tally is held: the stack retrains, or has failed in it and does not return to READY (R322). -/
def State.tallyHeld (s : State) (h : Nat) : Bool := decide ((s.hbmOf h).st = .retrain ∨ (s.hbmOf h).st = .failed)

/-- The Tally controller takes updates: into the store of a stack that is READY, to overflow of one that has failed (R322). -/
def State.tallyRuns (s : State) (h : Nat) : Bool :=
  s.halfUp h && decide ((s.hbmOf h).st = .ready ∨ (s.hbmOf h).st = .failed)

/-- The scanner works: the stack is READY, and no deferral holds it (R322; 15_firebreak_power.md R409). -/
def State.scanRuns (s : State) (h : Nat) : Bool := s.halfUp h && decide ((s.hbmOf h).st = .ready) && !s.deferred

/-! ### Write-backs and FLUSH (R310, R316) -/

/-- A line keeps its key with zero deltas (R310). -/
def Line.cleared (l : Line) : Line := { rec_ := { key := l.rec_.key }, used := l.used, dirty := none }

/-- Write a line back: its deltas enter the eviction queue of its slice, or wait when that is full (R310). -/
def TallyS.writeBack (t : TallyS) (k : Nat) (flush : Bool) : Option TallyS :=
  match AMap.get none t.lines k with
  | none => some t
  | some l =>
    let i := k / 65536
    let q := AMap.get [] t.evq i
    if l.rec_.pkts = 0 then some t
    else if q.length < 32 then
      some { t with evq := AMap.set [] t.evq i (q ++ [(l.rec_, flush)]), lines := AMap.set none t.lines k (some l.cleared) }
    else none

/-- Write back as many of the lines a FLUSH still names as the queues take. -/
def TallyS.flushMore (t : TallyS) : List Nat → TallyS
  | [] => { t with flushq := [] }
  | k :: ks =>
    match t.writeBack k true with
    | some t' => t'.flushMore ks
    | none => { t with flushq := k :: ks }

/-- A FLUSH has ended: every line named is written back and applied (R316). -/
def TallyS.flushed (t : TallyS) : Bool :=
  t.flush && t.flushq.isEmpty && !t.evq.any (fun e => e.2.any (·.2))

/-- Of the FLUSHes and EXPORT_ALLs, the one that last wrote into a buffer is command cmd of half h. -/
def HostQ.lastBy (q : HostQ) (h cmd : Nat) : Bool :=
  match q.fill.reverse.find? (fun e => decide (e.cmd ≠ 0)) with
  | some e => decide (e.half = h ∧ e.cmd = cmd)
  | none => false

/-- Complete, of n export queues, the buffers that a FLUSH (1) or EXPORT_ALL (2) of half h, now ended, last wrote into
(12_host_interface.md R364). -/
def State.closeExports (s : State) (h cmd : Nat) : Nat → State
  | 0 => s
  | n + 1 =>
    let s := s.closeExports h cmd n
    if (s.hq (144 + n)).lastBy h cmd then s.closeFill (144 + n) else s

/-- End a FLUSH when it has ended. -/
def State.flushCheck (s : State) (h : Nat) : State :=
  let t := s.tallyOf h
  if t.flushed then ((s.setTally h { t with flush := false }).closeExports h 1 8).raise (pgTally h) evFlushDone else s

/-- The eviction queue served next: the first that holds a line, from a slice on (R309). -/
def TallyS.nextQueue (t : TallyS) : Nat → Nat → Option Nat
  | _, 0 => none
  | i, n + 1 => if (AMap.get [] t.evq (i % 16)).isEmpty then t.nextQueue (i + 1) n else some (i % 16)

/-- Take one line from the eviction queues, in turn, and apply it (R309, R311); the lines that a FLUSH still names go in first. -/
def State.evictOne (s : State) (h : Nat) : State :=
  let s := s.setTally h ((s.tallyOf h).flushMore (s.tallyOf h).flushq)
  let t := s.tallyOf h
  match t.nextQueue t.turn 16 with
  | none => s
  | some i =>
    match AMap.get [] t.evq i with
    | [] => s
    | d :: ds =>
      match s.applyLine h i d.1 (b2n d.2) with
      | none => s
      | some s =>
        let t := s.tallyOf h
        let t := { t with evq := AMap.set [] t.evq i ds, turn := (i + 1) % 16 }
        (s.setTally h (t.flushMore t.flushq)).flushCheck h

/-- Tally pacing lets an update pass: it has the sixteen sixteenths of one, and spends them (15_firebreak_power.md R410; DESIGN CHOICE, log
entry 96). -/
def State.pacePass (s : State) (h : Nat) : Bool := !s.paced h || decide (16 ≤ (s.tallyOf h).paceTok)

def State.paceSpend (s : State) (h : Nat) : State :=
  if s.paced h then s.setTally h { s.tallyOf h with paceTok := (s.tallyOf h).paceTok - 16 } else s

/-- TALLY_EVICTION (R311), at the pace of Firebreak (15_firebreak_power.md R410). -/
def execTallyEviction (h : Half) (s : State) : Out :=
  s.run (fun s => s.onlyIf (s.tallyRuns h.val && s.pacePass h.val) (fun s => (s.paceSpend h.val).evictOne h.val))

/-- TY_CACHE_MAX in nanoseconds; 0 acts as 1 ms (Table 118). -/
def State.cacheMax (s : State) (h : Nat) : Nat := orElse0 (s.rf (pgTally h) Reg.tyCacheMax 0 16) 1 * 1000000

/-- A line that has held nonzero deltas for TY_CACHE_MAX is written back (R310); during a retrain none is (R322). -/
def State.cacheBack (s : State) (h k : Nat) : State :=
  let t := s.tallyOf h
  match AMap.get none t.lines k with
  | none => s
  | some l =>
    match l.dirty with
    | none => s
    | some d =>
      if d + s.cacheMax h ≤ s.clk.up then
        match t.writeBack k false with
        | some t' => s.setTally h t'
        | none => s
      else s

/-- CACHE_WRITEBACK (R310). -/
def execCacheWriteback (sl : Slice) (line : Fin 65536) (s : State) : Out :=
  s.run (fun s =>
    let h := sliceHalf sl.val
    s.onlyIf (s.tallyRuns h) (·.cacheBack h (sl.val % 16 * 65536 + line.val)))

/-! ### The scanner (R314 to R316) -/

/-- The milliseconds since a record's time, modulo 2^32, less those of them deferred, by which a timeout lengthens
(15_firebreak_power.md R409). -/
def State.msSince (s : State) (t : Nat) : Nat :=
  let e := (msOf s.now + 2 ^ 32 - t) % 2 ^ 32
  e - s.deferSince (s.clk.up - e * 1000000) / 1000000

/-- What the scanner does with a record at time now in ms: the cause of an export, none to leave it (R314, R316). -/
def State.scanCause (s : State) (h : Nat) (r : FlowRec) (forced : Bool) : Option Nat :=
  let pg := pgTally h
  let act := s.rf pg Reg.tyActive 0 16
  if forced then some 2
  else if 1000 * orElse0 (s.rf pg Reg.tyIdle 0 16) 1 ≤ s.msSince r.last then some 0
  else if act ≠ 0 ∧ 1000 * act ≤ s.msSince r.first then some 1
  else none

/-- Visit the records of a bucket in turn; none when the destination cannot take one, which stays as it is (R314, R316).
The flag says that every record was visited. -/
def State.scanSlots (s : State) (h : Nat) (forced : Bool) : List Nat → State × Bool
  | [] => (s, true)
  | k :: ks =>
    match AMap.get none (s.tallyOf h).recs k with
    | none => s.scanSlots h forced ks
    | some r =>
      match s.scanCause h r forced with
      | none => s.scanSlots h forced ks
      | some c =>
        match s.exportRec h r c (if forced then 2 else 0) with
        | none => (s, false)
        | some t => (t.setRec h k (if c = 1 then some (r.rearm (msOf s.now)) else none)).scanSlots h forced ks

/-- End an EXPORT_ALL whose sweep is whole and whose overflow records are out (R316). -/
def State.exportCheck (s : State) (h : Nat) : State :=
  let t := s.tallyOf h
  if t.exportAll ∧ t.expLeft = 0 ∧ t.ovfPend = false then
    let s := s.setTally h { t with exportAll := false }
    (s.closeExports h 2 8).raise (pgTally h) evExportDone
  else s

/-- One visit of the scanner: the bucket at its cursor (R314). -/
def State.scanVisit (s : State) (h : Nat) : State :=
  let t := s.tallyOf h
  let r := s.scanSlots h (t.exportAll && decide (0 < t.expLeft)) (bucketSlots t.cursor)
  if r.2 then
    let t := r.1.tallyOf h
    (r.1.setTally h { t with cursor := (t.cursor + 1) % 2 ^ 22, expLeft := t.expLeft - 1 }).exportCheck h
  else r.1

/-- SCAN_VISIT (R314): the scanner holds while Tally is held and under deferral (R322, R409). -/
def execScanVisit (h : Half) (s : State) : Out :=
  s.run (fun s => s.onlyIf (s.scanRuns h.val) (·.scanVisit h.val))

/-- Export the overflow record of slice i: its growth since the slice's last overflow export (R315). -/
def State.exportOvf (s : State) (h i : Nat) : Option State :=
  let pg := pgTally h
  let m := AMap.get {} (s.tallyOf h).ovf i
  let p := s.reg64 pg (Reg.tyOvfPkts i)
  let b := s.reg64 pg (Reg.tyOvfBytes i)
  let d := s.reg64 pg (Reg.tyOvfDrops i)
  let r : FlowRec :=
    { key := zeros 32, pkts := p - m.pkts, bytes := b - m.bytes, drops := d - m.drops, first := m.time, last := msOf s.now }
  (s.sendRec h { rec_ := r, cause := 3, half := h, slice := i, cmd := if (s.tallyOf h).ovfPend then 2 else 0 }).map (fun s =>
    let t := s.tallyOf h
    s.setTally h { t with ovf := AMap.set {} t.ovf i { pkts := p, bytes := b, drops := d, time := msOf s.now } })

/-- Export the overflow records of n slices from slice i on, holding where the destination cannot take one. -/
def State.exportOvfs (s : State) (h : Nat) : Nat → Nat → State
  | _, 0 =>
    let t := s.tallyOf h
    (s.setTally h { t with ovfIdx := 0, ovfPend := false, ovfAt := s.clk.up }).exportCheck h
  | i, n + 1 =>
    match s.exportOvf h i with
    | some s => s.exportOvfs h (i + 1) n
    | none => s.setTally h { s.tallyOf h with ovfIdx := i }

/-- The interval of overflow exports: TY_ACTIVE, or TY_IDLE when TY_ACTIVE is 0 (R315). -/
def State.ovfInterval (s : State) (h : Nat) : Nat :=
  let pg := pgTally h
  orElse0 (s.rf pg Reg.tyActive 0 16) (orElse0 (s.rf pg Reg.tyIdle 0 16) 1) * 1000000000

/-- OVERFLOW_EXPORT (R315): at the interval, or for an EXPORT_ALL. -/
def execOverflowExport (h : Half) (s : State) : Out :=
  s.run (fun s =>
    let t := s.tallyOf h.val
    s.onlyIf (s.scanRuns h.val && (t.ovfPend || decide (t.ovfIdx ≠ 0 ∨ t.ovfAt + s.ovfInterval h.val ≤ s.clk.up)))
      (·.exportOvfs h.val t.ovfIdx (16 - t.ovfIdx)))

/-! ### The commands of TY_CTRL (R316) -/

/-- FLUSH: every line of the half with deltas is to be written back, from the end of a retrain on (R322), and those that the eviction
queues hold already are to be applied (R316, R317). -/
def State.flush (s : State) (h : Nat) : State :=
  let t := s.tallyOf h
  let t : TallyS := { t with evq := t.evq.map (fun e => (e.1, e.2.map (fun x => (x.1, true)))) }
  let ks := (t.lines.filter (fun e => match e.2 with | some l => decide (l.rec_.pkts ≠ 0) | none => false)).map (·.1)
  let t := { t with flush := true, flushq := ks }
  (s.setTally h (if s.tallyRuns h then t.flushMore t.flushq else t)).flushCheck h

/-- EXPORT_ALL: one sweep that exports and clears every valid record, and the overflow records (R315, R316). -/
def State.exportAll (s : State) (h : Nat) : State :=
  s.setTally h { s.tallyOf h with exportAll := true, expLeft := 2 ^ 22, ovfPend := true }

/-- Zero the per-slice counters of slices 0 to n - 1 of a half. -/
def State.zeroOvf (s : State) (pg : Nat) : Nat → State
  | 0 => s
  | i + 1 =>
    let s := ((s.setReg64 pg (Reg.tyOvfPkts i) 0).setReg64 pg (Reg.tyOvfBytes i) 0).setReg64 pg (Reg.tyOvfDrops i) 0
    ((s.setReg64 pg (Reg.tyAloss i) 0).setReg64 pg (Reg.tyNokey i) 0).zeroOvf pg i

/-- The marks of overflow exports with their counts zero: the time of the last one stands (R315). -/
def ovfZeroed (m : AMap OvfMark) : AMap OvfMark :=
  (m.map (fun e => (e.1, ({ time := e.2.time } : OvfMark)))).filter (fun e => decide (e.2 ≠ {}))

/-- CLEAR: every line and record of the half, and the counters R316 names. -/
def State.clearTally (s : State) (h : Nat) : State :=
  let pg := pgTally h
  let t := s.tallyOf h
  let s := s.setTally h { t with lines := [], evq := [], recs := [], nrec := 0, ovf := ovfZeroed t.ovf, flushq := [], lostDrops := 0, clearing := true }
  let s := s.zeroOvf pg 16
  let s := ((s.setReg64 pg Reg.tyExpPkts 0).setReg64 pg Reg.tyExpBytes 0).setReg64 pg Reg.tyExpDrops 0
  ((s.setReg pg Reg.tyHbmLost 0).setReg64 pg Reg.tyHbmLostPkts 0).setReg64 pg Reg.tyHbmLostBytes 0

/-- CLEAR_DONE (R316). -/
def execClearDone (h : Half) (s : State) : Out :=
  s.run (fun s => s.onlyIf (s.tallyOf h.val).clearing (fun s =>
    ((s.setTally h.val { s.tallyOf h.val with clearing := false }).flushCheck h.val).raise (pgTally h.val) evClearDone))

/-- IPFIX_MESSAGE (R319): 1 s after the first record of a message. -/
def execIpfixMessage (h : Half) (s : State) : Out :=
  s.run (fun s =>
    let t := s.tallyOf h.val
    s.onlyIf (s.halfUp h.val && !t.msg.isEmpty && decide (t.msgAt + 1000000000 ≤ s.clk.up)) (·.sendIpfix h.val))

/-! ### The HBM stack (R313, R322) -/

/-- The part of half h of a snapshot under way waits for a retrain (13_cruiser_counters.md R382). -/
def CruiserS.waits (c : CruiserS) (h : Nat) : CruiserS :=
  let x := if h = 0 then c.west else c.east
  if c.st ≠ .capturing ∨ x.doneAt.isSome then c
  else if h = 0 then { c with west := { c.west with wait := true } } else { c with east := { c.east with wait := true } }

/-- Start a retrain of a stack that is READY; the part of a snapshot that is still to be written waits for it
(13_cruiser_counters.md R382). -/
def State.retrain (s : State) (h : Nat) : State :=
  let x := s.hbmOf h
  if x.st = .ready then
    let s : State := { s with cruiser := s.cruiser.waits h }
    (s.setHbm h { x with st := .retrain, since := s.clk.up, corr := [] }).raise (pgHbm h) evRetrainStart
  else s

/-- The corrected errors of one nanosecond (R322, R326): counted, and with AUTO a retrain starts when those of one second reach HB_THR. How
many come is a free value. -/
def State.hbmErrs (s : State) (h : Nat) : State :=
  let x := s.hbmOf h
  if s.halfUp h ∧ x.st = .ready then
    let n := Config.hbmErrors s.freeCtr
    let s := s.drawn
    if n = 0 then s
    else
      let corr := x.corr.filter (fun e => decide (s.clk.up < e.1 + 1000000000)) ++ [(s.clk.up, n)]
      let s := (s.setHbm h { x with corr := corr }).count (pgHbm h) Reg.hbEccCorr n
      if s.rbit (pgHbm h) Reg.hbCtrl 1 ∧ s.rf (pgHbm h) Reg.hbThr 0 16 ≤ (corr.map (·.2)).sum then s.retrain h else s
  else s

/-- The retrain of a stack ends, READY or FAILED. -/
def State.retrainEnd (s : State) (h : Nat) (failed : Bool) : State :=
  let x := s.hbmOf h
  let pg := pgHbm h
  if x.st = .retrain then
    if failed then (s.setHbm h { x with st := .failed }).raise pg evHbmFailed
    else
      let s := s.setHbm h { x with st := .ready }
      let s := s.setReg pg Reg.hbLast (BitVec.ofNat 32 (min 65535 ((s.clk.up - x.since) / 1000)))
      (s.count pg Reg.hbRetrains 1).raise pg evRetrainDone
  else s

/-- RETRAIN_DONE (R322). -/
def execRetrainDone (h : Half) (failed : Bool) (s : State) : Out := s.run (·.retrainEnd h.val failed)

/-- Clear the records of a bucket, counting those whose counts can be corrected (R313). -/
def State.loseRecs (s : State) (h : Nat) (ok : BitVec 4) : Nat → List Nat → State
  | _, [] => s
  | j, k :: ks =>
    match AMap.get none (s.tallyOf h).recs k with
    | none => s.loseRecs h ok (j + 1) ks
    | some r =>
      let pg := pgTally h
      let s := (s.setRec h k none).count pg Reg.tyHbmLost 1
      let s := if ok.getLsbD j then
          let t := s.tallyOf h
          ((s.setTally h { t with lostDrops := t.lostDrops + r.drops }).count64 pg Reg.tyHbmLostPkts r.pkts).count64 pg
            Reg.tyHbmLostBytes r.bytes
        else s
      s.loseRecs h ok (j + 1) ks

/-- The 64-byte unit of a bucket that an uncorrectable error lies in: the first record whose counts it spoils, else a free choice. -/
def State.lostUnit (s : State) (u : Nat) (ok : BitVec 4) : Nat :=
  4 * u + (match (List.range 4).find? (fun j => !ok.getLsbD j) with | some j => j | none => Config.hbmUnit s.freeCtr % 4)

/-- An uncorrectable error in a 64-byte unit of the stack (R326): HB_ECC_LOC keeps the first since ECC_UNCORR was clear. -/
def State.hbmUncorr (s : State) (h unit : Nat) : State :=
  let pg := pgHbm h
  let s := s.latchFirst pg evHbmUncorr Reg.hbEccLoc (BitVec.ofNat 32 (unit % 2 ^ 29 + 2 ^ 31))
  (s.count pg Reg.hbEccUncorr 1).raise pg evHbmUncorr

/-- An uncorrectable error in a Tally bucket (R313, R326). -/
def State.hbmLost (s : State) (h u : Nat) (ok : BitVec 4) : State :=
  let s := (s.hbmUncorr h (s.lostUnit u ok)).drawn
  (s.loseRecs h ok 0 (bucketSlots u)).raise (pgTally h) evHbmLost

/-- HBM_LOST (R313). -/
def execHbmLost (h : Half) (bucket : Fin 4194304) (countsOk : BitVec 4) (s : State) : Out :=
  s.run (fun s => s.onlyIf (s.halfUp h.val) (·.hbmLost h.val bucket.val countsOk))

end Sys2Proof.Machine
end

