-- ==== Sys2Proof/Machine/HostDma.lean ====
section
/-! DEFINITION. The PCIe function and the DMA queues (12_host_interface.md R346 to R369). -/

namespace Sys2Proof.Machine

/-! ### Events of the HOSTDMA page -/
abbrev evHalt : Nat := 0
abbrev evHostLink : Nat := 1
abbrev evPoison : Nat := 2

/-- ERR codes of HQ_STAT (Table 140). -/
abbrev errFetch : Nat := 1
abbrev errOverrun : Nat := 2
abbrev errLink : Nat := 3

/-! ### Queue states (R351, R352, R367) -/

/-- A queue leaves ACTIVE: frames held for it are dropped with HOST_QUEUE_RESET (R359), a buffer being filled is
completed with what it holds, and what was fetched and not started is forgotten (Table 133). -/
def State.hqLeave (s : State) (i : Nat) : State :=
  let s := if i < 64 then s.dropPunts i rHostQueueReset (s.hq i).held else s
  let q := s.hq i
  let q := if q.fill.isEmpty then q else q.closeBuf
  s.setHq i { q with fetched := [] }

/-- Halt a queue with an error (Table 138). -/
def State.hqHalt (s : State) (i err : Nat) : State :=
  let s := s.hqLeave i
  let s := s.setHq i { s.hq i with st := .halted, err := err }
  (s.count pgHostdma Reg.hdErrCnt 1).raise pgHostdma evHalt

/-- A write of DB(i) (R352): TAIL, or HEAD of the event queue, and the check for overrun. -/
def State.doorbell (s : State) (i : Nat) (v : Word) : State :=
  let x := fld v 0 16
  let s := s.setReg pgDoorbell (0x1000 + 4 * i) (v &&& 0xFFFF)
  let q := s.hq i
  if i = 152 then
    let passed := decide ((s.hqTail i + 65536 - s.hqHead i) % 65536 < (x + 65536 - s.hqHead i) % 65536)
    let s := s.setHqReg i Reg.hqHead x
    if q.st = .active ∧ passed then s.hqHalt i errOverrun else s
  else
    let s := (s.setHqReg i Reg.hqTail x).coverTo i x
    if q.st = .active ∧ q.size < s.hqSpan i then s.hqHalt i errOverrun else s

/-- A write of HQ_CTRL (R351, Table 133). -/
def State.hqCtrlWrite (s : State) (i : Nat) (v : Word) : State :=
  let was := bit (s.hqReg i Reg.hqCtrl) 0
  let s := s.setHqReg i Reg.hqCtrl (fld v 0 1)
  let q := s.hq i
  if bit v 0 then
    if was then s
    else if q.st = .disabled then
      let base := (s.hqReg i Reg.hqBaseLo).toNat / 4096 * 4096 + 2 ^ 32 * (s.hqReg i Reg.hqBaseHi).toNat
      let c := s.hqReg i Reg.hqCfg
      s.setHq i { q with st := .active, err := 0, cfgPend := false, baseRun := base, log2 := log2Acts (fld c 0 5)
                         strict := bit c 5 }
    else s.setHq i { q with err := 0 }
  else if q.st = .active then
    let s := s.hqLeave i
    s.setHq i { s.hq i with st := .draining }
  else if q.st = .halted then s.setHq i { q with st := .draining }
  else s

/-- QUEUE_DRAINED (R351): every descriptor that was started has completed. -/
def execQueueDrained (q : QueueId) (s : State) : Out :=
  s.run (fun s =>
    let x := s.hq q.val
    s.onlyIf (decide (x.st = .draining) && x.done.isEmpty) (·.setHq q.val { x with st := .disabled }))

/-! ### Fetch and completion (R353, R354) -/

/-- The read of the next posted descriptor ends (R353, Table 138): eight words, or a failure that halts the queue. -/
def State.fetchDesc (s : State) (i : Nat) (words : Option (List Word)) : State :=
  let q := s.hq i
  let n := q.done.length + q.fetched.length
  if q.st = .active ∧ s.dmaOk ∧ i ≠ 152 ∧ n < 32 ∧ n < s.hqSpan i then
    match words with
    | none => s.hqHalt i errFetch
    | some ws =>
      let s := s.setHq i { q with fetched := q.fetched ++ [((s.hqHead i + n) % 65536, (List.range 8).map (wordAt ws))] }
      s.setHq i (s.exportSkip i)
  else s

/-- DESCRIPTOR_FETCH (R353). -/
def execDescriptorFetch (q : QueueId) (words : Option (List Word)) (s : State) : Out :=
  s.run (·.fetchDesc q.val words)

/-- Write back the oldest started descriptor, when its work is done (R354). -/
def State.complete (s : State) (i : Nat) : State :=
  let q := s.exportSkip i
  match q.done with
  | [] => s
  | d :: ds => if d.left = 0 ∧ s.dmaOk then (s.setHq i { q with done := ds }).hqWriteBack i d else s

/-- DESCRIPTOR_COMPLETE (R354). -/
def execDescriptorComplete (q : QueueId) (s : State) : Out := s.run (·.complete q.val)

/-- The front descriptor of queue i, when it may start beside n - 1 others (R355, R356). -/
def State.nextDesc (s : State) (i n : Nat) : Option (Nat × List Word) :=
  let q := s.hq i
  match q.fetched with
  | [] => none
  | (idx, ws) :: _ =>
    let fence := bit (wordAt ws 2) 22
    if q.st = .active ∧ s.dmaOk ∧ q.done.length < n ∧ ((q.strict || fence) = false ∨ q.done.isEmpty)
        ∧ q.done.any (·.fence) = false ∧ (fence = false ∨ s.fenceHolds i idx = false) then some (idx, ws)
    else none

/-! ### Punts (R357 to R359) -/

/-- Words 2 to 7 of a receive completion (Table 134). -/
def rxWords (f : Frame) (buf : Nat) : List Word :=
  let v := f.vec
  let w := fun (x : Nat) => BitVec.ofNat 32 x
  let ts := tsOf f.ts
  [w (f.len % 2 ^ 14 + b2n (decide (buf < f.len)) * 2 ^ 14 + vPclass v * 2 ^ 24),
   w (f.src % 1024 + f.ring * 2 ^ 10 + b2n (vRaft v) * 2 ^ 12 + b2n (vInject v) * 2 ^ 13 + vPflags v * 2 ^ 16),
   w ts, w (ts / 2 ^ 32), w (vBe v 300 4), w (vPerr v * 2 ^ 8 + vPunt v * 2 ^ 16 + 2 ^ 31)]

/-- Words 2 to 7 of a receive descriptor whose buffer is too short (R358): BAD_ARG, with FENCE and the reserved bits of words 2 and 3
written 0. -/
def rxBadWords (ws : List Word) : List Word :=
  [wordAt ws 2 &&& 0xFF007FFF, wordAt ws 3 &&& 0xFFFF3FFF, wordAt ws 4, wordAt ws 5, 0, BitVec.ofNat 32 (6 + 2 ^ 31)]

/-- Buffer address of a receive descriptor. -/
def bufAddr (ws : List Word) : Nat := (wordAt ws 0).toNat + 2 ^ 32 * (wordAt ws 1).toNat

/-- Frame i, whole, goes into the buffer of a descriptor of receive queue q, and its unit ends (R358). -/
def State.deliver (s : State) (q i idx : Nat) (ws : List Word) : State :=
  let f := s.frame i
  let buf := fld (wordAt ws 2) 0 16
  let x := s.hq q
  let s := s.setHq q { x with held := x.held.filter (fun j => decide (j ≠ i)), heldN := x.heldN - f.cells.length }
  let s := s.hqWriteBack q { idx := idx, words := rxWords f buf, data := f.data.take buf, addr := bufAddr ws }
  let s := s.releaseCells f 23
  let s := s.count64 pgHostdma Reg.hdPunts 1
  let s := if f.unit then s.accountUnit f (.null 0) (f.unitInfo 0 none) else s
  s.finish i 0 f

/-- The oldest held frame of receive queue q meets the next descriptor (R358). -/
def State.puntDeliver (s : State) (q : Nat) : State :=
  match (s.hq q).held with
  | [] => s
  | i :: _ =>
    let f := s.frame i
    if f.tail = false ∨ f.need ≠ 0 then s
    else if f.bad ≠ 0 then s.dropPunt i q f.bad
    else match s.nextDesc q 1 with
      | none => s
      | some (idx, ws) =>
        let s := s.setHq q { s.hq q with fetched := (s.hq q).fetched.drop 1 }
        if fld (wordAt ws 2) 0 16 < 64 then s.hqWriteBack q { idx := idx, words := rxBadWords ws }
        else s.deliver q i idx ws

/-- PUNT_DELIVER (R358). -/
def execPuntDeliver (q : Fin 64) (s : State) : Out := s.run (·.puntDeliver q.val)

/-! ### Transmit descriptors (R360 to R362) -/

/-- LEN, MODE and POOL of a transmit descriptor (Table 136). -/
def txLen (ws : List Word) : Nat := fld (wordAt ws 2) 0 14
def txMode (ws : List Word) : Nat := fld (wordAt ws 2) 16 2
def txPool (ws : List Word) : Nat := fld (wordAt ws 2) 19 3
def txSrcPool (ws : List Word) : Bool := bit (wordAt ws 2) 18

/-- The port a descriptor names: IN_PORT, or the port of QUEUE. -/
def txPort (ws : List Word) : Nat := if txMode ws = 0 then fld (wordAt ws 3) 0 10 else fld (wordAt ws 3) 0 15 / 32

/-- Every cell of a run carries the pool's tag (R362). -/
def DeckS.runOwned (d : DeckS) (pool first n : Nat) : Bool :=
  (List.range n).all (fun k => decide (first + k < cellCount ∧ d.tag (first + k) = 0x8000 + pool))

/-- The status a transmit descriptor is refused with, in the order of Table 137, 0 when it is not. -/
def State.txStatus (s : State) (ws : List Word) : Nat :=
  let len := txLen ws
  let d := s.deckOf 0
  let n := cellsOf len
  if len < 60 ∨ 10236 < len ∨ txMode ws = 3 ∨ (txMode ws = 1 ∧ 16 ≤ fld (wordAt ws 3) 0 15 % 32) then 0x06
  else if txMode ws ≠ 2 ∧ s.portEn (txPort ws) = false then 0x0E
  else if (txSrcPool ws && !d.runOwned (txPool ws) (fld (wordAt ws 0) 0 20) n)
      || (decide (txMode ws = 2) && !d.runOwned (txPool ws) (fld (wordAt ws 3) 0 20) n) then 0x0D
  else 0

/-- The contents of a run of pool cells. -/
def DeckS.runBytes (d : DeckS) (first n : Nat) : List Byte :=
  (List.range n).flatMap (fun k => bytesAt (AMap.get [] d.poolData (first + k)) 0 256)

/-- Copy bytes into pool cells from a first cell on (R362). -/
def DeckS.runWrite (d : DeckS) (c : Nat) : Nat → List Byte → DeckS
  | 0, _ => d
  | n + 1, bs =>
    let new := bs.take 256
    let old := bytesAt (AMap.get [] d.poolData c) 0 256
    ({ d with poolData := AMap.set [] d.poolData c (new ++ old.drop new.length) } : DeckS).runWrite (c + 1) n (bs.drop 256)

/-- The bytes a descriptor sends: LEN bytes of host memory, or of pool cells. -/
def State.txBytes (s : State) (ws : List Word) (data : List Byte) : List Byte :=
  if txSrcPool ws then ((s.deckOf 0).runBytes (fld (wordAt ws 0) 0 20) (cellsOf (txLen ws))).take (txLen ws)
  else bytesAt data 0 (txLen ws)

/-- The descriptor enters the path by its MODE (R360, R361). -/
def State.txEnter (s : State) (t : Nat) (ws : List Word) (data : List Byte) : State :=
  let bs := s.txBytes ws data
  let f : Frame := { unit := false, data := bs ++ zeros 4, len := bs.length + 4, ts := s.now }
  if txMode ws = 0 then
    let p := fld (wordAt ws 3) 0 10
    let sl := portSlice p
    let i := s.nextFrame
    let s := s.newFrame { f with kind := .pipe t, src := p, half := sliceHalf sl,
                                 vec := vPut plainVec 300 4 (wordAt ws 5).toNat }
    let x := s.slice sl
    s.setSlice sl { x with inj := x.inj ++ [i] }
  else if txMode ws = 1 then
    let v := vPut (vPut (dataVec f.data) 286 1 (fld (wordAt ws 4) 16 2 * 16)) 318 2 (fld (wordAt ws 4) 0 16)
    s.enterDeck { f with kind := .direct t, q := fld (wordAt ws 3) 0 15, vec := v, vecIn := v, fin := true } 0
  else
    s.setDeck 0 ((s.deckOf 0).runWrite (fld (wordAt ws 3) 0 20) (cellsOf (txLen ws)) bs)

/-- Requester 17 of the half a descriptor's frame enters holds EMPTY, so the queue waits (R361). -/
def State.txHeld (s : State) (ws : List Word) : Bool :=
  let h := portHalf (txPort ws)
  decide (txMode ws < 2) && (AMap.get none (s.deckOf h).hold 17).isSome

/-- The entry of a transmit descriptor that has been started. -/
def txDone (idx : Nat) (ws : List Word) (st : Nat) : Done :=
  { idx := idx, words := doneWords ws 0 st, irq := bit (wordAt ws 2) 23, fence := bit (wordAt ws 2) 22
    moved := if st = 0 then txLen ws else 0 }

/-- Transmit queue t runs its next descriptor, when its MODE is one that p accepts; data is what was read of host
memory. -/
def State.txRun (s : State) (t : Nat) (p : Nat → Bool) (data : List Byte) : State :=
  match s.nextDesc (64 + t) 8 with
  | none => s
  | some (idx, ws) =>
    if p (txMode ws) = false then s
    else
      let st := s.txStatus ws
      if st ≠ 0 then s.started (64 + t) (txDone idx ws st)
      else if s.txHeld ws then s
      else (s.txEnter t ws data).started (64 + t) (txDone idx ws 0)

/-- PIPE (R360): MODE 0b00; and MODE 0b11, which ends with BAD_ARG. -/
def execPipe (q : Fin 64) (data : List Byte) (s : State) : Out :=
  s.run (·.txRun q.val (fun m => m == 0 || m == 3) data)

/-- DIRECT (R360). -/
def execDirect (q : Fin 64) (data : List Byte) (s : State) : Out := s.run (·.txRun q.val (· == 1) data)

/-- POOL_WRITE (R362). -/
def execPoolWrite (q : Fin 64) (data : List Byte) (s : State) : Out := s.run (·.txRun q.val (· == 2) data)

/-- The read of a transmit source fails: DMA_ERROR, unless the descriptor is refused or reads no host memory (R367). -/
def State.txReadError (s : State) (t : Nat) : State :=
  match s.nextDesc (64 + t) 8 with
  | none => s
  | some (idx, ws) =>
    let st := s.txStatus ws
    if st ≠ 0 then s.started (64 + t) (txDone idx ws st)
    else if txSrcPool ws then s
    else (s.started (64 + t) (txDone idx ws 0x09)).count pgHostdma Reg.hdErrCnt 1

/-- DMA_READ_ERROR (R367). -/
def execDmaReadError (q : QueueId) (s : State) : Out :=
  s.run (fun s =>
    if 64 ≤ q.val ∧ q.val < 128 then s.txReadError (q.val - 64)
    else if 128 ≤ q.val ∧ q.val < 144 then s.tableDmaError (q.val - 128) else s)

/-! ### Export buffers and interrupts (R364, R366) -/

/-- EXPORT_BUFFER_TIMEOUT (R364): 1 ms after the first record of the buffer. -/
def execExportBufferTimeout (n : Fin 8) (s : State) : Out :=
  s.run (fun s =>
    let q := s.hq (144 + n.val)
    s.onlyIf (!q.fill.isEmpty && decide (q.fillAt + 1000000 ≤ s.clk.up)) (·.closeFill (144 + n.val)))

/-- A queue's signal is due (R366): pending with HOLDOFF passed since its last one, or HOLDOFF passed since its first
completion. -/
def State.hqDue (s : State) (i : Nat) : Bool :=
  let q := s.hq i
  bit (s.hqReg i Reg.hqIrq) 10 && s.hqQuiet i
  && (q.pending || (decide (0 < q.since) && decide (q.firstAt + s.holdoff i ≤ s.clk.up)))

/-- Queues signalled by one message. -/
def State.hqSignalled (s : State) : List Nat → State
  | [] => s
  | i :: is => (s.setHq i { s.hq i with since := 0, pending := false, lastSig := some s.clk.up }).hqSignalled is

/-- Queue i signals, with every queue of its vector whose signal is due (R366). -/
def State.irqHoldoff (s : State) (i : Nat) : State :=
  if s.hqDue i then
    let same := (List.range 153).filter (fun j => s.hqDue j && decide (s.hqVector j = s.hqVector i))
    (s.hqSignalled same).msix (s.hqVector i)
  else s

/-- IRQ_HOLDOFF (R366). -/
def execIrqHoldoff (q : QueueId) (s : State) : Out := s.run (·.irqHoldoff q.val)

/-! ### Resets of the function and its link (R348, R367) -/

/-- Queues 0 to n - 1 become DISABLED with ERR = LINK. -/
def State.hqsOff (s : State) : Nat → State
  | 0 => s
  | n + 1 =>
    let s := s.hqsOff n
    let s := if n < 64 then s.dropPunts n rHostQueueReset (s.hq n).held else s
    s.setHq n { s.hq n with st := .disabled, err := errLink, fetched := [], done := [], fill := [], pending := false
                            since := 0 }

/-- FLR, hot reset and link down (R348, Table 138); the function's MSI-X entries are masked again (PRESUMED, log entry 83). -/
def State.functionReset (s : State) : State :=
  let s : State := { s with host := { s.host with msix := {} } }
  ((s.hqsOff 153).count pgHostdma Reg.hdErrCnt 1).raise pgHostdma evHostLink

/-- FLR (R348). -/
def execFlr (s : State) : Out := s.run (·.functionReset)

/-- HOT_RESET (R348). -/
def execHotReset (s : State) : Out := s.run (·.functionReset)

/-- The PCIe link goes down. -/
def State.pcieDown (s : State) : State :=
  if s.host.linkUp then ({ s with host := { s.host with linkUp := false, width := 0, speed := 0 } } : State).functionReset
  else s

/-- PCIE_LINK_DOWN (R348). -/
def execPcieLinkDown (s : State) : Out := s.run (·.pcieDown)

/-- PERST_N low holds the PCIe core in reset and disables the queues; its rise lets link training start (R348, R455). -/
def State.perst (s : State) (level : Bool) : State :=
  if level then { s with host := { s.host with perst := false } }
  else
    let s := if s.host.perst then s
      else if s.host.linkUp then s.pcieDown else s.functionReset
    { s with host := { s.host with perst := true, bme := false, d3hot := false } }

/-- PERST_N (R348). -/
def execPerstN (level : Bool) (s : State) : Out := s.run (·.perst level)

/-- The PCIe core is out of reset: not in FUSES, at 5 ms of start-up, and PERST_N is high (Table 173). -/
def State.pcieReady (s : State) : Bool := decide (s.rst.phase ≠ .fuses) && !s.host.perst

/-- PCIE_LINK_UP (R346): the widths 1, 2, 4, 8 and speeds Gen1 to Gen5. -/
def execPcieLinkUp (width : Fin 4) (speed : Fin 5) (s : State) : Out :=
  s.run (fun s => s.onlyIf (s.pcieReady && !s.host.linkUp) (fun s =>
    { s with host := { s.host with linkUp := true, width := 2 ^ width.val, speed := speed.val + 1 } }))

/-- BUS_MASTER_ENABLE (R348): Bus Master Enable and D3hot as configuration space now holds them. -/
def execBusMasterEnable (bme : Bool) (d3hot : Bool) (s : State) : Out :=
  s.run (fun s =>
    let was := s.host.bme && !s.host.d3hot
    let s : State := { s with host := { s.host with bme := bme, d3hot := d3hot } }
    if was && !(bme && !d3hot) then s.count pgHostdma Reg.hdErrCnt 1 else s)

/-- AER records an error as Uncorrectable Error Status bit n, and a non-fatal one sends its message while it is reported (R367). -/
def State.aerNonFatal (s : State) (n : Nat) : State :=
  let s : State := { s with host := { s.host with cfg := { s.host.cfg with aerUnc := put s.host.cfg.aerUnc n 1 1 } } }
  if s.host.cfg.nonFatal then s.emit .errNonFatal else s

/-- POISONED_WRITE (R367): AER bit 12 is Poisoned TLP (PRESUMED, PCI Express Base 5.0, log entry 83). -/
def execPoisonedWrite (s : State) : Out :=
  s.run (fun s => (((s.aerNonFatal 12).count pgHostdma Reg.hdErrCnt 1).count pgHostdma Reg.hdPoison 1).raise pgHostdma evPoison)

/-! ### Identity and capabilities (R346, Table 131) -/

/-- A capability of the function. -/
inductive PcieCap where
  | pciExpress | msix | powerManagement | aer | deviceSerialNumber | functionLevelReset
  deriving DecidableEq, Repr

/-- Identity of the function and what it can do: IDs, sizes of BAR0 and BAR2 in bytes, the largest payload and read request, the
completion timeout after reset in nanoseconds, capabilities, and the Device Serial Number. -/
structure PcieId where
  device   : Nat
  revision : Byte
  class_   : Nat
  bar0     : Nat
  bar2     : Nat
  mpsMax   : Nat
  mrrsMax  : Nat
  timeout  : Nat
  caps     : List PcieCap
  serial   : DWord
  deriving DecidableEq, Repr

/-- Table 131; the serial number is the device's (LC_SERIAL; DEDUCED, log entry 83). -/
def pcieId : PcieId :=
  { device := 0x9204, revision := Config.revision (), class_ := 0x028000, bar0 := 2 ^ 28, bar2 := 2 ^ 15, mpsMax := 512
    mrrsMax := 4096, timeout := 50000000
    caps := [.pciExpress, .msix, .powerManagement, .aer, .deviceSerialNumber, .functionLevelReset], serial := Config.serial () }

end Sys2Proof.Machine
end

