-- ==== Sys2Proof/Machine/Kerf.lean ====
section
/-! DEFINITION. MICROWORD_EXEC (05_parser_kerf.md R141 to R157): one stage executes one microword on the vector in front
of it; after ingress stage 7 the frame's way on is decided (R150, 11_raft.md R332, 09_queues_forwarding.md R266). -/

namespace Sys2Proof.Machine

/-! ### After ingress stage 7 -/

/-- A multicast frame goes to the replication queue of its own half, of the other half, or of both (R266). -/
def State.leaveMcast (s : State) (i sl : Nat) : State :=
  let f := s.frame i
  let h := sliceHalf sl
  let g := s.repGrp h (vDest f.vec % 65536)
  let here := decide (fld g 18 11 ≠ 0)
  let there := bit g 30
  if here = false ∧ there = false then s.dropIngress i sl rMcEmpty
  else
    let f := { f with tag := 0xC000 }
    let s := s.setFrame i f
    let s := { s with mcast := AMap.set (0, 0, 0) s.mcast f.root (b2n here + b2n there, 0, 0) }
    if here ∧ there then
      let j := s.nextFrame
      ((((s.newCopy f).beginHolder h f.ring).toStep4 i h h).toStep4 j h (1 - h))
    else s.toStep4 i h (if here then h else 1 - h)

/-- A vector leaves ingress stage 7: Raft resolution, then its destination (R150, R332). -/
def State.leaveIngress (s : State) (i sl : Nat) : State :=
  let f := s.frame i
  let h := sliceHalf sl
  let r := s.raftResolve h f f.vec
  let s := r.1
  match r.2 with
  | .drop reason => s.dropIngress i sl reason
  | .go v =>
    let f := { f with vec := v, vecIn := v, addrIn := f.addr, fin := false }
    let s := s.setFrame i f
    if vDtype v = 1 then
      let q := vDest v % 32768
      (s.setFrame i { f with q := q, tag := queueTag q }).toStep4 i h (queueHalf q)
    else if vDtype v = 2 then s.leaveMcast i sl
    else s.dropIngress i sl rNoDest

/-- A vector goes on from a stage: to the next one, out of the ingress pipe, or to the deparser. -/
def State.stageNext (s : State) (i sl : Nat) (dir : Dir) (k : Nat) : State :=
  if k < 7 then s.toStage sl (stageKey dir k + 1) i
  else match dir with
    | .ingress => s.leaveIngress i sl
    | .egress =>
      let x := s.slice sl
      s.setSlice sl { x with depq := x.depq ++ [i] }

/-! ### The microword -/

/-- A frame whose vector every stage passes unchanged: transit (R126), DIRECT (R360), IPFIX (R321). -/
def Frame.passes (f : Frame) : Bool :=
  vTransit f.vec || (match f.kind with | .direct _ => true | .ipfix => true | _ => false)

/-- Ingress stage 0 drops a frame with an invalid Raft tag, or with a valid one that names a FREE ring, before any
microword runs (11_raft.md R331, 07_rings.md R235). A transit packet passes whatever its tag (04_span_framing.md R126). -/
def State.stageZeroDrop (s : State) (sl : Nat) (f : Frame) : Option Nat :=
  if (s.raftCfg (sliceHalf sl)).en ∧ f.kind = .received ∧ s.isRaftPort f.src ∧ hasRaftTag f.data
      ∧ raftTagValid f.data = false ∧ vTransit f.vec = false then some rRaftBadHdr
  else if vRaft f.vec ∧ s.ringLive f.ring = false then some rRingUnknown
  else none

/-- What the ECC of the word at an address gives: the state, with a corrected word rewritten, and the word to execute;
none for an uncorrectable one (R153). -/
def State.fetchMicro (s : State) (pg b a : Nat) : State × Option Nat :=
  let w := s.microAt pg b a
  let fixed := fun (x : Nat) =>
    (((s.setMicro pg b a x).count pg Reg.ksEccCorr 1).raise pg evKsCorr, some x)
  match eccCheck w with
  | .clean => (s, some w)
  | .flip i => fixed (Nat.xor w (2 ^ (10 + i)))
  | .check => fixed (withEcc w)
  | .bad =>
    let s := if s.rbit pg Reg.ksStat 2 then s
      else (s.setReg pg Reg.ksEccAddr (BitVec.ofNat 32 (a % 1024 + b * 1024))).setRf pg Reg.ksStat 2 1 1
    ((s.count pg Reg.ksEccUncorr 1).raise pg evKsUncorr, none)

/-- What a microword leaves: the vector, the address, whether the meter drops the packet. -/
structure Executed where
  vec   : List Byte
  addr  : Nat
  red   : Bool
  deriving DecidableEq, Repr

/-- The meter of a microword on frame f (R152): the state, the colour, whether it drops. The rest of the frame is charged
when the tail is here. -/
def State.runMeter (s : State) (pg w : Nat) (f : Frame) : State × Nat × Bool :=
  let m := mMeter w
  let c := s.meterCfg pg m
  let n := if c.pkts then 1 else if f.tail then min f.len 256 else 256
  let r := ((s.meter pg m).to c s.now).colour c (vColor f.vec) n
  let s := s.setMeter pg m r.2
  let l : LateItem := { root := f.root, page := pg, idx := m, meter := true, c := decide (r.1 = 0), p := decide (r.1 ≤ 1) }
  (if c.pkts then s else s.addLate f l, r.1, r.1 = 2 && c.dropRed)

/-- The counter of a microword (R151): its pair. -/
def counterIdx (w : Nat) (v : List Byte) (r : Found) : Nat :=
  let b := mCntBase w
  let x := mCntSrc w
  (if x = 0 then b else if x = 1 then b + r.res % 8192 else if x = 2 then b + vInPort v else b + vBe v 300 2) % 8192

/-- Execute a microword on frame f, steps 1 to 6 and 8 of R144. -/
def State.runMicro (s : State) (sl : Nat) (dir : Dir) (pg b w : Nat) (f : Frame) : State × Executed :=
  let v := f.vec
  let mask := if mKprof w = 0 then 2 ^ 32 - 1 else (s.reg pg (Reg.ksKprof (mKprof w))).toNat
  let key := formKey v (mKeysel w) mask
  let s := s.count64 pg Reg.ksVectors 1
  let l := s.microLookup sl dir pg b w f key
  let s := l.1
  let r := l.2
  let regs := beBytes 16 r.res ++ beBytes 8 (tsOf s.now) ++ beBytes 8 (Config.random s.freeCtr).toNat
  let s := s.drawn
  let hash := Nat.xor (crc32cStd key) (s.reg pg Reg.ksHashSeed).toNat
  let alus := (List.range 4).map (fun i => aluRun (mAlu w i) v regs hash)
  let wr := alus.foldl (fun x a => aluWrite (mHvwr w) a x) (v, false)
  let s := s.raiseIf (r.bad || alus.any (·.bad)) pg evBadWord
  let s := if wr.2 then s.count pg Reg.ksWrSupp 1 else s
  let m := if mMeterEn w then s.runMeter pg w f else (s, 0, false)
  let s := m.1
  let v2 := if mMeterEn w then vPut wr.1 286 1 (let q := vb wr.1 286; q - q / 16 % 4 * 16 + m.2.1 * 16) else wr.1
  let k := counterIdx w v r
  let s := if mCntEn w then
      (s.pairAdd pg k 1 0).addLate f { root := f.root, page := pg, idx := k, meter := false } else s
  (s, { vec := v2, addr := nextAddr w v (alus.map (·.flag)) r, red := m.2.2 })

/-- Step 7 of R144: the disposition, or the drop of a red meter. -/
def State.dispose (s : State) (i sl : Nat) (dir : Dir) (k pg w : Nat) (x : Executed) : State :=
  let f := s.frame i
  let f := { f with vec := x.vec }
  let s := s.setFrame i f
  let s := if x.red ∨ mAct w = 1 ∨ mAct w = 2 then s.tdGone (engineOf sl dir k) (8 - k)
           else s.tdCycle (engineOf sl dir k) false
  if x.red then (s.count64 pg Reg.ksDrops 1).dropStage i sl dir rMeterRed
  else if mAct w = 1 then (s.count64 pg Reg.ksDrops 1).dropStage i sl dir (0xC0 + mCode w)
  else if mAct w = 2 then (s.count64 pg Reg.ksPunts 1).puntStage i sl dir (mCode w)
  else (s.setFrame i { f with addr := x.addr, fin := decide (mAct w = 3) }).stageNext i sl dir k

/-- The stage executes on frame i. -/
def State.stageRun (s : State) (i sl : Nat) (dir : Dir) (k : Nat) : State :=
  let f := s.frame i
  let pg := pgKerf sl dir k
  let first := decide (k = 0 ∧ dir = .ingress)
  if dir = .egress ∧ f.bad ≠ 0 then ((s.tdGone (engineOf sl dir k) (8 - k)).count64 pg Reg.ksDrops 1).dropQueued i f.bad
  else match (if first then s.stageZeroDrop sl f else none) with
    | some reason => ((s.tdGone (engineOf sl dir k) 8).count64 pg Reg.ksDrops 1).dropStage i sl dir reason
    | none =>
      if f.fin ∨ f.passes then (s.tdCycle (engineOf sl dir k) false).stageNext i sl dir k
      else
        let b := s.ringBank pg f.ring
        let r := s.fetchMicro pg b (if first then vPclass f.vec else f.addr)
        match r.2 with
        | none =>
          ((r.1.tdGone (engineOf sl dir k) (8 - k)).count64 pg Reg.ksDrops 1).dropStage i sl dir rKerfEcc
        | some w =>
          let x := r.1.runMicro sl dir pg b w f
          x.1.dispose i sl dir k pg w x.2

/-- The stage takes the vector in front of it. -/
def State.stageTake (s : State) (sl : Nat) (dir : Dir) (k : Nat) : State :=
  let x := s.slice sl
  match x.stage (stageKey dir k) with
  | [] => s
  | i :: is => (s.setSlice sl (x.setStage (stageKey dir k) is)).stageRun i sl dir k

/-- MICROWORD_EXEC (R144). The pipe stands while one of its stages is in a block reset or admission holds it (R141, R157). -/
def execMicrowordExec (sl : Slice) (dir : Dir) (stage : Fin 8) (s : State) : Out :=
  s.run (fun s => s.onlyIf (s.sliceUp sl.val && s.pipeRuns sl.val dir) (·.stageTake sl.val dir stage.val))

end Sys2Proof.Machine
end

