-- ==== Sys2Proof/Machine/Queues.lean ====
section
/-! DEFINITION. Flume's receiving end, multicast replication, the schedulers, the transmitting MAC and link-down holds
(09_queues_forwarding.md R263 to R281). -/

namespace Sys2Proof.Machine

/-! ### Events of the SCHED page -/
abbrev evFlush : Nat := 1
abbrev evUnderrun : Nat := 2

/-! ### Flume (R27, R265) -/

/-- Drop a frame that Flume delivered with an error or out of order. -/
def State.dropFlume (s : State) (i h : Nat) : State :=
  let f := s.frame i
  if f.punted then s.dropPuntNew i h (fld (s.puntMap (vPunt f.vecIn)) 0 6) rFlume
  else if f.tag = 0xC000 then s.dropMcast i rFlume
  else if f.unit then (s.accountUnit f (.flume f.q) (f.unitInfo rFlume none)).finish i h f
  else s.dropQueued i rFlume

/-- Account skipped sequence numbers of a source slot; other sources are not units (R265). -/
def State.skipSeq (s : State) (h src : Nat) : Nat → State
  | 0 => s
  | n + 1 => (if src < 1024 then s.accountSkip h src else s).skipSeq h src n

/-- The Flume channel of a source (R265). What stands in for a source slot takes the channel by the same formula (DESIGN CHOICE,
log entry 81). -/
def Transit.chan (t : Transit) : Nat := t.src / 8 % 64

/-- The endpoint of half h takes the next frame of a channel (R265). A number 2^23 or more ahead, modulo 2^24, is a lower one (DESIGN CHOICE,
log entry 93). A half in reset drops it with DECK_RESET (01_architecture.md R32,
17_reset_retained.md R456). -/
def State.flumeTake (s : State) (h chan : Nat) (bad : Bool) : State :=
  let x := s.pathOf h
  match x.transit.find? (fun t => decide (t.chan = chan)) with
  | none => s
  | some t =>
    let want := AMap.get 0 x.seqExp t.src
    let ahead := (t.seq + 2 ^ 24 - want) % 2 ^ 24
    let late := decide (2 ^ 23 ≤ ahead)
    let x := { x with transit := x.transit.erase t
                      seqExp := if late then x.seqExp else AMap.set 0 x.seqExp t.src ((t.seq + 1) % 2 ^ 24) }
    let s := (s.setPath h x).moveHolder (1 - h) h (s.frame t.frame).ring
    let s := if late then s else s.skipSeq h t.src ahead
    if bad then (s.dropFlume t.frame h).sourceMsg (32 + 32 * h + 12) 0 .pulse 4 0
    else if late then s.dropFlume t.frame h
    else if s.halfUp h = false then s.dropArrival t.frame (s.frame t.frame) rDeckReset
    else s.setPath h { s.pathOf h with arrivals := (s.pathOf h).arrivals ++ [t.frame] }

/-- An uncorrectable flit is found in the rest of frame i, which half h took before its tail had crossed (R27, R278). -/
def State.flumeRest (s : State) (h i : Nat) : State :=
  let f := s.frame i
  if f.tail = false ∧ f.half = h ∧ portHalf f.src = 1 - h then
    (s.mapFrames (fun g => decide (g.root = f.root ∧ g.half = h)) (·.markBad rFlume)).sourceMsg (32 + 32 * h + 12) 0 .pulse 4 0
  else s

/-- FLUME_RECEIVE (R265, R27). While requester 16 holds under EMPTY, Flume stands (08_deck_admission.md R245). -/
def execFlumeReceive (h : Half) (x : FlumeRx) (s : State) : Out :=
  s.run (fun s => match x with
    | .frame chan bad =>
      s.onlyIf ((AMap.get none (s.deckOf h.val).hold 16).isNone || !s.halfUp h.val) (·.flumeTake h.val chan.val bad)
    | .rest i => s.flumeRest h.val i)

/-! ### Replication (R267 to R270) -/

abbrev evRepBad : Nat := 2

/-- One copy of frame i of half h for a copy entry (R268): admitted to its queue, or dropped alone (R253). first says
that no copy of the frame has been made here, so that the copy takes over the frame's holder (R230). -/
def State.makeCopy (s : State) (i h : Nat) (e : Word) (first : Bool) : State :=
  let f := s.frame i
  let q := 32 * (512 * h + fld e 0 9) + 16 + vTc f.vecIn
  let d := 2 ^ 30 + q + fld e 9 15 * 2 ^ 15
  let n := f.cells.length + f.need
  let c : Frame :=
    { f with kind := .copy, vec := vPut f.vec 276 4 d, vecIn := vPut f.vecIn 276 4 d, q := q, cells := [], need := n,
             master := some i, enq := false, mark := false, refs := 0, copied := false }
  let s := if first then s else s.beginHolder h f.ring
  let s := s.count64 (pgAdmit h) Reg.repCopies 1
  let j := s.nextFrame
  let s := (s.newCopy c).setFrame i { f with refs := f.refs + 1 }
  match s.floodDrop f (q / 32), firstReason [s.portCheck q, s.queueCheck q (vColor f.vecIn)] with
  | some r, _ => s.dropInRepl j h r
  | none, some r => s.dropQueued j r
  | none, none =>
    let s := s.setFrame j { c with enq := true, ecn := s.ecnMark q }
    let s := s.setDeck h ((s.deckOf h).chargeQueue q n)
    s.setQueue q (s.queue q ++ [j])

/-- The copies of copy entries k and up, n of them, with the number made so far (R267). -/
def State.makeCopies (s : State) (i h k made : Nat) : Nat → State × Nat
  | 0 => (s, made)
  | n + 1 =>
    if 262143 < k then ((s.count (pgAdmit h) Reg.repBad 1).raise (pgAdmit h) evRepBad).makeCopies i h (k + 1) made n
    else
      let e := s.repCopy h k
      if bit e 31 then (s.makeCopy i h e (decide (made = 0))).makeCopies i h (k + 1) (made + 1) n
      else s.makeCopies i h (k + 1) made n

/-- All copies of frame i are made: the class charge ends, the frame waits for its copies alone (R269). -/
def State.copiesMade (s : State) (i h made : Nat) : State :=
  let f := s.frame i
  let s := s.setDeck h ((s.deckOf h).unchargeClass (16 + vTc f.vecIn) (f.cells.length + f.need))
  let s := s.setFrame i { f with copied := true, enq := false, mark := false }
  let s := s.mcastDone f made 0 h
  let s := if made = 0 then s.endHolder h f.ring else s
  (s.settleMaster i).drainSettle h

/-- The engine takes the next frame of its queue (R267). -/
def State.replicate (s : State) (h : Nat) : State :=
  let x := s.pathOf h
  match x.repl with
  | [] => s
  | i :: is =>
    let s := s.setPath h { x with repl := is }
    let f := s.frame i
    if f.bad ≠ 0 then s.dropMcast i f.bad
    else if (s.ringRec f.ring).expired then (s.dropMcast i rRingExpired).countExp rRingExpired
    else
      let g := s.repGrp h (vDest f.vecIn % 65536)
      let r := s.makeCopies i h (fld g 0 18) 0 (min 1024 (fld g 18 11))
      r.1.copiesMade i h r.2

/-- REPLICATE (R267). -/
def execReplicate (h : Half) (s : State) : Out := s.run (fun s => s.onlyIf (s.deckUp h.val) (·.replicate h.val))

/-- Mark a list of frames for a drain. -/
def State.markDrain (s : State) : List Nat → State
  | [] => s
  | i :: is => (s.setFrame i { s.frame i with mark := true }).markDrain is

/-- A write of REP_CTRL.DRAIN = 1 (R270). -/
def State.startDrain (s : State) (h : Nat) : State :=
  let s := s.markDrain (s.pathOf h).repl
  (s.setPath h { s.pathOf h with draining := true }).drainSettle h

/-! ### The scheduler (R271, R272, R275, R276) -/

/-- The frame whose cells a frame or copy uses. -/
def State.owner (s : State) (f : Frame) : Frame := match f.master with | some m => s.frame m | none => f

/-- Every byte of the frame has reached Deck. -/
def State.allHere (s : State) (f : Frame) : Bool := f.tail && decide ((s.owner f).need = 0)

/-- The stream rate of a port, times 8,192 (R276). -/
def State.streamRate (s : State) (p : Nat) : Nat := s.portGbps p * (if s.isSpan p then 8160 else 8192)

/-- The frame may leave port p before its tail has arrived (R276). -/
def State.mayCut (s : State) (f : Frame) (p : Nat) : Bool :=
  s.rbit (pgSched (portSlice p)) (Reg.scPort (p % 32)) 20 && !vNocut f.vec && !s.encapHeavy (portSlice p) f.vec
  && decide (s.streamRate p ≤ s.streamRate f.src)

/-- Class slot c of port p is paused (R257): priority (c mod 16) mod 8. -/
def State.classPaused (s : State) (p c : Nat) : Bool :=
  decide (s.clk.up < AMap.get 0 (s.schedOf p).pause (c % 16 % 8))

/-- A shaper with SHAPE_EN lets a frame start (R271, R274). -/
def shaperOpen (on : Bool) (rate : Nat) (b : Bucket) : Bool := !on || (decide (rate ≠ 0) && decide (0 ≤ b.tok))

/-- SC_Q of queue q. -/
def State.scQ (s : State) (q : Nat) : Word := s.reg (pgSched (portSlice (q / 32))) (Reg.scQ (schedIdx q))

/-- Queue q is eligible (R271). -/
def State.eligible (s : State) (q : Nat) : Bool :=
  match s.queue q with
  | [] => false
  | i :: _ =>
    let f := s.frame i
    let p := q / 32
    (s.allHere f || s.mayCut f p) && !s.classPaused p (q % 32)
    && shaperOpen (bit (s.scQ q) 16) (s.rf (pgSched (portSlice p)) (Reg.scQrate (schedIdx q)) 0 21) (s.queueBucket q)

/-- Port p may start a frame (R271). -/
def State.mayStart (s : State) (p : Nat) : Bool :=
  let x := s.schedOf p
  let pg := pgSched (portSlice p)
  decide (x.ls = .up) && !x.flushing && decide (x.fifo.length < 4)
  && shaperOpen (s.rbit pg (Reg.scPort (p % 32)) 21) (s.rf pg (Reg.scPrate (p % 32)) 0 21) (s.portBucket p)

/-- The round of R272 over class slots of one level: ok says which are eligible, quantum what each visit adds. The
deficits are by queue ID, base the port's first queue. -/
def dwrr (ok : Nat → Bool) (quantum : Nat → Nat) (base : Nat) : Nat → Nat → AMap Int → Option (Nat × AMap Int)
  | 0, _, _ => none
  | n + 1, c, d =>
    if ok c then
      let x := AMap.get 0 d (base + c)
      if 0 < x then some (c, d)
      else dwrr ok quantum base n ((c + 1) % 32) (AMap.set 0 d (base + c) (x + quantum c))
    else dwrr ok quantum base n ((c + 1) % 32) d

/-- The highest level below n with an eligible queue. -/
def State.topLevel (s : State) (p : Nat) : Nat → Option Nat
  | 0 => none
  | n + 1 =>
    if (List.range 32).any (fun c => decide (fld (s.scQ (32 * p + c)) 0 3 = n) && s.eligible (32 * p + c)) then some n
    else s.topLevel p n

/-- Start, or drop, the head of queue q: an expired one (R233) or one with a fault found (R278) is dropped. -/
def State.startHead (s : State) (p q : Nat) : State :=
  match s.queue q with
  | [] => s
  | i :: is =>
    let f := s.frame i
    let s := s.setQueue q is
    if (s.ringRec f.ring).expired then (s.dropQueued i rRingExpired).countExp rRingExpired
    else if f.bad ≠ 0 then s.dropQueued i f.bad
    else
      let x := s.schedOf p
      let s := s.setSched p { x with fifo := x.fifo ++ [i] }
      (s.setFrame i { f with fin := false }).toStage (portSlice p) (stageKey .egress 0) i

/-- One selection of port p (R272). -/
def State.select (s : State) (p : Nat) : State :=
  match s.topLevel p 8 with
  | none => s
  | some pri =>
    let x := s.schedOf p
    let ok := fun c => decide (fld (s.scQ (32 * p + c)) 0 3 = pri) && s.eligible (32 * p + c)
    let quantum := fun c => 64 * orElse0 (fld (s.scQ (32 * p + c)) 8 8) 1
    match dwrr ok quantum (32 * p) 65536 (AMap.get 0 x.ptr pri) s.deficit with
    | none => s
    | some (c, d) =>
      let s := { s with deficit := d }
      (s.setSched p { x with ptr := AMap.set 0 x.ptr pri c }).startHead p (32 * p + c)

/-- SCHEDULE (R272). -/
def execSchedule (p : Port) (s : State) : Out :=
  s.run (fun s => s.onlyIf (s.sliceUp (portSlice p.val) && s.deckUp (portHalf p.val) && s.mayStart p.val) (·.select p.val))

/-! ### The transmitting MAC (R271, R273, R276 to R278) -/

/-- The first byte of frame i leaves port p: its egress timestamp, SC_CUT; late says that the transmitter will need
bytes before they are there (R277). -/
def State.beginTx (s : State) (p i : Nat) (late : Bool) : State :=
  let f := s.frame i
  let f := { f with started := true, ets := s.egressTs p s.now }
  let cut := !s.allHere f
  let pg := pgSched (portSlice p)
  let x := s.schedOf p
  let s := s.setSched p { x with fifo := x.fifo.drop 1, tx := some i }
  let s := if cut then s.count64 pg (Reg.scCut (p % 32)) 1 else s
  s.setFrame i { f with late := cut && late }

/-- The deparser rebuilds frame i for port p now that its tail is here: its bytes, or the reason it is dropped before its first byte
leaves (R163, R164). -/
def State.rebuild (s : State) (p : Nat) (f : Frame) : Frame ⊕ Nat :=
  if f.out.isEmpty ∧ f.tail then
    match s.build f p with
    | none => .inr rEncapBad
    | some b => if s.maxFrame p < b.body.length + 4 then .inr rEgressOversize else .inl { f with out := withFcs b.body }
  else .inl f

/-- A template of KIND 1 or 2 was applied at the deparser (R164). -/
def Frame.heavy (f : Frame) : Bool :=
  match f.dep with | some e => vEncap f.vec && decide ((byteAt e.tmpl 1).toNat ≠ 0) | none => false

/-- The MAC of port p takes the next frame of its start FIFO, when it is rebuilt and may leave now (R271, R164); PFC frames
that are due go first (08_deck_admission.md R256). -/
def State.macStart (s : State) (p : Nat) (late : Bool) : State :=
  let x := s.schedOf p
  match x.tx, x.fifo with
  | none, i :: _ =>
    let f := s.frame i
    if f.built = false ∨ (AMap.get {} s.pfcTx p).due.isEmpty = false then s
    else if f.bad ≠ 0 then s.dropQueued i f.bad
    else if s.allHere f ∨ (vNocut f.vec = false ∧ f.heavy = false) then
      match s.rebuild p f with
      | .inr reason => s.deparseDrop i p reason
      | .inl g => (s.setFrame i g).beginTx p i late
    else s
  | _, _ => s

/-- MAC_START (R271). -/
def execMacStart (p : Port) (late : Bool) (s : State) : Out :=
  s.run (fun s => s.onlyIf (s.sliceUp (portSlice p.val) && decide ((s.schedOf p.val).ls = .up)) (·.macStart p.val late))

/-- Frame i with its rebuilt bytes complete, and the reason it is stomped for, 0 when it is good (Table 99): a frame that
was cut through is rebuilt now, and cut at the port's limit. -/
def State.txBuild (s : State) (p i : Nat) : Frame × Nat :=
  let f := s.frame i
  if f.out.isEmpty = false then (f, f.bad)
  else match s.build f p with
    | none => (f, if f.bad = 0 then rEncapBad else f.bad)
    | some b =>
      let lim := s.maxFrame p
      if lim < b.body.length + 4 then
        ({ f with out := b.body.take (lim - 4) ++ zeros 4 }, if f.bad = 0 then rEgressOversize else f.bad)
      else ({ f with out := withFcs b.body }, f.bad)

/-- How many rebuilt bytes of a frame are there: all but those that have not arrived, or whose cells are not allocated yet (R277). -/
def State.bytesHere (s : State) (f : Frame) : Nat :=
  let o := s.owner f
  let n := min f.data.length (256 * o.cells.length)
  f.txLen - 4 - (f.len - n)

/-- The transmitter runs out of bytes (R277): counted and reported, and the frame is stomped where they ended. -/
def State.txUnderrun (s : State) (p i : Nat) : State :=
  let f := s.frame i
  let pg := pgSched (portSlice p)
  ((s.count pg (Reg.scUnderrun (p % 32)) 1).raise pg evUnderrun).stompAt p i (s.bytesHere f) (if f.bad = 0 then rUnderrun else f.bad)

/-- A stomped frame that came out shorter than its span header announced is completed with 0x00 (04_span_framing.md R104). -/
def Frame.completeOut (f : Frame) (span : Bool) : Frame :=
  if span ∧ f.out.length < f.ann then
    { f with out := f.out.take (f.out.length - 4) ++ zeros (f.ann - (f.out.length - 4)) }
  else f

/-- The last byte of the frame in transmission leaves port p (R273, R278); a frame whose bytes came too late ends where they ran out
(R277). -/
def State.txLast (s : State) (p : Nat) : State :=
  match (s.schedOf p).tx with
  | none => s
  | some i =>
    let f := s.frame i
    if f.late then s.txUnderrun p i
    else if f.tail = false ∨ (f.bad = 0 ∧ s.allHere f = false) then s
    else
      let r := s.txBuild p i
      let reason := r.2
      let f := r.1.completeOut (decide (reason ≠ 0) && s.isSpan p)
      let f := { f with out := f.ptpOut }
      let s := s.setFrame i f
      let s := if f.bad = 0 ∧ reason ≠ 0 then s.deparseBad p reason else s
      let s := if reason = 0 then s.relaySent f p else s
      ((s.sendFrame p f.out (decide (reason ≠ 0))).ptpEnd p f (decide (reason ≠ 0))).finishTx p i reason f.out.length

/-- TX_LAST_BYTE (R273); in near-end loopback the frame reaches the port's receiver (R83). -/
def execTxLastByte (p : Port) (s : State) : Out :=
  s.run (fun s => s.onlyIf (s.sliceUp (portSlice p.val)) (fun s => (s.txLast p.val).loopBack s p.val))

/-! ### Link down and LINK_HOLD (R279, R280) -/

/-- LINK_HOLD_EXPIRE (R279): LINK_HOLD after the PTP time of the fall, which a SET or STEP of PTP time moves (DESIGN CHOICE, log entry 93). -/
def execLinkHoldExpire (p : Port) (s : State) : Out :=
  s.run (fun s => s.onlyIf (decide ((s.schedOf p.val).ls = .hold)
    && decide ((s.schedOf p.val).holdAt + s.linkHold p.val ≤ s.now)) (·.portDown p.val))

/-- The drop engine finishes the marked frames of port p (R280). -/
def State.flushDone (s : State) (p : Nat) : State :=
  let x := s.schedOf p
  let ids := x.flushed.filter (fun i => (AMap.get none s.frames i).isSome)
  let s := s.setSched p { x with flushing := false, flushed := [] }
  let s := s.dropQueuedAll rLinkFlush ids
  let pg := pgSched (portSlice p)
  (s.count64 pg (Reg.scFlushed (p % 32)) ids.length).raiseIf (!ids.isEmpty) pg evFlush

/-- LINK_FLUSH_DONE (R280). -/
def execLinkFlushDone (p : Port) (s : State) : Out :=
  s.run (fun s => s.onlyIf (s.schedOf p.val).flushing (·.flushDone p.val))

end Sys2Proof.Machine
end

