-- ==== Sys2Proof/Machine/Sha3.lean ====
section
/-! DEFINITION. SHA3-512 (FIPS 202), the hash of measurements, image digests and key digests (16_forester_security.md R438,
R442; 17_reset_retained.md R459). The spec names the standard; its text is taken from there (PRESUMED, log entry 8). -/

namespace Sys2Proof.Machine

/-- The state of Keccak-f[1600]: 25 lanes of 64 bits, lane x + 5y at its index. -/
abbrev Keccak := List (BitVec 64)

def Keccak.lane (a : Keccak) (i : Nat) : BitVec 64 := a.getD i 0

/-- Rotation offsets of step rho by lane index. -/
def rhoOffsets : List Nat :=
  [0, 1, 62, 28, 27, 36, 44, 6, 55, 20, 3, 10, 43, 25, 39, 41, 45, 15, 21, 8, 18, 2, 61, 56, 14]

/-- Round constants of step iota. -/
def iotaConsts : List Nat :=
  [0x0000000000000001, 0x0000000000008082, 0x800000000000808A, 0x8000000080008000, 0x000000000000808B, 0x0000000080000001,
   0x8000000080008081, 0x8000000000008009, 0x000000000000008A, 0x0000000000000088, 0x0000000080008009, 0x000000008000000A]
  ++ [0x000000008000808B, 0x800000000000008B, 0x8000000000008089, 0x8000000000008003, 0x8000000000008002, 0x8000000000000080,
   0x000000000000800A, 0x800000008000000A, 0x8000000080008081, 0x8000000000008080, 0x0000000080000001, 0x8000000080008008]

/-- Step theta. -/
def Keccak.theta (a : Keccak) : Keccak :=
  let c := (List.range 5).map (fun x => a.lane x ^^^ a.lane (x + 5) ^^^ a.lane (x + 10) ^^^ a.lane (x + 15) ^^^ a.lane (x + 20))
  (List.range 25).map (fun i =>
    a.lane i ^^^ Keccak.lane c ((i + 4) % 5) ^^^ (Keccak.lane c ((i + 1) % 5)).rotateLeft 1)

/-- Steps rho and pi: lane (y, 2x + 3y) is lane (x, y) rotated; here lane (X, Y) comes from (X + 3Y, X). -/
def Keccak.rhoPi (a : Keccak) : Keccak :=
  (List.range 25).map (fun i =>
    let j := (i % 5 + 3 * (i / 5)) % 5 + 5 * (i % 5)
    (a.lane j).rotateLeft (rhoOffsets.getD j 0))

/-- Step chi. -/
def Keccak.chi (a : Keccak) : Keccak :=
  (List.range 25).map (fun i =>
    let y := 5 * (i / 5)
    a.lane i ^^^ (~~~(a.lane (y + (i + 1) % 5)) &&& a.lane (y + (i + 2) % 5)))

/-- One round with its constant. -/
def Keccak.round (a : Keccak) (c : Nat) : Keccak :=
  let b := a.theta.rhoPi.chi
  b.set 0 (b.lane 0 ^^^ BitVec.ofNat 64 c)

/-- The permutation. -/
def Keccak.f (a : Keccak) : Keccak := iotaConsts.foldl Keccak.round a

/-- Absorb one block of 72 bytes. -/
def Keccak.absorb (a : Keccak) (blk : List Byte) : Keccak :=
  Keccak.f ((List.range 25).map (fun i =>
    if i < 9 then a.lane i ^^^ BitVec.ofNat 64 (leAt blk (8 * i) 8) else a.lane i))

/-- The last block, padded: 01 after the message, then 1 0* 1. -/
def sha3Pad (bs : List Byte) : List Byte :=
  if bs.length = 71 then bs ++ [0x86] else bs ++ [0x06] ++ zeros (70 - bs.length) ++ [0x80]

/-- Absorb whole blocks while they last, n of them at most, then the padded rest. -/
def sha3Run (a : Keccak) : Nat → List Byte → Keccak
  | 0, bs => a.absorb (sha3Pad bs)
  | n + 1, bs => if bs.length < 72 then a.absorb (sha3Pad bs) else sha3Run (a.absorb (bs.take 72)) n (bs.drop 72)

/-- SHA3-512 of bytes. -/
def sha3 (bs : List Byte) : List Byte :=
  ((sha3Run (List.replicate 25 0) (bs.length / 72 + 1) bs).take 8).flatMap (fun w => leBytes 8 w.toNat)

end Sys2Proof.Machine
end

