-- ==== Sys2Proof/Machine/Woodlot.lean ====
section
/-! DEFINITION. Woodlot outside its table commands (06_tables.md): boost (R172), learning (R190 to R195), aging (R196,
R197), the background routines (R181, R198, R222), bank migration and memory errors (R202 to R204), RESUME and ABANDON
(R200, R201), the TCAM parity scan (R189). -/

namespace Sys2Proof.Machine

/-! ### Boost (R172) -/

/-- BOOST_ON (R172): the half's backlog has stayed above ON for 1 us. -/
def execBoostOn (h : Half) (backlog : Nat) (s : State) : Out :=
  s.run (fun s =>
    let pg := pgWlem h.val
    s.onlyIf (s.halfUp h.val && s.rbit pg Reg.wlCtrl 0 && s.boostPermitted && !(s.woodOf h.val).boost
        && decide (s.rf pg Reg.wlBoostCfg 0 16 < backlog))
      (fun s => (s.setWood h.val { s.woodOf h.val with boost := true }).raise pg evBoost))

/-- BOOST_OFF (R172): the backlog has stayed below OFF for 10 us, or boost is no longer enabled or permitted. -/
def execBoostOff (h : Half) (backlog : Nat) (s : State) : Out :=
  s.run (fun s =>
    let pg := pgWlem h.val
    s.onlyIf ((s.woodOf h.val).boost
        && (decide (backlog < s.rf pg Reg.wlBoostCfg 16 16) || !s.boostPermitted || !s.rbit pg Reg.wlCtrl 0))
      (fun s => (s.setWood h.val { s.woodOf h.val with boost := false }).raise pg evBoost))

/-! ### Learning (R192, R193) -/

/-- LEARN_REQUEST (R192, R193): the next request of a half. -/
def execLearnRequest (h : Half) (s : State) : Out := s.run (fun s => s.onlyIf (s.halfUp h.val) (·.learnNext h.val))

/-- EAST_COPY_APPLY (R192). -/
def execEastCopyApply (s : State) : Out := s.run (·.eastNext)

/-! ### Aging (R196, R197) -/

/-- A visit of the scanner to an entry of the West copy. -/
def State.ageVisit (s : State) (l : Nat) : State :=
  let w := s.emW 0 l 8
  let t := fld w 0 8
  let key := (s.entryKey 0 l).take (s.emKlen 0 t)
  let key := s.storedKey 0 t key
  let s := s.bgStep 0 0x30 (l / 4) [] false
  if cwHit w then (s.setEmW 0 l 8 (put w 13 1 0)).tellEast t key .clearHit w
  else
    let old := destOf (s.entryResult 0 l)
    let s := (s.clearEntry 0 l).tellEast t key .delete w
    (s.count64 (pgLearn 0) Reg.lrAged 1).learnNotice 2 t key 0 old

/-- AGING_VISIT (R196): the West scanner visits a dynamic entry of a table with AGE = 1. -/
def execAgingVisit (loc : EmLoc) (s : State) : Out :=
  s.run (fun s =>
    let l := locCode loc
    let w := s.emW 0 l 8
    s.onlyIf (decide (locHalf loc = 0) && s.bgFree 0 0x30 && s.rbit (pgWlem 0) 0x08 1 && !s.deferred
        && decide (s.rf (pgLearn 0) Reg.lrAge 0 16 ≠ 0) && s.isEntry 0 l && !cwStatic w
        && bit (s.wlLt 0 (fld w 0 8)) 7) (·.bgRun 0 (·.ageVisit l)))

/-- HIT_NOTICE (R197): a notice of the East half sets the West HIT, or finds the entry deleted. -/
def execHitNotice (s : State) : Out :=
  s.run (fun s => match s.hitq with
    | [] => s
    | (t, key) :: xs =>
      let s := { s with hitq := xs }
      match (if s.halfUp 0 && s.flumeUp then s.copyOf 0 t key else none) with
      | some l => s.setEmW 0 l 8 (put (s.emW 0 l 8) 13 1 1)
      | none => s)

/-! ### Background routines -/

/-- One stash entry goes to its buckets (R181): steps 2 and 3 of R178. -/
def State.drainSlot (s : State) (h l : Nat) : State :=
  let t := fld (s.emW h l 8) 0 8
  let path := match s.roomPath h t (s.entryKey h l) false with | some (d :: x :: p) => d :: x :: p | _ => []
  match s.makeRoom h t (s.entryKey h l) false with
  | some (s, d) =>
    let s := s.moveEntry h l d
    s.bgStep h 0x31 (l - stashBase) path (decide (s.stashUsed h = 0))
  | none => s.bgStep h 0x31 (l - stashBase) [] false

/-- STASH_DRAIN (R181). -/
def execStashDrain (h : Half) (slot : Fin 8) (s : State) : Out :=
  s.run (fun s =>
    let l := stashBase + slot.val
    s.onlyIf (s.bgFree h.val 0x31 && s.rbit (pgWlem h.val) 0x08 1 && !s.deferred && s.isEntry h.val l) (·.bgRun h.val (·.drainSlot h.val l)))

/-- Clear ring r's tags from a control word whose BIRTH lies at bit b and DEATH at bit d, VALID at bit v (R222). -/
def reclaimWord (r v b d : Nat) (w : Word) : Word :=
  let w := if names (tagRing (fld w b 3)) r then put w b 3 0 else w
  if names (tagRing (fld w d 3)) r then put w v 1 0 else w

/-- Reclaim of a list of exact-match entries. -/
def State.reclaimEm (s : State) (h r : Nat) : List Nat → State
  | [] => s
  | l :: ls =>
    let dead := names (cwDeath (s.emW h l 8)) r
    let s := if dead then s.clearEntry h l else s.setEmW h l 8 (reclaimWord r 8 15 18 (s.emW h l 8))
    s.reclaimEm h r ls

/-- Reclaim of a list of TCAM entries. -/
def State.reclaimTc (s : State) (r : Nat) : List (Nat × Nat) → State
  | [] => s
  | x :: xs => (s.setTcCtrl x.1 x.2 (reclaimWord r 0 1 4 (s.tcW x.1 x.2 24))).reclaimTc r xs

/-- Reclaim of the prefix versions of a half. -/
def reclaimLpm (r : Nat) (l : List LpmPfx) : List LpmPfx :=
  (l.filter (fun x => !names x.death r)).map (fun x => if names x.birth r then { x with birth := none } else x)

/-- Prefix versions that ring r's tags name, the first n of them, are reclaimed. -/
def reclaimFirst (r : Nat) : Nat → List LpmPfx → List LpmPfx
  | 0, l => l
  | _, [] => []
  | n + 1, x :: xs =>
    if names x.birth r || names x.death r then reclaimLpm r [x] ++ reclaimFirst r n xs else x :: reclaimFirst r (n + 1) xs

/-- Locations that one reclaim step takes: 64 in 256 Woodlot cycles at the most (DESIGN CHOICE, log entry 82). -/
abbrev reclaimStepLen : Nat := 64

/-- One step of the reclaim of ring r's log in a half: exact-match entries first, then prefix versions, then TCAM entries; the
cursor counts the locations taken (R222). -/
def State.reclaim (s : State) (h r : Nat) : State :=
  let em := (s.emLogged h r).take reclaimStepLen
  let lp := min (reclaimStepLen - em.length) ((s.woodOf h).lpm.countP (fun x => names x.birth r || names x.death r))
  let tc := ((halfSlices h).flatMap (s.tcLogged r)).take (reclaimStepLen - em.length - lp)
  let s := s.reclaimEm h r em
  let s := s.setWood h { s.woodOf h with lpm := reclaimFirst r lp (s.woodOf h).lpm }
  let s := s.reclaimTc r tc
  let done := decide (s.logSize h r = 0)
  let s := s.bgStep h 0x32 (s.bgCursor h 0x32 + em.length + lp + tc.length) [] done
  if done then s.sweepDone h r else s

/-- The sequencer holds a reclaim that has exact-match entries to clear while WOODLOT-EM ENABLE is 0 (R209). -/
def State.reclaimHeld (s : State) (h r : Nat) : Bool := !s.rbit (pgWlem h) 0x08 1 && !(s.emLogged h r).isEmpty

/-- The oldest ring in SWEEP whose reclaim this half has still to finish. -/
def State.sweeping (s : State) (h : Nat) : Option Nat :=
  s.rings.byAge.find? (fun r => let x := s.ringRec r
    decide (x.st = .sweep) && !(if h = 0 then x.doneW else x.doneE))

/-- A half in reset has no log to clear (Table 86): the tags that its TCAM keeps are cleared at once (R222). -/
def State.sweepReset (s : State) (h r : Nat) : State :=
  (s.reclaimTc r ((halfSlices h).flatMap (s.tcLogged r))).sweepDone h r

/-- RECLAIM (R222): one step. -/
def execReclaim (h : Half) (s : State) : Out :=
  s.run (fun s => match s.sweeping h.val with
    | some r =>
      if s.halfUp h.val = false then s.sweepReset h.val r
      else s.onlyIf (s.bgFree h.val 0x32 && !s.reclaimHeld h.val r) (·.bgRun h.val (·.reclaim h.val r))
    | none => s)

/-- One step of LPM compaction (R198): it rebuilds the first node that has been lost (R204; that this routine does it is a
DESIGN CHOICE, log entry 82), and changes nothing else that a ring sees. -/
def State.compact (s : State) (h : Nat) : State :=
  let w := s.woodOf h
  (s.setWood h { w with lpmBad := w.lpmBad.drop 1 }).bgStep h 0x33 (s.bgCursor h 0x33 + 1) [] (decide (w.lpmBad.length ≤ 1))

/-- LPM_COMPACTION (R198). -/
def execLpmCompaction (h : Half) (s : State) : Out :=
  s.run (fun s => s.onlyIf (s.bgFree h.val 0x33 && !s.deferred) (·.bgRun h.val (·.compact h.val)))

/-! ### Migration (R202, R203) -/

/-- A write of WL_MIGRATE: while BG_EN is 0 no routine starts, and GO stands (Table 82). -/
def State.migWrite (s : State) (h bank : Nat) : State :=
  let s := s.setReg (pgWlem h) Reg.wlMigrate (BitVec.ofNat 32 (bank + 2 ^ 31))
  if s.rbit (pgMaint h) Reg.mtCtrl 3 then s.migGo h bank else s

/-- One bucket or node is copied and the redirect moves past it (R203); a node that was lost is whole in the copy (R204). -/
def State.migStep (s : State) (h : Nat) (m : Mig) : State :=
  let s := s.copyPos h ((AMap.get none (s.woodOf h).bankmap m.bank).getD m.bank) m.spare m.cursor
  let w := s.woodOf h
  let s := s.setWood h { w with lpmBad := w.lpmBad.filter (fun n => decide (n ≠ m.bank * 4096 + m.cursor)) }
  let m := { m with cursor := m.cursor + 1 }
  if m.cursor = 4096 then (s.migEnd h m).bgStep h 0x34 m.cursor [] true
  else (s.setWood h { s.woodOf h with mig := some m }).bgStep h 0x34 m.cursor [] false

/-- One step of bank migration: of the one that runs; else a GO that waited for BG_EN starts, else the oldest that memory errors
ask for (R202). -/
def State.migNext (s : State) (h : Nat) : State :=
  let w := s.woodOf h
  match w.mig, w.migWant with
  | some m, _ => s.migStep h m
  | none, b :: bs =>
    if s.rbit (pgWlem h) Reg.wlMigrate 31 then s.migGo h (s.rf (pgWlem h) Reg.wlMigrate 0 8)
    else (s.setWood h { w with migWant := bs }).migStart h b
  | none, [] => if s.rbit (pgWlem h) Reg.wlMigrate 31 then s.migGo h (s.rf (pgWlem h) Reg.wlMigrate 0 8) else s

/-- The sequencer holds the migration of an exact-match bank while WOODLOT-EM ENABLE is 0 (R209). -/
def State.migHeld (s : State) (h : Nat) : Bool :=
  !s.rbit (pgWlem h) 0x08 1 && (match (s.woodOf h).mig with | some m => decide (m.bank < 128) | none => false)

/-- BANK_MIGRATION (R203). -/
def execBankMigration (h : Half) (s : State) : Out :=
  s.run (fun s => s.onlyIf (s.bgFree h.val 0x34 && !s.deferred && !s.migHeld h.val) (·.bgRun h.val (·.migNext h.val)))

/-! ### Memory errors (R202, R204) -/

/-- WOODLOT_ECC_ERROR (R202, R204): bank 0 to 127 of an exact-match slot, 128 to 223 of an LPM node. -/
def execWoodlotEccError (h : Half) (loc : EmLoc) (uncorr : Bool) (s : State) : Out :=
  s.run (fun s => s.onlyIf (s.halfUp h.val) (·.woodEcc h.val (locCode loc) uncorr))

/-- TCAM_PARITY_SCAN (R189): the check of an entry finds a fault. -/
def execTcamParityScan (sl : Slice) (idx : Fin 4096) (s : State) : Out :=
  s.run (fun s =>
    s.onlyIf (s.sliceUp sl.val && !bit (s.tcW sl.val idx.val 24) 7) (fun s => s.tcFault sl.val idx.val))

end Sys2Proof.Machine
end

