-- ==== Sys2Proof/Machine/ResetOps.lean ====
section
/-! DEFINITION. What the resets do (17_reset_retained.md R449 to R464, Table 176; 02_registers.md R56; 05_parser_kerf.md
R157; 06_tables.md R200; 08_deck_admission.md R260; 14_lookout_faults.md R397, R489; 07_rings.md R490), and what the Flume
management channel's state changes (01_architecture.md R20). -/

namespace Sys2Proof.Machine

/-! ### Events of the RESET page -/
abbrev evRestored : Nat := 0
abbrev evDefaults : Nat := 1
abbrev evHalfDone : Nat := 2
abbrev evSliceDone : Nat := 3
abbrev evRej : Nat := 4

/-- REJ codes (Table 177). -/
abbrev rejBusy : Nat := 1
abbrev rejKey : Nat := 2
abbrev rejHalf : Nat := 3

/-- A power-on or chip reset is in progress: it is complete when PHASE is RUN (Table 172). -/
def State.starting (s : State) : Bool := decide (s.rst.phase ≠ .run)

/-- A reset request that changes nothing (R451). -/
def State.rstReject (s : State) (code : Nat) : State :=
  ({ s with rst := { s.rst with rej := code } } : State).raise pgReset evRej

/-! ### Registers of a page -/

/-- The bits of a register that a reset below chip reset keeps: those whose reset is ret (R452, Table 176). KS_MAP is one of
them though software cannot write it. -/
def retBits (p o : Nat) : Nat :=
  match pageBlk p with
  | some .kerfIn | some .kerfOut => if o = 0x44 then 15 else match regSpec p o with | some r => r.ret | none => 0
  | _ => match regSpec p o with | some r => r.ret | none => 0

/-- A register's word after the reset of its page: ret fields keep, literal fields take their reset values. PG_LOCK keeps (R38);
win says that the window registers reset too (R56). -/
def afterReset (win : Bool) (p o : Nat) (v : Word) : Word :=
  if o = 0x18 then v
  else if 0x8000 ≤ o ∧ o < 0x8080 ∧ win = false ∧ pageSlow p then v
  else
    let m := BitVec.ofNat 32 (retBits p o)
    (v &&& m) ||| (regDefault (regKey p o) &&& ~~~m)

/-- The register file after the reset of the pages that sel holds of, less the registers that keep holds of. -/
def resetRegs (win : Bool) (sel keep : Nat → Bool) (m : AMap Word) : AMap Word :=
  m.filterMap (fun e =>
    let p := e.1 / 0x10000
    let o := e.1 % 0x10000
    let v := if sel p && !keep e.1 then afterReset win p o e.2 else e.2
    if v = regDefault e.1 then none else some (e.1, v))

/-- The events of a page clear with a reset of it; its report ends (14_lookout_faults.md R387). -/
def State.clearEvents (s : State) (p : Nat) : State := s.setEvtRegs p 0 (s.reg p 0x14)

/-- The registers held per requester of pages in a reset take their reset value (08_deck_admission.md R248, Table 98). -/
def State.dropSel (s : State) (sel : Nat → Bool) : State :=
  { s with bus := { s.bus with sel := s.bus.sel.filter (fun e => !sel (e.1 % 2 ^ 32 / 0x10000)) } }

/-- The registers of a page take what its reset gives them. -/
def State.resetPage (s : State) (p : Nat) (win : Bool) (keep : Nat → Bool) : State :=
  let s := (s.clearEvents p).dropSel (fun q => decide (q = p))
  { s with regs := resetRegs win (fun q => decide (q = p)) keep s.regs }

def State.resetPages (s : State) (win : Bool) : List Nat → State
  | [] => s
  | p :: ps => (s.resetPage p win (fun _ => false)).resetPages win ps

/-! ### The Flume management channel (01_architecture.md R20, 14_lookout_faults.md R396) -/

/-- The channel goes down: each half keeps the other half's Raft records as it last saw them, and the links report. -/
def State.channelDown (s : State) : State :=
  if s.flumeUp then
    let s : State := { s with flumeUp := false, raft := { s.raft with far := s.raft.nbr, downAt := s.clk.up } }
    (s.sourceMsg 44 1 .rise 4 0).sourceMsg 76 1 .rise 4 0
  else s

/-- The messages that the East half held enter Lookout's queue, in order. -/
def State.sendHeld (s : State) : List Message → State
  | [] => s
  | m :: ms => (s.send m).sendHeld ms

/-- A source's level line is high and Lookout neither has it ACTIVE nor has a message of it waiting. -/
def State.lineDiffers (s : State) (n : Nat) : Bool :=
  (if (sourcePage n 0).isSome then (sourcePages n).any (fun p => decide (s.enabledEvts p (s.evt p) ≠ 0)) else s.lineHigh n)
  && !AMap.get false s.lookout.active n && !(s.lookout.qEast.any (fun m => decide (m.src = n)))

/-- The level of every East source reaches Lookout: a line that is high without ACTIVE has risen without a message (R396). -/
def State.missAll (s : State) : List Nat → State
  | [] => s
  | n :: ns => (if decide (sourceQueue n = .east) && s.lineDiffers n then s.missRise n else s).missAll ns

def State.eastLevels (s : State) : State := s.missAll (List.range 512)

/-- CLUSTER_FAIL of an East cluster that failed while the channel was down reaches the FORESTER page (01_architecture.md R20). -/
def State.tellFailed (s : State) : State :=
  let x := s.cluster 1
  if x.untold then (s.setCluster 1 { x with untold := false }).raiseIf (decide (x.st = .failed)) pgForester 4 else s

/-- The channel recovers: the East half sends what it held, then the level of every source (R396). -/
def State.channelUp (s : State) : State :=
  if s.flumeUp then s
  else
    let held := s.lookout.held
    let s : State := { s with flumeUp := true, raft := { s.raft with far := [] }, lookout := { s.lookout with held := [] } }
    let s := ((s.sendHeld held).sourceMsg 44 1 .fall 4 0).sourceMsg 76 1 .fall 4 0
    s.eastLevels.tellFailed.peerHolds

/-! ### Frames held in Deck (08_deck_admission.md R260) -/

/-- Drop frames that wait at step 4 of a half. -/
def State.dropArrivals (s : State) (h : Nat) : List Nat → State
  | [] => s
  | i :: is => (s.dropArrival i { s.frame i with half := h } rDeckReset).dropArrivals h is

/-- The holders that frames are cross to the half that drops them (07_rings.md R230). -/
def State.moveHolders (s : State) (a b : Nat) : List Nat → State
  | [] => s
  | i :: is => (s.moveHolder a b (s.frame i).ring).moveHolders a b is

/-- Drop the instances in a replication queue. -/
def State.dropRepl (s : State) : List Nat → State
  | [] => s
  | i :: is => (s.dropMcast i rDeckReset).dropRepl is

/-- Drop every frame of a list of queues. -/
def State.dropQueues (s : State) : List Nat → State
  | [] => s
  | q :: qs =>
    let ids := s.queue q
    let s := (s.setQueue q []).dropQueuedAll rDeckReset ids
    ({ s with deficit := AMap.set 0 s.deficit q 0 } : State).dropQueues qs

/-- Drop what a port has taken from its queues: the frame in transmission is stomped, those in the egress stages and those
marked for the drop engine are dropped. -/
def State.dropPort (s : State) (p : Nat) : State :=
  let s := s.stompTx p rDeckReset
  let x := s.schedOf p
  let sl := portSlice p
  let s := s.setSched p { x with fifo := [], flushed := [], flushing := false }
  let s := s.setSlice sl ((s.slice sl).without x.fifo).tidy
  (s.dropQueuedAll rDeckReset x.fifo).dropQueuedAll rDeckReset x.flushed

def State.dropPorts (s : State) : List Nat → State
  | [] => s
  | p :: ps => (s.dropPort p).dropPorts ps

/-- Drop the punts held for receive queues 0 to n - 1. -/
def State.dropHeldPunts (s : State) : Nat → State
  | 0 => s
  | n + 1 =>
    let s := s.dropHeldPunts n
    s.dropPunts n rDeckReset (s.hq n).held

/-- Every frame and copy held in a half's Deck is dropped with DECK_RESET, and Deck initialises again (R259, R260). -/
def State.deckClear (s : State) (h : Nat) : State :=
  let ids := (s.pathOf h).arrivals
  let s := (s.setPath h { s.pathOf h with arrivals := [] }).dropArrivals h ids
  let ids := (s.pathOf h).repl
  let s := (s.setPath h { s.pathOf h with repl := [] }).dropRepl ids
  let s := s.dropQueues ((s.queues.map (·.1)).filter (fun q => decide (queueHalf q = h)))
  let s := s.dropPorts ((s.sched.map (·.1)).filter (fun p => decide (portHalf p = h)))
  let s := if h = 0 then s.dropHeldPunts 64 else s
  let d := s.deckOf h
  s.setDeck h { lists := d.lists, pools := d.pools, poolData := d.poolData, free := 0, initing := true }

/-! ### Block resets (R452) -/

/-- A block reset of these pages is ignored and not logged (R452). -/
def blkIgnores (p : Nat) : Bool :=
  p == pgChip || p == pgOrder || p == pgReset || p == pgForester || p == pgLifecycle

/-- The window command in progress on a page ends with ABORTED (R56), WBUSY falls and the reads that waited for it end. -/
def State.abortWindow (s : State) (p : Nat) : State :=
  match AMap.get none s.bus.posted p with
  | some { req := _, kind := .window .., ord := _, epoch := _ } =>
    let s : State := { s with bus := { s.bus with posted := AMap.set none s.bus.posted p none } }
    (s.setReg p 0x800C (BitVec.ofNat 32 (1 + 4 * 2))).endReads (fun q => decide (q = p)) State.readInReset
  | _ => s

/-- Enabled ports of a slice lose their alignment. -/
def State.loseAligns (s : State) : List Nat → State
  | [] => s
  | p :: ps => (if s.portAct p then s.loseAlign p else s).loseAligns ps

/-- A stage of a slice takes its next vector n times. -/
def State.stageAll (s : State) (sl : Nat) (d : Dir) (k : Nat) : Nat → State
  | 0 => s
  | n + 1 => (s.stageTake sl d k).stageAll sl d k n

/-- A stage completes the vectors it holds, before its block reset (05_parser_kerf.md R157). -/
def State.stageOut (s : State) (sl : Nat) (d : Dir) (k : Nat) : State :=
  s.stageAll sl d k ((s.slice sl).stage (stageKey d k)).length

/-- What a block reset does besides registers when it begins. -/
def State.blockEnter (s : State) (p : Nat) : State :=
  match pageBlk p, pageHalf p with
  | some .deck, some h => s.deckClear h.val
  | some .maint, some h => s.seqStop h.val
  | some .wlem, some h => s.seqStop h.val
  | some .wllpm, some h => s.seqStop h.val
  | some .kerfIn, _ => match pageSlice p with | some sl => s.stageOut sl .ingress (p % 32 - 2) | none => s
  | some .kerfOut, _ => match pageSlice p with | some sl => s.stageOut sl .egress (p % 32 - 10) | none => s
  | some .macpcs, _ => match pageSlice p with | some sl => s.loseAligns (sliceSlots sl) | none => s
  | _, _ => s

/-- The page's scope lies in a reset already in progress (R451). -/
def State.pageInReset (s : State) (p : Nat) : Bool :=
  (match pageHalf p with | some h => !s.halfUp h.val | none => false)
  || (match pageSlice p with | some sl => AMap.get false s.rst.slices sl | none => false)

/-- A block reset begins: PG_STAT.READY falls, a window command ends with ABORTED, PG_CTRL.BLK_RST reads 1. -/
def State.blockBegin (s : State) (p : Nat) : State :=
  let s := (s.setRf p 0x08 0 1 1).abortWindow p
  ({ s with rst := { s.rst with blocks := AMap.set false s.rst.blocks p true } } : State).blockEnter p

/-- BLK_RST written as 1, or asked for by Lookout (R451, R452). A parser that swaps its bank is reset once the swap has
completed (R140). -/
def State.blockStart (s : State) (p : Nat) : State :=
  if (pageBlk p).isNone ∨ blkIgnores p then s
  else if s.starting ∨ s.pageInReset p ∨ s.blockUp p = false ∨ s.rbit p 0x08 0 then s.rstReject rejBusy
  else match pageBlk p, pageSlice p with
    | some .parser, some sl => if (s.slice sl).swap then s.setRf p 0x08 0 1 1 else s.blockBegin p
    | _, _ => s.blockBegin p

/-- Registers of literal reset value that a block reset keeps: ring state (R490), the journals (06_tables.md R200), the event ring of the doorbells, the DMA
queues (Table 176), LO_LOG_WR and the log, which are no registers here. -/
def keptRegs (p : Nat) (k : Nat) : Bool :=
  if p = pgRing then
    let o := k % 0x10000
    decide (o = Reg.ringMaxage) || decide (Reg.rsStamped 0 ≤ o) && !(List.range 4).any (fun r =>
      decide (o = Reg.rsStamped r ∨ o = Reg.rsStamped r + 4))
  else match pageBlk p with
    | some .maint => decide (Reg.jrnRoutine 0 ≤ k % 0x10000 ∧ k % 0x10000 ≤ Reg.jrnExit 1)
    | _ => decide (9 ≤ p ∧ p ≤ 0x0F)

/-- Deck initialisation completes, unless DECK_INIT_DONE has told so before (08_deck_admission.md R259). -/
def State.initStill (s : State) (h : Nat) : State := if (s.deckOf h).initing then s.initDeck h else s

/-- What a block reset does besides registers when it completes. -/
def State.blockLeave (s : State) (p : Nat) : State :=
  match pageBlk p, pageHalf p with
  | some .deck, some h => s.initStill h.val
  | some .maint, some h => s.seqReady h.val
  | some .wlem, some h => s.seqReady h.val
  | some .wllpm, some h => s.seqReady h.val
  | some .ring, _ => { s with rings := { s.rings with rej := 0 } }
  | some .tally, some h =>
    s.setTally h.val { s.tallyOf h.val with
      seq := 0, flush := false, flushq := [], exportAll := false, expLeft := 0, ovfPend := false, clearing := false }
  | some .matrix, some h => s.setMatrix h.val { s.matrixOf h.val with swMx := false, swHist := false, swDrop := false }
  | some .half, some h => s.nbrsClear h.val
  | some .macpcs, _ => { s with ports := s.ports.map (fun e => if pgPort e.1 = p then (e.1, { e.2 with rej := 0 }) else e) }
  | some .cruiser, _ => s.setCruiser {}
  | some .firebreak, _ =>
    let f := s.fire
    ({ s with fire := { f with
        samples := [], dFast := 0, dSus := 0, dLong := 0, dTherm := 0, dUv := 0, dHint := 0, relAt := [], floorTold := []
        softTold := [], thermAt := none, uvRec := none, hintPend := none, hintEnd := none, boost := false, offset := 0
        volt := if f.hintPend.isSome ∨ f.hintEnd.isSome then f.base else f.volt } } : State).fireSettle
  | _, _ => s

/-- A block reset completes (R452): literal fields take their reset values, READY returns to 1. -/
def State.blockDone (s : State) (p : Nat) : State :=
  let waited := s.blockUp p && s.rbit p 0x08 0
  if s.blockUp p ∧ waited = false then s
  else
    let swapping := match pageBlk p, pageSlice p with | some .parser, some sl => (s.slice sl).swap | _, _ => false
    if swapping then s
    else
      let s := if waited then s.blockBegin p else s
      let s : State := { s with rst := { s.rst with blocks := AMap.set false s.rst.blocks p false } }
      let s := s.resetPage p false (keptRegs p)
      let s := (s.setRf p 0x08 0 1 0).blockLeave p
      if waited then s.raise p evSwapped else s

/-! ### Ports and lanes of a reset scope -/

/-- Ports of a list stop, their lanes DORMANT; hold says that the links fall with EN still 1, so that queues may hold (R279,
R457). -/
def State.portsStop (s : State) (hold : Bool) : List Nat → State
  | [] => s
  | p :: ps =>
    let was := s
    let s := if s.portEn p then
        let lanes := s.portLanes p
        let s := if hold then (s.recalCut p).rxAbort p else s
        let s := if hold then s.linkFall p true else s
        let s := if hold then (s.lanesOff lanes).setPort p {} else s.stopPort p
        s.spanStart was p false
      else s
    s.portsStop hold ps

/-- Enabled ports of a list restart bring-up from DORMANT under their PORT_CTRL (R456, R457). Each takes the stored PORT_CFG and is
checked again; a port not yet restarted counts as holding one lane (DESIGN CHOICE, log entry 74). -/
def State.portsStart (s : State) : List Nat → State
  | [] => s
  | p :: ps =>
    let was := s
    let s := if s.portEn p then (s.enablePort p).spanStart was p true else s
    s.portsStart ps

/-- Port slots 512h to 512h + 511. -/
def halfPorts (h : Nat) : List Nat := (List.range 512).map (512 * h + ·)

/-- A reset of the slots and lanes that sel holds of leaves nothing of PORT_STAT (Table 176, literal fields) and no adapted coefficient. -/
def State.portsGone (s : State) (sel : Nat → Bool) (lanes : List Nat) : State :=
  ({ s with ports := s.ports.filter (fun e => !sel e.1) } : State).lanesZero lanes

/-- The 25 pages of a slice (Table 12). -/
def slicePageList (sl : Nat) : List Nat := (List.range 25).map (slicePage sl)

/-- Every page of a half: its own eleven and its slices'. -/
def halfPageList (h : Nat) : List Nat :=
  (List.range 11).map (halfPage h) ++ (halfSlices h).flatMap slicePageList

/-! ### Half reset (R456) -/

/-- Drop frames of a slice's pipe that have a header vector. -/
def State.dropVecs (s : State) (sl : Nat) : List Nat → State
  | [] => s
  | i :: is => (s.dropIngress i sl rDeckReset).dropVecs sl is

/-- Drop frames that wait for the parser. -/
def State.dropFifo (s : State) : List Nat → State
  | [] => s
  | i :: is => (s.dropEarly i rDeckReset).dropFifo is

/-- Drop what the ingress side of a slice holds; a swap that has started completes (05_parser_kerf.md R140). -/
def State.dropPipe (s : State) (sl : Nat) : State :=
  let x := s.slice sl
  let vecs := (x.stages.filter (fun e => decide (e.1 < 8))).flatMap (·.2)
  let s := s.setSlice sl { bank := if x.swap then 1 - x.bank else x.bank }
  ((s.dropFifo x.fifo).dropFifo x.inj).dropVecs sl vecs

def State.dropPipes (s : State) : List Nat → State
  | [] => s
  | sl :: sls => (s.dropPipe sl).dropPipes sls

/-- ACTIVE of a source falls while it is latched: GONE in the entry that latched it, while the log holds that (14_lookout_faults.md R398). -/
def LookoutS.markGone (lo : LookoutS) (n : Nat) : LookoutS :=
  let k := AMap.get 0 lo.entry n
  { lo with log := lo.log.map (fun e => if e.2.num = k ∧ k ≠ 0 ∧ AMap.get false lo.latched n then (e.1, { e.2 with gone := true }) else e) }

def LookoutS.markGoneAll (lo : LookoutS) : List Nat → LookoutS
  | [] => lo
  | n :: ns => (lo.markGone n).markGoneAll ns

/-- The sources of a half are inactive, and what they sent before is gone (R397). -/
def LookoutS.quiet (lo : LookoutS) (h : Nat) : LookoutS :=
  let mine := fun (n : Nat) => decide (sourceHalf n = some h)
  let lo := lo.markGoneAll ((lo.active.map (·.1)).filter mine)
  let lo := { lo with active := lo.active.filter (fun e => !mine e.1), level := lo.level.filter (fun e => !mine (e.1 / 32))
                      missed := lo.missed.filter (fun e => !mine e.1) }
  if h = 0 then { lo with qWest := [] } else { lo with qEast := [], held := [] }

/-- Window memories of a half that its reset clears (Table 176): exact-match, LPM, Tally, matrix, HBM. -/
def clearedMem (h : Nat) (p : Nat) : Bool :=
  p == pgWlem h || p == pgWllpm h || p == pgTally h || p == pgMatrix h || p == pgHbm h

/-- A half reset begins (R456). -/
def State.halfStart (s : State) (h : Nat) : State :=
  let s := ((s.portsStop false (halfPorts h)).portsGone (fun p => decide (portHalf p = h)) (halfPorts h)).channelDown
  let ids := (s.pathOf h).transit.map (·.frame)
  let s := ((s.setPath h { s.pathOf h with transit := [] }).moveHolders (1 - h) h ids).dropArrivals h ids
  let s := (s.deckClear h).dropPipes (halfSlices h)
  let s := s.fgLost h ((s.woodOf h).fg.toList ++ (s.woodOf h).fgNext)
  let s := { s with regs := resetRegs true (fun p => (halfPageList h).contains p) (fun _ => false) s.regs
                    mem := s.mem.filter (fun e => !clearedMem h (e.1 / 2 ^ 40)) }
  let w := s.woodOf h
  let t := s.tallyOf h
  let s := s.setWood h { salt0 := w.salt0, salt1 := w.salt1, bankmap := w.bankmap, retired := w.retired }
  let s := s.setTally h { salt0 := t.salt0, salt1 := t.salt1 }
  let s := (s.setMatrix h {}).setHbm h {}
  let s := (s.endReads (halfPageList h).contains State.readLost).dropSel (halfPageList h).contains
  let o := s.pathOf (1 - h)
  let s := s.setPath h { seqNext := (s.pathOf h).seqNext, seqExp := o.seqNext }
  let s : State := { s with
    lookout := s.lookout.quiet h
    bus := { s.bus with posted := s.bus.posted.filter (fun e => !(halfPageList h).contains e.1) }
    rst := { s.rst with
      half0 := s.rst.half0 || decide (h = 0), half1 := s.rst.half1 || decide (h = 1)
      halfGen := s.rings.gen
      slices := s.rst.slices.filter (fun e => decide (sliceHalf e.1 ≠ h))
      blocks := s.rst.blocks.filter (fun e => !(halfPageList h).contains e.1) } }
  match s.sweeping h with
  | some r => s.sweepReset h r
  | none => s

/-- The changes that wait for the East copy are made (R192). -/
def State.eastTakeAll (s : State) : List EastChange → State
  | [] => s
  | c :: cs => (s.eastTake c).eastTakeAll cs

/-- An entry of half g placed in half h with its tags, HIT and damping fields (R456). -/
def State.refillOne (s : State) (g h l : Nat) : State :=
  let w := s.emW g l 8
  match s.placeEntry h (fld w 0 8) (s.entryKey g l) (s.entryResult g l) w with
  | some (t, loc) => t.setEmW h loc 9 (s.emW g l 9)
  | none => s

def State.refillAll (s : State) (g h : Nat) : List Nat → State
  | [] => s
  | l :: ls => (s.refillOne g h l).refillAll g h ls

/-- The tables of half h are refilled from the other half (R456). -/
def State.refill (s : State) (h : Nat) : State :=
  let g := 1 - h
  let s := if h = 0 then ({ s with eastq := [] } : State).eastTakeAll s.eastq else { s with eastq := [] }
  let s := s.refillAll g h (s.emAll g)
  s.setWood h { s.woodOf h with lpm := (s.woodOf g).lpm }

/-- Stages of a half that leaves reset map ring r when it became current meanwhile. -/
def State.mapLateRing (s : State) (h r : Nat) : State :=
  if s.rst.halfGen < (s.ringRec r).gen then s.mapRing r ((halfSlices h).flatMap slicePages) else s

/-- Stages of a half that leaves reset map the rings that became current meanwhile (Table 86). -/
def State.mapLate (s : State) (h : Nat) : State :=
  (((s.mapLateRing h 0).mapLateRing h 1).mapLateRing h 2).mapLateRing h 3

/-- A half that leaves reset has the tags of rings in SWEEP again that the other half still held when its tables were refilled, and
reclaims them (07_rings.md R222). -/
def State.sweepAgain (s : State) (h : Nat) : State :=
  { s with rings := { s.rings with recs := s.rings.recs.map (fun e => (e.1,
      if e.2.st = .sweep then (if h = 0 then { e.2 with doneW := false } else { e.2 with doneE := false }) else e.2)) } }

/-- The half's logic is ready (R456): Deck and HBM work, the channel is up, the tables are refilled, HALF_BUSY clears, and the
ports restart bring-up. -/
def State.halfReady (s : State) (h : Nat) : State :=
  if s.halfUp h then s
  else
    let s : State := { s with rst := { s.rst with half0 := s.rst.half0 && decide (h ≠ 0), half1 := s.rst.half1 && decide (h ≠ 1) } }
    let s := s.setHbm h { s.hbmOf h with st := .ready }
    let s := (((s.initStill h).channelUp.refill h).sweepAgain h).mapLate h
    let s := if h = 1 then { s with raft := { s.raft with east := s.raftWest } } else s
    (s.raise pgReset evHalfDone).portsStart (halfPorts h)

/-- A write of RST_HALF (R451, R456). -/
def State.rstHalf (s : State) (v : Word) : State :=
  let h := fld v 0 1
  if fld v 16 16 ≠ 0x9204 then s.rstReject rejKey
  else if s.starting ∨ s.halfUp h = false then s.rstReject rejBusy
  else if s.halfUp (1 - h) = false then s.rstReject rejHalf
  else s.halfStart h

/-! ### Slice reset (R457) -/

/-- The parser of a slice runs n times. -/
def State.parseAll (s : State) (sl : Nat) : Nat → State
  | 0 => s
  | n + 1 => (s.parseNext sl).parseAll sl n

/-- Stages of a pipe from k on, n of them, complete the vectors they hold. -/
def State.drainStages (s : State) (sl : Nat) (d : Dir) (k : Nat) : Nat → State
  | 0 => s
  | n + 1 => (s.stageOut sl d k).drainStages sl d (k + 1) n

/-- The ingress FIFO and both pipes of a slice drain to their outcomes. -/
def State.drainSlice (s : State) (sl : Nat) : State :=
  let x := s.slice sl
  ((s.parseAll sl (x.fifo.length + x.inj.length)).drainStages sl .ingress 0 8).drainStages sl .egress 0 8

/-- Every line of a slice's flow cache is written back (R457): its deltas are applied to the store. -/
def State.linesBack (s : State) (h i : Nat) : List Nat → State
  | [] => s
  | k :: ks =>
    let t := s.tallyOf h
    let s := match AMap.get none t.lines k with
      | some l =>
        if l.rec_.pkts = 0 then s
        else
          let s := s.setTally h { t with lines := AMap.set none t.lines k (some l.cleared) }
          (match s.applyLine h i l.rec_ 0 with | some u => u | none => s.lineLost h i l.rec_)
      | none => s
    s.linesBack h i ks

/-- A slice reset begins (R457). -/
def State.sliceStart (s : State) (sl : Nat) : State :=
  let s := (s.portsStop true (sliceSlots sl)).portsGone (fun p => decide (portSlice p = sl)) (sliceSlots sl)
  let s := s.drainSlice sl
  let h := sliceHalf sl
  let i := sl % 16
  let s := s.linesBack h i (((s.tallyOf h).lines.map (·.1)).filter (fun k => decide (k / 65536 = i)))
  { s with rst := { s.rst with
      slices := AMap.set false s.rst.slices sl true
      blocks := s.rst.blocks.filter (fun e => !(slicePageList sl).contains e.1) } }

/-- A slice reset completes: its pages reset, and its enabled ports restart bring-up from DORMANT (R457). -/
def State.sliceReady (s : State) (sl : Nat) : State :=
  if AMap.get false s.rst.slices sl then
    let s := s.resetPages true (slicePageList sl)
    let s : State := { s with
      bus := { s.bus with posted := s.bus.posted.filter (fun e => !(slicePageList sl).contains e.1) }
      rst := { s.rst with slices := AMap.set false s.rst.slices sl false } }
    let s := s.endReads (slicePageList sl).contains State.readInReset
    (s.raise pgReset evSliceDone).portsStart (sliceSlots sl)
  else s

/-- A write of RST_SLICE (R451, R457). -/
def State.rstSlice (s : State) (v : Word) : State :=
  let sl := fld v 0 5
  if fld v 16 16 ≠ 0x9204 then s.rstReject rejKey
  else if s.starting ∨ s.sliceUp sl = false then s.rstReject rejBusy
  else s.sliceStart sl

/-! ### Chip and power-on reset (R449, R450, R453, Table 176) -/

/-- The RST_CAUSE bits (Table 177). -/
abbrev causePower : Nat := 1
abbrev causePin : Nat := 2
abbrev causeReg : Nat := 4
abbrev causeLookout : Nat := 8
abbrev causeDip : Nat := 16
abbrev causeLife : Nat := 32

/-- The registers of the always-on island that a chip reset keeps: RST_COUNT, one further, RT_SAVES, IO_SENSE. -/
def State.keptAlways (s old : State) : State :=
  let s := s.setReg pgReset Reg.rstCount (BitVec.ofNat 32 ((old.reg pgReset Reg.rstCount).toNat + 1))
  let s := s.setReg pgReset Reg.rtSaves (old.reg pgReset Reg.rtSaves)
  let io := fun (s : State) n => s.setReg pgChip (Reg.ioSense n) (old.reg pgChip (Reg.ioSense n))
  io (io (io (io s 0) 1) 2) 3

/-- The bytes of a summary slot hold a valid summary (14_lookout_faults.md R399, R400): its mark and FORMAT, a number that belongs to the
slot, and the CRC over the rest. -/
def sumValid (slot : Nat) (b : List Byte) : Bool :=
  decide (leAt b 0 4 = 0x4C4B4653) && decide (leAt b 4 4 = 1) && decide (leAt b 8 4 ≠ 0 ∧ leAt b 8 4 % 16 = slot)
  && decide (leAt b 0xFFC 4 = crc32cStd (b.take 0xFFC))

/-- The highest number of a valid summary in the MRAM, 0 with none (R400). -/
def MramS.lastSum (m : MramS) : Nat := m.sums.foldl (fun n e => if sumValid e.1 e.2 then max n (leAt e.2 8 4) else n) 0

/-- The latest entries of the log, 64 at most, oldest first. -/
def State.logTail (s : State) : List LogEntry :=
  let n := s.lookout.logN
  ((List.range 64).map (fun k => AMap.get {} s.lookout.log ((n + 1024 - 63 + k) % 1024))).filter (fun e =>
    decide (e.num ≠ 0 ∧ e.num ≤ n ∧ n < e.num + 64))

/-- The summary that the always-on island holds for a cause: its own copies of the bitmaps and of the latest log entries (R399). -/
def State.summary (s : State) (cause : Nat) (m : Message) : Summary :=
  { cause := cause, record := m, latched := s.lookout.latched, active := s.lookout.active, log := s.logTail }

/-- The summaries still to be written when a chip reset comes: those that an earlier one left, and the one asked for (R399). -/
def State.owedSums (s : State) : List Summary :=
  s.lookout.owed ++ (match s.lookout.fatal with | some (c, m) => [s.summary c m] | none => [])

/-- The MRAM when the device is reset: the enabled span ports end (16_forester_security.md R436). -/
def State.histEnd (s : State) : MramS :=
  { s.mram with hist := s.mram.hist.map (fun x => if s.spanOn x.pos then { x with lastOn := s.clk.up } else x) }

/-- A chip reset with a cause (Table 176, column Chip): the always-on state stays, the rest is as after power-on. -/
def State.chipReset (s : State) (cause : Nat) : State :=
  let lo := s.lookout
  let t : State := { State.reset with
    pending := s.pending, freeCtr := s.freeCtr, out := s.out, mram := s.histEnd, fuses := s.fuses
    clk := { up := s.clk.up }
    host := { perst := s.host.perst }
    fire := { rails := s.fire.rails, base := s.fire.base, volt := s.fire.volt, calAt := s.clk.up }
    forester := { flash := s.forester.flash }
    lookout := { level := lo.level.filter (fun e => decide (e.1 / 32 = 21)), owed := s.owedSums, dipAt := lo.dipAt, faultLow := lo.faultLow, pulseEnd := lo.pulseEnd
                 relPend := lo.relPend, nextNum := lo.nextNum }
    rst := { cause := cause, seqA := s.rst.seqA, seqB := s.rst.seqB, seqUsed := s.rst.seqUsed, porstAt := s.rst.porstAt
             chipAt := s.rst.chipAt, headSel := s.rst.pinHead, bootSrc := s.rst.pinSrc, pinHead := s.rst.pinHead
             pinSrc := s.rst.pinSrc, t0 := s.clk.up, tripped := s.rst.tripped } }
  t.keptAlways s

/-- The levels that the strap pins have (18_pins_electrical.md R480): the board holds them static between the rows that tell them. -/
def State.strapPins (s : State) (pins : PinSample) : State :=
  { s with rst := { s.rst with pinHead := pins.headSel, pinSrc := pins.bootSrc.val } }

/-- The straps as sampled (R450, R480): the levels of their pins. -/
def State.straps (s : State) (pins : PinSample) : State :=
  { s with rst := { s.rst with headSel := pins.headSel, bootSrc := pins.bootSrc.val
                               pinHead := pins.headSel, pinSrc := pins.bootSrc.val } }

/-- IO_SENSE(n) of a supply in mV (R473): a bank sensed at 1.7 V or above is on. -/
def ioWord (mv : Nat) : Nat := mv % 4096 + b2n (decide (1700 ≤ mv)) * 2 ^ 31

/-- A power-on reset (Table 176, column Power-on): the MRAM and the fuses stay, FAULT_N and the thermal trip are released. -/
def State.powerReset (s : State) (pins : PinSample) : State :=
  let t : State := { State.reset with
    pending := s.pending, freeCtr := s.freeCtr, out := s.out, mram := s.histEnd, fuses := s.fuses
    clk := { up := s.clk.up }
    host := { perst := s.host.perst }
    fire := { calAt := s.clk.up }
    forester := { flash := s.forester.flash }
    lookout := { nextNum := s.mram.lastSum + 1 }
    rst := { cause := causePower, t0 := s.clk.up, porstAt := s.rst.porstAt, chipAt := s.rst.chipAt } }
  let t := t.straps pins
  let io := fun (t : State) n => t.setReg pgChip (Reg.ioSense n) (BitVec.ofNat 32 (ioWord (pins.io.getD n 0)))
  let t := io (io (io (io t 0) 1) 2) 3
  let t := if s.lookout.faultLow then t.emit (.pin .faultN true) else t
  if s.rst.tripped then t.emit (.pin .thermtripN true) else t

/-! ### Measurements (16_forester_security.md R442) -/

/-- A measurement register; it starts as 64 bytes of zero. -/
def State.meas (s : State) (i : Nat) : List Byte := AMap.get (zeros 64) s.forester.meas i

/-- M := SHA3-512(M, record). -/
def State.extend (s : State) (i : Nat) (record : List Byte) : State :=
  { s with forester := { s.forester with meas := AMap.set (zeros 64) s.forester.meas i (sha3 (s.meas i ++ record)) } }

/-- The record of M6: LC_STATE, then LC_CTRL, 4 bytes each, big-endian (Table 168). -/
def State.lifeRecord (s : State) : List Byte :=
  beBytes 4 (s.fuses.life + 4 * b2n s.fuses.wipeDone) ++ beBytes 4 (s.reg pgLifecycle Reg.lcCtrl).toNat

/-- The record of M0: the ROM identity and the fuse words that govern security, as they stand (Table 168). -/
def State.romRecord (s : State) : List Byte :=
  Config.romRecord s.fuses.life s.fuses.wipeDone (s.fuses.keys.map (·.2)) ((List.range 6).map (fun t => AMap.get 0 s.fuses.svn (t + 1)))

/-! ### Start-up (R453, Table 173) -/

/-- A pair of salts drawn from the random source; they differ from each other (06_tables.md R175, 10_telemetry.md R306). -/
def drawSalts (n : Nat) : Word × Word :=
  let a : Word := (Config.random n).setWidth 32
  let b : Word := (Config.random (n + 1)).setWidth 32
  (a, if b = a then a + 1 else b)

/-- From FUSES to WIPE at t0 + 1 ms: fuses loaded, M0 and M6 extended, salts drawn; LC_CHG at the first start in a new life-cycle
state (16_forester_security.md, LIFECYCLE page). -/
def State.enterWipe (s : State) : State :=
  if s.rst.phase = .fuses then
    let n := s.freeCtr
    let wood := fun (s : State) h k => s.setWood h { s.woodOf h with salt0 := (drawSalts k).1, salt1 := (drawSalts k).2 }
    let tally := fun (s : State) h k => s.setTally h { s.tallyOf h with salt0 := (drawSalts k).1, salt1 := (drawSalts k).2 }
    let s := tally (tally (wood (wood s 0 n) 1 (n + 2)) 0 (n + 4)) 1 (n + 6)
    let s : State := { s with freeCtr := n + 8, rst := { s.rst with phase := .wipe } }
    let s := (s.extend 0 s.romRecord).extend 6 s.lifeRecord
    s.raiseIf (decide (s.rst.cause = causeLife)) pgLifecycle 0
  else s

/-- The end of the wipe at t0 + 25 ms: every memory zeroed, both stacks READY, both clusters load firmware. -/
def State.enterBoot (s : State) : State :=
  let s := s.enterWipe
  if s.rst.phase = .wipe then
    let s := (s.setHbm 0 { s.hbmOf 0 with st := .ready }).setHbm 1 { s.hbmOf 1 with st := .ready }
    let f := s.forester
    { s with rst := { s.rst with phase := .boot }
             forester := { f with west := { f.west with st := .boot }, east := { f.east with st := .boot } } }
  else s

/-- START_UP_WIPE_DONE (R453). -/
def execStartUpWipeDone (s : State) : Out := s.run (·.enterBoot)

end Sys2Proof.Machine
end

