-- ==== Sys2Proof/Machine/LookOps.lean ====
section
/-! DEFINITION. Lookout's shared operations (14_lookout_faults.md R386 to R400): a message taken, latches, reactions, FAULT_N,
the log, the fatal summary. -/

namespace Sys2Proof.Machine

/-! ### Events of the LOOKOUT page -/
abbrev evMsgLost : Nat := 0
abbrev evClrMiss : Nat := 1
abbrev evTrapLost : Nat := 2
abbrev evFatalWr : Nat := 3
abbrev evPinOn : Nat := 4

/-- Sources that exist (Table 150). -/
def sourceUsed (n : Nat) : Bool :=
  if n < 32 then decide (n ≤ 26) else if n < 96 then decide (n % 32 ≤ 14)
  else if n < 480 then decide ((n - 96) % 12 ≠ 11) else decide (n < 512)

/-- A source is a page (R391). -/
def sourceIsPage (n : Nat) : Bool := (sourcePage n 0).isSome

/-- KIND of the messages of a source that is no page (Table 149). -/
def sourceKind (n : Nat) : Nat :=
  if n = 20 ∨ n = 23 ∨ n = 24 then 6 else if n = 21 ∨ n = 22 then 5
  else if 32 ≤ n ∧ n < 96 then
    (if n % 32 = 11 then 6 else if n % 32 = 12 then 4 else if n % 32 = 13 then 5 else 0)
  else 0

def State.setLook (s : State) (lo : LookoutS) : State := { s with lookout := lo }

/-- LO_SRC(n). -/
def State.loSrc (s : State) (n : Nat) : Word := s.reg pgLookout (Reg.loSrc n)
/-- ACTIVE, LATCHED and GONE of a source (R389). -/
def State.srcActive (s : State) (n : Nat) : Bool := AMap.get false s.lookout.active n
def State.srcLatched (s : State) (n : Nat) : Bool := AMap.get false s.lookout.latched n
def State.srcGone (s : State) (n : Nat) : Bool := s.srcLatched n && !s.srcActive n

/-! ### Messages and entries as words (Tables 148, 153) -/

def msgType : MsgType → Nat
  | .rise => 0 | .fall => 1 | .pulse => 2

/-- Word 0 of a message. -/
def msgWord0 (m : Message) : Word :=
  BitVec.ofNat 32 (m.src % 512 + m.code % 32 * 2 ^ 9 + msgType m.typ * 2 ^ 14 + m.kind % 8 * 2 ^ 16 + m.inst % 16 * 2 ^ 19
    + b2n m.dlost * 2 ^ 23 + m.seq % 256 * 2 ^ 24)

/-- The four words of a message, as LO_REC holds them. -/
def msgWords (m : Message) : List Word :=
  [msgWord0 m, m.info, BitVec.ofNat 32 m.time.toNat, BitVec.ofNat 32 (m.time.toNat / 2 ^ 32)]

/-- The eight words of a log entry (Table 153); an entry never written reads 0. -/
def LogEntry.words (e : LogEntry) : List Word :=
  if e.num = 0 then List.replicate 8 0
  else
    [BitVec.ofNat 32 e.num] ++ msgWords e.msg
      ++ [BitVec.ofNat 32 (e.sev % 4 + b2n e.gone * 4 + b2n e.first * 8 + e.react % 32 * 16), 0, BitVec.ofNat 32 e.num]

/-! ### FAULT_N (R395) -/

/-- PULSE in nanoseconds: 10 to 10,000 us. -/
def State.pulseNs (s : State) : Nat := max 10 (min 10000 (s.rf pgLookout Reg.loPin 0 14)) * 1000

/-- A PIN latch. -/
def State.pinLatch (s : State) : State :=
  let lo := s.lookout
  let s := if lo.faultLow then s else s.emit (.pin .faultN false)
  let s := s.setLook { lo with faultLow := true, pulseEnd := some (s.clk.up + s.pulseNs), relPend := false }
  (s.count pgLookout Reg.loPins 1).raise pgLookout evPinOn

/-- FAULT_N rises. -/
def State.pinRise (s : State) : State :=
  (s.setLook { s.lookout with faultLow := false, pulseEnd := none, relPend := false }).emit (.pin .faultN true)

/-- A write of LO_PIN_REL. -/
def State.pinRelease (s : State) : State :=
  if s.lookout.faultLow = false then s
  else if s.lookout.pulseEnd.isSome then s.setLook { s.lookout with relPend := true }
  else s.pinRise

/-! ### The fatal summary asked for (R391, R399) -/

/-- The record of a summary that has cause bits c and record r when a latch or event with a cause bit and record m joins it: that of the
first latch with CHIP_RST, of two on one edge that of the lower-numbered source; without one that of the first FATAL latch (R393, R400). -/
def State.joinRecord (s : State) (c : Nat) (r : Message) (cause : Nat) (m : Message) : Message :=
  if cause = 1 then
    (if c % 2 = 0 ∨ (s.lookout.chipAt = some s.clk.up ∧ m.src < r.src) then m else r)
  else if cause = 2 ∧ c % 4 = 0 then m
  else r

/-- A summary with a cause bit and record is asked for; one already asked for takes the bit (R393). -/
def State.askFatal (s : State) (cause : Nat) (m : Message) : State :=
  s.setLook (match s.lookout.fatal with
    | some (c, r) => { s.lookout with fatal := some (Nat.lor c cause, s.joinRecord c r cause m)
                                      chipAt := if cause = 1 ∧ c % 2 = 0 then some s.clk.up else s.lookout.chipAt }
    | none => { s.lookout with fatal := some (cause, m), chipAt := if cause = 1 then some s.clk.up else none })

/-- The record of a summary whose cause is no latch: 0 (Table 154). -/
def noRecord : Message := { src := 0, code := 0, typ := .rise, kind := 0, inst := 0 }

/-- A latch with CHIP_RST: the summary, then a chip reset. -/
def State.askChip (s : State) (m : Message) : State :=
  let s := s.askFatal 1 m
  s.setLook { s.lookout with chipRst := Nat.lor s.lookout.chipRst causeLookout }

/-- A latch of a source whose SEV is FATAL, at most once in 10 ms. -/
def State.askSevere (s : State) (m : Message) : State :=
  let due := match s.lookout.fatalAt with | some t => decide (t + 10000000 ≤ s.clk.up) | none => true
  if due then
    let s := s.askFatal 2 m
    s.setLook { s.lookout with fatalAt := some s.clk.up }
  else s

/-! ### Reactions (R391, Table 151) -/

/-- A trap with the record (R394). -/
def State.trap (s : State) (m : Message) : State :=
  if s.lookout.traps.length < 64 then s.setLook { s.lookout with traps := s.lookout.traps ++ [m] }
  else (s.count pgLookout Reg.loTrapLost 1).raise pgLookout evTrapLost

/-- The reactions of a source, as bits 4 to 8 of a log entry's word 5: IRQ, TRAP, BLK_RST, CHIP_RST, PIN; BLK_RST reads 0 for a
source that is no page. -/
def State.reactions (s : State) (n : Nat) : Nat :=
  let w := s.loSrc n
  fld w 0 2 + (if sourceIsPage n then fld w 2 1 * 4 else 0) + fld w 3 2 * 8

/-- The reactions that a latch of a source takes: no block reset while a chip reset started by Lookout is pending (R393). -/
def State.reactsWith (s : State) (n : Nat) : Nat :=
  let r := s.reactions n
  if r / 4 % 2 = 1 ∧ (s.lookout.chipRst ≠ 0 ∨ r / 8 % 2 = 1) then r - 4 else r

/-- Take the reactions enabled for the source of a message, on the edge of its latch. -/
def State.react (s : State) (m : Message) : State :=
  let r := s.reactsWith m.src
  let on := fun i => decide (r / 2 ^ i % 2 = 1)
  let s := if on 0 then s.msix m.src else s
  let s := if on 1 then s.trap m else s
  let s := if on 4 then s.pinLatch else s
  let s := if on 3 then s.askChip m else s
  let s := if fld (s.loSrc m.src) 5 2 = 3 then s.askSevere m else s
  match sourcePage m.src m.inst with
  | some p => if on 2 then s.blockStart p else s
  | none => s

/-! ### The long log (16_forester_security.md R435) -/

/-- The head copies an entry into its long log under the next number; without a head nothing copies. -/
def State.longCopy (s : State) (e : LogEntry) : State :=
  let f := s.forester
  let n := f.longN + 1
  { s with forester := { f with longN := n, longLog := AMap.set {} f.longLog (n % 65536) { e with num := n } } }

/-- The Lookout entries from number n on, k of them, enter the long log while the log still holds them. -/
def State.longFrom (s : State) (n : Nat) : Nat → State
  | 0 => s
  | k + 1 =>
    let e := AMap.get {} s.lookout.log (n % 1024)
    (if e.num = n then s.longCopy e else s).longFrom (n + 1) k

/-- The head copies every Lookout entry that it has not copied. -/
def State.longSync (s : State) : State :=
  if s.headReaches = false then s
  else
    let c := s.forester.copied
    let s := s.longFrom (c + 1) (s.lookout.logN - c)
    { s with forester := { s.forester with copied := s.lookout.logN } }

/-! ### A message taken (R389, R398) -/

/-- The log entry of a message. -/
def State.logMsg (s : State) (m : Message) (first : Bool) (react : Nat) : State :=
  let n := s.lookout.logN + 1
  let e : LogEntry := { num := n, msg := m, sev := fld (s.loSrc m.src) 5 2, first := first, react := react }
  (s.setLook { s.lookout with logN := n, log := AMap.set {} s.lookout.log (n % 1024) e }).longSync

/-- Lookout takes a message (R389, R391, R398). -/
def State.takeMsg (s : State) (m : Message) : State :=
  let n := m.src
  let lo := s.lookout
  let was := s.srcLatched n
  let latch := !was && decide (m.typ ≠ .fall)
  let fell := decide (m.typ = .fall) && s.srcActive n
  let act := match m.typ with | .rise => true | .fall => false | .pulse => s.srcActive n
  let lo := { lo with active := AMap.set false lo.active n act, latched := AMap.set false lo.latched n (was || latch) }
  let lo := if latch then { lo with recs := AMap.set noRecord lo.recs n m } else lo
  let logs := bit (s.loSrc n) 7
  let lo := if latch then { lo with entry := AMap.set 0 lo.entry n (if logs then lo.logN + 1 else 0) } else lo
  let lo := if fell && was then lo.markGone n else lo
  let s := (s.setLook lo).count pgLookout (Reg.loCnt n) 1
  let s := if logs then s.logMsg m latch (if latch then s.reactsWith n else 0) else s
  if latch then s.react m else s

/-- Take the front message of a queue. -/
def State.takeNext (s : State) (q : MsgQueue) : State :=
  match s.lookout.q q with
  | [] => s
  | m :: ms => (s.setLook (s.lookout.setQ q ms)).takeMsg m

/-! ### Levels (R396) -/

/-- Lookout sees the level line of a source: that of an East source over the Flume management channel. -/
def State.lineSeen (s : State) (n : Nat) : Bool := decide (sourceQueue n ≠ .east) || s.flumeUp

/-- A rise of a level line for which no message arrived (R396): a record of CODE 0, DLOST 1, the time of this edge. -/
def State.levelRise (s : State) (n : Nat) : State :=
  if AMap.get false s.lookout.missed n && s.lineSeen n then
    let s := s.setLook { s.lookout with missed := AMap.set false s.lookout.missed n false }
    let m : Message := { src := n, code := 0, typ := .rise, kind := 0, inst := 0, dlost := true
                         time := BitVec.ofNat 64 (tsOf s.now) }
    let lo := s.lookout
    let latch := !s.srcLatched n
    let lo := { lo with active := AMap.set false lo.active n true, latched := AMap.set false lo.latched n true }
    let lo := if latch then { lo with recs := AMap.set noRecord lo.recs n m, entry := AMap.set 0 lo.entry n 0 } else lo
    let s := s.setLook lo
    if latch then s.react m else s
  else s

/-! ### Clears (R390) -/

/-- LATCHED of a source clears when it is not active, else the clear is a miss. -/
def State.clrOne (s : State) (n : Nat) : State :=
  if s.srcActive n then
    (if s.srcLatched n then (s.count pgLookout Reg.loClrMiss 1).raise pgLookout evClrMiss else s)
  else s.setLook { s.lookout with latched := AMap.set false s.lookout.latched n false }

def State.clrAll (s : State) : List Nat → State
  | [] => s
  | n :: ns => (s.clrOne n).clrAll ns

/-- A write of LO_CLR. -/
def State.loClr (s : State) (v : Word) : State :=
  if bit v 31 then s.clrAll (s.lookout.latched.map (·.1)) else s.clrOne (fld v 0 9)

/-! ### The fatal summary written (R399, R400) -/

/-- The highest reading of a die's sensors. -/
def State.dieTemp (s : State) (h : Nat) : Int :=
  (List.range 16).foldl (fun m i => max m (signed 8 (s.rf pgFirebreak (Reg.fbTemp (16 * h + i)) 0 8)))
    (signed 8 (s.rf pgFirebreak (Reg.fbTemp (16 * h)) 0 8))

/-- The bytes of a bitmap of 512 sources. -/
def bitmapBytes (m : AMap Bool) : List Byte :=
  (List.range 64).map (fun k => BitVec.ofNat 8 ((List.range 8).map (fun i => b2n (AMap.get false m (8 * k + i)) * 2 ^ i)).sum)

/-- The slot of 4 KiB that summary number n is, written now (Table 154). -/
def State.sumBytes (s : State) (x : Summary) (n : Nat) : List Byte :=
  let logs := x.log.flatMap (fun e => wordsLe e.words)
  let head := leBytes 4 0x4C4B4653 ++ leBytes 4 1 ++ leBytes 4 n ++ leBytes 4 x.cause ++ leBytes 8 (tsOf s.now)
    ++ leBytes 4 ((s.dieTemp 0 % 256).toNat + (s.dieTemp 1 % 256).toNat * 256) ++ leBytes 4 (s.rf pgFirebreak Reg.fbVcore 16 16)
    ++ (if x.cause % 4 = 0 then zeros 16 else wordsLe (msgWords x.record)) ++ zeros 16
  let body := head ++ bitmapBytes x.latched ++ bitmapBytes x.active ++ zeros 64 ++ bytesAt logs 0 2048 ++ zeros 1788
  body ++ leBytes 4 (crc32cStd body)

/-- A slot whose write has failed keeps a CRC that does not match (R399); which of its bytes stand is not stated (DESIGN CHOICE, log entry
88). -/
def spoilCrc (b : List Byte) : List Byte := b.take 0xFFC ++ leBytes 4 (2 ^ 32 - 1 - leAt b 0xFFC 4)

/-- LO_FATAL (Table 155): the newest valid summary. -/
def State.loFatal (s : State) : Word :=
  let n := s.mram.lastSum
  BitVec.ofNat 32 (if n = 0 then 0 else n % 2 ^ 31 + 2 ^ 31)

/-- A summary is written, or its write fails: FATAL_WR and LO_FATAL when it succeeds. -/
def State.sumWrite (s : State) (x : Summary) (ok : Bool) : State :=
  let n := s.lookout.nextNum
  let b := s.sumBytes x n
  let s : State := { s with mram := { s.mram with sums := AMap.set [] s.mram.sums (n % 16) (if ok then b else spoilCrc b) } }
  (s.setLook { s.lookout with nextNum := n + 1 }).raiseIf ok pgLookout evFatalWr

/-- The always-on island ends the write of a summary (R399): of one that a chip reset has overtaken first, else of the one asked for;
the chip reset that waits for that one proceeds in either case. -/
def State.fatalWritten (s : State) (ok : Bool) : State :=
  match s.lookout.owed, s.lookout.fatal with
  | x :: xs, _ => (s.setLook { s.lookout with owed := xs }).sumWrite x ok
  | [], some (c, m) =>
    let s := (s.setLook { s.lookout with fatal := none, chipAt := none }).sumWrite (s.summary c m) ok
    if s.lookout.chipRst = 0 then s else s.chipReset s.lookout.chipRst
  | [], none => s

end Sys2Proof.Machine
end

