-- ==== Sys2Proof/Machine/Firebreak.lean ====
section
/-! DEFINITION. The commands of Firebreak: the estimate, caps, temperature, supplies, hints (15_firebreak_power.md). -/

namespace Sys2Proof.Machine

def State.setFire (s : State) (f : FireS) : State := { s with fire := f }

/-! ### The estimate (R403, R405, R411) -/

/-- P in 0.25 W from a raw estimate in 0.25 W (R403): GAIN in 1/32,768, OFS in W; the registers hold 16 bits. -/
def calibrate (cal : Word) (raw : Nat) : Nat :=
  let p : Int := ((fld cal 0 16 * raw / 32768 : Nat) : Int) + 4 * signed 16 (fld cal 16 16)
  min 65535 p.toNat

/-- The hottest die sensor (R414). -/
def State.hottest (s : State) : Int := max (s.dieTemp 0) (s.dieTemp 1)

/-- A temperature threshold: above 120 it acts as 120 (R414). -/
def State.tempThr (s : State) (o : Nat) : Int := min 120 (s.rf pgFirebreak o 0 8 : Nat)

/-- The conditions of boost permission (R411), the depth apart. -/
def State.boostConds (s : State) : Bool :=
  !s.fixedMode && decide (s.effDepth = 0)
  && decide ((s.reg pgFirebreak Reg.fbPSus).toNat < 4 * s.rf pgFirebreak Reg.fbBoostCeil 0 12)
  && decide (s.hottest < s.tempThr Reg.fbTempWarn)

/-- A sample of the estimate (R403, R405). -/
def State.powerSample (s : State) : State :=
  let p := calibrate (s.reg pgFirebreak Reg.fbCal) (Config.rawPower s.freeCtr)
  let l := (p :: s.fire.samples).take 500000
  let s := s.drawn.setFire { s.fire with samples := l }
  let w := fun (s : State) o n => s.setReg pgFirebreak o (BitVec.ofNat 32 (avgOf l n).floor)
  let s := w (w (w (w (w s Reg.fbPNow 1) Reg.fbPFast 10) Reg.fbPShort 50) Reg.fbPSus 5000) Reg.fbPLong 500000
  (s.setFire { s.fire with boost := s.boostConds }).fireSettle

/-- POWER_SAMPLE (R403). -/
def execPowerSample (s : State) : Out := s.run (·.powerSample)

/-! ### Caps (R407, R408, R412, Table 159) -/

def capIdx : Cap → Nat
  | .fast => 0 | .sus => 1 | .long => 2

def FireS.capDepth (f : FireS) : Cap → Nat
  | .fast => f.dFast | .sus => f.dSus | .long => f.dLong

def FireS.setCapDepth (f : FireS) (d : Nat) : Cap → FireS
  | .fast => { f with dFast := d } | .sus => { f with dSus := d } | .long => { f with dLong := d }

/-- Release intervals in nanoseconds. -/
def capRelease : Cap → Nat
  | .fast => 100000 | .sus => 100000 | .long => 10000000

/-- HYST in per cent; 0 acts as 1. -/
def State.hyst (s : State) : Nat := orElse0 (s.rf pgFirebreak Reg.fbHyst 0 4) 1

/-- The depth an apply or a release gives; the fast controller goes from 0 to 3 and from 3 to 0. -/
def depthUp (c : Cap) (d : Nat) : Nat := if c = .fast ∧ d = 0 then 3 else min 10 (d + 1)
def depthDown (c : Cap) (d : Nat) : Nat := if c = .fast ∧ d ≤ 3 then 0 else d - 1

/-- Every slice runs at its MIN_STEP: no lever is left (R407). -/
def State.atFloor (s : State) : Bool := (List.range 32).all (fun sl => decide (s.kerfStep sl = s.minStep sl))

/-- A breach of requester k in fixed-frequency mode: SOFT and FB_SOFT, once per breach (R412). -/
def State.soft (s : State) (k : Nat) : State :=
  if AMap.get false s.fire.softTold k then s
  else
    ((s.setFire { s.fire with softTold := AMap.set false s.fire.softTold k true }).count pgFirebreak Reg.fbSoft 1).raise
      pgFirebreak evSoft

/-- A controller's depth changes: CAP_ON and FB_CAP_EVTS when it leaves 0, CAP_OFF when it returns. -/
def State.moveCap (s : State) (c : Cap) (d : Nat) : State :=
  let was := s.fire.capDepth c
  let s := s.setFire (s.fire.setCapDepth d c)
  let s := if was = 0 ∧ d ≠ 0 then (s.count pgFirebreak Reg.fbCapEvts 1).raise pgFirebreak evCapOn
    else if was ≠ 0 ∧ d = 0 then s.raise pgFirebreak evCapOff else s
  s.fireSettle

/-- FLOOR, once per breach (R407). -/
def State.floorCheck (s : State) (c : Cap) : State :=
  let k := capIdx c
  if s.breached c then
    (if s.atFloor ∧ s.fixedMode = false ∧ AMap.get false s.fire.floorTold k = false then
      (s.setFire { s.fire with floorTold := AMap.set false s.fire.floorTold k true }).raise pgFirebreak evFloor
    else s)
  else s.setFire { s.fire with floorTold := AMap.set false s.fire.floorTold k false
                               softTold := AMap.set false s.fire.softTold k false }

/-- The least time between two releases of a cap has passed. -/
def State.releaseDue (s : State) (c : Cap) : Bool :=
  match AMap.get none s.fire.relAt (capIdx c) with | some t => decide (t + capRelease c ≤ s.clk.up) | none => true

/-- An evaluation point of a cap (R408). -/
def State.capEvaluate (s : State) (c : Cap) : State :=
  let k := capIdx c
  let s := s.floorCheck c
  let cap := s.capOf c
  let d := s.fire.capDepth c
  if s.breached c ∧ (s.capCheck c).above cap then
    (if s.fixedMode then s.soft k else s.moveCap c (depthUp c d))
  else if s.breached c = false ∧ (s.capCheck c).below (cap * (100 - s.hyst)) 100 ∧ d ≠ 0 ∧ s.releaseDue c = true ∧ s.fixedMode = false then
    (s.setFire { s.fire with relAt := AMap.set none s.fire.relAt k (some s.clk.up) }).moveCap c (depthDown c d)
  else s

/-- CAP_EVALUATE (R408). -/
def execCapEvaluate (c : Cap) (s : State) : Out := s.run (·.capEvaluate c)

/-! ### Calibration (R404) -/

/-- A write of FB_CAL. -/
def State.fbCalWrite (s : State) (v : Word) : State :=
  (s.setReg pgFirebreak Reg.fbCal v).setFire { s.fire with calAt := s.clk.up, calTold := false }

/-- CAL_STALE (R404): once when FB_CAL has not been written for 100 ms. -/
def execCalStale (s : State) : Out :=
  s.run (fun s => s.onlyIf (!s.fire.calTold && decide (s.fire.calAt + 100000000 ≤ s.clk.up))
    (fun s => (s.setFire { s.fire with calTold := true }).raise pgFirebreak evCalStale))

/-- DEFERRAL_LIMIT (R409): 1 s of deferral in the last 2 s. -/
def execDeferralLimit (s : State) : Out :=
  s.run (fun s => s.onlyIf (s.deferred && decide (1000000000 ≤ s.deferRecent))
    (fun s => (s.setFire { s.fire with deferFree := s.clk.up + 1000000000 }).fireSettle))

/-! ### Fixed-frequency mode (R412) -/

/-- A write of FB_CTRL.FIXED: every requester is at depth 0 under FIXED, and every controller starts at 0 after it; a cap controller
that so returns to 0 sets CAP_OFF (R408). -/
def State.fixedWrite (s : State) (on : Bool) : State :=
  if s.fixedMode = on then s
  else
    let f := s.fire
    let s := s.setRf pgFirebreak Reg.fbCtrl 0 1 (b2n on)
    let s := s.raiseIf (on && decide (f.dFast ≠ 0 ∨ f.dSus ≠ 0 ∨ f.dLong ≠ 0)) pgFirebreak evCapOff
    let f := s.fire
    (s.setFire { f with dFast := 0, dSus := 0, dLong := 0, dTherm := 0, dUv := 0
                        dHint := if on then 0 else b2n f.hintEnd.isSome
                        floorTold := [], softTold := [], boost := f.boost && !on }).fireSettle

/-! ### Droop (R413) -/

/-- An onset of half h, with the nanoseconds it stretched. -/
def State.droop (s : State) (h ns : Nat) : State :=
  let s := (s.count64 pgFirebreak (Reg.fbDroopCnt h) 1).count64 pgFirebreak (Reg.fbDroopNs h) ns
  let quiet := match AMap.get none s.fire.droopAt h with | some t => decide (t + 1000000 ≤ s.clk.up) | none => true
  if quiet then
    (s.setFire { s.fire with droopAt := AMap.set none s.fire.droopAt h (some s.clk.up) }).sourceMsg (32 + 32 * h + 14) 0 .pulse
      (sourceKind (32 + 32 * h + 14)) 0
  else s

/-- DROOP_ONSET (R413). -/
def execDroopOnset (h : Half) (ns : Nat) (s : State) : Out := s.run (·.droop h.val ns)

/-! ### Temperature (R414, R415, R416) -/

/-- Sensor i reads t: FB_TEMP(i), FB_TEMP_MAX, the warning and its end. -/
def State.sensor (s : State) (i : Nat) (t : Int) : State :=
  let s := s.setReg pgFirebreak (Reg.fbTemp i) (BitVec.ofNat 32 (t % 256).toNat)
  let s := if signed 8 (s.rf pgFirebreak Reg.fbTempMax 0 8) < t then
      s.setReg pgFirebreak Reg.fbTempMax (BitVec.ofNat 32 (t % 256).toNat) else s
  let on := AMap.get false s.fire.tempWarn i
  let warn := s.tempThr Reg.fbTempWarn
  if on = false ∧ warn ≤ t then
    ((s.setFire { s.fire with tempWarn := AMap.set false s.fire.tempWarn i true }).sourceMsg 22 i .rise 5 0).raise pgFirebreak
      evTempWarn
  else if on ∧ t ≤ warn - 3 then
    (s.setFire { s.fire with tempWarn := AMap.set false s.fire.tempWarn i false }).sourceMsg 22 i .fall 5 0
  else s

def State.sensors (s : State) (i : Nat) : List Int → State
  | [] => s
  | t :: ts => if 32 ≤ i then s else (s.sensor i t).sensors (i + 1) ts

/-- The stack of half h reads t (R415). -/
def State.hbmSensor (s : State) (h : Nat) (t : Int) : State :=
  let s := s.setReg (pgHbm h) Reg.hbTemp (BitVec.ofNat 32 (t % 256).toNat)
  let on := AMap.get false s.fire.hbmHot h
  let thr := s.tempThr Reg.fbHbmThr
  if on = false ∧ thr ≤ t then
    (s.setFire { s.fire with hbmHot := AMap.set false s.fire.hbmHot h true }).raise pgFirebreak evHbmHot
  else if on ∧ t ≤ thr - 3 then s.setFire { s.fire with hbmHot := AMap.set false s.fire.hbmHot h false }
  else s

/-- A reading of the sensors (R414, R415); the head in office then sets the VDD_CORE setpoint from fused voltage tables and the die
temperatures (DESIGN CHOICE that it does so at this row, log entry 91). -/
def State.tempSample (s : State) (t : TempSample) : State :=
  let s := s.sensors 0 t.dies
  let s := if s.halfUp 0 then s.hbmSensor 0 t.hbm0 else s
  let s := if s.halfUp 1 then s.hbmSensor 1 t.hbm1 else s
  s.onlyIf (s.headReaches && s.ioBank 1) (·.headSetpoint)

/-- TEMP_SAMPLE (R414). -/
def execTempSample (t : TempSample) (s : State) : Out := s.run (·.tempSample t)

/-- The thermal controller's turn (R414). -/
def State.thermalStep (s : State) : State :=
  let thr := s.tempThr Reg.fbTempThr
  let hot := s.hottest
  let f := s.fire
  let after : Nat → Bool := fun (ns : Nat) => match f.thermAt with | some t => decide (t + ns ≤ s.clk.up) | none => true
  if thr ≤ hot then
    (if after 1000000 = false then s
     else if s.fixedMode then (s.setFire { f with thermAt := some s.clk.up }).soft 3
     else ((s.setFire { f with dTherm := min 10 (f.dTherm + 1), thermAt := some s.clk.up }).fireSettle).raise pgFirebreak evTempThr)
  else
    let s := s.setFire { f with softTold := AMap.set false f.softTold 3 false }
    if hot ≤ thr - 3 ∧ f.dTherm ≠ 0 ∧ after 10000000 = true then
      (s.setFire { s.fire with dTherm := f.dTherm - 1, thermAt := some s.clk.up }).fireSettle
    else s

/-- THERMAL_STEP (R414). -/
def execThermalStep (s : State) : Out := s.run (·.thermalStep)

/-- The thermal trip (R416): THERMTRIP_N low, the summary, every clock but the always-on one stopped, the PCIe link down. -/
def State.thermalTrip (s : State) : State :=
  let s := (s.pcieDown.emit (.pin .thermtripN false)).askFatal 4 noRecord
  { s with rst := { s.rst with tripped := true } }

/-- THERMAL_TRIP (R416): the comparators and the always-on island act whatever else the device does, but for a power-on reset. -/
def execThermalTrip (_h : Half) (s : State) : Out :=
  s.runAlways (fun s => s.onlyIf (!s.rst.tripped && s.rst.porstAt.isNone) (·.thermalTrip))

/-! ### Supplies (R417 to R419) -/

/-- STEP of FB_UV as it acts: 8 to 16 (R418). -/
def State.uvStep (s : State) : Nat := max 8 (min 16 (s.rf pgFirebreak Reg.fbUv 0 5))

/-- VDD_CORE falls to its warning level (R418). -/
def State.uvWarn (s : State) : State :=
  let s := (s.count pgFirebreak Reg.fbUvCnt 1).raise pgFirebreak evUv
  if s.fixedMode then s
  else (s.setFire { s.fire with dUv := 2 + (16 - s.uvStep), uvRec := none }).fireSettle

/-- A rail crosses its warning level: CODE is the rail (Table 160). -/
def State.supplyWarning (s : State) (rail : Nat) (high : Bool) : State :=
  let on := AMap.get false s.fire.rails rail
  let s := if on then s
    else (s.setFire { s.fire with rails := AMap.set false s.fire.rails rail true }).sourceMsg 21 rail .rise 5 0
  if rail = 0 ∧ high = false then s.uvWarn else s

/-- SUPPLY_WARNING (R417). -/
def execSupplyWarning (rail : Fin 11) (high : Bool) (s : State) : Out := s.run (·.supplyWarning rail.val high)

/-- A rail has been back inside its warning level for 10 us: its warning clears with a FALL. -/
def State.supplyRecovery (s : State) (rail : Nat) : State :=
  if AMap.get false s.fire.rails rail then
    let f := s.fire
    (s.setFire { f with
      rails := AMap.set false f.rails rail false
      uvRec := if rail = 0 ∧ f.dUv ≠ 0 then some (s.clk.up - 10000) else f.uvRec }).sourceMsg 21 rail .fall 5 0
  else s

/-- SUPPLY_RECOVERY (R417). -/
def execSupplyRecovery (rail : Fin 11) (s : State) : Out := s.run (·.supplyRecovery rail.val)

/-- UV_RELEASE (R418): 100 us after VDD_CORE has recovered above the warning level. -/
def execUvRelease (s : State) : Out :=
  s.run (fun s => match s.fire.uvRec with
    | some t =>
      if t + 100000 ≤ s.clk.up then (s.setFire { s.fire with dUv := 0, uvRec := none }).fireSettle else s
    | none => s)

/-- A reset dip within 50 us of another causes no second summary and no second reset. -/
def State.dipFresh (s : State) : Bool :=
  match s.lookout.dipAt with | some t => decide (t + 50000 ≤ s.clk.up) | none => true

/-- A reset dip: the summary with CAUSE bit 3, then a chip reset. -/
def State.resetDip (s : State) : State :=
  let s := s.setLook { s.lookout with dipAt := some s.clk.up }
  let s := s.askFatal 8 noRecord
  s.setLook { s.lookout with chipRst := Nat.lor s.lookout.chipRst causeDip }

/-- RESET_DIP (R419): the always-on island monitors the rails whatever else the device does, but for a power-on reset and a thermal trip. -/
def execResetDip (_sram : Bool) (s : State) : Out :=
  s.runAlways (fun s => s.onlyIf (!s.rst.tripped && s.rst.porstAt.isNone && s.dipFresh) (·.resetDip))

/-! ### Hints (R420, R421) -/

/-- A write of FB_HINT: DURATION us, or HEAVY_US when it is 0. -/
def State.hintWrite (s : State) (d : Nat) : State := s.hintStart (if d = 0 then s.heavyUs else d)

/-- The hint window opens for the time of the hint that waits. -/
def State.hintOpen (s : State) (us : Nat) : State :=
  (s.setFire { s.fire with hintPend := none, hintEnd := some (s.clk.up + us * 1000), dHint := b2n (!s.fixedMode) }).fireSettle

/-- HINT_ACK (R420): over PMBus, which bank M1 powers (18_pins_electrical.md R473). -/
def execHintAck (s : State) : Out :=
  s.run (fun s => match s.fire.hintPend with | some x => s.onlyIf (s.ioBank 1) (·.hintOpen x.1) | none => s)

/-- HINT_WINDOW_END (R420): the base setpoint is written back. -/
def execHintWindowEnd (s : State) : Out :=
  s.run (fun s => match s.fire.hintEnd with
    | some t =>
      if t ≤ s.clk.up then
        (s.setFire { s.fire with hintEnd := none, dHint := 0, offset := 0
                                 volt := if s.ioBank 1 then s.fire.base else s.fire.volt }).fireSettle
      else s
    | none => s)

/-- PMBUS_ERR (R421): 200 us without an acknowledgement. -/
def execPmbusErr (s : State) : Out :=
  s.run (fun s => match s.fire.hintPend with
    | some x =>
      if x.2 + 200000 ≤ s.clk.up then
        let s := (s.setFire { s.fire with offset := 0, volt := if s.ioBank 1 then s.fire.base else s.fire.volt }).hintOpen x.1
        (s.raise pgFirebreak evPmbusErr).sourceMsg 26 0 .pulse 0 0
      else s
    | none => s)

/-- ALERT_N (18_pins_electrical.md R482): the level that the line has had for 1 us; source 26 reports a change. -/
def execAlertN (level : Bool) (s : State) : Out :=
  s.run (fun s => s.onlyIf (AMap.get false s.lookout.level (32 * 26 + 8) == level) (fun s =>
    if level then s.sourceMsg 26 8 .fall 0 0 else s.sourceMsg 26 8 .rise 0 0))

end Sys2Proof.Machine
end

