-- ==== Sys2Proof/Machine/Lanes.lean ====
section
/-! DEFINITION. The commands of lanes and ports (03_lanes_ports.md). -/

namespace Sys2Proof.Machine

/-! ### PLLs (R62) -/

/-- PLL_RATE_APPLY (R62). -/
def execPllRateApply (m : Macro) (pll : Pll) (s : State) : Out :=
  s.run (fun s => s.onlyIf (s.sliceUp (m.val / 4)) (·.pllApply m.val (pllIdx pll)))

/-- A PLL reaches lock: lanes that wait for it leave DORMANT. -/
def State.pllLock (s : State) (m k : Nat) : State :=
  let x := s.macro_ m
  let y := x.pll k
  if y.rate ≠ 0 ∧ y.lock = false then
    (s.setMacro m (x.setPll k { y with lock := true })).lanesWake ((List.range 8).map (8 * m + ·))
  else s

/-- PLL_LOCK (R62). -/
def execPllLock (m : Macro) (pll : Pll) (s : State) : Out :=
  s.run (fun s => s.onlyIf (s.sliceUp (m.val / 4)) (·.pllLock m.val (pllIdx pll)))

/-- A PLL loses lock; PLL_UNLOCK when an enabled port uses it. -/
def State.pllUnlock (s : State) (m k : Nat) : State :=
  let x := s.macro_ m
  let y := x.pll k
  if y.lock then
    (s.setMacro m (x.setPll k { y with lock := false })).raiseIf (s.pllUsed m k) (pgMacro m) evPllUnlock
  else s

/-- PLL_UNLOCK (R62). -/
def execPllUnlock (m : Macro) (pll : Pll) (s : State) : Out := s.run (·.pllUnlock m.val (pllIdx pll))

/-! ### Live recalibration -/

/-- RECAL_LIVE_DONE (R84). -/
def execRecalLiveDone (p : Port) (s : State) : Out :=
  s.run (fun s => s.onlyIf (s.port p.val).recalLive (fun s => (s.liveEnd p.val).raise (pgPort p.val) evRecalDone))

/-! ### Lanes (R73, R75) -/

/-- Signal and CDR lock on a lane: from ACQUIRE to ADAPT, or to ACTIVE with the stored coefficients when ADAPT = 0b10. The frequency
offset that the CDR finds, and the eye of a lane that is ACTIVE at once, are values that the spec leaves to the lane (Table 33). -/
def State.laneLock (s : State) (l : Nat) : State :=
  let x := s.lane l
  if x.st = .dormant then s
  else if x.st = .acquire then
    let y := { x with signal := true, cdr := true, ppm := Config.adapted s.freeCtr % 65536 }
    if s.laneAdapt l = 2 then
      let y := { y with st := .active, eye := Config.adapted (s.freeCtr + 1) % 65536 }
      ((s.drawn.drawn.setLane l y).laneCtle l).laneUp l
    else s.drawn.setLane l { y with st := .adapt }
  else s.setLane l { x with signal := true }

/-- SIGNAL_AND_CDR_LOCK (R75). -/
def execSignalAndCdrLock (l : Lane) (s : State) : Out := s.run (·.laneLock l.val)

/-- Loss of signal on a lane (R73): counted and reported, and ADAPT and ACTIVE are left. In STANDBY the CDR stays frozen
(Table 26). -/
def State.laneLos (s : State) (l : Nat) : State :=
  let x := s.lane l
  if x.signal then
    let s := s.setLane l { x with signal := false, cdr := x.cdr && decide (x.st = .standby) }
    let s := (s.count (pgLane l) (Reg.lnLosCnt (l % 32)) 1).raise (pgLane l) evLos
    s.laneLost l
  else s

/-- LOSS_OF_SIGNAL (R73). -/
def execLossOfSignal (l : Lane) (s : State) : Out := s.run (·.laneLos l.val)

/-- A lane's CDR loses lock. -/
def State.laneUnlock (s : State) (l : Nat) : State :=
  let x := s.lane l
  if x.cdr ∧ (x.st = .adapt ∨ x.st = .active) then
    ((s.setLane l { x with cdr := false }).raise (pgLane l) evCdrUnlock).laneLost l
  else s

/-- CDR_UNLOCK (R75). -/
def execCdrUnlock (l : Lane) (s : State) : Out := s.run (·.laneUnlock l.val)

/-- The coefficients of a lane in ADAPT have converged; a lane whose ADAPT has become 0b10 meanwhile takes no coefficient from the
adaptation, but the CTLE code of LN_RXCFG (R72). -/
def State.laneConverged (s : State) (l : Nat) (m : LaneMeas) : State :=
  let x := s.lane l
  if x.st = .adapt then
    let y := { x with st := .active, eye := m.eye.toNat, ppm := m.ppm.toNat }
    let s := if s.laneAdapt l = 2 then (s.setLane l y).laneCtle l
      else s.setLane l { y with ctle := m.ctle.toNat, calCtle := m.ctle.toNat, coef := m.coef }
    s.laneUp l
  else s

/-- ADAPT_CONVERGED (R75). -/
def execAdaptConverged (l : Lane) (meas : LaneMeas) (s : State) : Out := s.run (·.laneConverged l.val meas)

/-! ### Links (R77, R78, R82) -/

/-- The span side of the link-up conditions (R115). -/
def State.spanUp (s : State) (p : Nat) : Bool :=
  let x := s.span (spanPos p)
  !s.isSpan p || (!x.inputFailed && decide (x.dst = .sync) && !x.ais && !x.rdi)

/-- The link-up conditions of a port have held for 10 us (R77, R78, R82, R83, R89, R115). -/
def State.mayLinkUp (s : State) (p : Nat) : Bool :=
  s.portAct p && s.lanesActive p && (s.port p).aligned && !(s.port p).local_ && !(s.port p).remote && !s.prbsTx p && !bit (s.portCtrl p) 6 && decide (cfgLpbk (s.port p).cfg ≠ 2)
  && !s.fecHolds p && !(s.port p).linkUp && s.spanUp p && decide ((s.port p).condAt + 10000 ≤ s.clk.up)

/-- Link up (R77): LINK_CHG, and the port's queues follow (R279). -/
def State.linkRise (s : State) (p : Nat) : State :=
  let s := s.setPort p { s.port p with linkUp := true }
  (s.raise (pgPort p) evLinkChg).queuesRise p

/-- LINK_UP (R77). -/
def execLinkUp (p : Port) (s : State) : Out :=
  s.run (fun s => s.onlyIf (s.portReady p.val && s.mayLinkUp p.val) (·.linkRise p.val))

/-- The onset of a remote fault received (R78): it reaches an aligned port, whose local fault has cleared. Each command is an onset;
one that stood had ended before it (log entry 75). -/
def State.remoteOnset (s : State) (p : Nat) : State :=
  let s := s.realign p
  let s := s.setPort p { s.port p with remote := true, condAt := s.clk.up }
  let s := (s.count (pgPort p) (Reg.rfCnt (p % 32)) 1).raise (pgPort p) evRfOn
  s.linkFall p true

/-- REMOTE_FAULT (R78); a span port takes it from its RDI defect (R115). -/
def execRemoteFault (p : Port) (s : State) : Out :=
  s.run (fun s => s.onlyIf (s.portReady p.val && s.portAct p.val && s.lanesActive p.val && !s.isSpan p.val)
    (·.remoteOnset p.val))

/-- Alignment is lost while the lanes stay locked (R77, R78). The port was aligned until then, so an Ethernet port's local fault that
stood had ended, and this is an onset; a degraded FEC (R82), and on a span port a defect (R115), holds one (log entry 75). -/
def State.localFault (s : State) (p : Nat) : State :=
  let x := s.port p
  (s.setPort p { x with local_ := x.local_ && (s.isSpan p || s.fecHolds p) }).loseAlign p

/-- LOCAL_FAULT (R77, R78). -/
def execLocalFault (p : Port) (s : State) : Out :=
  s.run (fun s => s.onlyIf (s.portReady p.val && s.portAct p.val && s.lanesActive p.val) (·.localFault p.val))

/-- Add one window's codewords by corrected symbols, from bin i on. -/
def State.fecBins (s : State) (p i : Nat) : List Nat → State
  | [] => s
  | n :: ns => if 16 ≤ i then s else (s.count (pgPort p) (Reg.fecBin (p % 32) i) n).fecBins p (i + 1) ns

/-- Symbols corrected in codewords listed by their number of corrected symbols, from i on. -/
def corrSyms : Nat → List Nat → Nat
  | _, [] => 0
  | i, n :: ns => i * n + corrSyms (i + 1) ns

/-- The FEC counters after a window (Table 31). -/
def State.fecCounts (s : State) (p : Nat) (w : FecWindow) : State :=
  let j := p % 32
  let bins := w.bins.take 16
  let s := s.count64 (pgPort p) (Reg.fecCw j) (bins.sum + w.uncorr)
  let s := s.count64 (pgPort p) (Reg.fecCorrCw j) (bins.drop 1).sum
  let s := s.count64 (pgPort p) (Reg.fecUncorrCw j) w.uncorr
  let s := s.count64 (pgPort p) (Reg.fecCorrSym j) (corrSyms 0 bins)
  s.fecBins p 0 bins

/-- FEC_DEGRADED rises: the event, the reverted live recalibration, the link when DOWN is 1 (R82, R84). -/
def State.fecDegrade (s : State) (p : Nat) (down : Bool) : State :=
  let x := s.port p
  let s := s.setPort p { x with fecDegr := true, calm := 0 }
  let s := s.raise (pgPort p) evFecDegr
  let s := if x.recalLive ∧ x.fecDegr = false then
      (s.lanesRevert (s.portLanes p)).raise (pgPort p) evRecalRevert else s
  if down then (s.localOnset p).linkFall p true else s

/-- A window below the threshold (R82). -/
def State.fecCalm (s : State) (p : Nat) (down : Bool) : State :=
  let x := s.port p
  if x.fecDegr = false then s
  else if down = false ∨ 10 ≤ x.calm + 1 then
    s.setPort p { x with fecDegr := false, calm := 0, local_ := x.local_ && !(down && x.aligned && !s.isSpan p)
                         condAt := if down then s.clk.up else x.condAt }
  else s.setPort p { x with calm := x.calm + 1 }

/-- A window without codewords. -/
def windowSilent (w : FecWindow) : Bool := decide (w.bins.sum + w.uncorr = 0)

/-- The end of a 1 ms window (R82); codewords in it say that the port has found them, so it is aligned (R77). -/
def State.fecWindow (s : State) (p : Nat) (w : FecWindow) : State :=
  let r := s.reg (pgPort p) (Reg.fecDegr (p % 32))
  let s := if windowSilent w then s else s.realign p
  let s := s.fecCounts p w
  if fld r 0 16 ≠ 0 ∧ fld r 0 16 ≤ w.uncorr then s.fecDegrade p (bit r 16) else s.fecCalm p (bit r 16)

/-- FEC_DEGR_WINDOW (R82): of a port whose mode has FEC; codewords come only over lanes that are all ACTIVE. -/
def execFecDegrWindow (p : Port) (w : FecWindow) (s : State) : Out :=
  s.run (fun s => s.onlyIf (s.portReady p.val && s.portEn p.val
    && (windowSilent w || (s.portAct p.val && s.lanesActive p.val)) && decide (3 ≤ cfgMode (s.port p.val).cfg)) (·.fecWindow p.val w))

/-- FEC_DEGR is written (R82): when DOWN is taken away from a port that a degraded FEC holds down, its local fault ends. -/
def State.fecWrite (s old : State) (p : Nat) : State :=
  if old.fecHolds p ∧ s.fecHolds p = false then
    let x := s.port p
    s.setPort p { x with local_ := x.local_ && (s.isSpan p || !x.aligned), condAt := s.clk.up }
  else s

end Sys2Proof.Machine
end

