-- ==== Sys2Proof/Machine/Matrix.lean ====
section
/-! DEFINITION. The sweeps of the MATRIX pages (10_telemetry.md R301 to R303). A sweep clears its pairs as it starts;
its MX_CTRL bit falls when it completes (DESIGN CHOICE, log entry 4). -/

namespace Sys2Proof.Machine

/-- CLR_MX (R301): every pair of the half and both totals. -/
def State.clrMx (s : State) (h : Nat) : State :=
  let s := s.setMatrix h { s.matrixOf h with cells := [], swMx := true }
  (s.setReg64 (pgMatrix h) Reg.mxTotalPkts 0).setReg64 (pgMatrix h) Reg.mxTotalBytes 0

/-- CLR_HIST (R302): every histogram of the half. -/
def State.clrHist (s : State) (h : Nat) : State := s.setMatrix h { s.matrixOf h with hist := [], swHist := true }

/-- CLR_DROP (R303): every drop pair of the half. -/
def State.clrDrop (s : State) (h : Nat) : State := s.setMatrix h { s.matrixOf h with drops := [], swDrop := true }

/-- A sweep runs (Table 116). -/
def MatrixS.sweeping (m : MatrixS) : Bool := m.swMx || m.swHist || m.swDrop

/-- The sweeps of a half complete (R301). -/
def State.clrDone (s : State) (h : Nat) : State :=
  (s.setMatrix h { s.matrixOf h with swMx := false, swHist := false, swDrop := false }).raise (pgMatrix h) 0

/-- CLR_DONE (R301). -/
def execClrDone (h : Half) (s : State) : Out :=
  s.run (fun s => s.onlyIf (s.matrixOf h.val).sweeping (·.clrDone h.val))

end Sys2Proof.Machine
end

