-- ==== Sys2Proof/Machine/RegRead.lean ====
section
/-! DEFINITION. What each register reads (02_registers.md R36, R39, R41, R43): stored fields, and the status registers that show
the state of a block (the register tables of chapters 2 to 18). -/

namespace Sys2Proof.Machine

/-! ### Readiness (R37, 17_reset_retained.md R453, R455) -/

/-- The pages accessible before restore, and while it runs (Table 173, R455). -/
def openAtBoot : Blk → Bool
  | .chip | .reset | .lifecycle | .forester | .hostdma => true
  | _ => false
def openAtRestore (b : Blk) : Bool := openAtBoot b || decide (b = .order) || decide (b = .time)

/-- A requester is the head cluster. -/
def State.isHead (s : State) (r : Requester) : Bool :=
  match reqCluster r with | some c => decide (s.forester.holder = c + 1) | none => false

/-- The page's Deck initialises, so that it is not ready (08_deck_admission.md R259). -/
def State.deckInits (s : State) (p : Nat) : Bool :=
  match pageBlk p, pageHalf p with
  | some .deck, some h => (s.deckOf h.val).initing
  | _, _ => false

/-- PG_STAT.READY of a page toward a requester. -/
def State.pageReady (s : State) (r : Requester) (p : Nat) : Bool :=
  match pageBlk p with
  | none => false
  | some b =>
    s.blockUp p && !s.pageInReset p && !s.deckInits p &&
    (match s.rst.phase with
     | .run => true
     | .restore => openAtRestore b || s.isHead r
     | _ => openAtBoot b)

/-- The posting buffer of a page is in use. -/
def State.wbusy (s : State) (p : Nat) : Bool := (AMap.get none s.bus.posted p).isSome

/-! ### The common header (Tables 13, 14) -/

def State.rdHeader (s : State) (r : Requester) (p o : Nat) : Option Nat :=
  match pageBlk p with
  | none => none
  | some b =>
    if o = Reg.pgId then some (p + b2n (blkSlow b) * 2 ^ 13 + blkType b * 2 ^ 16 + pageInst p * 2 ^ 24)
    else if o = Reg.pgVer then some 0x100
    else if o = Reg.pgStat then
      some (b2n (s.pageReady r p) + 2 * b2n (s.wbusy p) + 4 * b2n (bit (s.evt p) 23) + 8 * b2n (bit (s.evt p) 22))
    else if o = Reg.pgSrc then some (pageSrc p)
    else none

/-! ### Lanes and ports (Tables 30 to 34) -/

/-- PORT_STAT.STATE (Table 28). -/
def State.portState (s : State) (p : Nat) : Nat :=
  if s.portEn p = false then 0
  else if s.portPwr p = 2 then 1
  else if s.portPwr p = 1 then 2
  else if s.lanesActive p = false then 3
  else if (s.port p).linkUp then 5 else 4

/-- PORT_STAT (Table 32); a slot that is no enabled port shows REJ alone (R90). -/
def State.portStat (s : State) (p : Nat) : Nat :=
  let x := s.port p
  let rej := x.rej % 16 * 2 ^ 12
  if s.portEn p = false then rej
  else
    b2n x.linkUp + 2 * b2n x.local_ + 4 * b2n x.remote + 8 * b2n x.aligned + 16 * b2n x.fecDegr
    + 32 * b2n (x.recalLive || x.recalFull) + 64 * b2n x.cfgPend + s.portState p * 2 ^ 8 + rej
    + (bitMap 8 (fun i => (s.portLanes p).contains (p + i) && decide ((s.lane (p + i)).st = .active))) * 2 ^ 16

def State.rdMacpcs (s : State) (sl o : Nat) : Option Nat :=
  if o = Reg.macLinkUp then some (bitMap 32 (fun j => s.portEn (32 * sl + j) && (s.port (32 * sl + j)).linkUp))
  else if o = Reg.portActive then some (bitMap 32 (fun j => s.portEn (32 * sl + j)))
  else
    let j := (o - 0x1000) / 0x100
    let d := o % 0x100
    let p := 32 * sl + j
    if d = 4 then some ((s.portCtrl p &&& 0x47).toNat + 8 * b2n (s.port p).recalLive + 16 * b2n (s.port p).recalFull)
    else if d = 8 then some (s.portStat p)
    else if 0x14 ≤ d ∧ s.portEn p = false then some 0
    else none

/-- LN_STAT.STATE (Table 26). -/
def laneCode : LaneSt → Nat
  | .dormant => 0 | .acquire => 1 | .adapt => 2 | .active => 3 | .standby => 4

/-- The PLL that clocks a lane is locked: that of the port the lane belongs to. -/
def State.lanePll (s : State) (l : Nat) : Bool := match s.laneOwner l with | some p => s.pllLocked p | none => false

def State.rdLanes0 (s : State) (sl o : Nat) : Option Nat :=
  let l := 32 * sl + (o - 0x1000) / 0x100
  let d := o % 0x100
  let x := s.lane l
  if d = 0x10 then
    some (laneCode x.st + 8 * b2n x.signal + 16 * b2n x.cdr + 32 * b2n (s.lanePll l) + 64 * b2n (s.laneTapsBad l)
      + (if x.st = .dormant then 0 else x.ctle % 32) * 2 ^ 7 + x.eye % 65536 * 2 ^ 16)
  else if d = 0x14 then some (x.ppm % 65536)
  else if d = 0x1C then some (x.fwBank % 2)
  else none

def State.rdLanes1 (s : State) (sl o : Nat) : Option Nat :=
  let m := 4 * sl + (o - 0x1000) / 0x400
  let d := (o - 0x1000) % 0x400
  let x := s.macro_ m
  if o < 0x1000 ∨ 0x2000 ≤ o then none
  else if d = 8 then
    some (b2n x.a.lock + 2 * b2n x.b.lock + 4 * b2n (decide (x.a.rate ≠ s.pllAsked m 0))
      + 8 * b2n (decide (x.b.rate ≠ s.pllAsked m 1)) + x.a.rate % 8 * 2 ^ 4 + x.b.rate % 8 * 2 ^ 8)
  else if d = 0x10 then some (x.ver0 % 65536 + x.ver1 % 65536 * 65536)
  else none

/-! ### Span ports (Tables 44 to 48) -/

/-- SP_STAT.DEFECTS. -/
def SpanS.defects (x : SpanS) : Nat := b2n x.los + 2 * b2n x.lof + 4 * b2n x.lom + 8 * b2n x.ais + 16 * b2n x.rdi

def frameCode : FrameSt → Nat
  | .off => 0 | .hunt => 1 | .inFrame => 2

/-- SP_STAT (Table 46). -/
def State.spStat (s : State) (q : Nat) : Nat :=
  let x := s.span q
  frameCode x.fst + 4 * b2n x.mlock + 8 * b2n (decide (x.dst = .sync)) + x.defects * 2 ^ 4 + 2 ^ 9 * b2n (s.unpaired q)
  + 2 ^ 10 * b2n x.shadowOn + 2 ^ 11 * b2n (s.chConflict q) + 2 ^ 12 * b2n x.sselRx + 2 ^ 13 * b2n x.paisRx
  + 2 ^ 14 * b2n x.srdiRx + 2 ^ 15 * b2n x.prdiRx + min 8 x.trk.length * 2 ^ 16 + x.exp % 256 * 2 ^ 24

def State.rdSpan (s : State) (sl o : Nat) : Option Nat :=
  if o = Reg.spanEn then some (bitMap 8 (fun j => s.spanOn (8 * sl + j)))
  else if o = Reg.spanDef then
    some (bitMap 8 (fun j => s.spanOn (8 * sl + j) && decide ((s.span (8 * sl + j)).defects ≠ 0)))
  else if o < 0x1000 ∨ 0x2000 ≤ o then none
  else
    let q := 8 * sl + (o - 0x1000) / 0x200
    let d := o % 0x200
    if d = 0x14 then some (if s.spanOn q then s.spStat q else 0)
    else if 0x40 ≤ d ∧ d < 0x100 ∧ s.spanOn q = false then some 0
    else none

def State.rdOhsp (s : State) (o : Nat) : Option Nat :=
  let n := (o - 0x40) / 0x10
  if (o - 0x40) % 0x10 = 4 then
    some (b2n (s.ohRuns n)
      + ((List.range 32).filter (fun t => (s.chHolder n t).isSome)).length % 64 * 2 ^ 8)
  else none

/-! ### Parser and stages (Tables 61, 63) -/

def State.rdParser (s : State) (sl o : Nat) : Option Nat :=
  let x := s.slice sl
  if o = Reg.ppCtrl then some (b2n x.swap)
  else if o = Reg.ppStat then some (x.bank % 2 + 2 * b2n x.swap)
  else none

def State.rdKerf (s : State) (p o : Nat) : Option Nat :=
  if o = Reg.ksStat then
    some (b2n (s.bankRef p 0) + 2 * b2n (s.bankRef p 1) + 4 * b2n (s.rbit p Reg.ksStat 2))
  else none

/-! ### Tables (Tables 79 to 83) -/

/-- Slots in use of a half's exact-match table, the stash included; a double entry takes two. -/
def State.emSlots (s : State) (h : Nat) : Nat := ((s.emAll h).map (fun l => if s.isDouble h l then 2 else 1)).sum

def State.rdWlem (s : State) (h o : Nat) : Option Nat :=
  let w := s.woodOf h
  if o = Reg.wlStat then some (s.emSlots h + b2n w.boost * 2 ^ 23 + s.stashUsed h * 2 ^ 24)
  else if o = Reg.wlSpare then
    some (bitMap 8 w.spareUsed + (match w.mig with | some m => m.bank % 256 * 2 ^ 8 + 2 ^ 16 | none => 0))
  else if 0x200 ≤ o ∧ o < 0x580 then some ((AMap.get none w.bankmap ((o - 0x200) / 4)).getD ((o - 0x200) / 4))
  else none

def State.rdWllpm (s : State) (h o : Nat) : Option Nat :=
  let fam := fun (b : Bool) => ((s.woodOf h).lpm.filter (fun x => bit (s.lpmLt h x.tbl) 1 == b)).length
  if o = Reg.lpmUnits then some (s.lpmUnits h)
  else if o = Reg.lpmV4 then some (fam false)
  else if o = Reg.lpmV6 then some (fam true)
  else none

def State.rdMaint (s : State) (h o : Nat) : Option Nat :=
  let w := s.woodOf h
  if o = Reg.mtStat then
    some (b2n w.fg.isSome + 2 * b2n (decide (s.rf (pgMaint h) (Reg.jrnRoutine 1) 0 8 ≠ 0)) + 4 * b2n w.fgHeld + 8 * b2n w.bgHeld)
  else none

def State.rdTcam (s : State) (sl o : Nat) : Option Nat :=
  if o = Reg.tcValid then some ((s.tcEntries sl).filter (fun e => tcValid (s.tcW sl e 24))).length else none

/-! ### Rings (Tables 89, 90) -/

def ringCode : RingSt → Nat
  | .free => 0 | .current => 1 | .retiring => 2 | .sweep => 3

/-- RING_STAT (Table 89). -/
def State.ringStat (s : State) : Nat :=
  let x := s.rings
  let out := ((List.range 4).filter (fun r => decide ((s.ringRec r).st = .retiring ∨ (s.ringRec r).st = .sweep))).length
  x.cur.val + x.staging.val * 4 + 16 * b2n x.waiting.isSome
  + 32 * b2n (match x.waiting with | some c => s.commitFenced c || s.stagedRuns && c.ready.isNone | none => false)
  + out % 4 * 2 ^ 6 + x.rej % 16 * 2 ^ 8 + bitMap 4 s.ringLive * 2 ^ 12 + s.ringOldest * 2 ^ 16

def State.rdRing (s : State) (o : Nat) : Option Nat :=
  if o = Reg.ringStat then some s.ringStat
  else if o = Reg.ringGen then some s.rings.gen
  else if o < 0x100 then none
  else
    let r := (o - 0x100) / 0x40
    let d := o % 0x40
    let x := s.ringRec r
    if d = 0 then some (ringCode x.st + 4 * b2n x.expired + 8 * b2n x.peerHold)
    else if d = 4 then some x.sample
    else if d = 8 then some x.gen
    else if d = 0x10 then some (tsOf x.tCur)
    else if d = 0x18 then some (tsOf x.tRet)
    else if d = 0x20 then some (s.logSize 0 r)
    else if d = 0x24 then some (s.logSize 1 r)
    else none

/-! ### Deck (Tables 97, 98) -/

/-- Cells on a list and in its cache: withdrawn ones that initialisation threaded no longer count. -/
def DeckS.listCells (d : DeckS) (i : Nat) : Nat :=
  let l := d.list i
  let row := skipPools d.pools l.row 8
  let gone := (d.tags.filter (fun e => decide (e.2 = 0xFFFF ∧ e.1 % 64 = i ∧ row ≤ e.1 / 64) && !rowInPool d.pools (e.1 / 64))).length
  l.cells d.pools - gone

/-- Bitmap word w of a pool (R248). The bit of a withdrawn cell reads 1: it is never free (DESIGN CHOICE, log entry 93). -/
def DeckS.poolWord (d : DeckS) (n w : Nat) : Nat :=
  let x := AMap.get {} d.pools n
  bitMap 32 (fun j => decide (32 * w + j < x.size) && decide (d.tag (x.base + 32 * w + j) ≠ 0))

/-- Key of a register held per requester: requester, page, offset. -/
def selBusKey (r : Requester) (p o : Nat) : Nat := reqIdx r * 2 ^ 32 + p * 0x10000 + o

/-- A register held per requester (R248, R286). -/
def State.selOf (s : State) (r : Requester) (p o : Nat) : Nat := (AMap.get 0 s.bus.sel (selBusKey r p o)).toNat

def State.rdDeck (s : State) (r : Requester) (h o : Nat) : Option Nat :=
  let d := s.deckOf h
  if o = Reg.dkFree then some d.free
  else if o = Reg.dkLevel then
    let held := d.hold.any (fun e => e.2.isSome)
    some (d.level + 4 * b2n held + 8 * b2n (held && decide (0 < d.free)))
  else if o = Reg.dkWithdrawn then some d.withdrawn
  else if o = Reg.dkPoolRes then some (AMap.get 0 d.poolRes (reqIdx r)).toNat
  else if o < 0x100 then none
  else if o < 0x200 then
    let i := (o - 0x100) / 4
    some (d.listCells i + (d.list i).cache.length * 2 ^ 14 + b2n (d.list i).broken * 2 ^ 31)
  else
    let n := (o - 0x200) / 0x20
    let e := o % 0x20
    let x := AMap.get {} d.pools n
    if e = 0x10 then
      let free := ((List.range x.size).filter (fun i => decide (d.tag (x.base + i) = 0))).length
      some (free + b2n (decide (x.size ≠ 0)) * 2 ^ 18 + b2n (AMap.get false d.poolPend n) * 2 ^ 19
        + b2n (AMap.get false d.poolBad n) * 2 ^ 20)
    else if e = 0x14 then some (s.selOf r (pgDeck h) o)
    else if e = 0x18 then some (d.poolWord n (s.selOf r (pgDeck h) (Reg.dkPoolBsel n)))
    else none

/-! ### Queues (Tables 104 to 108) -/

def linkCode : LinkSt → Nat
  | .up => 0 | .hold => 1 | .down => 2

/-- SC_PSTAT (Table 107). -/
def State.scPstat (s : State) (p : Nat) : Nat :=
  let x := s.schedOf p
  linkCode x.ls + 4 * b2n x.flushing + bitMap 8 (fun r => decide (s.clk.up < AMap.get 0 x.pause r)) * 2 ^ 3
  + 2 ^ 11 * b2n (decide ((s.portBucket p).tok < 0))

def State.rdSched (s : State) (sl o : Nat) : Option Nat :=
  let on := fun p => s.portEn p
  if o = Reg.scHolding then some (bitMap 32 (fun j => on (32 * sl + j) && decide ((s.schedOf (32 * sl + j)).ls = .hold)))
  else if o = Reg.scDown then some (bitMap 32 (fun j => on (32 * sl + j) && decide ((s.schedOf (32 * sl + j)).ls = .down)))
  else if 0x1000 ≤ o ∧ o < 0x2000 then
    let p := 32 * sl + (o - 0x1000) / 0x40
    let d := o % 0x40
    if d = 0x0C then some (if on p then s.scPstat p else 0)
    else if 0x10 ≤ d ∧ on p = false then some 0
    else none
  else if 0x2000 ≤ o ∧ o % 0x10 = 0x0C then
    let k := (o - 0x2000) / 0x10
    let q := 32 * (32 * sl + k / 32) + k % 32
    let x : Int := AMap.get 0 s.deficit q
    some (if on (q / 32) then (x % (2 ^ 32 : Nat)).toNat else 0)
  else none

def State.rdAdmit (s : State) (r : Requester) (h o : Nat) : Option Nat :=
  let pg := pgAdmit h
  let q := 16384 * h + s.selOf r pg Reg.adQsel
  let d := s.deckOf h
  if o = Reg.adQsel ∨ o = Reg.repGsel ∨ o = Reg.repCsel then some (s.selOf r pg o)
  else if o = Reg.adQ then some (s.adQ q)
  else if o = Reg.adQy then some (s.adQy q)
  else if o = Reg.adQecn then some (s.adQecn q)
  else if o = Reg.adQocc then some (if s.portEn (q / 32) then AMap.get 0 d.qocc (q % 16384) else 0)
  else if o = Reg.repCtrl then some (b2n (s.pathOf h).draining)
  else if o = Reg.repStat then some ((s.pathOf h).repl.length % 2 ^ 14 + b2n (s.pathOf h).draining * 2 ^ 31)
  else if o = Reg.repGrp then some (s.repGrp h (s.selOf r pg Reg.repGsel)).toNat
  else if o = Reg.repCopy then
    some (s.repCopy h (s.selOf r pg Reg.repCsel)).toNat
  else if 0x180 ≤ o ∧ o < 0x200 then some (AMap.get 0 d.cocc ((o - 0x180) / 4))
  else if 0x1000 ≤ o ∧ o < 0x2000 ∧ o % 8 = 4 then some (AMap.get 0 d.pocc ((o - 0x1000) / 8))
  else none

/-! ### Telemetry (Tables 115 to 120) -/

def State.rdTime (s : State) (r : Requester) (o : Nat) : Option Nat :=
  if o = Reg.tmNow then some (tsOf s.now)
  else if o = Reg.tmNowHi then some (s.selOf r pgTime Reg.tmNowHi)
  else none

def State.rdMatrix (s : State) (h o : Nat) : Option Nat :=
  let m := s.matrixOf h
  if o = Reg.mxCtrl then some (b2n m.swMx + 2 * b2n m.swHist + 4 * b2n m.swDrop)
  else if o = Reg.mxStat then some (b2n (m.swMx || m.swHist || m.swDrop))
  else none

/-- Valid lines of slice i of a half. -/
def TallyS.lineCount (t : TallyS) (i : Nat) : Nat := (t.lines.filter (fun e => decide (e.1 / 65536 = i) && e.2.isSome)).length

def State.rdTally (s : State) (h o : Nat) : Option Nat :=
  let t := s.tallyOf h
  if o = Reg.tyCtrl then some (b2n (s.rbit (pgTally h) Reg.tyCtrl 0) + 2 * b2n t.flush + 4 * b2n t.exportAll + 8 * b2n t.clearing)
  else if o = Reg.tyStat then
    some (b2n t.flush + 2 * b2n t.exportAll + 4 * b2n t.clearing + 8 * b2n (s.tallyHeld h))
  else if o = Reg.tyRecords then some t.nrec
  else if o = Reg.tyIpfixSeq then some (t.seq % 2 ^ 32)
  else if 0x100 ≤ o ∧ o < 0x500 ∧ o % 0x40 = 0x28 then some (t.lineCount ((o - 0x100) / 0x40))
  else none

def hbmCode : HbmSt → Nat
  | .init => 0 | .ready => 1 | .retrain => 2 | .failed => 3

def State.rdHbm (s : State) (h o : Nat) : Option Nat :=
  if o = Reg.hbStat then some (hbmCode (s.hbmOf h).st + 4 * b2n (s.tallyHeld h))
  else none

/-! ### Raft (Tables 124, 129, 130) -/

def nbrCode : NbrSt → Nat
  | .down => 0 | .up => 1 | .foreign => 2 | .dup => 3

def State.rfNb (s : State) (h p d : Nat) : Option Nat :=
  let x := s.nbr p
  if d = 0 then some (x.dev % 65536 + x.port % 1024 * 2 ^ 16 + nbrCode x.st * 2 ^ 26)
  else if d = 4 then
    some (x.cur % 4 + x.active % 16 * 4 + x.oldest % 4 * 2 ^ 6 + x.cap % 32 * 2 ^ 8 + b2n x.capped * 2 ^ 13
      + b2n (s.nbrBehind x) * 2 ^ 14 + s.factor h p % 32 * 2 ^ 16)
  else if d = 8 then some x.seq
  else none

/-- RF_STAT (Table 129). -/
def State.rfStat (s : State) (h : Nat) : Nat :=
  let c := s.raftCfg h
  let pend := decide (h = 0) && s.raft.pend
  let ups := (s.raft.nbr.filter (fun e => decide (portHalf e.1 = h ∧ e.2.st = .up))).length
  b2n c.en + 2 * b2n pend + ups * 4 + s.ownId h % 65536 * 2 ^ 16

def State.rdHalf (s : State) (r : Requester) (h o : Nat) : Option Nat :=
  let pg := pgHalf h
  let g := s.selOf r pg Reg.rfGsel
  if o = Reg.rfStat then some (s.rfStat h)
  else if o = Reg.rfDsel ∨ o = Reg.rfGsel ∨ o = Reg.rfTsel then some (s.selOf r pg o)
  else if o = Reg.rfReach then some (s.rfReach h (s.selOf r pg Reg.rfDsel)).toNat
  else if o = Reg.rfMember then some (s.rfMember h (g % 256) (g / 256)).toNat
  else if o = Reg.rfEw then some (AMap.get 0 s.raft.ew (ewKey h (g % 256) (g / 256)))
  else if o = Reg.rfTree then some (s.rfTree h (s.selOf r pg Reg.rfTsel)).toNat
  else if 0x2000 ≤ o ∧ o < 0x4000 then s.rfNb h (512 * h + (o - 0x2000) / 0x10) (o % 0x10)
  else none

/-! ### Host (Tables 139, 140) -/

def hqCode : HqSt → Nat
  | .disabled => 0 | .active => 1 | .draining => 2 | .halted => 3

def State.rdHostdma (s : State) (p o : Nat) : Option Nat :=
  let x := s.host
  if p = pgHostdma then
    (if o = Reg.hdStat then
      some (b2n x.linkUp * (x.width % 16 + x.speed % 8 * 2 ^ 4) + b2n x.linkUp * 2 ^ 7 + b2n x.bme * 2 ^ 8 + b2n x.d3hot * 2 ^ 9)
    else none)
  else if p < pgDoorbell then
    let i := 32 * (p - 9) + (o - 0x1000) / 0x80
    let d := o % 0x80
    if d = 0x10 then some (hqCode (s.hq i).st + (s.hq i).err % 16 * 4 + b2n (s.hq i).cfgPend * 2 ^ 8)
    else if d = 0x20 ∧ 64 ≤ i then some 0
    else if d = 0x24 then some (s.hq i).heldN
    else none
  else none

/-! ### Cruiser (Table 147) -/

def snapCode : SnapSt → Nat
  | .idle => 0 | .armed => 1 | .capturing => 2 | .transfer => 3

def State.rdCruiser (s : State) (r : Requester) (o : Nat) : Option Nat :=
  let c := s.cruiser
  let e := s.selOf r pgCruiser Reg.crTdSel
  let b := s.bwRead (s.selOf r pgCruiser Reg.crBwSel)
  if o = Reg.crCtrl then some ((s.reg pgCruiser Reg.crCtrl &&& 4).toNat + 2 * b2n s.cruiser.stop)
  else if o = Reg.crStat then
    some (snapCode c.st + c.rej % 16 * 4 + b2n (decide (c.st ≠ .idle ∧ c.period ≠ 0) && !c.stop) * 2 ^ 6)
  else if o = Reg.crTdSel ∨ o = Reg.crBwSel then some (s.selOf r pgCruiser o)
  else if Reg.crTdCyc ≤ o ∧ o < 0xB8 then some (s.tdRead e ((o - Reg.crTdCyc) / 8))
  else if o = Reg.crBwLastRx then some b.lastRx
  else if o = Reg.crBwLastTx then some b.lastTx
  else if o = Reg.crBwPeakRx then some b.peakRx
  else if o = Reg.crBwPeakTx then some b.peakTx
  else if o = Reg.crBwPeakRxT then some b.peakRxT
  else if o = Reg.crBwPeakTxT then some b.peakTxT
  else none

/-! ### Lookout (Tables 155, 157) -/

def State.rdLookout (s : State) (o : Nat) : Option Nat :=
  let lo := s.lookout
  let count := fun (m : AMap Bool) => (m.filter (·.2)).length
  if o = Reg.loStat then
    some (b2n lo.faultLow + 2 * b2n lo.pulseEnd.isSome + 4 * b2n lo.relPend + count lo.latched % 1024 * 2 ^ 4
      + count lo.active % 1024 * 2 ^ 14 + lo.traps.length * 2 ^ 24)
  else if o = Reg.loLogWr then some lo.logN
  else if o = Reg.loFatal then some s.loFatal.toNat
  else if o < 0x80 then none
  else if o < 0xC0 then some (bitMap 32 (fun i => s.srcLatched (32 * ((o - 0x80) / 4) + i)))
  else if o < 0x100 then some (bitMap 32 (fun i => s.srcActive (32 * ((o - 0xC0) / 4) + i)))
  else if o < 0x140 then some (bitMap 32 (fun i => s.srcGone (32 * ((o - 0x100) / 4) + i)))
  else if 0x2000 ≤ o ∧ o < 0x4000 then
    match lo.recs.find? (fun e => decide (e.1 = (o - 0x2000) / 16)) with
    | some e =>
      let ws := msgWords e.2
      some (if o % 16 = 8 then (wordAt ws 2).toNat + 2 ^ 32 * (wordAt ws 3).toNat else (wordAt ws (o % 16 / 4)).toNat)
    | none => some 0
  else if 0x8000 ≤ o then
    some (wordAt (AMap.get {} lo.log ((o - 0x8000) / 0x20)).words (o % 0x20 / 4)).toNat
  else none

/-! ### Firebreak (Tables 161, 162) -/

/-- FB_STAT (Table 162). -/
def State.fbStat (s : State) : Nat :=
  let f := s.fire
  s.kTarget + s.effDepth * 2 ^ 5 + b2n (s.boostPermitted) * 2 ^ 9 + b2n s.capped * 2 ^ 10
  + b2n (s.breached .fast) * 2 ^ 11 + b2n (s.breached .sus) * 2 ^ 12 + b2n (s.breached .long) * 2 ^ 13 + b2n (decide (f.dTherm ≠ 0)) * 2 ^ 14 + b2n (decide (f.dUv ≠ 0)) * 2 ^ 15
  + b2n f.hintEnd.isSome * 2 ^ 16 + b2n s.deferred * 2 ^ 17 + b2n (s.paced 0) * 2 ^ 18 + b2n (s.paced 1) * 2 ^ 19

def State.rdFirebreak (s : State) (o : Nat) : Option Nat :=
  if o = Reg.fbStat then some s.fbStat
  else if o = Reg.fbVcore then some (s.fire.volt % 65536 + s.rf pgFirebreak Reg.fbVcore 16 16 * 65536)
  else if 0x100 ≤ o ∧ o < 0x180 then
    some ((s.reg pgFirebreak o &&& 0x1F).toNat + s.kerfStep ((o - 0x100) / 4) * 2 ^ 8)
  else none

/-! ### Forester, life cycle, reset (Tables 170, 171, 177) -/

def clusterCode : ClusterSt → Nat
  | .off => 0 | .boot => 1 | .standby => 2 | .head => 3 | .fenced => 4 | .failed => 5

def State.rdForester (s : State) (o : Nat) : Option Nat :=
  let f := s.forester
  if o = Reg.mbStat then some (b2n f.mb.busy + 2 * b2n f.mb.done + f.mb.status % 256 * 2 ^ 8 + f.mb.tag % 65536 * 2 ^ 16)
  else if o = Reg.frState then some (clusterCode f.west.st + clusterCode f.east.st * 16)
  else if o = Reg.frVerW then some f.west.ver
  else if o = Reg.frVerE then some f.east.ver
  else if o = Reg.frTraps then some (f.traps.length % 128)
  else none

/-- The key digest fused in a slot (16_forester_security.md R438). -/
def State.fusedDigest (s : State) (slot : Nat) : Option (List Byte) :=
  if slot < 2 then Config.fusedKey slot
  else if AMap.get [] s.fuses.keys slot = [] then none else some (AMap.get [] s.fuses.keys slot)

/-- LC_STATE (Table 171). -/
def State.lcState (s : State) : Nat := s.fuses.life % 4 + 4 * b2n s.fuses.wipeDone

def State.rdLifecycle (s : State) (o : Nat) : Option Nat :=
  if o = Reg.lcState then some s.lcState
  else if o = Reg.hdHolder then some s.forester.holder
  else if o = Reg.hdEpoch then some s.forester.epoch
  else if o = Reg.lcSerial then some (Config.serial ()).toNat
  else if o = Reg.lcKeys then some (bitMap 4 (fun i => (s.fusedDigest i).isSome) + bitMap 4 Config.revoked * 16)
  else if 0x60 ≤ o ∧ o < 0x78 then some (AMap.get 0 s.fuses.svn ((o - 0x60) / 4 + 1))
  else if 0x1000 ≤ o ∧ o < 0x1200 then some (beAt (s.meas ((o - 0x1000) / 0x40)) (o % 0x40) 4)
  else none

def phaseCode : Phase → Nat
  | .fuses => 0 | .wipe => 1 | .boot => 2 | .restore => 3 | .run => 4

def State.rdReset (s : State) (o : Nat) : Option Nat :=
  let x := s.rst
  if o = Reg.rstCause then some x.cause
  else if o = Reg.rstStat then
    some (phaseCode x.phase + 8 * b2n x.restoring + x.rsrc % 4 * 2 ^ 4 + 2 ^ 6 * b2n x.half0 + 2 ^ 7 * b2n x.half1
      + x.rej % 8 * 2 ^ 8 + 2 ^ 11 * b2n x.recovery)
  else if o = Reg.rstSlices then some (bitMap 32 (fun i => AMap.get false x.slices i))
  else if o = Reg.rtSeqA then some x.seqA
  else if o = Reg.rtSeqB then some x.seqB
  else if o = Reg.rtSeqUsed then some x.seqUsed
  else if o = Reg.rtLen then some (x.len % 2 ^ 22)
  else none

/-! ### Any register -/

/-- The value of a block's register that shows the state of its block; none for a register that is stored. -/
def State.rdBlock (s : State) (r : Requester) (p o : Nat) : Option Nat :=
  let h := match pageHalf p with | some h => h.val | none => 0
  let sl := (p - 0x1000) / 0x20
  match pageBlk p with
  | none => none
  | some b => match b with
    | .chip => if o = Reg.straps then some (b2n s.rst.headSel + 2 * s.rst.bootSrc) else none
    | .order | .learn | .slice | .deparser | .flume => if b = .learn ∧ o = Reg.lrFifo then some (s.woodOf h).fifo.length else none
    | .ring => s.rdRing o
    | .cruiser => s.rdCruiser r o
    | .lookout => s.rdLookout o
    | .firebreak => s.rdFirebreak o
    | .forester => s.rdForester o
    | .reset => s.rdReset o
    | .hostdma => s.rdHostdma p o
    | .time => s.rdTime r o
    | .ohsp => s.rdOhsp o
    | .lifecycle => s.rdLifecycle o
    | .half => s.rdHalf r h o
    | .deck => s.rdDeck r h o
    | .admission => s.rdAdmit r h o
    | .wlem => s.rdWlem h o
    | .wllpm => s.rdWllpm h o
    | .maint => s.rdMaint h o
    | .tally => s.rdTally h o
    | .matrix => s.rdMatrix h o
    | .hbm => s.rdHbm h o
    | .parser => s.rdParser sl o
    | .kerfIn | .kerfOut => s.rdKerf p o
    | .sched => s.rdSched sl o
    | .macpcs => s.rdMacpcs sl o
    | .span => s.rdSpan sl o
    | .lanes0 => s.rdLanes0 sl o
    | .lanes1 => s.rdLanes1 sl o
    | .tcam => s.rdTcam sl o

/-- A register is the low word of a 64-bit register (R41). -/
def isWide (p o : Nat) : Bool :=
  match regSpec p o with
  | some r => r.wide && ({ r with wide := false } : RegSpec).covers o
  | none => false

/-- The value of the register at an offset, both words of a 64-bit one. Below 0x20 the header, in a window page the staging
registers; a write-only register reads 0 (R39). -/
def State.readVal (s : State) (r : Requester) (p o : Nat) : Nat :=
  match regSpec p o with
  | none => 0
  | some sp =>
    if sp.wo then 0
    else
      let got := if o < 0x20 then s.rdHeader r p o else s.rdBlock r p o
      match got with
      | some v => v
      | none => if isWide p o then s.reg64 p o else (s.reg p o).toNat

/-- Private JTAG instructions and core debug are open: in BLANK and RETURNED (16_forester_security.md R444), and never while
LC_CTRL.DEBUG_LOCK is 1 (R446). -/
def State.debugOpen (s : State) : Bool :=
  decide (s.fuses.life % 4 = 0 ∨ s.fuses.life % 4 = 3) && !s.rbit pgLifecycle Reg.lcCtrl 1

end Sys2Proof.Machine
end

