-- ==== Sys2Proof/Machine/Reset.lean ====
section
/-! DEFINITION. The commands of resets and of the Flume management channel (17_reset_retained.md R449 to R457, R453;
01_architecture.md R20; 16_forester_security.md R445). -/

namespace Sys2Proof.Machine

/-- PORST_N (R449, R450): low is a power-on reset; its rise samples the straps and the bank supplies and starts Table 173. While CHIPRST_N is
still low then, the chip reset that this asks for follows, and the device stays in reset. -/
def State.porst (s : State) (level : Bool) (pins : PinSample) : State :=
  if level then
    (if s.rst.porstAt.isSome then
      let s := (s.powerReset pins).straps pins
      let s : State := { s with rst := { s.rst with porstAt := none, t0 := s.clk.up } }
      if s.rst.chipAt.isSome then s.chipReset causePin else s
    else s)
  else if s.rst.porstAt.isSome then s
  else
    let s := s.powerReset pins
    { s with rst := { s.rst with porstAt := some s.clk.up } }

/-- PORST_N: the level the pin takes; low means low for 1 us. -/
def execPorstN (level : Bool) (pins : PinSample) (s : State) : Out := s.runAlways (·.porst level pins)

/-- CHIPRST_N (R449, R450): low while PORST_N is high is a chip reset; its rise samples the straps and starts Table 173. While PORST_N is low
the pin only takes its level. -/
def State.chiprst (s : State) (level : Bool) (pins : PinSample) : State :=
  if level then
    (if s.rst.chipAt.isSome then
      let s := s.straps pins
      { s with rst := { s.rst with chipAt := none, t0 := s.clk.up } }
    else s)
  else if s.rst.chipAt.isSome then s
  else
    let s := if s.rst.porstAt.isSome then s else (s.strapPins pins).chipReset causePin
    { s with rst := { s.rst with chipAt := some s.clk.up } }

/-- CHIPRST_N: the level the pin takes; low means low for 10 us. -/
def execChiprstN (level : Bool) (pins : PinSample) (s : State) : Out := s.runAlways (·.chiprst level pins)

/-- VDD_AON_RESET (R449): a power-on reset of the whole device, the always-on island included, then start-up. -/
def execVddAonReset (pins : PinSample) (s : State) : Out := s.runAlways (·.powerReset pins)

/-- A write of RST_CHIP (R451): a request during start-up lies inside a reset already in progress. -/
def State.rstChip (s : State) (v : Word) : State :=
  if fld v 16 16 ≠ 0x9204 then s.rstReject rejKey
  else if s.starting then s.rstReject rejBusy
  else s.chipReset causeReg

/-- HALF_DONE. -/
def execHalfDone (h : Half) (s : State) : Out := s.run (·.halfReady h.val)

/-- SLICE_DONE. -/
def execSliceDone (sl : Slice) (s : State) : Out := s.run (·.sliceReady sl.val)

/-- BLOCK_RESET_DONE. -/
def execBlockResetDone (page : Nat) (s : State) : Out := s.run (·.blockDone page)

/-- Both halves are out of reset, so that the channel is the link's own (R456). -/
def State.halvesUp (s : State) : Bool := s.halfUp 0 && s.halfUp 1

/-- FLUME_CHANNEL_DOWN (01_architecture.md R20). -/
def execFlumeChannelDown (s : State) : Out := s.run (fun s => s.onlyIf s.halvesUp (·.channelDown))

/-- FLUME_CHANNEL_UP (14_lookout_faults.md R396). -/
def execFlumeChannelUp (s : State) : Out := s.run (fun s => s.onlyIf s.halvesUp (·.channelUp))

/-- The end of a life-cycle wipe (16_forester_security.md R445 steps 3 to 5): the MRAM and the flash data areas hold nothing, in RETURNED the
identity seed is gone, WIPE_DONE is blown, and a chip reset follows. -/
def State.wiped (s : State) : State :=
  if s.fuses.wipeDone ∨ s.rst.porstAt.isSome ∨ s.rst.chipAt.isSome ∨ s.rst.tripped then s
  else
    let s : State := { s with mram := {}
                              fuses := { s.fuses with wipeDone := true, seed := if s.fuses.life = 3 then [] else s.fuses.seed } }
    (s.emit .flashWipe).chipReset causeLife

/-- WIPE_DONE. -/
def execWipeDone (s : State) : Out := s.runAlways (·.wiped)

end Sys2Proof.Machine
end

