-- ==== Sys2Proof/Machine/WriteEffects.lean ====
section
/-! DEFINITION. What the write of each register does when it takes effect in its page (02_registers.md R38 to R41, R48, and
the register tables of chapters 3 to 17): fields load under their masks, and commands, select registers and some settings act. -/

namespace Sys2Proof.Machine

/-! ### The common header (Table 14) -/

/-- The sequence-number clear of PG_EVT (R48). -/
def State.evtClear (s : State) (p : Nat) (v : Word) : State :=
  let e := s.evt p
  if fld v 24 8 = fld e 24 8 then s.setEvtRegs p (e &&& ~~~(v &&& 0xFFFFFF)) (s.reg p 0x14)
  else s.raise p 22

/-- ENABLE of a page that the sequencer's routines need has been written (06_tables.md R209). -/
def State.enableSettle (s : State) (p : Nat) : State :=
  match pageBlk p, pageHalf p with
  | some .maint, some h => s.fgEnable h.val
  | some .wlem, some h => s.fgEnable h.val
  | some .wllpm, some h => s.fgEnable h.val
  | _, _ => s

/-- A write of a header register. -/
def State.writeHeader (s : State) (p o : Nat) (v : Word) : State :=
  if o = Reg.pgCtrl then
    let s := (s.setReg p o (put (s.reg p o) 1 1 (fld (s.masked p o v) 1 1))).enableSettle p
    if bit v 0 then s.blockStart p else s
  else if o = Reg.pgEvt then s.evtClear p v
  else if o = Reg.pgEvtEn then s.setEvtRegs p (s.evt p) ((v &&& 0x7FFFFF) ||| 0x800000)
  else s.store p o v

/-! ### Lanes, ports, spans, parser (chapters 3 to 5) -/

/-- MACPCS. -/
def State.wrMacpcs (s : State) (sl o : Nat) (v : Word) : State :=
  let p := 32 * sl + (o - 0x1000) / 0x100
  let pg := pgMacpcs sl
  if o % 0x100 = 0 then
    let m := s.masked pg o v
    let s := s.setReg pg o m
    if s.portEn p ∧ s.locked pg = false then s.setPort p { s.port p with cfgPend := true } else s
  else if o % 0x100 = 4 then s.portCtrlWrite p v
  else if o % 0x100 = 0x10 then (s.store pg o v).fecWrite s p
  else s.store pg o v

/-- LANES0: explicit taps that become invalid report (R71), a pattern on the lane of an enabled port stops its link (R89), a CTLE
code is used (R72). -/
def State.wrLanes0 (s : State) (sl o : Nat) (v : Word) : State :=
  let l := 32 * sl + (o - 0x1000) / 0x100
  let was := s.laneTapsBad l
  let s := if o % 0x100 = 0x0C then s.laneDrift l else s
  let s := s.store (pgLanes0 sl) o v
  if o % 0x100 = 0x0C then s.laneCtle l
  else if o % 0x100 = 0x18 then
    (match s.laneOwner l with
     | some p =>
       if prbsOn (s.reg (pgLanes0 sl) o) then s.linkFall p true else s.setPort p { s.port p with condAt := s.clk.up }
     | none => s)
  else s.raiseIf (s.laneTapsBad l && !was) (pgLanes0 sl) evTapsBad

/-- LANES1: a PLL rate takes effect at once when no enabled port uses the PLL (R62). -/
def State.wrLanes1 (s : State) (sl o : Nat) (v : Word) : State :=
  let m := 4 * sl + (o - 0x1000) / 0x400
  let d := (o - 0x1000) % 0x400
  let s := s.store (pgLanes1 sl) o v
  if d = 0 then s.pllApply m 0 else if d = 4 then s.pllApply m 1 else s

/-- SPAN: channel routes change, and a written performance bin is no longer whole (04_span_framing.md R118). -/
def State.wrSpan (s : State) (sl o : Nat) (v : Word) : State :=
  let pg := pgSpan sl
  let d := (o - 0x1000) % 0x200
  let old := s
  let s := s.store pg o v
  if o < 0x1000 then s
  else if d = 0x0C then s.spanEvents old sl
  else if 0x100 ≤ d ∧ d % 0x20 < 0x18 then
    let j := (o - 0x1000) / 0x200
    let b := (d - 0x100) / 0x20
    if d % 0x20 = 0x0C then s else s.setRf pg (Reg.pmFlags j b) 0 1 1
  else s

/-- PARSER: SWAP, and PP_PORT, whose fall ends the neighbour of the port (11_raft.md R341). -/
def State.wrParser (s : State) (sl o : Nat) (v : Word) : State :=
  let pg := pgParser sl
  if o = Reg.ppCtrl then
    (if bit v 0 then s.setSlice sl { s.slice sl with swap := true } else s)
  else
    let s := s.store pg o v
    if 0x100 ≤ o ∧ bit v 0 = false then s.nbrDown (32 * sl + (o - 0x100) / 4) else s

/-- Kerf stages: the views of a referenced bank do not change (R156), but the head's writes of a restore take effect
(17_reset_retained.md R455). -/
def State.wrKerf (s : State) (p o : Nat) (v : Word) : State :=
  if 0x60 ≤ o ∧ o < 0xA0 ∧ s.rst.restoring = false ∧ s.bankRef p ((o - 0x60) / 0x20) then s.raise p 3 else s.store p o v

/-! ### Tables, rings, Deck (chapters 6 to 9) -/

def State.wrWlem (s : State) (h o : Nat) (v : Word) : State :=
  if o = Reg.wlMigrate then
    let s := s.setReg (pgWlem h) o (BitVec.ofNat 32 (fld v 0 8))
    if bit v 31 then s.migWrite h (fld v 0 8) else s
  else if o = Reg.wlCtrl then (s.store (pgWlem h) o v).boostSettle h
  else s.store (pgWlem h) o v

/-- WLLPM: FAMILY of a table that holds prefixes keeps (R185). -/
def State.wrWllpm (s : State) (h o : Nat) (v : Word) : State :=
  let pg := pgWllpm h
  if 0x100 ≤ o ∧ o < 0x180 then
    let n := (o - 0x100) / 4
    let m := s.masked pg o v
    let old := s.reg pg o
    if bit m 1 ≠ bit old 1 ∧ (s.woodOf h).lpm.any (fun x => decide (x.tbl = n)) then
      (s.setReg pg o (put m 1 1 (fld old 1 1))).raise pg evLtBusy
    else s.setReg pg o m
  else s.store pg o v

def State.wrMaint (s : State) (h o : Nat) (v : Word) : State :=
  let pg := pgMaint h
  if o = Reg.mtCtrl then
    let s := s.setReg pg o (v &&& 9)
    if bit v 2 then s.seqAbandon h else if bit v 1 then s.seqResume h else s
  else s.store pg o v

def State.wrRing (s : State) (r : Requester) (o : Nat) (v : Word) : State :=
  if o = Reg.ringCtrl then s.ringCtrlWrite r v
  else if o = Reg.ringMaxage then s.maxAgeWrite v
  else s.store pgRing o v

/-- Load a register that is held per requester (R248, R286, R371). -/
def State.setSel (s : State) (r : Requester) (p o x : Nat) : State :=
  { s with bus := { s.bus with sel := AMap.set 0 s.bus.sel (selBusKey r p o) (BitVec.ofNat 32 x) } }

def State.wrDeck (s : State) (r : Requester) (h o : Nat) (v : Word) : State :=
  let pg := pgDeck h
  if 0x200 ≤ o ∧ o < 0x300 then
    let n := (o - 0x200) / 0x20
    let d := o % 0x20
    if d = 0x08 then s.poolAlloc r h n
    else if d = 0x0C then s.freeCell h 20 (fld v 0 20) (0x8000 + n)
    else if d = 0x14 then s.setSel r pg o (fld v 0 12)
    else
      let s := s.store pg o v
      s.setDeck h { s.deckOf h with poolPend := AMap.set false (s.deckOf h).poolPend n true }
  else if o < 0x100 ∧ (s.deckOf h).initing = false then
    let s := (s.store pg o v).relevel h
    if o = Reg.dkCtrl then s.pfcEvals s.pfcPorts else s
  else s.store pg o v

/-- ADMIT: the select registers, and the entries they select (R286); XOFF follows its settings (R255). -/
def State.wrAdmit (s : State) (r : Requester) (h o : Nat) (v : Word) : State :=
  let pg := pgAdmit h
  let q := s.selOf r pg Reg.adQsel
  if o = Reg.adQsel then s.setSel r pg o (fld v 0 14)
  else if o = Reg.repGsel then s.setSel r pg o (fld v 0 16)
  else if o = Reg.repCsel then s.setSel r pg o (fld v 0 18)
  else if o = Reg.adQ then s.setSreg 16384 (selKey 0 h q) (v &&& 0xFFFFF)
  else if o = Reg.adQy then s.setSreg 12288 (selKey 1 h q) (v &&& 0xFFFFF)
  else if o = Reg.adQecn then s.setSreg 0 (selKey 2 h q) (v &&& 0xFFFFF)
  else if o = Reg.repGrp then s.setSreg 0 (selKey 3 h (s.selOf r pg Reg.repGsel)) (v &&& 0x5FFFFFFF)
  else if o = Reg.repCopy then s.setSreg 0 (selKey 4 h (s.selOf r pg Reg.repCsel)) (v &&& 0x80FFFFFF)
  else if o = Reg.repCtrl then (if bit v 0 then s.startDrain h else s)
  else if o = Reg.adPfcGlb then (s.store pg o v).pfcSlice (halfPorts h)
  else if 0x2000 ≤ o ∧ o < 0x4000 then (s.store pg o v).pfcEvalAll ((o - 0x2000) / 8) (List.range 8)
  else s.store pg o v

/-- Bucket b brought to now under its old RATE and BURST, and clipped to the depth of a new BURST (R274). -/
def Bucket.settle (b : Bucket) (burst : Nat) : Bucket := { b with tok := min (bucketDepth burst) b.tok }

/-- SCHED: a shaper keeps its tokens over a write of RATE or BURST, clipped, and fills at the new rate from now (R274). -/
def State.wrSched (s : State) (sl o : Nat) (v : Word) : State :=
  let pg := pgSched sl
  if 0x1000 ≤ o ∧ o < 0x2000 then
    let p := 32 * sl + (o - 0x1000) / 0x40
    let d := o % 0x40
    if d = 4 ∨ d = 8 then
      let b := s.portBucket p
      let s := s.store pg o v
      s.setSched p { s.schedOf p with bucket := b.settle (s.rf pg (Reg.scPburst (p % 32)) 0 16) }
    else s.store pg o v
  else if 0x2000 ≤ o ∧ (o % 0x10 = 4 ∨ o % 0x10 = 8) then
    let q := 1024 * sl + (o - 0x2000) / 0x10
    let b := s.queueBucket q
    let s := s.store pg o v
    { s with qbucket := AMap.set {} s.qbucket q (b.settle (s.rf pg (Reg.scQburst (schedIdx q)) 0 16)) }
  else s.store pg o v

/-! ### Telemetry, Raft, host, Cruiser (chapters 10 to 13) -/

def State.wrTime (s : State) (o : Nat) (v : Word) : State :=
  if o = Reg.tmCmd then
    let s := if bit v 0 then s.timeSet else s
    if bit v 1 then s.timeStep else s
  else s.store pgTime o v

def State.wrMatrix (s : State) (h o : Nat) (v : Word) : State :=
  if o = Reg.mxCtrl then
    let s := if bit v 0 then s.clrMx h else s
    let s := if bit v 1 then s.clrHist h else s
    if bit v 2 then s.clrDrop h else s
  else s.store (pgMatrix h) o v

/-- TALLY: FLUSH, EXPORT_ALL and CLEAR act (R316); with a new MODE the template is due again (R320). -/
def State.wrTally (s : State) (h o : Nat) (v : Word) : State :=
  let pg := pgTally h
  if o = Reg.tyCtrl then
    let s := s.setReg pg o (v &&& 1)
    let s := if bit v 1 then s.flush h else s
    let s := if bit v 2 then s.exportAll h else s
    if bit v 3 then s.clearTally h else s
  else
    let old := s.rf pg Reg.tyXctl 0 2
    let s := s.store pg o v
    if s.rf pg Reg.tyXctl 0 2 ≠ old then s.setTally h { s.tallyOf h with tmplAt := none } else s

def State.wrHbm (s : State) (h o : Nat) (v : Word) : State :=
  let pg := pgHbm h
  if o = Reg.hbCtrl then
    let s := s.setReg pg o (v &&& 2)
    if bit v 0 then s.retrain h else s
  else s.store pg o v

def State.wrHalf (s : State) (r : Requester) (h o : Nat) (v : Word) : State :=
  let pg := pgHalf h
  let g := s.selOf r pg Reg.rfGsel
  if o = Reg.rfCtrl ∧ h = 0 then s.raftCtrlWrite v
  else if o = Reg.rfSysid ∧ h = 0 then (s.store pg o v).raftPend (s.rbit pg Reg.rfCtrl 0)
  else if o = Reg.rfGrace ∧ h = 0 then (s.store pg o v).peerHolds
  else if o = Reg.rfDsel then s.setSel r pg o (fld v 0 16)
  else if o = Reg.rfGsel then s.setSel r pg o (fld v 0 14)
  else if o = Reg.rfTsel then s.setSel r pg o (fld v 0 12)
  else if o = Reg.rfReach then s.setSreg 0 (selKey 5 h (s.selOf r pg Reg.rfDsel)) (v &&& 0x800000FF)
  else if o = Reg.rfMember then s.setSreg 0 (selKey 6 h (64 * (g % 256) + g / 256)) (v &&& 0x8003FFFF)
  else if o = Reg.rfTree then s.setSreg 0 (selKey 7 h (s.selOf r pg Reg.rfTsel)) (v &&& 0x8000FFFF)
  else s.store pg o v

/-- HOSTDMA: queue blocks on pages 9 to 0xD, doorbells, the punt map (R369). -/
def State.wrHostdma (s : State) (p o : Nat) (v : Word) : State :=
  if p = pgDoorbell then s.doorbell ((o - 0x1000) / 4) v
  else if 9 ≤ p ∧ p < pgDoorbell then
    let i := 32 * (p - 9) + (o - 0x1000) / 0x80
    let d := o % 0x80
    if d = 0x0C then s.hqCtrlWrite i v
    else if d = 0x14 then (if (s.hq i).st = .disabled then s.store p o v else s)
    else if d = 0x20 then (if i < 64 then s.store p o v else s)
    else
      let s := s.store p o v
      if d < 0x0C ∧ s.rbit p (o - d + 0x0C) 0 then s.setHq i { s.hq i with cfgPend := true } else s
  else s.store p o v

def State.wrCruiser (s : State) (r : Requester) (o : Nat) (v : Word) : State :=
  if o = Reg.crCtrl then s.crCtrlWrite v
  else if o = Reg.crBwCtrl then s.crBwWrite v
  else if o = Reg.crTdSel then s.setSel r pgCruiser o (fld v 0 9)
  else if o = Reg.crBwSel then s.setSel r pgCruiser o (fld v 0 10)
  else s.store pgCruiser o v

/-! ### Lookout, Firebreak, mailbox, reset (chapters 14 to 17) -/

/-- LOOKOUT: LO_SRC of a reserved source ignores writes, BLK_RST those of a source that is no page (R388, Table 156). -/
def State.wrLookout (s : State) (o : Nat) (v : Word) : State :=
  let n := (o - 0x1000) / 4
  if o = Reg.loPinRel then s.pinRelease
  else if o = Reg.loClr then s.loClr v
  else if 0x1000 ≤ o ∧ o < 0x1800 then
    (if sourceUsed n = false then s
     else s.store pgLookout o (if sourceIsPage n then v else v &&& 0xFFFFFFFB))
  else s.store pgLookout o v

def State.wrFirebreak (s : State) (o : Nat) (v : Word) : State :=
  if o = Reg.fbCtrl then
    let m := s.masked pgFirebreak o v
    ((s.fixedWrite (bit m 0)).setReg pgFirebreak o m).fireSettle
  else if o = Reg.fbCal then s.fbCalWrite v
  else if o = Reg.fbHint then s.hintWrite (fld v 0 16)
  else if 0x100 ≤ o ∧ o < 0x180 then (s.store pgFirebreak o v).fireSettle
  else s.store pgFirebreak o v

/-- MB_GO (R431, R432): the argument registers are captured and the command goes to the head, or the write is dropped while a
command runs. A request length above 4,096 takes the 4,096 bytes there are. -/
def State.mbGo (s : State) : State :=
  let f := s.forester
  if f.mb.busy then s.count pgForester Reg.mbDropped 1
  else
    let n := min 4096 (s.rf pgForester Reg.mbLen 0 13)
    let req := (wordsLe ((List.range 1024).map (fun i => s.reg pgForester (Reg.mbReq i)))).take n
    { s with forester := { f with mb := { f.mb with
        busy := true, done := false, op := s.rf pgForester Reg.mbOp 0 8, goTag := s.rf pgForester Reg.mbOp 16 16
        req := req, addr := (s.reg pgForester Reg.mbAddrLo).toNat + 2 ^ 32 * (s.reg pgForester Reg.mbAddrHi).toNat
        alen := (s.reg pgForester Reg.mbAlen).toNat, goAt := s.clk.up
        headed := decide (f.holder ≠ 0), result := none } } }

def State.wrForester (s : State) (o : Nat) (v : Word) : State :=
  if o = Reg.mbGo then s.mbGo else s.store pgForester o v

/-- LC_CTRL (16_forester_security.md R446): M6 is extended when a lock rises (R442). -/
def State.wrLifecycle (s : State) (o : Nat) (v : Word) : State :=
  let old := s.reg pgLifecycle o
  let s := s.store pgLifecycle o v
  if o = Reg.lcCtrl ∧ s.reg pgLifecycle o ≠ old then s.extend 6 s.lifeRecord else s

def State.wrReset (s : State) (o : Nat) (v : Word) : State :=
  if o = Reg.rstChip then s.rstChip v
  else if o = Reg.rstHalf then s.rstHalf v
  else if o = Reg.rstSlice then s.rstSlice v
  else s.store pgReset o v

/-- ORDER (02_registers.md R58): FENCE starts a fence for its writer. -/
def State.wrOrder (s : State) (r : Requester) (o : Nat) (v : Word) : State :=
  if o = Reg.orderFence then s.startFence r else s.store pgOrder o v

/-! ### Any register -/

/-- The effect of a write on a block register. -/
def State.writeBlock (s : State) (r : Requester) (p o : Nat) (v : Word) : State :=
  let h := match pageHalf p with | some h => h.val | none => 0
  let sl := (p - 0x1000) / 0x20
  match pageBlk p with
  | none => s
  | some b => match b with
    | .order => s.wrOrder r o v
    | .ring => s.wrRing r o v
    | .cruiser => s.wrCruiser r o v
    | .lookout => s.wrLookout o v
    | .firebreak => s.wrFirebreak o v
    | .forester => s.wrForester o v
    | .reset => s.wrReset o v
    | .hostdma => s.wrHostdma p o v
    | .time => s.wrTime o v
    | .lifecycle => s.wrLifecycle o v
    | .half => s.wrHalf r h o v
    | .deck => s.wrDeck r h o v
    | .admission => s.wrAdmit r h o v
    | .wlem => s.wrWlem h o v
    | .wllpm => s.wrWllpm h o v
    | .maint => s.wrMaint h o v
    | .tally => s.wrTally h o v
    | .matrix => s.wrMatrix h o v
    | .hbm => s.wrHbm h o v
    | .parser => s.wrParser sl o v
    | .kerfIn | .kerfOut => s.wrKerf p o v
    | .macpcs => s.wrMacpcs sl o v
    | .span => s.wrSpan sl o v
    | .lanes0 => s.wrLanes0 sl o v
    | .lanes1 => s.wrLanes1 sl o v
    | .sched => s.wrSched sl o v
    | .chip | .ohsp | .flume | .learn | .slice | .tcam | .deparser => s.store p o v

/-- The effect of a 32-bit write on a register that is one word. -/
def State.writeReg (s : State) (r : Requester) (p o : Nat) (v : Word) : State :=
  if o < 0x20 then s.writeHeader p o v else s.writeBlock r p o v

/-- A 64-bit register is loaded (R43); the top-down counters are those of the engine that the requester selects. -/
def State.writeWide (s : State) (r : Requester) (p o x : Nat) : State :=
  if p = pgCruiser ∧ Reg.crTdCyc ≤ o ∧ o < 0xB8 then
    s.tdLoad (s.selOf r pgCruiser Reg.crTdSel) ((o - Reg.crTdCyc) / 8) x
  else if 0x1000 ≤ p ∧ pageBlk p = some .span ∧ 0x100 ≤ (o - 0x1000) % 0x200 then
    (s.setReg64 p o x).setRf p (o - o % 0x20 + 0x0C) 0 1 1
  else s.setReg64 p o x

/-- The key of a shadow or staging word: requester and page (R43). -/
def busKey (r : Requester) (p : Nat) : Nat := reqIdx r * 65536 + p

/-- A register covers an offset as the high word of a 64-bit register. -/
def isHigh (p o : Nat) : Bool := match regSpec p o with | some r => r.wide && !isWide p o | none => false

/-- A written word takes effect at an offset: the high word of a 64-bit register waits in the requester's staging word, the low
word loads both (R43). -/
def State.writeAt (s : State) (r : Requester) (p o : Nat) (v : Word) : State :=
  if isHigh p o then { s with bus := { s.bus with staging := AMap.set 0 s.bus.staging (busKey r p) v } }
  else if isWide p o then
    let x := v.toNat + 2 ^ 32 * (AMap.get 0 s.bus.staging (busKey r p)).toNat
    ({ s with bus := { s.bus with staging := AMap.set 0 s.bus.staging (busKey r p) 0 } } : State).writeWide r p o x
  else s.writeReg r p o v

end Sys2Proof.Machine
end

