-- ==== Sys2Proof/Machine/Window.lean ====
section
/-! DEFINITION. The windows into memories (02_registers.md R54 to R56): what each page's select codes name, how words read and
write, and when a write is refused (03_lanes_ports.md R88, R92; 04_span_framing.md R132; 05_parser_kerf.md R140, R154 to R160,
R166, R167; 06_tables.md R186, R188, R209, R210; 10_telemetry.md R324 to R326). -/

namespace Sys2Proof.Machine

/-! ### What the select codes name -/

/-- Words of a Kerf stage's memory (Table 64); only egress stage 7 has templates. -/
def kerfWinSize (templates : Bool) (sel : Nat) : Nat :=
  if sel < 2 then 10240 else if sel = 2 then 16384 else if sel = 3 then 8192 else if sel = 4 then 32768
  else if sel = 5 ∧ templates then 32768 else 0

/-- Words of the memory that a select code names on a page; 0 where it names none. -/
def winSize (p sel : Nat) : Nat :=
  match pageBlk p with
  | some .parser => if sel < 2 then 288 else if sel = 0x10 ∨ sel = 0x11 then 2560 else 0
  | some .kerfIn => kerfWinSize false sel
  | some .kerfOut => kerfWinSize (decide (pageInst p = 7)) sel
  | some .wlem => if sel < 128 ∨ (0xE0 ≤ sel ∧ sel < 0xE8) then 163840 else if sel = 0xF0 then 80 else 0
  | some .wllpm => if sel < 0x60 then 4096 else 0
  | some .tcam => if sel = 0 then 131072 else 0
  | some .tally => if sel < 16 then 1048576 else if sel = 0x20 then 32 else 0
  | some .matrix => if sel = 0 then 2101248 else if sel = 1 then 2097152 else if sel = 2 then 1048576 else 0
  | some .hbm => if sel < 6 then 2 ^ 30 else 0
  | some .span => if sel < 16 then 16 else 0
  | some .lanes1 => if 4 ≤ sel / 16 then 0 else if sel % 16 < 2 then 16384 else if sel % 16 = 2 then 512 else 0
  | _ => 0

/-- The half of a page's number, 0 for a global page. -/
def pageHalfNat (p : Nat) : Nat := match pageHalf p with | some h => h.val | none => 0

/-- The macro a LANES1 select code names. -/
def selMacro (p sel : Nat) : Nat := 4 * ((p - 0x1000) / 0x20) + sel / 16 % 4
/-- The lane of a calibration word. -/
def calLane (p sel a : Nat) : Nat := 8 * selMacro p sel + a / 64 % 8

/-! ### Reading -/

/-- Word i of a counter pair: packets, then bytes (Table 117). -/
def CPair.word (c : CPair) (i : Nat) : Word :=
  BitVec.ofNat 32 (if i = 0 then c.pkts else if i = 1 then c.pkts / 2 ^ 32 else if i = 2 then c.bytes else c.bytes / 2 ^ 32)

/-- A number with one of its 32-bit words replaced. -/
def setHalfWord (x i : Nat) (v : Word) : Nat :=
  if i = 0 then x / 2 ^ 32 * 2 ^ 32 + v.toNat else x % 2 ^ 32 + v.toNat * 2 ^ 32

/-- A counter pair with word i loaded. -/
def CPair.setWord (c : CPair) (i : Nat) (v : Word) : CPair :=
  if i < 2 then { c with pkts := setHalfWord c.pkts i v % 2 ^ 48 } else { c with bytes := setHalfWord c.bytes (i - 2) v }

/-- Word i of a flow record in HBM or in the cache (Table 113). -/
def FlowRec.word (r : FlowRec) (i : Nat) : Word := BitVec.ofNat 32 (leAt (r.wire 1) (4 * i) 4)

/-- The record that 64 bytes hold. -/
def recOf (b : List Byte) : FlowRec :=
  { key := bytesAt b 0 32, pkts := leAt b 32 5, bytes := leAt b 37 7, drops := leAt b 44 4, first := leAt b 48 4
    last := leAt b 52 4, minL := leAt b 56 2, maxL := leAt b 58 2, flags := leAt b 60 2 }

/-- The LPM prefixes of a half as plain numbers. -/
def WoodS.lpmCode (w : WoodS) : List (List Nat) :=
  let t := fun (x : Option Nat) => match x with | some r => r + 1 | none => 0
  w.lpm.map (fun x => [x.tbl, x.addr, x.len, x.result, t x.birth, t x.death])

/-- The content of node u of LPM bank 128 + b, beside what a window write made of it (DESIGN CHOICE, log entry 9). -/
def State.trieContent (s : State) (h b u : Nat) : Word := Config.trieWord h b u (s.woodOf h).lpmCode

/-- The LPM bank whose node u a spare holds (R203). -/
def WoodS.spareOf (w : WoodS) (spare u : Nat) : Option Nat :=
  ((List.range 96).map (128 + ·)).find? (fun b => decide (w.physBank b u = spare))

/-- What the device keeps of the prefixes in a word of a level memory, or of a spare that serves an LPM bank; a window write of
the word leaves the difference in the memory. -/
def State.trieMask (s : State) (p sel a : Nat) : Word :=
  let h := pageHalfNat p
  match pageBlk p with
  | some .wllpm => s.trieContent h sel a
  | some .wlem =>
    if 0xE0 ≤ sel ∧ sel < 0xE8 ∧ a % 40 = 0 then
      (match (s.woodOf h).spareOf sel (a / 40) with | some b => s.trieContent h (b - 128) (a / 40) | none => 0)
    else 0
  | _ => 0

/-- A calibration word of a lane (R92): taps of 16 bits, the CTLE code, reserved words. -/
def LaneS.calWord (x : LaneS) (i : Nat) : Word :=
  BitVec.ofNat 32 (if i < 35 then leAt x.coef (2 * i) 2 else if i = 35 then x.calCtle % 32 else 0)

/-- A calibration word written: word 35 is a cell beside the CTLE code in use, which the write does not change (DESIGN CHOICE, log
entry 84). -/
def LaneS.setCal (x : LaneS) (i : Nat) (v : Word) : LaneS :=
  if i < 35 then { x with coef := putBytes (bytesAt x.coef 0 70) (2 * i) (leBytes 2 v.toNat) }
  else if i = 35 then { x with calCtle := fld v 0 5 } else x

/-- A word of a page's window memory. -/
def State.winWord (s : State) (p sel a : Nat) : Word :=
  let h := pageHalfNat p
  match pageBlk p with
  | some .wllpm | some .wlem => s.memW p sel a ^^^ s.trieMask p sel a
  | some .tally =>
    if sel = 0x20 then s.memW p sel a
    else match AMap.get none (s.tallyOf h).lines (sel * 65536 + a / 16) with
      | some l => l.rec_.word (a % 16)
      | none => 0
  | some .matrix =>
    let m := s.matrixOf h
    if sel = 0 then (AMap.get {} m.cells (a / 4)).word (a % 4)
    else if sel = 2 then (AMap.get {} m.drops (a / 4)).word (a % 4)
    else if a % 128 < 66 ∧ s.portEn (512 * h + a / 4096) then
      BitVec.ofNat 32 (AMap.get 0 m.hist (64 * (a / 128) + a % 128 / 2) / (if a % 2 = 0 then 1 else 2 ^ 32))
    else 0
  | some .hbm =>
    if sel = 0 ∧ a < 2 ^ 28 then
      (match AMap.get none (s.tallyOf h).recs (a / 16) with | some r => r.word (a % 16) | none => s.memW p sel a)
    else s.memW p sel a
  | some .lanes1 => if sel % 16 = 2 then (s.lane (calLane p sel a)).calWord (a % 64) else s.memW p sel a
  | _ => s.memW p sel a

/-- n words of a page's window memory. -/
def State.winWords (s : State) (p sel : Nat) : Nat → Nat → List Word
  | _, 0 => []
  | a, n + 1 => s.winWord p sel a :: s.winWords p sel (a + 1) n

/-! ### Writing -/

/-- The bits a word of a Kerf stage's memory holds: counters' packet words 16 bits, meters' reserved bits none, FILL reads 0. -/
def kerfWordMask (sel a : Nat) : Word :=
  if sel = 3 then (if a % 4 < 2 then 0xFFFFFF else if a % 4 = 3 then 7 else 0xFFFFFFFF)
  else if sel = 4 ∧ a % 4 = 1 then 0xFFFF else 0xFFFFFFFF

/-- Bring the buckets of meters up to now, under the settings they have. -/
def State.settleMeters (s : State) (p : Nat) : List Nat → State
  | [] => s
  | m :: ms => (s.setMeter p m ((s.meter p m).to (s.meterCfg p m) s.now)).settleMeters p ms

/-- The meters of n words from word a on. -/
def metersOf (a n : Nat) : List Nat := (List.range ((a + n - 1) / 4 + 1 - a / 4)).map (a / 4 + ·)

/-- Meters whose word 3 is written with FILL take full buckets (Table 64). -/
def State.fillMeters (s : State) (p : Nat) : Nat → List Word → State
  | _, [] => s
  | a, w :: ws =>
    let s := if a % 4 = 3 ∧ bit w 3 then s.setMeter p (a / 4) (MeterS.full (s.meterCfg p (a / 4)) s.now) else s
    s.fillMeters p (a + 1) ws

/-- The words of one TCAM entry among those a command writes, by word within the entry. -/
def entryPart (e : Nat) : Nat → List Word → List (Nat × Word)
  | _, [] => []
  | a, w :: ws => if a / 32 = e then (a % 32, w) :: entryPart e (a + 1) ws else entryPart e (a + 1) ws

def stageWords : AMap (Option Word) → List (Nat × Word) → AMap (Option Word)
  | m, [] => m
  | m, x :: xs => stageWords (if x.1 < 24 then AMap.set none m x.1 (some x.2) else m) xs

def State.putStaged (s : State) (p e : Nat) : List (Nat × Option Word) → State
  | [] => s
  | x :: xs =>
    (match x.2 with | some w => s.setMemW p 0 (32 * e + x.1) w | none => s).putStaged p e xs

/-- A write that reaches TCAM entry e (R188): words 0 to 23 are staged, word 24 changes the whole entry. -/
def State.tcWritePart (s : State) (sl e : Nat) (part : List (Nat × Word)) : State :=
  let p := pgTcam sl
  let x := s.slice sl
  let old := if x.tcIdx = some e then x.tcWords else []
  let m := stageWords old part
  match part.find? (fun y => decide (y.1 = 24)) with
  | some y =>
    let s := s.setSlice sl { x with tcIdx := none, tcWords := [] }
    (s.putStaged p e m).setMemW p 0 (32 * e + 24) (y.2 &&& 0x7F)
  | none => s.setSlice sl { x with tcIdx := some e, tcWords := m }

/-- A write to the TCAM; one that runs over into the next entry reaches both, in order. -/
def State.tcWriteWords (s : State) (sl a : Nat) (data : List Word) : State :=
  let e := a / 32
  let s := s.tcWritePart sl e (entryPart e a data)
  let rest := entryPart (e + 1) a data
  if rest.isEmpty then s else s.tcWritePart sl (e + 1) rest

/-- A word of the Tally store (R311): the record whose VALID bit stands is the slot's record. -/
def State.storeWord (s : State) (h a : Nat) (v : Word) : State :=
  let p := pgHbm h
  let k := a / 16
  let ws := (s.winWords p 0 (16 * k) 16).set (a % 16) v
  if bit (wordAt ws 15) 16 then
    (s.setMemWs p 0 (16 * k) (List.replicate 16 0)).setRec h k (some (recOf (wordsLe ws)))
  else (s.setRec h k none).setMemWs p 0 (16 * k) ws

/-- Write one word of the memories that are held in fields of their own. -/
def State.winPutWord (s : State) (p sel a : Nat) (v : Word) : State :=
  let h := pageHalfNat p
  match pageBlk p with
  | some .wllpm | some .wlem => s.setMemW p sel a (v ^^^ s.trieMask p sel a)
  | some .matrix =>
    let m := s.matrixOf h
    if sel = 0 then
      s.setMatrix h { m with cells := AMap.set {} m.cells (a / 4) ((AMap.get {} m.cells (a / 4)).setWord (a % 4) v) }
    else if sel = 2 then
      s.setMatrix h { m with drops := AMap.set {} m.drops (a / 4) ((AMap.get {} m.drops (a / 4)).setWord (a % 4) v) }
    else if a % 128 < 66 then
      let k := 64 * (a / 128) + a % 128 / 2
      s.setMatrix h { m with hist := AMap.set 0 m.hist k (setHalfWord (AMap.get 0 m.hist k) (a % 2) v % 2 ^ 48) }
    else s
  | some .hbm => if sel = 0 ∧ a < 2 ^ 28 then s.storeWord h a v else s.setMemW p sel a v
  | some .lanes1 =>
    if sel % 16 = 2 then s.setLane (calLane p sel a) ((s.lane (calLane p sel a)).setCal (a % 64) v) else s.setMemW p sel a v
  | some .kerfIn | some .kerfOut => s.setMemW p sel a (v &&& kerfWordMask sel a)
  | _ => s.setMemW p sel a v

def State.winPutWords (s : State) (p sel : Nat) : Nat → List Word → State
  | _, [] => s
  | a, w :: ws => (s.winPutWord p sel a w).winPutWords p sel (a + 1) ws

/-- The words of a window write are stored: atomically toward lookups, since no step falls between them (R56). -/
def State.winStore (s : State) (p sel a : Nat) (data : List Word) : State :=
  match pageBlk p with
  | some .tcam => s.tcWriteWords ((p - 0x1000) / 0x20) a data
  | some .kerfIn | some .kerfOut =>
    if sel < 2 then
      let s := if s.rbit p Reg.ksStat 2 ∧ (s.reg p Reg.ksEccAddr).toNat % 2048 = sel * 1024 + a / 10
        then s.setRf p Reg.ksStat 2 1 0 else s
      s.setMicro p sel (a / 10) (withEcc (wordsNat data))
    else if sel = 3 then
      ((s.settleMeters p (metersOf a data.length)).winPutWords p sel a data).fillMeters p a data
    else s.winPutWords p sel a data
  | _ => s.winPutWords p sel a data

/-! ### When a write is refused -/

/-- A test or recovery image runs (R158): a cluster runs an image of TYPE 4 or 5. -/
def State.testRuns (s : State) : Bool :=
  [s.forester.west, s.forester.east].any (fun c =>
    (decide (c.st = .standby) || decide (c.st = .head) || decide (c.st = .fenced)) && (decide (c.typ = 4) || decide (c.typ = 5)))

/-- The conditions of R158 for writes by host software. -/
def State.hostMayLoad (s : State) : Bool :=
  decide (s.rst.phase = .run) && !s.rst.restoring && !s.testRuns && !s.rbit pgLifecycle Reg.lcCtrl 0

/-- A select code names a control store, a parser memory or the templates (R158, R159). -/
def programMem (p sel : Nat) : Bool :=
  match pageBlk p with
  | some .parser => true
  | some .kerfIn | some .kerfOut => decide (sel < 2 ∨ sel = 5)
  | _ => false

/-- The head restores, so that R140, R155 and R209 do not refuse its window writes (17_reset_retained.md R455). -/
def State.headRestores (s : State) (r : Requester) : Bool := s.rst.restoring && s.isHead r

/-- The one write of R154: exactly the microword at KS_ECC_ADDR while ECC_BAD is 1. -/
def State.eccRepair (s : State) (p sel a : Nat) : Bool :=
  s.rbit p Reg.ksStat 2 && decide ((s.reg p Reg.ksEccAddr).toNat % 2048 = sel * 1024 + a / 10)

/-- A lane's calibration words may be written (R92). -/
def State.calOpen (s : State) (l : Nat) : Bool :=
  decide ((s.lane l).st = .dormant) || decide (s.rf (pgLane l) (Reg.lnRxcfg (l % 32)) 0 2 = 2)

/-- The owning chapter refuses the write of n words. -/
def State.winRefused (s : State) (r : Requester) (p sel a n : Nat) : Bool :=
  let h := pageHalfNat p
  let sl := (p - 0x1000) / 0x20
  let free := s.headRestores r
  (programMem p sel && decide (r = .host) && !s.hostMayLoad) ||
  (match pageBlk p with
   | some .parser => !free && (decide ((s.slice sl).bank = sel % 16) || (s.slice sl).swap)
   | some .kerfIn | some .kerfOut => decide (sel < 2) && !free && s.bankRef p sel && !s.eccRepair p sel a
   | some .wlem => !free && s.rbit p 0x08 1
   | some .wllpm => s.rbit p 0x08 1
   | some .tally => decide (sel < 16)
   | some .hbm => decide (sel = 0 ∧ a < 2 ^ 28) && s.rbit (pgTally h) Reg.tyCtrl 0
   | some .span => decide (8 ≤ sel)
   | some .lanes1 =>
     decide (sel % 16 < 2) || !(s.calOpen (calLane p sel a) && s.calOpen (calLane p sel (a + n - 1)))
   | _ => false)

/-- The address and length lie outside the memory, or are no whole entry where only whole entries are written (R56, R160). -/
def winRange (p op sel a n : Nat) : Bool :=
  let unit := match pageBlk p with
    | some .parser => if 2 ≤ sel then 5 else 0
    | some .kerfIn | some .kerfOut => if sel < 2 then 10 else 0
    | _ => 0
  decide (16 < n ∨ winSize p sel < a + n) || (decide (op = 2 ∧ unit ≠ 0) && decide (a % unit ≠ 0 ∨ n ≠ unit))

/-! ### The command -/

/-- ERR codes (Table 19). -/
abbrev winRefuse : Nat := 1
abbrev winRangeErr : Nat := 2
abbrev winEcc : Nat := 3
abbrev winBad : Nat := 5

/-- The record that extends M5 (R159). -/
def winRecord (p sel a : Nat) (data : List Word) : List Byte :=
  beBytes 4 p ++ beBytes 4 sel ++ beBytes 4 a ++ beBytes 4 data.length ++ data.flatMap (fun w => beBytes 4 w.toNat)

/-- An uncorrectable error that a window read found in a Woodlot memory acts as one that a lookup finds (06_tables.md R204). -/
def State.winWoodEcc (s : State) (h sel a : Nat) (lpm : Bool) : State :=
  match s.winLoc h lpm sel a with
  | some l => s.woodEcc h l true
  | none => (s.count (pgWlem h) Reg.wlEccUncorr 1).raise (pgWlem h) evWlUncorr

/-- The PULSE of KIND ECC_UNCORR that a block sends for an uncorrectable error in a memory for which its page has neither a counter nor an
event: CODE 0, from the source of the slice for a Tally cache, else from the page's own (DESIGN CHOICE, log entry 92). -/
def State.winEccPulse (s : State) (p sel : Nat) : State :=
  let cache := decide (pageBlk p = some .tally ∧ sel < 16)
  s.send { src := if cache then 96 + 12 * (16 * pageHalfNat p + sel) + 10 else pageSrc p, code := 0, typ := .pulse, kind := 2
           inst := if cache then 0 else msgInst p, info := 0, time := BitVec.ofNat 64 (tsOf s.now) }

/-- The block reports an uncorrectable error that a window read found (R56). -/
def State.winEccReport (s : State) (p sel a : Nat) : State :=
  match pageBlk p with
  | some .kerfIn | some .kerfOut => (s.count p Reg.ksEccUncorr 1).raise p evKsUncorr
  | some .wlem => s.winWoodEcc (pageHalfNat p) sel a false
  | some .wllpm => s.winWoodEcc (pageHalfNat p) sel a true
  | some .hbm => s.hbmUncorr (pageHalfNat p) (2 ^ 26 * sel + a / 16)
  | some .tcam => match pageSlice p with | some sl => s.tcFault sl (a / 32) | none => s
  | _ => s.winEccPulse p sel

/-- A window write that nothing stands against: M5 is extended for a host write of a program memory (R159). -/
def State.winWriteRun (s : State) (r : Requester) (p sel a : Nat) (data : List Word) : State :=
  let s := if programMem p sel ∧ r = .host then s.extend 5 (winRecord p sel a data) else s
  s.winStore p sel a data

/-- Data words go into WIN_DATA, from the i-th on. -/
def State.setWinData (s : State) (p : Nat) : Nat → List Word → State
  | _, [] => s
  | i, w :: ws => (s.setReg p (Reg.winData i) w).setWinData p (i + 1) ws

/-- A window command runs: the state, and the code it ends with. -/
def State.winRun (s : State) (r : Requester) (p op n sel a : Nat) (data : List Word) (ecc : Bool) : State × Nat :=
  if op ≠ 1 ∧ op ≠ 2 then (s, winBad)
  else if winRange p op sel a n then (s, winRangeErr)
  else if op = 1 then
    let s := if pageBlk p = some .lanes1 ∧ sel % 16 = 2 then
      s.lanesDrift [calLane p sel a, calLane p sel (a + n - 1)] else s
    let s := s.setWinData p 0 (s.winWords p sel a n)
    if ecc then (s.winEccReport p sel a, winEcc) else (s, 0)
  else if s.winRefused r p sel a n then (s, winRefuse)
  else (s.winWriteRun r p sel a data, 0)

/-- A WIN_CMD write captures the staging registers and the data words (R55). -/
def State.winCapture (s : State) (p : Nat) (v : Word) : PostKind :=
  let n := fld v 2 5 + 1
  .window (fld v 0 2) n (s.rf p Reg.winSel 0 8) (s.reg p Reg.winAddr).toNat
    (if fld v 0 2 = 2 then (List.range (min 16 n)).map (fun i => s.reg p (Reg.winData i)) else [])

/-- A window command that carries an EPOCH runs: a write of a cluster that is no longer the head's is rejected, changes nothing and
ends with REFUSED (16_forester_security.md R428). -/
def State.winChecked (s : State) (r : Requester) (p op n sel a : Nat) (data : List Word) (ecc : Bool) (epoch : Nat) : State × Nat :=
  if op = 2 ∧ s.writeFenced r p epoch then
    (match reqCluster r with | some c => s.fenced c (accessTo r p Reg.winCmd 0) | none => s, winRefuse)
  else s.winRun r p op n sel a data ecc

/-- The window command posted on a page ends (R56): WIN_STAT.DONE with its code. A command into HBM waits while the stack
retrains (R51). -/
def State.winDone (s : State) (p : Nat) (ecc : Bool) : State :=
  match AMap.get none s.bus.posted p with
  | some { req := r, kind := .window op n sel a data, ord := _, epoch := e } =>
    if pageBlk p = some .hbm ∧ (s.hbmOf (pageHalfNat p)).st = .retrain then s
    else
      let x := s.winChecked r p op n sel a data ecc e
      let s : State := { x.1 with bus := { x.1.bus with posted := AMap.set none x.1.bus.posted p none } }
      s.setReg p Reg.winStat (BitVec.ofNat 32 (1 + 2 * x.2))
  | _ => s

end Sys2Proof.Machine
end

