-- ==== Sys2Proof/Machine/Bus.lean ====
section
/-! DEFINITION. Register accesses on the bus (02_registers.md R37 to R43, R48, R50 to R60, R491): bus errors, readiness,
fencing, posting buffers, window commands, fences, reads. -/

namespace Sys2Proof.Machine

/-! ### Decoding an access -/

/-- A page can be reached: its half is out of reset, and the Flume management channel is up where the access crosses it
(Table 16). -/
def State.reachable (s : State) (r : Requester) (p : Nat) : Bool :=
  match pageHalf p with
  | some h => s.halfUp h.val && (s.flumeUp || (decide (h.val = 1) == decide (r = .east)))
  | none => s.flumeUp || decide (r ≠ .east)

/-- The first cause of Table 16, in the order of R491, that the access has before it reaches its page: UNALIGNED to RESERVED. -/
def State.frontCause (s : State) (write : Bool) (a : Access) : Option Nat :=
  let p := accPage a
  let o := accOff a
  let wide := !write && decide (a.size = 8) && isWide p o
  if a.addr % 4 ≠ 0 ∨ (write = false ∧ a.size = 8 ∧ a.addr % 8 ≠ 0) then some beUnaligned
  else if 4 < a.size ∧ wide = false then some beWide
  else if a.size < 4 ∨ a.be % 16 ≠ 15 then some beNarrow
  else if (pageBlk p).isNone then some beUnmapped
  else if s.reachable a.req p = false then some beUnreachable
  else if (regSpec p o).isNone then some beReserved
  else none

/-- A window staging register: it belongs to the front end (R50). -/
def isStaging (p o : Nat) : Bool := pageSlow p && decide (0x8000 ≤ o ∧ o ≠ 0x8008)

/-- A write goes through the posting buffer of its page (R50). -/
def postsWrite (p o : Nat) : Bool := pageSlow p && (decide (o = 0x08) || (decide (0x40 ≤ o) && !isStaging p o))

/-- A register of which no field is writable (R40). -/
def readOnly (p o : Nat) : Bool :=
  match regSpec p o with | some x => decide (x.w = 0 ∧ x.w1s = 0) && !x.wo | none => true

/-- A register with an RWL field on a locked page (R38). -/
def State.lockHits (s : State) (p o : Nat) : Bool :=
  s.locked p && (match regSpec p o with | some x => decide (x.lk ≠ 0) | none => false)

/-! ### Writes -/

/-- A write takes effect in its page (R38, R40). -/
def State.performWrite (s : State) (a : Access) : State :=
  let p := accPage a
  let o := accOff a
  if readOnly p o then s.busError a true beReadOnly
  else
    let s := if s.lockHits p o then s.busError a true beLocked else s
    s.writeAt a.req p o a.value

/-- A write that carries an EPOCH and passes FENCED and NOT_READY takes effect; the others are logged (R37, R428). The staging registers belong to the
front end and take writes while the block is not ready (R50, R56); WIN_CMD, which the block performs, does not (DEDUCED, log entry
15). -/
def State.tryWrite (s : State) (a : Access) (epoch : Nat) (f : State → State) : State :=
  let p := accPage a
  if s.writeFenced a.req p epoch then
    (match reqCluster a.req with | some c => s.fenced c a | none => s)
  else if 0x40 ≤ accOff a ∧ isStaging p (accOff a) = false ∧ s.pageReady a.req p = false then s.busError a true beNotReady
  else f s

/-- A write that needs the posting buffer reaches the front end: a block that is not ready takes none (R37). FENCED is not among the
causes here, because the EPOCH is checked on the edge on which the write takes effect (R428). -/
def State.tryPost (s : State) (a : Access) (f : State → State) : State :=
  if s.pageReady a.req (accPage a) = false then s.busError a true beNotReady else f s

/-- A write finds the posting buffer in use (R52); the log takes the first cause that applies (R491). -/
def State.lostWrite (s : State) (a : Access) : State :=
  let p := accPage a
  let o := accOff a
  (s.raise p 23).busError a true
    (if readOnly p o then beReadOnly else if s.lockHits p o then beLocked else beWlost)

/-- A write enters the posting buffer (R50, R55): WIN_CMD captures the staging registers and clears WIN_STAT. -/
def State.postWrite (s : State) (a : Access) (epoch : Nat) : State :=
  let p := accPage a
  let o := accOff a
  if s.wbusy p then s.lostWrite a
  else
    let k := if o = Reg.winCmd then s.winCapture p a.value else .write o a.value
    let s := if o = Reg.winCmd then s.setReg p Reg.winStat 0 else s
    { s with bus := { s.bus with posted := AMap.set none s.bus.posted p (some { req := a.req, kind := k, ord := s.bus.posts, epoch := epoch })
                                 posts := s.bus.posts + 1 } }

/-- The word of BAR2 that an access begins at. -/
def bar2Word (a : Access) : Nat := (a.addr - bar2Base) / 4

/-- A write with the EPOCH it carries reaches the device: a word of BAR2 (12_host_interface.md R346), or a register: dropped and
logged for a cause of R491, posted, or performed. -/
def State.takeWrite (s : State) (a : Access) (epoch : Nat) : State :=
  if a.bar2 then s.bar2Write (bar2Word a) a.be a.value
  else match s.frontCause true a with
    | some k => s.busError a true k
    | none =>
      if postsWrite (accPage a) (accOff a) = false then s.tryWrite a epoch (·.performWrite a)
      else if accOff a = Reg.pgCtrl then s.postWrite a epoch
      else s.tryPost a (·.postWrite a epoch)

/-! ### Reads -/

/-- A read waits until WBUSY is 0 (R53): block registers and WIN_DATA of a slow page. -/
def readWaits (p o : Nat) : Bool := pageSlow p && decide (0x40 ≤ o) && !decide (0x8000 ≤ o ∧ o < 0x8040)

/-- The words a read returns, and the requester's shadow after it (R41, R43); TM_NOW leaves its high seconds in TM_NOW_HI
(10_telemetry.md R323). -/
def State.answerRead (s : State) (a : Access) : State :=
  let r := a.req
  let p := accPage a
  let o := accOff a
  let v := s.readVal r p o
  let lo : Word := BitVec.ofNat 32 v
  let hi : Word := BitVec.ofNat 32 (v / 2 ^ 32)
  let s := if p = pgTime ∧ o = Reg.tmNow then s.setSel r p Reg.tmNowHi (s.now / 1000000000 / 2 ^ 32 % 65536) else s
  if a.size = 8 then s.emit (.readData r [lo, hi])
  else if isHigh p o then s.emit (.readData r [AMap.get 0 s.bus.shadow (busKey r p)])
  else if isWide p o then
    ({ s with bus := { s.bus with shadow := AMap.set 0 s.bus.shadow (busKey r p) hi } } : State).emit (.readData r [lo])
  else s.emit (.readData r [lo])

/-- An access joins those that wait. -/
def State.hold (s : State) (x : Held) : State := { s with bus := { s.bus with held := s.bus.held ++ [x] } }

/-- A read reaches the device: aborted and logged for a cause of R491, 0 from a block that is not ready (R37), held while a
posted write is under way (R53), or answered. -/
def State.takeRead (s : State) (a : Access) : State :=
  let p := accPage a
  let o := accOff a
  if a.bar2 then s.bar2Read (bar2Word a) a.size
  else match s.frontCause false a with
    | some k => (s.busError a false k).emit (.readAbort a.req)
    | none =>
      if 0x40 ≤ o ∧ isStaging p o = false ∧ s.pageReady a.req p = false then
        s.emit (.readData a.req (if a.size = 8 then [0, 0] else [0]))
      else if readWaits p o ∧ s.wbusy p then s.hold { write := false, acc := a, fenced := false }
      else s.answerRead a

/-! ### Fences (R58, R59) -/

/-- A fence of a requester is held. -/
def State.fenceRuns (s : State) (r : Requester) : Bool := (AMap.get none s.bus.fence (reqIdx r)).isSome

/-- An access arrives with the EPOCH it carries: a fence of its requester holds it; while CTRL.STRICT is 1 a write implies a
fence. -/
def State.access (s : State) (write : Bool) (a : Access) (epoch : Nat) : State :=
  if s.fenceRuns a.req then s.hold { write := write, acc := a, fenced := true, epoch := epoch }
  else if write then
    let strict := s.rbit pgOrder Reg.orderCtrl 0
    let s := s.takeWrite a epoch
    if strict then s.startFence a.req else s
  else s.takeRead a

/-- A requester that runs issues an access; a cluster's carries the EPOCH at which it last became head, or what it names
(16_forester_security.md R424, R428). -/
def State.issueWith (s : State) (write : Bool) (a : Access) (epoch : Nat) : State :=
  s.onlyIf (s.runsOn a.req) (·.access write a epoch)

def State.issue (s : State) (write : Bool) (a : Access) : State := s.issueWith write a (s.carried a.req)

def State.accesses (s : State) : List Held → State
  | [] => s
  | x :: xs => (s.access x.write x.acc x.epoch).accesses xs

/-- Answer reads that waited for a posting buffer, in order; the buffer is free. -/
def State.takeReads (s : State) : List Held → State
  | [] => s
  | x :: xs => (s.takeRead x.acc).takeReads xs

/-- WBUSY of a page falls: the reads that waited for it are answered, those issued before a fence that runs too (R53, R58). -/
def State.wbusyFall (s : State) (p : Nat) : State :=
  let hit := fun (x : Held) => !x.fenced && decide (accPage x.acc = p)
  let mine := s.bus.held.filter hit
  ({ s with bus := { s.bus with held := s.bus.held.filter (fun x => !hit x) } } : State).takeReads mine

/-- A fence of a requester releases the accesses it holds, in order; one among them may start the next fence. -/
def State.release (s : State) (r : Requester) : State :=
  let hit := fun (x : Held) => x.fenced && decide (x.acc.req = r)
  let mine := s.bus.held.filter hit
  ({ s with bus := { s.bus with held := s.bus.held.filter (fun x => !hit x) } } : State).accesses mine

/-- The fence of the waiting commit is complete (07_rings.md R224). -/
def State.commitUnfenced (s : State) (r : Requester) : State :=
  match s.rings.waiting with
  | some c => if c.req = r then { s with rings := { s.rings with waiting := some { c with fence := false } } } else s
  | none => s

/-- A fence completes when every earlier write of its requester has taken effect (R58): FENCE_CNT and FENCE_MAX, and the held
accesses go on. -/
def State.fenceEnd (s : State) (r : Requester) : State :=
  match AMap.get none s.bus.fence (reqIdx r) with
  | none => s
  | some t =>
    if s.writesWait r then s
    else
      let s : State := { s with bus := { s.bus with fence := AMap.set none s.bus.fence (reqIdx r) none } }
      let s := s.count pgOrder Reg.fenceCnt 1
      let d := (s.clk.up - t) / 10
      let s := if (s.reg pgOrder Reg.fenceMax).toNat < d then s.setReg pgOrder Reg.fenceMax (BitVec.ofNat 32 d) else s
      (s.commitUnfenced r).release r

/-- The owning block performs the posted register write of a page and WBUSY falls (R50); readiness, fencing and the lock are
judged on this edge (R37, R38, R428). -/
def State.posted (s : State) (p : Nat) : State :=
  match AMap.get none s.bus.posted p with
  | some { req := r, kind := .write o v, ord := _, epoch := e } =>
    let a := accessTo r p o v
    let s : State := { s with bus := { s.bus with posted := AMap.set none s.bus.posted p none } }
    (s.tryWrite a e (·.performWrite a)).wbusyFall p
  | _ => s

/-! ### The commands -/

/-- REGISTER_WRITE (R57), or a write of a word of BAR2 (12_host_interface.md R346). -/
def execRegisterWrite (a : Access) (s : State) : Out := s.run (·.issue true a)

/-- COUNTER_LOW_READ (R41, R43): a read, of BAR2 too. -/
def execCounterLowRead (a : Access) (s : State) : Out := s.run (·.issue false a)

/-- COUNTER_HIGH_WRITE (R43). -/
def execCounterHighWrite (req : Requester) (page off : Nat) (value : Word) (s : State) : Out :=
  s.run (·.issue true (accessTo req page off value))

/-- COUNTER_LOW_WRITE (R43). -/
def execCounterLowWrite (req : Requester) (page off : Nat) (value : Word) (s : State) : Out :=
  s.run (·.issue true (accessTo req page off value))

/-- PG_EVT_CLEAR (R48). -/
def execPgEvtClear (req : Requester) (page : Nat) (value : Word) (s : State) : Out :=
  s.run (·.issue true (accessTo req page Reg.pgEvt value))

/-- PG_LOCK (R38): LOCK written as 1. -/
def execPgLock (req : Requester) (page : Nat) (s : State) : Out := s.run (·.issue true (accessTo req page Reg.pgLock 1))

/-- POSTED_WRITE_PERFORMED (R50). -/
def execPostedWritePerformed (page : Nat) (s : State) : Out := s.run (·.posted page)

/-- The WIN_CMD word of an OP and the field NWORDS - 1. -/
def winCmdWord (op n : Nat) : Word := BitVec.ofNat 32 (op + 4 * n)

/-- WIN_READ (R55). -/
def execWinRead (req : Requester) (page : Nat) (nwords : Fin 32) (s : State) : Out :=
  s.run (·.issue true (accessTo req page Reg.winCmd (winCmdWord 1 nwords.val)))

/-- WIN_WRITE (R55). -/
def execWinWrite (req : Requester) (page : Nat) (nwords : Fin 32) (s : State) : Out :=
  s.run (·.issue true (accessTo req page Reg.winCmd (winCmdWord 2 nwords.val)))

/-- WIN_BAD_OP (R56): OP 0b00, or 0b11. -/
def execWinBadOp (req : Requester) (page : Nat) (hi : Bool) (nwords : Fin 32) (s : State) : Out :=
  s.run (·.issue true (accessTo req page Reg.winCmd (winCmdWord (if hi then 3 else 0) nwords.val)))

/-- WIN_CMD_DONE (R56). -/
def execWinCmdDone (page : Nat) (eccBad : Bool) (s : State) : Out :=
  s.run (fun s => if s.wbusy page then
    (let t := s.winDone page eccBad
     if t.wbusy page then t else t.wbusyFall page) else s)

/-- FENCE (R58). -/
def execFence (req : Requester) (s : State) : Out := s.run (·.issue true (accessTo req pgOrder Reg.orderFence 0))

/-- FENCE_DONE (R58). -/
def execFenceDone (req : Requester) (s : State) : Out := s.run (·.fenceEnd req)

/-! ### Writes of one register with rows of their own: they reach their page as every write does (R37 to R40, R50 to R59) -/

/-- A requester writes a register. -/
def State.regWrite (s : State) (r : Requester) (p o : Nat) (v : Word) : State := s.issue true (accessTo r p o v)

/-- BLK_RST (Table 14, 17_reset_retained.md R452): PG_CTRL.BLK_RST written as 1, ENABLE as it stands. A slow page posts it. -/
def execBlkRst (page : PageBy) (s : State) : Out :=
  s.run (fun s => s.regWrite page.req page.page Reg.pgCtrl (put (s.reg page.page Reg.pgCtrl) 0 1 1))

/-- MC_CLEAR_LOCK (16_forester_security.md R446): LC_CTRL written, on a slow page. -/
def execMcClearLock (req : Requester) (s : State) : Out := s.run (·.regWrite req pgLifecycle Reg.lcCtrl 1)

/-- DEBUG_LOCK (R446). -/
def execDebugLock (req : Requester) (s : State) : Out := s.run (·.regWrite req pgLifecycle Reg.lcCtrl 2)

/-- COMMIT (07_rings.md R223): a write of RING_CTRL with COMMIT = 1 and AT as given. -/
def execCommit (req : Requester) (atTime : Bool) (s : State) : Out :=
  s.run (·.regWrite req pgRing Reg.ringCtrl (BitVec.ofNat 32 (1 + 2 * b2n atTime)))

/-- CANCEL (07_rings.md R229): a write of RING_CTRL with CANCEL = 1, AT as it stands. -/
def execCancel (req : Requester) (s : State) : Out :=
  s.run (fun s => s.regWrite req pgRing Reg.ringCtrl (put 4 1 1 (s.rf pgRing Reg.ringCtrl 1 1)))

/-- RING_MAXAGE (07_rings.md R233). -/
def execRingMaxage (req : Requester) (value : Word) (s : State) : Out := s.run (·.regWrite req pgRing Reg.ringMaxage value)

/-- POOL_ALLOC (08_deck_admission.md R248): DK_POOL_ALLOC of a pool written. -/
def execPoolAlloc (req : Requester) (h : Half) (n : Fin 8) (s : State) : Out :=
  s.run (·.regWrite req (pgDeck h.val) (0x208 + 0x20 * n.val) 1)

/-- POOL_FREE (08_deck_admission.md R248): DK_POOL_FREE of a pool written with a cell. -/
def execPoolFree (req : Requester) (h : Half) (n : Fin 8) (cell : BitVec 20) (s : State) : Out :=
  s.run (·.regWrite req (pgDeck h.val) (0x20C + 0x20 * n.val) (cell.setWidth 32))

/-- RAFT_ENABLE (11_raft.md R327): a write of the West RF_CTRL. -/
def execRaftEnable (req : Requester) (value : Word) (s : State) : Out := s.run (·.regWrite req (pgHalf 0) Reg.rfCtrl value)

/-- SNAP (13_cruiser_counters.md R373): CR_CTRL written with SNAP = 1, its other field as it stands. -/
def execSnap (req : Requester) (s : State) : Out :=
  s.run (fun s => s.regWrite req pgCruiser Reg.crCtrl (put 1 2 1 (s.rf pgCruiser Reg.crCtrl 2 1)))

/-- STOP (13_cruiser_counters.md R377). -/
def execStop (req : Requester) (s : State) : Out :=
  s.run (fun s => s.regWrite req pgCruiser Reg.crCtrl (put 2 2 1 (s.rf pgCruiser Reg.crCtrl 2 1)))

/-- PK_CLR (13_cruiser_counters.md R384): CR_BW_CTRL written with PK_CLR = 1, WIN as it stands. -/
def execPkClr (req : Requester) (s : State) : Out :=
  s.run (fun s => s.regWrite req pgCruiser Reg.crBwCtrl (put (s.reg pgCruiser Reg.crBwCtrl) 8 1 1))

/-- WIN_LENGTH_WRITE (13_cruiser_counters.md R384). -/
def execWinLengthWrite (req : Requester) (k : Fin 8) (s : State) : Out :=
  s.run (·.regWrite req pgCruiser Reg.crBwCtrl (BitVec.ofNat 32 k.val))

/-- FIXED (15_firebreak_power.md R412): FB_CTRL written, its other fields as they stand; the page may be locked (R38). -/
def execFixed (req : Requester) (on : Bool) (s : State) : Out :=
  s.run (fun s => s.regWrite req pgFirebreak Reg.fbCtrl (put (s.reg pgFirebreak Reg.fbCtrl) 0 1 (b2n on)))

/-- FB_CAL_UPDATE (15_firebreak_power.md R404): a cluster's write, which carries the EPOCH given; it is checked against the head
register when it takes effect (16_forester_security.md R428), and a cluster that cannot reach the page writes nothing
(01_architecture.md R20). -/
def execFbCalUpdate (cl : Half) (epoch : Word) (value : Word) (s : State) : Out :=
  s.run (·.issueWith true (accessTo (if cl.val = 0 then .west else .east) pgFirebreak Reg.fbCal value) epoch.toNat)

end Sys2Proof.Machine
end

