-- ==== Sys2Proof/Machine/Crypto.lean ====
section
/-! DEFINITION. AES-256-GCM (FIPS 197, SP 800-38D) and ML-DSA-87 (FIPS 204), which unseal and sign images and sign attestation reports
(16_forester_security.md R438, R443). The spec names the standards; what they compute is taken from there (PRESUMED, log entry 8). -/

namespace Sys2Proof.Machine

/-! ### AES-256 (FIPS 197) -/

/-- Multiplication by x in GF(2^8). -/
def gfDouble (a : Byte) : Byte := (a <<< 1) ^^^ (if a.msb then 0x1B else 0)

/-- Product in GF(2^8), n bits of the second factor from bit 0 on. -/
def gfMul : Nat → Byte → Byte → Byte
  | 0, _, _ => 0
  | n + 1, a, b => (if b.getLsbD 0 then a else 0) ^^^ gfMul n (gfDouble a) (b >>> 1)

/-- The inverse, a^254: the product of a^2, a^4 to a^128. -/
def gfInv (a : Byte) : Byte :=
  ((List.range 7).foldl (fun (r : Byte × Byte) _ => let sq := gfMul 8 r.1 r.1; (sq, gfMul 8 r.2 sq)) (a, 1)).2

/-- The S-box: the inverse, then the affine map. -/
def aesSub (a : Byte) : Byte :=
  let b := gfInv a
  b ^^^ b.rotateLeft 1 ^^^ b.rotateLeft 2 ^^^ b.rotateLeft 3 ^^^ b.rotateLeft 4 ^^^ 0x63

/-- Exclusive or, byte by byte. -/
def xorBytes (a b : List Byte) : List Byte := List.zipWith (· ^^^ ·) a b

/-- One word more of the key schedule of a key of eight words; ws holds the words so far, newest first, rc the round constant. -/
def aesNextWord (ws : List (List Byte)) (rc : Byte) : List Byte :=
  let i := ws.length
  let t := ws.headD []
  let t := if i % 8 = 0 then xorBytes ((t.drop 1 ++ t.take 1).map aesSub) [rc, 0, 0, 0]
    else if i % 8 = 4 then t.map aesSub else t
  xorBytes (ws.getD 7 []) t

/-- n words more of the key schedule. -/
def aesWords : Nat → Byte → List (List Byte) → List (List Byte)
  | 0, _, ws => ws
  | n + 1, rc, ws => aesWords n (if ws.length % 8 = 0 then gfDouble rc else rc) (aesNextWord ws rc :: ws)

/-- The fifteen round keys of a key of 32 bytes. -/
def aesKeys (key : List Byte) : List (List Byte) :=
  let ws := (aesWords 52 1 ((List.range 8).map (fun i => bytesAt key (4 * i) 4)).reverse).reverse
  (List.range 15).map (fun r => ((ws.drop (4 * r)).take 4).flatten)

/-- ShiftRows: byte r + 4c comes from column c + r. -/
def aesShift (b : List Byte) : List Byte := (List.range 16).map (fun i => b.getD (i % 4 + 4 * ((i / 4 + i % 4) % 4)) 0)

/-- MixColumns. -/
def aesMix (b : List Byte) : List Byte :=
  (List.range 16).map (fun i =>
    let x := fun k => b.getD (4 * (i / 4) + (i + k) % 4) 0
    gfDouble (x 0) ^^^ (gfDouble (x 1) ^^^ x 1) ^^^ x 2 ^^^ x 3)

/-- The cipher of a block of 16 bytes under round keys. -/
def aesCipher (ks : List (List Byte)) (b : List Byte) : List Byte :=
  let b := (List.range 13).foldl (fun b r => xorBytes (aesMix (aesShift (b.map aesSub))) (ks.getD (r + 1) [])) (xorBytes b (ks.getD 0 []))
  xorBytes (aesShift (b.map aesSub)) (ks.getD 14 [])

/-! ### Galois counter mode (SP 800-38D) -/

/-- Product of GF(2^128) in the bit order of GCM: n bits of x from bit 127 down, v being y shifted so far. -/
def gcmMul : Nat → BitVec 128 → BitVec 128 → BitVec 128
  | 0, _, _ => 0
  | n + 1, x, v =>
    (if x.msb then v else 0) ^^^ gcmMul n (x <<< 1) ((v >>> 1) ^^^ (if v.getLsbD 0 then 0xE1000000000000000000000000000000 else 0))

/-- Bytes cut into blocks of 16, the last filled with zeros. -/
def gcmBlocks (bs : List Byte) : List (List Byte) := (List.range ((bs.length + 15) / 16)).map (fun i => bytesAt bs (16 * i) 16)

/-- GHASH over blocks. -/
def ghash (h : BitVec 128) (blks : List (List Byte)) : List Byte :=
  beBytes 16 (blks.foldl (fun (y : BitVec 128) b => gcmMul 128 (y ^^^ BitVec.ofNat 128 (beAt b 0 16)) h) 0).toNat

/-- The tag of sealed bytes with additional data, under a nonce of 12 bytes. -/
def gcmTag (ks : List (List Byte)) (iv aad sealed : List Byte) : List Byte :=
  let h := BitVec.ofNat 128 (beAt (aesCipher ks (zeros 16)) 0 16)
  let lens := beBytes 8 (8 * aad.length) ++ beBytes 8 (8 * sealed.length)
  xorBytes (aesCipher ks (iv ++ beBytes 4 1)) (ghash h (gcmBlocks aad ++ gcmBlocks sealed ++ [lens]))

/-- The plaintext of sealed bytes, which is also how plaintext is sealed. -/
def gcmCrypt (ks : List (List Byte)) (iv bs : List Byte) : List Byte :=
  (List.range ((bs.length + 15) / 16)).flatMap (fun i =>
    xorBytes ((bs.drop (16 * i)).take 16) (aesCipher ks (iv ++ beBytes 4 (i + 2))))

/-- AES-256-GCM decryption under a key: none when the tag does not match (R438 step 7). -/
def gcmOpen (key iv aad tag sealed : List Byte) : Option (List Byte) :=
  let ks := aesKeys key
  if gcmTag ks iv aad sealed = tag then some (gcmCrypt ks iv sealed) else none

/-! ### SHAKE (FIPS 202) -/

/-- Absorb one block of r bytes. -/
def Keccak.absorbR (r : Nat) (a : Keccak) (blk : List Byte) : Keccak :=
  Keccak.f ((List.range 25).map (fun i => if 8 * i < r then a.lane i ^^^ BitVec.ofNat 64 (leAt blk (8 * i) 8) else a.lane i))

/-- The last block of r bytes, padded: 1111 after the message, then 1 0* 1. -/
def shakePad (r : Nat) (bs : List Byte) : List Byte :=
  if bs.length + 1 = r then bs ++ [0x9F] else bs ++ [0x1F] ++ zeros (r - 2 - bs.length) ++ [0x80]

/-- Absorb whole blocks while they last, n of them at most, then the padded rest. -/
def shakeIn (r : Nat) (a : Keccak) : Nat → List Byte → Keccak
  | 0, bs => a.absorbR r (shakePad r bs)
  | n + 1, bs => if bs.length < r then a.absorbR r (shakePad r bs) else shakeIn r (a.absorbR r (bs.take r)) n (bs.drop r)

/-- n blocks of r bytes squeezed. -/
def shakeOut (r : Nat) (a : Keccak) : Nat → List Byte
  | 0 => []
  | n + 1 => (a.take (r / 8)).flatMap (fun w => leBytes 8 w.toNat) ++ shakeOut r (Keccak.f a) n

/-- len bytes of the output of SHAKE with a rate of r bytes: 168 of SHAKE128, 136 of SHAKE256. -/
def shake (r : Nat) (bs : List Byte) (len : Nat) : List Byte :=
  (shakeOut r (shakeIn r (List.replicate 25 0) (bs.length / r + 1) bs) ((len + r - 1) / r)).take len

/-- G and H of FIPS 204. -/
def shake128 (bs : List Byte) (len : Nat) : List Byte := shake 168 bs len
def shake256 (bs : List Byte) (len : Nat) : List Byte := shake 136 bs len

/-! ### Polynomials of ML-DSA (FIPS 204): 256 coefficients modulo q -/

abbrev mldsaQ : Nat := 8380417

/-- A polynomial, or its transform. -/
abbrev Poly := List Nat

def Poly.zero : Poly := List.replicate 256 0
def Poly.add (a b : Poly) : Poly := List.zipWith (fun x y => (x + y) % mldsaQ) a b
def Poly.sub (a b : Poly) : Poly := List.zipWith (fun x y => (x + mldsaQ - y) % mldsaQ) a b
def Poly.mul (a b : Poly) : Poly := List.zipWith (fun x y => x * y % mldsaQ) a b

/-- b^e modulo q by n bits of e. -/
def qPow : Nat → Nat → Nat → Nat
  | 0, _, _ => 1
  | n + 1, b, e => (if e % 2 = 1 then b else 1) * qPow n (b * b % mldsaQ) (e / 2) % mldsaQ

/-- The eight bits of a number in reverse order. -/
def bitRev8 (i : Nat) : Nat := ((List.range 8).map (fun k => i / 2 ^ k % 2 * 2 ^ (7 - k))).sum

/-- The root of unity of node i of the transform, 1753 to the power of its reversed number, and its inverse. -/
def mldsaZeta (i : Nat) : Nat := qPow 9 1753 (bitRev8 i)
def mldsaZetaInv (i : Nat) : Nat := qPow 9 1753 (512 - bitRev8 i)

/-- The number-theoretic transform of 2^n coefficients below node i. -/
def nttAt : Nat → Nat → Poly → Poly
  | 0, _, p => p
  | n + 1, i, p =>
    let z := mldsaZeta i
    let a := p.take (2 ^ n)
    let b := (p.drop (2 ^ n)).map (fun x => x * z % mldsaQ)
    nttAt n (2 * i) (Poly.add a b) ++ nttAt n (2 * i + 1) (Poly.sub a b)

/-- The way back, but for the factor 2^n. -/
def nttBack : Nat → Nat → Poly → Poly
  | 0, _, p => p
  | n + 1, i, p =>
    let z := mldsaZetaInv i
    let a := nttBack n (2 * i) (p.take (2 ^ n))
    let b := nttBack n (2 * i + 1) (p.drop (2 ^ n))
    Poly.add a b ++ (Poly.sub a b).map (fun x => x * z % mldsaQ)

def ntt (p : Poly) : Poly := nttAt 8 1 p
/-- 8347681 is the inverse of 256. -/
def nttInv (p : Poly) : Poly := (nttBack 8 1 p).map (fun x => x * 8347681 % mldsaQ)

/-- The product of a matrix and a vector of transforms. -/
def polyMatVec (m : List (List Poly)) (v : List Poly) : List Poly :=
  m.map (fun row => (List.zipWith Poly.mul row v).foldl Poly.add Poly.zero)

/-- A coefficient as an integer between -q/2 and q/2, and an integer as a coefficient. -/
def qCentre (x : Nat) : Int := if mldsaQ < 2 * x then (x : Int) - mldsaQ else x
def qOf (x : Int) : Nat := (x % mldsaQ).toNat

/-- Every coefficient is below a bound in magnitude. -/
def polysBelow (ps : List Poly) (bound : Nat) : Bool := ps.all (fun p => p.all (fun x => decide ((qCentre x).natAbs < bound)))

/-! ### Packing (FIPS 204 section 7.1) -/

/-- 256 fields of w bits packed into bytes, least significant bit first. -/
def packBits (w : Nat) (xs : List Nat) : List Byte := leBytes (32 * w) ((xs.foldr (fun x a => x % 2 ^ w + 2 ^ w * a) 0))

/-- 256 fields of w bits unpacked. -/
def unpackBits (w : Nat) (bs : List Byte) : List Nat := let n := leNat bs; (List.range 256).map (fun i => n / 2 ^ (w * i) % 2 ^ w)

/-- n polynomials of 256 fields of w bits. -/
def unpackPolys (w n : Nat) (bs : List Byte) : List (List Nat) := (List.range n).map (fun i => unpackBits w ((bs.drop (32 * w * i)).take (32 * w)))

/-! ### Sampling (FIPS 204 section 7.3) -/

/-- The coefficients below q among three-byte groups, until n are found. -/
def rejUniform : Nat → List Byte → List Nat
  | n + 1, a :: b :: c :: bs =>
    let x := a.toNat + 256 * b.toNat + 65536 * (c.toNat % 128)
    if x < mldsaQ then x :: rejUniform n bs else rejUniform (n + 1) bs
  | _, _ => []

/-- A uniform polynomial, sampled as a transform. 1,680 bytes hold 560 candidates, of which fewer than one in 1,000 is refused. -/
def rejPoly (seed : List Byte) : Poly := rejUniform 256 (shake128 seed 1680)

/-- ExpandA: the matrix of eight rows and seven columns. -/
def expandA (rho : List Byte) : List (List Poly) :=
  (List.range 8).map (fun r => (List.range 7).map (fun c => rejPoly (rho ++ leBytes 1 c ++ leBytes 1 r)))

/-- The small coefficients that the half bytes below 15 give: 2 - (b mod 5). -/
def rejBounded : List Byte → List Nat
  | [] => []
  | a :: bs =>
    let f := fun (b : Nat) => if b < 15 then [qOf (2 - (b % 5 : Nat))] else []
    f (a.toNat % 16) ++ f (a.toNat / 16) ++ rejBounded bs

/-- ExpandS: n secret polynomials from number k on. -/
def expandS (rho : List Byte) (k n : Nat) : List Poly :=
  (List.range n).map (fun r => (rejBounded (shake256 (rho ++ leBytes 2 (k + r)) 544)).take 256)

/-- ExpandMask: seven masks from number k on. -/
def expandMask (rho : List Byte) (k : Nat) : List Poly :=
  (List.range 7).map (fun r => (unpackBits 20 (shake256 (rho ++ leBytes 2 (k + r)) 640)).map (fun (x : Nat) => qOf (524288 - (x : Int))))

/-- The places of the challenge: i runs from its first value up while bytes last; a byte above i is passed over; h holds the signs. -/
def ballPlaces : Nat → Nat → Nat → List Byte → Poly → Poly
  | 0, _, _, _, p => p
  | _, _, _, [], p => p
  | n + 1, i, h, j :: bs, p =>
    if 255 < i then p
    else if i < j.toNat then ballPlaces n i h bs p
    else
      let p := (p.set i (p.getD j.toNat 0)).set j.toNat (if h % 2 = 1 then mldsaQ - 1 else 1)
      ballPlaces n (i + 1) (h / 2) bs p

/-- SampleInBall: sixty coefficients of 1 or -1. -/
def sampleInBall (seed : List Byte) : Poly :=
  let b := shake256 seed 952
  ballPlaces 944 196 (leNat (b.take 8)) (b.drop 8) Poly.zero

/-! ### Rounding (FIPS 204 section 7.4) -/

/-- Power2Round: high and low part of a coefficient, the low part of 13 bits, centred. -/
def power2Round (x : Nat) : Nat × Int :=
  let lo : Int := if 4096 < x % 8192 then (x % 8192 : Nat) - 8192 else (x % 8192 : Nat)
  ((((x : Int) - lo) / 8192).toNat, lo)

/-- Decompose: high part below 16 and the centred low part, by 523,776. -/
def decomposeQ (x : Nat) : Nat × Int :=
  let lo : Int := if 261888 < x % 523776 then (x % 523776 : Nat) - 523776 else (x % 523776 : Nat)
  if (x : Int) - lo = mldsaQ - 1 then (0, lo - 1) else ((((x : Int) - lo) / 523776).toNat, lo)

def highBits (x : Nat) : Nat := (decomposeQ x).1

/-- UseHint. -/
def useHint (h : Bool) (x : Nat) : Nat :=
  let d := decomposeQ x
  if h then (if 0 < d.2 then (d.1 + 1) % 16 else (d.1 + 15) % 16) else d.1

/-! ### Keys and signatures -/

/-- HintBitUnpack: the places of the hints of each of the k polynomials left, from place i of the 75 on; none when they are not spelt as
the standard asks. -/
def hintPlaces (bs : List Byte) : Nat → Nat → Option (List (List Nat))
  | 0, i => if ((bs.take 75).drop i).all (· == 0) then some [] else none
  | k + 1, i =>
    let e := (bs.getD (82 - k) 0).toNat
    let xs := ((bs.take e).drop i).map (·.toNat)
    if e < i ∨ 75 < e ∨ (List.zipWith (fun (a b : Nat) => decide (a < b)) xs (xs.drop 1)).all id = false then none
    else (hintPlaces bs k e).map (xs :: ·)

/-- HintBitPack of the places of the hints. -/
def hintPack (hs : List (List Nat)) : List Byte :=
  let xs := hs.flatten
  xs.map (BitVec.ofNat 8) ++ zeros (75 - xs.length)
    ++ (List.range hs.length).map (fun i => BitVec.ofNat 8 ((hs.take (i + 1)).flatten.length))

/-- The message that is signed in pure mode, with its context string. -/
def mldsaPure (context message : List Byte) : List Byte := [0] ++ leBytes 1 context.length ++ context ++ message

/-- ML-DSA-87 verification in pure mode with a context string (R438 step 4). -/
def mldsaVerify (pk context message sig : List Byte) : Bool :=
  let z := (unpackPolys 20 7 (bytesAt sig 64 4480)).map (fun p => p.map (fun (x : Nat) => qOf (524288 - (x : Int))))
  match hintPlaces (bytesAt sig 4544 83) 8 0 with
  | none => false
  | some hs =>
    let t1 := unpackPolys 10 8 (bytesAt pk 32 2560)
    let mu := shake256 (shake256 pk 64 ++ mldsaPure context message) 64
    let c := ntt (sampleInBall (bytesAt sig 0 64))
    let az := polyMatVec (expandA (bytesAt pk 0 32)) (z.map ntt)
    let ct := t1.map (fun p => Poly.mul c (ntt (p.map (fun x => x * 8192 % mldsaQ))))
    let w := (List.zipWith Poly.sub az ct).map nttInv
    let w1 := List.zipWith (fun (p : Poly) h => (List.range 256).map (fun i => useHint (h.contains i) (p.getD i 0))) w hs
    polysBelow z 524168 && decide (shake256 (mu ++ w1.flatMap (packBits 4)) 64 = bytesAt sig 0 64)

/-- A private key of ML-DSA-87, as its parts: rho, K, tr, the transforms of s1, s2 and t0. -/
structure MldsaKey where
  rho : List Byte
  k   : List Byte
  tr  : List Byte
  s1  : List Poly
  s2  : List Poly
  t0  : List Poly
  deriving DecidableEq, Repr

/-- Key generation from a seed of 32 bytes: public key and private key. -/
def mldsaKeys (seed : List Byte) : List Byte × MldsaKey :=
  let b := shake256 (seed ++ [8, 7]) 128
  let rho := b.take 32
  let s1 := expandS ((b.drop 32).take 64) 0 7
  let s2 := expandS ((b.drop 32).take 64) 7 8
  let t := List.zipWith Poly.add ((polyMatVec (expandA rho) (s1.map ntt)).map nttInv) s2
  let pk := rho ++ t.flatMap (fun p => packBits 10 (p.map (fun x => (power2Round x).1)))
  (pk, { rho := rho, k := b.drop 96, tr := shake256 pk 64, s1 := s1.map ntt, s2 := s2.map ntt
         t0 := t.map (fun p => ntt (p.map (fun x => qOf (power2Round x).2))) })

/-- One attempt to sign the message representative mu with masks from number kappa on; none when it is rejected. -/
def mldsaTry (key : MldsaKey) (a : List (List Poly)) (mu rho : List Byte) (kappa : Nat) : Option (List Byte) :=
  let y := expandMask rho kappa
  let w := (polyMatVec a (y.map ntt)).map nttInv
  let ch := shake256 (mu ++ w.flatMap (fun p => packBits 4 (p.map highBits))) 64
  let c := ntt (sampleInBall ch)
  let z := List.zipWith (fun y s => Poly.add y (nttInv (Poly.mul c s))) y key.s1
  let r := List.zipWith (fun w s => Poly.sub w (nttInv (Poly.mul c s))) w key.s2
  let ct0 := key.t0.map (fun t => nttInv (Poly.mul c t))
  if polysBelow z 524168 = false ∨ r.all (fun p => p.all (fun x => decide ((decomposeQ x).2.natAbs < 261768))) = false
      ∨ polysBelow ct0 261888 = false then none
  else
    let hs := List.zipWith (fun (r t : Poly) => (List.range 256).filter (fun i =>
      decide (highBits (r.getD i 0) ≠ highBits ((r.getD i 0 + t.getD i 0) % mldsaQ)))) r ct0
    if 75 < hs.flatten.length then none
    else some (ch ++ z.flatMap (fun p => packBits 20 (p.map (fun x => (524288 - qCentre x).toNat))) ++ hintPack hs)

/-- Attempts at masks kappa, kappa + 7 and so on, n at most. -/
def mldsaTries (key : MldsaKey) (a : List (List Poly)) (mu rho : List Byte) : Nat → Nat → List Byte
  | 0, _ => []
  | n + 1, kappa =>
    match mldsaTry key a mu rho kappa with
    | some sig => sig
    | none => mldsaTries key a mu rho n (kappa + 7)

/-- ML-DSA-87 signature in pure mode with a context string, made with the private key of a seed and 32 random bytes; 814 attempts are what
FIPS 204 asks of an implementation that bounds them. -/
def mldsaSign (seed rnd context message : List Byte) : List Byte :=
  let key := (mldsaKeys seed).2
  let mu := shake256 (key.tr ++ mldsaPure context message) 64
  mldsaTries key (expandA key.rho) mu (shake256 (key.k ++ rnd ++ mu) 64) 814 0

end Sys2Proof.Machine
end

