-- ==== Sys2Proof/Machine/Image.lean ====
section
/-! DEFINITION. Signed images (16_forester_security.md R437 to R440, R444) and load sections (05_parser_kerf.md R161): what
verification checks, how records parse, and how a loader applies them. -/

namespace Sys2Proof.Machine

/-! ### Mailbox status codes (Table 165) -/
abbrev mbOk : Nat := 0
abbrev mbBadOp : Nat := 1
abbrev mbBadArg : Nat := 2
abbrev mbNoHead : Nat := 3
abbrev mbRefused : Nat := 4
abbrev mbAuth : Nat := 5
abbrev mbDecrypt : Nat := 6
abbrev mbDigest : Nat := 7
abbrev mbRollback : Nat := 8
abbrev mbState : Nat := 9
abbrev mbDma : Nat := 10
abbrev mbInterrupted : Nat := 11
abbrev mbNotFound : Nat := 12
abbrev mbStorage : Nat := 13
abbrev mbShort : Nat := 14

/-! ### The header (Table 166) -/

def imgType (b : List Byte) : Nat := leAt b 6 2
def imgSealed (b : List Byte) : Bool := decide (leAt b 8 4 % 2 = 1)
def imgSvn (b : List Byte) : Nat := leAt b 0x0C 4
def imgVersion (b : List Byte) : Nat := leAt b 0x10 4
def imgLen (b : List Byte) : Nat := leAt b 0x14 4
def imgSlot (b : List Byte) : Nat := leAt b 0x18 4 % 4
/-- The bytes that measurement records take from a header (Table 168). -/
def imgRecord (hdr : List Byte) : List Byte := bytesAt hdr 0 0xC0

/-- Step 1 of R438: MAGIC, HDR_VER, TYPE, reserved bytes and PAYLOAD_LEN. -/
def imgFormOk (b : List Byte) : Bool :=
  decide (leAt b 0 4 = 0x4D495856) && decide (leAt b 4 2 = 1) && decide (1 ≤ imgType b ∧ imgType b ≤ 6)
  && decide (leAt b 8 4 < 2) && decide (leAt b 0x1C 4 = 0) && decide (leAt b 0x44 60 = 0) && decide (leAt b 0x1CF3 13 = 0)
  && decide (imgLen b % 16 = 0 ∧ imgLen b ≤ 67108864 ∧ 0x1D00 + imgLen b ≤ b.length)

/-- A TYPE is accepted in a life-cycle state (Table 167). -/
def typeAccepted (life typ : Nat) : Bool :=
  if life = 0 then true
  else if life = 3 then [1, 2, 4, 5].contains typ
  else [1, 2, 3, 5, 6].contains typ

/-- The payload in plaintext, none when the GCM tag does not match (step 7). -/
def imgPlain (b : List Byte) : Option (List Byte) :=
  let p := (b.drop 0x1D00).take (imgLen b)
  if imgSealed b then gcmOpen (Config.imageKey ()) (bytesAt b 0x28 12) (bytesAt b 0 0x28) (bytesAt b 0x34 16) p else some p

/-- What verification of an image comes to: the image, or the status of the first step that fails. -/
inductive Verdict where
  | good (i : Image)
  | bad (status : Nat)
  deriving DecidableEq, Repr

/-- The context string of signatures: the six ASCII bytes VX9204 (R438 step 4). -/
def sigContext : List Byte := [0x56, 0x58, 0x39, 0x32, 0x30, 0x34]

/-- Verification (R438). strict says that only images with ENCRYPTED set are accepted: at start, during test and recovery. -/
def State.verifyImage (s : State) (strict : Bool) (b : List Byte) : Verdict :=
  let slot := imgSlot b
  let pk := bytesAt b 0xC0 2592
  if imgFormOk b = false then .bad mbBadArg
  else if typeAccepted s.fuses.life (imgType b) = false ∨ (2 ≤ slot ∧ imgType b ≠ 3) ∨ (strict ∧ imgSealed b = false) then .bad mbState
  else if Config.revoked slot ∨ s.fusedDigest slot ≠ some (sha3 pk) then .bad mbAuth
  else if mldsaVerify pk sigContext (bytesAt b 0 0xAE0) (bytesAt b 0xAE0 4627) = false then .bad mbAuth
  else if imgSvn b < AMap.get 0 s.fuses.svn (imgType b) then .bad mbRollback
  else if leAt b 0x20 8 ≠ 0 ∧ leAt b 0x20 8 ≠ (Config.serial ()).toNat then .bad mbAuth
  else match imgPlain b with
    | none => .bad mbDecrypt
    | some p =>
      if sha3 p ≠ bytesAt b 0x80 64 then .bad mbDigest
      else .good { hdr := bytesAt b 0 0x1D00, ver := imgVersion b, svn := imgSvn b, payload := p }

/-! ### Load sections (Table 58a) -/

/-- The records that words spell, with fuel for as many records; none when one does not parse. An end record is five words,
and another section may follow it. -/
def parseRecs : Nat → List Word → Option (List LoadRec)
  | 0, _ => some []
  | n + 1, ws =>
    if ws.length < 5 then some []
    else
      let t := fld (wordAt ws 0) 0 16
      let page := fld (wordAt ws 1) 0 13
      let every := bit (wordAt ws 1) 13
      let sel := fld (wordAt ws 2) 0 16
      let k := (wordAt ws 4).toNat
      let rest := ws.drop 5
      if t = 0 then parseRecs n rest
      else if t = 1 ∧ k ≤ rest.length then
        (parseRecs n (rest.drop k)).map (LoadRec.window page every sel (wordAt ws 3).toNat (rest.take k) :: ·)
      else if t = 2 ∧ k = 0 then (parseRecs n rest).map (LoadRec.write page every sel (wordAt ws 3) :: ·)
      else none

/-- The records of a payload. -/
def payloadRecs (p : List Byte) : Option (List LoadRec) :=
  let n := p.length / 4
  parseRecs n (leWords p n)

/-- The pages a record names: a slice-0 page stands for slices 0 to 31. -/
def recPages (page : Nat) (every : Bool) : List Nat :=
  if every then (List.range 32).map (fun k => page + 0x20 * k) else [page]

/-- Words that one window write of a memory carries: a microword, a transition entry, else up to 16. -/
def winUnit (p sel : Nat) : Nat :=
  match pageBlk p with
  | some .parser => if 2 ≤ sel then 5 else 16
  | some .kerfIn | some .kerfOut => if sel < 2 then 10 else 16
  | _ => 16

/-- Window data cut into window writes: address and words, with fuel for as many writes. -/
def cutWrites (u : Nat) : Nat → Nat → List Word → List (Nat × List Word)
  | 0, _, _ => []
  | n + 1, a, ws => if ws.isEmpty then [] else (a, ws.take u) :: cutWrites u n (a + u) (ws.drop u)

/-- A window write that R56, R140, R155 or the page's chapter refuses to the head. -/
def State.loadRefused (s : State) (r : Requester) (p sel : Nat) (x : Nat × List Word) : Bool :=
  winRange p 2 sel x.1 x.2.length || s.winRefused r p sel x.1 x.2.length || !s.reachable r p

/-- Some window write of a record would be refused on one of its pages. -/
def State.recRefused (s : State) (r : Requester) : LoadRec → Bool
  | .write .. => false
  | .window page every sel addr data =>
    (recPages page every).any (fun p =>
      (cutWrites (winUnit p sel) data.length addr data).any (s.loadRefused r p sel))

/-- Apply the window writes of a record on a page; one that is refused changes nothing. -/
def State.loadWrites (s : State) (r : Requester) (p sel : Nat) : List (Nat × List Word) → State
  | [] => s
  | x :: xs => (if s.loadRefused r p sel x then s else s.winStore p sel x.1 x.2).loadWrites r p sel xs

/-- A retained field that the device alone writes: PP_STAT (05_parser_kerf.md R166), WL_BANKMAP (06_tables.md R209). -/
def statField (p o : Nat) : Bool :=
  match pageBlk p with
  | some .parser => decide (o = Reg.ppStat)
  | some .wlem => decide (0x200 ≤ o ∧ o < 0x580)
  | _ => false

/-- Restore gives such a field its value. -/
def State.loadStat (s : State) (p o : Nat) (v : Word) : State :=
  match pageSlice p, pageHalf p with
  | some sl, _ => s.setSlice sl { s.slice sl with bank := fld v 0 1 }
  | none, some h =>
    let w := s.woodOf h.val
    s.setWood h.val { w with bankmap := AMap.set none w.bankmap ((o - 0x200) / 4) (some (fld v 0 8)) }
  | none, none => s

/-- A register record on a page, as the head writes it; KS_MAP takes the bank of its record in all four bits
(17_reset_retained.md R460). -/
def State.loadReg (s : State) (r : Requester) (p o : Nat) (v : Word) : State :=
  if s.rst.restoring ∧ (pageBlk p = some .kerfIn ∨ pageBlk p = some .kerfOut) ∧ o = Reg.ksMap then
    s.setRf p Reg.ksMap 0 4 (if bit v 0 then 15 else 0)
  else if s.rst.restoring ∧ statField p o then s.loadStat p o v
  else if (regSpec p o).isNone then s
  else s.performWrite (accessTo r p o v)

def State.loadOn (s : State) (r : Requester) (x : LoadRec) : List Nat → State
  | [] => s
  | p :: ps =>
    let s := match x with
      | .window _ _ sel addr data => s.loadWrites r p sel (cutWrites (winUnit p sel) data.length addr data)
      | .write _ _ off v => s.loadReg r p off v
    s.loadOn r x ps

/-- Apply records in order. -/
def State.loadRecs (s : State) (r : Requester) : List LoadRec → State
  | [] => s
  | x :: xs =>
    let ps := match x with | .window page every _ _ _ => recPages page every | .write page every _ _ => recPages page every
    (s.loadOn r x ps).loadRecs r xs

/-! ### Lane firmware (R88, R439) -/

/-- The words of bank k in a lane-firmware payload: two banks' worth of 16,384 words. -/
def fwWords (p : List Byte) (k : Nat) : List Word := leWords (p.drop (65536 * k)) 16384

/-- An image is written into bank k of macro m: its words, VERSION and SVN, and the record of M2. -/
def State.fwLoad (s : State) (i : Image) (m k : Nat) : State :=
  let x := s.macro_ m
  let s := s.setMemWs (pgLanes1 (m / 4)) (0x10 * (m % 4) + k) 0 (fwWords i.payload k)
  let x := { x with writing := some k }
  let s := s.setMacro m (if k = 0 then { x with ver0 := 65536 + i.ver % 65536, svn0 := i.svn }
    else { x with ver1 := 65536 + i.ver % 65536, svn1 := i.svn })
  s.extend 2 (imgRecord i.hdr ++ beBytes 4 m)

/-- The bank writes of macros have ended and been read back: lanes that waited may leave DORMANT (R88). -/
def State.fwEnd (s : State) : List Nat → State
  | [] => s
  | m :: ms =>
    let x := s.macro_ m
    let s := if x.writing.isSome then
        (s.setMacro m { x with writing := none }).lanesWake ((List.range 8).map (8 * m + ·))
      else s
    s.fwEnd ms

/-- Bank k of a macro may be written by IMG_APPLY: no lane of it runs the bank, and MC_FW.NEXT does not name it (R440). -/
def State.fwBankFree (s : State) (m k : Nat) : Bool :=
  decide (s.rf (pgLanes1 (m / 4)) (Reg.mcFw (m % 4)) 0 1 ≠ k)
  && ((List.range 8).map (8 * m + ·)).all (fun l => decide ((s.lane l).st = .dormant) || decide ((s.lane l).fwBank ≠ k))

/-- Write an image into each macro of a list that has a free bank; says whether every one had. -/
def State.fwApply (s : State) (i : Image) : List Nat → State × Bool
  | [] => (s, true)
  | m :: ms =>
    if s.sliceUp (m / 4) ∧ (s.fwBankFree m 0 ∨ s.fwBankFree m 1) then
      (s.fwLoad i m (if s.fwBankFree m 0 then 0 else 1)).fwApply i ms
    else ((s.fwApply i ms).1, false)

end Sys2Proof.Machine
end

