-- ==== Sys2Proof/Machine/Retained.lean ====
section
/-! DEFINITION. The retained configuration image (17_reset_retained.md R453, R455, R458 to R463): what a save holds, its bytes
and digest, which copy a start restores, and what restoring does. -/

namespace Sys2Proof.Machine

/-! ### Bytes of an image (R459, Table 175) -/

/-- The words of a load record (Table 58a). -/
def LoadRec.words : LoadRec → List Word
  | .window page every sel addr data =>
    [1, BitVec.ofNat 32 (page % 8192 + b2n every * 8192), BitVec.ofNat 32 (sel % 65536), BitVec.ofNat 32 addr,
      BitVec.ofNat 32 data.length] ++ data
  | .write page every off v =>
    [2, BitVec.ofNat 32 (page % 8192 + b2n every * 8192), BitVec.ofNat 32 (off % 65536), v, 0]

/-- A section's bytes: 16 bytes of KIND and length, then its records; a load section ends with a record of TYPE 0. -/
def CfgSection.bytes : CfgSection → List Byte
  | .load recs =>
    let d := wordsLe (recs.flatMap LoadRec.words ++ List.replicate 5 0)
    leBytes 4 1 ++ leBytes 4 (16 + d.length) ++ zeros 8 ++ d
  | .table recs =>
    let d := recs.flatMap (fun r => leBytes 4 r.1.toNat ++ leBytes 4 r.2.1.toNat ++ zeros 8 ++ r.2.2)
    leBytes 4 2 ++ leBytes 4 (16 + d.length) ++ zeros 8 ++ d

/-- The body's bytes. -/
def CfgCopy.body_ (c : CfgCopy) : List Byte := c.body.flatMap CfgSection.bytes

/-- Header bytes 0x00 to 0x3F, of a body of len bytes. -/
def CfgCopy.head (c : CfgCopy) (len : Nat) : List Byte :=
  leBytes 4 0x46435856 ++ leBytes 2 1 ++ zeros 2 ++ leBytes 8 c.seq ++ leBytes 4 len ++ leBytes 4 c.scope ++ leBytes 8 c.saveT
    ++ leBytes 4 c.fwVer ++ zeros 28

/-- DIGEST: SHA3-512 of bytes 0x00 to 0x3F and the body. -/
def CfgCopy.digest (c : CfgCopy) : List Byte := let b := c.body_; sha3 (c.head b.length ++ b)

/-- Every byte of a copy: header and body. -/
def CfgCopy.bytes (c : CfgCopy) : List Byte := let b := c.body_; c.head b.length ++ c.digest ++ b

/-! ### The 8-byte words of a copy (R458) -/

/-- Bytes as n words of 8. -/
def packWords : Nat → List Byte → List DWord
  | 0, _ => []
  | n + 1, bs => BitVec.ofNat 64 (leAt bs 0 8) :: packWords n (bs.drop 8)

/-- The words of a copy. -/
def CfgCopy.words (c : CfgCopy) : List DWord := let b := c.bytes; packWords ((b.length + 7) / 8) b

/-- n words of a copy from word i, as bytes. -/
def copyBytes (m : AMap DWord) (i : Nat) : Nat → List Byte
  | 0 => []
  | n + 1 => leBytes 8 (AMap.get 0 m i).toNat ++ copyBytes m (i + 1) n

/-- Words written from word i on. -/
def putWords (m : AMap DWord) (i : Nat) : List DWord → AMap DWord
  | [] => m
  | w :: ws => putWords (AMap.set 0 m i w) (i + 1) ws

/-! ### Reading a copy (R459) -/

/-- The longest body a copy holds. -/
abbrev bodyMax : Nat := 0x3DFF80

/-- The pages of a record exist. -/
def LoadRec.onPages : LoadRec → Bool
  | .window page every .. | .write page every .. => (recPages page every).all (fun p => (pageBlk p).isSome)

/-- The bytes of the data block of a table record by its OP; none for an OP that has no place in a table section. -/
def tableBlock (op : Nat) : Option Nat :=
  if 1 ≤ op ∧ op ≤ 5 then some 64 else if 0x10 ≤ op ∧ op ≤ 0x12 then some 48 else if op = 0x20 ∨ op = 0x21 then some 112 else none

/-- The table records that bytes spell, with fuel for as many; none when one does not parse. -/
def parseTable : Nat → List Byte → Option (List (Word × Word × List Byte))
  | 0, _ => some []
  | n + 1, bs =>
    if bs.isEmpty then some []
    else match tableBlock (leAt bs 0 1) with
      | some k =>
        if bs.length < 16 + k then none
        else (parseTable n (bs.drop (16 + k))).map
          ((BitVec.ofNat 32 (leAt bs 0 4), BitVec.ofNat 32 (leAt bs 4 4), (bs.drop 16).take k) :: ·)
      | none => none

/-- A section from its KIND and its bytes after the first 16. -/
def parseSection (kind : Nat) (d : List Byte) : Option CfgSection :=
  if kind = 1 ∧ d.length % 4 = 0 then
    (payloadRecs d).bind (fun rs => if rs.all LoadRec.onPages then some (.load rs) else none)
  else if kind = 2 then (parseTable d.length d).map .table
  else none

/-- The sections of a body, with fuel for as many; none when a record does not parse. -/
def parseBody : Nat → List Byte → Option (List CfgSection)
  | 0, _ => some []
  | n + 1, bs =>
    if bs.isEmpty then some []
    else
      let len := leAt bs 4 4
      if len < 16 ∨ bs.length < len then none
      else (parseSection (leAt bs 0 4) ((bs.take len).drop 16)).bind (fun x => (parseBody n (bs.drop len)).map (x :: ·))

/-- A valid copy as it is read: what it says, BODY_LEN and DIGEST. -/
structure ReadCopy where
  cfg    : CfgCopy
  len    : Nat
  digest : List Byte
  deriving DecidableEq, Repr

/-- The copy that words hold, when it is valid: MAGIC, FORMAT, BODY_LEN, DIGEST, and every record parses (R459). -/
def readCopy (m : AMap DWord) : Option ReadCopy :=
  let hd := copyBytes m 0 16
  let len := leAt hd 0x10 4
  if leAt hd 0 4 ≠ 0x46435856 ∨ leAt hd 4 2 ≠ 1 ∨ bodyMax < len then none
  else
    let body := (copyBytes m 16 ((len + 7) / 8)).take len
    if sha3 (hd.take 0x40 ++ body) ≠ bytesAt hd 0x40 64 then none
    else (parseBody len body).map (fun secs =>
      { cfg := { seq := leAt hd 8 8, scope := leAt hd 0x14 4, saveT := leAt hd 0x18 8, fwVer := leAt hd 0x20 4, body := secs }
        len := len, digest := bytesAt hd 0x40 64 })

/-- SEQ of a copy that is valid, 0 of one that is not. -/
def copySeq (m : AMap DWord) : Nat := match readCopy m with | some c => c.cfg.seq | none => 0

/-! ### What a save holds (R460) -/

/-- An enable field, which part 5 holds: PG_CTRL.ENABLE, PORT_CTRL.EN and PWR, RF_CTRL, OH_CTRL, TM_PPS, LC_CTRL. -/
def lateField (p o : Nat) : Bool :=
  decide (o = 0x08) ||
  (match pageBlk p with
   | some .macpcs => decide (0x1000 ≤ o ∧ o % 0x100 = 4)
   | some .half => decide (o = Reg.rfCtrl)
   | some .ohsp => decide (0x40 ≤ o ∧ o % 0x10 = 0)
   | some .time => decide (o = Reg.tmPps)
   | some .lifecycle => decide (o = Reg.lcCtrl)
   | _ => false)

def isKerf (p : Nat) : Bool := match pageBlk p with | some .kerfIn | some .kerfOut => true | _ => false

/-- A register of the view sets, which part 2 holds, or KS_MAP, which part 3 holds. -/
def stageField (p o : Nat) : Bool := isKerf p && (decide (o = Reg.ksMap) || decide (0x60 ≤ o ∧ o < 0xA0))

/-- The record of a register whose retained bits differ from their wipe value; of a 64-bit register the high word comes first. -/
def State.regRecs (s : State) (p o : Nat) (v : Word) : List LoadRec :=
  let m := BitVec.ofNat 32 (retBits p o)
  if v &&& m = regDefault (regKey p o) &&& m then []
  else if isHigh p o then [.write p false o (v &&& m), .write p false (o - 4) (s.reg p (o - 4))]
  else if isWide p o ∧ s.reg p (o + 4) ≠ regDefault (regKey p (o + 4)) then []
  else [.write p false o (v &&& m)]

/-- The registers of a page that sel holds of, ascending. -/
def State.pageRecs (s : State) (sel : Nat → Nat → Bool) (p : Nat) : List LoadRec :=
  (s.regs.filter (fun e => decide (e.1 / 0x10000 = p) && sel p (e.1 % 0x10000))).flatMap
    (fun e => s.regRecs p (e.1 % 0x10000) e.2)

/-- Page, select register, its value and the selected register of an entry behind a select register. -/
def selPlace (k : Nat) : Nat × Nat × Nat × Nat :=
  let kind := k / 2 ^ 19
  let h := k / 2 ^ 18 % 2
  let i := k % 2 ^ 18
  if kind = 0 then (pgAdmit h, Reg.adQsel, i, Reg.adQ)
  else if kind = 1 then (pgAdmit h, Reg.adQsel, i, Reg.adQy)
  else if kind = 2 then (pgAdmit h, Reg.adQsel, i, Reg.adQecn)
  else if kind = 3 then (pgAdmit h, Reg.repGsel, i, Reg.repGrp)
  else if kind = 4 then (pgAdmit h, Reg.repCsel, i, Reg.repCopy)
  else if kind = 5 then (pgHalf h, Reg.rfDsel, i, Reg.rfReach)
  else if kind = 6 then (pgHalf h, Reg.rfGsel, i / 64 + i % 64 * 256, Reg.rfMember)
  else (pgHalf h, Reg.rfTsel, i, Reg.rfTree)

/-- A select record and a value record for each entry behind a page's select registers. -/
def State.selRecs (s : State) (p : Nat) : List LoadRec :=
  s.selRegs.flatMap (fun e =>
    let x := selPlace e.1
    if x.1 = p then [.write p false x.2.1 (BitVec.ofNat 32 x.2.2.1), .write p false x.2.2.2 e.2] else [])

/-- Every page, in the order of R460: global pages, the halves, slices. -/
def allPages : List Nat :=
  (List.range 0x13) ++ (List.range 11).map (halfPage 0) ++ (List.range 11).map (halfPage 1)
    ++ (List.range 32).flatMap slicePageList

/-- The records of retained fields that the device alone writes: PP_STAT.BANK (05_parser_kerf.md R166) and WL_BANKMAP
(06_tables.md R209). -/
def State.statRecs (s : State) (p : Nat) : List LoadRec :=
  match pageBlk p, pageSlice p, pageHalf p with
  | some .parser, some sl, _ => if (s.slice sl).bank = 0 then [] else [.write p false Reg.ppStat 1]
  | some .wlem, _, some h => (s.woodOf h.val).bankmap.filterMap (fun e =>
      match e.2 with | some b => some (.write p false (Reg.wlBankmap e.1) (BitVec.ofNat 32 b)) | none => none)
  | _, _, _ => []

/-- Part 1: register records. -/
def State.savePart1 (s : State) : List LoadRec :=
  allPages.flatMap (fun p => s.pageRecs (fun p o => !lateField p o && !stageField p o) p ++ s.statRecs p ++ s.selRecs p)

/-- Consecutive numbers of an ascending list as runs: start and length. -/
def runsOf : List Nat → List (Nat × Nat)
  | [] => []
  | x :: xs =>
    match runsOf xs with
    | (y, n) :: rs => if y = x then (y, n) :: rs else if y = x + 1 then (x, n + 1) :: rs else (x, 1) :: (y, n) :: rs
    | [] => [(x, 1)]

/-- The runs of entries of unit words, not wholly zero, of a page's memory: address and words. -/
def State.memRuns (s : State) (sel unit p : Nat) : List (Nat × List Word) :=
  let es := (s.mem.filter (fun e => decide (e.1 / 2 ^ 32 = p * 256 + sel))).map (fun e => e.1 % 2 ^ 32 / unit)
  (runsOf es).map (fun r => (r.1 * unit, s.memWs p sel (r.1 * unit) (r.2 * unit)))

/-- The window records of one memory of every slice: a run that all 32 hold is one record with EVERY_SLICE = 1. -/
def State.memRecs (s : State) (k sel unit : Nat) : List LoadRec :=
  let runs := fun sl => s.memRuns sel unit (slicePage sl k)
  let common := (runs 0).filter (fun r => (List.range 32).all (fun sl => (runs sl).contains r))
  common.map (fun r => LoadRec.window (slicePage 0 k) true sel r.1 r.2) ++
  (List.range 32).flatMap (fun sl =>
    ((runs sl).filter (fun r => !common.contains r)).map (fun r => LoadRec.window (slicePage sl k) false sel r.1 r.2))

/-- The memories of part 2: page offset in the slice, select code, words of an entry. -/
def savedMems (scope : Nat) : List (Nat × Nat × Nat) :=
  [(1, 0, 1), (1, 1, 1), (1, 0x10, 5), (1, 0x11, 5)]
  ++ (List.range 16).flatMap (fun k =>
    [(2 + k, 0, 10), (2 + k, 1, 10), (2 + k, 3, 4)] ++ (if scope / 8 % 2 = 1 then [(2 + k, 2, 1)] else []))
  ++ [(0x11, 5, 32)]

/-- A record moved to a page, for one page or for every slice. -/
def LoadRec.at (p : Nat) (every : Bool) : LoadRec → LoadRec
  | .window _ _ sel addr data => .window p every sel addr data
  | .write _ _ off v => .write p every off v

/-- The records of the view sets of one stage in every slice: one that all 32 hold is one record with EVERY_SLICE = 1. -/
def State.viewRecs (s : State) (k : Nat) : List LoadRec :=
  let recs := fun sl => (s.pageRecs (fun p o => stageField p o && decide (o ≠ Reg.ksMap)) (slicePage sl k)).map
    (LoadRec.at (slicePage 0 k) true)
  let common := (recs 0).filter (fun r => (List.range 32).all (fun sl => (recs sl).contains r))
  common ++ (List.range 32).flatMap (fun sl =>
    ((recs sl).filter (fun r => !common.contains r)).map (LoadRec.at (slicePage sl k) false))

/-- Part 2: window records and the view sets. -/
def State.savePart2 (s : State) (scope : Nat) : List LoadRec :=
  (savedMems scope).flatMap (fun x => s.memRecs x.1 x.2.1 x.2.2)
  ++ (List.range 16).flatMap (fun k => s.viewRecs (2 + k))

/-- Part 3: the bank that the current ring uses in each Kerf stage. -/
def State.savePart3 (s : State) : List LoadRec :=
  ((List.range 32).flatMap slicePages).map (fun p =>
    .write p false Reg.ksMap (BitVec.ofNat 32 (s.ringBank p s.rings.cur.val)))

/-- Words 0 and 5 of a table record: OP and TBLID in both halves, IMMEDIATE; SLICES. -/
def tableRec (op tbl slices : Nat) (data : List Byte) : Word × Word × List Byte :=
  (BitVec.ofNat 32 (op + tbl * 256), BitVec.ofNat 32 slices, data)

/-- Exact-match entries with STATIC = 1 that the current ring sees, from half h. -/
def State.saveEm (s : State) (h : Nat) : List (Word × Word × List Byte) :=
  ((s.emAll h).filter (fun l => cwStatic (s.emW h l 8) && s.emVisible h l s.rings.cur.val)).map (fun l =>
    tableRec 1 (fld (s.emW h l 8) 0 8) 0
      (bytesAt (s.entryKey h l) 0 32 ++ beBytes 16 (s.entryResult h l) ++ leBytes 4 1 ++ zeros 12))

/-- LPM prefixes that the current ring sees. -/
def State.saveLpm (s : State) (h : Nat) : List (Word × Word × List Byte) :=
  ((s.woodOf h).lpm.filter (fun x => s.visible x.birth x.death s.rings.cur.val)).map (fun x =>
    tableRec 0x10 (0x40 + x.tbl) 0
      (bytesAt (beBytes (s.lpmBits h x.tbl / 8) x.addr) 0 16 ++ [BitVec.ofNat 8 x.len] ++ zeros 15 ++ beBytes 16 x.result))

/-- TCAM entries that the current ring sees. -/
def State.saveTcam (s : State) : List (Word × Word × List Byte) :=
  (List.range 32).flatMap (fun sl =>
    ((s.tcEntries sl).filter (fun e =>
      s.visible (tcBirth (s.tcW sl e 24)) (tcDeath (s.tcW sl e 24)) s.rings.cur.val)).map (fun e =>
        tableRec 0x20 0x60 (2 ^ sl) (s.tcBytes sl e 0 24 ++ leBytes 2 e ++ zeros 14)))

/-- Part 4: the tables that SCOPE selects; the halves hold the same entries, and a half that works is read. -/
def State.savePart4 (s : State) (scope : Nat) : List (Word × Word × List Byte) :=
  let h := if s.halfUp 0 then 0 else 1
  (if scope % 2 = 1 then s.saveEm h else []) ++ (if scope / 2 % 2 = 1 then s.saveLpm h else [])
    ++ (if scope / 4 % 2 = 1 then s.saveTcam else [])

/-- The offsets of the enable fields of a page. -/
def lateOffsets (p : Nat) : List Nat :=
  (if retBits p 0x08 = 0 then [] else [0x08]) ++
  (match pageBlk p with
   | some .macpcs => (List.range 32).map Reg.portCtrl
   | some .half => [Reg.rfCtrl]
   | some .ohsp => (List.range 4).map Reg.ohCtrl
   | some .time => [Reg.tmPps]
   | some .lifecycle => [Reg.lcCtrl]
   | _ => [])

/-- Part 5: an ORDER.FENCE record, then every enable field, whatever its value. -/
def State.savePart5 (s : State) : List LoadRec :=
  .write pgOrder false Reg.orderFence 0 :: allPages.flatMap (fun p => (lateOffsets p).map (fun o =>
    LoadRec.write p false o (s.reg p o &&& BitVec.ofNat 32 (retBits p o))))

/-- The image a save builds now (R460, R461): SEQ is one more than the highest among the valid copies. -/
def State.cfgBuild (s : State) : CfgCopy :=
  let scope := (s.reg pgReset Reg.rtScope).toNat
  { seq := max (copySeq s.mram.copyA) (copySeq s.mram.copyB) + 1, scope := scope, saveT := tsOf s.now
    fwVer := (s.cluster (s.forester.holder - 1)).ver
    body := [.load (s.savePart1 ++ s.savePart2 scope ++ s.savePart3), .table (s.savePart4 scope), .load s.savePart5] }

/-! ### The copies (R461, R463) -/

def State.copy (s : State) (k : Nat) : AMap DWord := if k = 0 then s.mram.copyA else s.mram.copyB
def State.setCopy (s : State) (k : Nat) (c : AMap DWord) : State :=
  { s with mram := if k = 0 then { s.mram with copyA := c } else { s.mram with copyB := c } }

/-- The copy a save writes: the older one; a copy that is not valid counts as older. -/
def MramS.older (m : MramS) : Nat :=
  match readCopy m.copyA, readCopy m.copyB with
  | none, _ => 0
  | some _, none => 1
  | some a, some b => if a.cfg.seq < b.cfg.seq then 0 else 1

/-- The copy a start restores, none when neither is valid; A when both have the same SEQ. -/
def MramS.chosen (m : MramS) : Option (Nat × ReadCopy) :=
  match readCopy m.copyA, readCopy m.copyB with
  | some a, some b => if a.cfg.seq < b.cfg.seq then some (1, b) else some (0, a)
  | some a, none => some (0, a)
  | none, some b => some (1, b)
  | none, none => none

/-- RT_SEQ_A and RT_SEQ_B as the copies stand. -/
def State.readSeqs (s : State) : State :=
  { s with rst := { s.rst with seqA := copySeq s.mram.copyA, seqB := copySeq s.mram.copyB } }

/-! ### Restore (R453, R455, R463) -/

/-- The head starts restoring: lane firmware from flash into bank 0 of every macro, when it verifies; the copy is chosen. -/
def State.restoreStart (s : State) (lane : List Byte) : State :=
  let s := match s.verifyImage true lane with
    | .good i => if s.ioBank 0 ∧ imgType i.hdr = 2 then (List.range 128).foldl (fun (t : State) m => t.fwLoad i m 0) s else s
    | .bad _ => s
  let s := s.readSeqs
  let k := s.mram.chosen
  { s with rst := { s.rst with
      phase := .restore, restoring := true
      rsrc := match k with | some x => x.1 + 1 | none => 0
      seqUsed := match k with | some x => x.2.cfg.seq | none => 0
      len := match k with | some x => x.2.len | none => 0 } }

/-- RESTORE (R463): at start-up, once a head holds the register. -/
def execRestore (lane : List Byte) (s : State) : Out :=
  s.run (fun s => s.onlyIf (s.headReaches && (decide (s.rst.phase = .boot) || decide (s.rst.phase = .restore)))
    (·.restoreStart lane))

/-- The running bank of each parser of a list is 0. -/
def State.wipeBanks (s : State) : List Nat → State
  | [] => s
  | sl :: sls => (s.setSlice sl { s.slice sl with bank := 0 }).wipeBanks sls

/-- The running parser banks and the bank maps of Woodlot at their wipe values. -/
def State.dropBanks (s : State) : State :=
  let s := s.wipeBanks (List.range 32)
  (s.setWood 0 { s.woodOf 0 with bankmap := [] }).setWood 1 { s.woodOf 1 with bankmap := [] }

/-- Every retained register field at its wipe value; LC_CTRL, which returns to 0 at a power-on reset, chip reset or life-cycle change only
(16_forester_security.md R446), keeps what has been set since (DEDUCED, log entry 90). -/
def State.wipeRegs (s : State) : State :=
  { s with
    selRegs := []
    regs := s.regs.filterMap (fun e =>
      let d := regDefault e.1
      let m := if e.1 = regKey pgLifecycle Reg.lcCtrl then 0 else BitVec.ofNat 32 (retBits (e.1 / 0x10000) (e.1 % 0x10000))
      let v := (e.2 &&& ~~~m) ||| (d &&& m)
      if v = d then none else some (e.1, v)) }

/-- Every retained field at its wipe value. -/
def State.wipeRet (s : State) : State :=
  s.dropBanks.wipeRegs

/-- Run a table record in the halves it names. -/
def State.tableHalves (s : State) (ws : List Word) (data : List Byte) : List Nat → State
  | [] => s
  | h :: hs => (if s.unreachable h then s else (s.routine h { q := 0, idx := 0, words := ws, blk := data }).1).tableHalves ws data hs

/-- Run table records in order: each is the descriptor of words 0 and 5, with the data block at its side. -/
def State.tableRecs (s : State) : List (Word × Word × List Byte) → State
  | [] => s
  | x :: xs =>
    let ws := [x.1, 0, 0, 0, BitVec.ofNat 32 x.2.2.length, x.2.1, 0, 0]
    (if (s.earlyFault ws).isSome ∨ (s.blockFault ws x.2.2).isSome then s
     else s.tableHalves ws x.2.2 (dHalves ws)).tableRecs xs

/-- Apply the sections of a copy in order, as the head. -/
def State.applySections (s : State) (r : Requester) : List CfgSection → State
  | [] => s
  | .load recs :: cs => (s.loadRecs r recs).applySections r cs
  | .table recs :: cs => (s.tableRecs recs).applySections r cs

/-- The meters whose settings are not all zero: page and meter. -/
def State.setMeters (s : State) : List (Nat × Nat) :=
  s.mem.filterMap (fun e =>
    let p := e.1 / 2 ^ 40
    if isKerf p ∧ e.1 / 2 ^ 32 % 256 = 3 then some (p, e.1 % 2 ^ 32 / 4) else none)

/-- Buckets full (Table 176). -/
def State.metersFull (s : State) : List (Nat × Nat) → State
  | [] => s
  | x :: xs => (s.setMeter x.1 x.2 (MeterS.full (s.meterCfg x.1 x.2) s.now)).metersFull xs

/-- The pool settings restored are those of the initialisation of this start (08_deck_admission.md R247, R259): no frame is held
yet. -/
def State.deckAgain (s : State) (h : Nat) : State :=
  if s.halfUp h ∧ (s.deckOf h).initing = false then s.initDeck h else s

/-- The requester that is head. -/
def State.headReq (s : State) : Requester := if s.forester.holder = 2 then .east else .west

/-- Restore completes (R453, R463): fields at their wipe values, then the sections of the copy; M4; ports restart under the
enables restored. -/
def State.restoreEnd (s : State) : State :=
  let s := s.wipeRet
  let src := s.rst.rsrc
  let s := match if src = 0 then none else readCopy (s.copy (src - 1)) with
    | none => s
    | some c => (s.applySections s.headReq c.cfg.body).extend 4 c.digest
  let s := (s.metersFull s.setMeters).fwEnd (List.range 128)
  let s := (s.deckAgain 0).deckAgain 1
  let s : State := { s with rst := { s.rst with phase := .run, restoring := false } }
  s.raise pgReset (if src = 0 then evDefaults else evRestored)

/-- RESTORED (R453). -/
def execRestored (s : State) : Out :=
  s.run (fun s => s.onlyIf (s.rst.restoring && s.headReaches) (·.restoreEnd))

/-! ### Save (R461, R462) -/

/-- A save begins: 0 into the first 8 bytes of the target, so that it is no longer valid; the rest of the copy is to be written. -/
def State.saveStart (s : State) (c : CfgCopy) : State :=
  let k := s.mram.older
  let s := (s.setCopy k (AMap.set 0 (s.copy k) 0 0)).readSeqs
  let ws := c.words
  { s with forester := { s.forester with
      saving := some { copy := k, seq := c.seq, digest := c.digest, next := 1, left := ws.drop 1, first := ws.headD 0 }
      saveBad := false } }

/-- n more words of a save are written, each whole (R458). -/
def State.saveWords (s : State) (x : SaveRun) (n : Nat) : State :=
  let s := s.setCopy x.copy (putWords (s.copy x.copy) x.next (x.left.take n))
  { s with forester := { s.forester with
      saving := some { x with next := x.next + min n x.left.length, left := x.left.drop n } } }

/-- In a nanosecond of a save the head writes some of the words (how many is a free value, DESIGN CHOICE, log entry 86). -/
def State.saveGoes (s : State) : State :=
  match s.forester.saving with
  | some x => if s.headReaches then (s.saveWords x (Config.saveWords s.freeCtr)).drawn else s
  | none => s

/-- The save's last words are written, the first word of all the last: the target is valid; M4 is extended
(16_forester_security.md R442). -/
def State.saveEnd (s : State) (x : SaveRun) : State :=
  let s := s.setCopy x.copy (AMap.set 0 (putWords (s.copy x.copy) x.next x.left) 0 x.first)
  let s := (s.readSeqs.count pgReset Reg.rtSaves 1).extend 4 x.digest
  { s with forester := { s.forester with saving := none, saveBad := false } }

end Sys2Proof.Machine
end

