-- ==== Sys2Proof/Machine/Forester.lean ====
section
/-! DEFINITION. Forester's clusters (16_forester_security.md R424 to R430, R441, R445): the head register, leases, lockstep
mismatches, boot, life-cycle change, and the performance history of the head (04_span_framing.md R119). -/

namespace Sys2Proof.Machine

/-! ### Events of the FORESTER page -/
abbrev evDone : Nat := 0
abbrev evHeadChg : Nat := 1
abbrev evTrap : Nat := 2
abbrev evFenced : Nat := 3
abbrev evClusterFail : Nat := 4

/-! ### The head register (R425, R426, R427) -/

/-- The always-on island writes HOLDER and EPOCH + 1 on one edge; HEAD_CHG. -/
def State.setHolder (s : State) (holder : Nat) : State :=
  ({ s with forester := { s.forester with holder := holder, epoch := (s.forester.epoch + 1) % 2 ^ 32 } } : State).raise
    pgForester evHeadChg

/-- A new head ends the command it finds with INTERRUPTED, unless it is the HANDOVER that made it head (R432). -/
def MbS.cut (m : MbS) : MbS :=
  if m.busy ∧ (m.op ≠ 0x23 ∨ m.result.isNone) then { m with result := some { status := mbInterrupted } } else m

/-- A cluster becomes head: its claim has succeeded. -/
def State.newHead (s : State) (c : Nat) : State :=
  let s := s.setHolder (c + 1)
  let f := s.forester
  let s : State := { s with forester := { f with
      leaseAt := s.clk.up, mb := { f.mb.cut with headed := true }, saving := none, saveBad := false
      lcNext := match f.lcNext with | some (t, d) => if d = 0 then none else some (t, d) | none => none } }
  let s := s.setCluster c { s.cluster c with st := .head, epoch := s.forester.epoch }
  (s.onlyIf (s.ioBank 1) (·.headSetpoint)).longSync

/-- While EPOCH is 0 the cluster that HEAD_SEL names claims first, the other 50 ms after it reached STANDBY (R426). -/
def State.mayClaim (s : State) (c : Nat) : Bool :=
  decide (s.forester.epoch ≠ 0) || decide (c = b2n s.rst.headSel) || decide ((s.cluster c).readyAt + 50000000 ≤ s.clk.up)

/-- The claim of the other cluster succeeded on this very edge with the EPOCH that c expects, and c is the cluster of the HEAD_SEL half
(R426). -/
def State.tied (s : State) (c : Nat) (expected : Word) : Bool :=
  (match s.forester.claimed with | some x => decide (x.1 = s.clk.up) | none => false)
  && decide (c = b2n s.rst.headSel ∧ s.forester.holder = 2 - c ∧ expected.toNat + 1 = s.forester.epoch)

/-- Of two claims with one expected EPOCH on one edge that of the HEAD_SEL half stands (R426): the other cluster is STANDBY as before, and its
claim has failed (R425). -/
def State.winTie (s : State) (c : Nat) : State :=
  let o := 1 - c
  let before := match s.forester.claimed with | some x => x.2 | none => 0
  let s := s.setCluster o { s.cluster o with st := .standby, epoch := before }
  let s : State := { s with forester := { s.forester with holder := c + 1, claimed := none } }
  (s.setCluster c { s.cluster c with st := .head, epoch := s.forester.epoch }).sourceMsg 20 0 .pulse 6 0

/-- A claim succeeds. -/
def State.claimed (s : State) (c : Nat) : State :=
  let before := (s.cluster c).epoch
  let s := s.newHead c
  { s with forester := { s.forester with claimed := some (s.clk.up, before) } }

/-- A claim with an expected EPOCH. A cluster claims when it finds HOLDER none; a claim whose EPOCH has gone by meanwhile fails. -/
def State.claim (s : State) (c : Nat) (expected : Word) : State :=
  if (s.cluster c).st ≠ .standby ∨ s.reachesAon c = false then s
  else if s.tied c expected then s.winTie c
  else if expected.toNat ≠ s.forester.epoch then s.sourceMsg 20 0 .pulse 6 0
  else if s.forester.holder = 0 ∧ s.mayClaim c then s.claimed c
  else s

/-- HEAD_CLAIM (R425, R426). -/
def execHeadClaim (cl : Half) (expected : Word) (s : State) : Out := s.run (·.claim cl.val expected)

/-- The head renews its lease (R427). -/
def State.renew (s : State) (c : Nat) : State :=
  if s.forester.holder = c + 1 ∧ (s.cluster c).st = .head ∧ s.reachesAon c then
    { s with forester := { s.forester with leaseAt := s.clk.up } }
  else s

/-- LEASE_RENEW (R427). -/
def execLeaseRenew (cl : Half) (s : State) : Out := s.run (·.renew cl.val)

/-- The lease lapses after 20 ms (R427). -/
def State.lapse (s : State) : State :=
  if s.forester.holder ≠ 0 ∧ s.forester.leaseAt + 20000000 ≤ s.clk.up then (s.setHolder 0).sourceMsg 20 2 .pulse 6 0 else s

/-- LEASE_EXPIRE (R427). -/
def execLeaseExpire (s : State) : Out := s.run (·.lapse)

/-! ### Lockstep mismatches (R429) -/

/-- A mismatch within one hour of the last one. -/
def State.missedBefore (s : State) (c : Nat) : Bool :=
  match (s.cluster c).missAt with | some t => decide (s.clk.up < t + 3600000000000) | none => false

/-- A cluster stops, releases headship, reports, and restarts by itself once. An East cluster reaches the head register and the FORESTER page
over the Flume management channel only (01_architecture.md R20): while that is down its headship ends with the lease (R427), and
CLUSTER_FAIL follows when the channel is up again. -/
def State.mismatch (s : State) (c : Nat) : State :=
  if (s.cluster c).st = .off ∨ (s.cluster c).st = .failed then s
  else
    let near := s.reachesAon c
    let s := if s.forester.holder = c + 1 ∧ near then s.setHolder 0 else s
    let s := s.sourceMsg (32 + 32 * c + 11) 0 .pulse 6 0
    let again := s.missedBefore c
    let s := s.setCluster c { s.cluster c with
      st := if again then .failed else .boot, missAt := some s.clk.up, uart := false, untold := again && !near }
    s.raiseIf (again && near) pgForester evClusterFail

/-- LOCKSTEP_MISMATCH (R429). -/
def execLockstepMismatch (cl : Half) (s : State) : Out := s.run (·.mismatch cl.val)

/-! ### Boot (R441, 17_reset_retained.md R454) -/

/-- At start, during test and during recovery only images with ENCRYPTED set are accepted (R438). -/
def State.strict (s : State) : Bool := decide (s.rst.phase ≠ .run) || s.testRuns

/-- An image that verifies and whose TYPE is in a list. -/
def State.bootable (s : State) (types : List Nat) (b : List Byte) : Option Image :=
  match s.verifyImage s.strict b with
  | .good i => if types.contains (imgType i.hdr) then some i else none
  | .bad _ => none

/-- The image of a flash slot; a slot that was written while no check has passed is never booted (R440). -/
def State.slotImage (s : State) (k : Nat) (b : List Byte) : Option Image :=
  if AMap.get false s.forester.flash.bad k then none else s.bootable [1, 4] b

/-- The flash slot that passes with the higher VERSION, the preferred one of two equal ones. -/
def State.bootSlot (s : State) (fl : BootFlash) : Option (Nat × Image) :=
  match s.slotImage 0 fl.fw0, s.slotImage 1 fl.fw1 with
  | some a, some b =>
    if b.ver < a.ver then some (0, a) else if a.ver < b.ver then some (1, b)
    else if s.forester.flash.preferred = 1 then some (1, b) else some (0, a)
  | some a, none => some (0, a)
  | none, some b => some (1, b)
  | none, none => none

/-- What a cluster boots from the boot flash: slot and image; none when it goes on waiting (R454). -/
def State.bootChoice (s : State) (fl : BootFlash) : Option (Nat × Image) :=
  let recovery := (s.bootable [5] fl.recovery).map (fun i => (2, i))
  match s.rst.bootSrc with
  | 0 | 1 => (match s.bootSlot fl with | some x => some x | none => recovery)
  | 2 => recovery
  | _ => none

/-- A cluster runs what a flash slot holds: once both have run it, the slot becomes preferred (R441). -/
def FlashS.run (x : FlashS) (c slot : Nat) : FlashS :=
  if 2 ≤ slot ∨ AMap.get false x.ran (2 * slot + c) then x
  else { x with ran := AMap.set false x.ran (2 * slot + c) true
                preferred := if AMap.get false x.ran (2 * slot + (1 - c)) then slot else x.preferred }

/-- A cluster runs an image from a slot and reaches STANDBY; M1 is extended. -/
def State.booted (s : State) (c slot : Nat) (i : Image) : State :=
  let s := s.setCluster c { s.cluster c with
    st := .standby, ver := i.ver, svn := i.svn, slot := slot, typ := imgType i.hdr, readyAt := s.clk.up, uart := false }
  let s := s.extend 1 (imgRecord i.hdr)
  { s with
    forester := { s.forester with flash := s.forester.flash.run c slot }
    rst := { s.rst with recovery := s.rst.recovery || decide (imgType i.hdr = 5) } }

/-- A cluster can load an image: it boots, bank M0, which holds the boot flash and the console, is on (18_pins_electrical.md R473), and it
reaches the West die, on which that bank lands (01_architecture.md R20). -/
def State.bootReady (s : State) (c : Nat) : Bool :=
  decide ((s.cluster c).st = .boot) && s.ioBank 0 && s.reachesAon c

/-- The boot flash is read; where it holds nothing to boot, the cluster goes on to the UART console or waits (17_reset_retained.md R454). -/
def State.bootDone (s : State) (c : Nat) (fl : BootFlash) : State :=
  if s.bootReady c then
    match s.bootChoice fl with
    | some (slot, i) => s.booted c slot i
    | none => s.setCluster c { s.cluster c with uart := decide (s.rst.bootSrc = 1) }
  else s

/-- CLUSTER_BOOT_DONE (R441). -/
def execClusterBootDone (cl : Half) (flash : BootFlash) (s : State) : Out := s.run (·.bootDone cl.val flash)

/-- A recovery image received on the UART console: with BOOT_SRC 0b01 once the flash slots and the recovery slot have failed. -/
def State.uartImage (s : State) (c : Nat) (b : List Byte) : State :=
  if s.bootReady c ∧ (s.rst.bootSrc = 3 ∨ (s.rst.bootSrc = 1 ∧ (s.cluster c).uart)) then
    match s.verifyImage true b with
    | .good i => if imgType i.hdr = 5 then s.booted c 3 i else s
    | .bad _ => s
  else s

/-- RECOVERY_IMAGE (17_reset_retained.md R454). -/
def execRecoveryImage (cl : Half) (img : List Byte) (s : State) : Out := s.run (·.uartImage cl.val img)

/-! ### Life-cycle change (R445) -/

/-- The seed of an identity key pair: 32 bytes from the random source (R443; FIPS 204 gives the length). -/
def drawSeed (n : Nat) : List Byte := (List.range 4).flatMap (fun i => leBytes 8 (Config.random (n + i)).toNat)

/-- The identity key pair is generated on the transition to PROVISIONED; a transition that skips PROVISIONED generates it too, since a
SECURED device has an identity (Table 167; DEDUCED, log entry 89). -/
def State.withSeed (s : State) (target : Nat) : State :=
  if (target = 1 ∨ target = 2) ∧ s.fuses.seed = [] then
    { s with fuses := { s.fuses with seed := drawSeed s.freeCtr }, freeCtr := s.freeCtr + 4 }
  else s

/-- Step 2 of R445, 10 ms after the command completed: the fuses take the state with WIPE_DONE unblown, and the wipe begins. -/
def State.lifeWrite (s : State) : State :=
  match s.forester.lcNext with
  | some (t, due) =>
    if due ≠ 0 ∧ due ≤ s.clk.up then
      let s := s.withSeed t
      ({ s with fuses := { s.fuses with life := t, wipeDone := false }
                forester := { s.forester with lcNext := none } } : State).pcieDown
    else s
  | none => s

/-- LC_FUSE_WRITE (R445). -/
def execLcFuseWrite (s : State) : Out := s.run (·.lifeWrite)

/-! ### Performance history (R436, 04_span_framing.md R118, R119) -/

/-- A bin's registers. -/
def State.pmBin (s : State) (q b : Nat) : PmBin :=
  let r := fun (o : Nat → Nat → Nat) => (s.reg (pgSp q) (o (q % 8) b)).toNat
  { es := r Reg.pmEs, ses := r Reg.pmSes, uas := r Reg.pmUas, flags := r Reg.pmFlags, bbe := s.reg64 (pgSp q) (Reg.pmBbe (q % 8) b) }

/-- The start, in PTP nanoseconds, of the interval that ended last: of 900 s, or of a day less PM_DAY_OFS. -/
def State.pmStart (s : State) (q : Nat) (day : Bool) : Nat :=
  let t := s.now / 1000000000
  let n := if day then 86400 else 900
  let k := if day then s.rf (pgSp q) Reg.pmDayOfs 0 17 % 86400 else 0
  (t - (t + n - k) % n - n) * 1000000000

/-- A bin joins a history of at most n bins, newest first; a later copy of one interval replaces the earlier one. -/
def histPut (n start : Nat) (b : PmBin) (l : List (Nat × PmBin)) : List (Nat × PmBin) :=
  match l with
  | (t, c) :: xs => if t = start then (start, b) :: xs else ((start, b) :: (t, c) :: xs).take n
  | [] => [(start, b)]

/-- The history with a slot for a position: a new one while there are fewer than 64, else that of the position which has longest
not been an enabled span port; on says which positions are enabled span ports. -/
def histSlot (l : List HistSlot) (q up : Nat) (on : Nat → Bool) : List HistSlot :=
  if l.any (fun x => decide (x.pos = q)) then l
  else
    let new : HistSlot := { pos := q, lastOn := up }
    if l.length < 64 then l ++ [new]
    else
      let off := l.filter (fun x => !on x.pos)
      let old := off.foldl (fun m x => min m x.lastOn) up
      match off.find? (fun x => decide (x.lastOn = old)) with
      | some y => l.map (fun x => if x.pos = y.pos then new else x)
      | none => l

/-- The previous bins of a position enter its slot. -/
def State.histCopy (s : State) (day : Bool) (q : Nat) : State :=
  let t := s.pmStart q day
  let near := s.pmBin q (if day then 3 else 1)
  let far := s.pmBin q (if day then 7 else 5)
  let l := (histSlot s.mram.hist q s.clk.up s.spanOn).map (fun x =>
    if x.pos = q then
      (if day then { x with nearDay := histPut 7 t near x.nearDay, farDay := histPut 7 t far x.farDay }
       else { x with near15 := histPut 32 t near x.near15, far15 := histPut 32 t far x.far15 })
    else x)
  { s with mram := { s.mram with hist := l } }

def State.histCopies (s : State) (day : Bool) : List Nat → State
  | [] => s
  | q :: qs => (if s.spanOn q then s.histCopy day q else s).histCopies day qs

/-- PM_HISTORY_COPY (04_span_framing.md R119): the head copies. -/
def execPmHistoryCopy (day : Bool) (s : State) : Out :=
  s.run (fun s => s.onlyIf s.headReaches (·.histCopies day (s.spans.map (·.1))))

end Sys2Proof.Machine
end

