-- ==== Sys2Proof/Machine/Lookout.lean ====
section
/-! DEFINITION. The commands of Lookout (14_lookout_faults.md). -/

namespace Sys2Proof.Machine

/-- A report of a source that is no page, which the outside makes (PCIe core, MRAM, random source, boot flash, management I/O,
clusters): it goes to Lookout as that source's message. -/
def State.report (s : State) (q : MsgQueue) (m : Message) : State :=
  if sourceUsed m.src && !sourceIsPage m.src && decide (sourceQueue m.src = q) then
    s.sourceMsg m.src (m.code % 32) m.typ (sourceKind m.src) m.info
  else s

/-- LOOKOUT_MESSAGE (R389): a source's report, when there is one, joins its queue, and Lookout takes the message at the front.
During a block reset of the page messages wait (R489). -/
def execLookoutMessage (fab : MsgQueue) (report : Option Message) (s : State) : Out :=
  s.run (fun s =>
    let s := match report with | some m => s.report fab m | none => s
    s.onlyIf (s.blockUp pgLookout) (·.takeNext fab))

/-- LEVEL_RISE_WITHOUT_MESSAGE (R396). -/
def execLevelRiseWithoutMessage (n : Fin 512) (s : State) : Out :=
  s.run (fun s => s.onlyIf (s.blockUp pgLookout) (·.levelRise n.val))

/-- FAULT_PULSE_END (R395): FAULT_N runs on the always-on island. -/
def execFaultPulseEnd (s : State) : Out :=
  s.runAlways (fun s => match s.lookout.pulseEnd with
    | some t =>
      if t ≤ s.clk.up then
        (if s.lookout.relPend then s.pinRise else s.setLook { s.lookout with pulseEnd := none })
      else s
    | none => s)

/-- A trap record reaches the head (R394): it waits for TRAP_READ, and a copy enters the long log. -/
def State.trapTake (s : State) : State :=
  match s.lookout.traps with
  | [] => s
  | m :: ms =>
    let s := (s.setLook { s.lookout with traps := ms }).count pgLookout Reg.loTraps 1
    let s := s.longCopy { num := 0, msg := m, sev := fld (s.loSrc m.src) 5 2, first := true, react := 2 }
    ({ s with forester := { s.forester with traps := s.forester.traps ++ [m] } } : State).raise pgForester 2

/-- TRAP_DELIVER (R394): while a cluster holds headship and Lookout reaches it. -/
def execTrapDeliver (s : State) : Out := s.run (fun s => s.onlyIf s.headReaches (·.trapTake))

/-- FATAL_WR (R399): the always-on island writes the summary even after the clocks have stopped. -/
def execFatalWr (ok : Bool) (s : State) : Out := s.runAlways (·.fatalWritten ok)

end Sys2Proof.Machine
end

