-- ==== Sys2Proof/Machine/Mailbox.lean ====
section
/-! DEFINITION. The mailbox (16_forester_security.md R430 to R436, R440, R442 to R445): what the head does for each command, and
the completion. -/

namespace Sys2Proof.Machine

/-! ### Commands and their results -/

/-- The OPs of Table 164. -/
def mbOps : List Nat :=
  [0x01, 0x02, 0x03, 0x04, 0x05, 0x10, 0x11, 0x12, 0x20, 0x21, 0x22, 0x23, 0x30, 0x40, 0x41, 0x42, 0x50, 0x51, 0x52]

/-- A result without a response. -/
def mbStat (status : Nat) : MbResult := { status := status }
/-- An OK result with response bytes. -/
def mbDone (resp : List Byte) : MbResult := { status := mbOk, resp := resp }
/-- Response words. -/
def mbWords (ws : List Nat) : MbResult := mbDone (ws.flatMap (leBytes 4))

def State.setMb (s : State) (m : MbS) : State := { s with forester := { s.forester with mb := m } }

/-- The request of the running command, and word i of it. -/
def State.mbReq (s : State) : List Byte := s.forester.mb.req
def State.mbArg (s : State) (i : Nat) : Nat := leAt s.mbReq (4 * i) 4

/-- The head carries out the running command when its OP is op; a head that cannot reach the mailbox does not (01_architecture.md R20). -/
def State.mbAct (s : State) (op : Nat) (f : State → State × MbResult) : State :=
  let m := s.forester.mb
  if m.busy ∧ m.op = op ∧ m.result.isNone ∧ s.headReaches then
    let r := f s
    r.1.setMb { r.1.forester.mb with result := some r.2 }
  else s

/-- A command that only answers. -/
def State.mbTell (s : State) (op : Nat) (f : State → MbResult) : State := s.mbAct op (fun s => (s, f s))

/-- f when the request has n bytes, else BAD_ARG. -/
def State.mbNeeds (s : State) (n : Nat) (f : State → State × MbResult) : State × MbResult :=
  if s.mbReq.length < n then (s, mbStat mbBadArg) else f s

/-- The index of the head cluster. -/
def State.headIdx (s : State) : Nat := s.forester.holder - 1

/-! ### State and telemetry -/

/-- INFO. -/
def State.mbInfo (s : State) : MbResult :=
  let f := s.forester
  mbWords [s.lcState, f.holder, f.epoch, clusterCode f.west.st + clusterCode f.east.st * 16, f.west.ver, f.east.ver, f.flash.preferred]

/-- INFO (R433). -/
def execInfo (s : State) : Out := s.run (·.mbTell 0x01 State.mbInfo)

/-- SENSORS: temperatures, and the telemetry of rails 0 to 10; PMBus is absent while its bank is off (18_pins_electrical.md R473).
The reading of VDD_CORE shows in FB_VCORE. -/
def State.mbSensors (s : State) (words : List Word) : State × MbResult :=
  let ws := if s.ioBank 1 then (List.range 22).map (wordAt words) else List.replicate 22 0
  let temps := (List.range 32).map (fun i => BitVec.ofNat 8 (s.reg pgFirebreak (Reg.fbTemp i)).toNat)
  let hbm := [BitVec.ofNat 8 (s.reg (pgHbm 0) Reg.hbTemp).toNat, BitVec.ofNat 8 (s.reg (pgHbm 1) Reg.hbTemp).toNat]
  let s := if s.ioBank 1 then s.setRf pgFirebreak Reg.fbVcore 16 16 (fld (wordAt words 0) 0 16) else s
  (s, mbDone (temps ++ hbm ++ zeros 14 ++ wordsLe ws))

/-- SENSORS (R433). -/
def execSensors (r : RailTelemetry) (s : State) : Out := s.run (·.mbAct 0x02 (·.mbSensors r.words))

/-! ### Log, summaries, traps -/

/-- Entry n of the long log as LOG_READ returns it: word 0 reads 0 when the log does not hold it. -/
def State.longWords (s : State) (n : Nat) : List Word :=
  let e := AMap.get {} s.forester.longLog (n % 65536)
  if e.num = n ∧ n ≠ 0 then e.words else 0 :: (List.range 7).map (fun k => Config.staleEntry s.freeCtr n k)

/-- LOG_READ: up to 127 entries in the response, more in the host buffer; at most the 65,536 that the log holds. -/
def State.mbLog (s : State) : State × MbResult :=
  s.mbNeeds 8 (fun s =>
    let d := (List.range (min 65536 (s.mbArg 1))).flatMap (fun k => wordsLe (s.longWords (s.mbArg 0 + k)))
    (s.drawn, { status := mbOk, resp := d.take 4064, data := d.drop 4064 }))

/-- LOG_READ (R435). -/
def execLogRead (s : State) : Out := s.run (·.mbAct 0x03 State.mbLog)

/-- FATAL_READ: the slot of summary S. -/
def State.mbFatal (s : State) : State × MbResult :=
  s.mbNeeds 4 (fun s =>
    let n := s.mbArg 0
    let b := AMap.get [] s.mram.sums (n % 16)
    (s, if sumValid (n % 16) b ∧ leAt b 8 4 = n then mbDone b else mbStat mbNotFound))

/-- FATAL_READ (14_lookout_faults.md R400). -/
def execFatalRead (s : State) : Out := s.run (·.mbAct 0x04 State.mbFatal)

/-- TRAP_READ: as many of the oldest records as a response holds. -/
def State.mbTraps (s : State) : State × MbResult :=
  let f := s.forester
  ({ s with forester := { f with traps := f.traps.drop 256 } }, mbDone ((f.traps.take 256).flatMap (fun m => wordsLe (msgWords m))))

/-- TRAP_READ (R433). -/
def execTrapRead (s : State) : Out := s.run (·.mbAct 0x05 State.mbTraps)

/-! ### Span performance and channels -/

/-- The span position that word 0 names. -/
def State.mbPos (s : State) : Nat := s.mbArg 0 % 256 % 32 * 8 + s.mbArg 0 / 32 % 8

/-- A bin of the history (R436). -/
def pmBinBytes (x : Nat × PmBin) : List Byte :=
  leBytes 8 (tsOf x.1) ++ leBytes 4 x.2.es ++ leBytes 4 x.2.ses ++ leBytes 4 x.2.uas ++ leBytes 8 x.2.bbe ++ leBytes 4 x.2.flags

/-- The bins of an end. -/
def HistSlot.bins (x : HistSlot) (far day : Bool) : List (Nat × PmBin) :=
  if day then (if far then x.farDay else x.nearDay) else (if far then x.far15 else x.near15)

/-- PM_READ. -/
def State.mbPm (s : State) : State × MbResult :=
  s.mbNeeds 4 (fun s =>
    let q := s.mbPos
    let far := decide (s.mbArg 0 / 256 % 2 = 1)
    let day := decide (s.mbArg 0 / 512 % 2 = 1)
    match s.mram.hist.find? (fun x => decide (x.pos = q)) with
    | some x => (s, mbDone ((x.bins far day).flatMap pmBinBytes))
    | none => (s, mbStat mbNotFound))

/-- PM_READ (R436). -/
def execPmRead (s : State) : Out := s.run (·.mbAct 0x10 State.mbPm)

/-- The channel that word 0 names: path when bit 8 is 1. -/
def State.mbPath (s : State) : Bool := decide (s.mbArg 0 / 256 % 2 = 1)

/-- CH_READ: the bytes waiting from a channel routed to Forester. -/
def State.mbChRead (s : State) : State × MbResult :=
  s.mbNeeds 4 (fun s =>
    let q := s.mbPos
    let x := s.span q
    if s.chRoute q s.mbPath = .forester then
      (s.setSpan q (x.setChRx s.mbPath ((x.chRx s.mbPath).drop 4096)), mbDone ((x.chRx s.mbPath).take 4096))
    else (s, mbDone []))

/-- CH_READ (04_span_framing.md R124). -/
def execChRead (s : State) : Out := s.run (·.mbAct 0x11 State.mbChRead)

/-- CH_WRITE: bytes into the transmit buffer, as many as fit. -/
def State.mbChWrite (s : State) : State × MbResult :=
  s.mbNeeds 4 (fun s =>
    let q := s.mbPos
    let x := s.span q
    let d := s.mbReq.drop 4
    if s.chRoute q s.mbPath = .forester then
      let l := x.chTx s.mbPath
      let d := d.take (4096 - l.length)
      (s.setSpan q (x.setChTx s.mbPath (l ++ d)), mbWords [d.length])
    else (s, mbWords [0]))

/-- CH_WRITE (04_span_framing.md R124). -/
def execChWrite (s : State) : Out := s.run (·.mbAct 0x12 State.mbChWrite)

/-! ### Images (R440) -/

/-- A cluster runs an image. -/
def ClusterS.runs (x : ClusterS) : Bool := decide (x.st = .standby) || decide (x.st = .head) || decide (x.st = .fenced)

/-- A running cluster uses a flash slot. -/
def State.slotRuns (s : State) (slot : Nat) : Bool :=
  (s.forester.west.runs && decide (s.forester.west.slot = slot)) || (s.forester.east.runs && decide (s.forester.east.slot = slot))

/-- What a host buffer of MB_ALEN bytes delivers. -/
def State.mbBuffer (s : State) (img : List Byte) : List Byte := img.take s.forester.mb.alen

/-- Write a flash slot and read it back against DIGEST (R440): the slot is valid only when the check has passed; what ran from it before
counts no longer. -/
def State.flashSlot (s : State) (k : Nat) (b : List Byte) (i : Image) : State × MbResult :=
  let good := Config.flashHolds s.freeCtr
  let s := (s.emit (.flash k (b.take (0x1D00 + imgLen b)))).drawn
  let x := s.forester.flash
  let x := { x with bad := AMap.set false x.bad k (!good), ran := (x.ran.filter (fun e => decide (e.1 / 2 ≠ k))) }
  ({ s with forester := { s.forester with flash := x } }, if good then mbWords [i.ver, i.svn, k] else mbStat mbStorage)

/-- Place a verified image: firmware in the flash slot that neither cluster runs, the rest in Forester memory. -/
def State.stage (s : State) (b : List Byte) (i : Image) : State × MbResult :=
  let t := imgType i.hdr
  if t = 1 then
    (if s.slotRuns 0 && s.slotRuns 1 then (s, mbStat mbRefused)
     else if s.ioBank 0 = false then (s, mbStat mbStorage)
     else
       s.flashSlot (if s.slotRuns 0 then 1 else 0) b i)
  else if t = 2 ∨ t = 3 then
    ({ s with forester := { s.forester with staged := AMap.set none s.forester.staged t (some i) } }, mbWords [i.ver, i.svn, 0])
  else (s, mbStat mbBadArg)

/-- IMG_STAGE: the TYPE of word 0 is the image's. -/
def State.mbStage (s : State) (img : List Byte) : State × MbResult :=
  s.mbNeeds 4 (fun s =>
    let b := s.mbBuffer img
    if s.dmaOk = false then (s, mbStat mbDma)
    else if imgType b ≠ s.mbArg 0 then (s, mbStat mbBadArg)
    else match s.verifyImage s.strict b with
      | .bad st => (s, mbStat st)
      | .good i => s.stage b i)

/-- IMG_STAGE (R440). -/
def execImgStage (img : List Byte) (s : State) : Out := s.run (·.mbAct 0x20 (·.mbStage img))

/-- The macros of a mask of 128 bits in request words 1 to 4. -/
def State.mbMacros (s : State) : List Nat := (List.range 128).filter (fun m => decide (leAt s.mbReq 4 16 / 2 ^ m % 2 = 1))

/-- Apply a data-path load, or write nothing when any window write would be refused. -/
def State.applyLoad (s : State) (i : Image) : State × MbResult :=
  match payloadRecs i.payload with
  | none => (s, mbStat mbBadArg)
  | some recs =>
    if recs.any (s.recRefused s.headReq) then (s, mbStat mbRefused)
    else
      let s := (s.loadRecs s.headReq recs).extend 3 (imgRecord i.hdr)
      ({ s with forester := { s.forester with dpSvn := s.forester.dpSvn ++ [i.svn] } }, mbStat mbOk)

/-- The head runs a recovery image (R441). -/
def State.headRecovers (s : State) : Bool := decide ((s.cluster s.headIdx).typ = 5)

/-- IMG_APPLY: the staged image of the TYPE of word 0; it is staged no longer. A head that runs a recovery image applies none (R441; DEDUCED,
log entry 87). -/
def State.mbApply (s : State) : State × MbResult :=
  s.mbNeeds 4 (fun s =>
    let t := s.mbArg 0
    if s.headRecovers then (s, mbStat mbState)
    else match AMap.get none s.forester.staged t with
    | none => (s, mbStat (if t = 2 ∨ t = 3 then mbNotFound else mbBadArg))
    | some i =>
      let s : State := { s with forester := { s.forester with staged := AMap.set none s.forester.staged t none } }
      if t = 2 then
        let r := s.fwApply i s.mbMacros
        (r.1, mbStat (if r.2 then mbOk else mbRefused))
      else s.applyLoad i)

/-- IMG_APPLY (R440). -/
def execImgApply (s : State) : Out := s.run (·.mbAct 0x21 State.mbApply)

/-! ### Clusters -/

/-- RESTART: the cluster boots again; the head itself is not restarted. -/
def State.mbRestart (s : State) : State × MbResult :=
  s.mbNeeds 4 (fun s =>
    let c := s.mbArg 0
    if 2 ≤ c then (s, mbStat mbBadArg)
    else if (s.cluster c).st = .head then (s, mbStat mbState)
    else (s.setCluster c { s.cluster c with st := .boot, uart := false }, mbStat mbOk))

/-- RESTART (R433, R441). -/
def execRestart (s : State) : Out := s.run (·.mbAct 0x22 State.mbRestart)

/-- HANDOVER: the other cluster, STANDBY and of no lower SVN, becomes head; the old head becomes STANDBY. The long log, traps and
history are held in common here, so that their copy changes nothing. -/
def State.mbHandover (s : State) : State × MbResult :=
  let c := s.headIdx
  let o := 1 - c
  if (s.cluster o).st = .standby ∧ (s.cluster c).svn ≤ (s.cluster o).svn ∧ s.flumeUp then
    ((s.setCluster c { s.cluster c with st := .standby }).newHead o, mbStat mbOk)
  else (s, mbStat mbState)

/-- HANDOVER (R430). -/
def execHandover (s : State) : Out := s.run (·.mbAct 0x23 State.mbHandover)

/-! ### The retained image (17_reset_retained.md R461) -/

/-- CFG_SAVE begins; its last word is written at completion. -/
def State.mbSave (s : State) : State × MbResult :=
  if s.rst.restoring then (s, mbStat mbState)
  else
    let c := s.cfgBuild
    if bodyMax < c.body_.length then (s, mbStat mbStorage) else (s.saveStart c, mbDone (leBytes 8 c.seq))

/-- CFG_SAVE. -/
def execCfgSave (s : State) : Out := s.run (·.mbAct 0x30 State.mbSave)

/-! ### Attestation (R442, R443) -/

/-- The identity exists (Table 167). -/
def State.hasIdentity (s : State) : Bool := decide (s.fuses.life = 1) || decide (s.fuses.life = 2)

/-- The identity public key: that of the key pair whose seed the fuses hold. -/
def State.identityKey (s : State) : List Byte := (mldsaKeys s.fuses.seed).1

/-- Bytes 0x0000 to 0x02BF of the report (Table 169). -/
def State.reportBody (s : State) (nonce : List Byte) : List Byte :=
  let f := s.forester
  leBytes 4 0x54415856 ++ leBytes 2 1 ++ leBytes 2 s.lcState ++ leBytes 8 (Config.serial ()).toNat ++ leBytes 8 (tsOf s.now)
    ++ leBytes 4 f.holder ++ leBytes 4 f.epoch ++ leBytes 4 (s.rf pgLifecycle Reg.lcCtrl 0 2 + 4 * b2n s.testRuns)
    ++ leBytes 4 f.west.ver ++ leBytes 4 f.east.ver
    ++ (List.range 6).map (fun t => BitVec.ofNat 8 (AMap.get 0 s.fuses.svn (t + 1))) ++ zeros 2 ++ zeros 12
    ++ bytesAt nonce 0 64 ++ (List.range 8).flatMap s.meas ++ sha3 s.identityKey

/-- The report, signed under the rule of R438 step 4 with 32 random bytes, as FIPS 204 does by default (DESIGN CHOICE, log entry 8). -/
def State.report_ (s : State) (nonce : List Byte) : List Byte :=
  let b := s.reportBody nonce
  b ++ bytesAt (mldsaSign s.fuses.seed (drawSeed s.freeCtr) sigContext b) 0 4627 ++ zeros 45

/-- ATTEST. -/
def State.mbAttest (s : State) : State × MbResult :=
  if s.hasIdentity = false then (s, mbStat mbState)
  else if s.mbReq.length < 64 then (s, mbStat mbBadArg)
  else if s.forester.mb.alen < 5376 then (s, mbStat mbShort)
  else ({ s with freeCtr := s.freeCtr + 4 }, { status := mbOk, data := s.report_ s.mbReq })

/-- ATTEST (R443). -/
def execAttest (s : State) : Out := s.run (·.mbAct 0x40 State.mbAttest)

/-- IDENT (R433). -/
def execIdent (s : State) : Out :=
  s.run (·.mbTell 0x41 (fun s => if s.hasIdentity then mbDone s.identityKey else mbStat mbState))

/-- MEAS_EXTEND: M7 takes the request. -/
def State.mbMeas (s : State) : State × MbResult := s.mbNeeds 1 (fun s => (s.extend 7 s.mbReq, mbStat mbOk))

/-- MEAS_EXTEND (R442). -/
def execMeasExtend (s : State) : Out := s.run (·.mbAct 0x42 State.mbMeas)

/-! ### Life cycle and fuses (R433, R445) -/

/-- The state that a token lets the device advance to, or a status. -/
def State.tokenTarget (s : State) (i : Image) : Nat ⊕ Nat :=
  let t := leAt i.payload 0 4
  if imgType i.hdr ≠ 6 ∨ i.payload.length ≠ 16 ∨ leAt i.payload 4 8 ≠ (Config.serial ()).toNat ∨ leAt i.payload 12 4 ≠ 0
      ∨ t ≠ s.mbArg 0 then .inr mbAuth
  else if t ≤ s.fuses.life ∨ 3 < t then .inr mbState
  else .inl t

/-- LC_ADVANCE: the change follows 10 ms after completion. -/
def State.mbAdvance (s : State) (img : List Byte) : State × MbResult :=
  s.mbNeeds 4 (fun s =>
    if s.dmaOk = false then (s, mbStat mbDma)
    else match s.verifyImage s.strict (s.mbBuffer img) with
      | .bad st => (s, mbStat st)
      | .good i =>
        match s.tokenTarget i with
        | .inl t => ({ s with forester := { s.forester with lcNext := some (t, 0) } }, mbStat mbOk)
        | .inr st => (s, mbStat st))

/-- LC_ADVANCE (R445). -/
def execLcAdvance (img : List Byte) (s : State) : Out := s.run (·.mbAct 0x50 (·.mbAdvance img))

/-- The SVNs that run of a TYPE: of both clusters, or of every loaded image; empty when there is nothing of the TYPE. -/
def State.runningSvns (s : State) (t : Nat) : List Nat :=
  let w := s.forester.west
  let e := s.forester.east
  if t = 2 then
    s.macros.flatMap (fun x => (if x.2.ver0 = 0 then [] else [x.2.svn0]) ++ (if x.2.ver1 = 0 then [] else [x.2.svn1]))
  else if t = 3 then s.forester.dpSvn
  else if w.runs ∧ e.runs ∧ w.typ = t ∧ e.typ = t then [w.svn, e.svn]
  else []

/-- SVN_ADVANCE: the floor of a TYPE rises to the lowest SVN that runs. -/
def State.mbSvn (s : State) : State × MbResult :=
  s.mbNeeds 4 (fun s =>
    let t := s.mbArg 0
    if t = 0 ∨ 6 < t then (s, mbStat mbBadArg)
    else match s.runningSvns t with
      | [] => (s, mbStat mbState)
      | x :: xs =>
        let n := max (AMap.get 0 s.fuses.svn t) (min 63 (xs.foldl min x))
        ({ s with fuses := { s.fuses with svn := AMap.set 0 s.fuses.svn t n } }, mbStat mbOk))

/-- SVN_ADVANCE (R433). -/
def execSvnAdvance (s : State) : Out := s.run (·.mbAct 0x51 State.mbSvn)

/-- KEY_PROGRAM: in PROVISIONED, the digest of slot 2 or 3 that is not programmed. -/
def State.mbKey (s : State) : State × MbResult :=
  s.mbNeeds 68 (fun s =>
    let k := s.mbArg 0
    if s.fuses.life ≠ 1 then (s, mbStat mbState)
    else if k ≠ 2 ∧ k ≠ 3 then (s, mbStat mbBadArg)
    else if (s.fusedDigest k).isSome then (s, mbStat mbState)
    else
      ({ s with fuses := { s.fuses with keys := AMap.set [] s.fuses.keys k (bytesAt s.mbReq 4 64) } }, mbStat mbOk))

/-- KEY_PROGRAM (R433). -/
def execKeyProgram (s : State) : Out := s.run (·.mbAct 0x52 State.mbKey)

/-! ### Completion (R431, R432) -/

/-- Response words into MB_RSP. -/
def State.putRsp (s : State) : Nat → List Word → State
  | _, [] => s
  | i, w :: ws => (s.setReg pgForester (Reg.mbRsp i) w).putRsp (i + 1) ws

/-- The result as it is published: host-buffer data that do not fit, or that cannot be written, turn it into an error. -/
def State.mbFinal (s : State) (r : MbResult) : MbResult :=
  if r.data.isEmpty then r
  else if s.forester.mb.alen < r.data.length then mbStat mbShort
  else if s.dmaOk = false then mbStat mbDma
  else r

/-- Publish a result: response, host buffer without Relaxed Ordering, then MB_STAT and DONE. Bank writes of lane firmware have ended. -/
def State.mbPublish (s : State) (r : MbResult) : State :=
  let m := s.forester.mb
  let s := if r.data.isEmpty then s else s.emit (.hostWrite (m.addr / 64 * 64) r.data false)
  let s := s.putRsp 0 (leWords r.resp ((r.resp.length + 3) / 4))
  let s := s.setReg pgForester Reg.mbRlen (BitVec.ofNat 32 r.resp.length)
  let s := s.setReg pgForester Reg.mbXlen (BitVec.ofNat 32 r.data.length)
  let s := s.setMb { s.forester.mb with busy := false, done := true, status := r.status, tag := m.goTag, result := none }
  (s.fwEnd (List.range 128)).raise pgForester evDone

/-- What CFG_SAVE and LC_ADVANCE do at completion: the copy becomes valid unless a commit broke the save (17_reset_retained.md
R462); the 10 ms of the life-cycle change begin. -/
def State.mbSettle (s : State) (r : MbResult) : State × MbResult :=
  let f := s.forester
  match f.saving with
  | some x =>
    if r.status ≠ mbOk ∨ f.saveBad then
      ({ s with forester := { f with saving := none, saveBad := false } },
        if r.status = mbOk then mbStat mbInterrupted else r)
    else (s.saveEnd x, r)
  | none =>
    match f.lcNext with
    | some (t, d) =>
      if d = 0 then ({ s with forester := { f with lcNext := some (t, s.clk.up + 10000000) } }, r) else (s, r)
    | none => (s, r)

/-- A RESTART completes when its cluster has booted (16_forester_security.md, worked example). -/
def State.stillBoots (s : State) : Bool :=
  decide (s.forester.mb.op = 0x22 ∧ (s.cluster (s.mbArg 0)).st = .boot) &&
    (match s.forester.mb.result with | some r => decide (r.status = mbOk) | none => false)

/-- The head completes the running command. -/
def State.mbComplete (s : State) : State :=
  let m := s.forester.mb
  if m.busy = false ∨ s.headReaches = false ∨ s.stillBoots then s
  else if m.op ∉ mbOps then s.mbPublish (mbStat mbBadOp)
  else match m.result with
    | none => s
    | some r =>
      let x := s.mbSettle (s.mbFinal r)
      x.1.mbPublish x.2

/-- MAILBOX_COMPLETE (R431). -/
def execMailboxComplete (s : State) : Out := s.run (·.mbComplete)

/-- No cluster has held headship for 100 ms from MB_GO. -/
def State.mbNoHeadEnd (s : State) : State :=
  let m := s.forester.mb
  if m.busy ∧ m.headed = false ∧ m.goAt + 100000000 ≤ s.clk.up then s.mbPublish (mbStat mbNoHead) else s

/-- NO_HEAD (R432). -/
def execNoHead (s : State) : Out := s.run (·.mbNoHeadEnd)

end Sys2Proof.Machine
end

