-- ==== Sys2Proof/Machine/Span.lean ====
section
/-! DEFINITION. The commands of span ports and the OHSP ports (04_span_framing.md). -/

namespace Sys2Proof.Machine

/-- A position works: an enabled span port whose slice and page are out of reset. -/
def State.spanReady (s : State) (q : Nat) : Bool := s.spanOn q && s.sliceUp (q / 8) && s.blockUp (pgSp q)

/-- The loopback of the port of a position (03_lanes_ports.md R83). -/
def State.spanLpbk (s : State) (q : Nat) : Nat := cfgLpbk (s.port (spanSlot q)).cfg

/-- 8,192 bytes of the span stream reach a position. -/
def State.spanHear (s : State) (q : Nat) (bytes : List Byte) : State := (s.spanReceive q bytes).settleSpan q

/-- SPAN_FRAME_RX (R97, R105, R108 to R113): from the line in normal operation, sent back in far-end loopback. -/
def execSpanFrameRx (q : SpanPos) (bytes : List Byte) (s : State) : Out :=
  s.run (fun s => s.onlyIf (s.spanReady q.val) (fun s =>
    if s.spanLpbk q.val = 0 then s.spanHear q.val bytes
    else if s.spanLpbk q.val = 2 then s.onlyIf (s.lanesActive (spanSlot q.val)) (·.transmit (spanSlot q.val) (.span q.val bytes))
    else s))

/-- Span frames that a position's own receiver takes. -/
def State.spanLoop (s : State) (q : Nat) : List Output → State
  | [] => s
  | .span r bs :: os => (if r = q then s.spanHear q bs else s).spanLoop q os
  | _ :: os => s.spanLoop q os

/-- SPAN_FRAME_TX (R95); in near-end loopback the frame reaches the position's receiver; in far-end loopback the lanes
send the received stream instead (R83). -/
def execSpanFrameTx (q : SpanPos) (s : State) : Out :=
  s.run (fun s => s.onlyIf (s.spanReady q.val && decide (s.spanLpbk q.val ≠ 2)) (fun s =>
    let t := s.spanSend q.val
    if s.spanLpbk q.val = 1 then t.spanLoop q.val (t.out.drop s.out.length) else t))

/-! ### Packets (R106) -/

/-- A delineated packet whose following header has been checked is delivered or discarded; one whose delivery has begun ends, as a
stomp when it is discarded (R106). -/
def State.spanPacket (s : State) (q : Nat) (k : SpanPkt) : State :=
  let p := spanSlot q
  let reason := spanReason (s.maxFrame p) (s.port p).linkUp (s.unpaired q) k
  if reason ≠ 0 then s.spanDiscard q k reason
  else
    let ts := s.ingressTsAt p k.ts
    let s := (s.spanRxCount q 0 k.body.length).bwFrame p k.body
    let lost := fun (s : State) => s.accountEarly { src := p, len := k.body.length, reason := rOverrun, ts := ts }
    match k.cur with
    | some (some root) => s.completeRoot root k.body 0
    | some none => lost s
    | none =>
      if (s.span q).transit then
        match s.toFifo p k.body k.body.length ts true with
        | some t => t
        | none => lost s
      else s.rxGood p k.body ts

/-- Delivery of the packet under way begins, so that it may be cut through: its header window is here, no row of Table 38 that its
header decides applies, and it is no MAC control frame (R106, R276). -/
def State.spanBegin (s : State) (q : Nat) (k : SpanPkt) : State :=
  let p := spanSlot q
  if k.cur = none ∧ (256 ≤ k.body.length ∨ k.body.length = k.len)
      ∧ spanHead (s.maxFrame p) (s.port p).linkUp (s.unpaired q) k = 0 ∧ ((s.span q).transit ∨ isMacControl k.body = false) then
    let root := s.nextFrame
    match s.toFifo p k.body k.len (s.ingressTsAt p k.ts) false with
    | some t => t.setSpan q { t.span q with dPkt := some { k with cur := some (some root) } }
    | none => s.setSpan q { s.span q with dPkt := some { k with cur := some none } }
  else s

/-- Take the position's next packet, or begin to take the one under way. -/
def State.spanPacketNext (s : State) (q : Nat) : State :=
  let x := s.span q
  match x.rxq, x.dPkt with
  | k :: ks, _ => (s.setSpan q { x with rxq := ks }).spanPacket q k
  | [], some k => s.spanBegin q k
  | [], none => s

/-- SPAN_PACKET_RX (R106). -/
def execSpanPacketRx (q : SpanPos) (s : State) : Out :=
  s.run (fun s => s.onlyIf (s.spanReady q.val) (·.spanPacketNext q.val))

/-! ### Defects (R113) -/

/-- Every lane of a port has signal and CDR lock. -/
def State.lanesLocked (s : State) (p : Nat) : Bool := (s.portLanes p).all (fun l => (s.lane l).signal && (s.lane l).cdr)

/-- A persistence time runs out. AIS and RDI are counted in frames, so they have none. -/
def State.defectTimer (s : State) (q : Nat) : Defect → State
  | .los =>
    let p := spanSlot q
    if s.lanesActive p ∧ s.lanesLocked p ∧ (s.port p).alignAt + 10000 ≤ s.clk.up then (s.realign p).spanLosClear q else s
  | .lof => s.spanLof q
  | .lom => s.spanLom q
  | .ais => s
  | .rdi => s

/-- DEFECT_TIMER (R113). -/
def execDefectTimer (q : SpanPos) (d : Defect) (s : State) : Out :=
  s.run (fun s => s.onlyIf (s.spanReady q.val) (fun s => (s.defectTimer q.val d).settleSpan q.val))

/-! ### Performance monitoring (R116 to R118) -/

/-- How one second of an end is classified. -/
def PmEnd.classify (e : PmEnd) : PmSec :=
  let ses := e.defect || decide (e.frames * 3 ≤ e.errs * 20)
  { es := e.defect || decide (0 < e.errs), ses := ses, bbe := if ses then 0 else e.errs }

/-- Add to a 32-bit bin counter; sub takes away. -/
def State.binCount (s : State) (q o n : Nat) (sub : Bool) : State :=
  s.count (pgSp q) o (if sub then (2 ^ 32 - n) % 2 ^ 32 else n)

/-- Add to a 64-bit bin counter. -/
def State.binCount64 (s : State) (q o n : Nat) : State := s.count64 (pgSp q) o n

/-- A second's ES, SES and BBE in bin b of an end, or taken away. -/
def State.binSec (s : State) (q b : Nat) (x : PmSec) (sub : Bool) : State :=
  let j := q % 8
  let s := s.binCount q (Reg.pmEs j b) (b2n x.es) sub
  let s := s.binCount q (Reg.pmSes j b) (b2n x.ses) sub
  if sub then s else s.binCount64 q (Reg.pmBbe j b) x.bbe

/-- The bins that hold a second of end e. -/
def PmSec.bins (x : PmSec) (e : Nat) : List Nat :=
  [4 * e + (if x.old15 then 1 else 0), 4 * e + (if x.oldDay then 3 else 2)]

/-- Count a second as available, or take it away, in its bins. -/
def State.secAvail (s : State) (q : Nat) (x : PmSec) (sub : Bool) : List Nat → State
  | [] => s
  | b :: bs => (s.binSec q b x sub).secAvail q x sub bs

/-- Count a second in UAS, or take it away, in its bins. -/
def State.secUas (s : State) (q : Nat) (sub : Bool) : List Nat → State
  | [] => s
  | b :: bs => (s.binCount q (Reg.pmUas (q % 8) b) 1 sub).secUas q sub bs

/-- The nine seconds before the tenth SES move from ES and SES to UAS. -/
def State.toUas (s : State) (q e : Nat) : List PmSec → State
  | [] => s
  | x :: xs => ((s.secAvail q x true (x.bins e)).secUas q false (x.bins e)).toUas q e xs

/-- The nine seconds before the tenth that is not SES leave UAS and count. -/
def State.fromUas (s : State) (q e : Nat) : List PmSec → State
  | [] => s
  | x :: xs => ((s.secUas q true (x.bins e)).secAvail q x false (x.bins e)).fromUas q e xs

/-- One second of an end (R117): its counts, and its availability after it. -/
def State.pmEnd (s : State) (q e : Nat) (m : PmEnd) : State × PmEnd :=
  let x := m.classify
  let m := { m with frames := 0, errs := 0, defect := false }
  if m.unavail then
    if x.ses then (s.secUas q false (x.bins e), { m with run := 0, last := [] })
    else if m.run = 9 then
      ((s.fromUas q e m.last).secAvail q x false (x.bins e), { m with unavail := false, run := 0, last := [] })
    else (s.secUas q false (x.bins e), { m with run := m.run + 1, last := x :: m.last })
  else if x.ses then
    if m.run = 9 then ((s.toUas q e m.last).secUas q false (x.bins e), { m with unavail := true, run := 0, last := [] })
    else (s.secAvail q x false (x.bins e), { m with run := m.run + 1, last := x :: m.last })
  else (s.secAvail q x false (x.bins e), { m with run := 0, last := [] })

/-- A near-end ES or SES count of the current 15-minute bin has reached its threshold (R118). -/
def State.tcaReached (s : State) (q : Nat) : Bool :=
  let w := s.spReg q Reg.spTca
  let at_ := fun (t v : Nat) => decide (t ≠ 0 ∧ t ≤ v)
  at_ (fld w 0 16) (s.reg (pgSp q) (Reg.pmEs (q % 8) 0)).toNat || at_ (fld w 16 16) (s.reg (pgSp q) (Reg.pmSes (q % 8) 0)).toNat

/-- A PTP second ends for a position (R116): a near-end defect second adds nothing to the far end. -/
def State.pmPosition (s : State) (q : Nat) : State :=
  let x := s.span q
  let near := s.pmEnd q 0 x.near
  let far : State × PmEnd :=
    if x.near.defect then (near.1, { x.far with frames := 0, errs := 0, defect := false }) else near.1.pmEnd q 1 x.far
  let s := far.1.putSpan q { x with near := near.2, far := far.2 }
  if x.tca = false ∧ s.tcaReached q then (s.setSpan q { s.span q with tca := true }).raise (pgSp q) evTca else s

def State.pmPositions (s : State) : List Nat → State
  | [] => s
  | q :: qs => (if s.spanReady q then s.pmPosition q else s).pmPositions qs

/-- PM_SECOND (R116). -/
def execPmSecond (s : State) : Out := s.run (fun s => s.pmPositions (s.spans.map (·.1)))

/-- The PTP second of now. -/
def State.nowSec (s : State) : Nat := s.now / 1000000000

/-- This second is a boundary of the 15-minute bins, or of the day bins less PM_DAY_OFS of a position's slice (R118). -/
def State.atBoundary (s : State) (q : Nat) (day : Bool) : Bool :=
  if day then decide ((s.nowSec + (86400 - s.rf (pgSp q) Reg.pmDayOfs 0 17 % 86400)) % 86400 = 0)
  else decide (s.nowSec % 900 = 0)

/-- The bins of a position have rolled in this second. -/
def State.rolled (s : State) (q : Nat) (day : Bool) : Bool :=
  let x := s.span q
  decide ((if day then x.rollDay else x.roll15) = some s.nowSec)

/-- The current bin at b of an end moves to b + 1 and clears (R118). -/
def State.rollBin (s : State) (q b : Nat) (whole : Bool) : State :=
  let pg := pgSp q
  let j := q % 8
  let mv := fun (s : State) (o : Nat → Nat → Nat) => (s.setReg pg (o j (b + 1)) (s.reg pg (o j b))).setReg pg (o j b) 0
  let s := mv (mv (mv (mv s Reg.pmEs) Reg.pmSes) Reg.pmUas) Reg.pmFlags
  let s := s.setRf pg (Reg.pmFlags j (b + 1)) 1 1 (b2n whole)
  (s.setReg64 pg (Reg.pmBbe j (b + 1)) (s.reg64 pg (Reg.pmBbe j b))).setReg64 pg (Reg.pmBbe j b) 0

def PmEnd.age (m : PmEnd) (day : Bool) : PmEnd :=
  { m with last := m.last.map (fun x => if day then { x with oldDay := true } else { x with old15 := true }) }

/-- The 15-minute bins, or the day bins, of a position roll. -/
def State.rollPosition (s : State) (q : Nat) (day : Bool) : State :=
  let x := s.span q
  let b := if day then 2 else 0
  let w := if day then x.wholeDay else x.whole15
  let s := (s.rollBin q b w).rollBin q (4 + b) w
  let x := { x with near := x.near.age day, far := x.far.age day }
  let s := s.setSpan q (if day then { x with wholeDay := true, rollDay := some s.nowSec }
    else { x with whole15 := true, roll15 := some s.nowSec, tca := false })
  s.raise (pgSp q) (if day then evDay else evBin15)

def State.rollPositions (s : State) (day : Bool) : List Nat → State
  | [] => s
  | q :: qs => (if s.spanReady q && s.atBoundary q day && !s.rolled q day then s.rollPosition q day else s).rollPositions day qs

/-- BIN15 (R118). -/
def execBin15 (s : State) : Out := s.run (fun s => s.rollPositions false (s.spans.map (·.1)))

/-- DAY (R118): the boundary of a slice, by its PM_DAY_OFS. -/
def execDay (sl : Slice) (s : State) : Out := s.run (·.rollPositions true (slicePositions sl.val))

/-! ### OHSP (R122, R123) -/

/-- One timeslot: what the device sends, and the state after it has sent and sampled. -/
def State.ohspSlot (s : State) (n ts : Nat) (din : BitVec 10) : BitVec 10 × State :=
  match s.chHolder n ts with
  | none => (0, s)
  | some (q, path) =>
    let x := s.span q
    let rx := x.chRx path
    let tx := x.chTx path
    let rdy := decide (tx.length ≤ 6)
    let dout := (match rx with | b :: _ => 512 + b.toNat | [] => 0) + b2n rdy * 256
    let s := s.setSpan q (x.setChRx path (rx.drop 1))
    let s := if din.toNat / 512 = 1 then
        if tx.length < 8 then
          s.setSpan q ((s.span q).setChTx path (tx ++ [BitVec.ofNat 8 din.toNat]))
        else (s.count pgOhsp (Reg.ohOvf n) 1).raise pgOhsp n
      else s
    (BitVec.ofNat 10 dout, s)

/-- The timeslots of a TDM frame from ts on. -/
def State.ohspSlots (s : State) (n : Nat) : Nat → List (BitVec 10) → List (BitVec 10) × State
  | _, [] => ([], s)
  | ts, d :: ds =>
    let r := s.ohspSlot n ts d
    let t := r.2.ohspSlots n (ts + 1) ds
    (r.1 :: t.1, t.2)

/-- A TDM frame of port n. -/
def State.ohspFrame (s : State) (n : Nat) (din : List (BitVec 10)) : State :=
  let r := s.ohspSlots n 0 ((List.range 32).map (fun i => din.getD i 0))
  (r.2.emit (.ohsp n r.1)).count pgOhsp (Reg.ohFrames n) 1

/-- OHSP_FRAME (R122). -/
def execOhspFrame (n : Fin 4) (din : List (BitVec 10)) (s : State) : Out :=
  s.run (fun s => s.onlyIf (s.ohRuns n.val) (·.ohspFrame n.val din))

end Sys2Proof.Machine
end

