-- ==== Sys2Proof/Machine/Tables.lean ====
section
/-! DEFINITION. The table commands (06_tables.md R205 to R208, Table 76). Each takes the next descriptor of its
table-command queue when that descriptor's OP is its own; blk is the data block read from host memory, with the steps that
the routine takes before a block reset that is under way stops it (R200). A TABLE_NOP has no step before its last. -/

namespace Sys2Proof.Machine

/-- EM_INSERT (R178, R182). -/
def execEmInsert (q : Fin 16) (blk : TableRead) (s : State) : Out := s.run (·.tableCmd q.val (· == 0x01) blk.bytes blk.steps)
/-- EM_UPDATE (R182). -/
def execEmUpdate (q : Fin 16) (blk : TableRead) (s : State) : Out := s.run (·.tableCmd q.val (· == 0x02) blk.bytes blk.steps)
/-- EM_UPSERT (R182). -/
def execEmUpsert (q : Fin 16) (blk : TableRead) (s : State) : Out := s.run (·.tableCmd q.val (· == 0x03) blk.bytes blk.steps)
/-- EM_DELETE (R182). -/
def execEmDelete (q : Fin 16) (blk : TableRead) (s : State) : Out := s.run (·.tableCmd q.val (· == 0x04) blk.bytes blk.steps)
/-- EM_READ (R182). -/
def execEmRead (q : Fin 16) (blk : TableRead) (s : State) : Out := s.run (·.tableCmd q.val (· == 0x05) blk.bytes blk.steps)
/-- LPM_INSERT (R185). -/
def execLpmInsert (q : Fin 16) (blk : TableRead) (s : State) : Out := s.run (·.tableCmd q.val (· == 0x10) blk.bytes blk.steps)
/-- LPM_DELETE (R186). -/
def execLpmDelete (q : Fin 16) (blk : TableRead) (s : State) : Out := s.run (·.tableCmd q.val (· == 0x11) blk.bytes blk.steps)
/-- LPM_READ (R182). -/
def execLpmRead (q : Fin 16) (blk : TableRead) (s : State) : Out := s.run (·.tableCmd q.val (· == 0x12) blk.bytes blk.steps)
/-- TCAM_WRITE (R206). -/
def execTcamWrite (q : Fin 16) (blk : TableRead) (s : State) : Out := s.run (·.tableCmd q.val (· == 0x20) blk.bytes blk.steps)
/-- TCAM_DELETE (R206). -/
def execTcamDelete (q : Fin 16) (blk : TableRead) (s : State) : Out := s.run (·.tableCmd q.val (· == 0x21) blk.bytes blk.steps)
/-- BULK_MOVE (R208). -/
def execBulkMove (q : Fin 16) (blk : TableRead) (s : State) : Out := s.run (·.tableCmd q.val (· == 0x30) blk.bytes blk.steps)
/-- BULK_FLUSH (R208). -/
def execBulkFlush (q : Fin 16) (blk : TableRead) (s : State) : Out := s.run (·.tableCmd q.val (· == 0x31) blk.bytes blk.steps)
/-- TABLE_NOP (R205): OP 0x3F; and any OP that Table 76 does not list, which ends with BAD_OP (R207). -/
def execTableNop (q : Fin 16) (s : State) : Out :=
  s.run (·.tableCmd q.val (fun op => op == 0x3F || !opKnown op) [] 0)

end Sys2Proof.Machine
end

