-- ==== Sys2Proof/Machine/Writes.lean ====
section
/-! DEFINITION. The commands that are writes of one register and name no requester: they are the host's (DESIGN CHOICE, log entry
1; a cluster's same write comes as REGISTER_WRITE), and reach their page as every write does: not ready, posted, lost, locked,
held by a fence (02_registers.md R37 to R40, R50 to R59). -/

namespace Sys2Proof.Machine

/-- The host writes a register. -/
def State.hostWrite (s : State) (p o : Nat) (v : Word) : State := s.regWrite .host p o v

/-! ### PORT_CTRL (03_lanes_ports.md Table 32), on a slow page -/

/-- The host writes PORT_CTRL with the field of n bits at bit lo as given, its other settings as they stand and no other
command. -/
def State.ctrlHost (s : State) (p lo n x : Nat) : State :=
  s.hostWrite (pgPort p) (Reg.portCtrl (p % 32)) (put (s.portCtrl p &&& 0x47) lo n x)

/-- PORT_ENABLE (R69). -/
def execPortEnable (p : Port) (s : State) : Out := s.run (·.ctrlHost p.val 0 1 1)

/-- PORT_DISABLE (R75). -/
def execPortDisable (p : Port) (s : State) : Out := s.run (·.ctrlHost p.val 0 1 0)

/-- PWR_ACTIVE (R75). -/
def execPwrActive (p : Port) (s : State) : Out := s.run (·.ctrlHost p.val 1 2 0)

/-- PWR_STANDBY (R75). -/
def execPwrStandby (p : Port) (s : State) : Out := s.run (·.ctrlHost p.val 1 2 1)

/-- PWR_DORMANT (R75). -/
def execPwrDormant (p : Port) (s : State) : Out := s.run (·.ctrlHost p.val 1 2 2)

/-- RECAL_LIVE (R84). -/
def execRecalLive (p : Port) (s : State) : Out := s.run (·.ctrlHost p.val 3 1 1)

/-- RECAL_FULL (R85). -/
def execRecalFull (p : Port) (s : State) : Out := s.run (·.ctrlHost p.val 4 1 1)

/-- PORT_RESET (R87). -/
def execPortReset (p : Port) (s : State) : Out := s.run (·.ctrlHost p.val 5 1 1)

/-! ### Span, parser, Woodlot -/

/-- INJ_BIP (04_span_framing.md R97): SP_CTRL.INJ_BIP written as 1, its other fields as they stand; the next frame sent has bit 0 of
SBIP inverted. -/
def execInjBip (q : SpanPos) (s : State) : Out :=
  s.run (fun s => s.hostWrite (pgSp q.val) (Reg.spCtrl (q.val % 8)) (put (s.spReg q.val Reg.spCtrl) 3 1 1))

/-- SWAP (05_parser_kerf.md R140): PP_CTRL.SWAP written as 1. -/
def execSwap (sl : Slice) (s : State) : Out := s.run (·.hostWrite (pgParser sl.val) Reg.ppCtrl 1)

/-- WL_MIGRATE (06_tables.md R202): BANK and GO = 1 written. -/
def execWlMigrate (h : Half) (bank : BitVec 8) (s : State) : Out :=
  s.run (·.hostWrite (pgWlem h.val) Reg.wlMigrate (BitVec.ofNat 32 (bank.toNat + 2 ^ 31)))

/-- The host writes MT_CTRL with bit i = 1 and its fields as they stand. -/
def State.maintHost (s : State) (h i : Nat) : State :=
  s.hostWrite (pgMaint h) Reg.mtCtrl (put (s.reg (pgMaint h) Reg.mtCtrl &&& 9) i 1 1)

/-- RESUME (06_tables.md R200). -/
def execResume (h : Half) (s : State) : Out := s.run (·.maintHost h.val 1)

/-- ABANDON (06_tables.md R201). -/
def execAbandon (h : Half) (s : State) : Out := s.run (·.maintHost h.val 2)

/-! ### Replication, time, telemetry -/

/-- DRAIN (09_queues_forwarding.md R270): REP_CTRL.DRAIN written as 1. -/
def execDrain (h : Half) (s : State) : Out := s.run (·.hostWrite (pgAdmit h.val) Reg.repCtrl 1)

/-- SET (10_telemetry.md R289): TM_CMD.SET written as 1. -/
def execSet (s : State) : Out := s.run (·.hostWrite pgTime Reg.tmCmd 1)

/-- STEP (R289): TM_CMD.STEP written as 1. -/
def execStep (s : State) : Out := s.run (·.hostWrite pgTime Reg.tmCmd 2)

/-- CLR_MX (R301): MX_CTRL.CLR_MX written as 1. -/
def execClrMx (h : Half) (s : State) : Out := s.run (·.hostWrite (pgMatrix h.val) Reg.mxCtrl 1)

/-- CLR_HIST (R302). -/
def execClrHist (h : Half) (s : State) : Out := s.run (·.hostWrite (pgMatrix h.val) Reg.mxCtrl 2)

/-- CLR_DROP (R303). -/
def execClrDrop (h : Half) (s : State) : Out := s.run (·.hostWrite (pgMatrix h.val) Reg.mxCtrl 4)

/-- The host writes TY_CTRL with bit i = 1, EN as it stands. -/
def State.tallyHost (s : State) (h i : Nat) : State :=
  s.hostWrite (pgTally h) Reg.tyCtrl (put (s.reg (pgTally h) Reg.tyCtrl &&& 1) i 1 1)

/-- FLUSH (R316). -/
def execFlush (h : Half) (s : State) : Out := s.run (·.tallyHost h.val 1)

/-- EXPORT_ALL (R316). -/
def execExportAll (h : Half) (s : State) : Out := s.run (·.tallyHost h.val 2)

/-- CLEAR (R316). -/
def execClear (h : Half) (s : State) : Out := s.run (·.tallyHost h.val 3)

/-- RETRAIN (R322): HB_CTRL.RETRAIN written as 1, AUTO as it stands. -/
def execRetrain (h : Half) (s : State) : Out :=
  s.run (fun s => s.hostWrite (pgHbm h.val) Reg.hbCtrl (put (s.reg (pgHbm h.val) Reg.hbCtrl &&& 2) 0 1 1))

/-! ### DMA queues (12_host_interface.md) -/

/-- DOORBELL (R352). -/
def execDoorbell (q : QueueId) (value : Word) (s : State) : Out :=
  s.run (·.hostWrite pgDoorbell (0x1000 + 4 * q.val) value)

/-- QUEUE_ENABLE (R351): HQ_CTRL.EN written as 1. -/
def execQueueEnable (q : QueueId) (s : State) : Out := s.run (·.hostWrite (pgQueue q.val) (Reg.hqCtrl (q.val % 32)) 1)

/-- QUEUE_DISABLE (R351): HQ_CTRL.EN written as 0. -/
def execQueueDisable (q : QueueId) (s : State) : Out := s.run (·.hostWrite (pgQueue q.val) (Reg.hqCtrl (q.val % 32)) 0)

/-! ### Lookout, Firebreak, reset -/

/-- LO_CLR (14_lookout_faults.md R390). -/
def execLoClr (value : Word) (s : State) : Out := s.run (·.hostWrite pgLookout Reg.loClr value)

/-- LO_PIN_REL (14_lookout_faults.md R395). -/
def execLoPinRel (s : State) : Out := s.run (·.hostWrite pgLookout Reg.loPinRel 1)

/-- HINT (15_firebreak_power.md R420): FB_HINT written. -/
def execHint (duration : BitVec 16) (s : State) : Out := s.run (·.hostWrite pgFirebreak Reg.fbHint (duration.setWidth 32))

/-- RST_CHIP (17_reset_retained.md R451). -/
def execRstChip (value : Word) (s : State) : Out := s.run (·.hostWrite pgReset Reg.rstChip value)

/-- RST_HALF (R451, R456). -/
def execRstHalf (value : Word) (s : State) : Out := s.run (·.hostWrite pgReset Reg.rstHalf value)

/-- RST_SLICE (R451, R457). -/
def execRstSlice (value : Word) (s : State) : Out := s.run (·.hostWrite pgReset Reg.rstSlice value)

end Sys2Proof.Machine
end

