-- ==== Sys2Proof/Machine/Dispatch.lean ====
section
/-! DEFINITION. The dispatch of a command to its meaning, one arm per row of spec/opcode_table.json. -/

namespace Sys2Proof.Machine

/-- The effect of a command on everything but the queue of commands that wait. -/
def exec (i : Instr) (s : State) : Host.Outcome State Fault Refusal :=
  match i with
  | .registerWrite a => Sys2Proof.Machine.execRegisterWrite a s
  | .counterLowRead a => Sys2Proof.Machine.execCounterLowRead a s
  | .counterHighWrite req page off value => Sys2Proof.Machine.execCounterHighWrite req page off value s
  | .counterLowWrite req page off value => Sys2Proof.Machine.execCounterLowWrite req page off value s
  | .pgEvtClear req page value => Sys2Proof.Machine.execPgEvtClear req page value s
  | .pgLock req page => Sys2Proof.Machine.execPgLock req page s
  | .blkRst page => Sys2Proof.Machine.execBlkRst page s
  | .blockResetDone page => Sys2Proof.Machine.execBlockResetDone page s
  | .postedWritePerformed page => Sys2Proof.Machine.execPostedWritePerformed page s
  | .winRead req page nwords => Sys2Proof.Machine.execWinRead req page nwords s
  | .winWrite req page nwords => Sys2Proof.Machine.execWinWrite req page nwords s
  | .winBadOp req page hi nwords => Sys2Proof.Machine.execWinBadOp req page hi nwords s
  | .winCmdDone page eccBad => Sys2Proof.Machine.execWinCmdDone page eccBad s
  | .fence req => Sys2Proof.Machine.execFence req s
  | .fenceDone req => Sys2Proof.Machine.execFenceDone req s
  | .pllRateApply m pll => Sys2Proof.Machine.execPllRateApply m pll s
  | .pllLock m pll => Sys2Proof.Machine.execPllLock m pll s
  | .pllUnlock m pll => Sys2Proof.Machine.execPllUnlock m pll s
  | .portEnable p => Sys2Proof.Machine.execPortEnable p s
  | .portDisable p => Sys2Proof.Machine.execPortDisable p s
  | .pwrActive p => Sys2Proof.Machine.execPwrActive p s
  | .pwrStandby p => Sys2Proof.Machine.execPwrStandby p s
  | .pwrDormant p => Sys2Proof.Machine.execPwrDormant p s
  | .signalAndCdrLock l => Sys2Proof.Machine.execSignalAndCdrLock l s
  | .lossOfSignal l => Sys2Proof.Machine.execLossOfSignal l s
  | .cdrUnlock l => Sys2Proof.Machine.execCdrUnlock l s
  | .adaptConverged l meas => Sys2Proof.Machine.execAdaptConverged l meas s
  | .linkUp p => Sys2Proof.Machine.execLinkUp p s
  | .remoteFault p => Sys2Proof.Machine.execRemoteFault p s
  | .fecDegrWindow p w => Sys2Proof.Machine.execFecDegrWindow p w s
  | .recalLive p => Sys2Proof.Machine.execRecalLive p s
  | .recalLiveDone p => Sys2Proof.Machine.execRecalLiveDone p s
  | .recalFull p => Sys2Proof.Machine.execRecalFull p s
  | .portReset p => Sys2Proof.Machine.execPortReset p s
  | .rxFrame p f => Sys2Proof.Machine.execRxFrame p f s
  | .tailArrival p f => Sys2Proof.Machine.execTailArrival p f s
  | .spanFrameRx q bytes => Sys2Proof.Machine.execSpanFrameRx q bytes s
  | .spanFrameTx q => Sys2Proof.Machine.execSpanFrameTx q s
  | .spanPacketRx q => Sys2Proof.Machine.execSpanPacketRx q s
  | .defectTimer q d => Sys2Proof.Machine.execDefectTimer q d s
  | .injBip q => Sys2Proof.Machine.execInjBip q s
  | .pmSecond => Sys2Proof.Machine.execPmSecond s
  | .bin15 => Sys2Proof.Machine.execBin15 s
  | .day sl => Sys2Proof.Machine.execDay sl s
  | .pmHistoryCopy day => Sys2Proof.Machine.execPmHistoryCopy day s
  | .ohspFrame n din => Sys2Proof.Machine.execOhspFrame n din s
  | .parse sl => Sys2Proof.Machine.execParse sl s
  | .swap sl => Sys2Proof.Machine.execSwap sl s
  | .swapped sl => Sys2Proof.Machine.execSwapped sl s
  | .microwordExec sl dir stage => Sys2Proof.Machine.execMicrowordExec sl dir stage s
  | .deparse sl => Sys2Proof.Machine.execDeparse sl s
  | .boostOn h backlog => Sys2Proof.Machine.execBoostOn h backlog s
  | .boostOff h backlog => Sys2Proof.Machine.execBoostOff h backlog s
  | .learnRequest h => Sys2Proof.Machine.execLearnRequest h s
  | .eastCopyApply => Sys2Proof.Machine.execEastCopyApply s
  | .agingVisit loc => Sys2Proof.Machine.execAgingVisit loc s
  | .hitNotice => Sys2Proof.Machine.execHitNotice s
  | .emInsert q blk => Sys2Proof.Machine.execEmInsert q blk s
  | .emUpdate q blk => Sys2Proof.Machine.execEmUpdate q blk s
  | .emUpsert q blk => Sys2Proof.Machine.execEmUpsert q blk s
  | .emDelete q blk => Sys2Proof.Machine.execEmDelete q blk s
  | .emRead q blk => Sys2Proof.Machine.execEmRead q blk s
  | .lpmInsert q blk => Sys2Proof.Machine.execLpmInsert q blk s
  | .lpmDelete q blk => Sys2Proof.Machine.execLpmDelete q blk s
  | .lpmRead q blk => Sys2Proof.Machine.execLpmRead q blk s
  | .tcamWrite q blk => Sys2Proof.Machine.execTcamWrite q blk s
  | .tcamDelete q blk => Sys2Proof.Machine.execTcamDelete q blk s
  | .bulkMove q blk => Sys2Proof.Machine.execBulkMove q blk s
  | .bulkFlush q blk => Sys2Proof.Machine.execBulkFlush q blk s
  | .tableNop q => Sys2Proof.Machine.execTableNop q s
  | .stashDrain h slot => Sys2Proof.Machine.execStashDrain h slot s
  | .reclaim h => Sys2Proof.Machine.execReclaim h s
  | .lpmCompaction h => Sys2Proof.Machine.execLpmCompaction h s
  | .wlMigrate h bank => Sys2Proof.Machine.execWlMigrate h bank s
  | .bankMigration h => Sys2Proof.Machine.execBankMigration h s
  | .resume h => Sys2Proof.Machine.execResume h s
  | .abandon h => Sys2Proof.Machine.execAbandon h s
  | .woodlotEccError h loc uncorr => Sys2Proof.Machine.execWoodlotEccError h loc uncorr s
  | .tcamParityScan sl idx => Sys2Proof.Machine.execTcamParityScan sl idx s
  | .commit req atTime => Sys2Proof.Machine.execCommit req atTime s
  | .cancel req => Sys2Proof.Machine.execCancel req s
  | .commitReady => Sys2Proof.Machine.execCommitReady s
  | .commitTakeEffect => Sys2Proof.Machine.execCommitTakeEffect s
  | .inflightSample => Sys2Proof.Machine.execInflightSample s
  | .ringExpire r => Sys2Proof.Machine.execRingExpire r s
  | .expiryScan h => Sys2Proof.Machine.execExpiryScan h s
  | .ringMaxage req value => Sys2Proof.Machine.execRingMaxage req value s
  | .admission h => Sys2Proof.Machine.execAdmission h s
  | .cellAlloc h rq => Sys2Proof.Machine.execCellAlloc h rq s
  | .cellFree h rq cell tag => Sys2Proof.Machine.execCellFree h rq cell tag s
  | .refill h lst => Sys2Proof.Machine.execRefill h lst s
  | .bufferStall h rq => Sys2Proof.Machine.execBufferStall h rq s
  | .poolAlloc req h n => Sys2Proof.Machine.execPoolAlloc req h n s
  | .poolFree req h n cell => Sys2Proof.Machine.execPoolFree req h n cell s
  | .deckEccError h e => Sys2Proof.Machine.execDeckEccError h e s
  | .listRebuild h lst => Sys2Proof.Machine.execListRebuild h lst s
  | .deckInitDone h => Sys2Proof.Machine.execDeckInitDone h s
  | .pfcFrameTx p => Sys2Proof.Machine.execPfcFrameTx p s
  | .pfcRefresh p => Sys2Proof.Machine.execPfcRefresh p s
  | .pauseExpire p r => Sys2Proof.Machine.execPauseExpire p r s
  | .flumeReceive h x => Sys2Proof.Machine.execFlumeReceive h x s
  | .replicate h => Sys2Proof.Machine.execReplicate h s
  | .drain h => Sys2Proof.Machine.execDrain h s
  | .schedule p => Sys2Proof.Machine.execSchedule p s
  | .macStart p late => Sys2Proof.Machine.execMacStart p late s
  | .txLastByte p => Sys2Proof.Machine.execTxLastByte p s
  | .linkHoldExpire p => Sys2Proof.Machine.execLinkHoldExpire p s
  | .linkFlushDone p => Sys2Proof.Machine.execLinkFlushDone p s
  | .set => Sys2Proof.Machine.execSet s
  | .step => Sys2Proof.Machine.execStep s
  | .ppsOut level => Sys2Proof.Machine.execPpsOut level s
  | .ppsIn rising => Sys2Proof.Machine.execPpsIn rising s
  | .refLoss => Sys2Proof.Machine.execRefLoss s
  | .clrMx h => Sys2Proof.Machine.execClrMx h s
  | .clrHist h => Sys2Proof.Machine.execClrHist h s
  | .clrDrop h => Sys2Proof.Machine.execClrDrop h s
  | .clrDone h => Sys2Proof.Machine.execClrDone h s
  | .tallyEviction h => Sys2Proof.Machine.execTallyEviction h s
  | .cacheWriteback sl line => Sys2Proof.Machine.execCacheWriteback sl line s
  | .scanVisit h => Sys2Proof.Machine.execScanVisit h s
  | .overflowExport h => Sys2Proof.Machine.execOverflowExport h s
  | .flush h => Sys2Proof.Machine.execFlush h s
  | .exportAll h => Sys2Proof.Machine.execExportAll h s
  | .clear h => Sys2Proof.Machine.execClear h s
  | .clearDone h => Sys2Proof.Machine.execClearDone h s
  | .ipfixMessage h => Sys2Proof.Machine.execIpfixMessage h s
  | .retrain h => Sys2Proof.Machine.execRetrain h s
  | .retrainDone h failed => Sys2Proof.Machine.execRetrainDone h failed s
  | .hbmLost h bucket countsOk => Sys2Proof.Machine.execHbmLost h bucket countsOk s
  | .raftEnable req value => Sys2Proof.Machine.execRaftEnable req value s
  | .raftCfgSync => Sys2Proof.Machine.execRaftCfgSync s
  | .helloTx p => Sys2Proof.Machine.execHelloTx p s
  | .extraHello p => Sys2Proof.Machine.execExtraHello p s
  | .helloRx p bytes => Sys2Proof.Machine.execHelloRx p bytes s
  | .neighbourDead p => Sys2Proof.Machine.execNeighbourDead p s
  | .ewRecompute h => Sys2Proof.Machine.execEwRecompute h s
  | .peerHoldLapse r => Sys2Proof.Machine.execPeerHoldLapse r s
  | .doorbell q value => Sys2Proof.Machine.execDoorbell q value s
  | .queueEnable q => Sys2Proof.Machine.execQueueEnable q s
  | .queueDisable q => Sys2Proof.Machine.execQueueDisable q s
  | .queueDrained q => Sys2Proof.Machine.execQueueDrained q s
  | .descriptorFetch q words => Sys2Proof.Machine.execDescriptorFetch q words s
  | .descriptorComplete q => Sys2Proof.Machine.execDescriptorComplete q s
  | .dmaReadError q => Sys2Proof.Machine.execDmaReadError q s
  | .puntDeliver q => Sys2Proof.Machine.execPuntDeliver q s
  | .pipe q data => Sys2Proof.Machine.execPipe q data s
  | .direct q data => Sys2Proof.Machine.execDirect q data s
  | .poolWrite q data => Sys2Proof.Machine.execPoolWrite q data s
  | .exportBufferTimeout n => Sys2Proof.Machine.execExportBufferTimeout n s
  | .irqHoldoff q => Sys2Proof.Machine.execIrqHoldoff q s
  | .flr => Sys2Proof.Machine.execFlr s
  | .hotReset => Sys2Proof.Machine.execHotReset s
  | .pcieLinkDown => Sys2Proof.Machine.execPcieLinkDown s
  | .perstN level => Sys2Proof.Machine.execPerstN level s
  | .busMasterEnable bme d3hot => Sys2Proof.Machine.execBusMasterEnable bme d3hot s
  | .poisonedWrite => Sys2Proof.Machine.execPoisonedWrite s
  | .snap req => Sys2Proof.Machine.execSnap req s
  | .stop req => Sys2Proof.Machine.execStop req s
  | .snapshotCapture => Sys2Proof.Machine.execSnapshotCapture s
  | .snapshotPartDone h => Sys2Proof.Machine.execSnapshotPartDone h s
  | .snapshotTransferDone => Sys2Proof.Machine.execSnapshotTransferDone s
  | .bwWindowEnd => Sys2Proof.Machine.execBwWindowEnd s
  | .pkClr req => Sys2Proof.Machine.execPkClr req s
  | .winLengthWrite req k => Sys2Proof.Machine.execWinLengthWrite req k s
  | .lookoutMessage fab report => Sys2Proof.Machine.execLookoutMessage fab report s
  | .levelRiseWithoutMessage n => Sys2Proof.Machine.execLevelRiseWithoutMessage n s
  | .loClr value => Sys2Proof.Machine.execLoClr value s
  | .loPinRel => Sys2Proof.Machine.execLoPinRel s
  | .faultPulseEnd => Sys2Proof.Machine.execFaultPulseEnd s
  | .trapDeliver => Sys2Proof.Machine.execTrapDeliver s
  | .fatalWr ok => Sys2Proof.Machine.execFatalWr ok s
  | .powerSample => Sys2Proof.Machine.execPowerSample s
  | .capEvaluate c => Sys2Proof.Machine.execCapEvaluate c s
  | .fbCalUpdate cl epoch value => Sys2Proof.Machine.execFbCalUpdate cl epoch value s
  | .calStale => Sys2Proof.Machine.execCalStale s
  | .deferralLimit => Sys2Proof.Machine.execDeferralLimit s
  | .fixed req on => Sys2Proof.Machine.execFixed req on s
  | .droopOnset h ns => Sys2Proof.Machine.execDroopOnset h ns s
  | .tempSample t => Sys2Proof.Machine.execTempSample t s
  | .thermalStep => Sys2Proof.Machine.execThermalStep s
  | .thermalTrip h => Sys2Proof.Machine.execThermalTrip h s
  | .supplyWarning rail high => Sys2Proof.Machine.execSupplyWarning rail high s
  | .supplyRecovery rail => Sys2Proof.Machine.execSupplyRecovery rail s
  | .uvRelease => Sys2Proof.Machine.execUvRelease s
  | .resetDip sram => Sys2Proof.Machine.execResetDip sram s
  | .hint duration => Sys2Proof.Machine.execHint duration s
  | .hintAck => Sys2Proof.Machine.execHintAck s
  | .hintWindowEnd => Sys2Proof.Machine.execHintWindowEnd s
  | .pmbusErr => Sys2Proof.Machine.execPmbusErr s
  | .alertN level => Sys2Proof.Machine.execAlertN level s
  | .headClaim cl expected => Sys2Proof.Machine.execHeadClaim cl expected s
  | .leaseRenew cl => Sys2Proof.Machine.execLeaseRenew cl s
  | .leaseExpire => Sys2Proof.Machine.execLeaseExpire s
  | .lockstepMismatch cl => Sys2Proof.Machine.execLockstepMismatch cl s
  | .clusterBootDone cl flash => Sys2Proof.Machine.execClusterBootDone cl flash s
  | .info => Sys2Proof.Machine.execInfo s
  | .sensors rails => Sys2Proof.Machine.execSensors rails s
  | .logRead => Sys2Proof.Machine.execLogRead s
  | .fatalRead => Sys2Proof.Machine.execFatalRead s
  | .trapRead => Sys2Proof.Machine.execTrapRead s
  | .pmRead => Sys2Proof.Machine.execPmRead s
  | .chRead => Sys2Proof.Machine.execChRead s
  | .chWrite => Sys2Proof.Machine.execChWrite s
  | .imgStage img => Sys2Proof.Machine.execImgStage img s
  | .imgApply => Sys2Proof.Machine.execImgApply s
  | .restart => Sys2Proof.Machine.execRestart s
  | .handover => Sys2Proof.Machine.execHandover s
  | .cfgSave => Sys2Proof.Machine.execCfgSave s
  | .attest => Sys2Proof.Machine.execAttest s
  | .ident => Sys2Proof.Machine.execIdent s
  | .measExtend => Sys2Proof.Machine.execMeasExtend s
  | .lcAdvance img => Sys2Proof.Machine.execLcAdvance img s
  | .svnAdvance => Sys2Proof.Machine.execSvnAdvance s
  | .keyProgram => Sys2Proof.Machine.execKeyProgram s
  | .mailboxComplete => Sys2Proof.Machine.execMailboxComplete s
  | .noHead => Sys2Proof.Machine.execNoHead s
  | .mcClearLock req => Sys2Proof.Machine.execMcClearLock req s
  | .debugLock req => Sys2Proof.Machine.execDebugLock req s
  | .lcFuseWrite => Sys2Proof.Machine.execLcFuseWrite s
  | .wipeDone => Sys2Proof.Machine.execWipeDone s
  | .porstN level pins => Sys2Proof.Machine.execPorstN level pins s
  | .chiprstN level pins => Sys2Proof.Machine.execChiprstN level pins s
  | .rstChip value => Sys2Proof.Machine.execRstChip value s
  | .rstHalf value => Sys2Proof.Machine.execRstHalf value s
  | .halfDone h => Sys2Proof.Machine.execHalfDone h s
  | .rstSlice value => Sys2Proof.Machine.execRstSlice value s
  | .sliceDone sl => Sys2Proof.Machine.execSliceDone sl s
  | .startUpWipeDone => Sys2Proof.Machine.execStartUpWipeDone s
  | .restore lane => Sys2Proof.Machine.execRestore lane s
  | .restored => Sys2Proof.Machine.execRestored s
  | .recoveryImage cl img => Sys2Proof.Machine.execRecoveryImage cl img s
  | .flumeChannelDown => Sys2Proof.Machine.execFlumeChannelDown s
  | .flumeChannelUp => Sys2Proof.Machine.execFlumeChannelUp s
  | .localFault p => Sys2Proof.Machine.execLocalFault p s
  | .pcieLinkUp width speed => Sys2Proof.Machine.execPcieLinkUp width speed s
  | .vddAonReset pins => Sys2Proof.Machine.execVddAonReset pins s

end Sys2Proof.Machine
end

