-- ==== Sys2Proof/Machine/Tick.lean ====
section
/-! DEFINITION. What one nanosecond of time does when no command waits (DESIGN CHOICE, log entry 3): time itself (10_telemetry.md R287 to R289),
counters of cycles and microseconds (08_deck_admission.md R245, R246; 13_cruiser_counters.md R383; 15_firebreak_power.md R409,
R410), and the end of the FUSES phase (17_reset_retained.md Table 173). -/

namespace Sys2Proof.Machine

/-- The frequency offset in use, in units of 2^-32 (R289, Table 105): TM_ADJ clamped to plus and minus 4,294,967. -/
def State.adjust (s : State) : Int :=
  let a := signed 32 (s.reg pgTime Reg.tmAdj).toNat
  max (-4294967) (min 4294967 a)

/-- Time advances by one nanosecond on the always-on clock; PTP time advances with the frequency offset (R288, R289). -/
def Clock.tick (c : Clock) (adj : Int) : Clock :=
  let x : Int := (c.frac : Int) + 2 ^ 32 + adj
  { up := c.up + 1, ptp := c.ptp + (x / 2 ^ 32).toNat, frac := (x % 2 ^ 32).toNat }

/-- Deck cycles, at 1.6 GHz, on which a requester of a half holds EMPTY, and of those the ones with free cells (R245, R246). -/
def State.deckCycles (s : State) (h : Nat) : State :=
  let d := s.deckOf h
  if d.hold.any (fun e => e.2.isSome) then
    let n := (d.frac + 16) / 10
    let s := (s.setDeck h { d with frac := (d.frac + 16) % 10 }).count64 (pgDeck h) Reg.dkStalls n
    if 0 < d.free then
      s.count64 (pgDeck h) Reg.dkCacheStalls n
    else s
  else s

/-- Microseconds of deferral and, in both halves, of pacing (R409, R410). -/
def State.fireMicros (s : State) : State :=
  let d := s.fire.deferNs + b2n s.deferred
  let p := s.fire.paceNs + b2n (s.paced 0) + b2n (s.paced 1)
  let s : State := { s with fire := { s.fire with deferNs := d % 1000, paceNs := p % 1000 } }
  let s := if d < 1000 then s else s.count64 pgFirebreak Reg.fbDeferUs 1
  if p < 1000 then s else s.count64 pgFirebreak Reg.fbPaceUs 1

/-- Vectors are in the stages of a pipe, or of an egress pipe in front of its deparser. -/
def SliceS.busy (x : SliceS) (egress : Bool) : Bool :=
  x.stages.any (fun e => decide (e.1 < 8 ↔ egress = false) && !e.2.isEmpty) || (egress && !x.depq.isEmpty)

/-- One nanosecond of the pipes of a slice, n twentieths of a Kerf cycle (13_cruiser_counters.md R383): wl says that a Woodlot backlog
stalls the ingress pipe, which comes before a stall by admission; dn that the egress pipe is stalled. -/
def CruiserS.pass (c : CruiserS) (sl n : Nat) (wl held dn : Bool) : CruiserS :=
  let c := if wl then { c with wl := AMap.set 0 c.wl sl (AMap.get 0 c.wl sl + n) }
    else if held then { c with stalled := AMap.set 0 c.stalled sl (AMap.get 0 c.stalled sl + n) }
    else { c with idle := AMap.set 0 c.idle sl (AMap.get 0 c.idle sl + n) }
  if dn then { c with egStalled := AMap.set 0 c.egStalled sl (AMap.get 0 c.egStalled sl + n) }
  else { c with egIdle := AMap.set 0 c.egIdle sl (AMap.get 0 c.egIdle sl + n) }

/-- Twentieths of a Kerf cycle that pass in a slice in one nanosecond, at 0.15 GHz per step (01_architecture.md R29). Which pipes with
vectors in them are stalled by a Woodlot backlog or from downstream of the egress stages is a free value (DESIGN CHOICE, log entry
70). -/
def State.kerfCycles (s : State) (backlog : Nat) : List Nat → State
  | [] => s
  | sl :: sls =>
    let n := 3 * s.kerfStep sl
    let x := s.slice sl
    let dn := x.busy true && Config.egressStall s.freeCtr
    let s : State := if s.sliceUp sl = false then s
      else
        let s := if x.busy true then s.drawn else s
        { s with cruiser := s.cruiser.pass sl n (x.busy false && decide (backlog / 2 ^ (sl % 16) % 2 = 1)) (s.pipeHeld sl) dn }
    s.kerfCycles backlog sls

/-- The slices of a half with vectors in their ingress stages. -/
def State.busyPipes (s : State) (h : Nat) : List Nat :=
  ((List.range 16).map (16 * h + ·)).filter (fun sl => s.sliceUp sl && (s.slice sl).busy false)

/-- One nanosecond of the pipes of a half: WL_CONFLICT counts the Woodlot cycles that its ingress pipes are stalled, at 1.6 GHz, or 1.7 under
boost (06_tables.md R171, R172). -/
def State.pipeCycles (s : State) (h : Nat) : State :=
  let busy := s.busyPipes h
  if busy.isEmpty then s.kerfCycles 0 ((List.range 16).map (16 * h + ·))
  else
    let backlog := Config.woodBacklog s.freeCtr
    let w := s.woodOf h
    let k := w.cfrac + (busy.filter (fun sl => decide (backlog / 2 ^ (sl % 16) % 2 = 1))).length * (if w.boost then 17 else 16)
    let s := (s.setWood h { w with cfrac := k % 10 }).drawn
    (s.count64 (pgWlem h) Reg.wlConflict (k / 10)).kerfCycles backlog ((List.range 16).map (16 * h + ·))

/-- The updates that Tally pacing lets pass in one nanosecond in a half: FB_PACE.RATE sixteenths of nine, 0 as 1
(15_firebreak_power.md R410; DESIGN CHOICE, log entry 96). -/
def State.paceTick (s : State) (h : Nat) : State :=
  if s.paced h then
    let t := s.tallyOf h
    s.setTally h { t with paceTok := min 144 (t.paceTok + 9 * orElse0 (s.rf pgFirebreak Reg.fbPace 0 4) 1) }
  else s

/-- The bits that a lane receives in one nanosecond at a RATE, in 1/32 (03_lanes_ports.md Table 22). -/
def rateBits : Nat → Nat
  | 1 => 330 | 2 => 825 | 3 => 1700 | 4 => 3400 | 5 => 6800
  | _ => 0

/-- LN_PRBS.RX selects a pattern; 11 to 15 are treated as 0 (03_lanes_ports.md Table 29). -/
def checkerOn (w : Word) : Bool := decide (fld w 4 4 ≠ 0 ∧ fld w 4 4 ≤ 10)

/-- The pattern checkers of lanes with CDR lock compare the bits of one nanosecond (R89); how many are in error is a free value. -/
def State.prbsChecks (s : State) : List Nat → State
  | [] => s
  | l :: ls =>
    let x := s.lane l
    let s := match s.laneOwner l with
      | some p =>
        if x.cdr ∧ x.st ≠ LaneSt.standby ∧ checkerOn (s.reg (pgLane l) (Reg.lnPrbs (l % 32))) then
          let k := x.frac + rateBits (modeRate (cfgMode (s.port p).cfg) (cfgWidth (s.port p).cfg))
          let s := s.setLane l { x with frac := k % 32 }
          let s := s.count64 (pgLane l) (Reg.lnPrbsBits (l % 32)) (k / 32)
          (s.count64 (pgLane l) (Reg.lnPrbsErr (l % 32)) (Config.prbsErrors s.freeCtr % (k / 32 + 1))).drawn
        else s
      | none => s
    s.prbsChecks ls

/-- Links of ports whose lanes are all ACTIVE (03_lanes_ports.md R77, R78): whether in this nanosecond the PCS of a port aligns again,
and whether the remote fault that an Ethernet port receives ends, are free values (DESIGN CHOICE, log entry 75). -/
def State.linkEnds (s : State) : List Nat → State
  | [] => s
  | p :: ps =>
    let s := if s.portReady p && s.portAct p && s.lanesActive p then
        let s := if (s.port p).aligned then s
          else (if Config.faultEnds s.freeCtr then s.realign p else s).drawn
        if (s.port p).remote && !s.isSpan p then
          (if Config.faultEnds s.freeCtr then s.setPort p { s.port p with remote := false, condAt := s.clk.up } else s).drawn
        else s
      else s
    s.linkEnds ps

/-- One nanosecond of the core islands, which are clocked from the WIPE phase on. -/
def State.tickCore (s : State) : State :=
  if s.rst.phase = .fuses then s
  else
    let s := (((s.deckCycles 0).deckCycles 1).fireMicros.paceTick 0).paceTick 1
    let s := (((s.pipeCycles 0).pipeCycles 1).hbmErrs 0).hbmErrs 1
    ((s.prbsChecks (s.lanes.map (·.1))).linkEnds (s.ports.map (·.1))).saveGoes

/-- One nanosecond passes. -/
def State.tick (s : State) : State :=
  let s : State := { s with clk := s.clk.tick s.adjust }
  if s.live then
    let s := s.tickCore
    if s.rst.phase = .fuses ∧ s.rst.t0 + 1000000 ≤ s.clk.up then s.enterWipe else s
  else s

end Sys2Proof.Machine
end

