-- ==== Sys2Proof/Safety.lean ====
section
/-! DEFINITION. What counts as a safe state: the canonical form of the sparse maps, exactly one CURRENT ring
(07_rings.md R214), fuses that only move forward (16_forester_security.md R433, R444, R445), time that does not go back
and outputs that stay sent. -/

namespace Sys2Proof.Machine

/-- The register file and the window memories are in canonical form: keys strictly rising, no entry equal to what an
unlisted key reads as, so that equal contents are equal data. -/
def State.canonical (s : State) : Prop :=
  AMap.wf regDefault s.regs = true ∧ AMap.wf (fun _ => (0 : Word)) s.mem = true

/-- Exactly one ring is CURRENT, and it is the one the ring system names (R214). -/
def RingSys.oneCurrent (x : RingSys) : Prop :=
  ∀ r : Ring, (AMap.get ({} : RingS) x.recs r.val).st = RingSt.current ↔ r = x.cur

/-- Fuses b can have become of fuses a: the life cycle has not gone back (R444), no SVN floor has sunk (R433), and a key
digest once programmed is the same. -/
def FuseS.le (a b : FuseS) : Prop :=
  a.life ≤ b.life ∧ (∀ t, AMap.get 0 a.svn t ≤ AMap.get 0 b.svn t)
  ∧ (∀ n, AMap.get [] a.keys n ≠ [] → AMap.get [] b.keys n = AMap.get [] a.keys n)

/-- A life-cycle change that waits leads to a later state of Table 167 (R445). -/
def State.advanceOk (s : State) : Prop :=
  ∀ x, s.forester.lcNext = some x → s.fuses.life < x.1 ∧ x.1 ≤ 3

/-- The invariant that every step keeps. -/
structure State.Inv (s : State) : Prop where
  maps : s.canonical
  ring : s.rings.oneCurrent
  next : s.advanceOk

/-- The state s can come after the state a: the fuses have only moved forward, time has not gone back, and what was sent
stays sent. -/
structure State.After (a s : State) : Prop where
  fuse : a.fuses.le s.fuses
  time : a.clk.up ≤ s.clk.up
  sent : ∃ l, s.out = a.out ++ l

/-! ### When a command runs: hypotheses that statements share -/

/-- The next table command of queue q is one without fault, for the one half h that it names, whose sequencer runs and whose
pages are enabled and whose foreground context is free (06_tables.md R200, R206, R207). -/
structure State.TableReady (s : State) (q h idx : Nat) (ws : List Word) (blk : List Byte) : Prop where
  next    : s.nextCmd q = some (idx, ws)
  light   : dHeavy ws = false
  early   : s.earlyFault ws = none
  block   : s.blockFault ws blk = none
  half    : dHalves ws = [h]
  reached : s.unreachable h = false
  up      : s.seqUp h = true
  free    : (s.woodOf h).fg = none
  open_   : s.opEnabled h (dOp ws) = true

/-- What the routine of a table command leaves and answers in a half (R198, R206). -/
def State.ranTable (s : State) (q h idx : Nat) (ws : List Word) (blk : List Byte) : State × Answer :=
  s.fgRun h (s.fgPlan h { q := q, idx := idx, words := ws, blk := blk.take (dLen ws) })

/-- The learning master takes the request x from the FIFO of half h, which then holds xs: the half works and reaches the master, the
West foreground context is free, WOODLOT-EM is enabled, and it is learning's turn (06_tables.md R192, R193, R200, R209). -/
structure State.MasterTakes (s : State) (h : Nat) (x : LearnReq) (xs : List LearnReq) : Prop where
  half  : s.halfUp h = true
  head  : (s.woodOf h).fifo = x :: xs
  reach : s.eastLost h = false
  free  : s.fgFree 0 = true
  open_ : s.rbit (pgWlem 0) 0x08 1 = true
  turn  : (s.woodOf 0).burst < s.learnBurst ∨ s.cmdWaits 0 = false

/-- The state in which the master processes the request that the FIFO of half h has given up (R193, R198). -/
def State.atMaster (s : State) (h : Nat) (xs : List LearnReq) : State :=
  let u := ((s.setWood 0 { s.woodOf 0 with burst := (s.woodOf 0).burst + 1 }).bgYield 0).learnJournal 0
  u.setWood h { u.woodOf h with fifo := xs }

/-- The East copy takes the change c, after which cs wait: the half works, the management channel is up, the East foreground
context is free and WOODLOT-EM is enabled (06_tables.md R192, R200, R209). -/
structure State.EastTakes (s : State) (c : EastChange) (cs : List EastChange) : Prop where
  head  : s.eastq = c :: cs
  half  : s.halfUp 1 = true
  chan  : s.flumeUp = true
  free  : s.fgFree 1 = true
  open_ : s.rbit (pgWlem 1) 0x08 1 = true

/-- The background context of half h takes a step of the routine with a code: BG_EN lets it and nothing of it is stopped or held, and
no foreground work waits (06_tables.md R198, R200, R212). -/
structure State.BgSteps (s : State) (h code : Nat) : Prop where
  free  : s.bgFree h code = true
  alone : s.fgWaits h = false

/-- The state in which half h runs a routine that RESUME lets go on: MT_CTRL is written, and no background routine is held any more
(06_tables.md R200, Table 82). -/
def State.resuming (s : State) (h : Nat) : State :=
  let u := s.setReg (pgMaint h) Reg.mtCtrl (s.reg (pgMaint h) Reg.mtCtrl &&& 9)
  u.setWood h { u.woodOf h with bgHeld := false }

/-- The mailbox command with operation op runs, unanswered, and a cluster that reaches the common blocks holds headship
(01_architecture.md R20, 16_forester_security.md R431). -/
structure State.MailboxRuns (s : State) (op : Nat) : Prop where
  busy  : s.forester.mb.busy = true
  op    : s.forester.mb.op = op
  fresh : s.forester.mb.result = none
  head  : s.headReaches = true

/-- An access to BAR0 reaches its page and is performed or posted there: its requester runs, no fence of it holds the access, none of the
causes of Table 16 applies before the page, the page is ready, and a write of a cluster may change it (02_registers.md R37, R58, R491,
16_forester_security.md R424, R428). -/
structure State.Reaches (s : State) (write : Bool) (a : Access) : Prop where
  bar0  : a.bar2 = false
  runs  : s.runsOn a.req = true
  free  : s.fenceRuns a.req = false
  front : s.frontCause write a = none
  mine  : write = true → s.writeFenced a.req (accPage a) (s.carried a.req) = false
  ready : 0x40 ≤ accOff a → s.pageReady a.req (accPage a) = true

/-- A write of a requester to a register reaches its page and takes effect there at once: it needs no posting buffer, and no
rule of its page drops it (02_registers.md R38, R40, R50). -/
structure State.WritesNow (s : State) (r : Requester) (p o : Nat) : Prop where
  reach : s.Reaches true (accessTo r p o 0)
  fast  : postsWrite p o = false
  write : readOnly p o = false
  open_ : s.lockHits p o = false

/-- A write of a requester to a register reaches its page and enters its posting buffer, which is free; no rule of the page drops it, and
no other read waits for the buffer (02_registers.md R38, R40, R50 to R53). -/
structure State.Posts (s : State) (r : Requester) (p o : Nat) : Prop where
  reach : s.Reaches true (accessTo r p o 0)
  slow  : postsWrite p o = true
  free  : s.wbusy p = false
  write : readOnly p o = false
  open_ : s.lockHits p o = false
  alone : ∀ x ∈ s.bus.held, x.fenced = true ∨ accPage x.acc ≠ p

/-- A register that a write loads and that does nothing else when it is written: neither half of a 64-bit register, some field
of it writable, no field of it locked, and of a block whose registers have no command among them, a shaper's RATE and BURST
apart (02_registers.md R38, R40; 09_queues_forwarding.md R274). -/
structure State.PlainReg (s : State) (p o : Nat) (r : RegSpec) : Prop where
  spec   : regSpec p o = some r
  block  : pageBlk p ∈ [some .chip, some .ohsp, some .flume, some .learn, some .slice, some .sched, some .tcam,
    some .deparser]
  body   : 0x40 ≤ o
  narrow : r.wide = false
  write  : readOnly p o = false
  open_  : s.lockHits p o = false
  shaper : pageBlk p = some .sched → o < 0x1000 ∨ (o < 0x2000 ∧ o % 0x40 ≠ 4 ∧ o % 0x40 ≠ 8)
    ∨ (0x2000 ≤ o ∧ o % 0x10 ≠ 4 ∧ o % 0x10 ≠ 8)

/-- Registers of the pages of other blocks than bs read in t as in s. -/
def State.OtherRegsKept (s : State) (bs : List Blk) (t : State) : Prop :=
  ∀ p o b, pageBlk p = some b → b ∉ bs → t.reg p o = s.reg p o

end Sys2Proof.Machine
end

