-- ==== Sys2Proof/Certificates/Slice0/Obligations.lean ====
section
/-! DEFINITION. The statements for the provers. Completion statements say where each command has its effect, frames what it
leaves; the statements of chapter 2's rules and of the whole machine stand first. -/

open Sys2Proof
open Sys2Proof.Machine

/-- A step with a command at the front of the queue is that command with the queue's rest waiting: the one way a command
runs. -/
def Obligations.StepRunsFrontCommand : Prop :=
  ∀ (c : Instr) (rest : List Instr) (s : State),
    step { s with pending := c :: rest } = exec c { s with pending := rest }

/-- The model's choice (log entry 3): a step with no command waiting is one nanosecond of time. It sends nothing and touches
no fuse, no history and no summary, no frame and no queue, and no copy of the retained image but the one that a save is
writing. -/
def Obligations.IdleStepIsOneNanosecond : Prop :=
  ∀ s : State, s.pending = [] → ∃ t, step s = .next t ∧ t.pending = [] ∧ t.clk.up = s.clk.up + 1 ∧ t.out = s.out
    ∧ t.fuses = s.fuses ∧ t.mram.hist = s.mram.hist ∧ t.mram.sums = s.mram.sums
    ∧ (s.forester.saving = none → t.mram = s.mram) ∧ t.frames = s.frames ∧ t.queues = s.queues

/-- Every command answers a next state in every state, and leaves the commands that wait. -/
def Obligations.EveryCommandIsAnswered : Prop :=
  ∀ (c : Instr) (s : State), ∃ t, exec c s = .next t ∧ t.pending = s.pending

/-- The machine after power-on meets the invariant that every step keeps. -/
def Obligations.ResetInvariant : Prop := State.reset.Inv

/-- What power-on leaves (R438, R448, R449, R214): phase FUSES, cause power-on, ring 0 CURRENT with generation 0 and the
other rings FREE, no event set and every event enabled on every page, no page locked, no frame and no access under way. -/
def Obligations.ResetState : Prop :=
  State.reset.pending = [] ∧ State.reset.rst.phase = .fuses ∧ State.reset.rst.cause = causePower
  ∧ State.reset.rings.cur = 0
  ∧ (∀ r : Ring, (State.reset.ringRec r.val).st = (if r = 0 then .current else .free))
  ∧ State.reset.rings.gen = 0 ∧ (∀ i, State.reset.meas i = zeros 64)
  ∧ (∀ p, (pageBlk p).isSome = true → State.reset.evt p = 0 ∧ State.reset.reg p Reg.pgEvtEn = 0xFFFFFF
    ∧ State.reset.locked p = false)
  ∧ State.reset.frames = [] ∧ State.reset.bus.posted = [] ∧ State.reset.bus.held = [] ∧ State.reset.lookout.held = []

/-- Every step keeps the invariant: the maps stay in canonical form, exactly one ring is CURRENT (R214), and a life-cycle
change that waits leads forward (R445). -/
def Obligations.EveryStepKeepsInvariant : Prop :=
  ∀ s t : State, s.Inv → step s = .next t → t.Inv

/-- No step takes back what is final: the life cycle does not go back (R444), no SVN floor sinks (R433), a key digest once
programmed stays, time does not run back, and what was sent stays sent. -/
def Obligations.EveryStepGoesForward : Prop :=
  ∀ s t : State, s.Inv → step s = .next t → s.After t

/-- Fuses change only by the key programming, the floor advance and the life-cycle change of R433, R434 and R445, and by the
end of a life-cycle wipe. -/
def Obligations.FusesChangeOnlyByFourCommands : Prop :=
  ∀ (c : Instr) (s t : State), exec c s = .next t → c ≠ .keyProgram → c ≠ .svnAdvance → c ≠ .wipeDone →
    c ≠ .lcFuseWrite → t.fuses = s.fuses

/-- R444: the life cycle is one of the four states of Table 167, no step takes it back, and LC_STATE shows it. -/
def Obligations.LifeCycleAdvancesInOrder : Prop :=
  (∀ s t : State, s.Inv → s.fuses.life ≤ 3 → step s = .next t → s.fuses.life ≤ t.fuses.life ∧ t.fuses.life ≤ 3)
  ∧ (∀ (s : State) (r : Requester), s.fuses.life ≤ 3 → s.readVal r pgLifecycle Reg.lcState % 4 = s.fuses.life)

/-- Of all commands the copies of the retained image change only by a save, the mailbox completion that ends one, and the
life-cycle wipe; the fatal summaries by FATAL_WR and that wipe; the positions and bins of performance history by the copies
of bins and that wipe (R445, R458, R461). What else changes in the MRAM is when a position of the history was last an
enabled span port (R436). -/
def Obligations.RetainedMemoryChangesOnlyByItsCommands : Prop :=
  ∀ (c : Instr) (s t : State), exec c s = .next t →
    (c ≠ .cfgSave → c ≠ .mailboxComplete → c ≠ .wipeDone → t.mram.copyA = s.mram.copyA ∧ t.mram.copyB = s.mram.copyB)
    ∧ ((∀ b, c ≠ .fatalWr b) → c ≠ .wipeDone → t.mram.sums = s.mram.sums)
    ∧ ((∀ b, c ≠ .pmHistoryCopy b) → c ≠ .wipeDone →
      t.mram.hist.map (fun x => { x with lastOn := 0 }) = s.mram.hist.map (fun x => { x with lastOn := 0 }))

/-- A device that a trip, a held pin or a wipe keeps stopped takes no command but the pins, the always-on supply, the fatal
summary, the end of FAULT_N's pulse and of the wipe, and what the comparators and monitors of the always-on island see: a
thermal trip, a dip of a rail (R395, R416, R419, R445, R450). -/
def Obligations.StoppedDeviceTakesNoCommand : Prop :=
  ∀ (c : Instr) (s : State), s.live = false → (∀ l p, c ≠ .porstN l p) → (∀ l p, c ≠ .chiprstN l p) →
    (∀ p, c ≠ .vddAonReset p) → (∀ b, c ≠ .fatalWr b) → c ≠ .faultPulseEnd → c ≠ .wipeDone →
    (∀ h, c ≠ .thermalTrip h) → (∀ b, c ≠ .resetDip b) → exec c s = .next s

/-- R60: every bus error counts and sets BERR; the first since BERR was last clear fills BERR_ADDR and BERR_INFO, and a
later one leaves them; an access that one of the causes before the page ends does so and changes nothing else. -/
def Obligations.BusErrorLog : Prop :=
  (∀ (s : State) (w : Bool) (a : Access) (k : Nat),
    (s.busError a w k).reg pgChip Reg.berrCnt = s.reg pgChip Reg.berrCnt + 1 ∧ (s.busError a w k).rbit pgChip 0x10 0 = true
    ∧ (s.rbit pgChip 0x10 0 = false →
      (s.busError a w k).reg pgChip Reg.berrAddr = BitVec.ofNat 32 (a.addr % 2 ^ 28)
      ∧ (s.busError a w k).reg pgChip Reg.berrInfo
        = BitVec.ofNat 32 (k + b2n w * 16 + reqIdx a.req * 32 + a.be % 16 * 256))
    ∧ (s.rbit pgChip 0x10 0 = true →
      (s.busError a w k).reg pgChip Reg.berrAddr = s.reg pgChip Reg.berrAddr
      ∧ (s.busError a w k).reg pgChip Reg.berrInfo = s.reg pgChip Reg.berrInfo))
  ∧ ∀ (s : State) (w : Bool) (a : Access) (k : Nat), s.live = true → a.bar2 = false → s.runsOn a.req = true →
    s.fenceRuns a.req = false → s.frontCause w a = some k →
    ∃ t, exec (if w then .registerWrite a else .counterLowRead a) s = .next t
      ∧ t.reg pgChip Reg.berrCnt = s.reg pgChip Reg.berrCnt + 1 ∧ t.rbit pgChip 0x10 0 = true
      ∧ (s.rbit pgChip 0x10 0 = false →
        t.reg pgChip Reg.berrAddr = BitVec.ofNat 32 (a.addr % 2 ^ 28)
        ∧ t.reg pgChip Reg.berrInfo = BitVec.ofNat 32 (k + b2n w * 16 + reqIdx a.req * 32 + a.be % 16 * 256))
      ∧ (s.rbit pgChip 0x10 0 = true →
        t.reg pgChip Reg.berrAddr = s.reg pgChip Reg.berrAddr ∧ t.reg pgChip Reg.berrInfo = s.reg pgChip Reg.berrInfo)
      ∧ (∀ p o, p ≠ pgChip → p ≠ pgLookout → t.reg p o = s.reg p o) ∧ t.mem = s.mem ∧ t.bus.posted = s.bus.posted
      ∧ t.out = s.out ++ (if w then [] else [.readAbort a.req])

/-- R37: a page whose READY is 0 takes accesses of its header alone; its block registers read 0, and a write to one is
dropped and logged NOT_READY. The staging registers of a window belong to the front end, not to the block (R50, R56), so
they are not among its block registers here. -/
def Obligations.BlockNotReady : Prop :=
  ∀ (s : State) (a : Access), s.live = true → a.bar2 = false → s.runsOn a.req = true → s.fenceRuns a.req = false →
    s.pageReady a.req (accPage a) = false →
    (s.frontCause false a = none → 0x40 ≤ accOff a → isStaging (accPage a) (accOff a) = false →
      ∃ t, exec (.counterLowRead a) s = .next t ∧ t = { s with out := s.out ++ [.readData a.req (if a.size = 8 then [0, 0] else [0])] })
    ∧ (s.frontCause true a = none →
      postsWrite (accPage a) (accOff a) = true ∨ s.writeFenced a.req (accPage a) (s.carried a.req) = false → 0x40 ≤ accOff a →
      isStaging (accPage a) (accOff a) = false →
      ∃ t, exec (.registerWrite a) s = .next t
        ∧ t.reg pgChip Reg.berrCnt = s.reg pgChip Reg.berrCnt + 1 ∧ t.rbit pgChip 0x10 0 = true
        ∧ (s.rbit pgChip 0x10 0 = false → fld (t.reg pgChip Reg.berrInfo) 0 4 = beNotReady)
        ∧ (∀ p o, p ≠ pgChip → p ≠ pgLookout → t.reg p o = s.reg p o) ∧ t.mem = s.mem ∧ t.bus.posted = s.bus.posted)
    ∧ (s.frontCause false a = none → accOff a < 0x20 → ∃ t, exec (.counterLowRead a) s = .next t
      ∧ t.out = s.out ++ [.readData a.req [BitVec.ofNat 32 (s.readVal a.req (accPage a) (accOff a))]])
    ∧ (s.frontCause true a = none → s.writeFenced a.req (accPage a) (s.carried a.req) = false → accOff a = Reg.pgEvtEn →
      ∃ t, exec (.registerWrite a) s = .next t
        ∧ t.reg (accPage a) Reg.pgEvtEn = (a.value &&& 0x7FFFFF) ||| 0x800000)

/-- R48: a write of PG_EVT with the current SEQ clears the bits written 1; with another it clears nothing and sets ACK_MISS;
with the current SEQ and no bit it changes nothing. -/
def Obligations.EventClear : Prop :=
  ∀ (s : State) (req : Requester) (p : Nat) (v : Word), s.live = true → s.Reaches true (accessTo req p Reg.pgEvt v) →
    p ≠ pgLookout ∨ s.lookout.qCommon.length < 256 → ∃ t, exec (.pgEvtClear req p v) s = .next t
      ∧ (fld v 24 8 = fld (s.evt p) 24 8 → t.evt p = s.evt p &&& ~~~(v &&& 0xFFFFFF))
      ∧ (fld v 24 8 ≠ fld (s.evt p) 24 8 → t.evt p = evtRise (s.evt p) (2 ^ 22)
        ∧ t.rbit p 0x10 22 = true
        ∧ (s.rbit p 0x10 22 = false → fld (t.evt p) 24 8 = (fld (s.evt p) 24 8 + 1) % 256))
      ∧ (fld v 24 8 = fld (s.evt p) 24 8 → v &&& 0xFFFFFF = 0 → t.evt p = s.evt p)

/-- R40: a write to a register with no writable field is dropped and logged READ_ONLY, when it is posted too; one to a
register with writable fields loads those alone. -/
def Obligations.ReadOnlyRegisters : Prop :=
  ∀ (s : State) (a : Access), s.live = true →
    (s.Reaches true a → readOnly (accPage a) (accOff a) = true → postsWrite (accPage a) (accOff a) = false →
      ∃ t, exec (.registerWrite a) s = .next t
        ∧ t.reg pgChip Reg.berrCnt = s.reg pgChip Reg.berrCnt + 1 ∧ t.rbit pgChip 0x10 0 = true
        ∧ (s.rbit pgChip 0x10 0 = false → fld (t.reg pgChip Reg.berrInfo) 0 4 = beReadOnly)
        ∧ (∀ p o, p ≠ pgChip → p ≠ pgLookout → t.reg p o = s.reg p o) ∧ t.mem = s.mem)
    ∧ (∀ p o v q n e, AMap.get none s.bus.posted p = some ⟨q, .write o v, n, e⟩ → s.writeFenced q p e = false →
      s.pageReady q p = true → (pageBlk p).isSome = true → readOnly p o = true → o < 0x10000 →
      (∀ x ∈ s.bus.held, x.fenced = true ∨ accPage x.acc ≠ p) →
      ∃ t, exec (.postedWritePerformed p) s = .next t ∧ t.wbusy p = false
        ∧ t.reg pgChip Reg.berrCnt = s.reg pgChip Reg.berrCnt + 1 ∧ t.rbit pgChip 0x10 0 = true
        ∧ (s.rbit pgChip 0x10 0 = false → fld (t.reg pgChip Reg.berrInfo) 0 4 = beReadOnly)
        ∧ (∀ p o, p ≠ pgChip → p ≠ pgLookout → t.reg p o = s.reg p o) ∧ t.mem = s.mem)
    ∧ (∀ r, s.Reaches true a → s.PlainReg (accPage a) (accOff a) r → postsWrite (accPage a) (accOff a) = false →
      accPage a ≠ pgChip → ∃ t, exec (.registerWrite a) s = .next t
        ∧ t.regs = (s.setReg (accPage a) (accOff a) ((s.reg (accPage a) (accOff a) &&& ~~~(BitVec.ofNat 32 r.w))
            ||| (a.value &&& (BitVec.ofNat 32 r.w ||| BitVec.ofNat 32 r.w1s)))).regs)

/-- R52: a write that needs a posting buffer in use is discarded, sets WLOST, is logged and goes to Lookout. -/
def Obligations.WriteFindsBufferInUse : Prop :=
  ∀ (s : State) (a : Access), s.live = true → s.Reaches true a → postsWrite (accPage a) (accOff a) = true →
    s.wbusy (accPage a) = true → readOnly (accPage a) (accOff a) = false → s.lockHits (accPage a) (accOff a) = false →
    ∃ t, exec (.registerWrite a) s = .next t ∧ t.bus.posted = s.bus.posted
      ∧ t.rbit (accPage a) 0x10 23 = true
      ∧ t.reg pgChip Reg.berrCnt = s.reg pgChip Reg.berrCnt + 1 ∧ t.rbit pgChip 0x10 0 = true
      ∧ (s.rbit pgChip 0x10 0 = false → fld (t.reg pgChip Reg.berrInfo) 0 4 = beWlost)
      ∧ (∀ p o, o ≠ 0x10 → p ≠ pgChip → p ≠ pgLookout → t.reg p o = s.reg p o) ∧ t.mem = s.mem
      ∧ (s.rbit (accPage a) 0x10 23 = false → s.rbit (accPage a) 0x14 23 = true → s.flumeUp = true →
        (s.lookout.q (sourceQueue (pageSrc (accPage a)))).length < 256 →
        ∃ m ∈ t.lookout.q (sourceQueue (pageSrc (accPage a))),
          m.src = pageSrc (accPage a) ∧ m.code = 23 ∧ m.typ = .rise)

/-- R47: the bits that hardware sets read 1, and SEQ advances by one when one of them rises and not otherwise. -/
def Obligations.EventRise : Prop :=
  ∀ (s : State) (p : Nat) (bits : List Nat) (info : Word), (∀ i ∈ bits, i < 24) → p ≠ pgLookout →
    (∀ i, i < 24 → (s.raiseAll p bits info).rbit p 0x10 i = (s.rbit p 0x10 i || bits.contains i))
    ∧ fld ((s.raiseAll p bits info).evt p) 24 8
      = if bits.any (fun i => !s.rbit p 0x10 i) then (fld (s.evt p) 24 8 + 1) % 256 else fld (s.evt p) 24 8

/-- R451: a reset register written without its key resets nothing: KEY is kept as the cause of the rejection, and the event
says so. -/
def Obligations.ResetKeyChecked : Prop :=
  ∀ (s : State) (v : Word) (c : Instr) (o : Nat), s.live = true → fld v 16 16 ≠ 0x9204 →
    (c, o) ∈ [(Instr.rstChip v, Reg.rstChip), (.rstHalf v, Reg.rstHalf), (.rstSlice v, Reg.rstSlice)] →
    s.WritesNow .host pgReset o →
    ∃ t, exec c s = .next t ∧ t.rst = { s.rst with rej := rejKey }
      ∧ t.rbit pgReset 0x10 evRej = true ∧ (∀ p o, p ≠ pgReset → p ≠ pgLookout → t.reg p o = s.reg p o)
      ∧ t = { s with rst := t.rst, regs := t.regs, lookout := t.lookout, bus := t.bus }

/-- Frame of the commands of TIME and the Matrix (R288 to R290, R301 to R303): what each leaves unchanged. Every field of
the state that is not named stays, memory and registers among them where they are not named. -/
def Obligations.TimeAndMatrixFrame : Prop :=
  (∀ s t, s.WritesNow .host pgTime Reg.tmCmd → exec .set s = .next t →
      t = { s with
        clk := t.clk, regs := t.regs, bus := t.bus, cruiser := t.cruiser, lookout := t.lookout })
  ∧ (∀ s t, s.WritesNow .host pgTime Reg.tmCmd → exec .step s = .next t →
      t = { s with
        clk := t.clk, regs := t.regs, bus := t.bus, cruiser := t.cruiser, lookout := t.lookout })
  ∧ (∀ x1 s t, exec (.ppsOut x1) s = .next t → t = { s with ppsHigh := t.ppsHigh })
  ∧ (∀ x1 s t, exec (.ppsIn x1) s = .next t → t = { s with regs := t.regs, lookout := t.lookout })
  ∧ (∀ s t, exec .refLoss s = .next t → t = { s with regs := t.regs, lookout := t.lookout })
  ∧ (∀ x1 s t u, s.Posts .host (pgMatrix x1.val) Reg.mxCtrl → exec (.clrMx x1) s = .next t →
      exec (.postedWritePerformed (pgMatrix x1.val)) t = .next u → t = { s with bus := t.bus }
      ∧ u = { s with regs := u.regs, bus := u.bus, matrix := u.matrix })
  ∧ (∀ x1 s t u, s.Posts .host (pgMatrix x1.val) Reg.mxCtrl → exec (.clrHist x1) s = .next t →
      exec (.postedWritePerformed (pgMatrix x1.val)) t = .next u → t = { s with bus := t.bus }
      ∧ u = { s with bus := u.bus, matrix := u.matrix })
  ∧ (∀ x1 s t u, s.Posts .host (pgMatrix x1.val) Reg.mxCtrl → exec (.clrDrop x1) s = .next t →
      exec (.postedWritePerformed (pgMatrix x1.val)) t = .next u → t = { s with bus := t.bus }
      ∧ u = { s with bus := u.bus, matrix := u.matrix })
  ∧ (∀ x1 s t, exec (.clrDone x1) s = .next t → t = { s with
      regs := t.regs, matrix := t.matrix, lookout := t.lookout })

/-- Frame of the commands of Tally and HBM (R310 to R322): what each leaves unchanged. Every field of the state that is not
named stays, memory and registers among them where they are not named. -/
def Obligations.TelemetryFrame : Prop :=
  (∀ x1 s t, exec (.tallyEviction x1) s = .next t → t = { s with
      regs := t.regs, frames := t.frames, nextFrame := t.nextFrame, inflight := t.inflight, path := t.path,
      tally := t.tally, host := t.host, lookout := t.lookout })
  ∧ (∀ x1 x2 s t, exec (.cacheWriteback x1 x2) s = .next t → t = { s with tally := t.tally })
  ∧ (∀ x1 s t, exec (.scanVisit x1) s = .next t → t = { s with
      regs := t.regs, frames := t.frames, nextFrame := t.nextFrame, inflight := t.inflight, path := t.path,
      tally := t.tally, host := t.host, lookout := t.lookout })
  ∧ (∀ x1 s t, exec (.overflowExport x1) s = .next t → t = { s with
      regs := t.regs, frames := t.frames, nextFrame := t.nextFrame, inflight := t.inflight, path := t.path,
      tally := t.tally, host := t.host, lookout := t.lookout })
  ∧ (∀ x1 s t u, s.Posts .host (pgTally x1.val) Reg.tyCtrl → exec (.flush x1) s = .next t →
      exec (.postedWritePerformed (pgTally x1.val)) t = .next u → t = { s with bus := t.bus }
      ∧ u = { s with regs := u.regs, bus := u.bus, tally := u.tally, host := u.host, lookout := u.lookout })
  ∧ (∀ x1 s t u, s.Posts .host (pgTally x1.val) Reg.tyCtrl → exec (.exportAll x1) s = .next t →
      exec (.postedWritePerformed (pgTally x1.val)) t = .next u → t = { s with bus := t.bus }
      ∧ u = { s with regs := u.regs, bus := u.bus, tally := u.tally })
  ∧ (∀ x1 s t u, s.Posts .host (pgTally x1.val) Reg.tyCtrl → exec (.clear x1) s = .next t →
      exec (.postedWritePerformed (pgTally x1.val)) t = .next u → t = { s with bus := t.bus }
      ∧ u = { s with regs := u.regs, bus := u.bus, tally := u.tally })
  ∧ (∀ x1 s t, exec (.clearDone x1) s = .next t → t = { s with
      regs := t.regs, tally := t.tally, host := t.host, lookout := t.lookout })
  ∧ (∀ x1 s t, exec (.ipfixMessage x1) s = .next t → t = { s with
      regs := t.regs, frames := t.frames, nextFrame := t.nextFrame, inflight := t.inflight, path := t.path,
      tally := t.tally })
  ∧ (∀ x1 s t u, s.Posts .host (pgHbm x1.val) Reg.hbCtrl → exec (.retrain x1) s = .next t →
      exec (.postedWritePerformed (pgHbm x1.val)) t = .next u → t = { s with bus := t.bus }
      ∧ u = { s with
        regs := u.regs, bus := u.bus, hbm := u.hbm, cruiser := u.cruiser, lookout := u.lookout })
  ∧ (∀ x1 x2 s t, exec (.retrainDone x1 x2) s = .next t → t = { s with
      regs := t.regs, hbm := t.hbm, lookout := t.lookout })
  ∧ (∀ x1 x2 x3 s t, exec (.hbmLost x1 x2 x3) s = .next t → t = { s with
      freeCtr := t.freeCtr, regs := t.regs, tally := t.tally, lookout := t.lookout })

/-- Frame of the commands of RING and DECK (R214 to R260): what each leaves unchanged. Every field of the state that is not
named stays, memory and registers among them where they are not named. -/
def Obligations.RingAndDeckFrame : Prop :=
  (∀ s t, exec .commitReady s = .next t → t = { s with rings := t.rings })
  ∧ (∀ s t, exec .commitTakeEffect s = .next t → t = { s with
      regs := t.regs, rings := t.rings, lookout := t.lookout, forester := t.forester })
  ∧ (∀ s t, exec .inflightSample s = .next t → t = { s with rings := t.rings })
  ∧ (∀ x1 s t, exec (.ringExpire x1) s = .next t → t = { s with
      regs := t.regs, rings := t.rings, lookout := t.lookout })
  ∧ (∀ x1 s t, exec (.expiryScan x1) s = .next t → t.clk = s.clk ∧ t.freeCtr = s.freeCtr ∧ t.out = s.out ∧
      t.selRegs = s.selRegs ∧ t.mem = s.mem ∧ t.bus = s.bus ∧ t.flumeUp = s.flumeUp ∧ t.lanes = s.lanes ∧
      t.macros = s.macros ∧ t.ports = s.ports ∧ t.spans = s.spans ∧ t.nextFrame = s.nextFrame ∧ t.slices = s.slices ∧
      t.rings = s.rings ∧ t.qbucket = s.qbucket ∧ t.meters = s.meters ∧ t.late = s.late ∧ t.wood = s.wood ∧
      t.eastq = s.eastq ∧ t.hitq = s.hitq ∧ t.hbm = s.hbm ∧ t.cruiser = s.cruiser ∧ t.fire = s.fire ∧
      t.raft = s.raft ∧ t.forester = s.forester ∧ t.mram = s.mram ∧ t.fuses = s.fuses ∧ t.ppsHigh = s.ppsHigh ∧
      t.rst = s.rst)
  ∧ (∀ x1 s t, exec (.admission x1) s = .next t → t.clk = s.clk ∧ t.freeCtr = s.freeCtr ∧ t.out = s.out ∧
      t.selRegs = s.selRegs ∧ t.mem = s.mem ∧ t.bus = s.bus ∧ t.flumeUp = s.flumeUp ∧ t.lanes = s.lanes ∧
      t.macros = s.macros ∧ t.ports = s.ports ∧ t.spans = s.spans ∧ t.nextFrame = s.nextFrame ∧ t.slices = s.slices ∧
      t.rings = s.rings ∧ t.qbucket = s.qbucket ∧ t.meters = s.meters ∧ t.late = s.late ∧ t.wood = s.wood ∧
      t.eastq = s.eastq ∧ t.hitq = s.hitq ∧ t.hbm = s.hbm ∧ t.cruiser = s.cruiser ∧ t.fire = s.fire ∧
      t.raft = s.raft ∧ t.forester = s.forester ∧ t.mram = s.mram ∧ t.fuses = s.fuses ∧ t.ppsHigh = s.ppsHigh ∧
      t.rst = s.rst)
  ∧ (∀ x1 x2 s t, exec (.cellAlloc x1 x2) s = .next t → t = { s with
      regs := t.regs, frames := t.frames, deck := t.deck, pfcTx := t.pfcTx, host := t.host, lookout := t.lookout })
  ∧ (∀ x1 x2 x3 x4 s t, exec (.cellFree x1 x2 x3 x4) s = .next t → t = { s with
      regs := t.regs, frames := t.frames, deck := t.deck, pfcTx := t.pfcTx, host := t.host, lookout := t.lookout })
  ∧ (∀ x1 x2 s t, exec (.refill x1 x2) s = .next t → t = { s with deck := t.deck })
  ∧ (∀ x1 x2 s t, exec (.bufferStall x1 x2) s = .next t → t.clk = s.clk ∧ t.freeCtr = s.freeCtr ∧ t.out = s.out ∧
      t.selRegs = s.selRegs ∧ t.mem = s.mem ∧ t.bus = s.bus ∧ t.flumeUp = s.flumeUp ∧ t.lanes = s.lanes ∧
      t.macros = s.macros ∧ t.ports = s.ports ∧ t.spans = s.spans ∧ t.nextFrame = s.nextFrame ∧ t.rings = s.rings ∧
      t.qbucket = s.qbucket ∧ t.meters = s.meters ∧ t.late = s.late ∧ t.wood = s.wood ∧ t.eastq = s.eastq ∧
      t.hitq = s.hitq ∧ t.hbm = s.hbm ∧ t.cruiser = s.cruiser ∧ t.fire = s.fire ∧ t.raft = s.raft ∧
      t.forester = s.forester ∧ t.mram = s.mram ∧ t.fuses = s.fuses ∧ t.ppsHigh = s.ppsHigh ∧ t.rst = s.rst)
  ∧ (∀ x1 x2 s t, exec (.deckEccError x1 x2) s = .next t → t = { s with
      regs := t.regs, frames := t.frames, deck := t.deck, pfcTx := t.pfcTx, host := t.host, lookout := t.lookout })
  ∧ (∀ x1 x2 s t, exec (.listRebuild x1 x2) s = .next t → t = { s with
      regs := t.regs, deck := t.deck, lookout := t.lookout })
  ∧ (∀ x1 s t, exec (.deckInitDone x1) s = .next t → t = { s with
      freeCtr := t.freeCtr, regs := t.regs, deck := t.deck, pfcTx := t.pfcTx, lookout := t.lookout })
  ∧ (∀ x1 s t, exec (.pfcFrameTx x1) s = .next t → t.clk = s.clk ∧ t.freeCtr = s.freeCtr ∧ t.selRegs = s.selRegs ∧
      t.mem = s.mem ∧ t.bus = s.bus ∧ t.flumeUp = s.flumeUp ∧ t.lanes = s.lanes ∧ t.macros = s.macros ∧
      t.spans = s.spans ∧ t.mcast = s.mcast ∧ t.rings = s.rings ∧ t.inflight = s.inflight ∧ t.deck = s.deck ∧
      t.path = s.path ∧ t.queues = s.queues ∧ t.deficit = s.deficit ∧ t.qbucket = s.qbucket ∧ t.meters = s.meters ∧
      t.late = s.late ∧ t.unsettled = s.unsettled ∧ t.wood = s.wood ∧ t.eastq = s.eastq ∧ t.hitq = s.hitq ∧
      t.tally = s.tally ∧ t.hbm = s.hbm ∧ t.host = s.host ∧ t.fire = s.fire ∧ t.raft = s.raft ∧
      t.forester = s.forester ∧ t.mram = s.mram ∧ t.fuses = s.fuses ∧ t.ppsHigh = s.ppsHigh ∧ t.rst = s.rst)
  ∧ (∀ x1 s t, exec (.pfcRefresh x1) s = .next t → t = { s with pfcTx := t.pfcTx })
  ∧ (∀ x1 x2 s t, exec (.pauseExpire x1 x2) s = .next t → t = { s with sched := t.sched })
  ∧ (∀ req at_ s t, s.WritesNow req pgRing Reg.ringCtrl → exec (.commit req at_) s = .next t →
      t = { s with
        regs := t.regs, bus := t.bus, rings := t.rings, lookout := t.lookout })
  ∧ (∀ req s t, s.WritesNow req pgRing Reg.ringCtrl → exec (.cancel req) s = .next t →
      t = { s with
        regs := t.regs, bus := t.bus, rings := t.rings })
  ∧ (∀ req v s t, s.WritesNow req pgRing Reg.ringMaxage → exec (.ringMaxage req v) s = .next t →
      t = { s with
        regs := t.regs, bus := t.bus, rings := t.rings, lookout := t.lookout })
  ∧ (∀ req h n s t, s.WritesNow req (pgDeck h.val) (0x208 + 0x20 * n.val) → exec (.poolAlloc req h n) s = .next t →
      t = { s with
        regs := t.regs, bus := t.bus, deck := t.deck, lookout := t.lookout })
  ∧ (∀ req h n cell s t, s.WritesNow req (pgDeck h.val) (0x20C + 0x20 * n.val) → exec (.poolFree req h n cell) s = .next t →
      t = { s with
        regs := t.regs, bus := t.bus, deck := t.deck, lookout := t.lookout })

/-- Frame of the commands of FLUME, SCHEDULER and RAFT (R265 to R280, R328 to R344): what each leaves unchanged. Every field
of the state that is not named stays, memory and registers among them where they are not named. -/
def Obligations.QueueAndRaftFrame : Prop :=
  (∀ x1 x2 s t, exec (.flumeReceive x1 x2) s = .next t → t.clk = s.clk ∧ t.freeCtr = s.freeCtr ∧ t.out = s.out ∧
      t.selRegs = s.selRegs ∧ t.mem = s.mem ∧ t.bus = s.bus ∧ t.flumeUp = s.flumeUp ∧ t.lanes = s.lanes ∧
      t.macros = s.macros ∧ t.ports = s.ports ∧ t.spans = s.spans ∧ t.nextFrame = s.nextFrame ∧ t.slices = s.slices ∧
      t.rings = s.rings ∧ t.queues = s.queues ∧ t.qbucket = s.qbucket ∧ t.meters = s.meters ∧ t.late = s.late ∧
      t.wood = s.wood ∧ t.eastq = s.eastq ∧ t.hitq = s.hitq ∧ t.hbm = s.hbm ∧ t.cruiser = s.cruiser ∧
      t.fire = s.fire ∧ t.raft = s.raft ∧ t.forester = s.forester ∧ t.mram = s.mram ∧ t.fuses = s.fuses ∧
      t.ppsHigh = s.ppsHigh ∧ t.rst = s.rst)
  ∧ (∀ x1 s t, exec (.replicate x1) s = .next t → t.clk = s.clk ∧ t.freeCtr = s.freeCtr ∧ t.out = s.out ∧
      t.selRegs = s.selRegs ∧ t.mem = s.mem ∧ t.bus = s.bus ∧ t.flumeUp = s.flumeUp ∧ t.lanes = s.lanes ∧
      t.macros = s.macros ∧ t.ports = s.ports ∧ t.spans = s.spans ∧ t.slices = s.slices ∧ t.rings = s.rings ∧
      t.qbucket = s.qbucket ∧ t.meters = s.meters ∧ t.late = s.late ∧ t.wood = s.wood ∧ t.eastq = s.eastq ∧
      t.hitq = s.hitq ∧ t.hbm = s.hbm ∧ t.cruiser = s.cruiser ∧ t.fire = s.fire ∧ t.raft = s.raft ∧
      t.forester = s.forester ∧ t.mram = s.mram ∧ t.fuses = s.fuses ∧ t.ppsHigh = s.ppsHigh ∧ t.rst = s.rst)
  ∧ (∀ x1 s t, s.WritesNow .host (pgAdmit x1.val) Reg.repCtrl → exec (.drain x1) s = .next t →
      t = { s with
        regs := t.regs, bus := t.bus, frames := t.frames, path := t.path, lookout := t.lookout })
  ∧ (∀ x1 s t, exec (.schedule x1) s = .next t → t.clk = s.clk ∧ t.freeCtr = s.freeCtr ∧ t.out = s.out ∧
      t.selRegs = s.selRegs ∧ t.mem = s.mem ∧ t.bus = s.bus ∧ t.flumeUp = s.flumeUp ∧ t.lanes = s.lanes ∧
      t.macros = s.macros ∧ t.ports = s.ports ∧ t.spans = s.spans ∧ t.nextFrame = s.nextFrame ∧ t.mcast = s.mcast ∧
      t.rings = s.rings ∧ t.path = s.path ∧ t.qbucket = s.qbucket ∧ t.meters = s.meters ∧ t.late = s.late ∧
      t.wood = s.wood ∧ t.eastq = s.eastq ∧ t.hitq = s.hitq ∧ t.hbm = s.hbm ∧ t.cruiser = s.cruiser ∧
      t.fire = s.fire ∧ t.raft = s.raft ∧ t.forester = s.forester ∧ t.mram = s.mram ∧ t.fuses = s.fuses ∧
      t.ppsHigh = s.ppsHigh ∧ t.rst = s.rst)
  ∧ (∀ x1 x2 s t, exec (.macStart x1 x2) s = .next t → t.clk = s.clk ∧ t.freeCtr = s.freeCtr ∧ t.out = s.out ∧
      t.selRegs = s.selRegs ∧ t.mem = s.mem ∧ t.bus = s.bus ∧ t.flumeUp = s.flumeUp ∧ t.lanes = s.lanes ∧
      t.macros = s.macros ∧ t.ports = s.ports ∧ t.spans = s.spans ∧ t.nextFrame = s.nextFrame ∧ t.slices = s.slices ∧
      t.mcast = s.mcast ∧ t.rings = s.rings ∧ t.path = s.path ∧ t.queues = s.queues ∧ t.qbucket = s.qbucket ∧
      t.meters = s.meters ∧ t.late = s.late ∧ t.wood = s.wood ∧ t.eastq = s.eastq ∧ t.hitq = s.hitq ∧ t.hbm = s.hbm ∧
      t.cruiser = s.cruiser ∧ t.fire = s.fire ∧ t.raft = s.raft ∧ t.forester = s.forester ∧ t.mram = s.mram ∧
      t.fuses = s.fuses ∧ t.ppsHigh = s.ppsHigh ∧ t.rst = s.rst)
  ∧ (∀ x1 s t, exec (.txLastByte x1) s = .next t → t.clk = s.clk ∧ t.freeCtr = s.freeCtr ∧ t.selRegs = s.selRegs ∧
      t.mem = s.mem ∧ t.bus = s.bus ∧ t.flumeUp = s.flumeUp ∧ t.lanes = s.lanes ∧ t.macros = s.macros ∧
      t.mcast = s.mcast ∧ t.rings = s.rings ∧ t.path = s.path ∧ t.queues = s.queues ∧ t.meters = s.meters ∧
      t.late = s.late ∧ t.wood = s.wood ∧ t.eastq = s.eastq ∧ t.hitq = s.hitq ∧ t.hbm = s.hbm ∧ t.fire = s.fire ∧
      t.raft = s.raft ∧ t.forester = s.forester ∧ t.mram = s.mram ∧ t.fuses = s.fuses ∧ t.ppsHigh = s.ppsHigh ∧
      t.rst = s.rst)
  ∧ (∀ x1 s t, exec (.linkHoldExpire x1) s = .next t → t = { s with
      queues := t.queues, deficit := t.deficit, sched := t.sched })
  ∧ (∀ x1 s t, exec (.linkFlushDone x1) s = .next t → t.clk = s.clk ∧ t.freeCtr = s.freeCtr ∧ t.out = s.out ∧
      t.selRegs = s.selRegs ∧ t.mem = s.mem ∧ t.bus = s.bus ∧ t.flumeUp = s.flumeUp ∧ t.lanes = s.lanes ∧
      t.macros = s.macros ∧ t.ports = s.ports ∧ t.spans = s.spans ∧ t.nextFrame = s.nextFrame ∧ t.slices = s.slices ∧
      t.mcast = s.mcast ∧ t.rings = s.rings ∧ t.path = s.path ∧ t.queues = s.queues ∧ t.qbucket = s.qbucket ∧
      t.meters = s.meters ∧ t.late = s.late ∧ t.wood = s.wood ∧ t.eastq = s.eastq ∧ t.hitq = s.hitq ∧ t.hbm = s.hbm ∧
      t.cruiser = s.cruiser ∧ t.fire = s.fire ∧ t.raft = s.raft ∧ t.forester = s.forester ∧ t.mram = s.mram ∧
      t.fuses = s.fuses ∧ t.ppsHigh = s.ppsHigh ∧ t.rst = s.rst)
  ∧ (∀ s t, exec .raftCfgSync s = .next t → t = { s with raft := t.raft })
  ∧ (∀ x1 s t, exec (.helloTx x1) s = .next t → t.clk = s.clk ∧ t.freeCtr = s.freeCtr ∧ t.selRegs = s.selRegs ∧
      t.mem = s.mem ∧ t.bus = s.bus ∧ t.flumeUp = s.flumeUp ∧ t.lanes = s.lanes ∧ t.macros = s.macros ∧
      t.mcast = s.mcast ∧ t.rings = s.rings ∧ t.inflight = s.inflight ∧ t.deck = s.deck ∧ t.path = s.path ∧
      t.queues = s.queues ∧ t.deficit = s.deficit ∧ t.qbucket = s.qbucket ∧ t.meters = s.meters ∧ t.late = s.late ∧
      t.unsettled = s.unsettled ∧ t.wood = s.wood ∧ t.eastq = s.eastq ∧ t.hitq = s.hitq ∧ t.tally = s.tally ∧
      t.hbm = s.hbm ∧ t.host = s.host ∧ t.fire = s.fire ∧ t.forester = s.forester ∧ t.mram = s.mram ∧
      t.fuses = s.fuses ∧ t.ppsHigh = s.ppsHigh ∧ t.rst = s.rst)
  ∧ (∀ x1 s t, exec (.extraHello x1) s = .next t → t.clk = s.clk ∧ t.freeCtr = s.freeCtr ∧ t.selRegs = s.selRegs ∧
      t.mem = s.mem ∧ t.bus = s.bus ∧ t.flumeUp = s.flumeUp ∧ t.lanes = s.lanes ∧ t.macros = s.macros ∧
      t.mcast = s.mcast ∧ t.rings = s.rings ∧ t.inflight = s.inflight ∧ t.deck = s.deck ∧ t.path = s.path ∧
      t.queues = s.queues ∧ t.deficit = s.deficit ∧ t.qbucket = s.qbucket ∧ t.meters = s.meters ∧ t.late = s.late ∧
      t.unsettled = s.unsettled ∧ t.wood = s.wood ∧ t.eastq = s.eastq ∧ t.hitq = s.hitq ∧ t.tally = s.tally ∧
      t.hbm = s.hbm ∧ t.host = s.host ∧ t.fire = s.fire ∧ t.forester = s.forester ∧ t.mram = s.mram ∧
      t.fuses = s.fuses ∧ t.ppsHigh = s.ppsHigh ∧ t.rst = s.rst)
  ∧ (∀ x1 x2 s t, exec (.helloRx x1 x2) s = .next t → t = { s with
      out := t.out, regs := t.regs, rings := t.rings, host := t.host, raft := t.raft, lookout := t.lookout })
  ∧ (∀ x1 s t, exec (.neighbourDead x1) s = .next t → t = { s with
      out := t.out, regs := t.regs, host := t.host, raft := t.raft, lookout := t.lookout })
  ∧ (∀ x1 s t, exec (.ewRecompute x1) s = .next t → t = { s with regs := t.regs, raft := t.raft })
  ∧ (∀ x1 s t, exec (.peerHoldLapse x1) s = .next t → t = { s with rings := t.rings })
  ∧ (∀ req v s t, s.WritesNow req (pgHalf 0) Reg.rfCtrl → exec (.raftEnable req v) s = .next t →
      t = { s with
        regs := t.regs, bus := t.bus, raft := t.raft })

/-- Frame of the commands of the pipes (R81, R135 to R162): what each leaves unchanged. Every field of the state that is not
named stays, memory and registers among them where they are not named. -/
def Obligations.PipeFrame : Prop :=
  (∀ x1 x2 s t, exec (.rxFrame x1 x2) s = .next t → t.clk = s.clk ∧ t.freeCtr = s.freeCtr ∧ t.selRegs = s.selRegs ∧
      t.mem = s.mem ∧ t.bus = s.bus ∧ t.flumeUp = s.flumeUp ∧ t.lanes = s.lanes ∧ t.macros = s.macros ∧
      t.spans = s.spans ∧ t.mcast = s.mcast ∧ t.rings = s.rings ∧ t.inflight = s.inflight ∧ t.deck = s.deck ∧
      t.path = s.path ∧ t.queues = s.queues ∧ t.deficit = s.deficit ∧ t.qbucket = s.qbucket ∧ t.meters = s.meters ∧
      t.late = s.late ∧ t.unsettled = s.unsettled ∧ t.wood = s.wood ∧ t.eastq = s.eastq ∧ t.hitq = s.hitq ∧
      t.tally = s.tally ∧ t.hbm = s.hbm ∧ t.host = s.host ∧ t.fire = s.fire ∧ t.raft = s.raft ∧
      t.forester = s.forester ∧ t.mram = s.mram ∧ t.fuses = s.fuses ∧ t.ppsHigh = s.ppsHigh ∧ t.rst = s.rst)
  ∧ (∀ x1 x2 s t, exec (.tailArrival x1 x2) s = .next t → t.clk = s.clk ∧ t.freeCtr = s.freeCtr ∧ t.selRegs = s.selRegs ∧
      t.bus = s.bus ∧ t.flumeUp = s.flumeUp ∧ t.lanes = s.lanes ∧ t.macros = s.macros ∧ t.spans = s.spans ∧
      t.mcast = s.mcast ∧ t.rings = s.rings ∧ t.inflight = s.inflight ∧ t.deck = s.deck ∧ t.path = s.path ∧
      t.queues = s.queues ∧ t.deficit = s.deficit ∧ t.qbucket = s.qbucket ∧ t.wood = s.wood ∧ t.eastq = s.eastq ∧
      t.hitq = s.hitq ∧ t.hbm = s.hbm ∧ t.host = s.host ∧ t.fire = s.fire ∧ t.raft = s.raft ∧
      t.forester = s.forester ∧ t.mram = s.mram ∧ t.fuses = s.fuses ∧ t.ppsHigh = s.ppsHigh ∧ t.rst = s.rst)
  ∧ (∀ x1 s t, exec (.parse x1) s = .next t → t.clk = s.clk ∧ t.freeCtr = s.freeCtr ∧ t.selRegs = s.selRegs ∧
      t.mem = s.mem ∧ t.bus = s.bus ∧ t.flumeUp = s.flumeUp ∧ t.lanes = s.lanes ∧ t.macros = s.macros ∧
      t.ports = s.ports ∧ t.spans = s.spans ∧ t.nextFrame = s.nextFrame ∧ t.mcast = s.mcast ∧ t.deck = s.deck ∧
      t.path = s.path ∧ t.queues = s.queues ∧ t.deficit = s.deficit ∧ t.qbucket = s.qbucket ∧ t.sched = s.sched ∧
      t.meters = s.meters ∧ t.late = s.late ∧ t.wood = s.wood ∧ t.eastq = s.eastq ∧ t.hitq = s.hitq ∧ t.hbm = s.hbm ∧
      t.cruiser = s.cruiser ∧ t.fire = s.fire ∧ t.forester = s.forester ∧ t.mram = s.mram ∧ t.fuses = s.fuses ∧
      t.ppsHigh = s.ppsHigh ∧ t.rst = s.rst)
  ∧ (∀ x1 s t u, s.Posts .host (pgParser x1.val) Reg.ppCtrl → exec (.swap x1) s = .next t →
      exec (.postedWritePerformed (pgParser x1.val)) t = .next u → t = { s with bus := t.bus }
      ∧ u = { s with bus := u.bus, slices := u.slices })
  ∧ (∀ x1 s t, exec (.swapped x1) s = .next t → t = { s with
      regs := t.regs, slices := t.slices, lookout := t.lookout })
  ∧ (∀ x1 x2 x3 s t, exec (.microwordExec x1 x2 x3) s = .next t → t.clk = s.clk ∧ t.out = s.out ∧ t.selRegs = s.selRegs ∧
      t.bus = s.bus ∧ t.flumeUp = s.flumeUp ∧ t.lanes = s.lanes ∧ t.macros = s.macros ∧ t.ports = s.ports ∧
      t.spans = s.spans ∧ t.rings = s.rings ∧ t.queues = s.queues ∧ t.qbucket = s.qbucket ∧ t.eastq = s.eastq ∧
      t.hbm = s.hbm ∧ t.fire = s.fire ∧ t.raft = s.raft ∧ t.forester = s.forester ∧ t.mram = s.mram ∧
      t.fuses = s.fuses ∧ t.ppsHigh = s.ppsHigh ∧ t.rst = s.rst)
  ∧ (∀ x1 s t, exec (.deparse x1) s = .next t → t.clk = s.clk ∧ t.freeCtr = s.freeCtr ∧ t.out = s.out ∧
      t.selRegs = s.selRegs ∧ t.mem = s.mem ∧ t.bus = s.bus ∧ t.flumeUp = s.flumeUp ∧ t.lanes = s.lanes ∧
      t.macros = s.macros ∧ t.ports = s.ports ∧ t.spans = s.spans ∧ t.nextFrame = s.nextFrame ∧ t.mcast = s.mcast ∧
      t.rings = s.rings ∧ t.path = s.path ∧ t.queues = s.queues ∧ t.qbucket = s.qbucket ∧ t.meters = s.meters ∧
      t.late = s.late ∧ t.wood = s.wood ∧ t.eastq = s.eastq ∧ t.hitq = s.hitq ∧ t.hbm = s.hbm ∧
      t.cruiser = s.cruiser ∧ t.fire = s.fire ∧ t.raft = s.raft ∧ t.forester = s.forester ∧ t.mram = s.mram ∧
      t.fuses = s.fuses ∧ t.ppsHigh = s.ppsHigh ∧ t.rst = s.rst)

/-- Frame of the commands of lanes and ports (R62 to R92): what each leaves unchanged. Every field of the state that is not
named stays, memory and registers among them where they are not named. -/
def Obligations.LaneAndPortFrame : Prop :=
  (∀ x1 x2 s t, exec (.pllRateApply x1 x2) s = .next t → t = { s with macros := t.macros })
  ∧ (∀ x1 x2 s t, exec (.pllLock x1 x2) s = .next t → t = { s with
      regs := t.regs, lanes := t.lanes, macros := t.macros, lookout := t.lookout })
  ∧ (∀ x1 x2 s t, exec (.pllUnlock x1 x2) s = .next t → t = { s with
      regs := t.regs, macros := t.macros, lookout := t.lookout })
  ∧ (∀ x1 s t u, s.Posts .host (pgPort x1.val) (Reg.portCtrl (x1.val % 32)) → exec (.portEnable x1) s = .next t →
      exec (.postedWritePerformed (pgPort x1.val)) t = .next u → t = { s with bus := t.bus }
      ∧ u.clk = s.clk ∧ u.selRegs = s.selRegs ∧ u.flumeUp = s.flumeUp ∧ u.nextFrame = s.nextFrame ∧ u.mcast = s.mcast ∧
      u.rings = s.rings ∧ u.path = s.path ∧ u.wood = s.wood ∧ u.eastq = s.eastq ∧ u.hitq = s.hitq ∧ u.hbm = s.hbm ∧
      u.fire = s.fire ∧ u.forester = s.forester ∧ u.fuses = s.fuses ∧ u.ppsHigh = s.ppsHigh ∧ u.rst = s.rst)
  ∧ (∀ x1 s t u, s.Posts .host (pgPort x1.val) (Reg.portCtrl (x1.val % 32)) → exec (.portDisable x1) s = .next t →
      exec (.postedWritePerformed (pgPort x1.val)) t = .next u → t = { s with bus := t.bus }
      ∧ u.clk = s.clk ∧ u.selRegs = s.selRegs ∧ u.flumeUp = s.flumeUp ∧ u.nextFrame = s.nextFrame ∧ u.mcast = s.mcast ∧
      u.rings = s.rings ∧ u.path = s.path ∧ u.wood = s.wood ∧ u.eastq = s.eastq ∧ u.hitq = s.hitq ∧ u.hbm = s.hbm ∧
      u.fire = s.fire ∧ u.forester = s.forester ∧ u.fuses = s.fuses ∧ u.ppsHigh = s.ppsHigh ∧ u.rst = s.rst)
  ∧ (∀ x1 s t u, s.Posts .host (pgPort x1.val) (Reg.portCtrl (x1.val % 32)) → exec (.pwrActive x1) s = .next t →
      exec (.postedWritePerformed (pgPort x1.val)) t = .next u → t = { s with bus := t.bus }
      ∧ u.clk = s.clk ∧ u.selRegs = s.selRegs ∧ u.flumeUp = s.flumeUp ∧ u.nextFrame = s.nextFrame ∧ u.mcast = s.mcast ∧
      u.rings = s.rings ∧ u.path = s.path ∧ u.wood = s.wood ∧ u.eastq = s.eastq ∧ u.hitq = s.hitq ∧ u.hbm = s.hbm ∧
      u.fire = s.fire ∧ u.forester = s.forester ∧ u.fuses = s.fuses ∧ u.ppsHigh = s.ppsHigh ∧ u.rst = s.rst)
  ∧ (∀ x1 s t u, s.Posts .host (pgPort x1.val) (Reg.portCtrl (x1.val % 32)) → exec (.pwrStandby x1) s = .next t →
      exec (.postedWritePerformed (pgPort x1.val)) t = .next u → t = { s with bus := t.bus }
      ∧ u.clk = s.clk ∧ u.selRegs = s.selRegs ∧ u.flumeUp = s.flumeUp ∧ u.nextFrame = s.nextFrame ∧ u.mcast = s.mcast ∧
      u.rings = s.rings ∧ u.path = s.path ∧ u.wood = s.wood ∧ u.eastq = s.eastq ∧ u.hitq = s.hitq ∧ u.hbm = s.hbm ∧
      u.fire = s.fire ∧ u.forester = s.forester ∧ u.fuses = s.fuses ∧ u.ppsHigh = s.ppsHigh ∧ u.rst = s.rst)
  ∧ (∀ x1 s t u, s.Posts .host (pgPort x1.val) (Reg.portCtrl (x1.val % 32)) → exec (.pwrDormant x1) s = .next t →
      exec (.postedWritePerformed (pgPort x1.val)) t = .next u → t = { s with bus := t.bus }
      ∧ u.clk = s.clk ∧ u.selRegs = s.selRegs ∧ u.flumeUp = s.flumeUp ∧ u.nextFrame = s.nextFrame ∧ u.mcast = s.mcast ∧
      u.rings = s.rings ∧ u.path = s.path ∧ u.wood = s.wood ∧ u.eastq = s.eastq ∧ u.hitq = s.hitq ∧ u.hbm = s.hbm ∧
      u.fire = s.fire ∧ u.forester = s.forester ∧ u.fuses = s.fuses ∧ u.ppsHigh = s.ppsHigh ∧ u.rst = s.rst)
  ∧ (∀ x1 s t, exec (.signalAndCdrLock x1) s = .next t → t = { s with
      freeCtr := t.freeCtr, regs := t.regs, lanes := t.lanes, ports := t.ports, lookout := t.lookout })
  ∧ (∀ x1 s t, exec (.lossOfSignal x1) s = .next t → t.clk = s.clk ∧ t.selRegs = s.selRegs ∧ t.bus = s.bus ∧
      t.flumeUp = s.flumeUp ∧ t.macros = s.macros ∧ t.nextFrame = s.nextFrame ∧ t.mcast = s.mcast ∧
      t.rings = s.rings ∧ t.path = s.path ∧ t.wood = s.wood ∧ t.eastq = s.eastq ∧ t.hitq = s.hitq ∧ t.hbm = s.hbm ∧
      t.fire = s.fire ∧ t.forester = s.forester ∧ t.mram = s.mram ∧ t.fuses = s.fuses ∧ t.ppsHigh = s.ppsHigh ∧
      t.rst = s.rst)
  ∧ (∀ x1 s t, exec (.cdrUnlock x1) s = .next t → t.clk = s.clk ∧ t.selRegs = s.selRegs ∧ t.bus = s.bus ∧
      t.flumeUp = s.flumeUp ∧ t.macros = s.macros ∧ t.nextFrame = s.nextFrame ∧ t.mcast = s.mcast ∧
      t.rings = s.rings ∧ t.path = s.path ∧ t.wood = s.wood ∧ t.eastq = s.eastq ∧ t.hitq = s.hitq ∧ t.hbm = s.hbm ∧
      t.fire = s.fire ∧ t.forester = s.forester ∧ t.mram = s.mram ∧ t.fuses = s.fuses ∧ t.ppsHigh = s.ppsHigh ∧
      t.rst = s.rst)
  ∧ (∀ x1 x2 s t, exec (.adaptConverged x1 x2) s = .next t → t = { s with
      regs := t.regs, lanes := t.lanes, ports := t.ports, lookout := t.lookout })
  ∧ (∀ x1 s t, exec (.linkUp x1) s = .next t → t = { s with
      regs := t.regs, ports := t.ports, sched := t.sched, lookout := t.lookout })
  ∧ (∀ x1 s t, exec (.remoteFault x1) s = .next t → t.clk = s.clk ∧ t.freeCtr = s.freeCtr ∧ t.selRegs = s.selRegs ∧
      t.bus = s.bus ∧ t.flumeUp = s.flumeUp ∧ t.lanes = s.lanes ∧ t.macros = s.macros ∧ t.nextFrame = s.nextFrame ∧
      t.mcast = s.mcast ∧ t.rings = s.rings ∧ t.path = s.path ∧ t.wood = s.wood ∧ t.eastq = s.eastq ∧
      t.hitq = s.hitq ∧ t.hbm = s.hbm ∧ t.fire = s.fire ∧ t.forester = s.forester ∧ t.mram = s.mram ∧
      t.fuses = s.fuses ∧ t.ppsHigh = s.ppsHigh ∧ t.rst = s.rst)
  ∧ (∀ x1 x2 s t, exec (.fecDegrWindow x1 x2) s = .next t → t.clk = s.clk ∧ t.freeCtr = s.freeCtr ∧
      t.selRegs = s.selRegs ∧ t.bus = s.bus ∧ t.flumeUp = s.flumeUp ∧ t.macros = s.macros ∧
      t.nextFrame = s.nextFrame ∧ t.mcast = s.mcast ∧ t.rings = s.rings ∧ t.path = s.path ∧ t.wood = s.wood ∧
      t.eastq = s.eastq ∧ t.hitq = s.hitq ∧ t.hbm = s.hbm ∧ t.fire = s.fire ∧ t.forester = s.forester ∧
      t.mram = s.mram ∧ t.fuses = s.fuses ∧ t.ppsHigh = s.ppsHigh ∧ t.rst = s.rst)
  ∧ (∀ x1 s t u, s.Posts .host (pgPort x1.val) (Reg.portCtrl (x1.val % 32)) → exec (.recalLive x1) s = .next t →
      exec (.postedWritePerformed (pgPort x1.val)) t = .next u → t = { s with bus := t.bus }
      ∧ u.clk = s.clk ∧ u.selRegs = s.selRegs ∧ u.flumeUp = s.flumeUp ∧ u.nextFrame = s.nextFrame ∧ u.mcast = s.mcast ∧
      u.rings = s.rings ∧ u.path = s.path ∧ u.wood = s.wood ∧ u.eastq = s.eastq ∧ u.hitq = s.hitq ∧ u.hbm = s.hbm ∧
      u.fire = s.fire ∧ u.forester = s.forester ∧ u.fuses = s.fuses ∧ u.ppsHigh = s.ppsHigh ∧ u.rst = s.rst)
  ∧ (∀ x1 s t, exec (.recalLiveDone x1) s = .next t → t = { s with
      freeCtr := t.freeCtr, regs := t.regs, lanes := t.lanes, ports := t.ports, lookout := t.lookout })
  ∧ (∀ x1 s t u, s.Posts .host (pgPort x1.val) (Reg.portCtrl (x1.val % 32)) → exec (.recalFull x1) s = .next t →
      exec (.postedWritePerformed (pgPort x1.val)) t = .next u → t = { s with bus := t.bus }
      ∧ u.clk = s.clk ∧ u.selRegs = s.selRegs ∧ u.flumeUp = s.flumeUp ∧ u.nextFrame = s.nextFrame ∧ u.mcast = s.mcast ∧
      u.rings = s.rings ∧ u.path = s.path ∧ u.wood = s.wood ∧ u.eastq = s.eastq ∧ u.hitq = s.hitq ∧ u.hbm = s.hbm ∧
      u.fire = s.fire ∧ u.forester = s.forester ∧ u.fuses = s.fuses ∧ u.ppsHigh = s.ppsHigh ∧ u.rst = s.rst)
  ∧ (∀ x1 s t u, s.Posts .host (pgPort x1.val) (Reg.portCtrl (x1.val % 32)) → exec (.portReset x1) s = .next t →
      exec (.postedWritePerformed (pgPort x1.val)) t = .next u → t = { s with bus := t.bus }
      ∧ u.clk = s.clk ∧ u.selRegs = s.selRegs ∧ u.flumeUp = s.flumeUp ∧ u.nextFrame = s.nextFrame ∧ u.mcast = s.mcast ∧
      u.rings = s.rings ∧ u.path = s.path ∧ u.wood = s.wood ∧ u.eastq = s.eastq ∧ u.hitq = s.hitq ∧ u.hbm = s.hbm ∧
      u.fire = s.fire ∧ u.forester = s.forester ∧ u.fuses = s.fuses ∧ u.ppsHigh = s.ppsHigh ∧ u.rst = s.rst)
  ∧ (∀ x1 s t, exec (.localFault x1) s = .next t → t.clk = s.clk ∧ t.freeCtr = s.freeCtr ∧ t.selRegs = s.selRegs ∧
      t.bus = s.bus ∧ t.flumeUp = s.flumeUp ∧ t.lanes = s.lanes ∧ t.macros = s.macros ∧ t.nextFrame = s.nextFrame ∧
      t.mcast = s.mcast ∧ t.rings = s.rings ∧ t.path = s.path ∧ t.wood = s.wood ∧ t.eastq = s.eastq ∧
      t.hitq = s.hitq ∧ t.hbm = s.hbm ∧ t.fire = s.fire ∧ t.forester = s.forester ∧ t.mram = s.mram ∧
      t.fuses = s.fuses ∧ t.ppsHigh = s.ppsHigh ∧ t.rst = s.rst)

/-- Frame of the commands of spans (R93 to R131): what each leaves unchanged. Every field of the state that is not named
stays, memory and registers among them where they are not named. -/
def Obligations.SpanFrame : Prop :=
  (∀ x1 x2 s t, exec (.spanFrameRx x1 x2) s = .next t → t.clk = s.clk ∧ t.freeCtr = s.freeCtr ∧ t.selRegs = s.selRegs ∧
      t.bus = s.bus ∧ t.flumeUp = s.flumeUp ∧ t.lanes = s.lanes ∧ t.macros = s.macros ∧ t.nextFrame = s.nextFrame ∧
      t.mcast = s.mcast ∧ t.rings = s.rings ∧ t.path = s.path ∧ t.wood = s.wood ∧ t.eastq = s.eastq ∧
      t.hitq = s.hitq ∧ t.hbm = s.hbm ∧ t.fire = s.fire ∧ t.forester = s.forester ∧ t.mram = s.mram ∧
      t.fuses = s.fuses ∧ t.ppsHigh = s.ppsHigh ∧ t.rst = s.rst)
  ∧ (∀ x1 s t, exec (.spanFrameTx x1) s = .next t → t.clk = s.clk ∧ t.freeCtr = s.freeCtr ∧ t.selRegs = s.selRegs ∧
      t.bus = s.bus ∧ t.flumeUp = s.flumeUp ∧ t.lanes = s.lanes ∧ t.macros = s.macros ∧ t.nextFrame = s.nextFrame ∧
      t.mcast = s.mcast ∧ t.rings = s.rings ∧ t.path = s.path ∧ t.wood = s.wood ∧ t.eastq = s.eastq ∧
      t.hitq = s.hitq ∧ t.hbm = s.hbm ∧ t.fire = s.fire ∧ t.forester = s.forester ∧ t.mram = s.mram ∧
      t.fuses = s.fuses ∧ t.ppsHigh = s.ppsHigh ∧ t.rst = s.rst)
  ∧ (∀ x1 s t, exec (.spanPacketRx x1) s = .next t → t.clk = s.clk ∧ t.freeCtr = s.freeCtr ∧ t.out = s.out ∧
      t.selRegs = s.selRegs ∧ t.bus = s.bus ∧ t.flumeUp = s.flumeUp ∧ t.lanes = s.lanes ∧ t.macros = s.macros ∧
      t.ports = s.ports ∧ t.mcast = s.mcast ∧ t.rings = s.rings ∧ t.inflight = s.inflight ∧ t.deck = s.deck ∧
      t.path = s.path ∧ t.queues = s.queues ∧ t.deficit = s.deficit ∧ t.qbucket = s.qbucket ∧ t.wood = s.wood ∧
      t.eastq = s.eastq ∧ t.hitq = s.hitq ∧ t.hbm = s.hbm ∧ t.host = s.host ∧ t.fire = s.fire ∧ t.raft = s.raft ∧
      t.forester = s.forester ∧ t.mram = s.mram ∧ t.fuses = s.fuses ∧ t.ppsHigh = s.ppsHigh ∧ t.rst = s.rst)
  ∧ (∀ x1 x2 s t, exec (.defectTimer x1 x2) s = .next t → t.clk = s.clk ∧ t.freeCtr = s.freeCtr ∧ t.selRegs = s.selRegs ∧
      t.bus = s.bus ∧ t.flumeUp = s.flumeUp ∧ t.lanes = s.lanes ∧ t.macros = s.macros ∧ t.nextFrame = s.nextFrame ∧
      t.mcast = s.mcast ∧ t.rings = s.rings ∧ t.path = s.path ∧ t.wood = s.wood ∧ t.eastq = s.eastq ∧
      t.hitq = s.hitq ∧ t.hbm = s.hbm ∧ t.fire = s.fire ∧ t.forester = s.forester ∧ t.mram = s.mram ∧
      t.fuses = s.fuses ∧ t.ppsHigh = s.ppsHigh ∧ t.rst = s.rst)
  ∧ (∀ x1 s t u, s.Posts .host (pgSp x1.val) (Reg.spCtrl (x1.val % 8)) → exec (.injBip x1) s = .next t →
      exec (.postedWritePerformed (pgSp x1.val)) t = .next u → t = { s with bus := t.bus }
      ∧ u = { s with regs := u.regs, bus := u.bus })
  ∧ (∀ s t, exec .pmSecond s = .next t → t = { s with regs := t.regs, spans := t.spans, lookout := t.lookout })
  ∧ (∀ s t, exec .bin15 s = .next t → t = { s with regs := t.regs, spans := t.spans, lookout := t.lookout })
  ∧ (∀ x1 s t, exec (.day x1) s = .next t → t = { s with regs := t.regs, spans := t.spans, lookout := t.lookout })
  ∧ (∀ x1 x2 s t, exec (.ohspFrame x1 x2) s = .next t → t = { s with
      out := t.out, regs := t.regs, spans := t.spans, lookout := t.lookout })

/-- Frame of the commands of WOODLOT and TABLE (R169 to R211): what each leaves unchanged. Every field of the state that is
not named stays, memory and registers among them where they are not named. -/
def Obligations.TableFrame : Prop :=
  (∀ x1 x2 s t, exec (.boostOn x1 x2) s = .next t → t = { s with
      regs := t.regs, wood := t.wood, lookout := t.lookout })
  ∧ (∀ x1 x2 s t, exec (.boostOff x1 x2) s = .next t → t = { s with
      regs := t.regs, wood := t.wood, lookout := t.lookout })
  ∧ (∀ x1 s t, exec (.learnRequest x1) s = .next t → t = { s with
      out := t.out, regs := t.regs, mem := t.mem, wood := t.wood, eastq := t.eastq, host := t.host,
      lookout := t.lookout })
  ∧ (∀ s t, exec .eastCopyApply s = .next t → t = { s with
      regs := t.regs, mem := t.mem, eastq := t.eastq, lookout := t.lookout })
  ∧ (∀ x1 s t, exec (.agingVisit x1) s = .next t → t = { s with
      out := t.out, regs := t.regs, mem := t.mem, wood := t.wood, eastq := t.eastq, host := t.host })
  ∧ (∀ s t, exec .hitNotice s = .next t → t = { s with mem := t.mem, hitq := t.hitq })
  ∧ (∀ x1 x2 s t, exec (.emInsert x1 x2) s = .next t → t = { s with
      out := t.out, regs := t.regs, mem := t.mem, wood := t.wood, eastq := t.eastq, host := t.host, fire := t.fire,
      lookout := t.lookout })
  ∧ (∀ x1 x2 s t, exec (.emUpdate x1 x2) s = .next t → t = { s with
      out := t.out, regs := t.regs, mem := t.mem, wood := t.wood, eastq := t.eastq, host := t.host, fire := t.fire,
      lookout := t.lookout })
  ∧ (∀ x1 x2 s t, exec (.emUpsert x1 x2) s = .next t → t = { s with
      out := t.out, regs := t.regs, mem := t.mem, wood := t.wood, eastq := t.eastq, host := t.host, fire := t.fire,
      lookout := t.lookout })
  ∧ (∀ x1 x2 s t, exec (.emDelete x1 x2) s = .next t → t = { s with
      out := t.out, regs := t.regs, mem := t.mem, wood := t.wood, eastq := t.eastq, host := t.host, fire := t.fire,
      lookout := t.lookout })
  ∧ (∀ x1 x2 s t, exec (.emRead x1 x2) s = .next t → t = { s with
      out := t.out, regs := t.regs, mem := t.mem, wood := t.wood, eastq := t.eastq, host := t.host, fire := t.fire,
      lookout := t.lookout })
  ∧ (∀ x1 x2 s t, exec (.lpmInsert x1 x2) s = .next t → t = { s with
      out := t.out, regs := t.regs, mem := t.mem, wood := t.wood, eastq := t.eastq, host := t.host, fire := t.fire,
      lookout := t.lookout })
  ∧ (∀ x1 x2 s t, exec (.lpmDelete x1 x2) s = .next t → t = { s with
      out := t.out, regs := t.regs, mem := t.mem, wood := t.wood, eastq := t.eastq, host := t.host, fire := t.fire,
      lookout := t.lookout })
  ∧ (∀ x1 x2 s t, exec (.lpmRead x1 x2) s = .next t → t = { s with
      out := t.out, regs := t.regs, mem := t.mem, wood := t.wood, eastq := t.eastq, host := t.host, fire := t.fire,
      lookout := t.lookout })
  ∧ (∀ x1 x2 s t, exec (.tcamWrite x1 x2) s = .next t → t = { s with
      out := t.out, regs := t.regs, mem := t.mem, wood := t.wood, eastq := t.eastq, host := t.host, fire := t.fire,
      lookout := t.lookout })
  ∧ (∀ x1 x2 s t, exec (.tcamDelete x1 x2) s = .next t → t = { s with
      out := t.out, regs := t.regs, mem := t.mem, wood := t.wood, eastq := t.eastq, host := t.host, fire := t.fire,
      lookout := t.lookout })
  ∧ (∀ x1 x2 s t, exec (.bulkMove x1 x2) s = .next t → t = { s with
      out := t.out, regs := t.regs, mem := t.mem, wood := t.wood, eastq := t.eastq, host := t.host, fire := t.fire,
      lookout := t.lookout })
  ∧ (∀ x1 x2 s t, exec (.bulkFlush x1 x2) s = .next t → t = { s with
      out := t.out, regs := t.regs, mem := t.mem, wood := t.wood, eastq := t.eastq, host := t.host, fire := t.fire,
      lookout := t.lookout })
  ∧ (∀ x1 s t, exec (.tableNop x1) s = .next t → t = { s with
      out := t.out, regs := t.regs, mem := t.mem, wood := t.wood, eastq := t.eastq, host := t.host, fire := t.fire,
      lookout := t.lookout })
  ∧ (∀ x1 x2 s t, exec (.stashDrain x1 x2) s = .next t → t = { s with
      regs := t.regs, mem := t.mem, wood := t.wood })
  ∧ (∀ x1 s t, exec (.reclaim x1) s = .next t → t = { s with
      regs := t.regs, mem := t.mem, rings := t.rings, wood := t.wood, lookout := t.lookout })
  ∧ (∀ x1 s t, exec (.lpmCompaction x1) s = .next t → t = { s with regs := t.regs, wood := t.wood })
  ∧ (∀ x1 x2 s t u, s.Posts .host (pgWlem x1.val) Reg.wlMigrate → exec (.wlMigrate x1 x2) s = .next t →
      exec (.postedWritePerformed (pgWlem x1.val)) t = .next u → t = { s with bus := t.bus }
      ∧ u = { s with regs := u.regs, bus := u.bus, wood := u.wood, lookout := u.lookout })
  ∧ (∀ x1 s t, exec (.bankMigration x1) s = .next t → t = { s with
      regs := t.regs, mem := t.mem, wood := t.wood, lookout := t.lookout })
  ∧ (∀ x1 s t, s.WritesNow .host (pgMaint x1.val) Reg.mtCtrl → exec (.resume x1) s = .next t →
      t = { s with
        out := t.out, regs := t.regs, mem := t.mem, bus := t.bus, wood := t.wood, eastq := t.eastq, host := t.host,
        lookout := t.lookout })
  ∧ (∀ x1 s t, s.WritesNow .host (pgMaint x1.val) Reg.mtCtrl → exec (.abandon x1) s = .next t →
      t = { s with
        out := t.out, regs := t.regs, mem := t.mem, bus := t.bus, wood := t.wood, eastq := t.eastq, host := t.host,
        lookout := t.lookout })
  ∧ (∀ x1 x2 x3 s t, exec (.woodlotEccError x1 x2 x3) s = .next t → t = { s with
      regs := t.regs, mem := t.mem, wood := t.wood, lookout := t.lookout })
  ∧ (∀ x1 x2 s t, exec (.tcamParityScan x1 x2) s = .next t → t = { s with
      regs := t.regs, mem := t.mem, lookout := t.lookout })

/-- Frame of the commands of HOST and PCIE (R345 to R369): what each leaves unchanged. Every field of the state that is not
named stays, memory and registers among them where they are not named. -/
def Obligations.HostInterfaceFrame : Prop :=
  (∀ x1 x2 s t, s.WritesNow .host pgDoorbell (0x1000 + 4 * x1.val) → exec (.doorbell x1 x2) s = .next t →
      t.clk = s.clk ∧ t.freeCtr = s.freeCtr ∧ t.out = s.out ∧ t.selRegs = s.selRegs ∧ t.mem = s.mem ∧
      t.flumeUp = s.flumeUp ∧ t.lanes = s.lanes ∧ t.macros = s.macros ∧ t.ports = s.ports ∧ t.spans = s.spans ∧
      t.nextFrame = s.nextFrame ∧ t.slices = s.slices ∧ t.mcast = s.mcast ∧ t.rings = s.rings ∧ t.path = s.path ∧
      t.queues = s.queues ∧ t.deficit = s.deficit ∧ t.qbucket = s.qbucket ∧ t.sched = s.sched ∧ t.meters = s.meters ∧
      t.late = s.late ∧ t.wood = s.wood ∧ t.eastq = s.eastq ∧ t.hitq = s.hitq ∧ t.hbm = s.hbm ∧
      t.cruiser = s.cruiser ∧ t.fire = s.fire ∧ t.raft = s.raft ∧ t.forester = s.forester ∧ t.mram = s.mram ∧
      t.fuses = s.fuses ∧ t.ppsHigh = s.ppsHigh ∧ t.rst = s.rst)
  ∧ (∀ x1 s t, s.WritesNow .host (pgQueue x1.val) (Reg.hqCtrl (x1.val % 32)) → exec (.queueEnable x1) s = .next t →
      t.clk = s.clk ∧ t.freeCtr = s.freeCtr ∧ t.out = s.out ∧ t.selRegs = s.selRegs ∧ t.mem = s.mem ∧
      t.flumeUp = s.flumeUp ∧ t.lanes = s.lanes ∧ t.macros = s.macros ∧ t.ports = s.ports ∧ t.spans = s.spans ∧
      t.nextFrame = s.nextFrame ∧ t.slices = s.slices ∧ t.mcast = s.mcast ∧ t.rings = s.rings ∧ t.path = s.path ∧
      t.queues = s.queues ∧ t.deficit = s.deficit ∧ t.qbucket = s.qbucket ∧ t.sched = s.sched ∧ t.meters = s.meters ∧
      t.late = s.late ∧ t.wood = s.wood ∧ t.eastq = s.eastq ∧ t.hitq = s.hitq ∧ t.hbm = s.hbm ∧
      t.cruiser = s.cruiser ∧ t.fire = s.fire ∧ t.raft = s.raft ∧ t.forester = s.forester ∧ t.mram = s.mram ∧
      t.fuses = s.fuses ∧ t.ppsHigh = s.ppsHigh ∧ t.rst = s.rst)
  ∧ (∀ x1 s t, s.WritesNow .host (pgQueue x1.val) (Reg.hqCtrl (x1.val % 32)) → exec (.queueDisable x1) s = .next t →
      t.clk = s.clk ∧ t.freeCtr = s.freeCtr ∧ t.out = s.out ∧ t.selRegs = s.selRegs ∧ t.mem = s.mem ∧
      t.flumeUp = s.flumeUp ∧ t.lanes = s.lanes ∧ t.macros = s.macros ∧ t.ports = s.ports ∧ t.spans = s.spans ∧
      t.nextFrame = s.nextFrame ∧ t.slices = s.slices ∧ t.mcast = s.mcast ∧ t.rings = s.rings ∧ t.path = s.path ∧
      t.queues = s.queues ∧ t.deficit = s.deficit ∧ t.qbucket = s.qbucket ∧ t.sched = s.sched ∧ t.meters = s.meters ∧
      t.late = s.late ∧ t.wood = s.wood ∧ t.eastq = s.eastq ∧ t.hitq = s.hitq ∧ t.hbm = s.hbm ∧
      t.cruiser = s.cruiser ∧ t.fire = s.fire ∧ t.raft = s.raft ∧ t.forester = s.forester ∧ t.mram = s.mram ∧
      t.fuses = s.fuses ∧ t.ppsHigh = s.ppsHigh ∧ t.rst = s.rst)
  ∧ (∀ x1 s t, exec (.queueDrained x1) s = .next t → t = { s with host := t.host })
  ∧ (∀ x1 x2 s t, exec (.descriptorFetch x1 x2) s = .next t → t = { s with
      regs := t.regs, frames := t.frames, inflight := t.inflight, deck := t.deck, pfcTx := t.pfcTx,
      unsettled := t.unsettled, matrix := t.matrix, tally := t.tally, host := t.host, lookout := t.lookout })
  ∧ (∀ x1 s t, exec (.descriptorComplete x1) s = .next t → t = { s with
      out := t.out, regs := t.regs, host := t.host })
  ∧ (∀ x1 s t, exec (.dmaReadError x1) s = .next t → t = { s with
      regs := t.regs, host := t.host, fire := t.fire, lookout := t.lookout })
  ∧ (∀ x1 s t, exec (.puntDeliver x1) s = .next t → t.clk = s.clk ∧ t.freeCtr = s.freeCtr ∧ t.selRegs = s.selRegs ∧
      t.mem = s.mem ∧ t.bus = s.bus ∧ t.flumeUp = s.flumeUp ∧ t.lanes = s.lanes ∧ t.macros = s.macros ∧
      t.ports = s.ports ∧ t.spans = s.spans ∧ t.nextFrame = s.nextFrame ∧ t.slices = s.slices ∧ t.mcast = s.mcast ∧
      t.rings = s.rings ∧ t.path = s.path ∧ t.queues = s.queues ∧ t.deficit = s.deficit ∧ t.qbucket = s.qbucket ∧
      t.sched = s.sched ∧ t.meters = s.meters ∧ t.late = s.late ∧ t.wood = s.wood ∧ t.eastq = s.eastq ∧
      t.hitq = s.hitq ∧ t.hbm = s.hbm ∧ t.cruiser = s.cruiser ∧ t.fire = s.fire ∧ t.raft = s.raft ∧
      t.forester = s.forester ∧ t.mram = s.mram ∧ t.fuses = s.fuses ∧ t.ppsHigh = s.ppsHigh ∧ t.rst = s.rst)
  ∧ (∀ x1 x2 s t, exec (.pipe x1 x2) s = .next t → t = { s with
      regs := t.regs, frames := t.frames, nextFrame := t.nextFrame, slices := t.slices, inflight := t.inflight,
      deck := t.deck, path := t.path, host := t.host })
  ∧ (∀ x1 x2 s t, exec (.direct x1 x2) s = .next t → t = { s with
      regs := t.regs, frames := t.frames, nextFrame := t.nextFrame, slices := t.slices, inflight := t.inflight,
      deck := t.deck, path := t.path, host := t.host })
  ∧ (∀ x1 x2 s t, exec (.poolWrite x1 x2) s = .next t → t = { s with
      regs := t.regs, frames := t.frames, nextFrame := t.nextFrame, slices := t.slices, inflight := t.inflight,
      deck := t.deck, path := t.path, host := t.host })
  ∧ (∀ x1 s t, exec (.exportBufferTimeout x1) s = .next t → t = { s with host := t.host })
  ∧ (∀ x1 s t, exec (.irqHoldoff x1) s = .next t → t = { s with out := t.out, host := t.host })
  ∧ (∀ s t, exec .flr s = .next t → t = { s with
      regs := t.regs, frames := t.frames, inflight := t.inflight, deck := t.deck, pfcTx := t.pfcTx,
      unsettled := t.unsettled, matrix := t.matrix, tally := t.tally, host := t.host, lookout := t.lookout })
  ∧ (∀ s t, exec .hotReset s = .next t → t = { s with
      regs := t.regs, frames := t.frames, inflight := t.inflight, deck := t.deck, pfcTx := t.pfcTx,
      unsettled := t.unsettled, matrix := t.matrix, tally := t.tally, host := t.host, lookout := t.lookout })
  ∧ (∀ s t, exec .pcieLinkDown s = .next t → t = { s with
      regs := t.regs, frames := t.frames, inflight := t.inflight, deck := t.deck, pfcTx := t.pfcTx,
      unsettled := t.unsettled, matrix := t.matrix, tally := t.tally, host := t.host, lookout := t.lookout })
  ∧ (∀ x1 s t, exec (.perstN x1) s = .next t → t = { s with
      regs := t.regs, frames := t.frames, inflight := t.inflight, deck := t.deck, pfcTx := t.pfcTx,
      unsettled := t.unsettled, matrix := t.matrix, tally := t.tally, host := t.host, lookout := t.lookout })
  ∧ (∀ x1 x2 s t, exec (.busMasterEnable x1 x2) s = .next t → t = { s with regs := t.regs, host := t.host })
  ∧ (∀ s t, exec .poisonedWrite s = .next t → t = { s with
      out := t.out, regs := t.regs, host := t.host, lookout := t.lookout })
  ∧ (∀ x1 x2 s t, exec (.pcieLinkUp x1 x2) s = .next t → t = { s with host := t.host })

/-- Frame of the commands of CRUISER (R370 to R385): what each leaves unchanged. Every field of the state that is not named
stays, memory and registers among them where they are not named. -/
def Obligations.CruiserFrame : Prop :=
  (∀ s t, exec .snapshotCapture s = .next t → t = { s with
      regs := t.regs, cruiser := t.cruiser, lookout := t.lookout })
  ∧ (∀ x1 s t, exec (.snapshotPartDone x1) s = .next t → t = { s with
      regs := t.regs, mem := t.mem, cruiser := t.cruiser, lookout := t.lookout })
  ∧ (∀ s t, exec .snapshotTransferDone s = .next t → t = { s with
      out := t.out, regs := t.regs, host := t.host, cruiser := t.cruiser, lookout := t.lookout })
  ∧ (∀ s t, exec .bwWindowEnd s = .next t → t = { s with cruiser := t.cruiser })
  ∧ (∀ req s t, s.WritesNow req pgCruiser Reg.crCtrl → exec (.snap req) s = .next t →
      t = { s with
        regs := t.regs, bus := t.bus, cruiser := t.cruiser, lookout := t.lookout })
  ∧ (∀ req s t, s.WritesNow req pgCruiser Reg.crCtrl → exec (.stop req) s = .next t →
      t = { s with
        regs := t.regs, bus := t.bus, cruiser := t.cruiser })
  ∧ (∀ req s t, s.WritesNow req pgCruiser Reg.crBwCtrl → exec (.pkClr req) s = .next t →
      t = { s with
        regs := t.regs, bus := t.bus, cruiser := t.cruiser })
  ∧ (∀ req k s t, s.WritesNow req pgCruiser Reg.crBwCtrl → exec (.winLengthWrite req k) s = .next t →
      t = { s with
        regs := t.regs, bus := t.bus, cruiser := t.cruiser })

/-- Frame of the commands of LOOKOUT and FIREBREAK (R386 to R422): what each leaves unchanged. Every field of the state that
is not named stays, memory and registers among them where they are not named. -/
def Obligations.LookoutAndFirebreakFrame : Prop :=
  (∀ x1 x2 s t, exec (.lookoutMessage x1 x2) s = .next t → t.clk = s.clk ∧ t.selRegs = s.selRegs ∧
      t.flumeUp = s.flumeUp ∧ t.lanes = s.lanes ∧ t.macros = s.macros ∧ t.rings = s.rings ∧ t.eastq = s.eastq ∧
      t.hbm = s.hbm ∧ t.fire = s.fire ∧ t.mram = s.mram ∧ t.fuses = s.fuses ∧ t.ppsHigh = s.ppsHigh)
  ∧ (∀ x1 s t, exec (.levelRiseWithoutMessage x1) s = .next t → t.clk = s.clk ∧ t.selRegs = s.selRegs ∧
      t.flumeUp = s.flumeUp ∧ t.lanes = s.lanes ∧ t.macros = s.macros ∧ t.rings = s.rings ∧ t.eastq = s.eastq ∧
      t.hbm = s.hbm ∧ t.fire = s.fire ∧ t.forester = s.forester ∧ t.mram = s.mram ∧ t.fuses = s.fuses ∧
      t.ppsHigh = s.ppsHigh)
  ∧ (∀ x1 s t, s.WritesNow .host pgLookout Reg.loClr → exec (.loClr x1) s = .next t →
      t = { s with regs := t.regs, bus := t.bus, lookout := t.lookout })
  ∧ (∀ s t, s.WritesNow .host pgLookout Reg.loPinRel → exec .loPinRel s = .next t →
      t = { s with out := t.out, bus := t.bus, lookout := t.lookout })
  ∧ (∀ s t, exec .faultPulseEnd s = .next t → t = { s with out := t.out, lookout := t.lookout })
  ∧ (∀ s t, exec .trapDeliver s = .next t → t = { s with
      regs := t.regs, lookout := t.lookout, forester := t.forester })
  ∧ (∀ x1 s t, exec (.fatalWr x1) s = .next t → t.freeCtr = s.freeCtr ∧ t.out = s.out ∧ t.fuses = s.fuses)
  ∧ (∀ s t, exec .powerSample s = .next t → t = { s with
      freeCtr := t.freeCtr, regs := t.regs, wood := t.wood, fire := t.fire, lookout := t.lookout })
  ∧ (∀ x1 s t, exec (.capEvaluate x1) s = .next t → t = { s with
      regs := t.regs, wood := t.wood, fire := t.fire, lookout := t.lookout })
  ∧ (∀ x1 x2 x3 s t, exec (.fbCalUpdate x1 x2 x3) s = .next t → t.fuses = s.fuses)
  ∧ (∀ s t, exec .calStale s = .next t → t = { s with regs := t.regs, fire := t.fire, lookout := t.lookout })
  ∧ (∀ s t, exec .deferralLimit s = .next t → t = { s with
      regs := t.regs, wood := t.wood, fire := t.fire, lookout := t.lookout })
  ∧ (∀ x1 x2 s t, exec (.droopOnset x1 x2) s = .next t → t = { s with
      regs := t.regs, fire := t.fire, lookout := t.lookout })
  ∧ (∀ x1 s t, exec (.tempSample x1) s = .next t → t = { s with
      freeCtr := t.freeCtr, regs := t.regs, fire := t.fire, lookout := t.lookout })
  ∧ (∀ s t, exec .thermalStep s = .next t → t = { s with
      regs := t.regs, wood := t.wood, fire := t.fire, lookout := t.lookout })
  ∧ (∀ x1 s t, exec (.thermalTrip x1) s = .next t → t.clk = s.clk ∧ t.freeCtr = s.freeCtr ∧ t.selRegs = s.selRegs ∧
      t.mem = s.mem ∧ t.bus = s.bus ∧ t.flumeUp = s.flumeUp ∧ t.lanes = s.lanes ∧ t.macros = s.macros ∧
      t.ports = s.ports ∧ t.spans = s.spans ∧ t.nextFrame = s.nextFrame ∧ t.slices = s.slices ∧ t.mcast = s.mcast ∧
      t.rings = s.rings ∧ t.path = s.path ∧ t.queues = s.queues ∧ t.deficit = s.deficit ∧ t.qbucket = s.qbucket ∧
      t.sched = s.sched ∧ t.meters = s.meters ∧ t.late = s.late ∧ t.wood = s.wood ∧ t.eastq = s.eastq ∧
      t.hitq = s.hitq ∧ t.hbm = s.hbm ∧ t.cruiser = s.cruiser ∧ t.fire = s.fire ∧ t.raft = s.raft ∧
      t.forester = s.forester ∧ t.mram = s.mram ∧ t.fuses = s.fuses ∧ t.ppsHigh = s.ppsHigh)
  ∧ (∀ x1 x2 s t, exec (.supplyWarning x1 x2) s = .next t → t = { s with
      regs := t.regs, wood := t.wood, fire := t.fire, lookout := t.lookout })
  ∧ (∀ x1 s t, exec (.supplyRecovery x1) s = .next t → t = { s with
      regs := t.regs, fire := t.fire, lookout := t.lookout })
  ∧ (∀ s t, exec .uvRelease s = .next t → t = { s with
      regs := t.regs, wood := t.wood, fire := t.fire, lookout := t.lookout })
  ∧ (∀ x1 s t, exec (.resetDip x1) s = .next t → t = { s with lookout := t.lookout })
  ∧ (∀ x1 s t, s.WritesNow .host pgFirebreak Reg.fbHint → exec (.hint x1) s = .next t →
      t = { s with regs := t.regs, bus := t.bus, fire := t.fire })
  ∧ (∀ s t, exec .hintAck s = .next t → t = { s with
      regs := t.regs, wood := t.wood, fire := t.fire, lookout := t.lookout })
  ∧ (∀ s t, exec .hintWindowEnd s = .next t → t = { s with
      regs := t.regs, wood := t.wood, fire := t.fire, lookout := t.lookout })
  ∧ (∀ s t, exec .pmbusErr s = .next t → t = { s with
      regs := t.regs, wood := t.wood, fire := t.fire, lookout := t.lookout })
  ∧ (∀ x1 s t, exec (.alertN x1) s = .next t → t = { s with regs := t.regs, lookout := t.lookout })
  ∧ (∀ req on s t, s.WritesNow req pgFirebreak Reg.fbCtrl → exec (.fixed req on) s = .next t →
      t = { s with
        regs := t.regs, bus := t.bus, wood := t.wood, fire := t.fire, lookout := t.lookout })

/-- Frame of the commands of FORESTER and MAILBOX (R423 to R447): what each leaves unchanged. Every field of the state that
is not named stays, memory and registers among them where they are not named. -/
def Obligations.ForesterFrame : Prop :=
  (∀ x1 s t, exec (.pmHistoryCopy x1) s = .next t → t = { s with mram := t.mram })
  ∧ (∀ x1 x2 s t, exec (.headClaim x1 x2) s = .next t → t = { s with
      freeCtr := t.freeCtr, regs := t.regs, fire := t.fire, lookout := t.lookout, forester := t.forester })
  ∧ (∀ x1 s t, exec (.leaseRenew x1) s = .next t → t = { s with forester := t.forester })
  ∧ (∀ s t, exec .leaseExpire s = .next t → t = { s with
      regs := t.regs, lookout := t.lookout, forester := t.forester })
  ∧ (∀ x1 s t, exec (.lockstepMismatch x1) s = .next t → t = { s with
      regs := t.regs, lookout := t.lookout, forester := t.forester })
  ∧ (∀ x1 x2 s t, exec (.clusterBootDone x1 x2) s = .next t → t = { s with forester := t.forester, rst := t.rst })
  ∧ (∀ s t, exec .info s = .next t → t = { s with forester := t.forester })
  ∧ (∀ x1 s t, exec (.sensors x1) s = .next t → t = { s with regs := t.regs, forester := t.forester })
  ∧ (∀ s t, exec .logRead s = .next t → t = { s with freeCtr := t.freeCtr, forester := t.forester })
  ∧ (∀ s t, exec .fatalRead s = .next t → t = { s with forester := t.forester })
  ∧ (∀ s t, exec .trapRead s = .next t → t = { s with forester := t.forester })
  ∧ (∀ s t, exec .pmRead s = .next t → t = { s with forester := t.forester })
  ∧ (∀ s t, exec .chRead s = .next t → t = { s with spans := t.spans, forester := t.forester })
  ∧ (∀ s t, exec .chWrite s = .next t → t = { s with spans := t.spans, forester := t.forester })
  ∧ (∀ x1 s t, exec (.imgStage x1) s = .next t → t = { s with
      freeCtr := t.freeCtr, out := t.out, forester := t.forester })
  ∧ (∀ s t, exec .imgApply s = .next t → t.fuses = s.fuses)
  ∧ (∀ s t, exec .restart s = .next t → t = { s with forester := t.forester })
  ∧ (∀ s t, exec .handover s = .next t → t = { s with
      freeCtr := t.freeCtr, regs := t.regs, fire := t.fire, lookout := t.lookout, forester := t.forester })
  ∧ (∀ s t, exec .cfgSave s = .next t → t = { s with forester := t.forester, mram := t.mram, rst := t.rst })
  ∧ (∀ s t, exec .attest s = .next t → t = { s with freeCtr := t.freeCtr, forester := t.forester })
  ∧ (∀ s t, exec .ident s = .next t → t = { s with forester := t.forester })
  ∧ (∀ s t, exec .measExtend s = .next t → t = { s with forester := t.forester })
  ∧ (∀ x1 s t, exec (.lcAdvance x1) s = .next t → t = { s with forester := t.forester })
  ∧ (∀ s t, exec .svnAdvance s = .next t → t = { s with forester := t.forester, fuses := t.fuses })
  ∧ (∀ s t, exec .keyProgram s = .next t → t = { s with forester := t.forester, fuses := t.fuses })
  ∧ (∀ s t, exec .mailboxComplete s = .next t → t = { s with
      out := t.out, regs := t.regs, lanes := t.lanes, macros := t.macros, lookout := t.lookout,
      forester := t.forester, mram := t.mram, rst := t.rst })
  ∧ (∀ s t, exec .noHead s = .next t → t = { s with
      out := t.out, regs := t.regs, lanes := t.lanes, macros := t.macros, lookout := t.lookout, forester := t.forester })
  ∧ (∀ s t, exec .lcFuseWrite s = .next t → t.clk = s.clk ∧ t.out = s.out ∧ t.selRegs = s.selRegs ∧ t.mem = s.mem ∧
      t.bus = s.bus ∧ t.flumeUp = s.flumeUp ∧ t.lanes = s.lanes ∧ t.macros = s.macros ∧ t.ports = s.ports ∧
      t.spans = s.spans ∧ t.nextFrame = s.nextFrame ∧ t.slices = s.slices ∧ t.mcast = s.mcast ∧ t.rings = s.rings ∧
      t.path = s.path ∧ t.queues = s.queues ∧ t.deficit = s.deficit ∧ t.qbucket = s.qbucket ∧ t.sched = s.sched ∧
      t.meters = s.meters ∧ t.late = s.late ∧ t.wood = s.wood ∧ t.eastq = s.eastq ∧ t.hitq = s.hitq ∧ t.hbm = s.hbm ∧
      t.cruiser = s.cruiser ∧ t.fire = s.fire ∧ t.raft = s.raft ∧ t.mram = s.mram ∧ t.ppsHigh = s.ppsHigh ∧
      t.rst = s.rst)
  ∧ (∀ x1 x2 s t, exec (.recoveryImage x1 x2) s = .next t → t = { s with forester := t.forester, rst := t.rst })

/-- Frame of the commands of resets (R448 to R459): what each leaves unchanged. Every field of the state that is not named
stays, memory and registers among them where they are not named. -/
def Obligations.ResetFrame : Prop :=
  (∀ x1 s t, exec (.blockResetDone x1) s = .next t → t.clk = s.clk ∧ t.selRegs = s.selRegs ∧ t.flumeUp = s.flumeUp ∧
      t.lanes = s.lanes ∧ t.macros = s.macros ∧ t.hbm = s.hbm ∧ t.forester = s.forester ∧ t.mram = s.mram ∧
      t.fuses = s.fuses ∧ t.ppsHigh = s.ppsHigh)
  ∧ (∀ x1 s t, s.WritesNow .host pgReset Reg.rstHalf → exec (.rstHalf x1) s = .next t →
      t.clk = s.clk ∧ t.selRegs = s.selRegs ∧ t.nextFrame = s.nextFrame ∧ t.eastq = s.eastq ∧ t.hitq = s.hitq ∧
      t.fire = s.fire ∧ t.forester = s.forester ∧ t.fuses = s.fuses ∧ t.ppsHigh = s.ppsHigh)
  ∧ (∀ x1 s t, exec (.halfDone x1) s = .next t → t.clk = s.clk ∧ t.out = s.out ∧ t.selRegs = s.selRegs ∧ t.bus = s.bus ∧
      t.macros = s.macros ∧ t.nextFrame = s.nextFrame ∧ t.slices = s.slices ∧ t.mcast = s.mcast ∧
      t.inflight = s.inflight ∧ t.path = s.path ∧ t.queues = s.queues ∧ t.deficit = s.deficit ∧
      t.qbucket = s.qbucket ∧ t.sched = s.sched ∧ t.hitq = s.hitq ∧ t.host = s.host ∧ t.fire = s.fire ∧
      t.fuses = s.fuses ∧ t.ppsHigh = s.ppsHigh)
  ∧ (∀ x1 s t, s.WritesNow .host pgReset Reg.rstSlice → exec (.rstSlice x1) s = .next t →
      t.clk = s.clk ∧ t.selRegs = s.selRegs ∧ t.flumeUp = s.flumeUp ∧ t.eastq = s.eastq ∧ t.hbm = s.hbm ∧ t.fire = s.fire ∧
      t.forester = s.forester ∧ t.fuses = s.fuses ∧ t.ppsHigh = s.ppsHigh)
  ∧ (∀ x1 s t, exec (.sliceDone x1) s = .next t → t.clk = s.clk ∧ t.freeCtr = s.freeCtr ∧ t.selRegs = s.selRegs ∧
      t.flumeUp = s.flumeUp ∧ t.macros = s.macros ∧ t.nextFrame = s.nextFrame ∧ t.slices = s.slices ∧
      t.mcast = s.mcast ∧ t.rings = s.rings ∧ t.inflight = s.inflight ∧ t.deck = s.deck ∧ t.path = s.path ∧
      t.queues = s.queues ∧ t.deficit = s.deficit ∧ t.qbucket = s.qbucket ∧ t.sched = s.sched ∧ t.wood = s.wood ∧
      t.eastq = s.eastq ∧ t.hitq = s.hitq ∧ t.hbm = s.hbm ∧ t.host = s.host ∧ t.fire = s.fire ∧ t.raft = s.raft ∧
      t.forester = s.forester ∧ t.fuses = s.fuses ∧ t.ppsHigh = s.ppsHigh)
  ∧ (∀ s t, exec .startUpWipeDone s = .next t → t = { s with
      freeCtr := t.freeCtr, regs := t.regs, wood := t.wood, tally := t.tally, hbm := t.hbm, lookout := t.lookout,
      forester := t.forester, rst := t.rst })
  ∧ (∀ x1 s t, exec (.restore x1) s = .next t → t = { s with
      mem := t.mem, macros := t.macros, forester := t.forester, rst := t.rst })
  ∧ (∀ s t, exec .restored s = .next t → t.fuses = s.fuses)
  ∧ (∀ s t, exec .flumeChannelDown s = .next t → t = { s with
      regs := t.regs, flumeUp := t.flumeUp, raft := t.raft, lookout := t.lookout })
  ∧ (∀ s t, exec .flumeChannelUp s = .next t → t = { s with
      regs := t.regs, flumeUp := t.flumeUp, rings := t.rings, raft := t.raft, lookout := t.lookout,
      forester := t.forester })
  ∧ (∀ req p s t, s.Reaches true (accessTo req p Reg.pgCtrl 0) → pageSlow p = true → s.wbusy p = false →
      exec (.blkRst ⟨req, p⟩) s = .next t → t = { s with bus := t.bus })

/-- Frame of registers: these commands of telemetry, RING, DECK, SCHEDULER, parser and spans leave every register of the
pages of other blocks than those named; Lookout's message bits are among the named where a report may go out (R386). -/
def Obligations.TelemetryAndRingRegisterFrame : Prop :=
  (∀ s t, s.WritesNow .host pgTime Reg.tmCmd →
      exec .set s = .next t → s.OtherRegsKept [.span, .time, .lookout] t)
  ∧ (∀ s t, s.WritesNow .host pgTime Reg.tmCmd →
      exec .step s = .next t → s.OtherRegsKept [.span, .time, .lookout] t)
  ∧ (∀ x1 s t, exec (.ppsIn x1) s = .next t → s.OtherRegsKept [.time, .lookout] t)
  ∧ (∀ s t, exec .refLoss s = .next t → s.OtherRegsKept [.time, .lookout] t)
  ∧ (∀ x1 s t u, s.Posts .host (pgMatrix x1.val) Reg.mxCtrl → exec (.clrMx x1) s = .next t →
      exec (.postedWritePerformed (pgMatrix x1.val)) t = .next u → t.regs = s.regs ∧ s.OtherRegsKept [.matrix, .lookout] u)
  ∧ (∀ x1 s t, exec (.clrDone x1) s = .next t → s.OtherRegsKept [.matrix, .lookout] t)
  ∧ (∀ x1 s t u, s.Posts .host (pgTally x1.val) Reg.tyCtrl → exec (.flush x1) s = .next t →
      exec (.postedWritePerformed (pgTally x1.val)) t = .next u → t.regs = s.regs ∧ s.OtherRegsKept [.tally, .lookout] u)
  ∧ (∀ x1 s t u, s.Posts .host (pgTally x1.val) Reg.tyCtrl → exec (.clear x1) s = .next t →
      exec (.postedWritePerformed (pgTally x1.val)) t = .next u → t.regs = s.regs ∧ s.OtherRegsKept [.tally, .lookout] u)
  ∧ (∀ x1 s t, exec (.clearDone x1) s = .next t → s.OtherRegsKept [.tally, .lookout] t)
  ∧ (∀ x1 x2 x3 s t, exec (.hbmLost x1 x2 x3) s = .next t → s.OtherRegsKept [.hbm, .tally, .lookout] t)
  ∧ (∀ x1 s t u, s.Posts .host (pgHbm x1.val) Reg.hbCtrl → exec (.retrain x1) s = .next t →
      exec (.postedWritePerformed (pgHbm x1.val)) t = .next u → t.regs = s.regs ∧ s.OtherRegsKept [.hbm, .lookout] u)
  ∧ (∀ x1 x2 s t, exec (.retrainDone x1 x2) s = .next t → s.OtherRegsKept [.hbm, .lookout] t)
  ∧ (∀ x1 x2 s t, s.WritesNow x1 pgRing Reg.ringCtrl →
      exec (.commit x1 x2) s = .next t → s.OtherRegsKept [.ring, .lookout] t)
  ∧ (∀ s t, exec .commitReady s = .next t → s.OtherRegsKept [.ring, .lookout] t)
  ∧ (∀ s t, exec .commitTakeEffect s = .next t → s.OtherRegsKept [.kerfIn, .kerfOut, .maint, .ring, .lookout] t)
  ∧ (∀ x1 s t, exec (.ringExpire x1) s = .next t → s.OtherRegsKept [.ring, .lookout] t)
  ∧ (∀ x1 x2 s t, s.WritesNow x1 pgRing Reg.ringMaxage →
      exec (.ringMaxage x1 x2) s = .next t → s.OtherRegsKept [.ring, .lookout] t)
  ∧ (∀ x1 x2 s t, exec (.listRebuild x1 x2) s = .next t → s.OtherRegsKept [.deck, .lookout] t)
  ∧ (∀ x1 s t, exec (.deckInitDone x1) s = .next t → s.OtherRegsKept [.admission, .deck, .lookout] t)
  ∧ (∀ x1 x2 x3 s t, s.WritesNow x1 (pgDeck x2.val) (0x208 + 0x20 * x3.val) →
      exec (.poolAlloc x1 x2 x3) s = .next t → s.OtherRegsKept [.deck, .lookout] t)
  ∧ (∀ x1 x2 x3 x4 s t, s.WritesNow x1 (pgDeck x2.val) (0x20C + 0x20 * x3.val) →
      exec (.poolFree x1 x2 x3 x4) s = .next t → s.OtherRegsKept [.admission, .deck, .lookout] t)
  ∧ (∀ x1 x2 x3 x4 s t, exec (.cellFree x1 x2 x3 x4) s = .next t → s.OtherRegsKept [.admission, .deck, .lookout] t)
  ∧ (∀ x1 s t, s.WritesNow .host (pgAdmit x1.val) Reg.repCtrl →
      exec (.drain x1) s = .next t → s.OtherRegsKept [.admission, .lookout] t)
  ∧ (∀ x1 s t, exec (.linkUp x1) s = .next t → s.OtherRegsKept [.macpcs, .sched, .lookout] t)
  ∧ (∀ x1 s t, exec (.swapped x1) s = .next t → s.OtherRegsKept [.parser, .lookout] t)
  ∧ (∀ x1 s t u, s.Posts .host (pgSp x1.val) (Reg.spCtrl (x1.val % 8)) → exec (.injBip x1) s = .next t →
      exec (.postedWritePerformed (pgSp x1.val)) t = .next u → t.regs = s.regs ∧ s.OtherRegsKept [.span, .lookout] u)
  ∧ (∀ s t, exec .bin15 s = .next t → s.OtherRegsKept [.span, .lookout] t)
  ∧ (∀ x1 s t, exec (.day x1) s = .next t → s.OtherRegsKept [.span, .lookout] t)
  ∧ (∀ x1 x2 s t, exec (.ohspFrame x1 x2) s = .next t → s.OtherRegsKept [.ohsp, .lookout] t)

/-- Frame of registers: these commands of RAFT, WOODLOT, HOST, CRUISER, FIREBREAK, FORESTER and the lanes leave every
register of the pages of other blocks than those named; Lookout's message bits are among the named where a report may go out
(R386). -/
def Obligations.HostAndManagementRegisterFrame : Prop :=
  (∀ x1 x2 s t, s.WritesNow x1 (pgHalf 0) Reg.rfCtrl →
      exec (.raftEnable x1 x2) s = .next t → s.OtherRegsKept [.half, .lookout] t)
  ∧ (∀ x1 s t, exec (.helloTx x1) s = .next t → s.OtherRegsKept
      [.admission, .macpcs, .matrix, .tally, .half, .lookout] t)
  ∧ (∀ x1 s t, exec (.extraHello x1) s = .next t → s.OtherRegsKept
      [.admission, .macpcs, .matrix, .tally, .half, .lookout] t)
  ∧ (∀ x1 s t, exec (.ewRecompute x1) s = .next t → s.OtherRegsKept [.half, .lookout] t)
  ∧ (∀ x1 x2 s t, exec (.boostOn x1 x2) s = .next t → s.OtherRegsKept [.wlem, .lookout] t)
  ∧ (∀ x1 x2 s t, exec (.boostOff x1 x2) s = .next t → s.OtherRegsKept [.wlem, .lookout] t)
  ∧ (∀ s t, exec .eastCopyApply s = .next t → s.OtherRegsKept [.maint, .wlem, .lookout] t)
  ∧ (∀ x1 x2 s t u, s.Posts .host (pgWlem x1.val) Reg.wlMigrate → exec (.wlMigrate x1 x2) s = .next t →
      exec (.postedWritePerformed (pgWlem x1.val)) t = .next u → t.regs = s.regs ∧ s.OtherRegsKept [.maint, .wlem, .lookout] u)
  ∧ (∀ x1 x2 s t, exec (.tcamParityScan x1 x2) s = .next t → s.OtherRegsKept [.tcam, .lookout] t)
  ∧ (∀ x1 x2 s t, exec (.busMasterEnable x1 x2) s = .next t → s.OtherRegsKept [.hostdma, .lookout] t)
  ∧ (∀ s t, exec .poisonedWrite s = .next t → s.OtherRegsKept [.hostdma, .lookout] t)
  ∧ (∀ x1 s t, exec (.descriptorComplete x1) s = .next t → s.OtherRegsKept [.hostdma, .lookout] t)
  ∧ (∀ x1 s t, exec (.dmaReadError x1) s = .next t → s.OtherRegsKept [.firebreak, .hostdma, .maint, .lookout] t)
  ∧ (∀ x1 x2 s t, s.WritesNow x1 pgCruiser Reg.crBwCtrl →
      exec (.winLengthWrite x1 x2) s = .next t → s.OtherRegsKept [.cruiser, .lookout] t)
  ∧ (∀ x1 s t, s.WritesNow x1 pgCruiser Reg.crCtrl → exec (.snap x1) s = .next t → s.OtherRegsKept [.cruiser, .lookout] t)
  ∧ (∀ s t, exec .snapshotCapture s = .next t → s.OtherRegsKept [.cruiser, .lookout] t)
  ∧ (∀ x1 s t, s.WritesNow .host pgLookout Reg.loClr →
      exec (.loClr x1) s = .next t → s.OtherRegsKept [.lookout] t)
  ∧ (∀ s t, exec .powerSample s = .next t → s.OtherRegsKept [.maint, .wlem, .firebreak, .lookout] t)
  ∧ (∀ x1 s t, exec (.capEvaluate x1) s = .next t → s.OtherRegsKept [.maint, .wlem, .firebreak, .lookout] t)
  ∧ (∀ x1 x2 x3 s t, exec (.fbCalUpdate x1 x2 x3) s = .next t → s.OtherRegsKept [.chip, .firebreak, .forester, .lookout] t)
  ∧ (∀ s t, exec .calStale s = .next t → s.OtherRegsKept [.firebreak, .lookout] t)
  ∧ (∀ s t, exec .deferralLimit s = .next t → s.OtherRegsKept [.maint, .wlem, .firebreak, .lookout] t)
  ∧ (∀ x1 x2 s t, s.WritesNow x1 pgFirebreak Reg.fbCtrl →
      exec (.fixed x1 x2) s = .next t → s.OtherRegsKept [.maint, .wlem, .firebreak, .lookout] t)
  ∧ (∀ x1 x2 s t, exec (.droopOnset x1 x2) s = .next t → s.OtherRegsKept [.firebreak, .lookout] t)
  ∧ (∀ x1 s t, exec (.tempSample x1) s = .next t → s.OtherRegsKept [.firebreak, .hbm, .lookout] t)
  ∧ (∀ s t, exec .thermalStep s = .next t → s.OtherRegsKept [.maint, .wlem, .firebreak, .lookout] t)
  ∧ (∀ x1 x2 s t, exec (.supplyWarning x1 x2) s = .next t → s.OtherRegsKept [.maint, .wlem, .firebreak, .lookout] t)
  ∧ (∀ x1 s t, exec (.supplyRecovery x1) s = .next t → s.OtherRegsKept [.lookout] t)
  ∧ (∀ s t, exec .uvRelease s = .next t → s.OtherRegsKept [.maint, .wlem, .firebreak, .lookout] t)
  ∧ (∀ x1 s t, s.WritesNow .host pgFirebreak Reg.fbHint →
      exec (.hint x1) s = .next t → s.OtherRegsKept [.firebreak, .lookout] t)
  ∧ (∀ s t, exec .hintAck s = .next t → s.OtherRegsKept [.maint, .wlem, .firebreak, .lookout] t)
  ∧ (∀ s t, exec .hintWindowEnd s = .next t → s.OtherRegsKept [.maint, .wlem, .firebreak, .lookout] t)
  ∧ (∀ s t, exec .pmbusErr s = .next t → s.OtherRegsKept [.maint, .wlem, .firebreak, .lookout] t)
  ∧ (∀ x1 s t, exec (.alertN x1) s = .next t → s.OtherRegsKept [.lookout] t)
  ∧ (∀ s t, exec .handover s = .next t → s.OtherRegsKept [.forester, .lookout] t)
  ∧ (∀ x1 x2 s t, exec (.headClaim x1 x2) s = .next t → s.OtherRegsKept [.forester, .lookout] t)
  ∧ (∀ s t, exec .leaseExpire s = .next t → s.OtherRegsKept [.forester, .lookout] t)
  ∧ (∀ x1 s t, exec (.lockstepMismatch x1) s = .next t → s.OtherRegsKept [.forester, .lookout] t)
  ∧ (∀ s t, exec .noHead s = .next t → s.OtherRegsKept [.forester, .lanes1, .lookout] t)
  ∧ (∀ x1 x2 s t, exec (.pllLock x1 x2) s = .next t → s.OtherRegsKept [.lanes1, .lookout] t)
  ∧ (∀ x1 x2 s t, exec (.pllUnlock x1 x2) s = .next t → s.OtherRegsKept [.lanes1, .lookout] t)
  ∧ (∀ x1 s t, exec (.recalLiveDone x1) s = .next t → s.OtherRegsKept [.macpcs, .lookout] t)
  ∧ (∀ s t, exec .flumeChannelDown s = .next t → s.OtherRegsKept [.lookout] t)
  ∧ (∀ s t, exec .flumeChannelUp s = .next t → s.OtherRegsKept [.forester, .lookout] t)
  ∧ (∀ s t, exec .startUpWipeDone s = .next t → s.OtherRegsKept [.lifecycle, .lookout] t)

/-- Frame of the BUS commands (R38 to R59): a read changes no block register; a write, a clear, a lock, a window command and
a fence change the registers named and nothing else of the machine. -/
def Obligations.BusFrame : Prop :=
  ∀ s t : State,
    (∀ a, exec (.counterLowRead a) s = .next t → t = { s with
      bus := t.bus, out := t.out, regs := t.regs, lookout := t.lookout } ∧ s.OtherRegsKept [.chip, .lookout] t)
    ∧ (∀ a, a.bar2 = true → exec (.registerWrite a) s = .next t →
      t = { s with bus := t.bus, host := t.host, out := t.out })
    ∧ (∀ a r, s.Reaches true a → s.PlainReg (accPage a) (accOff a) r → exec (.registerWrite a) s = .next t →
      t = { s with bus := t.bus, regs := t.regs, lookout := t.lookout }
      ∧ ∀ p o, p ≠ pgChip → p ≠ pgLookout → (p ≠ accPage a ∨ (o ≠ accOff a ∧ o ≠ Reg.winStat ∧ o ≠ 0x10)) →
        t.reg p o = s.reg p o)
    ∧ (∀ req p v, s.Reaches true (accessTo req p Reg.pgEvt v) → exec (.pgEvtClear req p v) s = .next t →
      t = { s with bus := t.bus, regs := t.regs, lookout := t.lookout }
      ∧ ∀ p' o, p' ≠ pgLookout → (p' ≠ p ∨ o ≠ 0x10) → t.reg p' o = s.reg p' o)
    ∧ (∀ req p, s.Reaches true (accessTo req p Reg.pgLock 1) → exec (.pgLock req p) s = .next t →
      t = { s with bus := t.bus, regs := t.regs } ∧ ∀ p' o, (p' ≠ p ∨ o ≠ Reg.pgLock) → t.reg p' o = s.reg p' o)
    ∧ (∀ req p (n : Fin 32), s.Reaches true (accessTo req p Reg.winCmd (winCmdWord 1 n.val)) → pageSlow p = true →
      s.wbusy p = false → exec (.winRead req p n) s = .next t →
      t = { s with bus := t.bus, regs := t.regs } ∧ ∀ p' o, (p' ≠ p ∨ o ≠ Reg.winStat) → t.reg p' o = s.reg p' o)
    ∧ (∀ req p (n : Fin 32), s.Reaches true (accessTo req p Reg.winCmd (winCmdWord 2 n.val)) → pageSlow p = true →
      s.wbusy p = false → exec (.winWrite req p n) s = .next t →
      t = { s with bus := t.bus, regs := t.regs } ∧ ∀ p' o, (p' ≠ p ∨ o ≠ Reg.winStat) → t.reg p' o = s.reg p' o)
    ∧ (∀ req p hi (n : Fin 32), s.Reaches true (accessTo req p Reg.winCmd (winCmdWord (if hi then 3 else 0) n.val)) →
      pageSlow p = true → s.wbusy p = false → exec (.winBadOp req p hi n) s = .next t →
      t = { s with bus := t.bus, regs := t.regs } ∧ ∀ p' o, (p' ≠ p ∨ o ≠ Reg.winStat) → t.reg p' o = s.reg p' o)
    ∧ (∀ req, s.Reaches true (accessTo req pgOrder Reg.orderFence 0) → exec (.fence req) s = .next t →
      t = { s with bus := t.bus })
    ∧ (∀ req, (∀ x ∈ s.bus.held, x.acc.req ≠ req) → exec (.fenceDone req) s = .next t →
      t = { s with bus := t.bus, regs := t.regs, rings := t.rings } ∧ s.OtherRegsKept [.order] t
      ∧ ((∀ c, s.rings.waiting = some c → c.req ≠ req) → t.rings = s.rings))
    ∧ (∀ req, s.Reaches true (accessTo req pgLifecycle Reg.lcCtrl 0) → s.wbusy pgLifecycle = false →
      exec (.mcClearLock req) s = .next t ∨ exec (.debugLock req) s = .next t → t = { s with bus := t.bus })
    ∧ (∀ req p o v, s.Reaches true (accessTo req p o v) → o < 0x10000 → isHigh p o = true → pageSlow p = false →
      readOnly p o = false → s.lockHits p o = false → exec (.counterHighWrite req p o v) s = .next t →
      t = { s with bus := t.bus })
    ∧ (∀ req p o v, s.Reaches true (accessTo req p o v) → o < 0x10000 → isWide p o = true → isHigh p o = false →
      pageSlow p = false → readOnly p o = false → s.lockHits p o = false →
      exec (.counterLowWrite req p o v) s = .next t →
      t = { s with bus := t.bus, regs := t.regs, cruiser := t.cruiser } ∧ ∀ p' o', p' ≠ p → t.reg p' o' = s.reg p' o')

/-- TIME commands complete (R288 to R290, R473): the host's writes of SET and STEP load and move PTP time modulo 2^48
seconds and set STEPPED; with bank M2 on, the PPS_OUT pin rises at a whole second and falls WIDTH later, and a selected PPS_IN
edge captures the time; a lost reference is reported. -/
def Obligations.TimeCommandsComplete : Prop :=
  ∀ s : State, s.live = true →
    (s.WritesNow .host pgTime Reg.tmCmd → ∃ t, exec .set s = .next t
      ∧ t.clk.ptp = (s.rf pgTime Reg.tmSetHi 0 16 * 2 ^ 32 * 1000000000 + nsOfTs (s.reg64 pgTime Reg.tmSet))
          % (2 ^ 48 * 1000000000)
      ∧ t.rbit pgTime 0x10 evStepped = true)
    ∧ (s.WritesNow .host pgTime Reg.tmCmd → ∃ t, exec .step s = .next t
      ∧ (t.clk.ptp : Int) = ((s.clk.ptp : Int) + signed 64 (s.reg64 pgTime Reg.tmStep)) % (2 ^ 48 * 1000000000 : Nat)
      ∧ t.rbit pgTime 0x10 evStepped = true)
    ∧ (s.rbit pgTime Reg.tmPps 0 = true → s.ioBank 2 = true → s.atSecond = true → s.ppsHigh = none →
      ∃ t, exec (.ppsOut true) s = .next t ∧ t.ppsHigh = some s.clk.up)
    ∧ (∀ u, s.ppsHigh = some u → u + s.ppsWidth ≤ s.clk.up → ∃ t, exec (.ppsOut false) s = .next t ∧ t.ppsHigh = none)
    ∧ (∀ rising, s.rbit pgTime Reg.tmPps 1 = true → s.ioBank 2 = true → (s.rbit pgTime Reg.tmPps 2 != rising) = true →
      ∃ t, exec (.ppsIn rising) s = .next t ∧ t.reg64 pgTime Reg.tmPpsCap = tsOf s.now
        ∧ t.rf pgTime Reg.tmPpsCapHi 0 16 = s.now / 1000000000 / 2 ^ 32 % 65536 ∧ t.rbit pgTime 0x10 evPpsIn = true)
    ∧ (s.rbit pgTime Reg.tmCtrl 0 = true → ∃ t, exec .refLoss s = .next t ∧ t.rbit pgTime 0x10 evRefLoss = true)

/-- Matrix commands complete (R50, R301 to R303): the host's write of a sweep waits in the posting buffer of its page; when it is
performed it zeroes every pair, histogram or drop pair of the half at once, and the sweep runs until CLR_DONE, which ends it and
sets the event. -/
def Obligations.MatrixCommandsComplete : Prop :=
  ∀ (s : State) (h : Half), s.live = true →
    (s.Posts .host (pgMatrix h.val) Reg.mxCtrl →
      (∃ t u, exec (.clrMx h) s = .next t ∧ t.wbusy (pgMatrix h.val) = true ∧ t.matrix = s.matrix
        ∧ exec (.postedWritePerformed (pgMatrix h.val)) t = .next u
        ∧ (u.matrixOf h.val).cells = [] ∧ (u.matrixOf h.val).swMx = true
        ∧ u.reg64 (pgMatrix h.val) Reg.mxTotalPkts = 0 ∧ u.reg64 (pgMatrix h.val) Reg.mxTotalBytes = 0)
      ∧ (∃ t u, exec (.clrHist h) s = .next t ∧ t.wbusy (pgMatrix h.val) = true ∧ t.matrix = s.matrix
        ∧ exec (.postedWritePerformed (pgMatrix h.val)) t = .next u
        ∧ (u.matrixOf h.val).hist = [] ∧ (u.matrixOf h.val).swHist = true)
      ∧ (∃ t u, exec (.clrDrop h) s = .next t ∧ t.wbusy (pgMatrix h.val) = true ∧ t.matrix = s.matrix
        ∧ exec (.postedWritePerformed (pgMatrix h.val)) t = .next u
        ∧ (u.matrixOf h.val).drops = [] ∧ (u.matrixOf h.val).swDrop = true))
    ∧ ((s.matrixOf h.val).sweeping = true →
      ∃ t, exec (.clrDone h) s = .next t ∧ (t.matrixOf h.val).sweeping = false ∧ t.rbit (pgMatrix h.val) 0x10 0 = true)

/-- Tally commands complete (R310, R311, R313, R316): while Tally takes updates, an eviction merges the deltas at the front of the
queue whose turn it is into the record of their key, and a line that has held deltas for TY_CACHE_MAX is written back to its
eviction queue; the host's writes of EXPORT_ALL and CLEAR wait in the posting buffer of their page, and performed they start a
sweep over all 2^22 buckets, and invalidate every line and record; a CLEAR that runs ends with its event; an uncorrectable error
in a bucket clears the bucket's four records and reports HBM_LOST. -/
def Obligations.TallyCommandsComplete : Prop :=
  ∀ (s : State) (h : Half), s.live = true → s.halfUp h.val = true →
    (∀ i d ds k r, (s.hbmOf h.val).st = .ready → s.pacePass h.val = true →
      (s.tallyOf h.val).nextQueue (s.tallyOf h.val).turn 16 = some i →
      AMap.get [] (s.tallyOf h.val).evq i = d :: ds → (s.tallyOf h.val).flushq = [] →
      (s.tallyOf h.val).findKey d.1.key ((s.tallyOf h.val).slotsOf d.1.key) = some k →
      AMap.get none (s.tallyOf h.val).recs k = some r → r.pkts + d.1.pkts < 2 ^ 40 → r.drops + d.1.drops < 2 ^ 32 →
      ∃ t, exec (.tallyEviction h) s = .next t
        ∧ AMap.get none (t.tallyOf h.val).recs k = some (r.merge d.1) ∧ AMap.get [] (t.tallyOf h.val).evq i = ds)
    ∧ (∀ (sl : Slice) (line : Fin 65536) (l : Line) (d : Nat), sliceHalf sl.val = h.val → s.tallyRuns h.val = true →
      AMap.get none (s.tallyOf h.val).lines (sl.val % 16 * 65536 + line.val) = some l → l.dirty = some d →
      d + s.cacheMax h.val ≤ s.clk.up → l.rec_.pkts ≠ 0 → (AMap.get [] (s.tallyOf h.val).evq (sl.val % 16)).length < 32 →
      ∃ t, exec (.cacheWriteback sl line) s = .next t
        ∧ AMap.get [] (t.tallyOf h.val).evq (sl.val % 16)
            = AMap.get [] (s.tallyOf h.val).evq (sl.val % 16) ++ [(l.rec_, false)])
    ∧ (s.Posts .host (pgTally h.val) Reg.tyCtrl → ∃ t u, exec (.exportAll h) s = .next t ∧ t.wbusy (pgTally h.val) = true
        ∧ t.tally = s.tally ∧ exec (.postedWritePerformed (pgTally h.val)) t = .next u
        ∧ (u.tallyOf h.val).exportAll = true ∧ (u.tallyOf h.val).expLeft = 2 ^ 22)
    ∧ (s.Posts .host (pgTally h.val) Reg.tyCtrl → ∃ t u, exec (.clear h) s = .next t ∧ t.wbusy (pgTally h.val) = true
        ∧ t.tally = s.tally ∧ exec (.postedWritePerformed (pgTally h.val)) t = .next u
        ∧ (u.tallyOf h.val).lines = [] ∧ (u.tallyOf h.val).recs = [] ∧ (u.tallyOf h.val).clearing = true)
    ∧ ((s.tallyOf h.val).clearing = true → ∃ t, exec (.clearDone h) s = .next t ∧ (t.tallyOf h.val).clearing = false
        ∧ t.rbit (pgTally h.val) 0x10 evClearDone = true)
    ∧ (∀ bucket ok, ∃ t, exec (.hbmLost h bucket ok) s = .next t ∧ t.rbit (pgTally h.val) 0x10 evHbmLost = true
        ∧ ∀ k ∈ bucketSlots bucket.val, AMap.get none (t.tallyOf h.val).recs k = none)

/-- The other Tally and HBM commands complete (R314 to R316, R319, R322): the host's writes of FLUSH and RETRAIN wait in the
posting buffers of their pages; performed, a FLUSH with nothing to write back ends at once, and one with a line to write back puts
it into its eviction queue, and a retrain holds the stack until it ends, READY or FAILED; the
scanner's visit exports a record past its idle timeout and clears it; the overflow records go out together; a message that
has waited 1 s leaves. -/
def Obligations.ExportAndHbmCommandsComplete : Prop :=
  ∀ (s : State) (h : Half), s.live = true → s.halfUp h.val = true →
    (s.Posts .host (pgTally h.val) Reg.tyCtrl → (∀ e ∈ (s.tallyOf h.val).lines, ∀ l, e.2 = some l → l.rec_.pkts = 0) →
      (∀ e ∈ (s.tallyOf h.val).evq, e.2 = []) →
      ∃ t u, exec (.flush h) s = .next t ∧ t.wbusy (pgTally h.val) = true
        ∧ exec (.postedWritePerformed (pgTally h.val)) t = .next u ∧ (u.tallyOf h.val).flush = false
        ∧ u.rbit (pgTally h.val) 0x10 evFlushDone = true)
    ∧ (∀ k l, s.Posts .host (pgTally h.val) Reg.tyCtrl → s.tallyRuns h.val = true → (s.tallyOf h.val).lines = [(k, some l)] →
      l.rec_.pkts ≠ 0 → (AMap.get [] (s.tallyOf h.val).evq (k / 65536)).length < 32 →
      ∃ t u, exec (.flush h) s = .next t ∧ t.wbusy (pgTally h.val) = true
        ∧ exec (.postedWritePerformed (pgTally h.val)) t = .next u ∧ (u.tallyOf h.val).flush = true
        ∧ AMap.get none (u.tallyOf h.val).lines k = some l.cleared
        ∧ AMap.get [] (u.tallyOf h.val).evq (k / 65536)
            = (AMap.get [] (s.tallyOf h.val).evq (k / 65536)).map (fun x => (x.1, true)) ++ [(l.rec_, true)])
    ∧ (∀ (r : FlowRec), s.scanRuns h.val = true → (s.tallyOf h.val).exportAll = false → s.rf (pgTally h.val) Reg.tyXctl 0 2 = 1 →
      AMap.get none (s.tallyOf h.val).recs (4 * (s.tallyOf h.val).cursor) = some r → s.scanCause h.val r false = some 0 →
      (∀ j, 1 ≤ j → j ≤ 3 → AMap.get none (s.tallyOf h.val).recs (4 * (s.tallyOf h.val).cursor + j) = none) →
      s.ipfixFull h.val { rec_ := r, cause := 0, half := h.val } = false →
      ∃ t, exec (.scanVisit h) s = .next t
        ∧ (t.tallyOf h.val).msg = (s.tallyOf h.val).msg ++ [{ rec_ := r, cause := 0, half := h.val }]
        ∧ AMap.get none (t.tallyOf h.val).recs (4 * (s.tallyOf h.val).cursor) = none)
    ∧ (s.scanRuns h.val = true → (s.tallyOf h.val).ovfIdx = 0 →
      (s.tallyOf h.val).ovfAt + s.ovfInterval h.val ≤ s.clk.up → 2 ≤ s.rf (pgTally h.val) Reg.tyXctl 0 2 →
      ∃ t, exec (.overflowExport h) s = .next t ∧ (t.tallyOf h.val).ovfAt = s.clk.up ∧ (t.tallyOf h.val).ovfPend = false)
    ∧ ((s.tallyOf h.val).msg ≠ [] → (s.tallyOf h.val).msgAt + 1000000000 ≤ s.clk.up →
      ∃ t, exec (.ipfixMessage h) s = .next t ∧ (t.tallyOf h.val).msg = []
        ∧ (t.tallyOf h.val).seq = ((s.tallyOf h.val).seq + (s.tallyOf h.val).msg.length) % 2 ^ 32)
    ∧ (s.Posts .host (pgHbm h.val) Reg.hbCtrl → (s.hbmOf h.val).st = .ready →
      ∃ t u, exec (.retrain h) s = .next t ∧ t.wbusy (pgHbm h.val) = true
        ∧ exec (.postedWritePerformed (pgHbm h.val)) t = .next u ∧ (u.hbmOf h.val).st = .retrain
        ∧ u.rbit (pgHbm h.val) 0x10 evRetrainStart = true)
    ∧ ((s.hbmOf h.val).st = .retrain → ∀ failed, ∃ t, exec (.retrainDone h failed) s = .next t
        ∧ (t.hbmOf h.val).st = (if failed then .failed else .ready)
        ∧ t.rbit (pgHbm h.val) 0x10 (if failed then evHbmFailed else evRetrainDone) = true)

/-- RING commands complete (R223 to R234): an accepted commit waits, with a fence of its requester, and a second is refused;
CANCEL withdraws one before its time; it becomes ready, and at its time the staging ring becomes CURRENT with the next
generation and the old one retires; samples are taken; a ring that is too old expires; the scan takes an
expired frame out of its queue; a write of RING_MAXAGE stores it. -/
def Obligations.RingCommandsComplete : Prop :=
  ∀ s : State, s.live = true →
    (∀ req at_, s.WritesNow req pgRing Reg.ringCtrl → s.rings.waiting = none → ∃ t, exec (.commit req at_) s = .next t
      ∧ t.fenceRuns req = true
      ∧ t.rings.waiting = some { req := req, atT := if at_ then some (nsOfTs (s.reg64 pgRing Reg.ringTime)) else none })
    ∧ (∀ req at_ c, s.WritesNow req pgRing Reg.ringCtrl → s.rings.waiting = some c →
      ∃ t, exec (.commit req at_) s = .next t ∧ t.rings.waiting = some c
      ∧ t.rings.rej = 1 ∧ t.rbit pgRing 0x10 evRefused = true)
    ∧ (∀ req c, s.WritesNow req pgRing Reg.ringCtrl → s.rings.waiting = some c → (∀ e, c.tEff = some e → s.now < e) →
      ∃ t, exec (.cancel req) s = .next t
      ∧ t.rings.waiting = none ∧ t.rings.rej = 3)
    ∧ (∀ c, s.rings.waiting = some c → c.ready = none → s.writesWait c.req = false → s.stagedRuns = false →
      s.ringLive s.rings.staging.val = false →
      ∃ t, exec .commitReady s = .next t ∧ t.rings.waiting = some { c with ready := some s.now })
    ∧ (∀ c e, s.rings.waiting = some c → c.tEff = some e → e ≤ s.now → (s.halfUp 1 = true → s.flumeUp = true) →
      s.kerfPages.find? s.bankBusy = none →
      ∃ t, exec .commitTakeEffect s = .next t ∧ t.rings.cur = s.rings.staging ∧ t.rings.gen = s.rings.gen + 1
        ∧ t.rings.waiting = none ∧ (t.ringRec s.rings.staging.val).st = .current
        ∧ (t.ringRec s.rings.cur.val).st = .retiring)
    ∧ (∃ t, exec .inflightSample s = .next t ∧ ∀ r : Ring, (t.ringRec r.val).sample = s.holders r.val)
    ∧ (∀ r : Ring, (s.ringRec r.val).st = .retiring → (s.ringRec r.val).expired = false →
      (s.ringRec r.val).tRet + maxAgeNs (s.reg pgRing Reg.ringMaxage) ≤ s.now →
      ∃ t, exec (.ringExpire r) s = .next t ∧ (t.ringRec r.val).expired = true ∧ t.rbit pgRing 0x10 evExpired = true)
    ∧ (∀ (h : Half) q i, s.halfUp h.val = true → queueHalf q = h.val → i ∈ s.queue q → s.frameExpired i = true →
      (∀ r j, r ≠ q → j ∈ s.queue r → s.frameExpired j = false) →
      ∃ t, exec (.expiryScan h) s = .next t ∧ i ∉ t.queue q)
    ∧ (∀ req value, s.WritesNow req pgRing Reg.ringMaxage → ∃ t, exec (.ringMaxage req value) s = .next t
      ∧ t.reg pgRing Reg.ringMaxage = value &&& 0xFFFFF)

/-- DECK commands complete (R240 to R259): a unicast frame that passes every check joins its queue; a cell is taken with its
owner tag and freed by the same tag; a cache takes the next two link words of its list; a frame held too long is dropped; the
lowest free pool cell is handed out and given back; errors are reported; a broken list is rebuilt; initialisation frees every
cell outside a pool; PFC frames leave, fall due again, and a pause ends. -/
def Obligations.DeckCommandsComplete : Prop :=
  ∀ (s : State) (h : Half), s.live = true →
    (∀ i is, s.halfUp h.val = true → (s.pathOf h.val).arrivals = i :: is → (s.frame i).bad = 0 →
      (s.deckOf h.val).initing = false → (s.frame i).punted = false → (s.frame i).tag ≠ 0xC000 →
      s.expiredCheck (s.frame i).ring = none → s.portCheck (s.frame i).q = none →
      s.classCheck (s.frame i).half ((s.frame i).q % 32) = none →
      s.queueCheck (s.frame i).q (vColor (s.frame i).vecIn) = none →
      ∃ t, exec (.admission h) s = .next t ∧ t.queue (s.frame i).q = s.queue (s.frame i).q ++ [i]
        ∧ (t.frame i).tag = queueTag (s.frame i).q)
    ∧ (∀ (rq : Fin 24) i is c cs, s.deckUp h.val = true → AMap.get [] (s.deckOf h.val).waiting rq.val = i :: is →
      (s.frame i).need = 1 → ((s.deckOf h.val).list ((s.deckOf h.val).firstList rq.val (s.frame i))).cache = c :: cs →
      ((s.deckOf h.val).list ((s.deckOf h.val).firstList rq.val (s.frame i))).broken = false →
      ∃ t, exec (.cellAlloc h rq) s = .next t ∧ (t.frame i).cells = (s.frame i).cells ++ [c]
        ∧ (t.deckOf h.val).tag c = (s.frame i).tag)
    ∧ (∀ (rq : Fin 24) cell (tag : BitVec 16), s.deckUp h.val = true → (s.deckOf h.val).tag cell = tag.toNat →
      tag.toNat ≠ 0 → tag.toNat < 0x8000 ∨ (0x8008 ≤ tag.toNat ∧ tag.toNat < 0xFFFF) →
      ∃ t, exec (.cellFree h rq cell tag) s = .next t ∧ (t.deckOf h.val).tag cell = 0
        ∧ (t.deckOf h.val).free = (s.deckOf h.val).free + 1)
    ∧ (∀ (l : Fin 64) c x c', s.deckUp h.val = true → ((s.deckOf h.val).list l.val).broken = false →
      ((s.deckOf h.val).list l.val).cache.length ≤ 6 →
      ((s.deckOf h.val).list l.val).pop (s.deckOf h.val).pools l.val = some (c, x) →
      (x.pop (s.deckOf h.val).pools l.val).map (·.1) = some c' → (s.deckOf h.val).tag c ≠ 0xFFFF →
      (s.deckOf h.val).tag c' ≠ 0xFFFF →
      ∃ t, exec (.refill h l) s = .next t
        ∧ ((t.deckOf h.val).list l.val).cache = ((s.deckOf h.val).list l.val).cache ++ [c, c'])
    ∧ (∀ (rq : Fin 24) i is x, s.deckUp h.val = true → AMap.get none (s.deckOf h.val).hold rq.val = some x →
      AMap.get [] (s.deckOf h.val).waiting rq.val = i :: is → x + s.stallMax h.val ≤ s.clk.up →
      ∃ t, exec (.bufferStall h rq) s = .next t ∧ t.rbit (pgDeck h.val) 0x10 evStallDrop = true
        ∧ ((s.frame i).started = false → (s.frame i).copied = false → (s.frame i).tag ≠ 0xC001 → (s.frame i).tag ≠ 0xC000 →
          AMap.get none t.frames i = none))
    ∧ (∀ req (n : Fin 8) c, s.WritesNow req (pgDeck h.val) (0x208 + 0x20 * n.val) →
      (s.deckOf h.val).freePoolCell ((s.deckOf h.val).pool n.val).base
        ((s.deckOf h.val).pool n.val).size = some c →
      ∃ t, exec (.poolAlloc req h n) s = .next t ∧ (t.deckOf h.val).tag c = 0x8000 + n.val
        ∧ AMap.get 0 (t.deckOf h.val).poolRes (reqIdx req) = BitVec.ofNat 32 (c + 2 ^ 31))
    ∧ (∀ req (n : Fin 8) (cell : BitVec 20), s.WritesNow req (pgDeck h.val) (0x20C + 0x20 * n.val) →
      (s.deckOf h.val).tag cell.toNat = 0x8000 + n.val →
      ∃ t, exec (.poolFree req h n cell) s = .next t ∧ (t.deckOf h.val).tag cell.toNat = 0)
    ∧ (s.deckUp h.val = true → ∀ e, ∃ t, exec (.deckEccError h e) s = .next t
        ∧ t.rbit (pgDeck h.val) 0x10 (match e with | .corrected => evDkCorr | _ => evDkUncorr) = true)
    ∧ (∀ (l : Fin 64), s.deckUp h.val = true → ((s.deckOf h.val).list l.val).broken = true →
      ∃ t, exec (.listRebuild h l) s = .next t ∧ ((t.deckOf h.val).list l.val).broken = false
        ∧ t.rbit (pgDeck h.val) 0x10 evListRebuild = true)
    ∧ ((s.deckOf h.val).initing = true → ∃ t, exec (.deckInitDone h) s = .next t ∧ (t.deckOf h.val).initing = false
      ∧ (t.deckOf h.val).pools = (s.initPools h.val 8).1
      ∧ (t.deckOf h.val).free = cellCount - ((s.initPools h.val 8).1.map (·.2.size)).sum)
    ∧ (∀ (p : Port), (s.port p.val).linkUp = true → (s.schedOf p.val).tx = none →
      (AMap.get {} s.pfcTx p.val).due ≠ [] →
      ∃ t bs, exec (.pfcFrameTx p) s = .next t ∧ (s.portSends p.val = true → t.out = s.out ++ [.pfc p.val bs])
        ∧ (cfgLpbk (s.port p.val).cfg ≠ 1 → (AMap.get {} t.pfcTx p.val).due = []))
    ∧ (∀ (p : Port) (r : Fin 8), AMap.get false (AMap.get {} s.pfcTx p.val).xoff r.val = true →
      AMap.get 0 (AMap.get {} s.pfcTx p.val).sent r.val + s.refreshNs p.val ≤ s.clk.up →
      ∃ t, exec (.pfcRefresh p) s = .next t ∧ AMap.get false (AMap.get {} t.pfcTx p.val).due r.val = true)
    ∧ (∀ (p : Port) (r : Fin 8), AMap.get 0 (s.schedOf p.val).pause r.val ≤ s.clk.up →
      ∃ t, exec (.pauseExpire p r) s = .next t ∧ AMap.get 0 (t.schedOf p.val).pause r.val = 0)

/-- FLUME and replication commands complete (R27, R265, R267, R270): the next frame of a channel, with the number that is expected
of its source, passes to step 4; an uncorrectable flit in the rest of a frame that was taken before its tail marks it FLUME_ERROR;
a frame at the head of the replication queue whose group has one valid copy entry makes one copy, which joins its queue; the
host's write of DRAIN marks every frame that waits in the replication queue. -/
def Obligations.ReplicationCommandsComplete : Prop :=
  ∀ s : State, s.live = true →
    (∀ (h : Half) ch x, s.halfUp h.val = true → AMap.get none (s.deckOf h.val).hold 16 = none →
      (s.pathOf h.val).transit.find? (fun y => decide (y.chan = Fin.val ch)) = some x →
      AMap.get 0 (s.pathOf h.val).seqExp x.src = x.seq → x.seq < 2 ^ 24 →
      ∃ t, exec (.flumeReceive h (.frame ch false)) s = .next t
        ∧ (t.pathOf h.val).transit = (s.pathOf h.val).transit.erase x
        ∧ (t.pathOf h.val).arrivals = (s.pathOf h.val).arrivals ++ [x.frame]
        ∧ AMap.get 0 (t.pathOf h.val).seqExp x.src = (x.seq + 1) % 2 ^ 24)
    ∧ (∀ (h : Half) i, (s.frame i).tail = false → (s.frame i).half = h.val → portHalf (s.frame i).src = 1 - h.val →
      AMap.get none s.frames i = some (s.frame i) → (s.frame i).bad = 0 →
      ∃ t, exec (.flumeReceive h (.rest i)) s = .next t ∧ (t.frame i).bad = rFlume)
    ∧ (∀ (h : Half) i is e q, s.deckUp h.val = true → (s.pathOf h.val).repl = i :: is → (s.frame i).bad = 0 →
      (s.ringRec (s.frame i).ring).expired = false →
      fld (s.repGrp h.val (vDest (s.frame i).vecIn % 65536)) 18 11 = 1 →
      s.repCopy h.val (fld (s.repGrp h.val (vDest (s.frame i).vecIn % 65536)) 0 18) = e → bit e 31 = true →
      q = 32 * (512 * h.val + fld e 0 9) + 16 + vTc (s.frame i).vecIn → s.floodDrop (s.frame i) (q / 32) = none →
      s.portCheck q = none → s.queueCheck q (vColor (s.frame i).vecIn) = none →
      ∃ t, exec (.replicate h) s = .next t ∧ (t.pathOf h.val).repl = is ∧ t.queue q = s.queue q ++ [s.nextFrame])
    ∧ (∀ (h : Half), s.WritesNow .host (pgAdmit h.val) Reg.repCtrl → ∃ t, exec (.drain h) s = .next t
      ∧ ∀ i ∈ (s.pathOf h.val).repl, (t.frame i).mark = true)

/-- SCHEDULER commands complete (R271 to R273, R279, R280): the head of the queue that the round selects enters the start FIFO of
its port; the MAC takes the first frame of the start FIFO, which is then in transmission; the last byte of a frame rebuilt whole
leaves; a LINK_HOLD that has run out takes the port's queues down and marks their frames for the drop engine; when the drop
engine has ended no marked frame is left (of frames none of which is the master of another, as copies and masters stand). -/
def Obligations.QueueCommandsComplete : Prop :=
  ∀ s : State, s.live = true →
    (∀ (p : Port) pri c i is, s.sliceUp (portSlice p.val) = true → s.deckUp (portHalf p.val) = true →
      s.mayStart p.val = true → s.topLevel p.val 8 = some pri → AMap.get 0 (s.schedOf p.val).ptr pri = c →
      fld (s.scQ (32 * p.val + c)) 0 3 = pri → s.eligible (32 * p.val + c) = true →
      0 < AMap.get 0 s.deficit (32 * p.val + c) → s.queue (32 * p.val + c) = i :: is →
      (s.ringRec (s.frame i).ring).expired = false → (s.frame i).bad = 0 →
      ∃ t, exec (.schedule p) s = .next t ∧ t.queue (32 * p.val + c) = is
        ∧ (t.schedOf p.val).fifo = (s.schedOf p.val).fifo ++ [i])
    ∧ (∀ (p : Port) late i is g, s.sliceUp (portSlice p.val) = true → (s.schedOf p.val).ls = .up →
      (s.schedOf p.val).tx = none → (s.schedOf p.val).fifo = i :: is → (s.frame i).built = true →
      (s.frame i).bad = 0 → s.allHere (s.frame i) = true → (AMap.get {} s.pfcTx p.val).due = [] →
      s.rebuild p.val (s.frame i) = .inl g →
      ∃ t, exec (.macStart p late) s = .next t ∧ (t.schedOf p.val).tx = some i ∧ (t.schedOf p.val).fifo = is
        ∧ (t.frame i).started = true)
    ∧ (∀ (p : Port) i, s.sliceUp (portSlice p.val) = true → (s.schedOf p.val).tx = some i → (s.frame i).bad = 0 →
      s.allHere (s.frame i) = true → (s.frame i).out ≠ [] → (s.frame i).late = false →
      ∃ t, exec (.txLastByte p) s = .next t ∧ (if s.isSpan p.val = true then
          (t.span (spanPos p.val)).txq = (s.span (spanPos p.val)).txq ++ [((s.frame i).ptpOut, false)]
        else s.portSends p.val = true → .frame p.val (s.frame i).ptpOut false ∈ t.out))
    ∧ (∀ (p : Port), (s.schedOf p.val).ls = .hold → (s.schedOf p.val).holdAt + s.linkHold p.val ≤ s.now →
      ∃ t, exec (.linkHoldExpire p) s = .next t ∧ (t.schedOf p.val).ls = .down
        ∧ ∀ c, c < 32 → t.queue (32 * p.val + c) = []
          ∧ ∀ i ∈ s.queue (32 * p.val + c), i ∈ (t.schedOf p.val).flushed)
    ∧ (∀ (p : Port), (s.schedOf p.val).flushing = true →
      ∃ t, exec (.linkFlushDone p) s = .next t ∧ (t.schedOf p.val).flushing = false ∧ (t.schedOf p.val).flushed = []
        ∧ ((∀ i ∈ (s.schedOf p.val).flushed, ∀ j ∈ (s.schedOf p.val).flushed, (s.frame i).master ≠ some j) →
          ∀ i ∈ (s.schedOf p.val).flushed, AMap.get none t.frames i = none))

/-- RAFT commands complete (R328, R333, R341, R342, R344): a rise of EN takes DEVID and HOP_INIT; the East block takes the
West settings; hellos go out between frames, with the next sequence number, on lanes that carry data or in the stream of a span
port; a good hello of the same system brings its neighbour up, and silence takes it down; every weight in force is recomputed; a
peer hold lapses. -/
def Obligations.RaftCommandsComplete : Prop :=
  ∀ s : State, s.live = true →
    (∀ req (v : Word), s.WritesNow req (pgHalf 0) Reg.rfCtrl → s.rbit (pgHalf 0) Reg.rfCtrl 0 = false → bit v 0 = true →
      ∃ t, exec (.raftEnable req v) s = .next t ∧ t.rbit (pgHalf 0) Reg.rfCtrl 0 = true
        ∧ t.raft.devid = fld v 16 16 ∧ t.raft.hop = fld v 1 6)
    ∧ (s.flumeUp = true → s.halfUp 1 = true → ∃ t, exec .raftCfgSync s = .next t ∧ t.raft.east = s.raftWest)
    ∧ (∀ p : Port, s.hellos p.val = true → (s.schedOf p.val).tx = none →
      (∀ u, (s.nbr p.val).txAt = some u →
        u + intervalActs (s.raftCfg (portHalf p.val)).interval * 1000 ≤ s.clk.up) →
      ∃ t, exec (.helloTx p) s = .next t ∧ (t.nbr p.val).txAt = some s.clk.up
        ∧ (s.isSpan p.val = true → (t.span (spanPos p.val)).txq = (s.span (spanPos p.val)).txq
          ++ [(s.helloBytes p.val (((s.nbr p.val).txSeq + 1) % 2 ^ 32), false)])
        ∧ (s.isSpan p.val = false → s.portSends p.val = true →
          .hello p.val (s.helloBytes p.val (((s.nbr p.val).txSeq + 1) % 2 ^ 32)) ∈ t.out))
    ∧ (∀ p : Port, s.hellos p.val = true → (s.schedOf p.val).tx = none → s.helloChanged p.val = true →
      (∀ u, (s.nbr p.val).extraAt = some u → u + 100000 ≤ s.clk.up) →
      ∃ t, exec (.extraHello p) s = .next t ∧ (t.nbr p.val).extraAt = some s.clk.up
        ∧ (s.isSpan p.val = true → (t.span (spanPos p.val)).txq = (s.span (spanPos p.val)).txq
          ++ [(s.helloBytes p.val (((s.nbr p.val).txSeq + 1) % 2 ^ 32), false)])
        ∧ (s.isSpan p.val = false → s.portSends p.val = true →
          .hello p.val (s.helloBytes p.val (((s.nbr p.val).txSeq + 1) % 2 ^ 32)) ∈ t.out))
    ∧ (∀ (p : Port) bs, (s.raftCfg (portHalf p.val)).en = true → s.isRaftPort p.val = true →
      s.halfUp (portHalf p.val) = true → helloBad bs = false →
      BitVec.ofNat 32 (beAt bs 30 4) = (s.raftCfg (portHalf p.val)).sysid →
      raftWord bs 1 / 65536 ≠ (s.raftCfg (portHalf p.val)).devid →
      ∃ t, exec (.helloRx p bs) s = .next t ∧ (t.nbr p.val).st = .up ∧ (t.nbr p.val).heardAt = s.clk.up
        ∧ (t.nbr p.val).dev = raftWord bs 1 / 65536)
    ∧ (∀ p : Port, (s.nbr p.val).st = .up → (s.nbr p.val).heardAt + (s.nbr p.val).deadNs ≤ s.clk.up →
      ∃ t, exec (.neighbourDead p) s = .next t ∧ (t.nbr p.val).st = .down
        ∧ (∀ q, q ≠ p.val → t.nbr q = s.nbr q))
    ∧ (∀ (h : Half) g m, s.halfUp h.val = true → AMap.wf (fun _ => (0 : Word)) s.selRegs = true → g < 256 → m < 64 →
      ∃ t, exec (.ewRecompute h) s = .next t
        ∧ AMap.get 0 t.raft.ew (ewKey h.val g m) = s.memberEw h.val (s.rfMember h.val g m))
    ∧ (∀ r : Ring, (s.ringRec r.val).peerHold = true → s.ringHeld r.val = false →
      ∃ t, exec (.peerHoldLapse r) s = .next t ∧ (t.ringRec r.val).peerHold = false)

/-- The commands of a frame's way in and of the pipes complete (R81, R135 to R140, R144, R162): a good frame enters the
ingress FIFO; the tail ends the reception of a frame; the parser forms its vector; the host's write of SWAP waits in the posting
buffer of its page, performed it asks for a swap, and a swap asked for is done; a stage runs the microword that its bank holds and
passes the vector on; the deparser rebuilds the frame. -/
def Obligations.PipeCommandsComplete : Prop :=
  ∀ s : State, s.live = true →
    (∀ (p : Port) (f : RxFrame), cfgLpbk (s.port p.val).cfg = 0 → s.rxTakes p.val = true →
      (s.port p.val).linkUp = true → f.len ≤ f.bytes.length → rxReason (s.maxFrame p.val) f.bytes f.pcsErr = 0 →
      isMacControl f.bytes = false → s.fifoFill (portSlice p.val) + f.bytes.length ≤ 98304 →
      ∃ t, exec (.rxFrame p f) s = .next t
        ∧ (t.slice (portSlice p.val)).fifo = (s.slice (portSlice p.val)).fifo ++ [s.nextFrame]
        ∧ (t.frame s.nextFrame).data = f.bytes ∧ (t.frame s.nextFrame).src = p.val)
    ∧ (∀ (p : Port) (f : RxTail) root x, cfgLpbk (s.port p.val).cfg ≠ 2 → s.portReady p.val = true →
      (s.port p.val).rxOn = true → (s.port p.val).rxCur = some root → AMap.get none s.frames root = some x →
      x.root = root → ∃ t, exec (.tailArrival p f) s = .next t ∧ (t.port p.val).rxOn = false
        ∧ (t.frame root).tail = true
        ∧ (t.frame root).data = ((s.port p.val).rxBytes ++ f.bytes).take (s.maxFrame p.val))
    ∧ (∀ (sl : Slice) i is, s.sliceUp sl.val = true → s.blockUp (pgParser sl.val) = true →
      s.pipeRuns sl.val .ingress = true → (s.slice sl.val).swap = false →
      (s.slice sl.val).inj = [] → (s.slice sl.val).fifo = i :: is →
      (s.frame i).windowHere = true → (s.frame i).bad = 0 → (s.raftCfg (sliceHalf sl.val)).en = false →
      s.isSpan (s.frame i).src = false → (s.frame i).kind = .received →
      ∃ t, exec (.parse sl) s = .next t ∧ (t.slice sl.val).fifo = is
        ∧ (t.slice sl.val).stage 0 = (s.slice sl.val).stage 0 ++ [i]
        ∧ (t.frame i).ring = s.rings.cur.val
        ∧ (t.frame i).vec = formVec (s.frame i)
            (s.parse sl.val (s.slice sl.val).bank ((s.frame i).src % 32) ((s.frame i).data.take 256)
              (if (s.frame i).tail then some (s.frame i).len else none))
            { bank := (s.slice sl.val).bank, ring := s.rings.cur.val })
    ∧ (∀ sl : Slice, s.Posts .host (pgParser sl.val) Reg.ppCtrl →
      ∃ t u, exec (.swap sl) s = .next t ∧ t.wbusy (pgParser sl.val) = true
        ∧ exec (.postedWritePerformed (pgParser sl.val)) t = .next u ∧ (u.slice sl.val).swap = true)
    ∧ (∀ sl : Slice, (s.slice sl.val).swap = true → ∃ t, exec (.swapped sl) s = .next t
      ∧ (t.slice sl.val).bank = 1 - (s.slice sl.val).bank ∧ (t.slice sl.val).swap = false)
    ∧ (∀ (sl : Slice) dir (k : Fin 8) i is w, s.sliceUp sl.val = true → s.pipeRuns sl.val dir = true →
      k.val < 7 → (s.slice sl.val).stage (stageKey dir k.val) = i :: is → (s.frame i).bad = 0 →
      (s.frame i).fin = false → (s.frame i).passes = false →
      (k.val = 0 → dir = .ingress → s.stageZeroDrop sl.val (s.frame i) = none) →
      w = s.microAt (pgKerf sl.val dir k.val) (s.ringBank (pgKerf sl.val dir k.val) (s.frame i).ring)
        (if k.val = 0 ∧ dir = .ingress then vPclass (s.frame i).vec else (s.frame i).addr) →
      eccCheck w = .clean → mAct w = 0 → mMeterEn w = false →
      ∃ t, exec (.microwordExec sl dir k) s = .next t
        ∧ (t.slice sl.val).stage (stageKey dir k.val) = is
        ∧ (t.slice sl.val).stage (stageKey dir k.val + 1) = (s.slice sl.val).stage (stageKey dir k.val + 1) ++ [i]
        ∧ (t.frame i).vec = ((s.setSlice sl.val ((s.slice sl.val).setStage (stageKey dir k.val) is)).runMicro sl.val dir
            (pgKerf sl.val dir k.val) (s.ringBank (pgKerf sl.val dir k.val) (s.frame i).ring) w (s.frame i)).2.vec)
    ∧ (∀ (sl : Slice) i is b, s.sliceUp sl.val = true → s.blockUp (pgDeparser sl.val) = true →
      (s.slice sl.val).depq = i :: is → (s.frame i).bad = 0 → (s.frame i).tail = true →
      s.build (s.frame i) ((s.frame i).q / 32) = some b → b.body.length + 4 ≤ s.maxFrame ((s.frame i).q / 32) →
      ∃ t, exec (.deparse sl) s = .next t ∧ (t.slice sl.val).depq = is ∧ (t.frame i).built = true
        ∧ (t.frame i).out = withFcs b.body)

/-- PLL and lane commands complete (R62, R73, R75): a PLL takes the rate asked for, locks and loses lock; a lane leaves
ACQUIRE for ADAPT, or for ACTIVE with stored coefficients, becomes ACTIVE when it has converged, and goes back to ACQUIRE
when its signal or its lock is lost. -/
def Obligations.LaneCommandsComplete : Prop :=
  ∀ s : State, s.live = true →
    (∀ (m : Macro) pll, s.sliceUp (m.val / 4) = true → s.pllUsed m.val (pllIdx pll) = false →
      ((s.macro_ m.val).pll (pllIdx pll)).rate ≠ s.pllAsked m.val (pllIdx pll) →
      ∃ t, exec (.pllRateApply m pll) s = .next t
        ∧ ((t.macro_ m.val).pll (pllIdx pll)).rate = s.pllAsked m.val (pllIdx pll)
        ∧ ((t.macro_ m.val).pll (pllIdx pll)).lock = false)
    ∧ (∀ (m : Macro) pll, s.sliceUp (m.val / 4) = true → ((s.macro_ m.val).pll (pllIdx pll)).rate ≠ 0 →
      ((s.macro_ m.val).pll (pllIdx pll)).lock = false →
      ∃ t, exec (.pllLock m pll) s = .next t ∧ ((t.macro_ m.val).pll (pllIdx pll)).lock = true)
    ∧ (∀ (m : Macro) pll, ((s.macro_ m.val).pll (pllIdx pll)).lock = true →
      ∃ t, exec (.pllUnlock m pll) s = .next t ∧ ((t.macro_ m.val).pll (pllIdx pll)).lock = false
        ∧ (s.pllUsed m.val (pllIdx pll) = true → t.rbit (pgMacro m.val) 0x10 evPllUnlock = true))
    ∧ (∀ l : Lane, (s.lane l.val).st = .acquire → ∃ t, exec (.signalAndCdrLock l) s = .next t
      ∧ (t.lane l.val).signal = true ∧ (t.lane l.val).cdr = true
      ∧ (t.lane l.val).st = (if s.rf (pgLane l.val) (Reg.lnRxcfg (l.val % 32)) 0 2 = 2 then .active else .adapt))
    ∧ (∀ l : Lane, (s.lane l.val).signal = true → ∃ t, exec (.lossOfSignal l) s = .next t
      ∧ (t.lane l.val).signal = false
      ∧ ((s.lane l.val).st = .adapt ∨ (s.lane l.val).st = .active → s.laneOwner l.val ≠ none →
        (t.lane l.val).st = .acquire))
    ∧ (∀ l : Lane, (s.lane l.val).cdr = true → (s.lane l.val).st = .adapt ∨ (s.lane l.val).st = .active →
      ∃ t, exec (.cdrUnlock l) s = .next t
        ∧ (t.lane l.val).cdr = false ∧ (s.laneOwner l.val ≠ none → (t.lane l.val).st = .acquire))
    ∧ (∀ (l : Lane) x, (s.lane l.val).st = .adapt → ∃ t, exec (.adaptConverged l x) s = .next t
      ∧ (t.lane l.val).st = .active ∧ (t.lane l.val).eye = x.eye.toNat ∧ (t.lane l.val).ppm = x.ppm.toNat
      ∧ (s.laneAdapt l.val ≠ 2 → (t.lane l.val).ctle = x.ctle.toNat ∧ (t.lane l.val).coef = x.coef))

/-- PORT commands complete (R68, R69, R75, R77, R78, R82, R84, R85, R87): the host's writes of PORT_CTRL wait in the posting
buffer of its page (R50); performed, an enable that passes the checks takes PORT_CFG, a disable and PWR Dormant leave the lanes
DORMANT, Standby in STANDBY, Active takes them back, and recalibrations and a reset start. A live recalibration ends; a link
comes up, and falls with a fault; a window at the threshold degrades the port. -/
def Obligations.PortCommandsComplete : Prop :=
  ∀ (s : State) (p : Port), s.live = true →
    (s.Posts .host (pgPort p.val) (Reg.portCtrl (p.val % 32)) →
      (s.portEn p.val = false → s.cfgCheck p.val (s.reg (pgPort p.val) (Reg.portCfg (p.val % 32))) = 0 →
        ∃ t u, exec (.portEnable p) s = .next t ∧ t.wbusy (pgPort p.val) = true ∧ t.ports = s.ports
          ∧ exec (.postedWritePerformed (pgPort p.val)) t = .next u
          ∧ (u.port p.val).cfg = s.reg (pgPort p.val) (Reg.portCfg (p.val % 32)))
      ∧ (s.portEn p.val = true →
        (∃ t u, exec (.portDisable p) s = .next t ∧ t.wbusy (pgPort p.val) = true
          ∧ exec (.postedWritePerformed (pgPort p.val)) t = .next u ∧ (u.port p.val).linkUp = false
          ∧ ∀ l ∈ s.portLanes p.val, (u.lane l).st = .dormant)
        ∧ (s.portPwr p.val ≠ 0 → ∃ t u, exec (.pwrActive p) s = .next t ∧ t.wbusy (pgPort p.val) = true
          ∧ exec (.postedWritePerformed (pgPort p.val)) t = .next u
          ∧ ∀ l ∈ s.portLanes p.val, (s.lane l).st = .standby → (u.lane l).st =
            (if (s.lane l).signal ∧ (s.lane l).wasActive ∧ s.clk.up ≤ (s.lane l).standbyAt + 1000000000 then .active
              else .acquire))
        ∧ (s.portPwr p.val ≠ 1 → ∃ t u, exec (.pwrStandby p) s = .next t ∧ t.wbusy (pgPort p.val) = true
          ∧ exec (.postedWritePerformed (pgPort p.val)) t = .next u
          ∧ ∀ l ∈ s.portLanes p.val, (s.lane l).st ≠ .dormant → (u.lane l).st = .standby)
        ∧ (s.portPwr p.val ≠ 2 → ∃ t u, exec (.pwrDormant p) s = .next t ∧ t.wbusy (pgPort p.val) = true
          ∧ exec (.postedWritePerformed (pgPort p.val)) t = .next u
          ∧ ∀ l ∈ s.portLanes p.val, (u.lane l).st = .dormant)
        ∧ ((s.port p.val).linkUp = true → (s.port p.val).recalFull = false → (s.port p.val).recalLive = false →
          bit (s.portCtrl p.val) 6 = false →
          ∃ t u, exec (.recalLive p) s = .next t ∧ t.wbusy (pgPort p.val) = true
            ∧ exec (.postedWritePerformed (pgPort p.val)) t = .next u ∧ (u.port p.val).recalLive = true)
        ∧ (s.portPwr p.val = 0 → ∃ t u, exec (.recalFull p) s = .next t ∧ t.wbusy (pgPort p.val) = true
          ∧ exec (.postedWritePerformed (pgPort p.val)) t = .next u ∧ (u.port p.val).recalFull = true
          ∧ (u.port p.val).aligned = false)
        ∧ (s.cfgCheck p.val (s.reg (pgPort p.val) (Reg.portCfg (p.val % 32))) = 0 →
          ∃ t u, exec (.portReset p) s = .next t ∧ t.wbusy (pgPort p.val) = true
            ∧ exec (.postedWritePerformed (pgPort p.val)) t = .next u
            ∧ (u.port p.val).cfg = s.reg (pgPort p.val) (Reg.portCfg (p.val % 32)) ∧ (u.port p.val).linkUp = false)))
    ∧ ((s.port p.val).recalLive = true → ∃ t, exec (.recalLiveDone p) s = .next t ∧ (t.port p.val).recalLive = false
      ∧ t.rbit (pgPort p.val) 0x10 evRecalDone = true)
    ∧ (s.portReady p.val = true → s.mayLinkUp p.val = true → ∃ t, exec (.linkUp p) s = .next t
      ∧ (t.port p.val).linkUp = true ∧ (t.port p.val).local_ = false ∧ (t.port p.val).remote = false)
    ∧ (s.portReady p.val = true → s.portAct p.val = true → s.lanesActive p.val = true →
      (s.isSpan p.val = false → ∃ t, exec (.remoteFault p) s = .next t
        ∧ (t.port p.val).remote = true ∧ (t.port p.val).linkUp = false)
      ∧ (∃ t, exec (.localFault p) s = .next t ∧ (t.port p.val).local_ = true ∧ (t.port p.val).linkUp = false))
    ∧ (∀ w, s.portReady p.val = true → s.portAct p.val = true → s.lanesActive p.val = true →
      3 ≤ cfgMode (s.port p.val).cfg → fld (s.reg (pgPort p.val) (Reg.fecDegr (p.val % 32))) 0 16 ≠ 0 →
      fld (s.reg (pgPort p.val) (Reg.fecDegr (p.val % 32))) 0 16 ≤ w.uncorr →
      ∃ t, exec (.fecDegrWindow p w) s = .next t ∧ (t.port p.val).fecDegr = true)

/-- SPAN commands complete (R95 to R123): a received span frame is taken into the frame and multiframe state; a span frame is
sent, on lanes that carry data, with the alignment word and the next multiframe count; a good packet enters the ingress FIFO; LOS
clears, LOF and LOM are declared at the end of their times; the host's write of INJ_BIP is
posted, and performed it asks for a bit error; at the end of a second its counts clear and
the tenth SES in a row makes the near end unavailable; at their boundaries the 15-minute bins and the day bins roll; an OHSP frame
is sent. -/
def Obligations.SpanCommandsComplete : Prop :=
  ∀ (s : State) (q : SpanPos), s.live = true →
    (s.spanReady q.val = true →
      (∀ bs, s.spanLpbk q.val = 0 → (s.span q.val).los = false → (s.span q.val).fst = .inFrame →
        (s.span q.val).buf = [] → bs.length = 8192 →
        ((s.span q.val).fresh = true → ∃ t, exec (.spanFrameRx q bs) s = .next t ∧ (t.span q.val).fresh = false
          ∧ (t.span q.val).par = some (bip8 bs))
        ∧ ((s.span q.val).fresh = false → isFaw bs = true → (s.span q.val).mlock = false → (s.span q.val).mGood = 0 →
          (byteAt bs 6).toNat = ((s.span q.val).exp + 1) % 256 →
          ∃ t, exec (.spanFrameRx q bs) s = .next t ∧ (t.span q.val).exp = ((s.span q.val).exp + 1) % 256
            ∧ (t.span q.val).mGood = 1 ∧ (t.span q.val).par = some (bip8 bs)))
      ∧ (s.spanLpbk q.val = 0 → ∃ t f, exec (.spanFrameTx q) s = .next t
        ∧ t.out = s.out ++ (if s.portSends (spanSlot q.val) then [.span q.val f] else [])
        ∧ isFaw f = true ∧ byteAt f 6 = BitVec.ofNat 8 (s.span q.val).txMfas
        ∧ (t.span q.val).txMfas = ((s.span q.val).txMfas + 1) % 256)
      ∧ (∀ k ks, (s.span q.val).rxq = k :: ks → k.cur = none → (s.span q.val).transit = false → isMacControl k.body = false →
        spanReason (s.maxFrame (spanSlot q.val)) (s.port (spanSlot q.val)).linkUp (s.unpaired q.val) k = 0 →
        s.fifoFill (portSlice (spanSlot q.val)) + k.body.length ≤ 98304 →
        ∃ t, exec (.spanPacketRx q) s = .next t ∧ (t.span q.val).rxq = ks
          ∧ (t.slice (portSlice (spanSlot q.val))).fifo
            = (s.slice (portSlice (spanSlot q.val))).fifo ++ [s.nextFrame]
          ∧ (t.frame s.nextFrame).data = k.body)
      ∧ ((s.span q.val).los = true → s.lanesActive (spanSlot q.val) = true → s.lanesLocked (spanSlot q.val) = true →
        (s.port (spanSlot q.val)).alignAt + 10000 ≤ s.clk.up →
        ∃ t, exec (.defectTimer q .los) s = .next t ∧ (t.span q.val).los = false)
      ∧ ((s.span q.val).los = false → (s.span q.val).lof = false → (s.span q.val).fst ≠ .inFrame →
        (s.span q.val).ifT + ms3 ≤ s.clk.up →
        ∃ t, exec (.defectTimer q .lof) s = .next t ∧ (t.span q.val).lof = true)
      ∧ ((s.span q.val).los = false → (s.span q.val).lof = false → (s.span q.val).fst = .inFrame →
        (s.span q.val).lom = false → (s.span q.val).mlock = false → (s.span q.val).mT + ms3 ≤ s.clk.up →
        ∃ t, exec (.defectTimer q .lom) s = .next t ∧ (t.span q.val).lom = true)
      ∧ (AMap.wf (fun _ => ({} : SpanS)) s.spans = true → q.val ∈ s.spans.map (·.1) →
        (∃ t, exec .pmSecond s = .next t ∧ (t.span q.val).near.frames = 0 ∧ (t.span q.val).near.errs = 0
          ∧ ((s.span q.val).near.unavail = false → (s.span q.val).near.classify.ses = true → (s.span q.val).near.run = 9 →
            (t.span q.val).near.unavail = true))
        ∧ (s.atBoundary q.val false = true → s.rolled q.val false = false →
          ∃ t, exec .bin15 s = .next t ∧ (t.span q.val).whole15 = true ∧ (t.span q.val).tca = false
          ∧ t.rbit (pgSp q.val) 0x10 evBin15 = true))
      ∧ (∀ sl : Slice, q.val / 8 = sl.val → s.atBoundary q.val true = true → s.rolled q.val true = false →
        ∃ t, exec (.day sl) s = .next t ∧ (t.span q.val).wholeDay = true ∧ t.rbit (pgSp q.val) 0x10 evDay = true))
    ∧ (s.Posts .host (pgSp q.val) (Reg.spCtrl (q.val % 8)) →
      ∃ t u, exec (.injBip q) s = .next t ∧ t.wbusy (pgSp q.val) = true
        ∧ exec (.postedWritePerformed (pgSp q.val)) t = .next u ∧ u.rbit (pgSp q.val) (Reg.spCtrl (q.val % 8)) 3 = true)
    ∧ (∀ (n : Fin 4) din, s.ohRuns n.val = true →
      ∃ t l, exec (.ohspFrame n din) s = .next t ∧ t.out = s.out ++ [.ohsp n.val l])

/-- Boost, learning and aging commands complete (R172, R190 to R197). Boost is taken above ON while it is enabled and permitted,
and dropped below OFF or when it is not. The learning master does what Table 72 has for a request: nothing for a source that the
entry holds, a count and an event for a static entry, a new entry for a key that has none, and for a permitted move the new
destination with HIT; it tells East. East's copy takes a change on the version with the tags that West's has, unless that is
static: a destination with its damping fields, HIT cleared, or the entry deleted. The scanner clears HIT, and deletes an entry
that it finds without HIT. A hit notice sets the West HIT. -/
def Obligations.LearningCommandsComplete : Prop :=
  ∀ (s : State) (h : Half), s.live = true →
    (∀ n, s.halfUp h.val = true → s.rbit (pgWlem h.val) Reg.wlCtrl 0 = true → s.boostPermitted = true →
      (s.woodOf h.val).boost = false → s.rf (pgWlem h.val) Reg.wlBoostCfg 0 16 < n →
      ∃ t, exec (.boostOn h n) s = .next t ∧ (t.woodOf h.val).boost = true ∧ t.rbit (pgWlem h.val) 0x10 evBoost = true)
    ∧ (∀ n, (s.woodOf h.val).boost = true →
      (n < s.rf (pgWlem h.val) Reg.wlBoostCfg 16 16 ∨ s.boostPermitted = false ∨ s.rbit (pgWlem h.val) Reg.wlCtrl 0 = false) →
      ∃ t, exec (.boostOff h n) s = .next t ∧ (t.woodOf h.val).boost = false
        ∧ t.rbit (pgWlem h.val) 0x10 evBoost = true)
    ∧ (∀ x xs, s.MasterTakes h.val x xs →
      (∀ l, s.copyOf 0 x.tbl x.key = some l →
        (destOf (s.entryResult 0 l) = x.src → ∃ t, exec (.learnRequest h) s = .next t ∧ (t.woodOf h.val).fifo = xs
          ∧ t.mem = s.mem ∧ t.eastq = s.eastq)
        ∧ (destOf (s.entryResult 0 l) ≠ x.src → cwStatic (s.emW 0 l 8) = true →
          ∃ t, exec (.learnRequest h) s = .next t ∧ (t.woodOf h.val).fifo = xs ∧ t.mem = s.mem ∧ t.eastq = s.eastq
            ∧ t.rbit (pgLearn 0) 0x10 evLockViol = true)
        ∧ (∀ d, destOf (s.entryResult 0 l) ≠ x.src → cwStatic (s.emW 0 l 8) = false →
          (s.dampOf 0 l).move s.tick16 (s.rf (pgLearn 0) Reg.lrMove 0 3) (s.rf (pgLearn 0) Reg.lrMoveWin 0 16)
            (s.rf (pgLearn 0) Reg.lrMoveHold 0 16) = (true, d) →
          ∃ t, exec (.learnRequest h) s = .next t ∧ (t.woodOf h.val).fifo = xs
            ∧ destOf (t.entryResult 0 l) = x.src % 2 ^ 27 ∧ cwHit (t.emW 0 l 8) = true
            ∧ t.eastq = s.eastq ++ [⟨x.tbl, x.key, .put x.src d.frozen d.cnt d.t, cwBirth (s.emW 0 l 8),
              cwDeath (s.emW 0 l 8)⟩]))
      ∧ (∀ u l, s.copyOf 0 x.tbl x.key = none →
        (s.atMaster h.val xs).placeEntry 0 x.tbl x.key x.src
          (ctrlWord x.tbl (s.isWideTbl 0 x.tbl) false true true none none) = some (u, l) →
        ∃ t, exec (.learnRequest h) s = .next t ∧ (t.woodOf h.val).fifo = xs ∧ t.mem = u.mem
          ∧ t.eastq = s.eastq ++ [⟨x.tbl, x.key, .put x.src false 0 0, none, none⟩]))
    ∧ (∀ c cs l, s.EastTakes c cs → s.eastVersion c = some l →
      (cwStatic (s.emW 1 l 8) = true → ∃ t, exec .eastCopyApply s = .next t ∧ t.eastq = cs ∧ t.mem = s.mem)
      ∧ (cwStatic (s.emW 1 l 8) = false → ∃ t, exec .eastCopyApply s = .next t ∧ t.eastq = cs
        ∧ (∀ d fr cnt tk, c.op = .put d fr cnt tk → destOf (t.entryResult 1 l) = d % 2 ^ 27
          ∧ cwHit (t.emW 1 l 8) = true ∧ t.dampOf 1 l = ⟨fr, cnt % 8, tk % 65536⟩)
        ∧ (c.op = .clearHit → cwHit (t.emW 1 l 8) = false)
        ∧ (c.op = .delete → cwValid (t.emW 1 l 8) = false)))
    ∧ (∀ loc w, locHalf loc = 0 → s.BgSteps 0 0x30 → s.rbit (pgWlem 0) 0x08 1 = true → s.deferred = false →
      s.rf (pgLearn 0) Reg.lrAge 0 16 ≠ 0 → s.isEntry 0 (locCode loc) = true → s.emW 0 (locCode loc) 8 = w →
      cwStatic w = false → bit (s.wlLt 0 (fld w 0 8)) 7 = true →
      ∃ t k, exec (.agingVisit loc) s = .next t
        ∧ k = s.storedKey 0 (fld w 0 8) ((s.entryKey 0 (locCode loc)).take (s.emKlen 0 (fld w 0 8)))
        ∧ (cwHit w = true → cwHit (t.emW 0 (locCode loc) 8) = false
          ∧ t.eastq = s.eastq ++ [⟨fld w 0 8, k, .clearHit, cwBirth w, cwDeath w⟩])
        ∧ (cwHit w = false → cwValid (t.emW 0 (locCode loc) 8) = false
          ∧ t.eastq = s.eastq ++ [⟨fld w 0 8, k, .delete, cwBirth w, cwDeath w⟩]))
    ∧ (∀ tb key xs, s.hitq = (tb, key) :: xs → s.halfUp 0 = true → s.flumeUp = true →
      ∃ t, exec .hitNotice s = .next t ∧ t.hitq = xs
        ∧ (∀ l, s.copyOf 0 tb key = some l → cwHit (t.emW 0 l 8) = true)
        ∧ (s.copyOf 0 tb key = none → t.mem = s.mem))

/-- The sequencer's other commands, and memory errors, complete (R181, R189, R198 to R204, R222). A stash entry moves into the
room made for it in its buckets. A reclaim step clears the tags of the first location of the ring's log, and with nothing left
the half has done its part: the ring is FREE when the other half has done its own. LPM compaction and bank migration take a
step; the last one of a migration puts the spare in the bank's place. A write of WL_MIGRATE is posted; performed, it takes the
lowest spare, or waits for BG_EN. RESUME ends a held command's routine with its answer, while the ENABLE that the command needs
is 1, and lets a held background routine go on; ABANDON ends both. A memory error is reported, a lost slot cleared, a lost node
marked. A parity fault sets PERR. -/
def Obligations.SequencerCommandsComplete : Prop :=
  ∀ (s : State) (h : Half), s.live = true →
    (∀ (slot : Fin 8) u d, s.BgSteps h.val 0x31 → s.rbit (pgWlem h.val) 0x08 1 = true → s.deferred = false →
      s.isEntry h.val (stashBase + slot.val) = true →
      s.makeRoom h.val (fld (s.emW h.val (stashBase + slot.val) 8) 0 8) (s.entryKey h.val (stashBase + slot.val)) false
        = some (u, d) →
      ∃ t, exec (.stashDrain h slot) s = .next t ∧ t.mem = (u.moveEntry h.val (stashBase + slot.val) d).mem)
    ∧ (∀ r, s.sweeping h.val = some r → s.halfUp h.val = true → s.BgSteps h.val 0x32 → s.reclaimHeld h.val r = false →
      (s.logSize h.val r = 0 → ∃ t, exec (.reclaim h) s = .next t
        ∧ ((if h.val = 0 then (s.ringRec r).doneE else (s.ringRec r).doneW) = true → (t.ringRec r).st = .free)
        ∧ ((if h.val = 0 then (s.ringRec r).doneE else (s.ringRec r).doneW) = false →
          (if h.val = 0 then (t.ringRec r).doneW else (t.ringRec r).doneE) = true))
      ∧ (∀ l ls, s.emLogged h.val r = l :: ls → ∃ t, exec (.reclaim h) s = .next t
        ∧ (names (cwDeath (s.emW h.val l 8)) r = true → cwValid (t.emW h.val l 8) = false)
        ∧ (names (cwDeath (s.emW h.val l 8)) r = false → cwBirth (t.emW h.val l 8) = none)))
    ∧ (s.BgSteps h.val 0x33 → s.deferred = false → ∃ t, exec (.lpmCompaction h) s = .next t
      ∧ (t.woodOf h.val).lpmBad = (s.woodOf h.val).lpmBad.drop 1
      ∧ (1 < (s.woodOf h.val).lpmBad.length → t.reg (pgMaint h.val) (Reg.jrnRoutine 1) = 0x33
        ∧ t.reg (pgMaint h.val) (Reg.jrnCursor 1) = BitVec.ofNat 32 (s.bgCursor h.val 0x33 + 1)))
    ∧ (∀ (b : BitVec 8), s.Posts .host (pgWlem h.val) Reg.wlMigrate →
      (∀ i, s.rbit (pgMaint h.val) Reg.mtCtrl 3 = true → b.toNat ≤ 223 → (s.woodOf h.val).mig = none →
        (List.range 8).find? (fun i => !(s.woodOf h.val).spareUsed i) = some i →
        ∃ t u, exec (.wlMigrate h b) s = .next t ∧ t.wbusy (pgWlem h.val) = true
          ∧ exec (.postedWritePerformed (pgWlem h.val)) t = .next u
          ∧ (u.woodOf h.val).mig = some { bank := b.toNat, spare := 224 + i, cursor := 0 })
      ∧ (s.rbit (pgMaint h.val) Reg.mtCtrl 3 = false → ∃ t u, exec (.wlMigrate h b) s = .next t
        ∧ t.wbusy (pgWlem h.val) = true ∧ exec (.postedWritePerformed (pgWlem h.val)) t = .next u
        ∧ u.reg (pgWlem h.val) Reg.wlMigrate = BitVec.ofNat 32 (b.toNat + 2 ^ 31)
        ∧ (u.woodOf h.val).mig = (s.woodOf h.val).mig))
    ∧ (∀ m, s.BgSteps h.val 0x34 → s.deferred = false → s.migHeld h.val = false → (s.woodOf h.val).mig = some m →
      (m.cursor + 1 ≠ 4096 → ∃ t, exec (.bankMigration h) s = .next t
        ∧ (t.woodOf h.val).mig = some { m with cursor := m.cursor + 1 }
        ∧ t.mem = (s.copyPos h.val ((AMap.get none (s.woodOf h.val).bankmap m.bank).getD m.bank) m.spare m.cursor).mem)
      ∧ (m.cursor + 1 = 4096 → ∃ t, exec (.bankMigration h) s = .next t ∧ (t.woodOf h.val).mig = none
        ∧ AMap.get none (t.woodOf h.val).bankmap m.bank = some m.spare
        ∧ t.rbit (pgWlem h.val) 0x10 evMigrateDone = true))
    ∧ (∀ r u a, s.WritesNow .host (pgMaint h.val) Reg.mtCtrl → (s.woodOf h.val).fgHeld = true → (s.woodOf h.val).fg = some r →
      ((s.resuming h.val).fgRun h.val r = (u, a) → (u.woodOf h.val).fgNext = [] → s.opEnabled h.val (dOp r.words) = true →
        ∃ t, exec (.resume h) s = .next t ∧ (t.woodOf h.val).fg = none ∧ (t.woodOf h.val).fgHeld = false
          ∧ t.mem = u.mem ∧ (t.hq (128 + r.q)).done
            = (u.hq (128 + r.q)).done.map (fun d => if d.idx = r.idx then d.later h.val r.words a else d))
      ∧ ((s.woodOf h.val).fgNext = [] → ∃ t, exec (.abandon h) s = .next t ∧ (t.woodOf h.val).fg = none
        ∧ (t.woodOf h.val).fgHeld = false ∧ t.rbit (pgMaint h.val) 0x10 evAbandoned = true ∧ (t.hq (128 + r.q)).done
          = (s.hq (128 + r.q)).done.map (fun d => if d.idx = r.idx then
              d.later h.val r.words { status := stAbandoned, info := r.count } else d)))
    ∧ (s.WritesNow .host (pgMaint h.val) Reg.mtCtrl → (s.woodOf h.val).bgHeld = true → (s.woodOf h.val).fgHeld = false →
      (∃ t, exec (.resume h) s = .next t ∧ (t.woodOf h.val).bgHeld = false)
      ∧ (∃ t, exec (.abandon h) s = .next t ∧ (t.woodOf h.val).bgHeld = false
        ∧ t.reg (pgMaint h.val) (Reg.jrnRoutine 1) = 0 ∧ t.reg (pgMaint h.val) (Reg.jrnExit 1) = 4))
    ∧ (∀ loc u, s.halfUp h.val = true → ∃ t, exec (.woodlotEccError h loc u) s = .next t
      ∧ t.rbit (locPage h.val (locCode loc)) 0x10 (if u then evWlUncorr else evWlCorr) = true
      ∧ (u = true → locLpm (locCode loc) = false → t.emSlot h.val (locCode loc) = List.replicate 10 0)
      ∧ (u = true → locLpm (locCode loc) = true → locCode loc / 4 ∈ (t.woodOf h.val).lpmBad))
    ∧ (∀ (sl : Slice) (e : Fin 4096), s.sliceUp sl.val = true → bit (s.tcW sl.val e.val 24) 7 = false →
      ∃ t, exec (.tcamParityScan sl e) s = .next t ∧ bit (t.tcW sl.val e.val 24) 7 = true
        ∧ t.rbit (pgTcam sl.val) 0x10 0 = true)

/-- TABLE commands complete (R178, R182, R185, R205 to R208): each runs its routine in the half it names, leaves what the
routine leaves, and its descriptor waits for write-back with the routine's status and INFO. -/
def Obligations.TableCommandsComplete : Prop :=
  ∀ (s : State) (q : Fin 16) (h : Half) idx ws blk n c op, s.live = true →
    (c, op) ∈ [(Instr.emInsert q ⟨blk, n⟩, 1), (.emUpdate q ⟨blk, n⟩, 2), (.emUpsert q ⟨blk, n⟩, 3), (.emDelete q ⟨blk, n⟩, 4),
      (.emRead q ⟨blk, n⟩, 5), (.lpmInsert q ⟨blk, n⟩, 0x10), (.lpmDelete q ⟨blk, n⟩, 0x11), (.lpmRead q ⟨blk, n⟩, 0x12),
      (.tcamWrite q ⟨blk, n⟩, 0x20), (.tcamDelete q ⟨blk, n⟩, 0x21), (.bulkMove q ⟨blk, n⟩, 0x30), (.bulkFlush q ⟨blk, n⟩, 0x31),
      (.tableNop q, 0x3F)] →
    dOp ws = op → s.TableReady q.val h.val idx ws blk →
    ∃ t d, exec c s = .next t ∧ t.mem = (s.ranTable q.val h.val idx ws blk).1.mem
      ∧ (t.woodOf h.val).lpm = ((s.ranTable q.val h.val idx ws blk).1.woodOf h.val).lpm
      ∧ (t.hq (128 + q.val)).fetched = (s.hq (128 + q.val)).fetched.drop 1
      ∧ (t.hq (128 + q.val)).done = (s.hq (128 + q.val)).done ++ [d] ∧ d.idx = idx
      ∧ d.words = doneWords ws (BitVec.ofNat 32 (s.ranTable q.val h.val idx ws blk).2.info)
          (s.ranTable q.val h.val idx ws blk).2.status

/-- What immediate table commands change (R178, R182, R185, R186, R206): an update stores the result words, a delete clears
VALID, a prefix is added or taken out, a TCAM entry is written or cleared. -/
def Obligations.TableCommandResults : Prop :=
  ∀ (s : State) (q : Fin 16) (h : Half) idx ws blk n, s.live = true → s.TableReady q.val h.val idx ws blk →
    dStaged ws = false →
    (∀ l, versOf s.pendRing (s.emVers h.val (dTbl ws) (bytesAt (blk.take (dLen ws)) 0 32))
        = { placed := none, dying := none, live := some l } →
      (dOp ws = 2 → ∃ t, exec (.emUpdate q ⟨blk, n⟩) s = .next t
        ∧ t.memWs (pgWlem h.val) (s.locSel h.val l.id) (locAddr l.id + 4) 4
          = resWords (s.resStored h.val (dTbl ws) (beAt (blk.take (dLen ws)) 32 16)))
      ∧ (dOp ws = 4 → ∃ t, exec (.emDelete q ⟨blk, n⟩) s = .next t ∧ cwValid (t.emW h.val l.id 8) = false))
    ∧ (dOp ws = 0x10 → lpmVers (dTbl ws - 0x40) (s.lpmAddr h.val (dTbl ws - 0x40) (blk.take (dLen ws)))
        (byteAt (blk.take (dLen ws)) 16).toNat 0 (s.woodOf h.val).lpm = [] →
      s.lpmUnits h.val + 2 ≤ 2097152 →
      ∃ t, exec (.lpmInsert q ⟨blk, n⟩) s = .next t ∧ (t.woodOf h.val).lpm = (s.woodOf h.val).lpm ++
        [{ tbl := dTbl ws - 0x40, addr := s.lpmAddr h.val (dTbl ws - 0x40) (blk.take (dLen ws)),
           len := (byteAt (blk.take (dLen ws)) 16).toNat, result := beAt (blk.take (dLen ws)) 32 16 }])
    ∧ (∀ i, dOp ws = 0x11 → lpmVers (dTbl ws - 0x40) (s.lpmAddr h.val (dTbl ws - 0x40) (blk.take (dLen ws)))
        (byteAt (blk.take (dLen ws)) 16).toNat 0 (s.woodOf h.val).lpm = [{ id := i, birth := none, death := none }] →
      ∃ t, exec (.lpmDelete q ⟨blk, n⟩) s = .next t ∧ (t.woodOf h.val).lpm = (s.woodOf h.val).lpm.eraseIdx i)
    ∧ (∀ sl e, (halfSlices h.val).filter (fun sl => bit (dSlices ws) sl) = [sl] → s.enabled (pgTcam sl) = true →
      e = leAt (blk.take (dLen ws)) 96 2 % 4096 →
      (dOp ws = 0x20 → tcValid (s.tcW sl e 24) = false → ∃ t, exec (.tcamWrite q ⟨blk, n⟩) s = .next t
        ∧ t.tcW sl e 24 = 1
        ∧ ∀ i, i < 24 → t.tcW sl e i = BitVec.ofNat 32 (beAt (blk.take (dLen ws)) (4 * i) 4))
      ∧ (dOp ws = 0x21 → tcValid (s.tcW sl e 24) = true → tcBirth (s.tcW sl e 24) = none →
        tcDeath (s.tcW sl e 24) = none → ∃ t, exec (.tcamDelete q ⟨blk, n⟩) s = .next t
          ∧ tcValid (t.tcW sl e 24) = false))

/-- HOST queue commands complete (R347, R351 to R362, R364, R366, R367): a doorbell moves TAIL, of the event queue HEAD, and a
TAIL too far ahead halts its queue with OVERRUN; a queue is enabled, disabled and drained; a descriptor is fetched, or its
failed read halts the queue; a completed one is written back, an export buffer whose BUF_LEN is invalid among them; a punted
frame goes into its buffer; a transmit descriptor sends its bytes into a pipe, a queue or pool cells, or ends with DMA_ERROR, as
a table command does; an export buffer closes with its records; a queue whose signal is due sends its vector, or sets its
pending bit where the entry or the function masks it, and does neither while MSI-X is off. -/
def Obligations.HostQueueCommandsComplete : Prop :=
  ∀ (s : State) (q : QueueId), s.live = true →
    (∀ v, s.WritesNow .host pgDoorbell (0x1000 + 4 * q.val) →
      (q.val ≠ 152 → (s.hq q.val).st ≠ .active ∨ (fld v 0 16 + 65536 - s.hqHead q.val) % 65536 ≤ (s.hq q.val).size →
        ∃ t, exec (.doorbell q v) s = .next t ∧ t.hqTail q.val = fld v 0 16
          ∧ t.hq q.val = { s.hq q.val with covers := (t.hq q.val).covers })
      ∧ (q.val ≠ 152 → (s.hq q.val).st = .active → (s.hq q.val).size < (fld v 0 16 + 65536 - s.hqHead q.val) % 65536 →
        ∃ t, exec (.doorbell q v) s = .next t ∧ (t.hq q.val).st = .halted ∧ (t.hq q.val).err = errOverrun
          ∧ t.rbit pgHostdma 0x10 evHalt = true)
      ∧ (q.val = 152 → (s.hq 152).st ≠ .active → ∃ t, exec (.doorbell q v) s = .next t ∧ t.hqHead 152 = fld v 0 16))
    ∧ (s.WritesNow .host (pgQueue q.val) (Reg.hqCtrl (q.val % 32)) →
      bit (s.hqReg q.val Reg.hqCtrl) 0 = false → (s.hq q.val).st = .disabled →
      ∃ t, exec (.queueEnable q) s = .next t ∧ (t.hq q.val).st = .active ∧ (t.hq q.val).err = 0
        ∧ (t.hq q.val).log2 = log2Acts (fld (s.hqReg q.val Reg.hqCfg) 0 5))
    ∧ (s.WritesNow .host (pgQueue q.val) (Reg.hqCtrl (q.val % 32)) → (s.hq q.val).st = .active →
      ∃ t, exec (.queueDisable q) s = .next t ∧ (t.hq q.val).st = .draining
      ∧ (t.hq q.val).fetched = [])
    ∧ ((s.hq q.val).st = .draining → (s.hq q.val).done = [] →
      ∃ t, exec (.queueDrained q) s = .next t ∧ (t.hq q.val).st = .disabled)
    ∧ (∀ n, n = (s.hq q.val).done.length + (s.hq q.val).fetched.length → (s.hq q.val).st = .active → s.dmaOk = true →
      q.val ≠ 152 → n < 32 → n < s.hqSpan q.val →
      (∀ ws, q.val < 144 ∨ (s.hq q.val).fill ≠ [] → ∃ t, exec (.descriptorFetch q (some ws)) s = .next t ∧ (t.hq q.val).fetched
        = (s.hq q.val).fetched ++ [((s.hqHead q.val + n) % 65536, (List.range 8).map (wordAt ws))])
      ∧ (∃ t, exec (.descriptorFetch q none) s = .next t ∧ (t.hq q.val).st = .halted ∧ (t.hq q.val).err = errFetch
        ∧ t.rbit pgHostdma 0x10 evHalt = true))
    ∧ (∀ d ds, (s.exportSkip q.val).done = d :: ds → d.left = 0 → s.dmaOk = true →
      ∃ t, exec (.descriptorComplete q) s = .next t ∧ (t.hq q.val).done = ds
        ∧ t.hqHead q.val = (d.idx + 1) % 65536)
    ∧ (∀ (n : Fin 64) i is idx ws, (s.hq n.val).held = i :: is → (s.frame i).tail = true → (s.frame i).need = 0 →
      (s.frame i).bad = 0 → s.nextDesc n.val 1 = some (idx, ws) → 64 ≤ fld (wordAt ws 2) 0 16 →
      (s.frame i).data ≠ [] → ∃ t, exec (.puntDeliver n) s = .next t ∧ i ∉ (t.hq n.val).held
        ∧ .hostWrite (bufAddr ws) ((s.frame i).data.take (fld (wordAt ws 2) 0 16)) (!(s.hq n.val).strict) ∈ t.out
        ∧ AMap.get none t.frames i = none)
    ∧ (∀ (n : Fin 64) data idx ws, s.nextDesc (64 + n.val) 8 = some (idx, ws) → s.txStatus ws = 0 →
      (txMode ws = 0 → s.txHeld ws = false → ∃ t, exec (.pipe n data) s = .next t
        ∧ (t.hq (64 + n.val)).done = (s.hq (64 + n.val)).done ++ [txDone idx ws 0]
        ∧ (t.slice (portSlice (fld (wordAt ws 3) 0 10))).inj
          = (s.slice (portSlice (fld (wordAt ws 3) 0 10))).inj ++ [s.nextFrame])
      ∧ (txMode ws = 1 → s.txHeld ws = false → ∃ t, exec (.direct n data) s = .next t
        ∧ (t.hq (64 + n.val)).done = (s.hq (64 + n.val)).done ++ [txDone idx ws 0]
        ∧ (t.frame s.nextFrame).q = fld (wordAt ws 3) 0 15 ∧ (t.frame s.nextFrame).kind = .direct n.val)
      ∧ (txMode ws = 2 → ∃ t, exec (.poolWrite n data) s = .next t
        ∧ (t.hq (64 + n.val)).done = (s.hq (64 + n.val)).done ++ [txDone idx ws 0]
        ∧ t.deckOf 0 = (s.deckOf 0).runWrite (fld (wordAt ws 3) 0 20) (cellsOf (txLen ws)) (s.txBytes ws data))
      ∧ (txSrcPool ws = false → q.val = 64 + n.val → ∃ t, exec (.dmaReadError q) s = .next t
        ∧ (t.hq (64 + n.val)).done = (s.hq (64 + n.val)).done ++ [txDone idx ws 0x09]))
    ∧ (∀ (n : Fin 16) idx ws, q.val = 128 + n.val → s.nextCmd n.val = some (idx, ws) → dOp ws ≠ 0x3F → s.earlyFault ws = none →
      ∃ t, exec (.dmaReadError q) s = .next t
        ∧ (t.hq q.val).done = (s.hq q.val).done ++ [doneOf idx ws (fail stDmaError) 0])
    ∧ (∀ (n : Fin 8) e es, (s.hq (144 + n.val)).fetched = e :: es → (s.hq (144 + n.val)).fill ≠ [] →
      (s.hq (144 + n.val)).fillAt + 1000000 ≤ s.clk.up →
      ∃ t, exec (.exportBufferTimeout n) s = .next t ∧ (t.hq (144 + n.val)).fill = []
        ∧ ∃ d ds, (t.hq (144 + n.val)).done = (s.hq (144 + n.val)).done ++ d :: ds ∧ d.idx = e.1
          ∧ d.data = (s.hq (144 + n.val)).fill.flatMap Export.wire
          ∧ d.words = doneWords e.2 (BitVec.ofNat 32 (s.hq (144 + n.val)).fill.length) 0)
    ∧ (s.hqDue q.val = true → ∃ t, exec (.irqHoldoff q) s = .next t ∧ (t.hq q.val).pending = false
      ∧ (s.host.cfg.msixOn = false → t.out = s.out ∧ t.host.msix = s.host.msix)
      ∧ (s.host.cfg.msixOn = true →
        if AMap.get false s.host.msix.clear (s.hqVector q.val) && !s.host.cfg.msixMask then
          t.out = s.out ++ [.msix (s.hqVector q.val)]
        else t.out = s.out ∧ AMap.get false t.host.msix.pend (s.hqVector q.val) = true))

/-- PCIE function commands complete (R346, R348, R367): a function reset or a link that goes down disables every queue with ERR
= LINK; the link comes up; PERST_N holds the core; Bus Master Enable is taken; a poisoned write is reported, as AER's non-fatal
error too while that is enabled. -/
def Obligations.PcieCommandsComplete : Prop :=
  ∀ s : State, s.live = true →
    (∀ c, c = Instr.flr ∨ c = .hotReset ∨ (c = .pcieLinkDown ∧ s.host.linkUp = true) →
      ∃ t, exec c s = .next t ∧ (∀ i, i < 153 → (t.hq i).st = .disabled ∧ (t.hq i).err = errLink)
        ∧ t.rbit pgHostdma 0x10 evHostLink = true ∧ (c = .pcieLinkDown → t.host.linkUp = false))
    ∧ (∀ (w : Fin 4) (g : Fin 5), s.pcieReady = true → s.host.linkUp = false → ∃ t, exec (.pcieLinkUp w g) s = .next t
      ∧ t.host.linkUp = true ∧ t.host.width = 2 ^ w.val ∧ t.host.speed = g.val + 1)
    ∧ (∃ t, exec (.perstN false) s = .next t ∧ t.host.perst = true ∧ t.host.bme = false)
    ∧ (∃ t, exec (.perstN true) s = .next t ∧ t.host.perst = false)
    ∧ (∀ b d, ∃ t, exec (.busMasterEnable b d) s = .next t ∧ t.host.bme = b ∧ t.host.d3hot = d)
    ∧ (∃ t, exec .poisonedWrite s = .next t ∧ t.rbit pgHostdma 0x10 evPoison = true
      ∧ (s.host.cfg.nonFatal = true → t.out = s.out ++ [.errNonFatal]) ∧ (s.host.cfg.nonFatal = false → t.out = s.out))

/-- CRUISER commands complete (R373 to R384): a request arms a capture or is refused, STOP cancels it; at its time every
island is captured under the next number; when both parts are in HBM, or the copy to the host has ended, the snapshot is
done; bandwidth windows roll, restart and lose their peaks. -/
def Obligations.CruiserCommandsComplete : Prop :=
  ∀ s : State, s.live = true →
    (∀ req, s.WritesNow req pgCruiser Reg.crCtrl → s.cruiser.st = .idle → s.now + 2000 ≤ nsOfTs (s.reg64 pgCruiser Reg.crSnapT) →
      ∃ t, exec (.snap req) s = .next t ∧ t.cruiser.st = .armed
        ∧ t.cruiser.next = some (nsOfTs (s.reg64 pgCruiser Reg.crSnapT)))
    ∧ (∀ req, s.WritesNow req pgCruiser Reg.crCtrl → s.cruiser.st ≠ .idle →
      ∃ t, exec (.snap req) s = .next t ∧ t.cruiser.rej = snapBusy ∧ t.rbit pgCruiser 0x10 evReject = true)
    ∧ (∀ req, s.WritesNow req pgCruiser Reg.crCtrl → s.cruiser.st = .armed →
      ∃ t, exec (.stop req) s = .next t ∧ t.cruiser.st = .idle ∧ t.cruiser.next = none)
    ∧ (∀ u, s.cruiser.st = .armed → s.cruiser.next = some u → u ≤ s.now → (s.cruiser.auto && s.deferred) = false →
      ∃ t, exec .snapshotCapture s = .next t ∧ t.cruiser.st = .capturing ∧ t.cruiser.t = u
        ∧ t.cruiser.n = ((s.reg pgCruiser Reg.crSeq).toNat + 1) % 2 ^ 32
        ∧ t.cruiser.west = s.capturePart 0 s.cruiser.fam ∧ t.cruiser.east = s.capturePart 1 s.cruiser.fam)
    ∧ (s.cruiser.st = .capturing → s.cruiser.west.doneAt ≠ none → s.cruiser.east.doneAt = none →
      AMap.get false s.fire.hbmHot 1 = false → (s.hbmOf 1).st ≠ .retrain →
      ((s.hbmOf 1).st = .init → s.cruiser.east.absent = true) → s.rbit pgCruiser Reg.crCtrl 2 = false →
      ∃ t, exec (.snapshotPartDone 1) s = .next t ∧ t.rbit pgCruiser 0x10 evSnapDone = true
        ∧ t.reg pgCruiser Reg.crSeq = BitVec.ofNat 32 s.cruiser.n)
    ∧ (s.cruiser.st = .capturing → s.cruiser.west.doneAt = none → s.cruiser.east.doneAt = none →
      AMap.get false s.fire.hbmHot 0 = false → (s.hbmOf 0).st ≠ .retrain →
      ((s.hbmOf 0).st = .init → s.cruiser.west.absent = true) →
      ∃ t, exec (.snapshotPartDone 0) s = .next t ∧ t.cruiser.west.doneAt = some s.now ∧ t.cruiser.st = .capturing)
    ∧ (s.cruiser.st = .transfer → s.dmaOk = true →
      (s.cruiser.west.len + 4095) / 4096 * 4096 + s.cruiser.east.len ≤ (s.reg pgCruiser Reg.crHostLen).toNat →
      ∃ t, exec .snapshotTransferDone s = .next t ∧ t.rbit pgCruiser 0x10 evSnapDone = true
        ∧ .hostWrite (s.reg64 pgCruiser Reg.crHostAddr
            + s.cruiser.n % orElse0 (s.rf pgCruiser Reg.crHostCfg 0 4) 1 * (s.reg pgCruiser Reg.crHostLen).toNat)
          (s.cruiser.bytes s.cruiser.west 0) true ∈ t.out)
    ∧ (s.cruiser.bwOn = true → s.now / s.bwWindow * s.bwWindow ≠ s.cruiser.bwAt →
      ∃ t, exec .bwWindowEnd s = .next t ∧ t.cruiser.bwAt = s.now / s.bwWindow * s.bwWindow
        ∧ t.cruiser.bw = bwMap (·.roll s.cruiser.bwAt) s.cruiser.bw)
    ∧ (∀ req, s.WritesNow req pgCruiser Reg.crBwCtrl →
      ∃ t, exec (.pkClr req) s = .next t ∧ t.cruiser.bw = bwMap (·.noPeaks) s.cruiser.bw)
    ∧ (∀ req (k : Fin 8), s.WritesNow req pgCruiser Reg.crBwCtrl →
      ∃ t, exec (.winLengthWrite req k) s = .next t ∧ t.rf pgCruiser Reg.crBwCtrl 0 3 = k.val
      ∧ t.cruiser.bwOn = false)

/-- LOOKOUT commands complete (R389 to R399): a message of a rise or a pulse, or a level that has risen without one, latches its
source, a message with its record, and a fall ends ACTIVE; a clear releases a source that is not active, or all of them; FAULT_N
rises when it is released after its pulse; a trap record reaches the head; the fatal summary is written, one that a chip reset has
overtaken first. Of a write that fails the slot's CRC does not match (log entry 88). -/
def Obligations.LookoutCommandsComplete : Prop :=
  ∀ s : State,
    (s.live = true →
      (∀ fab m ms, s.blockUp pgLookout = true → s.lookout.q fab = m :: ms →
        (m.typ ≠ .fall → s.srcLatched m.src = false → s.reactions m.src / 4 % 2 = 0 →
          ∃ t, exec (.lookoutMessage fab none) s = .next t ∧ t.srcLatched m.src = true
            ∧ AMap.get noRecord t.lookout.recs m.src = m
            ∧ (s.reactions m.src = 0 → fld (s.loSrc m.src) 5 2 ≠ 3 → t.lookout.q fab = ms))
        ∧ (m.typ = .fall → ∃ t, exec (.lookoutMessage fab none) s = .next t ∧ t.srcActive m.src = false
          ∧ t.srcLatched m.src = s.srcLatched m.src ∧ t.lookout.q fab = ms))
      ∧ (∀ n : Fin 512, s.blockUp pgLookout = true → AMap.get false s.lookout.missed n.val = true →
        s.lineSeen n.val = true → s.reactions n.val / 4 % 2 = 0 →
        ∃ t, exec (.levelRiseWithoutMessage n) s = .next t ∧ t.srcActive n.val = true ∧ t.srcLatched n.val = true)
      ∧ (∀ v, s.WritesNow .host pgLookout Reg.loClr →
        (bit v 31 = false → s.srcActive (fld v 0 9) = false → ∃ t, exec (.loClr v) s = .next t
          ∧ t.srcLatched (fld v 0 9) = false ∧ ∀ n, n ≠ fld v 0 9 → t.srcLatched n = s.srcLatched n)
        ∧ (bit v 31 = true → ∃ t, exec (.loClr v) s = .next t ∧ ∀ n, s.srcActive n = false → t.srcLatched n = false))
      ∧ (s.WritesNow .host pgLookout Reg.loPinRel → s.lookout.faultLow = true → s.lookout.pulseEnd = none →
        ∃ t, exec .loPinRel s = .next t ∧ t.lookout.faultLow = false ∧ t.out = s.out ++ [.pin .faultN true])
      ∧ (∀ m ms, s.headReaches = true → s.lookout.traps = m :: ms → ∃ t, exec .trapDeliver s = .next t
        ∧ t.lookout.traps = ms ∧ t.forester.traps = s.forester.traps ++ [m]))
    ∧ (∀ u, s.lookout.pulseEnd = some u → u ≤ s.clk.up → ∃ t, exec .faultPulseEnd s = .next t
      ∧ t.lookout.pulseEnd = none ∧ t.lookout.faultLow = (s.lookout.faultLow && !s.lookout.relPend))
    ∧ (∀ ok c m, s.lookout.owed = [] → s.lookout.fatal = some (c, m) → s.lookout.chipRst = 0 →
      ∃ t, exec (.fatalWr ok) s = .next t ∧ t.lookout.fatal = none ∧ t.lookout.nextNum = s.lookout.nextNum + 1
        ∧ AMap.get [] t.mram.sums (s.lookout.nextNum % 16) = (if ok then s.sumBytes (s.summary c m) s.lookout.nextNum
          else spoilCrc (s.sumBytes (s.summary c m) s.lookout.nextNum)))
    ∧ (∀ ok x xs, s.lookout.owed = x :: xs → ∃ t, exec (.fatalWr ok) s = .next t
      ∧ t.lookout.owed = xs ∧ t.lookout.fatal = s.lookout.fatal ∧ t.lookout.nextNum = s.lookout.nextNum + 1
      ∧ AMap.get [] t.mram.sums (s.lookout.nextNum % 16) = (if ok then s.sumBytes x s.lookout.nextNum
        else spoilCrc (s.sumBytes x s.lookout.nextNum)))

/-- FIREBREAK commands complete (R403 to R421, 18_pins_electrical.md R482): a sample gives FB_P_NOW; a breached cap deepens, and
is released below its hysteresis; the head writes FB_CAL, which goes stale; deferral ends at its limit; FIXED is written, and a
change of it clears every depth; droops are counted and reported; the stack temperatures are read; the thermal depth rises and
falls; supply warnings are taken, VDD_CORE's with its depth, and end; a hint waits, opens its window, lengthens it, ends, or is
not acknowledged; a change of ALERT_N is reported. Outside a power-on reset, whatever else the device does, a thermal trip stops
it, and a dip asks for a chip reset, but for one within 50 us of another. -/
def Obligations.FirebreakCommandsComplete : Prop :=
  ∀ s : State, (s.live = true →
    (∃ t, exec .powerSample s = .next t ∧ t.reg pgFirebreak Reg.fbPNow
      = BitVec.ofNat 32 (calibrate (s.reg pgFirebreak Reg.fbCal) (Config.rawPower s.freeCtr)))
    ∧ (∀ c, s.breached c = true → (s.capCheck c).above (s.capOf c) = true → s.fixedMode = false →
      ∃ t, exec (.capEvaluate c) s = .next t ∧ t.fire.capDepth c = depthUp c (s.fire.capDepth c))
    ∧ (∀ c, s.breached c = false → (s.capCheck c).below (s.capOf c * (100 - s.hyst)) 100 = true → s.fire.capDepth c ≠ 0 →
      s.releaseDue c = true → s.fixedMode = false →
      ∃ t, exec (.capEvaluate c) s = .next t ∧ t.fire.capDepth c = depthDown c (s.fire.capDepth c))
    ∧ (∀ (cl : Half) (e v : Word) (r : Requester), r = (if cl.val = 0 then .west else .east) → s.runsOn r = true →
      s.fenceRuns r = false → s.frontCause true (accessTo r pgFirebreak Reg.fbCal v) = none → s.pageReady r pgFirebreak = true →
      s.headNow cl.val e.toNat = true → ∃ t, exec (.fbCalUpdate cl e v) s = .next t
      ∧ t.reg pgFirebreak Reg.fbCal = v ∧ t.fire.calAt = s.clk.up)
    ∧ (s.fire.calTold = false → s.fire.calAt + 100000000 ≤ s.clk.up → ∃ t, exec .calStale s = .next t
      ∧ t.rbit pgFirebreak 0x10 evCalStale = true)
    ∧ (s.deferred = true → 1000000000 ≤ s.deferRecent → ∃ t, exec .deferralLimit s = .next t ∧ t.deferred = false)
    ∧ (∀ req on, s.WritesNow req pgFirebreak Reg.fbCtrl → ∃ t, exec (.fixed req on) s = .next t ∧ t.fixedMode = on
      ∧ (s.fixedMode ≠ on → t.fire.dFast = 0 ∧ t.fire.dSus = 0 ∧ t.fire.dLong = 0 ∧ t.fire.dTherm = 0 ∧ t.fire.dUv = 0))
    ∧ (∀ (h : Half) ns, ∃ t, exec (.droopOnset h ns) s = .next t
      ∧ t.reg64 pgFirebreak (Reg.fbDroopCnt h.val) = (s.reg64 pgFirebreak (Reg.fbDroopCnt h.val) + 1) % 2 ^ 64
      ∧ ((∀ u, AMap.get none s.fire.droopAt h.val = some u → u + 1000000 ≤ s.clk.up) →
        AMap.get none t.fire.droopAt h.val = some s.clk.up))
    ∧ (∀ x, s.halfUp 0 = true → s.halfUp 1 = true → ∃ t, exec (.tempSample x) s = .next t
      ∧ t.reg (pgHbm 0) Reg.hbTemp = BitVec.ofNat 32 (x.hbm0 % 256).toNat
      ∧ t.reg (pgHbm 1) Reg.hbTemp = BitVec.ofNat 32 (x.hbm1 % 256).toNat)
    ∧ (s.tempThr Reg.fbTempThr ≤ s.hottest → (∀ u, s.fire.thermAt = some u → u + 1000000 ≤ s.clk.up) →
      s.fixedMode = false → ∃ t, exec .thermalStep s = .next t ∧ t.fire.dTherm = min 10 (s.fire.dTherm + 1)
        ∧ t.rbit pgFirebreak 0x10 evTempThr = true)
    ∧ (s.hottest ≤ s.tempThr Reg.fbTempThr - 3 → (∀ u, s.fire.thermAt = some u → u + 10000000 ≤ s.clk.up) →
      s.fire.dTherm ≠ 0 → ∃ t, exec .thermalStep s = .next t ∧ t.fire.dTherm = s.fire.dTherm - 1)
    ∧ (∀ rail high, ∃ t, exec (.supplyWarning rail high) s = .next t ∧ AMap.get false t.fire.rails rail.val = true
      ∧ (rail.val = 0 → high = false → s.fixedMode = false → t.fire.dUv = 2 + (16 - s.uvStep)))
    ∧ (∀ rail : Fin 11, AMap.get false s.fire.rails rail.val = true → ∃ t, exec (.supplyRecovery rail) s = .next t
      ∧ AMap.get false t.fire.rails rail.val = false)
    ∧ (∀ u, s.fire.uvRec = some u → u + 100000 ≤ s.clk.up → ∃ t, exec .uvRelease s = .next t ∧ t.fire.dUv = 0)
    ∧ (∀ (d : BitVec 16) us, s.WritesNow .host pgFirebreak Reg.fbHint → s.rbit pgFirebreak Reg.fbCtrl 2 = true →
      us = (if d.toNat = 0 then s.heavyUs else d.toNat) →
      (s.fire.hintEnd = none → s.fire.hintPend = none →
        ∃ t, exec (.hint d) s = .next t ∧ t.fire.hintPend = some (us, s.clk.up)
          ∧ t.fire.volt = (if s.ioBank 1 then min 800 (s.fire.base + s.rf pgFirebreak Reg.fbHintCfg 0 8) else s.fire.volt))
      ∧ (∀ e, s.fire.hintEnd = some e → ∃ t, exec (.hint d) s = .next t
        ∧ t.fire.hintEnd = some (max e (s.clk.up + us * 1000))))
    ∧ (∀ x, s.fire.hintPend = some x → s.ioBank 1 = true → ∃ t, exec .hintAck s = .next t ∧ t.fire.hintPend = none
      ∧ t.fire.hintEnd = some (s.clk.up + x.1 * 1000) ∧ t.fire.dHint = b2n (!s.fixedMode))
    ∧ (∀ u, s.fire.hintEnd = some u → u ≤ s.clk.up → ∃ t, exec .hintWindowEnd s = .next t ∧ t.fire.hintEnd = none
      ∧ t.fire.dHint = 0 ∧ t.fire.volt = (if s.ioBank 1 then s.fire.base else s.fire.volt))
    ∧ (∀ x, s.fire.hintPend = some x → x.2 + 200000 ≤ s.clk.up → ∃ t, exec .pmbusErr s = .next t
      ∧ t.fire.hintPend = none ∧ t.fire.volt = (if s.ioBank 1 then s.fire.base else s.fire.volt)
      ∧ t.fire.hintEnd = some (s.clk.up + x.1 * 1000))
    ∧ (∀ level, AMap.get false s.lookout.level (32 * 26 + 8) = level → s.lookout.qCommon.length < 256 →
      ∃ t m, exec (.alertN level) s = .next t
      ∧ t.lookout.qCommon = s.lookout.qCommon ++ [m] ∧ m.src = 26 ∧ m.code = 8
      ∧ AMap.get false t.lookout.level (32 * 26 + 8) = !level)
    ∧ (∀ level, AMap.get false s.lookout.level (32 * 26 + 8) ≠ level → exec (.alertN level) s = .next s))
    ∧ (s.rst.tripped = false → s.rst.porstAt = none →
      (∀ h, ∃ t, exec (.thermalTrip h) s = .next t ∧ t.rst.tripped = true ∧ t.live = false
        ∧ t.lookout.fatal ≠ none ∧ .pin .thermtripN false ∈ t.out)
      ∧ (∀ b, s.dipFresh = true → ∃ t, exec (.resetDip b) s = .next t ∧ t.lookout.chipRst = Nat.lor s.lookout.chipRst causeDip
        ∧ t.lookout.fatal ≠ none ∧ t.lookout.dipAt = some s.clk.up)
      ∧ (∀ b, s.dipFresh = false → exec (.resetDip b) s = .next s))

/-- FORESTER commands complete (R425 to R429, R436, R441, R445, 17_reset_retained.md R454): a claim makes a head of the next
EPOCH, of two with one EPOCH on one edge the one of the HEAD_SEL half stands, a renewal extends the lease and a lapse ends it; a
mismatch stops a cluster; a cluster that boots, from flash or, as BOOT_SRC has it, the console, reaches STANDBY when its image
verifies; a life-cycle change blows the fuses, with the identity's seed; the previous bins enter the performance history. -/
def Obligations.ForesterCommandsComplete : Prop :=
  ∀ (s : State) (cl : Half), s.live = true →
    (∀ e : Word, (s.cluster cl.val).st = .standby → s.reachesAon cl.val = true → e.toNat = s.forester.epoch →
      s.forester.holder = 0 → s.mayClaim cl.val = true →
      ∃ t, exec (.headClaim cl e) s = .next t ∧ t.forester.holder = cl.val + 1
        ∧ t.forester.epoch = (s.forester.epoch + 1) % 2 ^ 32 ∧ (t.cluster cl.val).st = .head)
    ∧ (∀ e : Word, (s.cluster cl.val).st = .standby → s.reachesAon cl.val = true → s.tied cl.val e = true →
      ∃ t, exec (.headClaim cl e) s = .next t ∧ t.forester.holder = cl.val + 1 ∧ t.forester.epoch = s.forester.epoch
        ∧ (t.cluster cl.val).st = .head ∧ (t.cluster (1 - cl.val)).st = .standby)
    ∧ (s.forester.holder = cl.val + 1 → (s.cluster cl.val).st = .head → s.reachesAon cl.val = true →
      ∃ t, exec (.leaseRenew cl) s = .next t ∧ t.forester.leaseAt = s.clk.up)
    ∧ (s.forester.holder ≠ 0 → s.forester.leaseAt + 20000000 ≤ s.clk.up → ∃ t, exec .leaseExpire s = .next t
      ∧ t.forester.holder = 0 ∧ t.forester.epoch = (s.forester.epoch + 1) % 2 ^ 32)
    ∧ ((s.cluster cl.val).st ≠ .off → (s.cluster cl.val).st ≠ .failed → ∃ t, exec (.lockstepMismatch cl) s = .next t
      ∧ (t.cluster cl.val).st = (if s.missedBefore cl.val then .failed else .boot)
      ∧ t.forester.holder = (if s.forester.holder = cl.val + 1 ∧ s.reachesAon cl.val = true then 0 else s.forester.holder))
    ∧ (∀ fl, s.bootReady cl.val = true → ∃ t, exec (.clusterBootDone cl fl) s = .next t
      ∧ (t.cluster cl.val).st = (match s.bootChoice fl with | some _ => .standby | none => .boot)
      ∧ ∀ slot i, s.bootChoice fl = some (slot, i) → (t.cluster cl.val).ver = i.ver ∧ (t.cluster cl.val).slot = slot)
    ∧ (∀ img, s.bootReady cl.val = true → s.rst.bootSrc = 3 ∨ (s.rst.bootSrc = 1 ∧ (s.cluster cl.val).uart = true) →
      ∃ t, exec (.recoveryImage cl img) s = .next t ∧ (t.cluster cl.val).st = (match s.verifyImage true img with
        | .good i => if imgType i.hdr = 5 then .standby else .boot
        | .bad _ => .boot))
    ∧ (∀ life due, s.forester.lcNext = some (life, due) → due ≠ 0 → due ≤ s.clk.up →
      ∃ t, exec .lcFuseWrite s = .next t ∧ t.fuses.life = life ∧ t.fuses.wipeDone = false ∧ t.forester.lcNext = none
        ∧ ((life = 1 ∨ life = 2) → s.fuses.seed = [] → t.fuses.seed = drawSeed s.freeCtr))
    ∧ (∀ day q, s.headReaches = true → q ∈ s.spans.map (·.1) → s.spanOn q = true →
      s.mram.hist.length + s.spans.length ≤ 64 →
      ∃ t, exec (.pmHistoryCopy day) s = .next t ∧ ∃ y ∈ t.mram.hist, y.pos = q
        ∧ (if day then y.nearDay else y.near15).head? = some (s.pmStart q day, s.pmBin q (if day then 3 else 1)))

/-- MAILBOX commands complete (R430 to R436, R440, R442 to R445): the head carries out each operation and holds its result,
then publishes it; without a head for 100 ms the command ends with NO_HEAD. -/
def Obligations.MailboxCommandsComplete : Prop :=
  ∀ s : State, s.live = true →
    (s.MailboxRuns 0x01 → ∃ t, exec .info s = .next t ∧ t.forester.mb.result = some s.mbInfo)
    ∧ (∀ x, s.MailboxRuns 0x02 → s.ioBank 1 = true → ∃ t, exec (.sensors x) s = .next t
      ∧ t.forester.mb.result = some (s.mbSensors x.words).2
      ∧ t.rf pgFirebreak Reg.fbVcore 16 16 = fld (wordAt x.words 0) 0 16)
    ∧ (s.MailboxRuns 0x03 → 8 ≤ s.mbReq.length → s.mbArg 1 = 1 → ∃ t, exec .logRead s = .next t
      ∧ t.forester.mb.result = some (mbDone (wordsLe (s.longWords (s.mbArg 0)))))
    ∧ (∀ x, s.MailboxRuns 0x04 → 4 ≤ s.mbReq.length → AMap.get [] s.mram.sums (s.mbArg 0 % 16) = x →
      sumValid (s.mbArg 0 % 16) x = true → leAt x 8 4 = s.mbArg 0 →
      ∃ t, exec .fatalRead s = .next t ∧ t.forester.mb.result = some (mbDone x))
    ∧ (s.MailboxRuns 0x05 → ∃ t, exec .trapRead s = .next t ∧ t.forester.traps = s.forester.traps.drop 256
      ∧ t.forester.mb.result = some (mbDone ((s.forester.traps.take 256).flatMap (fun m => wordsLe (msgWords m)))))
    ∧ (∀ x, s.MailboxRuns 0x10 → 4 ≤ s.mbReq.length → s.mram.hist.find? (fun x => decide (x.pos = s.mbPos)) = some x →
      ∃ t, exec .pmRead s = .next t ∧ t.forester.mb.result = some (mbDone
        ((x.bins (decide (s.mbArg 0 / 256 % 2 = 1)) (decide (s.mbArg 0 / 512 % 2 = 1))).flatMap pmBinBytes)))
    ∧ (s.MailboxRuns 0x11 → 4 ≤ s.mbReq.length → s.chRoute s.mbPos s.mbPath = .forester →
      ∃ t, exec .chRead s = .next t
        ∧ (t.span s.mbPos).chRx s.mbPath = ((s.span s.mbPos).chRx s.mbPath).drop 4096
        ∧ t.forester.mb.result = some (mbDone (((s.span s.mbPos).chRx s.mbPath).take 4096)))
    ∧ (s.MailboxRuns 0x12 → 4 ≤ s.mbReq.length → s.chRoute s.mbPos s.mbPath = .forester →
      ∃ t, exec .chWrite s = .next t ∧ (t.span s.mbPos).chTx s.mbPath = (s.span s.mbPos).chTx s.mbPath
        ++ (s.mbReq.drop 4).take (4096 - ((s.span s.mbPos).chTx s.mbPath).length))
    ∧ (∀ img, s.MailboxRuns 0x20 → 4 ≤ s.mbReq.length → s.dmaOk = true → imgType (s.mbBuffer img) = s.mbArg 0 →
      ∃ t, exec (.imgStage img) s = .next t
        ∧ t.forester.mb.result = some (match s.verifyImage s.strict (s.mbBuffer img) with
            | .bad st => mbStat st
            | .good i => (s.stage (s.mbBuffer img) i).2)
        ∧ ∀ i, s.verifyImage s.strict (s.mbBuffer img) = .good i → imgType i.hdr = 3 →
          AMap.get none t.forester.staged 3 = some i)
    ∧ (∀ i recs, s.MailboxRuns 0x21 → 4 ≤ s.mbReq.length → s.mbArg 0 = 3 → s.headRecovers = false →
      AMap.get none s.forester.staged 3 = some i →
      payloadRecs i.payload = some recs →
      recs.any (({ s with forester := { s.forester with staged := AMap.set none s.forester.staged 3 none } } :
        State).recRefused s.headReq) = false →
      ∃ t, exec .imgApply s = .next t ∧ t.forester.mb.result = some (mbStat mbOk))
    ∧ (s.MailboxRuns 0x22 → 4 ≤ s.mbReq.length → s.mbArg 0 < 2 → (s.cluster (s.mbArg 0)).st ≠ .head →
      ∃ t, exec .restart s = .next t ∧ (t.cluster (s.mbArg 0)).st = .boot
        ∧ t.forester.mb.result = some (mbStat mbOk))
    ∧ (s.MailboxRuns 0x23 → (s.cluster (1 - s.headIdx)).st = .standby →
      (s.cluster s.headIdx).svn ≤ (s.cluster (1 - s.headIdx)).svn → s.flumeUp = true → s.forester.holder ≤ 2 →
      ∃ t, exec .handover s = .next t ∧ t.forester.holder = 3 - s.forester.holder
        ∧ (t.cluster (1 - s.headIdx)).st = .head ∧ (t.cluster s.headIdx).st = .standby
        ∧ t.forester.mb.result = some (mbStat mbOk))
    ∧ (s.MailboxRuns 0x30 → s.rst.restoring = false → ∃ t, exec .cfgSave s = .next t ∧ t.forester.mb.result
      = some (if bodyMax < s.cfgBuild.body_.length then mbStat mbStorage else mbDone (leBytes 8 s.cfgBuild.seq)))
    ∧ (s.MailboxRuns 0x40 → s.hasIdentity = true → 64 ≤ s.mbReq.length → 5376 ≤ s.forester.mb.alen →
      ∃ t, exec .attest s = .next t
        ∧ t.forester.mb.result = some { status := mbOk, data := s.report_ s.mbReq })
    ∧ (s.MailboxRuns 0x41 → s.hasIdentity = true → ∃ t, exec .ident s = .next t
      ∧ t.forester.mb.result = some (mbDone s.identityKey))
    ∧ (s.MailboxRuns 0x42 → 1 ≤ s.mbReq.length → ∃ t, exec .measExtend s = .next t
      ∧ t.meas 7 = sha3 (s.meas 7 ++ s.mbReq) ∧ t.forester.mb.result = some (mbStat mbOk))
    ∧ (∀ img, s.MailboxRuns 0x50 → 4 ≤ s.mbReq.length → s.dmaOk = true → ∃ t, exec (.lcAdvance img) s = .next t
      ∧ t.forester.mb.result = some (match s.verifyImage s.strict (s.mbBuffer img) with
          | .bad st => mbStat st
          | .good i => match s.tokenTarget i with | .inl _ => mbStat mbOk | .inr st => mbStat st)
      ∧ ∀ i life, s.verifyImage s.strict (s.mbBuffer img) = .good i → s.tokenTarget i = .inl life →
        t.forester.lcNext = some (life, 0))
    ∧ (∀ x xs, s.MailboxRuns 0x51 → 4 ≤ s.mbReq.length → 1 ≤ s.mbArg 0 → s.mbArg 0 ≤ 6 →
      s.runningSvns (s.mbArg 0) = x :: xs → ∃ t, exec .svnAdvance s = .next t
        ∧ AMap.get 0 t.fuses.svn (s.mbArg 0) = max (AMap.get 0 s.fuses.svn (s.mbArg 0)) (min 63 (xs.foldl min x)))
    ∧ (∀ k, s.MailboxRuns 0x52 → 68 ≤ s.mbReq.length → s.fuses.life = 1 → s.mbArg 0 = k → (k = 2 ∨ k = 3) →
      AMap.get [] s.fuses.keys k = [] →
      ∃ t, exec .keyProgram s = .next t ∧ AMap.get [] t.fuses.keys k = bytesAt s.mbReq 4 64)
    ∧ (∀ r, s.forester.mb.busy = true → s.headReaches = true → s.stillBoots = false →
      (if s.forester.mb.op ∈ mbOps then ∃ x, s.forester.mb.result = some x ∧ r = (s.mbSettle (s.mbFinal x)).2
        else r = mbStat mbBadOp) →
      ∃ t, exec .mailboxComplete s = .next t ∧ t.forester.mb.busy = false ∧ t.forester.mb.done = true
        ∧ t.forester.mb.status = r.status ∧ t.rbit pgForester 0x10 evDone = true)
    ∧ (s.forester.mb.busy = true → s.forester.mb.headed = false → s.forester.mb.goAt + 100000000 ≤ s.clk.up →
      ∃ t, exec .noHead s = .next t ∧ t.forester.mb.busy = false ∧ t.forester.mb.status = mbNoHead)

/-- RESET commands complete (R444 to R459): a power-on, a chip reset and the end of a wipe leave their cause, PHASE FUSES,
their count and what is retained, CHIPRST_N while PORST_N is low nothing but its level; a half, a slice and a block go into
reset and come back, and during start-up a request is rejected with BUSY; the Flume channel falls and comes back; the wipe,
the restore and RUN follow each other. -/
def Obligations.ResetCommandsComplete : Prop :=
  (∀ s pins, s.rst.porstAt = none → ∃ t, exec (.porstN false pins) s = .next t ∧ t.rst.porstAt = some s.clk.up
      ∧ t.rst.cause = causePower ∧ t.rst.phase = .fuses ∧ t.rst.tripped = false
      ∧ t.mram = { s.mram with hist := t.mram.hist } ∧ t.fuses = s.fuses
      ∧ t.reg pgReset Reg.rstCount = 0 ∧ t.frames = [])
  ∧ (∀ s pins t0, s.rst.porstAt = some t0 → ∃ t, exec (.porstN true pins) s = .next t ∧ t.rst.porstAt = none
      ∧ t.rst.t0 = s.clk.up ∧ t.rst.headSel = pins.headSel ∧ t.rst.bootSrc = pins.bootSrc.val ∧ t.rst.phase = .fuses)
  ∧ (∀ s pins, s.rst.porstAt = none → s.rst.chipAt = none → ∃ t, exec (.chiprstN false pins) s = .next t
      ∧ t.rst.chipAt = some s.clk.up ∧ t.rst.cause = causePin ∧ t.rst.phase = .fuses
      ∧ t.mram = { s.mram with hist := t.mram.hist } ∧ t.fuses = s.fuses
      ∧ t.reg pgReset Reg.rstCount = s.reg pgReset Reg.rstCount + 1 ∧ t.frames = [])
  ∧ (∀ s pins t0, s.rst.porstAt = some t0 → s.rst.chipAt = none →
      exec (.chiprstN false pins) s = .next { s with rst := { s.rst with chipAt := some s.clk.up } })
  ∧ (∀ s pins t0, s.rst.chipAt = some t0 → ∃ t, exec (.chiprstN true pins) s = .next t
      ∧ t.rst.chipAt = none ∧ t.rst.t0 = s.clk.up ∧ t.rst.headSel = pins.headSel ∧ t.rst.bootSrc = pins.bootSrc.val)
  ∧ (∀ s pins, ∃ t, exec (.vddAonReset pins) s = .next t ∧ t.rst.cause = causePower ∧ t.rst.phase = .fuses
      ∧ t.rst.tripped = false
      ∧ t.mram = { s.mram with hist := t.mram.hist } ∧ t.fuses = s.fuses ∧ t.reg pgReset Reg.rstCount = 0 ∧ t.frames = [])
  ∧ (∀ s, s.fuses.wipeDone = false → s.rst.porstAt = none → s.rst.chipAt = none → s.rst.tripped = false →
      ∃ t, exec .wipeDone s = .next t ∧ t.mram = {} ∧ .flashWipe ∈ t.out
        ∧ t.fuses = { s.fuses with wipeDone := true, seed := if s.fuses.life = 3 then [] else s.fuses.seed }
        ∧ t.rst.cause = causeLife ∧ t.reg pgReset Reg.rstCount = s.reg pgReset Reg.rstCount + 1 ∧ t.frames = [])
  ∧ ∀ s : State, s.live = true →
    (∀ v, s.WritesNow .host pgReset Reg.rstChip → s.starting = false → fld v 16 16 = 0x9204 →
      ∃ t, exec (.rstChip v) s = .next t ∧ t.rst.cause = causeReg
      ∧ t.rst.phase = .fuses ∧ t.mram = { s.mram with hist := t.mram.hist } ∧ t.fuses = s.fuses
      ∧ t.reg pgReset Reg.rstCount = s.reg pgReset Reg.rstCount + 1 ∧ t.frames = [])
    ∧ (∀ v, s.WritesNow .host pgReset Reg.rstHalf → s.starting = false → fld v 16 16 = 0x9204 → s.halfUp 0 = true →
      s.halfUp 1 = true →
      ∃ t, exec (.rstHalf v) s = .next t ∧ t.halfUp (fld v 0 1) = false ∧ t.halfUp (1 - fld v 0 1) = true ∧ t.flumeUp = false
        ∧ (t.woodOf (fld v 0 1)).lpm = [])
    ∧ (∀ h : Half, s.halfUp h.val = false → ∃ t, exec (.halfDone h) s = .next t ∧ t.halfUp h.val = true
        ∧ (t.hbmOf h.val).st = .ready ∧ t.flumeUp = true ∧ (t.woodOf h.val).lpm = (s.woodOf (1 - h.val)).lpm)
    ∧ (∀ v, s.WritesNow .host pgReset Reg.rstSlice → s.starting = false → fld v 16 16 = 0x9204 →
      s.sliceUp (fld v 0 5) = true → ∃ t, exec (.rstSlice v) s = .next t ∧ t.sliceUp (fld v 0 5) = false
        ∧ t.mram = { s.mram with hist := t.mram.hist })
    ∧ (∀ v, s.starting = true → fld v 16 16 = 0x9204 →
      (s.WritesNow .host pgReset Reg.rstChip → ∃ t, exec (.rstChip v) s = .next t ∧ t.rst = { s.rst with rej := rejBusy })
      ∧ (s.WritesNow .host pgReset Reg.rstHalf → ∃ t, exec (.rstHalf v) s = .next t ∧ t.rst = { s.rst with rej := rejBusy })
      ∧ (s.WritesNow .host pgReset Reg.rstSlice → ∃ t, exec (.rstSlice v) s = .next t ∧ t.rst = { s.rst with rej := rejBusy }))
    ∧ (∀ sl : Slice, AMap.get false s.rst.slices sl.val = true → s.halfUp (sliceHalf sl.val) = true →
      ∃ t, exec (.sliceDone sl) s = .next t ∧ t.sliceUp sl.val = true)
    ∧ (∀ req p, (pageBlk p).isSome = true → blkIgnores p = false → s.starting = false → s.pageInReset p = false →
      s.blockUp p = true →
      s.rbit p 0x08 0 = false → (∀ sl, pageBlk p = some .parser → pageSlice p = some sl → (s.slice sl).swap = false) →
      (s.WritesNow req p Reg.pgCtrl → ∃ t, exec (.blkRst ⟨req, p⟩) s = .next t ∧ t.blockUp p = false)
      ∧ (s.Reaches true (accessTo req p Reg.pgCtrl 0) → postsWrite p Reg.pgCtrl = true → s.wbusy p = false →
        s.lockHits p Reg.pgCtrl = false → (∀ x ∈ s.bus.held, x.fenced = true ∨ accPage x.acc ≠ p) →
        ∃ t u, exec (.blkRst ⟨req, p⟩) s = .next t ∧ t.blockUp p = true ∧ t.wbusy p = true
          ∧ exec (.postedWritePerformed p) t = .next u ∧ u.blockUp p = false))
    ∧ (∀ p, s.blockUp p = false → (∀ sl, pageBlk p = some .parser → pageSlice p = some sl → (s.slice sl).swap = false) →
      ∃ t, exec (.blockResetDone p) s = .next t ∧ t.blockUp p = true)
    ∧ (s.halvesUp = true → s.flumeUp = true → ∃ t, exec .flumeChannelDown s = .next t ∧ t.flumeUp = false
      ∧ t.raft.far = s.raft.nbr)
    ∧ (s.halvesUp = true → s.flumeUp = false → ∃ t, exec .flumeChannelUp s = .next t ∧ t.flumeUp = true ∧ t.raft.far = []
      ∧ t.lookout.held = [])
    ∧ (s.rst.phase = .fuses ∨ s.rst.phase = .wipe → ∃ t, exec .startUpWipeDone s = .next t ∧ t.rst.phase = .boot
      ∧ t.forester.west.st = .boot ∧ t.forester.east.st = .boot ∧ (t.hbmOf 0).st = .ready ∧ (t.hbmOf 1).st = .ready)
    ∧ (∀ lane, s.headReaches = true → s.rst.phase = .boot ∨ s.rst.phase = .restore →
      ∃ t, exec (.restore lane) s = .next t ∧ t.rst.phase = .restore ∧ t.rst.restoring = true
        ∧ t.rst.rsrc = (match s.mram.chosen with | some x => x.1 + 1 | none => 0))
    ∧ (s.rst.restoring = true → s.headReaches = true → ∃ t, exec .restored s = .next t ∧ t.rst.phase = .run
      ∧ t.rst.restoring = false)

/-- BUS commands complete (R37 to R59): a write loads the fields it may or waits in its page's posting buffer; a posted
write is performed; a read answers the value, with its upper half held for the read of the other word; both halves of a
64-bit write take effect together; events clear and pages lock; window commands wait, then run and say so; a fence runs
until its requester's writes are done and holds the accesses that follow; a write of a life-cycle lock bit waits in the
posting buffer and sets the bit when it is performed (R446); a word of BAR2 is written and read (R346). -/
def Obligations.BusCommandsComplete : Prop :=
  ∀ s : State, s.live = true →
    (∀ a r, s.Reaches true a → s.PlainReg (accPage a) (accOff a) r → s.wbusy (accPage a) = false →
      ∃ t, exec (.registerWrite a) s = .next t
        ∧ (pageSlow (accPage a) = false ∨ isStaging (accPage a) (accOff a) = true →
          t.reg (accPage a) (accOff a) = (s.reg (accPage a) (accOff a) &&& ~~~(BitVec.ofNat 32 r.w))
            ||| (a.value &&& (BitVec.ofNat 32 r.w ||| BitVec.ofNat 32 r.w1s)))
        ∧ (postsWrite (accPage a) (accOff a) = true → accOff a ≠ Reg.winCmd →
          AMap.get none t.bus.posted (accPage a) = some ⟨a.req, .write (accOff a) a.value, s.bus.posts, s.carried a.req⟩))
    ∧ (∀ p o v r q n e, AMap.get none s.bus.posted p = some ⟨q, .write o v, n, e⟩ →
      s.writeFenced q p e = false → s.pageReady q p = true → s.PlainReg p o r →
      (∀ x ∈ s.bus.held, x.fenced = true ∨ accPage x.acc ≠ p) → o < 0x10000 →
      ∃ t, exec (.postedWritePerformed p) s = .next t ∧ t.wbusy p = false
        ∧ t.reg p o = (s.reg p o &&& ~~~(BitVec.ofNat 32 r.w)) ||| (v &&& (BitVec.ofNat 32 r.w ||| BitVec.ofNat 32 r.w1s)))
    ∧ (∀ a, s.Reaches false a → readWaits (accPage a) (accOff a) = false ∨ s.wbusy (accPage a) = false →
      ∃ t, exec (.counterLowRead a) s = .next t
        ∧ (a.size ≠ 8 → isHigh (accPage a) (accOff a) = false → t.out
          = s.out ++ [.readData a.req [BitVec.ofNat 32 (s.readVal a.req (accPage a) (accOff a))]])
        ∧ (a.size ≠ 8 → isHigh (accPage a) (accOff a) = false → isWide (accPage a) (accOff a) = true →
          AMap.get 0 t.bus.shadow (busKey a.req (accPage a))
            = BitVec.ofNat 32 (s.readVal a.req (accPage a) (accOff a) / 2 ^ 32))
        ∧ (a.size ≠ 8 → isHigh (accPage a) (accOff a) = true →
          t.out = s.out ++ [.readData a.req [AMap.get 0 s.bus.shadow (busKey a.req (accPage a))]])
        ∧ (a.size = 8 → t.out = s.out ++ [.readData a.req
            [BitVec.ofNat 32 (s.readVal a.req (accPage a) (accOff a)),
             BitVec.ofNat 32 (s.readVal a.req (accPage a) (accOff a) / 2 ^ 32)]]))
    ∧ (∀ req p o v, s.Reaches true (accessTo req p o v) → o < 0x10000 → isHigh p o = true → pageSlow p = false →
      readOnly p o = false → s.lockHits p o = false →
      ∃ t, exec (.counterHighWrite req p o v) s = .next t ∧ AMap.get 0 t.bus.staging (busKey req p) = v)
    ∧ (∀ req p o v, s.Reaches true (accessTo req p o v) → o < 0x10000 → isWide p o = true → isHigh p o = false →
      pageSlow p = false → readOnly p o = false → s.lockHits p o = false →
      ∃ t, exec (.counterLowWrite req p o v) s = .next t ∧ AMap.get 0 t.bus.staging (busKey req p) = 0
        ∧ ((p = pgCruiser → o < Reg.crTdCyc ∨ 0xB8 ≤ o) → (pageBlk p = some .span → o % 0x20 ≠ 8 ∧ o % 0x20 ≠ 0x0C) →
          t.reg64 p o = v.toNat + 2 ^ 32 * (AMap.get 0 s.bus.staging (busKey req p)).toNat)
        ∧ (p = pgCruiser → Reg.crTdCyc ≤ o → o < 0xB8 →
          t.tdRead (s.selOf req pgCruiser Reg.crTdSel) ((o - Reg.crTdCyc) / 8)
            = v.toNat + 2 ^ 32 * (AMap.get 0 s.bus.staging (busKey req p)).toNat))
    ∧ (∀ req p v, s.Reaches true (accessTo req p Reg.pgEvt v) → ∃ t, exec (.pgEvtClear req p v) s = .next t
        ∧ (fld v 24 8 = fld (s.evt p) 24 8 → p ≠ pgLookout ∨ s.lookout.qCommon.length < 256 →
          t.evt p = s.evt p &&& ~~~(v &&& 0xFFFFFF))
        ∧ (fld v 24 8 ≠ fld (s.evt p) 24 8 → t.rbit p 0x10 22 = true))
    ∧ (∀ req p, s.Reaches true (accessTo req p Reg.pgLock 1) → ∃ t, exec (.pgLock req p) s = .next t ∧ t.locked p = true)
    ∧ (∀ req p (n : Fin 32), s.Reaches true (accessTo req p Reg.winCmd (winCmdWord 1 n.val)) → pageSlow p = true →
      s.wbusy p = false → ∃ t, exec (.winRead req p n) s = .next t ∧ t.reg p Reg.winStat = 0
        ∧ AMap.get none t.bus.posted p = some ⟨req,
            .window 1 (n.val + 1) (s.rf p Reg.winSel 0 8) (s.reg p Reg.winAddr).toNat [], s.bus.posts, s.carried req⟩)
    ∧ (∀ req p (n : Fin 32), s.Reaches true (accessTo req p Reg.winCmd (winCmdWord 2 n.val)) → pageSlow p = true →
      s.wbusy p = false → ∃ t, exec (.winWrite req p n) s = .next t ∧ t.reg p Reg.winStat = 0
        ∧ AMap.get none t.bus.posted p = some ⟨req,
            .window 2 (n.val + 1) (s.rf p Reg.winSel 0 8) (s.reg p Reg.winAddr).toNat
              ((List.range (min 16 (n.val + 1))).map (fun i => s.reg p (Reg.winData i))), s.bus.posts, s.carried req⟩)
    ∧ (∀ req p hi (n : Fin 32), s.Reaches true (accessTo req p Reg.winCmd (winCmdWord (if hi then 3 else 0) n.val)) →
      pageSlow p = true → s.wbusy p = false → ∃ t, exec (.winBadOp req p hi n) s = .next t ∧ t.reg p Reg.winStat = 0
        ∧ AMap.get none t.bus.posted p = some ⟨req,
            .window (if hi then 3 else 0) (n.val + 1) (s.rf p Reg.winSel 0 8) (s.reg p Reg.winAddr).toNat [], s.bus.posts,
            s.carried req⟩)
    ∧ (∀ p bad q op n sel a data k e, AMap.get none s.bus.posted p = some ⟨q, .window op n sel a data, k, e⟩ →
      s.writeFenced q p e = false →
      ¬ (pageBlk p = some .hbm ∧ (s.hbmOf (pageHalfNat p)).st = .retrain) →
      (∀ x ∈ s.bus.held, x.fenced = true ∨ accPage x.acc ≠ p) →
      ∃ t, exec (.winCmdDone p bad) s = .next t ∧ t.wbusy p = false
        ∧ t.reg p Reg.winStat = BitVec.ofNat 32 (1 + 2 * (s.winRun q p op n sel a data bad).2))
    ∧ (∀ req, s.Reaches true (accessTo req pgOrder Reg.orderFence 0) → ∃ t, exec (.fence req) s = .next t
        ∧ AMap.get none t.bus.fence (reqIdx req) = some s.clk.up)
    ∧ (∀ req t0, AMap.get none s.bus.fence (reqIdx req) = some t0 → s.writesWait req = false →
      (∀ x ∈ s.bus.held, x.acc.req ≠ req) → ∃ t, exec (.fenceDone req) s = .next t ∧ t.fenceRuns req = false
        ∧ t.reg pgOrder Reg.fenceCnt = s.reg pgOrder Reg.fenceCnt + 1)
    ∧ (∀ req, s.Reaches true (accessTo req pgLifecycle Reg.lcCtrl 0) → s.wbusy pgLifecycle = false →
      s.lockHits pgLifecycle Reg.lcCtrl = false →
      (∀ x ∈ s.bus.held, x.fenced = true ∨ accPage x.acc ≠ pgLifecycle) →
      (∃ t u, exec (.mcClearLock req) s = .next t ∧ t.wbusy pgLifecycle = true
        ∧ exec (.postedWritePerformed pgLifecycle) t = .next u ∧ u.rbit pgLifecycle Reg.lcCtrl 0 = true)
      ∧ (∃ t u, exec (.debugLock req) s = .next t ∧ t.wbusy pgLifecycle = true
        ∧ exec (.postedWritePerformed pgLifecycle) t = .next u ∧ u.rbit pgLifecycle Reg.lcCtrl 1 = true))
    ∧ (∀ a, s.runsOn a.req = true → s.fenceRuns a.req = true →
      exec (.registerWrite a) s = .next { s with bus := { s.bus with
        held := s.bus.held ++ [{ write := true, acc := a, fenced := true, epoch := s.carried a.req }] } }
      ∧ exec (.counterLowRead a) s = .next { s with bus := { s.bus with
        held := s.bus.held ++ [{ write := false, acc := a, fenced := true, epoch := s.carried a.req }] } })
    ∧ (∀ a, a.bar2 = true → s.runsOn a.req = true → s.fenceRuns a.req = false →
      (∃ t, exec (.counterLowRead a) s = .next t ∧ t = { s with out := s.out ++ [.readData .host
        (if a.size = 8 then [s.host.msix.word (bar2Word a), s.host.msix.word (bar2Word a + 1)]
         else [s.host.msix.word (bar2Word a)])] })
      ∧ (a.be = 15 → bar2Word a < 4096 → bar2Word a % 4 ≠ 3 →
        ∃ t, exec (.registerWrite a) s = .next t ∧ t.host.msix.word (bar2Word a) = a.value))
end

