-- ==== Sys2Proof/Laws/AMap.lean ====
section
/-! SUPPORT. The laws of sparse maps: a read after a write of the same key gives the value, a write leaves every
other key alone, and every operation keeps the canonical form. -/

namespace Sys2Proof.Machine

@[simp] theorem AMap.get_erase_same {β : Type} (d : β) (m : AMap β) (k : Nat) : AMap.get d (AMap.erase m k) k = d := by
  induction m with
  | nil => rfl
  | cons e m ih =>
    by_cases h : e.1 = k
    · simp [AMap.erase, h, ih]
    · simp [AMap.erase, h, ih, AMap.get]

theorem AMap.get_erase_ne {β : Type} (d : β) (m : AMap β) {k k' : Nat} (hk : k' ≠ k) :
    AMap.get d (AMap.erase m k) k' = AMap.get d m k' := by
  induction m with
  | nil => rfl
  | cons e m ih =>
    by_cases h : e.1 = k
    · have h2 : ¬ e.1 = k' := fun x => hk (x.symm.trans h)
      simp only [AMap.erase, h, if_true, ih, AMap.get]
      simp [show ¬ k = k' from fun x => hk x.symm]
    · by_cases h2 : e.1 = k'
      · simp [AMap.erase, AMap.get, h2, hk]
      · simp [AMap.erase, h, AMap.get, h2, ih]

theorem AMap.get_insert_same {β : Type} (d : β) (m : AMap β) (k : Nat) (v : β) (h : ∀ e ∈ m, e.1 ≠ k) :
    AMap.get d (AMap.insert m k v) k = v := by
  induction m with
  | nil => simp [AMap.insert, AMap.get]
  | cons e m ih =>
    by_cases hlt : k < e.1
    · simp [AMap.insert, hlt, AMap.get]
    · have hne : e.1 ≠ k := h e (by simp)
      simp [AMap.insert, hlt, AMap.get, hne]
      exact ih (fun x hx => h x (by simp [hx]))

theorem AMap.get_insert_ne {β : Type} (d : β) (m : AMap β) {k k' : Nat} (v : β) (hk : k' ≠ k) :
    AMap.get d (AMap.insert m k v) k' = AMap.get d m k' := by
  have hk2 : ¬ k = k' := fun x => hk x.symm
  induction m with
  | nil => simp [AMap.insert, AMap.get, hk2]
  | cons e m ih =>
    by_cases hlt : k < e.1
    · simp [AMap.insert, hlt, AMap.get, hk2]
    · simp [AMap.insert, hlt, AMap.get, ih]

theorem AMap.erase_no_key {β : Type} (m : AMap β) (k : Nat) : ∀ e ∈ AMap.erase m k, e.1 ≠ k := by
  induction m with
  | nil => simp [AMap.erase]
  | cons e m ih =>
    by_cases h : e.1 = k
    · simpa [AMap.erase, h] using ih
    · intro x hx
      simp [AMap.erase, h] at hx
      rcases hx with rfl | hx
      · exact h
      · exact ih x hx

@[simp] theorem AMap.get_set_same {β : Type} [DecidableEq β] (d : β) (m : AMap β) (k : Nat) (v : β) :
    AMap.get d (AMap.set d m k v) k = v := by
  by_cases h : v = d
  · simp [AMap.set, h]
  · simp [AMap.set, h, AMap.get_insert_same d _ k v (AMap.erase_no_key m k)]

theorem AMap.get_set_ne {β : Type} [DecidableEq β] (d d' : β) (m : AMap β) {k k' : Nat} (v : β) (hk : k' ≠ k) :
    AMap.get d' (AMap.set d m k v) k' = AMap.get d' m k' := by
  by_cases h : v = d
  · simp [AMap.set, h, AMap.get_erase_ne d' m hk]
  · simp [AMap.set, h, AMap.get_insert_ne d' _ v hk, AMap.get_erase_ne d' m hk]

theorem AMap.wfFrom_mono {β : Type} [DecidableEq β] {d : Nat → β} {m : AMap β} {a b : Nat} (hab : b ≤ a) (h : AMap.wfFrom d a m = true) :
    AMap.wfFrom d b m = true := by
  cases m with
  | nil => rfl
  | cons e m =>
    simp only [AMap.wfFrom, Bool.and_eq_true, decide_eq_true_eq] at h ⊢
    exact ⟨⟨Nat.le_trans hab h.1.1, h.1.2⟩, h.2⟩

theorem AMap.wfFrom_erase {β : Type} [DecidableEq β] {d : Nat → β} {m : AMap β} {a : Nat} (k : Nat) (h : AMap.wfFrom d a m = true) :
    AMap.wfFrom d a (AMap.erase m k) = true := by
  induction m generalizing a with
  | nil => rfl
  | cons e m ih =>
    simp only [AMap.wfFrom, Bool.and_eq_true, decide_eq_true_eq] at h
    by_cases hk : e.1 = k
    · simp only [AMap.erase, hk, if_true]
      exact AMap.wfFrom_mono (Nat.le_succ_of_le h.1.1) (ih h.2)
    · simp only [AMap.erase, hk, if_false, AMap.wfFrom, Bool.and_eq_true, decide_eq_true_eq]
      exact ⟨h.1, ih h.2⟩

theorem AMap.wfFrom_insert {β : Type} [DecidableEq β] {d : Nat → β} {m : AMap β} {a k : Nat} {v : β} (hv : v ≠ d k) (ha : a ≤ k)
    (hn : ∀ e ∈ m, e.1 ≠ k) (h : AMap.wfFrom d a m = true) : AMap.wfFrom d a (AMap.insert m k v) = true := by
  induction m generalizing a with
  | nil => simp [AMap.insert, AMap.wfFrom, ha, hv]
  | cons e m ih =>
    simp only [AMap.wfFrom, Bool.and_eq_true, decide_eq_true_eq] at h
    by_cases hlt : k < e.1
    · simp only [AMap.insert, hlt, if_true, AMap.wfFrom, Bool.and_eq_true, decide_eq_true_eq]
      exact ⟨⟨ha, hv⟩, ⟨hlt, h.1.2⟩, h.2⟩
    · have hne := hn e (by simp)
      simp only [AMap.insert, hlt, if_false, AMap.wfFrom, Bool.and_eq_true, decide_eq_true_eq]
      exact ⟨h.1, ih (by omega) (fun x hx => hn x (by simp [hx])) h.2⟩

/-- A write keeps the canonical form. -/
theorem AMap.wf_set {β : Type} [DecidableEq β] {d : Nat → β} {m : AMap β} (k : Nat) (v : β) (h : AMap.wf d m = true) :
    AMap.wf d (AMap.set (d k) m k v) = true := by
  by_cases hv : v = d k
  · simpa [AMap.set, hv, AMap.wf] using AMap.wfFrom_erase k h
  · simpa [AMap.set, hv, AMap.wf] using
      AMap.wfFrom_insert hv (Nat.zero_le k) (AMap.erase_no_key m k) (AMap.wfFrom_erase k h)

theorem AMap.wfFrom_keep {β : Type} [DecidableEq β] {d : Nat → β} {m : AMap β} {a : Nat} (p : Nat → Bool) (h : AMap.wfFrom d a m = true) :
    AMap.wfFrom d a (AMap.keep p m) = true := by
  induction m generalizing a with
  | nil => rfl
  | cons e m ih =>
    simp only [AMap.wfFrom, Bool.and_eq_true, decide_eq_true_eq] at h
    by_cases hk : p e.1
    · simp only [AMap.keep, hk, if_true, AMap.wfFrom, Bool.and_eq_true, decide_eq_true_eq]
      exact ⟨h.1, ih h.2⟩
    · simp only [AMap.keep, hk]
      exact AMap.wfFrom_mono (Nat.le_succ_of_le h.1.1) (ih h.2)

end Sys2Proof.Machine
end

