-- ==== Sys2Proof/Laws/State.lean ====
section
/-! SUPPORT. One lemma for each field of State under each update of a part of it, so that no proof unfolds an update;
reads of the part that was written; the reads that look at one field only. -/

namespace Sys2Proof.Machine

/-! ### setReg -/

@[simp] theorem State.setReg_pending (s : State) (p o : Nat) (v : Word) : (s.setReg p o v).pending = s.pending := (rfl)
@[simp] theorem State.setReg_clk (s : State) (p o : Nat) (v : Word) : (s.setReg p o v).clk = s.clk := (rfl)
@[simp] theorem State.setReg_freeCtr (s : State) (p o : Nat) (v : Word) : (s.setReg p o v).freeCtr = s.freeCtr := (rfl)
@[simp] theorem State.setReg_out (s : State) (p o : Nat) (v : Word) : (s.setReg p o v).out = s.out := (rfl)
@[simp] theorem State.setReg_selRegs (s : State) (p o : Nat) (v : Word) : (s.setReg p o v).selRegs = s.selRegs := (rfl)
@[simp] theorem State.setReg_mem (s : State) (p o : Nat) (v : Word) : (s.setReg p o v).mem = s.mem := (rfl)
@[simp] theorem State.setReg_bus (s : State) (p o : Nat) (v : Word) : (s.setReg p o v).bus = s.bus := (rfl)
@[simp] theorem State.setReg_flumeUp (s : State) (p o : Nat) (v : Word) : (s.setReg p o v).flumeUp = s.flumeUp := (rfl)
@[simp] theorem State.setReg_lanes (s : State) (p o : Nat) (v : Word) : (s.setReg p o v).lanes = s.lanes := (rfl)
@[simp] theorem State.setReg_macros (s : State) (p o : Nat) (v : Word) : (s.setReg p o v).macros = s.macros := (rfl)
@[simp] theorem State.setReg_ports (s : State) (p o : Nat) (v : Word) : (s.setReg p o v).ports = s.ports := (rfl)
@[simp] theorem State.setReg_spans (s : State) (p o : Nat) (v : Word) : (s.setReg p o v).spans = s.spans := (rfl)
@[simp] theorem State.setReg_frames (s : State) (p o : Nat) (v : Word) : (s.setReg p o v).frames = s.frames := (rfl)
@[simp] theorem State.setReg_nextFrame (s : State) (p o : Nat) (v : Word) : (s.setReg p o v).nextFrame = s.nextFrame := (rfl)
@[simp] theorem State.setReg_slices (s : State) (p o : Nat) (v : Word) : (s.setReg p o v).slices = s.slices := (rfl)
@[simp] theorem State.setReg_mcast (s : State) (p o : Nat) (v : Word) : (s.setReg p o v).mcast = s.mcast := (rfl)
@[simp] theorem State.setReg_rings (s : State) (p o : Nat) (v : Word) : (s.setReg p o v).rings = s.rings := (rfl)
@[simp] theorem State.setReg_inflight (s : State) (p o : Nat) (v : Word) : (s.setReg p o v).inflight = s.inflight := (rfl)
@[simp] theorem State.setReg_deck (s : State) (p o : Nat) (v : Word) : (s.setReg p o v).deck = s.deck := (rfl)
@[simp] theorem State.setReg_path (s : State) (p o : Nat) (v : Word) : (s.setReg p o v).path = s.path := (rfl)
@[simp] theorem State.setReg_queues (s : State) (p o : Nat) (v : Word) : (s.setReg p o v).queues = s.queues := (rfl)
@[simp] theorem State.setReg_deficit (s : State) (p o : Nat) (v : Word) : (s.setReg p o v).deficit = s.deficit := (rfl)
@[simp] theorem State.setReg_qbucket (s : State) (p o : Nat) (v : Word) : (s.setReg p o v).qbucket = s.qbucket := (rfl)
@[simp] theorem State.setReg_sched (s : State) (p o : Nat) (v : Word) : (s.setReg p o v).sched = s.sched := (rfl)
@[simp] theorem State.setReg_pfcTx (s : State) (p o : Nat) (v : Word) : (s.setReg p o v).pfcTx = s.pfcTx := (rfl)
@[simp] theorem State.setReg_meters (s : State) (p o : Nat) (v : Word) : (s.setReg p o v).meters = s.meters := (rfl)
@[simp] theorem State.setReg_late (s : State) (p o : Nat) (v : Word) : (s.setReg p o v).late = s.late := (rfl)
@[simp] theorem State.setReg_unsettled (s : State) (p o : Nat) (v : Word) : (s.setReg p o v).unsettled = s.unsettled := (rfl)
@[simp] theorem State.setReg_wood (s : State) (p o : Nat) (v : Word) : (s.setReg p o v).wood = s.wood := (rfl)
@[simp] theorem State.setReg_eastq (s : State) (p o : Nat) (v : Word) : (s.setReg p o v).eastq = s.eastq := (rfl)
@[simp] theorem State.setReg_hitq (s : State) (p o : Nat) (v : Word) : (s.setReg p o v).hitq = s.hitq := (rfl)
@[simp] theorem State.setReg_matrix (s : State) (p o : Nat) (v : Word) : (s.setReg p o v).matrix = s.matrix := (rfl)
@[simp] theorem State.setReg_tally (s : State) (p o : Nat) (v : Word) : (s.setReg p o v).tally = s.tally := (rfl)
@[simp] theorem State.setReg_hbm (s : State) (p o : Nat) (v : Word) : (s.setReg p o v).hbm = s.hbm := (rfl)
@[simp] theorem State.setReg_host (s : State) (p o : Nat) (v : Word) : (s.setReg p o v).host = s.host := (rfl)
@[simp] theorem State.setReg_cruiser (s : State) (p o : Nat) (v : Word) : (s.setReg p o v).cruiser = s.cruiser := (rfl)
@[simp] theorem State.setReg_fire (s : State) (p o : Nat) (v : Word) : (s.setReg p o v).fire = s.fire := (rfl)
@[simp] theorem State.setReg_raft (s : State) (p o : Nat) (v : Word) : (s.setReg p o v).raft = s.raft := (rfl)
@[simp] theorem State.setReg_lookout (s : State) (p o : Nat) (v : Word) : (s.setReg p o v).lookout = s.lookout := (rfl)
@[simp] theorem State.setReg_forester (s : State) (p o : Nat) (v : Word) : (s.setReg p o v).forester = s.forester := (rfl)
@[simp] theorem State.setReg_mram (s : State) (p o : Nat) (v : Word) : (s.setReg p o v).mram = s.mram := (rfl)
@[simp] theorem State.setReg_fuses (s : State) (p o : Nat) (v : Word) : (s.setReg p o v).fuses = s.fuses := (rfl)
@[simp] theorem State.setReg_ppsHigh (s : State) (p o : Nat) (v : Word) : (s.setReg p o v).ppsHigh = s.ppsHigh := (rfl)
@[simp] theorem State.setReg_rst (s : State) (p o : Nat) (v : Word) : (s.setReg p o v).rst = s.rst := (rfl)
@[simp] theorem State.setReg_live (s : State) (p o : Nat) (v : Word) : (s.setReg p o v).live = s.live := (rfl)
@[simp] theorem State.setReg_now (s : State) (p o : Nat) (v : Word) : (s.setReg p o v).now = s.now := (rfl)

/-! ### setSreg -/

@[simp] theorem State.setSreg_pending (s : State) (d : Word) (k : Nat) (v : Word) : (s.setSreg d k v).pending = s.pending := (rfl)
@[simp] theorem State.setSreg_clk (s : State) (d : Word) (k : Nat) (v : Word) : (s.setSreg d k v).clk = s.clk := (rfl)
@[simp] theorem State.setSreg_freeCtr (s : State) (d : Word) (k : Nat) (v : Word) : (s.setSreg d k v).freeCtr = s.freeCtr := (rfl)
@[simp] theorem State.setSreg_out (s : State) (d : Word) (k : Nat) (v : Word) : (s.setSreg d k v).out = s.out := (rfl)
@[simp] theorem State.setSreg_regs (s : State) (d : Word) (k : Nat) (v : Word) : (s.setSreg d k v).regs = s.regs := (rfl)
@[simp] theorem State.setSreg_mem (s : State) (d : Word) (k : Nat) (v : Word) : (s.setSreg d k v).mem = s.mem := (rfl)
@[simp] theorem State.setSreg_bus (s : State) (d : Word) (k : Nat) (v : Word) : (s.setSreg d k v).bus = s.bus := (rfl)
@[simp] theorem State.setSreg_flumeUp (s : State) (d : Word) (k : Nat) (v : Word) : (s.setSreg d k v).flumeUp = s.flumeUp := (rfl)
@[simp] theorem State.setSreg_lanes (s : State) (d : Word) (k : Nat) (v : Word) : (s.setSreg d k v).lanes = s.lanes := (rfl)
@[simp] theorem State.setSreg_macros (s : State) (d : Word) (k : Nat) (v : Word) : (s.setSreg d k v).macros = s.macros := (rfl)
@[simp] theorem State.setSreg_ports (s : State) (d : Word) (k : Nat) (v : Word) : (s.setSreg d k v).ports = s.ports := (rfl)
@[simp] theorem State.setSreg_spans (s : State) (d : Word) (k : Nat) (v : Word) : (s.setSreg d k v).spans = s.spans := (rfl)
@[simp] theorem State.setSreg_frames (s : State) (d : Word) (k : Nat) (v : Word) : (s.setSreg d k v).frames = s.frames := (rfl)
@[simp] theorem State.setSreg_nextFrame (s : State) (d : Word) (k : Nat) (v : Word) : (s.setSreg d k v).nextFrame = s.nextFrame := (rfl)
@[simp] theorem State.setSreg_slices (s : State) (d : Word) (k : Nat) (v : Word) : (s.setSreg d k v).slices = s.slices := (rfl)
@[simp] theorem State.setSreg_mcast (s : State) (d : Word) (k : Nat) (v : Word) : (s.setSreg d k v).mcast = s.mcast := (rfl)
@[simp] theorem State.setSreg_rings (s : State) (d : Word) (k : Nat) (v : Word) : (s.setSreg d k v).rings = s.rings := (rfl)
@[simp] theorem State.setSreg_inflight (s : State) (d : Word) (k : Nat) (v : Word) : (s.setSreg d k v).inflight = s.inflight := (rfl)
@[simp] theorem State.setSreg_deck (s : State) (d : Word) (k : Nat) (v : Word) : (s.setSreg d k v).deck = s.deck := (rfl)
@[simp] theorem State.setSreg_path (s : State) (d : Word) (k : Nat) (v : Word) : (s.setSreg d k v).path = s.path := (rfl)
@[simp] theorem State.setSreg_queues (s : State) (d : Word) (k : Nat) (v : Word) : (s.setSreg d k v).queues = s.queues := (rfl)
@[simp] theorem State.setSreg_deficit (s : State) (d : Word) (k : Nat) (v : Word) : (s.setSreg d k v).deficit = s.deficit := (rfl)
@[simp] theorem State.setSreg_qbucket (s : State) (d : Word) (k : Nat) (v : Word) : (s.setSreg d k v).qbucket = s.qbucket := (rfl)
@[simp] theorem State.setSreg_sched (s : State) (d : Word) (k : Nat) (v : Word) : (s.setSreg d k v).sched = s.sched := (rfl)
@[simp] theorem State.setSreg_pfcTx (s : State) (d : Word) (k : Nat) (v : Word) : (s.setSreg d k v).pfcTx = s.pfcTx := (rfl)
@[simp] theorem State.setSreg_meters (s : State) (d : Word) (k : Nat) (v : Word) : (s.setSreg d k v).meters = s.meters := (rfl)
@[simp] theorem State.setSreg_late (s : State) (d : Word) (k : Nat) (v : Word) : (s.setSreg d k v).late = s.late := (rfl)
@[simp] theorem State.setSreg_unsettled (s : State) (d : Word) (k : Nat) (v : Word) : (s.setSreg d k v).unsettled = s.unsettled := (rfl)
@[simp] theorem State.setSreg_wood (s : State) (d : Word) (k : Nat) (v : Word) : (s.setSreg d k v).wood = s.wood := (rfl)
@[simp] theorem State.setSreg_eastq (s : State) (d : Word) (k : Nat) (v : Word) : (s.setSreg d k v).eastq = s.eastq := (rfl)
@[simp] theorem State.setSreg_hitq (s : State) (d : Word) (k : Nat) (v : Word) : (s.setSreg d k v).hitq = s.hitq := (rfl)
@[simp] theorem State.setSreg_matrix (s : State) (d : Word) (k : Nat) (v : Word) : (s.setSreg d k v).matrix = s.matrix := (rfl)
@[simp] theorem State.setSreg_tally (s : State) (d : Word) (k : Nat) (v : Word) : (s.setSreg d k v).tally = s.tally := (rfl)
@[simp] theorem State.setSreg_hbm (s : State) (d : Word) (k : Nat) (v : Word) : (s.setSreg d k v).hbm = s.hbm := (rfl)
@[simp] theorem State.setSreg_host (s : State) (d : Word) (k : Nat) (v : Word) : (s.setSreg d k v).host = s.host := (rfl)
@[simp] theorem State.setSreg_cruiser (s : State) (d : Word) (k : Nat) (v : Word) : (s.setSreg d k v).cruiser = s.cruiser := (rfl)
@[simp] theorem State.setSreg_fire (s : State) (d : Word) (k : Nat) (v : Word) : (s.setSreg d k v).fire = s.fire := (rfl)
@[simp] theorem State.setSreg_raft (s : State) (d : Word) (k : Nat) (v : Word) : (s.setSreg d k v).raft = s.raft := (rfl)
@[simp] theorem State.setSreg_lookout (s : State) (d : Word) (k : Nat) (v : Word) : (s.setSreg d k v).lookout = s.lookout := (rfl)
@[simp] theorem State.setSreg_forester (s : State) (d : Word) (k : Nat) (v : Word) : (s.setSreg d k v).forester = s.forester := (rfl)
@[simp] theorem State.setSreg_mram (s : State) (d : Word) (k : Nat) (v : Word) : (s.setSreg d k v).mram = s.mram := (rfl)
@[simp] theorem State.setSreg_fuses (s : State) (d : Word) (k : Nat) (v : Word) : (s.setSreg d k v).fuses = s.fuses := (rfl)
@[simp] theorem State.setSreg_ppsHigh (s : State) (d : Word) (k : Nat) (v : Word) : (s.setSreg d k v).ppsHigh = s.ppsHigh := (rfl)
@[simp] theorem State.setSreg_rst (s : State) (d : Word) (k : Nat) (v : Word) : (s.setSreg d k v).rst = s.rst := (rfl)
@[simp] theorem State.setSreg_reg (s : State) (d : Word) (k : Nat) (v : Word) (pg off : Nat) : (s.setSreg d k v).reg pg off = s.reg pg off := (rfl)
@[simp] theorem State.setSreg_live (s : State) (d : Word) (k : Nat) (v : Word) : (s.setSreg d k v).live = s.live := (rfl)
@[simp] theorem State.setSreg_now (s : State) (d : Word) (k : Nat) (v : Word) : (s.setSreg d k v).now = s.now := (rfl)

/-! ### setMemW -/

@[simp] theorem State.setMemW_pending (s : State) (p sel a : Nat) (v : Word) : (s.setMemW p sel a v).pending = s.pending := (rfl)
@[simp] theorem State.setMemW_clk (s : State) (p sel a : Nat) (v : Word) : (s.setMemW p sel a v).clk = s.clk := (rfl)
@[simp] theorem State.setMemW_freeCtr (s : State) (p sel a : Nat) (v : Word) : (s.setMemW p sel a v).freeCtr = s.freeCtr := (rfl)
@[simp] theorem State.setMemW_out (s : State) (p sel a : Nat) (v : Word) : (s.setMemW p sel a v).out = s.out := (rfl)
@[simp] theorem State.setMemW_regs (s : State) (p sel a : Nat) (v : Word) : (s.setMemW p sel a v).regs = s.regs := (rfl)
@[simp] theorem State.setMemW_selRegs (s : State) (p sel a : Nat) (v : Word) : (s.setMemW p sel a v).selRegs = s.selRegs := (rfl)
@[simp] theorem State.setMemW_bus (s : State) (p sel a : Nat) (v : Word) : (s.setMemW p sel a v).bus = s.bus := (rfl)
@[simp] theorem State.setMemW_flumeUp (s : State) (p sel a : Nat) (v : Word) : (s.setMemW p sel a v).flumeUp = s.flumeUp := (rfl)
@[simp] theorem State.setMemW_lanes (s : State) (p sel a : Nat) (v : Word) : (s.setMemW p sel a v).lanes = s.lanes := (rfl)
@[simp] theorem State.setMemW_macros (s : State) (p sel a : Nat) (v : Word) : (s.setMemW p sel a v).macros = s.macros := (rfl)
@[simp] theorem State.setMemW_ports (s : State) (p sel a : Nat) (v : Word) : (s.setMemW p sel a v).ports = s.ports := (rfl)
@[simp] theorem State.setMemW_spans (s : State) (p sel a : Nat) (v : Word) : (s.setMemW p sel a v).spans = s.spans := (rfl)
@[simp] theorem State.setMemW_frames (s : State) (p sel a : Nat) (v : Word) : (s.setMemW p sel a v).frames = s.frames := (rfl)
@[simp] theorem State.setMemW_nextFrame (s : State) (p sel a : Nat) (v : Word) : (s.setMemW p sel a v).nextFrame = s.nextFrame := (rfl)
@[simp] theorem State.setMemW_slices (s : State) (p sel a : Nat) (v : Word) : (s.setMemW p sel a v).slices = s.slices := (rfl)
@[simp] theorem State.setMemW_mcast (s : State) (p sel a : Nat) (v : Word) : (s.setMemW p sel a v).mcast = s.mcast := (rfl)
@[simp] theorem State.setMemW_rings (s : State) (p sel a : Nat) (v : Word) : (s.setMemW p sel a v).rings = s.rings := (rfl)
@[simp] theorem State.setMemW_inflight (s : State) (p sel a : Nat) (v : Word) : (s.setMemW p sel a v).inflight = s.inflight := (rfl)
@[simp] theorem State.setMemW_deck (s : State) (p sel a : Nat) (v : Word) : (s.setMemW p sel a v).deck = s.deck := (rfl)
@[simp] theorem State.setMemW_path (s : State) (p sel a : Nat) (v : Word) : (s.setMemW p sel a v).path = s.path := (rfl)
@[simp] theorem State.setMemW_queues (s : State) (p sel a : Nat) (v : Word) : (s.setMemW p sel a v).queues = s.queues := (rfl)
@[simp] theorem State.setMemW_deficit (s : State) (p sel a : Nat) (v : Word) : (s.setMemW p sel a v).deficit = s.deficit := (rfl)
@[simp] theorem State.setMemW_qbucket (s : State) (p sel a : Nat) (v : Word) : (s.setMemW p sel a v).qbucket = s.qbucket := (rfl)
@[simp] theorem State.setMemW_sched (s : State) (p sel a : Nat) (v : Word) : (s.setMemW p sel a v).sched = s.sched := (rfl)
@[simp] theorem State.setMemW_pfcTx (s : State) (p sel a : Nat) (v : Word) : (s.setMemW p sel a v).pfcTx = s.pfcTx := (rfl)
@[simp] theorem State.setMemW_meters (s : State) (p sel a : Nat) (v : Word) : (s.setMemW p sel a v).meters = s.meters := (rfl)
@[simp] theorem State.setMemW_late (s : State) (p sel a : Nat) (v : Word) : (s.setMemW p sel a v).late = s.late := (rfl)
@[simp] theorem State.setMemW_unsettled (s : State) (p sel a : Nat) (v : Word) : (s.setMemW p sel a v).unsettled = s.unsettled := (rfl)
@[simp] theorem State.setMemW_wood (s : State) (p sel a : Nat) (v : Word) : (s.setMemW p sel a v).wood = s.wood := (rfl)
@[simp] theorem State.setMemW_eastq (s : State) (p sel a : Nat) (v : Word) : (s.setMemW p sel a v).eastq = s.eastq := (rfl)
@[simp] theorem State.setMemW_hitq (s : State) (p sel a : Nat) (v : Word) : (s.setMemW p sel a v).hitq = s.hitq := (rfl)
@[simp] theorem State.setMemW_matrix (s : State) (p sel a : Nat) (v : Word) : (s.setMemW p sel a v).matrix = s.matrix := (rfl)
@[simp] theorem State.setMemW_tally (s : State) (p sel a : Nat) (v : Word) : (s.setMemW p sel a v).tally = s.tally := (rfl)
@[simp] theorem State.setMemW_hbm (s : State) (p sel a : Nat) (v : Word) : (s.setMemW p sel a v).hbm = s.hbm := (rfl)
@[simp] theorem State.setMemW_host (s : State) (p sel a : Nat) (v : Word) : (s.setMemW p sel a v).host = s.host := (rfl)
@[simp] theorem State.setMemW_cruiser (s : State) (p sel a : Nat) (v : Word) : (s.setMemW p sel a v).cruiser = s.cruiser := (rfl)
@[simp] theorem State.setMemW_fire (s : State) (p sel a : Nat) (v : Word) : (s.setMemW p sel a v).fire = s.fire := (rfl)
@[simp] theorem State.setMemW_raft (s : State) (p sel a : Nat) (v : Word) : (s.setMemW p sel a v).raft = s.raft := (rfl)
@[simp] theorem State.setMemW_lookout (s : State) (p sel a : Nat) (v : Word) : (s.setMemW p sel a v).lookout = s.lookout := (rfl)
@[simp] theorem State.setMemW_forester (s : State) (p sel a : Nat) (v : Word) : (s.setMemW p sel a v).forester = s.forester := (rfl)
@[simp] theorem State.setMemW_mram (s : State) (p sel a : Nat) (v : Word) : (s.setMemW p sel a v).mram = s.mram := (rfl)
@[simp] theorem State.setMemW_fuses (s : State) (p sel a : Nat) (v : Word) : (s.setMemW p sel a v).fuses = s.fuses := (rfl)
@[simp] theorem State.setMemW_ppsHigh (s : State) (p sel a : Nat) (v : Word) : (s.setMemW p sel a v).ppsHigh = s.ppsHigh := (rfl)
@[simp] theorem State.setMemW_rst (s : State) (p sel a : Nat) (v : Word) : (s.setMemW p sel a v).rst = s.rst := (rfl)
@[simp] theorem State.setMemW_reg (s : State) (p sel a : Nat) (v : Word) (pg off : Nat) : (s.setMemW p sel a v).reg pg off = s.reg pg off := (rfl)
@[simp] theorem State.setMemW_live (s : State) (p sel a : Nat) (v : Word) : (s.setMemW p sel a v).live = s.live := (rfl)
@[simp] theorem State.setMemW_now (s : State) (p sel a : Nat) (v : Word) : (s.setMemW p sel a v).now = s.now := (rfl)

/-! ### setLane -/

@[simp] theorem State.setLane_pending (s : State) (l : Nat) (x : LaneS) : (s.setLane l x).pending = s.pending := (rfl)
@[simp] theorem State.setLane_clk (s : State) (l : Nat) (x : LaneS) : (s.setLane l x).clk = s.clk := (rfl)
@[simp] theorem State.setLane_freeCtr (s : State) (l : Nat) (x : LaneS) : (s.setLane l x).freeCtr = s.freeCtr := (rfl)
@[simp] theorem State.setLane_out (s : State) (l : Nat) (x : LaneS) : (s.setLane l x).out = s.out := (rfl)
@[simp] theorem State.setLane_regs (s : State) (l : Nat) (x : LaneS) : (s.setLane l x).regs = s.regs := (rfl)
@[simp] theorem State.setLane_selRegs (s : State) (l : Nat) (x : LaneS) : (s.setLane l x).selRegs = s.selRegs := (rfl)
@[simp] theorem State.setLane_mem (s : State) (l : Nat) (x : LaneS) : (s.setLane l x).mem = s.mem := (rfl)
@[simp] theorem State.setLane_bus (s : State) (l : Nat) (x : LaneS) : (s.setLane l x).bus = s.bus := (rfl)
@[simp] theorem State.setLane_flumeUp (s : State) (l : Nat) (x : LaneS) : (s.setLane l x).flumeUp = s.flumeUp := (rfl)
@[simp] theorem State.setLane_macros (s : State) (l : Nat) (x : LaneS) : (s.setLane l x).macros = s.macros := (rfl)
@[simp] theorem State.setLane_ports (s : State) (l : Nat) (x : LaneS) : (s.setLane l x).ports = s.ports := (rfl)
@[simp] theorem State.setLane_spans (s : State) (l : Nat) (x : LaneS) : (s.setLane l x).spans = s.spans := (rfl)
@[simp] theorem State.setLane_frames (s : State) (l : Nat) (x : LaneS) : (s.setLane l x).frames = s.frames := (rfl)
@[simp] theorem State.setLane_nextFrame (s : State) (l : Nat) (x : LaneS) : (s.setLane l x).nextFrame = s.nextFrame := (rfl)
@[simp] theorem State.setLane_slices (s : State) (l : Nat) (x : LaneS) : (s.setLane l x).slices = s.slices := (rfl)
@[simp] theorem State.setLane_mcast (s : State) (l : Nat) (x : LaneS) : (s.setLane l x).mcast = s.mcast := (rfl)
@[simp] theorem State.setLane_rings (s : State) (l : Nat) (x : LaneS) : (s.setLane l x).rings = s.rings := (rfl)
@[simp] theorem State.setLane_inflight (s : State) (l : Nat) (x : LaneS) : (s.setLane l x).inflight = s.inflight := (rfl)
@[simp] theorem State.setLane_deck (s : State) (l : Nat) (x : LaneS) : (s.setLane l x).deck = s.deck := (rfl)
@[simp] theorem State.setLane_path (s : State) (l : Nat) (x : LaneS) : (s.setLane l x).path = s.path := (rfl)
@[simp] theorem State.setLane_queues (s : State) (l : Nat) (x : LaneS) : (s.setLane l x).queues = s.queues := (rfl)
@[simp] theorem State.setLane_deficit (s : State) (l : Nat) (x : LaneS) : (s.setLane l x).deficit = s.deficit := (rfl)
@[simp] theorem State.setLane_qbucket (s : State) (l : Nat) (x : LaneS) : (s.setLane l x).qbucket = s.qbucket := (rfl)
@[simp] theorem State.setLane_sched (s : State) (l : Nat) (x : LaneS) : (s.setLane l x).sched = s.sched := (rfl)
@[simp] theorem State.setLane_pfcTx (s : State) (l : Nat) (x : LaneS) : (s.setLane l x).pfcTx = s.pfcTx := (rfl)
@[simp] theorem State.setLane_meters (s : State) (l : Nat) (x : LaneS) : (s.setLane l x).meters = s.meters := (rfl)
@[simp] theorem State.setLane_late (s : State) (l : Nat) (x : LaneS) : (s.setLane l x).late = s.late := (rfl)
@[simp] theorem State.setLane_unsettled (s : State) (l : Nat) (x : LaneS) : (s.setLane l x).unsettled = s.unsettled := (rfl)
@[simp] theorem State.setLane_wood (s : State) (l : Nat) (x : LaneS) : (s.setLane l x).wood = s.wood := (rfl)
@[simp] theorem State.setLane_eastq (s : State) (l : Nat) (x : LaneS) : (s.setLane l x).eastq = s.eastq := (rfl)
@[simp] theorem State.setLane_hitq (s : State) (l : Nat) (x : LaneS) : (s.setLane l x).hitq = s.hitq := (rfl)
@[simp] theorem State.setLane_matrix (s : State) (l : Nat) (x : LaneS) : (s.setLane l x).matrix = s.matrix := (rfl)
@[simp] theorem State.setLane_tally (s : State) (l : Nat) (x : LaneS) : (s.setLane l x).tally = s.tally := (rfl)
@[simp] theorem State.setLane_hbm (s : State) (l : Nat) (x : LaneS) : (s.setLane l x).hbm = s.hbm := (rfl)
@[simp] theorem State.setLane_host (s : State) (l : Nat) (x : LaneS) : (s.setLane l x).host = s.host := (rfl)
@[simp] theorem State.setLane_cruiser (s : State) (l : Nat) (x : LaneS) : (s.setLane l x).cruiser = s.cruiser := (rfl)
@[simp] theorem State.setLane_fire (s : State) (l : Nat) (x : LaneS) : (s.setLane l x).fire = s.fire := (rfl)
@[simp] theorem State.setLane_raft (s : State) (l : Nat) (x : LaneS) : (s.setLane l x).raft = s.raft := (rfl)
@[simp] theorem State.setLane_lookout (s : State) (l : Nat) (x : LaneS) : (s.setLane l x).lookout = s.lookout := (rfl)
@[simp] theorem State.setLane_forester (s : State) (l : Nat) (x : LaneS) : (s.setLane l x).forester = s.forester := (rfl)
@[simp] theorem State.setLane_mram (s : State) (l : Nat) (x : LaneS) : (s.setLane l x).mram = s.mram := (rfl)
@[simp] theorem State.setLane_fuses (s : State) (l : Nat) (x : LaneS) : (s.setLane l x).fuses = s.fuses := (rfl)
@[simp] theorem State.setLane_ppsHigh (s : State) (l : Nat) (x : LaneS) : (s.setLane l x).ppsHigh = s.ppsHigh := (rfl)
@[simp] theorem State.setLane_rst (s : State) (l : Nat) (x : LaneS) : (s.setLane l x).rst = s.rst := (rfl)
@[simp] theorem State.setLane_reg (s : State) (l : Nat) (x : LaneS) (pg off : Nat) : (s.setLane l x).reg pg off = s.reg pg off := (rfl)
@[simp] theorem State.setLane_live (s : State) (l : Nat) (x : LaneS) : (s.setLane l x).live = s.live := (rfl)
@[simp] theorem State.setLane_now (s : State) (l : Nat) (x : LaneS) : (s.setLane l x).now = s.now := (rfl)

/-! ### setMacro -/

@[simp] theorem State.setMacro_pending (s : State) (m : Nat) (x : MacroS) : (s.setMacro m x).pending = s.pending := (rfl)
@[simp] theorem State.setMacro_clk (s : State) (m : Nat) (x : MacroS) : (s.setMacro m x).clk = s.clk := (rfl)
@[simp] theorem State.setMacro_freeCtr (s : State) (m : Nat) (x : MacroS) : (s.setMacro m x).freeCtr = s.freeCtr := (rfl)
@[simp] theorem State.setMacro_out (s : State) (m : Nat) (x : MacroS) : (s.setMacro m x).out = s.out := (rfl)
@[simp] theorem State.setMacro_regs (s : State) (m : Nat) (x : MacroS) : (s.setMacro m x).regs = s.regs := (rfl)
@[simp] theorem State.setMacro_selRegs (s : State) (m : Nat) (x : MacroS) : (s.setMacro m x).selRegs = s.selRegs := (rfl)
@[simp] theorem State.setMacro_mem (s : State) (m : Nat) (x : MacroS) : (s.setMacro m x).mem = s.mem := (rfl)
@[simp] theorem State.setMacro_bus (s : State) (m : Nat) (x : MacroS) : (s.setMacro m x).bus = s.bus := (rfl)
@[simp] theorem State.setMacro_flumeUp (s : State) (m : Nat) (x : MacroS) : (s.setMacro m x).flumeUp = s.flumeUp := (rfl)
@[simp] theorem State.setMacro_lanes (s : State) (m : Nat) (x : MacroS) : (s.setMacro m x).lanes = s.lanes := (rfl)
@[simp] theorem State.setMacro_ports (s : State) (m : Nat) (x : MacroS) : (s.setMacro m x).ports = s.ports := (rfl)
@[simp] theorem State.setMacro_spans (s : State) (m : Nat) (x : MacroS) : (s.setMacro m x).spans = s.spans := (rfl)
@[simp] theorem State.setMacro_frames (s : State) (m : Nat) (x : MacroS) : (s.setMacro m x).frames = s.frames := (rfl)
@[simp] theorem State.setMacro_nextFrame (s : State) (m : Nat) (x : MacroS) : (s.setMacro m x).nextFrame = s.nextFrame := (rfl)
@[simp] theorem State.setMacro_slices (s : State) (m : Nat) (x : MacroS) : (s.setMacro m x).slices = s.slices := (rfl)
@[simp] theorem State.setMacro_mcast (s : State) (m : Nat) (x : MacroS) : (s.setMacro m x).mcast = s.mcast := (rfl)
@[simp] theorem State.setMacro_rings (s : State) (m : Nat) (x : MacroS) : (s.setMacro m x).rings = s.rings := (rfl)
@[simp] theorem State.setMacro_inflight (s : State) (m : Nat) (x : MacroS) : (s.setMacro m x).inflight = s.inflight := (rfl)
@[simp] theorem State.setMacro_deck (s : State) (m : Nat) (x : MacroS) : (s.setMacro m x).deck = s.deck := (rfl)
@[simp] theorem State.setMacro_path (s : State) (m : Nat) (x : MacroS) : (s.setMacro m x).path = s.path := (rfl)
@[simp] theorem State.setMacro_queues (s : State) (m : Nat) (x : MacroS) : (s.setMacro m x).queues = s.queues := (rfl)
@[simp] theorem State.setMacro_deficit (s : State) (m : Nat) (x : MacroS) : (s.setMacro m x).deficit = s.deficit := (rfl)
@[simp] theorem State.setMacro_qbucket (s : State) (m : Nat) (x : MacroS) : (s.setMacro m x).qbucket = s.qbucket := (rfl)
@[simp] theorem State.setMacro_sched (s : State) (m : Nat) (x : MacroS) : (s.setMacro m x).sched = s.sched := (rfl)
@[simp] theorem State.setMacro_pfcTx (s : State) (m : Nat) (x : MacroS) : (s.setMacro m x).pfcTx = s.pfcTx := (rfl)
@[simp] theorem State.setMacro_meters (s : State) (m : Nat) (x : MacroS) : (s.setMacro m x).meters = s.meters := (rfl)
@[simp] theorem State.setMacro_late (s : State) (m : Nat) (x : MacroS) : (s.setMacro m x).late = s.late := (rfl)
@[simp] theorem State.setMacro_unsettled (s : State) (m : Nat) (x : MacroS) : (s.setMacro m x).unsettled = s.unsettled := (rfl)
@[simp] theorem State.setMacro_wood (s : State) (m : Nat) (x : MacroS) : (s.setMacro m x).wood = s.wood := (rfl)
@[simp] theorem State.setMacro_eastq (s : State) (m : Nat) (x : MacroS) : (s.setMacro m x).eastq = s.eastq := (rfl)
@[simp] theorem State.setMacro_hitq (s : State) (m : Nat) (x : MacroS) : (s.setMacro m x).hitq = s.hitq := (rfl)
@[simp] theorem State.setMacro_matrix (s : State) (m : Nat) (x : MacroS) : (s.setMacro m x).matrix = s.matrix := (rfl)
@[simp] theorem State.setMacro_tally (s : State) (m : Nat) (x : MacroS) : (s.setMacro m x).tally = s.tally := (rfl)
@[simp] theorem State.setMacro_hbm (s : State) (m : Nat) (x : MacroS) : (s.setMacro m x).hbm = s.hbm := (rfl)
@[simp] theorem State.setMacro_host (s : State) (m : Nat) (x : MacroS) : (s.setMacro m x).host = s.host := (rfl)
@[simp] theorem State.setMacro_cruiser (s : State) (m : Nat) (x : MacroS) : (s.setMacro m x).cruiser = s.cruiser := (rfl)
@[simp] theorem State.setMacro_fire (s : State) (m : Nat) (x : MacroS) : (s.setMacro m x).fire = s.fire := (rfl)
@[simp] theorem State.setMacro_raft (s : State) (m : Nat) (x : MacroS) : (s.setMacro m x).raft = s.raft := (rfl)
@[simp] theorem State.setMacro_lookout (s : State) (m : Nat) (x : MacroS) : (s.setMacro m x).lookout = s.lookout := (rfl)
@[simp] theorem State.setMacro_forester (s : State) (m : Nat) (x : MacroS) : (s.setMacro m x).forester = s.forester := (rfl)
@[simp] theorem State.setMacro_mram (s : State) (m : Nat) (x : MacroS) : (s.setMacro m x).mram = s.mram := (rfl)
@[simp] theorem State.setMacro_fuses (s : State) (m : Nat) (x : MacroS) : (s.setMacro m x).fuses = s.fuses := (rfl)
@[simp] theorem State.setMacro_ppsHigh (s : State) (m : Nat) (x : MacroS) : (s.setMacro m x).ppsHigh = s.ppsHigh := (rfl)
@[simp] theorem State.setMacro_rst (s : State) (m : Nat) (x : MacroS) : (s.setMacro m x).rst = s.rst := (rfl)
@[simp] theorem State.setMacro_reg (s : State) (m : Nat) (x : MacroS) (pg off : Nat) : (s.setMacro m x).reg pg off = s.reg pg off := (rfl)
@[simp] theorem State.setMacro_live (s : State) (m : Nat) (x : MacroS) : (s.setMacro m x).live = s.live := (rfl)
@[simp] theorem State.setMacro_now (s : State) (m : Nat) (x : MacroS) : (s.setMacro m x).now = s.now := (rfl)

/-! ### setPort -/

@[simp] theorem State.setPort_pending (s : State) (p : Nat) (x : PortS) : (s.setPort p x).pending = s.pending := (rfl)
@[simp] theorem State.setPort_clk (s : State) (p : Nat) (x : PortS) : (s.setPort p x).clk = s.clk := (rfl)
@[simp] theorem State.setPort_freeCtr (s : State) (p : Nat) (x : PortS) : (s.setPort p x).freeCtr = s.freeCtr := (rfl)
@[simp] theorem State.setPort_out (s : State) (p : Nat) (x : PortS) : (s.setPort p x).out = s.out := (rfl)
@[simp] theorem State.setPort_regs (s : State) (p : Nat) (x : PortS) : (s.setPort p x).regs = s.regs := (rfl)
@[simp] theorem State.setPort_selRegs (s : State) (p : Nat) (x : PortS) : (s.setPort p x).selRegs = s.selRegs := (rfl)
@[simp] theorem State.setPort_mem (s : State) (p : Nat) (x : PortS) : (s.setPort p x).mem = s.mem := (rfl)
@[simp] theorem State.setPort_bus (s : State) (p : Nat) (x : PortS) : (s.setPort p x).bus = s.bus := (rfl)
@[simp] theorem State.setPort_flumeUp (s : State) (p : Nat) (x : PortS) : (s.setPort p x).flumeUp = s.flumeUp := (rfl)
@[simp] theorem State.setPort_lanes (s : State) (p : Nat) (x : PortS) : (s.setPort p x).lanes = s.lanes := (rfl)
@[simp] theorem State.setPort_macros (s : State) (p : Nat) (x : PortS) : (s.setPort p x).macros = s.macros := (rfl)
@[simp] theorem State.setPort_spans (s : State) (p : Nat) (x : PortS) : (s.setPort p x).spans = s.spans := (rfl)
@[simp] theorem State.setPort_frames (s : State) (p : Nat) (x : PortS) : (s.setPort p x).frames = s.frames := (rfl)
@[simp] theorem State.setPort_nextFrame (s : State) (p : Nat) (x : PortS) : (s.setPort p x).nextFrame = s.nextFrame := (rfl)
@[simp] theorem State.setPort_slices (s : State) (p : Nat) (x : PortS) : (s.setPort p x).slices = s.slices := (rfl)
@[simp] theorem State.setPort_mcast (s : State) (p : Nat) (x : PortS) : (s.setPort p x).mcast = s.mcast := (rfl)
@[simp] theorem State.setPort_rings (s : State) (p : Nat) (x : PortS) : (s.setPort p x).rings = s.rings := (rfl)
@[simp] theorem State.setPort_inflight (s : State) (p : Nat) (x : PortS) : (s.setPort p x).inflight = s.inflight := (rfl)
@[simp] theorem State.setPort_deck (s : State) (p : Nat) (x : PortS) : (s.setPort p x).deck = s.deck := (rfl)
@[simp] theorem State.setPort_path (s : State) (p : Nat) (x : PortS) : (s.setPort p x).path = s.path := (rfl)
@[simp] theorem State.setPort_queues (s : State) (p : Nat) (x : PortS) : (s.setPort p x).queues = s.queues := (rfl)
@[simp] theorem State.setPort_deficit (s : State) (p : Nat) (x : PortS) : (s.setPort p x).deficit = s.deficit := (rfl)
@[simp] theorem State.setPort_qbucket (s : State) (p : Nat) (x : PortS) : (s.setPort p x).qbucket = s.qbucket := (rfl)
@[simp] theorem State.setPort_sched (s : State) (p : Nat) (x : PortS) : (s.setPort p x).sched = s.sched := (rfl)
@[simp] theorem State.setPort_pfcTx (s : State) (p : Nat) (x : PortS) : (s.setPort p x).pfcTx = s.pfcTx := (rfl)
@[simp] theorem State.setPort_meters (s : State) (p : Nat) (x : PortS) : (s.setPort p x).meters = s.meters := (rfl)
@[simp] theorem State.setPort_late (s : State) (p : Nat) (x : PortS) : (s.setPort p x).late = s.late := (rfl)
@[simp] theorem State.setPort_unsettled (s : State) (p : Nat) (x : PortS) : (s.setPort p x).unsettled = s.unsettled := (rfl)
@[simp] theorem State.setPort_wood (s : State) (p : Nat) (x : PortS) : (s.setPort p x).wood = s.wood := (rfl)
@[simp] theorem State.setPort_eastq (s : State) (p : Nat) (x : PortS) : (s.setPort p x).eastq = s.eastq := (rfl)
@[simp] theorem State.setPort_hitq (s : State) (p : Nat) (x : PortS) : (s.setPort p x).hitq = s.hitq := (rfl)
@[simp] theorem State.setPort_matrix (s : State) (p : Nat) (x : PortS) : (s.setPort p x).matrix = s.matrix := (rfl)
@[simp] theorem State.setPort_tally (s : State) (p : Nat) (x : PortS) : (s.setPort p x).tally = s.tally := (rfl)
@[simp] theorem State.setPort_hbm (s : State) (p : Nat) (x : PortS) : (s.setPort p x).hbm = s.hbm := (rfl)
@[simp] theorem State.setPort_host (s : State) (p : Nat) (x : PortS) : (s.setPort p x).host = s.host := (rfl)
@[simp] theorem State.setPort_cruiser (s : State) (p : Nat) (x : PortS) : (s.setPort p x).cruiser = s.cruiser := (rfl)
@[simp] theorem State.setPort_fire (s : State) (p : Nat) (x : PortS) : (s.setPort p x).fire = s.fire := (rfl)
@[simp] theorem State.setPort_raft (s : State) (p : Nat) (x : PortS) : (s.setPort p x).raft = s.raft := (rfl)
@[simp] theorem State.setPort_lookout (s : State) (p : Nat) (x : PortS) : (s.setPort p x).lookout = s.lookout := (rfl)
@[simp] theorem State.setPort_forester (s : State) (p : Nat) (x : PortS) : (s.setPort p x).forester = s.forester := (rfl)
@[simp] theorem State.setPort_mram (s : State) (p : Nat) (x : PortS) : (s.setPort p x).mram = s.mram := (rfl)
@[simp] theorem State.setPort_fuses (s : State) (p : Nat) (x : PortS) : (s.setPort p x).fuses = s.fuses := (rfl)
@[simp] theorem State.setPort_ppsHigh (s : State) (p : Nat) (x : PortS) : (s.setPort p x).ppsHigh = s.ppsHigh := (rfl)
@[simp] theorem State.setPort_rst (s : State) (p : Nat) (x : PortS) : (s.setPort p x).rst = s.rst := (rfl)
@[simp] theorem State.setPort_reg (s : State) (p : Nat) (x : PortS) (pg off : Nat) : (s.setPort p x).reg pg off = s.reg pg off := (rfl)
@[simp] theorem State.setPort_live (s : State) (p : Nat) (x : PortS) : (s.setPort p x).live = s.live := (rfl)
@[simp] theorem State.setPort_now (s : State) (p : Nat) (x : PortS) : (s.setPort p x).now = s.now := (rfl)

/-! ### setSpan -/

@[simp] theorem State.setSpan_pending (s : State) (q : Nat) (x : SpanS) : (s.setSpan q x).pending = s.pending := (rfl)
@[simp] theorem State.setSpan_clk (s : State) (q : Nat) (x : SpanS) : (s.setSpan q x).clk = s.clk := (rfl)
@[simp] theorem State.setSpan_freeCtr (s : State) (q : Nat) (x : SpanS) : (s.setSpan q x).freeCtr = s.freeCtr := (rfl)
@[simp] theorem State.setSpan_out (s : State) (q : Nat) (x : SpanS) : (s.setSpan q x).out = s.out := (rfl)
@[simp] theorem State.setSpan_regs (s : State) (q : Nat) (x : SpanS) : (s.setSpan q x).regs = s.regs := (rfl)
@[simp] theorem State.setSpan_selRegs (s : State) (q : Nat) (x : SpanS) : (s.setSpan q x).selRegs = s.selRegs := (rfl)
@[simp] theorem State.setSpan_mem (s : State) (q : Nat) (x : SpanS) : (s.setSpan q x).mem = s.mem := (rfl)
@[simp] theorem State.setSpan_bus (s : State) (q : Nat) (x : SpanS) : (s.setSpan q x).bus = s.bus := (rfl)
@[simp] theorem State.setSpan_flumeUp (s : State) (q : Nat) (x : SpanS) : (s.setSpan q x).flumeUp = s.flumeUp := (rfl)
@[simp] theorem State.setSpan_lanes (s : State) (q : Nat) (x : SpanS) : (s.setSpan q x).lanes = s.lanes := (rfl)
@[simp] theorem State.setSpan_macros (s : State) (q : Nat) (x : SpanS) : (s.setSpan q x).macros = s.macros := (rfl)
@[simp] theorem State.setSpan_ports (s : State) (q : Nat) (x : SpanS) : (s.setSpan q x).ports = s.ports := (rfl)
@[simp] theorem State.setSpan_frames (s : State) (q : Nat) (x : SpanS) : (s.setSpan q x).frames = s.frames := (rfl)
@[simp] theorem State.setSpan_nextFrame (s : State) (q : Nat) (x : SpanS) : (s.setSpan q x).nextFrame = s.nextFrame := (rfl)
@[simp] theorem State.setSpan_slices (s : State) (q : Nat) (x : SpanS) : (s.setSpan q x).slices = s.slices := (rfl)
@[simp] theorem State.setSpan_mcast (s : State) (q : Nat) (x : SpanS) : (s.setSpan q x).mcast = s.mcast := (rfl)
@[simp] theorem State.setSpan_rings (s : State) (q : Nat) (x : SpanS) : (s.setSpan q x).rings = s.rings := (rfl)
@[simp] theorem State.setSpan_inflight (s : State) (q : Nat) (x : SpanS) : (s.setSpan q x).inflight = s.inflight := (rfl)
@[simp] theorem State.setSpan_deck (s : State) (q : Nat) (x : SpanS) : (s.setSpan q x).deck = s.deck := (rfl)
@[simp] theorem State.setSpan_path (s : State) (q : Nat) (x : SpanS) : (s.setSpan q x).path = s.path := (rfl)
@[simp] theorem State.setSpan_queues (s : State) (q : Nat) (x : SpanS) : (s.setSpan q x).queues = s.queues := (rfl)
@[simp] theorem State.setSpan_deficit (s : State) (q : Nat) (x : SpanS) : (s.setSpan q x).deficit = s.deficit := (rfl)
@[simp] theorem State.setSpan_qbucket (s : State) (q : Nat) (x : SpanS) : (s.setSpan q x).qbucket = s.qbucket := (rfl)
@[simp] theorem State.setSpan_sched (s : State) (q : Nat) (x : SpanS) : (s.setSpan q x).sched = s.sched := (rfl)
@[simp] theorem State.setSpan_pfcTx (s : State) (q : Nat) (x : SpanS) : (s.setSpan q x).pfcTx = s.pfcTx := (rfl)
@[simp] theorem State.setSpan_meters (s : State) (q : Nat) (x : SpanS) : (s.setSpan q x).meters = s.meters := (rfl)
@[simp] theorem State.setSpan_late (s : State) (q : Nat) (x : SpanS) : (s.setSpan q x).late = s.late := (rfl)
@[simp] theorem State.setSpan_unsettled (s : State) (q : Nat) (x : SpanS) : (s.setSpan q x).unsettled = s.unsettled := (rfl)
@[simp] theorem State.setSpan_wood (s : State) (q : Nat) (x : SpanS) : (s.setSpan q x).wood = s.wood := (rfl)
@[simp] theorem State.setSpan_eastq (s : State) (q : Nat) (x : SpanS) : (s.setSpan q x).eastq = s.eastq := (rfl)
@[simp] theorem State.setSpan_hitq (s : State) (q : Nat) (x : SpanS) : (s.setSpan q x).hitq = s.hitq := (rfl)
@[simp] theorem State.setSpan_matrix (s : State) (q : Nat) (x : SpanS) : (s.setSpan q x).matrix = s.matrix := (rfl)
@[simp] theorem State.setSpan_tally (s : State) (q : Nat) (x : SpanS) : (s.setSpan q x).tally = s.tally := (rfl)
@[simp] theorem State.setSpan_hbm (s : State) (q : Nat) (x : SpanS) : (s.setSpan q x).hbm = s.hbm := (rfl)
@[simp] theorem State.setSpan_host (s : State) (q : Nat) (x : SpanS) : (s.setSpan q x).host = s.host := (rfl)
@[simp] theorem State.setSpan_cruiser (s : State) (q : Nat) (x : SpanS) : (s.setSpan q x).cruiser = s.cruiser := (rfl)
@[simp] theorem State.setSpan_fire (s : State) (q : Nat) (x : SpanS) : (s.setSpan q x).fire = s.fire := (rfl)
@[simp] theorem State.setSpan_raft (s : State) (q : Nat) (x : SpanS) : (s.setSpan q x).raft = s.raft := (rfl)
@[simp] theorem State.setSpan_lookout (s : State) (q : Nat) (x : SpanS) : (s.setSpan q x).lookout = s.lookout := (rfl)
@[simp] theorem State.setSpan_forester (s : State) (q : Nat) (x : SpanS) : (s.setSpan q x).forester = s.forester := (rfl)
@[simp] theorem State.setSpan_mram (s : State) (q : Nat) (x : SpanS) : (s.setSpan q x).mram = s.mram := (rfl)
@[simp] theorem State.setSpan_fuses (s : State) (q : Nat) (x : SpanS) : (s.setSpan q x).fuses = s.fuses := (rfl)
@[simp] theorem State.setSpan_ppsHigh (s : State) (q : Nat) (x : SpanS) : (s.setSpan q x).ppsHigh = s.ppsHigh := (rfl)
@[simp] theorem State.setSpan_rst (s : State) (q : Nat) (x : SpanS) : (s.setSpan q x).rst = s.rst := (rfl)
@[simp] theorem State.setSpan_reg (s : State) (q : Nat) (x : SpanS) (pg off : Nat) : (s.setSpan q x).reg pg off = s.reg pg off := (rfl)
@[simp] theorem State.setSpan_live (s : State) (q : Nat) (x : SpanS) : (s.setSpan q x).live = s.live := (rfl)
@[simp] theorem State.setSpan_now (s : State) (q : Nat) (x : SpanS) : (s.setSpan q x).now = s.now := (rfl)

/-! ### setSlice -/

@[simp] theorem State.setSlice_pending (s : State) (k : Nat) (x : SliceS) : (s.setSlice k x).pending = s.pending := (rfl)
@[simp] theorem State.setSlice_clk (s : State) (k : Nat) (x : SliceS) : (s.setSlice k x).clk = s.clk := (rfl)
@[simp] theorem State.setSlice_freeCtr (s : State) (k : Nat) (x : SliceS) : (s.setSlice k x).freeCtr = s.freeCtr := (rfl)
@[simp] theorem State.setSlice_out (s : State) (k : Nat) (x : SliceS) : (s.setSlice k x).out = s.out := (rfl)
@[simp] theorem State.setSlice_regs (s : State) (k : Nat) (x : SliceS) : (s.setSlice k x).regs = s.regs := (rfl)
@[simp] theorem State.setSlice_selRegs (s : State) (k : Nat) (x : SliceS) : (s.setSlice k x).selRegs = s.selRegs := (rfl)
@[simp] theorem State.setSlice_mem (s : State) (k : Nat) (x : SliceS) : (s.setSlice k x).mem = s.mem := (rfl)
@[simp] theorem State.setSlice_bus (s : State) (k : Nat) (x : SliceS) : (s.setSlice k x).bus = s.bus := (rfl)
@[simp] theorem State.setSlice_flumeUp (s : State) (k : Nat) (x : SliceS) : (s.setSlice k x).flumeUp = s.flumeUp := (rfl)
@[simp] theorem State.setSlice_lanes (s : State) (k : Nat) (x : SliceS) : (s.setSlice k x).lanes = s.lanes := (rfl)
@[simp] theorem State.setSlice_macros (s : State) (k : Nat) (x : SliceS) : (s.setSlice k x).macros = s.macros := (rfl)
@[simp] theorem State.setSlice_ports (s : State) (k : Nat) (x : SliceS) : (s.setSlice k x).ports = s.ports := (rfl)
@[simp] theorem State.setSlice_spans (s : State) (k : Nat) (x : SliceS) : (s.setSlice k x).spans = s.spans := (rfl)
@[simp] theorem State.setSlice_frames (s : State) (k : Nat) (x : SliceS) : (s.setSlice k x).frames = s.frames := (rfl)
@[simp] theorem State.setSlice_nextFrame (s : State) (k : Nat) (x : SliceS) : (s.setSlice k x).nextFrame = s.nextFrame := (rfl)
@[simp] theorem State.setSlice_mcast (s : State) (k : Nat) (x : SliceS) : (s.setSlice k x).mcast = s.mcast := (rfl)
@[simp] theorem State.setSlice_rings (s : State) (k : Nat) (x : SliceS) : (s.setSlice k x).rings = s.rings := (rfl)
@[simp] theorem State.setSlice_inflight (s : State) (k : Nat) (x : SliceS) : (s.setSlice k x).inflight = s.inflight := (rfl)
@[simp] theorem State.setSlice_deck (s : State) (k : Nat) (x : SliceS) : (s.setSlice k x).deck = s.deck := (rfl)
@[simp] theorem State.setSlice_path (s : State) (k : Nat) (x : SliceS) : (s.setSlice k x).path = s.path := (rfl)
@[simp] theorem State.setSlice_queues (s : State) (k : Nat) (x : SliceS) : (s.setSlice k x).queues = s.queues := (rfl)
@[simp] theorem State.setSlice_deficit (s : State) (k : Nat) (x : SliceS) : (s.setSlice k x).deficit = s.deficit := (rfl)
@[simp] theorem State.setSlice_qbucket (s : State) (k : Nat) (x : SliceS) : (s.setSlice k x).qbucket = s.qbucket := (rfl)
@[simp] theorem State.setSlice_sched (s : State) (k : Nat) (x : SliceS) : (s.setSlice k x).sched = s.sched := (rfl)
@[simp] theorem State.setSlice_pfcTx (s : State) (k : Nat) (x : SliceS) : (s.setSlice k x).pfcTx = s.pfcTx := (rfl)
@[simp] theorem State.setSlice_meters (s : State) (k : Nat) (x : SliceS) : (s.setSlice k x).meters = s.meters := (rfl)
@[simp] theorem State.setSlice_late (s : State) (k : Nat) (x : SliceS) : (s.setSlice k x).late = s.late := (rfl)
@[simp] theorem State.setSlice_unsettled (s : State) (k : Nat) (x : SliceS) : (s.setSlice k x).unsettled = s.unsettled := (rfl)
@[simp] theorem State.setSlice_wood (s : State) (k : Nat) (x : SliceS) : (s.setSlice k x).wood = s.wood := (rfl)
@[simp] theorem State.setSlice_eastq (s : State) (k : Nat) (x : SliceS) : (s.setSlice k x).eastq = s.eastq := (rfl)
@[simp] theorem State.setSlice_hitq (s : State) (k : Nat) (x : SliceS) : (s.setSlice k x).hitq = s.hitq := (rfl)
@[simp] theorem State.setSlice_matrix (s : State) (k : Nat) (x : SliceS) : (s.setSlice k x).matrix = s.matrix := (rfl)
@[simp] theorem State.setSlice_tally (s : State) (k : Nat) (x : SliceS) : (s.setSlice k x).tally = s.tally := (rfl)
@[simp] theorem State.setSlice_hbm (s : State) (k : Nat) (x : SliceS) : (s.setSlice k x).hbm = s.hbm := (rfl)
@[simp] theorem State.setSlice_host (s : State) (k : Nat) (x : SliceS) : (s.setSlice k x).host = s.host := (rfl)
@[simp] theorem State.setSlice_cruiser (s : State) (k : Nat) (x : SliceS) : (s.setSlice k x).cruiser = s.cruiser := (rfl)
@[simp] theorem State.setSlice_fire (s : State) (k : Nat) (x : SliceS) : (s.setSlice k x).fire = s.fire := (rfl)
@[simp] theorem State.setSlice_raft (s : State) (k : Nat) (x : SliceS) : (s.setSlice k x).raft = s.raft := (rfl)
@[simp] theorem State.setSlice_lookout (s : State) (k : Nat) (x : SliceS) : (s.setSlice k x).lookout = s.lookout := (rfl)
@[simp] theorem State.setSlice_forester (s : State) (k : Nat) (x : SliceS) : (s.setSlice k x).forester = s.forester := (rfl)
@[simp] theorem State.setSlice_mram (s : State) (k : Nat) (x : SliceS) : (s.setSlice k x).mram = s.mram := (rfl)
@[simp] theorem State.setSlice_fuses (s : State) (k : Nat) (x : SliceS) : (s.setSlice k x).fuses = s.fuses := (rfl)
@[simp] theorem State.setSlice_ppsHigh (s : State) (k : Nat) (x : SliceS) : (s.setSlice k x).ppsHigh = s.ppsHigh := (rfl)
@[simp] theorem State.setSlice_rst (s : State) (k : Nat) (x : SliceS) : (s.setSlice k x).rst = s.rst := (rfl)
@[simp] theorem State.setSlice_reg (s : State) (k : Nat) (x : SliceS) (pg off : Nat) : (s.setSlice k x).reg pg off = s.reg pg off := (rfl)
@[simp] theorem State.setSlice_live (s : State) (k : Nat) (x : SliceS) : (s.setSlice k x).live = s.live := (rfl)
@[simp] theorem State.setSlice_now (s : State) (k : Nat) (x : SliceS) : (s.setSlice k x).now = s.now := (rfl)

/-! ### setSched -/

@[simp] theorem State.setSched_pending (s : State) (p : Nat) (x : SchedS) : (s.setSched p x).pending = s.pending := (rfl)
@[simp] theorem State.setSched_clk (s : State) (p : Nat) (x : SchedS) : (s.setSched p x).clk = s.clk := (rfl)
@[simp] theorem State.setSched_freeCtr (s : State) (p : Nat) (x : SchedS) : (s.setSched p x).freeCtr = s.freeCtr := (rfl)
@[simp] theorem State.setSched_out (s : State) (p : Nat) (x : SchedS) : (s.setSched p x).out = s.out := (rfl)
@[simp] theorem State.setSched_regs (s : State) (p : Nat) (x : SchedS) : (s.setSched p x).regs = s.regs := (rfl)
@[simp] theorem State.setSched_selRegs (s : State) (p : Nat) (x : SchedS) : (s.setSched p x).selRegs = s.selRegs := (rfl)
@[simp] theorem State.setSched_mem (s : State) (p : Nat) (x : SchedS) : (s.setSched p x).mem = s.mem := (rfl)
@[simp] theorem State.setSched_bus (s : State) (p : Nat) (x : SchedS) : (s.setSched p x).bus = s.bus := (rfl)
@[simp] theorem State.setSched_flumeUp (s : State) (p : Nat) (x : SchedS) : (s.setSched p x).flumeUp = s.flumeUp := (rfl)
@[simp] theorem State.setSched_lanes (s : State) (p : Nat) (x : SchedS) : (s.setSched p x).lanes = s.lanes := (rfl)
@[simp] theorem State.setSched_macros (s : State) (p : Nat) (x : SchedS) : (s.setSched p x).macros = s.macros := (rfl)
@[simp] theorem State.setSched_ports (s : State) (p : Nat) (x : SchedS) : (s.setSched p x).ports = s.ports := (rfl)
@[simp] theorem State.setSched_spans (s : State) (p : Nat) (x : SchedS) : (s.setSched p x).spans = s.spans := (rfl)
@[simp] theorem State.setSched_frames (s : State) (p : Nat) (x : SchedS) : (s.setSched p x).frames = s.frames := (rfl)
@[simp] theorem State.setSched_nextFrame (s : State) (p : Nat) (x : SchedS) : (s.setSched p x).nextFrame = s.nextFrame := (rfl)
@[simp] theorem State.setSched_slices (s : State) (p : Nat) (x : SchedS) : (s.setSched p x).slices = s.slices := (rfl)
@[simp] theorem State.setSched_mcast (s : State) (p : Nat) (x : SchedS) : (s.setSched p x).mcast = s.mcast := (rfl)
@[simp] theorem State.setSched_rings (s : State) (p : Nat) (x : SchedS) : (s.setSched p x).rings = s.rings := (rfl)
@[simp] theorem State.setSched_inflight (s : State) (p : Nat) (x : SchedS) : (s.setSched p x).inflight = s.inflight := (rfl)
@[simp] theorem State.setSched_deck (s : State) (p : Nat) (x : SchedS) : (s.setSched p x).deck = s.deck := (rfl)
@[simp] theorem State.setSched_path (s : State) (p : Nat) (x : SchedS) : (s.setSched p x).path = s.path := (rfl)
@[simp] theorem State.setSched_queues (s : State) (p : Nat) (x : SchedS) : (s.setSched p x).queues = s.queues := (rfl)
@[simp] theorem State.setSched_deficit (s : State) (p : Nat) (x : SchedS) : (s.setSched p x).deficit = s.deficit := (rfl)
@[simp] theorem State.setSched_qbucket (s : State) (p : Nat) (x : SchedS) : (s.setSched p x).qbucket = s.qbucket := (rfl)
@[simp] theorem State.setSched_pfcTx (s : State) (p : Nat) (x : SchedS) : (s.setSched p x).pfcTx = s.pfcTx := (rfl)
@[simp] theorem State.setSched_meters (s : State) (p : Nat) (x : SchedS) : (s.setSched p x).meters = s.meters := (rfl)
@[simp] theorem State.setSched_late (s : State) (p : Nat) (x : SchedS) : (s.setSched p x).late = s.late := (rfl)
@[simp] theorem State.setSched_unsettled (s : State) (p : Nat) (x : SchedS) : (s.setSched p x).unsettled = s.unsettled := (rfl)
@[simp] theorem State.setSched_wood (s : State) (p : Nat) (x : SchedS) : (s.setSched p x).wood = s.wood := (rfl)
@[simp] theorem State.setSched_eastq (s : State) (p : Nat) (x : SchedS) : (s.setSched p x).eastq = s.eastq := (rfl)
@[simp] theorem State.setSched_hitq (s : State) (p : Nat) (x : SchedS) : (s.setSched p x).hitq = s.hitq := (rfl)
@[simp] theorem State.setSched_matrix (s : State) (p : Nat) (x : SchedS) : (s.setSched p x).matrix = s.matrix := (rfl)
@[simp] theorem State.setSched_tally (s : State) (p : Nat) (x : SchedS) : (s.setSched p x).tally = s.tally := (rfl)
@[simp] theorem State.setSched_hbm (s : State) (p : Nat) (x : SchedS) : (s.setSched p x).hbm = s.hbm := (rfl)
@[simp] theorem State.setSched_host (s : State) (p : Nat) (x : SchedS) : (s.setSched p x).host = s.host := (rfl)
@[simp] theorem State.setSched_cruiser (s : State) (p : Nat) (x : SchedS) : (s.setSched p x).cruiser = s.cruiser := (rfl)
@[simp] theorem State.setSched_fire (s : State) (p : Nat) (x : SchedS) : (s.setSched p x).fire = s.fire := (rfl)
@[simp] theorem State.setSched_raft (s : State) (p : Nat) (x : SchedS) : (s.setSched p x).raft = s.raft := (rfl)
@[simp] theorem State.setSched_lookout (s : State) (p : Nat) (x : SchedS) : (s.setSched p x).lookout = s.lookout := (rfl)
@[simp] theorem State.setSched_forester (s : State) (p : Nat) (x : SchedS) : (s.setSched p x).forester = s.forester := (rfl)
@[simp] theorem State.setSched_mram (s : State) (p : Nat) (x : SchedS) : (s.setSched p x).mram = s.mram := (rfl)
@[simp] theorem State.setSched_fuses (s : State) (p : Nat) (x : SchedS) : (s.setSched p x).fuses = s.fuses := (rfl)
@[simp] theorem State.setSched_ppsHigh (s : State) (p : Nat) (x : SchedS) : (s.setSched p x).ppsHigh = s.ppsHigh := (rfl)
@[simp] theorem State.setSched_rst (s : State) (p : Nat) (x : SchedS) : (s.setSched p x).rst = s.rst := (rfl)
@[simp] theorem State.setSched_reg (s : State) (p : Nat) (x : SchedS) (pg off : Nat) : (s.setSched p x).reg pg off = s.reg pg off := (rfl)
@[simp] theorem State.setSched_live (s : State) (p : Nat) (x : SchedS) : (s.setSched p x).live = s.live := (rfl)
@[simp] theorem State.setSched_now (s : State) (p : Nat) (x : SchedS) : (s.setSched p x).now = s.now := (rfl)

/-! ### setQueue -/

@[simp] theorem State.setQueue_pending (s : State) (q : Nat) (x : List Nat) : (s.setQueue q x).pending = s.pending := (rfl)
@[simp] theorem State.setQueue_clk (s : State) (q : Nat) (x : List Nat) : (s.setQueue q x).clk = s.clk := (rfl)
@[simp] theorem State.setQueue_freeCtr (s : State) (q : Nat) (x : List Nat) : (s.setQueue q x).freeCtr = s.freeCtr := (rfl)
@[simp] theorem State.setQueue_out (s : State) (q : Nat) (x : List Nat) : (s.setQueue q x).out = s.out := (rfl)
@[simp] theorem State.setQueue_regs (s : State) (q : Nat) (x : List Nat) : (s.setQueue q x).regs = s.regs := (rfl)
@[simp] theorem State.setQueue_selRegs (s : State) (q : Nat) (x : List Nat) : (s.setQueue q x).selRegs = s.selRegs := (rfl)
@[simp] theorem State.setQueue_mem (s : State) (q : Nat) (x : List Nat) : (s.setQueue q x).mem = s.mem := (rfl)
@[simp] theorem State.setQueue_bus (s : State) (q : Nat) (x : List Nat) : (s.setQueue q x).bus = s.bus := (rfl)
@[simp] theorem State.setQueue_flumeUp (s : State) (q : Nat) (x : List Nat) : (s.setQueue q x).flumeUp = s.flumeUp := (rfl)
@[simp] theorem State.setQueue_lanes (s : State) (q : Nat) (x : List Nat) : (s.setQueue q x).lanes = s.lanes := (rfl)
@[simp] theorem State.setQueue_macros (s : State) (q : Nat) (x : List Nat) : (s.setQueue q x).macros = s.macros := (rfl)
@[simp] theorem State.setQueue_ports (s : State) (q : Nat) (x : List Nat) : (s.setQueue q x).ports = s.ports := (rfl)
@[simp] theorem State.setQueue_spans (s : State) (q : Nat) (x : List Nat) : (s.setQueue q x).spans = s.spans := (rfl)
@[simp] theorem State.setQueue_frames (s : State) (q : Nat) (x : List Nat) : (s.setQueue q x).frames = s.frames := (rfl)
@[simp] theorem State.setQueue_nextFrame (s : State) (q : Nat) (x : List Nat) : (s.setQueue q x).nextFrame = s.nextFrame := (rfl)
@[simp] theorem State.setQueue_slices (s : State) (q : Nat) (x : List Nat) : (s.setQueue q x).slices = s.slices := (rfl)
@[simp] theorem State.setQueue_mcast (s : State) (q : Nat) (x : List Nat) : (s.setQueue q x).mcast = s.mcast := (rfl)
@[simp] theorem State.setQueue_rings (s : State) (q : Nat) (x : List Nat) : (s.setQueue q x).rings = s.rings := (rfl)
@[simp] theorem State.setQueue_inflight (s : State) (q : Nat) (x : List Nat) : (s.setQueue q x).inflight = s.inflight := (rfl)
@[simp] theorem State.setQueue_deck (s : State) (q : Nat) (x : List Nat) : (s.setQueue q x).deck = s.deck := (rfl)
@[simp] theorem State.setQueue_path (s : State) (q : Nat) (x : List Nat) : (s.setQueue q x).path = s.path := (rfl)
@[simp] theorem State.setQueue_deficit (s : State) (q : Nat) (x : List Nat) : (s.setQueue q x).deficit = s.deficit := (rfl)
@[simp] theorem State.setQueue_qbucket (s : State) (q : Nat) (x : List Nat) : (s.setQueue q x).qbucket = s.qbucket := (rfl)
@[simp] theorem State.setQueue_sched (s : State) (q : Nat) (x : List Nat) : (s.setQueue q x).sched = s.sched := (rfl)
@[simp] theorem State.setQueue_pfcTx (s : State) (q : Nat) (x : List Nat) : (s.setQueue q x).pfcTx = s.pfcTx := (rfl)
@[simp] theorem State.setQueue_meters (s : State) (q : Nat) (x : List Nat) : (s.setQueue q x).meters = s.meters := (rfl)
@[simp] theorem State.setQueue_late (s : State) (q : Nat) (x : List Nat) : (s.setQueue q x).late = s.late := (rfl)
@[simp] theorem State.setQueue_unsettled (s : State) (q : Nat) (x : List Nat) : (s.setQueue q x).unsettled = s.unsettled := (rfl)
@[simp] theorem State.setQueue_wood (s : State) (q : Nat) (x : List Nat) : (s.setQueue q x).wood = s.wood := (rfl)
@[simp] theorem State.setQueue_eastq (s : State) (q : Nat) (x : List Nat) : (s.setQueue q x).eastq = s.eastq := (rfl)
@[simp] theorem State.setQueue_hitq (s : State) (q : Nat) (x : List Nat) : (s.setQueue q x).hitq = s.hitq := (rfl)
@[simp] theorem State.setQueue_matrix (s : State) (q : Nat) (x : List Nat) : (s.setQueue q x).matrix = s.matrix := (rfl)
@[simp] theorem State.setQueue_tally (s : State) (q : Nat) (x : List Nat) : (s.setQueue q x).tally = s.tally := (rfl)
@[simp] theorem State.setQueue_hbm (s : State) (q : Nat) (x : List Nat) : (s.setQueue q x).hbm = s.hbm := (rfl)
@[simp] theorem State.setQueue_host (s : State) (q : Nat) (x : List Nat) : (s.setQueue q x).host = s.host := (rfl)
@[simp] theorem State.setQueue_cruiser (s : State) (q : Nat) (x : List Nat) : (s.setQueue q x).cruiser = s.cruiser := (rfl)
@[simp] theorem State.setQueue_fire (s : State) (q : Nat) (x : List Nat) : (s.setQueue q x).fire = s.fire := (rfl)
@[simp] theorem State.setQueue_raft (s : State) (q : Nat) (x : List Nat) : (s.setQueue q x).raft = s.raft := (rfl)
@[simp] theorem State.setQueue_lookout (s : State) (q : Nat) (x : List Nat) : (s.setQueue q x).lookout = s.lookout := (rfl)
@[simp] theorem State.setQueue_forester (s : State) (q : Nat) (x : List Nat) : (s.setQueue q x).forester = s.forester := (rfl)
@[simp] theorem State.setQueue_mram (s : State) (q : Nat) (x : List Nat) : (s.setQueue q x).mram = s.mram := (rfl)
@[simp] theorem State.setQueue_fuses (s : State) (q : Nat) (x : List Nat) : (s.setQueue q x).fuses = s.fuses := (rfl)
@[simp] theorem State.setQueue_ppsHigh (s : State) (q : Nat) (x : List Nat) : (s.setQueue q x).ppsHigh = s.ppsHigh := (rfl)
@[simp] theorem State.setQueue_rst (s : State) (q : Nat) (x : List Nat) : (s.setQueue q x).rst = s.rst := (rfl)
@[simp] theorem State.setQueue_reg (s : State) (q : Nat) (x : List Nat) (pg off : Nat) : (s.setQueue q x).reg pg off = s.reg pg off := (rfl)
@[simp] theorem State.setQueue_live (s : State) (q : Nat) (x : List Nat) : (s.setQueue q x).live = s.live := (rfl)
@[simp] theorem State.setQueue_now (s : State) (q : Nat) (x : List Nat) : (s.setQueue q x).now = s.now := (rfl)

/-! ### setDeck -/

@[simp] theorem State.setDeck_pending (s : State) (h : Nat) (x : DeckS) : (s.setDeck h x).pending = s.pending := (rfl)
@[simp] theorem State.setDeck_clk (s : State) (h : Nat) (x : DeckS) : (s.setDeck h x).clk = s.clk := (rfl)
@[simp] theorem State.setDeck_freeCtr (s : State) (h : Nat) (x : DeckS) : (s.setDeck h x).freeCtr = s.freeCtr := (rfl)
@[simp] theorem State.setDeck_out (s : State) (h : Nat) (x : DeckS) : (s.setDeck h x).out = s.out := (rfl)
@[simp] theorem State.setDeck_regs (s : State) (h : Nat) (x : DeckS) : (s.setDeck h x).regs = s.regs := (rfl)
@[simp] theorem State.setDeck_selRegs (s : State) (h : Nat) (x : DeckS) : (s.setDeck h x).selRegs = s.selRegs := (rfl)
@[simp] theorem State.setDeck_mem (s : State) (h : Nat) (x : DeckS) : (s.setDeck h x).mem = s.mem := (rfl)
@[simp] theorem State.setDeck_bus (s : State) (h : Nat) (x : DeckS) : (s.setDeck h x).bus = s.bus := (rfl)
@[simp] theorem State.setDeck_flumeUp (s : State) (h : Nat) (x : DeckS) : (s.setDeck h x).flumeUp = s.flumeUp := (rfl)
@[simp] theorem State.setDeck_lanes (s : State) (h : Nat) (x : DeckS) : (s.setDeck h x).lanes = s.lanes := (rfl)
@[simp] theorem State.setDeck_macros (s : State) (h : Nat) (x : DeckS) : (s.setDeck h x).macros = s.macros := (rfl)
@[simp] theorem State.setDeck_ports (s : State) (h : Nat) (x : DeckS) : (s.setDeck h x).ports = s.ports := (rfl)
@[simp] theorem State.setDeck_spans (s : State) (h : Nat) (x : DeckS) : (s.setDeck h x).spans = s.spans := (rfl)
@[simp] theorem State.setDeck_frames (s : State) (h : Nat) (x : DeckS) : (s.setDeck h x).frames = s.frames := (rfl)
@[simp] theorem State.setDeck_nextFrame (s : State) (h : Nat) (x : DeckS) : (s.setDeck h x).nextFrame = s.nextFrame := (rfl)
@[simp] theorem State.setDeck_slices (s : State) (h : Nat) (x : DeckS) : (s.setDeck h x).slices = s.slices := (rfl)
@[simp] theorem State.setDeck_mcast (s : State) (h : Nat) (x : DeckS) : (s.setDeck h x).mcast = s.mcast := (rfl)
@[simp] theorem State.setDeck_rings (s : State) (h : Nat) (x : DeckS) : (s.setDeck h x).rings = s.rings := (rfl)
@[simp] theorem State.setDeck_inflight (s : State) (h : Nat) (x : DeckS) : (s.setDeck h x).inflight = s.inflight := (rfl)
@[simp] theorem State.setDeck_path (s : State) (h : Nat) (x : DeckS) : (s.setDeck h x).path = s.path := (rfl)
@[simp] theorem State.setDeck_queues (s : State) (h : Nat) (x : DeckS) : (s.setDeck h x).queues = s.queues := (rfl)
@[simp] theorem State.setDeck_deficit (s : State) (h : Nat) (x : DeckS) : (s.setDeck h x).deficit = s.deficit := (rfl)
@[simp] theorem State.setDeck_qbucket (s : State) (h : Nat) (x : DeckS) : (s.setDeck h x).qbucket = s.qbucket := (rfl)
@[simp] theorem State.setDeck_sched (s : State) (h : Nat) (x : DeckS) : (s.setDeck h x).sched = s.sched := (rfl)
@[simp] theorem State.setDeck_pfcTx (s : State) (h : Nat) (x : DeckS) : (s.setDeck h x).pfcTx = s.pfcTx := (rfl)
@[simp] theorem State.setDeck_meters (s : State) (h : Nat) (x : DeckS) : (s.setDeck h x).meters = s.meters := (rfl)
@[simp] theorem State.setDeck_late (s : State) (h : Nat) (x : DeckS) : (s.setDeck h x).late = s.late := (rfl)
@[simp] theorem State.setDeck_unsettled (s : State) (h : Nat) (x : DeckS) : (s.setDeck h x).unsettled = s.unsettled := (rfl)
@[simp] theorem State.setDeck_wood (s : State) (h : Nat) (x : DeckS) : (s.setDeck h x).wood = s.wood := (rfl)
@[simp] theorem State.setDeck_eastq (s : State) (h : Nat) (x : DeckS) : (s.setDeck h x).eastq = s.eastq := (rfl)
@[simp] theorem State.setDeck_hitq (s : State) (h : Nat) (x : DeckS) : (s.setDeck h x).hitq = s.hitq := (rfl)
@[simp] theorem State.setDeck_matrix (s : State) (h : Nat) (x : DeckS) : (s.setDeck h x).matrix = s.matrix := (rfl)
@[simp] theorem State.setDeck_tally (s : State) (h : Nat) (x : DeckS) : (s.setDeck h x).tally = s.tally := (rfl)
@[simp] theorem State.setDeck_hbm (s : State) (h : Nat) (x : DeckS) : (s.setDeck h x).hbm = s.hbm := (rfl)
@[simp] theorem State.setDeck_host (s : State) (h : Nat) (x : DeckS) : (s.setDeck h x).host = s.host := (rfl)
@[simp] theorem State.setDeck_cruiser (s : State) (h : Nat) (x : DeckS) : (s.setDeck h x).cruiser = s.cruiser := (rfl)
@[simp] theorem State.setDeck_fire (s : State) (h : Nat) (x : DeckS) : (s.setDeck h x).fire = s.fire := (rfl)
@[simp] theorem State.setDeck_raft (s : State) (h : Nat) (x : DeckS) : (s.setDeck h x).raft = s.raft := (rfl)
@[simp] theorem State.setDeck_lookout (s : State) (h : Nat) (x : DeckS) : (s.setDeck h x).lookout = s.lookout := (rfl)
@[simp] theorem State.setDeck_forester (s : State) (h : Nat) (x : DeckS) : (s.setDeck h x).forester = s.forester := (rfl)
@[simp] theorem State.setDeck_mram (s : State) (h : Nat) (x : DeckS) : (s.setDeck h x).mram = s.mram := (rfl)
@[simp] theorem State.setDeck_fuses (s : State) (h : Nat) (x : DeckS) : (s.setDeck h x).fuses = s.fuses := (rfl)
@[simp] theorem State.setDeck_ppsHigh (s : State) (h : Nat) (x : DeckS) : (s.setDeck h x).ppsHigh = s.ppsHigh := (rfl)
@[simp] theorem State.setDeck_rst (s : State) (h : Nat) (x : DeckS) : (s.setDeck h x).rst = s.rst := (rfl)
@[simp] theorem State.setDeck_reg (s : State) (h : Nat) (x : DeckS) (pg off : Nat) : (s.setDeck h x).reg pg off = s.reg pg off := (rfl)
@[simp] theorem State.setDeck_live (s : State) (h : Nat) (x : DeckS) : (s.setDeck h x).live = s.live := (rfl)
@[simp] theorem State.setDeck_now (s : State) (h : Nat) (x : DeckS) : (s.setDeck h x).now = s.now := (rfl)

/-! ### setPath -/

@[simp] theorem State.setPath_pending (s : State) (h : Nat) (x : PathS) : (s.setPath h x).pending = s.pending := (rfl)
@[simp] theorem State.setPath_clk (s : State) (h : Nat) (x : PathS) : (s.setPath h x).clk = s.clk := (rfl)
@[simp] theorem State.setPath_freeCtr (s : State) (h : Nat) (x : PathS) : (s.setPath h x).freeCtr = s.freeCtr := (rfl)
@[simp] theorem State.setPath_out (s : State) (h : Nat) (x : PathS) : (s.setPath h x).out = s.out := (rfl)
@[simp] theorem State.setPath_regs (s : State) (h : Nat) (x : PathS) : (s.setPath h x).regs = s.regs := (rfl)
@[simp] theorem State.setPath_selRegs (s : State) (h : Nat) (x : PathS) : (s.setPath h x).selRegs = s.selRegs := (rfl)
@[simp] theorem State.setPath_mem (s : State) (h : Nat) (x : PathS) : (s.setPath h x).mem = s.mem := (rfl)
@[simp] theorem State.setPath_bus (s : State) (h : Nat) (x : PathS) : (s.setPath h x).bus = s.bus := (rfl)
@[simp] theorem State.setPath_flumeUp (s : State) (h : Nat) (x : PathS) : (s.setPath h x).flumeUp = s.flumeUp := (rfl)
@[simp] theorem State.setPath_lanes (s : State) (h : Nat) (x : PathS) : (s.setPath h x).lanes = s.lanes := (rfl)
@[simp] theorem State.setPath_macros (s : State) (h : Nat) (x : PathS) : (s.setPath h x).macros = s.macros := (rfl)
@[simp] theorem State.setPath_ports (s : State) (h : Nat) (x : PathS) : (s.setPath h x).ports = s.ports := (rfl)
@[simp] theorem State.setPath_spans (s : State) (h : Nat) (x : PathS) : (s.setPath h x).spans = s.spans := (rfl)
@[simp] theorem State.setPath_frames (s : State) (h : Nat) (x : PathS) : (s.setPath h x).frames = s.frames := (rfl)
@[simp] theorem State.setPath_nextFrame (s : State) (h : Nat) (x : PathS) : (s.setPath h x).nextFrame = s.nextFrame := (rfl)
@[simp] theorem State.setPath_slices (s : State) (h : Nat) (x : PathS) : (s.setPath h x).slices = s.slices := (rfl)
@[simp] theorem State.setPath_mcast (s : State) (h : Nat) (x : PathS) : (s.setPath h x).mcast = s.mcast := (rfl)
@[simp] theorem State.setPath_rings (s : State) (h : Nat) (x : PathS) : (s.setPath h x).rings = s.rings := (rfl)
@[simp] theorem State.setPath_inflight (s : State) (h : Nat) (x : PathS) : (s.setPath h x).inflight = s.inflight := (rfl)
@[simp] theorem State.setPath_deck (s : State) (h : Nat) (x : PathS) : (s.setPath h x).deck = s.deck := (rfl)
@[simp] theorem State.setPath_queues (s : State) (h : Nat) (x : PathS) : (s.setPath h x).queues = s.queues := (rfl)
@[simp] theorem State.setPath_deficit (s : State) (h : Nat) (x : PathS) : (s.setPath h x).deficit = s.deficit := (rfl)
@[simp] theorem State.setPath_qbucket (s : State) (h : Nat) (x : PathS) : (s.setPath h x).qbucket = s.qbucket := (rfl)
@[simp] theorem State.setPath_sched (s : State) (h : Nat) (x : PathS) : (s.setPath h x).sched = s.sched := (rfl)
@[simp] theorem State.setPath_pfcTx (s : State) (h : Nat) (x : PathS) : (s.setPath h x).pfcTx = s.pfcTx := (rfl)
@[simp] theorem State.setPath_meters (s : State) (h : Nat) (x : PathS) : (s.setPath h x).meters = s.meters := (rfl)
@[simp] theorem State.setPath_late (s : State) (h : Nat) (x : PathS) : (s.setPath h x).late = s.late := (rfl)
@[simp] theorem State.setPath_unsettled (s : State) (h : Nat) (x : PathS) : (s.setPath h x).unsettled = s.unsettled := (rfl)
@[simp] theorem State.setPath_wood (s : State) (h : Nat) (x : PathS) : (s.setPath h x).wood = s.wood := (rfl)
@[simp] theorem State.setPath_eastq (s : State) (h : Nat) (x : PathS) : (s.setPath h x).eastq = s.eastq := (rfl)
@[simp] theorem State.setPath_hitq (s : State) (h : Nat) (x : PathS) : (s.setPath h x).hitq = s.hitq := (rfl)
@[simp] theorem State.setPath_matrix (s : State) (h : Nat) (x : PathS) : (s.setPath h x).matrix = s.matrix := (rfl)
@[simp] theorem State.setPath_tally (s : State) (h : Nat) (x : PathS) : (s.setPath h x).tally = s.tally := (rfl)
@[simp] theorem State.setPath_hbm (s : State) (h : Nat) (x : PathS) : (s.setPath h x).hbm = s.hbm := (rfl)
@[simp] theorem State.setPath_host (s : State) (h : Nat) (x : PathS) : (s.setPath h x).host = s.host := (rfl)
@[simp] theorem State.setPath_cruiser (s : State) (h : Nat) (x : PathS) : (s.setPath h x).cruiser = s.cruiser := (rfl)
@[simp] theorem State.setPath_fire (s : State) (h : Nat) (x : PathS) : (s.setPath h x).fire = s.fire := (rfl)
@[simp] theorem State.setPath_raft (s : State) (h : Nat) (x : PathS) : (s.setPath h x).raft = s.raft := (rfl)
@[simp] theorem State.setPath_lookout (s : State) (h : Nat) (x : PathS) : (s.setPath h x).lookout = s.lookout := (rfl)
@[simp] theorem State.setPath_forester (s : State) (h : Nat) (x : PathS) : (s.setPath h x).forester = s.forester := (rfl)
@[simp] theorem State.setPath_mram (s : State) (h : Nat) (x : PathS) : (s.setPath h x).mram = s.mram := (rfl)
@[simp] theorem State.setPath_fuses (s : State) (h : Nat) (x : PathS) : (s.setPath h x).fuses = s.fuses := (rfl)
@[simp] theorem State.setPath_ppsHigh (s : State) (h : Nat) (x : PathS) : (s.setPath h x).ppsHigh = s.ppsHigh := (rfl)
@[simp] theorem State.setPath_rst (s : State) (h : Nat) (x : PathS) : (s.setPath h x).rst = s.rst := (rfl)
@[simp] theorem State.setPath_reg (s : State) (h : Nat) (x : PathS) (pg off : Nat) : (s.setPath h x).reg pg off = s.reg pg off := (rfl)
@[simp] theorem State.setPath_live (s : State) (h : Nat) (x : PathS) : (s.setPath h x).live = s.live := (rfl)
@[simp] theorem State.setPath_now (s : State) (h : Nat) (x : PathS) : (s.setPath h x).now = s.now := (rfl)

/-! ### setTally -/

@[simp] theorem State.setTally_pending (s : State) (h : Nat) (x : TallyS) : (s.setTally h x).pending = s.pending := (rfl)
@[simp] theorem State.setTally_clk (s : State) (h : Nat) (x : TallyS) : (s.setTally h x).clk = s.clk := (rfl)
@[simp] theorem State.setTally_freeCtr (s : State) (h : Nat) (x : TallyS) : (s.setTally h x).freeCtr = s.freeCtr := (rfl)
@[simp] theorem State.setTally_out (s : State) (h : Nat) (x : TallyS) : (s.setTally h x).out = s.out := (rfl)
@[simp] theorem State.setTally_regs (s : State) (h : Nat) (x : TallyS) : (s.setTally h x).regs = s.regs := (rfl)
@[simp] theorem State.setTally_selRegs (s : State) (h : Nat) (x : TallyS) : (s.setTally h x).selRegs = s.selRegs := (rfl)
@[simp] theorem State.setTally_mem (s : State) (h : Nat) (x : TallyS) : (s.setTally h x).mem = s.mem := (rfl)
@[simp] theorem State.setTally_bus (s : State) (h : Nat) (x : TallyS) : (s.setTally h x).bus = s.bus := (rfl)
@[simp] theorem State.setTally_flumeUp (s : State) (h : Nat) (x : TallyS) : (s.setTally h x).flumeUp = s.flumeUp := (rfl)
@[simp] theorem State.setTally_lanes (s : State) (h : Nat) (x : TallyS) : (s.setTally h x).lanes = s.lanes := (rfl)
@[simp] theorem State.setTally_macros (s : State) (h : Nat) (x : TallyS) : (s.setTally h x).macros = s.macros := (rfl)
@[simp] theorem State.setTally_ports (s : State) (h : Nat) (x : TallyS) : (s.setTally h x).ports = s.ports := (rfl)
@[simp] theorem State.setTally_spans (s : State) (h : Nat) (x : TallyS) : (s.setTally h x).spans = s.spans := (rfl)
@[simp] theorem State.setTally_frames (s : State) (h : Nat) (x : TallyS) : (s.setTally h x).frames = s.frames := (rfl)
@[simp] theorem State.setTally_nextFrame (s : State) (h : Nat) (x : TallyS) : (s.setTally h x).nextFrame = s.nextFrame := (rfl)
@[simp] theorem State.setTally_slices (s : State) (h : Nat) (x : TallyS) : (s.setTally h x).slices = s.slices := (rfl)
@[simp] theorem State.setTally_mcast (s : State) (h : Nat) (x : TallyS) : (s.setTally h x).mcast = s.mcast := (rfl)
@[simp] theorem State.setTally_rings (s : State) (h : Nat) (x : TallyS) : (s.setTally h x).rings = s.rings := (rfl)
@[simp] theorem State.setTally_inflight (s : State) (h : Nat) (x : TallyS) : (s.setTally h x).inflight = s.inflight := (rfl)
@[simp] theorem State.setTally_deck (s : State) (h : Nat) (x : TallyS) : (s.setTally h x).deck = s.deck := (rfl)
@[simp] theorem State.setTally_path (s : State) (h : Nat) (x : TallyS) : (s.setTally h x).path = s.path := (rfl)
@[simp] theorem State.setTally_queues (s : State) (h : Nat) (x : TallyS) : (s.setTally h x).queues = s.queues := (rfl)
@[simp] theorem State.setTally_deficit (s : State) (h : Nat) (x : TallyS) : (s.setTally h x).deficit = s.deficit := (rfl)
@[simp] theorem State.setTally_qbucket (s : State) (h : Nat) (x : TallyS) : (s.setTally h x).qbucket = s.qbucket := (rfl)
@[simp] theorem State.setTally_sched (s : State) (h : Nat) (x : TallyS) : (s.setTally h x).sched = s.sched := (rfl)
@[simp] theorem State.setTally_pfcTx (s : State) (h : Nat) (x : TallyS) : (s.setTally h x).pfcTx = s.pfcTx := (rfl)
@[simp] theorem State.setTally_meters (s : State) (h : Nat) (x : TallyS) : (s.setTally h x).meters = s.meters := (rfl)
@[simp] theorem State.setTally_late (s : State) (h : Nat) (x : TallyS) : (s.setTally h x).late = s.late := (rfl)
@[simp] theorem State.setTally_unsettled (s : State) (h : Nat) (x : TallyS) : (s.setTally h x).unsettled = s.unsettled := (rfl)
@[simp] theorem State.setTally_wood (s : State) (h : Nat) (x : TallyS) : (s.setTally h x).wood = s.wood := (rfl)
@[simp] theorem State.setTally_eastq (s : State) (h : Nat) (x : TallyS) : (s.setTally h x).eastq = s.eastq := (rfl)
@[simp] theorem State.setTally_hitq (s : State) (h : Nat) (x : TallyS) : (s.setTally h x).hitq = s.hitq := (rfl)
@[simp] theorem State.setTally_matrix (s : State) (h : Nat) (x : TallyS) : (s.setTally h x).matrix = s.matrix := (rfl)
@[simp] theorem State.setTally_hbm (s : State) (h : Nat) (x : TallyS) : (s.setTally h x).hbm = s.hbm := (rfl)
@[simp] theorem State.setTally_host (s : State) (h : Nat) (x : TallyS) : (s.setTally h x).host = s.host := (rfl)
@[simp] theorem State.setTally_cruiser (s : State) (h : Nat) (x : TallyS) : (s.setTally h x).cruiser = s.cruiser := (rfl)
@[simp] theorem State.setTally_fire (s : State) (h : Nat) (x : TallyS) : (s.setTally h x).fire = s.fire := (rfl)
@[simp] theorem State.setTally_raft (s : State) (h : Nat) (x : TallyS) : (s.setTally h x).raft = s.raft := (rfl)
@[simp] theorem State.setTally_lookout (s : State) (h : Nat) (x : TallyS) : (s.setTally h x).lookout = s.lookout := (rfl)
@[simp] theorem State.setTally_forester (s : State) (h : Nat) (x : TallyS) : (s.setTally h x).forester = s.forester := (rfl)
@[simp] theorem State.setTally_mram (s : State) (h : Nat) (x : TallyS) : (s.setTally h x).mram = s.mram := (rfl)
@[simp] theorem State.setTally_fuses (s : State) (h : Nat) (x : TallyS) : (s.setTally h x).fuses = s.fuses := (rfl)
@[simp] theorem State.setTally_ppsHigh (s : State) (h : Nat) (x : TallyS) : (s.setTally h x).ppsHigh = s.ppsHigh := (rfl)
@[simp] theorem State.setTally_rst (s : State) (h : Nat) (x : TallyS) : (s.setTally h x).rst = s.rst := (rfl)
@[simp] theorem State.setTally_reg (s : State) (h : Nat) (x : TallyS) (pg off : Nat) : (s.setTally h x).reg pg off = s.reg pg off := (rfl)
@[simp] theorem State.setTally_live (s : State) (h : Nat) (x : TallyS) : (s.setTally h x).live = s.live := (rfl)
@[simp] theorem State.setTally_now (s : State) (h : Nat) (x : TallyS) : (s.setTally h x).now = s.now := (rfl)

/-! ### setMatrix -/

@[simp] theorem State.setMatrix_pending (s : State) (h : Nat) (x : MatrixS) : (s.setMatrix h x).pending = s.pending := (rfl)
@[simp] theorem State.setMatrix_clk (s : State) (h : Nat) (x : MatrixS) : (s.setMatrix h x).clk = s.clk := (rfl)
@[simp] theorem State.setMatrix_freeCtr (s : State) (h : Nat) (x : MatrixS) : (s.setMatrix h x).freeCtr = s.freeCtr := (rfl)
@[simp] theorem State.setMatrix_out (s : State) (h : Nat) (x : MatrixS) : (s.setMatrix h x).out = s.out := (rfl)
@[simp] theorem State.setMatrix_regs (s : State) (h : Nat) (x : MatrixS) : (s.setMatrix h x).regs = s.regs := (rfl)
@[simp] theorem State.setMatrix_selRegs (s : State) (h : Nat) (x : MatrixS) : (s.setMatrix h x).selRegs = s.selRegs := (rfl)
@[simp] theorem State.setMatrix_mem (s : State) (h : Nat) (x : MatrixS) : (s.setMatrix h x).mem = s.mem := (rfl)
@[simp] theorem State.setMatrix_bus (s : State) (h : Nat) (x : MatrixS) : (s.setMatrix h x).bus = s.bus := (rfl)
@[simp] theorem State.setMatrix_flumeUp (s : State) (h : Nat) (x : MatrixS) : (s.setMatrix h x).flumeUp = s.flumeUp := (rfl)
@[simp] theorem State.setMatrix_lanes (s : State) (h : Nat) (x : MatrixS) : (s.setMatrix h x).lanes = s.lanes := (rfl)
@[simp] theorem State.setMatrix_macros (s : State) (h : Nat) (x : MatrixS) : (s.setMatrix h x).macros = s.macros := (rfl)
@[simp] theorem State.setMatrix_ports (s : State) (h : Nat) (x : MatrixS) : (s.setMatrix h x).ports = s.ports := (rfl)
@[simp] theorem State.setMatrix_spans (s : State) (h : Nat) (x : MatrixS) : (s.setMatrix h x).spans = s.spans := (rfl)
@[simp] theorem State.setMatrix_frames (s : State) (h : Nat) (x : MatrixS) : (s.setMatrix h x).frames = s.frames := (rfl)
@[simp] theorem State.setMatrix_nextFrame (s : State) (h : Nat) (x : MatrixS) : (s.setMatrix h x).nextFrame = s.nextFrame := (rfl)
@[simp] theorem State.setMatrix_slices (s : State) (h : Nat) (x : MatrixS) : (s.setMatrix h x).slices = s.slices := (rfl)
@[simp] theorem State.setMatrix_mcast (s : State) (h : Nat) (x : MatrixS) : (s.setMatrix h x).mcast = s.mcast := (rfl)
@[simp] theorem State.setMatrix_rings (s : State) (h : Nat) (x : MatrixS) : (s.setMatrix h x).rings = s.rings := (rfl)
@[simp] theorem State.setMatrix_inflight (s : State) (h : Nat) (x : MatrixS) : (s.setMatrix h x).inflight = s.inflight := (rfl)
@[simp] theorem State.setMatrix_deck (s : State) (h : Nat) (x : MatrixS) : (s.setMatrix h x).deck = s.deck := (rfl)
@[simp] theorem State.setMatrix_path (s : State) (h : Nat) (x : MatrixS) : (s.setMatrix h x).path = s.path := (rfl)
@[simp] theorem State.setMatrix_queues (s : State) (h : Nat) (x : MatrixS) : (s.setMatrix h x).queues = s.queues := (rfl)
@[simp] theorem State.setMatrix_deficit (s : State) (h : Nat) (x : MatrixS) : (s.setMatrix h x).deficit = s.deficit := (rfl)
@[simp] theorem State.setMatrix_qbucket (s : State) (h : Nat) (x : MatrixS) : (s.setMatrix h x).qbucket = s.qbucket := (rfl)
@[simp] theorem State.setMatrix_sched (s : State) (h : Nat) (x : MatrixS) : (s.setMatrix h x).sched = s.sched := (rfl)
@[simp] theorem State.setMatrix_pfcTx (s : State) (h : Nat) (x : MatrixS) : (s.setMatrix h x).pfcTx = s.pfcTx := (rfl)
@[simp] theorem State.setMatrix_meters (s : State) (h : Nat) (x : MatrixS) : (s.setMatrix h x).meters = s.meters := (rfl)
@[simp] theorem State.setMatrix_late (s : State) (h : Nat) (x : MatrixS) : (s.setMatrix h x).late = s.late := (rfl)
@[simp] theorem State.setMatrix_unsettled (s : State) (h : Nat) (x : MatrixS) : (s.setMatrix h x).unsettled = s.unsettled := (rfl)
@[simp] theorem State.setMatrix_wood (s : State) (h : Nat) (x : MatrixS) : (s.setMatrix h x).wood = s.wood := (rfl)
@[simp] theorem State.setMatrix_eastq (s : State) (h : Nat) (x : MatrixS) : (s.setMatrix h x).eastq = s.eastq := (rfl)
@[simp] theorem State.setMatrix_hitq (s : State) (h : Nat) (x : MatrixS) : (s.setMatrix h x).hitq = s.hitq := (rfl)
@[simp] theorem State.setMatrix_tally (s : State) (h : Nat) (x : MatrixS) : (s.setMatrix h x).tally = s.tally := (rfl)
@[simp] theorem State.setMatrix_hbm (s : State) (h : Nat) (x : MatrixS) : (s.setMatrix h x).hbm = s.hbm := (rfl)
@[simp] theorem State.setMatrix_host (s : State) (h : Nat) (x : MatrixS) : (s.setMatrix h x).host = s.host := (rfl)
@[simp] theorem State.setMatrix_cruiser (s : State) (h : Nat) (x : MatrixS) : (s.setMatrix h x).cruiser = s.cruiser := (rfl)
@[simp] theorem State.setMatrix_fire (s : State) (h : Nat) (x : MatrixS) : (s.setMatrix h x).fire = s.fire := (rfl)
@[simp] theorem State.setMatrix_raft (s : State) (h : Nat) (x : MatrixS) : (s.setMatrix h x).raft = s.raft := (rfl)
@[simp] theorem State.setMatrix_lookout (s : State) (h : Nat) (x : MatrixS) : (s.setMatrix h x).lookout = s.lookout := (rfl)
@[simp] theorem State.setMatrix_forester (s : State) (h : Nat) (x : MatrixS) : (s.setMatrix h x).forester = s.forester := (rfl)
@[simp] theorem State.setMatrix_mram (s : State) (h : Nat) (x : MatrixS) : (s.setMatrix h x).mram = s.mram := (rfl)
@[simp] theorem State.setMatrix_fuses (s : State) (h : Nat) (x : MatrixS) : (s.setMatrix h x).fuses = s.fuses := (rfl)
@[simp] theorem State.setMatrix_ppsHigh (s : State) (h : Nat) (x : MatrixS) : (s.setMatrix h x).ppsHigh = s.ppsHigh := (rfl)
@[simp] theorem State.setMatrix_rst (s : State) (h : Nat) (x : MatrixS) : (s.setMatrix h x).rst = s.rst := (rfl)
@[simp] theorem State.setMatrix_reg (s : State) (h : Nat) (x : MatrixS) (pg off : Nat) : (s.setMatrix h x).reg pg off = s.reg pg off := (rfl)
@[simp] theorem State.setMatrix_live (s : State) (h : Nat) (x : MatrixS) : (s.setMatrix h x).live = s.live := (rfl)
@[simp] theorem State.setMatrix_now (s : State) (h : Nat) (x : MatrixS) : (s.setMatrix h x).now = s.now := (rfl)

/-! ### setWood -/

@[simp] theorem State.setWood_pending (s : State) (h : Nat) (x : WoodS) : (s.setWood h x).pending = s.pending := (rfl)
@[simp] theorem State.setWood_clk (s : State) (h : Nat) (x : WoodS) : (s.setWood h x).clk = s.clk := (rfl)
@[simp] theorem State.setWood_freeCtr (s : State) (h : Nat) (x : WoodS) : (s.setWood h x).freeCtr = s.freeCtr := (rfl)
@[simp] theorem State.setWood_out (s : State) (h : Nat) (x : WoodS) : (s.setWood h x).out = s.out := (rfl)
@[simp] theorem State.setWood_regs (s : State) (h : Nat) (x : WoodS) : (s.setWood h x).regs = s.regs := (rfl)
@[simp] theorem State.setWood_selRegs (s : State) (h : Nat) (x : WoodS) : (s.setWood h x).selRegs = s.selRegs := (rfl)
@[simp] theorem State.setWood_mem (s : State) (h : Nat) (x : WoodS) : (s.setWood h x).mem = s.mem := (rfl)
@[simp] theorem State.setWood_bus (s : State) (h : Nat) (x : WoodS) : (s.setWood h x).bus = s.bus := (rfl)
@[simp] theorem State.setWood_flumeUp (s : State) (h : Nat) (x : WoodS) : (s.setWood h x).flumeUp = s.flumeUp := (rfl)
@[simp] theorem State.setWood_lanes (s : State) (h : Nat) (x : WoodS) : (s.setWood h x).lanes = s.lanes := (rfl)
@[simp] theorem State.setWood_macros (s : State) (h : Nat) (x : WoodS) : (s.setWood h x).macros = s.macros := (rfl)
@[simp] theorem State.setWood_ports (s : State) (h : Nat) (x : WoodS) : (s.setWood h x).ports = s.ports := (rfl)
@[simp] theorem State.setWood_spans (s : State) (h : Nat) (x : WoodS) : (s.setWood h x).spans = s.spans := (rfl)
@[simp] theorem State.setWood_frames (s : State) (h : Nat) (x : WoodS) : (s.setWood h x).frames = s.frames := (rfl)
@[simp] theorem State.setWood_nextFrame (s : State) (h : Nat) (x : WoodS) : (s.setWood h x).nextFrame = s.nextFrame := (rfl)
@[simp] theorem State.setWood_slices (s : State) (h : Nat) (x : WoodS) : (s.setWood h x).slices = s.slices := (rfl)
@[simp] theorem State.setWood_mcast (s : State) (h : Nat) (x : WoodS) : (s.setWood h x).mcast = s.mcast := (rfl)
@[simp] theorem State.setWood_rings (s : State) (h : Nat) (x : WoodS) : (s.setWood h x).rings = s.rings := (rfl)
@[simp] theorem State.setWood_inflight (s : State) (h : Nat) (x : WoodS) : (s.setWood h x).inflight = s.inflight := (rfl)
@[simp] theorem State.setWood_deck (s : State) (h : Nat) (x : WoodS) : (s.setWood h x).deck = s.deck := (rfl)
@[simp] theorem State.setWood_path (s : State) (h : Nat) (x : WoodS) : (s.setWood h x).path = s.path := (rfl)
@[simp] theorem State.setWood_queues (s : State) (h : Nat) (x : WoodS) : (s.setWood h x).queues = s.queues := (rfl)
@[simp] theorem State.setWood_deficit (s : State) (h : Nat) (x : WoodS) : (s.setWood h x).deficit = s.deficit := (rfl)
@[simp] theorem State.setWood_qbucket (s : State) (h : Nat) (x : WoodS) : (s.setWood h x).qbucket = s.qbucket := (rfl)
@[simp] theorem State.setWood_sched (s : State) (h : Nat) (x : WoodS) : (s.setWood h x).sched = s.sched := (rfl)
@[simp] theorem State.setWood_pfcTx (s : State) (h : Nat) (x : WoodS) : (s.setWood h x).pfcTx = s.pfcTx := (rfl)
@[simp] theorem State.setWood_meters (s : State) (h : Nat) (x : WoodS) : (s.setWood h x).meters = s.meters := (rfl)
@[simp] theorem State.setWood_late (s : State) (h : Nat) (x : WoodS) : (s.setWood h x).late = s.late := (rfl)
@[simp] theorem State.setWood_unsettled (s : State) (h : Nat) (x : WoodS) : (s.setWood h x).unsettled = s.unsettled := (rfl)
@[simp] theorem State.setWood_eastq (s : State) (h : Nat) (x : WoodS) : (s.setWood h x).eastq = s.eastq := (rfl)
@[simp] theorem State.setWood_hitq (s : State) (h : Nat) (x : WoodS) : (s.setWood h x).hitq = s.hitq := (rfl)
@[simp] theorem State.setWood_matrix (s : State) (h : Nat) (x : WoodS) : (s.setWood h x).matrix = s.matrix := (rfl)
@[simp] theorem State.setWood_tally (s : State) (h : Nat) (x : WoodS) : (s.setWood h x).tally = s.tally := (rfl)
@[simp] theorem State.setWood_hbm (s : State) (h : Nat) (x : WoodS) : (s.setWood h x).hbm = s.hbm := (rfl)
@[simp] theorem State.setWood_host (s : State) (h : Nat) (x : WoodS) : (s.setWood h x).host = s.host := (rfl)
@[simp] theorem State.setWood_cruiser (s : State) (h : Nat) (x : WoodS) : (s.setWood h x).cruiser = s.cruiser := (rfl)
@[simp] theorem State.setWood_fire (s : State) (h : Nat) (x : WoodS) : (s.setWood h x).fire = s.fire := (rfl)
@[simp] theorem State.setWood_raft (s : State) (h : Nat) (x : WoodS) : (s.setWood h x).raft = s.raft := (rfl)
@[simp] theorem State.setWood_lookout (s : State) (h : Nat) (x : WoodS) : (s.setWood h x).lookout = s.lookout := (rfl)
@[simp] theorem State.setWood_forester (s : State) (h : Nat) (x : WoodS) : (s.setWood h x).forester = s.forester := (rfl)
@[simp] theorem State.setWood_mram (s : State) (h : Nat) (x : WoodS) : (s.setWood h x).mram = s.mram := (rfl)
@[simp] theorem State.setWood_fuses (s : State) (h : Nat) (x : WoodS) : (s.setWood h x).fuses = s.fuses := (rfl)
@[simp] theorem State.setWood_ppsHigh (s : State) (h : Nat) (x : WoodS) : (s.setWood h x).ppsHigh = s.ppsHigh := (rfl)
@[simp] theorem State.setWood_rst (s : State) (h : Nat) (x : WoodS) : (s.setWood h x).rst = s.rst := (rfl)
@[simp] theorem State.setWood_reg (s : State) (h : Nat) (x : WoodS) (pg off : Nat) : (s.setWood h x).reg pg off = s.reg pg off := (rfl)
@[simp] theorem State.setWood_live (s : State) (h : Nat) (x : WoodS) : (s.setWood h x).live = s.live := (rfl)
@[simp] theorem State.setWood_now (s : State) (h : Nat) (x : WoodS) : (s.setWood h x).now = s.now := (rfl)

/-! ### setHbm -/

@[simp] theorem State.setHbm_pending (s : State) (h : Nat) (x : HbmS) : (s.setHbm h x).pending = s.pending := (rfl)
@[simp] theorem State.setHbm_clk (s : State) (h : Nat) (x : HbmS) : (s.setHbm h x).clk = s.clk := (rfl)
@[simp] theorem State.setHbm_freeCtr (s : State) (h : Nat) (x : HbmS) : (s.setHbm h x).freeCtr = s.freeCtr := (rfl)
@[simp] theorem State.setHbm_out (s : State) (h : Nat) (x : HbmS) : (s.setHbm h x).out = s.out := (rfl)
@[simp] theorem State.setHbm_regs (s : State) (h : Nat) (x : HbmS) : (s.setHbm h x).regs = s.regs := (rfl)
@[simp] theorem State.setHbm_selRegs (s : State) (h : Nat) (x : HbmS) : (s.setHbm h x).selRegs = s.selRegs := (rfl)
@[simp] theorem State.setHbm_mem (s : State) (h : Nat) (x : HbmS) : (s.setHbm h x).mem = s.mem := (rfl)
@[simp] theorem State.setHbm_bus (s : State) (h : Nat) (x : HbmS) : (s.setHbm h x).bus = s.bus := (rfl)
@[simp] theorem State.setHbm_flumeUp (s : State) (h : Nat) (x : HbmS) : (s.setHbm h x).flumeUp = s.flumeUp := (rfl)
@[simp] theorem State.setHbm_lanes (s : State) (h : Nat) (x : HbmS) : (s.setHbm h x).lanes = s.lanes := (rfl)
@[simp] theorem State.setHbm_macros (s : State) (h : Nat) (x : HbmS) : (s.setHbm h x).macros = s.macros := (rfl)
@[simp] theorem State.setHbm_ports (s : State) (h : Nat) (x : HbmS) : (s.setHbm h x).ports = s.ports := (rfl)
@[simp] theorem State.setHbm_spans (s : State) (h : Nat) (x : HbmS) : (s.setHbm h x).spans = s.spans := (rfl)
@[simp] theorem State.setHbm_frames (s : State) (h : Nat) (x : HbmS) : (s.setHbm h x).frames = s.frames := (rfl)
@[simp] theorem State.setHbm_nextFrame (s : State) (h : Nat) (x : HbmS) : (s.setHbm h x).nextFrame = s.nextFrame := (rfl)
@[simp] theorem State.setHbm_slices (s : State) (h : Nat) (x : HbmS) : (s.setHbm h x).slices = s.slices := (rfl)
@[simp] theorem State.setHbm_mcast (s : State) (h : Nat) (x : HbmS) : (s.setHbm h x).mcast = s.mcast := (rfl)
@[simp] theorem State.setHbm_rings (s : State) (h : Nat) (x : HbmS) : (s.setHbm h x).rings = s.rings := (rfl)
@[simp] theorem State.setHbm_inflight (s : State) (h : Nat) (x : HbmS) : (s.setHbm h x).inflight = s.inflight := (rfl)
@[simp] theorem State.setHbm_deck (s : State) (h : Nat) (x : HbmS) : (s.setHbm h x).deck = s.deck := (rfl)
@[simp] theorem State.setHbm_path (s : State) (h : Nat) (x : HbmS) : (s.setHbm h x).path = s.path := (rfl)
@[simp] theorem State.setHbm_queues (s : State) (h : Nat) (x : HbmS) : (s.setHbm h x).queues = s.queues := (rfl)
@[simp] theorem State.setHbm_deficit (s : State) (h : Nat) (x : HbmS) : (s.setHbm h x).deficit = s.deficit := (rfl)
@[simp] theorem State.setHbm_qbucket (s : State) (h : Nat) (x : HbmS) : (s.setHbm h x).qbucket = s.qbucket := (rfl)
@[simp] theorem State.setHbm_sched (s : State) (h : Nat) (x : HbmS) : (s.setHbm h x).sched = s.sched := (rfl)
@[simp] theorem State.setHbm_pfcTx (s : State) (h : Nat) (x : HbmS) : (s.setHbm h x).pfcTx = s.pfcTx := (rfl)
@[simp] theorem State.setHbm_meters (s : State) (h : Nat) (x : HbmS) : (s.setHbm h x).meters = s.meters := (rfl)
@[simp] theorem State.setHbm_late (s : State) (h : Nat) (x : HbmS) : (s.setHbm h x).late = s.late := (rfl)
@[simp] theorem State.setHbm_unsettled (s : State) (h : Nat) (x : HbmS) : (s.setHbm h x).unsettled = s.unsettled := (rfl)
@[simp] theorem State.setHbm_wood (s : State) (h : Nat) (x : HbmS) : (s.setHbm h x).wood = s.wood := (rfl)
@[simp] theorem State.setHbm_eastq (s : State) (h : Nat) (x : HbmS) : (s.setHbm h x).eastq = s.eastq := (rfl)
@[simp] theorem State.setHbm_hitq (s : State) (h : Nat) (x : HbmS) : (s.setHbm h x).hitq = s.hitq := (rfl)
@[simp] theorem State.setHbm_matrix (s : State) (h : Nat) (x : HbmS) : (s.setHbm h x).matrix = s.matrix := (rfl)
@[simp] theorem State.setHbm_tally (s : State) (h : Nat) (x : HbmS) : (s.setHbm h x).tally = s.tally := (rfl)
@[simp] theorem State.setHbm_host (s : State) (h : Nat) (x : HbmS) : (s.setHbm h x).host = s.host := (rfl)
@[simp] theorem State.setHbm_cruiser (s : State) (h : Nat) (x : HbmS) : (s.setHbm h x).cruiser = s.cruiser := (rfl)
@[simp] theorem State.setHbm_fire (s : State) (h : Nat) (x : HbmS) : (s.setHbm h x).fire = s.fire := (rfl)
@[simp] theorem State.setHbm_raft (s : State) (h : Nat) (x : HbmS) : (s.setHbm h x).raft = s.raft := (rfl)
@[simp] theorem State.setHbm_lookout (s : State) (h : Nat) (x : HbmS) : (s.setHbm h x).lookout = s.lookout := (rfl)
@[simp] theorem State.setHbm_forester (s : State) (h : Nat) (x : HbmS) : (s.setHbm h x).forester = s.forester := (rfl)
@[simp] theorem State.setHbm_mram (s : State) (h : Nat) (x : HbmS) : (s.setHbm h x).mram = s.mram := (rfl)
@[simp] theorem State.setHbm_fuses (s : State) (h : Nat) (x : HbmS) : (s.setHbm h x).fuses = s.fuses := (rfl)
@[simp] theorem State.setHbm_ppsHigh (s : State) (h : Nat) (x : HbmS) : (s.setHbm h x).ppsHigh = s.ppsHigh := (rfl)
@[simp] theorem State.setHbm_rst (s : State) (h : Nat) (x : HbmS) : (s.setHbm h x).rst = s.rst := (rfl)
@[simp] theorem State.setHbm_reg (s : State) (h : Nat) (x : HbmS) (pg off : Nat) : (s.setHbm h x).reg pg off = s.reg pg off := (rfl)
@[simp] theorem State.setHbm_live (s : State) (h : Nat) (x : HbmS) : (s.setHbm h x).live = s.live := (rfl)
@[simp] theorem State.setHbm_now (s : State) (h : Nat) (x : HbmS) : (s.setHbm h x).now = s.now := (rfl)

/-! ### setHq -/

@[simp] theorem State.setHq_pending (s : State) (i : Nat) (x : HostQ) : (s.setHq i x).pending = s.pending := (rfl)
@[simp] theorem State.setHq_clk (s : State) (i : Nat) (x : HostQ) : (s.setHq i x).clk = s.clk := (rfl)
@[simp] theorem State.setHq_freeCtr (s : State) (i : Nat) (x : HostQ) : (s.setHq i x).freeCtr = s.freeCtr := (rfl)
@[simp] theorem State.setHq_out (s : State) (i : Nat) (x : HostQ) : (s.setHq i x).out = s.out := (rfl)
@[simp] theorem State.setHq_regs (s : State) (i : Nat) (x : HostQ) : (s.setHq i x).regs = s.regs := (rfl)
@[simp] theorem State.setHq_selRegs (s : State) (i : Nat) (x : HostQ) : (s.setHq i x).selRegs = s.selRegs := (rfl)
@[simp] theorem State.setHq_mem (s : State) (i : Nat) (x : HostQ) : (s.setHq i x).mem = s.mem := (rfl)
@[simp] theorem State.setHq_bus (s : State) (i : Nat) (x : HostQ) : (s.setHq i x).bus = s.bus := (rfl)
@[simp] theorem State.setHq_flumeUp (s : State) (i : Nat) (x : HostQ) : (s.setHq i x).flumeUp = s.flumeUp := (rfl)
@[simp] theorem State.setHq_lanes (s : State) (i : Nat) (x : HostQ) : (s.setHq i x).lanes = s.lanes := (rfl)
@[simp] theorem State.setHq_macros (s : State) (i : Nat) (x : HostQ) : (s.setHq i x).macros = s.macros := (rfl)
@[simp] theorem State.setHq_ports (s : State) (i : Nat) (x : HostQ) : (s.setHq i x).ports = s.ports := (rfl)
@[simp] theorem State.setHq_spans (s : State) (i : Nat) (x : HostQ) : (s.setHq i x).spans = s.spans := (rfl)
@[simp] theorem State.setHq_frames (s : State) (i : Nat) (x : HostQ) : (s.setHq i x).frames = s.frames := (rfl)
@[simp] theorem State.setHq_nextFrame (s : State) (i : Nat) (x : HostQ) : (s.setHq i x).nextFrame = s.nextFrame := (rfl)
@[simp] theorem State.setHq_slices (s : State) (i : Nat) (x : HostQ) : (s.setHq i x).slices = s.slices := (rfl)
@[simp] theorem State.setHq_mcast (s : State) (i : Nat) (x : HostQ) : (s.setHq i x).mcast = s.mcast := (rfl)
@[simp] theorem State.setHq_rings (s : State) (i : Nat) (x : HostQ) : (s.setHq i x).rings = s.rings := (rfl)
@[simp] theorem State.setHq_inflight (s : State) (i : Nat) (x : HostQ) : (s.setHq i x).inflight = s.inflight := (rfl)
@[simp] theorem State.setHq_deck (s : State) (i : Nat) (x : HostQ) : (s.setHq i x).deck = s.deck := (rfl)
@[simp] theorem State.setHq_path (s : State) (i : Nat) (x : HostQ) : (s.setHq i x).path = s.path := (rfl)
@[simp] theorem State.setHq_queues (s : State) (i : Nat) (x : HostQ) : (s.setHq i x).queues = s.queues := (rfl)
@[simp] theorem State.setHq_deficit (s : State) (i : Nat) (x : HostQ) : (s.setHq i x).deficit = s.deficit := (rfl)
@[simp] theorem State.setHq_qbucket (s : State) (i : Nat) (x : HostQ) : (s.setHq i x).qbucket = s.qbucket := (rfl)
@[simp] theorem State.setHq_sched (s : State) (i : Nat) (x : HostQ) : (s.setHq i x).sched = s.sched := (rfl)
@[simp] theorem State.setHq_pfcTx (s : State) (i : Nat) (x : HostQ) : (s.setHq i x).pfcTx = s.pfcTx := (rfl)
@[simp] theorem State.setHq_meters (s : State) (i : Nat) (x : HostQ) : (s.setHq i x).meters = s.meters := (rfl)
@[simp] theorem State.setHq_late (s : State) (i : Nat) (x : HostQ) : (s.setHq i x).late = s.late := (rfl)
@[simp] theorem State.setHq_unsettled (s : State) (i : Nat) (x : HostQ) : (s.setHq i x).unsettled = s.unsettled := (rfl)
@[simp] theorem State.setHq_wood (s : State) (i : Nat) (x : HostQ) : (s.setHq i x).wood = s.wood := (rfl)
@[simp] theorem State.setHq_eastq (s : State) (i : Nat) (x : HostQ) : (s.setHq i x).eastq = s.eastq := (rfl)
@[simp] theorem State.setHq_hitq (s : State) (i : Nat) (x : HostQ) : (s.setHq i x).hitq = s.hitq := (rfl)
@[simp] theorem State.setHq_matrix (s : State) (i : Nat) (x : HostQ) : (s.setHq i x).matrix = s.matrix := (rfl)
@[simp] theorem State.setHq_tally (s : State) (i : Nat) (x : HostQ) : (s.setHq i x).tally = s.tally := (rfl)
@[simp] theorem State.setHq_hbm (s : State) (i : Nat) (x : HostQ) : (s.setHq i x).hbm = s.hbm := (rfl)
@[simp] theorem State.setHq_cruiser (s : State) (i : Nat) (x : HostQ) : (s.setHq i x).cruiser = s.cruiser := (rfl)
@[simp] theorem State.setHq_fire (s : State) (i : Nat) (x : HostQ) : (s.setHq i x).fire = s.fire := (rfl)
@[simp] theorem State.setHq_raft (s : State) (i : Nat) (x : HostQ) : (s.setHq i x).raft = s.raft := (rfl)
@[simp] theorem State.setHq_lookout (s : State) (i : Nat) (x : HostQ) : (s.setHq i x).lookout = s.lookout := (rfl)
@[simp] theorem State.setHq_forester (s : State) (i : Nat) (x : HostQ) : (s.setHq i x).forester = s.forester := (rfl)
@[simp] theorem State.setHq_mram (s : State) (i : Nat) (x : HostQ) : (s.setHq i x).mram = s.mram := (rfl)
@[simp] theorem State.setHq_fuses (s : State) (i : Nat) (x : HostQ) : (s.setHq i x).fuses = s.fuses := (rfl)
@[simp] theorem State.setHq_ppsHigh (s : State) (i : Nat) (x : HostQ) : (s.setHq i x).ppsHigh = s.ppsHigh := (rfl)
@[simp] theorem State.setHq_rst (s : State) (i : Nat) (x : HostQ) : (s.setHq i x).rst = s.rst := (rfl)
@[simp] theorem State.setHq_reg (s : State) (i : Nat) (x : HostQ) (pg off : Nat) : (s.setHq i x).reg pg off = s.reg pg off := (rfl)
@[simp] theorem State.setHq_live (s : State) (i : Nat) (x : HostQ) : (s.setHq i x).live = s.live := (rfl)
@[simp] theorem State.setHq_now (s : State) (i : Nat) (x : HostQ) : (s.setHq i x).now = s.now := (rfl)

/-! ### setRing -/

@[simp] theorem State.setRing_pending (s : State) (r : Nat) (x : RingS) : (s.setRing r x).pending = s.pending := (rfl)
@[simp] theorem State.setRing_clk (s : State) (r : Nat) (x : RingS) : (s.setRing r x).clk = s.clk := (rfl)
@[simp] theorem State.setRing_freeCtr (s : State) (r : Nat) (x : RingS) : (s.setRing r x).freeCtr = s.freeCtr := (rfl)
@[simp] theorem State.setRing_out (s : State) (r : Nat) (x : RingS) : (s.setRing r x).out = s.out := (rfl)
@[simp] theorem State.setRing_regs (s : State) (r : Nat) (x : RingS) : (s.setRing r x).regs = s.regs := (rfl)
@[simp] theorem State.setRing_selRegs (s : State) (r : Nat) (x : RingS) : (s.setRing r x).selRegs = s.selRegs := (rfl)
@[simp] theorem State.setRing_mem (s : State) (r : Nat) (x : RingS) : (s.setRing r x).mem = s.mem := (rfl)
@[simp] theorem State.setRing_bus (s : State) (r : Nat) (x : RingS) : (s.setRing r x).bus = s.bus := (rfl)
@[simp] theorem State.setRing_flumeUp (s : State) (r : Nat) (x : RingS) : (s.setRing r x).flumeUp = s.flumeUp := (rfl)
@[simp] theorem State.setRing_lanes (s : State) (r : Nat) (x : RingS) : (s.setRing r x).lanes = s.lanes := (rfl)
@[simp] theorem State.setRing_macros (s : State) (r : Nat) (x : RingS) : (s.setRing r x).macros = s.macros := (rfl)
@[simp] theorem State.setRing_ports (s : State) (r : Nat) (x : RingS) : (s.setRing r x).ports = s.ports := (rfl)
@[simp] theorem State.setRing_spans (s : State) (r : Nat) (x : RingS) : (s.setRing r x).spans = s.spans := (rfl)
@[simp] theorem State.setRing_frames (s : State) (r : Nat) (x : RingS) : (s.setRing r x).frames = s.frames := (rfl)
@[simp] theorem State.setRing_nextFrame (s : State) (r : Nat) (x : RingS) : (s.setRing r x).nextFrame = s.nextFrame := (rfl)
@[simp] theorem State.setRing_slices (s : State) (r : Nat) (x : RingS) : (s.setRing r x).slices = s.slices := (rfl)
@[simp] theorem State.setRing_mcast (s : State) (r : Nat) (x : RingS) : (s.setRing r x).mcast = s.mcast := (rfl)
@[simp] theorem State.setRing_inflight (s : State) (r : Nat) (x : RingS) : (s.setRing r x).inflight = s.inflight := (rfl)
@[simp] theorem State.setRing_deck (s : State) (r : Nat) (x : RingS) : (s.setRing r x).deck = s.deck := (rfl)
@[simp] theorem State.setRing_path (s : State) (r : Nat) (x : RingS) : (s.setRing r x).path = s.path := (rfl)
@[simp] theorem State.setRing_queues (s : State) (r : Nat) (x : RingS) : (s.setRing r x).queues = s.queues := (rfl)
@[simp] theorem State.setRing_deficit (s : State) (r : Nat) (x : RingS) : (s.setRing r x).deficit = s.deficit := (rfl)
@[simp] theorem State.setRing_qbucket (s : State) (r : Nat) (x : RingS) : (s.setRing r x).qbucket = s.qbucket := (rfl)
@[simp] theorem State.setRing_sched (s : State) (r : Nat) (x : RingS) : (s.setRing r x).sched = s.sched := (rfl)
@[simp] theorem State.setRing_pfcTx (s : State) (r : Nat) (x : RingS) : (s.setRing r x).pfcTx = s.pfcTx := (rfl)
@[simp] theorem State.setRing_meters (s : State) (r : Nat) (x : RingS) : (s.setRing r x).meters = s.meters := (rfl)
@[simp] theorem State.setRing_late (s : State) (r : Nat) (x : RingS) : (s.setRing r x).late = s.late := (rfl)
@[simp] theorem State.setRing_unsettled (s : State) (r : Nat) (x : RingS) : (s.setRing r x).unsettled = s.unsettled := (rfl)
@[simp] theorem State.setRing_wood (s : State) (r : Nat) (x : RingS) : (s.setRing r x).wood = s.wood := (rfl)
@[simp] theorem State.setRing_eastq (s : State) (r : Nat) (x : RingS) : (s.setRing r x).eastq = s.eastq := (rfl)
@[simp] theorem State.setRing_hitq (s : State) (r : Nat) (x : RingS) : (s.setRing r x).hitq = s.hitq := (rfl)
@[simp] theorem State.setRing_matrix (s : State) (r : Nat) (x : RingS) : (s.setRing r x).matrix = s.matrix := (rfl)
@[simp] theorem State.setRing_tally (s : State) (r : Nat) (x : RingS) : (s.setRing r x).tally = s.tally := (rfl)
@[simp] theorem State.setRing_hbm (s : State) (r : Nat) (x : RingS) : (s.setRing r x).hbm = s.hbm := (rfl)
@[simp] theorem State.setRing_host (s : State) (r : Nat) (x : RingS) : (s.setRing r x).host = s.host := (rfl)
@[simp] theorem State.setRing_cruiser (s : State) (r : Nat) (x : RingS) : (s.setRing r x).cruiser = s.cruiser := (rfl)
@[simp] theorem State.setRing_fire (s : State) (r : Nat) (x : RingS) : (s.setRing r x).fire = s.fire := (rfl)
@[simp] theorem State.setRing_raft (s : State) (r : Nat) (x : RingS) : (s.setRing r x).raft = s.raft := (rfl)
@[simp] theorem State.setRing_lookout (s : State) (r : Nat) (x : RingS) : (s.setRing r x).lookout = s.lookout := (rfl)
@[simp] theorem State.setRing_forester (s : State) (r : Nat) (x : RingS) : (s.setRing r x).forester = s.forester := (rfl)
@[simp] theorem State.setRing_mram (s : State) (r : Nat) (x : RingS) : (s.setRing r x).mram = s.mram := (rfl)
@[simp] theorem State.setRing_fuses (s : State) (r : Nat) (x : RingS) : (s.setRing r x).fuses = s.fuses := (rfl)
@[simp] theorem State.setRing_ppsHigh (s : State) (r : Nat) (x : RingS) : (s.setRing r x).ppsHigh = s.ppsHigh := (rfl)
@[simp] theorem State.setRing_rst (s : State) (r : Nat) (x : RingS) : (s.setRing r x).rst = s.rst := (rfl)
@[simp] theorem State.setRing_reg (s : State) (r : Nat) (x : RingS) (pg off : Nat) : (s.setRing r x).reg pg off = s.reg pg off := (rfl)
@[simp] theorem State.setRing_live (s : State) (r : Nat) (x : RingS) : (s.setRing r x).live = s.live := (rfl)
@[simp] theorem State.setRing_now (s : State) (r : Nat) (x : RingS) : (s.setRing r x).now = s.now := (rfl)

/-! ### setFrame -/

@[simp] theorem State.setFrame_pending (s : State) (i : Nat) (f : Frame) : (s.setFrame i f).pending = s.pending := (rfl)
@[simp] theorem State.setFrame_clk (s : State) (i : Nat) (f : Frame) : (s.setFrame i f).clk = s.clk := (rfl)
@[simp] theorem State.setFrame_freeCtr (s : State) (i : Nat) (f : Frame) : (s.setFrame i f).freeCtr = s.freeCtr := (rfl)
@[simp] theorem State.setFrame_out (s : State) (i : Nat) (f : Frame) : (s.setFrame i f).out = s.out := (rfl)
@[simp] theorem State.setFrame_regs (s : State) (i : Nat) (f : Frame) : (s.setFrame i f).regs = s.regs := (rfl)
@[simp] theorem State.setFrame_selRegs (s : State) (i : Nat) (f : Frame) : (s.setFrame i f).selRegs = s.selRegs := (rfl)
@[simp] theorem State.setFrame_mem (s : State) (i : Nat) (f : Frame) : (s.setFrame i f).mem = s.mem := (rfl)
@[simp] theorem State.setFrame_bus (s : State) (i : Nat) (f : Frame) : (s.setFrame i f).bus = s.bus := (rfl)
@[simp] theorem State.setFrame_flumeUp (s : State) (i : Nat) (f : Frame) : (s.setFrame i f).flumeUp = s.flumeUp := (rfl)
@[simp] theorem State.setFrame_lanes (s : State) (i : Nat) (f : Frame) : (s.setFrame i f).lanes = s.lanes := (rfl)
@[simp] theorem State.setFrame_macros (s : State) (i : Nat) (f : Frame) : (s.setFrame i f).macros = s.macros := (rfl)
@[simp] theorem State.setFrame_ports (s : State) (i : Nat) (f : Frame) : (s.setFrame i f).ports = s.ports := (rfl)
@[simp] theorem State.setFrame_spans (s : State) (i : Nat) (f : Frame) : (s.setFrame i f).spans = s.spans := (rfl)
@[simp] theorem State.setFrame_nextFrame (s : State) (i : Nat) (f : Frame) : (s.setFrame i f).nextFrame = s.nextFrame := (rfl)
@[simp] theorem State.setFrame_slices (s : State) (i : Nat) (f : Frame) : (s.setFrame i f).slices = s.slices := (rfl)
@[simp] theorem State.setFrame_mcast (s : State) (i : Nat) (f : Frame) : (s.setFrame i f).mcast = s.mcast := (rfl)
@[simp] theorem State.setFrame_rings (s : State) (i : Nat) (f : Frame) : (s.setFrame i f).rings = s.rings := (rfl)
@[simp] theorem State.setFrame_inflight (s : State) (i : Nat) (f : Frame) : (s.setFrame i f).inflight = s.inflight := (rfl)
@[simp] theorem State.setFrame_deck (s : State) (i : Nat) (f : Frame) : (s.setFrame i f).deck = s.deck := (rfl)
@[simp] theorem State.setFrame_path (s : State) (i : Nat) (f : Frame) : (s.setFrame i f).path = s.path := (rfl)
@[simp] theorem State.setFrame_queues (s : State) (i : Nat) (f : Frame) : (s.setFrame i f).queues = s.queues := (rfl)
@[simp] theorem State.setFrame_deficit (s : State) (i : Nat) (f : Frame) : (s.setFrame i f).deficit = s.deficit := (rfl)
@[simp] theorem State.setFrame_qbucket (s : State) (i : Nat) (f : Frame) : (s.setFrame i f).qbucket = s.qbucket := (rfl)
@[simp] theorem State.setFrame_sched (s : State) (i : Nat) (f : Frame) : (s.setFrame i f).sched = s.sched := (rfl)
@[simp] theorem State.setFrame_pfcTx (s : State) (i : Nat) (f : Frame) : (s.setFrame i f).pfcTx = s.pfcTx := (rfl)
@[simp] theorem State.setFrame_meters (s : State) (i : Nat) (f : Frame) : (s.setFrame i f).meters = s.meters := (rfl)
@[simp] theorem State.setFrame_late (s : State) (i : Nat) (f : Frame) : (s.setFrame i f).late = s.late := (rfl)
@[simp] theorem State.setFrame_unsettled (s : State) (i : Nat) (f : Frame) : (s.setFrame i f).unsettled = s.unsettled := (rfl)
@[simp] theorem State.setFrame_wood (s : State) (i : Nat) (f : Frame) : (s.setFrame i f).wood = s.wood := (rfl)
@[simp] theorem State.setFrame_eastq (s : State) (i : Nat) (f : Frame) : (s.setFrame i f).eastq = s.eastq := (rfl)
@[simp] theorem State.setFrame_hitq (s : State) (i : Nat) (f : Frame) : (s.setFrame i f).hitq = s.hitq := (rfl)
@[simp] theorem State.setFrame_matrix (s : State) (i : Nat) (f : Frame) : (s.setFrame i f).matrix = s.matrix := (rfl)
@[simp] theorem State.setFrame_tally (s : State) (i : Nat) (f : Frame) : (s.setFrame i f).tally = s.tally := (rfl)
@[simp] theorem State.setFrame_hbm (s : State) (i : Nat) (f : Frame) : (s.setFrame i f).hbm = s.hbm := (rfl)
@[simp] theorem State.setFrame_host (s : State) (i : Nat) (f : Frame) : (s.setFrame i f).host = s.host := (rfl)
@[simp] theorem State.setFrame_cruiser (s : State) (i : Nat) (f : Frame) : (s.setFrame i f).cruiser = s.cruiser := (rfl)
@[simp] theorem State.setFrame_fire (s : State) (i : Nat) (f : Frame) : (s.setFrame i f).fire = s.fire := (rfl)
@[simp] theorem State.setFrame_raft (s : State) (i : Nat) (f : Frame) : (s.setFrame i f).raft = s.raft := (rfl)
@[simp] theorem State.setFrame_lookout (s : State) (i : Nat) (f : Frame) : (s.setFrame i f).lookout = s.lookout := (rfl)
@[simp] theorem State.setFrame_forester (s : State) (i : Nat) (f : Frame) : (s.setFrame i f).forester = s.forester := (rfl)
@[simp] theorem State.setFrame_mram (s : State) (i : Nat) (f : Frame) : (s.setFrame i f).mram = s.mram := (rfl)
@[simp] theorem State.setFrame_fuses (s : State) (i : Nat) (f : Frame) : (s.setFrame i f).fuses = s.fuses := (rfl)
@[simp] theorem State.setFrame_ppsHigh (s : State) (i : Nat) (f : Frame) : (s.setFrame i f).ppsHigh = s.ppsHigh := (rfl)
@[simp] theorem State.setFrame_rst (s : State) (i : Nat) (f : Frame) : (s.setFrame i f).rst = s.rst := (rfl)
@[simp] theorem State.setFrame_reg (s : State) (i : Nat) (f : Frame) (pg off : Nat) : (s.setFrame i f).reg pg off = s.reg pg off := (rfl)
@[simp] theorem State.setFrame_live (s : State) (i : Nat) (f : Frame) : (s.setFrame i f).live = s.live := (rfl)
@[simp] theorem State.setFrame_now (s : State) (i : Nat) (f : Frame) : (s.setFrame i f).now = s.now := (rfl)

/-! ### endFrame -/

@[simp] theorem State.endFrame_pending (s : State) (i : Nat) : (s.endFrame i).pending = s.pending := (rfl)
@[simp] theorem State.endFrame_clk (s : State) (i : Nat) : (s.endFrame i).clk = s.clk := (rfl)
@[simp] theorem State.endFrame_freeCtr (s : State) (i : Nat) : (s.endFrame i).freeCtr = s.freeCtr := (rfl)
@[simp] theorem State.endFrame_out (s : State) (i : Nat) : (s.endFrame i).out = s.out := (rfl)
@[simp] theorem State.endFrame_regs (s : State) (i : Nat) : (s.endFrame i).regs = s.regs := (rfl)
@[simp] theorem State.endFrame_selRegs (s : State) (i : Nat) : (s.endFrame i).selRegs = s.selRegs := (rfl)
@[simp] theorem State.endFrame_mem (s : State) (i : Nat) : (s.endFrame i).mem = s.mem := (rfl)
@[simp] theorem State.endFrame_bus (s : State) (i : Nat) : (s.endFrame i).bus = s.bus := (rfl)
@[simp] theorem State.endFrame_flumeUp (s : State) (i : Nat) : (s.endFrame i).flumeUp = s.flumeUp := (rfl)
@[simp] theorem State.endFrame_lanes (s : State) (i : Nat) : (s.endFrame i).lanes = s.lanes := (rfl)
@[simp] theorem State.endFrame_macros (s : State) (i : Nat) : (s.endFrame i).macros = s.macros := (rfl)
@[simp] theorem State.endFrame_ports (s : State) (i : Nat) : (s.endFrame i).ports = s.ports := (rfl)
@[simp] theorem State.endFrame_spans (s : State) (i : Nat) : (s.endFrame i).spans = s.spans := (rfl)
@[simp] theorem State.endFrame_nextFrame (s : State) (i : Nat) : (s.endFrame i).nextFrame = s.nextFrame := (rfl)
@[simp] theorem State.endFrame_slices (s : State) (i : Nat) : (s.endFrame i).slices = s.slices := (rfl)
@[simp] theorem State.endFrame_mcast (s : State) (i : Nat) : (s.endFrame i).mcast = s.mcast := (rfl)
@[simp] theorem State.endFrame_rings (s : State) (i : Nat) : (s.endFrame i).rings = s.rings := (rfl)
@[simp] theorem State.endFrame_inflight (s : State) (i : Nat) : (s.endFrame i).inflight = s.inflight := (rfl)
@[simp] theorem State.endFrame_deck (s : State) (i : Nat) : (s.endFrame i).deck = s.deck := (rfl)
@[simp] theorem State.endFrame_path (s : State) (i : Nat) : (s.endFrame i).path = s.path := (rfl)
@[simp] theorem State.endFrame_queues (s : State) (i : Nat) : (s.endFrame i).queues = s.queues := (rfl)
@[simp] theorem State.endFrame_deficit (s : State) (i : Nat) : (s.endFrame i).deficit = s.deficit := (rfl)
@[simp] theorem State.endFrame_qbucket (s : State) (i : Nat) : (s.endFrame i).qbucket = s.qbucket := (rfl)
@[simp] theorem State.endFrame_sched (s : State) (i : Nat) : (s.endFrame i).sched = s.sched := (rfl)
@[simp] theorem State.endFrame_pfcTx (s : State) (i : Nat) : (s.endFrame i).pfcTx = s.pfcTx := (rfl)
@[simp] theorem State.endFrame_meters (s : State) (i : Nat) : (s.endFrame i).meters = s.meters := (rfl)
@[simp] theorem State.endFrame_late (s : State) (i : Nat) : (s.endFrame i).late = s.late := (rfl)
@[simp] theorem State.endFrame_unsettled (s : State) (i : Nat) : (s.endFrame i).unsettled = s.unsettled := (rfl)
@[simp] theorem State.endFrame_wood (s : State) (i : Nat) : (s.endFrame i).wood = s.wood := (rfl)
@[simp] theorem State.endFrame_eastq (s : State) (i : Nat) : (s.endFrame i).eastq = s.eastq := (rfl)
@[simp] theorem State.endFrame_hitq (s : State) (i : Nat) : (s.endFrame i).hitq = s.hitq := (rfl)
@[simp] theorem State.endFrame_matrix (s : State) (i : Nat) : (s.endFrame i).matrix = s.matrix := (rfl)
@[simp] theorem State.endFrame_tally (s : State) (i : Nat) : (s.endFrame i).tally = s.tally := (rfl)
@[simp] theorem State.endFrame_hbm (s : State) (i : Nat) : (s.endFrame i).hbm = s.hbm := (rfl)
@[simp] theorem State.endFrame_host (s : State) (i : Nat) : (s.endFrame i).host = s.host := (rfl)
@[simp] theorem State.endFrame_cruiser (s : State) (i : Nat) : (s.endFrame i).cruiser = s.cruiser := (rfl)
@[simp] theorem State.endFrame_fire (s : State) (i : Nat) : (s.endFrame i).fire = s.fire := (rfl)
@[simp] theorem State.endFrame_raft (s : State) (i : Nat) : (s.endFrame i).raft = s.raft := (rfl)
@[simp] theorem State.endFrame_lookout (s : State) (i : Nat) : (s.endFrame i).lookout = s.lookout := (rfl)
@[simp] theorem State.endFrame_forester (s : State) (i : Nat) : (s.endFrame i).forester = s.forester := (rfl)
@[simp] theorem State.endFrame_mram (s : State) (i : Nat) : (s.endFrame i).mram = s.mram := (rfl)
@[simp] theorem State.endFrame_fuses (s : State) (i : Nat) : (s.endFrame i).fuses = s.fuses := (rfl)
@[simp] theorem State.endFrame_ppsHigh (s : State) (i : Nat) : (s.endFrame i).ppsHigh = s.ppsHigh := (rfl)
@[simp] theorem State.endFrame_rst (s : State) (i : Nat) : (s.endFrame i).rst = s.rst := (rfl)
@[simp] theorem State.endFrame_reg (s : State) (i : Nat) (pg off : Nat) : (s.endFrame i).reg pg off = s.reg pg off := (rfl)
@[simp] theorem State.endFrame_live (s : State) (i : Nat) : (s.endFrame i).live = s.live := (rfl)
@[simp] theorem State.endFrame_now (s : State) (i : Nat) : (s.endFrame i).now = s.now := (rfl)

/-! ### newCopy -/

@[simp] theorem State.newCopy_pending (s : State) (f : Frame) : (s.newCopy f).pending = s.pending := (rfl)
@[simp] theorem State.newCopy_clk (s : State) (f : Frame) : (s.newCopy f).clk = s.clk := (rfl)
@[simp] theorem State.newCopy_freeCtr (s : State) (f : Frame) : (s.newCopy f).freeCtr = s.freeCtr := (rfl)
@[simp] theorem State.newCopy_out (s : State) (f : Frame) : (s.newCopy f).out = s.out := (rfl)
@[simp] theorem State.newCopy_regs (s : State) (f : Frame) : (s.newCopy f).regs = s.regs := (rfl)
@[simp] theorem State.newCopy_selRegs (s : State) (f : Frame) : (s.newCopy f).selRegs = s.selRegs := (rfl)
@[simp] theorem State.newCopy_mem (s : State) (f : Frame) : (s.newCopy f).mem = s.mem := (rfl)
@[simp] theorem State.newCopy_bus (s : State) (f : Frame) : (s.newCopy f).bus = s.bus := (rfl)
@[simp] theorem State.newCopy_flumeUp (s : State) (f : Frame) : (s.newCopy f).flumeUp = s.flumeUp := (rfl)
@[simp] theorem State.newCopy_lanes (s : State) (f : Frame) : (s.newCopy f).lanes = s.lanes := (rfl)
@[simp] theorem State.newCopy_macros (s : State) (f : Frame) : (s.newCopy f).macros = s.macros := (rfl)
@[simp] theorem State.newCopy_ports (s : State) (f : Frame) : (s.newCopy f).ports = s.ports := (rfl)
@[simp] theorem State.newCopy_spans (s : State) (f : Frame) : (s.newCopy f).spans = s.spans := (rfl)
@[simp] theorem State.newCopy_slices (s : State) (f : Frame) : (s.newCopy f).slices = s.slices := (rfl)
@[simp] theorem State.newCopy_mcast (s : State) (f : Frame) : (s.newCopy f).mcast = s.mcast := (rfl)
@[simp] theorem State.newCopy_rings (s : State) (f : Frame) : (s.newCopy f).rings = s.rings := (rfl)
@[simp] theorem State.newCopy_inflight (s : State) (f : Frame) : (s.newCopy f).inflight = s.inflight := (rfl)
@[simp] theorem State.newCopy_deck (s : State) (f : Frame) : (s.newCopy f).deck = s.deck := (rfl)
@[simp] theorem State.newCopy_path (s : State) (f : Frame) : (s.newCopy f).path = s.path := (rfl)
@[simp] theorem State.newCopy_queues (s : State) (f : Frame) : (s.newCopy f).queues = s.queues := (rfl)
@[simp] theorem State.newCopy_deficit (s : State) (f : Frame) : (s.newCopy f).deficit = s.deficit := (rfl)
@[simp] theorem State.newCopy_qbucket (s : State) (f : Frame) : (s.newCopy f).qbucket = s.qbucket := (rfl)
@[simp] theorem State.newCopy_sched (s : State) (f : Frame) : (s.newCopy f).sched = s.sched := (rfl)
@[simp] theorem State.newCopy_pfcTx (s : State) (f : Frame) : (s.newCopy f).pfcTx = s.pfcTx := (rfl)
@[simp] theorem State.newCopy_meters (s : State) (f : Frame) : (s.newCopy f).meters = s.meters := (rfl)
@[simp] theorem State.newCopy_late (s : State) (f : Frame) : (s.newCopy f).late = s.late := (rfl)
@[simp] theorem State.newCopy_unsettled (s : State) (f : Frame) : (s.newCopy f).unsettled = s.unsettled := (rfl)
@[simp] theorem State.newCopy_wood (s : State) (f : Frame) : (s.newCopy f).wood = s.wood := (rfl)
@[simp] theorem State.newCopy_eastq (s : State) (f : Frame) : (s.newCopy f).eastq = s.eastq := (rfl)
@[simp] theorem State.newCopy_hitq (s : State) (f : Frame) : (s.newCopy f).hitq = s.hitq := (rfl)
@[simp] theorem State.newCopy_matrix (s : State) (f : Frame) : (s.newCopy f).matrix = s.matrix := (rfl)
@[simp] theorem State.newCopy_tally (s : State) (f : Frame) : (s.newCopy f).tally = s.tally := (rfl)
@[simp] theorem State.newCopy_hbm (s : State) (f : Frame) : (s.newCopy f).hbm = s.hbm := (rfl)
@[simp] theorem State.newCopy_host (s : State) (f : Frame) : (s.newCopy f).host = s.host := (rfl)
@[simp] theorem State.newCopy_cruiser (s : State) (f : Frame) : (s.newCopy f).cruiser = s.cruiser := (rfl)
@[simp] theorem State.newCopy_fire (s : State) (f : Frame) : (s.newCopy f).fire = s.fire := (rfl)
@[simp] theorem State.newCopy_raft (s : State) (f : Frame) : (s.newCopy f).raft = s.raft := (rfl)
@[simp] theorem State.newCopy_lookout (s : State) (f : Frame) : (s.newCopy f).lookout = s.lookout := (rfl)
@[simp] theorem State.newCopy_forester (s : State) (f : Frame) : (s.newCopy f).forester = s.forester := (rfl)
@[simp] theorem State.newCopy_mram (s : State) (f : Frame) : (s.newCopy f).mram = s.mram := (rfl)
@[simp] theorem State.newCopy_fuses (s : State) (f : Frame) : (s.newCopy f).fuses = s.fuses := (rfl)
@[simp] theorem State.newCopy_ppsHigh (s : State) (f : Frame) : (s.newCopy f).ppsHigh = s.ppsHigh := (rfl)
@[simp] theorem State.newCopy_rst (s : State) (f : Frame) : (s.newCopy f).rst = s.rst := (rfl)
@[simp] theorem State.newCopy_reg (s : State) (f : Frame) (pg off : Nat) : (s.newCopy f).reg pg off = s.reg pg off := (rfl)
@[simp] theorem State.newCopy_live (s : State) (f : Frame) : (s.newCopy f).live = s.live := (rfl)
@[simp] theorem State.newCopy_now (s : State) (f : Frame) : (s.newCopy f).now = s.now := (rfl)

/-! ### emit -/

@[simp] theorem State.emit_pending (s : State) (o : Output) : (s.emit o).pending = s.pending := (rfl)
@[simp] theorem State.emit_clk (s : State) (o : Output) : (s.emit o).clk = s.clk := (rfl)
@[simp] theorem State.emit_freeCtr (s : State) (o : Output) : (s.emit o).freeCtr = s.freeCtr := (rfl)
@[simp] theorem State.emit_regs (s : State) (o : Output) : (s.emit o).regs = s.regs := (rfl)
@[simp] theorem State.emit_selRegs (s : State) (o : Output) : (s.emit o).selRegs = s.selRegs := (rfl)
@[simp] theorem State.emit_mem (s : State) (o : Output) : (s.emit o).mem = s.mem := (rfl)
@[simp] theorem State.emit_bus (s : State) (o : Output) : (s.emit o).bus = s.bus := (rfl)
@[simp] theorem State.emit_flumeUp (s : State) (o : Output) : (s.emit o).flumeUp = s.flumeUp := (rfl)
@[simp] theorem State.emit_lanes (s : State) (o : Output) : (s.emit o).lanes = s.lanes := (rfl)
@[simp] theorem State.emit_macros (s : State) (o : Output) : (s.emit o).macros = s.macros := (rfl)
@[simp] theorem State.emit_ports (s : State) (o : Output) : (s.emit o).ports = s.ports := (rfl)
@[simp] theorem State.emit_spans (s : State) (o : Output) : (s.emit o).spans = s.spans := (rfl)
@[simp] theorem State.emit_frames (s : State) (o : Output) : (s.emit o).frames = s.frames := (rfl)
@[simp] theorem State.emit_nextFrame (s : State) (o : Output) : (s.emit o).nextFrame = s.nextFrame := (rfl)
@[simp] theorem State.emit_slices (s : State) (o : Output) : (s.emit o).slices = s.slices := (rfl)
@[simp] theorem State.emit_mcast (s : State) (o : Output) : (s.emit o).mcast = s.mcast := (rfl)
@[simp] theorem State.emit_rings (s : State) (o : Output) : (s.emit o).rings = s.rings := (rfl)
@[simp] theorem State.emit_inflight (s : State) (o : Output) : (s.emit o).inflight = s.inflight := (rfl)
@[simp] theorem State.emit_deck (s : State) (o : Output) : (s.emit o).deck = s.deck := (rfl)
@[simp] theorem State.emit_path (s : State) (o : Output) : (s.emit o).path = s.path := (rfl)
@[simp] theorem State.emit_queues (s : State) (o : Output) : (s.emit o).queues = s.queues := (rfl)
@[simp] theorem State.emit_deficit (s : State) (o : Output) : (s.emit o).deficit = s.deficit := (rfl)
@[simp] theorem State.emit_qbucket (s : State) (o : Output) : (s.emit o).qbucket = s.qbucket := (rfl)
@[simp] theorem State.emit_sched (s : State) (o : Output) : (s.emit o).sched = s.sched := (rfl)
@[simp] theorem State.emit_pfcTx (s : State) (o : Output) : (s.emit o).pfcTx = s.pfcTx := (rfl)
@[simp] theorem State.emit_meters (s : State) (o : Output) : (s.emit o).meters = s.meters := (rfl)
@[simp] theorem State.emit_late (s : State) (o : Output) : (s.emit o).late = s.late := (rfl)
@[simp] theorem State.emit_unsettled (s : State) (o : Output) : (s.emit o).unsettled = s.unsettled := (rfl)
@[simp] theorem State.emit_wood (s : State) (o : Output) : (s.emit o).wood = s.wood := (rfl)
@[simp] theorem State.emit_eastq (s : State) (o : Output) : (s.emit o).eastq = s.eastq := (rfl)
@[simp] theorem State.emit_hitq (s : State) (o : Output) : (s.emit o).hitq = s.hitq := (rfl)
@[simp] theorem State.emit_matrix (s : State) (o : Output) : (s.emit o).matrix = s.matrix := (rfl)
@[simp] theorem State.emit_tally (s : State) (o : Output) : (s.emit o).tally = s.tally := (rfl)
@[simp] theorem State.emit_hbm (s : State) (o : Output) : (s.emit o).hbm = s.hbm := (rfl)
@[simp] theorem State.emit_host (s : State) (o : Output) : (s.emit o).host = s.host := (rfl)
@[simp] theorem State.emit_cruiser (s : State) (o : Output) : (s.emit o).cruiser = s.cruiser := (rfl)
@[simp] theorem State.emit_fire (s : State) (o : Output) : (s.emit o).fire = s.fire := (rfl)
@[simp] theorem State.emit_raft (s : State) (o : Output) : (s.emit o).raft = s.raft := (rfl)
@[simp] theorem State.emit_lookout (s : State) (o : Output) : (s.emit o).lookout = s.lookout := (rfl)
@[simp] theorem State.emit_forester (s : State) (o : Output) : (s.emit o).forester = s.forester := (rfl)
@[simp] theorem State.emit_mram (s : State) (o : Output) : (s.emit o).mram = s.mram := (rfl)
@[simp] theorem State.emit_fuses (s : State) (o : Output) : (s.emit o).fuses = s.fuses := (rfl)
@[simp] theorem State.emit_ppsHigh (s : State) (o : Output) : (s.emit o).ppsHigh = s.ppsHigh := (rfl)
@[simp] theorem State.emit_rst (s : State) (o : Output) : (s.emit o).rst = s.rst := (rfl)
@[simp] theorem State.emit_reg (s : State) (o : Output) (pg off : Nat) : (s.emit o).reg pg off = s.reg pg off := (rfl)
@[simp] theorem State.emit_live (s : State) (o : Output) : (s.emit o).live = s.live := (rfl)
@[simp] theorem State.emit_now (s : State) (o : Output) : (s.emit o).now = s.now := (rfl)

/-! ### drawn -/

@[simp] theorem State.drawn_pending (s : State) : (s.drawn).pending = s.pending := (rfl)
@[simp] theorem State.drawn_clk (s : State) : (s.drawn).clk = s.clk := (rfl)
@[simp] theorem State.drawn_out (s : State) : (s.drawn).out = s.out := (rfl)
@[simp] theorem State.drawn_regs (s : State) : (s.drawn).regs = s.regs := (rfl)
@[simp] theorem State.drawn_selRegs (s : State) : (s.drawn).selRegs = s.selRegs := (rfl)
@[simp] theorem State.drawn_mem (s : State) : (s.drawn).mem = s.mem := (rfl)
@[simp] theorem State.drawn_bus (s : State) : (s.drawn).bus = s.bus := (rfl)
@[simp] theorem State.drawn_flumeUp (s : State) : (s.drawn).flumeUp = s.flumeUp := (rfl)
@[simp] theorem State.drawn_lanes (s : State) : (s.drawn).lanes = s.lanes := (rfl)
@[simp] theorem State.drawn_macros (s : State) : (s.drawn).macros = s.macros := (rfl)
@[simp] theorem State.drawn_ports (s : State) : (s.drawn).ports = s.ports := (rfl)
@[simp] theorem State.drawn_spans (s : State) : (s.drawn).spans = s.spans := (rfl)
@[simp] theorem State.drawn_frames (s : State) : (s.drawn).frames = s.frames := (rfl)
@[simp] theorem State.drawn_nextFrame (s : State) : (s.drawn).nextFrame = s.nextFrame := (rfl)
@[simp] theorem State.drawn_slices (s : State) : (s.drawn).slices = s.slices := (rfl)
@[simp] theorem State.drawn_mcast (s : State) : (s.drawn).mcast = s.mcast := (rfl)
@[simp] theorem State.drawn_rings (s : State) : (s.drawn).rings = s.rings := (rfl)
@[simp] theorem State.drawn_inflight (s : State) : (s.drawn).inflight = s.inflight := (rfl)
@[simp] theorem State.drawn_deck (s : State) : (s.drawn).deck = s.deck := (rfl)
@[simp] theorem State.drawn_path (s : State) : (s.drawn).path = s.path := (rfl)
@[simp] theorem State.drawn_queues (s : State) : (s.drawn).queues = s.queues := (rfl)
@[simp] theorem State.drawn_deficit (s : State) : (s.drawn).deficit = s.deficit := (rfl)
@[simp] theorem State.drawn_qbucket (s : State) : (s.drawn).qbucket = s.qbucket := (rfl)
@[simp] theorem State.drawn_sched (s : State) : (s.drawn).sched = s.sched := (rfl)
@[simp] theorem State.drawn_pfcTx (s : State) : (s.drawn).pfcTx = s.pfcTx := (rfl)
@[simp] theorem State.drawn_meters (s : State) : (s.drawn).meters = s.meters := (rfl)
@[simp] theorem State.drawn_late (s : State) : (s.drawn).late = s.late := (rfl)
@[simp] theorem State.drawn_unsettled (s : State) : (s.drawn).unsettled = s.unsettled := (rfl)
@[simp] theorem State.drawn_wood (s : State) : (s.drawn).wood = s.wood := (rfl)
@[simp] theorem State.drawn_eastq (s : State) : (s.drawn).eastq = s.eastq := (rfl)
@[simp] theorem State.drawn_hitq (s : State) : (s.drawn).hitq = s.hitq := (rfl)
@[simp] theorem State.drawn_matrix (s : State) : (s.drawn).matrix = s.matrix := (rfl)
@[simp] theorem State.drawn_tally (s : State) : (s.drawn).tally = s.tally := (rfl)
@[simp] theorem State.drawn_hbm (s : State) : (s.drawn).hbm = s.hbm := (rfl)
@[simp] theorem State.drawn_host (s : State) : (s.drawn).host = s.host := (rfl)
@[simp] theorem State.drawn_cruiser (s : State) : (s.drawn).cruiser = s.cruiser := (rfl)
@[simp] theorem State.drawn_fire (s : State) : (s.drawn).fire = s.fire := (rfl)
@[simp] theorem State.drawn_raft (s : State) : (s.drawn).raft = s.raft := (rfl)
@[simp] theorem State.drawn_lookout (s : State) : (s.drawn).lookout = s.lookout := (rfl)
@[simp] theorem State.drawn_forester (s : State) : (s.drawn).forester = s.forester := (rfl)
@[simp] theorem State.drawn_mram (s : State) : (s.drawn).mram = s.mram := (rfl)
@[simp] theorem State.drawn_fuses (s : State) : (s.drawn).fuses = s.fuses := (rfl)
@[simp] theorem State.drawn_ppsHigh (s : State) : (s.drawn).ppsHigh = s.ppsHigh := (rfl)
@[simp] theorem State.drawn_rst (s : State) : (s.drawn).rst = s.rst := (rfl)
@[simp] theorem State.drawn_reg (s : State) (pg off : Nat) : (s.drawn).reg pg off = s.reg pg off := (rfl)
@[simp] theorem State.drawn_live (s : State) : (s.drawn).live = s.live := (rfl)
@[simp] theorem State.drawn_now (s : State) : (s.drawn).now = s.now := (rfl)

/-! ### setCruiser -/

@[simp] theorem State.setCruiser_pending (s : State) (c : CruiserS) : (s.setCruiser c).pending = s.pending := (rfl)
@[simp] theorem State.setCruiser_clk (s : State) (c : CruiserS) : (s.setCruiser c).clk = s.clk := (rfl)
@[simp] theorem State.setCruiser_freeCtr (s : State) (c : CruiserS) : (s.setCruiser c).freeCtr = s.freeCtr := (rfl)
@[simp] theorem State.setCruiser_out (s : State) (c : CruiserS) : (s.setCruiser c).out = s.out := (rfl)
@[simp] theorem State.setCruiser_regs (s : State) (c : CruiserS) : (s.setCruiser c).regs = s.regs := (rfl)
@[simp] theorem State.setCruiser_selRegs (s : State) (c : CruiserS) : (s.setCruiser c).selRegs = s.selRegs := (rfl)
@[simp] theorem State.setCruiser_mem (s : State) (c : CruiserS) : (s.setCruiser c).mem = s.mem := (rfl)
@[simp] theorem State.setCruiser_bus (s : State) (c : CruiserS) : (s.setCruiser c).bus = s.bus := (rfl)
@[simp] theorem State.setCruiser_flumeUp (s : State) (c : CruiserS) : (s.setCruiser c).flumeUp = s.flumeUp := (rfl)
@[simp] theorem State.setCruiser_lanes (s : State) (c : CruiserS) : (s.setCruiser c).lanes = s.lanes := (rfl)
@[simp] theorem State.setCruiser_macros (s : State) (c : CruiserS) : (s.setCruiser c).macros = s.macros := (rfl)
@[simp] theorem State.setCruiser_ports (s : State) (c : CruiserS) : (s.setCruiser c).ports = s.ports := (rfl)
@[simp] theorem State.setCruiser_spans (s : State) (c : CruiserS) : (s.setCruiser c).spans = s.spans := (rfl)
@[simp] theorem State.setCruiser_frames (s : State) (c : CruiserS) : (s.setCruiser c).frames = s.frames := (rfl)
@[simp] theorem State.setCruiser_nextFrame (s : State) (c : CruiserS) : (s.setCruiser c).nextFrame = s.nextFrame := (rfl)
@[simp] theorem State.setCruiser_slices (s : State) (c : CruiserS) : (s.setCruiser c).slices = s.slices := (rfl)
@[simp] theorem State.setCruiser_mcast (s : State) (c : CruiserS) : (s.setCruiser c).mcast = s.mcast := (rfl)
@[simp] theorem State.setCruiser_rings (s : State) (c : CruiserS) : (s.setCruiser c).rings = s.rings := (rfl)
@[simp] theorem State.setCruiser_inflight (s : State) (c : CruiserS) : (s.setCruiser c).inflight = s.inflight := (rfl)
@[simp] theorem State.setCruiser_deck (s : State) (c : CruiserS) : (s.setCruiser c).deck = s.deck := (rfl)
@[simp] theorem State.setCruiser_path (s : State) (c : CruiserS) : (s.setCruiser c).path = s.path := (rfl)
@[simp] theorem State.setCruiser_queues (s : State) (c : CruiserS) : (s.setCruiser c).queues = s.queues := (rfl)
@[simp] theorem State.setCruiser_deficit (s : State) (c : CruiserS) : (s.setCruiser c).deficit = s.deficit := (rfl)
@[simp] theorem State.setCruiser_qbucket (s : State) (c : CruiserS) : (s.setCruiser c).qbucket = s.qbucket := (rfl)
@[simp] theorem State.setCruiser_sched (s : State) (c : CruiserS) : (s.setCruiser c).sched = s.sched := (rfl)
@[simp] theorem State.setCruiser_pfcTx (s : State) (c : CruiserS) : (s.setCruiser c).pfcTx = s.pfcTx := (rfl)
@[simp] theorem State.setCruiser_meters (s : State) (c : CruiserS) : (s.setCruiser c).meters = s.meters := (rfl)
@[simp] theorem State.setCruiser_late (s : State) (c : CruiserS) : (s.setCruiser c).late = s.late := (rfl)
@[simp] theorem State.setCruiser_unsettled (s : State) (c : CruiserS) : (s.setCruiser c).unsettled = s.unsettled := (rfl)
@[simp] theorem State.setCruiser_wood (s : State) (c : CruiserS) : (s.setCruiser c).wood = s.wood := (rfl)
@[simp] theorem State.setCruiser_eastq (s : State) (c : CruiserS) : (s.setCruiser c).eastq = s.eastq := (rfl)
@[simp] theorem State.setCruiser_hitq (s : State) (c : CruiserS) : (s.setCruiser c).hitq = s.hitq := (rfl)
@[simp] theorem State.setCruiser_matrix (s : State) (c : CruiserS) : (s.setCruiser c).matrix = s.matrix := (rfl)
@[simp] theorem State.setCruiser_tally (s : State) (c : CruiserS) : (s.setCruiser c).tally = s.tally := (rfl)
@[simp] theorem State.setCruiser_hbm (s : State) (c : CruiserS) : (s.setCruiser c).hbm = s.hbm := (rfl)
@[simp] theorem State.setCruiser_host (s : State) (c : CruiserS) : (s.setCruiser c).host = s.host := (rfl)
@[simp] theorem State.setCruiser_fire (s : State) (c : CruiserS) : (s.setCruiser c).fire = s.fire := (rfl)
@[simp] theorem State.setCruiser_raft (s : State) (c : CruiserS) : (s.setCruiser c).raft = s.raft := (rfl)
@[simp] theorem State.setCruiser_lookout (s : State) (c : CruiserS) : (s.setCruiser c).lookout = s.lookout := (rfl)
@[simp] theorem State.setCruiser_forester (s : State) (c : CruiserS) : (s.setCruiser c).forester = s.forester := (rfl)
@[simp] theorem State.setCruiser_mram (s : State) (c : CruiserS) : (s.setCruiser c).mram = s.mram := (rfl)
@[simp] theorem State.setCruiser_fuses (s : State) (c : CruiserS) : (s.setCruiser c).fuses = s.fuses := (rfl)
@[simp] theorem State.setCruiser_ppsHigh (s : State) (c : CruiserS) : (s.setCruiser c).ppsHigh = s.ppsHigh := (rfl)
@[simp] theorem State.setCruiser_rst (s : State) (c : CruiserS) : (s.setCruiser c).rst = s.rst := (rfl)
@[simp] theorem State.setCruiser_reg (s : State) (c : CruiserS) (pg off : Nat) : (s.setCruiser c).reg pg off = s.reg pg off := (rfl)
@[simp] theorem State.setCruiser_live (s : State) (c : CruiserS) : (s.setCruiser c).live = s.live := (rfl)
@[simp] theorem State.setCruiser_now (s : State) (c : CruiserS) : (s.setCruiser c).now = s.now := (rfl)

/-! ### setFire -/

@[simp] theorem State.setFire_pending (s : State) (f : FireS) : (s.setFire f).pending = s.pending := (rfl)
@[simp] theorem State.setFire_clk (s : State) (f : FireS) : (s.setFire f).clk = s.clk := (rfl)
@[simp] theorem State.setFire_freeCtr (s : State) (f : FireS) : (s.setFire f).freeCtr = s.freeCtr := (rfl)
@[simp] theorem State.setFire_out (s : State) (f : FireS) : (s.setFire f).out = s.out := (rfl)
@[simp] theorem State.setFire_regs (s : State) (f : FireS) : (s.setFire f).regs = s.regs := (rfl)
@[simp] theorem State.setFire_selRegs (s : State) (f : FireS) : (s.setFire f).selRegs = s.selRegs := (rfl)
@[simp] theorem State.setFire_mem (s : State) (f : FireS) : (s.setFire f).mem = s.mem := (rfl)
@[simp] theorem State.setFire_bus (s : State) (f : FireS) : (s.setFire f).bus = s.bus := (rfl)
@[simp] theorem State.setFire_flumeUp (s : State) (f : FireS) : (s.setFire f).flumeUp = s.flumeUp := (rfl)
@[simp] theorem State.setFire_lanes (s : State) (f : FireS) : (s.setFire f).lanes = s.lanes := (rfl)
@[simp] theorem State.setFire_macros (s : State) (f : FireS) : (s.setFire f).macros = s.macros := (rfl)
@[simp] theorem State.setFire_ports (s : State) (f : FireS) : (s.setFire f).ports = s.ports := (rfl)
@[simp] theorem State.setFire_spans (s : State) (f : FireS) : (s.setFire f).spans = s.spans := (rfl)
@[simp] theorem State.setFire_frames (s : State) (f : FireS) : (s.setFire f).frames = s.frames := (rfl)
@[simp] theorem State.setFire_nextFrame (s : State) (f : FireS) : (s.setFire f).nextFrame = s.nextFrame := (rfl)
@[simp] theorem State.setFire_slices (s : State) (f : FireS) : (s.setFire f).slices = s.slices := (rfl)
@[simp] theorem State.setFire_mcast (s : State) (f : FireS) : (s.setFire f).mcast = s.mcast := (rfl)
@[simp] theorem State.setFire_rings (s : State) (f : FireS) : (s.setFire f).rings = s.rings := (rfl)
@[simp] theorem State.setFire_inflight (s : State) (f : FireS) : (s.setFire f).inflight = s.inflight := (rfl)
@[simp] theorem State.setFire_deck (s : State) (f : FireS) : (s.setFire f).deck = s.deck := (rfl)
@[simp] theorem State.setFire_path (s : State) (f : FireS) : (s.setFire f).path = s.path := (rfl)
@[simp] theorem State.setFire_queues (s : State) (f : FireS) : (s.setFire f).queues = s.queues := (rfl)
@[simp] theorem State.setFire_deficit (s : State) (f : FireS) : (s.setFire f).deficit = s.deficit := (rfl)
@[simp] theorem State.setFire_qbucket (s : State) (f : FireS) : (s.setFire f).qbucket = s.qbucket := (rfl)
@[simp] theorem State.setFire_sched (s : State) (f : FireS) : (s.setFire f).sched = s.sched := (rfl)
@[simp] theorem State.setFire_pfcTx (s : State) (f : FireS) : (s.setFire f).pfcTx = s.pfcTx := (rfl)
@[simp] theorem State.setFire_meters (s : State) (f : FireS) : (s.setFire f).meters = s.meters := (rfl)
@[simp] theorem State.setFire_late (s : State) (f : FireS) : (s.setFire f).late = s.late := (rfl)
@[simp] theorem State.setFire_unsettled (s : State) (f : FireS) : (s.setFire f).unsettled = s.unsettled := (rfl)
@[simp] theorem State.setFire_wood (s : State) (f : FireS) : (s.setFire f).wood = s.wood := (rfl)
@[simp] theorem State.setFire_eastq (s : State) (f : FireS) : (s.setFire f).eastq = s.eastq := (rfl)
@[simp] theorem State.setFire_hitq (s : State) (f : FireS) : (s.setFire f).hitq = s.hitq := (rfl)
@[simp] theorem State.setFire_matrix (s : State) (f : FireS) : (s.setFire f).matrix = s.matrix := (rfl)
@[simp] theorem State.setFire_tally (s : State) (f : FireS) : (s.setFire f).tally = s.tally := (rfl)
@[simp] theorem State.setFire_hbm (s : State) (f : FireS) : (s.setFire f).hbm = s.hbm := (rfl)
@[simp] theorem State.setFire_host (s : State) (f : FireS) : (s.setFire f).host = s.host := (rfl)
@[simp] theorem State.setFire_cruiser (s : State) (f : FireS) : (s.setFire f).cruiser = s.cruiser := (rfl)
@[simp] theorem State.setFire_raft (s : State) (f : FireS) : (s.setFire f).raft = s.raft := (rfl)
@[simp] theorem State.setFire_lookout (s : State) (f : FireS) : (s.setFire f).lookout = s.lookout := (rfl)
@[simp] theorem State.setFire_forester (s : State) (f : FireS) : (s.setFire f).forester = s.forester := (rfl)
@[simp] theorem State.setFire_mram (s : State) (f : FireS) : (s.setFire f).mram = s.mram := (rfl)
@[simp] theorem State.setFire_fuses (s : State) (f : FireS) : (s.setFire f).fuses = s.fuses := (rfl)
@[simp] theorem State.setFire_ppsHigh (s : State) (f : FireS) : (s.setFire f).ppsHigh = s.ppsHigh := (rfl)
@[simp] theorem State.setFire_rst (s : State) (f : FireS) : (s.setFire f).rst = s.rst := (rfl)
@[simp] theorem State.setFire_reg (s : State) (f : FireS) (pg off : Nat) : (s.setFire f).reg pg off = s.reg pg off := (rfl)
@[simp] theorem State.setFire_live (s : State) (f : FireS) : (s.setFire f).live = s.live := (rfl)
@[simp] theorem State.setFire_now (s : State) (f : FireS) : (s.setFire f).now = s.now := (rfl)

/-! ### setLook -/

@[simp] theorem State.setLook_pending (s : State) (lo : LookoutS) : (s.setLook lo).pending = s.pending := (rfl)
@[simp] theorem State.setLook_clk (s : State) (lo : LookoutS) : (s.setLook lo).clk = s.clk := (rfl)
@[simp] theorem State.setLook_freeCtr (s : State) (lo : LookoutS) : (s.setLook lo).freeCtr = s.freeCtr := (rfl)
@[simp] theorem State.setLook_out (s : State) (lo : LookoutS) : (s.setLook lo).out = s.out := (rfl)
@[simp] theorem State.setLook_regs (s : State) (lo : LookoutS) : (s.setLook lo).regs = s.regs := (rfl)
@[simp] theorem State.setLook_selRegs (s : State) (lo : LookoutS) : (s.setLook lo).selRegs = s.selRegs := (rfl)
@[simp] theorem State.setLook_mem (s : State) (lo : LookoutS) : (s.setLook lo).mem = s.mem := (rfl)
@[simp] theorem State.setLook_bus (s : State) (lo : LookoutS) : (s.setLook lo).bus = s.bus := (rfl)
@[simp] theorem State.setLook_flumeUp (s : State) (lo : LookoutS) : (s.setLook lo).flumeUp = s.flumeUp := (rfl)
@[simp] theorem State.setLook_lanes (s : State) (lo : LookoutS) : (s.setLook lo).lanes = s.lanes := (rfl)
@[simp] theorem State.setLook_macros (s : State) (lo : LookoutS) : (s.setLook lo).macros = s.macros := (rfl)
@[simp] theorem State.setLook_ports (s : State) (lo : LookoutS) : (s.setLook lo).ports = s.ports := (rfl)
@[simp] theorem State.setLook_spans (s : State) (lo : LookoutS) : (s.setLook lo).spans = s.spans := (rfl)
@[simp] theorem State.setLook_frames (s : State) (lo : LookoutS) : (s.setLook lo).frames = s.frames := (rfl)
@[simp] theorem State.setLook_nextFrame (s : State) (lo : LookoutS) : (s.setLook lo).nextFrame = s.nextFrame := (rfl)
@[simp] theorem State.setLook_slices (s : State) (lo : LookoutS) : (s.setLook lo).slices = s.slices := (rfl)
@[simp] theorem State.setLook_mcast (s : State) (lo : LookoutS) : (s.setLook lo).mcast = s.mcast := (rfl)
@[simp] theorem State.setLook_rings (s : State) (lo : LookoutS) : (s.setLook lo).rings = s.rings := (rfl)
@[simp] theorem State.setLook_inflight (s : State) (lo : LookoutS) : (s.setLook lo).inflight = s.inflight := (rfl)
@[simp] theorem State.setLook_deck (s : State) (lo : LookoutS) : (s.setLook lo).deck = s.deck := (rfl)
@[simp] theorem State.setLook_path (s : State) (lo : LookoutS) : (s.setLook lo).path = s.path := (rfl)
@[simp] theorem State.setLook_queues (s : State) (lo : LookoutS) : (s.setLook lo).queues = s.queues := (rfl)
@[simp] theorem State.setLook_deficit (s : State) (lo : LookoutS) : (s.setLook lo).deficit = s.deficit := (rfl)
@[simp] theorem State.setLook_qbucket (s : State) (lo : LookoutS) : (s.setLook lo).qbucket = s.qbucket := (rfl)
@[simp] theorem State.setLook_sched (s : State) (lo : LookoutS) : (s.setLook lo).sched = s.sched := (rfl)
@[simp] theorem State.setLook_pfcTx (s : State) (lo : LookoutS) : (s.setLook lo).pfcTx = s.pfcTx := (rfl)
@[simp] theorem State.setLook_meters (s : State) (lo : LookoutS) : (s.setLook lo).meters = s.meters := (rfl)
@[simp] theorem State.setLook_late (s : State) (lo : LookoutS) : (s.setLook lo).late = s.late := (rfl)
@[simp] theorem State.setLook_unsettled (s : State) (lo : LookoutS) : (s.setLook lo).unsettled = s.unsettled := (rfl)
@[simp] theorem State.setLook_wood (s : State) (lo : LookoutS) : (s.setLook lo).wood = s.wood := (rfl)
@[simp] theorem State.setLook_eastq (s : State) (lo : LookoutS) : (s.setLook lo).eastq = s.eastq := (rfl)
@[simp] theorem State.setLook_hitq (s : State) (lo : LookoutS) : (s.setLook lo).hitq = s.hitq := (rfl)
@[simp] theorem State.setLook_matrix (s : State) (lo : LookoutS) : (s.setLook lo).matrix = s.matrix := (rfl)
@[simp] theorem State.setLook_tally (s : State) (lo : LookoutS) : (s.setLook lo).tally = s.tally := (rfl)
@[simp] theorem State.setLook_hbm (s : State) (lo : LookoutS) : (s.setLook lo).hbm = s.hbm := (rfl)
@[simp] theorem State.setLook_host (s : State) (lo : LookoutS) : (s.setLook lo).host = s.host := (rfl)
@[simp] theorem State.setLook_cruiser (s : State) (lo : LookoutS) : (s.setLook lo).cruiser = s.cruiser := (rfl)
@[simp] theorem State.setLook_fire (s : State) (lo : LookoutS) : (s.setLook lo).fire = s.fire := (rfl)
@[simp] theorem State.setLook_raft (s : State) (lo : LookoutS) : (s.setLook lo).raft = s.raft := (rfl)
@[simp] theorem State.setLook_forester (s : State) (lo : LookoutS) : (s.setLook lo).forester = s.forester := (rfl)
@[simp] theorem State.setLook_mram (s : State) (lo : LookoutS) : (s.setLook lo).mram = s.mram := (rfl)
@[simp] theorem State.setLook_fuses (s : State) (lo : LookoutS) : (s.setLook lo).fuses = s.fuses := (rfl)
@[simp] theorem State.setLook_ppsHigh (s : State) (lo : LookoutS) : (s.setLook lo).ppsHigh = s.ppsHigh := (rfl)
@[simp] theorem State.setLook_rst (s : State) (lo : LookoutS) : (s.setLook lo).rst = s.rst := (rfl)
@[simp] theorem State.setLook_reg (s : State) (lo : LookoutS) (pg off : Nat) : (s.setLook lo).reg pg off = s.reg pg off := (rfl)
@[simp] theorem State.setLook_live (s : State) (lo : LookoutS) : (s.setLook lo).live = s.live := (rfl)
@[simp] theorem State.setLook_now (s : State) (lo : LookoutS) : (s.setLook lo).now = s.now := (rfl)

/-! ### What was written is read -/

@[simp] theorem State.lane_setLane (s : State) (i : Nat) (x : LaneS) : (s.setLane i x).lane i = x := by
  simp [State.lane, State.setLane]

theorem State.lane_setLane_ne (s : State) {i j : Nat} (x : LaneS) (h : j ≠ i) : (s.setLane i x).lane j = s.lane j := by
  simp [State.lane, State.setLane, AMap.get_set_ne _ _ _ _ h]

@[simp] theorem State.macro__setMacro (s : State) (i : Nat) (x : MacroS) : (s.setMacro i x).macro_ i = x := by
  simp [State.macro_, State.setMacro]

theorem State.macro__setMacro_ne (s : State) {i j : Nat} (x : MacroS) (h : j ≠ i) : (s.setMacro i x).macro_ j = s.macro_ j := by
  simp [State.macro_, State.setMacro, AMap.get_set_ne _ _ _ _ h]

@[simp] theorem State.port_setPort (s : State) (i : Nat) (x : PortS) : (s.setPort i x).port i = x := by
  simp [State.port, State.setPort]

theorem State.port_setPort_ne (s : State) {i j : Nat} (x : PortS) (h : j ≠ i) : (s.setPort i x).port j = s.port j := by
  simp [State.port, State.setPort, AMap.get_set_ne _ _ _ _ h]

@[simp] theorem State.span_setSpan (s : State) (i : Nat) (x : SpanS) : (s.setSpan i x).span i = x := by
  simp [State.span, State.setSpan]

theorem State.span_setSpan_ne (s : State) {i j : Nat} (x : SpanS) (h : j ≠ i) : (s.setSpan i x).span j = s.span j := by
  simp [State.span, State.setSpan, AMap.get_set_ne _ _ _ _ h]

@[simp] theorem State.slice_setSlice (s : State) (i : Nat) (x : SliceS) : (s.setSlice i x).slice i = x := by
  simp [State.slice, State.setSlice]

theorem State.slice_setSlice_ne (s : State) {i j : Nat} (x : SliceS) (h : j ≠ i) : (s.setSlice i x).slice j = s.slice j := by
  simp [State.slice, State.setSlice, AMap.get_set_ne _ _ _ _ h]

@[simp] theorem State.schedOf_setSched (s : State) (i : Nat) (x : SchedS) : (s.setSched i x).schedOf i = x := by
  simp [State.schedOf, State.setSched]

theorem State.schedOf_setSched_ne (s : State) {i j : Nat} (x : SchedS) (h : j ≠ i) : (s.setSched i x).schedOf j = s.schedOf j := by
  simp [State.schedOf, State.setSched, AMap.get_set_ne _ _ _ _ h]

@[simp] theorem State.queue_setQueue (s : State) (i : Nat) (x : List Nat) : (s.setQueue i x).queue i = x := by
  simp [State.queue, State.setQueue]

theorem State.queue_setQueue_ne (s : State) {i j : Nat} (x : List Nat) (h : j ≠ i) : (s.setQueue i x).queue j = s.queue j := by
  simp [State.queue, State.setQueue, AMap.get_set_ne _ _ _ _ h]

@[simp] theorem State.hq_setHq (s : State) (i : Nat) (x : HostQ) : (s.setHq i x).hq i = x := by
  simp [State.hq, State.setHq]

theorem State.hq_setHq_ne (s : State) {i j : Nat} (x : HostQ) (h : j ≠ i) : (s.setHq i x).hq j = s.hq j := by
  simp [State.hq, State.setHq, AMap.get_set_ne _ _ _ _ h]

@[simp] theorem State.ringRec_setRing (s : State) (i : Nat) (x : RingS) : (s.setRing i x).ringRec i = x := by
  simp [State.ringRec, State.setRing]

theorem State.ringRec_setRing_ne (s : State) {i j : Nat} (x : RingS) (h : j ≠ i) : (s.setRing i x).ringRec j = s.ringRec j := by
  simp [State.ringRec, State.setRing, AMap.get_set_ne _ _ _ _ h]

@[simp] theorem State.deckOf_setDeck (s : State) (h : Nat) (x : DeckS) : (s.setDeck h x).deckOf h = x := by
  unfold State.deckOf State.setDeck Pair.at Pair.upd; split <;> rfl

theorem State.deckOf_setDeck_ne (s : State) {h g : Nat} (x : DeckS) (hh : h = 0 ↔ g ≠ 0) : (s.setDeck h x).deckOf g = s.deckOf g := by
  unfold State.deckOf State.setDeck Pair.at Pair.upd; split <;> split <;> simp_all

@[simp] theorem State.pathOf_setPath (s : State) (h : Nat) (x : PathS) : (s.setPath h x).pathOf h = x := by
  unfold State.pathOf State.setPath Pair.at Pair.upd; split <;> rfl

theorem State.pathOf_setPath_ne (s : State) {h g : Nat} (x : PathS) (hh : h = 0 ↔ g ≠ 0) : (s.setPath h x).pathOf g = s.pathOf g := by
  unfold State.pathOf State.setPath Pair.at Pair.upd; split <;> split <;> simp_all

@[simp] theorem State.tallyOf_setTally (s : State) (h : Nat) (x : TallyS) : (s.setTally h x).tallyOf h = x := by
  unfold State.tallyOf State.setTally Pair.at Pair.upd; split <;> rfl

theorem State.tallyOf_setTally_ne (s : State) {h g : Nat} (x : TallyS) (hh : h = 0 ↔ g ≠ 0) : (s.setTally h x).tallyOf g = s.tallyOf g := by
  unfold State.tallyOf State.setTally Pair.at Pair.upd; split <;> split <;> simp_all

@[simp] theorem State.matrixOf_setMatrix (s : State) (h : Nat) (x : MatrixS) : (s.setMatrix h x).matrixOf h = x := by
  unfold State.matrixOf State.setMatrix Pair.at Pair.upd; split <;> rfl

theorem State.matrixOf_setMatrix_ne (s : State) {h g : Nat} (x : MatrixS) (hh : h = 0 ↔ g ≠ 0) : (s.setMatrix h x).matrixOf g = s.matrixOf g := by
  unfold State.matrixOf State.setMatrix Pair.at Pair.upd; split <;> split <;> simp_all

@[simp] theorem State.woodOf_setWood (s : State) (h : Nat) (x : WoodS) : (s.setWood h x).woodOf h = x := by
  unfold State.woodOf State.setWood Pair.at Pair.upd; split <;> rfl

theorem State.woodOf_setWood_ne (s : State) {h g : Nat} (x : WoodS) (hh : h = 0 ↔ g ≠ 0) : (s.setWood h x).woodOf g = s.woodOf g := by
  unfold State.woodOf State.setWood Pair.at Pair.upd; split <;> split <;> simp_all

@[simp] theorem State.hbmOf_setHbm (s : State) (h : Nat) (x : HbmS) : (s.setHbm h x).hbmOf h = x := by
  unfold State.hbmOf State.setHbm Pair.at Pair.upd; split <;> rfl

theorem State.hbmOf_setHbm_ne (s : State) {h g : Nat} (x : HbmS) (hh : h = 0 ↔ g ≠ 0) : (s.setHbm h x).hbmOf g = s.hbmOf g := by
  unfold State.hbmOf State.setHbm Pair.at Pair.upd; split <;> split <;> simp_all

@[simp] theorem State.frame_setFrame (s : State) (i : Nat) (f : Frame) : (s.setFrame i f).frame i = f := by
  simp [State.frame, State.setFrame]

theorem State.frame_setFrame_ne (s : State) {i j : Nat} (f : Frame) (h : j ≠ i) : (s.setFrame i f).frame j = s.frame j := by
  simp [State.frame, State.setFrame, AMap.get_set_ne _ _ _ _ h]

@[simp] theorem State.reg_setReg (s : State) (p o : Nat) (v : Word) : (s.setReg p o v).reg p o = v := by
  simp [State.reg, State.setReg]

theorem State.reg_setReg_ne (s : State) {p o p' o' : Nat} (v : Word) (h : regKey p' o' ≠ regKey p o) :
    (s.setReg p o v).reg p' o' = s.reg p' o' := by
  simp [State.reg, State.setReg, AMap.get_set_ne _ _ _ _ h]

@[simp] theorem State.memW_setMemW (s : State) (p sel a : Nat) (v : Word) : (s.setMemW p sel a v).memW p sel a = v := by
  simp [State.memW, State.setMemW]

theorem State.memW_setMemW_ne (s : State) {p sel a p' sel' a' : Nat} (v : Word) (h : memKey p' sel' a' ≠ memKey p sel a) :
    (s.setMemW p sel a v).memW p' sel' a' = s.memW p' sel' a' := by
  simp [State.memW, State.setMemW, AMap.get_set_ne _ _ _ _ h]

/-! ### Meanings -/

/-- A state with the queue of commands of another. -/
def State.keepQueue (s old : State) : State := { s with pending := old.pending }

@[simp] theorem State.keepQueue_clk (s old : State) : (s.keepQueue old).clk = s.clk := (rfl)
@[simp] theorem State.keepQueue_freeCtr (s old : State) : (s.keepQueue old).freeCtr = s.freeCtr := (rfl)
@[simp] theorem State.keepQueue_out (s old : State) : (s.keepQueue old).out = s.out := (rfl)
@[simp] theorem State.keepQueue_regs (s old : State) : (s.keepQueue old).regs = s.regs := (rfl)
@[simp] theorem State.keepQueue_selRegs (s old : State) : (s.keepQueue old).selRegs = s.selRegs := (rfl)
@[simp] theorem State.keepQueue_mem (s old : State) : (s.keepQueue old).mem = s.mem := (rfl)
@[simp] theorem State.keepQueue_bus (s old : State) : (s.keepQueue old).bus = s.bus := (rfl)
@[simp] theorem State.keepQueue_flumeUp (s old : State) : (s.keepQueue old).flumeUp = s.flumeUp := (rfl)
@[simp] theorem State.keepQueue_lanes (s old : State) : (s.keepQueue old).lanes = s.lanes := (rfl)
@[simp] theorem State.keepQueue_macros (s old : State) : (s.keepQueue old).macros = s.macros := (rfl)
@[simp] theorem State.keepQueue_ports (s old : State) : (s.keepQueue old).ports = s.ports := (rfl)
@[simp] theorem State.keepQueue_spans (s old : State) : (s.keepQueue old).spans = s.spans := (rfl)
@[simp] theorem State.keepQueue_frames (s old : State) : (s.keepQueue old).frames = s.frames := (rfl)
@[simp] theorem State.keepQueue_nextFrame (s old : State) : (s.keepQueue old).nextFrame = s.nextFrame := (rfl)
@[simp] theorem State.keepQueue_slices (s old : State) : (s.keepQueue old).slices = s.slices := (rfl)
@[simp] theorem State.keepQueue_mcast (s old : State) : (s.keepQueue old).mcast = s.mcast := (rfl)
@[simp] theorem State.keepQueue_rings (s old : State) : (s.keepQueue old).rings = s.rings := (rfl)
@[simp] theorem State.keepQueue_inflight (s old : State) : (s.keepQueue old).inflight = s.inflight := (rfl)
@[simp] theorem State.keepQueue_deck (s old : State) : (s.keepQueue old).deck = s.deck := (rfl)
@[simp] theorem State.keepQueue_path (s old : State) : (s.keepQueue old).path = s.path := (rfl)
@[simp] theorem State.keepQueue_queues (s old : State) : (s.keepQueue old).queues = s.queues := (rfl)
@[simp] theorem State.keepQueue_deficit (s old : State) : (s.keepQueue old).deficit = s.deficit := (rfl)
@[simp] theorem State.keepQueue_qbucket (s old : State) : (s.keepQueue old).qbucket = s.qbucket := (rfl)
@[simp] theorem State.keepQueue_sched (s old : State) : (s.keepQueue old).sched = s.sched := (rfl)
@[simp] theorem State.keepQueue_pfcTx (s old : State) : (s.keepQueue old).pfcTx = s.pfcTx := (rfl)
@[simp] theorem State.keepQueue_meters (s old : State) : (s.keepQueue old).meters = s.meters := (rfl)
@[simp] theorem State.keepQueue_late (s old : State) : (s.keepQueue old).late = s.late := (rfl)
@[simp] theorem State.keepQueue_unsettled (s old : State) : (s.keepQueue old).unsettled = s.unsettled := (rfl)
@[simp] theorem State.keepQueue_wood (s old : State) : (s.keepQueue old).wood = s.wood := (rfl)
@[simp] theorem State.keepQueue_eastq (s old : State) : (s.keepQueue old).eastq = s.eastq := (rfl)
@[simp] theorem State.keepQueue_hitq (s old : State) : (s.keepQueue old).hitq = s.hitq := (rfl)
@[simp] theorem State.keepQueue_matrix (s old : State) : (s.keepQueue old).matrix = s.matrix := (rfl)
@[simp] theorem State.keepQueue_tally (s old : State) : (s.keepQueue old).tally = s.tally := (rfl)
@[simp] theorem State.keepQueue_hbm (s old : State) : (s.keepQueue old).hbm = s.hbm := (rfl)
@[simp] theorem State.keepQueue_host (s old : State) : (s.keepQueue old).host = s.host := (rfl)
@[simp] theorem State.keepQueue_cruiser (s old : State) : (s.keepQueue old).cruiser = s.cruiser := (rfl)
@[simp] theorem State.keepQueue_fire (s old : State) : (s.keepQueue old).fire = s.fire := (rfl)
@[simp] theorem State.keepQueue_raft (s old : State) : (s.keepQueue old).raft = s.raft := (rfl)
@[simp] theorem State.keepQueue_lookout (s old : State) : (s.keepQueue old).lookout = s.lookout := (rfl)
@[simp] theorem State.keepQueue_forester (s old : State) : (s.keepQueue old).forester = s.forester := (rfl)
@[simp] theorem State.keepQueue_mram (s old : State) : (s.keepQueue old).mram = s.mram := (rfl)
@[simp] theorem State.keepQueue_fuses (s old : State) : (s.keepQueue old).fuses = s.fuses := (rfl)
@[simp] theorem State.keepQueue_ppsHigh (s old : State) : (s.keepQueue old).ppsHigh = s.ppsHigh := (rfl)
@[simp] theorem State.keepQueue_rst (s old : State) : (s.keepQueue old).rst = s.rst := (rfl)
@[simp] theorem State.keepQueue_pending (s old : State) : (s.keepQueue old).pending = old.pending := (rfl)
@[simp] theorem State.keepQueue_reg (s old : State) (p o : Nat) : (s.keepQueue old).reg p o = s.reg p o := (rfl)
@[simp] theorem State.keepQueue_live (s old : State) : (s.keepQueue old).live = s.live := (rfl)
@[simp] theorem State.keepQueue_now (s old : State) : (s.keepQueue old).now = s.now := (rfl)

/-- While the device runs, a meaning answers its function's state, the queue of commands as it was. -/
theorem State.run_live {s : State} (f : State → State) (h : s.live = true) : s.run f = .next ((f s).keepQueue s) := by
  simp [State.run, h, State.keepQueue]

/-- A meaning that acts at any time answers its function's state, the queue of commands as it was. -/
theorem State.runAlways_eq (s : State) (f : State → State) : s.runAlways f = .next ((f s).keepQueue s) := (rfl)

/-- While it does not, it answers the state as it was. -/
theorem State.run_dead {s : State} (f : State → State) (h : s.live = false) : s.run f = .next s := by simp [State.run, h]

/-- A meaning always answers a next state, and never touches the queue of commands. -/
theorem State.run_next (s : State) (f : State → State) : ∃ t, s.run f = .next t ∧ t.pending = s.pending := ⟨_, rfl, rfl⟩

@[simp] theorem State.onlyIf_true (s : State) (f : State → State) : s.onlyIf true f = f s := (rfl)
@[simp] theorem State.onlyIf_false (s : State) (f : State → State) : s.onlyIf false f = s := (rfl)

end Sys2Proof.Machine
end

