-- ==== Sys2Proof/Laws/Events.lean ====
section
/-! SUPPORT. Fields of words; what setting event bits does (02_registers.md R47, R49): the bits read as 1 afterwards, no event
bit falls, and no other register changes but the Lookout's own counter of lost messages. -/

namespace Sys2Proof.Machine

theorem bit_testBit (w : Word) (i : Nat) : bit w i = w.toNat.testBit i := by
  simp [bit, Nat.testBit_eq_decide_div_mod_eq]

theorem put_toNat (w : Word) {lo n x : Nat} (h : lo + n ≤ 32) :
    (put w lo n x).toNat = w.toNat - fld w lo n * 2 ^ lo + x % 2 ^ n * 2 ^ lo := by
  unfold put fld
  rw [BitVec.toNat_ofNat]
  apply Nat.mod_eq_of_lt
  have h1 : w.toNat = w.toNat / 2 ^ lo * 2 ^ lo + w.toNat % 2 ^ lo := by
    rw [Nat.mul_comm]; exact (Nat.div_add_mod _ _).symm
  have h2 : w.toNat / 2 ^ lo = w.toNat / 2 ^ lo / 2 ^ n * 2 ^ n + w.toNat / 2 ^ lo % 2 ^ n := by
    rw [Nat.mul_comm]; exact (Nat.div_add_mod _ _).symm
  have h3 : w.toNat % 2 ^ lo < 2 ^ lo := Nat.mod_lt _ (Nat.two_pow_pos _)
  have h4 : x % 2 ^ n < 2 ^ n := Nat.mod_lt _ (Nat.two_pow_pos _)
  have h5 : w.toNat / 2 ^ lo / 2 ^ n < 2 ^ (32 - lo - n) := by
    rw [Nat.div_div_eq_div_mul, ← Nat.pow_add]
    apply Nat.div_lt_of_lt_mul
    rw [← Nat.pow_add, show lo + n + (32 - lo - n) = 32 by omega]
    exact w.isLt
  have h6 : 2 ^ 32 = 2 ^ (32 - lo - n) * 2 ^ n * 2 ^ lo := by
    rw [← Nat.pow_add, ← Nat.pow_add, show 32 - lo - n + n + lo = 32 by omega]
  generalize w.toNat / 2 ^ lo = a at *
  generalize w.toNat % 2 ^ lo = r at *
  generalize x % 2 ^ n = y at *
  generalize a / 2 ^ n = b at *
  generalize a % 2 ^ n = c at *
  generalize 2 ^ lo = L at *
  generalize 2 ^ n = N at *
  generalize 2 ^ (32 - lo - n) = M at *
  have e : w.toNat - c * L + y * L = b * N * L + r + y * L := by
    rw [h1, h2, Nat.add_mul]; omega
  rw [e, h6]
  have h7 : (b + 1) * N * L ≤ M * N * L := Nat.mul_le_mul_right _ (Nat.mul_le_mul_right _ h5)
  have h8 : (y + 1) * L ≤ N * L := Nat.mul_le_mul_right _ h4
  rw [Nat.add_mul, Nat.add_mul, Nat.one_mul] at h7
  rw [Nat.add_mul, Nat.one_mul] at h8
  omega

/-- The bits of a word below a field that was replaced. -/
theorem bit_put_lt (w : Word) {lo n x i : Nat} (h : lo + n ≤ 32) (hi : i < lo) : bit (put w lo n x) i = bit w i := by
  have key : (put w lo n x).toNat % 2 ^ lo = w.toNat % 2 ^ lo := by
    rw [put_toNat w h, Nat.add_mul_mod_self_right]
    have hle : fld w lo n * 2 ^ lo ≤ w.toNat := by
      unfold fld
      refine Nat.le_trans (Nat.mul_le_mul_right _ (Nat.mod_le _ _)) (Nat.div_mul_le_self _ _)
    conv => rhs; rw [← Nat.sub_add_cancel hle]
    rw [Nat.add_mul_mod_self_right]
  rw [bit_testBit, bit_testBit]
  have a := Nat.testBit_mod_two_pow (put w lo n x).toNat lo i
  have b := Nat.testBit_mod_two_pow w.toNat lo i
  rw [key, b] at a
  simpa [hi] using a.symm

/-- An event bit after a rise: it was set, or it is in the mask. -/
theorem bit_evtRise (old : Word) (mask : Nat) {i : Nat} (hi : i < 24) :
    bit (evtRise old mask) i = (bit old i || mask.testBit i) := by
  have hr : ∀ w : Word, bit (w &&& 0xFFFFFF) i = bit w i := by
    intro w
    rw [bit_testBit, bit_testBit, BitVec.toNat_and, Nat.testBit_and]
    have : (0xFFFFFF : Word).toNat = 2 ^ 24 - 1 := rfl
    rw [this, Nat.testBit_two_pow_sub_one]; simp [hi]
  have ho : bit ((old ||| BitVec.ofNat 32 (mask % 2 ^ 24)) &&& 0xFFFFFF) i = (bit old i || mask.testBit i) := by
    rw [hr, bit_testBit, bit_testBit, BitVec.toNat_or, Nat.testBit_or, BitVec.toNat_ofNat]
    congr 1
    rw [Nat.testBit_mod_two_pow, Nat.testBit_mod_two_pow]
    simp [hi, show i < 32 by omega]
  unfold evtRise
  dsimp only
  split
  · next h => rw [← ho, h, hr]
  · rw [bit_put_lt _ (by decide) hi, ho]

theorem regKey_ne {p o p' o' : Nat} (h : p' ≠ p) (ho : o < 0x10000) (ho' : o' < 0x10000) : regKey p' o' ≠ regKey p o := by
  unfold regKey; omega

theorem regKey_ne_off {p o o' : Nat} (h : o' ≠ o) : regKey p o' ≠ regKey p o := by
  unfold regKey; omega

/-- No counter but its own changes. -/
theorem State.count_reg_ne (s : State) {p o n p' o' : Nat} (h : regKey p' o' ≠ regKey p o) :
    (s.count p o n).reg p' o' = s.reg p' o' := State.reg_setReg_ne _ _ h

@[simp] theorem State.count_reg (s : State) (p o n : Nat) :
    (s.count p o n).reg p o = BitVec.ofNat 32 ((s.reg p o).toNat + n) := State.reg_setReg _ _ _ _

theorem State.enqueueMsg_regs {s t : State} {m : Message} (h : s.enqueueMsg m = some t) : t.regs = s.regs := by
  unfold State.enqueueMsg at h
  dsimp only at h
  split at h
  · split at h
    · cases h; rfl
    · cases h
  · split at h
    · cases h; rfl
    · cases h

@[simp] theorem State.missRise_regs (s : State) (n : Nat) : (s.missRise n).regs = s.regs := (rfl)
@[simp] theorem State.missRise_reg (s : State) (n p o : Nat) : (s.missRise n).reg p o = s.reg p o := (rfl)

/-- A message that is lost leaves every register as it was but the Lookout's PG_EVT and its count of lost messages. -/
theorem State.msgLost_reg_ne (s : State) {p o : Nat} (h1 : regKey p o ≠ regKey pgLookout 0x10)
    (h2 : regKey p o ≠ regKey pgLookout Reg.loMsgLost) : s.msgLost.reg p o = s.reg p o := by
  have e : ∀ {a b : State}, b.regs = a.regs → b.reg p o = a.reg p o := fun h => by unfold State.reg; rw [h]
  have em : ∀ (a : State) (b : Bool) (n : Nat), (if b then a.missRise n else a).reg p o = a.reg p o := fun a b n => by
    cases b <;> rfl
  unfold State.msgLost
  dsimp only
  split
  · exact State.count_reg_ne _ h2
  · split
    · split
      · next t ht => rw [e (State.enqueueMsg_regs ht), State.reg_setReg_ne _ _ h1, State.count_reg_ne _ h2]
      · rw [State.count_reg_ne _ h2]
        split
        · rw [State.missRise_reg, State.reg_setReg_ne _ _ h1, State.count_reg_ne _ h2]
        · rw [State.reg_setReg_ne _ _ h1, State.count_reg_ne _ h2]
    · rw [State.reg_setReg_ne _ _ h1, State.count_reg_ne _ h2]

/-- A message leaves every register as it was but the Lookout's PG_EVT and its count of lost messages. -/
theorem State.sendOn_reg_ne (s : State) (m : Message) (b : Bool) {p o : Nat} (h1 : regKey p o ≠ regKey pgLookout 0x10)
    (h2 : regKey p o ≠ regKey pgLookout Reg.loMsgLost) : (s.sendOn m b).reg p o = s.reg p o := by
  unfold State.sendOn
  split
  · next t ht => unfold State.reg; rw [State.enqueueMsg_regs ht]
  · rw [State.msgLost_reg_ne _ h1 h2]
    cases b <;> rfl

theorem State.send_reg_ne (s : State) (m : Message) {p o : Nat} (h1 : regKey p o ≠ regKey pgLookout 0x10)
    (h2 : regKey p o ≠ regKey pgLookout Reg.loMsgLost) : (s.send m).reg p o = s.reg p o := s.sendOn_reg_ne m false h1 h2

/-- A message that is lost sets no event bit of the Lookout to 0. -/
theorem State.msgLost_evt_keep (s : State) {i : Nat} (hi : i < 24) (h : s.rbit pgLookout 0x10 i = true) :
    s.msgLost.rbit pgLookout 0x10 i = true := by
  have e : ∀ {a b : State}, b.regs = a.regs → b.rbit pgLookout 0x10 i = a.rbit pgLookout 0x10 i :=
    fun h => by unfold State.rbit State.reg; rw [h]
  have hc : ∀ t : State, (t.count pgLookout Reg.loMsgLost 1).rbit pgLookout 0x10 i = t.rbit pgLookout 0x10 i :=
    fun t => by unfold State.rbit; rw [State.count_reg_ne _ (regKey_ne_off (by decide))]
  have hr : ∀ t : State, t.rbit pgLookout 0x10 i = true →
      (t.setReg pgLookout 0x10 (evtRise (t.evt pgLookout) 1)).rbit pgLookout 0x10 i = true := fun t ht => by
    unfold State.rbit at ht ⊢
    rw [State.reg_setReg, bit_evtRise _ _ hi]
    unfold State.evt; rw [ht]; rfl
  have hm := hr _ ((hc s).trans h)
  unfold State.msgLost
  dsimp only
  split
  · rw [hc]; exact h
  · split
    · split
      · next t ht => rw [e (State.enqueueMsg_regs ht)]; exact hm
      · rw [hc]
        split
        · exact (e (State.missRise_regs _ _)).trans hm
        · exact hm
    · exact hm

/-- A message sets no event bit to 0. -/
theorem State.sendOn_evt_keep (s : State) (m : Message) (b : Bool) {p i : Nat} (hi : i < 24) (h : s.rbit p 0x10 i = true) :
    (s.sendOn m b).rbit p 0x10 i = true := by
  by_cases hp : p = pgLookout
  · subst hp
    unfold State.sendOn
    split
    · next t ht => unfold State.rbit State.reg at h ⊢; rw [State.enqueueMsg_regs ht]; exact h
    · apply State.msgLost_evt_keep _ hi
      cases b <;> exact h
  · unfold State.rbit at h ⊢
    rw [State.sendOn_reg_ne s m b (fun e => hp (by unfold regKey pgLookout at e; unfold pgLookout; omega))
      (fun e => hp (by unfold regKey pgLookout Reg.loMsgLost at e; unfold pgLookout; omega))]
    exact h

theorem State.send_evt_keep (s : State) (m : Message) {p i : Nat} (hi : i < 24) (h : s.rbit p 0x10 i = true) :
    (s.send m).rbit p 0x10 i = true := s.sendOn_evt_keep m false hi h

theorem State.sendRises_reg_ne (s : State) (p : Nat) (old info : Word) (l : List Nat) {p' o : Nat}
    (h1 : regKey p' o ≠ regKey pgLookout 0x10) (h2 : regKey p' o ≠ regKey pgLookout Reg.loMsgLost) :
    (s.sendRises p old info l).reg p' o = s.reg p' o := by
  induction l generalizing s with
  | nil => rfl
  | cons a l ih =>
    unfold State.sendRises
    rw [ih]
    split
    · exact State.sendOn_reg_ne _ _ _ h1 h2
    · rfl

theorem State.sendRises_evt_keep (s : State) (p : Nat) (old info : Word) (l : List Nat) {p' i : Nat} (hi : i < 24)
    (h : s.rbit p' 0x10 i = true) : (s.sendRises p old info l).rbit p' 0x10 i = true := by
  induction l generalizing s with
  | nil => exact h
  | cons a l ih =>
    unfold State.sendRises
    apply ih
    split
    · exact State.sendOn_evt_keep _ _ _ hi h
    · exact h

theorem mask_testBit (l : List Nat) (m i : Nat) :
    (l.foldl (fun m i => m ||| 2 ^ i) m).testBit i = (m.testBit i || l.contains i) := by
  induction l generalizing m with
  | nil => simp
  | cons a l ih =>
    rw [List.foldl_cons, ih, Nat.testBit_or, Nat.testBit_two_pow, List.contains_cons, Bool.or_assoc]
    congr 2
    by_cases h : a = i
    · subst h; simp
    · have h2 : ¬ i = a := fun x => h x.symm
      simp [h, h2]

/-- Every event bit of the list reads as 1 once they are set (R47). -/
theorem State.raiseAll_evt (s : State) (p : Nat) (l : List Nat) (info : Word) {i : Nat} (hi : i < 24) (h : l.contains i = true) :
    (s.raiseAll p l info).rbit p 0x10 i = true := by
  unfold State.raiseAll
  apply State.sendRises_evt_keep _ _ _ _ _ hi
  unfold State.rbit
  rw [State.reg_setReg, bit_evtRise _ _ hi, mask_testBit, h, Bool.or_true, Bool.or_true]

/-- Setting event bits clears none, of any page. -/
theorem State.raiseAll_evt_keep (s : State) (p : Nat) (l : List Nat) (info : Word) {p' i : Nat} (hi : i < 24)
    (h : s.rbit p' 0x10 i = true) : (s.raiseAll p l info).rbit p' 0x10 i = true := by
  unfold State.raiseAll
  apply State.sendRises_evt_keep _ _ _ _ _ hi
  unfold State.rbit at h ⊢
  by_cases e : regKey p' 0x10 = regKey p 0x10
  · have hp : p' = p := by unfold regKey at e; omega
    subst hp
    rw [State.reg_setReg, bit_evtRise _ _ hi]; unfold State.evt; rw [h]; rfl
  · rw [State.reg_setReg_ne _ _ e]; exact h

/-- No register changes but the page's PG_EVT and the Lookout's own two. -/
theorem State.raiseAll_reg_ne (s : State) (p : Nat) (l : List Nat) (info : Word) {p' o : Nat}
    (h : regKey p' o ≠ regKey p 0x10) (h1 : regKey p' o ≠ regKey pgLookout 0x10)
    (h2 : regKey p' o ≠ regKey pgLookout Reg.loMsgLost) : (s.raiseAll p l info).reg p' o = s.reg p' o := by
  unfold State.raiseAll
  rw [State.sendRises_reg_ne _ _ _ _ _ h1 h2, State.reg_setReg_ne _ _ h]

/-- The event bit that was set reads as 1 (R47). -/
theorem State.raise_evt (s : State) (p : Nat) {i : Nat} (hi : i < 24) : (s.raise p i).rbit p 0x10 i = true :=
  State.raiseAll_evt _ _ _ _ hi (by simp)

theorem State.raise_evt_keep (s : State) (p i : Nat) {p' j : Nat} (hj : j < 24) (h : s.rbit p' 0x10 j = true) :
    (s.raise p i).rbit p' 0x10 j = true := State.raiseAll_evt_keep _ _ _ _ hj h

theorem State.raise_reg_ne (s : State) (p i : Nat) {p' o : Nat} (h : regKey p' o ≠ regKey p 0x10)
    (h1 : regKey p' o ≠ regKey pgLookout 0x10) (h2 : regKey p' o ≠ regKey pgLookout Reg.loMsgLost) :
    (s.raise p i).reg p' o = s.reg p' o := State.raiseAll_reg_ne _ _ _ _ h h1 h2

/-- An offset of a page that is no event register is untouched by events. -/
theorem State.raise_reg (s : State) (p i : Nat) {p' o : Nat} (ho : o < 0x10000) (h1 : o ≠ 0x10) (h2 : o ≠ Reg.loMsgLost) :
    (s.raise p i).reg p' o = s.reg p' o := by
  apply State.raise_reg_ne
  all_goals (intro e; unfold regKey at e; unfold Reg.loMsgLost at *; omega)

/-- A 64-bit register reads as what was loaded into it, modulo 2^64. -/
theorem State.reg64_setReg64 (s : State) (p o x : Nat) : (s.setReg64 p o x).reg64 p o = x % 2 ^ 64 := by
  unfold State.reg64 State.setReg64
  rw [State.reg_setReg, State.reg_setReg_ne _ _ (regKey_ne_off (by omega)), State.reg_setReg]
  simp only [BitVec.toNat_ofNat]
  omega

theorem State.setReg64_reg_ne (s : State) {p o x p' o' : Nat} (h1 : regKey p' o' ≠ regKey p o)
    (h2 : regKey p' o' ≠ regKey p (o + 4)) : (s.setReg64 p o x).reg p' o' = s.reg p' o' := by
  unfold State.setReg64
  rw [State.reg_setReg_ne _ _ h2, State.reg_setReg_ne _ _ h1]

end Sys2Proof.Machine
end

