-- ==== Sys2Proof/Laws/Same.lean ====
section
/-! SUPPORT. What every function of the state leaves as it was (State.Same): a mask names the fields that may change. One
lemma for each set of fields that some function updates. -/

namespace Sys2Proof.Machine

/-- Every bit of the mask a is a bit of the mask m. Bit i of a mask stands for the field of State in place i. -/
def State.Sub (a m : Nat) : Prop := ∀ i, a.testBit i = true → m.testBit i = true

theorem State.Sub.refl (m : Nat) : State.Sub m m := fun _ h => h

theorem State.Sub.of {a b m : Nat} (h : Nat.land a b = a) (hb : State.Sub b m) : State.Sub a m := by
  intro i hi
  apply hb i
  have h2 : (a &&& b).testBit i = true := by
    have : a &&& b = a := h
    rw [this]; exact hi
  rw [Nat.testBit_and, Bool.and_eq_true] at h2
  exact h2.2

theorem State.Sub.hit {a m i : Nat} {p : Prop} (hm : State.Sub a m) (h : a.testBit i = true) (e : m.testBit i = false) : p :=
  absurd (e.symm.trans (hm i h)) Bool.false_ne_true

/-- The state s is the state k but in the fields that the mask m names. -/
structure State.Same (m : Nat) (k s : State) : Prop where
  pending : s.pending = k.pending
  clk : m.testBit 1 = false → s.clk = k.clk
  freeCtr : m.testBit 2 = false → s.freeCtr = k.freeCtr
  out : m.testBit 3 = false → s.out = k.out
  regs : m.testBit 4 = false → s.regs = k.regs
  selRegs : m.testBit 5 = false → s.selRegs = k.selRegs
  mem : m.testBit 6 = false → s.mem = k.mem
  bus : m.testBit 7 = false → s.bus = k.bus
  flumeUp : m.testBit 8 = false → s.flumeUp = k.flumeUp
  lanes : m.testBit 9 = false → s.lanes = k.lanes
  macros : m.testBit 10 = false → s.macros = k.macros
  ports : m.testBit 11 = false → s.ports = k.ports
  spans : m.testBit 12 = false → s.spans = k.spans
  frames : m.testBit 13 = false → s.frames = k.frames
  nextFrame : m.testBit 14 = false → s.nextFrame = k.nextFrame
  slices : m.testBit 15 = false → s.slices = k.slices
  mcast : m.testBit 16 = false → s.mcast = k.mcast
  rings : m.testBit 17 = false → s.rings = k.rings
  inflight : m.testBit 18 = false → s.inflight = k.inflight
  deck : m.testBit 19 = false → s.deck = k.deck
  path : m.testBit 20 = false → s.path = k.path
  queues : m.testBit 21 = false → s.queues = k.queues
  deficit : m.testBit 22 = false → s.deficit = k.deficit
  qbucket : m.testBit 23 = false → s.qbucket = k.qbucket
  sched : m.testBit 24 = false → s.sched = k.sched
  pfcTx : m.testBit 25 = false → s.pfcTx = k.pfcTx
  meters : m.testBit 26 = false → s.meters = k.meters
  late : m.testBit 27 = false → s.late = k.late
  unsettled : m.testBit 28 = false → s.unsettled = k.unsettled
  wood : m.testBit 29 = false → s.wood = k.wood
  eastq : m.testBit 30 = false → s.eastq = k.eastq
  hitq : m.testBit 31 = false → s.hitq = k.hitq
  matrix : m.testBit 32 = false → s.matrix = k.matrix
  tally : m.testBit 33 = false → s.tally = k.tally
  hbm : m.testBit 34 = false → s.hbm = k.hbm
  host : m.testBit 35 = false → s.host = k.host
  cruiser : m.testBit 36 = false → s.cruiser = k.cruiser
  fire : m.testBit 37 = false → s.fire = k.fire
  raft : m.testBit 38 = false → s.raft = k.raft
  lookout : m.testBit 39 = false → s.lookout = k.lookout
  forester : m.testBit 40 = false → s.forester = k.forester
  mram : m.testBit 41 = false → s.mram = k.mram
  fuses : m.testBit 42 = false → s.fuses = k.fuses
  ppsHigh : m.testBit 43 = false → s.ppsHigh = k.ppsHigh
  rst : m.testBit 44 = false → s.rst = k.rst

theorem State.Same.refl (m : Nat) (s : State) : State.Same m s s :=
  ⟨rfl, fun _ => rfl, fun _ => rfl, fun _ => rfl, fun _ => rfl, fun _ => rfl, fun _ => rfl, fun _ => rfl, fun _ => rfl, fun _ => rfl, fun _ => rfl, fun _ => rfl, fun _ => rfl, fun _ => rfl, fun _ => rfl, fun _ => rfl, fun _ => rfl, fun _ => rfl, fun _ => rfl, fun _ => rfl, fun _ => rfl, fun _ => rfl, fun _ => rfl, fun _ => rfl, fun _ => rfl, fun _ => rfl, fun _ => rfl, fun _ => rfl, fun _ => rfl, fun _ => rfl, fun _ => rfl, fun _ => rfl, fun _ => rfl, fun _ => rfl, fun _ => rfl, fun _ => rfl, fun _ => rfl, fun _ => rfl, fun _ => rfl, fun _ => rfl, fun _ => rfl, fun _ => rfl, fun _ => rfl, fun _ => rfl, fun _ => rfl⟩

theorem State.Same.ite {m : Nat} {k a b : State} {c : Prop} [Decidable c] (ha : State.Same m k a) (hb : State.Same m k b) :
    State.Same m k (if c then a else b) := by split <;> assumption

theorem State.Same.run {m : Nat} {k s t : State} {f : State → State} (hf : ∀ s, State.Same m k s → State.Same m k (f s))
    (hs : State.Same m k s) (ht : s.run f = .next t) : State.Same m k t := by
  have h : State.Same m k (if s.live then f s else s) := by
    split
    · exact hf _ hs
    · exact hs
  cases ht
  exact ⟨hs.1, h.2, h.3, h.4, h.5, h.6, h.7, h.8, h.9, h.10, h.11, h.12, h.13, h.14, h.15, h.16, h.17, h.18, h.19, h.20, h.21, h.22, h.23, h.24, h.25, h.26, h.27, h.28, h.29, h.30, h.31, h.32, h.33, h.34, h.35, h.36, h.37, h.38, h.39, h.40, h.41, h.42, h.43, h.44, h.45⟩

theorem State.Same.runAlways {m : Nat} {k s t : State} {f : State → State} (hf : ∀ s, State.Same m k s → State.Same m k (f s))
    (hs : State.Same m k s) (ht : s.runAlways f = .next t) : State.Same m k t := by
  have h := hf _ hs
  cases ht
  exact ⟨hs.1, h.2, h.3, h.4, h.5, h.6, h.7, h.8, h.9, h.10, h.11, h.12, h.13, h.14, h.15, h.16, h.17, h.18, h.19, h.20, h.21, h.22, h.23, h.24, h.25, h.26, h.27, h.28, h.29, h.30, h.31, h.32, h.33, h.34, h.35, h.36, h.37, h.38, h.39, h.40, h.41, h.42, h.43, h.44, h.45⟩

theorem State.Same.foldl {α : Type} {fs : Nat} {k : State} {f : State → α → State}
    (hf : ∀ t a, State.Same fs k t → State.Same fs k (f t a)) (l : List α) {s : State} (hs : State.Same fs k s) :
    State.Same fs k (l.foldl f s) := by
  induction l generalizing s with
  | nil => exact hs
  | cons a l ih => exact ih (hf _ _ hs)

theorem State.Same.upd_100000000000 {fs : Nat} {k s : State} {x44 : RstS} (hm : State.Sub 0x100000000000 fs) (h :
  State.Same fs k s) :
    State.Same fs k { s with rst := x44 } :=
  ⟨h.1, h.2, h.3, h.4, h.5, h.6, h.7, h.8, h.9, h.10, h.11, h.12, h.13, h.14, h.15, h.16, h.17, h.18, h.19, h.20,
    h.21, h.22, h.23, h.24, h.25, h.26, h.27, h.28, h.29, h.30, h.31, h.32, h.33, h.34, h.35, h.36, h.37, h.38, h.39,
    h.40, h.41, h.42, h.43, h.44, hm.hit (i := 44) rfl⟩

theorem State.Same.upd_50 {fs : Nat} {k s : State} {x4 : AMap Word} {x6 : AMap Word} (hm : State.Sub 0x50 fs) (h :
  State.Same fs k s) :
    State.Same fs k { s with regs := x4, mem := x6 } :=
  ⟨h.1, h.2, h.3, h.4, hm.hit (i := 4) rfl, h.6, hm.hit (i := 6) rfl, h.8, h.9, h.10, h.11, h.12, h.13, h.14, h.15,
    h.16, h.17, h.18, h.19, h.20, h.21, h.22, h.23, h.24, h.25, h.26, h.27, h.28, h.29, h.30, h.31, h.32, h.33, h.34,
    h.35, h.36, h.37, h.38, h.39, h.40, h.41, h.42, h.43, h.44, h.45⟩

theorem State.Same.upd_108000000080 {fs : Nat} {k s : State} {x7 : Bus} {x39 : LookoutS} {x44 : RstS} (hm : State.Sub
  0x108000000080 fs) (h : State.Same fs k s) :
    State.Same fs k { s with bus := x7, lookout := x39, rst := x44 } :=
  ⟨h.1, h.2, h.3, h.4, h.5, h.6, h.7, hm.hit (i := 7) rfl, h.9, h.10, h.11, h.12, h.13, h.14, h.15, h.16, h.17, h.18,
    h.19, h.20, h.21, h.22, h.23, h.24, h.25, h.26, h.27, h.28, h.29, h.30, h.31, h.32, h.33, h.34, h.35, h.36, h.37,
    h.38, h.39, hm.hit (i := 39) rfl, h.41, h.42, h.43, h.44, hm.hit (i := 44) rfl⟩

theorem State.Same.upd_40 {fs : Nat} {k s : State} {x6 : AMap Word} (hm : State.Sub 0x40 fs) (h : State.Same fs k s)
  :
    State.Same fs k { s with mem := x6 } :=
  ⟨h.1, h.2, h.3, h.4, h.5, h.6, hm.hit (i := 6) rfl, h.8, h.9, h.10, h.11, h.12, h.13, h.14, h.15, h.16, h.17, h.18,
    h.19, h.20, h.21, h.22, h.23, h.24, h.25, h.26, h.27, h.28, h.29, h.30, h.31, h.32, h.33, h.34, h.35, h.36, h.37,
    h.38, h.39, h.40, h.41, h.42, h.43, h.44, h.45⟩

theorem State.Same.upd_80000000 {fs : Nat} {k s : State} {x31 : List (Nat × List Byte)} (hm : State.Sub 0x80000000
  fs) (h : State.Same fs k s) :
    State.Same fs k { s with hitq := x31 } :=
  ⟨h.1, h.2, h.3, h.4, h.5, h.6, h.7, h.8, h.9, h.10, h.11, h.12, h.13, h.14, h.15, h.16, h.17, h.18, h.19, h.20,
    h.21, h.22, h.23, h.24, h.25, h.26, h.27, h.28, h.29, h.30, h.31, hm.hit (i := 31) rfl, h.33, h.34, h.35, h.36,
    h.37, h.38, h.39, h.40, h.41, h.42, h.43, h.44, h.45⟩

theorem State.Same.upd_10 {fs : Nat} {k s : State} {x4 : AMap Word} (hm : State.Sub 0x10 fs) (h : State.Same fs k s)
  :
    State.Same fs k { s with regs := x4 } :=
  ⟨h.1, h.2, h.3, h.4, hm.hit (i := 4) rfl, h.6, h.7, h.8, h.9, h.10, h.11, h.12, h.13, h.14, h.15, h.16, h.17, h.18,
    h.19, h.20, h.21, h.22, h.23, h.24, h.25, h.26, h.27, h.28, h.29, h.30, h.31, h.32, h.33, h.34, h.35, h.36, h.37,
    h.38, h.39, h.40, h.41, h.42, h.43, h.44, h.45⟩

theorem State.Same.upd_8000000000 {fs : Nat} {k s : State} {x39 : LookoutS} (hm : State.Sub 0x8000000000 fs) (h :
  State.Same fs k s) :
    State.Same fs k { s with lookout := x39 } :=
  ⟨h.1, h.2, h.3, h.4, h.5, h.6, h.7, h.8, h.9, h.10, h.11, h.12, h.13, h.14, h.15, h.16, h.17, h.18, h.19, h.20,
    h.21, h.22, h.23, h.24, h.25, h.26, h.27, h.28, h.29, h.30, h.31, h.32, h.33, h.34, h.35, h.36, h.37, h.38, h.39,
    hm.hit (i := 39) rfl, h.41, h.42, h.43, h.44, h.45⟩

theorem State.Same.upd_80000 {fs : Nat} {k s : State} {x19 : Pair DeckS} (hm : State.Sub 0x80000 fs) (h : State.Same
  fs k s) :
    State.Same fs k { s with deck := x19 } :=
  ⟨h.1, h.2, h.3, h.4, h.5, h.6, h.7, h.8, h.9, h.10, h.11, h.12, h.13, h.14, h.15, h.16, h.17, h.18, h.19, hm.hit (i
    := 19) rfl, h.21, h.22, h.23, h.24, h.25, h.26, h.27, h.28, h.29, h.30, h.31, h.32, h.33, h.34, h.35, h.36, h.37,
    h.38, h.39, h.40, h.41, h.42, h.43, h.44, h.45⟩

theorem State.Same.upd_4 {fs : Nat} {k s : State} {x2 : Nat} (hm : State.Sub 0x4 fs) (h : State.Same fs k s) :
    State.Same fs k { s with freeCtr := x2 } :=
  ⟨h.1, h.2, hm.hit (i := 2) rfl, h.4, h.5, h.6, h.7, h.8, h.9, h.10, h.11, h.12, h.13, h.14, h.15, h.16, h.17, h.18,
    h.19, h.20, h.21, h.22, h.23, h.24, h.25, h.26, h.27, h.28, h.29, h.30, h.31, h.32, h.33, h.34, h.35, h.36, h.37,
    h.38, h.39, h.40, h.41, h.42, h.43, h.44, h.45⟩

theorem State.Same.upd_1000000000 {fs : Nat} {k s : State} {x36 : CruiserS} (hm : State.Sub 0x1000000000 fs) (h :
  State.Same fs k s) :
    State.Same fs k { s with cruiser := x36 } :=
  ⟨h.1, h.2, h.3, h.4, h.5, h.6, h.7, h.8, h.9, h.10, h.11, h.12, h.13, h.14, h.15, h.16, h.17, h.18, h.19, h.20,
    h.21, h.22, h.23, h.24, h.25, h.26, h.27, h.28, h.29, h.30, h.31, h.32, h.33, h.34, h.35, h.36, hm.hit (i := 36)
    rfl, h.38, h.39, h.40, h.41, h.42, h.43, h.44, h.45⟩

theorem State.Same.upd_1000 {fs : Nat} {k s : State} {x12 : AMap SpanS} (hm : State.Sub 0x1000 fs) (h : State.Same fs
  k s) :
    State.Same fs k { s with spans := x12 } :=
  ⟨h.1, h.2, h.3, h.4, h.5, h.6, h.7, h.8, h.9, h.10, h.11, h.12, hm.hit (i := 12) rfl, h.14, h.15, h.16, h.17, h.18,
    h.19, h.20, h.21, h.22, h.23, h.24, h.25, h.26, h.27, h.28, h.29, h.30, h.31, h.32, h.33, h.34, h.35, h.36, h.37,
    h.38, h.39, h.40, h.41, h.42, h.43, h.44, h.45⟩

theorem State.Same.upd_1000000002 {fs : Nat} {k s : State} {x1 : Clock} {x36 : CruiserS} (hm : State.Sub 0x1000000002
  fs) (h : State.Same fs k s) :
    State.Same fs k { s with clk := x1, cruiser := x36 } :=
  ⟨h.1, hm.hit (i := 1) rfl, h.3, h.4, h.5, h.6, h.7, h.8, h.9, h.10, h.11, h.12, h.13, h.14, h.15, h.16, h.17, h.18,
    h.19, h.20, h.21, h.22, h.23, h.24, h.25, h.26, h.27, h.28, h.29, h.30, h.31, h.32, h.33, h.34, h.35, h.36,
    hm.hit (i := 36) rfl, h.38, h.39, h.40, h.41, h.42, h.43, h.44, h.45⟩

theorem State.Same.upd_100000000 {fs : Nat} {k s : State} {x32 : Pair MatrixS} (hm : State.Sub 0x100000000 fs) (h :
  State.Same fs k s) :
    State.Same fs k { s with matrix := x32 } :=
  ⟨h.1, h.2, h.3, h.4, h.5, h.6, h.7, h.8, h.9, h.10, h.11, h.12, h.13, h.14, h.15, h.16, h.17, h.18, h.19, h.20,
    h.21, h.22, h.23, h.24, h.25, h.26, h.27, h.28, h.29, h.30, h.31, h.32, hm.hit (i := 32) rfl, h.34, h.35, h.36,
    h.37, h.38, h.39, h.40, h.41, h.42, h.43, h.44, h.45⟩

theorem State.Same.upd_4000000 {fs : Nat} {k s : State} {x26 : AMap MeterS} (hm : State.Sub 0x4000000 fs) (h :
  State.Same fs k s) :
    State.Same fs k { s with meters := x26 } :=
  ⟨h.1, h.2, h.3, h.4, h.5, h.6, h.7, h.8, h.9, h.10, h.11, h.12, h.13, h.14, h.15, h.16, h.17, h.18, h.19, h.20,
    h.21, h.22, h.23, h.24, h.25, h.26, hm.hit (i := 26) rfl, h.28, h.29, h.30, h.31, h.32, h.33, h.34, h.35, h.36,
    h.37, h.38, h.39, h.40, h.41, h.42, h.43, h.44, h.45⟩

theorem State.Same.upd_8000000 {fs : Nat} {k s : State} {x27 : List LateItem} (hm : State.Sub 0x8000000 fs) (h :
  State.Same fs k s) :
    State.Same fs k { s with late := x27 } :=
  ⟨h.1, h.2, h.3, h.4, h.5, h.6, h.7, h.8, h.9, h.10, h.11, h.12, h.13, h.14, h.15, h.16, h.17, h.18, h.19, h.20,
    h.21, h.22, h.23, h.24, h.25, h.26, h.27, hm.hit (i := 27) rfl, h.29, h.30, h.31, h.32, h.33, h.34, h.35, h.36,
    h.37, h.38, h.39, h.40, h.41, h.42, h.43, h.44, h.45⟩

theorem State.Same.upd_200000000 {fs : Nat} {k s : State} {x33 : Pair TallyS} (hm : State.Sub 0x200000000 fs) (h :
  State.Same fs k s) :
    State.Same fs k { s with tally := x33 } :=
  ⟨h.1, h.2, h.3, h.4, h.5, h.6, h.7, h.8, h.9, h.10, h.11, h.12, h.13, h.14, h.15, h.16, h.17, h.18, h.19, h.20,
    h.21, h.22, h.23, h.24, h.25, h.26, h.27, h.28, h.29, h.30, h.31, h.32, h.33, hm.hit (i := 33) rfl, h.35, h.36,
    h.37, h.38, h.39, h.40, h.41, h.42, h.43, h.44, h.45⟩

theorem State.Same.upd_10000000 {fs : Nat} {k s : State} {x28 : List Unsettled} (hm : State.Sub 0x10000000 fs) (h :
  State.Same fs k s) :
    State.Same fs k { s with unsettled := x28 } :=
  ⟨h.1, h.2, h.3, h.4, h.5, h.6, h.7, h.8, h.9, h.10, h.11, h.12, h.13, h.14, h.15, h.16, h.17, h.18, h.19, h.20,
    h.21, h.22, h.23, h.24, h.25, h.26, h.27, h.28, hm.hit (i := 28) rfl, h.30, h.31, h.32, h.33, h.34, h.35, h.36,
    h.37, h.38, h.39, h.40, h.41, h.42, h.43, h.44, h.45⟩

theorem State.Same.upd_2000000 {fs : Nat} {k s : State} {x25 : AMap PfcS} (hm : State.Sub 0x2000000 fs) (h :
  State.Same fs k s) :
    State.Same fs k { s with pfcTx := x25 } :=
  ⟨h.1, h.2, h.3, h.4, h.5, h.6, h.7, h.8, h.9, h.10, h.11, h.12, h.13, h.14, h.15, h.16, h.17, h.18, h.19, h.20,
    h.21, h.22, h.23, h.24, h.25, hm.hit (i := 25) rfl, h.27, h.28, h.29, h.30, h.31, h.32, h.33, h.34, h.35, h.36,
    h.37, h.38, h.39, h.40, h.41, h.42, h.43, h.44, h.45⟩

theorem State.Same.upd_2000 {fs : Nat} {k s : State} {x13 : AMap (Option Frame)} (hm : State.Sub 0x2000 fs) (h :
  State.Same fs k s) :
    State.Same fs k { s with frames := x13 } :=
  ⟨h.1, h.2, h.3, h.4, h.5, h.6, h.7, h.8, h.9, h.10, h.11, h.12, h.13, hm.hit (i := 13) rfl, h.15, h.16, h.17, h.18,
    h.19, h.20, h.21, h.22, h.23, h.24, h.25, h.26, h.27, h.28, h.29, h.30, h.31, h.32, h.33, h.34, h.35, h.36, h.37,
    h.38, h.39, h.40, h.41, h.42, h.43, h.44, h.45⟩

theorem State.Same.upd_800 {fs : Nat} {k s : State} {x11 : AMap PortS} (hm : State.Sub 0x800 fs) (h : State.Same fs k
  s) :
    State.Same fs k { s with ports := x11 } :=
  ⟨h.1, h.2, h.3, h.4, h.5, h.6, h.7, h.8, h.9, h.10, h.11, hm.hit (i := 11) rfl, h.13, h.14, h.15, h.16, h.17, h.18,
    h.19, h.20, h.21, h.22, h.23, h.24, h.25, h.26, h.27, h.28, h.29, h.30, h.31, h.32, h.33, h.34, h.35, h.36, h.37,
    h.38, h.39, h.40, h.41, h.42, h.43, h.44, h.45⟩

theorem State.Same.upd_20000000000 {fs : Nat} {k s : State} {x41 : MramS} (hm : State.Sub 0x20000000000 fs) (h :
  State.Same fs k s) :
    State.Same fs k { s with mram := x41 } :=
  ⟨h.1, h.2, h.3, h.4, h.5, h.6, h.7, h.8, h.9, h.10, h.11, h.12, h.13, h.14, h.15, h.16, h.17, h.18, h.19, h.20,
    h.21, h.22, h.23, h.24, h.25, h.26, h.27, h.28, h.29, h.30, h.31, h.32, h.33, h.34, h.35, h.36, h.37, h.38, h.39,
    h.40, h.41, hm.hit (i := 41) rfl, h.43, h.44, h.45⟩

theorem State.Same.upd_10000000000 {fs : Nat} {k s : State} {x40 : ForesterS} (hm : State.Sub 0x10000000000 fs) (h :
  State.Same fs k s) :
    State.Same fs k { s with forester := x40 } :=
  ⟨h.1, h.2, h.3, h.4, h.5, h.6, h.7, h.8, h.9, h.10, h.11, h.12, h.13, h.14, h.15, h.16, h.17, h.18, h.19, h.20,
    h.21, h.22, h.23, h.24, h.25, h.26, h.27, h.28, h.29, h.30, h.31, h.32, h.33, h.34, h.35, h.36, h.37, h.38, h.39,
    h.40, hm.hit (i := 40) rfl, h.42, h.43, h.44, h.45⟩

theorem State.Same.upd_800000000 {fs : Nat} {k s : State} {x35 : HostS} (hm : State.Sub 0x800000000 fs) (h :
  State.Same fs k s) :
    State.Same fs k { s with host := x35 } :=
  ⟨h.1, h.2, h.3, h.4, h.5, h.6, h.7, h.8, h.9, h.10, h.11, h.12, h.13, h.14, h.15, h.16, h.17, h.18, h.19, h.20,
    h.21, h.22, h.23, h.24, h.25, h.26, h.27, h.28, h.29, h.30, h.31, h.32, h.33, h.34, h.35, hm.hit (i := 35) rfl,
    h.37, h.38, h.39, h.40, h.41, h.42, h.43, h.44, h.45⟩

theorem State.Same.upd_20000000 {fs : Nat} {k s : State} {x29 : Pair WoodS} (hm : State.Sub 0x20000000 fs) (h :
  State.Same fs k s) :
    State.Same fs k { s with wood := x29 } :=
  ⟨h.1, h.2, h.3, h.4, h.5, h.6, h.7, h.8, h.9, h.10, h.11, h.12, h.13, h.14, h.15, h.16, h.17, h.18, h.19, h.20,
    h.21, h.22, h.23, h.24, h.25, h.26, h.27, h.28, h.29, hm.hit (i := 29) rfl, h.31, h.32, h.33, h.34, h.35, h.36,
    h.37, h.38, h.39, h.40, h.41, h.42, h.43, h.44, h.45⟩

theorem State.Same.upd_40000000 {fs : Nat} {k s : State} {x30 : List EastChange} (hm : State.Sub 0x40000000 fs) (h :
  State.Same fs k s) :
    State.Same fs k { s with eastq := x30 } :=
  ⟨h.1, h.2, h.3, h.4, h.5, h.6, h.7, h.8, h.9, h.10, h.11, h.12, h.13, h.14, h.15, h.16, h.17, h.18, h.19, h.20,
    h.21, h.22, h.23, h.24, h.25, h.26, h.27, h.28, h.29, h.30, hm.hit (i := 30) rfl, h.32, h.33, h.34, h.35, h.36,
    h.37, h.38, h.39, h.40, h.41, h.42, h.43, h.44, h.45⟩

theorem State.Same.upd_8 {fs : Nat} {k s : State} {x3 : List Output} (hm : State.Sub 0x8 fs) (h : State.Same fs k s)
  :
    State.Same fs k { s with out := x3 } :=
  ⟨h.1, h.2, h.3, hm.hit (i := 3) rfl, h.5, h.6, h.7, h.8, h.9, h.10, h.11, h.12, h.13, h.14, h.15, h.16, h.17, h.18,
    h.19, h.20, h.21, h.22, h.23, h.24, h.25, h.26, h.27, h.28, h.29, h.30, h.31, h.32, h.33, h.34, h.35, h.36, h.37,
    h.38, h.39, h.40, h.41, h.42, h.43, h.44, h.45⟩

theorem State.Same.upd_40000 {fs : Nat} {k s : State} {x18 : AMap Nat} (hm : State.Sub 0x40000 fs) (h : State.Same fs
  k s) :
    State.Same fs k { s with inflight := x18 } :=
  ⟨h.1, h.2, h.3, h.4, h.5, h.6, h.7, h.8, h.9, h.10, h.11, h.12, h.13, h.14, h.15, h.16, h.17, h.18, hm.hit (i :=
    18) rfl, h.20, h.21, h.22, h.23, h.24, h.25, h.26, h.27, h.28, h.29, h.30, h.31, h.32, h.33, h.34, h.35, h.36,
    h.37, h.38, h.39, h.40, h.41, h.42, h.43, h.44, h.45⟩

theorem State.Same.upd_200 {fs : Nat} {k s : State} {x9 : AMap LaneS} (hm : State.Sub 0x200 fs) (h : State.Same fs k
  s) :
    State.Same fs k { s with lanes := x9 } :=
  ⟨h.1, h.2, h.3, h.4, h.5, h.6, h.7, h.8, h.9, hm.hit (i := 9) rfl, h.11, h.12, h.13, h.14, h.15, h.16, h.17, h.18,
    h.19, h.20, h.21, h.22, h.23, h.24, h.25, h.26, h.27, h.28, h.29, h.30, h.31, h.32, h.33, h.34, h.35, h.36, h.37,
    h.38, h.39, h.40, h.41, h.42, h.43, h.44, h.45⟩

theorem State.Same.upd_8000 {fs : Nat} {k s : State} {x15 : AMap SliceS} (hm : State.Sub 0x8000 fs) (h : State.Same
  fs k s) :
    State.Same fs k { s with slices := x15 } :=
  ⟨h.1, h.2, h.3, h.4, h.5, h.6, h.7, h.8, h.9, h.10, h.11, h.12, h.13, h.14, h.15, hm.hit (i := 15) rfl, h.17, h.18,
    h.19, h.20, h.21, h.22, h.23, h.24, h.25, h.26, h.27, h.28, h.29, h.30, h.31, h.32, h.33, h.34, h.35, h.36, h.37,
    h.38, h.39, h.40, h.41, h.42, h.43, h.44, h.45⟩

theorem State.Same.upd_80 {fs : Nat} {k s : State} {x7 : Bus} (hm : State.Sub 0x80 fs) (h : State.Same fs k s) :
    State.Same fs k { s with bus := x7 } :=
  ⟨h.1, h.2, h.3, h.4, h.5, h.6, h.7, hm.hit (i := 7) rfl, h.9, h.10, h.11, h.12, h.13, h.14, h.15, h.16, h.17, h.18,
    h.19, h.20, h.21, h.22, h.23, h.24, h.25, h.26, h.27, h.28, h.29, h.30, h.31, h.32, h.33, h.34, h.35, h.36, h.37,
    h.38, h.39, h.40, h.41, h.42, h.43, h.44, h.45⟩

theorem State.Same.upd_1000000 {fs : Nat} {k s : State} {x24 : AMap SchedS} (hm : State.Sub 0x1000000 fs) (h :
  State.Same fs k s) :
    State.Same fs k { s with sched := x24 } :=
  ⟨h.1, h.2, h.3, h.4, h.5, h.6, h.7, h.8, h.9, h.10, h.11, h.12, h.13, h.14, h.15, h.16, h.17, h.18, h.19, h.20,
    h.21, h.22, h.23, h.24, hm.hit (i := 24) rfl, h.26, h.27, h.28, h.29, h.30, h.31, h.32, h.33, h.34, h.35, h.36,
    h.37, h.38, h.39, h.40, h.41, h.42, h.43, h.44, h.45⟩

theorem State.Same.upd_800000 {fs : Nat} {k s : State} {x23 : AMap Bucket} (hm : State.Sub 0x800000 fs) (h :
  State.Same fs k s) :
    State.Same fs k { s with qbucket := x23 } :=
  ⟨h.1, h.2, h.3, h.4, h.5, h.6, h.7, h.8, h.9, h.10, h.11, h.12, h.13, h.14, h.15, h.16, h.17, h.18, h.19, h.20,
    h.21, h.22, h.23, hm.hit (i := 23) rfl, h.25, h.26, h.27, h.28, h.29, h.30, h.31, h.32, h.33, h.34, h.35, h.36,
    h.37, h.38, h.39, h.40, h.41, h.42, h.43, h.44, h.45⟩

theorem State.Same.upd_400 {fs : Nat} {k s : State} {x10 : AMap MacroS} (hm : State.Sub 0x400 fs) (h : State.Same fs
  k s) :
    State.Same fs k { s with macros := x10 } :=
  ⟨h.1, h.2, h.3, h.4, h.5, h.6, h.7, h.8, h.9, h.10, hm.hit (i := 10) rfl, h.12, h.13, h.14, h.15, h.16, h.17, h.18,
    h.19, h.20, h.21, h.22, h.23, h.24, h.25, h.26, h.27, h.28, h.29, h.30, h.31, h.32, h.33, h.34, h.35, h.36, h.37,
    h.38, h.39, h.40, h.41, h.42, h.43, h.44, h.45⟩

theorem State.Same.upd_200000 {fs : Nat} {k s : State} {x21 : AMap (List Nat)} (hm : State.Sub 0x200000 fs) (h :
  State.Same fs k s) :
    State.Same fs k { s with queues := x21 } :=
  ⟨h.1, h.2, h.3, h.4, h.5, h.6, h.7, h.8, h.9, h.10, h.11, h.12, h.13, h.14, h.15, h.16, h.17, h.18, h.19, h.20,
    h.21, hm.hit (i := 21) rfl, h.23, h.24, h.25, h.26, h.27, h.28, h.29, h.30, h.31, h.32, h.33, h.34, h.35, h.36,
    h.37, h.38, h.39, h.40, h.41, h.42, h.43, h.44, h.45⟩

theorem State.Same.upd_400000 {fs : Nat} {k s : State} {x22 : AMap Int} (hm : State.Sub 0x400000 fs) (h : State.Same
  fs k s) :
    State.Same fs k { s with deficit := x22 } :=
  ⟨h.1, h.2, h.3, h.4, h.5, h.6, h.7, h.8, h.9, h.10, h.11, h.12, h.13, h.14, h.15, h.16, h.17, h.18, h.19, h.20,
    h.21, h.22, hm.hit (i := 22) rfl, h.24, h.25, h.26, h.27, h.28, h.29, h.30, h.31, h.32, h.33, h.34, h.35, h.36,
    h.37, h.38, h.39, h.40, h.41, h.42, h.43, h.44, h.45⟩

theorem State.Same.upd_c00000 {fs : Nat} {k s : State} {x22 : AMap Int} {x23 : AMap Bucket} (hm : State.Sub 0xc00000
  fs) (h : State.Same fs k s) :
    State.Same fs k { s with deficit := x22, qbucket := x23 } :=
  ⟨h.1, h.2, h.3, h.4, h.5, h.6, h.7, h.8, h.9, h.10, h.11, h.12, h.13, h.14, h.15, h.16, h.17, h.18, h.19, h.20,
    h.21, h.22, hm.hit (i := 22) rfl, hm.hit (i := 23) rfl, h.25, h.26, h.27, h.28, h.29, h.30, h.31, h.32, h.33,
    h.34, h.35, h.36, h.37, h.38, h.39, h.40, h.41, h.42, h.43, h.44, h.45⟩

theorem State.Same.upd_4000000000 {fs : Nat} {k s : State} {x38 : RaftS} (hm : State.Sub 0x4000000000 fs) (h :
  State.Same fs k s) :
    State.Same fs k { s with raft := x38 } :=
  ⟨h.1, h.2, h.3, h.4, h.5, h.6, h.7, h.8, h.9, h.10, h.11, h.12, h.13, h.14, h.15, h.16, h.17, h.18, h.19, h.20,
    h.21, h.22, h.23, h.24, h.25, h.26, h.27, h.28, h.29, h.30, h.31, h.32, h.33, h.34, h.35, h.36, h.37, h.38,
    hm.hit (i := 38) rfl, h.40, h.41, h.42, h.43, h.44, h.45⟩

theorem State.Same.upd_400000000 {fs : Nat} {k s : State} {x34 : Pair HbmS} (hm : State.Sub 0x400000000 fs) (h :
  State.Same fs k s) :
    State.Same fs k { s with hbm := x34 } :=
  ⟨h.1, h.2, h.3, h.4, h.5, h.6, h.7, h.8, h.9, h.10, h.11, h.12, h.13, h.14, h.15, h.16, h.17, h.18, h.19, h.20,
    h.21, h.22, h.23, h.24, h.25, h.26, h.27, h.28, h.29, h.30, h.31, h.32, h.33, h.34, hm.hit (i := 34) rfl, h.36,
    h.37, h.38, h.39, h.40, h.41, h.42, h.43, h.44, h.45⟩

theorem State.Same.upd_100000 {fs : Nat} {k s : State} {x20 : Pair PathS} (hm : State.Sub 0x100000 fs) (h :
  State.Same fs k s) :
    State.Same fs k { s with path := x20 } :=
  ⟨h.1, h.2, h.3, h.4, h.5, h.6, h.7, h.8, h.9, h.10, h.11, h.12, h.13, h.14, h.15, h.16, h.17, h.18, h.19, h.20,
    hm.hit (i := 20) rfl, h.22, h.23, h.24, h.25, h.26, h.27, h.28, h.29, h.30, h.31, h.32, h.33, h.34, h.35, h.36,
    h.37, h.38, h.39, h.40, h.41, h.42, h.43, h.44, h.45⟩

theorem State.Same.upd_20 {fs : Nat} {k s : State} {x5 : AMap Word} (hm : State.Sub 0x20 fs) (h : State.Same fs k s)
  :
    State.Same fs k { s with selRegs := x5 } :=
  ⟨h.1, h.2, h.3, h.4, h.5, hm.hit (i := 5) rfl, h.7, h.8, h.9, h.10, h.11, h.12, h.13, h.14, h.15, h.16, h.17, h.18,
    h.19, h.20, h.21, h.22, h.23, h.24, h.25, h.26, h.27, h.28, h.29, h.30, h.31, h.32, h.33, h.34, h.35, h.36, h.37,
    h.38, h.39, h.40, h.41, h.42, h.43, h.44, h.45⟩

theorem State.Same.upd_20000 {fs : Nat} {k s : State} {x17 : RingSys} (hm : State.Sub 0x20000 fs) (h : State.Same fs
  k s) :
    State.Same fs k { s with rings := x17 } :=
  ⟨h.1, h.2, h.3, h.4, h.5, h.6, h.7, h.8, h.9, h.10, h.11, h.12, h.13, h.14, h.15, h.16, h.17, hm.hit (i := 17) rfl,
    h.19, h.20, h.21, h.22, h.23, h.24, h.25, h.26, h.27, h.28, h.29, h.30, h.31, h.32, h.33, h.34, h.35, h.36, h.37,
    h.38, h.39, h.40, h.41, h.42, h.43, h.44, h.45⟩

theorem State.Same.upd_6000 {fs : Nat} {k s : State} {x13 : AMap (Option Frame)} {x14 : Nat} (hm : State.Sub 0x6000
  fs) (h : State.Same fs k s) :
    State.Same fs k { s with frames := x13, nextFrame := x14 } :=
  ⟨h.1, h.2, h.3, h.4, h.5, h.6, h.7, h.8, h.9, h.10, h.11, h.12, h.13, hm.hit (i := 13) rfl, hm.hit (i := 14) rfl,
    h.16, h.17, h.18, h.19, h.20, h.21, h.22, h.23, h.24, h.25, h.26, h.27, h.28, h.29, h.30, h.31, h.32, h.33, h.34,
    h.35, h.36, h.37, h.38, h.39, h.40, h.41, h.42, h.43, h.44, h.45⟩

theorem State.Same.upd_10000 {fs : Nat} {k s : State} {x16 : AMap (Nat × Nat × Nat)} (hm : State.Sub 0x10000 fs) (h :
  State.Same fs k s) :
    State.Same fs k { s with mcast := x16 } :=
  ⟨h.1, h.2, h.3, h.4, h.5, h.6, h.7, h.8, h.9, h.10, h.11, h.12, h.13, h.14, h.15, h.16, hm.hit (i := 16) rfl, h.18,
    h.19, h.20, h.21, h.22, h.23, h.24, h.25, h.26, h.27, h.28, h.29, h.30, h.31, h.32, h.33, h.34, h.35, h.36, h.37,
    h.38, h.39, h.40, h.41, h.42, h.43, h.44, h.45⟩

theorem State.Same.upd_4000000100 {fs : Nat} {k s : State} {x8 : Bool} {x38 : RaftS} (hm : State.Sub 0x4000000100 fs)
  (h : State.Same fs k s) :
    State.Same fs k { s with flumeUp := x8, raft := x38 } :=
  ⟨h.1, h.2, h.3, h.4, h.5, h.6, h.7, h.8, hm.hit (i := 8) rfl, h.10, h.11, h.12, h.13, h.14, h.15, h.16, h.17, h.18,
    h.19, h.20, h.21, h.22, h.23, h.24, h.25, h.26, h.27, h.28, h.29, h.30, h.31, h.32, h.33, h.34, h.35, h.36, h.37,
    h.38, hm.hit (i := 38) rfl, h.40, h.41, h.42, h.43, h.44, h.45⟩

theorem State.Same.upd_1bfffffffff2 {fs : Nat} {k s : State} {x1 : Clock} {x4 : AMap Word} {x5 : AMap Word} {x6 :
  AMap Word} {x7 : Bus} {x8 : Bool} {x9 : AMap LaneS} {x10 : AMap MacroS} {x11 : AMap PortS} {x12 : AMap SpanS} {x13
  : AMap (Option Frame)} {x14 : Nat} {x15 : AMap SliceS} {x16 : AMap (Nat × Nat × Nat)} {x17 : RingSys} {x18 : AMap
  Nat} {x19 : Pair DeckS} {x20 : Pair PathS} {x21 : AMap (List Nat)} {x22 : AMap Int} {x23 : AMap Bucket} {x24 : AMap
  SchedS} {x25 : AMap PfcS} {x26 : AMap MeterS} {x27 : List LateItem} {x28 : List Unsettled} {x29 : Pair WoodS} {x30
  : List EastChange} {x31 : List (Nat × List Byte)} {x32 : Pair MatrixS} {x33 : Pair TallyS} {x34 : Pair HbmS} {x35 :
  HostS} {x36 : CruiserS} {x37 : FireS} {x38 : RaftS} {x39 : LookoutS} {x40 : ForesterS} {x41 : MramS} {x43 : Option
  Nat} {x44 : RstS} (hm : State.Sub 0x1bfffffffff2 fs) (h : State.Same fs k s) :
    State.Same fs k { s with
      clk := x1, regs := x4, selRegs := x5, mem := x6, bus := x7, flumeUp := x8, lanes := x9, macros := x10
      ports := x11, spans := x12, frames := x13, nextFrame := x14, slices := x15, mcast := x16, rings := x17
      inflight := x18, deck := x19, path := x20, queues := x21, deficit := x22, qbucket := x23, sched := x24
      pfcTx := x25, meters := x26, late := x27, unsettled := x28, wood := x29, eastq := x30, hitq := x31
      matrix := x32, tally := x33, hbm := x34, host := x35, cruiser := x36, fire := x37, raft := x38
      lookout := x39, forester := x40, mram := x41, ppsHigh := x43, rst := x44 } :=
  ⟨h.1, hm.hit (i := 1) rfl, h.3, h.4, hm.hit (i := 4) rfl, hm.hit (i := 5) rfl, hm.hit (i := 6) rfl, hm.hit (i := 7)
    rfl, hm.hit (i := 8) rfl, hm.hit (i := 9) rfl, hm.hit (i := 10) rfl, hm.hit (i := 11) rfl, hm.hit (i := 12) rfl,
    hm.hit (i := 13) rfl, hm.hit (i := 14) rfl, hm.hit (i := 15) rfl, hm.hit (i := 16) rfl, hm.hit (i := 17) rfl,
    hm.hit (i := 18) rfl, hm.hit (i := 19) rfl, hm.hit (i := 20) rfl, hm.hit (i := 21) rfl, hm.hit (i := 22) rfl,
    hm.hit (i := 23) rfl, hm.hit (i := 24) rfl, hm.hit (i := 25) rfl, hm.hit (i := 26) rfl, hm.hit (i := 27) rfl,
    hm.hit (i := 28) rfl, hm.hit (i := 29) rfl, hm.hit (i := 30) rfl, hm.hit (i := 31) rfl, hm.hit (i := 32) rfl,
    hm.hit (i := 33) rfl, hm.hit (i := 34) rfl, hm.hit (i := 35) rfl, hm.hit (i := 36) rfl, hm.hit (i := 37) rfl,
    hm.hit (i := 38) rfl, hm.hit (i := 39) rfl, hm.hit (i := 40) rfl, hm.hit (i := 41) rfl, h.43, hm.hit (i := 43)
    rfl, hm.hit (i := 44) rfl⟩

theorem State.Same.upd_2000000000 {fs : Nat} {k s : State} {x37 : FireS} (hm : State.Sub 0x2000000000 fs) (h :
  State.Same fs k s) :
    State.Same fs k { s with fire := x37 } :=
  ⟨h.1, h.2, h.3, h.4, h.5, h.6, h.7, h.8, h.9, h.10, h.11, h.12, h.13, h.14, h.15, h.16, h.17, h.18, h.19, h.20,
    h.21, h.22, h.23, h.24, h.25, h.26, h.27, h.28, h.29, h.30, h.31, h.32, h.33, h.34, h.35, h.36, h.37, hm.hit (i
    := 37) rfl, h.39, h.40, h.41, h.42, h.43, h.44, h.45⟩

theorem State.Same.upd_40000000004 {fs : Nat} {k s : State} {x2 : Nat} {x42 : FuseS} (hm : State.Sub 0x40000000004
  fs) (h : State.Same fs k s) :
    State.Same fs k { s with freeCtr := x2, fuses := x42 } :=
  ⟨h.1, h.2, hm.hit (i := 2) rfl, h.4, h.5, h.6, h.7, h.8, h.9, h.10, h.11, h.12, h.13, h.14, h.15, h.16, h.17, h.18,
    h.19, h.20, h.21, h.22, h.23, h.24, h.25, h.26, h.27, h.28, h.29, h.30, h.31, h.32, h.33, h.34, h.35, h.36, h.37,
    h.38, h.39, h.40, h.41, h.42, hm.hit (i := 42) rfl, h.44, h.45⟩

theorem State.Same.upd_50000000000 {fs : Nat} {k s : State} {x40 : ForesterS} {x42 : FuseS} (hm : State.Sub
  0x50000000000 fs) (h : State.Same fs k s) :
    State.Same fs k { s with forester := x40, fuses := x42 } :=
  ⟨h.1, h.2, h.3, h.4, h.5, h.6, h.7, h.8, h.9, h.10, h.11, h.12, h.13, h.14, h.15, h.16, h.17, h.18, h.19, h.20,
    h.21, h.22, h.23, h.24, h.25, h.26, h.27, h.28, h.29, h.30, h.31, h.32, h.33, h.34, h.35, h.36, h.37, h.38, h.39,
    h.40, hm.hit (i := 40) rfl, h.42, hm.hit (i := 42) rfl, h.44, h.45⟩

theorem State.Same.upd_110000000000 {fs : Nat} {k s : State} {x40 : ForesterS} {x44 : RstS} (hm : State.Sub
  0x110000000000 fs) (h : State.Same fs k s) :
    State.Same fs k { s with forester := x40, rst := x44 } :=
  ⟨h.1, h.2, h.3, h.4, h.5, h.6, h.7, h.8, h.9, h.10, h.11, h.12, h.13, h.14, h.15, h.16, h.17, h.18, h.19, h.20,
    h.21, h.22, h.23, h.24, h.25, h.26, h.27, h.28, h.29, h.30, h.31, h.32, h.33, h.34, h.35, h.36, h.37, h.38, h.39,
    h.40, hm.hit (i := 40) rfl, h.42, h.43, h.44, hm.hit (i := 44) rfl⟩

theorem State.Same.upd_100000000080 {fs : Nat} {k s : State} {x7 : Bus} {x44 : RstS} (hm : State.Sub 0x100000000080
  fs) (h : State.Same fs k s) :
    State.Same fs k { s with bus := x7, rst := x44 } :=
  ⟨h.1, h.2, h.3, h.4, h.5, h.6, h.7, hm.hit (i := 7) rfl, h.9, h.10, h.11, h.12, h.13, h.14, h.15, h.16, h.17, h.18,
    h.19, h.20, h.21, h.22, h.23, h.24, h.25, h.26, h.27, h.28, h.29, h.30, h.31, h.32, h.33, h.34, h.35, h.36, h.37,
    h.38, h.39, h.40, h.41, h.42, h.43, h.44, hm.hit (i := 44) rfl⟩

theorem State.Same.upd_30 {fs : Nat} {k s : State} {x4 : AMap Word} {x5 : AMap Word} (hm : State.Sub 0x30 fs) (h :
  State.Same fs k s) :
    State.Same fs k { s with regs := x4, selRegs := x5 } :=
  ⟨h.1, h.2, h.3, h.4, hm.hit (i := 4) rfl, hm.hit (i := 5) rfl, h.7, h.8, h.9, h.10, h.11, h.12, h.13, h.14, h.15,
    h.16, h.17, h.18, h.19, h.20, h.21, h.22, h.23, h.24, h.25, h.26, h.27, h.28, h.29, h.30, h.31, h.32, h.33, h.34,
    h.35, h.36, h.37, h.38, h.39, h.40, h.41, h.42, h.43, h.44, h.45⟩

theorem State.Same.upd_c000000100 {fs : Nat} {k s : State} {x8 : Bool} {x38 : RaftS} {x39 : LookoutS} (hm : State.Sub
  0xc000000100 fs) (h : State.Same fs k s) :
    State.Same fs k { s with flumeUp := x8, raft := x38, lookout := x39 } :=
  ⟨h.1, h.2, h.3, h.4, h.5, h.6, h.7, h.8, hm.hit (i := 8) rfl, h.10, h.11, h.12, h.13, h.14, h.15, h.16, h.17, h.18,
    h.19, h.20, h.21, h.22, h.23, h.24, h.25, h.26, h.27, h.28, h.29, h.30, h.31, h.32, h.33, h.34, h.35, h.36, h.37,
    h.38, hm.hit (i := 38) rfl, hm.hit (i := 39) rfl, h.41, h.42, h.43, h.44, h.45⟩

theorem State.Same.upd_104000000000 {fs : Nat} {k s : State} {x38 : RaftS} {x44 : RstS} (hm : State.Sub
  0x104000000000 fs) (h : State.Same fs k s) :
    State.Same fs k { s with raft := x38, rst := x44 } :=
  ⟨h.1, h.2, h.3, h.4, h.5, h.6, h.7, h.8, h.9, h.10, h.11, h.12, h.13, h.14, h.15, h.16, h.17, h.18, h.19, h.20,
    h.21, h.22, h.23, h.24, h.25, h.26, h.27, h.28, h.29, h.30, h.31, h.32, h.33, h.34, h.35, h.36, h.37, h.38,
    hm.hit (i := 38) rfl, h.40, h.41, h.42, h.43, h.44, hm.hit (i := 44) rfl⟩

theorem State.Same.upd_100000000004 {fs : Nat} {k s : State} {x2 : Nat} {x44 : RstS} (hm : State.Sub 0x100000000004
  fs) (h : State.Same fs k s) :
    State.Same fs k { s with freeCtr := x2, rst := x44 } :=
  ⟨h.1, h.2, hm.hit (i := 2) rfl, h.4, h.5, h.6, h.7, h.8, h.9, h.10, h.11, h.12, h.13, h.14, h.15, h.16, h.17, h.18,
    h.19, h.20, h.21, h.22, h.23, h.24, h.25, h.26, h.27, h.28, h.29, h.30, h.31, h.32, h.33, h.34, h.35, h.36, h.37,
    h.38, h.39, h.40, h.41, h.42, h.43, h.44, hm.hit (i := 44) rfl⟩

theorem State.Same.upd_10000020000 {fs : Nat} {k s : State} {x17 : RingSys} {x40 : ForesterS} (hm : State.Sub
  0x10000020000 fs) (h : State.Same fs k s) :
    State.Same fs k { s with rings := x17, forester := x40 } :=
  ⟨h.1, h.2, h.3, h.4, h.5, h.6, h.7, h.8, h.9, h.10, h.11, h.12, h.13, h.14, h.15, h.16, h.17, hm.hit (i := 17) rfl,
    h.19, h.20, h.21, h.22, h.23, h.24, h.25, h.26, h.27, h.28, h.29, h.30, h.31, h.32, h.33, h.34, h.35, h.36, h.37,
    h.38, h.39, h.40, hm.hit (i := 40) rfl, h.42, h.43, h.44, h.45⟩

theorem State.Same.upd_2 {fs : Nat} {k s : State} {x1 : Clock} (hm : State.Sub 0x2 fs) (h : State.Same fs k s) :
    State.Same fs k { s with clk := x1 } :=
  ⟨h.1, hm.hit (i := 1) rfl, h.3, h.4, h.5, h.6, h.7, h.8, h.9, h.10, h.11, h.12, h.13, h.14, h.15, h.16, h.17, h.18,
    h.19, h.20, h.21, h.22, h.23, h.24, h.25, h.26, h.27, h.28, h.29, h.30, h.31, h.32, h.33, h.34, h.35, h.36, h.37,
    h.38, h.39, h.40, h.41, h.42, h.43, h.44, h.45⟩

theorem State.Same.upd_40000000000 {fs : Nat} {k s : State} {x42 : FuseS} (hm : State.Sub 0x40000000000 fs) (h :
  State.Same fs k s) :
    State.Same fs k { s with fuses := x42 } :=
  ⟨h.1, h.2, h.3, h.4, h.5, h.6, h.7, h.8, h.9, h.10, h.11, h.12, h.13, h.14, h.15, h.16, h.17, h.18, h.19, h.20,
    h.21, h.22, h.23, h.24, h.25, h.26, h.27, h.28, h.29, h.30, h.31, h.32, h.33, h.34, h.35, h.36, h.37, h.38, h.39,
    h.40, h.41, h.42, hm.hit (i := 42) rfl, h.44, h.45⟩

theorem State.Same.upd_2000020800 {fs : Nat} {k s : State} {x11 : AMap PortS} {x17 : RingSys} {x37 : FireS} (hm :
  State.Sub 0x2000020800 fs) (h : State.Same fs k s) :
    State.Same fs k { s with ports := x11, rings := x17, fire := x37 } :=
  ⟨h.1, h.2, h.3, h.4, h.5, h.6, h.7, h.8, h.9, h.10, h.11, hm.hit (i := 11) rfl, h.13, h.14, h.15, h.16, h.17,
    hm.hit (i := 17) rfl, h.19, h.20, h.21, h.22, h.23, h.24, h.25, h.26, h.27, h.28, h.29, h.30, h.31, h.32, h.33,
    h.34, h.35, h.36, h.37, hm.hit (i := 37) rfl, h.39, h.40, h.41, h.42, h.43, h.44, h.45⟩

theorem State.Same.upd_60000000000 {fs : Nat} {k s : State} {x41 : MramS} {x42 : FuseS} (hm : State.Sub 0x60000000000
  fs) (h : State.Same fs k s) :
    State.Same fs k { s with mram := x41, fuses := x42 } :=
  ⟨h.1, h.2, h.3, h.4, h.5, h.6, h.7, h.8, h.9, h.10, h.11, h.12, h.13, h.14, h.15, h.16, h.17, h.18, h.19, h.20,
    h.21, h.22, h.23, h.24, h.25, h.26, h.27, h.28, h.29, h.30, h.31, h.32, h.33, h.34, h.35, h.36, h.37, h.38, h.39,
    h.40, h.41, hm.hit (i := 41) rfl, hm.hit (i := 42) rfl, h.44, h.45⟩

theorem State.Same.upd_80000000000 {fs : Nat} {k s : State} {x43 : Option Nat} (hm : State.Sub 0x80000000000 fs) (h :
  State.Same fs k s) :
    State.Same fs k { s with ppsHigh := x43 } :=
  ⟨h.1, h.2, h.3, h.4, h.5, h.6, h.7, h.8, h.9, h.10, h.11, h.12, h.13, h.14, h.15, h.16, h.17, h.18, h.19, h.20,
    h.21, h.22, h.23, h.24, h.25, h.26, h.27, h.28, h.29, h.30, h.31, h.32, h.33, h.34, h.35, h.36, h.37, h.38, h.39,
    h.40, h.41, h.42, h.43, hm.hit (i := 43) rfl, h.45⟩

end Sys2Proof.Machine
end

