-- ==== Sys2Proof/Laws/SameShared.lean ====
section
/-! SUPPORT. State.Same, one lemma for each function of the state: the shared operations, the data path, the rings, the table and Kerf operations and time. -/

namespace Sys2Proof.Machine

/-! ### Ops -/

theorem State.setMemW_same {fs : Nat} {k : State} (hm : State.Sub 0x40 fs) (s : State) (p : Nat) (sel : Nat) (a :
  Nat) (v : Word) (hs : State.Same fs k s) : State.Same fs k (State.setMemW s p sel a v) := by
  unfold State.setMemW
  try dsimp only
  with_reducible repeat' first
    | assumption | exact State.Sub.of rfl hm | intro _ _ | split | dsimp only | refine State.Same.upd_40 ?_ ?_

theorem State.setReg_same {fs : Nat} {k : State} (hm : State.Sub 0x10 fs) (s : State) (p : Nat) (o : Nat) (v : Word)
  (hs : State.Same fs k s) : State.Same fs k (State.setReg s p o v) := by
  unfold State.setReg
  try dsimp only
  with_reducible repeat' first
    | assumption | exact State.Sub.of rfl hm | intro _ _ | split | dsimp only | refine State.Same.upd_10 ?_ ?_

theorem State.count_same {fs : Nat} {k : State} (hm : State.Sub 0x10 fs) (s : State) (p : Nat) (o : Nat) (n : Nat)
  (hs : State.Same fs k s) : State.Same fs k (State.count s p o n) := by
  unfold State.count
  try dsimp only
  with_reducible repeat' first
    | assumption | exact State.Sub.of rfl hm | apply State.setReg_same | intro _ _ | split | dsimp only

theorem State.missRise_same {fs : Nat} {k : State} (hm : State.Sub 0x8000000000 fs) (s : State) (n : Nat) (hs :
  State.Same fs k s) : State.Same fs k (State.missRise s n) := by
  unfold State.missRise
  try dsimp only
  with_reducible repeat' first
    | assumption | exact State.Sub.of rfl hm | intro _ _ | split | dsimp only | refine State.Same.upd_8000000000 ?_ ?_

theorem State.enqueueMsg_same {fs : Nat} {k : State} (hm : State.Sub 0x8000000000 fs) {s : State} {m : Message} {rr :
  State} (ht : State.enqueueMsg s m = some rr) (hs : State.Same fs k s) : State.Same fs k rr := by
  unfold State.enqueueMsg at ht
  dsimp only at ht
  repeat' (split at ht)
  all_goals (first | contradiction | skip)
  all_goals (try (cases ht))
  all_goals
    with_reducible repeat' first
      | assumption | exact State.Sub.of rfl hm | intro _ _ | split | dsimp only | refine State.Same.upd_8000000000 ?_ ?_

theorem State.msgLost_same {fs : Nat} {k : State} (hm : State.Sub 0x8000000010 fs) (s : State) (hs : State.Same fs k
  s) : State.Same fs k (State.msgLost s) := by
  unfold State.msgLost
  try dsimp only
  with_reducible repeat' first
    | assumption | exact State.Sub.of rfl hm | apply State.missRise_same
    | refine State.enqueueMsg_same ?_ (by assumption) ?_ | apply State.setReg_same | apply State.count_same | intro _ _
    | split | dsimp only

theorem State.sendOn_same {fs : Nat} {k : State} (hm : State.Sub 0x8000000010 fs) (s : State) (m : Message) (rose :
  Bool) (hs : State.Same fs k s) : State.Same fs k (State.sendOn s m rose) := by
  unfold State.sendOn
  try dsimp only
  with_reducible repeat' first
    | assumption | exact State.Sub.of rfl hm | apply State.missRise_same | apply State.msgLost_same
    | refine State.enqueueMsg_same ?_ (by assumption) ?_ | intro _ _ | split | dsimp only

theorem State.sendRises_same {fs : Nat} {k : State} (hm : State.Sub 0x8000000010 fs) (s : State) (p : Nat) (old :
  Word) (info : Word) (x4 : List Nat) (hs : State.Same fs k s) : State.Same fs k (State.sendRises s p old info x4) := by
  induction x4 generalizing s p old info with
  | nil =>
    unfold State.sendRises
    try dsimp only
    with_reducible repeat' first
      | assumption | exact State.Sub.of rfl hm | apply State.sendOn_same | intro _ _ | split | dsimp only
  | cons a l ih =>
    unfold State.sendRises
    try dsimp only
    with_reducible repeat' first
      | assumption | exact State.Sub.of rfl hm | apply ih | apply State.sendOn_same | intro _ _ | split | dsimp only

theorem State.raiseAll_same {fs : Nat} {k : State} (hm : State.Sub 0x8000000010 fs) (s : State) (p : Nat) (bits :
  List Nat) (info : Word) (hs : State.Same fs k s) : State.Same fs k (State.raiseAll s p bits info) := by
  unfold State.raiseAll
  try dsimp only
  with_reducible repeat' first
    | assumption | exact State.Sub.of rfl hm | apply State.sendRises_same | apply State.setReg_same | intro _ _ | split
    | dsimp only

theorem State.raise_same {fs : Nat} {k : State} (hm : State.Sub 0x8000000010 fs) (s : State) (p : Nat) (i : Nat) (hs
  : State.Same fs k s) : State.Same fs k (State.raise s p i) := by
  unfold State.raise
  try dsimp only
  with_reducible repeat' first
    | assumption | exact State.Sub.of rfl hm | apply State.raiseAll_same | intro _ _ | split | dsimp only

theorem State.setDeck_same {fs : Nat} {k : State} (hm : State.Sub 0x80000 fs) (s : State) (x1 : Nat) (x : DeckS) (hs
  : State.Same fs k s) : State.Same fs k (State.setDeck s x1 x) := by
  unfold State.setDeck
  try dsimp only
  with_reducible repeat' first
    | assumption | exact State.Sub.of rfl hm | intro _ _ | split | dsimp only | refine State.Same.upd_80000 ?_ ?_

theorem State.onlyIf_same {fs : Nat} {k : State} (hm : State.Sub 0x0 fs) (s : State) (b : Bool) (f : State → State)
  (hs : State.Same fs k s) (hf : ∀ s, State.Same fs k s → State.Same fs k (f s)) : State.Same fs k (State.onlyIf s b
  f) := by
  unfold State.onlyIf
  try dsimp only
  with_reducible repeat' first
    | assumption | apply hf | exact State.Sub.of rfl hm | intro _ _ | split | dsimp only

theorem State.setRf_same {fs : Nat} {k : State} (hm : State.Sub 0x10 fs) (s : State) (p : Nat) (o : Nat) (lo : Nat)
  (n : Nat) (x : Nat) (hs : State.Same fs k s) : State.Same fs k (State.setRf s p o lo n x) := by
  unfold State.setRf
  try dsimp only
  with_reducible repeat' first
    | assumption | exact State.Sub.of rfl hm | apply State.setReg_same | intro _ _ | split | dsimp only

theorem State.raiseIf_same {fs : Nat} {k : State} (hm : State.Sub 0x8000000010 fs) (s : State) (b : Bool) (p : Nat)
  (i : Nat) (hs : State.Same fs k s) : State.Same fs k (State.raiseIf s b p i) := by
  unfold State.raiseIf
  try dsimp only
  with_reducible repeat' first
    | assumption | exact State.Sub.of rfl hm | apply State.raise_same | intro _ _ | split | dsimp only

theorem State.drawn_same {fs : Nat} {k : State} (hm : State.Sub 0x4 fs) (s : State) (hs : State.Same fs k s) :
  State.Same fs k (State.drawn s) := by
  unfold State.drawn
  try dsimp only
  with_reducible repeat' first
    | assumption | exact State.Sub.of rfl hm | intro _ _ | split | dsimp only | refine State.Same.upd_4 ?_ ?_

theorem State.setSpan_same {fs : Nat} {k : State} (hm : State.Sub 0x1000 fs) (s : State) (q : Nat) (x : SpanS) (hs :
  State.Same fs k s) : State.Same fs k (State.setSpan s q x) := by
  unfold State.setSpan
  try dsimp only
  with_reducible repeat' first
    | assumption | exact State.Sub.of rfl hm | intro _ _ | split | dsimp only | refine State.Same.upd_1000 ?_ ?_

theorem State.setMatrix_same {fs : Nat} {k : State} (hm : State.Sub 0x100000000 fs) (s : State) (x1 : Nat) (x :
  MatrixS) (hs : State.Same fs k s) : State.Same fs k (State.setMatrix s x1 x) := by
  unfold State.setMatrix
  try dsimp only
  with_reducible repeat' first
    | assumption | exact State.Sub.of rfl hm | intro _ _ | split | dsimp only | refine State.Same.upd_100000000 ?_ ?_

theorem State.setReg64_same {fs : Nat} {k : State} (hm : State.Sub 0x10 fs) (s : State) (p : Nat) (o : Nat) (x : Nat)
  (hs : State.Same fs k s) : State.Same fs k (State.setReg64 s p o x) := by
  unfold State.setReg64
  try dsimp only
  with_reducible repeat' first
    | assumption | exact State.Sub.of rfl hm | apply State.setReg_same | intro _ _ | split | dsimp only

theorem State.count64_same {fs : Nat} {k : State} (hm : State.Sub 0x10 fs) (s : State) (p : Nat) (o : Nat) (n : Nat)
  (hs : State.Same fs k s) : State.Same fs k (State.count64 s p o n) := by
  unfold State.count64
  try dsimp only
  with_reducible repeat' first
    | assumption | exact State.Sub.of rfl hm | apply State.setReg64_same | intro _ _ | split | dsimp only

theorem State.setMemWs_same {fs : Nat} {k : State} (hm : State.Sub 0x40 fs) (s : State) (p : Nat) (sel : Nat) (x3 :
  Nat) (x4 : List Word) (hs : State.Same fs k s) : State.Same fs k (State.setMemWs s p sel x3 x4) := by
  induction x4 generalizing s p sel x3 with
  | nil =>
    unfold State.setMemWs
    try dsimp only
    with_reducible repeat' first
      | assumption | exact State.Sub.of rfl hm | apply State.setMemW_same | intro _ _ | split | dsimp only
  | cons a l ih =>
    unfold State.setMemWs
    try dsimp only
    with_reducible repeat' first
      | assumption | exact State.Sub.of rfl hm | apply ih | apply State.setMemW_same | intro _ _ | split | dsimp only

theorem State.setTally_same {fs : Nat} {k : State} (hm : State.Sub 0x200000000 fs) (s : State) (x1 : Nat) (x :
  TallyS) (hs : State.Same fs k s) : State.Same fs k (State.setTally s x1 x) := by
  unfold State.setTally
  try dsimp only
  with_reducible repeat' first
    | assumption | exact State.Sub.of rfl hm | intro _ _ | split | dsimp only | refine State.Same.upd_200000000 ?_ ?_

theorem State.setPort_same {fs : Nat} {k : State} (hm : State.Sub 0x800 fs) (s : State) (p : Nat) (x : PortS) (hs :
  State.Same fs k s) : State.Same fs k (State.setPort s p x) := by
  unfold State.setPort
  try dsimp only
  with_reducible repeat' first
    | assumption | exact State.Sub.of rfl hm | intro _ _ | split | dsimp only | refine State.Same.upd_800 ?_ ?_

theorem State.setHq_same {fs : Nat} {k : State} (hm : State.Sub 0x800000000 fs) (s : State) (i : Nat) (x : HostQ) (hs
  : State.Same fs k s) : State.Same fs k (State.setHq s i x) := by
  unfold State.setHq
  try dsimp only
  with_reducible repeat' first
    | assumption | exact State.Sub.of rfl hm | intro _ _ | split | dsimp only | refine State.Same.upd_800000000 ?_ ?_

theorem State.setWood_same {fs : Nat} {k : State} (hm : State.Sub 0x20000000 fs) (s : State) (x1 : Nat) (x : WoodS)
  (hs : State.Same fs k s) : State.Same fs k (State.setWood s x1 x) := by
  unfold State.setWood
  try dsimp only
  with_reducible repeat' first
    | assumption | exact State.Sub.of rfl hm | intro _ _ | split | dsimp only | refine State.Same.upd_20000000 ?_ ?_

theorem State.emit_same {fs : Nat} {k : State} (hm : State.Sub 0x8 fs) (s : State) (o : Output) (hs : State.Same fs k
  s) : State.Same fs k (State.emit s o) := by
  unfold State.emit
  try dsimp only
  with_reducible repeat' first
    | assumption | exact State.Sub.of rfl hm | intro _ _ | split | dsimp only | refine State.Same.upd_8 ?_ ?_

theorem State.setLane_same {fs : Nat} {k : State} (hm : State.Sub 0x200 fs) (s : State) (l : Nat) (x : LaneS) (hs :
  State.Same fs k s) : State.Same fs k (State.setLane s l x) := by
  unfold State.setLane
  try dsimp only
  with_reducible repeat' first
    | assumption | exact State.Sub.of rfl hm | intro _ _ | split | dsimp only | refine State.Same.upd_200 ?_ ?_

theorem State.setSlice_same {fs : Nat} {k : State} (hm : State.Sub 0x8000 fs) (s : State) (x1 : Nat) (x : SliceS) (hs
  : State.Same fs k s) : State.Same fs k (State.setSlice s x1 x) := by
  unfold State.setSlice
  try dsimp only
  with_reducible repeat' first
    | assumption | exact State.Sub.of rfl hm | intro _ _ | split | dsimp only | refine State.Same.upd_8000 ?_ ?_

theorem State.send_same {fs : Nat} {k : State} (hm : State.Sub 0x8000000010 fs) (s : State) (m : Message) (hs :
  State.Same fs k s) : State.Same fs k (State.send s m) := by
  unfold State.send
  try dsimp only
  with_reducible repeat' first
    | assumption | exact State.Sub.of rfl hm | apply State.sendOn_same | intro _ _ | split | dsimp only

theorem State.latchFirst_same {fs : Nat} {k : State} (hm : State.Sub 0x10 fs) (s : State) (p : Nat) (evtBit : Nat) (o
  : Nat) (v : Word) (hs : State.Same fs k s) : State.Same fs k (State.latchFirst s p evtBit o v) := by
  unfold State.latchFirst
  try dsimp only
  with_reducible repeat' first
    | assumption | exact State.Sub.of rfl hm | apply State.setReg_same | intro _ _ | split | dsimp only

theorem State.sourceMsg_same {fs : Nat} {k : State} (hm : State.Sub 0x8000000010 fs) (s : State) (n : Nat) (code :
  Nat) (typ : MsgType) (kind : Nat) (info : Word) (hs : State.Same fs k s) : State.Same fs k (State.sourceMsg s n
  code typ kind info) := by
  unfold State.sourceMsg
  try dsimp only
  with_reducible repeat' first
    | assumption | exact State.Sub.of rfl hm | apply State.sendOn_same | intro _ _ | split | dsimp only
    | refine State.Same.upd_8000000000 ?_ ?_

theorem State.setSched_same {fs : Nat} {k : State} (hm : State.Sub 0x1000000 fs) (s : State) (p : Nat) (x : SchedS)
  (hs : State.Same fs k s) : State.Same fs k (State.setSched s p x) := by
  unfold State.setSched
  try dsimp only
  with_reducible repeat' first
    | assumption | exact State.Sub.of rfl hm | intro _ _ | split | dsimp only | refine State.Same.upd_1000000 ?_ ?_

theorem State.setMacro_same {fs : Nat} {k : State} (hm : State.Sub 0x400 fs) (s : State) (m : Nat) (x : MacroS) (hs :
  State.Same fs k s) : State.Same fs k (State.setMacro s m x) := by
  unfold State.setMacro
  try dsimp only
  with_reducible repeat' first
    | assumption | exact State.Sub.of rfl hm | intro _ _ | split | dsimp only | refine State.Same.upd_400 ?_ ?_

theorem State.setQueue_same {fs : Nat} {k : State} (hm : State.Sub 0x200000 fs) (s : State) (q : Nat) (x : List Nat)
  (hs : State.Same fs k s) : State.Same fs k (State.setQueue s q x) := by
  unfold State.setQueue
  try dsimp only
  with_reducible repeat' first
    | assumption | exact State.Sub.of rfl hm | intro _ _ | split | dsimp only | refine State.Same.upd_200000 ?_ ?_

theorem State.setFrame_same {fs : Nat} {k : State} (hm : State.Sub 0x2000 fs) (s : State) (i : Nat) (f : Frame) (hs :
  State.Same fs k s) : State.Same fs k (State.setFrame s i f) := by
  unfold State.setFrame
  try dsimp only
  with_reducible repeat' first
    | assumption | exact State.Sub.of rfl hm | intro _ _ | split | dsimp only | refine State.Same.upd_2000 ?_ ?_

theorem State.endFrame_same {fs : Nat} {k : State} (hm : State.Sub 0x2000 fs) (s : State) (i : Nat) (hs : State.Same
  fs k s) : State.Same fs k (State.endFrame s i) := by
  unfold State.endFrame
  try dsimp only
  with_reducible repeat' first
    | assumption | exact State.Sub.of rfl hm | intro _ _ | split | dsimp only | refine State.Same.upd_2000 ?_ ?_

theorem State.setHbm_same {fs : Nat} {k : State} (hm : State.Sub 0x400000000 fs) (s : State) (x1 : Nat) (x : HbmS)
  (hs : State.Same fs k s) : State.Same fs k (State.setHbm s x1 x) := by
  unfold State.setHbm
  try dsimp only
  with_reducible repeat' first
    | assumption | exact State.Sub.of rfl hm | intro _ _ | split | dsimp only | refine State.Same.upd_400000000 ?_ ?_

theorem State.setPath_same {fs : Nat} {k : State} (hm : State.Sub 0x100000 fs) (s : State) (x1 : Nat) (x : PathS) (hs
  : State.Same fs k s) : State.Same fs k (State.setPath s x1 x) := by
  unfold State.setPath
  try dsimp only
  with_reducible repeat' first
    | assumption | exact State.Sub.of rfl hm | intro _ _ | split | dsimp only | refine State.Same.upd_100000 ?_ ?_

theorem State.setSreg_same {fs : Nat} {k : State} (hm : State.Sub 0x20 fs) (s : State) (d : Word) (x2 : Nat) (v :
  Word) (hs : State.Same fs k s) : State.Same fs k (State.setSreg s d x2 v) := by
  unfold State.setSreg
  try dsimp only
  with_reducible repeat' first
    | assumption | exact State.Sub.of rfl hm | intro _ _ | split | dsimp only | refine State.Same.upd_20 ?_ ?_

theorem State.setRing_same {fs : Nat} {k : State} (hm : State.Sub 0x20000 fs) (s : State) (r : Nat) (x : RingS) (hs :
  State.Same fs k s) : State.Same fs k (State.setRing s r x) := by
  unfold State.setRing
  try dsimp only
  with_reducible repeat' first
    | assumption | exact State.Sub.of rfl hm | intro _ _ | split | dsimp only | refine State.Same.upd_20000 ?_ ?_

theorem State.newCopy_same {fs : Nat} {k : State} (hm : State.Sub 0x6000 fs) (s : State) (f : Frame) (hs : State.Same
  fs k s) : State.Same fs k (State.newCopy s f) := by
  unfold State.newCopy
  try dsimp only
  with_reducible repeat' first
    | assumption | exact State.Sub.of rfl hm | intro _ _ | split | dsimp only | refine State.Same.upd_6000 ?_ ?_

theorem State.newFrame_same {fs : Nat} {k : State} (hm : State.Sub 0x6000 fs) (s : State) (f : Frame) (hs :
  State.Same fs k s) : State.Same fs k (State.newFrame s f) := by
  unfold State.newFrame
  try dsimp only
  with_reducible repeat' first
    | assumption | exact State.Sub.of rfl hm | apply State.newCopy_same | intro _ _ | split | dsimp only

theorem State.setEvtRegs_same {fs : Nat} {k : State} (hm : State.Sub 0x8000000010 fs) (s : State) (p : Nat) (evt :
  Word) (en : Word) (hs : State.Same fs k s) : State.Same fs k (State.setEvtRegs s p evt en) := by
  unfold State.setEvtRegs
  try dsimp only
  with_reducible repeat' first
    | assumption | exact State.Sub.of rfl hm | apply State.missRise_same | apply State.send_same | apply State.setReg_same
    | intro _ _ | split | dsimp only

theorem State.mapFrames_same {fs : Nat} {k : State} (hm : State.Sub 0x2000 fs) (s : State) (p : Frame → Bool) (g :
  Frame → Frame) (hs : State.Same fs k s) : State.Same fs k (State.mapFrames s p g) := by
  unfold State.mapFrames
  try dsimp only
  with_reducible repeat' first
    | assumption | exact State.Sub.of rfl hm | intro _ _ | split | dsimp only | refine State.Same.upd_2000 ?_ ?_

/-! ### RegOps -/

theorem State.store_same {fs : Nat} {k : State} (hm : State.Sub 0x10 fs) (s : State) (p : Nat) (o : Nat) (v : Word)
  (hs : State.Same fs k s) : State.Same fs k (State.store s p o v) := by
  unfold State.store
  try dsimp only
  with_reducible repeat' first
    | assumption | exact State.Sub.of rfl hm | apply State.setReg_same | intro _ _ | split | dsimp only

/-! ### BusOps -/

theorem State.setCluster_same {fs : Nat} {k : State} (hm : State.Sub 0x10000000000 fs) (s : State) (c : Nat) (x :
  ClusterS) (hs : State.Same fs k s) : State.Same fs k (State.setCluster s c x) := by
  unfold State.setCluster
  try dsimp only
  with_reducible repeat' first
    | assumption | exact State.Sub.of rfl hm | intro _ _ | split | dsimp only | refine State.Same.upd_10000000000 ?_ ?_

theorem State.busError_same {fs : Nat} {k : State} (hm : State.Sub 0x8000000010 fs) (s : State) (a : Access) (write :
  Bool) (kind : Nat) (hs : State.Same fs k s) : State.Same fs k (State.busError s a write kind) := by
  unfold State.busError
  try dsimp only
  with_reducible repeat' first
    | assumption | exact State.Sub.of rfl hm | apply State.count_same | apply State.raise_same | apply State.setReg_same
    | intro _ _ | split | dsimp only

theorem State.fenced_same {fs : Nat} {k : State} (hm : State.Sub 0x18000000010 fs) (s : State) (c : Nat) (a : Access)
  (hs : State.Same fs k s) : State.Same fs k (State.fenced s c a) := by
  unfold State.fenced
  try dsimp only
  with_reducible repeat' first
    | assumption | exact State.Sub.of rfl hm | apply State.setCluster_same | apply State.raise_same
    | apply State.busError_same | apply State.sourceMsg_same | intro _ _ | split | dsimp only

theorem State.readLost_same {fs : Nat} {k : State} (hm : State.Sub 0x8000000018 fs) (s : State) (a : Access) (hs :
  State.Same fs k s) : State.Same fs k (State.readLost s a) := by
  unfold State.readLost
  try dsimp only
  with_reducible repeat' first
    | assumption | exact State.Sub.of rfl hm | apply State.busError_same | apply State.emit_same | intro _ _ | split
    | dsimp only

theorem State.answerAll_same {fs : Nat} {k : State} (hm : State.Sub 0x0 fs) (s : State) (f : State → Access → State)
  (x2 : List Held) (hs : State.Same fs k s) (hf : ∀ s, State.Same fs k s → ∀ a, State.Same fs k (f s a)) : State.Same
  fs k (State.answerAll s f x2) := by
  induction x2 generalizing s f with
  | nil =>
    unfold State.answerAll
    try dsimp only
    with_reducible repeat' first
      | assumption | apply hf | exact State.Sub.of rfl hm | intro _ _ | split | dsimp only
  | cons a l ih =>
    unfold State.answerAll
    try dsimp only
    with_reducible repeat' first
      | assumption | apply hf | exact State.Sub.of rfl hm | apply ih | intro _ _ | split | dsimp only

theorem State.endReads_same {fs : Nat} {k : State} (hm : State.Sub 0x80 fs) (s : State) (sel : Nat → Bool) (f : State
  → Access → State) (hs : State.Same fs k s) (hf : ∀ s, State.Same fs k s → ∀ a, State.Same fs k (f s a)) :
  State.Same fs k (State.endReads s sel f) := by
  unfold State.endReads
  try dsimp only
  with_reducible repeat' first
    | assumption | apply hf | exact State.Sub.of rfl hm | intro _ | apply State.answerAll_same | intro _ _ | split
    | dsimp only | refine State.Same.upd_80 ?_ ?_

theorem State.readInReset_same {fs : Nat} {k : State} (hm : State.Sub 0x8 fs) (s : State) (a : Access) (hs :
  State.Same fs k s) : State.Same fs k (State.readInReset s a) := by
  unfold State.readInReset
  try dsimp only
  with_reducible repeat' first
    | assumption | exact State.Sub.of rfl hm | apply State.emit_same | intro _ _ | split | dsimp only

/-! ### FireOps -/

theorem State.boostSettle_same {fs : Nat} {k : State} (hm : State.Sub 0x8020000010 fs) (s : State) (x1 : Nat) (hs :
  State.Same fs k s) : State.Same fs k (State.boostSettle s x1) := by
  unfold State.boostSettle
  try dsimp only
  with_reducible repeat' first
    | assumption | exact State.Sub.of rfl hm | apply State.setWood_same | apply State.raise_same | intro _ _ | split
    | dsimp only

theorem State.hintStart_same {fs : Nat} {k : State} (hm : State.Sub 0x2000000010 fs) (s : State) (us : Nat) (hs :
  State.Same fs k s) : State.Same fs k (State.hintStart s us) := by
  unfold State.hintStart
  try dsimp only
  with_reducible repeat' first
    | assumption | exact State.Sub.of rfl hm | apply State.count_same | intro _ _ | split | dsimp only
    | refine State.Same.upd_2000000000 ?_ ?_

theorem State.deferStop_same {fs : Nat} {k : State} (hm : State.Sub 0x10 fs) (s : State) (x1 : Nat) (hs : State.Same
  fs k s) : State.Same fs k (State.deferStop s x1) := by
  unfold State.deferStop
  try dsimp only
  with_reducible repeat' first
    | assumption | exact State.Sub.of rfl hm | apply State.setReg_same | intro _ _ | split | dsimp only

theorem State.fireSettle_same {fs : Nat} {k : State} (hm : State.Sub 0xa020000010 fs) (s : State) (hs : State.Same fs
  k s) : State.Same fs k (State.fireSettle s) := by
  unfold State.fireSettle
  try dsimp only
  with_reducible repeat' first
    | assumption | exact State.Sub.of rfl hm | apply State.deferStop_same | apply State.count64_same
    | apply State.boostSettle_same | intro _ _ | split | dsimp only | refine State.Same.upd_2000000000 ?_ ?_

theorem State.headSetpoint_same {fs : Nat} {k : State} (hm : State.Sub 0x2000000004 fs) (s : State) (hs : State.Same
  fs k s) : State.Same fs k (State.headSetpoint s) := by
  unfold State.headSetpoint
  try dsimp only
  with_reducible repeat' first
    | assumption | exact State.Sub.of rfl hm | apply State.drawn_same | intro _ _ | split | dsimp only
    | refine State.Same.upd_2000000000 ?_ ?_

/-! ### Account -/

theorem State.dropPairAdd_same {fs : Nat} {k : State} (hm : State.Sub 0x100000000 fs) (s : State) (x1 : Nat) (reason
  : Nat) (src : Nat) (n : Nat) (hs : State.Same fs k s) : State.Same fs k (State.dropPairAdd s x1 reason src n) := by
  unfold State.dropPairAdd
  try dsimp only
  with_reducible repeat' first
    | assumption | exact State.Sub.of rfl hm | apply State.setMatrix_same | intro _ _ | split | dsimp only

theorem State.matrixAdd_same {fs : Nat} {k : State} (hm : State.Sub 0x100000010 fs) (s : State) (x1 : Nat) (row :
  Nat) (col : Nat) (n : Nat) (hs : State.Same fs k s) : State.Same fs k (State.matrixAdd s x1 row col n) := by
  unfold State.matrixAdd
  try dsimp only
  with_reducible repeat' first
    | assumption | exact State.Sub.of rfl hm | apply State.count64_same | apply State.setMatrix_same | intro _ _ | split
    | dsimp only

theorem State.unitCounts_same {fs : Nat} {k : State} (hm : State.Sub 0x100000010 fs) (s : State) (x1 : Nat) (row :
  Nat) (u : UnitInfo) (hs : State.Same fs k s) : State.Same fs k (State.unitCounts s x1 row u) := by
  unfold State.unitCounts
  try dsimp only
  with_reducible repeat' first
    | assumption | exact State.Sub.of rfl hm | apply State.dropPairAdd_same | apply State.matrixAdd_same | intro _ _
    | split | dsimp only

theorem State.overflowAdd_same {fs : Nat} {k : State} (hm : State.Sub 0x10 fs) (s : State) (x1 : Nat) (i : Nat) (u :
  UnitInfo) (o : Nat) (hs : State.Same fs k s) : State.Same fs k (State.overflowAdd s x1 i u o) := by
  unfold State.overflowAdd
  try dsimp only
  with_reducible repeat' first
    | assumption | exact State.Sub.of rfl hm | apply State.count64_same | intro _ _ | split | dsimp only

theorem State.accountEarly_same {fs : Nat} {k : State} (hm : State.Sub 0x100000010 fs) (s : State) (u : UnitInfo) (hs
  : State.Same fs k s) : State.Same fs k (State.accountEarly s u) := by
  unfold State.accountEarly
  try dsimp only
  with_reducible repeat' first
    | assumption | exact State.Sub.of rfl hm | apply State.unitCounts_same | apply State.overflowAdd_same | intro _ _
    | split | dsimp only

theorem State.accountFlume_same {fs : Nat} {k : State} (hm : State.Sub 0x100000010 fs) (s : State) (q : Nat) (u :
  UnitInfo) (hs : State.Same fs k s) : State.Same fs k (State.accountFlume s q u) := by
  unfold State.accountFlume
  try dsimp only
  with_reducible repeat' first
    | assumption | exact State.Sub.of rfl hm | apply State.unitCounts_same | apply State.overflowAdd_same | intro _ _
    | split | dsimp only

theorem State.cacheAdd_same {fs : Nat} {k : State} (hm : State.Sub 0x200000010 fs) (s : State) (x1 : Nat) (i : Nat)
  (u : UnitInfo) (hs : State.Same fs k s) : State.Same fs k (State.cacheAdd s x1 i u) := by
  unfold State.cacheAdd
  try dsimp only
  with_reducible repeat' first
    | assumption | exact State.Sub.of rfl hm | apply State.setTally_same | apply State.count64_same
    | apply State.overflowAdd_same | intro _ _ | split | dsimp only

theorem State.accountEgress_same {fs : Nat} {k : State} (hm : State.Sub 0x300000010 fs) (s : State) (port : Nat) (u :
  UnitInfo) (hs : State.Same fs k s) : State.Same fs k (State.accountEgress s port u) := by
  unfold State.accountEgress
  try dsimp only
  with_reducible repeat' first
    | assumption | exact State.Sub.of rfl hm | apply State.unitCounts_same | apply State.cacheAdd_same | intro _ _ | split
    | dsimp only

theorem State.accountNull_same {fs : Nat} {k : State} (hm : State.Sub 0x300000010 fs) (s : State) (x1 : Nat) (u :
  UnitInfo) (hs : State.Same fs k s) : State.Same fs k (State.accountNull s x1 u) := by
  unfold State.accountNull
  try dsimp only
  with_reducible repeat' first
    | assumption | exact State.Sub.of rfl hm | apply State.unitCounts_same | apply State.cacheAdd_same | intro _ _ | split
    | dsimp only

theorem State.histAdd_same {fs : Nat} {k : State} (hm : State.Sub 0x100000000 fs) (s : State) (x1 : Nat) (q : Nat)
  (entry : Nat) (hs : State.Same fs k s) : State.Same fs k (State.histAdd s x1 q entry) := by
  unfold State.histAdd
  try dsimp only
  with_reducible repeat' first
    | assumption | exact State.Sub.of rfl hm | apply State.setMatrix_same | intro _ _ | split | dsimp only

theorem State.accountRow_same {fs : Nat} {k : State} (hm : State.Sub 0x300000010 fs) (s : State) (u : UnitInfo) (row
  : UnitRow) (hs : State.Same fs k s) : State.Same fs k (State.accountRow s u row) := by
  unfold State.accountRow
  try dsimp only
  with_reducible repeat' first
    | assumption | exact State.Sub.of rfl hm | apply State.accountFlume_same | apply State.accountEarly_same
    | apply State.accountEgress_same | apply State.accountNull_same | apply State.histAdd_same | intro _ _ | split
    | dsimp only

theorem State.settleUnits_same {fs : Nat} {k : State} (hm : State.Sub 0x300000010 fs) (s : State) (len : Nat) (x2 :
  List Unsettled) (hs : State.Same fs k s) : State.Same fs k (State.settleUnits s len x2) := by
  induction x2 generalizing s len with
  | nil =>
    unfold State.settleUnits
    try dsimp only
    with_reducible repeat' first
      | assumption | exact State.Sub.of rfl hm | apply State.accountRow_same | intro _ _ | split | dsimp only
  | cons a l ih =>
    unfold State.settleUnits
    try dsimp only
    with_reducible repeat' first
      | assumption | exact State.Sub.of rfl hm | apply ih | apply State.accountRow_same | intro _ _ | split | dsimp only

theorem State.settleRoot_same {fs : Nat} {k : State} (hm : State.Sub 0x310000010 fs) (s : State) (root : Nat) (len :
  Nat) (hs : State.Same fs k s) : State.Same fs k (State.settleRoot s root len) := by
  unfold State.settleRoot
  try dsimp only
  with_reducible repeat' first
    | assumption | exact State.Sub.of rfl hm | apply State.settleUnits_same | intro _ _ | split | dsimp only
    | refine State.Same.upd_10000000 ?_ ?_

theorem State.endHolder_same {fs : Nat} {k : State} (hm : State.Sub 0x40000 fs) (s : State) (x1 : Nat) (ring : Nat)
  (hs : State.Same fs k s) : State.Same fs k (State.endHolder s x1 ring) := by
  unfold State.endHolder
  try dsimp only
  with_reducible repeat' first
    | assumption | exact State.Sub.of rfl hm | intro _ _ | split | dsimp only | refine State.Same.upd_40000 ?_ ?_

theorem State.moveHolder_same {fs : Nat} {k : State} (hm : State.Sub 0x40000 fs) (s : State) (a : Nat) (b : Nat)
  (ring : Nat) (hs : State.Same fs k s) : State.Same fs k (State.moveHolder s a b ring) := by
  unfold State.moveHolder
  try dsimp only
  with_reducible repeat' first
    | assumption | exact State.Sub.of rfl hm | apply State.endHolder_same | intro _ _ | split | dsimp only
    | refine State.Same.upd_40000 ?_ ?_

theorem State.accountUnit_same {fs : Nat} {k : State} (hm : State.Sub 0x310000010 fs) (s : State) (f : Frame) (row :
  UnitRow) (u : UnitInfo) (hs : State.Same fs k s) : State.Same fs k (State.accountUnit s f row u) := by
  unfold State.accountUnit
  try dsimp only
  with_reducible repeat' first
    | assumption | exact State.Sub.of rfl hm | apply State.accountRow_same | intro _ _ | split | dsimp only
    | refine State.Same.upd_10000000 ?_ ?_

theorem State.beginHolder_same {fs : Nat} {k : State} (hm : State.Sub 0x40010 fs) (s : State) (x1 : Nat) (ring : Nat)
  (hs : State.Same fs k s) : State.Same fs k (State.beginHolder s x1 ring) := by
  unfold State.beginHolder
  try dsimp only
  with_reducible repeat' first
    | assumption | exact State.Sub.of rfl hm | apply State.count64_same | intro _ _ | split | dsimp only
    | refine State.Same.upd_40000 ?_ ?_

theorem State.accountSkip_same {fs : Nat} {k : State} (hm : State.Sub 0x100000010 fs) (s : State) (x1 : Nat) (src :
  Nat) (hs : State.Same fs k s) : State.Same fs k (State.accountSkip s x1 src) := by
  unfold State.accountSkip
  try dsimp only
  with_reducible repeat' first
    | assumption | exact State.Sub.of rfl hm | apply State.unitCounts_same | apply State.overflowAdd_same | intro _ _
    | split | dsimp only

/-! ### DeckOps -/

theorem State.pfcEval_same {fs : Nat} {k : State} (hm : State.Sub 0x8002000010 fs) (s : State) (p : Nat) (r : Nat)
  (hs : State.Same fs k s) : State.Same fs k (State.pfcEval s p r) := by
  unfold State.pfcEval
  try dsimp only
  with_reducible repeat' first
    | assumption | exact State.Sub.of rfl hm | apply State.raiseIf_same | intro _ _ | split | dsimp only
    | refine State.Same.upd_2000000 ?_ ?_

theorem State.pfcEvalAll_same {fs : Nat} {k : State} (hm : State.Sub 0x8002000010 fs) (s : State) (p : Nat) (x2 :
  List Nat) (hs : State.Same fs k s) : State.Same fs k (State.pfcEvalAll s p x2) := by
  induction x2 generalizing s p with
  | nil =>
    unfold State.pfcEvalAll
    try dsimp only
    with_reducible repeat' first
      | assumption | exact State.Sub.of rfl hm | apply State.pfcEval_same | intro _ _ | split | dsimp only
  | cons a l ih =>
    unfold State.pfcEvalAll
    try dsimp only
    with_reducible repeat' first
      | assumption | exact State.Sub.of rfl hm | apply ih | apply State.pfcEval_same | intro _ _ | split | dsimp only

theorem State.badFree_same {fs : Nat} {k : State} (hm : State.Sub 0x8000000010 fs) (s : State) (x1 : Nat) (rq : Nat)
  (cell : Nat) (tag : Nat) (stored : Nat) (hs : State.Same fs k s) : State.Same fs k (State.badFree s x1 rq cell tag
  stored) := by
  unfold State.badFree
  try dsimp only
  with_reducible repeat' first
    | assumption | exact State.Sub.of rfl hm | apply State.raise_same | apply State.latchFirst_same
    | apply State.count_same | intro _ _ | split | dsimp only

theorem State.pfcEvals_same {fs : Nat} {k : State} (hm : State.Sub 0x8002000010 fs) (s : State) (x1 : List Nat) (hs :
  State.Same fs k s) : State.Same fs k (State.pfcEvals s x1) := by
  induction x1 generalizing s with
  | nil =>
    unfold State.pfcEvals
    try dsimp only
    with_reducible repeat' first
      | assumption | exact State.Sub.of rfl hm | apply State.pfcEvalAll_same | intro _ _ | split | dsimp only
  | cons a l ih =>
    unfold State.pfcEvals
    try dsimp only
    with_reducible repeat' first
      | assumption | exact State.Sub.of rfl hm | apply ih | apply State.pfcEvalAll_same | intro _ _ | split | dsimp only

theorem State.relevel_same {fs : Nat} {k : State} (hm : State.Sub 0x8002080010 fs) (s : State) (x1 : Nat) (hs :
  State.Same fs k s) : State.Same fs k (State.relevel s x1) := by
  unfold State.relevel
  try dsimp only
  with_reducible repeat' first
    | assumption | exact State.Sub.of rfl hm | apply State.pfcEvals_same | apply State.raiseAll_same
    | apply State.count_same | apply State.setDeck_same | apply State.setRf_same | intro _ _ | split | dsimp only

theorem State.freeCell_same {fs : Nat} {k : State} (hm : State.Sub 0x8002080010 fs) (s : State) (x1 : Nat) (rq : Nat)
  (cell : Nat) (tag : Nat) (hs : State.Same fs k s) : State.Same fs k (State.freeCell s x1 rq cell tag) := by
  unfold State.freeCell
  try dsimp only
  with_reducible repeat' first
    | assumption | exact State.Sub.of rfl hm | apply State.badFree_same | apply State.relevel_same
    | apply State.setDeck_same | intro _ _ | split | dsimp only

theorem State.pfcSub_same {fs : Nat} {k : State} (hm : State.Sub 0x8002080010 fs) (s : State) (x1 : Nat) (f : Frame)
  (n : Nat) (hs : State.Same fs k s) : State.Same fs k (State.pfcSub s x1 f n) := by
  unfold State.pfcSub
  try dsimp only
  with_reducible repeat' first
    | assumption | exact State.Sub.of rfl hm | apply State.setDeck_same | apply State.pfcEval_same | intro _ _ | split
    | dsimp only

theorem State.loseCell_same {fs : Nat} {k : State} (hm : State.Sub 0x8802082010 fs) (s : State) (i : Nat) (cell :
  Nat) (hs : State.Same fs k s) : State.Same fs k (State.loseCell s i cell) := by
  unfold State.loseCell
  try dsimp only
  with_reducible repeat' first
    | assumption | exact State.Sub.of rfl hm | apply State.pfcSub_same | apply State.setHq_same | apply State.setDeck_same
    | apply State.setFrame_same | intro _ _ | split | dsimp only

theorem State.freeStray_same {fs : Nat} {k : State} (hm : State.Sub 0x8802082010 fs) (s : State) (x1 : Nat) (rq :
  Nat) (cell : Nat) (tag : Nat) (hs : State.Same fs k s) : State.Same fs k (State.freeStray s x1 rq cell tag) := by
  unfold State.freeStray
  try dsimp only
  with_reducible repeat' first
    | assumption | exact State.Sub.of rfl hm | apply State.freeCell_same | apply State.setFrame_same
    | apply State.loseCell_same | intro _ _ | split | dsimp only

theorem State.freeStrays_same {fs : Nat} {k : State} (hm : State.Sub 0x8802082010 fs) (s : State) (x1 : Nat) (rq :
  Nat) (tag : Nat) (x4 : List Nat) (hs : State.Same fs k s) : State.Same fs k (State.freeStrays s x1 rq tag x4) := by
  induction x4 generalizing s x1 rq tag with
  | nil =>
    unfold State.freeStrays
    try dsimp only
    with_reducible repeat' first
      | assumption | exact State.Sub.of rfl hm | apply State.freeStray_same | intro _ _ | split | dsimp only
  | cons a l ih =>
    unfold State.freeStrays
    try dsimp only
    with_reducible repeat' first
      | assumption | exact State.Sub.of rfl hm | apply ih | apply State.freeStray_same | intro _ _ | split | dsimp only

theorem State.freeCells_same {fs : Nat} {k : State} (hm : State.Sub 0x8002080010 fs) (s : State) (x1 : Nat) (rq :
  Nat) (tag : Nat) (x4 : List Nat) (hs : State.Same fs k s) : State.Same fs k (State.freeCells s x1 rq tag x4) := by
  induction x4 generalizing s x1 rq tag with
  | nil =>
    unfold State.freeCells
    try dsimp only
    with_reducible repeat' first
      | assumption | exact State.Sub.of rfl hm | apply State.freeCell_same | intro _ _ | split | dsimp only
  | cons a l ih =>
    unfold State.freeCells
    try dsimp only
    with_reducible repeat' first
      | assumption | exact State.Sub.of rfl hm | apply ih | apply State.freeCell_same | intro _ _ | split | dsimp only

theorem State.releaseCells_same {fs : Nat} {k : State} (hm : State.Sub 0x8802082010 fs) (s : State) (f : Frame) (rq :
  Nat) (hs : State.Same fs k s) : State.Same fs k (State.releaseCells s f rq) := by
  unfold State.releaseCells
  try dsimp only
  with_reducible repeat' first
    | assumption | exact State.Sub.of rfl hm | apply State.freeStrays_same | apply State.pfcSub_same
    | apply State.setDeck_same | apply State.freeCells_same | intro _ _ | split | dsimp only

theorem State.pfcAdd_same {fs : Nat} {k : State} (hm : State.Sub 0x8002080010 fs) (s : State) (x1 : Nat) (f : Frame)
  (n : Nat) (hs : State.Same fs k s) : State.Same fs k (State.pfcAdd s x1 f n) := by
  unfold State.pfcAdd
  try dsimp only
  with_reducible repeat' first
    | assumption | exact State.Sub.of rfl hm | apply State.setDeck_same | apply State.pfcEval_same | intro _ _ | split
    | dsimp only

/-! ### HostOps -/

theorem State.noticeLost_same {fs : Nat} {k : State} (hm : State.Sub 0x10 fs) (s : State) (hs : State.Same fs k s) :
  State.Same fs k (State.noticeLost s) := by
  unfold State.noticeLost
  try dsimp only
  with_reducible repeat' first
    | assumption | exact State.Sub.of rfl hm | apply State.count_same | intro _ _ | split | dsimp only

theorem State.msix_same {fs : Nat} {k : State} (hm : State.Sub 0x800000008 fs) (s : State) (v : Nat) (hs : State.Same
  fs k s) : State.Same fs k (State.msix s v) := by
  unfold State.msix
  try dsimp only
  with_reducible repeat' first
    | assumption | exact State.Sub.of rfl hm | apply State.emit_same | intro _ _ | split | dsimp only
    | refine State.Same.upd_800000000 ?_ ?_

theorem State.hqSignal_same {fs : Nat} {k : State} (hm : State.Sub 0x800000008 fs) (s : State) (i : Nat) (hs :
  State.Same fs k s) : State.Same fs k (State.hqSignal s i) := by
  unfold State.hqSignal
  try dsimp only
  with_reducible repeat' first
    | assumption | exact State.Sub.of rfl hm | apply State.setHq_same | apply State.msix_same | intro _ _ | split
    | dsimp only

theorem State.hqCompleted_same {fs : Nat} {k : State} (hm : State.Sub 0x800000008 fs) (s : State) (i : Nat) (irq :
  Bool) (hs : State.Same fs k s) : State.Same fs k (State.hqCompleted s i irq) := by
  unfold State.hqCompleted
  try dsimp only
  with_reducible repeat' first
    | assumption | exact State.Sub.of rfl hm | apply State.hqSignal_same | apply State.setHq_same | intro _ _ | split
    | dsimp only

theorem State.setHqReg_same {fs : Nat} {k : State} (hm : State.Sub 0x10 fs) (s : State) (i : Nat) (o : Nat → Nat) (v
  : Nat) (hs : State.Same fs k s) : State.Same fs k (State.setHqReg s i o v) := by
  unfold State.setHqReg
  try dsimp only
  with_reducible repeat' first
    | assumption | exact State.Sub.of rfl hm | apply State.setReg_same | intro _ _ | split | dsimp only

theorem State.putNotice_same {fs : Nat} {k : State} (hm : State.Sub 0x800000018 fs) {s : State} {ws : List Word} {rr
  : State} (ht : State.putNotice s ws = some rr) (hs : State.Same fs k s) : State.Same fs k rr := by
  unfold State.putNotice at ht
  dsimp only at ht
  repeat' (split at ht)
  all_goals (first | contradiction | skip)
  all_goals (try (cases ht))
  all_goals
    with_reducible repeat' first
      | assumption | exact State.Sub.of rfl hm | apply State.hqCompleted_same | apply State.count64_same
      | apply State.setHqReg_same | apply State.emit_same | intro _ _ | split | dsimp only

theorem State.notice_same {fs : Nat} {k : State} (hm : State.Sub 0x800000018 fs) (s : State) (ws : List Word)
  (lostPage : Nat) (lostOff : Nat) (hs : State.Same fs k s) : State.Same fs k (State.notice s ws lostPage lostOff) := by
  unfold State.notice
  try dsimp only
  with_reducible repeat' first
    | assumption | exact State.Sub.of rfl hm | apply State.noticeLost_same | apply State.count_same
    | refine State.putNotice_same ?_ (by assumption) ?_ | intro _ _ | split | dsimp only

theorem State.coverTo_same {fs : Nat} {k : State} (hm : State.Sub 0x800000000 fs) (s : State) (i : Nat) (t : Nat) (hs
  : State.Same fs k s) : State.Same fs k (State.coverTo s i t) := by
  unfold State.coverTo
  try dsimp only
  with_reducible repeat' first
    | assumption | exact State.Sub.of rfl hm | apply State.setHq_same | intro _ _ | split | dsimp only

theorem State.msixMask_same {fs : Nat} {k : State} (hm : State.Sub 0x800000008 fs) (s : State) (v : Nat) (masked :
  Bool) (hs : State.Same fs k s) : State.Same fs k (State.msixMask s v masked) := by
  unfold State.msixMask
  try dsimp only
  with_reducible repeat' first
    | assumption | exact State.Sub.of rfl hm | apply State.emit_same | intro _ _ | split | dsimp only
    | refine State.Same.upd_800000000 ?_ ?_

theorem State.bar2Write_same {fs : Nat} {k : State} (hm : State.Sub 0x800000008 fs) (s : State) (x1 : Nat) (be : Nat)
  (v : Word) (hs : State.Same fs k s) : State.Same fs k (State.bar2Write s x1 be v) := by
  unfold State.bar2Write
  try dsimp only
  with_reducible repeat' first
    | assumption | exact State.Sub.of rfl hm | apply State.msixMask_same | intro _ _ | split | dsimp only
    | refine State.Same.upd_800000000 ?_ ?_

theorem State.bar2Read_same {fs : Nat} {k : State} (hm : State.Sub 0x8 fs) (s : State) (x1 : Nat) (size : Nat) (hs :
  State.Same fs k s) : State.Same fs k (State.bar2Read s x1 size) := by
  unfold State.bar2Read
  try dsimp only
  with_reducible repeat' first
    | assumption | exact State.Sub.of rfl hm | apply State.emit_same | intro _ _ | split | dsimp only

theorem State.hqWriteBack_same {fs : Nat} {k : State} (hm : State.Sub 0x800000018 fs) (s : State) (i : Nat) (d :
  Done) (hs : State.Same fs k s) : State.Same fs k (State.hqWriteBack s i d) := by
  unfold State.hqWriteBack
  try dsimp only
  with_reducible repeat' first
    | assumption | exact State.Sub.of rfl hm | apply State.hqCompleted_same | apply State.count_same
    | apply State.count64_same | apply State.setHqReg_same | apply State.emit_same | intro _ _ | split | dsimp only

/-! ### PortOps -/

theorem State.transmit_same {fs : Nat} {k : State} (hm : State.Sub 0x8 fs) (s : State) (p : Nat) (o : Output) (hs :
  State.Same fs k s) : State.Same fs k (State.transmit s p o) := by
  unfold State.transmit
  try dsimp only
  with_reducible repeat' first
    | assumption | exact State.Sub.of rfl hm | apply State.emit_same | apply State.onlyIf_same | intro _ _ | split
    | dsimp only

/-! ### Ptp -/

theorem State.ptpEnd_same {fs : Nat} {k : State} (hm : State.Sub 0x800000018 fs) (s : State) (p : Nat) (f : Frame)
  (stomped : Bool) (hs : State.Same fs k s) : State.Same fs k (State.ptpEnd s p f stomped) := by
  unfold State.ptpEnd
  try dsimp only
  with_reducible repeat' first
    | assumption | exact State.Sub.of rfl hm | apply State.notice_same | apply State.count_same | intro _ _ | split
    | dsimp only

/-! ### PathOps -/

theorem State.clearQueues_same {fs : Nat} {k : State} (hm : State.Sub 0x600000 fs) (s : State) (p : Nat) (x2 : Nat)
  (hs : State.Same fs k s) : State.Same fs k (State.clearQueues s p x2) := by
  induction x2 generalizing s p with
  | zero =>
    unfold State.clearQueues
    try dsimp only
    with_reducible repeat' first
      | assumption | exact State.Sub.of rfl hm | apply State.setQueue_same | intro _ _ | split | dsimp only
      | refine State.Same.upd_400000 ?_ ?_
  | succ n ih =>
    unfold State.clearQueues
    try dsimp only
    with_reducible repeat' first
      | assumption | exact State.Sub.of rfl hm | apply ih | apply State.setQueue_same | intro _ _ | split | dsimp only
      | refine State.Same.upd_400000 ?_ ?_

theorem State.portDown_same {fs : Nat} {k : State} (hm : State.Sub 0x1600000 fs) (s : State) (p : Nat) (hs :
  State.Same fs k s) : State.Same fs k (State.portDown s p) := by
  unfold State.portDown
  try dsimp only
  with_reducible repeat' first
    | assumption | exact State.Sub.of rfl hm | apply State.setSched_same | apply State.clearQueues_same | intro _ _ | split
    | dsimp only

theorem State.unstart_same {fs : Nat} {k : State} (hm : State.Sub 0x202000 fs) (s : State) (x1 : List Nat) (hs :
  State.Same fs k s) : State.Same fs k (State.unstart s x1) := by
  induction x1 generalizing s with
  | nil =>
    unfold State.unstart
    try dsimp only
    with_reducible repeat' first
      | assumption | exact State.Sub.of rfl hm | apply State.setFrame_same | apply State.setQueue_same | intro _ _ | split
      | dsimp only
  | cons a l ih =>
    unfold State.unstart
    try dsimp only
    with_reducible repeat' first
      | assumption | exact State.Sub.of rfl hm | apply ih | apply State.setFrame_same | apply State.setQueue_same
      | intro _ _ | split | dsimp only

theorem State.sendFrame_same {fs : Nat} {k : State} (hm : State.Sub 0x1008 fs) (s : State) (p : Nat) (out : List
  Byte) (stomped : Bool) (hs : State.Same fs k s) : State.Same fs k (State.sendFrame s p out stomped) := by
  unfold State.sendFrame
  try dsimp only
  with_reducible repeat' first
    | assumption | exact State.Sub.of rfl hm | apply State.transmit_same | apply State.setSpan_same | intro _ _ | split
    | dsimp only

theorem State.finish_same {fs : Nat} {k : State} (hm : State.Sub 0x42000 fs) (s : State) (i : Nat) (x2 : Nat) (f :
  Frame) (hs : State.Same fs k s) : State.Same fs k (State.finish s i x2 f) := by
  unfold State.finish
  try dsimp only
  with_reducible repeat' first
    | assumption | exact State.Sub.of rfl hm | apply State.endHolder_same | apply State.endFrame_same | intro _ _ | split
    | dsimp only

theorem State.countInjDrop_same {fs : Nat} {k : State} (hm : State.Sub 0x10 fs) (s : State) (f : Frame) (hs :
  State.Same fs k s) : State.Same fs k (State.countInjDrop s f) := by
  unfold State.countInjDrop
  try dsimp only
  with_reducible repeat' first
    | assumption | exact State.Sub.of rfl hm | apply State.count64_same | intro _ _ | split | dsimp only

theorem State.bwAdd_same {fs : Nat} {k : State} (hm : State.Sub 0x1000000000 fs) (s : State) (p : Nat) (n : Nat) (rx
  : Bool) (hs : State.Same fs k s) : State.Same fs k (State.bwAdd s p n rx) := by
  unfold State.bwAdd
  try dsimp only
  with_reducible repeat' first
    | assumption | exact State.Sub.of rfl hm | intro _ _ | split | dsimp only | refine State.Same.upd_1000000000 ?_ ?_

theorem State.settleMaster_same {fs : Nat} {k : State} (hm : State.Sub 0x8802082010 fs) (s : State) (m : Nat) (hs :
  State.Same fs k s) : State.Same fs k (State.settleMaster s m) := by
  unfold State.settleMaster
  try dsimp only
  with_reducible repeat' first
    | assumption | exact State.Sub.of rfl hm | apply State.releaseCells_same | apply State.endFrame_same | intro _ _
    | split | dsimp only

theorem State.giveUp_same {fs : Nat} {k : State} (hm : State.Sub 0x8803082010 fs) (s : State) (i : Nat) (f : Frame)
  (rq : Nat) (hs : State.Same fs k s) : State.Same fs k (State.giveUp s i f rq) := by
  unfold State.giveUp
  try dsimp only
  with_reducible repeat' first
    | assumption | exact State.Sub.of rfl hm | apply State.setFrame_same | apply State.settleMaster_same
    | apply State.releaseCells_same | apply State.setSched_same | apply State.setDeck_same | intro _ _ | split | dsimp only

theorem State.settleDeficit_same {fs : Nat} {k : State} (hm : State.Sub 0x400000 fs) (s : State) (q : Nat) (hs :
  State.Same fs k s) : State.Same fs k (State.settleDeficit s q) := by
  unfold State.settleDeficit
  try dsimp only
  with_reducible repeat' first
    | assumption | exact State.Sub.of rfl hm | intro _ _ | split | dsimp only | refine State.Same.upd_400000 ?_ ?_

theorem State.chargeSent_same {fs : Nat} {k : State} (hm : State.Sub 0x1c00000 fs) (s : State) (q : Nat) (len : Nat)
  (sent : Nat) (hs : State.Same fs k s) : State.Same fs k (State.chargeSent s q len sent) := by
  unfold State.chargeSent
  try dsimp only
  with_reducible repeat' first
    | assumption | exact State.Sub.of rfl hm | apply State.setSched_same | apply State.settleDeficit_same | intro _ _
    | split | dsimp only | refine State.Same.upd_c00000 ?_ ?_

theorem State.finishTx_same {fs : Nat} {k : State} (hm : State.Sub 0x9b13cc2010 fs) (s : State) (p : Nat) (i : Nat)
  (reason : Nat) (sent : Nat) (hs : State.Same fs k s) : State.Same fs k (State.finishTx s p i reason sent) := by
  unfold State.finishTx
  try dsimp only
  with_reducible repeat' first
    | assumption | exact State.Sub.of rfl hm | apply State.finish_same | apply State.countInjDrop_same
    | apply State.accountUnit_same | apply State.bwAdd_same | apply State.count64_same | apply State.giveUp_same
    | apply State.chargeSent_same | apply State.setSched_same | intro _ _ | split | dsimp only

theorem State.stompAt_same {fs : Nat} {k : State} (hm : State.Sub 0x9b13cc3018 fs) (s : State) (p : Nat) (i : Nat) (n
  : Nat) (reason : Nat) (hs : State.Same fs k s) : State.Same fs k (State.stompAt s p i n reason) := by
  unfold State.stompAt
  try dsimp only
  with_reducible repeat' first
    | assumption | exact State.Sub.of rfl hm | apply State.sendFrame_same | apply State.ptpEnd_same
    | apply State.finishTx_same | intro _ _ | split | dsimp only

theorem State.stompTx_same {fs : Nat} {k : State} (hm : State.Sub 0x9b13cc3018 fs) (s : State) (p : Nat) (reason :
  Nat) (hs : State.Same fs k s) : State.Same fs k (State.stompTx s p reason) := by
  unfold State.stompTx
  try dsimp only
  with_reducible repeat' first
    | assumption | exact State.Sub.of rfl hm | apply State.stompAt_same | intro _ _ | split | dsimp only

theorem State.queuesFall_same {fs : Nat} {k : State} (hm : State.Sub 0x9b13ecb018 fs) (s : State) (p : Nat) (enabled
  : Bool) (hs : State.Same fs k s) : State.Same fs k (State.queuesFall s p enabled) := by
  unfold State.queuesFall
  try dsimp only
  with_reducible repeat' first
    | assumption | exact State.Sub.of rfl hm | apply State.portDown_same | apply State.count_same | apply State.raise_same
    | apply State.unstart_same | apply State.setSlice_same | apply State.setSched_same | apply State.stompTx_same
    | intro _ _ | split | dsimp only

theorem State.queuesOff_same {fs : Nat} {k : State} (hm : State.Sub 0x9b13ecb018 fs) (s : State) (p : Nat) (hs :
  State.Same fs k s) : State.Same fs k (State.queuesOff s p) := by
  unfold State.queuesOff
  try dsimp only
  with_reducible repeat' first
    | assumption | exact State.Sub.of rfl hm | apply State.portDown_same | apply State.queuesFall_same | intro _ _ | split
    | dsimp only

theorem State.drainSettle_same {fs : Nat} {k : State} (hm : State.Sub 0x8000100010 fs) (s : State) (x1 : Nat) (hs :
  State.Same fs k s) : State.Same fs k (State.drainSettle s x1) := by
  unfold State.drainSettle
  try dsimp only
  with_reducible repeat' first
    | assumption | exact State.Sub.of rfl hm | apply State.setPath_same | apply State.raise_same | intro _ _ | split
    | dsimp only

theorem State.dropNull_same {fs : Nat} {k : State} (hm : State.Sub 0x310042010 fs) (s : State) (i : Nat) (x2 : Nat)
  (reason : Nat) (hs : State.Same fs k s) : State.Same fs k (State.dropNull s i x2 reason) := by
  unfold State.dropNull
  try dsimp only
  with_reducible repeat' first
    | assumption | exact State.Sub.of rfl hm | apply State.finish_same | apply State.countInjDrop_same
    | apply State.accountUnit_same | intro _ _ | split | dsimp only

theorem State.dropPunt_same {fs : Nat} {k : State} (hm : State.Sub 0x8b120c2010 fs) (s : State) (i : Nat) (q : Nat)
  (reason : Nat) (hs : State.Same fs k s) : State.Same fs k (State.dropPunt s i q reason) := by
  unfold State.dropPunt
  try dsimp only
  with_reducible repeat' first
    | assumption | exact State.Sub.of rfl hm | apply State.dropNull_same | apply State.count_same | apply State.setHq_same
    | apply State.releaseCells_same | apply State.setDeck_same | intro _ _ | split | dsimp only

theorem State.dropPunts_same {fs : Nat} {k : State} (hm : State.Sub 0x8b120c2010 fs) (s : State) (q : Nat) (reason :
  Nat) (x3 : List Nat) (hs : State.Same fs k s) : State.Same fs k (State.dropPunts s q reason x3) := by
  induction x3 generalizing s q reason with
  | nil =>
    unfold State.dropPunts
    try dsimp only
    with_reducible repeat' first
      | assumption | exact State.Sub.of rfl hm | apply State.dropPunt_same | intro _ _ | split | dsimp only
  | cons a l ih =>
    unfold State.dropPunts
    try dsimp only
    with_reducible repeat' first
      | assumption | exact State.Sub.of rfl hm | apply ih | apply State.dropPunt_same | intro _ _ | split | dsimp only

theorem State.toStep4_same {fs : Nat} {k : State} (hm : State.Sub 0x102000 fs) (s : State) (i : Nat) (x2 : Nat) (d :
  Nat) (hs : State.Same fs k s) : State.Same fs k (State.toStep4 s i x2 d) := by
  unfold State.toStep4
  try dsimp only
  with_reducible repeat' first
    | assumption | exact State.Sub.of rfl hm | apply State.setPath_same | apply State.setFrame_same | intro _ _ | split
    | dsimp only

theorem State.enterDeck_same {fs : Nat} {k : State} (hm : State.Sub 0x146010 fs) (s : State) (f : Frame) (x2 : Nat)
  (hs : State.Same fs k s) : State.Same fs k (State.enterDeck s f x2) := by
  unfold State.enterDeck
  try dsimp only
  with_reducible repeat' first
    | assumption | exact State.Sub.of rfl hm | apply State.beginHolder_same | apply State.toStep4_same
    | apply State.newFrame_same | intro _ _ | split | dsimp only

theorem State.dropEarly_same {fs : Nat} {k : State} (hm : State.Sub 0x310002010 fs) (s : State) (i : Nat) (reason :
  Nat) (hs : State.Same fs k s) : State.Same fs k (State.dropEarly s i reason) := by
  unfold State.dropEarly
  try dsimp only
  with_reducible repeat' first
    | assumption | exact State.Sub.of rfl hm | apply State.endFrame_same | apply State.countInjDrop_same
    | apply State.accountUnit_same | intro _ _ | split | dsimp only

theorem State.dropQueued_same {fs : Nat} {k : State} (hm : State.Sub 0x8b134c2010 fs) (s : State) (i : Nat) (reason :
  Nat) (hs : State.Same fs k s) : State.Same fs k (State.dropQueued s i reason) := by
  unfold State.dropQueued
  try dsimp only
  with_reducible repeat' first
    | assumption | exact State.Sub.of rfl hm | apply State.finish_same | apply State.countInjDrop_same
    | apply State.count_same | apply State.raise_same | apply State.accountUnit_same | apply State.settleDeficit_same
    | apply State.giveUp_same | intro _ _ | split | dsimp only

theorem State.dropQueuedAll_same {fs : Nat} {k : State} (hm : State.Sub 0x8b134c2010 fs) (s : State) (reason : Nat)
  (x2 : List Nat) (hs : State.Same fs k s) : State.Same fs k (State.dropQueuedAll s reason x2) := by
  induction x2 generalizing s reason with
  | nil =>
    unfold State.dropQueuedAll
    try dsimp only
    with_reducible repeat' first
      | assumption | exact State.Sub.of rfl hm | apply State.dropQueued_same | intro _ _ | split | dsimp only
  | cons a l ih =>
    unfold State.dropQueuedAll
    try dsimp only
    with_reducible repeat' first
      | assumption | exact State.Sub.of rfl hm | apply ih | apply State.dropQueued_same | intro _ _ | split | dsimp only

theorem State.mcastDone_same {fs : Nat} {k : State} (hm : State.Sub 0x310010010 fs) (s : State) (f : Frame) (n : Nat)
  (reason : Nat) (x4 : Nat) (hs : State.Same fs k s) : State.Same fs k (State.mcastDone s f n reason x4) := by
  unfold State.mcastDone
  try dsimp only
  with_reducible repeat' first
    | assumption | exact State.Sub.of rfl hm | apply State.countInjDrop_same | apply State.accountUnit_same | intro _ _
    | split | dsimp only | refine State.Same.upd_10000 ?_ ?_

theorem State.dropMcast_same {fs : Nat} {k : State} (hm : State.Sub 0x8b121d2010 fs) (s : State) (i : Nat) (reason :
  Nat) (hs : State.Same fs k s) : State.Same fs k (State.dropMcast s i reason) := by
  unfold State.dropMcast
  try dsimp only
  with_reducible repeat' first
    | assumption | exact State.Sub.of rfl hm | apply State.finish_same | apply State.drainSettle_same
    | apply State.mcastDone_same | apply State.countInjDrop_same | apply State.releaseCells_same | apply State.setDeck_same
    | intro _ _ | split | dsimp only

theorem State.countExp_same {fs : Nat} {k : State} (hm : State.Sub 0x10 fs) (s : State) (reason : Nat) (hs :
  State.Same fs k s) : State.Same fs k (State.countExp s reason) := by
  unfold State.countExp
  try dsimp only
  with_reducible repeat' first
    | assumption | exact State.Sub.of rfl hm | apply State.count64_same | intro _ _ | split | dsimp only

theorem State.markFrame_same {fs : Nat} {k : State} (hm : State.Sub 0x2000 fs) (s : State) (i : Nat) (reason : Nat)
  (hs : State.Same fs k s) : State.Same fs k (State.markFrame s i reason) := by
  unfold State.markFrame
  try dsimp only
  with_reducible repeat' first
    | assumption | exact State.Sub.of rfl hm | apply State.mapFrames_same | apply State.setFrame_same | intro _ _ | split
    | dsimp only

theorem State.dropInRepl_same {fs : Nat} {k : State} (hm : State.Sub 0x8b130c2010 fs) (s : State) (i : Nat) (x2 :
  Nat) (reason : Nat) (hs : State.Same fs k s) : State.Same fs k (State.dropInRepl s i x2 reason) := by
  unfold State.dropInRepl
  try dsimp only
  with_reducible repeat' first
    | assumption | exact State.Sub.of rfl hm | apply State.finish_same | apply State.countInjDrop_same
    | apply State.accountUnit_same | apply State.giveUp_same | intro _ _ | split | dsimp only

theorem State.markRoot_same {fs : Nat} {k : State} (hm : State.Sub 0x2000 fs) (s : State) (root : Nat) (reason : Nat)
  (hs : State.Same fs k s) : State.Same fs k (State.markRoot s root reason) := by
  unfold State.markRoot
  try dsimp only
  with_reducible repeat' first
    | assumption | exact State.Sub.of rfl hm | apply State.mapFrames_same | intro _ _ | split | dsimp only

theorem State.queuesRise_same {fs : Nat} {k : State} (hm : State.Sub 0x1000010 fs) (s : State) (p : Nat) (hs :
  State.Same fs k s) : State.Same fs k (State.queuesRise s p) := by
  unfold State.queuesRise
  try dsimp only
  with_reducible repeat' first
    | assumption | exact State.Sub.of rfl hm | apply State.count_same | apply State.setSched_same | intro _ _ | split
    | dsimp only

/-! ### RaftOps -/

theorem State.raftNotice_same {fs : Nat} {k : State} (hm : State.Sub 0x800000018 fs) (s : State) (p : Nat) (x2 : Nat)
  (dev : Nat) (port : Nat) (said : Nat) (sysid : Word) (hs : State.Same fs k s) : State.Same fs k (State.raftNotice s
  p x2 dev port said sysid) := by
  unfold State.raftNotice
  try dsimp only
  with_reducible repeat' first
    | assumption | exact State.Sub.of rfl hm | apply State.notice_same | intro _ _ | split | dsimp only

theorem State.setNbr_same {fs : Nat} {k : State} (hm : State.Sub 0x4000000000 fs) (s : State) (p : Nat) (x : NbrS)
  (hs : State.Same fs k s) : State.Same fs k (State.setNbr s p x) := by
  unfold State.setNbr
  try dsimp only
  with_reducible repeat' first
    | assumption | exact State.Sub.of rfl hm | intro _ _ | split | dsimp only | refine State.Same.upd_4000000000 ?_ ?_

theorem State.nbrDown_same {fs : Nat} {k : State} (hm : State.Sub 0xc800000018 fs) (s : State) (p : Nat) (hs :
  State.Same fs k s) : State.Same fs k (State.nbrDown s p) := by
  unfold State.nbrDown
  try dsimp only
  with_reducible repeat' first
    | assumption | exact State.Sub.of rfl hm | apply State.raise_same | apply State.raftNotice_same
    | apply State.setNbr_same | intro _ _ | split | dsimp only

theorem State.helloForget_same {fs : Nat} {k : State} (hm : State.Sub 0x4000000000 fs) (s : State) (p : Nat) (hs :
  State.Same fs k s) : State.Same fs k (State.helloForget s p) := by
  unfold State.helloForget
  try dsimp only
  with_reducible repeat' first
    | assumption | exact State.Sub.of rfl hm | apply State.setNbr_same | intro _ _ | split | dsimp only

theorem State.peerHold_same {fs : Nat} {k : State} (hm : State.Sub 0x20000 fs) (s : State) (r : Nat) (hs : State.Same
  fs k s) : State.Same fs k (State.peerHold s r) := by
  unfold State.peerHold
  try dsimp only
  with_reducible repeat' first
    | assumption | exact State.Sub.of rfl hm | apply State.setRing_same | intro _ _ | split | dsimp only

theorem State.peerHolds_same {fs : Nat} {k : State} (hm : State.Sub 0x20000 fs) (s : State) (hs : State.Same fs k s)
  : State.Same fs k (State.peerHolds s) := by
  unfold State.peerHolds
  try dsimp only
  with_reducible repeat' first
    | assumption | exact State.Sub.of rfl hm | apply State.peerHold_same | intro _ _ | split | dsimp only

theorem State.raftPush_same {fs : Nat} {k : State} (hm : State.Sub 0x10 fs) (s : State) (x1 : Nat) (f : Frame) (v :
  List Byte) (hs : State.Same fs k s) : State.Same fs k (State.raftPush s x1 f v).1 := by
  unfold State.raftPush
  try dsimp only
  with_reducible repeat' first
    | assumption | exact State.Sub.of rfl hm | apply State.count64_same | intro _ _ | split | dsimp only

theorem State.raftPush_same_eq {fs : Nat} {k : State} (hm : State.Sub 0x10 fs) {s : State} {x1 : Nat} {f : Frame} {v
  : List Byte} {ra rb} (ht : State.raftPush s x1 f v = (ra, rb)) (hs : State.Same fs k s) : State.Same fs k ra := by
  have := State.raftPush_same (k := k) hm s x1 f v hs
  rw [ht] at this
  exact this

theorem State.raftResolve_same {fs : Nat} {k : State} (hm : State.Sub 0x10 fs) (s : State) (x1 : Nat) (f : Frame) (v
  : List Byte) (hs : State.Same fs k s) : State.Same fs k (State.raftResolve s x1 f v).1 := by
  unfold State.raftResolve
  try dsimp only
  with_reducible repeat' first
    | assumption | exact State.Sub.of rfl hm | apply State.raftPush_same
    | refine State.raftPush_same_eq ?_ (by assumption) ?_ | apply State.count_same | intro _ _ | split | dsimp only

theorem State.raftResolve_same_eq {fs : Nat} {k : State} (hm : State.Sub 0x10 fs) {s : State} {x1 : Nat} {f : Frame}
  {v : List Byte} {ra rb} (ht : State.raftResolve s x1 f v = (ra, rb)) (hs : State.Same fs k s) : State.Same fs k ra
  := by
  have := State.raftResolve_same (k := k) hm s x1 f v hs
  rw [ht] at this
  exact this

theorem State.relaySent_same {fs : Nat} {k : State} (hm : State.Sub 0x10 fs) (s : State) (f : Frame) (p : Nat) (hs :
  State.Same fs k s) : State.Same fs k (State.relaySent s f p) := by
  unfold State.relaySent
  try dsimp only
  with_reducible repeat' first
    | assumption | exact State.Sub.of rfl hm | apply State.count64_same | intro _ _ | split | dsimp only

theorem State.ewStore_same {fs : Nat} {k : State} (hm : State.Sub 0x4000000000 fs) (s : State) (x1 : Nat) (x2 : AMap
  Word) (hs : State.Same fs k s) : State.Same fs k (State.ewStore s x1 x2) := by
  unfold State.ewStore
  try dsimp only
  with_reducible repeat' first
    | assumption | exact State.Sub.of rfl hm | apply State.ewStore_same | intro _ _ | split | dsimp only
    | refine State.Same.upd_4000000000 ?_ ?_

theorem State.ewAll_same {fs : Nat} {k : State} (hm : State.Sub 0x4000000010 fs) (s : State) (x1 : Nat) (hs :
  State.Same fs k s) : State.Same fs k (State.ewAll s x1) := by
  unfold State.ewAll
  try dsimp only
  with_reducible repeat' first
    | assumption | exact State.Sub.of rfl hm | apply State.count_same | apply State.ewStore_same | intro _ _ | split
    | dsimp only | refine State.Same.upd_4000000000 ?_ ?_

theorem State.nbrsClear_same {fs : Nat} {k : State} (hm : State.Sub 0x4000000000 fs) (s : State) (x1 : Nat) (hs :
  State.Same fs k s) : State.Same fs k (State.nbrsClear s x1) := by
  unfold State.nbrsClear
  try dsimp only
  with_reducible repeat' first
    | assumption | exact State.Sub.of rfl hm | intro _ _ | split | dsimp only | refine State.Same.upd_4000000000 ?_ ?_

/-! ### Rings -/

theorem State.sweepDone_same {fs : Nat} {k : State} (hm : State.Sub 0x8000020010 fs) (s : State) (x1 : Nat) (r : Nat)
  (hs : State.Same fs k s) : State.Same fs k (State.sweepDone s x1 r) := by
  unfold State.sweepDone
  try dsimp only
  with_reducible repeat' first
    | assumption | exact State.Sub.of rfl hm | apply State.setRing_same | apply State.raise_same | intro _ _ | split
    | dsimp only

theorem State.expireRing_same {fs : Nat} {k : State} (hm : State.Sub 0x8000020010 fs) (s : State) (r : Nat) (hs :
  State.Same fs k s) : State.Same fs k (State.expireRing s r) := by
  unfold State.expireRing
  try dsimp only
  with_reducible repeat' first
    | assumption | exact State.Sub.of rfl hm | apply State.setRing_same | apply State.raise_same | intro _ _ | split
    | dsimp only

theorem State.maxAgeWrite_same {fs : Nat} {k : State} (hm : State.Sub 0x8000020010 fs) (s : State) (v : Word) (hs :
  State.Same fs k s) : State.Same fs k (State.maxAgeWrite s v) := by
  unfold State.maxAgeWrite
  try dsimp only
  with_reducible repeat' first
    | assumption | exact State.Sub.of rfl hm | apply State.expireRing_same | apply State.setReg_same | intro _ _ | split
    | dsimp only

theorem State.startFence_same {fs : Nat} {k : State} (hm : State.Sub 0x80 fs) (s : State) (r : Requester) (hs :
  State.Same fs k s) : State.Same fs k (State.startFence s r) := by
  unfold State.startFence
  try dsimp only
  with_reducible repeat' first
    | assumption | exact State.Sub.of rfl hm | intro _ _ | split | dsimp only | refine State.Same.upd_80 ?_ ?_

theorem State.commitReq_same {fs : Nat} {k : State} (hm : State.Sub 0x8000020090 fs) (s : State) (r : Requester)
  (atTime : Bool) (hs : State.Same fs k s) : State.Same fs k (State.commitReq s r atTime) := by
  unfold State.commitReq
  try dsimp only
  with_reducible repeat' first
    | assumption | exact State.Sub.of rfl hm | apply State.raiseIf_same | apply State.startFence_same
    | apply State.setRf_same | apply State.count_same | apply State.raise_same | intro _ _ | split | dsimp only
    | refine State.Same.upd_20000 ?_ ?_

theorem State.cancelReq_same {fs : Nat} {k : State} (hm : State.Sub 0x20000 fs) (s : State) (hs : State.Same fs k s)
  : State.Same fs k (State.cancelReq s) := by
  unfold State.cancelReq
  try dsimp only
  with_reducible repeat' first
    | assumption | exact State.Sub.of rfl hm | intro _ _ | split | dsimp only | refine State.Same.upd_20000 ?_ ?_

theorem State.ringCtrlWrite_same {fs : Nat} {k : State} (hm : State.Sub 0x8000020090 fs) (s : State) (r : Requester)
  (v : Word) (hs : State.Same fs k s) : State.Same fs k (State.ringCtrlWrite s r v) := by
  unfold State.ringCtrlWrite
  try dsimp only
  with_reducible repeat' first
    | assumption | exact State.Sub.of rfl hm | apply State.commitReq_same | apply State.setRf_same
    | apply State.cancelReq_same | intro _ _ | split | dsimp only

theorem State.commitReady_same {fs : Nat} {k : State} (hm : State.Sub 0x20000 fs) (s : State) (hs : State.Same fs k
  s) : State.Same fs k (State.commitReady s) := by
  unfold State.commitReady
  try dsimp only
  with_reducible repeat' first
    | assumption | exact State.Sub.of rfl hm | intro _ _ | split | dsimp only | refine State.Same.upd_20000 ?_ ?_

theorem State.dropExpired_same {fs : Nat} {k : State} (hm : State.Sub 0x8b134c2010 fs) (s : State) (i : Nat) (hs :
  State.Same fs k s) : State.Same fs k (State.dropExpired s i) := by
  unfold State.dropExpired
  try dsimp only
  with_reducible repeat' first
    | assumption | exact State.Sub.of rfl hm | apply State.dropQueued_same | apply State.count64_same | intro _ _ | split
    | dsimp only

theorem State.dropExpireds_same {fs : Nat} {k : State} (hm : State.Sub 0x8b134c2010 fs) (s : State) (x1 : List Nat)
  (hs : State.Same fs k s) : State.Same fs k (State.dropExpireds s x1) := by
  induction x1 generalizing s with
  | nil =>
    unfold State.dropExpireds
    try dsimp only
    with_reducible repeat' first
      | assumption | exact State.Sub.of rfl hm | apply State.dropExpired_same | intro _ _ | split | dsimp only
  | cons a l ih =>
    unfold State.dropExpireds
    try dsimp only
    with_reducible repeat' first
      | assumption | exact State.Sub.of rfl hm | apply ih | apply State.dropExpired_same | intro _ _ | split | dsimp only

theorem State.mapRing_same {fs : Nat} {k : State} (hm : State.Sub 0x10 fs) (s : State) (r : Nat) (x2 : List Nat) (hs
  : State.Same fs k s) : State.Same fs k (State.mapRing s r x2) := by
  induction x2 generalizing s r with
  | nil =>
    unfold State.mapRing
    try dsimp only
    with_reducible repeat' first
      | assumption | exact State.Sub.of rfl hm | apply State.setRf_same | intro _ _ | split | dsimp only
  | cons a l ih =>
    unfold State.mapRing
    try dsimp only
    with_reducible repeat' first
      | assumption | exact State.Sub.of rfl hm | apply ih | apply State.setRf_same | intro _ _ | split | dsimp only

theorem State.retireRings_same {fs : Nat} {k : State} (hm : State.Sub 0x20000 fs) (s : State) (x1 : Bool) (x2 : List
  Nat) (hs : State.Same fs k s) : State.Same fs k (State.retireRings s x1 x2) := by
  induction x2 generalizing s x1 with
  | nil =>
    unfold State.retireRings
    try dsimp only
    with_reducible repeat' first
      | assumption | exact State.Sub.of rfl hm | apply State.setRing_same | intro _ _ | split | dsimp only
  | cons a l ih =>
    unfold State.retireRings
    try dsimp only
    with_reducible repeat' first
      | assumption | exact State.Sub.of rfl hm | apply ih | apply State.setRing_same | intro _ _ | split | dsimp only

theorem State.sampleRing_same {fs : Nat} {k : State} (hm : State.Sub 0x20000 fs) (s : State) (r : Nat) (hs :
  State.Same fs k s) : State.Same fs k (State.sampleRing s r) := by
  unfold State.sampleRing
  try dsimp only
  with_reducible repeat' first
    | assumption | exact State.Sub.of rfl hm | apply State.setRing_same | intro _ _ | split | dsimp only

theorem State.sample_same {fs : Nat} {k : State} (hm : State.Sub 0x20000 fs) (s : State) (hs : State.Same fs k s) :
  State.Same fs k (State.sample s) := by
  unfold State.sample
  try dsimp only
  with_reducible repeat' first
    | assumption | exact State.Sub.of rfl hm | apply State.retireRings_same | apply State.sampleRing_same | intro _ _
    | split | dsimp only

theorem State.commitYield_same {fs : Nat} {k : State} (hm : State.Sub 0x10 fs) (s : State) (x1 : Nat) (hs :
  State.Same fs k s) : State.Same fs k (State.commitYield s x1) := by
  unfold State.commitYield
  try dsimp only
  with_reducible repeat' first
    | assumption | exact State.Sub.of rfl hm | apply State.setReg_same | intro _ _ | split | dsimp only

theorem execCommitReady_same {fs : Nat} {k : State} (hm : State.Sub 0x20000 fs) {s : State} {rr : State} (ht :
  execCommitReady s = .next rr) (hs : State.Same fs k s) : State.Same fs k rr := by
  refine State.Same.run (fun s hs => ?_) hs ht
  try dsimp only
  with_reducible repeat' first
    | assumption | exact State.Sub.of rfl hm | apply State.commitReady_same | intro _ _ | split | dsimp only

theorem State.scanPunts_same {fs : Nat} {k : State} (hm : State.Sub 0x8b120c2010 fs) (s : State) (x1 : Nat) (hs :
  State.Same fs k s) : State.Same fs k (State.scanPunts s x1) := by
  induction x1 generalizing s with
  | zero =>
    unfold State.scanPunts
    try dsimp only
    with_reducible repeat' first
      | assumption | exact State.Sub.of rfl hm | apply State.count64_same | apply State.dropPunts_same | intro _ _ | split
      | dsimp only
  | succ n ih =>
    unfold State.scanPunts
    try dsimp only
    with_reducible repeat' first
      | assumption | exact State.Sub.of rfl hm | apply ih | apply State.count64_same | apply State.dropPunts_same
      | intro _ _ | split | dsimp only

theorem State.dropMcasts_same {fs : Nat} {k : State} (hm : State.Sub 0x8b121d2010 fs) (s : State) (x1 : List Nat) (hs
  : State.Same fs k s) : State.Same fs k (State.dropMcasts s x1) := by
  induction x1 generalizing s with
  | nil =>
    unfold State.dropMcasts
    try dsimp only
    with_reducible repeat' first
      | assumption | exact State.Sub.of rfl hm | apply State.dropMcast_same | apply State.count64_same | intro _ _ | split
      | dsimp only
  | cons a l ih =>
    unfold State.dropMcasts
    try dsimp only
    with_reducible repeat' first
      | assumption | exact State.Sub.of rfl hm | apply ih | apply State.dropMcast_same | apply State.count64_same
      | intro _ _ | split | dsimp only

theorem State.scanQueue_same {fs : Nat} {k : State} (hm : State.Sub 0x8b136c2010 fs) (s : State) (q : Nat) (hs :
  State.Same fs k s) : State.Same fs k (State.scanQueue s q) := by
  unfold State.scanQueue
  try dsimp only
  with_reducible repeat' first
    | assumption | exact State.Sub.of rfl hm | apply State.setQueue_same | apply State.dropExpireds_same | intro _ _
    | split | dsimp only

theorem State.scanQueues_same {fs : Nat} {k : State} (hm : State.Sub 0x8b136c2010 fs) (s : State) (x1 : List Nat) (hs
  : State.Same fs k s) : State.Same fs k (State.scanQueues s x1) := by
  induction x1 generalizing s with
  | nil =>
    unfold State.scanQueues
    try dsimp only
    with_reducible repeat' first
      | assumption | exact State.Sub.of rfl hm | apply State.scanQueue_same | intro _ _ | split | dsimp only
  | cons a l ih =>
    unfold State.scanQueues
    try dsimp only
    with_reducible repeat' first
      | assumption | exact State.Sub.of rfl hm | apply ih | apply State.scanQueue_same | intro _ _ | split | dsimp only

theorem State.expiryScan_same {fs : Nat} {k : State} (hm : State.Sub 0x8b137d2010 fs) (s : State) (x1 : Nat) (hs :
  State.Same fs k s) : State.Same fs k (State.expiryScan s x1) := by
  unfold State.expiryScan
  try dsimp only
  with_reducible repeat' first
    | assumption | exact State.Sub.of rfl hm | apply State.scanPunts_same | apply State.setPath_same
    | apply State.dropMcasts_same | apply State.scanQueues_same | intro _ _ | split | dsimp only

theorem execExpiryScan_same {fs : Nat} {k : State} (hm : State.Sub 0x8b137d2010 fs) {x0 : Half} {s : State} {rr :
  State} (ht : execExpiryScan x0 s = .next rr) (hs : State.Same fs k s) : State.Same fs k rr := by
  refine State.Same.run (fun s hs => ?_) hs ht
  try dsimp only
  with_reducible repeat' first
    | assumption | exact State.Sub.of rfl hm | apply State.expiryScan_same | apply State.onlyIf_same | intro _ _ | split
    | dsimp only

theorem State.commitNow_same {fs : Nat} {k : State} (hm : State.Sub 0x18000020010 fs) (s : State) (c : Commit) (t :
  Nat) (hs : State.Same fs k s) : State.Same fs k (State.commitNow s c t) := by
  unfold State.commitNow
  try dsimp only
  with_reducible repeat' first
    | assumption | exact State.Sub.of rfl hm | apply State.raiseAll_same | apply State.count_same
    | apply State.count64_same | apply State.commitYield_same | apply State.peerHold_same | apply State.setRing_same
    | apply State.mapRing_same | intro _ _ | split | dsimp only | refine State.Same.upd_10000020000 ?_ ?_

theorem State.refuse_same {fs : Nat} {k : State} (hm : State.Sub 0x8000020010 fs) (s : State) (why : Nat) (page :
  Nat) (hs : State.Same fs k s) : State.Same fs k (State.refuse s why page) := by
  unfold State.refuse
  try dsimp only
  with_reducible repeat' first
    | assumption | exact State.Sub.of rfl hm | apply State.count_same | apply State.raise_same | apply State.setReg_same
    | intro _ _ | split | dsimp only | refine State.Same.upd_20000 ?_ ?_

theorem State.commitEdge_same {fs : Nat} {k : State} (hm : State.Sub 0x18000020010 fs) (s : State) (hs : State.Same
  fs k s) : State.Same fs k (State.commitEdge s) := by
  unfold State.commitEdge
  try dsimp only
  with_reducible repeat' first
    | assumption | exact State.Sub.of rfl hm | apply State.commitNow_same | apply State.refuse_same | intro _ _ | split
    | dsimp only

theorem execRingExpire_same {fs : Nat} {k : State} (hm : State.Sub 0x8000020010 fs) {r : Ring} {s : State} {rr :
  State} (ht : execRingExpire r s = .next rr) (hs : State.Same fs k s) : State.Same fs k rr := by
  refine State.Same.run (fun s hs => ?_) hs ht
  try dsimp only
  with_reducible repeat' first
    | assumption | exact State.Sub.of rfl hm | apply State.expireRing_same | intro _ _ | split | dsimp only

theorem execInflightSample_same {fs : Nat} {k : State} (hm : State.Sub 0x20000 fs) {s : State} {rr : State} (ht :
  execInflightSample s = .next rr) (hs : State.Same fs k s) : State.Same fs k rr := by
  refine State.Same.run (fun s hs => ?_) hs ht
  try dsimp only
  with_reducible repeat' first
    | assumption | exact State.Sub.of rfl hm | apply State.sample_same | intro _ _ | split | dsimp only

theorem execCommitTakeEffect_same {fs : Nat} {k : State} (hm : State.Sub 0x18000020010 fs) {s : State} {rr : State}
  (ht : execCommitTakeEffect s = .next rr) (hs : State.Same fs k s) : State.Same fs k rr := by
  refine State.Same.run (fun s hs => ?_) hs ht
  try dsimp only
  with_reducible repeat' first
    | assumption | exact State.Sub.of rfl hm | apply State.commitEdge_same | intro _ _ | split | dsimp only

/-! ### WoodOps -/

theorem State.setEmW_same {fs : Nat} {k : State} (hm : State.Sub 0x40 fs) (s : State) (x1 : Nat) (loc : Nat) (i :
  Nat) (v : Word) (hs : State.Same fs k s) : State.Same fs k (State.setEmW s x1 loc i v) := by
  unfold State.setEmW
  try dsimp only
  with_reducible repeat' first
    | assumption | exact State.Sub.of rfl hm | apply State.setMemW_same | intro _ _ | split | dsimp only

theorem State.setEmSlot_same {fs : Nat} {k : State} (hm : State.Sub 0x40 fs) (s : State) (x1 : Nat) (loc : Nat) (ws :
  List Word) (hs : State.Same fs k s) : State.Same fs k (State.setEmSlot s x1 loc ws) := by
  unfold State.setEmSlot
  try dsimp only
  with_reducible repeat' first
    | assumption | exact State.Sub.of rfl hm | apply State.setMemWs_same | intro _ _ | split | dsimp only

theorem State.copyEntry_same {fs : Nat} {k : State} (hm : State.Sub 0x40 fs) (s : State) (x1 : Nat) (src : Nat) (d :
  Nat) (hs : State.Same fs k s) : State.Same fs k (State.copyEntry s x1 src d) := by
  unfold State.copyEntry
  try dsimp only
  with_reducible repeat' first
    | assumption | exact State.Sub.of rfl hm | apply State.setEmSlot_same | intro _ _ | split | dsimp only

theorem State.clearEntry_same {fs : Nat} {k : State} (hm : State.Sub 0x40 fs) (s : State) (x1 : Nat) (loc : Nat) (hs
  : State.Same fs k s) : State.Same fs k (State.clearEntry s x1 loc) := by
  unfold State.clearEntry
  try dsimp only
  with_reducible repeat' first
    | assumption | exact State.Sub.of rfl hm | apply State.setEmW_same | intro _ _ | split | dsimp only

theorem State.leaveSlot_same {fs : Nat} {k : State} (hm : State.Sub 0x40 fs) (s : State) (x1 : Nat) (src : Nat) (d :
  Nat) (hs : State.Same fs k s) : State.Same fs k (State.leaveSlot s x1 src d) := by
  unfold State.leaveSlot
  try dsimp only
  with_reducible repeat' first
    | assumption | exact State.Sub.of rfl hm | apply State.clearEntry_same | apply State.setEmW_same | intro _ _ | split
    | dsimp only

theorem State.pathLeave_same {fs : Nat} {k : State} (hm : State.Sub 0x40 fs) (s : State) (x1 : Nat) (path : List Nat)
  (j : Nat) (hs : State.Same fs k s) : State.Same fs k (State.pathLeave s x1 path j) := by
  unfold State.pathLeave
  try dsimp only
  with_reducible repeat' first
    | assumption | exact State.Sub.of rfl hm | apply State.leaveSlot_same | intro _ _ | split | dsimp only

theorem State.pathStep_same {fs : Nat} {k : State} (hm : State.Sub 0x40 fs) (s : State) (x1 : Nat) (path : List Nat)
  (j : Nat) (hs : State.Same fs k s) : State.Same fs k (State.pathStep s x1 path j) := by
  unfold State.pathStep
  try dsimp only
  with_reducible repeat' first
    | assumption | exact State.Sub.of rfl hm | apply State.copyEntry_same | apply State.pathLeave_same | intro _ _ | split
    | dsimp only

theorem State.pathRun_same {fs : Nat} {k : State} (hm : State.Sub 0x40 fs) (s : State) (x1 : Nat) (path : List Nat)
  (x3 : Nat) (x4 : Nat) (hs : State.Same fs k s) : State.Same fs k (State.pathRun s x1 path x3 x4) := by
  induction x4 generalizing s x3 with
  | zero => exact hs
  | succ n ih => exact ih _ _ (State.pathStep_same (.of rfl hm) _ _ _ _ hs)

theorem State.pathEnd_same {fs : Nat} {k : State} (hm : State.Sub 0x40 fs) (s : State) (x1 : Nat) (path : List Nat)
  (j : Nat) (hs : State.Same fs k s) : State.Same fs k (State.pathEnd s x1 path j) := by
  unfold State.pathEnd
  try dsimp only
  with_reducible repeat' first
    | assumption | exact State.Sub.of rfl hm | apply State.pathRun_same | apply State.pathLeave_same | intro _ _ | split
    | dsimp only

theorem State.writeEntry_same {fs : Nat} {k : State} (hm : State.Sub 0x40 fs) (s : State) (x1 : Nat) (loc : Nat) (t :
  Nat) (key : List Byte) (res : Nat) (ctrl : Word) (hs : State.Same fs k s) : State.Same fs k (State.writeEntry s x1
  loc t key res ctrl) := by
  unfold State.writeEntry
  try dsimp only
  with_reducible repeat' first
    | assumption | exact State.Sub.of rfl hm | apply State.setEmSlot_same | intro _ _ | split | dsimp only

theorem State.makeRoom_same {fs : Nat} {k : State} (hm : State.Sub 0x40 fs) {s : State} {x1 : Nat} {t : Nat} {key :
  List Byte} {stash : Bool} {rr : State} {rn : Nat} (ht : State.makeRoom s x1 t key stash = some (rr, rn)) (hs :
  State.Same fs k s) : State.Same fs k rr := by
  unfold State.makeRoom at ht
  obtain ⟨l, -, h⟩ := Option.map_eq_some_iff.1 ht
  cases h; exact State.pathEnd_same (.of rfl hm) _ _ _ _ hs

theorem State.placeEntry_same {fs : Nat} {k : State} (hm : State.Sub 0x8000000050 fs) {s : State} {x1 : Nat} {t :
  Nat} {key : List Byte} {res : Nat} {ctrl : Word} {rr : State} {rn : Nat} (ht : State.placeEntry s x1 t key res ctrl
  = some (rr, rn)) (hs : State.Same fs k s) : State.Same fs k rr := by
  unfold State.placeEntry at ht
  dsimp only at ht
  repeat' (split at ht)
  all_goals (first | contradiction | skip)
  all_goals (try (cases ht))
  all_goals
    with_reducible repeat' first
      | assumption | exact State.Sub.of rfl hm | apply State.raiseIf_same | apply State.writeEntry_same
      | refine State.makeRoom_same ?_ (by assumption) ?_ | intro _ _ | split | dsimp only

theorem State.setResult_same {fs : Nat} {k : State} (hm : State.Sub 0x40 fs) (s : State) (x1 : Nat) (loc : Nat) (r :
  Nat) (hs : State.Same fs k s) : State.Same fs k (State.setResult s x1 loc r) := by
  unfold State.setResult
  try dsimp only
  with_reducible repeat' first
    | assumption | exact State.Sub.of rfl hm | apply State.setMemWs_same | intro _ _ | split | dsimp only

theorem State.tcLookup_same {fs : Nat} {k : State} (hm : State.Sub 0x10 fs) (s : State) (sl : Nat) (key : List Byte)
  (r : Nat) (hs : State.Same fs k s) : State.Same fs k (State.tcLookup s sl key r).1 := by
  unfold State.tcLookup
  try dsimp only
  with_reducible repeat' first
    | assumption | exact State.Sub.of rfl hm | apply State.count64_same | intro _ _ | split | dsimp only

theorem State.tcLookup_same_eq {fs : Nat} {k : State} (hm : State.Sub 0x10 fs) {s : State} {sl : Nat} {key : List
  Byte} {r : Nat} {ra rb} (ht : State.tcLookup s sl key r = (ra, rb)) (hs : State.Same fs k s) : State.Same fs k ra
  := by
  have := State.tcLookup_same (k := k) hm s sl key r hs
  rw [ht] at this
  exact this

theorem State.lpmLookup_same {fs : Nat} {k : State} (hm : State.Sub 0x10 fs) (s : State) (x1 : Nat) (n : Nat) (key :
  List Byte) (r : Nat) (hs : State.Same fs k s) : State.Same fs k (State.lpmLookup s x1 n key r).1 := by
  unfold State.lpmLookup
  try dsimp only
  with_reducible repeat' first
    | assumption | exact State.Sub.of rfl hm | apply State.count64_same | intro _ _ | split | dsimp only

theorem State.lpmLookup_same_eq {fs : Nat} {k : State} (hm : State.Sub 0x10 fs) {s : State} {x1 : Nat} {n : Nat} {key
  : List Byte} {r : Nat} {ra rb} (ht : State.lpmLookup s x1 n key r = (ra, rb)) (hs : State.Same fs k s) : State.Same
  fs k ra := by
  have := State.lpmLookup_same (k := k) hm s x1 n key r hs
  rw [ht] at this
  exact this

theorem State.learnSubmit_same {fs : Nat} {k : State} (hm : State.Sub 0x8020000010 fs) (s : State) (x1 : Nat) (t :
  Nat) (key : List Byte) (src : Nat) (hs : State.Same fs k s) : State.Same fs k (State.learnSubmit s x1 t key src) := by
  unfold State.learnSubmit
  try dsimp only
  with_reducible repeat' first
    | assumption | exact State.Sub.of rfl hm | apply State.count_same | apply State.raise_same | apply State.setWood_same
    | intro _ _ | split | dsimp only

theorem State.emLookup_same {fs : Nat} {k : State} (hm : State.Sub 0x80a0000050 fs) (s : State) (x1 : Nat) (t : Nat)
  (key : List Byte) (r : Nat) (hitset : Bool) (src : Nat) (learn : Bool) (hs : State.Same fs k s) : State.Same fs k
  (State.emLookup s x1 t key r hitset src learn).1 := by
  unfold State.emLookup
  try dsimp only
  with_reducible repeat' first
    | assumption | exact State.Sub.of rfl hm | apply State.setEmW_same | apply State.learnSubmit_same
    | apply State.count64_same | intro _ _ | split | dsimp only | refine State.Same.upd_80000000 ?_ ?_

theorem State.emLookup_same_eq {fs : Nat} {k : State} (hm : State.Sub 0x80a0000050 fs) {s : State} {x1 : Nat} {t :
  Nat} {key : List Byte} {r : Nat} {hitset : Bool} {src : Nat} {learn : Bool} {ra rb} (ht : State.emLookup s x1 t key
  r hitset src learn = (ra, rb)) (hs : State.Same fs k s) : State.Same fs k ra := by
  have := State.emLookup_same (k := k) hm s x1 t key r hitset src learn hs
  rw [ht] at this
  exact this

theorem State.moveEntry_same {fs : Nat} {k : State} (hm : State.Sub 0x40 fs) (s : State) (x1 : Nat) (src : Nat) (d :
  Nat) (hs : State.Same fs k s) : State.Same fs k (State.moveEntry s x1 src d) := by
  unfold State.moveEntry
  try dsimp only
  with_reducible repeat' first
    | assumption | exact State.Sub.of rfl hm | apply State.copyEntry_same | apply State.leaveSlot_same | intro _ _ | split
    | dsimp only

/-! ### LearnOps -/

theorem State.tellEast_same {fs : Nat} {k : State} (hm : State.Sub 0x40000000 fs) (s : State) (t : Nat) (key : List
  Byte) (op : EastOp) (w : Word) (hs : State.Same fs k s) : State.Same fs k (State.tellEast s t key op w) := by
  unfold State.tellEast
  try dsimp only
  with_reducible repeat' first
    | assumption | exact State.Sub.of rfl hm | intro _ _ | split | dsimp only | refine State.Same.upd_40000000 ?_ ?_

theorem State.learnNotice_same {fs : Nat} {k : State} (hm : State.Sub 0x800000018 fs) (s : State) (x1 : Nat) (t :
  Nat) (key : List Byte) (new : Nat) (old : Nat) (hs : State.Same fs k s) : State.Same fs k (State.learnNotice s x1 t
  key new old) := by
  unfold State.learnNotice
  try dsimp only
  with_reducible repeat' first
    | assumption | exact State.Sub.of rfl hm | apply State.notice_same | intro _ _ | split | dsimp only

theorem State.moveDest_same {fs : Nat} {k : State} (hm : State.Sub 0x40 fs) (s : State) (x1 : Nat) (loc : Nat) (d :
  Nat) (hs : State.Same fs k s) : State.Same fs k (State.moveDest s x1 loc d) := by
  unfold State.moveDest
  try dsimp only
  with_reducible repeat' first
    | assumption | exact State.Sub.of rfl hm | apply State.setEmW_same | apply State.setResult_same | intro _ _ | split
    | dsimp only

theorem State.setDamp_same {fs : Nat} {k : State} (hm : State.Sub 0x40 fs) (s : State) (x1 : Nat) (loc : Nat) (d :
  Damp) (hs : State.Same fs k s) : State.Same fs k (State.setDamp s x1 loc d) := by
  unfold State.setDamp
  try dsimp only
  with_reducible repeat' first
    | assumption | exact State.Sub.of rfl hm | apply State.setEmW_same | intro _ _ | split | dsimp only

theorem State.learnMove_same {fs : Nat} {k : State} (hm : State.Sub 0x8840000058 fs) (s : State) (t : Nat) (key :
  List Byte) (src : Nat) (loc : Nat) (old : Nat) (hs : State.Same fs k s) : State.Same fs k (State.learnMove s t key
  src loc old) := by
  unfold State.learnMove
  try dsimp only
  with_reducible repeat' first
    | assumption | exact State.Sub.of rfl hm | apply State.count_same | apply State.raise_same | apply State.tellEast_same
    | apply State.learnNotice_same | apply State.moveDest_same | apply State.count64_same | apply State.setDamp_same
    | intro _ _ | split | dsimp only

theorem State.learnNew_same {fs : Nat} {k : State} (hm : State.Sub 0x8840000058 fs) (s : State) (t : Nat) (key : List
  Byte) (src : Nat) (hs : State.Same fs k s) : State.Same fs k (State.learnNew s t key src) := by
  unfold State.learnNew
  try dsimp only
  with_reducible repeat' first
    | assumption | exact State.Sub.of rfl hm | apply State.tellEast_same | apply State.learnNotice_same
    | apply State.count64_same | apply State.count_same | apply State.raise_same
    | refine State.placeEntry_same ?_ (by assumption) ?_ | intro _ _ | split | dsimp only

theorem State.learnProcess_same {fs : Nat} {k : State} (hm : State.Sub 0x8840000058 fs) (s : State) (x : LearnReq)
  (hs : State.Same fs k s) : State.Same fs k (State.learnProcess s x) := by
  unfold State.learnProcess
  try dsimp only
  with_reducible repeat' first
    | assumption | exact State.Sub.of rfl hm | apply State.learnMove_same | apply State.learnNotice_same
    | apply State.count_same | apply State.raise_same | apply State.learnNew_same | intro _ _ | split | dsimp only

theorem State.learnTake_same {fs : Nat} {k : State} (hm : State.Sub 0x8860000058 fs) (s : State) (x1 : Nat) (hs :
  State.Same fs k s) : State.Same fs k (State.learnTake s x1) := by
  unfold State.learnTake
  try dsimp only
  with_reducible repeat' first
    | assumption | exact State.Sub.of rfl hm | apply State.learnProcess_same | apply State.count_same
    | apply State.raise_same | apply State.setWood_same | intro _ _ | split | dsimp only

theorem State.eastTake_same {fs : Nat} {k : State} (hm : State.Sub 0x8000000050 fs) (s : State) (c : EastChange) (hs
  : State.Same fs k s) : State.Same fs k (State.eastTake s c) := by
  unfold State.eastTake
  try dsimp only
  with_reducible repeat' first
    | assumption | exact State.Sub.of rfl hm | apply State.clearEntry_same | apply State.setEmW_same
    | refine State.placeEntry_same ?_ (by assumption) ?_ | apply State.moveDest_same | apply State.setDamp_same | intro _ _
    | split | dsimp only

theorem State.eastApply_same {fs : Nat} {k : State} (hm : State.Sub 0x8040000050 fs) (s : State) (hs : State.Same fs
  k s) : State.Same fs k (State.eastApply s) := by
  unfold State.eastApply
  try dsimp only
  with_reducible repeat' first
    | assumption | exact State.Sub.of rfl hm | apply State.eastTake_same | intro _ _ | split | dsimp only
    | refine State.Same.upd_40000000 ?_ ?_

theorem State.learnServe_same {fs : Nat} {k : State} (hm : State.Sub 0x8860000058 fs) (s : State) (x1 : Nat) (x2 :
  Nat) (hs : State.Same fs k s) : State.Same fs k (State.learnServe s x1 x2) := by
  induction x2 generalizing s x1 with
  | zero =>
    unfold State.learnServe
    try dsimp only
    with_reducible repeat' first
      | assumption | exact State.Sub.of rfl hm | apply State.learnTake_same | apply State.eastApply_same | intro _ _
      | split | dsimp only
  | succ n ih =>
    unfold State.learnServe
    try dsimp only
    with_reducible repeat' first
      | assumption | exact State.Sub.of rfl hm | apply ih | apply State.learnTake_same | apply State.eastApply_same
      | intro _ _ | split | dsimp only

/-! ### BankOps -/

theorem State.tcFault_same {fs : Nat} {k : State} (hm : State.Sub 0x8000000050 fs) (s : State) (sl : Nat) (e : Nat)
  (hs : State.Same fs k s) : State.Same fs k (State.tcFault s sl e) := by
  unfold State.tcFault
  try dsimp only
  with_reducible repeat' first
    | assumption | exact State.Sub.of rfl hm | apply State.setMemW_same | apply State.count_same | apply State.raise_same
    | intro _ _ | split | dsimp only

theorem State.migStart_same {fs : Nat} {k : State} (hm : State.Sub 0x8020000010 fs) (s : State) (x1 : Nat) (bank :
  Nat) (hs : State.Same fs k s) : State.Same fs k (State.migStart s x1 bank) := by
  unfold State.migStart
  try dsimp only
  with_reducible repeat' first
    | assumption | exact State.Sub.of rfl hm | apply State.setWood_same | apply State.raise_same | intro _ _ | split
    | dsimp only

theorem State.migAsk_same {fs : Nat} {k : State} (hm : State.Sub 0x8020000010 fs) (s : State) (x1 : Nat) (bank : Nat)
  (hs : State.Same fs k s) : State.Same fs k (State.migAsk s x1 bank) := by
  unfold State.migAsk
  try dsimp only
  with_reducible repeat' first
    | assumption | exact State.Sub.of rfl hm | apply State.setWood_same | apply State.migStart_same | intro _ _ | split
    | dsimp only

theorem State.corrected_same {fs : Nat} {k : State} (hm : State.Sub 0x8020000010 fs) (s : State) (x1 : Nat) (bank :
  Nat) (hs : State.Same fs k s) : State.Same fs k (State.corrected s x1 bank) := by
  unfold State.corrected
  try dsimp only
  with_reducible repeat' first
    | assumption | exact State.Sub.of rfl hm | apply State.setWood_same | apply State.migAsk_same | intro _ _ | split
    | dsimp only

theorem State.uncorrected_same {fs : Nat} {k : State} (hm : State.Sub 0x8020000050 fs) (s : State) (x1 : Nat) (l :
  Nat) (hs : State.Same fs k s) : State.Same fs k (State.uncorrected s x1 l) := by
  unfold State.uncorrected
  try dsimp only
  with_reducible repeat' first
    | assumption | exact State.Sub.of rfl hm | apply State.raise_same | apply State.migAsk_same | apply State.setReg_same
    | apply State.count_same | apply State.setEmSlot_same | apply State.setWood_same | intro _ _ | split | dsimp only

theorem State.woodEcc_same {fs : Nat} {k : State} (hm : State.Sub 0x8020000050 fs) (s : State) (x1 : Nat) (l : Nat)
  (uncorr : Bool) (hs : State.Same fs k s) : State.Same fs k (State.woodEcc s x1 l uncorr) := by
  unfold State.woodEcc
  try dsimp only
  with_reducible repeat' first
    | assumption | exact State.Sub.of rfl hm | apply State.count_same | apply State.raise_same | apply State.corrected_same
    | apply State.uncorrected_same | intro _ _ | split | dsimp only

theorem State.copyPos_same {fs : Nat} {k : State} (hm : State.Sub 0x40 fs) (s : State) (x1 : Nat) (from_ : Nat) (dst
  : Nat) (u : Nat) (hs : State.Same fs k s) : State.Same fs k (State.copyPos s x1 from_ dst u) := by
  unfold State.copyPos
  try dsimp only
  with_reducible repeat' first
    | assumption | exact State.Sub.of rfl hm | apply State.setMemWs_same | intro _ _ | split | dsimp only

theorem State.copyBack_same {fs : Nat} {k : State} (hm : State.Sub 0x40 fs) (s : State) (x1 : Nat) (from_ : Nat) (dst
  : Nat) (x4 : Nat) (hs : State.Same fs k s) : State.Same fs k (State.copyBack s x1 from_ dst x4) := by
  induction x4 generalizing s x1 from_ dst with
  | zero =>
    unfold State.copyBack
    try dsimp only
    with_reducible repeat' first
      | assumption | exact State.Sub.of rfl hm | apply State.copyPos_same | intro _ _ | split | dsimp only
  | succ n ih =>
    unfold State.copyBack
    try dsimp only
    with_reducible repeat' first
      | assumption | exact State.Sub.of rfl hm | apply ih | apply State.copyPos_same | intro _ _ | split | dsimp only

theorem State.migDrop_same {fs : Nat} {k : State} (hm : State.Sub 0x20000040 fs) (s : State) (x1 : Nat) (hs :
  State.Same fs k s) : State.Same fs k (State.migDrop s x1) := by
  unfold State.migDrop
  try dsimp only
  with_reducible repeat' first
    | assumption | exact State.Sub.of rfl hm | apply State.copyBack_same | apply State.setWood_same | intro _ _ | split
    | dsimp only

theorem State.migGo_same {fs : Nat} {k : State} (hm : State.Sub 0x8020000010 fs) (s : State) (x1 : Nat) (bank : Nat)
  (hs : State.Same fs k s) : State.Same fs k (State.migGo s x1 bank) := by
  unfold State.migGo
  try dsimp only
  with_reducible repeat' first
    | assumption | exact State.Sub.of rfl hm | apply State.setRf_same | apply State.migStart_same | intro _ _ | split
    | dsimp only

theorem State.migEnd_same {fs : Nat} {k : State} (hm : State.Sub 0x8020000010 fs) (s : State) (x1 : Nat) (m : Mig)
  (hs : State.Same fs k s) : State.Same fs k (State.migEnd s x1 m) := by
  unfold State.migEnd
  try dsimp only
  with_reducible repeat' first
    | assumption | exact State.Sub.of rfl hm | apply State.raise_same | apply State.setWood_same | intro _ _ | split
    | dsimp only

/-! ### KerfOps -/

theorem State.pairAdd_same {fs : Nat} {k : State} (hm : State.Sub 0x40 fs) (s : State) (pg : Nat) (x2 : Nat) (n :
  Nat) (b : Nat) (hs : State.Same fs k s) : State.Same fs k (State.pairAdd s pg x2 n b) := by
  unfold State.pairAdd
  try dsimp only
  with_reducible repeat' first
    | assumption | exact State.Sub.of rfl hm | apply State.setMemWs_same | intro _ _ | split | dsimp only

theorem State.setMeter_same {fs : Nat} {k : State} (hm : State.Sub 0x4000000 fs) (s : State) (pg : Nat) (m : Nat) (x
  : MeterS) (hs : State.Same fs k s) : State.Same fs k (State.setMeter s pg m x) := by
  unfold State.setMeter
  try dsimp only
  with_reducible repeat' first
    | assumption | exact State.Sub.of rfl hm | intro _ _ | split | dsimp only | refine State.Same.upd_4000000 ?_ ?_

theorem State.lateCharge_same {fs : Nat} {k : State} (hm : State.Sub 0x4000000 fs) (s : State) (len : Nat) (l :
  LateItem) (hs : State.Same fs k s) : State.Same fs k (State.lateCharge s len l) := by
  unfold State.lateCharge
  try dsimp only
  with_reducible repeat' first
    | assumption | exact State.Sub.of rfl hm | apply State.setMeter_same | intro _ _ | split | dsimp only

theorem State.lateItems_same {fs : Nat} {k : State} (hm : State.Sub 0x4000040 fs) (s : State) (len : Nat) (x2 : List
  LateItem) (hs : State.Same fs k s) : State.Same fs k (State.lateItems s len x2) := by
  induction x2 generalizing s len with
  | nil =>
    unfold State.lateItems
    try dsimp only
    with_reducible repeat' first
      | assumption | exact State.Sub.of rfl hm | apply State.pairAdd_same | apply State.lateCharge_same | intro _ _ | split
      | dsimp only
  | cons a l ih =>
    unfold State.lateItems
    try dsimp only
    with_reducible repeat' first
      | assumption | exact State.Sub.of rfl hm | apply ih | apply State.pairAdd_same | apply State.lateCharge_same
      | intro _ _ | split | dsimp only

theorem State.lateDue_same {fs : Nat} {k : State} (hm : State.Sub 0xc000040 fs) (s : State) (root : Nat) (len : Nat)
  (hs : State.Same fs k s) : State.Same fs k (State.lateDue s root len) := by
  unfold State.lateDue
  try dsimp only
  with_reducible repeat' first
    | assumption | exact State.Sub.of rfl hm | apply State.lateItems_same | intro _ _ | split | dsimp only
    | refine State.Same.upd_8000000 ?_ ?_

theorem State.setMicro_same {fs : Nat} {k : State} (hm : State.Sub 0x40 fs) (s : State) (pg : Nat) (b : Nat) (a :
  Nat) (w : Nat) (hs : State.Same fs k s) : State.Same fs k (State.setMicro s pg b a w) := by
  unfold State.setMicro
  try dsimp only
  with_reducible repeat' first
    | assumption | exact State.Sub.of rfl hm | apply State.setMemWs_same | intro _ _ | split | dsimp only

theorem State.toStage_same {fs : Nat} {k : State} (hm : State.Sub 0x8000 fs) (s : State) (sl : Nat) (key : Nat) (i :
  Nat) (hs : State.Same fs k s) : State.Same fs k (State.toStage s sl key i) := by
  unfold State.toStage
  try dsimp only
  with_reducible repeat' first
    | assumption | exact State.Sub.of rfl hm | apply State.setSlice_same | intro _ _ | split | dsimp only

theorem State.dropIngress_same {fs : Nat} {k : State} (hm : State.Sub 0x310042010 fs) (s : State) (i : Nat) (sl :
  Nat) (reason : Nat) (hs : State.Same fs k s) : State.Same fs k (State.dropIngress s i sl reason) := by
  unfold State.dropIngress
  try dsimp only
  with_reducible repeat' first
    | assumption | exact State.Sub.of rfl hm | apply State.dropNull_same | apply State.setFrame_same | intro _ _ | split
    | dsimp only

theorem State.puntFrame_same {fs : Nat} {k : State} (hm : State.Sub 0x310142010 fs) (s : State) (i : Nat) (x2 : Nat)
  (hs : State.Same fs k s) : State.Same fs k (State.puntFrame s i x2) := by
  unfold State.puntFrame
  try dsimp only
  with_reducible repeat' first
    | assumption | exact State.Sub.of rfl hm | apply State.toStep4_same | apply State.count_same
    | apply State.dropNull_same | intro _ _ | split | dsimp only

theorem State.puntStage_same {fs : Nat} {k : State} (hm : State.Sub 0x8b135c2010 fs) (s : State) (i : Nat) (sl : Nat)
  (dir : Dir) (code : Nat) (hs : State.Same fs k s) : State.Same fs k (State.puntStage s i sl dir code) := by
  unfold State.puntStage
  try dsimp only
  with_reducible repeat' first
    | assumption | exact State.Sub.of rfl hm | apply State.settleDeficit_same | apply State.giveUp_same
    | apply State.setFrame_same | apply State.puntFrame_same | intro _ _ | split | dsimp only

theorem State.dropStage_same {fs : Nat} {k : State} (hm : State.Sub 0x8b134c2010 fs) (s : State) (i : Nat) (sl : Nat)
  (dir : Dir) (reason : Nat) (hs : State.Same fs k s) : State.Same fs k (State.dropStage s i sl dir reason) := by
  unfold State.dropStage
  try dsimp only
  with_reducible repeat' first
    | assumption | exact State.Sub.of rfl hm | apply State.dropQueued_same | apply State.dropIngress_same | intro _ _
    | split | dsimp only

theorem State.tdCycle_same {fs : Nat} {k : State} (hm : State.Sub 0x1000000000 fs) (s : State) (e : Nat) (gone :
  Bool) (hs : State.Same fs k s) : State.Same fs k (State.tdCycle s e gone) := by
  unfold State.tdCycle
  try dsimp only
  with_reducible repeat' first
    | assumption | exact State.Sub.of rfl hm | intro _ _ | split | dsimp only | refine State.Same.upd_1000000000 ?_ ?_

theorem State.tdGone_same {fs : Nat} {k : State} (hm : State.Sub 0x1000000000 fs) (s : State) (e : Nat) (x2 : Nat)
  (hs : State.Same fs k s) : State.Same fs k (State.tdGone s e x2) := by
  induction x2 generalizing s e with
  | zero =>
    unfold State.tdGone
    try dsimp only
    with_reducible repeat' first
      | assumption | exact State.Sub.of rfl hm | apply State.tdCycle_same | intro _ _ | split | dsimp only
  | succ n ih =>
    unfold State.tdGone
    try dsimp only
    with_reducible repeat' first
      | assumption | exact State.Sub.of rfl hm | apply ih | apply State.tdCycle_same | intro _ _ | split | dsimp only

theorem State.addLate_same {fs : Nat} {k : State} (hm : State.Sub 0xc000040 fs) (s : State) (f : Frame) (l :
  LateItem) (hs : State.Same fs k s) : State.Same fs k (State.addLate s f l) := by
  unfold State.addLate
  try dsimp only
  with_reducible repeat' first
    | assumption | exact State.Sub.of rfl hm | apply State.lateItems_same | intro _ _ | split | dsimp only
    | refine State.Same.upd_8000000 ?_ ?_

theorem State.microLookup_same {fs : Nat} {k : State} (hm : State.Sub 0x80a0000050 fs) (s : State) (sl : Nat) (dir :
  Dir) (pg : Nat) (b : Nat) (w : Nat) (f : Frame) (key : List Byte) (hs : State.Same fs k s) : State.Same fs k
  (State.microLookup s sl dir pg b w f key).1 := by
  unfold State.microLookup
  try dsimp only
  with_reducible repeat' first
    | assumption | exact State.Sub.of rfl hm | apply State.tcLookup_same
    | refine State.tcLookup_same_eq ?_ (by assumption) ?_ | apply State.lpmLookup_same
    | refine State.lpmLookup_same_eq ?_ (by assumption) ?_ | apply State.emLookup_same
    | refine State.emLookup_same_eq ?_ (by assumption) ?_ | intro _ _ | split | dsimp only

theorem State.microLookup_same_eq {fs : Nat} {k : State} (hm : State.Sub 0x80a0000050 fs) {s : State} {sl : Nat} {dir
  : Dir} {pg : Nat} {b : Nat} {w : Nat} {f : Frame} {key : List Byte} {ra rb} (ht : State.microLookup s sl dir pg b w
  f key = (ra, rb)) (hs : State.Same fs k s) : State.Same fs k ra := by
  have := State.microLookup_same (k := k) hm s sl dir pg b w f key hs
  rw [ht] at this
  exact this

/-! ### TimeCmds -/

theorem State.markSuspect_same {fs : Nat} {k : State} (hm : State.Sub 0x10 fs) (s : State) (q : Nat) (hs : State.Same
  fs k s) : State.Same fs k (State.markSuspect s q) := by
  unfold State.markSuspect
  try dsimp only
  with_reducible repeat' first
    | assumption | exact State.Sub.of rfl hm | apply State.setRf_same | intro _ _ | split | dsimp only

theorem State.markSuspects_same {fs : Nat} {k : State} (hm : State.Sub 0x10 fs) (s : State) (x1 : List Nat) (hs :
  State.Same fs k s) : State.Same fs k (State.markSuspects s x1) := by
  induction x1 generalizing s with
  | nil =>
    unfold State.markSuspects
    try dsimp only
    with_reducible repeat' first
      | assumption | exact State.Sub.of rfl hm | apply State.markSuspect_same | intro _ _ | split | dsimp only
  | cons a l ih =>
    unfold State.markSuspects
    try dsimp only
    with_reducible repeat' first
      | assumption | exact State.Sub.of rfl hm | apply ih | apply State.markSuspect_same | intro _ _ | split | dsimp only

theorem State.setPtp_same {fs : Nat} {k : State} (hm : State.Sub 0x9000000012 fs) (s : State) (t : Nat) (frac : Nat)
  (hs : State.Same fs k s) : State.Same fs k (State.setPtp s t frac) := by
  unfold State.setPtp
  try dsimp only
  with_reducible repeat' first
    | assumption | exact State.Sub.of rfl hm | apply State.raise_same | apply State.markSuspects_same | intro _ _ | split
    | dsimp only | refine State.Same.upd_1000000002 ?_ ?_

theorem State.timeStep_same {fs : Nat} {k : State} (hm : State.Sub 0x9000000012 fs) (s : State) (hs : State.Same fs k
  s) : State.Same fs k (State.timeStep s) := by
  unfold State.timeStep
  try dsimp only
  with_reducible repeat' first
    | assumption | exact State.Sub.of rfl hm | apply State.setPtp_same | intro _ _ | split | dsimp only

theorem State.timeSet_same {fs : Nat} {k : State} (hm : State.Sub 0x9000000012 fs) (s : State) (hs : State.Same fs k
  s) : State.Same fs k (State.timeSet s) := by
  unfold State.timeSet
  try dsimp only
  with_reducible repeat' first
    | assumption | exact State.Sub.of rfl hm | apply State.setPtp_same | intro _ _ | split | dsimp only

theorem State.ppsCapture_same {fs : Nat} {k : State} (hm : State.Sub 0x8000000010 fs) (s : State) (hs : State.Same fs
  k s) : State.Same fs k (State.ppsCapture s) := by
  unfold State.ppsCapture
  try dsimp only
  with_reducible repeat' first
    | assumption | exact State.Sub.of rfl hm | apply State.raise_same | apply State.setReg_same | apply State.setReg64_same
    | intro _ _ | split | dsimp only

theorem execRefLoss_same {fs : Nat} {k : State} (hm : State.Sub 0x8000000010 fs) {s : State} {rr : State} (ht :
  execRefLoss s = .next rr) (hs : State.Same fs k s) : State.Same fs k rr := by
  refine State.Same.run (fun s hs => ?_) hs ht
  try dsimp only
  with_reducible repeat' first
    | assumption | exact State.Sub.of rfl hm | apply State.raise_same | apply State.onlyIf_same | intro _ _ | split
    | dsimp only

theorem execPpsIn_same {fs : Nat} {k : State} (hm : State.Sub 0x8000000010 fs) {rising : Bool} {s : State} {rr :
  State} (ht : execPpsIn rising s = .next rr) (hs : State.Same fs k s) : State.Same fs k rr := by
  refine State.Same.run (fun s hs => ?_) hs ht
  try dsimp only
  with_reducible repeat' first
    | assumption | exact State.Sub.of rfl hm | apply State.ppsCapture_same | apply State.onlyIf_same | intro _ _ | split
    | dsimp only

theorem execPpsOut_same {fs : Nat} {k : State} (hm : State.Sub 0x80000000000 fs) {level : Bool} {s : State} {rr :
  State} (ht : execPpsOut level s = .next rr) (hs : State.Same fs k s) : State.Same fs k rr := by
  refine State.Same.run (fun s hs => ?_) hs ht
  try dsimp only
  with_reducible repeat' first
    | assumption | exact State.Sub.of rfl hm | apply State.onlyIf_same | intro _ _ | split | dsimp only
    | refine State.Same.upd_80000000000 ?_ ?_

end Sys2Proof.Machine
end

