-- ==== Sys2Proof/Laws/Fields.lean ====
section
/-! SUPPORT. The fields that counting, loading wider registers, sending messages and raising events leave as they were. -/

namespace Sys2Proof.Machine

/-! ### setRf -/

@[simp] theorem State.setRf_pending (s : State) (p o lo n x : Nat) : (s.setRf p o lo n x).pending = s.pending := (rfl)
@[simp] theorem State.setRf_clk (s : State) (p o lo n x : Nat) : (s.setRf p o lo n x).clk = s.clk := (rfl)
@[simp] theorem State.setRf_freeCtr (s : State) (p o lo n x : Nat) : (s.setRf p o lo n x).freeCtr = s.freeCtr := (rfl)
@[simp] theorem State.setRf_out (s : State) (p o lo n x : Nat) : (s.setRf p o lo n x).out = s.out := (rfl)
@[simp] theorem State.setRf_selRegs (s : State) (p o lo n x : Nat) : (s.setRf p o lo n x).selRegs = s.selRegs := (rfl)
@[simp] theorem State.setRf_mem (s : State) (p o lo n x : Nat) : (s.setRf p o lo n x).mem = s.mem := (rfl)
@[simp] theorem State.setRf_bus (s : State) (p o lo n x : Nat) : (s.setRf p o lo n x).bus = s.bus := (rfl)
@[simp] theorem State.setRf_flumeUp (s : State) (p o lo n x : Nat) : (s.setRf p o lo n x).flumeUp = s.flumeUp := (rfl)
@[simp] theorem State.setRf_lanes (s : State) (p o lo n x : Nat) : (s.setRf p o lo n x).lanes = s.lanes := (rfl)
@[simp] theorem State.setRf_macros (s : State) (p o lo n x : Nat) : (s.setRf p o lo n x).macros = s.macros := (rfl)
@[simp] theorem State.setRf_ports (s : State) (p o lo n x : Nat) : (s.setRf p o lo n x).ports = s.ports := (rfl)
@[simp] theorem State.setRf_spans (s : State) (p o lo n x : Nat) : (s.setRf p o lo n x).spans = s.spans := (rfl)
@[simp] theorem State.setRf_frames (s : State) (p o lo n x : Nat) : (s.setRf p o lo n x).frames = s.frames := (rfl)
@[simp] theorem State.setRf_nextFrame (s : State) (p o lo n x : Nat) : (s.setRf p o lo n x).nextFrame = s.nextFrame := (rfl)
@[simp] theorem State.setRf_slices (s : State) (p o lo n x : Nat) : (s.setRf p o lo n x).slices = s.slices := (rfl)
@[simp] theorem State.setRf_mcast (s : State) (p o lo n x : Nat) : (s.setRf p o lo n x).mcast = s.mcast := (rfl)
@[simp] theorem State.setRf_rings (s : State) (p o lo n x : Nat) : (s.setRf p o lo n x).rings = s.rings := (rfl)
@[simp] theorem State.setRf_inflight (s : State) (p o lo n x : Nat) : (s.setRf p o lo n x).inflight = s.inflight := (rfl)
@[simp] theorem State.setRf_deck (s : State) (p o lo n x : Nat) : (s.setRf p o lo n x).deck = s.deck := (rfl)
@[simp] theorem State.setRf_path (s : State) (p o lo n x : Nat) : (s.setRf p o lo n x).path = s.path := (rfl)
@[simp] theorem State.setRf_queues (s : State) (p o lo n x : Nat) : (s.setRf p o lo n x).queues = s.queues := (rfl)
@[simp] theorem State.setRf_deficit (s : State) (p o lo n x : Nat) : (s.setRf p o lo n x).deficit = s.deficit := (rfl)
@[simp] theorem State.setRf_qbucket (s : State) (p o lo n x : Nat) : (s.setRf p o lo n x).qbucket = s.qbucket := (rfl)
@[simp] theorem State.setRf_sched (s : State) (p o lo n x : Nat) : (s.setRf p o lo n x).sched = s.sched := (rfl)
@[simp] theorem State.setRf_pfcTx (s : State) (p o lo n x : Nat) : (s.setRf p o lo n x).pfcTx = s.pfcTx := (rfl)
@[simp] theorem State.setRf_meters (s : State) (p o lo n x : Nat) : (s.setRf p o lo n x).meters = s.meters := (rfl)
@[simp] theorem State.setRf_late (s : State) (p o lo n x : Nat) : (s.setRf p o lo n x).late = s.late := (rfl)
@[simp] theorem State.setRf_unsettled (s : State) (p o lo n x : Nat) : (s.setRf p o lo n x).unsettled = s.unsettled := (rfl)
@[simp] theorem State.setRf_wood (s : State) (p o lo n x : Nat) : (s.setRf p o lo n x).wood = s.wood := (rfl)
@[simp] theorem State.setRf_eastq (s : State) (p o lo n x : Nat) : (s.setRf p o lo n x).eastq = s.eastq := (rfl)
@[simp] theorem State.setRf_hitq (s : State) (p o lo n x : Nat) : (s.setRf p o lo n x).hitq = s.hitq := (rfl)
@[simp] theorem State.setRf_matrix (s : State) (p o lo n x : Nat) : (s.setRf p o lo n x).matrix = s.matrix := (rfl)
@[simp] theorem State.setRf_tally (s : State) (p o lo n x : Nat) : (s.setRf p o lo n x).tally = s.tally := (rfl)
@[simp] theorem State.setRf_hbm (s : State) (p o lo n x : Nat) : (s.setRf p o lo n x).hbm = s.hbm := (rfl)
@[simp] theorem State.setRf_host (s : State) (p o lo n x : Nat) : (s.setRf p o lo n x).host = s.host := (rfl)
@[simp] theorem State.setRf_cruiser (s : State) (p o lo n x : Nat) : (s.setRf p o lo n x).cruiser = s.cruiser := (rfl)
@[simp] theorem State.setRf_fire (s : State) (p o lo n x : Nat) : (s.setRf p o lo n x).fire = s.fire := (rfl)
@[simp] theorem State.setRf_raft (s : State) (p o lo n x : Nat) : (s.setRf p o lo n x).raft = s.raft := (rfl)
@[simp] theorem State.setRf_lookout (s : State) (p o lo n x : Nat) : (s.setRf p o lo n x).lookout = s.lookout := (rfl)
@[simp] theorem State.setRf_forester (s : State) (p o lo n x : Nat) : (s.setRf p o lo n x).forester = s.forester := (rfl)
@[simp] theorem State.setRf_mram (s : State) (p o lo n x : Nat) : (s.setRf p o lo n x).mram = s.mram := (rfl)
@[simp] theorem State.setRf_fuses (s : State) (p o lo n x : Nat) : (s.setRf p o lo n x).fuses = s.fuses := (rfl)
@[simp] theorem State.setRf_ppsHigh (s : State) (p o lo n x : Nat) : (s.setRf p o lo n x).ppsHigh = s.ppsHigh := (rfl)
@[simp] theorem State.setRf_rst (s : State) (p o lo n x : Nat) : (s.setRf p o lo n x).rst = s.rst := (rfl)
@[simp] theorem State.setRf_live (s : State) (p o lo n x : Nat) : (s.setRf p o lo n x).live = s.live := (rfl)

/-! ### setReg64 -/

@[simp] theorem State.setReg64_pending (s : State) (p o x : Nat) : (s.setReg64 p o x).pending = s.pending := (rfl)
@[simp] theorem State.setReg64_clk (s : State) (p o x : Nat) : (s.setReg64 p o x).clk = s.clk := (rfl)
@[simp] theorem State.setReg64_freeCtr (s : State) (p o x : Nat) : (s.setReg64 p o x).freeCtr = s.freeCtr := (rfl)
@[simp] theorem State.setReg64_out (s : State) (p o x : Nat) : (s.setReg64 p o x).out = s.out := (rfl)
@[simp] theorem State.setReg64_selRegs (s : State) (p o x : Nat) : (s.setReg64 p o x).selRegs = s.selRegs := (rfl)
@[simp] theorem State.setReg64_mem (s : State) (p o x : Nat) : (s.setReg64 p o x).mem = s.mem := (rfl)
@[simp] theorem State.setReg64_bus (s : State) (p o x : Nat) : (s.setReg64 p o x).bus = s.bus := (rfl)
@[simp] theorem State.setReg64_flumeUp (s : State) (p o x : Nat) : (s.setReg64 p o x).flumeUp = s.flumeUp := (rfl)
@[simp] theorem State.setReg64_lanes (s : State) (p o x : Nat) : (s.setReg64 p o x).lanes = s.lanes := (rfl)
@[simp] theorem State.setReg64_macros (s : State) (p o x : Nat) : (s.setReg64 p o x).macros = s.macros := (rfl)
@[simp] theorem State.setReg64_ports (s : State) (p o x : Nat) : (s.setReg64 p o x).ports = s.ports := (rfl)
@[simp] theorem State.setReg64_spans (s : State) (p o x : Nat) : (s.setReg64 p o x).spans = s.spans := (rfl)
@[simp] theorem State.setReg64_frames (s : State) (p o x : Nat) : (s.setReg64 p o x).frames = s.frames := (rfl)
@[simp] theorem State.setReg64_nextFrame (s : State) (p o x : Nat) : (s.setReg64 p o x).nextFrame = s.nextFrame := (rfl)
@[simp] theorem State.setReg64_slices (s : State) (p o x : Nat) : (s.setReg64 p o x).slices = s.slices := (rfl)
@[simp] theorem State.setReg64_mcast (s : State) (p o x : Nat) : (s.setReg64 p o x).mcast = s.mcast := (rfl)
@[simp] theorem State.setReg64_rings (s : State) (p o x : Nat) : (s.setReg64 p o x).rings = s.rings := (rfl)
@[simp] theorem State.setReg64_inflight (s : State) (p o x : Nat) : (s.setReg64 p o x).inflight = s.inflight := (rfl)
@[simp] theorem State.setReg64_deck (s : State) (p o x : Nat) : (s.setReg64 p o x).deck = s.deck := (rfl)
@[simp] theorem State.setReg64_path (s : State) (p o x : Nat) : (s.setReg64 p o x).path = s.path := (rfl)
@[simp] theorem State.setReg64_queues (s : State) (p o x : Nat) : (s.setReg64 p o x).queues = s.queues := (rfl)
@[simp] theorem State.setReg64_deficit (s : State) (p o x : Nat) : (s.setReg64 p o x).deficit = s.deficit := (rfl)
@[simp] theorem State.setReg64_qbucket (s : State) (p o x : Nat) : (s.setReg64 p o x).qbucket = s.qbucket := (rfl)
@[simp] theorem State.setReg64_sched (s : State) (p o x : Nat) : (s.setReg64 p o x).sched = s.sched := (rfl)
@[simp] theorem State.setReg64_pfcTx (s : State) (p o x : Nat) : (s.setReg64 p o x).pfcTx = s.pfcTx := (rfl)
@[simp] theorem State.setReg64_meters (s : State) (p o x : Nat) : (s.setReg64 p o x).meters = s.meters := (rfl)
@[simp] theorem State.setReg64_late (s : State) (p o x : Nat) : (s.setReg64 p o x).late = s.late := (rfl)
@[simp] theorem State.setReg64_unsettled (s : State) (p o x : Nat) : (s.setReg64 p o x).unsettled = s.unsettled := (rfl)
@[simp] theorem State.setReg64_wood (s : State) (p o x : Nat) : (s.setReg64 p o x).wood = s.wood := (rfl)
@[simp] theorem State.setReg64_eastq (s : State) (p o x : Nat) : (s.setReg64 p o x).eastq = s.eastq := (rfl)
@[simp] theorem State.setReg64_hitq (s : State) (p o x : Nat) : (s.setReg64 p o x).hitq = s.hitq := (rfl)
@[simp] theorem State.setReg64_matrix (s : State) (p o x : Nat) : (s.setReg64 p o x).matrix = s.matrix := (rfl)
@[simp] theorem State.setReg64_tally (s : State) (p o x : Nat) : (s.setReg64 p o x).tally = s.tally := (rfl)
@[simp] theorem State.setReg64_hbm (s : State) (p o x : Nat) : (s.setReg64 p o x).hbm = s.hbm := (rfl)
@[simp] theorem State.setReg64_host (s : State) (p o x : Nat) : (s.setReg64 p o x).host = s.host := (rfl)
@[simp] theorem State.setReg64_cruiser (s : State) (p o x : Nat) : (s.setReg64 p o x).cruiser = s.cruiser := (rfl)
@[simp] theorem State.setReg64_fire (s : State) (p o x : Nat) : (s.setReg64 p o x).fire = s.fire := (rfl)
@[simp] theorem State.setReg64_raft (s : State) (p o x : Nat) : (s.setReg64 p o x).raft = s.raft := (rfl)
@[simp] theorem State.setReg64_lookout (s : State) (p o x : Nat) : (s.setReg64 p o x).lookout = s.lookout := (rfl)
@[simp] theorem State.setReg64_forester (s : State) (p o x : Nat) : (s.setReg64 p o x).forester = s.forester := (rfl)
@[simp] theorem State.setReg64_mram (s : State) (p o x : Nat) : (s.setReg64 p o x).mram = s.mram := (rfl)
@[simp] theorem State.setReg64_fuses (s : State) (p o x : Nat) : (s.setReg64 p o x).fuses = s.fuses := (rfl)
@[simp] theorem State.setReg64_ppsHigh (s : State) (p o x : Nat) : (s.setReg64 p o x).ppsHigh = s.ppsHigh := (rfl)
@[simp] theorem State.setReg64_rst (s : State) (p o x : Nat) : (s.setReg64 p o x).rst = s.rst := (rfl)
@[simp] theorem State.setReg64_live (s : State) (p o x : Nat) : (s.setReg64 p o x).live = s.live := (rfl)

/-! ### count -/

@[simp] theorem State.count_pending (s : State) (p o n : Nat) : (s.count p o n).pending = s.pending := (rfl)
@[simp] theorem State.count_clk (s : State) (p o n : Nat) : (s.count p o n).clk = s.clk := (rfl)
@[simp] theorem State.count_freeCtr (s : State) (p o n : Nat) : (s.count p o n).freeCtr = s.freeCtr := (rfl)
@[simp] theorem State.count_out (s : State) (p o n : Nat) : (s.count p o n).out = s.out := (rfl)
@[simp] theorem State.count_selRegs (s : State) (p o n : Nat) : (s.count p o n).selRegs = s.selRegs := (rfl)
@[simp] theorem State.count_mem (s : State) (p o n : Nat) : (s.count p o n).mem = s.mem := (rfl)
@[simp] theorem State.count_bus (s : State) (p o n : Nat) : (s.count p o n).bus = s.bus := (rfl)
@[simp] theorem State.count_flumeUp (s : State) (p o n : Nat) : (s.count p o n).flumeUp = s.flumeUp := (rfl)
@[simp] theorem State.count_lanes (s : State) (p o n : Nat) : (s.count p o n).lanes = s.lanes := (rfl)
@[simp] theorem State.count_macros (s : State) (p o n : Nat) : (s.count p o n).macros = s.macros := (rfl)
@[simp] theorem State.count_ports (s : State) (p o n : Nat) : (s.count p o n).ports = s.ports := (rfl)
@[simp] theorem State.count_spans (s : State) (p o n : Nat) : (s.count p o n).spans = s.spans := (rfl)
@[simp] theorem State.count_frames (s : State) (p o n : Nat) : (s.count p o n).frames = s.frames := (rfl)
@[simp] theorem State.count_nextFrame (s : State) (p o n : Nat) : (s.count p o n).nextFrame = s.nextFrame := (rfl)
@[simp] theorem State.count_slices (s : State) (p o n : Nat) : (s.count p o n).slices = s.slices := (rfl)
@[simp] theorem State.count_mcast (s : State) (p o n : Nat) : (s.count p o n).mcast = s.mcast := (rfl)
@[simp] theorem State.count_rings (s : State) (p o n : Nat) : (s.count p o n).rings = s.rings := (rfl)
@[simp] theorem State.count_inflight (s : State) (p o n : Nat) : (s.count p o n).inflight = s.inflight := (rfl)
@[simp] theorem State.count_deck (s : State) (p o n : Nat) : (s.count p o n).deck = s.deck := (rfl)
@[simp] theorem State.count_path (s : State) (p o n : Nat) : (s.count p o n).path = s.path := (rfl)
@[simp] theorem State.count_queues (s : State) (p o n : Nat) : (s.count p o n).queues = s.queues := (rfl)
@[simp] theorem State.count_deficit (s : State) (p o n : Nat) : (s.count p o n).deficit = s.deficit := (rfl)
@[simp] theorem State.count_qbucket (s : State) (p o n : Nat) : (s.count p o n).qbucket = s.qbucket := (rfl)
@[simp] theorem State.count_sched (s : State) (p o n : Nat) : (s.count p o n).sched = s.sched := (rfl)
@[simp] theorem State.count_pfcTx (s : State) (p o n : Nat) : (s.count p o n).pfcTx = s.pfcTx := (rfl)
@[simp] theorem State.count_meters (s : State) (p o n : Nat) : (s.count p o n).meters = s.meters := (rfl)
@[simp] theorem State.count_late (s : State) (p o n : Nat) : (s.count p o n).late = s.late := (rfl)
@[simp] theorem State.count_unsettled (s : State) (p o n : Nat) : (s.count p o n).unsettled = s.unsettled := (rfl)
@[simp] theorem State.count_wood (s : State) (p o n : Nat) : (s.count p o n).wood = s.wood := (rfl)
@[simp] theorem State.count_eastq (s : State) (p o n : Nat) : (s.count p o n).eastq = s.eastq := (rfl)
@[simp] theorem State.count_hitq (s : State) (p o n : Nat) : (s.count p o n).hitq = s.hitq := (rfl)
@[simp] theorem State.count_matrix (s : State) (p o n : Nat) : (s.count p o n).matrix = s.matrix := (rfl)
@[simp] theorem State.count_tally (s : State) (p o n : Nat) : (s.count p o n).tally = s.tally := (rfl)
@[simp] theorem State.count_hbm (s : State) (p o n : Nat) : (s.count p o n).hbm = s.hbm := (rfl)
@[simp] theorem State.count_host (s : State) (p o n : Nat) : (s.count p o n).host = s.host := (rfl)
@[simp] theorem State.count_cruiser (s : State) (p o n : Nat) : (s.count p o n).cruiser = s.cruiser := (rfl)
@[simp] theorem State.count_fire (s : State) (p o n : Nat) : (s.count p o n).fire = s.fire := (rfl)
@[simp] theorem State.count_raft (s : State) (p o n : Nat) : (s.count p o n).raft = s.raft := (rfl)
@[simp] theorem State.count_lookout (s : State) (p o n : Nat) : (s.count p o n).lookout = s.lookout := (rfl)
@[simp] theorem State.count_forester (s : State) (p o n : Nat) : (s.count p o n).forester = s.forester := (rfl)
@[simp] theorem State.count_mram (s : State) (p o n : Nat) : (s.count p o n).mram = s.mram := (rfl)
@[simp] theorem State.count_fuses (s : State) (p o n : Nat) : (s.count p o n).fuses = s.fuses := (rfl)
@[simp] theorem State.count_ppsHigh (s : State) (p o n : Nat) : (s.count p o n).ppsHigh = s.ppsHigh := (rfl)
@[simp] theorem State.count_rst (s : State) (p o n : Nat) : (s.count p o n).rst = s.rst := (rfl)
@[simp] theorem State.count_live (s : State) (p o n : Nat) : (s.count p o n).live = s.live := (rfl)

/-! ### count64 -/

@[simp] theorem State.count64_pending (s : State) (p o n : Nat) : (s.count64 p o n).pending = s.pending := (rfl)
@[simp] theorem State.count64_clk (s : State) (p o n : Nat) : (s.count64 p o n).clk = s.clk := (rfl)
@[simp] theorem State.count64_freeCtr (s : State) (p o n : Nat) : (s.count64 p o n).freeCtr = s.freeCtr := (rfl)
@[simp] theorem State.count64_out (s : State) (p o n : Nat) : (s.count64 p o n).out = s.out := (rfl)
@[simp] theorem State.count64_selRegs (s : State) (p o n : Nat) : (s.count64 p o n).selRegs = s.selRegs := (rfl)
@[simp] theorem State.count64_mem (s : State) (p o n : Nat) : (s.count64 p o n).mem = s.mem := (rfl)
@[simp] theorem State.count64_bus (s : State) (p o n : Nat) : (s.count64 p o n).bus = s.bus := (rfl)
@[simp] theorem State.count64_flumeUp (s : State) (p o n : Nat) : (s.count64 p o n).flumeUp = s.flumeUp := (rfl)
@[simp] theorem State.count64_lanes (s : State) (p o n : Nat) : (s.count64 p o n).lanes = s.lanes := (rfl)
@[simp] theorem State.count64_macros (s : State) (p o n : Nat) : (s.count64 p o n).macros = s.macros := (rfl)
@[simp] theorem State.count64_ports (s : State) (p o n : Nat) : (s.count64 p o n).ports = s.ports := (rfl)
@[simp] theorem State.count64_spans (s : State) (p o n : Nat) : (s.count64 p o n).spans = s.spans := (rfl)
@[simp] theorem State.count64_frames (s : State) (p o n : Nat) : (s.count64 p o n).frames = s.frames := (rfl)
@[simp] theorem State.count64_nextFrame (s : State) (p o n : Nat) : (s.count64 p o n).nextFrame = s.nextFrame := (rfl)
@[simp] theorem State.count64_slices (s : State) (p o n : Nat) : (s.count64 p o n).slices = s.slices := (rfl)
@[simp] theorem State.count64_mcast (s : State) (p o n : Nat) : (s.count64 p o n).mcast = s.mcast := (rfl)
@[simp] theorem State.count64_rings (s : State) (p o n : Nat) : (s.count64 p o n).rings = s.rings := (rfl)
@[simp] theorem State.count64_inflight (s : State) (p o n : Nat) : (s.count64 p o n).inflight = s.inflight := (rfl)
@[simp] theorem State.count64_deck (s : State) (p o n : Nat) : (s.count64 p o n).deck = s.deck := (rfl)
@[simp] theorem State.count64_path (s : State) (p o n : Nat) : (s.count64 p o n).path = s.path := (rfl)
@[simp] theorem State.count64_queues (s : State) (p o n : Nat) : (s.count64 p o n).queues = s.queues := (rfl)
@[simp] theorem State.count64_deficit (s : State) (p o n : Nat) : (s.count64 p o n).deficit = s.deficit := (rfl)
@[simp] theorem State.count64_qbucket (s : State) (p o n : Nat) : (s.count64 p o n).qbucket = s.qbucket := (rfl)
@[simp] theorem State.count64_sched (s : State) (p o n : Nat) : (s.count64 p o n).sched = s.sched := (rfl)
@[simp] theorem State.count64_pfcTx (s : State) (p o n : Nat) : (s.count64 p o n).pfcTx = s.pfcTx := (rfl)
@[simp] theorem State.count64_meters (s : State) (p o n : Nat) : (s.count64 p o n).meters = s.meters := (rfl)
@[simp] theorem State.count64_late (s : State) (p o n : Nat) : (s.count64 p o n).late = s.late := (rfl)
@[simp] theorem State.count64_unsettled (s : State) (p o n : Nat) : (s.count64 p o n).unsettled = s.unsettled := (rfl)
@[simp] theorem State.count64_wood (s : State) (p o n : Nat) : (s.count64 p o n).wood = s.wood := (rfl)
@[simp] theorem State.count64_eastq (s : State) (p o n : Nat) : (s.count64 p o n).eastq = s.eastq := (rfl)
@[simp] theorem State.count64_hitq (s : State) (p o n : Nat) : (s.count64 p o n).hitq = s.hitq := (rfl)
@[simp] theorem State.count64_matrix (s : State) (p o n : Nat) : (s.count64 p o n).matrix = s.matrix := (rfl)
@[simp] theorem State.count64_tally (s : State) (p o n : Nat) : (s.count64 p o n).tally = s.tally := (rfl)
@[simp] theorem State.count64_hbm (s : State) (p o n : Nat) : (s.count64 p o n).hbm = s.hbm := (rfl)
@[simp] theorem State.count64_host (s : State) (p o n : Nat) : (s.count64 p o n).host = s.host := (rfl)
@[simp] theorem State.count64_cruiser (s : State) (p o n : Nat) : (s.count64 p o n).cruiser = s.cruiser := (rfl)
@[simp] theorem State.count64_fire (s : State) (p o n : Nat) : (s.count64 p o n).fire = s.fire := (rfl)
@[simp] theorem State.count64_raft (s : State) (p o n : Nat) : (s.count64 p o n).raft = s.raft := (rfl)
@[simp] theorem State.count64_lookout (s : State) (p o n : Nat) : (s.count64 p o n).lookout = s.lookout := (rfl)
@[simp] theorem State.count64_forester (s : State) (p o n : Nat) : (s.count64 p o n).forester = s.forester := (rfl)
@[simp] theorem State.count64_mram (s : State) (p o n : Nat) : (s.count64 p o n).mram = s.mram := (rfl)
@[simp] theorem State.count64_fuses (s : State) (p o n : Nat) : (s.count64 p o n).fuses = s.fuses := (rfl)
@[simp] theorem State.count64_ppsHigh (s : State) (p o n : Nat) : (s.count64 p o n).ppsHigh = s.ppsHigh := (rfl)
@[simp] theorem State.count64_rst (s : State) (p o n : Nat) : (s.count64 p o n).rst = s.rst := (rfl)
@[simp] theorem State.count64_live (s : State) (p o n : Nat) : (s.count64 p o n).live = s.live := (rfl)

/-! ### send -/

@[simp] theorem State.send_pending (s : State) (m : Message) : (s.send m).pending = s.pending :=
  (State.send_same (fs := 0x8000000010) (.refl _) s m (.refl _ s)).pending
@[simp] theorem State.send_clk (s : State) (m : Message) : (s.send m).clk = s.clk :=
  (State.send_same (fs := 0x8000000010) (.refl _) s m (.refl _ s)).clk rfl
@[simp] theorem State.send_freeCtr (s : State) (m : Message) : (s.send m).freeCtr = s.freeCtr :=
  (State.send_same (fs := 0x8000000010) (.refl _) s m (.refl _ s)).freeCtr rfl
@[simp] theorem State.send_out (s : State) (m : Message) : (s.send m).out = s.out :=
  (State.send_same (fs := 0x8000000010) (.refl _) s m (.refl _ s)).out rfl
@[simp] theorem State.send_selRegs (s : State) (m : Message) : (s.send m).selRegs = s.selRegs :=
  (State.send_same (fs := 0x8000000010) (.refl _) s m (.refl _ s)).selRegs rfl
@[simp] theorem State.send_mem (s : State) (m : Message) : (s.send m).mem = s.mem :=
  (State.send_same (fs := 0x8000000010) (.refl _) s m (.refl _ s)).mem rfl
@[simp] theorem State.send_bus (s : State) (m : Message) : (s.send m).bus = s.bus :=
  (State.send_same (fs := 0x8000000010) (.refl _) s m (.refl _ s)).bus rfl
@[simp] theorem State.send_flumeUp (s : State) (m : Message) : (s.send m).flumeUp = s.flumeUp :=
  (State.send_same (fs := 0x8000000010) (.refl _) s m (.refl _ s)).flumeUp rfl
@[simp] theorem State.send_lanes (s : State) (m : Message) : (s.send m).lanes = s.lanes :=
  (State.send_same (fs := 0x8000000010) (.refl _) s m (.refl _ s)).lanes rfl
@[simp] theorem State.send_macros (s : State) (m : Message) : (s.send m).macros = s.macros :=
  (State.send_same (fs := 0x8000000010) (.refl _) s m (.refl _ s)).macros rfl
@[simp] theorem State.send_ports (s : State) (m : Message) : (s.send m).ports = s.ports :=
  (State.send_same (fs := 0x8000000010) (.refl _) s m (.refl _ s)).ports rfl
@[simp] theorem State.send_spans (s : State) (m : Message) : (s.send m).spans = s.spans :=
  (State.send_same (fs := 0x8000000010) (.refl _) s m (.refl _ s)).spans rfl
@[simp] theorem State.send_frames (s : State) (m : Message) : (s.send m).frames = s.frames :=
  (State.send_same (fs := 0x8000000010) (.refl _) s m (.refl _ s)).frames rfl
@[simp] theorem State.send_nextFrame (s : State) (m : Message) : (s.send m).nextFrame = s.nextFrame :=
  (State.send_same (fs := 0x8000000010) (.refl _) s m (.refl _ s)).nextFrame rfl
@[simp] theorem State.send_slices (s : State) (m : Message) : (s.send m).slices = s.slices :=
  (State.send_same (fs := 0x8000000010) (.refl _) s m (.refl _ s)).slices rfl
@[simp] theorem State.send_mcast (s : State) (m : Message) : (s.send m).mcast = s.mcast :=
  (State.send_same (fs := 0x8000000010) (.refl _) s m (.refl _ s)).mcast rfl
@[simp] theorem State.send_rings (s : State) (m : Message) : (s.send m).rings = s.rings :=
  (State.send_same (fs := 0x8000000010) (.refl _) s m (.refl _ s)).rings rfl
@[simp] theorem State.send_inflight (s : State) (m : Message) : (s.send m).inflight = s.inflight :=
  (State.send_same (fs := 0x8000000010) (.refl _) s m (.refl _ s)).inflight rfl
@[simp] theorem State.send_deck (s : State) (m : Message) : (s.send m).deck = s.deck :=
  (State.send_same (fs := 0x8000000010) (.refl _) s m (.refl _ s)).deck rfl
@[simp] theorem State.send_path (s : State) (m : Message) : (s.send m).path = s.path :=
  (State.send_same (fs := 0x8000000010) (.refl _) s m (.refl _ s)).path rfl
@[simp] theorem State.send_queues (s : State) (m : Message) : (s.send m).queues = s.queues :=
  (State.send_same (fs := 0x8000000010) (.refl _) s m (.refl _ s)).queues rfl
@[simp] theorem State.send_deficit (s : State) (m : Message) : (s.send m).deficit = s.deficit :=
  (State.send_same (fs := 0x8000000010) (.refl _) s m (.refl _ s)).deficit rfl
@[simp] theorem State.send_qbucket (s : State) (m : Message) : (s.send m).qbucket = s.qbucket :=
  (State.send_same (fs := 0x8000000010) (.refl _) s m (.refl _ s)).qbucket rfl
@[simp] theorem State.send_sched (s : State) (m : Message) : (s.send m).sched = s.sched :=
  (State.send_same (fs := 0x8000000010) (.refl _) s m (.refl _ s)).sched rfl
@[simp] theorem State.send_pfcTx (s : State) (m : Message) : (s.send m).pfcTx = s.pfcTx :=
  (State.send_same (fs := 0x8000000010) (.refl _) s m (.refl _ s)).pfcTx rfl
@[simp] theorem State.send_meters (s : State) (m : Message) : (s.send m).meters = s.meters :=
  (State.send_same (fs := 0x8000000010) (.refl _) s m (.refl _ s)).meters rfl
@[simp] theorem State.send_late (s : State) (m : Message) : (s.send m).late = s.late :=
  (State.send_same (fs := 0x8000000010) (.refl _) s m (.refl _ s)).late rfl
@[simp] theorem State.send_unsettled (s : State) (m : Message) : (s.send m).unsettled = s.unsettled :=
  (State.send_same (fs := 0x8000000010) (.refl _) s m (.refl _ s)).unsettled rfl
@[simp] theorem State.send_wood (s : State) (m : Message) : (s.send m).wood = s.wood :=
  (State.send_same (fs := 0x8000000010) (.refl _) s m (.refl _ s)).wood rfl
@[simp] theorem State.send_eastq (s : State) (m : Message) : (s.send m).eastq = s.eastq :=
  (State.send_same (fs := 0x8000000010) (.refl _) s m (.refl _ s)).eastq rfl
@[simp] theorem State.send_hitq (s : State) (m : Message) : (s.send m).hitq = s.hitq :=
  (State.send_same (fs := 0x8000000010) (.refl _) s m (.refl _ s)).hitq rfl
@[simp] theorem State.send_matrix (s : State) (m : Message) : (s.send m).matrix = s.matrix :=
  (State.send_same (fs := 0x8000000010) (.refl _) s m (.refl _ s)).matrix rfl
@[simp] theorem State.send_tally (s : State) (m : Message) : (s.send m).tally = s.tally :=
  (State.send_same (fs := 0x8000000010) (.refl _) s m (.refl _ s)).tally rfl
@[simp] theorem State.send_hbm (s : State) (m : Message) : (s.send m).hbm = s.hbm :=
  (State.send_same (fs := 0x8000000010) (.refl _) s m (.refl _ s)).hbm rfl
@[simp] theorem State.send_host (s : State) (m : Message) : (s.send m).host = s.host :=
  (State.send_same (fs := 0x8000000010) (.refl _) s m (.refl _ s)).host rfl
@[simp] theorem State.send_cruiser (s : State) (m : Message) : (s.send m).cruiser = s.cruiser :=
  (State.send_same (fs := 0x8000000010) (.refl _) s m (.refl _ s)).cruiser rfl
@[simp] theorem State.send_fire (s : State) (m : Message) : (s.send m).fire = s.fire :=
  (State.send_same (fs := 0x8000000010) (.refl _) s m (.refl _ s)).fire rfl
@[simp] theorem State.send_raft (s : State) (m : Message) : (s.send m).raft = s.raft :=
  (State.send_same (fs := 0x8000000010) (.refl _) s m (.refl _ s)).raft rfl
@[simp] theorem State.send_forester (s : State) (m : Message) : (s.send m).forester = s.forester :=
  (State.send_same (fs := 0x8000000010) (.refl _) s m (.refl _ s)).forester rfl
@[simp] theorem State.send_mram (s : State) (m : Message) : (s.send m).mram = s.mram :=
  (State.send_same (fs := 0x8000000010) (.refl _) s m (.refl _ s)).mram rfl
@[simp] theorem State.send_fuses (s : State) (m : Message) : (s.send m).fuses = s.fuses :=
  (State.send_same (fs := 0x8000000010) (.refl _) s m (.refl _ s)).fuses rfl
@[simp] theorem State.send_ppsHigh (s : State) (m : Message) : (s.send m).ppsHigh = s.ppsHigh :=
  (State.send_same (fs := 0x8000000010) (.refl _) s m (.refl _ s)).ppsHigh rfl
@[simp] theorem State.send_rst (s : State) (m : Message) : (s.send m).rst = s.rst :=
  (State.send_same (fs := 0x8000000010) (.refl _) s m (.refl _ s)).rst rfl
@[simp] theorem State.send_live (s : State) (m : Message) : (s.send m).live = s.live := by unfold State.live; simp

/-! ### raise -/

@[simp] theorem State.raise_pending (s : State) (p i : Nat) : (s.raise p i).pending = s.pending :=
  (State.raise_same (fs := 0x8000000010) (.refl _) s p i (.refl _ s)).pending
@[simp] theorem State.raise_clk (s : State) (p i : Nat) : (s.raise p i).clk = s.clk :=
  (State.raise_same (fs := 0x8000000010) (.refl _) s p i (.refl _ s)).clk rfl
@[simp] theorem State.raise_freeCtr (s : State) (p i : Nat) : (s.raise p i).freeCtr = s.freeCtr :=
  (State.raise_same (fs := 0x8000000010) (.refl _) s p i (.refl _ s)).freeCtr rfl
@[simp] theorem State.raise_out (s : State) (p i : Nat) : (s.raise p i).out = s.out :=
  (State.raise_same (fs := 0x8000000010) (.refl _) s p i (.refl _ s)).out rfl
@[simp] theorem State.raise_selRegs (s : State) (p i : Nat) : (s.raise p i).selRegs = s.selRegs :=
  (State.raise_same (fs := 0x8000000010) (.refl _) s p i (.refl _ s)).selRegs rfl
@[simp] theorem State.raise_mem (s : State) (p i : Nat) : (s.raise p i).mem = s.mem :=
  (State.raise_same (fs := 0x8000000010) (.refl _) s p i (.refl _ s)).mem rfl
@[simp] theorem State.raise_bus (s : State) (p i : Nat) : (s.raise p i).bus = s.bus :=
  (State.raise_same (fs := 0x8000000010) (.refl _) s p i (.refl _ s)).bus rfl
@[simp] theorem State.raise_flumeUp (s : State) (p i : Nat) : (s.raise p i).flumeUp = s.flumeUp :=
  (State.raise_same (fs := 0x8000000010) (.refl _) s p i (.refl _ s)).flumeUp rfl
@[simp] theorem State.raise_lanes (s : State) (p i : Nat) : (s.raise p i).lanes = s.lanes :=
  (State.raise_same (fs := 0x8000000010) (.refl _) s p i (.refl _ s)).lanes rfl
@[simp] theorem State.raise_macros (s : State) (p i : Nat) : (s.raise p i).macros = s.macros :=
  (State.raise_same (fs := 0x8000000010) (.refl _) s p i (.refl _ s)).macros rfl
@[simp] theorem State.raise_ports (s : State) (p i : Nat) : (s.raise p i).ports = s.ports :=
  (State.raise_same (fs := 0x8000000010) (.refl _) s p i (.refl _ s)).ports rfl
@[simp] theorem State.raise_spans (s : State) (p i : Nat) : (s.raise p i).spans = s.spans :=
  (State.raise_same (fs := 0x8000000010) (.refl _) s p i (.refl _ s)).spans rfl
@[simp] theorem State.raise_frames (s : State) (p i : Nat) : (s.raise p i).frames = s.frames :=
  (State.raise_same (fs := 0x8000000010) (.refl _) s p i (.refl _ s)).frames rfl
@[simp] theorem State.raise_nextFrame (s : State) (p i : Nat) : (s.raise p i).nextFrame = s.nextFrame :=
  (State.raise_same (fs := 0x8000000010) (.refl _) s p i (.refl _ s)).nextFrame rfl
@[simp] theorem State.raise_slices (s : State) (p i : Nat) : (s.raise p i).slices = s.slices :=
  (State.raise_same (fs := 0x8000000010) (.refl _) s p i (.refl _ s)).slices rfl
@[simp] theorem State.raise_mcast (s : State) (p i : Nat) : (s.raise p i).mcast = s.mcast :=
  (State.raise_same (fs := 0x8000000010) (.refl _) s p i (.refl _ s)).mcast rfl
@[simp] theorem State.raise_rings (s : State) (p i : Nat) : (s.raise p i).rings = s.rings :=
  (State.raise_same (fs := 0x8000000010) (.refl _) s p i (.refl _ s)).rings rfl
@[simp] theorem State.raise_inflight (s : State) (p i : Nat) : (s.raise p i).inflight = s.inflight :=
  (State.raise_same (fs := 0x8000000010) (.refl _) s p i (.refl _ s)).inflight rfl
@[simp] theorem State.raise_deck (s : State) (p i : Nat) : (s.raise p i).deck = s.deck :=
  (State.raise_same (fs := 0x8000000010) (.refl _) s p i (.refl _ s)).deck rfl
@[simp] theorem State.raise_path (s : State) (p i : Nat) : (s.raise p i).path = s.path :=
  (State.raise_same (fs := 0x8000000010) (.refl _) s p i (.refl _ s)).path rfl
@[simp] theorem State.raise_queues (s : State) (p i : Nat) : (s.raise p i).queues = s.queues :=
  (State.raise_same (fs := 0x8000000010) (.refl _) s p i (.refl _ s)).queues rfl
@[simp] theorem State.raise_deficit (s : State) (p i : Nat) : (s.raise p i).deficit = s.deficit :=
  (State.raise_same (fs := 0x8000000010) (.refl _) s p i (.refl _ s)).deficit rfl
@[simp] theorem State.raise_qbucket (s : State) (p i : Nat) : (s.raise p i).qbucket = s.qbucket :=
  (State.raise_same (fs := 0x8000000010) (.refl _) s p i (.refl _ s)).qbucket rfl
@[simp] theorem State.raise_sched (s : State) (p i : Nat) : (s.raise p i).sched = s.sched :=
  (State.raise_same (fs := 0x8000000010) (.refl _) s p i (.refl _ s)).sched rfl
@[simp] theorem State.raise_pfcTx (s : State) (p i : Nat) : (s.raise p i).pfcTx = s.pfcTx :=
  (State.raise_same (fs := 0x8000000010) (.refl _) s p i (.refl _ s)).pfcTx rfl
@[simp] theorem State.raise_meters (s : State) (p i : Nat) : (s.raise p i).meters = s.meters :=
  (State.raise_same (fs := 0x8000000010) (.refl _) s p i (.refl _ s)).meters rfl
@[simp] theorem State.raise_late (s : State) (p i : Nat) : (s.raise p i).late = s.late :=
  (State.raise_same (fs := 0x8000000010) (.refl _) s p i (.refl _ s)).late rfl
@[simp] theorem State.raise_unsettled (s : State) (p i : Nat) : (s.raise p i).unsettled = s.unsettled :=
  (State.raise_same (fs := 0x8000000010) (.refl _) s p i (.refl _ s)).unsettled rfl
@[simp] theorem State.raise_wood (s : State) (p i : Nat) : (s.raise p i).wood = s.wood :=
  (State.raise_same (fs := 0x8000000010) (.refl _) s p i (.refl _ s)).wood rfl
@[simp] theorem State.raise_eastq (s : State) (p i : Nat) : (s.raise p i).eastq = s.eastq :=
  (State.raise_same (fs := 0x8000000010) (.refl _) s p i (.refl _ s)).eastq rfl
@[simp] theorem State.raise_hitq (s : State) (p i : Nat) : (s.raise p i).hitq = s.hitq :=
  (State.raise_same (fs := 0x8000000010) (.refl _) s p i (.refl _ s)).hitq rfl
@[simp] theorem State.raise_matrix (s : State) (p i : Nat) : (s.raise p i).matrix = s.matrix :=
  (State.raise_same (fs := 0x8000000010) (.refl _) s p i (.refl _ s)).matrix rfl
@[simp] theorem State.raise_tally (s : State) (p i : Nat) : (s.raise p i).tally = s.tally :=
  (State.raise_same (fs := 0x8000000010) (.refl _) s p i (.refl _ s)).tally rfl
@[simp] theorem State.raise_hbm (s : State) (p i : Nat) : (s.raise p i).hbm = s.hbm :=
  (State.raise_same (fs := 0x8000000010) (.refl _) s p i (.refl _ s)).hbm rfl
@[simp] theorem State.raise_host (s : State) (p i : Nat) : (s.raise p i).host = s.host :=
  (State.raise_same (fs := 0x8000000010) (.refl _) s p i (.refl _ s)).host rfl
@[simp] theorem State.raise_cruiser (s : State) (p i : Nat) : (s.raise p i).cruiser = s.cruiser :=
  (State.raise_same (fs := 0x8000000010) (.refl _) s p i (.refl _ s)).cruiser rfl
@[simp] theorem State.raise_fire (s : State) (p i : Nat) : (s.raise p i).fire = s.fire :=
  (State.raise_same (fs := 0x8000000010) (.refl _) s p i (.refl _ s)).fire rfl
@[simp] theorem State.raise_raft (s : State) (p i : Nat) : (s.raise p i).raft = s.raft :=
  (State.raise_same (fs := 0x8000000010) (.refl _) s p i (.refl _ s)).raft rfl
@[simp] theorem State.raise_forester (s : State) (p i : Nat) : (s.raise p i).forester = s.forester :=
  (State.raise_same (fs := 0x8000000010) (.refl _) s p i (.refl _ s)).forester rfl
@[simp] theorem State.raise_mram (s : State) (p i : Nat) : (s.raise p i).mram = s.mram :=
  (State.raise_same (fs := 0x8000000010) (.refl _) s p i (.refl _ s)).mram rfl
@[simp] theorem State.raise_fuses (s : State) (p i : Nat) : (s.raise p i).fuses = s.fuses :=
  (State.raise_same (fs := 0x8000000010) (.refl _) s p i (.refl _ s)).fuses rfl
@[simp] theorem State.raise_ppsHigh (s : State) (p i : Nat) : (s.raise p i).ppsHigh = s.ppsHigh :=
  (State.raise_same (fs := 0x8000000010) (.refl _) s p i (.refl _ s)).ppsHigh rfl
@[simp] theorem State.raise_rst (s : State) (p i : Nat) : (s.raise p i).rst = s.rst :=
  (State.raise_same (fs := 0x8000000010) (.refl _) s p i (.refl _ s)).rst rfl
@[simp] theorem State.raise_live (s : State) (p i : Nat) : (s.raise p i).live = s.live := by unfold State.live; simp

/-! ### raiseAll -/

@[simp] theorem State.raiseAll_pending (s : State) (p : Nat) (l : List Nat) (info : Word) : (s.raiseAll p l info).pending = s.pending :=
  (State.raiseAll_same (fs := 0x8000000010) (.refl _) s p l info (.refl _ s)).pending
@[simp] theorem State.raiseAll_clk (s : State) (p : Nat) (l : List Nat) (info : Word) : (s.raiseAll p l info).clk = s.clk :=
  (State.raiseAll_same (fs := 0x8000000010) (.refl _) s p l info (.refl _ s)).clk rfl
@[simp] theorem State.raiseAll_freeCtr (s : State) (p : Nat) (l : List Nat) (info : Word) : (s.raiseAll p l info).freeCtr = s.freeCtr :=
  (State.raiseAll_same (fs := 0x8000000010) (.refl _) s p l info (.refl _ s)).freeCtr rfl
@[simp] theorem State.raiseAll_out (s : State) (p : Nat) (l : List Nat) (info : Word) : (s.raiseAll p l info).out = s.out :=
  (State.raiseAll_same (fs := 0x8000000010) (.refl _) s p l info (.refl _ s)).out rfl
@[simp] theorem State.raiseAll_selRegs (s : State) (p : Nat) (l : List Nat) (info : Word) : (s.raiseAll p l info).selRegs = s.selRegs :=
  (State.raiseAll_same (fs := 0x8000000010) (.refl _) s p l info (.refl _ s)).selRegs rfl
@[simp] theorem State.raiseAll_mem (s : State) (p : Nat) (l : List Nat) (info : Word) : (s.raiseAll p l info).mem = s.mem :=
  (State.raiseAll_same (fs := 0x8000000010) (.refl _) s p l info (.refl _ s)).mem rfl
@[simp] theorem State.raiseAll_bus (s : State) (p : Nat) (l : List Nat) (info : Word) : (s.raiseAll p l info).bus = s.bus :=
  (State.raiseAll_same (fs := 0x8000000010) (.refl _) s p l info (.refl _ s)).bus rfl
@[simp] theorem State.raiseAll_flumeUp (s : State) (p : Nat) (l : List Nat) (info : Word) : (s.raiseAll p l info).flumeUp = s.flumeUp :=
  (State.raiseAll_same (fs := 0x8000000010) (.refl _) s p l info (.refl _ s)).flumeUp rfl
@[simp] theorem State.raiseAll_lanes (s : State) (p : Nat) (l : List Nat) (info : Word) : (s.raiseAll p l info).lanes = s.lanes :=
  (State.raiseAll_same (fs := 0x8000000010) (.refl _) s p l info (.refl _ s)).lanes rfl
@[simp] theorem State.raiseAll_macros (s : State) (p : Nat) (l : List Nat) (info : Word) : (s.raiseAll p l info).macros = s.macros :=
  (State.raiseAll_same (fs := 0x8000000010) (.refl _) s p l info (.refl _ s)).macros rfl
@[simp] theorem State.raiseAll_ports (s : State) (p : Nat) (l : List Nat) (info : Word) : (s.raiseAll p l info).ports = s.ports :=
  (State.raiseAll_same (fs := 0x8000000010) (.refl _) s p l info (.refl _ s)).ports rfl
@[simp] theorem State.raiseAll_spans (s : State) (p : Nat) (l : List Nat) (info : Word) : (s.raiseAll p l info).spans = s.spans :=
  (State.raiseAll_same (fs := 0x8000000010) (.refl _) s p l info (.refl _ s)).spans rfl
@[simp] theorem State.raiseAll_frames (s : State) (p : Nat) (l : List Nat) (info : Word) : (s.raiseAll p l info).frames = s.frames :=
  (State.raiseAll_same (fs := 0x8000000010) (.refl _) s p l info (.refl _ s)).frames rfl
@[simp] theorem State.raiseAll_nextFrame (s : State) (p : Nat) (l : List Nat) (info : Word) : (s.raiseAll p l info).nextFrame = s.nextFrame :=
  (State.raiseAll_same (fs := 0x8000000010) (.refl _) s p l info (.refl _ s)).nextFrame rfl
@[simp] theorem State.raiseAll_slices (s : State) (p : Nat) (l : List Nat) (info : Word) : (s.raiseAll p l info).slices = s.slices :=
  (State.raiseAll_same (fs := 0x8000000010) (.refl _) s p l info (.refl _ s)).slices rfl
@[simp] theorem State.raiseAll_mcast (s : State) (p : Nat) (l : List Nat) (info : Word) : (s.raiseAll p l info).mcast = s.mcast :=
  (State.raiseAll_same (fs := 0x8000000010) (.refl _) s p l info (.refl _ s)).mcast rfl
@[simp] theorem State.raiseAll_rings (s : State) (p : Nat) (l : List Nat) (info : Word) : (s.raiseAll p l info).rings = s.rings :=
  (State.raiseAll_same (fs := 0x8000000010) (.refl _) s p l info (.refl _ s)).rings rfl
@[simp] theorem State.raiseAll_inflight (s : State) (p : Nat) (l : List Nat) (info : Word) : (s.raiseAll p l info).inflight = s.inflight :=
  (State.raiseAll_same (fs := 0x8000000010) (.refl _) s p l info (.refl _ s)).inflight rfl
@[simp] theorem State.raiseAll_deck (s : State) (p : Nat) (l : List Nat) (info : Word) : (s.raiseAll p l info).deck = s.deck :=
  (State.raiseAll_same (fs := 0x8000000010) (.refl _) s p l info (.refl _ s)).deck rfl
@[simp] theorem State.raiseAll_path (s : State) (p : Nat) (l : List Nat) (info : Word) : (s.raiseAll p l info).path = s.path :=
  (State.raiseAll_same (fs := 0x8000000010) (.refl _) s p l info (.refl _ s)).path rfl
@[simp] theorem State.raiseAll_queues (s : State) (p : Nat) (l : List Nat) (info : Word) : (s.raiseAll p l info).queues = s.queues :=
  (State.raiseAll_same (fs := 0x8000000010) (.refl _) s p l info (.refl _ s)).queues rfl
@[simp] theorem State.raiseAll_deficit (s : State) (p : Nat) (l : List Nat) (info : Word) : (s.raiseAll p l info).deficit = s.deficit :=
  (State.raiseAll_same (fs := 0x8000000010) (.refl _) s p l info (.refl _ s)).deficit rfl
@[simp] theorem State.raiseAll_qbucket (s : State) (p : Nat) (l : List Nat) (info : Word) : (s.raiseAll p l info).qbucket = s.qbucket :=
  (State.raiseAll_same (fs := 0x8000000010) (.refl _) s p l info (.refl _ s)).qbucket rfl
@[simp] theorem State.raiseAll_sched (s : State) (p : Nat) (l : List Nat) (info : Word) : (s.raiseAll p l info).sched = s.sched :=
  (State.raiseAll_same (fs := 0x8000000010) (.refl _) s p l info (.refl _ s)).sched rfl
@[simp] theorem State.raiseAll_pfcTx (s : State) (p : Nat) (l : List Nat) (info : Word) : (s.raiseAll p l info).pfcTx = s.pfcTx :=
  (State.raiseAll_same (fs := 0x8000000010) (.refl _) s p l info (.refl _ s)).pfcTx rfl
@[simp] theorem State.raiseAll_meters (s : State) (p : Nat) (l : List Nat) (info : Word) : (s.raiseAll p l info).meters = s.meters :=
  (State.raiseAll_same (fs := 0x8000000010) (.refl _) s p l info (.refl _ s)).meters rfl
@[simp] theorem State.raiseAll_late (s : State) (p : Nat) (l : List Nat) (info : Word) : (s.raiseAll p l info).late = s.late :=
  (State.raiseAll_same (fs := 0x8000000010) (.refl _) s p l info (.refl _ s)).late rfl
@[simp] theorem State.raiseAll_unsettled (s : State) (p : Nat) (l : List Nat) (info : Word) : (s.raiseAll p l info).unsettled = s.unsettled :=
  (State.raiseAll_same (fs := 0x8000000010) (.refl _) s p l info (.refl _ s)).unsettled rfl
@[simp] theorem State.raiseAll_wood (s : State) (p : Nat) (l : List Nat) (info : Word) : (s.raiseAll p l info).wood = s.wood :=
  (State.raiseAll_same (fs := 0x8000000010) (.refl _) s p l info (.refl _ s)).wood rfl
@[simp] theorem State.raiseAll_eastq (s : State) (p : Nat) (l : List Nat) (info : Word) : (s.raiseAll p l info).eastq = s.eastq :=
  (State.raiseAll_same (fs := 0x8000000010) (.refl _) s p l info (.refl _ s)).eastq rfl
@[simp] theorem State.raiseAll_hitq (s : State) (p : Nat) (l : List Nat) (info : Word) : (s.raiseAll p l info).hitq = s.hitq :=
  (State.raiseAll_same (fs := 0x8000000010) (.refl _) s p l info (.refl _ s)).hitq rfl
@[simp] theorem State.raiseAll_matrix (s : State) (p : Nat) (l : List Nat) (info : Word) : (s.raiseAll p l info).matrix = s.matrix :=
  (State.raiseAll_same (fs := 0x8000000010) (.refl _) s p l info (.refl _ s)).matrix rfl
@[simp] theorem State.raiseAll_tally (s : State) (p : Nat) (l : List Nat) (info : Word) : (s.raiseAll p l info).tally = s.tally :=
  (State.raiseAll_same (fs := 0x8000000010) (.refl _) s p l info (.refl _ s)).tally rfl
@[simp] theorem State.raiseAll_hbm (s : State) (p : Nat) (l : List Nat) (info : Word) : (s.raiseAll p l info).hbm = s.hbm :=
  (State.raiseAll_same (fs := 0x8000000010) (.refl _) s p l info (.refl _ s)).hbm rfl
@[simp] theorem State.raiseAll_host (s : State) (p : Nat) (l : List Nat) (info : Word) : (s.raiseAll p l info).host = s.host :=
  (State.raiseAll_same (fs := 0x8000000010) (.refl _) s p l info (.refl _ s)).host rfl
@[simp] theorem State.raiseAll_cruiser (s : State) (p : Nat) (l : List Nat) (info : Word) : (s.raiseAll p l info).cruiser = s.cruiser :=
  (State.raiseAll_same (fs := 0x8000000010) (.refl _) s p l info (.refl _ s)).cruiser rfl
@[simp] theorem State.raiseAll_fire (s : State) (p : Nat) (l : List Nat) (info : Word) : (s.raiseAll p l info).fire = s.fire :=
  (State.raiseAll_same (fs := 0x8000000010) (.refl _) s p l info (.refl _ s)).fire rfl
@[simp] theorem State.raiseAll_raft (s : State) (p : Nat) (l : List Nat) (info : Word) : (s.raiseAll p l info).raft = s.raft :=
  (State.raiseAll_same (fs := 0x8000000010) (.refl _) s p l info (.refl _ s)).raft rfl
@[simp] theorem State.raiseAll_forester (s : State) (p : Nat) (l : List Nat) (info : Word) : (s.raiseAll p l info).forester = s.forester :=
  (State.raiseAll_same (fs := 0x8000000010) (.refl _) s p l info (.refl _ s)).forester rfl
@[simp] theorem State.raiseAll_mram (s : State) (p : Nat) (l : List Nat) (info : Word) : (s.raiseAll p l info).mram = s.mram :=
  (State.raiseAll_same (fs := 0x8000000010) (.refl _) s p l info (.refl _ s)).mram rfl
@[simp] theorem State.raiseAll_fuses (s : State) (p : Nat) (l : List Nat) (info : Word) : (s.raiseAll p l info).fuses = s.fuses :=
  (State.raiseAll_same (fs := 0x8000000010) (.refl _) s p l info (.refl _ s)).fuses rfl
@[simp] theorem State.raiseAll_ppsHigh (s : State) (p : Nat) (l : List Nat) (info : Word) : (s.raiseAll p l info).ppsHigh = s.ppsHigh :=
  (State.raiseAll_same (fs := 0x8000000010) (.refl _) s p l info (.refl _ s)).ppsHigh rfl
@[simp] theorem State.raiseAll_rst (s : State) (p : Nat) (l : List Nat) (info : Word) : (s.raiseAll p l info).rst = s.rst :=
  (State.raiseAll_same (fs := 0x8000000010) (.refl _) s p l info (.refl _ s)).rst rfl
@[simp] theorem State.raiseAll_live (s : State) (p : Nat) (l : List Nat) (info : Word) : (s.raiseAll p l info).live = s.live := by unfold State.live; simp

/-! ### raiseIf -/

@[simp] theorem State.raiseIf_pending (s : State) (b : Bool) (p i : Nat) : (s.raiseIf b p i).pending = s.pending :=
  (State.raiseIf_same (fs := 0x8000000010) (.refl _) s b p i (.refl _ s)).pending
@[simp] theorem State.raiseIf_clk (s : State) (b : Bool) (p i : Nat) : (s.raiseIf b p i).clk = s.clk :=
  (State.raiseIf_same (fs := 0x8000000010) (.refl _) s b p i (.refl _ s)).clk rfl
@[simp] theorem State.raiseIf_freeCtr (s : State) (b : Bool) (p i : Nat) : (s.raiseIf b p i).freeCtr = s.freeCtr :=
  (State.raiseIf_same (fs := 0x8000000010) (.refl _) s b p i (.refl _ s)).freeCtr rfl
@[simp] theorem State.raiseIf_out (s : State) (b : Bool) (p i : Nat) : (s.raiseIf b p i).out = s.out :=
  (State.raiseIf_same (fs := 0x8000000010) (.refl _) s b p i (.refl _ s)).out rfl
@[simp] theorem State.raiseIf_selRegs (s : State) (b : Bool) (p i : Nat) : (s.raiseIf b p i).selRegs = s.selRegs :=
  (State.raiseIf_same (fs := 0x8000000010) (.refl _) s b p i (.refl _ s)).selRegs rfl
@[simp] theorem State.raiseIf_mem (s : State) (b : Bool) (p i : Nat) : (s.raiseIf b p i).mem = s.mem :=
  (State.raiseIf_same (fs := 0x8000000010) (.refl _) s b p i (.refl _ s)).mem rfl
@[simp] theorem State.raiseIf_bus (s : State) (b : Bool) (p i : Nat) : (s.raiseIf b p i).bus = s.bus :=
  (State.raiseIf_same (fs := 0x8000000010) (.refl _) s b p i (.refl _ s)).bus rfl
@[simp] theorem State.raiseIf_flumeUp (s : State) (b : Bool) (p i : Nat) : (s.raiseIf b p i).flumeUp = s.flumeUp :=
  (State.raiseIf_same (fs := 0x8000000010) (.refl _) s b p i (.refl _ s)).flumeUp rfl
@[simp] theorem State.raiseIf_lanes (s : State) (b : Bool) (p i : Nat) : (s.raiseIf b p i).lanes = s.lanes :=
  (State.raiseIf_same (fs := 0x8000000010) (.refl _) s b p i (.refl _ s)).lanes rfl
@[simp] theorem State.raiseIf_macros (s : State) (b : Bool) (p i : Nat) : (s.raiseIf b p i).macros = s.macros :=
  (State.raiseIf_same (fs := 0x8000000010) (.refl _) s b p i (.refl _ s)).macros rfl
@[simp] theorem State.raiseIf_ports (s : State) (b : Bool) (p i : Nat) : (s.raiseIf b p i).ports = s.ports :=
  (State.raiseIf_same (fs := 0x8000000010) (.refl _) s b p i (.refl _ s)).ports rfl
@[simp] theorem State.raiseIf_spans (s : State) (b : Bool) (p i : Nat) : (s.raiseIf b p i).spans = s.spans :=
  (State.raiseIf_same (fs := 0x8000000010) (.refl _) s b p i (.refl _ s)).spans rfl
@[simp] theorem State.raiseIf_frames (s : State) (b : Bool) (p i : Nat) : (s.raiseIf b p i).frames = s.frames :=
  (State.raiseIf_same (fs := 0x8000000010) (.refl _) s b p i (.refl _ s)).frames rfl
@[simp] theorem State.raiseIf_nextFrame (s : State) (b : Bool) (p i : Nat) : (s.raiseIf b p i).nextFrame = s.nextFrame :=
  (State.raiseIf_same (fs := 0x8000000010) (.refl _) s b p i (.refl _ s)).nextFrame rfl
@[simp] theorem State.raiseIf_slices (s : State) (b : Bool) (p i : Nat) : (s.raiseIf b p i).slices = s.slices :=
  (State.raiseIf_same (fs := 0x8000000010) (.refl _) s b p i (.refl _ s)).slices rfl
@[simp] theorem State.raiseIf_mcast (s : State) (b : Bool) (p i : Nat) : (s.raiseIf b p i).mcast = s.mcast :=
  (State.raiseIf_same (fs := 0x8000000010) (.refl _) s b p i (.refl _ s)).mcast rfl
@[simp] theorem State.raiseIf_rings (s : State) (b : Bool) (p i : Nat) : (s.raiseIf b p i).rings = s.rings :=
  (State.raiseIf_same (fs := 0x8000000010) (.refl _) s b p i (.refl _ s)).rings rfl
@[simp] theorem State.raiseIf_inflight (s : State) (b : Bool) (p i : Nat) : (s.raiseIf b p i).inflight = s.inflight :=
  (State.raiseIf_same (fs := 0x8000000010) (.refl _) s b p i (.refl _ s)).inflight rfl
@[simp] theorem State.raiseIf_deck (s : State) (b : Bool) (p i : Nat) : (s.raiseIf b p i).deck = s.deck :=
  (State.raiseIf_same (fs := 0x8000000010) (.refl _) s b p i (.refl _ s)).deck rfl
@[simp] theorem State.raiseIf_path (s : State) (b : Bool) (p i : Nat) : (s.raiseIf b p i).path = s.path :=
  (State.raiseIf_same (fs := 0x8000000010) (.refl _) s b p i (.refl _ s)).path rfl
@[simp] theorem State.raiseIf_queues (s : State) (b : Bool) (p i : Nat) : (s.raiseIf b p i).queues = s.queues :=
  (State.raiseIf_same (fs := 0x8000000010) (.refl _) s b p i (.refl _ s)).queues rfl
@[simp] theorem State.raiseIf_deficit (s : State) (b : Bool) (p i : Nat) : (s.raiseIf b p i).deficit = s.deficit :=
  (State.raiseIf_same (fs := 0x8000000010) (.refl _) s b p i (.refl _ s)).deficit rfl
@[simp] theorem State.raiseIf_qbucket (s : State) (b : Bool) (p i : Nat) : (s.raiseIf b p i).qbucket = s.qbucket :=
  (State.raiseIf_same (fs := 0x8000000010) (.refl _) s b p i (.refl _ s)).qbucket rfl
@[simp] theorem State.raiseIf_sched (s : State) (b : Bool) (p i : Nat) : (s.raiseIf b p i).sched = s.sched :=
  (State.raiseIf_same (fs := 0x8000000010) (.refl _) s b p i (.refl _ s)).sched rfl
@[simp] theorem State.raiseIf_pfcTx (s : State) (b : Bool) (p i : Nat) : (s.raiseIf b p i).pfcTx = s.pfcTx :=
  (State.raiseIf_same (fs := 0x8000000010) (.refl _) s b p i (.refl _ s)).pfcTx rfl
@[simp] theorem State.raiseIf_meters (s : State) (b : Bool) (p i : Nat) : (s.raiseIf b p i).meters = s.meters :=
  (State.raiseIf_same (fs := 0x8000000010) (.refl _) s b p i (.refl _ s)).meters rfl
@[simp] theorem State.raiseIf_late (s : State) (b : Bool) (p i : Nat) : (s.raiseIf b p i).late = s.late :=
  (State.raiseIf_same (fs := 0x8000000010) (.refl _) s b p i (.refl _ s)).late rfl
@[simp] theorem State.raiseIf_unsettled (s : State) (b : Bool) (p i : Nat) : (s.raiseIf b p i).unsettled = s.unsettled :=
  (State.raiseIf_same (fs := 0x8000000010) (.refl _) s b p i (.refl _ s)).unsettled rfl
@[simp] theorem State.raiseIf_wood (s : State) (b : Bool) (p i : Nat) : (s.raiseIf b p i).wood = s.wood :=
  (State.raiseIf_same (fs := 0x8000000010) (.refl _) s b p i (.refl _ s)).wood rfl
@[simp] theorem State.raiseIf_eastq (s : State) (b : Bool) (p i : Nat) : (s.raiseIf b p i).eastq = s.eastq :=
  (State.raiseIf_same (fs := 0x8000000010) (.refl _) s b p i (.refl _ s)).eastq rfl
@[simp] theorem State.raiseIf_hitq (s : State) (b : Bool) (p i : Nat) : (s.raiseIf b p i).hitq = s.hitq :=
  (State.raiseIf_same (fs := 0x8000000010) (.refl _) s b p i (.refl _ s)).hitq rfl
@[simp] theorem State.raiseIf_matrix (s : State) (b : Bool) (p i : Nat) : (s.raiseIf b p i).matrix = s.matrix :=
  (State.raiseIf_same (fs := 0x8000000010) (.refl _) s b p i (.refl _ s)).matrix rfl
@[simp] theorem State.raiseIf_tally (s : State) (b : Bool) (p i : Nat) : (s.raiseIf b p i).tally = s.tally :=
  (State.raiseIf_same (fs := 0x8000000010) (.refl _) s b p i (.refl _ s)).tally rfl
@[simp] theorem State.raiseIf_hbm (s : State) (b : Bool) (p i : Nat) : (s.raiseIf b p i).hbm = s.hbm :=
  (State.raiseIf_same (fs := 0x8000000010) (.refl _) s b p i (.refl _ s)).hbm rfl
@[simp] theorem State.raiseIf_host (s : State) (b : Bool) (p i : Nat) : (s.raiseIf b p i).host = s.host :=
  (State.raiseIf_same (fs := 0x8000000010) (.refl _) s b p i (.refl _ s)).host rfl
@[simp] theorem State.raiseIf_cruiser (s : State) (b : Bool) (p i : Nat) : (s.raiseIf b p i).cruiser = s.cruiser :=
  (State.raiseIf_same (fs := 0x8000000010) (.refl _) s b p i (.refl _ s)).cruiser rfl
@[simp] theorem State.raiseIf_fire (s : State) (b : Bool) (p i : Nat) : (s.raiseIf b p i).fire = s.fire :=
  (State.raiseIf_same (fs := 0x8000000010) (.refl _) s b p i (.refl _ s)).fire rfl
@[simp] theorem State.raiseIf_raft (s : State) (b : Bool) (p i : Nat) : (s.raiseIf b p i).raft = s.raft :=
  (State.raiseIf_same (fs := 0x8000000010) (.refl _) s b p i (.refl _ s)).raft rfl
@[simp] theorem State.raiseIf_forester (s : State) (b : Bool) (p i : Nat) : (s.raiseIf b p i).forester = s.forester :=
  (State.raiseIf_same (fs := 0x8000000010) (.refl _) s b p i (.refl _ s)).forester rfl
@[simp] theorem State.raiseIf_mram (s : State) (b : Bool) (p i : Nat) : (s.raiseIf b p i).mram = s.mram :=
  (State.raiseIf_same (fs := 0x8000000010) (.refl _) s b p i (.refl _ s)).mram rfl
@[simp] theorem State.raiseIf_fuses (s : State) (b : Bool) (p i : Nat) : (s.raiseIf b p i).fuses = s.fuses :=
  (State.raiseIf_same (fs := 0x8000000010) (.refl _) s b p i (.refl _ s)).fuses rfl
@[simp] theorem State.raiseIf_ppsHigh (s : State) (b : Bool) (p i : Nat) : (s.raiseIf b p i).ppsHigh = s.ppsHigh :=
  (State.raiseIf_same (fs := 0x8000000010) (.refl _) s b p i (.refl _ s)).ppsHigh rfl
@[simp] theorem State.raiseIf_rst (s : State) (b : Bool) (p i : Nat) : (s.raiseIf b p i).rst = s.rst :=
  (State.raiseIf_same (fs := 0x8000000010) (.refl _) s b p i (.refl _ s)).rst rfl
@[simp] theorem State.raiseIf_live (s : State) (b : Bool) (p i : Nat) : (s.raiseIf b p i).live = s.live := by unfold State.live; simp

end Sys2Proof.Machine
end

