-- ==== Sys2Proof/Laws/Access.lean ====
section
/-! SUPPORT. Reading a part of the state after an update of another part. -/

namespace Sys2Proof.Machine

/-! ### lane -/

@[simp] theorem State.keepQueue_lane (s old : State) (i : Nat) : (s.keepQueue old).lane i = s.lane i := (rfl)
@[simp] theorem State.setReg_lane (s : State) (p o : Nat) (v : Word) (i : Nat) : (s.setReg p o v).lane i = s.lane i := (rfl)
@[simp] theorem State.setSreg_lane (s : State) (d : Word) (k : Nat) (v : Word) (i : Nat) : (s.setSreg d k v).lane i = s.lane i := (rfl)
@[simp] theorem State.setMemW_lane (s : State) (p sel a : Nat) (v : Word) (i : Nat) : (s.setMemW p sel a v).lane i = s.lane i := (rfl)
@[simp] theorem State.setMacro_lane (s : State) (m : Nat) (x : MacroS) (i : Nat) : (s.setMacro m x).lane i = s.lane i := (rfl)
@[simp] theorem State.setPort_lane (s : State) (p : Nat) (x : PortS) (i : Nat) : (s.setPort p x).lane i = s.lane i := (rfl)
@[simp] theorem State.setSpan_lane (s : State) (q : Nat) (x : SpanS) (i : Nat) : (s.setSpan q x).lane i = s.lane i := (rfl)
@[simp] theorem State.setSlice_lane (s : State) (k : Nat) (x : SliceS) (i : Nat) : (s.setSlice k x).lane i = s.lane i := (rfl)
@[simp] theorem State.setSched_lane (s : State) (p : Nat) (x : SchedS) (i : Nat) : (s.setSched p x).lane i = s.lane i := (rfl)
@[simp] theorem State.setQueue_lane (s : State) (q : Nat) (x : List Nat) (i : Nat) : (s.setQueue q x).lane i = s.lane i := (rfl)
@[simp] theorem State.setDeck_lane (s : State) (h : Nat) (x : DeckS) (i : Nat) : (s.setDeck h x).lane i = s.lane i := (rfl)
@[simp] theorem State.setPath_lane (s : State) (h : Nat) (x : PathS) (i : Nat) : (s.setPath h x).lane i = s.lane i := (rfl)
@[simp] theorem State.setTally_lane (s : State) (h : Nat) (x : TallyS) (i : Nat) : (s.setTally h x).lane i = s.lane i := (rfl)
@[simp] theorem State.setMatrix_lane (s : State) (h : Nat) (x : MatrixS) (i : Nat) : (s.setMatrix h x).lane i = s.lane i := (rfl)
@[simp] theorem State.setWood_lane (s : State) (h : Nat) (x : WoodS) (i : Nat) : (s.setWood h x).lane i = s.lane i := (rfl)
@[simp] theorem State.setHbm_lane (s : State) (h : Nat) (x : HbmS) (i : Nat) : (s.setHbm h x).lane i = s.lane i := (rfl)
@[simp] theorem State.setHq_lane (s : State) (j : Nat) (x : HostQ) (i : Nat) : (s.setHq j x).lane i = s.lane i := (rfl)
@[simp] theorem State.setRing_lane (s : State) (r : Nat) (x : RingS) (i : Nat) : (s.setRing r x).lane i = s.lane i := (rfl)
@[simp] theorem State.setFrame_lane (s : State) (j : Nat) (f : Frame) (i : Nat) : (s.setFrame j f).lane i = s.lane i := (rfl)
@[simp] theorem State.endFrame_lane (s : State) (j : Nat) (i : Nat) : (s.endFrame j).lane i = s.lane i := (rfl)
@[simp] theorem State.newCopy_lane (s : State) (f : Frame) (i : Nat) : (s.newCopy f).lane i = s.lane i := (rfl)
@[simp] theorem State.emit_lane (s : State) (o : Output) (i : Nat) : (s.emit o).lane i = s.lane i := (rfl)
@[simp] theorem State.drawn_lane (s : State) (i : Nat) : (s.drawn).lane i = s.lane i := (rfl)
@[simp] theorem State.setCruiser_lane (s : State) (c : CruiserS) (i : Nat) : (s.setCruiser c).lane i = s.lane i := (rfl)
@[simp] theorem State.setFire_lane (s : State) (f : FireS) (i : Nat) : (s.setFire f).lane i = s.lane i := (rfl)
@[simp] theorem State.setLook_lane (s : State) (lo : LookoutS) (i : Nat) : (s.setLook lo).lane i = s.lane i := (rfl)
@[simp] theorem State.setRf_lane (s : State) (p o lo n v : Nat) (i : Nat) : (s.setRf p o lo n v).lane i = s.lane i := (rfl)
@[simp] theorem State.setReg64_lane (s : State) (p o v : Nat) (i : Nat) : (s.setReg64 p o v).lane i = s.lane i := (rfl)
@[simp] theorem State.count_lane (s : State) (p o n : Nat) (i : Nat) : (s.count p o n).lane i = s.lane i := (rfl)
@[simp] theorem State.count64_lane (s : State) (p o n : Nat) (i : Nat) : (s.count64 p o n).lane i = s.lane i := (rfl)
@[simp] theorem State.send_lane (s : State) (m : Message) (i : Nat) : (s.send m).lane i = s.lane i := by unfold State.lane; rw [State.send_lanes]
@[simp] theorem State.raise_lane (s : State) (p e : Nat) (i : Nat) : (s.raise p e).lane i = s.lane i := by unfold State.lane; rw [State.raise_lanes]
@[simp] theorem State.raiseAll_lane (s : State) (p : Nat) (l : List Nat) (info : Word) (i : Nat) : (s.raiseAll p l info).lane i = s.lane i := by unfold State.lane; rw [State.raiseAll_lanes]
@[simp] theorem State.raiseIf_lane (s : State) (b : Bool) (p e : Nat) (i : Nat) : (s.raiseIf b p e).lane i = s.lane i := by unfold State.lane; rw [State.raiseIf_lanes]

/-! ### macro_ -/

@[simp] theorem State.keepQueue_macro_ (s old : State) (i : Nat) : (s.keepQueue old).macro_ i = s.macro_ i := (rfl)
@[simp] theorem State.setReg_macro_ (s : State) (p o : Nat) (v : Word) (i : Nat) : (s.setReg p o v).macro_ i = s.macro_ i := (rfl)
@[simp] theorem State.setSreg_macro_ (s : State) (d : Word) (k : Nat) (v : Word) (i : Nat) : (s.setSreg d k v).macro_ i = s.macro_ i := (rfl)
@[simp] theorem State.setMemW_macro_ (s : State) (p sel a : Nat) (v : Word) (i : Nat) : (s.setMemW p sel a v).macro_ i = s.macro_ i := (rfl)
@[simp] theorem State.setLane_macro_ (s : State) (l : Nat) (x : LaneS) (i : Nat) : (s.setLane l x).macro_ i = s.macro_ i := (rfl)
@[simp] theorem State.setPort_macro_ (s : State) (p : Nat) (x : PortS) (i : Nat) : (s.setPort p x).macro_ i = s.macro_ i := (rfl)
@[simp] theorem State.setSpan_macro_ (s : State) (q : Nat) (x : SpanS) (i : Nat) : (s.setSpan q x).macro_ i = s.macro_ i := (rfl)
@[simp] theorem State.setSlice_macro_ (s : State) (k : Nat) (x : SliceS) (i : Nat) : (s.setSlice k x).macro_ i = s.macro_ i := (rfl)
@[simp] theorem State.setSched_macro_ (s : State) (p : Nat) (x : SchedS) (i : Nat) : (s.setSched p x).macro_ i = s.macro_ i := (rfl)
@[simp] theorem State.setQueue_macro_ (s : State) (q : Nat) (x : List Nat) (i : Nat) : (s.setQueue q x).macro_ i = s.macro_ i := (rfl)
@[simp] theorem State.setDeck_macro_ (s : State) (h : Nat) (x : DeckS) (i : Nat) : (s.setDeck h x).macro_ i = s.macro_ i := (rfl)
@[simp] theorem State.setPath_macro_ (s : State) (h : Nat) (x : PathS) (i : Nat) : (s.setPath h x).macro_ i = s.macro_ i := (rfl)
@[simp] theorem State.setTally_macro_ (s : State) (h : Nat) (x : TallyS) (i : Nat) : (s.setTally h x).macro_ i = s.macro_ i := (rfl)
@[simp] theorem State.setMatrix_macro_ (s : State) (h : Nat) (x : MatrixS) (i : Nat) : (s.setMatrix h x).macro_ i = s.macro_ i := (rfl)
@[simp] theorem State.setWood_macro_ (s : State) (h : Nat) (x : WoodS) (i : Nat) : (s.setWood h x).macro_ i = s.macro_ i := (rfl)
@[simp] theorem State.setHbm_macro_ (s : State) (h : Nat) (x : HbmS) (i : Nat) : (s.setHbm h x).macro_ i = s.macro_ i := (rfl)
@[simp] theorem State.setHq_macro_ (s : State) (j : Nat) (x : HostQ) (i : Nat) : (s.setHq j x).macro_ i = s.macro_ i := (rfl)
@[simp] theorem State.setRing_macro_ (s : State) (r : Nat) (x : RingS) (i : Nat) : (s.setRing r x).macro_ i = s.macro_ i := (rfl)
@[simp] theorem State.setFrame_macro_ (s : State) (j : Nat) (f : Frame) (i : Nat) : (s.setFrame j f).macro_ i = s.macro_ i := (rfl)
@[simp] theorem State.endFrame_macro_ (s : State) (j : Nat) (i : Nat) : (s.endFrame j).macro_ i = s.macro_ i := (rfl)
@[simp] theorem State.newCopy_macro_ (s : State) (f : Frame) (i : Nat) : (s.newCopy f).macro_ i = s.macro_ i := (rfl)
@[simp] theorem State.emit_macro_ (s : State) (o : Output) (i : Nat) : (s.emit o).macro_ i = s.macro_ i := (rfl)
@[simp] theorem State.drawn_macro_ (s : State) (i : Nat) : (s.drawn).macro_ i = s.macro_ i := (rfl)
@[simp] theorem State.setCruiser_macro_ (s : State) (c : CruiserS) (i : Nat) : (s.setCruiser c).macro_ i = s.macro_ i := (rfl)
@[simp] theorem State.setFire_macro_ (s : State) (f : FireS) (i : Nat) : (s.setFire f).macro_ i = s.macro_ i := (rfl)
@[simp] theorem State.setLook_macro_ (s : State) (lo : LookoutS) (i : Nat) : (s.setLook lo).macro_ i = s.macro_ i := (rfl)
@[simp] theorem State.setRf_macro_ (s : State) (p o lo n v : Nat) (i : Nat) : (s.setRf p o lo n v).macro_ i = s.macro_ i := (rfl)
@[simp] theorem State.setReg64_macro_ (s : State) (p o v : Nat) (i : Nat) : (s.setReg64 p o v).macro_ i = s.macro_ i := (rfl)
@[simp] theorem State.count_macro_ (s : State) (p o n : Nat) (i : Nat) : (s.count p o n).macro_ i = s.macro_ i := (rfl)
@[simp] theorem State.count64_macro_ (s : State) (p o n : Nat) (i : Nat) : (s.count64 p o n).macro_ i = s.macro_ i := (rfl)
@[simp] theorem State.send_macro_ (s : State) (m : Message) (i : Nat) : (s.send m).macro_ i = s.macro_ i := by unfold State.macro_; rw [State.send_macros]
@[simp] theorem State.raise_macro_ (s : State) (p e : Nat) (i : Nat) : (s.raise p e).macro_ i = s.macro_ i := by unfold State.macro_; rw [State.raise_macros]
@[simp] theorem State.raiseAll_macro_ (s : State) (p : Nat) (l : List Nat) (info : Word) (i : Nat) : (s.raiseAll p l info).macro_ i = s.macro_ i := by unfold State.macro_; rw [State.raiseAll_macros]
@[simp] theorem State.raiseIf_macro_ (s : State) (b : Bool) (p e : Nat) (i : Nat) : (s.raiseIf b p e).macro_ i = s.macro_ i := by unfold State.macro_; rw [State.raiseIf_macros]

/-! ### port -/

@[simp] theorem State.keepQueue_port (s old : State) (i : Nat) : (s.keepQueue old).port i = s.port i := (rfl)
@[simp] theorem State.setReg_port (s : State) (p o : Nat) (v : Word) (i : Nat) : (s.setReg p o v).port i = s.port i := (rfl)
@[simp] theorem State.setSreg_port (s : State) (d : Word) (k : Nat) (v : Word) (i : Nat) : (s.setSreg d k v).port i = s.port i := (rfl)
@[simp] theorem State.setMemW_port (s : State) (p sel a : Nat) (v : Word) (i : Nat) : (s.setMemW p sel a v).port i = s.port i := (rfl)
@[simp] theorem State.setLane_port (s : State) (l : Nat) (x : LaneS) (i : Nat) : (s.setLane l x).port i = s.port i := (rfl)
@[simp] theorem State.setMacro_port (s : State) (m : Nat) (x : MacroS) (i : Nat) : (s.setMacro m x).port i = s.port i := (rfl)
@[simp] theorem State.setSpan_port (s : State) (q : Nat) (x : SpanS) (i : Nat) : (s.setSpan q x).port i = s.port i := (rfl)
@[simp] theorem State.setSlice_port (s : State) (k : Nat) (x : SliceS) (i : Nat) : (s.setSlice k x).port i = s.port i := (rfl)
@[simp] theorem State.setSched_port (s : State) (p : Nat) (x : SchedS) (i : Nat) : (s.setSched p x).port i = s.port i := (rfl)
@[simp] theorem State.setQueue_port (s : State) (q : Nat) (x : List Nat) (i : Nat) : (s.setQueue q x).port i = s.port i := (rfl)
@[simp] theorem State.setDeck_port (s : State) (h : Nat) (x : DeckS) (i : Nat) : (s.setDeck h x).port i = s.port i := (rfl)
@[simp] theorem State.setPath_port (s : State) (h : Nat) (x : PathS) (i : Nat) : (s.setPath h x).port i = s.port i := (rfl)
@[simp] theorem State.setTally_port (s : State) (h : Nat) (x : TallyS) (i : Nat) : (s.setTally h x).port i = s.port i := (rfl)
@[simp] theorem State.setMatrix_port (s : State) (h : Nat) (x : MatrixS) (i : Nat) : (s.setMatrix h x).port i = s.port i := (rfl)
@[simp] theorem State.setWood_port (s : State) (h : Nat) (x : WoodS) (i : Nat) : (s.setWood h x).port i = s.port i := (rfl)
@[simp] theorem State.setHbm_port (s : State) (h : Nat) (x : HbmS) (i : Nat) : (s.setHbm h x).port i = s.port i := (rfl)
@[simp] theorem State.setHq_port (s : State) (j : Nat) (x : HostQ) (i : Nat) : (s.setHq j x).port i = s.port i := (rfl)
@[simp] theorem State.setRing_port (s : State) (r : Nat) (x : RingS) (i : Nat) : (s.setRing r x).port i = s.port i := (rfl)
@[simp] theorem State.setFrame_port (s : State) (j : Nat) (f : Frame) (i : Nat) : (s.setFrame j f).port i = s.port i := (rfl)
@[simp] theorem State.endFrame_port (s : State) (j : Nat) (i : Nat) : (s.endFrame j).port i = s.port i := (rfl)
@[simp] theorem State.newCopy_port (s : State) (f : Frame) (i : Nat) : (s.newCopy f).port i = s.port i := (rfl)
@[simp] theorem State.emit_port (s : State) (o : Output) (i : Nat) : (s.emit o).port i = s.port i := (rfl)
@[simp] theorem State.drawn_port (s : State) (i : Nat) : (s.drawn).port i = s.port i := (rfl)
@[simp] theorem State.setCruiser_port (s : State) (c : CruiserS) (i : Nat) : (s.setCruiser c).port i = s.port i := (rfl)
@[simp] theorem State.setFire_port (s : State) (f : FireS) (i : Nat) : (s.setFire f).port i = s.port i := (rfl)
@[simp] theorem State.setLook_port (s : State) (lo : LookoutS) (i : Nat) : (s.setLook lo).port i = s.port i := (rfl)
@[simp] theorem State.setRf_port (s : State) (p o lo n v : Nat) (i : Nat) : (s.setRf p o lo n v).port i = s.port i := (rfl)
@[simp] theorem State.setReg64_port (s : State) (p o v : Nat) (i : Nat) : (s.setReg64 p o v).port i = s.port i := (rfl)
@[simp] theorem State.count_port (s : State) (p o n : Nat) (i : Nat) : (s.count p o n).port i = s.port i := (rfl)
@[simp] theorem State.count64_port (s : State) (p o n : Nat) (i : Nat) : (s.count64 p o n).port i = s.port i := (rfl)
@[simp] theorem State.send_port (s : State) (m : Message) (i : Nat) : (s.send m).port i = s.port i := by unfold State.port; rw [State.send_ports]
@[simp] theorem State.raise_port (s : State) (p e : Nat) (i : Nat) : (s.raise p e).port i = s.port i := by unfold State.port; rw [State.raise_ports]
@[simp] theorem State.raiseAll_port (s : State) (p : Nat) (l : List Nat) (info : Word) (i : Nat) : (s.raiseAll p l info).port i = s.port i := by unfold State.port; rw [State.raiseAll_ports]
@[simp] theorem State.raiseIf_port (s : State) (b : Bool) (p e : Nat) (i : Nat) : (s.raiseIf b p e).port i = s.port i := by unfold State.port; rw [State.raiseIf_ports]

/-! ### span -/

@[simp] theorem State.keepQueue_span (s old : State) (i : Nat) : (s.keepQueue old).span i = s.span i := (rfl)
@[simp] theorem State.setReg_span (s : State) (p o : Nat) (v : Word) (i : Nat) : (s.setReg p o v).span i = s.span i := (rfl)
@[simp] theorem State.setSreg_span (s : State) (d : Word) (k : Nat) (v : Word) (i : Nat) : (s.setSreg d k v).span i = s.span i := (rfl)
@[simp] theorem State.setMemW_span (s : State) (p sel a : Nat) (v : Word) (i : Nat) : (s.setMemW p sel a v).span i = s.span i := (rfl)
@[simp] theorem State.setLane_span (s : State) (l : Nat) (x : LaneS) (i : Nat) : (s.setLane l x).span i = s.span i := (rfl)
@[simp] theorem State.setMacro_span (s : State) (m : Nat) (x : MacroS) (i : Nat) : (s.setMacro m x).span i = s.span i := (rfl)
@[simp] theorem State.setPort_span (s : State) (p : Nat) (x : PortS) (i : Nat) : (s.setPort p x).span i = s.span i := (rfl)
@[simp] theorem State.setSlice_span (s : State) (k : Nat) (x : SliceS) (i : Nat) : (s.setSlice k x).span i = s.span i := (rfl)
@[simp] theorem State.setSched_span (s : State) (p : Nat) (x : SchedS) (i : Nat) : (s.setSched p x).span i = s.span i := (rfl)
@[simp] theorem State.setQueue_span (s : State) (q : Nat) (x : List Nat) (i : Nat) : (s.setQueue q x).span i = s.span i := (rfl)
@[simp] theorem State.setDeck_span (s : State) (h : Nat) (x : DeckS) (i : Nat) : (s.setDeck h x).span i = s.span i := (rfl)
@[simp] theorem State.setPath_span (s : State) (h : Nat) (x : PathS) (i : Nat) : (s.setPath h x).span i = s.span i := (rfl)
@[simp] theorem State.setTally_span (s : State) (h : Nat) (x : TallyS) (i : Nat) : (s.setTally h x).span i = s.span i := (rfl)
@[simp] theorem State.setMatrix_span (s : State) (h : Nat) (x : MatrixS) (i : Nat) : (s.setMatrix h x).span i = s.span i := (rfl)
@[simp] theorem State.setWood_span (s : State) (h : Nat) (x : WoodS) (i : Nat) : (s.setWood h x).span i = s.span i := (rfl)
@[simp] theorem State.setHbm_span (s : State) (h : Nat) (x : HbmS) (i : Nat) : (s.setHbm h x).span i = s.span i := (rfl)
@[simp] theorem State.setHq_span (s : State) (j : Nat) (x : HostQ) (i : Nat) : (s.setHq j x).span i = s.span i := (rfl)
@[simp] theorem State.setRing_span (s : State) (r : Nat) (x : RingS) (i : Nat) : (s.setRing r x).span i = s.span i := (rfl)
@[simp] theorem State.setFrame_span (s : State) (j : Nat) (f : Frame) (i : Nat) : (s.setFrame j f).span i = s.span i := (rfl)
@[simp] theorem State.endFrame_span (s : State) (j : Nat) (i : Nat) : (s.endFrame j).span i = s.span i := (rfl)
@[simp] theorem State.newCopy_span (s : State) (f : Frame) (i : Nat) : (s.newCopy f).span i = s.span i := (rfl)
@[simp] theorem State.emit_span (s : State) (o : Output) (i : Nat) : (s.emit o).span i = s.span i := (rfl)
@[simp] theorem State.drawn_span (s : State) (i : Nat) : (s.drawn).span i = s.span i := (rfl)
@[simp] theorem State.setCruiser_span (s : State) (c : CruiserS) (i : Nat) : (s.setCruiser c).span i = s.span i := (rfl)
@[simp] theorem State.setFire_span (s : State) (f : FireS) (i : Nat) : (s.setFire f).span i = s.span i := (rfl)
@[simp] theorem State.setLook_span (s : State) (lo : LookoutS) (i : Nat) : (s.setLook lo).span i = s.span i := (rfl)
@[simp] theorem State.setRf_span (s : State) (p o lo n v : Nat) (i : Nat) : (s.setRf p o lo n v).span i = s.span i := (rfl)
@[simp] theorem State.setReg64_span (s : State) (p o v : Nat) (i : Nat) : (s.setReg64 p o v).span i = s.span i := (rfl)
@[simp] theorem State.count_span (s : State) (p o n : Nat) (i : Nat) : (s.count p o n).span i = s.span i := (rfl)
@[simp] theorem State.count64_span (s : State) (p o n : Nat) (i : Nat) : (s.count64 p o n).span i = s.span i := (rfl)
@[simp] theorem State.send_span (s : State) (m : Message) (i : Nat) : (s.send m).span i = s.span i := by unfold State.span; rw [State.send_spans]
@[simp] theorem State.raise_span (s : State) (p e : Nat) (i : Nat) : (s.raise p e).span i = s.span i := by unfold State.span; rw [State.raise_spans]
@[simp] theorem State.raiseAll_span (s : State) (p : Nat) (l : List Nat) (info : Word) (i : Nat) : (s.raiseAll p l info).span i = s.span i := by unfold State.span; rw [State.raiseAll_spans]
@[simp] theorem State.raiseIf_span (s : State) (b : Bool) (p e : Nat) (i : Nat) : (s.raiseIf b p e).span i = s.span i := by unfold State.span; rw [State.raiseIf_spans]

/-! ### slice -/

@[simp] theorem State.keepQueue_slice (s old : State) (i : Nat) : (s.keepQueue old).slice i = s.slice i := (rfl)
@[simp] theorem State.setReg_slice (s : State) (p o : Nat) (v : Word) (i : Nat) : (s.setReg p o v).slice i = s.slice i := (rfl)
@[simp] theorem State.setSreg_slice (s : State) (d : Word) (k : Nat) (v : Word) (i : Nat) : (s.setSreg d k v).slice i = s.slice i := (rfl)
@[simp] theorem State.setMemW_slice (s : State) (p sel a : Nat) (v : Word) (i : Nat) : (s.setMemW p sel a v).slice i = s.slice i := (rfl)
@[simp] theorem State.setLane_slice (s : State) (l : Nat) (x : LaneS) (i : Nat) : (s.setLane l x).slice i = s.slice i := (rfl)
@[simp] theorem State.setMacro_slice (s : State) (m : Nat) (x : MacroS) (i : Nat) : (s.setMacro m x).slice i = s.slice i := (rfl)
@[simp] theorem State.setPort_slice (s : State) (p : Nat) (x : PortS) (i : Nat) : (s.setPort p x).slice i = s.slice i := (rfl)
@[simp] theorem State.setSpan_slice (s : State) (q : Nat) (x : SpanS) (i : Nat) : (s.setSpan q x).slice i = s.slice i := (rfl)
@[simp] theorem State.setSched_slice (s : State) (p : Nat) (x : SchedS) (i : Nat) : (s.setSched p x).slice i = s.slice i := (rfl)
@[simp] theorem State.setQueue_slice (s : State) (q : Nat) (x : List Nat) (i : Nat) : (s.setQueue q x).slice i = s.slice i := (rfl)
@[simp] theorem State.setDeck_slice (s : State) (h : Nat) (x : DeckS) (i : Nat) : (s.setDeck h x).slice i = s.slice i := (rfl)
@[simp] theorem State.setPath_slice (s : State) (h : Nat) (x : PathS) (i : Nat) : (s.setPath h x).slice i = s.slice i := (rfl)
@[simp] theorem State.setTally_slice (s : State) (h : Nat) (x : TallyS) (i : Nat) : (s.setTally h x).slice i = s.slice i := (rfl)
@[simp] theorem State.setMatrix_slice (s : State) (h : Nat) (x : MatrixS) (i : Nat) : (s.setMatrix h x).slice i = s.slice i := (rfl)
@[simp] theorem State.setWood_slice (s : State) (h : Nat) (x : WoodS) (i : Nat) : (s.setWood h x).slice i = s.slice i := (rfl)
@[simp] theorem State.setHbm_slice (s : State) (h : Nat) (x : HbmS) (i : Nat) : (s.setHbm h x).slice i = s.slice i := (rfl)
@[simp] theorem State.setHq_slice (s : State) (j : Nat) (x : HostQ) (i : Nat) : (s.setHq j x).slice i = s.slice i := (rfl)
@[simp] theorem State.setRing_slice (s : State) (r : Nat) (x : RingS) (i : Nat) : (s.setRing r x).slice i = s.slice i := (rfl)
@[simp] theorem State.setFrame_slice (s : State) (j : Nat) (f : Frame) (i : Nat) : (s.setFrame j f).slice i = s.slice i := (rfl)
@[simp] theorem State.endFrame_slice (s : State) (j : Nat) (i : Nat) : (s.endFrame j).slice i = s.slice i := (rfl)
@[simp] theorem State.newCopy_slice (s : State) (f : Frame) (i : Nat) : (s.newCopy f).slice i = s.slice i := (rfl)
@[simp] theorem State.emit_slice (s : State) (o : Output) (i : Nat) : (s.emit o).slice i = s.slice i := (rfl)
@[simp] theorem State.drawn_slice (s : State) (i : Nat) : (s.drawn).slice i = s.slice i := (rfl)
@[simp] theorem State.setCruiser_slice (s : State) (c : CruiserS) (i : Nat) : (s.setCruiser c).slice i = s.slice i := (rfl)
@[simp] theorem State.setFire_slice (s : State) (f : FireS) (i : Nat) : (s.setFire f).slice i = s.slice i := (rfl)
@[simp] theorem State.setLook_slice (s : State) (lo : LookoutS) (i : Nat) : (s.setLook lo).slice i = s.slice i := (rfl)
@[simp] theorem State.setRf_slice (s : State) (p o lo n v : Nat) (i : Nat) : (s.setRf p o lo n v).slice i = s.slice i := (rfl)
@[simp] theorem State.setReg64_slice (s : State) (p o v : Nat) (i : Nat) : (s.setReg64 p o v).slice i = s.slice i := (rfl)
@[simp] theorem State.count_slice (s : State) (p o n : Nat) (i : Nat) : (s.count p o n).slice i = s.slice i := (rfl)
@[simp] theorem State.count64_slice (s : State) (p o n : Nat) (i : Nat) : (s.count64 p o n).slice i = s.slice i := (rfl)
@[simp] theorem State.send_slice (s : State) (m : Message) (i : Nat) : (s.send m).slice i = s.slice i := by unfold State.slice; rw [State.send_slices]
@[simp] theorem State.raise_slice (s : State) (p e : Nat) (i : Nat) : (s.raise p e).slice i = s.slice i := by unfold State.slice; rw [State.raise_slices]
@[simp] theorem State.raiseAll_slice (s : State) (p : Nat) (l : List Nat) (info : Word) (i : Nat) : (s.raiseAll p l info).slice i = s.slice i := by unfold State.slice; rw [State.raiseAll_slices]
@[simp] theorem State.raiseIf_slice (s : State) (b : Bool) (p e : Nat) (i : Nat) : (s.raiseIf b p e).slice i = s.slice i := by unfold State.slice; rw [State.raiseIf_slices]

/-! ### schedOf -/

@[simp] theorem State.keepQueue_schedOf (s old : State) (i : Nat) : (s.keepQueue old).schedOf i = s.schedOf i := (rfl)
@[simp] theorem State.setReg_schedOf (s : State) (p o : Nat) (v : Word) (i : Nat) : (s.setReg p o v).schedOf i = s.schedOf i := (rfl)
@[simp] theorem State.setSreg_schedOf (s : State) (d : Word) (k : Nat) (v : Word) (i : Nat) : (s.setSreg d k v).schedOf i = s.schedOf i := (rfl)
@[simp] theorem State.setMemW_schedOf (s : State) (p sel a : Nat) (v : Word) (i : Nat) : (s.setMemW p sel a v).schedOf i = s.schedOf i := (rfl)
@[simp] theorem State.setLane_schedOf (s : State) (l : Nat) (x : LaneS) (i : Nat) : (s.setLane l x).schedOf i = s.schedOf i := (rfl)
@[simp] theorem State.setMacro_schedOf (s : State) (m : Nat) (x : MacroS) (i : Nat) : (s.setMacro m x).schedOf i = s.schedOf i := (rfl)
@[simp] theorem State.setPort_schedOf (s : State) (p : Nat) (x : PortS) (i : Nat) : (s.setPort p x).schedOf i = s.schedOf i := (rfl)
@[simp] theorem State.setSpan_schedOf (s : State) (q : Nat) (x : SpanS) (i : Nat) : (s.setSpan q x).schedOf i = s.schedOf i := (rfl)
@[simp] theorem State.setSlice_schedOf (s : State) (k : Nat) (x : SliceS) (i : Nat) : (s.setSlice k x).schedOf i = s.schedOf i := (rfl)
@[simp] theorem State.setQueue_schedOf (s : State) (q : Nat) (x : List Nat) (i : Nat) : (s.setQueue q x).schedOf i = s.schedOf i := (rfl)
@[simp] theorem State.setDeck_schedOf (s : State) (h : Nat) (x : DeckS) (i : Nat) : (s.setDeck h x).schedOf i = s.schedOf i := (rfl)
@[simp] theorem State.setPath_schedOf (s : State) (h : Nat) (x : PathS) (i : Nat) : (s.setPath h x).schedOf i = s.schedOf i := (rfl)
@[simp] theorem State.setTally_schedOf (s : State) (h : Nat) (x : TallyS) (i : Nat) : (s.setTally h x).schedOf i = s.schedOf i := (rfl)
@[simp] theorem State.setMatrix_schedOf (s : State) (h : Nat) (x : MatrixS) (i : Nat) : (s.setMatrix h x).schedOf i = s.schedOf i := (rfl)
@[simp] theorem State.setWood_schedOf (s : State) (h : Nat) (x : WoodS) (i : Nat) : (s.setWood h x).schedOf i = s.schedOf i := (rfl)
@[simp] theorem State.setHbm_schedOf (s : State) (h : Nat) (x : HbmS) (i : Nat) : (s.setHbm h x).schedOf i = s.schedOf i := (rfl)
@[simp] theorem State.setHq_schedOf (s : State) (j : Nat) (x : HostQ) (i : Nat) : (s.setHq j x).schedOf i = s.schedOf i := (rfl)
@[simp] theorem State.setRing_schedOf (s : State) (r : Nat) (x : RingS) (i : Nat) : (s.setRing r x).schedOf i = s.schedOf i := (rfl)
@[simp] theorem State.setFrame_schedOf (s : State) (j : Nat) (f : Frame) (i : Nat) : (s.setFrame j f).schedOf i = s.schedOf i := (rfl)
@[simp] theorem State.endFrame_schedOf (s : State) (j : Nat) (i : Nat) : (s.endFrame j).schedOf i = s.schedOf i := (rfl)
@[simp] theorem State.newCopy_schedOf (s : State) (f : Frame) (i : Nat) : (s.newCopy f).schedOf i = s.schedOf i := (rfl)
@[simp] theorem State.emit_schedOf (s : State) (o : Output) (i : Nat) : (s.emit o).schedOf i = s.schedOf i := (rfl)
@[simp] theorem State.drawn_schedOf (s : State) (i : Nat) : (s.drawn).schedOf i = s.schedOf i := (rfl)
@[simp] theorem State.setCruiser_schedOf (s : State) (c : CruiserS) (i : Nat) : (s.setCruiser c).schedOf i = s.schedOf i := (rfl)
@[simp] theorem State.setFire_schedOf (s : State) (f : FireS) (i : Nat) : (s.setFire f).schedOf i = s.schedOf i := (rfl)
@[simp] theorem State.setLook_schedOf (s : State) (lo : LookoutS) (i : Nat) : (s.setLook lo).schedOf i = s.schedOf i := (rfl)
@[simp] theorem State.setRf_schedOf (s : State) (p o lo n v : Nat) (i : Nat) : (s.setRf p o lo n v).schedOf i = s.schedOf i := (rfl)
@[simp] theorem State.setReg64_schedOf (s : State) (p o v : Nat) (i : Nat) : (s.setReg64 p o v).schedOf i = s.schedOf i := (rfl)
@[simp] theorem State.count_schedOf (s : State) (p o n : Nat) (i : Nat) : (s.count p o n).schedOf i = s.schedOf i := (rfl)
@[simp] theorem State.count64_schedOf (s : State) (p o n : Nat) (i : Nat) : (s.count64 p o n).schedOf i = s.schedOf i := (rfl)
@[simp] theorem State.send_schedOf (s : State) (m : Message) (i : Nat) : (s.send m).schedOf i = s.schedOf i := by unfold State.schedOf; rw [State.send_sched]
@[simp] theorem State.raise_schedOf (s : State) (p e : Nat) (i : Nat) : (s.raise p e).schedOf i = s.schedOf i := by unfold State.schedOf; rw [State.raise_sched]
@[simp] theorem State.raiseAll_schedOf (s : State) (p : Nat) (l : List Nat) (info : Word) (i : Nat) : (s.raiseAll p l info).schedOf i = s.schedOf i := by unfold State.schedOf; rw [State.raiseAll_sched]
@[simp] theorem State.raiseIf_schedOf (s : State) (b : Bool) (p e : Nat) (i : Nat) : (s.raiseIf b p e).schedOf i = s.schedOf i := by unfold State.schedOf; rw [State.raiseIf_sched]

/-! ### queue -/

@[simp] theorem State.keepQueue_queue (s old : State) (i : Nat) : (s.keepQueue old).queue i = s.queue i := (rfl)
@[simp] theorem State.setReg_queue (s : State) (p o : Nat) (v : Word) (i : Nat) : (s.setReg p o v).queue i = s.queue i := (rfl)
@[simp] theorem State.setSreg_queue (s : State) (d : Word) (k : Nat) (v : Word) (i : Nat) : (s.setSreg d k v).queue i = s.queue i := (rfl)
@[simp] theorem State.setMemW_queue (s : State) (p sel a : Nat) (v : Word) (i : Nat) : (s.setMemW p sel a v).queue i = s.queue i := (rfl)
@[simp] theorem State.setLane_queue (s : State) (l : Nat) (x : LaneS) (i : Nat) : (s.setLane l x).queue i = s.queue i := (rfl)
@[simp] theorem State.setMacro_queue (s : State) (m : Nat) (x : MacroS) (i : Nat) : (s.setMacro m x).queue i = s.queue i := (rfl)
@[simp] theorem State.setPort_queue (s : State) (p : Nat) (x : PortS) (i : Nat) : (s.setPort p x).queue i = s.queue i := (rfl)
@[simp] theorem State.setSpan_queue (s : State) (q : Nat) (x : SpanS) (i : Nat) : (s.setSpan q x).queue i = s.queue i := (rfl)
@[simp] theorem State.setSlice_queue (s : State) (k : Nat) (x : SliceS) (i : Nat) : (s.setSlice k x).queue i = s.queue i := (rfl)
@[simp] theorem State.setSched_queue (s : State) (p : Nat) (x : SchedS) (i : Nat) : (s.setSched p x).queue i = s.queue i := (rfl)
@[simp] theorem State.setDeck_queue (s : State) (h : Nat) (x : DeckS) (i : Nat) : (s.setDeck h x).queue i = s.queue i := (rfl)
@[simp] theorem State.setPath_queue (s : State) (h : Nat) (x : PathS) (i : Nat) : (s.setPath h x).queue i = s.queue i := (rfl)
@[simp] theorem State.setTally_queue (s : State) (h : Nat) (x : TallyS) (i : Nat) : (s.setTally h x).queue i = s.queue i := (rfl)
@[simp] theorem State.setMatrix_queue (s : State) (h : Nat) (x : MatrixS) (i : Nat) : (s.setMatrix h x).queue i = s.queue i := (rfl)
@[simp] theorem State.setWood_queue (s : State) (h : Nat) (x : WoodS) (i : Nat) : (s.setWood h x).queue i = s.queue i := (rfl)
@[simp] theorem State.setHbm_queue (s : State) (h : Nat) (x : HbmS) (i : Nat) : (s.setHbm h x).queue i = s.queue i := (rfl)
@[simp] theorem State.setHq_queue (s : State) (j : Nat) (x : HostQ) (i : Nat) : (s.setHq j x).queue i = s.queue i := (rfl)
@[simp] theorem State.setRing_queue (s : State) (r : Nat) (x : RingS) (i : Nat) : (s.setRing r x).queue i = s.queue i := (rfl)
@[simp] theorem State.setFrame_queue (s : State) (j : Nat) (f : Frame) (i : Nat) : (s.setFrame j f).queue i = s.queue i := (rfl)
@[simp] theorem State.endFrame_queue (s : State) (j : Nat) (i : Nat) : (s.endFrame j).queue i = s.queue i := (rfl)
@[simp] theorem State.newCopy_queue (s : State) (f : Frame) (i : Nat) : (s.newCopy f).queue i = s.queue i := (rfl)
@[simp] theorem State.emit_queue (s : State) (o : Output) (i : Nat) : (s.emit o).queue i = s.queue i := (rfl)
@[simp] theorem State.drawn_queue (s : State) (i : Nat) : (s.drawn).queue i = s.queue i := (rfl)
@[simp] theorem State.setCruiser_queue (s : State) (c : CruiserS) (i : Nat) : (s.setCruiser c).queue i = s.queue i := (rfl)
@[simp] theorem State.setFire_queue (s : State) (f : FireS) (i : Nat) : (s.setFire f).queue i = s.queue i := (rfl)
@[simp] theorem State.setLook_queue (s : State) (lo : LookoutS) (i : Nat) : (s.setLook lo).queue i = s.queue i := (rfl)
@[simp] theorem State.setRf_queue (s : State) (p o lo n v : Nat) (i : Nat) : (s.setRf p o lo n v).queue i = s.queue i := (rfl)
@[simp] theorem State.setReg64_queue (s : State) (p o v : Nat) (i : Nat) : (s.setReg64 p o v).queue i = s.queue i := (rfl)
@[simp] theorem State.count_queue (s : State) (p o n : Nat) (i : Nat) : (s.count p o n).queue i = s.queue i := (rfl)
@[simp] theorem State.count64_queue (s : State) (p o n : Nat) (i : Nat) : (s.count64 p o n).queue i = s.queue i := (rfl)
@[simp] theorem State.send_queue (s : State) (m : Message) (i : Nat) : (s.send m).queue i = s.queue i := by unfold State.queue; rw [State.send_queues]
@[simp] theorem State.raise_queue (s : State) (p e : Nat) (i : Nat) : (s.raise p e).queue i = s.queue i := by unfold State.queue; rw [State.raise_queues]
@[simp] theorem State.raiseAll_queue (s : State) (p : Nat) (l : List Nat) (info : Word) (i : Nat) : (s.raiseAll p l info).queue i = s.queue i := by unfold State.queue; rw [State.raiseAll_queues]
@[simp] theorem State.raiseIf_queue (s : State) (b : Bool) (p e : Nat) (i : Nat) : (s.raiseIf b p e).queue i = s.queue i := by unfold State.queue; rw [State.raiseIf_queues]

/-! ### deckOf -/

@[simp] theorem State.keepQueue_deckOf (s old : State) (i : Nat) : (s.keepQueue old).deckOf i = s.deckOf i := (rfl)
@[simp] theorem State.setReg_deckOf (s : State) (p o : Nat) (v : Word) (i : Nat) : (s.setReg p o v).deckOf i = s.deckOf i := (rfl)
@[simp] theorem State.setSreg_deckOf (s : State) (d : Word) (k : Nat) (v : Word) (i : Nat) : (s.setSreg d k v).deckOf i = s.deckOf i := (rfl)
@[simp] theorem State.setMemW_deckOf (s : State) (p sel a : Nat) (v : Word) (i : Nat) : (s.setMemW p sel a v).deckOf i = s.deckOf i := (rfl)
@[simp] theorem State.setLane_deckOf (s : State) (l : Nat) (x : LaneS) (i : Nat) : (s.setLane l x).deckOf i = s.deckOf i := (rfl)
@[simp] theorem State.setMacro_deckOf (s : State) (m : Nat) (x : MacroS) (i : Nat) : (s.setMacro m x).deckOf i = s.deckOf i := (rfl)
@[simp] theorem State.setPort_deckOf (s : State) (p : Nat) (x : PortS) (i : Nat) : (s.setPort p x).deckOf i = s.deckOf i := (rfl)
@[simp] theorem State.setSpan_deckOf (s : State) (q : Nat) (x : SpanS) (i : Nat) : (s.setSpan q x).deckOf i = s.deckOf i := (rfl)
@[simp] theorem State.setSlice_deckOf (s : State) (k : Nat) (x : SliceS) (i : Nat) : (s.setSlice k x).deckOf i = s.deckOf i := (rfl)
@[simp] theorem State.setSched_deckOf (s : State) (p : Nat) (x : SchedS) (i : Nat) : (s.setSched p x).deckOf i = s.deckOf i := (rfl)
@[simp] theorem State.setQueue_deckOf (s : State) (q : Nat) (x : List Nat) (i : Nat) : (s.setQueue q x).deckOf i = s.deckOf i := (rfl)
@[simp] theorem State.setPath_deckOf (s : State) (h : Nat) (x : PathS) (i : Nat) : (s.setPath h x).deckOf i = s.deckOf i := (rfl)
@[simp] theorem State.setTally_deckOf (s : State) (h : Nat) (x : TallyS) (i : Nat) : (s.setTally h x).deckOf i = s.deckOf i := (rfl)
@[simp] theorem State.setMatrix_deckOf (s : State) (h : Nat) (x : MatrixS) (i : Nat) : (s.setMatrix h x).deckOf i = s.deckOf i := (rfl)
@[simp] theorem State.setWood_deckOf (s : State) (h : Nat) (x : WoodS) (i : Nat) : (s.setWood h x).deckOf i = s.deckOf i := (rfl)
@[simp] theorem State.setHbm_deckOf (s : State) (h : Nat) (x : HbmS) (i : Nat) : (s.setHbm h x).deckOf i = s.deckOf i := (rfl)
@[simp] theorem State.setHq_deckOf (s : State) (j : Nat) (x : HostQ) (i : Nat) : (s.setHq j x).deckOf i = s.deckOf i := (rfl)
@[simp] theorem State.setRing_deckOf (s : State) (r : Nat) (x : RingS) (i : Nat) : (s.setRing r x).deckOf i = s.deckOf i := (rfl)
@[simp] theorem State.setFrame_deckOf (s : State) (j : Nat) (f : Frame) (i : Nat) : (s.setFrame j f).deckOf i = s.deckOf i := (rfl)
@[simp] theorem State.endFrame_deckOf (s : State) (j : Nat) (i : Nat) : (s.endFrame j).deckOf i = s.deckOf i := (rfl)
@[simp] theorem State.newCopy_deckOf (s : State) (f : Frame) (i : Nat) : (s.newCopy f).deckOf i = s.deckOf i := (rfl)
@[simp] theorem State.emit_deckOf (s : State) (o : Output) (i : Nat) : (s.emit o).deckOf i = s.deckOf i := (rfl)
@[simp] theorem State.drawn_deckOf (s : State) (i : Nat) : (s.drawn).deckOf i = s.deckOf i := (rfl)
@[simp] theorem State.setCruiser_deckOf (s : State) (c : CruiserS) (i : Nat) : (s.setCruiser c).deckOf i = s.deckOf i := (rfl)
@[simp] theorem State.setFire_deckOf (s : State) (f : FireS) (i : Nat) : (s.setFire f).deckOf i = s.deckOf i := (rfl)
@[simp] theorem State.setLook_deckOf (s : State) (lo : LookoutS) (i : Nat) : (s.setLook lo).deckOf i = s.deckOf i := (rfl)
@[simp] theorem State.setRf_deckOf (s : State) (p o lo n v : Nat) (i : Nat) : (s.setRf p o lo n v).deckOf i = s.deckOf i := (rfl)
@[simp] theorem State.setReg64_deckOf (s : State) (p o v : Nat) (i : Nat) : (s.setReg64 p o v).deckOf i = s.deckOf i := (rfl)
@[simp] theorem State.count_deckOf (s : State) (p o n : Nat) (i : Nat) : (s.count p o n).deckOf i = s.deckOf i := (rfl)
@[simp] theorem State.count64_deckOf (s : State) (p o n : Nat) (i : Nat) : (s.count64 p o n).deckOf i = s.deckOf i := (rfl)
@[simp] theorem State.send_deckOf (s : State) (m : Message) (i : Nat) : (s.send m).deckOf i = s.deckOf i := by unfold State.deckOf; rw [State.send_deck]
@[simp] theorem State.raise_deckOf (s : State) (p e : Nat) (i : Nat) : (s.raise p e).deckOf i = s.deckOf i := by unfold State.deckOf; rw [State.raise_deck]
@[simp] theorem State.raiseAll_deckOf (s : State) (p : Nat) (l : List Nat) (info : Word) (i : Nat) : (s.raiseAll p l info).deckOf i = s.deckOf i := by unfold State.deckOf; rw [State.raiseAll_deck]
@[simp] theorem State.raiseIf_deckOf (s : State) (b : Bool) (p e : Nat) (i : Nat) : (s.raiseIf b p e).deckOf i = s.deckOf i := by unfold State.deckOf; rw [State.raiseIf_deck]

/-! ### pathOf -/

@[simp] theorem State.keepQueue_pathOf (s old : State) (i : Nat) : (s.keepQueue old).pathOf i = s.pathOf i := (rfl)
@[simp] theorem State.setReg_pathOf (s : State) (p o : Nat) (v : Word) (i : Nat) : (s.setReg p o v).pathOf i = s.pathOf i := (rfl)
@[simp] theorem State.setSreg_pathOf (s : State) (d : Word) (k : Nat) (v : Word) (i : Nat) : (s.setSreg d k v).pathOf i = s.pathOf i := (rfl)
@[simp] theorem State.setMemW_pathOf (s : State) (p sel a : Nat) (v : Word) (i : Nat) : (s.setMemW p sel a v).pathOf i = s.pathOf i := (rfl)
@[simp] theorem State.setLane_pathOf (s : State) (l : Nat) (x : LaneS) (i : Nat) : (s.setLane l x).pathOf i = s.pathOf i := (rfl)
@[simp] theorem State.setMacro_pathOf (s : State) (m : Nat) (x : MacroS) (i : Nat) : (s.setMacro m x).pathOf i = s.pathOf i := (rfl)
@[simp] theorem State.setPort_pathOf (s : State) (p : Nat) (x : PortS) (i : Nat) : (s.setPort p x).pathOf i = s.pathOf i := (rfl)
@[simp] theorem State.setSpan_pathOf (s : State) (q : Nat) (x : SpanS) (i : Nat) : (s.setSpan q x).pathOf i = s.pathOf i := (rfl)
@[simp] theorem State.setSlice_pathOf (s : State) (k : Nat) (x : SliceS) (i : Nat) : (s.setSlice k x).pathOf i = s.pathOf i := (rfl)
@[simp] theorem State.setSched_pathOf (s : State) (p : Nat) (x : SchedS) (i : Nat) : (s.setSched p x).pathOf i = s.pathOf i := (rfl)
@[simp] theorem State.setQueue_pathOf (s : State) (q : Nat) (x : List Nat) (i : Nat) : (s.setQueue q x).pathOf i = s.pathOf i := (rfl)
@[simp] theorem State.setDeck_pathOf (s : State) (h : Nat) (x : DeckS) (i : Nat) : (s.setDeck h x).pathOf i = s.pathOf i := (rfl)
@[simp] theorem State.setTally_pathOf (s : State) (h : Nat) (x : TallyS) (i : Nat) : (s.setTally h x).pathOf i = s.pathOf i := (rfl)
@[simp] theorem State.setMatrix_pathOf (s : State) (h : Nat) (x : MatrixS) (i : Nat) : (s.setMatrix h x).pathOf i = s.pathOf i := (rfl)
@[simp] theorem State.setWood_pathOf (s : State) (h : Nat) (x : WoodS) (i : Nat) : (s.setWood h x).pathOf i = s.pathOf i := (rfl)
@[simp] theorem State.setHbm_pathOf (s : State) (h : Nat) (x : HbmS) (i : Nat) : (s.setHbm h x).pathOf i = s.pathOf i := (rfl)
@[simp] theorem State.setHq_pathOf (s : State) (j : Nat) (x : HostQ) (i : Nat) : (s.setHq j x).pathOf i = s.pathOf i := (rfl)
@[simp] theorem State.setRing_pathOf (s : State) (r : Nat) (x : RingS) (i : Nat) : (s.setRing r x).pathOf i = s.pathOf i := (rfl)
@[simp] theorem State.setFrame_pathOf (s : State) (j : Nat) (f : Frame) (i : Nat) : (s.setFrame j f).pathOf i = s.pathOf i := (rfl)
@[simp] theorem State.endFrame_pathOf (s : State) (j : Nat) (i : Nat) : (s.endFrame j).pathOf i = s.pathOf i := (rfl)
@[simp] theorem State.newCopy_pathOf (s : State) (f : Frame) (i : Nat) : (s.newCopy f).pathOf i = s.pathOf i := (rfl)
@[simp] theorem State.emit_pathOf (s : State) (o : Output) (i : Nat) : (s.emit o).pathOf i = s.pathOf i := (rfl)
@[simp] theorem State.drawn_pathOf (s : State) (i : Nat) : (s.drawn).pathOf i = s.pathOf i := (rfl)
@[simp] theorem State.setCruiser_pathOf (s : State) (c : CruiserS) (i : Nat) : (s.setCruiser c).pathOf i = s.pathOf i := (rfl)
@[simp] theorem State.setFire_pathOf (s : State) (f : FireS) (i : Nat) : (s.setFire f).pathOf i = s.pathOf i := (rfl)
@[simp] theorem State.setLook_pathOf (s : State) (lo : LookoutS) (i : Nat) : (s.setLook lo).pathOf i = s.pathOf i := (rfl)
@[simp] theorem State.setRf_pathOf (s : State) (p o lo n v : Nat) (i : Nat) : (s.setRf p o lo n v).pathOf i = s.pathOf i := (rfl)
@[simp] theorem State.setReg64_pathOf (s : State) (p o v : Nat) (i : Nat) : (s.setReg64 p o v).pathOf i = s.pathOf i := (rfl)
@[simp] theorem State.count_pathOf (s : State) (p o n : Nat) (i : Nat) : (s.count p o n).pathOf i = s.pathOf i := (rfl)
@[simp] theorem State.count64_pathOf (s : State) (p o n : Nat) (i : Nat) : (s.count64 p o n).pathOf i = s.pathOf i := (rfl)
@[simp] theorem State.send_pathOf (s : State) (m : Message) (i : Nat) : (s.send m).pathOf i = s.pathOf i := by unfold State.pathOf; rw [State.send_path]
@[simp] theorem State.raise_pathOf (s : State) (p e : Nat) (i : Nat) : (s.raise p e).pathOf i = s.pathOf i := by unfold State.pathOf; rw [State.raise_path]
@[simp] theorem State.raiseAll_pathOf (s : State) (p : Nat) (l : List Nat) (info : Word) (i : Nat) : (s.raiseAll p l info).pathOf i = s.pathOf i := by unfold State.pathOf; rw [State.raiseAll_path]
@[simp] theorem State.raiseIf_pathOf (s : State) (b : Bool) (p e : Nat) (i : Nat) : (s.raiseIf b p e).pathOf i = s.pathOf i := by unfold State.pathOf; rw [State.raiseIf_path]

/-! ### tallyOf -/

@[simp] theorem State.keepQueue_tallyOf (s old : State) (i : Nat) : (s.keepQueue old).tallyOf i = s.tallyOf i := (rfl)
@[simp] theorem State.setReg_tallyOf (s : State) (p o : Nat) (v : Word) (i : Nat) : (s.setReg p o v).tallyOf i = s.tallyOf i := (rfl)
@[simp] theorem State.setSreg_tallyOf (s : State) (d : Word) (k : Nat) (v : Word) (i : Nat) : (s.setSreg d k v).tallyOf i = s.tallyOf i := (rfl)
@[simp] theorem State.setMemW_tallyOf (s : State) (p sel a : Nat) (v : Word) (i : Nat) : (s.setMemW p sel a v).tallyOf i = s.tallyOf i := (rfl)
@[simp] theorem State.setLane_tallyOf (s : State) (l : Nat) (x : LaneS) (i : Nat) : (s.setLane l x).tallyOf i = s.tallyOf i := (rfl)
@[simp] theorem State.setMacro_tallyOf (s : State) (m : Nat) (x : MacroS) (i : Nat) : (s.setMacro m x).tallyOf i = s.tallyOf i := (rfl)
@[simp] theorem State.setPort_tallyOf (s : State) (p : Nat) (x : PortS) (i : Nat) : (s.setPort p x).tallyOf i = s.tallyOf i := (rfl)
@[simp] theorem State.setSpan_tallyOf (s : State) (q : Nat) (x : SpanS) (i : Nat) : (s.setSpan q x).tallyOf i = s.tallyOf i := (rfl)
@[simp] theorem State.setSlice_tallyOf (s : State) (k : Nat) (x : SliceS) (i : Nat) : (s.setSlice k x).tallyOf i = s.tallyOf i := (rfl)
@[simp] theorem State.setSched_tallyOf (s : State) (p : Nat) (x : SchedS) (i : Nat) : (s.setSched p x).tallyOf i = s.tallyOf i := (rfl)
@[simp] theorem State.setQueue_tallyOf (s : State) (q : Nat) (x : List Nat) (i : Nat) : (s.setQueue q x).tallyOf i = s.tallyOf i := (rfl)
@[simp] theorem State.setDeck_tallyOf (s : State) (h : Nat) (x : DeckS) (i : Nat) : (s.setDeck h x).tallyOf i = s.tallyOf i := (rfl)
@[simp] theorem State.setPath_tallyOf (s : State) (h : Nat) (x : PathS) (i : Nat) : (s.setPath h x).tallyOf i = s.tallyOf i := (rfl)
@[simp] theorem State.setMatrix_tallyOf (s : State) (h : Nat) (x : MatrixS) (i : Nat) : (s.setMatrix h x).tallyOf i = s.tallyOf i := (rfl)
@[simp] theorem State.setWood_tallyOf (s : State) (h : Nat) (x : WoodS) (i : Nat) : (s.setWood h x).tallyOf i = s.tallyOf i := (rfl)
@[simp] theorem State.setHbm_tallyOf (s : State) (h : Nat) (x : HbmS) (i : Nat) : (s.setHbm h x).tallyOf i = s.tallyOf i := (rfl)
@[simp] theorem State.setHq_tallyOf (s : State) (j : Nat) (x : HostQ) (i : Nat) : (s.setHq j x).tallyOf i = s.tallyOf i := (rfl)
@[simp] theorem State.setRing_tallyOf (s : State) (r : Nat) (x : RingS) (i : Nat) : (s.setRing r x).tallyOf i = s.tallyOf i := (rfl)
@[simp] theorem State.setFrame_tallyOf (s : State) (j : Nat) (f : Frame) (i : Nat) : (s.setFrame j f).tallyOf i = s.tallyOf i := (rfl)
@[simp] theorem State.endFrame_tallyOf (s : State) (j : Nat) (i : Nat) : (s.endFrame j).tallyOf i = s.tallyOf i := (rfl)
@[simp] theorem State.newCopy_tallyOf (s : State) (f : Frame) (i : Nat) : (s.newCopy f).tallyOf i = s.tallyOf i := (rfl)
@[simp] theorem State.emit_tallyOf (s : State) (o : Output) (i : Nat) : (s.emit o).tallyOf i = s.tallyOf i := (rfl)
@[simp] theorem State.drawn_tallyOf (s : State) (i : Nat) : (s.drawn).tallyOf i = s.tallyOf i := (rfl)
@[simp] theorem State.setCruiser_tallyOf (s : State) (c : CruiserS) (i : Nat) : (s.setCruiser c).tallyOf i = s.tallyOf i := (rfl)
@[simp] theorem State.setFire_tallyOf (s : State) (f : FireS) (i : Nat) : (s.setFire f).tallyOf i = s.tallyOf i := (rfl)
@[simp] theorem State.setLook_tallyOf (s : State) (lo : LookoutS) (i : Nat) : (s.setLook lo).tallyOf i = s.tallyOf i := (rfl)
@[simp] theorem State.setRf_tallyOf (s : State) (p o lo n v : Nat) (i : Nat) : (s.setRf p o lo n v).tallyOf i = s.tallyOf i := (rfl)
@[simp] theorem State.setReg64_tallyOf (s : State) (p o v : Nat) (i : Nat) : (s.setReg64 p o v).tallyOf i = s.tallyOf i := (rfl)
@[simp] theorem State.count_tallyOf (s : State) (p o n : Nat) (i : Nat) : (s.count p o n).tallyOf i = s.tallyOf i := (rfl)
@[simp] theorem State.count64_tallyOf (s : State) (p o n : Nat) (i : Nat) : (s.count64 p o n).tallyOf i = s.tallyOf i := (rfl)
@[simp] theorem State.send_tallyOf (s : State) (m : Message) (i : Nat) : (s.send m).tallyOf i = s.tallyOf i := by unfold State.tallyOf; rw [State.send_tally]
@[simp] theorem State.raise_tallyOf (s : State) (p e : Nat) (i : Nat) : (s.raise p e).tallyOf i = s.tallyOf i := by unfold State.tallyOf; rw [State.raise_tally]
@[simp] theorem State.raiseAll_tallyOf (s : State) (p : Nat) (l : List Nat) (info : Word) (i : Nat) : (s.raiseAll p l info).tallyOf i = s.tallyOf i := by unfold State.tallyOf; rw [State.raiseAll_tally]
@[simp] theorem State.raiseIf_tallyOf (s : State) (b : Bool) (p e : Nat) (i : Nat) : (s.raiseIf b p e).tallyOf i = s.tallyOf i := by unfold State.tallyOf; rw [State.raiseIf_tally]

/-! ### matrixOf -/

@[simp] theorem State.keepQueue_matrixOf (s old : State) (i : Nat) : (s.keepQueue old).matrixOf i = s.matrixOf i := (rfl)
@[simp] theorem State.setReg_matrixOf (s : State) (p o : Nat) (v : Word) (i : Nat) : (s.setReg p o v).matrixOf i = s.matrixOf i := (rfl)
@[simp] theorem State.setSreg_matrixOf (s : State) (d : Word) (k : Nat) (v : Word) (i : Nat) : (s.setSreg d k v).matrixOf i = s.matrixOf i := (rfl)
@[simp] theorem State.setMemW_matrixOf (s : State) (p sel a : Nat) (v : Word) (i : Nat) : (s.setMemW p sel a v).matrixOf i = s.matrixOf i := (rfl)
@[simp] theorem State.setLane_matrixOf (s : State) (l : Nat) (x : LaneS) (i : Nat) : (s.setLane l x).matrixOf i = s.matrixOf i := (rfl)
@[simp] theorem State.setMacro_matrixOf (s : State) (m : Nat) (x : MacroS) (i : Nat) : (s.setMacro m x).matrixOf i = s.matrixOf i := (rfl)
@[simp] theorem State.setPort_matrixOf (s : State) (p : Nat) (x : PortS) (i : Nat) : (s.setPort p x).matrixOf i = s.matrixOf i := (rfl)
@[simp] theorem State.setSpan_matrixOf (s : State) (q : Nat) (x : SpanS) (i : Nat) : (s.setSpan q x).matrixOf i = s.matrixOf i := (rfl)
@[simp] theorem State.setSlice_matrixOf (s : State) (k : Nat) (x : SliceS) (i : Nat) : (s.setSlice k x).matrixOf i = s.matrixOf i := (rfl)
@[simp] theorem State.setSched_matrixOf (s : State) (p : Nat) (x : SchedS) (i : Nat) : (s.setSched p x).matrixOf i = s.matrixOf i := (rfl)
@[simp] theorem State.setQueue_matrixOf (s : State) (q : Nat) (x : List Nat) (i : Nat) : (s.setQueue q x).matrixOf i = s.matrixOf i := (rfl)
@[simp] theorem State.setDeck_matrixOf (s : State) (h : Nat) (x : DeckS) (i : Nat) : (s.setDeck h x).matrixOf i = s.matrixOf i := (rfl)
@[simp] theorem State.setPath_matrixOf (s : State) (h : Nat) (x : PathS) (i : Nat) : (s.setPath h x).matrixOf i = s.matrixOf i := (rfl)
@[simp] theorem State.setTally_matrixOf (s : State) (h : Nat) (x : TallyS) (i : Nat) : (s.setTally h x).matrixOf i = s.matrixOf i := (rfl)
@[simp] theorem State.setWood_matrixOf (s : State) (h : Nat) (x : WoodS) (i : Nat) : (s.setWood h x).matrixOf i = s.matrixOf i := (rfl)
@[simp] theorem State.setHbm_matrixOf (s : State) (h : Nat) (x : HbmS) (i : Nat) : (s.setHbm h x).matrixOf i = s.matrixOf i := (rfl)
@[simp] theorem State.setHq_matrixOf (s : State) (j : Nat) (x : HostQ) (i : Nat) : (s.setHq j x).matrixOf i = s.matrixOf i := (rfl)
@[simp] theorem State.setRing_matrixOf (s : State) (r : Nat) (x : RingS) (i : Nat) : (s.setRing r x).matrixOf i = s.matrixOf i := (rfl)
@[simp] theorem State.setFrame_matrixOf (s : State) (j : Nat) (f : Frame) (i : Nat) : (s.setFrame j f).matrixOf i = s.matrixOf i := (rfl)
@[simp] theorem State.endFrame_matrixOf (s : State) (j : Nat) (i : Nat) : (s.endFrame j).matrixOf i = s.matrixOf i := (rfl)
@[simp] theorem State.newCopy_matrixOf (s : State) (f : Frame) (i : Nat) : (s.newCopy f).matrixOf i = s.matrixOf i := (rfl)
@[simp] theorem State.emit_matrixOf (s : State) (o : Output) (i : Nat) : (s.emit o).matrixOf i = s.matrixOf i := (rfl)
@[simp] theorem State.drawn_matrixOf (s : State) (i : Nat) : (s.drawn).matrixOf i = s.matrixOf i := (rfl)
@[simp] theorem State.setCruiser_matrixOf (s : State) (c : CruiserS) (i : Nat) : (s.setCruiser c).matrixOf i = s.matrixOf i := (rfl)
@[simp] theorem State.setFire_matrixOf (s : State) (f : FireS) (i : Nat) : (s.setFire f).matrixOf i = s.matrixOf i := (rfl)
@[simp] theorem State.setLook_matrixOf (s : State) (lo : LookoutS) (i : Nat) : (s.setLook lo).matrixOf i = s.matrixOf i := (rfl)
@[simp] theorem State.setRf_matrixOf (s : State) (p o lo n v : Nat) (i : Nat) : (s.setRf p o lo n v).matrixOf i = s.matrixOf i := (rfl)
@[simp] theorem State.setReg64_matrixOf (s : State) (p o v : Nat) (i : Nat) : (s.setReg64 p o v).matrixOf i = s.matrixOf i := (rfl)
@[simp] theorem State.count_matrixOf (s : State) (p o n : Nat) (i : Nat) : (s.count p o n).matrixOf i = s.matrixOf i := (rfl)
@[simp] theorem State.count64_matrixOf (s : State) (p o n : Nat) (i : Nat) : (s.count64 p o n).matrixOf i = s.matrixOf i := (rfl)
@[simp] theorem State.send_matrixOf (s : State) (m : Message) (i : Nat) : (s.send m).matrixOf i = s.matrixOf i := by unfold State.matrixOf; rw [State.send_matrix]
@[simp] theorem State.raise_matrixOf (s : State) (p e : Nat) (i : Nat) : (s.raise p e).matrixOf i = s.matrixOf i := by unfold State.matrixOf; rw [State.raise_matrix]
@[simp] theorem State.raiseAll_matrixOf (s : State) (p : Nat) (l : List Nat) (info : Word) (i : Nat) : (s.raiseAll p l info).matrixOf i = s.matrixOf i := by unfold State.matrixOf; rw [State.raiseAll_matrix]
@[simp] theorem State.raiseIf_matrixOf (s : State) (b : Bool) (p e : Nat) (i : Nat) : (s.raiseIf b p e).matrixOf i = s.matrixOf i := by unfold State.matrixOf; rw [State.raiseIf_matrix]

/-! ### woodOf -/

@[simp] theorem State.keepQueue_woodOf (s old : State) (i : Nat) : (s.keepQueue old).woodOf i = s.woodOf i := (rfl)
@[simp] theorem State.setReg_woodOf (s : State) (p o : Nat) (v : Word) (i : Nat) : (s.setReg p o v).woodOf i = s.woodOf i := (rfl)
@[simp] theorem State.setSreg_woodOf (s : State) (d : Word) (k : Nat) (v : Word) (i : Nat) : (s.setSreg d k v).woodOf i = s.woodOf i := (rfl)
@[simp] theorem State.setMemW_woodOf (s : State) (p sel a : Nat) (v : Word) (i : Nat) : (s.setMemW p sel a v).woodOf i = s.woodOf i := (rfl)
@[simp] theorem State.setLane_woodOf (s : State) (l : Nat) (x : LaneS) (i : Nat) : (s.setLane l x).woodOf i = s.woodOf i := (rfl)
@[simp] theorem State.setMacro_woodOf (s : State) (m : Nat) (x : MacroS) (i : Nat) : (s.setMacro m x).woodOf i = s.woodOf i := (rfl)
@[simp] theorem State.setPort_woodOf (s : State) (p : Nat) (x : PortS) (i : Nat) : (s.setPort p x).woodOf i = s.woodOf i := (rfl)
@[simp] theorem State.setSpan_woodOf (s : State) (q : Nat) (x : SpanS) (i : Nat) : (s.setSpan q x).woodOf i = s.woodOf i := (rfl)
@[simp] theorem State.setSlice_woodOf (s : State) (k : Nat) (x : SliceS) (i : Nat) : (s.setSlice k x).woodOf i = s.woodOf i := (rfl)
@[simp] theorem State.setSched_woodOf (s : State) (p : Nat) (x : SchedS) (i : Nat) : (s.setSched p x).woodOf i = s.woodOf i := (rfl)
@[simp] theorem State.setQueue_woodOf (s : State) (q : Nat) (x : List Nat) (i : Nat) : (s.setQueue q x).woodOf i = s.woodOf i := (rfl)
@[simp] theorem State.setDeck_woodOf (s : State) (h : Nat) (x : DeckS) (i : Nat) : (s.setDeck h x).woodOf i = s.woodOf i := (rfl)
@[simp] theorem State.setPath_woodOf (s : State) (h : Nat) (x : PathS) (i : Nat) : (s.setPath h x).woodOf i = s.woodOf i := (rfl)
@[simp] theorem State.setTally_woodOf (s : State) (h : Nat) (x : TallyS) (i : Nat) : (s.setTally h x).woodOf i = s.woodOf i := (rfl)
@[simp] theorem State.setMatrix_woodOf (s : State) (h : Nat) (x : MatrixS) (i : Nat) : (s.setMatrix h x).woodOf i = s.woodOf i := (rfl)
@[simp] theorem State.setHbm_woodOf (s : State) (h : Nat) (x : HbmS) (i : Nat) : (s.setHbm h x).woodOf i = s.woodOf i := (rfl)
@[simp] theorem State.setHq_woodOf (s : State) (j : Nat) (x : HostQ) (i : Nat) : (s.setHq j x).woodOf i = s.woodOf i := (rfl)
@[simp] theorem State.setRing_woodOf (s : State) (r : Nat) (x : RingS) (i : Nat) : (s.setRing r x).woodOf i = s.woodOf i := (rfl)
@[simp] theorem State.setFrame_woodOf (s : State) (j : Nat) (f : Frame) (i : Nat) : (s.setFrame j f).woodOf i = s.woodOf i := (rfl)
@[simp] theorem State.endFrame_woodOf (s : State) (j : Nat) (i : Nat) : (s.endFrame j).woodOf i = s.woodOf i := (rfl)
@[simp] theorem State.newCopy_woodOf (s : State) (f : Frame) (i : Nat) : (s.newCopy f).woodOf i = s.woodOf i := (rfl)
@[simp] theorem State.emit_woodOf (s : State) (o : Output) (i : Nat) : (s.emit o).woodOf i = s.woodOf i := (rfl)
@[simp] theorem State.drawn_woodOf (s : State) (i : Nat) : (s.drawn).woodOf i = s.woodOf i := (rfl)
@[simp] theorem State.setCruiser_woodOf (s : State) (c : CruiserS) (i : Nat) : (s.setCruiser c).woodOf i = s.woodOf i := (rfl)
@[simp] theorem State.setFire_woodOf (s : State) (f : FireS) (i : Nat) : (s.setFire f).woodOf i = s.woodOf i := (rfl)
@[simp] theorem State.setLook_woodOf (s : State) (lo : LookoutS) (i : Nat) : (s.setLook lo).woodOf i = s.woodOf i := (rfl)
@[simp] theorem State.setRf_woodOf (s : State) (p o lo n v : Nat) (i : Nat) : (s.setRf p o lo n v).woodOf i = s.woodOf i := (rfl)
@[simp] theorem State.setReg64_woodOf (s : State) (p o v : Nat) (i : Nat) : (s.setReg64 p o v).woodOf i = s.woodOf i := (rfl)
@[simp] theorem State.count_woodOf (s : State) (p o n : Nat) (i : Nat) : (s.count p o n).woodOf i = s.woodOf i := (rfl)
@[simp] theorem State.count64_woodOf (s : State) (p o n : Nat) (i : Nat) : (s.count64 p o n).woodOf i = s.woodOf i := (rfl)
@[simp] theorem State.send_woodOf (s : State) (m : Message) (i : Nat) : (s.send m).woodOf i = s.woodOf i := by unfold State.woodOf; rw [State.send_wood]
@[simp] theorem State.raise_woodOf (s : State) (p e : Nat) (i : Nat) : (s.raise p e).woodOf i = s.woodOf i := by unfold State.woodOf; rw [State.raise_wood]
@[simp] theorem State.raiseAll_woodOf (s : State) (p : Nat) (l : List Nat) (info : Word) (i : Nat) : (s.raiseAll p l info).woodOf i = s.woodOf i := by unfold State.woodOf; rw [State.raiseAll_wood]
@[simp] theorem State.raiseIf_woodOf (s : State) (b : Bool) (p e : Nat) (i : Nat) : (s.raiseIf b p e).woodOf i = s.woodOf i := by unfold State.woodOf; rw [State.raiseIf_wood]

/-! ### hbmOf -/

@[simp] theorem State.keepQueue_hbmOf (s old : State) (i : Nat) : (s.keepQueue old).hbmOf i = s.hbmOf i := (rfl)
@[simp] theorem State.setReg_hbmOf (s : State) (p o : Nat) (v : Word) (i : Nat) : (s.setReg p o v).hbmOf i = s.hbmOf i := (rfl)
@[simp] theorem State.setSreg_hbmOf (s : State) (d : Word) (k : Nat) (v : Word) (i : Nat) : (s.setSreg d k v).hbmOf i = s.hbmOf i := (rfl)
@[simp] theorem State.setMemW_hbmOf (s : State) (p sel a : Nat) (v : Word) (i : Nat) : (s.setMemW p sel a v).hbmOf i = s.hbmOf i := (rfl)
@[simp] theorem State.setLane_hbmOf (s : State) (l : Nat) (x : LaneS) (i : Nat) : (s.setLane l x).hbmOf i = s.hbmOf i := (rfl)
@[simp] theorem State.setMacro_hbmOf (s : State) (m : Nat) (x : MacroS) (i : Nat) : (s.setMacro m x).hbmOf i = s.hbmOf i := (rfl)
@[simp] theorem State.setPort_hbmOf (s : State) (p : Nat) (x : PortS) (i : Nat) : (s.setPort p x).hbmOf i = s.hbmOf i := (rfl)
@[simp] theorem State.setSpan_hbmOf (s : State) (q : Nat) (x : SpanS) (i : Nat) : (s.setSpan q x).hbmOf i = s.hbmOf i := (rfl)
@[simp] theorem State.setSlice_hbmOf (s : State) (k : Nat) (x : SliceS) (i : Nat) : (s.setSlice k x).hbmOf i = s.hbmOf i := (rfl)
@[simp] theorem State.setSched_hbmOf (s : State) (p : Nat) (x : SchedS) (i : Nat) : (s.setSched p x).hbmOf i = s.hbmOf i := (rfl)
@[simp] theorem State.setQueue_hbmOf (s : State) (q : Nat) (x : List Nat) (i : Nat) : (s.setQueue q x).hbmOf i = s.hbmOf i := (rfl)
@[simp] theorem State.setDeck_hbmOf (s : State) (h : Nat) (x : DeckS) (i : Nat) : (s.setDeck h x).hbmOf i = s.hbmOf i := (rfl)
@[simp] theorem State.setPath_hbmOf (s : State) (h : Nat) (x : PathS) (i : Nat) : (s.setPath h x).hbmOf i = s.hbmOf i := (rfl)
@[simp] theorem State.setTally_hbmOf (s : State) (h : Nat) (x : TallyS) (i : Nat) : (s.setTally h x).hbmOf i = s.hbmOf i := (rfl)
@[simp] theorem State.setMatrix_hbmOf (s : State) (h : Nat) (x : MatrixS) (i : Nat) : (s.setMatrix h x).hbmOf i = s.hbmOf i := (rfl)
@[simp] theorem State.setWood_hbmOf (s : State) (h : Nat) (x : WoodS) (i : Nat) : (s.setWood h x).hbmOf i = s.hbmOf i := (rfl)
@[simp] theorem State.setHq_hbmOf (s : State) (j : Nat) (x : HostQ) (i : Nat) : (s.setHq j x).hbmOf i = s.hbmOf i := (rfl)
@[simp] theorem State.setRing_hbmOf (s : State) (r : Nat) (x : RingS) (i : Nat) : (s.setRing r x).hbmOf i = s.hbmOf i := (rfl)
@[simp] theorem State.setFrame_hbmOf (s : State) (j : Nat) (f : Frame) (i : Nat) : (s.setFrame j f).hbmOf i = s.hbmOf i := (rfl)
@[simp] theorem State.endFrame_hbmOf (s : State) (j : Nat) (i : Nat) : (s.endFrame j).hbmOf i = s.hbmOf i := (rfl)
@[simp] theorem State.newCopy_hbmOf (s : State) (f : Frame) (i : Nat) : (s.newCopy f).hbmOf i = s.hbmOf i := (rfl)
@[simp] theorem State.emit_hbmOf (s : State) (o : Output) (i : Nat) : (s.emit o).hbmOf i = s.hbmOf i := (rfl)
@[simp] theorem State.drawn_hbmOf (s : State) (i : Nat) : (s.drawn).hbmOf i = s.hbmOf i := (rfl)
@[simp] theorem State.setCruiser_hbmOf (s : State) (c : CruiserS) (i : Nat) : (s.setCruiser c).hbmOf i = s.hbmOf i := (rfl)
@[simp] theorem State.setFire_hbmOf (s : State) (f : FireS) (i : Nat) : (s.setFire f).hbmOf i = s.hbmOf i := (rfl)
@[simp] theorem State.setLook_hbmOf (s : State) (lo : LookoutS) (i : Nat) : (s.setLook lo).hbmOf i = s.hbmOf i := (rfl)
@[simp] theorem State.setRf_hbmOf (s : State) (p o lo n v : Nat) (i : Nat) : (s.setRf p o lo n v).hbmOf i = s.hbmOf i := (rfl)
@[simp] theorem State.setReg64_hbmOf (s : State) (p o v : Nat) (i : Nat) : (s.setReg64 p o v).hbmOf i = s.hbmOf i := (rfl)
@[simp] theorem State.count_hbmOf (s : State) (p o n : Nat) (i : Nat) : (s.count p o n).hbmOf i = s.hbmOf i := (rfl)
@[simp] theorem State.count64_hbmOf (s : State) (p o n : Nat) (i : Nat) : (s.count64 p o n).hbmOf i = s.hbmOf i := (rfl)
@[simp] theorem State.send_hbmOf (s : State) (m : Message) (i : Nat) : (s.send m).hbmOf i = s.hbmOf i := by unfold State.hbmOf; rw [State.send_hbm]
@[simp] theorem State.raise_hbmOf (s : State) (p e : Nat) (i : Nat) : (s.raise p e).hbmOf i = s.hbmOf i := by unfold State.hbmOf; rw [State.raise_hbm]
@[simp] theorem State.raiseAll_hbmOf (s : State) (p : Nat) (l : List Nat) (info : Word) (i : Nat) : (s.raiseAll p l info).hbmOf i = s.hbmOf i := by unfold State.hbmOf; rw [State.raiseAll_hbm]
@[simp] theorem State.raiseIf_hbmOf (s : State) (b : Bool) (p e : Nat) (i : Nat) : (s.raiseIf b p e).hbmOf i = s.hbmOf i := by unfold State.hbmOf; rw [State.raiseIf_hbm]

/-! ### hq -/

@[simp] theorem State.keepQueue_hq (s old : State) (i : Nat) : (s.keepQueue old).hq i = s.hq i := (rfl)
@[simp] theorem State.setReg_hq (s : State) (p o : Nat) (v : Word) (i : Nat) : (s.setReg p o v).hq i = s.hq i := (rfl)
@[simp] theorem State.setSreg_hq (s : State) (d : Word) (k : Nat) (v : Word) (i : Nat) : (s.setSreg d k v).hq i = s.hq i := (rfl)
@[simp] theorem State.setMemW_hq (s : State) (p sel a : Nat) (v : Word) (i : Nat) : (s.setMemW p sel a v).hq i = s.hq i := (rfl)
@[simp] theorem State.setLane_hq (s : State) (l : Nat) (x : LaneS) (i : Nat) : (s.setLane l x).hq i = s.hq i := (rfl)
@[simp] theorem State.setMacro_hq (s : State) (m : Nat) (x : MacroS) (i : Nat) : (s.setMacro m x).hq i = s.hq i := (rfl)
@[simp] theorem State.setPort_hq (s : State) (p : Nat) (x : PortS) (i : Nat) : (s.setPort p x).hq i = s.hq i := (rfl)
@[simp] theorem State.setSpan_hq (s : State) (q : Nat) (x : SpanS) (i : Nat) : (s.setSpan q x).hq i = s.hq i := (rfl)
@[simp] theorem State.setSlice_hq (s : State) (k : Nat) (x : SliceS) (i : Nat) : (s.setSlice k x).hq i = s.hq i := (rfl)
@[simp] theorem State.setSched_hq (s : State) (p : Nat) (x : SchedS) (i : Nat) : (s.setSched p x).hq i = s.hq i := (rfl)
@[simp] theorem State.setQueue_hq (s : State) (q : Nat) (x : List Nat) (i : Nat) : (s.setQueue q x).hq i = s.hq i := (rfl)
@[simp] theorem State.setDeck_hq (s : State) (h : Nat) (x : DeckS) (i : Nat) : (s.setDeck h x).hq i = s.hq i := (rfl)
@[simp] theorem State.setPath_hq (s : State) (h : Nat) (x : PathS) (i : Nat) : (s.setPath h x).hq i = s.hq i := (rfl)
@[simp] theorem State.setTally_hq (s : State) (h : Nat) (x : TallyS) (i : Nat) : (s.setTally h x).hq i = s.hq i := (rfl)
@[simp] theorem State.setMatrix_hq (s : State) (h : Nat) (x : MatrixS) (i : Nat) : (s.setMatrix h x).hq i = s.hq i := (rfl)
@[simp] theorem State.setWood_hq (s : State) (h : Nat) (x : WoodS) (i : Nat) : (s.setWood h x).hq i = s.hq i := (rfl)
@[simp] theorem State.setHbm_hq (s : State) (h : Nat) (x : HbmS) (i : Nat) : (s.setHbm h x).hq i = s.hq i := (rfl)
@[simp] theorem State.setRing_hq (s : State) (r : Nat) (x : RingS) (i : Nat) : (s.setRing r x).hq i = s.hq i := (rfl)
@[simp] theorem State.setFrame_hq (s : State) (j : Nat) (f : Frame) (i : Nat) : (s.setFrame j f).hq i = s.hq i := (rfl)
@[simp] theorem State.endFrame_hq (s : State) (j : Nat) (i : Nat) : (s.endFrame j).hq i = s.hq i := (rfl)
@[simp] theorem State.newCopy_hq (s : State) (f : Frame) (i : Nat) : (s.newCopy f).hq i = s.hq i := (rfl)
@[simp] theorem State.emit_hq (s : State) (o : Output) (i : Nat) : (s.emit o).hq i = s.hq i := (rfl)
@[simp] theorem State.drawn_hq (s : State) (i : Nat) : (s.drawn).hq i = s.hq i := (rfl)
@[simp] theorem State.setCruiser_hq (s : State) (c : CruiserS) (i : Nat) : (s.setCruiser c).hq i = s.hq i := (rfl)
@[simp] theorem State.setFire_hq (s : State) (f : FireS) (i : Nat) : (s.setFire f).hq i = s.hq i := (rfl)
@[simp] theorem State.setLook_hq (s : State) (lo : LookoutS) (i : Nat) : (s.setLook lo).hq i = s.hq i := (rfl)
@[simp] theorem State.setRf_hq (s : State) (p o lo n v : Nat) (i : Nat) : (s.setRf p o lo n v).hq i = s.hq i := (rfl)
@[simp] theorem State.setReg64_hq (s : State) (p o v : Nat) (i : Nat) : (s.setReg64 p o v).hq i = s.hq i := (rfl)
@[simp] theorem State.count_hq (s : State) (p o n : Nat) (i : Nat) : (s.count p o n).hq i = s.hq i := (rfl)
@[simp] theorem State.count64_hq (s : State) (p o n : Nat) (i : Nat) : (s.count64 p o n).hq i = s.hq i := (rfl)
@[simp] theorem State.send_hq (s : State) (m : Message) (i : Nat) : (s.send m).hq i = s.hq i := by unfold State.hq; rw [State.send_host]
@[simp] theorem State.raise_hq (s : State) (p e : Nat) (i : Nat) : (s.raise p e).hq i = s.hq i := by unfold State.hq; rw [State.raise_host]
@[simp] theorem State.raiseAll_hq (s : State) (p : Nat) (l : List Nat) (info : Word) (i : Nat) : (s.raiseAll p l info).hq i = s.hq i := by unfold State.hq; rw [State.raiseAll_host]
@[simp] theorem State.raiseIf_hq (s : State) (b : Bool) (p e : Nat) (i : Nat) : (s.raiseIf b p e).hq i = s.hq i := by unfold State.hq; rw [State.raiseIf_host]

/-! ### ringRec -/

@[simp] theorem State.keepQueue_ringRec (s old : State) (i : Nat) : (s.keepQueue old).ringRec i = s.ringRec i := (rfl)
@[simp] theorem State.setReg_ringRec (s : State) (p o : Nat) (v : Word) (i : Nat) : (s.setReg p o v).ringRec i = s.ringRec i := (rfl)
@[simp] theorem State.setSreg_ringRec (s : State) (d : Word) (k : Nat) (v : Word) (i : Nat) : (s.setSreg d k v).ringRec i = s.ringRec i := (rfl)
@[simp] theorem State.setMemW_ringRec (s : State) (p sel a : Nat) (v : Word) (i : Nat) : (s.setMemW p sel a v).ringRec i = s.ringRec i := (rfl)
@[simp] theorem State.setLane_ringRec (s : State) (l : Nat) (x : LaneS) (i : Nat) : (s.setLane l x).ringRec i = s.ringRec i := (rfl)
@[simp] theorem State.setMacro_ringRec (s : State) (m : Nat) (x : MacroS) (i : Nat) : (s.setMacro m x).ringRec i = s.ringRec i := (rfl)
@[simp] theorem State.setPort_ringRec (s : State) (p : Nat) (x : PortS) (i : Nat) : (s.setPort p x).ringRec i = s.ringRec i := (rfl)
@[simp] theorem State.setSpan_ringRec (s : State) (q : Nat) (x : SpanS) (i : Nat) : (s.setSpan q x).ringRec i = s.ringRec i := (rfl)
@[simp] theorem State.setSlice_ringRec (s : State) (k : Nat) (x : SliceS) (i : Nat) : (s.setSlice k x).ringRec i = s.ringRec i := (rfl)
@[simp] theorem State.setSched_ringRec (s : State) (p : Nat) (x : SchedS) (i : Nat) : (s.setSched p x).ringRec i = s.ringRec i := (rfl)
@[simp] theorem State.setQueue_ringRec (s : State) (q : Nat) (x : List Nat) (i : Nat) : (s.setQueue q x).ringRec i = s.ringRec i := (rfl)
@[simp] theorem State.setDeck_ringRec (s : State) (h : Nat) (x : DeckS) (i : Nat) : (s.setDeck h x).ringRec i = s.ringRec i := (rfl)
@[simp] theorem State.setPath_ringRec (s : State) (h : Nat) (x : PathS) (i : Nat) : (s.setPath h x).ringRec i = s.ringRec i := (rfl)
@[simp] theorem State.setTally_ringRec (s : State) (h : Nat) (x : TallyS) (i : Nat) : (s.setTally h x).ringRec i = s.ringRec i := (rfl)
@[simp] theorem State.setMatrix_ringRec (s : State) (h : Nat) (x : MatrixS) (i : Nat) : (s.setMatrix h x).ringRec i = s.ringRec i := (rfl)
@[simp] theorem State.setWood_ringRec (s : State) (h : Nat) (x : WoodS) (i : Nat) : (s.setWood h x).ringRec i = s.ringRec i := (rfl)
@[simp] theorem State.setHbm_ringRec (s : State) (h : Nat) (x : HbmS) (i : Nat) : (s.setHbm h x).ringRec i = s.ringRec i := (rfl)
@[simp] theorem State.setHq_ringRec (s : State) (j : Nat) (x : HostQ) (i : Nat) : (s.setHq j x).ringRec i = s.ringRec i := (rfl)
@[simp] theorem State.setFrame_ringRec (s : State) (j : Nat) (f : Frame) (i : Nat) : (s.setFrame j f).ringRec i = s.ringRec i := (rfl)
@[simp] theorem State.endFrame_ringRec (s : State) (j : Nat) (i : Nat) : (s.endFrame j).ringRec i = s.ringRec i := (rfl)
@[simp] theorem State.newCopy_ringRec (s : State) (f : Frame) (i : Nat) : (s.newCopy f).ringRec i = s.ringRec i := (rfl)
@[simp] theorem State.emit_ringRec (s : State) (o : Output) (i : Nat) : (s.emit o).ringRec i = s.ringRec i := (rfl)
@[simp] theorem State.drawn_ringRec (s : State) (i : Nat) : (s.drawn).ringRec i = s.ringRec i := (rfl)
@[simp] theorem State.setCruiser_ringRec (s : State) (c : CruiserS) (i : Nat) : (s.setCruiser c).ringRec i = s.ringRec i := (rfl)
@[simp] theorem State.setFire_ringRec (s : State) (f : FireS) (i : Nat) : (s.setFire f).ringRec i = s.ringRec i := (rfl)
@[simp] theorem State.setLook_ringRec (s : State) (lo : LookoutS) (i : Nat) : (s.setLook lo).ringRec i = s.ringRec i := (rfl)
@[simp] theorem State.setRf_ringRec (s : State) (p o lo n v : Nat) (i : Nat) : (s.setRf p o lo n v).ringRec i = s.ringRec i := (rfl)
@[simp] theorem State.setReg64_ringRec (s : State) (p o v : Nat) (i : Nat) : (s.setReg64 p o v).ringRec i = s.ringRec i := (rfl)
@[simp] theorem State.count_ringRec (s : State) (p o n : Nat) (i : Nat) : (s.count p o n).ringRec i = s.ringRec i := (rfl)
@[simp] theorem State.count64_ringRec (s : State) (p o n : Nat) (i : Nat) : (s.count64 p o n).ringRec i = s.ringRec i := (rfl)
@[simp] theorem State.send_ringRec (s : State) (m : Message) (i : Nat) : (s.send m).ringRec i = s.ringRec i := by unfold State.ringRec; rw [State.send_rings]
@[simp] theorem State.raise_ringRec (s : State) (p e : Nat) (i : Nat) : (s.raise p e).ringRec i = s.ringRec i := by unfold State.ringRec; rw [State.raise_rings]
@[simp] theorem State.raiseAll_ringRec (s : State) (p : Nat) (l : List Nat) (info : Word) (i : Nat) : (s.raiseAll p l info).ringRec i = s.ringRec i := by unfold State.ringRec; rw [State.raiseAll_rings]
@[simp] theorem State.raiseIf_ringRec (s : State) (b : Bool) (p e : Nat) (i : Nat) : (s.raiseIf b p e).ringRec i = s.ringRec i := by unfold State.ringRec; rw [State.raiseIf_rings]

/-! ### frame -/

@[simp] theorem State.keepQueue_frame (s old : State) (i : Nat) : (s.keepQueue old).frame i = s.frame i := (rfl)
@[simp] theorem State.setReg_frame (s : State) (p o : Nat) (v : Word) (i : Nat) : (s.setReg p o v).frame i = s.frame i := (rfl)
@[simp] theorem State.setSreg_frame (s : State) (d : Word) (k : Nat) (v : Word) (i : Nat) : (s.setSreg d k v).frame i = s.frame i := (rfl)
@[simp] theorem State.setMemW_frame (s : State) (p sel a : Nat) (v : Word) (i : Nat) : (s.setMemW p sel a v).frame i = s.frame i := (rfl)
@[simp] theorem State.setLane_frame (s : State) (l : Nat) (x : LaneS) (i : Nat) : (s.setLane l x).frame i = s.frame i := (rfl)
@[simp] theorem State.setMacro_frame (s : State) (m : Nat) (x : MacroS) (i : Nat) : (s.setMacro m x).frame i = s.frame i := (rfl)
@[simp] theorem State.setPort_frame (s : State) (p : Nat) (x : PortS) (i : Nat) : (s.setPort p x).frame i = s.frame i := (rfl)
@[simp] theorem State.setSpan_frame (s : State) (q : Nat) (x : SpanS) (i : Nat) : (s.setSpan q x).frame i = s.frame i := (rfl)
@[simp] theorem State.setSlice_frame (s : State) (k : Nat) (x : SliceS) (i : Nat) : (s.setSlice k x).frame i = s.frame i := (rfl)
@[simp] theorem State.setSched_frame (s : State) (p : Nat) (x : SchedS) (i : Nat) : (s.setSched p x).frame i = s.frame i := (rfl)
@[simp] theorem State.setQueue_frame (s : State) (q : Nat) (x : List Nat) (i : Nat) : (s.setQueue q x).frame i = s.frame i := (rfl)
@[simp] theorem State.setDeck_frame (s : State) (h : Nat) (x : DeckS) (i : Nat) : (s.setDeck h x).frame i = s.frame i := (rfl)
@[simp] theorem State.setPath_frame (s : State) (h : Nat) (x : PathS) (i : Nat) : (s.setPath h x).frame i = s.frame i := (rfl)
@[simp] theorem State.setTally_frame (s : State) (h : Nat) (x : TallyS) (i : Nat) : (s.setTally h x).frame i = s.frame i := (rfl)
@[simp] theorem State.setMatrix_frame (s : State) (h : Nat) (x : MatrixS) (i : Nat) : (s.setMatrix h x).frame i = s.frame i := (rfl)
@[simp] theorem State.setWood_frame (s : State) (h : Nat) (x : WoodS) (i : Nat) : (s.setWood h x).frame i = s.frame i := (rfl)
@[simp] theorem State.setHbm_frame (s : State) (h : Nat) (x : HbmS) (i : Nat) : (s.setHbm h x).frame i = s.frame i := (rfl)
@[simp] theorem State.setHq_frame (s : State) (j : Nat) (x : HostQ) (i : Nat) : (s.setHq j x).frame i = s.frame i := (rfl)
@[simp] theorem State.setRing_frame (s : State) (r : Nat) (x : RingS) (i : Nat) : (s.setRing r x).frame i = s.frame i := (rfl)
@[simp] theorem State.emit_frame (s : State) (o : Output) (i : Nat) : (s.emit o).frame i = s.frame i := (rfl)
@[simp] theorem State.drawn_frame (s : State) (i : Nat) : (s.drawn).frame i = s.frame i := (rfl)
@[simp] theorem State.setCruiser_frame (s : State) (c : CruiserS) (i : Nat) : (s.setCruiser c).frame i = s.frame i := (rfl)
@[simp] theorem State.setFire_frame (s : State) (f : FireS) (i : Nat) : (s.setFire f).frame i = s.frame i := (rfl)
@[simp] theorem State.setLook_frame (s : State) (lo : LookoutS) (i : Nat) : (s.setLook lo).frame i = s.frame i := (rfl)
@[simp] theorem State.setRf_frame (s : State) (p o lo n v : Nat) (i : Nat) : (s.setRf p o lo n v).frame i = s.frame i := (rfl)
@[simp] theorem State.setReg64_frame (s : State) (p o v : Nat) (i : Nat) : (s.setReg64 p o v).frame i = s.frame i := (rfl)
@[simp] theorem State.count_frame (s : State) (p o n : Nat) (i : Nat) : (s.count p o n).frame i = s.frame i := (rfl)
@[simp] theorem State.count64_frame (s : State) (p o n : Nat) (i : Nat) : (s.count64 p o n).frame i = s.frame i := (rfl)
@[simp] theorem State.send_frame (s : State) (m : Message) (i : Nat) : (s.send m).frame i = s.frame i := by unfold State.frame; rw [State.send_frames]
@[simp] theorem State.raise_frame (s : State) (p e : Nat) (i : Nat) : (s.raise p e).frame i = s.frame i := by unfold State.frame; rw [State.raise_frames]
@[simp] theorem State.raiseAll_frame (s : State) (p : Nat) (l : List Nat) (info : Word) (i : Nat) : (s.raiseAll p l info).frame i = s.frame i := by unfold State.frame; rw [State.raiseAll_frames]
@[simp] theorem State.raiseIf_frame (s : State) (b : Bool) (p e : Nat) (i : Nat) : (s.raiseIf b p e).frame i = s.frame i := by unfold State.frame; rw [State.raiseIf_frames]

/-! ### cluster -/

@[simp] theorem State.keepQueue_cluster (s old : State) (i : Nat) : (s.keepQueue old).cluster i = s.cluster i := (rfl)
@[simp] theorem State.setReg_cluster (s : State) (p o : Nat) (v : Word) (i : Nat) : (s.setReg p o v).cluster i = s.cluster i := (rfl)
@[simp] theorem State.setSreg_cluster (s : State) (d : Word) (k : Nat) (v : Word) (i : Nat) : (s.setSreg d k v).cluster i = s.cluster i := (rfl)
@[simp] theorem State.setMemW_cluster (s : State) (p sel a : Nat) (v : Word) (i : Nat) : (s.setMemW p sel a v).cluster i = s.cluster i := (rfl)
@[simp] theorem State.setLane_cluster (s : State) (l : Nat) (x : LaneS) (i : Nat) : (s.setLane l x).cluster i = s.cluster i := (rfl)
@[simp] theorem State.setMacro_cluster (s : State) (m : Nat) (x : MacroS) (i : Nat) : (s.setMacro m x).cluster i = s.cluster i := (rfl)
@[simp] theorem State.setPort_cluster (s : State) (p : Nat) (x : PortS) (i : Nat) : (s.setPort p x).cluster i = s.cluster i := (rfl)
@[simp] theorem State.setSpan_cluster (s : State) (q : Nat) (x : SpanS) (i : Nat) : (s.setSpan q x).cluster i = s.cluster i := (rfl)
@[simp] theorem State.setSlice_cluster (s : State) (k : Nat) (x : SliceS) (i : Nat) : (s.setSlice k x).cluster i = s.cluster i := (rfl)
@[simp] theorem State.setSched_cluster (s : State) (p : Nat) (x : SchedS) (i : Nat) : (s.setSched p x).cluster i = s.cluster i := (rfl)
@[simp] theorem State.setQueue_cluster (s : State) (q : Nat) (x : List Nat) (i : Nat) : (s.setQueue q x).cluster i = s.cluster i := (rfl)
@[simp] theorem State.setDeck_cluster (s : State) (h : Nat) (x : DeckS) (i : Nat) : (s.setDeck h x).cluster i = s.cluster i := (rfl)
@[simp] theorem State.setPath_cluster (s : State) (h : Nat) (x : PathS) (i : Nat) : (s.setPath h x).cluster i = s.cluster i := (rfl)
@[simp] theorem State.setTally_cluster (s : State) (h : Nat) (x : TallyS) (i : Nat) : (s.setTally h x).cluster i = s.cluster i := (rfl)
@[simp] theorem State.setMatrix_cluster (s : State) (h : Nat) (x : MatrixS) (i : Nat) : (s.setMatrix h x).cluster i = s.cluster i := (rfl)
@[simp] theorem State.setWood_cluster (s : State) (h : Nat) (x : WoodS) (i : Nat) : (s.setWood h x).cluster i = s.cluster i := (rfl)
@[simp] theorem State.setHbm_cluster (s : State) (h : Nat) (x : HbmS) (i : Nat) : (s.setHbm h x).cluster i = s.cluster i := (rfl)
@[simp] theorem State.setHq_cluster (s : State) (j : Nat) (x : HostQ) (i : Nat) : (s.setHq j x).cluster i = s.cluster i := (rfl)
@[simp] theorem State.setRing_cluster (s : State) (r : Nat) (x : RingS) (i : Nat) : (s.setRing r x).cluster i = s.cluster i := (rfl)
@[simp] theorem State.setFrame_cluster (s : State) (j : Nat) (f : Frame) (i : Nat) : (s.setFrame j f).cluster i = s.cluster i := (rfl)
@[simp] theorem State.endFrame_cluster (s : State) (j : Nat) (i : Nat) : (s.endFrame j).cluster i = s.cluster i := (rfl)
@[simp] theorem State.newCopy_cluster (s : State) (f : Frame) (i : Nat) : (s.newCopy f).cluster i = s.cluster i := (rfl)
@[simp] theorem State.emit_cluster (s : State) (o : Output) (i : Nat) : (s.emit o).cluster i = s.cluster i := (rfl)
@[simp] theorem State.drawn_cluster (s : State) (i : Nat) : (s.drawn).cluster i = s.cluster i := (rfl)
@[simp] theorem State.setCruiser_cluster (s : State) (c : CruiserS) (i : Nat) : (s.setCruiser c).cluster i = s.cluster i := (rfl)
@[simp] theorem State.setFire_cluster (s : State) (f : FireS) (i : Nat) : (s.setFire f).cluster i = s.cluster i := (rfl)
@[simp] theorem State.setLook_cluster (s : State) (lo : LookoutS) (i : Nat) : (s.setLook lo).cluster i = s.cluster i := (rfl)
@[simp] theorem State.setRf_cluster (s : State) (p o lo n v : Nat) (i : Nat) : (s.setRf p o lo n v).cluster i = s.cluster i := (rfl)
@[simp] theorem State.setReg64_cluster (s : State) (p o v : Nat) (i : Nat) : (s.setReg64 p o v).cluster i = s.cluster i := (rfl)
@[simp] theorem State.count_cluster (s : State) (p o n : Nat) (i : Nat) : (s.count p o n).cluster i = s.cluster i := (rfl)
@[simp] theorem State.count64_cluster (s : State) (p o n : Nat) (i : Nat) : (s.count64 p o n).cluster i = s.cluster i := (rfl)
@[simp] theorem State.send_cluster (s : State) (m : Message) (i : Nat) : (s.send m).cluster i = s.cluster i := by unfold State.cluster; simp
@[simp] theorem State.raise_cluster (s : State) (p e : Nat) (i : Nat) : (s.raise p e).cluster i = s.cluster i := by unfold State.cluster; simp
@[simp] theorem State.raiseAll_cluster (s : State) (p : Nat) (l : List Nat) (info : Word) (i : Nat) : (s.raiseAll p l info).cluster i = s.cluster i := by unfold State.cluster; simp
@[simp] theorem State.raiseIf_cluster (s : State) (b : Bool) (p e : Nat) (i : Nat) : (s.raiseIf b p e).cluster i = s.cluster i := by unfold State.cluster; simp

/-! ### memW -/

@[simp] theorem State.keepQueue_memW (s old : State) (wp ws wa : Nat) : (s.keepQueue old).memW wp ws wa = s.memW wp ws wa := (rfl)
@[simp] theorem State.setReg_memW (s : State) (p o : Nat) (v : Word) (wp ws wa : Nat) : (s.setReg p o v).memW wp ws wa = s.memW wp ws wa := (rfl)
@[simp] theorem State.setSreg_memW (s : State) (d : Word) (k : Nat) (v : Word) (wp ws wa : Nat) : (s.setSreg d k v).memW wp ws wa = s.memW wp ws wa := (rfl)
@[simp] theorem State.setLane_memW (s : State) (l : Nat) (x : LaneS) (wp ws wa : Nat) : (s.setLane l x).memW wp ws wa = s.memW wp ws wa := (rfl)
@[simp] theorem State.setMacro_memW (s : State) (m : Nat) (x : MacroS) (wp ws wa : Nat) : (s.setMacro m x).memW wp ws wa = s.memW wp ws wa := (rfl)
@[simp] theorem State.setPort_memW (s : State) (p : Nat) (x : PortS) (wp ws wa : Nat) : (s.setPort p x).memW wp ws wa = s.memW wp ws wa := (rfl)
@[simp] theorem State.setSpan_memW (s : State) (q : Nat) (x : SpanS) (wp ws wa : Nat) : (s.setSpan q x).memW wp ws wa = s.memW wp ws wa := (rfl)
@[simp] theorem State.setSlice_memW (s : State) (k : Nat) (x : SliceS) (wp ws wa : Nat) : (s.setSlice k x).memW wp ws wa = s.memW wp ws wa := (rfl)
@[simp] theorem State.setSched_memW (s : State) (p : Nat) (x : SchedS) (wp ws wa : Nat) : (s.setSched p x).memW wp ws wa = s.memW wp ws wa := (rfl)
@[simp] theorem State.setQueue_memW (s : State) (q : Nat) (x : List Nat) (wp ws wa : Nat) : (s.setQueue q x).memW wp ws wa = s.memW wp ws wa := (rfl)
@[simp] theorem State.setDeck_memW (s : State) (h : Nat) (x : DeckS) (wp ws wa : Nat) : (s.setDeck h x).memW wp ws wa = s.memW wp ws wa := (rfl)
@[simp] theorem State.setPath_memW (s : State) (h : Nat) (x : PathS) (wp ws wa : Nat) : (s.setPath h x).memW wp ws wa = s.memW wp ws wa := (rfl)
@[simp] theorem State.setTally_memW (s : State) (h : Nat) (x : TallyS) (wp ws wa : Nat) : (s.setTally h x).memW wp ws wa = s.memW wp ws wa := (rfl)
@[simp] theorem State.setMatrix_memW (s : State) (h : Nat) (x : MatrixS) (wp ws wa : Nat) : (s.setMatrix h x).memW wp ws wa = s.memW wp ws wa := (rfl)
@[simp] theorem State.setWood_memW (s : State) (h : Nat) (x : WoodS) (wp ws wa : Nat) : (s.setWood h x).memW wp ws wa = s.memW wp ws wa := (rfl)
@[simp] theorem State.setHbm_memW (s : State) (h : Nat) (x : HbmS) (wp ws wa : Nat) : (s.setHbm h x).memW wp ws wa = s.memW wp ws wa := (rfl)
@[simp] theorem State.setHq_memW (s : State) (j : Nat) (x : HostQ) (wp ws wa : Nat) : (s.setHq j x).memW wp ws wa = s.memW wp ws wa := (rfl)
@[simp] theorem State.setRing_memW (s : State) (r : Nat) (x : RingS) (wp ws wa : Nat) : (s.setRing r x).memW wp ws wa = s.memW wp ws wa := (rfl)
@[simp] theorem State.setFrame_memW (s : State) (j : Nat) (f : Frame) (wp ws wa : Nat) : (s.setFrame j f).memW wp ws wa = s.memW wp ws wa := (rfl)
@[simp] theorem State.endFrame_memW (s : State) (j : Nat) (wp ws wa : Nat) : (s.endFrame j).memW wp ws wa = s.memW wp ws wa := (rfl)
@[simp] theorem State.newCopy_memW (s : State) (f : Frame) (wp ws wa : Nat) : (s.newCopy f).memW wp ws wa = s.memW wp ws wa := (rfl)
@[simp] theorem State.emit_memW (s : State) (o : Output) (wp ws wa : Nat) : (s.emit o).memW wp ws wa = s.memW wp ws wa := (rfl)
@[simp] theorem State.drawn_memW (s : State) (wp ws wa : Nat) : (s.drawn).memW wp ws wa = s.memW wp ws wa := (rfl)
@[simp] theorem State.setCruiser_memW (s : State) (c : CruiserS) (wp ws wa : Nat) : (s.setCruiser c).memW wp ws wa = s.memW wp ws wa := (rfl)
@[simp] theorem State.setFire_memW (s : State) (f : FireS) (wp ws wa : Nat) : (s.setFire f).memW wp ws wa = s.memW wp ws wa := (rfl)
@[simp] theorem State.setLook_memW (s : State) (lo : LookoutS) (wp ws wa : Nat) : (s.setLook lo).memW wp ws wa = s.memW wp ws wa := (rfl)
@[simp] theorem State.setRf_memW (s : State) (p o lo n v : Nat) (wp ws wa : Nat) : (s.setRf p o lo n v).memW wp ws wa = s.memW wp ws wa := (rfl)
@[simp] theorem State.setReg64_memW (s : State) (p o v : Nat) (wp ws wa : Nat) : (s.setReg64 p o v).memW wp ws wa = s.memW wp ws wa := (rfl)
@[simp] theorem State.count_memW (s : State) (p o n : Nat) (wp ws wa : Nat) : (s.count p o n).memW wp ws wa = s.memW wp ws wa := (rfl)
@[simp] theorem State.count64_memW (s : State) (p o n : Nat) (wp ws wa : Nat) : (s.count64 p o n).memW wp ws wa = s.memW wp ws wa := (rfl)
@[simp] theorem State.send_memW (s : State) (m : Message) (wp ws wa : Nat) : (s.send m).memW wp ws wa = s.memW wp ws wa := by unfold State.memW; rw [State.send_mem]
@[simp] theorem State.raise_memW (s : State) (p e : Nat) (wp ws wa : Nat) : (s.raise p e).memW wp ws wa = s.memW wp ws wa := by unfold State.memW; rw [State.raise_mem]
@[simp] theorem State.raiseAll_memW (s : State) (p : Nat) (l : List Nat) (info : Word) (wp ws wa : Nat) : (s.raiseAll p l info).memW wp ws wa = s.memW wp ws wa := by unfold State.memW; rw [State.raiseAll_mem]
@[simp] theorem State.raiseIf_memW (s : State) (b : Bool) (p e : Nat) (wp ws wa : Nat) : (s.raiseIf b p e).memW wp ws wa = s.memW wp ws wa := by unfold State.memW; rw [State.raiseIf_mem]

/-! ### halfUp -/

@[simp] theorem State.keepQueue_halfUp (s old : State) (i : Nat) : (s.keepQueue old).halfUp i = s.halfUp i := (rfl)
@[simp] theorem State.setReg_halfUp (s : State) (p o : Nat) (v : Word) (i : Nat) : (s.setReg p o v).halfUp i = s.halfUp i := (rfl)
@[simp] theorem State.setSreg_halfUp (s : State) (d : Word) (k : Nat) (v : Word) (i : Nat) : (s.setSreg d k v).halfUp i = s.halfUp i := (rfl)
@[simp] theorem State.setMemW_halfUp (s : State) (p sel a : Nat) (v : Word) (i : Nat) : (s.setMemW p sel a v).halfUp i = s.halfUp i := (rfl)
@[simp] theorem State.setLane_halfUp (s : State) (l : Nat) (x : LaneS) (i : Nat) : (s.setLane l x).halfUp i = s.halfUp i := (rfl)
@[simp] theorem State.setMacro_halfUp (s : State) (m : Nat) (x : MacroS) (i : Nat) : (s.setMacro m x).halfUp i = s.halfUp i := (rfl)
@[simp] theorem State.setPort_halfUp (s : State) (p : Nat) (x : PortS) (i : Nat) : (s.setPort p x).halfUp i = s.halfUp i := (rfl)
@[simp] theorem State.setSpan_halfUp (s : State) (q : Nat) (x : SpanS) (i : Nat) : (s.setSpan q x).halfUp i = s.halfUp i := (rfl)
@[simp] theorem State.setSlice_halfUp (s : State) (k : Nat) (x : SliceS) (i : Nat) : (s.setSlice k x).halfUp i = s.halfUp i := (rfl)
@[simp] theorem State.setSched_halfUp (s : State) (p : Nat) (x : SchedS) (i : Nat) : (s.setSched p x).halfUp i = s.halfUp i := (rfl)
@[simp] theorem State.setQueue_halfUp (s : State) (q : Nat) (x : List Nat) (i : Nat) : (s.setQueue q x).halfUp i = s.halfUp i := (rfl)
@[simp] theorem State.setDeck_halfUp (s : State) (h : Nat) (x : DeckS) (i : Nat) : (s.setDeck h x).halfUp i = s.halfUp i := (rfl)
@[simp] theorem State.setPath_halfUp (s : State) (h : Nat) (x : PathS) (i : Nat) : (s.setPath h x).halfUp i = s.halfUp i := (rfl)
@[simp] theorem State.setTally_halfUp (s : State) (h : Nat) (x : TallyS) (i : Nat) : (s.setTally h x).halfUp i = s.halfUp i := (rfl)
@[simp] theorem State.setMatrix_halfUp (s : State) (h : Nat) (x : MatrixS) (i : Nat) : (s.setMatrix h x).halfUp i = s.halfUp i := (rfl)
@[simp] theorem State.setWood_halfUp (s : State) (h : Nat) (x : WoodS) (i : Nat) : (s.setWood h x).halfUp i = s.halfUp i := (rfl)
@[simp] theorem State.setHbm_halfUp (s : State) (h : Nat) (x : HbmS) (i : Nat) : (s.setHbm h x).halfUp i = s.halfUp i := (rfl)
@[simp] theorem State.setHq_halfUp (s : State) (j : Nat) (x : HostQ) (i : Nat) : (s.setHq j x).halfUp i = s.halfUp i := (rfl)
@[simp] theorem State.setRing_halfUp (s : State) (r : Nat) (x : RingS) (i : Nat) : (s.setRing r x).halfUp i = s.halfUp i := (rfl)
@[simp] theorem State.setFrame_halfUp (s : State) (j : Nat) (f : Frame) (i : Nat) : (s.setFrame j f).halfUp i = s.halfUp i := (rfl)
@[simp] theorem State.endFrame_halfUp (s : State) (j : Nat) (i : Nat) : (s.endFrame j).halfUp i = s.halfUp i := (rfl)
@[simp] theorem State.newCopy_halfUp (s : State) (f : Frame) (i : Nat) : (s.newCopy f).halfUp i = s.halfUp i := (rfl)
@[simp] theorem State.emit_halfUp (s : State) (o : Output) (i : Nat) : (s.emit o).halfUp i = s.halfUp i := (rfl)
@[simp] theorem State.drawn_halfUp (s : State) (i : Nat) : (s.drawn).halfUp i = s.halfUp i := (rfl)
@[simp] theorem State.setCruiser_halfUp (s : State) (c : CruiserS) (i : Nat) : (s.setCruiser c).halfUp i = s.halfUp i := (rfl)
@[simp] theorem State.setFire_halfUp (s : State) (f : FireS) (i : Nat) : (s.setFire f).halfUp i = s.halfUp i := (rfl)
@[simp] theorem State.setLook_halfUp (s : State) (lo : LookoutS) (i : Nat) : (s.setLook lo).halfUp i = s.halfUp i := (rfl)
@[simp] theorem State.setRf_halfUp (s : State) (p o lo n v : Nat) (i : Nat) : (s.setRf p o lo n v).halfUp i = s.halfUp i := (rfl)
@[simp] theorem State.setReg64_halfUp (s : State) (p o v : Nat) (i : Nat) : (s.setReg64 p o v).halfUp i = s.halfUp i := (rfl)
@[simp] theorem State.count_halfUp (s : State) (p o n : Nat) (i : Nat) : (s.count p o n).halfUp i = s.halfUp i := (rfl)
@[simp] theorem State.count64_halfUp (s : State) (p o n : Nat) (i : Nat) : (s.count64 p o n).halfUp i = s.halfUp i := (rfl)
@[simp] theorem State.send_halfUp (s : State) (m : Message) (i : Nat) : (s.send m).halfUp i = s.halfUp i := by unfold State.halfUp; simp
@[simp] theorem State.raise_halfUp (s : State) (p e : Nat) (i : Nat) : (s.raise p e).halfUp i = s.halfUp i := by unfold State.halfUp; simp
@[simp] theorem State.raiseAll_halfUp (s : State) (p : Nat) (l : List Nat) (info : Word) (i : Nat) : (s.raiseAll p l info).halfUp i = s.halfUp i := by unfold State.halfUp; simp
@[simp] theorem State.raiseIf_halfUp (s : State) (b : Bool) (p e : Nat) (i : Nat) : (s.raiseIf b p e).halfUp i = s.halfUp i := by unfold State.halfUp; simp

/-! ### sliceUp -/

@[simp] theorem State.keepQueue_sliceUp (s old : State) (i : Nat) : (s.keepQueue old).sliceUp i = s.sliceUp i := (rfl)
@[simp] theorem State.setReg_sliceUp (s : State) (p o : Nat) (v : Word) (i : Nat) : (s.setReg p o v).sliceUp i = s.sliceUp i := (rfl)
@[simp] theorem State.setSreg_sliceUp (s : State) (d : Word) (k : Nat) (v : Word) (i : Nat) : (s.setSreg d k v).sliceUp i = s.sliceUp i := (rfl)
@[simp] theorem State.setMemW_sliceUp (s : State) (p sel a : Nat) (v : Word) (i : Nat) : (s.setMemW p sel a v).sliceUp i = s.sliceUp i := (rfl)
@[simp] theorem State.setLane_sliceUp (s : State) (l : Nat) (x : LaneS) (i : Nat) : (s.setLane l x).sliceUp i = s.sliceUp i := (rfl)
@[simp] theorem State.setMacro_sliceUp (s : State) (m : Nat) (x : MacroS) (i : Nat) : (s.setMacro m x).sliceUp i = s.sliceUp i := (rfl)
@[simp] theorem State.setPort_sliceUp (s : State) (p : Nat) (x : PortS) (i : Nat) : (s.setPort p x).sliceUp i = s.sliceUp i := (rfl)
@[simp] theorem State.setSpan_sliceUp (s : State) (q : Nat) (x : SpanS) (i : Nat) : (s.setSpan q x).sliceUp i = s.sliceUp i := (rfl)
@[simp] theorem State.setSlice_sliceUp (s : State) (k : Nat) (x : SliceS) (i : Nat) : (s.setSlice k x).sliceUp i = s.sliceUp i := (rfl)
@[simp] theorem State.setSched_sliceUp (s : State) (p : Nat) (x : SchedS) (i : Nat) : (s.setSched p x).sliceUp i = s.sliceUp i := (rfl)
@[simp] theorem State.setQueue_sliceUp (s : State) (q : Nat) (x : List Nat) (i : Nat) : (s.setQueue q x).sliceUp i = s.sliceUp i := (rfl)
@[simp] theorem State.setDeck_sliceUp (s : State) (h : Nat) (x : DeckS) (i : Nat) : (s.setDeck h x).sliceUp i = s.sliceUp i := (rfl)
@[simp] theorem State.setPath_sliceUp (s : State) (h : Nat) (x : PathS) (i : Nat) : (s.setPath h x).sliceUp i = s.sliceUp i := (rfl)
@[simp] theorem State.setTally_sliceUp (s : State) (h : Nat) (x : TallyS) (i : Nat) : (s.setTally h x).sliceUp i = s.sliceUp i := (rfl)
@[simp] theorem State.setMatrix_sliceUp (s : State) (h : Nat) (x : MatrixS) (i : Nat) : (s.setMatrix h x).sliceUp i = s.sliceUp i := (rfl)
@[simp] theorem State.setWood_sliceUp (s : State) (h : Nat) (x : WoodS) (i : Nat) : (s.setWood h x).sliceUp i = s.sliceUp i := (rfl)
@[simp] theorem State.setHbm_sliceUp (s : State) (h : Nat) (x : HbmS) (i : Nat) : (s.setHbm h x).sliceUp i = s.sliceUp i := (rfl)
@[simp] theorem State.setHq_sliceUp (s : State) (j : Nat) (x : HostQ) (i : Nat) : (s.setHq j x).sliceUp i = s.sliceUp i := (rfl)
@[simp] theorem State.setRing_sliceUp (s : State) (r : Nat) (x : RingS) (i : Nat) : (s.setRing r x).sliceUp i = s.sliceUp i := (rfl)
@[simp] theorem State.setFrame_sliceUp (s : State) (j : Nat) (f : Frame) (i : Nat) : (s.setFrame j f).sliceUp i = s.sliceUp i := (rfl)
@[simp] theorem State.endFrame_sliceUp (s : State) (j : Nat) (i : Nat) : (s.endFrame j).sliceUp i = s.sliceUp i := (rfl)
@[simp] theorem State.newCopy_sliceUp (s : State) (f : Frame) (i : Nat) : (s.newCopy f).sliceUp i = s.sliceUp i := (rfl)
@[simp] theorem State.emit_sliceUp (s : State) (o : Output) (i : Nat) : (s.emit o).sliceUp i = s.sliceUp i := (rfl)
@[simp] theorem State.drawn_sliceUp (s : State) (i : Nat) : (s.drawn).sliceUp i = s.sliceUp i := (rfl)
@[simp] theorem State.setCruiser_sliceUp (s : State) (c : CruiserS) (i : Nat) : (s.setCruiser c).sliceUp i = s.sliceUp i := (rfl)
@[simp] theorem State.setFire_sliceUp (s : State) (f : FireS) (i : Nat) : (s.setFire f).sliceUp i = s.sliceUp i := (rfl)
@[simp] theorem State.setLook_sliceUp (s : State) (lo : LookoutS) (i : Nat) : (s.setLook lo).sliceUp i = s.sliceUp i := (rfl)
@[simp] theorem State.setRf_sliceUp (s : State) (p o lo n v : Nat) (i : Nat) : (s.setRf p o lo n v).sliceUp i = s.sliceUp i := (rfl)
@[simp] theorem State.setReg64_sliceUp (s : State) (p o v : Nat) (i : Nat) : (s.setReg64 p o v).sliceUp i = s.sliceUp i := (rfl)
@[simp] theorem State.count_sliceUp (s : State) (p o n : Nat) (i : Nat) : (s.count p o n).sliceUp i = s.sliceUp i := (rfl)
@[simp] theorem State.count64_sliceUp (s : State) (p o n : Nat) (i : Nat) : (s.count64 p o n).sliceUp i = s.sliceUp i := (rfl)
@[simp] theorem State.send_sliceUp (s : State) (m : Message) (i : Nat) : (s.send m).sliceUp i = s.sliceUp i := by unfold State.sliceUp; simp
@[simp] theorem State.raise_sliceUp (s : State) (p e : Nat) (i : Nat) : (s.raise p e).sliceUp i = s.sliceUp i := by unfold State.sliceUp; simp
@[simp] theorem State.raiseAll_sliceUp (s : State) (p : Nat) (l : List Nat) (info : Word) (i : Nat) : (s.raiseAll p l info).sliceUp i = s.sliceUp i := by unfold State.sliceUp; simp
@[simp] theorem State.raiseIf_sliceUp (s : State) (b : Bool) (p e : Nat) (i : Nat) : (s.raiseIf b p e).sliceUp i = s.sliceUp i := by unfold State.sliceUp; simp

@[simp] theorem State.keepQueue_reg64 (s old : State) (p o : Nat) : (s.keepQueue old).reg64 p o = s.reg64 p o := (rfl)
@[simp] theorem State.keepQueue_rbit (s old : State) (p o i : Nat) : (s.keepQueue old).rbit p o i = s.rbit p o i := (rfl)
@[simp] theorem State.keepQueue_rf (s old : State) (p o i n : Nat) : (s.keepQueue old).rf p o i n = s.rf p o i n := (rfl)

end Sys2Proof.Machine
end

