-- ==== Sys2Proof/Laws/Bus.lean ====
section
/-! SUPPORT. What a write of a requester does when it reaches its page: performed at once, or posted and then performed
(02_registers.md R50, R58, R59). -/

namespace Sys2Proof.Machine

theorem pageBlk_lt {p : Nat} (h : (pageBlk p).isSome = true) : p < 0x1400 ∧ (p < 0x800 ∨ 0x1000 ≤ p) := by
  unfold pageBlk at h
  split at h
  · omega
  · split at h
    · simp at h
    · split at h
      · omega
      · split at h
        · simp at h
        · split at h
          · omega
          · split at h
            · simp at h
            · split at h
              · omega
              · simp at h

theorem accPage_accessTo {p : Nat} (r : Requester) (o : Nat) (v : Word) (h : (pageBlk p).isSome = true) :
    accPage (accessTo r p o v) = p := by
  have hp := pageBlk_lt h
  have ho : o % 65536 < 65536 := Nat.mod_lt _ (by omega)
  simp only [accPage, accessTo, h, ↓reduceIte]
  have hf : pageFrame p < 0xC00 := by unfold pageFrame; split <;> omega
  have : (pageFrame p * 65536 + o % 65536) % 2 ^ 28 / 65536 = pageFrame p := by omega
  rw [this]
  by_cases h8 : p < 0x800
  · simp [framePage, pageFrame, h8]
  · have : ¬ p - 0x800 < 0x800 := by omega
    simp only [framePage, pageFrame, h8, this, ↓reduceIte]
    omega

theorem accOff_accessTo {o : Nat} (r : Requester) (p : Nat) (v : Word) (h : o < 0x10000) : accOff (accessTo r p o v) = o := by
  simp only [accOff, accessTo]; omega

@[simp] theorem accessTo_value (r : Requester) (p o : Nat) (v : Word) : (accessTo r p o v).value = v := rfl
@[simp] theorem accessTo_req (r : Requester) (p o : Nat) (v : Word) : (accessTo r p o v).req = r := rfl
@[simp] theorem accessTo_bar2 (r : Requester) (p o : Nat) (v : Word) : (accessTo r p o v).bar2 = false := by
  have ho : o % 65536 < 65536 := Nat.mod_lt _ (by omega)
  have hf : (if (pageBlk p).isSome = true then pageFrame p else 0x7FF) < 0xC00 := by
    split
    · next h => have := pageBlk_lt h; unfold pageFrame; split <;> omega
    · omega
  have ha : (accessTo r p o v).addr < 2 ^ 28 := by
    show (if (pageBlk p).isSome = true then pageFrame p else 0x7FF) * 0x10000 + o % 0x10000 < 2 ^ 28
    generalize (if (pageBlk p).isSome = true then pageFrame p else 0x7FF) = f at hf
    omega
  have : ¬ (bar2Base ≤ (accessTo r p o v).addr ∧ (accessTo r p o v).addr < bar2Base + 2 ^ 15) := by
    intro ⟨a, _⟩; exact absurd ha (by unfold bar2Base at a; omega)
  simp only [Access.bar2, this, decide_false, Bool.and_false]

/-- An access to a page that does not exist has a cause. -/
theorem State.frontCause_block {s : State} {w : Bool} {a : Access} (h : s.frontCause w a = none) :
    (pageBlk (accPage a)).isSome = true := by
  unfold State.frontCause at h
  simp only at h
  split at h
  · cases h
  · split at h
    · cases h
    · split at h
      · cases h
      · split at h
        · cases h
        · next hb => cases hx : pageBlk (accPage a) <;> simp_all

theorem accPage_none (r : Requester) (p o : Nat) (v : Word) (h : (pageBlk p).isSome = false) :
    (pageBlk (accPage (accessTo r p o v))).isSome = false := by
  have ho : o % 65536 < 65536 := Nat.mod_lt _ (by omega)
  simp only [accPage, accessTo, h, Bool.false_eq_true, ↓reduceIte]
  have : (0x7FF * 65536 + o % 65536) % 2 ^ 28 / 65536 = 0x7FF := by omega
  rw [this]
  rfl

/-- A write that reaches a page reaches one that exists. -/
theorem State.Reaches.block {s : State} {w : Bool} {r : Requester} {p o : Nat} {v : Word}
    (h : s.Reaches w (accessTo r p o v)) : (pageBlk p).isSome = true := by
  cases hb : (pageBlk p).isSome
  · have := State.frontCause_block h.front
    rw [accPage_none r p o v hb] at this
    cases this
  · rfl

theorem State.frontCause_value (s : State) (r : Requester) (p o : Nat) (v v' : Word) :
    s.frontCause true (accessTo r p o v) = s.frontCause true (accessTo r p o v') := rfl

theorem State.Reaches.value {s : State} {r : Requester} {p o : Nat} {v : Word} (h : s.Reaches true (accessTo r p o v))
    (v' : Word) : s.Reaches true (accessTo r p o v') := ⟨h.1, h.2, h.3, h.4, h.5, h.6⟩

/-- The end of a write under CTRL.STRICT: a fence of its requester starts (R59). -/
def State.strictEnd (s old : State) (r : Requester) : State := if old.rbit pgOrder Reg.orderCtrl 0 then s.startFence r else s

theorem State.regWrite_reach {s : State} {r : Requester} {p o : Nat} (v : Word) (h : s.Reaches true (accessTo r p o 0)) :
    s.regWrite r p o v = (s.takeWrite (accessTo r p o v) (s.carried r)).strictEnd s r := by
  have hr : s.runsOn r = true := h.runs
  have hf : s.fenceRuns r = false := h.free
  simp [State.regWrite, State.issue, State.issueWith, State.access, hr, hf, State.strictEnd, State.onlyIf]

/-- A write that takes effect at once. -/
theorem State.regWrite_now {s : State} {r : Requester} {p o : Nat} (v : Word) (ho : o < 0x10000) (h : s.WritesNow r p o) :
    s.regWrite r p o v = (s.writeAt r p o v).strictEnd s r := by
  have hb := h.reach.block
  have hp := accPage_accessTo r o v hb
  have hx := accOff_accessTo r p v ho
  have hp0 := accPage_accessTo r o 0 hb
  have hx0 := accOff_accessTo r p 0 ho
  have hm : s.writeFenced r p (s.carried r) = false := by have := h.reach.mine rfl; rwa [hp0] at this
  have hrd : 0x40 ≤ o → s.pageReady r p = true := by have := h.reach.ready; rwa [hp0, hx0] at this
  have hfc : s.frontCause true (accessTo r p o v) = none := h.reach.front
  rw [State.regWrite_reach v h.reach]
  congr 1
  simp only [State.takeWrite, accessTo_bar2, Bool.false_eq_true, ↓reduceIte, hfc, hp, hx, h.fast, State.tryWrite, accessTo_req, hm]
  have : ¬ (0x40 ≤ o ∧ isStaging p o = false ∧ s.pageReady r p = false) := by
    intro ⟨a, _, c⟩; rw [hrd a] at c; cases c
  simp only [this, ↓reduceIte, State.performWrite, hp, hx, h.write, h.open_, Bool.false_eq_true, accessTo_req, accessTo_value]

/-- A write that enters the posting buffer of a page, other than of WIN_CMD. -/
theorem State.regWrite_posts {s : State} {r : Requester} {p o : Nat} (v : Word) (ho : o < 0x10000) (hw : o ≠ Reg.winCmd)
    (h : s.Posts r p o) :
    s.regWrite r p o v = ({ s with bus := { s.bus with
        posted := AMap.set none s.bus.posted p (some { req := r, kind := .write o v, ord := s.bus.posts, epoch := s.carried r })
        posts := s.bus.posts + 1 } } : State).strictEnd s r := by
  have hb := h.reach.block
  have hp := accPage_accessTo r o v hb
  have hx := accOff_accessTo r p v ho
  have hp0 := accPage_accessTo r o 0 hb
  have hx0 := accOff_accessTo r p 0 ho
  have hrd : 0x40 ≤ o → s.pageReady r p = true := by have := h.reach.ready; rwa [hp0, hx0] at this
  have hfc : s.frontCause true (accessTo r p o v) = none := h.reach.front
  have hpost : s.postWrite (accessTo r p o v) (s.carried r) = ({ s with bus := { s.bus with
        posted := AMap.set none s.bus.posted p (some { req := r, kind := .write o v, ord := s.bus.posts, epoch := s.carried r })
        posts := s.bus.posts + 1 } } : State) := by
    simp only [State.postWrite, hp, hx, h.free, Bool.false_eq_true, ↓reduceIte, hw, accessTo_req, accessTo_value]
  rw [State.regWrite_reach v h.reach]
  congr 1
  simp only [State.takeWrite, accessTo_bar2, Bool.false_eq_true, ↓reduceIte, hfc, hp, hx, h.slow, Bool.true_eq_false]
  split
  · exact hpost
  · next hne =>
    have h40 : 0x40 ≤ o := by
      have := h.slow
      simp only [postsWrite, Bool.and_eq_true, Bool.or_eq_true, decide_eq_true_eq] at this
      rcases this.2 with h1 | h1
      · exact absurd h1 hne
      · exact h1.1
    simp only [State.tryPost, accessTo_req, hp, hrd h40, Bool.true_eq_false, ↓reduceIte]
    exact hpost

/-- The page is free of reads that wait for its buffer: the fall of WBUSY answers none. -/
theorem State.wbusyFall_alone {s : State} {p : Nat} (h : ∀ x ∈ s.bus.held, x.fenced = true ∨ accPage x.acc ≠ p) :
    s.wbusyFall p = s := by
  have h1 : ∀ x ∈ s.bus.held, (!x.fenced && decide (accPage x.acc = p)) = false := by
    intro x hx
    rcases h x hx with a | a <;> simp [a]
  have e1 : s.bus.held.filter (fun x => !x.fenced && decide (accPage x.acc = p)) = [] := by
    rw [List.filter_eq_nil_iff]; intro x hx; rw [h1 x hx]; simp
  have e2 : s.bus.held.filter (fun x => !(!x.fenced && decide (accPage x.acc = p))) = s.bus.held := by
    rw [List.filter_eq_self]; intro x hx; rw [h1 x hx]; rfl
  simp only [State.wbusyFall, e1, e2, State.takeReads]

/-- A posted write that passes every check is performed, and WBUSY falls. -/
theorem State.posted_write {s : State} {r : Requester} {p o n e : Nat} {v : Word} (ho : o < 0x10000)
    (hp : AMap.get none s.bus.posted p = some ⟨r, .write o v, n, e⟩) (hb : (pageBlk p).isSome = true)
    (hf : s.writeFenced r p e = false) (hr : 0x40 ≤ o → s.pageReady r p = true) (hro : readOnly p o = false)
    (hl : s.lockHits p o = false) :
    s.posted p = (({ s with bus := { s.bus with posted := AMap.set none s.bus.posted p none } } : State).writeAt r p o v).wbusyFall p := by
  have hpg := accPage_accessTo r o v hb
  have hx := accOff_accessTo r p v ho
  have hf' : ({ s with bus := { s.bus with posted := AMap.set none s.bus.posted p none } } : State).writeFenced r p e = false := hf
  have hl' : ({ s with bus := { s.bus with posted := AMap.set none s.bus.posted p none } } : State).lockHits p o = false := hl
  have : ¬ (0x40 ≤ o ∧ isStaging p o = false
      ∧ ({ s with bus := { s.bus with posted := AMap.set none s.bus.posted p none } } : State).pageReady r p = false) := by
    intro ⟨a, _, c⟩
    have c' : s.pageReady r p = false := c
    rw [hr a] at c'; cases c'
  simp only [State.posted, hp, State.tryWrite, accessTo_req, hpg, hx, hf', Bool.false_eq_true, ↓reduceIte, this,
    State.performWrite, hro, hl', accessTo_value]

/-- A fence that starts changes the fences alone. -/
theorem State.startFence_bus (s : State) (r : Requester) :
    ∃ f, s.startFence r = { s with bus := { s.bus with fence := f } } := by
  unfold State.startFence
  split
  · exact ⟨s.bus.fence, rfl⟩
  · exact ⟨_, rfl⟩

theorem State.strictEnd_bus (s old : State) (r : Requester) :
    ∃ f, s.strictEnd old r = { s with bus := { s.bus with fence := f } } := by
  unfold State.strictEnd
  split
  · exact s.startFence_bus r
  · exact ⟨s.bus.fence, rfl⟩

/-- What a posted write leaves: the page's buffer holds it, nothing but the bus has changed, and when it is performed it takes
effect as a write does at once. -/
theorem State.posts_posted {s : State} {r : Requester} {p o : Nat} (v : Word) (ho : o < 0x10000) (hw : o ≠ Reg.winCmd)
    (h : s.Posts r p o) :
    (s.regWrite r p o v).wbusy p = true ∧ (∃ f, s.regWrite r p o v = { s with bus := { s.bus with
        posted := AMap.set none s.bus.posted p (some { req := r, kind := .write o v, ord := s.bus.posts, epoch := s.carried r })
        posts := s.bus.posts + 1
        fence := f } })
    ∧ ∃ b : Bus, b.held = s.bus.held ∧ b.staging = s.bus.staging ∧ AMap.get none b.posted p = none
      ∧ b.sel = s.bus.sel ∧ b.shadow = s.bus.shadow
      ∧ (s.regWrite r p o v).posted p = (({ s with bus := b } : State).writeAt r p o v).wbusyFall p := by
  have hb := h.reach.block
  have hp0 := accPage_accessTo r o 0 hb
  have hx0 := accOff_accessTo r p 0 ho
  have hm : s.writeFenced r p (s.carried r) = false := by have := h.reach.mine rfl; rwa [hp0] at this
  have hrd : 0x40 ≤ o → s.pageReady r p = true := by have := h.reach.ready; rwa [hp0, hx0] at this
  rw [State.regWrite_posts v ho hw h]
  obtain ⟨f, hf⟩ := State.strictEnd_bus ({ s with bus := { s.bus with
        posted := AMap.set none s.bus.posted p (some { req := r, kind := .write o v, ord := s.bus.posts, epoch := s.carried r })
        posts := s.bus.posts + 1 } } : State) s r
  rw [hf]
  refine ⟨?_, ⟨f, rfl⟩, _, ?_, ?_, ?_, ?_, ?_,
    State.posted_write (r := r) (o := o) (v := v) (n := s.bus.posts) (e := s.carried r) ho (by simp) hb hm hrd h.write h.open_⟩
  · simp [State.wbusy]
  all_goals simp

end Sys2Proof.Machine
end

