-- ==== Sys2Proof/Laws/Kept.lean ====
section
/-! SUPPORT. What every function of the state keeps (State.Kept): the invariant, and all that cannot be undone; the cases
in which it changes a part of the state that the invariant speaks of. -/

namespace Sys2Proof.Machine

/-- Dropping entries, and changing values to others that are not the default, keeps the canonical form. -/
theorem AMap.wfFrom_filterMap {β : Type} [DecidableEq β] {d : Nat → β} {f : Nat × β → Option (Nat × β)}
    (hf : ∀ e x, f e = some x → x.1 = e.1 ∧ x.2 ≠ d e.1) {m : AMap β} {a : Nat} (h : AMap.wfFrom d a m = true) :
    AMap.wfFrom d a (m.filterMap f) = true := by
  induction m generalizing a with
  | nil => rfl
  | cons e m ih =>
    simp only [AMap.wfFrom, Bool.and_eq_true, decide_eq_true_eq] at h
    cases hx : f e with
    | none =>
      rw [List.filterMap_cons_none hx]
      exact AMap.wfFrom_mono (Nat.le_succ_of_le h.1.1) (ih h.2)
    | some x =>
      rw [List.filterMap_cons_some hx]
      obtain ⟨h1, h2⟩ := hf e x hx
      simp only [AMap.wfFrom, Bool.and_eq_true, decide_eq_true_eq, h1]
      exact ⟨⟨h.1.1, h2⟩, ih h.2⟩

theorem AMap.wf_filter {β : Type} [DecidableEq β] {d : Nat → β} {m : AMap β} (p : Nat × β → Bool) (h : AMap.wf d m = true) :
    AMap.wf d (m.filter p) = true := by
  suffices H : ∀ a, AMap.wfFrom d a m = true → AMap.wfFrom d a (m.filter p) = true from H 0 h
  clear h
  induction m with
  | nil => intro a h; exact h
  | cons e m ih =>
    intro a h
    simp only [AMap.wfFrom, Bool.and_eq_true, decide_eq_true_eq] at h
    cases hp : p e with
    | false =>
      rw [List.filter_cons_of_neg (by simp [hp])]
      exact AMap.wfFrom_mono (Nat.le_succ_of_le h.1.1) (ih _ h.2)
    | true =>
      rw [List.filter_cons_of_pos hp]
      simp only [AMap.wfFrom, Bool.and_eq_true, decide_eq_true_eq]
      exact ⟨h.1, ih _ h.2⟩

/-- What a reset does to the register file keeps its canonical form. -/
theorem resetRegs_wf {win : Bool} {sel keep : Nat → Bool} {m : AMap Word} (h : AMap.wf regDefault m = true) :
    AMap.wf regDefault (resetRegs win sel keep m) = true := by
  refine AMap.wfFrom_filterMap (fun e x hx => ?_) h
  extract_lets p o v at hx
  clear_value v
  split at hx
  · cases hx
  · next hd => cases hx; exact ⟨rfl, hd⟩

/-- What every function of the state keeps of the state k before it: the invariant, and all that cannot be undone. -/
structure State.Kept (k s : State) : Prop where
  maps : s.canonical
  ring : s.rings.oneCurrent
  next : s.advanceOk
  fuse : k.fuses.le s.fuses
  time : k.clk.up ≤ s.clk.up
  sent : ∃ l, s.out = k.out ++ l

theorem State.Kept.refl {s : State} (h : s.Inv) : s.Kept s :=
  ⟨h.1, h.2, h.3, ⟨Nat.le_refl _, fun _ => Nat.le_refl _, fun _ _ => rfl⟩, Nat.le_refl _, [], by simp⟩

theorem State.Kept.inv {k s : State} (h : k.Kept s) : s.Inv := ⟨h.1, h.2, h.3⟩

theorem State.Kept.after {k s : State} (h : k.Kept s) : k.After s := ⟨h.4, h.5, h.6⟩

theorem State.Kept.mk_same {k : State} {s : State} {x_pending : List Instr} {x_clk : Clock} {x_freeCtr : Nat} {x_selRegs : AMap Word} {x_bus : Bus} {x_flumeUp : Bool} {x_lanes : AMap LaneS} {x_macros : AMap MacroS} {x_ports : AMap PortS} {x_spans : AMap SpanS} {x_frames : AMap (Option Frame)} {x_nextFrame : Nat} {x_slices : AMap SliceS} {x_mcast : AMap (Nat × Nat × Nat)} {x_inflight : AMap Nat} {x_deck : Pair DeckS} {x_path : Pair PathS} {x_queues : AMap (List Nat)} {x_deficit : AMap Int} {x_qbucket : AMap Bucket} {x_sched : AMap SchedS} {x_pfcTx : AMap PfcS} {x_meters : AMap MeterS} {x_late : List LateItem} {x_unsettled : List Unsettled} {x_wood : Pair WoodS} {x_eastq : List EastChange} {x_hitq : List (Nat × List Byte)} {x_matrix : Pair MatrixS} {x_tally : Pair TallyS} {x_hbm : Pair HbmS} {x_host : HostS} {x_cruiser : CruiserS} {x_fire : FireS} {x_raft : RaftS} {x_lookout : LookoutS} {x_forester : ForesterS} {x_mram : MramS} {x_ppsHigh : Option Nat} {x_rst : RstS} (h : k.Kept s)
    (e : x_forester.lcNext = s.forester.lcNext) (e2 : x_clk.up = s.clk.up) : k.Kept (State.mk x_pending x_clk x_freeCtr s.out s.regs x_selRegs s.mem x_bus x_flumeUp x_lanes x_macros x_ports x_spans x_frames x_nextFrame x_slices x_mcast s.rings x_inflight x_deck x_path x_queues x_deficit x_qbucket x_sched x_pfcTx x_meters x_late x_unsettled x_wood x_eastq x_hitq x_matrix x_tally x_hbm x_host x_cruiser x_fire x_raft x_lookout x_forester x_mram s.fuses x_ppsHigh x_rst) :=
  ⟨h.1, h.2, fun x hx => h.3 x (e ▸ hx), h.4, e2 ▸ h.5, h.6⟩

/-- A new register file in canonical form. -/
theorem State.Kept.regs {k s : State} (h : k.Kept s) {m : AMap Word} (hm : AMap.wf regDefault m = true) :
    k.Kept { s with regs := m } := ⟨⟨hm, h.1.2⟩, h.2, h.3, h.4, h.5, h.6⟩

/-- New contents of the window memories in canonical form. -/
theorem State.Kept.mem {k s : State} (h : k.Kept s) {m : AMap Word} (hm : AMap.wf (fun _ => (0 : Word)) m = true) :
    k.Kept { s with mem := m } := ⟨⟨h.1.1, hm⟩, h.2, h.3, h.4, h.5, h.6⟩

/-- A ring system with the same rings and the same current one. -/
theorem State.Kept.rings {k s : State} (h : k.Kept s) {x : RingSys} (hr : x.recs = s.rings.recs) (hc : x.cur = s.rings.cur) :
    k.Kept { s with rings := x } := by
  refine ⟨h.1, fun r => ?_, h.3, h.4, h.5, h.6⟩
  rw [hr, hc]; exact h.2 r

/-- A Forester state whose waiting life-cycle change is a legal one. -/
theorem State.Kept.next_ok {k s : State} (h : k.Kept s) {f : ForesterS}
    (hf : ∀ x, f.lcNext = some x → s.fuses.life < x.1 ∧ x.1 ≤ 3) : k.Kept { s with forester := f } :=
  ⟨h.1, h.2, hf, h.4, h.5, h.6⟩

/-- Fuses that have moved forward only, the life cycle as it was. -/
theorem State.Kept.fuses {k s : State} (h : k.Kept s) {x : FuseS} (hx : s.fuses.le x) (hl : x.life = s.fuses.life) :
    k.Kept { s with fuses := x } := by
  refine ⟨h.1, h.2, fun y hy => hl ▸ h.3 y hy, ⟨Nat.le_trans h.4.1 hx.1, fun t => Nat.le_trans (h.4.2.1 t) (hx.2.1 t), fun n hn => ?_⟩, h.5, h.6⟩
  rw [hx.2.2 n (by rw [h.4.2.2 n hn]; exact hn), h.4.2.2 n hn]

/-- A record of a ring that is CURRENT exactly when the ring's record was. -/
theorem State.setRing_kept {k : State} (s : State) (r : Nat) (x : RingS) (hs : k.Kept s)
    (hx : x.st = .current ↔ (s.ringRec r).st = .current) : k.Kept (s.setRing r x) := by
  refine ⟨hs.1, fun q => ?_, hs.3, hs.4, hs.5, hs.6⟩
  refine Iff.trans ?_ (hs.2 q)
  by_cases h : q.val = r
  · subst h; simp only [State.setRing, AMap.get_set_same]; exact hx
  · simp only [State.setRing]; rw [AMap.get_set_ne _ _ _ _ h]

/-- A commit: the ring that was CURRENT is so no longer, and ring n is. -/
theorem State.Kept.turn {k s : State} (h : k.Kept s) {n : Ring} {x y : RingS} {z : RingSys} (hn : n ≠ s.rings.cur)
    (hx : x.st ≠ .current) (hy : y.st = .current)
    (hz : z.recs = AMap.set {} (AMap.set {} s.rings.recs s.rings.cur.val x) n.val y) (hc : z.cur = n) :
    k.Kept { s with rings := z } := by
  refine ⟨h.1, fun r => ?_, h.3, h.4, h.5, h.6⟩
  simp only [hz, hc]
  by_cases h1 : r = n
  · subst h1; simp [hy]
  · have h1' : r.val ≠ n.val := fun e => h1 (Fin.ext e)
    rw [AMap.get_set_ne _ _ _ _ h1']
    by_cases h2 : r = s.rings.cur
    · subst h2; simp [hx, Ne.symm hn]
    · have h2' : r.val ≠ s.rings.cur.val := fun e => h2 (Fin.ext e)
      rw [AMap.get_set_ne _ _ _ _ h2']
      simp only [h1, iff_false]; exact fun e => h2 ((h.2 r).1 e)

theorem State.Kept.foldl {α : Type} {k : State} {f : State → α → State} (hf : ∀ t a, k.Kept t → k.Kept (f t a)) (l : List α)
    {s : State} (hs : k.Kept s) : k.Kept (l.foldl f s) := by
  induction l generalizing s with
  | nil => exact hs
  | cons a l ih => exact ih (hf _ _ hs)

theorem State.mapRing_rings (s : State) (r : Nat) (l : List Nat) : (s.mapRing r l).rings = s.rings := by
  induction l generalizing s with
  | nil => rfl
  | cons a l ih => exact ih _

/-- A ring is not the one after it. -/
theorem Ring.succ_ne (r : Ring) : r + 1 ≠ r := by revert r; decide

theorem State.reset_ring : State.reset.rings.oneCurrent := by
  intro r; revert r; decide

/-- Records changed in other ways than their states. -/
theorem AMap.get_map_st {f : Nat × RingS → RingS} (hf : ∀ e, (f e).st = e.2.st) (m : AMap RingS) (r : Nat) :
    (AMap.get ({} : RingS) (m.map (fun e => (e.1, f e))) r).st = (AMap.get ({} : RingS) m r).st := by
  induction m with
  | nil => rfl
  | cons e m ih =>
    simp only [List.map_cons, AMap.get]
    split
    · exact hf e
    · exact ih

/-- A reset that keeps the fuses, the time and what was sent. -/
theorem State.Kept.fresh {k s t : State} (h : k.Kept s) (h1 : t.regs = []) (h2 : t.mem = [])
    (h3 : t.rings = State.reset.rings) (h4 : t.forester.lcNext = none) (h5 : t.fuses = s.fuses) (h6 : t.clk.up = s.clk.up)
    (h7 : t.out = s.out) : k.Kept t := by
  refine ⟨⟨by rw [h1]; rfl, by rw [h2]; rfl⟩, by rw [h3]; exact State.reset_ring, fun x hx => ?_, by rw [h5]; exact h.4,
    by rw [h6]; exact h.5, by rw [h7]; exact h.6⟩
  rw [h4] at hx; cases hx

/-- A meaning keeps what its function of the state keeps; the queue of commands is not part of it. -/
theorem State.run_kept {k s t : State} {f : State → State} (hf : ∀ s, k.Kept s → k.Kept (f s)) (hs : k.Kept s)
    (ht : s.run f = .next t) : k.Kept t := by
  have h : k.Kept (if s.live then f s else s) := by
    split
    · exact hf _ hs
    · exact hs
  cases ht
  exact ⟨h.1, h.2, h.3, h.4, h.5, h.6⟩

theorem State.runAlways_kept {k s t : State} {f : State → State} (hf : ∀ s, k.Kept s → k.Kept (f s)) (hs : k.Kept s)
    (ht : s.runAlways f = .next t) : k.Kept t := by
  have h := hf _ hs
  cases ht
  exact ⟨h.1, h.2, h.3, h.4, h.5, h.6⟩

end Sys2Proof.Machine
end

