-- ==== Sys2Proof/Laws/KeptShared.lean ====
section
/-! SUPPORT. State.Kept, one lemma for each function of the state: the shared operations, the data path, the rings, the table and Kerf operations and time. -/

namespace Sys2Proof.Machine

/-! ### Ops -/

theorem State.setMemW_kept {k : State} (s : State) (p : Nat) (sel : Nat) (a : Nat) (v : Word) (hs : k.Kept s) :
  k.Kept (State.setMemW s p sel a v) :=
  ⟨⟨hs.1.1, AMap.wf_set _ _ hs.1.2⟩, hs.2, hs.3, hs.4, hs.5, hs.6⟩

theorem State.setReg_kept {k : State} (s : State) (p : Nat) (o : Nat) (v : Word) (hs : k.Kept s) : k.Kept
  (State.setReg s p o v) :=
  ⟨⟨AMap.wf_set _ _ hs.1.1, hs.1.2⟩, hs.2, hs.3, hs.4, hs.5, hs.6⟩

theorem State.count_kept {k : State} (s : State) (p : Nat) (o : Nat) (n : Nat) (hs : k.Kept s) : k.Kept (State.count
  s p o n) := by
  unfold State.count
  try dsimp only
  with_reducible repeat' first
    | assumption | apply State.setReg_kept | intro _ _ | split | dsimp only

theorem State.missRise_kept {k : State} (s : State) (n : Nat) (hs : k.Kept s) : k.Kept (State.missRise s n) := by
  unfold State.missRise
  try dsimp only
  with_reducible repeat' first
    | assumption | intro _ _ | split | dsimp only | refine State.Kept.mk_same ?_ (by rfl) (by rfl)

theorem State.enqueueMsg_kept {k : State} {s : State} {m : Message} {rr : State} (ht : State.enqueueMsg s m = some
  rr) (hs : k.Kept s) : k.Kept rr := by
  unfold State.enqueueMsg at ht
  dsimp only at ht
  repeat' (split at ht)
  all_goals (first | contradiction | skip)
  all_goals (try (cases ht))
  all_goals
    with_reducible repeat' first
      | assumption | intro _ _ | split | dsimp only | refine State.Kept.mk_same ?_ (by rfl) (by rfl)

theorem State.msgLost_kept {k : State} (s : State) (hs : k.Kept s) : k.Kept (State.msgLost s) := by
  unfold State.msgLost
  try dsimp only
  with_reducible repeat' first
    | assumption | apply State.missRise_kept | refine State.enqueueMsg_kept (by assumption) ?_ | apply State.setReg_kept
    | apply State.count_kept | intro _ _ | split | dsimp only | refine State.Kept.mk_same ?_ (by rfl) (by rfl)

theorem State.sendOn_kept {k : State} (s : State) (m : Message) (rose : Bool) (hs : k.Kept s) : k.Kept (State.sendOn
  s m rose) := by
  unfold State.sendOn
  try dsimp only
  with_reducible repeat' first
    | assumption | apply State.missRise_kept | apply State.msgLost_kept | refine State.enqueueMsg_kept (by assumption) ?_
    | intro _ _ | split | dsimp only | refine State.Kept.mk_same ?_ (by rfl) (by rfl)

theorem State.sendRises_kept {k : State} (s : State) (p : Nat) (old : Word) (info : Word) (x4 : List Nat) (hs :
  k.Kept s) : k.Kept (State.sendRises s p old info x4) := by
  induction x4 generalizing s p old info with
  | nil =>
    unfold State.sendRises
    try dsimp only
    with_reducible repeat' first
      | assumption | apply State.sendOn_kept | intro _ _ | split | dsimp only
  | cons a l ih =>
    unfold State.sendRises
    try dsimp only
    with_reducible repeat' first
      | assumption | apply ih | apply State.sendOn_kept | intro _ _ | split | dsimp only

theorem State.raiseAll_kept {k : State} (s : State) (p : Nat) (bits : List Nat) (info : Word) (hs : k.Kept s) :
  k.Kept (State.raiseAll s p bits info) := by
  unfold State.raiseAll
  try dsimp only
  with_reducible repeat' first
    | assumption | apply State.sendRises_kept | apply State.setReg_kept | intro _ _ | split | dsimp only

theorem State.raise_kept {k : State} (s : State) (p : Nat) (i : Nat) (hs : k.Kept s) : k.Kept (State.raise s p i) := by
  unfold State.raise
  try dsimp only
  with_reducible repeat' first
    | assumption | apply State.raiseAll_kept | intro _ _ | split | dsimp only

theorem State.setDeck_kept {k : State} (s : State) (x1 : Nat) (x : DeckS) (hs : k.Kept s) : k.Kept (State.setDeck s
  x1 x) := by
  unfold State.setDeck
  try dsimp only
  with_reducible repeat' first
    | assumption | intro _ _ | split | dsimp only | refine State.Kept.mk_same ?_ (by rfl) (by rfl)

theorem State.onlyIf_kept {k : State} (s : State) (b : Bool) (f : State → State) (hs : k.Kept s) (hf : ∀ s, k.Kept s
  → k.Kept (f s)) : k.Kept (State.onlyIf s b f) := by
  unfold State.onlyIf
  try dsimp only
  with_reducible repeat' first
    | assumption | apply hf | intro _ _ | split | dsimp only

theorem State.setRf_kept {k : State} (s : State) (p : Nat) (o : Nat) (lo : Nat) (n : Nat) (x : Nat) (hs : k.Kept s) :
  k.Kept (State.setRf s p o lo n x) := by
  unfold State.setRf
  try dsimp only
  with_reducible repeat' first
    | assumption | apply State.setReg_kept | intro _ _ | split | dsimp only

theorem State.raiseIf_kept {k : State} (s : State) (b : Bool) (p : Nat) (i : Nat) (hs : k.Kept s) : k.Kept
  (State.raiseIf s b p i) := by
  unfold State.raiseIf
  try dsimp only
  with_reducible repeat' first
    | assumption | apply State.raise_kept | intro _ _ | split | dsimp only

theorem State.drawn_kept {k : State} (s : State) (hs : k.Kept s) : k.Kept (State.drawn s) := by
  unfold State.drawn
  try dsimp only
  with_reducible repeat' first
    | assumption | intro _ _ | split | dsimp only | refine State.Kept.mk_same ?_ (by rfl) (by rfl)

theorem State.setSpan_kept {k : State} (s : State) (q : Nat) (x : SpanS) (hs : k.Kept s) : k.Kept (State.setSpan s q
  x) := by
  unfold State.setSpan
  try dsimp only
  with_reducible repeat' first
    | assumption | intro _ _ | split | dsimp only | refine State.Kept.mk_same ?_ (by rfl) (by rfl)

theorem State.setMatrix_kept {k : State} (s : State) (x1 : Nat) (x : MatrixS) (hs : k.Kept s) : k.Kept
  (State.setMatrix s x1 x) := by
  unfold State.setMatrix
  try dsimp only
  with_reducible repeat' first
    | assumption | intro _ _ | split | dsimp only | refine State.Kept.mk_same ?_ (by rfl) (by rfl)

theorem State.setReg64_kept {k : State} (s : State) (p : Nat) (o : Nat) (x : Nat) (hs : k.Kept s) : k.Kept
  (State.setReg64 s p o x) := by
  unfold State.setReg64
  try dsimp only
  with_reducible repeat' first
    | assumption | apply State.setReg_kept | intro _ _ | split | dsimp only

theorem State.count64_kept {k : State} (s : State) (p : Nat) (o : Nat) (n : Nat) (hs : k.Kept s) : k.Kept
  (State.count64 s p o n) := by
  unfold State.count64
  try dsimp only
  with_reducible repeat' first
    | assumption | apply State.setReg64_kept | intro _ _ | split | dsimp only

theorem State.setMemWs_kept {k : State} (s : State) (p : Nat) (sel : Nat) (x3 : Nat) (x4 : List Word) (hs : k.Kept s)
  : k.Kept (State.setMemWs s p sel x3 x4) := by
  induction x4 generalizing s p sel x3 with
  | nil =>
    unfold State.setMemWs
    try dsimp only
    with_reducible repeat' first
      | assumption | apply State.setMemW_kept | intro _ _ | split | dsimp only
  | cons a l ih =>
    unfold State.setMemWs
    try dsimp only
    with_reducible repeat' first
      | assumption | apply ih | apply State.setMemW_kept | intro _ _ | split | dsimp only

theorem State.setTally_kept {k : State} (s : State) (x1 : Nat) (x : TallyS) (hs : k.Kept s) : k.Kept (State.setTally
  s x1 x) := by
  unfold State.setTally
  try dsimp only
  with_reducible repeat' first
    | assumption | intro _ _ | split | dsimp only | refine State.Kept.mk_same ?_ (by rfl) (by rfl)

theorem State.setPort_kept {k : State} (s : State) (p : Nat) (x : PortS) (hs : k.Kept s) : k.Kept (State.setPort s p
  x) := by
  unfold State.setPort
  try dsimp only
  with_reducible repeat' first
    | assumption | intro _ _ | split | dsimp only | refine State.Kept.mk_same ?_ (by rfl) (by rfl)

theorem State.setHq_kept {k : State} (s : State) (i : Nat) (x : HostQ) (hs : k.Kept s) : k.Kept (State.setHq s i x)
  := by
  unfold State.setHq
  try dsimp only
  with_reducible repeat' first
    | assumption | intro _ _ | split | dsimp only | refine State.Kept.mk_same ?_ (by rfl) (by rfl)

theorem State.setWood_kept {k : State} (s : State) (x1 : Nat) (x : WoodS) (hs : k.Kept s) : k.Kept (State.setWood s
  x1 x) := by
  unfold State.setWood
  try dsimp only
  with_reducible repeat' first
    | assumption | intro _ _ | split | dsimp only | refine State.Kept.mk_same ?_ (by rfl) (by rfl)

theorem State.emit_kept {k : State} (s : State) (o : Output) (hs : k.Kept s) : k.Kept (State.emit s o) := by
  obtain ⟨l, hl⟩ := hs.6
  exact ⟨hs.1, hs.2, hs.3, hs.4, hs.5, l ++ [o], by rw [State.emit, hl, List.append_assoc]⟩

theorem State.setLane_kept {k : State} (s : State) (l : Nat) (x : LaneS) (hs : k.Kept s) : k.Kept (State.setLane s l
  x) := by
  unfold State.setLane
  try dsimp only
  with_reducible repeat' first
    | assumption | intro _ _ | split | dsimp only | refine State.Kept.mk_same ?_ (by rfl) (by rfl)

theorem State.setSlice_kept {k : State} (s : State) (x1 : Nat) (x : SliceS) (hs : k.Kept s) : k.Kept (State.setSlice
  s x1 x) := by
  unfold State.setSlice
  try dsimp only
  with_reducible repeat' first
    | assumption | intro _ _ | split | dsimp only | refine State.Kept.mk_same ?_ (by rfl) (by rfl)

theorem State.send_kept {k : State} (s : State) (m : Message) (hs : k.Kept s) : k.Kept (State.send s m) := by
  unfold State.send
  try dsimp only
  with_reducible repeat' first
    | assumption | apply State.sendOn_kept | intro _ _ | split | dsimp only

theorem State.latchFirst_kept {k : State} (s : State) (p : Nat) (evtBit : Nat) (o : Nat) (v : Word) (hs : k.Kept s) :
  k.Kept (State.latchFirst s p evtBit o v) := by
  unfold State.latchFirst
  try dsimp only
  with_reducible repeat' first
    | assumption | apply State.setReg_kept | intro _ _ | split | dsimp only

theorem State.sourceMsg_kept {k : State} (s : State) (n : Nat) (code : Nat) (typ : MsgType) (kind : Nat) (info :
  Word) (hs : k.Kept s) : k.Kept (State.sourceMsg s n code typ kind info) := by
  unfold State.sourceMsg
  try dsimp only
  with_reducible repeat' first
    | assumption | apply State.sendOn_kept | intro _ _ | split | dsimp only
    | refine State.Kept.mk_same ?_ (by rfl) (by rfl)

theorem State.setSched_kept {k : State} (s : State) (p : Nat) (x : SchedS) (hs : k.Kept s) : k.Kept (State.setSched s
  p x) := by
  unfold State.setSched
  try dsimp only
  with_reducible repeat' first
    | assumption | intro _ _ | split | dsimp only | refine State.Kept.mk_same ?_ (by rfl) (by rfl)

theorem State.setMacro_kept {k : State} (s : State) (m : Nat) (x : MacroS) (hs : k.Kept s) : k.Kept (State.setMacro s
  m x) := by
  unfold State.setMacro
  try dsimp only
  with_reducible repeat' first
    | assumption | intro _ _ | split | dsimp only | refine State.Kept.mk_same ?_ (by rfl) (by rfl)

theorem State.setQueue_kept {k : State} (s : State) (q : Nat) (x : List Nat) (hs : k.Kept s) : k.Kept (State.setQueue
  s q x) := by
  unfold State.setQueue
  try dsimp only
  with_reducible repeat' first
    | assumption | intro _ _ | split | dsimp only | refine State.Kept.mk_same ?_ (by rfl) (by rfl)

theorem State.setFrame_kept {k : State} (s : State) (i : Nat) (f : Frame) (hs : k.Kept s) : k.Kept (State.setFrame s
  i f) := by
  unfold State.setFrame
  try dsimp only
  with_reducible repeat' first
    | assumption | intro _ _ | split | dsimp only | refine State.Kept.mk_same ?_ (by rfl) (by rfl)

theorem State.endFrame_kept {k : State} (s : State) (i : Nat) (hs : k.Kept s) : k.Kept (State.endFrame s i) := by
  unfold State.endFrame
  try dsimp only
  with_reducible repeat' first
    | assumption | intro _ _ | split | dsimp only | refine State.Kept.mk_same ?_ (by rfl) (by rfl)

theorem State.setHbm_kept {k : State} (s : State) (x1 : Nat) (x : HbmS) (hs : k.Kept s) : k.Kept (State.setHbm s x1
  x) := by
  unfold State.setHbm
  try dsimp only
  with_reducible repeat' first
    | assumption | intro _ _ | split | dsimp only | refine State.Kept.mk_same ?_ (by rfl) (by rfl)

theorem State.setPath_kept {k : State} (s : State) (x1 : Nat) (x : PathS) (hs : k.Kept s) : k.Kept (State.setPath s
  x1 x) := by
  unfold State.setPath
  try dsimp only
  with_reducible repeat' first
    | assumption | intro _ _ | split | dsimp only | refine State.Kept.mk_same ?_ (by rfl) (by rfl)

theorem State.setSreg_kept {k : State} (s : State) (d : Word) (x2 : Nat) (v : Word) (hs : k.Kept s) : k.Kept
  (State.setSreg s d x2 v) := by
  unfold State.setSreg
  try dsimp only
  with_reducible repeat' first
    | assumption | intro _ _ | split | dsimp only | refine State.Kept.mk_same ?_ (by rfl) (by rfl)

theorem State.newCopy_kept {k : State} (s : State) (f : Frame) (hs : k.Kept s) : k.Kept (State.newCopy s f) := by
  unfold State.newCopy
  try dsimp only
  with_reducible repeat' first
    | assumption | intro _ _ | split | dsimp only | refine State.Kept.mk_same ?_ (by rfl) (by rfl)

theorem State.newFrame_kept {k : State} (s : State) (f : Frame) (hs : k.Kept s) : k.Kept (State.newFrame s f) := by
  unfold State.newFrame
  try dsimp only
  with_reducible repeat' first
    | assumption | apply State.newCopy_kept | intro _ _ | split | dsimp only
    | refine State.Kept.mk_same ?_ (by rfl) (by rfl)

theorem State.setEvtRegs_kept {k : State} (s : State) (p : Nat) (evt : Word) (en : Word) (hs : k.Kept s) : k.Kept
  (State.setEvtRegs s p evt en) := by
  unfold State.setEvtRegs
  try dsimp only
  with_reducible repeat' first
    | assumption | apply State.missRise_kept | apply State.send_kept | apply State.setReg_kept | intro _ _ | split
    | dsimp only | refine State.Kept.mk_same ?_ (by rfl) (by rfl)

theorem State.mapFrames_kept {k : State} (s : State) (p : Frame → Bool) (g : Frame → Frame) (hs : k.Kept s) : k.Kept
  (State.mapFrames s p g) := by
  unfold State.mapFrames
  try dsimp only
  with_reducible repeat' first
    | assumption | intro _ _ | split | dsimp only | refine State.Kept.mk_same ?_ (by rfl) (by rfl)

/-! ### RegOps -/

theorem State.store_kept {k : State} (s : State) (p : Nat) (o : Nat) (v : Word) (hs : k.Kept s) : k.Kept (State.store
  s p o v) := by
  unfold State.store
  try dsimp only
  with_reducible repeat' first
    | assumption | apply State.setReg_kept | intro _ _ | split | dsimp only

/-! ### BusOps -/

theorem State.setCluster_kept {k : State} (s : State) (c : Nat) (x : ClusterS) (hs : k.Kept s) : k.Kept
  (State.setCluster s c x) := by
  unfold State.setCluster
  try dsimp only
  with_reducible repeat' first
    | assumption | intro _ _ | split | dsimp only | refine State.Kept.mk_same ?_ (by rfl) (by rfl)

theorem State.busError_kept {k : State} (s : State) (a : Access) (write : Bool) (kind : Nat) (hs : k.Kept s) : k.Kept
  (State.busError s a write kind) := by
  unfold State.busError
  try dsimp only
  with_reducible repeat' first
    | assumption | apply State.count_kept | apply State.raise_kept | apply State.setReg_kept | intro _ _ | split
    | dsimp only

theorem State.fenced_kept {k : State} (s : State) (c : Nat) (a : Access) (hs : k.Kept s) : k.Kept (State.fenced s c
  a) := by
  unfold State.fenced
  try dsimp only
  with_reducible repeat' first
    | assumption | apply State.setCluster_kept | apply State.raise_kept | apply State.busError_kept
    | apply State.sourceMsg_kept | intro _ _ | split | dsimp only | refine State.Kept.mk_same ?_ (by rfl) (by rfl)

theorem State.readLost_kept {k : State} (s : State) (a : Access) (hs : k.Kept s) : k.Kept (State.readLost s a) := by
  unfold State.readLost
  try dsimp only
  with_reducible repeat' first
    | assumption | apply State.busError_kept | apply State.emit_kept | intro _ _ | split | dsimp only

theorem State.answerAll_kept {k : State} (s : State) (f : State → Access → State) (x2 : List Held) (hs : k.Kept s)
  (hf : ∀ s, k.Kept s → ∀ a, k.Kept (f s a)) : k.Kept (State.answerAll s f x2) := by
  induction x2 generalizing s f with
  | nil =>
    unfold State.answerAll
    try dsimp only
    with_reducible repeat' first
      | assumption | apply hf | intro _ _ | split | dsimp only
  | cons a l ih =>
    unfold State.answerAll
    try dsimp only
    with_reducible repeat' first
      | assumption | apply hf | apply ih | intro _ _ | split | dsimp only

theorem State.endReads_kept {k : State} (s : State) (sel : Nat → Bool) (f : State → Access → State) (hs : k.Kept s)
  (hf : ∀ s, k.Kept s → ∀ a, k.Kept (f s a)) : k.Kept (State.endReads s sel f) := by
  unfold State.endReads
  try dsimp only
  with_reducible repeat' first
    | assumption | apply hf | intro _ | apply State.answerAll_kept | intro _ _ | split | dsimp only
    | refine State.Kept.mk_same ?_ (by rfl) (by rfl)

theorem State.readInReset_kept {k : State} (s : State) (a : Access) (hs : k.Kept s) : k.Kept (State.readInReset s a)
  := by
  unfold State.readInReset
  try dsimp only
  with_reducible repeat' first
    | assumption | apply State.emit_kept | intro _ _ | split | dsimp only

/-! ### FireOps -/

theorem State.boostSettle_kept {k : State} (s : State) (x1 : Nat) (hs : k.Kept s) : k.Kept (State.boostSettle s x1)
  := by
  unfold State.boostSettle
  try dsimp only
  with_reducible repeat' first
    | assumption | apply State.setWood_kept | apply State.raise_kept | intro _ _ | split | dsimp only
    | refine State.Kept.mk_same ?_ (by rfl) (by rfl)

theorem State.hintStart_kept {k : State} (s : State) (us : Nat) (hs : k.Kept s) : k.Kept (State.hintStart s us) := by
  unfold State.hintStart
  try dsimp only
  with_reducible repeat' first
    | assumption | apply State.count_kept | intro _ _ | split | dsimp only | refine State.Kept.mk_same ?_ (by rfl) (by rfl)

theorem State.deferStop_kept {k : State} (s : State) (x1 : Nat) (hs : k.Kept s) : k.Kept (State.deferStop s x1) := by
  unfold State.deferStop
  try dsimp only
  with_reducible repeat' first
    | assumption | apply State.setReg_kept | intro _ _ | split | dsimp only

theorem State.fireSettle_kept {k : State} (s : State) (hs : k.Kept s) : k.Kept (State.fireSettle s) := by
  unfold State.fireSettle
  try dsimp only
  with_reducible repeat' first
    | assumption | apply State.deferStop_kept | apply State.count64_kept | apply State.boostSettle_kept | intro _ _ | split
    | dsimp only | refine State.Kept.mk_same ?_ (by rfl) (by rfl)

theorem State.headSetpoint_kept {k : State} (s : State) (hs : k.Kept s) : k.Kept (State.headSetpoint s) := by
  unfold State.headSetpoint
  try dsimp only
  with_reducible repeat' first
    | assumption | apply State.drawn_kept | intro _ _ | split | dsimp only | refine State.Kept.mk_same ?_ (by rfl) (by rfl)

/-! ### Account -/

theorem State.dropPairAdd_kept {k : State} (s : State) (x1 : Nat) (reason : Nat) (src : Nat) (n : Nat) (hs : k.Kept
  s) : k.Kept (State.dropPairAdd s x1 reason src n) := by
  unfold State.dropPairAdd
  try dsimp only
  with_reducible repeat' first
    | assumption | apply State.setMatrix_kept | intro _ _ | split | dsimp only
    | refine State.Kept.mk_same ?_ (by rfl) (by rfl)

theorem State.matrixAdd_kept {k : State} (s : State) (x1 : Nat) (row : Nat) (col : Nat) (n : Nat) (hs : k.Kept s) :
  k.Kept (State.matrixAdd s x1 row col n) := by
  unfold State.matrixAdd
  try dsimp only
  with_reducible repeat' first
    | assumption | apply State.count64_kept | apply State.setMatrix_kept | intro _ _ | split | dsimp only
    | refine State.Kept.mk_same ?_ (by rfl) (by rfl)

theorem State.unitCounts_kept {k : State} (s : State) (x1 : Nat) (row : Nat) (u : UnitInfo) (hs : k.Kept s) : k.Kept
  (State.unitCounts s x1 row u) := by
  unfold State.unitCounts
  try dsimp only
  with_reducible repeat' first
    | assumption | apply State.dropPairAdd_kept | apply State.matrixAdd_kept | intro _ _ | split | dsimp only

theorem State.overflowAdd_kept {k : State} (s : State) (x1 : Nat) (i : Nat) (u : UnitInfo) (o : Nat) (hs : k.Kept s)
  : k.Kept (State.overflowAdd s x1 i u o) := by
  unfold State.overflowAdd
  try dsimp only
  with_reducible repeat' first
    | assumption | apply State.count64_kept | intro _ _ | split | dsimp only

theorem State.accountEarly_kept {k : State} (s : State) (u : UnitInfo) (hs : k.Kept s) : k.Kept (State.accountEarly s
  u) := by
  unfold State.accountEarly
  try dsimp only
  with_reducible repeat' first
    | assumption | apply State.unitCounts_kept | apply State.overflowAdd_kept | intro _ _ | split | dsimp only

theorem State.accountFlume_kept {k : State} (s : State) (q : Nat) (u : UnitInfo) (hs : k.Kept s) : k.Kept
  (State.accountFlume s q u) := by
  unfold State.accountFlume
  try dsimp only
  with_reducible repeat' first
    | assumption | apply State.unitCounts_kept | apply State.overflowAdd_kept | intro _ _ | split | dsimp only

theorem State.cacheAdd_kept {k : State} (s : State) (x1 : Nat) (i : Nat) (u : UnitInfo) (hs : k.Kept s) : k.Kept
  (State.cacheAdd s x1 i u) := by
  unfold State.cacheAdd
  try dsimp only
  with_reducible repeat' first
    | assumption | apply State.setTally_kept | apply State.count64_kept | apply State.overflowAdd_kept | intro _ _ | split
    | dsimp only | refine State.Kept.mk_same ?_ (by rfl) (by rfl)

theorem State.accountEgress_kept {k : State} (s : State) (port : Nat) (u : UnitInfo) (hs : k.Kept s) : k.Kept
  (State.accountEgress s port u) := by
  unfold State.accountEgress
  try dsimp only
  with_reducible repeat' first
    | assumption | apply State.unitCounts_kept | apply State.cacheAdd_kept | intro _ _ | split | dsimp only

theorem State.accountNull_kept {k : State} (s : State) (x1 : Nat) (u : UnitInfo) (hs : k.Kept s) : k.Kept
  (State.accountNull s x1 u) := by
  unfold State.accountNull
  try dsimp only
  with_reducible repeat' first
    | assumption | apply State.unitCounts_kept | apply State.cacheAdd_kept | intro _ _ | split | dsimp only

theorem State.histAdd_kept {k : State} (s : State) (x1 : Nat) (q : Nat) (entry : Nat) (hs : k.Kept s) : k.Kept
  (State.histAdd s x1 q entry) := by
  unfold State.histAdd
  try dsimp only
  with_reducible repeat' first
    | assumption | apply State.setMatrix_kept | intro _ _ | split | dsimp only
    | refine State.Kept.mk_same ?_ (by rfl) (by rfl)

theorem State.accountRow_kept {k : State} (s : State) (u : UnitInfo) (row : UnitRow) (hs : k.Kept s) : k.Kept
  (State.accountRow s u row) := by
  unfold State.accountRow
  try dsimp only
  with_reducible repeat' first
    | assumption | apply State.accountFlume_kept | apply State.accountEarly_kept | apply State.accountEgress_kept
    | apply State.accountNull_kept | apply State.histAdd_kept | intro _ _ | split | dsimp only
    | refine State.Kept.mk_same ?_ (by rfl) (by rfl)

theorem State.settleUnits_kept {k : State} (s : State) (len : Nat) (x2 : List Unsettled) (hs : k.Kept s) : k.Kept
  (State.settleUnits s len x2) := by
  induction x2 generalizing s len with
  | nil =>
    unfold State.settleUnits
    try dsimp only
    with_reducible repeat' first
      | assumption | apply State.accountRow_kept | intro _ _ | split | dsimp only
      | refine State.Kept.mk_same ?_ (by rfl) (by rfl)
  | cons a l ih =>
    unfold State.settleUnits
    try dsimp only
    with_reducible repeat' first
      | assumption | apply ih | apply State.accountRow_kept | intro _ _ | split | dsimp only
      | refine State.Kept.mk_same ?_ (by rfl) (by rfl)

theorem State.settleRoot_kept {k : State} (s : State) (root : Nat) (len : Nat) (hs : k.Kept s) : k.Kept
  (State.settleRoot s root len) := by
  unfold State.settleRoot
  try dsimp only
  with_reducible repeat' first
    | assumption | apply State.settleUnits_kept | intro _ _ | split | dsimp only
    | refine State.Kept.mk_same ?_ (by rfl) (by rfl)

theorem State.endHolder_kept {k : State} (s : State) (x1 : Nat) (ring : Nat) (hs : k.Kept s) : k.Kept
  (State.endHolder s x1 ring) := by
  unfold State.endHolder
  try dsimp only
  with_reducible repeat' first
    | assumption | intro _ _ | split | dsimp only | refine State.Kept.mk_same ?_ (by rfl) (by rfl)

theorem State.moveHolder_kept {k : State} (s : State) (a : Nat) (b : Nat) (ring : Nat) (hs : k.Kept s) : k.Kept
  (State.moveHolder s a b ring) := by
  unfold State.moveHolder
  try dsimp only
  with_reducible repeat' first
    | assumption | apply State.endHolder_kept | intro _ _ | split | dsimp only
    | refine State.Kept.mk_same ?_ (by rfl) (by rfl)

theorem State.accountUnit_kept {k : State} (s : State) (f : Frame) (row : UnitRow) (u : UnitInfo) (hs : k.Kept s) :
  k.Kept (State.accountUnit s f row u) := by
  unfold State.accountUnit
  try dsimp only
  with_reducible repeat' first
    | assumption | apply State.accountRow_kept | intro _ _ | split | dsimp only
    | refine State.Kept.mk_same ?_ (by rfl) (by rfl)

theorem State.beginHolder_kept {k : State} (s : State) (x1 : Nat) (ring : Nat) (hs : k.Kept s) : k.Kept
  (State.beginHolder s x1 ring) := by
  unfold State.beginHolder
  try dsimp only
  with_reducible repeat' first
    | assumption | apply State.count64_kept | intro _ _ | split | dsimp only
    | refine State.Kept.mk_same ?_ (by rfl) (by rfl)

theorem State.accountSkip_kept {k : State} (s : State) (x1 : Nat) (src : Nat) (hs : k.Kept s) : k.Kept
  (State.accountSkip s x1 src) := by
  unfold State.accountSkip
  try dsimp only
  with_reducible repeat' first
    | assumption | apply State.unitCounts_kept | apply State.overflowAdd_kept | intro _ _ | split | dsimp only

/-! ### DeckOps -/

theorem State.pfcEval_kept {k : State} (s : State) (p : Nat) (r : Nat) (hs : k.Kept s) : k.Kept (State.pfcEval s p r)
  := by
  unfold State.pfcEval
  try dsimp only
  with_reducible repeat' first
    | assumption | apply State.raiseIf_kept | intro _ _ | split | dsimp only
    | refine State.Kept.mk_same ?_ (by rfl) (by rfl)

theorem State.pfcEvalAll_kept {k : State} (s : State) (p : Nat) (x2 : List Nat) (hs : k.Kept s) : k.Kept
  (State.pfcEvalAll s p x2) := by
  induction x2 generalizing s p with
  | nil =>
    unfold State.pfcEvalAll
    try dsimp only
    with_reducible repeat' first
      | assumption | apply State.pfcEval_kept | intro _ _ | split | dsimp only
  | cons a l ih =>
    unfold State.pfcEvalAll
    try dsimp only
    with_reducible repeat' first
      | assumption | apply ih | apply State.pfcEval_kept | intro _ _ | split | dsimp only

theorem State.badFree_kept {k : State} (s : State) (x1 : Nat) (rq : Nat) (cell : Nat) (tag : Nat) (stored : Nat) (hs
  : k.Kept s) : k.Kept (State.badFree s x1 rq cell tag stored) := by
  unfold State.badFree
  try dsimp only
  with_reducible repeat' first
    | assumption | apply State.raise_kept | apply State.latchFirst_kept | apply State.count_kept | intro _ _ | split
    | dsimp only

theorem State.pfcEvals_kept {k : State} (s : State) (x1 : List Nat) (hs : k.Kept s) : k.Kept (State.pfcEvals s x1) := by
  induction x1 generalizing s with
  | nil =>
    unfold State.pfcEvals
    try dsimp only
    with_reducible repeat' first
      | assumption | apply State.pfcEvalAll_kept | intro _ _ | split | dsimp only
  | cons a l ih =>
    unfold State.pfcEvals
    try dsimp only
    with_reducible repeat' first
      | assumption | apply ih | apply State.pfcEvalAll_kept | intro _ _ | split | dsimp only

theorem State.relevel_kept {k : State} (s : State) (x1 : Nat) (hs : k.Kept s) : k.Kept (State.relevel s x1) := by
  unfold State.relevel
  try dsimp only
  with_reducible repeat' first
    | assumption | apply State.pfcEvals_kept | apply State.raiseAll_kept | apply State.count_kept
    | apply State.setDeck_kept | apply State.setRf_kept | intro _ _ | split | dsimp only
    | refine State.Kept.mk_same ?_ (by rfl) (by rfl)

theorem State.freeCell_kept {k : State} (s : State) (x1 : Nat) (rq : Nat) (cell : Nat) (tag : Nat) (hs : k.Kept s) :
  k.Kept (State.freeCell s x1 rq cell tag) := by
  unfold State.freeCell
  try dsimp only
  with_reducible repeat' first
    | assumption | apply State.badFree_kept | apply State.relevel_kept | apply State.setDeck_kept | intro _ _ | split
    | dsimp only | refine State.Kept.mk_same ?_ (by rfl) (by rfl)

theorem State.pfcSub_kept {k : State} (s : State) (x1 : Nat) (f : Frame) (n : Nat) (hs : k.Kept s) : k.Kept
  (State.pfcSub s x1 f n) := by
  unfold State.pfcSub
  try dsimp only
  with_reducible repeat' first
    | assumption | apply State.setDeck_kept | apply State.pfcEval_kept | intro _ _ | split | dsimp only
    | refine State.Kept.mk_same ?_ (by rfl) (by rfl)

theorem State.loseCell_kept {k : State} (s : State) (i : Nat) (cell : Nat) (hs : k.Kept s) : k.Kept (State.loseCell s
  i cell) := by
  unfold State.loseCell
  try dsimp only
  with_reducible repeat' first
    | assumption | apply State.pfcSub_kept | apply State.setHq_kept | apply State.setDeck_kept | apply State.setFrame_kept
    | intro _ _ | split | dsimp only | refine State.Kept.mk_same ?_ (by rfl) (by rfl)

theorem State.freeStray_kept {k : State} (s : State) (x1 : Nat) (rq : Nat) (cell : Nat) (tag : Nat) (hs : k.Kept s) :
  k.Kept (State.freeStray s x1 rq cell tag) := by
  unfold State.freeStray
  try dsimp only
  with_reducible repeat' first
    | assumption | apply State.freeCell_kept | apply State.setFrame_kept | apply State.loseCell_kept | intro _ _ | split
    | dsimp only | refine State.Kept.mk_same ?_ (by rfl) (by rfl)

theorem State.freeStrays_kept {k : State} (s : State) (x1 : Nat) (rq : Nat) (tag : Nat) (x4 : List Nat) (hs : k.Kept
  s) : k.Kept (State.freeStrays s x1 rq tag x4) := by
  induction x4 generalizing s x1 rq tag with
  | nil =>
    unfold State.freeStrays
    try dsimp only
    with_reducible repeat' first
      | assumption | apply State.freeStray_kept | intro _ _ | split | dsimp only
  | cons a l ih =>
    unfold State.freeStrays
    try dsimp only
    with_reducible repeat' first
      | assumption | apply ih | apply State.freeStray_kept | intro _ _ | split | dsimp only

theorem State.freeCells_kept {k : State} (s : State) (x1 : Nat) (rq : Nat) (tag : Nat) (x4 : List Nat) (hs : k.Kept
  s) : k.Kept (State.freeCells s x1 rq tag x4) := by
  induction x4 generalizing s x1 rq tag with
  | nil =>
    unfold State.freeCells
    try dsimp only
    with_reducible repeat' first
      | assumption | apply State.freeCell_kept | intro _ _ | split | dsimp only
  | cons a l ih =>
    unfold State.freeCells
    try dsimp only
    with_reducible repeat' first
      | assumption | apply ih | apply State.freeCell_kept | intro _ _ | split | dsimp only

theorem State.releaseCells_kept {k : State} (s : State) (f : Frame) (rq : Nat) (hs : k.Kept s) : k.Kept
  (State.releaseCells s f rq) := by
  unfold State.releaseCells
  try dsimp only
  with_reducible repeat' first
    | assumption | apply State.freeStrays_kept | apply State.pfcSub_kept | apply State.setDeck_kept
    | apply State.freeCells_kept | intro _ _ | split | dsimp only

theorem State.pfcAdd_kept {k : State} (s : State) (x1 : Nat) (f : Frame) (n : Nat) (hs : k.Kept s) : k.Kept
  (State.pfcAdd s x1 f n) := by
  unfold State.pfcAdd
  try dsimp only
  with_reducible repeat' first
    | assumption | apply State.setDeck_kept | apply State.pfcEval_kept | intro _ _ | split | dsimp only
    | refine State.Kept.mk_same ?_ (by rfl) (by rfl)

/-! ### HostOps -/

theorem State.noticeLost_kept {k : State} (s : State) (hs : k.Kept s) : k.Kept (State.noticeLost s) := by
  unfold State.noticeLost
  try dsimp only
  with_reducible repeat' first
    | assumption | apply State.count_kept | intro _ _ | split | dsimp only

theorem State.msix_kept {k : State} (s : State) (v : Nat) (hs : k.Kept s) : k.Kept (State.msix s v) := by
  unfold State.msix
  try dsimp only
  with_reducible repeat' first
    | assumption | apply State.emit_kept | intro _ _ | split | dsimp only | refine State.Kept.mk_same ?_ (by rfl) (by rfl)

theorem State.hqSignal_kept {k : State} (s : State) (i : Nat) (hs : k.Kept s) : k.Kept (State.hqSignal s i) := by
  unfold State.hqSignal
  try dsimp only
  with_reducible repeat' first
    | assumption | apply State.setHq_kept | apply State.msix_kept | intro _ _ | split | dsimp only
    | refine State.Kept.mk_same ?_ (by rfl) (by rfl)

theorem State.hqCompleted_kept {k : State} (s : State) (i : Nat) (irq : Bool) (hs : k.Kept s) : k.Kept
  (State.hqCompleted s i irq) := by
  unfold State.hqCompleted
  try dsimp only
  with_reducible repeat' first
    | assumption | apply State.hqSignal_kept | apply State.setHq_kept | intro _ _ | split | dsimp only
    | refine State.Kept.mk_same ?_ (by rfl) (by rfl)

theorem State.setHqReg_kept {k : State} (s : State) (i : Nat) (o : Nat → Nat) (v : Nat) (hs : k.Kept s) : k.Kept
  (State.setHqReg s i o v) := by
  unfold State.setHqReg
  try dsimp only
  with_reducible repeat' first
    | assumption | apply State.setReg_kept | intro _ _ | split | dsimp only

theorem State.putNotice_kept {k : State} {s : State} {ws : List Word} {rr : State} (ht : State.putNotice s ws = some
  rr) (hs : k.Kept s) : k.Kept rr := by
  unfold State.putNotice at ht
  dsimp only at ht
  repeat' (split at ht)
  all_goals (first | contradiction | skip)
  all_goals (try (cases ht))
  all_goals
    with_reducible repeat' first
      | assumption | apply State.hqCompleted_kept | apply State.count64_kept | apply State.setHqReg_kept
      | apply State.emit_kept | intro _ _ | split | dsimp only

theorem State.notice_kept {k : State} (s : State) (ws : List Word) (lostPage : Nat) (lostOff : Nat) (hs : k.Kept s) :
  k.Kept (State.notice s ws lostPage lostOff) := by
  unfold State.notice
  try dsimp only
  with_reducible repeat' first
    | assumption | apply State.noticeLost_kept | apply State.count_kept | refine State.putNotice_kept (by assumption) ?_
    | intro _ _ | split | dsimp only | refine State.Kept.mk_same ?_ (by rfl) (by rfl)

theorem State.coverTo_kept {k : State} (s : State) (i : Nat) (t : Nat) (hs : k.Kept s) : k.Kept (State.coverTo s i t)
  := by
  unfold State.coverTo
  try dsimp only
  with_reducible repeat' first
    | assumption | apply State.setHq_kept | intro _ _ | split | dsimp only | refine State.Kept.mk_same ?_ (by rfl) (by rfl)

theorem State.msixMask_kept {k : State} (s : State) (v : Nat) (masked : Bool) (hs : k.Kept s) : k.Kept
  (State.msixMask s v masked) := by
  unfold State.msixMask
  try dsimp only
  with_reducible repeat' first
    | assumption | apply State.emit_kept | intro _ _ | split | dsimp only | refine State.Kept.mk_same ?_ (by rfl) (by rfl)

theorem State.bar2Write_kept {k : State} (s : State) (x1 : Nat) (be : Nat) (v : Word) (hs : k.Kept s) : k.Kept
  (State.bar2Write s x1 be v) := by
  unfold State.bar2Write
  try dsimp only
  with_reducible repeat' first
    | assumption | apply State.msixMask_kept | intro _ _ | split | dsimp only
    | refine State.Kept.mk_same ?_ (by rfl) (by rfl)

theorem State.bar2Read_kept {k : State} (s : State) (x1 : Nat) (size : Nat) (hs : k.Kept s) : k.Kept (State.bar2Read
  s x1 size) := by
  unfold State.bar2Read
  try dsimp only
  with_reducible repeat' first
    | assumption | apply State.emit_kept | intro _ _ | split | dsimp only

theorem State.hqWriteBack_kept {k : State} (s : State) (i : Nat) (d : Done) (hs : k.Kept s) : k.Kept
  (State.hqWriteBack s i d) := by
  unfold State.hqWriteBack
  try dsimp only
  with_reducible repeat' first
    | assumption | apply State.hqCompleted_kept | apply State.count_kept | apply State.count64_kept
    | apply State.setHqReg_kept | apply State.emit_kept | intro _ _ | split | dsimp only

/-! ### PortOps -/

theorem State.transmit_kept {k : State} (s : State) (p : Nat) (o : Output) (hs : k.Kept s) : k.Kept (State.transmit s
  p o) := by
  unfold State.transmit
  try dsimp only
  with_reducible repeat' first
    | assumption | apply State.emit_kept | apply State.onlyIf_kept | intro _ _ | split | dsimp only

/-! ### Ptp -/

theorem State.ptpEnd_kept {k : State} (s : State) (p : Nat) (f : Frame) (stomped : Bool) (hs : k.Kept s) : k.Kept
  (State.ptpEnd s p f stomped) := by
  unfold State.ptpEnd
  try dsimp only
  with_reducible repeat' first
    | assumption | apply State.notice_kept | apply State.count_kept | intro _ _ | split | dsimp only

/-! ### PathOps -/

theorem State.clearQueues_kept {k : State} (s : State) (p : Nat) (x2 : Nat) (hs : k.Kept s) : k.Kept
  (State.clearQueues s p x2) := by
  induction x2 generalizing s p with
  | zero =>
    unfold State.clearQueues
    try dsimp only
    with_reducible repeat' first
      | assumption | apply State.setQueue_kept | intro _ _ | split | dsimp only
      | refine State.Kept.mk_same ?_ (by rfl) (by rfl)
  | succ n ih =>
    unfold State.clearQueues
    try dsimp only
    with_reducible repeat' first
      | assumption | apply ih | apply State.setQueue_kept | intro _ _ | split | dsimp only
      | refine State.Kept.mk_same ?_ (by rfl) (by rfl)

theorem State.portDown_kept {k : State} (s : State) (p : Nat) (hs : k.Kept s) : k.Kept (State.portDown s p) := by
  unfold State.portDown
  try dsimp only
  with_reducible repeat' first
    | assumption | apply State.setSched_kept | apply State.clearQueues_kept | intro _ _ | split | dsimp only
    | refine State.Kept.mk_same ?_ (by rfl) (by rfl)

theorem State.unstart_kept {k : State} (s : State) (x1 : List Nat) (hs : k.Kept s) : k.Kept (State.unstart s x1) := by
  induction x1 generalizing s with
  | nil =>
    unfold State.unstart
    try dsimp only
    with_reducible repeat' first
      | assumption | apply State.setFrame_kept | apply State.setQueue_kept | intro _ _ | split | dsimp only
  | cons a l ih =>
    unfold State.unstart
    try dsimp only
    with_reducible repeat' first
      | assumption | apply ih | apply State.setFrame_kept | apply State.setQueue_kept | intro _ _ | split | dsimp only

theorem State.sendFrame_kept {k : State} (s : State) (p : Nat) (out : List Byte) (stomped : Bool) (hs : k.Kept s) :
  k.Kept (State.sendFrame s p out stomped) := by
  unfold State.sendFrame
  try dsimp only
  with_reducible repeat' first
    | assumption | apply State.transmit_kept | apply State.setSpan_kept | intro _ _ | split | dsimp only
    | refine State.Kept.mk_same ?_ (by rfl) (by rfl)

theorem State.finish_kept {k : State} (s : State) (i : Nat) (x2 : Nat) (f : Frame) (hs : k.Kept s) : k.Kept
  (State.finish s i x2 f) := by
  unfold State.finish
  try dsimp only
  with_reducible repeat' first
    | assumption | apply State.endHolder_kept | apply State.endFrame_kept | intro _ _ | split | dsimp only

theorem State.countInjDrop_kept {k : State} (s : State) (f : Frame) (hs : k.Kept s) : k.Kept (State.countInjDrop s f)
  := by
  unfold State.countInjDrop
  try dsimp only
  with_reducible repeat' first
    | assumption | apply State.count64_kept | intro _ _ | split | dsimp only

theorem State.bwAdd_kept {k : State} (s : State) (p : Nat) (n : Nat) (rx : Bool) (hs : k.Kept s) : k.Kept
  (State.bwAdd s p n rx) := by
  unfold State.bwAdd
  try dsimp only
  with_reducible repeat' first
    | assumption | intro _ _ | split | dsimp only | refine State.Kept.mk_same ?_ (by rfl) (by rfl)

theorem State.settleMaster_kept {k : State} (s : State) (m : Nat) (hs : k.Kept s) : k.Kept (State.settleMaster s m)
  := by
  unfold State.settleMaster
  try dsimp only
  with_reducible repeat' first
    | assumption | apply State.releaseCells_kept | apply State.endFrame_kept | intro _ _ | split | dsimp only

theorem State.giveUp_kept {k : State} (s : State) (i : Nat) (f : Frame) (rq : Nat) (hs : k.Kept s) : k.Kept
  (State.giveUp s i f rq) := by
  unfold State.giveUp
  try dsimp only
  with_reducible repeat' first
    | assumption | apply State.setFrame_kept | apply State.settleMaster_kept | apply State.releaseCells_kept
    | apply State.setSched_kept | apply State.setDeck_kept | intro _ _ | split | dsimp only
    | refine State.Kept.mk_same ?_ (by rfl) (by rfl)

theorem State.settleDeficit_kept {k : State} (s : State) (q : Nat) (hs : k.Kept s) : k.Kept (State.settleDeficit s q)
  := by
  unfold State.settleDeficit
  try dsimp only
  with_reducible repeat' first
    | assumption | intro _ _ | split | dsimp only | refine State.Kept.mk_same ?_ (by rfl) (by rfl)

theorem State.chargeSent_kept {k : State} (s : State) (q : Nat) (len : Nat) (sent : Nat) (hs : k.Kept s) : k.Kept
  (State.chargeSent s q len sent) := by
  unfold State.chargeSent
  try dsimp only
  with_reducible repeat' first
    | assumption | apply State.setSched_kept | apply State.settleDeficit_kept | intro _ _ | split | dsimp only
    | refine State.Kept.mk_same ?_ (by rfl) (by rfl)

theorem State.finishTx_kept {k : State} (s : State) (p : Nat) (i : Nat) (reason : Nat) (sent : Nat) (hs : k.Kept s) :
  k.Kept (State.finishTx s p i reason sent) := by
  unfold State.finishTx
  try dsimp only
  with_reducible repeat' first
    | assumption | apply State.finish_kept | apply State.countInjDrop_kept | apply State.accountUnit_kept
    | apply State.bwAdd_kept | apply State.count64_kept | apply State.giveUp_kept | apply State.chargeSent_kept
    | apply State.setSched_kept | intro _ _ | split | dsimp only | refine State.Kept.mk_same ?_ (by rfl) (by rfl)

theorem State.stompAt_kept {k : State} (s : State) (p : Nat) (i : Nat) (n : Nat) (reason : Nat) (hs : k.Kept s) :
  k.Kept (State.stompAt s p i n reason) := by
  unfold State.stompAt
  try dsimp only
  with_reducible repeat' first
    | assumption | apply State.sendFrame_kept | apply State.ptpEnd_kept | apply State.finishTx_kept | intro _ _ | split
    | dsimp only | refine State.Kept.mk_same ?_ (by rfl) (by rfl)

theorem State.stompTx_kept {k : State} (s : State) (p : Nat) (reason : Nat) (hs : k.Kept s) : k.Kept (State.stompTx s
  p reason) := by
  unfold State.stompTx
  try dsimp only
  with_reducible repeat' first
    | assumption | apply State.stompAt_kept | intro _ _ | split | dsimp only
    | refine State.Kept.mk_same ?_ (by rfl) (by rfl)

theorem State.queuesFall_kept {k : State} (s : State) (p : Nat) (enabled : Bool) (hs : k.Kept s) : k.Kept
  (State.queuesFall s p enabled) := by
  unfold State.queuesFall
  try dsimp only
  with_reducible repeat' first
    | assumption | apply State.portDown_kept | apply State.count_kept | apply State.raise_kept | apply State.unstart_kept
    | apply State.setSlice_kept | apply State.setSched_kept | apply State.stompTx_kept | intro _ _ | split | dsimp only
    | refine State.Kept.mk_same ?_ (by rfl) (by rfl)

theorem State.queuesOff_kept {k : State} (s : State) (p : Nat) (hs : k.Kept s) : k.Kept (State.queuesOff s p) := by
  unfold State.queuesOff
  try dsimp only
  with_reducible repeat' first
    | assumption | apply State.portDown_kept | apply State.queuesFall_kept | intro _ _ | split | dsimp only
    | refine State.Kept.mk_same ?_ (by rfl) (by rfl)

theorem State.drainSettle_kept {k : State} (s : State) (x1 : Nat) (hs : k.Kept s) : k.Kept (State.drainSettle s x1)
  := by
  unfold State.drainSettle
  try dsimp only
  with_reducible repeat' first
    | assumption | apply State.setPath_kept | apply State.raise_kept | intro _ _ | split | dsimp only
    | refine State.Kept.mk_same ?_ (by rfl) (by rfl)

theorem State.dropNull_kept {k : State} (s : State) (i : Nat) (x2 : Nat) (reason : Nat) (hs : k.Kept s) : k.Kept
  (State.dropNull s i x2 reason) := by
  unfold State.dropNull
  try dsimp only
  with_reducible repeat' first
    | assumption | apply State.finish_kept | apply State.countInjDrop_kept | apply State.accountUnit_kept | intro _ _
    | split | dsimp only | refine State.Kept.mk_same ?_ (by rfl) (by rfl)

theorem State.dropPunt_kept {k : State} (s : State) (i : Nat) (q : Nat) (reason : Nat) (hs : k.Kept s) : k.Kept
  (State.dropPunt s i q reason) := by
  unfold State.dropPunt
  try dsimp only
  with_reducible repeat' first
    | assumption | apply State.dropNull_kept | apply State.count_kept | apply State.setHq_kept
    | apply State.releaseCells_kept | apply State.setDeck_kept | intro _ _ | split | dsimp only
    | refine State.Kept.mk_same ?_ (by rfl) (by rfl)

theorem State.dropPunts_kept {k : State} (s : State) (q : Nat) (reason : Nat) (x3 : List Nat) (hs : k.Kept s) :
  k.Kept (State.dropPunts s q reason x3) := by
  induction x3 generalizing s q reason with
  | nil =>
    unfold State.dropPunts
    try dsimp only
    with_reducible repeat' first
      | assumption | apply State.dropPunt_kept | intro _ _ | split | dsimp only
  | cons a l ih =>
    unfold State.dropPunts
    try dsimp only
    with_reducible repeat' first
      | assumption | apply ih | apply State.dropPunt_kept | intro _ _ | split | dsimp only

theorem State.toStep4_kept {k : State} (s : State) (i : Nat) (x2 : Nat) (d : Nat) (hs : k.Kept s) : k.Kept
  (State.toStep4 s i x2 d) := by
  unfold State.toStep4
  try dsimp only
  with_reducible repeat' first
    | assumption | apply State.setPath_kept | apply State.setFrame_kept | intro _ _ | split | dsimp only
    | refine State.Kept.mk_same ?_ (by rfl) (by rfl)

theorem State.enterDeck_kept {k : State} (s : State) (f : Frame) (x2 : Nat) (hs : k.Kept s) : k.Kept (State.enterDeck
  s f x2) := by
  unfold State.enterDeck
  try dsimp only
  with_reducible repeat' first
    | assumption | apply State.beginHolder_kept | apply State.toStep4_kept | apply State.newFrame_kept | intro _ _ | split
    | dsimp only | refine State.Kept.mk_same ?_ (by rfl) (by rfl)

theorem State.dropEarly_kept {k : State} (s : State) (i : Nat) (reason : Nat) (hs : k.Kept s) : k.Kept
  (State.dropEarly s i reason) := by
  unfold State.dropEarly
  try dsimp only
  with_reducible repeat' first
    | assumption | apply State.endFrame_kept | apply State.countInjDrop_kept | apply State.accountUnit_kept | intro _ _
    | split | dsimp only

theorem State.dropQueued_kept {k : State} (s : State) (i : Nat) (reason : Nat) (hs : k.Kept s) : k.Kept
  (State.dropQueued s i reason) := by
  unfold State.dropQueued
  try dsimp only
  with_reducible repeat' first
    | assumption | apply State.finish_kept | apply State.countInjDrop_kept | apply State.count_kept
    | apply State.raise_kept | apply State.accountUnit_kept | apply State.settleDeficit_kept | apply State.giveUp_kept
    | intro _ _ | split | dsimp only | refine State.Kept.mk_same ?_ (by rfl) (by rfl)

theorem State.dropQueuedAll_kept {k : State} (s : State) (reason : Nat) (x2 : List Nat) (hs : k.Kept s) : k.Kept
  (State.dropQueuedAll s reason x2) := by
  induction x2 generalizing s reason with
  | nil =>
    unfold State.dropQueuedAll
    try dsimp only
    with_reducible repeat' first
      | assumption | apply State.dropQueued_kept | intro _ _ | split | dsimp only
  | cons a l ih =>
    unfold State.dropQueuedAll
    try dsimp only
    with_reducible repeat' first
      | assumption | apply ih | apply State.dropQueued_kept | intro _ _ | split | dsimp only

theorem State.mcastDone_kept {k : State} (s : State) (f : Frame) (n : Nat) (reason : Nat) (x4 : Nat) (hs : k.Kept s)
  : k.Kept (State.mcastDone s f n reason x4) := by
  unfold State.mcastDone
  try dsimp only
  with_reducible repeat' first
    | assumption | apply State.countInjDrop_kept | apply State.accountUnit_kept | intro _ _ | split | dsimp only
    | refine State.Kept.mk_same ?_ (by rfl) (by rfl)

theorem State.dropMcast_kept {k : State} (s : State) (i : Nat) (reason : Nat) (hs : k.Kept s) : k.Kept
  (State.dropMcast s i reason) := by
  unfold State.dropMcast
  try dsimp only
  with_reducible repeat' first
    | assumption | apply State.finish_kept | apply State.drainSettle_kept | apply State.mcastDone_kept
    | apply State.countInjDrop_kept | apply State.releaseCells_kept | apply State.setDeck_kept | intro _ _ | split
    | dsimp only

theorem State.countExp_kept {k : State} (s : State) (reason : Nat) (hs : k.Kept s) : k.Kept (State.countExp s reason)
  := by
  unfold State.countExp
  try dsimp only
  with_reducible repeat' first
    | assumption | apply State.count64_kept | intro _ _ | split | dsimp only

theorem State.markFrame_kept {k : State} (s : State) (i : Nat) (reason : Nat) (hs : k.Kept s) : k.Kept
  (State.markFrame s i reason) := by
  unfold State.markFrame
  try dsimp only
  with_reducible repeat' first
    | assumption | apply State.mapFrames_kept | apply State.setFrame_kept | intro _ _ | split | dsimp only
    | refine State.Kept.mk_same ?_ (by rfl) (by rfl)

theorem State.dropInRepl_kept {k : State} (s : State) (i : Nat) (x2 : Nat) (reason : Nat) (hs : k.Kept s) : k.Kept
  (State.dropInRepl s i x2 reason) := by
  unfold State.dropInRepl
  try dsimp only
  with_reducible repeat' first
    | assumption | apply State.finish_kept | apply State.countInjDrop_kept | apply State.accountUnit_kept
    | apply State.giveUp_kept | intro _ _ | split | dsimp only

theorem State.markRoot_kept {k : State} (s : State) (root : Nat) (reason : Nat) (hs : k.Kept s) : k.Kept
  (State.markRoot s root reason) := by
  unfold State.markRoot
  try dsimp only
  with_reducible repeat' first
    | assumption | apply State.mapFrames_kept | intro _ _ | split | dsimp only

theorem State.queuesRise_kept {k : State} (s : State) (p : Nat) (hs : k.Kept s) : k.Kept (State.queuesRise s p) := by
  unfold State.queuesRise
  try dsimp only
  with_reducible repeat' first
    | assumption | apply State.count_kept | apply State.setSched_kept | intro _ _ | split | dsimp only
    | refine State.Kept.mk_same ?_ (by rfl) (by rfl)

/-! ### RaftOps -/

theorem State.raftNotice_kept {k : State} (s : State) (p : Nat) (x2 : Nat) (dev : Nat) (port : Nat) (said : Nat)
  (sysid : Word) (hs : k.Kept s) : k.Kept (State.raftNotice s p x2 dev port said sysid) := by
  unfold State.raftNotice
  try dsimp only
  with_reducible repeat' first
    | assumption | apply State.notice_kept | intro _ _ | split | dsimp only

theorem State.setNbr_kept {k : State} (s : State) (p : Nat) (x : NbrS) (hs : k.Kept s) : k.Kept (State.setNbr s p x)
  := by
  unfold State.setNbr
  try dsimp only
  with_reducible repeat' first
    | assumption | intro _ _ | split | dsimp only | refine State.Kept.mk_same ?_ (by rfl) (by rfl)

theorem State.nbrDown_kept {k : State} (s : State) (p : Nat) (hs : k.Kept s) : k.Kept (State.nbrDown s p) := by
  unfold State.nbrDown
  try dsimp only
  with_reducible repeat' first
    | assumption | apply State.raise_kept | apply State.raftNotice_kept | apply State.setNbr_kept | intro _ _ | split
    | dsimp only | refine State.Kept.mk_same ?_ (by rfl) (by rfl)

theorem State.helloForget_kept {k : State} (s : State) (p : Nat) (hs : k.Kept s) : k.Kept (State.helloForget s p) := by
  unfold State.helloForget
  try dsimp only
  with_reducible repeat' first
    | assumption | apply State.setNbr_kept | intro _ _ | split | dsimp only
    | refine State.Kept.mk_same ?_ (by rfl) (by rfl)

theorem State.peerHold_kept {k : State} (s : State) (r : Nat) (hs : k.Kept s) : k.Kept (State.peerHold s r) := by
  unfold State.peerHold
  dsimp only
  split
  · exact State.setRing_kept _ _ _ hs Iff.rfl
  · exact hs

theorem State.peerHolds_kept {k : State} (s : State) (hs : k.Kept s) : k.Kept (State.peerHolds s) := by
  unfold State.peerHolds
  try dsimp only
  with_reducible repeat' first
    | assumption | apply State.peerHold_kept | intro _ _ | split | dsimp only

theorem State.raftPush_kept {k : State} (s : State) (x1 : Nat) (f : Frame) (v : List Byte) (hs : k.Kept s) : k.Kept
  (State.raftPush s x1 f v).1 := by
  unfold State.raftPush
  try dsimp only
  with_reducible repeat' first
    | assumption | apply State.count64_kept | intro _ _ | split | dsimp only
    | refine State.Kept.mk_same ?_ (by rfl) (by rfl)

theorem State.raftPush_kept_eq {k : State} {s : State} {x1 : Nat} {f : Frame} {v : List Byte} {ra rb} (ht :
  State.raftPush s x1 f v = (ra, rb)) (hs : k.Kept s) : k.Kept ra := by
  have := State.raftPush_kept (k := k) s x1 f v hs
  rw [ht] at this
  exact this

theorem State.raftResolve_kept {k : State} (s : State) (x1 : Nat) (f : Frame) (v : List Byte) (hs : k.Kept s) :
  k.Kept (State.raftResolve s x1 f v).1 := by
  unfold State.raftResolve
  try dsimp only
  with_reducible repeat' first
    | assumption | apply State.raftPush_kept | refine State.raftPush_kept_eq (by assumption) ?_ | apply State.count_kept
    | intro _ _ | split | dsimp only

theorem State.raftResolve_kept_eq {k : State} {s : State} {x1 : Nat} {f : Frame} {v : List Byte} {ra rb} (ht :
  State.raftResolve s x1 f v = (ra, rb)) (hs : k.Kept s) : k.Kept ra := by
  have := State.raftResolve_kept (k := k) s x1 f v hs
  rw [ht] at this
  exact this

theorem State.relaySent_kept {k : State} (s : State) (f : Frame) (p : Nat) (hs : k.Kept s) : k.Kept (State.relaySent
  s f p) := by
  unfold State.relaySent
  try dsimp only
  with_reducible repeat' first
    | assumption | apply State.count64_kept | intro _ _ | split | dsimp only

theorem State.ewStore_kept {k : State} (s : State) (x1 : Nat) (x2 : AMap Word) (hs : k.Kept s) : k.Kept
  (State.ewStore s x1 x2) := by
  unfold State.ewStore
  try dsimp only
  with_reducible repeat' first
    | assumption | apply State.ewStore_kept | intro _ _ | split | dsimp only
    | refine State.Kept.mk_same ?_ (by rfl) (by rfl)

theorem State.ewAll_kept {k : State} (s : State) (x1 : Nat) (hs : k.Kept s) : k.Kept (State.ewAll s x1) := by
  unfold State.ewAll
  try dsimp only
  with_reducible repeat' first
    | assumption | apply State.count_kept | apply State.ewStore_kept | intro _ _ | split | dsimp only
    | refine State.Kept.mk_same ?_ (by rfl) (by rfl)

theorem State.nbrsClear_kept {k : State} (s : State) (x1 : Nat) (hs : k.Kept s) : k.Kept (State.nbrsClear s x1) := by
  unfold State.nbrsClear
  try dsimp only
  with_reducible repeat' first
    | assumption | intro _ _ | split | dsimp only | refine State.Kept.mk_same ?_ (by rfl) (by rfl)

/-! ### Rings -/

theorem State.sweepDone_kept {k : State} (s : State) (x1 : Nat) (r : Nat) (hs : k.Kept s) : k.Kept (State.sweepDone s
  x1 r) := by
  unfold State.sweepDone
  extract_lets x y
  have hy : x.st = .sweep → y.st = .sweep := fun h => by dsimp only [y]; split <;> exact h
  split
  · next hx =>
    have hr : (s.ringRec r).st = .sweep := hx
    split
    · exact State.raise_kept _ _ _ (State.setRing_kept _ _ _ hs (by simp [hr]))
    · exact State.setRing_kept _ _ _ hs (by rw [hr, hy hx])
  · exact hs

theorem State.expireRing_kept {k : State} (s : State) (r : Nat) (hs : k.Kept s) : k.Kept (State.expireRing s r) := by
  unfold State.expireRing
  dsimp only
  split
  · exact State.raise_kept _ _ _ (State.setRing_kept _ _ _ hs Iff.rfl)
  · exact hs

theorem State.maxAgeWrite_kept {k : State} (s : State) (v : Word) (hs : k.Kept s) : k.Kept (State.maxAgeWrite s v) := by
  unfold State.maxAgeWrite
  try dsimp only
  with_reducible repeat' first
    | assumption | apply State.expireRing_kept | apply State.setReg_kept | intro _ _ | split | dsimp only

theorem State.startFence_kept {k : State} (s : State) (r : Requester) (hs : k.Kept s) : k.Kept (State.startFence s r)
  := by
  unfold State.startFence
  try dsimp only
  with_reducible repeat' first
    | assumption | intro _ _ | split | dsimp only | refine State.Kept.mk_same ?_ (by rfl) (by rfl)

theorem State.commitReq_kept {k : State} (s : State) (r : Requester) (atTime : Bool) (hs : k.Kept s) : k.Kept
  (State.commitReq s r atTime) := by
  unfold State.commitReq
  split
  · exact State.raise_kept _ _ _ (State.count_kept _ _ _ _ (hs.rings rfl rfl))
  · exact State.raiseIf_kept _ _ _ _ (State.startFence_kept _ _ ((State.setRf_kept _ _ _ _ _ _ hs).rings rfl rfl))

theorem State.cancelReq_kept {k : State} (s : State) (hs : k.Kept s) : k.Kept (State.cancelReq s) := by
  unfold State.cancelReq
  split
  · exact hs
  · split
    · split
      · exact hs
      · exact hs.rings rfl rfl
    · exact hs.rings rfl rfl

theorem State.ringCtrlWrite_kept {k : State} (s : State) (r : Requester) (v : Word) (hs : k.Kept s) : k.Kept
  (State.ringCtrlWrite s r v) := by
  unfold State.ringCtrlWrite
  try dsimp only
  with_reducible repeat' first
    | assumption | apply State.commitReq_kept | apply State.setRf_kept | apply State.cancelReq_kept | intro _ _ | split
    | dsimp only

theorem State.commitReady_kept {k : State} (s : State) (hs : k.Kept s) : k.Kept (State.commitReady s) := by
  unfold State.commitReady
  split
  · exact hs
  · split
    · exact hs
    · exact hs.rings rfl rfl

theorem State.dropExpired_kept {k : State} (s : State) (i : Nat) (hs : k.Kept s) : k.Kept (State.dropExpired s i) := by
  unfold State.dropExpired
  try dsimp only
  with_reducible repeat' first
    | assumption | apply State.dropQueued_kept | apply State.count64_kept | intro _ _ | split | dsimp only

theorem State.dropExpireds_kept {k : State} (s : State) (x1 : List Nat) (hs : k.Kept s) : k.Kept (State.dropExpireds
  s x1) := by
  induction x1 generalizing s with
  | nil =>
    unfold State.dropExpireds
    try dsimp only
    with_reducible repeat' first
      | assumption | apply State.dropExpired_kept | intro _ _ | split | dsimp only
  | cons a l ih =>
    unfold State.dropExpireds
    try dsimp only
    with_reducible repeat' first
      | assumption | apply ih | apply State.dropExpired_kept | intro _ _ | split | dsimp only

theorem State.mapRing_kept {k : State} (s : State) (r : Nat) (x2 : List Nat) (hs : k.Kept s) : k.Kept (State.mapRing
  s r x2) := by
  induction x2 generalizing s r with
  | nil =>
    unfold State.mapRing
    try dsimp only
    with_reducible repeat' first
      | assumption | apply State.setRf_kept | intro _ _ | split | dsimp only
  | cons a l ih =>
    unfold State.mapRing
    try dsimp only
    with_reducible repeat' first
      | assumption | apply ih | apply State.setRf_kept | intro _ _ | split | dsimp only

theorem State.retireRings_kept {k : State} (s : State) (x1 : Bool) (x2 : List Nat) (hs : k.Kept s) : k.Kept
  (State.retireRings s x1 x2) := by
  induction x2 generalizing s x1 with
  | nil => exact hs
  | cons r l ih =>
    unfold State.retireRings
    dsimp only
    split
    · next hx =>
      split
      · exact ih _ _ (State.setRing_kept _ _ _ hs (by simp [hx]))
      · exact ih _ _ hs
    · exact ih _ _ hs

theorem State.sampleRing_kept {k : State} (s : State) (r : Nat) (hs : k.Kept s) : k.Kept (State.sampleRing s r) := by
  exact State.setRing_kept _ _ _ hs Iff.rfl

theorem State.sample_kept {k : State} (s : State) (hs : k.Kept s) : k.Kept (State.sample s) := by
  unfold State.sample
  try dsimp only
  with_reducible repeat' first
    | assumption | apply State.retireRings_kept | apply State.sampleRing_kept | intro _ _ | split | dsimp only

theorem State.commitYield_kept {k : State} (s : State) (x1 : Nat) (hs : k.Kept s) : k.Kept (State.commitYield s x1)
  := by
  unfold State.commitYield
  try dsimp only
  with_reducible repeat' first
    | assumption | apply State.setReg_kept | intro _ _ | split | dsimp only

theorem execCommitReady_kept {k : State} {s : State} {rr : State} (ht : execCommitReady s = .next rr) (hs : k.Kept s)
  : k.Kept rr := by
  refine State.run_kept (fun s hs => ?_) hs ht
  try dsimp only
  with_reducible repeat' first
    | assumption | apply State.commitReady_kept | intro _ _ | split | dsimp only

theorem State.scanPunts_kept {k : State} (s : State) (x1 : Nat) (hs : k.Kept s) : k.Kept (State.scanPunts s x1) := by
  induction x1 generalizing s with
  | zero =>
    unfold State.scanPunts
    try dsimp only
    with_reducible repeat' first
      | assumption | apply State.count64_kept | apply State.dropPunts_kept | intro _ _ | split | dsimp only
  | succ n ih =>
    unfold State.scanPunts
    try dsimp only
    with_reducible repeat' first
      | assumption | apply ih | apply State.count64_kept | apply State.dropPunts_kept | intro _ _ | split | dsimp only

theorem State.dropMcasts_kept {k : State} (s : State) (x1 : List Nat) (hs : k.Kept s) : k.Kept (State.dropMcasts s
  x1) := by
  induction x1 generalizing s with
  | nil =>
    unfold State.dropMcasts
    try dsimp only
    with_reducible repeat' first
      | assumption | apply State.dropMcast_kept | apply State.count64_kept | intro _ _ | split | dsimp only
  | cons a l ih =>
    unfold State.dropMcasts
    try dsimp only
    with_reducible repeat' first
      | assumption | apply ih | apply State.dropMcast_kept | apply State.count64_kept | intro _ _ | split | dsimp only

theorem State.scanQueue_kept {k : State} (s : State) (q : Nat) (hs : k.Kept s) : k.Kept (State.scanQueue s q) := by
  unfold State.scanQueue
  try dsimp only
  with_reducible repeat' first
    | assumption | apply State.setQueue_kept | apply State.dropExpireds_kept | intro _ _ | split | dsimp only

theorem State.scanQueues_kept {k : State} (s : State) (x1 : List Nat) (hs : k.Kept s) : k.Kept (State.scanQueues s
  x1) := by
  induction x1 generalizing s with
  | nil =>
    unfold State.scanQueues
    try dsimp only
    with_reducible repeat' first
      | assumption | apply State.scanQueue_kept | intro _ _ | split | dsimp only
  | cons a l ih =>
    unfold State.scanQueues
    try dsimp only
    with_reducible repeat' first
      | assumption | apply ih | apply State.scanQueue_kept | intro _ _ | split | dsimp only

theorem State.expiryScan_kept {k : State} (s : State) (x1 : Nat) (hs : k.Kept s) : k.Kept (State.expiryScan s x1) := by
  unfold State.expiryScan
  try dsimp only
  with_reducible repeat' first
    | assumption | apply State.scanPunts_kept | apply State.setPath_kept | apply State.dropMcasts_kept
    | apply State.scanQueues_kept | intro _ _ | split | dsimp only | refine State.Kept.mk_same ?_ (by rfl) (by rfl)

theorem execExpiryScan_kept {k : State} {x0 : Half} {s : State} {rr : State} (ht : execExpiryScan x0 s = .next rr)
  (hs : k.Kept s) : k.Kept rr := by
  refine State.run_kept (fun s hs => ?_) hs ht
  try dsimp only
  with_reducible repeat' first
    | assumption | apply State.expiryScan_kept | apply State.onlyIf_kept | intro _ _ | split | dsimp only

theorem State.commitNow_kept {k : State} (s : State) (c : Commit) (t : Nat) (hs : k.Kept s) : k.Kept (State.commitNow
  s c t) := by
  unfold State.commitNow
  extract_lets n o s1 y s2 x s3 y2 s4 s5 s6 late s7 s8 s9
  have h1 : k.Kept s1 := State.mapRing_kept _ _ _ hs
  have e1 : s1.rings = s.rings := State.mapRing_rings _ _ _
  have hn : n ≠ s1.rings.cur := by rw [e1]; exact Ring.succ_ne _
  have ho : o = s1.rings.cur := by rw [e1]
  clear_value n o s1
  subst ho
  have h4 : k.Kept s4 := h1.turn (y := { st := .current, gen := s2.rings.gen + 1, tCur := t, tRet := x.tRet, nz := x.nz }) (x := { s1.ringRec s1.rings.cur.val with st := .retiring, tRet := t }) hn (by simp) rfl rfl rfl
  clear_value s4
  have h6 : k.Kept s6 := State.commitYield_kept _ _ (State.commitYield_kept _ _ (State.peerHold_kept _ _ h4))
  have h7 : k.Kept s7 := State.count64_kept _ _ _ _ h6
  have h8 : k.Kept s8 := by
    dsimp only [s8]; split
    · exact State.count_kept _ _ _ _ h7
    · exact h7
  exact State.raiseAll_kept _ _ _ _ (h8.next_ok h8.3)

theorem State.refuse_kept {k : State} (s : State) (why : Nat) (page : Nat) (hs : k.Kept s) : k.Kept (State.refuse s
  why page) := by
  unfold State.refuse
  refine State.raise_kept _ _ _ (State.count_kept _ _ _ _ ?_)
  dsimp only
  split
  · exact State.setReg_kept _ _ _ _ (hs.rings rfl rfl)
  · exact hs.rings rfl rfl

theorem State.commitEdge_kept {k : State} (s : State) (hs : k.Kept s) : k.Kept (State.commitEdge s) := by
  unfold State.commitEdge
  try dsimp only
  with_reducible repeat' first
    | assumption | apply State.commitNow_kept | apply State.refuse_kept | intro _ _ | split | dsimp only
    | refine State.Kept.mk_same ?_ (by rfl) (by rfl)

theorem execRingExpire_kept {k : State} {r : Ring} {s : State} {rr : State} (ht : execRingExpire r s = .next rr) (hs
  : k.Kept s) : k.Kept rr := by
  refine State.run_kept (fun s hs => ?_) hs ht
  try dsimp only
  with_reducible repeat' first
    | assumption | apply State.expireRing_kept | intro _ _ | split | dsimp only

theorem execInflightSample_kept {k : State} {s : State} {rr : State} (ht : execInflightSample s = .next rr) (hs :
  k.Kept s) : k.Kept rr := by
  refine State.run_kept (fun s hs => ?_) hs ht
  try dsimp only
  with_reducible repeat' first
    | assumption | apply State.sample_kept | intro _ _ | split | dsimp only

theorem execCommitTakeEffect_kept {k : State} {s : State} {rr : State} (ht : execCommitTakeEffect s = .next rr) (hs :
  k.Kept s) : k.Kept rr := by
  refine State.run_kept (fun s hs => ?_) hs ht
  try dsimp only
  with_reducible repeat' first
    | assumption | apply State.commitEdge_kept | intro _ _ | split | dsimp only

/-! ### WoodOps -/

theorem State.setEmW_kept {k : State} (s : State) (x1 : Nat) (loc : Nat) (i : Nat) (v : Word) (hs : k.Kept s) :
  k.Kept (State.setEmW s x1 loc i v) := by
  unfold State.setEmW
  try dsimp only
  with_reducible repeat' first
    | assumption | apply State.setMemW_kept | intro _ _ | split | dsimp only

theorem State.setEmSlot_kept {k : State} (s : State) (x1 : Nat) (loc : Nat) (ws : List Word) (hs : k.Kept s) : k.Kept
  (State.setEmSlot s x1 loc ws) := by
  unfold State.setEmSlot
  try dsimp only
  with_reducible repeat' first
    | assumption | apply State.setMemWs_kept | intro _ _ | split | dsimp only

theorem State.copyEntry_kept {k : State} (s : State) (x1 : Nat) (src : Nat) (d : Nat) (hs : k.Kept s) : k.Kept
  (State.copyEntry s x1 src d) := by
  unfold State.copyEntry
  try dsimp only
  with_reducible repeat' first
    | assumption | apply State.setEmSlot_kept | intro _ _ | split | dsimp only

theorem State.clearEntry_kept {k : State} (s : State) (x1 : Nat) (loc : Nat) (hs : k.Kept s) : k.Kept
  (State.clearEntry s x1 loc) := by
  unfold State.clearEntry
  try dsimp only
  with_reducible repeat' first
    | assumption | apply State.setEmW_kept | intro _ _ | split | dsimp only

theorem State.leaveSlot_kept {k : State} (s : State) (x1 : Nat) (src : Nat) (d : Nat) (hs : k.Kept s) : k.Kept
  (State.leaveSlot s x1 src d) := by
  unfold State.leaveSlot
  try dsimp only
  with_reducible repeat' first
    | assumption | apply State.clearEntry_kept | apply State.setEmW_kept | intro _ _ | split | dsimp only

theorem State.pathLeave_kept {k : State} (s : State) (x1 : Nat) (path : List Nat) (j : Nat) (hs : k.Kept s) : k.Kept
  (State.pathLeave s x1 path j) := by
  unfold State.pathLeave
  try dsimp only
  with_reducible repeat' first
    | assumption | apply State.leaveSlot_kept | intro _ _ | split | dsimp only

theorem State.pathStep_kept {k : State} (s : State) (x1 : Nat) (path : List Nat) (j : Nat) (hs : k.Kept s) : k.Kept
  (State.pathStep s x1 path j) := by
  unfold State.pathStep
  try dsimp only
  with_reducible repeat' first
    | assumption | apply State.copyEntry_kept | apply State.pathLeave_kept | intro _ _ | split | dsimp only

theorem State.pathRun_kept {k : State} (s : State) (x1 : Nat) (path : List Nat) (x3 : Nat) (x4 : Nat) (hs : k.Kept s)
  : k.Kept (State.pathRun s x1 path x3 x4) := by
  induction x4 generalizing s x3 with
  | zero => exact hs
  | succ n ih => exact ih _ _ (State.pathStep_kept _ _ _ _ hs)

theorem State.pathEnd_kept {k : State} (s : State) (x1 : Nat) (path : List Nat) (j : Nat) (hs : k.Kept s) : k.Kept
  (State.pathEnd s x1 path j) := by
  unfold State.pathEnd
  try dsimp only
  with_reducible repeat' first
    | assumption | apply State.pathRun_kept | apply State.pathLeave_kept | intro _ _ | split | dsimp only

theorem State.writeEntry_kept {k : State} (s : State) (x1 : Nat) (loc : Nat) (t : Nat) (key : List Byte) (res : Nat)
  (ctrl : Word) (hs : k.Kept s) : k.Kept (State.writeEntry s x1 loc t key res ctrl) := by
  unfold State.writeEntry
  try dsimp only
  with_reducible repeat' first
    | assumption | apply State.setEmSlot_kept | intro _ _ | split | dsimp only

theorem State.makeRoom_kept {k : State} {s : State} {x1 : Nat} {t : Nat} {key : List Byte} {stash : Bool} {rr :
  State} {rn : Nat} (ht : State.makeRoom s x1 t key stash = some (rr, rn)) (hs : k.Kept s) : k.Kept rr := by
  unfold State.makeRoom at ht
  obtain ⟨l, -, h⟩ := Option.map_eq_some_iff.1 ht
  cases h; exact State.pathEnd_kept _ _ _ _ hs

theorem State.placeEntry_kept {k : State} {s : State} {x1 : Nat} {t : Nat} {key : List Byte} {res : Nat} {ctrl :
  Word} {rr : State} {rn : Nat} (ht : State.placeEntry s x1 t key res ctrl = some (rr, rn)) (hs : k.Kept s) : k.Kept
  rr := by
  unfold State.placeEntry at ht
  dsimp only at ht
  repeat' (split at ht)
  all_goals (first | contradiction | skip)
  all_goals (try (cases ht))
  all_goals
    with_reducible repeat' first
      | assumption | apply State.raiseIf_kept | apply State.writeEntry_kept | refine State.makeRoom_kept (by assumption) ?_
      | intro _ _ | split | dsimp only | refine State.Kept.mk_same ?_ (by rfl) (by rfl)

theorem State.setResult_kept {k : State} (s : State) (x1 : Nat) (loc : Nat) (r : Nat) (hs : k.Kept s) : k.Kept
  (State.setResult s x1 loc r) := by
  unfold State.setResult
  try dsimp only
  with_reducible repeat' first
    | assumption | apply State.setMemWs_kept | intro _ _ | split | dsimp only

theorem State.tcLookup_kept {k : State} (s : State) (sl : Nat) (key : List Byte) (r : Nat) (hs : k.Kept s) : k.Kept
  (State.tcLookup s sl key r).1 := by
  unfold State.tcLookup
  try dsimp only
  with_reducible repeat' first
    | assumption | apply State.count64_kept | intro _ _ | split | dsimp only
    | refine State.Kept.mk_same ?_ (by rfl) (by rfl)

theorem State.tcLookup_kept_eq {k : State} {s : State} {sl : Nat} {key : List Byte} {r : Nat} {ra rb} (ht :
  State.tcLookup s sl key r = (ra, rb)) (hs : k.Kept s) : k.Kept ra := by
  have := State.tcLookup_kept (k := k) s sl key r hs
  rw [ht] at this
  exact this

theorem State.lpmLookup_kept {k : State} (s : State) (x1 : Nat) (n : Nat) (key : List Byte) (r : Nat) (hs : k.Kept s)
  : k.Kept (State.lpmLookup s x1 n key r).1 := by
  unfold State.lpmLookup
  try dsimp only
  with_reducible repeat' first
    | assumption | apply State.count64_kept | intro _ _ | split | dsimp only
    | refine State.Kept.mk_same ?_ (by rfl) (by rfl)

theorem State.lpmLookup_kept_eq {k : State} {s : State} {x1 : Nat} {n : Nat} {key : List Byte} {r : Nat} {ra rb} (ht
  : State.lpmLookup s x1 n key r = (ra, rb)) (hs : k.Kept s) : k.Kept ra := by
  have := State.lpmLookup_kept (k := k) s x1 n key r hs
  rw [ht] at this
  exact this

theorem State.learnSubmit_kept {k : State} (s : State) (x1 : Nat) (t : Nat) (key : List Byte) (src : Nat) (hs :
  k.Kept s) : k.Kept (State.learnSubmit s x1 t key src) := by
  unfold State.learnSubmit
  try dsimp only
  with_reducible repeat' first
    | assumption | apply State.count_kept | apply State.raise_kept | apply State.setWood_kept | intro _ _ | split
    | dsimp only | refine State.Kept.mk_same ?_ (by rfl) (by rfl)

theorem State.emLookup_kept {k : State} (s : State) (x1 : Nat) (t : Nat) (key : List Byte) (r : Nat) (hitset : Bool)
  (src : Nat) (learn : Bool) (hs : k.Kept s) : k.Kept (State.emLookup s x1 t key r hitset src learn).1 := by
  unfold State.emLookup
  try dsimp only
  with_reducible repeat' first
    | assumption | apply State.setEmW_kept | apply State.learnSubmit_kept | apply State.count64_kept | intro _ _ | split
    | dsimp only | refine State.Kept.mk_same ?_ (by rfl) (by rfl)

theorem State.emLookup_kept_eq {k : State} {s : State} {x1 : Nat} {t : Nat} {key : List Byte} {r : Nat} {hitset :
  Bool} {src : Nat} {learn : Bool} {ra rb} (ht : State.emLookup s x1 t key r hitset src learn = (ra, rb)) (hs :
  k.Kept s) : k.Kept ra := by
  have := State.emLookup_kept (k := k) s x1 t key r hitset src learn hs
  rw [ht] at this
  exact this

theorem State.moveEntry_kept {k : State} (s : State) (x1 : Nat) (src : Nat) (d : Nat) (hs : k.Kept s) : k.Kept
  (State.moveEntry s x1 src d) := by
  unfold State.moveEntry
  try dsimp only
  with_reducible repeat' first
    | assumption | apply State.copyEntry_kept | apply State.leaveSlot_kept | intro _ _ | split | dsimp only

/-! ### LearnOps -/

theorem State.tellEast_kept {k : State} (s : State) (t : Nat) (key : List Byte) (op : EastOp) (w : Word) (hs : k.Kept
  s) : k.Kept (State.tellEast s t key op w) := by
  unfold State.tellEast
  try dsimp only
  with_reducible repeat' first
    | assumption | intro _ _ | split | dsimp only | refine State.Kept.mk_same ?_ (by rfl) (by rfl)

theorem State.learnNotice_kept {k : State} (s : State) (x1 : Nat) (t : Nat) (key : List Byte) (new : Nat) (old : Nat)
  (hs : k.Kept s) : k.Kept (State.learnNotice s x1 t key new old) := by
  unfold State.learnNotice
  try dsimp only
  with_reducible repeat' first
    | assumption | apply State.notice_kept | intro _ _ | split | dsimp only

theorem State.moveDest_kept {k : State} (s : State) (x1 : Nat) (loc : Nat) (d : Nat) (hs : k.Kept s) : k.Kept
  (State.moveDest s x1 loc d) := by
  unfold State.moveDest
  try dsimp only
  with_reducible repeat' first
    | assumption | apply State.setEmW_kept | apply State.setResult_kept | intro _ _ | split | dsimp only

theorem State.setDamp_kept {k : State} (s : State) (x1 : Nat) (loc : Nat) (d : Damp) (hs : k.Kept s) : k.Kept
  (State.setDamp s x1 loc d) := by
  unfold State.setDamp
  try dsimp only
  with_reducible repeat' first
    | assumption | apply State.setEmW_kept | intro _ _ | split | dsimp only

theorem State.learnMove_kept {k : State} (s : State) (t : Nat) (key : List Byte) (src : Nat) (loc : Nat) (old : Nat)
  (hs : k.Kept s) : k.Kept (State.learnMove s t key src loc old) := by
  unfold State.learnMove
  try dsimp only
  with_reducible repeat' first
    | assumption | apply State.count_kept | apply State.raise_kept | apply State.tellEast_kept
    | apply State.learnNotice_kept | apply State.moveDest_kept | apply State.count64_kept | apply State.setDamp_kept
    | intro _ _ | split | dsimp only

theorem State.learnNew_kept {k : State} (s : State) (t : Nat) (key : List Byte) (src : Nat) (hs : k.Kept s) : k.Kept
  (State.learnNew s t key src) := by
  unfold State.learnNew
  try dsimp only
  with_reducible repeat' first
    | assumption | apply State.tellEast_kept | apply State.learnNotice_kept | apply State.count64_kept
    | apply State.count_kept | apply State.raise_kept | refine State.placeEntry_kept (by assumption) ?_ | intro _ _ | split
    | dsimp only | refine State.Kept.mk_same ?_ (by rfl) (by rfl)

theorem State.learnProcess_kept {k : State} (s : State) (x : LearnReq) (hs : k.Kept s) : k.Kept (State.learnProcess s
  x) := by
  unfold State.learnProcess
  try dsimp only
  with_reducible repeat' first
    | assumption | apply State.learnMove_kept | apply State.learnNotice_kept | apply State.count_kept
    | apply State.raise_kept | apply State.learnNew_kept | intro _ _ | split | dsimp only
    | refine State.Kept.mk_same ?_ (by rfl) (by rfl)

theorem State.learnTake_kept {k : State} (s : State) (x1 : Nat) (hs : k.Kept s) : k.Kept (State.learnTake s x1) := by
  unfold State.learnTake
  try dsimp only
  with_reducible repeat' first
    | assumption | apply State.learnProcess_kept | apply State.count_kept | apply State.raise_kept
    | apply State.setWood_kept | intro _ _ | split | dsimp only | refine State.Kept.mk_same ?_ (by rfl) (by rfl)

theorem State.eastTake_kept {k : State} (s : State) (c : EastChange) (hs : k.Kept s) : k.Kept (State.eastTake s c) := by
  unfold State.eastTake
  try dsimp only
  with_reducible repeat' first
    | assumption | apply State.clearEntry_kept | apply State.setEmW_kept | refine State.placeEntry_kept (by assumption) ?_
    | apply State.moveDest_kept | apply State.setDamp_kept | intro _ _ | split | dsimp only
    | refine State.Kept.mk_same ?_ (by rfl) (by rfl)

theorem State.eastApply_kept {k : State} (s : State) (hs : k.Kept s) : k.Kept (State.eastApply s) := by
  unfold State.eastApply
  try dsimp only
  with_reducible repeat' first
    | assumption | apply State.eastTake_kept | intro _ _ | split | dsimp only
    | refine State.Kept.mk_same ?_ (by rfl) (by rfl)

theorem State.learnServe_kept {k : State} (s : State) (x1 : Nat) (x2 : Nat) (hs : k.Kept s) : k.Kept
  (State.learnServe s x1 x2) := by
  induction x2 generalizing s x1 with
  | zero =>
    unfold State.learnServe
    try dsimp only
    with_reducible repeat' first
      | assumption | apply State.learnTake_kept | apply State.eastApply_kept | intro _ _ | split | dsimp only
  | succ n ih =>
    unfold State.learnServe
    try dsimp only
    with_reducible repeat' first
      | assumption | apply ih | apply State.learnTake_kept | apply State.eastApply_kept | intro _ _ | split | dsimp only

/-! ### BankOps -/

theorem State.tcFault_kept {k : State} (s : State) (sl : Nat) (e : Nat) (hs : k.Kept s) : k.Kept (State.tcFault s sl
  e) := by
  unfold State.tcFault
  try dsimp only
  with_reducible repeat' first
    | assumption | apply State.setMemW_kept | apply State.count_kept | apply State.raise_kept | intro _ _ | split
    | dsimp only

theorem State.migStart_kept {k : State} (s : State) (x1 : Nat) (bank : Nat) (hs : k.Kept s) : k.Kept (State.migStart
  s x1 bank) := by
  unfold State.migStart
  try dsimp only
  with_reducible repeat' first
    | assumption | apply State.setWood_kept | apply State.raise_kept | intro _ _ | split | dsimp only
    | refine State.Kept.mk_same ?_ (by rfl) (by rfl)

theorem State.migAsk_kept {k : State} (s : State) (x1 : Nat) (bank : Nat) (hs : k.Kept s) : k.Kept (State.migAsk s x1
  bank) := by
  unfold State.migAsk
  try dsimp only
  with_reducible repeat' first
    | assumption | apply State.setWood_kept | apply State.migStart_kept | intro _ _ | split | dsimp only
    | refine State.Kept.mk_same ?_ (by rfl) (by rfl)

theorem State.corrected_kept {k : State} (s : State) (x1 : Nat) (bank : Nat) (hs : k.Kept s) : k.Kept
  (State.corrected s x1 bank) := by
  unfold State.corrected
  try dsimp only
  with_reducible repeat' first
    | assumption | apply State.setWood_kept | apply State.migAsk_kept | intro _ _ | split | dsimp only
    | refine State.Kept.mk_same ?_ (by rfl) (by rfl)

theorem State.uncorrected_kept {k : State} (s : State) (x1 : Nat) (l : Nat) (hs : k.Kept s) : k.Kept
  (State.uncorrected s x1 l) := by
  unfold State.uncorrected
  try dsimp only
  with_reducible repeat' first
    | assumption | apply State.raise_kept | apply State.migAsk_kept | apply State.setReg_kept | apply State.count_kept
    | apply State.setEmSlot_kept | apply State.setWood_kept | intro _ _ | split | dsimp only
    | refine State.Kept.mk_same ?_ (by rfl) (by rfl)

theorem State.woodEcc_kept {k : State} (s : State) (x1 : Nat) (l : Nat) (uncorr : Bool) (hs : k.Kept s) : k.Kept
  (State.woodEcc s x1 l uncorr) := by
  unfold State.woodEcc
  try dsimp only
  with_reducible repeat' first
    | assumption | apply State.count_kept | apply State.raise_kept | apply State.corrected_kept
    | apply State.uncorrected_kept | intro _ _ | split | dsimp only

theorem State.copyPos_kept {k : State} (s : State) (x1 : Nat) (from_ : Nat) (dst : Nat) (u : Nat) (hs : k.Kept s) :
  k.Kept (State.copyPos s x1 from_ dst u) := by
  unfold State.copyPos
  try dsimp only
  with_reducible repeat' first
    | assumption | apply State.setMemWs_kept | intro _ _ | split | dsimp only

theorem State.copyBack_kept {k : State} (s : State) (x1 : Nat) (from_ : Nat) (dst : Nat) (x4 : Nat) (hs : k.Kept s) :
  k.Kept (State.copyBack s x1 from_ dst x4) := by
  induction x4 generalizing s x1 from_ dst with
  | zero =>
    unfold State.copyBack
    try dsimp only
    with_reducible repeat' first
      | assumption | apply State.copyPos_kept | intro _ _ | split | dsimp only
  | succ n ih =>
    unfold State.copyBack
    try dsimp only
    with_reducible repeat' first
      | assumption | apply ih | apply State.copyPos_kept | intro _ _ | split | dsimp only

theorem State.migDrop_kept {k : State} (s : State) (x1 : Nat) (hs : k.Kept s) : k.Kept (State.migDrop s x1) := by
  unfold State.migDrop
  try dsimp only
  with_reducible repeat' first
    | assumption | apply State.copyBack_kept | apply State.setWood_kept | intro _ _ | split | dsimp only
    | refine State.Kept.mk_same ?_ (by rfl) (by rfl)

theorem State.migGo_kept {k : State} (s : State) (x1 : Nat) (bank : Nat) (hs : k.Kept s) : k.Kept (State.migGo s x1
  bank) := by
  unfold State.migGo
  try dsimp only
  with_reducible repeat' first
    | assumption | apply State.setRf_kept | apply State.migStart_kept | intro _ _ | split | dsimp only

theorem State.migEnd_kept {k : State} (s : State) (x1 : Nat) (m : Mig) (hs : k.Kept s) : k.Kept (State.migEnd s x1 m)
  := by
  unfold State.migEnd
  try dsimp only
  with_reducible repeat' first
    | assumption | apply State.raise_kept | apply State.setWood_kept | intro _ _ | split | dsimp only
    | refine State.Kept.mk_same ?_ (by rfl) (by rfl)

/-! ### KerfOps -/

theorem State.pairAdd_kept {k : State} (s : State) (pg : Nat) (x2 : Nat) (n : Nat) (b : Nat) (hs : k.Kept s) : k.Kept
  (State.pairAdd s pg x2 n b) := by
  unfold State.pairAdd
  try dsimp only
  with_reducible repeat' first
    | assumption | apply State.setMemWs_kept | intro _ _ | split | dsimp only

theorem State.setMeter_kept {k : State} (s : State) (pg : Nat) (m : Nat) (x : MeterS) (hs : k.Kept s) : k.Kept
  (State.setMeter s pg m x) := by
  unfold State.setMeter
  try dsimp only
  with_reducible repeat' first
    | assumption | intro _ _ | split | dsimp only | refine State.Kept.mk_same ?_ (by rfl) (by rfl)

theorem State.lateCharge_kept {k : State} (s : State) (len : Nat) (l : LateItem) (hs : k.Kept s) : k.Kept
  (State.lateCharge s len l) := by
  unfold State.lateCharge
  try dsimp only
  with_reducible repeat' first
    | assumption | apply State.setMeter_kept | intro _ _ | split | dsimp only
    | refine State.Kept.mk_same ?_ (by rfl) (by rfl)

theorem State.lateItems_kept {k : State} (s : State) (len : Nat) (x2 : List LateItem) (hs : k.Kept s) : k.Kept
  (State.lateItems s len x2) := by
  induction x2 generalizing s len with
  | nil =>
    unfold State.lateItems
    try dsimp only
    with_reducible repeat' first
      | assumption | apply State.pairAdd_kept | apply State.lateCharge_kept | intro _ _ | split | dsimp only
  | cons a l ih =>
    unfold State.lateItems
    try dsimp only
    with_reducible repeat' first
      | assumption | apply ih | apply State.pairAdd_kept | apply State.lateCharge_kept | intro _ _ | split | dsimp only

theorem State.lateDue_kept {k : State} (s : State) (root : Nat) (len : Nat) (hs : k.Kept s) : k.Kept (State.lateDue s
  root len) := by
  unfold State.lateDue
  try dsimp only
  with_reducible repeat' first
    | assumption | apply State.lateItems_kept | intro _ _ | split | dsimp only
    | refine State.Kept.mk_same ?_ (by rfl) (by rfl)

theorem State.setMicro_kept {k : State} (s : State) (pg : Nat) (b : Nat) (a : Nat) (w : Nat) (hs : k.Kept s) : k.Kept
  (State.setMicro s pg b a w) := by
  unfold State.setMicro
  try dsimp only
  with_reducible repeat' first
    | assumption | apply State.setMemWs_kept | intro _ _ | split | dsimp only

theorem State.toStage_kept {k : State} (s : State) (sl : Nat) (key : Nat) (i : Nat) (hs : k.Kept s) : k.Kept
  (State.toStage s sl key i) := by
  unfold State.toStage
  try dsimp only
  with_reducible repeat' first
    | assumption | apply State.setSlice_kept | intro _ _ | split | dsimp only

theorem State.dropIngress_kept {k : State} (s : State) (i : Nat) (sl : Nat) (reason : Nat) (hs : k.Kept s) : k.Kept
  (State.dropIngress s i sl reason) := by
  unfold State.dropIngress
  try dsimp only
  with_reducible repeat' first
    | assumption | apply State.dropNull_kept | apply State.setFrame_kept | intro _ _ | split | dsimp only
    | refine State.Kept.mk_same ?_ (by rfl) (by rfl)

theorem State.puntFrame_kept {k : State} (s : State) (i : Nat) (x2 : Nat) (hs : k.Kept s) : k.Kept (State.puntFrame s
  i x2) := by
  unfold State.puntFrame
  try dsimp only
  with_reducible repeat' first
    | assumption | apply State.toStep4_kept | apply State.count_kept | apply State.dropNull_kept | intro _ _ | split
    | dsimp only

theorem State.puntStage_kept {k : State} (s : State) (i : Nat) (sl : Nat) (dir : Dir) (code : Nat) (hs : k.Kept s) :
  k.Kept (State.puntStage s i sl dir code) := by
  unfold State.puntStage
  try dsimp only
  with_reducible repeat' first
    | assumption | apply State.settleDeficit_kept | apply State.giveUp_kept | apply State.setFrame_kept
    | apply State.puntFrame_kept | intro _ _ | split | dsimp only | refine State.Kept.mk_same ?_ (by rfl) (by rfl)

theorem State.dropStage_kept {k : State} (s : State) (i : Nat) (sl : Nat) (dir : Dir) (reason : Nat) (hs : k.Kept s)
  : k.Kept (State.dropStage s i sl dir reason) := by
  unfold State.dropStage
  try dsimp only
  with_reducible repeat' first
    | assumption | apply State.dropQueued_kept | apply State.dropIngress_kept | intro _ _ | split | dsimp only
    | refine State.Kept.mk_same ?_ (by rfl) (by rfl)

theorem State.tdCycle_kept {k : State} (s : State) (e : Nat) (gone : Bool) (hs : k.Kept s) : k.Kept (State.tdCycle s
  e gone) := by
  unfold State.tdCycle
  try dsimp only
  with_reducible repeat' first
    | assumption | intro _ _ | split | dsimp only | refine State.Kept.mk_same ?_ (by rfl) (by rfl)

theorem State.tdGone_kept {k : State} (s : State) (e : Nat) (x2 : Nat) (hs : k.Kept s) : k.Kept (State.tdGone s e x2)
  := by
  induction x2 generalizing s e with
  | zero =>
    unfold State.tdGone
    try dsimp only
    with_reducible repeat' first
      | assumption | apply State.tdCycle_kept | intro _ _ | split | dsimp only
  | succ n ih =>
    unfold State.tdGone
    try dsimp only
    with_reducible repeat' first
      | assumption | apply ih | apply State.tdCycle_kept | intro _ _ | split | dsimp only

theorem State.addLate_kept {k : State} (s : State) (f : Frame) (l : LateItem) (hs : k.Kept s) : k.Kept (State.addLate
  s f l) := by
  unfold State.addLate
  try dsimp only
  with_reducible repeat' first
    | assumption | apply State.lateItems_kept | intro _ _ | split | dsimp only
    | refine State.Kept.mk_same ?_ (by rfl) (by rfl)

theorem State.microLookup_kept {k : State} (s : State) (sl : Nat) (dir : Dir) (pg : Nat) (b : Nat) (w : Nat) (f :
  Frame) (key : List Byte) (hs : k.Kept s) : k.Kept (State.microLookup s sl dir pg b w f key).1 := by
  unfold State.microLookup
  try dsimp only
  with_reducible repeat' first
    | assumption | apply State.tcLookup_kept | refine State.tcLookup_kept_eq (by assumption) ?_
    | apply State.lpmLookup_kept | refine State.lpmLookup_kept_eq (by assumption) ?_ | apply State.emLookup_kept
    | refine State.emLookup_kept_eq (by assumption) ?_ | intro _ _ | split | dsimp only

theorem State.microLookup_kept_eq {k : State} {s : State} {sl : Nat} {dir : Dir} {pg : Nat} {b : Nat} {w : Nat} {f :
  Frame} {key : List Byte} {ra rb} (ht : State.microLookup s sl dir pg b w f key = (ra, rb)) (hs : k.Kept s) : k.Kept
  ra := by
  have := State.microLookup_kept (k := k) s sl dir pg b w f key hs
  rw [ht] at this
  exact this

/-! ### TimeCmds -/

theorem State.markSuspect_kept {k : State} (s : State) (q : Nat) (hs : k.Kept s) : k.Kept (State.markSuspect s q) := by
  unfold State.markSuspect
  try dsimp only
  with_reducible repeat' first
    | assumption | apply State.setRf_kept | intro _ _ | split | dsimp only

theorem State.markSuspects_kept {k : State} (s : State) (x1 : List Nat) (hs : k.Kept s) : k.Kept (State.markSuspects
  s x1) := by
  induction x1 generalizing s with
  | nil =>
    unfold State.markSuspects
    try dsimp only
    with_reducible repeat' first
      | assumption | apply State.markSuspect_kept | intro _ _ | split | dsimp only
  | cons a l ih =>
    unfold State.markSuspects
    try dsimp only
    with_reducible repeat' first
      | assumption | apply ih | apply State.markSuspect_kept | intro _ _ | split | dsimp only

theorem State.setPtp_kept {k : State} (s : State) (t : Nat) (frac : Nat) (hs : k.Kept s) : k.Kept (State.setPtp s t
  frac) := by
  unfold State.setPtp
  try dsimp only
  with_reducible repeat' first
    | assumption | apply State.raise_kept | apply State.markSuspects_kept | intro _ _ | split | dsimp only
    | refine State.Kept.mk_same ?_ (by rfl) (by rfl)

theorem State.timeStep_kept {k : State} (s : State) (hs : k.Kept s) : k.Kept (State.timeStep s) := by
  unfold State.timeStep
  try dsimp only
  with_reducible repeat' first
    | assumption | apply State.setPtp_kept | intro _ _ | split | dsimp only

theorem State.timeSet_kept {k : State} (s : State) (hs : k.Kept s) : k.Kept (State.timeSet s) := by
  unfold State.timeSet
  try dsimp only
  with_reducible repeat' first
    | assumption | apply State.setPtp_kept | intro _ _ | split | dsimp only

theorem State.ppsCapture_kept {k : State} (s : State) (hs : k.Kept s) : k.Kept (State.ppsCapture s) := by
  unfold State.ppsCapture
  try dsimp only
  with_reducible repeat' first
    | assumption | apply State.raise_kept | apply State.setReg_kept | apply State.setReg64_kept | intro _ _ | split
    | dsimp only

theorem execRefLoss_kept {k : State} {s : State} {rr : State} (ht : execRefLoss s = .next rr) (hs : k.Kept s) :
  k.Kept rr := by
  refine State.run_kept (fun s hs => ?_) hs ht
  try dsimp only
  with_reducible repeat' first
    | assumption | apply State.raise_kept | apply State.onlyIf_kept | intro _ _ | split | dsimp only

theorem execPpsIn_kept {k : State} {rising : Bool} {s : State} {rr : State} (ht : execPpsIn rising s = .next rr) (hs
  : k.Kept s) : k.Kept rr := by
  refine State.run_kept (fun s hs => ?_) hs ht
  try dsimp only
  with_reducible repeat' first
    | assumption | apply State.ppsCapture_kept | apply State.onlyIf_kept | intro _ _ | split | dsimp only

theorem execPpsOut_kept {k : State} {level : Bool} {s : State} {rr : State} (ht : execPpsOut level s = .next rr) (hs
  : k.Kept s) : k.Kept rr := by
  refine State.run_kept (fun s hs => ?_) hs ht
  try dsimp only
  with_reducible repeat' first
    | assumption | apply State.onlyIf_kept | intro _ _ | split | dsimp only
    | refine State.Kept.mk_same ?_ (by rfl) (by rfl)

end Sys2Proof.Machine
end

