-- ==== Sys2Proof/Laws/KeptLines.lean ====
section
/-! SUPPORT. State.Kept, one lemma for each function of the state: spans, lanes, counters, deparsing, Raft and ingress. -/

namespace Sys2Proof.Machine

/-! ### SpanOps -/

theorem State.pairRaise_kept {k : State} (s : State) (old : State) (x2 : List Nat) (hs : k.Kept s) (hold : k.Kept
  old) : k.Kept (State.pairRaise s old x2) := by
  induction x2 generalizing s old with
  | nil =>
    unfold State.pairRaise
    try dsimp only
    with_reducible repeat' first
      | assumption | apply State.raiseIf_kept | intro _ _ | split | dsimp only
  | cons a l ih =>
    unfold State.pairRaise
    try dsimp only
    with_reducible repeat' first
      | assumption | apply ih | apply State.raiseIf_kept | intro _ _ | split | dsimp only

theorem State.conflictRaise_kept {k : State} (s : State) (old : State) (x2 : List Nat) (hs : k.Kept s) (hold : k.Kept
  old) : k.Kept (State.conflictRaise s old x2) := by
  induction x2 generalizing s old with
  | nil =>
    unfold State.conflictRaise
    try dsimp only
    with_reducible repeat' first
      | assumption | apply State.raiseIf_kept | intro _ _ | split | dsimp only
  | cons a l ih =>
    unfold State.conflictRaise
    try dsimp only
    with_reducible repeat' first
      | assumption | apply ih | apply State.raiseIf_kept | intro _ _ | split | dsimp only

theorem State.spanEvents_kept {k : State} (s : State) (old : State) (sl : Nat) (hs : k.Kept s) (hold : k.Kept old) :
  k.Kept (State.spanEvents s old sl) := by
  unfold State.spanEvents
  try dsimp only
  with_reducible repeat' first
    | assumption | apply State.pairRaise_kept | apply State.conflictRaise_kept | intro _ _ | split | dsimp only

theorem State.chLose_kept {k : State} (s : State) (q : Nat) (hs : k.Kept s) : k.Kept (State.chLose s q) := by
  unfold State.chLose
  try dsimp only
  with_reducible repeat' first
    | assumption | apply State.count_kept | apply State.raise_kept | intro _ _ | split | dsimp only

theorem State.chTake_kept {k : State} (s : State) (q : Nat) (path : Bool) (b : Byte) (hs : k.Kept s) : k.Kept
  (State.chTake s q path b) := by
  unfold State.chTake
  try dsimp only
  with_reducible repeat' first
    | assumption | apply State.chLose_kept | apply State.setSpan_kept | intro _ _ | split | dsimp only
    | refine State.Kept.mk_same ?_ (by rfl) (by rfl)

theorem State.spanChannels_kept {k : State} (s : State) (q : Nat) (f : List Byte) (hs : k.Kept s) : k.Kept
  (State.spanChannels s q f) := by
  unfold State.spanChannels
  try dsimp only
  with_reducible repeat' first
    | assumption | apply State.chLose_kept | apply State.setSpan_kept | apply State.chTake_kept | intro _ _ | split
    | dsimp only | refine State.Kept.mk_same ?_ (by rfl) (by rfl)

theorem State.putSpan_kept {k : State} (s : State) (q : Nat) (x : SpanS) (hs : k.Kept s) : k.Kept (State.putSpan s q
  x) := by
  unfold State.putSpan
  try dsimp only
  with_reducible repeat' first
    | assumption | apply State.setSpan_kept | intro _ _ | split | dsimp only

theorem State.spanLos_kept {k : State} (s : State) (q : Nat) (hs : k.Kept s) : k.Kept (State.spanLos s q) := by
  unfold State.spanLos
  try dsimp only
  with_reducible repeat' first
    | assumption | apply State.putSpan_kept | apply State.raise_kept | intro _ _ | split | dsimp only
    | refine State.Kept.mk_same ?_ (by rfl) (by rfl)

theorem State.spanLom_kept {k : State} (s : State) (q : Nat) (hs : k.Kept s) : k.Kept (State.spanLom s q) := by
  unfold State.spanLom
  try dsimp only
  with_reducible repeat' first
    | assumption | apply State.putSpan_kept | apply State.raise_kept | intro _ _ | split | dsimp only
    | refine State.Kept.mk_same ?_ (by rfl) (by rfl)

theorem State.spanLof_kept {k : State} (s : State) (q : Nat) (hs : k.Kept s) : k.Kept (State.spanLof s q) := by
  unfold State.spanLof
  try dsimp only
  with_reducible repeat' first
    | assumption | apply State.putSpan_kept | apply State.raise_kept | intro _ _ | split | dsimp only
    | refine State.Kept.mk_same ?_ (by rfl) (by rfl)

theorem State.spanLosClear_kept {k : State} (s : State) (q : Nat) (hs : k.Kept s) : k.Kept (State.spanLosClear s q)
  := by
  unfold State.spanLosClear
  try dsimp only
  with_reducible repeat' first
    | assumption | apply State.putSpan_kept | apply State.raise_kept | intro _ _ | split | dsimp only
    | refine State.Kept.mk_same ?_ (by rfl) (by rfl)

theorem State.spanPayload_kept {k : State} (s : State) (q : Nat) (area : List Byte) (w : Nat) (hs : k.Kept s) :
  k.Kept (State.spanPayload s q area w) := by
  unfold State.spanPayload
  try dsimp only
  with_reducible repeat' first
    | assumption | apply State.count64_kept | apply State.putSpan_kept | apply State.count_kept | intro _ _ | split
    | dsimp only | refine State.Kept.mk_same ?_ (by rfl) (by rfl)

theorem State.spanTrace_kept {k : State} (s : State) (q : Nat) (i : Nat) (b : Byte) (hs : k.Kept s) : k.Kept
  (State.spanTrace s q i b) := by
  unfold State.spanTrace
  try dsimp only
  with_reducible repeat' first
    | assumption | apply State.raiseIf_kept | apply State.setSpan_kept | apply State.setMemW_kept | intro _ _ | split
    | dsimp only | refine State.Kept.mk_same ?_ (by rfl) (by rfl)

theorem State.spanCounts_kept {k : State} (s : State) (q : Nat) (errs : Nat) (rei : Nat) (hs : k.Kept s) : k.Kept
  (State.spanCounts s q errs rei) := by
  unfold State.spanCounts
  try dsimp only
  with_reducible repeat' first
    | assumption | apply State.count64_kept | apply State.setSpan_kept | intro _ _ | split | dsimp only
    | refine State.Kept.mk_same ?_ (by rfl) (by rfl)

theorem State.spanShadow_kept {k : State} (s : State) (q : Nat) (x : SpanS) (f : List Byte) (hs : k.Kept s) : k.Kept
  (State.spanShadow s q x f) := by
  unfold State.spanShadow
  try dsimp only
  with_reducible repeat' first
    | assumption | apply State.count_kept | apply State.raise_kept | apply State.putSpan_kept | intro _ _ | split
    | dsimp only

theorem State.spanStatus_kept {k : State} (s : State) (q : Nat) (pais : Bool) (srdi : Bool) (prdi : Bool) (hs :
  k.Kept s) : k.Kept (State.spanStatus s q pais srdi prdi) := by
  unfold State.spanStatus
  try dsimp only
  with_reducible repeat' first
    | assumption | apply State.raiseIf_kept | apply State.putSpan_kept | intro _ _ | split | dsimp only
    | refine State.Kept.mk_same ?_ (by rfl) (by rfl)

theorem State.spanFrame_kept {k : State} (s : State) (q : Nat) (f : List Byte) (hs : k.Kept s) : k.Kept
  (State.spanFrame s q f) := by
  unfold State.spanFrame
  extract_lets x par st ps rei x1 status x2 src1 s1 x3 errs x4 s2 x5 s3 src2 s4 s5 s6
  have hst : ∀ t, k.Kept t → k.Kept (status t) := fun t ht => State.spanStatus_kept _ _ _ _ _ ht
  clear_value status
  split
  · exact hst _ (State.spanShadow_kept _ _ _ _ hs)
  · split
    · exact State.count_kept _ _ _ _ (State.putSpan_kept _ _ _ hs)
    · have h2 : k.Kept s2 := hst _ (State.spanShadow_kept _ _ _ _ hs)
      clear_value s2
      split
      · have h4 : k.Kept s4 := State.setSpan_kept _ _ _ (State.spanCounts_kept _ _ _ _ h2)
        have h5 : k.Kept s5 := State.spanTrace_kept _ _ _ _ h4
        have h6 : k.Kept s6 := by
          dsimp only [s6]; split
          · exact State.spanChannels_kept _ _ _ h5
          · exact h5
        exact State.spanPayload_kept _ _ _ _ h6
      · exact h2

theorem State.spanTake_kept {k : State} (s : State) (q : Nat) (x2 : Nat) (hs : k.Kept s) : k.Kept (State.spanTake s q
  x2) := by
  induction x2 generalizing s q with
  | zero =>
    unfold State.spanTake
    try dsimp only
    with_reducible repeat' first
      | assumption | apply State.setSpan_kept | apply State.spanFrame_kept | apply State.putSpan_kept
      | apply State.count_kept | intro _ _ | split | dsimp only | refine State.Kept.mk_same ?_ (by rfl) (by rfl)
  | succ n ih =>
    unfold State.spanTake
    try dsimp only
    with_reducible repeat' first
      | assumption | apply ih | apply State.setSpan_kept | apply State.spanFrame_kept | apply State.putSpan_kept
      | apply State.count_kept | intro _ _ | split | dsimp only | refine State.Kept.mk_same ?_ (by rfl) (by rfl)

theorem State.spanReceive_kept {k : State} (s : State) (q : Nat) (bs : List Byte) (hs : k.Kept s) : k.Kept
  (State.spanReceive s q bs) := by
  unfold State.spanReceive
  try dsimp only
  with_reducible repeat' first
    | assumption | apply State.spanTake_kept | apply State.setSpan_kept | intro _ _ | split | dsimp only
    | refine State.Kept.mk_same ?_ (by rfl) (by rfl)

theorem State.chSend_kept {k : State} (s : State) (q : Nat) (path : Bool) (hs : k.Kept s) : k.Kept (State.chSend s q
  path).2 := by
  unfold State.chSend
  dsimp only
  repeat' split
  all_goals first | exact hs | exact State.setSpan_kept _ _ _ hs

theorem State.chSend_kept_eq {k : State} {s : State} {q : Nat} {path : Bool} {ra rb} (ht : State.chSend s q path =
  (ra, rb)) (hs : k.Kept s) : k.Kept rb := by
  have := State.chSend_kept (k := k) s q path hs
  rw [ht] at this
  exact this

theorem State.spanSend_kept {k : State} (s : State) (q : Nat) (hs : k.Kept s) : k.Kept (State.spanSend s q) := by
  unfold State.spanSend
  try dsimp only
  with_reducible repeat' first
    | assumption | apply State.count64_kept | apply State.setRf_kept | apply State.transmit_kept | apply State.setSpan_kept
    | apply State.chSend_kept | refine State.chSend_kept_eq (by assumption) ?_ | intro _ _ | split | dsimp only
    | refine State.Kept.mk_same ?_ (by rfl) (by rfl)

/-! ### LaneOps -/

theorem State.pfcSlice_kept {k : State} (s : State) (x1 : List Nat) (hs : k.Kept s) : k.Kept (State.pfcSlice s x1) := by
  induction x1 generalizing s with
  | nil =>
    unfold State.pfcSlice
    try dsimp only
    with_reducible repeat' first
      | assumption | apply State.pfcEvalAll_kept | intro _ _ | split | dsimp only
  | cons a l ih =>
    unfold State.pfcSlice
    try dsimp only
    with_reducible repeat' first
      | assumption | apply ih | apply State.pfcEvalAll_kept | intro _ _ | split | dsimp only

theorem State.completeRoot_kept {k : State} (s : State) (root : Nat) (data : List Byte) (reason : Nat) (hs : k.Kept
  s) : k.Kept (State.completeRoot s root data reason) := by
  unfold State.completeRoot
  try dsimp only
  with_reducible repeat' first
    | assumption | apply State.lateDue_kept | apply State.settleRoot_kept | apply State.pfcSlice_kept | intro _ _ | split
    | dsimp only | refine State.Kept.mk_same ?_ (by rfl) (by rfl)

theorem State.rxAbort_kept {k : State} (s : State) (p : Nat) (hs : k.Kept s) : k.Kept (State.rxAbort s p) := by
  unfold State.rxAbort
  try dsimp only
  with_reducible repeat' first
    | assumption | apply State.accountEarly_kept | apply State.completeRoot_kept | apply State.count64_kept
    | apply State.setPort_kept | intro _ _ | split | dsimp only | refine State.Kept.mk_same ?_ (by rfl) (by rfl)

theorem State.laneDrift_kept {k : State} (s : State) (l : Nat) (hs : k.Kept s) : k.Kept (State.laneDrift s l) := by
  unfold State.laneDrift
  try dsimp only
  with_reducible repeat' first
    | assumption | apply State.setLane_kept | apply State.drawn_kept | intro _ _ | split | dsimp only
    | refine State.Kept.mk_same ?_ (by rfl) (by rfl)

theorem State.lanesDrift_kept {k : State} (s : State) (x1 : List Nat) (hs : k.Kept s) : k.Kept (State.lanesDrift s
  x1) := by
  induction x1 generalizing s with
  | nil =>
    unfold State.lanesDrift
    try dsimp only
    with_reducible repeat' first
      | assumption | apply State.laneDrift_kept | intro _ _ | split | dsimp only
  | cons a l ih =>
    unfold State.lanesDrift
    try dsimp only
    with_reducible repeat' first
      | assumption | apply ih | apply State.laneDrift_kept | intro _ _ | split | dsimp only

theorem State.pllApply_kept {k : State} (s : State) (m : Nat) (x2 : Nat) (hs : k.Kept s) : k.Kept (State.pllApply s m
  x2) := by
  unfold State.pllApply
  try dsimp only
  with_reducible repeat' first
    | assumption | apply State.setMacro_kept | intro _ _ | split | dsimp only

theorem State.linkFall_kept {k : State} (s : State) (p : Nat) (en : Bool) (hs : k.Kept s) : k.Kept (State.linkFall s
  p en) := by
  unfold State.linkFall
  try dsimp only
  with_reducible repeat' first
    | assumption | apply State.queuesOff_kept | apply State.queuesFall_kept | apply State.nbrDown_kept
    | apply State.helloForget_kept | apply State.rxAbort_kept | apply State.count_kept | apply State.raise_kept
    | apply State.setPort_kept | intro _ _ | split | dsimp only | refine State.Kept.mk_same ?_ (by rfl) (by rfl)

theorem State.laneCtle_kept {k : State} (s : State) (l : Nat) (hs : k.Kept s) : k.Kept (State.laneCtle s l) := by
  unfold State.laneCtle
  try dsimp only
  with_reducible repeat' first
    | assumption | apply State.setLane_kept | intro _ _ | split | dsimp only
    | refine State.Kept.mk_same ?_ (by rfl) (by rfl)

theorem State.histOff_kept {k : State} (s : State) (old : State) (p : Nat) (hs : k.Kept s) : k.Kept (State.histOff s
  old p) := by
  unfold State.histOff
  try dsimp only
  with_reducible repeat' first
    | assumption | intro _ _ | split | dsimp only | refine State.Kept.mk_same ?_ (by rfl) (by rfl)

theorem State.rxCount_kept {k : State} (s : State) (p : Nat) (reason : Nat) (len : Nat) (hs : k.Kept s) : k.Kept
  (State.rxCount s p reason len) := by
  unfold State.rxCount
  try dsimp only
  with_reducible repeat' first
    | assumption | apply State.count64_kept | intro _ _ | split | dsimp only

theorem State.spanRxCount_kept {k : State} (s : State) (q : Nat) (reason : Nat) (len : Nat) (hs : k.Kept s) : k.Kept
  (State.spanRxCount s q reason len) := by
  unfold State.spanRxCount
  try dsimp only
  with_reducible repeat' first
    | assumption | apply State.rxCount_kept | apply State.count64_kept | intro _ _ | split | dsimp only

theorem State.spanDiscard_kept {k : State} (s : State) (q : Nat) (x2 : SpanPkt) (reason : Nat) (hs : k.Kept s) :
  k.Kept (State.spanDiscard s q x2 reason) := by
  unfold State.spanDiscard
  try dsimp only
  with_reducible repeat' first
    | assumption | apply State.accountEarly_kept | apply State.completeRoot_kept | apply State.bwAdd_kept
    | apply State.spanRxCount_kept | intro _ _ | split | dsimp only | refine State.Kept.mk_same ?_ (by rfl) (by rfl)

theorem State.spanFlush_kept {k : State} (s : State) (q : Nat) (x2 : List SpanPkt) (hs : k.Kept s) : k.Kept
  (State.spanFlush s q x2) := by
  induction x2 generalizing s q with
  | nil =>
    unfold State.spanFlush
    try dsimp only
    with_reducible repeat' first
      | assumption | apply State.spanDiscard_kept | intro _ _ | split | dsimp only
  | cons a l ih =>
    unfold State.spanFlush
    try dsimp only
    with_reducible repeat' first
      | assumption | apply ih | apply State.spanDiscard_kept | intro _ _ | split | dsimp only

theorem State.spanStart_kept {k : State} (s : State) (old : State) (p : Nat) (on : Bool) (hs : k.Kept s) (hold :
  k.Kept old) : k.Kept (State.spanStart s old p on) := by
  unfold State.spanStart
  try dsimp only
  with_reducible repeat' first
    | assumption | apply State.histOff_kept | apply State.spanEvents_kept | apply State.setSpan_kept
    | apply State.putSpan_kept | apply State.raiseIf_kept | apply State.spanFlush_kept | apply State.markSuspect_kept
    | intro _ _ | split | dsimp only | refine State.Kept.mk_same ?_ (by rfl) (by rfl)

theorem State.lanesSave_kept {k : State} (s : State) (x1 : List Nat) (hs : k.Kept s) : k.Kept (State.lanesSave s x1)
  := by
  induction x1 generalizing s with
  | nil =>
    unfold State.lanesSave
    try dsimp only
    with_reducible repeat' first
      | assumption | apply State.setLane_kept | apply State.laneDrift_kept | intro _ _ | split | dsimp only
      | refine State.Kept.mk_same ?_ (by rfl) (by rfl)
  | cons a l ih =>
    unfold State.lanesSave
    try dsimp only
    with_reducible repeat' first
      | assumption | apply ih | apply State.setLane_kept | apply State.laneDrift_kept | intro _ _ | split | dsimp only
      | refine State.Kept.mk_same ?_ (by rfl) (by rfl)

theorem State.recalLive_kept {k : State} (s : State) (p : Nat) (hs : k.Kept s) : k.Kept (State.recalLive s p) := by
  unfold State.recalLive
  try dsimp only
  with_reducible repeat' first
    | assumption | apply State.setPort_kept | apply State.lanesSave_kept | intro _ _ | split | dsimp only
    | refine State.Kept.mk_same ?_ (by rfl) (by rfl)

theorem State.localOnset_kept {k : State} (s : State) (p : Nat) (hs : k.Kept s) : k.Kept (State.localOnset s p) := by
  unfold State.localOnset
  try dsimp only
  with_reducible repeat' first
    | assumption | apply State.count_kept | apply State.raise_kept | apply State.setPort_kept | intro _ _ | split
    | dsimp only | refine State.Kept.mk_same ?_ (by rfl) (by rfl)

theorem State.loseAlign_kept {k : State} (s : State) (p : Nat) (hs : k.Kept s) : k.Kept (State.loseAlign s p) := by
  unfold State.loseAlign
  try dsimp only
  with_reducible repeat' first
    | assumption | apply State.localOnset_kept | apply State.linkFall_kept | apply State.spanLos_kept
    | apply State.setPort_kept | intro _ _ | split | dsimp only | refine State.Kept.mk_same ?_ (by rfl) (by rfl)

theorem State.adopt_kept {k : State} (s : State) (l : Nat) (hs : k.Kept s) : k.Kept (State.adopt s l) := by
  unfold State.adopt
  try dsimp only
  with_reducible repeat' first
    | assumption | apply State.setLane_kept | apply State.raise_kept | intro _ _ | split | dsimp only
    | refine State.Kept.mk_same ?_ (by rfl) (by rfl)

theorem State.laneWake_kept {k : State} (s : State) (l : Nat) (hs : k.Kept s) : k.Kept (State.laneWake s l) := by
  unfold State.laneWake
  try dsimp only
  with_reducible repeat' first
    | assumption | apply State.setLane_kept | apply State.laneCtle_kept | apply State.adopt_kept | intro _ _ | split
    | dsimp only | refine State.Kept.mk_same ?_ (by rfl) (by rfl)

theorem State.laneRestart_kept {k : State} (s : State) (l : Nat) (hs : k.Kept s) : k.Kept (State.laneRestart s l) := by
  unfold State.laneRestart
  try dsimp only
  with_reducible repeat' first
    | assumption | apply State.setLane_kept | apply State.laneCtle_kept | apply State.laneDrift_kept
    | apply State.adopt_kept | apply State.laneWake_kept | intro _ _ | split | dsimp only
    | refine State.Kept.mk_same ?_ (by rfl) (by rfl)

theorem State.lanesRestart_kept {k : State} (s : State) (x1 : List Nat) (hs : k.Kept s) : k.Kept (State.lanesRestart
  s x1) := by
  induction x1 generalizing s with
  | nil =>
    unfold State.lanesRestart
    try dsimp only
    with_reducible repeat' first
      | assumption | apply State.laneRestart_kept | intro _ _ | split | dsimp only
  | cons a l ih =>
    unfold State.lanesRestart
    try dsimp only
    with_reducible repeat' first
      | assumption | apply ih | apply State.laneRestart_kept | intro _ _ | split | dsimp only

theorem State.laneRetrained_kept {k : State} (s : State) (l : Nat) (hs : k.Kept s) : k.Kept (State.laneRetrained s l)
  := by
  unfold State.laneRetrained
  try dsimp only
  with_reducible repeat' first
    | assumption | apply State.drawn_kept | apply State.setLane_kept | intro _ _ | split | dsimp only
    | refine State.Kept.mk_same ?_ (by rfl) (by rfl)

theorem State.lanesRetrained_kept {k : State} (s : State) (x1 : List Nat) (hs : k.Kept s) : k.Kept
  (State.lanesRetrained s x1) := by
  induction x1 generalizing s with
  | nil =>
    unfold State.lanesRetrained
    try dsimp only
    with_reducible repeat' first
      | assumption | apply State.laneRetrained_kept | intro _ _ | split | dsimp only
  | cons a l ih =>
    unfold State.lanesRetrained
    try dsimp only
    with_reducible repeat' first
      | assumption | apply ih | apply State.laneRetrained_kept | intro _ _ | split | dsimp only

theorem State.liveEnd_kept {k : State} (s : State) (p : Nat) (hs : k.Kept s) : k.Kept (State.liveEnd s p) := by
  unfold State.liveEnd
  try dsimp only
  with_reducible repeat' first
    | assumption | apply State.setPort_kept | apply State.lanesRetrained_kept | intro _ _ | split | dsimp only
    | refine State.Kept.mk_same ?_ (by rfl) (by rfl)

theorem State.recalFull_kept {k : State} (s : State) (p : Nat) (hs : k.Kept s) : k.Kept (State.recalFull s p) := by
  unfold State.recalFull
  try dsimp only
  with_reducible repeat' first
    | assumption | apply State.setPort_kept | apply State.loseAlign_kept | apply State.lanesRestart_kept
    | apply State.liveEnd_kept | intro _ _ | split | dsimp only | refine State.Kept.mk_same ?_ (by rfl) (by rfl)

theorem State.laneOff_kept {k : State} (s : State) (l : Nat) (hs : k.Kept s) : k.Kept (State.laneOff s l) := by
  unfold State.laneOff
  try dsimp only
  with_reducible repeat' first
    | assumption | apply State.setLane_kept | apply State.laneDrift_kept | intro _ _ | split | dsimp only

theorem State.lanesOff_kept {k : State} (s : State) (x1 : List Nat) (hs : k.Kept s) : k.Kept (State.lanesOff s x1) := by
  induction x1 generalizing s with
  | nil =>
    unfold State.lanesOff
    try dsimp only
    with_reducible repeat' first
      | assumption | apply State.laneOff_kept | intro _ _ | split | dsimp only
  | cons a l ih =>
    unfold State.lanesOff
    try dsimp only
    with_reducible repeat' first
      | assumption | apply ih | apply State.laneOff_kept | intro _ _ | split | dsimp only

theorem State.recalCut_kept {k : State} (s : State) (p : Nat) (hs : k.Kept s) : k.Kept (State.recalCut s p) := by
  unfold State.recalCut
  try dsimp only
  with_reducible repeat' first
    | assumption | apply State.setPort_kept | apply State.raise_kept | apply State.liveEnd_kept | intro _ _ | split
    | dsimp only | refine State.Kept.mk_same ?_ (by rfl) (by rfl)

theorem State.stopPort_kept {k : State} (s : State) (p : Nat) (hs : k.Kept s) : k.Kept (State.stopPort s p) := by
  unfold State.stopPort
  try dsimp only
  with_reducible repeat' first
    | assumption | apply State.pllApply_kept | apply State.setPort_kept | apply State.linkFall_kept
    | apply State.lanesOff_kept | apply State.rxAbort_kept | apply State.recalCut_kept | intro _ _ | split | dsimp only

theorem State.rejectCfg_kept {k : State} (s : State) (p : Nat) (code : Nat) (hs : k.Kept s) : k.Kept (State.rejectCfg
  s p code) := by
  unfold State.rejectCfg
  try dsimp only
  with_reducible repeat' first
    | assumption | apply State.setPort_kept | apply State.raise_kept | intro _ _ | split | dsimp only
    | refine State.Kept.mk_same ?_ (by rfl) (by rfl)

theorem State.recalDrop_kept {k : State} (s : State) (p : Nat) (hs : k.Kept s) : k.Kept (State.recalDrop s p) := by
  unfold State.recalDrop
  try dsimp only
  with_reducible repeat' first
    | assumption | apply State.setPort_kept | apply State.liveEnd_kept | intro _ _ | split | dsimp only
    | refine State.Kept.mk_same ?_ (by rfl) (by rfl)

theorem State.resetPort_kept {k : State} (s : State) (p : Nat) (hs : k.Kept s) : k.Kept (State.resetPort s p) := by
  unfold State.resetPort
  try dsimp only
  with_reducible repeat' first
    | assumption | apply State.stopPort_kept | apply State.rejectCfg_kept | apply State.setRf_kept
    | apply State.pllApply_kept | apply State.lanesRestart_kept | apply State.localOnset_kept | apply State.lanesOff_kept
    | apply State.setPort_kept | apply State.rxAbort_kept | apply State.linkFall_kept | apply State.recalDrop_kept
    | intro _ _ | split | dsimp only

theorem State.laneZero_kept {k : State} (s : State) (l : Nat) (hs : k.Kept s) : k.Kept (State.laneZero s l) := by
  unfold State.laneZero
  try dsimp only
  with_reducible repeat' first
    | assumption | apply State.setLane_kept | intro _ _ | split | dsimp only
    | refine State.Kept.mk_same ?_ (by rfl) (by rfl)

theorem State.lanesZero_kept {k : State} (s : State) (x1 : List Nat) (hs : k.Kept s) : k.Kept (State.lanesZero s x1)
  := by
  induction x1 generalizing s with
  | nil =>
    unfold State.lanesZero
    try dsimp only
    with_reducible repeat' first
      | assumption | apply State.laneZero_kept | intro _ _ | split | dsimp only
  | cons a l ih =>
    unfold State.lanesZero
    try dsimp only
    with_reducible repeat' first
      | assumption | apply ih | apply State.laneZero_kept | intro _ _ | split | dsimp only

theorem State.lanesStandby_kept {k : State} (s : State) (x1 : List Nat) (hs : k.Kept s) : k.Kept (State.lanesStandby
  s x1) := by
  induction x1 generalizing s with
  | nil =>
    unfold State.lanesStandby
    try dsimp only
    with_reducible repeat' first
      | assumption | apply State.setLane_kept | apply State.laneDrift_kept | intro _ _ | split | dsimp only
      | refine State.Kept.mk_same ?_ (by rfl) (by rfl)
  | cons a l ih =>
    unfold State.lanesStandby
    try dsimp only
    with_reducible repeat' first
      | assumption | apply ih | apply State.setLane_kept | apply State.laneDrift_kept | intro _ _ | split | dsimp only
      | refine State.Kept.mk_same ?_ (by rfl) (by rfl)

theorem State.lanesResume_kept {k : State} (s : State) (x1 : List Nat) (hs : k.Kept s) : k.Kept (State.lanesResume s
  x1) := by
  induction x1 generalizing s with
  | nil =>
    unfold State.lanesResume
    try dsimp only
    with_reducible repeat' first
      | assumption | apply State.laneWake_kept | apply State.setLane_kept | intro _ _ | split | dsimp only
      | refine State.Kept.mk_same ?_ (by rfl) (by rfl)
  | cons a l ih =>
    unfold State.lanesResume
    try dsimp only
    with_reducible repeat' first
      | assumption | apply ih | apply State.laneWake_kept | apply State.setLane_kept | intro _ _ | split | dsimp only
      | refine State.Kept.mk_same ?_ (by rfl) (by rfl)

theorem State.realign_kept {k : State} (s : State) (p : Nat) (hs : k.Kept s) : k.Kept (State.realign s p) := by
  unfold State.realign
  try dsimp only
  with_reducible repeat' first
    | assumption | apply State.setPort_kept | intro _ _ | split | dsimp only
    | refine State.Kept.mk_same ?_ (by rfl) (by rfl)

theorem State.powerPort_kept {k : State} (s : State) (p : Nat) (pwr : Nat) (hs : k.Kept s) : k.Kept (State.powerPort
  s p pwr) := by
  unfold State.powerPort
  try dsimp only
  with_reducible repeat' first
    | assumption | apply State.lanesOff_kept | apply State.lanesZero_kept | apply State.lanesStandby_kept
    | apply State.rxAbort_kept | apply State.linkFall_kept | apply State.spanLos_kept | apply State.setPort_kept
    | apply State.localOnset_kept | apply State.lanesResume_kept | apply State.realign_kept | apply State.recalCut_kept
    | intro _ _ | split | dsimp only | refine State.Kept.mk_same ?_ (by rfl) (by rfl)

theorem State.lanesWake_kept {k : State} (s : State) (x1 : List Nat) (hs : k.Kept s) : k.Kept (State.lanesWake s x1)
  := by
  induction x1 generalizing s with
  | nil =>
    unfold State.lanesWake
    try dsimp only
    with_reducible repeat' first
      | assumption | apply State.laneWake_kept | intro _ _ | split | dsimp only
  | cons a l ih =>
    unfold State.lanesWake
    try dsimp only
    with_reducible repeat' first
      | assumption | apply ih | apply State.laneWake_kept | intro _ _ | split | dsimp only

theorem State.enablePort_kept {k : State} (s : State) (p : Nat) (hs : k.Kept s) : k.Kept (State.enablePort s p) := by
  unfold State.enablePort
  try dsimp only
  with_reducible repeat' first
    | assumption | apply State.setRf_kept | apply State.rejectCfg_kept | apply State.lanesWake_kept
    | apply State.localOnset_kept | apply State.setPort_kept | intro _ _ | split | dsimp only

theorem State.portCtrlWrite_kept {k : State} (s : State) (p : Nat) (v : Word) (hs : k.Kept s) : k.Kept
  (State.portCtrlWrite s p v) := by
  unfold State.portCtrlWrite
  extract_lets was old s1 pwr s2 s3 src s4 s5
  have h1 : k.Kept s1 := State.setReg_kept _ _ _ _ hs
  have h2 : k.Kept s2 := by
    dsimp only [s2]
    split
    · exact State.enablePort_kept _ _ h1
    · split
      · exact State.stopPort_kept _ _ h1
      · split
        · exact State.powerPort_kept _ _ _ h1
        · exact h1
  clear_value s1 s2
  have h3 : k.Kept s3 := by
    dsimp only [s3]; split
    · exact State.linkFall_kept _ _ _ h2
    · exact h2
  clear_value s3
  have h4 : k.Kept s4 := by
    dsimp only [s4]; split
    · exact State.setPort_kept _ _ _ h3
    · exact h3
  clear_value s4
  have h5 : k.Kept s5 := by
    dsimp only [s5]; split
    · exact h4
    · split
      · exact State.resetPort_kept _ _ h4
      · split
        · exact State.recalFull_kept _ _ h4
        · split
          · exact State.recalLive_kept _ _ h4
          · exact h4
  clear_value s5
  split
  · exact State.spanStart_kept _ _ _ _ h5 hs
  · exact h5

theorem State.settleSpan_kept {k : State} (s : State) (q : Nat) (hs : k.Kept s) : k.Kept (State.settleSpan s q) := by
  unfold State.settleSpan
  try dsimp only
  with_reducible repeat' first
    | assumption | apply State.linkFall_kept | apply State.count_kept | apply State.raise_kept
    | apply State.localOnset_kept | apply State.setPort_kept | intro _ _ | split | dsimp only
    | refine State.Kept.mk_same ?_ (by rfl) (by rfl)

theorem State.recalFullCheck_kept {k : State} (s : State) (p : Nat) (hs : k.Kept s) : k.Kept (State.recalFullCheck s
  p) := by
  unfold State.recalFullCheck
  try dsimp only
  with_reducible repeat' first
    | assumption | apply State.setPort_kept | apply State.raise_kept | intro _ _ | split | dsimp only
    | refine State.Kept.mk_same ?_ (by rfl) (by rfl)

theorem State.laneUp_kept {k : State} (s : State) (l : Nat) (hs : k.Kept s) : k.Kept (State.laneUp s l) := by
  unfold State.laneUp
  try dsimp only
  with_reducible repeat' first
    | assumption | apply State.recalFullCheck_kept | apply State.realign_kept | intro _ _ | split | dsimp only
    | refine State.Kept.mk_same ?_ (by rfl) (by rfl)

theorem State.laneLost_kept {k : State} (s : State) (l : Nat) (hs : k.Kept s) : k.Kept (State.laneLost s l) := by
  unfold State.laneLost
  try dsimp only
  with_reducible repeat' first
    | assumption | apply State.setLane_kept | apply State.loseAlign_kept | apply State.laneDrift_kept
    | apply State.recalCut_kept | intro _ _ | split | dsimp only | refine State.Kept.mk_same ?_ (by rfl) (by rfl)

theorem State.lanesRevert_kept {k : State} (s : State) (x1 : List Nat) (hs : k.Kept s) : k.Kept (State.lanesRevert s
  x1) := by
  induction x1 generalizing s with
  | nil =>
    unfold State.lanesRevert
    try dsimp only
    with_reducible repeat' first
      | assumption | apply State.setLane_kept | intro _ _ | split | dsimp only
      | refine State.Kept.mk_same ?_ (by rfl) (by rfl)
  | cons a l ih =>
    unfold State.lanesRevert
    try dsimp only
    with_reducible repeat' first
      | assumption | apply ih | apply State.setLane_kept | intro _ _ | split | dsimp only
      | refine State.Kept.mk_same ?_ (by rfl) (by rfl)

/-! ### CruiserOps -/

theorem State.tdLoad_kept {k : State} (s : State) (e : Nat) (c : Nat) (v : Nat) (hs : k.Kept s) : k.Kept
  (State.tdLoad s e c v) := by
  unfold State.tdLoad
  try dsimp only
  with_reducible repeat' first
    | assumption | intro _ _ | split | dsimp only | refine State.Kept.mk_same ?_ (by rfl) (by rfl)

/-! ### Cruiser -/

theorem State.setCruiser_kept {k : State} (s : State) (c : CruiserS) (hs : k.Kept s) : k.Kept (State.setCruiser s c)
  := by
  unfold State.setCruiser
  try dsimp only
  with_reducible repeat' first
    | assumption | intro _ _ | split | dsimp only | refine State.Kept.mk_same ?_ (by rfl) (by rfl)

theorem State.winWrite_kept {k : State} (s : State) (x1 : Nat) (hs : k.Kept s) : k.Kept (State.winWrite s x1) := by
  unfold State.winWrite
  try dsimp only
  with_reducible repeat' first
    | assumption | apply State.setCruiser_kept | apply State.setRf_kept | intro _ _ | split | dsimp only
    | refine State.Kept.mk_same ?_ (by rfl) (by rfl)

theorem State.pkClr_kept {k : State} (s : State) (hs : k.Kept s) : k.Kept (State.pkClr s) := by
  unfold State.pkClr
  try dsimp only
  with_reducible repeat' first
    | assumption | apply State.setCruiser_kept | intro _ _ | split | dsimp only
    | refine State.Kept.mk_same ?_ (by rfl) (by rfl)

theorem State.crBwWrite_kept {k : State} (s : State) (v : Word) (hs : k.Kept s) : k.Kept (State.crBwWrite s v) := by
  unfold State.crBwWrite
  try dsimp only
  with_reducible repeat' first
    | assumption | apply State.winWrite_kept | apply State.pkClr_kept | intro _ _ | split | dsimp only

theorem State.snapReject_kept {k : State} (s : State) (why : Nat) (hs : k.Kept s) : k.Kept (State.snapReject s why)
  := by
  unfold State.snapReject
  try dsimp only
  with_reducible repeat' first
    | assumption | apply State.setCruiser_kept | apply State.count_kept | apply State.raise_kept | intro _ _ | split
    | dsimp only | refine State.Kept.mk_same ?_ (by rfl) (by rfl)

theorem State.snapReq_kept {k : State} (s : State) (hs : k.Kept s) : k.Kept (State.snapReq s) := by
  unfold State.snapReq
  try dsimp only
  with_reducible repeat' first
    | assumption | apply State.setCruiser_kept | apply State.snapReject_kept | intro _ _ | split | dsimp only
    | refine State.Kept.mk_same ?_ (by rfl) (by rfl)

theorem State.snapStop_kept {k : State} (s : State) (hs : k.Kept s) : k.Kept (State.snapStop s) := by
  unfold State.snapStop
  try dsimp only
  with_reducible repeat' first
    | assumption | apply State.setCruiser_kept | intro _ _ | split | dsimp only
    | refine State.Kept.mk_same ?_ (by rfl) (by rfl)

theorem State.crCtrlWrite_kept {k : State} (s : State) (v : Word) (hs : k.Kept s) : k.Kept (State.crCtrlWrite s v) := by
  unfold State.crCtrlWrite
  try dsimp only
  with_reducible repeat' first
    | assumption | apply State.snapReq_kept | apply State.snapStop_kept | apply State.setRf_kept | intro _ _ | split
    | dsimp only

theorem State.snapEnd_kept {k : State} (s : State) (hs : k.Kept s) : k.Kept (State.snapEnd s) := by
  unfold State.snapEnd
  try dsimp only
  with_reducible repeat' first
    | assumption | apply State.count_kept | apply State.raise_kept | apply State.setCruiser_kept | apply State.setReg_kept
    | intro _ _ | split | dsimp only | refine State.Kept.mk_same ?_ (by rfl) (by rfl)

theorem State.bwEnd_kept {k : State} (s : State) (hs : k.Kept s) : k.Kept (State.bwEnd s) := by
  unfold State.bwEnd
  try dsimp only
  with_reducible repeat' first
    | assumption | apply State.setCruiser_kept | intro _ _ | split | dsimp only
    | refine State.Kept.mk_same ?_ (by rfl) (by rfl)

theorem State.capture_kept {k : State} (s : State) (hs : k.Kept s) : k.Kept (State.capture s) := by
  unfold State.capture
  try dsimp only
  with_reducible repeat' first
    | assumption | apply State.count_kept | apply State.raise_kept | apply State.setCruiser_kept | intro _ _ | split
    | dsimp only | refine State.Kept.mk_same ?_ (by rfl) (by rfl)

theorem State.snapNotice_kept {k : State} (s : State) (ws : List Word) (hs : k.Kept s) : k.Kept (State.snapNotice s
  ws) := by
  unfold State.snapNotice
  try dsimp only
  with_reducible repeat' first
    | assumption | apply State.noticeLost_kept | refine State.putNotice_kept (by assumption) ?_ | intro _ _ | split
    | dsimp only | refine State.Kept.mk_same ?_ (by rfl) (by rfl)

theorem State.hbmWords_kept {k : State} (s : State) (x1 : Nat) (a : Nat) (ws : List Word) (hs : k.Kept s) : k.Kept
  (State.hbmWords s x1 a ws) := by
  unfold State.hbmWords
  try dsimp only
  with_reducible repeat' first
    | assumption | apply State.setMemWs_kept | intro _ _ | split | dsimp only

theorem State.partDone_kept {k : State} (s : State) (x1 : Nat) (hs : k.Kept s) : k.Kept (State.partDone s x1) := by
  unfold State.partDone
  try dsimp only
  with_reducible repeat' first
    | assumption | apply State.snapEnd_kept | apply State.setCruiser_kept | apply State.hbmWords_kept | intro _ _ | split
    | dsimp only | refine State.Kept.mk_same ?_ (by rfl) (by rfl)

theorem execBwWindowEnd_kept {k : State} {s : State} {rr : State} (ht : execBwWindowEnd s = .next rr) (hs : k.Kept s)
  : k.Kept rr := by
  refine State.run_kept (fun s hs => ?_) hs ht
  try dsimp only
  with_reducible repeat' first
    | assumption | apply State.bwEnd_kept | intro _ _ | split | dsimp only

theorem State.transferDone_kept {k : State} (s : State) (hs : k.Kept s) : k.Kept (State.transferDone s) := by
  unfold State.transferDone
  try dsimp only
  with_reducible repeat' first
    | assumption | apply State.emit_kept | apply State.snapNotice_kept | apply State.setCruiser_kept
    | apply State.raise_kept | apply State.snapEnd_kept | intro _ _ | split | dsimp only
    | refine State.Kept.mk_same ?_ (by rfl) (by rfl)

theorem execSnapshotTransferDone_kept {k : State} {s : State} {rr : State} (ht : execSnapshotTransferDone s = .next
  rr) (hs : k.Kept s) : k.Kept rr := by
  refine State.run_kept (fun s hs => ?_) hs ht
  try dsimp only
  with_reducible repeat' first
    | assumption | apply State.transferDone_kept | intro _ _ | split | dsimp only

theorem execSnapshotPartDone_kept {k : State} {x0 : Half} {s : State} {rr : State} (ht : execSnapshotPartDone x0 s =
  .next rr) (hs : k.Kept s) : k.Kept rr := by
  refine State.run_kept (fun s hs => ?_) hs ht
  try dsimp only
  with_reducible repeat' first
    | assumption | apply State.partDone_kept | intro _ _ | split | dsimp only

theorem execSnapshotCapture_kept {k : State} {s : State} {rr : State} (ht : execSnapshotCapture s = .next rr) (hs :
  k.Kept s) : k.Kept rr := by
  refine State.run_kept (fun s hs => ?_) hs ht
  try dsimp only
  with_reducible repeat' first
    | assumption | apply State.capture_kept | intro _ _ | split | dsimp only

/-! ### Deparse -/

theorem State.builtCounts_kept {k : State} (s : State) (f : Frame) (p : Nat) (b : Built) (hs : k.Kept s) : k.Kept
  (State.builtCounts s f p b) := by
  unfold State.builtCounts
  try dsimp only
  with_reducible repeat' first
    | assumption | apply State.count_kept | apply State.count64_kept | intro _ _ | split | dsimp only

theorem State.deparseBad_kept {k : State} (s : State) (p : Nat) (reason : Nat) (hs : k.Kept s) : k.Kept
  (State.deparseBad s p reason) := by
  unfold State.deparseBad
  try dsimp only
  with_reducible repeat' first
    | assumption | apply State.count64_kept | apply State.raise_kept | intro _ _ | split | dsimp only

theorem State.deparseDrop_kept {k : State} (s : State) (i : Nat) (p : Nat) (reason : Nat) (hs : k.Kept s) : k.Kept
  (State.deparseDrop s i p reason) := by
  unfold State.deparseDrop
  try dsimp only
  with_reducible repeat' first
    | assumption | apply State.dropQueued_kept | apply State.deparseBad_kept | intro _ _ | split | dsimp only

theorem State.deparse_kept {k : State} (s : State) (i : Nat) (hs : k.Kept s) : k.Kept (State.deparse s i) := by
  unfold State.deparse
  try dsimp only
  with_reducible repeat' first
    | assumption | apply State.setFrame_kept | apply State.builtCounts_kept | apply State.deparseDrop_kept | intro _ _
    | split | dsimp only | refine State.Kept.mk_same ?_ (by rfl) (by rfl)

theorem State.deparseNext_kept {k : State} (s : State) (sl : Nat) (hs : k.Kept s) : k.Kept (State.deparseNext s sl)
  := by
  unfold State.deparseNext
  try dsimp only
  with_reducible repeat' first
    | assumption | apply State.deparse_kept | apply State.dropQueued_kept | apply State.setSlice_kept | intro _ _ | split
    | dsimp only | refine State.Kept.mk_same ?_ (by rfl) (by rfl)

theorem execDeparse_kept {k : State} {sl : Slice} {s : State} {rr : State} (ht : execDeparse sl s = .next rr) (hs :
  k.Kept s) : k.Kept rr := by
  refine State.run_kept (fun s hs => ?_) hs ht
  try dsimp only
  with_reducible repeat' first
    | assumption | apply State.deparseNext_kept | apply State.onlyIf_kept | intro _ _ | split | dsimp only

/-! ### Raft -/

theorem State.raftPend_kept {k : State} (s : State) (was : Bool) (hs : k.Kept s) : k.Kept (State.raftPend s was) := by
  unfold State.raftPend
  try dsimp only
  with_reducible repeat' first
    | assumption | intro _ _ | split | dsimp only | refine State.Kept.mk_same ?_ (by rfl) (by rfl)

theorem State.raftCtrlWrite_kept {k : State} (s : State) (v : Word) (hs : k.Kept s) : k.Kept (State.raftCtrlWrite s
  v) := by
  unfold State.raftCtrlWrite
  try dsimp only
  with_reducible repeat' first
    | assumption | apply State.store_kept | apply State.raftPend_kept | intro _ _ | split | dsimp only
    | refine State.Kept.mk_same ?_ (by rfl) (by rfl)

theorem State.nbrEvent_kept {k : State} (s : State) (p : Nat) (x2 : Nat) (x : NbrS) (sysid : Word) (hs : k.Kept s) :
  k.Kept (State.nbrEvent s p x2 x sysid) := by
  unfold State.nbrEvent
  try dsimp only
  with_reducible repeat' first
    | assumption | apply State.raise_kept | apply State.raftNotice_kept | intro _ _ | split | dsimp only

theorem State.helloTake_kept {k : State} (s : State) (p : Nat) (bs : List Byte) (hs : k.Kept s) : k.Kept
  (State.helloTake s p bs) := by
  unfold State.helloTake
  try dsimp only
  with_reducible repeat' first
    | assumption | apply State.count_kept | apply State.setNbr_kept | apply State.nbrEvent_kept | intro _ _ | split
    | dsimp only | refine State.Kept.mk_same ?_ (by rfl) (by rfl)

theorem State.helloRx_kept {k : State} (s : State) (p : Nat) (bs : List Byte) (hs : k.Kept s) : k.Kept (State.helloRx
  s p bs) := by
  unfold State.helloRx
  try dsimp only
  with_reducible repeat' first
    | assumption | apply State.helloTake_kept | apply State.peerHolds_kept | apply State.count_kept | intro _ _ | split
    | dsimp only

theorem execEwRecompute_kept {k : State} {x0 : Half} {s : State} {rr : State} (ht : execEwRecompute x0 s = .next rr)
  (hs : k.Kept s) : k.Kept rr := by
  refine State.run_kept (fun s hs => ?_) hs ht
  try dsimp only
  with_reducible repeat' first
    | assumption | apply State.ewAll_kept | apply State.onlyIf_kept | intro _ _ | split | dsimp only

theorem execRaftCfgSync_kept {k : State} {s : State} {rr : State} (ht : execRaftCfgSync s = .next rr) (hs : k.Kept s)
  : k.Kept rr := by
  refine State.run_kept (fun s hs => ?_) hs ht
  try dsimp only
  with_reducible repeat' first
    | assumption | apply State.onlyIf_kept | intro _ _ | split | dsimp only
    | refine State.Kept.mk_same ?_ (by rfl) (by rfl)

theorem State.helloOut_kept {k : State} (s : State) (p : Nat) (bs : List Byte) (hs : k.Kept s) : k.Kept
  (State.helloOut s p bs) := by
  unfold State.helloOut
  try dsimp only
  with_reducible repeat' first
    | assumption | apply State.transmit_kept | apply State.setSpan_kept | intro _ _ | split | dsimp only
    | refine State.Kept.mk_same ?_ (by rfl) (by rfl)

theorem State.sendHello_kept {k : State} (s : State) (p : Nat) (extra : Bool) (hs : k.Kept s) : k.Kept
  (State.sendHello s p extra) := by
  unfold State.sendHello
  try dsimp only
  with_reducible repeat' first
    | assumption | apply State.count_kept | apply State.setNbr_kept | apply State.helloOut_kept | intro _ _ | split
    | dsimp only | refine State.Kept.mk_same ?_ (by rfl) (by rfl)

theorem execHelloRx_kept {k : State} {p : Port} {bytes : List Byte} {s : State} {rr : State} (ht : execHelloRx p
  bytes s = .next rr) (hs : k.Kept s) : k.Kept rr := by
  refine State.run_kept (fun s hs => ?_) hs ht
  try dsimp only
  with_reducible repeat' first
    | assumption | apply State.helloRx_kept | apply State.onlyIf_kept | intro _ _ | split | dsimp only

theorem execPeerHoldLapse_kept {k : State} {r : Ring} {s : State} {rr : State} (ht : execPeerHoldLapse r s = .next
  rr) (hs : k.Kept s) : k.Kept rr := by
  refine State.run_kept (fun s hs => ?_) hs ht
  dsimp only [State.onlyIf]
  split
  · exact State.setRing_kept _ _ _ hs Iff.rfl
  · exact hs

theorem execNeighbourDead_kept {k : State} {p : Port} {s : State} {rr : State} (ht : execNeighbourDead p s = .next
  rr) (hs : k.Kept s) : k.Kept rr := by
  refine State.run_kept (fun s hs => ?_) hs ht
  try dsimp only
  with_reducible repeat' first
    | assumption | apply State.nbrDown_kept | apply State.onlyIf_kept | intro _ _ | split | dsimp only

/-! ### Ingress -/

theorem State.ppCounts_kept {k : State} (s : State) (sl : Nat) (perr : Nat) (hs : k.Kept s) : k.Kept (State.ppCounts
  s sl perr) := by
  unfold State.ppCounts
  try dsimp only
  with_reducible repeat' first
    | assumption | apply State.raiseIf_kept | apply State.count64_kept | intro _ _ | split | dsimp only

theorem State.enterPipe_kept {k : State} (s : State) (sl : Nat) (i : Nat) (ring : Nat) (f : Frame) (v : List Byte)
  (hs : k.Kept s) : k.Kept (State.enterPipe s sl i ring f v) := by
  unfold State.enterPipe
  try dsimp only
  with_reducible repeat' first
    | assumption | apply State.beginHolder_kept | apply State.toStage_kept | apply State.setFrame_kept | intro _ _ | split
    | dsimp only | refine State.Kept.mk_same ?_ (by rfl) (by rfl)

theorem State.parseFrame_kept {k : State} (s : State) (sl : Nat) (i : Nat) (hs : k.Kept s) : k.Kept (State.parseFrame
  s sl i) := by
  unfold State.parseFrame
  try dsimp only
  with_reducible repeat' first
    | assumption | apply State.ppCounts_kept | apply State.helloRx_kept | apply State.endFrame_kept
    | apply State.count64_kept | apply State.enterPipe_kept | apply State.dropEarly_kept | intro _ _ | split | dsimp only
    | refine State.Kept.mk_same ?_ (by rfl) (by rfl)

theorem State.parseNext_kept {k : State} (s : State) (sl : Nat) (hs : k.Kept s) : k.Kept (State.parseNext s sl) := by
  unfold State.parseNext
  try dsimp only
  with_reducible repeat' first
    | assumption | apply State.pfcSlice_kept | apply State.setSlice_kept | apply State.parseFrame_kept | intro _ _ | split
    | dsimp only | refine State.Kept.mk_same ?_ (by rfl) (by rfl)

theorem State.pausePrio_kept {k : State} (s : State) (p : Nat) (bs : List Byte) (r : Nat) (hs : k.Kept s) : k.Kept
  (State.pausePrio s p bs r) := by
  unfold State.pausePrio
  try dsimp only
  with_reducible repeat' first
    | assumption | apply State.setSched_kept | intro _ _ | split | dsimp only
    | refine State.Kept.mk_same ?_ (by rfl) (by rfl)

theorem State.pausePrios_kept {k : State} (s : State) (p : Nat) (bs : List Byte) (x3 : List Nat) (hs : k.Kept s) :
  k.Kept (State.pausePrios s p bs x3) := by
  induction x3 generalizing s p bs with
  | nil =>
    unfold State.pausePrios
    try dsimp only
    with_reducible repeat' first
      | assumption | apply State.pausePrio_kept | intro _ _ | split | dsimp only
  | cons a l ih =>
    unfold State.pausePrios
    try dsimp only
    with_reducible repeat' first
      | assumption | apply ih | apply State.pausePrio_kept | intro _ _ | split | dsimp only

theorem State.macControl_kept {k : State} (s : State) (p : Nat) (bs : List Byte) (hs : k.Kept s) : k.Kept
  (State.macControl s p bs) := by
  unfold State.macControl
  try dsimp only
  with_reducible repeat' first
    | assumption | apply State.pausePrios_kept | apply State.count_kept | intro _ _ | split | dsimp only

theorem State.toFifo_kept {k : State} {s : State} {p : Nat} {bs : List Byte} {len : Nat} {ts : Nat} {tail : Bool} {rr
  : State} (ht : State.toFifo s p bs len ts tail = some rr) (hs : k.Kept s) : k.Kept rr := by
  unfold State.toFifo at ht
  dsimp only at ht
  repeat' (split at ht)
  all_goals (first | contradiction | skip)
  all_goals (try (cases ht))
  all_goals
    with_reducible repeat' first
      | assumption | apply State.setSlice_kept | apply State.pfcSlice_kept | apply State.newFrame_kept | intro _ _ | split
      | dsimp only | refine State.Kept.mk_same ?_ (by rfl) (by rfl)

theorem State.rxGood_kept {k : State} (s : State) (p : Nat) (bs : List Byte) (ts : Nat) (hs : k.Kept s) : k.Kept
  (State.rxGood s p bs ts) := by
  unfold State.rxGood
  try dsimp only
  with_reducible repeat' first
    | assumption | refine State.toFifo_kept (by assumption) ?_ | apply State.accountEarly_kept
    | apply State.macControl_kept | intro _ _ | split | dsimp only | refine State.Kept.mk_same ?_ (by rfl) (by rfl)

theorem State.bwFrame_kept {k : State} (s : State) (p : Nat) (bs : List Byte) (hs : k.Kept s) : k.Kept (State.bwFrame
  s p bs) := by
  unfold State.bwFrame
  try dsimp only
  with_reducible repeat' first
    | assumption | apply State.bwAdd_kept | intro _ _ | split | dsimp only

theorem State.rxTail_kept {k : State} (s : State) (p : Nat) (t : RxTail) (hs : k.Kept s) : k.Kept (State.rxTail s p
  t) := by
  unfold State.rxTail
  try dsimp only
  with_reducible repeat' first
    | assumption | apply State.accountEarly_kept | apply State.macControl_kept | apply State.rxGood_kept
    | apply State.completeRoot_kept | apply State.rxCount_kept | apply State.bwFrame_kept | apply State.setPort_kept
    | intro _ _ | split | dsimp only | refine State.Kept.mk_same ?_ (by rfl) (by rfl)

theorem State.rxBegin_kept {k : State} (s : State) (p : Nat) (f : RxFrame) (hs : k.Kept s) : k.Kept (State.rxBegin s
  p f) := by
  unfold State.rxBegin
  dsimp only
  split
  · next t heq =>
    split at heq
    · cases heq
    · exact State.setPort_kept _ _ _ (State.toFifo_kept heq hs)
  · exact State.setPort_kept _ _ _ hs

theorem State.rxWhole_kept {k : State} (s : State) (p : Nat) (bs : List Byte) (err : Option Nat) (hs : k.Kept s) :
  k.Kept (State.rxWhole s p bs err) := by
  unfold State.rxWhole
  try dsimp only
  with_reducible repeat' first
    | assumption | apply State.accountEarly_kept | apply State.rxGood_kept | apply State.rxCount_kept
    | apply State.bwFrame_kept | intro _ _ | split | dsimp only

theorem State.rxFrame_kept {k : State} (s : State) (p : Nat) (f : RxFrame) (hs : k.Kept s) : k.Kept (State.rxFrame s
  p f) := by
  unfold State.rxFrame
  try dsimp only
  with_reducible repeat' first
    | assumption | apply State.rxCount_kept | apply State.accountEarly_kept | apply State.rxBegin_kept
    | apply State.rxWhole_kept | intro _ _ | split | dsimp only

theorem State.loopOuts_kept {k : State} (s : State) (p : Nat) (x2 : List Output) (hs : k.Kept s) : k.Kept
  (State.loopOuts s p x2) := by
  induction x2 generalizing s with
  | nil => exact hs
  | cons o l ih =>
    cases o
    all_goals first
      | exact ih _ hs
      | exact ih _ (State.onlyIf_kept _ _ _ hs fun s h => State.rxFrame_kept _ _ _ h)

theorem State.loopBack_kept {k : State} (s : State) (old : State) (p : Nat) (hs : k.Kept s) : k.Kept (State.loopBack
  s old p) := by
  unfold State.loopBack
  try dsimp only
  with_reducible repeat' first
    | assumption | apply State.loopOuts_kept | intro _ _ | split | dsimp only

theorem State.swapDone_kept {k : State} (s : State) (sl : Nat) (hs : k.Kept s) : k.Kept (State.swapDone s sl) := by
  unfold State.swapDone
  try dsimp only
  with_reducible repeat' first
    | assumption | apply State.setSlice_kept | apply State.raise_kept | intro _ _ | split | dsimp only
    | refine State.Kept.mk_same ?_ (by rfl) (by rfl)

theorem execSwapped_kept {k : State} {sl : Slice} {s : State} {rr : State} (ht : execSwapped sl s = .next rr) (hs :
  k.Kept s) : k.Kept rr := by
  refine State.run_kept (fun s hs => ?_) hs ht
  try dsimp only
  with_reducible repeat' first
    | assumption | apply State.swapDone_kept | apply State.onlyIf_kept | intro _ _ | split | dsimp only

theorem execParse_kept {k : State} {sl : Slice} {s : State} {rr : State} (ht : execParse sl s = .next rr) (hs :
  k.Kept s) : k.Kept rr := by
  refine State.run_kept (fun s hs => ?_) hs ht
  try dsimp only
  with_reducible repeat' first
    | assumption | apply State.parseNext_kept | apply State.onlyIf_kept | intro _ _ | split | dsimp only

theorem State.echo_kept {k : State} (s : State) (p : Nat) (bs : List Byte) (hs : k.Kept s) : k.Kept (State.echo s p
  bs) := by
  unfold State.echo
  try dsimp only
  with_reducible repeat' first
    | assumption | apply State.transmit_kept | apply State.onlyIf_kept | intro _ _ | split | dsimp only

theorem execTailArrival_kept {k : State} {p : Port} {f : RxTail} {s : State} {rr : State} (ht : execTailArrival p f s
  = .next rr) (hs : k.Kept s) : k.Kept rr := by
  refine State.run_kept (fun s hs => ?_) hs ht
  try dsimp only
  with_reducible repeat' first
    | assumption | apply State.rxTail_kept | apply State.onlyIf_kept | apply State.echo_kept | intro _ _ | split
    | dsimp only

theorem execExtraHello_kept {k : State} {p : Port} {s : State} {rr : State} (ht : execExtraHello p s = .next rr) (hs
  : k.Kept s) : k.Kept rr := by
  refine State.run_kept (fun s hs => ?_) hs ht
  try dsimp only
  with_reducible repeat' first
    | assumption | apply State.sendHello_kept | apply State.loopBack_kept | apply State.onlyIf_kept | intro _ _ | split
    | dsimp only | refine State.Kept.mk_same ?_ (by rfl) (by rfl)

theorem execHelloTx_kept {k : State} {p : Port} {s : State} {rr : State} (ht : execHelloTx p s = .next rr) (hs :
  k.Kept s) : k.Kept rr := by
  refine State.run_kept (fun s hs => ?_) hs ht
  try dsimp only
  with_reducible repeat' first
    | assumption | apply State.sendHello_kept | apply State.loopBack_kept | apply State.onlyIf_kept | intro _ _ | split
    | dsimp only | refine State.Kept.mk_same ?_ (by rfl) (by rfl)

theorem execRxFrame_kept {k : State} {p : Port} {f : RxFrame} {s : State} {rr : State} (ht : execRxFrame p f s =
  .next rr) (hs : k.Kept s) : k.Kept rr := by
  refine State.run_kept (fun s hs => ?_) hs ht
  try dsimp only
  with_reducible repeat' first
    | assumption | apply State.echo_kept | apply State.rxFrame_kept | apply State.onlyIf_kept | intro _ _ | split
    | dsimp only

end Sys2Proof.Machine
end

