-- ==== Sys2Proof/Laws/KeptPath.lean ====
section
/-! SUPPORT. State.Kept, one lemma for each function of the state: the Deck, the tables, Tally, the host queues, Kerf and the egress queues. -/

namespace Sys2Proof.Machine

/-! ### Deck -/

theorem execListRebuild_kept {k : State} {x0 : Half} {lst : Fin 64} {s : State} {rr : State} (ht : execListRebuild x0
  lst s = .next rr) (hs : k.Kept s) : k.Kept rr := by
  refine State.run_kept (fun s hs => ?_) hs ht
  try dsimp only
  with_reducible repeat' first
    | assumption | apply State.count_kept | apply State.raise_kept | apply State.setDeck_kept | apply State.onlyIf_kept
    | intro _ _ | split | dsimp only

theorem State.poolAlloc_kept {k : State} (s : State) (r : Requester) (x2 : Nat) (n : Nat) (hs : k.Kept s) : k.Kept
  (State.poolAlloc s r x2 n) := by
  unfold State.poolAlloc
  try dsimp only
  with_reducible repeat' first
    | assumption | apply State.raise_kept | apply State.setDeck_kept | intro _ _ | split | dsimp only
    | refine State.Kept.mk_same ?_ (by rfl) (by rfl)

theorem State.dropUnicast_kept {k : State} (s : State) (i : Nat) (reason : Nat) (hs : k.Kept s) : k.Kept
  (State.dropUnicast s i reason) := by
  unfold State.dropUnicast
  try dsimp only
  with_reducible repeat' first
    | assumption | apply State.dropQueued_kept | apply State.countExp_kept | intro _ _ | split | dsimp only

theorem State.dropPuntNew_kept {k : State} (s : State) (i : Nat) (x2 : Nat) (q : Nat) (reason : Nat) (hs : k.Kept s)
  : k.Kept (State.dropPuntNew s i x2 q reason) := by
  unfold State.dropPuntNew
  try dsimp only
  with_reducible repeat' first
    | assumption | apply State.dropNull_kept | apply State.countExp_kept | apply State.count_kept | intro _ _ | split
    | dsimp only

theorem State.dropArrival_kept {k : State} (s : State) (i : Nat) (f : Frame) (reason : Nat) (hs : k.Kept s) : k.Kept
  (State.dropArrival s i f reason) := by
  unfold State.dropArrival
  try dsimp only
  with_reducible repeat' first
    | assumption | apply State.dropUnicast_kept | apply State.dropMcast_kept | apply State.dropPuntNew_kept | intro _ _
    | split | dsimp only

theorem execPfcRefresh_kept {k : State} {p : Port} {s : State} {rr : State} (ht : execPfcRefresh p s = .next rr) (hs
  : k.Kept s) : k.Kept rr := by
  refine State.run_kept (fun s hs => ?_) hs ht
  try dsimp only
  with_reducible repeat' first
    | assumption | intro _ _ | split | dsimp only | refine State.Kept.mk_same ?_ (by rfl) (by rfl)

theorem State.withdraw_kept {k : State} (s : State) (x1 : Nat) (cell : Nat) (hs : k.Kept s) : k.Kept (State.withdraw
  s x1 cell) := by
  unfold State.withdraw
  try dsimp only
  with_reducible repeat' first
    | assumption | apply State.markFrame_kept | apply State.loseCell_kept | apply State.setDeck_kept
    | apply State.relevel_kept | intro _ _ | split | dsimp only | refine State.Kept.mk_same ?_ (by rfl) (by rfl)

theorem State.deckEcc_kept {k : State} (s : State) (x1 : Nat) (x2 : DeckEcc) (hs : k.Kept s) : k.Kept (State.deckEcc
  s x1 x2) := by
  unfold State.deckEcc
  try dsimp only
  with_reducible repeat' first
    | assumption | apply State.setDeck_kept | apply State.withdraw_kept | apply State.markFrame_kept
    | apply State.count_kept | apply State.raise_kept | intro _ _ | split | dsimp only
    | refine State.Kept.mk_same ?_ (by rfl) (by rfl)

theorem execDeckEccError_kept {k : State} {x0 : Half} {e : DeckEcc} {s : State} {rr : State} (ht : execDeckEccError
  x0 e s = .next rr) (hs : k.Kept s) : k.Kept rr := by
  refine State.run_kept (fun s hs => ?_) hs ht
  try dsimp only
  with_reducible repeat' first
    | assumption | apply State.deckEcc_kept | apply State.onlyIf_kept | intro _ _ | split | dsimp only

theorem State.awaitCells_kept {k : State} (s : State) (i : Nat) (f : Frame) (hs : k.Kept s) : k.Kept
  (State.awaitCells s i f) := by
  unfold State.awaitCells
  try dsimp only
  with_reducible repeat' first
    | assumption | apply State.setFrame_kept | apply State.setDeck_kept | intro _ _ | split | dsimp only
    | refine State.Kept.mk_same ?_ (by rfl) (by rfl)

theorem State.admitMcast_kept {k : State} (s : State) (i : Nat) (f : Frame) (hs : k.Kept s) : k.Kept
  (State.admitMcast s i f) := by
  unfold State.admitMcast
  try dsimp only
  with_reducible repeat' first
    | assumption | apply State.setPath_kept | apply State.setDeck_kept | apply State.awaitCells_kept
    | apply State.countExp_kept | apply State.dropMcast_kept | apply State.count64_kept | apply State.raise_kept
    | intro _ _ | split | dsimp only | refine State.Kept.mk_same ?_ (by rfl) (by rfl)

theorem State.initDeck_kept {k : State} (s : State) (x1 : Nat) (hs : k.Kept s) : k.Kept (State.initDeck s x1) := by
  unfold State.initDeck
  try dsimp only
  with_reducible repeat' first
    | assumption | apply State.setDeck_kept | apply State.drawn_kept | apply State.relevel_kept | apply State.pfcEvals_kept
    | intro _ _ | split | dsimp only

theorem execDeckInitDone_kept {k : State} {x0 : Half} {s : State} {rr : State} (ht : execDeckInitDone x0 s = .next
  rr) (hs : k.Kept s) : k.Kept rr := by
  refine State.run_kept (fun s hs => ?_) hs ht
  try dsimp only
  with_reducible repeat' first
    | assumption | apply State.initDeck_kept | apply State.onlyIf_kept | intro _ _ | split | dsimp only

theorem State.pfcSend_kept {k : State} (s : State) (p : Nat) (hs : k.Kept s) : k.Kept (State.pfcSend s p) := by
  unfold State.pfcSend
  try dsimp only
  with_reducible repeat' first
    | assumption | apply State.count_kept | apply State.count64_kept | apply State.transmit_kept | intro _ _ | split
    | dsimp only | refine State.Kept.mk_same ?_ (by rfl) (by rfl)

theorem State.admitUnicast_kept {k : State} (s : State) (i : Nat) (f : Frame) (hs : k.Kept s) : k.Kept
  (State.admitUnicast s i f) := by
  unfold State.admitUnicast
  try dsimp only
  with_reducible repeat' first
    | assumption | apply State.setQueue_kept | apply State.awaitCells_kept | apply State.dropUnicast_kept | intro _ _
    | split | dsimp only | refine State.Kept.mk_same ?_ (by rfl) (by rfl)

theorem State.holdEmpty_kept {k : State} (s : State) (x1 : Nat) (rq : Nat) (hs : k.Kept s) : k.Kept (State.holdEmpty
  s x1 rq) := by
  unfold State.holdEmpty
  try dsimp only
  with_reducible repeat' first
    | assumption | apply State.setDeck_kept | intro _ _ | split | dsimp only
    | refine State.Kept.mk_same ?_ (by rfl) (by rfl)

theorem State.chargeCell_kept {k : State} (s : State) (x1 : Nat) (f : Frame) (hs : k.Kept s) : k.Kept
  (State.chargeCell s x1 f) := by
  unfold State.chargeCell
  try dsimp only
  with_reducible repeat' first
    | assumption | apply State.pfcAdd_kept | apply State.setHq_kept | apply State.setDeck_kept | intro _ _ | split
    | dsimp only | refine State.Kept.mk_same ?_ (by rfl) (by rfl)

theorem State.allocOne_kept {k : State} {s : State} {x1 : Nat} {rq : Nat} {i : Nat} {rr : State} (ht : State.allocOne
  s x1 rq i = some rr) (hs : k.Kept s) : k.Kept rr := by
  unfold State.allocOne at ht
  dsimp only at ht
  repeat' (split at ht)
  all_goals (first | contradiction | skip)
  all_goals (try (cases ht))
  all_goals
    with_reducible repeat' first
      | assumption | apply State.chargeCell_kept | apply State.relevel_kept | apply State.setFrame_kept
      | apply State.setDeck_kept | intro _ _ | split | dsimp only | refine State.Kept.mk_same ?_ (by rfl) (by rfl)

theorem State.allocCells_kept {k : State} (s : State) (x1 : Nat) (rq : Nat) (i : Nat) (x4 : Nat) (hs : k.Kept s) :
  k.Kept (State.allocCells s x1 rq i x4) := by
  induction x4 generalizing s x1 rq i with
  | zero =>
    unfold State.allocCells
    try dsimp only
    with_reducible repeat' first
      | assumption | apply State.holdEmpty_kept | refine State.allocOne_kept (by assumption) ?_ | apply State.setDeck_kept
      | intro _ _ | split | dsimp only | refine State.Kept.mk_same ?_ (by rfl) (by rfl)
  | succ n ih =>
    unfold State.allocCells
    try dsimp only
    with_reducible repeat' first
      | assumption | apply ih | apply State.holdEmpty_kept | refine State.allocOne_kept (by assumption) ?_
      | apply State.setDeck_kept | intro _ _ | split | dsimp only | refine State.Kept.mk_same ?_ (by rfl) (by rfl)

theorem State.alloc_kept {k : State} (s : State) (x1 : Nat) (rq : Nat) (hs : k.Kept s) : k.Kept (State.alloc s x1 rq)
  := by
  unfold State.alloc
  try dsimp only
  with_reducible repeat' first
    | assumption | apply State.allocCells_kept | intro _ _ | split | dsimp only
    | refine State.Kept.mk_same ?_ (by rfl) (by rfl)

theorem execCellAlloc_kept {k : State} {x0 : Half} {rq : Fin 24} {s : State} {rr : State} (ht : execCellAlloc x0 rq s
  = .next rr) (hs : k.Kept s) : k.Kept rr := by
  refine State.run_kept (fun s hs => ?_) hs ht
  try dsimp only
  with_reducible repeat' first
    | assumption | apply State.alloc_kept | apply State.onlyIf_kept | intro _ _ | split | dsimp only

theorem State.endCells_kept {k : State} (s : State) (i : Nat) (hs : k.Kept s) : k.Kept (State.endCells s i) := by
  unfold State.endCells
  try dsimp only
  with_reducible repeat' first
    | assumption | apply State.setFrame_kept | apply State.releaseCells_kept | apply State.setDeck_kept | intro _ _ | split
    | dsimp only | refine State.Kept.mk_same ?_ (by rfl) (by rfl)

theorem execPauseExpire_kept {k : State} {p : Port} {r : Fin 8} {s : State} {rr : State} (ht : execPauseExpire p r s
  = .next rr) (hs : k.Kept s) : k.Kept rr := by
  refine State.run_kept (fun s hs => ?_) hs ht
  try dsimp only
  with_reducible repeat' first
    | assumption | apply State.setSched_kept | intro _ _ | split | dsimp only
    | refine State.Kept.mk_same ?_ (by rfl) (by rfl)

theorem State.admitPunt_kept {k : State} (s : State) (i : Nat) (f : Frame) (hs : k.Kept s) : k.Kept (State.admitPunt
  s i f) := by
  unfold State.admitPunt
  try dsimp only
  with_reducible repeat' first
    | assumption | apply State.setHq_kept | apply State.awaitCells_kept | apply State.dropPuntNew_kept | intro _ _ | split
    | dsimp only | refine State.Kept.mk_same ?_ (by rfl) (by rfl)

theorem State.admitHead_kept {k : State} (s : State) (x1 : Nat) (hs : k.Kept s) : k.Kept (State.admitHead s x1) := by
  unfold State.admitHead
  try dsimp only
  with_reducible repeat' first
    | assumption | apply State.admitUnicast_kept | apply State.admitMcast_kept | apply State.admitPunt_kept
    | apply State.dropArrival_kept | apply State.setPath_kept | intro _ _ | split | dsimp only
    | refine State.Kept.mk_same ?_ (by rfl) (by rfl)

theorem State.dropHeld_kept {k : State} (s : State) (i : Nat) (reason : Nat) (hs : k.Kept s) : k.Kept (State.dropHeld
  s i reason) := by
  unfold State.dropHeld
  try dsimp only
  with_reducible repeat' first
    | assumption | apply State.dropQueued_kept | apply State.setSlice_kept | apply State.setQueue_kept
    | apply State.setPath_kept | apply State.dropMcast_kept | apply State.dropPunt_kept | intro _ _ | split | dsimp only
    | refine State.Kept.mk_same ?_ (by rfl) (by rfl)

theorem State.stallEnd_kept {k : State} (s : State) (x1 : Nat) (i : Nat) (hs : k.Kept s) : k.Kept (State.stallEnd s
  x1 i) := by
  unfold State.stallEnd
  try dsimp only
  with_reducible repeat' first
    | assumption | apply State.count64_kept | apply State.raise_kept | apply State.dropHeld_kept
    | apply State.markFrame_kept | apply State.endCells_kept | intro _ _ | split | dsimp only

theorem State.stall_kept {k : State} (s : State) (x1 : Nat) (rq : Nat) (hs : k.Kept s) : k.Kept (State.stall s x1 rq)
  := by
  unfold State.stall
  try dsimp only
  with_reducible repeat' first
    | assumption | apply State.stallEnd_kept | intro _ _ | split | dsimp only
    | refine State.Kept.mk_same ?_ (by rfl) (by rfl)

theorem execBufferStall_kept {k : State} {x0 : Half} {rq : Fin 24} {s : State} {rr : State} (ht : execBufferStall x0
  rq s = .next rr) (hs : k.Kept s) : k.Kept rr := by
  refine State.run_kept (fun s hs => ?_) hs ht
  try dsimp only
  with_reducible repeat' first
    | assumption | apply State.stall_kept | apply State.onlyIf_kept | intro _ _ | split | dsimp only

theorem execAdmission_kept {k : State} {x0 : Half} {s : State} {rr : State} (ht : execAdmission x0 s = .next rr) (hs
  : k.Kept s) : k.Kept rr := by
  refine State.run_kept (fun s hs => ?_) hs ht
  try dsimp only
  with_reducible repeat' first
    | assumption | apply State.admitHead_kept | intro _ _ | split | dsimp only

theorem execPfcFrameTx_kept {k : State} {p : Port} {s : State} {rr : State} (ht : execPfcFrameTx p s = .next rr) (hs
  : k.Kept s) : k.Kept rr := by
  refine State.run_kept (fun s hs => ?_) hs ht
  try dsimp only
  with_reducible repeat' first
    | assumption | apply State.pfcSend_kept | apply State.loopBack_kept | apply State.onlyIf_kept | intro _ _ | split
    | dsimp only

theorem execRefill_kept {k : State} {x0 : Half} {lst : Fin 64} {s : State} {rr : State} (ht : execRefill x0 lst s =
  .next rr) (hs : k.Kept s) : k.Kept rr := by
  refine State.run_kept (fun s hs => ?_) hs ht
  try dsimp only
  with_reducible repeat' first
    | assumption | apply State.setDeck_kept | apply State.onlyIf_kept | intro _ _ | split | dsimp only

theorem execCellFree_kept {k : State} {x0 : Half} {rq : Fin 24} {cell : Nat} {tag : BitVec 16} {s : State} {rr :
  State} (ht : execCellFree x0 rq cell tag s = .next rr) (hs : k.Kept s) : k.Kept rr := by
  refine State.run_kept (fun s hs => ?_) hs ht
  try dsimp only
  with_reducible repeat' first
    | assumption | apply State.freeStray_kept | apply State.onlyIf_kept | intro _ _ | split | dsimp only

/-! ### TableOps -/

theorem State.lateAnswer_kept {k : State} (s : State) (x1 : Nat) (r : FgRun) (a : Answer) (hs : k.Kept s) : k.Kept
  (State.lateAnswer s x1 r a) := by
  unfold State.lateAnswer
  try dsimp only
  with_reducible repeat' first
    | assumption | apply State.setHq_kept | intro _ _ | split | dsimp only | refine State.Kept.mk_same ?_ (by rfl) (by rfl)

theorem State.halfDone_kept {k : State} (s : State) (x1 : Nat) (a : Answer) (hs : k.Kept s) : k.Kept (State.halfDone
  s x1 a) := by
  unfold State.halfDone
  try dsimp only
  with_reducible repeat' first
    | assumption | apply State.count64_kept | apply State.raiseIf_kept | intro _ _ | split | dsimp only

theorem State.journal_kept {k : State} (s : State) (x1 : Nat) (routine : Nat) (r : FgRun) (exit : Nat) (hs : k.Kept
  s) : k.Kept (State.journal s x1 routine r exit) := by
  unfold State.journal
  try dsimp only
  with_reducible repeat' first
    | assumption | apply State.setReg_kept | intro _ _ | split | dsimp only
    | refine State.Kept.mk_same ?_ (by rfl) (by rfl)

theorem State.fgJournal_kept {k : State} (s : State) (x1 : Nat) (r : FgRun) (exit : Nat) (hs : k.Kept s) : k.Kept
  (State.fgJournal s x1 r exit) := by
  unfold State.fgJournal
  try dsimp only
  with_reducible repeat' first
    | assumption | apply State.journal_kept | intro _ _ | split | dsimp only

theorem State.bgYield_kept {k : State} (s : State) (x1 : Nat) (hs : k.Kept s) : k.Kept (State.bgYield s x1) := by
  unfold State.bgYield
  try dsimp only
  with_reducible repeat' first
    | assumption | apply State.setReg_kept | apply State.count_kept | intro _ _ | split | dsimp only

theorem State.emChange_kept {k : State} (s : State) (x1 : Nat) (t : Nat) (key : List Byte) (res : Nat) (static :
  Bool) (x6 : Change) (hs : k.Kept s) : k.Kept (State.emChange s x1 t key res static x6).1 := by
  unfold State.emChange
  try dsimp only
  with_reducible repeat' first
    | assumption | apply State.clearEntry_kept | refine State.placeEntry_kept (by assumption) ?_ | apply State.setEmW_kept
    | apply State.setResult_kept | intro _ _ | split | dsimp only | refine State.Kept.mk_same ?_ (by rfl) (by rfl)

theorem State.emChange_kept_eq {k : State} {s : State} {x1 : Nat} {t : Nat} {key : List Byte} {res : Nat} {static :
  Bool} {x6 : Change} {ra rb} (ht : State.emChange s x1 t key res static x6 = (ra, rb)) (hs : k.Kept s) : k.Kept ra
  := by
  have := State.emChange_kept (k := k) s x1 t key res static x6 hs
  rw [ht] at this
  exact this

theorem State.emWrite_kept {k : State} (s : State) (x1 : Nat) (op : Nat) (t : Nat) (staged : Bool) (blk : List Byte)
  (hs : k.Kept s) : k.Kept (State.emWrite s x1 op t staged blk).1 := by
  unfold State.emWrite
  try dsimp only
  with_reducible repeat' first
    | assumption | apply State.emChange_kept | refine State.emChange_kept_eq (by assumption) ?_ | intro _ _ | split
    | dsimp only

theorem State.emWrite_kept_eq {k : State} {s : State} {x1 : Nat} {op : Nat} {t : Nat} {staged : Bool} {blk : List
  Byte} {ra rb} (ht : State.emWrite s x1 op t staged blk = (ra, rb)) (hs : k.Kept s) : k.Kept ra := by
  have := State.emWrite_kept (k := k) s x1 op t staged blk hs
  rw [ht] at this
  exact this

theorem State.bulkOne_kept {k : State} (s : State) (x1 : Nat) (op : Nat) (target : Nat) (l : Nat) (hs : k.Kept s) :
  k.Kept (State.bulkOne s x1 op target l) := by
  unfold State.bulkOne
  try dsimp only
  with_reducible repeat' first
    | assumption | apply State.clearEntry_kept | apply State.setResult_kept | intro _ _ | split | dsimp only

theorem State.bulkEach_kept {k : State} (s : State) (x1 : Nat) (op : Nat) (t : Nat) (blk : List Byte) (x5 : List Nat)
  (hs : k.Kept s) : k.Kept (State.bulkEach s x1 op t blk x5).1 := by
  induction x5 generalizing s x1 op t blk with
  | nil =>
    unfold State.bulkEach
    try dsimp only
    with_reducible repeat' first
      | assumption | apply State.bulkOne_kept | intro _ _ | split | dsimp only
  | cons a l ih =>
    unfold State.bulkEach
    try dsimp only
    with_reducible repeat' first
      | assumption | apply ih | apply State.bulkOne_kept | intro _ _ | split | dsimp only

theorem State.bulkEach_kept_eq {k : State} {s : State} {x1 : Nat} {op : Nat} {t : Nat} {blk : List Byte} {x5 : List
  Nat} {ra rb} (ht : State.bulkEach s x1 op t blk x5 = (ra, rb)) (hs : k.Kept s) : k.Kept ra := by
  have := State.bulkEach_kept (k := k) s x1 op t blk x5 hs
  rw [ht] at this
  exact this

theorem State.bulkStep_kept {k : State} (s : State) (x1 : Nat) (r : FgRun) (hs : k.Kept s) : k.Kept (State.bulkStep s
  x1 r).1 := by
  unfold State.bulkStep
  try dsimp only
  with_reducible repeat' first
    | assumption | apply State.learnServe_kept | apply State.bulkEach_kept
    | refine State.bulkEach_kept_eq (by assumption) ?_ | intro _ _ | split | dsimp only
    | refine State.Kept.mk_same ?_ (by rfl) (by rfl)

theorem State.bulkStep_kept_eq {k : State} {s : State} {x1 : Nat} {r : FgRun} {ra rb} (ht : State.bulkStep s x1 r =
  (ra, rb)) (hs : k.Kept s) : k.Kept ra := by
  have := State.bulkStep_kept (k := k) s x1 r hs
  rw [ht] at this
  exact this

theorem State.bulkRun_kept {k : State} (s : State) (x1 : Nat) (x2 : FgRun) (x3 : Nat) (hs : k.Kept s) : k.Kept
  (State.bulkRun s x1 x2 x3).1 := by
  induction x3 generalizing s x1 x2 with
  | zero =>
    unfold State.bulkRun
    try dsimp only
    with_reducible repeat' first
      | assumption | apply State.bulkStep_kept | refine State.bulkStep_kept_eq (by assumption) ?_ | intro _ _ | split
      | dsimp only
  | succ n ih =>
    unfold State.bulkRun
    try dsimp only
    with_reducible repeat' first
      | assumption | apply ih | apply State.bulkStep_kept | refine State.bulkStep_kept_eq (by assumption) ?_ | intro _ _
      | split | dsimp only

theorem State.bulkRun_kept_eq {k : State} {s : State} {x1 : Nat} {x2 : FgRun} {x3 : Nat} {ra rb} (ht : State.bulkRun
  s x1 x2 x3 = (ra, rb)) (hs : k.Kept s) : k.Kept ra := by
  have := State.bulkRun_kept (k := k) s x1 x2 x3 hs
  rw [ht] at this
  exact this

theorem State.setTcCtrl_kept {k : State} (s : State) (sl : Nat) (e : Nat) (w : Word) (hs : k.Kept s) : k.Kept
  (State.setTcCtrl s sl e w) := by
  unfold State.setTcCtrl
  try dsimp only
  with_reducible repeat' first
    | assumption | apply State.setMemW_kept | intro _ _ | split | dsimp only

theorem State.tcPut_kept {k : State} (s : State) (sl : Nat) (e : Nat) (blk : List Byte) (birth : Option Nat) (hs :
  k.Kept s) : k.Kept (State.tcPut s sl e blk birth) := by
  unfold State.tcPut
  try dsimp only
  with_reducible repeat' first
    | assumption | apply State.setMemWs_kept | intro _ _ | split | dsimp only

theorem State.tcOne_kept {k : State} (s : State) (op : Nat) (sl : Nat) (staged : Bool) (blk : List Byte) (hs : k.Kept
  s) : k.Kept (State.tcOne s op sl staged blk).1 := by
  unfold State.tcOne
  try dsimp only
  with_reducible repeat' first
    | assumption | apply State.setTcCtrl_kept | apply State.tcPut_kept | intro _ _ | split | dsimp only
    | refine State.Kept.mk_same ?_ (by rfl) (by rfl)

theorem State.tcOne_kept_eq {k : State} {s : State} {op : Nat} {sl : Nat} {staged : Bool} {blk : List Byte} {ra rb}
  (ht : State.tcOne s op sl staged blk = (ra, rb)) (hs : k.Kept s) : k.Kept ra := by
  have := State.tcOne_kept (k := k) s op sl staged blk hs
  rw [ht] at this
  exact this

theorem State.tcSlices_kept {k : State} (s : State) (op : Nat) (staged : Bool) (blk : List Byte) (x4 : List Nat) (hs
  : k.Kept s) : k.Kept (State.tcSlices s op staged blk x4).1 := by
  induction x4 generalizing s op staged blk with
  | nil =>
    unfold State.tcSlices
    try dsimp only
    with_reducible repeat' first
      | assumption | apply State.tcOne_kept | refine State.tcOne_kept_eq (by assumption) ?_ | intro _ _ | split
      | dsimp only
  | cons a l ih =>
    unfold State.tcSlices
    try dsimp only
    with_reducible repeat' first
      | assumption | apply ih | apply State.tcOne_kept | refine State.tcOne_kept_eq (by assumption) ?_ | intro _ _ | split
      | dsimp only

theorem State.tcSlices_kept_eq {k : State} {s : State} {op : Nat} {staged : Bool} {blk : List Byte} {x4 : List Nat}
  {ra rb} (ht : State.tcSlices s op staged blk x4 = (ra, rb)) (hs : k.Kept s) : k.Kept ra := by
  have := State.tcSlices_kept (k := k) s op staged blk x4 hs
  rw [ht] at this
  exact this

theorem State.tcHalf_kept {k : State} (s : State) (x1 : Nat) (op : Nat) (staged : Bool) (blk : List Byte) (sls : List
  Nat) (hs : k.Kept s) : k.Kept (State.tcHalf s x1 op staged blk sls).1 := by
  unfold State.tcHalf
  try dsimp only
  with_reducible repeat' first
    | assumption | apply State.tcSlices_kept | refine State.tcSlices_kept_eq (by assumption) ?_ | intro _ _ | split
    | dsimp only

theorem State.tcHalf_kept_eq {k : State} {s : State} {x1 : Nat} {op : Nat} {staged : Bool} {blk : List Byte} {sls :
  List Nat} {ra rb} (ht : State.tcHalf s x1 op staged blk sls = (ra, rb)) (hs : k.Kept s) : k.Kept ra := by
  have := State.tcHalf_kept (k := k) s x1 op staged blk sls hs
  rw [ht] at this
  exact this

theorem State.setLpm_kept {k : State} (s : State) (x1 : Nat) (l : List LpmPfx) (hs : k.Kept s) : k.Kept (State.setLpm
  s x1 l) := by
  unfold State.setLpm
  try dsimp only
  with_reducible repeat' first
    | assumption | apply State.raiseIf_kept | apply State.setWood_kept | intro _ _ | split | dsimp only
    | refine State.Kept.mk_same ?_ (by rfl) (by rfl)

theorem State.lpmChange_kept {k : State} (s : State) (x1 : Nat) (x : LpmPfx) (x3 : Change) (hs : k.Kept s) : k.Kept
  (State.lpmChange s x1 x x3).1 := by
  unfold State.lpmChange
  try dsimp only
  with_reducible repeat' first
    | assumption | apply State.raise_kept | apply State.setLpm_kept | intro _ _ | split | dsimp only
    | refine State.Kept.mk_same ?_ (by rfl) (by rfl)

theorem State.lpmChange_kept_eq {k : State} {s : State} {x1 : Nat} {x : LpmPfx} {x3 : Change} {ra rb} (ht :
  State.lpmChange s x1 x x3 = (ra, rb)) (hs : k.Kept s) : k.Kept ra := by
  have := State.lpmChange_kept (k := k) s x1 x x3 hs
  rw [ht] at this
  exact this

theorem State.lpmWrite_kept {k : State} (s : State) (x1 : Nat) (op : Nat) (n : Nat) (staged : Bool) (blk : List Byte)
  (hs : k.Kept s) : k.Kept (State.lpmWrite s x1 op n staged blk).1 := by
  unfold State.lpmWrite
  try dsimp only
  with_reducible repeat' first
    | assumption | apply State.lpmChange_kept | refine State.lpmChange_kept_eq (by assumption) ?_ | intro _ _ | split
    | dsimp only

theorem State.lpmWrite_kept_eq {k : State} {s : State} {x1 : Nat} {op : Nat} {n : Nat} {staged : Bool} {blk : List
  Byte} {ra rb} (ht : State.lpmWrite s x1 op n staged blk = (ra, rb)) (hs : k.Kept s) : k.Kept ra := by
  have := State.lpmWrite_kept (k := k) s x1 op n staged blk hs
  rw [ht] at this
  exact this

theorem State.lpmRead_kept {k : State} (s : State) (x1 : Nat) (n : Nat) (blk : List Byte) (hs : k.Kept s) : k.Kept
  (State.lpmRead s x1 n blk).1 := by
  unfold State.lpmRead
  try dsimp only
  with_reducible repeat' first
    | assumption | intro _ _ | split | dsimp only | refine State.Kept.mk_same ?_ (by rfl) (by rfl)

theorem State.lpmRead_kept_eq {k : State} {s : State} {x1 : Nat} {n : Nat} {blk : List Byte} {ra rb} (ht :
  State.lpmRead s x1 n blk = (ra, rb)) (hs : k.Kept s) : k.Kept ra := by
  have := State.lpmRead_kept (k := k) s x1 n blk hs
  rw [ht] at this
  exact this

theorem State.emRead_kept {k : State} (s : State) (x1 : Nat) (t : Nat) (blk : List Byte) (hs : k.Kept s) : k.Kept
  (State.emRead s x1 t blk).1 := by
  unfold State.emRead
  try dsimp only
  with_reducible repeat' first
    | assumption | intro _ _ | split | dsimp only | refine State.Kept.mk_same ?_ (by rfl) (by rfl)

theorem State.emRead_kept_eq {k : State} {s : State} {x1 : Nat} {t : Nat} {blk : List Byte} {ra rb} (ht :
  State.emRead s x1 t blk = (ra, rb)) (hs : k.Kept s) : k.Kept ra := by
  have := State.emRead_kept (k := k) s x1 t blk hs
  rw [ht] at this
  exact this

theorem State.routine_kept {k : State} (s : State) (x1 : Nat) (r : FgRun) (hs : k.Kept s) : k.Kept (State.routine s
  x1 r).1 := by
  unfold State.routine
  try dsimp only
  with_reducible repeat' first
    | assumption | apply State.pathEnd_kept | apply State.emWrite_kept | refine State.emWrite_kept_eq (by assumption) ?_
    | apply State.bulkRun_kept | refine State.bulkRun_kept_eq (by assumption) ?_ | apply State.tcHalf_kept
    | refine State.tcHalf_kept_eq (by assumption) ?_ | apply State.lpmWrite_kept
    | refine State.lpmWrite_kept_eq (by assumption) ?_ | apply State.lpmRead_kept
    | refine State.lpmRead_kept_eq (by assumption) ?_ | apply State.emRead_kept
    | refine State.emRead_kept_eq (by assumption) ?_ | intro _ _ | split | dsimp only
    | refine State.Kept.mk_same ?_ (by rfl) (by rfl)

theorem State.routine_kept_eq {k : State} {s : State} {x1 : Nat} {r : FgRun} {ra rb} (ht : State.routine s x1 r =
  (ra, rb)) (hs : k.Kept s) : k.Kept ra := by
  have := State.routine_kept (k := k) s x1 r hs
  rw [ht] at this
  exact this

theorem State.fgRun_kept {k : State} (s : State) (x1 : Nat) (r : FgRun) (hs : k.Kept s) : k.Kept (State.fgRun s x1
  r).1 := by
  unfold State.fgRun
  try dsimp only
  with_reducible repeat' first
    | assumption | apply State.setWood_kept | apply State.halfDone_kept | apply State.fgJournal_kept
    | apply State.bgYield_kept | apply State.routine_kept | refine State.routine_kept_eq (by assumption) ?_ | intro _ _
    | split | dsimp only | refine State.Kept.mk_same ?_ (by rfl) (by rfl)

theorem State.fgRun_kept_eq {k : State} {s : State} {x1 : Nat} {r : FgRun} {ra rb} (ht : State.fgRun s x1 r = (ra,
  rb)) (hs : k.Kept s) : k.Kept ra := by
  have := State.fgRun_kept (k := k) s x1 r hs
  rw [ht] at this
  exact this

theorem State.fgAll_kept {k : State} (s : State) (x1 : Nat) (x2 : List FgRun) (hs : k.Kept s) : k.Kept (State.fgAll s
  x1 x2) := by
  induction x2 generalizing s x1 with
  | nil =>
    unfold State.fgAll
    try dsimp only
    with_reducible repeat' first
      | assumption | apply State.lateAnswer_kept | apply State.fgRun_kept | refine State.fgRun_kept_eq (by assumption) ?_
      | intro _ _ | split | dsimp only
  | cons a l ih =>
    unfold State.fgAll
    try dsimp only
    with_reducible repeat' first
      | assumption | apply ih | apply State.lateAnswer_kept | apply State.fgRun_kept
      | refine State.fgRun_kept_eq (by assumption) ?_ | intro _ _ | split | dsimp only

theorem State.fgClear_kept {k : State} (s : State) (x1 : Nat) (hs : k.Kept s) : k.Kept (State.fgClear s x1) := by
  unfold State.fgClear
  try dsimp only
  with_reducible repeat' first
    | assumption | apply State.setWood_kept | apply State.fgAll_kept | intro _ _ | split | dsimp only
    | refine State.Kept.mk_same ?_ (by rfl) (by rfl)

theorem State.fgResume_kept {k : State} (s : State) (x1 : Nat) (hs : k.Kept s) : k.Kept (State.fgResume s x1) := by
  unfold State.fgResume
  try dsimp only
  with_reducible repeat' first
    | assumption | apply State.lateAnswer_kept | apply State.fgClear_kept | apply State.fgRun_kept
    | refine State.fgRun_kept_eq (by assumption) ?_ | apply State.setWood_kept | intro _ _ | split | dsimp only
    | refine State.Kept.mk_same ?_ (by rfl) (by rfl)

theorem State.seqResume_kept {k : State} (s : State) (x1 : Nat) (hs : k.Kept s) : k.Kept (State.seqResume s x1) := by
  unfold State.seqResume
  try dsimp only
  with_reducible repeat' first
    | assumption | apply State.fgResume_kept | apply State.setWood_kept | intro _ _ | split | dsimp only
    | refine State.Kept.mk_same ?_ (by rfl) (by rfl)

theorem State.fgAbandon_kept {k : State} (s : State) (x1 : Nat) (hs : k.Kept s) : k.Kept (State.fgAbandon s x1) := by
  unfold State.fgAbandon
  try dsimp only
  with_reducible repeat' first
    | assumption | apply State.halfDone_kept | apply State.lateAnswer_kept | apply State.raise_kept
    | apply State.fgClear_kept | apply State.pathLeave_kept | apply State.fgJournal_kept | intro _ _ | split | dsimp only
    | refine State.Kept.mk_same ?_ (by rfl) (by rfl)

theorem State.bgAbandon_kept {k : State} (s : State) (x1 : Nat) (hs : k.Kept s) : k.Kept (State.bgAbandon s x1) := by
  unfold State.bgAbandon
  try dsimp only
  with_reducible repeat' first
    | assumption | apply State.setReg_kept | apply State.setWood_kept | apply State.migDrop_kept | intro _ _ | split
    | dsimp only | refine State.Kept.mk_same ?_ (by rfl) (by rfl)

theorem State.seqAbandon_kept {k : State} (s : State) (x1 : Nat) (hs : k.Kept s) : k.Kept (State.seqAbandon s x1) := by
  unfold State.seqAbandon
  try dsimp only
  with_reducible repeat' first
    | assumption | apply State.fgAbandon_kept | apply State.bgAbandon_kept | apply State.setWood_kept | intro _ _ | split
    | dsimp only | refine State.Kept.mk_same ?_ (by rfl) (by rfl)

theorem State.fgLost_kept {k : State} (s : State) (x1 : Nat) (x2 : List FgRun) (hs : k.Kept s) : k.Kept (State.fgLost
  s x1 x2) := by
  induction x2 generalizing s x1 with
  | nil =>
    unfold State.fgLost
    try dsimp only
    with_reducible repeat' first
      | assumption | apply State.halfDone_kept | apply State.lateAnswer_kept | intro _ _ | split | dsimp only
  | cons a l ih =>
    unfold State.fgLost
    try dsimp only
    with_reducible repeat' first
      | assumption | apply ih | apply State.halfDone_kept | apply State.lateAnswer_kept | intro _ _ | split | dsimp only

theorem State.seqStop_kept {k : State} (s : State) (x1 : Nat) (hs : k.Kept s) : k.Kept (State.seqStop s x1) := by
  unfold State.seqStop
  try dsimp only
  with_reducible repeat' first
    | assumption | apply State.setReg_kept | apply State.setWood_kept | intro _ _ | split | dsimp only
    | refine State.Kept.mk_same ?_ (by rfl) (by rfl)

theorem State.fgEnable_kept {k : State} (s : State) (x1 : Nat) (hs : k.Kept s) : k.Kept (State.fgEnable s x1) := by
  unfold State.fgEnable
  try dsimp only
  with_reducible repeat' first
    | assumption | apply State.fgResume_kept | intro _ _ | split | dsimp only

theorem State.bgJournal_kept {k : State} (s : State) (x1 : Nat) (code : Nat) (step : Nat) (cursor : Nat) (path : List
  Nat) (exit : Nat) (hs : k.Kept s) : k.Kept (State.bgJournal s x1 code step cursor path exit) := by
  unfold State.bgJournal
  try dsimp only
  with_reducible repeat' first
    | assumption | apply State.setReg_kept | intro _ _ | split | dsimp only
    | refine State.Kept.mk_same ?_ (by rfl) (by rfl)

theorem State.bgStep_kept {k : State} (s : State) (x1 : Nat) (code : Nat) (cursor : Nat) (path : List Nat) (done :
  Bool) (hs : k.Kept s) : k.Kept (State.bgStep s x1 code cursor path done) := by
  unfold State.bgStep
  try dsimp only
  with_reducible repeat' first
    | assumption | apply State.bgJournal_kept | apply State.setWood_kept | intro _ _ | split | dsimp only
    | refine State.Kept.mk_same ?_ (by rfl) (by rfl)

theorem State.fgSteps_kept {k : State} (s : State) (x1 : Nat) (r : FgRun) (n : Nat) (hs : k.Kept s) : k.Kept
  (State.fgSteps s x1 r n).1 := by
  unfold State.fgSteps
  try dsimp only
  with_reducible repeat' first
    | assumption | apply State.pathRun_kept | apply State.bulkRun_kept | refine State.bulkRun_kept_eq (by assumption) ?_
    | intro _ _ | split | dsimp only | refine State.Kept.mk_same ?_ (by rfl) (by rfl)

theorem State.fgSteps_kept_eq {k : State} {s : State} {x1 : Nat} {r : FgRun} {n : Nat} {ra rb} (ht : State.fgSteps s
  x1 r n = (ra, rb)) (hs : k.Kept s) : k.Kept ra := by
  have := State.fgSteps_kept (k := k) s x1 r n hs
  rw [ht] at this
  exact this

theorem State.runHalf_kept {k : State} (s : State) (r : FgRun) (n : Nat) (x3 : Nat) (hs : k.Kept s) : k.Kept
  (State.runHalf s r n x3).1 := by
  unfold State.runHalf
  try dsimp only
  with_reducible repeat' first
    | assumption | apply State.fgRun_kept | refine State.fgRun_kept_eq (by assumption) ?_ | apply State.fgJournal_kept
    | apply State.fgSteps_kept | refine State.fgSteps_kept_eq (by assumption) ?_ | apply State.setWood_kept
    | apply State.raise_kept | intro _ _ | split | dsimp only | refine State.Kept.mk_same ?_ (by rfl) (by rfl)

theorem State.runHalf_kept_eq {k : State} {s : State} {r : FgRun} {n : Nat} {x3 : Nat} {ra rb} (ht : State.runHalf s
  r n x3 = (ra, rb)) (hs : k.Kept s) : k.Kept ra := by
  have := State.runHalf_kept (k := k) s r n x3 hs
  rw [ht] at this
  exact this

theorem State.runHalves_kept {k : State} (s : State) (r : FgRun) (n : Nat) (x3 : List Nat) (x4 : Option Answer) (x5 :
  Nat) (hs : k.Kept s) : k.Kept (State.runHalves s r n x3 x4 x5).1 := by
  induction x3 generalizing s r n x4 x5 with
  | nil =>
    unfold State.runHalves
    try dsimp only
    with_reducible repeat' first
      | assumption | apply State.runHalf_kept | refine State.runHalf_kept_eq (by assumption) ?_ | intro _ _ | split
      | dsimp only | refine State.Kept.mk_same ?_ (by rfl) (by rfl)
  | cons a l ih =>
    unfold State.runHalves
    try dsimp only
    with_reducible repeat' first
      | assumption | apply ih | apply State.runHalf_kept | refine State.runHalf_kept_eq (by assumption) ?_ | intro _ _
      | split | dsimp only | refine State.Kept.mk_same ?_ (by rfl) (by rfl)

theorem State.runHalves_kept_eq {k : State} {s : State} {r : FgRun} {n : Nat} {x3 : List Nat} {x4 : Option Answer}
  {x5 : Nat} {ra rb} (ht : State.runHalves s r n x3 x4 x5 = (ra, rb)) (hs : k.Kept s) : k.Kept ra := by
  have := State.runHalves_kept (k := k) s r n x3 x4 x5 hs
  rw [ht] at this
  exact this

theorem State.started_kept {k : State} (s : State) (i : Nat) (d : Done) (hs : k.Kept s) : k.Kept (State.started s i
  d) := by
  unfold State.started
  try dsimp only
  with_reducible repeat' first
    | assumption | apply State.setHq_kept | intro _ _ | split | dsimp only | refine State.Kept.mk_same ?_ (by rfl) (by rfl)

theorem State.errAll_kept {k : State} (s : State) (x1 : List Nat) (hs : k.Kept s) : k.Kept (State.errAll s x1) := by
  induction x1 generalizing s with
  | nil =>
    unfold State.errAll
    try dsimp only
    with_reducible repeat' first
      | assumption | apply State.raise_kept | intro _ _ | split | dsimp only
  | cons a l ih =>
    unfold State.errAll
    try dsimp only
    with_reducible repeat' first
      | assumption | apply ih | apply State.raise_kept | intro _ _ | split | dsimp only

theorem State.tableCmd_kept {k : State} (s : State) (q : Nat) (p : Nat → Bool) (blk : List Byte) (n : Nat) (hs :
  k.Kept s) : k.Kept (State.tableCmd s q p blk n) := by
  unfold State.tableCmd
  try dsimp only
  with_reducible repeat' first
    | assumption | apply State.runHalves_kept | refine State.runHalves_kept_eq (by assumption) ?_
    | apply State.started_kept | apply State.errAll_kept | apply State.hintStart_kept | intro _ _ | split | dsimp only
    | refine State.Kept.mk_same ?_ (by rfl) (by rfl)

theorem State.tableDmaError_kept {k : State} (s : State) (q : Nat) (hs : k.Kept s) : k.Kept (State.tableDmaError s q)
  := by
  unfold State.tableDmaError
  try dsimp only
  with_reducible repeat' first
    | assumption | apply State.started_kept | apply State.errAll_kept | apply State.count_kept | apply State.hintStart_kept
    | intro _ _ | split | dsimp only | refine State.Kept.mk_same ?_ (by rfl) (by rfl)

theorem State.learnJournal_kept {k : State} (s : State) (x1 : Nat) (hs : k.Kept s) : k.Kept (State.learnJournal s x1)
  := by
  unfold State.learnJournal
  try dsimp only
  with_reducible repeat' first
    | assumption | apply State.journal_kept | intro _ _ | split | dsimp only

theorem State.eastNext_kept {k : State} (s : State) (hs : k.Kept s) : k.Kept (State.eastNext s) := by
  unfold State.eastNext
  try dsimp only
  with_reducible repeat' first
    | assumption | apply State.bgYield_kept | apply State.learnJournal_kept | apply State.eastApply_kept | intro _ _
    | split | dsimp only | refine State.Kept.mk_same ?_ (by rfl) (by rfl)

theorem State.bgRun_kept {k : State} (s : State) (x1 : Nat) (f : State → State) (hs : k.Kept s) (hf : ∀ s, k.Kept s →
  k.Kept (f s)) : k.Kept (State.bgRun s x1 f) := by
  unfold State.bgRun
  try dsimp only
  with_reducible repeat' first
    | assumption | apply hf | apply State.bgYield_kept | intro _ _ | split | dsimp only

theorem State.seqReady_kept {k : State} (s : State) (x1 : Nat) (hs : k.Kept s) : k.Kept (State.seqReady s x1) := by
  unfold State.seqReady
  try dsimp only
  with_reducible repeat' first
    | assumption | apply State.raise_kept | apply State.setWood_kept | apply State.fgResume_kept | intro _ _ | split
    | dsimp only | refine State.Kept.mk_same ?_ (by rfl) (by rfl)

theorem State.learnNext_kept {k : State} (s : State) (x1 : Nat) (hs : k.Kept s) : k.Kept (State.learnNext s x1) := by
  unfold State.learnNext
  try dsimp only
  with_reducible repeat' first
    | assumption | apply State.setWood_kept | apply State.bgYield_kept | apply State.learnJournal_kept
    | apply State.learnTake_kept | intro _ _ | split | dsimp only | refine State.Kept.mk_same ?_ (by rfl) (by rfl)

/-! ### Tally -/

theorem State.setRec_kept {k : State} (s : State) (x1 : Nat) (x2 : Nat) (r : Option FlowRec) (hs : k.Kept s) : k.Kept
  (State.setRec s x1 x2 r) := by
  unfold State.setRec
  try dsimp only
  with_reducible repeat' first
    | assumption | apply State.raiseIf_kept | apply State.setTally_kept | intro _ _ | split | dsimp only
    | refine State.Kept.mk_same ?_ (by rfl) (by rfl)

theorem State.hbmUncorr_kept {k : State} (s : State) (x1 : Nat) (unit : Nat) (hs : k.Kept s) : k.Kept
  (State.hbmUncorr s x1 unit) := by
  unfold State.hbmUncorr
  try dsimp only
  with_reducible repeat' first
    | assumption | apply State.count_kept | apply State.raise_kept | apply State.latchFirst_kept | intro _ _ | split
    | dsimp only

theorem State.retrain_kept {k : State} (s : State) (x1 : Nat) (hs : k.Kept s) : k.Kept (State.retrain s x1) := by
  unfold State.retrain
  try dsimp only
  with_reducible repeat' first
    | assumption | apply State.setHbm_kept | apply State.raise_kept | intro _ _ | split | dsimp only
    | refine State.Kept.mk_same ?_ (by rfl) (by rfl)

theorem State.zeroOvf_kept {k : State} (s : State) (pg : Nat) (x2 : Nat) (hs : k.Kept s) : k.Kept (State.zeroOvf s pg
  x2) := by
  induction x2 generalizing s pg with
  | zero =>
    unfold State.zeroOvf
    try dsimp only
    with_reducible repeat' first
      | assumption | apply State.setReg64_kept | intro _ _ | split | dsimp only
  | succ n ih =>
    unfold State.zeroOvf
    try dsimp only
    with_reducible repeat' first
      | assumption | apply ih | apply State.setReg64_kept | intro _ _ | split | dsimp only

theorem State.clearTally_kept {k : State} (s : State) (x1 : Nat) (hs : k.Kept s) : k.Kept (State.clearTally s x1) := by
  unfold State.clearTally
  try dsimp only
  with_reducible repeat' first
    | assumption | apply State.setReg_kept | apply State.setReg64_kept | apply State.zeroOvf_kept
    | apply State.setTally_kept | intro _ _ | split | dsimp only | refine State.Kept.mk_same ?_ (by rfl) (by rfl)

theorem State.exportAll_kept {k : State} (s : State) (x1 : Nat) (hs : k.Kept s) : k.Kept (State.exportAll s x1) := by
  unfold State.exportAll
  try dsimp only
  with_reducible repeat' first
    | assumption | apply State.setTally_kept | intro _ _ | split | dsimp only
    | refine State.Kept.mk_same ?_ (by rfl) (by rfl)

theorem State.closeFill_kept {k : State} (s : State) (i : Nat) (hs : k.Kept s) : k.Kept (State.closeFill s i) := by
  unfold State.closeFill
  try dsimp only
  with_reducible repeat' first
    | assumption | apply State.setHq_kept | intro _ _ | split | dsimp only

theorem State.closeExports_kept {k : State} (s : State) (x1 : Nat) (cmd : Nat) (x3 : Nat) (hs : k.Kept s) : k.Kept
  (State.closeExports s x1 cmd x3) := by
  induction x3 generalizing s x1 cmd with
  | zero =>
    unfold State.closeExports
    try dsimp only
    with_reducible repeat' first
      | assumption | apply State.closeFill_kept | intro _ _ | split | dsimp only
  | succ n ih =>
    unfold State.closeExports
    try dsimp only
    with_reducible repeat' first
      | assumption | apply ih | apply State.closeFill_kept | intro _ _ | split | dsimp only

theorem State.flushCheck_kept {k : State} (s : State) (x1 : Nat) (hs : k.Kept s) : k.Kept (State.flushCheck s x1) := by
  unfold State.flushCheck
  try dsimp only
  with_reducible repeat' first
    | assumption | apply State.setTally_kept | apply State.closeExports_kept | apply State.raise_kept | intro _ _ | split
    | dsimp only | refine State.Kept.mk_same ?_ (by rfl) (by rfl)

theorem State.flush_kept {k : State} (s : State) (x1 : Nat) (hs : k.Kept s) : k.Kept (State.flush s x1) := by
  unfold State.flush
  try dsimp only
  with_reducible repeat' first
    | assumption | apply State.setTally_kept | apply State.flushCheck_kept | intro _ _ | split | dsimp only
    | refine State.Kept.mk_same ?_ (by rfl) (by rfl)

theorem State.lineLost_kept {k : State} (s : State) (x1 : Nat) (i : Nat) (d : FlowRec) (hs : k.Kept s) : k.Kept
  (State.lineLost s x1 i d) := by
  unfold State.lineLost
  try dsimp only
  with_reducible repeat' first
    | assumption | apply State.raise_kept | apply State.count64_kept | intro _ _ | split | dsimp only

theorem State.sendIpfix_kept {k : State} (s : State) (x1 : Nat) (hs : k.Kept s) : k.Kept (State.sendIpfix s x1) := by
  unfold State.sendIpfix
  try dsimp only
  with_reducible repeat' first
    | assumption | apply State.enterDeck_kept | apply State.setTally_kept | intro _ _ | split | dsimp only
    | refine State.Kept.mk_same ?_ (by rfl) (by rfl)

theorem State.exportIpfix_kept {k : State} (s : State) (x1 : Nat) (e : Export) (hs : k.Kept s) : k.Kept
  (State.exportIpfix s x1 e) := by
  unfold State.exportIpfix
  try dsimp only
  with_reducible repeat' first
    | assumption | apply State.setTally_kept | apply State.sendIpfix_kept | intro _ _ | split | dsimp only
    | refine State.Kept.mk_same ?_ (by rfl) (by rfl)

theorem State.exportQueue_kept {k : State} {s : State} {n : Nat} {e : Export} {rr : State} (ht : State.exportQueue s
  n e = some rr) (hs : k.Kept s) : k.Kept rr := by
  unfold State.exportQueue at ht
  dsimp only at ht
  repeat' (split at ht)
  all_goals (first | contradiction | skip)
  all_goals (try (cases ht))
  all_goals
    with_reducible repeat' first
      | assumption | apply State.closeFill_kept | apply State.setHq_kept | intro _ _ | split | dsimp only
      | refine State.Kept.mk_same ?_ (by rfl) (by rfl)

theorem State.sendRec_kept {k : State} {s : State} {x1 : Nat} {e : Export} {rr : State} (ht : State.sendRec s x1 e =
  some rr) (hs : k.Kept s) : k.Kept rr := by
  unfold State.sendRec at ht
  dsimp only at ht
  repeat' (split at ht)
  all_goals (first | contradiction | skip)
  all_goals (try (cases ht))
  all_goals
    with_reducible repeat' first
      | assumption | apply State.exportIpfix_kept | refine State.exportQueue_kept (by assumption) ?_ | intro _ _ | split
      | dsimp only

theorem State.exportRec_kept {k : State} {s : State} {x1 : Nat} {r : FlowRec} {cause : Nat} {cmd : Nat} {rr : State}
  (ht : State.exportRec s x1 r cause cmd = some rr) (hs : k.Kept s) : k.Kept rr := by
  obtain ⟨t, h, rfl⟩ := Option.map_eq_some_iff.1 ht
  exact State.count64_kept _ _ _ _ (State.count64_kept _ _ _ _ (State.count64_kept _ _ _ _ (State.sendRec_kept h hs)))

theorem State.applyLine_kept {k : State} {s : State} {x1 : Nat} {i : Nat} {d : FlowRec} {cmd : Nat} {rr : State} (ht
  : State.applyLine s x1 i d cmd = some rr) (hs : k.Kept s) : k.Kept rr := by
  unfold State.applyLine at ht
  dsimp only at ht
  split at ht
  · cases ht; exact State.lineLost_kept _ _ _ _ hs
  · split at ht
    · split at ht
      · obtain ⟨t, h, rfl⟩ := Option.map_eq_some_iff.1 ht
        exact State.count64_kept _ _ _ _ (State.setRec_kept _ _ _ _ (State.exportRec_kept h hs))
      · cases ht; exact State.count64_kept _ _ _ _ (State.setRec_kept _ _ _ _ hs)
    · split at ht
      · cases ht; exact State.count64_kept _ _ _ _ (State.setRec_kept _ _ _ _ hs)
      · cases ht; exact State.lineLost_kept _ _ _ _ hs

theorem State.exportOvf_kept {k : State} {s : State} {x1 : Nat} {i : Nat} {rr : State} (ht : State.exportOvf s x1 i =
  some rr) (hs : k.Kept s) : k.Kept rr := by
  obtain ⟨t, h, rfl⟩ := Option.map_eq_some_iff.1 ht
  exact State.setTally_kept _ _ _ (State.sendRec_kept h hs)

theorem State.exportCheck_kept {k : State} (s : State) (x1 : Nat) (hs : k.Kept s) : k.Kept (State.exportCheck s x1)
  := by
  unfold State.exportCheck
  try dsimp only
  with_reducible repeat' first
    | assumption | apply State.closeExports_kept | apply State.raise_kept | apply State.setTally_kept | intro _ _ | split
    | dsimp only | refine State.Kept.mk_same ?_ (by rfl) (by rfl)

theorem State.exportOvfs_kept {k : State} (s : State) (x1 : Nat) (x2 : Nat) (x3 : Nat) (hs : k.Kept s) : k.Kept
  (State.exportOvfs s x1 x2 x3) := by
  induction x3 generalizing s x2 with
  | zero => exact State.exportCheck_kept _ _ (State.setTally_kept _ _ _ hs)
  | succ n ih =>
    unfold State.exportOvfs
    split
    · exact ih _ _ (State.exportOvf_kept (by assumption) hs)
    · exact State.setTally_kept _ _ _ hs

theorem State.loseRecs_kept {k : State} (s : State) (x1 : Nat) (ok : BitVec 4) (x3 : Nat) (x4 : List Nat) (hs :
  k.Kept s) : k.Kept (State.loseRecs s x1 ok x3 x4) := by
  induction x4 generalizing s x1 ok x3 with
  | nil =>
    unfold State.loseRecs
    try dsimp only
    with_reducible repeat' first
      | assumption | apply State.setTally_kept | apply State.count64_kept | apply State.setRec_kept
      | apply State.count_kept | intro _ _ | split | dsimp only | refine State.Kept.mk_same ?_ (by rfl) (by rfl)
  | cons a l ih =>
    unfold State.loseRecs
    try dsimp only
    with_reducible repeat' first
      | assumption | apply ih | apply State.setTally_kept | apply State.count64_kept | apply State.setRec_kept
      | apply State.count_kept | intro _ _ | split | dsimp only | refine State.Kept.mk_same ?_ (by rfl) (by rfl)

theorem State.hbmLost_kept {k : State} (s : State) (x1 : Nat) (u : Nat) (ok : BitVec 4) (hs : k.Kept s) : k.Kept
  (State.hbmLost s x1 u ok) := by
  unfold State.hbmLost
  try dsimp only
  with_reducible repeat' first
    | assumption | apply State.loseRecs_kept | apply State.raise_kept | apply State.hbmUncorr_kept | apply State.drawn_kept
    | intro _ _ | split | dsimp only

theorem State.hbmErrs_kept {k : State} (s : State) (x1 : Nat) (hs : k.Kept s) : k.Kept (State.hbmErrs s x1) := by
  unfold State.hbmErrs
  try dsimp only
  with_reducible repeat' first
    | assumption | apply State.retrain_kept | apply State.setHbm_kept | apply State.count_kept | apply State.drawn_kept
    | intro _ _ | split | dsimp only | refine State.Kept.mk_same ?_ (by rfl) (by rfl)

theorem execClearDone_kept {k : State} {x0 : Half} {s : State} {rr : State} (ht : execClearDone x0 s = .next rr) (hs
  : k.Kept s) : k.Kept rr := by
  refine State.run_kept (fun s hs => ?_) hs ht
  try dsimp only
  with_reducible repeat' first
    | assumption | apply State.setTally_kept | apply State.flushCheck_kept | apply State.raise_kept
    | apply State.onlyIf_kept | intro _ _ | split | dsimp only | refine State.Kept.mk_same ?_ (by rfl) (by rfl)

theorem State.paceSpend_kept {k : State} (s : State) (x1 : Nat) (hs : k.Kept s) : k.Kept (State.paceSpend s x1) := by
  unfold State.paceSpend
  try dsimp only
  with_reducible repeat' first
    | assumption | apply State.setTally_kept | intro _ _ | split | dsimp only
    | refine State.Kept.mk_same ?_ (by rfl) (by rfl)

theorem State.scanSlots_kept {k : State} (s : State) (x1 : Nat) (forced : Bool) (x3 : List Nat) (hs : k.Kept s) :
  k.Kept (State.scanSlots s x1 forced x3).1 := by
  induction x3 generalizing s x1 forced with
  | nil =>
    unfold State.scanSlots
    try dsimp only
    with_reducible repeat' first
      | assumption | apply State.setRec_kept | refine State.exportRec_kept (by assumption) ?_ | intro _ _ | split
      | dsimp only | refine State.Kept.mk_same ?_ (by rfl) (by rfl)
  | cons a l ih =>
    unfold State.scanSlots
    try dsimp only
    with_reducible repeat' first
      | assumption | apply ih | apply State.setRec_kept | refine State.exportRec_kept (by assumption) ?_ | intro _ _
      | split | dsimp only | refine State.Kept.mk_same ?_ (by rfl) (by rfl)

theorem State.scanSlots_kept_eq {k : State} {s : State} {x1 : Nat} {forced : Bool} {x3 : List Nat} {ra rb} (ht :
  State.scanSlots s x1 forced x3 = (ra, rb)) (hs : k.Kept s) : k.Kept ra := by
  have := State.scanSlots_kept (k := k) s x1 forced x3 hs
  rw [ht] at this
  exact this

theorem State.scanVisit_kept {k : State} (s : State) (x1 : Nat) (hs : k.Kept s) : k.Kept (State.scanVisit s x1) := by
  unfold State.scanVisit
  try dsimp only
  with_reducible repeat' first
    | assumption | apply State.setTally_kept | apply State.exportCheck_kept | apply State.scanSlots_kept
    | refine State.scanSlots_kept_eq (by assumption) ?_ | intro _ _ | split | dsimp only
    | refine State.Kept.mk_same ?_ (by rfl) (by rfl)

theorem State.evictOne_kept {k : State} (s : State) (x1 : Nat) (hs : k.Kept s) : k.Kept (State.evictOne s x1) := by
  unfold State.evictOne
  try dsimp only
  with_reducible repeat' first
    | assumption | apply State.flushCheck_kept | refine State.applyLine_kept (by assumption) ?_ | apply State.setTally_kept
    | intro _ _ | split | dsimp only | refine State.Kept.mk_same ?_ (by rfl) (by rfl)

theorem execTallyEviction_kept {k : State} {x0 : Half} {s : State} {rr : State} (ht : execTallyEviction x0 s = .next
  rr) (hs : k.Kept s) : k.Kept rr := by
  refine State.run_kept (fun s hs => ?_) hs ht
  try dsimp only
  with_reducible repeat' first
    | assumption | apply State.paceSpend_kept | apply State.evictOne_kept | apply State.onlyIf_kept | intro _ _ | split
    | dsimp only

theorem State.cacheBack_kept {k : State} (s : State) (x1 : Nat) (x2 : Nat) (hs : k.Kept s) : k.Kept (State.cacheBack
  s x1 x2) := by
  unfold State.cacheBack
  try dsimp only
  with_reducible repeat' first
    | assumption | apply State.setTally_kept | intro _ _ | split | dsimp only
    | refine State.Kept.mk_same ?_ (by rfl) (by rfl)

theorem execCacheWriteback_kept {k : State} {sl : Slice} {line : Fin 65536} {s : State} {rr : State} (ht :
  execCacheWriteback sl line s = .next rr) (hs : k.Kept s) : k.Kept rr := by
  refine State.run_kept (fun s hs => ?_) hs ht
  try dsimp only
  with_reducible repeat' first
    | assumption | apply State.cacheBack_kept | apply State.onlyIf_kept | intro _ _ | split | dsimp only

theorem State.retrainEnd_kept {k : State} (s : State) (x1 : Nat) (failed : Bool) (hs : k.Kept s) : k.Kept
  (State.retrainEnd s x1 failed) := by
  unfold State.retrainEnd
  try dsimp only
  with_reducible repeat' first
    | assumption | apply State.count_kept | apply State.setReg_kept | apply State.setHbm_kept | apply State.raise_kept
    | intro _ _ | split | dsimp only | refine State.Kept.mk_same ?_ (by rfl) (by rfl)

theorem execRetrainDone_kept {k : State} {x0 : Half} {failed : Bool} {s : State} {rr : State} (ht : execRetrainDone
  x0 failed s = .next rr) (hs : k.Kept s) : k.Kept rr := by
  refine State.run_kept (fun s hs => ?_) hs ht
  try dsimp only
  with_reducible repeat' first
    | assumption | apply State.retrainEnd_kept | intro _ _ | split | dsimp only

theorem execOverflowExport_kept {k : State} {x0 : Half} {s : State} {rr : State} (ht : execOverflowExport x0 s =
  .next rr) (hs : k.Kept s) : k.Kept rr := by
  refine State.run_kept (fun s hs => ?_) hs ht
  try dsimp only
  with_reducible repeat' first
    | assumption | apply State.exportOvfs_kept | apply State.onlyIf_kept | intro _ _ | split | dsimp only

theorem execHbmLost_kept {k : State} {x0 : Half} {bucket : Fin 4194304} {countsOk : BitVec 4} {s : State} {rr :
  State} (ht : execHbmLost x0 bucket countsOk s = .next rr) (hs : k.Kept s) : k.Kept rr := by
  refine State.run_kept (fun s hs => ?_) hs ht
  try dsimp only
  with_reducible repeat' first
    | assumption | apply State.hbmLost_kept | apply State.onlyIf_kept | intro _ _ | split | dsimp only

theorem execIpfixMessage_kept {k : State} {x0 : Half} {s : State} {rr : State} (ht : execIpfixMessage x0 s = .next
  rr) (hs : k.Kept s) : k.Kept rr := by
  refine State.run_kept (fun s hs => ?_) hs ht
  try dsimp only
  with_reducible repeat' first
    | assumption | apply State.sendIpfix_kept | apply State.onlyIf_kept | intro _ _ | split | dsimp only

theorem execScanVisit_kept {k : State} {x0 : Half} {s : State} {rr : State} (ht : execScanVisit x0 s = .next rr) (hs
  : k.Kept s) : k.Kept rr := by
  refine State.run_kept (fun s hs => ?_) hs ht
  try dsimp only
  with_reducible repeat' first
    | assumption | apply State.scanVisit_kept | apply State.onlyIf_kept | intro _ _ | split | dsimp only

/-! ### HostDma -/

theorem State.hqLeave_kept {k : State} (s : State) (i : Nat) (hs : k.Kept s) : k.Kept (State.hqLeave s i) := by
  unfold State.hqLeave
  try dsimp only
  with_reducible repeat' first
    | assumption | apply State.setHq_kept | apply State.dropPunts_kept | intro _ _ | split | dsimp only
    | refine State.Kept.mk_same ?_ (by rfl) (by rfl)

theorem State.hqCtrlWrite_kept {k : State} (s : State) (i : Nat) (v : Word) (hs : k.Kept s) : k.Kept
  (State.hqCtrlWrite s i v) := by
  unfold State.hqCtrlWrite
  try dsimp only
  with_reducible repeat' first
    | assumption | apply State.hqLeave_kept | apply State.setHq_kept | apply State.setHqReg_kept | intro _ _ | split
    | dsimp only | refine State.Kept.mk_same ?_ (by rfl) (by rfl)

theorem State.hqHalt_kept {k : State} (s : State) (i : Nat) (err : Nat) (hs : k.Kept s) : k.Kept (State.hqHalt s i
  err) := by
  unfold State.hqHalt
  try dsimp only
  with_reducible repeat' first
    | assumption | apply State.count_kept | apply State.raise_kept | apply State.setHq_kept | apply State.hqLeave_kept
    | intro _ _ | split | dsimp only | refine State.Kept.mk_same ?_ (by rfl) (by rfl)

theorem State.doorbell_kept {k : State} (s : State) (i : Nat) (v : Word) (hs : k.Kept s) : k.Kept (State.doorbell s i
  v) := by
  unfold State.doorbell
  try dsimp only
  with_reducible repeat' first
    | assumption | apply State.coverTo_kept | apply State.hqHalt_kept | apply State.setHqReg_kept | apply State.setReg_kept
    | intro _ _ | split | dsimp only

theorem State.hqsOff_kept {k : State} (s : State) (x1 : Nat) (hs : k.Kept s) : k.Kept (State.hqsOff s x1) := by
  induction x1 generalizing s with
  | zero =>
    unfold State.hqsOff
    try dsimp only
    with_reducible repeat' first
      | assumption | apply State.setHq_kept | apply State.dropPunts_kept | intro _ _ | split | dsimp only
      | refine State.Kept.mk_same ?_ (by rfl) (by rfl)
  | succ n ih =>
    unfold State.hqsOff
    try dsimp only
    with_reducible repeat' first
      | assumption | apply ih | apply State.setHq_kept | apply State.dropPunts_kept | intro _ _ | split | dsimp only
      | refine State.Kept.mk_same ?_ (by rfl) (by rfl)

theorem State.functionReset_kept {k : State} (s : State) (hs : k.Kept s) : k.Kept (State.functionReset s) := by
  unfold State.functionReset
  try dsimp only
  with_reducible repeat' first
    | assumption | apply State.hqsOff_kept | apply State.count_kept | apply State.raise_kept | intro _ _ | split
    | dsimp only | refine State.Kept.mk_same ?_ (by rfl) (by rfl)

theorem State.pcieDown_kept {k : State} (s : State) (hs : k.Kept s) : k.Kept (State.pcieDown s) := by
  unfold State.pcieDown
  try dsimp only
  with_reducible repeat' first
    | assumption | apply State.functionReset_kept | intro _ _ | split | dsimp only
    | refine State.Kept.mk_same ?_ (by rfl) (by rfl)

theorem State.perst_kept {k : State} (s : State) (level : Bool) (hs : k.Kept s) : k.Kept (State.perst s level) := by
  unfold State.perst
  try dsimp only
  with_reducible repeat' first
    | assumption | apply State.functionReset_kept | apply State.pcieDown_kept | intro _ _ | split | dsimp only
    | refine State.Kept.mk_same ?_ (by rfl) (by rfl)

theorem execPerstN_kept {k : State} {level : Bool} {s : State} {rr : State} (ht : execPerstN level s = .next rr) (hs
  : k.Kept s) : k.Kept rr := by
  refine State.run_kept (fun s hs => ?_) hs ht
  try dsimp only
  with_reducible repeat' first
    | assumption | apply State.perst_kept | intro _ _ | split | dsimp only

theorem State.hqSignalled_kept {k : State} (s : State) (x1 : List Nat) (hs : k.Kept s) : k.Kept (State.hqSignalled s
  x1) := by
  induction x1 generalizing s with
  | nil =>
    unfold State.hqSignalled
    try dsimp only
    with_reducible repeat' first
      | assumption | apply State.setHq_kept | intro _ _ | split | dsimp only
      | refine State.Kept.mk_same ?_ (by rfl) (by rfl)
  | cons a l ih =>
    unfold State.hqSignalled
    try dsimp only
    with_reducible repeat' first
      | assumption | apply ih | apply State.setHq_kept | intro _ _ | split | dsimp only
      | refine State.Kept.mk_same ?_ (by rfl) (by rfl)

theorem State.irqHoldoff_kept {k : State} (s : State) (i : Nat) (hs : k.Kept s) : k.Kept (State.irqHoldoff s i) := by
  unfold State.irqHoldoff
  try dsimp only
  with_reducible repeat' first
    | assumption | apply State.hqSignalled_kept | apply State.msix_kept | intro _ _ | split | dsimp only

theorem execQueueDrained_kept {k : State} {q : QueueId} {s : State} {rr : State} (ht : execQueueDrained q s = .next
  rr) (hs : k.Kept s) : k.Kept rr := by
  refine State.run_kept (fun s hs => ?_) hs ht
  try dsimp only
  with_reducible repeat' first
    | assumption | apply State.setHq_kept | apply State.onlyIf_kept | intro _ _ | split | dsimp only
    | refine State.Kept.mk_same ?_ (by rfl) (by rfl)

theorem State.txReadError_kept {k : State} (s : State) (t : Nat) (hs : k.Kept s) : k.Kept (State.txReadError s t) := by
  unfold State.txReadError
  try dsimp only
  with_reducible repeat' first
    | assumption | apply State.count_kept | apply State.started_kept | intro _ _ | split | dsimp only
    | refine State.Kept.mk_same ?_ (by rfl) (by rfl)

theorem execDmaReadError_kept {k : State} {q : QueueId} {s : State} {rr : State} (ht : execDmaReadError q s = .next
  rr) (hs : k.Kept s) : k.Kept rr := by
  refine State.run_kept (fun s hs => ?_) hs ht
  try dsimp only
  with_reducible repeat' first
    | assumption | apply State.tableDmaError_kept | apply State.txReadError_kept | intro _ _ | split | dsimp only

theorem State.fetchDesc_kept {k : State} (s : State) (i : Nat) (words : Option (List Word)) (hs : k.Kept s) : k.Kept
  (State.fetchDesc s i words) := by
  unfold State.fetchDesc
  try dsimp only
  with_reducible repeat' first
    | assumption | apply State.setHq_kept | apply State.hqHalt_kept | intro _ _ | split | dsimp only
    | refine State.Kept.mk_same ?_ (by rfl) (by rfl)

theorem State.txEnter_kept {k : State} (s : State) (t : Nat) (ws : List Word) (data : List Byte) (hs : k.Kept s) :
  k.Kept (State.txEnter s t ws data) := by
  unfold State.txEnter
  try dsimp only
  with_reducible repeat' first
    | assumption | apply State.setDeck_kept | apply State.enterDeck_kept | apply State.setSlice_kept
    | apply State.newFrame_kept | intro _ _ | split | dsimp only | refine State.Kept.mk_same ?_ (by rfl) (by rfl)

theorem State.txRun_kept {k : State} (s : State) (t : Nat) (p : Nat → Bool) (data : List Byte) (hs : k.Kept s) :
  k.Kept (State.txRun s t p data) := by
  unfold State.txRun
  try dsimp only
  with_reducible repeat' first
    | assumption | apply State.txEnter_kept | apply State.started_kept | intro _ _ | split | dsimp only
    | refine State.Kept.mk_same ?_ (by rfl) (by rfl)

theorem execPoolWrite_kept {k : State} {q : Fin 64} {data : List Byte} {s : State} {rr : State} (ht : execPoolWrite q
  data s = .next rr) (hs : k.Kept s) : k.Kept rr := by
  refine State.run_kept (fun s hs => ?_) hs ht
  try dsimp only
  with_reducible repeat' first
    | assumption | apply State.txRun_kept | intro _ _ | split | dsimp only

theorem execIrqHoldoff_kept {k : State} {q : QueueId} {s : State} {rr : State} (ht : execIrqHoldoff q s = .next rr)
  (hs : k.Kept s) : k.Kept rr := by
  refine State.run_kept (fun s hs => ?_) hs ht
  try dsimp only
  with_reducible repeat' first
    | assumption | apply State.irqHoldoff_kept | intro _ _ | split | dsimp only

theorem State.aerNonFatal_kept {k : State} (s : State) (n : Nat) (hs : k.Kept s) : k.Kept (State.aerNonFatal s n) := by
  unfold State.aerNonFatal
  try dsimp only
  with_reducible repeat' first
    | assumption | apply State.emit_kept | intro _ _ | split | dsimp only | refine State.Kept.mk_same ?_ (by rfl) (by rfl)

theorem State.deliver_kept {k : State} (s : State) (q : Nat) (i : Nat) (idx : Nat) (ws : List Word) (hs : k.Kept s) :
  k.Kept (State.deliver s q i idx ws) := by
  unfold State.deliver
  try dsimp only
  with_reducible repeat' first
    | assumption | apply State.finish_kept | apply State.accountUnit_kept | apply State.count64_kept
    | apply State.releaseCells_kept | apply State.hqWriteBack_kept | apply State.setHq_kept | intro _ _ | split
    | dsimp only | refine State.Kept.mk_same ?_ (by rfl) (by rfl)

theorem State.puntDeliver_kept {k : State} (s : State) (q : Nat) (hs : k.Kept s) : k.Kept (State.puntDeliver s q) := by
  unfold State.puntDeliver
  try dsimp only
  with_reducible repeat' first
    | assumption | apply State.deliver_kept | apply State.hqWriteBack_kept | apply State.setHq_kept
    | apply State.dropPunt_kept | intro _ _ | split | dsimp only | refine State.Kept.mk_same ?_ (by rfl) (by rfl)

theorem execPuntDeliver_kept {k : State} {q : Fin 64} {s : State} {rr : State} (ht : execPuntDeliver q s = .next rr)
  (hs : k.Kept s) : k.Kept rr := by
  refine State.run_kept (fun s hs => ?_) hs ht
  try dsimp only
  with_reducible repeat' first
    | assumption | apply State.puntDeliver_kept | intro _ _ | split | dsimp only

theorem execExportBufferTimeout_kept {k : State} {n : Fin 8} {s : State} {rr : State} (ht : execExportBufferTimeout n
  s = .next rr) (hs : k.Kept s) : k.Kept rr := by
  refine State.run_kept (fun s hs => ?_) hs ht
  try dsimp only
  with_reducible repeat' first
    | assumption | apply State.closeFill_kept | apply State.onlyIf_kept | intro _ _ | split | dsimp only

theorem execBusMasterEnable_kept {k : State} {bme : Bool} {d3hot : Bool} {s : State} {rr : State} (ht :
  execBusMasterEnable bme d3hot s = .next rr) (hs : k.Kept s) : k.Kept rr := by
  refine State.run_kept (fun s hs => ?_) hs ht
  try dsimp only
  with_reducible repeat' first
    | assumption | apply State.count_kept | intro _ _ | split | dsimp only | refine State.Kept.mk_same ?_ (by rfl) (by rfl)

theorem execPcieLinkUp_kept {k : State} {width : Fin 4} {speed : Fin 5} {s : State} {rr : State} (ht : execPcieLinkUp
  width speed s = .next rr) (hs : k.Kept s) : k.Kept rr := by
  refine State.run_kept (fun s hs => ?_) hs ht
  try dsimp only
  with_reducible repeat' first
    | assumption | apply State.onlyIf_kept | intro _ _ | split | dsimp only
    | refine State.Kept.mk_same ?_ (by rfl) (by rfl)

theorem execPoisonedWrite_kept {k : State} {s : State} {rr : State} (ht : execPoisonedWrite s = .next rr) (hs :
  k.Kept s) : k.Kept rr := by
  refine State.run_kept (fun s hs => ?_) hs ht
  try dsimp only
  with_reducible repeat' first
    | assumption | apply State.aerNonFatal_kept | apply State.count_kept | apply State.raise_kept | intro _ _ | split
    | dsimp only

theorem execPcieLinkDown_kept {k : State} {s : State} {rr : State} (ht : execPcieLinkDown s = .next rr) (hs : k.Kept
  s) : k.Kept rr := by
  refine State.run_kept (fun s hs => ?_) hs ht
  try dsimp only
  with_reducible repeat' first
    | assumption | apply State.pcieDown_kept | intro _ _ | split | dsimp only

theorem execHotReset_kept {k : State} {s : State} {rr : State} (ht : execHotReset s = .next rr) (hs : k.Kept s) :
  k.Kept rr := by
  refine State.run_kept (fun s hs => ?_) hs ht
  try dsimp only
  with_reducible repeat' first
    | assumption | apply State.functionReset_kept | intro _ _ | split | dsimp only

theorem execFlr_kept {k : State} {s : State} {rr : State} (ht : execFlr s = .next rr) (hs : k.Kept s) : k.Kept rr := by
  refine State.run_kept (fun s hs => ?_) hs ht
  try dsimp only
  with_reducible repeat' first
    | assumption | apply State.functionReset_kept | intro _ _ | split | dsimp only

theorem execDirect_kept {k : State} {q : Fin 64} {data : List Byte} {s : State} {rr : State} (ht : execDirect q data
  s = .next rr) (hs : k.Kept s) : k.Kept rr := by
  refine State.run_kept (fun s hs => ?_) hs ht
  try dsimp only
  with_reducible repeat' first
    | assumption | apply State.txRun_kept | intro _ _ | split | dsimp only

theorem execPipe_kept {k : State} {q : Fin 64} {data : List Byte} {s : State} {rr : State} (ht : execPipe q data s =
  .next rr) (hs : k.Kept s) : k.Kept rr := by
  refine State.run_kept (fun s hs => ?_) hs ht
  try dsimp only
  with_reducible repeat' first
    | assumption | apply State.txRun_kept | intro _ _ | split | dsimp only

theorem State.complete_kept {k : State} (s : State) (i : Nat) (hs : k.Kept s) : k.Kept (State.complete s i) := by
  unfold State.complete
  try dsimp only
  with_reducible repeat' first
    | assumption | apply State.setHq_kept | apply State.hqWriteBack_kept | intro _ _ | split | dsimp only
    | refine State.Kept.mk_same ?_ (by rfl) (by rfl)

theorem execDescriptorComplete_kept {k : State} {q : QueueId} {s : State} {rr : State} (ht : execDescriptorComplete q
  s = .next rr) (hs : k.Kept s) : k.Kept rr := by
  refine State.run_kept (fun s hs => ?_) hs ht
  try dsimp only
  with_reducible repeat' first
    | assumption | apply State.complete_kept | intro _ _ | split | dsimp only

theorem execDescriptorFetch_kept {k : State} {q : QueueId} {words : Option (List Word)} {s : State} {rr : State} (ht
  : execDescriptorFetch q words s = .next rr) (hs : k.Kept s) : k.Kept rr := by
  refine State.run_kept (fun s hs => ?_) hs ht
  try dsimp only
  with_reducible repeat' first
    | assumption | apply State.fetchDesc_kept | intro _ _ | split | dsimp only

/-! ### Kerf -/

theorem State.leaveMcast_kept {k : State} (s : State) (i : Nat) (sl : Nat) (hs : k.Kept s) : k.Kept (State.leaveMcast
  s i sl) := by
  unfold State.leaveMcast
  try dsimp only
  with_reducible repeat' first
    | assumption | apply State.newCopy_kept | apply State.beginHolder_kept | apply State.toStep4_kept
    | apply State.setFrame_kept | apply State.dropIngress_kept | intro _ _ | split | dsimp only
    | refine State.Kept.mk_same ?_ (by rfl) (by rfl)

theorem State.leaveIngress_kept {k : State} (s : State) (i : Nat) (sl : Nat) (hs : k.Kept s) : k.Kept
  (State.leaveIngress s i sl) := by
  unfold State.leaveIngress
  try dsimp only
  with_reducible repeat' first
    | assumption | apply State.leaveMcast_kept | apply State.toStep4_kept | apply State.setFrame_kept
    | apply State.dropIngress_kept | apply State.raftResolve_kept | refine State.raftResolve_kept_eq (by assumption) ?_
    | intro _ _ | split | dsimp only | refine State.Kept.mk_same ?_ (by rfl) (by rfl)

theorem State.stageNext_kept {k : State} (s : State) (i : Nat) (sl : Nat) (dir : Dir) (x4 : Nat) (hs : k.Kept s) :
  k.Kept (State.stageNext s i sl dir x4) := by
  unfold State.stageNext
  try dsimp only
  with_reducible repeat' first
    | assumption | apply State.setSlice_kept | apply State.leaveIngress_kept | apply State.toStage_kept | intro _ _ | split
    | dsimp only | refine State.Kept.mk_same ?_ (by rfl) (by rfl)

theorem State.dispose_kept {k : State} (s : State) (i : Nat) (sl : Nat) (dir : Dir) (x4 : Nat) (pg : Nat) (w : Nat)
  (x : Executed) (hs : k.Kept s) : k.Kept (State.dispose s i sl dir x4 pg w x) := by
  unfold State.dispose
  try dsimp only
  with_reducible repeat' first
    | assumption | apply State.stageNext_kept | apply State.puntStage_kept | apply State.count64_kept
    | apply State.dropStage_kept | apply State.tdCycle_kept | apply State.tdGone_kept | apply State.setFrame_kept
    | intro _ _ | split | dsimp only | refine State.Kept.mk_same ?_ (by rfl) (by rfl)

theorem State.runMeter_kept {k : State} (s : State) (pg : Nat) (w : Nat) (f : Frame) (hs : k.Kept s) : k.Kept
  (State.runMeter s pg w f).1 := by
  unfold State.runMeter
  try dsimp only
  with_reducible repeat' first
    | assumption | apply State.addLate_kept | apply State.setMeter_kept | intro _ _ | split | dsimp only

theorem State.runMeter_kept_eq {k : State} {s : State} {pg : Nat} {w : Nat} {f : Frame} {ra rb} (ht : State.runMeter
  s pg w f = (ra, rb)) (hs : k.Kept s) : k.Kept ra := by
  have := State.runMeter_kept (k := k) s pg w f hs
  rw [ht] at this
  exact this

theorem State.runMicro_kept {k : State} (s : State) (sl : Nat) (dir : Dir) (pg : Nat) (b : Nat) (w : Nat) (f : Frame)
  (hs : k.Kept s) : k.Kept (State.runMicro s sl dir pg b w f).1 := by
  unfold State.runMicro
  try dsimp only
  with_reducible repeat' first
    | assumption | apply State.pairAdd_kept | apply State.addLate_kept | apply State.runMeter_kept
    | refine State.runMeter_kept_eq (by assumption) ?_ | apply State.count_kept | apply State.raiseIf_kept
    | apply State.drawn_kept | apply State.microLookup_kept | refine State.microLookup_kept_eq (by assumption) ?_
    | apply State.count64_kept | intro _ _ | split | dsimp only

theorem State.runMicro_kept_eq {k : State} {s : State} {sl : Nat} {dir : Dir} {pg : Nat} {b : Nat} {w : Nat} {f :
  Frame} {ra rb} (ht : State.runMicro s sl dir pg b w f = (ra, rb)) (hs : k.Kept s) : k.Kept ra := by
  have := State.runMicro_kept (k := k) s sl dir pg b w f hs
  rw [ht] at this
  exact this

theorem State.fetchMicro_kept {k : State} (s : State) (pg : Nat) (b : Nat) (a : Nat) (hs : k.Kept s) : k.Kept
  (State.fetchMicro s pg b a).1 := by
  unfold State.fetchMicro
  try dsimp only
  with_reducible repeat' first
    | assumption | apply State.setReg_kept | apply State.setRf_kept | apply State.setMicro_kept | apply State.count_kept
    | apply State.raise_kept | intro _ _ | split | dsimp only | refine State.Kept.mk_same ?_ (by rfl) (by rfl)

theorem State.fetchMicro_kept_eq {k : State} {s : State} {pg : Nat} {b : Nat} {a : Nat} {ra rb} (ht :
  State.fetchMicro s pg b a = (ra, rb)) (hs : k.Kept s) : k.Kept ra := by
  have := State.fetchMicro_kept (k := k) s pg b a hs
  rw [ht] at this
  exact this

theorem State.stageRun_kept {k : State} (s : State) (i : Nat) (sl : Nat) (dir : Dir) (x4 : Nat) (hs : k.Kept s) :
  k.Kept (State.stageRun s i sl dir x4) := by
  unfold State.stageRun
  try dsimp only
  with_reducible repeat' first
    | assumption | apply State.dispose_kept | apply State.runMicro_kept | refine State.runMicro_kept_eq (by assumption) ?_
    | apply State.fetchMicro_kept | refine State.fetchMicro_kept_eq (by assumption) ?_ | apply State.tdCycle_kept
    | apply State.stageNext_kept | apply State.dropStage_kept | apply State.tdGone_kept | apply State.count64_kept
    | apply State.dropQueued_kept | intro _ _ | split | dsimp only | refine State.Kept.mk_same ?_ (by rfl) (by rfl)

theorem State.stageTake_kept {k : State} (s : State) (sl : Nat) (dir : Dir) (x3 : Nat) (hs : k.Kept s) : k.Kept
  (State.stageTake s sl dir x3) := by
  unfold State.stageTake
  try dsimp only
  with_reducible repeat' first
    | assumption | apply State.setSlice_kept | apply State.stageRun_kept | intro _ _ | split | dsimp only
    | refine State.Kept.mk_same ?_ (by rfl) (by rfl)

theorem execMicrowordExec_kept {k : State} {sl : Slice} {dir : Dir} {stage : Fin 8} {s : State} {rr : State} (ht :
  execMicrowordExec sl dir stage s = .next rr) (hs : k.Kept s) : k.Kept rr := by
  refine State.run_kept (fun s hs => ?_) hs ht
  try dsimp only
  with_reducible repeat' first
    | assumption | apply State.stageTake_kept | apply State.onlyIf_kept | intro _ _ | split | dsimp only

/-! ### Queues -/

theorem State.markDrain_kept {k : State} (s : State) (x1 : List Nat) (hs : k.Kept s) : k.Kept (State.markDrain s x1)
  := by
  induction x1 generalizing s with
  | nil =>
    unfold State.markDrain
    try dsimp only
    with_reducible repeat' first
      | assumption | apply State.setFrame_kept | intro _ _ | split | dsimp only
      | refine State.Kept.mk_same ?_ (by rfl) (by rfl)
  | cons a l ih =>
    unfold State.markDrain
    try dsimp only
    with_reducible repeat' first
      | assumption | apply ih | apply State.setFrame_kept | intro _ _ | split | dsimp only
      | refine State.Kept.mk_same ?_ (by rfl) (by rfl)

theorem State.startDrain_kept {k : State} (s : State) (x1 : Nat) (hs : k.Kept s) : k.Kept (State.startDrain s x1) := by
  unfold State.startDrain
  try dsimp only
  with_reducible repeat' first
    | assumption | apply State.setPath_kept | apply State.drainSettle_kept | apply State.markDrain_kept | intro _ _ | split
    | dsimp only | refine State.Kept.mk_same ?_ (by rfl) (by rfl)

theorem State.txUnderrun_kept {k : State} (s : State) (p : Nat) (i : Nat) (hs : k.Kept s) : k.Kept (State.txUnderrun
  s p i) := by
  unfold State.txUnderrun
  try dsimp only
  with_reducible repeat' first
    | assumption | apply State.count_kept | apply State.raise_kept | apply State.stompAt_kept | intro _ _ | split
    | dsimp only

theorem State.txLast_kept {k : State} (s : State) (p : Nat) (hs : k.Kept s) : k.Kept (State.txLast s p) := by
  unfold State.txLast
  try dsimp only
  with_reducible repeat' first
    | assumption | apply State.sendFrame_kept | apply State.ptpEnd_kept | apply State.finishTx_kept
    | apply State.relaySent_kept | apply State.deparseBad_kept | apply State.setFrame_kept | apply State.txUnderrun_kept
    | intro _ _ | split | dsimp only | refine State.Kept.mk_same ?_ (by rfl) (by rfl)

theorem State.flushDone_kept {k : State} (s : State) (p : Nat) (hs : k.Kept s) : k.Kept (State.flushDone s p) := by
  unfold State.flushDone
  try dsimp only
  with_reducible repeat' first
    | assumption | apply State.count64_kept | apply State.raiseIf_kept | apply State.dropQueuedAll_kept
    | apply State.setSched_kept | intro _ _ | split | dsimp only | refine State.Kept.mk_same ?_ (by rfl) (by rfl)

theorem State.dropFlume_kept {k : State} (s : State) (i : Nat) (x2 : Nat) (hs : k.Kept s) : k.Kept (State.dropFlume s
  i x2) := by
  unfold State.dropFlume
  try dsimp only
  with_reducible repeat' first
    | assumption | apply State.dropQueued_kept | apply State.accountUnit_kept | apply State.finish_kept
    | apply State.dropMcast_kept | apply State.dropPuntNew_kept | intro _ _ | split | dsimp only

theorem State.skipSeq_kept {k : State} (s : State) (x1 : Nat) (src : Nat) (x3 : Nat) (hs : k.Kept s) : k.Kept
  (State.skipSeq s x1 src x3) := by
  induction x3 generalizing s x1 src with
  | zero =>
    unfold State.skipSeq
    try dsimp only
    with_reducible repeat' first
      | assumption | apply State.accountSkip_kept | intro _ _ | split | dsimp only
  | succ n ih =>
    unfold State.skipSeq
    try dsimp only
    with_reducible repeat' first
      | assumption | apply ih | apply State.accountSkip_kept | intro _ _ | split | dsimp only

theorem State.flumeTake_kept {k : State} (s : State) (x1 : Nat) (chan : Nat) (bad : Bool) (hs : k.Kept s) : k.Kept
  (State.flumeTake s x1 chan bad) := by
  unfold State.flumeTake
  try dsimp only
  with_reducible repeat' first
    | assumption | apply State.dropArrival_kept | apply State.dropFlume_kept | apply State.sourceMsg_kept
    | apply State.skipSeq_kept | apply State.setPath_kept | apply State.moveHolder_kept | intro _ _ | split | dsimp only
    | refine State.Kept.mk_same ?_ (by rfl) (by rfl)

theorem State.copiesMade_kept {k : State} (s : State) (i : Nat) (x2 : Nat) (made : Nat) (hs : k.Kept s) : k.Kept
  (State.copiesMade s i x2 made) := by
  unfold State.copiesMade
  try dsimp only
  with_reducible repeat' first
    | assumption | apply State.settleMaster_kept | apply State.drainSettle_kept | apply State.endHolder_kept
    | apply State.mcastDone_kept | apply State.setFrame_kept | apply State.setDeck_kept | intro _ _ | split | dsimp only
    | refine State.Kept.mk_same ?_ (by rfl) (by rfl)

theorem State.makeCopy_kept {k : State} (s : State) (i : Nat) (x2 : Nat) (e : Word) (first : Bool) (hs : k.Kept s) :
  k.Kept (State.makeCopy s i x2 e first) := by
  unfold State.makeCopy
  try dsimp only
  with_reducible repeat' first
    | assumption | apply State.setQueue_kept | apply State.setDeck_kept | apply State.dropQueued_kept
    | apply State.dropInRepl_kept | apply State.newCopy_kept | apply State.setFrame_kept | apply State.count64_kept
    | apply State.beginHolder_kept | intro _ _ | split | dsimp only | refine State.Kept.mk_same ?_ (by rfl) (by rfl)

theorem State.makeCopies_kept {k : State} (s : State) (i : Nat) (x2 : Nat) (x3 : Nat) (made : Nat) (x5 : Nat) (hs :
  k.Kept s) : k.Kept (State.makeCopies s i x2 x3 made x5).1 := by
  induction x5 generalizing s i x2 x3 made with
  | zero =>
    unfold State.makeCopies
    try dsimp only
    with_reducible repeat' first
      | assumption | apply State.makeCopy_kept | apply State.count_kept | apply State.raise_kept | intro _ _ | split
      | dsimp only
  | succ n ih =>
    unfold State.makeCopies
    try dsimp only
    with_reducible repeat' first
      | assumption | apply ih | apply State.makeCopy_kept | apply State.count_kept | apply State.raise_kept | intro _ _
      | split | dsimp only

theorem State.makeCopies_kept_eq {k : State} {s : State} {i : Nat} {x2 : Nat} {x3 : Nat} {made : Nat} {x5 : Nat} {ra
  rb} (ht : State.makeCopies s i x2 x3 made x5 = (ra, rb)) (hs : k.Kept s) : k.Kept ra := by
  have := State.makeCopies_kept (k := k) s i x2 x3 made x5 hs
  rw [ht] at this
  exact this

theorem State.replicate_kept {k : State} (s : State) (x1 : Nat) (hs : k.Kept s) : k.Kept (State.replicate s x1) := by
  unfold State.replicate
  try dsimp only
  with_reducible repeat' first
    | assumption | apply State.copiesMade_kept | apply State.makeCopies_kept
    | refine State.makeCopies_kept_eq (by assumption) ?_ | apply State.countExp_kept | apply State.dropMcast_kept
    | apply State.setPath_kept | intro _ _ | split | dsimp only | refine State.Kept.mk_same ?_ (by rfl) (by rfl)

theorem execReplicate_kept {k : State} {x0 : Half} {s : State} {rr : State} (ht : execReplicate x0 s = .next rr) (hs
  : k.Kept s) : k.Kept rr := by
  refine State.run_kept (fun s hs => ?_) hs ht
  try dsimp only
  with_reducible repeat' first
    | assumption | apply State.replicate_kept | apply State.onlyIf_kept | intro _ _ | split | dsimp only

theorem execTxLastByte_kept {k : State} {p : Port} {s : State} {rr : State} (ht : execTxLastByte p s = .next rr) (hs
  : k.Kept s) : k.Kept rr := by
  refine State.run_kept (fun s hs => ?_) hs ht
  try dsimp only
  with_reducible repeat' first
    | assumption | apply State.txLast_kept | apply State.loopBack_kept | apply State.onlyIf_kept | intro _ _ | split
    | dsimp only

theorem State.startHead_kept {k : State} (s : State) (p : Nat) (q : Nat) (hs : k.Kept s) : k.Kept (State.startHead s
  p q) := by
  unfold State.startHead
  try dsimp only
  with_reducible repeat' first
    | assumption | apply State.setFrame_kept | apply State.toStage_kept | apply State.setSched_kept
    | apply State.dropQueued_kept | apply State.countExp_kept | apply State.setQueue_kept | intro _ _ | split | dsimp only
    | refine State.Kept.mk_same ?_ (by rfl) (by rfl)

theorem State.select_kept {k : State} (s : State) (p : Nat) (hs : k.Kept s) : k.Kept (State.select s p) := by
  unfold State.select
  try dsimp only
  with_reducible repeat' first
    | assumption | apply State.setSched_kept | apply State.startHead_kept | intro _ _ | split | dsimp only
    | refine State.Kept.mk_same ?_ (by rfl) (by rfl)

theorem execSchedule_kept {k : State} {p : Port} {s : State} {rr : State} (ht : execSchedule p s = .next rr) (hs :
  k.Kept s) : k.Kept rr := by
  refine State.run_kept (fun s hs => ?_) hs ht
  try dsimp only
  with_reducible repeat' first
    | assumption | apply State.select_kept | apply State.onlyIf_kept | intro _ _ | split | dsimp only

theorem State.beginTx_kept {k : State} (s : State) (p : Nat) (i : Nat) (late : Bool) (hs : k.Kept s) : k.Kept
  (State.beginTx s p i late) := by
  unfold State.beginTx
  try dsimp only
  with_reducible repeat' first
    | assumption | apply State.setFrame_kept | apply State.count64_kept | apply State.setSched_kept | intro _ _ | split
    | dsimp only | refine State.Kept.mk_same ?_ (by rfl) (by rfl)

theorem State.macStart_kept {k : State} (s : State) (p : Nat) (late : Bool) (hs : k.Kept s) : k.Kept (State.macStart
  s p late) := by
  unfold State.macStart
  try dsimp only
  with_reducible repeat' first
    | assumption | apply State.setFrame_kept | apply State.beginTx_kept | apply State.deparseDrop_kept
    | apply State.dropQueued_kept | intro _ _ | split | dsimp only | refine State.Kept.mk_same ?_ (by rfl) (by rfl)

theorem execMacStart_kept {k : State} {p : Port} {late : Bool} {s : State} {rr : State} (ht : execMacStart p late s =
  .next rr) (hs : k.Kept s) : k.Kept rr := by
  refine State.run_kept (fun s hs => ?_) hs ht
  try dsimp only
  with_reducible repeat' first
    | assumption | apply State.macStart_kept | apply State.onlyIf_kept | intro _ _ | split | dsimp only

theorem execLinkHoldExpire_kept {k : State} {p : Port} {s : State} {rr : State} (ht : execLinkHoldExpire p s = .next
  rr) (hs : k.Kept s) : k.Kept rr := by
  refine State.run_kept (fun s hs => ?_) hs ht
  try dsimp only
  with_reducible repeat' first
    | assumption | apply State.portDown_kept | apply State.onlyIf_kept | intro _ _ | split | dsimp only

theorem execLinkFlushDone_kept {k : State} {p : Port} {s : State} {rr : State} (ht : execLinkFlushDone p s = .next
  rr) (hs : k.Kept s) : k.Kept rr := by
  refine State.run_kept (fun s hs => ?_) hs ht
  try dsimp only
  with_reducible repeat' first
    | assumption | apply State.flushDone_kept | apply State.onlyIf_kept | intro _ _ | split | dsimp only

theorem State.flumeRest_kept {k : State} (s : State) (x1 : Nat) (i : Nat) (hs : k.Kept s) : k.Kept (State.flumeRest s
  x1 i) := by
  unfold State.flumeRest
  try dsimp only
  with_reducible repeat' first
    | assumption | apply State.mapFrames_kept | apply State.sourceMsg_kept | intro _ _ | split | dsimp only

theorem execFlumeReceive_kept {k : State} {x0 : Half} {x : FlumeRx} {s : State} {rr : State} (ht : execFlumeReceive
  x0 x s = .next rr) (hs : k.Kept s) : k.Kept rr := by
  refine State.run_kept (fun s hs => ?_) hs ht
  try dsimp only
  with_reducible repeat' first
    | assumption | apply State.flumeRest_kept | apply State.flumeTake_kept | apply State.onlyIf_kept | intro _ _ | split
    | dsimp only | refine State.Kept.mk_same ?_ (by rfl) (by rfl)

/-! ### Woodlot -/

theorem execHitNotice_kept {k : State} {s : State} {rr : State} (ht : execHitNotice s = .next rr) (hs : k.Kept s) :
  k.Kept rr := by
  refine State.run_kept (fun s hs => ?_) hs ht
  try dsimp only
  with_reducible repeat' first
    | assumption | apply State.setEmW_kept | intro _ _ | split | dsimp only
    | refine State.Kept.mk_same ?_ (by rfl) (by rfl)

theorem State.migWrite_kept {k : State} (s : State) (x1 : Nat) (bank : Nat) (hs : k.Kept s) : k.Kept (State.migWrite
  s x1 bank) := by
  unfold State.migWrite
  try dsimp only
  with_reducible repeat' first
    | assumption | apply State.migGo_kept | apply State.setReg_kept | intro _ _ | split | dsimp only

theorem State.reclaimTc_kept {k : State} (s : State) (r : Nat) (x2 : List (Nat × Nat)) (hs : k.Kept s) : k.Kept
  (State.reclaimTc s r x2) := by
  induction x2 generalizing s r with
  | nil =>
    unfold State.reclaimTc
    try dsimp only
    with_reducible repeat' first
      | assumption | apply State.setTcCtrl_kept | intro _ _ | split | dsimp only
  | cons a l ih =>
    unfold State.reclaimTc
    try dsimp only
    with_reducible repeat' first
      | assumption | apply ih | apply State.setTcCtrl_kept | intro _ _ | split | dsimp only

theorem State.sweepReset_kept {k : State} (s : State) (x1 : Nat) (r : Nat) (hs : k.Kept s) : k.Kept (State.sweepReset
  s x1 r) := by
  unfold State.sweepReset
  try dsimp only
  with_reducible repeat' first
    | assumption | apply State.reclaimTc_kept | apply State.sweepDone_kept | intro _ _ | split | dsimp only

theorem State.compact_kept {k : State} (s : State) (x1 : Nat) (hs : k.Kept s) : k.Kept (State.compact s x1) := by
  unfold State.compact
  try dsimp only
  with_reducible repeat' first
    | assumption | apply State.setWood_kept | apply State.bgStep_kept | intro _ _ | split | dsimp only
    | refine State.Kept.mk_same ?_ (by rfl) (by rfl)

theorem execBoostOn_kept {k : State} {x0 : Half} {backlog : Nat} {s : State} {rr : State} (ht : execBoostOn x0
  backlog s = .next rr) (hs : k.Kept s) : k.Kept rr := by
  refine State.run_kept (fun s hs => ?_) hs ht
  try dsimp only
  with_reducible repeat' first
    | assumption | apply State.setWood_kept | apply State.raise_kept | apply State.onlyIf_kept | intro _ _ | split
    | dsimp only | refine State.Kept.mk_same ?_ (by rfl) (by rfl)

theorem State.migStep_kept {k : State} (s : State) (x1 : Nat) (m : Mig) (hs : k.Kept s) : k.Kept (State.migStep s x1
  m) := by
  unfold State.migStep
  try dsimp only
  with_reducible repeat' first
    | assumption | apply State.migEnd_kept | apply State.bgStep_kept | apply State.setWood_kept | apply State.copyPos_kept
    | intro _ _ | split | dsimp only | refine State.Kept.mk_same ?_ (by rfl) (by rfl)

theorem State.migNext_kept {k : State} (s : State) (x1 : Nat) (hs : k.Kept s) : k.Kept (State.migNext s x1) := by
  unfold State.migNext
  try dsimp only
  with_reducible repeat' first
    | assumption | apply State.setWood_kept | apply State.migStart_kept | apply State.migGo_kept | apply State.migStep_kept
    | intro _ _ | split | dsimp only | refine State.Kept.mk_same ?_ (by rfl) (by rfl)

theorem execBankMigration_kept {k : State} {x0 : Half} {s : State} {rr : State} (ht : execBankMigration x0 s = .next
  rr) (hs : k.Kept s) : k.Kept rr := by
  refine State.run_kept (fun s hs => ?_) hs ht
  try dsimp only
  with_reducible repeat' first
    | assumption | apply State.migNext_kept | apply State.bgRun_kept | apply State.onlyIf_kept | intro _ _ | split
    | dsimp only

theorem execWoodlotEccError_kept {k : State} {x0 : Half} {loc : EmLoc} {uncorr : Bool} {s : State} {rr : State} (ht :
  execWoodlotEccError x0 loc uncorr s = .next rr) (hs : k.Kept s) : k.Kept rr := by
  refine State.run_kept (fun s hs => ?_) hs ht
  try dsimp only
  with_reducible repeat' first
    | assumption | apply State.woodEcc_kept | apply State.onlyIf_kept | intro _ _ | split | dsimp only

theorem execLearnRequest_kept {k : State} {x0 : Half} {s : State} {rr : State} (ht : execLearnRequest x0 s = .next
  rr) (hs : k.Kept s) : k.Kept rr := by
  refine State.run_kept (fun s hs => ?_) hs ht
  try dsimp only
  with_reducible repeat' first
    | assumption | apply State.learnNext_kept | apply State.onlyIf_kept | intro _ _ | split | dsimp only

theorem State.reclaimEm_kept {k : State} (s : State) (x1 : Nat) (r : Nat) (x3 : List Nat) (hs : k.Kept s) : k.Kept
  (State.reclaimEm s x1 r x3) := by
  induction x3 generalizing s x1 r with
  | nil =>
    unfold State.reclaimEm
    try dsimp only
    with_reducible repeat' first
      | assumption | apply State.setEmW_kept | apply State.clearEntry_kept | intro _ _ | split | dsimp only
  | cons a l ih =>
    unfold State.reclaimEm
    try dsimp only
    with_reducible repeat' first
      | assumption | apply ih | apply State.setEmW_kept | apply State.clearEntry_kept | intro _ _ | split | dsimp only

theorem State.reclaim_kept {k : State} (s : State) (x1 : Nat) (r : Nat) (hs : k.Kept s) : k.Kept (State.reclaim s x1
  r) := by
  unfold State.reclaim
  try dsimp only
  with_reducible repeat' first
    | assumption | apply State.sweepDone_kept | apply State.bgStep_kept | apply State.reclaimTc_kept
    | apply State.setWood_kept | apply State.reclaimEm_kept | intro _ _ | split | dsimp only
    | refine State.Kept.mk_same ?_ (by rfl) (by rfl)

theorem execTcamParityScan_kept {k : State} {sl : Slice} {idx : Fin 4096} {s : State} {rr : State} (ht :
  execTcamParityScan sl idx s = .next rr) (hs : k.Kept s) : k.Kept rr := by
  refine State.run_kept (fun s hs => ?_) hs ht
  try dsimp only
  with_reducible repeat' first
    | assumption | apply State.tcFault_kept | apply State.onlyIf_kept | intro _ _ | split | dsimp only

theorem execLpmCompaction_kept {k : State} {x0 : Half} {s : State} {rr : State} (ht : execLpmCompaction x0 s = .next
  rr) (hs : k.Kept s) : k.Kept rr := by
  refine State.run_kept (fun s hs => ?_) hs ht
  try dsimp only
  with_reducible repeat' first
    | assumption | apply State.compact_kept | apply State.bgRun_kept | apply State.onlyIf_kept | intro _ _ | split
    | dsimp only

theorem State.ageVisit_kept {k : State} (s : State) (l : Nat) (hs : k.Kept s) : k.Kept (State.ageVisit s l) := by
  unfold State.ageVisit
  try dsimp only
  with_reducible repeat' first
    | assumption | apply State.count64_kept | apply State.learnNotice_kept | apply State.clearEntry_kept
    | apply State.setEmW_kept | apply State.tellEast_kept | apply State.bgStep_kept | intro _ _ | split | dsimp only

theorem execReclaim_kept {k : State} {x0 : Half} {s : State} {rr : State} (ht : execReclaim x0 s = .next rr) (hs :
  k.Kept s) : k.Kept rr := by
  refine State.run_kept (fun s hs => ?_) hs ht
  try dsimp only
  with_reducible repeat' first
    | assumption | apply State.reclaim_kept | apply State.bgRun_kept | apply State.onlyIf_kept
    | apply State.sweepReset_kept | intro _ _ | split | dsimp only | refine State.Kept.mk_same ?_ (by rfl) (by rfl)

theorem State.drainSlot_kept {k : State} (s : State) (x1 : Nat) (l : Nat) (hs : k.Kept s) : k.Kept (State.drainSlot s
  x1 l) := by
  unfold State.drainSlot
  try dsimp only
  with_reducible repeat' first
    | assumption | apply State.bgStep_kept | apply State.moveEntry_kept | refine State.makeRoom_kept (by assumption) ?_
    | intro _ _ | split | dsimp only | refine State.Kept.mk_same ?_ (by rfl) (by rfl)

theorem execStashDrain_kept {k : State} {x0 : Half} {slot : Fin 8} {s : State} {rr : State} (ht : execStashDrain x0
  slot s = .next rr) (hs : k.Kept s) : k.Kept rr := by
  refine State.run_kept (fun s hs => ?_) hs ht
  try dsimp only
  with_reducible repeat' first
    | assumption | apply State.drainSlot_kept | apply State.bgRun_kept | apply State.onlyIf_kept | intro _ _ | split
    | dsimp only

theorem execAgingVisit_kept {k : State} {loc : EmLoc} {s : State} {rr : State} (ht : execAgingVisit loc s = .next rr)
  (hs : k.Kept s) : k.Kept rr := by
  refine State.run_kept (fun s hs => ?_) hs ht
  try dsimp only
  with_reducible repeat' first
    | assumption | apply State.ageVisit_kept | apply State.bgRun_kept | apply State.onlyIf_kept | intro _ _ | split
    | dsimp only

theorem execEastCopyApply_kept {k : State} {s : State} {rr : State} (ht : execEastCopyApply s = .next rr) (hs :
  k.Kept s) : k.Kept rr := by
  refine State.run_kept (fun s hs => ?_) hs ht
  try dsimp only
  with_reducible repeat' first
    | assumption | apply State.eastNext_kept | intro _ _ | split | dsimp only

theorem execBoostOff_kept {k : State} {x0 : Half} {backlog : Nat} {s : State} {rr : State} (ht : execBoostOff x0
  backlog s = .next rr) (hs : k.Kept s) : k.Kept rr := by
  refine State.run_kept (fun s hs => ?_) hs ht
  try dsimp only
  with_reducible repeat' first
    | assumption | apply State.setWood_kept | apply State.raise_kept | apply State.onlyIf_kept | intro _ _ | split
    | dsimp only | refine State.Kept.mk_same ?_ (by rfl) (by rfl)

end Sys2Proof.Machine
end

