-- ==== Sys2Proof/Laws/KeptReset.lean ====
section
/-! SUPPORT. State.Kept, one lemma for each function of the state: resets, the Lookout, the Firebreak, the lane commands and the matrix. -/

namespace Sys2Proof.Machine

/-! ### ResetOps -/

theorem State.moveHolders_kept {k : State} (s : State) (a : Nat) (b : Nat) (x3 : List Nat) (hs : k.Kept s) : k.Kept
  (State.moveHolders s a b x3) := by
  induction x3 generalizing s a b with
  | nil =>
    unfold State.moveHolders
    try dsimp only
    with_reducible repeat' first
      | assumption | apply State.moveHolder_kept | intro _ _ | split | dsimp only
  | cons a l ih =>
    unfold State.moveHolders
    try dsimp only
    with_reducible repeat' first
      | assumption | apply ih | apply State.moveHolder_kept | intro _ _ | split | dsimp only

theorem State.extend_kept {k : State} (s : State) (i : Nat) (record : List Byte) (hs : k.Kept s) : k.Kept
  (State.extend s i record) := by
  unfold State.extend
  try dsimp only
  with_reducible repeat' first
    | assumption | intro _ _ | split | dsimp only | refine State.Kept.mk_same ?_ (by rfl) (by rfl)

theorem State.linesBack_kept {k : State} (s : State) (x1 : Nat) (i : Nat) (x3 : List Nat) (hs : k.Kept s) : k.Kept
  (State.linesBack s x1 i x3) := by
  induction x3 generalizing s x1 i with
  | nil =>
    unfold State.linesBack
    try dsimp only
    with_reducible repeat' first
      | assumption | apply State.lineLost_kept | refine State.applyLine_kept (by assumption) ?_ | apply State.setTally_kept
      | intro _ _ | split | dsimp only | refine State.Kept.mk_same ?_ (by rfl) (by rfl)
  | cons a l ih =>
    unfold State.linesBack
    try dsimp only
    with_reducible repeat' first
      | assumption | apply ih | apply State.lineLost_kept | refine State.applyLine_kept (by assumption) ?_
      | apply State.setTally_kept | intro _ _ | split | dsimp only | refine State.Kept.mk_same ?_ (by rfl) (by rfl)

theorem State.parseAll_kept {k : State} (s : State) (sl : Nat) (x2 : Nat) (hs : k.Kept s) : k.Kept (State.parseAll s
  sl x2) := by
  induction x2 generalizing s sl with
  | zero =>
    unfold State.parseAll
    try dsimp only
    with_reducible repeat' first
      | assumption | apply State.parseNext_kept | intro _ _ | split | dsimp only
  | succ n ih =>
    unfold State.parseAll
    try dsimp only
    with_reducible repeat' first
      | assumption | apply ih | apply State.parseNext_kept | intro _ _ | split | dsimp only

theorem State.stageAll_kept {k : State} (s : State) (sl : Nat) (d : Dir) (x3 : Nat) (x4 : Nat) (hs : k.Kept s) :
  k.Kept (State.stageAll s sl d x3 x4) := by
  induction x4 generalizing s sl d x3 with
  | zero =>
    unfold State.stageAll
    try dsimp only
    with_reducible repeat' first
      | assumption | apply State.stageTake_kept | intro _ _ | split | dsimp only
  | succ n ih =>
    unfold State.stageAll
    try dsimp only
    with_reducible repeat' first
      | assumption | apply ih | apply State.stageTake_kept | intro _ _ | split | dsimp only

theorem State.stageOut_kept {k : State} (s : State) (sl : Nat) (d : Dir) (x3 : Nat) (hs : k.Kept s) : k.Kept
  (State.stageOut s sl d x3) := by
  unfold State.stageOut
  try dsimp only
  with_reducible repeat' first
    | assumption | apply State.stageAll_kept | intro _ _ | split | dsimp only

theorem State.drainStages_kept {k : State} (s : State) (sl : Nat) (d : Dir) (x3 : Nat) (x4 : Nat) (hs : k.Kept s) :
  k.Kept (State.drainStages s sl d x3 x4) := by
  induction x4 generalizing s sl d x3 with
  | zero =>
    unfold State.drainStages
    try dsimp only
    with_reducible repeat' first
      | assumption | apply State.stageOut_kept | intro _ _ | split | dsimp only
  | succ n ih =>
    unfold State.drainStages
    try dsimp only
    with_reducible repeat' first
      | assumption | apply ih | apply State.stageOut_kept | intro _ _ | split | dsimp only

theorem State.drainSlice_kept {k : State} (s : State) (sl : Nat) (hs : k.Kept s) : k.Kept (State.drainSlice s sl) := by
  unfold State.drainSlice
  try dsimp only
  with_reducible repeat' first
    | assumption | apply State.parseAll_kept | apply State.drainStages_kept | intro _ _ | split | dsimp only

theorem State.portsStop_kept {k : State} (s : State) (hold : Bool) (x2 : List Nat) (hs : k.Kept s) : k.Kept
  (State.portsStop s hold x2) := by
  induction x2 generalizing s hold with
  | nil =>
    unfold State.portsStop
    try dsimp only
    with_reducible repeat' first
      | assumption | apply State.spanStart_kept | apply State.stopPort_kept | apply State.lanesOff_kept
      | apply State.setPort_kept | apply State.linkFall_kept | apply State.recalCut_kept | apply State.rxAbort_kept
      | intro _ _ | split | dsimp only
  | cons a l ih =>
    unfold State.portsStop
    try dsimp only
    with_reducible repeat' first
      | assumption | apply ih | apply State.spanStart_kept | apply State.stopPort_kept | apply State.lanesOff_kept
      | apply State.setPort_kept | apply State.linkFall_kept | apply State.recalCut_kept | apply State.rxAbort_kept
      | intro _ _ | split | dsimp only

theorem State.portsGone_kept {k : State} (s : State) (sel : Nat → Bool) (lanes : List Nat) (hs : k.Kept s) : k.Kept
  (State.portsGone s sel lanes) := by
  unfold State.portsGone
  try dsimp only
  with_reducible repeat' first
    | assumption | apply State.lanesZero_kept | intro _ _ | split | dsimp only
    | refine State.Kept.mk_same ?_ (by rfl) (by rfl)

theorem State.sliceStart_kept {k : State} (s : State) (sl : Nat) (hs : k.Kept s) : k.Kept (State.sliceStart s sl) := by
  unfold State.sliceStart
  try dsimp only
  with_reducible repeat' first
    | assumption | apply State.linesBack_kept | apply State.drainSlice_kept | apply State.portsStop_kept
    | apply State.portsGone_kept | intro _ _ | split | dsimp only | refine State.Kept.mk_same ?_ (by rfl) (by rfl)

theorem State.rstReject_kept {k : State} (s : State) (code : Nat) (hs : k.Kept s) : k.Kept (State.rstReject s code)
  := by
  unfold State.rstReject
  try dsimp only
  with_reducible repeat' first
    | assumption | apply State.raise_kept | intro _ _ | split | dsimp only | refine State.Kept.mk_same ?_ (by rfl) (by rfl)

theorem State.rstSlice_kept {k : State} (s : State) (v : Word) (hs : k.Kept s) : k.Kept (State.rstSlice s v) := by
  unfold State.rstSlice
  try dsimp only
  with_reducible repeat' first
    | assumption | apply State.sliceStart_kept | apply State.rstReject_kept | intro _ _ | split | dsimp only

theorem State.dropSel_kept {k : State} (s : State) (sel : Nat → Bool) (hs : k.Kept s) : k.Kept (State.dropSel s sel)
  := by
  unfold State.dropSel
  try dsimp only
  with_reducible repeat' first
    | assumption | intro _ _ | split | dsimp only | refine State.Kept.mk_same ?_ (by rfl) (by rfl)

theorem State.dropHeldPunts_kept {k : State} (s : State) (x1 : Nat) (hs : k.Kept s) : k.Kept (State.dropHeldPunts s
  x1) := by
  induction x1 generalizing s with
  | zero =>
    unfold State.dropHeldPunts
    try dsimp only
    with_reducible repeat' first
      | assumption | apply State.dropPunts_kept | intro _ _ | split | dsimp only
  | succ n ih =>
    unfold State.dropHeldPunts
    try dsimp only
    with_reducible repeat' first
      | assumption | apply ih | apply State.dropPunts_kept | intro _ _ | split | dsimp only

theorem State.dropPort_kept {k : State} (s : State) (p : Nat) (hs : k.Kept s) : k.Kept (State.dropPort s p) := by
  unfold State.dropPort
  try dsimp only
  with_reducible repeat' first
    | assumption | apply State.dropQueuedAll_kept | apply State.setSlice_kept | apply State.setSched_kept
    | apply State.stompTx_kept | intro _ _ | split | dsimp only | refine State.Kept.mk_same ?_ (by rfl) (by rfl)

theorem State.dropPorts_kept {k : State} (s : State) (x1 : List Nat) (hs : k.Kept s) : k.Kept (State.dropPorts s x1)
  := by
  induction x1 generalizing s with
  | nil =>
    unfold State.dropPorts
    try dsimp only
    with_reducible repeat' first
      | assumption | apply State.dropPort_kept | intro _ _ | split | dsimp only
  | cons a l ih =>
    unfold State.dropPorts
    try dsimp only
    with_reducible repeat' first
      | assumption | apply ih | apply State.dropPort_kept | intro _ _ | split | dsimp only

theorem State.dropQueues_kept {k : State} (s : State) (x1 : List Nat) (hs : k.Kept s) : k.Kept (State.dropQueues s
  x1) := by
  induction x1 generalizing s with
  | nil =>
    unfold State.dropQueues
    try dsimp only
    with_reducible repeat' first
      | assumption | apply State.setQueue_kept | apply State.dropQueuedAll_kept | intro _ _ | split | dsimp only
      | refine State.Kept.mk_same ?_ (by rfl) (by rfl)
  | cons a l ih =>
    unfold State.dropQueues
    try dsimp only
    with_reducible repeat' first
      | assumption | apply ih | apply State.setQueue_kept | apply State.dropQueuedAll_kept | intro _ _ | split | dsimp only
      | refine State.Kept.mk_same ?_ (by rfl) (by rfl)

theorem State.dropRepl_kept {k : State} (s : State) (x1 : List Nat) (hs : k.Kept s) : k.Kept (State.dropRepl s x1) := by
  induction x1 generalizing s with
  | nil =>
    unfold State.dropRepl
    try dsimp only
    with_reducible repeat' first
      | assumption | apply State.dropMcast_kept | intro _ _ | split | dsimp only
  | cons a l ih =>
    unfold State.dropRepl
    try dsimp only
    with_reducible repeat' first
      | assumption | apply ih | apply State.dropMcast_kept | intro _ _ | split | dsimp only

theorem State.dropArrivals_kept {k : State} (s : State) (x1 : Nat) (x2 : List Nat) (hs : k.Kept s) : k.Kept
  (State.dropArrivals s x1 x2) := by
  induction x2 generalizing s x1 with
  | nil =>
    unfold State.dropArrivals
    try dsimp only
    with_reducible repeat' first
      | assumption | apply State.dropArrival_kept | intro _ _ | split | dsimp only
      | refine State.Kept.mk_same ?_ (by rfl) (by rfl)
  | cons a l ih =>
    unfold State.dropArrivals
    try dsimp only
    with_reducible repeat' first
      | assumption | apply ih | apply State.dropArrival_kept | intro _ _ | split | dsimp only
      | refine State.Kept.mk_same ?_ (by rfl) (by rfl)

theorem State.deckClear_kept {k : State} (s : State) (x1 : Nat) (hs : k.Kept s) : k.Kept (State.deckClear s x1) := by
  unfold State.deckClear
  try dsimp only
  with_reducible repeat' first
    | assumption | apply State.setDeck_kept | apply State.dropHeldPunts_kept | apply State.dropPorts_kept
    | apply State.dropQueues_kept | apply State.dropRepl_kept | apply State.setPath_kept | apply State.dropArrivals_kept
    | intro _ _ | split | dsimp only | refine State.Kept.mk_same ?_ (by rfl) (by rfl)

theorem State.dropFifo_kept {k : State} (s : State) (x1 : List Nat) (hs : k.Kept s) : k.Kept (State.dropFifo s x1) := by
  induction x1 generalizing s with
  | nil =>
    unfold State.dropFifo
    try dsimp only
    with_reducible repeat' first
      | assumption | apply State.dropEarly_kept | intro _ _ | split | dsimp only
  | cons a l ih =>
    unfold State.dropFifo
    try dsimp only
    with_reducible repeat' first
      | assumption | apply ih | apply State.dropEarly_kept | intro _ _ | split | dsimp only

theorem State.dropVecs_kept {k : State} (s : State) (sl : Nat) (x2 : List Nat) (hs : k.Kept s) : k.Kept
  (State.dropVecs s sl x2) := by
  induction x2 generalizing s sl with
  | nil =>
    unfold State.dropVecs
    try dsimp only
    with_reducible repeat' first
      | assumption | apply State.dropIngress_kept | intro _ _ | split | dsimp only
  | cons a l ih =>
    unfold State.dropVecs
    try dsimp only
    with_reducible repeat' first
      | assumption | apply ih | apply State.dropIngress_kept | intro _ _ | split | dsimp only

theorem State.dropPipe_kept {k : State} (s : State) (sl : Nat) (hs : k.Kept s) : k.Kept (State.dropPipe s sl) := by
  unfold State.dropPipe
  try dsimp only
  with_reducible repeat' first
    | assumption | apply State.dropFifo_kept | apply State.dropVecs_kept | apply State.setSlice_kept | intro _ _ | split
    | dsimp only

theorem State.dropPipes_kept {k : State} (s : State) (x1 : List Nat) (hs : k.Kept s) : k.Kept (State.dropPipes s x1)
  := by
  induction x1 generalizing s with
  | nil =>
    unfold State.dropPipes
    try dsimp only
    with_reducible repeat' first
      | assumption | apply State.dropPipe_kept | intro _ _ | split | dsimp only
  | cons a l ih =>
    unfold State.dropPipes
    try dsimp only
    with_reducible repeat' first
      | assumption | apply ih | apply State.dropPipe_kept | intro _ _ | split | dsimp only

theorem State.channelDown_kept {k : State} (s : State) (hs : k.Kept s) : k.Kept (State.channelDown s) := by
  unfold State.channelDown
  try dsimp only
  with_reducible repeat' first
    | assumption | apply State.sourceMsg_kept | intro _ _ | split | dsimp only
    | refine State.Kept.mk_same ?_ (by rfl) (by rfl)

theorem State.halfStart_kept {k : State} (s : State) (x1 : Nat) (hs : k.Kept s) : k.Kept (State.halfStart s x1) := by
  unfold State.halfStart
  extract_lets s1 ids src s2 s3 s4 s5 w t s6 s7 s8 s9 o s10 b1 b2 s11
  have h1 : k.Kept s1 := State.channelDown_kept _ (State.portsGone_kept _ _ _ (State.portsStop_kept _ _ _ hs))
  have h2 : k.Kept s2 := State.dropArrivals_kept _ _ _ (State.moveHolders_kept _ _ _ _ (State.setPath_kept _ _ _ h1))
  have h3 : k.Kept s3 := State.dropPipes_kept _ _ (State.deckClear_kept _ _ h2)
  have h4 : k.Kept s4 := State.fgLost_kept _ _ _ h3
  clear_value s1 s2 s3 s4
  have h5 : k.Kept s5 := by
    dsimp only [s5]
    refine ⟨⟨?_, ?_⟩, h4.2, h4.3, h4.4, h4.5, h4.6⟩
    · dsimp only; exact resetRegs_wf h4.1.1
    · dsimp only; exact AMap.wf_filter _ h4.1.2
  clear_value s5
  have h6 : k.Kept s6 := State.setWood_kept _ _ _ h5
  have h7 : k.Kept s7 := State.setTally_kept _ _ _ h6
  have h8 : k.Kept s8 := State.setHbm_kept _ _ _ (State.setMatrix_kept _ _ _ h7)
  clear_value s6 s7 s8
  have h9 : k.Kept s9 := State.dropSel_kept _ _ (State.endReads_kept _ _ _ h8 (fun _ h a => State.readLost_kept _ a h))
  have h10 : k.Kept s10 := State.setPath_kept _ _ _ h9
  clear_value s9 s10
  have h11 : k.Kept s11 := ⟨h10.1, h10.2, h10.3, h10.4, h10.5, h10.6⟩
  clear_value s11
  split
  · exact State.sweepReset_kept _ _ _ h11
  · exact h11

theorem State.rstHalf_kept {k : State} (s : State) (v : Word) (hs : k.Kept s) : k.Kept (State.rstHalf s v) := by
  unfold State.rstHalf
  try dsimp only
  with_reducible repeat' first
    | assumption | apply State.halfStart_kept | apply State.rstReject_kept | intro _ _ | split | dsimp only

theorem State.keptAlways_kept {k : State} (s : State) (old : State) (hs : k.Kept s) : k.Kept (State.keptAlways s old)
  := by
  unfold State.keptAlways
  try dsimp only
  with_reducible repeat' first
    | assumption | apply State.setReg_kept | intro _ _ | split | dsimp only

theorem State.chipReset_kept {k : State} (s : State) (cause : Nat) (hs : k.Kept s) : k.Kept (State.chipReset s cause)
  :=
  State.keptAlways_kept _ _ (hs.fresh rfl rfl rfl rfl rfl rfl rfl)

theorem State.loseAligns_kept {k : State} (s : State) (x1 : List Nat) (hs : k.Kept s) : k.Kept (State.loseAligns s
  x1) := by
  induction x1 generalizing s with
  | nil =>
    unfold State.loseAligns
    try dsimp only
    with_reducible repeat' first
      | assumption | apply State.loseAlign_kept | intro _ _ | split | dsimp only
  | cons a l ih =>
    unfold State.loseAligns
    try dsimp only
    with_reducible repeat' first
      | assumption | apply ih | apply State.loseAlign_kept | intro _ _ | split | dsimp only

theorem State.blockEnter_kept {k : State} (s : State) (p : Nat) (hs : k.Kept s) : k.Kept (State.blockEnter s p) := by
  unfold State.blockEnter
  try dsimp only
  with_reducible repeat' first
    | assumption | apply State.loseAligns_kept | apply State.stageOut_kept | apply State.seqStop_kept
    | apply State.deckClear_kept | intro _ _ | split | dsimp only | refine State.Kept.mk_same ?_ (by rfl) (by rfl)

theorem State.abortWindow_kept {k : State} (s : State) (p : Nat) (hs : k.Kept s) : k.Kept (State.abortWindow s p) := by
  unfold State.abortWindow
  try dsimp only
  with_reducible repeat' first
    | assumption | apply State.readInReset_kept | apply State.setReg_kept | intro _ | apply State.endReads_kept | intro _ _
    | split | dsimp only | refine State.Kept.mk_same ?_ (by rfl) (by rfl)

theorem State.blockBegin_kept {k : State} (s : State) (p : Nat) (hs : k.Kept s) : k.Kept (State.blockBegin s p) := by
  unfold State.blockBegin
  try dsimp only
  with_reducible repeat' first
    | assumption | apply State.blockEnter_kept | apply State.setRf_kept | apply State.abortWindow_kept | intro _ _ | split
    | dsimp only | refine State.Kept.mk_same ?_ (by rfl) (by rfl)

theorem State.blockStart_kept {k : State} (s : State) (p : Nat) (hs : k.Kept s) : k.Kept (State.blockStart s p) := by
  unfold State.blockStart
  try dsimp only
  with_reducible repeat' first
    | assumption | apply State.blockBegin_kept | apply State.setRf_kept | apply State.rstReject_kept | intro _ _ | split
    | dsimp only | refine State.Kept.mk_same ?_ (by rfl) (by rfl)

theorem State.straps_kept {k : State} (s : State) (pins : PinSample) (hs : k.Kept s) : k.Kept (State.straps s pins)
  := by
  unfold State.straps
  try dsimp only
  with_reducible repeat' first
    | assumption | intro _ _ | split | dsimp only | refine State.Kept.mk_same ?_ (by rfl) (by rfl)

theorem State.powerReset_kept {k : State} (s : State) (pins : PinSample) (hs : k.Kept s) : k.Kept (State.powerReset s
  pins) := by
  unfold State.powerReset
  extract_lets z t0 t1 io t2 t3
  have h0 : k.Kept t0 := hs.fresh rfl rfl rfl rfl rfl rfl rfl
  have h1 : k.Kept t1 := State.straps_kept _ _ h0
  have hio : ∀ t n, k.Kept t → k.Kept (io t n) := fun t n h => State.setReg_kept _ _ _ _ h
  have h2 : k.Kept t2 := hio _ _ (hio _ _ (hio _ _ (hio _ _ h1)))
  have h3 : k.Kept t3 := by
    dsimp only [t3]; split
    · exact State.emit_kept _ _ h2
    · exact h2
  clear_value t3
  split
  · exact State.emit_kept _ _ h3
  · exact h3

theorem State.mapLateRing_kept {k : State} (s : State) (x1 : Nat) (r : Nat) (hs : k.Kept s) : k.Kept
  (State.mapLateRing s x1 r) := by
  unfold State.mapLateRing
  try dsimp only
  with_reducible repeat' first
    | assumption | apply State.mapRing_kept | intro _ _ | split | dsimp only

theorem State.mapLate_kept {k : State} (s : State) (x1 : Nat) (hs : k.Kept s) : k.Kept (State.mapLate s x1) := by
  unfold State.mapLate
  try dsimp only
  with_reducible repeat' first
    | assumption | apply State.mapLateRing_kept | intro _ _ | split | dsimp only

theorem State.sendHeld_kept {k : State} (s : State) (x1 : List Message) (hs : k.Kept s) : k.Kept (State.sendHeld s
  x1) := by
  induction x1 generalizing s with
  | nil =>
    unfold State.sendHeld
    try dsimp only
    with_reducible repeat' first
      | assumption | apply State.send_kept | intro _ _ | split | dsimp only
  | cons a l ih =>
    unfold State.sendHeld
    try dsimp only
    with_reducible repeat' first
      | assumption | apply ih | apply State.send_kept | intro _ _ | split | dsimp only

theorem State.strapPins_kept {k : State} (s : State) (pins : PinSample) (hs : k.Kept s) : k.Kept (State.strapPins s
  pins) := by
  unfold State.strapPins
  try dsimp only
  with_reducible repeat' first
    | assumption | intro _ _ | split | dsimp only | refine State.Kept.mk_same ?_ (by rfl) (by rfl)

theorem State.tellFailed_kept {k : State} (s : State) (hs : k.Kept s) : k.Kept (State.tellFailed s) := by
  unfold State.tellFailed
  try dsimp only
  with_reducible repeat' first
    | assumption | apply State.setCluster_kept | apply State.raiseIf_kept | intro _ _ | split | dsimp only
    | refine State.Kept.mk_same ?_ (by rfl) (by rfl)

theorem State.clearEvents_kept {k : State} (s : State) (p : Nat) (hs : k.Kept s) : k.Kept (State.clearEvents s p) := by
  unfold State.clearEvents
  try dsimp only
  with_reducible repeat' first
    | assumption | apply State.setEvtRegs_kept | intro _ _ | split | dsimp only

theorem State.missAll_kept {k : State} (s : State) (x1 : List Nat) (hs : k.Kept s) : k.Kept (State.missAll s x1) := by
  induction x1 generalizing s with
  | nil =>
    unfold State.missAll
    try dsimp only
    with_reducible repeat' first
      | assumption | apply State.missRise_kept | intro _ _ | split | dsimp only
  | cons a l ih =>
    unfold State.missAll
    try dsimp only
    with_reducible repeat' first
      | assumption | apply ih | apply State.missRise_kept | intro _ _ | split | dsimp only

theorem State.portsStart_kept {k : State} (s : State) (x1 : List Nat) (hs : k.Kept s) : k.Kept (State.portsStart s
  x1) := by
  induction x1 generalizing s with
  | nil =>
    unfold State.portsStart
    try dsimp only
    with_reducible repeat' first
      | assumption | apply State.enablePort_kept | apply State.spanStart_kept | intro _ _ | split | dsimp only
  | cons a l ih =>
    unfold State.portsStart
    try dsimp only
    with_reducible repeat' first
      | assumption | apply ih | apply State.enablePort_kept | apply State.spanStart_kept | intro _ _ | split | dsimp only

theorem State.resetPage_kept {k : State} (s : State) (p : Nat) (win : Bool) (keep : Nat → Bool) (hs : k.Kept s) :
  k.Kept (State.resetPage s p win keep) := by
  have h := State.dropSel_kept _ (fun q => decide (q = p)) (State.clearEvents_kept s p hs)
  exact h.regs (resetRegs_wf h.1.1)

theorem State.resetPages_kept {k : State} (s : State) (win : Bool) (x2 : List Nat) (hs : k.Kept s) : k.Kept
  (State.resetPages s win x2) := by
  induction x2 generalizing s win with
  | nil =>
    unfold State.resetPages
    try dsimp only
    with_reducible repeat' first
      | assumption | apply State.resetPage_kept | intro _ _ | split | dsimp only
  | cons a l ih =>
    unfold State.resetPages
    try dsimp only
    with_reducible repeat' first
      | assumption | apply ih | apply State.resetPage_kept | intro _ _ | split | dsimp only

theorem State.sliceReady_kept {k : State} (s : State) (sl : Nat) (hs : k.Kept s) : k.Kept (State.sliceReady s sl) := by
  unfold State.sliceReady
  try dsimp only
  with_reducible repeat' first
    | assumption | apply State.raise_kept | apply State.portsStart_kept | apply State.readInReset_kept | intro _
    | apply State.endReads_kept | apply State.resetPages_kept | intro _ _ | split | dsimp only
    | refine State.Kept.mk_same ?_ (by rfl) (by rfl)

theorem State.initStill_kept {k : State} (s : State) (x1 : Nat) (hs : k.Kept s) : k.Kept (State.initStill s x1) := by
  unfold State.initStill
  try dsimp only
  with_reducible repeat' first
    | assumption | apply State.initDeck_kept | intro _ _ | split | dsimp only

theorem State.eastLevels_kept {k : State} (s : State) (hs : k.Kept s) : k.Kept (State.eastLevels s) := by
  unfold State.eastLevels
  try dsimp only
  with_reducible repeat' first
    | assumption | apply State.missAll_kept | intro _ _ | split | dsimp only

theorem State.channelUp_kept {k : State} (s : State) (hs : k.Kept s) : k.Kept (State.channelUp s) := by
  unfold State.channelUp
  try dsimp only
  with_reducible repeat' first
    | assumption | apply State.eastLevels_kept | apply State.tellFailed_kept | apply State.peerHolds_kept
    | apply State.sendHeld_kept | apply State.sourceMsg_kept | intro _ _ | split | dsimp only
    | refine State.Kept.mk_same ?_ (by rfl) (by rfl)

theorem State.refillOne_kept {k : State} (s : State) (g : Nat) (x2 : Nat) (l : Nat) (hs : k.Kept s) : k.Kept
  (State.refillOne s g x2 l) := by
  unfold State.refillOne
  try dsimp only
  with_reducible repeat' first
    | assumption | apply State.setEmW_kept | refine State.placeEntry_kept (by assumption) ?_ | intro _ _ | split
    | dsimp only | refine State.Kept.mk_same ?_ (by rfl) (by rfl)

theorem State.refillAll_kept {k : State} (s : State) (g : Nat) (x2 : Nat) (x3 : List Nat) (hs : k.Kept s) : k.Kept
  (State.refillAll s g x2 x3) := by
  induction x3 generalizing s g x2 with
  | nil =>
    unfold State.refillAll
    try dsimp only
    with_reducible repeat' first
      | assumption | apply State.refillOne_kept | intro _ _ | split | dsimp only
  | cons a l ih =>
    unfold State.refillAll
    try dsimp only
    with_reducible repeat' first
      | assumption | apply ih | apply State.refillOne_kept | intro _ _ | split | dsimp only

theorem State.eastTakeAll_kept {k : State} (s : State) (x1 : List EastChange) (hs : k.Kept s) : k.Kept
  (State.eastTakeAll s x1) := by
  induction x1 generalizing s with
  | nil =>
    unfold State.eastTakeAll
    try dsimp only
    with_reducible repeat' first
      | assumption | apply State.eastTake_kept | intro _ _ | split | dsimp only
  | cons a l ih =>
    unfold State.eastTakeAll
    try dsimp only
    with_reducible repeat' first
      | assumption | apply ih | apply State.eastTake_kept | intro _ _ | split | dsimp only

theorem State.refill_kept {k : State} (s : State) (x1 : Nat) (hs : k.Kept s) : k.Kept (State.refill s x1) := by
  unfold State.refill
  try dsimp only
  with_reducible repeat' first
    | assumption | apply State.setWood_kept | apply State.refillAll_kept | apply State.eastTakeAll_kept | intro _ _ | split
    | dsimp only | refine State.Kept.mk_same ?_ (by rfl) (by rfl)

theorem State.sweepAgain_kept {k : State} (s : State) (x1 : Nat) (hs : k.Kept s) : k.Kept (State.sweepAgain s x1) := by
  unfold State.sweepAgain
  refine ⟨hs.1, fun r => ?_, hs.3, hs.4, hs.5, hs.6⟩
  have h := AMap.get_map_st (f := fun e => if e.2.st = .sweep then (if x1 = 0 then { e.2 with doneW := false } else { e.2 with doneE := false }) else e.2)
    (fun e => by by_cases h1 : e.2.st = .sweep <;> by_cases h2 : x1 = 0 <;> simp [h1, h2]) s.rings.recs r.val
  exact (by rw [h]; exact hs.2 r : (AMap.get ({} : RingS) _ r.val).st = .current ↔ r = s.rings.cur)

theorem State.halfReady_kept {k : State} (s : State) (x1 : Nat) (hs : k.Kept s) : k.Kept (State.halfReady s x1) := by
  unfold State.halfReady
  try dsimp only
  with_reducible repeat' first
    | assumption | apply State.raise_kept | apply State.portsStart_kept | apply State.initStill_kept
    | apply State.channelUp_kept | apply State.refill_kept | apply State.sweepAgain_kept | apply State.mapLate_kept
    | apply State.setHbm_kept | intro _ _ | split | dsimp only | refine State.Kept.mk_same ?_ (by rfl) (by rfl)

theorem State.enterWipe_kept {k : State} (s : State) (hs : k.Kept s) : k.Kept (State.enterWipe s) := by
  unfold State.enterWipe
  try dsimp only
  with_reducible repeat' first
    | assumption | apply State.raiseIf_kept | apply State.extend_kept | apply State.setTally_kept
    | apply State.setWood_kept | intro _ _ | split | dsimp only | refine State.Kept.mk_same ?_ (by rfl) (by rfl)

theorem State.blockLeave_kept {k : State} (s : State) (p : Nat) (hs : k.Kept s) : k.Kept (State.blockLeave s p) := by
  unfold State.blockLeave
  split
  · exact State.initStill_kept _ _ hs
  · exact State.seqReady_kept _ _ hs
  · exact State.seqReady_kept _ _ hs
  · exact State.seqReady_kept _ _ hs
  · exact hs.rings rfl rfl
  · exact State.setTally_kept _ _ _ hs
  · exact State.setMatrix_kept _ _ _ hs
  · exact State.nbrsClear_kept _ _ hs
  · exact ⟨hs.1, hs.2, hs.3, hs.4, hs.5, hs.6⟩
  · exact State.setCruiser_kept _ _ hs
  · exact State.fireSettle_kept _ ⟨hs.1, hs.2, hs.3, hs.4, hs.5, hs.6⟩
  · exact hs

theorem State.blockDone_kept {k : State} (s : State) (p : Nat) (hs : k.Kept s) : k.Kept (State.blockDone s p) := by
  unfold State.blockDone
  try dsimp only
  with_reducible repeat' first
    | assumption | apply State.raise_kept | apply State.setRf_kept | apply State.blockLeave_kept
    | apply State.resetPage_kept | apply State.blockBegin_kept | intro _ _ | split | dsimp only
    | refine State.Kept.mk_same ?_ (by rfl) (by rfl)

theorem State.enterBoot_kept {k : State} (s : State) (hs : k.Kept s) : k.Kept (State.enterBoot s) := by
  unfold State.enterBoot
  try dsimp only
  with_reducible repeat' first
    | assumption | apply State.setHbm_kept | apply State.enterWipe_kept | intro _ _ | split | dsimp only
    | refine State.Kept.mk_same ?_ (by rfl) (by rfl)

theorem execStartUpWipeDone_kept {k : State} {s : State} {rr : State} (ht : execStartUpWipeDone s = .next rr) (hs :
  k.Kept s) : k.Kept rr := by
  refine State.run_kept (fun s hs => ?_) hs ht
  try dsimp only
  with_reducible repeat' first
    | assumption | apply State.enterBoot_kept | intro _ _ | split | dsimp only

/-! ### LookOps -/

theorem State.setLook_kept {k : State} (s : State) (lo : LookoutS) (hs : k.Kept s) : k.Kept (State.setLook s lo) := by
  unfold State.setLook
  try dsimp only
  with_reducible repeat' first
    | assumption | intro _ _ | split | dsimp only | refine State.Kept.mk_same ?_ (by rfl) (by rfl)

theorem State.clrOne_kept {k : State} (s : State) (n : Nat) (hs : k.Kept s) : k.Kept (State.clrOne s n) := by
  unfold State.clrOne
  try dsimp only
  with_reducible repeat' first
    | assumption | apply State.setLook_kept | apply State.count_kept | apply State.raise_kept | intro _ _ | split
    | dsimp only | refine State.Kept.mk_same ?_ (by rfl) (by rfl)

theorem State.clrAll_kept {k : State} (s : State) (x1 : List Nat) (hs : k.Kept s) : k.Kept (State.clrAll s x1) := by
  induction x1 generalizing s with
  | nil =>
    unfold State.clrAll
    try dsimp only
    with_reducible repeat' first
      | assumption | apply State.clrOne_kept | intro _ _ | split | dsimp only
  | cons a l ih =>
    unfold State.clrAll
    try dsimp only
    with_reducible repeat' first
      | assumption | apply ih | apply State.clrOne_kept | intro _ _ | split | dsimp only

theorem State.loClr_kept {k : State} (s : State) (v : Word) (hs : k.Kept s) : k.Kept (State.loClr s v) := by
  unfold State.loClr
  try dsimp only
  with_reducible repeat' first
    | assumption | apply State.clrOne_kept | apply State.clrAll_kept | intro _ _ | split | dsimp only

theorem State.pinRise_kept {k : State} (s : State) (hs : k.Kept s) : k.Kept (State.pinRise s) := by
  unfold State.pinRise
  try dsimp only
  with_reducible repeat' first
    | assumption | apply State.setLook_kept | apply State.emit_kept | intro _ _ | split | dsimp only
    | refine State.Kept.mk_same ?_ (by rfl) (by rfl)

theorem State.pinRelease_kept {k : State} (s : State) (hs : k.Kept s) : k.Kept (State.pinRelease s) := by
  unfold State.pinRelease
  try dsimp only
  with_reducible repeat' first
    | assumption | apply State.pinRise_kept | apply State.setLook_kept | intro _ _ | split | dsimp only
    | refine State.Kept.mk_same ?_ (by rfl) (by rfl)

theorem State.askFatal_kept {k : State} (s : State) (cause : Nat) (m : Message) (hs : k.Kept s) : k.Kept
  (State.askFatal s cause m) := by
  unfold State.askFatal
  try dsimp only
  with_reducible repeat' first
    | assumption | apply State.setLook_kept | intro _ _ | split | dsimp only
    | refine State.Kept.mk_same ?_ (by rfl) (by rfl)

theorem State.longCopy_kept {k : State} (s : State) (e : LogEntry) (hs : k.Kept s) : k.Kept (State.longCopy s e) := by
  unfold State.longCopy
  try dsimp only
  with_reducible repeat' first
    | assumption | intro _ _ | split | dsimp only | refine State.Kept.mk_same ?_ (by rfl) (by rfl)

theorem State.longFrom_kept {k : State} (s : State) (n : Nat) (x2 : Nat) (hs : k.Kept s) : k.Kept (State.longFrom s n
  x2) := by
  induction x2 generalizing s n with
  | zero =>
    unfold State.longFrom
    try dsimp only
    with_reducible repeat' first
      | assumption | apply State.longCopy_kept | intro _ _ | split | dsimp only
  | succ nn ih =>
    unfold State.longFrom
    try dsimp only
    with_reducible repeat' first
      | assumption | apply ih | apply State.longCopy_kept | intro _ _ | split | dsimp only

theorem State.longSync_kept {k : State} (s : State) (hs : k.Kept s) : k.Kept (State.longSync s) := by
  unfold State.longSync
  try dsimp only
  with_reducible repeat' first
    | assumption | apply State.longFrom_kept | intro _ _ | split | dsimp only
    | refine State.Kept.mk_same ?_ (by rfl) (by rfl)

theorem State.askSevere_kept {k : State} (s : State) (m : Message) (hs : k.Kept s) : k.Kept (State.askSevere s m) := by
  unfold State.askSevere
  try dsimp only
  with_reducible repeat' first
    | assumption | apply State.setLook_kept | apply State.askFatal_kept | intro _ _ | split | dsimp only
    | refine State.Kept.mk_same ?_ (by rfl) (by rfl)

theorem State.askChip_kept {k : State} (s : State) (m : Message) (hs : k.Kept s) : k.Kept (State.askChip s m) := by
  unfold State.askChip
  try dsimp only
  with_reducible repeat' first
    | assumption | apply State.setLook_kept | apply State.askFatal_kept | intro _ _ | split | dsimp only
    | refine State.Kept.mk_same ?_ (by rfl) (by rfl)

theorem State.pinLatch_kept {k : State} (s : State) (hs : k.Kept s) : k.Kept (State.pinLatch s) := by
  unfold State.pinLatch
  try dsimp only
  with_reducible repeat' first
    | assumption | apply State.count_kept | apply State.raise_kept | apply State.setLook_kept | apply State.emit_kept
    | intro _ _ | split | dsimp only | refine State.Kept.mk_same ?_ (by rfl) (by rfl)

theorem State.trap_kept {k : State} (s : State) (m : Message) (hs : k.Kept s) : k.Kept (State.trap s m) := by
  unfold State.trap
  try dsimp only
  with_reducible repeat' first
    | assumption | apply State.count_kept | apply State.raise_kept | apply State.setLook_kept | intro _ _ | split
    | dsimp only | refine State.Kept.mk_same ?_ (by rfl) (by rfl)

theorem State.react_kept {k : State} (s : State) (m : Message) (hs : k.Kept s) : k.Kept (State.react s m) := by
  unfold State.react
  try dsimp only
  with_reducible repeat' first
    | assumption | apply State.blockStart_kept | apply State.askSevere_kept | apply State.askChip_kept
    | apply State.pinLatch_kept | apply State.trap_kept | apply State.msix_kept | intro _ _ | split | dsimp only
    | refine State.Kept.mk_same ?_ (by rfl) (by rfl)

theorem State.logMsg_kept {k : State} (s : State) (m : Message) (first : Bool) (react : Nat) (hs : k.Kept s) : k.Kept
  (State.logMsg s m first react) := by
  unfold State.logMsg
  try dsimp only
  with_reducible repeat' first
    | assumption | apply State.setLook_kept | apply State.longSync_kept | intro _ _ | split | dsimp only
    | refine State.Kept.mk_same ?_ (by rfl) (by rfl)

theorem State.takeMsg_kept {k : State} (s : State) (m : Message) (hs : k.Kept s) : k.Kept (State.takeMsg s m) := by
  unfold State.takeMsg
  try dsimp only
  with_reducible repeat' first
    | assumption | apply State.react_kept | apply State.logMsg_kept | apply State.setLook_kept | apply State.count_kept
    | intro _ _ | split | dsimp only | refine State.Kept.mk_same ?_ (by rfl) (by rfl)

theorem State.takeNext_kept {k : State} (s : State) (q : MsgQueue) (hs : k.Kept s) : k.Kept (State.takeNext s q) := by
  unfold State.takeNext
  try dsimp only
  with_reducible repeat' first
    | assumption | apply State.setLook_kept | apply State.takeMsg_kept | intro _ _ | split | dsimp only
    | refine State.Kept.mk_same ?_ (by rfl) (by rfl)

theorem State.sumWrite_kept {k : State} (s : State) (x : Summary) (ok : Bool) (hs : k.Kept s) : k.Kept
  (State.sumWrite s x ok) := by
  unfold State.sumWrite
  try dsimp only
  with_reducible repeat' first
    | assumption | apply State.setLook_kept | apply State.raiseIf_kept | intro _ _ | split | dsimp only
    | refine State.Kept.mk_same ?_ (by rfl) (by rfl)

theorem State.fatalWritten_kept {k : State} (s : State) (ok : Bool) (hs : k.Kept s) : k.Kept (State.fatalWritten s
  ok) := by
  unfold State.fatalWritten
  try dsimp only
  with_reducible repeat' first
    | assumption | apply State.chipReset_kept | apply State.setLook_kept | apply State.sumWrite_kept | intro _ _ | split
    | dsimp only | refine State.Kept.mk_same ?_ (by rfl) (by rfl)

theorem State.levelRise_kept {k : State} (s : State) (n : Nat) (hs : k.Kept s) : k.Kept (State.levelRise s n) := by
  unfold State.levelRise
  try dsimp only
  with_reducible repeat' first
    | assumption | apply State.react_kept | apply State.setLook_kept | intro _ _ | split | dsimp only
    | refine State.Kept.mk_same ?_ (by rfl) (by rfl)

/-! ### Firebreak -/

theorem State.hintWrite_kept {k : State} (s : State) (d : Nat) (hs : k.Kept s) : k.Kept (State.hintWrite s d) := by
  unfold State.hintWrite
  try dsimp only
  with_reducible repeat' first
    | assumption | apply State.hintStart_kept | intro _ _ | split | dsimp only

theorem State.setFire_kept {k : State} (s : State) (f : FireS) (hs : k.Kept s) : k.Kept (State.setFire s f) := by
  unfold State.setFire
  try dsimp only
  with_reducible repeat' first
    | assumption | intro _ _ | split | dsimp only | refine State.Kept.mk_same ?_ (by rfl) (by rfl)

theorem State.fbCalWrite_kept {k : State} (s : State) (v : Word) (hs : k.Kept s) : k.Kept (State.fbCalWrite s v) := by
  unfold State.fbCalWrite
  try dsimp only
  with_reducible repeat' first
    | assumption | apply State.setReg_kept | apply State.setFire_kept | intro _ _ | split | dsimp only
    | refine State.Kept.mk_same ?_ (by rfl) (by rfl)

theorem State.fixedWrite_kept {k : State} (s : State) (on : Bool) (hs : k.Kept s) : k.Kept (State.fixedWrite s on) := by
  unfold State.fixedWrite
  try dsimp only
  with_reducible repeat' first
    | assumption | apply State.setFire_kept | apply State.fireSettle_kept | apply State.raiseIf_kept
    | apply State.setRf_kept | intro _ _ | split | dsimp only | refine State.Kept.mk_same ?_ (by rfl) (by rfl)

theorem State.thermalTrip_kept {k : State} (s : State) (hs : k.Kept s) : k.Kept (State.thermalTrip s) := by
  unfold State.thermalTrip
  try dsimp only
  with_reducible repeat' first
    | assumption | apply State.pcieDown_kept | apply State.emit_kept | apply State.askFatal_kept | intro _ _ | split
    | dsimp only | refine State.Kept.mk_same ?_ (by rfl) (by rfl)

theorem execThermalTrip_kept {k : State} {_h : Half} {s : State} {rr : State} (ht : execThermalTrip _h s = .next rr)
  (hs : k.Kept s) : k.Kept rr := by
  refine State.runAlways_kept (fun s hs => ?_) hs ht
  try dsimp only
  with_reducible repeat' first
    | assumption | apply State.thermalTrip_kept | apply State.onlyIf_kept | intro _ _ | split | dsimp only

theorem State.supplyRecovery_kept {k : State} (s : State) (rail : Nat) (hs : k.Kept s) : k.Kept (State.supplyRecovery
  s rail) := by
  unfold State.supplyRecovery
  try dsimp only
  with_reducible repeat' first
    | assumption | apply State.setFire_kept | apply State.sourceMsg_kept | intro _ _ | split | dsimp only
    | refine State.Kept.mk_same ?_ (by rfl) (by rfl)

theorem State.soft_kept {k : State} (s : State) (x1 : Nat) (hs : k.Kept s) : k.Kept (State.soft s x1) := by
  unfold State.soft
  try dsimp only
  with_reducible repeat' first
    | assumption | apply State.setFire_kept | apply State.count_kept | apply State.raise_kept | intro _ _ | split
    | dsimp only | refine State.Kept.mk_same ?_ (by rfl) (by rfl)

theorem State.uvWarn_kept {k : State} (s : State) (hs : k.Kept s) : k.Kept (State.uvWarn s) := by
  unfold State.uvWarn
  try dsimp only
  with_reducible repeat' first
    | assumption | apply State.setFire_kept | apply State.fireSettle_kept | apply State.count_kept | apply State.raise_kept
    | intro _ _ | split | dsimp only | refine State.Kept.mk_same ?_ (by rfl) (by rfl)

theorem State.supplyWarning_kept {k : State} (s : State) (rail : Nat) (high : Bool) (hs : k.Kept s) : k.Kept
  (State.supplyWarning s rail high) := by
  unfold State.supplyWarning
  try dsimp only
  with_reducible repeat' first
    | assumption | apply State.uvWarn_kept | apply State.setFire_kept | apply State.sourceMsg_kept | intro _ _ | split
    | dsimp only | refine State.Kept.mk_same ?_ (by rfl) (by rfl)

theorem execUvRelease_kept {k : State} {s : State} {rr : State} (ht : execUvRelease s = .next rr) (hs : k.Kept s) :
  k.Kept rr := by
  refine State.run_kept (fun s hs => ?_) hs ht
  try dsimp only
  with_reducible repeat' first
    | assumption | apply State.setFire_kept | apply State.fireSettle_kept | intro _ _ | split | dsimp only
    | refine State.Kept.mk_same ?_ (by rfl) (by rfl)

theorem State.resetDip_kept {k : State} (s : State) (hs : k.Kept s) : k.Kept (State.resetDip s) := by
  unfold State.resetDip
  try dsimp only
  with_reducible repeat' first
    | assumption | apply State.askFatal_kept | apply State.setLook_kept | intro _ _ | split | dsimp only
    | refine State.Kept.mk_same ?_ (by rfl) (by rfl)

theorem State.hbmSensor_kept {k : State} (s : State) (x1 : Nat) (t : Int) (hs : k.Kept s) : k.Kept (State.hbmSensor s
  x1 t) := by
  unfold State.hbmSensor
  try dsimp only
  with_reducible repeat' first
    | assumption | apply State.setFire_kept | apply State.raise_kept | apply State.setReg_kept | intro _ _ | split
    | dsimp only | refine State.Kept.mk_same ?_ (by rfl) (by rfl)

theorem State.sensor_kept {k : State} (s : State) (i : Nat) (t : Int) (hs : k.Kept s) : k.Kept (State.sensor s i t)
  := by
  unfold State.sensor
  try dsimp only
  with_reducible repeat' first
    | assumption | apply State.setFire_kept | apply State.sourceMsg_kept | apply State.raise_kept | apply State.setReg_kept
    | intro _ _ | split | dsimp only | refine State.Kept.mk_same ?_ (by rfl) (by rfl)

theorem State.sensors_kept {k : State} (s : State) (i : Nat) (x2 : List Int) (hs : k.Kept s) : k.Kept (State.sensors
  s i x2) := by
  induction x2 generalizing s i with
  | nil =>
    unfold State.sensors
    try dsimp only
    with_reducible repeat' first
      | assumption | apply State.sensor_kept | intro _ _ | split | dsimp only
  | cons a l ih =>
    unfold State.sensors
    try dsimp only
    with_reducible repeat' first
      | assumption | apply ih | apply State.sensor_kept | intro _ _ | split | dsimp only

theorem State.tempSample_kept {k : State} (s : State) (t : TempSample) (hs : k.Kept s) : k.Kept (State.tempSample s
  t) := by
  unfold State.tempSample
  try dsimp only
  with_reducible repeat' first
    | assumption | apply State.headSetpoint_kept | apply State.onlyIf_kept | apply State.hbmSensor_kept
    | apply State.sensors_kept | intro _ _ | split | dsimp only

theorem State.droop_kept {k : State} (s : State) (x1 : Nat) (ns : Nat) (hs : k.Kept s) : k.Kept (State.droop s x1 ns)
  := by
  unfold State.droop
  try dsimp only
  with_reducible repeat' first
    | assumption | apply State.setFire_kept | apply State.sourceMsg_kept | apply State.count64_kept | intro _ _ | split
    | dsimp only | refine State.Kept.mk_same ?_ (by rfl) (by rfl)

theorem State.thermalStep_kept {k : State} (s : State) (hs : k.Kept s) : k.Kept (State.thermalStep s) := by
  unfold State.thermalStep
  try dsimp only
  with_reducible repeat' first
    | assumption | apply State.fireSettle_kept | apply State.raise_kept | apply State.setFire_kept | apply State.soft_kept
    | intro _ _ | split | dsimp only | refine State.Kept.mk_same ?_ (by rfl) (by rfl)

theorem State.powerSample_kept {k : State} (s : State) (hs : k.Kept s) : k.Kept (State.powerSample s) := by
  unfold State.powerSample
  try dsimp only
  with_reducible repeat' first
    | assumption | apply State.fireSettle_kept | apply State.setReg_kept | apply State.drawn_kept
    | apply State.setFire_kept | intro _ _ | split | dsimp only | refine State.Kept.mk_same ?_ (by rfl) (by rfl)

theorem execPowerSample_kept {k : State} {s : State} {rr : State} (ht : execPowerSample s = .next rr) (hs : k.Kept s)
  : k.Kept rr := by
  refine State.run_kept (fun s hs => ?_) hs ht
  try dsimp only
  with_reducible repeat' first
    | assumption | apply State.powerSample_kept | intro _ _ | split | dsimp only

theorem execResetDip_kept {k : State} {_sram : Bool} {s : State} {rr : State} (ht : execResetDip _sram s = .next rr)
  (hs : k.Kept s) : k.Kept rr := by
  refine State.runAlways_kept (fun s hs => ?_) hs ht
  try dsimp only
  with_reducible repeat' first
    | assumption | apply State.resetDip_kept | apply State.onlyIf_kept | intro _ _ | split | dsimp only

theorem State.hintOpen_kept {k : State} (s : State) (us : Nat) (hs : k.Kept s) : k.Kept (State.hintOpen s us) := by
  unfold State.hintOpen
  try dsimp only
  with_reducible repeat' first
    | assumption | apply State.setFire_kept | apply State.fireSettle_kept | intro _ _ | split | dsimp only
    | refine State.Kept.mk_same ?_ (by rfl) (by rfl)

theorem execPmbusErr_kept {k : State} {s : State} {rr : State} (ht : execPmbusErr s = .next rr) (hs : k.Kept s) :
  k.Kept rr := by
  refine State.run_kept (fun s hs => ?_) hs ht
  try dsimp only
  with_reducible repeat' first
    | assumption | apply State.raise_kept | apply State.sourceMsg_kept | apply State.setFire_kept
    | apply State.hintOpen_kept | intro _ _ | split | dsimp only | refine State.Kept.mk_same ?_ (by rfl) (by rfl)

theorem execCalStale_kept {k : State} {s : State} {rr : State} (ht : execCalStale s = .next rr) (hs : k.Kept s) :
  k.Kept rr := by
  refine State.run_kept (fun s hs => ?_) hs ht
  try dsimp only
  with_reducible repeat' first
    | assumption | apply State.setFire_kept | apply State.raise_kept | apply State.onlyIf_kept | intro _ _ | split
    | dsimp only | refine State.Kept.mk_same ?_ (by rfl) (by rfl)

theorem execDeferralLimit_kept {k : State} {s : State} {rr : State} (ht : execDeferralLimit s = .next rr) (hs :
  k.Kept s) : k.Kept rr := by
  refine State.run_kept (fun s hs => ?_) hs ht
  try dsimp only
  with_reducible repeat' first
    | assumption | apply State.setFire_kept | apply State.fireSettle_kept | apply State.onlyIf_kept | intro _ _ | split
    | dsimp only | refine State.Kept.mk_same ?_ (by rfl) (by rfl)

theorem execThermalStep_kept {k : State} {s : State} {rr : State} (ht : execThermalStep s = .next rr) (hs : k.Kept s)
  : k.Kept rr := by
  refine State.run_kept (fun s hs => ?_) hs ht
  try dsimp only
  with_reducible repeat' first
    | assumption | apply State.thermalStep_kept | intro _ _ | split | dsimp only

theorem State.moveCap_kept {k : State} (s : State) (c : Cap) (d : Nat) (hs : k.Kept s) : k.Kept (State.moveCap s c d)
  := by
  unfold State.moveCap
  try dsimp only
  with_reducible repeat' first
    | assumption | apply State.fireSettle_kept | apply State.count_kept | apply State.raise_kept | apply State.setFire_kept
    | intro _ _ | split | dsimp only

theorem State.floorCheck_kept {k : State} (s : State) (c : Cap) (hs : k.Kept s) : k.Kept (State.floorCheck s c) := by
  unfold State.floorCheck
  try dsimp only
  with_reducible repeat' first
    | assumption | apply State.setFire_kept | apply State.raise_kept | intro _ _ | split | dsimp only
    | refine State.Kept.mk_same ?_ (by rfl) (by rfl)

theorem State.capEvaluate_kept {k : State} (s : State) (c : Cap) (hs : k.Kept s) : k.Kept (State.capEvaluate s c) := by
  unfold State.capEvaluate
  try dsimp only
  with_reducible repeat' first
    | assumption | apply State.setFire_kept | apply State.moveCap_kept | apply State.soft_kept
    | apply State.floorCheck_kept | intro _ _ | split | dsimp only | refine State.Kept.mk_same ?_ (by rfl) (by rfl)

theorem execCapEvaluate_kept {k : State} {c : Cap} {s : State} {rr : State} (ht : execCapEvaluate c s = .next rr) (hs
  : k.Kept s) : k.Kept rr := by
  refine State.run_kept (fun s hs => ?_) hs ht
  try dsimp only
  with_reducible repeat' first
    | assumption | apply State.capEvaluate_kept | intro _ _ | split | dsimp only

theorem execAlertN_kept {k : State} {level : Bool} {s : State} {rr : State} (ht : execAlertN level s = .next rr) (hs
  : k.Kept s) : k.Kept rr := by
  refine State.run_kept (fun s hs => ?_) hs ht
  try dsimp only
  with_reducible repeat' first
    | assumption | apply State.sourceMsg_kept | apply State.onlyIf_kept | intro _ _ | split | dsimp only

theorem execHintWindowEnd_kept {k : State} {s : State} {rr : State} (ht : execHintWindowEnd s = .next rr) (hs :
  k.Kept s) : k.Kept rr := by
  refine State.run_kept (fun s hs => ?_) hs ht
  try dsimp only
  with_reducible repeat' first
    | assumption | apply State.setFire_kept | apply State.fireSettle_kept | intro _ _ | split | dsimp only
    | refine State.Kept.mk_same ?_ (by rfl) (by rfl)

theorem execHintAck_kept {k : State} {s : State} {rr : State} (ht : execHintAck s = .next rr) (hs : k.Kept s) :
  k.Kept rr := by
  refine State.run_kept (fun s hs => ?_) hs ht
  try dsimp only
  with_reducible repeat' first
    | assumption | apply State.hintOpen_kept | apply State.onlyIf_kept | intro _ _ | split | dsimp only
    | refine State.Kept.mk_same ?_ (by rfl) (by rfl)

theorem execSupplyRecovery_kept {k : State} {rail : Fin 11} {s : State} {rr : State} (ht : execSupplyRecovery rail s
  = .next rr) (hs : k.Kept s) : k.Kept rr := by
  refine State.run_kept (fun s hs => ?_) hs ht
  try dsimp only
  with_reducible repeat' first
    | assumption | apply State.supplyRecovery_kept | intro _ _ | split | dsimp only

theorem execSupplyWarning_kept {k : State} {rail : Fin 11} {high : Bool} {s : State} {rr : State} (ht :
  execSupplyWarning rail high s = .next rr) (hs : k.Kept s) : k.Kept rr := by
  refine State.run_kept (fun s hs => ?_) hs ht
  try dsimp only
  with_reducible repeat' first
    | assumption | apply State.supplyWarning_kept | intro _ _ | split | dsimp only

theorem execTempSample_kept {k : State} {t : TempSample} {s : State} {rr : State} (ht : execTempSample t s = .next
  rr) (hs : k.Kept s) : k.Kept rr := by
  refine State.run_kept (fun s hs => ?_) hs ht
  try dsimp only
  with_reducible repeat' first
    | assumption | apply State.tempSample_kept | intro _ _ | split | dsimp only

theorem execDroopOnset_kept {k : State} {x0 : Half} {ns : Nat} {s : State} {rr : State} (ht : execDroopOnset x0 ns s
  = .next rr) (hs : k.Kept s) : k.Kept rr := by
  refine State.run_kept (fun s hs => ?_) hs ht
  try dsimp only
  with_reducible repeat' first
    | assumption | apply State.droop_kept | intro _ _ | split | dsimp only

/-! ### Lanes -/

theorem State.fecWrite_kept {k : State} (s : State) (old : State) (p : Nat) (hs : k.Kept s) : k.Kept (State.fecWrite
  s old p) := by
  unfold State.fecWrite
  try dsimp only
  with_reducible repeat' first
    | assumption | apply State.setPort_kept | intro _ _ | split | dsimp only
    | refine State.Kept.mk_same ?_ (by rfl) (by rfl)

theorem State.localFault_kept {k : State} (s : State) (p : Nat) (hs : k.Kept s) : k.Kept (State.localFault s p) := by
  unfold State.localFault
  try dsimp only
  with_reducible repeat' first
    | assumption | apply State.setPort_kept | apply State.loseAlign_kept | intro _ _ | split | dsimp only
    | refine State.Kept.mk_same ?_ (by rfl) (by rfl)

theorem execLocalFault_kept {k : State} {p : Port} {s : State} {rr : State} (ht : execLocalFault p s = .next rr) (hs
  : k.Kept s) : k.Kept rr := by
  refine State.run_kept (fun s hs => ?_) hs ht
  try dsimp only
  with_reducible repeat' first
    | assumption | apply State.localFault_kept | apply State.onlyIf_kept | intro _ _ | split | dsimp only

theorem State.laneConverged_kept {k : State} (s : State) (l : Nat) (m : LaneMeas) (hs : k.Kept s) : k.Kept
  (State.laneConverged s l m) := by
  unfold State.laneConverged
  try dsimp only
  with_reducible repeat' first
    | assumption | apply State.laneUp_kept | apply State.setLane_kept | apply State.laneCtle_kept | intro _ _ | split
    | dsimp only | refine State.Kept.mk_same ?_ (by rfl) (by rfl)

theorem execAdaptConverged_kept {k : State} {l : Lane} {meas : LaneMeas} {s : State} {rr : State} (ht :
  execAdaptConverged l meas s = .next rr) (hs : k.Kept s) : k.Kept rr := by
  refine State.run_kept (fun s hs => ?_) hs ht
  try dsimp only
  with_reducible repeat' first
    | assumption | apply State.laneConverged_kept | intro _ _ | split | dsimp only

theorem State.pllLock_kept {k : State} (s : State) (m : Nat) (x2 : Nat) (hs : k.Kept s) : k.Kept (State.pllLock s m
  x2) := by
  unfold State.pllLock
  try dsimp only
  with_reducible repeat' first
    | assumption | apply State.setMacro_kept | apply State.lanesWake_kept | intro _ _ | split | dsimp only
    | refine State.Kept.mk_same ?_ (by rfl) (by rfl)

theorem execPllLock_kept {k : State} {m : Macro} {pll : Pll} {s : State} {rr : State} (ht : execPllLock m pll s =
  .next rr) (hs : k.Kept s) : k.Kept rr := by
  refine State.run_kept (fun s hs => ?_) hs ht
  try dsimp only
  with_reducible repeat' first
    | assumption | apply State.pllLock_kept | apply State.onlyIf_kept | intro _ _ | split | dsimp only

theorem execRecalLiveDone_kept {k : State} {p : Port} {s : State} {rr : State} (ht : execRecalLiveDone p s = .next
  rr) (hs : k.Kept s) : k.Kept rr := by
  refine State.run_kept (fun s hs => ?_) hs ht
  try dsimp only
  with_reducible repeat' first
    | assumption | apply State.liveEnd_kept | apply State.raise_kept | apply State.onlyIf_kept | intro _ _ | split
    | dsimp only

theorem State.laneLos_kept {k : State} (s : State) (l : Nat) (hs : k.Kept s) : k.Kept (State.laneLos s l) := by
  unfold State.laneLos
  try dsimp only
  with_reducible repeat' first
    | assumption | apply State.laneLost_kept | apply State.count_kept | apply State.raise_kept | apply State.setLane_kept
    | intro _ _ | split | dsimp only | refine State.Kept.mk_same ?_ (by rfl) (by rfl)

theorem execLossOfSignal_kept {k : State} {l : Lane} {s : State} {rr : State} (ht : execLossOfSignal l s = .next rr)
  (hs : k.Kept s) : k.Kept rr := by
  refine State.run_kept (fun s hs => ?_) hs ht
  try dsimp only
  with_reducible repeat' first
    | assumption | apply State.laneLos_kept | intro _ _ | split | dsimp only

theorem execPllRateApply_kept {k : State} {m : Macro} {pll : Pll} {s : State} {rr : State} (ht : execPllRateApply m
  pll s = .next rr) (hs : k.Kept s) : k.Kept rr := by
  refine State.run_kept (fun s hs => ?_) hs ht
  try dsimp only
  with_reducible repeat' first
    | assumption | apply State.pllApply_kept | apply State.onlyIf_kept | intro _ _ | split | dsimp only

theorem State.pllUnlock_kept {k : State} (s : State) (m : Nat) (x2 : Nat) (hs : k.Kept s) : k.Kept (State.pllUnlock s
  m x2) := by
  unfold State.pllUnlock
  try dsimp only
  with_reducible repeat' first
    | assumption | apply State.setMacro_kept | apply State.raiseIf_kept | intro _ _ | split | dsimp only
    | refine State.Kept.mk_same ?_ (by rfl) (by rfl)

theorem State.fecDegrade_kept {k : State} (s : State) (p : Nat) (down : Bool) (hs : k.Kept s) : k.Kept
  (State.fecDegrade s p down) := by
  unfold State.fecDegrade
  try dsimp only
  with_reducible repeat' first
    | assumption | apply State.localOnset_kept | apply State.linkFall_kept | apply State.lanesRevert_kept
    | apply State.raise_kept | apply State.setPort_kept | intro _ _ | split | dsimp only
    | refine State.Kept.mk_same ?_ (by rfl) (by rfl)

theorem State.fecCalm_kept {k : State} (s : State) (p : Nat) (down : Bool) (hs : k.Kept s) : k.Kept (State.fecCalm s
  p down) := by
  unfold State.fecCalm
  try dsimp only
  with_reducible repeat' first
    | assumption | apply State.setPort_kept | intro _ _ | split | dsimp only
    | refine State.Kept.mk_same ?_ (by rfl) (by rfl)

theorem State.remoteOnset_kept {k : State} (s : State) (p : Nat) (hs : k.Kept s) : k.Kept (State.remoteOnset s p) := by
  unfold State.remoteOnset
  try dsimp only
  with_reducible repeat' first
    | assumption | apply State.linkFall_kept | apply State.count_kept | apply State.raise_kept | apply State.setPort_kept
    | apply State.realign_kept | intro _ _ | split | dsimp only | refine State.Kept.mk_same ?_ (by rfl) (by rfl)

theorem execRemoteFault_kept {k : State} {p : Port} {s : State} {rr : State} (ht : execRemoteFault p s = .next rr)
  (hs : k.Kept s) : k.Kept rr := by
  refine State.run_kept (fun s hs => ?_) hs ht
  try dsimp only
  with_reducible repeat' first
    | assumption | apply State.remoteOnset_kept | apply State.onlyIf_kept | intro _ _ | split | dsimp only

theorem State.fecBins_kept {k : State} (s : State) (p : Nat) (i : Nat) (x3 : List Nat) (hs : k.Kept s) : k.Kept
  (State.fecBins s p i x3) := by
  induction x3 generalizing s p i with
  | nil =>
    unfold State.fecBins
    try dsimp only
    with_reducible repeat' first
      | assumption | apply State.count_kept | intro _ _ | split | dsimp only
  | cons a l ih =>
    unfold State.fecBins
    try dsimp only
    with_reducible repeat' first
      | assumption | apply ih | apply State.count_kept | intro _ _ | split | dsimp only

theorem State.fecCounts_kept {k : State} (s : State) (p : Nat) (w : FecWindow) (hs : k.Kept s) : k.Kept
  (State.fecCounts s p w) := by
  unfold State.fecCounts
  try dsimp only
  with_reducible repeat' first
    | assumption | apply State.fecBins_kept | apply State.count64_kept | intro _ _ | split | dsimp only

theorem State.fecWindow_kept {k : State} (s : State) (p : Nat) (w : FecWindow) (hs : k.Kept s) : k.Kept
  (State.fecWindow s p w) := by
  unfold State.fecWindow
  try dsimp only
  with_reducible repeat' first
    | assumption | apply State.fecCalm_kept | apply State.fecDegrade_kept | apply State.fecCounts_kept
    | apply State.realign_kept | intro _ _ | split | dsimp only

theorem execFecDegrWindow_kept {k : State} {p : Port} {w : FecWindow} {s : State} {rr : State} (ht :
  execFecDegrWindow p w s = .next rr) (hs : k.Kept s) : k.Kept rr := by
  refine State.run_kept (fun s hs => ?_) hs ht
  try dsimp only
  with_reducible repeat' first
    | assumption | apply State.fecWindow_kept | apply State.onlyIf_kept | intro _ _ | split | dsimp only

theorem State.linkRise_kept {k : State} (s : State) (p : Nat) (hs : k.Kept s) : k.Kept (State.linkRise s p) := by
  unfold State.linkRise
  try dsimp only
  with_reducible repeat' first
    | assumption | apply State.raise_kept | apply State.queuesRise_kept | apply State.setPort_kept | intro _ _ | split
    | dsimp only | refine State.Kept.mk_same ?_ (by rfl) (by rfl)

theorem State.laneUnlock_kept {k : State} (s : State) (l : Nat) (hs : k.Kept s) : k.Kept (State.laneUnlock s l) := by
  unfold State.laneUnlock
  try dsimp only
  with_reducible repeat' first
    | assumption | apply State.setLane_kept | apply State.raise_kept | apply State.laneLost_kept | intro _ _ | split
    | dsimp only | refine State.Kept.mk_same ?_ (by rfl) (by rfl)

theorem State.laneLock_kept {k : State} (s : State) (l : Nat) (hs : k.Kept s) : k.Kept (State.laneLock s l) := by
  unfold State.laneLock
  try dsimp only
  with_reducible repeat' first
    | assumption | apply State.drawn_kept | apply State.setLane_kept | apply State.laneCtle_kept | apply State.laneUp_kept
    | intro _ _ | split | dsimp only | refine State.Kept.mk_same ?_ (by rfl) (by rfl)

theorem execLinkUp_kept {k : State} {p : Port} {s : State} {rr : State} (ht : execLinkUp p s = .next rr) (hs : k.Kept
  s) : k.Kept rr := by
  refine State.run_kept (fun s hs => ?_) hs ht
  try dsimp only
  with_reducible repeat' first
    | assumption | apply State.linkRise_kept | apply State.onlyIf_kept | intro _ _ | split | dsimp only

theorem execCdrUnlock_kept {k : State} {l : Lane} {s : State} {rr : State} (ht : execCdrUnlock l s = .next rr) (hs :
  k.Kept s) : k.Kept rr := by
  refine State.run_kept (fun s hs => ?_) hs ht
  try dsimp only
  with_reducible repeat' first
    | assumption | apply State.laneUnlock_kept | intro _ _ | split | dsimp only

theorem execSignalAndCdrLock_kept {k : State} {l : Lane} {s : State} {rr : State} (ht : execSignalAndCdrLock l s =
  .next rr) (hs : k.Kept s) : k.Kept rr := by
  refine State.run_kept (fun s hs => ?_) hs ht
  try dsimp only
  with_reducible repeat' first
    | assumption | apply State.laneLock_kept | intro _ _ | split | dsimp only

theorem execPllUnlock_kept {k : State} {m : Macro} {pll : Pll} {s : State} {rr : State} (ht : execPllUnlock m pll s =
  .next rr) (hs : k.Kept s) : k.Kept rr := by
  refine State.run_kept (fun s hs => ?_) hs ht
  try dsimp only
  with_reducible repeat' first
    | assumption | apply State.pllUnlock_kept | intro _ _ | split | dsimp only

/-! ### Matrix -/

theorem State.clrDrop_kept {k : State} (s : State) (x1 : Nat) (hs : k.Kept s) : k.Kept (State.clrDrop s x1) := by
  unfold State.clrDrop
  try dsimp only
  with_reducible repeat' first
    | assumption | apply State.setMatrix_kept | intro _ _ | split | dsimp only
    | refine State.Kept.mk_same ?_ (by rfl) (by rfl)

theorem State.clrHist_kept {k : State} (s : State) (x1 : Nat) (hs : k.Kept s) : k.Kept (State.clrHist s x1) := by
  unfold State.clrHist
  try dsimp only
  with_reducible repeat' first
    | assumption | apply State.setMatrix_kept | intro _ _ | split | dsimp only
    | refine State.Kept.mk_same ?_ (by rfl) (by rfl)

theorem State.clrMx_kept {k : State} (s : State) (x1 : Nat) (hs : k.Kept s) : k.Kept (State.clrMx s x1) := by
  unfold State.clrMx
  try dsimp only
  with_reducible repeat' first
    | assumption | apply State.setReg64_kept | apply State.setMatrix_kept | intro _ _ | split | dsimp only
    | refine State.Kept.mk_same ?_ (by rfl) (by rfl)

theorem State.clrDone_kept {k : State} (s : State) (x1 : Nat) (hs : k.Kept s) : k.Kept (State.clrDone s x1) := by
  unfold State.clrDone
  try dsimp only
  with_reducible repeat' first
    | assumption | apply State.setMatrix_kept | apply State.raise_kept | intro _ _ | split | dsimp only
    | refine State.Kept.mk_same ?_ (by rfl) (by rfl)

theorem execClrDone_kept {k : State} {x0 : Half} {s : State} {rr : State} (ht : execClrDone x0 s = .next rr) (hs :
  k.Kept s) : k.Kept rr := by
  refine State.run_kept (fun s hs => ?_) hs ht
  try dsimp only
  with_reducible repeat' first
    | assumption | apply State.clrDone_kept | apply State.onlyIf_kept | intro _ _ | split | dsimp only

/-! ### Reset -/

theorem State.rstChip_kept {k : State} (s : State) (v : Word) (hs : k.Kept s) : k.Kept (State.rstChip s v) := by
  unfold State.rstChip
  try dsimp only
  with_reducible repeat' first
    | assumption | apply State.chipReset_kept | apply State.rstReject_kept | intro _ _ | split | dsimp only

theorem State.chiprst_kept {k : State} (s : State) (level : Bool) (pins : PinSample) (hs : k.Kept s) : k.Kept
  (State.chiprst s level pins) := by
  unfold State.chiprst
  try dsimp only
  with_reducible repeat' first
    | assumption | apply State.strapPins_kept | apply State.chipReset_kept | apply State.straps_kept | intro _ _ | split
    | dsimp only | refine State.Kept.mk_same ?_ (by rfl) (by rfl)

theorem State.porst_kept {k : State} (s : State) (level : Bool) (pins : PinSample) (hs : k.Kept s) : k.Kept
  (State.porst s level pins) := by
  unfold State.porst
  try dsimp only
  with_reducible repeat' first
    | assumption | apply State.chipReset_kept | apply State.powerReset_kept | apply State.straps_kept | intro _ _ | split
    | dsimp only | refine State.Kept.mk_same ?_ (by rfl) (by rfl)

theorem execChiprstN_kept {k : State} {level : Bool} {pins : PinSample} {s : State} {rr : State} (ht : execChiprstN
  level pins s = .next rr) (hs : k.Kept s) : k.Kept rr := by
  refine State.runAlways_kept (fun s hs => ?_) hs ht
  try dsimp only
  with_reducible repeat' first
    | assumption | apply State.chiprst_kept | intro _ _ | split | dsimp only

theorem execPorstN_kept {k : State} {level : Bool} {pins : PinSample} {s : State} {rr : State} (ht : execPorstN level
  pins s = .next rr) (hs : k.Kept s) : k.Kept rr := by
  refine State.runAlways_kept (fun s hs => ?_) hs ht
  try dsimp only
  with_reducible repeat' first
    | assumption | apply State.porst_kept | intro _ _ | split | dsimp only

theorem State.wiped_kept {k : State} (s : State) (hs : k.Kept s) : k.Kept (State.wiped s) := by
  unfold State.wiped
  split
  · exact hs
  · exact State.chipReset_kept _ _ (State.emit_kept _ _ ⟨hs.1, hs.2, hs.3, hs.4, hs.5, hs.6⟩)

theorem execHalfDone_kept {k : State} {x0 : Half} {s : State} {rr : State} (ht : execHalfDone x0 s = .next rr) (hs :
  k.Kept s) : k.Kept rr := by
  refine State.run_kept (fun s hs => ?_) hs ht
  try dsimp only
  with_reducible repeat' first
    | assumption | apply State.halfReady_kept | intro _ _ | split | dsimp only

theorem execBlockResetDone_kept {k : State} {page : Nat} {s : State} {rr : State} (ht : execBlockResetDone page s =
  .next rr) (hs : k.Kept s) : k.Kept rr := by
  refine State.run_kept (fun s hs => ?_) hs ht
  try dsimp only
  with_reducible repeat' first
    | assumption | apply State.blockDone_kept | intro _ _ | split | dsimp only

theorem execVddAonReset_kept {k : State} {pins : PinSample} {s : State} {rr : State} (ht : execVddAonReset pins s =
  .next rr) (hs : k.Kept s) : k.Kept rr := by
  refine State.runAlways_kept (fun s hs => ?_) hs ht
  try dsimp only
  with_reducible repeat' first
    | assumption | apply State.powerReset_kept | intro _ _ | split | dsimp only

theorem execFlumeChannelUp_kept {k : State} {s : State} {rr : State} (ht : execFlumeChannelUp s = .next rr) (hs :
  k.Kept s) : k.Kept rr := by
  refine State.run_kept (fun s hs => ?_) hs ht
  try dsimp only
  with_reducible repeat' first
    | assumption | apply State.channelUp_kept | apply State.onlyIf_kept | intro _ _ | split | dsimp only

theorem execFlumeChannelDown_kept {k : State} {s : State} {rr : State} (ht : execFlumeChannelDown s = .next rr) (hs :
  k.Kept s) : k.Kept rr := by
  refine State.run_kept (fun s hs => ?_) hs ht
  try dsimp only
  with_reducible repeat' first
    | assumption | apply State.channelDown_kept | apply State.onlyIf_kept | intro _ _ | split | dsimp only

theorem execSliceDone_kept {k : State} {sl : Slice} {s : State} {rr : State} (ht : execSliceDone sl s = .next rr) (hs
  : k.Kept s) : k.Kept rr := by
  refine State.run_kept (fun s hs => ?_) hs ht
  try dsimp only
  with_reducible repeat' first
    | assumption | apply State.sliceReady_kept | intro _ _ | split | dsimp only

theorem execWipeDone_kept {k : State} {s : State} {rr : State} (ht : execWipeDone s = .next rr) (hs : k.Kept s) :
  k.Kept rr := by
  refine State.runAlways_kept (fun s hs => ?_) hs ht
  try dsimp only
  with_reducible repeat' first
    | assumption | apply State.wiped_kept | intro _ _ | split | dsimp only

end Sys2Proof.Machine
end

