-- ==== Sys2Proof/Laws/KeptRegs.lean ====
section
/-! SUPPORT. State.Kept, one lemma for each function of the state: register writes, windows, images and the retained copies. -/

namespace Sys2Proof.Machine

/-! ### WriteEffects -/

theorem State.wrSpan_kept {k : State} (s : State) (sl : Nat) (o : Nat) (v : Word) (hs : k.Kept s) : k.Kept
  (State.wrSpan s sl o v) := by
  unfold State.wrSpan
  try dsimp only
  with_reducible repeat' first
    | assumption | apply State.setRf_kept | apply State.spanEvents_kept | apply State.store_kept | intro _ _ | split
    | dsimp only

theorem State.wrSched_kept {k : State} (s : State) (sl : Nat) (o : Nat) (v : Word) (hs : k.Kept s) : k.Kept
  (State.wrSched s sl o v) := by
  unfold State.wrSched
  try dsimp only
  with_reducible repeat' first
    | assumption | apply State.setSched_kept | apply State.store_kept | intro _ _ | split | dsimp only
    | refine State.Kept.mk_same ?_ (by rfl) (by rfl)

theorem State.wrLanes1_kept {k : State} (s : State) (sl : Nat) (o : Nat) (v : Word) (hs : k.Kept s) : k.Kept
  (State.wrLanes1 s sl o v) := by
  unfold State.wrLanes1
  try dsimp only
  with_reducible repeat' first
    | assumption | apply State.pllApply_kept | apply State.store_kept | intro _ _ | split | dsimp only

theorem State.wrLanes0_kept {k : State} (s : State) (sl : Nat) (o : Nat) (v : Word) (hs : k.Kept s) : k.Kept
  (State.wrLanes0 s sl o v) := by
  unfold State.wrLanes0
  try dsimp only
  with_reducible repeat' first
    | assumption | apply State.raiseIf_kept | apply State.setPort_kept | apply State.linkFall_kept
    | apply State.laneCtle_kept | apply State.store_kept | apply State.laneDrift_kept | intro _ _ | split | dsimp only
    | refine State.Kept.mk_same ?_ (by rfl) (by rfl)

theorem State.wrMacpcs_kept {k : State} (s : State) (sl : Nat) (o : Nat) (v : Word) (hs : k.Kept s) : k.Kept
  (State.wrMacpcs s sl o v) := by
  unfold State.wrMacpcs
  try dsimp only
  with_reducible repeat' first
    | assumption | apply State.store_kept | apply State.fecWrite_kept | apply State.portCtrlWrite_kept
    | apply State.setPort_kept | apply State.setReg_kept | intro _ _ | split | dsimp only
    | refine State.Kept.mk_same ?_ (by rfl) (by rfl)

theorem State.wrKerf_kept {k : State} (s : State) (p : Nat) (o : Nat) (v : Word) (hs : k.Kept s) : k.Kept
  (State.wrKerf s p o v) := by
  unfold State.wrKerf
  try dsimp only
  with_reducible repeat' first
    | assumption | apply State.store_kept | apply State.raise_kept | intro _ _ | split | dsimp only

theorem State.wrParser_kept {k : State} (s : State) (sl : Nat) (o : Nat) (v : Word) (hs : k.Kept s) : k.Kept
  (State.wrParser s sl o v) := by
  unfold State.wrParser
  try dsimp only
  with_reducible repeat' first
    | assumption | apply State.nbrDown_kept | apply State.store_kept | apply State.setSlice_kept | intro _ _ | split
    | dsimp only | refine State.Kept.mk_same ?_ (by rfl) (by rfl)

theorem State.wrHbm_kept {k : State} (s : State) (x1 : Nat) (o : Nat) (v : Word) (hs : k.Kept s) : k.Kept
  (State.wrHbm s x1 o v) := by
  unfold State.wrHbm
  try dsimp only
  with_reducible repeat' first
    | assumption | apply State.store_kept | apply State.retrain_kept | apply State.setReg_kept | intro _ _ | split
    | dsimp only

theorem State.wrMatrix_kept {k : State} (s : State) (x1 : Nat) (o : Nat) (v : Word) (hs : k.Kept s) : k.Kept
  (State.wrMatrix s x1 o v) := by
  unfold State.wrMatrix
  try dsimp only
  with_reducible repeat' first
    | assumption | apply State.store_kept | apply State.clrDrop_kept | apply State.clrHist_kept | apply State.clrMx_kept
    | intro _ _ | split | dsimp only

theorem State.wrTally_kept {k : State} (s : State) (x1 : Nat) (o : Nat) (v : Word) (hs : k.Kept s) : k.Kept
  (State.wrTally s x1 o v) := by
  unfold State.wrTally
  try dsimp only
  with_reducible repeat' first
    | assumption | apply State.setTally_kept | apply State.store_kept | apply State.clearTally_kept
    | apply State.exportAll_kept | apply State.flush_kept | apply State.setReg_kept | intro _ _ | split | dsimp only
    | refine State.Kept.mk_same ?_ (by rfl) (by rfl)

theorem State.wrMaint_kept {k : State} (s : State) (x1 : Nat) (o : Nat) (v : Word) (hs : k.Kept s) : k.Kept
  (State.wrMaint s x1 o v) := by
  unfold State.wrMaint
  try dsimp only
  with_reducible repeat' first
    | assumption | apply State.store_kept | apply State.seqResume_kept | apply State.seqAbandon_kept
    | apply State.setReg_kept | intro _ _ | split | dsimp only

theorem State.wrWllpm_kept {k : State} (s : State) (x1 : Nat) (o : Nat) (v : Word) (hs : k.Kept s) : k.Kept
  (State.wrWllpm s x1 o v) := by
  unfold State.wrWllpm
  try dsimp only
  with_reducible repeat' first
    | assumption | apply State.store_kept | apply State.setReg_kept | apply State.raise_kept | intro _ _ | split
    | dsimp only

theorem State.wrWlem_kept {k : State} (s : State) (x1 : Nat) (o : Nat) (v : Word) (hs : k.Kept s) : k.Kept
  (State.wrWlem s x1 o v) := by
  unfold State.wrWlem
  try dsimp only
  with_reducible repeat' first
    | assumption | apply State.store_kept | apply State.boostSettle_kept | apply State.migWrite_kept
    | apply State.setReg_kept | intro _ _ | split | dsimp only

theorem State.setSel_kept {k : State} (s : State) (r : Requester) (p : Nat) (o : Nat) (x : Nat) (hs : k.Kept s) :
  k.Kept (State.setSel s r p o x) := by
  unfold State.setSel
  try dsimp only
  with_reducible repeat' first
    | assumption | intro _ _ | split | dsimp only | refine State.Kept.mk_same ?_ (by rfl) (by rfl)

theorem State.wrAdmit_kept {k : State} (s : State) (r : Requester) (x2 : Nat) (o : Nat) (v : Word) (hs : k.Kept s) :
  k.Kept (State.wrAdmit s r x2 o v) := by
  unfold State.wrAdmit
  try dsimp only
  with_reducible repeat' first
    | assumption | apply State.pfcEvalAll_kept | apply State.store_kept | apply State.pfcSlice_kept
    | apply State.startDrain_kept | apply State.setSreg_kept | apply State.setSel_kept | intro _ _ | split | dsimp only

theorem State.wrDeck_kept {k : State} (s : State) (r : Requester) (x2 : Nat) (o : Nat) (v : Word) (hs : k.Kept s) :
  k.Kept (State.wrDeck s r x2 o v) := by
  unfold State.wrDeck
  try dsimp only
  with_reducible repeat' first
    | assumption | apply State.pfcEvals_kept | apply State.relevel_kept | apply State.setDeck_kept | apply State.store_kept
    | apply State.setSel_kept | apply State.freeCell_kept | apply State.poolAlloc_kept | intro _ _ | split | dsimp only
    | refine State.Kept.mk_same ?_ (by rfl) (by rfl)

theorem State.wrHalf_kept {k : State} (s : State) (r : Requester) (x2 : Nat) (o : Nat) (v : Word) (hs : k.Kept s) :
  k.Kept (State.wrHalf s r x2 o v) := by
  unfold State.wrHalf
  try dsimp only
  with_reducible repeat' first
    | assumption | apply State.setSreg_kept | apply State.setSel_kept | apply State.peerHolds_kept | apply State.store_kept
    | apply State.raftPend_kept | apply State.raftCtrlWrite_kept | intro _ _ | split | dsimp only

theorem State.wrLifecycle_kept {k : State} (s : State) (o : Nat) (v : Word) (hs : k.Kept s) : k.Kept
  (State.wrLifecycle s o v) := by
  unfold State.wrLifecycle
  try dsimp only
  with_reducible repeat' first
    | assumption | apply State.extend_kept | apply State.store_kept | intro _ _ | split | dsimp only

theorem State.wrTime_kept {k : State} (s : State) (o : Nat) (v : Word) (hs : k.Kept s) : k.Kept (State.wrTime s o v)
  := by
  unfold State.wrTime
  try dsimp only
  with_reducible repeat' first
    | assumption | apply State.store_kept | apply State.timeStep_kept | apply State.timeSet_kept | intro _ _ | split
    | dsimp only

theorem State.wrHostdma_kept {k : State} (s : State) (p : Nat) (o : Nat) (v : Word) (hs : k.Kept s) : k.Kept
  (State.wrHostdma s p o v) := by
  unfold State.wrHostdma
  try dsimp only
  with_reducible repeat' first
    | assumption | apply State.setHq_kept | apply State.store_kept | apply State.hqCtrlWrite_kept
    | apply State.doorbell_kept | intro _ _ | split | dsimp only | refine State.Kept.mk_same ?_ (by rfl) (by rfl)

theorem State.wrReset_kept {k : State} (s : State) (o : Nat) (v : Word) (hs : k.Kept s) : k.Kept (State.wrReset s o
  v) := by
  unfold State.wrReset
  try dsimp only
  with_reducible repeat' first
    | assumption | apply State.store_kept | apply State.rstSlice_kept | apply State.rstHalf_kept | apply State.rstChip_kept
    | intro _ _ | split | dsimp only

theorem State.mbGo_kept {k : State} (s : State) (hs : k.Kept s) : k.Kept (State.mbGo s) := by
  unfold State.mbGo
  try dsimp only
  with_reducible repeat' first
    | assumption | apply State.count_kept | intro _ _ | split | dsimp only | refine State.Kept.mk_same ?_ (by rfl) (by rfl)

theorem State.wrForester_kept {k : State} (s : State) (o : Nat) (v : Word) (hs : k.Kept s) : k.Kept (State.wrForester
  s o v) := by
  unfold State.wrForester
  try dsimp only
  with_reducible repeat' first
    | assumption | apply State.store_kept | apply State.mbGo_kept | intro _ _ | split | dsimp only

theorem State.wrFirebreak_kept {k : State} (s : State) (o : Nat) (v : Word) (hs : k.Kept s) : k.Kept
  (State.wrFirebreak s o v) := by
  unfold State.wrFirebreak
  try dsimp only
  with_reducible repeat' first
    | assumption | apply State.store_kept | apply State.hintWrite_kept | apply State.fbCalWrite_kept
    | apply State.fixedWrite_kept | apply State.setReg_kept | apply State.fireSettle_kept | intro _ _ | split | dsimp only

theorem State.wrLookout_kept {k : State} (s : State) (o : Nat) (v : Word) (hs : k.Kept s) : k.Kept (State.wrLookout s
  o v) := by
  unfold State.wrLookout
  try dsimp only
  with_reducible repeat' first
    | assumption | apply State.store_kept | apply State.loClr_kept | apply State.pinRelease_kept | intro _ _ | split
    | dsimp only

theorem State.wrCruiser_kept {k : State} (s : State) (r : Requester) (o : Nat) (v : Word) (hs : k.Kept s) : k.Kept
  (State.wrCruiser s r o v) := by
  unfold State.wrCruiser
  try dsimp only
  with_reducible repeat' first
    | assumption | apply State.store_kept | apply State.setSel_kept | apply State.crBwWrite_kept
    | apply State.crCtrlWrite_kept | intro _ _ | split | dsimp only

theorem State.wrRing_kept {k : State} (s : State) (r : Requester) (o : Nat) (v : Word) (hs : k.Kept s) : k.Kept
  (State.wrRing s r o v) := by
  unfold State.wrRing
  try dsimp only
  with_reducible repeat' first
    | assumption | apply State.store_kept | apply State.maxAgeWrite_kept | apply State.ringCtrlWrite_kept | intro _ _
    | split | dsimp only

theorem State.wrOrder_kept {k : State} (s : State) (r : Requester) (o : Nat) (v : Word) (hs : k.Kept s) : k.Kept
  (State.wrOrder s r o v) := by
  unfold State.wrOrder
  try dsimp only
  with_reducible repeat' first
    | assumption | apply State.store_kept | apply State.startFence_kept | intro _ _ | split | dsimp only

theorem State.writeBlock_kept {k : State} (s : State) (r : Requester) (p : Nat) (o : Nat) (v : Word) (hs : k.Kept s)
  : k.Kept (State.writeBlock s r p o v) := by
  unfold State.writeBlock
  try dsimp only
  with_reducible repeat' first
    | assumption | apply State.store_kept | apply State.wrSched_kept | apply State.wrLanes1_kept
    | apply State.wrLanes0_kept | apply State.wrSpan_kept | apply State.wrMacpcs_kept | apply State.wrKerf_kept
    | apply State.wrParser_kept | apply State.wrHbm_kept | apply State.wrMatrix_kept | apply State.wrTally_kept
    | apply State.wrMaint_kept | apply State.wrWllpm_kept | apply State.wrWlem_kept | apply State.wrAdmit_kept
    | apply State.wrDeck_kept | apply State.wrHalf_kept | apply State.wrLifecycle_kept | apply State.wrTime_kept
    | apply State.wrHostdma_kept | apply State.wrReset_kept | apply State.wrForester_kept | apply State.wrFirebreak_kept
    | apply State.wrLookout_kept | apply State.wrCruiser_kept | apply State.wrRing_kept | apply State.wrOrder_kept
    | intro _ _ | split | dsimp only | refine State.Kept.mk_same ?_ (by rfl) (by rfl)

theorem State.evtClear_kept {k : State} (s : State) (p : Nat) (v : Word) (hs : k.Kept s) : k.Kept (State.evtClear s p
  v) := by
  unfold State.evtClear
  try dsimp only
  with_reducible repeat' first
    | assumption | apply State.raise_kept | apply State.setEvtRegs_kept | intro _ _ | split | dsimp only

theorem State.enableSettle_kept {k : State} (s : State) (p : Nat) (hs : k.Kept s) : k.Kept (State.enableSettle s p)
  := by
  unfold State.enableSettle
  try dsimp only
  with_reducible repeat' first
    | assumption | apply State.fgEnable_kept | intro _ _ | split | dsimp only
    | refine State.Kept.mk_same ?_ (by rfl) (by rfl)

theorem State.writeHeader_kept {k : State} (s : State) (p : Nat) (o : Nat) (v : Word) (hs : k.Kept s) : k.Kept
  (State.writeHeader s p o v) := by
  unfold State.writeHeader
  try dsimp only
  with_reducible repeat' first
    | assumption | apply State.store_kept | apply State.setEvtRegs_kept | apply State.evtClear_kept
    | apply State.blockStart_kept | apply State.setReg_kept | apply State.enableSettle_kept | intro _ _ | split
    | dsimp only

theorem State.writeReg_kept {k : State} (s : State) (r : Requester) (p : Nat) (o : Nat) (v : Word) (hs : k.Kept s) :
  k.Kept (State.writeReg s r p o v) := by
  unfold State.writeReg
  try dsimp only
  with_reducible repeat' first
    | assumption | apply State.writeBlock_kept | apply State.writeHeader_kept | intro _ _ | split | dsimp only

theorem State.writeWide_kept {k : State} (s : State) (r : Requester) (p : Nat) (o : Nat) (x : Nat) (hs : k.Kept s) :
  k.Kept (State.writeWide s r p o x) := by
  unfold State.writeWide
  try dsimp only
  with_reducible repeat' first
    | assumption | apply State.setReg64_kept | apply State.setRf_kept | apply State.tdLoad_kept | intro _ _ | split
    | dsimp only

theorem State.writeAt_kept {k : State} (s : State) (r : Requester) (p : Nat) (o : Nat) (v : Word) (hs : k.Kept s) :
  k.Kept (State.writeAt s r p o v) := by
  unfold State.writeAt
  try dsimp only
  with_reducible repeat' first
    | assumption | apply State.writeReg_kept | apply State.writeWide_kept | intro _ _ | split | dsimp only
    | refine State.Kept.mk_same ?_ (by rfl) (by rfl)

/-! ### Window -/

theorem State.settleMeters_kept {k : State} (s : State) (p : Nat) (x2 : List Nat) (hs : k.Kept s) : k.Kept
  (State.settleMeters s p x2) := by
  induction x2 generalizing s p with
  | nil =>
    unfold State.settleMeters
    try dsimp only
    with_reducible repeat' first
      | assumption | apply State.setMeter_kept | intro _ _ | split | dsimp only
  | cons a l ih =>
    unfold State.settleMeters
    try dsimp only
    with_reducible repeat' first
      | assumption | apply ih | apply State.setMeter_kept | intro _ _ | split | dsimp only

theorem State.storeWord_kept {k : State} (s : State) (x1 : Nat) (a : Nat) (v : Word) (hs : k.Kept s) : k.Kept
  (State.storeWord s x1 a v) := by
  unfold State.storeWord
  try dsimp only
  with_reducible repeat' first
    | assumption | apply State.setMemWs_kept | apply State.setRec_kept | intro _ _ | split | dsimp only

theorem State.winPutWord_kept {k : State} (s : State) (p : Nat) (sel : Nat) (a : Nat) (v : Word) (hs : k.Kept s) :
  k.Kept (State.winPutWord s p sel a v) := by
  unfold State.winPutWord
  try dsimp only
  with_reducible repeat' first
    | assumption | apply State.setLane_kept | apply State.storeWord_kept | apply State.setMatrix_kept
    | apply State.setMemW_kept | intro _ _ | split | dsimp only | refine State.Kept.mk_same ?_ (by rfl) (by rfl)

theorem State.winPutWords_kept {k : State} (s : State) (p : Nat) (sel : Nat) (x3 : Nat) (x4 : List Word) (hs : k.Kept
  s) : k.Kept (State.winPutWords s p sel x3 x4) := by
  induction x4 generalizing s p sel x3 with
  | nil =>
    unfold State.winPutWords
    try dsimp only
    with_reducible repeat' first
      | assumption | apply State.winPutWord_kept | intro _ _ | split | dsimp only
  | cons a l ih =>
    unfold State.winPutWords
    try dsimp only
    with_reducible repeat' first
      | assumption | apply ih | apply State.winPutWord_kept | intro _ _ | split | dsimp only

theorem State.fillMeters_kept {k : State} (s : State) (p : Nat) (x2 : Nat) (x3 : List Word) (hs : k.Kept s) : k.Kept
  (State.fillMeters s p x2 x3) := by
  induction x3 generalizing s p x2 with
  | nil =>
    unfold State.fillMeters
    try dsimp only
    with_reducible repeat' first
      | assumption | apply State.setMeter_kept | intro _ _ | split | dsimp only
  | cons a l ih =>
    unfold State.fillMeters
    try dsimp only
    with_reducible repeat' first
      | assumption | apply ih | apply State.setMeter_kept | intro _ _ | split | dsimp only

theorem State.putStaged_kept {k : State} (s : State) (p : Nat) (e : Nat) (x3 : List (Nat × Option Word)) (hs : k.Kept
  s) : k.Kept (State.putStaged s p e x3) := by
  induction x3 generalizing s p e with
  | nil =>
    unfold State.putStaged
    try dsimp only
    with_reducible repeat' first
      | assumption | apply State.setMemW_kept | intro _ _ | split | dsimp only
      | refine State.Kept.mk_same ?_ (by rfl) (by rfl)
  | cons a l ih =>
    unfold State.putStaged
    try dsimp only
    with_reducible repeat' first
      | assumption | apply ih | apply State.setMemW_kept | intro _ _ | split | dsimp only
      | refine State.Kept.mk_same ?_ (by rfl) (by rfl)

theorem State.tcWritePart_kept {k : State} (s : State) (sl : Nat) (e : Nat) (part : List (Nat × Word)) (hs : k.Kept
  s) : k.Kept (State.tcWritePart s sl e part) := by
  unfold State.tcWritePart
  try dsimp only
  with_reducible repeat' first
    | assumption | apply State.putStaged_kept | apply State.setMemW_kept | apply State.setSlice_kept | intro _ _ | split
    | dsimp only | refine State.Kept.mk_same ?_ (by rfl) (by rfl)

theorem State.tcWriteWords_kept {k : State} (s : State) (sl : Nat) (a : Nat) (data : List Word) (hs : k.Kept s) :
  k.Kept (State.tcWriteWords s sl a data) := by
  unfold State.tcWriteWords
  try dsimp only
  with_reducible repeat' first
    | assumption | apply State.tcWritePart_kept | intro _ _ | split | dsimp only

theorem State.winStore_kept {k : State} (s : State) (p : Nat) (sel : Nat) (a : Nat) (data : List Word) (hs : k.Kept
  s) : k.Kept (State.winStore s p sel a data) := by
  unfold State.winStore
  try dsimp only
  with_reducible repeat' first
    | assumption | apply State.settleMeters_kept | apply State.winPutWords_kept | apply State.fillMeters_kept
    | apply State.setMicro_kept | apply State.setRf_kept | apply State.tcWriteWords_kept | intro _ _ | split | dsimp only
    | refine State.Kept.mk_same ?_ (by rfl) (by rfl)

theorem State.winWriteRun_kept {k : State} (s : State) (r : Requester) (p : Nat) (sel : Nat) (a : Nat) (data : List
  Word) (hs : k.Kept s) : k.Kept (State.winWriteRun s r p sel a data) := by
  unfold State.winWriteRun
  try dsimp only
  with_reducible repeat' first
    | assumption | apply State.winStore_kept | apply State.extend_kept | intro _ _ | split | dsimp only

theorem State.winEccPulse_kept {k : State} (s : State) (p : Nat) (sel : Nat) (hs : k.Kept s) : k.Kept
  (State.winEccPulse s p sel) := by
  unfold State.winEccPulse
  try dsimp only
  with_reducible repeat' first
    | assumption | apply State.send_kept | intro _ _ | split | dsimp only

theorem State.winWoodEcc_kept {k : State} (s : State) (x1 : Nat) (sel : Nat) (a : Nat) (lpm : Bool) (hs : k.Kept s) :
  k.Kept (State.winWoodEcc s x1 sel a lpm) := by
  unfold State.winWoodEcc
  try dsimp only
  with_reducible repeat' first
    | assumption | apply State.count_kept | apply State.raise_kept | apply State.woodEcc_kept | intro _ _ | split
    | dsimp only | refine State.Kept.mk_same ?_ (by rfl) (by rfl)

theorem State.winEccReport_kept {k : State} (s : State) (p : Nat) (sel : Nat) (a : Nat) (hs : k.Kept s) : k.Kept
  (State.winEccReport s p sel a) := by
  unfold State.winEccReport
  try dsimp only
  with_reducible repeat' first
    | assumption | apply State.winEccPulse_kept | apply State.tcFault_kept | apply State.hbmUncorr_kept
    | apply State.winWoodEcc_kept | apply State.count_kept | apply State.raise_kept | intro _ _ | split | dsimp only
    | refine State.Kept.mk_same ?_ (by rfl) (by rfl)

theorem State.setWinData_kept {k : State} (s : State) (p : Nat) (x2 : Nat) (x3 : List Word) (hs : k.Kept s) : k.Kept
  (State.setWinData s p x2 x3) := by
  induction x3 generalizing s p x2 with
  | nil =>
    unfold State.setWinData
    try dsimp only
    with_reducible repeat' first
      | assumption | apply State.setReg_kept | intro _ _ | split | dsimp only
  | cons a l ih =>
    unfold State.setWinData
    try dsimp only
    with_reducible repeat' first
      | assumption | apply ih | apply State.setReg_kept | intro _ _ | split | dsimp only

theorem State.winRun_kept {k : State} (s : State) (r : Requester) (p : Nat) (op : Nat) (n : Nat) (sel : Nat) (a :
  Nat) (data : List Word) (ecc : Bool) (hs : k.Kept s) : k.Kept (State.winRun s r p op n sel a data ecc).1 := by
  unfold State.winRun
  try dsimp only
  with_reducible repeat' first
    | assumption | apply State.winWriteRun_kept | apply State.winEccReport_kept | apply State.setWinData_kept
    | apply State.lanesDrift_kept | intro _ _ | split | dsimp only

theorem State.winRun_kept_eq {k : State} {s : State} {r : Requester} {p : Nat} {op : Nat} {n : Nat} {sel : Nat} {a :
  Nat} {data : List Word} {ecc : Bool} {ra rb} (ht : State.winRun s r p op n sel a data ecc = (ra, rb)) (hs : k.Kept
  s) : k.Kept ra := by
  have := State.winRun_kept (k := k) s r p op n sel a data ecc hs
  rw [ht] at this
  exact this

theorem State.winChecked_kept {k : State} (s : State) (r : Requester) (p : Nat) (op : Nat) (n : Nat) (sel : Nat) (a :
  Nat) (data : List Word) (ecc : Bool) (epoch : Nat) (hs : k.Kept s) : k.Kept (State.winChecked s r p op n sel a data
  ecc epoch).1 := by
  unfold State.winChecked
  try dsimp only
  with_reducible repeat' first
    | assumption | apply State.winRun_kept | refine State.winRun_kept_eq (by assumption) ?_ | apply State.fenced_kept
    | intro _ _ | split | dsimp only | refine State.Kept.mk_same ?_ (by rfl) (by rfl)

theorem State.winChecked_kept_eq {k : State} {s : State} {r : Requester} {p : Nat} {op : Nat} {n : Nat} {sel : Nat}
  {a : Nat} {data : List Word} {ecc : Bool} {epoch : Nat} {ra rb} (ht : State.winChecked s r p op n sel a data ecc
  epoch = (ra, rb)) (hs : k.Kept s) : k.Kept ra := by
  have := State.winChecked_kept (k := k) s r p op n sel a data ecc epoch hs
  rw [ht] at this
  exact this

theorem State.winDone_kept {k : State} (s : State) (p : Nat) (ecc : Bool) (hs : k.Kept s) : k.Kept (State.winDone s p
  ecc) := by
  unfold State.winDone
  try dsimp only
  with_reducible repeat' first
    | assumption | apply State.setReg_kept | apply State.winChecked_kept
    | refine State.winChecked_kept_eq (by assumption) ?_ | intro _ _ | split | dsimp only
    | refine State.Kept.mk_same ?_ (by rfl) (by rfl)

/-! ### Bus -/

theorem State.performWrite_kept {k : State} (s : State) (a : Access) (hs : k.Kept s) : k.Kept (State.performWrite s
  a) := by
  unfold State.performWrite
  try dsimp only
  with_reducible repeat' first
    | assumption | apply State.writeAt_kept | apply State.busError_kept | intro _ _ | split | dsimp only

theorem State.tryPost_kept {k : State} (s : State) (a : Access) (f : State → State) (hs : k.Kept s) (hf : ∀ s, k.Kept
  s → k.Kept (f s)) : k.Kept (State.tryPost s a f) := by
  unfold State.tryPost
  try dsimp only
  with_reducible repeat' first
    | assumption | apply hf | apply State.busError_kept | intro _ _ | split | dsimp only

theorem State.lostWrite_kept {k : State} (s : State) (a : Access) (hs : k.Kept s) : k.Kept (State.lostWrite s a) := by
  unfold State.lostWrite
  try dsimp only
  with_reducible repeat' first
    | assumption | apply State.raise_kept | apply State.busError_kept | intro _ _ | split | dsimp only

theorem State.postWrite_kept {k : State} (s : State) (a : Access) (epoch : Nat) (hs : k.Kept s) : k.Kept
  (State.postWrite s a epoch) := by
  unfold State.postWrite
  try dsimp only
  with_reducible repeat' first
    | assumption | apply State.setReg_kept | apply State.lostWrite_kept | intro _ _ | split | dsimp only
    | refine State.Kept.mk_same ?_ (by rfl) (by rfl)

theorem State.tryWrite_kept {k : State} (s : State) (a : Access) (epoch : Nat) (f : State → State) (hs : k.Kept s)
  (hf : ∀ s, k.Kept s → k.Kept (f s)) : k.Kept (State.tryWrite s a epoch f) := by
  unfold State.tryWrite
  try dsimp only
  with_reducible repeat' first
    | assumption | apply hf | apply State.busError_kept | apply State.fenced_kept | intro _ _ | split | dsimp only
    | refine State.Kept.mk_same ?_ (by rfl) (by rfl)

theorem State.takeWrite_kept {k : State} (s : State) (a : Access) (epoch : Nat) (hs : k.Kept s) : k.Kept
  (State.takeWrite s a epoch) := by
  unfold State.takeWrite
  try dsimp only
  with_reducible repeat' first
    | assumption | apply State.tryPost_kept | apply State.postWrite_kept | apply State.performWrite_kept
    | apply State.tryWrite_kept | apply State.busError_kept | apply State.bar2Write_kept | intro _ _ | split | dsimp only
    | refine State.Kept.mk_same ?_ (by rfl) (by rfl)

theorem State.answerRead_kept {k : State} (s : State) (a : Access) (hs : k.Kept s) : k.Kept (State.answerRead s a) := by
  unfold State.answerRead
  try dsimp only
  with_reducible repeat' first
    | assumption | apply State.emit_kept | apply State.setSel_kept | intro _ _ | split | dsimp only
    | refine State.Kept.mk_same ?_ (by rfl) (by rfl)

theorem State.hold_kept {k : State} (s : State) (x : Held) (hs : k.Kept s) : k.Kept (State.hold s x) := by
  unfold State.hold
  try dsimp only
  with_reducible repeat' first
    | assumption | intro _ _ | split | dsimp only | refine State.Kept.mk_same ?_ (by rfl) (by rfl)

theorem State.takeRead_kept {k : State} (s : State) (a : Access) (hs : k.Kept s) : k.Kept (State.takeRead s a) := by
  unfold State.takeRead
  try dsimp only
  with_reducible repeat' first
    | assumption | apply State.answerRead_kept | apply State.hold_kept | apply State.busError_kept | apply State.emit_kept
    | apply State.bar2Read_kept | intro _ _ | split | dsimp only | refine State.Kept.mk_same ?_ (by rfl) (by rfl)

theorem State.access_kept {k : State} (s : State) (write : Bool) (a : Access) (epoch : Nat) (hs : k.Kept s) : k.Kept
  (State.access s write a epoch) := by
  unfold State.access
  try dsimp only
  with_reducible repeat' first
    | assumption | apply State.takeRead_kept | apply State.startFence_kept | apply State.takeWrite_kept
    | apply State.hold_kept | intro _ _ | split | dsimp only

theorem State.issueWith_kept {k : State} (s : State) (write : Bool) (a : Access) (epoch : Nat) (hs : k.Kept s) :
  k.Kept (State.issueWith s write a epoch) := by
  unfold State.issueWith
  try dsimp only
  with_reducible repeat' first
    | assumption | apply State.access_kept | apply State.onlyIf_kept | intro _ _ | split | dsimp only

theorem State.issue_kept {k : State} (s : State) (write : Bool) (a : Access) (hs : k.Kept s) : k.Kept (State.issue s
  write a) := by
  unfold State.issue
  try dsimp only
  with_reducible repeat' first
    | assumption | apply State.issueWith_kept | intro _ _ | split | dsimp only

theorem State.regWrite_kept {k : State} (s : State) (r : Requester) (p : Nat) (o : Nat) (v : Word) (hs : k.Kept s) :
  k.Kept (State.regWrite s r p o v) := by
  unfold State.regWrite
  try dsimp only
  with_reducible repeat' first
    | assumption | apply State.issue_kept | intro _ _ | split | dsimp only

theorem execWinRead_kept {k : State} {req : Requester} {page : Nat} {nwords : Fin 32} {s : State} {rr : State} (ht :
  execWinRead req page nwords s = .next rr) (hs : k.Kept s) : k.Kept rr := by
  refine State.run_kept (fun s hs => ?_) hs ht
  try dsimp only
  with_reducible repeat' first
    | assumption | apply State.issue_kept | intro _ _ | split | dsimp only

theorem State.commitUnfenced_kept {k : State} (s : State) (r : Requester) (hs : k.Kept s) : k.Kept
  (State.commitUnfenced s r) := by
  unfold State.commitUnfenced
  split
  · split
    · exact hs.rings rfl rfl
    · exact hs
  · exact hs

theorem State.accesses_kept {k : State} (s : State) (x1 : List Held) (hs : k.Kept s) : k.Kept (State.accesses s x1)
  := by
  induction x1 generalizing s with
  | nil =>
    unfold State.accesses
    try dsimp only
    with_reducible repeat' first
      | assumption | apply State.access_kept | intro _ _ | split | dsimp only
  | cons a l ih =>
    unfold State.accesses
    try dsimp only
    with_reducible repeat' first
      | assumption | apply ih | apply State.access_kept | intro _ _ | split | dsimp only

theorem State.release_kept {k : State} (s : State) (r : Requester) (hs : k.Kept s) : k.Kept (State.release s r) := by
  unfold State.release
  try dsimp only
  with_reducible repeat' first
    | assumption | apply State.accesses_kept | intro _ _ | split | dsimp only
    | refine State.Kept.mk_same ?_ (by rfl) (by rfl)

theorem State.fenceEnd_kept {k : State} (s : State) (r : Requester) (hs : k.Kept s) : k.Kept (State.fenceEnd s r) := by
  unfold State.fenceEnd
  try dsimp only
  with_reducible repeat' first
    | assumption | apply State.commitUnfenced_kept | apply State.release_kept | apply State.setReg_kept
    | apply State.count_kept | intro _ _ | split | dsimp only | refine State.Kept.mk_same ?_ (by rfl) (by rfl)

theorem State.takeReads_kept {k : State} (s : State) (x1 : List Held) (hs : k.Kept s) : k.Kept (State.takeReads s x1)
  := by
  induction x1 generalizing s with
  | nil =>
    unfold State.takeReads
    try dsimp only
    with_reducible repeat' first
      | assumption | apply State.takeRead_kept | intro _ _ | split | dsimp only
  | cons a l ih =>
    unfold State.takeReads
    try dsimp only
    with_reducible repeat' first
      | assumption | apply ih | apply State.takeRead_kept | intro _ _ | split | dsimp only

theorem State.wbusyFall_kept {k : State} (s : State) (p : Nat) (hs : k.Kept s) : k.Kept (State.wbusyFall s p) := by
  unfold State.wbusyFall
  try dsimp only
  with_reducible repeat' first
    | assumption | apply State.takeReads_kept | intro _ _ | split | dsimp only
    | refine State.Kept.mk_same ?_ (by rfl) (by rfl)

theorem State.posted_kept {k : State} (s : State) (p : Nat) (hs : k.Kept s) : k.Kept (State.posted s p) := by
  unfold State.posted
  try dsimp only
  with_reducible repeat' first
    | assumption | apply State.performWrite_kept | apply State.tryWrite_kept | apply State.wbusyFall_kept | intro _ _
    | split | dsimp only | refine State.Kept.mk_same ?_ (by rfl) (by rfl)

theorem execWinCmdDone_kept {k : State} {page : Nat} {eccBad : Bool} {s : State} {rr : State} (ht : execWinCmdDone
  page eccBad s = .next rr) (hs : k.Kept s) : k.Kept rr := by
  refine State.run_kept (fun s hs => ?_) hs ht
  try dsimp only
  with_reducible repeat' first
    | assumption | apply State.wbusyFall_kept | apply State.winDone_kept | intro _ _ | split | dsimp only

theorem execWinBadOp_kept {k : State} {req : Requester} {page : Nat} {hi : Bool} {nwords : Fin 32} {s : State} {rr :
  State} (ht : execWinBadOp req page hi nwords s = .next rr) (hs : k.Kept s) : k.Kept rr := by
  refine State.run_kept (fun s hs => ?_) hs ht
  try dsimp only
  with_reducible repeat' first
    | assumption | apply State.issue_kept | intro _ _ | split | dsimp only

theorem execRaftEnable_kept {k : State} {req : Requester} {value : Word} {s : State} {rr : State} (ht :
  execRaftEnable req value s = .next rr) (hs : k.Kept s) : k.Kept rr := by
  refine State.run_kept (fun s hs => ?_) hs ht
  try dsimp only
  with_reducible repeat' first
    | assumption | apply State.regWrite_kept | intro _ _ | split | dsimp only

theorem execPoolFree_kept {k : State} {req : Requester} {x1 : Half} {n : Fin 8} {cell : BitVec 20} {s : State} {rr :
  State} (ht : execPoolFree req x1 n cell s = .next rr) (hs : k.Kept s) : k.Kept rr := by
  refine State.run_kept (fun s hs => ?_) hs ht
  try dsimp only
  with_reducible repeat' first
    | assumption | apply State.regWrite_kept | intro _ _ | split | dsimp only

theorem execCounterLowWrite_kept {k : State} {req : Requester} {page : Nat} {off : Nat} {value : Word} {s : State}
  {rr : State} (ht : execCounterLowWrite req page off value s = .next rr) (hs : k.Kept s) : k.Kept rr := by
  refine State.run_kept (fun s hs => ?_) hs ht
  try dsimp only
  with_reducible repeat' first
    | assumption | apply State.issue_kept | intro _ _ | split | dsimp only

theorem execPkClr_kept {k : State} {req : Requester} {s : State} {rr : State} (ht : execPkClr req s = .next rr) (hs :
  k.Kept s) : k.Kept rr := by
  refine State.run_kept (fun s hs => ?_) hs ht
  try dsimp only
  with_reducible repeat' first
    | assumption | apply State.regWrite_kept | intro _ _ | split | dsimp only

theorem execFence_kept {k : State} {req : Requester} {s : State} {rr : State} (ht : execFence req s = .next rr) (hs :
  k.Kept s) : k.Kept rr := by
  refine State.run_kept (fun s hs => ?_) hs ht
  try dsimp only
  with_reducible repeat' first
    | assumption | apply State.issue_kept | intro _ _ | split | dsimp only

theorem execPoolAlloc_kept {k : State} {req : Requester} {x1 : Half} {n : Fin 8} {s : State} {rr : State} (ht :
  execPoolAlloc req x1 n s = .next rr) (hs : k.Kept s) : k.Kept rr := by
  refine State.run_kept (fun s hs => ?_) hs ht
  try dsimp only
  with_reducible repeat' first
    | assumption | apply State.regWrite_kept | intro _ _ | split | dsimp only

theorem execWinLengthWrite_kept {k : State} {req : Requester} {x1 : Fin 8} {s : State} {rr : State} (ht :
  execWinLengthWrite req x1 s = .next rr) (hs : k.Kept s) : k.Kept rr := by
  refine State.run_kept (fun s hs => ?_) hs ht
  try dsimp only
  with_reducible repeat' first
    | assumption | apply State.regWrite_kept | intro _ _ | split | dsimp only

theorem execSnap_kept {k : State} {req : Requester} {s : State} {rr : State} (ht : execSnap req s = .next rr) (hs :
  k.Kept s) : k.Kept rr := by
  refine State.run_kept (fun s hs => ?_) hs ht
  try dsimp only
  with_reducible repeat' first
    | assumption | apply State.regWrite_kept | intro _ _ | split | dsimp only

theorem execCounterLowRead_kept {k : State} {a : Access} {s : State} {rr : State} (ht : execCounterLowRead a s =
  .next rr) (hs : k.Kept s) : k.Kept rr := by
  refine State.run_kept (fun s hs => ?_) hs ht
  try dsimp only
  with_reducible repeat' first
    | assumption | apply State.issue_kept | intro _ _ | split | dsimp only

theorem execRingMaxage_kept {k : State} {req : Requester} {value : Word} {s : State} {rr : State} (ht :
  execRingMaxage req value s = .next rr) (hs : k.Kept s) : k.Kept rr := by
  refine State.run_kept (fun s hs => ?_) hs ht
  try dsimp only
  with_reducible repeat' first
    | assumption | apply State.regWrite_kept | intro _ _ | split | dsimp only

theorem execCounterHighWrite_kept {k : State} {req : Requester} {page : Nat} {off : Nat} {value : Word} {s : State}
  {rr : State} (ht : execCounterHighWrite req page off value s = .next rr) (hs : k.Kept s) : k.Kept rr := by
  refine State.run_kept (fun s hs => ?_) hs ht
  try dsimp only
  with_reducible repeat' first
    | assumption | apply State.issue_kept | intro _ _ | split | dsimp only

theorem execMcClearLock_kept {k : State} {req : Requester} {s : State} {rr : State} (ht : execMcClearLock req s =
  .next rr) (hs : k.Kept s) : k.Kept rr := by
  refine State.run_kept (fun s hs => ?_) hs ht
  try dsimp only
  with_reducible repeat' first
    | assumption | apply State.regWrite_kept | intro _ _ | split | dsimp only

theorem execPgLock_kept {k : State} {req : Requester} {page : Nat} {s : State} {rr : State} (ht : execPgLock req page
  s = .next rr) (hs : k.Kept s) : k.Kept rr := by
  refine State.run_kept (fun s hs => ?_) hs ht
  try dsimp only
  with_reducible repeat' first
    | assumption | apply State.issue_kept | intro _ _ | split | dsimp only

theorem execWinWrite_kept {k : State} {req : Requester} {page : Nat} {nwords : Fin 32} {s : State} {rr : State} (ht :
  execWinWrite req page nwords s = .next rr) (hs : k.Kept s) : k.Kept rr := by
  refine State.run_kept (fun s hs => ?_) hs ht
  try dsimp only
  with_reducible repeat' first
    | assumption | apply State.issue_kept | intro _ _ | split | dsimp only

theorem execDebugLock_kept {k : State} {req : Requester} {s : State} {rr : State} (ht : execDebugLock req s = .next
  rr) (hs : k.Kept s) : k.Kept rr := by
  refine State.run_kept (fun s hs => ?_) hs ht
  try dsimp only
  with_reducible repeat' first
    | assumption | apply State.regWrite_kept | intro _ _ | split | dsimp only

theorem execFixed_kept {k : State} {req : Requester} {on : Bool} {s : State} {rr : State} (ht : execFixed req on s =
  .next rr) (hs : k.Kept s) : k.Kept rr := by
  refine State.run_kept (fun s hs => ?_) hs ht
  try dsimp only
  with_reducible repeat' first
    | assumption | apply State.regWrite_kept | intro _ _ | split | dsimp only

theorem execFbCalUpdate_kept {k : State} {cl : Half} {epoch : Word} {value : Word} {s : State} {rr : State} (ht :
  execFbCalUpdate cl epoch value s = .next rr) (hs : k.Kept s) : k.Kept rr := by
  refine State.run_kept (fun s hs => ?_) hs ht
  try dsimp only
  with_reducible repeat' first
    | assumption | apply State.issueWith_kept | intro _ _ | split | dsimp only

theorem execStop_kept {k : State} {req : Requester} {s : State} {rr : State} (ht : execStop req s = .next rr) (hs :
  k.Kept s) : k.Kept rr := by
  refine State.run_kept (fun s hs => ?_) hs ht
  try dsimp only
  with_reducible repeat' first
    | assumption | apply State.regWrite_kept | intro _ _ | split | dsimp only

theorem execCancel_kept {k : State} {req : Requester} {s : State} {rr : State} (ht : execCancel req s = .next rr) (hs
  : k.Kept s) : k.Kept rr := by
  refine State.run_kept (fun s hs => ?_) hs ht
  try dsimp only
  with_reducible repeat' first
    | assumption | apply State.regWrite_kept | intro _ _ | split | dsimp only

theorem execCommit_kept {k : State} {req : Requester} {atTime : Bool} {s : State} {rr : State} (ht : execCommit req
  atTime s = .next rr) (hs : k.Kept s) : k.Kept rr := by
  refine State.run_kept (fun s hs => ?_) hs ht
  try dsimp only
  with_reducible repeat' first
    | assumption | apply State.regWrite_kept | intro _ _ | split | dsimp only

theorem execFenceDone_kept {k : State} {req : Requester} {s : State} {rr : State} (ht : execFenceDone req s = .next
  rr) (hs : k.Kept s) : k.Kept rr := by
  refine State.run_kept (fun s hs => ?_) hs ht
  try dsimp only
  with_reducible repeat' first
    | assumption | apply State.fenceEnd_kept | intro _ _ | split | dsimp only

theorem execPostedWritePerformed_kept {k : State} {page : Nat} {s : State} {rr : State} (ht :
  execPostedWritePerformed page s = .next rr) (hs : k.Kept s) : k.Kept rr := by
  refine State.run_kept (fun s hs => ?_) hs ht
  try dsimp only
  with_reducible repeat' first
    | assumption | apply State.posted_kept | intro _ _ | split | dsimp only

theorem execBlkRst_kept {k : State} {page : PageBy} {s : State} {rr : State} (ht : execBlkRst page s = .next rr) (hs
  : k.Kept s) : k.Kept rr := by
  refine State.run_kept (fun s hs => ?_) hs ht
  try dsimp only
  with_reducible repeat' first
    | assumption | apply State.regWrite_kept | intro _ _ | split | dsimp only

theorem execPgEvtClear_kept {k : State} {req : Requester} {page : Nat} {value : Word} {s : State} {rr : State} (ht :
  execPgEvtClear req page value s = .next rr) (hs : k.Kept s) : k.Kept rr := by
  refine State.run_kept (fun s hs => ?_) hs ht
  try dsimp only
  with_reducible repeat' first
    | assumption | apply State.issue_kept | intro _ _ | split | dsimp only

theorem execRegisterWrite_kept {k : State} {a : Access} {s : State} {rr : State} (ht : execRegisterWrite a s = .next
  rr) (hs : k.Kept s) : k.Kept rr := by
  refine State.run_kept (fun s hs => ?_) hs ht
  try dsimp only
  with_reducible repeat' first
    | assumption | apply State.issue_kept | intro _ _ | split | dsimp only

/-! ### Writes -/

theorem State.hostWrite_kept {k : State} (s : State) (p : Nat) (o : Nat) (v : Word) (hs : k.Kept s) : k.Kept
  (State.hostWrite s p o v) := by
  unfold State.hostWrite
  try dsimp only
  with_reducible repeat' first
    | assumption | apply State.regWrite_kept | intro _ _ | split | dsimp only

theorem State.ctrlHost_kept {k : State} (s : State) (p : Nat) (lo : Nat) (n : Nat) (x : Nat) (hs : k.Kept s) : k.Kept
  (State.ctrlHost s p lo n x) := by
  unfold State.ctrlHost
  try dsimp only
  with_reducible repeat' first
    | assumption | apply State.hostWrite_kept | intro _ _ | split | dsimp only

theorem execRecalLive_kept {k : State} {p : Port} {s : State} {rr : State} (ht : execRecalLive p s = .next rr) (hs :
  k.Kept s) : k.Kept rr := by
  refine State.run_kept (fun s hs => ?_) hs ht
  try dsimp only
  with_reducible repeat' first
    | assumption | apply State.ctrlHost_kept | intro _ _ | split | dsimp only

theorem State.tallyHost_kept {k : State} (s : State) (x1 : Nat) (i : Nat) (hs : k.Kept s) : k.Kept (State.tallyHost s
  x1 i) := by
  unfold State.tallyHost
  try dsimp only
  with_reducible repeat' first
    | assumption | apply State.hostWrite_kept | intro _ _ | split | dsimp only

theorem execFlush_kept {k : State} {x0 : Half} {s : State} {rr : State} (ht : execFlush x0 s = .next rr) (hs : k.Kept
  s) : k.Kept rr := by
  refine State.run_kept (fun s hs => ?_) hs ht
  try dsimp only
  with_reducible repeat' first
    | assumption | apply State.tallyHost_kept | intro _ _ | split | dsimp only

theorem execPwrStandby_kept {k : State} {p : Port} {s : State} {rr : State} (ht : execPwrStandby p s = .next rr) (hs
  : k.Kept s) : k.Kept rr := by
  refine State.run_kept (fun s hs => ?_) hs ht
  try dsimp only
  with_reducible repeat' first
    | assumption | apply State.ctrlHost_kept | intro _ _ | split | dsimp only

theorem execPwrDormant_kept {k : State} {p : Port} {s : State} {rr : State} (ht : execPwrDormant p s = .next rr) (hs
  : k.Kept s) : k.Kept rr := by
  refine State.run_kept (fun s hs => ?_) hs ht
  try dsimp only
  with_reducible repeat' first
    | assumption | apply State.ctrlHost_kept | intro _ _ | split | dsimp only

theorem State.maintHost_kept {k : State} (s : State) (x1 : Nat) (i : Nat) (hs : k.Kept s) : k.Kept (State.maintHost s
  x1 i) := by
  unfold State.maintHost
  try dsimp only
  with_reducible repeat' first
    | assumption | apply State.hostWrite_kept | intro _ _ | split | dsimp only

theorem execInjBip_kept {k : State} {q : SpanPos} {s : State} {rr : State} (ht : execInjBip q s = .next rr) (hs :
  k.Kept s) : k.Kept rr := by
  refine State.run_kept (fun s hs => ?_) hs ht
  try dsimp only
  with_reducible repeat' first
    | assumption | apply State.hostWrite_kept | intro _ _ | split | dsimp only

theorem execExportAll_kept {k : State} {x0 : Half} {s : State} {rr : State} (ht : execExportAll x0 s = .next rr) (hs
  : k.Kept s) : k.Kept rr := by
  refine State.run_kept (fun s hs => ?_) hs ht
  try dsimp only
  with_reducible repeat' first
    | assumption | apply State.tallyHost_kept | intro _ _ | split | dsimp only

theorem execClrHist_kept {k : State} {x0 : Half} {s : State} {rr : State} (ht : execClrHist x0 s = .next rr) (hs :
  k.Kept s) : k.Kept rr := by
  refine State.run_kept (fun s hs => ?_) hs ht
  try dsimp only
  with_reducible repeat' first
    | assumption | apply State.hostWrite_kept | intro _ _ | split | dsimp only

theorem execPortDisable_kept {k : State} {p : Port} {s : State} {rr : State} (ht : execPortDisable p s = .next rr)
  (hs : k.Kept s) : k.Kept rr := by
  refine State.run_kept (fun s hs => ?_) hs ht
  try dsimp only
  with_reducible repeat' first
    | assumption | apply State.ctrlHost_kept | intro _ _ | split | dsimp only

theorem execResume_kept {k : State} {x0 : Half} {s : State} {rr : State} (ht : execResume x0 s = .next rr) (hs :
  k.Kept s) : k.Kept rr := by
  refine State.run_kept (fun s hs => ?_) hs ht
  try dsimp only
  with_reducible repeat' first
    | assumption | apply State.maintHost_kept | intro _ _ | split | dsimp only

theorem execQueueDisable_kept {k : State} {q : QueueId} {s : State} {rr : State} (ht : execQueueDisable q s = .next
  rr) (hs : k.Kept s) : k.Kept rr := by
  refine State.run_kept (fun s hs => ?_) hs ht
  try dsimp only
  with_reducible repeat' first
    | assumption | apply State.hostWrite_kept | intro _ _ | split | dsimp only

theorem execPortEnable_kept {k : State} {p : Port} {s : State} {rr : State} (ht : execPortEnable p s = .next rr) (hs
  : k.Kept s) : k.Kept rr := by
  refine State.run_kept (fun s hs => ?_) hs ht
  try dsimp only
  with_reducible repeat' first
    | assumption | apply State.ctrlHost_kept | intro _ _ | split | dsimp only

theorem execPortReset_kept {k : State} {p : Port} {s : State} {rr : State} (ht : execPortReset p s = .next rr) (hs :
  k.Kept s) : k.Kept rr := by
  refine State.run_kept (fun s hs => ?_) hs ht
  try dsimp only
  with_reducible repeat' first
    | assumption | apply State.ctrlHost_kept | intro _ _ | split | dsimp only

theorem execDoorbell_kept {k : State} {q : QueueId} {value : Word} {s : State} {rr : State} (ht : execDoorbell q
  value s = .next rr) (hs : k.Kept s) : k.Kept rr := by
  refine State.run_kept (fun s hs => ?_) hs ht
  try dsimp only
  with_reducible repeat' first
    | assumption | apply State.hostWrite_kept | intro _ _ | split | dsimp only

theorem execRstSlice_kept {k : State} {value : Word} {s : State} {rr : State} (ht : execRstSlice value s = .next rr)
  (hs : k.Kept s) : k.Kept rr := by
  refine State.run_kept (fun s hs => ?_) hs ht
  try dsimp only
  with_reducible repeat' first
    | assumption | apply State.hostWrite_kept | intro _ _ | split | dsimp only

theorem execDrain_kept {k : State} {x0 : Half} {s : State} {rr : State} (ht : execDrain x0 s = .next rr) (hs : k.Kept
  s) : k.Kept rr := by
  refine State.run_kept (fun s hs => ?_) hs ht
  try dsimp only
  with_reducible repeat' first
    | assumption | apply State.hostWrite_kept | intro _ _ | split | dsimp only

theorem execClrDrop_kept {k : State} {x0 : Half} {s : State} {rr : State} (ht : execClrDrop x0 s = .next rr) (hs :
  k.Kept s) : k.Kept rr := by
  refine State.run_kept (fun s hs => ?_) hs ht
  try dsimp only
  with_reducible repeat' first
    | assumption | apply State.hostWrite_kept | intro _ _ | split | dsimp only

theorem execClear_kept {k : State} {x0 : Half} {s : State} {rr : State} (ht : execClear x0 s = .next rr) (hs : k.Kept
  s) : k.Kept rr := by
  refine State.run_kept (fun s hs => ?_) hs ht
  try dsimp only
  with_reducible repeat' first
    | assumption | apply State.tallyHost_kept | intro _ _ | split | dsimp only

theorem execRstHalf_kept {k : State} {value : Word} {s : State} {rr : State} (ht : execRstHalf value s = .next rr)
  (hs : k.Kept s) : k.Kept rr := by
  refine State.run_kept (fun s hs => ?_) hs ht
  try dsimp only
  with_reducible repeat' first
    | assumption | apply State.hostWrite_kept | intro _ _ | split | dsimp only

theorem execRstChip_kept {k : State} {value : Word} {s : State} {rr : State} (ht : execRstChip value s = .next rr)
  (hs : k.Kept s) : k.Kept rr := by
  refine State.run_kept (fun s hs => ?_) hs ht
  try dsimp only
  with_reducible repeat' first
    | assumption | apply State.hostWrite_kept | intro _ _ | split | dsimp only

theorem execHint_kept {k : State} {duration : BitVec 16} {s : State} {rr : State} (ht : execHint duration s = .next
  rr) (hs : k.Kept s) : k.Kept rr := by
  refine State.run_kept (fun s hs => ?_) hs ht
  try dsimp only
  with_reducible repeat' first
    | assumption | apply State.hostWrite_kept | intro _ _ | split | dsimp only

theorem execLoPinRel_kept {k : State} {s : State} {rr : State} (ht : execLoPinRel s = .next rr) (hs : k.Kept s) :
  k.Kept rr := by
  refine State.run_kept (fun s hs => ?_) hs ht
  try dsimp only
  with_reducible repeat' first
    | assumption | apply State.hostWrite_kept | intro _ _ | split | dsimp only

theorem execLoClr_kept {k : State} {value : Word} {s : State} {rr : State} (ht : execLoClr value s = .next rr) (hs :
  k.Kept s) : k.Kept rr := by
  refine State.run_kept (fun s hs => ?_) hs ht
  try dsimp only
  with_reducible repeat' first
    | assumption | apply State.hostWrite_kept | intro _ _ | split | dsimp only

theorem execQueueEnable_kept {k : State} {q : QueueId} {s : State} {rr : State} (ht : execQueueEnable q s = .next rr)
  (hs : k.Kept s) : k.Kept rr := by
  refine State.run_kept (fun s hs => ?_) hs ht
  try dsimp only
  with_reducible repeat' first
    | assumption | apply State.hostWrite_kept | intro _ _ | split | dsimp only

theorem execRetrain_kept {k : State} {x0 : Half} {s : State} {rr : State} (ht : execRetrain x0 s = .next rr) (hs :
  k.Kept s) : k.Kept rr := by
  refine State.run_kept (fun s hs => ?_) hs ht
  try dsimp only
  with_reducible repeat' first
    | assumption | apply State.hostWrite_kept | intro _ _ | split | dsimp only

theorem execClrMx_kept {k : State} {x0 : Half} {s : State} {rr : State} (ht : execClrMx x0 s = .next rr) (hs : k.Kept
  s) : k.Kept rr := by
  refine State.run_kept (fun s hs => ?_) hs ht
  try dsimp only
  with_reducible repeat' first
    | assumption | apply State.hostWrite_kept | intro _ _ | split | dsimp only

theorem execStep_kept {k : State} {s : State} {rr : State} (ht : execStep s = .next rr) (hs : k.Kept s) : k.Kept rr
  := by
  refine State.run_kept (fun s hs => ?_) hs ht
  try dsimp only
  with_reducible repeat' first
    | assumption | apply State.hostWrite_kept | intro _ _ | split | dsimp only

theorem execSet_kept {k : State} {s : State} {rr : State} (ht : execSet s = .next rr) (hs : k.Kept s) : k.Kept rr := by
  refine State.run_kept (fun s hs => ?_) hs ht
  try dsimp only
  with_reducible repeat' first
    | assumption | apply State.hostWrite_kept | intro _ _ | split | dsimp only

theorem execAbandon_kept {k : State} {x0 : Half} {s : State} {rr : State} (ht : execAbandon x0 s = .next rr) (hs :
  k.Kept s) : k.Kept rr := by
  refine State.run_kept (fun s hs => ?_) hs ht
  try dsimp only
  with_reducible repeat' first
    | assumption | apply State.maintHost_kept | intro _ _ | split | dsimp only

theorem execWlMigrate_kept {k : State} {x0 : Half} {bank : BitVec 8} {s : State} {rr : State} (ht : execWlMigrate x0
  bank s = .next rr) (hs : k.Kept s) : k.Kept rr := by
  refine State.run_kept (fun s hs => ?_) hs ht
  try dsimp only
  with_reducible repeat' first
    | assumption | apply State.hostWrite_kept | intro _ _ | split | dsimp only

theorem execSwap_kept {k : State} {sl : Slice} {s : State} {rr : State} (ht : execSwap sl s = .next rr) (hs : k.Kept
  s) : k.Kept rr := by
  refine State.run_kept (fun s hs => ?_) hs ht
  try dsimp only
  with_reducible repeat' first
    | assumption | apply State.hostWrite_kept | intro _ _ | split | dsimp only

theorem execRecalFull_kept {k : State} {p : Port} {s : State} {rr : State} (ht : execRecalFull p s = .next rr) (hs :
  k.Kept s) : k.Kept rr := by
  refine State.run_kept (fun s hs => ?_) hs ht
  try dsimp only
  with_reducible repeat' first
    | assumption | apply State.ctrlHost_kept | intro _ _ | split | dsimp only

theorem execPwrActive_kept {k : State} {p : Port} {s : State} {rr : State} (ht : execPwrActive p s = .next rr) (hs :
  k.Kept s) : k.Kept rr := by
  refine State.run_kept (fun s hs => ?_) hs ht
  try dsimp only
  with_reducible repeat' first
    | assumption | apply State.ctrlHost_kept | intro _ _ | split | dsimp only

/-! ### Image -/

theorem State.loadStat_kept {k : State} (s : State) (p : Nat) (o : Nat) (v : Word) (hs : k.Kept s) : k.Kept
  (State.loadStat s p o v) := by
  unfold State.loadStat
  try dsimp only
  with_reducible repeat' first
    | assumption | apply State.setWood_kept | apply State.setSlice_kept | intro _ _ | split | dsimp only
    | refine State.Kept.mk_same ?_ (by rfl) (by rfl)

theorem State.loadReg_kept {k : State} (s : State) (r : Requester) (p : Nat) (o : Nat) (v : Word) (hs : k.Kept s) :
  k.Kept (State.loadReg s r p o v) := by
  unfold State.loadReg
  try dsimp only
  with_reducible repeat' first
    | assumption | apply State.performWrite_kept | apply State.loadStat_kept | apply State.setRf_kept | intro _ _ | split
    | dsimp only

theorem State.loadWrites_kept {k : State} (s : State) (r : Requester) (p : Nat) (sel : Nat) (x4 : List (Nat × List
  Word)) (hs : k.Kept s) : k.Kept (State.loadWrites s r p sel x4) := by
  induction x4 generalizing s r p sel with
  | nil =>
    unfold State.loadWrites
    try dsimp only
    with_reducible repeat' first
      | assumption | apply State.winStore_kept | intro _ _ | split | dsimp only
  | cons a l ih =>
    unfold State.loadWrites
    try dsimp only
    with_reducible repeat' first
      | assumption | apply ih | apply State.winStore_kept | intro _ _ | split | dsimp only

theorem State.loadOn_kept {k : State} (s : State) (r : Requester) (x : LoadRec) (x3 : List Nat) (hs : k.Kept s) :
  k.Kept (State.loadOn s r x x3) := by
  induction x3 generalizing s r x with
  | nil =>
    unfold State.loadOn
    try dsimp only
    with_reducible repeat' first
      | assumption | apply State.loadReg_kept | apply State.loadWrites_kept | intro _ _ | split | dsimp only
      | refine State.Kept.mk_same ?_ (by rfl) (by rfl)
  | cons a l ih =>
    unfold State.loadOn
    try dsimp only
    with_reducible repeat' first
      | assumption | apply ih | apply State.loadReg_kept | apply State.loadWrites_kept | intro _ _ | split | dsimp only
      | refine State.Kept.mk_same ?_ (by rfl) (by rfl)

theorem State.loadRecs_kept {k : State} (s : State) (r : Requester) (x2 : List LoadRec) (hs : k.Kept s) : k.Kept
  (State.loadRecs s r x2) := by
  induction x2 generalizing s r with
  | nil =>
    unfold State.loadRecs
    try dsimp only
    with_reducible repeat' first
      | assumption | apply State.loadOn_kept | intro _ _ | split | dsimp only
      | refine State.Kept.mk_same ?_ (by rfl) (by rfl)
  | cons a l ih =>
    unfold State.loadRecs
    try dsimp only
    with_reducible repeat' first
      | assumption | apply ih | apply State.loadOn_kept | intro _ _ | split | dsimp only
      | refine State.Kept.mk_same ?_ (by rfl) (by rfl)

theorem State.fwEnd_kept {k : State} (s : State) (x1 : List Nat) (hs : k.Kept s) : k.Kept (State.fwEnd s x1) := by
  induction x1 generalizing s with
  | nil =>
    unfold State.fwEnd
    try dsimp only
    with_reducible repeat' first
      | assumption | apply State.setMacro_kept | apply State.lanesWake_kept | intro _ _ | split | dsimp only
      | refine State.Kept.mk_same ?_ (by rfl) (by rfl)
  | cons a l ih =>
    unfold State.fwEnd
    try dsimp only
    with_reducible repeat' first
      | assumption | apply ih | apply State.setMacro_kept | apply State.lanesWake_kept | intro _ _ | split | dsimp only
      | refine State.Kept.mk_same ?_ (by rfl) (by rfl)

theorem State.fwLoad_kept {k : State} (s : State) (i : Image) (m : Nat) (x3 : Nat) (hs : k.Kept s) : k.Kept
  (State.fwLoad s i m x3) := by
  unfold State.fwLoad
  try dsimp only
  with_reducible repeat' first
    | assumption | apply State.extend_kept | apply State.setMacro_kept | apply State.setMemWs_kept | intro _ _ | split
    | dsimp only | refine State.Kept.mk_same ?_ (by rfl) (by rfl)

theorem State.fwApply_kept {k : State} (s : State) (i : Image) (x2 : List Nat) (hs : k.Kept s) : k.Kept
  (State.fwApply s i x2).1 := by
  induction x2 generalizing s i with
  | nil =>
    unfold State.fwApply
    try dsimp only
    with_reducible repeat' first
      | assumption | apply State.fwLoad_kept | intro _ _ | split | dsimp only
  | cons a l ih =>
    unfold State.fwApply
    try dsimp only
    with_reducible repeat' first
      | assumption | apply ih | apply State.fwLoad_kept | intro _ _ | split | dsimp only

theorem State.fwApply_kept_eq {k : State} {s : State} {i : Image} {x2 : List Nat} {ra rb} (ht : State.fwApply s i x2
  = (ra, rb)) (hs : k.Kept s) : k.Kept ra := by
  have := State.fwApply_kept (k := k) s i x2 hs
  rw [ht] at this
  exact this

/-! ### Retained -/

theorem State.setCopy_kept {k : State} (s : State) (x1 : Nat) (c : AMap DWord) (hs : k.Kept s) : k.Kept
  (State.setCopy s x1 c) := by
  unfold State.setCopy
  try dsimp only
  with_reducible repeat' first
    | assumption | intro _ _ | split | dsimp only | refine State.Kept.mk_same ?_ (by rfl) (by rfl)

theorem State.readSeqs_kept {k : State} (s : State) (hs : k.Kept s) : k.Kept (State.readSeqs s) := by
  unfold State.readSeqs
  try dsimp only
  with_reducible repeat' first
    | assumption | intro _ _ | split | dsimp only | refine State.Kept.mk_same ?_ (by rfl) (by rfl)

theorem State.saveStart_kept {k : State} (s : State) (c : CfgCopy) (hs : k.Kept s) : k.Kept (State.saveStart s c) := by
  unfold State.saveStart
  try dsimp only
  with_reducible repeat' first
    | assumption | apply State.setCopy_kept | apply State.readSeqs_kept | intro _ _ | split | dsimp only
    | refine State.Kept.mk_same ?_ (by rfl) (by rfl)

theorem State.saveEnd_kept {k : State} (s : State) (x : SaveRun) (hs : k.Kept s) : k.Kept (State.saveEnd s x) := by
  unfold State.saveEnd
  try dsimp only
  with_reducible repeat' first
    | assumption | apply State.readSeqs_kept | apply State.count_kept | apply State.extend_kept | apply State.setCopy_kept
    | intro _ _ | split | dsimp only | refine State.Kept.mk_same ?_ (by rfl) (by rfl)

theorem State.wipeBanks_kept {k : State} (s : State) (x1 : List Nat) (hs : k.Kept s) : k.Kept (State.wipeBanks s x1)
  := by
  induction x1 generalizing s with
  | nil =>
    unfold State.wipeBanks
    try dsimp only
    with_reducible repeat' first
      | assumption | apply State.setSlice_kept | intro _ _ | split | dsimp only
      | refine State.Kept.mk_same ?_ (by rfl) (by rfl)
  | cons a l ih =>
    unfold State.wipeBanks
    try dsimp only
    with_reducible repeat' first
      | assumption | apply ih | apply State.setSlice_kept | intro _ _ | split | dsimp only
      | refine State.Kept.mk_same ?_ (by rfl) (by rfl)

theorem State.dropBanks_kept {k : State} (s : State) (hs : k.Kept s) : k.Kept (State.dropBanks s) := by
  unfold State.dropBanks
  try dsimp only
  with_reducible repeat' first
    | assumption | apply State.setWood_kept | apply State.wipeBanks_kept | intro _ _ | split | dsimp only
    | refine State.Kept.mk_same ?_ (by rfl) (by rfl)

theorem State.deckAgain_kept {k : State} (s : State) (x1 : Nat) (hs : k.Kept s) : k.Kept (State.deckAgain s x1) := by
  unfold State.deckAgain
  try dsimp only
  with_reducible repeat' first
    | assumption | apply State.initDeck_kept | intro _ _ | split | dsimp only

theorem State.metersFull_kept {k : State} (s : State) (x1 : List (Nat × Nat)) (hs : k.Kept s) : k.Kept
  (State.metersFull s x1) := by
  induction x1 generalizing s with
  | nil =>
    unfold State.metersFull
    try dsimp only
    with_reducible repeat' first
      | assumption | apply State.setMeter_kept | intro _ _ | split | dsimp only
  | cons a l ih =>
    unfold State.metersFull
    try dsimp only
    with_reducible repeat' first
      | assumption | apply ih | apply State.setMeter_kept | intro _ _ | split | dsimp only

theorem State.tableHalves_kept {k : State} (s : State) (ws : List Word) (data : List Byte) (x3 : List Nat) (hs :
  k.Kept s) : k.Kept (State.tableHalves s ws data x3) := by
  induction x3 generalizing s ws data with
  | nil =>
    unfold State.tableHalves
    try dsimp only
    with_reducible repeat' first
      | assumption | apply State.routine_kept | refine State.routine_kept_eq (by assumption) ?_ | intro _ _ | split
      | dsimp only
  | cons a l ih =>
    unfold State.tableHalves
    try dsimp only
    with_reducible repeat' first
      | assumption | apply ih | apply State.routine_kept | refine State.routine_kept_eq (by assumption) ?_ | intro _ _
      | split | dsimp only

theorem State.tableRecs_kept {k : State} (s : State) (x1 : List (Word × Word × List Byte)) (hs : k.Kept s) : k.Kept
  (State.tableRecs s x1) := by
  induction x1 generalizing s with
  | nil =>
    unfold State.tableRecs
    try dsimp only
    with_reducible repeat' first
      | assumption | apply State.tableHalves_kept | intro _ _ | split | dsimp only
  | cons a l ih =>
    unfold State.tableRecs
    try dsimp only
    with_reducible repeat' first
      | assumption | apply ih | apply State.tableHalves_kept | intro _ _ | split | dsimp only

theorem State.applySections_kept {k : State} (s : State) (r : Requester) (x2 : List CfgSection) (hs : k.Kept s) :
  k.Kept (State.applySections s r x2) := by
  induction x2 generalizing s with
  | nil => exact hs
  | cons c l ih =>
    cases c
    · exact ih _ (State.loadRecs_kept _ _ _ hs)
    · exact ih _ (State.tableRecs_kept _ _ hs)

theorem State.wipeRegs_kept {k : State} (s : State) (hs : k.Kept s) : k.Kept (State.wipeRegs s) := by
  unfold State.wipeRegs
  refine ⟨⟨AMap.wfFrom_filterMap (fun e x hx => ?_) hs.1.1, hs.1.2⟩, hs.2, hs.3, hs.4, hs.5, hs.6⟩
  extract_lets d mk v at hx
  clear_value v
  split at hx
  · cases hx
  · next hd => cases hx; exact ⟨rfl, hd⟩

theorem State.wipeRet_kept {k : State} (s : State) (hs : k.Kept s) : k.Kept (State.wipeRet s) := by
  unfold State.wipeRet
  try dsimp only
  with_reducible repeat' first
    | assumption | apply State.dropBanks_kept | apply State.wipeRegs_kept | intro _ _ | split | dsimp only

theorem State.restoreEnd_kept {k : State} (s : State) (hs : k.Kept s) : k.Kept (State.restoreEnd s) := by
  unfold State.restoreEnd
  try dsimp only
  with_reducible repeat' first
    | assumption | apply State.raise_kept | apply State.deckAgain_kept | apply State.metersFull_kept
    | apply State.fwEnd_kept | apply State.applySections_kept | apply State.extend_kept | apply State.wipeRet_kept
    | intro _ _ | split | dsimp only | refine State.Kept.mk_same ?_ (by rfl) (by rfl)

theorem State.restoreStart_kept {k : State} (s : State) (lane : List Byte) (hs : k.Kept s) : k.Kept
  (State.restoreStart s lane) := by
  unfold State.restoreStart
  extract_lets s1 s2 c
  have h1 : k.Kept s1 := by
    dsimp only [s1]; split
    · split
      · exact State.Kept.foldl (fun _ _ h => State.fwLoad_kept _ _ _ _ h) _ hs
      · exact hs
    · exact hs
  have h2 : k.Kept s2 := State.readSeqs_kept _ h1
  clear_value s2
  exact ⟨h2.1, h2.2, h2.3, h2.4, h2.5, h2.6⟩

theorem execRestore_kept {k : State} {lane : List Byte} {s : State} {rr : State} (ht : execRestore lane s = .next rr)
  (hs : k.Kept s) : k.Kept rr := by
  refine State.run_kept (fun s hs => ?_) hs ht
  try dsimp only
  with_reducible repeat' first
    | assumption | apply State.restoreStart_kept | apply State.onlyIf_kept | intro _ _ | split | dsimp only

theorem execRestored_kept {k : State} {s : State} {rr : State} (ht : execRestored s = .next rr) (hs : k.Kept s) :
  k.Kept rr := by
  refine State.run_kept (fun s hs => ?_) hs ht
  try dsimp only
  with_reducible repeat' first
    | assumption | apply State.restoreEnd_kept | apply State.onlyIf_kept | intro _ _ | split | dsimp only

theorem State.saveWords_kept {k : State} (s : State) (x : SaveRun) (n : Nat) (hs : k.Kept s) : k.Kept
  (State.saveWords s x n) := by
  unfold State.saveWords
  try dsimp only
  with_reducible repeat' first
    | assumption | apply State.setCopy_kept | intro _ _ | split | dsimp only
    | refine State.Kept.mk_same ?_ (by rfl) (by rfl)

theorem State.saveGoes_kept {k : State} (s : State) (hs : k.Kept s) : k.Kept (State.saveGoes s) := by
  unfold State.saveGoes
  try dsimp only
  with_reducible repeat' first
    | assumption | apply State.saveWords_kept | apply State.drawn_kept | intro _ _ | split | dsimp only
    | refine State.Kept.mk_same ?_ (by rfl) (by rfl)

end Sys2Proof.Machine
end

