-- ==== Sys2Proof/Laws/KeptControl.lean ====
section
/-! SUPPORT. State.Kept, one lemma for each function of the state: the Forester, the mailbox, the span and table commands and time. -/

namespace Sys2Proof.Machine

/-! ### Forester -/

theorem State.withSeed_kept {k : State} (s : State) (target : Nat) (hs : k.Kept s) : k.Kept (State.withSeed s target)
  := by
  unfold State.withSeed
  split
  · exact ⟨hs.1, hs.2, hs.3, hs.4, hs.5, hs.6⟩
  · exact hs

theorem State.lifeWrite_kept {k : State} (s : State) (hs : k.Kept s) : k.Kept (State.lifeWrite s) := by
  unfold State.lifeWrite
  split
  · next t d heq =>
    split
    · have h := State.withSeed_kept s t hs
      have hf : (s.withSeed t).fuses.life = s.fuses.life := by unfold State.withSeed; split <;> rfl
      refine State.pcieDown_kept _ ⟨h.1, h.2, fun _ h => (nomatch h), ⟨?_, h.4.2.1, h.4.2.2⟩, h.5, h.6⟩
      exact Nat.le_trans h.4.1 (hf ▸ Nat.le_of_lt (hs.3 _ heq).1)
    · exact hs
  · exact hs

theorem State.setHolder_kept {k : State} (s : State) (holder : Nat) (hs : k.Kept s) : k.Kept (State.setHolder s
  holder) := by
  unfold State.setHolder
  try dsimp only
  with_reducible repeat' first
    | assumption | apply State.raise_kept | intro _ _ | split | dsimp only | refine State.Kept.mk_same ?_ (by rfl) (by rfl)

theorem State.newHead_kept {k : State} (s : State) (c : Nat) (hs : k.Kept s) : k.Kept (State.newHead s c) := by
  unfold State.newHead
  have h := State.setHolder_kept s (c + 1) hs
  refine State.longSync_kept _ (State.onlyIf_kept _ _ _ (State.setCluster_kept _ _ _ (h.next_ok fun x hx => ?_))
    (fun _ h => State.headSetpoint_kept _ h))
  dsimp only at hx
  split at hx
  · split at hx
    · cases hx
    · next heq _ => exact h.3 x (heq.trans hx)
  · cases hx

theorem State.claimed_kept {k : State} (s : State) (c : Nat) (hs : k.Kept s) : k.Kept (State.claimed s c) := by
  unfold State.claimed
  try dsimp only
  with_reducible repeat' first
    | assumption | apply State.newHead_kept | intro _ _ | split | dsimp only
    | refine State.Kept.mk_same ?_ (by rfl) (by rfl)

theorem State.mismatch_kept {k : State} (s : State) (c : Nat) (hs : k.Kept s) : k.Kept (State.mismatch s c) := by
  unfold State.mismatch
  try dsimp only
  with_reducible repeat' first
    | assumption | apply State.raiseIf_kept | apply State.setCluster_kept | apply State.sourceMsg_kept
    | apply State.setHolder_kept | intro _ _ | split | dsimp only | refine State.Kept.mk_same ?_ (by rfl) (by rfl)

theorem execLockstepMismatch_kept {k : State} {cl : Half} {s : State} {rr : State} (ht : execLockstepMismatch cl s =
  .next rr) (hs : k.Kept s) : k.Kept rr := by
  refine State.run_kept (fun s hs => ?_) hs ht
  try dsimp only
  with_reducible repeat' first
    | assumption | apply State.mismatch_kept | intro _ _ | split | dsimp only

theorem State.booted_kept {k : State} (s : State) (c : Nat) (slot : Nat) (i : Image) (hs : k.Kept s) : k.Kept
  (State.booted s c slot i) := by
  unfold State.booted
  try dsimp only
  with_reducible repeat' first
    | assumption | apply State.extend_kept | apply State.setCluster_kept | intro _ _ | split | dsimp only
    | refine State.Kept.mk_same ?_ (by rfl) (by rfl)

theorem State.bootDone_kept {k : State} (s : State) (c : Nat) (fl : BootFlash) (hs : k.Kept s) : k.Kept
  (State.bootDone s c fl) := by
  unfold State.bootDone
  try dsimp only
  with_reducible repeat' first
    | assumption | apply State.setCluster_kept | apply State.booted_kept | intro _ _ | split | dsimp only
    | refine State.Kept.mk_same ?_ (by rfl) (by rfl)

theorem State.lapse_kept {k : State} (s : State) (hs : k.Kept s) : k.Kept (State.lapse s) := by
  unfold State.lapse
  try dsimp only
  with_reducible repeat' first
    | assumption | apply State.setHolder_kept | apply State.sourceMsg_kept | intro _ _ | split | dsimp only

theorem State.winTie_kept {k : State} (s : State) (c : Nat) (hs : k.Kept s) : k.Kept (State.winTie s c) := by
  unfold State.winTie
  try dsimp only
  with_reducible repeat' first
    | assumption | apply State.sourceMsg_kept | apply State.setCluster_kept | intro _ _ | split | dsimp only
    | refine State.Kept.mk_same ?_ (by rfl) (by rfl)

theorem State.claim_kept {k : State} (s : State) (c : Nat) (expected : Word) (hs : k.Kept s) : k.Kept (State.claim s
  c expected) := by
  unfold State.claim
  try dsimp only
  with_reducible repeat' first
    | assumption | apply State.claimed_kept | apply State.sourceMsg_kept | apply State.winTie_kept | intro _ _ | split
    | dsimp only

theorem execHeadClaim_kept {k : State} {cl : Half} {expected : Word} {s : State} {rr : State} (ht : execHeadClaim cl
  expected s = .next rr) (hs : k.Kept s) : k.Kept rr := by
  refine State.run_kept (fun s hs => ?_) hs ht
  try dsimp only
  with_reducible repeat' first
    | assumption | apply State.claim_kept | intro _ _ | split | dsimp only

theorem State.uartImage_kept {k : State} (s : State) (c : Nat) (b : List Byte) (hs : k.Kept s) : k.Kept
  (State.uartImage s c b) := by
  unfold State.uartImage
  try dsimp only
  with_reducible repeat' first
    | assumption | apply State.booted_kept | intro _ _ | split | dsimp only
    | refine State.Kept.mk_same ?_ (by rfl) (by rfl)

theorem execRecoveryImage_kept {k : State} {cl : Half} {img : List Byte} {s : State} {rr : State} (ht :
  execRecoveryImage cl img s = .next rr) (hs : k.Kept s) : k.Kept rr := by
  refine State.run_kept (fun s hs => ?_) hs ht
  try dsimp only
  with_reducible repeat' first
    | assumption | apply State.uartImage_kept | intro _ _ | split | dsimp only

theorem execClusterBootDone_kept {k : State} {cl : Half} {flash : BootFlash} {s : State} {rr : State} (ht :
  execClusterBootDone cl flash s = .next rr) (hs : k.Kept s) : k.Kept rr := by
  refine State.run_kept (fun s hs => ?_) hs ht
  try dsimp only
  with_reducible repeat' first
    | assumption | apply State.bootDone_kept | intro _ _ | split | dsimp only

theorem execLcFuseWrite_kept {k : State} {s : State} {rr : State} (ht : execLcFuseWrite s = .next rr) (hs : k.Kept s)
  : k.Kept rr := by
  refine State.run_kept (fun s hs => ?_) hs ht
  try dsimp only
  with_reducible repeat' first
    | assumption | apply State.lifeWrite_kept | intro _ _ | split | dsimp only

theorem State.histCopy_kept {k : State} (s : State) (day : Bool) (q : Nat) (hs : k.Kept s) : k.Kept (State.histCopy s
  day q) := by
  unfold State.histCopy
  try dsimp only
  with_reducible repeat' first
    | assumption | intro _ _ | split | dsimp only | refine State.Kept.mk_same ?_ (by rfl) (by rfl)

theorem State.histCopies_kept {k : State} (s : State) (day : Bool) (x2 : List Nat) (hs : k.Kept s) : k.Kept
  (State.histCopies s day x2) := by
  induction x2 generalizing s day with
  | nil =>
    unfold State.histCopies
    try dsimp only
    with_reducible repeat' first
      | assumption | apply State.histCopy_kept | intro _ _ | split | dsimp only
  | cons a l ih =>
    unfold State.histCopies
    try dsimp only
    with_reducible repeat' first
      | assumption | apply ih | apply State.histCopy_kept | intro _ _ | split | dsimp only

theorem execLeaseExpire_kept {k : State} {s : State} {rr : State} (ht : execLeaseExpire s = .next rr) (hs : k.Kept s)
  : k.Kept rr := by
  refine State.run_kept (fun s hs => ?_) hs ht
  try dsimp only
  with_reducible repeat' first
    | assumption | apply State.lapse_kept | intro _ _ | split | dsimp only

theorem State.renew_kept {k : State} (s : State) (c : Nat) (hs : k.Kept s) : k.Kept (State.renew s c) := by
  unfold State.renew
  try dsimp only
  with_reducible repeat' first
    | assumption | intro _ _ | split | dsimp only | refine State.Kept.mk_same ?_ (by rfl) (by rfl)

theorem execLeaseRenew_kept {k : State} {cl : Half} {s : State} {rr : State} (ht : execLeaseRenew cl s = .next rr)
  (hs : k.Kept s) : k.Kept rr := by
  refine State.run_kept (fun s hs => ?_) hs ht
  try dsimp only
  with_reducible repeat' first
    | assumption | apply State.renew_kept | intro _ _ | split | dsimp only

theorem execPmHistoryCopy_kept {k : State} {day : Bool} {s : State} {rr : State} (ht : execPmHistoryCopy day s =
  .next rr) (hs : k.Kept s) : k.Kept rr := by
  refine State.run_kept (fun s hs => ?_) hs ht
  try dsimp only
  with_reducible repeat' first
    | assumption | apply State.histCopies_kept | apply State.onlyIf_kept | intro _ _ | split | dsimp only

/-! ### Lookout -/

theorem State.report_kept {k : State} (s : State) (q : MsgQueue) (m : Message) (hs : k.Kept s) : k.Kept (State.report
  s q m) := by
  unfold State.report
  try dsimp only
  with_reducible repeat' first
    | assumption | apply State.sourceMsg_kept | intro _ _ | split | dsimp only

theorem execLookoutMessage_kept {k : State} {fab : MsgQueue} {report : Option Message} {s : State} {rr : State} (ht :
  execLookoutMessage fab report s = .next rr) (hs : k.Kept s) : k.Kept rr := by
  refine State.run_kept (fun s hs => ?_) hs ht
  try dsimp only
  with_reducible repeat' first
    | assumption | apply State.takeNext_kept | apply State.onlyIf_kept | apply State.report_kept | intro _ _ | split
    | dsimp only | refine State.Kept.mk_same ?_ (by rfl) (by rfl)

theorem State.trapTake_kept {k : State} (s : State) (hs : k.Kept s) : k.Kept (State.trapTake s) := by
  unfold State.trapTake
  try dsimp only
  with_reducible repeat' first
    | assumption | apply State.raise_kept | apply State.longCopy_kept | apply State.setLook_kept | apply State.count_kept
    | intro _ _ | split | dsimp only | refine State.Kept.mk_same ?_ (by rfl) (by rfl)

theorem execFaultPulseEnd_kept {k : State} {s : State} {rr : State} (ht : execFaultPulseEnd s = .next rr) (hs :
  k.Kept s) : k.Kept rr := by
  refine State.runAlways_kept (fun s hs => ?_) hs ht
  try dsimp only
  with_reducible repeat' first
    | assumption | apply State.setLook_kept | apply State.pinRise_kept | intro _ _ | split | dsimp only
    | refine State.Kept.mk_same ?_ (by rfl) (by rfl)

theorem execLevelRiseWithoutMessage_kept {k : State} {n : Fin 512} {s : State} {rr : State} (ht :
  execLevelRiseWithoutMessage n s = .next rr) (hs : k.Kept s) : k.Kept rr := by
  refine State.run_kept (fun s hs => ?_) hs ht
  try dsimp only
  with_reducible repeat' first
    | assumption | apply State.levelRise_kept | apply State.onlyIf_kept | intro _ _ | split | dsimp only

theorem execTrapDeliver_kept {k : State} {s : State} {rr : State} (ht : execTrapDeliver s = .next rr) (hs : k.Kept s)
  : k.Kept rr := by
  refine State.run_kept (fun s hs => ?_) hs ht
  try dsimp only
  with_reducible repeat' first
    | assumption | apply State.trapTake_kept | apply State.onlyIf_kept | intro _ _ | split | dsimp only

theorem execFatalWr_kept {k : State} {ok : Bool} {s : State} {rr : State} (ht : execFatalWr ok s = .next rr) (hs :
  k.Kept s) : k.Kept rr := by
  refine State.runAlways_kept (fun s hs => ?_) hs ht
  try dsimp only
  with_reducible repeat' first
    | assumption | apply State.fatalWritten_kept | intro _ _ | split | dsimp only

/-! ### Mailbox -/

theorem State.mbNeeds_kept {k : State} (s : State) (n : Nat) (f : State → State × MbResult) (hs : k.Kept s) (hf : ∀
  s, k.Kept s → k.Kept (f s).1) : k.Kept (State.mbNeeds s n f).1 := by
  unfold State.mbNeeds
  try dsimp only
  with_reducible repeat' first
    | assumption | apply hf | intro _ _ | split | dsimp only

theorem State.mbNeeds_kept_eq {k : State} {s : State} {n : Nat} {f : State → State × MbResult} {ra rb} (ht :
  State.mbNeeds s n f = (ra, rb)) (hs : k.Kept s) (hf : ∀ s, k.Kept s → k.Kept (f s).1) : k.Kept ra := by
  have := State.mbNeeds_kept (k := k) s n f hs hf
  rw [ht] at this
  exact this

theorem State.mbPm_kept {k : State} (s : State) (hs : k.Kept s) : k.Kept (State.mbPm s).1 := by
  unfold State.mbPm
  try dsimp only
  with_reducible repeat' first
    | assumption | apply State.mbNeeds_kept | refine State.mbNeeds_kept_eq (by assumption) ?_ | intro _ _ | split
    | dsimp only | refine State.Kept.mk_same ?_ (by rfl) (by rfl)

theorem State.mbPm_kept_eq {k : State} {s : State} {ra rb} (ht : State.mbPm s = (ra, rb)) (hs : k.Kept s) : k.Kept ra
  := by
  have := State.mbPm_kept (k := k) s hs
  rw [ht] at this
  exact this

theorem State.setMb_kept {k : State} (s : State) (m : MbS) (hs : k.Kept s) : k.Kept (State.setMb s m) := by
  unfold State.setMb
  try dsimp only
  with_reducible repeat' first
    | assumption | intro _ _ | split | dsimp only | refine State.Kept.mk_same ?_ (by rfl) (by rfl)

theorem State.mbAct_kept {k : State} (s : State) (op : Nat) (f : State → State × MbResult) (hs : k.Kept s) (hf : ∀ s,
  k.Kept s → k.Kept (f s).1) : k.Kept (State.mbAct s op f) := by
  unfold State.mbAct
  try dsimp only
  with_reducible repeat' first
    | assumption | apply hf | apply State.setMb_kept | intro _ _ | split | dsimp only
    | refine State.Kept.mk_same ?_ (by rfl) (by rfl)

theorem execPmRead_kept {k : State} {s : State} {rr : State} (ht : execPmRead s = .next rr) (hs : k.Kept s) : k.Kept
  rr := by
  refine State.run_kept (fun s hs => ?_) hs ht
  try dsimp only
  with_reducible repeat' first
    | assumption | apply State.mbPm_kept | refine State.mbPm_kept_eq (by assumption) ?_ | apply State.mbAct_kept
    | intro _ _ | split | dsimp only

theorem State.mbChRead_kept {k : State} (s : State) (hs : k.Kept s) : k.Kept (State.mbChRead s).1 := by
  unfold State.mbChRead
  try dsimp only
  with_reducible repeat' first
    | assumption | apply State.setSpan_kept | apply State.mbNeeds_kept | refine State.mbNeeds_kept_eq (by assumption) ?_
    | intro _ _ | split | dsimp only

theorem State.mbChRead_kept_eq {k : State} {s : State} {ra rb} (ht : State.mbChRead s = (ra, rb)) (hs : k.Kept s) :
  k.Kept ra := by
  have := State.mbChRead_kept (k := k) s hs
  rw [ht] at this
  exact this

theorem execChRead_kept {k : State} {s : State} {rr : State} (ht : execChRead s = .next rr) (hs : k.Kept s) : k.Kept
  rr := by
  refine State.run_kept (fun s hs => ?_) hs ht
  try dsimp only
  with_reducible repeat' first
    | assumption | apply State.mbChRead_kept | refine State.mbChRead_kept_eq (by assumption) ?_ | apply State.mbAct_kept
    | intro _ _ | split | dsimp only

theorem State.mbSettle_kept {k : State} (s : State) (r : MbResult) (hs : k.Kept s) : k.Kept (State.mbSettle s r).1 := by
  unfold State.mbSettle
  dsimp only
  split
  · split
    · exact hs.next_ok hs.3
    · exact State.saveEnd_kept _ _ hs
  · split
    · next heq =>
      split
      · refine hs.next_ok fun x hx => ?_
        have h := hs.3 _ heq
        cases hx; exact h
      · exact hs
    · exact hs

theorem State.mbSettle_kept_eq {k : State} {s : State} {r : MbResult} {ra rb} (ht : State.mbSettle s r = (ra, rb))
  (hs : k.Kept s) : k.Kept ra := by
  have := State.mbSettle_kept (k := k) s r hs
  rw [ht] at this
  exact this

theorem State.putRsp_kept {k : State} (s : State) (x1 : Nat) (x2 : List Word) (hs : k.Kept s) : k.Kept (State.putRsp
  s x1 x2) := by
  induction x2 generalizing s x1 with
  | nil =>
    unfold State.putRsp
    try dsimp only
    with_reducible repeat' first
      | assumption | apply State.setReg_kept | intro _ _ | split | dsimp only
  | cons a l ih =>
    unfold State.putRsp
    try dsimp only
    with_reducible repeat' first
      | assumption | apply ih | apply State.setReg_kept | intro _ _ | split | dsimp only

theorem State.mbPublish_kept {k : State} (s : State) (r : MbResult) (hs : k.Kept s) : k.Kept (State.mbPublish s r) := by
  unfold State.mbPublish
  try dsimp only
  with_reducible repeat' first
    | assumption | apply State.fwEnd_kept | apply State.raise_kept | apply State.setMb_kept | apply State.setReg_kept
    | apply State.putRsp_kept | apply State.emit_kept | intro _ _ | split | dsimp only
    | refine State.Kept.mk_same ?_ (by rfl) (by rfl)

theorem State.mbComplete_kept {k : State} (s : State) (hs : k.Kept s) : k.Kept (State.mbComplete s) := by
  unfold State.mbComplete
  try dsimp only
  with_reducible repeat' first
    | assumption | apply State.mbSettle_kept | refine State.mbSettle_kept_eq (by assumption) ?_
    | apply State.mbPublish_kept | intro _ _ | split | dsimp only | refine State.Kept.mk_same ?_ (by rfl) (by rfl)

theorem State.mbTell_kept {k : State} (s : State) (op : Nat) (f : State → MbResult) (hs : k.Kept s) : k.Kept
  (State.mbTell s op f) := by
  unfold State.mbTell
  try dsimp only
  with_reducible repeat' first
    | assumption | apply State.mbAct_kept | intro _ _ | split | dsimp only

theorem execInfo_kept {k : State} {s : State} {rr : State} (ht : execInfo s = .next rr) (hs : k.Kept s) : k.Kept rr
  := by
  refine State.run_kept (fun s hs => ?_) hs ht
  try dsimp only
  with_reducible repeat' first
    | assumption | apply State.mbTell_kept | intro _ _ | split | dsimp only

theorem execIdent_kept {k : State} {s : State} {rr : State} (ht : execIdent s = .next rr) (hs : k.Kept s) : k.Kept rr
  := by
  refine State.run_kept (fun s hs => ?_) hs ht
  try dsimp only
  with_reducible repeat' first
    | assumption | apply State.mbTell_kept | intro _ _ | split | dsimp only

theorem State.mbFatal_kept {k : State} (s : State) (hs : k.Kept s) : k.Kept (State.mbFatal s).1 := by
  unfold State.mbFatal
  try dsimp only
  with_reducible repeat' first
    | assumption | apply State.mbNeeds_kept | refine State.mbNeeds_kept_eq (by assumption) ?_ | intro _ _ | split
    | dsimp only

theorem State.mbFatal_kept_eq {k : State} {s : State} {ra rb} (ht : State.mbFatal s = (ra, rb)) (hs : k.Kept s) :
  k.Kept ra := by
  have := State.mbFatal_kept (k := k) s hs
  rw [ht] at this
  exact this

theorem execFatalRead_kept {k : State} {s : State} {rr : State} (ht : execFatalRead s = .next rr) (hs : k.Kept s) :
  k.Kept rr := by
  refine State.run_kept (fun s hs => ?_) hs ht
  try dsimp only
  with_reducible repeat' first
    | assumption | apply State.mbFatal_kept | refine State.mbFatal_kept_eq (by assumption) ?_ | apply State.mbAct_kept
    | intro _ _ | split | dsimp only

theorem State.mbSensors_kept {k : State} (s : State) (words : List Word) (hs : k.Kept s) : k.Kept (State.mbSensors s
  words).1 := by
  unfold State.mbSensors
  try dsimp only
  with_reducible repeat' first
    | assumption | apply State.setRf_kept | intro _ _ | split | dsimp only

theorem State.mbSensors_kept_eq {k : State} {s : State} {words : List Word} {ra rb} (ht : State.mbSensors s words =
  (ra, rb)) (hs : k.Kept s) : k.Kept ra := by
  have := State.mbSensors_kept (k := k) s words hs
  rw [ht] at this
  exact this

theorem execSensors_kept {k : State} {r : RailTelemetry} {s : State} {rr : State} (ht : execSensors r s = .next rr)
  (hs : k.Kept s) : k.Kept rr := by
  refine State.run_kept (fun s hs => ?_) hs ht
  try dsimp only
  with_reducible repeat' first
    | assumption | apply State.mbSensors_kept | refine State.mbSensors_kept_eq (by assumption) ?_ | apply State.mbAct_kept
    | intro _ _ | split | dsimp only

theorem State.flashSlot_kept {k : State} (s : State) (x1 : Nat) (b : List Byte) (i : Image) (hs : k.Kept s) : k.Kept
  (State.flashSlot s x1 b i).1 := by
  unfold State.flashSlot
  try dsimp only
  with_reducible repeat' first
    | assumption | apply State.emit_kept | apply State.drawn_kept | intro _ _ | split | dsimp only
    | refine State.Kept.mk_same ?_ (by rfl) (by rfl)

theorem State.flashSlot_kept_eq {k : State} {s : State} {x1 : Nat} {b : List Byte} {i : Image} {ra rb} (ht :
  State.flashSlot s x1 b i = (ra, rb)) (hs : k.Kept s) : k.Kept ra := by
  have := State.flashSlot_kept (k := k) s x1 b i hs
  rw [ht] at this
  exact this

theorem State.stage_kept {k : State} (s : State) (b : List Byte) (i : Image) (hs : k.Kept s) : k.Kept (State.stage s
  b i).1 := by
  unfold State.stage
  try dsimp only
  with_reducible repeat' first
    | assumption | apply State.flashSlot_kept | refine State.flashSlot_kept_eq (by assumption) ?_ | intro _ _ | split
    | dsimp only | refine State.Kept.mk_same ?_ (by rfl) (by rfl)

theorem State.stage_kept_eq {k : State} {s : State} {b : List Byte} {i : Image} {ra rb} (ht : State.stage s b i =
  (ra, rb)) (hs : k.Kept s) : k.Kept ra := by
  have := State.stage_kept (k := k) s b i hs
  rw [ht] at this
  exact this

theorem State.mbNoHeadEnd_kept {k : State} (s : State) (hs : k.Kept s) : k.Kept (State.mbNoHeadEnd s) := by
  unfold State.mbNoHeadEnd
  try dsimp only
  with_reducible repeat' first
    | assumption | apply State.mbPublish_kept | intro _ _ | split | dsimp only

theorem execNoHead_kept {k : State} {s : State} {rr : State} (ht : execNoHead s = .next rr) (hs : k.Kept s) : k.Kept
  rr := by
  refine State.run_kept (fun s hs => ?_) hs ht
  try dsimp only
  with_reducible repeat' first
    | assumption | apply State.mbNoHeadEnd_kept | intro _ _ | split | dsimp only

theorem State.mbAttest_kept {k : State} (s : State) (hs : k.Kept s) : k.Kept (State.mbAttest s).1 := by
  unfold State.mbAttest
  try dsimp only
  with_reducible repeat' first
    | assumption | intro _ _ | split | dsimp only | refine State.Kept.mk_same ?_ (by rfl) (by rfl)

theorem State.mbAttest_kept_eq {k : State} {s : State} {ra rb} (ht : State.mbAttest s = (ra, rb)) (hs : k.Kept s) :
  k.Kept ra := by
  have := State.mbAttest_kept (k := k) s hs
  rw [ht] at this
  exact this

theorem execAttest_kept {k : State} {s : State} {rr : State} (ht : execAttest s = .next rr) (hs : k.Kept s) : k.Kept
  rr := by
  refine State.run_kept (fun s hs => ?_) hs ht
  try dsimp only
  with_reducible repeat' first
    | assumption | apply State.mbAttest_kept | refine State.mbAttest_kept_eq (by assumption) ?_ | apply State.mbAct_kept
    | intro _ _ | split | dsimp only

theorem State.mbAdvance_kept {k : State} (s : State) (img : List Byte) (hs : k.Kept s) : k.Kept (State.mbAdvance s
  img).1 := by
  refine State.mbNeeds_kept _ _ _ hs fun s hs => ?_
  dsimp only
  split
  · exact hs
  · split
    · exact hs
    · next i _ =>
      split
      · next t heq =>
        refine hs.next_ok fun x hx => ?_
        cases hx
        unfold State.tokenTarget at heq
        dsimp only at heq
        split at heq
        · cases heq
        · split at heq
          · cases heq
          · next h => cases heq; exact ⟨by omega, by omega⟩
      · exact hs

theorem State.mbAdvance_kept_eq {k : State} {s : State} {img : List Byte} {ra rb} (ht : State.mbAdvance s img = (ra,
  rb)) (hs : k.Kept s) : k.Kept ra := by
  have := State.mbAdvance_kept (k := k) s img hs
  rw [ht] at this
  exact this

theorem State.mbHandover_kept {k : State} (s : State) (hs : k.Kept s) : k.Kept (State.mbHandover s).1 := by
  unfold State.mbHandover
  try dsimp only
  with_reducible repeat' first
    | assumption | apply State.setCluster_kept | apply State.newHead_kept | intro _ _ | split | dsimp only
    | refine State.Kept.mk_same ?_ (by rfl) (by rfl)

theorem State.mbHandover_kept_eq {k : State} {s : State} {ra rb} (ht : State.mbHandover s = (ra, rb)) (hs : k.Kept s)
  : k.Kept ra := by
  have := State.mbHandover_kept (k := k) s hs
  rw [ht] at this
  exact this

theorem State.mbStage_kept {k : State} (s : State) (img : List Byte) (hs : k.Kept s) : k.Kept (State.mbStage s img).1
  := by
  unfold State.mbStage
  try dsimp only
  with_reducible repeat' first
    | assumption | apply State.stage_kept | refine State.stage_kept_eq (by assumption) ?_ | apply State.mbNeeds_kept
    | refine State.mbNeeds_kept_eq (by assumption) ?_ | intro _ _ | split | dsimp only
    | refine State.Kept.mk_same ?_ (by rfl) (by rfl)

theorem State.mbStage_kept_eq {k : State} {s : State} {img : List Byte} {ra rb} (ht : State.mbStage s img = (ra, rb))
  (hs : k.Kept s) : k.Kept ra := by
  have := State.mbStage_kept (k := k) s img hs
  rw [ht] at this
  exact this

theorem State.mbTraps_kept {k : State} (s : State) (hs : k.Kept s) : k.Kept (State.mbTraps s).1 := by
  unfold State.mbTraps
  try dsimp only
  with_reducible repeat' first
    | assumption | intro _ _ | split | dsimp only | refine State.Kept.mk_same ?_ (by rfl) (by rfl)

theorem State.mbTraps_kept_eq {k : State} {s : State} {ra rb} (ht : State.mbTraps s = (ra, rb)) (hs : k.Kept s) :
  k.Kept ra := by
  have := State.mbTraps_kept (k := k) s hs
  rw [ht] at this
  exact this

theorem execTrapRead_kept {k : State} {s : State} {rr : State} (ht : execTrapRead s = .next rr) (hs : k.Kept s) :
  k.Kept rr := by
  refine State.run_kept (fun s hs => ?_) hs ht
  try dsimp only
  with_reducible repeat' first
    | assumption | apply State.mbTraps_kept | refine State.mbTraps_kept_eq (by assumption) ?_ | apply State.mbAct_kept
    | intro _ _ | split | dsimp only

theorem State.mbChWrite_kept {k : State} (s : State) (hs : k.Kept s) : k.Kept (State.mbChWrite s).1 := by
  unfold State.mbChWrite
  try dsimp only
  with_reducible repeat' first
    | assumption | apply State.setSpan_kept | apply State.mbNeeds_kept | refine State.mbNeeds_kept_eq (by assumption) ?_
    | intro _ _ | split | dsimp only

theorem State.mbChWrite_kept_eq {k : State} {s : State} {ra rb} (ht : State.mbChWrite s = (ra, rb)) (hs : k.Kept s) :
  k.Kept ra := by
  have := State.mbChWrite_kept (k := k) s hs
  rw [ht] at this
  exact this

theorem execChWrite_kept {k : State} {s : State} {rr : State} (ht : execChWrite s = .next rr) (hs : k.Kept s) :
  k.Kept rr := by
  refine State.run_kept (fun s hs => ?_) hs ht
  try dsimp only
  with_reducible repeat' first
    | assumption | apply State.mbChWrite_kept | refine State.mbChWrite_kept_eq (by assumption) ?_ | apply State.mbAct_kept
    | intro _ _ | split | dsimp only

theorem State.mbSvn_kept {k : State} (s : State) (hs : k.Kept s) : k.Kept (State.mbSvn s).1 := by
  refine State.mbNeeds_kept _ _ _ hs fun s hs => ?_
  dsimp only
  split
  · exact hs
  · split
    · exact hs
    · refine hs.fuses ⟨Nat.le_refl _, fun t => ?_, fun _ _ => rfl⟩ rfl
      by_cases h : t = s.mbArg 0
      · subst h; exact Nat.le_trans (Nat.le_max_left _ _) (Nat.le_of_eq (AMap.get_set_same ..).symm)
      · exact Nat.le_of_eq (AMap.get_set_ne _ _ _ _ h).symm

theorem State.mbSvn_kept_eq {k : State} {s : State} {ra rb} (ht : State.mbSvn s = (ra, rb)) (hs : k.Kept s) : k.Kept
  ra := by
  have := State.mbSvn_kept (k := k) s hs
  rw [ht] at this
  exact this

theorem execSvnAdvance_kept {k : State} {s : State} {rr : State} (ht : execSvnAdvance s = .next rr) (hs : k.Kept s) :
  k.Kept rr := by
  refine State.run_kept (fun s hs => ?_) hs ht
  try dsimp only
  with_reducible repeat' first
    | assumption | apply State.mbSvn_kept | refine State.mbSvn_kept_eq (by assumption) ?_ | apply State.mbAct_kept
    | intro _ _ | split | dsimp only

theorem execMailboxComplete_kept {k : State} {s : State} {rr : State} (ht : execMailboxComplete s = .next rr) (hs :
  k.Kept s) : k.Kept rr := by
  refine State.run_kept (fun s hs => ?_) hs ht
  try dsimp only
  with_reducible repeat' first
    | assumption | apply State.mbComplete_kept | intro _ _ | split | dsimp only

theorem State.mbSave_kept {k : State} (s : State) (hs : k.Kept s) : k.Kept (State.mbSave s).1 := by
  unfold State.mbSave
  try dsimp only
  with_reducible repeat' first
    | assumption | apply State.saveStart_kept | intro _ _ | split | dsimp only

theorem State.mbSave_kept_eq {k : State} {s : State} {ra rb} (ht : State.mbSave s = (ra, rb)) (hs : k.Kept s) :
  k.Kept ra := by
  have := State.mbSave_kept (k := k) s hs
  rw [ht] at this
  exact this

theorem execCfgSave_kept {k : State} {s : State} {rr : State} (ht : execCfgSave s = .next rr) (hs : k.Kept s) :
  k.Kept rr := by
  refine State.run_kept (fun s hs => ?_) hs ht
  try dsimp only
  with_reducible repeat' first
    | assumption | apply State.mbSave_kept | refine State.mbSave_kept_eq (by assumption) ?_ | apply State.mbAct_kept
    | intro _ _ | split | dsimp only

theorem State.mbRestart_kept {k : State} (s : State) (hs : k.Kept s) : k.Kept (State.mbRestart s).1 := by
  unfold State.mbRestart
  try dsimp only
  with_reducible repeat' first
    | assumption | apply State.setCluster_kept | apply State.mbNeeds_kept | refine State.mbNeeds_kept_eq (by assumption) ?_
    | intro _ _ | split | dsimp only | refine State.Kept.mk_same ?_ (by rfl) (by rfl)

theorem State.mbRestart_kept_eq {k : State} {s : State} {ra rb} (ht : State.mbRestart s = (ra, rb)) (hs : k.Kept s) :
  k.Kept ra := by
  have := State.mbRestart_kept (k := k) s hs
  rw [ht] at this
  exact this

theorem State.mbMeas_kept {k : State} (s : State) (hs : k.Kept s) : k.Kept (State.mbMeas s).1 := by
  unfold State.mbMeas
  try dsimp only
  with_reducible repeat' first
    | assumption | apply State.extend_kept | apply State.mbNeeds_kept | refine State.mbNeeds_kept_eq (by assumption) ?_
    | intro _ _ | split | dsimp only

theorem State.mbMeas_kept_eq {k : State} {s : State} {ra rb} (ht : State.mbMeas s = (ra, rb)) (hs : k.Kept s) :
  k.Kept ra := by
  have := State.mbMeas_kept (k := k) s hs
  rw [ht] at this
  exact this

theorem execMeasExtend_kept {k : State} {s : State} {rr : State} (ht : execMeasExtend s = .next rr) (hs : k.Kept s) :
  k.Kept rr := by
  refine State.run_kept (fun s hs => ?_) hs ht
  try dsimp only
  with_reducible repeat' first
    | assumption | apply State.mbMeas_kept | refine State.mbMeas_kept_eq (by assumption) ?_ | apply State.mbAct_kept
    | intro _ _ | split | dsimp only

theorem execHandover_kept {k : State} {s : State} {rr : State} (ht : execHandover s = .next rr) (hs : k.Kept s) :
  k.Kept rr := by
  refine State.run_kept (fun s hs => ?_) hs ht
  try dsimp only
  with_reducible repeat' first
    | assumption | apply State.mbHandover_kept | refine State.mbHandover_kept_eq (by assumption) ?_
    | apply State.mbAct_kept | intro _ _ | split | dsimp only

theorem State.mbKey_kept {k : State} (s : State) (hs : k.Kept s) : k.Kept (State.mbKey s).1 := by
  refine State.mbNeeds_kept _ _ _ hs fun s hs => ?_
  dsimp only
  split
  · exact hs
  · split
    · exact hs
    · split
      · exact hs
      · next hd =>
        refine hs.fuses ⟨Nat.le_refl _, fun _ => Nat.le_refl _, fun n hn => ?_⟩ rfl
        by_cases h : n = s.mbArg 0
        · exfalso
          subst h
          rename_i h2 _
          apply hd
          unfold State.fusedDigest
          rw [if_neg (by omega), if_neg hn]; rfl
        · rw [AMap.get_set_ne _ _ _ _ h]

theorem State.mbKey_kept_eq {k : State} {s : State} {ra rb} (ht : State.mbKey s = (ra, rb)) (hs : k.Kept s) : k.Kept
  ra := by
  have := State.mbKey_kept (k := k) s hs
  rw [ht] at this
  exact this

theorem execKeyProgram_kept {k : State} {s : State} {rr : State} (ht : execKeyProgram s = .next rr) (hs : k.Kept s) :
  k.Kept rr := by
  refine State.run_kept (fun s hs => ?_) hs ht
  try dsimp only
  with_reducible repeat' first
    | assumption | apply State.mbKey_kept | refine State.mbKey_kept_eq (by assumption) ?_ | apply State.mbAct_kept
    | intro _ _ | split | dsimp only

theorem State.applyLoad_kept {k : State} (s : State) (i : Image) (hs : k.Kept s) : k.Kept (State.applyLoad s i).1 := by
  unfold State.applyLoad
  try dsimp only
  with_reducible repeat' first
    | assumption | apply State.loadRecs_kept | apply State.extend_kept | intro _ _ | split | dsimp only
    | refine State.Kept.mk_same ?_ (by rfl) (by rfl)

theorem State.applyLoad_kept_eq {k : State} {s : State} {i : Image} {ra rb} (ht : State.applyLoad s i = (ra, rb)) (hs
  : k.Kept s) : k.Kept ra := by
  have := State.applyLoad_kept (k := k) s i hs
  rw [ht] at this
  exact this

theorem State.mbApply_kept {k : State} (s : State) (hs : k.Kept s) : k.Kept (State.mbApply s).1 := by
  unfold State.mbApply
  try dsimp only
  with_reducible repeat' first
    | assumption | apply State.applyLoad_kept | refine State.applyLoad_kept_eq (by assumption) ?_
    | apply State.fwApply_kept | refine State.fwApply_kept_eq (by assumption) ?_ | apply State.mbNeeds_kept
    | refine State.mbNeeds_kept_eq (by assumption) ?_ | intro _ _ | split | dsimp only
    | refine State.Kept.mk_same ?_ (by rfl) (by rfl)

theorem State.mbApply_kept_eq {k : State} {s : State} {ra rb} (ht : State.mbApply s = (ra, rb)) (hs : k.Kept s) :
  k.Kept ra := by
  have := State.mbApply_kept (k := k) s hs
  rw [ht] at this
  exact this

theorem execLcAdvance_kept {k : State} {img : List Byte} {s : State} {rr : State} (ht : execLcAdvance img s = .next
  rr) (hs : k.Kept s) : k.Kept rr := by
  refine State.run_kept (fun s hs => ?_) hs ht
  try dsimp only
  with_reducible repeat' first
    | assumption | apply State.mbAdvance_kept | refine State.mbAdvance_kept_eq (by assumption) ?_ | apply State.mbAct_kept
    | intro _ _ | split | dsimp only

theorem execRestart_kept {k : State} {s : State} {rr : State} (ht : execRestart s = .next rr) (hs : k.Kept s) :
  k.Kept rr := by
  refine State.run_kept (fun s hs => ?_) hs ht
  try dsimp only
  with_reducible repeat' first
    | assumption | apply State.mbRestart_kept | refine State.mbRestart_kept_eq (by assumption) ?_ | apply State.mbAct_kept
    | intro _ _ | split | dsimp only

theorem execImgApply_kept {k : State} {s : State} {rr : State} (ht : execImgApply s = .next rr) (hs : k.Kept s) :
  k.Kept rr := by
  refine State.run_kept (fun s hs => ?_) hs ht
  try dsimp only
  with_reducible repeat' first
    | assumption | apply State.mbApply_kept | refine State.mbApply_kept_eq (by assumption) ?_ | apply State.mbAct_kept
    | intro _ _ | split | dsimp only

theorem execImgStage_kept {k : State} {img : List Byte} {s : State} {rr : State} (ht : execImgStage img s = .next rr)
  (hs : k.Kept s) : k.Kept rr := by
  refine State.run_kept (fun s hs => ?_) hs ht
  try dsimp only
  with_reducible repeat' first
    | assumption | apply State.mbStage_kept | refine State.mbStage_kept_eq (by assumption) ?_ | apply State.mbAct_kept
    | intro _ _ | split | dsimp only

theorem State.mbLog_kept {k : State} (s : State) (hs : k.Kept s) : k.Kept (State.mbLog s).1 := by
  unfold State.mbLog
  try dsimp only
  with_reducible repeat' first
    | assumption | apply State.drawn_kept | apply State.mbNeeds_kept | refine State.mbNeeds_kept_eq (by assumption) ?_
    | intro _ _ | split | dsimp only

theorem State.mbLog_kept_eq {k : State} {s : State} {ra rb} (ht : State.mbLog s = (ra, rb)) (hs : k.Kept s) : k.Kept
  ra := by
  have := State.mbLog_kept (k := k) s hs
  rw [ht] at this
  exact this

theorem execLogRead_kept {k : State} {s : State} {rr : State} (ht : execLogRead s = .next rr) (hs : k.Kept s) :
  k.Kept rr := by
  refine State.run_kept (fun s hs => ?_) hs ht
  try dsimp only
  with_reducible repeat' first
    | assumption | apply State.mbLog_kept | refine State.mbLog_kept_eq (by assumption) ?_ | apply State.mbAct_kept
    | intro _ _ | split | dsimp only

/-! ### Span -/

theorem State.binCount64_kept {k : State} (s : State) (q : Nat) (o : Nat) (n : Nat) (hs : k.Kept s) : k.Kept
  (State.binCount64 s q o n) := by
  unfold State.binCount64
  try dsimp only
  with_reducible repeat' first
    | assumption | apply State.count64_kept | intro _ _ | split | dsimp only

theorem State.binCount_kept {k : State} (s : State) (q : Nat) (o : Nat) (n : Nat) (sub : Bool) (hs : k.Kept s) :
  k.Kept (State.binCount s q o n sub) := by
  unfold State.binCount
  try dsimp only
  with_reducible repeat' first
    | assumption | apply State.count_kept | intro _ _ | split | dsimp only

theorem State.binSec_kept {k : State} (s : State) (q : Nat) (b : Nat) (x : PmSec) (sub : Bool) (hs : k.Kept s) :
  k.Kept (State.binSec s q b x sub) := by
  unfold State.binSec
  try dsimp only
  with_reducible repeat' first
    | assumption | apply State.binCount64_kept | apply State.binCount_kept | intro _ _ | split | dsimp only

theorem State.secAvail_kept {k : State} (s : State) (q : Nat) (x : PmSec) (sub : Bool) (x4 : List Nat) (hs : k.Kept
  s) : k.Kept (State.secAvail s q x sub x4) := by
  induction x4 generalizing s q x sub with
  | nil =>
    unfold State.secAvail
    try dsimp only
    with_reducible repeat' first
      | assumption | apply State.binSec_kept | intro _ _ | split | dsimp only
  | cons a l ih =>
    unfold State.secAvail
    try dsimp only
    with_reducible repeat' first
      | assumption | apply ih | apply State.binSec_kept | intro _ _ | split | dsimp only

theorem State.secUas_kept {k : State} (s : State) (q : Nat) (sub : Bool) (x3 : List Nat) (hs : k.Kept s) : k.Kept
  (State.secUas s q sub x3) := by
  induction x3 generalizing s q sub with
  | nil =>
    unfold State.secUas
    try dsimp only
    with_reducible repeat' first
      | assumption | apply State.binCount_kept | intro _ _ | split | dsimp only
  | cons a l ih =>
    unfold State.secUas
    try dsimp only
    with_reducible repeat' first
      | assumption | apply ih | apply State.binCount_kept | intro _ _ | split | dsimp only

theorem State.toUas_kept {k : State} (s : State) (q : Nat) (e : Nat) (x3 : List PmSec) (hs : k.Kept s) : k.Kept
  (State.toUas s q e x3) := by
  induction x3 generalizing s q e with
  | nil =>
    unfold State.toUas
    try dsimp only
    with_reducible repeat' first
      | assumption | apply State.secAvail_kept | apply State.secUas_kept | intro _ _ | split | dsimp only
  | cons a l ih =>
    unfold State.toUas
    try dsimp only
    with_reducible repeat' first
      | assumption | apply ih | apply State.secAvail_kept | apply State.secUas_kept | intro _ _ | split | dsimp only

theorem State.fromUas_kept {k : State} (s : State) (q : Nat) (e : Nat) (x3 : List PmSec) (hs : k.Kept s) : k.Kept
  (State.fromUas s q e x3) := by
  induction x3 generalizing s q e with
  | nil =>
    unfold State.fromUas
    try dsimp only
    with_reducible repeat' first
      | assumption | apply State.secUas_kept | apply State.secAvail_kept | intro _ _ | split | dsimp only
  | cons a l ih =>
    unfold State.fromUas
    try dsimp only
    with_reducible repeat' first
      | assumption | apply ih | apply State.secUas_kept | apply State.secAvail_kept | intro _ _ | split | dsimp only

theorem State.pmEnd_kept {k : State} (s : State) (q : Nat) (e : Nat) (m : PmEnd) (hs : k.Kept s) : k.Kept
  (State.pmEnd s q e m).1 := by
  unfold State.pmEnd
  try dsimp only
  with_reducible repeat' first
    | assumption | apply State.toUas_kept | apply State.fromUas_kept | apply State.secAvail_kept | apply State.secUas_kept
    | intro _ _ | split | dsimp only | refine State.Kept.mk_same ?_ (by rfl) (by rfl)

theorem State.pmEnd_kept_eq {k : State} {s : State} {q : Nat} {e : Nat} {m : PmEnd} {ra rb} (ht : State.pmEnd s q e m
  = (ra, rb)) (hs : k.Kept s) : k.Kept ra := by
  have := State.pmEnd_kept (k := k) s q e m hs
  rw [ht] at this
  exact this

theorem State.rollBin_kept {k : State} (s : State) (q : Nat) (b : Nat) (whole : Bool) (hs : k.Kept s) : k.Kept
  (State.rollBin s q b whole) := by
  unfold State.rollBin
  try dsimp only
  with_reducible repeat' first
    | assumption | apply State.setReg64_kept | apply State.setRf_kept | apply State.setReg_kept | intro _ _ | split
    | dsimp only

theorem State.rollPosition_kept {k : State} (s : State) (q : Nat) (day : Bool) (hs : k.Kept s) : k.Kept
  (State.rollPosition s q day) := by
  unfold State.rollPosition
  try dsimp only
  with_reducible repeat' first
    | assumption | apply State.raise_kept | apply State.setSpan_kept | apply State.rollBin_kept | intro _ _ | split
    | dsimp only | refine State.Kept.mk_same ?_ (by rfl) (by rfl)

theorem State.rollPositions_kept {k : State} (s : State) (day : Bool) (x2 : List Nat) (hs : k.Kept s) : k.Kept
  (State.rollPositions s day x2) := by
  induction x2 generalizing s day with
  | nil =>
    unfold State.rollPositions
    try dsimp only
    with_reducible repeat' first
      | assumption | apply State.rollPosition_kept | intro _ _ | split | dsimp only
  | cons a l ih =>
    unfold State.rollPositions
    try dsimp only
    with_reducible repeat' first
      | assumption | apply ih | apply State.rollPosition_kept | intro _ _ | split | dsimp only

theorem execBin15_kept {k : State} {s : State} {rr : State} (ht : execBin15 s = .next rr) (hs : k.Kept s) : k.Kept rr
  := by
  refine State.run_kept (fun s hs => ?_) hs ht
  try dsimp only
  with_reducible repeat' first
    | assumption | apply State.rollPositions_kept | intro _ _ | split | dsimp only

theorem State.ohspSlot_kept {k : State} (s : State) (n : Nat) (ts : Nat) (din : BitVec 10) (hs : k.Kept s) : k.Kept
  (State.ohspSlot s n ts din).2 := by
  unfold State.ohspSlot
  try dsimp only
  with_reducible repeat' first
    | assumption | apply State.count_kept | apply State.raise_kept | apply State.setSpan_kept | intro _ _ | split
    | dsimp only | refine State.Kept.mk_same ?_ (by rfl) (by rfl)

theorem State.ohspSlot_kept_eq {k : State} {s : State} {n : Nat} {ts : Nat} {din : BitVec 10} {ra rb} (ht :
  State.ohspSlot s n ts din = (ra, rb)) (hs : k.Kept s) : k.Kept rb := by
  have := State.ohspSlot_kept (k := k) s n ts din hs
  rw [ht] at this
  exact this

theorem State.defectTimer_kept {k : State} (s : State) (q : Nat) (x2 : Defect) (hs : k.Kept s) : k.Kept
  (State.defectTimer s q x2) := by
  unfold State.defectTimer
  try dsimp only
  with_reducible repeat' first
    | assumption | apply State.spanLom_kept | apply State.spanLof_kept | apply State.realign_kept
    | apply State.spanLosClear_kept | intro _ _ | split | dsimp only

theorem execDefectTimer_kept {k : State} {q : SpanPos} {d : Defect} {s : State} {rr : State} (ht : execDefectTimer q
  d s = .next rr) (hs : k.Kept s) : k.Kept rr := by
  refine State.run_kept (fun s hs => ?_) hs ht
  try dsimp only
  with_reducible repeat' first
    | assumption | apply State.defectTimer_kept | apply State.settleSpan_kept | apply State.onlyIf_kept | intro _ _ | split
    | dsimp only

theorem State.spanHear_kept {k : State} (s : State) (q : Nat) (bytes : List Byte) (hs : k.Kept s) : k.Kept
  (State.spanHear s q bytes) := by
  unfold State.spanHear
  try dsimp only
  with_reducible repeat' first
    | assumption | apply State.spanReceive_kept | apply State.settleSpan_kept | intro _ _ | split | dsimp only

theorem State.spanLoop_kept {k : State} (s : State) (q : Nat) (x2 : List Output) (hs : k.Kept s) : k.Kept
  (State.spanLoop s q x2) := by
  induction x2 generalizing s with
  | nil => exact hs
  | cons o l ih =>
    cases o
    all_goals first
      | exact ih _ hs
      | (unfold State.spanLoop; refine ih _ ?_; split; exact State.spanHear_kept _ _ _ hs; exact hs)

theorem execSpanFrameTx_kept {k : State} {q : SpanPos} {s : State} {rr : State} (ht : execSpanFrameTx q s = .next rr)
  (hs : k.Kept s) : k.Kept rr := by
  refine State.run_kept (fun s hs => ?_) hs ht
  try dsimp only
  with_reducible repeat' first
    | assumption | apply State.spanLoop_kept | apply State.spanSend_kept | apply State.onlyIf_kept | intro _ _ | split
    | dsimp only

theorem State.spanBegin_kept {k : State} (s : State) (q : Nat) (x2 : SpanPkt) (hs : k.Kept s) : k.Kept
  (State.spanBegin s q x2) := by
  unfold State.spanBegin
  try dsimp only
  with_reducible repeat' first
    | assumption | apply State.setSpan_kept | refine State.toFifo_kept (by assumption) ?_ | intro _ _ | split | dsimp only
    | refine State.Kept.mk_same ?_ (by rfl) (by rfl)

theorem State.spanPacket_kept {k : State} (s : State) (q : Nat) (x2 : SpanPkt) (hs : k.Kept s) : k.Kept
  (State.spanPacket s q x2) := by
  unfold State.spanPacket
  try dsimp only
  with_reducible repeat' first
    | assumption | apply State.rxGood_kept | refine State.toFifo_kept (by assumption) ?_ | apply State.completeRoot_kept
    | apply State.accountEarly_kept | apply State.spanRxCount_kept | apply State.bwFrame_kept
    | apply State.spanDiscard_kept | intro _ _ | split | dsimp only | refine State.Kept.mk_same ?_ (by rfl) (by rfl)

theorem State.spanPacketNext_kept {k : State} (s : State) (q : Nat) (hs : k.Kept s) : k.Kept (State.spanPacketNext s
  q) := by
  unfold State.spanPacketNext
  try dsimp only
  with_reducible repeat' first
    | assumption | apply State.spanBegin_kept | apply State.setSpan_kept | apply State.spanPacket_kept | intro _ _ | split
    | dsimp only | refine State.Kept.mk_same ?_ (by rfl) (by rfl)

theorem execSpanPacketRx_kept {k : State} {q : SpanPos} {s : State} {rr : State} (ht : execSpanPacketRx q s = .next
  rr) (hs : k.Kept s) : k.Kept rr := by
  refine State.run_kept (fun s hs => ?_) hs ht
  try dsimp only
  with_reducible repeat' first
    | assumption | apply State.spanPacketNext_kept | apply State.onlyIf_kept | intro _ _ | split | dsimp only

theorem execSpanFrameRx_kept {k : State} {q : SpanPos} {bytes : List Byte} {s : State} {rr : State} (ht :
  execSpanFrameRx q bytes s = .next rr) (hs : k.Kept s) : k.Kept rr := by
  refine State.run_kept (fun s hs => ?_) hs ht
  try dsimp only
  with_reducible repeat' first
    | assumption | apply State.transmit_kept | apply State.spanHear_kept | apply State.onlyIf_kept | intro _ _ | split
    | dsimp only

theorem State.ohspSlots_kept {k : State} (s : State) (n : Nat) (x2 : Nat) (x3 : List (BitVec 10)) (hs : k.Kept s) :
  k.Kept (State.ohspSlots s n x2 x3).2 := by
  induction x3 generalizing s n x2 with
  | nil =>
    unfold State.ohspSlots
    try dsimp only
    with_reducible repeat' first
      | assumption | apply State.ohspSlot_kept | refine State.ohspSlot_kept_eq (by assumption) ?_ | intro _ _ | split
      | dsimp only
  | cons a l ih =>
    unfold State.ohspSlots
    try dsimp only
    with_reducible repeat' first
      | assumption | apply ih | apply State.ohspSlot_kept | refine State.ohspSlot_kept_eq (by assumption) ?_ | intro _ _
      | split | dsimp only

theorem State.ohspSlots_kept_eq {k : State} {s : State} {n : Nat} {x2 : Nat} {x3 : List (BitVec 10)} {ra rb} (ht :
  State.ohspSlots s n x2 x3 = (ra, rb)) (hs : k.Kept s) : k.Kept rb := by
  have := State.ohspSlots_kept (k := k) s n x2 x3 hs
  rw [ht] at this
  exact this

theorem State.ohspFrame_kept {k : State} (s : State) (n : Nat) (din : List (BitVec 10)) (hs : k.Kept s) : k.Kept
  (State.ohspFrame s n din) := by
  unfold State.ohspFrame
  try dsimp only
  with_reducible repeat' first
    | assumption | apply State.emit_kept | apply State.count_kept | apply State.ohspSlots_kept
    | refine State.ohspSlots_kept_eq (by assumption) ?_ | intro _ _ | split | dsimp only

theorem State.pmPosition_kept {k : State} (s : State) (q : Nat) (hs : k.Kept s) : k.Kept (State.pmPosition s q) := by
  unfold State.pmPosition
  try dsimp only
  with_reducible repeat' first
    | assumption | apply State.setSpan_kept | apply State.raise_kept | apply State.putSpan_kept | apply State.pmEnd_kept
    | refine State.pmEnd_kept_eq (by assumption) ?_ | intro _ _ | split | dsimp only
    | refine State.Kept.mk_same ?_ (by rfl) (by rfl)

theorem State.pmPositions_kept {k : State} (s : State) (x1 : List Nat) (hs : k.Kept s) : k.Kept (State.pmPositions s
  x1) := by
  induction x1 generalizing s with
  | nil =>
    unfold State.pmPositions
    try dsimp only
    with_reducible repeat' first
      | assumption | apply State.pmPosition_kept | intro _ _ | split | dsimp only
  | cons a l ih =>
    unfold State.pmPositions
    try dsimp only
    with_reducible repeat' first
      | assumption | apply ih | apply State.pmPosition_kept | intro _ _ | split | dsimp only

theorem execOhspFrame_kept {k : State} {n : Fin 4} {din : List (BitVec 10)} {s : State} {rr : State} (ht :
  execOhspFrame n din s = .next rr) (hs : k.Kept s) : k.Kept rr := by
  refine State.run_kept (fun s hs => ?_) hs ht
  try dsimp only
  with_reducible repeat' first
    | assumption | apply State.ohspFrame_kept | apply State.onlyIf_kept | intro _ _ | split | dsimp only

theorem execDay_kept {k : State} {sl : Slice} {s : State} {rr : State} (ht : execDay sl s = .next rr) (hs : k.Kept s)
  : k.Kept rr := by
  refine State.run_kept (fun s hs => ?_) hs ht
  try dsimp only
  with_reducible repeat' first
    | assumption | apply State.rollPositions_kept | intro _ _ | split | dsimp only

theorem execPmSecond_kept {k : State} {s : State} {rr : State} (ht : execPmSecond s = .next rr) (hs : k.Kept s) :
  k.Kept rr := by
  refine State.run_kept (fun s hs => ?_) hs ht
  try dsimp only
  with_reducible repeat' first
    | assumption | apply State.pmPositions_kept | intro _ _ | split | dsimp only

/-! ### Tables -/

theorem execLpmRead_kept {k : State} {q : Fin 16} {blk : TableRead} {s : State} {rr : State} (ht : execLpmRead q blk
  s = .next rr) (hs : k.Kept s) : k.Kept rr := by
  refine State.run_kept (fun s hs => ?_) hs ht
  try dsimp only
  with_reducible repeat' first
    | assumption | apply State.tableCmd_kept | intro _ _ | split | dsimp only

theorem execTableNop_kept {k : State} {q : Fin 16} {s : State} {rr : State} (ht : execTableNop q s = .next rr) (hs :
  k.Kept s) : k.Kept rr := by
  refine State.run_kept (fun s hs => ?_) hs ht
  try dsimp only
  with_reducible repeat' first
    | assumption | apply State.tableCmd_kept | intro _ _ | split | dsimp only

theorem execEmRead_kept {k : State} {q : Fin 16} {blk : TableRead} {s : State} {rr : State} (ht : execEmRead q blk s
  = .next rr) (hs : k.Kept s) : k.Kept rr := by
  refine State.run_kept (fun s hs => ?_) hs ht
  try dsimp only
  with_reducible repeat' first
    | assumption | apply State.tableCmd_kept | intro _ _ | split | dsimp only

theorem execBulkMove_kept {k : State} {q : Fin 16} {blk : TableRead} {s : State} {rr : State} (ht : execBulkMove q
  blk s = .next rr) (hs : k.Kept s) : k.Kept rr := by
  refine State.run_kept (fun s hs => ?_) hs ht
  try dsimp only
  with_reducible repeat' first
    | assumption | apply State.tableCmd_kept | intro _ _ | split | dsimp only

theorem execLpmDelete_kept {k : State} {q : Fin 16} {blk : TableRead} {s : State} {rr : State} (ht : execLpmDelete q
  blk s = .next rr) (hs : k.Kept s) : k.Kept rr := by
  refine State.run_kept (fun s hs => ?_) hs ht
  try dsimp only
  with_reducible repeat' first
    | assumption | apply State.tableCmd_kept | intro _ _ | split | dsimp only

theorem execTcamDelete_kept {k : State} {q : Fin 16} {blk : TableRead} {s : State} {rr : State} (ht : execTcamDelete
  q blk s = .next rr) (hs : k.Kept s) : k.Kept rr := by
  refine State.run_kept (fun s hs => ?_) hs ht
  try dsimp only
  with_reducible repeat' first
    | assumption | apply State.tableCmd_kept | intro _ _ | split | dsimp only

theorem execBulkFlush_kept {k : State} {q : Fin 16} {blk : TableRead} {s : State} {rr : State} (ht : execBulkFlush q
  blk s = .next rr) (hs : k.Kept s) : k.Kept rr := by
  refine State.run_kept (fun s hs => ?_) hs ht
  try dsimp only
  with_reducible repeat' first
    | assumption | apply State.tableCmd_kept | intro _ _ | split | dsimp only

theorem execEmUpdate_kept {k : State} {q : Fin 16} {blk : TableRead} {s : State} {rr : State} (ht : execEmUpdate q
  blk s = .next rr) (hs : k.Kept s) : k.Kept rr := by
  refine State.run_kept (fun s hs => ?_) hs ht
  try dsimp only
  with_reducible repeat' first
    | assumption | apply State.tableCmd_kept | intro _ _ | split | dsimp only

theorem execTcamWrite_kept {k : State} {q : Fin 16} {blk : TableRead} {s : State} {rr : State} (ht : execTcamWrite q
  blk s = .next rr) (hs : k.Kept s) : k.Kept rr := by
  refine State.run_kept (fun s hs => ?_) hs ht
  try dsimp only
  with_reducible repeat' first
    | assumption | apply State.tableCmd_kept | intro _ _ | split | dsimp only

theorem execLpmInsert_kept {k : State} {q : Fin 16} {blk : TableRead} {s : State} {rr : State} (ht : execLpmInsert q
  blk s = .next rr) (hs : k.Kept s) : k.Kept rr := by
  refine State.run_kept (fun s hs => ?_) hs ht
  try dsimp only
  with_reducible repeat' first
    | assumption | apply State.tableCmd_kept | intro _ _ | split | dsimp only

theorem execEmDelete_kept {k : State} {q : Fin 16} {blk : TableRead} {s : State} {rr : State} (ht : execEmDelete q
  blk s = .next rr) (hs : k.Kept s) : k.Kept rr := by
  refine State.run_kept (fun s hs => ?_) hs ht
  try dsimp only
  with_reducible repeat' first
    | assumption | apply State.tableCmd_kept | intro _ _ | split | dsimp only

theorem execEmUpsert_kept {k : State} {q : Fin 16} {blk : TableRead} {s : State} {rr : State} (ht : execEmUpsert q
  blk s = .next rr) (hs : k.Kept s) : k.Kept rr := by
  refine State.run_kept (fun s hs => ?_) hs ht
  try dsimp only
  with_reducible repeat' first
    | assumption | apply State.tableCmd_kept | intro _ _ | split | dsimp only

theorem execEmInsert_kept {k : State} {q : Fin 16} {blk : TableRead} {s : State} {rr : State} (ht : execEmInsert q
  blk s = .next rr) (hs : k.Kept s) : k.Kept rr := by
  refine State.run_kept (fun s hs => ?_) hs ht
  try dsimp only
  with_reducible repeat' first
    | assumption | apply State.tableCmd_kept | intro _ _ | split | dsimp only

/-! ### Tick -/

theorem State.kerfCycles_kept {k : State} (s : State) (backlog : Nat) (x2 : List Nat) (hs : k.Kept s) : k.Kept
  (State.kerfCycles s backlog x2) := by
  induction x2 generalizing s backlog with
  | nil =>
    unfold State.kerfCycles
    try dsimp only
    with_reducible repeat' first
      | assumption | apply State.drawn_kept | intro _ _ | split | dsimp only
      | refine State.Kept.mk_same ?_ (by rfl) (by rfl)
  | cons a l ih =>
    unfold State.kerfCycles
    try dsimp only
    with_reducible repeat' first
      | assumption | apply ih | apply State.drawn_kept | intro _ _ | split | dsimp only
      | refine State.Kept.mk_same ?_ (by rfl) (by rfl)

theorem State.deckCycles_kept {k : State} (s : State) (x1 : Nat) (hs : k.Kept s) : k.Kept (State.deckCycles s x1) := by
  unfold State.deckCycles
  try dsimp only
  with_reducible repeat' first
    | assumption | apply State.setDeck_kept | apply State.count64_kept | intro _ _ | split | dsimp only
    | refine State.Kept.mk_same ?_ (by rfl) (by rfl)

theorem State.fireMicros_kept {k : State} (s : State) (hs : k.Kept s) : k.Kept (State.fireMicros s) := by
  unfold State.fireMicros
  try dsimp only
  with_reducible repeat' first
    | assumption | apply State.count64_kept | intro _ _ | split | dsimp only
    | refine State.Kept.mk_same ?_ (by rfl) (by rfl)

theorem State.prbsChecks_kept {k : State} (s : State) (x1 : List Nat) (hs : k.Kept s) : k.Kept (State.prbsChecks s
  x1) := by
  induction x1 generalizing s with
  | nil =>
    unfold State.prbsChecks
    try dsimp only
    with_reducible repeat' first
      | assumption | apply State.drawn_kept | apply State.count64_kept | apply State.setLane_kept | intro _ _ | split
      | dsimp only | refine State.Kept.mk_same ?_ (by rfl) (by rfl)
  | cons a l ih =>
    unfold State.prbsChecks
    try dsimp only
    with_reducible repeat' first
      | assumption | apply ih | apply State.drawn_kept | apply State.count64_kept | apply State.setLane_kept | intro _ _
      | split | dsimp only | refine State.Kept.mk_same ?_ (by rfl) (by rfl)

theorem State.linkEnds_kept {k : State} (s : State) (x1 : List Nat) (hs : k.Kept s) : k.Kept (State.linkEnds s x1) := by
  induction x1 generalizing s with
  | nil =>
    unfold State.linkEnds
    try dsimp only
    with_reducible repeat' first
      | assumption | apply State.setPort_kept | apply State.realign_kept | apply State.drawn_kept | intro _ _ | split
      | dsimp only | refine State.Kept.mk_same ?_ (by rfl) (by rfl)
  | cons a l ih =>
    unfold State.linkEnds
    try dsimp only
    with_reducible repeat' first
      | assumption | apply ih | apply State.setPort_kept | apply State.realign_kept | apply State.drawn_kept | intro _ _
      | split | dsimp only | refine State.Kept.mk_same ?_ (by rfl) (by rfl)

theorem State.pipeCycles_kept {k : State} (s : State) (x1 : Nat) (hs : k.Kept s) : k.Kept (State.pipeCycles s x1) := by
  unfold State.pipeCycles
  try dsimp only
  with_reducible repeat' first
    | assumption | apply State.count64_kept | apply State.setWood_kept | apply State.drawn_kept
    | apply State.kerfCycles_kept | intro _ _ | split | dsimp only | refine State.Kept.mk_same ?_ (by rfl) (by rfl)

theorem State.paceTick_kept {k : State} (s : State) (x1 : Nat) (hs : k.Kept s) : k.Kept (State.paceTick s x1) := by
  unfold State.paceTick
  try dsimp only
  with_reducible repeat' first
    | assumption | apply State.setTally_kept | intro _ _ | split | dsimp only
    | refine State.Kept.mk_same ?_ (by rfl) (by rfl)

theorem State.tickCore_kept {k : State} (s : State) (hs : k.Kept s) : k.Kept (State.tickCore s) := by
  unfold State.tickCore
  try dsimp only
  with_reducible repeat' first
    | assumption | apply State.prbsChecks_kept | apply State.linkEnds_kept | apply State.saveGoes_kept
    | apply State.pipeCycles_kept | apply State.hbmErrs_kept | apply State.deckCycles_kept | apply State.fireMicros_kept
    | apply State.paceTick_kept | intro _ _ | split | dsimp only

theorem State.tick_kept {k : State} (s : State) (hs : k.Kept s) : k.Kept (State.tick s) := by
  unfold State.tick
  extract_lets s1 s2
  have h1 : k.Kept s1 := ⟨hs.1, hs.2, hs.3, hs.4, Nat.le_trans hs.5 (Nat.le_succ _), hs.6⟩
  have h2 : k.Kept s2 := State.tickCore_kept _ h1
  clear_value s1 s2
  split
  · split
    · exact State.enterWipe_kept _ h2
    · exact h2
  · exact h1

end Sys2Proof.Machine
end

