-- ==== Sys2Proof/Laws/SameLines.lean ====
section
/-! SUPPORT. State.Same, one lemma for each function of the state: spans, lanes, counters, deparsing, Raft and ingress. -/

namespace Sys2Proof.Machine

/-! ### SpanOps -/

theorem State.pairRaise_same {fs : Nat} {k : State} (hm : State.Sub 0x8000000010 fs) (s : State) (old : State) (x2 :
  List Nat) (hs : State.Same fs k s) (hold : State.Same fs k old) : State.Same fs k (State.pairRaise s old x2) := by
  induction x2 generalizing s old with
  | nil =>
    unfold State.pairRaise
    try dsimp only
    with_reducible repeat' first
      | assumption | exact State.Sub.of rfl hm | apply State.raiseIf_same | intro _ _ | split | dsimp only
  | cons a l ih =>
    unfold State.pairRaise
    try dsimp only
    with_reducible repeat' first
      | assumption | exact State.Sub.of rfl hm | apply ih | apply State.raiseIf_same | intro _ _ | split | dsimp only

theorem State.conflictRaise_same {fs : Nat} {k : State} (hm : State.Sub 0x8000000010 fs) (s : State) (old : State)
  (x2 : List Nat) (hs : State.Same fs k s) (hold : State.Same fs k old) : State.Same fs k (State.conflictRaise s old
  x2) := by
  induction x2 generalizing s old with
  | nil =>
    unfold State.conflictRaise
    try dsimp only
    with_reducible repeat' first
      | assumption | exact State.Sub.of rfl hm | apply State.raiseIf_same | intro _ _ | split | dsimp only
  | cons a l ih =>
    unfold State.conflictRaise
    try dsimp only
    with_reducible repeat' first
      | assumption | exact State.Sub.of rfl hm | apply ih | apply State.raiseIf_same | intro _ _ | split | dsimp only

theorem State.spanEvents_same {fs : Nat} {k : State} (hm : State.Sub 0x8000000010 fs) (s : State) (old : State) (sl :
  Nat) (hs : State.Same fs k s) (hold : State.Same fs k old) : State.Same fs k (State.spanEvents s old sl) := by
  unfold State.spanEvents
  try dsimp only
  with_reducible repeat' first
    | assumption | exact State.Sub.of rfl hm | apply State.pairRaise_same | apply State.conflictRaise_same | intro _ _
    | split | dsimp only

theorem State.chLose_same {fs : Nat} {k : State} (hm : State.Sub 0x8000000010 fs) (s : State) (q : Nat) (hs :
  State.Same fs k s) : State.Same fs k (State.chLose s q) := by
  unfold State.chLose
  try dsimp only
  with_reducible repeat' first
    | assumption | exact State.Sub.of rfl hm | apply State.count_same | apply State.raise_same | intro _ _ | split
    | dsimp only

theorem State.chTake_same {fs : Nat} {k : State} (hm : State.Sub 0x8000001010 fs) (s : State) (q : Nat) (path : Bool)
  (b : Byte) (hs : State.Same fs k s) : State.Same fs k (State.chTake s q path b) := by
  unfold State.chTake
  try dsimp only
  with_reducible repeat' first
    | assumption | exact State.Sub.of rfl hm | apply State.chLose_same | apply State.setSpan_same | intro _ _ | split
    | dsimp only

theorem State.spanChannels_same {fs : Nat} {k : State} (hm : State.Sub 0x8000001010 fs) (s : State) (q : Nat) (f :
  List Byte) (hs : State.Same fs k s) : State.Same fs k (State.spanChannels s q f) := by
  unfold State.spanChannels
  try dsimp only
  with_reducible repeat' first
    | assumption | exact State.Sub.of rfl hm | apply State.chLose_same | apply State.setSpan_same | apply State.chTake_same
    | intro _ _ | split | dsimp only

theorem State.putSpan_same {fs : Nat} {k : State} (hm : State.Sub 0x1000 fs) (s : State) (q : Nat) (x : SpanS) (hs :
  State.Same fs k s) : State.Same fs k (State.putSpan s q x) := by
  unfold State.putSpan
  try dsimp only
  with_reducible repeat' first
    | assumption | exact State.Sub.of rfl hm | apply State.setSpan_same | intro _ _ | split | dsimp only

theorem State.spanLos_same {fs : Nat} {k : State} (hm : State.Sub 0x8000001010 fs) (s : State) (q : Nat) (hs :
  State.Same fs k s) : State.Same fs k (State.spanLos s q) := by
  unfold State.spanLos
  try dsimp only
  with_reducible repeat' first
    | assumption | exact State.Sub.of rfl hm | apply State.putSpan_same | apply State.raise_same | intro _ _ | split
    | dsimp only

theorem State.spanLom_same {fs : Nat} {k : State} (hm : State.Sub 0x8000001010 fs) (s : State) (q : Nat) (hs :
  State.Same fs k s) : State.Same fs k (State.spanLom s q) := by
  unfold State.spanLom
  try dsimp only
  with_reducible repeat' first
    | assumption | exact State.Sub.of rfl hm | apply State.putSpan_same | apply State.raise_same | intro _ _ | split
    | dsimp only

theorem State.spanLof_same {fs : Nat} {k : State} (hm : State.Sub 0x8000001010 fs) (s : State) (q : Nat) (hs :
  State.Same fs k s) : State.Same fs k (State.spanLof s q) := by
  unfold State.spanLof
  try dsimp only
  with_reducible repeat' first
    | assumption | exact State.Sub.of rfl hm | apply State.putSpan_same | apply State.raise_same | intro _ _ | split
    | dsimp only

theorem State.spanLosClear_same {fs : Nat} {k : State} (hm : State.Sub 0x8000001010 fs) (s : State) (q : Nat) (hs :
  State.Same fs k s) : State.Same fs k (State.spanLosClear s q) := by
  unfold State.spanLosClear
  try dsimp only
  with_reducible repeat' first
    | assumption | exact State.Sub.of rfl hm | apply State.putSpan_same | apply State.raise_same | intro _ _ | split
    | dsimp only

theorem State.spanPayload_same {fs : Nat} {k : State} (hm : State.Sub 0x1010 fs) (s : State) (q : Nat) (area : List
  Byte) (w : Nat) (hs : State.Same fs k s) : State.Same fs k (State.spanPayload s q area w) := by
  unfold State.spanPayload
  try dsimp only
  with_reducible repeat' first
    | assumption | exact State.Sub.of rfl hm | apply State.count64_same | apply State.putSpan_same | apply State.count_same
    | intro _ _ | split | dsimp only

theorem State.spanTrace_same {fs : Nat} {k : State} (hm : State.Sub 0x8000001050 fs) (s : State) (q : Nat) (i : Nat)
  (b : Byte) (hs : State.Same fs k s) : State.Same fs k (State.spanTrace s q i b) := by
  unfold State.spanTrace
  try dsimp only
  with_reducible repeat' first
    | assumption | exact State.Sub.of rfl hm | apply State.raiseIf_same | apply State.setSpan_same
    | apply State.setMemW_same | intro _ _ | split | dsimp only

theorem State.spanCounts_same {fs : Nat} {k : State} (hm : State.Sub 0x1010 fs) (s : State) (q : Nat) (errs : Nat)
  (rei : Nat) (hs : State.Same fs k s) : State.Same fs k (State.spanCounts s q errs rei) := by
  unfold State.spanCounts
  try dsimp only
  with_reducible repeat' first
    | assumption | exact State.Sub.of rfl hm | apply State.count64_same | apply State.setSpan_same | intro _ _ | split
    | dsimp only

theorem State.spanShadow_same {fs : Nat} {k : State} (hm : State.Sub 0x8000001010 fs) (s : State) (q : Nat) (x :
  SpanS) (f : List Byte) (hs : State.Same fs k s) : State.Same fs k (State.spanShadow s q x f) := by
  unfold State.spanShadow
  try dsimp only
  with_reducible repeat' first
    | assumption | exact State.Sub.of rfl hm | apply State.count_same | apply State.raise_same | apply State.putSpan_same
    | intro _ _ | split | dsimp only

theorem State.spanStatus_same {fs : Nat} {k : State} (hm : State.Sub 0x8000001010 fs) (s : State) (q : Nat) (pais :
  Bool) (srdi : Bool) (prdi : Bool) (hs : State.Same fs k s) : State.Same fs k (State.spanStatus s q pais srdi prdi)
  := by
  unfold State.spanStatus
  try dsimp only
  with_reducible repeat' first
    | assumption | exact State.Sub.of rfl hm | apply State.raiseIf_same | apply State.putSpan_same | intro _ _ | split
    | dsimp only

theorem State.spanFrame_same {fs : Nat} {k : State} (hm : State.Sub 0x8000001050 fs) (s : State) (q : Nat) (f : List
  Byte) (hs : State.Same fs k s) : State.Same fs k (State.spanFrame s q f) := by
  unfold State.spanFrame
  extract_lets x par st ps rei x1 status x2 src1 s1 x3 errs x4 s2 x5 s3 src2 s4 s5 s6
  have hst : ∀ t, State.Same fs k t → State.Same fs k (status t) := fun t ht => State.spanStatus_same (.of rfl hm) _ _ _ _ _ ht
  clear_value status
  split
  · exact hst _ (State.spanShadow_same (.of rfl hm) _ _ _ _ hs)
  · split
    · exact State.count_same (.of rfl hm) _ _ _ _ (State.putSpan_same (.of rfl hm) _ _ _ hs)
    · have h2 : State.Same fs k s2 := hst _ (State.spanShadow_same (.of rfl hm) _ _ _ _ hs)
      clear_value s2
      split
      · have h4 : State.Same fs k s4 := State.setSpan_same (.of rfl hm) _ _ _ (State.spanCounts_same (.of rfl hm) _ _ _ _ h2)
        have h5 : State.Same fs k s5 := State.spanTrace_same (.of rfl hm) _ _ _ _ h4
        have h6 : State.Same fs k s6 := by
          dsimp only [s6]; split
          · exact State.spanChannels_same (.of rfl hm) _ _ _ h5
          · exact h5
        exact State.spanPayload_same (.of rfl hm) _ _ _ _ h6
      · exact h2

theorem State.spanTake_same {fs : Nat} {k : State} (hm : State.Sub 0x8000001050 fs) (s : State) (q : Nat) (x2 : Nat)
  (hs : State.Same fs k s) : State.Same fs k (State.spanTake s q x2) := by
  induction x2 generalizing s q with
  | zero =>
    unfold State.spanTake
    try dsimp only
    with_reducible repeat' first
      | assumption | exact State.Sub.of rfl hm | apply State.setSpan_same | apply State.spanFrame_same
      | apply State.putSpan_same | apply State.count_same | intro _ _ | split | dsimp only
  | succ n ih =>
    unfold State.spanTake
    try dsimp only
    with_reducible repeat' first
      | assumption | exact State.Sub.of rfl hm | apply ih | apply State.setSpan_same | apply State.spanFrame_same
      | apply State.putSpan_same | apply State.count_same | intro _ _ | split | dsimp only

theorem State.spanReceive_same {fs : Nat} {k : State} (hm : State.Sub 0x8000001050 fs) (s : State) (q : Nat) (bs :
  List Byte) (hs : State.Same fs k s) : State.Same fs k (State.spanReceive s q bs) := by
  unfold State.spanReceive
  try dsimp only
  with_reducible repeat' first
    | assumption | exact State.Sub.of rfl hm | apply State.spanTake_same | apply State.setSpan_same | intro _ _ | split
    | dsimp only

theorem State.chSend_same {fs : Nat} {k : State} (hm : State.Sub 0x1000 fs) (s : State) (q : Nat) (path : Bool) (hs :
  State.Same fs k s) : State.Same fs k (State.chSend s q path).2 := by
  unfold State.chSend
  dsimp only
  repeat' split
  all_goals first | exact hs | exact State.setSpan_same (.of rfl hm) _ _ _ hs

theorem State.chSend_same_eq {fs : Nat} {k : State} (hm : State.Sub 0x1000 fs) {s : State} {q : Nat} {path : Bool}
  {ra rb} (ht : State.chSend s q path = (ra, rb)) (hs : State.Same fs k s) : State.Same fs k rb := by
  have := State.chSend_same (k := k) hm s q path hs
  rw [ht] at this
  exact this

theorem State.spanSend_same {fs : Nat} {k : State} (hm : State.Sub 0x1018 fs) (s : State) (q : Nat) (hs : State.Same
  fs k s) : State.Same fs k (State.spanSend s q) := by
  unfold State.spanSend
  try dsimp only
  with_reducible repeat' first
    | assumption | exact State.Sub.of rfl hm | apply State.count64_same | apply State.setRf_same
    | apply State.transmit_same | apply State.setSpan_same | apply State.chSend_same
    | refine State.chSend_same_eq ?_ (by assumption) ?_ | intro _ _ | split | dsimp only

/-! ### LaneOps -/

theorem State.pfcSlice_same {fs : Nat} {k : State} (hm : State.Sub 0x8002000010 fs) (s : State) (x1 : List Nat) (hs :
  State.Same fs k s) : State.Same fs k (State.pfcSlice s x1) := by
  induction x1 generalizing s with
  | nil =>
    unfold State.pfcSlice
    try dsimp only
    with_reducible repeat' first
      | assumption | exact State.Sub.of rfl hm | apply State.pfcEvalAll_same | intro _ _ | split | dsimp only
  | cons a l ih =>
    unfold State.pfcSlice
    try dsimp only
    with_reducible repeat' first
      | assumption | exact State.Sub.of rfl hm | apply ih | apply State.pfcEvalAll_same | intro _ _ | split | dsimp only

theorem State.completeRoot_same {fs : Nat} {k : State} (hm : State.Sub 0x831e002050 fs) (s : State) (root : Nat)
  (data : List Byte) (reason : Nat) (hs : State.Same fs k s) : State.Same fs k (State.completeRoot s root data
  reason) := by
  unfold State.completeRoot
  try dsimp only
  with_reducible repeat' first
    | assumption | exact State.Sub.of rfl hm | apply State.lateDue_same | apply State.settleRoot_same
    | apply State.pfcSlice_same | intro _ _ | split | dsimp only | refine State.Same.upd_2000 ?_ ?_

theorem State.rxAbort_same {fs : Nat} {k : State} (hm : State.Sub 0x831e002850 fs) (s : State) (p : Nat) (hs :
  State.Same fs k s) : State.Same fs k (State.rxAbort s p) := by
  unfold State.rxAbort
  try dsimp only
  with_reducible repeat' first
    | assumption | exact State.Sub.of rfl hm | apply State.accountEarly_same | apply State.completeRoot_same
    | apply State.count64_same | apply State.setPort_same | intro _ _ | split | dsimp only

theorem State.laneDrift_same {fs : Nat} {k : State} (hm : State.Sub 0x204 fs) (s : State) (l : Nat) (hs : State.Same
  fs k s) : State.Same fs k (State.laneDrift s l) := by
  unfold State.laneDrift
  try dsimp only
  with_reducible repeat' first
    | assumption | exact State.Sub.of rfl hm | apply State.setLane_same | apply State.drawn_same | intro _ _ | split
    | dsimp only

theorem State.lanesDrift_same {fs : Nat} {k : State} (hm : State.Sub 0x204 fs) (s : State) (x1 : List Nat) (hs :
  State.Same fs k s) : State.Same fs k (State.lanesDrift s x1) := by
  induction x1 generalizing s with
  | nil =>
    unfold State.lanesDrift
    try dsimp only
    with_reducible repeat' first
      | assumption | exact State.Sub.of rfl hm | apply State.laneDrift_same | intro _ _ | split | dsimp only
  | cons a l ih =>
    unfold State.lanesDrift
    try dsimp only
    with_reducible repeat' first
      | assumption | exact State.Sub.of rfl hm | apply ih | apply State.laneDrift_same | intro _ _ | split | dsimp only

theorem State.pllApply_same {fs : Nat} {k : State} (hm : State.Sub 0x400 fs) (s : State) (m : Nat) (x2 : Nat) (hs :
  State.Same fs k s) : State.Same fs k (State.pllApply s m x2) := by
  unfold State.pllApply
  try dsimp only
  with_reducible repeat' first
    | assumption | exact State.Sub.of rfl hm | apply State.setMacro_same | intro _ _ | split | dsimp only

theorem State.linkFall_same {fs : Nat} {k : State} (hm : State.Sub 0xdb1fecb858 fs) (s : State) (p : Nat) (en : Bool)
  (hs : State.Same fs k s) : State.Same fs k (State.linkFall s p en) := by
  unfold State.linkFall
  try dsimp only
  with_reducible repeat' first
    | assumption | exact State.Sub.of rfl hm | apply State.queuesOff_same | apply State.queuesFall_same
    | apply State.nbrDown_same | apply State.helloForget_same | apply State.rxAbort_same | apply State.count_same
    | apply State.raise_same | apply State.setPort_same | intro _ _ | split | dsimp only

theorem State.laneCtle_same {fs : Nat} {k : State} (hm : State.Sub 0x200 fs) (s : State) (l : Nat) (hs : State.Same
  fs k s) : State.Same fs k (State.laneCtle s l) := by
  unfold State.laneCtle
  try dsimp only
  with_reducible repeat' first
    | assumption | exact State.Sub.of rfl hm | apply State.setLane_same | intro _ _ | split | dsimp only

theorem State.histOff_same {fs : Nat} {k : State} (hm : State.Sub 0x20000000000 fs) (s : State) (old : State) (p :
  Nat) (hs : State.Same fs k s) : State.Same fs k (State.histOff s old p) := by
  unfold State.histOff
  try dsimp only
  with_reducible repeat' first
    | assumption | exact State.Sub.of rfl hm | intro _ _ | split | dsimp only | refine State.Same.upd_20000000000 ?_ ?_

theorem State.rxCount_same {fs : Nat} {k : State} (hm : State.Sub 0x10 fs) (s : State) (p : Nat) (reason : Nat) (len
  : Nat) (hs : State.Same fs k s) : State.Same fs k (State.rxCount s p reason len) := by
  unfold State.rxCount
  try dsimp only
  with_reducible repeat' first
    | assumption | exact State.Sub.of rfl hm | apply State.count64_same | intro _ _ | split | dsimp only

theorem State.spanRxCount_same {fs : Nat} {k : State} (hm : State.Sub 0x10 fs) (s : State) (q : Nat) (reason : Nat)
  (len : Nat) (hs : State.Same fs k s) : State.Same fs k (State.spanRxCount s q reason len) := by
  unfold State.spanRxCount
  try dsimp only
  with_reducible repeat' first
    | assumption | exact State.Sub.of rfl hm | apply State.rxCount_same | apply State.count64_same | intro _ _ | split
    | dsimp only

theorem State.spanDiscard_same {fs : Nat} {k : State} (hm : State.Sub 0x931e002050 fs) (s : State) (q : Nat) (x2 :
  SpanPkt) (reason : Nat) (hs : State.Same fs k s) : State.Same fs k (State.spanDiscard s q x2 reason) := by
  unfold State.spanDiscard
  try dsimp only
  with_reducible repeat' first
    | assumption | exact State.Sub.of rfl hm | apply State.accountEarly_same | apply State.completeRoot_same
    | apply State.bwAdd_same | apply State.spanRxCount_same | intro _ _ | split | dsimp only

theorem State.spanFlush_same {fs : Nat} {k : State} (hm : State.Sub 0x931e002050 fs) (s : State) (q : Nat) (x2 : List
  SpanPkt) (hs : State.Same fs k s) : State.Same fs k (State.spanFlush s q x2) := by
  induction x2 generalizing s q with
  | nil =>
    unfold State.spanFlush
    try dsimp only
    with_reducible repeat' first
      | assumption | exact State.Sub.of rfl hm | apply State.spanDiscard_same | intro _ _ | split | dsimp only
  | cons a l ih =>
    unfold State.spanFlush
    try dsimp only
    with_reducible repeat' first
      | assumption | exact State.Sub.of rfl hm | apply ih | apply State.spanDiscard_same | intro _ _ | split | dsimp only

theorem State.spanStart_same {fs : Nat} {k : State} (hm : State.Sub 0x2931e003050 fs) (s : State) (old : State) (p :
  Nat) (on : Bool) (hs : State.Same fs k s) (hold : State.Same fs k old) : State.Same fs k (State.spanStart s old p
  on) := by
  unfold State.spanStart
  try dsimp only
  with_reducible repeat' first
    | assumption | exact State.Sub.of rfl hm | apply State.histOff_same | apply State.spanEvents_same
    | apply State.setSpan_same | apply State.putSpan_same | apply State.raiseIf_same | apply State.spanFlush_same
    | apply State.markSuspect_same | intro _ _ | split | dsimp only

theorem State.lanesSave_same {fs : Nat} {k : State} (hm : State.Sub 0x204 fs) (s : State) (x1 : List Nat) (hs :
  State.Same fs k s) : State.Same fs k (State.lanesSave s x1) := by
  induction x1 generalizing s with
  | nil =>
    unfold State.lanesSave
    try dsimp only
    with_reducible repeat' first
      | assumption | exact State.Sub.of rfl hm | apply State.setLane_same | apply State.laneDrift_same | intro _ _ | split
      | dsimp only
  | cons a l ih =>
    unfold State.lanesSave
    try dsimp only
    with_reducible repeat' first
      | assumption | exact State.Sub.of rfl hm | apply ih | apply State.setLane_same | apply State.laneDrift_same
      | intro _ _ | split | dsimp only

theorem State.recalLive_same {fs : Nat} {k : State} (hm : State.Sub 0xa04 fs) (s : State) (p : Nat) (hs : State.Same
  fs k s) : State.Same fs k (State.recalLive s p) := by
  unfold State.recalLive
  try dsimp only
  with_reducible repeat' first
    | assumption | exact State.Sub.of rfl hm | apply State.setPort_same | apply State.lanesSave_same | intro _ _ | split
    | dsimp only

theorem State.localOnset_same {fs : Nat} {k : State} (hm : State.Sub 0x8000000810 fs) (s : State) (p : Nat) (hs :
  State.Same fs k s) : State.Same fs k (State.localOnset s p) := by
  unfold State.localOnset
  try dsimp only
  with_reducible repeat' first
    | assumption | exact State.Sub.of rfl hm | apply State.count_same | apply State.raise_same | apply State.setPort_same
    | intro _ _ | split | dsimp only

theorem State.loseAlign_same {fs : Nat} {k : State} (hm : State.Sub 0xdb1fecb858 fs) (s : State) (p : Nat) (hs :
  State.Same fs k s) : State.Same fs k (State.loseAlign s p) := by
  unfold State.loseAlign
  try dsimp only
  with_reducible repeat' first
    | assumption | exact State.Sub.of rfl hm | apply State.localOnset_same | apply State.linkFall_same
    | apply State.spanLos_same | apply State.setPort_same | intro _ _ | split | dsimp only

theorem State.adopt_same {fs : Nat} {k : State} (hm : State.Sub 0x8000000210 fs) (s : State) (l : Nat) (hs :
  State.Same fs k s) : State.Same fs k (State.adopt s l) := by
  unfold State.adopt
  try dsimp only
  with_reducible repeat' first
    | assumption | exact State.Sub.of rfl hm | apply State.setLane_same | apply State.raise_same | intro _ _ | split
    | dsimp only

theorem State.laneWake_same {fs : Nat} {k : State} (hm : State.Sub 0x8000000210 fs) (s : State) (l : Nat) (hs :
  State.Same fs k s) : State.Same fs k (State.laneWake s l) := by
  unfold State.laneWake
  try dsimp only
  with_reducible repeat' first
    | assumption | exact State.Sub.of rfl hm | apply State.setLane_same | apply State.laneCtle_same
    | apply State.adopt_same | intro _ _ | split | dsimp only

theorem State.laneRestart_same {fs : Nat} {k : State} (hm : State.Sub 0x8000000214 fs) (s : State) (l : Nat) (hs :
  State.Same fs k s) : State.Same fs k (State.laneRestart s l) := by
  unfold State.laneRestart
  try dsimp only
  with_reducible repeat' first
    | assumption | exact State.Sub.of rfl hm | apply State.setLane_same | apply State.laneCtle_same
    | apply State.laneDrift_same | apply State.adopt_same | apply State.laneWake_same | intro _ _ | split | dsimp only

theorem State.lanesRestart_same {fs : Nat} {k : State} (hm : State.Sub 0x8000000214 fs) (s : State) (x1 : List Nat)
  (hs : State.Same fs k s) : State.Same fs k (State.lanesRestart s x1) := by
  induction x1 generalizing s with
  | nil =>
    unfold State.lanesRestart
    try dsimp only
    with_reducible repeat' first
      | assumption | exact State.Sub.of rfl hm | apply State.laneRestart_same | intro _ _ | split | dsimp only
  | cons a l ih =>
    unfold State.lanesRestart
    try dsimp only
    with_reducible repeat' first
      | assumption | exact State.Sub.of rfl hm | apply ih | apply State.laneRestart_same | intro _ _ | split | dsimp only

theorem State.laneRetrained_same {fs : Nat} {k : State} (hm : State.Sub 0x204 fs) (s : State) (l : Nat) (hs :
  State.Same fs k s) : State.Same fs k (State.laneRetrained s l) := by
  unfold State.laneRetrained
  try dsimp only
  with_reducible repeat' first
    | assumption | exact State.Sub.of rfl hm | apply State.drawn_same | apply State.setLane_same | intro _ _ | split
    | dsimp only

theorem State.lanesRetrained_same {fs : Nat} {k : State} (hm : State.Sub 0x204 fs) (s : State) (x1 : List Nat) (hs :
  State.Same fs k s) : State.Same fs k (State.lanesRetrained s x1) := by
  induction x1 generalizing s with
  | nil =>
    unfold State.lanesRetrained
    try dsimp only
    with_reducible repeat' first
      | assumption | exact State.Sub.of rfl hm | apply State.laneRetrained_same | intro _ _ | split | dsimp only
  | cons a l ih =>
    unfold State.lanesRetrained
    try dsimp only
    with_reducible repeat' first
      | assumption | exact State.Sub.of rfl hm | apply ih | apply State.laneRetrained_same | intro _ _ | split | dsimp only

theorem State.liveEnd_same {fs : Nat} {k : State} (hm : State.Sub 0xa04 fs) (s : State) (p : Nat) (hs : State.Same fs
  k s) : State.Same fs k (State.liveEnd s p) := by
  unfold State.liveEnd
  try dsimp only
  with_reducible repeat' first
    | assumption | exact State.Sub.of rfl hm | apply State.setPort_same | apply State.lanesRetrained_same | intro _ _
    | split | dsimp only

theorem State.recalFull_same {fs : Nat} {k : State} (hm : State.Sub 0xdb1fecba5c fs) (s : State) (p : Nat) (hs :
  State.Same fs k s) : State.Same fs k (State.recalFull s p) := by
  unfold State.recalFull
  try dsimp only
  with_reducible repeat' first
    | assumption | exact State.Sub.of rfl hm | apply State.setPort_same | apply State.loseAlign_same
    | apply State.lanesRestart_same | apply State.liveEnd_same | intro _ _ | split | dsimp only

theorem State.laneOff_same {fs : Nat} {k : State} (hm : State.Sub 0x204 fs) (s : State) (l : Nat) (hs : State.Same fs
  k s) : State.Same fs k (State.laneOff s l) := by
  unfold State.laneOff
  try dsimp only
  with_reducible repeat' first
    | assumption | exact State.Sub.of rfl hm | apply State.setLane_same | apply State.laneDrift_same | intro _ _ | split
    | dsimp only

theorem State.lanesOff_same {fs : Nat} {k : State} (hm : State.Sub 0x204 fs) (s : State) (x1 : List Nat) (hs :
  State.Same fs k s) : State.Same fs k (State.lanesOff s x1) := by
  induction x1 generalizing s with
  | nil =>
    unfold State.lanesOff
    try dsimp only
    with_reducible repeat' first
      | assumption | exact State.Sub.of rfl hm | apply State.laneOff_same | intro _ _ | split | dsimp only
  | cons a l ih =>
    unfold State.lanesOff
    try dsimp only
    with_reducible repeat' first
      | assumption | exact State.Sub.of rfl hm | apply ih | apply State.laneOff_same | intro _ _ | split | dsimp only

theorem State.recalCut_same {fs : Nat} {k : State} (hm : State.Sub 0x8000000a14 fs) (s : State) (p : Nat) (hs :
  State.Same fs k s) : State.Same fs k (State.recalCut s p) := by
  unfold State.recalCut
  try dsimp only
  with_reducible repeat' first
    | assumption | exact State.Sub.of rfl hm | apply State.setPort_same | apply State.raise_same | apply State.liveEnd_same
    | intro _ _ | split | dsimp only

theorem State.stopPort_same {fs : Nat} {k : State} (hm : State.Sub 0xdb1fecbe5c fs) (s : State) (p : Nat) (hs :
  State.Same fs k s) : State.Same fs k (State.stopPort s p) := by
  unfold State.stopPort
  try dsimp only
  with_reducible repeat' first
    | assumption | exact State.Sub.of rfl hm | apply State.pllApply_same | apply State.setPort_same
    | apply State.linkFall_same | apply State.lanesOff_same | apply State.rxAbort_same | apply State.recalCut_same
    | intro _ _ | split | dsimp only

theorem State.rejectCfg_same {fs : Nat} {k : State} (hm : State.Sub 0x8000000810 fs) (s : State) (p : Nat) (code :
  Nat) (hs : State.Same fs k s) : State.Same fs k (State.rejectCfg s p code) := by
  unfold State.rejectCfg
  try dsimp only
  with_reducible repeat' first
    | assumption | exact State.Sub.of rfl hm | apply State.setPort_same | apply State.raise_same | intro _ _ | split
    | dsimp only

theorem State.recalDrop_same {fs : Nat} {k : State} (hm : State.Sub 0xa04 fs) (s : State) (p : Nat) (hs : State.Same
  fs k s) : State.Same fs k (State.recalDrop s p) := by
  unfold State.recalDrop
  try dsimp only
  with_reducible repeat' first
    | assumption | exact State.Sub.of rfl hm | apply State.setPort_same | apply State.liveEnd_same | intro _ _ | split
    | dsimp only

theorem State.resetPort_same {fs : Nat} {k : State} (hm : State.Sub 0xdb1fecbe5c fs) (s : State) (p : Nat) (hs :
  State.Same fs k s) : State.Same fs k (State.resetPort s p) := by
  unfold State.resetPort
  try dsimp only
  with_reducible repeat' first
    | assumption | exact State.Sub.of rfl hm | apply State.stopPort_same | apply State.rejectCfg_same
    | apply State.setRf_same | apply State.pllApply_same | apply State.lanesRestart_same | apply State.localOnset_same
    | apply State.lanesOff_same | apply State.setPort_same | apply State.rxAbort_same | apply State.linkFall_same
    | apply State.recalDrop_same | intro _ _ | split | dsimp only

theorem State.laneZero_same {fs : Nat} {k : State} (hm : State.Sub 0x200 fs) (s : State) (l : Nat) (hs : State.Same
  fs k s) : State.Same fs k (State.laneZero s l) := by
  unfold State.laneZero
  try dsimp only
  with_reducible repeat' first
    | assumption | exact State.Sub.of rfl hm | apply State.setLane_same | intro _ _ | split | dsimp only

theorem State.lanesZero_same {fs : Nat} {k : State} (hm : State.Sub 0x200 fs) (s : State) (x1 : List Nat) (hs :
  State.Same fs k s) : State.Same fs k (State.lanesZero s x1) := by
  induction x1 generalizing s with
  | nil =>
    unfold State.lanesZero
    try dsimp only
    with_reducible repeat' first
      | assumption | exact State.Sub.of rfl hm | apply State.laneZero_same | intro _ _ | split | dsimp only
  | cons a l ih =>
    unfold State.lanesZero
    try dsimp only
    with_reducible repeat' first
      | assumption | exact State.Sub.of rfl hm | apply ih | apply State.laneZero_same | intro _ _ | split | dsimp only

theorem State.lanesStandby_same {fs : Nat} {k : State} (hm : State.Sub 0x204 fs) (s : State) (x1 : List Nat) (hs :
  State.Same fs k s) : State.Same fs k (State.lanesStandby s x1) := by
  induction x1 generalizing s with
  | nil =>
    unfold State.lanesStandby
    try dsimp only
    with_reducible repeat' first
      | assumption | exact State.Sub.of rfl hm | apply State.setLane_same | apply State.laneDrift_same | intro _ _ | split
      | dsimp only
  | cons a l ih =>
    unfold State.lanesStandby
    try dsimp only
    with_reducible repeat' first
      | assumption | exact State.Sub.of rfl hm | apply ih | apply State.setLane_same | apply State.laneDrift_same
      | intro _ _ | split | dsimp only

theorem State.lanesResume_same {fs : Nat} {k : State} (hm : State.Sub 0x8000000210 fs) (s : State) (x1 : List Nat)
  (hs : State.Same fs k s) : State.Same fs k (State.lanesResume s x1) := by
  induction x1 generalizing s with
  | nil =>
    unfold State.lanesResume
    try dsimp only
    with_reducible repeat' first
      | assumption | exact State.Sub.of rfl hm | apply State.laneWake_same | apply State.setLane_same | intro _ _ | split
      | dsimp only
  | cons a l ih =>
    unfold State.lanesResume
    try dsimp only
    with_reducible repeat' first
      | assumption | exact State.Sub.of rfl hm | apply ih | apply State.laneWake_same | apply State.setLane_same
      | intro _ _ | split | dsimp only

theorem State.realign_same {fs : Nat} {k : State} (hm : State.Sub 0x800 fs) (s : State) (p : Nat) (hs : State.Same fs
  k s) : State.Same fs k (State.realign s p) := by
  unfold State.realign
  try dsimp only
  with_reducible repeat' first
    | assumption | exact State.Sub.of rfl hm | apply State.setPort_same | intro _ _ | split | dsimp only

theorem State.powerPort_same {fs : Nat} {k : State} (hm : State.Sub 0xdb1fecba5c fs) (s : State) (p : Nat) (pwr :
  Nat) (hs : State.Same fs k s) : State.Same fs k (State.powerPort s p pwr) := by
  unfold State.powerPort
  try dsimp only
  with_reducible repeat' first
    | assumption | exact State.Sub.of rfl hm | apply State.lanesOff_same | apply State.lanesZero_same
    | apply State.lanesStandby_same | apply State.rxAbort_same | apply State.linkFall_same | apply State.spanLos_same
    | apply State.setPort_same | apply State.localOnset_same | apply State.lanesResume_same | apply State.realign_same
    | apply State.recalCut_same | intro _ _ | split | dsimp only

theorem State.lanesWake_same {fs : Nat} {k : State} (hm : State.Sub 0x8000000210 fs) (s : State) (x1 : List Nat) (hs
  : State.Same fs k s) : State.Same fs k (State.lanesWake s x1) := by
  induction x1 generalizing s with
  | nil =>
    unfold State.lanesWake
    try dsimp only
    with_reducible repeat' first
      | assumption | exact State.Sub.of rfl hm | apply State.laneWake_same | intro _ _ | split | dsimp only
  | cons a l ih =>
    unfold State.lanesWake
    try dsimp only
    with_reducible repeat' first
      | assumption | exact State.Sub.of rfl hm | apply ih | apply State.laneWake_same | intro _ _ | split | dsimp only

theorem State.enablePort_same {fs : Nat} {k : State} (hm : State.Sub 0x8000000a10 fs) (s : State) (p : Nat) (hs :
  State.Same fs k s) : State.Same fs k (State.enablePort s p) := by
  unfold State.enablePort
  try dsimp only
  with_reducible repeat' first
    | assumption | exact State.Sub.of rfl hm | apply State.setRf_same | apply State.rejectCfg_same
    | apply State.lanesWake_same | apply State.localOnset_same | apply State.setPort_same | intro _ _ | split | dsimp only

theorem State.portCtrlWrite_same {fs : Nat} {k : State} (hm : State.Sub 0x2db1fecbe5c fs) (s : State) (p : Nat) (v :
  Word) (hs : State.Same fs k s) : State.Same fs k (State.portCtrlWrite s p v) := by
  unfold State.portCtrlWrite
  extract_lets was old s1 pwr s2 s3 src s4 s5
  have h1 : State.Same fs k s1 := State.setReg_same (.of rfl hm) _ _ _ _ hs
  have h2 : State.Same fs k s2 := by
    dsimp only [s2]
    split
    · exact State.enablePort_same (.of rfl hm) _ _ h1
    · split
      · exact State.stopPort_same (.of rfl hm) _ _ h1
      · split
        · exact State.powerPort_same (.of rfl hm) _ _ _ h1
        · exact h1
  clear_value s1 s2
  have h3 : State.Same fs k s3 := by
    dsimp only [s3]; split
    · exact State.linkFall_same (.of rfl hm) _ _ _ h2
    · exact h2
  clear_value s3
  have h4 : State.Same fs k s4 := by
    dsimp only [s4]; split
    · exact State.setPort_same (.of rfl hm) _ _ _ h3
    · exact h3
  clear_value s4
  have h5 : State.Same fs k s5 := by
    dsimp only [s5]; split
    · exact h4
    · split
      · exact State.resetPort_same (.of rfl hm) _ _ h4
      · split
        · exact State.recalFull_same (.of rfl hm) _ _ h4
        · split
          · exact State.recalLive_same (.of rfl hm) _ _ h4
          · exact h4
  clear_value s5
  split
  · exact State.spanStart_same (.of rfl hm) _ _ _ _ h5 hs
  · exact h5

theorem State.settleSpan_same {fs : Nat} {k : State} (hm : State.Sub 0xdb1fecb858 fs) (s : State) (q : Nat) (hs :
  State.Same fs k s) : State.Same fs k (State.settleSpan s q) := by
  unfold State.settleSpan
  try dsimp only
  with_reducible repeat' first
    | assumption | exact State.Sub.of rfl hm | apply State.linkFall_same | apply State.count_same | apply State.raise_same
    | apply State.localOnset_same | apply State.setPort_same | intro _ _ | split | dsimp only

theorem State.recalFullCheck_same {fs : Nat} {k : State} (hm : State.Sub 0x8000000810 fs) (s : State) (p : Nat) (hs :
  State.Same fs k s) : State.Same fs k (State.recalFullCheck s p) := by
  unfold State.recalFullCheck
  try dsimp only
  with_reducible repeat' first
    | assumption | exact State.Sub.of rfl hm | apply State.setPort_same | apply State.raise_same | intro _ _ | split
    | dsimp only

theorem State.laneUp_same {fs : Nat} {k : State} (hm : State.Sub 0x8000000810 fs) (s : State) (l : Nat) (hs :
  State.Same fs k s) : State.Same fs k (State.laneUp s l) := by
  unfold State.laneUp
  try dsimp only
  with_reducible repeat' first
    | assumption | exact State.Sub.of rfl hm | apply State.recalFullCheck_same | apply State.realign_same | intro _ _
    | split | dsimp only

theorem State.laneLost_same {fs : Nat} {k : State} (hm : State.Sub 0xdb1fecba5c fs) (s : State) (l : Nat) (hs :
  State.Same fs k s) : State.Same fs k (State.laneLost s l) := by
  unfold State.laneLost
  try dsimp only
  with_reducible repeat' first
    | assumption | exact State.Sub.of rfl hm | apply State.setLane_same | apply State.loseAlign_same
    | apply State.laneDrift_same | apply State.recalCut_same | intro _ _ | split | dsimp only

theorem State.lanesRevert_same {fs : Nat} {k : State} (hm : State.Sub 0x200 fs) (s : State) (x1 : List Nat) (hs :
  State.Same fs k s) : State.Same fs k (State.lanesRevert s x1) := by
  induction x1 generalizing s with
  | nil =>
    unfold State.lanesRevert
    try dsimp only
    with_reducible repeat' first
      | assumption | exact State.Sub.of rfl hm | apply State.setLane_same | intro _ _ | split | dsimp only
  | cons a l ih =>
    unfold State.lanesRevert
    try dsimp only
    with_reducible repeat' first
      | assumption | exact State.Sub.of rfl hm | apply ih | apply State.setLane_same | intro _ _ | split | dsimp only

/-! ### CruiserOps -/

theorem State.tdLoad_same {fs : Nat} {k : State} (hm : State.Sub 0x1000000000 fs) (s : State) (e : Nat) (c : Nat) (v
  : Nat) (hs : State.Same fs k s) : State.Same fs k (State.tdLoad s e c v) := by
  unfold State.tdLoad
  try dsimp only
  with_reducible repeat' first
    | assumption | exact State.Sub.of rfl hm | intro _ _ | split | dsimp only | refine State.Same.upd_1000000000 ?_ ?_

/-! ### Cruiser -/

theorem State.setCruiser_same {fs : Nat} {k : State} (hm : State.Sub 0x1000000000 fs) (s : State) (c : CruiserS) (hs
  : State.Same fs k s) : State.Same fs k (State.setCruiser s c) := by
  unfold State.setCruiser
  try dsimp only
  with_reducible repeat' first
    | assumption | exact State.Sub.of rfl hm | intro _ _ | split | dsimp only | refine State.Same.upd_1000000000 ?_ ?_

theorem State.winWrite_same {fs : Nat} {k : State} (hm : State.Sub 0x1000000010 fs) (s : State) (x1 : Nat) (hs :
  State.Same fs k s) : State.Same fs k (State.winWrite s x1) := by
  unfold State.winWrite
  try dsimp only
  with_reducible repeat' first
    | assumption | exact State.Sub.of rfl hm | apply State.setCruiser_same | apply State.setRf_same | intro _ _ | split
    | dsimp only

theorem State.pkClr_same {fs : Nat} {k : State} (hm : State.Sub 0x1000000000 fs) (s : State) (hs : State.Same fs k s)
  : State.Same fs k (State.pkClr s) := by
  unfold State.pkClr
  try dsimp only
  with_reducible repeat' first
    | assumption | exact State.Sub.of rfl hm | apply State.setCruiser_same | intro _ _ | split | dsimp only

theorem State.crBwWrite_same {fs : Nat} {k : State} (hm : State.Sub 0x1000000010 fs) (s : State) (v : Word) (hs :
  State.Same fs k s) : State.Same fs k (State.crBwWrite s v) := by
  unfold State.crBwWrite
  try dsimp only
  with_reducible repeat' first
    | assumption | exact State.Sub.of rfl hm | apply State.winWrite_same | apply State.pkClr_same | intro _ _ | split
    | dsimp only

theorem State.snapReject_same {fs : Nat} {k : State} (hm : State.Sub 0x9000000010 fs) (s : State) (why : Nat) (hs :
  State.Same fs k s) : State.Same fs k (State.snapReject s why) := by
  unfold State.snapReject
  try dsimp only
  with_reducible repeat' first
    | assumption | exact State.Sub.of rfl hm | apply State.setCruiser_same | apply State.count_same
    | apply State.raise_same | intro _ _ | split | dsimp only

theorem State.snapReq_same {fs : Nat} {k : State} (hm : State.Sub 0x9000000010 fs) (s : State) (hs : State.Same fs k
  s) : State.Same fs k (State.snapReq s) := by
  unfold State.snapReq
  try dsimp only
  with_reducible repeat' first
    | assumption | exact State.Sub.of rfl hm | apply State.setCruiser_same | apply State.snapReject_same | intro _ _
    | split | dsimp only

theorem State.snapStop_same {fs : Nat} {k : State} (hm : State.Sub 0x1000000000 fs) (s : State) (hs : State.Same fs k
  s) : State.Same fs k (State.snapStop s) := by
  unfold State.snapStop
  try dsimp only
  with_reducible repeat' first
    | assumption | exact State.Sub.of rfl hm | apply State.setCruiser_same | intro _ _ | split | dsimp only

theorem State.crCtrlWrite_same {fs : Nat} {k : State} (hm : State.Sub 0x9000000010 fs) (s : State) (v : Word) (hs :
  State.Same fs k s) : State.Same fs k (State.crCtrlWrite s v) := by
  unfold State.crCtrlWrite
  try dsimp only
  with_reducible repeat' first
    | assumption | exact State.Sub.of rfl hm | apply State.snapReq_same | apply State.snapStop_same
    | apply State.setRf_same | intro _ _ | split | dsimp only

theorem State.snapEnd_same {fs : Nat} {k : State} (hm : State.Sub 0x9000000010 fs) (s : State) (hs : State.Same fs k
  s) : State.Same fs k (State.snapEnd s) := by
  unfold State.snapEnd
  try dsimp only
  with_reducible repeat' first
    | assumption | exact State.Sub.of rfl hm | apply State.count_same | apply State.raise_same
    | apply State.setCruiser_same | apply State.setReg_same | intro _ _ | split | dsimp only

theorem State.bwEnd_same {fs : Nat} {k : State} (hm : State.Sub 0x1000000000 fs) (s : State) (hs : State.Same fs k s)
  : State.Same fs k (State.bwEnd s) := by
  unfold State.bwEnd
  try dsimp only
  with_reducible repeat' first
    | assumption | exact State.Sub.of rfl hm | apply State.setCruiser_same | intro _ _ | split | dsimp only

theorem State.capture_same {fs : Nat} {k : State} (hm : State.Sub 0x9000000010 fs) (s : State) (hs : State.Same fs k
  s) : State.Same fs k (State.capture s) := by
  unfold State.capture
  try dsimp only
  with_reducible repeat' first
    | assumption | exact State.Sub.of rfl hm | apply State.count_same | apply State.raise_same
    | apply State.setCruiser_same | intro _ _ | split | dsimp only

theorem State.snapNotice_same {fs : Nat} {k : State} (hm : State.Sub 0x800000018 fs) (s : State) (ws : List Word) (hs
  : State.Same fs k s) : State.Same fs k (State.snapNotice s ws) := by
  unfold State.snapNotice
  try dsimp only
  with_reducible repeat' first
    | assumption | exact State.Sub.of rfl hm | apply State.noticeLost_same
    | refine State.putNotice_same ?_ (by assumption) ?_ | intro _ _ | split | dsimp only

theorem State.hbmWords_same {fs : Nat} {k : State} (hm : State.Sub 0x40 fs) (s : State) (x1 : Nat) (a : Nat) (ws :
  List Word) (hs : State.Same fs k s) : State.Same fs k (State.hbmWords s x1 a ws) := by
  unfold State.hbmWords
  try dsimp only
  with_reducible repeat' first
    | assumption | exact State.Sub.of rfl hm | apply State.setMemWs_same | intro _ _ | split | dsimp only

theorem State.partDone_same {fs : Nat} {k : State} (hm : State.Sub 0x9000000050 fs) (s : State) (x1 : Nat) (hs :
  State.Same fs k s) : State.Same fs k (State.partDone s x1) := by
  unfold State.partDone
  try dsimp only
  with_reducible repeat' first
    | assumption | exact State.Sub.of rfl hm | apply State.snapEnd_same | apply State.setCruiser_same
    | apply State.hbmWords_same | intro _ _ | split | dsimp only

theorem execBwWindowEnd_same {fs : Nat} {k : State} (hm : State.Sub 0x1000000000 fs) {s : State} {rr : State} (ht :
  execBwWindowEnd s = .next rr) (hs : State.Same fs k s) : State.Same fs k rr := by
  refine State.Same.run (fun s hs => ?_) hs ht
  try dsimp only
  with_reducible repeat' first
    | assumption | exact State.Sub.of rfl hm | apply State.bwEnd_same | intro _ _ | split | dsimp only

theorem State.transferDone_same {fs : Nat} {k : State} (hm : State.Sub 0x9800000018 fs) (s : State) (hs : State.Same
  fs k s) : State.Same fs k (State.transferDone s) := by
  unfold State.transferDone
  try dsimp only
  with_reducible repeat' first
    | assumption | exact State.Sub.of rfl hm | apply State.emit_same | apply State.snapNotice_same
    | apply State.setCruiser_same | apply State.raise_same | apply State.snapEnd_same | intro _ _ | split | dsimp only

theorem execSnapshotTransferDone_same {fs : Nat} {k : State} (hm : State.Sub 0x9800000018 fs) {s : State} {rr :
  State} (ht : execSnapshotTransferDone s = .next rr) (hs : State.Same fs k s) : State.Same fs k rr := by
  refine State.Same.run (fun s hs => ?_) hs ht
  try dsimp only
  with_reducible repeat' first
    | assumption | exact State.Sub.of rfl hm | apply State.transferDone_same | intro _ _ | split | dsimp only

theorem execSnapshotPartDone_same {fs : Nat} {k : State} (hm : State.Sub 0x9000000050 fs) {x0 : Half} {s : State} {rr
  : State} (ht : execSnapshotPartDone x0 s = .next rr) (hs : State.Same fs k s) : State.Same fs k rr := by
  refine State.Same.run (fun s hs => ?_) hs ht
  try dsimp only
  with_reducible repeat' first
    | assumption | exact State.Sub.of rfl hm | apply State.partDone_same | intro _ _ | split | dsimp only

theorem execSnapshotCapture_same {fs : Nat} {k : State} (hm : State.Sub 0x9000000010 fs) {s : State} {rr : State} (ht
  : execSnapshotCapture s = .next rr) (hs : State.Same fs k s) : State.Same fs k rr := by
  refine State.Same.run (fun s hs => ?_) hs ht
  try dsimp only
  with_reducible repeat' first
    | assumption | exact State.Sub.of rfl hm | apply State.capture_same | intro _ _ | split | dsimp only

/-! ### Deparse -/

theorem State.builtCounts_same {fs : Nat} {k : State} (hm : State.Sub 0x10 fs) (s : State) (f : Frame) (p : Nat) (b :
  Built) (hs : State.Same fs k s) : State.Same fs k (State.builtCounts s f p b) := by
  unfold State.builtCounts
  try dsimp only
  with_reducible repeat' first
    | assumption | exact State.Sub.of rfl hm | apply State.count_same | apply State.count64_same | intro _ _ | split
    | dsimp only

theorem State.deparseBad_same {fs : Nat} {k : State} (hm : State.Sub 0x8000000010 fs) (s : State) (p : Nat) (reason :
  Nat) (hs : State.Same fs k s) : State.Same fs k (State.deparseBad s p reason) := by
  unfold State.deparseBad
  try dsimp only
  with_reducible repeat' first
    | assumption | exact State.Sub.of rfl hm | apply State.count64_same | apply State.raise_same | intro _ _ | split
    | dsimp only

theorem State.deparseDrop_same {fs : Nat} {k : State} (hm : State.Sub 0x8b134c2010 fs) (s : State) (i : Nat) (p :
  Nat) (reason : Nat) (hs : State.Same fs k s) : State.Same fs k (State.deparseDrop s i p reason) := by
  unfold State.deparseDrop
  try dsimp only
  with_reducible repeat' first
    | assumption | exact State.Sub.of rfl hm | apply State.dropQueued_same | apply State.deparseBad_same | intro _ _
    | split | dsimp only

theorem State.deparse_same {fs : Nat} {k : State} (hm : State.Sub 0x8b134c2010 fs) (s : State) (i : Nat) (hs :
  State.Same fs k s) : State.Same fs k (State.deparse s i) := by
  unfold State.deparse
  try dsimp only
  with_reducible repeat' first
    | assumption | exact State.Sub.of rfl hm | apply State.setFrame_same | apply State.builtCounts_same
    | apply State.deparseDrop_same | intro _ _ | split | dsimp only

theorem State.deparseNext_same {fs : Nat} {k : State} (hm : State.Sub 0x8b134ca010 fs) (s : State) (sl : Nat) (hs :
  State.Same fs k s) : State.Same fs k (State.deparseNext s sl) := by
  unfold State.deparseNext
  try dsimp only
  with_reducible repeat' first
    | assumption | exact State.Sub.of rfl hm | apply State.deparse_same | apply State.dropQueued_same
    | apply State.setSlice_same | intro _ _ | split | dsimp only

theorem execDeparse_same {fs : Nat} {k : State} (hm : State.Sub 0x8b134ca010 fs) {sl : Slice} {s : State} {rr :
  State} (ht : execDeparse sl s = .next rr) (hs : State.Same fs k s) : State.Same fs k rr := by
  refine State.Same.run (fun s hs => ?_) hs ht
  try dsimp only
  with_reducible repeat' first
    | assumption | exact State.Sub.of rfl hm | apply State.deparseNext_same | apply State.onlyIf_same | intro _ _ | split
    | dsimp only

/-! ### Raft -/

theorem State.raftPend_same {fs : Nat} {k : State} (hm : State.Sub 0x4000000000 fs) (s : State) (was : Bool) (hs :
  State.Same fs k s) : State.Same fs k (State.raftPend s was) := by
  unfold State.raftPend
  try dsimp only
  with_reducible repeat' first
    | assumption | exact State.Sub.of rfl hm | intro _ _ | split | dsimp only | refine State.Same.upd_4000000000 ?_ ?_

theorem State.raftCtrlWrite_same {fs : Nat} {k : State} (hm : State.Sub 0x4000000010 fs) (s : State) (v : Word) (hs :
  State.Same fs k s) : State.Same fs k (State.raftCtrlWrite s v) := by
  unfold State.raftCtrlWrite
  try dsimp only
  with_reducible repeat' first
    | assumption | exact State.Sub.of rfl hm | apply State.store_same | apply State.raftPend_same | intro _ _ | split
    | dsimp only | refine State.Same.upd_4000000000 ?_ ?_

theorem State.nbrEvent_same {fs : Nat} {k : State} (hm : State.Sub 0x8800000018 fs) (s : State) (p : Nat) (x2 : Nat)
  (x : NbrS) (sysid : Word) (hs : State.Same fs k s) : State.Same fs k (State.nbrEvent s p x2 x sysid) := by
  unfold State.nbrEvent
  try dsimp only
  with_reducible repeat' first
    | assumption | exact State.Sub.of rfl hm | apply State.raise_same | apply State.raftNotice_same | intro _ _ | split
    | dsimp only

theorem State.helloTake_same {fs : Nat} {k : State} (hm : State.Sub 0xc800000018 fs) (s : State) (p : Nat) (bs : List
  Byte) (hs : State.Same fs k s) : State.Same fs k (State.helloTake s p bs) := by
  unfold State.helloTake
  try dsimp only
  with_reducible repeat' first
    | assumption | exact State.Sub.of rfl hm | apply State.count_same | apply State.setNbr_same | apply State.nbrEvent_same
    | intro _ _ | split | dsimp only

theorem State.helloRx_same {fs : Nat} {k : State} (hm : State.Sub 0xc800020018 fs) (s : State) (p : Nat) (bs : List
  Byte) (hs : State.Same fs k s) : State.Same fs k (State.helloRx s p bs) := by
  unfold State.helloRx
  try dsimp only
  with_reducible repeat' first
    | assumption | exact State.Sub.of rfl hm | apply State.helloTake_same | apply State.peerHolds_same
    | apply State.count_same | intro _ _ | split | dsimp only

theorem execEwRecompute_same {fs : Nat} {k : State} (hm : State.Sub 0x4000000010 fs) {x0 : Half} {s : State} {rr :
  State} (ht : execEwRecompute x0 s = .next rr) (hs : State.Same fs k s) : State.Same fs k rr := by
  refine State.Same.run (fun s hs => ?_) hs ht
  try dsimp only
  with_reducible repeat' first
    | assumption | exact State.Sub.of rfl hm | apply State.ewAll_same | apply State.onlyIf_same | intro _ _ | split
    | dsimp only

theorem execRaftCfgSync_same {fs : Nat} {k : State} (hm : State.Sub 0x4000000000 fs) {s : State} {rr : State} (ht :
  execRaftCfgSync s = .next rr) (hs : State.Same fs k s) : State.Same fs k rr := by
  refine State.Same.run (fun s hs => ?_) hs ht
  try dsimp only
  with_reducible repeat' first
    | assumption | exact State.Sub.of rfl hm | apply State.onlyIf_same | intro _ _ | split | dsimp only
    | refine State.Same.upd_4000000000 ?_ ?_

theorem State.helloOut_same {fs : Nat} {k : State} (hm : State.Sub 0x1008 fs) (s : State) (p : Nat) (bs : List Byte)
  (hs : State.Same fs k s) : State.Same fs k (State.helloOut s p bs) := by
  unfold State.helloOut
  try dsimp only
  with_reducible repeat' first
    | assumption | exact State.Sub.of rfl hm | apply State.transmit_same | apply State.setSpan_same | intro _ _ | split
    | dsimp only

theorem State.sendHello_same {fs : Nat} {k : State} (hm : State.Sub 0x4000001018 fs) (s : State) (p : Nat) (extra :
  Bool) (hs : State.Same fs k s) : State.Same fs k (State.sendHello s p extra) := by
  unfold State.sendHello
  try dsimp only
  with_reducible repeat' first
    | assumption | exact State.Sub.of rfl hm | apply State.count_same | apply State.setNbr_same | apply State.helloOut_same
    | intro _ _ | split | dsimp only

theorem execHelloRx_same {fs : Nat} {k : State} (hm : State.Sub 0xc800020018 fs) {p : Port} {bytes : List Byte} {s :
  State} {rr : State} (ht : execHelloRx p bytes s = .next rr) (hs : State.Same fs k s) : State.Same fs k rr := by
  refine State.Same.run (fun s hs => ?_) hs ht
  try dsimp only
  with_reducible repeat' first
    | assumption | exact State.Sub.of rfl hm | apply State.helloRx_same | apply State.onlyIf_same | intro _ _ | split
    | dsimp only

theorem execPeerHoldLapse_same {fs : Nat} {k : State} (hm : State.Sub 0x20000 fs) {r : Ring} {s : State} {rr : State}
  (ht : execPeerHoldLapse r s = .next rr) (hs : State.Same fs k s) : State.Same fs k rr := by
  refine State.Same.run (fun s hs => ?_) hs ht
  try dsimp only
  with_reducible repeat' first
    | assumption | exact State.Sub.of rfl hm | apply State.setRing_same | apply State.onlyIf_same | intro _ _ | split
    | dsimp only

theorem execNeighbourDead_same {fs : Nat} {k : State} (hm : State.Sub 0xc800000018 fs) {p : Port} {s : State} {rr :
  State} (ht : execNeighbourDead p s = .next rr) (hs : State.Same fs k s) : State.Same fs k rr := by
  refine State.Same.run (fun s hs => ?_) hs ht
  try dsimp only
  with_reducible repeat' first
    | assumption | exact State.Sub.of rfl hm | apply State.nbrDown_same | apply State.onlyIf_same | intro _ _ | split
    | dsimp only

/-! ### Ingress -/

theorem State.ppCounts_same {fs : Nat} {k : State} (hm : State.Sub 0x8000000010 fs) (s : State) (sl : Nat) (perr :
  Nat) (hs : State.Same fs k s) : State.Same fs k (State.ppCounts s sl perr) := by
  unfold State.ppCounts
  try dsimp only
  with_reducible repeat' first
    | assumption | exact State.Sub.of rfl hm | apply State.raiseIf_same | apply State.count64_same | intro _ _ | split
    | dsimp only

theorem State.enterPipe_same {fs : Nat} {k : State} (hm : State.Sub 0x4a010 fs) (s : State) (sl : Nat) (i : Nat)
  (ring : Nat) (f : Frame) (v : List Byte) (hs : State.Same fs k s) : State.Same fs k (State.enterPipe s sl i ring f
  v) := by
  unfold State.enterPipe
  try dsimp only
  with_reducible repeat' first
    | assumption | exact State.Sub.of rfl hm | apply State.beginHolder_same | apply State.toStage_same
    | apply State.setFrame_same | intro _ _ | split | dsimp only

theorem State.parseFrame_same {fs : Nat} {k : State} (hm : State.Sub 0xcb1006a018 fs) (s : State) (sl : Nat) (i :
  Nat) (hs : State.Same fs k s) : State.Same fs k (State.parseFrame s sl i) := by
  unfold State.parseFrame
  try dsimp only
  with_reducible repeat' first
    | assumption | exact State.Sub.of rfl hm | apply State.ppCounts_same | apply State.helloRx_same
    | apply State.endFrame_same | apply State.count64_same | apply State.enterPipe_same | apply State.dropEarly_same
    | intro _ _ | split | dsimp only

theorem State.parseNext_same {fs : Nat} {k : State} (hm : State.Sub 0xcb1206a018 fs) (s : State) (sl : Nat) (hs :
  State.Same fs k s) : State.Same fs k (State.parseNext s sl) := by
  unfold State.parseNext
  try dsimp only
  with_reducible repeat' first
    | assumption | exact State.Sub.of rfl hm | apply State.pfcSlice_same | apply State.setSlice_same
    | apply State.parseFrame_same | intro _ _ | split | dsimp only

theorem State.pausePrio_same {fs : Nat} {k : State} (hm : State.Sub 0x1000000 fs) (s : State) (p : Nat) (bs : List
  Byte) (r : Nat) (hs : State.Same fs k s) : State.Same fs k (State.pausePrio s p bs r) := by
  unfold State.pausePrio
  try dsimp only
  with_reducible repeat' first
    | assumption | exact State.Sub.of rfl hm | apply State.setSched_same | intro _ _ | split | dsimp only

theorem State.pausePrios_same {fs : Nat} {k : State} (hm : State.Sub 0x1000000 fs) (s : State) (p : Nat) (bs : List
  Byte) (x3 : List Nat) (hs : State.Same fs k s) : State.Same fs k (State.pausePrios s p bs x3) := by
  induction x3 generalizing s p bs with
  | nil =>
    unfold State.pausePrios
    try dsimp only
    with_reducible repeat' first
      | assumption | exact State.Sub.of rfl hm | apply State.pausePrio_same | intro _ _ | split | dsimp only
  | cons a l ih =>
    unfold State.pausePrios
    try dsimp only
    with_reducible repeat' first
      | assumption | exact State.Sub.of rfl hm | apply ih | apply State.pausePrio_same | intro _ _ | split | dsimp only

theorem State.macControl_same {fs : Nat} {k : State} (hm : State.Sub 0x1000010 fs) (s : State) (p : Nat) (bs : List
  Byte) (hs : State.Same fs k s) : State.Same fs k (State.macControl s p bs) := by
  unfold State.macControl
  try dsimp only
  with_reducible repeat' first
    | assumption | exact State.Sub.of rfl hm | apply State.pausePrios_same | apply State.count_same | intro _ _ | split
    | dsimp only

theorem State.toFifo_same {fs : Nat} {k : State} (hm : State.Sub 0x800200e010 fs) {s : State} {p : Nat} {bs : List
  Byte} {len : Nat} {ts : Nat} {tail : Bool} {rr : State} (ht : State.toFifo s p bs len ts tail = some rr) (hs :
  State.Same fs k s) : State.Same fs k rr := by
  unfold State.toFifo at ht
  dsimp only at ht
  repeat' (split at ht)
  all_goals (first | contradiction | skip)
  all_goals (try (cases ht))
  all_goals
    with_reducible repeat' first
      | assumption | exact State.Sub.of rfl hm | apply State.setSlice_same | apply State.pfcSlice_same
      | apply State.newFrame_same | intro _ _ | split | dsimp only

theorem State.rxGood_same {fs : Nat} {k : State} (hm : State.Sub 0x810300e010 fs) (s : State) (p : Nat) (bs : List
  Byte) (ts : Nat) (hs : State.Same fs k s) : State.Same fs k (State.rxGood s p bs ts) := by
  unfold State.rxGood
  try dsimp only
  with_reducible repeat' first
    | assumption | exact State.Sub.of rfl hm | refine State.toFifo_same ?_ (by assumption) ?_
    | apply State.accountEarly_same | apply State.macControl_same | intro _ _ | split | dsimp only

theorem State.bwFrame_same {fs : Nat} {k : State} (hm : State.Sub 0x1000000000 fs) (s : State) (p : Nat) (bs : List
  Byte) (hs : State.Same fs k s) : State.Same fs k (State.bwFrame s p bs) := by
  unfold State.bwFrame
  try dsimp only
  with_reducible repeat' first
    | assumption | exact State.Sub.of rfl hm | apply State.bwAdd_same | intro _ _ | split | dsimp only

theorem State.rxTail_same {fs : Nat} {k : State} (hm : State.Sub 0x931f00e850 fs) (s : State) (p : Nat) (t : RxTail)
  (hs : State.Same fs k s) : State.Same fs k (State.rxTail s p t) := by
  unfold State.rxTail
  try dsimp only
  with_reducible repeat' first
    | assumption | exact State.Sub.of rfl hm | apply State.accountEarly_same | apply State.macControl_same
    | apply State.rxGood_same | apply State.completeRoot_same | apply State.rxCount_same | apply State.bwFrame_same
    | apply State.setPort_same | intro _ _ | split | dsimp only

theorem State.rxBegin_same {fs : Nat} {k : State} (hm : State.Sub 0x800200e810 fs) (s : State) (p : Nat) (f :
  RxFrame) (hs : State.Same fs k s) : State.Same fs k (State.rxBegin s p f) := by
  unfold State.rxBegin
  dsimp only
  split
  · next t heq =>
    split at heq
    · cases heq
    · exact State.setPort_same (.of rfl hm) _ _ _ (State.toFifo_same (.of rfl hm) heq hs)
  · exact State.setPort_same (.of rfl hm) _ _ _ hs

theorem State.rxWhole_same {fs : Nat} {k : State} (hm : State.Sub 0x910300e010 fs) (s : State) (p : Nat) (bs : List
  Byte) (err : Option Nat) (hs : State.Same fs k s) : State.Same fs k (State.rxWhole s p bs err) := by
  unfold State.rxWhole
  try dsimp only
  with_reducible repeat' first
    | assumption | exact State.Sub.of rfl hm | apply State.accountEarly_same | apply State.rxGood_same
    | apply State.rxCount_same | apply State.bwFrame_same | intro _ _ | split | dsimp only

theorem State.rxFrame_same {fs : Nat} {k : State} (hm : State.Sub 0x910300e810 fs) (s : State) (p : Nat) (f :
  RxFrame) (hs : State.Same fs k s) : State.Same fs k (State.rxFrame s p f) := by
  unfold State.rxFrame
  try dsimp only
  with_reducible repeat' first
    | assumption | exact State.Sub.of rfl hm | apply State.rxCount_same | apply State.accountEarly_same
    | apply State.rxBegin_same | apply State.rxWhole_same | intro _ _ | split | dsimp only

theorem State.loopOuts_same {fs : Nat} {k : State} (hm : State.Sub 0x910300e810 fs) (s : State) (p : Nat) (x2 : List
  Output) (hs : State.Same fs k s) : State.Same fs k (State.loopOuts s p x2) := by
  induction x2 generalizing s with
  | nil => exact hs
  | cons o l ih =>
    cases o
    all_goals first
      | exact ih _ hs
      | exact ih _ (State.onlyIf_same (.of rfl hm) _ _ _ hs fun s h => State.rxFrame_same (.of rfl hm) _ _ _ h)

theorem State.loopBack_same {fs : Nat} {k : State} (hm : State.Sub 0x910300e810 fs) (s : State) (old : State) (p :
  Nat) (hs : State.Same fs k s) : State.Same fs k (State.loopBack s old p) := by
  unfold State.loopBack
  try dsimp only
  with_reducible repeat' first
    | assumption | exact State.Sub.of rfl hm | apply State.loopOuts_same | intro _ _ | split | dsimp only

theorem State.swapDone_same {fs : Nat} {k : State} (hm : State.Sub 0x8000008010 fs) (s : State) (sl : Nat) (hs :
  State.Same fs k s) : State.Same fs k (State.swapDone s sl) := by
  unfold State.swapDone
  try dsimp only
  with_reducible repeat' first
    | assumption | exact State.Sub.of rfl hm | apply State.setSlice_same | apply State.raise_same | intro _ _ | split
    | dsimp only

theorem execSwapped_same {fs : Nat} {k : State} (hm : State.Sub 0x8000008010 fs) {sl : Slice} {s : State} {rr :
  State} (ht : execSwapped sl s = .next rr) (hs : State.Same fs k s) : State.Same fs k rr := by
  refine State.Same.run (fun s hs => ?_) hs ht
  try dsimp only
  with_reducible repeat' first
    | assumption | exact State.Sub.of rfl hm | apply State.swapDone_same | apply State.onlyIf_same | intro _ _ | split
    | dsimp only

theorem execParse_same {fs : Nat} {k : State} (hm : State.Sub 0xcb1206a018 fs) {sl : Slice} {s : State} {rr : State}
  (ht : execParse sl s = .next rr) (hs : State.Same fs k s) : State.Same fs k rr := by
  refine State.Same.run (fun s hs => ?_) hs ht
  try dsimp only
  with_reducible repeat' first
    | assumption | exact State.Sub.of rfl hm | apply State.parseNext_same | apply State.onlyIf_same | intro _ _ | split
    | dsimp only

theorem State.echo_same {fs : Nat} {k : State} (hm : State.Sub 0x8 fs) (s : State) (p : Nat) (bs : List Byte) (hs :
  State.Same fs k s) : State.Same fs k (State.echo s p bs) := by
  unfold State.echo
  try dsimp only
  with_reducible repeat' first
    | assumption | exact State.Sub.of rfl hm | apply State.transmit_same | apply State.onlyIf_same | intro _ _ | split
    | dsimp only

theorem execTailArrival_same {fs : Nat} {k : State} (hm : State.Sub 0x931f00e858 fs) {p : Port} {f : RxTail} {s :
  State} {rr : State} (ht : execTailArrival p f s = .next rr) (hs : State.Same fs k s) : State.Same fs k rr := by
  refine State.Same.run (fun s hs => ?_) hs ht
  try dsimp only
  with_reducible repeat' first
    | assumption | exact State.Sub.of rfl hm | apply State.rxTail_same | apply State.onlyIf_same | apply State.echo_same
    | intro _ _ | split | dsimp only

theorem execExtraHello_same {fs : Nat} {k : State} (hm : State.Sub 0xd10300f818 fs) {p : Port} {s : State} {rr :
  State} (ht : execExtraHello p s = .next rr) (hs : State.Same fs k s) : State.Same fs k rr := by
  refine State.Same.run (fun s hs => ?_) hs ht
  try dsimp only
  with_reducible repeat' first
    | assumption | exact State.Sub.of rfl hm | apply State.sendHello_same | apply State.loopBack_same
    | apply State.onlyIf_same | intro _ _ | split | dsimp only

theorem execHelloTx_same {fs : Nat} {k : State} (hm : State.Sub 0xd10300f818 fs) {p : Port} {s : State} {rr : State}
  (ht : execHelloTx p s = .next rr) (hs : State.Same fs k s) : State.Same fs k rr := by
  refine State.Same.run (fun s hs => ?_) hs ht
  try dsimp only
  with_reducible repeat' first
    | assumption | exact State.Sub.of rfl hm | apply State.sendHello_same | apply State.loopBack_same
    | apply State.onlyIf_same | intro _ _ | split | dsimp only

theorem execRxFrame_same {fs : Nat} {k : State} (hm : State.Sub 0x910300e818 fs) {p : Port} {f : RxFrame} {s : State}
  {rr : State} (ht : execRxFrame p f s = .next rr) (hs : State.Same fs k s) : State.Same fs k rr := by
  refine State.Same.run (fun s hs => ?_) hs ht
  try dsimp only
  with_reducible repeat' first
    | assumption | exact State.Sub.of rfl hm | apply State.echo_same | apply State.rxFrame_same | apply State.onlyIf_same
    | intro _ _ | split | dsimp only

end Sys2Proof.Machine
end

