-- ==== Sys2Proof/Laws/SamePath.lean ====
section
/-! SUPPORT. State.Same, one lemma for each function of the state: the Deck, the tables, Tally, the host queues, Kerf and the egress queues. -/

namespace Sys2Proof.Machine

/-! ### Deck -/

theorem execListRebuild_same {fs : Nat} {k : State} (hm : State.Sub 0x8000080010 fs) {x0 : Half} {lst : Fin 64} {s :
  State} {rr : State} (ht : execListRebuild x0 lst s = .next rr) (hs : State.Same fs k s) : State.Same fs k rr := by
  refine State.Same.run (fun s hs => ?_) hs ht
  try dsimp only
  with_reducible repeat' first
    | assumption | exact State.Sub.of rfl hm | apply State.count_same | apply State.raise_same | apply State.setDeck_same
    | apply State.onlyIf_same | intro _ _ | split | dsimp only

theorem State.poolAlloc_same {fs : Nat} {k : State} (hm : State.Sub 0x8000080010 fs) (s : State) (r : Requester) (x2
  : Nat) (n : Nat) (hs : State.Same fs k s) : State.Same fs k (State.poolAlloc s r x2 n) := by
  unfold State.poolAlloc
  try dsimp only
  with_reducible repeat' first
    | assumption | exact State.Sub.of rfl hm | apply State.raise_same | apply State.setDeck_same | intro _ _ | split
    | dsimp only

theorem State.dropUnicast_same {fs : Nat} {k : State} (hm : State.Sub 0x8b134c2010 fs) (s : State) (i : Nat) (reason
  : Nat) (hs : State.Same fs k s) : State.Same fs k (State.dropUnicast s i reason) := by
  unfold State.dropUnicast
  try dsimp only
  with_reducible repeat' first
    | assumption | exact State.Sub.of rfl hm | apply State.dropQueued_same | apply State.countExp_same | intro _ _ | split
    | dsimp only

theorem State.dropPuntNew_same {fs : Nat} {k : State} (hm : State.Sub 0x310042010 fs) (s : State) (i : Nat) (x2 :
  Nat) (q : Nat) (reason : Nat) (hs : State.Same fs k s) : State.Same fs k (State.dropPuntNew s i x2 q reason) := by
  unfold State.dropPuntNew
  try dsimp only
  with_reducible repeat' first
    | assumption | exact State.Sub.of rfl hm | apply State.dropNull_same | apply State.countExp_same
    | apply State.count_same | intro _ _ | split | dsimp only

theorem State.dropArrival_same {fs : Nat} {k : State} (hm : State.Sub 0x8b135d2010 fs) (s : State) (i : Nat) (f :
  Frame) (reason : Nat) (hs : State.Same fs k s) : State.Same fs k (State.dropArrival s i f reason) := by
  unfold State.dropArrival
  try dsimp only
  with_reducible repeat' first
    | assumption | exact State.Sub.of rfl hm | apply State.dropUnicast_same | apply State.dropMcast_same
    | apply State.dropPuntNew_same | intro _ _ | split | dsimp only

theorem execPfcRefresh_same {fs : Nat} {k : State} (hm : State.Sub 0x2000000 fs) {p : Port} {s : State} {rr : State}
  (ht : execPfcRefresh p s = .next rr) (hs : State.Same fs k s) : State.Same fs k rr := by
  refine State.Same.run (fun s hs => ?_) hs ht
  try dsimp only
  with_reducible repeat' first
    | assumption | exact State.Sub.of rfl hm | intro _ _ | split | dsimp only | refine State.Same.upd_2000000 ?_ ?_

theorem State.withdraw_same {fs : Nat} {k : State} (hm : State.Sub 0x8802082010 fs) (s : State) (x1 : Nat) (cell :
  Nat) (hs : State.Same fs k s) : State.Same fs k (State.withdraw s x1 cell) := by
  unfold State.withdraw
  try dsimp only
  with_reducible repeat' first
    | assumption | exact State.Sub.of rfl hm | apply State.markFrame_same | apply State.loseCell_same
    | apply State.setDeck_same | apply State.relevel_same | intro _ _ | split | dsimp only

theorem State.deckEcc_same {fs : Nat} {k : State} (hm : State.Sub 0x8802082010 fs) (s : State) (x1 : Nat) (x2 :
  DeckEcc) (hs : State.Same fs k s) : State.Same fs k (State.deckEcc s x1 x2) := by
  unfold State.deckEcc
  try dsimp only
  with_reducible repeat' first
    | assumption | exact State.Sub.of rfl hm | apply State.setDeck_same | apply State.withdraw_same
    | apply State.markFrame_same | apply State.count_same | apply State.raise_same | intro _ _ | split | dsimp only

theorem execDeckEccError_same {fs : Nat} {k : State} (hm : State.Sub 0x8802082010 fs) {x0 : Half} {e : DeckEcc} {s :
  State} {rr : State} (ht : execDeckEccError x0 e s = .next rr) (hs : State.Same fs k s) : State.Same fs k rr := by
  refine State.Same.run (fun s hs => ?_) hs ht
  try dsimp only
  with_reducible repeat' first
    | assumption | exact State.Sub.of rfl hm | apply State.deckEcc_same | apply State.onlyIf_same | intro _ _ | split
    | dsimp only

theorem State.awaitCells_same {fs : Nat} {k : State} (hm : State.Sub 0x82000 fs) (s : State) (i : Nat) (f : Frame)
  (hs : State.Same fs k s) : State.Same fs k (State.awaitCells s i f) := by
  unfold State.awaitCells
  try dsimp only
  with_reducible repeat' first
    | assumption | exact State.Sub.of rfl hm | apply State.setFrame_same | apply State.setDeck_same | intro _ _ | split
    | dsimp only

theorem State.admitMcast_same {fs : Nat} {k : State} (hm : State.Sub 0x8b121d2010 fs) (s : State) (i : Nat) (f :
  Frame) (hs : State.Same fs k s) : State.Same fs k (State.admitMcast s i f) := by
  unfold State.admitMcast
  try dsimp only
  with_reducible repeat' first
    | assumption | exact State.Sub.of rfl hm | apply State.setPath_same | apply State.setDeck_same
    | apply State.awaitCells_same | apply State.countExp_same | apply State.dropMcast_same | apply State.count64_same
    | apply State.raise_same | intro _ _ | split | dsimp only

theorem State.initDeck_same {fs : Nat} {k : State} (hm : State.Sub 0x8002080014 fs) (s : State) (x1 : Nat) (hs :
  State.Same fs k s) : State.Same fs k (State.initDeck s x1) := by
  unfold State.initDeck
  try dsimp only
  with_reducible repeat' first
    | assumption | exact State.Sub.of rfl hm | apply State.setDeck_same | apply State.drawn_same | apply State.relevel_same
    | apply State.pfcEvals_same | intro _ _ | split | dsimp only

theorem execDeckInitDone_same {fs : Nat} {k : State} (hm : State.Sub 0x8002080014 fs) {x0 : Half} {s : State} {rr :
  State} (ht : execDeckInitDone x0 s = .next rr) (hs : State.Same fs k s) : State.Same fs k rr := by
  refine State.Same.run (fun s hs => ?_) hs ht
  try dsimp only
  with_reducible repeat' first
    | assumption | exact State.Sub.of rfl hm | apply State.initDeck_same | apply State.onlyIf_same | intro _ _ | split
    | dsimp only

theorem State.pfcSend_same {fs : Nat} {k : State} (hm : State.Sub 0x2000018 fs) (s : State) (p : Nat) (hs :
  State.Same fs k s) : State.Same fs k (State.pfcSend s p) := by
  unfold State.pfcSend
  try dsimp only
  with_reducible repeat' first
    | assumption | exact State.Sub.of rfl hm | apply State.count_same | apply State.count64_same
    | apply State.transmit_same | intro _ _ | split | dsimp only | refine State.Same.upd_2000000 ?_ ?_

theorem State.admitUnicast_same {fs : Nat} {k : State} (hm : State.Sub 0x8b136c2010 fs) (s : State) (i : Nat) (f :
  Frame) (hs : State.Same fs k s) : State.Same fs k (State.admitUnicast s i f) := by
  unfold State.admitUnicast
  try dsimp only
  with_reducible repeat' first
    | assumption | exact State.Sub.of rfl hm | apply State.setQueue_same | apply State.awaitCells_same
    | apply State.dropUnicast_same | intro _ _ | split | dsimp only

theorem State.holdEmpty_same {fs : Nat} {k : State} (hm : State.Sub 0x80000 fs) (s : State) (x1 : Nat) (rq : Nat) (hs
  : State.Same fs k s) : State.Same fs k (State.holdEmpty s x1 rq) := by
  unfold State.holdEmpty
  try dsimp only
  with_reducible repeat' first
    | assumption | exact State.Sub.of rfl hm | apply State.setDeck_same | intro _ _ | split | dsimp only

theorem State.chargeCell_same {fs : Nat} {k : State} (hm : State.Sub 0x8802080010 fs) (s : State) (x1 : Nat) (f :
  Frame) (hs : State.Same fs k s) : State.Same fs k (State.chargeCell s x1 f) := by
  unfold State.chargeCell
  try dsimp only
  with_reducible repeat' first
    | assumption | exact State.Sub.of rfl hm | apply State.pfcAdd_same | apply State.setHq_same | apply State.setDeck_same
    | intro _ _ | split | dsimp only

theorem State.allocOne_same {fs : Nat} {k : State} (hm : State.Sub 0x8802082010 fs) {s : State} {x1 : Nat} {rq : Nat}
  {i : Nat} {rr : State} (ht : State.allocOne s x1 rq i = some rr) (hs : State.Same fs k s) : State.Same fs k rr := by
  unfold State.allocOne at ht
  dsimp only at ht
  repeat' (split at ht)
  all_goals (first | contradiction | skip)
  all_goals (try (cases ht))
  all_goals
    with_reducible repeat' first
      | assumption | exact State.Sub.of rfl hm | apply State.chargeCell_same | apply State.relevel_same
      | apply State.setFrame_same | apply State.setDeck_same | intro _ _ | split | dsimp only

theorem State.allocCells_same {fs : Nat} {k : State} (hm : State.Sub 0x8802082010 fs) (s : State) (x1 : Nat) (rq :
  Nat) (i : Nat) (x4 : Nat) (hs : State.Same fs k s) : State.Same fs k (State.allocCells s x1 rq i x4) := by
  induction x4 generalizing s x1 rq i with
  | zero =>
    unfold State.allocCells
    try dsimp only
    with_reducible repeat' first
      | assumption | exact State.Sub.of rfl hm | apply State.holdEmpty_same
      | refine State.allocOne_same ?_ (by assumption) ?_ | apply State.setDeck_same | intro _ _ | split | dsimp only
  | succ n ih =>
    unfold State.allocCells
    try dsimp only
    with_reducible repeat' first
      | assumption | exact State.Sub.of rfl hm | apply ih | apply State.holdEmpty_same
      | refine State.allocOne_same ?_ (by assumption) ?_ | apply State.setDeck_same | intro _ _ | split | dsimp only

theorem State.alloc_same {fs : Nat} {k : State} (hm : State.Sub 0x8802082010 fs) (s : State) (x1 : Nat) (rq : Nat)
  (hs : State.Same fs k s) : State.Same fs k (State.alloc s x1 rq) := by
  unfold State.alloc
  try dsimp only
  with_reducible repeat' first
    | assumption | exact State.Sub.of rfl hm | apply State.allocCells_same | intro _ _ | split | dsimp only

theorem execCellAlloc_same {fs : Nat} {k : State} (hm : State.Sub 0x8802082010 fs) {x0 : Half} {rq : Fin 24} {s :
  State} {rr : State} (ht : execCellAlloc x0 rq s = .next rr) (hs : State.Same fs k s) : State.Same fs k rr := by
  refine State.Same.run (fun s hs => ?_) hs ht
  try dsimp only
  with_reducible repeat' first
    | assumption | exact State.Sub.of rfl hm | apply State.alloc_same | apply State.onlyIf_same | intro _ _ | split
    | dsimp only

theorem State.endCells_same {fs : Nat} {k : State} (hm : State.Sub 0x8802082010 fs) (s : State) (i : Nat) (hs :
  State.Same fs k s) : State.Same fs k (State.endCells s i) := by
  unfold State.endCells
  try dsimp only
  with_reducible repeat' first
    | assumption | exact State.Sub.of rfl hm | apply State.setFrame_same | apply State.releaseCells_same
    | apply State.setDeck_same | intro _ _ | split | dsimp only

theorem execPauseExpire_same {fs : Nat} {k : State} (hm : State.Sub 0x1000000 fs) {p : Port} {r : Fin 8} {s : State}
  {rr : State} (ht : execPauseExpire p r s = .next rr) (hs : State.Same fs k s) : State.Same fs k rr := by
  refine State.Same.run (fun s hs => ?_) hs ht
  try dsimp only
  with_reducible repeat' first
    | assumption | exact State.Sub.of rfl hm | apply State.setSched_same | intro _ _ | split | dsimp only

theorem State.admitPunt_same {fs : Nat} {k : State} (hm : State.Sub 0xb100c2010 fs) (s : State) (i : Nat) (f : Frame)
  (hs : State.Same fs k s) : State.Same fs k (State.admitPunt s i f) := by
  unfold State.admitPunt
  try dsimp only
  with_reducible repeat' first
    | assumption | exact State.Sub.of rfl hm | apply State.setHq_same | apply State.awaitCells_same
    | apply State.dropPuntNew_same | intro _ _ | split | dsimp only

theorem State.admitHead_same {fs : Nat} {k : State} (hm : State.Sub 0x8b137d2010 fs) (s : State) (x1 : Nat) (hs :
  State.Same fs k s) : State.Same fs k (State.admitHead s x1) := by
  unfold State.admitHead
  try dsimp only
  with_reducible repeat' first
    | assumption | exact State.Sub.of rfl hm | apply State.admitUnicast_same | apply State.admitMcast_same
    | apply State.admitPunt_same | apply State.dropArrival_same | apply State.setPath_same | intro _ _ | split | dsimp only

theorem State.dropHeld_same {fs : Nat} {k : State} (hm : State.Sub 0x8b137da010 fs) (s : State) (i : Nat) (reason :
  Nat) (hs : State.Same fs k s) : State.Same fs k (State.dropHeld s i reason) := by
  unfold State.dropHeld
  try dsimp only
  with_reducible repeat' first
    | assumption | exact State.Sub.of rfl hm | apply State.dropQueued_same | apply State.setSlice_same
    | apply State.setQueue_same | apply State.setPath_same | apply State.dropMcast_same | apply State.dropPunt_same
    | intro _ _ | split | dsimp only

theorem State.stallEnd_same {fs : Nat} {k : State} (hm : State.Sub 0x8b137da010 fs) (s : State) (x1 : Nat) (i : Nat)
  (hs : State.Same fs k s) : State.Same fs k (State.stallEnd s x1 i) := by
  unfold State.stallEnd
  try dsimp only
  with_reducible repeat' first
    | assumption | exact State.Sub.of rfl hm | apply State.count64_same | apply State.raise_same
    | apply State.dropHeld_same | apply State.markFrame_same | apply State.endCells_same | intro _ _ | split | dsimp only

theorem State.stall_same {fs : Nat} {k : State} (hm : State.Sub 0x8b137da010 fs) (s : State) (x1 : Nat) (rq : Nat)
  (hs : State.Same fs k s) : State.Same fs k (State.stall s x1 rq) := by
  unfold State.stall
  try dsimp only
  with_reducible repeat' first
    | assumption | exact State.Sub.of rfl hm | apply State.stallEnd_same | intro _ _ | split | dsimp only

theorem execBufferStall_same {fs : Nat} {k : State} (hm : State.Sub 0x8b137da010 fs) {x0 : Half} {rq : Fin 24} {s :
  State} {rr : State} (ht : execBufferStall x0 rq s = .next rr) (hs : State.Same fs k s) : State.Same fs k rr := by
  refine State.Same.run (fun s hs => ?_) hs ht
  try dsimp only
  with_reducible repeat' first
    | assumption | exact State.Sub.of rfl hm | apply State.stall_same | apply State.onlyIf_same | intro _ _ | split
    | dsimp only

theorem execAdmission_same {fs : Nat} {k : State} (hm : State.Sub 0x8b137d2010 fs) {x0 : Half} {s : State} {rr :
  State} (ht : execAdmission x0 s = .next rr) (hs : State.Same fs k s) : State.Same fs k rr := by
  refine State.Same.run (fun s hs => ?_) hs ht
  try dsimp only
  with_reducible repeat' first
    | assumption | exact State.Sub.of rfl hm | apply State.admitHead_same | intro _ _ | split | dsimp only

theorem execPfcFrameTx_same {fs : Nat} {k : State} (hm : State.Sub 0x910300e818 fs) {p : Port} {s : State} {rr :
  State} (ht : execPfcFrameTx p s = .next rr) (hs : State.Same fs k s) : State.Same fs k rr := by
  refine State.Same.run (fun s hs => ?_) hs ht
  try dsimp only
  with_reducible repeat' first
    | assumption | exact State.Sub.of rfl hm | apply State.pfcSend_same | apply State.loopBack_same
    | apply State.onlyIf_same | intro _ _ | split | dsimp only

theorem execRefill_same {fs : Nat} {k : State} (hm : State.Sub 0x80000 fs) {x0 : Half} {lst : Fin 64} {s : State} {rr
  : State} (ht : execRefill x0 lst s = .next rr) (hs : State.Same fs k s) : State.Same fs k rr := by
  refine State.Same.run (fun s hs => ?_) hs ht
  try dsimp only
  with_reducible repeat' first
    | assumption | exact State.Sub.of rfl hm | apply State.setDeck_same | apply State.onlyIf_same | intro _ _ | split
    | dsimp only

theorem execCellFree_same {fs : Nat} {k : State} (hm : State.Sub 0x8802082010 fs) {x0 : Half} {rq : Fin 24} {cell :
  Nat} {tag : BitVec 16} {s : State} {rr : State} (ht : execCellFree x0 rq cell tag s = .next rr) (hs : State.Same fs
  k s) : State.Same fs k rr := by
  refine State.Same.run (fun s hs => ?_) hs ht
  try dsimp only
  with_reducible repeat' first
    | assumption | exact State.Sub.of rfl hm | apply State.freeStray_same | apply State.onlyIf_same | intro _ _ | split
    | dsimp only

/-! ### TableOps -/

theorem State.lateAnswer_same {fs : Nat} {k : State} (hm : State.Sub 0x800000000 fs) (s : State) (x1 : Nat) (r :
  FgRun) (a : Answer) (hs : State.Same fs k s) : State.Same fs k (State.lateAnswer s x1 r a) := by
  unfold State.lateAnswer
  try dsimp only
  with_reducible repeat' first
    | assumption | exact State.Sub.of rfl hm | apply State.setHq_same | intro _ _ | split | dsimp only

theorem State.halfDone_same {fs : Nat} {k : State} (hm : State.Sub 0x8000000010 fs) (s : State) (x1 : Nat) (a :
  Answer) (hs : State.Same fs k s) : State.Same fs k (State.halfDone s x1 a) := by
  unfold State.halfDone
  try dsimp only
  with_reducible repeat' first
    | assumption | exact State.Sub.of rfl hm | apply State.count64_same | apply State.raiseIf_same | intro _ _ | split
    | dsimp only

theorem State.journal_same {fs : Nat} {k : State} (hm : State.Sub 0x10 fs) (s : State) (x1 : Nat) (routine : Nat) (r
  : FgRun) (exit : Nat) (hs : State.Same fs k s) : State.Same fs k (State.journal s x1 routine r exit) := by
  unfold State.journal
  try dsimp only
  with_reducible repeat' first
    | assumption | exact State.Sub.of rfl hm | apply State.setReg_same | intro _ _ | split | dsimp only

theorem State.fgJournal_same {fs : Nat} {k : State} (hm : State.Sub 0x10 fs) (s : State) (x1 : Nat) (r : FgRun) (exit
  : Nat) (hs : State.Same fs k s) : State.Same fs k (State.fgJournal s x1 r exit) := by
  unfold State.fgJournal
  try dsimp only
  with_reducible repeat' first
    | assumption | exact State.Sub.of rfl hm | apply State.journal_same | intro _ _ | split | dsimp only

theorem State.bgYield_same {fs : Nat} {k : State} (hm : State.Sub 0x10 fs) (s : State) (x1 : Nat) (hs : State.Same fs
  k s) : State.Same fs k (State.bgYield s x1) := by
  unfold State.bgYield
  try dsimp only
  with_reducible repeat' first
    | assumption | exact State.Sub.of rfl hm | apply State.setReg_same | apply State.count_same | intro _ _ | split
    | dsimp only

theorem State.emChange_same {fs : Nat} {k : State} (hm : State.Sub 0x8000000050 fs) (s : State) (x1 : Nat) (t : Nat)
  (key : List Byte) (res : Nat) (static : Bool) (x6 : Change) (hs : State.Same fs k s) : State.Same fs k
  (State.emChange s x1 t key res static x6).1 := by
  unfold State.emChange
  try dsimp only
  with_reducible repeat' first
    | assumption | exact State.Sub.of rfl hm | apply State.clearEntry_same
    | refine State.placeEntry_same ?_ (by assumption) ?_ | apply State.setEmW_same | apply State.setResult_same | intro _ _
    | split | dsimp only

theorem State.emChange_same_eq {fs : Nat} {k : State} (hm : State.Sub 0x8000000050 fs) {s : State} {x1 : Nat} {t :
  Nat} {key : List Byte} {res : Nat} {static : Bool} {x6 : Change} {ra rb} (ht : State.emChange s x1 t key res static
  x6 = (ra, rb)) (hs : State.Same fs k s) : State.Same fs k ra := by
  have := State.emChange_same (k := k) hm s x1 t key res static x6 hs
  rw [ht] at this
  exact this

theorem State.emWrite_same {fs : Nat} {k : State} (hm : State.Sub 0x8000000050 fs) (s : State) (x1 : Nat) (op : Nat)
  (t : Nat) (staged : Bool) (blk : List Byte) (hs : State.Same fs k s) : State.Same fs k (State.emWrite s x1 op t
  staged blk).1 := by
  unfold State.emWrite
  try dsimp only
  with_reducible repeat' first
    | assumption | exact State.Sub.of rfl hm | apply State.emChange_same
    | refine State.emChange_same_eq ?_ (by assumption) ?_ | intro _ _ | split | dsimp only

theorem State.emWrite_same_eq {fs : Nat} {k : State} (hm : State.Sub 0x8000000050 fs) {s : State} {x1 : Nat} {op :
  Nat} {t : Nat} {staged : Bool} {blk : List Byte} {ra rb} (ht : State.emWrite s x1 op t staged blk = (ra, rb)) (hs :
  State.Same fs k s) : State.Same fs k ra := by
  have := State.emWrite_same (k := k) hm s x1 op t staged blk hs
  rw [ht] at this
  exact this

theorem State.bulkOne_same {fs : Nat} {k : State} (hm : State.Sub 0x40 fs) (s : State) (x1 : Nat) (op : Nat) (target
  : Nat) (l : Nat) (hs : State.Same fs k s) : State.Same fs k (State.bulkOne s x1 op target l) := by
  unfold State.bulkOne
  try dsimp only
  with_reducible repeat' first
    | assumption | exact State.Sub.of rfl hm | apply State.clearEntry_same | apply State.setResult_same | intro _ _ | split
    | dsimp only

theorem State.bulkEach_same {fs : Nat} {k : State} (hm : State.Sub 0x40 fs) (s : State) (x1 : Nat) (op : Nat) (t :
  Nat) (blk : List Byte) (x5 : List Nat) (hs : State.Same fs k s) : State.Same fs k (State.bulkEach s x1 op t blk
  x5).1 := by
  induction x5 generalizing s x1 op t blk with
  | nil =>
    unfold State.bulkEach
    try dsimp only
    with_reducible repeat' first
      | assumption | exact State.Sub.of rfl hm | apply State.bulkOne_same | intro _ _ | split | dsimp only
  | cons a l ih =>
    unfold State.bulkEach
    try dsimp only
    with_reducible repeat' first
      | assumption | exact State.Sub.of rfl hm | apply ih | apply State.bulkOne_same | intro _ _ | split | dsimp only

theorem State.bulkEach_same_eq {fs : Nat} {k : State} (hm : State.Sub 0x40 fs) {s : State} {x1 : Nat} {op : Nat} {t :
  Nat} {blk : List Byte} {x5 : List Nat} {ra rb} (ht : State.bulkEach s x1 op t blk x5 = (ra, rb)) (hs : State.Same
  fs k s) : State.Same fs k ra := by
  have := State.bulkEach_same (k := k) hm s x1 op t blk x5 hs
  rw [ht] at this
  exact this

theorem State.bulkStep_same {fs : Nat} {k : State} (hm : State.Sub 0x8860000058 fs) (s : State) (x1 : Nat) (r :
  FgRun) (hs : State.Same fs k s) : State.Same fs k (State.bulkStep s x1 r).1 := by
  unfold State.bulkStep
  try dsimp only
  with_reducible repeat' first
    | assumption | exact State.Sub.of rfl hm | apply State.learnServe_same | apply State.bulkEach_same
    | refine State.bulkEach_same_eq ?_ (by assumption) ?_ | intro _ _ | split | dsimp only

theorem State.bulkStep_same_eq {fs : Nat} {k : State} (hm : State.Sub 0x8860000058 fs) {s : State} {x1 : Nat} {r :
  FgRun} {ra rb} (ht : State.bulkStep s x1 r = (ra, rb)) (hs : State.Same fs k s) : State.Same fs k ra := by
  have := State.bulkStep_same (k := k) hm s x1 r hs
  rw [ht] at this
  exact this

theorem State.bulkRun_same {fs : Nat} {k : State} (hm : State.Sub 0x8860000058 fs) (s : State) (x1 : Nat) (x2 :
  FgRun) (x3 : Nat) (hs : State.Same fs k s) : State.Same fs k (State.bulkRun s x1 x2 x3).1 := by
  induction x3 generalizing s x1 x2 with
  | zero =>
    unfold State.bulkRun
    try dsimp only
    with_reducible repeat' first
      | assumption | exact State.Sub.of rfl hm | apply State.bulkStep_same
      | refine State.bulkStep_same_eq ?_ (by assumption) ?_ | intro _ _ | split | dsimp only
  | succ n ih =>
    unfold State.bulkRun
    try dsimp only
    with_reducible repeat' first
      | assumption | exact State.Sub.of rfl hm | apply ih | apply State.bulkStep_same
      | refine State.bulkStep_same_eq ?_ (by assumption) ?_ | intro _ _ | split | dsimp only

theorem State.bulkRun_same_eq {fs : Nat} {k : State} (hm : State.Sub 0x8860000058 fs) {s : State} {x1 : Nat} {x2 :
  FgRun} {x3 : Nat} {ra rb} (ht : State.bulkRun s x1 x2 x3 = (ra, rb)) (hs : State.Same fs k s) : State.Same fs k ra
  := by
  have := State.bulkRun_same (k := k) hm s x1 x2 x3 hs
  rw [ht] at this
  exact this

theorem State.setTcCtrl_same {fs : Nat} {k : State} (hm : State.Sub 0x40 fs) (s : State) (sl : Nat) (e : Nat) (w :
  Word) (hs : State.Same fs k s) : State.Same fs k (State.setTcCtrl s sl e w) := by
  unfold State.setTcCtrl
  try dsimp only
  with_reducible repeat' first
    | assumption | exact State.Sub.of rfl hm | apply State.setMemW_same | intro _ _ | split | dsimp only

theorem State.tcPut_same {fs : Nat} {k : State} (hm : State.Sub 0x40 fs) (s : State) (sl : Nat) (e : Nat) (blk : List
  Byte) (birth : Option Nat) (hs : State.Same fs k s) : State.Same fs k (State.tcPut s sl e blk birth) := by
  unfold State.tcPut
  try dsimp only
  with_reducible repeat' first
    | assumption | exact State.Sub.of rfl hm | apply State.setMemWs_same | intro _ _ | split | dsimp only

theorem State.tcOne_same {fs : Nat} {k : State} (hm : State.Sub 0x40 fs) (s : State) (op : Nat) (sl : Nat) (staged :
  Bool) (blk : List Byte) (hs : State.Same fs k s) : State.Same fs k (State.tcOne s op sl staged blk).1 := by
  unfold State.tcOne
  try dsimp only
  with_reducible repeat' first
    | assumption | exact State.Sub.of rfl hm | apply State.setTcCtrl_same | apply State.tcPut_same | intro _ _ | split
    | dsimp only

theorem State.tcOne_same_eq {fs : Nat} {k : State} (hm : State.Sub 0x40 fs) {s : State} {op : Nat} {sl : Nat} {staged
  : Bool} {blk : List Byte} {ra rb} (ht : State.tcOne s op sl staged blk = (ra, rb)) (hs : State.Same fs k s) :
  State.Same fs k ra := by
  have := State.tcOne_same (k := k) hm s op sl staged blk hs
  rw [ht] at this
  exact this

theorem State.tcSlices_same {fs : Nat} {k : State} (hm : State.Sub 0x40 fs) (s : State) (op : Nat) (staged : Bool)
  (blk : List Byte) (x4 : List Nat) (hs : State.Same fs k s) : State.Same fs k (State.tcSlices s op staged blk x4).1
  := by
  induction x4 generalizing s op staged blk with
  | nil =>
    unfold State.tcSlices
    try dsimp only
    with_reducible repeat' first
      | assumption | exact State.Sub.of rfl hm | apply State.tcOne_same | refine State.tcOne_same_eq ?_ (by assumption) ?_
      | intro _ _ | split | dsimp only
  | cons a l ih =>
    unfold State.tcSlices
    try dsimp only
    with_reducible repeat' first
      | assumption | exact State.Sub.of rfl hm | apply ih | apply State.tcOne_same
      | refine State.tcOne_same_eq ?_ (by assumption) ?_ | intro _ _ | split | dsimp only

theorem State.tcSlices_same_eq {fs : Nat} {k : State} (hm : State.Sub 0x40 fs) {s : State} {op : Nat} {staged : Bool}
  {blk : List Byte} {x4 : List Nat} {ra rb} (ht : State.tcSlices s op staged blk x4 = (ra, rb)) (hs : State.Same fs k
  s) : State.Same fs k ra := by
  have := State.tcSlices_same (k := k) hm s op staged blk x4 hs
  rw [ht] at this
  exact this

theorem State.tcHalf_same {fs : Nat} {k : State} (hm : State.Sub 0x40 fs) (s : State) (x1 : Nat) (op : Nat) (staged :
  Bool) (blk : List Byte) (sls : List Nat) (hs : State.Same fs k s) : State.Same fs k (State.tcHalf s x1 op staged
  blk sls).1 := by
  unfold State.tcHalf
  try dsimp only
  with_reducible repeat' first
    | assumption | exact State.Sub.of rfl hm | apply State.tcSlices_same
    | refine State.tcSlices_same_eq ?_ (by assumption) ?_ | intro _ _ | split | dsimp only

theorem State.tcHalf_same_eq {fs : Nat} {k : State} (hm : State.Sub 0x40 fs) {s : State} {x1 : Nat} {op : Nat}
  {staged : Bool} {blk : List Byte} {sls : List Nat} {ra rb} (ht : State.tcHalf s x1 op staged blk sls = (ra, rb))
  (hs : State.Same fs k s) : State.Same fs k ra := by
  have := State.tcHalf_same (k := k) hm s x1 op staged blk sls hs
  rw [ht] at this
  exact this

theorem State.setLpm_same {fs : Nat} {k : State} (hm : State.Sub 0x8020000010 fs) (s : State) (x1 : Nat) (l : List
  LpmPfx) (hs : State.Same fs k s) : State.Same fs k (State.setLpm s x1 l) := by
  unfold State.setLpm
  try dsimp only
  with_reducible repeat' first
    | assumption | exact State.Sub.of rfl hm | apply State.raiseIf_same | apply State.setWood_same | intro _ _ | split
    | dsimp only

theorem State.lpmChange_same {fs : Nat} {k : State} (hm : State.Sub 0x8020000010 fs) (s : State) (x1 : Nat) (x :
  LpmPfx) (x3 : Change) (hs : State.Same fs k s) : State.Same fs k (State.lpmChange s x1 x x3).1 := by
  unfold State.lpmChange
  try dsimp only
  with_reducible repeat' first
    | assumption | exact State.Sub.of rfl hm | apply State.raise_same | apply State.setLpm_same | intro _ _ | split
    | dsimp only

theorem State.lpmChange_same_eq {fs : Nat} {k : State} (hm : State.Sub 0x8020000010 fs) {s : State} {x1 : Nat} {x :
  LpmPfx} {x3 : Change} {ra rb} (ht : State.lpmChange s x1 x x3 = (ra, rb)) (hs : State.Same fs k s) : State.Same fs
  k ra := by
  have := State.lpmChange_same (k := k) hm s x1 x x3 hs
  rw [ht] at this
  exact this

theorem State.lpmWrite_same {fs : Nat} {k : State} (hm : State.Sub 0x8020000010 fs) (s : State) (x1 : Nat) (op : Nat)
  (n : Nat) (staged : Bool) (blk : List Byte) (hs : State.Same fs k s) : State.Same fs k (State.lpmWrite s x1 op n
  staged blk).1 := by
  unfold State.lpmWrite
  try dsimp only
  with_reducible repeat' first
    | assumption | exact State.Sub.of rfl hm | apply State.lpmChange_same
    | refine State.lpmChange_same_eq ?_ (by assumption) ?_ | intro _ _ | split | dsimp only

theorem State.lpmWrite_same_eq {fs : Nat} {k : State} (hm : State.Sub 0x8020000010 fs) {s : State} {x1 : Nat} {op :
  Nat} {n : Nat} {staged : Bool} {blk : List Byte} {ra rb} (ht : State.lpmWrite s x1 op n staged blk = (ra, rb)) (hs
  : State.Same fs k s) : State.Same fs k ra := by
  have := State.lpmWrite_same (k := k) hm s x1 op n staged blk hs
  rw [ht] at this
  exact this

theorem State.lpmRead_same {fs : Nat} {k : State} (hm : State.Sub 0x0 fs) (s : State) (x1 : Nat) (n : Nat) (blk :
  List Byte) (hs : State.Same fs k s) : State.Same fs k (State.lpmRead s x1 n blk).1 := by
  unfold State.lpmRead
  try dsimp only
  with_reducible repeat' first
    | assumption | exact State.Sub.of rfl hm | intro _ _ | split | dsimp only

theorem State.lpmRead_same_eq {fs : Nat} {k : State} (hm : State.Sub 0x0 fs) {s : State} {x1 : Nat} {n : Nat} {blk :
  List Byte} {ra rb} (ht : State.lpmRead s x1 n blk = (ra, rb)) (hs : State.Same fs k s) : State.Same fs k ra := by
  have := State.lpmRead_same (k := k) hm s x1 n blk hs
  rw [ht] at this
  exact this

theorem State.emRead_same {fs : Nat} {k : State} (hm : State.Sub 0x0 fs) (s : State) (x1 : Nat) (t : Nat) (blk : List
  Byte) (hs : State.Same fs k s) : State.Same fs k (State.emRead s x1 t blk).1 := by
  unfold State.emRead
  try dsimp only
  with_reducible repeat' first
    | assumption | exact State.Sub.of rfl hm | intro _ _ | split | dsimp only

theorem State.emRead_same_eq {fs : Nat} {k : State} (hm : State.Sub 0x0 fs) {s : State} {x1 : Nat} {t : Nat} {blk :
  List Byte} {ra rb} (ht : State.emRead s x1 t blk = (ra, rb)) (hs : State.Same fs k s) : State.Same fs k ra := by
  have := State.emRead_same (k := k) hm s x1 t blk hs
  rw [ht] at this
  exact this

theorem State.routine_same {fs : Nat} {k : State} (hm : State.Sub 0x8860000058 fs) (s : State) (x1 : Nat) (r : FgRun)
  (hs : State.Same fs k s) : State.Same fs k (State.routine s x1 r).1 := by
  unfold State.routine
  try dsimp only
  with_reducible repeat' first
    | assumption | exact State.Sub.of rfl hm | apply State.pathEnd_same | apply State.emWrite_same
    | refine State.emWrite_same_eq ?_ (by assumption) ?_ | apply State.bulkRun_same
    | refine State.bulkRun_same_eq ?_ (by assumption) ?_ | apply State.tcHalf_same
    | refine State.tcHalf_same_eq ?_ (by assumption) ?_ | apply State.lpmWrite_same
    | refine State.lpmWrite_same_eq ?_ (by assumption) ?_ | apply State.lpmRead_same
    | refine State.lpmRead_same_eq ?_ (by assumption) ?_ | apply State.emRead_same
    | refine State.emRead_same_eq ?_ (by assumption) ?_ | intro _ _ | split | dsimp only

theorem State.routine_same_eq {fs : Nat} {k : State} (hm : State.Sub 0x8860000058 fs) {s : State} {x1 : Nat} {r :
  FgRun} {ra rb} (ht : State.routine s x1 r = (ra, rb)) (hs : State.Same fs k s) : State.Same fs k ra := by
  have := State.routine_same (k := k) hm s x1 r hs
  rw [ht] at this
  exact this

theorem State.fgRun_same {fs : Nat} {k : State} (hm : State.Sub 0x8860000058 fs) (s : State) (x1 : Nat) (r : FgRun)
  (hs : State.Same fs k s) : State.Same fs k (State.fgRun s x1 r).1 := by
  unfold State.fgRun
  try dsimp only
  with_reducible repeat' first
    | assumption | exact State.Sub.of rfl hm | apply State.setWood_same | apply State.halfDone_same
    | apply State.fgJournal_same | apply State.bgYield_same | apply State.routine_same
    | refine State.routine_same_eq ?_ (by assumption) ?_ | intro _ _ | split | dsimp only

theorem State.fgRun_same_eq {fs : Nat} {k : State} (hm : State.Sub 0x8860000058 fs) {s : State} {x1 : Nat} {r :
  FgRun} {ra rb} (ht : State.fgRun s x1 r = (ra, rb)) (hs : State.Same fs k s) : State.Same fs k ra := by
  have := State.fgRun_same (k := k) hm s x1 r hs
  rw [ht] at this
  exact this

theorem State.fgAll_same {fs : Nat} {k : State} (hm : State.Sub 0x8860000058 fs) (s : State) (x1 : Nat) (x2 : List
  FgRun) (hs : State.Same fs k s) : State.Same fs k (State.fgAll s x1 x2) := by
  induction x2 generalizing s x1 with
  | nil =>
    unfold State.fgAll
    try dsimp only
    with_reducible repeat' first
      | assumption | exact State.Sub.of rfl hm | apply State.lateAnswer_same | apply State.fgRun_same
      | refine State.fgRun_same_eq ?_ (by assumption) ?_ | intro _ _ | split | dsimp only
  | cons a l ih =>
    unfold State.fgAll
    try dsimp only
    with_reducible repeat' first
      | assumption | exact State.Sub.of rfl hm | apply ih | apply State.lateAnswer_same | apply State.fgRun_same
      | refine State.fgRun_same_eq ?_ (by assumption) ?_ | intro _ _ | split | dsimp only

theorem State.fgClear_same {fs : Nat} {k : State} (hm : State.Sub 0x8860000058 fs) (s : State) (x1 : Nat) (hs :
  State.Same fs k s) : State.Same fs k (State.fgClear s x1) := by
  unfold State.fgClear
  try dsimp only
  with_reducible repeat' first
    | assumption | exact State.Sub.of rfl hm | apply State.setWood_same | apply State.fgAll_same | intro _ _ | split
    | dsimp only

theorem State.fgResume_same {fs : Nat} {k : State} (hm : State.Sub 0x8860000058 fs) (s : State) (x1 : Nat) (hs :
  State.Same fs k s) : State.Same fs k (State.fgResume s x1) := by
  unfold State.fgResume
  try dsimp only
  with_reducible repeat' first
    | assumption | exact State.Sub.of rfl hm | apply State.lateAnswer_same | apply State.fgClear_same
    | apply State.fgRun_same | refine State.fgRun_same_eq ?_ (by assumption) ?_ | apply State.setWood_same | intro _ _
    | split | dsimp only

theorem State.seqResume_same {fs : Nat} {k : State} (hm : State.Sub 0x8860000058 fs) (s : State) (x1 : Nat) (hs :
  State.Same fs k s) : State.Same fs k (State.seqResume s x1) := by
  unfold State.seqResume
  try dsimp only
  with_reducible repeat' first
    | assumption | exact State.Sub.of rfl hm | apply State.fgResume_same | apply State.setWood_same | intro _ _ | split
    | dsimp only

theorem State.fgAbandon_same {fs : Nat} {k : State} (hm : State.Sub 0x8860000058 fs) (s : State) (x1 : Nat) (hs :
  State.Same fs k s) : State.Same fs k (State.fgAbandon s x1) := by
  unfold State.fgAbandon
  try dsimp only
  with_reducible repeat' first
    | assumption | exact State.Sub.of rfl hm | apply State.halfDone_same | apply State.lateAnswer_same
    | apply State.raise_same | apply State.fgClear_same | apply State.pathLeave_same | apply State.fgJournal_same
    | intro _ _ | split | dsimp only

theorem State.bgAbandon_same {fs : Nat} {k : State} (hm : State.Sub 0x20000050 fs) (s : State) (x1 : Nat) (hs :
  State.Same fs k s) : State.Same fs k (State.bgAbandon s x1) := by
  unfold State.bgAbandon
  try dsimp only
  with_reducible repeat' first
    | assumption | exact State.Sub.of rfl hm | apply State.setReg_same | apply State.setWood_same
    | apply State.migDrop_same | intro _ _ | split | dsimp only

theorem State.seqAbandon_same {fs : Nat} {k : State} (hm : State.Sub 0x8860000058 fs) (s : State) (x1 : Nat) (hs :
  State.Same fs k s) : State.Same fs k (State.seqAbandon s x1) := by
  unfold State.seqAbandon
  try dsimp only
  with_reducible repeat' first
    | assumption | exact State.Sub.of rfl hm | apply State.fgAbandon_same | apply State.bgAbandon_same
    | apply State.setWood_same | intro _ _ | split | dsimp only

theorem State.fgLost_same {fs : Nat} {k : State} (hm : State.Sub 0x8800000010 fs) (s : State) (x1 : Nat) (x2 : List
  FgRun) (hs : State.Same fs k s) : State.Same fs k (State.fgLost s x1 x2) := by
  induction x2 generalizing s x1 with
  | nil =>
    unfold State.fgLost
    try dsimp only
    with_reducible repeat' first
      | assumption | exact State.Sub.of rfl hm | apply State.halfDone_same | apply State.lateAnswer_same | intro _ _
      | split | dsimp only
  | cons a l ih =>
    unfold State.fgLost
    try dsimp only
    with_reducible repeat' first
      | assumption | exact State.Sub.of rfl hm | apply ih | apply State.halfDone_same | apply State.lateAnswer_same
      | intro _ _ | split | dsimp only

theorem State.seqStop_same {fs : Nat} {k : State} (hm : State.Sub 0x20000010 fs) (s : State) (x1 : Nat) (hs :
  State.Same fs k s) : State.Same fs k (State.seqStop s x1) := by
  unfold State.seqStop
  try dsimp only
  with_reducible repeat' first
    | assumption | exact State.Sub.of rfl hm | apply State.setReg_same | apply State.setWood_same | intro _ _ | split
    | dsimp only

theorem State.fgEnable_same {fs : Nat} {k : State} (hm : State.Sub 0x8860000058 fs) (s : State) (x1 : Nat) (hs :
  State.Same fs k s) : State.Same fs k (State.fgEnable s x1) := by
  unfold State.fgEnable
  try dsimp only
  with_reducible repeat' first
    | assumption | exact State.Sub.of rfl hm | apply State.fgResume_same | intro _ _ | split | dsimp only

theorem State.bgJournal_same {fs : Nat} {k : State} (hm : State.Sub 0x10 fs) (s : State) (x1 : Nat) (code : Nat)
  (step : Nat) (cursor : Nat) (path : List Nat) (exit : Nat) (hs : State.Same fs k s) : State.Same fs k
  (State.bgJournal s x1 code step cursor path exit) := by
  unfold State.bgJournal
  try dsimp only
  with_reducible repeat' first
    | assumption | exact State.Sub.of rfl hm | apply State.setReg_same | intro _ _ | split | dsimp only

theorem State.bgStep_same {fs : Nat} {k : State} (hm : State.Sub 0x20000010 fs) (s : State) (x1 : Nat) (code : Nat)
  (cursor : Nat) (path : List Nat) (done : Bool) (hs : State.Same fs k s) : State.Same fs k (State.bgStep s x1 code
  cursor path done) := by
  unfold State.bgStep
  try dsimp only
  with_reducible repeat' first
    | assumption | exact State.Sub.of rfl hm | apply State.bgJournal_same | apply State.setWood_same | intro _ _ | split
    | dsimp only

theorem State.fgSteps_same {fs : Nat} {k : State} (hm : State.Sub 0x8860000058 fs) (s : State) (x1 : Nat) (r : FgRun)
  (n : Nat) (hs : State.Same fs k s) : State.Same fs k (State.fgSteps s x1 r n).1 := by
  unfold State.fgSteps
  try dsimp only
  with_reducible repeat' first
    | assumption | exact State.Sub.of rfl hm | apply State.pathRun_same | apply State.bulkRun_same
    | refine State.bulkRun_same_eq ?_ (by assumption) ?_ | intro _ _ | split | dsimp only

theorem State.fgSteps_same_eq {fs : Nat} {k : State} (hm : State.Sub 0x8860000058 fs) {s : State} {x1 : Nat} {r :
  FgRun} {n : Nat} {ra rb} (ht : State.fgSteps s x1 r n = (ra, rb)) (hs : State.Same fs k s) : State.Same fs k ra := by
  have := State.fgSteps_same (k := k) hm s x1 r n hs
  rw [ht] at this
  exact this

theorem State.runHalf_same {fs : Nat} {k : State} (hm : State.Sub 0x8860000058 fs) (s : State) (r : FgRun) (n : Nat)
  (x3 : Nat) (hs : State.Same fs k s) : State.Same fs k (State.runHalf s r n x3).1 := by
  unfold State.runHalf
  try dsimp only
  with_reducible repeat' first
    | assumption | exact State.Sub.of rfl hm | apply State.fgRun_same | refine State.fgRun_same_eq ?_ (by assumption) ?_
    | apply State.fgJournal_same | apply State.fgSteps_same | refine State.fgSteps_same_eq ?_ (by assumption) ?_
    | apply State.setWood_same | apply State.raise_same | intro _ _ | split | dsimp only

theorem State.runHalf_same_eq {fs : Nat} {k : State} (hm : State.Sub 0x8860000058 fs) {s : State} {r : FgRun} {n :
  Nat} {x3 : Nat} {ra rb} (ht : State.runHalf s r n x3 = (ra, rb)) (hs : State.Same fs k s) : State.Same fs k ra := by
  have := State.runHalf_same (k := k) hm s r n x3 hs
  rw [ht] at this
  exact this

theorem State.runHalves_same {fs : Nat} {k : State} (hm : State.Sub 0x8860000058 fs) (s : State) (r : FgRun) (n :
  Nat) (x3 : List Nat) (x4 : Option Answer) (x5 : Nat) (hs : State.Same fs k s) : State.Same fs k (State.runHalves s
  r n x3 x4 x5).1 := by
  induction x3 generalizing s r n x4 x5 with
  | nil =>
    unfold State.runHalves
    try dsimp only
    with_reducible repeat' first
      | assumption | exact State.Sub.of rfl hm | apply State.runHalf_same
      | refine State.runHalf_same_eq ?_ (by assumption) ?_ | intro _ _ | split | dsimp only
  | cons a l ih =>
    unfold State.runHalves
    try dsimp only
    with_reducible repeat' first
      | assumption | exact State.Sub.of rfl hm | apply ih | apply State.runHalf_same
      | refine State.runHalf_same_eq ?_ (by assumption) ?_ | intro _ _ | split | dsimp only

theorem State.runHalves_same_eq {fs : Nat} {k : State} (hm : State.Sub 0x8860000058 fs) {s : State} {r : FgRun} {n :
  Nat} {x3 : List Nat} {x4 : Option Answer} {x5 : Nat} {ra rb} (ht : State.runHalves s r n x3 x4 x5 = (ra, rb)) (hs :
  State.Same fs k s) : State.Same fs k ra := by
  have := State.runHalves_same (k := k) hm s r n x3 x4 x5 hs
  rw [ht] at this
  exact this

theorem State.started_same {fs : Nat} {k : State} (hm : State.Sub 0x800000000 fs) (s : State) (i : Nat) (d : Done)
  (hs : State.Same fs k s) : State.Same fs k (State.started s i d) := by
  unfold State.started
  try dsimp only
  with_reducible repeat' first
    | assumption | exact State.Sub.of rfl hm | apply State.setHq_same | intro _ _ | split | dsimp only

theorem State.errAll_same {fs : Nat} {k : State} (hm : State.Sub 0x8000000010 fs) (s : State) (x1 : List Nat) (hs :
  State.Same fs k s) : State.Same fs k (State.errAll s x1) := by
  induction x1 generalizing s with
  | nil =>
    unfold State.errAll
    try dsimp only
    with_reducible repeat' first
      | assumption | exact State.Sub.of rfl hm | apply State.raise_same | intro _ _ | split | dsimp only
  | cons a l ih =>
    unfold State.errAll
    try dsimp only
    with_reducible repeat' first
      | assumption | exact State.Sub.of rfl hm | apply ih | apply State.raise_same | intro _ _ | split | dsimp only

theorem State.tableCmd_same {fs : Nat} {k : State} (hm : State.Sub 0xa860000058 fs) (s : State) (q : Nat) (p : Nat →
  Bool) (blk : List Byte) (n : Nat) (hs : State.Same fs k s) : State.Same fs k (State.tableCmd s q p blk n) := by
  unfold State.tableCmd
  try dsimp only
  with_reducible repeat' first
    | assumption | exact State.Sub.of rfl hm | apply State.runHalves_same
    | refine State.runHalves_same_eq ?_ (by assumption) ?_ | apply State.started_same | apply State.errAll_same
    | apply State.hintStart_same | intro _ _ | split | dsimp only

theorem State.tableDmaError_same {fs : Nat} {k : State} (hm : State.Sub 0xa800000010 fs) (s : State) (q : Nat) (hs :
  State.Same fs k s) : State.Same fs k (State.tableDmaError s q) := by
  unfold State.tableDmaError
  try dsimp only
  with_reducible repeat' first
    | assumption | exact State.Sub.of rfl hm | apply State.started_same | apply State.errAll_same | apply State.count_same
    | apply State.hintStart_same | intro _ _ | split | dsimp only

theorem State.learnJournal_same {fs : Nat} {k : State} (hm : State.Sub 0x10 fs) (s : State) (x1 : Nat) (hs :
  State.Same fs k s) : State.Same fs k (State.learnJournal s x1) := by
  unfold State.learnJournal
  try dsimp only
  with_reducible repeat' first
    | assumption | exact State.Sub.of rfl hm | apply State.journal_same | intro _ _ | split | dsimp only

theorem State.eastNext_same {fs : Nat} {k : State} (hm : State.Sub 0x8040000050 fs) (s : State) (hs : State.Same fs k
  s) : State.Same fs k (State.eastNext s) := by
  unfold State.eastNext
  try dsimp only
  with_reducible repeat' first
    | assumption | exact State.Sub.of rfl hm | apply State.bgYield_same | apply State.learnJournal_same
    | apply State.eastApply_same | intro _ _ | split | dsimp only | refine State.Same.upd_40000000 ?_ ?_

theorem State.bgRun_same {fs : Nat} {k : State} (hm : State.Sub 0x10 fs) (s : State) (x1 : Nat) (f : State → State)
  (hs : State.Same fs k s) (hf : ∀ s, State.Same fs k s → State.Same fs k (f s)) : State.Same fs k (State.bgRun s x1
  f) := by
  unfold State.bgRun
  try dsimp only
  with_reducible repeat' first
    | assumption | apply hf | exact State.Sub.of rfl hm | apply State.bgYield_same | intro _ _ | split | dsimp only

theorem State.seqReady_same {fs : Nat} {k : State} (hm : State.Sub 0x8860000058 fs) (s : State) (x1 : Nat) (hs :
  State.Same fs k s) : State.Same fs k (State.seqReady s x1) := by
  unfold State.seqReady
  try dsimp only
  with_reducible repeat' first
    | assumption | exact State.Sub.of rfl hm | apply State.raise_same | apply State.setWood_same
    | apply State.fgResume_same | intro _ _ | split | dsimp only

theorem State.learnNext_same {fs : Nat} {k : State} (hm : State.Sub 0x8860000058 fs) (s : State) (x1 : Nat) (hs :
  State.Same fs k s) : State.Same fs k (State.learnNext s x1) := by
  unfold State.learnNext
  try dsimp only
  with_reducible repeat' first
    | assumption | exact State.Sub.of rfl hm | apply State.setWood_same | apply State.bgYield_same
    | apply State.learnJournal_same | apply State.learnTake_same | intro _ _ | split | dsimp only

/-! ### Tally -/

theorem State.setRec_same {fs : Nat} {k : State} (hm : State.Sub 0x8200000010 fs) (s : State) (x1 : Nat) (x2 : Nat)
  (r : Option FlowRec) (hs : State.Same fs k s) : State.Same fs k (State.setRec s x1 x2 r) := by
  unfold State.setRec
  try dsimp only
  with_reducible repeat' first
    | assumption | exact State.Sub.of rfl hm | apply State.raiseIf_same | apply State.setTally_same | intro _ _ | split
    | dsimp only

theorem State.hbmUncorr_same {fs : Nat} {k : State} (hm : State.Sub 0x8000000010 fs) (s : State) (x1 : Nat) (unit :
  Nat) (hs : State.Same fs k s) : State.Same fs k (State.hbmUncorr s x1 unit) := by
  unfold State.hbmUncorr
  try dsimp only
  with_reducible repeat' first
    | assumption | exact State.Sub.of rfl hm | apply State.count_same | apply State.raise_same
    | apply State.latchFirst_same | intro _ _ | split | dsimp only

theorem State.retrain_same {fs : Nat} {k : State} (hm : State.Sub 0x9400000010 fs) (s : State) (x1 : Nat) (hs :
  State.Same fs k s) : State.Same fs k (State.retrain s x1) := by
  unfold State.retrain
  try dsimp only
  with_reducible repeat' first
    | assumption | exact State.Sub.of rfl hm | apply State.setHbm_same | apply State.raise_same | intro _ _ | split
    | dsimp only | refine State.Same.upd_1000000000 ?_ ?_

theorem State.zeroOvf_same {fs : Nat} {k : State} (hm : State.Sub 0x10 fs) (s : State) (pg : Nat) (x2 : Nat) (hs :
  State.Same fs k s) : State.Same fs k (State.zeroOvf s pg x2) := by
  induction x2 generalizing s pg with
  | zero =>
    unfold State.zeroOvf
    try dsimp only
    with_reducible repeat' first
      | assumption | exact State.Sub.of rfl hm | apply State.setReg64_same | intro _ _ | split | dsimp only
  | succ n ih =>
    unfold State.zeroOvf
    try dsimp only
    with_reducible repeat' first
      | assumption | exact State.Sub.of rfl hm | apply ih | apply State.setReg64_same | intro _ _ | split | dsimp only

theorem State.clearTally_same {fs : Nat} {k : State} (hm : State.Sub 0x200000010 fs) (s : State) (x1 : Nat) (hs :
  State.Same fs k s) : State.Same fs k (State.clearTally s x1) := by
  unfold State.clearTally
  try dsimp only
  with_reducible repeat' first
    | assumption | exact State.Sub.of rfl hm | apply State.setReg_same | apply State.setReg64_same
    | apply State.zeroOvf_same | apply State.setTally_same | intro _ _ | split | dsimp only

theorem State.exportAll_same {fs : Nat} {k : State} (hm : State.Sub 0x200000000 fs) (s : State) (x1 : Nat) (hs :
  State.Same fs k s) : State.Same fs k (State.exportAll s x1) := by
  unfold State.exportAll
  try dsimp only
  with_reducible repeat' first
    | assumption | exact State.Sub.of rfl hm | apply State.setTally_same | intro _ _ | split | dsimp only

theorem State.closeFill_same {fs : Nat} {k : State} (hm : State.Sub 0x800000000 fs) (s : State) (i : Nat) (hs :
  State.Same fs k s) : State.Same fs k (State.closeFill s i) := by
  unfold State.closeFill
  try dsimp only
  with_reducible repeat' first
    | assumption | exact State.Sub.of rfl hm | apply State.setHq_same | intro _ _ | split | dsimp only

theorem State.closeExports_same {fs : Nat} {k : State} (hm : State.Sub 0x800000000 fs) (s : State) (x1 : Nat) (cmd :
  Nat) (x3 : Nat) (hs : State.Same fs k s) : State.Same fs k (State.closeExports s x1 cmd x3) := by
  induction x3 generalizing s x1 cmd with
  | zero =>
    unfold State.closeExports
    try dsimp only
    with_reducible repeat' first
      | assumption | exact State.Sub.of rfl hm | apply State.closeFill_same | intro _ _ | split | dsimp only
  | succ n ih =>
    unfold State.closeExports
    try dsimp only
    with_reducible repeat' first
      | assumption | exact State.Sub.of rfl hm | apply ih | apply State.closeFill_same | intro _ _ | split | dsimp only

theorem State.flushCheck_same {fs : Nat} {k : State} (hm : State.Sub 0x8a00000010 fs) (s : State) (x1 : Nat) (hs :
  State.Same fs k s) : State.Same fs k (State.flushCheck s x1) := by
  unfold State.flushCheck
  try dsimp only
  with_reducible repeat' first
    | assumption | exact State.Sub.of rfl hm | apply State.setTally_same | apply State.closeExports_same
    | apply State.raise_same | intro _ _ | split | dsimp only

theorem State.flush_same {fs : Nat} {k : State} (hm : State.Sub 0x8a00000010 fs) (s : State) (x1 : Nat) (hs :
  State.Same fs k s) : State.Same fs k (State.flush s x1) := by
  unfold State.flush
  try dsimp only
  with_reducible repeat' first
    | assumption | exact State.Sub.of rfl hm | apply State.setTally_same | apply State.flushCheck_same | intro _ _ | split
    | dsimp only

theorem State.lineLost_same {fs : Nat} {k : State} (hm : State.Sub 0x8000000010 fs) (s : State) (x1 : Nat) (i : Nat)
  (d : FlowRec) (hs : State.Same fs k s) : State.Same fs k (State.lineLost s x1 i d) := by
  unfold State.lineLost
  try dsimp only
  with_reducible repeat' first
    | assumption | exact State.Sub.of rfl hm | apply State.raise_same | apply State.count64_same | intro _ _ | split
    | dsimp only

theorem State.sendIpfix_same {fs : Nat} {k : State} (hm : State.Sub 0x200146010 fs) (s : State) (x1 : Nat) (hs :
  State.Same fs k s) : State.Same fs k (State.sendIpfix s x1) := by
  unfold State.sendIpfix
  try dsimp only
  with_reducible repeat' first
    | assumption | exact State.Sub.of rfl hm | apply State.enterDeck_same | apply State.setTally_same | intro _ _ | split
    | dsimp only

theorem State.exportIpfix_same {fs : Nat} {k : State} (hm : State.Sub 0x200146010 fs) (s : State) (x1 : Nat) (e :
  Export) (hs : State.Same fs k s) : State.Same fs k (State.exportIpfix s x1 e) := by
  unfold State.exportIpfix
  try dsimp only
  with_reducible repeat' first
    | assumption | exact State.Sub.of rfl hm | apply State.setTally_same | apply State.sendIpfix_same | intro _ _ | split
    | dsimp only

theorem State.exportQueue_same {fs : Nat} {k : State} (hm : State.Sub 0x800000000 fs) {s : State} {n : Nat} {e :
  Export} {rr : State} (ht : State.exportQueue s n e = some rr) (hs : State.Same fs k s) : State.Same fs k rr := by
  unfold State.exportQueue at ht
  dsimp only at ht
  repeat' (split at ht)
  all_goals (first | contradiction | skip)
  all_goals (try (cases ht))
  all_goals
    with_reducible repeat' first
      | assumption | exact State.Sub.of rfl hm | apply State.closeFill_same | apply State.setHq_same | intro _ _ | split
      | dsimp only

theorem State.sendRec_same {fs : Nat} {k : State} (hm : State.Sub 0xa00146010 fs) {s : State} {x1 : Nat} {e : Export}
  {rr : State} (ht : State.sendRec s x1 e = some rr) (hs : State.Same fs k s) : State.Same fs k rr := by
  unfold State.sendRec at ht
  dsimp only at ht
  repeat' (split at ht)
  all_goals (first | contradiction | skip)
  all_goals (try (cases ht))
  all_goals
    with_reducible repeat' first
      | assumption | exact State.Sub.of rfl hm | apply State.exportIpfix_same
      | refine State.exportQueue_same ?_ (by assumption) ?_ | intro _ _ | split | dsimp only

theorem State.exportRec_same {fs : Nat} {k : State} (hm : State.Sub 0xa00146010 fs) {s : State} {x1 : Nat} {r :
  FlowRec} {cause : Nat} {cmd : Nat} {rr : State} (ht : State.exportRec s x1 r cause cmd = some rr) (hs : State.Same
  fs k s) : State.Same fs k rr := by
  obtain ⟨t, h, rfl⟩ := Option.map_eq_some_iff.1 ht
  exact State.count64_same (.of rfl hm) _ _ _ _ (State.count64_same (.of rfl hm) _ _ _ _ (State.count64_same (.of rfl hm) _ _ _ _ (State.sendRec_same (.of rfl hm) h hs)))

theorem State.applyLine_same {fs : Nat} {k : State} (hm : State.Sub 0x8a00146010 fs) {s : State} {x1 : Nat} {i : Nat}
  {d : FlowRec} {cmd : Nat} {rr : State} (ht : State.applyLine s x1 i d cmd = some rr) (hs : State.Same fs k s) :
  State.Same fs k rr := by
  unfold State.applyLine at ht
  dsimp only at ht
  split at ht
  · cases ht; exact State.lineLost_same (.of rfl hm) _ _ _ _ hs
  · split at ht
    · split at ht
      · obtain ⟨t, h, rfl⟩ := Option.map_eq_some_iff.1 ht
        exact State.count64_same (.of rfl hm) _ _ _ _ (State.setRec_same (.of rfl hm) _ _ _ _ (State.exportRec_same (.of rfl hm) h hs))
      · cases ht; exact State.count64_same (.of rfl hm) _ _ _ _ (State.setRec_same (.of rfl hm) _ _ _ _ hs)
    · split at ht
      · cases ht; exact State.count64_same (.of rfl hm) _ _ _ _ (State.setRec_same (.of rfl hm) _ _ _ _ hs)
      · cases ht; exact State.lineLost_same (.of rfl hm) _ _ _ _ hs

theorem State.exportOvf_same {fs : Nat} {k : State} (hm : State.Sub 0xa00146010 fs) {s : State} {x1 : Nat} {i : Nat}
  {rr : State} (ht : State.exportOvf s x1 i = some rr) (hs : State.Same fs k s) : State.Same fs k rr := by
  obtain ⟨t, h, rfl⟩ := Option.map_eq_some_iff.1 ht
  exact State.setTally_same (.of rfl hm) _ _ _ (State.sendRec_same (.of rfl hm) h hs)

theorem State.exportCheck_same {fs : Nat} {k : State} (hm : State.Sub 0x8a00000010 fs) (s : State) (x1 : Nat) (hs :
  State.Same fs k s) : State.Same fs k (State.exportCheck s x1) := by
  unfold State.exportCheck
  try dsimp only
  with_reducible repeat' first
    | assumption | exact State.Sub.of rfl hm | apply State.closeExports_same | apply State.raise_same
    | apply State.setTally_same | intro _ _ | split | dsimp only

theorem State.exportOvfs_same {fs : Nat} {k : State} (hm : State.Sub 0x8a00146010 fs) (s : State) (x1 : Nat) (x2 :
  Nat) (x3 : Nat) (hs : State.Same fs k s) : State.Same fs k (State.exportOvfs s x1 x2 x3) := by
  induction x3 generalizing s x2 with
  | zero => exact State.exportCheck_same (.of rfl hm) _ _ (State.setTally_same (.of rfl hm) _ _ _ hs)
  | succ n ih =>
    unfold State.exportOvfs
    split
    · exact ih _ _ (State.exportOvf_same (.of rfl hm) (by assumption) hs)
    · exact State.setTally_same (.of rfl hm) _ _ _ hs

theorem State.loseRecs_same {fs : Nat} {k : State} (hm : State.Sub 0x8200000010 fs) (s : State) (x1 : Nat) (ok :
  BitVec 4) (x3 : Nat) (x4 : List Nat) (hs : State.Same fs k s) : State.Same fs k (State.loseRecs s x1 ok x3 x4) := by
  induction x4 generalizing s x1 ok x3 with
  | nil =>
    unfold State.loseRecs
    try dsimp only
    with_reducible repeat' first
      | assumption | exact State.Sub.of rfl hm | apply State.setTally_same | apply State.count64_same
      | apply State.setRec_same | apply State.count_same | intro _ _ | split | dsimp only
  | cons a l ih =>
    unfold State.loseRecs
    try dsimp only
    with_reducible repeat' first
      | assumption | exact State.Sub.of rfl hm | apply ih | apply State.setTally_same | apply State.count64_same
      | apply State.setRec_same | apply State.count_same | intro _ _ | split | dsimp only

theorem State.hbmLost_same {fs : Nat} {k : State} (hm : State.Sub 0x8200000014 fs) (s : State) (x1 : Nat) (u : Nat)
  (ok : BitVec 4) (hs : State.Same fs k s) : State.Same fs k (State.hbmLost s x1 u ok) := by
  unfold State.hbmLost
  try dsimp only
  with_reducible repeat' first
    | assumption | exact State.Sub.of rfl hm | apply State.loseRecs_same | apply State.raise_same
    | apply State.hbmUncorr_same | apply State.drawn_same | intro _ _ | split | dsimp only

theorem State.hbmErrs_same {fs : Nat} {k : State} (hm : State.Sub 0x9400000014 fs) (s : State) (x1 : Nat) (hs :
  State.Same fs k s) : State.Same fs k (State.hbmErrs s x1) := by
  unfold State.hbmErrs
  try dsimp only
  with_reducible repeat' first
    | assumption | exact State.Sub.of rfl hm | apply State.retrain_same | apply State.setHbm_same | apply State.count_same
    | apply State.drawn_same | intro _ _ | split | dsimp only

theorem execClearDone_same {fs : Nat} {k : State} (hm : State.Sub 0x8a00000010 fs) {x0 : Half} {s : State} {rr :
  State} (ht : execClearDone x0 s = .next rr) (hs : State.Same fs k s) : State.Same fs k rr := by
  refine State.Same.run (fun s hs => ?_) hs ht
  try dsimp only
  with_reducible repeat' first
    | assumption | exact State.Sub.of rfl hm | apply State.setTally_same | apply State.flushCheck_same
    | apply State.raise_same | apply State.onlyIf_same | intro _ _ | split | dsimp only

theorem State.paceSpend_same {fs : Nat} {k : State} (hm : State.Sub 0x200000000 fs) (s : State) (x1 : Nat) (hs :
  State.Same fs k s) : State.Same fs k (State.paceSpend s x1) := by
  unfold State.paceSpend
  try dsimp only
  with_reducible repeat' first
    | assumption | exact State.Sub.of rfl hm | apply State.setTally_same | intro _ _ | split | dsimp only

theorem State.scanSlots_same {fs : Nat} {k : State} (hm : State.Sub 0x8a00146010 fs) (s : State) (x1 : Nat) (forced :
  Bool) (x3 : List Nat) (hs : State.Same fs k s) : State.Same fs k (State.scanSlots s x1 forced x3).1 := by
  induction x3 generalizing s x1 forced with
  | nil =>
    unfold State.scanSlots
    try dsimp only
    with_reducible repeat' first
      | assumption | exact State.Sub.of rfl hm | apply State.setRec_same
      | refine State.exportRec_same ?_ (by assumption) ?_ | intro _ _ | split | dsimp only
  | cons a l ih =>
    unfold State.scanSlots
    try dsimp only
    with_reducible repeat' first
      | assumption | exact State.Sub.of rfl hm | apply ih | apply State.setRec_same
      | refine State.exportRec_same ?_ (by assumption) ?_ | intro _ _ | split | dsimp only

theorem State.scanSlots_same_eq {fs : Nat} {k : State} (hm : State.Sub 0x8a00146010 fs) {s : State} {x1 : Nat}
  {forced : Bool} {x3 : List Nat} {ra rb} (ht : State.scanSlots s x1 forced x3 = (ra, rb)) (hs : State.Same fs k s) :
  State.Same fs k ra := by
  have := State.scanSlots_same (k := k) hm s x1 forced x3 hs
  rw [ht] at this
  exact this

theorem State.scanVisit_same {fs : Nat} {k : State} (hm : State.Sub 0x8a00146010 fs) (s : State) (x1 : Nat) (hs :
  State.Same fs k s) : State.Same fs k (State.scanVisit s x1) := by
  unfold State.scanVisit
  try dsimp only
  with_reducible repeat' first
    | assumption | exact State.Sub.of rfl hm | apply State.setTally_same | apply State.exportCheck_same
    | apply State.scanSlots_same | refine State.scanSlots_same_eq ?_ (by assumption) ?_ | intro _ _ | split | dsimp only

theorem State.evictOne_same {fs : Nat} {k : State} (hm : State.Sub 0x8a00146010 fs) (s : State) (x1 : Nat) (hs :
  State.Same fs k s) : State.Same fs k (State.evictOne s x1) := by
  unfold State.evictOne
  try dsimp only
  with_reducible repeat' first
    | assumption | exact State.Sub.of rfl hm | apply State.flushCheck_same
    | refine State.applyLine_same ?_ (by assumption) ?_ | apply State.setTally_same | intro _ _ | split | dsimp only

theorem execTallyEviction_same {fs : Nat} {k : State} (hm : State.Sub 0x8a00146010 fs) {x0 : Half} {s : State} {rr :
  State} (ht : execTallyEviction x0 s = .next rr) (hs : State.Same fs k s) : State.Same fs k rr := by
  refine State.Same.run (fun s hs => ?_) hs ht
  try dsimp only
  with_reducible repeat' first
    | assumption | exact State.Sub.of rfl hm | apply State.paceSpend_same | apply State.evictOne_same
    | apply State.onlyIf_same | intro _ _ | split | dsimp only

theorem State.cacheBack_same {fs : Nat} {k : State} (hm : State.Sub 0x200000000 fs) (s : State) (x1 : Nat) (x2 : Nat)
  (hs : State.Same fs k s) : State.Same fs k (State.cacheBack s x1 x2) := by
  unfold State.cacheBack
  try dsimp only
  with_reducible repeat' first
    | assumption | exact State.Sub.of rfl hm | apply State.setTally_same | intro _ _ | split | dsimp only

theorem execCacheWriteback_same {fs : Nat} {k : State} (hm : State.Sub 0x200000000 fs) {sl : Slice} {line : Fin
  65536} {s : State} {rr : State} (ht : execCacheWriteback sl line s = .next rr) (hs : State.Same fs k s) :
  State.Same fs k rr := by
  refine State.Same.run (fun s hs => ?_) hs ht
  try dsimp only
  with_reducible repeat' first
    | assumption | exact State.Sub.of rfl hm | apply State.cacheBack_same | apply State.onlyIf_same | intro _ _ | split
    | dsimp only

theorem State.retrainEnd_same {fs : Nat} {k : State} (hm : State.Sub 0x8400000010 fs) (s : State) (x1 : Nat) (failed
  : Bool) (hs : State.Same fs k s) : State.Same fs k (State.retrainEnd s x1 failed) := by
  unfold State.retrainEnd
  try dsimp only
  with_reducible repeat' first
    | assumption | exact State.Sub.of rfl hm | apply State.count_same | apply State.setReg_same | apply State.setHbm_same
    | apply State.raise_same | intro _ _ | split | dsimp only

theorem execRetrainDone_same {fs : Nat} {k : State} (hm : State.Sub 0x8400000010 fs) {x0 : Half} {failed : Bool} {s :
  State} {rr : State} (ht : execRetrainDone x0 failed s = .next rr) (hs : State.Same fs k s) : State.Same fs k rr := by
  refine State.Same.run (fun s hs => ?_) hs ht
  try dsimp only
  with_reducible repeat' first
    | assumption | exact State.Sub.of rfl hm | apply State.retrainEnd_same | intro _ _ | split | dsimp only

theorem execOverflowExport_same {fs : Nat} {k : State} (hm : State.Sub 0x8a00146010 fs) {x0 : Half} {s : State} {rr :
  State} (ht : execOverflowExport x0 s = .next rr) (hs : State.Same fs k s) : State.Same fs k rr := by
  refine State.Same.run (fun s hs => ?_) hs ht
  try dsimp only
  with_reducible repeat' first
    | assumption | exact State.Sub.of rfl hm | apply State.exportOvfs_same | apply State.onlyIf_same | intro _ _ | split
    | dsimp only

theorem execHbmLost_same {fs : Nat} {k : State} (hm : State.Sub 0x8200000014 fs) {x0 : Half} {bucket : Fin 4194304}
  {countsOk : BitVec 4} {s : State} {rr : State} (ht : execHbmLost x0 bucket countsOk s = .next rr) (hs : State.Same
  fs k s) : State.Same fs k rr := by
  refine State.Same.run (fun s hs => ?_) hs ht
  try dsimp only
  with_reducible repeat' first
    | assumption | exact State.Sub.of rfl hm | apply State.hbmLost_same | apply State.onlyIf_same | intro _ _ | split
    | dsimp only

theorem execIpfixMessage_same {fs : Nat} {k : State} (hm : State.Sub 0x200146010 fs) {x0 : Half} {s : State} {rr :
  State} (ht : execIpfixMessage x0 s = .next rr) (hs : State.Same fs k s) : State.Same fs k rr := by
  refine State.Same.run (fun s hs => ?_) hs ht
  try dsimp only
  with_reducible repeat' first
    | assumption | exact State.Sub.of rfl hm | apply State.sendIpfix_same | apply State.onlyIf_same | intro _ _ | split
    | dsimp only

theorem execScanVisit_same {fs : Nat} {k : State} (hm : State.Sub 0x8a00146010 fs) {x0 : Half} {s : State} {rr :
  State} (ht : execScanVisit x0 s = .next rr) (hs : State.Same fs k s) : State.Same fs k rr := by
  refine State.Same.run (fun s hs => ?_) hs ht
  try dsimp only
  with_reducible repeat' first
    | assumption | exact State.Sub.of rfl hm | apply State.scanVisit_same | apply State.onlyIf_same | intro _ _ | split
    | dsimp only

/-! ### HostDma -/

theorem State.hqLeave_same {fs : Nat} {k : State} (hm : State.Sub 0x8b120c2010 fs) (s : State) (i : Nat) (hs :
  State.Same fs k s) : State.Same fs k (State.hqLeave s i) := by
  unfold State.hqLeave
  try dsimp only
  with_reducible repeat' first
    | assumption | exact State.Sub.of rfl hm | apply State.setHq_same | apply State.dropPunts_same | intro _ _ | split
    | dsimp only

theorem State.hqCtrlWrite_same {fs : Nat} {k : State} (hm : State.Sub 0x8b120c2010 fs) (s : State) (i : Nat) (v :
  Word) (hs : State.Same fs k s) : State.Same fs k (State.hqCtrlWrite s i v) := by
  unfold State.hqCtrlWrite
  try dsimp only
  with_reducible repeat' first
    | assumption | exact State.Sub.of rfl hm | apply State.hqLeave_same | apply State.setHq_same
    | apply State.setHqReg_same | intro _ _ | split | dsimp only

theorem State.hqHalt_same {fs : Nat} {k : State} (hm : State.Sub 0x8b120c2010 fs) (s : State) (i : Nat) (err : Nat)
  (hs : State.Same fs k s) : State.Same fs k (State.hqHalt s i err) := by
  unfold State.hqHalt
  try dsimp only
  with_reducible repeat' first
    | assumption | exact State.Sub.of rfl hm | apply State.count_same | apply State.raise_same | apply State.setHq_same
    | apply State.hqLeave_same | intro _ _ | split | dsimp only

theorem State.doorbell_same {fs : Nat} {k : State} (hm : State.Sub 0x8b120c2010 fs) (s : State) (i : Nat) (v : Word)
  (hs : State.Same fs k s) : State.Same fs k (State.doorbell s i v) := by
  unfold State.doorbell
  try dsimp only
  with_reducible repeat' first
    | assumption | exact State.Sub.of rfl hm | apply State.coverTo_same | apply State.hqHalt_same
    | apply State.setHqReg_same | apply State.setReg_same | intro _ _ | split | dsimp only

theorem State.hqsOff_same {fs : Nat} {k : State} (hm : State.Sub 0x8b120c2010 fs) (s : State) (x1 : Nat) (hs :
  State.Same fs k s) : State.Same fs k (State.hqsOff s x1) := by
  induction x1 generalizing s with
  | zero =>
    unfold State.hqsOff
    try dsimp only
    with_reducible repeat' first
      | assumption | exact State.Sub.of rfl hm | apply State.setHq_same | apply State.dropPunts_same | intro _ _ | split
      | dsimp only
  | succ n ih =>
    unfold State.hqsOff
    try dsimp only
    with_reducible repeat' first
      | assumption | exact State.Sub.of rfl hm | apply ih | apply State.setHq_same | apply State.dropPunts_same | intro _ _
      | split | dsimp only

theorem State.functionReset_same {fs : Nat} {k : State} (hm : State.Sub 0x8b120c2010 fs) (s : State) (hs : State.Same
  fs k s) : State.Same fs k (State.functionReset s) := by
  unfold State.functionReset
  try dsimp only
  with_reducible repeat' first
    | assumption | exact State.Sub.of rfl hm | apply State.hqsOff_same | apply State.count_same | apply State.raise_same
    | intro _ _ | split | dsimp only | refine State.Same.upd_800000000 ?_ ?_

theorem State.pcieDown_same {fs : Nat} {k : State} (hm : State.Sub 0x8b120c2010 fs) (s : State) (hs : State.Same fs k
  s) : State.Same fs k (State.pcieDown s) := by
  unfold State.pcieDown
  try dsimp only
  with_reducible repeat' first
    | assumption | exact State.Sub.of rfl hm | apply State.functionReset_same | intro _ _ | split | dsimp only
    | refine State.Same.upd_800000000 ?_ ?_

theorem State.perst_same {fs : Nat} {k : State} (hm : State.Sub 0x8b120c2010 fs) (s : State) (level : Bool) (hs :
  State.Same fs k s) : State.Same fs k (State.perst s level) := by
  unfold State.perst
  try dsimp only
  with_reducible repeat' first
    | assumption | exact State.Sub.of rfl hm | apply State.functionReset_same | apply State.pcieDown_same | intro _ _
    | split | dsimp only | refine State.Same.upd_800000000 ?_ ?_

theorem execPerstN_same {fs : Nat} {k : State} (hm : State.Sub 0x8b120c2010 fs) {level : Bool} {s : State} {rr :
  State} (ht : execPerstN level s = .next rr) (hs : State.Same fs k s) : State.Same fs k rr := by
  refine State.Same.run (fun s hs => ?_) hs ht
  try dsimp only
  with_reducible repeat' first
    | assumption | exact State.Sub.of rfl hm | apply State.perst_same | intro _ _ | split | dsimp only

theorem State.hqSignalled_same {fs : Nat} {k : State} (hm : State.Sub 0x800000000 fs) (s : State) (x1 : List Nat) (hs
  : State.Same fs k s) : State.Same fs k (State.hqSignalled s x1) := by
  induction x1 generalizing s with
  | nil =>
    unfold State.hqSignalled
    try dsimp only
    with_reducible repeat' first
      | assumption | exact State.Sub.of rfl hm | apply State.setHq_same | intro _ _ | split | dsimp only
  | cons a l ih =>
    unfold State.hqSignalled
    try dsimp only
    with_reducible repeat' first
      | assumption | exact State.Sub.of rfl hm | apply ih | apply State.setHq_same | intro _ _ | split | dsimp only

theorem State.irqHoldoff_same {fs : Nat} {k : State} (hm : State.Sub 0x800000008 fs) (s : State) (i : Nat) (hs :
  State.Same fs k s) : State.Same fs k (State.irqHoldoff s i) := by
  unfold State.irqHoldoff
  try dsimp only
  with_reducible repeat' first
    | assumption | exact State.Sub.of rfl hm | apply State.hqSignalled_same | apply State.msix_same | intro _ _ | split
    | dsimp only

theorem execQueueDrained_same {fs : Nat} {k : State} (hm : State.Sub 0x800000000 fs) {q : QueueId} {s : State} {rr :
  State} (ht : execQueueDrained q s = .next rr) (hs : State.Same fs k s) : State.Same fs k rr := by
  refine State.Same.run (fun s hs => ?_) hs ht
  try dsimp only
  with_reducible repeat' first
    | assumption | exact State.Sub.of rfl hm | apply State.setHq_same | apply State.onlyIf_same | intro _ _ | split
    | dsimp only

theorem State.txReadError_same {fs : Nat} {k : State} (hm : State.Sub 0x800000010 fs) (s : State) (t : Nat) (hs :
  State.Same fs k s) : State.Same fs k (State.txReadError s t) := by
  unfold State.txReadError
  try dsimp only
  with_reducible repeat' first
    | assumption | exact State.Sub.of rfl hm | apply State.count_same | apply State.started_same | intro _ _ | split
    | dsimp only

theorem execDmaReadError_same {fs : Nat} {k : State} (hm : State.Sub 0xa800000010 fs) {q : QueueId} {s : State} {rr :
  State} (ht : execDmaReadError q s = .next rr) (hs : State.Same fs k s) : State.Same fs k rr := by
  refine State.Same.run (fun s hs => ?_) hs ht
  try dsimp only
  with_reducible repeat' first
    | assumption | exact State.Sub.of rfl hm | apply State.tableDmaError_same | apply State.txReadError_same | intro _ _
    | split | dsimp only

theorem State.fetchDesc_same {fs : Nat} {k : State} (hm : State.Sub 0x8b120c2010 fs) (s : State) (i : Nat) (words :
  Option (List Word)) (hs : State.Same fs k s) : State.Same fs k (State.fetchDesc s i words) := by
  unfold State.fetchDesc
  try dsimp only
  with_reducible repeat' first
    | assumption | exact State.Sub.of rfl hm | apply State.setHq_same | apply State.hqHalt_same | intro _ _ | split
    | dsimp only

theorem State.txEnter_same {fs : Nat} {k : State} (hm : State.Sub 0x1ce010 fs) (s : State) (t : Nat) (ws : List Word)
  (data : List Byte) (hs : State.Same fs k s) : State.Same fs k (State.txEnter s t ws data) := by
  unfold State.txEnter
  try dsimp only
  with_reducible repeat' first
    | assumption | exact State.Sub.of rfl hm | apply State.setDeck_same | apply State.enterDeck_same
    | apply State.setSlice_same | apply State.newFrame_same | intro _ _ | split | dsimp only

theorem State.txRun_same {fs : Nat} {k : State} (hm : State.Sub 0x8001ce010 fs) (s : State) (t : Nat) (p : Nat →
  Bool) (data : List Byte) (hs : State.Same fs k s) : State.Same fs k (State.txRun s t p data) := by
  unfold State.txRun
  try dsimp only
  with_reducible repeat' first
    | assumption | exact State.Sub.of rfl hm | apply State.txEnter_same | apply State.started_same | intro _ _ | split
    | dsimp only

theorem execPoolWrite_same {fs : Nat} {k : State} (hm : State.Sub 0x8001ce010 fs) {q : Fin 64} {data : List Byte} {s
  : State} {rr : State} (ht : execPoolWrite q data s = .next rr) (hs : State.Same fs k s) : State.Same fs k rr := by
  refine State.Same.run (fun s hs => ?_) hs ht
  try dsimp only
  with_reducible repeat' first
    | assumption | exact State.Sub.of rfl hm | apply State.txRun_same | intro _ _ | split | dsimp only

theorem execIrqHoldoff_same {fs : Nat} {k : State} (hm : State.Sub 0x800000008 fs) {q : QueueId} {s : State} {rr :
  State} (ht : execIrqHoldoff q s = .next rr) (hs : State.Same fs k s) : State.Same fs k rr := by
  refine State.Same.run (fun s hs => ?_) hs ht
  try dsimp only
  with_reducible repeat' first
    | assumption | exact State.Sub.of rfl hm | apply State.irqHoldoff_same | intro _ _ | split | dsimp only

theorem State.aerNonFatal_same {fs : Nat} {k : State} (hm : State.Sub 0x800000008 fs) (s : State) (n : Nat) (hs :
  State.Same fs k s) : State.Same fs k (State.aerNonFatal s n) := by
  unfold State.aerNonFatal
  try dsimp only
  with_reducible repeat' first
    | assumption | exact State.Sub.of rfl hm | apply State.emit_same | intro _ _ | split | dsimp only
    | refine State.Same.upd_800000000 ?_ ?_

theorem State.deliver_same {fs : Nat} {k : State} (hm : State.Sub 0x8b120c2018 fs) (s : State) (q : Nat) (i : Nat)
  (idx : Nat) (ws : List Word) (hs : State.Same fs k s) : State.Same fs k (State.deliver s q i idx ws) := by
  unfold State.deliver
  try dsimp only
  with_reducible repeat' first
    | assumption | exact State.Sub.of rfl hm | apply State.finish_same | apply State.accountUnit_same
    | apply State.count64_same | apply State.releaseCells_same | apply State.hqWriteBack_same | apply State.setHq_same
    | intro _ _ | split | dsimp only

theorem State.puntDeliver_same {fs : Nat} {k : State} (hm : State.Sub 0x8b120c2018 fs) (s : State) (q : Nat) (hs :
  State.Same fs k s) : State.Same fs k (State.puntDeliver s q) := by
  unfold State.puntDeliver
  try dsimp only
  with_reducible repeat' first
    | assumption | exact State.Sub.of rfl hm | apply State.deliver_same | apply State.hqWriteBack_same
    | apply State.setHq_same | apply State.dropPunt_same | intro _ _ | split | dsimp only

theorem execPuntDeliver_same {fs : Nat} {k : State} (hm : State.Sub 0x8b120c2018 fs) {q : Fin 64} {s : State} {rr :
  State} (ht : execPuntDeliver q s = .next rr) (hs : State.Same fs k s) : State.Same fs k rr := by
  refine State.Same.run (fun s hs => ?_) hs ht
  try dsimp only
  with_reducible repeat' first
    | assumption | exact State.Sub.of rfl hm | apply State.puntDeliver_same | intro _ _ | split | dsimp only

theorem execExportBufferTimeout_same {fs : Nat} {k : State} (hm : State.Sub 0x800000000 fs) {n : Fin 8} {s : State}
  {rr : State} (ht : execExportBufferTimeout n s = .next rr) (hs : State.Same fs k s) : State.Same fs k rr := by
  refine State.Same.run (fun s hs => ?_) hs ht
  try dsimp only
  with_reducible repeat' first
    | assumption | exact State.Sub.of rfl hm | apply State.closeFill_same | apply State.onlyIf_same | intro _ _ | split
    | dsimp only

theorem execBusMasterEnable_same {fs : Nat} {k : State} (hm : State.Sub 0x800000010 fs) {bme : Bool} {d3hot : Bool}
  {s : State} {rr : State} (ht : execBusMasterEnable bme d3hot s = .next rr) (hs : State.Same fs k s) : State.Same fs
  k rr := by
  refine State.Same.run (fun s hs => ?_) hs ht
  try dsimp only
  with_reducible repeat' first
    | assumption | exact State.Sub.of rfl hm | apply State.count_same | intro _ _ | split | dsimp only
    | refine State.Same.upd_800000000 ?_ ?_

theorem execPcieLinkUp_same {fs : Nat} {k : State} (hm : State.Sub 0x800000000 fs) {width : Fin 4} {speed : Fin 5} {s
  : State} {rr : State} (ht : execPcieLinkUp width speed s = .next rr) (hs : State.Same fs k s) : State.Same fs k rr
  := by
  refine State.Same.run (fun s hs => ?_) hs ht
  try dsimp only
  with_reducible repeat' first
    | assumption | exact State.Sub.of rfl hm | apply State.onlyIf_same | intro _ _ | split | dsimp only
    | refine State.Same.upd_800000000 ?_ ?_

theorem execPoisonedWrite_same {fs : Nat} {k : State} (hm : State.Sub 0x8800000018 fs) {s : State} {rr : State} (ht :
  execPoisonedWrite s = .next rr) (hs : State.Same fs k s) : State.Same fs k rr := by
  refine State.Same.run (fun s hs => ?_) hs ht
  try dsimp only
  with_reducible repeat' first
    | assumption | exact State.Sub.of rfl hm | apply State.aerNonFatal_same | apply State.count_same
    | apply State.raise_same | intro _ _ | split | dsimp only

theorem execPcieLinkDown_same {fs : Nat} {k : State} (hm : State.Sub 0x8b120c2010 fs) {s : State} {rr : State} (ht :
  execPcieLinkDown s = .next rr) (hs : State.Same fs k s) : State.Same fs k rr := by
  refine State.Same.run (fun s hs => ?_) hs ht
  try dsimp only
  with_reducible repeat' first
    | assumption | exact State.Sub.of rfl hm | apply State.pcieDown_same | intro _ _ | split | dsimp only

theorem execHotReset_same {fs : Nat} {k : State} (hm : State.Sub 0x8b120c2010 fs) {s : State} {rr : State} (ht :
  execHotReset s = .next rr) (hs : State.Same fs k s) : State.Same fs k rr := by
  refine State.Same.run (fun s hs => ?_) hs ht
  try dsimp only
  with_reducible repeat' first
    | assumption | exact State.Sub.of rfl hm | apply State.functionReset_same | intro _ _ | split | dsimp only

theorem execFlr_same {fs : Nat} {k : State} (hm : State.Sub 0x8b120c2010 fs) {s : State} {rr : State} (ht : execFlr s
  = .next rr) (hs : State.Same fs k s) : State.Same fs k rr := by
  refine State.Same.run (fun s hs => ?_) hs ht
  try dsimp only
  with_reducible repeat' first
    | assumption | exact State.Sub.of rfl hm | apply State.functionReset_same | intro _ _ | split | dsimp only

theorem execDirect_same {fs : Nat} {k : State} (hm : State.Sub 0x8001ce010 fs) {q : Fin 64} {data : List Byte} {s :
  State} {rr : State} (ht : execDirect q data s = .next rr) (hs : State.Same fs k s) : State.Same fs k rr := by
  refine State.Same.run (fun s hs => ?_) hs ht
  try dsimp only
  with_reducible repeat' first
    | assumption | exact State.Sub.of rfl hm | apply State.txRun_same | intro _ _ | split | dsimp only

theorem execPipe_same {fs : Nat} {k : State} (hm : State.Sub 0x8001ce010 fs) {q : Fin 64} {data : List Byte} {s :
  State} {rr : State} (ht : execPipe q data s = .next rr) (hs : State.Same fs k s) : State.Same fs k rr := by
  refine State.Same.run (fun s hs => ?_) hs ht
  try dsimp only
  with_reducible repeat' first
    | assumption | exact State.Sub.of rfl hm | apply State.txRun_same | intro _ _ | split | dsimp only

theorem State.complete_same {fs : Nat} {k : State} (hm : State.Sub 0x800000018 fs) (s : State) (i : Nat) (hs :
  State.Same fs k s) : State.Same fs k (State.complete s i) := by
  unfold State.complete
  try dsimp only
  with_reducible repeat' first
    | assumption | exact State.Sub.of rfl hm | apply State.setHq_same | apply State.hqWriteBack_same | intro _ _ | split
    | dsimp only

theorem execDescriptorComplete_same {fs : Nat} {k : State} (hm : State.Sub 0x800000018 fs) {q : QueueId} {s : State}
  {rr : State} (ht : execDescriptorComplete q s = .next rr) (hs : State.Same fs k s) : State.Same fs k rr := by
  refine State.Same.run (fun s hs => ?_) hs ht
  try dsimp only
  with_reducible repeat' first
    | assumption | exact State.Sub.of rfl hm | apply State.complete_same | intro _ _ | split | dsimp only

theorem execDescriptorFetch_same {fs : Nat} {k : State} (hm : State.Sub 0x8b120c2010 fs) {q : QueueId} {words :
  Option (List Word)} {s : State} {rr : State} (ht : execDescriptorFetch q words s = .next rr) (hs : State.Same fs k
  s) : State.Same fs k rr := by
  refine State.Same.run (fun s hs => ?_) hs ht
  try dsimp only
  with_reducible repeat' first
    | assumption | exact State.Sub.of rfl hm | apply State.fetchDesc_same | intro _ _ | split | dsimp only

/-! ### Kerf -/

theorem State.leaveMcast_same {fs : Nat} {k : State} (hm : State.Sub 0x310156010 fs) (s : State) (i : Nat) (sl : Nat)
  (hs : State.Same fs k s) : State.Same fs k (State.leaveMcast s i sl) := by
  unfold State.leaveMcast
  try dsimp only
  with_reducible repeat' first
    | assumption | exact State.Sub.of rfl hm | apply State.newCopy_same | apply State.beginHolder_same
    | apply State.toStep4_same | apply State.setFrame_same | apply State.dropIngress_same | intro _ _ | split | dsimp only
    | refine State.Same.upd_10000 ?_ ?_

theorem State.leaveIngress_same {fs : Nat} {k : State} (hm : State.Sub 0x310156010 fs) (s : State) (i : Nat) (sl :
  Nat) (hs : State.Same fs k s) : State.Same fs k (State.leaveIngress s i sl) := by
  unfold State.leaveIngress
  try dsimp only
  with_reducible repeat' first
    | assumption | exact State.Sub.of rfl hm | apply State.leaveMcast_same | apply State.toStep4_same
    | apply State.setFrame_same | apply State.dropIngress_same | apply State.raftResolve_same
    | refine State.raftResolve_same_eq ?_ (by assumption) ?_ | intro _ _ | split | dsimp only

theorem State.stageNext_same {fs : Nat} {k : State} (hm : State.Sub 0x31015e010 fs) (s : State) (i : Nat) (sl : Nat)
  (dir : Dir) (x4 : Nat) (hs : State.Same fs k s) : State.Same fs k (State.stageNext s i sl dir x4) := by
  unfold State.stageNext
  try dsimp only
  with_reducible repeat' first
    | assumption | exact State.Sub.of rfl hm | apply State.setSlice_same | apply State.leaveIngress_same
    | apply State.toStage_same | intro _ _ | split | dsimp only

theorem State.dispose_same {fs : Nat} {k : State} (hm : State.Sub 0x9b135de010 fs) (s : State) (i : Nat) (sl : Nat)
  (dir : Dir) (x4 : Nat) (pg : Nat) (w : Nat) (x : Executed) (hs : State.Same fs k s) : State.Same fs k
  (State.dispose s i sl dir x4 pg w x) := by
  unfold State.dispose
  try dsimp only
  with_reducible repeat' first
    | assumption | exact State.Sub.of rfl hm | apply State.stageNext_same | apply State.puntStage_same
    | apply State.count64_same | apply State.dropStage_same | apply State.tdCycle_same | apply State.tdGone_same
    | apply State.setFrame_same | intro _ _ | split | dsimp only

theorem State.runMeter_same {fs : Nat} {k : State} (hm : State.Sub 0xc000040 fs) (s : State) (pg : Nat) (w : Nat) (f
  : Frame) (hs : State.Same fs k s) : State.Same fs k (State.runMeter s pg w f).1 := by
  unfold State.runMeter
  try dsimp only
  with_reducible repeat' first
    | assumption | exact State.Sub.of rfl hm | apply State.addLate_same | apply State.setMeter_same | intro _ _ | split
    | dsimp only

theorem State.runMeter_same_eq {fs : Nat} {k : State} (hm : State.Sub 0xc000040 fs) {s : State} {pg : Nat} {w : Nat}
  {f : Frame} {ra rb} (ht : State.runMeter s pg w f = (ra, rb)) (hs : State.Same fs k s) : State.Same fs k ra := by
  have := State.runMeter_same (k := k) hm s pg w f hs
  rw [ht] at this
  exact this

theorem State.runMicro_same {fs : Nat} {k : State} (hm : State.Sub 0x80ac000054 fs) (s : State) (sl : Nat) (dir :
  Dir) (pg : Nat) (b : Nat) (w : Nat) (f : Frame) (hs : State.Same fs k s) : State.Same fs k (State.runMicro s sl dir
  pg b w f).1 := by
  unfold State.runMicro
  try dsimp only
  with_reducible repeat' first
    | assumption | exact State.Sub.of rfl hm | apply State.pairAdd_same | apply State.addLate_same
    | apply State.runMeter_same | refine State.runMeter_same_eq ?_ (by assumption) ?_ | apply State.count_same
    | apply State.raiseIf_same | apply State.drawn_same | apply State.microLookup_same
    | refine State.microLookup_same_eq ?_ (by assumption) ?_ | apply State.count64_same | intro _ _ | split | dsimp only

theorem State.runMicro_same_eq {fs : Nat} {k : State} (hm : State.Sub 0x80ac000054 fs) {s : State} {sl : Nat} {dir :
  Dir} {pg : Nat} {b : Nat} {w : Nat} {f : Frame} {ra rb} (ht : State.runMicro s sl dir pg b w f = (ra, rb)) (hs :
  State.Same fs k s) : State.Same fs k ra := by
  have := State.runMicro_same (k := k) hm s sl dir pg b w f hs
  rw [ht] at this
  exact this

theorem State.fetchMicro_same {fs : Nat} {k : State} (hm : State.Sub 0x8000000050 fs) (s : State) (pg : Nat) (b :
  Nat) (a : Nat) (hs : State.Same fs k s) : State.Same fs k (State.fetchMicro s pg b a).1 := by
  unfold State.fetchMicro
  try dsimp only
  with_reducible repeat' first
    | assumption | exact State.Sub.of rfl hm | apply State.setReg_same | apply State.setRf_same | apply State.setMicro_same
    | apply State.count_same | apply State.raise_same | intro _ _ | split | dsimp only

theorem State.fetchMicro_same_eq {fs : Nat} {k : State} (hm : State.Sub 0x8000000050 fs) {s : State} {pg : Nat} {b :
  Nat} {a : Nat} {ra rb} (ht : State.fetchMicro s pg b a = (ra, rb)) (hs : State.Same fs k s) : State.Same fs k ra := by
  have := State.fetchMicro_same (k := k) hm s pg b a hs
  rw [ht] at this
  exact this

theorem State.stageRun_same {fs : Nat} {k : State} (hm : State.Sub 0x9bbf5de054 fs) (s : State) (i : Nat) (sl : Nat)
  (dir : Dir) (x4 : Nat) (hs : State.Same fs k s) : State.Same fs k (State.stageRun s i sl dir x4) := by
  unfold State.stageRun
  try dsimp only
  with_reducible repeat' first
    | assumption | exact State.Sub.of rfl hm | apply State.dispose_same | apply State.runMicro_same
    | refine State.runMicro_same_eq ?_ (by assumption) ?_ | apply State.fetchMicro_same
    | refine State.fetchMicro_same_eq ?_ (by assumption) ?_ | apply State.tdCycle_same | apply State.stageNext_same
    | apply State.dropStage_same | apply State.tdGone_same | apply State.count64_same | apply State.dropQueued_same
    | intro _ _ | split | dsimp only

theorem State.stageTake_same {fs : Nat} {k : State} (hm : State.Sub 0x9bbf5de054 fs) (s : State) (sl : Nat) (dir :
  Dir) (x3 : Nat) (hs : State.Same fs k s) : State.Same fs k (State.stageTake s sl dir x3) := by
  unfold State.stageTake
  try dsimp only
  with_reducible repeat' first
    | assumption | exact State.Sub.of rfl hm | apply State.setSlice_same | apply State.stageRun_same | intro _ _ | split
    | dsimp only

theorem execMicrowordExec_same {fs : Nat} {k : State} (hm : State.Sub 0x9bbf5de054 fs) {sl : Slice} {dir : Dir}
  {stage : Fin 8} {s : State} {rr : State} (ht : execMicrowordExec sl dir stage s = .next rr) (hs : State.Same fs k
  s) : State.Same fs k rr := by
  refine State.Same.run (fun s hs => ?_) hs ht
  try dsimp only
  with_reducible repeat' first
    | assumption | exact State.Sub.of rfl hm | apply State.stageTake_same | apply State.onlyIf_same | intro _ _ | split
    | dsimp only

/-! ### Queues -/

theorem State.markDrain_same {fs : Nat} {k : State} (hm : State.Sub 0x2000 fs) (s : State) (x1 : List Nat) (hs :
  State.Same fs k s) : State.Same fs k (State.markDrain s x1) := by
  induction x1 generalizing s with
  | nil =>
    unfold State.markDrain
    try dsimp only
    with_reducible repeat' first
      | assumption | exact State.Sub.of rfl hm | apply State.setFrame_same | intro _ _ | split | dsimp only
  | cons a l ih =>
    unfold State.markDrain
    try dsimp only
    with_reducible repeat' first
      | assumption | exact State.Sub.of rfl hm | apply ih | apply State.setFrame_same | intro _ _ | split | dsimp only

theorem State.startDrain_same {fs : Nat} {k : State} (hm : State.Sub 0x8000102010 fs) (s : State) (x1 : Nat) (hs :
  State.Same fs k s) : State.Same fs k (State.startDrain s x1) := by
  unfold State.startDrain
  try dsimp only
  with_reducible repeat' first
    | assumption | exact State.Sub.of rfl hm | apply State.setPath_same | apply State.drainSettle_same
    | apply State.markDrain_same | intro _ _ | split | dsimp only

theorem State.txUnderrun_same {fs : Nat} {k : State} (hm : State.Sub 0x9b13cc3018 fs) (s : State) (p : Nat) (i : Nat)
  (hs : State.Same fs k s) : State.Same fs k (State.txUnderrun s p i) := by
  unfold State.txUnderrun
  try dsimp only
  with_reducible repeat' first
    | assumption | exact State.Sub.of rfl hm | apply State.count_same | apply State.raise_same | apply State.stompAt_same
    | intro _ _ | split | dsimp only

theorem State.txLast_same {fs : Nat} {k : State} (hm : State.Sub 0x9b13cc3018 fs) (s : State) (p : Nat) (hs :
  State.Same fs k s) : State.Same fs k (State.txLast s p) := by
  unfold State.txLast
  try dsimp only
  with_reducible repeat' first
    | assumption | exact State.Sub.of rfl hm | apply State.sendFrame_same | apply State.ptpEnd_same
    | apply State.finishTx_same | apply State.relaySent_same | apply State.deparseBad_same | apply State.setFrame_same
    | apply State.txUnderrun_same | intro _ _ | split | dsimp only

theorem State.flushDone_same {fs : Nat} {k : State} (hm : State.Sub 0x8b134c2010 fs) (s : State) (p : Nat) (hs :
  State.Same fs k s) : State.Same fs k (State.flushDone s p) := by
  unfold State.flushDone
  try dsimp only
  with_reducible repeat' first
    | assumption | exact State.Sub.of rfl hm | apply State.count64_same | apply State.raiseIf_same
    | apply State.dropQueuedAll_same | apply State.setSched_same | intro _ _ | split | dsimp only

theorem State.dropFlume_same {fs : Nat} {k : State} (hm : State.Sub 0x8b135d2010 fs) (s : State) (i : Nat) (x2 : Nat)
  (hs : State.Same fs k s) : State.Same fs k (State.dropFlume s i x2) := by
  unfold State.dropFlume
  try dsimp only
  with_reducible repeat' first
    | assumption | exact State.Sub.of rfl hm | apply State.dropQueued_same | apply State.accountUnit_same
    | apply State.finish_same | apply State.dropMcast_same | apply State.dropPuntNew_same | intro _ _ | split | dsimp only

theorem State.skipSeq_same {fs : Nat} {k : State} (hm : State.Sub 0x100000010 fs) (s : State) (x1 : Nat) (src : Nat)
  (x3 : Nat) (hs : State.Same fs k s) : State.Same fs k (State.skipSeq s x1 src x3) := by
  induction x3 generalizing s x1 src with
  | zero =>
    unfold State.skipSeq
    try dsimp only
    with_reducible repeat' first
      | assumption | exact State.Sub.of rfl hm | apply State.accountSkip_same | intro _ _ | split | dsimp only
  | succ n ih =>
    unfold State.skipSeq
    try dsimp only
    with_reducible repeat' first
      | assumption | exact State.Sub.of rfl hm | apply ih | apply State.accountSkip_same | intro _ _ | split | dsimp only

theorem State.flumeTake_same {fs : Nat} {k : State} (hm : State.Sub 0x8b135d2010 fs) (s : State) (x1 : Nat) (chan :
  Nat) (bad : Bool) (hs : State.Same fs k s) : State.Same fs k (State.flumeTake s x1 chan bad) := by
  unfold State.flumeTake
  try dsimp only
  with_reducible repeat' first
    | assumption | exact State.Sub.of rfl hm | apply State.dropArrival_same | apply State.dropFlume_same
    | apply State.sourceMsg_same | apply State.skipSeq_same | apply State.setPath_same | apply State.moveHolder_same
    | intro _ _ | split | dsimp only

theorem State.copiesMade_same {fs : Nat} {k : State} (hm : State.Sub 0x8b121d2010 fs) (s : State) (i : Nat) (x2 :
  Nat) (made : Nat) (hs : State.Same fs k s) : State.Same fs k (State.copiesMade s i x2 made) := by
  unfold State.copiesMade
  try dsimp only
  with_reducible repeat' first
    | assumption | exact State.Sub.of rfl hm | apply State.settleMaster_same | apply State.drainSettle_same
    | apply State.endHolder_same | apply State.mcastDone_same | apply State.setFrame_same | apply State.setDeck_same
    | intro _ _ | split | dsimp only

theorem State.makeCopy_same {fs : Nat} {k : State} (hm : State.Sub 0x8b136c6010 fs) (s : State) (i : Nat) (x2 : Nat)
  (e : Word) (first : Bool) (hs : State.Same fs k s) : State.Same fs k (State.makeCopy s i x2 e first) := by
  unfold State.makeCopy
  try dsimp only
  with_reducible repeat' first
    | assumption | exact State.Sub.of rfl hm | apply State.setQueue_same | apply State.setDeck_same
    | apply State.dropQueued_same | apply State.dropInRepl_same | apply State.newCopy_same | apply State.setFrame_same
    | apply State.count64_same | apply State.beginHolder_same | intro _ _ | split | dsimp only

theorem State.makeCopies_same {fs : Nat} {k : State} (hm : State.Sub 0x8b136c6010 fs) (s : State) (i : Nat) (x2 :
  Nat) (x3 : Nat) (made : Nat) (x5 : Nat) (hs : State.Same fs k s) : State.Same fs k (State.makeCopies s i x2 x3 made
  x5).1 := by
  induction x5 generalizing s i x2 x3 made with
  | zero =>
    unfold State.makeCopies
    try dsimp only
    with_reducible repeat' first
      | assumption | exact State.Sub.of rfl hm | apply State.makeCopy_same | apply State.count_same
      | apply State.raise_same | intro _ _ | split | dsimp only
  | succ n ih =>
    unfold State.makeCopies
    try dsimp only
    with_reducible repeat' first
      | assumption | exact State.Sub.of rfl hm | apply ih | apply State.makeCopy_same | apply State.count_same
      | apply State.raise_same | intro _ _ | split | dsimp only

theorem State.makeCopies_same_eq {fs : Nat} {k : State} (hm : State.Sub 0x8b136c6010 fs) {s : State} {i : Nat} {x2 :
  Nat} {x3 : Nat} {made : Nat} {x5 : Nat} {ra rb} (ht : State.makeCopies s i x2 x3 made x5 = (ra, rb)) (hs :
  State.Same fs k s) : State.Same fs k ra := by
  have := State.makeCopies_same (k := k) hm s i x2 x3 made x5 hs
  rw [ht] at this
  exact this

theorem State.replicate_same {fs : Nat} {k : State} (hm : State.Sub 0x8b137d6010 fs) (s : State) (x1 : Nat) (hs :
  State.Same fs k s) : State.Same fs k (State.replicate s x1) := by
  unfold State.replicate
  try dsimp only
  with_reducible repeat' first
    | assumption | exact State.Sub.of rfl hm | apply State.copiesMade_same | apply State.makeCopies_same
    | refine State.makeCopies_same_eq ?_ (by assumption) ?_ | apply State.countExp_same | apply State.dropMcast_same
    | apply State.setPath_same | intro _ _ | split | dsimp only

theorem execReplicate_same {fs : Nat} {k : State} (hm : State.Sub 0x8b137d6010 fs) {x0 : Half} {s : State} {rr :
  State} (ht : execReplicate x0 s = .next rr) (hs : State.Same fs k s) : State.Same fs k rr := by
  refine State.Same.run (fun s hs => ?_) hs ht
  try dsimp only
  with_reducible repeat' first
    | assumption | exact State.Sub.of rfl hm | apply State.replicate_same | apply State.onlyIf_same | intro _ _ | split
    | dsimp only

theorem execTxLastByte_same {fs : Nat} {k : State} (hm : State.Sub 0x9b13ccf818 fs) {p : Port} {s : State} {rr :
  State} (ht : execTxLastByte p s = .next rr) (hs : State.Same fs k s) : State.Same fs k rr := by
  refine State.Same.run (fun s hs => ?_) hs ht
  try dsimp only
  with_reducible repeat' first
    | assumption | exact State.Sub.of rfl hm | apply State.txLast_same | apply State.loopBack_same
    | apply State.onlyIf_same | intro _ _ | split | dsimp only

theorem State.startHead_same {fs : Nat} {k : State} (hm : State.Sub 0x8b136ca010 fs) (s : State) (p : Nat) (q : Nat)
  (hs : State.Same fs k s) : State.Same fs k (State.startHead s p q) := by
  unfold State.startHead
  try dsimp only
  with_reducible repeat' first
    | assumption | exact State.Sub.of rfl hm | apply State.setFrame_same | apply State.toStage_same
    | apply State.setSched_same | apply State.dropQueued_same | apply State.countExp_same | apply State.setQueue_same
    | intro _ _ | split | dsimp only

theorem State.select_same {fs : Nat} {k : State} (hm : State.Sub 0x8b136ca010 fs) (s : State) (p : Nat) (hs :
  State.Same fs k s) : State.Same fs k (State.select s p) := by
  unfold State.select
  try dsimp only
  with_reducible repeat' first
    | assumption | exact State.Sub.of rfl hm | apply State.setSched_same | apply State.startHead_same | intro _ _ | split
    | dsimp only | refine State.Same.upd_400000 ?_ ?_

theorem execSchedule_same {fs : Nat} {k : State} (hm : State.Sub 0x8b136ca010 fs) {p : Port} {s : State} {rr : State}
  (ht : execSchedule p s = .next rr) (hs : State.Same fs k s) : State.Same fs k rr := by
  refine State.Same.run (fun s hs => ?_) hs ht
  try dsimp only
  with_reducible repeat' first
    | assumption | exact State.Sub.of rfl hm | apply State.select_same | apply State.onlyIf_same | intro _ _ | split
    | dsimp only

theorem State.beginTx_same {fs : Nat} {k : State} (hm : State.Sub 0x1002010 fs) (s : State) (p : Nat) (i : Nat) (late
  : Bool) (hs : State.Same fs k s) : State.Same fs k (State.beginTx s p i late) := by
  unfold State.beginTx
  try dsimp only
  with_reducible repeat' first
    | assumption | exact State.Sub.of rfl hm | apply State.setFrame_same | apply State.count64_same
    | apply State.setSched_same | intro _ _ | split | dsimp only

theorem State.macStart_same {fs : Nat} {k : State} (hm : State.Sub 0x8b134c2010 fs) (s : State) (p : Nat) (late :
  Bool) (hs : State.Same fs k s) : State.Same fs k (State.macStart s p late) := by
  unfold State.macStart
  try dsimp only
  with_reducible repeat' first
    | assumption | exact State.Sub.of rfl hm | apply State.setFrame_same | apply State.beginTx_same
    | apply State.deparseDrop_same | apply State.dropQueued_same | intro _ _ | split | dsimp only

theorem execMacStart_same {fs : Nat} {k : State} (hm : State.Sub 0x8b134c2010 fs) {p : Port} {late : Bool} {s :
  State} {rr : State} (ht : execMacStart p late s = .next rr) (hs : State.Same fs k s) : State.Same fs k rr := by
  refine State.Same.run (fun s hs => ?_) hs ht
  try dsimp only
  with_reducible repeat' first
    | assumption | exact State.Sub.of rfl hm | apply State.macStart_same | apply State.onlyIf_same | intro _ _ | split
    | dsimp only

theorem execLinkHoldExpire_same {fs : Nat} {k : State} (hm : State.Sub 0x1600000 fs) {p : Port} {s : State} {rr :
  State} (ht : execLinkHoldExpire p s = .next rr) (hs : State.Same fs k s) : State.Same fs k rr := by
  refine State.Same.run (fun s hs => ?_) hs ht
  try dsimp only
  with_reducible repeat' first
    | assumption | exact State.Sub.of rfl hm | apply State.portDown_same | apply State.onlyIf_same | intro _ _ | split
    | dsimp only

theorem execLinkFlushDone_same {fs : Nat} {k : State} (hm : State.Sub 0x8b134c2010 fs) {p : Port} {s : State} {rr :
  State} (ht : execLinkFlushDone p s = .next rr) (hs : State.Same fs k s) : State.Same fs k rr := by
  refine State.Same.run (fun s hs => ?_) hs ht
  try dsimp only
  with_reducible repeat' first
    | assumption | exact State.Sub.of rfl hm | apply State.flushDone_same | apply State.onlyIf_same | intro _ _ | split
    | dsimp only

theorem State.flumeRest_same {fs : Nat} {k : State} (hm : State.Sub 0x8000002010 fs) (s : State) (x1 : Nat) (i : Nat)
  (hs : State.Same fs k s) : State.Same fs k (State.flumeRest s x1 i) := by
  unfold State.flumeRest
  try dsimp only
  with_reducible repeat' first
    | assumption | exact State.Sub.of rfl hm | apply State.mapFrames_same | apply State.sourceMsg_same | intro _ _ | split
    | dsimp only

theorem execFlumeReceive_same {fs : Nat} {k : State} (hm : State.Sub 0x8b135d2010 fs) {x0 : Half} {x : FlumeRx} {s :
  State} {rr : State} (ht : execFlumeReceive x0 x s = .next rr) (hs : State.Same fs k s) : State.Same fs k rr := by
  refine State.Same.run (fun s hs => ?_) hs ht
  try dsimp only
  with_reducible repeat' first
    | assumption | exact State.Sub.of rfl hm | apply State.flumeRest_same | apply State.flumeTake_same
    | apply State.onlyIf_same | intro _ _ | split | dsimp only

/-! ### Woodlot -/

theorem execHitNotice_same {fs : Nat} {k : State} (hm : State.Sub 0x80000040 fs) {s : State} {rr : State} (ht :
  execHitNotice s = .next rr) (hs : State.Same fs k s) : State.Same fs k rr := by
  refine State.Same.run (fun s hs => ?_) hs ht
  try dsimp only
  with_reducible repeat' first
    | assumption | exact State.Sub.of rfl hm | apply State.setEmW_same | intro _ _ | split | dsimp only
    | refine State.Same.upd_80000000 ?_ ?_

theorem State.migWrite_same {fs : Nat} {k : State} (hm : State.Sub 0x8020000010 fs) (s : State) (x1 : Nat) (bank :
  Nat) (hs : State.Same fs k s) : State.Same fs k (State.migWrite s x1 bank) := by
  unfold State.migWrite
  try dsimp only
  with_reducible repeat' first
    | assumption | exact State.Sub.of rfl hm | apply State.migGo_same | apply State.setReg_same | intro _ _ | split
    | dsimp only

theorem State.reclaimTc_same {fs : Nat} {k : State} (hm : State.Sub 0x40 fs) (s : State) (r : Nat) (x2 : List (Nat ×
  Nat)) (hs : State.Same fs k s) : State.Same fs k (State.reclaimTc s r x2) := by
  induction x2 generalizing s r with
  | nil =>
    unfold State.reclaimTc
    try dsimp only
    with_reducible repeat' first
      | assumption | exact State.Sub.of rfl hm | apply State.setTcCtrl_same | intro _ _ | split | dsimp only
  | cons a l ih =>
    unfold State.reclaimTc
    try dsimp only
    with_reducible repeat' first
      | assumption | exact State.Sub.of rfl hm | apply ih | apply State.setTcCtrl_same | intro _ _ | split | dsimp only

theorem State.sweepReset_same {fs : Nat} {k : State} (hm : State.Sub 0x8000020050 fs) (s : State) (x1 : Nat) (r :
  Nat) (hs : State.Same fs k s) : State.Same fs k (State.sweepReset s x1 r) := by
  unfold State.sweepReset
  try dsimp only
  with_reducible repeat' first
    | assumption | exact State.Sub.of rfl hm | apply State.reclaimTc_same | apply State.sweepDone_same | intro _ _ | split
    | dsimp only

theorem State.compact_same {fs : Nat} {k : State} (hm : State.Sub 0x20000010 fs) (s : State) (x1 : Nat) (hs :
  State.Same fs k s) : State.Same fs k (State.compact s x1) := by
  unfold State.compact
  try dsimp only
  with_reducible repeat' first
    | assumption | exact State.Sub.of rfl hm | apply State.setWood_same | apply State.bgStep_same | intro _ _ | split
    | dsimp only

theorem execBoostOn_same {fs : Nat} {k : State} (hm : State.Sub 0x8020000010 fs) {x0 : Half} {backlog : Nat} {s :
  State} {rr : State} (ht : execBoostOn x0 backlog s = .next rr) (hs : State.Same fs k s) : State.Same fs k rr := by
  refine State.Same.run (fun s hs => ?_) hs ht
  try dsimp only
  with_reducible repeat' first
    | assumption | exact State.Sub.of rfl hm | apply State.setWood_same | apply State.raise_same | apply State.onlyIf_same
    | intro _ _ | split | dsimp only

theorem State.migStep_same {fs : Nat} {k : State} (hm : State.Sub 0x8020000050 fs) (s : State) (x1 : Nat) (m : Mig)
  (hs : State.Same fs k s) : State.Same fs k (State.migStep s x1 m) := by
  unfold State.migStep
  try dsimp only
  with_reducible repeat' first
    | assumption | exact State.Sub.of rfl hm | apply State.migEnd_same | apply State.bgStep_same | apply State.setWood_same
    | apply State.copyPos_same | intro _ _ | split | dsimp only

theorem State.migNext_same {fs : Nat} {k : State} (hm : State.Sub 0x8020000050 fs) (s : State) (x1 : Nat) (hs :
  State.Same fs k s) : State.Same fs k (State.migNext s x1) := by
  unfold State.migNext
  try dsimp only
  with_reducible repeat' first
    | assumption | exact State.Sub.of rfl hm | apply State.setWood_same | apply State.migStart_same
    | apply State.migGo_same | apply State.migStep_same | intro _ _ | split | dsimp only

theorem execBankMigration_same {fs : Nat} {k : State} (hm : State.Sub 0x8020000050 fs) {x0 : Half} {s : State} {rr :
  State} (ht : execBankMigration x0 s = .next rr) (hs : State.Same fs k s) : State.Same fs k rr := by
  refine State.Same.run (fun s hs => ?_) hs ht
  try dsimp only
  with_reducible repeat' first
    | assumption | exact State.Sub.of rfl hm | apply State.migNext_same | apply State.bgRun_same | apply State.onlyIf_same
    | intro _ _ | split | dsimp only

theorem execWoodlotEccError_same {fs : Nat} {k : State} (hm : State.Sub 0x8020000050 fs) {x0 : Half} {loc : EmLoc}
  {uncorr : Bool} {s : State} {rr : State} (ht : execWoodlotEccError x0 loc uncorr s = .next rr) (hs : State.Same fs
  k s) : State.Same fs k rr := by
  refine State.Same.run (fun s hs => ?_) hs ht
  try dsimp only
  with_reducible repeat' first
    | assumption | exact State.Sub.of rfl hm | apply State.woodEcc_same | apply State.onlyIf_same | intro _ _ | split
    | dsimp only

theorem execLearnRequest_same {fs : Nat} {k : State} (hm : State.Sub 0x8860000058 fs) {x0 : Half} {s : State} {rr :
  State} (ht : execLearnRequest x0 s = .next rr) (hs : State.Same fs k s) : State.Same fs k rr := by
  refine State.Same.run (fun s hs => ?_) hs ht
  try dsimp only
  with_reducible repeat' first
    | assumption | exact State.Sub.of rfl hm | apply State.learnNext_same | apply State.onlyIf_same | intro _ _ | split
    | dsimp only

theorem State.reclaimEm_same {fs : Nat} {k : State} (hm : State.Sub 0x40 fs) (s : State) (x1 : Nat) (r : Nat) (x3 :
  List Nat) (hs : State.Same fs k s) : State.Same fs k (State.reclaimEm s x1 r x3) := by
  induction x3 generalizing s x1 r with
  | nil =>
    unfold State.reclaimEm
    try dsimp only
    with_reducible repeat' first
      | assumption | exact State.Sub.of rfl hm | apply State.setEmW_same | apply State.clearEntry_same | intro _ _ | split
      | dsimp only
  | cons a l ih =>
    unfold State.reclaimEm
    try dsimp only
    with_reducible repeat' first
      | assumption | exact State.Sub.of rfl hm | apply ih | apply State.setEmW_same | apply State.clearEntry_same
      | intro _ _ | split | dsimp only

theorem State.reclaim_same {fs : Nat} {k : State} (hm : State.Sub 0x8020020050 fs) (s : State) (x1 : Nat) (r : Nat)
  (hs : State.Same fs k s) : State.Same fs k (State.reclaim s x1 r) := by
  unfold State.reclaim
  try dsimp only
  with_reducible repeat' first
    | assumption | exact State.Sub.of rfl hm | apply State.sweepDone_same | apply State.bgStep_same
    | apply State.reclaimTc_same | apply State.setWood_same | apply State.reclaimEm_same | intro _ _ | split | dsimp only

theorem execTcamParityScan_same {fs : Nat} {k : State} (hm : State.Sub 0x8000000050 fs) {sl : Slice} {idx : Fin 4096}
  {s : State} {rr : State} (ht : execTcamParityScan sl idx s = .next rr) (hs : State.Same fs k s) : State.Same fs k
  rr := by
  refine State.Same.run (fun s hs => ?_) hs ht
  try dsimp only
  with_reducible repeat' first
    | assumption | exact State.Sub.of rfl hm | apply State.tcFault_same | apply State.onlyIf_same | intro _ _ | split
    | dsimp only

theorem execLpmCompaction_same {fs : Nat} {k : State} (hm : State.Sub 0x20000010 fs) {x0 : Half} {s : State} {rr :
  State} (ht : execLpmCompaction x0 s = .next rr) (hs : State.Same fs k s) : State.Same fs k rr := by
  refine State.Same.run (fun s hs => ?_) hs ht
  try dsimp only
  with_reducible repeat' first
    | assumption | exact State.Sub.of rfl hm | apply State.compact_same | apply State.bgRun_same | apply State.onlyIf_same
    | intro _ _ | split | dsimp only

theorem State.ageVisit_same {fs : Nat} {k : State} (hm : State.Sub 0x860000058 fs) (s : State) (l : Nat) (hs :
  State.Same fs k s) : State.Same fs k (State.ageVisit s l) := by
  unfold State.ageVisit
  try dsimp only
  with_reducible repeat' first
    | assumption | exact State.Sub.of rfl hm | apply State.count64_same | apply State.learnNotice_same
    | apply State.clearEntry_same | apply State.setEmW_same | apply State.tellEast_same | apply State.bgStep_same
    | intro _ _ | split | dsimp only

theorem execReclaim_same {fs : Nat} {k : State} (hm : State.Sub 0x8020020050 fs) {x0 : Half} {s : State} {rr : State}
  (ht : execReclaim x0 s = .next rr) (hs : State.Same fs k s) : State.Same fs k rr := by
  refine State.Same.run (fun s hs => ?_) hs ht
  try dsimp only
  with_reducible repeat' first
    | assumption | exact State.Sub.of rfl hm | apply State.reclaim_same | apply State.bgRun_same | apply State.onlyIf_same
    | apply State.sweepReset_same | intro _ _ | split | dsimp only

theorem State.drainSlot_same {fs : Nat} {k : State} (hm : State.Sub 0x20000050 fs) (s : State) (x1 : Nat) (l : Nat)
  (hs : State.Same fs k s) : State.Same fs k (State.drainSlot s x1 l) := by
  unfold State.drainSlot
  try dsimp only
  with_reducible repeat' first
    | assumption | exact State.Sub.of rfl hm | apply State.bgStep_same | apply State.moveEntry_same
    | refine State.makeRoom_same ?_ (by assumption) ?_ | intro _ _ | split | dsimp only

theorem execStashDrain_same {fs : Nat} {k : State} (hm : State.Sub 0x20000050 fs) {x0 : Half} {slot : Fin 8} {s :
  State} {rr : State} (ht : execStashDrain x0 slot s = .next rr) (hs : State.Same fs k s) : State.Same fs k rr := by
  refine State.Same.run (fun s hs => ?_) hs ht
  try dsimp only
  with_reducible repeat' first
    | assumption | exact State.Sub.of rfl hm | apply State.drainSlot_same | apply State.bgRun_same
    | apply State.onlyIf_same | intro _ _ | split | dsimp only

theorem execAgingVisit_same {fs : Nat} {k : State} (hm : State.Sub 0x860000058 fs) {loc : EmLoc} {s : State} {rr :
  State} (ht : execAgingVisit loc s = .next rr) (hs : State.Same fs k s) : State.Same fs k rr := by
  refine State.Same.run (fun s hs => ?_) hs ht
  try dsimp only
  with_reducible repeat' first
    | assumption | exact State.Sub.of rfl hm | apply State.ageVisit_same | apply State.bgRun_same | apply State.onlyIf_same
    | intro _ _ | split | dsimp only

theorem execEastCopyApply_same {fs : Nat} {k : State} (hm : State.Sub 0x8040000050 fs) {s : State} {rr : State} (ht :
  execEastCopyApply s = .next rr) (hs : State.Same fs k s) : State.Same fs k rr := by
  refine State.Same.run (fun s hs => ?_) hs ht
  try dsimp only
  with_reducible repeat' first
    | assumption | exact State.Sub.of rfl hm | apply State.eastNext_same | intro _ _ | split | dsimp only

theorem execBoostOff_same {fs : Nat} {k : State} (hm : State.Sub 0x8020000010 fs) {x0 : Half} {backlog : Nat} {s :
  State} {rr : State} (ht : execBoostOff x0 backlog s = .next rr) (hs : State.Same fs k s) : State.Same fs k rr := by
  refine State.Same.run (fun s hs => ?_) hs ht
  try dsimp only
  with_reducible repeat' first
    | assumption | exact State.Sub.of rfl hm | apply State.setWood_same | apply State.raise_same | apply State.onlyIf_same
    | intro _ _ | split | dsimp only

end Sys2Proof.Machine
end

