-- ==== Sys2Proof/Laws/SameReset.lean ====
section
/-! SUPPORT. State.Same, one lemma for each function of the state: resets, the Lookout, the Firebreak, the lane commands and the matrix. -/

namespace Sys2Proof.Machine

/-! ### ResetOps -/

theorem State.moveHolders_same {fs : Nat} {k : State} (hm : State.Sub 0x40000 fs) (s : State) (a : Nat) (b : Nat) (x3
  : List Nat) (hs : State.Same fs k s) : State.Same fs k (State.moveHolders s a b x3) := by
  induction x3 generalizing s a b with
  | nil =>
    unfold State.moveHolders
    try dsimp only
    with_reducible repeat' first
      | assumption | exact State.Sub.of rfl hm | apply State.moveHolder_same | intro _ _ | split | dsimp only
  | cons a l ih =>
    unfold State.moveHolders
    try dsimp only
    with_reducible repeat' first
      | assumption | exact State.Sub.of rfl hm | apply ih | apply State.moveHolder_same | intro _ _ | split | dsimp only

theorem State.extend_same {fs : Nat} {k : State} (hm : State.Sub 0x10000000000 fs) (s : State) (i : Nat) (record :
  List Byte) (hs : State.Same fs k s) : State.Same fs k (State.extend s i record) := by
  unfold State.extend
  try dsimp only
  with_reducible repeat' first
    | assumption | exact State.Sub.of rfl hm | intro _ _ | split | dsimp only | refine State.Same.upd_10000000000 ?_ ?_

theorem State.linesBack_same {fs : Nat} {k : State} (hm : State.Sub 0x8a00146010 fs) (s : State) (x1 : Nat) (i : Nat)
  (x3 : List Nat) (hs : State.Same fs k s) : State.Same fs k (State.linesBack s x1 i x3) := by
  induction x3 generalizing s x1 i with
  | nil =>
    unfold State.linesBack
    try dsimp only
    with_reducible repeat' first
      | assumption | exact State.Sub.of rfl hm | apply State.lineLost_same
      | refine State.applyLine_same ?_ (by assumption) ?_ | apply State.setTally_same | intro _ _ | split | dsimp only
  | cons a l ih =>
    unfold State.linesBack
    try dsimp only
    with_reducible repeat' first
      | assumption | exact State.Sub.of rfl hm | apply ih | apply State.lineLost_same
      | refine State.applyLine_same ?_ (by assumption) ?_ | apply State.setTally_same | intro _ _ | split | dsimp only

theorem State.parseAll_same {fs : Nat} {k : State} (hm : State.Sub 0xcb1206a018 fs) (s : State) (sl : Nat) (x2 : Nat)
  (hs : State.Same fs k s) : State.Same fs k (State.parseAll s sl x2) := by
  induction x2 generalizing s sl with
  | zero =>
    unfold State.parseAll
    try dsimp only
    with_reducible repeat' first
      | assumption | exact State.Sub.of rfl hm | apply State.parseNext_same | intro _ _ | split | dsimp only
  | succ n ih =>
    unfold State.parseAll
    try dsimp only
    with_reducible repeat' first
      | assumption | exact State.Sub.of rfl hm | apply ih | apply State.parseNext_same | intro _ _ | split | dsimp only

theorem State.stageAll_same {fs : Nat} {k : State} (hm : State.Sub 0x9bbf5de054 fs) (s : State) (sl : Nat) (d : Dir)
  (x3 : Nat) (x4 : Nat) (hs : State.Same fs k s) : State.Same fs k (State.stageAll s sl d x3 x4) := by
  induction x4 generalizing s sl d x3 with
  | zero =>
    unfold State.stageAll
    try dsimp only
    with_reducible repeat' first
      | assumption | exact State.Sub.of rfl hm | apply State.stageTake_same | intro _ _ | split | dsimp only
  | succ n ih =>
    unfold State.stageAll
    try dsimp only
    with_reducible repeat' first
      | assumption | exact State.Sub.of rfl hm | apply ih | apply State.stageTake_same | intro _ _ | split | dsimp only

theorem State.stageOut_same {fs : Nat} {k : State} (hm : State.Sub 0x9bbf5de054 fs) (s : State) (sl : Nat) (d : Dir)
  (x3 : Nat) (hs : State.Same fs k s) : State.Same fs k (State.stageOut s sl d x3) := by
  unfold State.stageOut
  try dsimp only
  with_reducible repeat' first
    | assumption | exact State.Sub.of rfl hm | apply State.stageAll_same | intro _ _ | split | dsimp only

theorem State.drainStages_same {fs : Nat} {k : State} (hm : State.Sub 0x9bbf5de054 fs) (s : State) (sl : Nat) (d :
  Dir) (x3 : Nat) (x4 : Nat) (hs : State.Same fs k s) : State.Same fs k (State.drainStages s sl d x3 x4) := by
  induction x4 generalizing s sl d x3 with
  | zero =>
    unfold State.drainStages
    try dsimp only
    with_reducible repeat' first
      | assumption | exact State.Sub.of rfl hm | apply State.stageOut_same | intro _ _ | split | dsimp only
  | succ n ih =>
    unfold State.drainStages
    try dsimp only
    with_reducible repeat' first
      | assumption | exact State.Sub.of rfl hm | apply ih | apply State.stageOut_same | intro _ _ | split | dsimp only

theorem State.drainSlice_same {fs : Nat} {k : State} (hm : State.Sub 0xdbbf5fe05c fs) (s : State) (sl : Nat) (hs :
  State.Same fs k s) : State.Same fs k (State.drainSlice s sl) := by
  unfold State.drainSlice
  try dsimp only
  with_reducible repeat' first
    | assumption | exact State.Sub.of rfl hm | apply State.parseAll_same | apply State.drainStages_same | intro _ _ | split
    | dsimp only

theorem State.portsStop_same {fs : Nat} {k : State} (hm : State.Sub 0x2db1fecbe5c fs) (s : State) (hold : Bool) (x2 :
  List Nat) (hs : State.Same fs k s) : State.Same fs k (State.portsStop s hold x2) := by
  induction x2 generalizing s hold with
  | nil =>
    unfold State.portsStop
    try dsimp only
    with_reducible repeat' first
      | assumption | exact State.Sub.of rfl hm | apply State.spanStart_same | apply State.stopPort_same
      | apply State.lanesOff_same | apply State.setPort_same | apply State.linkFall_same | apply State.recalCut_same
      | apply State.rxAbort_same | intro _ _ | split | dsimp only
  | cons a l ih =>
    unfold State.portsStop
    try dsimp only
    with_reducible repeat' first
      | assumption | exact State.Sub.of rfl hm | apply ih | apply State.spanStart_same | apply State.stopPort_same
      | apply State.lanesOff_same | apply State.setPort_same | apply State.linkFall_same | apply State.recalCut_same
      | apply State.rxAbort_same | intro _ _ | split | dsimp only

theorem State.portsGone_same {fs : Nat} {k : State} (hm : State.Sub 0xa00 fs) (s : State) (sel : Nat → Bool) (lanes :
  List Nat) (hs : State.Same fs k s) : State.Same fs k (State.portsGone s sel lanes) := by
  unfold State.portsGone
  try dsimp only
  with_reducible repeat' first
    | assumption | exact State.Sub.of rfl hm | apply State.lanesZero_same | intro _ _ | split | dsimp only
    | refine State.Same.upd_800 ?_ ?_

theorem State.sliceStart_same {fs : Nat} {k : State} (hm : State.Sub 0x12dbbffffe5c fs) (s : State) (sl : Nat) (hs :
  State.Same fs k s) : State.Same fs k (State.sliceStart s sl) := by
  unfold State.sliceStart
  try dsimp only
  with_reducible repeat' first
    | assumption | exact State.Sub.of rfl hm | apply State.linesBack_same | apply State.drainSlice_same
    | apply State.portsStop_same | apply State.portsGone_same | intro _ _ | split | dsimp only
    | refine State.Same.upd_100000000000 ?_ ?_

theorem State.rstReject_same {fs : Nat} {k : State} (hm : State.Sub 0x108000000010 fs) (s : State) (code : Nat) (hs :
  State.Same fs k s) : State.Same fs k (State.rstReject s code) := by
  unfold State.rstReject
  try dsimp only
  with_reducible repeat' first
    | assumption | exact State.Sub.of rfl hm | apply State.raise_same | intro _ _ | split | dsimp only
    | refine State.Same.upd_100000000000 ?_ ?_

theorem State.rstSlice_same {fs : Nat} {k : State} (hm : State.Sub 0x12dbbffffe5c fs) (s : State) (v : Word) (hs :
  State.Same fs k s) : State.Same fs k (State.rstSlice s v) := by
  unfold State.rstSlice
  try dsimp only
  with_reducible repeat' first
    | assumption | exact State.Sub.of rfl hm | apply State.sliceStart_same | apply State.rstReject_same | intro _ _ | split
    | dsimp only

theorem State.dropSel_same {fs : Nat} {k : State} (hm : State.Sub 0x80 fs) (s : State) (sel : Nat → Bool) (hs :
  State.Same fs k s) : State.Same fs k (State.dropSel s sel) := by
  unfold State.dropSel
  try dsimp only
  with_reducible repeat' first
    | assumption | exact State.Sub.of rfl hm | intro _ _ | split | dsimp only | refine State.Same.upd_80 ?_ ?_

theorem State.dropHeldPunts_same {fs : Nat} {k : State} (hm : State.Sub 0x8b120c2010 fs) (s : State) (x1 : Nat) (hs :
  State.Same fs k s) : State.Same fs k (State.dropHeldPunts s x1) := by
  induction x1 generalizing s with
  | zero =>
    unfold State.dropHeldPunts
    try dsimp only
    with_reducible repeat' first
      | assumption | exact State.Sub.of rfl hm | apply State.dropPunts_same | intro _ _ | split | dsimp only
  | succ n ih =>
    unfold State.dropHeldPunts
    try dsimp only
    with_reducible repeat' first
      | assumption | exact State.Sub.of rfl hm | apply ih | apply State.dropPunts_same | intro _ _ | split | dsimp only

theorem State.dropPort_same {fs : Nat} {k : State} (hm : State.Sub 0x9b13ccb018 fs) (s : State) (p : Nat) (hs :
  State.Same fs k s) : State.Same fs k (State.dropPort s p) := by
  unfold State.dropPort
  try dsimp only
  with_reducible repeat' first
    | assumption | exact State.Sub.of rfl hm | apply State.dropQueuedAll_same | apply State.setSlice_same
    | apply State.setSched_same | apply State.stompTx_same | intro _ _ | split | dsimp only

theorem State.dropPorts_same {fs : Nat} {k : State} (hm : State.Sub 0x9b13ccb018 fs) (s : State) (x1 : List Nat) (hs
  : State.Same fs k s) : State.Same fs k (State.dropPorts s x1) := by
  induction x1 generalizing s with
  | nil =>
    unfold State.dropPorts
    try dsimp only
    with_reducible repeat' first
      | assumption | exact State.Sub.of rfl hm | apply State.dropPort_same | intro _ _ | split | dsimp only
  | cons a l ih =>
    unfold State.dropPorts
    try dsimp only
    with_reducible repeat' first
      | assumption | exact State.Sub.of rfl hm | apply ih | apply State.dropPort_same | intro _ _ | split | dsimp only

theorem State.dropQueues_same {fs : Nat} {k : State} (hm : State.Sub 0x8b136c2010 fs) (s : State) (x1 : List Nat) (hs
  : State.Same fs k s) : State.Same fs k (State.dropQueues s x1) := by
  induction x1 generalizing s with
  | nil =>
    unfold State.dropQueues
    try dsimp only
    with_reducible repeat' first
      | assumption | exact State.Sub.of rfl hm | apply State.setQueue_same | apply State.dropQueuedAll_same | intro _ _
      | split | dsimp only | refine State.Same.upd_400000 ?_ ?_
  | cons a l ih =>
    unfold State.dropQueues
    try dsimp only
    with_reducible repeat' first
      | assumption | exact State.Sub.of rfl hm | apply ih | apply State.setQueue_same | apply State.dropQueuedAll_same
      | intro _ _ | split | dsimp only | refine State.Same.upd_400000 ?_ ?_

theorem State.dropRepl_same {fs : Nat} {k : State} (hm : State.Sub 0x8b121d2010 fs) (s : State) (x1 : List Nat) (hs :
  State.Same fs k s) : State.Same fs k (State.dropRepl s x1) := by
  induction x1 generalizing s with
  | nil =>
    unfold State.dropRepl
    try dsimp only
    with_reducible repeat' first
      | assumption | exact State.Sub.of rfl hm | apply State.dropMcast_same | intro _ _ | split | dsimp only
  | cons a l ih =>
    unfold State.dropRepl
    try dsimp only
    with_reducible repeat' first
      | assumption | exact State.Sub.of rfl hm | apply ih | apply State.dropMcast_same | intro _ _ | split | dsimp only

theorem State.dropArrivals_same {fs : Nat} {k : State} (hm : State.Sub 0x8b135d2010 fs) (s : State) (x1 : Nat) (x2 :
  List Nat) (hs : State.Same fs k s) : State.Same fs k (State.dropArrivals s x1 x2) := by
  induction x2 generalizing s x1 with
  | nil =>
    unfold State.dropArrivals
    try dsimp only
    with_reducible repeat' first
      | assumption | exact State.Sub.of rfl hm | apply State.dropArrival_same | intro _ _ | split | dsimp only
  | cons a l ih =>
    unfold State.dropArrivals
    try dsimp only
    with_reducible repeat' first
      | assumption | exact State.Sub.of rfl hm | apply ih | apply State.dropArrival_same | intro _ _ | split | dsimp only

theorem State.deckClear_same {fs : Nat} {k : State} (hm : State.Sub 0x9b13fdb018 fs) (s : State) (x1 : Nat) (hs :
  State.Same fs k s) : State.Same fs k (State.deckClear s x1) := by
  unfold State.deckClear
  try dsimp only
  with_reducible repeat' first
    | assumption | exact State.Sub.of rfl hm | apply State.setDeck_same | apply State.dropHeldPunts_same
    | apply State.dropPorts_same | apply State.dropQueues_same | apply State.dropRepl_same | apply State.setPath_same
    | apply State.dropArrivals_same | intro _ _ | split | dsimp only

theorem State.dropFifo_same {fs : Nat} {k : State} (hm : State.Sub 0x310002010 fs) (s : State) (x1 : List Nat) (hs :
  State.Same fs k s) : State.Same fs k (State.dropFifo s x1) := by
  induction x1 generalizing s with
  | nil =>
    unfold State.dropFifo
    try dsimp only
    with_reducible repeat' first
      | assumption | exact State.Sub.of rfl hm | apply State.dropEarly_same | intro _ _ | split | dsimp only
  | cons a l ih =>
    unfold State.dropFifo
    try dsimp only
    with_reducible repeat' first
      | assumption | exact State.Sub.of rfl hm | apply ih | apply State.dropEarly_same | intro _ _ | split | dsimp only

theorem State.dropVecs_same {fs : Nat} {k : State} (hm : State.Sub 0x310042010 fs) (s : State) (sl : Nat) (x2 : List
  Nat) (hs : State.Same fs k s) : State.Same fs k (State.dropVecs s sl x2) := by
  induction x2 generalizing s sl with
  | nil =>
    unfold State.dropVecs
    try dsimp only
    with_reducible repeat' first
      | assumption | exact State.Sub.of rfl hm | apply State.dropIngress_same | intro _ _ | split | dsimp only
  | cons a l ih =>
    unfold State.dropVecs
    try dsimp only
    with_reducible repeat' first
      | assumption | exact State.Sub.of rfl hm | apply ih | apply State.dropIngress_same | intro _ _ | split | dsimp only

theorem State.dropPipe_same {fs : Nat} {k : State} (hm : State.Sub 0x31004a010 fs) (s : State) (sl : Nat) (hs :
  State.Same fs k s) : State.Same fs k (State.dropPipe s sl) := by
  unfold State.dropPipe
  try dsimp only
  with_reducible repeat' first
    | assumption | exact State.Sub.of rfl hm | apply State.dropFifo_same | apply State.dropVecs_same
    | apply State.setSlice_same | intro _ _ | split | dsimp only

theorem State.dropPipes_same {fs : Nat} {k : State} (hm : State.Sub 0x31004a010 fs) (s : State) (x1 : List Nat) (hs :
  State.Same fs k s) : State.Same fs k (State.dropPipes s x1) := by
  induction x1 generalizing s with
  | nil =>
    unfold State.dropPipes
    try dsimp only
    with_reducible repeat' first
      | assumption | exact State.Sub.of rfl hm | apply State.dropPipe_same | intro _ _ | split | dsimp only
  | cons a l ih =>
    unfold State.dropPipes
    try dsimp only
    with_reducible repeat' first
      | assumption | exact State.Sub.of rfl hm | apply ih | apply State.dropPipe_same | intro _ _ | split | dsimp only

theorem State.channelDown_same {fs : Nat} {k : State} (hm : State.Sub 0xc000000110 fs) (s : State) (hs : State.Same
  fs k s) : State.Same fs k (State.channelDown s) := by
  unfold State.channelDown
  try dsimp only
  with_reducible repeat' first
    | assumption | exact State.Sub.of rfl hm | apply State.sourceMsg_same | intro _ _ | split | dsimp only
    | refine State.Same.upd_4000000100 ?_ ?_

theorem State.halfStart_same {fs : Nat} {k : State} (hm : State.Sub 0x12df3fffbfdc fs) (s : State) (x1 : Nat) (hs :
  State.Same fs k s) : State.Same fs k (State.halfStart s x1) := by
  unfold State.halfStart
  extract_lets s1 ids src s2 s3 s4 s5 w t s6 s7 s8 s9 o s10 b1 b2 s11
  have h1 : State.Same fs k s1 := State.channelDown_same (.of rfl hm) _ (State.portsGone_same (.of rfl hm) _ _ _ (State.portsStop_same (.of rfl hm) _ _ _ hs))
  have h2 : State.Same fs k s2 := State.dropArrivals_same (.of rfl hm) _ _ _ (State.moveHolders_same (.of rfl hm) _ _ _ _ (State.setPath_same (.of rfl hm) _ _ _ h1))
  have h3 : State.Same fs k s3 := State.dropPipes_same (.of rfl hm) _ _ (State.deckClear_same (.of rfl hm) _ _ h2)
  have h4 : State.Same fs k s4 := State.fgLost_same (.of rfl hm) _ _ _ h3
  clear_value s1 s2 s3 s4
  have h5 : State.Same fs k s5 := by
    dsimp only [s5]
    exact State.Same.upd_50 (.of rfl hm) h4
  clear_value s5
  have h6 : State.Same fs k s6 := State.setWood_same (.of rfl hm) _ _ _ h5
  have h7 : State.Same fs k s7 := State.setTally_same (.of rfl hm) _ _ _ h6
  have h8 : State.Same fs k s8 := State.setHbm_same (.of rfl hm) _ _ _ (State.setMatrix_same (.of rfl hm) _ _ _ h7)
  clear_value s6 s7 s8
  have h9 : State.Same fs k s9 := State.dropSel_same (.of rfl hm) _ _ (State.endReads_same (.of rfl hm) _ _ _ h8 (fun _ h a => State.readLost_same (.of rfl hm) _ a h))
  have h10 : State.Same fs k s10 := State.setPath_same (.of rfl hm) _ _ _ h9
  clear_value s9 s10
  have h11 : State.Same fs k s11 := State.Same.upd_108000000080 (.of rfl hm) h10
  clear_value s11
  split
  · exact State.sweepReset_same (.of rfl hm) _ _ _ h11
  · exact h11

theorem State.rstHalf_same {fs : Nat} {k : State} (hm : State.Sub 0x12df3fffbfdc fs) (s : State) (v : Word) (hs :
  State.Same fs k s) : State.Same fs k (State.rstHalf s v) := by
  unfold State.rstHalf
  try dsimp only
  with_reducible repeat' first
    | assumption | exact State.Sub.of rfl hm | apply State.halfStart_same | apply State.rstReject_same | intro _ _ | split
    | dsimp only

theorem State.keptAlways_same {fs : Nat} {k : State} (hm : State.Sub 0x10 fs) (s : State) (old : State) (hs :
  State.Same fs k s) : State.Same fs k (State.keptAlways s old) := by
  unfold State.keptAlways
  try dsimp only
  with_reducible repeat' first
    | assumption | exact State.Sub.of rfl hm | apply State.setReg_same | intro _ _ | split | dsimp only

theorem State.chipReset_same {fs : Nat} {k : State} (hm : State.Sub 0x1bfffffffff2 fs) (s : State) (cause : Nat) (hs
  : State.Same fs k s) : State.Same fs k (State.chipReset s cause) := by
  unfold State.chipReset
  try dsimp only
  with_reducible repeat' first
    | assumption | exact State.Sub.of rfl hm | apply State.keptAlways_same | intro _ _ | split | dsimp only
    | refine State.Same.upd_1bfffffffff2 ?_ ?_

theorem State.loseAligns_same {fs : Nat} {k : State} (hm : State.Sub 0xdb1fecb858 fs) (s : State) (x1 : List Nat) (hs
  : State.Same fs k s) : State.Same fs k (State.loseAligns s x1) := by
  induction x1 generalizing s with
  | nil =>
    unfold State.loseAligns
    try dsimp only
    with_reducible repeat' first
      | assumption | exact State.Sub.of rfl hm | apply State.loseAlign_same | intro _ _ | split | dsimp only
  | cons a l ih =>
    unfold State.loseAligns
    try dsimp only
    with_reducible repeat' first
      | assumption | exact State.Sub.of rfl hm | apply ih | apply State.loseAlign_same | intro _ _ | split | dsimp only

theorem State.blockEnter_same {fs : Nat} {k : State} (hm : State.Sub 0xdbbffdf85c fs) (s : State) (p : Nat) (hs :
  State.Same fs k s) : State.Same fs k (State.blockEnter s p) := by
  unfold State.blockEnter
  try dsimp only
  with_reducible repeat' first
    | assumption | exact State.Sub.of rfl hm | apply State.loseAligns_same | apply State.stageOut_same
    | apply State.seqStop_same | apply State.deckClear_same | intro _ _ | split | dsimp only

theorem State.abortWindow_same {fs : Nat} {k : State} (hm : State.Sub 0x98 fs) (s : State) (p : Nat) (hs : State.Same
  fs k s) : State.Same fs k (State.abortWindow s p) := by
  unfold State.abortWindow
  try dsimp only
  with_reducible repeat' first
    | assumption | exact State.Sub.of rfl hm | apply State.readInReset_same | apply State.setReg_same | intro _
    | apply State.endReads_same | intro _ _ | split | dsimp only | refine State.Same.upd_80 ?_ ?_

theorem State.blockBegin_same {fs : Nat} {k : State} (hm : State.Sub 0x10dbbffdf8dc fs) (s : State) (p : Nat) (hs :
  State.Same fs k s) : State.Same fs k (State.blockBegin s p) := by
  unfold State.blockBegin
  try dsimp only
  with_reducible repeat' first
    | assumption | exact State.Sub.of rfl hm | apply State.blockEnter_same | apply State.setRf_same
    | apply State.abortWindow_same | intro _ _ | split | dsimp only | refine State.Same.upd_100000000000 ?_ ?_

theorem State.blockStart_same {fs : Nat} {k : State} (hm : State.Sub 0x10dbbffdf8dc fs) (s : State) (p : Nat) (hs :
  State.Same fs k s) : State.Same fs k (State.blockStart s p) := by
  unfold State.blockStart
  try dsimp only
  with_reducible repeat' first
    | assumption | exact State.Sub.of rfl hm | apply State.blockBegin_same | apply State.setRf_same
    | apply State.rstReject_same | intro _ _ | split | dsimp only

theorem State.straps_same {fs : Nat} {k : State} (hm : State.Sub 0x100000000000 fs) (s : State) (pins : PinSample)
  (hs : State.Same fs k s) : State.Same fs k (State.straps s pins) := by
  unfold State.straps
  try dsimp only
  with_reducible repeat' first
    | assumption | exact State.Sub.of rfl hm | intro _ _ | split | dsimp only | refine State.Same.upd_100000000000 ?_ ?_

theorem State.powerReset_same {fs : Nat} {k : State} (hm : State.Sub 0x1bfffffffffa fs) (s : State) (pins :
  PinSample) (hs : State.Same fs k s) : State.Same fs k (State.powerReset s pins) := by
  unfold State.powerReset
  try dsimp only
  with_reducible repeat' first
    | assumption | exact State.Sub.of rfl hm | apply State.emit_same | apply State.setReg_same | apply State.straps_same
    | intro _ _ | split | dsimp only | refine State.Same.upd_1bfffffffff2 ?_ ?_

theorem State.mapLateRing_same {fs : Nat} {k : State} (hm : State.Sub 0x10 fs) (s : State) (x1 : Nat) (r : Nat) (hs :
  State.Same fs k s) : State.Same fs k (State.mapLateRing s x1 r) := by
  unfold State.mapLateRing
  try dsimp only
  with_reducible repeat' first
    | assumption | exact State.Sub.of rfl hm | apply State.mapRing_same | intro _ _ | split | dsimp only

theorem State.mapLate_same {fs : Nat} {k : State} (hm : State.Sub 0x10 fs) (s : State) (x1 : Nat) (hs : State.Same fs
  k s) : State.Same fs k (State.mapLate s x1) := by
  unfold State.mapLate
  try dsimp only
  with_reducible repeat' first
    | assumption | exact State.Sub.of rfl hm | apply State.mapLateRing_same | intro _ _ | split | dsimp only

theorem State.sendHeld_same {fs : Nat} {k : State} (hm : State.Sub 0x8000000010 fs) (s : State) (x1 : List Message)
  (hs : State.Same fs k s) : State.Same fs k (State.sendHeld s x1) := by
  induction x1 generalizing s with
  | nil =>
    unfold State.sendHeld
    try dsimp only
    with_reducible repeat' first
      | assumption | exact State.Sub.of rfl hm | apply State.send_same | intro _ _ | split | dsimp only
  | cons a l ih =>
    unfold State.sendHeld
    try dsimp only
    with_reducible repeat' first
      | assumption | exact State.Sub.of rfl hm | apply ih | apply State.send_same | intro _ _ | split | dsimp only

theorem State.strapPins_same {fs : Nat} {k : State} (hm : State.Sub 0x100000000000 fs) (s : State) (pins : PinSample)
  (hs : State.Same fs k s) : State.Same fs k (State.strapPins s pins) := by
  unfold State.strapPins
  try dsimp only
  with_reducible repeat' first
    | assumption | exact State.Sub.of rfl hm | intro _ _ | split | dsimp only | refine State.Same.upd_100000000000 ?_ ?_

theorem State.tellFailed_same {fs : Nat} {k : State} (hm : State.Sub 0x18000000010 fs) (s : State) (hs : State.Same
  fs k s) : State.Same fs k (State.tellFailed s) := by
  unfold State.tellFailed
  try dsimp only
  with_reducible repeat' first
    | assumption | exact State.Sub.of rfl hm | apply State.setCluster_same | apply State.raiseIf_same | intro _ _ | split
    | dsimp only

theorem State.clearEvents_same {fs : Nat} {k : State} (hm : State.Sub 0x8000000010 fs) (s : State) (p : Nat) (hs :
  State.Same fs k s) : State.Same fs k (State.clearEvents s p) := by
  unfold State.clearEvents
  try dsimp only
  with_reducible repeat' first
    | assumption | exact State.Sub.of rfl hm | apply State.setEvtRegs_same | intro _ _ | split | dsimp only

theorem State.missAll_same {fs : Nat} {k : State} (hm : State.Sub 0x8000000000 fs) (s : State) (x1 : List Nat) (hs :
  State.Same fs k s) : State.Same fs k (State.missAll s x1) := by
  induction x1 generalizing s with
  | nil =>
    unfold State.missAll
    try dsimp only
    with_reducible repeat' first
      | assumption | exact State.Sub.of rfl hm | apply State.missRise_same | intro _ _ | split | dsimp only
  | cons a l ih =>
    unfold State.missAll
    try dsimp only
    with_reducible repeat' first
      | assumption | exact State.Sub.of rfl hm | apply ih | apply State.missRise_same | intro _ _ | split | dsimp only

theorem State.portsStart_same {fs : Nat} {k : State} (hm : State.Sub 0x2931e003a50 fs) (s : State) (x1 : List Nat)
  (hs : State.Same fs k s) : State.Same fs k (State.portsStart s x1) := by
  induction x1 generalizing s with
  | nil =>
    unfold State.portsStart
    try dsimp only
    with_reducible repeat' first
      | assumption | exact State.Sub.of rfl hm | apply State.enablePort_same | apply State.spanStart_same | intro _ _
      | split | dsimp only
  | cons a l ih =>
    unfold State.portsStart
    try dsimp only
    with_reducible repeat' first
      | assumption | exact State.Sub.of rfl hm | apply ih | apply State.enablePort_same | apply State.spanStart_same
      | intro _ _ | split | dsimp only

theorem State.resetPage_same {fs : Nat} {k : State} (hm : State.Sub 0x8000000090 fs) (s : State) (p : Nat) (win :
  Bool) (keep : Nat → Bool) (hs : State.Same fs k s) : State.Same fs k (State.resetPage s p win keep) := by
  unfold State.resetPage
  try dsimp only
  with_reducible repeat' first
    | assumption | exact State.Sub.of rfl hm | apply State.clearEvents_same | apply State.dropSel_same | intro _ _ | split
    | dsimp only | refine State.Same.upd_10 ?_ ?_

theorem State.resetPages_same {fs : Nat} {k : State} (hm : State.Sub 0x8000000090 fs) (s : State) (win : Bool) (x2 :
  List Nat) (hs : State.Same fs k s) : State.Same fs k (State.resetPages s win x2) := by
  induction x2 generalizing s win with
  | nil =>
    unfold State.resetPages
    try dsimp only
    with_reducible repeat' first
      | assumption | exact State.Sub.of rfl hm | apply State.resetPage_same | intro _ _ | split | dsimp only
  | cons a l ih =>
    unfold State.resetPages
    try dsimp only
    with_reducible repeat' first
      | assumption | exact State.Sub.of rfl hm | apply ih | apply State.resetPage_same | intro _ _ | split | dsimp only

theorem State.sliceReady_same {fs : Nat} {k : State} (hm : State.Sub 0x12931e003ad8 fs) (s : State) (sl : Nat) (hs :
  State.Same fs k s) : State.Same fs k (State.sliceReady s sl) := by
  unfold State.sliceReady
  try dsimp only
  with_reducible repeat' first
    | assumption | exact State.Sub.of rfl hm | apply State.raise_same | apply State.portsStart_same
    | apply State.readInReset_same | intro _ | apply State.endReads_same | apply State.resetPages_same | intro _ _ | split
    | dsimp only | refine State.Same.upd_100000000080 ?_ ?_

theorem State.initStill_same {fs : Nat} {k : State} (hm : State.Sub 0x8002080014 fs) (s : State) (x1 : Nat) (hs :
  State.Same fs k s) : State.Same fs k (State.initStill s x1) := by
  unfold State.initStill
  try dsimp only
  with_reducible repeat' first
    | assumption | exact State.Sub.of rfl hm | apply State.initDeck_same | intro _ _ | split | dsimp only

theorem State.eastLevels_same {fs : Nat} {k : State} (hm : State.Sub 0x8000000000 fs) (s : State) (hs : State.Same fs
  k s) : State.Same fs k (State.eastLevels s) := by
  unfold State.eastLevels
  try dsimp only
  with_reducible repeat' first
    | assumption | exact State.Sub.of rfl hm | apply State.missAll_same | intro _ _ | split | dsimp only

theorem State.channelUp_same {fs : Nat} {k : State} (hm : State.Sub 0x1c000020110 fs) (s : State) (hs : State.Same fs
  k s) : State.Same fs k (State.channelUp s) := by
  unfold State.channelUp
  try dsimp only
  with_reducible repeat' first
    | assumption | exact State.Sub.of rfl hm | apply State.eastLevels_same | apply State.tellFailed_same
    | apply State.peerHolds_same | apply State.sendHeld_same | apply State.sourceMsg_same | intro _ _ | split | dsimp only
    | refine State.Same.upd_c000000100 ?_ ?_

theorem State.refillOne_same {fs : Nat} {k : State} (hm : State.Sub 0x8000000050 fs) (s : State) (g : Nat) (x2 : Nat)
  (l : Nat) (hs : State.Same fs k s) : State.Same fs k (State.refillOne s g x2 l) := by
  unfold State.refillOne
  try dsimp only
  with_reducible repeat' first
    | assumption | exact State.Sub.of rfl hm | apply State.setEmW_same | refine State.placeEntry_same ?_ (by assumption) ?_
    | intro _ _ | split | dsimp only

theorem State.refillAll_same {fs : Nat} {k : State} (hm : State.Sub 0x8000000050 fs) (s : State) (g : Nat) (x2 : Nat)
  (x3 : List Nat) (hs : State.Same fs k s) : State.Same fs k (State.refillAll s g x2 x3) := by
  induction x3 generalizing s g x2 with
  | nil =>
    unfold State.refillAll
    try dsimp only
    with_reducible repeat' first
      | assumption | exact State.Sub.of rfl hm | apply State.refillOne_same | intro _ _ | split | dsimp only
  | cons a l ih =>
    unfold State.refillAll
    try dsimp only
    with_reducible repeat' first
      | assumption | exact State.Sub.of rfl hm | apply ih | apply State.refillOne_same | intro _ _ | split | dsimp only

theorem State.eastTakeAll_same {fs : Nat} {k : State} (hm : State.Sub 0x8000000050 fs) (s : State) (x1 : List
  EastChange) (hs : State.Same fs k s) : State.Same fs k (State.eastTakeAll s x1) := by
  induction x1 generalizing s with
  | nil =>
    unfold State.eastTakeAll
    try dsimp only
    with_reducible repeat' first
      | assumption | exact State.Sub.of rfl hm | apply State.eastTake_same | intro _ _ | split | dsimp only
  | cons a l ih =>
    unfold State.eastTakeAll
    try dsimp only
    with_reducible repeat' first
      | assumption | exact State.Sub.of rfl hm | apply ih | apply State.eastTake_same | intro _ _ | split | dsimp only

theorem State.refill_same {fs : Nat} {k : State} (hm : State.Sub 0x8060000050 fs) (s : State) (x1 : Nat) (hs :
  State.Same fs k s) : State.Same fs k (State.refill s x1) := by
  unfold State.refill
  try dsimp only
  with_reducible repeat' first
    | assumption | exact State.Sub.of rfl hm | apply State.setWood_same | apply State.refillAll_same
    | apply State.eastTakeAll_same | intro _ _ | split | dsimp only | refine State.Same.upd_40000000 ?_ ?_

theorem State.sweepAgain_same {fs : Nat} {k : State} (hm : State.Sub 0x20000 fs) (s : State) (x1 : Nat) (hs :
  State.Same fs k s) : State.Same fs k (State.sweepAgain s x1) := by
  unfold State.sweepAgain
  try dsimp only
  with_reducible repeat' first
    | assumption | exact State.Sub.of rfl hm | intro _ _ | split | dsimp only | refine State.Same.upd_20000 ?_ ?_

theorem State.halfReady_same {fs : Nat} {k : State} (hm : State.Sub 0x13d77e0a3b54 fs) (s : State) (x1 : Nat) (hs :
  State.Same fs k s) : State.Same fs k (State.halfReady s x1) := by
  unfold State.halfReady
  try dsimp only
  with_reducible repeat' first
    | assumption | exact State.Sub.of rfl hm | apply State.raise_same | apply State.portsStart_same
    | apply State.initStill_same | apply State.channelUp_same | apply State.refill_same | apply State.sweepAgain_same
    | apply State.mapLate_same | apply State.setHbm_same | intro _ _ | split | dsimp only
    | refine State.Same.upd_104000000000 ?_ ?_

theorem State.enterWipe_same {fs : Nat} {k : State} (hm : State.Sub 0x118220000014 fs) (s : State) (hs : State.Same
  fs k s) : State.Same fs k (State.enterWipe s) := by
  unfold State.enterWipe
  try dsimp only
  with_reducible repeat' first
    | assumption | exact State.Sub.of rfl hm | apply State.raiseIf_same | apply State.extend_same
    | apply State.setTally_same | apply State.setWood_same | intro _ _ | split | dsimp only
    | refine State.Same.upd_100000000004 ?_ ?_

theorem State.blockLeave_same {fs : Nat} {k : State} (hm : State.Sub 0xfb620a085c fs) (s : State) (p : Nat) (hs :
  State.Same fs k s) : State.Same fs k (State.blockLeave s p) := by
  unfold State.blockLeave
  try dsimp only
  with_reducible repeat' first
    | assumption | exact State.Sub.of rfl hm | apply State.fireSettle_same | apply State.setCruiser_same
    | apply State.nbrsClear_same | apply State.setMatrix_same | apply State.setTally_same | apply State.seqReady_same
    | apply State.initStill_same | intro _ _ | split | dsimp only | refine State.Same.upd_2000020800 ?_ ?_

theorem State.blockDone_same {fs : Nat} {k : State} (hm : State.Sub 0x10fbfffff8dc fs) (s : State) (p : Nat) (hs :
  State.Same fs k s) : State.Same fs k (State.blockDone s p) := by
  unfold State.blockDone
  try dsimp only
  with_reducible repeat' first
    | assumption | exact State.Sub.of rfl hm | apply State.raise_same | apply State.setRf_same
    | apply State.blockLeave_same | apply State.resetPage_same | apply State.blockBegin_same | intro _ _ | split
    | dsimp only | refine State.Same.upd_100000000000 ?_ ?_

theorem State.enterBoot_same {fs : Nat} {k : State} (hm : State.Sub 0x118620000014 fs) (s : State) (hs : State.Same
  fs k s) : State.Same fs k (State.enterBoot s) := by
  unfold State.enterBoot
  try dsimp only
  with_reducible repeat' first
    | assumption | exact State.Sub.of rfl hm | apply State.setHbm_same | apply State.enterWipe_same | intro _ _ | split
    | dsimp only | refine State.Same.upd_110000000000 ?_ ?_

theorem execStartUpWipeDone_same {fs : Nat} {k : State} (hm : State.Sub 0x118620000014 fs) {s : State} {rr : State}
  (ht : execStartUpWipeDone s = .next rr) (hs : State.Same fs k s) : State.Same fs k rr := by
  refine State.Same.run (fun s hs => ?_) hs ht
  try dsimp only
  with_reducible repeat' first
    | assumption | exact State.Sub.of rfl hm | apply State.enterBoot_same | intro _ _ | split | dsimp only

/-! ### LookOps -/

theorem State.setLook_same {fs : Nat} {k : State} (hm : State.Sub 0x8000000000 fs) (s : State) (lo : LookoutS) (hs :
  State.Same fs k s) : State.Same fs k (State.setLook s lo) := by
  unfold State.setLook
  try dsimp only
  with_reducible repeat' first
    | assumption | exact State.Sub.of rfl hm | intro _ _ | split | dsimp only | refine State.Same.upd_8000000000 ?_ ?_

theorem State.clrOne_same {fs : Nat} {k : State} (hm : State.Sub 0x8000000010 fs) (s : State) (n : Nat) (hs :
  State.Same fs k s) : State.Same fs k (State.clrOne s n) := by
  unfold State.clrOne
  try dsimp only
  with_reducible repeat' first
    | assumption | exact State.Sub.of rfl hm | apply State.setLook_same | apply State.count_same | apply State.raise_same
    | intro _ _ | split | dsimp only

theorem State.clrAll_same {fs : Nat} {k : State} (hm : State.Sub 0x8000000010 fs) (s : State) (x1 : List Nat) (hs :
  State.Same fs k s) : State.Same fs k (State.clrAll s x1) := by
  induction x1 generalizing s with
  | nil =>
    unfold State.clrAll
    try dsimp only
    with_reducible repeat' first
      | assumption | exact State.Sub.of rfl hm | apply State.clrOne_same | intro _ _ | split | dsimp only
  | cons a l ih =>
    unfold State.clrAll
    try dsimp only
    with_reducible repeat' first
      | assumption | exact State.Sub.of rfl hm | apply ih | apply State.clrOne_same | intro _ _ | split | dsimp only

theorem State.loClr_same {fs : Nat} {k : State} (hm : State.Sub 0x8000000010 fs) (s : State) (v : Word) (hs :
  State.Same fs k s) : State.Same fs k (State.loClr s v) := by
  unfold State.loClr
  try dsimp only
  with_reducible repeat' first
    | assumption | exact State.Sub.of rfl hm | apply State.clrOne_same | apply State.clrAll_same | intro _ _ | split
    | dsimp only

theorem State.pinRise_same {fs : Nat} {k : State} (hm : State.Sub 0x8000000008 fs) (s : State) (hs : State.Same fs k
  s) : State.Same fs k (State.pinRise s) := by
  unfold State.pinRise
  try dsimp only
  with_reducible repeat' first
    | assumption | exact State.Sub.of rfl hm | apply State.setLook_same | apply State.emit_same | intro _ _ | split
    | dsimp only

theorem State.pinRelease_same {fs : Nat} {k : State} (hm : State.Sub 0x8000000008 fs) (s : State) (hs : State.Same fs
  k s) : State.Same fs k (State.pinRelease s) := by
  unfold State.pinRelease
  try dsimp only
  with_reducible repeat' first
    | assumption | exact State.Sub.of rfl hm | apply State.pinRise_same | apply State.setLook_same | intro _ _ | split
    | dsimp only

theorem State.askFatal_same {fs : Nat} {k : State} (hm : State.Sub 0x8000000000 fs) (s : State) (cause : Nat) (m :
  Message) (hs : State.Same fs k s) : State.Same fs k (State.askFatal s cause m) := by
  unfold State.askFatal
  try dsimp only
  with_reducible repeat' first
    | assumption | exact State.Sub.of rfl hm | apply State.setLook_same | intro _ _ | split | dsimp only

theorem State.longCopy_same {fs : Nat} {k : State} (hm : State.Sub 0x10000000000 fs) (s : State) (e : LogEntry) (hs :
  State.Same fs k s) : State.Same fs k (State.longCopy s e) := by
  unfold State.longCopy
  try dsimp only
  with_reducible repeat' first
    | assumption | exact State.Sub.of rfl hm | intro _ _ | split | dsimp only | refine State.Same.upd_10000000000 ?_ ?_

theorem State.longFrom_same {fs : Nat} {k : State} (hm : State.Sub 0x10000000000 fs) (s : State) (n : Nat) (x2 : Nat)
  (hs : State.Same fs k s) : State.Same fs k (State.longFrom s n x2) := by
  induction x2 generalizing s n with
  | zero =>
    unfold State.longFrom
    try dsimp only
    with_reducible repeat' first
      | assumption | exact State.Sub.of rfl hm | apply State.longCopy_same | intro _ _ | split | dsimp only
  | succ nn ih =>
    unfold State.longFrom
    try dsimp only
    with_reducible repeat' first
      | assumption | exact State.Sub.of rfl hm | apply ih | apply State.longCopy_same | intro _ _ | split | dsimp only

theorem State.longSync_same {fs : Nat} {k : State} (hm : State.Sub 0x10000000000 fs) (s : State) (hs : State.Same fs
  k s) : State.Same fs k (State.longSync s) := by
  unfold State.longSync
  try dsimp only
  with_reducible repeat' first
    | assumption | exact State.Sub.of rfl hm | apply State.longFrom_same | intro _ _ | split | dsimp only
    | refine State.Same.upd_10000000000 ?_ ?_

theorem State.askSevere_same {fs : Nat} {k : State} (hm : State.Sub 0x8000000000 fs) (s : State) (m : Message) (hs :
  State.Same fs k s) : State.Same fs k (State.askSevere s m) := by
  unfold State.askSevere
  try dsimp only
  with_reducible repeat' first
    | assumption | exact State.Sub.of rfl hm | apply State.setLook_same | apply State.askFatal_same | intro _ _ | split
    | dsimp only

theorem State.askChip_same {fs : Nat} {k : State} (hm : State.Sub 0x8000000000 fs) (s : State) (m : Message) (hs :
  State.Same fs k s) : State.Same fs k (State.askChip s m) := by
  unfold State.askChip
  try dsimp only
  with_reducible repeat' first
    | assumption | exact State.Sub.of rfl hm | apply State.setLook_same | apply State.askFatal_same | intro _ _ | split
    | dsimp only

theorem State.pinLatch_same {fs : Nat} {k : State} (hm : State.Sub 0x8000000018 fs) (s : State) (hs : State.Same fs k
  s) : State.Same fs k (State.pinLatch s) := by
  unfold State.pinLatch
  try dsimp only
  with_reducible repeat' first
    | assumption | exact State.Sub.of rfl hm | apply State.count_same | apply State.raise_same | apply State.setLook_same
    | apply State.emit_same | intro _ _ | split | dsimp only

theorem State.trap_same {fs : Nat} {k : State} (hm : State.Sub 0x8000000010 fs) (s : State) (m : Message) (hs :
  State.Same fs k s) : State.Same fs k (State.trap s m) := by
  unfold State.trap
  try dsimp only
  with_reducible repeat' first
    | assumption | exact State.Sub.of rfl hm | apply State.count_same | apply State.raise_same | apply State.setLook_same
    | intro _ _ | split | dsimp only

theorem State.react_same {fs : Nat} {k : State} (hm : State.Sub 0x10dbbffdf8dc fs) (s : State) (m : Message) (hs :
  State.Same fs k s) : State.Same fs k (State.react s m) := by
  unfold State.react
  try dsimp only
  with_reducible repeat' first
    | assumption | exact State.Sub.of rfl hm | apply State.blockStart_same | apply State.askSevere_same
    | apply State.askChip_same | apply State.pinLatch_same | apply State.trap_same | apply State.msix_same | intro _ _
    | split | dsimp only

theorem State.logMsg_same {fs : Nat} {k : State} (hm : State.Sub 0x18000000000 fs) (s : State) (m : Message) (first :
  Bool) (react : Nat) (hs : State.Same fs k s) : State.Same fs k (State.logMsg s m first react) := by
  unfold State.logMsg
  try dsimp only
  with_reducible repeat' first
    | assumption | exact State.Sub.of rfl hm | apply State.setLook_same | apply State.longSync_same | intro _ _ | split
    | dsimp only

theorem State.takeMsg_same {fs : Nat} {k : State} (hm : State.Sub 0x11dbbffdf8dc fs) (s : State) (m : Message) (hs :
  State.Same fs k s) : State.Same fs k (State.takeMsg s m) := by
  unfold State.takeMsg
  try dsimp only
  with_reducible repeat' first
    | assumption | exact State.Sub.of rfl hm | apply State.react_same | apply State.logMsg_same | apply State.setLook_same
    | apply State.count_same | intro _ _ | split | dsimp only

theorem State.takeNext_same {fs : Nat} {k : State} (hm : State.Sub 0x11dbbffdf8dc fs) (s : State) (q : MsgQueue) (hs
  : State.Same fs k s) : State.Same fs k (State.takeNext s q) := by
  unfold State.takeNext
  try dsimp only
  with_reducible repeat' first
    | assumption | exact State.Sub.of rfl hm | apply State.setLook_same | apply State.takeMsg_same | intro _ _ | split
    | dsimp only

theorem State.sumWrite_same {fs : Nat} {k : State} (hm : State.Sub 0x28000000010 fs) (s : State) (x : Summary) (ok :
  Bool) (hs : State.Same fs k s) : State.Same fs k (State.sumWrite s x ok) := by
  unfold State.sumWrite
  try dsimp only
  with_reducible repeat' first
    | assumption | exact State.Sub.of rfl hm | apply State.setLook_same | apply State.raiseIf_same | intro _ _ | split
    | dsimp only | refine State.Same.upd_20000000000 ?_ ?_

theorem State.fatalWritten_same {fs : Nat} {k : State} (hm : State.Sub 0x1bfffffffff2 fs) (s : State) (ok : Bool) (hs
  : State.Same fs k s) : State.Same fs k (State.fatalWritten s ok) := by
  unfold State.fatalWritten
  try dsimp only
  with_reducible repeat' first
    | assumption | exact State.Sub.of rfl hm | apply State.chipReset_same | apply State.setLook_same
    | apply State.sumWrite_same | intro _ _ | split | dsimp only

theorem State.levelRise_same {fs : Nat} {k : State} (hm : State.Sub 0x10dbbffdf8dc fs) (s : State) (n : Nat) (hs :
  State.Same fs k s) : State.Same fs k (State.levelRise s n) := by
  unfold State.levelRise
  try dsimp only
  with_reducible repeat' first
    | assumption | exact State.Sub.of rfl hm | apply State.react_same | apply State.setLook_same | intro _ _ | split
    | dsimp only

/-! ### Firebreak -/

theorem State.hintWrite_same {fs : Nat} {k : State} (hm : State.Sub 0x2000000010 fs) (s : State) (d : Nat) (hs :
  State.Same fs k s) : State.Same fs k (State.hintWrite s d) := by
  unfold State.hintWrite
  try dsimp only
  with_reducible repeat' first
    | assumption | exact State.Sub.of rfl hm | apply State.hintStart_same | intro _ _ | split | dsimp only

theorem State.setFire_same {fs : Nat} {k : State} (hm : State.Sub 0x2000000000 fs) (s : State) (f : FireS) (hs :
  State.Same fs k s) : State.Same fs k (State.setFire s f) := by
  unfold State.setFire
  try dsimp only
  with_reducible repeat' first
    | assumption | exact State.Sub.of rfl hm | intro _ _ | split | dsimp only | refine State.Same.upd_2000000000 ?_ ?_

theorem State.fbCalWrite_same {fs : Nat} {k : State} (hm : State.Sub 0x2000000010 fs) (s : State) (v : Word) (hs :
  State.Same fs k s) : State.Same fs k (State.fbCalWrite s v) := by
  unfold State.fbCalWrite
  try dsimp only
  with_reducible repeat' first
    | assumption | exact State.Sub.of rfl hm | apply State.setReg_same | apply State.setFire_same | intro _ _ | split
    | dsimp only

theorem State.fixedWrite_same {fs : Nat} {k : State} (hm : State.Sub 0xa020000010 fs) (s : State) (on : Bool) (hs :
  State.Same fs k s) : State.Same fs k (State.fixedWrite s on) := by
  unfold State.fixedWrite
  try dsimp only
  with_reducible repeat' first
    | assumption | exact State.Sub.of rfl hm | apply State.setFire_same | apply State.fireSettle_same
    | apply State.raiseIf_same | apply State.setRf_same | intro _ _ | split | dsimp only

theorem State.thermalTrip_same {fs : Nat} {k : State} (hm : State.Sub 0x108b120c2018 fs) (s : State) (hs : State.Same
  fs k s) : State.Same fs k (State.thermalTrip s) := by
  unfold State.thermalTrip
  try dsimp only
  with_reducible repeat' first
    | assumption | exact State.Sub.of rfl hm | apply State.pcieDown_same | apply State.emit_same
    | apply State.askFatal_same | intro _ _ | split | dsimp only | refine State.Same.upd_100000000000 ?_ ?_

theorem execThermalTrip_same {fs : Nat} {k : State} (hm : State.Sub 0x108b120c2018 fs) {_h : Half} {s : State} {rr :
  State} (ht : execThermalTrip _h s = .next rr) (hs : State.Same fs k s) : State.Same fs k rr := by
  refine State.Same.runAlways (fun s hs => ?_) hs ht
  try dsimp only
  with_reducible repeat' first
    | assumption | exact State.Sub.of rfl hm | apply State.thermalTrip_same | apply State.onlyIf_same | intro _ _ | split
    | dsimp only

theorem State.supplyRecovery_same {fs : Nat} {k : State} (hm : State.Sub 0xa000000010 fs) (s : State) (rail : Nat)
  (hs : State.Same fs k s) : State.Same fs k (State.supplyRecovery s rail) := by
  unfold State.supplyRecovery
  try dsimp only
  with_reducible repeat' first
    | assumption | exact State.Sub.of rfl hm | apply State.setFire_same | apply State.sourceMsg_same | intro _ _ | split
    | dsimp only

theorem State.soft_same {fs : Nat} {k : State} (hm : State.Sub 0xa000000010 fs) (s : State) (x1 : Nat) (hs :
  State.Same fs k s) : State.Same fs k (State.soft s x1) := by
  unfold State.soft
  try dsimp only
  with_reducible repeat' first
    | assumption | exact State.Sub.of rfl hm | apply State.setFire_same | apply State.count_same | apply State.raise_same
    | intro _ _ | split | dsimp only

theorem State.uvWarn_same {fs : Nat} {k : State} (hm : State.Sub 0xa020000010 fs) (s : State) (hs : State.Same fs k
  s) : State.Same fs k (State.uvWarn s) := by
  unfold State.uvWarn
  try dsimp only
  with_reducible repeat' first
    | assumption | exact State.Sub.of rfl hm | apply State.setFire_same | apply State.fireSettle_same
    | apply State.count_same | apply State.raise_same | intro _ _ | split | dsimp only

theorem State.supplyWarning_same {fs : Nat} {k : State} (hm : State.Sub 0xa020000010 fs) (s : State) (rail : Nat)
  (high : Bool) (hs : State.Same fs k s) : State.Same fs k (State.supplyWarning s rail high) := by
  unfold State.supplyWarning
  try dsimp only
  with_reducible repeat' first
    | assumption | exact State.Sub.of rfl hm | apply State.uvWarn_same | apply State.setFire_same
    | apply State.sourceMsg_same | intro _ _ | split | dsimp only

theorem execUvRelease_same {fs : Nat} {k : State} (hm : State.Sub 0xa020000010 fs) {s : State} {rr : State} (ht :
  execUvRelease s = .next rr) (hs : State.Same fs k s) : State.Same fs k rr := by
  refine State.Same.run (fun s hs => ?_) hs ht
  try dsimp only
  with_reducible repeat' first
    | assumption | exact State.Sub.of rfl hm | apply State.setFire_same | apply State.fireSettle_same | intro _ _ | split
    | dsimp only

theorem State.resetDip_same {fs : Nat} {k : State} (hm : State.Sub 0x8000000000 fs) (s : State) (hs : State.Same fs k
  s) : State.Same fs k (State.resetDip s) := by
  unfold State.resetDip
  try dsimp only
  with_reducible repeat' first
    | assumption | exact State.Sub.of rfl hm | apply State.askFatal_same | apply State.setLook_same | intro _ _ | split
    | dsimp only

theorem State.hbmSensor_same {fs : Nat} {k : State} (hm : State.Sub 0xa000000010 fs) (s : State) (x1 : Nat) (t : Int)
  (hs : State.Same fs k s) : State.Same fs k (State.hbmSensor s x1 t) := by
  unfold State.hbmSensor
  try dsimp only
  with_reducible repeat' first
    | assumption | exact State.Sub.of rfl hm | apply State.setFire_same | apply State.raise_same | apply State.setReg_same
    | intro _ _ | split | dsimp only

theorem State.sensor_same {fs : Nat} {k : State} (hm : State.Sub 0xa000000010 fs) (s : State) (i : Nat) (t : Int) (hs
  : State.Same fs k s) : State.Same fs k (State.sensor s i t) := by
  unfold State.sensor
  try dsimp only
  with_reducible repeat' first
    | assumption | exact State.Sub.of rfl hm | apply State.setFire_same | apply State.sourceMsg_same
    | apply State.raise_same | apply State.setReg_same | intro _ _ | split | dsimp only

theorem State.sensors_same {fs : Nat} {k : State} (hm : State.Sub 0xa000000010 fs) (s : State) (i : Nat) (x2 : List
  Int) (hs : State.Same fs k s) : State.Same fs k (State.sensors s i x2) := by
  induction x2 generalizing s i with
  | nil =>
    unfold State.sensors
    try dsimp only
    with_reducible repeat' first
      | assumption | exact State.Sub.of rfl hm | apply State.sensor_same | intro _ _ | split | dsimp only
  | cons a l ih =>
    unfold State.sensors
    try dsimp only
    with_reducible repeat' first
      | assumption | exact State.Sub.of rfl hm | apply ih | apply State.sensor_same | intro _ _ | split | dsimp only

theorem State.tempSample_same {fs : Nat} {k : State} (hm : State.Sub 0xa000000014 fs) (s : State) (t : TempSample)
  (hs : State.Same fs k s) : State.Same fs k (State.tempSample s t) := by
  unfold State.tempSample
  try dsimp only
  with_reducible repeat' first
    | assumption | exact State.Sub.of rfl hm | apply State.headSetpoint_same | apply State.onlyIf_same
    | apply State.hbmSensor_same | apply State.sensors_same | intro _ _ | split | dsimp only

theorem State.droop_same {fs : Nat} {k : State} (hm : State.Sub 0xa000000010 fs) (s : State) (x1 : Nat) (ns : Nat)
  (hs : State.Same fs k s) : State.Same fs k (State.droop s x1 ns) := by
  unfold State.droop
  try dsimp only
  with_reducible repeat' first
    | assumption | exact State.Sub.of rfl hm | apply State.setFire_same | apply State.sourceMsg_same
    | apply State.count64_same | intro _ _ | split | dsimp only

theorem State.thermalStep_same {fs : Nat} {k : State} (hm : State.Sub 0xa020000010 fs) (s : State) (hs : State.Same
  fs k s) : State.Same fs k (State.thermalStep s) := by
  unfold State.thermalStep
  try dsimp only
  with_reducible repeat' first
    | assumption | exact State.Sub.of rfl hm | apply State.fireSettle_same | apply State.raise_same
    | apply State.setFire_same | apply State.soft_same | intro _ _ | split | dsimp only

theorem State.powerSample_same {fs : Nat} {k : State} (hm : State.Sub 0xa020000014 fs) (s : State) (hs : State.Same
  fs k s) : State.Same fs k (State.powerSample s) := by
  unfold State.powerSample
  try dsimp only
  with_reducible repeat' first
    | assumption | exact State.Sub.of rfl hm | apply State.fireSettle_same | apply State.setReg_same
    | apply State.drawn_same | apply State.setFire_same | intro _ _ | split | dsimp only

theorem execPowerSample_same {fs : Nat} {k : State} (hm : State.Sub 0xa020000014 fs) {s : State} {rr : State} (ht :
  execPowerSample s = .next rr) (hs : State.Same fs k s) : State.Same fs k rr := by
  refine State.Same.run (fun s hs => ?_) hs ht
  try dsimp only
  with_reducible repeat' first
    | assumption | exact State.Sub.of rfl hm | apply State.powerSample_same | intro _ _ | split | dsimp only

theorem execResetDip_same {fs : Nat} {k : State} (hm : State.Sub 0x8000000000 fs) {_sram : Bool} {s : State} {rr :
  State} (ht : execResetDip _sram s = .next rr) (hs : State.Same fs k s) : State.Same fs k rr := by
  refine State.Same.runAlways (fun s hs => ?_) hs ht
  try dsimp only
  with_reducible repeat' first
    | assumption | exact State.Sub.of rfl hm | apply State.resetDip_same | apply State.onlyIf_same | intro _ _ | split
    | dsimp only

theorem State.hintOpen_same {fs : Nat} {k : State} (hm : State.Sub 0xa020000010 fs) (s : State) (us : Nat) (hs :
  State.Same fs k s) : State.Same fs k (State.hintOpen s us) := by
  unfold State.hintOpen
  try dsimp only
  with_reducible repeat' first
    | assumption | exact State.Sub.of rfl hm | apply State.setFire_same | apply State.fireSettle_same | intro _ _ | split
    | dsimp only

theorem execPmbusErr_same {fs : Nat} {k : State} (hm : State.Sub 0xa020000010 fs) {s : State} {rr : State} (ht :
  execPmbusErr s = .next rr) (hs : State.Same fs k s) : State.Same fs k rr := by
  refine State.Same.run (fun s hs => ?_) hs ht
  try dsimp only
  with_reducible repeat' first
    | assumption | exact State.Sub.of rfl hm | apply State.raise_same | apply State.sourceMsg_same
    | apply State.setFire_same | apply State.hintOpen_same | intro _ _ | split | dsimp only

theorem execCalStale_same {fs : Nat} {k : State} (hm : State.Sub 0xa000000010 fs) {s : State} {rr : State} (ht :
  execCalStale s = .next rr) (hs : State.Same fs k s) : State.Same fs k rr := by
  refine State.Same.run (fun s hs => ?_) hs ht
  try dsimp only
  with_reducible repeat' first
    | assumption | exact State.Sub.of rfl hm | apply State.setFire_same | apply State.raise_same | apply State.onlyIf_same
    | intro _ _ | split | dsimp only

theorem execDeferralLimit_same {fs : Nat} {k : State} (hm : State.Sub 0xa020000010 fs) {s : State} {rr : State} (ht :
  execDeferralLimit s = .next rr) (hs : State.Same fs k s) : State.Same fs k rr := by
  refine State.Same.run (fun s hs => ?_) hs ht
  try dsimp only
  with_reducible repeat' first
    | assumption | exact State.Sub.of rfl hm | apply State.setFire_same | apply State.fireSettle_same
    | apply State.onlyIf_same | intro _ _ | split | dsimp only

theorem execThermalStep_same {fs : Nat} {k : State} (hm : State.Sub 0xa020000010 fs) {s : State} {rr : State} (ht :
  execThermalStep s = .next rr) (hs : State.Same fs k s) : State.Same fs k rr := by
  refine State.Same.run (fun s hs => ?_) hs ht
  try dsimp only
  with_reducible repeat' first
    | assumption | exact State.Sub.of rfl hm | apply State.thermalStep_same | intro _ _ | split | dsimp only

theorem State.moveCap_same {fs : Nat} {k : State} (hm : State.Sub 0xa020000010 fs) (s : State) (c : Cap) (d : Nat)
  (hs : State.Same fs k s) : State.Same fs k (State.moveCap s c d) := by
  unfold State.moveCap
  try dsimp only
  with_reducible repeat' first
    | assumption | exact State.Sub.of rfl hm | apply State.fireSettle_same | apply State.count_same
    | apply State.raise_same | apply State.setFire_same | intro _ _ | split | dsimp only

theorem State.floorCheck_same {fs : Nat} {k : State} (hm : State.Sub 0xa000000010 fs) (s : State) (c : Cap) (hs :
  State.Same fs k s) : State.Same fs k (State.floorCheck s c) := by
  unfold State.floorCheck
  try dsimp only
  with_reducible repeat' first
    | assumption | exact State.Sub.of rfl hm | apply State.setFire_same | apply State.raise_same | intro _ _ | split
    | dsimp only

theorem State.capEvaluate_same {fs : Nat} {k : State} (hm : State.Sub 0xa020000010 fs) (s : State) (c : Cap) (hs :
  State.Same fs k s) : State.Same fs k (State.capEvaluate s c) := by
  unfold State.capEvaluate
  try dsimp only
  with_reducible repeat' first
    | assumption | exact State.Sub.of rfl hm | apply State.setFire_same | apply State.moveCap_same | apply State.soft_same
    | apply State.floorCheck_same | intro _ _ | split | dsimp only

theorem execCapEvaluate_same {fs : Nat} {k : State} (hm : State.Sub 0xa020000010 fs) {c : Cap} {s : State} {rr :
  State} (ht : execCapEvaluate c s = .next rr) (hs : State.Same fs k s) : State.Same fs k rr := by
  refine State.Same.run (fun s hs => ?_) hs ht
  try dsimp only
  with_reducible repeat' first
    | assumption | exact State.Sub.of rfl hm | apply State.capEvaluate_same | intro _ _ | split | dsimp only

theorem execAlertN_same {fs : Nat} {k : State} (hm : State.Sub 0x8000000010 fs) {level : Bool} {s : State} {rr :
  State} (ht : execAlertN level s = .next rr) (hs : State.Same fs k s) : State.Same fs k rr := by
  refine State.Same.run (fun s hs => ?_) hs ht
  try dsimp only
  with_reducible repeat' first
    | assumption | exact State.Sub.of rfl hm | apply State.sourceMsg_same | apply State.onlyIf_same | intro _ _ | split
    | dsimp only

theorem execHintWindowEnd_same {fs : Nat} {k : State} (hm : State.Sub 0xa020000010 fs) {s : State} {rr : State} (ht :
  execHintWindowEnd s = .next rr) (hs : State.Same fs k s) : State.Same fs k rr := by
  refine State.Same.run (fun s hs => ?_) hs ht
  try dsimp only
  with_reducible repeat' first
    | assumption | exact State.Sub.of rfl hm | apply State.setFire_same | apply State.fireSettle_same | intro _ _ | split
    | dsimp only

theorem execHintAck_same {fs : Nat} {k : State} (hm : State.Sub 0xa020000010 fs) {s : State} {rr : State} (ht :
  execHintAck s = .next rr) (hs : State.Same fs k s) : State.Same fs k rr := by
  refine State.Same.run (fun s hs => ?_) hs ht
  try dsimp only
  with_reducible repeat' first
    | assumption | exact State.Sub.of rfl hm | apply State.hintOpen_same | apply State.onlyIf_same | intro _ _ | split
    | dsimp only

theorem execSupplyRecovery_same {fs : Nat} {k : State} (hm : State.Sub 0xa000000010 fs) {rail : Fin 11} {s : State}
  {rr : State} (ht : execSupplyRecovery rail s = .next rr) (hs : State.Same fs k s) : State.Same fs k rr := by
  refine State.Same.run (fun s hs => ?_) hs ht
  try dsimp only
  with_reducible repeat' first
    | assumption | exact State.Sub.of rfl hm | apply State.supplyRecovery_same | intro _ _ | split | dsimp only

theorem execSupplyWarning_same {fs : Nat} {k : State} (hm : State.Sub 0xa020000010 fs) {rail : Fin 11} {high : Bool}
  {s : State} {rr : State} (ht : execSupplyWarning rail high s = .next rr) (hs : State.Same fs k s) : State.Same fs k
  rr := by
  refine State.Same.run (fun s hs => ?_) hs ht
  try dsimp only
  with_reducible repeat' first
    | assumption | exact State.Sub.of rfl hm | apply State.supplyWarning_same | intro _ _ | split | dsimp only

theorem execTempSample_same {fs : Nat} {k : State} (hm : State.Sub 0xa000000014 fs) {t : TempSample} {s : State} {rr
  : State} (ht : execTempSample t s = .next rr) (hs : State.Same fs k s) : State.Same fs k rr := by
  refine State.Same.run (fun s hs => ?_) hs ht
  try dsimp only
  with_reducible repeat' first
    | assumption | exact State.Sub.of rfl hm | apply State.tempSample_same | intro _ _ | split | dsimp only

theorem execDroopOnset_same {fs : Nat} {k : State} (hm : State.Sub 0xa000000010 fs) {x0 : Half} {ns : Nat} {s :
  State} {rr : State} (ht : execDroopOnset x0 ns s = .next rr) (hs : State.Same fs k s) : State.Same fs k rr := by
  refine State.Same.run (fun s hs => ?_) hs ht
  try dsimp only
  with_reducible repeat' first
    | assumption | exact State.Sub.of rfl hm | apply State.droop_same | intro _ _ | split | dsimp only

/-! ### Lanes -/

theorem State.fecWrite_same {fs : Nat} {k : State} (hm : State.Sub 0x800 fs) (s : State) (old : State) (p : Nat) (hs
  : State.Same fs k s) : State.Same fs k (State.fecWrite s old p) := by
  unfold State.fecWrite
  try dsimp only
  with_reducible repeat' first
    | assumption | exact State.Sub.of rfl hm | apply State.setPort_same | intro _ _ | split | dsimp only

theorem State.localFault_same {fs : Nat} {k : State} (hm : State.Sub 0xdb1fecb858 fs) (s : State) (p : Nat) (hs :
  State.Same fs k s) : State.Same fs k (State.localFault s p) := by
  unfold State.localFault
  try dsimp only
  with_reducible repeat' first
    | assumption | exact State.Sub.of rfl hm | apply State.setPort_same | apply State.loseAlign_same | intro _ _ | split
    | dsimp only

theorem execLocalFault_same {fs : Nat} {k : State} (hm : State.Sub 0xdb1fecb858 fs) {p : Port} {s : State} {rr :
  State} (ht : execLocalFault p s = .next rr) (hs : State.Same fs k s) : State.Same fs k rr := by
  refine State.Same.run (fun s hs => ?_) hs ht
  try dsimp only
  with_reducible repeat' first
    | assumption | exact State.Sub.of rfl hm | apply State.localFault_same | apply State.onlyIf_same | intro _ _ | split
    | dsimp only

theorem State.laneConverged_same {fs : Nat} {k : State} (hm : State.Sub 0x8000000a10 fs) (s : State) (l : Nat) (m :
  LaneMeas) (hs : State.Same fs k s) : State.Same fs k (State.laneConverged s l m) := by
  unfold State.laneConverged
  try dsimp only
  with_reducible repeat' first
    | assumption | exact State.Sub.of rfl hm | apply State.laneUp_same | apply State.setLane_same
    | apply State.laneCtle_same | intro _ _ | split | dsimp only

theorem execAdaptConverged_same {fs : Nat} {k : State} (hm : State.Sub 0x8000000a10 fs) {l : Lane} {meas : LaneMeas}
  {s : State} {rr : State} (ht : execAdaptConverged l meas s = .next rr) (hs : State.Same fs k s) : State.Same fs k
  rr := by
  refine State.Same.run (fun s hs => ?_) hs ht
  try dsimp only
  with_reducible repeat' first
    | assumption | exact State.Sub.of rfl hm | apply State.laneConverged_same | intro _ _ | split | dsimp only

theorem State.pllLock_same {fs : Nat} {k : State} (hm : State.Sub 0x8000000610 fs) (s : State) (m : Nat) (x2 : Nat)
  (hs : State.Same fs k s) : State.Same fs k (State.pllLock s m x2) := by
  unfold State.pllLock
  try dsimp only
  with_reducible repeat' first
    | assumption | exact State.Sub.of rfl hm | apply State.setMacro_same | apply State.lanesWake_same | intro _ _ | split
    | dsimp only

theorem execPllLock_same {fs : Nat} {k : State} (hm : State.Sub 0x8000000610 fs) {m : Macro} {pll : Pll} {s : State}
  {rr : State} (ht : execPllLock m pll s = .next rr) (hs : State.Same fs k s) : State.Same fs k rr := by
  refine State.Same.run (fun s hs => ?_) hs ht
  try dsimp only
  with_reducible repeat' first
    | assumption | exact State.Sub.of rfl hm | apply State.pllLock_same | apply State.onlyIf_same | intro _ _ | split
    | dsimp only

theorem execRecalLiveDone_same {fs : Nat} {k : State} (hm : State.Sub 0x8000000a14 fs) {p : Port} {s : State} {rr :
  State} (ht : execRecalLiveDone p s = .next rr) (hs : State.Same fs k s) : State.Same fs k rr := by
  refine State.Same.run (fun s hs => ?_) hs ht
  try dsimp only
  with_reducible repeat' first
    | assumption | exact State.Sub.of rfl hm | apply State.liveEnd_same | apply State.raise_same | apply State.onlyIf_same
    | intro _ _ | split | dsimp only

theorem State.laneLos_same {fs : Nat} {k : State} (hm : State.Sub 0xdb1fecba5c fs) (s : State) (l : Nat) (hs :
  State.Same fs k s) : State.Same fs k (State.laneLos s l) := by
  unfold State.laneLos
  try dsimp only
  with_reducible repeat' first
    | assumption | exact State.Sub.of rfl hm | apply State.laneLost_same | apply State.count_same | apply State.raise_same
    | apply State.setLane_same | intro _ _ | split | dsimp only

theorem execLossOfSignal_same {fs : Nat} {k : State} (hm : State.Sub 0xdb1fecba5c fs) {l : Lane} {s : State} {rr :
  State} (ht : execLossOfSignal l s = .next rr) (hs : State.Same fs k s) : State.Same fs k rr := by
  refine State.Same.run (fun s hs => ?_) hs ht
  try dsimp only
  with_reducible repeat' first
    | assumption | exact State.Sub.of rfl hm | apply State.laneLos_same | intro _ _ | split | dsimp only

theorem execPllRateApply_same {fs : Nat} {k : State} (hm : State.Sub 0x400 fs) {m : Macro} {pll : Pll} {s : State}
  {rr : State} (ht : execPllRateApply m pll s = .next rr) (hs : State.Same fs k s) : State.Same fs k rr := by
  refine State.Same.run (fun s hs => ?_) hs ht
  try dsimp only
  with_reducible repeat' first
    | assumption | exact State.Sub.of rfl hm | apply State.pllApply_same | apply State.onlyIf_same | intro _ _ | split
    | dsimp only

theorem State.pllUnlock_same {fs : Nat} {k : State} (hm : State.Sub 0x8000000410 fs) (s : State) (m : Nat) (x2 : Nat)
  (hs : State.Same fs k s) : State.Same fs k (State.pllUnlock s m x2) := by
  unfold State.pllUnlock
  try dsimp only
  with_reducible repeat' first
    | assumption | exact State.Sub.of rfl hm | apply State.setMacro_same | apply State.raiseIf_same | intro _ _ | split
    | dsimp only

theorem State.fecDegrade_same {fs : Nat} {k : State} (hm : State.Sub 0xdb1fecba58 fs) (s : State) (p : Nat) (down :
  Bool) (hs : State.Same fs k s) : State.Same fs k (State.fecDegrade s p down) := by
  unfold State.fecDegrade
  try dsimp only
  with_reducible repeat' first
    | assumption | exact State.Sub.of rfl hm | apply State.localOnset_same | apply State.linkFall_same
    | apply State.lanesRevert_same | apply State.raise_same | apply State.setPort_same | intro _ _ | split | dsimp only

theorem State.fecCalm_same {fs : Nat} {k : State} (hm : State.Sub 0x800 fs) (s : State) (p : Nat) (down : Bool) (hs :
  State.Same fs k s) : State.Same fs k (State.fecCalm s p down) := by
  unfold State.fecCalm
  try dsimp only
  with_reducible repeat' first
    | assumption | exact State.Sub.of rfl hm | apply State.setPort_same | intro _ _ | split | dsimp only

theorem State.remoteOnset_same {fs : Nat} {k : State} (hm : State.Sub 0xdb1fecb858 fs) (s : State) (p : Nat) (hs :
  State.Same fs k s) : State.Same fs k (State.remoteOnset s p) := by
  unfold State.remoteOnset
  try dsimp only
  with_reducible repeat' first
    | assumption | exact State.Sub.of rfl hm | apply State.linkFall_same | apply State.count_same | apply State.raise_same
    | apply State.setPort_same | apply State.realign_same | intro _ _ | split | dsimp only

theorem execRemoteFault_same {fs : Nat} {k : State} (hm : State.Sub 0xdb1fecb858 fs) {p : Port} {s : State} {rr :
  State} (ht : execRemoteFault p s = .next rr) (hs : State.Same fs k s) : State.Same fs k rr := by
  refine State.Same.run (fun s hs => ?_) hs ht
  try dsimp only
  with_reducible repeat' first
    | assumption | exact State.Sub.of rfl hm | apply State.remoteOnset_same | apply State.onlyIf_same | intro _ _ | split
    | dsimp only

theorem State.fecBins_same {fs : Nat} {k : State} (hm : State.Sub 0x10 fs) (s : State) (p : Nat) (i : Nat) (x3 : List
  Nat) (hs : State.Same fs k s) : State.Same fs k (State.fecBins s p i x3) := by
  induction x3 generalizing s p i with
  | nil =>
    unfold State.fecBins
    try dsimp only
    with_reducible repeat' first
      | assumption | exact State.Sub.of rfl hm | apply State.count_same | intro _ _ | split | dsimp only
  | cons a l ih =>
    unfold State.fecBins
    try dsimp only
    with_reducible repeat' first
      | assumption | exact State.Sub.of rfl hm | apply ih | apply State.count_same | intro _ _ | split | dsimp only

theorem State.fecCounts_same {fs : Nat} {k : State} (hm : State.Sub 0x10 fs) (s : State) (p : Nat) (w : FecWindow)
  (hs : State.Same fs k s) : State.Same fs k (State.fecCounts s p w) := by
  unfold State.fecCounts
  try dsimp only
  with_reducible repeat' first
    | assumption | exact State.Sub.of rfl hm | apply State.fecBins_same | apply State.count64_same | intro _ _ | split
    | dsimp only

theorem State.fecWindow_same {fs : Nat} {k : State} (hm : State.Sub 0xdb1fecba58 fs) (s : State) (p : Nat) (w :
  FecWindow) (hs : State.Same fs k s) : State.Same fs k (State.fecWindow s p w) := by
  unfold State.fecWindow
  try dsimp only
  with_reducible repeat' first
    | assumption | exact State.Sub.of rfl hm | apply State.fecCalm_same | apply State.fecDegrade_same
    | apply State.fecCounts_same | apply State.realign_same | intro _ _ | split | dsimp only

theorem execFecDegrWindow_same {fs : Nat} {k : State} (hm : State.Sub 0xdb1fecba58 fs) {p : Port} {w : FecWindow} {s
  : State} {rr : State} (ht : execFecDegrWindow p w s = .next rr) (hs : State.Same fs k s) : State.Same fs k rr := by
  refine State.Same.run (fun s hs => ?_) hs ht
  try dsimp only
  with_reducible repeat' first
    | assumption | exact State.Sub.of rfl hm | apply State.fecWindow_same | apply State.onlyIf_same | intro _ _ | split
    | dsimp only

theorem State.linkRise_same {fs : Nat} {k : State} (hm : State.Sub 0x8001000810 fs) (s : State) (p : Nat) (hs :
  State.Same fs k s) : State.Same fs k (State.linkRise s p) := by
  unfold State.linkRise
  try dsimp only
  with_reducible repeat' first
    | assumption | exact State.Sub.of rfl hm | apply State.raise_same | apply State.queuesRise_same
    | apply State.setPort_same | intro _ _ | split | dsimp only

theorem State.laneUnlock_same {fs : Nat} {k : State} (hm : State.Sub 0xdb1fecba5c fs) (s : State) (l : Nat) (hs :
  State.Same fs k s) : State.Same fs k (State.laneUnlock s l) := by
  unfold State.laneUnlock
  try dsimp only
  with_reducible repeat' first
    | assumption | exact State.Sub.of rfl hm | apply State.setLane_same | apply State.raise_same
    | apply State.laneLost_same | intro _ _ | split | dsimp only

theorem State.laneLock_same {fs : Nat} {k : State} (hm : State.Sub 0x8000000a14 fs) (s : State) (l : Nat) (hs :
  State.Same fs k s) : State.Same fs k (State.laneLock s l) := by
  unfold State.laneLock
  try dsimp only
  with_reducible repeat' first
    | assumption | exact State.Sub.of rfl hm | apply State.drawn_same | apply State.setLane_same
    | apply State.laneCtle_same | apply State.laneUp_same | intro _ _ | split | dsimp only

theorem execLinkUp_same {fs : Nat} {k : State} (hm : State.Sub 0x8001000810 fs) {p : Port} {s : State} {rr : State}
  (ht : execLinkUp p s = .next rr) (hs : State.Same fs k s) : State.Same fs k rr := by
  refine State.Same.run (fun s hs => ?_) hs ht
  try dsimp only
  with_reducible repeat' first
    | assumption | exact State.Sub.of rfl hm | apply State.linkRise_same | apply State.onlyIf_same | intro _ _ | split
    | dsimp only

theorem execCdrUnlock_same {fs : Nat} {k : State} (hm : State.Sub 0xdb1fecba5c fs) {l : Lane} {s : State} {rr :
  State} (ht : execCdrUnlock l s = .next rr) (hs : State.Same fs k s) : State.Same fs k rr := by
  refine State.Same.run (fun s hs => ?_) hs ht
  try dsimp only
  with_reducible repeat' first
    | assumption | exact State.Sub.of rfl hm | apply State.laneUnlock_same | intro _ _ | split | dsimp only

theorem execSignalAndCdrLock_same {fs : Nat} {k : State} (hm : State.Sub 0x8000000a14 fs) {l : Lane} {s : State} {rr
  : State} (ht : execSignalAndCdrLock l s = .next rr) (hs : State.Same fs k s) : State.Same fs k rr := by
  refine State.Same.run (fun s hs => ?_) hs ht
  try dsimp only
  with_reducible repeat' first
    | assumption | exact State.Sub.of rfl hm | apply State.laneLock_same | intro _ _ | split | dsimp only

theorem execPllUnlock_same {fs : Nat} {k : State} (hm : State.Sub 0x8000000410 fs) {m : Macro} {pll : Pll} {s :
  State} {rr : State} (ht : execPllUnlock m pll s = .next rr) (hs : State.Same fs k s) : State.Same fs k rr := by
  refine State.Same.run (fun s hs => ?_) hs ht
  try dsimp only
  with_reducible repeat' first
    | assumption | exact State.Sub.of rfl hm | apply State.pllUnlock_same | intro _ _ | split | dsimp only

/-! ### Matrix -/

theorem State.clrDrop_same {fs : Nat} {k : State} (hm : State.Sub 0x100000000 fs) (s : State) (x1 : Nat) (hs :
  State.Same fs k s) : State.Same fs k (State.clrDrop s x1) := by
  unfold State.clrDrop
  try dsimp only
  with_reducible repeat' first
    | assumption | exact State.Sub.of rfl hm | apply State.setMatrix_same | intro _ _ | split | dsimp only

theorem State.clrHist_same {fs : Nat} {k : State} (hm : State.Sub 0x100000000 fs) (s : State) (x1 : Nat) (hs :
  State.Same fs k s) : State.Same fs k (State.clrHist s x1) := by
  unfold State.clrHist
  try dsimp only
  with_reducible repeat' first
    | assumption | exact State.Sub.of rfl hm | apply State.setMatrix_same | intro _ _ | split | dsimp only

theorem State.clrMx_same {fs : Nat} {k : State} (hm : State.Sub 0x100000010 fs) (s : State) (x1 : Nat) (hs :
  State.Same fs k s) : State.Same fs k (State.clrMx s x1) := by
  unfold State.clrMx
  try dsimp only
  with_reducible repeat' first
    | assumption | exact State.Sub.of rfl hm | apply State.setReg64_same | apply State.setMatrix_same | intro _ _ | split
    | dsimp only

theorem State.clrDone_same {fs : Nat} {k : State} (hm : State.Sub 0x8100000010 fs) (s : State) (x1 : Nat) (hs :
  State.Same fs k s) : State.Same fs k (State.clrDone s x1) := by
  unfold State.clrDone
  try dsimp only
  with_reducible repeat' first
    | assumption | exact State.Sub.of rfl hm | apply State.setMatrix_same | apply State.raise_same | intro _ _ | split
    | dsimp only

theorem execClrDone_same {fs : Nat} {k : State} (hm : State.Sub 0x8100000010 fs) {x0 : Half} {s : State} {rr : State}
  (ht : execClrDone x0 s = .next rr) (hs : State.Same fs k s) : State.Same fs k rr := by
  refine State.Same.run (fun s hs => ?_) hs ht
  try dsimp only
  with_reducible repeat' first
    | assumption | exact State.Sub.of rfl hm | apply State.clrDone_same | apply State.onlyIf_same | intro _ _ | split
    | dsimp only

/-! ### Reset -/

theorem State.rstChip_same {fs : Nat} {k : State} (hm : State.Sub 0x1bfffffffff2 fs) (s : State) (v : Word) (hs :
  State.Same fs k s) : State.Same fs k (State.rstChip s v) := by
  unfold State.rstChip
  try dsimp only
  with_reducible repeat' first
    | assumption | exact State.Sub.of rfl hm | apply State.chipReset_same | apply State.rstReject_same | intro _ _ | split
    | dsimp only

theorem State.chiprst_same {fs : Nat} {k : State} (hm : State.Sub 0x1bfffffffff2 fs) (s : State) (level : Bool) (pins
  : PinSample) (hs : State.Same fs k s) : State.Same fs k (State.chiprst s level pins) := by
  unfold State.chiprst
  try dsimp only
  with_reducible repeat' first
    | assumption | exact State.Sub.of rfl hm | apply State.strapPins_same | apply State.chipReset_same
    | apply State.straps_same | intro _ _ | split | dsimp only | refine State.Same.upd_100000000000 ?_ ?_

theorem State.porst_same {fs : Nat} {k : State} (hm : State.Sub 0x1bfffffffffa fs) (s : State) (level : Bool) (pins :
  PinSample) (hs : State.Same fs k s) : State.Same fs k (State.porst s level pins) := by
  unfold State.porst
  try dsimp only
  with_reducible repeat' first
    | assumption | exact State.Sub.of rfl hm | apply State.chipReset_same | apply State.powerReset_same
    | apply State.straps_same | intro _ _ | split | dsimp only | refine State.Same.upd_100000000000 ?_ ?_

theorem execChiprstN_same {fs : Nat} {k : State} (hm : State.Sub 0x1bfffffffff2 fs) {level : Bool} {pins : PinSample}
  {s : State} {rr : State} (ht : execChiprstN level pins s = .next rr) (hs : State.Same fs k s) : State.Same fs k rr
  := by
  refine State.Same.runAlways (fun s hs => ?_) hs ht
  try dsimp only
  with_reducible repeat' first
    | assumption | exact State.Sub.of rfl hm | apply State.chiprst_same | intro _ _ | split | dsimp only

theorem execPorstN_same {fs : Nat} {k : State} (hm : State.Sub 0x1bfffffffffa fs) {level : Bool} {pins : PinSample}
  {s : State} {rr : State} (ht : execPorstN level pins s = .next rr) (hs : State.Same fs k s) : State.Same fs k rr := by
  refine State.Same.runAlways (fun s hs => ?_) hs ht
  try dsimp only
  with_reducible repeat' first
    | assumption | exact State.Sub.of rfl hm | apply State.porst_same | intro _ _ | split | dsimp only

theorem State.wiped_same {fs : Nat} {k : State} (hm : State.Sub 0x1ffffffffffa fs) (s : State) (hs : State.Same fs k
  s) : State.Same fs k (State.wiped s) := by
  unfold State.wiped
  try dsimp only
  with_reducible repeat' first
    | assumption | exact State.Sub.of rfl hm | apply State.emit_same | apply State.chipReset_same | intro _ _ | split
    | dsimp only | refine State.Same.upd_60000000000 ?_ ?_

theorem execHalfDone_same {fs : Nat} {k : State} (hm : State.Sub 0x13d77e0a3b54 fs) {x0 : Half} {s : State} {rr :
  State} (ht : execHalfDone x0 s = .next rr) (hs : State.Same fs k s) : State.Same fs k rr := by
  refine State.Same.run (fun s hs => ?_) hs ht
  try dsimp only
  with_reducible repeat' first
    | assumption | exact State.Sub.of rfl hm | apply State.halfReady_same | intro _ _ | split | dsimp only

theorem execBlockResetDone_same {fs : Nat} {k : State} (hm : State.Sub 0x10fbfffff8dc fs) {page : Nat} {s : State}
  {rr : State} (ht : execBlockResetDone page s = .next rr) (hs : State.Same fs k s) : State.Same fs k rr := by
  refine State.Same.run (fun s hs => ?_) hs ht
  try dsimp only
  with_reducible repeat' first
    | assumption | exact State.Sub.of rfl hm | apply State.blockDone_same | intro _ _ | split | dsimp only

theorem execVddAonReset_same {fs : Nat} {k : State} (hm : State.Sub 0x1bfffffffffa fs) {pins : PinSample} {s : State}
  {rr : State} (ht : execVddAonReset pins s = .next rr) (hs : State.Same fs k s) : State.Same fs k rr := by
  refine State.Same.runAlways (fun s hs => ?_) hs ht
  try dsimp only
  with_reducible repeat' first
    | assumption | exact State.Sub.of rfl hm | apply State.powerReset_same | intro _ _ | split | dsimp only

theorem execFlumeChannelUp_same {fs : Nat} {k : State} (hm : State.Sub 0x1c000020110 fs) {s : State} {rr : State} (ht
  : execFlumeChannelUp s = .next rr) (hs : State.Same fs k s) : State.Same fs k rr := by
  refine State.Same.run (fun s hs => ?_) hs ht
  try dsimp only
  with_reducible repeat' first
    | assumption | exact State.Sub.of rfl hm | apply State.channelUp_same | apply State.onlyIf_same | intro _ _ | split
    | dsimp only

theorem execFlumeChannelDown_same {fs : Nat} {k : State} (hm : State.Sub 0xc000000110 fs) {s : State} {rr : State}
  (ht : execFlumeChannelDown s = .next rr) (hs : State.Same fs k s) : State.Same fs k rr := by
  refine State.Same.run (fun s hs => ?_) hs ht
  try dsimp only
  with_reducible repeat' first
    | assumption | exact State.Sub.of rfl hm | apply State.channelDown_same | apply State.onlyIf_same | intro _ _ | split
    | dsimp only

theorem execSliceDone_same {fs : Nat} {k : State} (hm : State.Sub 0x12931e003ad8 fs) {sl : Slice} {s : State} {rr :
  State} (ht : execSliceDone sl s = .next rr) (hs : State.Same fs k s) : State.Same fs k rr := by
  refine State.Same.run (fun s hs => ?_) hs ht
  try dsimp only
  with_reducible repeat' first
    | assumption | exact State.Sub.of rfl hm | apply State.sliceReady_same | intro _ _ | split | dsimp only

theorem execWipeDone_same {fs : Nat} {k : State} (hm : State.Sub 0x1ffffffffffa fs) {s : State} {rr : State} (ht :
  execWipeDone s = .next rr) (hs : State.Same fs k s) : State.Same fs k rr := by
  refine State.Same.runAlways (fun s hs => ?_) hs ht
  try dsimp only
  with_reducible repeat' first
    | assumption | exact State.Sub.of rfl hm | apply State.wiped_same | intro _ _ | split | dsimp only

end Sys2Proof.Machine
end

