-- ==== Sys2Proof/Laws/SameRegs.lean ====
section
/-! SUPPORT. State.Same, one lemma for each function of the state: register writes, windows, images and the retained copies. -/

namespace Sys2Proof.Machine

/-! ### WriteEffects -/

theorem State.wrSpan_same {fs : Nat} {k : State} (hm : State.Sub 0x8000000010 fs) (s : State) (sl : Nat) (o : Nat) (v
  : Word) (hs : State.Same fs k s) : State.Same fs k (State.wrSpan s sl o v) := by
  unfold State.wrSpan
  try dsimp only
  with_reducible repeat' first
    | assumption | exact State.Sub.of rfl hm | apply State.setRf_same | apply State.spanEvents_same
    | apply State.store_same | intro _ _ | split | dsimp only

theorem State.wrSched_same {fs : Nat} {k : State} (hm : State.Sub 0x1800010 fs) (s : State) (sl : Nat) (o : Nat) (v :
  Word) (hs : State.Same fs k s) : State.Same fs k (State.wrSched s sl o v) := by
  unfold State.wrSched
  try dsimp only
  with_reducible repeat' first
    | assumption | exact State.Sub.of rfl hm | apply State.setSched_same | apply State.store_same | intro _ _ | split
    | dsimp only | refine State.Same.upd_800000 ?_ ?_

theorem State.wrLanes1_same {fs : Nat} {k : State} (hm : State.Sub 0x410 fs) (s : State) (sl : Nat) (o : Nat) (v :
  Word) (hs : State.Same fs k s) : State.Same fs k (State.wrLanes1 s sl o v) := by
  unfold State.wrLanes1
  try dsimp only
  with_reducible repeat' first
    | assumption | exact State.Sub.of rfl hm | apply State.pllApply_same | apply State.store_same | intro _ _ | split
    | dsimp only

theorem State.wrLanes0_same {fs : Nat} {k : State} (hm : State.Sub 0xdb1fecba5c fs) (s : State) (sl : Nat) (o : Nat)
  (v : Word) (hs : State.Same fs k s) : State.Same fs k (State.wrLanes0 s sl o v) := by
  unfold State.wrLanes0
  try dsimp only
  with_reducible repeat' first
    | assumption | exact State.Sub.of rfl hm | apply State.raiseIf_same | apply State.setPort_same
    | apply State.linkFall_same | apply State.laneCtle_same | apply State.store_same | apply State.laneDrift_same
    | intro _ _ | split | dsimp only

theorem State.wrMacpcs_same {fs : Nat} {k : State} (hm : State.Sub 0x2db1fecbe5c fs) (s : State) (sl : Nat) (o : Nat)
  (v : Word) (hs : State.Same fs k s) : State.Same fs k (State.wrMacpcs s sl o v) := by
  unfold State.wrMacpcs
  try dsimp only
  with_reducible repeat' first
    | assumption | exact State.Sub.of rfl hm | apply State.store_same | apply State.fecWrite_same
    | apply State.portCtrlWrite_same | apply State.setPort_same | apply State.setReg_same | intro _ _ | split | dsimp only

theorem State.wrKerf_same {fs : Nat} {k : State} (hm : State.Sub 0x8000000010 fs) (s : State) (p : Nat) (o : Nat) (v
  : Word) (hs : State.Same fs k s) : State.Same fs k (State.wrKerf s p o v) := by
  unfold State.wrKerf
  try dsimp only
  with_reducible repeat' first
    | assumption | exact State.Sub.of rfl hm | apply State.store_same | apply State.raise_same | intro _ _ | split
    | dsimp only

theorem State.wrParser_same {fs : Nat} {k : State} (hm : State.Sub 0xc800008018 fs) (s : State) (sl : Nat) (o : Nat)
  (v : Word) (hs : State.Same fs k s) : State.Same fs k (State.wrParser s sl o v) := by
  unfold State.wrParser
  try dsimp only
  with_reducible repeat' first
    | assumption | exact State.Sub.of rfl hm | apply State.nbrDown_same | apply State.store_same
    | apply State.setSlice_same | intro _ _ | split | dsimp only

theorem State.wrHbm_same {fs : Nat} {k : State} (hm : State.Sub 0x9400000010 fs) (s : State) (x1 : Nat) (o : Nat) (v
  : Word) (hs : State.Same fs k s) : State.Same fs k (State.wrHbm s x1 o v) := by
  unfold State.wrHbm
  try dsimp only
  with_reducible repeat' first
    | assumption | exact State.Sub.of rfl hm | apply State.store_same | apply State.retrain_same | apply State.setReg_same
    | intro _ _ | split | dsimp only

theorem State.wrMatrix_same {fs : Nat} {k : State} (hm : State.Sub 0x100000010 fs) (s : State) (x1 : Nat) (o : Nat)
  (v : Word) (hs : State.Same fs k s) : State.Same fs k (State.wrMatrix s x1 o v) := by
  unfold State.wrMatrix
  try dsimp only
  with_reducible repeat' first
    | assumption | exact State.Sub.of rfl hm | apply State.store_same | apply State.clrDrop_same | apply State.clrHist_same
    | apply State.clrMx_same | intro _ _ | split | dsimp only

theorem State.wrTally_same {fs : Nat} {k : State} (hm : State.Sub 0x8a00000010 fs) (s : State) (x1 : Nat) (o : Nat)
  (v : Word) (hs : State.Same fs k s) : State.Same fs k (State.wrTally s x1 o v) := by
  unfold State.wrTally
  try dsimp only
  with_reducible repeat' first
    | assumption | exact State.Sub.of rfl hm | apply State.setTally_same | apply State.store_same
    | apply State.clearTally_same | apply State.exportAll_same | apply State.flush_same | apply State.setReg_same
    | intro _ _ | split | dsimp only

theorem State.wrMaint_same {fs : Nat} {k : State} (hm : State.Sub 0x8860000058 fs) (s : State) (x1 : Nat) (o : Nat)
  (v : Word) (hs : State.Same fs k s) : State.Same fs k (State.wrMaint s x1 o v) := by
  unfold State.wrMaint
  try dsimp only
  with_reducible repeat' first
    | assumption | exact State.Sub.of rfl hm | apply State.store_same | apply State.seqResume_same
    | apply State.seqAbandon_same | apply State.setReg_same | intro _ _ | split | dsimp only

theorem State.wrWllpm_same {fs : Nat} {k : State} (hm : State.Sub 0x8000000010 fs) (s : State) (x1 : Nat) (o : Nat)
  (v : Word) (hs : State.Same fs k s) : State.Same fs k (State.wrWllpm s x1 o v) := by
  unfold State.wrWllpm
  try dsimp only
  with_reducible repeat' first
    | assumption | exact State.Sub.of rfl hm | apply State.store_same | apply State.setReg_same | apply State.raise_same
    | intro _ _ | split | dsimp only

theorem State.wrWlem_same {fs : Nat} {k : State} (hm : State.Sub 0x8020000010 fs) (s : State) (x1 : Nat) (o : Nat) (v
  : Word) (hs : State.Same fs k s) : State.Same fs k (State.wrWlem s x1 o v) := by
  unfold State.wrWlem
  try dsimp only
  with_reducible repeat' first
    | assumption | exact State.Sub.of rfl hm | apply State.store_same | apply State.boostSettle_same
    | apply State.migWrite_same | apply State.setReg_same | intro _ _ | split | dsimp only

theorem State.setSel_same {fs : Nat} {k : State} (hm : State.Sub 0x80 fs) (s : State) (r : Requester) (p : Nat) (o :
  Nat) (x : Nat) (hs : State.Same fs k s) : State.Same fs k (State.setSel s r p o x) := by
  unfold State.setSel
  try dsimp only
  with_reducible repeat' first
    | assumption | exact State.Sub.of rfl hm | intro _ _ | split | dsimp only | refine State.Same.upd_80 ?_ ?_

theorem State.wrAdmit_same {fs : Nat} {k : State} (hm : State.Sub 0x80021020b0 fs) (s : State) (r : Requester) (x2 :
  Nat) (o : Nat) (v : Word) (hs : State.Same fs k s) : State.Same fs k (State.wrAdmit s r x2 o v) := by
  have hstore := State.store_same (State.Sub.of rfl hm) s (pgAdmit x2) o v hs
  have hsel := fun p o x => State.setSel_same (State.Sub.of rfl hm) s r p o x hs
  have hsreg := fun d n x => State.setSreg_same (State.Sub.of rfl hm) s d n x hs
  unfold State.wrAdmit
  exact .ite (hsel _ _ _) <| .ite (hsel _ _ _) <| .ite (hsel _ _ _) <| .ite (hsreg _ _ _) <| .ite (hsreg _ _ _) <|
    .ite (hsreg _ _ _) <| .ite (hsreg _ _ _) <| .ite (hsreg _ _ _) <|
    .ite (.ite (State.startDrain_same (State.Sub.of rfl hm) _ _ hs) hs) <|
    .ite (State.pfcSlice_same (State.Sub.of rfl hm) _ _ hstore) <|
    .ite (State.pfcEvalAll_same (State.Sub.of rfl hm) _ _ _ hstore) hstore

theorem State.wrDeck_same {fs : Nat} {k : State} (hm : State.Sub 0x8002080090 fs) (s : State) (r : Requester) (x2 :
  Nat) (o : Nat) (v : Word) (hs : State.Same fs k s) : State.Same fs k (State.wrDeck s r x2 o v) := by
  unfold State.wrDeck
  try dsimp only
  with_reducible repeat' first
    | assumption | exact State.Sub.of rfl hm | apply State.pfcEvals_same | apply State.relevel_same
    | apply State.setDeck_same | apply State.store_same | apply State.setSel_same | apply State.freeCell_same
    | apply State.poolAlloc_same | intro _ _ | split | dsimp only

theorem State.wrHalf_same {fs : Nat} {k : State} (hm : State.Sub 0x40000200b0 fs) (s : State) (r : Requester) (x2 :
  Nat) (o : Nat) (v : Word) (hs : State.Same fs k s) : State.Same fs k (State.wrHalf s r x2 o v) := by
  unfold State.wrHalf
  try dsimp only
  with_reducible repeat' first
    | assumption | exact State.Sub.of rfl hm | apply State.setSreg_same | apply State.setSel_same
    | apply State.peerHolds_same | apply State.store_same | apply State.raftPend_same | apply State.raftCtrlWrite_same
    | intro _ _ | split | dsimp only

theorem State.wrLifecycle_same {fs : Nat} {k : State} (hm : State.Sub 0x10000000010 fs) (s : State) (o : Nat) (v :
  Word) (hs : State.Same fs k s) : State.Same fs k (State.wrLifecycle s o v) := by
  unfold State.wrLifecycle
  try dsimp only
  with_reducible repeat' first
    | assumption | exact State.Sub.of rfl hm | apply State.extend_same | apply State.store_same | intro _ _ | split
    | dsimp only

theorem State.wrTime_same {fs : Nat} {k : State} (hm : State.Sub 0x9000000012 fs) (s : State) (o : Nat) (v : Word)
  (hs : State.Same fs k s) : State.Same fs k (State.wrTime s o v) := by
  unfold State.wrTime
  try dsimp only
  with_reducible repeat' first
    | assumption | exact State.Sub.of rfl hm | apply State.store_same | apply State.timeStep_same
    | apply State.timeSet_same | intro _ _ | split | dsimp only

theorem State.wrHostdma_same {fs : Nat} {k : State} (hm : State.Sub 0x8b120c2010 fs) (s : State) (p : Nat) (o : Nat)
  (v : Word) (hs : State.Same fs k s) : State.Same fs k (State.wrHostdma s p o v) := by
  unfold State.wrHostdma
  try dsimp only
  with_reducible repeat' first
    | assumption | exact State.Sub.of rfl hm | apply State.setHq_same | apply State.store_same
    | apply State.hqCtrlWrite_same | apply State.doorbell_same | intro _ _ | split | dsimp only

theorem State.wrReset_same {fs : Nat} {k : State} (hm : State.Sub 0x1bfffffffffe fs) (s : State) (o : Nat) (v : Word)
  (hs : State.Same fs k s) : State.Same fs k (State.wrReset s o v) := by
  unfold State.wrReset
  try dsimp only
  with_reducible repeat' first
    | assumption | exact State.Sub.of rfl hm | apply State.store_same | apply State.rstSlice_same
    | apply State.rstHalf_same | apply State.rstChip_same | intro _ _ | split | dsimp only

theorem State.mbGo_same {fs : Nat} {k : State} (hm : State.Sub 0x10000000010 fs) (s : State) (hs : State.Same fs k s)
  : State.Same fs k (State.mbGo s) := by
  unfold State.mbGo
  try dsimp only
  with_reducible repeat' first
    | assumption | exact State.Sub.of rfl hm | apply State.count_same | intro _ _ | split | dsimp only
    | refine State.Same.upd_10000000000 ?_ ?_

theorem State.wrForester_same {fs : Nat} {k : State} (hm : State.Sub 0x10000000010 fs) (s : State) (o : Nat) (v :
  Word) (hs : State.Same fs k s) : State.Same fs k (State.wrForester s o v) := by
  unfold State.wrForester
  try dsimp only
  with_reducible repeat' first
    | assumption | exact State.Sub.of rfl hm | apply State.store_same | apply State.mbGo_same | intro _ _ | split
    | dsimp only

theorem State.wrFirebreak_same {fs : Nat} {k : State} (hm : State.Sub 0xa020000010 fs) (s : State) (o : Nat) (v :
  Word) (hs : State.Same fs k s) : State.Same fs k (State.wrFirebreak s o v) := by
  unfold State.wrFirebreak
  try dsimp only
  with_reducible repeat' first
    | assumption | exact State.Sub.of rfl hm | apply State.store_same | apply State.hintWrite_same
    | apply State.fbCalWrite_same | apply State.fixedWrite_same | apply State.setReg_same | apply State.fireSettle_same
    | intro _ _ | split | dsimp only

theorem State.wrLookout_same {fs : Nat} {k : State} (hm : State.Sub 0x8000000018 fs) (s : State) (o : Nat) (v : Word)
  (hs : State.Same fs k s) : State.Same fs k (State.wrLookout s o v) := by
  unfold State.wrLookout
  try dsimp only
  with_reducible repeat' first
    | assumption | exact State.Sub.of rfl hm | apply State.store_same | apply State.loClr_same
    | apply State.pinRelease_same | intro _ _ | split | dsimp only

theorem State.wrCruiser_same {fs : Nat} {k : State} (hm : State.Sub 0x9000000090 fs) (s : State) (r : Requester) (o :
  Nat) (v : Word) (hs : State.Same fs k s) : State.Same fs k (State.wrCruiser s r o v) := by
  unfold State.wrCruiser
  try dsimp only
  with_reducible repeat' first
    | assumption | exact State.Sub.of rfl hm | apply State.store_same | apply State.setSel_same
    | apply State.crBwWrite_same | apply State.crCtrlWrite_same | intro _ _ | split | dsimp only

theorem State.wrRing_same {fs : Nat} {k : State} (hm : State.Sub 0x8000020090 fs) (s : State) (r : Requester) (o :
  Nat) (v : Word) (hs : State.Same fs k s) : State.Same fs k (State.wrRing s r o v) := by
  unfold State.wrRing
  try dsimp only
  with_reducible repeat' first
    | assumption | exact State.Sub.of rfl hm | apply State.store_same | apply State.maxAgeWrite_same
    | apply State.ringCtrlWrite_same | intro _ _ | split | dsimp only

theorem State.wrOrder_same {fs : Nat} {k : State} (hm : State.Sub 0x90 fs) (s : State) (r : Requester) (o : Nat) (v :
  Word) (hs : State.Same fs k s) : State.Same fs k (State.wrOrder s r o v) := by
  unfold State.wrOrder
  try dsimp only
  with_reducible repeat' first
    | assumption | exact State.Sub.of rfl hm | apply State.store_same | apply State.startFence_same | intro _ _ | split
    | dsimp only

theorem State.writeBlock_same {fs : Nat} {k : State} (hm : State.Sub 0x1bfffffffffe fs) (s : State) (r : Requester)
  (p : Nat) (o : Nat) (v : Word) (hs : State.Same fs k s) : State.Same fs k (State.writeBlock s r p o v) := by
  unfold State.writeBlock
  try dsimp only
  with_reducible repeat' first
    | assumption | exact State.Sub.of rfl hm | apply State.store_same | apply State.wrSched_same
    | apply State.wrLanes1_same | apply State.wrLanes0_same | apply State.wrSpan_same | apply State.wrMacpcs_same
    | apply State.wrKerf_same | apply State.wrParser_same | apply State.wrHbm_same | apply State.wrMatrix_same
    | apply State.wrTally_same | apply State.wrMaint_same | apply State.wrWllpm_same | apply State.wrWlem_same
    | apply State.wrAdmit_same | apply State.wrDeck_same | apply State.wrHalf_same | apply State.wrLifecycle_same
    | apply State.wrTime_same | apply State.wrHostdma_same | apply State.wrReset_same | apply State.wrForester_same
    | apply State.wrFirebreak_same | apply State.wrLookout_same | apply State.wrCruiser_same | apply State.wrRing_same
    | apply State.wrOrder_same | intro _ _ | split | dsimp only

theorem State.evtClear_same {fs : Nat} {k : State} (hm : State.Sub 0x8000000010 fs) (s : State) (p : Nat) (v : Word)
  (hs : State.Same fs k s) : State.Same fs k (State.evtClear s p v) := by
  unfold State.evtClear
  try dsimp only
  with_reducible repeat' first
    | assumption | exact State.Sub.of rfl hm | apply State.raise_same | apply State.setEvtRegs_same | intro _ _ | split
    | dsimp only

theorem State.enableSettle_same {fs : Nat} {k : State} (hm : State.Sub 0x8860000058 fs) (s : State) (p : Nat) (hs :
  State.Same fs k s) : State.Same fs k (State.enableSettle s p) := by
  unfold State.enableSettle
  try dsimp only
  with_reducible repeat' first
    | assumption | exact State.Sub.of rfl hm | apply State.fgEnable_same | intro _ _ | split | dsimp only

theorem State.writeHeader_same {fs : Nat} {k : State} (hm : State.Sub 0x10dbfffdf8dc fs) (s : State) (p : Nat) (o :
  Nat) (v : Word) (hs : State.Same fs k s) : State.Same fs k (State.writeHeader s p o v) := by
  unfold State.writeHeader
  try dsimp only
  with_reducible repeat' first
    | assumption | exact State.Sub.of rfl hm | apply State.store_same | apply State.setEvtRegs_same
    | apply State.evtClear_same | apply State.blockStart_same | apply State.setReg_same | apply State.enableSettle_same
    | intro _ _ | split | dsimp only

theorem State.writeReg_same {fs : Nat} {k : State} (hm : State.Sub 0x1bfffffffffe fs) (s : State) (r : Requester) (p
  : Nat) (o : Nat) (v : Word) (hs : State.Same fs k s) : State.Same fs k (State.writeReg s r p o v) := by
  unfold State.writeReg
  try dsimp only
  with_reducible repeat' first
    | assumption | exact State.Sub.of rfl hm | apply State.writeBlock_same | apply State.writeHeader_same | intro _ _
    | split | dsimp only

theorem State.writeWide_same {fs : Nat} {k : State} (hm : State.Sub 0x1000000010 fs) (s : State) (r : Requester) (p :
  Nat) (o : Nat) (x : Nat) (hs : State.Same fs k s) : State.Same fs k (State.writeWide s r p o x) := by
  unfold State.writeWide
  try dsimp only
  with_reducible repeat' first
    | assumption | exact State.Sub.of rfl hm | apply State.setReg64_same | apply State.setRf_same | apply State.tdLoad_same
    | intro _ _ | split | dsimp only

theorem State.writeAt_same {fs : Nat} {k : State} (hm : State.Sub 0x1bfffffffffe fs) (s : State) (r : Requester) (p :
  Nat) (o : Nat) (v : Word) (hs : State.Same fs k s) : State.Same fs k (State.writeAt s r p o v) := by
  unfold State.writeAt
  try dsimp only
  with_reducible repeat' first
    | assumption | exact State.Sub.of rfl hm | apply State.writeReg_same | apply State.writeWide_same | intro _ _ | split
    | dsimp only | refine State.Same.upd_80 ?_ ?_

/-! ### Window -/

theorem State.settleMeters_same {fs : Nat} {k : State} (hm : State.Sub 0x4000000 fs) (s : State) (p : Nat) (x2 : List
  Nat) (hs : State.Same fs k s) : State.Same fs k (State.settleMeters s p x2) := by
  induction x2 generalizing s p with
  | nil =>
    unfold State.settleMeters
    try dsimp only
    with_reducible repeat' first
      | assumption | exact State.Sub.of rfl hm | apply State.setMeter_same | intro _ _ | split | dsimp only
  | cons a l ih =>
    unfold State.settleMeters
    try dsimp only
    with_reducible repeat' first
      | assumption | exact State.Sub.of rfl hm | apply ih | apply State.setMeter_same | intro _ _ | split | dsimp only

theorem State.storeWord_same {fs : Nat} {k : State} (hm : State.Sub 0x8200000050 fs) (s : State) (x1 : Nat) (a : Nat)
  (v : Word) (hs : State.Same fs k s) : State.Same fs k (State.storeWord s x1 a v) := by
  unfold State.storeWord
  try dsimp only
  with_reducible repeat' first
    | assumption | exact State.Sub.of rfl hm | apply State.setMemWs_same | apply State.setRec_same | intro _ _ | split
    | dsimp only

theorem State.winPutWord_same {fs : Nat} {k : State} (hm : State.Sub 0x8300000250 fs) (s : State) (p : Nat) (sel :
  Nat) (a : Nat) (v : Word) (hs : State.Same fs k s) : State.Same fs k (State.winPutWord s p sel a v) := by
  unfold State.winPutWord
  try dsimp only
  with_reducible repeat' first
    | assumption | exact State.Sub.of rfl hm | apply State.setLane_same | apply State.storeWord_same
    | apply State.setMatrix_same | apply State.setMemW_same | intro _ _ | split | dsimp only

theorem State.winPutWords_same {fs : Nat} {k : State} (hm : State.Sub 0x8300000250 fs) (s : State) (p : Nat) (sel :
  Nat) (x3 : Nat) (x4 : List Word) (hs : State.Same fs k s) : State.Same fs k (State.winPutWords s p sel x3 x4) := by
  induction x4 generalizing s p sel x3 with
  | nil =>
    unfold State.winPutWords
    try dsimp only
    with_reducible repeat' first
      | assumption | exact State.Sub.of rfl hm | apply State.winPutWord_same | intro _ _ | split | dsimp only
  | cons a l ih =>
    unfold State.winPutWords
    try dsimp only
    with_reducible repeat' first
      | assumption | exact State.Sub.of rfl hm | apply ih | apply State.winPutWord_same | intro _ _ | split | dsimp only

theorem State.fillMeters_same {fs : Nat} {k : State} (hm : State.Sub 0x4000000 fs) (s : State) (p : Nat) (x2 : Nat)
  (x3 : List Word) (hs : State.Same fs k s) : State.Same fs k (State.fillMeters s p x2 x3) := by
  induction x3 generalizing s p x2 with
  | nil =>
    unfold State.fillMeters
    try dsimp only
    with_reducible repeat' first
      | assumption | exact State.Sub.of rfl hm | apply State.setMeter_same | intro _ _ | split | dsimp only
  | cons a l ih =>
    unfold State.fillMeters
    try dsimp only
    with_reducible repeat' first
      | assumption | exact State.Sub.of rfl hm | apply ih | apply State.setMeter_same | intro _ _ | split | dsimp only

theorem State.putStaged_same {fs : Nat} {k : State} (hm : State.Sub 0x40 fs) (s : State) (p : Nat) (e : Nat) (x3 :
  List (Nat × Option Word)) (hs : State.Same fs k s) : State.Same fs k (State.putStaged s p e x3) := by
  induction x3 generalizing s p e with
  | nil =>
    unfold State.putStaged
    try dsimp only
    with_reducible repeat' first
      | assumption | exact State.Sub.of rfl hm | apply State.setMemW_same | intro _ _ | split | dsimp only
  | cons a l ih =>
    unfold State.putStaged
    try dsimp only
    with_reducible repeat' first
      | assumption | exact State.Sub.of rfl hm | apply ih | apply State.setMemW_same | intro _ _ | split | dsimp only

theorem State.tcWritePart_same {fs : Nat} {k : State} (hm : State.Sub 0x8040 fs) (s : State) (sl : Nat) (e : Nat)
  (part : List (Nat × Word)) (hs : State.Same fs k s) : State.Same fs k (State.tcWritePart s sl e part) := by
  unfold State.tcWritePart
  try dsimp only
  with_reducible repeat' first
    | assumption | exact State.Sub.of rfl hm | apply State.putStaged_same | apply State.setMemW_same
    | apply State.setSlice_same | intro _ _ | split | dsimp only

theorem State.tcWriteWords_same {fs : Nat} {k : State} (hm : State.Sub 0x8040 fs) (s : State) (sl : Nat) (a : Nat)
  (data : List Word) (hs : State.Same fs k s) : State.Same fs k (State.tcWriteWords s sl a data) := by
  unfold State.tcWriteWords
  try dsimp only
  with_reducible repeat' first
    | assumption | exact State.Sub.of rfl hm | apply State.tcWritePart_same | intro _ _ | split | dsimp only

theorem State.winStore_same {fs : Nat} {k : State} (hm : State.Sub 0x8304008250 fs) (s : State) (p : Nat) (sel : Nat)
  (a : Nat) (data : List Word) (hs : State.Same fs k s) : State.Same fs k (State.winStore s p sel a data) := by
  unfold State.winStore
  try dsimp only
  with_reducible repeat' first
    | assumption | exact State.Sub.of rfl hm | apply State.settleMeters_same | apply State.winPutWords_same
    | apply State.fillMeters_same | apply State.setMicro_same | apply State.setRf_same | apply State.tcWriteWords_same
    | intro _ _ | split | dsimp only

theorem State.winWriteRun_same {fs : Nat} {k : State} (hm : State.Sub 0x18304008250 fs) (s : State) (r : Requester)
  (p : Nat) (sel : Nat) (a : Nat) (data : List Word) (hs : State.Same fs k s) : State.Same fs k (State.winWriteRun s
  r p sel a data) := by
  unfold State.winWriteRun
  try dsimp only
  with_reducible repeat' first
    | assumption | exact State.Sub.of rfl hm | apply State.winStore_same | apply State.extend_same | intro _ _ | split
    | dsimp only

theorem State.winEccPulse_same {fs : Nat} {k : State} (hm : State.Sub 0x8000000010 fs) (s : State) (p : Nat) (sel :
  Nat) (hs : State.Same fs k s) : State.Same fs k (State.winEccPulse s p sel) := by
  unfold State.winEccPulse
  try dsimp only
  with_reducible repeat' first
    | assumption | exact State.Sub.of rfl hm | apply State.send_same | intro _ _ | split | dsimp only

theorem State.winWoodEcc_same {fs : Nat} {k : State} (hm : State.Sub 0x8020000050 fs) (s : State) (x1 : Nat) (sel :
  Nat) (a : Nat) (lpm : Bool) (hs : State.Same fs k s) : State.Same fs k (State.winWoodEcc s x1 sel a lpm) := by
  unfold State.winWoodEcc
  try dsimp only
  with_reducible repeat' first
    | assumption | exact State.Sub.of rfl hm | apply State.count_same | apply State.raise_same | apply State.woodEcc_same
    | intro _ _ | split | dsimp only

theorem State.winEccReport_same {fs : Nat} {k : State} (hm : State.Sub 0x8020000050 fs) (s : State) (p : Nat) (sel :
  Nat) (a : Nat) (hs : State.Same fs k s) : State.Same fs k (State.winEccReport s p sel a) := by
  unfold State.winEccReport
  try dsimp only
  with_reducible repeat' first
    | assumption | exact State.Sub.of rfl hm | apply State.winEccPulse_same | apply State.tcFault_same
    | apply State.hbmUncorr_same | apply State.winWoodEcc_same | apply State.count_same | apply State.raise_same
    | intro _ _ | split | dsimp only

theorem State.setWinData_same {fs : Nat} {k : State} (hm : State.Sub 0x10 fs) (s : State) (p : Nat) (x2 : Nat) (x3 :
  List Word) (hs : State.Same fs k s) : State.Same fs k (State.setWinData s p x2 x3) := by
  induction x3 generalizing s p x2 with
  | nil =>
    unfold State.setWinData
    try dsimp only
    with_reducible repeat' first
      | assumption | exact State.Sub.of rfl hm | apply State.setReg_same | intro _ _ | split | dsimp only
  | cons a l ih =>
    unfold State.setWinData
    try dsimp only
    with_reducible repeat' first
      | assumption | exact State.Sub.of rfl hm | apply ih | apply State.setReg_same | intro _ _ | split | dsimp only

theorem State.winRun_same {fs : Nat} {k : State} (hm : State.Sub 0x18324008254 fs) (s : State) (r : Requester) (p :
  Nat) (op : Nat) (n : Nat) (sel : Nat) (a : Nat) (data : List Word) (ecc : Bool) (hs : State.Same fs k s) :
  State.Same fs k (State.winRun s r p op n sel a data ecc).1 := by
  unfold State.winRun
  try dsimp only
  with_reducible repeat' first
    | assumption | exact State.Sub.of rfl hm | apply State.winWriteRun_same | apply State.winEccReport_same
    | apply State.setWinData_same | apply State.lanesDrift_same | intro _ _ | split | dsimp only

theorem State.winRun_same_eq {fs : Nat} {k : State} (hm : State.Sub 0x18324008254 fs) {s : State} {r : Requester} {p
  : Nat} {op : Nat} {n : Nat} {sel : Nat} {a : Nat} {data : List Word} {ecc : Bool} {ra rb} (ht : State.winRun s r p
  op n sel a data ecc = (ra, rb)) (hs : State.Same fs k s) : State.Same fs k ra := by
  have := State.winRun_same (k := k) hm s r p op n sel a data ecc hs
  rw [ht] at this
  exact this

theorem State.winChecked_same {fs : Nat} {k : State} (hm : State.Sub 0x18324008254 fs) (s : State) (r : Requester) (p
  : Nat) (op : Nat) (n : Nat) (sel : Nat) (a : Nat) (data : List Word) (ecc : Bool) (epoch : Nat) (hs : State.Same fs
  k s) : State.Same fs k (State.winChecked s r p op n sel a data ecc epoch).1 := by
  unfold State.winChecked
  try dsimp only
  with_reducible repeat' first
    | assumption | exact State.Sub.of rfl hm | apply State.winRun_same | refine State.winRun_same_eq ?_ (by assumption) ?_
    | apply State.fenced_same | intro _ _ | split | dsimp only

theorem State.winChecked_same_eq {fs : Nat} {k : State} (hm : State.Sub 0x18324008254 fs) {s : State} {r : Requester}
  {p : Nat} {op : Nat} {n : Nat} {sel : Nat} {a : Nat} {data : List Word} {ecc : Bool} {epoch : Nat} {ra rb} (ht :
  State.winChecked s r p op n sel a data ecc epoch = (ra, rb)) (hs : State.Same fs k s) : State.Same fs k ra := by
  have := State.winChecked_same (k := k) hm s r p op n sel a data ecc epoch hs
  rw [ht] at this
  exact this

theorem State.winDone_same {fs : Nat} {k : State} (hm : State.Sub 0x183240082d4 fs) (s : State) (p : Nat) (ecc :
  Bool) (hs : State.Same fs k s) : State.Same fs k (State.winDone s p ecc) := by
  unfold State.winDone
  try dsimp only
  with_reducible repeat' first
    | assumption | exact State.Sub.of rfl hm | apply State.setReg_same | apply State.winChecked_same
    | refine State.winChecked_same_eq ?_ (by assumption) ?_ | intro _ _ | split | dsimp only
    | refine State.Same.upd_80 ?_ ?_

/-! ### Bus -/

theorem State.performWrite_same {fs : Nat} {k : State} (hm : State.Sub 0x1bfffffffffe fs) (s : State) (a : Access)
  (hs : State.Same fs k s) : State.Same fs k (State.performWrite s a) := by
  unfold State.performWrite
  try dsimp only
  with_reducible repeat' first
    | assumption | exact State.Sub.of rfl hm | apply State.writeAt_same | apply State.busError_same | intro _ _ | split
    | dsimp only

theorem State.tryPost_same {fs : Nat} {k : State} (hm : State.Sub 0x8000000010 fs) (s : State) (a : Access) (f :
  State → State) (hs : State.Same fs k s) (hf : ∀ s, State.Same fs k s → State.Same fs k (f s)) : State.Same fs k
  (State.tryPost s a f) := by
  unfold State.tryPost
  try dsimp only
  with_reducible repeat' first
    | assumption | apply hf | exact State.Sub.of rfl hm | apply State.busError_same | intro _ _ | split | dsimp only

theorem State.lostWrite_same {fs : Nat} {k : State} (hm : State.Sub 0x8000000010 fs) (s : State) (a : Access) (hs :
  State.Same fs k s) : State.Same fs k (State.lostWrite s a) := by
  unfold State.lostWrite
  try dsimp only
  with_reducible repeat' first
    | assumption | exact State.Sub.of rfl hm | apply State.raise_same | apply State.busError_same | intro _ _ | split
    | dsimp only

theorem State.postWrite_same {fs : Nat} {k : State} (hm : State.Sub 0x8000000090 fs) (s : State) (a : Access) (epoch
  : Nat) (hs : State.Same fs k s) : State.Same fs k (State.postWrite s a epoch) := by
  unfold State.postWrite
  try dsimp only
  with_reducible repeat' first
    | assumption | exact State.Sub.of rfl hm | apply State.setReg_same | apply State.lostWrite_same | intro _ _ | split
    | dsimp only | refine State.Same.upd_80 ?_ ?_

theorem State.tryWrite_same {fs : Nat} {k : State} (hm : State.Sub 0x18000000010 fs) (s : State) (a : Access) (epoch
  : Nat) (f : State → State) (hs : State.Same fs k s) (hf : ∀ s, State.Same fs k s → State.Same fs k (f s)) :
  State.Same fs k (State.tryWrite s a epoch f) := by
  unfold State.tryWrite
  try dsimp only
  with_reducible repeat' first
    | assumption | apply hf | exact State.Sub.of rfl hm | apply State.busError_same | apply State.fenced_same | intro _ _
    | split | dsimp only

theorem State.takeWrite_same {fs : Nat} {k : State} (hm : State.Sub 0x1bfffffffffe fs) (s : State) (a : Access)
  (epoch : Nat) (hs : State.Same fs k s) : State.Same fs k (State.takeWrite s a epoch) := by
  unfold State.takeWrite
  try dsimp only
  with_reducible repeat' first
    | assumption | exact State.Sub.of rfl hm | apply State.tryPost_same | apply State.postWrite_same
    | apply State.performWrite_same | apply State.tryWrite_same | apply State.busError_same | apply State.bar2Write_same
    | intro _ _ | split | dsimp only

theorem State.answerRead_same {fs : Nat} {k : State} (hm : State.Sub 0x88 fs) (s : State) (a : Access) (hs :
  State.Same fs k s) : State.Same fs k (State.answerRead s a) := by
  unfold State.answerRead
  try dsimp only
  with_reducible repeat' first
    | assumption | exact State.Sub.of rfl hm | apply State.emit_same | apply State.setSel_same | intro _ _ | split
    | dsimp only | refine State.Same.upd_80 ?_ ?_

theorem State.hold_same {fs : Nat} {k : State} (hm : State.Sub 0x80 fs) (s : State) (x : Held) (hs : State.Same fs k
  s) : State.Same fs k (State.hold s x) := by
  unfold State.hold
  try dsimp only
  with_reducible repeat' first
    | assumption | exact State.Sub.of rfl hm | intro _ _ | split | dsimp only | refine State.Same.upd_80 ?_ ?_

theorem State.takeRead_same {fs : Nat} {k : State} (hm : State.Sub 0x8000000098 fs) (s : State) (a : Access) (hs :
  State.Same fs k s) : State.Same fs k (State.takeRead s a) := by
  unfold State.takeRead
  try dsimp only
  with_reducible repeat' first
    | assumption | exact State.Sub.of rfl hm | apply State.answerRead_same | apply State.hold_same
    | apply State.busError_same | apply State.emit_same | apply State.bar2Read_same | intro _ _ | split | dsimp only

theorem State.access_same {fs : Nat} {k : State} (hm : State.Sub 0x1bfffffffffe fs) (s : State) (write : Bool) (a :
  Access) (epoch : Nat) (hs : State.Same fs k s) : State.Same fs k (State.access s write a epoch) := by
  unfold State.access
  try dsimp only
  with_reducible repeat' first
    | assumption | exact State.Sub.of rfl hm | apply State.takeRead_same | apply State.startFence_same
    | apply State.takeWrite_same | apply State.hold_same | intro _ _ | split | dsimp only

theorem State.issueWith_same {fs : Nat} {k : State} (hm : State.Sub 0x1bfffffffffe fs) (s : State) (write : Bool) (a
  : Access) (epoch : Nat) (hs : State.Same fs k s) : State.Same fs k (State.issueWith s write a epoch) := by
  unfold State.issueWith
  try dsimp only
  with_reducible repeat' first
    | assumption | exact State.Sub.of rfl hm | apply State.access_same | apply State.onlyIf_same | intro _ _ | split
    | dsimp only

theorem State.issue_same {fs : Nat} {k : State} (hm : State.Sub 0x1bfffffffffe fs) (s : State) (write : Bool) (a :
  Access) (hs : State.Same fs k s) : State.Same fs k (State.issue s write a) := by
  unfold State.issue
  try dsimp only
  with_reducible repeat' first
    | assumption | exact State.Sub.of rfl hm | apply State.issueWith_same | intro _ _ | split | dsimp only

theorem State.regWrite_same {fs : Nat} {k : State} (hm : State.Sub 0x1bfffffffffe fs) (s : State) (r : Requester) (p
  : Nat) (o : Nat) (v : Word) (hs : State.Same fs k s) : State.Same fs k (State.regWrite s r p o v) := by
  unfold State.regWrite
  try dsimp only
  with_reducible repeat' first
    | assumption | exact State.Sub.of rfl hm | apply State.issue_same | intro _ _ | split | dsimp only

theorem execWinRead_same {fs : Nat} {k : State} (hm : State.Sub 0x1bfffffffffe fs) {req : Requester} {page : Nat}
  {nwords : Fin 32} {s : State} {rr : State} (ht : execWinRead req page nwords s = .next rr) (hs : State.Same fs k s)
  : State.Same fs k rr := by
  refine State.Same.run (fun s hs => ?_) hs ht
  try dsimp only
  with_reducible repeat' first
    | assumption | exact State.Sub.of rfl hm | apply State.issue_same | intro _ _ | split | dsimp only

theorem State.commitUnfenced_same {fs : Nat} {k : State} (hm : State.Sub 0x20000 fs) (s : State) (r : Requester) (hs
  : State.Same fs k s) : State.Same fs k (State.commitUnfenced s r) := by
  unfold State.commitUnfenced
  try dsimp only
  with_reducible repeat' first
    | assumption | exact State.Sub.of rfl hm | intro _ _ | split | dsimp only | refine State.Same.upd_20000 ?_ ?_

theorem State.accesses_same {fs : Nat} {k : State} (hm : State.Sub 0x1bfffffffffe fs) (s : State) (x1 : List Held)
  (hs : State.Same fs k s) : State.Same fs k (State.accesses s x1) := by
  induction x1 generalizing s with
  | nil =>
    unfold State.accesses
    try dsimp only
    with_reducible repeat' first
      | assumption | exact State.Sub.of rfl hm | apply State.access_same | intro _ _ | split | dsimp only
  | cons a l ih =>
    unfold State.accesses
    try dsimp only
    with_reducible repeat' first
      | assumption | exact State.Sub.of rfl hm | apply ih | apply State.access_same | intro _ _ | split | dsimp only

theorem State.release_same {fs : Nat} {k : State} (hm : State.Sub 0x1bfffffffffe fs) (s : State) (r : Requester) (hs
  : State.Same fs k s) : State.Same fs k (State.release s r) := by
  unfold State.release
  try dsimp only
  with_reducible repeat' first
    | assumption | exact State.Sub.of rfl hm | apply State.accesses_same | intro _ _ | split | dsimp only
    | refine State.Same.upd_80 ?_ ?_

theorem State.fenceEnd_same {fs : Nat} {k : State} (hm : State.Sub 0x1bfffffffffe fs) (s : State) (r : Requester) (hs
  : State.Same fs k s) : State.Same fs k (State.fenceEnd s r) := by
  unfold State.fenceEnd
  try dsimp only
  with_reducible repeat' first
    | assumption | exact State.Sub.of rfl hm | apply State.commitUnfenced_same | apply State.release_same
    | apply State.setReg_same | apply State.count_same | intro _ _ | split | dsimp only | refine State.Same.upd_80 ?_ ?_

theorem State.takeReads_same {fs : Nat} {k : State} (hm : State.Sub 0x8000000098 fs) (s : State) (x1 : List Held) (hs
  : State.Same fs k s) : State.Same fs k (State.takeReads s x1) := by
  induction x1 generalizing s with
  | nil =>
    unfold State.takeReads
    try dsimp only
    with_reducible repeat' first
      | assumption | exact State.Sub.of rfl hm | apply State.takeRead_same | intro _ _ | split | dsimp only
  | cons a l ih =>
    unfold State.takeReads
    try dsimp only
    with_reducible repeat' first
      | assumption | exact State.Sub.of rfl hm | apply ih | apply State.takeRead_same | intro _ _ | split | dsimp only

theorem State.wbusyFall_same {fs : Nat} {k : State} (hm : State.Sub 0x8000000098 fs) (s : State) (p : Nat) (hs :
  State.Same fs k s) : State.Same fs k (State.wbusyFall s p) := by
  unfold State.wbusyFall
  try dsimp only
  with_reducible repeat' first
    | assumption | exact State.Sub.of rfl hm | apply State.takeReads_same | intro _ _ | split | dsimp only
    | refine State.Same.upd_80 ?_ ?_

theorem State.posted_same {fs : Nat} {k : State} (hm : State.Sub 0x1bfffffffffe fs) (s : State) (p : Nat) (hs :
  State.Same fs k s) : State.Same fs k (State.posted s p) := by
  unfold State.posted
  try dsimp only
  with_reducible repeat' first
    | assumption | exact State.Sub.of rfl hm | apply State.performWrite_same | apply State.tryWrite_same
    | apply State.wbusyFall_same | intro _ _ | split | dsimp only | refine State.Same.upd_80 ?_ ?_

theorem execWinCmdDone_same {fs : Nat} {k : State} (hm : State.Sub 0x183240082dc fs) {page : Nat} {eccBad : Bool} {s
  : State} {rr : State} (ht : execWinCmdDone page eccBad s = .next rr) (hs : State.Same fs k s) : State.Same fs k rr
  := by
  refine State.Same.run (fun s hs => ?_) hs ht
  try dsimp only
  with_reducible repeat' first
    | assumption | exact State.Sub.of rfl hm | apply State.wbusyFall_same | apply State.winDone_same | intro _ _ | split
    | dsimp only

theorem execWinBadOp_same {fs : Nat} {k : State} (hm : State.Sub 0x1bfffffffffe fs) {req : Requester} {page : Nat}
  {hi : Bool} {nwords : Fin 32} {s : State} {rr : State} (ht : execWinBadOp req page hi nwords s = .next rr) (hs :
  State.Same fs k s) : State.Same fs k rr := by
  refine State.Same.run (fun s hs => ?_) hs ht
  try dsimp only
  with_reducible repeat' first
    | assumption | exact State.Sub.of rfl hm | apply State.issue_same | intro _ _ | split | dsimp only

theorem execRaftEnable_same {fs : Nat} {k : State} (hm : State.Sub 0x1bfffffffffe fs) {req : Requester} {value :
  Word} {s : State} {rr : State} (ht : execRaftEnable req value s = .next rr) (hs : State.Same fs k s) : State.Same
  fs k rr := by
  refine State.Same.run (fun s hs => ?_) hs ht
  try dsimp only
  with_reducible repeat' first
    | assumption | exact State.Sub.of rfl hm | apply State.regWrite_same | intro _ _ | split | dsimp only

theorem execPoolFree_same {fs : Nat} {k : State} (hm : State.Sub 0x1bfffffffffe fs) {req : Requester} {x1 : Half} {n
  : Fin 8} {cell : BitVec 20} {s : State} {rr : State} (ht : execPoolFree req x1 n cell s = .next rr) (hs :
  State.Same fs k s) : State.Same fs k rr := by
  refine State.Same.run (fun s hs => ?_) hs ht
  try dsimp only
  with_reducible repeat' first
    | assumption | exact State.Sub.of rfl hm | apply State.regWrite_same | intro _ _ | split | dsimp only

theorem execCounterLowWrite_same {fs : Nat} {k : State} (hm : State.Sub 0x1bfffffffffe fs) {req : Requester} {page :
  Nat} {off : Nat} {value : Word} {s : State} {rr : State} (ht : execCounterLowWrite req page off value s = .next rr)
  (hs : State.Same fs k s) : State.Same fs k rr := by
  refine State.Same.run (fun s hs => ?_) hs ht
  try dsimp only
  with_reducible repeat' first
    | assumption | exact State.Sub.of rfl hm | apply State.issue_same | intro _ _ | split | dsimp only

theorem execPkClr_same {fs : Nat} {k : State} (hm : State.Sub 0x1bfffffffffe fs) {req : Requester} {s : State} {rr :
  State} (ht : execPkClr req s = .next rr) (hs : State.Same fs k s) : State.Same fs k rr := by
  refine State.Same.run (fun s hs => ?_) hs ht
  try dsimp only
  with_reducible repeat' first
    | assumption | exact State.Sub.of rfl hm | apply State.regWrite_same | intro _ _ | split | dsimp only

theorem execFence_same {fs : Nat} {k : State} (hm : State.Sub 0x1bfffffffffe fs) {req : Requester} {s : State} {rr :
  State} (ht : execFence req s = .next rr) (hs : State.Same fs k s) : State.Same fs k rr := by
  refine State.Same.run (fun s hs => ?_) hs ht
  try dsimp only
  with_reducible repeat' first
    | assumption | exact State.Sub.of rfl hm | apply State.issue_same | intro _ _ | split | dsimp only

theorem execPoolAlloc_same {fs : Nat} {k : State} (hm : State.Sub 0x1bfffffffffe fs) {req : Requester} {x1 : Half} {n
  : Fin 8} {s : State} {rr : State} (ht : execPoolAlloc req x1 n s = .next rr) (hs : State.Same fs k s) : State.Same
  fs k rr := by
  refine State.Same.run (fun s hs => ?_) hs ht
  try dsimp only
  with_reducible repeat' first
    | assumption | exact State.Sub.of rfl hm | apply State.regWrite_same | intro _ _ | split | dsimp only

theorem execWinLengthWrite_same {fs : Nat} {k : State} (hm : State.Sub 0x1bfffffffffe fs) {req : Requester} {x1 : Fin
  8} {s : State} {rr : State} (ht : execWinLengthWrite req x1 s = .next rr) (hs : State.Same fs k s) : State.Same fs
  k rr := by
  refine State.Same.run (fun s hs => ?_) hs ht
  try dsimp only
  with_reducible repeat' first
    | assumption | exact State.Sub.of rfl hm | apply State.regWrite_same | intro _ _ | split | dsimp only

theorem execSnap_same {fs : Nat} {k : State} (hm : State.Sub 0x1bfffffffffe fs) {req : Requester} {s : State} {rr :
  State} (ht : execSnap req s = .next rr) (hs : State.Same fs k s) : State.Same fs k rr := by
  refine State.Same.run (fun s hs => ?_) hs ht
  try dsimp only
  with_reducible repeat' first
    | assumption | exact State.Sub.of rfl hm | apply State.regWrite_same | intro _ _ | split | dsimp only

theorem execCounterLowRead_same {fs : Nat} {k : State} (hm : State.Sub 0x1bfffffffffe fs) {a : Access} {s : State}
  {rr : State} (ht : execCounterLowRead a s = .next rr) (hs : State.Same fs k s) : State.Same fs k rr := by
  refine State.Same.run (fun s hs => ?_) hs ht
  try dsimp only
  with_reducible repeat' first
    | assumption | exact State.Sub.of rfl hm | apply State.issue_same | intro _ _ | split | dsimp only

theorem execRingMaxage_same {fs : Nat} {k : State} (hm : State.Sub 0x1bfffffffffe fs) {req : Requester} {value :
  Word} {s : State} {rr : State} (ht : execRingMaxage req value s = .next rr) (hs : State.Same fs k s) : State.Same
  fs k rr := by
  refine State.Same.run (fun s hs => ?_) hs ht
  try dsimp only
  with_reducible repeat' first
    | assumption | exact State.Sub.of rfl hm | apply State.regWrite_same | intro _ _ | split | dsimp only

theorem execCounterHighWrite_same {fs : Nat} {k : State} (hm : State.Sub 0x1bfffffffffe fs) {req : Requester} {page :
  Nat} {off : Nat} {value : Word} {s : State} {rr : State} (ht : execCounterHighWrite req page off value s = .next
  rr) (hs : State.Same fs k s) : State.Same fs k rr := by
  refine State.Same.run (fun s hs => ?_) hs ht
  try dsimp only
  with_reducible repeat' first
    | assumption | exact State.Sub.of rfl hm | apply State.issue_same | intro _ _ | split | dsimp only

theorem execMcClearLock_same {fs : Nat} {k : State} (hm : State.Sub 0x1bfffffffffe fs) {req : Requester} {s : State}
  {rr : State} (ht : execMcClearLock req s = .next rr) (hs : State.Same fs k s) : State.Same fs k rr := by
  refine State.Same.run (fun s hs => ?_) hs ht
  try dsimp only
  with_reducible repeat' first
    | assumption | exact State.Sub.of rfl hm | apply State.regWrite_same | intro _ _ | split | dsimp only

theorem execPgLock_same {fs : Nat} {k : State} (hm : State.Sub 0x1bfffffffffe fs) {req : Requester} {page : Nat} {s :
  State} {rr : State} (ht : execPgLock req page s = .next rr) (hs : State.Same fs k s) : State.Same fs k rr := by
  refine State.Same.run (fun s hs => ?_) hs ht
  try dsimp only
  with_reducible repeat' first
    | assumption | exact State.Sub.of rfl hm | apply State.issue_same | intro _ _ | split | dsimp only

theorem execWinWrite_same {fs : Nat} {k : State} (hm : State.Sub 0x1bfffffffffe fs) {req : Requester} {page : Nat}
  {nwords : Fin 32} {s : State} {rr : State} (ht : execWinWrite req page nwords s = .next rr) (hs : State.Same fs k
  s) : State.Same fs k rr := by
  refine State.Same.run (fun s hs => ?_) hs ht
  try dsimp only
  with_reducible repeat' first
    | assumption | exact State.Sub.of rfl hm | apply State.issue_same | intro _ _ | split | dsimp only

theorem execDebugLock_same {fs : Nat} {k : State} (hm : State.Sub 0x1bfffffffffe fs) {req : Requester} {s : State}
  {rr : State} (ht : execDebugLock req s = .next rr) (hs : State.Same fs k s) : State.Same fs k rr := by
  refine State.Same.run (fun s hs => ?_) hs ht
  try dsimp only
  with_reducible repeat' first
    | assumption | exact State.Sub.of rfl hm | apply State.regWrite_same | intro _ _ | split | dsimp only

theorem execFixed_same {fs : Nat} {k : State} (hm : State.Sub 0x1bfffffffffe fs) {req : Requester} {on : Bool} {s :
  State} {rr : State} (ht : execFixed req on s = .next rr) (hs : State.Same fs k s) : State.Same fs k rr := by
  refine State.Same.run (fun s hs => ?_) hs ht
  try dsimp only
  with_reducible repeat' first
    | assumption | exact State.Sub.of rfl hm | apply State.regWrite_same | intro _ _ | split | dsimp only

theorem execFbCalUpdate_same {fs : Nat} {k : State} (hm : State.Sub 0x1bfffffffffe fs) {cl : Half} {epoch : Word}
  {value : Word} {s : State} {rr : State} (ht : execFbCalUpdate cl epoch value s = .next rr) (hs : State.Same fs k s)
  : State.Same fs k rr := by
  refine State.Same.run (fun s hs => ?_) hs ht
  try dsimp only
  with_reducible repeat' first
    | assumption | exact State.Sub.of rfl hm | apply State.issueWith_same | intro _ _ | split | dsimp only

theorem execStop_same {fs : Nat} {k : State} (hm : State.Sub 0x1bfffffffffe fs) {req : Requester} {s : State} {rr :
  State} (ht : execStop req s = .next rr) (hs : State.Same fs k s) : State.Same fs k rr := by
  refine State.Same.run (fun s hs => ?_) hs ht
  try dsimp only
  with_reducible repeat' first
    | assumption | exact State.Sub.of rfl hm | apply State.regWrite_same | intro _ _ | split | dsimp only

theorem execCancel_same {fs : Nat} {k : State} (hm : State.Sub 0x1bfffffffffe fs) {req : Requester} {s : State} {rr :
  State} (ht : execCancel req s = .next rr) (hs : State.Same fs k s) : State.Same fs k rr := by
  refine State.Same.run (fun s hs => ?_) hs ht
  try dsimp only
  with_reducible repeat' first
    | assumption | exact State.Sub.of rfl hm | apply State.regWrite_same | intro _ _ | split | dsimp only

theorem execCommit_same {fs : Nat} {k : State} (hm : State.Sub 0x1bfffffffffe fs) {req : Requester} {atTime : Bool}
  {s : State} {rr : State} (ht : execCommit req atTime s = .next rr) (hs : State.Same fs k s) : State.Same fs k rr := by
  refine State.Same.run (fun s hs => ?_) hs ht
  try dsimp only
  with_reducible repeat' first
    | assumption | exact State.Sub.of rfl hm | apply State.regWrite_same | intro _ _ | split | dsimp only

theorem execFenceDone_same {fs : Nat} {k : State} (hm : State.Sub 0x1bfffffffffe fs) {req : Requester} {s : State}
  {rr : State} (ht : execFenceDone req s = .next rr) (hs : State.Same fs k s) : State.Same fs k rr := by
  refine State.Same.run (fun s hs => ?_) hs ht
  try dsimp only
  with_reducible repeat' first
    | assumption | exact State.Sub.of rfl hm | apply State.fenceEnd_same | intro _ _ | split | dsimp only

theorem execPostedWritePerformed_same {fs : Nat} {k : State} (hm : State.Sub 0x1bfffffffffe fs) {page : Nat} {s :
  State} {rr : State} (ht : execPostedWritePerformed page s = .next rr) (hs : State.Same fs k s) : State.Same fs k rr
  := by
  refine State.Same.run (fun s hs => ?_) hs ht
  try dsimp only
  with_reducible repeat' first
    | assumption | exact State.Sub.of rfl hm | apply State.posted_same | intro _ _ | split | dsimp only

theorem execBlkRst_same {fs : Nat} {k : State} (hm : State.Sub 0x1bfffffffffe fs) {page : PageBy} {s : State} {rr :
  State} (ht : execBlkRst page s = .next rr) (hs : State.Same fs k s) : State.Same fs k rr := by
  refine State.Same.run (fun s hs => ?_) hs ht
  try dsimp only
  with_reducible repeat' first
    | assumption | exact State.Sub.of rfl hm | apply State.regWrite_same | intro _ _ | split | dsimp only

theorem execPgEvtClear_same {fs : Nat} {k : State} (hm : State.Sub 0x1bfffffffffe fs) {req : Requester} {page : Nat}
  {value : Word} {s : State} {rr : State} (ht : execPgEvtClear req page value s = .next rr) (hs : State.Same fs k s)
  : State.Same fs k rr := by
  refine State.Same.run (fun s hs => ?_) hs ht
  try dsimp only
  with_reducible repeat' first
    | assumption | exact State.Sub.of rfl hm | apply State.issue_same | intro _ _ | split | dsimp only

theorem execRegisterWrite_same {fs : Nat} {k : State} (hm : State.Sub 0x1bfffffffffe fs) {a : Access} {s : State} {rr
  : State} (ht : execRegisterWrite a s = .next rr) (hs : State.Same fs k s) : State.Same fs k rr := by
  refine State.Same.run (fun s hs => ?_) hs ht
  try dsimp only
  with_reducible repeat' first
    | assumption | exact State.Sub.of rfl hm | apply State.issue_same | intro _ _ | split | dsimp only

/-! ### Writes -/

theorem State.hostWrite_same {fs : Nat} {k : State} (hm : State.Sub 0x1bfffffffffe fs) (s : State) (p : Nat) (o :
  Nat) (v : Word) (hs : State.Same fs k s) : State.Same fs k (State.hostWrite s p o v) := by
  unfold State.hostWrite
  try dsimp only
  with_reducible repeat' first
    | assumption | exact State.Sub.of rfl hm | apply State.regWrite_same | intro _ _ | split | dsimp only

theorem State.ctrlHost_same {fs : Nat} {k : State} (hm : State.Sub 0x1bfffffffffe fs) (s : State) (p : Nat) (lo :
  Nat) (n : Nat) (x : Nat) (hs : State.Same fs k s) : State.Same fs k (State.ctrlHost s p lo n x) := by
  unfold State.ctrlHost
  try dsimp only
  with_reducible repeat' first
    | assumption | exact State.Sub.of rfl hm | apply State.hostWrite_same | intro _ _ | split | dsimp only

theorem execRecalLive_same {fs : Nat} {k : State} (hm : State.Sub 0x1bfffffffffe fs) {p : Port} {s : State} {rr :
  State} (ht : execRecalLive p s = .next rr) (hs : State.Same fs k s) : State.Same fs k rr := by
  refine State.Same.run (fun s hs => ?_) hs ht
  try dsimp only
  with_reducible repeat' first
    | assumption | exact State.Sub.of rfl hm | apply State.ctrlHost_same | intro _ _ | split | dsimp only

theorem State.tallyHost_same {fs : Nat} {k : State} (hm : State.Sub 0x1bfffffffffe fs) (s : State) (x1 : Nat) (i :
  Nat) (hs : State.Same fs k s) : State.Same fs k (State.tallyHost s x1 i) := by
  unfold State.tallyHost
  try dsimp only
  with_reducible repeat' first
    | assumption | exact State.Sub.of rfl hm | apply State.hostWrite_same | intro _ _ | split | dsimp only

theorem execFlush_same {fs : Nat} {k : State} (hm : State.Sub 0x1bfffffffffe fs) {x0 : Half} {s : State} {rr : State}
  (ht : execFlush x0 s = .next rr) (hs : State.Same fs k s) : State.Same fs k rr := by
  refine State.Same.run (fun s hs => ?_) hs ht
  try dsimp only
  with_reducible repeat' first
    | assumption | exact State.Sub.of rfl hm | apply State.tallyHost_same | intro _ _ | split | dsimp only

theorem execPwrStandby_same {fs : Nat} {k : State} (hm : State.Sub 0x1bfffffffffe fs) {p : Port} {s : State} {rr :
  State} (ht : execPwrStandby p s = .next rr) (hs : State.Same fs k s) : State.Same fs k rr := by
  refine State.Same.run (fun s hs => ?_) hs ht
  try dsimp only
  with_reducible repeat' first
    | assumption | exact State.Sub.of rfl hm | apply State.ctrlHost_same | intro _ _ | split | dsimp only

theorem execPwrDormant_same {fs : Nat} {k : State} (hm : State.Sub 0x1bfffffffffe fs) {p : Port} {s : State} {rr :
  State} (ht : execPwrDormant p s = .next rr) (hs : State.Same fs k s) : State.Same fs k rr := by
  refine State.Same.run (fun s hs => ?_) hs ht
  try dsimp only
  with_reducible repeat' first
    | assumption | exact State.Sub.of rfl hm | apply State.ctrlHost_same | intro _ _ | split | dsimp only

theorem State.maintHost_same {fs : Nat} {k : State} (hm : State.Sub 0x1bfffffffffe fs) (s : State) (x1 : Nat) (i :
  Nat) (hs : State.Same fs k s) : State.Same fs k (State.maintHost s x1 i) := by
  unfold State.maintHost
  try dsimp only
  with_reducible repeat' first
    | assumption | exact State.Sub.of rfl hm | apply State.hostWrite_same | intro _ _ | split | dsimp only

theorem execInjBip_same {fs : Nat} {k : State} (hm : State.Sub 0x1bfffffffffe fs) {q : SpanPos} {s : State} {rr :
  State} (ht : execInjBip q s = .next rr) (hs : State.Same fs k s) : State.Same fs k rr := by
  refine State.Same.run (fun s hs => ?_) hs ht
  try dsimp only
  with_reducible repeat' first
    | assumption | exact State.Sub.of rfl hm | apply State.hostWrite_same | intro _ _ | split | dsimp only

theorem execExportAll_same {fs : Nat} {k : State} (hm : State.Sub 0x1bfffffffffe fs) {x0 : Half} {s : State} {rr :
  State} (ht : execExportAll x0 s = .next rr) (hs : State.Same fs k s) : State.Same fs k rr := by
  refine State.Same.run (fun s hs => ?_) hs ht
  try dsimp only
  with_reducible repeat' first
    | assumption | exact State.Sub.of rfl hm | apply State.tallyHost_same | intro _ _ | split | dsimp only

theorem execClrHist_same {fs : Nat} {k : State} (hm : State.Sub 0x1bfffffffffe fs) {x0 : Half} {s : State} {rr :
  State} (ht : execClrHist x0 s = .next rr) (hs : State.Same fs k s) : State.Same fs k rr := by
  refine State.Same.run (fun s hs => ?_) hs ht
  try dsimp only
  with_reducible repeat' first
    | assumption | exact State.Sub.of rfl hm | apply State.hostWrite_same | intro _ _ | split | dsimp only

theorem execPortDisable_same {fs : Nat} {k : State} (hm : State.Sub 0x1bfffffffffe fs) {p : Port} {s : State} {rr :
  State} (ht : execPortDisable p s = .next rr) (hs : State.Same fs k s) : State.Same fs k rr := by
  refine State.Same.run (fun s hs => ?_) hs ht
  try dsimp only
  with_reducible repeat' first
    | assumption | exact State.Sub.of rfl hm | apply State.ctrlHost_same | intro _ _ | split | dsimp only

theorem execResume_same {fs : Nat} {k : State} (hm : State.Sub 0x1bfffffffffe fs) {x0 : Half} {s : State} {rr :
  State} (ht : execResume x0 s = .next rr) (hs : State.Same fs k s) : State.Same fs k rr := by
  refine State.Same.run (fun s hs => ?_) hs ht
  try dsimp only
  with_reducible repeat' first
    | assumption | exact State.Sub.of rfl hm | apply State.maintHost_same | intro _ _ | split | dsimp only

theorem execQueueDisable_same {fs : Nat} {k : State} (hm : State.Sub 0x1bfffffffffe fs) {q : QueueId} {s : State} {rr
  : State} (ht : execQueueDisable q s = .next rr) (hs : State.Same fs k s) : State.Same fs k rr := by
  refine State.Same.run (fun s hs => ?_) hs ht
  try dsimp only
  with_reducible repeat' first
    | assumption | exact State.Sub.of rfl hm | apply State.hostWrite_same | intro _ _ | split | dsimp only

theorem execPortEnable_same {fs : Nat} {k : State} (hm : State.Sub 0x1bfffffffffe fs) {p : Port} {s : State} {rr :
  State} (ht : execPortEnable p s = .next rr) (hs : State.Same fs k s) : State.Same fs k rr := by
  refine State.Same.run (fun s hs => ?_) hs ht
  try dsimp only
  with_reducible repeat' first
    | assumption | exact State.Sub.of rfl hm | apply State.ctrlHost_same | intro _ _ | split | dsimp only

theorem execPortReset_same {fs : Nat} {k : State} (hm : State.Sub 0x1bfffffffffe fs) {p : Port} {s : State} {rr :
  State} (ht : execPortReset p s = .next rr) (hs : State.Same fs k s) : State.Same fs k rr := by
  refine State.Same.run (fun s hs => ?_) hs ht
  try dsimp only
  with_reducible repeat' first
    | assumption | exact State.Sub.of rfl hm | apply State.ctrlHost_same | intro _ _ | split | dsimp only

theorem execDoorbell_same {fs : Nat} {k : State} (hm : State.Sub 0x1bfffffffffe fs) {q : QueueId} {value : Word} {s :
  State} {rr : State} (ht : execDoorbell q value s = .next rr) (hs : State.Same fs k s) : State.Same fs k rr := by
  refine State.Same.run (fun s hs => ?_) hs ht
  try dsimp only
  with_reducible repeat' first
    | assumption | exact State.Sub.of rfl hm | apply State.hostWrite_same | intro _ _ | split | dsimp only

theorem execRstSlice_same {fs : Nat} {k : State} (hm : State.Sub 0x1bfffffffffe fs) {value : Word} {s : State} {rr :
  State} (ht : execRstSlice value s = .next rr) (hs : State.Same fs k s) : State.Same fs k rr := by
  refine State.Same.run (fun s hs => ?_) hs ht
  try dsimp only
  with_reducible repeat' first
    | assumption | exact State.Sub.of rfl hm | apply State.hostWrite_same | intro _ _ | split | dsimp only

theorem execDrain_same {fs : Nat} {k : State} (hm : State.Sub 0x1bfffffffffe fs) {x0 : Half} {s : State} {rr : State}
  (ht : execDrain x0 s = .next rr) (hs : State.Same fs k s) : State.Same fs k rr := by
  refine State.Same.run (fun s hs => ?_) hs ht
  try dsimp only
  with_reducible repeat' first
    | assumption | exact State.Sub.of rfl hm | apply State.hostWrite_same | intro _ _ | split | dsimp only

theorem execClrDrop_same {fs : Nat} {k : State} (hm : State.Sub 0x1bfffffffffe fs) {x0 : Half} {s : State} {rr :
  State} (ht : execClrDrop x0 s = .next rr) (hs : State.Same fs k s) : State.Same fs k rr := by
  refine State.Same.run (fun s hs => ?_) hs ht
  try dsimp only
  with_reducible repeat' first
    | assumption | exact State.Sub.of rfl hm | apply State.hostWrite_same | intro _ _ | split | dsimp only

theorem execClear_same {fs : Nat} {k : State} (hm : State.Sub 0x1bfffffffffe fs) {x0 : Half} {s : State} {rr : State}
  (ht : execClear x0 s = .next rr) (hs : State.Same fs k s) : State.Same fs k rr := by
  refine State.Same.run (fun s hs => ?_) hs ht
  try dsimp only
  with_reducible repeat' first
    | assumption | exact State.Sub.of rfl hm | apply State.tallyHost_same | intro _ _ | split | dsimp only

theorem execRstHalf_same {fs : Nat} {k : State} (hm : State.Sub 0x1bfffffffffe fs) {value : Word} {s : State} {rr :
  State} (ht : execRstHalf value s = .next rr) (hs : State.Same fs k s) : State.Same fs k rr := by
  refine State.Same.run (fun s hs => ?_) hs ht
  try dsimp only
  with_reducible repeat' first
    | assumption | exact State.Sub.of rfl hm | apply State.hostWrite_same | intro _ _ | split | dsimp only

theorem execRstChip_same {fs : Nat} {k : State} (hm : State.Sub 0x1bfffffffffe fs) {value : Word} {s : State} {rr :
  State} (ht : execRstChip value s = .next rr) (hs : State.Same fs k s) : State.Same fs k rr := by
  refine State.Same.run (fun s hs => ?_) hs ht
  try dsimp only
  with_reducible repeat' first
    | assumption | exact State.Sub.of rfl hm | apply State.hostWrite_same | intro _ _ | split | dsimp only

theorem execHint_same {fs : Nat} {k : State} (hm : State.Sub 0x1bfffffffffe fs) {duration : BitVec 16} {s : State}
  {rr : State} (ht : execHint duration s = .next rr) (hs : State.Same fs k s) : State.Same fs k rr := by
  refine State.Same.run (fun s hs => ?_) hs ht
  try dsimp only
  with_reducible repeat' first
    | assumption | exact State.Sub.of rfl hm | apply State.hostWrite_same | intro _ _ | split | dsimp only

theorem execLoPinRel_same {fs : Nat} {k : State} (hm : State.Sub 0x1bfffffffffe fs) {s : State} {rr : State} (ht :
  execLoPinRel s = .next rr) (hs : State.Same fs k s) : State.Same fs k rr := by
  refine State.Same.run (fun s hs => ?_) hs ht
  try dsimp only
  with_reducible repeat' first
    | assumption | exact State.Sub.of rfl hm | apply State.hostWrite_same | intro _ _ | split | dsimp only

theorem execLoClr_same {fs : Nat} {k : State} (hm : State.Sub 0x1bfffffffffe fs) {value : Word} {s : State} {rr :
  State} (ht : execLoClr value s = .next rr) (hs : State.Same fs k s) : State.Same fs k rr := by
  refine State.Same.run (fun s hs => ?_) hs ht
  try dsimp only
  with_reducible repeat' first
    | assumption | exact State.Sub.of rfl hm | apply State.hostWrite_same | intro _ _ | split | dsimp only

theorem execQueueEnable_same {fs : Nat} {k : State} (hm : State.Sub 0x1bfffffffffe fs) {q : QueueId} {s : State} {rr
  : State} (ht : execQueueEnable q s = .next rr) (hs : State.Same fs k s) : State.Same fs k rr := by
  refine State.Same.run (fun s hs => ?_) hs ht
  try dsimp only
  with_reducible repeat' first
    | assumption | exact State.Sub.of rfl hm | apply State.hostWrite_same | intro _ _ | split | dsimp only

theorem execRetrain_same {fs : Nat} {k : State} (hm : State.Sub 0x1bfffffffffe fs) {x0 : Half} {s : State} {rr :
  State} (ht : execRetrain x0 s = .next rr) (hs : State.Same fs k s) : State.Same fs k rr := by
  refine State.Same.run (fun s hs => ?_) hs ht
  try dsimp only
  with_reducible repeat' first
    | assumption | exact State.Sub.of rfl hm | apply State.hostWrite_same | intro _ _ | split | dsimp only

theorem execClrMx_same {fs : Nat} {k : State} (hm : State.Sub 0x1bfffffffffe fs) {x0 : Half} {s : State} {rr : State}
  (ht : execClrMx x0 s = .next rr) (hs : State.Same fs k s) : State.Same fs k rr := by
  refine State.Same.run (fun s hs => ?_) hs ht
  try dsimp only
  with_reducible repeat' first
    | assumption | exact State.Sub.of rfl hm | apply State.hostWrite_same | intro _ _ | split | dsimp only

theorem execStep_same {fs : Nat} {k : State} (hm : State.Sub 0x1bfffffffffe fs) {s : State} {rr : State} (ht :
  execStep s = .next rr) (hs : State.Same fs k s) : State.Same fs k rr := by
  refine State.Same.run (fun s hs => ?_) hs ht
  try dsimp only
  with_reducible repeat' first
    | assumption | exact State.Sub.of rfl hm | apply State.hostWrite_same | intro _ _ | split | dsimp only

theorem execSet_same {fs : Nat} {k : State} (hm : State.Sub 0x1bfffffffffe fs) {s : State} {rr : State} (ht : execSet
  s = .next rr) (hs : State.Same fs k s) : State.Same fs k rr := by
  refine State.Same.run (fun s hs => ?_) hs ht
  try dsimp only
  with_reducible repeat' first
    | assumption | exact State.Sub.of rfl hm | apply State.hostWrite_same | intro _ _ | split | dsimp only

theorem execAbandon_same {fs : Nat} {k : State} (hm : State.Sub 0x1bfffffffffe fs) {x0 : Half} {s : State} {rr :
  State} (ht : execAbandon x0 s = .next rr) (hs : State.Same fs k s) : State.Same fs k rr := by
  refine State.Same.run (fun s hs => ?_) hs ht
  try dsimp only
  with_reducible repeat' first
    | assumption | exact State.Sub.of rfl hm | apply State.maintHost_same | intro _ _ | split | dsimp only

theorem execWlMigrate_same {fs : Nat} {k : State} (hm : State.Sub 0x1bfffffffffe fs) {x0 : Half} {bank : BitVec 8} {s
  : State} {rr : State} (ht : execWlMigrate x0 bank s = .next rr) (hs : State.Same fs k s) : State.Same fs k rr := by
  refine State.Same.run (fun s hs => ?_) hs ht
  try dsimp only
  with_reducible repeat' first
    | assumption | exact State.Sub.of rfl hm | apply State.hostWrite_same | intro _ _ | split | dsimp only

theorem execSwap_same {fs : Nat} {k : State} (hm : State.Sub 0x1bfffffffffe fs) {sl : Slice} {s : State} {rr : State}
  (ht : execSwap sl s = .next rr) (hs : State.Same fs k s) : State.Same fs k rr := by
  refine State.Same.run (fun s hs => ?_) hs ht
  try dsimp only
  with_reducible repeat' first
    | assumption | exact State.Sub.of rfl hm | apply State.hostWrite_same | intro _ _ | split | dsimp only

theorem execRecalFull_same {fs : Nat} {k : State} (hm : State.Sub 0x1bfffffffffe fs) {p : Port} {s : State} {rr :
  State} (ht : execRecalFull p s = .next rr) (hs : State.Same fs k s) : State.Same fs k rr := by
  refine State.Same.run (fun s hs => ?_) hs ht
  try dsimp only
  with_reducible repeat' first
    | assumption | exact State.Sub.of rfl hm | apply State.ctrlHost_same | intro _ _ | split | dsimp only

theorem execPwrActive_same {fs : Nat} {k : State} (hm : State.Sub 0x1bfffffffffe fs) {p : Port} {s : State} {rr :
  State} (ht : execPwrActive p s = .next rr) (hs : State.Same fs k s) : State.Same fs k rr := by
  refine State.Same.run (fun s hs => ?_) hs ht
  try dsimp only
  with_reducible repeat' first
    | assumption | exact State.Sub.of rfl hm | apply State.ctrlHost_same | intro _ _ | split | dsimp only

/-! ### Image -/

theorem State.loadStat_same {fs : Nat} {k : State} (hm : State.Sub 0x20008000 fs) (s : State) (p : Nat) (o : Nat) (v
  : Word) (hs : State.Same fs k s) : State.Same fs k (State.loadStat s p o v) := by
  unfold State.loadStat
  try dsimp only
  with_reducible repeat' first
    | assumption | exact State.Sub.of rfl hm | apply State.setWood_same | apply State.setSlice_same | intro _ _ | split
    | dsimp only

theorem State.loadReg_same {fs : Nat} {k : State} (hm : State.Sub 0x1bfffffffffe fs) (s : State) (r : Requester) (p :
  Nat) (o : Nat) (v : Word) (hs : State.Same fs k s) : State.Same fs k (State.loadReg s r p o v) := by
  unfold State.loadReg
  try dsimp only
  with_reducible repeat' first
    | assumption | exact State.Sub.of rfl hm | apply State.performWrite_same | apply State.loadStat_same
    | apply State.setRf_same | intro _ _ | split | dsimp only

theorem State.loadWrites_same {fs : Nat} {k : State} (hm : State.Sub 0x8304008250 fs) (s : State) (r : Requester) (p
  : Nat) (sel : Nat) (x4 : List (Nat × List Word)) (hs : State.Same fs k s) : State.Same fs k (State.loadWrites s r p
  sel x4) := by
  induction x4 generalizing s r p sel with
  | nil =>
    unfold State.loadWrites
    try dsimp only
    with_reducible repeat' first
      | assumption | exact State.Sub.of rfl hm | apply State.winStore_same | intro _ _ | split | dsimp only
  | cons a l ih =>
    unfold State.loadWrites
    try dsimp only
    with_reducible repeat' first
      | assumption | exact State.Sub.of rfl hm | apply ih | apply State.winStore_same | intro _ _ | split | dsimp only

theorem State.loadOn_same {fs : Nat} {k : State} (hm : State.Sub 0x1bfffffffffe fs) (s : State) (r : Requester) (x :
  LoadRec) (x3 : List Nat) (hs : State.Same fs k s) : State.Same fs k (State.loadOn s r x x3) := by
  induction x3 generalizing s r x with
  | nil =>
    unfold State.loadOn
    try dsimp only
    with_reducible repeat' first
      | assumption | exact State.Sub.of rfl hm | apply State.loadReg_same | apply State.loadWrites_same | intro _ _ | split
      | dsimp only
  | cons a l ih =>
    unfold State.loadOn
    try dsimp only
    with_reducible repeat' first
      | assumption | exact State.Sub.of rfl hm | apply ih | apply State.loadReg_same | apply State.loadWrites_same
      | intro _ _ | split | dsimp only

theorem State.loadRecs_same {fs : Nat} {k : State} (hm : State.Sub 0x1bfffffffffe fs) (s : State) (r : Requester) (x2
  : List LoadRec) (hs : State.Same fs k s) : State.Same fs k (State.loadRecs s r x2) := by
  induction x2 generalizing s r with
  | nil =>
    unfold State.loadRecs
    try dsimp only
    with_reducible repeat' first
      | assumption | exact State.Sub.of rfl hm | apply State.loadOn_same | intro _ _ | split | dsimp only
  | cons a l ih =>
    unfold State.loadRecs
    try dsimp only
    with_reducible repeat' first
      | assumption | exact State.Sub.of rfl hm | apply ih | apply State.loadOn_same | intro _ _ | split | dsimp only

theorem State.fwEnd_same {fs : Nat} {k : State} (hm : State.Sub 0x8000000610 fs) (s : State) (x1 : List Nat) (hs :
  State.Same fs k s) : State.Same fs k (State.fwEnd s x1) := by
  induction x1 generalizing s with
  | nil =>
    unfold State.fwEnd
    try dsimp only
    with_reducible repeat' first
      | assumption | exact State.Sub.of rfl hm | apply State.setMacro_same | apply State.lanesWake_same | intro _ _ | split
      | dsimp only
  | cons a l ih =>
    unfold State.fwEnd
    try dsimp only
    with_reducible repeat' first
      | assumption | exact State.Sub.of rfl hm | apply ih | apply State.setMacro_same | apply State.lanesWake_same
      | intro _ _ | split | dsimp only

theorem State.fwLoad_same {fs : Nat} {k : State} (hm : State.Sub 0x10000000440 fs) (s : State) (i : Image) (m : Nat)
  (x3 : Nat) (hs : State.Same fs k s) : State.Same fs k (State.fwLoad s i m x3) := by
  unfold State.fwLoad
  try dsimp only
  with_reducible repeat' first
    | assumption | exact State.Sub.of rfl hm | apply State.extend_same | apply State.setMacro_same
    | apply State.setMemWs_same | intro _ _ | split | dsimp only

theorem State.fwApply_same {fs : Nat} {k : State} (hm : State.Sub 0x10000000440 fs) (s : State) (i : Image) (x2 :
  List Nat) (hs : State.Same fs k s) : State.Same fs k (State.fwApply s i x2).1 := by
  induction x2 generalizing s i with
  | nil =>
    unfold State.fwApply
    try dsimp only
    with_reducible repeat' first
      | assumption | exact State.Sub.of rfl hm | apply State.fwLoad_same | intro _ _ | split | dsimp only
  | cons a l ih =>
    unfold State.fwApply
    try dsimp only
    with_reducible repeat' first
      | assumption | exact State.Sub.of rfl hm | apply ih | apply State.fwLoad_same | intro _ _ | split | dsimp only

theorem State.fwApply_same_eq {fs : Nat} {k : State} (hm : State.Sub 0x10000000440 fs) {s : State} {i : Image} {x2 :
  List Nat} {ra rb} (ht : State.fwApply s i x2 = (ra, rb)) (hs : State.Same fs k s) : State.Same fs k ra := by
  have := State.fwApply_same (k := k) hm s i x2 hs
  rw [ht] at this
  exact this

/-! ### Retained -/

theorem State.setCopy_same {fs : Nat} {k : State} (hm : State.Sub 0x20000000000 fs) (s : State) (x1 : Nat) (c : AMap
  DWord) (hs : State.Same fs k s) : State.Same fs k (State.setCopy s x1 c) := by
  unfold State.setCopy
  try dsimp only
  with_reducible repeat' first
    | assumption | exact State.Sub.of rfl hm | intro _ _ | split | dsimp only | refine State.Same.upd_20000000000 ?_ ?_

theorem State.readSeqs_same {fs : Nat} {k : State} (hm : State.Sub 0x100000000000 fs) (s : State) (hs : State.Same fs
  k s) : State.Same fs k (State.readSeqs s) := by
  unfold State.readSeqs
  try dsimp only
  with_reducible repeat' first
    | assumption | exact State.Sub.of rfl hm | intro _ _ | split | dsimp only | refine State.Same.upd_100000000000 ?_ ?_

theorem State.saveStart_same {fs : Nat} {k : State} (hm : State.Sub 0x130000000000 fs) (s : State) (c : CfgCopy) (hs
  : State.Same fs k s) : State.Same fs k (State.saveStart s c) := by
  unfold State.saveStart
  try dsimp only
  with_reducible repeat' first
    | assumption | exact State.Sub.of rfl hm | apply State.setCopy_same | apply State.readSeqs_same | intro _ _ | split
    | dsimp only | refine State.Same.upd_10000000000 ?_ ?_

theorem State.saveEnd_same {fs : Nat} {k : State} (hm : State.Sub 0x130000000010 fs) (s : State) (x : SaveRun) (hs :
  State.Same fs k s) : State.Same fs k (State.saveEnd s x) := by
  unfold State.saveEnd
  try dsimp only
  with_reducible repeat' first
    | assumption | exact State.Sub.of rfl hm | apply State.readSeqs_same | apply State.count_same | apply State.extend_same
    | apply State.setCopy_same | intro _ _ | split | dsimp only | refine State.Same.upd_10000000000 ?_ ?_

theorem State.wipeBanks_same {fs : Nat} {k : State} (hm : State.Sub 0x8000 fs) (s : State) (x1 : List Nat) (hs :
  State.Same fs k s) : State.Same fs k (State.wipeBanks s x1) := by
  induction x1 generalizing s with
  | nil =>
    unfold State.wipeBanks
    try dsimp only
    with_reducible repeat' first
      | assumption | exact State.Sub.of rfl hm | apply State.setSlice_same | intro _ _ | split | dsimp only
  | cons a l ih =>
    unfold State.wipeBanks
    try dsimp only
    with_reducible repeat' first
      | assumption | exact State.Sub.of rfl hm | apply ih | apply State.setSlice_same | intro _ _ | split | dsimp only

theorem State.dropBanks_same {fs : Nat} {k : State} (hm : State.Sub 0x20008000 fs) (s : State) (hs : State.Same fs k
  s) : State.Same fs k (State.dropBanks s) := by
  unfold State.dropBanks
  try dsimp only
  with_reducible repeat' first
    | assumption | exact State.Sub.of rfl hm | apply State.setWood_same | apply State.wipeBanks_same | intro _ _ | split
    | dsimp only

theorem State.deckAgain_same {fs : Nat} {k : State} (hm : State.Sub 0x8002080014 fs) (s : State) (x1 : Nat) (hs :
  State.Same fs k s) : State.Same fs k (State.deckAgain s x1) := by
  unfold State.deckAgain
  try dsimp only
  with_reducible repeat' first
    | assumption | exact State.Sub.of rfl hm | apply State.initDeck_same | intro _ _ | split | dsimp only

theorem State.metersFull_same {fs : Nat} {k : State} (hm : State.Sub 0x4000000 fs) (s : State) (x1 : List (Nat ×
  Nat)) (hs : State.Same fs k s) : State.Same fs k (State.metersFull s x1) := by
  induction x1 generalizing s with
  | nil =>
    unfold State.metersFull
    try dsimp only
    with_reducible repeat' first
      | assumption | exact State.Sub.of rfl hm | apply State.setMeter_same | intro _ _ | split | dsimp only
  | cons a l ih =>
    unfold State.metersFull
    try dsimp only
    with_reducible repeat' first
      | assumption | exact State.Sub.of rfl hm | apply ih | apply State.setMeter_same | intro _ _ | split | dsimp only

theorem State.tableHalves_same {fs : Nat} {k : State} (hm : State.Sub 0x8860000058 fs) (s : State) (ws : List Word)
  (data : List Byte) (x3 : List Nat) (hs : State.Same fs k s) : State.Same fs k (State.tableHalves s ws data x3) := by
  induction x3 generalizing s ws data with
  | nil =>
    unfold State.tableHalves
    try dsimp only
    with_reducible repeat' first
      | assumption | exact State.Sub.of rfl hm | apply State.routine_same
      | refine State.routine_same_eq ?_ (by assumption) ?_ | intro _ _ | split | dsimp only
  | cons a l ih =>
    unfold State.tableHalves
    try dsimp only
    with_reducible repeat' first
      | assumption | exact State.Sub.of rfl hm | apply ih | apply State.routine_same
      | refine State.routine_same_eq ?_ (by assumption) ?_ | intro _ _ | split | dsimp only

theorem State.tableRecs_same {fs : Nat} {k : State} (hm : State.Sub 0x8860000058 fs) (s : State) (x1 : List (Word ×
  Word × List Byte)) (hs : State.Same fs k s) : State.Same fs k (State.tableRecs s x1) := by
  induction x1 generalizing s with
  | nil =>
    unfold State.tableRecs
    try dsimp only
    with_reducible repeat' first
      | assumption | exact State.Sub.of rfl hm | apply State.tableHalves_same | intro _ _ | split | dsimp only
  | cons a l ih =>
    unfold State.tableRecs
    try dsimp only
    with_reducible repeat' first
      | assumption | exact State.Sub.of rfl hm | apply ih | apply State.tableHalves_same | intro _ _ | split | dsimp only

theorem State.applySections_same {fs : Nat} {k : State} (hm : State.Sub 0x1bfffffffffe fs) (s : State) (r :
  Requester) (x2 : List CfgSection) (hs : State.Same fs k s) : State.Same fs k (State.applySections s r x2) := by
  induction x2 generalizing s with
  | nil => exact hs
  | cons c l ih =>
    cases c
    · exact ih _ (State.loadRecs_same (.of rfl hm) _ _ _ hs)
    · exact ih _ (State.tableRecs_same (.of rfl hm) _ _ hs)

theorem State.wipeRegs_same {fs : Nat} {k : State} (hm : State.Sub 0x30 fs) (s : State) (hs : State.Same fs k s) :
  State.Same fs k (State.wipeRegs s) := by
  unfold State.wipeRegs
  try dsimp only
  with_reducible repeat' first
    | assumption | exact State.Sub.of rfl hm | intro _ _ | split | dsimp only | refine State.Same.upd_30 ?_ ?_

theorem State.wipeRet_same {fs : Nat} {k : State} (hm : State.Sub 0x20008030 fs) (s : State) (hs : State.Same fs k s)
  : State.Same fs k (State.wipeRet s) := by
  unfold State.wipeRet
  try dsimp only
  with_reducible repeat' first
    | assumption | exact State.Sub.of rfl hm | apply State.dropBanks_same | apply State.wipeRegs_same | intro _ _ | split
    | dsimp only

theorem State.restoreEnd_same {fs : Nat} {k : State} (hm : State.Sub 0x1bfffffffffe fs) (s : State) (hs : State.Same
  fs k s) : State.Same fs k (State.restoreEnd s) := by
  unfold State.restoreEnd
  try dsimp only
  with_reducible repeat' first
    | assumption | exact State.Sub.of rfl hm | apply State.raise_same | apply State.deckAgain_same
    | apply State.metersFull_same | apply State.fwEnd_same | apply State.applySections_same | apply State.extend_same
    | apply State.wipeRet_same | intro _ _ | split | dsimp only | refine State.Same.upd_100000000000 ?_ ?_

theorem State.restoreStart_same {fs : Nat} {k : State} (hm : State.Sub 0x110000000440 fs) (s : State) (lane : List
  Byte) (hs : State.Same fs k s) : State.Same fs k (State.restoreStart s lane) := by
  unfold State.restoreStart
  extract_lets s1 s2 c
  have h1 : State.Same fs k s1 := by
    dsimp only [s1]; split
    · split
      · exact State.Same.foldl (fun _ _ h => State.fwLoad_same (.of rfl hm) _ _ _ _ h) _ hs
      · exact hs
    · exact hs
  have h2 : State.Same fs k s2 := State.readSeqs_same (.of rfl hm) _ h1
  clear_value s2
  exact State.Same.upd_100000000000 (.of rfl hm) h2

theorem execRestore_same {fs : Nat} {k : State} (hm : State.Sub 0x110000000440 fs) {lane : List Byte} {s : State} {rr
  : State} (ht : execRestore lane s = .next rr) (hs : State.Same fs k s) : State.Same fs k rr := by
  refine State.Same.run (fun s hs => ?_) hs ht
  try dsimp only
  with_reducible repeat' first
    | assumption | exact State.Sub.of rfl hm | apply State.restoreStart_same | apply State.onlyIf_same | intro _ _ | split
    | dsimp only

theorem execRestored_same {fs : Nat} {k : State} (hm : State.Sub 0x1bfffffffffe fs) {s : State} {rr : State} (ht :
  execRestored s = .next rr) (hs : State.Same fs k s) : State.Same fs k rr := by
  refine State.Same.run (fun s hs => ?_) hs ht
  try dsimp only
  with_reducible repeat' first
    | assumption | exact State.Sub.of rfl hm | apply State.restoreEnd_same | apply State.onlyIf_same | intro _ _ | split
    | dsimp only

theorem State.saveWords_same {fs : Nat} {k : State} (hm : State.Sub 0x30000000000 fs) (s : State) (x : SaveRun) (n :
  Nat) (hs : State.Same fs k s) : State.Same fs k (State.saveWords s x n) := by
  unfold State.saveWords
  try dsimp only
  with_reducible repeat' first
    | assumption | exact State.Sub.of rfl hm | apply State.setCopy_same | intro _ _ | split | dsimp only
    | refine State.Same.upd_10000000000 ?_ ?_

theorem State.saveGoes_same {fs : Nat} {k : State} (hm : State.Sub 0x30000000004 fs) (s : State) (hs : State.Same fs
  k s) : State.Same fs k (State.saveGoes s) := by
  unfold State.saveGoes
  try dsimp only
  with_reducible repeat' first
    | assumption | exact State.Sub.of rfl hm | apply State.saveWords_same | apply State.drawn_same | intro _ _ | split
    | dsimp only

end Sys2Proof.Machine
end

