-- ==== Sys2Proof/Laws/SameControl.lean ====
section
/-! SUPPORT. State.Same, one lemma for each function of the state: the Forester, the mailbox, the span and table commands and time. -/

namespace Sys2Proof.Machine

/-! ### Forester -/

theorem State.withSeed_same {fs : Nat} {k : State} (hm : State.Sub 0x40000000004 fs) (s : State) (target : Nat) (hs :
  State.Same fs k s) : State.Same fs k (State.withSeed s target) := by
  unfold State.withSeed
  try dsimp only
  with_reducible repeat' first
    | assumption | exact State.Sub.of rfl hm | intro _ _ | split | dsimp only | refine State.Same.upd_40000000004 ?_ ?_

theorem State.lifeWrite_same {fs : Nat} {k : State} (hm : State.Sub 0x58b120c2014 fs) (s : State) (hs : State.Same fs
  k s) : State.Same fs k (State.lifeWrite s) := by
  unfold State.lifeWrite
  try dsimp only
  with_reducible repeat' first
    | assumption | exact State.Sub.of rfl hm | apply State.pcieDown_same | apply State.withSeed_same | intro _ _ | split
    | dsimp only | refine State.Same.upd_50000000000 ?_ ?_

theorem State.setHolder_same {fs : Nat} {k : State} (hm : State.Sub 0x18000000010 fs) (s : State) (holder : Nat) (hs
  : State.Same fs k s) : State.Same fs k (State.setHolder s holder) := by
  unfold State.setHolder
  try dsimp only
  with_reducible repeat' first
    | assumption | exact State.Sub.of rfl hm | apply State.raise_same | intro _ _ | split | dsimp only
    | refine State.Same.upd_10000000000 ?_ ?_

theorem State.newHead_same {fs : Nat} {k : State} (hm : State.Sub 0x1a000000014 fs) (s : State) (c : Nat) (hs :
  State.Same fs k s) : State.Same fs k (State.newHead s c) := by
  unfold State.newHead
  try dsimp only
  with_reducible repeat' first
    | assumption | exact State.Sub.of rfl hm | apply State.headSetpoint_same | apply State.onlyIf_same
    | apply State.longSync_same | apply State.setCluster_same | apply State.setHolder_same | intro _ _ | split | dsimp only
    | refine State.Same.upd_10000000000 ?_ ?_

theorem State.claimed_same {fs : Nat} {k : State} (hm : State.Sub 0x1a000000014 fs) (s : State) (c : Nat) (hs :
  State.Same fs k s) : State.Same fs k (State.claimed s c) := by
  unfold State.claimed
  try dsimp only
  with_reducible repeat' first
    | assumption | exact State.Sub.of rfl hm | apply State.newHead_same | intro _ _ | split | dsimp only
    | refine State.Same.upd_10000000000 ?_ ?_

theorem State.mismatch_same {fs : Nat} {k : State} (hm : State.Sub 0x18000000010 fs) (s : State) (c : Nat) (hs :
  State.Same fs k s) : State.Same fs k (State.mismatch s c) := by
  unfold State.mismatch
  try dsimp only
  with_reducible repeat' first
    | assumption | exact State.Sub.of rfl hm | apply State.raiseIf_same | apply State.setCluster_same
    | apply State.sourceMsg_same | apply State.setHolder_same | intro _ _ | split | dsimp only

theorem execLockstepMismatch_same {fs : Nat} {k : State} (hm : State.Sub 0x18000000010 fs) {cl : Half} {s : State}
  {rr : State} (ht : execLockstepMismatch cl s = .next rr) (hs : State.Same fs k s) : State.Same fs k rr := by
  refine State.Same.run (fun s hs => ?_) hs ht
  try dsimp only
  with_reducible repeat' first
    | assumption | exact State.Sub.of rfl hm | apply State.mismatch_same | intro _ _ | split | dsimp only

theorem State.booted_same {fs : Nat} {k : State} (hm : State.Sub 0x110000000000 fs) (s : State) (c : Nat) (slot :
  Nat) (i : Image) (hs : State.Same fs k s) : State.Same fs k (State.booted s c slot i) := by
  unfold State.booted
  try dsimp only
  with_reducible repeat' first
    | assumption | exact State.Sub.of rfl hm | apply State.extend_same | apply State.setCluster_same | intro _ _ | split
    | dsimp only | refine State.Same.upd_110000000000 ?_ ?_

theorem State.bootDone_same {fs : Nat} {k : State} (hm : State.Sub 0x110000000000 fs) (s : State) (c : Nat) (fl :
  BootFlash) (hs : State.Same fs k s) : State.Same fs k (State.bootDone s c fl) := by
  unfold State.bootDone
  try dsimp only
  with_reducible repeat' first
    | assumption | exact State.Sub.of rfl hm | apply State.setCluster_same | apply State.booted_same | intro _ _ | split
    | dsimp only

theorem State.lapse_same {fs : Nat} {k : State} (hm : State.Sub 0x18000000010 fs) (s : State) (hs : State.Same fs k
  s) : State.Same fs k (State.lapse s) := by
  unfold State.lapse
  try dsimp only
  with_reducible repeat' first
    | assumption | exact State.Sub.of rfl hm | apply State.setHolder_same | apply State.sourceMsg_same | intro _ _ | split
    | dsimp only

theorem State.winTie_same {fs : Nat} {k : State} (hm : State.Sub 0x18000000010 fs) (s : State) (c : Nat) (hs :
  State.Same fs k s) : State.Same fs k (State.winTie s c) := by
  unfold State.winTie
  try dsimp only
  with_reducible repeat' first
    | assumption | exact State.Sub.of rfl hm | apply State.sourceMsg_same | apply State.setCluster_same | intro _ _ | split
    | dsimp only | refine State.Same.upd_10000000000 ?_ ?_

theorem State.claim_same {fs : Nat} {k : State} (hm : State.Sub 0x1a000000014 fs) (s : State) (c : Nat) (expected :
  Word) (hs : State.Same fs k s) : State.Same fs k (State.claim s c expected) := by
  unfold State.claim
  try dsimp only
  with_reducible repeat' first
    | assumption | exact State.Sub.of rfl hm | apply State.claimed_same | apply State.sourceMsg_same
    | apply State.winTie_same | intro _ _ | split | dsimp only

theorem execHeadClaim_same {fs : Nat} {k : State} (hm : State.Sub 0x1a000000014 fs) {cl : Half} {expected : Word} {s
  : State} {rr : State} (ht : execHeadClaim cl expected s = .next rr) (hs : State.Same fs k s) : State.Same fs k rr
  := by
  refine State.Same.run (fun s hs => ?_) hs ht
  try dsimp only
  with_reducible repeat' first
    | assumption | exact State.Sub.of rfl hm | apply State.claim_same | intro _ _ | split | dsimp only

theorem State.uartImage_same {fs : Nat} {k : State} (hm : State.Sub 0x110000000000 fs) (s : State) (c : Nat) (b :
  List Byte) (hs : State.Same fs k s) : State.Same fs k (State.uartImage s c b) := by
  unfold State.uartImage
  try dsimp only
  with_reducible repeat' first
    | assumption | exact State.Sub.of rfl hm | apply State.booted_same | intro _ _ | split | dsimp only

theorem execRecoveryImage_same {fs : Nat} {k : State} (hm : State.Sub 0x110000000000 fs) {cl : Half} {img : List
  Byte} {s : State} {rr : State} (ht : execRecoveryImage cl img s = .next rr) (hs : State.Same fs k s) : State.Same
  fs k rr := by
  refine State.Same.run (fun s hs => ?_) hs ht
  try dsimp only
  with_reducible repeat' first
    | assumption | exact State.Sub.of rfl hm | apply State.uartImage_same | intro _ _ | split | dsimp only

theorem execClusterBootDone_same {fs : Nat} {k : State} (hm : State.Sub 0x110000000000 fs) {cl : Half} {flash :
  BootFlash} {s : State} {rr : State} (ht : execClusterBootDone cl flash s = .next rr) (hs : State.Same fs k s) :
  State.Same fs k rr := by
  refine State.Same.run (fun s hs => ?_) hs ht
  try dsimp only
  with_reducible repeat' first
    | assumption | exact State.Sub.of rfl hm | apply State.bootDone_same | intro _ _ | split | dsimp only

theorem execLcFuseWrite_same {fs : Nat} {k : State} (hm : State.Sub 0x58b120c2014 fs) {s : State} {rr : State} (ht :
  execLcFuseWrite s = .next rr) (hs : State.Same fs k s) : State.Same fs k rr := by
  refine State.Same.run (fun s hs => ?_) hs ht
  try dsimp only
  with_reducible repeat' first
    | assumption | exact State.Sub.of rfl hm | apply State.lifeWrite_same | intro _ _ | split | dsimp only

theorem State.histCopy_same {fs : Nat} {k : State} (hm : State.Sub 0x20000000000 fs) (s : State) (day : Bool) (q :
  Nat) (hs : State.Same fs k s) : State.Same fs k (State.histCopy s day q) := by
  unfold State.histCopy
  try dsimp only
  with_reducible repeat' first
    | assumption | exact State.Sub.of rfl hm | intro _ _ | split | dsimp only | refine State.Same.upd_20000000000 ?_ ?_

theorem State.histCopies_same {fs : Nat} {k : State} (hm : State.Sub 0x20000000000 fs) (s : State) (day : Bool) (x2 :
  List Nat) (hs : State.Same fs k s) : State.Same fs k (State.histCopies s day x2) := by
  induction x2 generalizing s day with
  | nil =>
    unfold State.histCopies
    try dsimp only
    with_reducible repeat' first
      | assumption | exact State.Sub.of rfl hm | apply State.histCopy_same | intro _ _ | split | dsimp only
  | cons a l ih =>
    unfold State.histCopies
    try dsimp only
    with_reducible repeat' first
      | assumption | exact State.Sub.of rfl hm | apply ih | apply State.histCopy_same | intro _ _ | split | dsimp only

theorem execLeaseExpire_same {fs : Nat} {k : State} (hm : State.Sub 0x18000000010 fs) {s : State} {rr : State} (ht :
  execLeaseExpire s = .next rr) (hs : State.Same fs k s) : State.Same fs k rr := by
  refine State.Same.run (fun s hs => ?_) hs ht
  try dsimp only
  with_reducible repeat' first
    | assumption | exact State.Sub.of rfl hm | apply State.lapse_same | intro _ _ | split | dsimp only

theorem State.renew_same {fs : Nat} {k : State} (hm : State.Sub 0x10000000000 fs) (s : State) (c : Nat) (hs :
  State.Same fs k s) : State.Same fs k (State.renew s c) := by
  unfold State.renew
  try dsimp only
  with_reducible repeat' first
    | assumption | exact State.Sub.of rfl hm | intro _ _ | split | dsimp only | refine State.Same.upd_10000000000 ?_ ?_

theorem execLeaseRenew_same {fs : Nat} {k : State} (hm : State.Sub 0x10000000000 fs) {cl : Half} {s : State} {rr :
  State} (ht : execLeaseRenew cl s = .next rr) (hs : State.Same fs k s) : State.Same fs k rr := by
  refine State.Same.run (fun s hs => ?_) hs ht
  try dsimp only
  with_reducible repeat' first
    | assumption | exact State.Sub.of rfl hm | apply State.renew_same | intro _ _ | split | dsimp only

theorem execPmHistoryCopy_same {fs : Nat} {k : State} (hm : State.Sub 0x20000000000 fs) {day : Bool} {s : State} {rr
  : State} (ht : execPmHistoryCopy day s = .next rr) (hs : State.Same fs k s) : State.Same fs k rr := by
  refine State.Same.run (fun s hs => ?_) hs ht
  try dsimp only
  with_reducible repeat' first
    | assumption | exact State.Sub.of rfl hm | apply State.histCopies_same | apply State.onlyIf_same | intro _ _ | split
    | dsimp only

/-! ### Lookout -/

theorem State.report_same {fs : Nat} {k : State} (hm : State.Sub 0x8000000010 fs) (s : State) (q : MsgQueue) (m :
  Message) (hs : State.Same fs k s) : State.Same fs k (State.report s q m) := by
  unfold State.report
  try dsimp only
  with_reducible repeat' first
    | assumption | exact State.Sub.of rfl hm | apply State.sourceMsg_same | intro _ _ | split | dsimp only

theorem execLookoutMessage_same {fs : Nat} {k : State} (hm : State.Sub 0x11dbbffdf8dc fs) {fab : MsgQueue} {report :
  Option Message} {s : State} {rr : State} (ht : execLookoutMessage fab report s = .next rr) (hs : State.Same fs k s)
  : State.Same fs k rr := by
  refine State.Same.run (fun s hs => ?_) hs ht
  try dsimp only
  with_reducible repeat' first
    | assumption | exact State.Sub.of rfl hm | apply State.takeNext_same | apply State.onlyIf_same
    | apply State.report_same | intro _ _ | split | dsimp only

theorem State.trapTake_same {fs : Nat} {k : State} (hm : State.Sub 0x18000000010 fs) (s : State) (hs : State.Same fs
  k s) : State.Same fs k (State.trapTake s) := by
  unfold State.trapTake
  try dsimp only
  with_reducible repeat' first
    | assumption | exact State.Sub.of rfl hm | apply State.raise_same | apply State.longCopy_same
    | apply State.setLook_same | apply State.count_same | intro _ _ | split | dsimp only
    | refine State.Same.upd_10000000000 ?_ ?_

theorem execFaultPulseEnd_same {fs : Nat} {k : State} (hm : State.Sub 0x8000000008 fs) {s : State} {rr : State} (ht :
  execFaultPulseEnd s = .next rr) (hs : State.Same fs k s) : State.Same fs k rr := by
  refine State.Same.runAlways (fun s hs => ?_) hs ht
  try dsimp only
  with_reducible repeat' first
    | assumption | exact State.Sub.of rfl hm | apply State.setLook_same | apply State.pinRise_same | intro _ _ | split
    | dsimp only

theorem execLevelRiseWithoutMessage_same {fs : Nat} {k : State} (hm : State.Sub 0x10dbbffdf8dc fs) {n : Fin 512} {s :
  State} {rr : State} (ht : execLevelRiseWithoutMessage n s = .next rr) (hs : State.Same fs k s) : State.Same fs k rr
  := by
  refine State.Same.run (fun s hs => ?_) hs ht
  try dsimp only
  with_reducible repeat' first
    | assumption | exact State.Sub.of rfl hm | apply State.levelRise_same | apply State.onlyIf_same | intro _ _ | split
    | dsimp only

theorem execTrapDeliver_same {fs : Nat} {k : State} (hm : State.Sub 0x18000000010 fs) {s : State} {rr : State} (ht :
  execTrapDeliver s = .next rr) (hs : State.Same fs k s) : State.Same fs k rr := by
  refine State.Same.run (fun s hs => ?_) hs ht
  try dsimp only
  with_reducible repeat' first
    | assumption | exact State.Sub.of rfl hm | apply State.trapTake_same | apply State.onlyIf_same | intro _ _ | split
    | dsimp only

theorem execFatalWr_same {fs : Nat} {k : State} (hm : State.Sub 0x1bfffffffff2 fs) {ok : Bool} {s : State} {rr :
  State} (ht : execFatalWr ok s = .next rr) (hs : State.Same fs k s) : State.Same fs k rr := by
  refine State.Same.runAlways (fun s hs => ?_) hs ht
  try dsimp only
  with_reducible repeat' first
    | assumption | exact State.Sub.of rfl hm | apply State.fatalWritten_same | intro _ _ | split | dsimp only

/-! ### Mailbox -/

theorem State.mbNeeds_same {fs : Nat} {k : State} (hm : State.Sub 0x0 fs) (s : State) (n : Nat) (f : State → State ×
  MbResult) (hs : State.Same fs k s) (hf : ∀ s, State.Same fs k s → State.Same fs k (f s).1) : State.Same fs k
  (State.mbNeeds s n f).1 := by
  unfold State.mbNeeds
  try dsimp only
  with_reducible repeat' first
    | assumption | apply hf | exact State.Sub.of rfl hm | intro _ _ | split | dsimp only

theorem State.mbNeeds_same_eq {fs : Nat} {k : State} (hm : State.Sub 0x0 fs) {s : State} {n : Nat} {f : State → State
  × MbResult} {ra rb} (ht : State.mbNeeds s n f = (ra, rb)) (hs : State.Same fs k s) (hf : ∀ s, State.Same fs k s →
  State.Same fs k (f s).1) : State.Same fs k ra := by
  have := State.mbNeeds_same (k := k) hm s n f hs hf
  rw [ht] at this
  exact this

theorem State.mbPm_same {fs : Nat} {k : State} (hm : State.Sub 0x0 fs) (s : State) (hs : State.Same fs k s) :
  State.Same fs k (State.mbPm s).1 := by
  unfold State.mbPm
  try dsimp only
  with_reducible repeat' first
    | assumption | exact State.Sub.of rfl hm | apply State.mbNeeds_same
    | refine State.mbNeeds_same_eq ?_ (by assumption) ?_ | intro _ _ | split | dsimp only

theorem State.mbPm_same_eq {fs : Nat} {k : State} (hm : State.Sub 0x0 fs) {s : State} {ra rb} (ht : State.mbPm s =
  (ra, rb)) (hs : State.Same fs k s) : State.Same fs k ra := by
  have := State.mbPm_same (k := k) hm s hs
  rw [ht] at this
  exact this

theorem State.setMb_same {fs : Nat} {k : State} (hm : State.Sub 0x10000000000 fs) (s : State) (m : MbS) (hs :
  State.Same fs k s) : State.Same fs k (State.setMb s m) := by
  unfold State.setMb
  try dsimp only
  with_reducible repeat' first
    | assumption | exact State.Sub.of rfl hm | intro _ _ | split | dsimp only | refine State.Same.upd_10000000000 ?_ ?_

theorem State.mbAct_same {fs : Nat} {k : State} (hm : State.Sub 0x10000000000 fs) (s : State) (op : Nat) (f : State →
  State × MbResult) (hs : State.Same fs k s) (hf : ∀ s, State.Same fs k s → State.Same fs k (f s).1) : State.Same fs
  k (State.mbAct s op f) := by
  unfold State.mbAct
  try dsimp only
  with_reducible repeat' first
    | assumption | apply hf | exact State.Sub.of rfl hm | apply State.setMb_same | intro _ _ | split | dsimp only

theorem execPmRead_same {fs : Nat} {k : State} (hm : State.Sub 0x10000000000 fs) {s : State} {rr : State} (ht :
  execPmRead s = .next rr) (hs : State.Same fs k s) : State.Same fs k rr := by
  refine State.Same.run (fun s hs => ?_) hs ht
  try dsimp only
  with_reducible repeat' first
    | assumption | exact State.Sub.of rfl hm | apply State.mbPm_same | refine State.mbPm_same_eq ?_ (by assumption) ?_
    | apply State.mbAct_same | intro _ _ | split | dsimp only

theorem State.mbChRead_same {fs : Nat} {k : State} (hm : State.Sub 0x1000 fs) (s : State) (hs : State.Same fs k s) :
  State.Same fs k (State.mbChRead s).1 := by
  unfold State.mbChRead
  try dsimp only
  with_reducible repeat' first
    | assumption | exact State.Sub.of rfl hm | apply State.setSpan_same | apply State.mbNeeds_same
    | refine State.mbNeeds_same_eq ?_ (by assumption) ?_ | intro _ _ | split | dsimp only

theorem State.mbChRead_same_eq {fs : Nat} {k : State} (hm : State.Sub 0x1000 fs) {s : State} {ra rb} (ht :
  State.mbChRead s = (ra, rb)) (hs : State.Same fs k s) : State.Same fs k ra := by
  have := State.mbChRead_same (k := k) hm s hs
  rw [ht] at this
  exact this

theorem execChRead_same {fs : Nat} {k : State} (hm : State.Sub 0x10000001000 fs) {s : State} {rr : State} (ht :
  execChRead s = .next rr) (hs : State.Same fs k s) : State.Same fs k rr := by
  refine State.Same.run (fun s hs => ?_) hs ht
  try dsimp only
  with_reducible repeat' first
    | assumption | exact State.Sub.of rfl hm | apply State.mbChRead_same
    | refine State.mbChRead_same_eq ?_ (by assumption) ?_ | apply State.mbAct_same | intro _ _ | split | dsimp only

theorem State.mbSettle_same {fs : Nat} {k : State} (hm : State.Sub 0x130000000010 fs) (s : State) (r : MbResult) (hs
  : State.Same fs k s) : State.Same fs k (State.mbSettle s r).1 := by
  unfold State.mbSettle
  try dsimp only
  with_reducible repeat' first
    | assumption | exact State.Sub.of rfl hm | apply State.saveEnd_same | intro _ _ | split | dsimp only
    | refine State.Same.upd_10000000000 ?_ ?_

theorem State.mbSettle_same_eq {fs : Nat} {k : State} (hm : State.Sub 0x130000000010 fs) {s : State} {r : MbResult}
  {ra rb} (ht : State.mbSettle s r = (ra, rb)) (hs : State.Same fs k s) : State.Same fs k ra := by
  have := State.mbSettle_same (k := k) hm s r hs
  rw [ht] at this
  exact this

theorem State.putRsp_same {fs : Nat} {k : State} (hm : State.Sub 0x10 fs) (s : State) (x1 : Nat) (x2 : List Word) (hs
  : State.Same fs k s) : State.Same fs k (State.putRsp s x1 x2) := by
  induction x2 generalizing s x1 with
  | nil =>
    unfold State.putRsp
    try dsimp only
    with_reducible repeat' first
      | assumption | exact State.Sub.of rfl hm | apply State.setReg_same | intro _ _ | split | dsimp only
  | cons a l ih =>
    unfold State.putRsp
    try dsimp only
    with_reducible repeat' first
      | assumption | exact State.Sub.of rfl hm | apply ih | apply State.setReg_same | intro _ _ | split | dsimp only

theorem State.mbPublish_same {fs : Nat} {k : State} (hm : State.Sub 0x18000000618 fs) (s : State) (r : MbResult) (hs
  : State.Same fs k s) : State.Same fs k (State.mbPublish s r) := by
  unfold State.mbPublish
  try dsimp only
  with_reducible repeat' first
    | assumption | exact State.Sub.of rfl hm | apply State.fwEnd_same | apply State.raise_same | apply State.setMb_same
    | apply State.setReg_same | apply State.putRsp_same | apply State.emit_same | intro _ _ | split | dsimp only

theorem State.mbComplete_same {fs : Nat} {k : State} (hm : State.Sub 0x138000000618 fs) (s : State) (hs : State.Same
  fs k s) : State.Same fs k (State.mbComplete s) := by
  unfold State.mbComplete
  try dsimp only
  with_reducible repeat' first
    | assumption | exact State.Sub.of rfl hm | apply State.mbSettle_same
    | refine State.mbSettle_same_eq ?_ (by assumption) ?_ | apply State.mbPublish_same | intro _ _ | split | dsimp only

theorem State.mbTell_same {fs : Nat} {k : State} (hm : State.Sub 0x10000000000 fs) (s : State) (op : Nat) (f : State
  → MbResult) (hs : State.Same fs k s) : State.Same fs k (State.mbTell s op f) := by
  unfold State.mbTell
  try dsimp only
  with_reducible repeat' first
    | assumption | exact State.Sub.of rfl hm | apply State.mbAct_same | intro _ _ | split | dsimp only

theorem execInfo_same {fs : Nat} {k : State} (hm : State.Sub 0x10000000000 fs) {s : State} {rr : State} (ht :
  execInfo s = .next rr) (hs : State.Same fs k s) : State.Same fs k rr := by
  refine State.Same.run (fun s hs => ?_) hs ht
  try dsimp only
  with_reducible repeat' first
    | assumption | exact State.Sub.of rfl hm | apply State.mbTell_same | intro _ _ | split | dsimp only

theorem execIdent_same {fs : Nat} {k : State} (hm : State.Sub 0x10000000000 fs) {s : State} {rr : State} (ht :
  execIdent s = .next rr) (hs : State.Same fs k s) : State.Same fs k rr := by
  refine State.Same.run (fun s hs => ?_) hs ht
  try dsimp only
  with_reducible repeat' first
    | assumption | exact State.Sub.of rfl hm | apply State.mbTell_same | intro _ _ | split | dsimp only

theorem State.mbFatal_same {fs : Nat} {k : State} (hm : State.Sub 0x0 fs) (s : State) (hs : State.Same fs k s) :
  State.Same fs k (State.mbFatal s).1 := by
  unfold State.mbFatal
  try dsimp only
  with_reducible repeat' first
    | assumption | exact State.Sub.of rfl hm | apply State.mbNeeds_same
    | refine State.mbNeeds_same_eq ?_ (by assumption) ?_ | intro _ _ | split | dsimp only

theorem State.mbFatal_same_eq {fs : Nat} {k : State} (hm : State.Sub 0x0 fs) {s : State} {ra rb} (ht : State.mbFatal
  s = (ra, rb)) (hs : State.Same fs k s) : State.Same fs k ra := by
  have := State.mbFatal_same (k := k) hm s hs
  rw [ht] at this
  exact this

theorem execFatalRead_same {fs : Nat} {k : State} (hm : State.Sub 0x10000000000 fs) {s : State} {rr : State} (ht :
  execFatalRead s = .next rr) (hs : State.Same fs k s) : State.Same fs k rr := by
  refine State.Same.run (fun s hs => ?_) hs ht
  try dsimp only
  with_reducible repeat' first
    | assumption | exact State.Sub.of rfl hm | apply State.mbFatal_same
    | refine State.mbFatal_same_eq ?_ (by assumption) ?_ | apply State.mbAct_same | intro _ _ | split | dsimp only

theorem State.mbSensors_same {fs : Nat} {k : State} (hm : State.Sub 0x10 fs) (s : State) (words : List Word) (hs :
  State.Same fs k s) : State.Same fs k (State.mbSensors s words).1 := by
  unfold State.mbSensors
  try dsimp only
  with_reducible repeat' first
    | assumption | exact State.Sub.of rfl hm | apply State.setRf_same | intro _ _ | split | dsimp only

theorem State.mbSensors_same_eq {fs : Nat} {k : State} (hm : State.Sub 0x10 fs) {s : State} {words : List Word} {ra
  rb} (ht : State.mbSensors s words = (ra, rb)) (hs : State.Same fs k s) : State.Same fs k ra := by
  have := State.mbSensors_same (k := k) hm s words hs
  rw [ht] at this
  exact this

theorem execSensors_same {fs : Nat} {k : State} (hm : State.Sub 0x10000000010 fs) {r : RailTelemetry} {s : State} {rr
  : State} (ht : execSensors r s = .next rr) (hs : State.Same fs k s) : State.Same fs k rr := by
  refine State.Same.run (fun s hs => ?_) hs ht
  try dsimp only
  with_reducible repeat' first
    | assumption | exact State.Sub.of rfl hm | apply State.mbSensors_same
    | refine State.mbSensors_same_eq ?_ (by assumption) ?_ | apply State.mbAct_same | intro _ _ | split | dsimp only

theorem State.flashSlot_same {fs : Nat} {k : State} (hm : State.Sub 0x1000000000c fs) (s : State) (x1 : Nat) (b :
  List Byte) (i : Image) (hs : State.Same fs k s) : State.Same fs k (State.flashSlot s x1 b i).1 := by
  unfold State.flashSlot
  try dsimp only
  with_reducible repeat' first
    | assumption | exact State.Sub.of rfl hm | apply State.emit_same | apply State.drawn_same | intro _ _ | split
    | dsimp only | refine State.Same.upd_10000000000 ?_ ?_

theorem State.flashSlot_same_eq {fs : Nat} {k : State} (hm : State.Sub 0x1000000000c fs) {s : State} {x1 : Nat} {b :
  List Byte} {i : Image} {ra rb} (ht : State.flashSlot s x1 b i = (ra, rb)) (hs : State.Same fs k s) : State.Same fs
  k ra := by
  have := State.flashSlot_same (k := k) hm s x1 b i hs
  rw [ht] at this
  exact this

theorem State.stage_same {fs : Nat} {k : State} (hm : State.Sub 0x1000000000c fs) (s : State) (b : List Byte) (i :
  Image) (hs : State.Same fs k s) : State.Same fs k (State.stage s b i).1 := by
  unfold State.stage
  try dsimp only
  with_reducible repeat' first
    | assumption | exact State.Sub.of rfl hm | apply State.flashSlot_same
    | refine State.flashSlot_same_eq ?_ (by assumption) ?_ | intro _ _ | split | dsimp only
    | refine State.Same.upd_10000000000 ?_ ?_

theorem State.stage_same_eq {fs : Nat} {k : State} (hm : State.Sub 0x1000000000c fs) {s : State} {b : List Byte} {i :
  Image} {ra rb} (ht : State.stage s b i = (ra, rb)) (hs : State.Same fs k s) : State.Same fs k ra := by
  have := State.stage_same (k := k) hm s b i hs
  rw [ht] at this
  exact this

theorem State.mbNoHeadEnd_same {fs : Nat} {k : State} (hm : State.Sub 0x18000000618 fs) (s : State) (hs : State.Same
  fs k s) : State.Same fs k (State.mbNoHeadEnd s) := by
  unfold State.mbNoHeadEnd
  try dsimp only
  with_reducible repeat' first
    | assumption | exact State.Sub.of rfl hm | apply State.mbPublish_same | intro _ _ | split | dsimp only

theorem execNoHead_same {fs : Nat} {k : State} (hm : State.Sub 0x18000000618 fs) {s : State} {rr : State} (ht :
  execNoHead s = .next rr) (hs : State.Same fs k s) : State.Same fs k rr := by
  refine State.Same.run (fun s hs => ?_) hs ht
  try dsimp only
  with_reducible repeat' first
    | assumption | exact State.Sub.of rfl hm | apply State.mbNoHeadEnd_same | intro _ _ | split | dsimp only

theorem State.mbAttest_same {fs : Nat} {k : State} (hm : State.Sub 0x4 fs) (s : State) (hs : State.Same fs k s) :
  State.Same fs k (State.mbAttest s).1 := by
  unfold State.mbAttest
  try dsimp only
  with_reducible repeat' first
    | assumption | exact State.Sub.of rfl hm | intro _ _ | split | dsimp only | refine State.Same.upd_4 ?_ ?_

theorem State.mbAttest_same_eq {fs : Nat} {k : State} (hm : State.Sub 0x4 fs) {s : State} {ra rb} (ht :
  State.mbAttest s = (ra, rb)) (hs : State.Same fs k s) : State.Same fs k ra := by
  have := State.mbAttest_same (k := k) hm s hs
  rw [ht] at this
  exact this

theorem execAttest_same {fs : Nat} {k : State} (hm : State.Sub 0x10000000004 fs) {s : State} {rr : State} (ht :
  execAttest s = .next rr) (hs : State.Same fs k s) : State.Same fs k rr := by
  refine State.Same.run (fun s hs => ?_) hs ht
  try dsimp only
  with_reducible repeat' first
    | assumption | exact State.Sub.of rfl hm | apply State.mbAttest_same
    | refine State.mbAttest_same_eq ?_ (by assumption) ?_ | apply State.mbAct_same | intro _ _ | split | dsimp only

theorem State.mbAdvance_same {fs : Nat} {k : State} (hm : State.Sub 0x10000000000 fs) (s : State) (img : List Byte)
  (hs : State.Same fs k s) : State.Same fs k (State.mbAdvance s img).1 := by
  unfold State.mbAdvance
  try dsimp only
  with_reducible repeat' first
    | assumption | exact State.Sub.of rfl hm | apply State.mbNeeds_same
    | refine State.mbNeeds_same_eq ?_ (by assumption) ?_ | intro _ _ | split | dsimp only
    | refine State.Same.upd_10000000000 ?_ ?_

theorem State.mbAdvance_same_eq {fs : Nat} {k : State} (hm : State.Sub 0x10000000000 fs) {s : State} {img : List
  Byte} {ra rb} (ht : State.mbAdvance s img = (ra, rb)) (hs : State.Same fs k s) : State.Same fs k ra := by
  have := State.mbAdvance_same (k := k) hm s img hs
  rw [ht] at this
  exact this

theorem State.mbHandover_same {fs : Nat} {k : State} (hm : State.Sub 0x1a000000014 fs) (s : State) (hs : State.Same
  fs k s) : State.Same fs k (State.mbHandover s).1 := by
  unfold State.mbHandover
  try dsimp only
  with_reducible repeat' first
    | assumption | exact State.Sub.of rfl hm | apply State.setCluster_same | apply State.newHead_same | intro _ _ | split
    | dsimp only

theorem State.mbHandover_same_eq {fs : Nat} {k : State} (hm : State.Sub 0x1a000000014 fs) {s : State} {ra rb} (ht :
  State.mbHandover s = (ra, rb)) (hs : State.Same fs k s) : State.Same fs k ra := by
  have := State.mbHandover_same (k := k) hm s hs
  rw [ht] at this
  exact this

theorem State.mbStage_same {fs : Nat} {k : State} (hm : State.Sub 0x1000000000c fs) (s : State) (img : List Byte) (hs
  : State.Same fs k s) : State.Same fs k (State.mbStage s img).1 := by
  unfold State.mbStage
  try dsimp only
  with_reducible repeat' first
    | assumption | exact State.Sub.of rfl hm | apply State.stage_same | refine State.stage_same_eq ?_ (by assumption) ?_
    | apply State.mbNeeds_same | refine State.mbNeeds_same_eq ?_ (by assumption) ?_ | intro _ _ | split | dsimp only

theorem State.mbStage_same_eq {fs : Nat} {k : State} (hm : State.Sub 0x1000000000c fs) {s : State} {img : List Byte}
  {ra rb} (ht : State.mbStage s img = (ra, rb)) (hs : State.Same fs k s) : State.Same fs k ra := by
  have := State.mbStage_same (k := k) hm s img hs
  rw [ht] at this
  exact this

theorem State.mbTraps_same {fs : Nat} {k : State} (hm : State.Sub 0x10000000000 fs) (s : State) (hs : State.Same fs k
  s) : State.Same fs k (State.mbTraps s).1 := by
  unfold State.mbTraps
  try dsimp only
  with_reducible repeat' first
    | assumption | exact State.Sub.of rfl hm | intro _ _ | split | dsimp only | refine State.Same.upd_10000000000 ?_ ?_

theorem State.mbTraps_same_eq {fs : Nat} {k : State} (hm : State.Sub 0x10000000000 fs) {s : State} {ra rb} (ht :
  State.mbTraps s = (ra, rb)) (hs : State.Same fs k s) : State.Same fs k ra := by
  have := State.mbTraps_same (k := k) hm s hs
  rw [ht] at this
  exact this

theorem execTrapRead_same {fs : Nat} {k : State} (hm : State.Sub 0x10000000000 fs) {s : State} {rr : State} (ht :
  execTrapRead s = .next rr) (hs : State.Same fs k s) : State.Same fs k rr := by
  refine State.Same.run (fun s hs => ?_) hs ht
  try dsimp only
  with_reducible repeat' first
    | assumption | exact State.Sub.of rfl hm | apply State.mbTraps_same
    | refine State.mbTraps_same_eq ?_ (by assumption) ?_ | apply State.mbAct_same | intro _ _ | split | dsimp only

theorem State.mbChWrite_same {fs : Nat} {k : State} (hm : State.Sub 0x1000 fs) (s : State) (hs : State.Same fs k s) :
  State.Same fs k (State.mbChWrite s).1 := by
  unfold State.mbChWrite
  try dsimp only
  with_reducible repeat' first
    | assumption | exact State.Sub.of rfl hm | apply State.setSpan_same | apply State.mbNeeds_same
    | refine State.mbNeeds_same_eq ?_ (by assumption) ?_ | intro _ _ | split | dsimp only

theorem State.mbChWrite_same_eq {fs : Nat} {k : State} (hm : State.Sub 0x1000 fs) {s : State} {ra rb} (ht :
  State.mbChWrite s = (ra, rb)) (hs : State.Same fs k s) : State.Same fs k ra := by
  have := State.mbChWrite_same (k := k) hm s hs
  rw [ht] at this
  exact this

theorem execChWrite_same {fs : Nat} {k : State} (hm : State.Sub 0x10000001000 fs) {s : State} {rr : State} (ht :
  execChWrite s = .next rr) (hs : State.Same fs k s) : State.Same fs k rr := by
  refine State.Same.run (fun s hs => ?_) hs ht
  try dsimp only
  with_reducible repeat' first
    | assumption | exact State.Sub.of rfl hm | apply State.mbChWrite_same
    | refine State.mbChWrite_same_eq ?_ (by assumption) ?_ | apply State.mbAct_same | intro _ _ | split | dsimp only

theorem State.mbSvn_same {fs : Nat} {k : State} (hm : State.Sub 0x40000000000 fs) (s : State) (hs : State.Same fs k
  s) : State.Same fs k (State.mbSvn s).1 := by
  unfold State.mbSvn
  try dsimp only
  with_reducible repeat' first
    | assumption | exact State.Sub.of rfl hm | apply State.mbNeeds_same
    | refine State.mbNeeds_same_eq ?_ (by assumption) ?_ | intro _ _ | split | dsimp only
    | refine State.Same.upd_40000000000 ?_ ?_

theorem State.mbSvn_same_eq {fs : Nat} {k : State} (hm : State.Sub 0x40000000000 fs) {s : State} {ra rb} (ht :
  State.mbSvn s = (ra, rb)) (hs : State.Same fs k s) : State.Same fs k ra := by
  have := State.mbSvn_same (k := k) hm s hs
  rw [ht] at this
  exact this

theorem execSvnAdvance_same {fs : Nat} {k : State} (hm : State.Sub 0x50000000000 fs) {s : State} {rr : State} (ht :
  execSvnAdvance s = .next rr) (hs : State.Same fs k s) : State.Same fs k rr := by
  refine State.Same.run (fun s hs => ?_) hs ht
  try dsimp only
  with_reducible repeat' first
    | assumption | exact State.Sub.of rfl hm | apply State.mbSvn_same | refine State.mbSvn_same_eq ?_ (by assumption) ?_
    | apply State.mbAct_same | intro _ _ | split | dsimp only

theorem execMailboxComplete_same {fs : Nat} {k : State} (hm : State.Sub 0x138000000618 fs) {s : State} {rr : State}
  (ht : execMailboxComplete s = .next rr) (hs : State.Same fs k s) : State.Same fs k rr := by
  refine State.Same.run (fun s hs => ?_) hs ht
  try dsimp only
  with_reducible repeat' first
    | assumption | exact State.Sub.of rfl hm | apply State.mbComplete_same | intro _ _ | split | dsimp only

theorem State.mbSave_same {fs : Nat} {k : State} (hm : State.Sub 0x130000000000 fs) (s : State) (hs : State.Same fs k
  s) : State.Same fs k (State.mbSave s).1 := by
  unfold State.mbSave
  try dsimp only
  with_reducible repeat' first
    | assumption | exact State.Sub.of rfl hm | apply State.saveStart_same | intro _ _ | split | dsimp only

theorem State.mbSave_same_eq {fs : Nat} {k : State} (hm : State.Sub 0x130000000000 fs) {s : State} {ra rb} (ht :
  State.mbSave s = (ra, rb)) (hs : State.Same fs k s) : State.Same fs k ra := by
  have := State.mbSave_same (k := k) hm s hs
  rw [ht] at this
  exact this

theorem execCfgSave_same {fs : Nat} {k : State} (hm : State.Sub 0x130000000000 fs) {s : State} {rr : State} (ht :
  execCfgSave s = .next rr) (hs : State.Same fs k s) : State.Same fs k rr := by
  refine State.Same.run (fun s hs => ?_) hs ht
  try dsimp only
  with_reducible repeat' first
    | assumption | exact State.Sub.of rfl hm | apply State.mbSave_same | refine State.mbSave_same_eq ?_ (by assumption) ?_
    | apply State.mbAct_same | intro _ _ | split | dsimp only

theorem State.mbRestart_same {fs : Nat} {k : State} (hm : State.Sub 0x10000000000 fs) (s : State) (hs : State.Same fs
  k s) : State.Same fs k (State.mbRestart s).1 := by
  unfold State.mbRestart
  try dsimp only
  with_reducible repeat' first
    | assumption | exact State.Sub.of rfl hm | apply State.setCluster_same | apply State.mbNeeds_same
    | refine State.mbNeeds_same_eq ?_ (by assumption) ?_ | intro _ _ | split | dsimp only

theorem State.mbRestart_same_eq {fs : Nat} {k : State} (hm : State.Sub 0x10000000000 fs) {s : State} {ra rb} (ht :
  State.mbRestart s = (ra, rb)) (hs : State.Same fs k s) : State.Same fs k ra := by
  have := State.mbRestart_same (k := k) hm s hs
  rw [ht] at this
  exact this

theorem State.mbMeas_same {fs : Nat} {k : State} (hm : State.Sub 0x10000000000 fs) (s : State) (hs : State.Same fs k
  s) : State.Same fs k (State.mbMeas s).1 := by
  unfold State.mbMeas
  try dsimp only
  with_reducible repeat' first
    | assumption | exact State.Sub.of rfl hm | apply State.extend_same | apply State.mbNeeds_same
    | refine State.mbNeeds_same_eq ?_ (by assumption) ?_ | intro _ _ | split | dsimp only

theorem State.mbMeas_same_eq {fs : Nat} {k : State} (hm : State.Sub 0x10000000000 fs) {s : State} {ra rb} (ht :
  State.mbMeas s = (ra, rb)) (hs : State.Same fs k s) : State.Same fs k ra := by
  have := State.mbMeas_same (k := k) hm s hs
  rw [ht] at this
  exact this

theorem execMeasExtend_same {fs : Nat} {k : State} (hm : State.Sub 0x10000000000 fs) {s : State} {rr : State} (ht :
  execMeasExtend s = .next rr) (hs : State.Same fs k s) : State.Same fs k rr := by
  refine State.Same.run (fun s hs => ?_) hs ht
  try dsimp only
  with_reducible repeat' first
    | assumption | exact State.Sub.of rfl hm | apply State.mbMeas_same | refine State.mbMeas_same_eq ?_ (by assumption) ?_
    | apply State.mbAct_same | intro _ _ | split | dsimp only

theorem execHandover_same {fs : Nat} {k : State} (hm : State.Sub 0x1a000000014 fs) {s : State} {rr : State} (ht :
  execHandover s = .next rr) (hs : State.Same fs k s) : State.Same fs k rr := by
  refine State.Same.run (fun s hs => ?_) hs ht
  try dsimp only
  with_reducible repeat' first
    | assumption | exact State.Sub.of rfl hm | apply State.mbHandover_same
    | refine State.mbHandover_same_eq ?_ (by assumption) ?_ | apply State.mbAct_same | intro _ _ | split | dsimp only

theorem State.mbKey_same {fs : Nat} {k : State} (hm : State.Sub 0x40000000000 fs) (s : State) (hs : State.Same fs k
  s) : State.Same fs k (State.mbKey s).1 := by
  unfold State.mbKey
  try dsimp only
  with_reducible repeat' first
    | assumption | exact State.Sub.of rfl hm | apply State.mbNeeds_same
    | refine State.mbNeeds_same_eq ?_ (by assumption) ?_ | intro _ _ | split | dsimp only
    | refine State.Same.upd_40000000000 ?_ ?_

theorem State.mbKey_same_eq {fs : Nat} {k : State} (hm : State.Sub 0x40000000000 fs) {s : State} {ra rb} (ht :
  State.mbKey s = (ra, rb)) (hs : State.Same fs k s) : State.Same fs k ra := by
  have := State.mbKey_same (k := k) hm s hs
  rw [ht] at this
  exact this

theorem execKeyProgram_same {fs : Nat} {k : State} (hm : State.Sub 0x50000000000 fs) {s : State} {rr : State} (ht :
  execKeyProgram s = .next rr) (hs : State.Same fs k s) : State.Same fs k rr := by
  refine State.Same.run (fun s hs => ?_) hs ht
  try dsimp only
  with_reducible repeat' first
    | assumption | exact State.Sub.of rfl hm | apply State.mbKey_same | refine State.mbKey_same_eq ?_ (by assumption) ?_
    | apply State.mbAct_same | intro _ _ | split | dsimp only

theorem State.applyLoad_same {fs : Nat} {k : State} (hm : State.Sub 0x1bfffffffffe fs) (s : State) (i : Image) (hs :
  State.Same fs k s) : State.Same fs k (State.applyLoad s i).1 := by
  unfold State.applyLoad
  try dsimp only
  with_reducible repeat' first
    | assumption | exact State.Sub.of rfl hm | apply State.loadRecs_same | apply State.extend_same | intro _ _ | split
    | dsimp only | refine State.Same.upd_10000000000 ?_ ?_

theorem State.applyLoad_same_eq {fs : Nat} {k : State} (hm : State.Sub 0x1bfffffffffe fs) {s : State} {i : Image} {ra
  rb} (ht : State.applyLoad s i = (ra, rb)) (hs : State.Same fs k s) : State.Same fs k ra := by
  have := State.applyLoad_same (k := k) hm s i hs
  rw [ht] at this
  exact this

theorem State.mbApply_same {fs : Nat} {k : State} (hm : State.Sub 0x1bfffffffffe fs) (s : State) (hs : State.Same fs
  k s) : State.Same fs k (State.mbApply s).1 := by
  unfold State.mbApply
  try dsimp only
  with_reducible repeat' first
    | assumption | exact State.Sub.of rfl hm | apply State.applyLoad_same
    | refine State.applyLoad_same_eq ?_ (by assumption) ?_ | apply State.fwApply_same
    | refine State.fwApply_same_eq ?_ (by assumption) ?_ | apply State.mbNeeds_same
    | refine State.mbNeeds_same_eq ?_ (by assumption) ?_ | intro _ _ | split | dsimp only
    | refine State.Same.upd_10000000000 ?_ ?_

theorem State.mbApply_same_eq {fs : Nat} {k : State} (hm : State.Sub 0x1bfffffffffe fs) {s : State} {ra rb} (ht :
  State.mbApply s = (ra, rb)) (hs : State.Same fs k s) : State.Same fs k ra := by
  have := State.mbApply_same (k := k) hm s hs
  rw [ht] at this
  exact this

theorem execLcAdvance_same {fs : Nat} {k : State} (hm : State.Sub 0x10000000000 fs) {img : List Byte} {s : State} {rr
  : State} (ht : execLcAdvance img s = .next rr) (hs : State.Same fs k s) : State.Same fs k rr := by
  refine State.Same.run (fun s hs => ?_) hs ht
  try dsimp only
  with_reducible repeat' first
    | assumption | exact State.Sub.of rfl hm | apply State.mbAdvance_same
    | refine State.mbAdvance_same_eq ?_ (by assumption) ?_ | apply State.mbAct_same | intro _ _ | split | dsimp only

theorem execRestart_same {fs : Nat} {k : State} (hm : State.Sub 0x10000000000 fs) {s : State} {rr : State} (ht :
  execRestart s = .next rr) (hs : State.Same fs k s) : State.Same fs k rr := by
  refine State.Same.run (fun s hs => ?_) hs ht
  try dsimp only
  with_reducible repeat' first
    | assumption | exact State.Sub.of rfl hm | apply State.mbRestart_same
    | refine State.mbRestart_same_eq ?_ (by assumption) ?_ | apply State.mbAct_same | intro _ _ | split | dsimp only

theorem execImgApply_same {fs : Nat} {k : State} (hm : State.Sub 0x1bfffffffffe fs) {s : State} {rr : State} (ht :
  execImgApply s = .next rr) (hs : State.Same fs k s) : State.Same fs k rr := by
  refine State.Same.run (fun s hs => ?_) hs ht
  try dsimp only
  with_reducible repeat' first
    | assumption | exact State.Sub.of rfl hm | apply State.mbApply_same
    | refine State.mbApply_same_eq ?_ (by assumption) ?_ | apply State.mbAct_same | intro _ _ | split | dsimp only

theorem execImgStage_same {fs : Nat} {k : State} (hm : State.Sub 0x1000000000c fs) {img : List Byte} {s : State} {rr
  : State} (ht : execImgStage img s = .next rr) (hs : State.Same fs k s) : State.Same fs k rr := by
  refine State.Same.run (fun s hs => ?_) hs ht
  try dsimp only
  with_reducible repeat' first
    | assumption | exact State.Sub.of rfl hm | apply State.mbStage_same
    | refine State.mbStage_same_eq ?_ (by assumption) ?_ | apply State.mbAct_same | intro _ _ | split | dsimp only

theorem State.mbLog_same {fs : Nat} {k : State} (hm : State.Sub 0x4 fs) (s : State) (hs : State.Same fs k s) :
  State.Same fs k (State.mbLog s).1 := by
  unfold State.mbLog
  try dsimp only
  with_reducible repeat' first
    | assumption | exact State.Sub.of rfl hm | apply State.drawn_same | apply State.mbNeeds_same
    | refine State.mbNeeds_same_eq ?_ (by assumption) ?_ | intro _ _ | split | dsimp only

theorem State.mbLog_same_eq {fs : Nat} {k : State} (hm : State.Sub 0x4 fs) {s : State} {ra rb} (ht : State.mbLog s =
  (ra, rb)) (hs : State.Same fs k s) : State.Same fs k ra := by
  have := State.mbLog_same (k := k) hm s hs
  rw [ht] at this
  exact this

theorem execLogRead_same {fs : Nat} {k : State} (hm : State.Sub 0x10000000004 fs) {s : State} {rr : State} (ht :
  execLogRead s = .next rr) (hs : State.Same fs k s) : State.Same fs k rr := by
  refine State.Same.run (fun s hs => ?_) hs ht
  try dsimp only
  with_reducible repeat' first
    | assumption | exact State.Sub.of rfl hm | apply State.mbLog_same | refine State.mbLog_same_eq ?_ (by assumption) ?_
    | apply State.mbAct_same | intro _ _ | split | dsimp only

/-! ### Span -/

theorem State.binCount64_same {fs : Nat} {k : State} (hm : State.Sub 0x10 fs) (s : State) (q : Nat) (o : Nat) (n :
  Nat) (hs : State.Same fs k s) : State.Same fs k (State.binCount64 s q o n) := by
  unfold State.binCount64
  try dsimp only
  with_reducible repeat' first
    | assumption | exact State.Sub.of rfl hm | apply State.count64_same | intro _ _ | split | dsimp only

theorem State.binCount_same {fs : Nat} {k : State} (hm : State.Sub 0x10 fs) (s : State) (q : Nat) (o : Nat) (n : Nat)
  (sub : Bool) (hs : State.Same fs k s) : State.Same fs k (State.binCount s q o n sub) := by
  unfold State.binCount
  try dsimp only
  with_reducible repeat' first
    | assumption | exact State.Sub.of rfl hm | apply State.count_same | intro _ _ | split | dsimp only

theorem State.binSec_same {fs : Nat} {k : State} (hm : State.Sub 0x10 fs) (s : State) (q : Nat) (b : Nat) (x : PmSec)
  (sub : Bool) (hs : State.Same fs k s) : State.Same fs k (State.binSec s q b x sub) := by
  unfold State.binSec
  try dsimp only
  with_reducible repeat' first
    | assumption | exact State.Sub.of rfl hm | apply State.binCount64_same | apply State.binCount_same | intro _ _ | split
    | dsimp only

theorem State.secAvail_same {fs : Nat} {k : State} (hm : State.Sub 0x10 fs) (s : State) (q : Nat) (x : PmSec) (sub :
  Bool) (x4 : List Nat) (hs : State.Same fs k s) : State.Same fs k (State.secAvail s q x sub x4) := by
  induction x4 generalizing s q x sub with
  | nil =>
    unfold State.secAvail
    try dsimp only
    with_reducible repeat' first
      | assumption | exact State.Sub.of rfl hm | apply State.binSec_same | intro _ _ | split | dsimp only
  | cons a l ih =>
    unfold State.secAvail
    try dsimp only
    with_reducible repeat' first
      | assumption | exact State.Sub.of rfl hm | apply ih | apply State.binSec_same | intro _ _ | split | dsimp only

theorem State.secUas_same {fs : Nat} {k : State} (hm : State.Sub 0x10 fs) (s : State) (q : Nat) (sub : Bool) (x3 :
  List Nat) (hs : State.Same fs k s) : State.Same fs k (State.secUas s q sub x3) := by
  induction x3 generalizing s q sub with
  | nil =>
    unfold State.secUas
    try dsimp only
    with_reducible repeat' first
      | assumption | exact State.Sub.of rfl hm | apply State.binCount_same | intro _ _ | split | dsimp only
  | cons a l ih =>
    unfold State.secUas
    try dsimp only
    with_reducible repeat' first
      | assumption | exact State.Sub.of rfl hm | apply ih | apply State.binCount_same | intro _ _ | split | dsimp only

theorem State.toUas_same {fs : Nat} {k : State} (hm : State.Sub 0x10 fs) (s : State) (q : Nat) (e : Nat) (x3 : List
  PmSec) (hs : State.Same fs k s) : State.Same fs k (State.toUas s q e x3) := by
  induction x3 generalizing s q e with
  | nil =>
    unfold State.toUas
    try dsimp only
    with_reducible repeat' first
      | assumption | exact State.Sub.of rfl hm | apply State.secAvail_same | apply State.secUas_same | intro _ _ | split
      | dsimp only
  | cons a l ih =>
    unfold State.toUas
    try dsimp only
    with_reducible repeat' first
      | assumption | exact State.Sub.of rfl hm | apply ih | apply State.secAvail_same | apply State.secUas_same | intro _ _
      | split | dsimp only

theorem State.fromUas_same {fs : Nat} {k : State} (hm : State.Sub 0x10 fs) (s : State) (q : Nat) (e : Nat) (x3 : List
  PmSec) (hs : State.Same fs k s) : State.Same fs k (State.fromUas s q e x3) := by
  induction x3 generalizing s q e with
  | nil =>
    unfold State.fromUas
    try dsimp only
    with_reducible repeat' first
      | assumption | exact State.Sub.of rfl hm | apply State.secUas_same | apply State.secAvail_same | intro _ _ | split
      | dsimp only
  | cons a l ih =>
    unfold State.fromUas
    try dsimp only
    with_reducible repeat' first
      | assumption | exact State.Sub.of rfl hm | apply ih | apply State.secUas_same | apply State.secAvail_same | intro _ _
      | split | dsimp only

theorem State.pmEnd_same {fs : Nat} {k : State} (hm : State.Sub 0x10 fs) (s : State) (q : Nat) (e : Nat) (m : PmEnd)
  (hs : State.Same fs k s) : State.Same fs k (State.pmEnd s q e m).1 := by
  unfold State.pmEnd
  try dsimp only
  with_reducible repeat' first
    | assumption | exact State.Sub.of rfl hm | apply State.toUas_same | apply State.fromUas_same
    | apply State.secAvail_same | apply State.secUas_same | intro _ _ | split | dsimp only

theorem State.pmEnd_same_eq {fs : Nat} {k : State} (hm : State.Sub 0x10 fs) {s : State} {q : Nat} {e : Nat} {m :
  PmEnd} {ra rb} (ht : State.pmEnd s q e m = (ra, rb)) (hs : State.Same fs k s) : State.Same fs k ra := by
  have := State.pmEnd_same (k := k) hm s q e m hs
  rw [ht] at this
  exact this

theorem State.rollBin_same {fs : Nat} {k : State} (hm : State.Sub 0x10 fs) (s : State) (q : Nat) (b : Nat) (whole :
  Bool) (hs : State.Same fs k s) : State.Same fs k (State.rollBin s q b whole) := by
  unfold State.rollBin
  try dsimp only
  with_reducible repeat' first
    | assumption | exact State.Sub.of rfl hm | apply State.setReg64_same | apply State.setRf_same | apply State.setReg_same
    | intro _ _ | split | dsimp only

theorem State.rollPosition_same {fs : Nat} {k : State} (hm : State.Sub 0x8000001010 fs) (s : State) (q : Nat) (day :
  Bool) (hs : State.Same fs k s) : State.Same fs k (State.rollPosition s q day) := by
  unfold State.rollPosition
  try dsimp only
  with_reducible repeat' first
    | assumption | exact State.Sub.of rfl hm | apply State.raise_same | apply State.setSpan_same | apply State.rollBin_same
    | intro _ _ | split | dsimp only

theorem State.rollPositions_same {fs : Nat} {k : State} (hm : State.Sub 0x8000001010 fs) (s : State) (day : Bool) (x2
  : List Nat) (hs : State.Same fs k s) : State.Same fs k (State.rollPositions s day x2) := by
  induction x2 generalizing s day with
  | nil =>
    unfold State.rollPositions
    try dsimp only
    with_reducible repeat' first
      | assumption | exact State.Sub.of rfl hm | apply State.rollPosition_same | intro _ _ | split | dsimp only
  | cons a l ih =>
    unfold State.rollPositions
    try dsimp only
    with_reducible repeat' first
      | assumption | exact State.Sub.of rfl hm | apply ih | apply State.rollPosition_same | intro _ _ | split | dsimp only

theorem execBin15_same {fs : Nat} {k : State} (hm : State.Sub 0x8000001010 fs) {s : State} {rr : State} (ht :
  execBin15 s = .next rr) (hs : State.Same fs k s) : State.Same fs k rr := by
  refine State.Same.run (fun s hs => ?_) hs ht
  try dsimp only
  with_reducible repeat' first
    | assumption | exact State.Sub.of rfl hm | apply State.rollPositions_same | intro _ _ | split | dsimp only

theorem State.ohspSlot_same {fs : Nat} {k : State} (hm : State.Sub 0x8000001010 fs) (s : State) (n : Nat) (ts : Nat)
  (din : BitVec 10) (hs : State.Same fs k s) : State.Same fs k (State.ohspSlot s n ts din).2 := by
  unfold State.ohspSlot
  try dsimp only
  with_reducible repeat' first
    | assumption | exact State.Sub.of rfl hm | apply State.count_same | apply State.raise_same | apply State.setSpan_same
    | intro _ _ | split | dsimp only

theorem State.ohspSlot_same_eq {fs : Nat} {k : State} (hm : State.Sub 0x8000001010 fs) {s : State} {n : Nat} {ts :
  Nat} {din : BitVec 10} {ra rb} (ht : State.ohspSlot s n ts din = (ra, rb)) (hs : State.Same fs k s) : State.Same fs
  k rb := by
  have := State.ohspSlot_same (k := k) hm s n ts din hs
  rw [ht] at this
  exact this

theorem State.defectTimer_same {fs : Nat} {k : State} (hm : State.Sub 0x8000001810 fs) (s : State) (q : Nat) (x2 :
  Defect) (hs : State.Same fs k s) : State.Same fs k (State.defectTimer s q x2) := by
  unfold State.defectTimer
  try dsimp only
  with_reducible repeat' first
    | assumption | exact State.Sub.of rfl hm | apply State.spanLom_same | apply State.spanLof_same
    | apply State.realign_same | apply State.spanLosClear_same | intro _ _ | split | dsimp only

theorem execDefectTimer_same {fs : Nat} {k : State} (hm : State.Sub 0xdb1fecb858 fs) {q : SpanPos} {d : Defect} {s :
  State} {rr : State} (ht : execDefectTimer q d s = .next rr) (hs : State.Same fs k s) : State.Same fs k rr := by
  refine State.Same.run (fun s hs => ?_) hs ht
  try dsimp only
  with_reducible repeat' first
    | assumption | exact State.Sub.of rfl hm | apply State.defectTimer_same | apply State.settleSpan_same
    | apply State.onlyIf_same | intro _ _ | split | dsimp only

theorem State.spanHear_same {fs : Nat} {k : State} (hm : State.Sub 0xdb1fecb858 fs) (s : State) (q : Nat) (bytes :
  List Byte) (hs : State.Same fs k s) : State.Same fs k (State.spanHear s q bytes) := by
  unfold State.spanHear
  try dsimp only
  with_reducible repeat' first
    | assumption | exact State.Sub.of rfl hm | apply State.spanReceive_same | apply State.settleSpan_same | intro _ _
    | split | dsimp only

theorem State.spanLoop_same {fs : Nat} {k : State} (hm : State.Sub 0xdb1fecb858 fs) (s : State) (q : Nat) (x2 : List
  Output) (hs : State.Same fs k s) : State.Same fs k (State.spanLoop s q x2) := by
  induction x2 generalizing s with
  | nil => exact hs
  | cons o l ih =>
    cases o
    all_goals first
      | exact ih _ hs
      | (unfold State.spanLoop; refine ih _ ?_; split; exact State.spanHear_same (.of rfl hm) _ _ _ hs; exact hs)

theorem execSpanFrameTx_same {fs : Nat} {k : State} (hm : State.Sub 0xdb1fecb858 fs) {q : SpanPos} {s : State} {rr :
  State} (ht : execSpanFrameTx q s = .next rr) (hs : State.Same fs k s) : State.Same fs k rr := by
  refine State.Same.run (fun s hs => ?_) hs ht
  try dsimp only
  with_reducible repeat' first
    | assumption | exact State.Sub.of rfl hm | apply State.spanLoop_same | apply State.spanSend_same
    | apply State.onlyIf_same | intro _ _ | split | dsimp only

theorem State.spanBegin_same {fs : Nat} {k : State} (hm : State.Sub 0x800200f010 fs) (s : State) (q : Nat) (x2 :
  SpanPkt) (hs : State.Same fs k s) : State.Same fs k (State.spanBegin s q x2) := by
  unfold State.spanBegin
  try dsimp only
  with_reducible repeat' first
    | assumption | exact State.Sub.of rfl hm | apply State.setSpan_same | refine State.toFifo_same ?_ (by assumption) ?_
    | intro _ _ | split | dsimp only

theorem State.spanPacket_same {fs : Nat} {k : State} (hm : State.Sub 0x931f00e050 fs) (s : State) (q : Nat) (x2 :
  SpanPkt) (hs : State.Same fs k s) : State.Same fs k (State.spanPacket s q x2) := by
  unfold State.spanPacket
  try dsimp only
  with_reducible repeat' first
    | assumption | exact State.Sub.of rfl hm | apply State.rxGood_same | refine State.toFifo_same ?_ (by assumption) ?_
    | apply State.completeRoot_same | apply State.accountEarly_same | apply State.spanRxCount_same
    | apply State.bwFrame_same | apply State.spanDiscard_same | intro _ _ | split | dsimp only

theorem State.spanPacketNext_same {fs : Nat} {k : State} (hm : State.Sub 0x931f00f050 fs) (s : State) (q : Nat) (hs :
  State.Same fs k s) : State.Same fs k (State.spanPacketNext s q) := by
  unfold State.spanPacketNext
  try dsimp only
  with_reducible repeat' first
    | assumption | exact State.Sub.of rfl hm | apply State.spanBegin_same | apply State.setSpan_same
    | apply State.spanPacket_same | intro _ _ | split | dsimp only

theorem execSpanPacketRx_same {fs : Nat} {k : State} (hm : State.Sub 0x931f00f050 fs) {q : SpanPos} {s : State} {rr :
  State} (ht : execSpanPacketRx q s = .next rr) (hs : State.Same fs k s) : State.Same fs k rr := by
  refine State.Same.run (fun s hs => ?_) hs ht
  try dsimp only
  with_reducible repeat' first
    | assumption | exact State.Sub.of rfl hm | apply State.spanPacketNext_same | apply State.onlyIf_same | intro _ _
    | split | dsimp only

theorem execSpanFrameRx_same {fs : Nat} {k : State} (hm : State.Sub 0xdb1fecb858 fs) {q : SpanPos} {bytes : List
  Byte} {s : State} {rr : State} (ht : execSpanFrameRx q bytes s = .next rr) (hs : State.Same fs k s) : State.Same fs
  k rr := by
  refine State.Same.run (fun s hs => ?_) hs ht
  try dsimp only
  with_reducible repeat' first
    | assumption | exact State.Sub.of rfl hm | apply State.transmit_same | apply State.spanHear_same
    | apply State.onlyIf_same | intro _ _ | split | dsimp only

theorem State.ohspSlots_same {fs : Nat} {k : State} (hm : State.Sub 0x8000001010 fs) (s : State) (n : Nat) (x2 : Nat)
  (x3 : List (BitVec 10)) (hs : State.Same fs k s) : State.Same fs k (State.ohspSlots s n x2 x3).2 := by
  induction x3 generalizing s n x2 with
  | nil =>
    unfold State.ohspSlots
    try dsimp only
    with_reducible repeat' first
      | assumption | exact State.Sub.of rfl hm | apply State.ohspSlot_same
      | refine State.ohspSlot_same_eq ?_ (by assumption) ?_ | intro _ _ | split | dsimp only
  | cons a l ih =>
    unfold State.ohspSlots
    try dsimp only
    with_reducible repeat' first
      | assumption | exact State.Sub.of rfl hm | apply ih | apply State.ohspSlot_same
      | refine State.ohspSlot_same_eq ?_ (by assumption) ?_ | intro _ _ | split | dsimp only

theorem State.ohspSlots_same_eq {fs : Nat} {k : State} (hm : State.Sub 0x8000001010 fs) {s : State} {n : Nat} {x2 :
  Nat} {x3 : List (BitVec 10)} {ra rb} (ht : State.ohspSlots s n x2 x3 = (ra, rb)) (hs : State.Same fs k s) :
  State.Same fs k rb := by
  have := State.ohspSlots_same (k := k) hm s n x2 x3 hs
  rw [ht] at this
  exact this

theorem State.ohspFrame_same {fs : Nat} {k : State} (hm : State.Sub 0x8000001018 fs) (s : State) (n : Nat) (din :
  List (BitVec 10)) (hs : State.Same fs k s) : State.Same fs k (State.ohspFrame s n din) := by
  unfold State.ohspFrame
  try dsimp only
  with_reducible repeat' first
    | assumption | exact State.Sub.of rfl hm | apply State.emit_same | apply State.count_same | apply State.ohspSlots_same
    | refine State.ohspSlots_same_eq ?_ (by assumption) ?_ | intro _ _ | split | dsimp only

theorem State.pmPosition_same {fs : Nat} {k : State} (hm : State.Sub 0x8000001010 fs) (s : State) (q : Nat) (hs :
  State.Same fs k s) : State.Same fs k (State.pmPosition s q) := by
  unfold State.pmPosition
  try dsimp only
  with_reducible repeat' first
    | assumption | exact State.Sub.of rfl hm | apply State.setSpan_same | apply State.raise_same | apply State.putSpan_same
    | apply State.pmEnd_same | refine State.pmEnd_same_eq ?_ (by assumption) ?_ | intro _ _ | split | dsimp only

theorem State.pmPositions_same {fs : Nat} {k : State} (hm : State.Sub 0x8000001010 fs) (s : State) (x1 : List Nat)
  (hs : State.Same fs k s) : State.Same fs k (State.pmPositions s x1) := by
  induction x1 generalizing s with
  | nil =>
    unfold State.pmPositions
    try dsimp only
    with_reducible repeat' first
      | assumption | exact State.Sub.of rfl hm | apply State.pmPosition_same | intro _ _ | split | dsimp only
  | cons a l ih =>
    unfold State.pmPositions
    try dsimp only
    with_reducible repeat' first
      | assumption | exact State.Sub.of rfl hm | apply ih | apply State.pmPosition_same | intro _ _ | split | dsimp only

theorem execOhspFrame_same {fs : Nat} {k : State} (hm : State.Sub 0x8000001018 fs) {n : Fin 4} {din : List (BitVec
  10)} {s : State} {rr : State} (ht : execOhspFrame n din s = .next rr) (hs : State.Same fs k s) : State.Same fs k rr
  := by
  refine State.Same.run (fun s hs => ?_) hs ht
  try dsimp only
  with_reducible repeat' first
    | assumption | exact State.Sub.of rfl hm | apply State.ohspFrame_same | apply State.onlyIf_same | intro _ _ | split
    | dsimp only

theorem execDay_same {fs : Nat} {k : State} (hm : State.Sub 0x8000001010 fs) {sl : Slice} {s : State} {rr : State}
  (ht : execDay sl s = .next rr) (hs : State.Same fs k s) : State.Same fs k rr := by
  refine State.Same.run (fun s hs => ?_) hs ht
  try dsimp only
  with_reducible repeat' first
    | assumption | exact State.Sub.of rfl hm | apply State.rollPositions_same | intro _ _ | split | dsimp only

theorem execPmSecond_same {fs : Nat} {k : State} (hm : State.Sub 0x8000001010 fs) {s : State} {rr : State} (ht :
  execPmSecond s = .next rr) (hs : State.Same fs k s) : State.Same fs k rr := by
  refine State.Same.run (fun s hs => ?_) hs ht
  try dsimp only
  with_reducible repeat' first
    | assumption | exact State.Sub.of rfl hm | apply State.pmPositions_same | intro _ _ | split | dsimp only

/-! ### Tables -/

theorem execLpmRead_same {fs : Nat} {k : State} (hm : State.Sub 0xa860000058 fs) {q : Fin 16} {blk : TableRead} {s :
  State} {rr : State} (ht : execLpmRead q blk s = .next rr) (hs : State.Same fs k s) : State.Same fs k rr := by
  refine State.Same.run (fun s hs => ?_) hs ht
  try dsimp only
  with_reducible repeat' first
    | assumption | exact State.Sub.of rfl hm | apply State.tableCmd_same | intro _ _ | split | dsimp only

theorem execTableNop_same {fs : Nat} {k : State} (hm : State.Sub 0xa860000058 fs) {q : Fin 16} {s : State} {rr :
  State} (ht : execTableNop q s = .next rr) (hs : State.Same fs k s) : State.Same fs k rr := by
  refine State.Same.run (fun s hs => ?_) hs ht
  try dsimp only
  with_reducible repeat' first
    | assumption | exact State.Sub.of rfl hm | apply State.tableCmd_same | intro _ _ | split | dsimp only

theorem execEmRead_same {fs : Nat} {k : State} (hm : State.Sub 0xa860000058 fs) {q : Fin 16} {blk : TableRead} {s :
  State} {rr : State} (ht : execEmRead q blk s = .next rr) (hs : State.Same fs k s) : State.Same fs k rr := by
  refine State.Same.run (fun s hs => ?_) hs ht
  try dsimp only
  with_reducible repeat' first
    | assumption | exact State.Sub.of rfl hm | apply State.tableCmd_same | intro _ _ | split | dsimp only

theorem execBulkMove_same {fs : Nat} {k : State} (hm : State.Sub 0xa860000058 fs) {q : Fin 16} {blk : TableRead} {s :
  State} {rr : State} (ht : execBulkMove q blk s = .next rr) (hs : State.Same fs k s) : State.Same fs k rr := by
  refine State.Same.run (fun s hs => ?_) hs ht
  try dsimp only
  with_reducible repeat' first
    | assumption | exact State.Sub.of rfl hm | apply State.tableCmd_same | intro _ _ | split | dsimp only

theorem execLpmDelete_same {fs : Nat} {k : State} (hm : State.Sub 0xa860000058 fs) {q : Fin 16} {blk : TableRead} {s
  : State} {rr : State} (ht : execLpmDelete q blk s = .next rr) (hs : State.Same fs k s) : State.Same fs k rr := by
  refine State.Same.run (fun s hs => ?_) hs ht
  try dsimp only
  with_reducible repeat' first
    | assumption | exact State.Sub.of rfl hm | apply State.tableCmd_same | intro _ _ | split | dsimp only

theorem execTcamDelete_same {fs : Nat} {k : State} (hm : State.Sub 0xa860000058 fs) {q : Fin 16} {blk : TableRead} {s
  : State} {rr : State} (ht : execTcamDelete q blk s = .next rr) (hs : State.Same fs k s) : State.Same fs k rr := by
  refine State.Same.run (fun s hs => ?_) hs ht
  try dsimp only
  with_reducible repeat' first
    | assumption | exact State.Sub.of rfl hm | apply State.tableCmd_same | intro _ _ | split | dsimp only

theorem execBulkFlush_same {fs : Nat} {k : State} (hm : State.Sub 0xa860000058 fs) {q : Fin 16} {blk : TableRead} {s
  : State} {rr : State} (ht : execBulkFlush q blk s = .next rr) (hs : State.Same fs k s) : State.Same fs k rr := by
  refine State.Same.run (fun s hs => ?_) hs ht
  try dsimp only
  with_reducible repeat' first
    | assumption | exact State.Sub.of rfl hm | apply State.tableCmd_same | intro _ _ | split | dsimp only

theorem execEmUpdate_same {fs : Nat} {k : State} (hm : State.Sub 0xa860000058 fs) {q : Fin 16} {blk : TableRead} {s :
  State} {rr : State} (ht : execEmUpdate q blk s = .next rr) (hs : State.Same fs k s) : State.Same fs k rr := by
  refine State.Same.run (fun s hs => ?_) hs ht
  try dsimp only
  with_reducible repeat' first
    | assumption | exact State.Sub.of rfl hm | apply State.tableCmd_same | intro _ _ | split | dsimp only

theorem execTcamWrite_same {fs : Nat} {k : State} (hm : State.Sub 0xa860000058 fs) {q : Fin 16} {blk : TableRead} {s
  : State} {rr : State} (ht : execTcamWrite q blk s = .next rr) (hs : State.Same fs k s) : State.Same fs k rr := by
  refine State.Same.run (fun s hs => ?_) hs ht
  try dsimp only
  with_reducible repeat' first
    | assumption | exact State.Sub.of rfl hm | apply State.tableCmd_same | intro _ _ | split | dsimp only

theorem execLpmInsert_same {fs : Nat} {k : State} (hm : State.Sub 0xa860000058 fs) {q : Fin 16} {blk : TableRead} {s
  : State} {rr : State} (ht : execLpmInsert q blk s = .next rr) (hs : State.Same fs k s) : State.Same fs k rr := by
  refine State.Same.run (fun s hs => ?_) hs ht
  try dsimp only
  with_reducible repeat' first
    | assumption | exact State.Sub.of rfl hm | apply State.tableCmd_same | intro _ _ | split | dsimp only

theorem execEmDelete_same {fs : Nat} {k : State} (hm : State.Sub 0xa860000058 fs) {q : Fin 16} {blk : TableRead} {s :
  State} {rr : State} (ht : execEmDelete q blk s = .next rr) (hs : State.Same fs k s) : State.Same fs k rr := by
  refine State.Same.run (fun s hs => ?_) hs ht
  try dsimp only
  with_reducible repeat' first
    | assumption | exact State.Sub.of rfl hm | apply State.tableCmd_same | intro _ _ | split | dsimp only

theorem execEmUpsert_same {fs : Nat} {k : State} (hm : State.Sub 0xa860000058 fs) {q : Fin 16} {blk : TableRead} {s :
  State} {rr : State} (ht : execEmUpsert q blk s = .next rr) (hs : State.Same fs k s) : State.Same fs k rr := by
  refine State.Same.run (fun s hs => ?_) hs ht
  try dsimp only
  with_reducible repeat' first
    | assumption | exact State.Sub.of rfl hm | apply State.tableCmd_same | intro _ _ | split | dsimp only

theorem execEmInsert_same {fs : Nat} {k : State} (hm : State.Sub 0xa860000058 fs) {q : Fin 16} {blk : TableRead} {s :
  State} {rr : State} (ht : execEmInsert q blk s = .next rr) (hs : State.Same fs k s) : State.Same fs k rr := by
  refine State.Same.run (fun s hs => ?_) hs ht
  try dsimp only
  with_reducible repeat' first
    | assumption | exact State.Sub.of rfl hm | apply State.tableCmd_same | intro _ _ | split | dsimp only

/-! ### Tick -/

theorem State.kerfCycles_same {fs : Nat} {k : State} (hm : State.Sub 0x1000000004 fs) (s : State) (backlog : Nat) (x2
  : List Nat) (hs : State.Same fs k s) : State.Same fs k (State.kerfCycles s backlog x2) := by
  induction x2 generalizing s backlog with
  | nil =>
    unfold State.kerfCycles
    try dsimp only
    with_reducible repeat' first
      | assumption | exact State.Sub.of rfl hm | apply State.drawn_same | intro _ _ | split | dsimp only
      | refine State.Same.upd_1000000000 ?_ ?_
  | cons a l ih =>
    unfold State.kerfCycles
    try dsimp only
    with_reducible repeat' first
      | assumption | exact State.Sub.of rfl hm | apply ih | apply State.drawn_same | intro _ _ | split | dsimp only
      | refine State.Same.upd_1000000000 ?_ ?_

theorem State.deckCycles_same {fs : Nat} {k : State} (hm : State.Sub 0x80010 fs) (s : State) (x1 : Nat) (hs :
  State.Same fs k s) : State.Same fs k (State.deckCycles s x1) := by
  unfold State.deckCycles
  try dsimp only
  with_reducible repeat' first
    | assumption | exact State.Sub.of rfl hm | apply State.setDeck_same | apply State.count64_same | intro _ _ | split
    | dsimp only

theorem State.fireMicros_same {fs : Nat} {k : State} (hm : State.Sub 0x2000000010 fs) (s : State) (hs : State.Same fs
  k s) : State.Same fs k (State.fireMicros s) := by
  unfold State.fireMicros
  try dsimp only
  with_reducible repeat' first
    | assumption | exact State.Sub.of rfl hm | apply State.count64_same | intro _ _ | split | dsimp only
    | refine State.Same.upd_2000000000 ?_ ?_

theorem State.prbsChecks_same {fs : Nat} {k : State} (hm : State.Sub 0x214 fs) (s : State) (x1 : List Nat) (hs :
  State.Same fs k s) : State.Same fs k (State.prbsChecks s x1) := by
  induction x1 generalizing s with
  | nil =>
    unfold State.prbsChecks
    try dsimp only
    with_reducible repeat' first
      | assumption | exact State.Sub.of rfl hm | apply State.drawn_same | apply State.count64_same
      | apply State.setLane_same | intro _ _ | split | dsimp only
  | cons a l ih =>
    unfold State.prbsChecks
    try dsimp only
    with_reducible repeat' first
      | assumption | exact State.Sub.of rfl hm | apply ih | apply State.drawn_same | apply State.count64_same
      | apply State.setLane_same | intro _ _ | split | dsimp only

theorem State.linkEnds_same {fs : Nat} {k : State} (hm : State.Sub 0x804 fs) (s : State) (x1 : List Nat) (hs :
  State.Same fs k s) : State.Same fs k (State.linkEnds s x1) := by
  induction x1 generalizing s with
  | nil =>
    unfold State.linkEnds
    try dsimp only
    with_reducible repeat' first
      | assumption | exact State.Sub.of rfl hm | apply State.setPort_same | apply State.realign_same
      | apply State.drawn_same | intro _ _ | split | dsimp only
  | cons a l ih =>
    unfold State.linkEnds
    try dsimp only
    with_reducible repeat' first
      | assumption | exact State.Sub.of rfl hm | apply ih | apply State.setPort_same | apply State.realign_same
      | apply State.drawn_same | intro _ _ | split | dsimp only

theorem State.pipeCycles_same {fs : Nat} {k : State} (hm : State.Sub 0x1020000014 fs) (s : State) (x1 : Nat) (hs :
  State.Same fs k s) : State.Same fs k (State.pipeCycles s x1) := by
  unfold State.pipeCycles
  try dsimp only
  with_reducible repeat' first
    | assumption | exact State.Sub.of rfl hm | apply State.count64_same | apply State.setWood_same | apply State.drawn_same
    | apply State.kerfCycles_same | intro _ _ | split | dsimp only

theorem State.paceTick_same {fs : Nat} {k : State} (hm : State.Sub 0x200000000 fs) (s : State) (x1 : Nat) (hs :
  State.Same fs k s) : State.Same fs k (State.paceTick s x1) := by
  unfold State.paceTick
  try dsimp only
  with_reducible repeat' first
    | assumption | exact State.Sub.of rfl hm | apply State.setTally_same | intro _ _ | split | dsimp only

theorem State.tickCore_same {fs : Nat} {k : State} (hm : State.Sub 0x3b620080a14 fs) (s : State) (hs : State.Same fs
  k s) : State.Same fs k (State.tickCore s) := by
  unfold State.tickCore
  try dsimp only
  with_reducible repeat' first
    | assumption | exact State.Sub.of rfl hm | apply State.prbsChecks_same | apply State.linkEnds_same
    | apply State.saveGoes_same | apply State.pipeCycles_same | apply State.hbmErrs_same | apply State.deckCycles_same
    | apply State.fireMicros_same | apply State.paceTick_same | intro _ _ | split | dsimp only

theorem State.tick_same {fs : Nat} {k : State} (hm : State.Sub 0x13b620080a16 fs) (s : State) (hs : State.Same fs k
  s) : State.Same fs k (State.tick s) := by
  unfold State.tick
  try dsimp only
  with_reducible repeat' first
    | assumption | exact State.Sub.of rfl hm | apply State.enterWipe_same | apply State.tickCore_same | intro _ _ | split
    | dsimp only | refine State.Same.upd_2 ?_ ?_

end Sys2Proof.Machine
end

