-- ==== Sys2Proof/Machine/Heartwood.lean ====
section
/-! DEFINITION. What the Heartwood baseline program computes (05_parser_kerf.md R165; 09_queues_forwarding.md R282 to R284; 06_tables.md R190).
Heartwood is a program in the control stores, whose words the spec does not give (log entry 11), and a patched program may
replace it: MICROWORD_EXEC executes the words that the stores hold. The functions here are the spec's account of the
baseline, over the same vectors, local memories and registers; the predicates at the end say when the words of a stage are a
Heartwood program for it. -/

namespace Sys2Proof.Machine

/-! ### Drop codes (Table 60) and punts -/

abbrev hwVlanFilter : Nat := 0x00
abbrev hwMacLock : Nat := 0x01
abbrev hwAclDeny : Nat := 0x02
abbrev hwTtlExpired : Nat := 0x03
abbrev hwStorm : Nat := 0x04
abbrev hwPuntFilter : Nat := 0x05
abbrev hwParseError : Nat := 0x06
abbrev hwSplitHorizon : Nat := 0x07
abbrev hwEgressVlan : Nat := 0x08

/-! ### Stages (Table 59) -/

/-- The kinds of lookup that Heartwood's stages make. -/
inductive HwLookup where
  | none | view | exact | learn | lpmOrExact | tcam
  deriving DecidableEq, Repr

/-- The lookup of a stage (Table 59). -/
def hwLookup : Dir → Nat → HwLookup
  | .ingress, 1 => .learn
  | .ingress, 2 | .ingress, 3 => .exact
  | .ingress, 4 => .lpmOrExact
  | .ingress, 5 => .tcam
  | .ingress, _ => .view
  | .egress, n => if n < 4 then .view else .none

/-- TBLID, with LEARN, asks for a lookup of a kind, or for none (Table 53). -/
def HwLookup.allows (k : HwLookup) (tbl : Nat) (learn : Bool) : Bool :=
  decide (tbl = 0) || (match k with
    | .none => false
    | .view => decide (0x70 ≤ tbl ∧ tbl < 0x78)
    | .exact => decide (tbl < 0x40) && !learn
    | .learn => decide (tbl < 0x40)
    | .lpmOrExact => decide (tbl < 0x60) && !learn
    | .tcam => decide (tbl = 0x60))

/-- A lookup that goes to Woodlot. -/
def HwLookup.woodlot : HwLookup → Nat
  | .exact | .learn | .lpmOrExact => 1
  | _ => 0

/-! ### FLOW_HASH (R282, Table 102) -/

/-- The frames that Table 102 tells apart. -/
inductive HwFrame where
  | ipv4 | ipv6 | other
  deriving DecidableEq, Repr

/-- KEYSEL of stage 3's hash word. -/
def HwFrame.keysel : HwFrame → Nat
  | .ipv4 => 0x3F804241 | .ipv6 => 0x80444240 | .other => 0x3F3F0100

/-- The byte mask of its key profile, KS_KPROF(1) to KS_KPROF(3). -/
def HwFrame.kprof : HwFrame → Nat
  | .ipv4 => 0x000F0FF2 | .ipv6 => 0x0FFFFF4C | .other => 0x00003FFF

/-- The frame of a vector by the version nibble at L3_OFS: the parse flags are the parse program's own. -/
def hwFrame (v : List Byte) : HwFrame :=
  if vL3 v = 0xFF then .other
  else if vb v (vL3 v) / 16 = 4 then .ipv4 else if vb v (vL3 v) / 16 = 6 then .ipv6 else .other

/-- FLOW_HASH of a frame; a terminated VXLAN frame takes the outer UDP source port in both halves. -/
def State.hwFlowHash (s : State) (pg : Nat) (v : List Byte) (vxlan : Bool) : Nat :=
  if vxlan then vBe v (vL4 v) 2 * 65537
  else
    let x := hwFrame v
    Nat.xor (crc32cStd (formKey v x.keysel x.kprof)) (s.reg pg Reg.ksHashSeed).toNat

/-! ### Groups (R283, Table 103) -/

/-- Word a of the local memory of ingress stage 6. -/
def State.hwWord (s : State) (sl a : Nat) : Word := s.memW (pgKerf sl .ingress 6) 2 a

/-- The member word that a hash selects in group g; none is a drop with NO_DEST. -/
def State.hwMember (s : State) (sl g hash : Nat) : Option Word :=
  let w := s.hwWord sl g
  if bit w 21 = false ∨ (bit w 20 ∧ 255 < g) then none
  else
    let h := if bit w 20 then hash % 65536 else hash / 65536 % 65536
    some (s.hwWord sl (fld w 0 14 + h * (fld w 14 6 + 1) / 65536))

/-- A next hop: DEST, destination MAC, egress VID. -/
structure NextHop where
  dest : Nat
  mac  : Nat
  vid  : Nat
  deriving DecidableEq, Repr

def State.hwNextHop (s : State) (sl n : Nat) : NextHop :=
  let w := fun i => s.hwWord sl (8192 + 4 * n + i)
  { dest := fld (w 0) 0 27, mac := (w 1).toNat * 65536 + fld (w 2) 16 16, vid := fld (w 3) 0 12 }

/-- A DEST that names a LAG group takes the port of the member that FLOW_HASH selects. -/
def State.hwLag (s : State) (sl dest hash : Nat) : Option Nat :=
  if dest / 1024 % 2 = 0 then some dest
  else (s.hwMember sl (dest % 256) hash).map (fun m => dest - dest % 2048 + fld m 0 10)

/-- The selection of an ECMP group: the next hop, with its LAG member as a second selection. -/
def State.hwEcmp (s : State) (sl g hash : Nat) : Option (NextHop × Nat) :=
  match s.hwMember sl g hash with
  | none => none
  | some m =>
    let n := s.hwNextHop sl (fld m 0 11)
    (s.hwLag sl n.dest hash).map (fun d => (n, d))

/-! ### Locks, split horizon, LACP (06_tables.md R190; R284) -/

/-- Ingress stage 1 drops a frame whose learning-table result has LOCK_DROP = 1. -/
def hwLocked (res : Nat) : Bool := decide (res / 2 ^ 127 % 2 = 1)

/-- Egress stage 1 drops a flooded or multicast copy that would leave at egress slot e and came in at slot p. -/
def State.hwSplit (s : State) (h e p : Nat) : Bool :=
  let a := s.learnPort h e
  let b := s.learnPort h p
  decide (a.2 = 1 ∧ b.2 = 1 ∧ a.1 = b.1)

/-- A LACP frame: the slow-protocols EtherType, subtype 1 (IEEE 802.1AX; PRESUMED, log entry 11). It is punted to the host. -/
def hwLacp (v : List Byte) : Bool := decide (vBe v 12 2 = 0x8809 ∧ vb v 14 = 1)

/-! ### Raft mode (11_raft.md R339, Table 125) -/

/-- RAFT_DST with PUSH = 1: DLAG, device and port (11_raft.md Table 124). -/
def hwPush (dev port dlag : Nat) : Nat := 2 ^ 31 + dlag * 2 ^ 26 + dev * 1024 + port

/-- RAFT_DST with FLOOD = 1 and a tree. -/
def hwFlood (tree : Nat) : Nat := 2 ^ 30 + tree

/-- What Heartwood does with a frame that came with a Raft tag (Table 125): RAFT_DST, whether the stages end there (FINAL), the frame byte
from which the carried frame is classified, TC and COLOR, whether its source is learned, DEST where a queue is found. -/
structure HwRaft where
  dst   : Nat := 0
  final : Bool := false
  from_ : Nat := 0
  qos   : Option (Nat × Nat) := none
  learn : Bool := false
  dest  : Option Nat := none
  deriving DecidableEq, Repr

/-- The rows of Table 125 for RAFT = 1, on the frame's tag; own is the device's Raft ID. -/
def State.hwRaft (s : State) (sl own : Nat) (f : Frame) : HwRaft :=
  let w0 := raftWord f.data 0
  let dev := raftWord f.data 1 % 65536
  let port := raftWord f.data 2 / 2 ^ 22
  let dlag := w0 / 256 % 2
  let tc := w0 / 2 ^ 18 % 16
  let here : HwRaft := { from_ := 30, qos := some (tc, w0 / 1024 % 4), learn := true }
  if raftType f.data = 1 then here
  else if dev ≠ own then { dst := hwPush dev port dlag, final := true }
  else if dlag = 1 then
    { here with dest := (s.hwMember sl (port % 256) (raftWord f.data 3)).map (fun m => 2 ^ 30 + 32 * fld m 0 10 + tc) }
  else { here with dest := some (2 ^ 30 + 32 * port + tc) }

/-- Table 125 for RAFT = 0 and a destination result (06_tables.md Table 71): RAFT_DST pushes to another device. -/
def hwRemote (own result : Nat) : Option Nat :=
  let dev := result / 2048 % 65536
  if dev = own then none else some (hwPush dev (result % 1024) (result / 1024 % 2))

/-- Table 125 for RAFT = 0 and a flood in a VLAN: DEST and RAFT_DST, from the VLAN's flood group and its tree. -/
def hwVlanFlood (group tree : Nat) : Nat × Nat := (2 ^ 31 + group, hwFlood tree)

/-! ### A program that is Heartwood -/

/-- The word at an address of a stage makes no lookup but the stage's (Table 59), so that a packet makes at most four in Woodlot. -/
def State.hwMaps (s : State) (sl b a : Nat) (dir : Dir) (n : Nat) : Prop :=
  let w := s.microAt (pgKerf sl dir n) b a
  (hwLookup dir n).allows (mTblid w) (mLearn w) = true

/-- The word at an address of ingress stage 3 writes Heartwood's FLOW_HASH into the vector of a frame that is no terminated VXLAN. -/
def State.hwHashes (s : State) (sl b a : Nat) (f : Frame) : Prop :=
  let pg := pgKerf sl .ingress 3
  vFlowHash (s.runMicro sl .ingress pg b (s.microAt pg b a) f).2.vec = s.hwFlowHash pg f.vec false

/-- The word at an address of egress stage 1 drops exactly the copies that Heartwood drops there with SPLIT_HORIZON: copies made
from a multicast frame for a queue of slot e. -/
def State.hwPrunes (s : State) (sl b a : Nat) (f : Frame) : Prop :=
  let w := s.microAt (pgKerf sl .egress 1) b a
  (mAct w = 1 ∧ mCode w = hwSplitHorizon) ↔
    (vDtype f.vecIn = 2 ∧ s.hwSplit (sliceHalf sl) (f.q / 32) (vInPort f.vec) = true)

/-- The word at an address of ingress stage 0 sends a frame for another device on as Table 125 says: RAFT_DST, and FINAL. -/
def State.hwRelays (s : State) (sl b a : Nat) (f : Frame) : Prop :=
  let pg := pgKerf sl .ingress 0
  let x := s.hwRaft sl (s.ownId (sliceHalf sl)) f
  vRaft f.vec = true → x.final = true →
    vRaftDst (s.runMicro sl .ingress pg b (s.microAt pg b a) f).2.vec = x.dst ∧ mAct (s.microAt pg b a) = 3

/-- The word at an address of ingress stage 7 punts a LACP frame. -/
def State.hwPunts (s : State) (sl b a : Nat) (f : Frame) : Prop :=
  hwLacp f.vec = true → mAct (s.microAt (pgKerf sl .ingress 7) b a) = 2

end Sys2Proof.Machine
end

