-- ==== Sys2Proof/Machine/Lands.lean ====
section
/-! DEFINITION. The land grid, the pins and the electrical limits (18_pins_electrical.md R466 to R486): what each land carries and the
limits of each pin, supply and interface. They hold no state that a command changes (log entry 4). -/

namespace Sys2Proof.Machine

/-! ### Lands (R466 to R472) -/

/-- A land: row and column, 1 to 145 each, seen from the lid side (R466). -/
structure Land where
  row : Nat
  col : Nat
  deriving DecidableEq, Repr

/-- A site of the grid (R466). -/
def Land.ok (x : Land) : Bool := decide (1 ≤ x.row ∧ x.row ≤ 145 ∧ 1 ≤ x.col ∧ x.col ≤ 145)

/-- The die under a land: the half, none for column 073 (R466). -/
def Land.half (x : Land) : Option Nat := if x.col ≤ 72 then some 0 else if 74 ≤ x.col then some 1 else none

/-- The column of the P land, or of the N land, of lane l (R469). -/
def laneCol (l : Nat) (p : Bool) : Nat :=
  let b := l % 512 / 32
  if l < 512 then (if p then 2 * b + 1 else 2 * b + 2) else (if p then 145 - 2 * b else 144 - 2 * b)

/-- LN_TX_P and LN_TX_N, LN_RX_P and LN_RX_N of lane l (R469). -/
def laneTx (l : Nat) (p : Bool) : Land := { row := 9 + 4 * (l % 32), col := laneCol l p }
def laneRx (l : Nat) (p : Bool) : Land := { row := 11 + 4 * (l % 32), col := laneCol l p }

/-- LREF_P and LREF_N of lane reference clock q (R470), which serves lanes 128q to 128q + 127 (00_scope.md R7). -/
def lrefLand (q : Nat) (p : Bool) : Land :=
  { row := 4, col := if q < 4 then 8 * q + (if p then 4 else 5) else (if p then 142 else 141) - 8 * (q - 4) }
def lrefOf (l : Nat) : Nat := l / 128

/-- PE_TX and PE_RX of PCIe lane j, and PE_REF (R471). -/
def peTx (j : Nat) (p : Bool) : Land := { row := 2, col := (if p then 41 else 42) + 4 * j }
def peRx (j : Nat) (p : Bool) : Land := { row := 6, col := (if p then 41 else 42) + 4 * j }
def peRef (p : Bool) : Land := { row := 4, col := if p then 41 else 42 }

/-- What supplies or grounds a site (Table 178). -/
inductive Supply where
  | vss | core | sram | hbm | hbmQ | lnA | lnH | io (bank : Nat) | aon
  deriving DecidableEq, Repr

/-- The supply that a site of the die region carries (Table 178). -/
def dieSupply (x : Land) : Supply :=
  if (x.row + x.col) % 2 = 0 then .vss else if x.row ≤ 16 then .sram
  else if 133 ≤ x.row then .hbmQ else if 129 ≤ x.row then .hbm else .core

/-- The supply of a site that no signal has: the regions of Table 178, and rows 144 and 145 (R472). -/
def Land.supply (x : Land) : Supply :=
  if [34, 36, 38, 108, 110, 112].contains x.col then .lnA
  else if [35, 39, 107, 111].contains x.col then .lnH
  else if 9 ≤ x.row ∧ x.row ≤ 136 ∧ (41 ≤ x.col ∧ x.col ≤ 72 ∨ 74 ≤ x.col ∧ x.col ≤ 105) then dieSupply x
  else if x.row = 144 ∧ 41 ≤ x.col ∧ x.col ≤ 71 ∧ x.col % 2 = 1 then .io ((x.col - 41) / 8)
  else if x.row = 145 ∧ 41 ≤ x.col ∧ x.col ≤ 48 then .aon
  else .vss

/-- The sense lands of VDD_CORE and VDD_SRAM, P and N (Table 178). -/
def senseCore (p : Bool) : Land := { row := if p then 72 else 74, col := 73 }
def senseSram (p : Bool) : Land := { row := if p then 70 else 76, col := 73 }

/-- The signals of a management row in order (Table 179). -/
def mgmtRow (row : Nat) : List String :=
  if row = 138 then ["QSPI_CLK", "QSPI_CS_N", "QSPI_IO0", "QSPI_IO1", "QSPI_IO2", "QSPI_IO3", "UART_TXD", "UART_RXD", "TCK", "TMS",
    "TDI", "TDO", "TRST_N"]
  else if row = 139 then ["I2C0_SCL", "I2C0_SDA", "I2C1_SCL", "I2C1_SDA", "I2C2_SCL", "I2C2_SDA", "I2C3_SCL", "I2C3_SDA",
    "PMB_SCL", "PMB_SDA"]
  else if row = 140 then (List.range 32).map (fun i => "GPIO" ++ toString i)
  else if row = 141 then ["PPS_IN", "PPS_OUT", "REF10M_IN"]
  else if row = 142 then (List.range 4).flatMap (fun n =>
    ["_CLK", "_FS", "_DIN", "_DOUT"].map (fun x => "OHSP" ++ toString n ++ x))
  else if row = 143 then ["PORST_N", "CHIPRST_N", "PERST_N", "FAULT_N", "THERMTRIP_N", "ALERT_N", "HEAD_SEL", "BOOT_SRC0", "BOOT_SRC1"]
  else []

/-- The management signal of a land (R472). -/
def mgmtSignal (x : Land) : Option String :=
  if x.row = 143 ∧ x.col = 70 then some "XTAL_IN" else if x.row = 143 ∧ x.col = 72 then some "XTAL_OUT"
  else if x.col < 41 then none else (mgmtRow x.row)[x.col - 41]?

/-- The bank that powers a management row, none for VDD_AON's (Table 179). -/
def mgmtBank (row : Nat) : Option Nat :=
  if row = 138 then some 0 else if row = 139 then some 1 else if row = 140 ∨ row = 141 then some 2 else if row = 142 then some 3 else none

/-! ### Levels and limits (R473 to R486) -/

/-- What a level at a bank or dedicated pin reads as, at a supply, both in mV: none between the limits (Table 180). -/
def pinReads (supply level : Nat) : Option Bool :=
  if 7 * supply ≤ 10 * level then some true else if 10 * level ≤ 3 * supply then some false else none

/-- A level the board may drive a bank pin to, in mV (R474). -/
def pinDriveOk (supply : Nat) (level : Int) : Bool := decide (-300 ≤ level ∧ level ≤ (supply : Int) + 300)

/-- The pull inside a dedicated pin: down, up or none (Table 182). -/
inductive Pull where
  | none | down | up
  deriving DecidableEq, Repr

/-- The dedicated pins in the order of Table 182: name, output, pull. -/
def dedicatedPins : List (String × Bool × Pull) :=
  [("PORST_N", false, .down), ("CHIPRST_N", false, .up), ("PERST_N", false, .down), ("FAULT_N", true, .none),
   ("THERMTRIP_N", true, .none), ("ALERT_N", false, .up), ("HEAD_SEL", false, .down), ("BOOT_SRC0", false, .down),
   ("BOOT_SRC1", false, .down)]

/-- A rail of Table 183: nominal voltage, operating tolerance in tenths of a per cent, absolute maximum, typical and maximum current in 0.1 A;
voltages in mV. -/
structure Rail where
  name : String
  nom  : Nat
  tol  : Nat
  amax : Nat
  typ  : Nat
  cmax : Nat
  deriving DecidableEq, Repr

/-- The rails but the banks' (Table 183); VDD_CORE at its nominal setpoint. -/
def rails : List Rail :=
  [⟨"VDD_CORE", 750, 30, 950, 5770, 8000⟩, ⟨"VDD_SRAM", 800, 30, 950, 750, 1100⟩, ⟨"VDDA_LN", 900, 30, 1050, 4600, 4800⟩,
   ⟨"VDDH_LN", 1200, 30, 1400, 2350, 2450⟩, ⟨"VDD_HBM", 1100, 30, 1250, 360, 450⟩, ⟨"VDDQ_HBM", 400, 30, 550, 510, 650⟩,
   ⟨"VDD_AON", 3300, 50, 4000, 5, 10⟩]

/-- A level lies in a rail's operating range. -/
def Rail.inRange (r : Rail) (mv : Nat) : Bool := decide (r.nom * (1000 - r.tol) ≤ 1000 * mv ∧ 1000 * mv ≤ r.nom * (1000 + r.tol))

/-- The steps in which the board ramps the rails (R484). -/
def rampSteps : List (List String) :=
  [["VDD_AON"], ["VDDIO_M0", "VDDIO_M1", "VDDIO_M2", "VDDIO_M3"], ["VDD_SRAM", "VDD_CORE"], ["VDDA_LN", "VDDH_LN"],
   ["VDD_HBM", "VDDQ_HBM"]]

/-- The conditions under which any ramp leaves the device undamaged, levels in mV (R484). -/
def rampSafe (core sram hbm hbmQ : Nat) : Bool := decide (core ≤ sram + 100 ∧ hbmQ ≤ hbm)

/-- The PMBus address of the regulator of rail r, in the order of R485. -/
def pmbusAddress (r : Nat) : Nat := 0x40 + r

/-- The highest lid temperature allowed at a power in W, in thousandths of a degree (R486). -/
def lidLimit (watts : Nat) : Int := 105000 - 12 * (watts : Int)

end Sys2Proof.Machine
end

