-- ==== Sys2Proof/WellFormed.lean ====
section
/-! DEFINITION. Which commands are well formed: every operand that its type does not bound lies in the range the spec gives
it. A command that is not well formed stands for nothing outside; its meaning is total all the same. -/

namespace Sys2Proof

/-- A Lookout message's fields fit their bits (14_lookout_faults.md Table 148). -/
def Message.ok (m : Message) : Bool :=
  decide (m.src < 512) && decide (m.code < 32) && decide (m.kind < 8) && decide (m.inst < 16) && decide (m.seq < 256)

/-- An access lies in BAR0, 256 MiB, or in BAR2 where its words are aligned, and carries four byte enables (02_registers.md R34, R41,
12_host_interface.md R346). -/
def Access.ok (a : Access) : Bool := (decide (a.addr < 2 ^ 28) || a.bar2 && decide (a.addr % a.size = 0)) && decide (a.size = 4 ∨ a.size = 8) && decide (a.be < 16)

/-- A page number (02_registers.md R34): 13 bits of PG_ID. -/
def pageOk (p : Nat) : Bool := decide (p < 2 ^ 13)

/-- The offset of a register of a page: a word of its 64 KiB (R34). -/
def offOk (o : Nat) : Bool := decide (o < 0x10000) && decide (o % 4 = 0)

/-- The 35 taps that a lane's adaptation finds, 16 bits each (03_lanes_ports.md R72, R92). -/
def LaneMeas.ok (m : LaneMeas) : Bool := decide (m.coef.length = 70)

/-- The 16 bins of a FEC window (03_lanes_ports.md Table 32). -/
def FecWindow.ok (w : FecWindow) : Bool := decide (w.bins.length = 16)

/-- No more bytes than the frame has on the wire. -/
def RxFrame.ok (f : RxFrame) : Bool := decide (f.bytes.length ≤ f.len)

/-- The readings of 32 sensors, signed bytes (15_firebreak_power.md R414). -/
def TempSample.ok (t : TempSample) : Bool :=
  decide (t.dies.length = 32) && (t.dies ++ [t.hbm0, t.hbm1]).all (fun x => decide (-128 ≤ x ∧ x < 128))

/-- Two words for each of rails 0 to 10 (16_forester_security.md Table 164). -/
def RailTelemetry.ok (r : RailTelemetry) : Bool := decide (r.words.length = 22)

/-- The supplies of banks M0 to M3, in 12 bits of mV (18_pins_electrical.md R473). -/
def PinSample.ok (p : PinSample) : Bool := decide (p.io.length = 4) && p.io.all (fun x => decide (x < 4096))

/-- A place in Woodlot: 224 logical banks, of which those for exact match have 4,096 buckets of 4 slots; 8 stash slots
(06_tables.md R169, R176). -/
def EmLoc.ok : EmLoc → Bool
  | .slot _ bank bucket idx => decide (bank < 224) && decide (bucket < 4096) && decide (idx < 4)
  | .stash _ idx => decide (idx < 8)

/-- A cell of a half (08_deck_admission.md R239). -/
def cellOk (c : Nat) : Bool := decide (c < 786432)

/-- A cell that an error touches. -/
def DeckEcc.ok : DeckEcc → Bool
  | .corrected => true
  | .data c => cellOk c
  | .tag c => cellOk c
  | .link _ => true

/-- A span frame (04_span_framing.md R94). -/
def spanFrameOk (b : List Byte) : Bool := decide (b.length = 8192)

/-- A TDM frame of 32 timeslots (04_span_framing.md R122). -/
def tdmOk (d : List (BitVec 10)) : Bool := decide (d.length = 32)

/-- A descriptor of eight words, none when the read failed (12_host_interface.md R352). -/
def descOk : Option (List Word) → Bool
  | some ws => decide (ws.length = 8)
  | none => true

/-- The checks of a command's operands. -/
def Instr.wellFormed : Instr → Bool
  | .registerWrite a | .counterLowRead a => a.ok
  | .counterHighWrite _ p o _ | .counterLowWrite _ p o _ => pageOk p && offOk o
  | .pgEvtClear _ p _ | .pgLock _ p | .blockResetDone p | .postedWritePerformed p => pageOk p
  | .blkRst x => pageOk x.page
  | .winRead _ p _ | .winWrite _ p _ | .winBadOp _ p _ _ | .winCmdDone p _ => pageOk p
  | .adaptConverged _ m => m.ok
  | .fecDegrWindow _ w => w.ok
  | .rxFrame _ f => f.ok
  | .spanFrameRx _ b => spanFrameOk b
  | .ohspFrame _ d => tdmOk d
  | .agingVisit loc | .woodlotEccError _ loc _ => loc.ok
  | .cellFree _ _ c _ => cellOk c
  | .deckEccError _ e => e.ok
  | .descriptorFetch _ ws => descOk ws
  | .lookoutMessage _ (some m) => m.ok
  | .tempSample t => t.ok
  | .sensors r => r.ok
  | .porstN _ p | .chiprstN _ p | .vddAonReset p => p.ok
  | _ => true

end Sys2Proof
end

