-- ==== Sys2Proof/Tests/Slice0.lean ====
section
/-! SUPPORT. Tests: well-formedness refuses ill-formed operands; values that the spec's worked examples and tables give; for
each statement with hypotheses a witness that meets them. -/

namespace Sys2Proof.Machine.Tests

set_option Elab.async false

/-- The device after power-on with these registers. -/
def withRegs (l : List (Nat × Nat × Word)) : State := { State.reset with regs := l.map (fun x => (regKey x.1 x.2.1, x.2.2)) }
/-- A device in the state s, in service: the West cluster is head. -/
def serving (s : State) : State :=
  { s with rst := { phase := .run }
           forester := { holder := 1, epoch := 1, west := { st := .head, epoch := 1 }, east := { st := .standby } } }
/-- The device in service with this bus. -/
def busState (b : Bus) : State := serving { State.reset with bus := b }

theorem reaches_of {s : State} {w : Bool} {a : Access} (h : (!a.bar2 && s.runsOn a.req && !s.fenceRuns a.req
    && decide (s.frontCause w a = none) && !s.writeFenced a.req (accPage a) (s.carried a.req)
    && s.pageReady a.req (accPage a)) = true) : s.Reaches w a := by
  simp only [Bool.and_eq_true, Bool.not_eq_true', decide_eq_true_eq] at h
  obtain ⟨⟨⟨⟨⟨h1, h2⟩, h3⟩, h4⟩, h5⟩, h6⟩ := h
  exact ⟨h1, h2, h3, h4, fun _ => h5, fun _ => h6⟩

/-- A write of r to a register of page p reaches it, and no rule of the page drops it. -/
def mayWrite (s : State) (r : Requester) (p o : Nat) : Bool :=
  let a := accessTo r p o 0
  !a.bar2 && s.runsOn a.req && !s.fenceRuns a.req && decide (s.frontCause true a = none)
    && !s.writeFenced a.req (accPage a) (s.carried a.req) && s.pageReady a.req (accPage a) && !readOnly p o && !s.lockHits p o

theorem may_of {s : State} {r : Requester} {p o : Nat} (h : mayWrite s r p o = true) :
    s.Reaches true (accessTo r p o 0) ∧ readOnly p o = false ∧ s.lockHits p o = false := by
  simp only [mayWrite, Bool.and_eq_true, Bool.not_eq_true'] at h
  refine ⟨reaches_of ?_, h.1.2, h.2⟩
  simpa only [Bool.and_eq_true, Bool.not_eq_true'] using h.1.1

theorem now_of {s : State} {r : Requester} {p o : Nat} (h : (mayWrite s r p o && !postsWrite p o) = true) :
    s.WritesNow r p o := by
  simp only [Bool.and_eq_true, Bool.not_eq_true'] at h
  have k := may_of h.1
  exact ⟨k.1, h.2, k.2.1, k.2.2⟩

theorem posts_of {s : State} {r : Requester} {p o : Nat} (h : (mayWrite s r p o && postsWrite p o && !s.wbusy p
    && s.bus.held.isEmpty) = true) : s.Posts r p o := by
  simp only [Bool.and_eq_true, Bool.not_eq_true', List.isEmpty_iff] at h
  have k := may_of h.1.1.1
  exact ⟨k.1, h.1.1.2, h.1.2, k.2.1, k.2.2, by rw [h.2]; intro x hx; cases hx⟩

theorem plain_of {s : State} {p o : Nat} {r : RegSpec} (h : (decide (regSpec p o = some r) && decide (0x40 ≤ o) && !r.wide
    && !readOnly p o && !s.lockHits p o) = true) (hb : pageBlk p ∈ [some .chip, some .ohsp, some .flume, some .learn,
    some .slice, some .sched, some .tcam, some .deparser]) (hs : pageBlk p ≠ some .sched) : s.PlainReg p o r := by
  simp only [Bool.and_eq_true, Bool.not_eq_true', decide_eq_true_eq] at h
  exact ⟨h.1.1.1.1, hb, h.1.1.1.2, h.1.1.2, h.1.2, h.2, fun x => absurd x hs⟩

/-- The register of a TCAM slice page with a 32-bit field. -/
def tcamSpec : RegSpec := (regSpec (pgTcam 3) 0x44).getD { off := 0 }
/-- LR_AGE. -/
def ageSpec : RegSpec := (regSpec (pgLearn 0) Reg.lrAge).getD { off := 0 }

/-! ### Well-formedness refuses an operand out of its range -/

theorem test_wf_access : (Instr.registerWrite { req := .host, addr := 2 ^ 28 + 2 ^ 15 }).wellFormed = false
    ∧ (Instr.counterLowRead { req := .west, addr := 0, size := 2 }).wellFormed = false
    ∧ (Instr.registerWrite { req := .host, addr := 0, be := 16 }).wellFormed = false := by decide
theorem test_wf_pages : (Instr.counterHighWrite .host 0x2000 0x40 0).wellFormed = false
    ∧ (Instr.counterLowWrite .host 0 0x42 0).wellFormed = false ∧ (Instr.blkRst ⟨.host, 0x2000⟩).wellFormed = false
    ∧ (Instr.winRead .host 0x2000 0).wellFormed = false := by decide
theorem test_wf_lanes : (Instr.adaptConverged 0 { ctle := 0, eye := 0, ppm := 0, coef := [] }).wellFormed = false
    ∧ (Instr.fecDegrWindow 0 { bins := [], uncorr := 0 }).wellFormed = false
    ∧ (Instr.rxFrame 0 { bytes := [0], len := 0 }).wellFormed = false := by decide
theorem test_wf_spans : (Instr.spanFrameRx 0 []).wellFormed = false ∧ (Instr.ohspFrame 0 []).wellFormed = false := by decide
theorem test_wf_tables : (Instr.agingVisit (.slot 0 224 0 0)).wellFormed = false
    ∧ (Instr.agingVisit (.stash 0 8)).wellFormed = false ∧ (Instr.deckEccError 0 (.tag 786432)).wellFormed = false
    ∧ (Instr.descriptorFetch 0 (some [])).wellFormed = false := by decide
theorem test_wf_sensors : (Instr.tempSample { dies := [], hbm0 := 0, hbm1 := 0 }).wellFormed = false
    ∧ (Instr.sensors { words := [] }).wellFormed = false
    ∧ (Instr.porstN true { headSel := false, bootSrc := 0, io := [4096, 0, 0, 0] }).wellFormed = false
    ∧ (Instr.lookoutMessage .common (some { src := 512, code := 0, typ := .rise, kind := 0, inst := 0 })).wellFormed = false := by
  decide

/-! ### Values that the spec's worked examples give -/

/-- 04_span_framing.md R101, examples of headers. -/
theorem test_span_headers : spanHeader 0 0 false = 0x55 ∧ spanHeader 0 0 true = 0x4092 ∧ spanHeader 64 1 false = 0x010080B7 := by
  decide
/-- 02_registers.md, worked example: pages, frames and the byte address of PG_EVT. -/
theorem test_page_frames : pgSpan 18 = 0x1254 ∧ pageFrame (pgSpan 18) = 0xA54 ∧ pageFrame 0x1066 = 0x866
    ∧ accPage { req := .host, addr := 0x0A540010 } = 0x1254 ∧ accOff { req := .host, addr := 0x0A540010 } = 0x10 := by decide
/-- 02_registers.md, worked example: WIN_CMD of a write of ten words. -/
theorem test_win_cmd : winCmdWord 2 9 = 0x26 := by decide
/-- 02_registers.md, worked example: event 3 beside event 0, a missed clear, and the clear that hits. -/
theorem test_evt_rise : evtRise 0x05000001 (2 ^ 3) = 0x06000009 ∧ evtRise 0x06000009 (2 ^ 22) = 0x07400009 := by decide
theorem test_evt_clear :
    (((busState {}).setReg pgTime 0x10 0x06000009).evtClear pgTime 0x05000001).evt pgTime = 0x07400009
    ∧ (((busState {}).setReg pgTime 0x10 0x07400009).evtClear pgTime 0x07400009).evt pgTime = 0x07000000 := by
  decide +kernel
/-- 14_lookout_faults.md, worked example: word 0 of source 21's RISE and FALL. -/
theorem test_supply_messages : msgWord0 { src := 21, code := 0, typ := .rise, kind := 5, inst := 0 } = 0x00050015
    ∧ msgWord0 { src := 21, code := 0, typ := .fall, kind := 5, inst := 0 } = 0x00054015 := by decide
/-- 11_raft.md, worked example: the member that a hash picks among weights 16, 16, 12, 16. -/
theorem test_raft_member : pickMember (0x8A00 * 60 / 65536) 0 0 [16, 16, 12, 16] = 2 := by decide
/-- 00_scope.md, worked example: slice, half and clock of slot 600. -/
theorem test_port_600 : portSlice 600 = 18 ∧ portHalf 600 = 1 := by decide
/-- 05_parser_kerf.md, worked example: the window words of a routing microword give its fields. -/
theorem test_microword : let w := wordsNat [0x04000000, 0x01400020, 0x00001E00, 0x00000040, 0x01009881, 0x00A28140, 0x0C258400, 0,
      0x40000000, 0x3F3F3F42]
    mKeysel w = 0x3F3F3F42 ∧ mTblid w = 0x40 ∧ mAlu w 0 = 0x9881000000 ∧ mAlu w 1 = 0xA281400100 ∧ mAlu w 2 = 0x0C25840000
    ∧ mAlu w 3 = 0 ∧ mHvwr w = 0x4000001E ∧ mMode w = 1 ∧ mFsel w = 0 ∧ mNext w = 0x100 ∧ mAct w = 0 ∧ mCntEn w = true
    ∧ mCntBase w = 0x10 ∧ mMeterEn w = false := by decide +kernel
/-- The check value of CRC-32C over the digits 1 to 9, of its standard. -/
theorem test_crc32c : crc32cStd [0x31, 0x32, 0x33, 0x34, 0x35, 0x36, 0x37, 0x38, 0x39] = 0xE3069283 := by decide +kernel

/-- 18_pins_electrical.md, worked example: the lands of the first lane of port 600, and its reference clock's. -/
theorem test_lands_600 : laneTx 600 true = ⟨105, 141⟩ ∧ laneTx 600 false = ⟨105, 140⟩ ∧ laneRx 600 true = ⟨107, 141⟩
    ∧ lrefLand (lrefOf 600) true = ⟨4, 142⟩ ∧ (laneTx 600 true).half = some 1 := by decide
/-- 09_queues_forwarding.md R283: ECMP group 5 has four members from word 100; the upper half 0x8000 of a hash picks the third. -/
theorem test_group_member : let s := (State.reset.setMemW (pgKerf 3 .ingress 6) 2 5 (0x20C064)).setMemW (pgKerf 3 .ingress 6) 2 102 7
    s.hwMember 3 5 0x80001234 = some 7 ∧ s.hwMember 3 6 0x80001234 = none := by decide +kernel

/-- R165: at most four Woodlot lookups per packet. -/
theorem test_heartwood_woodlot : ((List.range 8).map (fun n => (hwLookup .ingress n).woodlot)).sum = 4 := by decide

/-! ### Single steps -/

/-- An idle step is a nanosecond. -/
theorem test_tick : ∃ t, step State.reset = .next t ∧ t.clk.up = 1 := ⟨_, rfl, by decide +kernel⟩
/-- The front command runs, and the queue's rest stays. -/
theorem test_front : ∃ t, step { State.reset with pending := [.tableNop 0, .tableNop 0] } = .next t ∧ t.pending = [.tableNop 0] := ⟨_, rfl, rfl⟩
/-- No word spells a command. -/
theorem test_no_word : State.reset.withFetchWord 32 0 = State.reset := rfl

theorem witness_EveryStepKeepsInvariant : State.reset.Inv ∧ ∃ t, step State.reset = .next t :=
  ⟨⟨⟨rfl, rfl⟩, by unfold RingSys.oneCurrent; decide, by intro x hx; cases hx⟩, _, rfl⟩

theorem witness_LifeCycleAdvancesInOrder : (∃ s t : State, s.Inv ∧ s.fuses.life ≤ 3 ∧ step s = .next t) :=
  ⟨State.reset, _, witness_EveryStepKeepsInvariant.1, by decide, rfl⟩

theorem witness_StoppedDeviceTakesNoCommand : ∃ s : State, s.live = false :=
  ⟨{ State.reset with rst := { tripped := true } }, rfl⟩

theorem witness_BusErrorLog : ∀ w : Bool, (∃ (s : State) (a : Access), s.live = true ∧ a.bar2 = false ∧ s.runsOn a.req = true ∧ s.fenceRuns a.req = false
      ∧ s.frontCause w a = some beUnmapped ∧ s.rbit pgChip 0x10 0 = false)
    ∧ (∃ (s : State) (a : Access), s.live = true ∧ a.bar2 = false ∧ s.runsOn a.req = true ∧ s.fenceRuns a.req = false ∧ s.frontCause w a = some beReserved
      ∧ s.rbit pgChip 0x10 0 = true) := fun w =>
  ⟨⟨busState {}, accessTo .host 0x7FF 0x40 1, rfl, rfl, rfl, rfl, by cases w <;> decide, rfl⟩,
   ⟨(busState {}).setReg pgChip 0x10 1, accessTo .host pgTime 0xFFFC 1, rfl, rfl, rfl, rfl, by cases w <;> decide +kernel, rfl⟩⟩

theorem witness_BlockNotReady :
    (∃ (s : State) (a : Access), s.live = true ∧ a.bar2 = false ∧ s.runsOn a.req = true ∧ s.fenceRuns a.req = false ∧ s.pageReady a.req (accPage a) = false
      ∧ s.frontCause false a = none ∧ 0x40 ≤ accOff a ∧ isStaging (accPage a) (accOff a) = false)
    ∧ (∃ (s : State) (a : Access), s.live = true ∧ a.bar2 = false ∧ s.runsOn a.req = true ∧ s.fenceRuns a.req = false ∧ s.pageReady a.req (accPage a) = false
      ∧ s.frontCause true a = none ∧ (postsWrite (accPage a) (accOff a) = true ∨ s.writeFenced a.req (accPage a) (s.carried a.req) = false)
      ∧ 0x40 ≤ accOff a
      ∧ isStaging (accPage a) (accOff a) = false ∧ s.rbit pgChip 0x10 0 = false)
    ∧ (∃ (s : State) (a : Access), s.live = true ∧ a.bar2 = false ∧ s.runsOn a.req = true ∧ s.fenceRuns a.req = false ∧ s.pageReady a.req (accPage a) = false
      ∧ s.frontCause false a = none ∧ accOff a < 0x20)
    ∧ (∃ (s : State) (a : Access), s.live = true ∧ a.bar2 = false ∧ s.runsOn a.req = true ∧ s.fenceRuns a.req = false ∧ s.pageReady a.req (accPage a) = false
      ∧ s.frontCause true a = none ∧ s.writeFenced a.req (accPage a) (s.carried a.req) = false ∧ accOff a = Reg.pgEvtEn) :=
  ⟨⟨State.reset, accessTo .host pgTime Reg.tmCtrl 1, by decide +kernel⟩,
   ⟨State.reset, accessTo .host pgTime Reg.tmCtrl 1, by decide +kernel⟩,
   ⟨State.reset, accessTo .host pgTime 0x1C 1, by decide +kernel⟩,
   ⟨State.reset, accessTo .host pgTime 0x14 1, by decide +kernel⟩⟩

theorem witness_EventClear : ∀ v : Word, v = 3 ∨ v = 0 ∨ v = 0x01000003 →
    ∃ (s : State) (req : Requester) (p : Nat), s.live = true ∧ s.Reaches true (accessTo req p Reg.pgEvt v)
      ∧ (p ≠ pgLookout ∨ s.lookout.qCommon.length < 256) ∧ s.rbit p 0x10 22 = false :=
  fun v hv => ⟨busState {}, .host, pgTime, rfl, by rcases hv with rfl | rfl | rfl <;> exact reaches_of (by decide +kernel), .inl (by decide), rfl⟩

theorem witness_ReadOnlyRegisters :
    (∃ (s : State) (a : Access), s.live = true ∧ s.Reaches true a ∧ readOnly (accPage a) (accOff a) = true
      ∧ postsWrite (accPage a) (accOff a) = false ∧ s.rbit pgChip 0x10 0 = false)
    ∧ (∃ (s : State) (p o : Nat) (v : Word) (q : Requester) (n e : Nat), s.live = true
      ∧ AMap.get none s.bus.posted p = some ⟨q, .write o v, n, e⟩ ∧ s.writeFenced q p e = false ∧ s.pageReady q p = true
      ∧ (pageBlk p).isSome = true ∧ readOnly p o = true ∧ o < 0x10000 ∧ (∀ x ∈ s.bus.held, x.fenced = true ∨ accPage x.acc ≠ p)
      ∧ s.rbit pgChip 0x10 0 = false)
    ∧ (∃ (s : State) (a : Access) (r : RegSpec), s.live = true ∧ s.Reaches true a ∧ s.PlainReg (accPage a) (accOff a) r
      ∧ postsWrite (accPage a) (accOff a) = false ∧ accPage a ≠ pgChip) :=
  ⟨⟨busState {}, accessTo .host pgTime 0x1C 1, rfl, reaches_of (by decide +kernel), by decide +kernel, by decide +kernel, rfl⟩,
   ⟨busState { posted := [(pgTcam 3, some ⟨.host, .write 0x1C 5, 0, 0⟩)] }, pgTcam 3, 0x1C, 5, .host, 0, 0, rfl, rfl, rfl, by decide +kernel,
    rfl, by decide +kernel, by decide, (by intro x hx; cases hx), rfl⟩,
   ⟨busState {}, accessTo .host (pgLearn 0) Reg.lrAge 5, ageSpec, rfl, reaches_of (by decide +kernel),
    plain_of (by decide +kernel) (by decide +kernel) (by decide +kernel), by decide +kernel, by decide⟩⟩

theorem witness_WriteFindsBufferInUse : ∃ (s : State) (a : Access), s.live = true ∧ s.Reaches true a
    ∧ postsWrite (accPage a) (accOff a) = true ∧ s.wbusy (accPage a) = true ∧ readOnly (accPage a) (accOff a) = false
    ∧ s.lockHits (accPage a) (accOff a) = false ∧ s.rbit pgChip 0x10 0 = false ∧ s.rbit (accPage a) 0x10 23 = false
    ∧ s.rbit (accPage a) 0x14 23 = true ∧ s.flumeUp = true
    ∧ (s.lookout.q (sourceQueue (pageSrc (accPage a)))).length < 256 :=
  ⟨busState { posted := [(pgTcam 3, some ⟨.host, .write 0x44 5, 0, 0⟩)] }, accessTo .west (pgTcam 3) 0x44 7, rfl,
    reaches_of (by decide +kernel), by decide +kernel, rfl, by decide +kernel, by decide +kernel, rfl, rfl, rfl, rfl, by decide⟩

theorem witness_EventRise : (∀ i ∈ [3, 23], i < 24) ∧ pgTime ≠ pgLookout ∧ State.reset.rbit pgTime 0x10 3 = false := by decide


theorem witness_ResetKeyChecked (v : Word) : ∀ x ∈ [(Instr.rstChip v, Reg.rstChip), (.rstHalf v, Reg.rstHalf), (.rstSlice v, Reg.rstSlice)],
    ∃ s : State, s.live = true ∧ s.WritesNow .host pgReset x.2 ∧ s.starting = false ∧ fld (0x92050000 : Word) 16 16 ≠ 0x9204 := by
  intro x hx
  simp only [List.mem_cons, List.not_mem_nil, or_false] at hx
  rcases hx with rfl | rfl | rfl
  · exact ⟨busState {}, rfl, now_of (o := Reg.rstChip) (by decide +kernel), rfl, by decide⟩
  · exact ⟨busState {}, rfl, now_of (o := Reg.rstHalf) (by decide +kernel), rfl, by decide⟩
  · exact ⟨busState {}, rfl, now_of (o := Reg.rstSlice) (by decide +kernel), rfl, by decide⟩

/-! ### The frames' premises on the command's register: the device in service meets them -/

theorem witness_FramesWrite : ∀ x ∈ [(pgAdmit 1, Reg.repCtrl), (pgMaint 1, Reg.mtCtrl), (pgQueue 152, Reg.hqCtrl 24),
    (pgDoorbell, 0x1000 + 4 * 152), (pgFirebreak, Reg.fbHint), (pgFirebreak, Reg.fbCtrl), (pgLookout, Reg.loClr),
    (pgLookout, Reg.loPinRel), (pgReset, Reg.rstHalf), (pgReset, Reg.rstSlice), (pgTime, Reg.tmCmd),
    (pgHalf 0, Reg.rfCtrl), (pgCruiser, Reg.crBwCtrl), (pgCruiser, Reg.crCtrl), (pgRing, Reg.ringCtrl),
    (pgRing, Reg.ringMaxage)], (busState {}).WritesNow .host x.1 x.2 :=
  fun x h => now_of (by revert x; decide +kernel)

theorem witness_FramesPost : ∀ x ∈ [(pgHbm 1, Reg.hbCtrl), (pgMatrix 0, Reg.mxCtrl), (pgParser 31, Reg.ppCtrl),
    (pgPort 1023, Reg.portCtrl 31), (pgSp 255, Reg.spCtrl 7), (pgTally 1, Reg.tyCtrl), (pgWlem 0, Reg.wlMigrate)],
    (busState {}).Posts .host x.1 x.2 :=
  fun x h => posts_of (by revert x; decide +kernel)

theorem witness_FramesPool : ∀ x ∈ [(pgDeck 1, 0x208 + 0x20 * 7), (pgDeck 0, 0x20C)],
    (serving { State.reset with deck := ⟨{}, {}⟩ }).WritesNow .host x.1 x.2 :=
  fun x h => now_of (by revert x; decide +kernel)

theorem witness_TimeCommandsComplete :
    (∃ s : State, s.live = true ∧ s.WritesNow .host pgTime Reg.tmCmd)
    ∧ (∃ s : State, s.live = true ∧ s.rbit pgTime Reg.tmPps 0 = true ∧ s.atSecond = true ∧ s.ppsHigh = none ∧ s.ioBank 2 = true
      ∧ s.rbit pgTime Reg.tmPps 1 = true ∧ (s.rbit pgTime Reg.tmPps 2 != true) = true ∧ s.rbit pgTime Reg.tmCtrl 0 = true)
    ∧ (∃ s : State, s.live = true ∧ s.ppsHigh = some 0 ∧ 0 + s.ppsWidth ≤ s.clk.up) :=
  ⟨⟨busState {}, rfl, now_of (by decide +kernel)⟩,
   ⟨withRegs [(pgTime, Reg.tmPps, 3), (pgTime, Reg.tmCtrl, 1), (pgChip, Reg.ioSense 2, 0x80000000)], by decide⟩,
   ⟨{ State.reset with ppsHigh := some 0, clk := { up := 1000000000 } }, by decide⟩⟩

theorem witness_MatrixCommandsComplete :
    (∃ s : State, s.live = true ∧ s.Posts .host (pgMatrix 1) Reg.mxCtrl)
    ∧ (∃ s : State, s.live = true ∧ (s.matrixOf 1).sweeping = true) :=
  ⟨⟨busState {}, rfl, posts_of (by decide +kernel)⟩, ⟨State.reset.setMatrix 1 { swMx := true }, by decide⟩⟩

/-- A West half with a record of the empty key in its first slot, deltas for it in the eviction queue of slice 1, one stale line. -/
def tallyState : State :=
  let slot := (({} : TallyS).slotsOf []).headD 0
  let s := withRegs [(pgTally 0, Reg.tyXctl, 1)]
  let t : TallyS := { recs := [(slot, some { pkts := 1 })], evq := [(1, [({ pkts := 2 }, false)])]
                      lines := [(65536 + 3, some { rec_ := { pkts := 1 }, dirty := some 0 })], clearing := true
                      msg := [{ rec_ := {}, cause := 0, half := 0 }], cursor := slot / 4 }
  { (s.setTally 0 t).setHbm 0 { st := .ready } with clk := { ptp := 100000000000, up := 1000000000000 } }

theorem witness_TallyCommandsComplete :
    (∃ (s : State) (d : FlowRec × Bool) (ds : List (FlowRec × Bool)) (k : Nat) (r : FlowRec),
      s.live = true ∧ s.halfUp 0 = true ∧ (s.hbmOf 0).st = .ready ∧ s.pacePass 0 = true
      ∧ (s.tallyOf 0).nextQueue (s.tallyOf 0).turn 16 = some 1
      ∧ AMap.get [] (s.tallyOf 0).evq 1 = d :: ds ∧ (s.tallyOf 0).flushq = []
      ∧ (s.tallyOf 0).findKey d.1.key ((s.tallyOf 0).slotsOf d.1.key) = some k
      ∧ AMap.get none (s.tallyOf 0).recs k = some r ∧ r.pkts + d.1.pkts < 2 ^ 40 ∧ r.drops + d.1.drops < 2 ^ 32)
    ∧ (∃ (s : State) (sl : Slice) (line : Fin 65536) (l : Line) (d : Nat), s.live = true ∧ s.halfUp 0 = true ∧ sliceHalf sl.val = 0
      ∧ s.tallyRuns 0 = true ∧ AMap.get none (s.tallyOf 0).lines (sl.val % 16 * 65536 + line.val) = some l ∧ l.dirty = some d
      ∧ d + s.cacheMax 0 ≤ s.clk.up ∧ l.rec_.pkts ≠ 0 ∧ (AMap.get [] (s.tallyOf 0).evq (sl.val % 16)).length < 32)
    ∧ (∃ s : State, s.live = true ∧ s.halfUp 0 = true ∧ s.Posts .host (pgTally 0) Reg.tyCtrl)
    ∧ (∃ s : State, s.live = true ∧ s.halfUp 0 = true ∧ (s.tallyOf 0).clearing = true) :=
  ⟨⟨tallyState, ({ pkts := 2 }, false), [], (({} : TallyS).slotsOf []).headD 0, { pkts := 1 }, by decide⟩,
   ⟨tallyState, 1, 3, { rec_ := { pkts := 1 }, dirty := some 0 }, 0, by decide⟩,
   ⟨busState {}, rfl, by decide, posts_of (by decide +kernel)⟩, ⟨tallyState, by decide⟩⟩

theorem witness_ExportAndHbmCommandsComplete :
    (∃ s : State, s.live = true ∧ s.halfUp 1 = true ∧ s.Posts .host (pgTally 1) Reg.tyCtrl
      ∧ (∀ e ∈ (s.tallyOf 1).lines, ∀ l, e.2 = some l → l.rec_.pkts = 0) ∧ (∀ e ∈ (s.tallyOf 1).evq, e.2 = []))
    ∧ (∃ (s : State) (k : Nat) (l : Line), s.live = true ∧ s.halfUp 0 = true ∧ s.Posts .host (pgTally 0) Reg.tyCtrl
      ∧ s.tallyRuns 0 = true ∧ (s.tallyOf 0).lines = [(k, some l)] ∧ l.rec_.pkts ≠ 0
      ∧ (AMap.get [] (s.tallyOf 0).evq (k / 65536)).length < 32)
    ∧ (∃ (s : State) (r : FlowRec), s.live = true ∧ s.halfUp 0 = true ∧ s.scanRuns 0 = true
      ∧ (s.tallyOf 0).exportAll = false ∧ s.rf (pgTally 0) Reg.tyXctl 0 2 = 1
      ∧ AMap.get none (s.tallyOf 0).recs (4 * (s.tallyOf 0).cursor) = some r ∧ s.scanCause 0 r false = some 0
      ∧ (∀ j ∈ [1, 2, 3], AMap.get none (s.tallyOf 0).recs (4 * (s.tallyOf 0).cursor + j) = none)
      ∧ s.ipfixFull 0 { rec_ := r, cause := 0, half := 0 } = false)
    ∧ (∃ s : State, s.live = true ∧ s.halfUp 0 = true ∧ s.scanRuns 0 = true ∧ (s.tallyOf 0).ovfIdx = 0
      ∧ (s.tallyOf 0).ovfAt + s.ovfInterval 0 ≤ s.clk.up ∧ 2 ≤ s.rf (pgTally 0) Reg.tyXctl 0 2)
    ∧ (∃ s : State, s.live = true ∧ (s.tallyOf 0).msg ≠ [] ∧ (s.tallyOf 0).msgAt + 1000000000 ≤ s.clk.up)
    ∧ (∃ s : State, s.live = true ∧ s.halfUp 1 = true ∧ s.Posts .host (pgHbm 1) Reg.hbCtrl ∧ (s.hbmOf 1).st = .ready)
    ∧ (∃ s : State, s.live = true ∧ s.halfUp 1 = true ∧ (s.hbmOf 1).st = .retrain) :=
  ⟨⟨busState {}, rfl, by decide, posts_of (by decide +kernel), (fun e h => nomatch h), (fun e h => nomatch h)⟩,
   ⟨serving tallyState, 65536 + 3, { rec_ := { pkts := 1 }, dirty := some 0 }, rfl, by decide, posts_of (by decide +kernel), by decide +kernel⟩,
   ⟨tallyState.setTally 0 { tallyState.tallyOf 0 with msg := [] }, { pkts := 1 }, by decide⟩,
   ⟨tallyState.setReg (pgTally 0) Reg.tyXctl 2, by decide⟩, ⟨tallyState, by decide⟩,
   ⟨serving (State.reset.setHbm 1 { st := .ready }), rfl, by decide, posts_of (by decide +kernel), rfl⟩,
   ⟨State.reset.setHbm 1 { st := .retrain }, by decide⟩⟩

/-- A commit of the host that is ready waits at the end of the first microsecond. -/
def ringState : State :=
  { State.reset with
    rings := { recs := [(0, { st := .current }), (3, { st := .retiring })], waiting := some { req := .host, ready := some 0 } }
    clk := { ptp := 100001000 }, frames := [(0, some { ring := 3 })], queues := [(5, [0])] }

theorem witness_RingCommandsComplete :
    (∃ s : State, s.live = true ∧ s.WritesNow .host pgRing Reg.ringCtrl ∧ s.rings.waiting = none)
    ∧ (∃ (s : State) (c : Commit), s.live = true ∧ s.WritesNow .host pgRing Reg.ringCtrl ∧ s.rings.waiting = some c
      ∧ (∀ e, c.tEff = some e → s.now < e))
    ∧ (∃ (s : State) (c : Commit), s.live = true ∧ s.rings.waiting = some c
      ∧ c.ready = none ∧ s.writesWait c.req = false ∧ s.stagedRuns = false ∧ s.ringLive s.rings.staging.val = false)
    ∧ (∃ (s : State) (c : Commit) (e : Nat), s.live = true ∧ s.rings.waiting = some c ∧ c.tEff = some e ∧ e ≤ s.now
      ∧ (s.halfUp 1 = true → s.flumeUp = true) ∧ s.kerfPages.find? s.bankBusy = none)
    ∧ (∃ (s : State) (r : Ring), s.live = true ∧ (s.ringRec r.val).st = .retiring ∧ (s.ringRec r.val).expired = false
      ∧ (s.ringRec r.val).tRet + maxAgeNs (s.reg pgRing Reg.ringMaxage) ≤ s.now)
    ∧ (∃ (s : State) (h : Half) (q i : Nat), s.live = true ∧ s.halfUp h.val = true ∧ i ∈ s.queue q
      ∧ queueHalf q = h.val ∧ s.frameExpired i = true ∧ (∀ r j, r ≠ q → j ∈ s.queue r → s.frameExpired j = false))
    ∧ (∃ s : State, s.live = true ∧ s.WritesNow .host pgRing Reg.ringMaxage) :=
  ⟨⟨busState {}, rfl, now_of (by decide +kernel), rfl⟩,
   ⟨{ busState {} with rings := { waiting := some { req := .host } } }, { req := .host }, rfl, now_of (by decide +kernel), rfl,
    fun _ h => nomatch h⟩,
   ⟨{ ringState with rings := { ringState.rings with waiting := some { req := .host } } }, { req := .host }, by decide⟩,
   ⟨ringState, { req := .host, ready := some 0 }, 1000, by decide +kernel⟩,
   ⟨ringState, 3, by decide⟩,
   ⟨{ ringState with rings := { recs := [(3, { st := .retiring, expired := true })] } }, 0, 5, 0, by decide, by decide, by decide, by decide, by decide,
    fun r j h m => by
      have q : AMap.get [] [(5, [0])] r = [] := by simp [AMap.get]; exact fun e => absurd e.symm h
      rw [State.queue, ringState, q] at m; cases m⟩,
   ⟨busState {}, rfl, now_of (by decide +kernel)⟩⟩

/-- The West Deck runs: list 0 broken, pool 1 with one cell, a frame of requester 2 waits for its last cell from list 8,
whose cache holds cell 72; one frame waits at step 4 of Table 6; priority 3 of port 7 is XOFF and due. -/
def deckState : State :=
  { (withRegs [(pgAdmit 0, Reg.adC 4, 0x400000)]) with
    deck := ⟨{ lists := [(0, { broken := true }), (8, { cache := [72] })], tags := [(20, 0x8001), (30, 5)]
               pools := [(1, { base := 40, size := 1 })], waiting := [(2, [9])], hold := [(2, some 0)] },
             { initing := true }⟩
    frames := [(8, some { q := 4 }), (9, some { need := 1, tag := 0xC00, rq := 2 })]
    path := ⟨{ arrivals := [8] }, {}⟩, sched := [(0, { ls := .up }), (7, { pause := [(3, 5)] })]
    ports := [(7, { linkUp := true })], pfcTx := [(7, { xoff := [(3, true)], due := [(3, true)] })]
    clk := { up := 1000000000000 }, rst := { phase := .run } }

theorem witness_DeckCommandsComplete :
    (∃ (s : State) (i : Nat) (is : List Nat), s.live = true ∧ s.halfUp 0 = true ∧ (s.pathOf 0).arrivals = i :: is
      ∧ (s.frame i).bad = 0 ∧ (s.deckOf 0).initing = false ∧ (s.frame i).punted = false ∧ (s.frame i).tag ≠ 0xC000
      ∧ s.expiredCheck (s.frame i).ring = none ∧ s.portCheck (s.frame i).q = none
      ∧ s.classCheck (s.frame i).half ((s.frame i).q % 32) = none
      ∧ s.queueCheck (s.frame i).q (vColor (s.frame i).vecIn) = none)
    ∧ (∃ (s : State) (rq : Fin 24) (i : Nat) (is : List Nat) (c : Nat) (cs : List Nat), s.live = true ∧ s.deckUp 0 = true
      ∧ AMap.get [] (s.deckOf 0).waiting rq.val = i :: is ∧ (s.frame i).need = 1
      ∧ ((s.deckOf 0).list ((s.deckOf 0).firstList rq.val (s.frame i))).cache = c :: cs
      ∧ ((s.deckOf 0).list ((s.deckOf 0).firstList rq.val (s.frame i))).broken = false)
    ∧ (∃ (s : State) (cell : Nat) (tag : BitVec 16), s.live = true ∧ s.deckUp 0 = true ∧ (s.deckOf 0).tag cell = tag.toNat
      ∧ tag.toNat ≠ 0 ∧ (tag.toNat < 0x8000 ∨ (0x8008 ≤ tag.toNat ∧ tag.toNat < 0xFFFF)))
    ∧ (∃ (s : State) (l : Fin 64) (c : Nat) (x : FList) (c' : Nat), s.live = true ∧ s.deckUp 1 = true
      ∧ ((s.deckOf 1).list l.val).broken = false ∧ ((s.deckOf 1).list l.val).cache.length ≤ 6
      ∧ ((s.deckOf 1).list l.val).pop (s.deckOf 1).pools l.val = some (c, x)
      ∧ (x.pop (s.deckOf 1).pools l.val).map (·.1) = some c' ∧ (s.deckOf 1).tag c ≠ 0xFFFF ∧ (s.deckOf 1).tag c' ≠ 0xFFFF)
    ∧ (∃ (s : State) (rq : Fin 24) (i : Nat) (is : List Nat) (x : Nat), s.live = true ∧ s.deckUp 0 = true
      ∧ AMap.get none (s.deckOf 0).hold rq.val = some x ∧ AMap.get [] (s.deckOf 0).waiting rq.val = i :: is
      ∧ x + s.stallMax 0 ≤ s.clk.up)
    ∧ (∃ (s : State) (n : Fin 8) (c : Nat), s.live = true ∧ s.WritesNow .host (pgDeck 0) (0x208 + 0x20 * n.val)
      ∧ (s.deckOf 0).freePoolCell ((s.deckOf 0).pool n.val).base ((s.deckOf 0).pool n.val).size = some c)
    ∧ (∃ (s : State) (n : Fin 8) (cell : BitVec 20), s.live = true ∧ s.WritesNow .host (pgDeck 0) (0x20C + 0x20 * n.val)
      ∧ (s.deckOf 0).tag cell.toNat = 0x8000 + n.val)
    ∧ (∃ (s : State) (l : Fin 64), s.live = true ∧ s.deckUp 0 = true ∧ ((s.deckOf 0).list l.val).broken = true)
    ∧ (∃ s : State, s.live = true ∧ (s.deckOf 1).initing = true)
    ∧ (∃ (s : State) (p : Port) (r : Fin 8), s.live = true ∧ (s.port p.val).linkUp = true ∧ (s.schedOf p.val).tx = none
      ∧ (AMap.get {} s.pfcTx p.val).due ≠ [] ∧ AMap.get false (AMap.get {} s.pfcTx p.val).xoff r.val = true
      ∧ AMap.get 0 (AMap.get {} s.pfcTx p.val).sent r.val + s.refreshNs p.val ≤ s.clk.up
      ∧ AMap.get 0 (s.schedOf p.val).pause r.val ≤ s.clk.up) :=
  ⟨⟨deckState, 8, [], by decide⟩, ⟨deckState, 2, 9, [], 72, [], by decide⟩, ⟨deckState, 30, 5, by decide⟩,
   ⟨{ State.reset with deck := ⟨{}, {}⟩ }, 5, 5, { row := 1 }, 69, by decide⟩,
   ⟨deckState, 2, 9, [], 0, by decide⟩, ⟨deckState, 1, 40, by decide, now_of (by decide +kernel), by decide⟩,
   ⟨deckState, 1, 20, by decide, now_of (by decide +kernel), by decide⟩,
   ⟨deckState, 0, by decide⟩, ⟨deckState, by decide⟩, ⟨deckState, 7, 3, by decide⟩⟩

/-- Port 0 is up with a frame in its queue 0, one in the start FIFO of port 1 and one in transmission on port 2, whose hold
runs; a frame crosses Flume to West, and a copy waits in West's replication queue for queue 16 + 32 * 3. -/
def queueState : State :=
  { (withRegs [(pgAdmit 0, Reg.adC 16, 0x400000)]) with
    selRegs := [(selKey 3 0 0, 0x40000), (selKey 4 0 0, 0x80000003)]
    deck := ⟨{}, {}⟩
    frames := [(0, some {}), (1, some { built := true, out := [1] }), (2, some { out := [1] }), (3, some {}), (4, some {}),
      (6, some { src := 600, tail := false })]
    queues := [(0, [0]), (64, [3])], deficit := [(0, 1)]
    path := ⟨{ transit := [⟨3, 1, 0⟩], repl := [4] }, {}⟩
    sched := [(0, { ls := .up }), (1, { ls := .up, fifo := [1] }), (2, { ls := .hold, tx := some 2, flushing := true, flushed := [3] }), (3, { ls := .up })]
    clk := { ptp := 1000000000000 } }

theorem witness_ReplicationCommandsComplete :
    (∃ (s : State) (ch : Fin 64) (x : Transit), s.live = true ∧ s.halfUp 0 = true ∧ AMap.get none (s.deckOf 0).hold 16 = none
      ∧ (s.pathOf 0).transit.find? (fun y => decide (y.chan = ch.val)) = some x
      ∧ AMap.get 0 (s.pathOf 0).seqExp x.src = x.seq ∧ x.seq < 2 ^ 24)
    ∧ (∃ (s : State) (i : Nat), s.live = true ∧ (s.frame i).tail = false ∧ (s.frame i).half = 0
      ∧ portHalf (s.frame i).src = 1 ∧ AMap.get none s.frames i = some (s.frame i) ∧ (s.frame i).bad = 0)
    ∧ (∃ s : State, s.live = true ∧ s.WritesNow .host (pgAdmit 0) Reg.repCtrl ∧ (s.pathOf 0).repl ≠ [])
    ∧ (∃ (s : State) (i : Nat) (is : List Nat) (e : Word) (q : Nat), s.live = true ∧ s.deckUp 0 = true
      ∧ (s.pathOf 0).repl = i :: is ∧ (s.frame i).bad = 0 ∧ (s.ringRec (s.frame i).ring).expired = false
      ∧ fld (s.repGrp 0 (vDest (s.frame i).vecIn % 65536)) 18 11 = 1
      ∧ s.repCopy 0 (fld (s.repGrp 0 (vDest (s.frame i).vecIn % 65536)) 0 18) = e ∧ bit e 31 = true
      ∧ q = 32 * (512 * 0 + fld e 0 9) + 16 + vTc (s.frame i).vecIn ∧ s.floodDrop (s.frame i) (q / 32) = none
      ∧ s.portCheck q = none ∧ s.queueCheck q (vColor (s.frame i).vecIn) = none) :=
  ⟨⟨queueState, 0, ⟨3, 1, 0⟩, by decide⟩, ⟨queueState, 6, by decide⟩,
   ⟨serving queueState, rfl, now_of (by decide +kernel), by decide⟩, ⟨queueState, 4, [], 0x80000003, 112, by decide⟩⟩

theorem witness_QueueCommandsComplete :
    (∃ (s : State) (p : Port) (pri c i : Nat) (is : List Nat), s.live = true ∧ s.sliceUp (portSlice p.val) = true
      ∧ s.deckUp (portHalf p.val) = true ∧ s.mayStart p.val = true ∧ s.topLevel p.val 8 = some pri
      ∧ AMap.get 0 (s.schedOf p.val).ptr pri = c ∧ fld (s.scQ (32 * p.val + c)) 0 3 = pri
      ∧ s.eligible (32 * p.val + c) = true ∧ 0 < AMap.get 0 s.deficit (32 * p.val + c) ∧ s.queue (32 * p.val + c) = i :: is
      ∧ (s.ringRec (s.frame i).ring).expired = false ∧ (s.frame i).bad = 0)
    ∧ (∃ (s : State) (p : Port) (i : Nat) (is : List Nat) (g : Frame), s.live = true ∧ s.sliceUp (portSlice p.val) = true
      ∧ (s.schedOf p.val).ls = .up ∧ (s.schedOf p.val).tx = none ∧ (s.schedOf p.val).fifo = i :: is
      ∧ (s.frame i).built = true ∧ (s.frame i).bad = 0 ∧ s.allHere (s.frame i) = true ∧ (AMap.get {} s.pfcTx p.val).due = []
      ∧ s.rebuild p.val (s.frame i) = .inl g)
    ∧ (∃ (s : State) (p : Port) (i : Nat), s.live = true ∧ s.sliceUp (portSlice p.val) = true
      ∧ (s.schedOf p.val).tx = some i ∧ (s.frame i).bad = 0 ∧ s.allHere (s.frame i) = true ∧ (s.frame i).out ≠ [] ∧ (s.frame i).late = false
      ∧ (s.schedOf p.val).ls = .hold ∧ (s.schedOf p.val).holdAt + s.linkHold p.val ≤ s.now
      ∧ (s.schedOf p.val).flushing = true
      ∧ s.queue (32 * p.val) ≠ [] ∧ (s.schedOf p.val).flushed ≠ []
      ∧ ∀ i ∈ (s.schedOf p.val).flushed, ∀ j ∈ (s.schedOf p.val).flushed, (s.frame i).master ≠ some j) :=
  ⟨⟨queueState, 0, 0, 0, 0, [], by decide⟩, ⟨queueState, 1, 1, [], { built := true, out := [1] }, by decide⟩, ⟨queueState, 2, 2, by decide⟩⟩

/-- Raft runs in both halves; port 4 is a Raft port with its link up, its neighbour device 7 heard at the start; ring 2 is
held for a peer that no longer holds it. -/
def raftState : State :=
  { (withRegs [(pgHalf 0, Reg.rfCtrl, 1), (pgParser 0, Reg.ppPort 4, 1)]) with
    ports := [(4, { linkUp := true })], clk := { up := 100000000000 }
    raft := { devid := 5, nbr := [(4, { st := .up, dev := 7, txAt := some 0, extraAt := some 0, txSaid := (3, 0, false) })] }
    rings := { recs := [(0, { st := .current }), (2, { st := .retiring, peerHold := true })] } }

/-- The hello of device 7. -/
def helloOf7 : List Byte := ({ raftState with raft := { raftState.raft with devid := 7 } } : State).helloBytes 9 1

theorem witness_RaftCommandsComplete :
    (∃ (s : State) (v : Word), s.live = true ∧ s.WritesNow .host (pgHalf 0) Reg.rfCtrl
      ∧ s.rbit (pgHalf 0) Reg.rfCtrl 0 = false ∧ bit v 0 = true ∧ s.flumeUp = true ∧ s.halfUp 1 = true)
    ∧ (∃ (s : State) (p : Port), s.live = true ∧ s.hellos p.val = true ∧ (s.schedOf p.val).tx = none
      ∧ (∀ u, (s.nbr p.val).txAt = some u → u + intervalActs (s.raftCfg (portHalf p.val)).interval * 1000 ≤ s.clk.up)
      ∧ s.helloChanged p.val = true ∧ (∀ u, (s.nbr p.val).extraAt = some u → u + 100000 ≤ s.clk.up))
    ∧ (∃ (s : State) (p : Port) (bs : List Byte), s.live = true ∧ (s.raftCfg (portHalf p.val)).en = true
      ∧ s.isRaftPort p.val = true ∧ s.halfUp (portHalf p.val) = true ∧ helloBad bs = false
      ∧ BitVec.ofNat 32 (beAt bs 30 4) = (s.raftCfg (portHalf p.val)).sysid
      ∧ raftWord bs 1 / 65536 ≠ (s.raftCfg (portHalf p.val)).devid)
    ∧ (∃ (s : State) (p : Port), s.live = true ∧ (s.nbr p.val).st = .up
      ∧ (s.nbr p.val).heardAt + (s.nbr p.val).deadNs ≤ s.clk.up)
    ∧ (∃ s : State, s.live = true ∧ s.halfUp 1 = true ∧ AMap.wf (fun _ => (0 : Word)) s.selRegs = true)
    ∧ (∃ (s : State) (r : Ring), s.live = true ∧ (s.ringRec r.val).peerHold = true ∧ s.ringHeld r.val = false) :=
  ⟨⟨busState {}, 1, rfl, now_of (by decide +kernel), by decide +kernel⟩,
   ⟨raftState, 4, by decide, by decide, rfl, (fun u h => by cases h; decide), by decide,
    (fun u h => by cases h; decide)⟩,
   ⟨raftState, 4, helloOf7, by decide +kernel⟩, ⟨raftState, 4, by decide +kernel⟩, ⟨raftState, by decide +kernel⟩, ⟨raftState, 2, by decide +kernel⟩⟩

/-- Port 0 is an enabled Ethernet port with its link up; port 1 receives frame 5; the parser of slice 0 has frame 6; ingress
stage 2 has frame 7; the deparser has frame 8. -/
def pipeState : State :=
  { (withRegs [(pgPort 0, Reg.portCtrl 0, 1), (pgPort 0, Reg.portCtrl 1, 1)]) with
    ports := [(0, { cfg := 0xC, linkUp := true }), (1, { cfg := 0xC, rxOn := true, rxCur := some 5 })]
    frames := [(5, some { root := 5, tail := false }), (6, some { data := zeros 64, len := 64 }), (7, some {}),
      (8, some { data := zeros 64, len := 64, vec := zeros 320, vecIn := zeros 320 })]
    slices := [(0, { fifo := [6], stages := [(2, [7])], depq := [8] }), (1, { swap := true })], nextFrame := 9 }

theorem witness_PipeCommandsComplete :
    (∃ (s : State) (p : Port) (f : RxFrame), s.live = true ∧ cfgLpbk (s.port p.val).cfg = 0 ∧ s.rxTakes p.val = true
      ∧ (s.port p.val).linkUp = true ∧ f.len ≤ f.bytes.length ∧ rxReason (s.maxFrame p.val) f.bytes f.pcsErr = 0
      ∧ isMacControl f.bytes = false ∧ s.fifoFill (portSlice p.val) + f.bytes.length ≤ 98304)
    ∧ (∃ (s : State) (p : Port) (root : Nat) (x : Frame), s.live = true ∧ cfgLpbk (s.port p.val).cfg ≠ 2
      ∧ s.portReady p.val = true ∧ (s.port p.val).rxOn = true ∧ (s.port p.val).rxCur = some root
      ∧ AMap.get none s.frames root = some x ∧ x.root = root)
    ∧ (∃ (s : State) (sl : Slice) (i : Nat) (is : List Nat), s.live = true ∧ s.sliceUp sl.val = true
      ∧ s.blockUp (pgParser sl.val) = true ∧ s.pipeRuns sl.val .ingress = true ∧ (s.slice sl.val).swap = false ∧ (s.slice sl.val).inj = []
      ∧ (s.slice sl.val).fifo = i :: is ∧ (s.frame i).windowHere = true ∧ (s.frame i).bad = 0
      ∧ (s.raftCfg (sliceHalf sl.val)).en = false ∧ s.isSpan (s.frame i).src = false ∧ (s.frame i).kind = .received)
    ∧ (∃ (s : State) (sl : Slice), s.live = true ∧ s.Posts .host (pgParser sl.val) Reg.ppCtrl)
    ∧ (∃ (s : State) (sl : Slice), s.live = true ∧ s.sliceUp sl.val = true ∧ s.blockUp (pgParser sl.val) = true
      ∧ (s.slice sl.val).swap = true)
    ∧ (∃ (s : State) (sl : Slice) (dir : Dir) (k : Fin 8) (i : Nat) (is : List Nat) (w : Nat), s.live = true
      ∧ s.sliceUp sl.val = true ∧ s.pipeRuns sl.val dir = true ∧ k.val < 7
      ∧ (s.slice sl.val).stage (stageKey dir k.val) = i :: is ∧ (s.frame i).bad = 0 ∧ (s.frame i).fin = false
      ∧ (s.frame i).passes = false
      ∧ (k.val = 0 → dir = .ingress → s.stageZeroDrop sl.val (s.frame i) = none)
      ∧ w = s.microAt (pgKerf sl.val dir k.val) (s.ringBank (pgKerf sl.val dir k.val) (s.frame i).ring)
        (if k.val = 0 ∧ dir = .ingress then vPclass (s.frame i).vec else (s.frame i).addr)
      ∧ eccCheck w = .clean ∧ mAct w = 0 ∧ mMeterEn w = false)
    ∧ (∃ (s : State) (sl : Slice) (i : Nat) (is : List Nat) (b : Built), s.live = true ∧ s.sliceUp sl.val = true
      ∧ s.blockUp (pgDeparser sl.val) = true ∧ (s.slice sl.val).depq = i :: is ∧ (s.frame i).bad = 0
      ∧ (s.frame i).tail = true ∧ s.build (s.frame i) ((s.frame i).q / 32) = some b
      ∧ b.body.length + 4 ≤ s.maxFrame ((s.frame i).q / 32)) :=
  ⟨⟨pipeState, 0, { bytes := withFcs (zeros 60), len := 64 }, by decide +kernel⟩,
   ⟨pipeState, 1, 5, { root := 5, tail := false }, by decide +kernel⟩, ⟨pipeState, 0, 6, [], by decide +kernel⟩, 
   ⟨busState {}, 5, rfl, posts_of (by decide +kernel)⟩, ⟨pipeState, 1, by decide +kernel⟩,
   ⟨pipeState, 0, .ingress, 2, 7, [], 0, by decide +kernel⟩,
   ⟨pipeState, 0, 8, [], ((pipeState.build (pipeState.frame 8) 0).getD { body := [] }), by decide +kernel⟩⟩

/-- Ports 0 (Ethernet, 25 GbE, PLL A of macro 0) and 1 (disabled, ready to be enabled). Lane 0 is ACTIVE, lane 8 in ACQUIRE,
lane 9 in ADAPT. Macro 2's PLL A is asked for rate 3, macro 3's runs unlocked. -/
def laneState : State :=
  { (withRegs [(pgPort 0, Reg.portCtrl 0, 1), (pgPort 0, Reg.portCfg 0, 0xC), (pgPort 0, Reg.portCfg 1, 0xC),
      (pgPort 0, Reg.fecDegr 0, 1), (pgMacro 2, Reg.mcPllA 2, 3)]) with
    ports := [(0, { cfg := 0xC, linkUp := true, aligned := true, recalLive := true })]
    lanes := [(0, { st := .active, signal := true, cdr := true }), (8, { st := .acquire }), (9, { st := .adapt })]
    macros := [(0, { a := { rate := 3, lock := true } }), (3, { a := { rate := 3 } })] }

theorem witness_LaneCommandsComplete :
    (∃ (s : State) (m : Macro) (pll : Pll), s.live = true ∧ s.sliceUp (m.val / 4) = true ∧ s.pllUsed m.val (pllIdx pll) = false
      ∧ ((s.macro_ m.val).pll (pllIdx pll)).rate ≠ s.pllAsked m.val (pllIdx pll))
    ∧ (∃ (s : State) (m : Macro) (pll : Pll), s.live = true ∧ s.sliceUp (m.val / 4) = true
      ∧ ((s.macro_ m.val).pll (pllIdx pll)).rate ≠ 0 ∧ ((s.macro_ m.val).pll (pllIdx pll)).lock = false)
    ∧ (∃ (s : State) (m : Macro) (pll : Pll), s.live = true ∧ ((s.macro_ m.val).pll (pllIdx pll)).lock = true
      ∧ s.pllUsed m.val (pllIdx pll) = true)
    ∧ (∃ (s : State) (l : Lane), s.live = true ∧ (s.lane l.val).st = .acquire)
    ∧ (∃ (s : State) (l : Lane), s.live = true ∧ (s.lane l.val).signal = true ∧ (s.lane l.val).cdr = true
      ∧ (s.lane l.val).st = .active ∧ s.laneOwner l.val ≠ none)
    ∧ (∃ (s : State) (l : Lane), s.live = true ∧ (s.lane l.val).st = .adapt ∧ s.laneAdapt l.val ≠ 2) :=
  ⟨⟨laneState, 2, .a, by decide +kernel⟩, ⟨laneState, 3, .a, by decide +kernel⟩, ⟨laneState, 0, .a, by decide +kernel⟩,
   ⟨laneState, 8, by decide +kernel⟩, ⟨laneState, 0, by decide +kernel⟩, ⟨laneState, 9, by decide +kernel⟩⟩

theorem witness_PortCommandsComplete :
    (∃ (s : State) (p : Port), s.live = true ∧ s.Posts .host (pgPort p.val) (Reg.portCtrl (p.val % 32))
      ∧ fld (s.portCtrl p.val) 3 4 = 0
      ∧ s.portEn p.val = false ∧ s.cfgCheck p.val (s.reg (pgPort p.val) (Reg.portCfg (p.val % 32))) = 0)
    ∧ (∃ (s : State) (p : Port), s.live = true ∧ s.Posts .host (pgPort p.val) (Reg.portCtrl (p.val % 32))
      ∧ fld (s.portCtrl p.val) 3 4 = 0
      ∧ s.portEn p.val = true ∧ s.portPwr p.val = 0
      ∧ s.cfgCheck p.val (s.reg (pgPort p.val) (Reg.portCfg (p.val % 32))) = 0 ∧ (s.port p.val).recalLive = true)
    ∧ (∃ (s : State) (p : Port), s.live = true ∧ s.Posts .host (pgPort p.val) (Reg.portCtrl (p.val % 32))
      ∧ fld (s.portCtrl p.val) 3 4 = 0
      ∧ s.portEn p.val = true ∧ s.portPwr p.val = 2)
    ∧ (∃ (s : State) (p : Port), s.live = true ∧ s.Posts .host (pgPort p.val) (Reg.portCtrl (p.val % 32))
      ∧ fld (s.portCtrl p.val) 3 4 = 0
      ∧ s.portEn p.val = true ∧ (s.port p.val).linkUp = true ∧ (s.port p.val).recalFull = false
      ∧ (s.port p.val).recalLive = false)
    ∧ (∃ (s : State) (p : Port), s.live = true ∧ s.portReady p.val = true ∧ s.mayLinkUp p.val = true)
    ∧ (∃ (s : State) (p : Port), s.live = true ∧ s.portReady p.val = true ∧ s.portAct p.val = true
      ∧ s.lanesActive p.val = true ∧ s.isSpan p.val = false)
    ∧ (∃ (s : State) (p : Port) (w : FecWindow), s.live = true ∧ s.portReady p.val = true ∧ s.portAct p.val = true
      ∧ s.lanesActive p.val = true ∧ 3 ≤ cfgMode (s.port p.val).cfg
      ∧ fld (s.reg (pgPort p.val) (Reg.fecDegr (p.val % 32))) 0 16 ≠ 0
      ∧ fld (s.reg (pgPort p.val) (Reg.fecDegr (p.val % 32))) 0 16 ≤ w.uncorr) :=
  ⟨⟨serving laneState, 1, rfl, posts_of (by decide +kernel), by decide +kernel⟩,
   ⟨serving laneState, 0, rfl, posts_of (by decide +kernel), by decide +kernel⟩,
   ⟨serving (laneState.setReg (pgPort 0) (Reg.portCtrl 0) 5), 0, rfl, posts_of (by decide +kernel), by decide +kernel⟩,
   ⟨serving (laneState.setPort 0 { cfg := 0xC, linkUp := true }), 0, rfl, posts_of (by decide +kernel), by decide +kernel⟩,
   ⟨{ laneState.setPort 0 { cfg := 0xC, aligned := true } with clk := { up := 10000 } }, 0, by decide +kernel⟩, ⟨laneState, 0, by decide +kernel⟩,
   ⟨laneState, 0, { bins := [], uncorr := 1 }, by decide +kernel⟩⟩

/-- Span position 0 runs on port 0 at 800G with this state. -/
def spanState (x : SpanS) : State :=
  { (withRegs [(pgPort 0, Reg.portCtrl 0, 1), (pgOhsp, Reg.ohCtrl 1, 1), (pgChip, Reg.ioSense 3, 0x80000000)]) with
    ports := [(0, { cfg := 0x5E, linkUp := true })], spans := [(0, x)], clk := { up := 10000000 }
    lanes := [(0, { st := .active, signal := true, cdr := true }), (1, { st := .active, signal := true, cdr := true }), (2, { st := .active, signal := true, cdr := true }),
      (3, { st := .active, signal := true, cdr := true })] }

/-- A span frame of multiframe count 1. -/
def spanFrame1 : List Byte := faw ++ [1] ++ List.replicate 8185 (0 : Byte)

theorem witness_SpanCommandsComplete :
    (∃ (s : State) (bs : List Byte), s.live = true ∧ s.spanReady 0 = true ∧ s.spanLpbk 0 = 0 ∧ (s.span 0).los = false
      ∧ (s.span 0).fst = .inFrame ∧ (s.span 0).buf = [] ∧ bs.length = 8192 ∧ (s.span 0).fresh = true)
    ∧ (∃ (s : State) (bs : List Byte), s.live = true ∧ s.spanReady 0 = true ∧ s.spanLpbk 0 = 0 ∧ (s.span 0).los = false
      ∧ (s.span 0).fst = .inFrame ∧ (s.span 0).buf = [] ∧ bs.length = 8192 ∧ (s.span 0).fresh = false ∧ isFaw bs = true
      ∧ (s.span 0).mlock = false ∧ (s.span 0).mGood = 0 ∧ (byteAt bs 6).toNat = ((s.span 0).exp + 1) % 256)
    ∧ (∃ (s : State) (k : SpanPkt) (ks : List SpanPkt), s.live = true ∧ s.spanReady 0 = true ∧ (s.span 0).rxq = k :: ks ∧ k.cur = none
      ∧ (s.span 0).transit = false ∧ isMacControl k.body = false
      ∧ spanReason (s.maxFrame (spanSlot 0)) (s.port (spanSlot 0)).linkUp (s.unpaired 0) k = 0
      ∧ s.fifoFill (portSlice (spanSlot 0)) + k.body.length ≤ 98304)
    ∧ (∃ s : State, s.live = true ∧ s.spanReady 0 = true ∧ (s.span 0).los = true ∧ s.lanesActive (spanSlot 0) = true
      ∧ s.lanesLocked (spanSlot 0) = true ∧ (s.port (spanSlot 0)).alignAt + 10000 ≤ s.clk.up)
    ∧ (∃ s : State, s.live = true ∧ s.spanReady 0 = true ∧ (s.span 0).los = false ∧ (s.span 0).lof = false
      ∧ (s.span 0).fst ≠ .inFrame ∧ (s.span 0).ifT + ms3 ≤ s.clk.up)
    ∧ (∃ s : State, s.live = true ∧ s.spanReady 0 = true ∧ (s.span 0).los = false ∧ (s.span 0).lof = false
      ∧ (s.span 0).fst = .inFrame ∧ (s.span 0).lom = false ∧ (s.span 0).mlock = false ∧ (s.span 0).mT + ms3 ≤ s.clk.up)
    ∧ (∃ s : State, s.live = true ∧ s.spanReady 0 = true ∧ AMap.wf (fun _ => ({} : SpanS)) s.spans = true
      ∧ 0 ∈ s.spans.map (·.1) ∧ (s.span 0).near.unavail = false ∧ (s.span 0).near.classify.ses = true
      ∧ (s.span 0).near.run = 9 ∧ s.atBoundary 0 false = true ∧ s.rolled 0 false = false ∧ s.atBoundary 0 true = true
      ∧ s.rolled 0 true = false)
    ∧ (∃ (s : State) (n : Fin 4), s.live = true ∧ s.Posts .host (pgSp 0) (Reg.spCtrl 0)
      ∧ s.ohRuns n.val = true) :=
  ⟨⟨spanState { fst := .inFrame, fresh := true }, spanFrame1, by decide +kernel⟩,
   ⟨spanState { fst := .inFrame }, spanFrame1, by decide +kernel⟩,
   ⟨spanState { rxq := [{ typ := 1, len := 64, body := withFcs (zeros 60) }] },
     { typ := 1, len := 64, body := withFcs (zeros 60) }, [], by decide +kernel⟩,
   ⟨spanState { los := true }, by decide +kernel⟩, ⟨spanState {}, by decide +kernel⟩,
   ⟨spanState { fst := .inFrame }, by decide +kernel⟩,
   ⟨{ spanState { near := { frames := 1, errs := 1, run := 9 } } with clk := { ptp := 86400000000000, up := 10000000 } },
    by decide +kernel⟩,
   ⟨serving (spanState {}), 1, rfl, posts_of (by decide +kernel), by decide +kernel⟩⟩

/-- Exact-match table 3 has an entry of the zero key with HIT set, in both halves; both maintenance sequencers run their
background context; table 3 learns and ages. -/
def woodState : State :=
  let s := withRegs [(pgLearn 0, Reg.lrAge, 1), (pgLearn 0, Reg.lrMove, 0), (pgWlem 0, Reg.wlCtrl, 1),
    (pgWlem 0, Reg.wlLt 3, 0xC0), (pgMaint 0, Reg.mtCtrl, 8)]
  let s := match s.placeEntry 0 3 [0] 7 0x2103 with | some x => x.1 | none => s
  match s.placeEntry 1 3 [0] 7 0x2103 with | some x => x.1 | none => s

/-- Where the entry of table 3 lies. -/
def woodLoc : Nat := (woodState.copyOf 0 3 [0]).getD 0

theorem takes_of {s : State} {h : Nat} {x : LearnReq} {xs : List LearnReq} (p : (s.halfUp h
    && decide ((s.woodOf h).fifo = x :: xs) && !s.eastLost h && s.fgFree 0 && s.rbit (pgWlem 0) 0x08 1
    && (decide ((s.woodOf 0).burst < s.learnBurst) || !s.cmdWaits 0)) = true) : s.MasterTakes h x xs := by
  simp only [Bool.and_eq_true, Bool.or_eq_true, Bool.not_eq_true', decide_eq_true_eq] at p
  exact ⟨p.1.1.1.1.1, p.1.1.1.1.2, p.1.1.1.2, p.1.1.2, p.1.2, p.2⟩

theorem east_of {s : State} {c : EastChange} {cs : List EastChange} (p : (decide (s.eastq = c :: cs) && s.halfUp 1 && s.flumeUp
    && s.fgFree 1 && s.rbit (pgWlem 1) 0x08 1) = true) : s.EastTakes c cs := by
  simp only [Bool.and_eq_true, decide_eq_true_eq] at p
  exact ⟨p.1.1.1.1, p.1.1.1.2, p.1.1.2, p.1.2, p.2⟩

theorem bg_of {s : State} {h c : Nat} (p : (s.bgFree h c && !s.fgWaits h) = true) : s.BgSteps h c := by
  simp only [Bool.and_eq_true, Bool.not_eq_true'] at p
  exact ⟨p.1, p.2⟩

/-- A request of East waits in West's learning queue. -/
def learnState (x : LearnReq) : State := { woodState with wood := ⟨{}, { fifo := [x] }⟩ }
/-- The same, with the entry of table 3 static. -/
def staticState : State :=
  { woodState.setEmW 0 woodLoc 8 (woodState.emW 0 woodLoc 8 ||| 0x800) with wood := ⟨{}, { fifo := [⟨3, [0], 9⟩] }⟩ }
/-- West has deleted the entry of table 3, which is static in East. -/
def eastStatic : State :=
  { woodState.setEmW 1 woodLoc 8 (woodState.emW 1 woodLoc 8 ||| 0x800) with eastq := [⟨3, [0], .delete, none, none⟩] }
/-- The key 1 of table 3 placed for source 9. -/
def placed9 : State × Nat :=
  (((learnState ⟨3, [1], 9⟩).atMaster 1 []).placeEntry 0 3 [1] 9 (ctrlWord 3 false false true true none none)).getD (State.reset, 0)

theorem witness_LearningCommandsComplete :
    (∃ s : State, s.live = true ∧ s.halfUp 0 = true ∧ s.rbit (pgWlem 0) Reg.wlCtrl 0 = true ∧ s.boostPermitted = true
      ∧ (s.woodOf 0).boost = false ∧ s.rf (pgWlem 0) Reg.wlBoostCfg 0 16 < 65536)
    ∧ (∃ s : State, s.live = true ∧ (s.woodOf 0).boost = true ∧ 0 < s.rf (pgWlem 0) Reg.wlBoostCfg 16 16)
    ∧ (∃ (s : State) (x : LearnReq) (xs : List LearnReq) (l : Nat), s.live = true ∧ s.MasterTakes 1 x xs
      ∧ s.copyOf 0 x.tbl x.key = some l ∧ destOf (s.entryResult 0 l) = x.src)
    ∧ (∃ (s : State) (x : LearnReq) (xs : List LearnReq) (l : Nat), s.live = true ∧ s.MasterTakes 1 x xs
      ∧ s.copyOf 0 x.tbl x.key = some l ∧ destOf (s.entryResult 0 l) ≠ x.src ∧ cwStatic (s.emW 0 l 8) = true)
    ∧ (∃ (s : State) (x : LearnReq) (xs : List LearnReq) (l : Nat) (d : Damp), s.live = true ∧ s.MasterTakes 1 x xs
      ∧ s.copyOf 0 x.tbl x.key = some l ∧ destOf (s.entryResult 0 l) ≠ x.src ∧ cwStatic (s.emW 0 l 8) = false
      ∧ (s.dampOf 0 l).move s.tick16 (s.rf (pgLearn 0) Reg.lrMove 0 3) (s.rf (pgLearn 0) Reg.lrMoveWin 0 16)
        (s.rf (pgLearn 0) Reg.lrMoveHold 0 16) = (true, d))
    ∧ (∃ (s : State) (x : LearnReq) (xs : List LearnReq) (u : State) (l : Nat), s.live = true ∧ s.MasterTakes 1 x xs
      ∧ s.copyOf 0 x.tbl x.key = none ∧ (s.atMaster 1 xs).placeEntry 0 x.tbl x.key x.src
        (ctrlWord x.tbl (s.isWideTbl 0 x.tbl) false true true none none) = some (u, l))
    ∧ (∀ op : EastOp, op = .put 5 true 2 7 ∨ op = .clearHit ∨ op = .delete → ∃ (s : State) (c : EastChange)
      (cs : List EastChange) (l : Nat), s.live = true ∧ s.EastTakes c cs ∧ c.op = op ∧ s.eastVersion c = some l
      ∧ cwStatic (s.emW 1 l 8) = false)
    ∧ (∃ (s : State) (c : EastChange) (cs : List EastChange) (l : Nat), s.live = true ∧ s.EastTakes c cs ∧ s.eastVersion c = some l
      ∧ cwStatic (s.emW 1 l 8) = true)
    ∧ (∀ hit : Bool, ∃ (s : State) (loc : EmLoc) (w : Word), s.live = true ∧ locHalf loc = 0 ∧ s.BgSteps 0 0x30
      ∧ s.rbit (pgWlem 0) 0x08 1 = true ∧ s.deferred = false ∧ s.rf (pgLearn 0) Reg.lrAge 0 16 ≠ 0
      ∧ s.isEntry 0 (locCode loc) = true ∧ s.emW 0 (locCode loc) 8 = w ∧ cwStatic w = false
      ∧ bit (s.wlLt 0 (fld w 0 8)) 7 = true ∧ cwHit w = hit)
    ∧ (∃ (s : State) (tb : Nat) (key : List Byte) (xs : List (Nat × List Byte)) (l : Nat), s.live = true
      ∧ s.hitq = (tb, key) :: xs ∧ s.halfUp 0 = true ∧ s.flumeUp = true ∧ s.copyOf 0 tb key = some l)
    ∧ (∃ (s : State) (tb : Nat) (key : List Byte) (xs : List (Nat × List Byte)), s.live = true
      ∧ s.hitq = (tb, key) :: xs ∧ s.halfUp 0 = true ∧ s.flumeUp = true ∧ s.copyOf 0 tb key = none) := by
  refine ⟨⟨{ woodState with fire := { boost := true } }, ?_⟩, ⟨{ woodState with wood := ⟨{ boost := true }, {}⟩ }, ?_⟩,
    ⟨learnState ⟨3, [0], 7⟩, ⟨3, [0], 7⟩, [], woodLoc, ?_⟩, ⟨staticState, ⟨3, [0], 9⟩, [], woodLoc, ?_⟩,
    ⟨learnState ⟨3, [0], 9⟩, ⟨3, [0], 9⟩, [], woodLoc, (((learnState ⟨3, [0], 9⟩).dampOf 0 woodLoc).move
      (learnState ⟨3, [0], 9⟩).tick16 0 0 0).2, ?_⟩,
    ⟨learnState ⟨3, [1], 9⟩, ⟨3, [1], 9⟩, [], placed9.1, placed9.2, ?_⟩,
    fun op h => ⟨{ woodState with eastq := [⟨3, [0], op, none, none⟩] }, ⟨3, [0], op, none, none⟩, [], woodLoc, by
      rcases h with rfl | rfl | rfl <;> exact ⟨rfl, east_of (by decide +kernel), rfl, by decide +kernel⟩⟩,
    ⟨eastStatic, ⟨3, [0], .delete, none, none⟩, [], woodLoc, rfl, east_of (by decide +kernel), by decide +kernel⟩,
    fun hit => ⟨if hit then woodState else woodState.setEmW 0 woodLoc 8 (woodState.emW 0 woodLoc 8 &&& 0xFFFFDFFF),
      .slot 0 (woodLoc / 16384) (woodLoc / 4 % 4096) (woodLoc % 4),
      if hit then woodState.emW 0 woodLoc 8 else woodState.emW 0 woodLoc 8 &&& 0xFFFFDFFF,
      by cases hit <;> exact ⟨by decide +kernel, by decide +kernel, bg_of (by decide +kernel), by decide +kernel⟩⟩,
    ⟨{ woodState with hitq := [(3, [0])] }, 3, [0], [], woodLoc, ?_⟩,
    ⟨{ woodState with hitq := [(3, [1])] }, 3, [1], [], ?_⟩⟩
  all_goals repeat' apply And.intro
  all_goals first | exact takes_of (by decide +kernel) | exact bg_of (by decide +kernel) | decide +kernel


/-- An entry of the key 9 of table 4 lies in West's stash. -/
def stashState : State := woodState.writeEntry 0 stashBase 4 [9] 1 0x104
/-- It has been moved to the room made for it. -/
def stashRoom : State × Nat := (stashState.makeRoom 0 4 (stashState.entryKey 0 stashBase) false).getD (State.reset, 0)
/-- Ring 1 is in SWEEP; the stash entry carries its BIRTH tag. -/
def sweepState (logged : Bool) : State :=
  { (if logged then woodState.writeEntry 0 stashBase 4 [9] 1 (ctrlWord 4 false false false false (some 1) none) else woodState) with
    rings := { recs := [(0, { st := .current }), (1, { st := .sweep })] } }
/-- A bank migration of West stands at a position. -/
def migState (c : Nat) : State := { woodState with wood := ⟨{ mig := some ⟨1, 224, c⟩ }, {}⟩ }
/-- A read of table 4 is held by West's sequencer, and with it a background routine. -/
def heldRun : FgRun := { q := 0, idx := 9, words := [0x40405, 0, 0, 0, 64, 0, 0, 0], blk := zeros 64 }
def heldState : State := { woodState with wood := ⟨{ fg := some heldRun, fgHeld := true }, {}⟩ }

theorem witness_SequencerCommandsComplete :
    (∃ (s : State) (slot : Fin 8) (u : State) (d : Nat), s.live = true ∧ s.BgSteps 0 0x31 ∧ s.rbit (pgWlem 0) 0x08 1 = true
      ∧ s.deferred = false ∧ s.isEntry 0 (stashBase + slot.val) = true
      ∧ s.makeRoom 0 (fld (s.emW 0 (stashBase + slot.val) 8) 0 8) (s.entryKey 0 (stashBase + slot.val)) false = some (u, d))
    ∧ (∃ (s : State) (r : Nat), s.live = true ∧ s.sweeping 0 = some r ∧ s.halfUp 0 = true ∧ s.BgSteps 0 0x32
      ∧ s.reclaimHeld 0 r = false ∧ s.logSize 0 r = 0)
    ∧ (∃ (s : State) (r l : Nat) (ls : List Nat), s.live = true ∧ s.sweeping 0 = some r ∧ s.halfUp 0 = true ∧ s.BgSteps 0 0x32
      ∧ s.reclaimHeld 0 r = false ∧ s.emLogged 0 r = l :: ls)
    ∧ (∃ s : State, s.live = true ∧ s.BgSteps 0 0x33 ∧ s.deferred = false ∧ 1 < (s.woodOf 0).lpmBad.length)
    ∧ (∃ (s : State) (b : BitVec 8) (i : Nat), s.live = true ∧ s.Posts .host (pgWlem 0) Reg.wlMigrate
      ∧ s.rbit (pgMaint 0) Reg.mtCtrl 3 = true ∧ b.toNat ≤ 223 ∧ (s.woodOf 0).mig = none
      ∧ (List.range 8).find? (fun i => !(s.woodOf 0).spareUsed i) = some i)
    ∧ (∃ s : State, s.live = true ∧ s.Posts .host (pgWlem 0) Reg.wlMigrate
      ∧ s.rbit (pgMaint 0) Reg.mtCtrl 3 = false)
    ∧ (∀ last : Bool, ∃ (s : State) (m : Mig), s.live = true ∧ s.BgSteps 0 0x34 ∧ s.deferred = false ∧ s.migHeld 0 = false
      ∧ (s.woodOf 0).mig = some m ∧ decide (m.cursor + 1 = 4096) = last)
    ∧ (∃ (s : State) (r : FgRun) (u : State) (a : Answer), s.live = true ∧ s.WritesNow .host (pgMaint 0) Reg.mtCtrl
      ∧ (s.woodOf 0).fgHeld = true
      ∧ (s.woodOf 0).fg = some r ∧ (s.woodOf 0).fgNext = []
      ∧ (s.resuming 0).fgRun 0 r = (u, a) ∧ (u.woodOf 0).fgNext = [] ∧ s.opEnabled 0 (dOp r.words) = true)
    ∧ (∃ s : State, s.live = true ∧ s.WritesNow .host (pgMaint 0) Reg.mtCtrl ∧ (s.woodOf 0).bgHeld = true
      ∧ (s.woodOf 0).fgHeld = false)
    ∧ (∃ (s : State) (loc : EmLoc), s.live = true ∧ s.halfUp 0 = true ∧ locLpm (locCode loc) = false)
    ∧ (∃ (s : State) (loc : EmLoc), s.live = true ∧ s.halfUp 0 = true ∧ locLpm (locCode loc) = true)
    ∧ (∃ (s : State) (sl : Slice) (e : Fin 4096), s.live = true ∧ s.sliceUp sl.val = true
      ∧ bit (s.tcW sl.val e.val 24) 7 = false) := by
  refine ⟨⟨stashState, 0, stashRoom.1, stashRoom.2, ?_⟩, ⟨sweepState false, 1, ?_⟩, ⟨sweepState true, 1, stashBase, [], ?_⟩,
    ⟨{ woodState with wood := ⟨{ lpmBad := [3, 5] }, {}⟩ }, ?_⟩,
    ⟨serving woodState, 5, 0, ?_⟩, ⟨serving (withRegs [(pgMaint 0, Reg.mtCtrl, 0)]), ?_⟩, fun last => ⟨migState (if last then 4095 else 0), ⟨1, 224, if last then 4095 else 0⟩,
      by cases last <;> exact ⟨rfl, bg_of (by decide +kernel), by decide +kernel⟩⟩,
    ⟨serving heldState, heldRun, _, _, ?_, ?_, ?_, ?_, ?_, rfl, ?_⟩, ⟨serving { woodState with wood := ⟨{ bgHeld := true }, {}⟩ }, ?_⟩,
    ⟨woodState, .slot 0 3 0 0, ?_⟩, ⟨woodState, .slot 0 200 0 0, ?_⟩, ⟨woodState, 0, 0, ?_⟩⟩
  all_goals repeat' apply And.intro
  all_goals first | exact bg_of (by decide +kernel) | exact now_of (by decide +kernel) | exact posts_of (by decide +kernel) | decide +kernel

/-- The host's table queue 0 has one command waiting, for West: words 0 and 5 and its length; exact-match table 4 and prefix
table 0x40 are in use. -/
def tableState (w0 w5 : Word) (len : Nat) : State :=
  let s := withRegs [(pgWlem 0, Reg.wlLt 4, 1), (pgWllpm 0, Reg.lpmLt 0, 1)]
  let s := match s.placeEntry 0 4 [0] 7 0x104 with | some x => x.1 | none => s
  { s with
    wood := ⟨{ lpm := [{ tbl := 0, addr := 0, len := 0, result := 5 }] }, {}⟩
    host := { linkUp := true, bme := true
              queues := [(128, { st := .active, fetched := [(9, [w0, 0, 0, 0, BitVec.ofNat 32 len, w5, 0, 0])] })] } }

/-- The words of that command. -/
def tableWords (w0 w5 : Word) (len : Nat) : List Word := [w0, 0, 0, 0, BitVec.ofNat 32 len, w5, 0, 0]

/-- A waiting command is ready when each of its checks answers so. -/
theorem ready_of {s : State} {ws : List Word} {blk : List Byte}
    (h : (decide (s.nextCmd 0 = some (9, ws)) && !dHeavy ws && decide (s.earlyFault ws = none)
      && decide (s.blockFault ws blk = none) && decide (dHalves ws = [0]) && !s.unreachable 0 && s.seqUp 0
      && decide ((s.woodOf 0).fg = none) && s.opEnabled 0 (dOp ws)) = true) : s.TableReady 0 0 9 ws blk := by
  simp only [Bool.and_eq_true, Bool.not_eq_true', decide_eq_true_eq] at h
  obtain ⟨⟨⟨⟨⟨⟨⟨⟨h1, h2⟩, h3⟩, h4⟩, h5⟩, h6⟩, h7⟩, h8⟩, h9⟩ := h
  exact ⟨h1, h2, h3, h4, h5, h6, h7, h8, h9⟩

theorem witness_TableCommandsComplete :
    (∃ (s : State) (ws : List Word) (blk : List Byte), s.live = true ∧ dOp ws = 5 ∧ s.TableReady 0 0 9 ws blk)
    ∧ (∃ (s : State) (ws : List Word) (blk : List Byte), s.live = true ∧ dOp ws = 0x3F ∧ s.TableReady 0 0 9 ws blk) :=
  ⟨⟨tableState 0x40405 0 64, tableWords 0x40405 0 64, zeros 64, by decide +kernel, by decide +kernel, ready_of (by decide +kernel)⟩,
   ⟨tableState 0x4003F 0 0, tableWords 0x4003F 0 0, [], by decide +kernel, by decide +kernel, ready_of (by decide +kernel)⟩⟩

theorem witness_TableCommandResults :
    (∃ (s : State) (ws : List Word) (blk : List Byte) (l : Ver), s.live = true ∧ s.TableReady 0 0 9 ws blk ∧ dStaged ws = false
      ∧ versOf s.pendRing (s.emVers 0 (dTbl ws) (bytesAt (blk.take (dLen ws)) 0 32))
        = { placed := none, dying := none, live := some l } ∧ dOp ws = 2)
    ∧ (∃ (s : State) (ws : List Word) (blk : List Byte) (l : Ver), s.live = true ∧ s.TableReady 0 0 9 ws blk ∧ dStaged ws = false
      ∧ versOf s.pendRing (s.emVers 0 (dTbl ws) (bytesAt (blk.take (dLen ws)) 0 32))
        = { placed := none, dying := none, live := some l } ∧ dOp ws = 4)
    ∧ (∃ (s : State) (ws : List Word) (blk : List Byte), s.live = true ∧ s.TableReady 0 0 9 ws blk ∧ dStaged ws = false
      ∧ dOp ws = 0x10 ∧ lpmVers (dTbl ws - 0x40) (s.lpmAddr 0 (dTbl ws - 0x40) (blk.take (dLen ws)))
        (byteAt (blk.take (dLen ws)) 16).toNat 0 (s.woodOf 0).lpm = [] ∧ s.lpmUnits 0 + 2 ≤ 2097152)
    ∧ (∃ (s : State) (ws : List Word) (blk : List Byte), s.live = true ∧ s.TableReady 0 0 9 ws blk ∧ dStaged ws = false
      ∧ dOp ws = 0x11 ∧ lpmVers (dTbl ws - 0x40) (s.lpmAddr 0 (dTbl ws - 0x40) (blk.take (dLen ws)))
        (byteAt (blk.take (dLen ws)) 16).toNat 0 (s.woodOf 0).lpm = [{ id := 0, birth := none, death := none }])
    ∧ (∃ (s : State) (ws : List Word) (blk : List Byte), s.live = true ∧ s.TableReady 0 0 9 ws blk ∧ dStaged ws = false
      ∧ dOp ws = 0x20 ∧ (halfSlices 0).filter (fun sl => bit (dSlices ws) sl) = [3] ∧ s.enabled (pgTcam 3) = true
      ∧ tcValid (s.tcW 3 (leAt (blk.take (dLen ws)) 96 2 % 4096) 24) = false)
    ∧ (∃ (s : State) (ws : List Word) (blk : List Byte), s.live = true ∧ s.TableReady 0 0 9 ws blk ∧ dStaged ws = false
      ∧ dOp ws = 0x21 ∧ (halfSlices 0).filter (fun sl => bit (dSlices ws) sl) = [3] ∧ s.enabled (pgTcam 3) = true
      ∧ tcValid (s.tcW 3 (leAt (blk.take (dLen ws)) 96 2 % 4096) 24) = true
      ∧ tcBirth (s.tcW 3 (leAt (blk.take (dLen ws)) 96 2 % 4096) 24) = none
      ∧ tcDeath (s.tcW 3 (leAt (blk.take (dLen ws)) 96 2 % 4096) 24) = none) :=
  ⟨⟨tableState 0x40402 0 64, tableWords 0x40402 0 64, zeros 64,
      (((tableState 0x40402 0 64).emVers 0 4 (zeros 32)).headD { id := 0, birth := none, death := none }),
      by decide +kernel, ready_of (by decide +kernel), by decide +kernel⟩,
   ⟨tableState 0x40404 0 64, tableWords 0x40404 0 64, zeros 64,
      (((tableState 0x40404 0 64).emVers 0 4 (zeros 32)).headD { id := 0, birth := none, death := none }),
      by decide +kernel, ready_of (by decide +kernel), by decide +kernel⟩,
   ⟨tableState 0x44010 0 48, tableWords 0x44010 0 48, 10 :: List.replicate 15 (0 : Byte) ++ [8] ++ zeros 31,
      by decide +kernel, ready_of (by decide +kernel), by decide +kernel⟩,
   ⟨tableState 0x44011 0 48, tableWords 0x44011 0 48, zeros 48, by decide +kernel, ready_of (by decide +kernel), by decide +kernel⟩,
   ⟨tableState 0x46020 8 128, tableWords 0x46020 8 128, zeros 128, by decide +kernel, ready_of (by decide +kernel), by decide +kernel⟩,
   ⟨(tableState 0x46021 8 128).setMemW (pgTcam 3) 0 24 1, tableWords 0x46021 8 128, zeros 128,
      by decide +kernel, ready_of (by decide +kernel), by decide +kernel⟩⟩

/-- The PCIe link is up with bus mastering; these queues and registers, and these frames. -/
def hostState (qs : AMap HostQ) (rs : List (Nat × Nat × Word)) (fs : AMap (Option Frame)) : State :=
  { (withRegs rs) with
    host := { linkUp := true, bme := true, queues := qs }, frames := fs, clk := { up := 10000000000 }
    deck := ⟨{ tags := [(4, 0x8000)] }, {}⟩ }

/-- A transmit descriptor: its word 2, and 4 in its word 3. -/
def txDesc (w2 : Word) : List Word := [0, 0, w2, 4, 0, 0, 0, 0]

/-- Transmit queue 0 with a descriptor whose word 2 is w2. -/
def txState (w2 : Word) : State :=
  hostState [(64, { st := .active, fetched := [(3, txDesc w2)] })] [(pgPort 4, Reg.portCtrl 4, 1), (pgPort 0, Reg.portCtrl 0, 1)] []

/-- The signal of queue 5 is due, its vector's entry masked or not. -/
def dueState (clear : Bool) : State :=
  let s := hostState [(5, { st := .active, pending := true })] [(pgQueue 5, Reg.hqIrq 5, 0x400)] []
  { s with host := { s.host with msix := { clear := if clear then [(s.hqVector 5, true)] else [] } } }

/-- Table queue 0 is ACTIVE. -/
def active128 : State := hostState [(128, { st := .active })] [] []

theorem witness_HostQueueCommandsComplete :
    (∃ (s : State) (q : QueueId) (v : Word), s.live = true ∧ s.WritesNow .host pgDoorbell (0x1000 + 4 * q.val) ∧ q.val ≠ 152
      ∧ (s.hq q.val).st = .active ∧ (fld v 0 16 + 65536 - s.hqHead q.val) % 65536 = (s.hq q.val).size)
    ∧ (∃ (s : State) (q : QueueId) (v : Word), s.live = true ∧ s.WritesNow .host pgDoorbell (0x1000 + 4 * q.val) ∧ q.val ≠ 152
      ∧ (s.hq q.val).st = .active ∧ (fld v 0 16 + 65536 - s.hqHead q.val) % 65536 = (s.hq q.val).size + 1)
    ∧ (∃ (s : State) (q : QueueId), s.live = true ∧ s.WritesNow .host pgDoorbell (0x1000 + 4 * q.val) ∧ q.val = 152 ∧ (s.hq 152).st ≠ .active)
    ∧ (∃ (s : State) (q : QueueId), s.live = true ∧ s.WritesNow .host (pgQueue q.val) (Reg.hqCtrl (q.val % 32)) ∧ (s.hq q.val).st = .active)
    ∧ (∃ (s : State) (q : QueueId), s.live = true ∧ s.WritesNow .host (pgQueue q.val) (Reg.hqCtrl (q.val % 32)) ∧ bit (s.hqReg q.val Reg.hqCtrl) 0 = false ∧ (s.hq q.val).st = .disabled)
    ∧ (∃ (s : State) (q : QueueId), s.live = true ∧ (s.hq q.val).st = .draining ∧ (s.hq q.val).done = [])
    ∧ (∃ (s : State) (q : QueueId) (n : Nat), s.live = true ∧ n = (s.hq q.val).done.length + (s.hq q.val).fetched.length
      ∧ (s.hq q.val).st = .active ∧ s.dmaOk = true ∧ q.val ≠ 152 ∧ q.val < 144 ∧ n < 32 ∧ n < s.hqSpan q.val)
    ∧ (∃ (s : State) (q : QueueId) (d : Done) (ds : List Done), s.live = true ∧ (s.exportSkip q.val).done = d :: ds ∧ d.left = 0
      ∧ s.dmaOk = true)
    ∧ (∃ (s : State) (n : Fin 64) (i : Nat) (is : List Nat) (ws : List Word), s.live = true ∧ (s.hq n.val).held = i :: is
      ∧ (s.frame i).tail = true ∧ (s.frame i).need = 0 ∧ (s.frame i).bad = 0 ∧ s.nextDesc n.val 1 = some (4, ws)
      ∧ 64 ≤ fld (wordAt ws 2) 0 16 ∧ (s.frame i).data ≠ [])
    ∧ (∃ (s : State) (n : Fin 64) (ws : List Word), s.live = true ∧ s.nextDesc (64 + n.val) 8 = some (3, ws)
      ∧ s.txStatus ws = 0 ∧ txMode ws = 0 ∧ s.txHeld ws = false ∧ txSrcPool ws = false)
    ∧ (∃ (s : State) (n : Fin 64) (ws : List Word), s.live = true ∧ s.nextDesc (64 + n.val) 8 = some (3, ws)
      ∧ s.txStatus ws = 0 ∧ txMode ws = 1 ∧ s.txHeld ws = false)
    ∧ (∃ (s : State) (n : Fin 64) (ws : List Word), s.live = true ∧ s.nextDesc (64 + n.val) 8 = some (3, ws)
      ∧ s.txStatus ws = 0 ∧ txMode ws = 2)
    ∧ (∃ (s : State) (q : QueueId) (n : Fin 64) (ws : List Word), s.live = true ∧ s.nextDesc (64 + n.val) 8 = some (3, ws)
      ∧ s.txStatus ws = 0 ∧ txSrcPool ws = false ∧ q.val = 64 + n.val)
    ∧ (∃ (s : State) (q : QueueId) (n : Fin 16) (idx : Nat) (ws : List Word), s.live = true ∧ q.val = 128 + n.val
      ∧ s.nextCmd n.val = some (idx, ws) ∧ dOp ws ≠ 0x3F ∧ s.earlyFault ws = none)
    ∧ (∃ (s : State) (n : Fin 8) (e : Nat × List Word) (es : List (Nat × List Word)), s.live = true
      ∧ (s.hq (144 + n.val)).fetched = e :: es ∧ (s.hq (144 + n.val)).fill ≠ []
      ∧ (s.hq (144 + n.val)).fillAt + 1000000 ≤ s.clk.up)
    ∧ (∃ (s : State) (q : QueueId), s.live = true ∧ s.hqDue q.val = true ∧ s.host.cfg.msixOn = false)
    ∧ (∃ (s : State) (q : QueueId), s.live = true ∧ s.hqDue q.val = true ∧ s.host.cfg.msixOn = true
      ∧ (AMap.get false s.host.msix.clear (s.hqVector q.val) && !s.host.cfg.msixMask) = true)
    ∧ (∃ (s : State) (q : QueueId), s.live = true ∧ s.hqDue q.val = true ∧ s.host.cfg.msixOn = true
      ∧ (AMap.get false s.host.msix.clear (s.hqVector q.val) && !s.host.cfg.msixMask) = false) :=
  ⟨⟨serving active128, 128, 64, rfl, now_of (by decide +kernel), by decide +kernel⟩,
   ⟨serving active128, 128, 65, rfl, now_of (by decide +kernel), by decide +kernel⟩,
   ⟨serving (hostState [] [] []), 152, rfl, now_of (by decide +kernel), by decide +kernel⟩,
   ⟨serving active128, 128, rfl, now_of (by decide +kernel), by decide +kernel⟩,
   ⟨busState {}, 152, rfl, now_of (by decide +kernel), by decide +kernel⟩,
   ⟨hostState [(64, { st := .draining })] [] [], 64, by decide +kernel⟩,
   ⟨hostState [(128, { st := .active })] [(pgQueue 128, Reg.hqTail 0, 1)] [], 128, 0, by decide +kernel⟩,
   ⟨hostState [(64, { st := .active, done := [{ idx := 3, words := [] }] })] [] [], 64, { idx := 3, words := [] }, [],
    by decide +kernel⟩,
   ⟨hostState [(0, { st := .active, held := [1], fetched := [(4, [0, 0, 64, 0, 0, 0, 0, 0])] })] [] [(1, some { data := [1] })],
    0, 1, [], [0, 0, 64, 0, 0, 0, 0, 0], by decide +kernel⟩,
   ⟨txState 60, 0, txDesc 60, by decide +kernel⟩, ⟨txState 0x1003C, 0, txDesc 0x1003C, by decide +kernel⟩,
   ⟨txState 0x2003C, 0, txDesc 0x2003C, by decide +kernel⟩, ⟨txState 60, 64, 0, txDesc 60, by decide +kernel⟩,
   ⟨tableState 0x40405 0 64, 128, 0, 9, tableWords 0x40405 0 64, by decide +kernel⟩,
   ⟨hostState [(144, { st := .active, fetched := [(4, [])], fill := [{ rec_ := {}, cause := 0, half := 0 }] })] [] [],
    0, (4, []), [], by decide +kernel⟩,
   ⟨{ dueState true with host := { (dueState true).host with cfg := { msixOn := false } } }, 5, by decide +kernel⟩,
   ⟨dueState true, 5, by decide +kernel⟩, ⟨dueState false, 5, by decide +kernel⟩⟩

theorem witness_PcieCommandsComplete :
    (∃ s : State, s.live = true ∧ s.host.linkUp = true ∧ s.host.cfg.nonFatal = true)
    ∧ (∃ s : State, s.live = true ∧ s.host.cfg.nonFatal = false)
    ∧ (∃ s : State, s.live = true ∧ s.pcieReady = true ∧ s.host.linkUp = false) :=
  ⟨⟨hostState [] [] [], by decide +kernel⟩, ⟨{ State.reset with host := { cfg := { nonFatal := false } } }, by decide +kernel⟩,
   ⟨{ State.reset with rst := { phase := .wipe } }, by decide +kernel⟩⟩

/-- Cruiser in a state. -/
def cruiserState (c : CruiserS) (clk : Clock) : State :=
  { (withRegs [(pgCruiser, Reg.crSnapT, 1000000), (pgCruiser, Reg.crHostLen, 0x1000000)]) with
    cruiser := c, clk := clk, rst := { phase := .run }, host := { linkUp := true, bme := true } }

theorem witness_CruiserCommandsComplete :
    (∃ s : State, s.live = true ∧ s.WritesNow .host pgCruiser Reg.crCtrl ∧ s.WritesNow .host pgCruiser Reg.crBwCtrl
      ∧ s.cruiser.st = .idle ∧ s.now + 2000 ≤ nsOfTs (s.reg64 pgCruiser Reg.crSnapT))
    ∧ (∃ s : State, s.live = true ∧ s.WritesNow .host pgCruiser Reg.crCtrl ∧ s.cruiser.st = .armed ∧ s.cruiser.next = some 5 ∧ 5 ≤ s.now
      ∧ (s.cruiser.auto && s.deferred) = false)
    ∧ (∃ s : State, s.live = true ∧ s.cruiser.st = .capturing ∧ s.cruiser.west.doneAt ≠ none ∧ s.cruiser.east.doneAt = none
      ∧ AMap.get false s.fire.hbmHot 1 = false ∧ (s.hbmOf 1).st ≠ .retrain
      ∧ ((s.hbmOf 1).st = .init → s.cruiser.east.absent = true) ∧ s.rbit pgCruiser Reg.crCtrl 2 = false)
    ∧ (∃ s : State, s.live = true ∧ s.cruiser.st = .capturing ∧ s.cruiser.west.doneAt = none ∧ s.cruiser.east.doneAt = none
      ∧ AMap.get false s.fire.hbmHot 0 = false ∧ (s.hbmOf 0).st ≠ .retrain
      ∧ ((s.hbmOf 0).st = .init → s.cruiser.west.absent = true))
    ∧ (∃ s : State, s.live = true ∧ s.cruiser.st = .transfer ∧ s.dmaOk = true
      ∧ (s.cruiser.west.len + 4095) / 4096 * 4096 + s.cruiser.east.len ≤ (s.reg pgCruiser Reg.crHostLen).toNat)
    ∧ (∃ s : State, s.live = true ∧ s.cruiser.bwOn = true ∧ s.now / s.bwWindow * s.bwWindow ≠ s.cruiser.bwAt) :=
  ⟨⟨cruiserState {} {}, by decide +kernel, now_of (by decide +kernel), now_of (by decide +kernel), by decide +kernel⟩,
   ⟨cruiserState { st := .armed, next := some 5 } { ptp := 5 }, by decide +kernel, now_of (by decide +kernel), by decide +kernel⟩,
   ⟨(cruiserState { st := .capturing, west := { doneAt := some 1 } } {}).setHbm 1 { st := .ready }, by decide +kernel⟩,
   ⟨cruiserState { st := .capturing, west := { absent := true } } {}, by decide +kernel⟩, ⟨cruiserState { st := .transfer } {}, by decide +kernel⟩,
   ⟨cruiserState {} { ptp := 100000000000 }, by decide +kernel⟩⟩

/-- Lookout with a trap, and FAULT_N low; source 20 reacts with a trap record only by its severity. -/
def lookState (lo : LookoutS) : State :=
  { (withRegs [(pgLookout, Reg.loSrc 20, 0), (pgLookout, Reg.loSrc 21, 0)]) with
    lookout := lo, forester := { holder := 1, west := { st := .head } }, clk := { up := 9 } }

/-- A summary that a chip reset has overtaken. -/
def owedSummary : Summary := State.reset.summary 1 noRecord

theorem witness_LookoutCommandsComplete :
    (∃ (s : State) (fab : MsgQueue) (m : Message) (ms : List Message), s.live = true ∧ s.blockUp pgLookout = true
      ∧ s.lookout.q fab = m :: ms ∧ m.typ ≠ .fall ∧ s.srcLatched m.src = false
      ∧ s.reactions m.src / 4 % 2 = 0 ∧ s.reactions m.src = 0
      ∧ fld (s.loSrc m.src) 5 2 ≠ 3)
    ∧ (∃ (s : State) (fab : MsgQueue) (m : Message) (ms : List Message), s.live = true ∧ s.blockUp pgLookout = true
      ∧ s.lookout.q fab = m :: ms ∧ m.typ = .fall)
    ∧ (∃ (s : State) (n : Fin 512), s.live = true ∧ s.blockUp pgLookout = true ∧ AMap.get false s.lookout.missed n.val = true
      ∧ s.lineSeen n.val = true ∧ s.reactions n.val / 4 % 2 = 0)
    ∧ (∃ (s : State) (v : Word), s.live = true ∧ s.WritesNow .host pgLookout Reg.loClr ∧ bit v 31 = false
      ∧ s.srcActive (fld v 0 9) = false)
    ∧ (∃ (s : State) (v : Word), s.live = true ∧ s.WritesNow .host pgLookout Reg.loClr ∧ bit v 31 = true)
    ∧ (∃ s : State, s.live = true ∧ s.WritesNow .host pgLookout Reg.loPinRel ∧ s.lookout.faultLow = true ∧ s.lookout.pulseEnd = none)
    ∧ (∃ (s : State) (m : Message) (ms : List Message), s.live = true ∧ s.headReaches = true ∧ s.lookout.traps = m :: ms)
    ∧ (∃ (s : State) (u : Nat), s.lookout.pulseEnd = some u ∧ u ≤ s.clk.up)
    ∧ (∃ (s : State) (c : Nat) (m : Message), s.lookout.owed = [] ∧ s.lookout.fatal = some (c, m) ∧ s.lookout.chipRst = 0)
    ∧ (∃ (s : State) (x : Summary) (xs : List Summary), s.lookout.owed = x :: xs ∧ s.lookout.fatal ≠ none) :=
  ⟨⟨lookState { qCommon := [{ noRecord with src := 20, typ := .rise }] }, .common, { noRecord with src := 20, typ := .rise }, [],
     by decide +kernel⟩,
   ⟨lookState { qCommon := [{ noRecord with src := 20, typ := .fall }] }, .common, { noRecord with src := 20, typ := .fall }, [],
     by decide +kernel⟩,
   ⟨lookState { level := [(21, true)], missed := [(21, true)] }, 21, by decide +kernel⟩, 
   ⟨serving (lookState {}), 511, rfl, now_of (by decide +kernel), by decide +kernel⟩,
   ⟨serving (lookState {}), 0x80000000, rfl, now_of (by decide +kernel), by decide +kernel⟩,
   ⟨serving (lookState { faultLow := true }), rfl, now_of (by decide +kernel), by decide +kernel⟩,
   ⟨lookState { traps := [noRecord] }, noRecord, [], by decide +kernel⟩,
   ⟨lookState { pulseEnd := some 9 }, 9, by decide +kernel⟩, ⟨lookState { fatal := some (1, noRecord) }, 1, noRecord, by decide +kernel⟩,
   ⟨lookState { fatal := some (1, noRecord), owed := [owedSummary] }, owedSummary, [], by decide +kernel⟩⟩

/-- Firebreak with these fields, 10 s after power-on, VDD_CORE's hints enabled, West the head at EPOCH 1. -/
def fireState (f : FireS) : State :=
  { (withRegs [(pgFirebreak, Reg.fbCtrl, 4), (pgFirebreak, Reg.fbTempThr, 0), (pgFirebreak, Reg.fbCapFast, 1)]) with
    fire := f, clk := { up := 10000000000 }, forester := { holder := 1, epoch := 1, west := { st := .head } }, rst := { phase := .run } }

theorem witness_FirebreakCommandsComplete :
    (∃ (s : State) (c : Cap), s.live = true ∧ s.breached c = true ∧ (s.capCheck c).above (s.capOf c) = true ∧ s.fixedMode = false)
    ∧ (∃ (s : State) (c : Cap), s.live = true ∧ s.breached c = false
      ∧ (s.capCheck c).below (s.capOf c * (100 - s.hyst)) 100 = true ∧ s.fire.capDepth c ≠ 0 ∧ s.releaseDue c = true
      ∧ s.fixedMode = false)
    ∧ (∃ (s : State) (cl : Half) (e v : Word) (r : Requester), s.live = true ∧ r = (if cl.val = 0 then .west else .east)
      ∧ s.runsOn r = true ∧ s.fenceRuns r = false ∧ s.frontCause true (accessTo r pgFirebreak Reg.fbCal v) = none
      ∧ s.pageReady r pgFirebreak = true ∧ s.headNow cl.val e.toNat = true)
    ∧ (∃ s : State, s.live = true ∧ s.fire.calTold = false ∧ s.fire.calAt + 100000000 ≤ s.clk.up)
    ∧ (∃ s : State, s.live = true ∧ s.deferred = true ∧ 1000000000 ≤ s.deferRecent)
    ∧ (∃ s : State, s.live = true ∧ s.WritesNow .host pgFirebreak Reg.fbCtrl ∧ s.fixedMode ≠ true)
    ∧ (∃ s : State, s.live = true ∧ (∀ u, AMap.get none s.fire.droopAt 1 = some u → u + 1000000 ≤ s.clk.up))
    ∧ (∃ s : State, s.live = true ∧ s.hottest ≤ s.tempThr Reg.fbTempThr - 3
      ∧ (∀ u, s.fire.thermAt = some u → u + 10000000 ≤ s.clk.up) ∧ s.fire.dTherm ≠ 0)
    ∧ (∃ s : State, s.live = true ∧ s.halfUp 0 = true ∧ s.halfUp 1 = true ∧ s.tempThr Reg.fbTempThr ≤ s.hottest
      ∧ (∀ u, s.fire.thermAt = some u → u + 1000000 ≤ s.clk.up) ∧ s.fixedMode = false)
    ∧ (∃ s : State, s.live = true ∧ AMap.get false s.fire.rails 10 = true)
    ∧ (∃ (s : State) (u : Nat), s.live = true ∧ s.fire.uvRec = some u ∧ u + 100000 ≤ s.clk.up)
    ∧ (∃ (s : State) (d : BitVec 16), s.live = true ∧ s.WritesNow .host pgFirebreak Reg.fbHint ∧ s.rbit pgFirebreak Reg.fbCtrl 2 = true ∧ s.fire.hintEnd = none
      ∧ s.fire.hintPend = none ∧ d ≠ 0)
    ∧ (∃ (s : State) (u : Nat), s.live = true ∧ s.WritesNow .host pgFirebreak Reg.fbHint ∧ s.rbit pgFirebreak Reg.fbCtrl 2 = true
      ∧ s.fire.hintEnd = some u)
    ∧ (∃ (s : State) (x : Nat × Nat), s.live = true ∧ s.fire.hintPend = some x ∧ s.ioBank 1 = true)
    ∧ (∃ (s : State) (x : Nat × Nat), s.live = true ∧ s.fire.hintPend = some x ∧ x.2 + 200000 ≤ s.clk.up)
    ∧ (∃ (s : State) (u : Nat), s.live = true ∧ s.fire.hintEnd = some u ∧ u ≤ s.clk.up)
    ∧ (∃ s : State, s.live = true ∧ s.lookout.qCommon.length < 256 ∧ AMap.get false s.lookout.level (32 * 26 + 8) = false)
    ∧ (∀ fresh : Bool, ∃ s : State, s.rst.tripped = false ∧ s.rst.porstAt = none ∧ s.dipFresh = fresh) :=
  ⟨⟨fireState { samples := [1000, 1000] }, .fast, by decide +kernel⟩, ⟨fireState { dFast := 3 }, .fast, by decide +kernel⟩,
   ⟨fireState {}, 0, 1, 7, .west, by decide +kernel⟩,
   ⟨fireState {}, by decide +kernel⟩, ⟨fireState { dFast := 3, deferFrom := some 0 }, by decide +kernel⟩,
   ⟨fireState {}, by decide +kernel, now_of (by decide +kernel), by decide +kernel⟩,
   ⟨fireState {}, by decide +kernel, fun u h => nomatch h⟩,
   ⟨{ fireState { dTherm := 4 } with regs := [] }, by decide +kernel, by decide +kernel, (fun u h => nomatch h), by decide +kernel⟩,
   ⟨fireState {}, by decide +kernel, by decide +kernel, by decide +kernel, by decide +kernel, (fun u h => nomatch h), by decide +kernel⟩,
   ⟨fireState { rails := [(10, true)] }, by decide +kernel⟩, ⟨fireState { uvRec := some 0 }, 0, by decide +kernel⟩,
   ⟨fireState {}, 1, rfl, now_of (by decide +kernel), by decide +kernel⟩,
   ⟨fireState { hintEnd := some 5 }, 5, rfl, now_of (by decide +kernel), by decide +kernel⟩,
   ⟨(fireState { hintPend := some (5, 0) }).setReg pgChip (Reg.ioSense 1) 0x80000000, (5, 0), by decide +kernel⟩,
   ⟨fireState { hintPend := some (5, 0) }, (5, 0), by decide +kernel⟩,
   ⟨fireState { hintEnd := some 10000000000 }, 10000000000, by decide +kernel⟩, ⟨fireState {}, by decide +kernel⟩,
   fun fresh => ⟨{ fireState {} with lookout := { dipAt := if fresh then none else some 9999999999 } }, rfl, rfl, by cases fresh <;> decide +kernel⟩⟩

/-- Forester: West is head at EPOCH 4, East STANDBY. -/
def forState (f : ForesterS) : State :=
  { (withRegs [(pgChip, Reg.ioSense 0, 0x80000000), (pgChip, Reg.ioSense 1, 0x80000000)]) with
    forester := f, clk := { up := 10000000000 }, rst := { phase := .run, bootSrc := 1 } }

/-- East has claimed headship on this edge; West, of the HEAD_SEL half, expects the same EPOCH. -/
def tieState : State :=
  forState { holder := 2, epoch := 5, claimed := some (10000000000, 0), west := { st := .standby }, east := { st := .head, epoch := 5 } }

theorem witness_ForesterCommandsComplete :
    (∃ (s : State) (cl : Half) (e : Word), s.live = true ∧ (s.cluster cl.val).st = .standby ∧ s.reachesAon cl.val = true
      ∧ e.toNat = s.forester.epoch ∧ s.forester.holder = 0 ∧ s.mayClaim cl.val = true)
    ∧ (∃ (s : State) (cl : Half), s.live = true ∧ s.forester.holder = cl.val + 1 ∧ (s.cluster cl.val).st = .head
      ∧ s.reachesAon cl.val = true ∧ s.forester.leaseAt + 20000000 ≤ s.clk.up ∧ (s.cluster cl.val).st ≠ .off
      ∧ (s.cluster cl.val).st ≠ .failed)
    ∧ (∃ (s : State) (cl : Half) (e : Word), s.live = true ∧ (s.cluster cl.val).st = .standby ∧ s.reachesAon cl.val = true
      ∧ s.tied cl.val e = true)
    ∧ (∃ (s : State) (cl : Half), s.live = true ∧ s.bootReady cl.val = true ∧ s.rst.bootSrc = 1 ∧ (s.cluster cl.val).uart = true)
    ∧ (∃ (s : State) (cl : Half), s.live = true ∧ s.bootReady cl.val = true ∧ s.rst.bootSrc = 3)
    ∧ (∃ (s : State) (life due : Nat), s.live = true ∧ s.forester.lcNext = some (life, due) ∧ due ≠ 0 ∧ due ≤ s.clk.up
      ∧ life = 1 ∧ s.fuses.seed = [])
    ∧ (∃ (s : State) (q : Nat), s.live = true ∧ s.headReaches = true ∧ q ∈ s.spans.map (·.1) ∧ s.spanOn q = true
      ∧ s.mram.hist.length + s.spans.length ≤ 64) :=
  ⟨⟨forState { epoch := 4, east := { st := .standby } }, 1, 4, by decide +kernel⟩,
   ⟨forState { holder := 1, epoch := 4, west := { st := .head } }, 0, by decide +kernel⟩,
   ⟨tieState, 0, 4, by decide +kernel⟩, ⟨forState { west := { st := .boot, uart := true } }, 0, by decide +kernel⟩,
   ⟨{ forState { west := { st := .boot } } with rst := { phase := .run, bootSrc := 3 } }, 0, by decide +kernel⟩, ⟨forState { lcNext := some (1, 5) }, 1, 5, by decide +kernel⟩,
   ⟨{ (withRegs [(pgPort 0, Reg.portCtrl 0, 1)]) with
      ports := [(0, { cfg := 0x5E })], spans := [(0, {})], forester := { holder := 1, west := { st := .head } } }, 0, by decide +kernel⟩⟩

/-- The bytes of a fatal summary with number 3, its CRC apart. -/
def body3 : List Byte := leBytes 4 0x4C4B4653 ++ leBytes 4 1 ++ leBytes 4 3 ++ zeros 4080
/-- The bytes of a fatal summary with number 3. -/
def sum3 : List Byte := body3 ++ leBytes 4 (crc32cStd body3)

theorem xor_lt {a b : Nat} (ha : a < 2 ^ 32) (hb : b < 2 ^ 32) : Nat.xor a b < 2 ^ 32 := Nat.xor_lt_two_pow ha hb

theorem crcBits_lt {poly : Nat} (hp : poly < 2 ^ 32) : ∀ n c, c < 2 ^ 32 → crcBits poly c n < 2 ^ 32
  | 0, _, hc => hc
  | n + 1, c, hc => by
    unfold crcBits
    refine crcBits_lt hp n _ ?_
    split
    · exact xor_lt (by omega) hp
    · omega

theorem crcFeed_lt {poly : Nat} (hp : poly < 2 ^ 32) : ∀ (bs : List Byte) c, c < 2 ^ 32 → crcFeed poly c bs < 2 ^ 32
  | [], _, hc => hc
  | b :: bs, c, hc => crcFeed_lt hp bs _ (crcBits_lt hp 8 _ (xor_lt hc (Nat.lt_trans b.isLt (by decide))))

theorem crc_lt (bs : List Byte) : crc32cStd bs < 2 ^ 32 := xor_lt (crcFeed_lt (by decide) bs _ (by decide)) (by decide)

theorem byteAt_append {a : List Byte} (b : List Byte) {n i : Nat} (h : a.length = n) : byteAt (a ++ b) (n + i) = byteAt b i := by
  unfold byteAt
  rw [List.getD_eq_getElem?_getD, List.getD_eq_getElem?_getD, List.getElem?_append_right (by omega), h, Nat.add_sub_cancel_left]

theorem leAt_append {a : List Byte} (b : List Byte) {n : Nat} (h : a.length = n) : ∀ k i, leAt (a ++ b) (n + i) k = leAt b i k
  | 0, _ => rfl
  | k + 1, i => by
    have e := leAt_append b h k (i + 1)
    simp only [leAt, bytesAt, leNat, byteAt_append b h] at e ⊢
    rw [← e, Nat.add_assoc]

theorem leAt_leBytes4 {x : Nat} (h : x < 2 ^ 32) : leAt (leBytes 4 x) 0 4 = x := by
  simp [leAt, leBytes, bytesAt, byteAt, leNat]; omega

theorem body3_length : body3.length = 4092 := by decide +kernel

theorem sum3_valid : sumValid 3 sum3 = true := by
  have c : leAt sum3 0xFFC 4 = crc32cStd (sum3.take 0xFFC) := by
    have e := leAt_append (leBytes 4 (crc32cStd body3)) body3_length 4 0
    rw [leAt_leBytes4 (crc_lt _)] at e
    rw [show sum3.take 0xFFC = body3 from List.take_left' body3_length]
    exact e
  unfold sumValid
  rw [c]
  simp only [decide_true, Bool.and_true]
  decide +kernel

/-- The mailbox runs op with a request, West head and East STANDBY, the PCIe link up, one staged data-path load, one
history slot, both channels of position 0 routed to Forester. -/
def mailState (op : Nat) (req : List Byte) : State :=
  { (withRegs [(pgChip, Reg.ioSense 0, 0x80000000), (pgChip, Reg.ioSense 1, 0x80000000), (pgSpan 0, Reg.spCh 0, 0x201),
      (pgPort 0, Reg.portCtrl 0, 1)]) with
    ports := [(0, { cfg := 0x5E })], host := { linkUp := true, bme := true }, fuses := { life := 1 }, clk := { up := 10000000000 }
    mram := { hist := [{ pos := 0, lastOn := 0 }], sums := [(3, sum3)] }
    forester := { holder := 1, west := { st := .head, typ := 1 }, east := { st := .standby, typ := 1 }
                  staged := [(3, some { hdr := [], ver := 0, svn := 0, payload := [] })]
                  mb := { busy := true, op := op, req := req, alen := 5376 } } }

theorem runs_of {s : State} {op : Nat} (h : (s.forester.mb.busy && decide (s.forester.mb.op = op)
    && decide (s.forester.mb.result = none) && s.headReaches) = true) : s.MailboxRuns op := by
  simp only [Bool.and_eq_true, decide_eq_true_eq] at h
  exact ⟨h.1.1.1, h.1.1.2, h.1.2, h.2⟩

theorem sumArg : (mailState 0x04 (leBytes 4 3)).mbArg 0 = 3 := by decide +kernel

theorem witness_MailboxCommandsComplete :
    (∃ s : State, s.live = true ∧ s.MailboxRuns 0x01)
    ∧ (∃ s : State, s.live = true ∧ s.MailboxRuns 0x02 ∧ s.ioBank 1 = true)
    ∧ (∃ s : State, s.live = true ∧ s.MailboxRuns 0x03 ∧ 8 ≤ s.mbReq.length ∧ s.mbArg 1 = 1)
    ∧ (∃ (s : State) (x : List Byte), s.live = true ∧ s.MailboxRuns 0x04 ∧ 4 ≤ s.mbReq.length
      ∧ AMap.get [] s.mram.sums (s.mbArg 0 % 16) = x ∧ sumValid (s.mbArg 0 % 16) x = true ∧ leAt x 8 4 = s.mbArg 0)
    ∧ (∃ s : State, s.live = true ∧ s.MailboxRuns 0x05)
    ∧ (∃ (s : State) (x : HistSlot), s.live = true ∧ s.MailboxRuns 0x10 ∧ 4 ≤ s.mbReq.length
      ∧ s.mram.hist.find? (fun x => decide (x.pos = s.mbPos)) = some x)
    ∧ (∃ s : State, s.live = true ∧ s.MailboxRuns 0x11 ∧ 4 ≤ s.mbReq.length ∧ s.chRoute s.mbPos s.mbPath = .forester)
    ∧ (∃ s : State, s.live = true ∧ s.MailboxRuns 0x12 ∧ 4 ≤ s.mbReq.length ∧ s.chRoute s.mbPos s.mbPath = .forester)
    ∧ (∃ (s : State) (img : List Byte), s.live = true ∧ s.MailboxRuns 0x20 ∧ 4 ≤ s.mbReq.length ∧ s.dmaOk = true
      ∧ imgType (s.mbBuffer img) = s.mbArg 0)
    ∧ (∃ (s : State) (i : Image) (recs : List LoadRec), s.live = true ∧ s.MailboxRuns 0x21 ∧ 4 ≤ s.mbReq.length
      ∧ s.mbArg 0 = 3 ∧ s.headRecovers = false ∧ AMap.get none s.forester.staged 3 = some i ∧ payloadRecs i.payload = some recs
      ∧ recs.any (({ s with forester := { s.forester with staged := AMap.set none s.forester.staged 3 none } } :
        State).recRefused s.headReq) = false)
    ∧ (∃ s : State, s.live = true ∧ s.MailboxRuns 0x22 ∧ 4 ≤ s.mbReq.length ∧ s.mbArg 0 < 2 ∧ (s.cluster (s.mbArg 0)).st ≠ .head)
    ∧ (∃ s : State, s.live = true ∧ s.MailboxRuns 0x23 ∧ (s.cluster (1 - s.headIdx)).st = .standby
      ∧ (s.cluster s.headIdx).svn ≤ (s.cluster (1 - s.headIdx)).svn ∧ s.flumeUp = true ∧ s.forester.holder ≤ 2)
    ∧ (∃ s : State, s.live = true ∧ s.MailboxRuns 0x30 ∧ s.rst.restoring = false)
    ∧ (∃ s : State, s.live = true ∧ s.MailboxRuns 0x40 ∧ s.hasIdentity = true ∧ 64 ≤ s.mbReq.length ∧ 5376 ≤ s.forester.mb.alen)
    ∧ (∃ s : State, s.live = true ∧ s.MailboxRuns 0x41 ∧ s.hasIdentity = true)
    ∧ (∃ s : State, s.live = true ∧ s.MailboxRuns 0x42 ∧ 1 ≤ s.mbReq.length)
    ∧ (∃ s : State, s.live = true ∧ s.MailboxRuns 0x50 ∧ 4 ≤ s.mbReq.length ∧ s.dmaOk = true)
    ∧ (∃ (s : State) (x : Nat) (xs : List Nat), s.live = true ∧ s.MailboxRuns 0x51 ∧ 4 ≤ s.mbReq.length ∧ 1 ≤ s.mbArg 0
      ∧ s.mbArg 0 ≤ 6 ∧ s.runningSvns (s.mbArg 0) = x :: xs)
    ∧ (∃ (s : State) (k : Nat), s.live = true ∧ s.MailboxRuns 0x52 ∧ 68 ≤ s.mbReq.length ∧ s.fuses.life = 1 ∧ s.mbArg 0 = k
      ∧ (k = 2 ∨ k = 3) ∧ AMap.get [] s.fuses.keys k = [])
    ∧ (∃ (s : State) (x r : MbResult), s.live = true ∧ s.forester.mb.busy = true ∧ s.headReaches = true
      ∧ s.stillBoots = false ∧ s.forester.mb.op ∈ mbOps ∧ s.forester.mb.result = some x
      ∧ r = (s.mbSettle (s.mbFinal x)).2)
    ∧ (∃ s : State, s.live = true ∧ s.forester.mb.busy = true ∧ s.headReaches = true ∧ s.stillBoots = false
      ∧ s.forester.mb.op ∉ mbOps)
    ∧ (∃ s : State, s.live = true ∧ s.forester.mb.busy = true ∧ s.forester.mb.headed = false
      ∧ s.forester.mb.goAt + 100000000 ≤ s.clk.up) := by
  refine ⟨⟨mailState 0x01 [], ?_⟩, ⟨mailState 0x02 [], ?_⟩, ⟨mailState 0x03 (leBytes 4 0 ++ leBytes 4 1), ?_⟩,
    ⟨mailState 0x04 (leBytes 4 3), sum3, rfl, runs_of (by decide +kernel), by decide +kernel, by rw [sumArg]; rfl,
      by rw [sumArg]; exact sum3_valid, by rw [sumArg]; decide +kernel⟩, ⟨mailState 0x05 [], ?_⟩,
    ⟨mailState 0x10 (leBytes 4 0), { pos := 0, lastOn := 0 }, ?_⟩, ⟨mailState 0x11 (leBytes 4 0), ?_⟩,
    ⟨mailState 0x12 (leBytes 4 0 ++ [7]), ?_⟩, ⟨mailState 0x20 (leBytes 4 3), zeros 6 ++ [3, 0], ?_⟩,
    ⟨mailState 0x21 (leBytes 4 3), { hdr := [], ver := 0, svn := 0, payload := [] }, [], ?_⟩,
    ⟨mailState 0x22 (leBytes 4 1), ?_⟩, ⟨mailState 0x23 [], ?_⟩, ⟨mailState 0x30 [], ?_⟩, ⟨mailState 0x40 (zeros 64), ?_⟩,
    ⟨mailState 0x41 [], ?_⟩, ⟨mailState 0x42 [1], ?_⟩, ⟨mailState 0x50 (leBytes 4 2), ?_⟩,
    ⟨mailState 0x51 (leBytes 4 1), 0, [0], ?_⟩, ⟨mailState 0x52 (leBytes 4 2 ++ zeros 64), 2, ?_⟩,
    ⟨forState { holder := 1, west := { st := .head }, mb := { busy := true, op := 0x05, result := some { status := 0 } } }, { status := 0 }, _, ?_, ?_,
      ?_, ?_, ?_, ?_, rfl⟩,
    ⟨forState { holder := 1, west := { st := .head }, mb := { busy := true, op := 0x7F } }, ?_⟩,
    ⟨forState { mb := { busy := true, goAt := 0, headed := false } }, ?_⟩⟩
  all_goals repeat' apply And.intro
  all_goals first | exact runs_of (by decide +kernel) | decide +kernel

/-- The device with this reset state, RUN's pages open, and West as head. -/
def resetState (r : RstS) : State := { State.reset with rst := r, forester := { holder := 1, west := { st := .head } } }

theorem witness_ResetCommandsComplete :
    (∃ (s : State) (t0 : Nat), s.rst.porstAt = some t0)
    ∧ (∃ s : State, s.rst.porstAt = none ∧ s.rst.chipAt = none)
    ∧ (∃ (s : State) (t0 : Nat), s.rst.porstAt = some t0 ∧ s.rst.chipAt = none)
    ∧ (∃ (s : State) (t0 : Nat), s.rst.chipAt = some t0)
    ∧ (∃ s : State, s.fuses.wipeDone = false ∧ s.rst.porstAt = none ∧ s.rst.chipAt = none ∧ s.rst.tripped = false)
    ∧ (∀ starting : Bool, ∃ (s : State) (v : Word), s.live = true ∧ s.WritesNow .host pgReset Reg.rstChip
      ∧ s.WritesNow .host pgReset Reg.rstHalf ∧ s.WritesNow .host pgReset Reg.rstSlice ∧ s.starting = starting
      ∧ fld v 16 16 = 0x9204 ∧ s.halfUp 0 = true ∧ s.halfUp 1 = true
      ∧ s.sliceUp (fld v 0 5) = true ∧ fld v 0 5 = 31)
    ∧ (∃ (s : State) (h : Half), s.live = true ∧ s.halfUp h.val = false)
    ∧ (∃ (s : State) (sl : Slice), s.live = true ∧ AMap.get false s.rst.slices sl.val = true ∧ s.halfUp (sliceHalf sl.val) = true)
    ∧ (∃ (s : State) (p : Nat), s.live = true ∧ (pageBlk p).isSome = true ∧ blkIgnores p = false ∧ s.starting = false ∧ s.pageInReset p = false
      ∧ s.blockUp p = true ∧ s.rbit p 0x08 0 = false
      ∧ (∀ sl, pageBlk p = some .parser → pageSlice p = some sl → (s.slice sl).swap = false)
      ∧ s.WritesNow .host p Reg.pgCtrl)
    ∧ (∃ (s : State) (p : Nat), s.live = true ∧ (pageBlk p).isSome = true ∧ blkIgnores p = false ∧ s.starting = false ∧ s.pageInReset p = false
      ∧ s.blockUp p = true ∧ s.rbit p 0x08 0 = false
      ∧ (∀ sl, pageBlk p = some .parser → pageSlice p = some sl → (s.slice sl).swap = false)
      ∧ s.Reaches true (accessTo .host p Reg.pgCtrl 0) ∧ postsWrite p Reg.pgCtrl = true ∧ s.wbusy p = false
      ∧ s.lockHits p Reg.pgCtrl = false ∧ (∀ x ∈ s.bus.held, x.fenced = true ∨ accPage x.acc ≠ p))
    ∧ (∃ (s : State) (p : Nat), s.live = true ∧ s.blockUp p = false
      ∧ (∀ sl, pageBlk p = some .parser → pageSlice p = some sl → (s.slice sl).swap = false))
    ∧ (∃ s : State, s.live = true ∧ s.halvesUp = true ∧ s.flumeUp = true)
    ∧ (∃ s : State, s.live = true ∧ s.halvesUp = true ∧ s.flumeUp = false)
    ∧ (∃ s : State, s.live = true ∧ s.rst.phase = .fuses)
    ∧ (∃ s : State, s.live = true ∧ s.headReaches = true ∧ s.rst.phase = .boot)
    ∧ (∃ s : State, s.live = true ∧ s.rst.restoring = true ∧ s.headReaches = true) :=
  ⟨⟨resetState { porstAt := some 0 }, 0, rfl⟩, ⟨State.reset, by decide⟩, ⟨resetState { porstAt := some 0 }, 0, by decide⟩, ⟨resetState { chipAt := some 0 }, 0, by decide⟩,
   ⟨{ State.reset with fuses := { life := 1, wipeDone := false } }, by decide⟩, 
   fun b => ⟨{ busState {} with rst := { phase := if b then .restore else .run } }, 0x9204001F, rfl,
     now_of (by cases b <;> decide +kernel), now_of (by cases b <;> decide +kernel), now_of (by cases b <;> decide +kernel),
     by cases b <;> decide +kernel⟩,
   ⟨resetState { half1 := true }, 1, by decide⟩, ⟨resetState { slices := [(5, true)] }, 5, by decide⟩,
   ⟨busState {}, pgTime, by decide, by decide, by decide, by decide, by decide, by decide, by decide, (fun _ _ _ => rfl),
    now_of (by decide +kernel)⟩,
   ⟨busState {}, pgParser 5, by decide, by decide, by decide, by decide, by decide, by decide, by decide +kernel, (fun _ _ _ => rfl),
    reaches_of (by decide +kernel), by decide +kernel, rfl, by decide +kernel, fun x h => nomatch h⟩,
   ⟨resetState { blocks := [(pgDeck 0, true)] }, pgDeck 0, by decide, by decide, fun _ _ _ => rfl⟩, ⟨State.reset, by decide⟩,
   ⟨{ State.reset with flumeUp := false }, by decide⟩, ⟨State.reset, by decide⟩, ⟨resetState { phase := .boot }, by decide⟩,
   ⟨resetState { restoring := true }, by decide⟩⟩

theorem witness_BusCommandsComplete :
    (∃ (s : State) (a : Access) (r : RegSpec), s.live = true ∧ s.Reaches true a ∧ s.PlainReg (accPage a) (accOff a) r
      ∧ s.wbusy (accPage a) = false ∧ (pageSlow (accPage a) = false ∨ isStaging (accPage a) (accOff a) = true))
    ∧ (∃ (s : State) (a : Access) (r : RegSpec), s.live = true ∧ s.Reaches true a ∧ s.PlainReg (accPage a) (accOff a) r
      ∧ s.wbusy (accPage a) = false ∧ postsWrite (accPage a) (accOff a) = true ∧ accOff a ≠ Reg.winCmd)
    ∧ (∃ (s : State) (p o : Nat) (v : Word) (r : RegSpec) (q : Requester) (n e : Nat), s.live = true
      ∧ AMap.get none s.bus.posted p = some ⟨q, .write o v, n, e⟩ ∧ s.writeFenced q p e = false ∧ s.pageReady q p = true
      ∧ s.PlainReg p o r ∧ (∀ x ∈ s.bus.held, x.fenced = true ∨ accPage x.acc ≠ p) ∧ o < 0x10000)
    ∧ (∃ (s : State) (a : Access), s.live = true ∧ s.Reaches false a ∧ readWaits (accPage a) (accOff a) = false
      ∧ a.size ≠ 8 ∧ isHigh (accPage a) (accOff a) = false ∧ isWide (accPage a) (accOff a) = true)
    ∧ (∃ (s : State) (a : Access), s.live = true ∧ s.Reaches false a ∧ readWaits (accPage a) (accOff a) = false
      ∧ a.size ≠ 8 ∧ isHigh (accPage a) (accOff a) = true)
    ∧ (∃ (s : State) (a : Access), s.live = true ∧ s.Reaches false a ∧ readWaits (accPage a) (accOff a) = false ∧ a.size = 8)
    ∧ (∃ (s : State) (req : Requester) (p o : Nat) (v : Word), s.live = true ∧ s.Reaches true (accessTo req p o v) ∧ o < 0x10000
      ∧ isHigh p o = true ∧ pageSlow p = false ∧ readOnly p o = false ∧ s.lockHits p o = false)
    ∧ (∃ (s : State) (req : Requester) (p o : Nat) (v : Word), s.live = true ∧ s.Reaches true (accessTo req p o v) ∧ o < 0x10000
      ∧ isWide p o = true ∧ isHigh p o = false ∧ pageSlow p = false ∧ readOnly p o = false ∧ s.lockHits p o = false
      ∧ p ≠ pgCruiser)
    ∧ (∃ (s : State) (req : Requester) (o : Nat) (v : Word), s.live = true ∧ s.Reaches true (accessTo req pgCruiser o v)
      ∧ o < 0x10000 ∧ isWide pgCruiser o = true ∧ isHigh pgCruiser o = false ∧ pageSlow pgCruiser = false
      ∧ readOnly pgCruiser o = false ∧ s.lockHits pgCruiser o = false ∧ Reg.crTdCyc ≤ o ∧ o < 0xB8)
    ∧ (∃ (s : State) (req : Requester) (p : Nat) (v : Word), s.live = true ∧ s.Reaches true (accessTo req p Reg.pgEvt v)
      ∧ fld v 24 8 = fld (s.evt p) 24 8)
    ∧ (∃ (s : State) (req : Requester) (p : Nat) (v : Word), s.live = true ∧ s.Reaches true (accessTo req p Reg.pgEvt v)
      ∧ fld v 24 8 ≠ fld (s.evt p) 24 8)
    ∧ (∃ (s : State) (req : Requester) (p : Nat), s.live = true ∧ s.Reaches true (accessTo req p Reg.pgLock 1))
    ∧ (∃ (s : State) (req : Requester) (p : Nat) (n : Fin 32), s.live = true
      ∧ s.Reaches true (accessTo req p Reg.winCmd (winCmdWord 1 n.val)) ∧ pageSlow p = true ∧ s.wbusy p = false)
    ∧ (∃ (s : State) (p : Nat) (q : Requester) (op n sel a : Nat) (data : List Word) (k e : Nat), s.live = true
      ∧ AMap.get none s.bus.posted p = some ⟨q, .window op n sel a data, k, e⟩ ∧ s.writeFenced q p e = false
      ∧ ¬ (pageBlk p = some .hbm ∧ (s.hbmOf (pageHalfNat p)).st = .retrain)
      ∧ (∀ x ∈ s.bus.held, x.fenced = true ∨ accPage x.acc ≠ p))
    ∧ (∃ (s : State) (req : Requester), s.live = true ∧ s.Reaches true (accessTo req pgOrder Reg.orderFence 0))
    ∧ (∃ (s : State) (req : Requester) (t0 : Nat), s.live = true ∧ AMap.get none s.bus.fence (reqIdx req) = some t0
      ∧ s.writesWait req = false ∧ (∀ x ∈ s.bus.held, x.acc.req ≠ req))
    ∧ (∃ (s : State) (req : Requester), s.live = true ∧ s.Reaches true (accessTo req pgLifecycle Reg.lcCtrl 0)
      ∧ s.wbusy pgLifecycle = false ∧ s.lockHits pgLifecycle Reg.lcCtrl = false
      ∧ (∀ x ∈ s.bus.held, x.fenced = true ∨ accPage x.acc ≠ pgLifecycle))
    ∧ (∃ (s : State) (a : Access), s.live = true ∧ s.runsOn a.req = true ∧ s.fenceRuns a.req = true)
    ∧ (∃ (s : State) (a : Access), s.live = true ∧ s.runsOn a.req = true ∧ s.fenceRuns a.req = false ∧ a.bar2 = true ∧ a.be = 15 ∧ bar2Word a < 4096 ∧ bar2Word a % 4 ≠ 3) :=
  by
  refine ⟨⟨busState {}, accessTo .host (pgLearn 0) Reg.lrAge 5, ageSpec, ?_⟩,
    ⟨busState {}, accessTo .host (pgTcam 3) 0x44 5, tcamSpec, ?_⟩,
    ⟨busState { posted := [(pgTcam 3, some ⟨.west, .write 0x44 5, 0, 0⟩)] }, pgTcam 3, 0x44, 5, tcamSpec, .west, 0, 0, ?_⟩,
    ⟨busState {}, accessTo .host pgTime Reg.tmNow 0, ?_⟩, ⟨busState {}, accessTo .host pgTime (Reg.tmNow + 4) 0, ?_⟩,
    ⟨busState {}, { accessTo .host pgTime Reg.tmNow 0 with size := 8 }, ?_⟩,
    ⟨busState {}, .host, pgTime, Reg.tmSet + 4, 7, ?_⟩, ⟨busState {}, .host, pgTime, Reg.tmSet, 7, ?_⟩,
    ⟨busState {}, .host, Reg.crTdCyc, 7, ?_⟩, ⟨busState {}, .host, pgLookout, 1, ?_⟩,
    ⟨busState {}, .host, pgLookout, 0x01000001, ?_⟩, ⟨busState {}, .host, 0x13F8, ?_⟩,
    ⟨busState {}, .host, pgTcam 31, 31, ?_⟩,
    ⟨busState { posted := [(pgTcam 31, some ⟨.host, .window 1 1 0 0 [], 0, 0⟩)] }, pgTcam 31, .host, 1, 1, 0, 0, [], 0, 0, ?_⟩,
    ⟨busState {}, .host, ?_⟩, ⟨busState { fence := [(2, some 0)] }, .east, 0, ?_⟩, ⟨busState {}, .host, ?_⟩,
    ⟨busState { fence := [(reqIdx .west, some 0)] }, accessTo .west pgTime Reg.tmCtrl 1, ?_⟩,
    ⟨busState {}, { req := .host, addr := bar2Base + 4 }, ?_⟩⟩
  all_goals with_reducible repeat' apply And.intro
  all_goals first
    | exact reaches_of (by decide +kernel) | exact plain_of (by decide +kernel) (by decide +kernel) (by decide +kernel) | decide +kernel

end Sys2Proof.Machine.Tests
end

section
/-! SUPPORT AND PROOF. The receiving end of Flume, replication and its drain (01_architecture.md R27,
09_queues_forwarding.md R265, R267, R268, R270): what each of the four commands of O41 does to the queues it serves. -/

namespace Sys2Proof.Machine

/-! ### Flume -/

/-- A read after every value of a map was passed through a function. -/
theorem AMap.get_map_option {β : Type} (g : β → β) (m : AMap (Option β)) (k : Nat) :
    AMap.get none (m.map (fun e => (e.1, e.2.map g))) k = (AMap.get none m k).map g := by
  induction m with
  | nil => rfl
  | cons e m ih =>
    by_cases hk : e.1 = k
    · simp [AMap.get, hk]
    · simp [AMap.get, hk, ih]

/-- What a stored frame is once every frame that p holds of was changed by g. -/
theorem State.frame_mapFrames {s : State} {i : Nat} {f : Frame} (p : Frame → Bool) (g : Frame → Frame)
    (h : AMap.get none s.frames i = some f) : (s.mapFrames p g).frame i = if p f then g f else f := by
  simp [State.frame, State.mapFrames, AMap.get_map_option, h]

@[simp] theorem State.moveHolder_pathOf (s : State) (a b ring h : Nat) : (s.moveHolder a b ring).pathOf h = s.pathOf h := by
  unfold State.pathOf
  rw [(State.moveHolder_same (State.Sub.refl _) s a b ring (State.Same.refl _ s)).path rfl]

@[simp] theorem State.moveHolder_halfUp (s : State) (a b ring h : Nat) : (s.moveHolder a b ring).halfUp h = s.halfUp h := by
  unfold State.halfUp
  rw [(State.moveHolder_same (State.Sub.refl _) s a b ring (State.Same.refl _ s)).rst rfl]

@[simp] theorem State.sourceMsg_frame (s : State) (n code : Nat) (typ : MsgType) (kind : Nat) (info : Word) (i : Nat) :
    (s.sourceMsg n code typ kind info).frame i = s.frame i := by
  unfold State.frame
  rw [(State.sourceMsg_same (State.Sub.refl _) s n code typ kind info (State.Same.refl _ s)).frames rfl]

/-- The frame that carries the number expected of its source passes to step 4 of a half out of reset (R265): it is
0 ahead of the count, so it is not late and no number is skipped. -/
theorem State.flumeTake_expected {s : State} {h ch : Nat} {x : Transit} (hup : s.halfUp h = true)
    (hx : (s.pathOf h).transit.find? (fun y => decide (y.chan = ch)) = some x)
    (hseq : AMap.get 0 (s.pathOf h).seqExp x.src = x.seq) :
    (s.flumeTake h ch false).pathOf h = { s.pathOf h with
      transit := (s.pathOf h).transit.erase x
      seqExp := AMap.set 0 (s.pathOf h).seqExp x.src ((x.seq + 1) % 2 ^ 24)
      arrivals := (s.pathOf h).arrivals ++ [x.frame] } := by
  simp [State.flumeTake, hx, hseq, State.skipSeq, hup]

/-- An uncorrectable flit in the rest of a frame that half h took marks it FLUME_ERROR (R27, R278). -/
theorem State.flumeRest_bad {s : State} {h i : Nat} (htail : (s.frame i).tail = false) (hhalf : (s.frame i).half = h)
    (hsrc : portHalf (s.frame i).src = 1 - h) (hget : AMap.get none s.frames i = some (s.frame i))
    (hbad : (s.frame i).bad = 0) : ((s.flumeRest h i).frame i).bad = rFlume := by
  simp [State.flumeRest, htail, hhalf, hsrc, State.frame_mapFrames _ _ hget, Frame.markBad, hbad]

/-! ### Replication -/

@[simp] theorem State.settleMaster_path (s : State) (m : Nat) : (s.settleMaster m).path = s.path :=
  (State.settleMaster_same (State.Sub.refl _) s m (State.Same.refl _ s)).path rfl

@[simp] theorem State.mcastDone_path (s : State) (f : Frame) (n reason h : Nat) : (s.mcastDone f n reason h).path = s.path :=
  (State.mcastDone_same (State.Sub.refl _) s f n reason h (State.Same.refl _ s)).path rfl

@[simp] theorem State.endHolder_path (s : State) (h ring : Nat) : (s.endHolder h ring).path = s.path := rfl

@[simp] theorem State.makeCopy_pathOf (s : State) (i h : Nat) (e : Word) (first : Bool) (g : Nat) :
    (s.makeCopy i h e first).pathOf g = s.pathOf g := by
  unfold State.pathOf
  rw [(State.makeCopy_same (State.Sub.refl _) s i h e first (State.Same.refl _ s)).path rfl]

@[simp] theorem State.copiesMade_queue (s : State) (i h made q : Nat) : (s.copiesMade i h made).queue q = s.queue q := by
  unfold State.queue
  rw [(State.copiesMade_same (State.Sub.refl _) s i h made (State.Same.refl _ s)).queues rfl]

/-- The end of a drain takes no frame out of the replication queue. -/
@[simp] theorem State.drainSettle_repl (s : State) (h : Nat) : ((s.drainSettle h).pathOf h).repl = (s.pathOf h).repl := by
  unfold State.drainSettle
  dsimp only
  split
  · simp
  · rfl

@[simp] theorem State.copiesMade_repl (s : State) (i h made : Nat) :
    ((s.copiesMade i h made).pathOf h).repl = (s.pathOf h).repl := by
  unfold State.copiesMade
  dsimp only
  rw [State.drainSettle_repl]
  split <;> simp [State.pathOf]

/-- The count of copies is read at its own two words alone. -/
theorem State.count64_repCopies_reg (s : State) {h n p o : Nat} (ho : o < 0x10000)
    (hne : p ≠ pgAdmit h ∨ (o ≠ Reg.repCopies ∧ o ≠ Reg.repCopies + 4)) :
    (s.count64 (pgAdmit h) Reg.repCopies n).reg p o = s.reg p o := by
  apply State.setReg64_reg_ne
  all_goals
    simp only [regKey, pgAdmit, halfPage, Reg.repCopies] at *
    omega

@[simp] theorem State.setFrame_floodDrop (s : State) (i : Nat) (f g : Frame) (p : Nat) :
    (s.setFrame i f).floodDrop g p = s.floodDrop g p := rfl
@[simp] theorem State.newCopy_floodDrop (s : State) (f g : Frame) (p : Nat) :
    (s.newCopy f).floodDrop g p = s.floodDrop g p := rfl
@[simp] theorem State.setFrame_queueCheck (s : State) (i : Nat) (f : Frame) (q c : Nat) :
    (s.setFrame i f).queueCheck q c = s.queueCheck q c := rfl
@[simp] theorem State.newCopy_queueCheck (s : State) (f : Frame) (q c : Nat) :
    (s.newCopy f).queueCheck q c = s.queueCheck q c := rfl
@[simp] theorem State.setFrame_portCheck (s : State) (i : Nat) (f : Frame) (q : Nat) :
    (s.setFrame i f).portCheck q = s.portCheck q := rfl
@[simp] theorem State.newCopy_portCheck (s : State) (f : Frame) (q : Nat) :
    (s.newCopy f).portCheck q = s.portCheck q := rfl
@[simp] theorem State.count64_portCheck (s : State) (p o n q : Nat) :
    (s.count64 p o n).portCheck q = s.portCheck q := rfl

/-- The Raft checks of a flood copy read no register of an ADMIT page. -/
theorem State.count64_floodDrop (s : State) (h n : Nat) (f : Frame) (p : Nat) :
    (s.count64 (pgAdmit h) Reg.repCopies n).floodDrop f p = s.floodDrop f p := by
  have hport : (s.count64 (pgAdmit h) Reg.repCopies n).isRaftPort p = s.isRaftPort p := by
    unfold State.isRaftPort State.rbit
    rw [State.count64_repCopies_reg s (by simp only [Reg.ppPort]; omega)
      (.inl (by simp only [pgParser, slicePage, pgAdmit, halfPage]; omega))]
  have hgroup : ∀ r, (s.count64 (pgAdmit h) Reg.repCopies n).rfPort r = s.rfPort r := fun r => by
    unfold State.rfPort
    rw [State.count64_repCopies_reg s (by simp only [Reg.rfPort]; omega)
      (.inl (by simp only [pgHalf, pgAdmit, halfPage]; omega))]
  unfold State.floodDrop State.sameGroup
  rw [hport, hgroup, hgroup]

/-- The occupancy checks of a queue do not read the count of copies. -/
theorem State.count64_queueCheck (s : State) (h n q c : Nat) :
    (s.count64 (pgAdmit h) Reg.repCopies n).queueCheck q c = s.queueCheck q c := by
  have hclass : (s.count64 (pgAdmit h) Reg.repCopies n).reg (pgAdmit (queueHalf q)) (Reg.adC (q % 32))
      = s.reg (pgAdmit (queueHalf q)) (Reg.adC (q % 32)) :=
    State.count64_repCopies_reg s (by simp only [Reg.adC]; omega) (.inr (by simp only [Reg.adC, Reg.repCopies]; omega))
  have hport : (s.count64 (pgAdmit h) Reg.repCopies n).reg (pgAdmit (queueHalf q)) (Reg.adP (q / 32 % 512))
      = s.reg (pgAdmit (queueHalf q)) (Reg.adP (q / 32 % 512)) :=
    State.count64_repCopies_reg s (by simp only [Reg.adP]; omega) (.inr (by simp only [Reg.adP, Reg.repCopies]; omega))
  unfold State.queueCheck State.rbit State.rf
  dsimp only
  rw [hclass, hport]
  rfl

/-- The first copy of a frame that passes every check of its queue joins the queue under the next frame number (R268). -/
theorem State.makeCopy_queue {s : State} {i h q : Nat} {e : Word}
    (hq : q = 32 * (512 * h + fld e 0 9) + 16 + vTc (s.frame i).vecIn) (hflood : s.floodDrop (s.frame i) (q / 32) = none)
    (hport : s.portCheck q = none) (hqueue : s.queueCheck q (vColor (s.frame i).vecIn) = none) :
    (s.makeCopy i h e true).queue q = s.queue q ++ [s.nextFrame] := by
  unfold State.makeCopy
  dsimp only
  rw [← hq]
  simp [State.count64_floodDrop, State.count64_queueCheck, hflood, hport, hqueue, firstReason]

/-- A group of one valid copy entry makes that one copy. -/
theorem State.makeCopies_one {s : State} {i h k : Nat} (hk : k ≤ 262143) (hv : bit (s.repCopy h k) 31 = true) :
    s.makeCopies i h k 0 1 = (s.makeCopy i h (s.repCopy h k) true, 1) := by
  have hlt : ¬ 262143 < k := by omega
  simp [State.makeCopies, hlt, hv]

@[simp] theorem State.setPath_repGrp (s : State) (h : Nat) (x : PathS) (g k : Nat) :
    (s.setPath h x).repGrp g k = s.repGrp g k := rfl
@[simp] theorem State.setPath_repCopy (s : State) (h : Nat) (x : PathS) (g k : Nat) :
    (s.setPath h x).repCopy g k = s.repCopy g k := rfl

/-- A frame at the head of the replication queue whose group has one copy entry, and that valid: its one copy is made, and
with it all of them (R267). -/
theorem State.replicate_one {s : State} {h i : Nat} {is : List Nat} {g e : Word} (hrepl : (s.pathOf h).repl = i :: is)
    (hbad : (s.frame i).bad = 0) (hring : (s.ringRec (s.frame i).ring).expired = false)
    (hg : s.repGrp h (vDest (s.frame i).vecIn % 65536) = g) (hn : fld g 18 11 = 1)
    (he : s.repCopy h (fld g 0 18) = e) (hv : bit e 31 = true) :
    s.replicate h = ((s.setPath h { s.pathOf h with repl := is }).makeCopy i h e true).copiesMade i h 1 := by
  have hk : fld g 0 18 ≤ 262143 := by unfold fld; omega
  have hone := State.makeCopies_one (s := s.setPath h { s.pathOf h with repl := is }) (i := i) (h := h) hk
  simp only [State.setPath_repCopy, he] at hone
  simp [State.replicate, hrepl, hbad, hring, hg, hn, hone hv]

/-! ### Drain -/

/-- Every frame of the list is marked, and a frame that was marked stays so. -/
theorem State.markDrain_mark {s : State} {l : List Nat} {i : Nat} (h : (s.frame i).mark = true ∨ i ∈ l) :
    ((s.markDrain l).frame i).mark = true := by
  induction l generalizing s with
  | nil => simpa [State.markDrain] using h
  | cons j l ih =>
    unfold State.markDrain
    apply ih
    by_cases hij : i = j
    · left; simp [hij]
    · rcases h with h | h
      · left; rw [State.frame_setFrame_ne _ _ hij]; exact h
      · right; simpa [hij] using h

@[simp] theorem State.drainSettle_frame (s : State) (h i : Nat) : (s.drainSettle h).frame i = s.frame i := by
  unfold State.frame
  rw [(State.drainSettle_same (State.Sub.refl _) s h (State.Same.refl _ s)).frames rfl]

/-- A drain marks every frame that waits in the replication queue of its half (R270). -/
theorem State.startDrain_mark {s : State} {h i : Nat} (hi : i ∈ (s.pathOf h).repl) :
    ((s.startDrain h).frame i).mark = true := by
  unfold State.startDrain
  simpa using State.markDrain_mark (.inr hi)

/-- REP_CTRL is none of the select registers and entries of the ADMIT page, and DRAIN written as 1 starts the drain. -/
theorem State.wrAdmit_drain (s : State) (r : Requester) (h : Nat) : s.wrAdmit r h Reg.repCtrl 1 = s.startDrain h := rfl

/-- REP_CTRL is one word in the body of the ADMIT page: a write of it is the page's own. -/
theorem State.writeAt_drain (s : State) (r : Requester) (h : Half) :
    s.writeAt r (pgAdmit h.val) Reg.repCtrl 1 = s.startDrain h.val := by
  have hhigh : isHigh (pgAdmit h.val) Reg.repCtrl = false := by revert h; decide
  have hwide : isWide (pgAdmit h.val) Reg.repCtrl = false := by revert h; decide
  have hblk : pageBlk (pgAdmit h.val) = some .admission := by revert h; decide
  have hhalf : pageHalf (pgAdmit h.val) = some h := by revert h; decide
  have hbody : ¬ Reg.repCtrl < 0x20 := by decide
  simp only [State.writeAt, hhigh, hwide, Bool.false_eq_true, if_false, State.writeReg, if_neg hbody, State.writeBlock, hblk, hhalf]
  exact State.wrAdmit_drain s r h.val

theorem State.strictEnd_frame (s old : State) (r : Requester) (i : Nat) : (s.strictEnd old r).frame i = s.frame i := by
  obtain ⟨f, hf⟩ := State.strictEnd_bus s old r
  rw [hf]
  rfl

/-- What a frame is after the host's write of DRAIN. -/
theorem State.hostWrite_drain_frame {s : State} {h : Half} (hw : s.WritesNow .host (pgAdmit h.val) Reg.repCtrl) (i : Nat) :
    (s.hostWrite (pgAdmit h.val) Reg.repCtrl 1).frame i = (s.startDrain h.val).frame i := by
  unfold State.hostWrite
  rw [State.regWrite_now 1 (by decide) hw, State.strictEnd_frame, State.writeAt_drain]

/-! ### The obligation -/

/-- Settles O41, one lemma for each of the four commands. -/
theorem replicationCommandsComplete : Obligations.ReplicationCommandsComplete := by
  unfold Obligations.ReplicationCommandsComplete
  intro s hlive
  refine ⟨?frame, ?rest, ?replicate, ?drain⟩
  case frame =>
    intro h ch x hup hhold hx hseq _
    have hpath := State.flumeTake_expected hup hx hseq
    refine ⟨_, State.run_live _ hlive, ?_, ?_, ?_⟩ <;> simp [hhold, hpath]
  case rest =>
    intro h i htail hhalf hsrc hget hbad
    exact ⟨_, State.run_live (·.flumeRest h.val i) hlive, State.flumeRest_bad htail hhalf hsrc hget hbad⟩
  case replicate =>
    intro h i is e q hup hrepl hbad hring hn he hv hq hflood hport hqueue
    have hone := State.replicate_one hrepl hbad hring rfl hn he hv
    have hjoin := State.makeCopy_queue (s := s.setPath h.val { s.pathOf h.val with repl := is }) hq hflood hport hqueue
    refine ⟨_, State.run_live _ hlive, ?_, ?_⟩
    · simp [hup, hone]
    · simpa [hup, hone] using hjoin
  case drain =>
    intro h hw
    refine ⟨_, State.run_live (·.hostWrite (pgAdmit h.val) Reg.repCtrl 1) hlive, fun i hi => ?_⟩
    rw [State.keepQueue_frame, State.hostWrite_drain_frame hw]
    exact State.startDrain_mark hi

end Sys2Proof.Machine
end

section
/-! SUPPORT AND PROOF. The invariant of the whole machine (07_rings.md R214; 16_forester_security.md R445): power-on meets
it, and time and every command keep it. -/

namespace Sys2Proof.Machine

/-! ### What a step is -/

/-- The queue of waiting commands is no part of the invariant. -/
theorem State.Inv.pending {s : State} (h : s.Inv) (l : List Instr) : ({ s with pending := l } : State).Inv :=
  ⟨h.maps, h.ring, h.next⟩

/-- A step is the tick of an empty queue, or the front command with the rest of the queue waiting. -/
theorem step_next_cases {s t : State} (h : step s = .next t) :
    (s.pending = [] ∧ t = s.tick) ∨
    ∃ c rest, s.pending = c :: rest ∧ exec c { s with pending := rest } = .next t := by
  unfold step at h
  cases hp : s.pending with
  | nil =>
    rw [hp] at h
    exact .inl ⟨rfl, (Host.Outcome.next.inj h).symm⟩
  | cons c rest =>
    rw [hp] at h
    exact .inr ⟨c, rest, rfl, h⟩

/-! ### Every command keeps the invariant, and all that cannot be undone -/

/-- Each command has its own lemma; this is the one over all of them. -/
theorem exec_kept {k s t : State} {c : Instr} (ht : exec c s = .next t) (hs : k.Kept s) : k.Kept t := by
  cases c with
  | registerWrite => exact execRegisterWrite_kept ht hs
  | counterLowRead => exact execCounterLowRead_kept ht hs
  | counterHighWrite => exact execCounterHighWrite_kept ht hs
  | counterLowWrite => exact execCounterLowWrite_kept ht hs
  | pgEvtClear => exact execPgEvtClear_kept ht hs
  | pgLock => exact execPgLock_kept ht hs
  | blkRst => exact execBlkRst_kept ht hs
  | blockResetDone => exact execBlockResetDone_kept ht hs
  | postedWritePerformed => exact execPostedWritePerformed_kept ht hs
  | winRead => exact execWinRead_kept ht hs
  | winWrite => exact execWinWrite_kept ht hs
  | winBadOp => exact execWinBadOp_kept ht hs
  | winCmdDone => exact execWinCmdDone_kept ht hs
  | fence => exact execFence_kept ht hs
  | fenceDone => exact execFenceDone_kept ht hs
  | pllRateApply => exact execPllRateApply_kept ht hs
  | pllLock => exact execPllLock_kept ht hs
  | pllUnlock => exact execPllUnlock_kept ht hs
  | portEnable => exact execPortEnable_kept ht hs
  | portDisable => exact execPortDisable_kept ht hs
  | pwrActive => exact execPwrActive_kept ht hs
  | pwrStandby => exact execPwrStandby_kept ht hs
  | pwrDormant => exact execPwrDormant_kept ht hs
  | signalAndCdrLock => exact execSignalAndCdrLock_kept ht hs
  | lossOfSignal => exact execLossOfSignal_kept ht hs
  | cdrUnlock => exact execCdrUnlock_kept ht hs
  | adaptConverged => exact execAdaptConverged_kept ht hs
  | linkUp => exact execLinkUp_kept ht hs
  | remoteFault => exact execRemoteFault_kept ht hs
  | fecDegrWindow => exact execFecDegrWindow_kept ht hs
  | recalLive => exact execRecalLive_kept ht hs
  | recalLiveDone => exact execRecalLiveDone_kept ht hs
  | recalFull => exact execRecalFull_kept ht hs
  | portReset => exact execPortReset_kept ht hs
  | rxFrame => exact execRxFrame_kept ht hs
  | tailArrival => exact execTailArrival_kept ht hs
  | spanFrameRx => exact execSpanFrameRx_kept ht hs
  | spanFrameTx => exact execSpanFrameTx_kept ht hs
  | spanPacketRx => exact execSpanPacketRx_kept ht hs
  | defectTimer => exact execDefectTimer_kept ht hs
  | injBip => exact execInjBip_kept ht hs
  | pmSecond => exact execPmSecond_kept ht hs
  | bin15 => exact execBin15_kept ht hs
  | day => exact execDay_kept ht hs
  | pmHistoryCopy => exact execPmHistoryCopy_kept ht hs
  | ohspFrame => exact execOhspFrame_kept ht hs
  | parse => exact execParse_kept ht hs
  | swap => exact execSwap_kept ht hs
  | swapped => exact execSwapped_kept ht hs
  | microwordExec => exact execMicrowordExec_kept ht hs
  | deparse => exact execDeparse_kept ht hs
  | boostOn => exact execBoostOn_kept ht hs
  | boostOff => exact execBoostOff_kept ht hs
  | learnRequest => exact execLearnRequest_kept ht hs
  | eastCopyApply => exact execEastCopyApply_kept ht hs
  | agingVisit => exact execAgingVisit_kept ht hs
  | hitNotice => exact execHitNotice_kept ht hs
  | emInsert => exact execEmInsert_kept ht hs
  | emUpdate => exact execEmUpdate_kept ht hs
  | emUpsert => exact execEmUpsert_kept ht hs
  | emDelete => exact execEmDelete_kept ht hs
  | emRead => exact execEmRead_kept ht hs
  | lpmInsert => exact execLpmInsert_kept ht hs
  | lpmDelete => exact execLpmDelete_kept ht hs
  | lpmRead => exact execLpmRead_kept ht hs
  | tcamWrite => exact execTcamWrite_kept ht hs
  | tcamDelete => exact execTcamDelete_kept ht hs
  | bulkMove => exact execBulkMove_kept ht hs
  | bulkFlush => exact execBulkFlush_kept ht hs
  | tableNop => exact execTableNop_kept ht hs
  | stashDrain => exact execStashDrain_kept ht hs
  | reclaim => exact execReclaim_kept ht hs
  | lpmCompaction => exact execLpmCompaction_kept ht hs
  | wlMigrate => exact execWlMigrate_kept ht hs
  | bankMigration => exact execBankMigration_kept ht hs
  | resume => exact execResume_kept ht hs
  | abandon => exact execAbandon_kept ht hs
  | woodlotEccError => exact execWoodlotEccError_kept ht hs
  | tcamParityScan => exact execTcamParityScan_kept ht hs
  | commit => exact execCommit_kept ht hs
  | cancel => exact execCancel_kept ht hs
  | commitReady => exact execCommitReady_kept ht hs
  | commitTakeEffect => exact execCommitTakeEffect_kept ht hs
  | inflightSample => exact execInflightSample_kept ht hs
  | ringExpire => exact execRingExpire_kept ht hs
  | expiryScan => exact execExpiryScan_kept ht hs
  | ringMaxage => exact execRingMaxage_kept ht hs
  | admission => exact execAdmission_kept ht hs
  | cellAlloc => exact execCellAlloc_kept ht hs
  | cellFree => exact execCellFree_kept ht hs
  | refill => exact execRefill_kept ht hs
  | bufferStall => exact execBufferStall_kept ht hs
  | poolAlloc => exact execPoolAlloc_kept ht hs
  | poolFree => exact execPoolFree_kept ht hs
  | deckEccError => exact execDeckEccError_kept ht hs
  | listRebuild => exact execListRebuild_kept ht hs
  | deckInitDone => exact execDeckInitDone_kept ht hs
  | pfcFrameTx => exact execPfcFrameTx_kept ht hs
  | pfcRefresh => exact execPfcRefresh_kept ht hs
  | pauseExpire => exact execPauseExpire_kept ht hs
  | flumeReceive => exact execFlumeReceive_kept ht hs
  | replicate => exact execReplicate_kept ht hs
  | drain => exact execDrain_kept ht hs
  | schedule => exact execSchedule_kept ht hs
  | macStart => exact execMacStart_kept ht hs
  | txLastByte => exact execTxLastByte_kept ht hs
  | linkHoldExpire => exact execLinkHoldExpire_kept ht hs
  | linkFlushDone => exact execLinkFlushDone_kept ht hs
  | set => exact execSet_kept ht hs
  | step => exact execStep_kept ht hs
  | ppsOut => exact execPpsOut_kept ht hs
  | ppsIn => exact execPpsIn_kept ht hs
  | refLoss => exact execRefLoss_kept ht hs
  | clrMx => exact execClrMx_kept ht hs
  | clrHist => exact execClrHist_kept ht hs
  | clrDrop => exact execClrDrop_kept ht hs
  | clrDone => exact execClrDone_kept ht hs
  | tallyEviction => exact execTallyEviction_kept ht hs
  | cacheWriteback => exact execCacheWriteback_kept ht hs
  | scanVisit => exact execScanVisit_kept ht hs
  | overflowExport => exact execOverflowExport_kept ht hs
  | flush => exact execFlush_kept ht hs
  | exportAll => exact execExportAll_kept ht hs
  | clear => exact execClear_kept ht hs
  | clearDone => exact execClearDone_kept ht hs
  | ipfixMessage => exact execIpfixMessage_kept ht hs
  | retrain => exact execRetrain_kept ht hs
  | retrainDone => exact execRetrainDone_kept ht hs
  | hbmLost => exact execHbmLost_kept ht hs
  | raftEnable => exact execRaftEnable_kept ht hs
  | raftCfgSync => exact execRaftCfgSync_kept ht hs
  | helloTx => exact execHelloTx_kept ht hs
  | extraHello => exact execExtraHello_kept ht hs
  | helloRx => exact execHelloRx_kept ht hs
  | neighbourDead => exact execNeighbourDead_kept ht hs
  | ewRecompute => exact execEwRecompute_kept ht hs
  | peerHoldLapse => exact execPeerHoldLapse_kept ht hs
  | doorbell => exact execDoorbell_kept ht hs
  | queueEnable => exact execQueueEnable_kept ht hs
  | queueDisable => exact execQueueDisable_kept ht hs
  | queueDrained => exact execQueueDrained_kept ht hs
  | descriptorFetch => exact execDescriptorFetch_kept ht hs
  | descriptorComplete => exact execDescriptorComplete_kept ht hs
  | dmaReadError => exact execDmaReadError_kept ht hs
  | puntDeliver => exact execPuntDeliver_kept ht hs
  | pipe => exact execPipe_kept ht hs
  | direct => exact execDirect_kept ht hs
  | poolWrite => exact execPoolWrite_kept ht hs
  | exportBufferTimeout => exact execExportBufferTimeout_kept ht hs
  | irqHoldoff => exact execIrqHoldoff_kept ht hs
  | flr => exact execFlr_kept ht hs
  | hotReset => exact execHotReset_kept ht hs
  | pcieLinkDown => exact execPcieLinkDown_kept ht hs
  | perstN => exact execPerstN_kept ht hs
  | busMasterEnable => exact execBusMasterEnable_kept ht hs
  | poisonedWrite => exact execPoisonedWrite_kept ht hs
  | snap => exact execSnap_kept ht hs
  | stop => exact execStop_kept ht hs
  | snapshotCapture => exact execSnapshotCapture_kept ht hs
  | snapshotPartDone => exact execSnapshotPartDone_kept ht hs
  | snapshotTransferDone => exact execSnapshotTransferDone_kept ht hs
  | bwWindowEnd => exact execBwWindowEnd_kept ht hs
  | pkClr => exact execPkClr_kept ht hs
  | winLengthWrite => exact execWinLengthWrite_kept ht hs
  | lookoutMessage => exact execLookoutMessage_kept ht hs
  | levelRiseWithoutMessage => exact execLevelRiseWithoutMessage_kept ht hs
  | loClr => exact execLoClr_kept ht hs
  | loPinRel => exact execLoPinRel_kept ht hs
  | faultPulseEnd => exact execFaultPulseEnd_kept ht hs
  | trapDeliver => exact execTrapDeliver_kept ht hs
  | fatalWr => exact execFatalWr_kept ht hs
  | powerSample => exact execPowerSample_kept ht hs
  | capEvaluate => exact execCapEvaluate_kept ht hs
  | fbCalUpdate => exact execFbCalUpdate_kept ht hs
  | calStale => exact execCalStale_kept ht hs
  | deferralLimit => exact execDeferralLimit_kept ht hs
  | fixed => exact execFixed_kept ht hs
  | droopOnset => exact execDroopOnset_kept ht hs
  | tempSample => exact execTempSample_kept ht hs
  | thermalStep => exact execThermalStep_kept ht hs
  | thermalTrip h => exact execThermalTrip_kept (_h := h) ht hs
  | supplyWarning => exact execSupplyWarning_kept ht hs
  | supplyRecovery => exact execSupplyRecovery_kept ht hs
  | uvRelease => exact execUvRelease_kept ht hs
  | resetDip b => exact execResetDip_kept (_sram := b) ht hs
  | hint => exact execHint_kept ht hs
  | hintAck => exact execHintAck_kept ht hs
  | hintWindowEnd => exact execHintWindowEnd_kept ht hs
  | pmbusErr => exact execPmbusErr_kept ht hs
  | alertN => exact execAlertN_kept ht hs
  | headClaim => exact execHeadClaim_kept ht hs
  | leaseRenew => exact execLeaseRenew_kept ht hs
  | leaseExpire => exact execLeaseExpire_kept ht hs
  | lockstepMismatch => exact execLockstepMismatch_kept ht hs
  | clusterBootDone => exact execClusterBootDone_kept ht hs
  | info => exact execInfo_kept ht hs
  | sensors => exact execSensors_kept ht hs
  | logRead => exact execLogRead_kept ht hs
  | fatalRead => exact execFatalRead_kept ht hs
  | trapRead => exact execTrapRead_kept ht hs
  | pmRead => exact execPmRead_kept ht hs
  | chRead => exact execChRead_kept ht hs
  | chWrite => exact execChWrite_kept ht hs
  | imgStage => exact execImgStage_kept ht hs
  | imgApply => exact execImgApply_kept ht hs
  | restart => exact execRestart_kept ht hs
  | handover => exact execHandover_kept ht hs
  | cfgSave => exact execCfgSave_kept ht hs
  | attest => exact execAttest_kept ht hs
  | ident => exact execIdent_kept ht hs
  | measExtend => exact execMeasExtend_kept ht hs
  | lcAdvance => exact execLcAdvance_kept ht hs
  | svnAdvance => exact execSvnAdvance_kept ht hs
  | keyProgram => exact execKeyProgram_kept ht hs
  | mailboxComplete => exact execMailboxComplete_kept ht hs
  | noHead => exact execNoHead_kept ht hs
  | mcClearLock => exact execMcClearLock_kept ht hs
  | debugLock => exact execDebugLock_kept ht hs
  | lcFuseWrite => exact execLcFuseWrite_kept ht hs
  | wipeDone => exact execWipeDone_kept ht hs
  | porstN => exact execPorstN_kept ht hs
  | chiprstN => exact execChiprstN_kept ht hs
  | rstChip => exact execRstChip_kept ht hs
  | rstHalf => exact execRstHalf_kept ht hs
  | halfDone => exact execHalfDone_kept ht hs
  | rstSlice => exact execRstSlice_kept ht hs
  | sliceDone => exact execSliceDone_kept ht hs
  | startUpWipeDone => exact execStartUpWipeDone_kept ht hs
  | restore => exact execRestore_kept ht hs
  | restored => exact execRestored_kept ht hs
  | recoveryImage => exact execRecoveryImage_kept ht hs
  | flumeChannelDown => exact execFlumeChannelDown_kept ht hs
  | flumeChannelUp => exact execFlumeChannelUp_kept ht hs
  | localFault => exact execLocalFault_kept ht hs
  | pcieLinkUp => exact execPcieLinkUp_kept ht hs
  | vddAonReset => exact execVddAonReset_kept ht hs

/-! ### The obligations -/

/-- Settles O4: the maps of the machine after power-on are empty, ring 0 alone is CURRENT, and no life-cycle change waits. -/
theorem resetInvariant : Obligations.ResetInvariant :=
  ⟨⟨rfl, rfl⟩, State.reset_ring, fun _ hx => nomatch hx⟩

/-- Settles O6, from the stronger State.Kept, which a nanosecond of time and every command keep. -/
theorem everyStepKeepsInvariant : Obligations.EveryStepKeepsInvariant := by
  intro s t hs ht
  obtain ⟨-, rfl⟩ | ⟨c, rest, -, hc⟩ := step_next_cases ht
  · exact (State.tick_kept s (State.Kept.refl hs)).inv
  · exact (exec_kept hc (State.Kept.refl (hs.pending rest))).inv

end Sys2Proof.Machine
end

section
/-! SUPPORT AND PROOF. What the commands of RING and DECK leave as it was (07_rings.md R214 to R236, 08_deck_admission.md R240
to R259): the masks of State.Same as record updates, and writes that take effect at once. -/

namespace Sys2Proof.Machine

/-! ### Frames as record updates -/

/-- The state k with the fields that the mask m names as they are in s. -/
def State.graft (m : Nat) (k s : State) : State where
  pending := k.pending
  clk := bif m.testBit 1 then s.clk else k.clk
  freeCtr := bif m.testBit 2 then s.freeCtr else k.freeCtr
  out := bif m.testBit 3 then s.out else k.out
  regs := bif m.testBit 4 then s.regs else k.regs
  selRegs := bif m.testBit 5 then s.selRegs else k.selRegs
  mem := bif m.testBit 6 then s.mem else k.mem
  bus := bif m.testBit 7 then s.bus else k.bus
  flumeUp := bif m.testBit 8 then s.flumeUp else k.flumeUp
  lanes := bif m.testBit 9 then s.lanes else k.lanes
  macros := bif m.testBit 10 then s.macros else k.macros
  ports := bif m.testBit 11 then s.ports else k.ports
  spans := bif m.testBit 12 then s.spans else k.spans
  frames := bif m.testBit 13 then s.frames else k.frames
  nextFrame := bif m.testBit 14 then s.nextFrame else k.nextFrame
  slices := bif m.testBit 15 then s.slices else k.slices
  mcast := bif m.testBit 16 then s.mcast else k.mcast
  rings := bif m.testBit 17 then s.rings else k.rings
  inflight := bif m.testBit 18 then s.inflight else k.inflight
  deck := bif m.testBit 19 then s.deck else k.deck
  path := bif m.testBit 20 then s.path else k.path
  queues := bif m.testBit 21 then s.queues else k.queues
  deficit := bif m.testBit 22 then s.deficit else k.deficit
  qbucket := bif m.testBit 23 then s.qbucket else k.qbucket
  sched := bif m.testBit 24 then s.sched else k.sched
  pfcTx := bif m.testBit 25 then s.pfcTx else k.pfcTx
  meters := bif m.testBit 26 then s.meters else k.meters
  late := bif m.testBit 27 then s.late else k.late
  unsettled := bif m.testBit 28 then s.unsettled else k.unsettled
  wood := bif m.testBit 29 then s.wood else k.wood
  eastq := bif m.testBit 30 then s.eastq else k.eastq
  hitq := bif m.testBit 31 then s.hitq else k.hitq
  matrix := bif m.testBit 32 then s.matrix else k.matrix
  tally := bif m.testBit 33 then s.tally else k.tally
  hbm := bif m.testBit 34 then s.hbm else k.hbm
  host := bif m.testBit 35 then s.host else k.host
  cruiser := bif m.testBit 36 then s.cruiser else k.cruiser
  fire := bif m.testBit 37 then s.fire else k.fire
  raft := bif m.testBit 38 then s.raft else k.raft
  lookout := bif m.testBit 39 then s.lookout else k.lookout
  forester := bif m.testBit 40 then s.forester else k.forester
  mram := bif m.testBit 41 then s.mram else k.mram
  fuses := bif m.testBit 42 then s.fuses else k.fuses
  ppsHigh := bif m.testBit 43 then s.ppsHigh else k.ppsHigh
  rst := bif m.testBit 44 then s.rst else k.rst

theorem cond_eq_left {α : Type} {b : Bool} {x y : α} (h : b = false → x = y) : (bif b then x else y) = x := by
  cases b with
  | false => exact (h rfl).symm
  | true => rfl

/-- A state that is k but in the fields of a mask is k with those fields put in. -/
theorem State.Same.eq_graft {m : Nat} {k s : State} (h : State.Same m k s) : s = State.graft m k s := by
  simp only [State.graft, ← h.pending, cond_eq_left h.clk, cond_eq_left h.freeCtr, cond_eq_left h.out, cond_eq_left
    h.regs, cond_eq_left h.selRegs, cond_eq_left h.mem, cond_eq_left h.bus, cond_eq_left h.flumeUp, cond_eq_left
    h.lanes, cond_eq_left h.macros, cond_eq_left h.ports, cond_eq_left h.spans, cond_eq_left h.frames, cond_eq_left
    h.nextFrame, cond_eq_left h.slices, cond_eq_left h.mcast, cond_eq_left h.rings, cond_eq_left h.inflight,
    cond_eq_left h.deck, cond_eq_left h.path, cond_eq_left h.queues, cond_eq_left h.deficit, cond_eq_left h.qbucket,
    cond_eq_left h.sched, cond_eq_left h.pfcTx, cond_eq_left h.meters, cond_eq_left h.late, cond_eq_left h.unsettled,
    cond_eq_left h.wood, cond_eq_left h.eastq, cond_eq_left h.hitq, cond_eq_left h.matrix, cond_eq_left h.tally,
    cond_eq_left h.hbm, cond_eq_left h.host, cond_eq_left h.cruiser, cond_eq_left h.fire, cond_eq_left h.raft,
    cond_eq_left h.lookout, cond_eq_left h.forester, cond_eq_left h.mram, cond_eq_left h.fuses, cond_eq_left h.ppsHigh,
    cond_eq_left h.rst]

/-! ### A write of one register that takes effect at once -/

/-- A meaning changes no more than its function does to the state it runs in. -/
theorem State.Same.run_one {m : Nat} {s t : State} {f : State → State} (ht : s.run f = .next t) (hf : State.Same m s (f s)) :
    State.Same m s t :=
  State.Same.run (f := fun _ => f s) (fun _ _ => hf) (State.Same.refl m s) ht

/-- The end of a write under STRICT changes the bus alone. -/
theorem State.strictEnd_same {m : Nat} {k : State} (hm : State.Sub 0x80 m) (s old : State) (r : Requester)
    (hs : State.Same m k s) : State.Same m k (s.strictEnd old r) := by
  unfold State.strictEnd
  split
  · exact State.startFence_same hm s r hs
  · exact hs

/-- A write that takes effect at once changes the bus and what its page's own effect changes. -/
theorem State.regWrite_now_same {m : Nat} (hm : State.Sub 0x80 m) {s : State} {r : Requester} {p o : Nat} {v : Word}
    (ho : o < 0x10000) (hw : s.WritesNow r p o) (hs : State.Same m s (s.writeAt r p o v)) :
    State.Same m s (s.regWrite r p o v) := by
  rw [State.regWrite_now v ho hw]
  exact State.strictEnd_same hm _ s r hs

/-- A register of a page's body that is one word: a write of it is its block's own. -/
theorem State.writeAt_body (s : State) (r : Requester) {p o : Nat} (v : Word) (ho : 0x20 ≤ o) (hhigh : isHigh p o = false)
    (hwide : isWide p o = false) : s.writeAt r p o v = s.writeBlock r p o v := by
  simp only [State.writeAt, hhigh, hwide, Bool.false_eq_true, if_false, State.writeReg, if_neg (Nat.not_lt.2 ho)]

theorem State.writeBlock_ring (s : State) (r : Requester) (o : Nat) (v : Word) :
    s.writeBlock r pgRing o v = s.wrRing r o v := rfl

theorem State.writeAt_ringCtrl (s : State) (r : Requester) (v : Word) :
    s.writeAt r pgRing Reg.ringCtrl v = s.ringCtrlWrite r v := by
  rw [State.writeAt_body s r v (by decide) (by decide) (by decide), State.writeBlock_ring, State.wrRing, if_pos rfl]

theorem State.writeAt_ringMaxage (s : State) (r : Requester) (v : Word) :
    s.writeAt r pgRing Reg.ringMaxage v = s.maxAgeWrite v := by
  rw [State.writeAt_body s r v (by decide) (by decide) (by decide), State.writeBlock_ring, State.wrRing,
    if_neg (by decide), if_pos rfl]

theorem State.writeBlock_deck (s : State) (r : Requester) (h : Half) (o : Nat) (v : Word) :
    s.writeBlock r (pgDeck h.val) o v = s.wrDeck r h.val o v := by
  have hblk : pageBlk (pgDeck h.val) = some .deck := by revert h; decide
  have hhalf : pageHalf (pgDeck h.val) = some h := by revert h; decide
  simp only [State.writeBlock, hblk, hhalf]

/-- A write of DK_POOL_ALLOC of pool n (R248). -/
theorem State.writeAt_poolAlloc (s : State) (r : Requester) (h : Half) (n : Fin 8) (v : Word) :
    s.writeAt r (pgDeck h.val) (0x208 + 0x20 * n.val) v = s.poolAlloc r h.val n.val := by
  rw [State.writeAt_body s r v (by omega) (by revert h n; decide) (by revert h n; decide), State.writeBlock_deck]
  have hin : 0x200 ≤ 0x208 + 0x20 * n.val ∧ 0x208 + 0x20 * n.val < 0x300 := by omega
  have hpool : (0x208 + 0x20 * n.val - 0x200) / 0x20 = n.val := by omega
  have hoff : (0x208 + 0x20 * n.val) % 0x20 = 0x08 := by omega
  simp only [State.wrDeck, if_pos hin, hpool, hoff, if_true]

/-- A write of DK_POOL_FREE of pool n (R248). -/
theorem State.writeAt_poolFree (s : State) (r : Requester) (h : Half) (n : Fin 8) (v : Word) :
    s.writeAt r (pgDeck h.val) (0x20C + 0x20 * n.val) v = s.freeCell h.val 20 (fld v 0 20) (0x8000 + n.val) := by
  rw [State.writeAt_body s r v (by omega) (by revert h n; decide) (by revert h n; decide), State.writeBlock_deck]
  have hin : 0x200 ≤ 0x20C + 0x20 * n.val ∧ 0x20C + 0x20 * n.val < 0x300 := by omega
  have hpool : (0x20C + 0x20 * n.val - 0x200) / 0x20 = n.val := by omega
  have hoff : (0x20C + 0x20 * n.val) % 0x20 = 0x0C := by omega
  have hne : ¬ (0x0C = 0x08) := by decide
  simp only [State.wrDeck, if_pos hin, hpool, hoff, if_neg hne, if_true]

/-- The free of a pool cell enters no list, so that no level and no XOFF follows it (R248). -/
theorem State.freePoolCell_same {m : Nat} {k : State} (hm : State.Sub 0x8000080010 m) (s : State) (h rq cell : Nat) (n : Fin 8)
    (hs : State.Same m k s) : State.Same m k (s.freeCell h rq cell (0x8000 + n.val)) := by
  have hpool : 0x8000 ≤ 0x8000 + n.val ∧ 0x8000 + n.val < 0x8008 := by omega
  simp only [State.freeCell, if_pos hpool]
  split
  · exact State.setDeck_same (.of rfl hm) _ _ _ hs
  · exact State.badFree_same (.of rfl hm) _ _ _ _ _ _ hs

/-- CANCEL written as 1 reports nothing. -/
theorem State.ringCtrlWrite_cancel_same {m : Nat} {k : State} (hm : State.Sub 0x20010 m) (s : State) (r : Requester) {v : Word}
    (hv : bit v 2 = true) (hs : State.Same m k s) : State.Same m k (s.ringCtrlWrite r v) := by
  simp only [State.ringCtrlWrite, hv, if_true]
  exact State.cancelReq_same (.of rfl hm) _ (State.setRf_same (.of rfl hm) _ _ _ _ _ _ hs)

/-- The word that CANCEL writes has CANCEL set, whatever AT is. -/
theorem State.cancelWord_bit (s : State) : bit (put 4 1 1 (s.rf pgRing Reg.ringCtrl 1 1)) 2 = true := by
  have hx : s.rf pgRing Reg.ringCtrl 1 1 < 2 := Nat.mod_lt _ (by decide)
  generalize s.rf pgRing Reg.ringCtrl 1 1 = x at hx
  revert x; decide

/-! ### The obligation -/

/-- Settles O21, from what each command of RING and DECK leaves as it was (State.Same). -/
theorem ringAndDeckFrame : Obligations.RingAndDeckFrame := by
  unfold Obligations.RingAndDeckFrame
  refine ⟨?ready, ?takeEffect, ?sample, ?expire, ?scan, ?admission, ?alloc, ?free, ?refill, ?stall,
    ?ecc, ?rebuild, ?initDone, ?pfcTx, ?pfcRefresh, ?pauseExpire, ?commit, ?cancel, ?maxAge, ?poolAlloc, ?poolFree⟩
  case ready => exact fun s t ht => (execCommitReady_same (.refl _) ht (.refl _ s)).eq_graft
  case takeEffect => exact fun s t ht => (execCommitTakeEffect_same (.refl _) ht (.refl _ s)).eq_graft
  case sample => exact fun s t ht => (execInflightSample_same (.refl _) ht (.refl _ s)).eq_graft
  case expire => exact fun _ s t ht => (execRingExpire_same (.refl _) ht (.refl _ s)).eq_graft
  case scan =>
    intro _ s t ht
    have hs := execExpiryScan_same (.refl _) ht (.refl _ s)
    exact ⟨hs.clk rfl, hs.freeCtr rfl, hs.out rfl, hs.selRegs rfl, hs.mem rfl, hs.bus rfl, hs.flumeUp rfl, hs.lanes rfl,
      hs.macros rfl, hs.ports rfl, hs.spans rfl, hs.nextFrame rfl, hs.slices rfl, hs.rings rfl, hs.qbucket rfl,
      hs.meters rfl, hs.late rfl, hs.wood rfl, hs.eastq rfl, hs.hitq rfl, hs.hbm rfl, hs.cruiser rfl, hs.fire rfl,
      hs.raft rfl, hs.forester rfl, hs.mram rfl, hs.fuses rfl, hs.ppsHigh rfl, hs.rst rfl⟩
  case admission =>
    intro _ s t ht
    have hs := execAdmission_same (.refl _) ht (.refl _ s)
    exact ⟨hs.clk rfl, hs.freeCtr rfl, hs.out rfl, hs.selRegs rfl, hs.mem rfl, hs.bus rfl, hs.flumeUp rfl, hs.lanes rfl,
      hs.macros rfl, hs.ports rfl, hs.spans rfl, hs.nextFrame rfl, hs.slices rfl, hs.rings rfl, hs.qbucket rfl,
      hs.meters rfl, hs.late rfl, hs.wood rfl, hs.eastq rfl, hs.hitq rfl, hs.hbm rfl, hs.cruiser rfl, hs.fire rfl,
      hs.raft rfl, hs.forester rfl, hs.mram rfl, hs.fuses rfl, hs.ppsHigh rfl, hs.rst rfl⟩
  case alloc => exact fun _ _ s t ht => (execCellAlloc_same (.refl _) ht (.refl _ s)).eq_graft
  case free => exact fun _ _ _ _ s t ht => (execCellFree_same (.refl _) ht (.refl _ s)).eq_graft
  case refill => exact fun _ _ s t ht => (execRefill_same (.refl _) ht (.refl _ s)).eq_graft
  case stall =>
    intro _ _ s t ht
    have hs := execBufferStall_same (.refl _) ht (.refl _ s)
    exact ⟨hs.clk rfl, hs.freeCtr rfl, hs.out rfl, hs.selRegs rfl, hs.mem rfl, hs.bus rfl, hs.flumeUp rfl, hs.lanes rfl,
      hs.macros rfl, hs.ports rfl, hs.spans rfl, hs.nextFrame rfl, hs.rings rfl, hs.qbucket rfl, hs.meters rfl,
      hs.late rfl, hs.wood rfl, hs.eastq rfl, hs.hitq rfl, hs.hbm rfl, hs.cruiser rfl, hs.fire rfl, hs.raft rfl,
      hs.forester rfl, hs.mram rfl, hs.fuses rfl, hs.ppsHigh rfl, hs.rst rfl⟩
  case ecc => exact fun _ _ s t ht => (execDeckEccError_same (.refl _) ht (.refl _ s)).eq_graft
  case rebuild => exact fun _ _ s t ht => (execListRebuild_same (.refl _) ht (.refl _ s)).eq_graft
  case initDone => exact fun _ s t ht => (execDeckInitDone_same (.refl _) ht (.refl _ s)).eq_graft
  case pfcTx =>
    intro _ s t ht
    have hs := execPfcFrameTx_same (.refl _) ht (.refl _ s)
    exact ⟨hs.clk rfl, hs.freeCtr rfl, hs.selRegs rfl, hs.mem rfl, hs.bus rfl, hs.flumeUp rfl, hs.lanes rfl, hs.macros rfl,
      hs.spans rfl, hs.mcast rfl, hs.rings rfl, hs.inflight rfl, hs.deck rfl, hs.path rfl, hs.queues rfl, hs.deficit rfl,
      hs.qbucket rfl, hs.meters rfl, hs.late rfl, hs.unsettled rfl, hs.wood rfl, hs.eastq rfl, hs.hitq rfl, hs.tally rfl,
      hs.hbm rfl, hs.host rfl, hs.fire rfl, hs.raft rfl, hs.forester rfl, hs.mram rfl, hs.fuses rfl, hs.ppsHigh rfl,
      hs.rst rfl⟩
  case pfcRefresh => exact fun _ s t ht => (execPfcRefresh_same (.refl _) ht (.refl _ s)).eq_graft
  case pauseExpire => exact fun _ _ s t ht => (execPauseExpire_same (.refl _) ht (.refl _ s)).eq_graft
  case commit =>
    intro req at_ s t hw ht
    refine (State.Same.run_one (m := 0x8000020090) ht (State.regWrite_now_same (.of rfl (.refl _)) (by decide) hw ?_)).eq_graft
    rw [State.writeAt_ringCtrl]
    exact State.ringCtrlWrite_same (.refl _) _ _ _ (.refl _ s)
  case cancel =>
    intro req s t hw ht
    refine (State.Same.run_one (m := 0x20090) ht (State.regWrite_now_same (.of rfl (.refl _)) (by decide) hw ?_)).eq_graft
    rw [State.writeAt_ringCtrl]
    exact State.ringCtrlWrite_cancel_same (.of rfl (.refl _)) _ _ s.cancelWord_bit (.refl _ s)
  case maxAge =>
    intro req v s t hw ht
    refine (State.Same.run_one (m := 0x8000020090) ht (State.regWrite_now_same (.of rfl (.refl _)) (by decide) hw ?_)).eq_graft
    rw [State.writeAt_ringMaxage]
    exact State.maxAgeWrite_same (.of rfl (.refl _)) _ _ (.refl _ s)
  case poolAlloc =>
    intro req h n s t hw ht
    refine (State.Same.run_one (m := 0x8000080090) ht (State.regWrite_now_same (.of rfl (.refl _)) (by omega) hw ?_)).eq_graft
    rw [State.writeAt_poolAlloc]
    exact State.poolAlloc_same (.of rfl (.refl _)) _ _ _ _ (.refl _ s)
  case poolFree =>
    intro req h n cell s t hw ht
    refine (State.Same.run_one (m := 0x8000080090) ht (State.regWrite_now_same (.of rfl (.refl _)) (by omega) hw ?_)).eq_graft
    rw [State.writeAt_poolFree]
    exact State.freePoolCell_same (.of rfl (.refl _)) _ _ _ _ _ (.refl _ s)

end Sys2Proof.Machine
end

section
/-! SUPPORT AND PROOF. What the commands of RING do when their conditions hold (07_rings.md R223 to R234): commits, samples,
expiry and its scan. -/

namespace Sys2Proof.Machine

/-! ### Writes of RING_CTRL and RING_MAXAGE (R223, R229, R233) -/

@[simp] theorem State.strictEnd_rings (s old : State) (r : Requester) : (s.strictEnd old r).rings = s.rings := by
  obtain ⟨f, hf⟩ := State.strictEnd_bus s old r
  rw [hf]

@[simp] theorem State.strictEnd_reg (s old : State) (r : Requester) (p o : Nat) :
    (s.strictEnd old r).reg p o = s.reg p o := by
  obtain ⟨f, hf⟩ := State.strictEnd_bus s old r
  rw [hf]
  rfl

@[simp] theorem State.strictEnd_rbit (s old : State) (r : Requester) (p o i : Nat) :
    (s.strictEnd old r).rbit p o i = s.rbit p o i := by
  simp [State.rbit]

theorem State.startFence_runs (s : State) (r : Requester) : (s.startFence r).fenceRuns r = true := by
  unfold State.startFence
  split
  · next hf => simp [State.fenceRuns, hf]
  · simp [State.fenceRuns]

theorem State.strictEnd_runs {s : State} (old : State) {r : Requester} (h : s.fenceRuns r = true) :
    (s.strictEnd old r).fenceRuns r = true := by
  unfold State.strictEnd
  split
  · exact s.startFence_runs r
  · exact h

theorem State.regWrite_ringCtrl {s : State} {r : Requester} (v : Word) (hw : s.WritesNow r pgRing Reg.ringCtrl) :
    s.regWrite r pgRing Reg.ringCtrl v = (s.ringCtrlWrite r v).strictEnd s r := by
  rw [State.regWrite_now v (by decide) hw, State.writeAt_ringCtrl]

/-- The word that COMMIT writes: COMMIT, AT as given, no CANCEL. -/
theorem State.ringCtrlWrite_commit (s : State) (r : Requester) (at_ : Bool) :
    s.ringCtrlWrite r (BitVec.ofNat 32 (1 + 2 * b2n at_)) = s.commitReq r at_ := by
  have hcancel : bit (BitVec.ofNat 32 (1 + 2 * b2n at_)) 2 = false := by revert at_; decide
  have hcommit : bit (BitVec.ofNat 32 (1 + 2 * b2n at_)) 0 = true := by revert at_; decide
  have hat : bit (BitVec.ofNat 32 (1 + 2 * b2n at_)) 1 = at_ := by revert at_; decide
  simp only [State.ringCtrlWrite, hcancel, hcommit, hat, Bool.false_eq_true, if_false, if_true]

/-- The settings of RING_CTRL are no part of RING_TIME. -/
theorem State.setRf_ringCtrl_time (s : State) (lo n x : Nat) :
    (s.setRf pgRing Reg.ringCtrl lo n x).reg64 pgRing Reg.ringTime = s.reg64 pgRing Reg.ringTime := by
  unfold State.reg64 State.setRf
  rw [State.reg_setReg_ne _ _ (regKey_ne_off (by decide)), State.reg_setReg_ne _ _ (regKey_ne_off (by decide))]

@[simp] theorem State.startFence_rings (s : State) (r : Requester) : (s.startFence r).rings = s.rings := by
  obtain ⟨f, hf⟩ := s.startFence_bus r
  rw [hf]

/-- An accepted commit waits, with the time in RING_TIME when it is AT one, and a fence of its requester runs (R223). -/
theorem State.commitReq_accepted {s : State} (r : Requester) (at_ : Bool) (h : s.rings.waiting = none) :
    (s.commitReq r at_).fenceRuns r = true
    ∧ (s.commitReq r at_).rings.waiting
      = some { req := r, atT := if at_ then some (nsOfTs (s.reg64 pgRing Reg.ringTime)) else none } := by
  simp only [State.commitReq, h, State.setRf_ringCtrl_time]
  constructor
  · simpa only [State.fenceRuns, State.raiseIf_bus] using State.startFence_runs _ r
  · simp

/-- A commit is dropped while another waits (Table 86). -/
theorem State.commitReq_refused {s : State} (r : Requester) (at_ : Bool) {c : Commit} (h : s.rings.waiting = some c) :
    (s.commitReq r at_).rings = { s.rings with rej := 1 } ∧ (s.commitReq r at_).rbit pgRing 0x10 evRefused = true := by
  simp only [State.commitReq, h]
  exact ⟨by simp, State.raise_evt _ _ (by decide)⟩

/-- CANCEL withdraws a commit before its time (Table 86). -/
theorem State.cancelReq_withdrawn {s : State} {c : Commit} (h : s.rings.waiting = some c)
    (he : ∀ e, c.tEff = some e → s.now < e) : s.cancelReq = { s with rings := { s.rings with waiting := none, rej := 3 } } := by
  simp only [State.cancelReq, h]
  cases ht : c.tEff with
  | none => rfl
  | some e => exact if_neg (Nat.not_le.2 (he e ht))

theorem State.ringCtrlWrite_cancel (s : State) (r : Requester) {v : Word} (hv : bit v 2 = true) :
    s.ringCtrlWrite r v = (s.setRf pgRing Reg.ringCtrl 1 1 (fld v 1 1)).cancelReq := by
  simp only [State.ringCtrlWrite, hv, if_true]

/-- An expiring ring leaves RING_MAXAGE as it is. -/
theorem State.expireRing_maxage (s : State) (r : Nat) :
    (s.expireRing r).reg pgRing Reg.ringMaxage = s.reg pgRing Reg.ringMaxage := by
  unfold State.expireRing
  dsimp only
  split
  · rw [State.raise_reg _ _ _ (by decide) (by decide) (by decide)]
    rfl
  · rfl

theorem State.maxAgeWrite_reg (s : State) (v : Word) :
    (s.maxAgeWrite v).reg pgRing Reg.ringMaxage = v &&& 0xFFFFF := by
  simp only [State.maxAgeWrite, State.expireRing_maxage, State.reg_setReg]

/-- COMMIT, written so that it takes effect at once. -/
theorem exec_commit_now {s : State} {req : Requester} (at_ : Bool) (hlive : s.live = true)
    (hw : s.WritesNow req pgRing Reg.ringCtrl) :
    exec (.commit req at_) s = .next (((s.commitReq req at_).strictEnd s req).keepQueue s) := by
  rw [← State.ringCtrlWrite_commit, ← State.regWrite_ringCtrl _ hw]
  exact State.run_live _ hlive

/-- CANCEL, written so that it takes effect at once, with AT as it stands. -/
theorem exec_cancel_now {s : State} {req : Requester} (hlive : s.live = true) (hw : s.WritesNow req pgRing Reg.ringCtrl) :
    ∃ x, exec (.cancel req) s
      = .next ((((s.setRf pgRing Reg.ringCtrl 1 1 x).cancelReq).strictEnd s req).keepQueue s) := by
  have hrun := State.run_live (fun s => s.regWrite req pgRing Reg.ringCtrl (put 4 1 1 (s.rf pgRing Reg.ringCtrl 1 1))) hlive
  rw [State.regWrite_ringCtrl _ hw, State.ringCtrlWrite_cancel _ _ s.cancelWord_bit] at hrun
  exact ⟨_, hrun⟩

/-- A write of RING_MAXAGE that takes effect at once. -/
theorem exec_ringMaxage_now {s : State} {req : Requester} (v : Word) (hlive : s.live = true)
    (hw : s.WritesNow req pgRing Reg.ringMaxage) :
    exec (.ringMaxage req v) s = .next (((s.maxAgeWrite v).strictEnd s req).keepQueue s) := by
  rw [← State.writeAt_ringMaxage s req v, ← State.regWrite_now v (by decide) hw]
  exact State.run_live _ hlive

/-! ### A commit takes effect (R224 to R228) -/

/-- A commit whose requester's writes are done becomes ready when no STAGED command runs and the staging ring is FREE. -/
theorem State.commitReady_now {s : State} {c : Commit} (h : s.rings.waiting = some c) (hready : c.ready = none)
    (hwrites : s.writesWait c.req = false) (hstaged : s.stagedRuns = false) (hfree : s.ringLive s.rings.staging.val = false) :
    s.commitReady = { s with rings := { s.rings with waiting := some { c with ready := some s.now } } } := by
  simp only [State.commitReady, h]
  exact if_neg (by simp [hready, State.commitFenced, hwrites, hstaged, hfree])

@[simp] theorem State.commitYield_rings (s : State) (h : Nat) : (s.commitYield h).rings = s.rings :=
  (State.commitYield_same (fs := 0x10) (.refl _) s h (.refl _ s)).rings rfl

/-- PEER_HOLD stands in the rings' records. -/
theorem State.peerHold_rings (s : State) (r : Nat) : ∃ l, (s.peerHold r).rings = { s.rings with recs := l } := by
  unfold State.peerHold
  dsimp only
  split
  · exact ⟨_, rfl⟩
  · exact ⟨s.rings.recs, rfl⟩

theorem State.peerHold_st (s : State) (r i : Nat) : ((s.peerHold r).ringRec i).st = (s.ringRec i).st := by
  unfold State.peerHold
  dsimp only
  split
  · by_cases hi : i = r
    · subst hi; rw [State.ringRec_setRing]
    · rw [State.ringRec_setRing_ne _ _ hi]
  · rfl

/-- The rings as a commit at t turns them: the current ring retires and the staging ring is CURRENT with the next
generation (R227). -/
def State.turned (s : State) (t : Nat) : State :=
  let n := s.rings.staging
  let o := s.rings.cur
  let s := s.mapRing n.val s.kerfPages
  let s := s.setRing o.val { s.ringRec o.val with st := .retiring, tRet := t }
  let x := s.ringRec n.val
  let s := s.setRing n.val { st := .current, gen := s.rings.gen + 1, tCur := t, tRet := x.tRet, nz := x.nz }
  { s with rings := { s.rings with cur := n, gen := s.rings.gen + 1, waiting := none } }

theorem State.turned_rings (s : State) (t : Nat) :
    (s.turned t).rings.cur = s.rings.staging ∧ (s.turned t).rings.gen = s.rings.gen + 1
    ∧ (s.turned t).rings.waiting = none := by
  simp [State.turned, State.setRing, State.mapRing_rings]

theorem State.turned_staging (s : State) (t : Nat) : ((s.turned t).ringRec s.rings.staging.val).st = .current := by
  simp only [State.turned, State.setRing, State.ringRec, AMap.get_set_same]

/-- The ring that was CURRENT is another than the staging ring, and retires. -/
theorem State.turned_current (s : State) (t : Nat) : ((s.turned t).ringRec s.rings.cur.val).st = .retiring := by
  have hne : s.rings.cur.val ≠ s.rings.staging.val := fun e => Ring.succ_ne s.rings.cur (Fin.ext e).symm
  simp only [State.turned, State.setRing, State.ringRec]
  rw [AMap.get_set_ne _ _ _ _ hne, AMap.get_set_same]

/-- What a commit does once ring o has retired: PEER_HOLD, the background contexts, the counts and events, and a save under
way (R227, R228). -/
def State.afterTurn (s : State) (o : Nat) (late : Bool) : State :=
  let s := s.peerHold o
  let s := (s.commitYield 0).commitYield 1
  let s := s.count64 pgRing Reg.ringCommits 1
  let s := if late then s.count pgRing Reg.ringLate 1 else s
  let s := { s with forester := { s.forester with saveBad := s.forester.saveBad || s.forester.saving.isSome } }
  s.raiseAll pgRing (if late then [evCommitted, evLate] else [evCommitted]) 0

theorem State.commitNow_eq (s : State) (c : Commit) (t : Nat) :
    ∃ late, s.commitNow c t = (s.turned t).afterTurn s.rings.cur.val late := ⟨_, rfl⟩

/-- Of the rings only PEER_HOLD changes once they have turned. -/
theorem State.afterTurn_rings (s : State) (o : Nat) (late : Bool) : (s.afterTurn o late).rings = (s.peerHold o).rings := by
  cases late with
  | false => simp [State.afterTurn]
  | true => simp [State.afterTurn]

/-- A commit turns the rings, and sets PEER_HOLD of the ring that retires. -/
theorem State.commitNow_rings (s : State) (c : Commit) (t : Nat) :
    (s.commitNow c t).rings = ((s.turned t).peerHold s.rings.cur.val).rings := by
  obtain ⟨late, h⟩ := s.commitNow_eq c t
  rw [h, State.afterTurn_rings]

theorem State.commitNow_turns (s : State) (c : Commit) (t : Nat) :
    (s.commitNow c t).rings.cur = s.rings.staging ∧ (s.commitNow c t).rings.gen = s.rings.gen + 1
    ∧ (s.commitNow c t).rings.waiting = none
    ∧ ((s.commitNow c t).ringRec s.rings.staging.val).st = .current
    ∧ ((s.commitNow c t).ringRec s.rings.cur.val).st = .retiring := by
  obtain ⟨l, hl⟩ := (s.turned t).peerHold_rings s.rings.cur.val
  obtain ⟨hcur, hgen, hwait⟩ := s.turned_rings t
  have hrec : ∀ i, ((s.commitNow c t).ringRec i).st = ((s.turned t).ringRec i).st := fun i => by
    rw [← State.peerHold_st (s.turned t) s.rings.cur.val i]
    unfold State.ringRec
    rw [State.commitNow_rings]
  rw [hrec, hrec, State.commitNow_rings, hl]
  exact ⟨hcur, hgen, hwait, s.turned_staging t, s.turned_current t⟩

/-- At its time a commit takes effect, when East can be reached and no stage's next bank is in use (R226, R227). -/
theorem State.commitEdge_now {s : State} {c : Commit} {e : Nat} (h : s.rings.waiting = some c) (he : c.tEff = some e)
    (hnow : e ≤ s.now) (hflume : s.halfUp 1 = true → s.flumeUp = true) (hbank : s.kerfPages.find? s.bankBusy = none) :
    s.commitEdge = s.commitNow c e := by
  have hreach : ¬ (s.halfUp 1 = true ∧ s.flumeUp = false) := fun ⟨hup, hdown⟩ => by simp [hflume hup] at hdown
  simp only [State.commitEdge, h, he, if_neg (Nat.not_lt.2 hnow), if_neg hreach, hbank]

/-! ### Samples and expiry (R231, R233) -/

theorem State.retireRings_sample (s : State) (b : Bool) (l : List Nat) (i : Nat) :
    ((s.retireRings b l).ringRec i).sample = (s.ringRec i).sample := by
  induction l generalizing s b with
  | nil => rfl
  | cons r l ih =>
    unfold State.retireRings
    dsimp only
    split
    · split
      · rw [ih]
        by_cases hi : i = r
        · subst hi; rw [State.ringRec_setRing]
        · rw [State.ringRec_setRing_ne _ _ hi]
      · exact ih _ _
    · exact ih _ _

@[simp] theorem State.sampleRing_holders (s : State) (r i : Nat) : (s.sampleRing r).holders i = s.holders i := rfl

theorem State.sampleRing_sample (s : State) (r : Nat) : ((s.sampleRing r).ringRec r).sample = s.holders r := by
  unfold State.sampleRing
  rw [State.ringRec_setRing]

theorem State.sampleRing_ringRec_ne (s : State) {r i : Nat} (h : i ≠ r) : (s.sampleRing r).ringRec i = s.ringRec i :=
  State.ringRec_setRing_ne _ _ h

/-- The sample of one ring leaves those taken of the others: each of the four holds its ring's count. -/
theorem State.sampleRings_sample (s : State) {r : Nat} (h : r < 4) :
    (((((s.sampleRing 0).sampleRing 1).sampleRing 2).sampleRing 3).ringRec r).sample = s.holders r := by
  match r, h with
  | 0, _ =>
    rw [State.sampleRing_ringRec_ne _ (by decide), State.sampleRing_ringRec_ne _ (by decide),
      State.sampleRing_ringRec_ne _ (by decide), State.sampleRing_sample]
  | 1, _ =>
    rw [State.sampleRing_ringRec_ne _ (by decide), State.sampleRing_ringRec_ne _ (by decide), State.sampleRing_sample,
      State.sampleRing_holders]
  | 2, _ =>
    rw [State.sampleRing_ringRec_ne _ (by decide), State.sampleRing_sample, State.sampleRing_holders,
      State.sampleRing_holders]
  | 3, _ =>
    rw [State.sampleRing_sample, State.sampleRing_holders, State.sampleRing_holders, State.sampleRing_holders]
  | n + 4, h => exact absurd h (Nat.not_lt.2 (Nat.le_add_left 4 n))

/-- Every ring's sample is the count of its holders (R231). -/
theorem State.sample_holders (s : State) (r : Ring) : (s.sample.ringRec r.val).sample = s.holders r.val := by
  unfold State.sample
  dsimp only
  rw [State.retireRings_sample]
  exact s.sampleRings_sample r.isLt

/-- A ring that has been RETIRING for the maximum age expires (R233). -/
theorem State.expireRing_old {s : State} {r : Nat} (hst : (s.ringRec r).st = .retiring) (hexp : (s.ringRec r).expired = false)
    (hage : (s.ringRec r).tRet + maxAgeNs (s.reg pgRing Reg.ringMaxage) ≤ s.now) :
    s.expireRing r = (s.setRing r { s.ringRec r with expired := true, peerHold := false }).raise pgRing evExpired :=
  if_pos ⟨hst, hexp, hage⟩

/-! ### The expiry scan (R233) -/

@[simp] theorem State.dropExpireds_queue (s : State) (l : List Nat) (q : Nat) : (s.dropExpireds l).queue q = s.queue q :=
  congrArg (AMap.get [] · q) ((State.dropExpireds_same (fs := 0x8b134c2010) (.refl _) s l (.refl _ s)).queues rfl)

theorem State.scanQueue_queue (s : State) (q : Nat) :
    (s.scanQueue q).queue q = (s.queue q).filter (fun i => !s.frameExpired i) := by
  simp [State.scanQueue]

theorem State.scanQueue_queue_ne (s : State) {q r : Nat} (h : r ≠ q) : (s.scanQueue q).queue r = s.queue r := by
  simp [State.scanQueue, State.queue_setQueue_ne _ _ h]

theorem State.scanQueue_sub {s : State} {q r i : Nat} (h : i ∈ (s.scanQueue q).queue r) : i ∈ s.queue r := by
  by_cases hr : r = q
  · subst hr
    rw [State.scanQueue_queue] at h
    exact (List.mem_filter.1 h).1
  · rwa [State.scanQueue_queue_ne s hr] at h

/-- A scan adds nothing to a queue. -/
theorem State.scanQueues_sub {s : State} {l : List Nat} {r i : Nat} (h : i ∈ (s.scanQueues l).queue r) : i ∈ s.queue r := by
  induction l generalizing s with
  | nil => exact h
  | cons q l ih => exact State.scanQueue_sub (ih h)

/-- The scan of a queue without an expired frame touches no frame. -/
theorem State.scanQueue_clean {s : State} {q : Nat} (h : ∀ j ∈ s.queue q, s.frameExpired j = false) :
    s.scanQueue q = s.setQueue q (s.queue q) := by
  have hdead : (s.queue q).filter s.frameExpired = [] := List.filter_eq_nil_iff.2 (fun j hj => by simp [h j hj])
  have hlive : (s.queue q).filter (fun j => !s.frameExpired j) = s.queue q :=
    List.filter_eq_self.2 (fun j hj => by simp [h j hj])
  simp only [State.scanQueue, hdead, hlive, State.dropExpireds]

theorem State.setQueue_self_queue (s : State) (q r : Nat) : (s.setQueue q (s.queue q)).queue r = s.queue r := by
  by_cases hr : r = q
  · subst hr; exact State.queue_setQueue _ _ _
  · exact State.queue_setQueue_ne _ _ hr

/-- The scan of queues with q among them takes an expired frame out of q, when no other queue has one. -/
theorem State.scanQueues_drops {s : State} {l : List Nat} {q i : Nat} (hq : q ∈ l) (hi : s.frameExpired i = true)
    (hother : ∀ r j, r ≠ q → j ∈ s.queue r → s.frameExpired j = false) : i ∉ (s.scanQueues l).queue q := by
  induction l generalizing s with
  | nil => cases hq
  | cons r l ih =>
    by_cases hr : r = q
    · subst hr
      intro hmem
      have hscan := State.scanQueues_sub (s := s.scanQueue r) (l := l) hmem
      rw [State.scanQueue_queue, List.mem_filter, hi] at hscan
      exact absurd hscan.2 (by decide)
    · have hl : q ∈ l := (List.mem_cons.1 hq).resolve_left (Ne.symm hr)
      unfold State.scanQueues
      rw [State.scanQueue_clean (fun j hj => hother r j hr hj)]
      refine ih (s := s.setQueue r (s.queue r)) hl hi (fun r' j hr' hj => ?_)
      rw [State.setQueue_self_queue] at hj
      exact hother r' j hr' hj

@[simp] theorem State.dropMcasts_queue (s : State) (l : List Nat) (q : Nat) : (s.dropMcasts l).queue q = s.queue q :=
  congrArg (AMap.get [] · q) ((State.dropMcasts_same (fs := 0x8b121d2010) (.refl _) s l (.refl _ s)).queues rfl)

@[simp] theorem State.scanPunts_queue (s : State) (n q : Nat) : (s.scanPunts n).queue q = s.queue q :=
  congrArg (AMap.get [] · q) ((State.scanPunts_same (fs := 0x8b120c2010) (.refl _) s n (.refl _ s)).queues rfl)

/-- Replication and the punt path have no part in the queues of a half. -/
theorem State.expiryScan_queue (s : State) (h q : Nat) :
    (s.expiryScan h).queue q
      = (s.scanQueues ((s.queues.map (·.1)).filter (fun q => decide (queueHalf q = h)))).queue q := by
  simp only [State.expiryScan]
  split
  · simp
  · simp

/-- A queue that holds a frame is listed. -/
theorem State.queue_listed {s : State} {q i : Nat} (h : i ∈ s.queue q) : q ∈ s.queues.map (·.1) := by
  unfold State.queue at h
  generalize s.queues = m at h
  induction m with
  | nil => cases h
  | cons e m ih =>
    unfold AMap.get at h
    split at h
    · next he => exact List.mem_cons.2 (.inl he.symm)
    · exact List.mem_cons_of_mem _ (ih h)

/-! ### The obligation -/

/-- Settles O39, one lemma for what each command does. -/
theorem ringCommandsComplete : Obligations.RingCommandsComplete := by
  unfold Obligations.RingCommandsComplete
  intro s hlive
  refine ⟨?commit, ?refused, ?cancel, ?ready, ?takeEffect, ?sample, ?expire, ?scan, ?maxAge⟩
  case commit =>
    intro req at_ hw hnone
    obtain ⟨hfence, hwait⟩ := State.commitReq_accepted req at_ hnone
    refine ⟨_, exec_commit_now at_ hlive hw, State.strictEnd_runs s hfence, ?_⟩
    rw [State.keepQueue_rings, State.strictEnd_rings, hwait]
  case refused =>
    intro req at_ c hw hsome
    obtain ⟨hrings, hevt⟩ := State.commitReq_refused req at_ hsome
    refine ⟨_, exec_commit_now at_ hlive hw, ?_⟩
    rw [State.keepQueue_rings, State.keepQueue_rbit, State.strictEnd_rings, State.strictEnd_rbit, hrings]
    exact ⟨hsome, rfl, hevt⟩
  case cancel =>
    intro req c hw hsome hbefore
    obtain ⟨x, hcancel⟩ := exec_cancel_now hlive hw
    refine ⟨_, hcancel, ?_⟩
    have hdone := State.cancelReq_withdrawn (s := s.setRf pgRing Reg.ringCtrl 1 1 x) hsome hbefore
    rw [State.keepQueue_rings, State.strictEnd_rings, hdone]
    exact ⟨rfl, rfl⟩
  case ready =>
    intro c hsome hready hwrites hstaged hfree
    refine ⟨_, State.run_live (·.commitReady) hlive, ?_⟩
    rw [State.keepQueue_rings, State.commitReady_now hsome hready hwrites hstaged hfree]
  case takeEffect =>
    intro c e hsome he hnow hflume hbank
    refine ⟨_, State.run_live (·.commitEdge) hlive, ?_⟩
    simp only [State.keepQueue_rings, State.keepQueue_ringRec, State.commitEdge_now hsome he hnow hflume hbank]
    exact s.commitNow_turns c e
  case sample =>
    refine ⟨_, State.run_live (·.sample) hlive, fun r => ?_⟩
    rw [State.keepQueue_ringRec]
    exact s.sample_holders r
  case expire =>
    intro r hst hexp hage
    refine ⟨_, State.run_live (·.expireRing r.val) hlive, ?_⟩
    rw [State.keepQueue_ringRec, State.keepQueue_rbit, State.expireRing_old hst hexp hage]
    exact ⟨by simp, State.raise_evt _ _ (by decide)⟩
  case scan =>
    intro h q i hup hhalf hi hexp hother
    refine ⟨_, State.run_live (fun s => s.onlyIf (s.halfUp h.val) (·.expiryScan h.val)) hlive, ?_⟩
    simp only [State.onlyIf, hup, if_true, State.keepQueue_queue, State.expiryScan_queue]
    exact State.scanQueues_drops (List.mem_filter.2 ⟨State.queue_listed hi, by simp [hhalf]⟩) hexp hother
  case maxAge =>
    intro req value hw
    refine ⟨_, exec_ringMaxage_now value hlive hw, ?_⟩
    rw [State.keepQueue_reg, State.strictEnd_reg]
    exact s.maxAgeWrite_reg value

end Sys2Proof.Machine
end

section
/-! SUPPORT AND PROOF. What the commands of DECK do when their conditions hold (08_deck_admission.md R240 to R259):
admission, cells and caches, stalls, pools, memory errors, initialisation and PFC. -/

namespace Sys2Proof.Machine

/-! ### The store of a Deck: its lists, owner tags, free count and pools -/

/-- The part of a Deck that says where its cells are. Its level, its occupancies and PFC counts and the requests that
wait for cells are no part of it. -/
def DeckS.store (d : DeckS) : DeckS :=
  { lists := d.lists, tags := d.tags, free := d.free, pools := d.pools, initing := d.initing }

theorem DeckS.tag_of_store {d e : DeckS} (h : d.store = e.store) (c : Nat) : d.tag c = e.tag c :=
  show d.store.tag c = e.store.tag c by rw [h]
theorem DeckS.free_of_store {d e : DeckS} (h : d.store = e.store) : d.free = e.free :=
  show d.store.free = e.store.free by rw [h]
theorem DeckS.pools_of_store {d e : DeckS} (h : d.store = e.store) : d.pools = e.pools :=
  show d.store.pools = e.store.pools by rw [h]
theorem DeckS.initing_of_store {d e : DeckS} (h : d.store = e.store) : d.initing = e.initing :=
  show d.store.initing = e.store.initing by rw [h]

/-- A Deck put back with the same store leaves the stores of both halves. -/
theorem State.setDeck_store {s : State} {g : Nat} {x : DeckS} (hx : x.store = (s.deckOf g).store) (h : Nat) :
    ((s.setDeck g x).deckOf h).store = (s.deckOf h).store := by
  unfold State.deckOf State.setDeck Pair.at Pair.upd at *
  by_cases hg : g = 0
  · by_cases hh : h = 0 <;> simp_all
  · by_cases hh : h = 0 <;> simp_all

@[simp] theorem State.pfcEval_deckOf (s : State) (p r h : Nat) : (s.pfcEval p r).deckOf h = s.deckOf h :=
  congrArg (Pair.at · h) ((State.pfcEval_same (.refl _) s p r (.refl _ s)).deck rfl)

@[simp] theorem State.pfcEvals_deckOf (s : State) (l : List Nat) (h : Nat) : (s.pfcEvals l).deckOf h = s.deckOf h :=
  congrArg (Pair.at · h) ((State.pfcEvals_same (.refl _) s l (.refl _ s)).deck rfl)

/-- A level that is entered moves no cell (R249). -/
@[simp] theorem State.relevel_store (s : State) (g h : Nat) : ((s.relevel g).deckOf h).store = (s.deckOf h).store := by
  unfold State.relevel
  dsimp only
  split
  · split <;> rfl
  · simp only [apply_ite (fun t : State => t.deckOf h), State.pfcEvals_deckOf, State.raiseAll_deckOf, State.count_deckOf,
      ite_self]
    rw [State.setDeck_store]
    · split <;> rfl
    · split <;> rfl

@[simp] theorem State.relevel_frame (s : State) (g i : Nat) : (s.relevel g).frame i = s.frame i := by
  unfold State.frame
  rw [(State.relevel_same (.refl _) s g (.refl _ s)).frames rfl]

/-- A PFC count moves no cell (R255). -/
@[simp] theorem State.pfcAdd_store (s : State) (g : Nat) (f : Frame) (n h : Nat) :
    ((s.pfcAdd g f n).deckOf h).store = (s.deckOf h).store := by
  unfold State.pfcAdd
  split
  · rw [State.pfcEval_deckOf]
    exact State.setDeck_store (by rfl) h
  · rfl

@[simp] theorem State.pfcSub_store (s : State) (g : Nat) (f : Frame) (n h : Nat) :
    ((s.pfcSub g f n).deckOf h).store = (s.deckOf h).store := by
  unfold State.pfcSub
  split
  · rw [State.pfcEval_deckOf]
    exact State.setDeck_store (by rfl) h
  · rfl

/-- The charges of a cell move no cell (R251, R255). -/
@[simp] theorem State.chargeCell_store (s : State) (g : Nat) (f : Frame) (h : Nat) :
    ((s.chargeCell g f).deckOf h).store = (s.deckOf h).store := by
  unfold State.chargeCell
  rw [State.pfcAdd_store]
  split
  · exact State.setDeck_store (by rfl) h
  · split <;> rfl

@[simp] theorem State.chargeCell_frame (s : State) (g : Nat) (f : Frame) (i : Nat) : (s.chargeCell g f).frame i = s.frame i := by
  unfold State.frame
  rw [(State.chargeCell_same (.refl _) s g f (.refl _ s)).frames rfl]

/-- The charges of a cell that a frame loses end, and no cell moves. -/
@[simp] theorem State.loseCell_store (s : State) (i cell h : Nat) :
    ((s.loseCell i cell).deckOf h).store = (s.deckOf h).store := by
  unfold State.loseCell
  dsimp only
  rw [State.pfcSub_store]
  split
  · exact State.setDeck_store (by rfl) h
  · split
    · rfl
    · split
      · exact State.setDeck_store (by rfl) h
      · rfl

@[simp] theorem DeckS.supplied_list (d : DeckS) (i j : Nat) : (d.supplied i).list j = d.list j := by
  unfold DeckS.supplied
  split <;> rfl

@[simp] theorem DeckS.supplied_tags (d : DeckS) (i : Nat) : (d.supplied i).tags = d.tags := by
  unfold DeckS.supplied
  split <;> rfl

@[simp] theorem DeckS.giveBack_tags (d : DeckS) (c : Nat) : (d.giveBack c).tags = d.tags := by
  unfold DeckS.giveBack
  rw [DeckS.supplied_tags]
  rfl

@[simp] theorem DeckS.list_setList (d : DeckS) (i : Nat) (l : FList) : (d.setList i l).list i = l :=
  AMap.get_set_same _ _ _ _

@[simp] theorem DeckS.tag_setTag (d : DeckS) (c t : Nat) : (d.setTag c t).tag c = t :=
  AMap.get_set_same _ _ _ _

/-! ### Commands under a condition -/

/-- A command that acts under a condition, in a state where it holds. -/
theorem State.run_onlyIf {s : State} {b : State → Bool} {f : State → State} (hlive : s.live = true) (hb : b s = true) :
    s.run (fun s => s.onlyIf (b s) f) = .next ((f s).keepQueue s) := by
  rw [State.run_live _ hlive, hb, State.onlyIf_true]

/-! ### Admission (R250, R263) -/

/-- A frame that passes checks 1 to 8 of Table 95 waits for its cells, and stands at the tail of its queue. -/
theorem State.admitUnicast_clear {s : State} (i : Nat) {f : Frame} (hexp : s.expiredCheck f.ring = none)
    (hport : s.portCheck f.q = none) (hclass : s.classCheck f.half (f.q % 32) = none)
    (hqueue : s.queueCheck f.q (vColor f.vecIn) = none) :
    s.admitUnicast i f = (s.awaitCells i { f with ecn := s.ecnMark f.q, enq := true, tag := queueTag f.q }).setQueue f.q
      (s.queue f.q ++ [i]) := by
  simp only [State.admitUnicast, hexp, hport, hclass, hqueue, firstReason]
  rfl

/-- The head of step 4, a unicast frame without a fault in a Deck that works, comes to the admission of its queue. -/
theorem State.admitHead_unicast {s : State} {h i : Nat} {is : List Nat} (hup : s.deckUp h = true)
    (hhead : (s.pathOf h).arrivals = i :: is) (hbad : (s.frame i).bad = 0) (hpunt : (s.frame i).punted = false)
    (htag : (s.frame i).tag ≠ 0xC000) :
    s.admitHead h = (s.setPath h { s.pathOf h with arrivals := is }).admitUnicast i (s.frame i) := by
  have hup' : (s.setPath h { s.pathOf h with arrivals := is }).deckUp h = true := hup
  simp [State.admitHead, hhead, hbad, hup', hpunt, htag]

@[simp] theorem State.awaitCells_frame (s : State) (i : Nat) (f : Frame) :
    (s.awaitCells i f).frame i = { f with need := cellsOf f.len } := State.frame_setFrame _ _ _

/-! ### Cells (R240 to R245) -/

/-- The list that a requester asks first, when it has a pointer to give, is the one that answers (R245). -/
theorem DeckS.nextList_first {d : DeckS} {l n c : Nat} {cs : List Nat} (hl : l < 64) (hcache : (d.list l).cache = c :: cs)
    (hok : (d.list l).broken = false) : d.nextList l (n + 1) = some l := by
  have hmod : l % 64 = l := Nat.mod_eq_of_lt hl
  simp [DeckS.nextList, hmod, hcache, hok]

theorem DeckS.firstList_lt (d : DeckS) (rq : Nat) (f : Frame) : d.firstList rq f < 64 := by
  unfold DeckS.firstList
  split <;> exact Nat.mod_lt _ (by decide)

theorem DeckS.takeFrom_cons {d : DeckS} {l c : Nat} {cs : List Nat} (tag : Nat) (hcache : (d.list l).cache = c :: cs) :
    d.takeFrom l tag = some (c, { (d.setList l { d.list l with cache := cs }).setTag c tag with free := d.free - 1 }) := by
  simp only [DeckS.takeFrom, hcache]

/-- A frame takes the first pointer of the list it asks first, and the cell has the frame's tag (R242, R245). -/
theorem State.allocOne_first {s : State} {h rq i c : Nat} {cs : List Nat}
    (hcache : ((s.deckOf h).list ((s.deckOf h).firstList rq (s.frame i))).cache = c :: cs)
    (hok : ((s.deckOf h).list ((s.deckOf h).firstList rq (s.frame i))).broken = false) :
    ∃ t, s.allocOne h rq i = some t ∧ (t.frame i).cells = (s.frame i).cells ++ [c] ∧ (t.deckOf h).tag c = (s.frame i).tag := by
  have hnext := DeckS.nextList_first (n := 63) (DeckS.firstList_lt _ rq (s.frame i)) hcache hok
  simp only [State.allocOne, hnext, DeckS.takeFrom_cons _ hcache]
  refine ⟨_, rfl, ?_, ?_⟩
  · rw [State.relevel_frame, State.chargeCell_frame, State.frame_setFrame]
  · rw [DeckS.tag_of_store (State.relevel_store _ _ _), DeckS.tag_of_store (State.chargeCell_store _ _ _ _),
      State.setFrame_deckOf, State.deckOf_setDeck]
    split <;> exact DeckS.tag_setTag _ _ _

/-- A frame that needs one cell more has taken its last, and waits no longer: no other cell moves. -/
theorem State.alloc_last {s t : State} {h rq i : Nat} {is : List Nat} (hwait : AMap.get [] (s.deckOf h).waiting rq = i :: is)
    (hneed : (s.frame i).need = 1) (ht : s.allocOne h rq i = some t) :
    (s.alloc h rq).frame i = t.frame i ∧ ((s.alloc h rq).deckOf h).store = (t.deckOf h).store := by
  simp only [State.alloc, hwait, hneed, State.allocCells, ht]
  refine ⟨rfl, ?_⟩
  rw [State.setDeck_store (by rfl), State.setDeck_store (by rfl)]

/-- A free that presents the tag of a cell of a list (R240, R243). -/
theorem State.freeCell_list {s : State} {h cell tag : Nat} (rq : Nat) (hstored : (s.deckOf h).tag cell = tag) (hpos : tag ≠ 0)
    (hgone : tag ≠ 0xFFFF) (hpool : ¬ (0x8000 ≤ tag ∧ tag < 0x8008)) :
    s.freeCell h rq cell tag = (s.setDeck h { ((s.deckOf h).setTag cell 0).giveBack cell with
      free := (s.deckOf h).free + 1 }).relevel h := by
  simp only [State.freeCell]
  rw [if_pos ⟨hstored, hstored ▸ hpos, hstored ▸ hgone⟩, if_neg hpool]

/-- A free that presents the tag of a pool cell (R248). -/
theorem State.freeCell_pool {s : State} {h cell : Nat} (rq : Nat) (n : Fin 8)
    (hstored : (s.deckOf h).tag cell = 0x8000 + n.val) :
    s.freeCell h rq cell (0x8000 + n.val) = s.setDeck h ((s.deckOf h).setTag cell 0) := by
  simp only [State.freeCell]
  rw [if_pos ⟨hstored, by omega, by omega⟩, if_pos ⟨by omega, by omega⟩]

/-- A free from outside the frame's path is the free of its cell, in a state where no other cell has moved (R243). -/
theorem State.freeStray_eq (s : State) (h rq cell tag : Nat) :
    ∃ t : State, s.freeStray h rq cell tag = t.freeCell h rq cell tag ∧ (t.deckOf h).store = (s.deckOf h).store := by
  refine ⟨_, rfl, ?_⟩
  split
  · rw [State.setFrame_deckOf, State.loseCell_store]
  · rfl

/-- What a free of a list's cell leaves: tag 0, and one free cell more (R241, R243). -/
theorem State.freeStray_list {s : State} {h cell tag : Nat} (rq : Nat) (hstored : (s.deckOf h).tag cell = tag) (hpos : tag ≠ 0)
    (hgone : tag ≠ 0xFFFF) (hpool : ¬ (0x8000 ≤ tag ∧ tag < 0x8008)) :
    ((s.freeStray h rq cell tag).deckOf h).tag cell = 0
    ∧ ((s.freeStray h rq cell tag).deckOf h).free = (s.deckOf h).free + 1 := by
  obtain ⟨t, ht, hstore⟩ := s.freeStray_eq h rq cell tag
  rw [ht, State.freeCell_list rq ((DeckS.tag_of_store hstore cell).trans hstored) hpos hgone hpool,
    DeckS.tag_of_store (State.relevel_store _ _ _), DeckS.free_of_store (State.relevel_store _ _ _), State.deckOf_setDeck,
    DeckS.free_of_store hstore]
  refine ⟨?_, rfl⟩
  show AMap.get 0 (((t.deckOf h).setTag cell 0).giveBack cell).tags cell = 0
  rw [DeckS.giveBack_tags]
  exact DeckS.tag_setTag _ _ _

/-! ### Refills of a cache (R240) -/

theorem FList.pop_cache {l x : FList} {pools : AMap Pool} {i c : Nat} (h : l.pop pools i = some (c, x)) :
    x.cache = l.cache ∧ x.broken = l.broken := by
  unfold FList.pop at h
  dsimp only at h
  split at h
  · cases h
    exact ⟨rfl, rfl⟩
  · split at h
    · cases h
    · cases h
      exact ⟨rfl, rfl⟩

/-- The head cell of a list does not depend on its cache. -/
theorem FList.pop_withCache (l : FList) (cache : List Nat) (pools : AMap Pool) (i : Nat) :
    (({ l with cache := cache } : FList).pop pools i).map (·.1) = (l.pop pools i).map (·.1) := by
  unfold FList.pop
  dsimp only
  split
  · rfl
  · split <;> rfl

/-- A cache below 8 pointers takes the head cell of its list. -/
theorem DeckS.refill1_pop {d : DeckS} {i c : Nat} {x : FList} (n : Nat) (hlen : (d.list i).cache.length < 8)
    (hok : (d.list i).broken = false) (hpop : (d.list i).pop d.pools i = some (c, x)) (htag : d.tag c ≠ 0xFFFF) :
    d.refill1 i (n + 1) = d.setList i { x with cache := (d.list i).cache ++ [c] } := by
  simp only [DeckS.refill1, if_pos (And.intro hlen hok), hpop, if_neg htag, (FList.pop_cache hpop).1]

/-- Two refills in a cycle put the next two link words into a cache of at most 6 pointers. -/
theorem DeckS.refill_two {d : DeckS} {i c c' : Nat} {x : FList} (n : Nat) (hok : (d.list i).broken = false)
    (hlen : (d.list i).cache.length ≤ 6) (hpop : (d.list i).pop d.pools i = some (c, x))
    (hpop' : (x.pop d.pools i).map (·.1) = some c') (htag : d.tag c ≠ 0xFFFF) (htag' : d.tag c' ≠ 0xFFFF) :
    (((d.refill1 i (n + 1)).refill1 i (n + 1)).list i).cache = (d.list i).cache ++ [c, c'] := by
  rw [← FList.pop_withCache x ((d.list i).cache ++ [c]), Option.map_eq_some_iff] at hpop'
  obtain ⟨⟨a, y⟩, hpop', rfl⟩ := hpop'
  have htwo := DeckS.refill1_pop (d := d.setList i { x with cache := (d.list i).cache ++ [c] }) (i := i) n
    (by simp; omega) (by simp [(FList.pop_cache hpop).2, hok]) (by rw [DeckS.list_setList]; exact hpop') htag'
  rw [DeckS.refill1_pop n (by omega) hok hpop htag, htwo]
  simp

/-! ### Stalls (R246) -/

theorem State.finish_gone (s : State) (i h : Nat) (f : Frame) : AMap.get none (s.finish i h f).frames i = none :=
  AMap.get_set_same none (s.endHolder h f.ring).frames i none

/-- A drop at or after admission forgets its frame (R298). -/
theorem State.dropQueued_gone (s : State) (i reason : Nat) : AMap.get none (s.dropQueued i reason).frames i = none :=
  State.finish_gone _ _ _ _

/-- A frame held for a queue is dropped from it; frames of the punt path and of replication have drops of their own. -/
theorem State.dropHeld_gone {s : State} {i : Nat} (reason : Nat) (hpunt : (s.frame i).tag ≠ 0xC001)
    (hrepl : (s.frame i).tag ≠ 0xC000) : AMap.get none (s.dropHeld i reason).frames i = none := by
  simp only [State.dropHeld, if_neg hpunt, if_neg fun h => hrepl (And.left h)]
  exact State.dropQueued_gone _ _ _

/-- A frame that a requester has held under EMPTY for DK_STALL_MAX is ended. -/
theorem State.stall_due {s : State} {h rq i x : Nat} {is : List Nat} (hhold : AMap.get none (s.deckOf h).hold rq = some x)
    (hwait : AMap.get [] (s.deckOf h).waiting rq = i :: is) (hdue : x + s.stallMax h ≤ s.clk.up) :
    s.stall h rq = s.stallEnd h i := by
  simp only [State.stall, hhold, hwait, List.head?_cons, if_pos hdue]

theorem State.stallEnd_evt (s : State) (h i : Nat) : (s.stallEnd h i).rbit (pgDeck h) 0x10 evStallDrop = true :=
  State.raise_evt _ _ (by decide)

/-- A frame of which no byte has left, of a queue, is gone once its stall has ended it (R246). -/
theorem State.stallEnd_gone {s : State} (h : Nat) {i : Nat} (hstart : (s.frame i).started = false)
    (hcopy : (s.frame i).copied = false) (hpunt : (s.frame i).tag ≠ 0xC001) (hrepl : (s.frame i).tag ≠ 0xC000) :
    AMap.get none (s.stallEnd h i).frames i = none := by
  simp only [State.stallEnd, hstart, hcopy, Bool.false_eq_true, or_self, if_false, State.raise_frames, State.count64_frames]
  exact State.dropHeld_gone rStall hpunt hrepl

/-! ### Pools (R248) -/

@[simp] theorem State.strictEnd_deckOf (s old : State) (r : Requester) (h : Nat) :
    (s.strictEnd old r).deckOf h = s.deckOf h := by
  obtain ⟨f, hf⟩ := State.strictEnd_bus s old r
  rw [hf]
  rfl

/-- The lowest free cell of a pool takes the pool's tag, and the requester reads its number (R248). -/
theorem State.poolAlloc_found {s : State} (r : Requester) {h n c : Nat}
    (hfree : (s.deckOf h).freePoolCell ((s.deckOf h).pool n).base ((s.deckOf h).pool n).size = some c) :
    s.poolAlloc r h n = s.setDeck h { (s.deckOf h).setTag c (0x8000 + n) with
      poolRes := AMap.set 0 (s.deckOf h).poolRes (reqIdx r) (BitVec.ofNat 32 (c + 2 ^ 31)) } := by
  simp only [State.poolAlloc, hfree]

theorem fld_cell (cell : BitVec 20) : fld (cell.setWidth 32) 0 20 = cell.toNat := by
  have h := cell.isLt
  unfold fld
  rw [BitVec.toNat_setWidth]
  omega

/-- A write of DK_POOL_ALLOC that takes effect at once. -/
theorem exec_poolAlloc_now {s : State} {req : Requester} {h : Half} {n : Fin 8} (hlive : s.live = true)
    (hw : s.WritesNow req (pgDeck h.val) (0x208 + 0x20 * n.val)) :
    exec (.poolAlloc req h n) s = .next (((s.poolAlloc req h.val n.val).strictEnd s req).keepQueue s) := by
  rw [← State.writeAt_poolAlloc s req h n 1, ← State.regWrite_now 1 (by omega) hw]
  exact State.run_live _ hlive

/-- A write of DK_POOL_FREE that takes effect at once. -/
theorem exec_poolFree_now {s : State} {req : Requester} {h : Half} {n : Fin 8} (cell : BitVec 20) (hlive : s.live = true)
    (hw : s.WritesNow req (pgDeck h.val) (0x20C + 0x20 * n.val)) :
    exec (.poolFree req h n cell) s
      = .next (((s.freeCell h.val 20 cell.toNat (0x8000 + n.val)).strictEnd s req).keepQueue s) := by
  rw [← fld_cell cell, ← State.writeAt_poolFree s req h n, ← State.regWrite_now _ (by omega) hw]
  exact State.run_live _ hlive

/-! ### Initialisation (R259) -/

/-- Initialisation leaves the pools that are valid, and every other cell free. -/
theorem State.initDeck_store (s : State) (h : Nat) :
    ((s.initDeck h).deckOf h).store
      = ({ pools := (s.initPools h 8).1, free := cellCount - ((s.initPools h 8).1.map (·.2.size)).sum } : DeckS).store := by
  unfold State.initDeck
  rw [State.pfcEvals_deckOf, State.relevel_store, State.drawn_deckOf, State.deckOf_setDeck]
  rfl

/-! ### PFC (R256, R257) -/

/-- A PFC frame goes out on the lanes of its port. -/
theorem State.pfcSend_out (s : State) (p : Nat) : ∃ bs, (s.pfcSend p).out = (s.transmit p (.pfc p bs)).out := by
  unfold State.pfcSend
  simp only [State.count_out, State.count64_out]
  exact ⟨_, rfl⟩

/-- Once the frame has gone no priority is due. -/
theorem State.pfcSend_due (s : State) (p : Nat) : (AMap.get {} (s.pfcSend p).pfcTx p).due = [] := by
  simp [State.pfcSend]

@[simp] theorem State.pfcSend_port (s : State) (p i : Nat) : (s.pfcSend p).port i = s.port i :=
  congrArg (fun m => AMap.get ({} : PortS) m i) ((State.pfcSend_same (.refl _) s p (.refl _ s)).ports rfl)

/-- What a receiver takes in near-end loopback sends nothing (R83). -/
@[simp] theorem State.loopBack_out (s old : State) (p : Nat) : (s.loopBack old p).out = s.out :=
  (State.loopBack_same (.refl _) s old p (.refl _ s)).out rfl

theorem State.loopBack_off {s : State} (old : State) {p : Nat} (h : cfgLpbk (s.port p).cfg ≠ 1) : s.loopBack old p = s :=
  if_neg h

/-- A priority that is due stays so while others fall due again. -/
theorem PfcS.refresh_kept (x : PfcS) (now wait : Nat) (l : List Nat) {r : Nat} (h : AMap.get false x.due r = true) :
    AMap.get false (x.refresh now wait l).due r = true := by
  induction l generalizing x with
  | nil => exact h
  | cons a l ih =>
    unfold PfcS.refresh
    apply ih
    split
    · by_cases hr : r = a
      · rw [hr]
        exact AMap.get_set_same false x.due a true
      · exact (AMap.get_set_ne false false x.due true hr).trans h
    · exact h

/-- A priority in XOFF whose last frame is REFRESH old is due again, among the others of its port (R256). -/
theorem PfcS.refresh_due (x : PfcS) (now wait : Nat) {l : List Nat} {r : Nat} (hr : r ∈ l)
    (hxoff : AMap.get false x.xoff r = true) (hold : AMap.get 0 x.sent r + wait ≤ now) :
    AMap.get false (x.refresh now wait l).due r = true := by
  induction l generalizing x with
  | nil => cases hr
  | cons a l ih =>
    unfold PfcS.refresh
    by_cases hra : r = a
    · subst hra
      simp only [hxoff, hold, decide_true, Bool.and_self, if_true]
      exact PfcS.refresh_kept _ _ _ _ (AMap.get_set_same false x.due r true)
    · apply ih _ ((List.mem_cons.1 hr).resolve_left hra)
      · split <;> exact hxoff
      · split <;> exact hold

/-! ### The obligation -/

/-- Settles O40, one lemma or two for what each command does. -/
theorem deckCommandsComplete : Obligations.DeckCommandsComplete := by
  unfold Obligations.DeckCommandsComplete
  intro s h hlive
  refine ⟨?admission, ?alloc, ?free, ?refill, ?stall, ?poolAlloc, ?poolFree, ?ecc, ?rebuild, ?initDone, ?pfcTx, ?pfcRefresh,
    ?pauseExpire⟩
  case admission =>
    intro i is hhalf hhead hbad hinit hpunt htag hexp hport hclass hqueue
    have hup : s.deckUp h.val = true := by simp [State.deckUp, hhalf, hinit]
    refine ⟨_, State.run_live (·.admitHead h.val) hlive, ?_⟩
    rw [State.keepQueue_queue, State.keepQueue_frame, State.admitHead_unicast hup hhead hbad hpunt htag,
      State.admitUnicast_clear (s := s.setPath h.val { s.pathOf h.val with arrivals := is }) i hexp hport hclass hqueue,
      State.queue_setQueue, State.setQueue_frame, State.awaitCells_frame]
    exact ⟨rfl, rfl⟩
  case alloc =>
    intro rq i is c cs hup hwait hneed hcache hok
    obtain ⟨t, ht, hcells, htag⟩ := State.allocOne_first hcache hok
    obtain ⟨hframe, hstore⟩ := State.alloc_last hwait hneed ht
    refine ⟨_, State.run_onlyIf (b := (·.deckUp h.val)) (f := (·.alloc h.val rq.val)) hlive hup, ?_⟩
    rw [State.keepQueue_frame, State.keepQueue_deckOf, hframe, DeckS.tag_of_store hstore]
    exact ⟨hcells, htag⟩
  case free =>
    intro rq cell tag hup hstored hpos hrange
    exact ⟨_, State.run_onlyIf (b := (·.deckUp h.val)) (f := (·.freeStray h.val rq.val cell tag.toNat)) hlive hup,
      State.freeStray_list rq.val hstored hpos (by omega) (by omega)⟩
  case refill =>
    intro l c x c' hup hok hlen hpop hpop' htag htag'
    refine ⟨_, State.run_onlyIf (b := (·.deckUp h.val)) hlive hup, ?_⟩
    rw [State.keepQueue_deckOf, State.deckOf_setDeck, DeckS.supplied_list]
    exact DeckS.refill_two _ hok hlen hpop hpop' htag htag'
  case stall =>
    intro rq i is x hup hhold hwait hdue
    refine ⟨_, State.run_onlyIf (b := (·.deckUp h.val)) (f := (·.stall h.val rq.val)) hlive hup, ?_⟩
    rw [State.keepQueue_rbit, State.keepQueue_frames, State.stall_due hhold hwait hdue]
    exact ⟨State.stallEnd_evt s _ i, State.stallEnd_gone h.val⟩
  case poolAlloc =>
    intro req n c hw hfree
    refine ⟨_, exec_poolAlloc_now hlive hw, ?_⟩
    rw [State.keepQueue_deckOf, State.strictEnd_deckOf, State.poolAlloc_found req hfree, State.deckOf_setDeck]
    generalize BitVec.ofNat 32 (c + 2 ^ 31) = w
    exact ⟨AMap.get_set_same 0 (s.deckOf h.val).tags c _, AMap.get_set_same 0 (s.deckOf h.val).poolRes (reqIdx req) w⟩
  case poolFree =>
    intro req n cell hw hstored
    refine ⟨_, exec_poolFree_now cell hlive hw, ?_⟩
    rw [State.keepQueue_deckOf, State.strictEnd_deckOf, State.freeCell_pool 20 n hstored, State.deckOf_setDeck]
    exact DeckS.tag_setTag _ _ _
  case ecc =>
    intro hup e
    refine ⟨_, State.run_onlyIf (b := (·.deckUp h.val)) (f := (·.deckEcc h.val e)) hlive hup, ?_⟩
    cases e <;> exact State.raise_evt _ _ (by decide)
  case rebuild =>
    intro l hup hbroken
    refine ⟨_, State.run_onlyIf (b := fun s => s.deckUp h.val && ((s.deckOf h.val).list l.val).broken) hlive
      (by rw [hup, hbroken]; rfl), ?_, State.raise_evt _ _ (by decide)⟩
    rw [State.keepQueue_deckOf, State.raise_deckOf, State.count_deckOf, State.deckOf_setDeck, DeckS.supplied_list,
      DeckS.list_setList]
    rfl
  case initDone =>
    intro hinit
    have hstore := s.initDeck_store h.val
    exact ⟨_, State.run_onlyIf (b := fun s => (s.deckOf h.val).initing) (f := (·.initDeck h.val)) hlive hinit,
      DeckS.initing_of_store hstore, DeckS.pools_of_store hstore, DeckS.free_of_store hstore⟩
  case pfcTx =>
    intro p hlink htx hdue
    obtain ⟨bs, hout⟩ := s.pfcSend_out p.val
    refine ⟨_, bs, State.run_onlyIf (b := fun s => (s.port p.val).linkUp && (s.schedOf p.val).tx.isNone
      && !(AMap.get ({} : PfcS) s.pfcTx p.val).due.isEmpty) hlive (by simp [hlink, htx, hdue]), fun hsends => ?_, fun hoff => ?_⟩
    · rw [State.keepQueue_out, State.loopBack_out, hout, State.transmit, hsends]
      rfl
    · rw [State.keepQueue_pfcTx, State.loopBack_off s (by rwa [State.pfcSend_port])]
      exact s.pfcSend_due p.val
  case pfcRefresh =>
    intro p r hxoff hold
    show ∃ t, execPfcRefresh p s = .next t ∧ _
    unfold execPfcRefresh
    refine ⟨_, State.run_live _ hlive, ?_⟩
    rw [State.keepQueue_pfcTx, AMap.get_set_same]
    exact PfcS.refresh_due _ _ _ (List.mem_range.2 r.isLt) hxoff hold
  case pauseExpire =>
    intro p r hpause
    refine ⟨_, State.run_live _ hlive, ?_⟩
    simp [hpause]

end Sys2Proof.Machine
end

section
/-! SUPPORT AND PROOF. What the commands of FLUME, SCHEDULER and RAFT leave as it was (09_queues_forwarding.md R265 to R280,
11_raft.md R328 to R344): the masks of State.Same, and the two writes that take effect at once. -/

namespace Sys2Proof.Machine

/-- RF_CTRL of West is one word in the body of its page (R328). -/
theorem State.writeAt_rfCtrl (s : State) (r : Requester) (v : Word) :
    s.writeAt r (pgHalf 0) Reg.rfCtrl v = s.raftCtrlWrite v := by
  rw [State.writeAt_body s r v (by decide) (by decide) (by decide)]
  rfl

/-- Settles O22, from what each command of FLUME, SCHEDULER and RAFT leaves as it was (State.Same). -/
theorem queueAndRaftFrame : Obligations.QueueAndRaftFrame := by
  unfold Obligations.QueueAndRaftFrame
  refine ⟨?receive, ?replicate, ?drain, ?schedule, ?macStart, ?txLast, ?holdExpire, ?flushDone, ?cfgSync, ?helloTx,
    ?extraHello, ?helloRx, ?dead, ?recompute, ?lapse, ?enable⟩
  case receive =>
    intro _ _ s t ht
    have hs := execFlumeReceive_same (.refl _) ht (.refl _ s)
    exact ⟨hs.clk rfl, hs.freeCtr rfl, hs.out rfl, hs.selRegs rfl, hs.mem rfl, hs.bus rfl, hs.flumeUp rfl, hs.lanes rfl,
      hs.macros rfl, hs.ports rfl, hs.spans rfl, hs.nextFrame rfl, hs.slices rfl, hs.rings rfl, hs.queues rfl,
      hs.qbucket rfl, hs.meters rfl, hs.late rfl, hs.wood rfl, hs.eastq rfl, hs.hitq rfl, hs.hbm rfl, hs.cruiser rfl,
      hs.fire rfl, hs.raft rfl, hs.forester rfl, hs.mram rfl, hs.fuses rfl, hs.ppsHigh rfl, hs.rst rfl⟩
  case replicate =>
    intro _ s t ht
    have hs := execReplicate_same (.refl _) ht (.refl _ s)
    exact ⟨hs.clk rfl, hs.freeCtr rfl, hs.out rfl, hs.selRegs rfl, hs.mem rfl, hs.bus rfl, hs.flumeUp rfl, hs.lanes rfl,
      hs.macros rfl, hs.ports rfl, hs.spans rfl, hs.slices rfl, hs.rings rfl, hs.qbucket rfl, hs.meters rfl, hs.late rfl,
      hs.wood rfl, hs.eastq rfl, hs.hitq rfl, hs.hbm rfl, hs.cruiser rfl, hs.fire rfl, hs.raft rfl, hs.forester rfl,
      hs.mram rfl, hs.fuses rfl, hs.ppsHigh rfl, hs.rst rfl⟩
  case drain =>
    intro h s t hw ht
    refine (State.Same.run_one (m := 0x8000102090) ht (State.regWrite_now_same (.of rfl (.refl _)) (by decide) hw ?_)).eq_graft
    rw [State.writeAt_drain]
    exact State.startDrain_same (.of rfl (.refl _)) _ _ (.refl _ s)
  case schedule =>
    intro _ s t ht
    have hs := execSchedule_same (.refl _) ht (.refl _ s)
    exact ⟨hs.clk rfl, hs.freeCtr rfl, hs.out rfl, hs.selRegs rfl, hs.mem rfl, hs.bus rfl, hs.flumeUp rfl, hs.lanes rfl,
      hs.macros rfl, hs.ports rfl, hs.spans rfl, hs.nextFrame rfl, hs.mcast rfl, hs.rings rfl, hs.path rfl, hs.qbucket rfl,
      hs.meters rfl, hs.late rfl, hs.wood rfl, hs.eastq rfl, hs.hitq rfl, hs.hbm rfl, hs.cruiser rfl, hs.fire rfl,
      hs.raft rfl, hs.forester rfl, hs.mram rfl, hs.fuses rfl, hs.ppsHigh rfl, hs.rst rfl⟩
  case macStart =>
    intro _ _ s t ht
    have hs := execMacStart_same (.refl _) ht (.refl _ s)
    exact ⟨hs.clk rfl, hs.freeCtr rfl, hs.out rfl, hs.selRegs rfl, hs.mem rfl, hs.bus rfl, hs.flumeUp rfl, hs.lanes rfl,
      hs.macros rfl, hs.ports rfl, hs.spans rfl, hs.nextFrame rfl, hs.slices rfl, hs.mcast rfl, hs.rings rfl, hs.path rfl,
      hs.queues rfl, hs.qbucket rfl, hs.meters rfl, hs.late rfl, hs.wood rfl, hs.eastq rfl, hs.hitq rfl, hs.hbm rfl,
      hs.cruiser rfl, hs.fire rfl, hs.raft rfl, hs.forester rfl, hs.mram rfl, hs.fuses rfl, hs.ppsHigh rfl, hs.rst rfl⟩
  case txLast =>
    intro _ s t ht
    have hs := execTxLastByte_same (.refl _) ht (.refl _ s)
    exact ⟨hs.clk rfl, hs.freeCtr rfl, hs.selRegs rfl, hs.mem rfl, hs.bus rfl, hs.flumeUp rfl, hs.lanes rfl, hs.macros rfl,
      hs.mcast rfl, hs.rings rfl, hs.path rfl, hs.queues rfl, hs.meters rfl, hs.late rfl, hs.wood rfl, hs.eastq rfl,
      hs.hitq rfl, hs.hbm rfl, hs.fire rfl, hs.raft rfl, hs.forester rfl, hs.mram rfl, hs.fuses rfl, hs.ppsHigh rfl,
      hs.rst rfl⟩
  case holdExpire => exact fun _ s t ht => (execLinkHoldExpire_same (.refl _) ht (.refl _ s)).eq_graft
  case flushDone =>
    intro _ s t ht
    have hs := execLinkFlushDone_same (.refl _) ht (.refl _ s)
    exact ⟨hs.clk rfl, hs.freeCtr rfl, hs.out rfl, hs.selRegs rfl, hs.mem rfl, hs.bus rfl, hs.flumeUp rfl, hs.lanes rfl,
      hs.macros rfl, hs.ports rfl, hs.spans rfl, hs.nextFrame rfl, hs.slices rfl, hs.mcast rfl, hs.rings rfl, hs.path rfl,
      hs.queues rfl, hs.qbucket rfl, hs.meters rfl, hs.late rfl, hs.wood rfl, hs.eastq rfl, hs.hitq rfl, hs.hbm rfl,
      hs.cruiser rfl, hs.fire rfl, hs.raft rfl, hs.forester rfl, hs.mram rfl, hs.fuses rfl, hs.ppsHigh rfl, hs.rst rfl⟩
  case cfgSync => exact fun s t ht => (execRaftCfgSync_same (.refl _) ht (.refl _ s)).eq_graft
  case helloTx =>
    intro _ s t ht
    have hs := execHelloTx_same (.refl _) ht (.refl _ s)
    exact ⟨hs.clk rfl, hs.freeCtr rfl, hs.selRegs rfl, hs.mem rfl, hs.bus rfl, hs.flumeUp rfl, hs.lanes rfl, hs.macros rfl,
      hs.mcast rfl, hs.rings rfl, hs.inflight rfl, hs.deck rfl, hs.path rfl, hs.queues rfl, hs.deficit rfl, hs.qbucket rfl,
      hs.meters rfl, hs.late rfl, hs.unsettled rfl, hs.wood rfl, hs.eastq rfl, hs.hitq rfl, hs.tally rfl, hs.hbm rfl,
      hs.host rfl, hs.fire rfl, hs.forester rfl, hs.mram rfl, hs.fuses rfl, hs.ppsHigh rfl, hs.rst rfl⟩
  case extraHello =>
    intro _ s t ht
    have hs := execExtraHello_same (.refl _) ht (.refl _ s)
    exact ⟨hs.clk rfl, hs.freeCtr rfl, hs.selRegs rfl, hs.mem rfl, hs.bus rfl, hs.flumeUp rfl, hs.lanes rfl, hs.macros rfl,
      hs.mcast rfl, hs.rings rfl, hs.inflight rfl, hs.deck rfl, hs.path rfl, hs.queues rfl, hs.deficit rfl, hs.qbucket rfl,
      hs.meters rfl, hs.late rfl, hs.unsettled rfl, hs.wood rfl, hs.eastq rfl, hs.hitq rfl, hs.tally rfl, hs.hbm rfl,
      hs.host rfl, hs.fire rfl, hs.forester rfl, hs.mram rfl, hs.fuses rfl, hs.ppsHigh rfl, hs.rst rfl⟩
  case helloRx => exact fun _ _ s t ht => (execHelloRx_same (.refl _) ht (.refl _ s)).eq_graft
  case dead => exact fun _ s t ht => (execNeighbourDead_same (.refl _) ht (.refl _ s)).eq_graft
  case recompute => exact fun _ s t ht => (execEwRecompute_same (.refl _) ht (.refl _ s)).eq_graft
  case lapse => exact fun _ s t ht => (execPeerHoldLapse_same (.refl _) ht (.refl _ s)).eq_graft
  case enable =>
    intro req v s t hw ht
    refine (State.Same.run_one (m := 0x4000000090) ht (State.regWrite_now_same (.of rfl (.refl _)) (by decide) hw ?_)).eq_graft
    rw [State.writeAt_rfCtrl]
    exact State.raftCtrlWrite_same (.of rfl (.refl _)) _ _ (.refl _ s)

end Sys2Proof.Machine
end

section
/-! SUPPORT AND PROOF. What the commands of the SCHEDULER do when their conditions hold (09_queues_forwarding.md R271 to R273,
R279, R280): one theorem for each clause of O42, the last of them where the frame store is canonical, and a state whose store
is not, in which that clause fails. -/

namespace Sys2Proof.Machine

/-! ### Selection (R271, R272) -/

/-- A round that starts at an eligible class slot with deficit left ends there (R272). -/
theorem dwrr_first {ok : Nat → Bool} {quantum : Nat → Nat} {base c : Nat} {d : AMap Int} (n : Nat) (hok : ok c = true)
    (hd : 0 < AMap.get 0 d (base + c)) : dwrr ok quantum base (n + 1) c d = some (c, d) := by
  simp [dwrr, hok, hd]

/-- The slot that the round of the highest level stands at is selected while it is eligible with deficit left (R272). -/
theorem State.select_first {s : State} {p pri c : Nat} (htop : s.topLevel p 8 = some pri)
    (hptr : AMap.get 0 (s.schedOf p).ptr pri = c) (hpri : fld (s.scQ (32 * p + c)) 0 3 = pri)
    (helig : s.eligible (32 * p + c) = true) (hdef : 0 < AMap.get 0 s.deficit (32 * p + c)) :
    s.select p = (s.setSched p { s.schedOf p with ptr := AMap.set 0 (s.schedOf p).ptr pri c }).startHead p (32 * p + c) := by
  subst hptr
  simp only [State.select, htop]
  rw [dwrr_first 65535 (by simp [hpri, helig]) hdef]

@[simp] theorem State.toStage_queue (s : State) (sl key i q : Nat) : (s.toStage sl key i).queue q = s.queue q := rfl
@[simp] theorem State.toStage_schedOf (s : State) (sl key i p : Nat) : (s.toStage sl key i).schedOf p = s.schedOf p := rfl

/-- The head of a queue, of a ring that has not expired and with no fault found, enters the start FIFO and the first egress
stage (R271). -/
theorem State.startHead_good {s : State} {p q i : Nat} {is : List Nat} (hq : s.queue q = i :: is)
    (hring : (s.ringRec (s.frame i).ring).expired = false) (hbad : (s.frame i).bad = 0) :
    s.startHead p q = (((s.setQueue q is).setSched p { s.schedOf p with fifo := (s.schedOf p).fifo ++ [i] }).setFrame i
      { s.frame i with fin := false }).toStage (portSlice p) (stageKey .egress 0) i := by
  simp [State.startHead, hq, hring, hbad]

/-- SCHEDULE: the head of the queue that the round selects enters the start FIFO of its port (R271, R272). -/
theorem exec_schedule {s : State} {p : Port} {pri c i : Nat} {is : List Nat} (hlive : s.live = true)
    (hup : s.sliceUp (portSlice p.val) = true) (hdeck : s.deckUp (portHalf p.val) = true) (hmay : s.mayStart p.val = true)
    (htop : s.topLevel p.val 8 = some pri) (hptr : AMap.get 0 (s.schedOf p.val).ptr pri = c)
    (hpri : fld (s.scQ (32 * p.val + c)) 0 3 = pri) (helig : s.eligible (32 * p.val + c) = true)
    (hdef : 0 < AMap.get 0 s.deficit (32 * p.val + c)) (hq : s.queue (32 * p.val + c) = i :: is)
    (hring : (s.ringRec (s.frame i).ring).expired = false) (hbad : (s.frame i).bad = 0) :
    ∃ t, exec (.schedule p) s = .next t ∧ t.queue (32 * p.val + c) = is
      ∧ (t.schedOf p.val).fifo = (s.schedOf p.val).fifo ++ [i] := by
  have hhead := State.startHead_good (p := p.val) (q := 32 * p.val + c)
    (s := s.setSched p.val { s.schedOf p.val with ptr := AMap.set 0 (s.schedOf p.val).ptr pri c }) hq hring hbad
  refine ⟨_, State.run_onlyIf (b := fun s => s.sliceUp (portSlice p.val) && s.deckUp (portHalf p.val) && s.mayStart p.val)
    (f := (·.select p.val)) hlive (by simp [hup, hdeck, hmay]), ?_⟩
  rw [State.select_first htop hptr hpri helig hdef, hhead]
  simp

/-! ### The MAC takes a frame (R271, R276) -/

@[simp] theorem State.beginTx_schedOf (s : State) (p i : Nat) (late : Bool) :
    (s.beginTx p i late).schedOf p = { s.schedOf p with fifo := (s.schedOf p).fifo.drop 1, tx := some i } := by
  simp only [State.beginTx]
  split <;> simp

@[simp] theorem State.beginTx_started (s : State) (p i : Nat) (late : Bool) : ((s.beginTx p i late).frame i).started = true := by
  simp [State.beginTx]

/-- MAC_START: the first frame of the start FIFO, all of it here and rebuilt, is in transmission (R271). -/
theorem exec_macStart {s : State} {p : Port} {i : Nat} {is : List Nat} {g : Frame} (late : Bool) (hlive : s.live = true)
    (hup : s.sliceUp (portSlice p.val) = true) (hls : (s.schedOf p.val).ls = .up) (htx : (s.schedOf p.val).tx = none)
    (hfifo : (s.schedOf p.val).fifo = i :: is) (hbuilt : (s.frame i).built = true) (hbad : (s.frame i).bad = 0)
    (hhere : s.allHere (s.frame i) = true) (hpfc : (AMap.get {} s.pfcTx p.val).due = [])
    (hreb : s.rebuild p.val (s.frame i) = .inl g) :
    ∃ t, exec (.macStart p late) s = .next t ∧ (t.schedOf p.val).tx = some i ∧ (t.schedOf p.val).fifo = is
      ∧ (t.frame i).started = true := by
  have hstart : s.macStart p.val late = (s.setFrame i g).beginTx p.val i late := by
    simp [State.macStart, htx, hfifo, hbuilt, hpfc, hbad, hhere, hreb]
  refine ⟨_, State.run_onlyIf (b := fun s => s.sliceUp (portSlice p.val) && decide ((s.schedOf p.val).ls = .up))
    (f := (·.macStart p.val late)) hlive (by simp [hup, hls]), ?_⟩
  rw [hstart]
  simp [hfifo]

/-! ### LINK_HOLD (R279) -/

@[simp] theorem State.clearQueues_schedOf (s : State) (p n r : Nat) : (s.clearQueues p n).schedOf r = s.schedOf r := by
  unfold State.schedOf
  rw [(State.clearQueues_same (State.Sub.refl _) s p n (State.Same.refl _ s)).sched rfl]

/-- A queue that was empty stays so, and each of the port's first n becomes so. -/
theorem State.clearQueues_queue (s : State) {p n c : Nat} (h : c < n ∨ s.queue (32 * p + c) = []) :
    (s.clearQueues p n).queue (32 * p + c) = [] := by
  induction n generalizing s with
  | zero => exact h.resolve_left (Nat.not_lt_zero c)
  | succ n ih =>
    refine ih _ ?_
    show c < n ∨ (s.setQueue (32 * p + n) []).queue (32 * p + c) = []
    by_cases hc : c = n
    · right; simp [hc]
    · rw [State.queue_setQueue_ne _ _ (by omega)]
      exact h.imp (by omega) id

theorem State.mem_portFrames {s : State} {p n c i : Nat} (hc : c < n) (hi : i ∈ s.queue (32 * p + c)) :
    i ∈ s.portFrames p n := by
  induction n with
  | zero => omega
  | succ n ih =>
    rcases Nat.lt_succ_iff_lt_or_eq.1 hc with h | rfl
    · exact List.mem_append_left _ (ih h)
    · exact List.mem_append_right _ hi

/-- LINK_HOLD_EXPIRE: the port is DOWN, its queues are empty, and what they held is marked for the drop engine (R279, R280). -/
theorem exec_linkHoldExpire {s : State} {p : Port} (hlive : s.live = true) (hls : (s.schedOf p.val).ls = .hold)
    (hend : (s.schedOf p.val).holdAt + s.linkHold p.val ≤ s.now) :
    ∃ t, exec (.linkHoldExpire p) s = .next t ∧ (t.schedOf p.val).ls = .down
      ∧ ∀ c, c < 32 → t.queue (32 * p.val + c) = []
        ∧ ∀ i ∈ s.queue (32 * p.val + c), i ∈ (t.schedOf p.val).flushed := by
  refine ⟨_, State.run_onlyIf (b := fun s => decide ((s.schedOf p.val).ls = .hold)
    && decide ((s.schedOf p.val).holdAt + s.linkHold p.val ≤ s.now)) (f := (·.portDown p.val)) hlive (by simp [hls, hend]),
    by simp [State.portDown], fun c hc => ⟨?_, fun i hi => ?_⟩⟩
  · simpa [State.portDown] using State.clearQueues_queue s (.inl hc)
  · simp [State.portDown, State.mem_portFrames hc hi]

/-! ### The last byte (R273) -/

theorem State.msix_out (s : State) (v : Nat) : s.out <+: (s.msix v).out := by
  simp only [State.msix]
  split
  · exact List.prefix_rfl
  · split
    · exact List.prefix_append _ _
    · exact List.prefix_rfl

theorem State.hqSignal_out (s : State) (i : Nat) : s.out <+: (s.hqSignal i).out := by
  unfold State.hqSignal
  exact State.msix_out (s.setHq i _) _

theorem State.hqCompleted_out (s : State) (i : Nat) (irq : Bool) : s.out <+: (s.hqCompleted i irq).out := by
  unfold State.hqCompleted
  extract_lets q q' w pend s'
  have hs : s'.out = s.out := State.setHq_out _ _ _
  rw [← hs]
  split
  · exact State.hqSignal_out s' i
  · exact List.prefix_rfl

theorem State.putNotice_out {s t : State} {ws : List Word} (h : s.putNotice ws = some t) : s.out <+: t.out := by
  unfold State.putNotice at h
  extract_lets q a s1 s2 s3 s4 at h
  split at h
  · obtain rfl := Option.some.inj h
    have hsent : s4.out = s.out ++ [_] ++ [_] := rfl
    refine List.IsPrefix.trans ?_ (State.hqCompleted_out s4 152 false)
    rw [hsent, List.append_assoc]
    exact List.prefix_append _ _
  · cases h

/-- A notice, written or lost, takes back nothing that was sent. -/
theorem State.notice_out (s : State) (ws : List Word) (pg o : Nat) : s.out <+: (s.notice ws pg o).out := by
  unfold State.notice
  split
  · next t ht => exact State.putNotice_out ht
  · exact List.prefix_rfl

theorem State.ptpEnd_out (s : State) (p : Nat) (f : Frame) (stomped : Bool) : s.out <+: (s.ptpEnd p f stomped).out := by
  unfold State.ptpEnd
  split
  · exact List.prefix_rfl
  · split
    · exact List.prefix_rfl
    · split
      · exact State.notice_out _ _ _ _
      · exact List.prefix_rfl

/-- What follows the sending of a frame, its PTP accounts, its end and a loop back, takes back nothing that was sent. -/
theorem State.sentEnd_out (s old : State) (p i reason sent : Nat) (f : Frame) (stomped : Bool) :
    s.out <+: (((s.ptpEnd p f stomped).finishTx p i reason sent).loopBack old p).out := by
  rw [(State.loopBack_same (.refl _) _ old p (.refl _ _)).out rfl,
    (State.finishTx_same (.refl _) _ p i reason sent (.refl _ _)).out rfl]
  exact State.ptpEnd_out s p f stomped

/-- None of it enters the stream of a span. -/
theorem State.sentEnd_span (s old : State) (p i reason sent : Nat) (f : Frame) (stomped : Bool) (q : Nat) :
    (((s.ptpEnd p f stomped).finishTx p i reason sent).loopBack old p).span q = s.span q := by
  unfold State.span
  rw [(State.loopBack_same (.refl _) _ old p (.refl _ _)).spans rfl,
    (State.finishTx_same (.refl _) _ p i reason sent (.refl _ _)).spans rfl,
    (State.ptpEnd_same (.refl _) s p f stomped (.refl _ _)).spans rfl]

/-- On a span port a frame enters the stream of its position (R273). -/
theorem State.sendFrame_span {s : State} {p : Nat} (out : List Byte) (stomped : Bool) (h : s.isSpan p = true) :
    ((s.sendFrame p out stomped).span (spanPos p)).txq = (s.span (spanPos p)).txq ++ [(out, stomped)] := by
  simp [State.sendFrame, h]

/-- On another port that sends, it is sent (R273). -/
theorem State.sendFrame_out {s : State} {p : Nat} (out : List Byte) (h : ¬ s.isSpan p = true) (hsends : s.portSends p = true) :
    .frame p out false ∈ (s.sendFrame p out false).out := by
  rw [State.sendFrame, if_neg h, State.transmit, hsends]
  exact List.mem_append_right _ (List.mem_singleton.2 rfl)

/-- The count of relays is in no register of a slice. -/
theorem State.relaySent_reg (s : State) (f : Frame) (p : Port) (sl k o : Nat) :
    (s.relaySent f p.val).reg (slicePage sl k) o = s.reg (slicePage sl k) o := by
  have hp := p.isLt
  unfold State.relaySent
  split
  · apply State.setReg64_reg_ne
    all_goals
      simp only [regKey, slicePage, pgHalf, halfPage, portHalf, Reg.rfRelayed]
      omega
  · rfl

@[simp] theorem State.relaySent_port (s : State) (f : Frame) (p q : Nat) : (s.relaySent f p).port q = s.port q := by
  unfold State.relaySent
  split <;> rfl

@[simp] theorem State.relaySent_lane (s : State) (f : Frame) (p q : Nat) : (s.relaySent f p).lane q = s.lane q := by
  unfold State.relaySent
  split <;> rfl

@[simp] theorem State.relaySent_pllLocked (s : State) (f : Frame) (p q : Nat) : (s.relaySent f p).pllLocked q = s.pllLocked q := by
  unfold State.relaySent
  split <;> rfl

@[simp] theorem State.relaySent_span (s : State) (f : Frame) (p q : Nat) : (s.relaySent f p).span q = s.span q := by
  unfold State.relaySent
  split <;> rfl

@[simp] theorem State.relaySent_isSpan (s : State) (f : Frame) (p q : Nat) : (s.relaySent f p).isSpan q = s.isSpan q := by
  unfold State.relaySent
  split <;> rfl

/-- The count of relays changes nothing that the transmitter of a lane looks at. -/
theorem State.relaySent_laneSends (s : State) (f : Frame) (p : Port) (q l : Nat) :
    (s.relaySent f p.val).laneSends q l = s.laneSends q l := by
  have hrst := (State.relaySent_same (.refl _) s f p.val (.refl _ s)).rst rfl
  unfold State.laneSends State.portCtrl
  simp only [State.relaySent_port, State.relaySent_lane, State.relaySent_pllLocked, State.relaySent_isSpan,
    State.relaySent_reg, hrst]

theorem State.relaySent_portSends (s : State) (f : Frame) (p : Port) (q : Nat) :
    (s.relaySent f p.val).portSends q = s.portSends q := by
  unfold State.portSends State.portLanes
  simp only [State.relaySent_laneSends, State.relaySent_port]

/-- A good frame that is rebuilt whole leaves with its PTP fields written (R273). -/
theorem State.txLast_good {s : State} {p i : Nat} (htx : (s.schedOf p).tx = some i) (hbad : (s.frame i).bad = 0)
    (hhere : s.allHere (s.frame i) = true) (hout : (s.frame i).out ≠ []) (hlate : (s.frame i).late = false) :
    ∃ f, s.txLast p = ((((s.setFrame i f).relaySent f p).sendFrame p (s.frame i).ptpOut false).ptpEnd p f false).finishTx p i 0
      (s.frame i).ptpOut.length := by
  have htail : (s.frame i).tail = true := (Bool.and_eq_true_iff.1 hhere).1
  refine ⟨{ s.frame i with out := (s.frame i).ptpOut }, ?_⟩
  simp [State.txLast, htx, hlate, htail, hhere, State.txBuild, hout, hbad, Frame.completeOut]

/-- TX_LAST_BYTE: a frame rebuilt whole leaves, on a span port into the stream of its position, on another that sends on its
lanes (R273). -/
theorem exec_txLastByte {s : State} {p : Port} {i : Nat} (hlive : s.live = true) (hup : s.sliceUp (portSlice p.val) = true)
    (htx : (s.schedOf p.val).tx = some i) (hbad : (s.frame i).bad = 0) (hhere : s.allHere (s.frame i) = true)
    (hout : (s.frame i).out ≠ []) (hlate : (s.frame i).late = false) :
    ∃ t, exec (.txLastByte p) s = .next t ∧ (if s.isSpan p.val = true then
        (t.span (spanPos p.val)).txq = (s.span (spanPos p.val)).txq ++ [((s.frame i).ptpOut, false)]
      else s.portSends p.val = true → .frame p.val (s.frame i).ptpOut false ∈ t.out) := by
  obtain ⟨f, hlast⟩ := State.txLast_good htx hbad hhere hout hlate
  refine ⟨_, State.run_onlyIf (b := fun s => s.sliceUp (portSlice p.val)) (f := fun s => (s.txLast p.val).loopBack s p.val)
    hlive hup, ?_⟩
  rw [hlast]
  have hspan : ((s.setFrame i f).relaySent f p.val).isSpan p.val = s.isSpan p.val := State.relaySent_isSpan _ _ _ _
  have hsends : ((s.setFrame i f).relaySent f p.val).portSends p.val = s.portSends p.val := State.relaySent_portSends _ _ _ _
  split
  · next h =>
    rw [State.keepQueue_span, State.sentEnd_span, State.sendFrame_span _ _ (hspan.trans h), State.relaySent_span,
      State.setFrame_span]
  · next h =>
    exact fun hs => (State.sentEnd_out _ s _ _ _ _ _ _).subset (State.sendFrame_out _ (hspan ▸ h) (hsends.trans hs))

/-! ### The drop engine ends, where the frame store is canonical (R280) -/

/-- LINK_FLUSH_DONE where the drop engine runs (R280). -/
theorem exec_linkFlushDone {s : State} {p : Port} (hlive : s.live = true) (hf : (s.schedOf p.val).flushing = true) :
    exec (.linkFlushDone p) s = .next ((s.flushDone p.val).keepQueue s) :=
  State.run_onlyIf (b := fun s => (s.schedOf p.val).flushing) (f := (·.flushDone p.val)) hlive hf

/-- A canonical map reads at each of its entries what the entry holds. -/
theorem AMap.le_and_get_of_wfFrom {β : Type} [DecidableEq β] {d : Nat → β} {d' : β} {m : AMap β} {a : Nat}
    (h : AMap.wfFrom d a m = true) {e : Nat × β} (he : e ∈ m) : a ≤ e.1 ∧ AMap.get d' m e.1 = e.2 := by
  induction m generalizing a with
  | nil => cases he
  | cons x m ih =>
    simp only [AMap.wfFrom, Bool.and_eq_true, decide_eq_true_eq] at h
    obtain ⟨⟨ha, -⟩, hm⟩ := h
    rcases List.mem_cons.1 he with rfl | he
    · exact ⟨ha, by simp [AMap.get]⟩
    · obtain ⟨hlt, hget⟩ := ih hm he
      exact ⟨by omega, by rw [AMap.get, if_neg (by omega), hget]⟩

/-- The frame that the search for a cell's holder finds in a canonical store is there (R243). -/
theorem State.holderOf_stored {s : State} {h c i : Nat} (hwf : AMap.wf (fun _ => (none : Option Frame)) s.frames = true)
    (hi : s.holderOf h c = some i) : AMap.get none s.frames i = some (s.frame i) := by
  unfold State.holderOf at hi
  obtain ⟨e, he, rfl⟩ := Option.map_eq_some_iff.1 hi
  have hget := (AMap.le_and_get_of_wfFrom (d' := none) hwf (List.mem_of_find?_eq_some he)).2
  have hp := List.find?_some he
  obtain ⟨k, x⟩ := e
  cases x with
  | none => simp at hp
  | some f => simp only [State.frame] at hget ⊢; rw [hget]; rfl

theorem State.setFrame_stored (s : State) (i : Nat) (f : Frame) :
    (s.setFrame i f).frames = AMap.set none s.frames i (some f) := rfl
theorem State.endFrame_stored (s : State) (i : Nat) : (s.endFrame i).frames = AMap.set none s.frames i none := rfl

/-- What drops leave of a port's drop engine: whether it runs, and the frames it has to end. -/
def SchedS.engine (x : SchedS) : Bool × List Nat := (x.flushing, x.flushed)

/-- Giving up leaves its place in the start FIFO and at the requester, then frees the frame's cells or settles its master. -/
theorem State.giveUp_eq (s : State) (i : Nat) (f : Frame) (rq : Nat) :
    ∃ t : State, t.frames = s.frames ∧ (∀ p, (t.schedOf p).engine = (s.schedOf p).engine)
      ∧ ((f.master = none ∧ s.giveUp i f rq = t.releaseCells f rq)
        ∨ ∃ m g, f.master = some m ∧ s.giveUp i f rq = (t.setFrame m g).settleMaster m) := by
  unfold State.giveUp
  extract_lets s1 x s2
  have hframes : s2.frames = s.frames := by simp only [s2]; split <;> rfl
  have hengine : ∀ p, (s2.schedOf p).engine = (s.schedOf p).engine := fun p => by
    simp only [s2]
    split
    · by_cases hp : p = f.q / 32
      · subst hp
        rw [State.schedOf_setSched]
        rfl
      · rw [State.schedOf_setSched_ne _ _ hp]
        rfl
    · rfl
  split
  · next hm => exact ⟨s2, hframes, hengine, .inl ⟨hm, rfl⟩⟩
  · next m hm =>
    refine ⟨if f.enq then s2.setDeck f.half ((s2.deckOf f.half).unchargeQueue f.q f.need) else s2, ?_, fun p => ?_,
      .inr ⟨m, _, hm, rfl⟩⟩
    · split
      · exact hframes
      · exact hframes
    · split
      · exact hengine p
      · exact hengine p

/-- While the drop engine works on the frames of l: the frame store is canonical, none of l is the master of another, and those
of g are gone for good. -/
structure State.Flushing (l g : List Nat) (s : State) : Prop where
  maps : AMap.wf (fun _ => (none : Option Frame)) s.frames = true
  apart : ∀ i ∈ l, ∀ j ∈ l, (s.frame i).master ≠ some j
  sub : g ⊆ l
  gone : ∀ i ∈ g, AMap.get none s.frames i = none

theorem State.Flushing.of_frames {l g : List Nat} {s t : State} (hs : State.Flushing l g s) (h : t.frames = s.frames) :
    State.Flushing l g t := by
  obtain ⟨hmaps, hapart, hsub, hgone⟩ := hs
  unfold State.frame at hapart
  rw [← h] at hmaps hapart hgone
  exact ⟨hmaps, hapart, hsub, hgone⟩

theorem State.Flushing.setFrame {l g : List Nat} {s : State} (hs : State.Flushing l g s) {i : Nat} (f : Frame) (hg : i ∉ g)
    (hf : i ∈ l → f.master = (s.frame i).master) : State.Flushing l g (s.setFrame i f) where
  maps := by
    rw [State.setFrame_stored]
    exact AMap.wf_set (d := fun _ => none) _ _ hs.maps
  apart j hj k hk := by
    by_cases hji : j = i
    · subst hji
      rw [State.frame_setFrame, hf hj]
      exact hs.apart j hj k hk
    · rw [State.frame_setFrame_ne _ _ hji]
      exact hs.apart j hj k hk
  sub := hs.sub
  gone j hj := by
    have hji : j ≠ i := fun h => hg (h ▸ hj)
    rw [State.setFrame_stored, AMap.get_set_ne _ _ _ _ hji, hs.gone j hj]

/-- A frame that is there may lose what it holds. -/
theorem State.Flushing.setStored {l g : List Nat} {s : State} (hs : State.Flushing l g s) {i : Nat} (f : Frame)
    (hi : AMap.get none s.frames i = some (s.frame i)) (hf : f.master = (s.frame i).master) :
    State.Flushing l g (s.setFrame i f) :=
  hs.setFrame f (fun h => by simp [hs.gone i h] at hi) (fun _ => hf)

theorem State.Flushing.endFrame {l g : List Nat} {s : State} (hs : State.Flushing l g s) (i : Nat) :
    State.Flushing l g (s.endFrame i) where
  maps := by
    rw [State.endFrame_stored]
    exact AMap.wf_set (d := fun _ => none) _ _ hs.maps
  apart j hj k hk := by
    have h := hs.apart j hj k hk
    unfold State.frame at h ⊢
    rw [State.endFrame_stored]
    by_cases hji : j = i
    · subst hji; simp
    · rwa [AMap.get_set_ne _ _ _ _ hji]
  sub := hs.sub
  gone j hj := by
    rw [State.endFrame_stored]
    by_cases hji : j = i
    · subst hji; simp
    · rw [AMap.get_set_ne _ _ _ _ hji, hs.gone j hj]

/-- A frame of l that ends is gone. -/
theorem State.Flushing.endGone {l g : List Nat} {s : State} (hs : State.Flushing l g s) {i : Nat} (hi : i ∈ l) :
    State.Flushing l (i :: g) (s.endFrame i) where
  maps := (hs.endFrame i).maps
  apart := (hs.endFrame i).apart
  sub := List.cons_subset.2 ⟨hi, hs.sub⟩
  gone j hj := by
    rcases List.mem_cons.1 hj with rfl | hj
    · simp [State.endFrame]
    · exact (hs.endFrame i).gone j hj

/-- The frame that loses a cell is the only one that changes. -/
theorem State.loseCell_frames (s : State) (i cell : Nat) : (s.loseCell i cell).frames
    = (s.setFrame i { s.frame i with cells := (s.frame i).cells.filter (fun c => decide (c ≠ cell)) }).frames := by
  simp only [State.loseCell]
  refine ((State.pfcSub_same (.refl _) _ _ _ 1 (.refl _ _)).frames rfl).trans ?_
  split
  · rfl
  · split
    · rfl
    · split <;> rfl

theorem State.Flushing.freeStray {l g : List Nat} {s : State} (hs : State.Flushing l g s) (h rq cell tag : Nat) :
    State.Flushing l g (s.freeStray h rq cell tag) := by
  simp only [State.freeStray]
  refine State.Flushing.of_frames ?_ ((State.freeCell_same (.refl _) _ h rq cell tag (.refl _ _)).frames rfl)
  split
  · next i hwho =>
    have hi : AMap.get none s.frames i = some (s.frame i) := by
      split at hwho
      · exact State.holderOf_stored hs.maps hwho
      · cases hwho
    have hlost : State.Flushing l g (s.loseCell i cell) := by
      refine State.Flushing.of_frames ?_ (State.loseCell_frames s i cell)
      exact hs.setStored _ hi rfl
    have hget : AMap.get none (s.loseCell i cell).frames i = some ((s.loseCell i cell).frame i) := by
      simp [State.frame, State.loseCell_frames, State.setFrame_stored]
    exact hlost.setStored _ hget rfl
  · exact hs

theorem State.Flushing.freeStrays {l g : List Nat} {s : State} (hs : State.Flushing l g s) (h rq tag : Nat) (cs : List Nat) :
    State.Flushing l g (s.freeStrays h rq tag cs) := by
  induction cs generalizing s with
  | nil => exact hs
  | cons c cs ih => exact ih (hs.freeStray h rq c tag)

theorem State.Flushing.releaseCells {l g : List Nat} {s : State} (hs : State.Flushing l g s) (f : Frame) (rq : Nat) :
    State.Flushing l g (s.releaseCells f rq) := by
  simp only [State.releaseCells]
  apply State.Flushing.freeStrays
  have h1 : State.Flushing l g (s.freeCells f.half rq f.tag f.cells) :=
    hs.of_frames ((State.freeCells_same (.refl _) s f.half rq f.tag f.cells (.refl _ s)).frames rfl)
  generalize s.freeCells f.half rq f.tag f.cells = s1 at h1
  have h2 : State.Flushing l g (if 0x4000 ≤ f.tag ∧ f.tag < 0x8000 then
      s1.setDeck f.half ((s1.deckOf f.half).unchargeQueue f.q f.cells.length) else s1) := by
    split
    · exact h1.of_frames rfl
    · exact h1
  split
  · exact h2
  · exact h2.of_frames ((State.pfcSub_same (.refl _) _ f.half f _ (.refl _ _)).frames rfl)

theorem State.Flushing.settleMaster {l g : List Nat} {s : State} (hs : State.Flushing l g s) (m : Nat) :
    State.Flushing l g (s.settleMaster m) := by
  simp only [State.settleMaster]
  split
  · exact (hs.releaseCells _ _).endFrame m
  · exact hs

/-- A frame of l gives up what it holds: its master, which is none of l, may end. -/
theorem State.Flushing.giveUp {l g : List Nat} {s : State} (hs : State.Flushing l g s) {i : Nat} (hi : i ∈ l) (rq : Nat) :
    State.Flushing l g (s.giveUp i (s.frame i) rq) := by
  obtain ⟨t, hframes, -, ⟨-, ht⟩ | ⟨m, f, hm, ht⟩⟩ := State.giveUp_eq s i (s.frame i) rq
  · rw [ht]
    exact (hs.of_frames hframes).releaseCells _ _
  · have hml : m ∉ l := fun h => hs.apart i hi m h hm
    rw [ht]
    exact ((hs.of_frames hframes).setFrame f (fun h => hml (hs.sub h)) (fun h => absurd h hml)).settleMaster m

/-- A drop is what giving up does, then counts and accounts, then the end of the frame. -/
theorem State.dropQueued_eq (s : State) (i reason : Nat) : ∃ t, s.dropQueued i reason = t.endFrame i
    ∧ State.Same 0x8310440010 (s.giveUp i (s.frame i) (dropRq reason)) t := by
  refine ⟨_, rfl, ?_⟩
  have h1 := State.Same.refl 0x8310440010 (s.giveUp i (s.frame i) (dropRq reason))
  have h2 := State.Same.ite (c := (s.frame i).enq = true)
    (State.settleDeficit_same (.of rfl (.refl _)) _ (s.frame i).q h1) h1
  refine State.endHolder_same (.of rfl (.refl _)) _ _ _ ?_
  split
  · exact State.accountUnit_same (.of rfl (.refl _)) _ _ _ _ h2
  · split
    · have h3 := State.raise_same (.of rfl (.refl _)) _ (pgTally (portHalf (s.frame i).src)) 5
        (State.count_same (.of rfl (.refl _)) _ (pgTally (portHalf (s.frame i).src)) Reg.tyXlostMsgs 1 h2)
      exact State.Same.ite (State.countInjDrop_same (.of rfl (.refl _)) _ _ h3) h3
    · exact State.countInjDrop_same (.of rfl (.refl _)) _ _ h2

/-- A frame of l is dropped. -/
theorem State.Flushing.dropQueued {l g : List Nat} {s : State} (hs : State.Flushing l g s) {i : Nat} (hi : i ∈ l)
    (reason : Nat) :
    State.Flushing l (i :: g) (s.dropQueued i reason) := by
  obtain ⟨t, ht, hsame⟩ := State.dropQueued_eq s i reason
  rw [ht]
  exact ((hs.giveUp hi _).of_frames (hsame.frames rfl)).endGone hi

theorem State.Flushing.dropQueuedAll {l g : List Nat} {s : State} (hs : State.Flushing l g s) (reason : Nat) {ids : List Nat}
    (hids : ids ⊆ l) : State.Flushing l (ids.reverse ++ g) (s.dropQueuedAll reason ids) := by
  induction ids generalizing g s with
  | nil => exact hs
  | cons i ids ih =>
    obtain ⟨hi, hids⟩ := List.cons_subset.1 hids
    rw [List.reverse_cons, List.append_assoc]
    exact ih (hs.dropQueued hi reason) hids

@[simp] theorem State.giveUp_engine (s : State) (i : Nat) (f : Frame) (rq p : Nat) :
    ((s.giveUp i f rq).schedOf p).engine = (s.schedOf p).engine := by
  obtain ⟨t, -, hengine, ⟨-, ht⟩ | ⟨m, g, -, ht⟩⟩ := State.giveUp_eq s i f rq
  · rw [← hengine, ht, State.schedOf, (State.releaseCells_same (.refl _) t f rq (.refl _ t)).sched rfl]
    rfl
  · rw [← hengine, ht, State.schedOf, (State.settleMaster_same (.refl _) _ m (.refl _ _)).sched rfl]
    rfl

theorem State.dropQueuedAll_engine (s : State) (reason : Nat) (ids : List Nat) (p : Nat) :
    ((s.dropQueuedAll reason ids).schedOf p).engine = (s.schedOf p).engine := by
  induction ids generalizing s with
  | nil => rfl
  | cons i ids ih =>
    obtain ⟨t, ht, hsame⟩ := State.dropQueued_eq s i reason
    refine (ih _).trans ?_
    rw [ht, ← State.giveUp_engine s i (s.frame i) (dropRq reason) p, State.endFrame_schedOf, State.schedOf, hsame.sched rfl]
    rfl

theorem State.flushDone_engine (s : State) (p : Nat) : ((s.flushDone p).schedOf p).engine = (false, []) := by
  simp only [State.flushDone, State.raiseIf_schedOf, State.count64_schedOf, State.dropQueuedAll_engine, State.schedOf_setSched]
  rfl

/-- The drop engine leaves no marked frame, in a canonical store and when none is the master of another. -/
theorem State.flushDone_frames {s : State} {p i : Nat} (hwf : AMap.wf (fun _ => (none : Option Frame)) s.frames = true)
    (hapart : ∀ i ∈ (s.schedOf p).flushed, ∀ j ∈ (s.schedOf p).flushed, (s.frame i).master ≠ some j)
    (hi : i ∈ (s.schedOf p).flushed) : AMap.get none (s.flushDone p).frames i = none := by
  have hgone : ∀ j ∈ (s.schedOf p).flushed.filter (fun j => (AMap.get none s.frames j).isNone),
      AMap.get none s.frames j = none := fun j hj => Option.isNone_iff_eq_none.1 (List.mem_filter.1 hj).2
  have hs : State.Flushing (s.schedOf p).flushed _ s := ⟨hwf, hapart, fun _ h => (List.mem_filter.1 h).1, hgone⟩
  have hs' : State.Flushing (s.schedOf p).flushed _ (s.setSched p { s.schedOf p with flushing := false, flushed := [] }) :=
    hs.of_frames rfl
  have hdone := hs'.dropQueuedAll rLinkFlush (ids := (s.schedOf p).flushed.filter (fun i => (AMap.get none s.frames i).isSome))
    (fun _ h => (List.mem_filter.1 h).1)
  simp only [State.flushDone, State.raiseIf_frames, State.count64_frames]
  apply hdone.gone
  cases h : AMap.get none s.frames i <;> simp [hi, h]

/-- LINK_FLUSH_DONE, where the frame store is canonical: no marked frame is left, when none is the master of another (R280). -/
theorem exec_linkFlushDone_canonical {s : State} {p : Port} (hlive : s.live = true) (hf : (s.schedOf p.val).flushing = true)
    (hwf : AMap.wf (fun _ => (none : Option Frame)) s.frames = true) :
    ∃ t, exec (.linkFlushDone p) s = .next t ∧ (t.schedOf p.val).flushing = false ∧ (t.schedOf p.val).flushed = []
      ∧ ((∀ i ∈ (s.schedOf p.val).flushed, ∀ j ∈ (s.schedOf p.val).flushed, (s.frame i).master ≠ some j) →
        ∀ i ∈ (s.schedOf p.val).flushed, AMap.get none t.frames i = none) := by
  obtain ⟨hflushing, hflushed⟩ := Prod.mk.inj (State.flushDone_engine s p.val)
  exact ⟨_, exec_linkFlushDone hlive hf, hflushing, hflushed, fun hapart i hi => State.flushDone_frames hwf hapart hi⟩

/-! ### Where it is not -/

/-- A frame store that is no canonical map: entry 1 says that frame 1 is gone and hides a second entry, a frame that holds
cell 0. Frame 2 presents cell 0 again, as one that another request freed before; both wait for port 0's drop engine. -/
def shadowedFrame : State :=
  { frames := [(1, none), (1, some { cells := [0] }), (2, some { tag := 5, freed := [0] })]
    deck := ⟨{ tags := [(0, 5)] }, {}⟩
    sched := [(0, { flushing := true, flushed := [1, 2] })] }

/-- The drop of frame 2 takes cell 0 from its holder (R243), which the search finds behind the entry that hides it, and stores
that frame: frame 1, which was gone, is there again. -/
theorem shadowedFrame_returns : AMap.get none (shadowedFrame.flushDone (0 : Port).val).frames 1 ≠ none := by decide

/-- Refutes O42 by its last clause, in a state whose frame store is no canonical map (shadowedFrame): the drop engine ends and
frame 1, which was marked, is left. -/
theorem not_queueCommandsComplete : ¬ Obligations.QueueCommandsComplete := by
  unfold Obligations.QueueCommandsComplete
  intro h
  obtain ⟨-, -, -, -, hflush⟩ := h shadowedFrame rfl
  obtain ⟨t, ht, -, -, hgone⟩ := hflush 0 rfl
  have hmaster : ∀ i ∈ (shadowedFrame.schedOf 0).flushed, ∀ j ∈ (shadowedFrame.schedOf 0).flushed,
      (shadowedFrame.frame i).master ≠ some j := by decide
  rw [exec_linkFlushDone rfl rfl] at ht
  obtain rfl := Host.Outcome.next.inj ht
  have hnone := hgone hmaster 1 (by decide)
  rw [State.keepQueue_frames] at hnone
  exact shadowedFrame_returns hnone

end Sys2Proof.Machine
end

section
/-! SUPPORT AND PROOF. What the commands of RAFT do when their conditions hold (11_raft.md R328, R333, R341, R342, R344):
settings, hellos sent and received, neighbours that fall silent, weights, and holds that lapse. -/

namespace Sys2Proof.Machine

/-! ### Settings (R328) -/

/-- Fields of words that agree bit by bit. -/
theorem fld_congr {a b : Word} {lo n : Nat} (h : ∀ i, lo ≤ i → i < lo + n → bit a i = bit b i) : fld a lo n = fld b lo n := by
  apply Nat.eq_of_testBit_eq
  intro i
  simp only [fld, ← Nat.shiftRight_eq_div_pow, Nat.testBit_mod_two_pow, Nat.testBit_shiftRight]
  by_cases hi : i < n
  · rw [← bit_testBit, ← bit_testBit, h (lo + i) (by omega) (by omega)]
  · simp [hi]

/-- A write that takes effect at once of a register with a lockable field finds its page unlocked. -/
theorem State.WritesNow.unlocked {s : State} {r : Requester} {p o : Nat} {x : RegSpec} (h : s.WritesNow r p o)
    (hx : regSpec p o = some x) (hlk : x.lk ≠ 0) : s.locked p = false := by
  have hopen := h.open_
  simpa [State.lockHits, hx, hlk] using hopen

theorem regSpec_rfCtrl : regSpec (pgHalf 0) Reg.rfCtrl
    = some { off := 0x1000, w := 0xffff0fff, lk := 0xffff0fff, ret := 0xffff0fff, init := 0x20 } := by decide

/-- A write of RF_CTRL on an unlocked page loads every bit but 12 to 15. -/
theorem State.masked_rfCtrl {s : State} (h : s.locked (pgHalf 0) = false) (v : Word) :
    s.masked (pgHalf 0) Reg.rfCtrl v = (s.reg (pgHalf 0) Reg.rfCtrl &&& 0xF000) ||| (v &&& 0xFFFF0FFF) := by
  simp [State.masked, regSpec_rfCtrl, h]

theorem State.bit_masked_rfCtrl {s : State} (h : s.locked (pgHalf 0) = false) (v : Word) {i : Nat} (hi : i < 12 ∨ 16 ≤ i) :
    bit (s.masked (pgHalf 0) Reg.rfCtrl v) i = bit v i := by
  rw [State.masked_rfCtrl h, bit_testBit, bit_testBit]
  by_cases h32 : i < 32
  · have hmask : ∀ j : Fin 32, j.val < 12 ∨ 16 ≤ j.val →
        (0xF000 : Word).toNat.testBit j.val = false ∧ (0xFFFF0FFF : Word).toNat.testBit j.val = true := by decide
    obtain ⟨hkeep, hload⟩ := hmask ⟨i, h32⟩ hi
    simp only [BitVec.toNat_or, BitVec.toNat_and, Nat.testBit_or, Nat.testBit_and, hkeep, hload, Bool.and_false, Bool.and_true,
      Bool.false_or]
  · have hhigh : ∀ w : Word, w.toNat.testBit i = false := fun w =>
      Nat.testBit_lt_two_pow (Nat.lt_of_lt_of_le w.isLt (Nat.pow_le_pow_right (by decide) (by omega)))
    rw [hhigh, hhigh]

@[simp] theorem State.raftPend_reg (s : State) (was : Bool) (p o : Nat) : (s.raftPend was).reg p o = s.reg p o := by
  cases was <;> rfl

/-- A rise of EN takes the settings that RF_CTRL then holds. -/
theorem State.raftCtrlWrite_rise {s : State} {v : Word} (hlock : s.locked (pgHalf 0) = false)
    (hoff : s.rbit (pgHalf 0) Reg.rfCtrl 0 = false) (hon : bit v 0 = true) :
    (s.raftCtrlWrite v).rbit (pgHalf 0) Reg.rfCtrl 0 = true ∧ (s.raftCtrlWrite v).raft.devid = fld v 16 16
      ∧ (s.raftCtrlWrite v).raft.hop = fld v 1 6 := by
  have hreg : ∀ b, ((s.store (pgHalf 0) Reg.rfCtrl v).raftPend b).reg (pgHalf 0) Reg.rfCtrl
      = s.masked (pgHalf 0) Reg.rfCtrl v := fun b => by simp [State.store]
  have hen : bit (s.masked (pgHalf 0) Reg.rfCtrl v) 0 = true := (State.bit_masked_rfCtrl hlock v (.inl (by decide))).trans hon
  have hdev : fld (s.masked (pgHalf 0) Reg.rfCtrl v) 16 16 = fld v 16 16 :=
    fld_congr fun i hlo _ => State.bit_masked_rfCtrl hlock v (.inr hlo)
  have hhop : fld (s.masked (pgHalf 0) Reg.rfCtrl v) 1 6 = fld v 1 6 :=
    fld_congr fun i _ hi => State.bit_masked_rfCtrl hlock v (.inl (by omega))
  have hrise : s.rbit (pgHalf 0) Reg.rfCtrl 0 = false
      ∧ ((s.store (pgHalf 0) Reg.rfCtrl v).raftPend (s.rbit (pgHalf 0) Reg.rfCtrl 0)).rbit (pgHalf 0) Reg.rfCtrl 0 = true :=
    ⟨hoff, (congrArg (bit · 0) (hreg _)).trans hen⟩
  simp only [State.raftCtrlWrite, if_pos hrise]
  exact ⟨hrise.2, (congrArg (fld · 16 16) (hreg _)).trans hdev, (congrArg (fld · 1 6) (hreg _)).trans hhop⟩

/-- RAFT_ENABLE is the West block's own write of RF_CTRL. -/
theorem State.regWrite_rfCtrl {s : State} {r : Requester} (v : Word) (h : s.WritesNow r (pgHalf 0) Reg.rfCtrl) :
    (s.regWrite r (pgHalf 0) Reg.rfCtrl v).regs = (s.raftCtrlWrite v).regs
      ∧ (s.regWrite r (pgHalf 0) Reg.rfCtrl v).raft = (s.raftCtrlWrite v).raft := by
  rw [State.regWrite_now v (by decide) h, State.writeAt_rfCtrl]
  obtain ⟨f, hf⟩ := State.strictEnd_bus (s.raftCtrlWrite v) s r
  rw [hf]
  exact ⟨rfl, rfl⟩

theorem exec_raftEnable_rise {s : State} {req : Requester} {v : Word} (hlive : s.live = true)
    (hw : s.WritesNow req (pgHalf 0) Reg.rfCtrl) (hoff : s.rbit (pgHalf 0) Reg.rfCtrl 0 = false) (hon : bit v 0 = true) :
    ∃ t, exec (.raftEnable req v) s = .next t ∧ t.rbit (pgHalf 0) Reg.rfCtrl 0 = true
      ∧ t.raft.devid = fld v 16 16 ∧ t.raft.hop = fld v 1 6 := by
  obtain ⟨hen, hdev, hhop⟩ := State.raftCtrlWrite_rise (hw.unlocked regSpec_rfCtrl (by decide)) hoff hon
  obtain ⟨hregs, hraft⟩ := State.regWrite_rfCtrl v hw
  refine ⟨_, State.run_live (·.regWrite req (pgHalf 0) Reg.rfCtrl v) hlive, ?_, ?_, ?_⟩
  · rw [← hen]; unfold State.rbit State.reg; rw [State.keepQueue_regs, hregs]
  · rw [State.keepQueue_raft, hraft, hdev]
  · rw [State.keepQueue_raft, hraft, hhop]

theorem exec_raftCfgSync {s : State} (hlive : s.live = true) (hup : s.flumeUp = true) (heast : s.halfUp 1 = true) :
    ∃ t, exec .raftCfgSync s = .next t ∧ t.raft.east = s.raftWest :=
  ⟨_, State.run_live _ hlive, by simp [hup, heast]⟩

/-! ### Neighbour records -/

theorem State.nbr_congr {s t : State} (h : t.raft = s.raft) (p : Nat) : t.nbr p = s.nbr p := by unfold State.nbr; rw [h]

@[simp] theorem State.nbr_setNbr (s : State) (p : Nat) (x : NbrS) : (s.setNbr p x).nbr p = x := by
  simp [State.nbr, State.setNbr]

theorem State.nbr_setNbr_ne (s : State) {p q : Nat} (x : NbrS) (h : q ≠ p) : (s.setNbr p x).nbr q = s.nbr q := by
  unfold State.nbr State.setNbr
  exact AMap.get_set_ne _ _ _ _ h

@[simp] theorem State.setNbr_clk (s : State) (p : Nat) (x : NbrS) : (s.setNbr p x).clk = s.clk := (rfl)
@[simp] theorem State.setNbr_out (s : State) (p : Nat) (x : NbrS) : (s.setNbr p x).out = s.out := (rfl)
@[simp] theorem State.setNbr_span (s : State) (p : Nat) (x : NbrS) (q : Nat) : (s.setNbr p x).span q = s.span q := (rfl)
@[simp] theorem State.keepQueue_nbr (s old : State) (p : Nat) : (s.keepQueue old).nbr p = s.nbr p := (rfl)
@[simp] theorem State.count_nbr (s : State) (p o n q : Nat) : (s.count p o n).nbr q = s.nbr q := (rfl)
@[simp] theorem State.raise_nbr (s : State) (p i q : Nat) : (s.raise p i).nbr q = s.nbr q := State.nbr_congr (by simp) q

@[simp] theorem State.raftNotice_nbr (s : State) (p k dev port said : Nat) (sysid : Word) (q : Nat) :
    (s.raftNotice p k dev port said sysid).nbr q = s.nbr q :=
  State.nbr_congr ((State.raftNotice_same (State.Sub.refl _) s p k dev port said sysid (State.Same.refl _ s)).raft rfl) q

@[simp] theorem State.nbrEvent_nbr (s : State) (p k : Nat) (x : NbrS) (sysid : Word) (q : Nat) :
    (s.nbrEvent p k x sysid).nbr q = s.nbr q :=
  State.nbr_congr ((State.nbrEvent_same (State.Sub.refl _) s p k x sysid (State.Same.refl _ s)).raft rfl) q

@[simp] theorem State.peerHolds_nbr (s : State) (q : Nat) : s.peerHolds.nbr q = s.nbr q :=
  State.nbr_congr ((State.peerHolds_same (State.Sub.refl _) s (State.Same.refl _ s)).raft rfl) q

/-! ### Hellos sent (R341) -/

/-- What a port's own receiver takes in near-end loopback changes no record of a neighbour (R83). -/
@[simp] theorem State.loopBack_nbr (s old : State) (p q : Nat) : (s.loopBack old p).nbr q = s.nbr q :=
  State.nbr_congr ((State.loopBack_same (State.Sub.refl _) s old p (State.Same.refl _ s)).raft rfl) q

@[simp] theorem State.loopBack_span (s old : State) (p q : Nat) : (s.loopBack old p).span q = s.span q := by
  unfold State.span
  rw [(State.loopBack_same (State.Sub.refl _) s old p (State.Same.refl _ s)).spans rfl]

@[simp] theorem State.helloOut_clk (s : State) (p : Nat) (bs : List Byte) : (s.helloOut p bs).clk = s.clk :=
  (State.helloOut_same (State.Sub.refl _) s p bs (State.Same.refl _ s)).clk rfl

theorem State.sendHello_txAt (s : State) (p : Nat) : ((s.sendHello p false).nbr p).txAt = some s.clk.up := by
  simp [State.sendHello]

theorem State.sendHello_extraAt (s : State) (p : Nat) : ((s.sendHello p true).nbr p).extraAt = some s.clk.up := by
  simp [State.sendHello]

/-- The hello that port p sends next in the state s stands in t where the port sends it: in the stream of a span port, on the
lanes of any other that carries data. -/
def State.HelloSent (s : State) (p : Nat) (t : State) : Prop :=
  (s.isSpan p = true → (t.span (spanPos p)).txq = (s.span (spanPos p)).txq
    ++ [(s.helloBytes p (((s.nbr p).txSeq + 1) % 2 ^ 32), false)])
  ∧ (s.isSpan p = false → s.portSends p = true → .hello p (s.helloBytes p (((s.nbr p).txSeq + 1) % 2 ^ 32)) ∈ t.out)

theorem State.sendHello_sent (s : State) (p : Nat) (extra : Bool) :
    s.HelloSent p (((s.sendHello p extra).loopBack s p).keepQueue s) := by
  constructor
  · intro hspan
    simp [State.sendHello, State.helloOut, hspan]
  · intro hspan hsends
    simp [State.sendHello, State.helloOut, hspan, State.transmit, State.onlyIf, hsends, State.emit]

theorem exec_helloTx {s : State} {p : Port} (hlive : s.live = true) (hon : s.hellos p.val = true)
    (hidle : (s.schedOf p.val).tx = none)
    (hdue : ∀ u, (s.nbr p.val).txAt = some u → u + intervalActs (s.raftCfg (portHalf p.val)).interval * 1000 ≤ s.clk.up) :
    ∃ t, exec (.helloTx p) s = .next t ∧ (t.nbr p.val).txAt = some s.clk.up ∧ s.HelloSent p.val t := by
  have hrun : exec (.helloTx p) s = .next (((s.sendHello p.val false).loopBack s p.val).keepQueue s) := by
    refine (State.run_live _ hlive).trans ?_
    cases htx : (s.nbr p.val).txAt with
    | none => simp [hon, hidle]
    | some u => simp [hon, hidle, hdue u htx]
  refine ⟨_, hrun, ?_, s.sendHello_sent p.val false⟩
  simpa using s.sendHello_txAt p.val

theorem exec_extraHello {s : State} {p : Port} (hlive : s.live = true) (hon : s.hellos p.val = true)
    (hidle : (s.schedOf p.val).tx = none) (hchanged : s.helloChanged p.val = true)
    (hdue : ∀ u, (s.nbr p.val).extraAt = some u → u + 100000 ≤ s.clk.up) :
    ∃ t, exec (.extraHello p) s = .next t ∧ (t.nbr p.val).extraAt = some s.clk.up ∧ s.HelloSent p.val t := by
  have hrun : exec (.extraHello p) s = .next (((s.sendHello p.val true).loopBack s p.val).keepQueue s) := by
    refine (State.run_live _ hlive).trans ?_
    cases htx : (s.nbr p.val).extraAt with
    | none => simp [hon, hidle, hchanged]
    | some u => simp [hon, hidle, hchanged, hdue u htx]
  refine ⟨_, hrun, ?_, s.sendHello_sent p.val true⟩
  simpa using s.sendHello_extraAt p.val

/-! ### Neighbours that come up and that fall silent (R342) -/

@[simp] theorem NbrS.fill_st (x : NbrS) (bs : List Byte) (st : NbrSt) (now : Nat) : (x.fill bs st now).st = st := (rfl)
@[simp] theorem NbrS.fill_heardAt (x : NbrS) (bs : List Byte) (st : NbrSt) (now : Nat) :
    (x.fill bs st now).heardAt = now := (rfl)
@[simp] theorem NbrS.fill_dev (x : NbrS) (bs : List Byte) (st : NbrSt) (now : Nat) :
    (x.fill bs st now).dev = raftWord bs 1 / 65536 := (rfl)

/-- A good hello of the same system and of another device fills the port's record, which is UP: newly, as it was, or in the
place of a neighbour that has gone. -/
theorem State.helloTake_up {s : State} {p : Nat} {bs : List Byte}
    (hsys : BitVec.ofNat 32 (beAt bs 30 4) = (s.raftCfg (portHalf p)).sysid)
    (hdev : raftWord bs 1 / 65536 ≠ (s.raftCfg (portHalf p)).devid) :
    ((s.helloTake p bs).nbr p).st = .up ∧ ((s.helloTake p bs).nbr p).heardAt = s.clk.up
      ∧ ((s.helloTake p bs).nbr p).dev = raftWord bs 1 / 65536 := by
  unfold State.helloTake
  simp only [hsys, ne_eq, not_true_eq_false, if_false, hdev]
  split
  · simp
  · split
    · simp [apply_ite (fun t : State => t.nbr p)]
    · simp

/-- The settings of a half that no register holds. -/
theorem State.count_raftCfg (s : State) (p o n h : Nat) :
    ((s.count p o n).raftCfg h).sysid = (s.raftCfg h).sysid ∧ ((s.count p o n).raftCfg h).devid = (s.raftCfg h).devid := by
  unfold State.raftCfg
  split <;> exact ⟨rfl, rfl⟩

theorem exec_helloRx_up {s : State} {p : Port} {bs : List Byte} (hlive : s.live = true)
    (hen : (s.raftCfg (portHalf p.val)).en = true) (hraft : s.isRaftPort p.val = true)
    (hup : s.halfUp (portHalf p.val) = true) (hgood : helloBad bs = false)
    (hsys : BitVec.ofNat 32 (beAt bs 30 4) = (s.raftCfg (portHalf p.val)).sysid)
    (hdev : raftWord bs 1 / 65536 ≠ (s.raftCfg (portHalf p.val)).devid) :
    ∃ t, exec (.helloRx p bs) s = .next t ∧ (t.nbr p.val).st = .up ∧ (t.nbr p.val).heardAt = s.clk.up
      ∧ (t.nbr p.val).dev = raftWord bs 1 / 65536 := by
  obtain ⟨hsysid, hdevid⟩ := s.count_raftCfg (pgHalf (portHalf p.val)) Reg.rfHelloRx 1 (portHalf p.val)
  have htake := State.helloTake_up (hsys.trans hsysid.symm) (hdevid.symm ▸ hdev)
  refine ⟨_, State.run_live _ hlive, ?_⟩
  simpa [hen, hraft, hup, State.helloRx, hgood] using htake

theorem exec_neighbourDead {s : State} {p : Port} (hlive : s.live = true) (hup : (s.nbr p.val).st = .up)
    (hdead : (s.nbr p.val).heardAt + (s.nbr p.val).deadNs ≤ s.clk.up) :
    ∃ t, exec (.neighbourDead p) s = .next t ∧ (t.nbr p.val).st = .down ∧ (∀ q, q ≠ p.val → t.nbr q = s.nbr q) := by
  refine ⟨_, State.run_live _ hlive, ?_, fun q hq => ?_⟩
  · simp [hup, hdead, State.nbrDown]
  · simp [hup, hdead, State.nbrDown, State.nbr_setNbr_ne _ _ hq]

/-! ### Weights (R333) -/

theorem AMap.get_keep_of_false {β : Type} (d : β) {q : Nat → Bool} {k : Nat} (hk : q k = false) (m : AMap β) :
    AMap.get d (AMap.keep q m) k = d := by
  induction m with
  | nil => rfl
  | cons e m ih =>
    by_cases he : q e.1 = true
    · have hne : e.1 ≠ k := fun h => by simp [h, hk] at he
      simp [AMap.keep, he, AMap.get, hne, ih]
    · simp [AMap.keep, he, ih]

/-- A key that reads as the default, or is listed. -/
theorem AMap.get_default_or_mem {β : Type} (d : β) (m : AMap β) (k : Nat) : AMap.get d m k = d ∨ ∃ e ∈ m, e.1 = k := by
  induction m with
  | nil => exact .inl rfl
  | cons e m ih =>
    by_cases he : e.1 = k
    · exact .inr ⟨e, by simp, he⟩
    · simpa [AMap.get, he] using ih

/-- An entry of RF_MEMBER that is not written is not valid, and weighs nothing. -/
theorem State.memberEw_zero (s : State) (h : Nat) : s.memberEw h 0 = 0 := by
  simp [State.memberEw, bit]

/-- The state with other weights in force. -/
def State.setEw (s : State) (m : AMap Nat) : State := { s with raft := { s.raft with ew := m } }

@[simp] theorem State.setEw_ew (s : State) (m : AMap Nat) : (s.setEw m).raft.ew = m := (rfl)

/-- The weights in force are no part of what a weight is computed from. -/
@[simp] theorem State.memberEw_setEw (s : State) (m : AMap Nat) (h : Nat) (w : Word) :
    (s.setEw m).memberEw h w = s.memberEw h w := (rfl)

theorem State.ewStore_cons (s : State) (h : Nat) (e : Nat × Word) (es : AMap Word) :
    s.ewStore h (e :: es) = (if e.1 / 2 ^ 18 = 12 + h then
      s.setEw (AMap.set 0 s.raft.ew (h * 16384 + e.1 % 2 ^ 18) (s.memberEw h e.2)) else s).ewStore h es := (rfl)

theorem State.ewAll_eq (s : State) (h : Nat) : s.ewAll h =
    let t := (s.setEw (AMap.keep (fun k => decide (k / 16384 ≠ h)) s.raft.ew)).ewStore h s.selRegs
    if t.raft.ew = s.raft.ew then t else t.count (pgHalf h) Reg.rfReweights 1 := (rfl)

/-- The weights after a list of entries is stored: that of member entry n is the one of the value w that every entry of its key
holds, where one is listed or the weight stood before. -/
theorem State.ewStore_ew {s : State} {h n : Nat} {w : Word} {es : AMap Word} (hn : n < 2 ^ 18)
    (hval : ∀ e ∈ es, e.1 = selKey 6 h n → e.2 = w)
    (hbase : AMap.get 0 s.raft.ew (h * 16384 + n) = s.memberEw h w ∨ ∃ e ∈ es, e.1 = selKey 6 h n) :
    AMap.get 0 (s.ewStore h es).raft.ew (h * 16384 + n) = s.memberEw h w := by
  induction es generalizing s with
  | nil => simpa [State.ewStore] using hbase
  | cons e es ih =>
    have hrest : ∀ x ∈ es, x.1 = selKey 6 h n → x.2 = w := fun x hx => hval x (List.mem_cons_of_mem e hx)
    rw [State.ewStore_cons]
    by_cases hk : e.1 = selKey 6 h n
    · have hkind : e.1 / 2 ^ 18 = 12 + h := by rw [hk, selKey]; omega
      have hkey : h * 16384 + e.1 % 2 ^ 18 = h * 16384 + n := by rw [hk, selKey]; omega
      rw [if_pos hkind, hkey, hval e (by simp) hk]
      simpa using ih (s := s.setEw _) hrest (.inl (by simp))
    · have hothers : (∃ x ∈ e :: es, x.1 = selKey 6 h n) → ∃ x ∈ es, x.1 = selKey 6 h n := by
        simp [hk]
      by_cases hkind : e.1 / 2 ^ 18 = 12 + h
      · have hne : h * 16384 + n ≠ h * 16384 + e.1 % 2 ^ 18 := fun heq => hk (by rw [selKey]; omega)
        rw [if_pos hkind]
        refine (ih (s := s.setEw _) hrest (hbase.imp (fun hb => ?_) hothers)).trans (s.memberEw_setEw _ h w)
        rw [State.setEw_ew, AMap.get_set_ne _ _ _ _ hne, State.memberEw_setEw, hb]
      · rw [if_neg hkind]
        exact ih hrest (hbase.imp_right hothers)

/-- A recomputation puts every member entry's own weight in force, whether RF_REWEIGHTS counts it or not. -/
theorem State.ewAll_ew {s : State} {h n : Nat} (hwf : AMap.wf (fun _ => (0 : Word)) s.selRegs = true) (hn : n < 16384) :
    AMap.get 0 (s.ewAll h).raft.ew (h * 16384 + n) = s.memberEw h (s.sreg 0 (selKey 6 h n)) := by
  have hclear : (fun k => decide (k / 16384 ≠ h)) (h * 16384 + n) = false := by
    have hdiv : (h * 16384 + n) / 16384 = h := by omega
    exact decide_eq_false (fun hne => hne hdiv)
  have hbase := (AMap.get_default_or_mem 0 s.selRegs (selKey 6 h n)).imp_left fun hzero =>
    show AMap.get 0 (AMap.keep (fun k => decide (k / 16384 ≠ h)) s.raft.ew) (h * 16384 + n)
        = s.memberEw h (s.sreg 0 (selKey 6 h n)) by
      rw [State.sreg, hzero, State.memberEw_zero, AMap.get_keep_of_false 0 hclear]
  have hstored := State.ewStore_ew (s := s.setEw (AMap.keep (fun k => decide (k / 16384 ≠ h)) s.raft.ew))
    (w := s.sreg 0 (selKey 6 h n)) (by omega)
    (fun e he hk => by rw [State.sreg, ← hk, (AMap.le_and_get_of_wfFrom hwf he).2]) hbase
  rw [State.memberEw_setEw] at hstored
  rw [State.ewAll_eq]
  dsimp only
  split
  · exact hstored
  · rw [State.count_raft]; exact hstored

theorem exec_ewRecompute {s : State} {h : Half} {g m : Nat} (hlive : s.live = true) (hup : s.halfUp h.val = true)
    (hwf : AMap.wf (fun _ => (0 : Word)) s.selRegs = true) (hg : g < 256) (hm : m < 64) :
    ∃ t, exec (.ewRecompute h) s = .next t
      ∧ AMap.get 0 t.raft.ew (ewKey h.val g m) = s.memberEw h.val (s.rfMember h.val g m) := by
  have hkey : ewKey h.val g m = h.val * 16384 + (64 * g + m) := by unfold ewKey; omega
  refine ⟨_, State.run_live _ hlive, ?_⟩
  simpa [hup, hkey, State.rfMember] using State.ewAll_ew (h := h.val) (n := 64 * g + m) hwf (by omega)

/-! ### Holds that lapse (R344) -/

theorem exec_peerHoldLapse {s : State} {r : Ring} (hlive : s.live = true) (hhold : (s.ringRec r.val).peerHold = true)
    (hfree : s.ringHeld r.val = false) :
    ∃ t, exec (.peerHoldLapse r) s = .next t ∧ (t.ringRec r.val).peerHold = false :=
  ⟨_, State.run_live _ hlive, by simp [hhold, hfree]⟩

/-! ### The obligation -/

/-- Settles O43, one theorem for each clause. -/
theorem raftCommandsComplete : Obligations.RaftCommandsComplete := by
  unfold Obligations.RaftCommandsComplete
  intro s hlive
  refine ⟨?enable, ?sync, ?hello, ?extra, ?heard, ?silent, ?weights, ?lapse⟩
  case enable => exact fun req v hw hoff hon => exec_raftEnable_rise hlive hw hoff hon
  case sync => exact exec_raftCfgSync hlive
  case hello => exact fun p hon hidle hdue => exec_helloTx hlive hon hidle hdue
  case extra => exact fun p hon hidle hchanged hdue => exec_extraHello hlive hon hidle hchanged hdue
  case heard => exact fun p bs hen hraft hup hgood hsys hdev => exec_helloRx_up hlive hen hraft hup hgood hsys hdev
  case silent => exact fun p hup hdead => exec_neighbourDead hlive hup hdead
  case weights => exact fun h g m hup hwf hg hm => exec_ewRecompute hlive hup hwf hg hm
  case lapse => exact fun r hhold hfree => exec_peerHoldLapse hlive hhold hfree

end Sys2Proof.Machine
end

section
/-! SUPPORT AND PROOF. Why O33 fails: a register is one key, its page times 0x10000 plus its offset, and State.OtherRegsKept
bounds no offset, so page 0 with an offset beyond its end names the registers of every page (02_registers.md R34). POISONED_WRITE
(12_host_interface.md R367) counts in a register of HOSTDMA, and so changes one that page 0 names. -/

namespace Sys2Proof.Machine

/-- An offset beyond the end of page 0 names the register of the page that the key falls in. -/
theorem State.reg_pgChip_regKey (s : State) (p o : Nat) : s.reg pgChip (regKey p o) = s.reg p o := by
  simp [State.reg, regKey]

/-- Where the CHIP page is none of those named, State.OtherRegsKept keeps every register of every page, those of the blocks named
too. -/
theorem State.OtherRegsKept.reg_eq {s t : State} {bs : List Blk} (h : s.OtherRegsKept bs t) (hchip : Blk.chip ∉ bs) (p o : Nat) :
    t.reg p o = s.reg p o := by
  rw [← t.reg_pgChip_regKey, ← s.reg_pgChip_regKey]
  exact h pgChip (regKey p o) .chip rfl hchip

@[simp] theorem State.aerNonFatal_reg (s : State) (i p o : Nat) : (s.aerNonFatal i).reg p o = s.reg p o := by
  unfold State.reg
  rw [(State.aerNonFatal_same (State.Sub.refl _) s i (State.Same.refl _ s)).regs rfl]

/-- The state after a poisoned write: HD_ERR_CNT and HD_POISON count it, and an event of HOSTDMA tells it (R367). -/
def State.poisoned (s : State) : State :=
  (((s.aerNonFatal 12).count pgHostdma Reg.hdErrCnt 1).count pgHostdma Reg.hdPoison 1).raise pgHostdma evPoison

theorem exec_poisonedWrite {s : State} (hlive : s.live = true) : exec .poisonedWrite s = .next (s.poisoned.keepQueue s) :=
  State.run_live State.poisoned hlive

/-- POISONED_WRITE counts in HD_POISON. -/
theorem State.poisoned_hdPoison (s : State) :
    s.poisoned.reg pgHostdma Reg.hdPoison = BitVec.ofNat 32 ((s.reg pgHostdma Reg.hdPoison).toNat + 1) := by
  unfold State.poisoned
  rw [State.raise_reg _ _ _ (by decide) (by decide) (by decide), State.count_reg,
    State.count_reg_ne _ (regKey_ne_off (by decide)), State.aerNonFatal_reg]

/-- Within the pages, POISONED_WRITE keeps what O33 says: the registers of the pages of other blocks than HOSTDMA and LOOKOUT. -/
theorem State.poisoned_reg_of_page (s : State) {p o : Nat} {b : Blk} (hp : pageBlk p = some b) (hb : b ∉ [Blk.hostdma, .lookout])
    (ho : o < 0x10000) : s.poisoned.reg p o = s.reg p o := by
  have hdma : p ≠ pgHostdma := by
    rintro rfl
    cases hp
    exact hb (by decide)
  have hlook : p ≠ pgLookout := by
    rintro rfl
    cases hp
    exact hb (by decide)
  unfold State.poisoned
  rw [State.raise_reg_ne _ _ _ (regKey_ne hdma (by decide) ho) (regKey_ne hlook (by decide) ho) (regKey_ne hlook (by decide) ho),
    State.count_reg_ne _ (regKey_ne hdma (by decide) ho), State.count_reg_ne _ (regKey_ne hdma (by decide) ho),
    State.aerNonFatal_reg]

/-- Refutes O33 by its clause for POISONED_WRITE, right after power-on: HD_POISON goes from 0 to 1, and is a register of page 0
at an offset beyond that page. -/
theorem not_hostAndManagementRegisterFrame : ¬ Obligations.HostAndManagementRegisterFrame := by
  unfold Obligations.HostAndManagementRegisterFrame
  intro h
  obtain ⟨-, -, -, -, -, -, -, -, -, -, hpoison, -⟩ := h
  have hkept := (hpoison State.reset _ (exec_poisonedWrite rfl)).reg_eq (by decide) pgHostdma Reg.hdPoison
  rw [State.keepQueue_reg, State.poisoned_hdPoison] at hkept
  exact absurd hkept (by decide)

end Sys2Proof.Machine
end

section
/-! SUPPORT AND PROOF. What the commands of HOST and PCIE leave as it was (12_host_interface.md R345 to R369): the masks of
State.Same, and the three writes that take effect at once. -/

namespace Sys2Proof.Machine

/-! ### Doorbells and HQ_CTRL -/

/-- A write of a doorbell (R352). -/
theorem State.writeAt_doorbell (s : State) (r : Requester) (q : QueueId) (v : Word) :
    s.writeAt r pgDoorbell (0x1000 + 4 * q.val) v = s.doorbell q.val v := by
  have hq : (0x1000 + 4 * q.val - 0x1000) / 4 = q.val := by omega
  rw [State.writeAt_body s r v (by omega) (by revert q; decide +kernel) (by revert q; decide +kernel)]
  have hblk : pageBlk pgDoorbell = some .hostdma := by decide
  simp only [State.writeBlock, hblk, State.wrHostdma, if_true, hq]

/-- A queue's page is a page of queue blocks. -/
theorem pgQueue_block (q : QueueId) : pageBlk (pgQueue q.val) = some .hostdma := by revert q; decide

/-- A write of HQ_CTRL (R351). -/
theorem State.writeAt_hqCtrl (s : State) (r : Requester) (q : QueueId) (v : Word) :
    s.writeAt r (pgQueue q.val) (Reg.hqCtrl (q.val % 32)) v = s.hqCtrlWrite q.val v := by
  rw [State.writeAt_body s r v (by unfold Reg.hqCtrl; omega) (by revert q; decide +kernel) (by revert q; decide +kernel)]
  have hbell : pgQueue q.val ≠ pgDoorbell := by unfold pgQueue pgDoorbell; omega
  have hpage : 9 ≤ pgQueue q.val ∧ pgQueue q.val < pgDoorbell := by unfold pgQueue pgDoorbell; omega
  have hq : 32 * (pgQueue q.val - 9) + (Reg.hqCtrl (q.val % 32) - 0x1000) / 0x80 = q.val := by
    unfold pgQueue Reg.hqCtrl; omega
  have hoff : Reg.hqCtrl (q.val % 32) % 0x80 = 0x0C := by unfold Reg.hqCtrl; omega
  simp only [State.writeBlock, pgQueue_block, State.wrHostdma, if_neg hbell, if_pos hpage, hq, hoff, if_true]

/-- The offset of HQ_CTRL lies in its page. -/
theorem hqCtrl_lt (q : QueueId) : Reg.hqCtrl (q.val % 32) < 0x10000 := by unfold Reg.hqCtrl; omega

/-- A doorbell, written so that it takes effect at once, changes the bus and what a queue that halts changes. -/
theorem State.hostWrite_doorbell_same {s : State} {q : QueueId} (v : Word)
    (hw : s.WritesNow .host pgDoorbell (0x1000 + 4 * q.val)) :
    State.Same 0x8b120c2090 s (s.hostWrite pgDoorbell (0x1000 + 4 * q.val) v) := by
  refine State.regWrite_now_same (.of rfl (.refl _)) (by omega) hw ?_
  rw [State.writeAt_doorbell]
  exact State.doorbell_same (.of rfl (.refl _)) _ _ _ (.refl _ s)

/-- HQ_CTRL, written so that it takes effect at once, changes the bus and what leaving ACTIVE changes. -/
theorem State.hostWrite_hqCtrl_same {s : State} {q : QueueId} (v : Word)
    (hw : s.WritesNow .host (pgQueue q.val) (Reg.hqCtrl (q.val % 32))) :
    State.Same 0x8b120c2090 s (s.hostWrite (pgQueue q.val) (Reg.hqCtrl (q.val % 32)) v) := by
  refine State.regWrite_now_same (.of rfl (.refl _)) (hqCtrl_lt q) hw ?_
  rw [State.writeAt_hqCtrl]
  exact State.hqCtrlWrite_same (.of rfl (.refl _)) _ _ _ (.refl _ s)

/-- What such a write leaves: all but the registers, the bus, the host's queues, and the frames that a queue which leaves ACTIVE
drops, with their cells and their accounts. -/
theorem State.Same.queueWrite {s t : State} (hs : State.Same 0x8b120c2090 s t) :
    t.clk = s.clk ∧ t.freeCtr = s.freeCtr ∧ t.out = s.out ∧ t.selRegs = s.selRegs ∧ t.mem = s.mem ∧ t.flumeUp =
    s.flumeUp ∧ t.lanes = s.lanes ∧ t.macros = s.macros ∧ t.ports = s.ports ∧ t.spans = s.spans ∧ t.nextFrame =
    s.nextFrame ∧ t.slices = s.slices ∧ t.mcast = s.mcast ∧ t.rings = s.rings ∧ t.path = s.path ∧ t.queues = s.queues
    ∧ t.deficit = s.deficit ∧ t.qbucket = s.qbucket ∧ t.sched = s.sched ∧ t.meters = s.meters ∧ t.late = s.late ∧
    t.wood = s.wood ∧ t.eastq = s.eastq ∧ t.hitq = s.hitq ∧ t.hbm = s.hbm ∧ t.cruiser = s.cruiser ∧ t.fire = s.fire ∧
    t.raft = s.raft ∧ t.forester = s.forester ∧ t.mram = s.mram ∧ t.fuses = s.fuses ∧ t.ppsHigh = s.ppsHigh ∧ t.rst =
    s.rst :=
  ⟨hs.clk rfl, hs.freeCtr rfl, hs.out rfl, hs.selRegs rfl, hs.mem rfl, hs.flumeUp rfl, hs.lanes rfl, hs.macros rfl,
    hs.ports rfl, hs.spans rfl, hs.nextFrame rfl, hs.slices rfl, hs.mcast rfl, hs.rings rfl, hs.path rfl, hs.queues rfl,
    hs.deficit rfl, hs.qbucket rfl, hs.sched rfl, hs.meters rfl, hs.late rfl, hs.wood rfl, hs.eastq rfl, hs.hitq rfl,
    hs.hbm rfl, hs.cruiser rfl, hs.fire rfl, hs.raft rfl, hs.forester rfl, hs.mram rfl, hs.fuses rfl, hs.ppsHigh rfl,
    hs.rst rfl⟩

/-! ### The obligation -/

/-- Settles O27, from what each command of HOST and PCIE leaves as it was (State.Same). -/
theorem hostInterfaceFrame : Obligations.HostInterfaceFrame := by
  unfold Obligations.HostInterfaceFrame
  refine ⟨?doorbell, ?enable, ?disable, ?drained, ?fetch, ?complete, ?readError, ?punt, ?pipe, ?direct, ?poolWrite,
    ?bufferTimeout, ?irq, ?flr, ?hotReset, ?linkDown, ?perst, ?busMaster, ?poisoned, ?linkUp⟩
  case doorbell => exact fun q v s t hw ht => (State.Same.run_one ht (State.hostWrite_doorbell_same v hw)).queueWrite
  case enable => exact fun q s t hw ht => (State.Same.run_one ht (State.hostWrite_hqCtrl_same 1 hw)).queueWrite
  case disable => exact fun q s t hw ht => (State.Same.run_one ht (State.hostWrite_hqCtrl_same 0 hw)).queueWrite
  case drained => exact fun _ s t ht => (execQueueDrained_same (.refl _) ht (.refl _ s)).eq_graft
  case fetch => exact fun _ _ s t ht => (execDescriptorFetch_same (.refl _) ht (.refl _ s)).eq_graft
  case complete => exact fun _ s t ht => (execDescriptorComplete_same (.refl _) ht (.refl _ s)).eq_graft
  case readError => exact fun _ s t ht => (execDmaReadError_same (.refl _) ht (.refl _ s)).eq_graft
  case punt =>
    intro _ s t ht
    have hs := execPuntDeliver_same (.refl _) ht (.refl _ s)
    exact ⟨hs.clk rfl, hs.freeCtr rfl, hs.selRegs rfl, hs.mem rfl, hs.bus rfl, hs.flumeUp rfl, hs.lanes rfl, hs.macros rfl,
      hs.ports rfl, hs.spans rfl, hs.nextFrame rfl, hs.slices rfl, hs.mcast rfl, hs.rings rfl, hs.path rfl, hs.queues rfl,
      hs.deficit rfl, hs.qbucket rfl, hs.sched rfl, hs.meters rfl, hs.late rfl, hs.wood rfl, hs.eastq rfl, hs.hitq rfl,
      hs.hbm rfl, hs.cruiser rfl, hs.fire rfl, hs.raft rfl, hs.forester rfl, hs.mram rfl, hs.fuses rfl, hs.ppsHigh rfl,
      hs.rst rfl⟩
  case pipe => exact fun _ _ s t ht => (execPipe_same (.refl _) ht (.refl _ s)).eq_graft
  case direct => exact fun _ _ s t ht => (execDirect_same (.refl _) ht (.refl _ s)).eq_graft
  case poolWrite => exact fun _ _ s t ht => (execPoolWrite_same (.refl _) ht (.refl _ s)).eq_graft
  case bufferTimeout => exact fun _ s t ht => (execExportBufferTimeout_same (.refl _) ht (.refl _ s)).eq_graft
  case irq => exact fun _ s t ht => (execIrqHoldoff_same (.refl _) ht (.refl _ s)).eq_graft
  case flr => exact fun s t ht => (execFlr_same (.refl _) ht (.refl _ s)).eq_graft
  case hotReset => exact fun s t ht => (execHotReset_same (.refl _) ht (.refl _ s)).eq_graft
  case linkDown => exact fun s t ht => (execPcieLinkDown_same (.refl _) ht (.refl _ s)).eq_graft
  case perst => exact fun _ s t ht => (execPerstN_same (.refl _) ht (.refl _ s)).eq_graft
  case busMaster => exact fun _ _ s t ht => (execBusMasterEnable_same (.refl _) ht (.refl _ s)).eq_graft
  case poisoned => exact fun s t ht => (execPoisonedWrite_same (.refl _) ht (.refl _ s)).eq_graft
  case linkUp => exact fun _ _ s t ht => (execPcieLinkUp_same (.refl _) ht (.refl _ s)).eq_graft

end Sys2Proof.Machine
end

section
/-! SUPPORT AND PROOF. What the function and its queues keep while frames held for a receive queue are dropped
(12_host_interface.md R348, R359, R367), and what the commands of PCIE do when their conditions hold. -/

namespace Sys2Proof.Machine

/-! ### The charges of a queue and the frames it holds (R357, R359) -/

/-- A queue but for how many cells the frames it holds have. -/
def HostQ.uncharged (q : HostQ) : HostQ := { q with heldN := 0 }

/-- A queue but for the frames it holds. -/
def HostQ.unheld (q : HostQ) : HostQ := { q with held := [], heldN := 0 }

/-- The PCIe function without its queues. -/
def HostS.function (x : HostS) : HostS := { x with queues := [] }

@[simp] theorem State.setHq_function (s : State) (i : Nat) (x : HostQ) : (s.setHq i x).host.function = s.host.function := (rfl)

theorem HostQ.unheld_of_uncharged {a b : HostQ} (h : a.uncharged = b.uncharged) : a.unheld = b.unheld := by
  show a.uncharged.unheld = b.uncharged.unheld
  rw [h]

theorem HostQ.held_of_uncharged {a b : HostQ} (h : a.uncharged = b.uncharged) : a.held = b.held := by
  show a.uncharged.held = b.uncharged.held
  rw [h]

theorem HostQ.st_of_unheld {a b : HostQ} (h : a.unheld = b.unheld) : a.st = b.st := by
  show a.unheld.st = b.unheld.st
  rw [h]

theorem HostQ.err_of_unheld {a b : HostQ} (h : a.unheld = b.unheld) : a.err = b.err := by
  show a.unheld.err = b.unheld.err
  rw [h]

/-- A state whose function and queues stand as they were reads each queue as it was. -/
theorem State.hq_of_host {s t : State} (h : t.host = s.host) (k : Nat) : t.hq k = s.hq k := by
  unfold State.hq
  rw [h]

/-- What stands the same in the record put back for a queue stands the same in every queue. -/
theorem State.setHq_keeps {α : Type} (g : HostQ → α) {s : State} {i : Nat} {x : HostQ} (h : g x = g (s.hq i)) (k : Nat) :
    g ((s.setHq i x).hq k) = g (s.hq k) := by
  by_cases hk : k = i
  · subst hk
    rw [State.hq_setHq, h]
  · rw [State.hq_setHq_ne _ _ hk]

/-! ### Cells that a frame gives back -/

theorem State.freeCell_host (s : State) (h rq cell tag : Nat) : (s.freeCell h rq cell tag).host = s.host :=
  (State.freeCell_same (.refl _) s h rq cell tag (.refl _ s)).host rfl

theorem State.freeCells_host (s : State) (h rq tag : Nat) (cs : List Nat) : (s.freeCells h rq tag cs).host = s.host :=
  (State.freeCells_same (.refl _) s h rq tag cs (.refl _ s)).host rfl

theorem State.pfcSub_host (s : State) (h : Nat) (f : Frame) (n : Nat) : (s.pfcSub h f n).host = s.host :=
  (State.pfcSub_same (.refl _) s h f n (.refl _ s)).host rfl

/-- A frame that loses a cell takes it off the charges of its queue at most. -/
theorem State.loseCell_host (s : State) (i cell : Nat) : (s.loseCell i cell).host = s.host
    ∨ ∃ n, (s.loseCell i cell).host
      = (s.setHq (s.frame i).q { s.hq (s.frame i).q with heldN := n }).host := by
  simp only [State.loseCell, State.pfcSub_host]
  split
  · exact .inl rfl
  · split
    · exact .inr ⟨_, rfl⟩
    · split <;> exact .inl rfl

theorem State.loseCell_uncharged (s : State) (i cell k : Nat) : ((s.loseCell i cell).hq k).uncharged = (s.hq k).uncharged := by
  obtain h | ⟨n, h⟩ := s.loseCell_host i cell
  · rw [State.hq_of_host h]
  · rw [State.hq_of_host h]
    exact State.setHq_keeps HostQ.uncharged (by rfl) k

theorem State.loseCell_function (s : State) (i cell : Nat) : (s.loseCell i cell).host.function = s.host.function := by
  obtain h | ⟨n, h⟩ := s.loseCell_host i cell <;> rw [h]
  rfl

theorem State.freeStray_uncharged (s : State) (h rq cell tag k : Nat) :
    ((s.freeStray h rq cell tag).hq k).uncharged = (s.hq k).uncharged := by
  simp only [State.freeStray]
  rw [State.hq_of_host (State.freeCell_host ..)]
  split
  · rw [State.setFrame_hq, State.loseCell_uncharged]
  · rfl

theorem State.freeStray_function (s : State) (h rq cell tag : Nat) :
    (s.freeStray h rq cell tag).host.function = s.host.function := by
  simp only [State.freeStray, State.freeCell_host]
  split
  · rw [State.setFrame_host, State.loseCell_function]
  · rfl

theorem State.freeStrays_keeps (s : State) (h rq tag : Nat) (cs : List Nat) :
    (s.freeStrays h rq tag cs).host.function = s.host.function
    ∧ ∀ k, ((s.freeStrays h rq tag cs).hq k).uncharged = (s.hq k).uncharged := by
  induction cs generalizing s with
  | nil => exact ⟨rfl, fun _ => rfl⟩
  | cons c cs ih =>
    obtain ⟨hfunction, hqueue⟩ := ih (s.freeStray h rq c tag)
    exact ⟨hfunction.trans (s.freeStray_function h rq c tag), fun k => (hqueue k).trans (s.freeStray_uncharged h rq c tag k)⟩

/-- Cells given back leave the function as it was, and each queue but for its charges. -/
theorem State.releaseCells_keeps (s : State) (f : Frame) (rq : Nat) :
    (s.releaseCells f rq).host.function = s.host.function
    ∧ ∀ k, ((s.releaseCells f rq).hq k).uncharged = (s.hq k).uncharged := by
  simp only [State.releaseCells]
  generalize ht : (if f.cells.length = 0 then _ else _ : State) = t
  have hhost : t.host = s.host := by
    rw [← ht]
    simp only [apply_ite State.host, State.pfcSub_host, State.setDeck_host, State.freeCells_host, ite_self]
  obtain ⟨hfunction, hqueue⟩ := t.freeStrays_keeps f.half rq f.tag f.freed
  exact ⟨by rw [hfunction, hhost], fun k => by rw [hqueue, State.hq_of_host hhost]⟩

/-! ### Frames held for a queue are dropped (R359) -/

theorem State.dropNull_host (s : State) (i h reason : Nat) : (s.dropNull i h reason).host = s.host :=
  (State.dropNull_same (.refl _) s i h reason (.refl _ s)).host rfl

/-- A punt that is dropped leaves the function as it was, and each queue but for the frames it holds. -/
theorem State.dropPunt_keeps (s : State) (i q reason : Nat) :
    (s.dropPunt i q reason).host.function = s.host.function
    ∧ ∀ k, ((s.dropPunt i q reason).hq k).unheld = (s.hq k).unheld := by
  simp only [State.dropPunt]
  generalize ht : (State.releaseCells _ _ _ : State) = t
  have hkeeps : t.host.function = s.host.function ∧ ∀ k, (t.hq k).uncharged = (s.hq k).uncharged := by
    rw [← ht]
    exact State.releaseCells_keeps _ _ _
  generalize hu : (if 0x50 ≤ reason then _ else _ : State) = u
  have hhost : u.host = (t.setHq q { t.hq q with
      held := (t.hq q).held.filter (fun j => decide (j ≠ i)), heldN := (t.hq q).heldN - (s.frame i).cells.length }).host := by
    rw [← hu]
    split <;> rfl
  obtain ⟨hfunction, hqueue⟩ := hkeeps
  constructor
  · rw [State.dropNull_host, hhost, State.setHq_function, hfunction]
  · intro k
    rw [State.hq_of_host (State.dropNull_host ..), State.hq_of_host hhost, State.setHq_keeps HostQ.unheld (by rfl)]
    exact HostQ.unheld_of_uncharged (hqueue k)

theorem State.dropPunts_keeps (s : State) (q reason : Nat) (l : List Nat) :
    (s.dropPunts q reason l).host.function = s.host.function
    ∧ ∀ k, ((s.dropPunts q reason l).hq k).unheld = (s.hq k).unheld := by
  induction l generalizing s with
  | nil => exact ⟨rfl, fun _ => rfl⟩
  | cons i l ih =>
    obtain ⟨hfunction, hqueue⟩ := ih (s.dropPunt i q reason)
    obtain ⟨hfunction', hqueue'⟩ := s.dropPunt_keeps i q reason
    exact ⟨hfunction.trans hfunction', fun k => (hqueue k).trans (hqueue' k)⟩

/-! ### Resets of the function (R348, Table 138) -/

/-- The queues below n are off, with ERR = LINK, and the function stands as it was. -/
theorem State.hqsOff_keeps (s : State) (n : Nat) :
    (s.hqsOff n).host.function = s.host.function
    ∧ ∀ i, i < n → ((s.hqsOff n).hq i).st = .disabled ∧ ((s.hqsOff n).hq i).err = errLink := by
  induction n with
  | zero => exact ⟨rfl, fun i hi => absurd hi (Nat.not_lt_zero i)⟩
  | succ n ih =>
    obtain ⟨hfunction, hoff⟩ := ih
    simp only [State.hqsOff]
    generalize ht : (if n < 64 then _ else _ : State) = t
    have hkeeps : t.host.function = (s.hqsOff n).host.function ∧ ∀ k, (t.hq k).unheld = ((s.hqsOff n).hq k).unheld := by
      rw [← ht]
      split
      · exact State.dropPunts_keeps _ _ _ _
      · exact ⟨rfl, fun _ => rfl⟩
    obtain ⟨hsame, hqueue⟩ := hkeeps
    refine ⟨by rw [State.setHq_function, hsame, hfunction], fun i hi => ?_⟩
    by_cases hin : i = n
    · subst hin
      rw [State.hq_setHq]
      exact ⟨rfl, rfl⟩
    · rw [State.hq_setHq_ne _ _ hin, HostQ.st_of_unheld (hqueue i), HostQ.err_of_unheld (hqueue i)]
      exact hoff i (by omega)

/-- A reset of the function counts and tells what has become of its queues. -/
theorem State.functionReset_eq (s : State) : ∃ t : State,
    s.functionReset = (t.count pgHostdma Reg.hdErrCnt 1).raise pgHostdma evHostLink
    ∧ t.host.function = { s.host.function with msix := {} }
    ∧ ∀ i, i < 153 → (t.hq i).st = .disabled ∧ (t.hq i).err = errLink :=
  ⟨_, rfl, State.hqsOff_keeps _ 153⟩

/-- A reset of the function disables every queue with ERR = LINK and tells it; its link stays as it was. -/
theorem State.functionReset_off (s : State) :
    (∀ i, i < 153 → (s.functionReset.hq i).st = .disabled ∧ (s.functionReset.hq i).err = errLink)
    ∧ s.functionReset.rbit pgHostdma 0x10 evHostLink = true ∧ s.functionReset.host.linkUp = s.host.linkUp := by
  obtain ⟨t, ht, hfunction, hoff⟩ := s.functionReset_eq
  rw [ht]
  refine ⟨fun i hi => ?_, State.raise_evt _ _ (by decide), ?_⟩
  · rw [State.raise_hq, State.count_hq]
    exact hoff i hi
  · rw [State.raise_host, State.count_host]
    show t.host.function.linkUp = s.host.linkUp
    rw [hfunction]
    rfl

theorem State.pcieDown_off {s : State} (h : s.host.linkUp = true) :
    (∀ i, i < 153 → (s.pcieDown.hq i).st = .disabled ∧ (s.pcieDown.hq i).err = errLink)
    ∧ s.pcieDown.rbit pgHostdma 0x10 evHostLink = true ∧ s.pcieDown.host.linkUp = false := by
  unfold State.pcieDown
  rw [if_pos h]
  exact State.functionReset_off _

/-- FLR and a hot reset reset the function, and so does a link that goes down. -/
theorem exec_functionReset {s : State} {c : Instr} (hlive : s.live = true)
    (hc : c = .flr ∨ c = .hotReset ∨ (c = .pcieLinkDown ∧ s.host.linkUp = true)) :
    ∃ t, exec c s = .next t ∧ (∀ i, i < 153 → (t.hq i).st = .disabled ∧ (t.hq i).err = errLink)
      ∧ t.rbit pgHostdma 0x10 evHostLink = true ∧ (c = .pcieLinkDown → t.host.linkUp = false) := by
  obtain ⟨hoff, hevt, -⟩ := s.functionReset_off
  obtain rfl | rfl | ⟨rfl, hup⟩ := hc
  · exact ⟨_, State.run_live (·.functionReset) hlive, hoff, hevt, nofun⟩
  · exact ⟨_, State.run_live (·.functionReset) hlive, hoff, hevt, nofun⟩
  · obtain ⟨hoff, hevt, hdown⟩ := State.pcieDown_off hup
    exact ⟨_, State.run_live (·.pcieDown) hlive, hoff, hevt, fun _ => hdown⟩

/-! ### The link, Bus Master Enable, poisoned writes (R346, R348, R367) -/

theorem exec_pcieLinkUp {s : State} (w : Fin 4) (g : Fin 5) (hlive : s.live = true) (hready : s.pcieReady = true)
    (hdown : s.host.linkUp = false) :
    ∃ t, exec (.pcieLinkUp w g) s = .next t ∧ t.host.linkUp = true ∧ t.host.width = 2 ^ w.val ∧ t.host.speed = g.val + 1 := by
  refine ⟨_, State.run_live _ hlive, ?_⟩
  simp [hready, hdown]

theorem exec_busMasterEnable {s : State} (b d : Bool) (hlive : s.live = true) :
    ∃ t, exec (.busMasterEnable b d) s = .next t ∧ t.host.bme = b ∧ t.host.d3hot = d := by
  have hrun : exec (.busMasterEnable b d) s = execBusMasterEnable b d s := rfl
  rw [hrun, execBusMasterEnable, State.run_live _ hlive]
  refine ⟨_, rfl, ?_⟩
  simp [apply_ite State.host]

/-- AER sends the message of a non-fatal error while such errors are reported. -/
theorem State.aerNonFatal_out (s : State) (n : Nat) :
    (s.aerNonFatal n).out = if s.host.cfg.nonFatal then s.out ++ [.errNonFatal] else s.out := by
  unfold State.aerNonFatal
  dsimp only
  split <;> rfl

theorem State.poisoned_out (s : State) :
    s.poisoned.out = if s.host.cfg.nonFatal then s.out ++ [.errNonFatal] else s.out := by
  simp only [State.poisoned, State.raise_out, State.count_out, State.aerNonFatal_out]

/-! ### The obligation -/

/-- Settles O53, one theorem or two for what each command does. -/
theorem pcieCommandsComplete : Obligations.PcieCommandsComplete := by
  unfold Obligations.PcieCommandsComplete
  intro s hlive
  refine ⟨?reset, ?linkUp, ?perstLow, ?perstHigh, ?busMaster, ?poisoned⟩
  case reset => exact fun c hc => exec_functionReset hlive hc
  case linkUp => exact fun w g hready hdown => exec_pcieLinkUp w g hlive hready hdown
  case perstLow => exact ⟨_, State.run_live (·.perst false) hlive, rfl, rfl⟩
  case perstHigh => exact ⟨_, State.run_live (·.perst true) hlive, rfl⟩
  case busMaster => exact fun b d => exec_busMasterEnable b d hlive
  case poisoned =>
    refine ⟨_, exec_poisonedWrite hlive, State.raise_evt _ _ (by decide), fun hon => ?_, fun hoff => ?_⟩
    · rw [State.keepQueue_out, State.poisoned_out, if_pos hon]
    · rw [State.keepQueue_out, State.poisoned_out, if_neg (by simp [hoff])]

end Sys2Proof.Machine
end

section
/-! SUPPORT AND PROOF. What the commands of HOST do when their conditions hold (12_host_interface.md R347 to R367): doorbells,
queue states, descriptors fetched and completed, punts, transmit descriptors, failed reads, buffers of
exported records, and interrupts. -/

namespace Sys2Proof.Machine

/-! ### The register block of a queue (R350) -/

/-- A field from bit 0 of a word made of a number that fits it. -/
theorem fld_ofNat {n x : Nat} (hn : n ≤ 32) (hx : x < 2 ^ n) : fld (BitVec.ofNat 32 x) 0 n = x := by
  have h32 : x < 2 ^ 32 := Nat.lt_of_lt_of_le hx (Nat.pow_le_pow_right (by decide) hn)
  simp only [fld, BitVec.toNat_ofNat, Nat.pow_zero, Nat.div_one, Nat.mod_eq_of_lt h32, Nat.mod_eq_of_lt hx]

theorem fld_lt (w : Word) (lo n : Nat) : fld w lo n < 2 ^ n := Nat.mod_lt _ (Nat.two_pow_pos n)

@[simp] theorem State.hqReg_setHqReg (s : State) (i : Nat) (o : Nat → Nat) (v : Nat) :
    (s.setHqReg i o v).hqReg i o = BitVec.ofNat 32 v := State.reg_setReg _ _ _ _

theorem State.hqReg_setHqReg_ne (s : State) {i : Nat} {o o' : Nat → Nat} (v : Nat) (h : o' (i % 32) ≠ o (i % 32)) :
    (s.setHqReg i o v).hqReg i o' = s.hqReg i o' := State.reg_setReg_ne _ _ (regKey_ne_off h)

theorem State.hqReg_of_regs {s t : State} (h : t.regs = s.regs) (i : Nat) (o : Nat → Nat) : t.hqReg i o = s.hqReg i o := by
  unfold State.hqReg State.reg
  rw [h]

@[simp] theorem State.setHqReg_hq (s : State) (i : Nat) (o : Nat → Nat) (v k : Nat) : (s.setHqReg i o v).hq k = s.hq k := (rfl)
@[simp] theorem State.setHqReg_out (s : State) (i : Nat) (o : Nat → Nat) (v : Nat) : (s.setHqReg i o v).out = s.out := (rfl)

@[simp] theorem State.strictEnd_hq (s old : State) (r : Requester) (k : Nat) : (s.strictEnd old r).hq k = s.hq k := by
  obtain ⟨f, hf⟩ := State.strictEnd_bus s old r
  rw [hf]
  rfl

@[simp] theorem State.strictEnd_regs (s old : State) (r : Requester) : (s.strictEnd old r).regs = s.regs := by
  obtain ⟨f, hf⟩ := State.strictEnd_bus s old r
  rw [hf]

/-! ### Writes of DB and HQ_CTRL (R351, R352) -/

/-- A doorbell, written so that it takes effect at once. -/
theorem exec_doorbell_now {s : State} {q : QueueId} (v : Word) (hlive : s.live = true)
    (hw : s.WritesNow .host pgDoorbell (0x1000 + 4 * q.val)) :
    exec (.doorbell q v) s = .next (((s.doorbell q.val v).strictEnd s .host).keepQueue s) := by
  rw [← State.writeAt_doorbell s .host q v, ← State.regWrite_now v (by omega) hw]
  exact State.run_live _ hlive

/-- HQ_CTRL, written so that it takes effect at once. -/
theorem State.hostWrite_hqCtrl {s : State} {q : QueueId} (v : Word)
    (hw : s.WritesNow .host (pgQueue q.val) (Reg.hqCtrl (q.val % 32))) :
    s.hostWrite (pgQueue q.val) (Reg.hqCtrl (q.val % 32)) v = (s.hqCtrlWrite q.val v).strictEnd s .host := by
  unfold State.hostWrite
  rw [State.regWrite_now v (hqCtrl_lt q) hw, State.writeAt_hqCtrl]

theorem exec_queueEnable_now {s : State} {q : QueueId} (hlive : s.live = true)
    (hw : s.WritesNow .host (pgQueue q.val) (Reg.hqCtrl (q.val % 32))) :
    exec (.queueEnable q) s = .next (((s.hqCtrlWrite q.val 1).strictEnd s .host).keepQueue s) := by
  rw [← State.hostWrite_hqCtrl 1 hw]
  exact State.run_live _ hlive

theorem exec_queueDisable_now {s : State} {q : QueueId} (hlive : s.live = true)
    (hw : s.WritesNow .host (pgQueue q.val) (Reg.hqCtrl (q.val % 32))) :
    exec (.queueDisable q) s = .next (((s.hqCtrlWrite q.val 0).strictEnd s .host).keepQueue s) := by
  rw [← State.hostWrite_hqCtrl 0 hw]
  exact State.run_live _ hlive

/-! ### Doorbells (R352) -/

/-- The state after a doorbell of queue i, before the check for overrun: TAIL is x. -/
def State.rung (s : State) (i : Nat) (v : Word) : State :=
  ((s.setReg pgDoorbell (0x1000 + 4 * i) (v &&& 0xFFFF)).setHqReg i Reg.hqTail (fld v 0 16)).coverTo i (fld v 0 16)

@[simp] theorem State.coverTo_regs (s : State) (i t : Nat) : (s.coverTo i t).regs = s.regs := by
  simp only [State.coverTo, State.setHq_regs]

theorem State.rung_hqTail (s : State) (i : Nat) (v : Word) : (s.rung i v).hqTail i = fld v 0 16 := by
  rw [State.hqTail, State.rung, State.hqReg_of_regs (State.coverTo_regs _ _ _), State.hqReg_setHqReg,
    fld_ofNat (by decide) (fld_lt v 0 16)]

/-- A doorbell of a queue leaves its HEAD as it was. -/
theorem State.rung_hqHead (s : State) {i : Nat} (hi : i < 153) (v : Word) : (s.rung i v).hqHead i = s.hqHead i := by
  have hpage : pgQueue i ≠ pgDoorbell := by simp only [pgQueue, pgDoorbell]; omega
  have hoff : Reg.hqHead (i % 32) ≠ Reg.hqTail (i % 32) := by simp only [Reg.hqHead, Reg.hqTail]; omega
  rw [State.hqHead, State.rung, State.hqReg_of_regs (State.coverTo_regs _ _ _),
    State.hqReg_setHqReg_ne (o' := Reg.hqHead) _ _ hoff, State.hqHead]
  unfold State.hqReg
  rw [State.reg_setReg_ne _ _ (regKey_ne hpage (by omega) (by simp only [Reg.hqHead]; omega))]

theorem State.rung_hqSpan (s : State) {i : Nat} (hi : i < 153) (v : Word) :
    (s.rung i v).hqSpan i = (fld v 0 16 + 65536 - s.hqHead i) % 65536 := by
  rw [State.hqSpan, State.rung_hqTail, State.rung_hqHead s hi]

theorem State.rung_hq (s : State) (i : Nat) (v : Word) :
    (s.rung i v).hq i = { s.hq i with covers := ((s.rung i v).hq i).covers } := by
  simp only [State.rung, State.coverTo, State.hq_setHq, State.setHqReg_hq, State.setReg_hq]

theorem State.doorbell_eq (s : State) {i : Nat} (h152 : i ≠ 152) (v : Word) : s.doorbell i v =
    if (s.hq i).st = .active ∧ (s.hq i).size < (s.rung i v).hqSpan i then (s.rung i v).hqHalt i errOverrun
    else s.rung i v := by
  simp only [State.doorbell, if_neg h152]
  rfl

/-- A doorbell whose TAIL is not too far ahead moves TAIL. -/
theorem exec_doorbell_taken {s : State} {q : QueueId} {v : Word} (hlive : s.live = true)
    (hw : s.WritesNow .host pgDoorbell (0x1000 + 4 * q.val)) (h152 : q.val ≠ 152)
    (hspan : (s.hq q.val).st ≠ .active ∨ (fld v 0 16 + 65536 - s.hqHead q.val) % 65536 ≤ (s.hq q.val).size) :
    ∃ t, exec (.doorbell q v) s = .next t ∧ t.hqTail q.val = fld v 0 16
      ∧ t.hq q.val = { s.hq q.val with covers := (t.hq q.val).covers } := by
  refine ⟨_, exec_doorbell_now v hlive hw, ?_⟩
  have hrung : s.doorbell q.val v = s.rung q.val v := by
    rw [State.doorbell_eq s h152, State.rung_hqSpan s q.isLt]
    exact if_neg fun ⟨hst, hlt⟩ => hspan.elim (fun h => h hst) (fun h => absurd hlt (Nat.not_lt.2 h))
  rw [hrung]
  constructor
  · refine Eq.trans ?_ (s.rung_hqTail q.val v)
    unfold State.hqTail
    rw [State.hqReg_of_regs (State.keepQueue_regs _ _), State.hqReg_of_regs (State.strictEnd_regs _ _ _)]
  · rw [State.keepQueue_hq, State.strictEnd_hq]
    exact s.rung_hq q.val v

/-- A doorbell of the event queue that is not ACTIVE moves HEAD. -/
theorem State.doorbell_event {s : State} (v : Word) (hst : (s.hq 152).st ≠ .active) :
    (s.doorbell 152 v).hqHead 152 = fld v 0 16 := by
  simp only [State.doorbell, if_true, State.setReg_hq, hst, false_and, if_false]
  rw [State.hqHead, State.hqReg_setHqReg, fld_ofNat (by decide) (fld_lt v 0 16)]

/-! ### A queue leaves ACTIVE, or enters it (R351, R359, R367) -/

theorem State.hqLeave_fetched (s : State) (i : Nat) : ((s.hqLeave i).hq i).fetched = [] := by
  simp only [State.hqLeave, State.hq_setHq]

/-- A queue that halts has its error, and an event of HOSTDMA tells it. -/
theorem State.hqHalt_halted (s : State) (i err : Nat) :
    ((s.hqHalt i err).hq i).st = .halted ∧ ((s.hqHalt i err).hq i).err = err
    ∧ (s.hqHalt i err).rbit pgHostdma 0x10 evHalt = true := by
  refine ⟨?_, ?_, State.raise_evt _ _ (by decide)⟩
  all_goals simp only [State.hqHalt, State.raise_hq, State.count_hq, State.hq_setHq]

theorem exec_doorbell_overrun {s : State} {q : QueueId} {v : Word} (hlive : s.live = true)
    (hw : s.WritesNow .host pgDoorbell (0x1000 + 4 * q.val)) (h152 : q.val ≠ 152) (hst : (s.hq q.val).st = .active)
    (hspan : (s.hq q.val).size < (fld v 0 16 + 65536 - s.hqHead q.val) % 65536) :
    ∃ t, exec (.doorbell q v) s = .next t ∧ (t.hq q.val).st = .halted ∧ (t.hq q.val).err = errOverrun
      ∧ t.rbit pgHostdma 0x10 evHalt = true := by
  refine ⟨_, exec_doorbell_now v hlive hw, ?_⟩
  rw [State.doorbell_eq s h152, if_pos ⟨hst, by rwa [State.rung_hqSpan s q.isLt]⟩, State.keepQueue_hq, State.strictEnd_hq]
  obtain ⟨hhalted, herr, hevt⟩ := (s.rung q.val v).hqHalt_halted q.val errOverrun
  exact ⟨hhalted, herr, (State.strictEnd_rbit _ _ _ _ _ _).trans hevt⟩

/-- EN written to a DISABLED queue whose EN was 0 makes it ACTIVE, with the size its HQ_CFG has. -/
theorem State.hqCtrlWrite_enable {s : State} {i : Nat} (hoff : bit (s.hqReg i Reg.hqCtrl) 0 = false)
    (hst : (s.hq i).st = .disabled) :
    ((s.hqCtrlWrite i 1).hq i).st = .active ∧ ((s.hqCtrlWrite i 1).hq i).err = 0
    ∧ ((s.hqCtrlWrite i 1).hq i).log2 = log2Acts (fld (s.hqReg i Reg.hqCfg) 0 5) := by
  have hcfg : ∀ v, (s.setHqReg i Reg.hqCtrl v).hqReg i Reg.hqCfg = s.hqReg i Reg.hqCfg := fun v =>
    State.hqReg_setHqReg_ne (o := Reg.hqCtrl) (o' := Reg.hqCfg) _ _ (by simp only [Reg.hqCfg, Reg.hqCtrl]; omega)
  have hone : bit 1 0 = true := by decide
  simp only [State.hqCtrlWrite, hone, hoff, State.setHqReg_hq, hst, hcfg, if_true, Bool.false_eq_true, if_false,
    State.hq_setHq, and_self]

/-- EN cleared drains an ACTIVE queue, which forgets what it has fetched and not started. -/
theorem State.hqCtrlWrite_disable {s : State} {i : Nat} (hst : (s.hq i).st = .active) :
    ((s.hqCtrlWrite i 0).hq i).st = .draining ∧ ((s.hqCtrlWrite i 0).hq i).fetched = [] := by
  have hzero : bit 0 0 = false := by decide
  simp only [State.hqCtrlWrite, hzero, State.setHqReg_hq, hst, if_true, Bool.false_eq_true, if_false, State.hq_setHq,
    State.hqLeave_fetched, and_self]

/-! ### Descriptors fetched (R353) -/

/-- A queue skips nothing while it fills a buffer, nor does one below those that take exported records. -/
theorem State.exportSkip_none {s : State} {i : Nat} (h : i < 144 ∨ (s.hq i).fill ≠ []) : s.exportSkip i = s.hq i := by
  simp only [State.exportSkip]
  refine if_neg fun ⟨hge, _, _, hfill⟩ => h.elim (fun hlt => absurd hge (Nat.not_le.2 hlt)) fun hne => ?_
  exact hne (List.isEmpty_iff.1 hfill)

section
variable {s : State} {i n : Nat} (hst : (s.hq i).st = .active) (hdma : s.dmaOk = true) (h152 : i ≠ 152)
  (hn : n = (s.hq i).done.length + (s.hq i).fetched.length) (hlt : n < 32) (hspan : n < s.hqSpan i)
include hst hdma h152 hn hlt hspan

/-- A descriptor that was read waits behind those fetched before it. -/
theorem State.fetchDesc_words (ws : List Word) (hfill : i < 144 ∨ (s.hq i).fill ≠ []) :
    ((s.fetchDesc i (some ws)).hq i).fetched
      = (s.hq i).fetched ++ [((s.hqHead i + n) % 65536, (List.range 8).map (wordAt ws))] := by
  subst hn
  have hreads := And.intro hst (And.intro hdma (And.intro h152 (And.intro hlt hspan)))
  simp only [State.fetchDesc, if_pos hreads]
  rw [State.exportSkip_none (hfill.imp_right fun h => by rwa [State.hq_setHq])]
  simp only [State.hq_setHq]

/-- A descriptor whose read fails halts its queue. -/
theorem State.fetchDesc_failed : s.fetchDesc i none = s.hqHalt i errFetch := by
  subst hn
  have hreads := And.intro hst (And.intro hdma (And.intro h152 (And.intro hlt hspan)))
  simp only [State.fetchDesc, if_pos hreads]

end

/-! ### Completions (R354, R366) -/

/-- A queue but for the state of its signal. -/
def HostQ.unsignalled (q : HostQ) : HostQ := { q with since := 0, firstAt := 0, lastSig := none, pending := false }

theorem HostQ.done_of_unsignalled {a b : HostQ} (h : a.unsignalled = b.unsignalled) : a.done = b.done := by
  show a.unsignalled.done = b.unsignalled.done
  rw [h]

theorem HostQ.held_of_unsignalled {a b : HostQ} (h : a.unsignalled = b.unsignalled) : a.held = b.held := by
  show a.unsignalled.held = b.unsignalled.held
  rw [h]

/-- A vector's message is no part of any queue. -/
@[simp] theorem State.msix_hq (s : State) (v k : Nat) : (s.msix v).hq k = s.hq k := by
  simp only [State.msix]
  split
  · rfl
  · split <;> rfl

theorem State.hqSignal_unsignalled (s : State) (i k : Nat) : ((s.hqSignal i).hq k).unsignalled = (s.hq k).unsignalled := by
  simp only [State.hqSignal, State.msix_hq]
  exact State.setHq_keeps HostQ.unsignalled (by rfl) k

theorem State.hqCompleted_unsignalled (s : State) (i : Nat) (irq : Bool) (k : Nat) :
    ((s.hqCompleted i irq).hq k).unsignalled = (s.hq k).unsignalled := by
  unfold State.hqCompleted
  extract_lets q q' w pend s'
  have hs : (s'.hq k).unsignalled = (s.hq k).unsignalled := State.setHq_keeps HostQ.unsignalled (by rfl) k
  split
  · rw [State.hqSignal_unsignalled, hs]
  · exact hs

theorem State.hqCompleted_regs (s : State) (i : Nat) (irq : Bool) : (s.hqCompleted i irq).regs = s.regs :=
  (State.hqCompleted_same (.refl _) s i irq (.refl _ s)).regs rfl

/-- What a completion writes into host memory: its data, the words before its last, and the last. -/
def State.written (s : State) (i : Nat) (d : Done) : State :=
  let q := s.hq i
  let a := q.entry d.idx
  let s := if d.data.isEmpty then s else s.emit (.hostWrite d.addr d.data (!q.strict))
  let s := if 128 ≤ i ∧ i < 144 then s.emit (.hostWrite (a + 24) (wordsLe ((d.words.drop 4).take 1)) (!q.strict))
    else s.emit (.hostWrite (a + 8) (wordsLe (d.words.take 5)) (!q.strict))
  s.emit (.hostWrite (a + 28) (wordsLe (d.words.drop 5)) false)

/-- What a completion counts. -/
def State.tallied (s : State) (i : Nat) (d : Done) : State :=
  let s := s.count64 (pgQueue i) (Reg.hqDone (i % 32)) 1
  let s := s.count64 (pgQueue i) (Reg.hqBytes (i % 32)) (d.data.length + d.moved)
  if fld (wordAt d.words 5) 0 8 = 0 then s else s.count (pgQueue i) (Reg.hqErrs (i % 32)) 1

theorem State.hqWriteBack_eq (s : State) (i : Nat) (d : Done) : s.hqWriteBack i d =
    ((((s.written i d).setHqReg i Reg.hqHead ((d.idx + 1) % 65536)).tallied i d).hqCompleted i d.irq) := rfl

@[simp] theorem State.written_hq (s : State) (i : Nat) (d : Done) (k : Nat) : (s.written i d).hq k = s.hq k := by
  simp only [State.written, State.emit_hq]
  split <;> split <;> rfl

@[simp] theorem State.tallied_hq (s : State) (i : Nat) (d : Done) (k : Nat) : (s.tallied i d).hq k = s.hq k := by
  simp only [State.tallied]
  split <;> rfl

@[simp] theorem State.tallied_out (s : State) (i : Nat) (d : Done) : (s.tallied i d).out = s.out := by
  simp only [State.tallied]
  split <;> rfl

theorem State.count64_reg_ne (s : State) {p o n o' : Nat} (h : o' ≠ o) (h4 : o' ≠ o + 4) :
    (s.count64 p o n).reg p o' = s.reg p o' :=
  State.setReg64_reg_ne s (regKey_ne_off h) (regKey_ne_off h4)

/-- The counts of a completion leave HEAD as it was. -/
theorem State.tallied_hqHead (s : State) (i : Nat) (d : Done) : (s.tallied i d).hqReg i Reg.hqHead = s.hqReg i Reg.hqHead := by
  have hcounts : ((s.count64 (pgQueue i) (Reg.hqDone (i % 32)) 1).count64 (pgQueue i) (Reg.hqBytes (i % 32))
      (d.data.length + d.moved)).hqReg i Reg.hqHead = s.hqReg i Reg.hqHead := by
    unfold State.hqReg
    rw [State.count64_reg_ne _ (by unfold Reg.hqHead Reg.hqBytes; omega) (by unfold Reg.hqHead Reg.hqBytes; omega),
      State.count64_reg_ne _ (by unfold Reg.hqHead Reg.hqDone; omega) (by unfold Reg.hqHead Reg.hqDone; omega)]
  simp only [State.tallied]
  split
  · exact hcounts
  · refine Eq.trans ?_ hcounts
    exact State.count_reg_ne _ (regKey_ne_off (by unfold Reg.hqHead Reg.hqErrs; omega))

/-- The data of a completion is sent. -/
theorem State.written_data {s : State} {i : Nat} {d : Done} (h : d.data ≠ []) :
    .hostWrite d.addr d.data (!(s.hq i).strict) ∈ (s.written i d).out := by
  have hne : d.data.isEmpty = false := by simpa [List.isEmpty_iff] using h
  simp only [State.written, hne, Bool.false_eq_true, if_false]
  split <;> simp [State.emit]

theorem State.hqWriteBack_unsignalled (s : State) (i : Nat) (d : Done) (k : Nat) :
    ((s.hqWriteBack i d).hq k).unsignalled = (s.hq k).unsignalled := by
  rw [State.hqWriteBack_eq, State.hqCompleted_unsignalled, State.tallied_hq, State.setHqReg_hq, State.written_hq]

/-- A completion moves HEAD past its descriptor. -/
theorem State.hqWriteBack_hqHead (s : State) (i : Nat) (d : Done) : (s.hqWriteBack i d).hqHead i = (d.idx + 1) % 65536 := by
  rw [State.hqWriteBack_eq, State.hqHead, State.hqReg_of_regs (State.hqCompleted_regs _ _ _), State.tallied_hqHead,
    State.hqReg_setHqReg]
  exact fld_ofNat (n := 16) (by decide) (Nat.mod_lt _ (by decide))

theorem State.hqWriteBack_data {s : State} {i : Nat} {d : Done} (h : d.data ≠ []) :
    .hostWrite d.addr d.data (!(s.hq i).strict) ∈ (s.hqWriteBack i d).out := by
  rw [State.hqWriteBack_eq]
  refine (State.hqCompleted_out _ _ _).subset ?_
  rw [State.tallied_out, State.setHqReg_out]
  exact State.written_data h

theorem State.complete_first {s : State} {i : Nat} {d : Done} {ds : List Done} (h : (s.exportSkip i).done = d :: ds)
    (hleft : d.left = 0) (hdma : s.dmaOk = true) :
    ((s.complete i).hq i).done = ds ∧ (s.complete i).hqHead i = (d.idx + 1) % 65536 := by
  have heq : s.complete i = (s.setHq i { s.exportSkip i with done := ds }).hqWriteBack i d := by
    simp only [State.complete, h, if_pos (And.intro hleft hdma)]
  rw [heq]
  refine ⟨?_, State.hqWriteBack_hqHead _ _ _⟩
  rw [HostQ.done_of_unsignalled (State.hqWriteBack_unsignalled _ _ _ _), State.hq_setHq]

/-! ### Punts (R358) -/

/-- Frame i leaves those that its queue holds, and nothing puts it back. -/
theorem State.deliver_held (s : State) (q i idx : Nat) (ws : List Word) : i ∉ ((s.deliver q i idx ws).hq q).held := by
  simp only [State.deliver]
  generalize hu : (State.releaseCells _ _ _ : State) = u
  have hheld : (u.hq q).held = (s.hq q).held.filter (fun j => decide (j ≠ i)) := by
    rw [← hu, HostQ.held_of_uncharged ((State.releaseCells_keeps _ _ _).2 q),
      HostQ.held_of_unsignalled (State.hqWriteBack_unsignalled _ _ _ _), State.hq_setHq]
  generalize hw : (if (s.frame i).unit = true then _ else _ : State) = w
  have hhost : w.host = u.host := by
    rw [← hw]
    split
    · exact (State.accountUnit_same (.refl _) _ _ _ _ (.refl _ _)).host rfl
    · rfl
  have hlast : ((w.finish i 0 (s.frame i)).hq q).held = (w.hq q).held := rfl
  rw [hlast, State.hq_of_host hhost, hheld]
  simp

/-- The bytes of the frame that fit are sent. -/
theorem State.deliver_sent {s : State} {q i idx : Nat} {ws : List Word} (hbuf : 64 ≤ fld (wordAt ws 2) 0 16)
    (hdata : (s.frame i).data ≠ []) :
    .hostWrite (bufAddr ws) ((s.frame i).data.take (fld (wordAt ws 2) 0 16)) (!(s.hq q).strict)
      ∈ (s.deliver q i idx ws).out := by
  have htake : (s.frame i).data.take (fld (wordAt ws 2) 0 16) ≠ [] := by
    rw [ne_eq, List.take_eq_nil_iff]
    exact fun h => h.elim (fun h0 => by omega) hdata
  simp only [State.deliver]
  generalize hv : (State.hqWriteBack _ _ _ : State) = v
  have hsent : .hostWrite (bufAddr ws) ((s.frame i).data.take (fld (wordAt ws 2) 0 16)) (!(s.hq q).strict) ∈ v.out := by
    have hback := State.hqWriteBack_data (s := s.setHq q { s.hq q with
        held := (s.hq q).held.filter (fun j => decide (j ≠ i)), heldN := (s.hq q).heldN - (s.frame i).cells.length })
      (i := q) (d := { idx := idx, words := rxWords (s.frame i) (fld (wordAt ws 2) 0 16)
                       data := (s.frame i).data.take (fld (wordAt ws 2) 0 16), addr := bufAddr ws }) htake
    rwa [hv, State.hq_setHq] at hback
  have hout : ∀ w : State, w.out = v.out → (w.finish i 0 (s.frame i)).out = v.out := fun _ h => h
  rw [hout]
  · exact hsent
  · split
    · rw [(State.accountUnit_same (.refl _) _ _ _ _ (.refl _ _)).out rfl, State.count64_out,
        (State.releaseCells_same (.refl _) _ _ _ (.refl _ _)).out rfl]
    · rw [State.count64_out, (State.releaseCells_same (.refl _) _ _ _ (.refl _ _)).out rfl]

/-- The frame's unit ends. -/
theorem State.deliver_gone (s : State) (q i idx : Nat) (ws : List Word) :
    AMap.get none (s.deliver q i idx ws).frames i = none := by
  simp only [State.deliver, State.finish, State.endFrame, AMap.get_set_same]

/-- A held frame that has come whole and without fault meets the next descriptor, whose buffer is long enough. -/
theorem State.puntDeliver_first {s : State} {q i idx : Nat} {is : List Nat} {ws : List Word} (hheld : (s.hq q).held = i :: is)
    (htail : (s.frame i).tail = true) (hneed : (s.frame i).need = 0) (hbad : (s.frame i).bad = 0)
    (hnext : s.nextDesc q 1 = some (idx, ws)) (hbuf : 64 ≤ fld (wordAt ws 2) 0 16) :
    s.puntDeliver q = (s.setHq q { s.hq q with fetched := (s.hq q).fetched.drop 1 }).deliver q i idx ws := by
  have hwhole : ¬ ((s.frame i).tail = false ∨ (s.frame i).need ≠ 0) := by simp [htail, hneed]
  simp only [State.puntDeliver, hheld, if_neg hwhole, if_neg (fun hne : (s.frame i).bad ≠ 0 => hne hbad), hnext, if_neg (Nat.not_lt.2 hbuf)]

theorem exec_puntDeliver_first {s : State} {n : Fin 64} {i idx : Nat} {is : List Nat} {ws : List Word} (hlive : s.live = true)
    (hheld : (s.hq n.val).held = i :: is) (htail : (s.frame i).tail = true) (hneed : (s.frame i).need = 0)
    (hbad : (s.frame i).bad = 0) (hnext : s.nextDesc n.val 1 = some (idx, ws)) (hbuf : 64 ≤ fld (wordAt ws 2) 0 16)
    (hdata : (s.frame i).data ≠ []) :
    ∃ t, exec (.puntDeliver n) s = .next t ∧ i ∉ (t.hq n.val).held
      ∧ .hostWrite (bufAddr ws) ((s.frame i).data.take (fld (wordAt ws 2) 0 16)) (!(s.hq n.val).strict) ∈ t.out
      ∧ AMap.get none t.frames i = none := by
  refine ⟨_, State.run_live (·.puntDeliver n.val) hlive, ?_⟩
  rw [State.puntDeliver_first hheld htail hneed hbad hnext hbuf]
  have hsent := State.deliver_sent (s := s.setHq n.val { s.hq n.val with fetched := (s.hq n.val).fetched.drop 1 })
    (q := n.val) (i := i) (idx := idx) hbuf hdata
  rw [State.hq_setHq] at hsent
  exact ⟨State.deliver_held _ _ _ _ _, hsent, State.deliver_gone _ _ _ _ _⟩

/-! ### Reads of host memory that fail (R367) -/

/-- Transmit queues and those of table commands are told of a read that failed. -/
theorem exec_dmaReadError_live {s : State} (q : QueueId) (hlive : s.live = true) : exec (.dmaReadError q) s =
    .next ((if 64 ≤ q.val ∧ q.val < 128 then s.txReadError (q.val - 64)
      else if 128 ≤ q.val ∧ q.val < 144 then s.tableDmaError (q.val - 128) else s).keepQueue s) :=
  State.run_live (fun s => if 64 ≤ q.val ∧ q.val < 128 then s.txReadError (q.val - 64)
    else if 128 ≤ q.val ∧ q.val < 144 then s.tableDmaError (q.val - 128) else s) hlive

/-! ### Transmit descriptors (R360 to R362) -/

theorem State.started_done (s : State) (i : Nat) (d : Done) : ((s.started i d).hq i).done = (s.hq i).done ++ [d] := by
  simp only [State.started, State.hq_setHq]

/-- A descriptor that enters the path leaves every queue as it was. -/
theorem State.txEnter_hq (s : State) (t : Nat) (ws : List Word) (data : List Byte) (k : Nat) :
    (s.txEnter t ws data).hq k = s.hq k :=
  State.hq_of_host ((State.txEnter_same (.refl _) s t ws data (.refl _ s)).host rfl) k

/-- A transmit descriptor that nothing refuses or holds enters the path and waits for its write-back. -/
theorem State.txRun_enters {s : State} {t idx : Nat} {ws : List Word} {p : Nat → Bool} (data : List Byte)
    (hnext : s.nextDesc (64 + t) 8 = some (idx, ws)) (hp : p (txMode ws) = true) (hst : s.txStatus ws = 0)
    (hheld : s.txHeld ws = false) :
    s.txRun t p data = (s.txEnter t ws data).started (64 + t) (txDone idx ws 0) := by
  simp [State.txRun, hnext, hp, hst, hheld]

theorem State.txEnter_pipe {s : State} {ws : List Word} (t : Nat) (data : List Byte) (hmode : txMode ws = 0) :
    ((s.txEnter t ws data).slice (portSlice (fld (wordAt ws 3) 0 10))).inj
      = (s.slice (portSlice (fld (wordAt ws 3) 0 10))).inj ++ [s.nextFrame] := by
  simp [State.txEnter, hmode, State.newFrame]

/-- A frame on its way to step 4 stays for its queue, and what it is. -/
theorem State.toStep4_frame (s : State) (i h d : Nat) :
    ((s.toStep4 i h d).frame i).q = (s.frame i).q ∧ ((s.toStep4 i h d).frame i).kind = (s.frame i).kind := by
  simp only [State.toStep4]
  split <;> simp

theorem State.enterDeck_frame (s : State) (f : Frame) (h : Nat) :
    ((s.enterDeck f h).frame s.nextFrame).q = f.q ∧ ((s.enterDeck f h).frame s.nextFrame).kind = f.kind := by
  simp only [State.enterDeck, State.toStep4_frame]
  simp [State.beginHolder, State.newFrame, State.frame, State.newCopy]

theorem State.txEnter_direct {s : State} {ws : List Word} (t : Nat) (data : List Byte) (hmode : txMode ws = 1) :
    ((s.txEnter t ws data).frame s.nextFrame).q = fld (wordAt ws 3) 0 15
    ∧ ((s.txEnter t ws data).frame s.nextFrame).kind = .direct t := by
  have hne : ¬ (1 = 0) := by decide
  simp only [State.txEnter, hmode, if_neg hne, if_true]
  exact State.enterDeck_frame _ _ _

theorem State.txEnter_pool {s : State} {ws : List Word} (t : Nat) (data : List Byte) (hmode : txMode ws = 2) :
    (s.txEnter t ws data).deckOf 0
      = (s.deckOf 0).runWrite (fld (wordAt ws 3) 0 20) (cellsOf (txLen ws)) (s.txBytes ws data) := by
  simp [State.txEnter, hmode]

section
variable {s : State} {n : Fin 64} {idx : Nat} {ws : List Word} (hlive : s.live = true)
  (hnext : s.nextDesc (64 + n.val) 8 = some (idx, ws)) (hst : s.txStatus ws = 0)
include hlive hnext hst

theorem exec_pipe_enters (data : List Byte) (hmode : txMode ws = 0) (hheld : s.txHeld ws = false) :
    ∃ t, exec (.pipe n data) s = .next t ∧ (t.hq (64 + n.val)).done = (s.hq (64 + n.val)).done ++ [txDone idx ws 0]
      ∧ (t.slice (portSlice (fld (wordAt ws 3) 0 10))).inj
        = (s.slice (portSlice (fld (wordAt ws 3) 0 10))).inj ++ [s.nextFrame] := by
  refine ⟨_, State.run_live (·.txRun n.val (fun m => m == 0 || m == 3) data) hlive, ?_⟩
  rw [State.txRun_enters data hnext (by simp [hmode]) hst hheld, State.keepQueue_hq, State.started_done, State.txEnter_hq]
  exact ⟨rfl, State.txEnter_pipe n.val data hmode⟩

theorem exec_direct_enters (data : List Byte) (hmode : txMode ws = 1) (hheld : s.txHeld ws = false) :
    ∃ t, exec (.direct n data) s = .next t ∧ (t.hq (64 + n.val)).done = (s.hq (64 + n.val)).done ++ [txDone idx ws 0]
      ∧ (t.frame s.nextFrame).q = fld (wordAt ws 3) 0 15 ∧ (t.frame s.nextFrame).kind = .direct n.val := by
  refine ⟨_, State.run_live (·.txRun n.val (· == 1) data) hlive, ?_⟩
  rw [State.txRun_enters data hnext (by simp [hmode]) hst hheld, State.keepQueue_hq, State.started_done, State.txEnter_hq]
  exact ⟨rfl, State.txEnter_direct n.val data hmode⟩

theorem exec_poolWrite_enters (data : List Byte) (hmode : txMode ws = 2) :
    ∃ t, exec (.poolWrite n data) s = .next t ∧ (t.hq (64 + n.val)).done = (s.hq (64 + n.val)).done ++ [txDone idx ws 0]
      ∧ t.deckOf 0 = (s.deckOf 0).runWrite (fld (wordAt ws 3) 0 20) (cellsOf (txLen ws)) (s.txBytes ws data) := by
  refine ⟨_, State.run_live (·.txRun n.val (· == 2) data) hlive, ?_⟩
  rw [State.txRun_enters data hnext (by simp [hmode]) hst (by simp [State.txHeld, hmode]), State.keepQueue_hq,
    State.started_done, State.txEnter_hq]
  exact ⟨rfl, State.txEnter_pool n.val data hmode⟩

/-- The failed read of host memory ends the descriptor with DMA_ERROR (R367). -/
theorem exec_dmaReadError_tx {q : QueueId} (hpool : txSrcPool ws = false) (hq : q.val = 64 + n.val) :
    ∃ t, exec (.dmaReadError q) s = .next t
      ∧ (t.hq (64 + n.val)).done = (s.hq (64 + n.val)).done ++ [txDone idx ws 0x09] := by
  have htx : 64 ≤ q.val ∧ q.val < 128 := by omega
  have hn : q.val - 64 = n.val := by omega
  have hread : s.txReadError n.val = (s.started (64 + n.val) (txDone idx ws 0x09)).count pgHostdma Reg.hdErrCnt 1 := by
    simp [State.txReadError, hnext, hst, hpool]
  refine ⟨_, exec_dmaReadError_live q hlive, ?_⟩
  rw [if_pos htx, hn, hread, State.keepQueue_hq, State.count_hq, State.started_done]

end

/-! ### A table command whose block is not read (R367; 06_tables.md R207) -/

theorem State.errAll_hq (s : State) (l : List Nat) (k : Nat) : (s.errAll l).hq k = s.hq k :=
  State.hq_of_host ((State.errAll_same (.refl _) s l (.refl _ s)).host rfl) k

theorem State.hintStart_hq (s : State) (us k : Nat) : (s.hintStart us).hq k = s.hq k :=
  State.hq_of_host ((State.hintStart_same (.refl _) s us (.refl _ s)).host rfl) k

theorem State.tableDmaError_done {s : State} {n idx : Nat} {ws : List Word} (hnext : s.nextCmd n = some (idx, ws))
    (hop : dOp ws ≠ 0x3F) (hearly : s.earlyFault ws = none) :
    ((s.tableDmaError n).hq (128 + n)).done = (s.hq (128 + n)).done ++ [doneOf idx ws (fail stDmaError) 0] := by
  simp only [State.tableDmaError, hnext, if_neg hop, hearly, Option.getD_none, if_true, State.errAll_hq, State.started_done,
    State.count_hq]
  split
  · rw [State.hintStart_hq]
  · rfl

theorem exec_dmaReadError_table {s : State} {q : QueueId} {n : Fin 16} {idx : Nat} {ws : List Word} (hlive : s.live = true)
    (hq : q.val = 128 + n.val) (hnext : s.nextCmd n.val = some (idx, ws)) (hop : dOp ws ≠ 0x3F)
    (hearly : s.earlyFault ws = none) :
    ∃ t, exec (.dmaReadError q) s = .next t
      ∧ (t.hq q.val).done = (s.hq q.val).done ++ [doneOf idx ws (fail stDmaError) 0] := by
  have htx : ¬ (64 ≤ q.val ∧ q.val < 128) := by omega
  have htable : 128 ≤ q.val ∧ q.val < 144 := by omega
  have hn : q.val - 128 = n.val := by omega
  refine ⟨_, exec_dmaReadError_live q hlive, ?_⟩
  rw [if_neg htx, if_pos htable, hn, State.keepQueue_hq, hq]
  exact State.tableDmaError_done hnext hop hearly

/-! ### Buffers of exported records (R364) -/

/-- Invalid buffers that are skipped complete behind those that wait, and fill nothing. -/
theorem HostQ.skipBad_done (hold : Nat → Bool) (q : HostQ) (l : List (Nat × List Word)) :
    (q.skipBad hold l).fill = q.fill ∧ ∃ ds, (q.skipBad hold l).done = q.done ++ ds := by
  induction l generalizing q with
  | nil => exact ⟨rfl, [], (List.append_nil _).symm⟩
  | cons e es ih =>
    unfold HostQ.skipBad
    split
    · obtain ⟨hfill, ds, hdone⟩ := ih { q with
        done := q.done ++ [{ idx := e.1, words := doneWords e.2 0 6, fence := bit (wordAt e.2 2) 22 }] }
      exact ⟨hfill, _, hdone.trans (List.append_assoc _ _ _)⟩
    · exact ⟨rfl, [], (List.append_nil _).symm⟩

theorem State.exportSkip_done (s : State) (i : Nat) :
    (s.exportSkip i).fill = (s.hq i).fill ∧ ∃ ds, (s.exportSkip i).done = (s.hq i).done ++ ds := by
  simp only [State.exportSkip]
  split
  · exact HostQ.skipBad_done _ _ _
  · exact ⟨rfl, [], (List.append_nil _).symm⟩

/-- A buffer that closes completes with its records, and is no longer filled. -/
theorem State.closeFill_done {s : State} {i : Nat} {e : Nat × List Word} {es : List (Nat × List Word)}
    (h : (s.hq i).fetched = e :: es) : ((s.closeFill i).hq i).fill = []
      ∧ ∃ d ds, ((s.closeFill i).hq i).done = (s.hq i).done ++ d :: ds ∧ d.idx = e.1
        ∧ d.data = (s.hq i).fill.flatMap Export.wire
        ∧ d.words = doneWords e.2 (BitVec.ofNat 32 (s.hq i).fill.length) 0 := by
  obtain ⟨hfill, ds, hdone⟩ := (s.setHq i (s.hq i).closeBuf).exportSkip_done i
  have hclose : ((s.closeFill i).hq i) = (s.setHq i (s.hq i).closeBuf).exportSkip i := State.hq_setHq _ _ _
  rw [State.hq_setHq] at hfill hdone
  rw [hclose, hfill, hdone]
  simp only [HostQ.closeBuf, h, true_and]
  exact ⟨_, ds, List.append_assoc _ _ _, rfl, rfl, rfl⟩

theorem exec_exportBufferTimeout {s : State} {n : Fin 8} {e : Nat × List Word} {es : List (Nat × List Word)}
    (hlive : s.live = true) (hfetched : (s.hq (144 + n.val)).fetched = e :: es) (hfill : (s.hq (144 + n.val)).fill ≠ [])
    (hdue : (s.hq (144 + n.val)).fillAt + 1000000 ≤ s.clk.up) :
    ∃ t, exec (.exportBufferTimeout n) s = .next t ∧ (t.hq (144 + n.val)).fill = []
      ∧ ∃ d ds, (t.hq (144 + n.val)).done = (s.hq (144 + n.val)).done ++ d :: ds ∧ d.idx = e.1
        ∧ d.data = (s.hq (144 + n.val)).fill.flatMap Export.wire
        ∧ d.words = doneWords e.2 (BitVec.ofNat 32 (s.hq (144 + n.val)).fill.length) 0 := by
  have hcond : (!(s.hq (144 + n.val)).fill.isEmpty && decide ((s.hq (144 + n.val)).fillAt + 1000000 ≤ s.clk.up)) = true := by
    simp [hfill, hdue]
  exact ⟨_, State.run_onlyIf (b := fun s => !(s.hq (144 + n.val)).fill.isEmpty
      && decide ((s.hq (144 + n.val)).fillAt + 1000000 ≤ s.clk.up)) hlive hcond, State.closeFill_done hfetched⟩

/-! ### Interrupts (R346, R347, R366) -/

/-- A signalled queue is no longer pending. -/
theorem State.hqSignalled_pending {s : State} {l : List Nat} {i : Nat} (h : i ∈ l ∨ (s.hq i).pending = false) :
    ((s.hqSignalled l).hq i).pending = false := by
  induction l generalizing s with
  | nil => exact h.resolve_left List.not_mem_nil
  | cons j l ih =>
    refine ih ?_
    by_cases hij : i = j
    · subst hij
      exact .inr (by rw [State.hq_setHq])
    · exact (h.imp_left fun hi => (List.mem_cons.1 hi).resolve_left hij).imp_right fun hp => by
        rwa [State.hq_setHq_ne _ _ hij]

theorem State.hqSignalled_function (s : State) (l : List Nat) : (s.hqSignalled l).host.function = s.host.function := by
  induction l generalizing s with
  | nil => rfl
  | cons i l ih => exact (ih _).trans (State.setHq_function _ _ _)

theorem State.hqSignalled_out (s : State) (l : List Nat) : (s.hqSignalled l).out = s.out :=
  (State.hqSignalled_same (.refl _) s l (.refl _ s)).out rfl

/-- The message of a vector: sent, held as its pending bit, or not made while MSI-X is off. -/
theorem State.msix_message (s : State) (v : Nat) :
    (s.host.cfg.msixOn = false → (s.msix v).out = s.out ∧ (s.msix v).host.msix = s.host.msix)
    ∧ (s.host.cfg.msixOn = true →
      if AMap.get false s.host.msix.clear v && !s.host.cfg.msixMask then (s.msix v).out = s.out ++ [.msix v]
      else (s.msix v).out = s.out ∧ AMap.get false (s.msix v).host.msix.pend v = true) := by
  constructor
  · intro hoff
    simp [State.msix, hoff]
  · intro hon
    by_cases hclear : (AMap.get false s.host.msix.clear v && !s.host.cfg.msixMask) = true
    · rw [if_pos hclear]
      simp only [State.msix, hon, Bool.true_eq_false, if_false, if_pos hclear]
      rfl
    · rw [if_neg hclear]
      simp only [State.msix, hon, Bool.true_eq_false, if_false, if_neg hclear, AMap.get_set_same, and_self]

/-- The queues that signal together with queue i. -/
def State.signalWith (s : State) (i : Nat) : List Nat :=
  (List.range 153).filter (fun j => s.hqDue j && decide (s.hqVector j = s.hqVector i))

theorem State.irqHoldoff_due {s : State} {i : Nat} (h : s.hqDue i = true) :
    s.irqHoldoff i = (s.hqSignalled (s.signalWith i)).msix (s.hqVector i) := by
  simp only [State.irqHoldoff, h, if_true]
  rfl

theorem exec_irqHoldoff_due {s : State} {q : QueueId} (hlive : s.live = true) (h : s.hqDue q.val = true) :
    ∃ t, exec (.irqHoldoff q) s = .next t ∧ (t.hq q.val).pending = false
      ∧ (s.host.cfg.msixOn = false → t.out = s.out ∧ t.host.msix = s.host.msix)
      ∧ (s.host.cfg.msixOn = true →
        if AMap.get false s.host.msix.clear (s.hqVector q.val) && !s.host.cfg.msixMask then
          t.out = s.out ++ [.msix (s.hqVector q.val)]
        else t.out = s.out ∧ AMap.get false t.host.msix.pend (s.hqVector q.val) = true) := by
  refine ⟨_, State.run_live (·.irqHoldoff q.val) hlive, ?_⟩
  rw [State.irqHoldoff_due h]
  have hmem : q.val ∈ s.signalWith q.val := by simp [State.signalWith, h]
  have hmessage := (s.hqSignalled (s.signalWith q.val)).msix_message (s.hqVector q.val)
  have hcfg : (s.hqSignalled (s.signalWith q.val)).host.cfg = s.host.cfg :=
    congrArg (·.cfg) (s.hqSignalled_function (s.signalWith q.val))
  have hmsix : (s.hqSignalled (s.signalWith q.val)).host.msix = s.host.msix :=
    congrArg (·.msix) (s.hqSignalled_function (s.signalWith q.val))
  rw [hcfg, hmsix, State.hqSignalled_out] at hmessage
  refine ⟨?_, hmessage⟩
  rw [State.keepQueue_hq, State.msix_hq]
  exact State.hqSignalled_pending (.inl hmem)

/-! ### The obligation -/

/-- Settles O52, one theorem or more for each command. -/
theorem hostQueueCommandsComplete : Obligations.HostQueueCommandsComplete := by
  unfold Obligations.HostQueueCommandsComplete
  intro s q hlive
  refine ⟨?doorbell, ?enable, ?disable, ?drained, ?fetch, ?complete, ?punt, ?transmit, ?table, ?buffer, ?interrupt⟩
  case doorbell =>
    intro v hw
    refine ⟨fun h152 hspan => exec_doorbell_taken hlive hw h152 hspan,
      fun h152 hst hspan => exec_doorbell_overrun hlive hw h152 hst hspan, fun h152 hst => ?_⟩
    refine ⟨_, exec_doorbell_now v hlive hw, ?_⟩
    rw [h152]
    refine Eq.trans ?_ (State.doorbell_event v hst)
    unfold State.hqHead
    rw [State.hqReg_of_regs (State.keepQueue_regs _ _), State.hqReg_of_regs (State.strictEnd_regs _ _ _)]
  case enable =>
    intro hw hoff hst
    refine ⟨_, exec_queueEnable_now hlive hw, ?_⟩
    rw [State.keepQueue_hq, State.strictEnd_hq]
    exact State.hqCtrlWrite_enable hoff hst
  case disable =>
    intro hw hst
    refine ⟨_, exec_queueDisable_now hlive hw, ?_⟩
    rw [State.keepQueue_hq, State.strictEnd_hq]
    exact State.hqCtrlWrite_disable hst
  case drained =>
    intro hst hdone
    refine ⟨_, State.run_live _ hlive, ?_⟩
    simp [hst, hdone]
  case fetch =>
    intro n hn hst hdma h152 hlt hspan
    constructor
    · exact fun ws hfill => ⟨_, State.run_live (·.fetchDesc q.val (some ws)) hlive,
        State.fetchDesc_words hst hdma h152 hn hlt hspan ws hfill⟩
    · refine ⟨_, State.run_live (·.fetchDesc q.val none) hlive, ?_⟩
      rw [State.fetchDesc_failed hst hdma h152 hn hlt hspan]
      exact s.hqHalt_halted q.val errFetch
  case complete =>
    exact fun d ds hdone hleft hdma => ⟨_, State.run_live (·.complete q.val) hlive, State.complete_first hdone hleft hdma⟩
  case punt =>
    exact fun n i is idx ws hheld htail hneed hbad hnext hbuf hdata =>
      exec_puntDeliver_first hlive hheld htail hneed hbad hnext hbuf hdata
  case transmit =>
    exact fun n data idx ws hnext hst => ⟨fun hmode hheld => exec_pipe_enters hlive hnext hst data hmode hheld,
      fun hmode hheld => exec_direct_enters hlive hnext hst data hmode hheld,
      fun hmode => exec_poolWrite_enters hlive hnext hst data hmode,
      fun hpool hq => exec_dmaReadError_tx hlive hnext hst hpool hq⟩
  case table => exact fun n idx ws hq hnext hop hearly => exec_dmaReadError_table hlive hq hnext hop hearly
  case buffer => exact fun n e es hfetched hfill hdue => exec_exportBufferTimeout hlive hfetched hfill hdue
  case interrupt => exact fun hdue => exec_irqHoldoff_due hlive hdue

end Sys2Proof.Machine
end

section
/-! SUPPORT AND PROOF. What no step takes back and what only a few commands change: the fuses (16_forester_security.md R433,
R444, R445), the copies of the retained image, the fatal summaries and the performance history (17_reset_retained.md R458,
R461; 14_lookout_faults.md R399; 16_forester_security.md R436). -/

namespace Sys2Proof.Machine

/-! ### What lasts -/

/-- The slots of the performance history without the time at which each was last an enabled span port (R436). -/
def MramS.bins (m : MramS) : List HistSlot := m.hist.map (fun x => { x with lastOn := 0 })

/-- The state s holds in the MRAM and the fuses what the state k held, but for when a position of the history was last on. -/
structure State.Retains (k s : State) : Prop where
  copyA : s.mram.copyA = k.mram.copyA
  copyB : s.mram.copyB = k.mram.copyB
  sums  : s.mram.sums = k.mram.sums
  bins  : s.mram.bins = k.mram.bins
  fuses : s.fuses = k.fuses

/-- Every field but the MRAM and the fuses. -/
abbrev volatileMask : Nat := 0x19fffffffffe

theorem State.Retains.refl (s : State) : s.Retains s := ⟨rfl, rfl, rfl, rfl, rfl⟩

theorem State.Retains.of_eq {k s t : State} (hs : k.Retains s) (hm : t.mram = s.mram) (hf : t.fuses = s.fuses) :
    k.Retains t :=
  ⟨hm ▸ hs.copyA, hm ▸ hs.copyB, hm ▸ hs.sums, hm ▸ hs.bins, hf ▸ hs.fuses⟩

/-- What leaves the MRAM and the fuses as they were retains them. -/
theorem State.Retains.same {k s t : State} (hs : k.Retains s) (h : State.Same volatileMask s t) : k.Retains t :=
  hs.of_eq (h.mram rfl) (h.fuses rfl)

/-- A history in which slots have other times and the same bins. -/
theorem State.Retains.hist {k s t : State} (hs : k.Retains s) {f : HistSlot → HistSlot}
    (hf : ∀ x, { f x with lastOn := 0 } = { x with lastOn := 0 })
    (hm : t.mram = { s.mram with hist := s.mram.hist.map f }) (hfuse : t.fuses = s.fuses) : k.Retains t := by
  refine ⟨hm ▸ hs.copyA, hm ▸ hs.copyB, hm ▸ hs.sums, ?_, hfuse ▸ hs.fuses⟩
  rw [hm, ← hs.bins]
  simp only [MramS.bins, List.map_map, Function.comp_def, hf]

theorem State.run_retains {k s t : State} {f : State → State} (hf : ∀ s, k.Retains s → k.Retains (f s))
    (hs : k.Retains s) (ht : s.run f = .next t) : k.Retains t := by
  cases ht
  split
  · exact (hf s hs).of_eq rfl rfl
  · exact hs.of_eq rfl rfl

theorem State.runAlways_retains {k s t : State} {f : State → State} (hf : ∀ s, k.Retains s → k.Retains (f s))
    (hs : k.Retains s) (ht : s.runAlways f = .next t) : k.Retains t := by
  cases ht
  exact (hf s hs).of_eq rfl rfl

/-! ### Ports, slices and halves -/

theorem State.histOff_retains {k : State} (s old : State) (p : Nat) (hs : k.Retains s) : k.Retains (s.histOff old p) := by
  unfold State.histOff
  split
  · exact hs.hist (fun x => by split <;> rfl) rfl rfl
  · exact hs

theorem State.raiseIf_retains {k : State} (s : State) (b : Bool) (p i : Nat) (hs : k.Retains s) :
    k.Retains (s.raiseIf b p i) := hs.same (State.raiseIf_same (.of rfl (.refl _)) _ _ _ _ (.refl _ s))

theorem State.pairRaise_retains {k : State} (s old : State) (qs : List Nat) (hs : k.Retains s) :
    k.Retains (s.pairRaise old qs) := by
  induction qs generalizing s with
  | nil => exact hs
  | cons q qs ih => exact ih _ (State.raiseIf_retains _ _ _ _ hs)

theorem State.conflictRaise_retains {k : State} (s old : State) (qs : List Nat) (hs : k.Retains s) :
    k.Retains (s.conflictRaise old qs) := by
  induction qs generalizing s with
  | nil => exact hs
  | cons q qs ih => exact ih _ (State.raiseIf_retains _ _ _ _ hs)

theorem State.spanStart_retains {k : State} (s old : State) (p : Nat) (on : Bool) (hs : k.Retains s) :
    k.Retains (s.spanStart old p on) := by
  unfold State.spanStart
  split
  · exact hs
  · extract_lets q x s1 src s2
    have h1 : k.Retains s1 := by
      dsimp only [s1]; split
      · exact hs.same (State.markSuspect_same (.of rfl (.refl _)) _ _ (State.spanFlush_same (.of rfl (.refl _)) _ _ _ (.refl _ s)))
      · exact hs
    clear_value s1
    have h2 : k.Retains s2 := by
      dsimp only [s2]; split
      · exact h1.same (State.raiseIf_same (.of rfl (.refl _)) _ _ _ _ (State.markSuspect_same (.of rfl (.refl _)) _ _
          (State.putSpan_same (.of rfl (.refl _)) _ _ _ (.refl _ s1))))
      · split
        · exact h1.same (State.setSpan_same (.of rfl (.refl _)) _ _ _ (.refl _ s1))
        · exact h1
    clear_value s2
    exact State.conflictRaise_retains _ _ _ (State.pairRaise_retains _ _ _ (State.histOff_retains s2 old p h2))

theorem State.portCtrlWrite_retains {k : State} (s : State) (p : Nat) (v : Word) (hs : k.Retains s) :
    k.Retains (s.portCtrlWrite p v) := by
  unfold State.portCtrlWrite
  extract_lets was old s1 pwr s2 s3 src s4 s5
  have h1 : k.Retains s1 := hs.same (State.setReg_same (.of rfl (.refl _)) _ _ _ _ (.refl _ s))
  clear_value s1
  have h2 : k.Retains s2 := by
    dsimp only [s2]
    split
    · exact h1.same (State.enablePort_same (.of rfl (.refl _)) _ _ (.refl _ s1))
    · split
      · exact h1.same (State.stopPort_same (.of rfl (.refl _)) _ _ (.refl _ s1))
      · split
        · exact h1.same (State.powerPort_same (.of rfl (.refl _)) _ _ _ (.refl _ s1))
        · exact h1
  clear_value s2
  have h3 : k.Retains s3 := by
    dsimp only [s3]; split
    · exact h2.same (State.linkFall_same (.of rfl (.refl _)) _ _ _ (.refl _ s2))
    · exact h2
  clear_value s3
  have h4 : k.Retains s4 := by
    dsimp only [s4]; split
    · exact h3.same (State.setPort_same (.of rfl (.refl _)) _ _ _ (.refl _ s3))
    · exact h3
  clear_value s4
  have h5 : k.Retains s5 := by
    dsimp only [s5]; split
    · exact h4
    · split
      · exact h4.same (State.resetPort_same (.of rfl (.refl _)) _ _ (.refl _ s4))
      · split
        · exact h4.same (State.recalFull_same (.of rfl (.refl _)) _ _ (.refl _ s4))
        · split
          · exact h4.same (State.recalLive_same (.of rfl (.refl _)) _ _ (.refl _ s4))
          · exact h4
  clear_value s5
  split
  · exact State.spanStart_retains _ _ _ _ h5
  · exact h5

theorem State.portsStop_retains {k : State} (s : State) (hold : Bool) (ps : List Nat) (hs : k.Retains s) :
    k.Retains (s.portsStop hold ps) := by
  induction ps generalizing s with
  | nil => exact hs
  | cons p ps ih =>
    unfold State.portsStop
    refine ih _ ?_
    split
    · extract_lets lanes s1 s2 s3
      have h1 : k.Retains s1 := by
        dsimp only [s1]; split
        · exact hs.same (State.rxAbort_same (.of rfl (.refl _)) _ _ (State.recalCut_same (.of rfl (.refl _)) _ _ (.refl _ s)))
        · exact hs
      clear_value s1
      have h2 : k.Retains s2 := by
        dsimp only [s2]; split
        · exact h1.same (State.linkFall_same (.of rfl (.refl _)) _ _ _ (.refl _ s1))
        · exact h1
      clear_value s2
      have h3 : k.Retains s3 := by
        dsimp only [s3]; split
        · exact h2.same (State.setPort_same (.of rfl (.refl _)) _ _ _ (State.lanesOff_same (.of rfl (.refl _)) _ _ (.refl _ s2)))
        · exact h2.same (State.stopPort_same (.of rfl (.refl _)) _ _ (.refl _ s2))
      exact State.spanStart_retains _ _ _ _ h3
    · exact hs

theorem State.portsStart_retains {k : State} (s : State) (ps : List Nat) (hs : k.Retains s) :
    k.Retains (s.portsStart ps) := by
  induction ps generalizing s with
  | nil => exact hs
  | cons p ps ih =>
    unfold State.portsStart
    refine ih _ ?_
    split
    · exact State.spanStart_retains _ _ _ _ (hs.same (State.enablePort_same (.of rfl (.refl _)) _ _ (.refl _ s)))
    · exact hs

theorem State.rstReject_retains {k : State} (s : State) (code : Nat) (hs : k.Retains s) : k.Retains (s.rstReject code) :=
  hs.same (State.rstReject_same (.of rfl (.refl _)) _ _ (.refl _ s))

theorem State.sliceStart_retains {k : State} (s : State) (sl : Nat) (hs : k.Retains s) : k.Retains (s.sliceStart sl) := by
  unfold State.sliceStart
  extract_lets s1 s2 h i s3
  have h1 : k.Retains s1 := (State.portsStop_retains s true (sliceSlots sl) hs).same
    (State.portsGone_same (.of rfl (.refl _)) _ _ _ (.refl _ _))
  exact (h1.same (State.linesBack_same (.of rfl (.refl _)) _ _ _ _
    (State.drainSlice_same (.of rfl (.refl _)) _ _ (.refl _ s1)))).of_eq rfl rfl

theorem State.rstSlice_retains {k : State} (s : State) (v : Word) (hs : k.Retains s) : k.Retains (s.rstSlice v) := by
  unfold State.rstSlice
  extract_lets sl
  split
  · exact State.rstReject_retains _ _ hs
  · split
    · exact State.rstReject_retains _ _ hs
    · exact State.sliceStart_retains _ _ hs

/-- What a half reset does after its ports have stopped leaves the MRAM and the fuses alone. -/
theorem State.halfStart_retains {k : State} (s : State) (h : Nat) (hs : k.Retains s) : k.Retains (s.halfStart h) := by
  have h0 := State.portsStop_retains s false (halfPorts h) hs
  unfold State.halfStart
  extract_lets s1 ids src s2 s3 s4 s5 w t s6 s7 s8 s9 o s10 b1 b2 s11
  have h1 : State.Same volatileMask (s.portsStop false (halfPorts h)) s1 :=
    State.channelDown_same (.of rfl (.refl _)) _ (State.portsGone_same (.of rfl (.refl _)) _ _ _ (.refl _ _))
  replace h1 := h0.same h1
  clear_value s1
  have h2 : State.Same volatileMask s1 s2 := State.dropArrivals_same (.of rfl (.refl _)) _ _ _
    (State.moveHolders_same (.of rfl (.refl _)) _ _ _ _ (State.setPath_same (.of rfl (.refl _)) _ _ _ (.refl _ s1)))
  have h4 : State.Same volatileMask s1 s4 := State.fgLost_same (.of rfl (.refl _)) _ _ _
    (State.dropPipes_same (.of rfl (.refl _)) _ _ (State.deckClear_same (.of rfl (.refl _)) _ _ h2))
  have h5 : State.Same volatileMask s1 s5 := State.Same.upd_50 (.of rfl (.refl _)) h4
  have h8 : State.Same volatileMask s1 s8 := State.setHbm_same (.of rfl (.refl _)) _ _ _
    (State.setMatrix_same (.of rfl (.refl _)) _ _ _ (State.setTally_same (.of rfl (.refl _)) _ _ _
      (State.setWood_same (.of rfl (.refl _)) _ _ _ h5)))
  have h10 : State.Same volatileMask s1 s10 := State.setPath_same (.of rfl (.refl _)) _ _ _
    (State.dropSel_same (.of rfl (.refl _)) _ _ (State.endReads_same (.of rfl (.refl _)) _ _ _ h8
      (fun _ hx a => State.readLost_same (.of rfl (.refl _)) _ a hx)))
  have h11 : State.Same volatileMask s1 s11 := State.Same.upd_108000000080 (.of rfl (.refl _)) h10
  clear_value s11
  split
  · exact h1.same (State.sweepReset_same (.of rfl (.refl _)) _ _ _ h11)
  · exact h1.same h11

theorem State.rstHalf_retains {k : State} (s : State) (v : Word) (hs : k.Retains s) : k.Retains (s.rstHalf v) := by
  unfold State.rstHalf
  extract_lets h
  split
  · exact State.rstReject_retains _ _ hs
  · split
    · exact State.rstReject_retains _ _ hs
    · split
      · exact State.rstReject_retains _ _ hs
      · exact State.halfStart_retains _ _ hs

theorem State.sliceReady_retains {k : State} (s : State) (sl : Nat) (hs : k.Retains s) : k.Retains (s.sliceReady sl) := by
  unfold State.sliceReady
  split
  · extract_lets s1 bus rst s2 s3
    refine State.portsStart_retains _ _ ?_
    have h1 : State.Same volatileMask s s1 := State.resetPages_same (.of rfl (.refl _)) _ _ _ (.refl _ s)
    have h2 : State.Same volatileMask s s2 := State.Same.upd_100000000080 (.of rfl (.refl _)) h1
    exact hs.same (State.raise_same (.of rfl (.refl _)) _ _ _ (State.endReads_same (.of rfl (.refl _)) _ _ _ h2
      (fun _ hx a => State.readInReset_same (.of rfl (.refl _)) _ a hx)))
  · exact hs

theorem State.halfReady_retains {k : State} (s : State) (h : Nat) (hs : k.Retains s) : k.Retains (s.halfReady h) := by
  unfold State.halfReady
  split
  · exact hs
  · extract_lets rst s1 hbm s2 s3 raft s4
    refine State.portsStart_retains _ _ ?_
    have h1 : State.Same volatileMask s s1 := State.Same.upd_100000000000 (.of rfl (.refl _)) (.refl _ s)
    clear_value s1
    have h2 : State.Same volatileMask s s2 := State.setHbm_same (.of rfl (.refl _)) _ _ _ h1
    clear_value s2
    have h3 : State.Same volatileMask s s3 := State.mapLate_same (.of rfl (.refl _)) _ _
      (State.sweepAgain_same (.of rfl (.refl _)) _ _ (State.refill_same (.of rfl (.refl _)) _ _
        (State.channelUp_same (.of rfl (.refl _)) _ (State.initStill_same (.of rfl (.refl _)) _ _ h2))))
    clear_value s3
    have h4 : State.Same volatileMask s s4 := by
      dsimp only [s4]
      split
      · exact State.Same.upd_4000000000 (.of rfl (.refl _)) h3
      · exact h3
    exact hs.same (State.raise_same (.of rfl (.refl _)) _ _ _ h4)

/-! ### Chip and power-on reset -/

theorem State.histEnd_bins (s : State) : s.histEnd.bins = s.mram.bins := by
  simp only [State.histEnd, MramS.bins, List.map_map]
  refine List.map_congr_left fun x _ => ?_
  simp only [Function.comp]
  split <;> rfl

/-- A reset retains what lasts: of the history it sets times alone. -/
theorem State.Retains.reset {k s t : State} (hs : k.Retains s) (hm : t.mram = s.histEnd) (hf : t.fuses = s.fuses) :
    k.Retains t := by
  refine ⟨?_, ?_, ?_, ?_, hf ▸ hs.fuses⟩
  · rw [hm]; exact hs.copyA
  · rw [hm]; exact hs.copyB
  · rw [hm]; exact hs.sums
  · rw [hm, State.histEnd_bins]; exact hs.bins

theorem State.chipReset_mram (s : State) (cause : Nat) : (s.chipReset cause).mram = s.histEnd :=
  (State.keptAlways_same (.refl _) _ s (.refl _ _)).mram rfl

theorem State.chipReset_fuses (s : State) (cause : Nat) : (s.chipReset cause).fuses = s.fuses :=
  (State.keptAlways_same (.refl _) _ s (.refl _ _)).fuses rfl

theorem State.chipReset_retains {k : State} (s : State) (cause : Nat) (hs : k.Retains s) : k.Retains (s.chipReset cause) :=
  hs.reset (s.chipReset_mram cause) (s.chipReset_fuses cause)

theorem State.rstChip_retains {k : State} (s : State) (v : Word) (hs : k.Retains s) : k.Retains (s.rstChip v) := by
  unfold State.rstChip
  split
  · exact State.rstReject_retains _ _ hs
  · split
    · exact State.rstReject_retains _ _ hs
    · exact State.chipReset_retains _ _ hs

theorem State.powerReset_mram (s : State) (pins : PinSample) : (s.powerReset pins).mram = s.histEnd := by
  have h (x : Bool) (n : PinName) (t : State) : (if x then t.emit (.pin n true) else t).mram = t.mram := by
    cases x <;> rfl
  exact (h s.rst.tripped .thermtripN _).trans (h s.lookout.faultLow .faultN _)

theorem State.powerReset_fuses (s : State) (pins : PinSample) : (s.powerReset pins).fuses = s.fuses :=
  (State.powerReset_same (.refl _) s pins (.refl _ s)).fuses rfl

theorem State.powerReset_retains {k : State} (s : State) (pins : PinSample) (hs : k.Retains s) :
    k.Retains (s.powerReset pins) := hs.reset (s.powerReset_mram pins) (s.powerReset_fuses pins)

theorem State.porst_retains {k : State} (s : State) (level : Bool) (pins : PinSample) (hs : k.Retains s) :
    k.Retains (s.porst level pins) := by
  have hp := State.powerReset_retains s pins hs
  unfold State.porst
  split
  · split
    · extract_lets s1 rst s2
      have h2 : k.Retains s2 := hp.of_eq rfl rfl
      split
      · exact State.chipReset_retains _ _ h2
      · exact h2
    · exact hs
  · split
    · exact hs
    · exact hp.of_eq rfl rfl

theorem State.chiprst_retains {k : State} (s : State) (level : Bool) (pins : PinSample) (hs : k.Retains s) :
    k.Retains (s.chiprst level pins) := by
  unfold State.chiprst
  split
  · split
    · exact hs.of_eq rfl rfl
    · exact hs
  · split
    · exact hs
    · extract_lets s1
      have h1 : k.Retains s1 := by
        dsimp only [s1]
        split
        · exact hs
        · exact State.chipReset_retains _ _ (hs.of_eq (t := s.strapPins pins) rfl rfl)
      exact h1.of_eq rfl rfl

/-! ### Writes of registers -/

theorem State.wrMacpcs_retains {k : State} (s : State) (sl o : Nat) (v : Word) (hs : k.Retains s) :
    k.Retains (s.wrMacpcs sl o v) := by
  unfold State.wrMacpcs
  extract_lets p pg m s1
  split
  · have h1 : State.Same volatileMask s s1 := State.setReg_same (.of rfl (.refl _)) _ _ _ _ (.refl _ s)
    split
    · exact hs.same (State.setPort_same (.of rfl (.refl _)) _ _ _ h1)
    · exact hs.same h1
  · split
    · exact State.portCtrlWrite_retains _ _ _ hs
    · have h1 : State.Same volatileMask s (s.store pg o v) := State.store_same (.of rfl (.refl _)) _ _ _ _ (.refl _ s)
      split
      · exact hs.same (State.fecWrite_same (.of rfl (.refl _)) _ _ _ h1)
      · exact hs.same h1

theorem State.wrReset_retains {k : State} (s : State) (o : Nat) (v : Word) (hs : k.Retains s) :
    k.Retains (s.wrReset o v) := by
  unfold State.wrReset
  split
  · exact State.rstChip_retains _ _ hs
  · split
    · exact State.rstHalf_retains _ _ hs
    · split
      · exact State.rstSlice_retains _ _ hs
      · exact hs.same (State.store_same (.of rfl (.refl _)) _ _ _ _ (.refl _ s))

theorem State.writeBlock_retains {k : State} (s : State) (r : Requester) (p o : Nat) (v : Word) (hs : k.Retains s) :
    k.Retains (s.writeBlock r p o v) := by
  unfold State.writeBlock
  extract_lets h sl
  cases pageBlk p with
  | none => exact hs
  | some b =>
    cases b with
    | macpcs => exact State.wrMacpcs_retains _ _ _ _ hs
    | reset => exact State.wrReset_retains _ _ _ hs
    | order => exact hs.same (State.wrOrder_same (.of rfl (.refl _)) _ _ _ _ (.refl _ s))
    | ring => exact hs.same (State.wrRing_same (.of rfl (.refl _)) _ _ _ _ (.refl _ s))
    | cruiser => exact hs.same (State.wrCruiser_same (.of rfl (.refl _)) _ _ _ _ (.refl _ s))
    | lookout => exact hs.same (State.wrLookout_same (.of rfl (.refl _)) _ _ _ (.refl _ s))
    | firebreak => exact hs.same (State.wrFirebreak_same (.of rfl (.refl _)) _ _ _ (.refl _ s))
    | forester => exact hs.same (State.wrForester_same (.of rfl (.refl _)) _ _ _ (.refl _ s))
    | hostdma => exact hs.same (State.wrHostdma_same (.of rfl (.refl _)) _ _ _ _ (.refl _ s))
    | time => exact hs.same (State.wrTime_same (.of rfl (.refl _)) _ _ _ (.refl _ s))
    | lifecycle => exact hs.same (State.wrLifecycle_same (.of rfl (.refl _)) _ _ _ (.refl _ s))
    | half => exact hs.same (State.wrHalf_same (.of rfl (.refl _)) _ _ _ _ _ (.refl _ s))
    | deck => exact hs.same (State.wrDeck_same (.of rfl (.refl _)) _ _ _ _ _ (.refl _ s))
    | admission => exact hs.same (State.wrAdmit_same (.of rfl (.refl _)) _ _ _ _ _ (.refl _ s))
    | wlem => exact hs.same (State.wrWlem_same (.of rfl (.refl _)) _ _ _ _ (.refl _ s))
    | wllpm => exact hs.same (State.wrWllpm_same (.of rfl (.refl _)) _ _ _ _ (.refl _ s))
    | maint => exact hs.same (State.wrMaint_same (.of rfl (.refl _)) _ _ _ _ (.refl _ s))
    | tally => exact hs.same (State.wrTally_same (.of rfl (.refl _)) _ _ _ _ (.refl _ s))
    | matrix => exact hs.same (State.wrMatrix_same (.of rfl (.refl _)) _ _ _ _ (.refl _ s))
    | hbm => exact hs.same (State.wrHbm_same (.of rfl (.refl _)) _ _ _ _ (.refl _ s))
    | parser => exact hs.same (State.wrParser_same (.of rfl (.refl _)) _ _ _ _ (.refl _ s))
    | kerfIn => exact hs.same (State.wrKerf_same (.of rfl (.refl _)) _ _ _ _ (.refl _ s))
    | kerfOut => exact hs.same (State.wrKerf_same (.of rfl (.refl _)) _ _ _ _ (.refl _ s))
    | span => exact hs.same (State.wrSpan_same (.of rfl (.refl _)) _ _ _ _ (.refl _ s))
    | lanes0 => exact hs.same (State.wrLanes0_same (.of rfl (.refl _)) _ _ _ _ (.refl _ s))
    | lanes1 => exact hs.same (State.wrLanes1_same (.of rfl (.refl _)) _ _ _ _ (.refl _ s))
    | sched => exact hs.same (State.wrSched_same (.of rfl (.refl _)) _ _ _ _ (.refl _ s))
    | chip | ohsp | flume | learn | slice | tcam | deparser =>
      exact hs.same (State.store_same (.of rfl (.refl _)) _ _ _ _ (.refl _ s))

theorem State.writeAt_retains {k : State} (s : State) (r : Requester) (p o : Nat) (v : Word) (hs : k.Retains s) :
    k.Retains (s.writeAt r p o v) := by
  unfold State.writeAt
  split
  · exact hs.of_eq rfl rfl
  · split
    · exact hs.same (State.writeWide_same (.of rfl (.refl _)) _ _ _ _ _ (State.Same.upd_80 (.of rfl (.refl _)) (.refl _ s)))
    · unfold State.writeReg
      split
      · exact hs.same (State.writeHeader_same (.of rfl (.refl _)) _ _ _ _ (.refl _ s))
      · exact State.writeBlock_retains _ _ _ _ _ hs

theorem State.busError_retains {k : State} (s : State) (a : Access) (write : Bool) (kind : Nat) (hs : k.Retains s) :
    k.Retains (s.busError a write kind) := hs.same (State.busError_same (.of rfl (.refl _)) _ _ _ _ (.refl _ s))

theorem State.performWrite_retains {k : State} (s : State) (a : Access) (hs : k.Retains s) :
    k.Retains (s.performWrite a) := by
  unfold State.performWrite
  extract_lets p o s1
  split
  · exact State.busError_retains _ _ _ _ hs
  · refine State.writeAt_retains _ _ _ _ _ ?_
    dsimp only [s1]
    split
    · exact State.busError_retains _ _ _ _ hs
    · exact hs

theorem State.tryWrite_retains {k : State} (s : State) (a : Access) (epoch : Nat) (hs : k.Retains s) :
    k.Retains (s.tryWrite a epoch (·.performWrite a)) := by
  unfold State.tryWrite
  extract_lets p
  split
  · split
    · exact hs.same (State.fenced_same (.of rfl (.refl _)) _ _ _ (.refl _ s))
    · exact hs
  · split
    · exact State.busError_retains _ _ _ _ hs
    · exact State.performWrite_retains _ _ hs

theorem State.takeWrite_retains {k : State} (s : State) (a : Access) (epoch : Nat) (hs : k.Retains s) :
    k.Retains (s.takeWrite a epoch) := by
  have hpost : State.Same volatileMask s (s.postWrite a epoch) := State.postWrite_same (.of rfl (.refl _)) _ _ _ (.refl _ s)
  unfold State.takeWrite
  split
  · exact hs.same (State.bar2Write_same (.of rfl (.refl _)) _ _ _ _ (.refl _ s))
  · split
    · exact State.busError_retains _ _ _ _ hs
    · split
      · exact State.tryWrite_retains _ _ _ hs
      · split
        · exact hs.same hpost
        · unfold State.tryPost
          split
          · exact State.busError_retains _ _ _ _ hs
          · exact hs.same hpost

/-! ### Accesses -/

theorem State.access_retains {k : State} (s : State) (write : Bool) (a : Access) (epoch : Nat) (hs : k.Retains s) :
    k.Retains (s.access write a epoch) := by
  unfold State.access
  split
  · exact hs.of_eq rfl rfl
  · split
    · have h := State.takeWrite_retains s a epoch hs
      extract_lets strict s1
      split
      · exact h.same (State.startFence_same (.of rfl (.refl _)) _ _ (.refl _ _))
      · exact h
    · exact hs.same (State.takeRead_same (.of rfl (.refl _)) _ _ (.refl _ s))

theorem State.issueWith_retains {k : State} (s : State) (write : Bool) (a : Access) (epoch : Nat) (hs : k.Retains s) :
    k.Retains (s.issueWith write a epoch) := by
  unfold State.issueWith State.onlyIf
  split
  · exact State.access_retains _ _ _ _ hs
  · exact hs

/-- Whoever issues an access, and whatever it writes or reads. -/
theorem State.issue_retains {k : State} (s : State) (write : Bool) (a : Access) (hs : k.Retains s) :
    k.Retains (s.issue write a) := State.issueWith_retains _ _ _ _ hs

theorem State.accesses_retains {k : State} (s : State) (xs : List Held) (hs : k.Retains s) : k.Retains (s.accesses xs) := by
  induction xs generalizing s with
  | nil => exact hs
  | cons x xs ih => exact ih _ (State.access_retains _ _ _ _ hs)

theorem State.release_retains {k : State} (s : State) (r : Requester) (hs : k.Retains s) : k.Retains (s.release r) :=
  State.accesses_retains _ _ (hs.of_eq rfl rfl)

theorem State.fenceEnd_retains {k : State} (s : State) (r : Requester) (hs : k.Retains s) : k.Retains (s.fenceEnd r) := by
  unfold State.fenceEnd
  split
  · exact hs
  · split
    · exact hs
    · extract_lets bus s1 s2 d s3
      have h1 : State.Same volatileMask s s1 := State.Same.upd_80 (.of rfl (.refl _)) (.refl _ s)
      clear_value s1
      have h2 : State.Same volatileMask s s2 := State.count_same (.of rfl (.refl _)) _ _ _ _ h1
      clear_value s2
      have h3 : State.Same volatileMask s s3 := by
        dsimp only [s3]
        split
        · exact State.setReg_same (.of rfl (.refl _)) _ _ _ _ h2
        · exact h2
      have h4 : State.Same volatileMask s (s3.commitUnfenced r) := State.commitUnfenced_same (.of rfl (.refl _)) _ _ h3
      exact State.release_retains _ _ (hs.same h4)

theorem State.posted_retains {k : State} (s : State) (p : Nat) (hs : k.Retains s) : k.Retains (s.posted p) := by
  unfold State.posted
  split
  · extract_lets a bus s1
    have h1 : k.Retains s1 := hs.of_eq rfl rfl
    clear_value s1
    exact (State.tryWrite_retains _ _ _ h1).same (State.wbusyFall_same (.of rfl (.refl _)) _ _ (.refl _ _))
  · exact hs

/-! ### What an image or a restore loads -/

theorem State.loadReg_retains {k : State} (s : State) (r : Requester) (p o : Nat) (v : Word) (hs : k.Retains s) :
    k.Retains (s.loadReg r p o v) := by
  unfold State.loadReg
  split
  · exact hs.same (State.setRf_same (.of rfl (.refl _)) _ _ _ _ _ _ (.refl _ s))
  · split
    · exact hs.same (State.loadStat_same (.of rfl (.refl _)) _ _ _ _ (.refl _ s))
    · split
      · exact hs
      · exact State.performWrite_retains _ _ hs

theorem State.loadOn_retains {k : State} (s : State) (r : Requester) (x : LoadRec) (ps : List Nat) (hs : k.Retains s) :
    k.Retains (s.loadOn r x ps) := by
  induction ps generalizing s with
  | nil => exact hs
  | cons p ps ih =>
    unfold State.loadOn
    refine ih _ ?_
    cases x with
    | window => exact hs.same (State.loadWrites_same (.of rfl (.refl _)) _ _ _ _ _ (.refl _ s))
    | write => exact State.loadReg_retains _ _ _ _ _ hs

theorem State.loadRecs_retains {k : State} (s : State) (r : Requester) (xs : List LoadRec) (hs : k.Retains s) :
    k.Retains (s.loadRecs r xs) := by
  induction xs generalizing s with
  | nil => exact hs
  | cons x xs ih => exact ih _ (State.loadOn_retains _ _ _ _ hs)

theorem State.applySections_retains {k : State} (s : State) (r : Requester) (cs : List CfgSection) (hs : k.Retains s) :
    k.Retains (s.applySections r cs) := by
  induction cs generalizing s with
  | nil => exact hs
  | cons c cs ih =>
    cases c with
    | load recs => exact ih _ (State.loadRecs_retains _ _ _ hs)
    | table recs => exact ih _ (hs.same (State.tableRecs_same (.of rfl (.refl _)) _ _ (.refl _ s)))

theorem State.restoreEnd_retains {k : State} (s : State) (hs : k.Retains s) : k.Retains s.restoreEnd := by
  have h0 : k.Retains s.wipeRet := hs.same (State.wipeRet_same (.of rfl (.refl _)) _ (.refl _ s))
  unfold State.restoreEnd
  extract_lets s1 src s2 s3 s4 rst s5
  have h2 : k.Retains s2 := by
    dsimp only [s2]
    split
    · exact h0
    · exact (State.applySections_retains _ _ _ h0).same (State.extend_same (.of rfl (.refl _)) _ _ _ (.refl _ _))
  clear_value s2
  have h4 : State.Same volatileMask s2 s4 := State.deckAgain_same (.of rfl (.refl _)) _ _
    (State.deckAgain_same (.of rfl (.refl _)) _ _ (State.fwEnd_same (.of rfl (.refl _)) _ _
      (State.metersFull_same (.of rfl (.refl _)) _ _ (.refl _ s2))))
  have h5 : State.Same volatileMask s2 s5 := State.Same.upd_100000000000 (.of rfl (.refl _)) h4
  exact h2.same (State.raise_same (.of rfl (.refl _)) _ _ _ h5)

theorem State.applyLoad_retains {k : State} (s : State) (i : Image) (hs : k.Retains s) : k.Retains (s.applyLoad i).1 := by
  unfold State.applyLoad
  split
  · exact hs
  · split
    · exact hs
    · exact (State.loadRecs_retains _ _ _ hs).of_eq rfl rfl

theorem State.mbApply_retains {k : State} (s : State) (hs : k.Retains s) : k.Retains s.mbApply.1 := by
  unfold State.mbApply State.mbNeeds
  split
  · exact hs
  · dsimp only
    split
    · exact hs
    · split
      · exact hs
      · split
        · exact hs.same (State.fwApply_same (.of rfl (.refl _)) _ _ _ (State.Same.upd_10000000000 (.of rfl (.refl _)) (.refl _ s)))
        · exact State.applyLoad_retains _ _ (hs.of_eq rfl rfl)

theorem State.mbAct_retains {k : State} (s : State) (op : Nat) (f : State → State × MbResult) (hs : k.Retains s)
    (hf : k.Retains (f s).1) : k.Retains (s.mbAct op f) := by
  unfold State.mbAct
  extract_lets m r
  split
  · exact hf.of_eq rfl rfl
  · exact hs


end Sys2Proof.Machine
end

section
/-! SUPPORT AND PROOF. What every command does to the MRAM and the fuses, and the obligations of the whole machine that follow
(00_scope.md, 16_forester_security.md R433, R444, R445; 17_reset_retained.md R448 to R461). -/

namespace Sys2Proof.Machine
/-! ### Every command -/

/-- The commands whose work it is to change the MRAM or the fuses. -/
def Instr.changesLasting : Instr → Bool
  | .cfgSave | .mailboxComplete | .wipeDone | .fatalWr _ | .pmHistoryCopy _ | .svnAdvance | .keyProgram | .lcFuseWrite => true
  | _ => false

theorem State.regWrite_retains {k : State} (s : State) (r : Requester) (p o : Nat) (v : Word) (hs : k.Retains s) :
    k.Retains (s.regWrite r p o v) := State.issue_retains _ _ _ hs

theorem State.hostWrite_retains {k : State} (s : State) (p o : Nat) (v : Word) (hs : k.Retains s) :
    k.Retains (s.hostWrite p o v) := State.regWrite_retains _ _ _ _ _ hs

theorem State.ctrlHost_retains {k : State} (s : State) (p lo n x : Nat) (hs : k.Retains s) :
    k.Retains (s.ctrlHost p lo n x) := State.hostWrite_retains _ _ _ _ hs

theorem State.maintHost_retains {k : State} (s : State) (h i : Nat) (hs : k.Retains s) : k.Retains (s.maintHost h i) :=
  State.hostWrite_retains _ _ _ _ hs

theorem State.tallyHost_retains {k : State} (s : State) (h i : Nat) (hs : k.Retains s) : k.Retains (s.tallyHost h i) :=
  State.hostWrite_retains _ _ _ _ hs

theorem execBlkRst_retains {page : PageBy} {s : State} {t : State} (ht : execBlkRst page s = .next t) : s.Retains t :=
  State.run_retains (fun s hs => State.regWrite_retains s _ _ _ _ hs) (.refl s) ht

theorem execCancel_retains {req : Requester} {s : State} {t : State} (ht : execCancel req s = .next t) : s.Retains t :=
  State.run_retains (fun s hs => State.regWrite_retains s _ _ _ _ hs) (.refl s) ht

theorem execSnap_retains {req : Requester} {s : State} {t : State} (ht : execSnap req s = .next t) : s.Retains t :=
  State.run_retains (fun s hs => State.regWrite_retains s _ _ _ _ hs) (.refl s) ht

theorem execStop_retains {req : Requester} {s : State} {t : State} (ht : execStop req s = .next t) : s.Retains t :=
  State.run_retains (fun s hs => State.regWrite_retains s _ _ _ _ hs) (.refl s) ht

theorem execPkClr_retains {req : Requester} {s : State} {t : State} (ht : execPkClr req s = .next t) : s.Retains t :=
  State.run_retains (fun s hs => State.regWrite_retains s _ _ _ _ hs) (.refl s) ht

theorem execFixed_retains {req : Requester} {on : Bool} {s : State} {t : State} (ht : execFixed req on s = .next t) : s.Retains t :=
  State.run_retains (fun s hs => State.regWrite_retains s _ _ _ _ hs) (.refl s) ht

theorem execInjBip_retains {q : SpanPos} {s : State} {t : State} (ht : execInjBip q s = .next t) : s.Retains t :=
  State.run_retains (fun s hs => State.hostWrite_retains s _ _ _ hs) (.refl s) ht

theorem execRetrain_retains {h : Half} {s : State} {t : State} (ht : execRetrain h s = .next t) : s.Retains t :=
  State.run_retains (fun s hs => State.hostWrite_retains s _ _ _ hs) (.refl s) ht

theorem execRestored_retains {s t : State} (ht : execRestored s = .next t) : s.Retains t := by
  refine State.run_retains (fun u hu => ?_) (.refl s) ht
  cases hb : (u.rst.restoring && u.headReaches) with
  | false => simpa only [hb, State.onlyIf_false] using hu
  | true => simpa only [hb, State.onlyIf_true] using State.restoreEnd_retains u hu

/-- Each other command retains what lasts: a write of a register like every access, most of the rest by their masks. -/
theorem exec_retains {s t : State} {c : Instr} (ht : exec c s = .next t) (hc : Instr.changesLasting c = false) :
    s.Retains t := by
  cases c with
  | registerWrite | counterLowRead | counterHighWrite | counterLowWrite | pgEvtClear | pgLock | winRead | winWrite
  | winBadOp | fence =>
    exact State.run_retains (fun s hs => State.issue_retains s _ _ hs) (.refl s) ht
  | commit | ringMaxage | poolAlloc | poolFree | raftEnable | winLengthWrite | mcClearLock | debugLock =>
    exact State.run_retains (fun s hs => State.regWrite_retains s _ _ _ _ hs) (.refl s) ht
  | portEnable | portDisable | pwrActive | pwrStandby | pwrDormant | recalLive | recalFull | portReset =>
    exact State.run_retains (fun s hs => State.ctrlHost_retains s _ _ _ _ hs) (.refl s) ht
  | swap | wlMigrate | drain | set | step | clrMx | clrHist | clrDrop | doorbell | queueEnable | queueDisable
  | loClr | loPinRel | hint | rstChip | rstHalf | rstSlice =>
    exact State.run_retains (fun s hs => State.hostWrite_retains s _ _ _ hs) (.refl s) ht
  | resume | abandon =>
    exact State.run_retains (fun s hs => State.maintHost_retains s _ _ hs) (.refl s) ht
  | flush | exportAll | clear =>
    exact State.run_retains (fun s hs => State.tallyHost_retains s _ _ hs) (.refl s) ht
  | blkRst => exact execBlkRst_retains ht
  | cancel => exact execCancel_retains ht
  | snap => exact execSnap_retains ht
  | stop => exact execStop_retains ht
  | pkClr => exact execPkClr_retains ht
  | fixed => exact execFixed_retains ht
  | injBip => exact execInjBip_retains ht
  | retrain => exact execRetrain_retains ht
  | cfgSave | mailboxComplete | wipeDone | fatalWr | pmHistoryCopy | svnAdvance | keyProgram | lcFuseWrite => cases hc
  | postedWritePerformed => exact State.run_retains (fun s hs => State.posted_retains s _ hs) (.refl s) ht
  | fenceDone => exact State.run_retains (fun s hs => State.fenceEnd_retains s _ hs) (.refl s) ht
  | fbCalUpdate => exact State.run_retains (fun s hs => State.issueWith_retains s _ _ _ hs) (.refl s) ht
  | imgApply => exact State.run_retains (fun s hs => State.mbAct_retains s 0x21 State.mbApply hs (State.mbApply_retains s hs)) (.refl s) ht
  | porstN => exact State.runAlways_retains (fun s hs => State.porst_retains s _ _ hs) (.refl s) ht
  | chiprstN => exact State.runAlways_retains (fun s hs => State.chiprst_retains s _ _ hs) (.refl s) ht
  | vddAonReset => exact State.runAlways_retains (fun s hs => State.powerReset_retains s _ hs) (.refl s) ht
  | halfDone => exact State.run_retains (fun s hs => State.halfReady_retains s _ hs) (.refl s) ht
  | sliceDone => exact State.run_retains (fun s hs => State.sliceReady_retains s _ hs) (.refl s) ht
  | restored => exact execRestored_retains ht
  | blockResetDone => exact (State.Retains.refl s).same (execBlockResetDone_same (.of rfl (.refl _)) ht (.refl _ s))
  | winCmdDone => exact (State.Retains.refl s).same (execWinCmdDone_same (.of rfl (.refl _)) ht (.refl _ s))
  | pllRateApply => exact (State.Retains.refl s).same (execPllRateApply_same (.of rfl (.refl _)) ht (.refl _ s))
  | pllLock => exact (State.Retains.refl s).same (execPllLock_same (.of rfl (.refl _)) ht (.refl _ s))
  | pllUnlock => exact (State.Retains.refl s).same (execPllUnlock_same (.of rfl (.refl _)) ht (.refl _ s))
  | signalAndCdrLock => exact (State.Retains.refl s).same (execSignalAndCdrLock_same (.of rfl (.refl _)) ht (.refl _ s))
  | lossOfSignal => exact (State.Retains.refl s).same (execLossOfSignal_same (.of rfl (.refl _)) ht (.refl _ s))
  | cdrUnlock => exact (State.Retains.refl s).same (execCdrUnlock_same (.of rfl (.refl _)) ht (.refl _ s))
  | adaptConverged => exact (State.Retains.refl s).same (execAdaptConverged_same (.of rfl (.refl _)) ht (.refl _ s))
  | linkUp => exact (State.Retains.refl s).same (execLinkUp_same (.of rfl (.refl _)) ht (.refl _ s))
  | remoteFault => exact (State.Retains.refl s).same (execRemoteFault_same (.of rfl (.refl _)) ht (.refl _ s))
  | fecDegrWindow => exact (State.Retains.refl s).same (execFecDegrWindow_same (.of rfl (.refl _)) ht (.refl _ s))
  | recalLiveDone => exact (State.Retains.refl s).same (execRecalLiveDone_same (.of rfl (.refl _)) ht (.refl _ s))
  | rxFrame => exact (State.Retains.refl s).same (execRxFrame_same (.of rfl (.refl _)) ht (.refl _ s))
  | tailArrival => exact (State.Retains.refl s).same (execTailArrival_same (.of rfl (.refl _)) ht (.refl _ s))
  | spanFrameRx => exact (State.Retains.refl s).same (execSpanFrameRx_same (.of rfl (.refl _)) ht (.refl _ s))
  | spanFrameTx => exact (State.Retains.refl s).same (execSpanFrameTx_same (.of rfl (.refl _)) ht (.refl _ s))
  | spanPacketRx => exact (State.Retains.refl s).same (execSpanPacketRx_same (.of rfl (.refl _)) ht (.refl _ s))
  | defectTimer => exact (State.Retains.refl s).same (execDefectTimer_same (.of rfl (.refl _)) ht (.refl _ s))
  | pmSecond => exact (State.Retains.refl s).same (execPmSecond_same (.of rfl (.refl _)) ht (.refl _ s))
  | bin15 => exact (State.Retains.refl s).same (execBin15_same (.of rfl (.refl _)) ht (.refl _ s))
  | day => exact (State.Retains.refl s).same (execDay_same (.of rfl (.refl _)) ht (.refl _ s))
  | ohspFrame => exact (State.Retains.refl s).same (execOhspFrame_same (.of rfl (.refl _)) ht (.refl _ s))
  | parse => exact (State.Retains.refl s).same (execParse_same (.of rfl (.refl _)) ht (.refl _ s))
  | swapped => exact (State.Retains.refl s).same (execSwapped_same (.of rfl (.refl _)) ht (.refl _ s))
  | microwordExec => exact (State.Retains.refl s).same (execMicrowordExec_same (.of rfl (.refl _)) ht (.refl _ s))
  | deparse => exact (State.Retains.refl s).same (execDeparse_same (.of rfl (.refl _)) ht (.refl _ s))
  | boostOn => exact (State.Retains.refl s).same (execBoostOn_same (.of rfl (.refl _)) ht (.refl _ s))
  | boostOff => exact (State.Retains.refl s).same (execBoostOff_same (.of rfl (.refl _)) ht (.refl _ s))
  | learnRequest => exact (State.Retains.refl s).same (execLearnRequest_same (.of rfl (.refl _)) ht (.refl _ s))
  | eastCopyApply => exact (State.Retains.refl s).same (execEastCopyApply_same (.of rfl (.refl _)) ht (.refl _ s))
  | agingVisit => exact (State.Retains.refl s).same (execAgingVisit_same (.of rfl (.refl _)) ht (.refl _ s))
  | hitNotice => exact (State.Retains.refl s).same (execHitNotice_same (.of rfl (.refl _)) ht (.refl _ s))
  | emInsert => exact (State.Retains.refl s).same (execEmInsert_same (.of rfl (.refl _)) ht (.refl _ s))
  | emUpdate => exact (State.Retains.refl s).same (execEmUpdate_same (.of rfl (.refl _)) ht (.refl _ s))
  | emUpsert => exact (State.Retains.refl s).same (execEmUpsert_same (.of rfl (.refl _)) ht (.refl _ s))
  | emDelete => exact (State.Retains.refl s).same (execEmDelete_same (.of rfl (.refl _)) ht (.refl _ s))
  | emRead => exact (State.Retains.refl s).same (execEmRead_same (.of rfl (.refl _)) ht (.refl _ s))
  | lpmInsert => exact (State.Retains.refl s).same (execLpmInsert_same (.of rfl (.refl _)) ht (.refl _ s))
  | lpmDelete => exact (State.Retains.refl s).same (execLpmDelete_same (.of rfl (.refl _)) ht (.refl _ s))
  | lpmRead => exact (State.Retains.refl s).same (execLpmRead_same (.of rfl (.refl _)) ht (.refl _ s))
  | tcamWrite => exact (State.Retains.refl s).same (execTcamWrite_same (.of rfl (.refl _)) ht (.refl _ s))
  | tcamDelete => exact (State.Retains.refl s).same (execTcamDelete_same (.of rfl (.refl _)) ht (.refl _ s))
  | bulkMove => exact (State.Retains.refl s).same (execBulkMove_same (.of rfl (.refl _)) ht (.refl _ s))
  | bulkFlush => exact (State.Retains.refl s).same (execBulkFlush_same (.of rfl (.refl _)) ht (.refl _ s))
  | tableNop => exact (State.Retains.refl s).same (execTableNop_same (.of rfl (.refl _)) ht (.refl _ s))
  | stashDrain => exact (State.Retains.refl s).same (execStashDrain_same (.of rfl (.refl _)) ht (.refl _ s))
  | reclaim => exact (State.Retains.refl s).same (execReclaim_same (.of rfl (.refl _)) ht (.refl _ s))
  | lpmCompaction => exact (State.Retains.refl s).same (execLpmCompaction_same (.of rfl (.refl _)) ht (.refl _ s))
  | bankMigration => exact (State.Retains.refl s).same (execBankMigration_same (.of rfl (.refl _)) ht (.refl _ s))
  | woodlotEccError => exact (State.Retains.refl s).same (execWoodlotEccError_same (.of rfl (.refl _)) ht (.refl _ s))
  | tcamParityScan => exact (State.Retains.refl s).same (execTcamParityScan_same (.of rfl (.refl _)) ht (.refl _ s))
  | commitReady => exact (State.Retains.refl s).same (execCommitReady_same (.of rfl (.refl _)) ht (.refl _ s))
  | commitTakeEffect => exact (State.Retains.refl s).same (execCommitTakeEffect_same (.of rfl (.refl _)) ht (.refl _ s))
  | inflightSample => exact (State.Retains.refl s).same (execInflightSample_same (.of rfl (.refl _)) ht (.refl _ s))
  | ringExpire => exact (State.Retains.refl s).same (execRingExpire_same (.of rfl (.refl _)) ht (.refl _ s))
  | expiryScan => exact (State.Retains.refl s).same (execExpiryScan_same (.of rfl (.refl _)) ht (.refl _ s))
  | admission => exact (State.Retains.refl s).same (execAdmission_same (.of rfl (.refl _)) ht (.refl _ s))
  | cellAlloc => exact (State.Retains.refl s).same (execCellAlloc_same (.of rfl (.refl _)) ht (.refl _ s))
  | cellFree => exact (State.Retains.refl s).same (execCellFree_same (.of rfl (.refl _)) ht (.refl _ s))
  | refill => exact (State.Retains.refl s).same (execRefill_same (.of rfl (.refl _)) ht (.refl _ s))
  | bufferStall => exact (State.Retains.refl s).same (execBufferStall_same (.of rfl (.refl _)) ht (.refl _ s))
  | deckEccError => exact (State.Retains.refl s).same (execDeckEccError_same (.of rfl (.refl _)) ht (.refl _ s))
  | listRebuild => exact (State.Retains.refl s).same (execListRebuild_same (.of rfl (.refl _)) ht (.refl _ s))
  | deckInitDone => exact (State.Retains.refl s).same (execDeckInitDone_same (.of rfl (.refl _)) ht (.refl _ s))
  | pfcFrameTx => exact (State.Retains.refl s).same (execPfcFrameTx_same (.of rfl (.refl _)) ht (.refl _ s))
  | pfcRefresh => exact (State.Retains.refl s).same (execPfcRefresh_same (.of rfl (.refl _)) ht (.refl _ s))
  | pauseExpire => exact (State.Retains.refl s).same (execPauseExpire_same (.of rfl (.refl _)) ht (.refl _ s))
  | flumeReceive => exact (State.Retains.refl s).same (execFlumeReceive_same (.of rfl (.refl _)) ht (.refl _ s))
  | replicate => exact (State.Retains.refl s).same (execReplicate_same (.of rfl (.refl _)) ht (.refl _ s))
  | schedule => exact (State.Retains.refl s).same (execSchedule_same (.of rfl (.refl _)) ht (.refl _ s))
  | macStart => exact (State.Retains.refl s).same (execMacStart_same (.of rfl (.refl _)) ht (.refl _ s))
  | txLastByte => exact (State.Retains.refl s).same (execTxLastByte_same (.of rfl (.refl _)) ht (.refl _ s))
  | linkHoldExpire => exact (State.Retains.refl s).same (execLinkHoldExpire_same (.of rfl (.refl _)) ht (.refl _ s))
  | linkFlushDone => exact (State.Retains.refl s).same (execLinkFlushDone_same (.of rfl (.refl _)) ht (.refl _ s))
  | ppsOut => exact (State.Retains.refl s).same (execPpsOut_same (.of rfl (.refl _)) ht (.refl _ s))
  | ppsIn => exact (State.Retains.refl s).same (execPpsIn_same (.of rfl (.refl _)) ht (.refl _ s))
  | refLoss => exact (State.Retains.refl s).same (execRefLoss_same (.of rfl (.refl _)) ht (.refl _ s))
  | clrDone => exact (State.Retains.refl s).same (execClrDone_same (.of rfl (.refl _)) ht (.refl _ s))
  | tallyEviction => exact (State.Retains.refl s).same (execTallyEviction_same (.of rfl (.refl _)) ht (.refl _ s))
  | cacheWriteback => exact (State.Retains.refl s).same (execCacheWriteback_same (.of rfl (.refl _)) ht (.refl _ s))
  | scanVisit => exact (State.Retains.refl s).same (execScanVisit_same (.of rfl (.refl _)) ht (.refl _ s))
  | overflowExport => exact (State.Retains.refl s).same (execOverflowExport_same (.of rfl (.refl _)) ht (.refl _ s))
  | clearDone => exact (State.Retains.refl s).same (execClearDone_same (.of rfl (.refl _)) ht (.refl _ s))
  | ipfixMessage => exact (State.Retains.refl s).same (execIpfixMessage_same (.of rfl (.refl _)) ht (.refl _ s))
  | retrainDone => exact (State.Retains.refl s).same (execRetrainDone_same (.of rfl (.refl _)) ht (.refl _ s))
  | hbmLost => exact (State.Retains.refl s).same (execHbmLost_same (.of rfl (.refl _)) ht (.refl _ s))
  | raftCfgSync => exact (State.Retains.refl s).same (execRaftCfgSync_same (.of rfl (.refl _)) ht (.refl _ s))
  | helloTx => exact (State.Retains.refl s).same (execHelloTx_same (.of rfl (.refl _)) ht (.refl _ s))
  | extraHello => exact (State.Retains.refl s).same (execExtraHello_same (.of rfl (.refl _)) ht (.refl _ s))
  | helloRx => exact (State.Retains.refl s).same (execHelloRx_same (.of rfl (.refl _)) ht (.refl _ s))
  | neighbourDead => exact (State.Retains.refl s).same (execNeighbourDead_same (.of rfl (.refl _)) ht (.refl _ s))
  | ewRecompute => exact (State.Retains.refl s).same (execEwRecompute_same (.of rfl (.refl _)) ht (.refl _ s))
  | peerHoldLapse => exact (State.Retains.refl s).same (execPeerHoldLapse_same (.of rfl (.refl _)) ht (.refl _ s))
  | queueDrained => exact (State.Retains.refl s).same (execQueueDrained_same (.of rfl (.refl _)) ht (.refl _ s))
  | descriptorFetch => exact (State.Retains.refl s).same (execDescriptorFetch_same (.of rfl (.refl _)) ht (.refl _ s))
  | descriptorComplete => exact (State.Retains.refl s).same (execDescriptorComplete_same (.of rfl (.refl _)) ht (.refl _ s))
  | dmaReadError => exact (State.Retains.refl s).same (execDmaReadError_same (.of rfl (.refl _)) ht (.refl _ s))
  | puntDeliver => exact (State.Retains.refl s).same (execPuntDeliver_same (.of rfl (.refl _)) ht (.refl _ s))
  | pipe => exact (State.Retains.refl s).same (execPipe_same (.of rfl (.refl _)) ht (.refl _ s))
  | direct => exact (State.Retains.refl s).same (execDirect_same (.of rfl (.refl _)) ht (.refl _ s))
  | poolWrite => exact (State.Retains.refl s).same (execPoolWrite_same (.of rfl (.refl _)) ht (.refl _ s))
  | exportBufferTimeout => exact (State.Retains.refl s).same (execExportBufferTimeout_same (.of rfl (.refl _)) ht (.refl _ s))
  | irqHoldoff => exact (State.Retains.refl s).same (execIrqHoldoff_same (.of rfl (.refl _)) ht (.refl _ s))
  | flr => exact (State.Retains.refl s).same (execFlr_same (.of rfl (.refl _)) ht (.refl _ s))
  | hotReset => exact (State.Retains.refl s).same (execHotReset_same (.of rfl (.refl _)) ht (.refl _ s))
  | pcieLinkDown => exact (State.Retains.refl s).same (execPcieLinkDown_same (.of rfl (.refl _)) ht (.refl _ s))
  | perstN => exact (State.Retains.refl s).same (execPerstN_same (.of rfl (.refl _)) ht (.refl _ s))
  | busMasterEnable => exact (State.Retains.refl s).same (execBusMasterEnable_same (.of rfl (.refl _)) ht (.refl _ s))
  | poisonedWrite => exact (State.Retains.refl s).same (execPoisonedWrite_same (.of rfl (.refl _)) ht (.refl _ s))
  | snapshotCapture => exact (State.Retains.refl s).same (execSnapshotCapture_same (.of rfl (.refl _)) ht (.refl _ s))
  | snapshotPartDone => exact (State.Retains.refl s).same (execSnapshotPartDone_same (.of rfl (.refl _)) ht (.refl _ s))
  | snapshotTransferDone => exact (State.Retains.refl s).same (execSnapshotTransferDone_same (.of rfl (.refl _)) ht (.refl _ s))
  | bwWindowEnd => exact (State.Retains.refl s).same (execBwWindowEnd_same (.of rfl (.refl _)) ht (.refl _ s))
  | lookoutMessage => exact (State.Retains.refl s).same (execLookoutMessage_same (.of rfl (.refl _)) ht (.refl _ s))
  | levelRiseWithoutMessage => exact (State.Retains.refl s).same (execLevelRiseWithoutMessage_same (.of rfl (.refl _)) ht (.refl _ s))
  | faultPulseEnd => exact (State.Retains.refl s).same (execFaultPulseEnd_same (.of rfl (.refl _)) ht (.refl _ s))
  | trapDeliver => exact (State.Retains.refl s).same (execTrapDeliver_same (.of rfl (.refl _)) ht (.refl _ s))
  | powerSample => exact (State.Retains.refl s).same (execPowerSample_same (.of rfl (.refl _)) ht (.refl _ s))
  | capEvaluate => exact (State.Retains.refl s).same (execCapEvaluate_same (.of rfl (.refl _)) ht (.refl _ s))
  | calStale => exact (State.Retains.refl s).same (execCalStale_same (.of rfl (.refl _)) ht (.refl _ s))
  | deferralLimit => exact (State.Retains.refl s).same (execDeferralLimit_same (.of rfl (.refl _)) ht (.refl _ s))
  | droopOnset => exact (State.Retains.refl s).same (execDroopOnset_same (.of rfl (.refl _)) ht (.refl _ s))
  | tempSample => exact (State.Retains.refl s).same (execTempSample_same (.of rfl (.refl _)) ht (.refl _ s))
  | thermalStep => exact (State.Retains.refl s).same (execThermalStep_same (.of rfl (.refl _)) ht (.refl _ s))
  | thermalTrip h => exact (State.Retains.refl s).same (execThermalTrip_same (_h := h) (.of rfl (.refl _)) ht (.refl _ s))
  | supplyWarning => exact (State.Retains.refl s).same (execSupplyWarning_same (.of rfl (.refl _)) ht (.refl _ s))
  | supplyRecovery => exact (State.Retains.refl s).same (execSupplyRecovery_same (.of rfl (.refl _)) ht (.refl _ s))
  | uvRelease => exact (State.Retains.refl s).same (execUvRelease_same (.of rfl (.refl _)) ht (.refl _ s))
  | resetDip b => exact (State.Retains.refl s).same (execResetDip_same (_sram := b) (.of rfl (.refl _)) ht (.refl _ s))
  | hintAck => exact (State.Retains.refl s).same (execHintAck_same (.of rfl (.refl _)) ht (.refl _ s))
  | hintWindowEnd => exact (State.Retains.refl s).same (execHintWindowEnd_same (.of rfl (.refl _)) ht (.refl _ s))
  | pmbusErr => exact (State.Retains.refl s).same (execPmbusErr_same (.of rfl (.refl _)) ht (.refl _ s))
  | alertN => exact (State.Retains.refl s).same (execAlertN_same (.of rfl (.refl _)) ht (.refl _ s))
  | headClaim => exact (State.Retains.refl s).same (execHeadClaim_same (.of rfl (.refl _)) ht (.refl _ s))
  | leaseRenew => exact (State.Retains.refl s).same (execLeaseRenew_same (.of rfl (.refl _)) ht (.refl _ s))
  | leaseExpire => exact (State.Retains.refl s).same (execLeaseExpire_same (.of rfl (.refl _)) ht (.refl _ s))
  | lockstepMismatch => exact (State.Retains.refl s).same (execLockstepMismatch_same (.of rfl (.refl _)) ht (.refl _ s))
  | clusterBootDone => exact (State.Retains.refl s).same (execClusterBootDone_same (.of rfl (.refl _)) ht (.refl _ s))
  | info => exact (State.Retains.refl s).same (execInfo_same (.of rfl (.refl _)) ht (.refl _ s))
  | sensors => exact (State.Retains.refl s).same (execSensors_same (.of rfl (.refl _)) ht (.refl _ s))
  | logRead => exact (State.Retains.refl s).same (execLogRead_same (.of rfl (.refl _)) ht (.refl _ s))
  | fatalRead => exact (State.Retains.refl s).same (execFatalRead_same (.of rfl (.refl _)) ht (.refl _ s))
  | trapRead => exact (State.Retains.refl s).same (execTrapRead_same (.of rfl (.refl _)) ht (.refl _ s))
  | pmRead => exact (State.Retains.refl s).same (execPmRead_same (.of rfl (.refl _)) ht (.refl _ s))
  | chRead => exact (State.Retains.refl s).same (execChRead_same (.of rfl (.refl _)) ht (.refl _ s))
  | chWrite => exact (State.Retains.refl s).same (execChWrite_same (.of rfl (.refl _)) ht (.refl _ s))
  | imgStage => exact (State.Retains.refl s).same (execImgStage_same (.of rfl (.refl _)) ht (.refl _ s))
  | restart => exact (State.Retains.refl s).same (execRestart_same (.of rfl (.refl _)) ht (.refl _ s))
  | handover => exact (State.Retains.refl s).same (execHandover_same (.of rfl (.refl _)) ht (.refl _ s))
  | attest => exact (State.Retains.refl s).same (execAttest_same (.of rfl (.refl _)) ht (.refl _ s))
  | ident => exact (State.Retains.refl s).same (execIdent_same (.of rfl (.refl _)) ht (.refl _ s))
  | measExtend => exact (State.Retains.refl s).same (execMeasExtend_same (.of rfl (.refl _)) ht (.refl _ s))
  | lcAdvance => exact (State.Retains.refl s).same (execLcAdvance_same (.of rfl (.refl _)) ht (.refl _ s))
  | noHead => exact (State.Retains.refl s).same (execNoHead_same (.of rfl (.refl _)) ht (.refl _ s))
  | startUpWipeDone => exact (State.Retains.refl s).same (execStartUpWipeDone_same (.of rfl (.refl _)) ht (.refl _ s))
  | restore => exact (State.Retains.refl s).same (execRestore_same (.of rfl (.refl _)) ht (.refl _ s))
  | recoveryImage => exact (State.Retains.refl s).same (execRecoveryImage_same (.of rfl (.refl _)) ht (.refl _ s))
  | flumeChannelDown => exact (State.Retains.refl s).same (execFlumeChannelDown_same (.of rfl (.refl _)) ht (.refl _ s))
  | flumeChannelUp => exact (State.Retains.refl s).same (execFlumeChannelUp_same (.of rfl (.refl _)) ht (.refl _ s))
  | localFault => exact (State.Retains.refl s).same (execLocalFault_same (.of rfl (.refl _)) ht (.refl _ s))
  | pcieLinkUp => exact (State.Retains.refl s).same (execPcieLinkUp_same (.of rfl (.refl _)) ht (.refl _ s))

/-! ### The commands that change the MRAM -/

/-- Only copies of the retained image differ. -/
structure State.SavesOnly (k s : State) : Prop where
  sums : s.mram.sums = k.mram.sums
  hist : s.mram.hist = k.mram.hist

theorem State.SavesOnly.same {k s t : State} (hs : k.SavesOnly s) {m : Nat} (h : State.Same m s t)
    (hm : m.testBit 41 = false) : k.SavesOnly t :=
  ⟨h.mram hm ▸ hs.sums, h.mram hm ▸ hs.hist⟩

theorem State.setCopy_savesOnly (s : State) (i : Nat) (c : AMap DWord) : s.SavesOnly (s.setCopy i c) := by
  constructor <;> (unfold State.setCopy; dsimp only; split <;> rfl)

theorem State.saveStart_savesOnly (s : State) (c : CfgCopy) : s.SavesOnly (s.saveStart c) :=
  let h := s.setCopy_savesOnly s.mram.older (AMap.set 0 (s.copy s.mram.older) 0 0)
  ⟨h.sums, h.hist⟩

theorem State.saveWords_savesOnly (s : State) (x : SaveRun) (n : Nat) : s.SavesOnly (s.saveWords x n) :=
  let h := s.setCopy_savesOnly x.copy (putWords (s.copy x.copy) x.next (x.left.take n))
  ⟨h.sums, h.hist⟩

theorem State.saveEnd_savesOnly (s : State) (x : SaveRun) : s.SavesOnly (s.saveEnd x) :=
  let h := s.setCopy_savesOnly x.copy (AMap.set 0 (putWords (s.copy x.copy) x.next x.left) 0 x.first)
  ⟨h.sums, h.hist⟩

theorem State.mbSettle_savesOnly (s : State) (r : MbResult) : s.SavesOnly (s.mbSettle r).1 := by
  unfold State.mbSettle
  extract_lets f
  split
  · split
    · exact ⟨rfl, rfl⟩
    · exact s.saveEnd_savesOnly _
  · split
    · split <;> exact ⟨rfl, rfl⟩
    · exact ⟨rfl, rfl⟩

theorem State.mbComplete_savesOnly (s : State) : s.SavesOnly s.mbComplete := by
  unfold State.mbComplete
  extract_lets m
  have hpub (u : State) (r : MbResult) : State.Same 0x18000000618 u (u.mbPublish r) :=
    State.mbPublish_same (.refl _) u r (.refl _ u)
  split
  · exact ⟨rfl, rfl⟩
  · split
    · exact State.SavesOnly.same ⟨rfl, rfl⟩ (hpub s _) rfl
    · split
      · exact ⟨rfl, rfl⟩
      · exact (s.mbSettle_savesOnly _).same (hpub _ _) rfl

theorem execMailboxComplete_savesOnly {s t : State} (ht : execMailboxComplete s = .next t) : s.SavesOnly t := by
  cases ht
  split
  · exact ⟨s.mbComplete_savesOnly.sums, s.mbComplete_savesOnly.hist⟩
  · exact ⟨rfl, rfl⟩

theorem execCfgSave_savesOnly {s t : State} (ht : execCfgSave s = .next t) : s.SavesOnly t := by
  have h : s.SavesOnly s.mbSave.1 := by
    unfold State.mbSave
    split
    · exact ⟨rfl, rfl⟩
    · extract_lets c
      split
      · exact ⟨rfl, rfl⟩
      · exact s.saveStart_savesOnly c
  have hact : s.SavesOnly (s.mbAct 0x30 State.mbSave) := by
    unfold State.mbAct
    extract_lets m r
    split
    · exact ⟨h.sums, h.hist⟩
    · exact ⟨rfl, rfl⟩
  cases ht
  split
  · exact ⟨hact.sums, hact.hist⟩
  · exact ⟨rfl, rfl⟩

theorem State.histCopies_mram (s : State) (day : Bool) (qs : List Nat) :
    ∃ l, (s.histCopies day qs).mram = { s.mram with hist := l } := by
  induction qs generalizing s with
  | nil => exact ⟨_, rfl⟩
  | cons q qs ih =>
    obtain ⟨l, hl⟩ := ih (if s.spanOn q then s.histCopy day q else s)
    exact ⟨l, hl.trans (by split <;> rfl)⟩

theorem execPmHistoryCopy_mram {s t : State} {day : Bool} (ht : execPmHistoryCopy day s = .next t) :
    ∃ l, t.mram = { s.mram with hist := l } := by
  cases ht
  split
  · dsimp only [State.onlyIf]
    split
    · exact s.histCopies_mram day _
    · exact ⟨_, rfl⟩
  · exact ⟨_, rfl⟩

theorem State.sumWrite_mram (s : State) (x : Summary) (ok : Bool) :
    ∃ l, (s.sumWrite x ok).mram = { s.mram with sums := l } :=
  ⟨_, (State.raiseIf_same (.refl _) _ ok pgLookout evFatalWr (.refl _ _)).mram rfl⟩

/-- The write of a summary leaves the copies and the history; the chip reset that follows it sets times of the history. -/
theorem State.fatalWritten_mram (s : State) (ok : Bool) :
    ∃ (l : AMap (List Byte)) (m : MramS), (s.fatalWritten ok).mram = { m with sums := l } ∧ m.copyA = s.mram.copyA ∧ m.copyB = s.mram.copyB
      ∧ m.bins = s.mram.bins := by
  unfold State.fatalWritten
  split
  · next x xs _ =>
    obtain ⟨l, hl⟩ := State.sumWrite_mram (s.setLook { s.lookout with owed := xs }) x ok
    exact ⟨l, s.mram, hl, rfl, rfl, rfl⟩
  · rename_i c m howed hfatal
    obtain ⟨l, hl⟩ := State.sumWrite_mram (s.setLook { s.lookout with fatal := none, chipAt := none }) (s.summary c m) ok
    extract_lets lo s1
    replace hl : s1.mram = { s.mram with sums := l } := hl
    split
    · exact ⟨l, s.mram, hl, rfl, rfl, rfl⟩
    · clear_value s1
      have hr := State.chipReset_retains s1 s1.lookout.chipRst (.refl s1)
      refine ⟨_, (s1.chipReset s1.lookout.chipRst).mram, rfl, ?_, ?_, ?_⟩
      · exact hr.copyA.trans (by rw [hl])
      · exact hr.copyB.trans (by rw [hl])
      · exact hr.bins.trans (by rw [hl]; rfl)
  · exact ⟨s.mram.sums, s.mram, rfl, rfl, rfl, rfl⟩

/-! ### Time -/

theorem State.saveGoes_savesOnly (s : State) : s.SavesOnly s.saveGoes := by
  unfold State.saveGoes
  split
  · split
    · exact ⟨(s.saveWords_savesOnly _ _).sums, (s.saveWords_savesOnly _ _).hist⟩
    · exact ⟨rfl, rfl⟩
  · exact ⟨rfl, rfl⟩

theorem State.saveGoes_idle {s : State} (h : s.forester.saving = none) : s.saveGoes = s := by
  simp only [State.saveGoes, h]

/-- In a nanosecond the MRAM changes by a save alone. -/
theorem State.tickCore_mram (s : State) :
    s.SavesOnly s.tickCore ∧ (s.forester.saving = none → s.tickCore.mram = s.mram) := by
  unfold State.tickCore
  split
  · exact ⟨⟨rfl, rfl⟩, fun _ => rfl⟩
  · extract_lets s1 s2
    have h1 : State.Same 0xb620080a14 s s1 := State.paceTick_same (.of rfl (.refl _)) _ _
      (State.paceTick_same (.of rfl (.refl _)) _ _ (State.fireMicros_same (.of rfl (.refl _)) _
        (State.deckCycles_same (.of rfl (.refl _)) _ _ (State.deckCycles_same (.of rfl (.refl _)) _ _ (.refl _ s)))))
    clear_value s1
    have h2 : State.Same 0xb620080a14 s s2 := State.hbmErrs_same (.of rfl (.refl _)) _ _
      (State.hbmErrs_same (.of rfl (.refl _)) _ _ (State.pipeCycles_same (.of rfl (.refl _)) _ _
        (State.pipeCycles_same (.of rfl (.refl _)) _ _ h1)))
    clear_value s2
    have h3 : State.Same 0xb620080a14 s ((s2.prbsChecks (s2.lanes.map (·.1))).linkEnds (s2.ports.map (·.1))) :=
      State.linkEnds_same (.of rfl (.refl _)) _ _ (State.prbsChecks_same (.of rfl (.refl _)) _ _ h2)
    generalize (s2.prbsChecks (s2.lanes.map (·.1))).linkEnds (s2.ports.map (·.1)) = u at h3 ⊢
    refine ⟨⟨u.saveGoes_savesOnly.sums.trans (congrArg _ (h3.mram rfl)),
      u.saveGoes_savesOnly.hist.trans (congrArg _ (h3.mram rfl))⟩, fun hn => ?_⟩
    rw [State.saveGoes_idle (by rw [h3.forester rfl]; exact hn), h3.mram rfl]

theorem State.tick_mram (s : State) :
    s.SavesOnly s.tick ∧ (s.forester.saving = none → s.tick.mram = s.mram) := by
  unfold State.tick
  extract_lets s1
  obtain ⟨hsave, hidle⟩ := s1.tickCore_mram
  split
  · rename_i s2 hlive
    split
    · have he : State.Same 0x118220000014 s2 s2.enterWipe := State.enterWipe_same (.refl _) s2 (.refl _ s2)
      exact ⟨State.SavesOnly.same ⟨hsave.sums, hsave.hist⟩ he rfl, fun hn => (he.mram rfl).trans (hidle hn)⟩
    · exact ⟨⟨hsave.sums, hsave.hist⟩, fun hn => hidle hn⟩
  · exact ⟨⟨rfl, rfl⟩, fun _ => rfl⟩

theorem State.tickCore_up (s : State) : s.tickCore.clk = s.clk :=
  (State.tickCore_same (.refl _) s (.refl _ s)).clk rfl

/-- A nanosecond advances the always-on clock by one, whatever else it does. -/
theorem State.tick_up (s : State) : s.tick.clk.up = s.clk.up + 1 := by
  unfold State.tick
  extract_lets s1
  have h2 := congrArg Clock.up s1.tickCore_up
  split
  · rename_i s2 hlive
    split
    · rw [(State.enterWipe_same (.refl _) s2 (.refl _ s2)).clk rfl]
      exact h2
    · exact h2
  · rfl

/-! ### Commands that a stopped device takes -/

/-- The commands of the pins, the supply and the always-on island, which act in every state. -/
def Instr.alwaysOn : Instr → Bool
  | .porstN _ _ | .chiprstN _ _ | .vddAonReset _ | .fatalWr _ | .faultPulseEnd | .wipeDone | .thermalTrip _ | .resetDip _ => true
  | _ => false

/-- Each other command acts only while the device runs. -/
theorem exec_run {c : Instr} (hc : Instr.alwaysOn c = false) (s : State) : ∃ f, exec c s = s.run f := by
  cases c with
  | porstN | chiprstN | vddAonReset | fatalWr | faultPulseEnd | wipeDone | thermalTrip | resetDip => cases hc
  | _ => unfold exec; exact ⟨_, rfl⟩

/-- The commands of the always-on island. -/
theorem exec_runAlways {c : Instr} (hc : Instr.alwaysOn c = true) (s : State) : ∃ f, exec c s = s.runAlways f := by
  cases c with
  | porstN | chiprstN | vddAonReset | fatalWr | faultPulseEnd | wipeDone | thermalTrip | resetDip =>
    unfold exec; exact ⟨_, rfl⟩
  | _ => cases hc

/-! ### The obligations of the whole machine -/

/-- Settles O7, from State.Kept, which a nanosecond of time and every command keep. -/
theorem everyStepGoesForward : Obligations.EveryStepGoesForward := by
  intro s t hs ht
  obtain ⟨-, rfl⟩ | ⟨c, rest, -, hc⟩ := step_next_cases ht
  · exact (State.tick_kept s (State.Kept.refl hs)).after
  · obtain ⟨hfuse, htime, hsent⟩ := (exec_kept hc (State.Kept.refl (hs.pending rest))).after
    exact ⟨hfuse, htime, hsent⟩

/-- Settles O1: what a step is. -/
theorem stepRunsFrontCommand : Obligations.StepRunsFrontCommand := fun _ _ _ => rfl

/-- Settles O2: the mask of a tick, its clock, and the save that is all it writes in the MRAM. -/
theorem idleStepIsOneNanosecond : Obligations.IdleStepIsOneNanosecond := by
  intro s hs
  have h := State.tick_same (.refl _) s (.refl _ s)
  obtain ⟨hsave, hidle⟩ := s.tick_mram
  refine ⟨s.tick, by simp only [step, hs], h.pending.trans hs, s.tick_up, h.out rfl, h.fuses rfl, hsave.hist, hsave.sums,
    hidle, h.frames rfl, h.queues rfl⟩

/-- Settles O3: a command is a meaning of the running device or one of the always-on island, and both answer. -/
theorem everyCommandIsAnswered : Obligations.EveryCommandIsAnswered := by
  intro c s
  cases hc : Instr.alwaysOn c with
  | false =>
    obtain ⟨f, hf⟩ := exec_run hc s
    exact hf ▸ s.run_next f
  | true =>
    obtain ⟨f, hf⟩ := exec_runAlways hc s
    exact ⟨_, hf, rfl⟩

/-- Settles O11: each command that is not named acts only while the device runs. -/
theorem stoppedDeviceTakesNoCommand : Obligations.StoppedDeviceTakesNoCommand := by
  intro c s hdead h1 h2 h3 h4 h5 h6 h7 h8
  have hc : Instr.alwaysOn c = false := by
    cases c with
    | porstN l p => exact absurd rfl (h1 l p)
    | chiprstN l p => exact absurd rfl (h2 l p)
    | vddAonReset p => exact absurd rfl (h3 p)
    | fatalWr b => exact absurd rfl (h4 b)
    | faultPulseEnd => exact absurd rfl h5
    | wipeDone => exact absurd rfl h6
    | thermalTrip h => exact absurd rfl (h7 h)
    | resetDip b => exact absurd rfl (h8 b)
    | _ => rfl
  obtain ⟨f, hf⟩ := exec_run hc s
  rw [hf, State.run_dead f hdead]

/-- Settles O8: the commands that change the MRAM alone by their masks, each other one by what it retains. -/
theorem fusesChangeOnlyByFourCommands : Obligations.FusesChangeOnlyByFourCommands := by
  intro c s t ht hkey hsvn hwipe hlc
  cases hc : Instr.changesLasting c with
  | false => exact (exec_retains ht hc).fuses
  | true =>
    cases c with
    | cfgSave => exact (execCfgSave_same (.refl _) ht (.refl _ s)).fuses rfl
    | mailboxComplete => exact (execMailboxComplete_same (.refl _) ht (.refl _ s)).fuses rfl
    | fatalWr => exact (execFatalWr_same (.refl _) ht (.refl _ s)).fuses rfl
    | pmHistoryCopy => exact (execPmHistoryCopy_same (.refl _) ht (.refl _ s)).fuses rfl
    | keyProgram => exact absurd rfl hkey
    | svnAdvance => exact absurd rfl hsvn
    | wipeDone => exact absurd rfl hwipe
    | lcFuseWrite => exact absurd rfl hlc
    | _ => cases hc

/-- Settles O10: the five commands that may change the MRAM by what each leaves of it, each other one by what it retains. -/
theorem retainedMemoryChangesOnlyByItsCommands : Obligations.RetainedMemoryChangesOnlyByItsCommands := by
  intro c s t ht
  have of_mram (hm : t.mram = s.mram) : t.mram.copyA = s.mram.copyA ∧ t.mram.copyB = s.mram.copyB
      ∧ t.mram.sums = s.mram.sums ∧ t.mram.bins = s.mram.bins := by rw [hm]; exact ⟨rfl, rfl, rfl, rfl⟩
  cases hc : Instr.changesLasting c with
  | false =>
    have h := exec_retains ht hc
    exact ⟨fun _ _ _ => ⟨h.copyA, h.copyB⟩, fun _ _ => h.sums, fun _ _ => h.bins⟩
  | true =>
    cases c with
    | cfgSave =>
      have h := execCfgSave_savesOnly ht
      exact ⟨fun hne => absurd rfl hne, fun _ _ => h.sums, fun _ _ => congrArg (List.map _) h.hist⟩
    | mailboxComplete =>
      have h := execMailboxComplete_savesOnly ht
      exact ⟨fun _ hne => absurd rfl hne, fun _ _ => h.sums, fun _ _ => congrArg (List.map _) h.hist⟩
    | wipeDone => exact ⟨fun _ _ hne => absurd rfl hne, fun _ hne => absurd rfl hne, fun _ hne => absurd rfl hne⟩
    | fatalWr b =>
      obtain ⟨l, m, hm, hA, hB, hbins⟩ := s.fatalWritten_mram b
      cases ht
      exact ⟨fun _ _ _ => ⟨(congrArg MramS.copyA hm).trans hA, (congrArg MramS.copyB hm).trans hB⟩,
        fun hne => absurd rfl (hne b), fun _ _ => (congrArg MramS.bins hm).trans hbins⟩
    | pmHistoryCopy b =>
      obtain ⟨l, hl⟩ := execPmHistoryCopy_mram ht
      rw [hl]
      exact ⟨fun _ _ _ => ⟨rfl, rfl⟩, fun _ _ => rfl, fun hne => absurd rfl (hne b)⟩
    | svnAdvance =>
      obtain ⟨hA, hB, hsums, hbins⟩ := of_mram ((execSvnAdvance_same (.refl _) ht (.refl _ s)).mram rfl)
      exact ⟨fun _ _ _ => ⟨hA, hB⟩, fun _ _ => hsums, fun _ _ => hbins⟩
    | keyProgram =>
      obtain ⟨hA, hB, hsums, hbins⟩ := of_mram ((execKeyProgram_same (.refl _) ht (.refl _ s)).mram rfl)
      exact ⟨fun _ _ _ => ⟨hA, hB⟩, fun _ _ => hsums, fun _ _ => hbins⟩
    | lcFuseWrite =>
      obtain ⟨hA, hB, hsums, hbins⟩ := of_mram ((execLcFuseWrite_same (.refl _) ht (.refl _ s)).mram rfl)
      exact ⟨fun _ _ _ => ⟨hA, hB⟩, fun _ _ => hsums, fun _ _ => hbins⟩
    | _ => cases hc

/-! ### The life cycle (R444) -/

/-- A mailbox operation that leaves the life cycle does so when the head carries it out. -/
theorem State.mbAct_life {s : State} {op : Nat} {f : State → State × MbResult}
    (hf : (f s).1.fuses.life = s.fuses.life) : (s.mbAct op f).fuses.life = s.fuses.life := by
  unfold State.mbAct
  extract_lets m r
  split
  · exact hf
  · rfl

theorem State.mbSvn_life (s : State) : s.mbSvn.1.fuses.life = s.fuses.life := by
  unfold State.mbSvn State.mbNeeds
  dsimp only
  split
  · rfl
  · split
    · rfl
    · split <;> rfl

theorem State.mbKey_life (s : State) : s.mbKey.1.fuses.life = s.fuses.life := by
  unfold State.mbKey State.mbNeeds
  dsimp only
  split
  · rfl
  · split
    · rfl
    · split
      · rfl
      · split <;> rfl

theorem State.chipReset_life (s : State) (cause : Nat) : (s.chipReset cause).fuses.life = s.fuses.life :=
  congrArg FuseS.life (s.chipReset_fuses cause)

theorem State.wiped_life (s : State) : s.wiped.fuses.life = s.fuses.life := by
  unfold State.wiped
  split
  · rfl
  · exact State.chipReset_life _ _

/-- The fuses take the life cycle of the change that waited, or keep theirs. -/
theorem State.lifeWrite_life (s : State) :
    s.lifeWrite.fuses.life = s.fuses.life ∨ ∃ x, s.forester.lcNext = some x ∧ s.lifeWrite.fuses.life = x.1 := by
  unfold State.lifeWrite
  split
  · next life due hnext =>
    split
    · exact .inr ⟨_, hnext, congrArg FuseS.life ((State.pcieDown_same (.refl _) _ (.refl _ _)).fuses rfl)⟩
    · exact .inl rfl
  · exact .inl rfl

theorem State.run_life {s t : State} {f : State → State} (ht : s.run f = .next t)
    (hf : (f s).fuses.life = s.fuses.life) : t.fuses.life = s.fuses.life := by
  cases ht
  dsimp only
  split
  · exact hf
  · rfl

/-- A command leaves the life cycle, or takes the change that waits. -/
theorem exec_life {c : Instr} {s t : State} (ht : exec c s = .next t) :
    t.fuses.life = s.fuses.life ∨ ∃ x, s.forester.lcNext = some x ∧ t.fuses.life = x.1 := by
  by_cases hkey : c = .keyProgram
  · subst hkey
    exact .inl (State.run_life (f := fun u => u.mbAct 0x52 State.mbKey) ht (State.mbAct_life s.mbKey_life))
  by_cases hsvn : c = .svnAdvance
  · subst hsvn
    exact .inl (State.run_life (f := fun u => u.mbAct 0x51 State.mbSvn) ht (State.mbAct_life s.mbSvn_life))
  by_cases hwipe : c = .wipeDone
  · subst hwipe
    cases ht
    exact .inl s.wiped_life
  by_cases hlc : c = .lcFuseWrite
  · subst hlc
    cases ht
    dsimp only
    split
    · exact s.lifeWrite_life
    · exact .inl rfl
  exact .inl (congrArg FuseS.life (fusesChangeOnlyByFourCommands c s t ht hkey hsvn hwipe hlc))

theorem State.rdBlock_lcState (s : State) (r : Requester) : s.rdBlock r pgLifecycle Reg.lcState = some s.lcState := rfl

theorem State.readVal_lcState (s : State) (r : Requester) : s.readVal r pgLifecycle Reg.lcState = s.lcState := by
  obtain ⟨sp, hsp, hwo⟩ : ∃ sp, regSpec pgLifecycle Reg.lcState = some sp ∧ sp.wo = false := ⟨_, rfl, rfl⟩
  simp only [State.readVal, hsp, hwo, Bool.false_eq_true, if_false, if_neg (show ¬ Reg.lcState < 0x20 by decide),
    State.rdBlock_lcState]

/-- Settles O9: a step leaves the life cycle or takes the change that waits, which the invariant holds to be one of Table 167;
LC_STATE is read from the fuses. -/
theorem lifeCycleAdvancesInOrder : Obligations.LifeCycleAdvancesInOrder := by
  refine ⟨fun s t hs hlife ht => ⟨(everyStepGoesForward s t hs ht).fuse.1, ?_⟩, fun s r hlife => ?_⟩
  · obtain ⟨-, rfl⟩ | ⟨c, rest, -, hc⟩ := step_next_cases ht
    · rw [(State.tick_same (.refl _) s (.refl _ s)).fuses rfl]
      exact hlife
    · obtain h | ⟨x, hx, h⟩ := exec_life hc
      · exact h ▸ hlife
      · exact h ▸ (hs.next x hx).2
  · rw [State.readVal_lcState]
    unfold State.lcState
    omega

/-! ### Power-on (R448, R449) -/

/-- No register has been written at power-on. -/
theorem State.reset_reg (p : Nat) {o : Nat} (ho : o < 0x10000) : State.reset.reg p o = BitVec.ofNat 32 (regInit p o) := by
  have hp : regKey p o / 0x10000 = p := by unfold regKey; omega
  have hx : regKey p o % 0x10000 = o := by unfold regKey; omega
  show regDefault (regKey p o) = _
  rw [regDefault, hp, hx]

/-- Settles O5, from the values that the header's registers and the rings have at power-on. -/
theorem resetState : Obligations.ResetState := by
  refine ⟨rfl, rfl, rfl, rfl, by decide, rfl, fun _ => rfl, fun p _ => ⟨?_, ?_, ?_⟩, rfl, rfl, rfl, rfl⟩
  · exact State.reset_reg p (by decide)
  · exact State.reset_reg p (by decide)
  · have hlock : State.reset.reg p 0x18 = 0 := State.reset_reg p (by decide)
    rw [State.locked, State.rbit, hlock]
    rfl

/-! ### Reset requests without their key (R451) -/

/-- A command that is a write of one register of a live device, at once. -/
theorem State.run_regWrite_now {s : State} {r : Requester} {p o : Nat} (v : Word) (hlive : s.live = true) (ho : o < 0x10000)
    (hw : s.WritesNow r p o) :
    s.run (·.regWrite r p o v) = .next (((s.writeAt r p o v).strictEnd s r).keepQueue s) := by
  rw [State.run_live _ hlive, State.regWrite_now v ho hw]

theorem State.writeAt_reset (s : State) (r : Requester) (v : Word) {o : Nat}
    (ho : o = Reg.rstChip ∨ o = Reg.rstHalf ∨ o = Reg.rstSlice) : s.writeAt r pgReset o v = s.wrReset o v := by
  obtain rfl | rfl | rfl := ho
  all_goals
    rw [State.writeAt_body s r v (by decide) (by decide) (by decide)]
    rfl

@[simp] theorem State.rstReject_rst (s : State) (code : Nat) : (s.rstReject code).rst = { s.rst with rej := code } :=
  State.raise_rst _ _ _

theorem State.rstReject_evt (s : State) (code : Nat) : (s.rstReject code).rbit pgReset 0x10 evRej = true :=
  State.raise_evt _ _ (by decide)

/-- A rejected request leaves the registers of every page but RESET and LOOKOUT, at the offsets that a page has. -/
theorem State.rstReject_reg_of_page (s : State) (code : Nat) {p o : Nat} (hp : p ≠ pgReset) (hl : p ≠ pgLookout)
    (ho : o < 0x10000) : (s.rstReject code).reg p o = s.reg p o :=
  State.raise_reg_ne _ _ _ (regKey_ne hp (by decide) ho) (regKey_ne hl (by decide) ho) (regKey_ne hl (by decide) ho)

theorem State.wrReset_noKey (s : State) {v : Word} (hv : fld v 16 16 ≠ 0x9204) {o : Nat}
    (ho : o = Reg.rstChip ∨ o = Reg.rstHalf ∨ o = Reg.rstSlice) : s.wrReset o v = s.rstReject rejKey := by
  obtain rfl | rfl | rfl := ho
  · exact if_pos hv
  · exact if_pos hv
  · exact if_pos hv

/-- What R451 says of a reset register written without its key, for registers within their pages: KEY is kept, the event rises,
and no register of another page than RESET and LOOKOUT changes. -/
theorem State.regWrite_noKey {s : State} {v : Word} {o : Nat} (hv : fld v 16 16 ≠ 0x9204)
    (ho : o = Reg.rstChip ∨ o = Reg.rstHalf ∨ o = Reg.rstSlice) (hw : s.WritesNow .host pgReset o) :
    (s.hostWrite pgReset o v).rst = { s.rst with rej := rejKey } ∧ (s.hostWrite pgReset o v).rbit pgReset 0x10 evRej = true
      ∧ ∀ p o', p ≠ pgReset → p ≠ pgLookout → o' < 0x10000 → (s.hostWrite pgReset o v).reg p o' = s.reg p o' := by
  have hlt : o < 0x10000 := by obtain rfl | rfl | rfl := ho <;> decide
  have hwrite : s.hostWrite pgReset o v = (s.rstReject rejKey).strictEnd s .host := by
    rw [State.hostWrite, State.regWrite_now v hlt hw, State.writeAt_reset s _ v ho, State.wrReset_noKey s hv ho]
  obtain ⟨f, hf⟩ := (s.rstReject rejKey).strictEnd_bus s .host
  rw [hwrite, hf]
  exact ⟨s.rstReject_rst rejKey, s.rstReject_evt rejKey, fun p o' hp hl ho' => s.rstReject_reg_of_page rejKey hp hl ho'⟩

/-- The host's write of RST_CHIP right after power-on takes effect at once. -/
theorem State.reset_writesRstChip : State.reset.WritesNow .host pgReset Reg.rstChip where
  reach := ⟨rfl, rfl, rfl, by decide, fun _ => rfl, fun _ => by decide⟩
  fast := by decide
  write := by decide
  open_ := by decide

/-- Refutes O18 right after power-on: RST_CHIP written as 0 raises an event of RESET, and the register that holds it is also one
of page 0, at an offset beyond the end of that page, which the statement keeps (State.reg_pgChip_regKey). -/
theorem not_resetKeyChecked : ¬ Obligations.ResetKeyChecked := by
  unfold Obligations.ResetKeyChecked
  intro h
  obtain ⟨t, -, -, hevt, hkept, -⟩ := h State.reset 0 (.rstChip 0) Reg.rstChip rfl (by decide) (by simp)
    State.reset_writesRstChip
  have hsame := hkept pgChip (regKey pgReset 0x10) (by decide) (by decide)
  rw [State.reg_pgChip_regKey, State.reg_pgChip_regKey] at hsame
  rw [State.rbit, hsame] at hevt
  exact absurd hevt (by decide)

end Sys2Proof.Machine
end

section
/-! SUPPORT AND PROOF. What the commands of Cruiser, Lookout, Firebreak, Forester, the mailbox and the resets
leave unchanged (13_cruiser_counters.md to 17_reset_retained.md). -/

namespace Sys2Proof.Machine

/-! ### The registers whose writes are commands, by their page -/

theorem State.writeAt_crCtrl (s : State) (r : Requester) (v : Word) : s.writeAt r pgCruiser Reg.crCtrl v =
    s.crCtrlWrite v := by
  rw [State.writeAt_body s r v (by decide) (by decide) (by decide)]
  rfl

theorem State.writeAt_crBwCtrl (s : State) (r : Requester) (v : Word) :
    s.writeAt r pgCruiser Reg.crBwCtrl v = s.crBwWrite v := by
  rw [State.writeAt_body s r v (by decide) (by decide) (by decide)]
  rfl

theorem State.writeAt_loClr (s : State) (r : Requester) (v : Word) : s.writeAt r pgLookout Reg.loClr v = s.loClr v := by
  rw [State.writeAt_body s r v (by decide) (by decide) (by decide)]
  rfl

theorem State.writeAt_loPinRel (s : State) (r : Requester) (v : Word) :
    s.writeAt r pgLookout Reg.loPinRel v = s.pinRelease := by
  rw [State.writeAt_body s r v (by decide) (by decide) (by decide)]
  rfl

theorem State.writeAt_firebreak (s : State) (r : Requester) (v : Word) {o : Nat} (ho : 0x20 ≤ o)
    (hhigh : isHigh pgFirebreak o = false) (hwide : isWide pgFirebreak o = false) :
    s.writeAt r pgFirebreak o v = s.wrFirebreak o v := by
  rw [State.writeAt_body s r v ho hhigh hwide]
  rfl

theorem State.writeAt_fbHint (s : State) (r : Requester) (v : Word) :
    s.writeAt r pgFirebreak Reg.fbHint v = s.hintWrite (fld v 0 16) := by
  rw [State.writeAt_firebreak s r v (by decide) (by decide) (by decide)]
  rfl

theorem State.writeAt_rstHalf (s : State) (r : Requester) (v : Word) : s.writeAt r pgReset Reg.rstHalf v =
    s.rstHalf v := by
  rw [State.writeAt_reset s r v (by decide)]
  rfl

theorem State.writeAt_rstSlice (s : State) (r : Requester) (v : Word) : s.writeAt r pgReset Reg.rstSlice v =
    s.rstSlice v := by
  rw [State.writeAt_reset s r v (by decide)]
  rfl

/-! ### STOP, and BLK_RST of a slow page -/

/-- STOP written without SNAP cancels the snapshot and reports nothing (13_cruiser_counters.md R377). -/
theorem State.crCtrlWrite_stop (s : State) {v : Word} (hv : bit v 0 = false ∧ bit v 1 = true) :
    s.crCtrlWrite v = (s.setRf pgCruiser Reg.crCtrl 2 1 (fld v 2 1)).snapStop := by
  simp only [State.crCtrlWrite, hv, Bool.false_eq_true, if_false, if_true]

theorem State.crCtrlWrite_stop_same {m : Nat} {k : State} (hm : State.Sub 0x1000000010 m) (s : State) {v : Word}
    (hv : bit v 0 = false ∧ bit v 1 = true) (hs : State.Same m k s) : State.Same m k (s.crCtrlWrite v) := by
  rw [State.crCtrlWrite_stop s hv]
  exact State.snapStop_same (.of rfl hm) _ (State.setRf_same (.of rfl hm) _ _ _ _ _ _ hs)

/-- The word that STOP writes has STOP set and SNAP clear, whatever DST is. -/
theorem State.stopWord_bit (s : State) :
    bit (put 2 2 1 (s.rf pgCruiser Reg.crCtrl 2 1)) 0 = false
    ∧ bit (put 2 2 1 (s.rf pgCruiser Reg.crCtrl 2 1)) 1 = true := by
  have hx : s.rf pgCruiser Reg.crCtrl 2 1 < 2 := Nat.mod_lt _ (by decide)
  generalize s.rf pgCruiser Reg.crCtrl 2 1 = x at hx
  revert x; decide

/-- A write of PG_CTRL of a slow page whose buffer is free enters the buffer (R50). -/
theorem State.regWrite_pgCtrl_slow {s : State} {r : Requester} {p : Nat} (v : Word)
    (hr : s.Reaches true (accessTo r p Reg.pgCtrl 0)) (hslow : pageSlow p = true) (hfree : s.wbusy p = false) :
    s.regWrite r p Reg.pgCtrl v = ({ s with bus := { s.bus with
        posted := AMap.set none s.bus.posted p
          (some { req := r, kind := .write Reg.pgCtrl v, ord := s.bus.posts, epoch := s.carried r })
        posts := s.bus.posts + 1 } } : State).strictEnd s r := by
  have hp : accPage (accessTo r p Reg.pgCtrl v) = p := accPage_accessTo r _ v hr.block
  have ho : accOff (accessTo r p Reg.pgCtrl v) = Reg.pgCtrl := accOff_accessTo r p v (by decide)
  have hfc : s.frontCause true (accessTo r p Reg.pgCtrl v) = none := hr.front
  have hposts : postsWrite p Reg.pgCtrl = true := by
    rw [postsWrite, hslow]
    rfl
  have hwin : Reg.pgCtrl ≠ Reg.winCmd := by decide
  rw [State.regWrite_reach v hr]
  simp only [State.takeWrite, accessTo_bar2, hfc, hp, ho, hposts, State.postWrite, hfree, if_neg hwin, accessTo_req,
    accessTo_value, Bool.false_eq_true, Bool.true_eq_false, if_false, if_true]

theorem State.regWrite_pgCtrl_same {m : Nat} (hm : State.Sub 0x80 m) {s : State} {r : Requester} {p : Nat} (v : Word)
    (hr : s.Reaches true (accessTo r p Reg.pgCtrl 0)) (hslow : pageSlow p = true) (hfree : s.wbusy p = false) :
    State.Same m s (s.regWrite r p Reg.pgCtrl v) := by
  rw [State.regWrite_pgCtrl_slow v hr hslow hfree]
  exact State.strictEnd_same hm _ s r (State.Same.upd_80 hm (.refl _ s))

/-! ### The obligations -/

/-- Settles O28, from what each command of Cruiser leaves as it was (State.Same). -/
theorem cruiserFrame : Obligations.CruiserFrame := by
  unfold Obligations.CruiserFrame
  refine ⟨?snapshotCapture, ?snapshotPartDone, ?snapshotTransferDone, ?bwWindowEnd, ?snap, ?stop, ?pkClr,
    ?winLengthWrite⟩
  case snapshotCapture => exact fun s t ht => (execSnapshotCapture_same (.refl _) ht (.refl _ s)).eq_graft
  case snapshotPartDone => exact fun _ s t ht => (execSnapshotPartDone_same (.refl _) ht (.refl _ s)).eq_graft
  case snapshotTransferDone => exact fun s t ht => (execSnapshotTransferDone_same (.refl _) ht (.refl _ s)).eq_graft
  case bwWindowEnd => exact fun s t ht => (execBwWindowEnd_same (.refl _) ht (.refl _ s)).eq_graft
  case snap =>
    intro _ s t hw ht
    refine (State.Same.run_one (m := 0x9000000090) ht ?_).eq_graft
    refine State.regWrite_now_same (.of rfl (.refl _)) (by decide) hw ?_
    rw [State.writeAt_crCtrl]
    exact State.crCtrlWrite_same (.of rfl (.refl _)) _ _ (.refl _ s)
  case stop =>
    intro _ s t hw ht
    refine (State.Same.run_one (m := 0x1000000090) ht ?_).eq_graft
    refine State.regWrite_now_same (.of rfl (.refl _)) (by decide) hw ?_
    rw [State.writeAt_crCtrl]
    exact State.crCtrlWrite_stop_same (.of rfl (.refl _)) _ s.stopWord_bit (.refl _ s)
  case pkClr =>
    intro _ s t hw ht
    refine (State.Same.run_one (m := 0x1000000090) ht ?_).eq_graft
    refine State.regWrite_now_same (.of rfl (.refl _)) (by decide) hw ?_
    rw [State.writeAt_crBwCtrl]
    exact State.crBwWrite_same (.of rfl (.refl _)) _ _ (.refl _ s)
  case winLengthWrite =>
    intro _ _ s t hw ht
    refine (State.Same.run_one (m := 0x1000000090) ht ?_).eq_graft
    refine State.regWrite_now_same (.of rfl (.refl _)) (by decide) hw ?_
    rw [State.writeAt_crBwCtrl]
    exact State.crBwWrite_same (.of rfl (.refl _)) _ _ (.refl _ s)

/-- Settles O29, from what each command of Lookout and Firebreak leaves as it was (State.Same). -/
theorem lookoutAndFirebreakFrame : Obligations.LookoutAndFirebreakFrame := by
  unfold Obligations.LookoutAndFirebreakFrame
  refine ⟨?lookoutMessage, ?levelRiseWithoutMessage, ?loClr, ?loPinRel, ?faultPulseEnd, ?trapDeliver, ?fatalWr,
    ?powerSample, ?capEvaluate, ?fbCalUpdate, ?calStale, ?deferralLimit, ?droopOnset, ?tempSample, ?thermalStep,
    ?thermalTrip, ?supplyWarning, ?supplyRecovery, ?uvRelease, ?resetDip, ?hint, ?hintAck, ?hintWindowEnd, ?pmbusErr,
    ?alertN, ?fixed⟩
  case lookoutMessage =>
    intro _ _ s t ht
    have hs := execLookoutMessage_same (.refl _) ht (.refl _ s)
    exact ⟨hs.clk rfl, hs.selRegs rfl, hs.flumeUp rfl, hs.lanes rfl, hs.macros rfl, hs.rings rfl, hs.eastq rfl,
      hs.hbm rfl, hs.fire rfl, hs.mram rfl, hs.fuses rfl, hs.ppsHigh rfl⟩
  case levelRiseWithoutMessage =>
    intro _ s t ht
    have hs := execLevelRiseWithoutMessage_same (.refl _) ht (.refl _ s)
    exact ⟨hs.clk rfl, hs.selRegs rfl, hs.flumeUp rfl, hs.lanes rfl, hs.macros rfl, hs.rings rfl, hs.eastq rfl,
      hs.hbm rfl, hs.fire rfl, hs.forester rfl, hs.mram rfl, hs.fuses rfl, hs.ppsHigh rfl⟩
  case loClr =>
    intro _ s t hw ht
    refine (State.Same.run_one (m := 0x8000000090) ht ?_).eq_graft
    refine State.regWrite_now_same (.of rfl (.refl _)) (by decide) hw ?_
    rw [State.writeAt_loClr]
    exact State.loClr_same (.of rfl (.refl _)) _ _ (.refl _ s)
  case loPinRel =>
    intro s t hw ht
    refine (State.Same.run_one (m := 0x8000000088) ht ?_).eq_graft
    refine State.regWrite_now_same (.of rfl (.refl _)) (by decide) hw ?_
    rw [State.writeAt_loPinRel]
    exact State.pinRelease_same (.of rfl (.refl _)) _ (.refl _ s)
  case faultPulseEnd => exact fun s t ht => (execFaultPulseEnd_same (.refl _) ht (.refl _ s)).eq_graft
  case trapDeliver => exact fun s t ht => (execTrapDeliver_same (.refl _) ht (.refl _ s)).eq_graft
  case fatalWr =>
    intro _ s t ht
    have hs := execFatalWr_same (.refl _) ht (.refl _ s)
    exact ⟨hs.freeCtr rfl, hs.out rfl, hs.fuses rfl⟩
  case powerSample => exact fun s t ht => (execPowerSample_same (.refl _) ht (.refl _ s)).eq_graft
  case capEvaluate => exact fun _ s t ht => (execCapEvaluate_same (.refl _) ht (.refl _ s)).eq_graft
  case fbCalUpdate => exact fun _ _ _ s t ht => (execFbCalUpdate_same (.refl _) ht (.refl _ s)).fuses rfl
  case calStale => exact fun s t ht => (execCalStale_same (.refl _) ht (.refl _ s)).eq_graft
  case deferralLimit => exact fun s t ht => (execDeferralLimit_same (.refl _) ht (.refl _ s)).eq_graft
  case droopOnset => exact fun _ _ s t ht => (execDroopOnset_same (.refl _) ht (.refl _ s)).eq_graft
  case tempSample => exact fun _ s t ht => (execTempSample_same (.refl _) ht (.refl _ s)).eq_graft
  case thermalStep => exact fun s t ht => (execThermalStep_same (.refl _) ht (.refl _ s)).eq_graft
  case thermalTrip =>
    intro h s t ht
    have hs := execThermalTrip_same (_h := h) (.refl _) ht (.refl _ s)
    exact ⟨hs.clk rfl, hs.freeCtr rfl, hs.selRegs rfl, hs.mem rfl, hs.bus rfl, hs.flumeUp rfl, hs.lanes rfl,
      hs.macros rfl, hs.ports rfl, hs.spans rfl, hs.nextFrame rfl, hs.slices rfl, hs.mcast rfl, hs.rings rfl,
      hs.path rfl, hs.queues rfl, hs.deficit rfl, hs.qbucket rfl, hs.sched rfl, hs.meters rfl, hs.late rfl,
      hs.wood rfl, hs.eastq rfl, hs.hitq rfl, hs.hbm rfl, hs.cruiser rfl, hs.fire rfl, hs.raft rfl, hs.forester rfl,
      hs.mram rfl, hs.fuses rfl, hs.ppsHigh rfl⟩
  case supplyWarning => exact fun _ _ s t ht => (execSupplyWarning_same (.refl _) ht (.refl _ s)).eq_graft
  case supplyRecovery => exact fun _ s t ht => (execSupplyRecovery_same (.refl _) ht (.refl _ s)).eq_graft
  case uvRelease => exact fun s t ht => (execUvRelease_same (.refl _) ht (.refl _ s)).eq_graft
  case resetDip => exact fun b s t ht => (execResetDip_same (_sram := b) (.refl _) ht (.refl _ s)).eq_graft
  case hint =>
    intro _ s t hw ht
    refine (State.Same.run_one (m := 0x2000000090) ht ?_).eq_graft
    refine State.regWrite_now_same (.of rfl (.refl _)) (by decide) hw ?_
    rw [State.writeAt_fbHint]
    exact State.hintWrite_same (.of rfl (.refl _)) _ _ (.refl _ s)
  case hintAck => exact fun s t ht => (execHintAck_same (.refl _) ht (.refl _ s)).eq_graft
  case hintWindowEnd => exact fun s t ht => (execHintWindowEnd_same (.refl _) ht (.refl _ s)).eq_graft
  case pmbusErr => exact fun s t ht => (execPmbusErr_same (.refl _) ht (.refl _ s)).eq_graft
  case alertN => exact fun _ s t ht => (execAlertN_same (.refl _) ht (.refl _ s)).eq_graft
  case fixed =>
    intro _ _ s t hw ht
    refine (State.Same.run_one (m := 0xa020000090) ht ?_).eq_graft
    refine State.regWrite_now_same (.of rfl (.refl _)) (by decide) hw ?_
    rw [State.writeAt_firebreak s _ _ (by decide) (by decide) (by decide)]
    exact State.wrFirebreak_same (.of rfl (.refl _)) _ _ _ (.refl _ s)

/-- Settles O30, from what each command of Forester and of the mailbox leaves as it was (State.Same). -/
theorem foresterFrame : Obligations.ForesterFrame := by
  unfold Obligations.ForesterFrame
  refine ⟨?pmHistoryCopy, ?headClaim, ?leaseRenew, ?leaseExpire, ?lockstepMismatch, ?clusterBootDone, ?info, ?sensors,
    ?logRead, ?fatalRead, ?trapRead, ?pmRead, ?chRead, ?chWrite, ?imgStage, ?imgApply, ?restart, ?handover, ?cfgSave,
    ?attest, ?ident, ?measExtend, ?lcAdvance, ?svnAdvance, ?keyProgram, ?mailboxComplete, ?noHead, ?lcFuseWrite,
    ?recoveryImage⟩
  case pmHistoryCopy => exact fun _ s t ht => (execPmHistoryCopy_same (.refl _) ht (.refl _ s)).eq_graft
  case headClaim => exact fun _ _ s t ht => (execHeadClaim_same (.refl _) ht (.refl _ s)).eq_graft
  case leaseRenew => exact fun _ s t ht => (execLeaseRenew_same (.refl _) ht (.refl _ s)).eq_graft
  case leaseExpire => exact fun s t ht => (execLeaseExpire_same (.refl _) ht (.refl _ s)).eq_graft
  case lockstepMismatch => exact fun _ s t ht => (execLockstepMismatch_same (.refl _) ht (.refl _ s)).eq_graft
  case clusterBootDone => exact fun _ _ s t ht => (execClusterBootDone_same (.refl _) ht (.refl _ s)).eq_graft
  case info => exact fun s t ht => (execInfo_same (.refl _) ht (.refl _ s)).eq_graft
  case sensors => exact fun _ s t ht => (execSensors_same (.refl _) ht (.refl _ s)).eq_graft
  case logRead => exact fun s t ht => (execLogRead_same (.refl _) ht (.refl _ s)).eq_graft
  case fatalRead => exact fun s t ht => (execFatalRead_same (.refl _) ht (.refl _ s)).eq_graft
  case trapRead => exact fun s t ht => (execTrapRead_same (.refl _) ht (.refl _ s)).eq_graft
  case pmRead => exact fun s t ht => (execPmRead_same (.refl _) ht (.refl _ s)).eq_graft
  case chRead => exact fun s t ht => (execChRead_same (.refl _) ht (.refl _ s)).eq_graft
  case chWrite => exact fun s t ht => (execChWrite_same (.refl _) ht (.refl _ s)).eq_graft
  case imgStage => exact fun _ s t ht => (execImgStage_same (.refl _) ht (.refl _ s)).eq_graft
  case imgApply => exact fun s t ht => (execImgApply_same (.refl _) ht (.refl _ s)).fuses rfl
  case restart => exact fun s t ht => (execRestart_same (.refl _) ht (.refl _ s)).eq_graft
  case handover => exact fun s t ht => (execHandover_same (.refl _) ht (.refl _ s)).eq_graft
  case cfgSave => exact fun s t ht => (execCfgSave_same (.refl _) ht (.refl _ s)).eq_graft
  case attest => exact fun s t ht => (execAttest_same (.refl _) ht (.refl _ s)).eq_graft
  case ident => exact fun s t ht => (execIdent_same (.refl _) ht (.refl _ s)).eq_graft
  case measExtend => exact fun s t ht => (execMeasExtend_same (.refl _) ht (.refl _ s)).eq_graft
  case lcAdvance => exact fun _ s t ht => (execLcAdvance_same (.refl _) ht (.refl _ s)).eq_graft
  case svnAdvance => exact fun s t ht => (execSvnAdvance_same (.refl _) ht (.refl _ s)).eq_graft
  case keyProgram => exact fun s t ht => (execKeyProgram_same (.refl _) ht (.refl _ s)).eq_graft
  case mailboxComplete => exact fun s t ht => (execMailboxComplete_same (.refl _) ht (.refl _ s)).eq_graft
  case noHead => exact fun s t ht => (execNoHead_same (.refl _) ht (.refl _ s)).eq_graft
  case lcFuseWrite =>
    intro s t ht
    have hs := execLcFuseWrite_same (.refl _) ht (.refl _ s)
    exact ⟨hs.clk rfl, hs.out rfl, hs.selRegs rfl, hs.mem rfl, hs.bus rfl, hs.flumeUp rfl, hs.lanes rfl,
      hs.macros rfl, hs.ports rfl, hs.spans rfl, hs.nextFrame rfl, hs.slices rfl, hs.mcast rfl, hs.rings rfl,
      hs.path rfl, hs.queues rfl, hs.deficit rfl, hs.qbucket rfl, hs.sched rfl, hs.meters rfl, hs.late rfl,
      hs.wood rfl, hs.eastq rfl, hs.hitq rfl, hs.hbm rfl, hs.cruiser rfl, hs.fire rfl, hs.raft rfl, hs.mram rfl,
      hs.ppsHigh rfl, hs.rst rfl⟩
  case recoveryImage => exact fun _ _ s t ht => (execRecoveryImage_same (.refl _) ht (.refl _ s)).eq_graft

/-- Settles O31, from what each command of the resets leaves as it was (State.Same). -/
theorem resetFrame : Obligations.ResetFrame := by
  unfold Obligations.ResetFrame
  refine ⟨?blockResetDone, ?rstHalf, ?halfDone, ?rstSlice, ?sliceDone, ?startUpWipeDone, ?restore, ?restored,
    ?flumeChannelDown, ?flumeChannelUp, ?blkRst⟩
  case blockResetDone =>
    intro _ s t ht
    have hs := execBlockResetDone_same (.refl _) ht (.refl _ s)
    exact ⟨hs.clk rfl, hs.selRegs rfl, hs.flumeUp rfl, hs.lanes rfl, hs.macros rfl, hs.hbm rfl, hs.forester rfl,
      hs.mram rfl, hs.fuses rfl, hs.ppsHigh rfl⟩
  case rstHalf =>
    intro _ s t hw ht
    have hs := State.Same.run_one (m := 0x12df3fffbfdc) ht (State.regWrite_now_same (.of rfl (.refl _)) (by decide) hw (by
      rw [State.writeAt_rstHalf]
      exact State.rstHalf_same (.refl _) _ _ (.refl _ s)))
    exact ⟨hs.clk rfl, hs.selRegs rfl, hs.nextFrame rfl, hs.eastq rfl, hs.hitq rfl, hs.fire rfl, hs.forester rfl,
      hs.fuses rfl, hs.ppsHigh rfl⟩
  case halfDone =>
    intro _ s t ht
    have hs := execHalfDone_same (.refl _) ht (.refl _ s)
    exact ⟨hs.clk rfl, hs.out rfl, hs.selRegs rfl, hs.bus rfl, hs.macros rfl, hs.nextFrame rfl, hs.slices rfl,
      hs.mcast rfl, hs.inflight rfl, hs.path rfl, hs.queues rfl, hs.deficit rfl, hs.qbucket rfl, hs.sched rfl,
      hs.hitq rfl, hs.host rfl, hs.fire rfl, hs.fuses rfl, hs.ppsHigh rfl⟩
  case rstSlice =>
    intro _ s t hw ht
    have hs := State.Same.run_one (m := 0x12dbbffffedc) ht (State.regWrite_now_same (.of rfl (.refl _)) (by decide) hw (by
      rw [State.writeAt_rstSlice]
      exact State.rstSlice_same (.of rfl (.refl _)) _ _ (.refl _ s)))
    exact ⟨hs.clk rfl, hs.selRegs rfl, hs.flumeUp rfl, hs.eastq rfl, hs.hbm rfl, hs.fire rfl, hs.forester rfl,
      hs.fuses rfl, hs.ppsHigh rfl⟩
  case sliceDone =>
    intro _ s t ht
    have hs := execSliceDone_same (.refl _) ht (.refl _ s)
    exact ⟨hs.clk rfl, hs.freeCtr rfl, hs.selRegs rfl, hs.flumeUp rfl, hs.macros rfl, hs.nextFrame rfl, hs.slices rfl,
      hs.mcast rfl, hs.rings rfl, hs.inflight rfl, hs.deck rfl, hs.path rfl, hs.queues rfl, hs.deficit rfl,
      hs.qbucket rfl, hs.sched rfl, hs.wood rfl, hs.eastq rfl, hs.hitq rfl, hs.hbm rfl, hs.host rfl, hs.fire rfl,
      hs.raft rfl, hs.forester rfl, hs.fuses rfl, hs.ppsHigh rfl⟩
  case startUpWipeDone => exact fun s t ht => (execStartUpWipeDone_same (.refl _) ht (.refl _ s)).eq_graft
  case restore => exact fun _ s t ht => (execRestore_same (.refl _) ht (.refl _ s)).eq_graft
  case restored => exact fun s t ht => (execRestored_same (.refl _) ht (.refl _ s)).fuses rfl
  case flumeChannelDown => exact fun s t ht => (execFlumeChannelDown_same (.refl _) ht (.refl _ s)).eq_graft
  case flumeChannelUp => exact fun s t ht => (execFlumeChannelUp_same (.refl _) ht (.refl _ s)).eq_graft
  case blkRst =>
    intro _ _ s t hr hslow hfree ht
    refine (State.Same.run_one (m := 0x80) ht ?_).eq_graft
    exact State.regWrite_pgCtrl_same (.refl _) _ hr hslow hfree

end Sys2Proof.Machine
end

section
/-! SUPPORT AND PROOF. What the commands of Cruiser do when their conditions hold (13_cruiser_counters.md R373 to R384): requests
and STOP, the capture, the parts in HBM, the copy to the host, and the bandwidth windows. -/

namespace Sys2Proof.Machine

/-! ### A field that was replaced -/

/-- A field reads as what replaced it. -/
theorem fld_put (w : Word) {lo n : Nat} (x : Nat) (h : lo + n ≤ 32) : fld (put w lo n x) lo n = x % 2 ^ n := by
  have hfld : fld w lo n = w.toNat / 2 ^ lo % 2 ^ n := rfl
  rw [fld, put_toNat w h, hfld]
  have hlow : w.toNat = 2 ^ lo * (w.toNat / 2 ^ lo) + w.toNat % 2 ^ lo := (Nat.div_add_mod _ _).symm
  have hmid := Nat.div_add_mod (w.toNat / 2 ^ lo) (2 ^ n)
  generalize w.toNat / 2 ^ lo = a at *
  have hr : w.toNat % 2 ^ lo < 2 ^ lo := Nat.mod_lt _ (Nat.two_pow_pos lo)
  generalize w.toNat % 2 ^ lo = r at *
  have hy : x % 2 ^ n < 2 ^ n := Nat.mod_lt _ (Nat.two_pow_pos n)
  generalize x % 2 ^ n = y at *
  generalize a / 2 ^ n = b at *
  generalize a % 2 ^ n = c at *
  have hsplit : w.toNat - c * 2 ^ lo + y * 2 ^ lo = r + (b * 2 ^ n + y) * 2 ^ lo := by
    rw [hlow, ← hmid, Nat.mul_comm (2 ^ lo), Nat.add_mul, Nat.add_mul, Nat.mul_comm (2 ^ n) b]
    omega
  rw [hsplit, Nat.add_mul_div_right _ _ (Nat.two_pow_pos lo), Nat.div_eq_of_lt hr, Nat.zero_add, Nat.mul_comm b,
    Nat.mul_add_mod, Nat.mod_eq_of_lt hy]

/-- The field below one that was replaced. -/
theorem fld_put_lt (w : Word) {lo n x lo' n' : Nat} (h : lo + n ≤ 32) (hlt : lo' + n' ≤ lo) :
    fld (put w lo n x) lo' n' = fld w lo' n' :=
  fld_congr fun _ _ hi => bit_put_lt w h (by omega)

theorem bit_eq_fld (w : Word) (i : Nat) : bit w i = decide (fld w i 1 = 1) := rfl

theorem State.rf_setRf (s : State) (p o x : Nat) {lo n : Nat} (h : lo + n ≤ 32) :
    (s.setRf p o lo n x).rf p o lo n = x % 2 ^ n := by
  simp only [State.rf, State.setRf, State.reg_setReg, fld_put _ x h]

/-- A setting of another register of the page changes no 64-bit register. -/
theorem State.setRf_reg64 (s : State) {p o lo n x o' : Nat} (h : o' ≠ o) (h' : o' + 4 ≠ o) :
    (s.setRf p o lo n x).reg64 p o' = s.reg64 p o' := by
  unfold State.reg64 State.setRf
  rw [State.reg_setReg_ne _ _ (regKey_ne_off h), State.reg_setReg_ne _ _ (regKey_ne_off h')]

@[simp] theorem State.strictEnd_cruiser (s old : State) (r : Requester) : (s.strictEnd old r).cruiser = s.cruiser := by
  obtain ⟨f, hf⟩ := State.strictEnd_bus s old r
  rw [hf]

@[simp] theorem State.strictEnd_rf (s old : State) (r : Requester) (p o lo n : Nat) :
    (s.strictEnd old r).rf p o lo n = s.rf p o lo n := by
  simp [State.rf]

/-! ### Writes of CR_CTRL (R373, R377) -/

/-- The word that SNAP writes has SNAP set and STOP clear, whatever DST is. -/
theorem State.snapWord_bit (s : State) :
    bit (put 1 2 1 (s.rf pgCruiser Reg.crCtrl 2 1)) 0 = true
    ∧ bit (put 1 2 1 (s.rf pgCruiser Reg.crCtrl 2 1)) 1 = false := by
  have hx : s.rf pgCruiser Reg.crCtrl 2 1 < 2 := Nat.mod_lt _ (by decide)
  generalize s.rf pgCruiser Reg.crCtrl 2 1 = x at hx
  revert x; decide

theorem State.crCtrlWrite_snap (s : State) {v : Word} (hv : bit v 0 = true ∧ bit v 1 = false) :
    s.crCtrlWrite v = (s.setRf pgCruiser Reg.crCtrl 2 1 (fld v 2 1)).snapReq := by
  simp only [State.crCtrlWrite, hv, Bool.false_eq_true, if_false, if_true]

theorem State.regWrite_crCtrl {s : State} {r : Requester} (v : Word) (hw : s.WritesNow r pgCruiser Reg.crCtrl) :
    s.regWrite r pgCruiser Reg.crCtrl v = (s.crCtrlWrite v).strictEnd s r := by
  rw [State.regWrite_now v (by decide) hw, State.writeAt_crCtrl]

/-- SNAP, written so that it takes effect at once, with DST as it stands. -/
theorem exec_snap_now {s : State} {req : Requester} (hlive : s.live = true) (hw : s.WritesNow req pgCruiser Reg.crCtrl) :
    ∃ x, exec (.snap req) s
      = .next ((((s.setRf pgCruiser Reg.crCtrl 2 1 x).snapReq).strictEnd s req).keepQueue s) := by
  have hrun := State.run_live
    (fun s => s.regWrite req pgCruiser Reg.crCtrl (put 1 2 1 (s.rf pgCruiser Reg.crCtrl 2 1))) hlive
  rw [State.regWrite_crCtrl _ hw, State.crCtrlWrite_snap _ s.snapWord_bit] at hrun
  exact ⟨_, hrun⟩

/-- STOP, written so that it takes effect at once, with DST as it stands. -/
theorem exec_stop_now {s : State} {req : Requester} (hlive : s.live = true) (hw : s.WritesNow req pgCruiser Reg.crCtrl) :
    ∃ x, exec (.stop req) s
      = .next ((((s.setRf pgCruiser Reg.crCtrl 2 1 x).snapStop).strictEnd s req).keepQueue s) := by
  have hrun := State.run_live
    (fun s => s.regWrite req pgCruiser Reg.crCtrl (put 2 2 1 (s.rf pgCruiser Reg.crCtrl 2 1))) hlive
  rw [State.regWrite_crCtrl _ hw, State.crCtrlWrite_stop _ s.stopWord_bit] at hrun
  exact ⟨_, hrun⟩

/-- A request for an idle Cruiser, 2 us ahead or more, arms the capture (R373). -/
theorem State.snapReq_arms {s : State} (hidle : s.cruiser.st = .idle)
    (hahead : s.now + 2000 ≤ nsOfTs (s.reg64 pgCruiser Reg.crSnapT)) :
    s.snapReq.cruiser.st = .armed ∧ s.snapReq.cruiser.next = some (nsOfTs (s.reg64 pgCruiser Reg.crSnapT)) := by
  rw [State.snapReq, if_neg (by simp [hidle]), if_neg (Nat.not_lt.2 hahead)]
  exact ⟨rfl, rfl⟩

/-- A request while a snapshot is under way is refused with BUSY (R373). -/
theorem State.snapReq_busy {s : State} (hbusy : s.cruiser.st ≠ .idle) :
    s.snapReq.cruiser.rej = snapBusy ∧ s.snapReq.rbit pgCruiser 0x10 evReject = true := by
  rw [State.snapReq, if_pos hbusy, State.snapReject]
  exact ⟨by simp [State.setCruiser], State.raise_evt _ _ (by decide)⟩

/-- STOP cancels a capture that is armed (R377). -/
theorem State.snapStop_armed {s : State} (harmed : s.cruiser.st = .armed) :
    s.snapStop.cruiser.st = .idle ∧ s.snapStop.cruiser.next = none := by
  rw [State.snapStop, if_pos (.inr harmed)]
  exact ⟨rfl, rfl⟩

/-! ### The capture and the parts in HBM (R374, R378) -/

/-- At its time the capture takes every island under the next number (R374). -/
theorem State.capture_now {s : State} {u : Nat} (harmed : s.cruiser.st = .armed) (hnext : s.cruiser.next = some u)
    (hdue : u ≤ s.now) (hfree : (s.cruiser.auto && s.deferred) = false) :
    s.capture.cruiser = { s.cruiser with
      st := .capturing, next := nextCapture u s.cruiser.period, t := u, famRun := s.cruiser.fam
      n := ((s.reg pgCruiser Reg.crSeq).toNat + 1) % 2 ^ 32, wasStepped := s.cruiser.stepped, stepped := false, auto := true
      west := s.capturePart 0 s.cruiser.fam, east := s.capturePart 1 s.cruiser.fam } := by
  simp only [State.capture, hnext, if_neg (Nat.not_lt.2 hdue), if_pos (And.intro harmed hfree)]
  rfl

/-- The end of a snapshot reports DONE and leaves its number in CR_SEQ (R377, R381). -/
theorem State.snapEnd_done (s : State) :
    s.snapEnd.rbit pgCruiser 0x10 evSnapDone = true
    ∧ s.snapEnd.reg pgCruiser Reg.crSeq = BitVec.ofNat 32 s.cruiser.n := by
  refine ⟨State.raise_evt _ _ (by decide), ?_⟩
  rw [State.snapEnd, State.raise_reg _ _ _ (by decide) (by decide) (by decide),
    State.count_reg_ne _ (regKey_ne_off (by decide)), State.setCruiser_reg, State.reg_setReg]

/-- The end of a snapshot sends nothing. -/
@[simp] theorem State.snapEnd_out (s : State) : s.snapEnd.out = s.out := by
  simp [State.snapEnd]

/-- The part of a half that has been captured may be written: its stack has room, and neither retrains, nor starts while there is
something to write, nor is too hot (R378, R382, 15_firebreak_power.md R415). -/
structure State.PartReady (s : State) (h : Nat) (x : SnapPart) : Prop where
  capturing : s.cruiser.st = .capturing
  open_ : x.doneAt = none
  cool : AMap.get false s.fire.hbmHot h = false
  trained : (s.hbmOf h).st ≠ .retrain
  up : (s.hbmOf h).st = .init → x.absent = true

theorem State.PartReady.goes {s : State} {h : Nat} {x : SnapPart} (hready : s.PartReady h x) :
    ¬ (s.cruiser.st ≠ .capturing ∨ x.doneAt.isSome ∨ (AMap.get false s.fire.hbmHot h && !s.fixedMode) = true) := by
  simp [hready.capturing, hready.open_, hready.cool]

theorem State.PartReady.writes {s : State} {h : Nat} {x : SnapPart} (hready : s.PartReady h x) :
    ¬ ((s.hbmOf h).st = .retrain ∨ ((s.hbmOf h).st = .init ∧ x.absent = false)) := by
  rintro (hretrain | ⟨hinit, habsent⟩)
  · exact hready.trained hretrain
  · exact absurd (hready.up hinit) (by simp [habsent])

/-- What a half's part leaves when it is written: the words in HBM, and its time (R378). -/
def State.partStored (s : State) (h : Nat) (x : SnapPart) (c : CruiserS) : State :=
  (if (s.hbmOf h).st ≠ .failed then
    s.hbmWords h (2 ^ 28 + 2 ^ 25 * (c.n % 8)) (c.header x h ++ denseWords x.words 16 (x.len / 4 - 16))
   else s).setCruiser c

@[simp] theorem State.partStored_cruiser (s : State) (h : Nat) (x : SnapPart) (c : CruiserS) :
    (s.partStored h x c).cruiser = c := rfl

@[simp] theorem State.partStored_reg (s : State) (h : Nat) (x : SnapPart) (c : CruiserS) (p o : Nat) :
    (s.partStored h x c).reg p o = s.reg p o := by
  have hs : State.Same 0x1000000040 s (s.partStored h x c) := by
    refine State.setCruiser_same (.of rfl (.refl _)) _ _ (.ite (State.hbmWords_same (.of rfl (.refl _)) _ _ _ _ ?_) ?_)
    all_goals exact .refl _ s
  rw [State.reg, State.reg, hs.regs rfl]

/-- The East part, the last of the two, in HBM: the snapshot ends when it goes nowhere else (R378, R381). -/
theorem State.partDone_last {s : State} (hready : s.PartReady 1 s.cruiser.east) (hwest : s.cruiser.west.doneAt ≠ none)
    (hhere : s.rbit pgCruiser Reg.crCtrl 2 = false) :
    s.partDone 1 = (s.partStored 1 { s.cruiser.east with doneAt := some s.now }
      { s.cruiser with east := { s.cruiser.east with doneAt := some s.now } }).snapEnd := by
  have hboth : s.cruiser.west.doneAt.isSome = true := Option.isSome_iff_ne_none.2 hwest
  have hstay : (s.partStored 1 { s.cruiser.east with doneAt := some s.now }
      { s.cruiser with east := { s.cruiser.east with doneAt := some s.now } }).rbit pgCruiser Reg.crCtrl 2 = false := by
    rwa [State.rbit, State.partStored_reg]
  simp only [State.partDone, if_neg one_ne_zero, if_neg hready.goes, if_neg hready.writes, hboth,
    Option.isSome_some, and_self, if_true]
  exact if_neg (by rw [← Bool.not_eq_true] at hstay; exact hstay)

/-- The West part in HBM while the East part waits (R378). -/
theorem State.partDone_first {s : State} (hready : s.PartReady 0 s.cruiser.west) (heast : s.cruiser.east.doneAt = none) :
    s.partDone 0 = s.partStored 0 { s.cruiser.west with doneAt := some s.now }
      { s.cruiser with west := { s.cruiser.west with doneAt := some s.now } } := by
  simp only [State.partDone, if_true, if_neg hready.goes, if_neg hready.writes, heast,
    Option.isSome_none, Bool.false_eq_true, and_false, if_false]
  rfl

theorem exec_snapshotPartDone_live {s : State} (h : Half) (hlive : s.live = true) :
    exec (.snapshotPartDone h) s = .next ((s.partDone h.val).keepQueue s) :=
  State.run_live (·.partDone h.val) hlive

/-! ### The copy to the host (R381) -/

theorem State.snapNotice_out (s : State) (ws : List Word) : s.out <+: (s.snapNotice ws).out := by
  unfold State.snapNotice
  split
  · next h => exact State.putNotice_out h
  · exact List.prefix_rfl

/-- The copy of a snapshot that its region holds: both parts, the notice, and the end (R381). -/
theorem State.transferDone_fits {s : State} (hst : s.cruiser.st = .transfer) (hdma : s.dmaOk = true)
    (hfits : (s.cruiser.west.len + 4095) / 4096 * 4096 + s.cruiser.east.len ≤ (s.reg pgCruiser Reg.crHostLen).toNat) :
    ∃ b ws, s.transferDone = (((s.emit (.hostWrite (s.reg64 pgCruiser Reg.crHostAddr
        + s.cruiser.n % orElse0 (s.rf pgCruiser Reg.crHostCfg 0 4) 1 * (s.reg pgCruiser Reg.crHostLen).toNat)
          (s.cruiser.bytes s.cruiser.west 0) true)).emit b).snapNotice ws).snapEnd := by
  simp only [State.transferDone, hst, ne_eq, not_true_eq_false, if_false, hdma, Bool.true_eq_false,
    if_neg (Nat.not_lt.2 hfits)]
  exact ⟨_, _, rfl⟩

/-! ### Bandwidth windows (R384) -/

/-- A window that PTP time has left ends, and each port's bytes roll into it (R384). -/
theorem State.bwEnd_rolls {s : State} (hon : s.cruiser.bwOn = true) (hleft : s.now / s.bwWindow * s.bwWindow ≠ s.cruiser.bwAt) :
    s.bwEnd = s.setCruiser { s.cruiser with
      bw := bwMap (·.roll s.cruiser.bwAt) s.cruiser.bw, bwAt := s.now / s.bwWindow * s.bwWindow } := by
  simp only [State.bwEnd, hon, if_true, if_neg hleft]

theorem State.regWrite_crBwCtrl {s : State} {r : Requester} (v : Word) (hw : s.WritesNow r pgCruiser Reg.crBwCtrl) :
    s.regWrite r pgCruiser Reg.crBwCtrl v = (s.crBwWrite v).strictEnd s r := by
  rw [State.regWrite_now v (by decide) hw, State.writeAt_crBwCtrl]

/-- PK_CLR with WIN as it stands is no write of WIN. -/
theorem State.crBwWrite_pkClr (s : State) : s.crBwWrite (put (s.reg pgCruiser Reg.crBwCtrl) 8 1 1) = s.pkClr := by
  have hclr : bit (put (s.reg pgCruiser Reg.crBwCtrl) 8 1 1) 8 = true := by
    rw [bit_eq_fld, fld_put _ 1 (by decide)]
    rfl
  have hwin : fld (put (s.reg pgCruiser Reg.crBwCtrl) 8 1 1) 0 3 = s.rf pgCruiser Reg.crBwCtrl 0 3 :=
    fld_put_lt _ (by decide) (by decide)
  rw [State.crBwWrite, if_pos ⟨hclr, hwin⟩]

/-- WIN written alone. -/
theorem State.crBwWrite_win (s : State) (k : Fin 8) : s.crBwWrite (BitVec.ofNat 32 k.val) = s.winWrite k.val := by
  have hclr : bit (BitVec.ofNat 32 k.val) 8 = false := by revert k; decide
  have hk : fld (BitVec.ofNat 32 k.val) 0 3 = k.val := fld_ofNat (by decide) k.isLt
  rw [State.crBwWrite, if_neg (by simp [hclr]), hk]

/-- A write of WIN leaves it in CR_BW_CTRL, and counting waits for the next boundary (R384). -/
theorem State.winWrite_win (s : State) (k : Fin 8) :
    (s.winWrite k.val).rf pgCruiser Reg.crBwCtrl 0 3 = k.val ∧ (s.winWrite k.val).cruiser.bwOn = false := by
  refine ⟨?_, rfl⟩
  have hset := State.rf_setRf s pgCruiser Reg.crBwCtrl k.val (lo := 0) (n := 3) (by decide)
  exact hset.trans (Nat.mod_eq_of_lt k.isLt)

/-- PK_CLR, written so that it takes effect at once. -/
theorem exec_pkClr_now {s : State} {req : Requester} (hlive : s.live = true) (hw : s.WritesNow req pgCruiser Reg.crBwCtrl) :
    exec (.pkClr req) s = .next ((s.pkClr.strictEnd s req).keepQueue s) := by
  rw [← State.crBwWrite_pkClr, ← State.regWrite_crBwCtrl _ hw]
  exact State.run_live
    (fun s => s.regWrite req pgCruiser Reg.crBwCtrl (put (s.reg pgCruiser Reg.crBwCtrl) 8 1 1)) hlive

/-- WIN, written so that it takes effect at once. -/
theorem exec_winLengthWrite_now {s : State} {req : Requester} (k : Fin 8) (hlive : s.live = true)
    (hw : s.WritesNow req pgCruiser Reg.crBwCtrl) :
    exec (.winLengthWrite req k) s = .next (((s.winWrite k.val).strictEnd s req).keepQueue s) := by
  rw [← State.crBwWrite_win, ← State.regWrite_crBwCtrl _ hw]
  exact State.run_live (fun s => s.regWrite req pgCruiser Reg.crBwCtrl (BitVec.ofNat 32 k.val)) hlive

/-! ### The obligation -/

/-- Settles O54, from what each command of Cruiser does where its condition holds. -/
theorem cruiserCommandsComplete : Obligations.CruiserCommandsComplete := by
  unfold Obligations.CruiserCommandsComplete
  intro s hlive
  refine ⟨?snap, ?busy, ?stop, ?capture, ?last, ?first, ?transfer, ?window, ?pkClr, ?win⟩
  case snap =>
    intro req hw hidle hahead
    obtain ⟨x, hx⟩ := exec_snap_now hlive hw
    have htime : (s.setRf pgCruiser Reg.crCtrl 2 1 x).reg64 pgCruiser Reg.crSnapT = s.reg64 pgCruiser Reg.crSnapT :=
      s.setRf_reg64 (by decide) (by decide)
    obtain ⟨hst, hnext⟩ := State.snapReq_arms (s := s.setRf pgCruiser Reg.crCtrl 2 1 x) hidle (by rw [htime]; exact hahead)
    exact ⟨_, hx, by simp [hst], by simp [hnext, htime]⟩
  case busy =>
    intro req hw hbusy
    obtain ⟨x, hx⟩ := exec_snap_now hlive hw
    obtain ⟨hrej, hevt⟩ := State.snapReq_busy (s := s.setRf pgCruiser Reg.crCtrl 2 1 x) hbusy
    exact ⟨_, hx, by simp [hrej], by simp [hevt]⟩
  case stop =>
    intro req hw harmed
    obtain ⟨x, hx⟩ := exec_stop_now hlive hw
    obtain ⟨hst, hnext⟩ := State.snapStop_armed (s := s.setRf pgCruiser Reg.crCtrl 2 1 x) harmed
    exact ⟨_, hx, by simp [hst], by simp [hnext]⟩
  case capture =>
    intro u harmed hnext hdue hfree
    have hc := State.capture_now harmed hnext hdue hfree
    refine ⟨_, State.run_live _ hlive, ?_, ?_, ?_, ?_, ?_⟩
    all_goals rw [State.keepQueue_cruiser, hc]
  case last =>
    intro hst hwest hopen hcool htrained hup hhere
    have hend := State.partDone_last ⟨hst, hopen, hcool, htrained, hup⟩ hwest hhere
    refine ⟨_, exec_snapshotPartDone_live 1 hlive, ?_⟩
    rw [State.keepQueue_rbit, State.keepQueue_reg]
    show (s.partDone 1).rbit _ _ _ = true ∧ (s.partDone 1).reg _ _ = _
    rw [hend]
    exact State.snapEnd_done _
  case first =>
    intro hst hopen heast hcool htrained hup
    have hend := State.partDone_first ⟨hst, hopen, hcool, htrained, hup⟩ heast
    refine ⟨_, exec_snapshotPartDone_live 0 hlive, ?_⟩
    rw [State.keepQueue_cruiser]
    show (s.partDone 0).cruiser.west.doneAt = _ ∧ (s.partDone 0).cruiser.st = _
    rw [hend]
    exact ⟨rfl, hst⟩
  case transfer =>
    intro hst hdma hfits
    obtain ⟨b, ws, hend⟩ := State.transferDone_fits hst hdma hfits
    refine ⟨_, State.run_live _ hlive, ?_⟩
    rw [State.keepQueue_rbit, State.keepQueue_out, hend, State.snapEnd_out]
    refine ⟨(State.snapEnd_done _).1, (State.snapNotice_out _ ws).subset ?_⟩
    simp [State.emit]
  case window =>
    intro hon hleft
    refine ⟨_, State.run_live _ hlive, ?_⟩
    rw [State.keepQueue_cruiser, State.bwEnd_rolls hon hleft]
    exact ⟨rfl, rfl⟩
  case pkClr =>
    intro req hw
    exact ⟨_, exec_pkClr_now hlive hw, by simp [State.pkClr, State.setCruiser]⟩
  case win =>
    intro req k hw
    obtain ⟨hwin, hoff⟩ := s.winWrite_win k
    exact ⟨_, exec_winLengthWrite_now k hlive hw, by simp [hwin], by simp [hoff]⟩

end Sys2Proof.Machine
end

section
/-! SUPPORT. What a report to Lookout changes of it: its queues, and which level lines have risen without a message
(14_lookout_faults.md R386, R396). -/

namespace Sys2Proof.Machine

/-- The lookout b differs from a in its queues of messages and in the rises that no message tells. -/
structure LookoutS.SendsOnly (a b : LookoutS) : Prop where
  level : b.level = a.level
  active : b.active = a.active
  latched : b.latched = a.latched
  recs : b.recs = a.recs
  entry : b.entry = a.entry
  log : b.log = a.log
  logN : b.logN = a.logN
  traps : b.traps = a.traps
  faultLow : b.faultLow = a.faultLow
  pulseEnd : b.pulseEnd = a.pulseEnd
  relPend : b.relPend = a.relPend
  fatal : b.fatal = a.fatal
  chipAt : b.chipAt = a.chipAt
  owed : b.owed = a.owed
  fatalAt : b.fatalAt = a.fatalAt
  chipRst : b.chipRst = a.chipRst
  dipAt : b.dipAt = a.dipAt
  nextNum : b.nextNum = a.nextNum

theorem LookoutS.SendsOnly.refl (a : LookoutS) : a.SendsOnly a :=
  ⟨rfl, rfl, rfl, rfl, rfl, rfl, rfl, rfl, rfl, rfl, rfl, rfl, rfl, rfl, rfl, rfl, rfl, rfl⟩

theorem LookoutS.SendsOnly.trans {a b c : LookoutS} (h : a.SendsOnly b) (h' : b.SendsOnly c) : a.SendsOnly c where
  level := h'.level.trans h.level
  active := h'.active.trans h.active
  latched := h'.latched.trans h.latched
  recs := h'.recs.trans h.recs
  entry := h'.entry.trans h.entry
  log := h'.log.trans h.log
  logN := h'.logN.trans h.logN
  traps := h'.traps.trans h.traps
  faultLow := h'.faultLow.trans h.faultLow
  pulseEnd := h'.pulseEnd.trans h.pulseEnd
  relPend := h'.relPend.trans h.relPend
  fatal := h'.fatal.trans h.fatal
  chipAt := h'.chipAt.trans h.chipAt
  owed := h'.owed.trans h.owed
  fatalAt := h'.fatalAt.trans h.fatalAt
  chipRst := h'.chipRst.trans h.chipRst
  dipAt := h'.dipAt.trans h.dipAt
  nextNum := h'.nextNum.trans h.nextNum

theorem LookoutS.setQ_sends (a : LookoutS) (k : MsgQueue) (l : List Message) : a.SendsOnly (a.setQ k l) := by
  cases k <;> exact ⟨rfl, rfl, rfl, rfl, rfl, rfl, rfl, rfl, rfl, rfl, rfl, rfl, rfl, rfl, rfl, rfl, rfl, rfl⟩

theorem State.missRise_sends (s : State) (n : Nat) : s.lookout.SendsOnly (s.missRise n).lookout :=
  ⟨rfl, rfl, rfl, rfl, rfl, rfl, rfl, rfl, rfl, rfl, rfl, rfl, rfl, rfl, rfl, rfl, rfl, rfl⟩

theorem State.enqueueMsg_sends {s t : State} {m : Message} (h : s.enqueueMsg m = some t) : s.lookout.SendsOnly t.lookout := by
  unfold State.enqueueMsg at h
  dsimp only at h
  split at h
  · split at h
    · cases h
      exact ⟨rfl, rfl, rfl, rfl, rfl, rfl, rfl, rfl, rfl, rfl, rfl, rfl, rfl, rfl, rfl, rfl, rfl, rfl⟩
    · cases h
  · split at h
    · cases h
      exact LookoutS.setQ_sends _ _ _
    · cases h

theorem State.msgLost_sends (s : State) : s.lookout.SendsOnly s.msgLost.lookout := by
  unfold State.msgLost
  extract_lets u old v
  have hv : v.lookout = s.lookout := rfl
  split
  · exact .refl _
  · split
    · split
      · next h => exact hv ▸ State.enqueueMsg_sends h
      · rw [State.count_lookout]
        split
        · exact hv ▸ v.missRise_sends _
        · exact .refl _
    · exact .refl _

theorem State.sendOn_sends (s : State) (m : Message) (rose : Bool) : s.lookout.SendsOnly (s.sendOn m rose).lookout := by
  unfold State.sendOn
  split
  · next h => exact State.enqueueMsg_sends h
  · cases rose
    · exact s.msgLost_sends
    · exact (s.missRise_sends _).trans (State.msgLost_sends _)

theorem State.sendRises_sends (s : State) (p : Nat) (old info : Word) (l : List Nat) :
    s.lookout.SendsOnly (s.sendRises p old info l).lookout := by
  induction l generalizing s with
  | nil => exact .refl _
  | cons i is ih =>
    unfold State.sendRises
    split
    · exact (s.sendOn_sends _ _).trans (ih _)
    · exact ih s

theorem State.raise_sends (s : State) (p i : Nat) : s.lookout.SendsOnly (s.raise p i).lookout := by
  unfold State.raise State.raiseAll
  exact State.sendRises_sends (s.setReg p 0x10 _) _ _ _ _

theorem State.raiseIf_sends (s : State) (b : Bool) (p i : Nat) : s.lookout.SendsOnly (s.raiseIf b p i).lookout := by
  cases b
  · exact .refl _
  · exact s.raise_sends p i

end Sys2Proof.Machine
end

section
/-! SUPPORT AND PROOF. What the commands of Lookout do when their conditions hold (14_lookout_faults.md R389 to R400): messages,
levels, clears, FAULT_N, traps and the fatal summary. -/

namespace Sys2Proof.Machine

/-! ### What a latch's reactions leave (R391) -/

/-- The lookout b has the latches, the activity and the records of a. -/
structure LookoutS.LatchesKept (a b : LookoutS) : Prop where
  active : b.active = a.active
  latched : b.latched = a.latched
  recs : b.recs = a.recs

theorem LookoutS.LatchesKept.refl (a : LookoutS) : a.LatchesKept a := ⟨rfl, rfl, rfl⟩

theorem LookoutS.LatchesKept.trans {a b c : LookoutS} (h : a.LatchesKept b) (h' : b.LatchesKept c) : a.LatchesKept c :=
  ⟨h'.active.trans h.active, h'.latched.trans h.latched, h'.recs.trans h.recs⟩

theorem LookoutS.LatchesKept.of_eq {a b : LookoutS} (h : b = a) : a.LatchesKept b := h ▸ .refl a

theorem LookoutS.SendsOnly.latches {a b : LookoutS} (h : a.SendsOnly b) : a.LatchesKept b := ⟨h.active, h.latched, h.recs⟩

theorem State.msix_lookout (s : State) (v : Nat) : (s.msix v).lookout = s.lookout :=
  (State.msix_same (fs := 0x800000008) (.refl _) s v (.refl _ s)).lookout rfl

theorem State.trap_latches (s : State) (m : Message) : s.lookout.LatchesKept (s.trap m).lookout := by
  unfold State.trap
  split
  · exact ⟨rfl, rfl, rfl⟩
  · exact ((s.count pgLookout Reg.loTrapLost 1).raise_sends pgLookout evTrapLost).latches

theorem State.pinLatch_latches (s : State) : s.lookout.LatchesKept s.pinLatch.lookout := by
  unfold State.pinLatch
  extract_lets lo s1 s2
  have hs2 : s.lookout.LatchesKept s2.lookout := ⟨rfl, rfl, rfl⟩
  exact hs2.trans ((s2.count pgLookout Reg.loPins 1).raise_sends pgLookout evPinOn).latches

theorem State.askFatal_latches (s : State) (cause : Nat) (m : Message) :
    s.lookout.LatchesKept (s.askFatal cause m).lookout := by
  unfold State.askFatal
  split <;> exact ⟨rfl, rfl, rfl⟩

theorem State.askChip_latches (s : State) (m : Message) : s.lookout.LatchesKept (s.askChip m).lookout :=
  (s.askFatal_latches 1 m).trans ⟨rfl, rfl, rfl⟩

theorem State.askSevere_latches (s : State) (m : Message) : s.lookout.LatchesKept (s.askSevere m).lookout := by
  unfold State.askSevere
  extract_lets due
  split
  · exact (s.askFatal_latches 2 m).trans ⟨rfl, rfl, rfl⟩
  · exact .refl _

/-- A source without BLK_RST takes no block reset (R391). -/
theorem State.reactsWith_noBlock {s : State} {n : Nat} (h : s.reactions n / 4 % 2 = 0) : s.reactsWith n = s.reactions n := by
  rw [State.reactsWith, if_neg (by omega)]

/-- The reactions of a source that takes no block reset leave every latch, its activity and its record. -/
theorem State.react_latches {s : State} {m : Message} (h : s.reactions m.src / 4 % 2 = 0) :
    s.lookout.LatchesKept (s.react m).lookout := by
  unfold State.react
  extract_lets r on s1 s2 s3 s4 s5
  have hblock : on 2 = false := by
    simp only [on, r, State.reactsWith_noBlock h]
    exact decide_eq_false (by omega)
  have h1 : s.lookout.LatchesKept s1.lookout := by
    simp only [s1]
    split
    · exact .of_eq (s.msix_lookout _)
    · exact .refl _
  have h2 : s1.lookout.LatchesKept s2.lookout := by
    simp only [s2]
    split
    · exact s1.trap_latches m
    · exact .refl _
  have h3 : s2.lookout.LatchesKept s3.lookout := by
    simp only [s3]
    split
    · exact s2.pinLatch_latches
    · exact .refl _
  have h4 : s3.lookout.LatchesKept s4.lookout := by
    simp only [s4]
    split
    · exact s3.askChip_latches m
    · exact .refl _
  have h5 : s4.lookout.LatchesKept s5.lookout := by
    simp only [s5]
    split
    · exact s4.askSevere_latches m
    · exact .refl _
  have hall := (((h1.trans h2).trans h3).trans h4).trans h5
  split
  · rw [hblock]
    exact hall
  · exact hall

/-- A source with no reaction enabled, whose SEV is not FATAL, does nothing but latch (R391). -/
theorem State.react_none {s : State} {m : Message} (h : s.reactions m.src = 0) (hsev : fld (s.loSrc m.src) 5 2 ≠ 3) :
    s.react m = s := by
  have hr : s.reactsWith m.src = 0 := by rw [State.reactsWith_noBlock (by omega), h]
  have hoff : ∀ i, decide (0 / 2 ^ i % 2 = 1) = false := by
    intro i
    rw [Nat.zero_div]
    rfl
  simp only [State.react, hr, hoff, Bool.false_eq_true, if_false, if_neg hsev]
  split <;> rfl

/-! ### A message taken (R389) -/

/-- The lookout after a message of source n with nothing logged yet: ACTIVE follows the message, and a rise or pulse latches. -/
structure LookoutS.Takes (lo : LookoutS) (m : Message) (q : MsgQueue) (ms : List Message) (lo' : LookoutS) : Prop where
  active : lo'.active = AMap.set false lo.active m.src
    (match m.typ with | .rise => true | .fall => false | .pulse => AMap.get false lo.active m.src)
  latched : lo'.latched = AMap.set false lo.latched m.src (AMap.get false lo.latched m.src || decide (m.typ ≠ .fall))
  recs : m.typ ≠ .fall → AMap.get false lo.latched m.src = false → lo'.recs = AMap.set noRecord lo.recs m.src m
  rest : lo'.q q = ms

theorem State.logMsg_lookout (s : State) (m : Message) (first : Bool) (react : Nat) :
    (s.logMsg m first react).lookout = { s.lookout with
      logN := s.lookout.logN + 1
      log := AMap.set {} s.lookout.log ((s.lookout.logN + 1) % 1024)
        { num := s.lookout.logN + 1, msg := m, sev := fld (s.loSrc m.src) 5 2, first := first, react := react } } :=
  (State.longSync_same (fs := 0x10000000000) (.refl _) _ (.refl _ _)).lookout rfl

theorem State.logMsg_regs (s : State) (m : Message) (first : Bool) (react : Nat) : (s.logMsg m first react).regs = s.regs :=
  (State.longSync_same (fs := 0x10000000000) (.refl _) _ (.refl _ _)).regs rfl

/-- Lookout takes a message: the latches stand before it reacts, and LO_SRC of the source is as it was. -/
theorem State.takeMsg_takes (s : State) (m : Message) (q : MsgQueue) :
    ∃ u : State, s.lookout.Takes m q (s.lookout.q q) u.lookout ∧ u.loSrc m.src = s.loSrc m.src
      ∧ s.takeMsg m = if m.typ ≠ .fall ∧ s.srcLatched m.src = false then u.react m else u := by
  unfold State.takeMsg
  extract_lets n lo was latch fell act lo1 lo2 logs lo3 lo4 s1 s2
  have hlatch : latch = true ↔ m.typ ≠ .fall ∧ s.srcLatched m.src = false := by
    simp only [latch, was, n, Bool.and_eq_true, Bool.not_eq_true', decide_eq_true_eq]
    exact and_comm
  have hor : (was || latch) = (AMap.get false s.lookout.latched m.src || decide (m.typ ≠ .fall)) := by
    simp only [latch, was, n, State.srcLatched]
    cases AMap.get false s.lookout.latched m.src <;> rfl
  have h2 : lo1.LatchesKept { lo2 with recs := lo1.recs } ∧ lo2.q q = s.lookout.q q
      ∧ (latch = true → lo2.recs = AMap.set noRecord s.lookout.recs m.src m) := by
    cases hl : latch
    · exact ⟨⟨by simp [lo2, hl], by simp [lo2, hl], rfl⟩, by simp only [lo2, hl]; cases q <;> rfl, nofun⟩
    · exact ⟨⟨by simp [lo2, hl], by simp [lo2, hl], rfl⟩, by simp only [lo2, hl]; cases q <;> rfl,
        fun _ => by simp only [lo2, hl, if_true]; rfl⟩
  have h3 : lo2.LatchesKept lo3 ∧ lo3.q q = lo2.q q := by
    simp only [lo3]
    split
    · exact ⟨⟨rfl, rfl, rfl⟩, by cases q <;> rfl⟩
    · exact ⟨.refl _, rfl⟩
  have h4 : lo3.LatchesKept lo4 ∧ lo4.q q = lo3.q q := by
    simp only [lo4]
    split
    · exact ⟨⟨rfl, rfl, rfl⟩, by cases q <;> rfl⟩
    · exact ⟨.refl _, rfl⟩
  have hs2 : lo4.LatchesKept s2.lookout ∧ s2.lookout.q q = lo4.q q ∧ s2.loSrc m.src = s.loSrc m.src := by
    have hs1 : s1.loSrc m.src = s.loSrc m.src :=
      State.count_reg_ne _ (regKey_ne_off (by simp only [n, Reg.loSrc, Reg.loCnt]; omega))
    simp only [s2]
    split
    · rw [State.loSrc, State.reg, State.logMsg_regs, State.logMsg_lookout]
      exact ⟨⟨rfl, rfl, rfl⟩, by cases q <;> rfl, hs1⟩
    · exact ⟨⟨rfl, rfl, rfl⟩, rfl, hs1⟩
  obtain ⟨hk2, hq2, hrecs⟩ := h2
  obtain ⟨hk3, hq3⟩ := h3
  obtain ⟨hk4, hq4⟩ := h4
  obtain ⟨hku, hqu, hsrc⟩ := hs2
  refine ⟨s2, ⟨?_, ?_, ?_, ?_⟩, hsrc, ?_⟩
  · rw [hku.active, hk4.active, hk3.active]
    exact hk2.active
  · rw [hku.latched, hk4.latched, hk3.latched, ← hor]
    exact hk2.latched
  · intro hrise hnew
    rw [hku.recs, hk4.recs, hk3.recs]
    exact hrecs (hlatch.2 ⟨hrise, hnew⟩)
  · rw [hqu, hq4, hq3, hq2]
  · exact if_congr hlatch rfl rfl

theorem LookoutS.setQ_same (lo : LookoutS) (q : MsgQueue) (ms : List Message) : (lo.setQ q ms).q q = ms := by
  cases q <;> rfl

/-- Lookout takes the message at the front of a queue. -/
theorem State.takeNext_takes {s : State} {q : MsgQueue} {m : Message} {ms : List Message} (hq : s.lookout.q q = m :: ms) :
    ∃ u : State, s.lookout.Takes m q ms u.lookout ∧ u.loSrc m.src = s.loSrc m.src
      ∧ s.takeNext q = if m.typ ≠ .fall ∧ s.srcLatched m.src = false then u.react m else u := by
  have hset : s.lookout.LatchesKept (s.lookout.setQ q ms) := (s.lookout.setQ_sends q ms).latches
  obtain ⟨u, hu, hsrc, htake⟩ := (s.setLook (s.lookout.setQ q ms)).takeMsg_takes m q
  have hnext : s.takeNext q = (s.setLook (s.lookout.setQ q ms)).takeMsg m := by rw [State.takeNext, hq]
  have hlatched : (s.setLook (s.lookout.setQ q ms)).srcLatched m.src = s.srcLatched m.src := by
    rw [State.srcLatched, State.srcLatched, ← hset.latched]
    rfl
  rw [hlatched] at htake
  obtain ⟨hact, hlat, hrecs, hrest⟩ := hu
  simp only [State.setLook, hset.active, hset.latched, hset.recs, LookoutS.setQ_same] at hact hlat hrecs hrest
  exact ⟨u, ⟨hact, hlat, hrecs, hrest⟩, hsrc, hnext.trans htake⟩

theorem State.reactions_of_loSrc {s t : State} {n : Nat} (h : t.loSrc n = s.loSrc n) : t.reactions n = s.reactions n := by
  rw [State.reactions, State.reactions, h]

/-- A message of a new rise or pulse latches its source with its record, and nothing else leaves the queue (R389, R391). -/
theorem State.takeNext_latches {s : State} {q : MsgQueue} {m : Message} {ms : List Message} (hq : s.lookout.q q = m :: ms)
    (hrise : m.typ ≠ .fall) (hnew : s.srcLatched m.src = false) (hblock : s.reactions m.src / 4 % 2 = 0) :
    (s.takeNext q).srcLatched m.src = true ∧ AMap.get noRecord (s.takeNext q).lookout.recs m.src = m
      ∧ (s.reactions m.src = 0 → fld (s.loSrc m.src) 5 2 ≠ 3 → (s.takeNext q).lookout.q q = ms) := by
  obtain ⟨u, hu, hsrc, htake⟩ := State.takeNext_takes hq
  rw [if_pos ⟨hrise, hnew⟩] at htake
  rw [← State.reactions_of_loSrc hsrc] at hblock
  have hkept := State.react_latches hblock
  refine ⟨?_, ?_, fun hnone hsev => ?_⟩
  · rw [htake, State.srcLatched, hkept.latched, hu.latched, AMap.get_set_same]
    simp [hrise]
  · rw [htake, hkept.recs, hu.recs hrise hnew, AMap.get_set_same]
  · rw [htake, State.react_none ((State.reactions_of_loSrc hsrc).trans hnone) (by rwa [hsrc])]
    exact hu.rest

/-- A fall ends ACTIVE and leaves LATCHED (R389). -/
theorem State.takeNext_fall {s : State} {q : MsgQueue} {m : Message} {ms : List Message} (hq : s.lookout.q q = m :: ms)
    (hfall : m.typ = .fall) :
    (s.takeNext q).srcActive m.src = false ∧ (s.takeNext q).srcLatched m.src = s.srcLatched m.src
      ∧ (s.takeNext q).lookout.q q = ms := by
  obtain ⟨u, hu, _, htake⟩ := State.takeNext_takes hq
  rw [if_neg (fun h => h.1 hfall)] at htake
  rw [htake]
  refine ⟨?_, ?_, hu.rest⟩
  · rw [State.srcActive, hu.active, AMap.get_set_same, hfall]
  · rw [State.srcLatched, hu.latched, AMap.get_set_same]
    simp [hfall, State.srcLatched]

/-- LOOKOUT_MESSAGE without a report of the outside takes the message at the front. -/
theorem exec_lookoutMessage_live {s : State} (q : MsgQueue) (hlive : s.live = true) (hup : s.blockUp pgLookout = true) :
    exec (.lookoutMessage q none) s = .next ((s.takeNext q).keepQueue s) := by
  have hrun := State.run_live (fun s => s.onlyIf (s.blockUp pgLookout) (·.takeNext q)) hlive
  simp only [State.onlyIf, hup, if_true] at hrun
  exact hrun

/-! ### A level without a message (R396) -/

/-- A rise that no message told makes its source active and latches it. -/
theorem State.levelRise_latches {s : State} {n : Nat} (hmiss : AMap.get false s.lookout.missed n = true)
    (hseen : s.lineSeen n = true) (hblock : s.reactions n / 4 % 2 = 0) :
    (s.levelRise n).srcActive n = true ∧ (s.levelRise n).srcLatched n = true := by
  unfold State.levelRise
  rw [hmiss, hseen, Bool.and_self, if_pos rfl]
  extract_lets lo0 s1 m lo latch lo1 lo2 s2
  have hkept : lo1.LatchesKept { lo2 with recs := lo1.recs } := by
    simp only [lo2]
    split <;> exact ⟨rfl, rfl, rfl⟩
  have hact : AMap.get false s2.lookout.active n = true :=
    (congrArg (AMap.get false · n) hkept.active).trans (AMap.get_set_same false lo.active n true)
  have hlat : AMap.get false s2.lookout.latched n = true :=
    (congrArg (AMap.get false · n) hkept.latched).trans (AMap.get_set_same false lo.latched n true)
  split
  · have hr : s2.lookout.LatchesKept (s2.react m).lookout := State.react_latches hblock
    rw [State.srcActive, State.srcLatched, hr.active, hr.latched]
    exact ⟨hact, hlat⟩
  · exact ⟨hact, hlat⟩

theorem exec_levelRise_live {s : State} (n : Fin 512) (hlive : s.live = true) (hup : s.blockUp pgLookout = true) :
    exec (.levelRiseWithoutMessage n) s = .next ((s.levelRise n.val).keepQueue s) := by
  have hrun := State.run_live (fun s => s.onlyIf (s.blockUp pgLookout) (·.levelRise n.val)) hlive
  simp only [State.onlyIf, hup, if_true] at hrun
  exact hrun

/-! ### Clears (R390) -/

theorem State.released_srcLatched (s : State) (n k : Nat) :
    (s.setLook { s.lookout with latched := AMap.set false s.lookout.latched n false }).srcLatched k
      = if k = n then false else s.srcLatched k := by
  by_cases hk : k = n
  · subst hk
    rw [if_pos rfl]
    exact AMap.get_set_same false s.lookout.latched k false
  · rw [if_neg hk]
    exact AMap.get_set_ne false false s.lookout.latched false hk

/-- A clear leaves what is active, and latches nothing. -/
theorem State.clrOne_keeps (s : State) (n : Nat) :
    (s.clrOne n).lookout.active = s.lookout.active ∧ ∀ k, s.srcLatched k = false → (s.clrOne n).srcLatched k = false := by
  unfold State.clrOne
  split
  · split
    · have hs := ((s.count pgLookout Reg.loClrMiss 1).raise_sends pgLookout evClrMiss).latches
      exact ⟨hs.active, fun k hk => by rw [State.srcLatched, hs.latched]; exact hk⟩
    · exact ⟨rfl, fun _ hk => hk⟩
  · refine ⟨rfl, fun k hk => ?_⟩
    rw [State.released_srcLatched]
    split
    · rfl
    · exact hk

/-- A source that is not active is released, and no other. -/
theorem State.clrOne_clears {s : State} {n : Nat} (h : s.srcActive n = false) :
    (s.clrOne n).srcLatched n = false ∧ ∀ k, k ≠ n → (s.clrOne n).srcLatched k = s.srcLatched k := by
  rw [State.clrOne, h, if_neg Bool.false_ne_true]
  exact ⟨by rw [State.released_srcLatched, if_pos rfl], fun k hk => by rw [State.released_srcLatched, if_neg hk]⟩

theorem State.clrAll_keeps (s : State) (l : List Nat) (k : Nat) (hk : s.srcLatched k = false) :
    (s.clrAll l).srcLatched k = false := by
  induction l generalizing s with
  | nil => exact hk
  | cons n ns ih => exact ih _ ((s.clrOne_keeps n).2 k hk)

/-- A clear of a list of sources releases every one of them that is not active. -/
theorem State.clrAll_clears {s : State} {l : List Nat} {k : Nat} (hk : k ∈ l) (h : s.srcActive k = false) :
    (s.clrAll l).srcLatched k = false := by
  induction l generalizing s with
  | nil => cases hk
  | cons n ns ih =>
    by_cases hkn : k = n
    · subst hkn
      exact (s.clrOne k).clrAll_keeps ns k (State.clrOne_clears h).1
    · refine ih ((List.mem_cons.1 hk).resolve_left hkn) ?_
      rw [State.srcActive, (s.clrOne_keeps n).1]
      exact h

/-- A key that a map does not list reads as the default. -/
theorem AMap.get_of_not_mem {β : Type} {d : β} {m : AMap β} {k : Nat} (h : k ∉ m.map (·.1)) : AMap.get d m k = d := by
  induction m with
  | nil => rfl
  | cons e m ih =>
    rw [List.map_cons, List.mem_cons, not_or] at h
    rw [AMap.get, if_neg (Ne.symm h.1), ih h.2]

/-- LO_CLR with ALL releases every source that is not active (R390). -/
theorem State.loClr_all {s : State} {v : Word} (hall : bit v 31 = true) {n : Nat} (h : s.srcActive n = false) :
    (s.loClr v).srcLatched n = false := by
  rw [State.loClr, hall, if_pos rfl]
  by_cases hn : n ∈ s.lookout.latched.map (·.1)
  · exact State.clrAll_clears hn h
  · exact s.clrAll_keeps _ n (AMap.get_of_not_mem hn)

theorem exec_loClr_now {s : State} (v : Word) (hlive : s.live = true) (hw : s.WritesNow .host pgLookout Reg.loClr) :
    exec (.loClr v) s = .next (((s.loClr v).strictEnd s .host).keepQueue s) := by
  have hrun := State.run_regWrite_now v hlive (by decide) hw
  rw [State.writeAt_loClr] at hrun
  exact hrun

@[simp] theorem State.strictEnd_lookout (s old : State) (r : Requester) : (s.strictEnd old r).lookout = s.lookout := by
  obtain ⟨f, hf⟩ := State.strictEnd_bus s old r
  rw [hf]

@[simp] theorem State.strictEnd_out (s old : State) (r : Requester) : (s.strictEnd old r).out = s.out := by
  obtain ⟨f, hf⟩ := State.strictEnd_bus s old r
  rw [hf]

@[simp] theorem State.strictEnd_srcLatched (s old : State) (r : Requester) (n : Nat) :
    (s.strictEnd old r).srcLatched n = s.srcLatched n := by
  rw [State.srcLatched, State.strictEnd_lookout, State.srcLatched]

@[simp] theorem State.keepQueue_srcLatched (s old : State) (n : Nat) : (s.keepQueue old).srcLatched n = s.srcLatched n := rfl

/-! ### FAULT_N (R395) -/

/-- A released FAULT_N whose pulse has ended rises at once. -/
theorem State.pinRelease_rises {s : State} (hlow : s.lookout.faultLow = true) (hend : s.lookout.pulseEnd = none) :
    s.pinRelease = s.pinRise := by
  rw [State.pinRelease, if_neg (by simp [hlow]), if_neg (by simp [hend])]

theorem exec_loPinRel_now {s : State} (hlive : s.live = true) (hw : s.WritesNow .host pgLookout Reg.loPinRel) :
    exec .loPinRel s = .next ((s.pinRelease.strictEnd s .host).keepQueue s) := by
  have hrun := State.run_regWrite_now (1 : Word) hlive (by decide) hw
  rw [State.writeAt_loPinRel] at hrun
  exact hrun

/-- At the end of its pulse FAULT_N rises when its release waits. -/
theorem execFaultPulseEnd_due {s : State} {u : Nat} (hend : s.lookout.pulseEnd = some u) (hdue : u ≤ s.clk.up) :
    ∃ t, execFaultPulseEnd s = .next t ∧ t.lookout.pulseEnd = none
      ∧ t.lookout.faultLow = (s.lookout.faultLow && !s.lookout.relPend) := by
  refine ⟨_, State.runAlways_eq s _, ?_⟩
  simp only [hend, if_pos hdue, State.keepQueue_lookout]
  cases s.lookout.relPend
  · exact ⟨rfl, (Bool.and_true _).symm⟩
  · exact ⟨rfl, (Bool.and_false _).symm⟩

/-! ### Traps (R394) -/

/-- The trap record at the front reaches the head. -/
theorem State.trapTake_front {s : State} {m : Message} {ms : List Message} (h : s.lookout.traps = m :: ms) :
    s.trapTake.lookout.traps = ms ∧ s.trapTake.forester.traps = s.forester.traps ++ [m] := by
  simp only [State.trapTake, h]
  refine ⟨(State.raise_sends _ pgForester 2).traps, ?_⟩
  rw [State.raise_forester]
  rfl

theorem exec_trapDeliver_live {s : State} (hlive : s.live = true) (hhead : s.headReaches = true) :
    exec .trapDeliver s = .next (s.trapTake.keepQueue s) := by
  have hrun := State.run_live (fun s => s.onlyIf s.headReaches (·.trapTake)) hlive
  simp only [State.onlyIf, hhead, if_true] at hrun
  exact hrun

/-! ### The fatal summary (R399, R400) -/

/-- A summary is written under the next number, with a CRC that matches when the write succeeds. -/
theorem State.sumWrite_writes (s : State) (x : Summary) (ok : Bool) :
    (s.sumWrite x ok).lookout.nextNum = s.lookout.nextNum + 1
    ∧ (s.sumWrite x ok).lookout.fatal = s.lookout.fatal
    ∧ (s.sumWrite x ok).lookout.owed = s.lookout.owed
    ∧ (s.sumWrite x ok).lookout.chipRst = s.lookout.chipRst
    ∧ AMap.get [] (s.sumWrite x ok).mram.sums (s.lookout.nextNum % 16)
      = (if ok then s.sumBytes x s.lookout.nextNum else spoilCrc (s.sumBytes x s.lookout.nextNum)) := by
  unfold State.sumWrite
  extract_lets n b mram s1 lo
  have hs := (s1.setLook { lo with nextNum := n + 1 }).raiseIf_sends ok pgLookout evFatalWr
  refine ⟨hs.nextNum, hs.fatal, hs.owed, hs.chipRst, ?_⟩
  rw [State.raiseIf_mram]
  exact AMap.get_set_same ..

/-- A summary that a chip reset has overtaken is written first. -/
theorem State.fatalWritten_owed {s : State} (ok : Bool) {x : Summary} {xs : List Summary} (howed : s.lookout.owed = x :: xs) :
    s.fatalWritten ok = (s.setLook { s.lookout with owed := xs }).sumWrite x ok := by
  unfold State.fatalWritten
  split
  · next y ys h =>
    obtain ⟨rfl, rfl⟩ := List.cons.inj (howed.symm.trans h)
    rfl
  · next h _ => cases howed.symm.trans h
  · next h _ => cases howed.symm.trans h

/-- The summary asked for is written when none is owed; no chip reset waits for it. -/
theorem State.fatalWritten_asked {s : State} (ok : Bool) {c : Nat} {m : Message} (howed : s.lookout.owed = [])
    (hfatal : s.lookout.fatal = some (c, m)) (hchip : s.lookout.chipRst = 0) :
    s.fatalWritten ok = (s.setLook { s.lookout with fatal := none, chipAt := none }).sumWrite (s.summary c m) ok := by
  unfold State.fatalWritten
  split
  · next h => cases howed.symm.trans h
  · next c' m' _ h =>
    obtain ⟨rfl, rfl⟩ := Prod.mk.inj (Option.some.inj (hfatal.symm.trans h))
    obtain ⟨_, _, _, hc, _⟩ :=
      (s.setLook { s.lookout with fatal := none, chipAt := none }).sumWrite_writes (s.summary c m) ok
    exact if_pos (hc.trans hchip)
  · next h => cases hfatal.symm.trans h

/-! ### The obligation -/

/-- Settles O55, from what each command of Lookout does where its condition holds. -/
theorem lookoutCommandsComplete : Obligations.LookoutCommandsComplete := by
  unfold Obligations.LookoutCommandsComplete
  intro s
  refine ⟨fun hlive => ⟨?message, ?level, ?clear, ?release, ?trap⟩, ?pulse, ?fatal, ?owed⟩
  case message =>
    intro q m ms hup hq
    have hrun := exec_lookoutMessage_live q hlive hup
    exact ⟨fun hrise hnew hblock => ⟨_, hrun, State.takeNext_latches hq hrise hnew hblock⟩,
      fun hfall => ⟨_, hrun, State.takeNext_fall hq hfall⟩⟩
  case level =>
    exact fun n hup hmiss hseen hblock => ⟨_, exec_levelRise_live n hlive hup, State.levelRise_latches hmiss hseen hblock⟩
  case clear =>
    intro v hw
    have hrun := exec_loClr_now v hlive hw
    refine ⟨fun hone hidle => ⟨_, hrun, ?_⟩, fun hall => ⟨_, hrun, fun n hidle => ?_⟩⟩
    · obtain ⟨hthis, hothers⟩ := State.clrOne_clears hidle
      simp only [State.keepQueue_srcLatched, State.strictEnd_srcLatched, State.loClr, hone, Bool.false_eq_true, if_false]
      exact ⟨hthis, hothers⟩
    · rw [State.keepQueue_srcLatched, State.strictEnd_srcLatched]
      exact State.loClr_all hall hidle
  case release =>
    intro hw hlow hend
    refine ⟨_, exec_loPinRel_now hlive hw, ?_⟩
    rw [State.pinRelease_rises hlow hend, State.keepQueue_lookout, State.keepQueue_out, State.strictEnd_lookout,
      State.strictEnd_out]
    exact ⟨rfl, rfl⟩
  case trap => exact fun m ms hhead htraps => ⟨_, exec_trapDeliver_live hlive hhead, State.trapTake_front htraps⟩
  case pulse => exact fun u hend hdue => execFaultPulseEnd_due hend hdue
  case fatal =>
    intro ok c m howed hfatal hchip
    refine ⟨_, State.runAlways_eq s (·.fatalWritten ok), ?_⟩
    obtain ⟨hnum, hf, _, _, hsum⟩ :=
      (s.setLook { s.lookout with fatal := none, chipAt := none }).sumWrite_writes (s.summary c m) ok
    rw [State.fatalWritten_asked ok howed hfatal hchip]
    exact ⟨hf, hnum, hsum⟩
  case owed =>
    intro ok x xs howed
    refine ⟨_, State.runAlways_eq s (·.fatalWritten ok), ?_⟩
    obtain ⟨hnum, hf, ho, _, hsum⟩ := (s.setLook { s.lookout with owed := xs }).sumWrite_writes x ok
    rw [State.fatalWritten_owed ok howed]
    exact ⟨ho, hf, hnum, hsum⟩

end Sys2Proof.Machine
end

section
/-! SUPPORT AND PROOF. What the commands of Forester do when their conditions hold (16_forester_security.md R424 to R429, R441,
R445; 17_reset_retained.md R454): claims, leases, mismatches, boot, the life-cycle change and the performance history. -/

namespace Sys2Proof.Machine

/-! ### The clusters of a state -/

@[simp] theorem State.setCluster_cluster (s : State) (c : Nat) (x : ClusterS) : (s.setCluster c x).cluster c = x := by
  unfold State.setCluster State.cluster
  by_cases h : c = 0 <;> simp [h]

/-- The other cluster stays as it is. -/
theorem State.setCluster_cluster_other (s : State) (c : Half) (x : ClusterS) :
    (s.setCluster c.val x).cluster (1 - c.val) = s.cluster (1 - c.val) := by
  unfold State.setCluster State.cluster
  obtain h | h : c.val = 0 ∨ c.val = 1 := by omega
  all_goals simp [h]

@[simp] theorem State.setCluster_holder (s : State) (c : Nat) (x : ClusterS) :
    (s.setCluster c x).forester.holder = s.forester.holder := by
  unfold State.setCluster
  split <;> rfl

@[simp] theorem State.setCluster_epoch (s : State) (c : Nat) (x : ClusterS) :
    (s.setCluster c x).forester.epoch = s.forester.epoch := by
  unfold State.setCluster
  split <;> rfl

theorem State.cluster_of_forester {s t : State} (h : t.forester = s.forester) (c : Nat) : t.cluster c = s.cluster c := by
  rw [State.cluster, State.cluster, h]

/-! ### Claims (R425, R426) -/

/-- The head's copies of the log leave the register and the clusters. -/
theorem State.longFrom_forester (s : State) (n k : Nat) :
    ∃ a l, (s.longFrom n k).forester = { s.forester with longN := a, longLog := l } := by
  induction k generalizing s n with
  | zero => exact ⟨_, _, rfl⟩
  | succ k ih =>
    unfold State.longFrom
    extract_lets e
    split
    · obtain ⟨a, l, h⟩ := ih (s.longCopy e) (n + 1)
      exact ⟨a, l, h⟩
    · exact ih s (n + 1)

theorem State.longSync_forester (s : State) :
    ∃ a l c, s.longSync.forester = { s.forester with longN := a, longLog := l, copied := c } := by
  unfold State.longSync
  split
  · exact ⟨_, _, _, rfl⟩
  · extract_lets c u f
    obtain ⟨a, l, h⟩ := s.longFrom_forester (c + 1) (s.lookout.logN - c)
    replace h : f = { s.forester with longN := a, longLog := l } := h
    clear_value f
    subst h
    exact ⟨a, l, u.lookout.logN, rfl⟩

@[simp] theorem State.longSync_holder (s : State) : s.longSync.forester.holder = s.forester.holder := by
  obtain ⟨_, _, _, h⟩ := s.longSync_forester
  rw [h]

@[simp] theorem State.longSync_epoch (s : State) : s.longSync.forester.epoch = s.forester.epoch := by
  obtain ⟨_, _, _, h⟩ := s.longSync_forester
  rw [h]

@[simp] theorem State.longSync_cluster (s : State) (c : Nat) : s.longSync.cluster c = s.cluster c := by
  obtain ⟨_, _, _, h⟩ := s.longSync_forester
  rw [State.cluster, State.cluster, h]

theorem State.sourceMsg_forester (s : State) (n code : Nat) (typ : MsgType) (kind : Nat) (info : Word) :
    (s.sourceMsg n code typ kind info).forester = s.forester :=
  (State.sourceMsg_same (fs := 0x8000000010) (.refl _) s n code typ kind info (.refl _ s)).forester rfl

theorem State.sourceMsg_cluster (s : State) (n code : Nat) (typ : MsgType) (kind : Nat) (info : Word) (c : Nat) :
    (s.sourceMsg n code typ kind info).cluster c = s.cluster c :=
  State.cluster_of_forester (s.sourceMsg_forester ..) c

theorem State.setHolder_forester (s : State) (h : Nat) :
    (s.setHolder h).forester = { s.forester with holder := h, epoch := (s.forester.epoch + 1) % 2 ^ 32 } :=
  State.raise_forester _ _ _

theorem State.headSetpoint_forester (s : State) : s.headSetpoint.forester = s.forester := rfl

/-- A cluster whose claim has succeeded holds headship of the next EPOCH. -/
theorem State.newHead_heads (s : State) (c : Nat) :
    (s.newHead c).forester.holder = c + 1 ∧ (s.newHead c).forester.epoch = (s.forester.epoch + 1) % 2 ^ 32
      ∧ ((s.newHead c).cluster c).st = .head := by
  unfold State.newHead
  extract_lets s1 f mb s2 before s3
  have h1 : s1.forester = _ := s.setHolder_forester (c + 1)
  have hset : (s3.onlyIf (s3.ioBank 1) (·.headSetpoint)).forester = s3.forester := by
    unfold State.onlyIf
    split
    · exact s3.headSetpoint_forester
    · rfl
  have hholder : s3.forester.holder = c + 1 := by
    rw [State.setCluster_holder]
    exact congrArg ForesterS.holder h1
  have hepoch : s3.forester.epoch = (s.forester.epoch + 1) % 2 ^ 32 := by
    rw [State.setCluster_epoch]
    exact congrArg ForesterS.epoch h1
  rw [State.longSync_holder, State.longSync_epoch, State.longSync_cluster, State.cluster_of_forester hset, hset]
  exact ⟨hholder, hepoch, congrArg ClusterS.st (State.setCluster_cluster s2 c _)⟩

/-- With no head, and its EPOCH still the one expected, a claim makes a head of the next EPOCH (R425). -/
theorem State.claim_free {s : State} {c : Half} {e : Word} (hst : (s.cluster c.val).st = .standby)
    (hreach : s.reachesAon c.val = true) (he : e.toNat = s.forester.epoch) (hfree : s.forester.holder = 0)
    (hmay : s.mayClaim c.val = true) : s.claim c.val e = s.claimed c.val := by
  have htie : s.tied c.val e = false := by
    rw [State.tied, Bool.and_eq_false_iff]
    exact .inr (decide_eq_false fun h => by omega)
  rw [State.claim, if_neg (by simp [hst, hreach]), htie, if_neg Bool.false_ne_true, if_neg (not_not.2 he),
    if_pos ⟨hfree, hmay⟩]

/-- Of two claims with one EPOCH on one edge that of the HEAD_SEL half stands (R426). -/
theorem State.claim_tied {s : State} {c : Half} {e : Word} (hst : (s.cluster c.val).st = .standby)
    (hreach : s.reachesAon c.val = true) (htie : s.tied c.val e = true) : s.claim c.val e = s.winTie c.val := by
  rw [State.claim, if_neg (by simp [hst, hreach]), if_pos htie]

theorem State.winTie_heads (s : State) (c : Half) :
    (s.winTie c.val).forester.holder = c.val + 1 ∧ (s.winTie c.val).forester.epoch = s.forester.epoch
      ∧ ((s.winTie c.val).cluster c.val).st = .head ∧ ((s.winTie c.val).cluster (1 - c.val)).st = .standby := by
  unfold State.winTie
  extract_lets o before other s1 f s2 mine
  rw [State.sourceMsg_forester, State.sourceMsg_cluster, State.sourceMsg_cluster, State.setCluster_cluster,
    State.setCluster_cluster_other, State.setCluster_holder, State.setCluster_epoch]
  refine ⟨rfl, State.setCluster_epoch .., rfl, ?_⟩
  exact congrArg ClusterS.st (State.setCluster_cluster s o _)

/-! ### Leases and mismatches (R427, R429) -/

/-- A lease lapses 20 ms after its last renewal: no head, of the next EPOCH. -/
theorem State.lapse_due {s : State} (hhead : s.forester.holder ≠ 0) (hdue : s.forester.leaseAt + 20000000 ≤ s.clk.up) :
    s.lapse.forester.holder = 0 ∧ s.lapse.forester.epoch = (s.forester.epoch + 1) % 2 ^ 32 := by
  rw [State.lapse, if_pos ⟨hhead, hdue⟩, State.sourceMsg_forester, State.setHolder_forester]
  exact ⟨rfl, rfl⟩

/-- A mismatch stops a cluster, for good when another came within the hour, and releases its headship where it reaches the
register. -/
theorem State.mismatch_stops {s : State} {c : Nat} (hoff : (s.cluster c).st ≠ .off) (hfail : (s.cluster c).st ≠ .failed) :
    ((s.mismatch c).cluster c).st = (if s.missedBefore c then .failed else .boot)
    ∧ (s.mismatch c).forester.holder
      = (if s.forester.holder = c + 1 ∧ s.reachesAon c = true then 0 else s.forester.holder) := by
  unfold State.mismatch
  rw [if_neg (by simp [hoff, hfail])]
  extract_lets near s1 s2 again s3
  have h1 : (∀ k, s1.cluster k = s.cluster k) ∧ s1.clk = s.clk
      ∧ s1.forester.holder = (if s.forester.holder = c + 1 ∧ s.reachesAon c = true then 0 else s.forester.holder) := by
    simp only [s1]
    split
    · refine ⟨fun k => ?_, (State.setHolder_same (fs := 0x18000000010) (.refl _) s 0 (.refl _ s)).clk rfl, ?_⟩
      · rw [State.cluster, State.cluster, State.setHolder_forester]
      · rw [State.setHolder_forester]
    · exact ⟨fun _ => rfl, rfl, rfl⟩
  obtain ⟨hcluster, hclk, hholder⟩ := h1
  have hmsg : s2.forester = s1.forester := State.sourceMsg_forester ..
  have hclk2 : s2.clk = s1.clk :=
    (State.sourceMsg_same (fs := 0x8000000010) (.refl _) s1 _ 0 .pulse 6 0 (.refl _ s1)).clk rfl
  have hagain : again = s.missedBefore c := by
    simp only [again, State.missedBefore, State.cluster_of_forester hmsg, hcluster, hclk2, hclk]
  rw [State.raiseIf_cluster, State.setCluster_cluster, State.raiseIf_forester, State.setCluster_holder, hmsg, hholder]
  exact ⟨by rw [← hagain], rfl⟩

/-! ### Boot (R441, R454) -/

/-- A record joins a measurement; the clusters stay. -/
theorem State.extend_cluster (s : State) (i : Nat) (r : List Byte) (c : Nat) : (s.extend i r).cluster c = s.cluster c := rfl

/-- What a cluster is once it runs an image from a slot. -/
def State.runsImage (s : State) (c slot : Nat) (i : Image) : ClusterS :=
  { s.cluster c with
    st := .standby, ver := i.ver, svn := i.svn, slot := slot, typ := imgType i.hdr, readyAt := s.clk.up, uart := false }

/-- A cluster that runs an image is STANDBY, with the image's VERSION and slot. -/
theorem State.booted_standby (s : State) (c slot : Nat) (i : Image) :
    ((s.booted c slot i).cluster c).st = .standby ∧ ((s.booted c slot i).cluster c).ver = i.ver
      ∧ ((s.booted c slot i).cluster c).slot = slot := by
  have hc : (s.booted c slot i).cluster c = (s.setCluster c (s.runsImage c slot i)).cluster c :=
    State.extend_cluster (s.setCluster c (s.runsImage c slot i)) 1 (imgRecord i.hdr) c
  rw [hc, State.setCluster_cluster]
  exact ⟨rfl, rfl, rfl⟩

theorem State.bootReady_boot {s : State} {c : Nat} (h : s.bootReady c = true) : (s.cluster c).st = .boot := by
  rw [State.bootReady, Bool.and_eq_true, Bool.and_eq_true] at h
  exact of_decide_eq_true h.1.1

/-- A cluster that boots from the flash reaches STANDBY when its choice holds an image (R454). -/
theorem State.bootDone_boots {s : State} {c : Nat} (fl : BootFlash) (hready : s.bootReady c = true) :
    ((s.bootDone c fl).cluster c).st = (match s.bootChoice fl with | some _ => .standby | none => .boot)
    ∧ ∀ slot i, s.bootChoice fl = some (slot, i) →
      ((s.bootDone c fl).cluster c).ver = i.ver ∧ ((s.bootDone c fl).cluster c).slot = slot := by
  rw [State.bootDone, if_pos hready]
  cases hchoice : s.bootChoice fl with
  | none =>
    refine ⟨?_, nofun⟩
    simp only [State.setCluster_cluster]
    exact State.bootReady_boot hready
  | some x =>
    obtain ⟨hst, hver, hslot⟩ := s.booted_standby c x.1 x.2
    refine ⟨hst, fun slot i hx => ?_⟩
    obtain rfl := Option.some.inj hx
    exact ⟨hver, hslot⟩

/-- A recovery image on the console boots a cluster when it verifies and is of TYPE 5 (R454). -/
theorem State.uartImage_boots {s : State} {c : Nat} (img : List Byte) (hready : s.bootReady c = true)
    (hsrc : s.rst.bootSrc = 3 ∨ (s.rst.bootSrc = 1 ∧ (s.cluster c).uart = true)) :
    ((s.uartImage c img).cluster c).st = (match s.verifyImage true img with
      | .good i => if imgType i.hdr = 5 then .standby else .boot
      | .bad _ => .boot) := by
  rw [State.uartImage, if_pos ⟨hready, hsrc⟩]
  cases s.verifyImage true img with
  | bad _ => exact State.bootReady_boot hready
  | good i =>
    dsimp only
    split
    · exact (s.booted_standby c 3 i).1
    · exact State.bootReady_boot hready

/-! ### The life-cycle change (R443, R445) -/

theorem State.withSeed_seed (s : State) {life : Nat} (hid : life = 1 ∨ life = 2) (hnone : s.fuses.seed = []) :
    (s.withSeed life).fuses.seed = drawSeed s.freeCtr := by
  rw [State.withSeed, if_pos ⟨hid, hnone⟩]

theorem State.pcieDown_fuses (s : State) : s.pcieDown.fuses = s.fuses :=
  (State.pcieDown_same (fs := 0x8b120c2010) (.refl _) s (.refl _ s)).fuses rfl

theorem State.pcieDown_forester (s : State) : s.pcieDown.forester = s.forester :=
  (State.pcieDown_same (fs := 0x8b120c2010) (.refl _) s (.refl _ s)).forester rfl

/-- When its time has come the life-cycle change blows the fuses and the wipe begins. -/
theorem State.lifeWrite_blows {s : State} {life due : Nat} (hnext : s.forester.lcNext = some (life, due)) (hset : due ≠ 0)
    (hdue : due ≤ s.clk.up) :
    s.lifeWrite.fuses = { (s.withSeed life).fuses with life := life, wipeDone := false }
    ∧ s.lifeWrite.forester.lcNext = none := by
  simp only [State.lifeWrite, hnext, if_pos (And.intro hset hdue)]
  rw [State.pcieDown_fuses, State.pcieDown_forester]
  exact ⟨rfl, rfl⟩

/-! ### The performance history (R436, 04_span_framing.md R119) -/

/-- A history has a slot of position q whose newest bin, of days or of quarter hours, is v. -/
def HistShows (l : List HistSlot) (day : Bool) (q : Nat) (v : Nat × PmBin) : Prop :=
  ∃ y ∈ l, y.pos = q ∧ (if day then y.nearDay else y.near15).head? = some v

theorem histPut_head {n : Nat} (hn : 0 < n) (start : Nat) (b : PmBin) (l : List (Nat × PmBin)) :
    (histPut n start b l).head? = some (start, b) := by
  unfold histPut
  split
  · split
    · rfl
    · rw [List.head?_take, if_neg (by omega)]
      rfl
  · rfl

/-- Where there is room a position finds its slot, no other loses its own, and there is at most one slot more. -/
theorem histSlot_room {l : List HistSlot} (q up : Nat) (on : Nat → Bool) (hroom : l.length < 64) :
    (∃ y ∈ histSlot l q up on, y.pos = q) ∧ (∀ y ∈ l, y ∈ histSlot l q up on)
    ∧ (histSlot l q up on).length ≤ l.length + 1 := by
  unfold histSlot
  split
  · next hany =>
    obtain ⟨y, hy, hpos⟩ := List.any_eq_true.1 hany
    exact ⟨⟨y, hy, of_decide_eq_true hpos⟩, fun _ h => h, Nat.le_succ _⟩
  · refine ⟨⟨{ pos := q, lastOn := up }, ?_, rfl⟩, fun y hy => ?_, ?_⟩
    all_goals simp_all

/-- The bins that a copy takes for the newest entry of a position (R119). -/
def State.histBin (s : State) (day : Bool) (q : Nat) : Nat × PmBin := (s.pmStart q day, s.pmBin q (if day then 3 else 1))

theorem State.histCopy_shows {s : State} (day : Bool) (q : Nat) (hroom : s.mram.hist.length < 64) :
    HistShows (s.histCopy day q).mram.hist day q (s.histBin day q) := by
  obtain ⟨⟨y, hy, hpos⟩, _, _⟩ := histSlot_room q s.clk.up s.spanOn hroom
  refine ⟨_, List.mem_map.2 ⟨y, hy, rfl⟩, ?_⟩
  rw [if_pos hpos]
  cases day
  · exact ⟨hpos, histPut_head (by decide) _ _ _⟩
  · exact ⟨hpos, histPut_head (by decide) _ _ _⟩

theorem State.histCopy_keeps {s : State} {day : Bool} {q q' : Nat} (hq : q ≠ q') {v : Nat × PmBin}
    (hroom : s.mram.hist.length < 64) (h : HistShows s.mram.hist day q v) :
    HistShows (s.histCopy day q').mram.hist day q v := by
  obtain ⟨y, hy, hpos, hv⟩ := h
  obtain ⟨_, hkeep, _⟩ := histSlot_room q' s.clk.up s.spanOn hroom
  refine ⟨y, List.mem_map.2 ⟨y, hkeep y hy, ?_⟩, hpos, hv⟩
  rw [if_neg (by rw [hpos]; exact hq)]

theorem State.histCopy_length {s : State} (day : Bool) (q : Nat) (hroom : s.mram.hist.length < 64) :
    (s.histCopy day q).mram.hist.length ≤ s.mram.hist.length + 1 := by
  obtain ⟨_, _, hlen⟩ := histSlot_room q s.clk.up s.spanOn hroom
  simpa [State.histCopy] using hlen

/-- Once every listed position has been copied, a listed span port, or one copied before, shows its bins. -/
theorem State.histCopies_shows {s : State} {day : Bool} {q : Nat} (hon : s.spanOn q = true) (qs : List Nat)
    (hroom : s.mram.hist.length + qs.length ≤ 64) (h : q ∈ qs ∨ HistShows s.mram.hist day q (s.histBin day q)) :
    HistShows (s.histCopies day qs).mram.hist day q (s.histBin day q) := by
  induction qs generalizing s with
  | nil => exact h.resolve_left List.not_mem_nil
  | cons k ks ih =>
    rw [List.length_cons] at hroom
    have hfree : s.mram.hist.length < 64 := by omega
    rw [State.histCopies]
    by_cases hk : s.spanOn k = true
    · rw [if_pos hk]
      have hlen := s.histCopy_length day k hfree
      refine ih (s := s.histCopy day k) hon (by omega) ?_
      by_cases hqk : q = k
      · exact .inr (hqk ▸ s.histCopy_shows day k hfree)
      · obtain hmem | hshows := h
        · exact .inl ((List.mem_cons.1 hmem).resolve_left hqk)
        · exact .inr (State.histCopy_keeps hqk hfree hshows)
    · rw [if_neg hk]
      refine ih hon (by omega) (h.imp_left fun hmem => (List.mem_cons.1 hmem).resolve_left fun hqk : q = k => hk (hqk ▸ hon))

/-! ### The obligation -/

theorem exec_pmHistoryCopy_live {s : State} (day : Bool) (hlive : s.live = true) (hhead : s.headReaches = true) :
    exec (.pmHistoryCopy day) s = .next ((s.histCopies day (s.spans.map (·.1))).keepQueue s) := by
  have hrun := State.run_live (fun s => s.onlyIf s.headReaches (·.histCopies day (s.spans.map (·.1)))) hlive
  simp only [State.onlyIf, hhead, if_true] at hrun
  exact hrun

/-- Settles O57, from what each command of Forester does where its condition holds. -/
theorem foresterCommandsComplete : Obligations.ForesterCommandsComplete := by
  unfold Obligations.ForesterCommandsComplete
  intro s c hlive
  refine ⟨?claim, ?tie, ?renew, ?lapse, ?mismatch, ?boot, ?console, ?life, ?history⟩
  case claim =>
    intro e hst hreach he hfree hmay
    refine ⟨_, State.run_live (·.claim c.val e) hlive, ?_⟩
    rw [State.claim_free hst hreach he hfree hmay]
    exact s.newHead_heads c.val
  case tie =>
    intro e hst hreach htie
    refine ⟨_, State.run_live (·.claim c.val e) hlive, ?_⟩
    rw [State.claim_tied hst hreach htie]
    exact s.winTie_heads c
  case renew =>
    intro hhead hst hreach
    refine ⟨_, State.run_live (·.renew c.val) hlive, ?_⟩
    rw [State.renew, if_pos ⟨hhead, hst, hreach⟩]
    rfl
  case lapse => exact fun hhead hdue => ⟨_, State.run_live (·.lapse) hlive, State.lapse_due hhead hdue⟩
  case mismatch => exact fun hoff hfail => ⟨_, State.run_live (·.mismatch c.val) hlive, State.mismatch_stops hoff hfail⟩
  case boot => exact fun fl hready => ⟨_, State.run_live (·.bootDone c.val fl) hlive, State.bootDone_boots fl hready⟩
  case console =>
    exact fun img hready hsrc => ⟨_, State.run_live (·.uartImage c.val img) hlive, State.uartImage_boots img hready hsrc⟩
  case life =>
    intro life due hnext hset hdue
    obtain ⟨hfuses, hlc⟩ := State.lifeWrite_blows hnext hset hdue
    refine ⟨_, State.run_live (·.lifeWrite) hlive, ?_⟩
    rw [State.keepQueue_fuses, State.keepQueue_forester, hfuses]
    exact ⟨rfl, rfl, hlc, fun hid hnone => s.withSeed_seed hid hnone⟩
  case history =>
    intro day q hhead hmem hon hroom
    exact ⟨_, exec_pmHistoryCopy_live day hlive hhead,
      State.histCopies_shows hon _ (by rwa [List.length_map]) (.inl hmem)⟩

end Sys2Proof.Machine
end

section
/-! SUPPORT. What the pins' resets and the chip reset leave (17_reset_retained.md R449, R450, Table 176). -/

namespace Sys2Proof.Machine

/-- The MRAM after a reset is as before but for times in the history (16_forester_security.md R436). -/
theorem State.mram_of_histEnd {s t : State} (h : t.mram = s.histEnd) : t.mram = { s.mram with hist := t.mram.hist } := by
  rw [h]
  rfl

/-- A chip reset counts in RST_COUNT (Table 176). -/
theorem State.keptAlways_rstCount (t s : State) :
    (t.keptAlways s).reg pgReset Reg.rstCount = s.reg pgReset Reg.rstCount + 1 := by
  simp only [State.keptAlways]
  rw [State.reg_setReg_ne _ _ (regKey_ne (by decide) (by decide) (by decide)),
    State.reg_setReg_ne _ _ (regKey_ne (by decide) (by decide) (by decide)),
    State.reg_setReg_ne _ _ (regKey_ne (by decide) (by decide) (by decide)),
    State.reg_setReg_ne _ _ (regKey_ne (by decide) (by decide) (by decide)),
    State.reg_setReg_ne _ _ (regKey_ne_off (by decide)), State.reg_setReg]
  refine BitVec.eq_of_toNat_eq ?_
  rw [BitVec.toNat_ofNat, BitVec.toNat_add]
  rfl

theorem State.chipReset_rstCount (s : State) (cause : Nat) :
    (s.chipReset cause).reg pgReset Reg.rstCount = s.reg pgReset Reg.rstCount + 1 := State.keptAlways_rstCount _ s

theorem State.chipReset_rst (s : State) (cause : Nat) : (s.chipReset cause).rst =
    { cause := cause, seqA := s.rst.seqA, seqB := s.rst.seqB, seqUsed := s.rst.seqUsed, porstAt := s.rst.porstAt
      chipAt := s.rst.chipAt, headSel := s.rst.pinHead, bootSrc := s.rst.pinSrc, pinHead := s.rst.pinHead
      pinSrc := s.rst.pinSrc, t0 := s.clk.up, tripped := s.rst.tripped } :=
  (State.keptAlways_same (.refl _) _ s (.refl _ _)).rst rfl

theorem State.chipReset_frames (s : State) (cause : Nat) : (s.chipReset cause).frames = [] :=
  (State.keptAlways_same (.refl _) _ s (.refl _ _)).frames rfl

theorem State.chipReset_out (s : State) (cause : Nat) : (s.chipReset cause).out = s.out :=
  (State.keptAlways_same (.refl _) _ s (.refl _ _)).out rfl

/-- A power-on reset leaves its cause, PHASE FUSES and the straps. -/
theorem State.powerReset_rst (s : State) (pins : PinSample) : (s.powerReset pins).rst =
    { cause := causePower, t0 := s.clk.up, porstAt := s.rst.porstAt, chipAt := s.rst.chipAt, headSel := pins.headSel
      bootSrc := pins.bootSrc.val, pinHead := pins.headSel, pinSrc := pins.bootSrc.val } := by
  have h (x : Bool) (n : PinName) (t : State) : (if x then t.emit (.pin n true) else t).rst = t.rst := by
    cases x <;> rfl
  exact (h s.rst.tripped .thermtripN _).trans (h s.lookout.faultLow .faultN _)

theorem State.powerReset_frames (s : State) (pins : PinSample) : (s.powerReset pins).frames = [] := by
  have h (x : Bool) (n : PinName) (t : State) : (if x then t.emit (.pin n true) else t).frames = t.frames := by
    cases x <;> rfl
  exact (h s.rst.tripped .thermtripN _).trans (h s.lookout.faultLow .faultN _)

theorem State.powerReset_clk (s : State) (pins : PinSample) : (s.powerReset pins).clk = { up := s.clk.up } := by
  have h (x : Bool) (n : PinName) (t : State) : (if x then t.emit (.pin n true) else t).clk = t.clk := by
    cases x <;> rfl
  exact (h s.rst.tripped .thermtripN _).trans (h s.lookout.faultLow .faultN _)

/-- A power-on reset leaves 0 in RST_COUNT. -/
theorem State.powerReset_rstCount (s : State) (pins : PinSample) : (s.powerReset pins).reg pgReset Reg.rstCount = 0 := by
  have h (x : Bool) (n : PinName) (t : State) :
      (if x then t.emit (.pin n true) else t).reg pgReset Reg.rstCount = t.reg pgReset Reg.rstCount := by
    cases x <;> rfl
  refine ((h s.rst.tripped .thermtripN _).trans (h s.lookout.faultLow .faultN _)).trans ?_
  rw [State.reg_setReg_ne _ _ (regKey_ne (by decide) (by decide) (by decide)),
    State.reg_setReg_ne _ _ (regKey_ne (by decide) (by decide) (by decide)),
    State.reg_setReg_ne _ _ (regKey_ne (by decide) (by decide) (by decide)),
    State.reg_setReg_ne _ _ (regKey_ne (by decide) (by decide) (by decide))]
  exact (State.reset_reg pgReset (o := Reg.rstCount) (by decide)).trans (by decide)

/-- What a reset by a pin, the supply or a register leaves besides its cause and its count: PHASE FUSES, the MRAM but for times of
its history, the fuses, and no frame. -/
structure State.ResetFrom (s t : State) (cause : Nat) : Prop where
  cause : t.rst.cause = cause
  phase : t.rst.phase = .fuses
  mram : t.mram = { s.mram with hist := t.mram.hist }
  fuses : t.fuses = s.fuses
  frames : t.frames = []

theorem State.chipReset_from (s : State) (cause : Nat) : s.ResetFrom (s.chipReset cause) cause where
  cause := by rw [State.chipReset_rst]
  phase := by rw [State.chipReset_rst]
  mram := State.mram_of_histEnd (s.chipReset_mram cause)
  fuses := s.chipReset_fuses cause
  frames := s.chipReset_frames cause

theorem State.powerReset_from (s : State) (pins : PinSample) : s.ResetFrom (s.powerReset pins) causePower where
  cause := by rw [State.powerReset_rst]
  phase := by rw [State.powerReset_rst]
  mram := State.mram_of_histEnd (s.powerReset_mram pins)
  fuses := s.powerReset_fuses pins
  frames := s.powerReset_frames pins

/-- PORST_N low (R449). -/
theorem State.porst_low {s : State} (pins : PinSample) (h : s.rst.porstAt = none) :
    s.porst false pins = { s.powerReset pins with rst := { (s.powerReset pins).rst with porstAt := some s.clk.up } } := by
  rw [State.porst, if_neg Bool.false_ne_true, if_neg (by simp [h])]
  have hup : (s.powerReset pins).clk.up = s.clk.up := by rw [State.powerReset_clk]
  simp only [hup]

/-- PORST_N rises (R450): the straps, and the start-up. -/
theorem State.porst_high {s : State} (pins : PinSample) {t0 : Nat} (h : s.rst.porstAt = some t0) :
    (s.porst true pins).rst.porstAt = none ∧ (s.porst true pins).rst.t0 = s.clk.up
    ∧ (s.porst true pins).rst.headSel = pins.headSel ∧ (s.porst true pins).rst.bootSrc = pins.bootSrc.val
    ∧ (s.porst true pins).rst.phase = .fuses := by
  have hup : (s.powerReset pins).clk.up = s.clk.up := by rw [State.powerReset_clk]
  have hphase : (s.powerReset pins).rst.phase = .fuses := by rw [State.powerReset_rst]
  simp only [State.porst, h, Option.isSome_some, if_true]
  split
  · rw [State.chipReset_rst]
    exact ⟨rfl, hup, rfl, rfl, rfl⟩
  · exact ⟨rfl, hup, rfl, rfl, hphase⟩

/-- CHIPRST_N low while PORST_N is high: a chip reset (R449). -/
theorem State.chiprst_low {s : State} (pins : PinSample) (hp : s.rst.porstAt = none) (hc : s.rst.chipAt = none) :
    ∃ u : State, u = (s.strapPins pins).chipReset causePin
      ∧ s.chiprst false pins = { u with rst := { u.rst with chipAt := some u.clk.up } } := by
  refine ⟨_, rfl, ?_⟩
  simp only [State.chiprst, hp, hc, Bool.false_eq_true, Option.isSome_none, if_false]

theorem State.chiprst_held {s : State} (pins : PinSample) {t0 : Nat} (hp : s.rst.porstAt = some t0) (hc : s.rst.chipAt = none) :
    s.chiprst false pins = { s with rst := { s.rst with chipAt := some s.clk.up } } := by
  simp only [State.chiprst, hp, hc, Bool.false_eq_true, Option.isSome_none, Option.isSome_some, if_false, if_true]

theorem State.chipReset_up (s : State) (cause : Nat) : (s.chipReset cause).clk.up = s.clk.up := by
  have hclk : (s.chipReset cause).clk = { up := s.clk.up } := (State.keptAlways_same (.refl _) _ s (.refl _ _)).clk rfl
  rw [hclk]

/-- CHIPRST_N rises (R450). -/
theorem State.chiprst_high {s : State} (pins : PinSample) {t0 : Nat} (hc : s.rst.chipAt = some t0) :
    s.chiprst true pins = { s.straps pins with rst := { (s.straps pins).rst with chipAt := none, t0 := s.clk.up } } := by
  simp only [State.chiprst, hc, Option.isSome_some, if_true]
  rfl

/-- What a life-cycle wipe leaves before its chip reset: nothing in the MRAM, WIPE_DONE blown, in RETURNED no seed
(16_forester_security.md R445). -/
def State.wipeEnds (s : State) : State :=
  ({ s with
    mram := {}
    fuses := { s.fuses with wipeDone := true, seed := if s.fuses.life = 3 then [] else s.fuses.seed } } : State).emit .flashWipe

theorem State.wiped_ends {s : State} (hwipe : s.fuses.wipeDone = false) (hp : s.rst.porstAt = none) (hc : s.rst.chipAt = none)
    (ht : s.rst.tripped = false) : s.wiped = s.wipeEnds.chipReset causeLife := by
  rw [State.wiped, if_neg (by simp [hwipe, hp, hc, ht])]
  rfl

end Sys2Proof.Machine
end

section
/-! SUPPORT. PG_CTRL of every page is as it was after a routine of a half's sequencer, which an ENABLE that rises lets go on
(06_tables.md R200, R209): the routine writes no register at that offset. -/

namespace Sys2Proof.Machine

/-- PG_CTRL of every page reads as in k. -/
def State.CtrlKept (k s : State) : Prop := ∀ p, s.reg p Reg.pgCtrl = k.reg p Reg.pgCtrl

theorem State.CtrlKept.refl (s : State) : s.CtrlKept s := fun _ => rfl

theorem State.CtrlKept.of_regs {k s t : State} (h : t.regs = s.regs) (hs : k.CtrlKept s) : k.CtrlKept t := fun p => by
  rw [State.reg, h]
  exact hs p

variable {k : State}

theorem State.setReg_ctrl {s : State} {p o : Nat} (ho : o % 0x10000 ≠ 8) (v : Word) (hs : k.CtrlKept s) :
    k.CtrlKept (s.setReg p o v) := fun q => by
  rw [State.reg_setReg_ne _ _ (by simp only [regKey, Reg.pgCtrl]; omega)]
  exact hs q

theorem State.count_ctrl {s : State} {p o : Nat} (ho : o % 0x10000 ≠ 8) (n : Nat) (hs : k.CtrlKept s) :
    k.CtrlKept (s.count p o n) := State.setReg_ctrl ho _ hs

theorem State.count64_ctrl {s : State} {p o : Nat} (ho : o % 0x10000 ≠ 8) (ho' : (o + 4) % 0x10000 ≠ 8) (n : Nat)
    (hs : k.CtrlKept s) : k.CtrlKept (s.count64 p o n) := State.setReg_ctrl ho' _ (State.setReg_ctrl ho _ hs)

theorem State.raise_ctrl {s : State} (p i : Nat) (hs : k.CtrlKept s) : k.CtrlKept (s.raise p i) := fun q => by
  rw [State.raise_reg s p i (by decide) (by decide) (by decide)]
  exact hs q

theorem State.raiseIf_ctrl {s : State} (b : Bool) (p i : Nat) (hs : k.CtrlKept s) : k.CtrlKept (s.raiseIf b p i) := by
  cases b
  · exact hs
  · exact State.raise_ctrl p i hs

theorem State.setWood_ctrl {s : State} (h : Nat) (w : WoodS) (hs : k.CtrlKept s) : k.CtrlKept (s.setWood h w) :=
  hs.of_regs (State.setWood_regs s h w)

theorem State.setEmW_ctrl {s : State} (h loc i : Nat) (v : Word) (hs : k.CtrlKept s) : k.CtrlKept (s.setEmW h loc i v) :=
  hs.of_regs ((State.setEmW_same (fs := 0x40) (.refl _) s h loc i v (.refl _ s)).regs rfl)

theorem State.lateAnswer_ctrl {s : State} (h : Nat) (r : FgRun) (a : Answer) (hs : k.CtrlKept s) :
    k.CtrlKept (s.lateAnswer h r a) :=
  hs.of_regs ((State.lateAnswer_same (fs := 0x800000000) (.refl _) s h r a (.refl _ s)).regs rfl)

/-! ### Journals and answers (R198, R206) -/

theorem State.journal_ctrl {s : State} (h n : Nat) (r : FgRun) (exit : Nat) (hs : k.CtrlKept s) :
    k.CtrlKept (s.journal h n r exit) := by
  unfold State.journal
  iterate 8 refine State.setReg_ctrl (by decide) _ ?_
  exact hs

theorem State.bgYield_ctrl {s : State} (h : Nat) (hs : k.CtrlKept s) : k.CtrlKept (s.bgYield h) := by
  unfold State.bgYield
  dsimp only
  split
  · exact hs
  · exact State.count_ctrl (by decide) _ (State.setReg_ctrl (by decide) _ hs)

theorem State.halfDone_ctrl {s : State} (h : Nat) (a : Answer) (hs : k.CtrlKept s) : k.CtrlKept (s.halfDone h a) :=
  State.raiseIf_ctrl _ _ _ (State.count64_ctrl (by decide) (by decide) _ hs)

/-! ### Learning (R190 to R197) -/

theorem State.putNotice_ctrl {s t : State} {ws : List Word} (ht : s.putNotice ws = some t) (hs : k.CtrlKept s) :
    k.CtrlKept t := by
  unfold State.putNotice at ht
  extract_lets q a s1 s2 s3 s4 at ht
  split at ht
  · obtain rfl := Option.some.inj ht
    have h4 : k.CtrlKept s4 := State.count64_ctrl (by decide) (by decide) _ (State.setReg_ctrl (by decide) _ hs)
    exact h4.of_regs ((State.hqCompleted_same (fs := 0x800000008) (.refl _) s4 152 false (.refl _ s4)).regs rfl)
  · cases ht

theorem State.notice_ctrl {s : State} (ws : List Word) {p o : Nat} (ho : o % 0x10000 ≠ 8) (hs : k.CtrlKept s) :
    k.CtrlKept (s.notice ws p o) := by
  unfold State.notice
  split
  · next h => exact State.putNotice_ctrl h hs
  · exact State.count_ctrl ho _ (State.count_ctrl (by decide) _ hs)

theorem State.learnNotice_ctrl {s : State} (n t : Nat) (key : List Byte) (new old : Nat) (hs : k.CtrlKept s) :
    k.CtrlKept (s.learnNotice n t key new old) := by
  unfold State.learnNotice
  split
  · exact State.notice_ctrl _ (by decide) hs
  · exact hs

theorem State.placeEntry_ctrl {s u : State} {h t : Nat} {key : List Byte} {res : Nat} {ctrl : Word} {l : Nat}
    (hu : s.placeEntry h t key res ctrl = some (u, l)) (hs : k.CtrlKept s) : k.CtrlKept u := by
  unfold State.placeEntry at hu
  split at hu
  · cases hu
  · next s1 loc hroom =>
    obtain ⟨rfl, -⟩ := Prod.mk.inj (Option.some.inj hu)
    have hmem := State.writeEntry_same (fs := 0x40) (.refl _) s1 h loc t key res ctrl
      (State.makeRoom_same (.refl _) hroom (.refl _ s))
    exact State.raiseIf_ctrl _ _ _ (hs.of_regs (hmem.regs rfl))

theorem State.learnNew_ctrl {s : State} (t : Nat) (key : List Byte) (src : Nat) (hs : k.CtrlKept s) :
    k.CtrlKept (s.learnNew t key src) := by
  unfold State.learnNew
  split
  · exact State.raise_ctrl _ _ (State.count_ctrl (by decide) _ hs)
  · next u _ hu =>
    have h1 : k.CtrlKept (u.count64 (pgLearn 0) Reg.lrLearned 1) :=
      State.count64_ctrl (by decide) (by decide) _ (State.placeEntry_ctrl hu hs)
    exact State.learnNotice_ctrl _ _ _ _ _ (h1.of_regs
      ((State.tellEast_same (fs := 0x40000000) (.refl _) _ t key _ 0 (.refl _ _)).regs rfl))

theorem State.learnMove_ctrl {s : State} (t : Nat) (key : List Byte) (src loc old : Nat) (hs : k.CtrlKept s) :
    k.CtrlKept (s.learnMove t key src loc old) := by
  unfold State.learnMove
  extract_lets d m s1 s2 s3
  have h1 : k.CtrlKept s1 := hs.of_regs ((State.setDamp_same (fs := 0x40) (.refl _) s 0 loc m.2 (.refl _ s)).regs rfl)
  split
  · have h2 : k.CtrlKept s2 := State.count64_ctrl (by decide) (by decide) _
      (h1.of_regs ((State.moveDest_same (fs := 0x40) (.refl _) s1 0 loc src (.refl _ s1)).regs rfl))
    exact State.learnNotice_ctrl _ _ _ _ _ (h2.of_regs
      ((State.tellEast_same (fs := 0x40000000) (.refl _) s2 t key _ _ (.refl _ _)).regs rfl))
  · have h3 : k.CtrlKept s3 := State.raise_ctrl _ _ (State.count_ctrl (by decide) _ h1)
    split
    · exact h3
    · exact State.learnNotice_ctrl _ _ _ _ _ h3

theorem State.learnProcess_ctrl {s : State} (x : LearnReq) (hs : k.CtrlKept s) : k.CtrlKept (s.learnProcess x) := by
  unfold State.learnProcess
  split
  · exact State.learnNew_ctrl _ _ _ hs
  · dsimp only
    split
    · exact hs
    · split
      · exact State.learnNotice_ctrl _ _ _ _ _ (State.raise_ctrl _ _ (State.count_ctrl (by decide) _ hs))
      · exact State.learnMove_ctrl _ _ _ _ _ hs

theorem State.learnTake_ctrl {s : State} (h : Nat) (hs : k.CtrlKept s) : k.CtrlKept (s.learnTake h) := by
  unfold State.learnTake
  dsimp only
  split
  · exact hs
  · split
    · exact State.raise_ctrl _ _ (State.count_ctrl (by decide) _ (hs.of_regs rfl))
    · exact State.learnProcess_ctrl _ (hs.of_regs rfl)

theorem State.eastTake_ctrl {s : State} (c : EastChange) (hs : k.CtrlKept s) : k.CtrlKept (s.eastTake c) := by
  unfold State.eastTake
  split
  · split
    · split
      · exact hs
      · refine hs.of_regs ?_
        exact (State.setDamp_same (fs := 0x40) (.refl _) _ 1 _ _ (State.moveDest_same (.refl _) s 1 _ _ (.refl _ s))).regs rfl
    · split
      · next hu => exact State.placeEntry_ctrl hu hs
      · exact hs
  · split
    · exact hs
    · exact State.setEmW_ctrl _ _ _ _ hs
  · split
    · exact hs
    · exact hs.of_regs ((State.clearEntry_same (fs := 0x40) (.refl _) s 1 _ (.refl _ s)).regs rfl)
  · exact hs

theorem State.eastApply_ctrl {s : State} (hs : k.CtrlKept s) : k.CtrlKept s.eastApply := by
  unfold State.eastApply
  split
  · exact hs
  · exact State.eastTake_ctrl _ (hs.of_regs rfl)

theorem State.learnServe_ctrl {s : State} (h n : Nat) (hs : k.CtrlKept s) : k.CtrlKept (s.learnServe h n) := by
  induction n generalizing s with
  | zero => exact hs
  | succ n ih =>
    refine ih ?_
    split
    · split
      · exact State.eastApply_ctrl hs
      · exact hs
    · split
      · exact State.learnTake_ctrl 1 hs
      · exact State.learnTake_ctrl 0 hs

/-! ### The routines (R182 to R186, R206 to R208) -/

theorem State.bulkStep_ctrl {s : State} (h : Nat) (r : FgRun) (hs : k.CtrlKept s) : k.CtrlKept (s.bulkStep h r).1 := by
  unfold State.bulkStep
  extract_lets op t ls x r'
  have hx : k.CtrlKept x.1 := hs.of_regs ((State.bulkEach_same (fs := 0x40) (.refl _) s h op t r.blk ls (.refl _ s)).regs rfl)
  split
  · exact hx
  · exact State.learnServe_ctrl _ _ hx

theorem State.bulkRun_ctrl {s : State} (h : Nat) (r : FgRun) (n : Nat) (hs : k.CtrlKept s) :
    k.CtrlKept (s.bulkRun h r n).1 := by
  induction n generalizing s r with
  | zero => exact hs
  | succ n ih =>
    unfold State.bulkRun
    dsimp only
    split
    · exact State.bulkStep_ctrl h r hs
    · exact ih _ (State.bulkStep_ctrl h r hs)

theorem State.emChange_ctrl {s : State} (h t : Nat) (key : List Byte) (res : Nat) (static : Bool) (c : Change)
    (hs : k.CtrlKept s) : k.CtrlKept (s.emChange h t key res static c).1 := by
  cases c with
  | stop st => exact hs
  | nothing => exact hs
  | rewrite l =>
    exact hs.of_regs ((State.setResult_same (fs := 0x40) (.refl _) s h l res (.refl _ s)).regs rfl)
  | place staged kill =>
    have h0 : k.CtrlKept (match kill with
        | some l => s.setEmW h l 8 (put (s.emW h l 8) 18 3 (ringTag (some s.rings.staging.val)))
        | none => s) := by
      split
      · exact State.setEmW_ctrl _ _ _ _ hs
      · exact hs
    dsimp only [State.emChange]
    split
    · next hu => exact State.placeEntry_ctrl hu h0
    · exact hs
  | kill l => exact State.setEmW_ctrl _ _ _ _ hs
  | remove l => exact hs.of_regs ((State.clearEntry_same (fs := 0x40) (.refl _) s h l (.refl _ s)).regs rfl)

theorem State.emWrite_ctrl {s : State} (h op t : Nat) (staged : Bool) (blk : List Byte) (hs : k.CtrlKept s) :
    k.CtrlKept (s.emWrite h op t staged blk).1 := by
  unfold State.emWrite
  dsimp only
  split
  · exact State.emChange_ctrl _ _ _ _ _ _ hs
  · exact hs

theorem State.setLpm_ctrl {s : State} (h : Nat) (l : List LpmPfx) (hs : k.CtrlKept s) : k.CtrlKept (s.setLpm h l) :=
  State.raiseIf_ctrl _ _ _ (State.setWood_ctrl _ _ hs)

theorem State.lpmChange_ctrl {s : State} (h : Nat) (x : LpmPfx) (c : Change) (hs : k.CtrlKept s) :
    k.CtrlKept (s.lpmChange h x c).1 := by
  cases c with
  | stop st => exact hs
  | nothing => exact hs
  | rewrite i => exact State.setLpm_ctrl _ _ hs
  | place staged kill =>
    dsimp only [State.lpmChange]
    split
    · exact State.raise_ctrl _ _ hs
    · exact State.setLpm_ctrl _ _ hs
  | kill i => exact State.setLpm_ctrl _ _ hs
  | remove i => exact State.setLpm_ctrl _ _ hs

theorem State.lpmWrite_ctrl {s : State} (h op n : Nat) (staged : Bool) (blk : List Byte) (hs : k.CtrlKept s) :
    k.CtrlKept (s.lpmWrite h op n staged blk).1 := by
  unfold State.lpmWrite
  extract_lets len a v c
  split
  · exact State.lpmChange_ctrl _ _ _ hs
  · exact hs

theorem State.lpmRead_fst (s : State) (h n : Nat) (blk : List Byte) : (s.lpmRead h n blk).1 = s := by
  unfold State.lpmRead
  split <;> rfl

theorem State.emRead_fst (s : State) (h t : Nat) (blk : List Byte) : (s.emRead h t blk).1 = s := by
  unfold State.emRead
  split <;> rfl

theorem State.routine_ctrl {s : State} (h : Nat) (r : FgRun) (hs : k.CtrlKept s) : k.CtrlKept (s.routine h r).1 := by
  unfold State.routine
  extract_lets ws op t one x
  split
  · exact hs
  split
  · exact hs
  split
  · exact (s.emRead_fst h t r.blk).symm ▸ hs
  split
  · exact (s.lpmRead_fst h (t - 0x40) r.blk).symm ▸ hs
  split
  · exact State.lpmWrite_ctrl _ _ _ _ _ hs
  split
  · exact hs.of_regs ((State.tcHalf_same (fs := 0x40) (.refl _) s h op _ _ _ (.refl _ s)).regs rfl)
  split
  · exact State.bulkRun_ctrl h r _ hs
  · exact State.emWrite_ctrl _ _ _ _ _
      (hs.of_regs ((State.pathEnd_same (fs := 0x40) (.refl _) s h r.path r.step (.refl _ s)).regs rfl))

theorem State.fgRun_ctrl {s : State} (h : Nat) (r : FgRun) (hs : k.CtrlKept s) : k.CtrlKept (s.fgRun h r).1 := by
  unfold State.fgRun
  extract_lets x s1
  have hx : k.CtrlKept x.1 := State.routine_ctrl h r (State.bgYield_ctrl h hs)
  have h1 : k.CtrlKept s1 := State.journal_ctrl _ _ _ _ hx
  exact State.halfDone_ctrl _ _ (State.setWood_ctrl _ _ h1)

theorem State.fgAll_ctrl {s : State} (h : Nat) (l : List FgRun) (hs : k.CtrlKept s) : k.CtrlKept (s.fgAll h l) := by
  induction l generalizing s with
  | nil => exact hs
  | cons r rs ih => exact ih (State.lateAnswer_ctrl _ _ _ (State.fgRun_ctrl h (s.fgPlan h r) hs))

theorem State.fgResume_ctrl {s : State} (h : Nat) (hs : k.CtrlKept s) : k.CtrlKept (s.fgResume h) := by
  unfold State.fgResume
  split
  · exact hs
  · split
    · exact State.setWood_ctrl _ _ hs
    · exact State.fgAll_ctrl _ _ (State.setWood_ctrl _ _ (State.lateAnswer_ctrl _ _ _ (State.fgRun_ctrl h _ hs)))

theorem State.fgEnable_ctrl {s : State} (h : Nat) (hs : k.CtrlKept s) : k.CtrlKept (s.fgEnable h) := by
  unfold State.fgEnable
  split
  · exact State.fgResume_ctrl h hs
  · exact hs

/-- What an ENABLE that rises lets go on leaves PG_CTRL of every page. -/
theorem State.enableSettle_ctrl {s : State} (p : Nat) (hs : k.CtrlKept s) : k.CtrlKept (s.enableSettle p) := by
  unfold State.enableSettle
  split
  · exact State.fgEnable_ctrl _ hs
  · exact State.fgEnable_ctrl _ hs
  · exact State.fgEnable_ctrl _ hs
  · exact hs

end Sys2Proof.Machine
end

section
/-! SUPPORT. What the resets of a half, a slice and a block leave (17_reset_retained.md R451 to R457). -/

namespace Sys2Proof.Machine

/-! ### A half (R456) -/

/-- A half reset marks its half and no other. -/
theorem State.halfStart_halves (s : State) (h : Nat) :
    (s.halfStart h).rst.half0 = (s.rst.half0 || decide (h = 0))
    ∧ (s.halfStart h).rst.half1 = (s.rst.half1 || decide (h = 1)) := by
  unfold State.halfStart
  extract_lets s1 ids src s2 s3 s4 s5 w t s6 s7 s8 s9 o s10 b1 b2 s11
  have hm : State.Sub 0xfffffffffff 0xfffffffffff := .refl _
  have h1 : State.Same 0xfffffffffff s s1 := State.channelDown_same (.of rfl hm) _
    (State.portsGone_same (.of rfl hm) _ _ _ (State.portsStop_same (.of rfl hm) _ _ _ (.refl _ s)))
  have h2 : State.Same 0xfffffffffff s s2 := State.dropArrivals_same (.of rfl hm) _ _ _
    (State.moveHolders_same (.of rfl hm) _ _ _ _ (State.setPath_same (.of rfl hm) _ _ _ h1))
  have h3 : State.Same 0xfffffffffff s s3 := State.dropPipes_same (.of rfl hm) _ _ (State.deckClear_same (.of rfl hm) _ _ h2)
  have h4 : State.Same 0xfffffffffff s s4 := State.fgLost_same (.of rfl hm) _ _ _ h3
  have h5 : State.Same 0xfffffffffff s s5 := State.Same.upd_50 (.of rfl hm) h4
  clear_value s5
  have h8 : State.Same 0xfffffffffff s s8 := State.setHbm_same (.of rfl hm) _ _ _ (State.setMatrix_same (.of rfl hm) _ _ _
    (State.setTally_same (.of rfl hm) _ _ _ (State.setWood_same (.of rfl hm) _ _ _ h5)))
  have h9 : State.Same 0xfffffffffff s s9 := State.dropSel_same (.of rfl hm) _ _ (State.endReads_same (.of rfl hm) _ _ _ h8
    (fun _ h a => State.readLost_same (.of rfl hm) _ a h))
  have h10 : s10.rst = s.rst := (State.setPath_same (.of rfl hm) _ _ _ h9).rst rfl
  have h11 : s11.rst.half0 = (s.rst.half0 || decide (h = 0)) ∧ s11.rst.half1 = (s.rst.half1 || decide (h = 1)) := by
    rw [← h10]
    exact ⟨rfl, rfl⟩
  clear_value s11
  split
  · rw [(State.sweepReset_same (.of rfl hm) s11 _ _ (.refl _ s11)).rst rfl]
    exact h11
  · exact h11

/-- A half reset ends the Flume channel. -/
theorem State.channelDown_flumeUp (s : State) : s.channelDown.flumeUp = false := by
  unfold State.channelDown
  split
  · extract_lets raft s1
    exact (State.sourceMsg_same (fs := 0x8000000010) (.refl _) _ _ _ _ _ _
      (State.sourceMsg_same (.refl _) s1 _ _ _ _ _ (.refl _ s1))).flumeUp rfl
  · next h => exact Bool.eq_false_iff.mpr h

/-- What a half reset does after it has ended the channel leaves the channel as it is. -/
theorem State.halfStart_after {k : State} (s : State) (h : Nat)
    (h1 : State.Same 0x1ffffffffeff k ((s.portsStop false (halfPorts h)).portsGone (fun p => decide (portHalf p = h))
      (halfPorts h)).channelDown) :
    State.Same 0x1ffffffffeff k (s.halfStart h) := by
  unfold State.halfStart
  extract_lets s1 ids src s2 s3 s4 s5 w t s6 s7 s8 s9 o s10 b1 b2 s11
  have hm : State.Sub 0x1ffffffffeff 0x1ffffffffeff := .refl _
  have h2 : State.Same 0x1ffffffffeff k s2 := State.dropArrivals_same (.of rfl hm) _ _ _
    (State.moveHolders_same (.of rfl hm) _ _ _ _ (State.setPath_same (.of rfl hm) _ _ _ h1))
  have h3 : State.Same 0x1ffffffffeff k s3 := State.dropPipes_same (.of rfl hm) _ _ (State.deckClear_same (.of rfl hm) _ _ h2)
  have h4 : State.Same 0x1ffffffffeff k s4 := State.fgLost_same (.of rfl hm) _ _ _ h3
  have h5 : State.Same 0x1ffffffffeff k s5 := State.Same.upd_50 (.of rfl hm) h4
  clear_value s5
  have h8 : State.Same 0x1ffffffffeff k s8 := State.setHbm_same (.of rfl hm) _ _ _ (State.setMatrix_same (.of rfl hm) _ _ _
    (State.setTally_same (.of rfl hm) _ _ _ (State.setWood_same (.of rfl hm) _ _ _ h5)))
  have h9 : State.Same 0x1ffffffffeff k s9 := State.dropSel_same (.of rfl hm) _ _ (State.endReads_same (.of rfl hm) _ _ _ h8
    (fun _ h a => State.readLost_same (.of rfl hm) _ a h))
  have h10 : State.Same 0x1ffffffffeff k s10 := State.setPath_same (.of rfl hm) _ _ _ h9
  have h11 : State.Same 0x1ffffffffeff k s11 := State.Same.upd_108000000080 (.of rfl hm) h10
  clear_value s11
  split
  · exact State.sweepReset_same (.of rfl hm) _ _ _ h11
  · exact h11

theorem State.halfStart_flumeUp (s : State) (h : Nat) : (s.halfStart h).flumeUp = false :=
  ((State.halfStart_after s h (.refl _ _)).flumeUp rfl).trans (State.channelDown_flumeUp _)

/-- A half reset leaves no entry of the LPM tables in its half. -/
theorem State.halfStart_lpm (s : State) (h : Nat) : ((s.halfStart h).woodOf h).lpm = [] := by
  unfold State.halfStart
  extract_lets s1 ids src s2 s3 s4 s5 w t s6 s7 s8 s9 o s10 b1 b2 s11
  have hm : State.Sub 0x1fffdfffffff 0x1fffdfffffff := .refl _
  have h6 : (s6.woodOf h).lpm = [] := congrArg WoodS.lpm (State.woodOf_setWood s5 h _)
  clear_value s6
  have h8 : State.Same 0x1fffdfffffff s6 s8 := State.setHbm_same (.of rfl hm) _ _ _ (State.setMatrix_same (.of rfl hm) _ _ _
    (State.setTally_same (.of rfl hm) _ _ _ (.refl _ s6)))
  have h9 : State.Same 0x1fffdfffffff s6 s9 := State.dropSel_same (.of rfl hm) _ _ (State.endReads_same (.of rfl hm) _ _ _ h8
    (fun _ h a => State.readLost_same (.of rfl hm) _ a h))
  have h10 : State.Same 0x1fffdfffffff s6 s10 := State.setPath_same (.of rfl hm) _ _ _ h9
  have h11 : State.Same 0x1fffdfffffff s6 s11 := State.Same.upd_108000000080 (.of rfl hm) h10
  clear_value s11
  have hw (u : State) (hu : State.Same 0x1fffdfffffff s6 u) : (u.woodOf h).lpm = [] := by
    rw [State.woodOf, hu.wood rfl]
    exact h6
  split
  · exact hw _ (State.sweepReset_same (.of rfl hm) _ _ _ h11)
  · exact hw _ h11

/-- What a half leaves that comes back (R456). -/
structure State.HalfBack (s t : State) (h : Nat) : Prop where
  up : t.halfUp h = true
  ready : (t.hbmOf h).st = .ready
  channel : t.flumeUp = true
  lpm : (t.woodOf h).lpm = (s.woodOf (1 - h)).lpm

theorem State.channelUp_flumeUp (s : State) : s.channelUp.flumeUp = true := by
  unfold State.channelUp
  split
  · assumption
  · extract_lets held raft lo s1 s2
    have h2 : State.Same 0x8000000010 s1 s2 := State.sourceMsg_same (.refl _) _ _ _ _ _ _
      (State.sourceMsg_same (.refl _) _ _ _ _ _ _ (State.sendHeld_same (.refl _) s1 held (.refl _ s1)))
    have hm : State.Sub 0x18000020010 0x18000020010 := .refl _
    exact ((State.peerHolds_same (.of rfl hm) _ (State.tellFailed_same (.of rfl hm) _
      (State.eastLevels_same (.of rfl hm) s2 (.refl _ s2)))).flumeUp rfl).trans (h2.flumeUp rfl)

theorem State.refill_lpm (s : State) (h : Nat) : ((s.refill h).woodOf h).lpm = (s.woodOf (1 - h)).lpm := by
  unfold State.refill
  extract_lets g s1 s2
  have hm : State.Sub 0x8040000050 0x8040000050 := .refl _
  have h1 : State.Same 0x8040000050 s s1 := by
    dsimp only [s1]
    split
    · exact State.eastTakeAll_same (.of rfl hm) _ _ (State.Same.upd_40000000 (.of rfl hm) (.refl _ s))
    · exact State.Same.upd_40000000 (.of rfl hm) (.refl _ s)
  have h2 : State.Same 0x8040000050 s s2 := State.refillAll_same (.of rfl hm) _ _ _ _ h1
  rw [State.woodOf_setWood, State.woodOf, h2.wood rfl]
  rfl

/-- What the half does once its tables are refilled. -/
def State.halfRest (s : State) (h : Nat) : State :=
  let s := (s.sweepAgain h).mapLate h
  let s := if h = 1 then { s with raft := { s.raft with east := s.raftWest } } else s
  (s.raise pgReset evHalfDone).portsStart (halfPorts h)

theorem State.halfReady_rest {s : State} {h : Nat} (hdown : s.halfUp h = false) :
    ∃ s1 : State, s1 = { s with rst := { s.rst with
        half0 := s.rst.half0 && decide (h ≠ 0), half1 := s.rst.half1 && decide (h ≠ 1) } }
      ∧ s.halfReady h
        = (((s1.setHbm h { s1.hbmOf h with st := .ready }).initStill h).channelUp.refill h).halfRest h := by
  refine ⟨_, rfl, ?_⟩
  rw [State.halfReady, if_neg (by rw [hdown]; decide)]
  dsimp only [State.halfRest]

theorem State.halfRest_same {fs : Nat} {k : State} (hm : State.Sub 0x2d31e023a50 fs) (s : State) (h : Nat)
    (hs : State.Same fs k s) : State.Same fs k (s.halfRest h) := by
  unfold State.halfRest
  extract_lets s1 raft s2
  have h1 : State.Same fs k s1 := State.mapLate_same (.of rfl hm) _ _ (State.sweepAgain_same (.of rfl hm) _ _ hs)
  have h2 : State.Same fs k s2 := State.Same.ite (State.Same.upd_4000000000 (.of rfl hm) h1) h1
  exact State.portsStart_same (.of rfl hm) _ _ (State.raise_same (.of rfl hm) _ _ _ h2)

/-- A half reset that completes brings back its half (R456). -/
theorem State.halfReady_back {s : State} {h : Nat} (hh : h < 2) (hdown : s.halfUp h = false) :
    s.HalfBack (s.halfReady h) h := by
  obtain ⟨s1, hs1, hback⟩ := State.halfReady_rest hdown
  rw [hback]
  have hup : s1.halfUp h = true := by
    obtain rfl | rfl : h = 0 ∨ h = 1 := by omega
    · simp [hs1, State.halfUp]
    · simp [hs1, State.halfUp]
  have hw1 : s1.wood = s.wood := by rw [hs1]
  generalize hs2 : s1.setHbm h { s1.hbmOf h with st := .ready } = s2
  have hready : (s2.hbmOf h).st = .ready := by rw [← hs2, State.hbmOf_setHbm]
  have hr2 : s2.rst = s1.rst := by rw [← hs2]; rfl
  have hw2 : s2.wood = s.wood := by rw [← hs2, ← hw1]; rfl
  have hi : State.Same 0x8002080014 s2 (s2.initStill h) := State.initStill_same (.refl _) _ _ (.refl _ s2)
  have hmw : State.Sub 0x1c0020a0114 0x1c0020a0114 := .refl _
  have hu : State.Same 0x1c0020a0114 s2 (s2.initStill h).channelUp :=
    State.channelUp_same (.of rfl hmw) _ (State.initStill_same (.of rfl hmw) _ _ (.refl _ s2))
  have hma : State.Sub 0xffbffffffff 0xffbffffffff := .refl _
  have hall : State.Same 0xffbffffffff s2 (((s2.initStill h).channelUp.refill h).halfRest h) :=
    State.halfRest_same (.of rfl hma) _ _ (State.refill_same (.of rfl hma) _ _
      (State.channelUp_same (.of rfl hma) _ (State.initStill_same (.of rfl hma) _ _ (.refl _ s2))))
  have hmf : State.Sub 0x1ffffffffeff 0x1ffffffffeff := .refl _
  have hch : State.Same 0x1ffffffffeff (s2.initStill h).channelUp (((s2.initStill h).channelUp.refill h).halfRest h) :=
    State.halfRest_same (.of rfl hmf) _ _ (State.refill_same (.of rfl hmf) _ _ (.refl _ _))
  refine ⟨?_, ?_, ?_, ?_⟩
  · rw [State.halfUp, hall.rst rfl, hr2]
    exact hup
  · rw [State.hbmOf, hall.hbm rfl]
    exact hready
  · rw [hch.flumeUp rfl]
    exact State.channelUp_flumeUp _
  · rw [State.woodOf, (State.halfRest_same (.refl _) _ h (.refl _ _)).wood rfl]
    refine (State.refill_lpm _ h).trans ?_
    rw [State.woodOf, hu.wood rfl, hw2]
    rfl

/-! ### A slice (R457) -/

theorem State.sliceUp_of_get {s : State} {sl : Nat} (h : AMap.get false s.rst.slices sl = true) : s.sliceUp sl = false := by
  rw [State.sliceUp, h]
  rfl

/-- A slice reset takes its slice down. -/
theorem State.sliceStart_down (s : State) (sl : Nat) : (s.sliceStart sl).sliceUp sl = false := by
  unfold State.sliceStart
  extract_lets s1 s2 h i s3
  exact State.sliceUp_of_get (AMap.get_set_same false s3.rst.slices sl true)

/-- A slice reset that completes brings the slice back. -/
theorem State.sliceReady_up {s : State} {sl : Nat} (hdown : AMap.get false s.rst.slices sl = true)
    (hh : s.halfUp (sliceHalf sl) = true) : (s.sliceReady sl).sliceUp sl = true := by
  rw [State.sliceReady, if_pos hdown]
  extract_lets s1 b r s2 s3
  have hm : State.Sub 0xfffffffffff 0xfffffffffff := .refl _
  have h1 : s1.rst = s.rst := (State.resetPages_same (fs := 0x8000000090) (.refl _) _ _ _ (.refl _ s)).rst rfl
  have h2 : s2.rst = { s.rst with slices := AMap.set false s.rst.slices sl false } := by rw [← h1]
  clear_value s2
  have h3 : State.Same 0xfffffffffff s2 s3 :=
    State.endReads_same (.of rfl hm) _ _ _ (.refl _ s2) (fun _ h a => State.readInReset_same (.of rfl hm) _ a h)
  have h4 := (State.portsStart_same (.of rfl hm) _ (sliceSlots sl) (State.raise_same (.of rfl hm) _ pgReset evSliceDone h3)).rst rfl
  rw [State.sliceUp, State.halfUp, h4, h2]
  simp only [AMap.get_set_same, Bool.not_false, Bool.true_and]
  exact hh

/-! ### A block (R451, R452) -/

theorem State.blockUp_of_get {s : State} {p : Nat} {b : Bool} (h : AMap.get false s.rst.blocks p = b) :
    s.blockUp p = !b := by rw [State.blockUp, h]

/-- A block reset that begins takes its block down. -/
theorem State.blockBegin_down (s : State) (p : Nat) : (s.blockBegin p).blockUp p = false := by
  unfold State.blockBegin
  extract_lets s1 rst
  refine State.blockUp_of_get (b := true) ?_
  rw [(State.blockEnter_same (.refl _) _ p (.refl _ _)).rst rfl]
  exact AMap.get_set_same false _ p true

/-- A block reset asked for by a write begins at once, unless a reset holds the page or is under way, or a parser swaps its bank. -/
theorem State.blockStart_down {s : State} {p : Nat} (hblk : (pageBlk p).isSome = true) (hig : blkIgnores p = false)
    (hst : s.starting = false) (hin : s.pageInReset p = false) (hup : s.blockUp p = true) (hreq : s.rbit p 0x08 0 = false)
    (hswap : ∀ sl, pageBlk p = some .parser → pageSlice p = some sl → (s.slice sl).swap = false) :
    (s.blockStart p).blockUp p = false := by
  rw [State.blockStart, if_neg (by simp [Option.isSome_iff_ne_none.1 hblk, hig]), if_neg (by simp [hst, hin, hup, hreq])]
  split
  · next sl hb hsl =>
    rw [if_neg (by simp [hswap sl hb hsl])]
    exact State.blockBegin_down _ _
  · exact State.blockBegin_down _ _

/-- PG_CTRL is one word of every page, and a write of it may load it. -/
theorem pgCtrl_spec {p : Nat} (hblk : (pageBlk p).isSome = true) :
    isHigh p Reg.pgCtrl = false ∧ isWide p Reg.pgCtrl = false ∧ readOnly p Reg.pgCtrl = false := by
  obtain ⟨b, hb⟩ := Option.isSome_iff_exists.1 hblk
  have h : regSpec p Reg.pgCtrl = some { off := 0x8, w := 0x3, lk := 0x2, ret := 0x2, init := 0x2 } := by
    rw [regSpec, hb]
    rfl
  refine ⟨?_, ?_, ?_⟩
  · rw [isHigh, h]
    rfl
  · rw [isWide, h]
    rfl
  · rw [readOnly, h]
    rfl

/-- BLK_RST written as 1 starts a block reset where no reset holds the page or is under way (R451). -/
theorem State.writeAt_blkRst {s : State} {p : Nat} (r : Requester) {v : Word} (hv : bit v 0 = true)
    (hblk : (pageBlk p).isSome = true) (hig : blkIgnores p = false) (hst : s.starting = false)
    (hin : s.pageInReset p = false) (hup : s.blockUp p = true) (hreq : s.rbit p 0x08 0 = false)
    (hswap : ∀ sl, pageBlk p = some .parser → pageSlice p = some sl → (s.slice sl).swap = false) :
    (s.writeAt r p Reg.pgCtrl v).blockUp p = false := by
  obtain ⟨hhigh, hwide, -⟩ := pgCtrl_spec hblk
  have hlow : Reg.pgCtrl < 0x20 := by decide
  rw [State.writeAt, hhigh, hwide, if_neg Bool.false_ne_true, if_neg Bool.false_ne_true, State.writeReg, if_pos hlow,
    State.writeHeader, if_pos rfl]
  extract_lets s1
  rw [if_pos hv]
  have h1 : State.Same 0x8860000058 s s1 := State.enableSettle_same (.refl _) _ p
    (State.setReg_same (.of rfl (.refl _)) _ _ _ _ (.refl _ s))
  have hctrl : s1.reg p Reg.pgCtrl = put (s.reg p Reg.pgCtrl) 1 1 (fld (s.masked p Reg.pgCtrl v) 1 1) :=
    (State.enableSettle_ctrl p (.refl _) p).trans (State.reg_setReg _ _ _ _)
  clear_value s1
  have hrst := h1.rst rfl
  have hslices := h1.slices rfl
  refine State.blockStart_down hblk hig ?_ ?_ ?_ ?_ ?_
  · rw [State.starting, hrst]
    exact hst
  · simp only [State.pageInReset, State.halfUp, hrst]
    exact hin
  · rw [State.blockUp, hrst]
    exact hup
  · refine (congrArg (bit · 0) hctrl).trans ((bit_put_lt _ (by decide) (by decide)).trans hreq)
  · intro sl hb hsl
    rw [State.slice, hslices]
    exact hswap sl hb hsl

/-- A block reset that completes brings its block back (R452). -/
theorem State.blockDone_up {s : State} {p : Nat} (hdown : s.blockUp p = false)
    (hswap : ∀ sl, pageBlk p = some .parser → pageSlice p = some sl → (s.slice sl).swap = false) :
    (s.blockDone p).blockUp p = true := by
  unfold State.blockDone
  extract_lets waited swapping s1 rst s2 s3 s4
  have hw : waited = false := by simp [waited, hdown]
  have hs : swapping = false := by
    dsimp only [swapping]
    split
    · next sl hb hsl => exact hswap sl hb hsl
    · rfl
  rw [if_neg (by simp [hdown]), hs, if_neg Bool.false_ne_true, hw, if_neg Bool.false_ne_true]
  refine State.blockUp_of_get (b := false) ?_
  have hm : State.Sub 0xfffffffffff 0xfffffffffff := .refl _
  rw [(State.blockLeave_same (.of rfl hm) _ p (State.setRf_same (.of rfl hm) _ p 0x08 0 1 0
    (State.resetPage_same (.of rfl hm) s2 p false (keptRegs p) (.refl _ s2)))).rst rfl]
  exact AMap.get_set_same false _ p false

/-! ### The Flume channel (01_architecture.md R20, 14_lookout_faults.md R396) -/

/-- The channel is up, and the East half holds no message. -/
def State.NoneHeld (s : State) : Prop := s.flumeUp = true ∧ s.lookout.held = []

theorem State.NoneHeld.of_eq {s t : State} (h : s.NoneHeld) (hf : t.flumeUp = s.flumeUp)
    (hl : t.lookout.held = s.lookout.held) : t.NoneHeld := ⟨hf.trans h.1, hl.trans h.2⟩

theorem LookoutS.setQ_held (a : LookoutS) (k : MsgQueue) (l : List Message) : (a.setQ k l).held = a.held := by
  cases k <;> rfl

theorem State.enqueueMsg_noneHeld {s t : State} {m : Message} (h : s.NoneHeld) (ht : s.enqueueMsg m = some t) : t.NoneHeld := by
  unfold State.enqueueMsg at ht
  dsimp only at ht
  rw [if_neg (by simp [h.1])] at ht
  split at ht
  · obtain rfl := Option.some.inj ht
    exact h.of_eq rfl (LookoutS.setQ_held _ _ _)
  · cases ht

theorem State.missRise_noneHeld {s : State} (n : Nat) (h : s.NoneHeld) : (s.missRise n).NoneHeld := h.of_eq rfl rfl

theorem State.setReg_noneHeld {s : State} (p o : Nat) (v : Word) (h : s.NoneHeld) : (s.setReg p o v).NoneHeld := h

theorem State.msgLost_noneHeld {s : State} (h : s.NoneHeld) : s.msgLost.NoneHeld := by
  unfold State.msgLost
  extract_lets u old v
  have hu : u.NoneHeld := State.setReg_noneHeld _ _ _ h
  have hv : v.NoneHeld := State.setReg_noneHeld _ _ _ hu
  split
  · exact hu
  · split
    · split
      · next ht => exact State.enqueueMsg_noneHeld hv ht
      · refine State.setReg_noneHeld _ _ _ ?_
        split
        · exact State.missRise_noneHeld _ hv
        · exact hv
    · exact hv

theorem State.sendOn_noneHeld {s : State} (m : Message) (rose : Bool) (h : s.NoneHeld) : (s.sendOn m rose).NoneHeld := by
  unfold State.sendOn
  split
  · next ht => exact State.enqueueMsg_noneHeld h ht
  · refine State.msgLost_noneHeld ?_
    split
    · exact State.missRise_noneHeld _ h
    · exact h

theorem State.sendHeld_noneHeld {s : State} (l : List Message) (h : s.NoneHeld) : (s.sendHeld l).NoneHeld := by
  induction l generalizing s with
  | nil => exact h
  | cons m ms ih => exact ih (State.sendOn_noneHeld m false h)

theorem State.sourceMsg_noneHeld {s : State} (n code : Nat) (typ : MsgType) (kind : Nat) (info : Word) (h : s.NoneHeld) :
    (s.sourceMsg n code typ kind info).NoneHeld := by
  unfold State.sourceMsg
  cases typ with
  | rise => exact State.sendOn_noneHeld _ _ (h.of_eq rfl rfl)
  | fall => exact State.sendOn_noneHeld _ _ (h.of_eq rfl rfl)
  | pulse => exact State.sendOn_noneHeld _ _ h

theorem State.missAll_noneHeld {s : State} (l : List Nat) (h : s.NoneHeld) : (s.missAll l).NoneHeld := by
  induction l generalizing s with
  | nil => exact h
  | cons n ns ih =>
    refine ih ?_
    split
    · exact State.missRise_noneHeld _ h
    · exact h

theorem State.raiseIf_noneHeld {s : State} (b : Bool) (p i : Nat) (h : s.NoneHeld) : (s.raiseIf b p i).NoneHeld := by
  cases b with
  | false => exact h
  | true =>
    have h1 := State.setReg_noneHeld p 0x10 (evtRise (s.evt p) ([i].foldl (fun m i => m ||| 2 ^ i) 0)) h
    show (State.sendRises _ p (s.evt p) 0 [i]).NoneHeld
    simp only [State.sendRises]
    split
    · exact State.sendOn_noneHeld _ _ h1
    · exact h1

theorem State.tellFailed_noneHeld {s : State} (h : s.NoneHeld) : s.tellFailed.NoneHeld := by
  unfold State.tellFailed
  dsimp only
  split
  · exact State.raiseIf_noneHeld _ _ _ (h.of_eq rfl rfl)
  · exact h

theorem State.peerHolds_noneHeld {s : State} (h : s.NoneHeld) : s.peerHolds.NoneHeld := by
  have hp := State.peerHolds_same (fs := 0x20000) (.refl _) s (.refl _ s)
  exact h.of_eq (hp.flumeUp rfl) (congrArg LookoutS.held (hp.lookout rfl))

/-- A channel that comes back leaves nothing held and no copy of the other half's Raft records. -/
theorem State.channelUp_noneHeld {s : State} (hdown : s.flumeUp = false) :
    s.channelUp.NoneHeld ∧ s.channelUp.raft.far = [] := by
  rw [State.channelUp, if_neg (by simp [hdown])]
  extract_lets held raft lo s1 s2
  have h1 : s1.NoneHeld := ⟨rfl, rfl⟩
  have hr1 : s1.raft.far = [] := rfl
  clear_value s1
  have hm : State.Sub 0x18000020010 0x18000020010 := .refl _
  have hall : State.Same 0x18000020010 s1 s2.eastLevels.tellFailed.peerHolds :=
    State.peerHolds_same (.of rfl hm) _ (State.tellFailed_same (.of rfl hm) _ (State.eastLevels_same (.of rfl hm) _
      (State.sourceMsg_same (.of rfl hm) _ _ _ _ _ _ (State.sourceMsg_same (.of rfl hm) _ _ _ _ _ _
        (State.sendHeld_same (.of rfl hm) s1 held (.refl _ s1))))))
  refine ⟨?_, (congrArg RaftS.far (hall.raft rfl)).trans hr1⟩
  exact State.peerHolds_noneHeld (State.tellFailed_noneHeld (State.missAll_noneHeld _ (State.sourceMsg_noneHeld _ _ _ _ _
    (State.sourceMsg_noneHeld _ _ _ _ _ (State.sendHeld_noneHeld _ h1)))))

theorem State.channelDown_far {s : State} (hup : s.flumeUp = true) : s.channelDown.raft.far = s.raft.nbr := by
  rw [State.channelDown, if_pos hup]
  extract_lets raft s1
  exact congrArg RaftS.far ((State.sourceMsg_same (fs := 0x8000000010) (.refl _) _ _ _ _ _ _
    (State.sourceMsg_same (.refl _) s1 _ _ _ _ _ (.refl _ s1))).raft rfl)

/-! ### Start-up and restore (R453, R463) -/

/-- PHASE is WIPE once the fuses are loaded. -/
theorem State.enterWipe_phase {s : State} (h : s.rst.phase = .fuses ∨ s.rst.phase = .wipe) : s.enterWipe.rst.phase = .wipe := by
  unfold State.enterWipe
  split
  · extract_lets n wood tally s1 rst s2 s3
    have h2 : s2.rst.phase = .wipe := rfl
    clear_value s2
    have h3 : State.Same 0x10000000000 s2 s3 := State.extend_same (.refl _) _ _ _ (State.extend_same (.refl _) s2 _ _ (.refl _ s2))
    rw [(State.raiseIf_same (fs := 0x8000000010) (.refl _) s3 _ _ _ (.refl _ s3)).rst rfl, h3.rst rfl]
    exact h2
  · next hne => exact h.resolve_left hne

/-- At the end of the wipe both stacks are READY and both clusters load firmware (R453). -/
theorem State.enterBoot_boots {s : State} (h : s.rst.phase = .fuses ∨ s.rst.phase = .wipe) :
    s.enterBoot.rst.phase = .boot ∧ s.enterBoot.forester.west.st = .boot ∧ s.enterBoot.forester.east.st = .boot
    ∧ (s.enterBoot.hbmOf 0).st = .ready ∧ (s.enterBoot.hbmOf 1).st = .ready := by
  unfold State.enterBoot
  extract_lets s1
  have h1 : s1.rst.phase = .wipe := State.enterWipe_phase h
  clear_value s1
  rw [if_pos h1]
  exact ⟨rfl, rfl, rfl, rfl, rfl⟩

/-- The head starts restoring the chosen copy (R463). -/
theorem State.restoreStart_rst (s : State) (lane : List Byte) :
    (s.restoreStart lane).rst.phase = .restore ∧ (s.restoreStart lane).rst.restoring = true
    ∧ (s.restoreStart lane).rst.rsrc = (match s.mram.chosen with | some x => x.1 + 1 | none => 0) := by
  have hm : (s.restoreStart lane).mram = s.mram := (State.restoreStart_same (.refl _) s lane (.refl _ s)).mram rfl
  refine ⟨rfl, rfl, ?_⟩
  rw [← hm]
  rfl

theorem State.restoreEnd_run (s : State) : s.restoreEnd.rst.phase = .run ∧ s.restoreEnd.rst.restoring = false := by
  unfold State.restoreEnd
  extract_lets s1 src s2 s3 s4 r s5
  rw [State.raise_rst]
  exact ⟨rfl, rfl⟩

end Sys2Proof.Machine
end

section
/-! PROOF. The commands of resets do what 17_reset_retained.md says (O59). -/

namespace Sys2Proof.Machine

theorem State.ResetFrom.bus {s t u : State} {cause : Nat} (h : s.ResetFrom t cause) (hu : State.Same 0x80 t u) :
    s.ResetFrom u cause where
  cause := (congrArg RstS.cause (hu.rst rfl)).trans h.cause
  phase := (congrArg RstS.phase (hu.rst rfl)).trans h.phase
  mram := by rw [hu.mram rfl]; exact h.mram
  fuses := (hu.fuses rfl).trans h.fuses
  frames := (hu.frames rfl).trans h.frames

/-- A write of a RESET register that takes effect at once, and the state that it leaves. -/
theorem State.run_reset {s : State} {o : Nat} (v : Word) (hlive : s.live = true)
    (ho : o = Reg.rstChip ∨ o = Reg.rstHalf ∨ o = Reg.rstSlice) (hw : s.WritesNow .host pgReset o) :
    s.run (·.hostWrite pgReset o v) = .next (((s.wrReset o v).strictEnd s .host).keepQueue s) := by
  have ho' : o < 0x10000 := by obtain rfl | rfl | rfl := ho <;> decide
  have h := State.run_regWrite_now v hlive ho' hw
  rw [State.writeAt_reset s .host v ho] at h
  exact h

/-- A request during start-up is rejected with BUSY (R451). -/
theorem State.wrReset_busy {s : State} {o : Nat} {v : Word} (ho : o = Reg.rstChip ∨ o = Reg.rstHalf ∨ o = Reg.rstSlice)
    (hst : s.starting = true) (hkey : fld v 16 16 = 0x9204) : s.wrReset o v = s.rstReject rejBusy := by
  obtain rfl | rfl | rfl := ho
  · show s.rstChip v = _
    rw [State.rstChip, if_neg (by simp [hkey]), if_pos hst]
  · show s.rstHalf v = _
    rw [State.rstHalf, if_neg (by simp [hkey]), if_pos (.inl hst)]
  · show s.rstSlice v = _
    rw [State.rstSlice, if_neg (by simp [hkey]), if_pos (.inl hst)]

theorem State.run_reset_busy {s : State} {o : Nat} {v : Word} (hlive : s.live = true)
    (ho : o = Reg.rstChip ∨ o = Reg.rstHalf ∨ o = Reg.rstSlice) (hst : s.starting = true) (hkey : fld v 16 16 = 0x9204)
    (hw : s.WritesNow .host pgReset o) :
    ∃ t, s.run (·.hostWrite pgReset o v) = .next t ∧ t.rst = { s.rst with rej := rejBusy } := by
  refine ⟨_, State.run_reset v hlive ho hw, ?_⟩
  rw [State.wrReset_busy ho hst hkey]
  exact ((State.strictEnd_same (.refl _) _ s .host (.refl _ _)).rst rfl).trans (State.rstReject_rst s rejBusy)

/-- A write of RST_HALF with its key resets its half while both are up (R456). -/
theorem State.wrReset_half {s : State} {v : Word} (hst : s.starting = false) (hkey : fld v 16 16 = 0x9204)
    (h0 : s.halfUp 0 = true) (h1 : s.halfUp 1 = true) : s.wrReset Reg.rstHalf v = s.halfStart (fld v 0 1) := by
  have hx : fld v 0 1 < 2 := Nat.mod_lt _ (by decide)
  have hboth : s.halfUp (fld v 0 1) = true ∧ s.halfUp (1 - fld v 0 1) = true := by
    obtain hx | hx : fld v 0 1 = 0 ∨ fld v 0 1 = 1 := by omega
    · rw [hx]
      exact ⟨h0, h1⟩
    · rw [hx]
      exact ⟨h1, h0⟩
  show s.rstHalf v = _
  simp only [State.rstHalf, hkey, hst, hboth.1, hboth.2, ne_eq, not_true_eq_false, Bool.true_eq_false, or_self,
    Bool.false_eq_true, if_false]

/-- A half reset takes down its half and leaves the other up. -/
theorem State.halfStart_halfUp {s : State} {h : Nat} (hx : h < 2) (h0 : s.halfUp 0 = true) (h1 : s.halfUp 1 = true) :
    (s.halfStart h).halfUp h = false ∧ (s.halfStart h).halfUp (1 - h) = true := by
  obtain ⟨e0, e1⟩ := s.halfStart_halves h
  have u0 : s.rst.half0 = false := by simpa [State.halfUp] using h0
  have u1 : s.rst.half1 = false := by simpa [State.halfUp] using h1
  simp only [State.halfUp, e0, e1, u0, u1]
  obtain rfl | rfl : h = 0 ∨ h = 1 := by omega
  · exact ⟨rfl, rfl⟩
  · exact ⟨rfl, rfl⟩

theorem exec_rstHalf_now {s : State} {v : Word} (hlive : s.live = true) (hw : s.WritesNow .host pgReset Reg.rstHalf)
    (hst : s.starting = false) (hkey : fld v 16 16 = 0x9204) (h0 : s.halfUp 0 = true) (h1 : s.halfUp 1 = true) :
    ∃ t, exec (.rstHalf v) s = .next t ∧ t.halfUp (fld v 0 1) = false ∧ t.halfUp (1 - fld v 0 1) = true ∧ t.flumeUp = false
      ∧ (t.woodOf (fld v 0 1)).lpm = [] := by
  refine ⟨_, State.run_reset v hlive (.inr (.inl rfl)) hw, ?_⟩
  rw [State.wrReset_half hst hkey h0 h1]
  have hx : fld v 0 1 < 2 := Nat.mod_lt _ (by decide)
  generalize fld v 0 1 = h at hx
  have hend : State.Same 0x80 (s.halfStart h) ((s.halfStart h).strictEnd s .host) :=
    State.strictEnd_same (.refl _) _ s .host (.refl _ _)
  generalize (s.halfStart h).strictEnd s .host = u at hend
  have hup := State.halfStart_halfUp hx h0 h1
  simp only [State.halfUp, ← hend.rst rfl] at hup
  refine ⟨hup.1, hup.2, (hend.flumeUp rfl).trans (s.halfStart_flumeUp h), ?_⟩
  show (u.woodOf h).lpm = []
  rw [State.woodOf, hend.wood rfl]
  exact s.halfStart_lpm h

theorem State.Retains.mram_hist {s t : State} (h : s.Retains t) : t.mram = { s.mram with hist := t.mram.hist } := by
  obtain ⟨ha, hb, hs, -, -⟩ := h
  show t.mram = ⟨s.mram.copyA, s.mram.copyB, t.mram.hist, s.mram.sums⟩
  rw [← ha, ← hb, ← hs]

theorem exec_rstSlice_now {s : State} {v : Word} (hlive : s.live = true) (hw : s.WritesNow .host pgReset Reg.rstSlice)
    (hst : s.starting = false) (hkey : fld v 16 16 = 0x9204) (hup : s.sliceUp (fld v 0 5) = true) :
    ∃ t, exec (.rstSlice v) s = .next t ∧ t.sliceUp (fld v 0 5) = false ∧ t.mram = { s.mram with hist := t.mram.hist } := by
  have hslice : s.wrReset Reg.rstSlice v = s.sliceStart (fld v 0 5) := by
    show s.rstSlice v = _
    rw [State.rstSlice, if_neg (by simp [hkey]), if_neg (by simp [hst, hup])]
  refine ⟨_, State.run_reset v hlive (.inr (.inr rfl)) hw, ?_⟩
  rw [hslice]
  generalize fld v 0 5 = sl
  have hend : State.Same 0x80 (s.sliceStart sl) ((s.sliceStart sl).strictEnd s .host) :=
    State.strictEnd_same (.refl _) _ s .host (.refl _ _)
  generalize (s.sliceStart sl).strictEnd s .host = u at hend
  have hdown := s.sliceStart_down sl
  simp only [State.sliceUp, State.halfUp, ← hend.rst rfl] at hdown
  have hmram := (State.sliceStart_retains s sl (.refl s)).mram_hist
  rw [← hend.mram rfl] at hmram
  exact ⟨hdown, hmram⟩

theorem exec_rstChip_now {s : State} {v : Word} (hlive : s.live = true) (hw : s.WritesNow .host pgReset Reg.rstChip)
    (hst : s.starting = false) (hkey : fld v 16 16 = 0x9204) :
    ∃ t, exec (.rstChip v) s = .next t ∧ s.ResetFrom t causeReg
      ∧ t.reg pgReset Reg.rstCount = s.reg pgReset Reg.rstCount + 1 := by
  have hchip : s.wrReset Reg.rstChip v = s.chipReset causeReg := by
    show s.rstChip v = _
    rw [State.rstChip, if_neg (by simp [hkey]), if_neg (by simp [hst])]
  refine ⟨_, State.run_reset v hlive (.inl rfl) hw, ?_⟩
  rw [hchip]
  have hend : State.Same 0x80 (s.chipReset causeReg) ((s.chipReset causeReg).strictEnd s .host) :=
    State.strictEnd_same (.refl _) _ s .host (.refl _ _)
  obtain ⟨hcause, hphase, hmram, hfuses, hframes⟩ := (s.chipReset_from causeReg).bus hend
  exact ⟨⟨hcause, hphase, hmram, hfuses, hframes⟩,
    (State.strictEnd_reg _ s .host pgReset Reg.rstCount).trans (s.chipReset_rstCount causeReg)⟩

/-- The word that BLK_RST writes has BLK_RST set. -/
theorem bit_put_zero_one (w : Word) : bit (put w 0 1 1) 0 = true := by
  rw [bit_eq_fld, fld_put w 1 (by decide)]
  rfl

/-- BLK_RST written so that it takes effect at once. -/
theorem exec_blkRst_now {s : State} {req : Requester} {p : Nat} (hlive : s.live = true) (hw : s.WritesNow req p Reg.pgCtrl)
    (hdown : ∀ r, (s.writeAt r p Reg.pgCtrl (put (s.reg p Reg.pgCtrl) 0 1 1)).blockUp p = false) :
    ∃ t, exec (.blkRst ⟨req, p⟩) s = .next t ∧ t.blockUp p = false := by
  have hrun := State.run_live (fun s => s.regWrite req p Reg.pgCtrl (put (s.reg p Reg.pgCtrl) 0 1 1)) hlive
  rw [State.regWrite_now _ (by decide) hw] at hrun
  refine ⟨_, hrun, ?_⟩
  have h := hdown req
  rw [State.blockUp] at h ⊢
  rw [State.keepQueue_rst, (State.strictEnd_same (.refl _) _ s req (.refl _ _)).rst rfl]
  exact h

/-- BLK_RST of a slow page waits in the page's buffer, and takes effect when the write is performed (R50). -/
theorem exec_blkRst_posted {s : State} {req : Requester} {p : Nat} (hlive : s.live = true) (hp : s.Posts req p Reg.pgCtrl)
    (hup : s.blockUp p = true)
    (hdown : ∀ b r, (({ s with bus := b } : State).writeAt r p Reg.pgCtrl (put (s.reg p Reg.pgCtrl) 0 1 1)).blockUp p = false) :
    ∃ t u, exec (.blkRst ⟨req, p⟩) s = .next t ∧ t.blockUp p = true ∧ t.wbusy p = true
      ∧ exec (.postedWritePerformed p) t = .next u ∧ u.blockUp p = false := by
  have hrun := State.run_live (fun s => s.regWrite req p Reg.pgCtrl (put (s.reg p Reg.pgCtrl) 0 1 1)) hlive
  obtain ⟨hbusy, ⟨f, hf⟩, b, -, -, -, -, -, hperf⟩ := State.posts_posted
    (put (s.reg p Reg.pgCtrl) 0 1 1) (by decide) (by decide) hp
  generalize s.regWrite req p Reg.pgCtrl (put (s.reg p Reg.pgCtrl) 0 1 1) = t at *
  have hq : t.keepQueue s = t := by
    rw [hf]
    rfl
  rw [hq] at hrun
  have ht : t.live = true := by
    rw [hf]
    exact hlive
  refine ⟨t, _, hrun, ?_, hbusy, State.run_live (·.posted p) ht, ?_⟩
  · rw [hf]
    exact hup
  · have h := hdown b req
    rw [State.blockUp] at h ⊢
    rw [State.keepQueue_rst, hperf, (State.wbusyFall_same (.refl _) _ p (.refl _ _)).rst rfl]
    exact h

theorem State.wipeEnds_histEnd (s : State) : s.wipeEnds.histEnd = {} := rfl

theorem State.wipeEnds_fuses (s : State) : s.wipeEnds.fuses =
    { s.fuses with wipeDone := true, seed := if s.fuses.life = 3 then [] else s.fuses.seed } := rfl

theorem State.wipeEnds_reg (s : State) (p o : Nat) : s.wipeEnds.reg p o = s.reg p o := rfl

theorem State.wipeEnds_out (s : State) : s.wipeEnds.out = s.out ++ [.flashWipe] := rfl

/-- The end of a life-cycle wipe (16_forester_security.md R445). -/
theorem exec_wipeDone_ends {s : State} (hwipe : s.fuses.wipeDone = false) (hp : s.rst.porstAt = none)
    (hc : s.rst.chipAt = none) (ht : s.rst.tripped = false) :
    ∃ t, exec .wipeDone s = .next t ∧ t.mram = {} ∧ .flashWipe ∈ t.out
      ∧ t.fuses = { s.fuses with wipeDone := true, seed := if s.fuses.life = 3 then [] else s.fuses.seed }
      ∧ t.rst.cause = causeLife ∧ t.reg pgReset Reg.rstCount = s.reg pgReset Reg.rstCount + 1 ∧ t.frames = [] := by
  refine ⟨_, State.runAlways_eq s (·.wiped), ?_⟩
  rw [State.wiped_ends hwipe hp hc ht]
  obtain ⟨hcause, -, -, hfuses, hframes⟩ := s.wipeEnds.chipReset_from causeLife
  have hmram := (s.wipeEnds.chipReset_mram causeLife).trans s.wipeEnds_histEnd
  have hcount := s.wipeEnds.chipReset_rstCount causeLife
  have hout := s.wipeEnds.chipReset_out causeLife
  rw [State.wipeEnds_fuses] at hfuses
  rw [State.wipeEnds_reg] at hcount
  rw [State.wipeEnds_out] at hout
  generalize s.wipeEnds.chipReset causeLife = u at *
  refine ⟨hmram, ?_, hfuses, hcause, hcount, hframes⟩
  rw [State.keepQueue_out, hout]
  exact List.mem_append_right _ (List.mem_singleton.2 rfl)

theorem exec_porst_low {s : State} (pins : PinSample) (h : s.rst.porstAt = none) :
    ∃ t, exec (.porstN false pins) s = .next t ∧ t.rst.porstAt = some s.clk.up ∧ t.rst.cause = causePower
      ∧ t.rst.phase = .fuses ∧ t.rst.tripped = false ∧ t.mram = { s.mram with hist := t.mram.hist } ∧ t.fuses = s.fuses
      ∧ t.reg pgReset Reg.rstCount = 0 ∧ t.frames = [] := by
  refine ⟨_, State.runAlways_eq s (·.porst false pins), ?_⟩
  obtain ⟨hcause, hphase, hmram, hfuses, hframes⟩ := s.powerReset_from pins
  have hcount := s.powerReset_rstCount pins
  have htrip := congrArg RstS.tripped (s.powerReset_rst pins)
  rw [State.porst_low pins h]
  generalize s.powerReset pins = u at *
  exact ⟨rfl, hcause, hphase, htrip, hmram, hfuses, hcount, hframes⟩

theorem exec_vddAonReset {s : State} (pins : PinSample) :
    ∃ t, exec (.vddAonReset pins) s = .next t ∧ t.rst.cause = causePower ∧ t.rst.phase = .fuses ∧ t.rst.tripped = false
      ∧ t.mram = { s.mram with hist := t.mram.hist } ∧ t.fuses = s.fuses ∧ t.reg pgReset Reg.rstCount = 0 ∧ t.frames = [] := by
  refine ⟨_, State.runAlways_eq s (·.powerReset pins), ?_⟩
  obtain ⟨hcause, hphase, hmram, hfuses, hframes⟩ := s.powerReset_from pins
  have hcount := s.powerReset_rstCount pins
  have htrip := congrArg RstS.tripped (s.powerReset_rst pins)
  generalize s.powerReset pins = u at *
  exact ⟨hcause, hphase, htrip, hmram, hfuses, hcount, hframes⟩

theorem exec_chiprst_low {s : State} (pins : PinSample) (hp : s.rst.porstAt = none) (hc : s.rst.chipAt = none) :
    ∃ t, exec (.chiprstN false pins) s = .next t ∧ t.rst.chipAt = some s.clk.up ∧ t.rst.cause = causePin
      ∧ t.rst.phase = .fuses ∧ t.mram = { s.mram with hist := t.mram.hist } ∧ t.fuses = s.fuses
      ∧ t.reg pgReset Reg.rstCount = s.reg pgReset Reg.rstCount + 1 ∧ t.frames = [] := by
  refine ⟨_, State.runAlways_eq s (·.chiprst false pins), ?_⟩
  obtain ⟨u, hu, hlow⟩ := State.chiprst_low pins hp hc
  have hfrom := (s.strapPins pins).chipReset_from causePin
  have hcount := (s.strapPins pins).chipReset_rstCount causePin
  have hup := (s.strapPins pins).chipReset_up causePin
  rw [← hu] at hfrom hcount hup
  obtain ⟨hcause, hphase, hmram, hfuses, hframes⟩ := hfrom
  rw [hlow]
  clear hu hlow
  exact ⟨congrArg some hup, hcause, hphase, hmram, hfuses, hcount, hframes⟩

/-- Settles O59: every command of a reset does what R448 to R459 say of it; one that writes a register by what the write leaves. -/
theorem resetCommandsComplete : Obligations.ResetCommandsComplete := by
  unfold Obligations.ResetCommandsComplete
  refine ⟨?porstLow, ?porstHigh, ?chiprstLow, ?chiprstHeld, ?chiprstHigh, ?vddAon, ?wipeDone, fun s hlive =>
    ⟨?rstChip, ?rstHalf, ?halfDone, ?rstSlice, ?starting, ?sliceDone, ?blkRst, ?blockDone, ?channelDown, ?channelUp,
      ?startUp, ?restore, ?restored⟩⟩
  case porstLow => exact fun s pins h => exec_porst_low pins h
  case porstHigh =>
    intro s pins t0 h
    exact ⟨_, State.runAlways_eq s (·.porst true pins), State.porst_high pins h⟩
  case chiprstLow => exact fun s pins hp hc => exec_chiprst_low pins hp hc
  case chiprstHeld =>
    intro s pins t0 hp hc
    refine (State.runAlways_eq s (·.chiprst false pins)).trans ?_
    rw [State.chiprst_held pins hp hc]
    rfl
  case chiprstHigh =>
    intro s pins t0 hc
    refine ⟨_, State.runAlways_eq s (·.chiprst true pins), ?_⟩
    rw [State.chiprst_high pins hc]
    exact ⟨rfl, rfl, rfl, rfl⟩
  case vddAon => exact fun s pins => exec_vddAonReset pins
  case wipeDone => exact fun s hwipe hp hc ht => exec_wipeDone_ends hwipe hp hc ht
  case rstChip =>
    intro v hw hst hkey
    obtain ⟨t, ht, ⟨hcause, hphase, hmram, hfuses, hframes⟩, hcount⟩ := exec_rstChip_now hlive hw hst hkey
    exact ⟨t, ht, hcause, hphase, hmram, hfuses, hcount, hframes⟩
  case rstHalf => exact fun v hw hst hkey h0 h1 => exec_rstHalf_now hlive hw hst hkey h0 h1
  case halfDone =>
    intro h hdown
    obtain ⟨hup, hready, hchannel, hlpm⟩ := State.halfReady_back h.isLt hdown
    exact ⟨_, State.run_live (·.halfReady h.val) hlive, hup, hready, hchannel, hlpm⟩
  case rstSlice => exact fun v hw hst hkey hup => exec_rstSlice_now hlive hw hst hkey hup
  case starting =>
    exact fun v hst hkey => ⟨State.run_reset_busy hlive (.inl rfl) hst hkey,
      State.run_reset_busy hlive (.inr (.inl rfl)) hst hkey, State.run_reset_busy hlive (.inr (.inr rfl)) hst hkey⟩
  case sliceDone =>
    intro sl hdown hh
    exact ⟨_, State.run_live (·.sliceReady sl.val) hlive, State.sliceReady_up hdown hh⟩
  case blkRst =>
    intro req p hblk hig hst hin hup hreq hswap
    exact ⟨fun hw => exec_blkRst_now hlive hw
        (fun r => State.writeAt_blkRst r (bit_put_zero_one _) hblk hig hst hin hup hreq hswap),
      fun hr hslow hfree hopen halone => exec_blkRst_posted hlive
        ⟨hr, hslow, hfree, (pgCtrl_spec hblk).2.2, hopen, halone⟩ hup
        (fun b r => State.writeAt_blkRst (s := { s with bus := b }) r (bit_put_zero_one _) hblk hig hst hin hup hreq hswap)⟩
  case blockDone =>
    intro p hdown hswap
    exact ⟨_, State.run_live (·.blockDone p) hlive, State.blockDone_up hdown hswap⟩
  case channelDown =>
    intro hh hup
    have hrun := State.run_live (fun s => s.onlyIf s.halvesUp (·.channelDown)) hlive
    simp only [State.onlyIf, hh, if_true] at hrun
    exact ⟨_, hrun, s.channelDown_flumeUp, State.channelDown_far hup⟩
  case channelUp =>
    intro hh hdown
    have hrun := State.run_live (fun s => s.onlyIf s.halvesUp (·.channelUp)) hlive
    simp only [State.onlyIf, hh, if_true] at hrun
    obtain ⟨⟨hup, hheld⟩, hfar⟩ := State.channelUp_noneHeld hdown
    exact ⟨_, hrun, hup, hfar, hheld⟩
  case startUp =>
    intro h
    exact ⟨_, State.run_live (·.enterBoot) hlive, State.enterBoot_boots h⟩
  case restore =>
    intro lane hhead hphase
    have hrun := State.run_live (fun s => s.onlyIf (s.headReaches && (decide (s.rst.phase = .boot)
      || decide (s.rst.phase = .restore))) (·.restoreStart lane)) hlive
    have hcond : (s.headReaches && (decide (s.rst.phase = .boot) || decide (s.rst.phase = .restore))) = true := by
      rw [hhead]
      simpa using hphase
    simp only [State.onlyIf, hcond, if_true] at hrun
    exact ⟨_, hrun, s.restoreStart_rst lane⟩
  case restored =>
    intro hres hhead
    have hrun := State.run_live (fun s => s.onlyIf (s.rst.restoring && s.headReaches) (·.restoreEnd)) hlive
    simp only [State.onlyIf, hres, hhead, Bool.and_self, if_true] at hrun
    exact ⟨_, hrun, s.restoreEnd_run⟩

end Sys2Proof.Machine
end

section
/-! SUPPORT. What the operations of Firebreak leave: its registers after a report, and its state after a change of depths
(15_firebreak_power.md R403 to R421). -/

namespace Sys2Proof.Machine

/-! ### Registers of the FIREBREAK page -/

/-- A report changes no register of the FIREBREAK page but PG_EVT. -/
theorem State.raise_fb (s : State) (p i : Nat) {o : Nat} (ho : o < 0x10000) (h : o ≠ 0x10) :
    (s.raise p i).reg pgFirebreak o = s.reg pgFirebreak o :=
  State.raise_reg_ne _ _ _ (by unfold regKey; omega) (regKey_ne (by decide) (by decide) ho)
    (regKey_ne (by decide) (by decide) ho)

theorem State.sourceMsg_reg_ne (s : State) (n code : Nat) (typ : MsgType) (kind : Nat) (info : Word) {p o : Nat}
    (hp : p ≠ pgLookout) (ho : o < 0x10000) : (s.sourceMsg n code typ kind info).reg p o = s.reg p o := by
  unfold State.sourceMsg
  cases typ <;> exact State.sendOn_reg_ne _ _ _ (regKey_ne hp (by decide) ho) (regKey_ne hp (by decide) ho)

theorem State.sourceMsg_fb (s : State) (n code : Nat) (typ : MsgType) (kind : Nat) (info : Word) {o : Nat} (ho : o < 0x10000) :
    (s.sourceMsg n code typ kind info).reg pgFirebreak o = s.reg pgFirebreak o :=
  State.sourceMsg_reg_ne _ _ _ _ _ _ (by decide) ho

@[simp] theorem State.sourceMsg_fire (s : State) (n code : Nat) (typ : MsgType) (kind : Nat) (info : Word) :
    (s.sourceMsg n code typ kind info).fire = s.fire :=
  (State.sourceMsg_same (fs := 0x8000000010) (.refl _) s n code typ kind info (.refl _ s)).fire rfl

@[simp] theorem State.setFire_fire (s : State) (f : FireS) : (s.setFire f).fire = f := rfl

/-! ### After a change of depths (R406 to R410) -/

theorem State.boostSettle_fb (s : State) (h : Nat) {o : Nat} (ho : o < 0x10000) (h' : o ≠ 0x10) :
    (s.boostSettle h).reg pgFirebreak o = s.reg pgFirebreak o := by
  unfold State.boostSettle
  split
  · exact State.raise_fb _ _ _ ho h'
  · rfl

theorem State.deferStop_fb (s : State) {h : Nat} (hh : h < 2) {o : Nat} (ho : o < 0x10000) :
    (s.deferStop h).reg pgFirebreak o = s.reg pgFirebreak o := by
  unfold State.deferStop
  dsimp only
  split
  · refine State.reg_setReg_ne _ _ (regKey_ne ?_ (by decide) ho)
    interval_cases h <;> decide
  · rfl

/-- A change of depths leaves the registers of the FIREBREAK page but PG_EVT and the count of steps. -/
theorem State.fireSettle_fb (s : State) {o : Nat} (ho : o < 0x10000) (h : o ≠ 0x10) (hc : o ≠ Reg.fbStepChg)
    (hc' : o ≠ Reg.fbStepChg + 4) : s.fireSettle.reg pgFirebreak o = s.reg pgFirebreak o := by
  unfold State.fireSettle
  extract_lets s1 k f s2
  have h1 : s1.reg pgFirebreak o = s.reg pgFirebreak o := by
    rw [State.boostSettle_fb _ _ ho h, State.boostSettle_fb _ _ ho h]
  have h2 : s2.reg pgFirebreak o = s.reg pgFirebreak o := by
    dsimp only [s2]
    split
    · exact h1
    · refine ((State.reg_setReg_ne _ _ (regKey_ne_off hc')).trans (State.reg_setReg_ne _ _ (regKey_ne_off hc))).trans h1
  split
  · rw [State.deferStop_fb _ (by decide) ho, State.deferStop_fb _ (by decide) ho]
    exact h2
  · exact h2
  · exact h2

/-- Firebreak's state with another last step target and other intervals of deferral. -/
def FireS.settled (f : FireS) (k : Nat) (d : Option Nat) (l : List (Nat × Nat)) : FireS :=
  { f with kLast := k, deferFrom := d, deferDone := l }

/-- A change of depths changes of Firebreak's state the last step target and the intervals of deferral alone. -/
theorem State.fireSettle_fire (s : State) : ∃ k d l, s.fireSettle.fire = s.fire.settled k d l := by
  unfold State.fireSettle
  extract_lets s1 k f s2
  have h1 : s1.fire = s.fire := (State.boostSettle_same (fs := 0x8020000010) (.refl _) _ 1
    (State.boostSettle_same (.refl _) s 0 (.refl _ s))).fire rfl
  have h2 : ∃ k, s2.fire = s.fire.settled k s.fire.deferFrom s.fire.deferDone := by
    dsimp only [s2]
    split
    · exact ⟨s.fire.kLast, h1⟩
    · exact ⟨k, by rw [← h1]; rfl⟩
  obtain ⟨k', h2⟩ := h2
  clear_value s2
  split
  · refine ⟨k', some s2.clk.up, s.fire.deferDone, ?_⟩
    rw [(State.deferStop_same (fs := 0x10) (.refl _) _ 1 (State.deferStop_same (.refl _) _ 0 (.refl _ _))).fire rfl]
    show s2.fire.settled s2.fire.kLast (some s2.clk.up) s2.fire.deferDone = _
    rw [h2]
    rfl
  · next t _ _ =>
    refine ⟨k', none, s2.fire.deferDone ++ [(t, s2.clk.up)], ?_⟩
    show s2.fire.settled s2.fire.kLast none (s2.fire.deferDone ++ [(t, s2.clk.up)]) = _
    rw [h2]
    rfl
  · exact ⟨k', _, _, h2⟩

theorem State.fireSettle_clk (s : State) : s.fireSettle.clk = s.clk :=
  (State.fireSettle_same (.refl _) s (.refl _ s)).clk rfl

/-- FIXED is what FB_CTRL holds. -/
theorem State.fixedMode_of_reg {s t : State} (h : t.reg pgFirebreak Reg.fbCtrl = s.reg pgFirebreak Reg.fbCtrl) :
    t.fixedMode = s.fixedMode := by
  rw [State.fixedMode, State.rbit, h]
  rfl

theorem State.fireSettle_fixedMode (s : State) : s.fireSettle.fixedMode = s.fixedMode :=
  State.fixedMode_of_reg (State.fireSettle_fb s (by decide) (by decide) (by decide) (by decide))

/-! ### The estimate (R403, R405) -/

theorem avgOf_one (p : Nat) (l : List Nat) : (avgOf (List.take 500000 (p :: l)) 1).floor = p := by
  simp [avgOf, Avg.floor]

/-- A sample of the estimate shows in FB_P_NOW. -/
theorem State.powerSample_now (s : State) : s.powerSample.reg pgFirebreak Reg.fbPNow
    = BitVec.ofNat 32 (calibrate (s.reg pgFirebreak Reg.fbCal) (Config.rawPower s.freeCtr)) := by
  unfold State.powerSample
  extract_lets p l s1 w s2
  rw [State.fireSettle_fb _ (by decide) (by decide) (by decide) (by decide), State.setFire_reg]
  iterate 4 refine (State.reg_setReg_ne _ _ (regKey_ne_off (by decide))).trans ?_
  refine (State.reg_setReg _ _ _ _).trans ?_
  exact congrArg _ (avgOf_one p _)

/-! ### Caps (R408) -/

/-- A controller that moves has its new depth. -/
theorem State.moveCap_depth (s : State) (c : Cap) (d : Nat) : (s.moveCap c d).fire.capDepth c = d := by
  unfold State.moveCap
  extract_lets was s1 s2
  have h2 : s2.fire = s.fire.setCapDepth d c := by
    dsimp only [s2]
    split
    · exact State.raise_fire _ _ _
    · split
      · exact State.raise_fire _ _ _
      · rfl
  obtain ⟨k, df, l, h⟩ := s2.fireSettle_fire
  rw [h, h2]
  cases c <;> rfl

/-- What the check of FLOOR leaves: the samples, the depths, the times of releases and the registers that the caps read. -/
structure State.FloorKept (s t : State) : Prop where
  samples : t.fire.samples = s.fire.samples
  depth : ∀ c, t.fire.capDepth c = s.fire.capDepth c
  relAt : t.fire.relAt = s.fire.relAt
  clk : t.clk = s.clk
  reg : ∀ o, o < 0x10000 → o ≠ 0x10 → t.reg pgFirebreak o = s.reg pgFirebreak o

theorem State.floorCheck_floorKept (s : State) (c : Cap) : s.FloorKept (s.floorCheck c) := by
  unfold State.floorCheck
  dsimp only
  split
  · split
    · exact ⟨by rw [State.raise_fire]; rfl, fun c => by rw [State.raise_fire]; cases c <;> rfl, by rw [State.raise_fire]; rfl,
        State.raise_clk _ _ _, fun o ho h => State.raise_fb _ _ _ ho h⟩
    · exact ⟨rfl, fun _ => rfl, rfl, rfl, fun _ _ _ => rfl⟩
  · exact ⟨rfl, fun c => by cases c <;> rfl, rfl, rfl, fun _ _ _ => rfl⟩

theorem State.FloorKept.capOf {s t : State} (h : s.FloorKept t) (c : Cap) : t.capOf c = s.capOf c := by
  unfold State.capOf State.rf
  cases c <;> rw [h.reg _ (by decide) (by decide)]

theorem State.FloorKept.capCheck {s t : State} (h : s.FloorKept t) (c : Cap) : t.capCheck c = s.capCheck c := by
  unfold State.capCheck
  rw [h.samples]

theorem State.FloorKept.breached {s t : State} (h : s.FloorKept t) (c : Cap) : t.breached c = s.breached c := by
  unfold State.breached State.capWindow
  rw [h.capOf, h.samples]

theorem State.FloorKept.releaseDue {s t : State} (h : s.FloorKept t) (c : Cap) : t.releaseDue c = s.releaseDue c := by
  unfold State.releaseDue
  rw [h.relAt, h.clk]

theorem State.FloorKept.hyst {s t : State} (h : s.FloorKept t) : t.hyst = s.hyst := by
  unfold State.hyst State.rf
  rw [h.reg _ (by decide) (by decide)]

theorem State.FloorKept.fixedMode {s t : State} (h : s.FloorKept t) : t.fixedMode = s.fixedMode :=
  State.fixedMode_of_reg (h.reg _ (by decide) (by decide))

/-- A cap that is breached deepens (R408). -/
theorem State.capEvaluate_deepens {s : State} {c : Cap} (hb : s.breached c = true) (ha : (s.capCheck c).above (s.capOf c) = true)
    (hf : s.fixedMode = false) : (s.capEvaluate c).fire.capDepth c = depthUp c (s.fire.capDepth c) := by
  unfold State.capEvaluate
  extract_lets k s1 cap d
  have h1 : s.FloorKept s1 := s.floorCheck_floorKept c
  have hd : d = s.fire.capDepth c := h1.depth c
  rw [if_pos ⟨(h1.breached c).trans hb, by rw [h1.capCheck, ← ha]; exact congrArg _ (h1.capOf c)⟩,
    if_neg (by rw [h1.fixedMode, hf]; decide), State.moveCap_depth, hd]

/-- A cap below its hysteresis is released (R408). -/
theorem State.capEvaluate_releases {s : State} {c : Cap} (hb : s.breached c = false)
    (ha : (s.capCheck c).below (s.capOf c * (100 - s.hyst)) 100 = true) (hd : s.fire.capDepth c ≠ 0)
    (hr : s.releaseDue c = true) (hf : s.fixedMode = false) :
    (s.capEvaluate c).fire.capDepth c = depthDown c (s.fire.capDepth c) := by
  unfold State.capEvaluate
  extract_lets k s1 cap d
  have h1 : s.FloorKept s1 := s.floorCheck_floorKept c
  have hd1 : d = s.fire.capDepth c := h1.depth c
  have hcap : cap = s.capOf c := h1.capOf c
  rw [if_neg (by rw [h1.breached, hb]; simp), if_pos ⟨by rw [h1.breached, hb], by rw [h1.capCheck, h1.hyst, hcap]; exact ha,
    by rw [hd1]; exact hd, by rw [h1.releaseDue, hr], by rw [h1.fixedMode, hf]⟩, State.moveCap_depth, hd1]

end Sys2Proof.Machine
end

section
/-! SUPPORT. What each command of Firebreak leaves (15_firebreak_power.md R404 to R421, 18_pins_electrical.md R482). -/

namespace Sys2Proof.Machine

/-- A change of depths leaves what of Firebreak's state does not tell the last step target or the intervals of deferral. -/
theorem State.fireSettle_get {α : Type} (g : FireS → α) (hg : ∀ f k d l, g (f.settled k d l) = g f) (s : State) :
    g s.fireSettle.fire = g s.fire := by
  obtain ⟨k, d, l, h⟩ := s.fireSettle_fire
  rw [h, hg]

/-! ### Calibration and deferral (R404, R409) -/

theorem State.calTold_told (s : State) :
    ((s.setFire { s.fire with calTold := true }).raise pgFirebreak evCalStale).rbit pgFirebreak 0x10 evCalStale = true :=
  State.raise_evt _ _ (by decide)

/-- FB_CAL written by the head in office takes effect at once, its EPOCH the present one (16_forester_security.md R428). -/
theorem State.issueWith_fbCal {s : State} {r : Requester} {c : Nat} {epoch : Nat} (v : Word) (hr : reqCluster r = some c)
    (hruns : s.runsOn r = true) (hfree : s.fenceRuns r = false)
    (hfront : s.frontCause true (accessTo r pgFirebreak Reg.fbCal v) = none) (hready : s.pageReady r pgFirebreak = true)
    (hhead : s.headNow c epoch = true) :
    s.issueWith true (accessTo r pgFirebreak Reg.fbCal v) epoch = (s.fbCalWrite v).strictEnd s r := by
  have hp : accPage (accessTo r pgFirebreak Reg.fbCal v) = pgFirebreak := accPage_accessTo r _ v (by decide)
  have ho : accOff (accessTo r pgFirebreak Reg.fbCal v) = Reg.fbCal := accOff_accessTo r _ v (by decide)
  have hposts : postsWrite pgFirebreak Reg.fbCal = false := by decide
  have hro : readOnly pgFirebreak Reg.fbCal = false := by decide
  have hlock : s.lockHits pgFirebreak Reg.fbCal = false := by
    have hx : regSpec pgFirebreak Reg.fbCal = some { off := 0x70, w := 0xffffffff, ret := 0xffffffff, init := 0x8000 } := by decide
    rw [State.lockHits, hx]
    exact Bool.and_false _
  have hfence : s.writeFenced r pgFirebreak epoch = false := by simp [State.writeFenced, hr, hhead]
  have hwrite : s.writeAt r pgFirebreak Reg.fbCal v = s.fbCalWrite v := by
    rw [State.writeAt_firebreak s r v (by decide) (by decide) (by decide)]
    rfl
  have htake : s.takeWrite (accessTo r pgFirebreak Reg.fbCal v) epoch = s.fbCalWrite v := by
    simp only [State.takeWrite, accessTo_bar2, hfront, hp, ho, hposts, State.tryWrite, accessTo_req, hfence, hready,
      State.performWrite, hro, hlock, accessTo_value, hwrite, Bool.false_eq_true, Bool.true_eq_false, and_false, if_false, if_true]
  simp only [State.issueWith, State.onlyIf, accessTo_req, hruns, State.access, hfree, htake, if_true, Bool.false_eq_true, if_false]
  rfl

theorem State.fbCalWrite_cal (s : State) (v : Word) :
    (s.fbCalWrite v).reg pgFirebreak Reg.fbCal = v ∧ (s.fbCalWrite v).fire.calAt = s.clk.up :=
  ⟨State.reg_setReg s _ _ v, rfl⟩

/-- At its limit deferral ends for a second (R409). -/
theorem State.deferFree_ends (s : State) :
    (s.setFire { s.fire with deferFree := s.clk.up + 1000000000 }).fireSettle.deferred = false := by
  have hfree := State.fireSettle_get (·.deferFree) (fun _ _ _ _ => rfl)
    (s.setFire { s.fire with deferFree := s.clk.up + 1000000000 })
  rw [State.deferred, hfree, State.fireSettle_clk]
  simp

/-! ### Fixed-frequency mode (R412) -/

theorem regSpec_fbCtrl : regSpec pgFirebreak Reg.fbCtrl = some { off := 0x40, w := 0x7, lk := 0x7, ret := 0x7, init := 0x4 } := by
  decide

/-- A write of FB_CTRL on an unlocked page loads FIXED. -/
theorem State.bit_masked_fbCtrl {s : State} (h : s.locked pgFirebreak = false) (v : Word) :
    bit (s.masked pgFirebreak Reg.fbCtrl v) 0 = bit v 0 := by
  have hm : s.masked pgFirebreak Reg.fbCtrl v = (s.reg pgFirebreak Reg.fbCtrl &&& 0xFFFFFFF8) ||| (v &&& 0x7) := by
    simp [State.masked, regSpec_fbCtrl, h]
  have hmask : (0xFFFFFFF8 : Word).toNat.testBit 0 = false ∧ (0x7 : Word).toNat.testBit 0 = true := by decide
  obtain ⟨hkeep, hload⟩ := hmask
  rw [hm, bit_testBit, bit_testBit]
  simp only [BitVec.toNat_or, BitVec.toNat_and, Nat.testBit_or, Nat.testBit_and, hkeep, hload, Bool.and_false, Bool.and_true,
    Bool.false_or]

/-- Every controller but that of the hint is at depth 0. -/
def FireS.depthsZero (f : FireS) : Prop := f.dFast = 0 ∧ f.dSus = 0 ∧ f.dLong = 0 ∧ f.dTherm = 0 ∧ f.dUv = 0

/-- A change of depths leaves every depth. -/
theorem State.fireSettle_depthsZero {s : State} (h : s.fire.depthsZero) : s.fireSettle.fire.depthsZero := by
  obtain ⟨k, d, l, he⟩ := s.fireSettle_fire
  rw [he]
  exact h

/-- A change of FIXED clears the depths. -/
theorem State.fixedWrite_zero {s : State} {on : Bool} (h : s.fixedMode ≠ on) : (s.fixedWrite on).fire.depthsZero := by
  rw [State.fixedWrite, if_neg h]
  exact State.fireSettle_depthsZero ⟨rfl, rfl, rfl, rfl, rfl⟩

/-- FB_CTRL written on an unlocked page: FIXED is as written, and a change of it clears the depths. -/
theorem State.fbCtrlWrite_fixed {s : State} (hlock : s.locked pgFirebreak = false) {v : Word} {on : Bool} (hv : bit v 0 = on) :
    (s.wrFirebreak Reg.fbCtrl v).fixedMode = on
    ∧ (s.fixedMode ≠ on → (s.wrFirebreak Reg.fbCtrl v).fire.depthsZero) := by
  have hm : bit (s.masked pgFirebreak Reg.fbCtrl v) 0 = on := (State.bit_masked_fbCtrl hlock v).trans hv
  rw [State.wrFirebreak, if_pos rfl]
  extract_lets m
  refine ⟨?_, fun hne => ?_⟩
  · rw [State.fireSettle_fixedMode, State.fixedMode, State.rbit, State.reg_setReg]
    exact hm
  · refine State.fireSettle_depthsZero ?_
    rw [hm]
    exact State.fixedWrite_zero hne

theorem bit_put_fixed (w : Word) (on : Bool) : bit (put w 0 1 (b2n on)) 0 = on := by
  rw [bit_eq_fld, fld_put w _ (by decide)]
  cases on <;> rfl

theorem exec_fixed_now {s : State} {req : Requester} {on : Bool} (hlive : s.live = true)
    (hw : s.WritesNow req pgFirebreak Reg.fbCtrl) :
    ∃ t, exec (.fixed req on) s = .next t ∧ t.fixedMode = on ∧ (s.fixedMode ≠ on → t.fire.depthsZero) := by
  have hrun := State.run_live
    (fun s => s.regWrite req pgFirebreak Reg.fbCtrl (put (s.reg pgFirebreak Reg.fbCtrl) 0 1 (b2n on))) hlive
  rw [State.regWrite_now _ (by decide) hw, State.writeAt_firebreak s req _ (by decide) (by decide) (by decide)] at hrun
  obtain ⟨hfixed, hzero⟩ := State.fbCtrlWrite_fixed (hw.unlocked regSpec_fbCtrl (by decide))
    (bit_put_fixed (s.reg pgFirebreak Reg.fbCtrl) on)
  generalize s.wrFirebreak Reg.fbCtrl (put (s.reg pgFirebreak Reg.fbCtrl) 0 1 (b2n on)) = u at *
  have hend : State.Same 0x80 u (u.strictEnd s req) := State.strictEnd_same (.refl _) u s req (.refl _ u)
  refine ⟨_, hrun, ?_, fun hne => ?_⟩
  · refine (State.fixedMode_of_reg (t := (u.strictEnd s req).keepQueue s) ?_).trans hfixed
    exact State.strictEnd_reg u s req _ _
  · rw [State.keepQueue_fire, hend.fire rfl]
    exact hzero hne

/-! ### Droop (R413) -/

theorem State.reg64_congr {s t : State} {p o : Nat} (h : t.reg p o = s.reg p o) (h' : t.reg p (o + 4) = s.reg p (o + 4)) :
    t.reg64 p o = s.reg64 p o := by rw [State.reg64, State.reg64, h, h']

/-- An onset is counted. -/
theorem State.droop_count {s : State} {h : Nat} (hh : h < 2) (ns : Nat) :
    (s.droop h ns).reg64 pgFirebreak (Reg.fbDroopCnt h) = (s.reg64 pgFirebreak (Reg.fbDroopCnt h) + 1) % 2 ^ 64 := by
  unfold State.droop
  extract_lets s1 quiet
  have hreg {a : Nat} {t : State} (v w : Word) (ha : a % 65536 ≠ Reg.fbDroopNs h) (ha' : a % 65536 ≠ Reg.fbDroopNs h + 4) :
      ((t.setReg pgFirebreak (Reg.fbDroopNs h) v).setReg pgFirebreak (Reg.fbDroopNs h + 4) w).reg pgFirebreak a
        = t.reg pgFirebreak a := by
    rw [State.reg_setReg_ne _ _ (by unfold regKey Reg.fbDroopNs at *; omega),
      State.reg_setReg_ne _ _ (by unfold regKey Reg.fbDroopNs at *; omega)]
  have h1 : s1.reg64 pgFirebreak (Reg.fbDroopCnt h) = (s.reg64 pgFirebreak (Reg.fbDroopCnt h) + 1) % 2 ^ 64 := by
    refine (State.reg64_congr (hreg _ _ ?_ ?_) (hreg _ _ ?_ ?_)).trans (State.reg64_setReg64 s _ _ _)
    all_goals (unfold Reg.fbDroopNs Reg.fbDroopCnt; omega)
  clear_value s1
  split
  · refine (State.reg64_congr (State.sourceMsg_fb _ _ _ _ _ _ ?_) (State.sourceMsg_fb _ _ _ _ _ _ ?_)).trans h1
    all_goals (unfold Reg.fbDroopCnt; omega)
  · exact h1

/-- An onset is reported once a millisecond. -/
theorem State.droop_told {s : State} {h : Nat} (ns : Nat)
    (hquiet : ∀ u, AMap.get none s.fire.droopAt h = some u → u + 1000000 ≤ s.clk.up) :
    AMap.get none (s.droop h ns).fire.droopAt h = some s.clk.up := by
  unfold State.droop
  extract_lets s1 quiet
  have hf : s1.fire = s.fire := rfl
  have hc : s1.clk = s.clk := rfl
  have hq : quiet = true := by
    dsimp only [quiet]
    rw [hf, hc]
    split
    · next u hu => exact decide_eq_true (hquiet u hu)
    · rfl
  rw [if_pos hq, State.sourceMsg_fire]
  clear_value s1
  rw [← hc]
  exact AMap.get_set_same none s1.fire.droopAt h (some s1.clk.up)

/-! ### Temperature (R414, R415) -/

/-- A reading of a stack shows in its HB_TEMP, and leaves the other stack's. -/
theorem State.hbmSensor_temp (s : State) (h : Nat) (t : Int) {o : Nat} (ho : o < 0x10000) (h1 : o ≠ 0x10) (h2 : o ≠ Reg.loMsgLost)
    (p : Nat) : (s.hbmSensor h t).reg p o
      = (s.setReg (pgHbm h) Reg.hbTemp (BitVec.ofNat 32 (t % 256).toNat)).reg p o := by
  unfold State.hbmSensor
  extract_lets s1 on thr
  split
  · exact State.raise_reg _ _ _ ho h1 h2
  · split
    · rfl
    · rfl

theorem State.tempSample_hbm {s : State} (x : TempSample) (h0 : s.halfUp 0 = true) (h1 : s.halfUp 1 = true) :
    (s.tempSample x).reg (pgHbm 0) Reg.hbTemp = BitVec.ofNat 32 (x.hbm0 % 256).toNat
    ∧ (s.tempSample x).reg (pgHbm 1) Reg.hbTemp = BitVec.ofNat 32 (x.hbm1 % 256).toNat := by
  unfold State.tempSample
  extract_lets s1 s2 s3
  have hset : ∀ (u : State) p, (u.onlyIf (s3.headReaches && s3.ioBank 1) (·.headSetpoint)).reg p Reg.hbTemp = u.reg p Reg.hbTemp := by
    intro u p
    unfold State.onlyIf
    split <;> rfl
  have hs1 : State.Same 0xa000000010 s s1 := State.sensors_same (.refl _) s 0 x.dies (.refl _ s)
  have hup0 : s1.halfUp 0 = true := by
    rw [State.halfUp, hs1.rst rfl]
    exact h0
  have e2 : s2 = s1.hbmSensor 0 x.hbm0 := if_pos hup0
  have hup1 : s2.halfUp 1 = true := by
    rw [e2, State.halfUp, (State.hbmSensor_same (.refl _) s1 0 x.hbm0 (.refl _ s1)).rst rfl, hs1.rst rfl]
    exact h1
  have e3 : s3 = s2.hbmSensor 1 x.hbm1 := if_pos hup1
  rw [hset, hset, e3, State.hbmSensor_temp _ _ _ (by decide) (by decide) (by decide),
    State.hbmSensor_temp _ _ _ (by decide) (by decide) (by decide), State.reg_setReg,
    State.reg_setReg_ne _ _ (regKey_ne (by decide) (by decide) (by decide)), e2,
    State.hbmSensor_temp _ _ _ (by decide) (by decide) (by decide), State.reg_setReg]
  exact ⟨rfl, rfl⟩

/-- At its threshold the thermal controller deepens, once a millisecond (R414). -/
theorem State.thermalStep_deepens {s : State} (hhot : s.tempThr Reg.fbTempThr ≤ s.hottest)
    (hdue : ∀ u, s.fire.thermAt = some u → u + 1000000 ≤ s.clk.up) (hf : s.fixedMode = false) :
    s.thermalStep.fire.dTherm = min 10 (s.fire.dTherm + 1) ∧ s.thermalStep.rbit pgFirebreak 0x10 evTempThr = true := by
  unfold State.thermalStep
  extract_lets thr hot f after
  have hafter : after 1000000 = true := by
    dsimp only [after]
    split
    · next u hu => exact decide_eq_true (hdue u hu)
    · rfl
  rw [if_pos hhot, if_neg (by rw [hafter]; decide), if_neg (by rw [hf]; decide)]
  refine ⟨?_, State.raise_evt _ _ (by decide)⟩
  rw [State.raise_fire]
  exact State.fireSettle_get (·.dTherm) (fun _ _ _ _ => rfl) _

/-- Three degrees below its threshold the thermal controller is released, once in 10 ms (R414). -/
theorem State.thermalStep_releases {s : State} (hcold : s.hottest ≤ s.tempThr Reg.fbTempThr - 3)
    (hdue : ∀ u, s.fire.thermAt = some u → u + 10000000 ≤ s.clk.up) (hd : s.fire.dTherm ≠ 0) :
    s.thermalStep.fire.dTherm = s.fire.dTherm - 1 := by
  unfold State.thermalStep
  extract_lets thr hot f after told
  have hafter : after 10000000 = true := by
    dsimp only [after]
    split
    · next u hu => exact decide_eq_true (hdue u hu)
    · rfl
  have hnot : ¬ thr ≤ hot := by
    dsimp only [thr, hot]
    omega
  rw [if_neg hnot, if_pos ⟨hcold, hd, hafter⟩]
  exact State.fireSettle_get (·.dTherm) (fun _ _ _ _ => rfl) _

/-! ### Supplies (R417, R418) -/

theorem State.uvWarn_rails (s : State) : s.uvWarn.fire.rails = s.fire.rails := by
  unfold State.uvWarn
  extract_lets s1
  have h1 : s1.fire = s.fire := State.raise_fire _ _ _
  split
  · rw [h1]
  · refine (State.fireSettle_get (·.rails) (fun _ _ _ _ => rfl) _).trans ?_
    show s1.fire.rails = s.fire.rails
    rw [h1]

/-- At its warning level VDD_CORE gives the depth of its step (R418). -/
theorem State.uvWarn_depth {s : State} (hf : s.fixedMode = false) : s.uvWarn.fire.dUv = 2 + (16 - s.uvStep) := by
  unfold State.uvWarn
  extract_lets s1
  have hreg : ∀ {o}, o < 0x10000 → o ≠ 0x10 → o ≠ Reg.fbUvCnt → s1.reg pgFirebreak o = s.reg pgFirebreak o := fun ho h hc =>
    (State.raise_fb _ _ _ ho h).trans (State.reg_setReg_ne _ _ (regKey_ne_off hc))
  have hfix : s1.fixedMode = false := (State.fixedMode_of_reg (hreg (by decide) (by decide) (by decide))).trans hf
  have hstep : s1.uvStep = s.uvStep := by
    unfold State.uvStep State.rf
    rw [hreg (by decide) (by decide) (by decide)]
  rw [if_neg (by rw [hfix]; decide), ← hstep]
  exact State.fireSettle_get (·.dUv) (fun _ _ _ _ => rfl) _

/-- A rail that crosses its warning level is warned of; VDD_CORE's fall deepens (R417, R418). -/
theorem State.supplyWarning_warns (s : State) (rail : Nat) (high : Bool) :
    AMap.get false (s.supplyWarning rail high).fire.rails rail = true
    ∧ (rail = 0 → high = false → s.fixedMode = false → (s.supplyWarning rail high).fire.dUv = 2 + (16 - s.uvStep)) := by
  unfold State.supplyWarning
  extract_lets on f s1
  have hon : AMap.get false s1.fire.rails rail = true := by
    dsimp only [s1]
    split
    · assumption
    · rw [State.sourceMsg_fire]
      exact AMap.get_set_same false s.fire.rails rail true
  have hreg : ∀ {o}, o < 0x10000 → s1.reg pgFirebreak o = s.reg pgFirebreak o := by
    intro o ho
    dsimp only [s1]
    split
    · rfl
    · exact State.sourceMsg_fb _ _ _ _ _ _ ho
  have hstep : s1.uvStep = s.uvStep := by
    unfold State.uvStep State.rf
    rw [hreg (by decide)]
  clear_value s1
  refine ⟨?_, fun hr hh hf => ?_⟩
  · split
    · rw [State.uvWarn_rails]
      exact hon
    · exact hon
  · rw [if_pos ⟨hr, hh⟩, State.uvWarn_depth ((State.fixedMode_of_reg (hreg (by decide))).trans hf), hstep]

theorem State.supplyRecovery_ends {s : State} {rail : Nat} (h : AMap.get false s.fire.rails rail = true) :
    AMap.get false (s.supplyRecovery rail).fire.rails rail = false := by
  rw [State.supplyRecovery, if_pos h]
  dsimp only
  rw [State.sourceMsg_fire]
  exact AMap.get_set_same false s.fire.rails rail false

/-! ### Hints (R420, R421) -/

/-- A count changes no other register of the FIREBREAK page. -/
theorem State.count_fb (s : State) {o a n : Nat} (h : a ≠ o) :
    (s.count pgFirebreak o n).reg pgFirebreak a = s.reg pgFirebreak a :=
  State.reg_setReg_ne _ _ (regKey_ne_off h)

/-- The first hint waits for its acknowledgement, and moves the setpoint over PMBus. -/
theorem State.hintStart_waits {s : State} {us : Nat} (hen : s.rbit pgFirebreak Reg.fbCtrl 2 = true)
    (hend : s.fire.hintEnd = none) (hpend : s.fire.hintPend = none) :
    (s.hintStart us).fire.hintPend = some (us, s.clk.up)
    ∧ (s.hintStart us).fire.volt
      = (if s.ioBank 1 then min 800 (s.fire.base + s.rf pgFirebreak Reg.fbHintCfg 0 8) else s.fire.volt) := by
  rw [State.hintStart, if_pos hen]
  extract_lets s1 f dv
  have hf : f = s.fire := rfl
  have hio : s1.ioBank 1 = s.ioBank 1 :=
    congrArg (bit · 31) (State.reg_setReg_ne s _ (regKey_ne (by decide) (by decide) (by decide)))
  have hdv : dv = if s.ioBank 1 then s.rf pgFirebreak Reg.fbHintCfg 0 8 else 0 := by
    dsimp only [dv]
    rw [hio, State.rf, State.count_fb _ (by decide)]
    rfl
  have hclk : s1.clk = s.clk := rfl
  clear_value s1 dv
  rw [hf, hend, hpend]
  dsimp only
  rw [hclk, hio, hdv]
  refine ⟨rfl, ?_⟩
  split <;> rfl

/-- A hint lengthens an open window. -/
theorem State.hintStart_lengthens {s : State} {us e : Nat} (hen : s.rbit pgFirebreak Reg.fbCtrl 2 = true)
    (hend : s.fire.hintEnd = some e) : (s.hintStart us).fire.hintEnd = some (max e (s.clk.up + us * 1000)) := by
  rw [State.hintStart, if_pos hen]
  extract_lets s1 f
  have hf : f = s.fire := rfl
  have hclk : s1.clk = s.clk := rfl
  clear_value s1
  rw [hf, hend]
  dsimp only
  rw [hclk]

theorem exec_hint_now {s : State} {d : BitVec 16} (hlive : s.live = true) (hw : s.WritesNow .host pgFirebreak Reg.fbHint) :
    ∃ t, exec (.hint d) s = .next t ∧ t.fire = (s.hintStart (if d.toNat = 0 then s.heavyUs else d.toNat)).fire := by
  have hrun := State.run_live (fun s => s.hostWrite pgFirebreak Reg.fbHint (d.setWidth 32)) hlive
  rw [State.hostWrite, State.regWrite_now _ (by decide) hw, State.writeAt_fbHint] at hrun
  have hd : fld (d.setWidth 32) 0 16 = d.toNat := by
    rw [fld, BitVec.toNat_setWidth]
    have := d.isLt
    omega
  rw [hd] at hrun
  refine ⟨_, hrun, ?_⟩
  rw [State.keepQueue_fire, (State.strictEnd_same (.refl _) _ s .host (.refl _ _)).fire rfl]
  rfl

theorem State.hintOpen_fire (s : State) (us : Nat) :
    (s.hintOpen us).fire.hintPend = none ∧ (s.hintOpen us).fire.hintEnd = some (s.clk.up + us * 1000)
    ∧ (s.hintOpen us).fire.dHint = b2n (!s.fixedMode) ∧ (s.hintOpen us).fire.volt = s.fire.volt := by
  obtain ⟨k, d, l, h⟩ := (s.setFire { s.fire with
    hintPend := none, hintEnd := some (s.clk.up + us * 1000), dHint := b2n (!s.fixedMode) }).fireSettle_fire
  rw [State.hintOpen, h]
  exact ⟨rfl, rfl, rfl, rfl⟩

/-! ### ALERT_N (18_pins_electrical.md R482) -/

/-- A message of a source of the common fabric enters its queue while that has room. -/
theorem State.sendOn_common {s : State} {m : Message} (rose : Bool) (hq : sourceQueue m.src = .common)
    (hroom : s.lookout.qCommon.length < 256) :
    (s.sendOn m rose).lookout = { s.lookout with qCommon := s.lookout.qCommon ++ [m] } := by
  have hsome : s.enqueueMsg m = some { s with lookout := { s.lookout with qCommon := s.lookout.qCommon ++ [m] } } := by
    simp only [State.enqueueMsg, hq, LookoutS.q, LookoutS.setQ, if_pos hroom]
    rfl
  rw [State.sendOn, hsome]

/-- A message of a source that is no page moves its level line, and is sent. -/
theorem State.sourceMsg_sends (s : State) (n code : Nat) {typ : MsgType} (kind : Nat) (info : Word) {b : Bool}
    (ht : typ = if b then .rise else .fall) :
    ∃ (u : State) (m : Message) (rose : Bool), s.sourceMsg n code typ kind info = u.sendOn m rose ∧ m.src = n ∧ m.code = code
      ∧ u.lookout.qCommon = s.lookout.qCommon ∧ AMap.get false u.lookout.level (32 * n + code) = b := by
  subst ht
  cases b with
  | true => exact ⟨_, _, _, rfl, rfl, rfl, rfl, AMap.get_set_same false s.lookout.level (32 * n + code) true⟩
  | false => exact ⟨_, _, _, rfl, rfl, rfl, rfl, AMap.get_set_same false s.lookout.level (32 * n + code) false⟩

theorem State.sourceMsg_level {s : State} {n code : Nat} {typ : MsgType} (kind : Nat) (info : Word) {b : Bool}
    (ht : typ = if b then .rise else .fall) (hq : sourceQueue n = .common) (hroom : s.lookout.qCommon.length < 256) :
    ∃ m : Message, (s.sourceMsg n code typ kind info).lookout.qCommon = s.lookout.qCommon ++ [m] ∧ m.src = n ∧ m.code = code
      ∧ AMap.get false (s.sourceMsg n code typ kind info).lookout.level (32 * n + code) = b := by
  obtain ⟨u, m, rose, hsend, hsrc, hcode, hqueue, hlevel⟩ := s.sourceMsg_sends n code kind info ht
  have h : (u.sendOn m rose).lookout = { u.lookout with qCommon := u.lookout.qCommon ++ [m] } :=
    State.sendOn_common rose (hsrc ▸ hq) (hqueue ▸ hroom)
  rw [hsend, h]
  exact ⟨m, congrArg (· ++ [m]) hqueue, hsrc, hcode, hlevel⟩

/-! ### The thermal trip and the reset dip (R416, R419) -/

theorem State.askFatal_fatal (s : State) (cause : Nat) (m : Message) : (s.askFatal cause m).lookout.fatal ≠ none := by
  unfold State.askFatal
  split <;> exact Option.some_ne_none _

theorem State.thermalTrip_stops (s : State) :
    s.thermalTrip.rst.tripped = true ∧ s.thermalTrip.live = false ∧ s.thermalTrip.lookout.fatal ≠ none
    ∧ .pin .thermtripN false ∈ s.thermalTrip.out := by
  refine ⟨rfl, rfl, State.askFatal_fatal _ _ _, ?_⟩
  exact List.mem_append_right _ (List.mem_singleton.2 rfl)

theorem State.resetDip_asks (s : State) :
    s.resetDip.lookout.chipRst = Nat.lor s.lookout.chipRst causeDip ∧ s.resetDip.lookout.fatal ≠ none
    ∧ s.resetDip.lookout.dipAt = some s.clk.up := by
  unfold State.resetDip
  extract_lets lo s1 s2
  have h : s2.lookout.chipRst = s.lookout.chipRst ∧ s2.lookout.dipAt = some s.clk.up := by
    dsimp only [s2]
    unfold State.askFatal
    split <;> exact ⟨rfl, rfl⟩
  exact ⟨congrArg (Nat.lor · causeDip) h.1, State.askFatal_fatal _ _ _, h.2⟩

end Sys2Proof.Machine
end

section
/-! PROOF. The commands of Firebreak do what 15_firebreak_power.md and 18_pins_electrical.md R482 say (O56). -/

namespace Sys2Proof.Machine

theorem exec_fbCalUpdate_now {s : State} {cl : Half} {e v : Word} {r : Requester} (hlive : s.live = true)
    (hr : r = (if cl.val = 0 then .west else .east)) (hruns : s.runsOn r = true) (hfree : s.fenceRuns r = false)
    (hfront : s.frontCause true (accessTo r pgFirebreak Reg.fbCal v) = none) (hready : s.pageReady r pgFirebreak = true)
    (hhead : s.headNow cl.val e.toNat = true) :
    ∃ t, exec (.fbCalUpdate cl e v) s = .next t ∧ t.reg pgFirebreak Reg.fbCal = v ∧ t.fire.calAt = s.clk.up := by
  have hc : reqCluster r = some cl.val := by
    rw [hr]
    obtain h | h : cl.val = 0 ∨ cl.val = 1 := by omega
    · rw [h]
      rfl
    · rw [h]
      rfl
  have hrun := State.run_live (fun s => s.issueWith true (accessTo r pgFirebreak Reg.fbCal v) e.toNat) hlive
  rw [State.issueWith_fbCal v hc hruns hfree hfront hready hhead] at hrun
  obtain ⟨hreg, hat⟩ := s.fbCalWrite_cal v
  refine ⟨_, by rw [hr] at hrun; exact hrun, ?_, ?_⟩
  · exact (State.strictEnd_reg _ s _ _ _).trans hreg
  · rw [State.keepQueue_fire, (State.strictEnd_same (.refl _) _ s _ (.refl _ _)).fire rfl]
    exact hat

theorem exec_calStale_due {s : State} (hlive : s.live = true) (htold : s.fire.calTold = false)
    (hdue : s.fire.calAt + 100000000 ≤ s.clk.up) :
    ∃ t, exec .calStale s = .next t ∧ t.rbit pgFirebreak 0x10 evCalStale = true := by
  have hrun := State.run_live (fun s => s.onlyIf (!s.fire.calTold && decide (s.fire.calAt + 100000000 ≤ s.clk.up))
    (fun s => (s.setFire { s.fire with calTold := true }).raise pgFirebreak evCalStale)) hlive
  simp only [State.onlyIf, htold, hdue, decide_true, Bool.not_false, Bool.and_self, if_true] at hrun
  exact ⟨_, hrun, s.calTold_told⟩

theorem exec_deferralLimit_due {s : State} (hlive : s.live = true) (hdefer : s.deferred = true)
    (hlimit : 1000000000 ≤ s.deferRecent) : ∃ t, exec .deferralLimit s = .next t ∧ t.deferred = false := by
  have hrun := State.run_live (fun s => s.onlyIf (s.deferred && decide (1000000000 ≤ s.deferRecent))
    (fun s => (s.setFire { s.fire with deferFree := s.clk.up + 1000000000 }).fireSettle)) hlive
  simp only [State.onlyIf, hdefer, hlimit, decide_true, Bool.and_self, if_true] at hrun
  exact ⟨_, hrun, s.deferFree_ends⟩

theorem exec_uvRelease_due {s : State} {u : Nat} (hlive : s.live = true) (hrec : s.fire.uvRec = some u)
    (hdue : u + 100000 ≤ s.clk.up) : ∃ t, exec .uvRelease s = .next t ∧ t.fire.dUv = 0 := by
  have hrun := State.run_live (fun s => match s.fire.uvRec with
    | some t => if t + 100000 ≤ s.clk.up then (s.setFire { s.fire with dUv := 0, uvRec := none }).fireSettle else s
    | none => s) hlive
  simp only [hrec, hdue, if_true] at hrun
  exact ⟨_, hrun, State.fireSettle_get (·.dUv) (fun _ _ _ _ => rfl) _⟩

theorem exec_hintAck_pending {s : State} {x : Nat × Nat} (hlive : s.live = true) (hpend : s.fire.hintPend = some x)
    (hio : s.ioBank 1 = true) :
    ∃ t, exec .hintAck s = .next t ∧ t.fire.hintPend = none ∧ t.fire.hintEnd = some (s.clk.up + x.1 * 1000)
      ∧ t.fire.dHint = b2n (!s.fixedMode) := by
  have hrun := State.run_live (fun s => match s.fire.hintPend with
    | some x => s.onlyIf (s.ioBank 1) (·.hintOpen x.1) | none => s) hlive
  simp only [hpend, State.onlyIf, hio, if_true] at hrun
  obtain ⟨hnone, hend, hdepth, -⟩ := s.hintOpen_fire x.1
  exact ⟨_, hrun, hnone, hend, hdepth⟩

theorem exec_hintWindowEnd_due {s : State} {u : Nat} (hlive : s.live = true) (hend : s.fire.hintEnd = some u)
    (hdue : u ≤ s.clk.up) :
    ∃ t, exec .hintWindowEnd s = .next t ∧ t.fire.hintEnd = none ∧ t.fire.dHint = 0
      ∧ t.fire.volt = (if s.ioBank 1 then s.fire.base else s.fire.volt) := by
  have hrun := State.run_live (fun s => match s.fire.hintEnd with
    | some t =>
      if t ≤ s.clk.up then
        (s.setFire { s.fire with hintEnd := none, dHint := 0, offset := 0
                                 volt := if s.ioBank 1 then s.fire.base else s.fire.volt }).fireSettle
      else s
    | none => s) hlive
  simp only [hend, hdue, if_true] at hrun
  refine ⟨_, hrun, State.fireSettle_get (·.hintEnd) (fun _ _ _ _ => rfl) _,
    State.fireSettle_get (·.dHint) (fun _ _ _ _ => rfl) _, State.fireSettle_get (·.volt) (fun _ _ _ _ => rfl) _⟩

theorem exec_pmbusErr_due {s : State} {x : Nat × Nat} (hlive : s.live = true) (hpend : s.fire.hintPend = some x)
    (hdue : x.2 + 200000 ≤ s.clk.up) :
    ∃ t, exec .pmbusErr s = .next t ∧ t.fire.hintPend = none
      ∧ t.fire.volt = (if s.ioBank 1 then s.fire.base else s.fire.volt) ∧ t.fire.hintEnd = some (s.clk.up + x.1 * 1000) := by
  have hrun := State.run_live (fun s => match s.fire.hintPend with
    | some x =>
      if x.2 + 200000 ≤ s.clk.up then
        let s := (s.setFire { s.fire with offset := 0, volt := if s.ioBank 1 then s.fire.base else s.fire.volt }).hintOpen x.1
        (s.raise pgFirebreak evPmbusErr).sourceMsg 26 0 .pulse 0 0
      else s
    | none => s) hlive
  simp only [hpend, hdue, if_true] at hrun
  refine ⟨_, hrun, ?_⟩
  rw [State.keepQueue_fire, State.sourceMsg_fire, State.raise_fire]
  obtain ⟨hnone, hend, -, hvolt⟩ := State.hintOpen_fire
    (s.setFire { s.fire with offset := 0, volt := if s.ioBank 1 then s.fire.base else s.fire.volt }) x.1
  exact ⟨hnone, hvolt, hend⟩

/-- ALERT_N reports a change of its level, and nothing else (18_pins_electrical.md R482). -/
theorem exec_alertN_changed {s : State} {level : Bool} (hlive : s.live = true)
    (hlevel : AMap.get false s.lookout.level (32 * 26 + 8) = level) (hroom : s.lookout.qCommon.length < 256) :
    ∃ t m, exec (.alertN level) s = .next t ∧ t.lookout.qCommon = s.lookout.qCommon ++ [m] ∧ m.src = 26 ∧ m.code = 8
      ∧ AMap.get false t.lookout.level (32 * 26 + 8) = !level := by
  have hrun := State.run_live (fun s => s.onlyIf (AMap.get false s.lookout.level (32 * 26 + 8) == level) (fun s =>
    if level then s.sourceMsg 26 8 .fall 0 0 else s.sourceMsg 26 8 .rise 0 0)) hlive
  rw [State.onlyIf, if_pos (beq_iff_eq.2 hlevel)] at hrun
  cases level with
  | true =>
    obtain ⟨m, hqueue, hsrc, hcode, hend⟩ := State.sourceMsg_level (s := s) (n := 26) (code := 8) (typ := .fall) (b := false)
      0 0 rfl (by decide) hroom
    exact ⟨_, m, hrun, hqueue, hsrc, hcode, hend⟩
  | false =>
    obtain ⟨m, hqueue, hsrc, hcode, hend⟩ := State.sourceMsg_level (s := s) (n := 26) (code := 8) (typ := .rise) (b := true)
      0 0 rfl (by decide) hroom
    exact ⟨_, m, hrun, hqueue, hsrc, hcode, hend⟩

theorem exec_alertN_unchanged {s : State} {level : Bool} (hlive : s.live = true)
    (hlevel : AMap.get false s.lookout.level (32 * 26 + 8) ≠ level) : exec (.alertN level) s = .next s := by
  have hrun := State.run_live (fun s => s.onlyIf (AMap.get false s.lookout.level (32 * 26 + 8) == level) (fun s =>
    if level then s.sourceMsg 26 8 .fall 0 0 else s.sourceMsg 26 8 .rise 0 0)) hlive
  rw [State.onlyIf, if_neg (by simpa using hlevel)] at hrun
  exact hrun

theorem exec_thermalTrip_stops {s : State} (h : Half) (ht : s.rst.tripped = false) (hp : s.rst.porstAt = none) :
    ∃ t, exec (.thermalTrip h) s = .next t ∧ t.rst.tripped = true ∧ t.live = false ∧ t.lookout.fatal ≠ none
      ∧ .pin .thermtripN false ∈ t.out := by
  have hrun := State.runAlways_eq s (fun s => s.onlyIf (!s.rst.tripped && s.rst.porstAt.isNone) (·.thermalTrip))
  simp only [State.onlyIf, ht, hp, Option.isNone_none, Bool.not_false, Bool.and_self, if_true] at hrun
  exact ⟨_, hrun, s.thermalTrip_stops⟩

theorem exec_resetDip_fresh {s : State} (b : Bool) (ht : s.rst.tripped = false) (hp : s.rst.porstAt = none)
    (hd : s.dipFresh = true) :
    ∃ t, exec (.resetDip b) s = .next t ∧ t.lookout.chipRst = Nat.lor s.lookout.chipRst causeDip ∧ t.lookout.fatal ≠ none
      ∧ t.lookout.dipAt = some s.clk.up := by
  have hrun := State.runAlways_eq s (fun s => s.onlyIf (!s.rst.tripped && s.rst.porstAt.isNone && s.dipFresh) (·.resetDip))
  simp only [State.onlyIf, ht, hp, hd, Option.isNone_none, Bool.not_false, Bool.and_self, if_true] at hrun
  exact ⟨_, hrun, s.resetDip_asks⟩

theorem exec_resetDip_again {s : State} (b : Bool) (hd : s.dipFresh = false) : exec (.resetDip b) s = .next s := by
  have hrun := State.runAlways_eq s (fun s => s.onlyIf (!s.rst.tripped && s.rst.porstAt.isNone && s.dipFresh) (·.resetDip))
  simp only [State.onlyIf, hd, Bool.and_false, Bool.false_eq_true, if_false] at hrun
  exact hrun

/-- Settles O56: every command of Firebreak, by what its function of the state leaves of the registers of the FIREBREAK page and of
Firebreak's state. -/
theorem firebreakCommandsComplete : Obligations.FirebreakCommandsComplete := by
  unfold Obligations.FirebreakCommandsComplete
  intro s
  refine ⟨fun hlive => ⟨?sample, ?deepens, ?releases, ?cal, ?stale, ?limit, ?fixed, ?droop, ?temp, ?hot, ?cold, ?warning,
    ?recovery, ?uvRelease, ?hint, ?ack, ?windowEnd, ?pmbus, ?alert, ?noAlert⟩, fun ht hp => ⟨?trip, ?dip, ?dipAgain⟩⟩
  case sample => exact ⟨_, State.run_live (·.powerSample) hlive, s.powerSample_now⟩
  case deepens =>
    exact fun c hb ha hf => ⟨_, State.run_live (·.capEvaluate c) hlive, State.capEvaluate_deepens hb ha hf⟩
  case releases =>
    exact fun c hb ha hd hr hf => ⟨_, State.run_live (·.capEvaluate c) hlive, State.capEvaluate_releases hb ha hd hr hf⟩
  case cal =>
    exact fun cl e v r hr hruns hfree hfront hready hhead => exec_fbCalUpdate_now hlive hr hruns hfree hfront hready hhead
  case stale => exact exec_calStale_due hlive
  case limit => exact exec_deferralLimit_due hlive
  case fixed => exact fun req on hw => exec_fixed_now hlive hw
  case droop =>
    exact fun h ns => ⟨_, State.run_live (·.droop h.val ns) hlive, State.droop_count h.isLt ns, State.droop_told ns⟩
  case temp => exact fun x h0 h1 => ⟨_, State.run_live (·.tempSample x) hlive, State.tempSample_hbm x h0 h1⟩
  case hot => exact fun hhot hdue hf => ⟨_, State.run_live (·.thermalStep) hlive, State.thermalStep_deepens hhot hdue hf⟩
  case cold => exact fun hcold hdue hd => ⟨_, State.run_live (·.thermalStep) hlive, State.thermalStep_releases hcold hdue hd⟩
  case warning =>
    exact fun rail high => ⟨_, State.run_live (·.supplyWarning rail.val high) hlive, s.supplyWarning_warns rail.val high⟩
  case recovery => exact fun rail h => ⟨_, State.run_live (·.supplyRecovery rail.val) hlive, State.supplyRecovery_ends h⟩
  case uvRelease => exact fun u hrec hdue => exec_uvRelease_due hlive hrec hdue
  case hint =>
    intro d us hw hen hus
    obtain ⟨t, ht, hfire⟩ := exec_hint_now (d := d) hlive hw
    rw [← hus] at hfire
    refine ⟨fun hend hpend => ⟨t, ht, ?_⟩, fun e hend => ⟨t, ht, ?_⟩⟩
    · rw [hfire]
      exact State.hintStart_waits hen hend hpend
    · rw [hfire]
      exact State.hintStart_lengthens hen hend
  case ack => exact fun x hpend hio => exec_hintAck_pending hlive hpend hio
  case windowEnd => exact fun u hend hdue => exec_hintWindowEnd_due hlive hend hdue
  case pmbus => exact fun x hpend hdue => exec_pmbusErr_due hlive hpend hdue
  case alert => exact fun level hlevel hroom => exec_alertN_changed hlive hlevel hroom
  case noAlert => exact fun level hlevel => exec_alertN_unchanged hlive hlevel
  case trip => exact fun h => exec_thermalTrip_stops h ht hp
  case dip => exact fun b hd => exec_resetDip_fresh b ht hp hd
  case dipAgain => exact fun b hd => exec_resetDip_again b hd

end Sys2Proof.Machine
end

section
/-! SUPPORT. What the head answers to each command of the mailbox, and what its completion leaves
(16_forester_security.md R431 to R445). -/

namespace Sys2Proof.Machine

/-! ### A command that the head carries out (R431) -/

/-- The state after the head has carried out a command: what it has come to is held with it. -/
def State.answers (s : State) (x : State × MbResult) : State :=
  (x.1.setMb { x.1.forester.mb with result := some x.2 }).keepQueue s

section
variable (s : State) (x : State × MbResult)

@[simp] theorem State.answers_result : (s.answers x).forester.mb.result = some x.2 := rfl
@[simp] theorem State.answers_staged : (s.answers x).forester.staged = x.1.forester.staged := rfl
@[simp] theorem State.answers_lcNext : (s.answers x).forester.lcNext = x.1.forester.lcNext := rfl
@[simp] theorem State.answers_cluster (c : Nat) : (s.answers x).cluster c = x.1.cluster c := rfl
@[simp] theorem State.answers_meas (i : Nat) : (s.answers x).meas i = x.1.meas i := rfl
@[simp] theorem State.answers_span (q : Nat) : (s.answers x).span q = x.1.span q := rfl

end

/-- The head in office carries out the running command. -/
theorem State.run_mailbox {s : State} {op : Nat} (f : State → State × MbResult) (hlive : s.live = true)
    (h : s.MailboxRuns op) : s.run (·.mbAct op f) = .next (s.answers (f s)) := by
  obtain ⟨hbusy, hop, hfresh, hhead⟩ := h
  rw [State.run_live _ hlive, State.mbAct]
  dsimp only
  rw [if_pos ⟨hbusy, hop, by rw [hfresh]; rfl, hhead⟩, State.answers]

theorem State.mbNeeds_of_le {s : State} {n : Nat} (f : State → State × MbResult) (h : n ≤ s.mbReq.length) :
    s.mbNeeds n f = f s := if_neg (Nat.not_lt.2 h)

/-! ### The log (R435) -/

theorem LogEntry.words_length (e : LogEntry) : e.words.length = 8 := by
  unfold LogEntry.words
  split <;> rfl

theorem State.longWords_length (s : State) (n : Nat) : (s.longWords n).length = 8 := by
  unfold State.longWords
  dsimp only
  split
  · exact LogEntry.words_length _
  · rfl

theorem wordsLe_length (ws : List Word) : (wordsLe ws).length = 4 * ws.length := by
  induction ws with
  | nil => rfl
  | cons w ws ih =>
    have h : (leBytes 4 w.toNat).length = 4 := rfl
    have hcons : wordsLe (w :: ws) = leBytes 4 w.toNat ++ wordsLe ws := List.flatMap_cons
    rw [hcons, List.length_append, h, ih, List.length_cons]
    omega

/-- One entry fits in the response. -/
theorem State.mbLog_one {s : State} (hreq : 8 ≤ s.mbReq.length) (hone : s.mbArg 1 = 1) :
    s.mbLog = (s.drawn, mbDone (wordsLe (s.longWords (s.mbArg 0)))) := by
  have hd : (List.range (min 65536 (s.mbArg 1))).flatMap (fun k => wordsLe (s.longWords (s.mbArg 0 + k)))
      = wordsLe (s.longWords (s.mbArg 0)) := by
    rw [hone]
    exact List.append_nil _
  have hlen : (wordsLe (s.longWords (s.mbArg 0))).length ≤ 4064 := by
    rw [wordsLe_length, State.longWords_length]
    decide
  rw [State.mbLog, State.mbNeeds_of_le _ hreq]
  dsimp only
  rw [hd, List.take_of_length_le hlen, List.drop_of_length_le hlen]
  rfl

/-! ### Images (R440) -/

/-- A verified load of the data path is staged. -/
theorem State.stage_load (s : State) (b : List Byte) {i : Image} (ht : imgType i.hdr = 3) :
    AMap.get none (s.stage b i).1.forester.staged 3 = some i := by
  rw [State.stage, ht, if_neg (by decide), if_pos (.inr rfl)]
  exact AMap.get_set_same none s.forester.staged 3 (some i)

theorem State.mbStage_answers {s : State} {img : List Byte} (hreq : 4 ≤ s.mbReq.length) (hdma : s.dmaOk = true)
    (ht : imgType (s.mbBuffer img) = s.mbArg 0) :
    s.mbStage img = match s.verifyImage s.strict (s.mbBuffer img) with
      | .bad st => (s, mbStat st)
      | .good i => s.stage (s.mbBuffer img) i := by
  rw [State.mbStage, State.mbNeeds_of_le _ hreq]
  dsimp only
  refine (if_neg (by rw [hdma]; decide)).trans ?_
  exact if_neg (not_not.2 ht)

/-- The staged load of the data path is applied, unless one of its records would be refused. -/
theorem State.mbApply_load {s : State} {i : Image} {recs : List LoadRec} (hreq : 4 ≤ s.mbReq.length) (harg : s.mbArg 0 = 3)
    (hrec : s.headRecovers = false) (hst : AMap.get none s.forester.staged 3 = some i) (hpay : payloadRecs i.payload = some recs)
    (hok : recs.any (({ s with forester := { s.forester with staged := AMap.set none s.forester.staged 3 none } } :
      State).recRefused s.headReq) = false) : s.mbApply.2 = mbStat mbOk := by
  rw [State.mbApply, State.mbNeeds_of_le _ hreq]
  dsimp only
  rw [harg, if_neg (by rw [hrec]; decide), hst]
  dsimp only
  rw [if_neg (by decide), State.applyLoad, hpay]
  dsimp only
  rw [if_neg (by rw [Bool.not_eq_true]; exact hok)]

/-! ### Clusters (R430, R441) -/

theorem State.mbRestart_boots {s : State} (hreq : 4 ≤ s.mbReq.length) (hc : s.mbArg 0 < 2)
    (hst : (s.cluster (s.mbArg 0)).st ≠ .head) :
    s.mbRestart = (s.setCluster (s.mbArg 0) { s.cluster (s.mbArg 0) with st := .boot, uart := false }, mbStat mbOk) := by
  rw [State.mbRestart, State.mbNeeds_of_le _ hreq]
  dsimp only
  rw [if_neg (Nat.not_le.2 hc), if_neg hst]

theorem State.setCluster_cluster_ne (s : State) {c o : Nat} (x : ClusterS) (h : c = 0 ↔ o ≠ 0) :
    (s.setCluster o x).cluster c = s.cluster c := by
  unfold State.setCluster State.cluster
  by_cases hc : c = 0
  · simp [hc, h.1 hc]
  · simp [hc, not_not.1 (mt h.2 hc)]

/-- Another cluster than the one whose claim has succeeded stays as it is. -/
theorem State.newHead_other (s : State) {c o : Nat} (h : c = 0 ↔ o ≠ 0) : (s.newHead o).cluster c = s.cluster c := by
  unfold State.newHead
  extract_lets s1 f mb s2 before s3
  have hset : (s3.onlyIf (s3.ioBank 1) (·.headSetpoint)).forester = s3.forester := by
    unfold State.onlyIf
    split
    · exact s3.headSetpoint_forester
    · rfl
  have h1 : s2.cluster c = s1.cluster c := rfl
  have h2 : s1.cluster c = s.cluster c := by
    unfold State.cluster
    rw [s.setHolder_forester (o + 1)]
  rw [State.longSync_cluster, State.cluster_of_forester hset, State.setCluster_cluster_ne _ _ h, h1, h2]

/-- HANDOVER makes the other cluster head, and the old head STANDBY. -/
theorem State.mbHandover_hands {s : State} (hhead : s.headReaches = true) (hst : (s.cluster (1 - s.headIdx)).st = .standby)
    (hsvn : (s.cluster s.headIdx).svn ≤ (s.cluster (1 - s.headIdx)).svn) (hup : s.flumeUp = true) (hh : s.forester.holder ≤ 2) :
    s.mbHandover.1.forester.holder = 3 - s.forester.holder ∧ (s.mbHandover.1.cluster (1 - s.headIdx)).st = .head
    ∧ (s.mbHandover.1.cluster s.headIdx).st = .standby ∧ s.mbHandover.2 = mbStat mbOk := by
  have hpos : s.forester.holder ≠ 0 := by
    intro h
    simp [State.headReaches, h] at hhead
  rw [State.mbHandover]
  dsimp only
  rw [if_pos ⟨hst, hsvn, hup⟩]
  have hidx : s.headIdx = s.forester.holder - 1 := rfl
  obtain ⟨hholder, -, hnew⟩ := (s.setCluster s.headIdx { s.cluster s.headIdx with st := .standby }).newHead_heads (1 - s.headIdx)
  refine ⟨hholder.trans (by omega), hnew, ?_, rfl⟩
  rw [State.newHead_other _ (by omega), State.setCluster_cluster]

/-! ### The retained image (17_reset_retained.md R461) -/

theorem State.mbSave_answers {s : State} (h : s.rst.restoring = false) :
    s.mbSave.2 = if bodyMax < s.cfgBuild.body_.length then mbStat mbStorage else mbDone (leBytes 8 s.cfgBuild.seq) := by
  rw [State.mbSave, if_neg (by rw [h]; decide)]
  dsimp only
  split <;> rfl

/-! ### Attestation (R442, R443) -/

theorem State.mbAttest_reports {s : State} (hid : s.hasIdentity = true) (hreq : 64 ≤ s.mbReq.length)
    (hlen : 5376 ≤ s.forester.mb.alen) : s.mbAttest.2 = { status := mbOk, data := s.report_ s.mbReq } := by
  rw [State.mbAttest, if_neg (by rw [hid]; decide), if_neg (Nat.not_lt.2 hreq), if_neg (Nat.not_lt.2 hlen)]

theorem State.extend_meas (s : State) (i : Nat) (record : List Byte) : (s.extend i record).meas i = sha3 (s.meas i ++ record) :=
  AMap.get_set_same (zeros 64) s.forester.meas i (sha3 (s.meas i ++ record))

/-! ### Life cycle and fuses (R433, R445) -/

theorem State.mbAdvance_answers {s : State} {img : List Byte} (hreq : 4 ≤ s.mbReq.length) (hdma : s.dmaOk = true) :
    s.mbAdvance img = match s.verifyImage s.strict (s.mbBuffer img) with
      | .bad st => (s, mbStat st)
      | .good i => match s.tokenTarget i with
        | .inl t => ({ s with forester := { s.forester with lcNext := some (t, 0) } }, mbStat mbOk)
        | .inr st => (s, mbStat st) := by
  rw [State.mbAdvance, State.mbNeeds_of_le _ hreq]
  exact if_neg (by rw [hdma]; decide)

theorem State.mbSvn_raises {s : State} {x : Nat} {xs : List Nat} (hreq : 4 ≤ s.mbReq.length) (h1 : 1 ≤ s.mbArg 0)
    (h6 : s.mbArg 0 ≤ 6) (hrun : s.runningSvns (s.mbArg 0) = x :: xs) :
    AMap.get 0 s.mbSvn.1.fuses.svn (s.mbArg 0) = max (AMap.get 0 s.fuses.svn (s.mbArg 0)) (min 63 (xs.foldl min x)) := by
  rw [State.mbSvn, State.mbNeeds_of_le _ hreq]
  dsimp only
  rw [if_neg (by omega), hrun]
  exact AMap.get_set_same 0 s.fuses.svn (s.mbArg 0) _

theorem State.mbKey_programs {s : State} (hreq : 68 ≤ s.mbReq.length) (hlife : s.fuses.life = 1)
    (hk : s.mbArg 0 = 2 ∨ s.mbArg 0 = 3) (hfree : AMap.get [] s.fuses.keys (s.mbArg 0) = []) :
    AMap.get [] s.mbKey.1.fuses.keys (s.mbArg 0) = bytesAt s.mbReq 4 64 := by
  have hnone : s.fusedDigest (s.mbArg 0) = none := by rw [State.fusedDigest, if_neg (by omega), if_pos hfree]
  rw [State.mbKey, State.mbNeeds_of_le _ hreq]
  dsimp only
  rw [if_neg (not_not.2 hlife), if_neg (by omega), hnone, if_neg (by decide)]
  exact AMap.get_set_same ([] : List Byte) s.fuses.keys (s.mbArg 0) (bytesAt s.mbReq 4 64)

/-! ### Completion (R431, R432) -/

/-- A result that is published: the command is done, its status stands, and DONE is set. -/
theorem State.mbPublish_done (s : State) (r : MbResult) :
    (s.mbPublish r).forester.mb.busy = false ∧ (s.mbPublish r).forester.mb.done = true
    ∧ (s.mbPublish r).forester.mb.status = r.status ∧ (s.mbPublish r).rbit pgForester 0x10 evDone = true := by
  unfold State.mbPublish
  extract_lets m s1 s2 s3 s4 mb s5
  have h5 : s5.forester.mb.busy = false ∧ s5.forester.mb.done = true ∧ s5.forester.mb.status = r.status := ⟨rfl, rfl, rfl⟩
  clear_value s5
  have hend : ((s5.fwEnd (List.range 128)).raise pgForester evDone).forester = s5.forester :=
    (State.raise_forester _ _ _).trans ((State.fwEnd_same (.refl _) s5 _ (.refl _ s5)).forester rfl)
  rw [hend]
  obtain ⟨hbusy, hdone, hstatus⟩ := h5
  exact ⟨hbusy, hdone, hstatus, State.raise_evt _ _ (by decide)⟩

/-- The head completes the running command with what the command has come to, or with BAD_OP. -/
theorem State.mbComplete_publishes {s : State} {r : MbResult} (hbusy : s.forester.mb.busy = true) (hhead : s.headReaches = true)
    (hboots : s.stillBoots = false)
    (hr : if s.forester.mb.op ∈ mbOps then ∃ x, s.forester.mb.result = some x ∧ r = (s.mbSettle (s.mbFinal x)).2
      else r = mbStat mbBadOp) : ∃ u : State, s.mbComplete = u.mbPublish r := by
  rw [State.mbComplete]
  dsimp only
  rw [if_neg (by rw [hbusy, hhead, hboots]; decide)]
  split at hr
  · next hop =>
    obtain ⟨x, hx, rfl⟩ := hr
    rw [if_neg (not_not.2 hop), hx]
    exact ⟨_, rfl⟩
  · next hop =>
    rw [if_pos hop, hr]
    exact ⟨_, rfl⟩

end Sys2Proof.Machine
end

section
/-! PROOF. The commands of the mailbox do what 16_forester_security.md R430 to R445 say (O58). -/

namespace Sys2Proof.Machine

theorem exec_imgStage_answers {s : State} {img : List Byte} (hlive : s.live = true) (h : s.MailboxRuns 0x20)
    (hreq : 4 ≤ s.mbReq.length) (hdma : s.dmaOk = true) (ht : imgType (s.mbBuffer img) = s.mbArg 0) :
    ∃ t, exec (.imgStage img) s = .next t
      ∧ t.forester.mb.result = some (match s.verifyImage s.strict (s.mbBuffer img) with
          | .bad st => mbStat st
          | .good i => (s.stage (s.mbBuffer img) i).2)
      ∧ ∀ i, s.verifyImage s.strict (s.mbBuffer img) = .good i → imgType i.hdr = 3 →
        AMap.get none t.forester.staged 3 = some i := by
  refine ⟨_, State.run_mailbox (·.mbStage img) hlive h, ?_⟩
  rw [State.answers_result, State.answers_staged, State.mbStage_answers hreq hdma ht]
  cases hv : s.verifyImage s.strict (s.mbBuffer img) with
  | bad st => exact ⟨rfl, fun _ hgood => nomatch hgood⟩
  | good i =>
    refine ⟨rfl, fun j hgood htype => ?_⟩
    cases hgood
    exact s.stage_load _ htype

theorem exec_lcAdvance_answers {s : State} {img : List Byte} (hlive : s.live = true) (h : s.MailboxRuns 0x50)
    (hreq : 4 ≤ s.mbReq.length) (hdma : s.dmaOk = true) :
    ∃ t, exec (.lcAdvance img) s = .next t
      ∧ t.forester.mb.result = some (match s.verifyImage s.strict (s.mbBuffer img) with
          | .bad st => mbStat st
          | .good i => match s.tokenTarget i with | .inl _ => mbStat mbOk | .inr st => mbStat st)
      ∧ ∀ i life, s.verifyImage s.strict (s.mbBuffer img) = .good i → s.tokenTarget i = .inl life →
        t.forester.lcNext = some (life, 0) := by
  refine ⟨_, State.run_mailbox (·.mbAdvance img) hlive h, ?_⟩
  rw [State.answers_result, State.answers_lcNext, State.mbAdvance_answers hreq hdma]
  cases hv : s.verifyImage s.strict (s.mbBuffer img) with
  | bad st => exact ⟨rfl, fun _ _ hgood => nomatch hgood⟩
  | good i =>
    dsimp only
    cases ht : s.tokenTarget i with
    | inl life =>
      refine ⟨rfl, fun j l hgood hl => ?_⟩
      cases hgood
      cases ht.symm.trans hl
      rfl
    | inr st =>
      refine ⟨rfl, fun j l hgood hl => ?_⟩
      cases hgood
      cases ht.symm.trans hl

/-- A byte of a channel that is routed to Forester is read once (04_span_framing.md R124). -/
theorem State.mbChRead_reads {s : State} (hreq : 4 ≤ s.mbReq.length) (hroute : s.chRoute s.mbPos s.mbPath = .forester) :
    s.mbChRead = (s.setSpan s.mbPos ((s.span s.mbPos).setChRx s.mbPath (((s.span s.mbPos).chRx s.mbPath).drop 4096)),
      mbDone (((s.span s.mbPos).chRx s.mbPath).take 4096)) := by
  rw [State.mbChRead, State.mbNeeds_of_le _ hreq]
  dsimp only
  rw [if_pos hroute]

theorem State.mbChWrite_writes {s : State} (hreq : 4 ≤ s.mbReq.length) (hroute : s.chRoute s.mbPos s.mbPath = .forester) :
    s.mbChWrite.1 = s.setSpan s.mbPos ((s.span s.mbPos).setChTx s.mbPath ((s.span s.mbPos).chTx s.mbPath
      ++ (s.mbReq.drop 4).take (4096 - ((s.span s.mbPos).chTx s.mbPath).length))) := by
  rw [State.mbChWrite, State.mbNeeds_of_le _ hreq]
  dsimp only
  rw [if_pos hroute]

theorem SpanS.chRx_setChRx (x : SpanS) (path : Bool) (l : List Byte) : (x.setChRx path l).chRx path = l := by
  cases path <;> rfl

theorem SpanS.chTx_setChTx (x : SpanS) (path : Bool) (l : List Byte) : (x.setChTx path l).chTx path = l := by
  cases path <;> rfl

/-- SENSORS shows the reading of VDD_CORE in FB_VCORE. -/
theorem State.mbSensors_vcore {s : State} (words : List Word) (hio : s.ioBank 1 = true) :
    (s.mbSensors words).1.rf pgFirebreak Reg.fbVcore 16 16 = fld (wordAt words 0) 0 16 := by
  have hlt : fld (wordAt words 0) 0 16 < 2 ^ 16 := Nat.mod_lt _ (by decide)
  simp only [State.mbSensors, hio, if_true, State.rf, State.setRf, State.reg_setReg]
  rw [fld_put _ _ (by decide), Nat.mod_eq_of_lt hlt]

theorem exec_mailboxComplete_done {s : State} {r : MbResult} (hlive : s.live = true) (hbusy : s.forester.mb.busy = true)
    (hhead : s.headReaches = true) (hboots : s.stillBoots = false)
    (hr : if s.forester.mb.op ∈ mbOps then ∃ x, s.forester.mb.result = some x ∧ r = (s.mbSettle (s.mbFinal x)).2
      else r = mbStat mbBadOp) :
    ∃ t, exec .mailboxComplete s = .next t ∧ t.forester.mb.busy = false ∧ t.forester.mb.done = true
      ∧ t.forester.mb.status = r.status ∧ t.rbit pgForester 0x10 evDone = true := by
  obtain ⟨u, hu⟩ := State.mbComplete_publishes hbusy hhead hboots hr
  refine ⟨_, State.run_live (·.mbComplete) hlive, ?_⟩
  rw [hu]
  exact u.mbPublish_done r

theorem exec_noHead_ends {s : State} (hlive : s.live = true) (hbusy : s.forester.mb.busy = true)
    (hnone : s.forester.mb.headed = false) (hdue : s.forester.mb.goAt + 100000000 ≤ s.clk.up) :
    ∃ t, exec .noHead s = .next t ∧ t.forester.mb.busy = false ∧ t.forester.mb.status = mbNoHead := by
  have hend : s.mbNoHeadEnd = s.mbPublish (mbStat mbNoHead) := if_pos ⟨hbusy, hnone, hdue⟩
  refine ⟨_, State.run_live (·.mbNoHeadEnd) hlive, ?_⟩
  rw [hend]
  obtain ⟨hidle, -, hstatus, -⟩ := s.mbPublish_done (mbStat mbNoHead)
  exact ⟨hidle, hstatus⟩

/-- Settles O58: the head carries out each operation of the mailbox by one function of the state, whose answer it holds as the
command's result; its completion, or the lack of a head, publishes a result. -/
theorem mailboxCommandsComplete : Obligations.MailboxCommandsComplete := by
  unfold Obligations.MailboxCommandsComplete
  intro s hlive
  refine ⟨?info, ?sensors, ?logRead, ?fatalRead, ?trapRead, ?pmRead, ?chRead, ?chWrite, ?imgStage, ?imgApply, ?restart,
    ?handover, ?cfgSave, ?attest, ?ident, ?measExtend, ?lcAdvance, ?svnAdvance, ?keyProgram, ?complete, ?noHead⟩
  case info => exact fun h => ⟨_, State.run_mailbox (fun s => (s, s.mbInfo)) hlive h, rfl⟩
  case sensors =>
    exact fun x h hio => ⟨_, State.run_mailbox (·.mbSensors x.words) hlive h, rfl, State.mbSensors_vcore x.words hio⟩
  case logRead =>
    intro h hreq hone
    refine ⟨_, State.run_mailbox State.mbLog hlive h, ?_⟩
    rw [State.answers_result, State.mbLog_one hreq hone]
  case fatalRead =>
    intro x h hreq hx hvalid hnum
    refine ⟨_, State.run_mailbox State.mbFatal hlive h, ?_⟩
    rw [State.answers_result, State.mbFatal, State.mbNeeds_of_le _ hreq]
    dsimp only
    rw [hx, if_pos ⟨hvalid, hnum⟩]
  case trapRead => exact fun h => ⟨_, State.run_mailbox State.mbTraps hlive h, rfl, rfl⟩
  case pmRead =>
    intro x h hreq hx
    refine ⟨_, State.run_mailbox State.mbPm hlive h, ?_⟩
    rw [State.answers_result, State.mbPm, State.mbNeeds_of_le _ hreq]
    dsimp only
    rw [hx]
  case chRead =>
    intro h hreq hroute
    refine ⟨_, State.run_mailbox State.mbChRead hlive h, ?_⟩
    rw [State.answers_span, State.answers_result, State.mbChRead_reads hreq hroute]
    exact ⟨by rw [State.span_setSpan, SpanS.chRx_setChRx], rfl⟩
  case chWrite =>
    intro h hreq hroute
    refine ⟨_, State.run_mailbox State.mbChWrite hlive h, ?_⟩
    rw [State.answers_span, State.mbChWrite_writes hreq hroute, State.span_setSpan, SpanS.chTx_setChTx]
  case imgStage => exact fun img h hreq hdma ht => exec_imgStage_answers hlive h hreq hdma ht
  case imgApply =>
    intro i recs h hreq harg hrec hst hpay hok
    refine ⟨_, State.run_mailbox State.mbApply hlive h, ?_⟩
    rw [State.answers_result, State.mbApply_load hreq harg hrec hst hpay hok]
  case restart =>
    intro h hreq hc hst
    refine ⟨_, State.run_mailbox State.mbRestart hlive h, ?_⟩
    rw [State.answers_cluster, State.answers_result, State.mbRestart_boots hreq hc hst, State.setCluster_cluster]
    exact ⟨rfl, rfl⟩
  case handover =>
    intro h hst hsvn hup hh
    obtain ⟨hholder, hnew, hold, hok⟩ := State.mbHandover_hands h.head hst hsvn hup hh
    exact ⟨_, State.run_mailbox State.mbHandover hlive h, hholder, hnew, hold, congrArg some hok⟩
  case cfgSave =>
    intro h hres
    exact ⟨_, State.run_mailbox State.mbSave hlive h, congrArg some (State.mbSave_answers hres)⟩
  case attest =>
    intro h hid hreq hlen
    exact ⟨_, State.run_mailbox State.mbAttest hlive h, congrArg some (State.mbAttest_reports hid hreq hlen)⟩
  case ident =>
    intro h hid
    have hrun := State.run_mailbox (fun s => (s, if s.hasIdentity then mbDone s.identityKey else mbStat mbState)) hlive h
    exact ⟨_, hrun, congrArg some (if_pos hid)⟩
  case measExtend =>
    intro h hreq
    refine ⟨_, State.run_mailbox State.mbMeas hlive h, ?_⟩
    rw [State.answers_meas, State.answers_result, State.mbMeas, State.mbNeeds_of_le _ hreq, State.extend_meas]
    exact ⟨rfl, rfl⟩
  case lcAdvance => exact fun img h hreq hdma => exec_lcAdvance_answers hlive h hreq hdma
  case svnAdvance =>
    intro x xs h hreq h1 h6 hrun
    exact ⟨_, State.run_mailbox State.mbSvn hlive h, State.mbSvn_raises hreq h1 h6 hrun⟩
  case keyProgram =>
    rintro k h hreq hlife rfl hk hfree
    exact ⟨_, State.run_mailbox State.mbKey hlive h, State.mbKey_programs hreq hlife hk hfree⟩
  case complete => exact fun r hbusy hhead hboots hr => exec_mailboxComplete_done hlive hbusy hhead hboots hr
  case noHead => exact fun hbusy hnone hdue => exec_noHead_ends hlive hbusy hnone hdue

end Sys2Proof.Machine
end
